-- ==== Sys2Proof/Word.lean ====
section
/-! DEFINITION. The plain word types of the model: bytes of frames and memories, and the 64-bit words of Kerarqua (03 R76). -/

namespace Sys2Proof

/-- One byte of a frame, a memory or a flash image. -/
abbrev Byte := BitVec 8

/-- One general register or signal value of a Kerarqua engine (03 R76). -/
abbrev W64 := BitVec 64

end Sys2Proof
end

