-- ==== Sys2Proof/Machine/FMap.lean ====
section
/-! DEFINITION. A sparse map from numbers to values in one canonical form: keys strictly rising, no entry that holds the default. It carries the register file, the byte memory and the indexed units of State. -/

namespace Sys2Proof

/-- Key and value pairs; an absent key holds the default. -/
abbrev FMap (β : Type) := List (Nat × β)

/-- The value at `k`, the default `d` where `k` is not listed. -/
def FMap.get {β : Type} (d : β) : FMap β → Nat → β
  | [], _ => d
  | (k', v) :: t, k => if k' = k then v else FMap.get d t k

/-- The map with `v` at `k`; writing the default removes the entry, so equal maps are equal lists. -/
def FMap.put {β : Type} [DecidableEq β] (d : β) (m : FMap β) (k : Nat) (v : β) : FMap β :=
  m.filter (fun e => decide (e.1 < k)) ++
    ((if v = d then [] else [(k, v)]) ++ m.filter (fun e => decide (k < e.1)))

/-- The map with `f` applied at `k`. -/
def FMap.upd {β : Type} [DecidableEq β] (d : β) (m : FMap β) (k : Nat) (f : β → β) : FMap β :=
  FMap.put d m k (f (FMap.get d m k))

/-- The canonical form: keys strictly rising, no default listed. -/
def FMap.wf {β : Type} [DecidableEq β] (d : β) : FMap β → Bool
  | [] => true
  | [(_, v)] => decide (v ≠ d)
  | (k, v) :: (k', v') :: t => decide (v ≠ d) && decide (k < k') && FMap.wf d ((k', v') :: t)

/-- The map without the keys of `[lo, lo + n)`. -/
def FMap.cut {β : Type} (m : FMap β) (lo n : Nat) : FMap β :=
  m.filter (fun e => decide (e.1 < lo)) ++ m.filter (fun e => decide (lo + n ≤ e.1))

end Sys2Proof
end

