-- ==== Sys2Proof/Machine/Types.lean ====
section
/-! DEFINITION. The plain data that commands carry and State holds: masters, frames, messages, fault records, checkpoints. Every structure has default field values, so that an absent entry of a sparse map is the default. -/

namespace Sys2Proof

/-- A master of the Ibsum fabric as its entry point presents it (02 R51): identity, and for identities 3 and 4 the far node's identifier, position and management mark. -/
structure Master where
  id : Nat := 0
  node : Nat := 0
  pos : Nat := 0
  mgr : Bool := false
deriving DecidableEq, Repr

/-- A measurement of a power input at the J1 contacts (15 R508, R532): volts in 0.1 V; of the primary, its kind and its frequency in 0.1 Hz; of the battery, the input current in mA in place of the frequency; whether its polarity is reversed (log entry 141). -/
structure Reading where
  volts : Nat := 0
  ac : Bool := false
  freq : Nat := 0
  reversed : Bool := false
deriving DecidableEq, Repr

/-- A frame as a port's PHY hands it to the receive MAC, from the destination address through the last byte before the FCS (07 R233). `frags` counts mPackets of a preempted frame (07 R240); `early`: its first byte arrived before the receive side of the port took its present epoch (08 R298; log entry 141). -/
structure WireFrame where
  bytes : List Byte := []
  fcsOk : Bool := true
  symErr : Bool := false
  smdErr : Bool := false
  assyErr : Bool := false
  frags : Nat := 0
  early : Bool := false
deriving DecidableEq, Repr

/-- A CAN frame on the bus or in a queue (10 R357); `acpt`, `sdt`, `sec` and `vcid` belong to CAN XL. -/
structure CanFrame where
  id : Nat := 0
  ide : Bool := false
  rtr : Bool := false
  fdf : Bool := false
  brs : Bool := false
  esi : Bool := false
  xlf : Bool := false
  sec : Bool := false
  sdt : Nat := 0
  acpt : Nat := 0
  vcid : Nat := 0
  data : List Byte := []
deriving DecidableEq, Repr

/-- How an attempt or a reception on a CAN bus ended in error (10 R366; ISO 11898-1). -/
inductive CanErr where
  | txDataBit      -- bit error after the arbitration field and before the ACK slot
  | txXlFast       -- error signalled by receivers at the end of a CAN XL data phase in FAST mode
  | txArbLost      -- arbitration lost: no error
  | txOther        -- any other error of an attempt
  | txAckPassive   -- ACK error of an error-passive transmitter that sees no dominant bit in its passive flag
  | txStuffArb     -- stuff error in arbitration, recessive stuff bit monitored dominant
  | txFlagBit      -- bit error while sending an active error flag or an overload flag, as transmitter
  | txFlagDominant -- eight dominant bits in a row after such a flag, as transmitter
  | rxFlagBit      -- bit error while sending an active error flag or an overload flag, as receiver
  | rxFlagDominant -- eight dominant bits in a row after such a flag, as receiver
  | rxError        -- an error detected as receiver
  | rxDominant     -- a dominant bit first after sending an error flag, as receiver
deriving DecidableEq, Repr

/-- What the surroundings deliver of a PTP message (09 R321-R333). Times are in units of 2^-16 ns; `ok` says that the checks of 13 R467 kind 5 pass. -/
structure PtpMsg where
  ok : Bool := true
  seq : Nat := 0
  twoStep : Bool := false
  origin : Int := 0
  corr : Int := 0
  t2 : Int := 0
  t3 : Int := 0
  src : Nat := 0
  tlv : Option (Int × Nat) := none
  prio1 : Nat := 0
  cls : Nat := 0
  acc : Nat := 0
  var : Nat := 0
  prio2 : Nat := 0
  gm : Nat := 0
  steps : Nat := 0
deriving DecidableEq, Repr

/-- A fault record (13 R462). -/
structure FaultRec where
  seq : Nat := 0
  fresh : Nat := 0
  sec : Nat := 0
  ns : Nat := 0
  epoch : Nat := 0
  state : Nat := 0
  source : Nat := 0
  code : Nat := 0
  rep : Nat := 0
  arg : Nat := 0
deriving DecidableEq, Repr

/-- What a drill found bad beside banks, table memory and topology engine, one bit each: Scarab engines, ports, field-bus channels (12 R443). -/
structure DrillParts where
  engines : Nat := 0
  ports : Nat := 0
  chans : Nat := 0
deriving DecidableEq, Repr

/-- One signal slot of a checkpoint: logical slot, index, value, status word with STAMP zero, age in us (12 R423, R427). -/
structure CkSig where
  slot : Nat := 0
  idx : Nat := 0
  value : Nat := 0
  status : Nat := 0
  age : Nat := 0
deriving DecidableEq, Repr

/-- The agreement checkpoint (12 R428): epoch and T_commit of a scheduled commit, the agreed directory and the shadow banks. -/
structure Agree where
  epoch : Nat := 0
  tcommit : Nat := 0
  digest : Nat := 0
  count : Nat := 0
  pos : Nat := 0
  orient : Nat := 0
  dir : FMap Nat := []
  tables : List (Nat × Nat × Byte) := []
deriving DecidableEq, Repr

/-- A checkpoint (12 R423). `tables` holds cells of the active banks of tables 8 to 11 as (table, byte offset, byte); `streams` words 0 to 2 of table 1 in the same way; `phy` the channel coefficients by port; `lens` the bytes of each part, by its place in the table of R423. An agreement checkpoint crosses the link in the same blocks, as `agree` of a checkpoint that holds nothing else (12 R428). -/
structure Ckpt where
  seq : Nat := 0
  sender : Nat := 0
  epoch : Nat := 0
  pos : Nat := 0
  orient : Nat := 0
  fresh : Nat := 0
  time : Nat := 0
  integ : Int := 0
  digest : Nat := 0
  count : Nat := 0
  tables : List (Nat × Nat × Byte) := []
  streams : List (Nat × Byte) := []
  phy : FMap (List Byte) := []
  lens : FMap Nat := []
  dsSeq : FMap Nat := []
  mailboxes : List (Nat × Nat × Byte) := []
  sigs : List CkSig := []
  agree : Option Agree := none
deriving DecidableEq, Repr

/-- The memories of 02 R68, in the order of its rows. -/
inductive MemKind where
  | packet | table | signal | code | mgmt | mram | bootRom
deriving DecidableEq, Repr

/-- Resources of the working sets, in the bit order of ARG[31:4] (13 R466). -/
inductive Res where
  | power | pipeline | banks | lineA | lineB | topology | timeUnit | slot | fieldBus | port | bridge | trdp | host
deriving DecidableEq, Repr

/-- A finding of the standby's continuous self-test (12 R440). -/
inductive Finding where
  | bootRom | cicada | claim | relay | memory | power
deriving DecidableEq, Repr

end Sys2Proof
end

