-- ==== Sys2Proof/Syntax.lean ====
section
/-! DEFINITION. The commands of the block: one constructor per row of spec/opcode_table.json, with the operands the surroundings give it. Kerarqua rows carry the engine number (18 the topology engine); rows that are writes of a master carry the master. -/

namespace Sys2Proof

/-- The commands, in the order of the opcode table. -/
inductive Instr where
  /-- POWER INPUT ENTERS RANGE (R508). -/
  | powerInputEntersRange (battery : Bool) (volts : Nat) (ac : Bool) (freq : Nat)
  /-- BOOT DONE (R172). -/
  | bootDone (m : Master)
  /-- CLAIM WAIT TIMEOUT (R410). -/
  | claimWaitTimeout
  /-- POWER INPUT LEAVES RANGE (R509). -/
  | powerInputLeavesRange (battery : Bool) (reading : Reading)
  /-- END OF HOLD UP (R511). -/
  | endOfHoldUp
  /-- TEMP WARN (R515). -/
  | tempWarn (die : Int) (wall : Int)
  /-- OVERTEMP (R515). -/
  | overtemp (die : Int)
  /-- OVERTEMP HOLD END (R515). -/
  | overtempHoldEnd (die : Int)
  /-- RAIL FAULT (R532). -/
  | railFault
  /-- ZERO SPEED CHANGE (R525). -/
  | zeroSpeedChange (level : Bool)
  /-- CAB ACTIVE CHANGE (R525). -/
  | cabActiveChange (level : Bool)
  /-- WATCHDOG EXPIRY (R411). -/
  | watchdogExpiry
  /-- LOCKSTEP MISMATCH (R50). -/
  | lockstepMismatch (addr : Nat)
  /-- RELAY MISMATCH (R269). -/
  | relayMismatch (line : Nat)
  /-- RELAY MISMATCH CLEAR (R269). -/
  | relayMismatchClear (m : Master) (line : Nat)
  /-- RELAY FORCE (R266). -/
  | relayForce (m : Master) (line : Nat) (value : Bool)
  /-- REGISTER WRITE (R11). -/
  | registerWrite (m : Master) (addr : Nat) (size : Nat) (value : Nat)
  /-- CAPTURING READ (R533). -/
  | capturingRead (m : Master) (addr : Nat) (size : Nat)
  /-- HIGHER WORD READ (R533). -/
  | higherWordRead (m : Master) (addr : Nat) (size : Nat)
  /-- DELTA VIEW READ (R252). -/
  | deltaViewRead (m : Master) (port : Nat) (idx : Nat)
  /-- TABLE WINDOW WRITE (R54). -/
  | tableWindowWrite (m : Master) (addr : Nat) (size : Nat) (value : Nat)
  /-- SIGNAL STORE WRITE (R117). -/
  | signalStoreWrite (m : Master) (addr : Nat) (value : Nat)
  /-- HELD OWNER WRITE APPLY (R56). -/
  | heldOwnerWriteApply (e : Nat)
  /-- MAILBOX WRITE (R88). -/
  | mailboxWrite (m : Master) (addr : Nat) (size : Nat) (value : Nat)
  /-- CODE MEMORY WRITE (R501). -/
  | codeMemoryWrite (m : Master) (addr : Nat) (value : Nat)
  /-- RUN (R118). -/
  | runEngine (m : Master) (e : Nat) (value : Bool)
  /-- HOLD (R118). -/
  | holdEngine (m : Master) (e : Nat) (value : Bool)
  /-- CLR PEAK (R118). -/
  | clrPeak (m : Master) (e : Nat)
  /-- DOORBELL (R118). -/
  | doorbell (m : Master) (e : Nat)
  /-- DISPATCH (R92). -/
  | dispatch (e : Nat)
  /-- TIMER FIRE (R91). -/
  | timerFire (e : Nat) (trig : Nat)
  /-- BUDGET (R100). -/
  | budget (e : Nat)
  /-- OUTPUT RELEASE (R96). -/
  | outputRelease (e : Nat)
  /-- ENGINE LOCKSTEP FAILURE (R448). -/
  | engineLockstepFailure (e : Nat)
  /-- SLOT MOVE (R49). -/
  | slotMove (e : Nat)
  /-- SERVICE LEVEL RISE (R43). -/
  | serviceLevelRise
  /-- NOP (R152). -/
  | kNop (e : Nat)
  /-- END (R152). -/
  | kEnd (e : Nat)
  /-- RET (R152). -/
  | kRet (e : Nat)
  /-- RDSP (R152). -/
  | kRdsp (e : Nat)
  /-- RDP (R152). -/
  | kRdp (e : Nat)
  /-- WRP (R152). -/
  | kWrp (e : Nat)
  /-- ADD (R126). -/
  | kAdd (e : Nat)
  /-- SUB (R126). -/
  | kSub (e : Nat)
  /-- AND (R126). -/
  | kAnd (e : Nat)
  /-- OR (R126). -/
  | kOr (e : Nat)
  /-- XOR (R126). -/
  | kXor (e : Nat)
  /-- ANDN (R126). -/
  | kAndn (e : Nat)
  /-- SHL (R126). -/
  | kShl (e : Nat)
  /-- SHR (R126). -/
  | kShr (e : Nat)
  /-- SAR (R126). -/
  | kSar (e : Nat)
  /-- ROR (R126). -/
  | kRor (e : Nat)
  /-- MIN (R126). -/
  | kMin (e : Nat)
  /-- MAX (R126). -/
  | kMax (e : Nat)
  /-- MINU (R126). -/
  | kMinu (e : Nat)
  /-- MAXU (R126). -/
  | kMaxu (e : Nat)
  /-- SEXT (R126). -/
  | kSext (e : Nat)
  /-- ZEXT (R126). -/
  | kZext (e : Nat)
  /-- MUL (R126). -/
  | kMul (e : Nat)
  /-- MULHS (R126). -/
  | kMulhs (e : Nat)
  /-- MULHU (R126). -/
  | kMulhu (e : Nat)
  /-- DIVS (R127). -/
  | kDivs (e : Nat)
  /-- DIVU (R127). -/
  | kDivu (e : Nat)
  /-- REMS (R127). -/
  | kRems (e : Nat)
  /-- REMU (R127). -/
  | kRemu (e : Nat)
  /-- BSWAP (R126). -/
  | kBswap (e : Nat)
  /-- POPC (R126). -/
  | kPopc (e : Nat)
  /-- CLZ (R126). -/
  | kClz (e : Nat)
  /-- ABS (R126). -/
  | kAbs (e : Nat)
  /-- CMP (R128). -/
  | kCmp (e : Nat)
  /-- ADDI (R129). -/
  | kAddi (e : Nat)
  /-- MOVI (R129). -/
  | kMovi (e : Nat)
  /-- MOVK (R129). -/
  | kMovk (e : Nat)
  /-- LD (R130). -/
  | kLd (e : Nat)
  /-- ST (R130). -/
  | kSt (e : Nat)
  /-- LDX (R130). -/
  | kLdx (e : Nat)
  /-- STX (R130). -/
  | kStx (e : Nat)
  /-- EXTB (R132). -/
  | kExtb (e : Nat)
  /-- INSB (R132). -/
  | kInsb (e : Nat)
  /-- SAT (R135). -/
  | kSat (e : Nat)
  /-- SCALE (R134). -/
  | kScale (e : Nat)
  /-- RANGE (R136). -/
  | kRange (e : Nat)
  /-- CONV (R137). -/
  | kConv (e : Nat)
  /-- LDS (R138). -/
  | kLds (e : Nat)
  /-- STS (R139). -/
  | kSts (e : Nat)
  /-- BR (R153). -/
  | kBr (e : Nat)
  /-- CALL (R153). -/
  | kCall (e : Nat)
  /-- LOOP (R154). -/
  | kLoop (e : Nat)
  /-- WAIT (R150). -/
  | kWait (e : Nat) (cycle : Nat)
  /-- SIGNAL (R151). -/
  | kSignal (e : Nat)
  /-- RXQ (R142). -/
  | kRxq (e : Nat)
  /-- EMIT (R143). -/
  | kEmit (e : Nat)
  /-- LAUNCH (R144). -/
  | kLaunch (e : Nat)
  /-- DROP (R145). -/
  | kDrop (e : Nat)
  /-- TBL LK (R146). -/
  | kTblLk (e : Nat)
  /-- TBL RD (R146). -/
  | kTblRd (e : Nat)
  /-- TBL WR (R146). -/
  | kTblWr (e : Nat)
  /-- TBL INS (R147). -/
  | kTblIns (e : Nat)
  /-- TBL DEL (R146). -/
  | kTblDel (e : Nat)
  /-- TBL LKRD (R146). -/
  | kTblLkrd (e : Nat)
  /-- TOPO PSTAT (R148). -/
  | kTopoPstat (e : Nat)
  /-- TOPO NBR (R148). -/
  | kTopoNbr (e : Nat)
  /-- TOPO CAND (R288). -/
  | kTopoCand (e : Nat)
  /-- TOPO AGREE (R290). -/
  | kTopoAgree (e : Nat)
  /-- TOPO COMMIT (R292). -/
  | kTopoCommit (e : Nat)
  /-- TOPO CANCEL (R148). -/
  | kTopoCancel (e : Nat)
  /-- TOPO NEWEP (R28). -/
  | kTopoNewep (e : Nat)
  /-- TOPO ACCEPT (R332). -/
  | kTopoAccept (e : Nat)
  /-- TOPO TSTAT (R335). -/
  | kTopoTstat (e : Nat)
  /-- TOPO LEVEL (R148). -/
  | kTopoLevel (e : Nat)
  /-- SCRUB WORD (R69). -/
  | scrubWord (mem : MemKind) (inst : Nat) (addr : Nat) (unc : Bool)
  /-- FRAME RECEIVED (R189). -/
  | frameReceived (port : Nat) (f : WireFrame)
  /-- PFC REPEAT (R217). -/
  | pfcRepeat (port : Nat) (cls : Nat)
  /-- PAUSE RECEIVED (R241). -/
  | pauseReceived (port : Nat) (f : WireFrame)
  /-- PAUSE EXPIRY (R241). -/
  | pauseExpiry (port : Nat) (cls : Nat)
  /-- VERIFY RECEIVED (R238). -/
  | verifyReceived (port : Nat)
  /-- RESPOND RECEIVED (R238). -/
  | respondReceived (port : Nat)
  /-- VERIFY TIMER (R238). -/
  | verifyTimer (port : Nat)
  /-- EGRESS SCHEDULE (R213). -/
  | egressSchedule (port : Nat)
  /-- COPY TRANSMITTED (R221). -/
  | copyTransmitted (port : Nat)
  /-- CELL RETURN (R223). -/
  | cellReturn (bank : Nat) (cells : Nat)
  /-- LINK UP (R259). -/
  | linkUp (port : Nat) (rate : Nat)
  /-- LINK DOWN (R204). -/
  | linkDown (port : Nat)
  /-- AUTO MODE DETECT (R258). -/
  | autoModeDetect (port : Nat) (compat : Bool)
  /-- CAPABILITY RECORD RECEIVED (R259). -/
  | capabilityRecordReceived (port : Nat)
  /-- CAPABILITY TIMER (R259). -/
  | capabilityTimer (port : Nat)
  /-- LPI ENTRY (R247). -/
  | lpiEntry (port : Nat)
  /-- LPI WAKE COMPLETE (R248). -/
  | lpiWakeComplete (port : Nat)
  /-- GEAR DECISION (R260). -/
  | gearDecision (port : Nat) (load : Nat) (m2 : Nat) (m3 : Nat) (m4 : Nat)
  /-- OWNER REQUESTED SHIFT (R260). -/
  | ownerRequestedShift (m : Master) (port : Nat) (gear : Nat)
  /-- GEAR REQ (R262). -/
  | gearReq (port : Nat) (gear : Nat) (start : Nat) (node : Nat)
  /-- GEAR ACK (R262). -/
  | gearAck (port : Nat)
  /-- GEAR NAK (R262). -/
  | gearNak (port : Nat) (next : Nat)
  /-- GEAR RETRY (R262). -/
  | gearRetry (port : Nat)
  /-- GEAR DEFERRED (R261). -/
  | gearDeferred (port : Nat)
  /-- SILENCE START (R263). -/
  | silenceStart (port : Nat)
  /-- SILENCE END (R263). -/
  | silenceEnd (port : Nat) (us : Nat)
  /-- QUALITY DOWNSHIFT (R264). -/
  | qualityDownshift (port : Nat) (margin : Nat) (m1 : Nat) (m2 : Nat) (m3 : Nat)
  /-- WAKE PATTERN MATCH (R250). -/
  | wakePatternMatch (port : Nat) (f : WireFrame)
  /-- HOST TX DESCRIPTOR FETCH (R186). -/
  | hostTxDescriptorFetch (ring : Nat) (desc : List Byte) (payload : List Byte)
  /-- TAIL WRITE (R185). -/
  | tailWrite (m : Master) (tx : Bool) (ring : Nat) (index : Nat)
  /-- RING DISABLE (R188). -/
  | ringDisable (m : Master) (tx : Bool) (ring : Nat)
  /-- HOST RX DELIVERY (R187). -/
  | hostRxDelivery (ring : Nat) (desc : List Byte)
  /-- IRQ SOURCE ENABLE (R507). -/
  | irqSourceEnable (m : Master) (src : Nat) (vector : Nat)
  /-- FREEZE (R229). -/
  | freeze (m : Master)
  /-- FREEZE DONE (R229). -/
  | freezeDone
  /-- BANK DRAIN START (R225). -/
  | bankDrainStart (bank : Nat)
  /-- SPARE CELL RELEASE (R225). -/
  | spareCellRelease (bank : Nat)
  /-- DRAIN MOVE (R226). -/
  | drainMove
  /-- BANK RETIRE (R226). -/
  | bankRetire
  /-- RECOVERY RESET TIMEOUT (R209). -/
  | recoveryResetTimeout (idx : Nat)
  /-- LAUNCH DUE (R338). -/
  | launchDue (port : Nat)
  /-- HELLO TIMER (R278). -/
  | helloTimer
  /-- HELLO (R282). -/
  | hello (port : Nat) (bytes : List Byte)
  /-- NEIGHBOUR TIMEOUT (R278). -/
  | neighbourTimeout (port : Nat)
  /-- EPOCH DIFFERENCE TIMEOUT (R282). -/
  | epochDifferenceTimeout (port : Nat)
  /-- REPORT (R285). -/
  | report (port : Nat) (bytes : List Byte)
  /-- DISCOVERY END (R285). -/
  | discoveryEnd
  /-- DISCOVERY TIMEOUT (R285). -/
  | discoveryTimeout
  /-- PROPOSE (R290). -/
  | propose (port : Nat) (bytes : List Byte)
  /-- CONFIRM (R292). -/
  | confirmRound (port : Nat) (bytes : List Byte)
  /-- PROPOSE TIMEOUT (R290). -/
  | proposeTimeout
  /-- CONFIRM TIMEOUT (R290). -/
  | confirmTimeout
  /-- ABORT (R291). -/
  | abortRound (port : Nat) (bytes : List Byte)
  /-- ROUND RETRY (R291). -/
  | roundRetry
  /-- EPOCH COMMIT (R296). -/
  | epochCommit
  /-- MARK (R298). -/
  | mark (port : Nat) (bytes : List Byte)
  /-- MARK TIMEOUT (R307). -/
  | markTimeout (port : Nat)
  /-- DIRECTORY WRITE (R295). -/
  | directoryWrite
  /-- GRACE END (R303). -/
  | graceEnd
  /-- TN7 IDENT (R310). -/
  | tn7Ident (port : Nat) (bytes : List Byte)
  /-- TN7 RECORD EXPIRY (R310). -/
  | tn7RecordExpiry (port : Nat)
  /-- TTDP FRAME (R309). -/
  | ttdpFrame (port : Nat) (ok : Bool) (bytes : List Byte)
  /-- SYNC (R327). -/
  | sync (port : Nat) (msg : PtpMsg)
  /-- FOLLOW UP (R327). -/
  | followUp (port : Nat) (msg : PtpMsg)
  /-- ANNOUNCE (R326). -/
  | announce (port : Nat) (msg : PtpMsg)
  /-- PDELAY REQ (R324). -/
  | pdelayReq (port : Nat) (msg : PtpMsg)
  /-- PDELAY RESP (R324). -/
  | pdelayResp (port : Nat) (msg : PtpMsg)
  /-- PTP MESSAGE INTERVAL (R322). -/
  | ptpMessageInterval (port : Nat) (kind : Nat)
  /-- RECEIPT TIMEOUT (R326). -/
  | receiptTimeout (port : Nat)
  /-- STEP TLV END (R333). -/
  | stepTlvEnd
  /-- ACCEPT STEP (R332). -/
  | acceptStep (m : Master)
  /-- SET (R345). -/
  | timeSet (m : Master)
  /-- HEARTBEAT SEND (R413). -/
  | heartbeatSend
  /-- HEARTBEAT RECEIVED (R416). -/
  | heartbeatReceived (path : Nat) (bytes : List Byte)
  /-- SILENCE DECLARED (R419). -/
  | silenceDeclared
  /-- PARTNER CLAIM CHANGE (R420). -/
  | partnerClaimChange (level : Bool)
  /-- TAKEOVER START (R431). -/
  | takeoverStart
  /-- CHECKPOINT CAPTURE (R425). -/
  | checkpointCapture
  /-- CHECKPOINT BLOCK RECEIVED (R426). -/
  | checkpointBlockReceived (seq : Nat) (idx : Nat) (good : Bool) (last : Bool) (ck : Ckpt)
  /-- SWITCHOVER (R438). -/
  | switchover (m : Master)
  /-- SWITCHOVER TIMEOUT (R439). -/
  | switchoverTimeout
  /-- DRILL NOW (R441). -/
  | drillNow (m : Master)
  /-- DRILL TIMER (R441). -/
  | drillTimer
  /-- DRILL COMPLETE (R443). -/
  | drillComplete (failed : Nat) (parts : DrillParts)
  /-- DRILL DEFERRED (R441). -/
  | drillDeferred
  /-- REQUEST (R179). -/
  | request (m : Master)
  /-- HANDOVER (R179). -/
  | handover (m : Master)
  /-- RENEW (R179). -/
  | renew (m : Master)
  /-- WITHDRAW (R179). -/
  | withdraw (m : Master)
  /-- LEASE EXPIRY (R180). -/
  | leaseExpiry
  /-- RESTART (R15). -/
  | restart (m : Master)
  /-- STABLE (R453). -/
  | stable (m : Master)
  /-- BLOCK (R469). -/
  | blockStore (m : Master)
  /-- COMMIT (R474). -/
  | commitUpdate (m : Master)
  /-- CONFIRM UPDATE (R477). -/
  | confirmUpdate (m : Master)
  /-- CONFIRM COPY DONE (R477). -/
  | confirmCopyDone
  /-- REVERT (R476). -/
  | revert (m : Master)
  /-- ABORT TRANSFER (R469). -/
  | abortTransfer (m : Master)
  /-- SETWRITE (R478). -/
  | setwrite (m : Master)
  /-- LOADER (R479). -/
  | loaderWrite (m : Master)
  /-- RELAY OFFER TIMER (R471). -/
  | relayOfferTimer (port : Nat)
  /-- OFFER (R471). -/
  | relayOffer (port : Nat) (bytes : List Byte)
  /-- RELAY BLOCK (R471). -/
  | relayBlock (port : Nat) (bytes : List Byte)
  /-- ACK (R471). -/
  | relayAck (port : Nat) (bytes : List Byte)
  /-- NAK (R471). -/
  | relayNak (port : Nat) (bytes : List Byte)
  /-- STANDBY IMAGE COPY (R473). -/
  | standbyImageCopy (k : Nat) (bytes : List Byte)
  /-- FLASH BLOCK RETIRE (R480). -/
  | flashBlockRetire (dev : Nat) (block : Nat)
  /-- FAULT LOG COPY (R463). -/
  | faultLogCopy
  /-- CAN ENABLE (R356). -/
  | canEnable (m : Master) (ch : Nat) (value : Nat)
  /-- CAN FRAME VALID (R350). -/
  | canFrameValid (ch : Nat) (f : CanFrame)
  /-- CAN TX SUCCESS (R361). -/
  | canTxSuccess (ch : Nat)
  /-- CAN ERROR (R366). -/
  | canError (ch : Nat) (err : CanErr)
  /-- RECOVER (R365). -/
  | recover (m : Master) (ch : Nat)
  /-- RECOVERY COMPLETE (R365). -/
  | recoveryComplete (ch : Nat)
  /-- FLUSH TX (R362). -/
  | flushTx (m : Master) (ch : Nat)
  /-- RXACK (R353). -/
  | rxack (m : Master) (ch : Nat) (count : Nat)
  /-- FIELDBUS ENTRY FREED (R352). -/
  | fieldbusEntryFreed (ch : Nat)
  /-- MVB MASTER FRAME (R370). -/
  | mvbMasterFrame (ch : Nat) (fcode : Nat) (addr : Nat) (ok : Bool)
  /-- MVB SLAVE FRAME (R371). -/
  | mvbSlaveFrame (ch : Nat) (ok : Bool) (line : Nat) (bytes : List Byte)
  /-- MVB BASIC PERIOD (R372). -/
  | mvbBasicPeriod (ch : Nat)
  /-- MVB REPLY TIMEOUT (R372). -/
  | mvbReplyTimeout (ch : Nat)
  /-- MVB ENABLE (R373). -/
  | mvbEnable (m : Master) (ch : Nat)
  /-- WINDOW READ (R387). -/
  | windowRead (m : Master) (addr : Nat) (size : Nat)
  /-- WINDOW WRITE (R391). -/
  | windowWrite (m : Master) (addr : Nat) (size : Nat) (value : Nat)
  /-- TAG WAIT END (R387). -/
  | tagWaitEnd
  /-- READ TIMEOUT (R388). -/
  | readTimeout (tag : Nat)
  /-- COMPLETION (R389). -/
  | completion (bytes : List Byte)
  /-- READ (R385). -/
  | farRead (bytes : List Byte)
  /-- WRITE (R391). -/
  | farWrite (bytes : List Byte)
  /-- FAR REQUEST SERVE (R386). -/
  | farRequestServe
  /-- HELD REQUEST ACCEPT (R385). -/
  | heldRequestAccept
  /-- WRITE GAP TIMEOUT (R391). -/
  | writeGapTimeout (node : Nat) (win : Nat)
  /-- WRITE ERR (R392). -/
  | writeErr (bytes : List Byte)
  /-- LOCK READ (R395). -/
  | lockRead (m : Master)
  /-- WRITE UNLOCK (R395). -/
  | writeUnlock (m : Master)
  /-- UNLOCK (R395). -/
  | unlock (m : Master)
  /-- FAR LOCK READ (R396). -/
  | farLockRead (bytes : List Byte)
  /-- FAR UNLOCK (R396). -/
  | farUnlock (bytes : List Byte)
  /-- LOCK TIMEOUT (R396). -/
  | lockTimeout
  /-- LOCK BROKEN (R396). -/
  | lockBroken (bytes : List Byte)
  /-- PREFETCH LINE EXPIRY (R398). -/
  | prefetchLineExpiry (win : Nat) (line : Nat)
  /-- DATASET TIMEOUT (R403). -/
  | datasetTimeout (d : Nat)
  /-- HEARTBEAT PATH SILENT (R422). -/
  | heartbeatPathSilent (path : Nat)
  /-- WORKING SET PART FAILS (R41). -/
  | workingSetPartFails (res : Res)
  /-- UNPOWERED 50 MS END (R510). -/
  | unpowered50MsEnd
  /-- UPDATE COMMAND DONE (R459). -/
  | updateCommandDone
  /-- TTDP TIMER (R309). -/
  | ttdpTimer (port : Nat)
  /-- SELF TEST FINDING (R440). -/
  | selfTestFinding (f : Finding)
deriving DecidableEq, Repr

end Sys2Proof
end

