-- ==== Sys2Proof/WellFormed.lean ====
section
/-! DEFINITION. Well-formed commands: operands in the range the spec gives them. A check on syntax alone; the meanings do not rest on it. -/

namespace Sys2Proof

/-- A master's identity is 0 to 4, its far node an identifier and a position (02 R51; 05 R174). -/
def Master.wf (m : Master) : Bool := decide (m.id < 5) && decide (m.node < 2 ^ 48) && decide (m.pos < 64)

/-- A CAN frame as the bus can carry it (10 R357). -/
def CanFrame.wf (f : CanFrame) : Bool :=
  decide (f.id < 2 ^ 29) && decide (f.data.length ≤ 2048) && decide (f.sdt < 256) && decide (f.acpt < 2 ^ 32) &&
    (f.xlf || decide (f.data.length ≤ 64))

/-- Operands lie in their ranges. -/
def Instr.wf : Instr → Bool
  | .powerInputEntersRange _ _ _ _ => true
  | .bootDone m => m.wf
  | .claimWaitTimeout => true
  | .powerInputLeavesRange _ _ => true
  | .endOfHoldUp => true
  | .tempWarn _ _ => true
  | .overtemp _ => true
  | .overtempHoldEnd _ => true
  | .railFault => true
  | .zeroSpeedChange _ => true
  | .cabActiveChange _ => true
  | .watchdogExpiry => true
  | .lockstepMismatch addr => decide (addr < 2 ^ 32)
  | .relayMismatch line => decide (line < 2)
  | .relayMismatchClear m line => m.wf && decide (line < 2)
  | .relayForce m line _ => m.wf && decide (line < 2)
  | .registerWrite m addr size value => m.wf && decide (addr < 2 ^ 32) && decide (0 < size) && decide (value < 2 ^ (8 * size))
  | .capturingRead m addr size => m.wf && decide (addr < 2 ^ 32) && decide (0 < size)
  | .higherWordRead m addr size => m.wf && decide (addr < 2 ^ 32) && decide (0 < size)
  | .deltaViewRead m port idx => m.wf && decide (port < 23) && decide (idx < 64)
  | .tableWindowWrite m addr size value => m.wf && decide (addr < 2 ^ 32) && decide (0 < size) && decide (value < 2 ^ (8 * size))
  | .signalStoreWrite m addr value => m.wf && decide (addr < 2 ^ 32) && decide (value < 2 ^ 32)
  | .heldOwnerWriteApply e => decide (e < 19)
  | .mailboxWrite m addr size value => m.wf && decide (addr < 2 ^ 32) && decide (0 < size) && decide (value < 2 ^ (8 * size))
  | .codeMemoryWrite m addr value => m.wf && decide (addr < 2 ^ 32) && decide (value < 2 ^ 32)
  | .runEngine m e _ => m.wf && decide (e < 19)
  | .holdEngine m e _ => m.wf && decide (e < 19)
  | .clrPeak m e => m.wf && decide (e < 19)
  | .doorbell m e => m.wf && decide (e < 19)
  | .dispatch e => decide (e < 19)
  | .timerFire e trig => decide (e < 19) && decide (trig < 64)
  | .budget e => decide (e < 19)
  | .outputRelease e => decide (e < 19)
  | .engineLockstepFailure e => decide (e < 19)
  | .slotMove e => decide (e < 18)
  | .serviceLevelRise => true
  | .kNop e => decide (e < 19)
  | .kEnd e => decide (e < 19)
  | .kRet e => decide (e < 19)
  | .kRdsp e => decide (e < 19)
  | .kRdp e => decide (e < 19)
  | .kWrp e => decide (e < 19)
  | .kAdd e => decide (e < 19)
  | .kSub e => decide (e < 19)
  | .kAnd e => decide (e < 19)
  | .kOr e => decide (e < 19)
  | .kXor e => decide (e < 19)
  | .kAndn e => decide (e < 19)
  | .kShl e => decide (e < 19)
  | .kShr e => decide (e < 19)
  | .kSar e => decide (e < 19)
  | .kRor e => decide (e < 19)
  | .kMin e => decide (e < 19)
  | .kMax e => decide (e < 19)
  | .kMinu e => decide (e < 19)
  | .kMaxu e => decide (e < 19)
  | .kSext e => decide (e < 19)
  | .kZext e => decide (e < 19)
  | .kMul e => decide (e < 19)
  | .kMulhs e => decide (e < 19)
  | .kMulhu e => decide (e < 19)
  | .kDivs e => decide (e < 19)
  | .kDivu e => decide (e < 19)
  | .kRems e => decide (e < 19)
  | .kRemu e => decide (e < 19)
  | .kBswap e => decide (e < 19)
  | .kPopc e => decide (e < 19)
  | .kClz e => decide (e < 19)
  | .kAbs e => decide (e < 19)
  | .kCmp e => decide (e < 19)
  | .kAddi e => decide (e < 19)
  | .kMovi e => decide (e < 19)
  | .kMovk e => decide (e < 19)
  | .kLd e => decide (e < 19)
  | .kSt e => decide (e < 19)
  | .kLdx e => decide (e < 19)
  | .kStx e => decide (e < 19)
  | .kExtb e => decide (e < 19)
  | .kInsb e => decide (e < 19)
  | .kSat e => decide (e < 19)
  | .kScale e => decide (e < 19)
  | .kRange e => decide (e < 19)
  | .kConv e => decide (e < 19)
  | .kLds e => decide (e < 19)
  | .kSts e => decide (e < 19)
  | .kBr e => decide (e < 19)
  | .kCall e => decide (e < 19)
  | .kLoop e => decide (e < 19)
  | .kWait e cycle => decide (e < 19) && decide (cycle < 2 ^ 32)
  | .kSignal e => decide (e < 19)
  | .kRxq e => decide (e < 19)
  | .kEmit e => decide (e < 19)
  | .kLaunch e => decide (e < 19)
  | .kDrop e => decide (e < 19)
  | .kTblLk e => decide (e < 19)
  | .kTblRd e => decide (e < 19)
  | .kTblWr e => decide (e < 19)
  | .kTblIns e => decide (e < 19)
  | .kTblDel e => decide (e < 19)
  | .kTblLkrd e => decide (e < 19)
  | .kTopoPstat e => decide (e < 19)
  | .kTopoNbr e => decide (e < 19)
  | .kTopoCand e => decide (e < 19)
  | .kTopoAgree e => decide (e < 19)
  | .kTopoCommit e => decide (e < 19)
  | .kTopoCancel e => decide (e < 19)
  | .kTopoNewep e => decide (e < 19)
  | .kTopoAccept e => decide (e < 19)
  | .kTopoTstat e => decide (e < 19)
  | .kTopoLevel e => decide (e < 19)
  | .scrubWord _ inst addr _ => decide (inst < 64) && decide (addr < 2 ^ 40)
  | .frameReceived port f => (decide (port < 20) || port == 21) && decide (f.bytes.length < 65536)
  | .pfcRepeat port cls => decide (port < 20) && decide (cls < 8)
  | .pauseReceived port f => decide (port < 20) && decide (f.bytes.length < 65536)
  | .pauseExpiry port cls => decide (port < 20) && decide (cls < 8)
  | .verifyReceived port => decide (port < 20)
  | .respondReceived port => decide (port < 20)
  | .verifyTimer port => decide (port < 20)
  | .egressSchedule port => (decide (port < 20) || port == 21)
  | .copyTransmitted port => (decide (port < 20) || port == 21)
  | .cellReturn bank cells => decide (bank < 26) && decide (cells < 4097)
  | .linkUp port rate => decide (port < 20) && decide (1 ≤ rate) && decide (rate ≤ 5)
  | .linkDown port => decide (port < 20)
  | .autoModeDetect port _ => decide (port < 4)
  | .capabilityRecordReceived port => decide (port < 4)
  | .capabilityTimer port => decide (port < 4)
  | .lpiEntry port => decide (4 ≤ port) && decide (port < 16)
  | .lpiWakeComplete port => decide (4 ≤ port) && decide (port < 16)
  | .gearDecision port load m2 m3 m4 => decide (port < 4) && decide (load < 256) && decide (m2 < 256) && decide (m3 < 256) && decide (m4 < 256)
  | .ownerRequestedShift m port gear => m.wf && decide (port < 4) && decide (gear < 8)
  | .gearReq port gear _ node => decide (port < 4) && decide (gear < 8) && decide (node < 2 ^ 48)
  | .gearAck port => decide (port < 4)
  | .gearNak port _ => decide (port < 4)
  | .gearRetry port => decide (port < 4)
  | .gearDeferred port => decide (port < 4)
  | .silenceStart port => decide (port < 4)
  | .silenceEnd port _ => decide (port < 4)
  | .qualityDownshift port margin m1 m2 m3 => decide (port < 4) && decide (margin < 256) && decide (m1 < 256) && decide (m2 < 256) && decide (m3 < 256)
  | .wakePatternMatch port f => decide (4 ≤ port) && decide (port < 16) && decide (f.bytes.length < 65536)
  | .hostTxDescriptorFetch ring desc payload => decide (ring < 16) && decide (desc.length = 32) && decide (payload.length < 65536)
  | .tailWrite m _ ring index => m.wf && decide (ring < 16) && decide (index < 4096)
  | .ringDisable m _ ring => m.wf && decide (ring < 16)
  | .hostRxDelivery ring desc => decide (ring < 16) && decide (desc.length = 32)
  | .irqSourceEnable m src vector => m.wf && decide (src < 64) && decide (vector < 64)
  | .freeze m => m.wf
  | .freezeDone => true
  | .bankDrainStart bank => decide (bank < 26)
  | .spareCellRelease bank => decide (bank < 26)
  | .drainMove => true
  | .bankRetire => true
  | .recoveryResetTimeout idx => decide (idx < 1024)
  | .launchDue port => decide (port < 20)
  | .helloTimer => true
  | .hello port bytes => decide (port < 4) && decide (bytes.length < 65536)
  | .neighbourTimeout port => decide (port < 4)
  | .epochDifferenceTimeout port => decide (port < 4)
  | .report port bytes => decide (port < 4) && decide (bytes.length < 65536)
  | .discoveryEnd => true
  | .discoveryTimeout => true
  | .propose port bytes => decide (port < 4) && decide (bytes.length < 65536)
  | .confirmRound port bytes => decide (port < 4) && decide (bytes.length < 65536)
  | .proposeTimeout => true
  | .confirmTimeout => true
  | .abortRound port bytes => decide (port < 4) && decide (bytes.length < 65536)
  | .roundRetry => true
  | .epochCommit => true
  | .mark port bytes => decide (port < 4) && decide (bytes.length < 65536)
  | .markTimeout port => decide (port < 4)
  | .directoryWrite => true
  | .graceEnd => true
  | .tn7Ident port bytes => decide (port < 4) && decide (bytes.length < 65536)
  | .tn7RecordExpiry port => decide (port < 4)
  | .ttdpFrame port _ bytes => decide (port < 4) && decide (bytes.length < 65536)
  | .sync port _ => decide (port < 20)
  | .followUp port _ => decide (port < 20)
  | .announce port _ => decide (port < 20)
  | .pdelayReq port _ => decide (port < 20)
  | .pdelayResp port _ => decide (port < 20)
  | .ptpMessageInterval port kind => decide (port < 20) && decide (kind < 3)
  | .receiptTimeout port => decide (port < 20)
  | .stepTlvEnd => true
  | .acceptStep m => m.wf
  | .timeSet m => m.wf
  | .heartbeatSend => true
  | .heartbeatReceived path bytes => decide (path < 2) && decide (bytes.length < 65536)
  | .silenceDeclared => true
  | .partnerClaimChange _ => true
  | .takeoverStart => true
  | .checkpointCapture => true
  | .checkpointBlockReceived seq idx _ _ _ => decide (seq < 2 ^ 32) && decide (idx < 65536)
  | .switchover m => m.wf
  | .switchoverTimeout => true
  | .drillNow m => m.wf
  | .drillTimer => true
  | .drillComplete failed parts => decide (failed < 2 ^ 28) && decide (parts.engines < 2 ^ 18) && decide (parts.ports < 2 ^ 20) && decide (parts.chans < 2 ^ 10)
  | .drillDeferred => true
  | .request m => m.wf
  | .handover m => m.wf
  | .renew m => m.wf
  | .withdraw m => m.wf
  | .leaseExpiry => true
  | .restart m => m.wf
  | .stable m => m.wf
  | .blockStore m => m.wf
  | .commitUpdate m => m.wf
  | .confirmUpdate m => m.wf
  | .confirmCopyDone => true
  | .revert m => m.wf
  | .abortTransfer m => m.wf
  | .setwrite m => m.wf
  | .loaderWrite m => m.wf
  | .relayOfferTimer port => decide (port < 4)
  | .relayOffer port bytes => decide (port < 4) && decide (bytes.length < 65536)
  | .relayBlock port bytes => decide (port < 4) && decide (bytes.length < 65536)
  | .relayAck port bytes => decide (port < 4) && decide (bytes.length < 65536)
  | .relayNak port bytes => decide (port < 4) && decide (bytes.length < 65536)
  | .standbyImageCopy k bytes => decide (k < 65536) && decide (bytes.length ≤ 65536)
  | .flashBlockRetire dev block => decide (dev < 2) && decide (block < 4096)
  | .faultLogCopy => true
  | .canEnable m ch value => m.wf && decide (ch < 8) && decide (value < 2 ^ 32)
  | .canFrameValid ch f => decide (ch < 8) && f.wf
  | .canTxSuccess ch => decide (ch < 8)
  | .canError ch _ => decide (ch < 8)
  | .recover m ch => m.wf && decide (ch < 8)
  | .recoveryComplete ch => decide (ch < 8)
  | .flushTx m ch => m.wf && decide (ch < 8)
  | .rxack m ch count => m.wf && decide (ch < 8) && decide (count < 256)
  | .fieldbusEntryFreed ch => decide (ch < 10)
  | .mvbMasterFrame ch fcode addr _ => decide (ch < 2) && decide (fcode < 16) && decide (addr < 4096)
  | .mvbSlaveFrame ch _ line bytes => decide (ch < 2) && decide (line < 2) && decide (bytes.length < 65536)
  | .mvbBasicPeriod ch => decide (ch < 2)
  | .mvbReplyTimeout ch => decide (ch < 2)
  | .mvbEnable m ch => m.wf && decide (ch < 2)
  | .windowRead m addr size => m.wf && decide (addr < 2 ^ 32) && decide (0 < size)
  | .windowWrite m addr size value => m.wf && decide (addr < 2 ^ 32) && decide (0 < size) && decide (value < 2 ^ (8 * size))
  | .tagWaitEnd => true
  | .readTimeout tag => decide (tag < 1024)
  | .completion bytes => decide (bytes.length < 65536)
  | .farRead bytes => decide (bytes.length < 65536)
  | .farWrite bytes => decide (bytes.length < 65536)
  | .farRequestServe => true
  | .heldRequestAccept => true
  | .writeGapTimeout node win => decide (node < 2 ^ 48) && decide (win < 64)
  | .writeErr bytes => decide (bytes.length < 65536)
  | .lockRead m => m.wf
  | .writeUnlock m => m.wf
  | .unlock m => m.wf
  | .farLockRead bytes => decide (bytes.length < 65536)
  | .farUnlock bytes => decide (bytes.length < 65536)
  | .lockTimeout => true
  | .lockBroken bytes => decide (bytes.length < 65536)
  | .prefetchLineExpiry win line => decide (win < 64) && decide (line < 2 ^ 32)
  | .datasetTimeout d => decide (d < 640)
  | .heartbeatPathSilent path => decide (path < 2)
  | .workingSetPartFails _ => true
  | .unpowered50MsEnd => true
  | .updateCommandDone => true
  | .ttdpTimer port => decide (port < 4)
  | .selfTestFinding _ => true

end Sys2Proof
end

