-- ==== Sys2Proof/Decode.lean ====
section
/-! DEFINITION. The decoder: the opcode table of this block gives no row any bits, so no word spells a command. -/

namespace Sys2Proof

/-- The command a word of the opcode table spells: the table gives no row bits, so there is none. -/
def decodeTableWord (_nbits _w : Nat) : Option Instr := none

end Sys2Proof
end

