-- ==== Sys2Proof/Machine/Crypto.lean ====
section
/-! DEFINITION. SHA-512 (FIPS 180-4) and the verification of Ed25519 signatures (RFC 8032), as the boot ROM and the resident loader use them (05 R158, R161, R167). -/

namespace Sys2Proof

/-! ### SHA-512 -/

/-- Round constants 0 to 19 of FIPS 180-4. -/
def sha512K0 : List Nat := [
  0x428A2F98D728AE22, 0x7137449123EF65CD, 0xB5C0FBCFEC4D3B2F, 0xE9B5DBA58189DBBC,
  0x3956C25BF348B538, 0x59F111F1B605D019, 0x923F82A4AF194F9B, 0xAB1C5ED5DA6D8118,
  0xD807AA98A3030242, 0x12835B0145706FBE, 0x243185BE4EE4B28C, 0x550C7DC3D5FFB4E2,
  0x72BE5D74F27B896F, 0x80DEB1FE3B1696B1, 0x9BDC06A725C71235, 0xC19BF174CF692694,
  0xE49B69C19EF14AD2, 0xEFBE4786384F25E3, 0x0FC19DC68B8CD5B5, 0x240CA1CC77AC9C65]

/-- Round constants 20 to 39 of FIPS 180-4. -/
def sha512K1 : List Nat := [
  0x2DE92C6F592B0275, 0x4A7484AA6EA6E483, 0x5CB0A9DCBD41FBD4, 0x76F988DA831153B5,
  0x983E5152EE66DFAB, 0xA831C66D2DB43210, 0xB00327C898FB213F, 0xBF597FC7BEEF0EE4,
  0xC6E00BF33DA88FC2, 0xD5A79147930AA725, 0x06CA6351E003826F, 0x142929670A0E6E70,
  0x27B70A8546D22FFC, 0x2E1B21385C26C926, 0x4D2C6DFC5AC42AED, 0x53380D139D95B3DF,
  0x650A73548BAF63DE, 0x766A0ABB3C77B2A8, 0x81C2C92E47EDAEE6, 0x92722C851482353B]

/-- Round constants 40 to 59 of FIPS 180-4. -/
def sha512K2 : List Nat := [
  0xA2BFE8A14CF10364, 0xA81A664BBC423001, 0xC24B8B70D0F89791, 0xC76C51A30654BE30,
  0xD192E819D6EF5218, 0xD69906245565A910, 0xF40E35855771202A, 0x106AA07032BBD1B8,
  0x19A4C116B8D2D0C8, 0x1E376C085141AB53, 0x2748774CDF8EEB99, 0x34B0BCB5E19B48A8,
  0x391C0CB3C5C95A63, 0x4ED8AA4AE3418ACB, 0x5B9CCA4F7763E373, 0x682E6FF3D6B2B8A3,
  0x748F82EE5DEFB2FC, 0x78A5636F43172F60, 0x84C87814A1F0AB72, 0x8CC702081A6439EC]

/-- Round constants 60 to 79 of FIPS 180-4. -/
def sha512K3 : List Nat := [
  0x90BEFFFA23631E28, 0xA4506CEBDE82BDE9, 0xBEF9A3F7B2C67915, 0xC67178F2E372532B,
  0xCA273ECEEA26619C, 0xD186B8C721C0C207, 0xEADA7DD6CDE0EB1E, 0xF57D4F7FEE6ED178,
  0x06F067AA72176FBA, 0x0A637DC5A2C898A6, 0x113F9804BEF90DAE, 0x1B710B35131C471B,
  0x28DB77F523047D84, 0x32CAAB7B40C72493, 0x3C9EBE0A15C9BEBC, 0x431D67C49C100D4C,
  0x4CC5D4BECB3E42B6, 0x597F299CFC657E2A, 0x5FCB6FAB3AD6FAEC, 0x6C44198C4A475817]

/-- The round constants. -/
def sha512K : List Nat := sha512K0 ++ (sha512K1 ++ (sha512K2 ++ sha512K3))

/-- The initial hash value. -/
def sha512H : List Nat := [
  0x6A09E667F3BCC908, 0xBB67AE8584CAA73B, 0x3C6EF372FE94F82B, 0xA54FF53A5F1D36F1,
  0x510E527FADE682D1, 0x9B05688C2B3E6C1F, 0x1F83D9ABFB41BD6B, 0x5BE0CD19137E2179]

def m64 : Nat := 2 ^ 64

/-- Rotation of a 64-bit word to the right. -/
def rotr64 (x k : Nat) : Nat := x / 2 ^ k + x % 2 ^ k * 2 ^ (64 - k)

/-- The 64 words of the schedule after the first 16, newest first in front of the words so far. -/
def sha512Sched : Nat → List Nat → List Nat
  | 0, w => w
  | k + 1, w =>
    let a := w.getD 14 0
    let b := w.getD 1 0
    let s0 := rotr64 a 1 ^^^ rotr64 a 8 ^^^ a / 2 ^ 7
    let s1 := rotr64 b 19 ^^^ rotr64 b 61 ^^^ b / 2 ^ 6
    sha512Sched k ((w.getD 15 0 + s0 + w.getD 6 0 + s1) % m64 :: w)

/-- One round on the eight working variables. -/
def sha512Round (v : List Nat) (kw : Nat × Nat) : List Nat :=
  match v with
  | [a, b, c, d, e, f, g, h] =>
    let s1 := rotr64 e 14 ^^^ rotr64 e 18 ^^^ rotr64 e 41
    let ch := (e &&& f) ^^^ ((m64 - 1 - e) &&& g)
    let t1 := h + s1 + ch + kw.1 + kw.2
    let s0 := rotr64 a 28 ^^^ rotr64 a 34 ^^^ rotr64 a 39
    let mj := (a &&& b) ^^^ (a &&& c) ^^^ (b &&& c)
    [(t1 + s0 + mj) % m64, a, b, c, (d + t1) % m64, e, f, g]
  | _ => v

/-- One block of 128 bytes. -/
def sha512Block (h : List Nat) (b : List Byte) : List Nat :=
  let w := (chunks 8 16 b).map beNat
  let ws := (sha512Sched 64 w.reverse).reverse
  let v := (sha512K.zip ws).foldl sha512Round h
  (h.zip v).map (fun x => (x.1 + x.2) % m64)

/-- SHA-512 of a byte string. -/
def sha512 (l : List Byte) : List Byte :=
  let pad := (239 - l.length % 128) % 128
  let m := l ++ [0x80] ++ zeros pad ++ beBytes 16 (8 * l.length)
  (((chunks 128 (m.length / 128) m).foldl sha512Block sha512H).map (beBytes 8)).flatten

/-! ### Ed25519 -/

def edP : Nat := 2 ^ 255 - 19
def edL : Nat := 2 ^ 252 + 27742317777372353535851937790883648493

/-- `b` to the power whose bits, most significant first, are given, modulo `edP`. -/
def edPowBits (b : Nat) (bits : List Bool) : Nat :=
  bits.foldl (fun r x => let s := r * r % edP; if x then s * b % edP else s) 1

/-- The lowest `k` bits of a number, most significant first. -/
def topBits (k v : Nat) : List Bool := (List.range k).map (fun i => bitOf v (k - 1 - i))

def edPow (b e : Nat) : Nat := edPowBits b (topBits 255 e)

def edInv (x : Nat) : Nat := edPow x (edP - 2)

/-- The curve constant d. -/
def edD : Nat := (edP - 121665) * edInv 121666 % edP

/-- A point in extended coordinates. -/
structure EdPoint where
  x : Nat
  y : Nat
  z : Nat
  t : Nat
deriving DecidableEq, Repr

def edZero : EdPoint := ⟨0, 1, 1, 0⟩

/-- Addition on the twisted Edwards curve. -/
def edAdd (p q : EdPoint) : EdPoint :=
  let a := (p.y + edP - p.x) * (q.y + edP - q.x) % edP
  let b := (p.y + p.x) * (q.y + q.x) % edP
  let c := 2 * p.t * q.t % edP * edD % edP
  let d := 2 * p.z * q.z % edP
  let e := b + edP - a
  let f := d + edP - c
  let g := d + c
  let h := b + a
  ⟨e * f % edP, g * h % edP, f * g % edP, e * h % edP⟩

/-- Multiple of a point. -/
def edMul (k : Nat) (p : EdPoint) : EdPoint :=
  (topBits 256 k).foldl (fun r x => let s := edAdd r r; if x then edAdd s p else s) edZero

/-- The x coordinate of a point from its y and its sign bit. -/
def edRecover (y sign : Nat) : Option Nat :=
  let u := (y * y + edP - 1) % edP
  let v := (edD * y % edP * y + 1) % edP
  let x2 := u * edInv v % edP
  let x := edPow x2 ((edP + 3) / 8)
  let x := if x * x % edP = x2 then x else x * edPow 2 ((edP - 1) / 4) % edP
  if edP ≤ y ∨ x * x % edP ≠ x2 ∨ (x = 0 ∧ sign = 1) then none
  else some (if x % 2 = sign then x else edP - x)

/-- Decode a point from 32 bytes. -/
def edDecode (b : List Byte) : Option EdPoint :=
  let v := leNat b
  let y := v % 2 ^ 255
  (edRecover y (v / 2 ^ 255 % 2)).map (fun x => ⟨x, y, 1, x * y % edP⟩)

/-- The base point: y is 4/5, x even. -/
def edBase : EdPoint :=
  let y := 4 * edInv 5 % edP
  let x := (edRecover y 0).getD 0
  ⟨x, y, 1, x * y % edP⟩

def edEq (p q : EdPoint) : Bool :=
  (p.x * q.z) % edP == (q.x * p.z) % edP && (p.y * q.z) % edP == (q.y * p.z) % edP

/-- Verification of the pure variant: the group equation of RFC 8032 with the cofactor. -/
def edVerify (key msg sig : List Byte) : Bool :=
  let s := leNat (slice sig 32 32)
  match edDecode key, edDecode (sig.take 32) with
  | some a, some r =>
    let k := leNat (sha512 (sig.take 32 ++ key ++ msg)) % edL
    decide (key.length = 32) && decide (sig.length = 64) && decide (s < edL) &&
      edEq (edMul 8 (edMul s edBase)) (edMul 8 (edAdd r (edMul k a)))
  | _, _ => false

end Sys2Proof
end

