-- ==== Sys2Proof/Machine/Crc.lean ====
section
/-! DEFINITION. The CRC functions the manual names: CRC-32C of images, keys of hashed tables, checkpoints and relay blocks (05, "Image format"), and the CRC-32 of IEEE 802.3 that TRDP headers carry (11 R402). -/

namespace Sys2Proof

/-- One bit of a reflected CRC with polynomial `p`. -/
def crcBit (p c : Nat) : Nat := if c % 2 = 1 then (c / 2) ^^^ p else c / 2

/-- One byte of a reflected CRC. -/
def crcByte (p c : Nat) (b : Byte) : Nat :=
  let x := c ^^^ b.toNat
  crcBit p (crcBit p (crcBit p (crcBit p (crcBit p (crcBit p (crcBit p (crcBit p x)))))))

/-- A reflected CRC of 32 bits with initial value and final complement of ones. -/
def crcOf (p : Nat) (l : List Byte) : Nat := (l.foldl (crcByte p) 0xFFFFFFFF) ^^^ 0xFFFFFFFF

/-- CRC-32C (Castagnoli), the function of 05 "Image format". -/
def crc32c (l : List Byte) : Nat := crcOf 0x82F63B78 l

/-- CRC-32 of IEEE 802.3. -/
def crc32 (l : List Byte) : Nat := crcOf 0xEDB88320 l

/-- The ones' complement sum of 16-bit big-endian words, folded (the Internet checksum before complement). -/
def onesSum : List Byte → Nat
  | [] => 0
  | [a] => a.toNat * 256
  | a :: b :: t => a.toNat * 256 + b.toNat + onesSum t

/-- Fold carries into 16 bits. -/
def fold16 (v : Nat) : Nat :=
  let a := v % 65536 + v / 65536
  let b := a % 65536 + a / 65536
  b % 65536 + b / 65536

/-- The Internet checksum of a header whose checksum field is zero. -/
def ipSum (l : List Byte) : Nat := 65535 - fold16 (onesSum l)

end Sys2Proof
end

