-- ==== Sys2Proof/Config.lean ====
section
/-! DEFINITION. Constants of the implementation and the free values: opaque constants applied to a counter of State, of which nothing can be proved but their type. -/

namespace Sys2Proof.Config

/-- Flash blocks per device and the spares among them (02 R67). -/
def flashBlocks : Nat := 4096

/-- Spare flash blocks per device (02 R70). -/
def flashSpares : Nat := 328

/-- Erase budget of a flash block (13 R480). -/
def eraseBudget : Nat := 60000

/-- Cells per buffer bank (02 R67). -/
def cellsPerBank : Nat := 4096

/-- A number the manual leaves open: which bank a cell is taken from (06 R219), which block of the rotation pool is erased among equals (13 R468), and the like. -/
opaque freeNat : Nat → Nat

/-- Bytes the manual leaves open: frames whose content another standard fixes (08 R309). -/
opaque freeBytes : Nat → List Byte

/-- The etbTopoCnt the standard procedure gives in standard mode (11 R402). -/
opaque standardTopoCnt : Nat → Nat

/-- The MVB device status bits of IEC 61375-3-1 that the manual does not give (10 R370). -/
opaque mvbStatusBits : Nat → Nat

/-- The item number a self-test finding's fault record carries, which the manual does not give (13, code table; log entry 35). -/
opaque findingItem : Nat → Nat

end Sys2Proof.Config
end

