-- ==== Sys2Proof/Machine/RegMap.lean ====
section
/-! DEFINITION. The register map (14 R484-R506 and the field tables of the unit chapters): every register family by name, its address, its supply island (02 R66), and every field with place, access code (00 R11), reset code and reset value (00 R15). Index e = 18 of the SC family is the topology engine, whose engine registers lie in the TOP block (14 R502). -/

namespace Sys2Proof

/-- Access codes (00 R11). -/
inductive Acc where
  | RW | RO | W1C | RC | WB | WO | CMD
deriving DecidableEq, Repr

/-- Reset codes (00 R15); `keep` is the code "—". -/
inductive RCode where
  | PO | NR | EP | keep
deriving DecidableEq, Repr

/-- Supply islands (02 R66). -/
inductive Island where
  | watch | control | data
deriving DecidableEq, Repr

/-- A register field as a key of the register file: `key` is 32 times the address plus the lowest bit, `w` its width, `rst` its reset value. -/
structure Fld where
  key : Nat
  w : Nat
  rst : Nat
deriving DecidableEq, Repr

/-- A field as its table gives it. -/
structure FieldInfo where
  lo : Nat
  w : Nat
  acc : Acc
  code : RCode
  rst : Nat
deriving DecidableEq, Repr

/-- Register families by name; indices in the order of their formula. -/
inductive Reg where
  | PRO_CTRL
  | PRO_VIOL
  | PRO_VIOL_ADDR
  | PRO_VIOL_COUNT
  | PRO_REGION_BASE (i : Nat)
  | PRO_REGION_LIMIT (i : Nat)
  | PRO_REGION_RIGHTS (i : Nat)
  | PRO_RMGR_LO (i : Nat)
  | PRO_RMGR_HI (i : Nat)
  | MGT_STATE
  | MGT_BOOTINFO
  | MGT_OWNER
  | MGT_OWNER_NODE
  | MGT_OWN_PEND
  | MGT_OWN_PEND_NODE
  | MGT_OWN_CMD
  | MGT_OWN_LOG
  | MGT_OWN_LOG_ADDR
  | MGT_OWN_REFUSALS
  | MGT_CMD
  | MGT_REJECT
  | MGT_REJECT_ADDR
  | MGT_REJECT_COUNT
  | MGT_FAULT
  | MGT_FLOG_STATUS
  | MGT_FLOG_SEQ
  | MGT_FLOG_SEL
  | MGT_FLOG_DATA (i : Nat)
  | HLT_REPORT
  | HLT_SPARES
  | HLT_RETIRED
  | HLT_ENG_MOVES
  | HLT_SLOT (i : Nat)
  | HLT_PVIOL (i : Nat)
  | PAIR_CTRL
  | PAIR_STATUS
  | PAIR_CMD
  | PAIR_CKPT_CFG
  | PAIR_CKPT_SEQ
  | PAIR_CKPT_INFO
  | PAIR_HB_RX (i : Nat)
  | PAIR_HB_MISS (i : Nat)
  | PAIR_PARTNER_HEALTH
  | PAIR_PARTNER_NODE_LO
  | PAIR_PARTNER_NODE_HI
  | PAIR_CKPT_SIG (i : Nat)
  | PAIR_DRILL
  | PAIR_DRILL_AGE
  | PAIR_DRILL_RESULT
  | PAIR_GAP
  | PAIR_SNAP_HB_RX (i : Nat)
  | PAIR_SNAP_HB_MISS (i : Nat)
  | PAIR_SNAP_HB_FIRST (i : Nat)
  | PAIR_SNAP_HB_HIGH (i : Nat)
  | UPD_CTRL
  | UPD_STATUS
  | UPD_CMD
  | UPD_ARG
  | UPD_ARG_CRC
  | UPD_XFER
  | UPD_XFER_ID_LO
  | UPD_XFER_ID_HI
  | UPD_MAIN_ID_LO
  | UPD_MAIN_ID_HI
  | UPD_FB_ID_LO
  | UPD_FB_ID_HI
  | UPD_FORMATS
  | UPD_SPEED_SRC
  | UPD_BATT
  | UPD_RELAY_STAT
  | UPD_EB_SEL
  | UPD_EB_INFO
  | UPD_SNAP_FLASH
  | UPD_KEYFP_LO (i : Nat)
  | UPD_KEYFP_HI (i : Nat)
  | PWR_STATUS
  | PWR_PRIMARY
  | PWR_BATTERY
  | PWR_EVENTS
  | PWR_DISCRETE
  | PWR_TEMP
  | PWR_ISLANDS
  | TIM_CTRL
  | TIM_STATUS
  | TIM_NOW_SLO
  | TIM_NOW_SHI
  | TIM_NOW_NS
  | TIM_NOW_FRAC
  | TIM_OFFSET
  | TIM_FREQ
  | TIM_SERVO
  | TIM_STEP_THRESH
  | TIM_REFUSED_SLO
  | TIM_REFUSED_SHI
  | TIM_REFUSED_NS
  | TIM_STEP_CMD
  | TIM_SET_SLO
  | TIM_SET_SHI
  | TIM_SET_NS
  | TIM_LAUNCHCFG (i : Nat)
  | TIM_PORT (i : Nat)
  | TIM_LAUNCHERR (i : Nat)
  | TIM_TSLOST (i : Nat)
  | TIM_SNAP_TS (i : Nat)
  | TIM_ASYM_RX (i j : Nat)
  | TIM_ASYM_TX (i j : Nat)
  | TIM_ASYM_CPL (i j : Nat)
  | FAB_STATUS
  | FAB_CELLS_FREE
  | FAB_BANK_CE_LIMIT
  | FAB_FREEZE
  | FAB_SNAP_FREE
  | FAB_SNAP_ALLOC
  | FAB_SNAP_RETURN
  | FAB_SNAP_DRAIN
  | FAB_SNAP_ENGINE
  | FAB_SNAP_HOST
  | FAB_SNAP_CREDIT (i : Nat)
  | FAB_SNAP_LAUNCH (i : Nat)
  | FAB_DISC (i : Nat)
  | FAB_BANK (i : Nat)
  | PRT_CTRL (i : Nat)
  | PRT_STATUS (i : Nat)
  | PRT_FLOWCNT (i : Nat)
  | PRT_EEE (i : Nat)
  | PRT_HALF_LO (i : Nat)
  | PRT_HALF_HI (i : Nat)
  | PRT_CNT_LO (i j : Nat)
  | PRT_CNT_HI (i j : Nat)
  | PRT_DELTA (i j : Nat)
  | PRT_WAKE_CTRL (i : Nat)
  | PRT_WAKE_MASK (i j : Nat)
  | PRT_WAKE_CHECK (i : Nat)
  | PRT_WAKE_STATUS
  | BBL_MODE (i j : Nat)
  | BBL_GEARCFG (i j : Nat)
  | BBL_STATUS (i j : Nat)
  | BBL_GEARCMD (i j : Nat)
  | BBL_RELAY (i : Nat)
  | BBL_RELAY_OPS (i : Nat)
  | BBL_RELAY_WARN (i : Nat)
  | TOP_PC
  | TOP_EXC_PC
  | TOP_EPOCH
  | TOP_INAUG
  | TOP_COMMIT_SLO
  | TOP_COMMIT_SHI
  | TOP_COMMIT_NS
  | TOP_DIGEST
  | TOP_RENUM
  | TOP_GRACE
  | TOP_EPOCH_REFUSED
  | TOP_BADFRAMES
  | TOP_PORTSTAT (i : Nat)
  | BRG_CTRL
  | BRG_TIMEOUT
  | BRG_STATUS
  | BRG_SNAP_A
  | BRG_ERRLOG
  | BRG_SNAP_B
  | BRG_LOCK_CTRL
  | BRG_LOCK_OFFSET
  | BRG_LOCK_WDATA
  | BRG_LOCK_RDATA
  | BRG_RDSTAT (i : Nat)
  | BRG_PF_DISCARD
  | BRG_PF_LAST
  | BRG_IN_BUSY
  | BRG_IN_BAD
  | BRG_IN_LATE
  | BRG_IN_NOINIT
  | BRG_ERR_CAUSE (i : Nat)
  | BRG_ERR_ADDR (i : Nat)
  | BRG_ERR_SEQ (i : Nat)
  | BRG_WIN_CTRL (i : Nat)
  | BRG_WIN_TARGET (i : Nat)
  | BRG_WIN_NODE_LO (i : Nat)
  | BRG_WIN_NODE_HI (i : Nat)
  | BRG_WIN_SEQ (i : Nat)
  | BRG_WIN_FENCE_DROPS (i : Nat)
  | BRG_WIN_REFUSED (i : Nat)
  | BRG_PD_ERR (i : Nat)
  | BRG_DS_STAT (i : Nat)
  | BRG_DS_SEQ (i : Nat)
  | BRG_DS_COUNT (i : Nat)
  | BRG_DS_ERR (i : Nat)
  | CAN_CTRL (i : Nat)
  | CAN_STATUS (i : Nat)
  | CAN_CMD (i : Nat)
  | CAN_QUEUES (i : Nat)
  | CAN_NBT (i : Nat)
  | CAN_DBT (i : Nat)
  | CAN_XBT (i : Nat)
  | CAN_TDC (i : Nat)
  | CAN_SNAP (i : Nat)
  | CAN_CLASH (i : Nat)
  | CAN_CNT (i j : Nat)
  | CAN_FLT_ID (i j : Nat)
  | CAN_FLT_MASK (i j : Nat)
  | MVB_CTRL (i : Nat)
  | MVB_ADMIN (i : Nat)
  | MVB_STATUS (i : Nat)
  | MVB_QUEUES (i : Nat)
  | MVB_SNAP (i : Nat)
  | MVB_CNT (i j : Nat)
  | MVB_PORT (i j : Nat)
  | HST_IRQ_PEND (i : Nat)
  | HST_IRQ_SRC (i : Nat)
  | HST_SNAP_TX (i : Nat)
  | HST_SNAP_RX (i : Nat)
  | HST_TXBASE_LO (i : Nat)
  | HST_TXBASE_HI (i : Nat)
  | HST_TXCTRL (i : Nat)
  | HST_TXTAIL (i : Nat)
  | HST_TXHEAD (i : Nat)
  | HST_RXBASE_LO (i : Nat)
  | HST_RXBASE_HI (i : Nat)
  | HST_RXCTRL (i : Nat)
  | HST_RXTAIL (i : Nat)
  | HST_RXHEAD (i : Nat)
  | SC_CTRL (i : Nat)
  | SC_STATUS (i : Nat)
  | SC_EXC (i : Nat)
  | SC_ABORTS (i : Nat)
  | SC_OVERRUN (i j : Nat)
  | SC_PEAK (i : Nat)
  | SC_DOORBELL (i : Nat)
  | SC_DROPS (i : Nat)
  | SC_TIMERMISS (i : Nat)
deriving DecidableEq, Repr

/-- Base address of a Scarab engine's block, or of the TOP block for engine 18 (14 R500, R502). -/
def engBase (e : Nat) : Nat := if e = 18 then 0x10500000 else 0x20000000 + 0x100000 * e

/-- Where the three registers of protection region `i` keep their fields. The lists give regions 16 and 17 addresses that `PRO.RMGR_LOn` and `PRO.RMGR_HIn` have as well (05 R176; 14 R490): an access reaches the latter, and regions 16 to 31 keep their fields apart (log entry 39). -/
def regionAt (i : Nat) : Nat := 0x10000100 + 0x10 * i + (if i < 16 then 0 else 0x1000)

/-- Ibsum address of a register (14 R490-R506). -/
def Reg.addr : Reg → Nat
  | .PRO_CTRL => 0x10000000
  | .PRO_VIOL => 0x10000004
  | .PRO_VIOL_ADDR => 0x10000008
  | .PRO_VIOL_COUNT => 0x1000000C
  | .PRO_REGION_BASE i => regionAt i
  | .PRO_REGION_LIMIT i => regionAt i + 4
  | .PRO_REGION_RIGHTS i => regionAt i + 8
  | .PRO_RMGR_LO i => 0x10000200 + 0x8 * i
  | .PRO_RMGR_HI i => 0x10000204 + 0x8 * i
  | .MGT_STATE => 0x10010000
  | .MGT_BOOTINFO => 0x10010004
  | .MGT_OWNER => 0x10010010
  | .MGT_OWNER_NODE => 0x10010014
  | .MGT_OWN_PEND => 0x10010018
  | .MGT_OWN_PEND_NODE => 0x1001001C
  | .MGT_OWN_CMD => 0x10010020
  | .MGT_OWN_LOG => 0x10010024
  | .MGT_OWN_LOG_ADDR => 0x10010028
  | .MGT_OWN_REFUSALS => 0x1001002C
  | .MGT_CMD => 0x10010040
  | .MGT_REJECT => 0x10010044
  | .MGT_REJECT_ADDR => 0x10010048
  | .MGT_REJECT_COUNT => 0x1001004C
  | .MGT_FAULT => 0x10010050
  | .MGT_FLOG_STATUS => 0x10010060
  | .MGT_FLOG_SEQ => 0x10010064
  | .MGT_FLOG_SEL => 0x10010068
  | .MGT_FLOG_DATA i => 0x10010070 + 0x4 * i
  | .HLT_REPORT => 0x10020000
  | .HLT_SPARES => 0x10020004
  | .HLT_RETIRED => 0x10020008
  | .HLT_ENG_MOVES => 0x1002000C
  | .HLT_SLOT i => 0x10020040 + 0x4 * i
  | .HLT_PVIOL i => 0x10020100 + 0x4 * i
  | .PAIR_CTRL => 0x10030000
  | .PAIR_STATUS => 0x10030004
  | .PAIR_CMD => 0x10030008
  | .PAIR_CKPT_CFG => 0x1003000C
  | .PAIR_CKPT_SEQ => 0x10030010
  | .PAIR_CKPT_INFO => 0x10030014
  | .PAIR_HB_RX i => 0x10030020 + 0x8 * i
  | .PAIR_HB_MISS i => 0x10030024 + 0x8 * i
  | .PAIR_PARTNER_HEALTH => 0x10030030
  | .PAIR_PARTNER_NODE_LO => 0x10030034
  | .PAIR_PARTNER_NODE_HI => 0x10030038
  | .PAIR_CKPT_SIG i => 0x10030040 + 0x4 * i
  | .PAIR_DRILL => 0x10030080
  | .PAIR_DRILL_AGE => 0x10030084
  | .PAIR_DRILL_RESULT => 0x10030088
  | .PAIR_GAP => 0x10030090
  | .PAIR_SNAP_HB_RX i => 0x100300A0 + 0x10 * i
  | .PAIR_SNAP_HB_MISS i => 0x100300A4 + 0x10 * i
  | .PAIR_SNAP_HB_FIRST i => 0x100300A8 + 0x10 * i
  | .PAIR_SNAP_HB_HIGH i => 0x100300AC + 0x10 * i
  | .UPD_CTRL => 0x10040000
  | .UPD_STATUS => 0x10040004
  | .UPD_CMD => 0x10040008
  | .UPD_ARG => 0x1004000C
  | .UPD_ARG_CRC => 0x10040010
  | .UPD_XFER => 0x10040014
  | .UPD_XFER_ID_LO => 0x10040018
  | .UPD_XFER_ID_HI => 0x1004001C
  | .UPD_MAIN_ID_LO => 0x10040020
  | .UPD_MAIN_ID_HI => 0x10040024
  | .UPD_FB_ID_LO => 0x10040028
  | .UPD_FB_ID_HI => 0x1004002C
  | .UPD_FORMATS => 0x10040030
  | .UPD_SPEED_SRC => 0x10040034
  | .UPD_BATT => 0x10040038
  | .UPD_RELAY_STAT => 0x1004003C
  | .UPD_EB_SEL => 0x10040040
  | .UPD_EB_INFO => 0x10040044
  | .UPD_SNAP_FLASH => 0x10040048
  | .UPD_KEYFP_LO i => 0x10040080 + 0x8 * i
  | .UPD_KEYFP_HI i => 0x10040084 + 0x8 * i
  | .PWR_STATUS => 0x10050000
  | .PWR_PRIMARY => 0x10050004
  | .PWR_BATTERY => 0x10050008
  | .PWR_EVENTS => 0x1005000C
  | .PWR_DISCRETE => 0x10050010
  | .PWR_TEMP => 0x10050014
  | .PWR_ISLANDS => 0x10050018
  | .TIM_CTRL => 0x10100000
  | .TIM_STATUS => 0x10100004
  | .TIM_NOW_SLO => 0x10100010
  | .TIM_NOW_SHI => 0x10100014
  | .TIM_NOW_NS => 0x10100018
  | .TIM_NOW_FRAC => 0x1010001C
  | .TIM_OFFSET => 0x10100020
  | .TIM_FREQ => 0x10100024
  | .TIM_SERVO => 0x10100028
  | .TIM_STEP_THRESH => 0x1010002C
  | .TIM_REFUSED_SLO => 0x10100030
  | .TIM_REFUSED_SHI => 0x10100034
  | .TIM_REFUSED_NS => 0x10100038
  | .TIM_STEP_CMD => 0x1010003C
  | .TIM_SET_SLO => 0x10100040
  | .TIM_SET_SHI => 0x10100044
  | .TIM_SET_NS => 0x10100048
  | .TIM_LAUNCHCFG i => 0x10100100 + 0x4 * i
  | .TIM_PORT i => 0x10100180 + 0x4 * i
  | .TIM_LAUNCHERR i => 0x10100200 + 0x4 * i
  | .TIM_TSLOST i => 0x10100280 + 0x4 * i
  | .TIM_SNAP_TS i => 0x10100300 + 0x4 * i
  | .TIM_ASYM_RX i j => 0x10100400 + 0x40 * i + 0x8 * j
  | .TIM_ASYM_TX i j => 0x10100404 + 0x40 * i + 0x8 * j
  | .TIM_ASYM_CPL i j => 0x10100A00 + 0x20 * i + 0x4 * j
  | .FAB_STATUS => 0x10200000
  | .FAB_CELLS_FREE => 0x10200004
  | .FAB_BANK_CE_LIMIT => 0x10200008
  | .FAB_FREEZE => 0x10200010
  | .FAB_SNAP_FREE => 0x10200020
  | .FAB_SNAP_ALLOC => 0x10200024
  | .FAB_SNAP_RETURN => 0x10200028
  | .FAB_SNAP_DRAIN => 0x1020002C
  | .FAB_SNAP_ENGINE => 0x10200030
  | .FAB_SNAP_HOST => 0x10200034
  | .FAB_SNAP_CREDIT i => 0x10200040 + 0x4 * i
  | .FAB_SNAP_LAUNCH i => 0x10200100 + 0x4 * i
  | .FAB_DISC i => 0x10200200 + 0x4 * i
  | .FAB_BANK i => 0x10200300 + 0x4 * i
  | .PRT_CTRL i => 0x10300000 + 0x1000 * i
  | .PRT_STATUS i => 0x10300004 + 0x1000 * i
  | .PRT_FLOWCNT i => 0x10300008 + 0x1000 * i
  | .PRT_EEE i => 0x1030000C + 0x1000 * i
  | .PRT_HALF_LO i => 0x10300010 + 0x1000 * i
  | .PRT_HALF_HI i => 0x10300014 + 0x1000 * i
  | .PRT_CNT_LO i j => 0x10300800 + 0x1000 * i + 0x8 * j
  | .PRT_CNT_HI i j => 0x10300804 + 0x1000 * i + 0x8 * j
  | .PRT_DELTA i j => 0x10300A00 + 0x1000 * i + 0x4 * j
  | .PRT_WAKE_CTRL i => 0x10318000 + 0x40 * i
  | .PRT_WAKE_MASK i j => 0x10318004 + 0x40 * i + 0x4 * j
  | .PRT_WAKE_CHECK i => 0x10318024 + 0x40 * i
  | .PRT_WAKE_STATUS => 0x10318400
  | .BBL_MODE i j => 0x10400000 + 0x4000 * i + 0x1000 * j
  | .BBL_GEARCFG i j => 0x10400004 + 0x4000 * i + 0x1000 * j
  | .BBL_STATUS i j => 0x10400008 + 0x4000 * i + 0x1000 * j
  | .BBL_GEARCMD i j => 0x1040000C + 0x4000 * i + 0x1000 * j
  | .BBL_RELAY i => 0x10402000 + 0x4000 * i
  | .BBL_RELAY_OPS i => 0x10402004 + 0x4000 * i
  | .BBL_RELAY_WARN i => 0x10402008 + 0x4000 * i
  | .TOP_PC => 0x10500028
  | .TOP_EXC_PC => 0x1050002C
  | .TOP_EPOCH => 0x10500800
  | .TOP_INAUG => 0x10500804
  | .TOP_COMMIT_SLO => 0x10500808
  | .TOP_COMMIT_SHI => 0x1050080C
  | .TOP_COMMIT_NS => 0x10500810
  | .TOP_DIGEST => 0x10500814
  | .TOP_RENUM => 0x10500818
  | .TOP_GRACE => 0x1050081C
  | .TOP_EPOCH_REFUSED => 0x10500820
  | .TOP_BADFRAMES => 0x10500824
  | .TOP_PORTSTAT i => 0x10500830 + 0x4 * i
  | .BRG_CTRL => 0x10600000
  | .BRG_TIMEOUT => 0x10600004
  | .BRG_STATUS => 0x10600008
  | .BRG_SNAP_A => 0x1060000C
  | .BRG_ERRLOG => 0x10600010
  | .BRG_SNAP_B => 0x10600018
  | .BRG_LOCK_CTRL => 0x10600020
  | .BRG_LOCK_OFFSET => 0x10600024
  | .BRG_LOCK_WDATA => 0x10600028
  | .BRG_LOCK_RDATA => 0x1060002C
  | .BRG_RDSTAT i => 0x10600040 + 0x4 * i
  | .BRG_PF_DISCARD => 0x10600050
  | .BRG_PF_LAST => 0x10600054
  | .BRG_IN_BUSY => 0x10600060
  | .BRG_IN_BAD => 0x10600064
  | .BRG_IN_LATE => 0x10600068
  | .BRG_IN_NOINIT => 0x1060006C
  | .BRG_ERR_CAUSE i => 0x10600100 + 0x10 * i
  | .BRG_ERR_ADDR i => 0x10600104 + 0x10 * i
  | .BRG_ERR_SEQ i => 0x10600108 + 0x10 * i
  | .BRG_WIN_CTRL i => 0x10601000 + 0x20 * i
  | .BRG_WIN_TARGET i => 0x10601004 + 0x20 * i
  | .BRG_WIN_NODE_LO i => 0x10601008 + 0x20 * i
  | .BRG_WIN_NODE_HI i => 0x1060100C + 0x20 * i
  | .BRG_WIN_SEQ i => 0x10601010 + 0x20 * i
  | .BRG_WIN_FENCE_DROPS i => 0x10601014 + 0x20 * i
  | .BRG_WIN_REFUSED i => 0x10601018 + 0x20 * i
  | .BRG_PD_ERR i => 0x10604000 + 0x4 * i
  | .BRG_DS_STAT i => 0x10608000 + 0x10 * i
  | .BRG_DS_SEQ i => 0x10608004 + 0x10 * i
  | .BRG_DS_COUNT i => 0x10608008 + 0x10 * i
  | .BRG_DS_ERR i => 0x1060800C + 0x10 * i
  | .CAN_CTRL i => 0x10700000 + 0x10000 * i
  | .CAN_STATUS i => 0x10700004 + 0x10000 * i
  | .CAN_CMD i => 0x10700008 + 0x10000 * i
  | .CAN_QUEUES i => 0x1070000C + 0x10000 * i
  | .CAN_NBT i => 0x10700010 + 0x10000 * i
  | .CAN_DBT i => 0x10700014 + 0x10000 * i
  | .CAN_XBT i => 0x10700018 + 0x10000 * i
  | .CAN_TDC i => 0x1070001C + 0x10000 * i
  | .CAN_SNAP i => 0x10700020 + 0x10000 * i
  | .CAN_CLASH i => 0x10700024 + 0x10000 * i
  | .CAN_CNT i j => 0x10700030 + 0x10000 * i + 0x4 * j
  | .CAN_FLT_ID i j => 0x10700100 + 0x10000 * i + 0x8 * j
  | .CAN_FLT_MASK i j => 0x10700104 + 0x10000 * i + 0x8 * j
  | .MVB_CTRL i => 0x10780000 + 0x10000 * i
  | .MVB_ADMIN i => 0x10780004 + 0x10000 * i
  | .MVB_STATUS i => 0x10780008 + 0x10000 * i
  | .MVB_QUEUES i => 0x1078000C + 0x10000 * i
  | .MVB_SNAP i => 0x10780010 + 0x10000 * i
  | .MVB_CNT i j => 0x10780020 + 0x10000 * i + 0x4 * j
  | .MVB_PORT i j => 0x10780100 + 0x10000 * i + 0x4 * j
  | .HST_IRQ_PEND i => 0x10800020 + 0x4 * i
  | .HST_IRQ_SRC i => 0x10800100 + 0x4 * i
  | .HST_SNAP_TX i => 0x10800800 + 0x4 * i
  | .HST_SNAP_RX i => 0x10800840 + 0x4 * i
  | .HST_TXBASE_LO i => 0x10801000 + 0x20 * i
  | .HST_TXBASE_HI i => 0x10801004 + 0x20 * i
  | .HST_TXCTRL i => 0x10801008 + 0x20 * i
  | .HST_TXTAIL i => 0x1080100C + 0x20 * i
  | .HST_TXHEAD i => 0x10801010 + 0x20 * i
  | .HST_RXBASE_LO i => 0x10801200 + 0x20 * i
  | .HST_RXBASE_HI i => 0x10801204 + 0x20 * i
  | .HST_RXCTRL i => 0x10801208 + 0x20 * i
  | .HST_RXTAIL i => 0x1080120C + 0x20 * i
  | .HST_RXHEAD i => 0x10801210 + 0x20 * i
  | .SC_CTRL i => engBase i + 0x0
  | .SC_STATUS i => engBase i + 0x4
  | .SC_EXC i => engBase i + 0x8
  | .SC_ABORTS i => engBase i + 0xC
  | .SC_OVERRUN i j => engBase i + 0x10 + 0x4 * j
  | .SC_PEAK i => engBase i + 0x18
  | .SC_DOORBELL i => engBase i + 0x1C
  | .SC_DROPS i => engBase i + 0x20
  | .SC_TIMERMISS i => engBase i + 0x24

/-- The supply island whose power a register needs (02 R66). -/
def Reg.island : Reg → Island
  | .PRO_CTRL => .control
  | .PRO_VIOL => .control
  | .PRO_VIOL_ADDR => .control
  | .PRO_VIOL_COUNT => .control
  | .PRO_REGION_BASE _ => .control
  | .PRO_REGION_LIMIT _ => .control
  | .PRO_REGION_RIGHTS _ => .control
  | .PRO_RMGR_LO _ => .control
  | .PRO_RMGR_HI _ => .control
  | .MGT_STATE => .control
  | .MGT_BOOTINFO => .control
  | .MGT_OWNER => .control
  | .MGT_OWNER_NODE => .control
  | .MGT_OWN_PEND => .control
  | .MGT_OWN_PEND_NODE => .control
  | .MGT_OWN_CMD => .control
  | .MGT_OWN_LOG => .control
  | .MGT_OWN_LOG_ADDR => .control
  | .MGT_OWN_REFUSALS => .control
  | .MGT_CMD => .control
  | .MGT_REJECT => .control
  | .MGT_REJECT_ADDR => .control
  | .MGT_REJECT_COUNT => .control
  | .MGT_FAULT => .control
  | .MGT_FLOG_STATUS => .control
  | .MGT_FLOG_SEQ => .control
  | .MGT_FLOG_SEL => .control
  | .MGT_FLOG_DATA _ => .control
  | .HLT_REPORT => .control
  | .HLT_SPARES => .control
  | .HLT_RETIRED => .control
  | .HLT_ENG_MOVES => .control
  | .HLT_SLOT _ => .control
  | .HLT_PVIOL _ => .control
  | .PAIR_CTRL => .watch
  | .PAIR_STATUS => .watch
  | .PAIR_CMD => .watch
  | .PAIR_CKPT_CFG => .watch
  | .PAIR_CKPT_SEQ => .watch
  | .PAIR_CKPT_INFO => .watch
  | .PAIR_HB_RX _ => .watch
  | .PAIR_HB_MISS _ => .watch
  | .PAIR_PARTNER_HEALTH => .watch
  | .PAIR_PARTNER_NODE_LO => .watch
  | .PAIR_PARTNER_NODE_HI => .watch
  | .PAIR_CKPT_SIG _ => .watch
  | .PAIR_DRILL => .watch
  | .PAIR_DRILL_AGE => .watch
  | .PAIR_DRILL_RESULT => .watch
  | .PAIR_GAP => .watch
  | .PAIR_SNAP_HB_RX _ => .watch
  | .PAIR_SNAP_HB_MISS _ => .watch
  | .PAIR_SNAP_HB_FIRST _ => .watch
  | .PAIR_SNAP_HB_HIGH _ => .watch
  | .UPD_CTRL => .control
  | .UPD_STATUS => .control
  | .UPD_CMD => .control
  | .UPD_ARG => .control
  | .UPD_ARG_CRC => .control
  | .UPD_XFER => .control
  | .UPD_XFER_ID_LO => .control
  | .UPD_XFER_ID_HI => .control
  | .UPD_MAIN_ID_LO => .control
  | .UPD_MAIN_ID_HI => .control
  | .UPD_FB_ID_LO => .control
  | .UPD_FB_ID_HI => .control
  | .UPD_FORMATS => .control
  | .UPD_SPEED_SRC => .control
  | .UPD_BATT => .control
  | .UPD_RELAY_STAT => .control
  | .UPD_EB_SEL => .control
  | .UPD_EB_INFO => .control
  | .UPD_SNAP_FLASH => .control
  | .UPD_KEYFP_LO _ => .control
  | .UPD_KEYFP_HI _ => .control
  | .PWR_STATUS => .watch
  | .PWR_PRIMARY => .watch
  | .PWR_BATTERY => .watch
  | .PWR_EVENTS => .watch
  | .PWR_DISCRETE => .watch
  | .PWR_TEMP => .watch
  | .PWR_ISLANDS => .watch
  | .TIM_CTRL => .watch
  | .TIM_STATUS => .watch
  | .TIM_NOW_SLO => .watch
  | .TIM_NOW_SHI => .watch
  | .TIM_NOW_NS => .watch
  | .TIM_NOW_FRAC => .watch
  | .TIM_OFFSET => .watch
  | .TIM_FREQ => .watch
  | .TIM_SERVO => .watch
  | .TIM_STEP_THRESH => .watch
  | .TIM_REFUSED_SLO => .watch
  | .TIM_REFUSED_SHI => .watch
  | .TIM_REFUSED_NS => .watch
  | .TIM_STEP_CMD => .watch
  | .TIM_SET_SLO => .watch
  | .TIM_SET_SHI => .watch
  | .TIM_SET_NS => .watch
  | .TIM_LAUNCHCFG _ => .data
  | .TIM_PORT _ => .watch
  | .TIM_LAUNCHERR _ => .data
  | .TIM_TSLOST _ => .data
  | .TIM_SNAP_TS _ => .data
  | .TIM_ASYM_RX _ _ => .watch
  | .TIM_ASYM_TX _ _ => .watch
  | .TIM_ASYM_CPL _ _ => .watch
  | .FAB_STATUS => .data
  | .FAB_CELLS_FREE => .data
  | .FAB_BANK_CE_LIMIT => .data
  | .FAB_FREEZE => .data
  | .FAB_SNAP_FREE => .data
  | .FAB_SNAP_ALLOC => .data
  | .FAB_SNAP_RETURN => .data
  | .FAB_SNAP_DRAIN => .data
  | .FAB_SNAP_ENGINE => .data
  | .FAB_SNAP_HOST => .data
  | .FAB_SNAP_CREDIT _ => .data
  | .FAB_SNAP_LAUNCH _ => .data
  | .FAB_DISC _ => .data
  | .FAB_BANK _ => .data
  | .PRT_CTRL _ => .data
  | .PRT_STATUS _ => .data
  | .PRT_FLOWCNT _ => .data
  | .PRT_EEE _ => .data
  | .PRT_HALF_LO _ => .data
  | .PRT_HALF_HI _ => .data
  | .PRT_CNT_LO _ _ => .data
  | .PRT_CNT_HI _ _ => .data
  | .PRT_DELTA _ _ => .data
  | .PRT_WAKE_CTRL _ => .watch
  | .PRT_WAKE_MASK _ _ => .watch
  | .PRT_WAKE_CHECK _ => .watch
  | .PRT_WAKE_STATUS => .watch
  | .BBL_MODE _ _ => .data
  | .BBL_GEARCFG _ _ => .data
  | .BBL_STATUS _ _ => .data
  | .BBL_GEARCMD _ _ => .data
  | .BBL_RELAY _ => .data
  | .BBL_RELAY_OPS _ => .data
  | .BBL_RELAY_WARN _ => .data
  | .TOP_PC => .data
  | .TOP_EXC_PC => .data
  | .TOP_EPOCH => .data
  | .TOP_INAUG => .data
  | .TOP_COMMIT_SLO => .data
  | .TOP_COMMIT_SHI => .data
  | .TOP_COMMIT_NS => .data
  | .TOP_DIGEST => .data
  | .TOP_RENUM => .data
  | .TOP_GRACE => .data
  | .TOP_EPOCH_REFUSED => .data
  | .TOP_BADFRAMES => .data
  | .TOP_PORTSTAT _ => .data
  | .BRG_CTRL => .data
  | .BRG_TIMEOUT => .data
  | .BRG_STATUS => .data
  | .BRG_SNAP_A => .data
  | .BRG_ERRLOG => .data
  | .BRG_SNAP_B => .data
  | .BRG_LOCK_CTRL => .data
  | .BRG_LOCK_OFFSET => .data
  | .BRG_LOCK_WDATA => .data
  | .BRG_LOCK_RDATA => .data
  | .BRG_RDSTAT _ => .data
  | .BRG_PF_DISCARD => .data
  | .BRG_PF_LAST => .data
  | .BRG_IN_BUSY => .data
  | .BRG_IN_BAD => .data
  | .BRG_IN_LATE => .data
  | .BRG_IN_NOINIT => .data
  | .BRG_ERR_CAUSE _ => .data
  | .BRG_ERR_ADDR _ => .data
  | .BRG_ERR_SEQ _ => .data
  | .BRG_WIN_CTRL _ => .data
  | .BRG_WIN_TARGET _ => .data
  | .BRG_WIN_NODE_LO _ => .data
  | .BRG_WIN_NODE_HI _ => .data
  | .BRG_WIN_SEQ _ => .data
  | .BRG_WIN_FENCE_DROPS _ => .data
  | .BRG_WIN_REFUSED _ => .data
  | .BRG_PD_ERR _ => .data
  | .BRG_DS_STAT _ => .data
  | .BRG_DS_SEQ _ => .data
  | .BRG_DS_COUNT _ => .data
  | .BRG_DS_ERR _ => .data
  | .CAN_CTRL _ => .data
  | .CAN_STATUS _ => .data
  | .CAN_CMD _ => .data
  | .CAN_QUEUES _ => .data
  | .CAN_NBT _ => .data
  | .CAN_DBT _ => .data
  | .CAN_XBT _ => .data
  | .CAN_TDC _ => .data
  | .CAN_SNAP _ => .data
  | .CAN_CLASH _ => .data
  | .CAN_CNT _ _ => .data
  | .CAN_FLT_ID _ _ => .data
  | .CAN_FLT_MASK _ _ => .data
  | .MVB_CTRL _ => .data
  | .MVB_ADMIN _ => .data
  | .MVB_STATUS _ => .data
  | .MVB_QUEUES _ => .data
  | .MVB_SNAP _ => .data
  | .MVB_CNT _ _ => .data
  | .MVB_PORT _ _ => .data
  | .HST_IRQ_PEND _ => .data
  | .HST_IRQ_SRC _ => .data
  | .HST_SNAP_TX _ => .data
  | .HST_SNAP_RX _ => .data
  | .HST_TXBASE_LO _ => .data
  | .HST_TXBASE_HI _ => .data
  | .HST_TXCTRL _ => .data
  | .HST_TXTAIL _ => .data
  | .HST_TXHEAD _ => .data
  | .HST_RXBASE_LO _ => .data
  | .HST_RXBASE_HI _ => .data
  | .HST_RXCTRL _ => .data
  | .HST_RXTAIL _ => .data
  | .HST_RXHEAD _ => .data
  | .SC_CTRL _ => .data
  | .SC_STATUS _ => .data
  | .SC_EXC _ => .data
  | .SC_ABORTS _ => .data
  | .SC_OVERRUN _ _ => .data
  | .SC_PEAK _ => .data
  | .SC_DOORBELL _ => .data
  | .SC_DROPS _ => .data
  | .SC_TIMERMISS _ => .data

/-- The fields of a register. -/
def Reg.fields : Reg → List FieldInfo
  | .PRO_CTRL => [⟨0, 1, .WB, .NR, 0⟩]
  | .PRO_VIOL => [⟨31, 1, .W1C, .NR, 0⟩, ⟨28, 3, .RO, .NR, 0⟩, ⟨22, 6, .RO, .NR, 0⟩, ⟨17, 5, .RO, .NR, 0⟩, ⟨16, 1, .RO, .NR, 0⟩, ⟨15, 1, .RO, .NR, 0⟩, ⟨0, 1, .RO, .NR, 0⟩]
  | .PRO_VIOL_ADDR => [⟨0, 32, .RO, .NR, 0⟩]
  | .PRO_VIOL_COUNT => [⟨0, 32, .RO, .NR, 0⟩]
  | .PRO_REGION_BASE _ => [⟨12, 20, .WB, .NR, 0⟩]
  | .PRO_REGION_LIMIT _ => [⟨12, 20, .WB, .NR, 0⟩]
  | .PRO_REGION_RIGHTS _ => [⟨31, 1, .WB, .NR, 0⟩, ⟨13, 1, .WB, .NR, 0⟩, ⟨12, 1, .WB, .NR, 0⟩, ⟨10, 2, .WB, .NR, 0⟩, ⟨0, 10, .WB, .NR, 0⟩]
  | .PRO_RMGR_LO _ => [⟨0, 32, .WB, .NR, 0⟩]
  | .PRO_RMGR_HI _ => [⟨31, 1, .WB, .NR, 0⟩, ⟨0, 16, .WB, .NR, 0⟩]
  | .MGT_STATE => [⟨11, 1, .RO, .NR, 0⟩, ⟨8, 1, .RO, .NR, 0⟩, ⟨4, 4, .RO, .NR, 1⟩, ⟨0, 2, .RO, .NR, 0⟩]
  | .MGT_BOOTINFO => [⟨16, 8, .RO, .NR, 0⟩, ⟨8, 8, .RO, .NR, 0⟩, ⟨4, 4, .RO, .NR, 0⟩, ⟨0, 4, .RO, .NR, 0⟩]
  | .MGT_OWNER => [⟨31, 1, .RO, .NR, 1⟩, ⟨20, 11, .RO, .NR, 0⟩, ⟨16, 3, .RO, .NR, 0⟩, ⟨0, 16, .RO, .NR, 0⟩]
  | .MGT_OWNER_NODE => [⟨0, 32, .RO, .NR, 0⟩]
  | .MGT_OWN_PEND => [⟨31, 1, .RO, .NR, 0⟩, ⟨20, 11, .RO, .NR, 0⟩, ⟨16, 3, .RO, .NR, 0⟩, ⟨0, 16, .RO, .NR, 0⟩]
  | .MGT_OWN_PEND_NODE => [⟨0, 32, .RO, .NR, 0⟩]
  | .MGT_OWN_CMD => [⟨28, 4, .RO, .NR, 0⟩, ⟨0, 4, .CMD, .NR, 0⟩]
  | .MGT_OWN_LOG => [⟨31, 1, .W1C, .NR, 0⟩, ⟨28, 3, .RO, .NR, 0⟩]
  | .MGT_OWN_LOG_ADDR => [⟨0, 32, .RO, .NR, 0⟩]
  | .MGT_OWN_REFUSALS => [⟨0, 32, .RO, .NR, 0⟩]
  | .MGT_CMD => [⟨28, 4, .RO, .NR, 0⟩, ⟨0, 4, .CMD, .NR, 0⟩]
  | .MGT_REJECT => [⟨31, 1, .W1C, .NR, 0⟩, ⟨30, 1, .RO, .NR, 0⟩, ⟨27, 3, .RO, .NR, 0⟩, ⟨23, 4, .RO, .NR, 0⟩, ⟨0, 4, .RO, .NR, 0⟩]
  | .MGT_REJECT_ADDR => [⟨0, 32, .RO, .NR, 0⟩]
  | .MGT_REJECT_COUNT => [⟨0, 32, .RO, .NR, 0⟩]
  | .MGT_FAULT => [⟨0, 16, .W1C, .PO, 0⟩]
  | .MGT_FLOG_STATUS => [⟨31, 1, .RO, .keep, 0⟩, ⟨16, 8, .RO, .keep, 0⟩, ⟨0, 16, .RO, .keep, 0⟩]
  | .MGT_FLOG_SEQ => [⟨0, 32, .RO, .keep, 0⟩]
  | .MGT_FLOG_SEL => [⟨0, 32, .RW, .NR, 0⟩]
  | .MGT_FLOG_DATA _ => [⟨0, 32, .RO, .keep, 0⟩]
  | .HLT_REPORT => [⟨31, 1, .RO, .NR, 0⟩, ⟨30, 1, .RO, .NR, 0⟩, ⟨29, 1, .RO, .keep, 0⟩, ⟨28, 1, .RO, .keep, 0⟩, ⟨27, 1, .RO, .keep, 0⟩, ⟨26, 1, .RO, .NR, 0⟩, ⟨25, 1, .RO, .keep, 0⟩, ⟨24, 1, .RO, .NR, 0⟩, ⟨23, 1, .RO, .NR, 0⟩, ⟨22, 1, .RO, .keep, 0⟩, ⟨21, 1, .RO, .keep, 0⟩, ⟨20, 1, .RO, .keep, 0⟩, ⟨19, 1, .RO, .NR, 0⟩]
  | .HLT_SPARES => [⟨27, 5, .RO, .keep, 18⟩, ⟨25, 2, .RO, .keep, 2⟩, ⟨16, 9, .RO, .keep, 328⟩, ⟨7, 9, .RO, .keep, 328⟩]
  | .HLT_RETIRED => [⟨0, 18, .RO, .keep, 0⟩]
  | .HLT_ENG_MOVES => [⟨16, 16, .RO, .keep, 0⟩, ⟨0, 16, .RO, .NR, 0⟩]
  | .HLT_SLOT _ => [⟨31, 1, .RO, .NR, 0⟩, ⟨0, 5, .RO, .NR, 31⟩]
  | .HLT_PVIOL _ => [⟨0, 32, .RO, .NR, 0⟩]
  | .PAIR_CTRL => [⟨31, 1, .RW, .NR, 0⟩, ⟨30, 1, .RW, .NR, 1⟩, ⟨16, 5, .RW, .NR, 4⟩, ⟨0, 2, .RW, .NR, 2⟩]
  | .PAIR_STATUS => [⟨30, 2, .RO, .keep, 0⟩, ⟨29, 1, .RO, .NR, 0⟩, ⟨28, 1, .RO, .keep, 0⟩, ⟨27, 1, .RO, .NR, 0⟩, ⟨26, 1, .RO, .NR, 0⟩, ⟨25, 1, .W1C, .NR, 0⟩, ⟨24, 1, .W1C, .NR, 0⟩, ⟨23, 1, .W1C, .NR, 0⟩, ⟨22, 1, .RO, .NR, 0⟩, ⟨21, 1, .RO, .NR, 0⟩, ⟨20, 1, .RO, .PO, 0⟩, ⟨16, 4, .RO, .NR, 0⟩, ⟨14, 2, .RO, .NR, 0⟩, ⟨12, 2, .RO, .NR, 0⟩, ⟨10, 2, .RO, .keep, 0⟩]
  | .PAIR_CMD => [⟨28, 4, .RO, .NR, 0⟩, ⟨0, 4, .CMD, .NR, 0⟩]
  | .PAIR_CKPT_CFG => [⟨0, 10, .RW, .NR, 100⟩]
  | .PAIR_CKPT_SEQ => [⟨0, 32, .RO, .NR, 0⟩]
  | .PAIR_CKPT_INFO => [⟨16, 16, .RO, .NR, 0⟩, ⟨0, 16, .RO, .NR, 0⟩]
  | .PAIR_HB_RX _ => [⟨0, 32, .RO, .NR, 0⟩]
  | .PAIR_HB_MISS _ => [⟨0, 32, .RO, .NR, 0⟩]
  | .PAIR_PARTNER_HEALTH => [⟨0, 32, .RO, .NR, 0⟩]
  | .PAIR_PARTNER_NODE_LO => [⟨0, 32, .RO, .NR, 0⟩]
  | .PAIR_PARTNER_NODE_HI => [⟨0, 16, .RO, .NR, 0⟩]
  | .PAIR_CKPT_SIG _ => [⟨0, 17, .RW, .NR, 0⟩]
  | .PAIR_DRILL => [⟨31, 1, .RO, .NR, 0⟩, ⟨30, 1, .RO, .keep, 0⟩, ⟨29, 1, .W1C, .NR, 0⟩, ⟨0, 8, .RW, .NR, 24⟩]
  | .PAIR_DRILL_AGE => [⟨0, 32, .RO, .keep, 4294967295⟩]
  | .PAIR_DRILL_RESULT => [⟨0, 32, .RO, .keep, 0⟩]
  | .PAIR_GAP => [⟨16, 16, .RO, .PO, 0⟩, ⟨0, 16, .RO, .PO, 0⟩]
  | .PAIR_SNAP_HB_RX _ => [⟨0, 32, .RO, .NR, 0⟩]
  | .PAIR_SNAP_HB_MISS _ => [⟨0, 32, .RO, .NR, 0⟩]
  | .PAIR_SNAP_HB_FIRST _ => [⟨0, 32, .RO, .NR, 0⟩]
  | .PAIR_SNAP_HB_HIGH _ => [⟨0, 32, .RO, .NR, 0⟩]
  | .UPD_CTRL => [⟨31, 1, .RW, .NR, 0⟩, ⟨30, 1, .RW, .NR, 0⟩, ⟨27, 3, .RO, .NR, 0⟩, ⟨8, 8, .RW, .NR, 10⟩]
  | .UPD_STATUS => [⟨28, 4, .RO, .keep, 0⟩, ⟨27, 1, .RO, .keep, 0⟩, ⟨26, 1, .W1C, .keep, 0⟩, ⟨24, 2, .RO, .keep, 0⟩, ⟨23, 1, .RO, .NR, 0⟩, ⟨22, 1, .RO, .keep, 0⟩, ⟨20, 2, .RO, .keep, 0⟩]
  | .UPD_CMD => [⟨28, 4, .RO, .NR, 0⟩, ⟨0, 4, .CMD, .NR, 0⟩]
  | .UPD_ARG => [⟨0, 16, .RW, .NR, 0⟩]
  | .UPD_ARG_CRC => [⟨0, 32, .RW, .NR, 0⟩]
  | .UPD_XFER => [⟨16, 16, .RO, .keep, 0⟩, ⟨0, 16, .RO, .keep, 0⟩]
  | .UPD_XFER_ID_LO => [⟨0, 32, .RO, .keep, 0⟩]
  | .UPD_XFER_ID_HI => [⟨0, 32, .RO, .keep, 0⟩]
  | .UPD_MAIN_ID_LO => [⟨0, 32, .RO, .keep, 0⟩]
  | .UPD_MAIN_ID_HI => [⟨0, 32, .RO, .keep, 0⟩]
  | .UPD_FB_ID_LO => [⟨0, 32, .RO, .keep, 0⟩]
  | .UPD_FB_ID_HI => [⟨0, 32, .RO, .keep, 0⟩]
  | .UPD_FORMATS => [⟨16, 16, .RO, .NR, 0⟩, ⟨0, 16, .RO, .keep, 0⟩]
  | .UPD_SPEED_SRC => [⟨31, 1, .RW, .NR, 0⟩, ⟨24, 4, .RW, .NR, 0⟩, ⟨0, 14, .RW, .NR, 0⟩]
  | .UPD_BATT => [⟨0, 16, .RW, .NR, 0⟩]
  | .UPD_RELAY_STAT => [⟨16, 16, .RO, .NR, 0⟩, ⟨8, 8, .RO, .NR, 0⟩, ⟨0, 8, .RO, .NR, 0⟩]
  | .UPD_EB_SEL => [⟨31, 1, .RW, .NR, 0⟩, ⟨29, 2, .RO, .keep, 0⟩, ⟨0, 12, .RW, .NR, 0⟩]
  | .UPD_EB_INFO => [⟨16, 16, .RO, .keep, 0⟩, ⟨0, 16, .RO, .keep, 60000⟩]
  | .UPD_SNAP_FLASH => [⟨16, 9, .RO, .NR, 0⟩, ⟨0, 9, .RO, .NR, 0⟩]
  | .UPD_KEYFP_LO _ => [⟨0, 32, .RO, .keep, 0⟩]
  | .UPD_KEYFP_HI _ => [⟨0, 32, .RO, .keep, 0⟩]
  | .PWR_STATUS => [⟨31, 1, .RO, .PO, 0⟩, ⟨30, 1, .RO, .PO, 0⟩, ⟨28, 2, .RO, .PO, 0⟩, ⟨27, 1, .RO, .PO, 0⟩, ⟨26, 1, .RO, .PO, 0⟩, ⟨25, 1, .RO, .PO, 0⟩, ⟨24, 1, .RO, .PO, 0⟩, ⟨23, 1, .RO, .PO, 0⟩]
  | .PWR_PRIMARY => [⟨16, 16, .RO, .PO, 0⟩, ⟨0, 16, .RO, .PO, 0⟩]
  | .PWR_BATTERY => [⟨16, 16, .RO, .PO, 0⟩, ⟨0, 16, .RO, .PO, 0⟩]
  | .PWR_EVENTS => [⟨31, 1, .W1C, .PO, 0⟩, ⟨30, 1, .W1C, .PO, 0⟩, ⟨29, 1, .W1C, .PO, 0⟩, ⟨28, 1, .W1C, .PO, 0⟩, ⟨27, 1, .W1C, .PO, 0⟩, ⟨26, 1, .W1C, .PO, 0⟩, ⟨25, 1, .W1C, .PO, 0⟩, ⟨24, 1, .W1C, .PO, 0⟩, ⟨23, 1, .W1C, .PO, 0⟩, ⟨0, 16, .RO, .PO, 0⟩]
  | .PWR_DISCRETE => [⟨31, 1, .RO, .PO, 0⟩, ⟨30, 1, .RO, .PO, 0⟩, ⟨29, 1, .RO, .PO, 0⟩, ⟨28, 1, .RO, .PO, 1⟩, ⟨27, 1, .RW, .PO, 0⟩, ⟨8, 8, .RW, .PO, 20⟩, ⟨0, 8, .RW, .PO, 20⟩]
  | .PWR_TEMP => [⟨24, 8, .RO, .PO, 0⟩, ⟨16, 8, .RO, .PO, 0⟩, ⟨8, 8, .RO, .PO, 128⟩, ⟨0, 8, .RO, .PO, 0⟩]
  | .PWR_ISLANDS => [⟨31, 1, .RO, .PO, 0⟩, ⟨30, 1, .RO, .PO, 0⟩, ⟨29, 1, .RO, .NR, 0⟩, ⟨0, 8, .RO, .PO, 0⟩]
  | .TIM_CTRL => [⟨24, 8, .RW, .PO, 246⟩, ⟨16, 8, .RW, .PO, 248⟩, ⟨8, 8, .RW, .PO, 0⟩, ⟨0, 1, .RW, .PO, 1⟩]
  | .TIM_STATUS => [⟨29, 3, .RO, .PO, 0⟩, ⟨28, 1, .RO, .PO, 0⟩, ⟨27, 1, .W1C, .PO, 0⟩, ⟨22, 5, .RO, .PO, 31⟩, ⟨17, 5, .RO, .PO, 31⟩, ⟨8, 8, .RO, .PO, 0⟩, ⟨0, 8, .RO, .PO, 0⟩]
  | .TIM_NOW_SLO => [⟨0, 32, .RO, .PO, 0⟩]
  | .TIM_NOW_SHI => [⟨0, 16, .RO, .PO, 0⟩]
  | .TIM_NOW_NS => [⟨0, 30, .RO, .PO, 0⟩]
  | .TIM_NOW_FRAC => [⟨0, 16, .RO, .PO, 0⟩]
  | .TIM_OFFSET => [⟨0, 32, .RO, .PO, 0⟩]
  | .TIM_FREQ => [⟨0, 32, .RO, .PO, 0⟩]
  | .TIM_SERVO => [⟨16, 16, .RW, .PO, 768⟩, ⟨0, 16, .RW, .PO, 77⟩]
  | .TIM_STEP_THRESH => [⟨0, 30, .RW, .PO, 1000⟩]
  | .TIM_REFUSED_SLO => [⟨0, 32, .RO, .PO, 0⟩]
  | .TIM_REFUSED_SHI => [⟨31, 1, .RO, .PO, 0⟩, ⟨0, 16, .RO, .PO, 0⟩]
  | .TIM_REFUSED_NS => [⟨0, 30, .RO, .PO, 0⟩]
  | .TIM_STEP_CMD => [⟨28, 4, .RO, .PO, 0⟩, ⟨0, 4, .CMD, .PO, 0⟩]
  | .TIM_SET_SLO => [⟨0, 32, .RW, .PO, 0⟩]
  | .TIM_SET_SHI => [⟨0, 16, .RW, .PO, 0⟩]
  | .TIM_SET_NS => [⟨0, 30, .RW, .PO, 0⟩]
  | .TIM_LAUNCHCFG _ => [⟨24, 8, .RW, .NR, 0⟩, ⟨0, 20, .RW, .NR, 1000⟩]
  | .TIM_PORT _ => [⟨30, 2, .RW, .PO, 0⟩, ⟨29, 1, .RW, .PO, 0⟩, ⟨28, 1, .RO, .PO, 0⟩, ⟨25, 3, .RO, .PO, 0⟩, ⟨0, 24, .RO, .PO, 0⟩]
  | .TIM_LAUNCHERR _ => [⟨16, 16, .RO, .NR, 0⟩, ⟨0, 16, .RO, .NR, 0⟩]
  | .TIM_TSLOST _ => [⟨0, 32, .RO, .NR, 0⟩]
  | .TIM_SNAP_TS _ => [⟨12, 6, .RO, .NR, 0⟩, ⟨6, 6, .RO, .NR, 0⟩, ⟨0, 6, .RO, .NR, 0⟩]
  | .TIM_ASYM_RX _ _ => [⟨0, 32, .RO, .keep, 0⟩]
  | .TIM_ASYM_TX _ _ => [⟨0, 32, .RO, .keep, 0⟩]
  | .TIM_ASYM_CPL _ _ => [⟨0, 32, .RW, .PO, 0⟩]
  | .FAB_STATUS => [⟨27, 5, .RO, .keep, 24⟩, ⟨25, 2, .RO, .keep, 2⟩, ⟨24, 1, .RO, .NR, 0⟩, ⟨19, 5, .RO, .NR, 0⟩, ⟨18, 1, .RO, .keep, 0⟩]
  | .FAB_CELLS_FREE => [⟨0, 17, .RO, .keep, 0⟩]
  | .FAB_BANK_CE_LIMIT => [⟨0, 16, .RW, .NR, 64⟩]
  | .FAB_FREEZE => [⟨31, 1, .RO, .NR, 0⟩, ⟨8, 8, .RO, .NR, 0⟩, ⟨0, 1, .CMD, .NR, 0⟩]
  | .FAB_SNAP_FREE => [⟨0, 17, .RO, .NR, 0⟩]
  | .FAB_SNAP_ALLOC => [⟨0, 17, .RO, .NR, 0⟩]
  | .FAB_SNAP_RETURN => [⟨0, 17, .RO, .NR, 0⟩]
  | .FAB_SNAP_DRAIN => [⟨0, 17, .RO, .NR, 0⟩]
  | .FAB_SNAP_ENGINE => [⟨0, 17, .RO, .NR, 0⟩]
  | .FAB_SNAP_HOST => [⟨0, 17, .RO, .NR, 0⟩]
  | .FAB_SNAP_CREDIT _ => [⟨16, 8, .RO, .NR, 0⟩, ⟨8, 8, .RO, .NR, 0⟩, ⟨0, 8, .RO, .NR, 0⟩]
  | .FAB_SNAP_LAUNCH _ => [⟨8, 7, .RO, .NR, 0⟩, ⟨0, 7, .RO, .NR, 0⟩]
  | .FAB_DISC _ => [⟨0, 32, .RO, .NR, 0⟩]
  | .FAB_BANK _ => [⟨29, 3, .RO, .keep, 0⟩, ⟨16, 8, .RO, .NR, 0⟩, ⟨0, 16, .RO, .NR, 0⟩]
  | .PRT_CTRL i => [⟨29, 1, .RW, .NR, 0⟩, ⟨28, 1, .RW, .NR, 0⟩, ⟨27, 1, .RW, .NR, 0⟩, ⟨26, 1, .RW, .NR, 0⟩, ⟨24, 2, .RW, .NR, 0⟩, ⟨14, 8, .RW, .NR, if i < 20 then 10 else 0⟩, ⟨0, 14, .RW, .NR, if i < 20 then 1522 else 0⟩]
  | .PRT_STATUS _ => [⟨31, 1, .RO, .NR, 0⟩, ⟨28, 3, .RO, .NR, 0⟩, ⟨26, 2, .RO, .NR, 0⟩, ⟨25, 1, .RO, .NR, 0⟩, ⟨24, 1, .RO, .NR, 0⟩, ⟨16, 8, .RO, .NR, 0⟩]
  | .PRT_FLOWCNT _ => [⟨0, 32, .RO, .NR, 0⟩]
  | .PRT_EEE i => [⟨0, 16, .RW, .NR, if i < 20 then 50 else 0⟩]
  | .PRT_HALF_LO _ => [⟨0, 32, .W1C, .NR, 0⟩]
  | .PRT_HALF_HI _ => [⟨0, 32, .W1C, .NR, 0⟩]
  | .PRT_CNT_LO _ _ => [⟨0, 32, .RO, .NR, 0⟩]
  | .PRT_CNT_HI _ _ => [⟨0, 8, .RO, .NR, 0⟩]
  | .PRT_DELTA _ _ => [⟨0, 32, .RC, .NR, 0⟩]
  | .PRT_WAKE_CTRL _ => [⟨31, 1, .RW, .PO, 0⟩, ⟨30, 1, .RW, .PO, 0⟩, ⟨16, 12, .RW, .PO, 0⟩, ⟨0, 14, .RW, .PO, 0⟩]
  | .PRT_WAKE_MASK _ _ => [⟨0, 32, .RW, .PO, 0⟩]
  | .PRT_WAKE_CHECK _ => [⟨0, 32, .RW, .PO, 0⟩]
  | .PRT_WAKE_STATUS => [⟨31, 1, .W1C, .PO, 0⟩, ⟨24, 4, .RO, .PO, 0⟩, ⟨16, 5, .RO, .PO, 0⟩, ⟨0, 16, .RO, .PO, 0⟩]
  | .BBL_MODE _ _ => [⟨30, 2, .RW, .NR, 2⟩, ⟨21, 3, .RW, .NR, 7⟩, ⟨20, 1, .RO, .keep, 1⟩, ⟨12, 8, .RW, .NR, 60⟩, ⟨4, 8, .RW, .NR, 0⟩]
  | .BBL_GEARCFG _ _ => [⟨16, 16, .RW, .NR, 1000⟩, ⟨8, 8, .RW, .NR, 24⟩, ⟨0, 8, .RW, .NR, 8⟩]
  | .BBL_STATUS _ _ => [⟨31, 1, .RO, .NR, 0⟩, ⟨28, 3, .RO, .NR, 0⟩, ⟨27, 1, .RO, .NR, 0⟩, ⟨26, 1, .RO, .NR, 0⟩, ⟨25, 1, .RO, .NR, 0⟩, ⟨24, 1, .W1C, .NR, 0⟩, ⟨8, 8, .RO, .NR, 0⟩, ⟨0, 8, .RO, .NR, 0⟩]
  | .BBL_GEARCMD _ _ => [⟨28, 4, .RO, .NR, 0⟩, ⟨0, 3, .CMD, .NR, 0⟩]
  | .BBL_RELAY _ => [⟨31, 1, .RO, .keep, 1⟩, ⟨30, 1, .RO, .NR, 0⟩, ⟨29, 1, .RW, .NR, 0⟩, ⟨28, 1, .W1C, .NR, 0⟩, ⟨0, 10, .RO, .keep, 0⟩]
  | .BBL_RELAY_OPS _ => [⟨0, 32, .RO, .keep, 0⟩]
  | .BBL_RELAY_WARN _ => [⟨0, 10, .RW, .NR, 800⟩]
  | .TOP_PC => [⟨0, 32, .RO, .NR, 0⟩]
  | .TOP_EXC_PC => [⟨0, 32, .RO, .NR, 0⟩]
  | .TOP_EPOCH => [⟨16, 16, .RO, .NR, 0⟩, ⟨0, 16, .RO, .NR, 0⟩]
  | .TOP_INAUG => [⟨28, 4, .RO, .NR, 0⟩, ⟨27, 1, .RO, .NR, 0⟩, ⟨26, 1, .W1C, .NR, 0⟩, ⟨25, 1, .W1C, .NR, 0⟩, ⟨24, 1, .W1C, .NR, 0⟩, ⟨18, 6, .RO, .NR, 0⟩, ⟨12, 6, .RO, .NR, 0⟩, ⟨11, 1, .RO, .NR, 0⟩, ⟨8, 3, .RO, .NR, 0⟩, ⟨4, 4, .RO, .NR, 0⟩, ⟨0, 3, .RO, .NR, 0⟩]
  | .TOP_COMMIT_SLO => [⟨0, 32, .RO, .NR, 0⟩]
  | .TOP_COMMIT_SHI => [⟨0, 16, .RO, .NR, 0⟩]
  | .TOP_COMMIT_NS => [⟨0, 30, .RO, .NR, 0⟩]
  | .TOP_DIGEST => [⟨0, 32, .RO, .NR, 0⟩]
  | .TOP_RENUM => [⟨20, 12, .RO, .NR, 0⟩, ⟨16, 4, .RO, .NR, 0⟩, ⟨0, 16, .RO, .NR, 0⟩]
  | .TOP_GRACE => [⟨16, 16, .RO, .EP, 0⟩, ⟨0, 16, .RO, .EP, 0⟩]
  | .TOP_EPOCH_REFUSED => [⟨0, 32, .RO, .NR, 0⟩]
  | .TOP_BADFRAMES => [⟨0, 32, .RO, .NR, 0⟩]
  | .TOP_PORTSTAT _ => [⟨0, 32, .RO, .NR, 0⟩]
  | .BRG_CTRL => [⟨31, 1, .RW, .NR, 0⟩, ⟨0, 12, .RW, .NR, 0⟩]
  | .BRG_TIMEOUT => [⟨0, 10, .RW, .NR, 10⟩]
  | .BRG_STATUS => [⟨16, 11, .RO, .NR, 1024⟩, ⟨15, 1, .RO, .NR, 0⟩, ⟨0, 11, .RO, .NR, 0⟩]
  | .BRG_SNAP_A => [⟨16, 11, .RO, .NR, 0⟩, ⟨0, 11, .RO, .NR, 0⟩]
  | .BRG_ERRLOG => [⟨31, 1, .W1C, .NR, 0⟩, ⟨16, 5, .RO, .NR, 0⟩, ⟨0, 16, .RO, .NR, 0⟩]
  | .BRG_SNAP_B => [⟨0, 11, .RO, .NR, 0⟩]
  | .BRG_LOCK_CTRL => [⟨28, 4, .RO, .NR, 0⟩, ⟨27, 1, .RO, .NR, 0⟩, ⟨26, 1, .RO, .NR, 0⟩, ⟨16, 6, .RW, .NR, 0⟩, ⟨0, 4, .CMD, .NR, 0⟩]
  | .BRG_LOCK_OFFSET => [⟨2, 23, .RW, .NR, 0⟩]
  | .BRG_LOCK_WDATA => [⟨0, 32, .RW, .NR, 0⟩]
  | .BRG_LOCK_RDATA => [⟨0, 32, .RO, .NR, 0⟩]
  | .BRG_RDSTAT _ => [⟨31, 1, .W1C, .NR, 0⟩, ⟨27, 4, .RO, .NR, 0⟩, ⟨21, 6, .RO, .NR, 0⟩, ⟨0, 16, .RO, .NR, 0⟩]
  | .BRG_PF_DISCARD => [⟨0, 32, .RO, .NR, 0⟩]
  | .BRG_PF_LAST => [⟨26, 6, .RO, .NR, 0⟩, ⟨0, 26, .RO, .NR, 0⟩]
  | .BRG_IN_BUSY => [⟨0, 32, .RO, .NR, 0⟩]
  | .BRG_IN_BAD => [⟨0, 32, .RO, .NR, 0⟩]
  | .BRG_IN_LATE => [⟨0, 32, .RO, .NR, 0⟩]
  | .BRG_IN_NOINIT => [⟨0, 32, .RO, .NR, 0⟩]
  | .BRG_ERR_CAUSE _ => [⟨31, 1, .W1C, .NR, 0⟩, ⟨27, 4, .RO, .NR, 0⟩, ⟨21, 6, .RO, .NR, 0⟩, ⟨15, 6, .RO, .NR, 0⟩]
  | .BRG_ERR_ADDR _ => [⟨0, 32, .RO, .NR, 0⟩]
  | .BRG_ERR_SEQ _ => [⟨16, 16, .RO, .NR, 0⟩, ⟨0, 16, .RO, .NR, 0⟩]
  | .BRG_WIN_CTRL _ => [⟨31, 1, .RW, .NR, 0⟩, ⟨30, 1, .RW, .NR, 0⟩, ⟨29, 1, .RW, .NR, 0⟩, ⟨28, 1, .RW, .NR, 0⟩, ⟨27, 1, .W1C, .NR, 0⟩, ⟨0, 7, .RW, .NR, 0⟩]
  | .BRG_WIN_TARGET _ => [⟨16, 16, .RW, .NR, 0⟩, ⟨0, 6, .RW, .NR, 0⟩]
  | .BRG_WIN_NODE_LO _ => [⟨0, 32, .RW, .NR, 0⟩]
  | .BRG_WIN_NODE_HI _ => [⟨0, 16, .RW, .NR, 0⟩]
  | .BRG_WIN_SEQ _ => [⟨0, 16, .RO, .NR, 0⟩]
  | .BRG_WIN_FENCE_DROPS _ => [⟨0, 32, .RO, .NR, 0⟩]
  | .BRG_WIN_REFUSED _ => [⟨0, 32, .RO, .NR, 0⟩]
  | .BRG_PD_ERR _ => [⟨0, 32, .RO, .NR, 0⟩]
  | .BRG_DS_STAT _ => [⟨31, 1, .RO, .NR, 0⟩, ⟨30, 1, .RO, .NR, 0⟩, ⟨29, 1, .RO, .NR, 0⟩, ⟨28, 1, .W1C, .NR, 0⟩]
  | .BRG_DS_SEQ _ => [⟨0, 32, .RO, .NR, 0⟩]
  | .BRG_DS_COUNT _ => [⟨0, 32, .RO, .NR, 0⟩]
  | .BRG_DS_ERR _ => [⟨24, 8, .RO, .NR, 0⟩, ⟨16, 8, .RO, .NR, 0⟩, ⟨8, 8, .RO, .NR, 0⟩, ⟨0, 8, .RO, .NR, 0⟩]
  | .CAN_CTRL _ => [⟨31, 1, .RW, .NR, 0⟩, ⟨30, 1, .RW, .NR, 0⟩, ⟨29, 1, .RW, .NR, 0⟩, ⟨28, 1, .RW, .NR, 0⟩, ⟨26, 2, .RW, .NR, 1⟩, ⟨25, 1, .RW, .NR, 0⟩, ⟨24, 1, .RW, .NR, 0⟩, ⟨16, 6, .RW, .NR, 8⟩]
  | .CAN_STATUS _ => [⟨28, 4, .RO, .NR, 0⟩, ⟨27, 1, .W1C, .NR, 0⟩, ⟨26, 1, .W1C, .NR, 0⟩, ⟨25, 1, .W1C, .NR, 0⟩, ⟨16, 8, .RO, .NR, 0⟩, ⟨0, 9, .RO, .NR, 0⟩]
  | .CAN_CMD _ => [⟨28, 4, .RO, .NR, 0⟩, ⟨8, 8, .WO, .NR, 0⟩, ⟨0, 4, .CMD, .NR, 0⟩]
  | .CAN_QUEUES _ => [⟨24, 7, .RO, .NR, 0⟩, ⟨8, 9, .RO, .NR, 0⟩, ⟨0, 8, .RO, .NR, 0⟩]
  | .CAN_NBT _ => [⟨24, 8, .RW, .NR, 1⟩, ⟨16, 8, .RW, .NR, 63⟩, ⟨8, 8, .RW, .NR, 16⟩, ⟨0, 8, .RW, .NR, 16⟩]
  | .CAN_DBT _ => [⟨24, 8, .RW, .NR, 0⟩, ⟨16, 8, .RW, .NR, 31⟩, ⟨8, 8, .RW, .NR, 8⟩, ⟨0, 8, .RW, .NR, 8⟩]
  | .CAN_XBT _ => [⟨24, 8, .RW, .NR, 0⟩, ⟨16, 8, .RW, .NR, 5⟩, ⟨8, 8, .RW, .NR, 2⟩, ⟨0, 8, .RW, .NR, 2⟩]
  | .CAN_TDC _ => [⟨8, 8, .RW, .NR, 0⟩, ⟨0, 8, .RW, .NR, 0⟩]
  | .CAN_SNAP _ => [⟨18, 9, .RO, .NR, 0⟩, ⟨9, 9, .RO, .NR, 0⟩, ⟨0, 9, .RO, .NR, 0⟩]
  | .CAN_CLASH _ => [⟨31, 1, .W1C, .NR, 0⟩, ⟨30, 1, .RO, .NR, 0⟩, ⟨0, 29, .RO, .NR, 0⟩]
  | .CAN_CNT _ _ => [⟨0, 32, .RO, .NR, 0⟩]
  | .CAN_FLT_ID _ _ => [⟨31, 1, .RW, .NR, 0⟩, ⟨30, 1, .RW, .NR, 0⟩, ⟨0, 29, .RW, .NR, 0⟩]
  | .CAN_FLT_MASK _ _ => [⟨30, 2, .RW, .NR, 0⟩, ⟨0, 29, .RW, .NR, 0⟩]
  | .MVB_CTRL _ => [⟨31, 1, .RW, .NR, 0⟩, ⟨30, 1, .RW, .NR, 0⟩, ⟨29, 1, .RW, .NR, 1⟩, ⟨28, 1, .RW, .NR, 1⟩, ⟨0, 12, .RW, .NR, 0⟩]
  | .MVB_ADMIN _ => [⟨1, 4, .RW, .NR, 10⟩, ⟨0, 1, .RW, .NR, 0⟩]
  | .MVB_STATUS _ => [⟨28, 4, .RO, .NR, 0⟩, ⟨27, 1, .W1C, .NR, 0⟩, ⟨26, 1, .RO, .NR, 0⟩, ⟨25, 1, .RO, .NR, 0⟩, ⟨24, 1, .RO, .NR, 0⟩]
  | .MVB_QUEUES _ => [⟨8, 9, .RO, .NR, 0⟩, ⟨0, 8, .RO, .NR, 0⟩]
  | .MVB_SNAP _ => [⟨18, 9, .RO, .NR, 0⟩, ⟨9, 9, .RO, .NR, 0⟩, ⟨0, 9, .RO, .NR, 0⟩]
  | .MVB_CNT _ _ => [⟨0, 32, .RO, .NR, 0⟩]
  | .MVB_PORT _ _ => [⟨31, 1, .RW, .NR, 0⟩, ⟨29, 2, .RW, .NR, 0⟩, ⟨28, 1, .RW, .NR, 0⟩, ⟨24, 4, .RW, .NR, 0⟩, ⟨16, 4, .RW, .NR, 0⟩, ⟨0, 12, .RW, .NR, 0⟩]
  | .HST_IRQ_PEND _ => [⟨0, 32, .RO, .NR, 0⟩]
  | .HST_IRQ_SRC _ => [⟨31, 1, .RW, .NR, 0⟩, ⟨0, 6, .RW, .NR, 0⟩]
  | .HST_SNAP_TX _ => [⟨16, 13, .RO, .NR, 0⟩, ⟨0, 13, .RO, .NR, 0⟩]
  | .HST_SNAP_RX _ => [⟨16, 13, .RO, .NR, 0⟩, ⟨0, 13, .RO, .NR, 0⟩]
  | .HST_TXBASE_LO _ => [⟨12, 20, .RW, .NR, 0⟩, ⟨0, 12, .RO, .NR, 0⟩]
  | .HST_TXBASE_HI _ => [⟨0, 32, .RW, .NR, 0⟩]
  | .HST_TXCTRL _ => [⟨31, 1, .RW, .NR, 0⟩, ⟨30, 1, .RO, .NR, 0⟩, ⟨0, 4, .RW, .NR, 0⟩]
  | .HST_TXTAIL _ => [⟨0, 12, .RW, .NR, 0⟩]
  | .HST_TXHEAD _ => [⟨0, 12, .RO, .NR, 0⟩]
  | .HST_RXBASE_LO _ => [⟨12, 20, .RW, .NR, 0⟩, ⟨0, 12, .RO, .NR, 0⟩]
  | .HST_RXBASE_HI _ => [⟨0, 32, .RW, .NR, 0⟩]
  | .HST_RXCTRL _ => [⟨31, 1, .RW, .NR, 0⟩, ⟨30, 1, .RW, .NR, 0⟩, ⟨0, 4, .RW, .NR, 0⟩]
  | .HST_RXTAIL _ => [⟨0, 12, .RW, .NR, 0⟩]
  | .HST_RXHEAD _ => [⟨0, 12, .RO, .NR, 0⟩]
  | .SC_CTRL _ => [⟨2, 1, .WO, .NR, 0⟩, ⟨1, 1, .RW, .NR, 0⟩, ⟨0, 1, .RW, .NR, 0⟩]
  | .SC_STATUS _ => [⟨28, 4, .RO, .NR, 0⟩, ⟨22, 6, .RO, .NR, 0⟩, ⟨16, 5, .RO, .NR, 31⟩, ⟨0, 16, .RO, .NR, 0⟩]
  | .SC_EXC _ => [⟨31, 1, .W1C, .NR, 0⟩, ⟨27, 4, .RO, .NR, 0⟩, ⟨21, 6, .RO, .NR, 0⟩, ⟨0, 16, .RO, .NR, 0⟩]
  | .SC_ABORTS _ => [⟨0, 32, .RO, .NR, 0⟩]
  | .SC_OVERRUN _ _ => [⟨0, 32, .W1C, .NR, 0⟩]
  | .SC_PEAK _ => [⟨26, 6, .RO, .NR, 0⟩, ⟨0, 20, .RO, .NR, 0⟩]
  | .SC_DOORBELL _ => [⟨0, 1, .WO, .NR, 0⟩]
  | .SC_DROPS _ => [⟨16, 16, .RO, .NR, 0⟩, ⟨0, 16, .RO, .NR, 0⟩]
  | .SC_TIMERMISS _ => [⟨0, 32, .RO, .NR, 0⟩]

/-- A family of one register at `base`. -/
def fam0 (a base : Nat) (mk : Reg) (next : Option Reg) : Option Reg :=
  if a = base then some mk else next

/-- A family of `n` registers at `base + s i`. -/
def fam1 (a base n s : Nat) (mk : Nat → Reg) (next : Option Reg) : Option Reg :=
  if base ≤ a ∧ (a - base) % s = 0 ∧ (a - base) / s < n then some (mk ((a - base) / s)) else next

/-- A family of `n` times `m` registers at `base + s i + t j`. -/
def fam2 (a base n s m t : Nat) (mk : Nat → Nat → Reg) (next : Option Reg) : Option Reg :=
  if base ≤ a ∧ (a - base) % s % t = 0 ∧ (a - base) % s / t < m ∧ (a - base) / s < n then
    some (mk ((a - base) / s) ((a - base) % s / t)) else next

/-- The registers of the protection regions by address. -/
def regRegion (a : Nat) : Option Reg :=
  fam1 a 0x10000100 32 0x10 .PRO_REGION_BASE <|
  fam1 a 0x10000104 32 0x10 .PRO_REGION_LIMIT <|
  fam1 a 0x10000108 32 0x10 .PRO_REGION_RIGHTS <|
  none

/-- Registers of unit PRO by address. -/
def regPRO (a : Nat) : Option Reg :=
  fam0 a 0x10000000 .PRO_CTRL <|
  fam0 a 0x10000004 .PRO_VIOL <|
  fam0 a 0x10000008 .PRO_VIOL_ADDR <|
  fam0 a 0x1000000C .PRO_VIOL_COUNT <|
  fam1 a 0x10000200 4 0x8 .PRO_RMGR_LO <|
  fam1 a 0x10000204 4 0x8 .PRO_RMGR_HI <|
  regRegion a

/-- Registers of unit MGT by address. -/
def regMGT (a : Nat) : Option Reg :=
  fam0 a 0x10010000 .MGT_STATE <|
  fam0 a 0x10010004 .MGT_BOOTINFO <|
  fam0 a 0x10010010 .MGT_OWNER <|
  fam0 a 0x10010014 .MGT_OWNER_NODE <|
  fam0 a 0x10010018 .MGT_OWN_PEND <|
  fam0 a 0x1001001C .MGT_OWN_PEND_NODE <|
  fam0 a 0x10010020 .MGT_OWN_CMD <|
  fam0 a 0x10010024 .MGT_OWN_LOG <|
  fam0 a 0x10010028 .MGT_OWN_LOG_ADDR <|
  fam0 a 0x1001002C .MGT_OWN_REFUSALS <|
  fam0 a 0x10010040 .MGT_CMD <|
  fam0 a 0x10010044 .MGT_REJECT <|
  fam0 a 0x10010048 .MGT_REJECT_ADDR <|
  fam0 a 0x1001004C .MGT_REJECT_COUNT <|
  fam0 a 0x10010050 .MGT_FAULT <|
  fam0 a 0x10010060 .MGT_FLOG_STATUS <|
  fam0 a 0x10010064 .MGT_FLOG_SEQ <|
  fam0 a 0x10010068 .MGT_FLOG_SEL <|
  fam1 a 0x10010070 8 0x4 .MGT_FLOG_DATA <|
  none

/-- Registers of unit HLT by address. -/
def regHLT (a : Nat) : Option Reg :=
  fam0 a 0x10020000 .HLT_REPORT <|
  fam0 a 0x10020004 .HLT_SPARES <|
  fam0 a 0x10020008 .HLT_RETIRED <|
  fam0 a 0x1002000C .HLT_ENG_MOVES <|
  fam1 a 0x10020040 16 0x4 .HLT_SLOT <|
  fam1 a 0x10020100 32 0x4 .HLT_PVIOL <|
  none

/-- Registers of unit PAIR by address. -/
def regPAIR (a : Nat) : Option Reg :=
  fam0 a 0x10030000 .PAIR_CTRL <|
  fam0 a 0x10030004 .PAIR_STATUS <|
  fam0 a 0x10030008 .PAIR_CMD <|
  fam0 a 0x1003000C .PAIR_CKPT_CFG <|
  fam0 a 0x10030010 .PAIR_CKPT_SEQ <|
  fam0 a 0x10030014 .PAIR_CKPT_INFO <|
  fam1 a 0x10030020 2 0x8 .PAIR_HB_RX <|
  fam1 a 0x10030024 2 0x8 .PAIR_HB_MISS <|
  fam0 a 0x10030030 .PAIR_PARTNER_HEALTH <|
  fam0 a 0x10030034 .PAIR_PARTNER_NODE_LO <|
  fam0 a 0x10030038 .PAIR_PARTNER_NODE_HI <|
  fam1 a 0x10030040 16 0x4 .PAIR_CKPT_SIG <|
  fam0 a 0x10030080 .PAIR_DRILL <|
  fam0 a 0x10030084 .PAIR_DRILL_AGE <|
  fam0 a 0x10030088 .PAIR_DRILL_RESULT <|
  fam0 a 0x10030090 .PAIR_GAP <|
  fam1 a 0x100300A0 2 0x10 .PAIR_SNAP_HB_RX <|
  fam1 a 0x100300A4 2 0x10 .PAIR_SNAP_HB_MISS <|
  fam1 a 0x100300A8 2 0x10 .PAIR_SNAP_HB_FIRST <|
  fam1 a 0x100300AC 2 0x10 .PAIR_SNAP_HB_HIGH <|
  none

/-- Registers of unit UPD by address. -/
def regUPD (a : Nat) : Option Reg :=
  fam0 a 0x10040000 .UPD_CTRL <|
  fam0 a 0x10040004 .UPD_STATUS <|
  fam0 a 0x10040008 .UPD_CMD <|
  fam0 a 0x1004000C .UPD_ARG <|
  fam0 a 0x10040010 .UPD_ARG_CRC <|
  fam0 a 0x10040014 .UPD_XFER <|
  fam0 a 0x10040018 .UPD_XFER_ID_LO <|
  fam0 a 0x1004001C .UPD_XFER_ID_HI <|
  fam0 a 0x10040020 .UPD_MAIN_ID_LO <|
  fam0 a 0x10040024 .UPD_MAIN_ID_HI <|
  fam0 a 0x10040028 .UPD_FB_ID_LO <|
  fam0 a 0x1004002C .UPD_FB_ID_HI <|
  fam0 a 0x10040030 .UPD_FORMATS <|
  fam0 a 0x10040034 .UPD_SPEED_SRC <|
  fam0 a 0x10040038 .UPD_BATT <|
  fam0 a 0x1004003C .UPD_RELAY_STAT <|
  fam0 a 0x10040040 .UPD_EB_SEL <|
  fam0 a 0x10040044 .UPD_EB_INFO <|
  fam0 a 0x10040048 .UPD_SNAP_FLASH <|
  fam1 a 0x10040080 4 0x8 .UPD_KEYFP_LO <|
  fam1 a 0x10040084 4 0x8 .UPD_KEYFP_HI <|
  none

/-- Registers of unit PWR by address. -/
def regPWR (a : Nat) : Option Reg :=
  fam0 a 0x10050000 .PWR_STATUS <|
  fam0 a 0x10050004 .PWR_PRIMARY <|
  fam0 a 0x10050008 .PWR_BATTERY <|
  fam0 a 0x1005000C .PWR_EVENTS <|
  fam0 a 0x10050010 .PWR_DISCRETE <|
  fam0 a 0x10050014 .PWR_TEMP <|
  fam0 a 0x10050018 .PWR_ISLANDS <|
  none

/-- Registers of unit TIM by address. -/
def regTIM (a : Nat) : Option Reg :=
  fam0 a 0x10100000 .TIM_CTRL <|
  fam0 a 0x10100004 .TIM_STATUS <|
  fam0 a 0x10100010 .TIM_NOW_SLO <|
  fam0 a 0x10100014 .TIM_NOW_SHI <|
  fam0 a 0x10100018 .TIM_NOW_NS <|
  fam0 a 0x1010001C .TIM_NOW_FRAC <|
  fam0 a 0x10100020 .TIM_OFFSET <|
  fam0 a 0x10100024 .TIM_FREQ <|
  fam0 a 0x10100028 .TIM_SERVO <|
  fam0 a 0x1010002C .TIM_STEP_THRESH <|
  fam0 a 0x10100030 .TIM_REFUSED_SLO <|
  fam0 a 0x10100034 .TIM_REFUSED_SHI <|
  fam0 a 0x10100038 .TIM_REFUSED_NS <|
  fam0 a 0x1010003C .TIM_STEP_CMD <|
  fam0 a 0x10100040 .TIM_SET_SLO <|
  fam0 a 0x10100044 .TIM_SET_SHI <|
  fam0 a 0x10100048 .TIM_SET_NS <|
  fam1 a 0x10100100 20 0x4 .TIM_LAUNCHCFG <|
  fam1 a 0x10100180 20 0x4 .TIM_PORT <|
  fam1 a 0x10100200 20 0x4 .TIM_LAUNCHERR <|
  fam1 a 0x10100280 20 0x4 .TIM_TSLOST <|
  fam1 a 0x10100300 20 0x4 .TIM_SNAP_TS <|
  fam2 a 0x10100400 20 0x40 5 0x8 .TIM_ASYM_RX <|
  fam2 a 0x10100404 20 0x40 5 0x8 .TIM_ASYM_TX <|
  fam2 a 0x10100A00 4 0x20 5 0x4 .TIM_ASYM_CPL <|
  none

/-- Registers of unit FAB by address. -/
def regFAB (a : Nat) : Option Reg :=
  fam0 a 0x10200000 .FAB_STATUS <|
  fam0 a 0x10200004 .FAB_CELLS_FREE <|
  fam0 a 0x10200008 .FAB_BANK_CE_LIMIT <|
  fam0 a 0x10200010 .FAB_FREEZE <|
  fam0 a 0x10200020 .FAB_SNAP_FREE <|
  fam0 a 0x10200024 .FAB_SNAP_ALLOC <|
  fam0 a 0x10200028 .FAB_SNAP_RETURN <|
  fam0 a 0x1020002C .FAB_SNAP_DRAIN <|
  fam0 a 0x10200030 .FAB_SNAP_ENGINE <|
  fam0 a 0x10200034 .FAB_SNAP_HOST <|
  fam1 a 0x10200040 6 0x4 .FAB_SNAP_CREDIT <|
  fam1 a 0x10200100 20 0x4 .FAB_SNAP_LAUNCH <|
  fam1 a 0x10200200 16 0x4 .FAB_DISC <|
  fam1 a 0x10200300 26 0x4 .FAB_BANK <|
  none

/-- Registers of unit PRT by address. -/
def regPRT (a : Nat) : Option Reg :=
  fam1 a 0x10300000 23 0x1000 .PRT_CTRL <|
  fam1 a 0x10300004 23 0x1000 .PRT_STATUS <|
  fam1 a 0x10300008 23 0x1000 .PRT_FLOWCNT <|
  fam1 a 0x1030000C 23 0x1000 .PRT_EEE <|
  fam1 a 0x10300010 23 0x1000 .PRT_HALF_LO <|
  fam1 a 0x10300014 23 0x1000 .PRT_HALF_HI <|
  fam2 a 0x10300800 23 0x1000 64 0x8 .PRT_CNT_LO <|
  fam2 a 0x10300804 23 0x1000 64 0x8 .PRT_CNT_HI <|
  fam2 a 0x10300A00 23 0x1000 64 0x4 .PRT_DELTA <|
  fam1 a 0x10318000 16 0x40 .PRT_WAKE_CTRL <|
  fam2 a 0x10318004 16 0x40 8 0x4 .PRT_WAKE_MASK <|
  fam1 a 0x10318024 16 0x40 .PRT_WAKE_CHECK <|
  fam0 a 0x10318400 .PRT_WAKE_STATUS <|
  none

/-- Registers of unit BBL by address. -/
def regBBL (a : Nat) : Option Reg :=
  fam2 a 0x10400000 2 0x4000 2 0x1000 .BBL_MODE <|
  fam2 a 0x10400004 2 0x4000 2 0x1000 .BBL_GEARCFG <|
  fam2 a 0x10400008 2 0x4000 2 0x1000 .BBL_STATUS <|
  fam2 a 0x1040000C 2 0x4000 2 0x1000 .BBL_GEARCMD <|
  fam1 a 0x10402000 2 0x4000 .BBL_RELAY <|
  fam1 a 0x10402004 2 0x4000 .BBL_RELAY_OPS <|
  fam1 a 0x10402008 2 0x4000 .BBL_RELAY_WARN <|
  none

/-- Registers of unit SC by address. -/
def regSC (e off : Nat) : Option Reg :=
  fam0 off 0x0 (.SC_CTRL e) <|
  fam0 off 0x4 (.SC_STATUS e) <|
  fam0 off 0x8 (.SC_EXC e) <|
  fam0 off 0xC (.SC_ABORTS e) <|
  fam1 off 0x10 2 0x4 (fun j => .SC_OVERRUN e j) <|
  fam0 off 0x18 (.SC_PEAK e) <|
  fam0 off 0x1C (.SC_DOORBELL e) <|
  fam0 off 0x20 (.SC_DROPS e) <|
  fam0 off 0x24 (.SC_TIMERMISS e) <|
  none

/-- Registers of unit TOP by address. -/
def regTOP (a : Nat) : Option Reg :=
  fam0 a 0x10500028 .TOP_PC <|
  fam0 a 0x1050002C .TOP_EXC_PC <|
  fam0 a 0x10500800 .TOP_EPOCH <|
  fam0 a 0x10500804 .TOP_INAUG <|
  fam0 a 0x10500808 .TOP_COMMIT_SLO <|
  fam0 a 0x1050080C .TOP_COMMIT_SHI <|
  fam0 a 0x10500810 .TOP_COMMIT_NS <|
  fam0 a 0x10500814 .TOP_DIGEST <|
  fam0 a 0x10500818 .TOP_RENUM <|
  fam0 a 0x1050081C .TOP_GRACE <|
  fam0 a 0x10500820 .TOP_EPOCH_REFUSED <|
  fam0 a 0x10500824 .TOP_BADFRAMES <|
  fam1 a 0x10500830 4 0x4 .TOP_PORTSTAT <|
  regSC 18 (a - 0x10500000)

/-- Registers of unit BRG by address. -/
def regBRG (a : Nat) : Option Reg :=
  fam0 a 0x10600000 .BRG_CTRL <|
  fam0 a 0x10600004 .BRG_TIMEOUT <|
  fam0 a 0x10600008 .BRG_STATUS <|
  fam0 a 0x1060000C .BRG_SNAP_A <|
  fam0 a 0x10600010 .BRG_ERRLOG <|
  fam0 a 0x10600018 .BRG_SNAP_B <|
  fam0 a 0x10600020 .BRG_LOCK_CTRL <|
  fam0 a 0x10600024 .BRG_LOCK_OFFSET <|
  fam0 a 0x10600028 .BRG_LOCK_WDATA <|
  fam0 a 0x1060002C .BRG_LOCK_RDATA <|
  fam1 a 0x10600040 3 0x4 .BRG_RDSTAT <|
  fam0 a 0x10600050 .BRG_PF_DISCARD <|
  fam0 a 0x10600054 .BRG_PF_LAST <|
  fam0 a 0x10600060 .BRG_IN_BUSY <|
  fam0 a 0x10600064 .BRG_IN_BAD <|
  fam0 a 0x10600068 .BRG_IN_LATE <|
  fam0 a 0x1060006C .BRG_IN_NOINIT <|
  fam1 a 0x10600100 16 0x10 .BRG_ERR_CAUSE <|
  fam1 a 0x10600104 16 0x10 .BRG_ERR_ADDR <|
  fam1 a 0x10600108 16 0x10 .BRG_ERR_SEQ <|
  fam1 a 0x10601000 64 0x20 .BRG_WIN_CTRL <|
  fam1 a 0x10601004 64 0x20 .BRG_WIN_TARGET <|
  fam1 a 0x10601008 64 0x20 .BRG_WIN_NODE_LO <|
  fam1 a 0x1060100C 64 0x20 .BRG_WIN_NODE_HI <|
  fam1 a 0x10601010 64 0x20 .BRG_WIN_SEQ <|
  fam1 a 0x10601014 64 0x20 .BRG_WIN_FENCE_DROPS <|
  fam1 a 0x10601018 64 0x20 .BRG_WIN_REFUSED <|
  fam1 a 0x10604000 5 0x4 .BRG_PD_ERR <|
  fam1 a 0x10608000 640 0x10 .BRG_DS_STAT <|
  fam1 a 0x10608004 640 0x10 .BRG_DS_SEQ <|
  fam1 a 0x10608008 640 0x10 .BRG_DS_COUNT <|
  fam1 a 0x1060800C 640 0x10 .BRG_DS_ERR <|
  none

/-- Registers of unit CAN by address. -/
def regCAN (a : Nat) : Option Reg :=
  fam1 a 0x10700000 8 0x10000 .CAN_CTRL <|
  fam1 a 0x10700004 8 0x10000 .CAN_STATUS <|
  fam1 a 0x10700008 8 0x10000 .CAN_CMD <|
  fam1 a 0x1070000C 8 0x10000 .CAN_QUEUES <|
  fam1 a 0x10700010 8 0x10000 .CAN_NBT <|
  fam1 a 0x10700014 8 0x10000 .CAN_DBT <|
  fam1 a 0x10700018 8 0x10000 .CAN_XBT <|
  fam1 a 0x1070001C 8 0x10000 .CAN_TDC <|
  fam1 a 0x10700020 8 0x10000 .CAN_SNAP <|
  fam1 a 0x10700024 8 0x10000 .CAN_CLASH <|
  fam2 a 0x10700030 8 0x10000 9 0x4 .CAN_CNT <|
  fam2 a 0x10700100 8 0x10000 32 0x8 .CAN_FLT_ID <|
  fam2 a 0x10700104 8 0x10000 32 0x8 .CAN_FLT_MASK <|
  none

/-- Registers of unit MVB by address. -/
def regMVB (a : Nat) : Option Reg :=
  fam1 a 0x10780000 2 0x10000 .MVB_CTRL <|
  fam1 a 0x10780004 2 0x10000 .MVB_ADMIN <|
  fam1 a 0x10780008 2 0x10000 .MVB_STATUS <|
  fam1 a 0x1078000C 2 0x10000 .MVB_QUEUES <|
  fam1 a 0x10780010 2 0x10000 .MVB_SNAP <|
  fam2 a 0x10780020 2 0x10000 9 0x4 .MVB_CNT <|
  fam2 a 0x10780100 2 0x10000 256 0x4 .MVB_PORT <|
  none

/-- Registers of unit HST by address. -/
def regHST (a : Nat) : Option Reg :=
  fam1 a 0x10800020 2 0x4 .HST_IRQ_PEND <|
  fam1 a 0x10800100 64 0x4 .HST_IRQ_SRC <|
  fam1 a 0x10800800 16 0x4 .HST_SNAP_TX <|
  fam1 a 0x10800840 16 0x4 .HST_SNAP_RX <|
  fam1 a 0x10801000 16 0x20 .HST_TXBASE_LO <|
  fam1 a 0x10801004 16 0x20 .HST_TXBASE_HI <|
  fam1 a 0x10801008 16 0x20 .HST_TXCTRL <|
  fam1 a 0x1080100C 16 0x20 .HST_TXTAIL <|
  fam1 a 0x10801010 16 0x20 .HST_TXHEAD <|
  fam1 a 0x10801200 16 0x20 .HST_RXBASE_LO <|
  fam1 a 0x10801204 16 0x20 .HST_RXBASE_HI <|
  fam1 a 0x10801208 16 0x20 .HST_RXCTRL <|
  fam1 a 0x1080120C 16 0x20 .HST_RXTAIL <|
  fam1 a 0x10801210 16 0x20 .HST_RXHEAD <|
  none

/-- The register at an Ibsum address, where the lists of 14 name one. -/
def regAt (a : Nat) : Option Reg :=
  if a < 0x10010000 then regPRO a else if a < 0x10020000 then regMGT a else
  if a < 0x10030000 then regHLT a else if a < 0x10040000 then regPAIR a else
  if a < 0x10050000 then regUPD a else if a < 0x10100000 then regPWR a else
  if a < 0x10200000 then regTIM a else if a < 0x10300000 then regFAB a else
  if a < 0x10400000 then regPRT a else if a < 0x10500000 then regBBL a else
  if a < 0x10600000 then regTOP a else if a < 0x10700000 then regBRG a else
  if a < 0x10780000 then regCAN a else if a < 0x10800000 then regMVB a else
  if a < 0x20000000 then regHST a else
  if a < 0x21200000 then regSC ((a - 0x20000000) / 0x100000) ((a - 0x20000000) % 0x100000) else none

/-- The field at bit `lo` of a register, as a key of the register file. -/
def Reg.fld (r : Reg) (f : FieldInfo) : Fld := ⟨32 * r.addr + f.lo, f.w, f.rst⟩

/-- What the map says of a register-file key: its island and its field. -/
def keyInfo (k : Nat) : Option (Island × FieldInfo) :=
  match (if 0x10001200 ≤ k / 32 ∧ k / 32 < 0x10001300 then regRegion (k / 32 - 0x1000) else regAt (k / 32)) with
  | none => none
  | some r => (r.fields.find? (fun f => f.lo == k % 32)).map (fun f => (r.island, f))

/-- `PRO.CTRL.BOOT_DONE` [0:0] WB (05 R176). -/
def F.PRO_CTRL_BOOT_DONE : Fld := ⟨32 * (0x10000000) + 0, 1, 0⟩
/-- `PRO.VIOL.VALID` [31:31] W1C (05 R176). -/
def F.PRO_VIOL_VALID : Fld := ⟨32 * (0x10000004) + 31, 1, 0⟩
/-- `PRO.VIOL.ID` [30:28] RO (05 R176). -/
def F.PRO_VIOL_ID : Fld := ⟨32 * (0x10000004) + 28, 3, 0⟩
/-- `PRO.VIOL.FARPOS` [27:22] RO (05 R176). -/
def F.PRO_VIOL_FARPOS : Fld := ⟨32 * (0x10000004) + 22, 6, 0⟩
/-- `PRO.VIOL.REGION` [21:17] RO (05 R176). -/
def F.PRO_VIOL_REGION : Fld := ⟨32 * (0x10000004) + 17, 5, 0⟩
/-- `PRO.VIOL.WB_LATE` [16:16] RO (05 R176). -/
def F.PRO_VIOL_WB_LATE : Fld := ⟨32 * (0x10000004) + 16, 1, 0⟩
/-- `PRO.VIOL.NONE` [15:15] RO (05 R176). -/
def F.PRO_VIOL_NONE : Fld := ⟨32 * (0x10000004) + 15, 1, 0⟩
/-- `PRO.VIOL.WRITE` [0:0] RO (05 R176). -/
def F.PRO_VIOL_WRITE : Fld := ⟨32 * (0x10000004) + 0, 1, 0⟩
/-- `PRO.VIOL_ADDR.ADDR` [31:0] RO (05 R176). -/
def F.PRO_VIOL_ADDR_ADDR : Fld := ⟨32 * (0x10000008) + 0, 32, 0⟩
/-- `PRO.VIOL_COUNT.COUNT` [31:0] RO (05 R176). -/
def F.PRO_VIOL_COUNT_COUNT : Fld := ⟨32 * (0x1000000C) + 0, 32, 0⟩
/-- `PRO.REGION_BASEn.ADDR` [31:12] WB (05 R176). -/
def F.PRO_REGION_BASE_ADDR (i : Nat) : Fld := ⟨32 * (regionAt i) + 12, 20, 0⟩
/-- `PRO.REGION_LIMITn.ADDR` [31:12] WB (05 R176). -/
def F.PRO_REGION_LIMIT_ADDR (i : Nat) : Fld := ⟨32 * (regionAt i + 4) + 12, 20, 0⟩
/-- `PRO.REGION_RIGHTSn.EN` [31:31] WB (05 R176). -/
def F.PRO_REGION_RIGHTS_EN (i : Nat) : Fld := ⟨32 * (regionAt i + 8) + 31, 1, 0⟩
/-- `PRO.REGION_RIGHTSn.OX` [13:13] WB (05 R176). -/
def F.PRO_REGION_RIGHTS_OX (i : Nat) : Fld := ⟨32 * (regionAt i + 8) + 13, 1, 0⟩
/-- `PRO.REGION_RIGHTSn.XO` [12:12] WB (05 R176). -/
def F.PRO_REGION_RIGHTS_XO (i : Nat) : Fld := ⟨32 * (regionAt i + 8) + 12, 1, 0⟩
/-- `PRO.REGION_RIGHTSn.SCOPE` [11:10] WB (05 R176). -/
def F.PRO_REGION_RIGHTS_SCOPE (i : Nat) : Fld := ⟨32 * (regionAt i + 8) + 10, 2, 0⟩
/-- `PRO.REGION_RIGHTSn.RW` [9:0] WB (05 R176). -/
def F.PRO_REGION_RIGHTS_RW (i : Nat) : Fld := ⟨32 * (regionAt i + 8) + 0, 10, 0⟩
/-- `PRO.RMGR_LOn.NODE_LO` [31:0] WB (05 R176). -/
def F.PRO_RMGR_LO_NODE_LO (i : Nat) : Fld := ⟨32 * (0x10000200 + 0x8 * i) + 0, 32, 0⟩
/-- `PRO.RMGR_HIn.EN` [31:31] WB (05 R176). -/
def F.PRO_RMGR_HI_EN (i : Nat) : Fld := ⟨32 * (0x10000204 + 0x8 * i) + 31, 1, 0⟩
/-- `PRO.RMGR_HIn.NODE_HI` [15:0] WB (05 R176). -/
def F.PRO_RMGR_HI_NODE_HI (i : Nat) : Fld := ⟨32 * (0x10000204 + 0x8 * i) + 0, 16, 0⟩
/-- `MGT.STATE.SLOT` [11:11] RO (05 R182). -/
def F.MGT_STATE_SLOT : Fld := ⟨32 * (0x10010000) + 11, 1, 0⟩
/-- `MGT.STATE.BOOT_DONE` [8:8] RO (05 R182). -/
def F.MGT_STATE_BOOT_DONE : Fld := ⟨32 * (0x10010000) + 8, 1, 0⟩
/-- `MGT.STATE.STATE` [7:4] RO (05 R182). -/
def F.MGT_STATE_STATE : Fld := ⟨32 * (0x10010000) + 4, 4, 1⟩
/-- `MGT.STATE.LEVEL` [1:0] RO (05 R182). -/
def F.MGT_STATE_LEVEL : Fld := ⟨32 * (0x10010000) + 0, 2, 0⟩
/-- `MGT.BOOTINFO.MAIN` [23:16] RO (05 R182). -/
def F.MGT_BOOTINFO_MAIN : Fld := ⟨32 * (0x10010004) + 16, 8, 0⟩
/-- `MGT.BOOTINFO.FALLBACK` [15:8] RO (05 R182). -/
def F.MGT_BOOTINFO_FALLBACK : Fld := ⟨32 * (0x10010004) + 8, 8, 0⟩
/-- `MGT.BOOTINFO.CAUSE` [7:4] RO (05 R182). -/
def F.MGT_BOOTINFO_CAUSE : Fld := ⟨32 * (0x10010004) + 4, 4, 0⟩
/-- `MGT.BOOTINFO.STEP` [3:0] RO (05 R182). -/
def F.MGT_BOOTINFO_STEP : Fld := ⟨32 * (0x10010004) + 0, 4, 0⟩
/-- `MGT.OWNER.VALID` [31:31] RO (05 R182). -/
def F.MGT_OWNER_VALID : Fld := ⟨32 * (0x10010010) + 31, 1, 1⟩
/-- `MGT.OWNER.LEASE` [30:20] RO (05 R182). -/
def F.MGT_OWNER_LEASE : Fld := ⟨32 * (0x10010010) + 20, 11, 0⟩
/-- `MGT.OWNER.ID` [18:16] RO (05 R182). -/
def F.MGT_OWNER_ID : Fld := ⟨32 * (0x10010010) + 16, 3, 0⟩
/-- `MGT.OWNER.NODE_HI` [15:0] RO (05 R182). -/
def F.MGT_OWNER_NODE_HI : Fld := ⟨32 * (0x10010010) + 0, 16, 0⟩
/-- `MGT.OWNER_NODE.NODE_LO` [31:0] RO (05 R182). -/
def F.MGT_OWNER_NODE_NODE_LO : Fld := ⟨32 * (0x10010014) + 0, 32, 0⟩
/-- `MGT.OWN_PEND.VALID` [31:31] RO (05 R182). -/
def F.MGT_OWN_PEND_VALID : Fld := ⟨32 * (0x10010018) + 31, 1, 0⟩
/-- `MGT.OWN_PEND.ID` [18:16] RO (05 R182). -/
def F.MGT_OWN_PEND_ID : Fld := ⟨32 * (0x10010018) + 16, 3, 0⟩
/-- `MGT.OWN_PEND.NODE_HI` [15:0] RO (05 R182). -/
def F.MGT_OWN_PEND_NODE_HI : Fld := ⟨32 * (0x10010018) + 0, 16, 0⟩
/-- `MGT.OWN_PEND_NODE.NODE_LO` [31:0] RO (05 R182). -/
def F.MGT_OWN_PEND_NODE_NODE_LO : Fld := ⟨32 * (0x1001001C) + 0, 32, 0⟩
/-- `MGT.OWN_CMD.RESULT` [31:28] RO (05 R182). -/
def F.MGT_OWN_CMD_RESULT : Fld := ⟨32 * (0x10010020) + 28, 4, 0⟩
/-- `MGT.OWN_CMD.CODE` [3:0] CMD (05 R182). -/
def F.MGT_OWN_CMD_CODE : Fld := ⟨32 * (0x10010020) + 0, 4, 0⟩
/-- `MGT.OWN_LOG.VALID` [31:31] W1C (05 R182). -/
def F.MGT_OWN_LOG_VALID : Fld := ⟨32 * (0x10010024) + 31, 1, 0⟩
/-- `MGT.OWN_LOG.ID` [30:28] RO (05 R182). -/
def F.MGT_OWN_LOG_ID : Fld := ⟨32 * (0x10010024) + 28, 3, 0⟩
/-- `MGT.OWN_LOG_ADDR.ADDR` [31:0] RO (05 R182). -/
def F.MGT_OWN_LOG_ADDR_ADDR : Fld := ⟨32 * (0x10010028) + 0, 32, 0⟩
/-- `MGT.OWN_REFUSALS.COUNT` [31:0] RO (05 R182). -/
def F.MGT_OWN_REFUSALS_COUNT : Fld := ⟨32 * (0x1001002C) + 0, 32, 0⟩
/-- `MGT.CMD.RESULT` [31:28] RO (13 R481). -/
def F.MGT_CMD_RESULT : Fld := ⟨32 * (0x10010040) + 28, 4, 0⟩
/-- `MGT.CMD.CODE` [3:0] CMD (13 R481). -/
def F.MGT_CMD_CODE : Fld := ⟨32 * (0x10010040) + 0, 4, 0⟩
/-- `MGT.REJECT.VALID` [31:31] W1C (13 R481). -/
def F.MGT_REJECT_VALID : Fld := ⟨32 * (0x10010044) + 31, 1, 0⟩
/-- `MGT.REJECT.REASON` [30:30] RO (13 R481). -/
def F.MGT_REJECT_REASON : Fld := ⟨32 * (0x10010044) + 30, 1, 0⟩
/-- `MGT.REJECT.ID` [29:27] RO (13 R481). -/
def F.MGT_REJECT_ID : Fld := ⟨32 * (0x10010044) + 27, 3, 0⟩
/-- `MGT.REJECT.STATE` [26:23] RO (13 R481). -/
def F.MGT_REJECT_STATE : Fld := ⟨32 * (0x10010044) + 23, 4, 0⟩
/-- `MGT.REJECT.CODE` [3:0] RO (13 R481). -/
def F.MGT_REJECT_CODE : Fld := ⟨32 * (0x10010044) + 0, 4, 0⟩
/-- `MGT.REJECT_ADDR.ADDR` [31:0] RO (13 R481). -/
def F.MGT_REJECT_ADDR_ADDR : Fld := ⟨32 * (0x10010048) + 0, 32, 0⟩
/-- `MGT.REJECT_COUNT.COUNT` [31:0] RO (13 R481). -/
def F.MGT_REJECT_COUNT_COUNT : Fld := ⟨32 * (0x1001004C) + 0, 32, 0⟩
/-- `MGT.FAULT.SOURCE` [15:0] W1C (13 R481). -/
def F.MGT_FAULT_SOURCE : Fld := ⟨32 * (0x10010050) + 0, 16, 0⟩
/-- `MGT.FLOG_STATUS.SEL_VALID` [31:31] RO (13 R481). -/
def F.MGT_FLOG_STATUS_SEL_VALID : Fld := ⟨32 * (0x10010060) + 31, 1, 0⟩
/-- `MGT.FLOG_STATUS.STAGED` [23:16] RO (13 R481). -/
def F.MGT_FLOG_STATUS_STAGED : Fld := ⟨32 * (0x10010060) + 16, 8, 0⟩
/-- `MGT.FLOG_STATUS.STAGE_LOST` [15:0] RO (13 R481). -/
def F.MGT_FLOG_STATUS_STAGE_LOST : Fld := ⟨32 * (0x10010060) + 0, 16, 0⟩
/-- `MGT.FLOG_SEQ.SEQ` [31:0] RO (13 R481). -/
def F.MGT_FLOG_SEQ_SEQ : Fld := ⟨32 * (0x10010064) + 0, 32, 0⟩
/-- `MGT.FLOG_SEL.SEQ` [31:0] RW (13 R481). -/
def F.MGT_FLOG_SEL_SEQ : Fld := ⟨32 * (0x10010068) + 0, 32, 0⟩
/-- `MGT.FLOG_DATAn.DATA` [31:0] RO (13 R481). -/
def F.MGT_FLOG_DATA_DATA (i : Nat) : Fld := ⟨32 * (0x10010070 + 0x4 * i) + 0, 32, 0⟩
/-- `HLT.REPORT.FAIL` [31:31] RO (12 R451). -/
def F.HLT_REPORT_FAIL : Fld := ⟨32 * (0x10020000) + 31, 1, 0⟩
/-- `HLT.REPORT.MARGIN` [30:30] RO (12 R451). -/
def F.HLT_REPORT_MARGIN : Fld := ⟨32 * (0x10020000) + 30, 1, 0⟩
/-- `HLT.REPORT.BANKS` [29:29] RO (12 R451). -/
def F.HLT_REPORT_BANKS : Fld := ⟨32 * (0x10020000) + 29, 1, 0⟩
/-- `HLT.REPORT.ENGINES` [28:28] RO (12 R451). -/
def F.HLT_REPORT_ENGINES : Fld := ⟨32 * (0x10020000) + 28, 1, 0⟩
/-- `HLT.REPORT.FLASH` [27:27] RO (12 R451). -/
def F.HLT_REPORT_FLASH : Fld := ⟨32 * (0x10020000) + 27, 1, 0⟩
/-- `HLT.REPORT.POWER` [26:26] RO (12 R451). -/
def F.HLT_REPORT_POWER : Fld := ⟨32 * (0x10020000) + 26, 1, 0⟩
/-- `HLT.REPORT.RELAY` [25:25] RO (12 R451). -/
def F.HLT_REPORT_RELAY : Fld := ⟨32 * (0x10020000) + 25, 1, 0⟩
/-- `HLT.REPORT.PATH` [24:24] RO (12 R451). -/
def F.HLT_REPORT_PATH : Fld := ⟨32 * (0x10020000) + 24, 1, 0⟩
/-- `HLT.REPORT.CKPT` [23:23] RO (12 R451). -/
def F.HLT_REPORT_CKPT : Fld := ⟨32 * (0x10020000) + 23, 1, 0⟩
/-- `HLT.REPORT.DRILL_FAIL` [22:22] RO (12 R451). -/
def F.HLT_REPORT_DRILL_FAIL : Fld := ⟨32 * (0x10020000) + 22, 1, 0⟩
/-- `HLT.REPORT.DRILL_OLD` [21:21] RO (12 R451). -/
def F.HLT_REPORT_DRILL_OLD : Fld := ⟨32 * (0x10020000) + 21, 1, 0⟩
/-- `HLT.REPORT.STEP_HELD` [20:20] RO (12 R451). -/
def F.HLT_REPORT_STEP_HELD : Fld := ⟨32 * (0x10020000) + 20, 1, 0⟩
/-- `HLT.REPORT.BOUND_BROKEN` [19:19] RO (12 R451). -/
def F.HLT_REPORT_BOUND_BROKEN : Fld := ⟨32 * (0x10020000) + 19, 1, 0⟩
/-- `HLT.SPARES.ENGINES` [31:27] RO (12 R451). -/
def F.HLT_SPARES_ENGINES : Fld := ⟨32 * (0x10020004) + 27, 5, 18⟩
/-- `HLT.SPARES.BANKS` [26:25] RO (12 R451). -/
def F.HLT_SPARES_BANKS : Fld := ⟨32 * (0x10020004) + 25, 2, 2⟩
/-- `HLT.SPARES.FLASH0` [24:16] RO (12 R451). -/
def F.HLT_SPARES_FLASH0 : Fld := ⟨32 * (0x10020004) + 16, 9, 328⟩
/-- `HLT.SPARES.FLASH1` [15:7] RO (12 R451). -/
def F.HLT_SPARES_FLASH1 : Fld := ⟨32 * (0x10020004) + 7, 9, 328⟩
/-- `HLT.RETIRED.ENGINE` [17:0] RO (12 R451). -/
def F.HLT_RETIRED_ENGINE : Fld := ⟨32 * (0x10020008) + 0, 18, 0⟩
/-- `HLT.ENG_MOVES.MOVES` [31:16] RO (12 R451). -/
def F.HLT_ENG_MOVES_MOVES : Fld := ⟨32 * (0x1002000C) + 16, 16, 0⟩
/-- `HLT.ENG_MOVES.UNBOUND` [15:0] RO (12 R451). -/
def F.HLT_ENG_MOVES_UNBOUND : Fld := ⟨32 * (0x1002000C) + 0, 16, 0⟩
/-- `HLT.SLOTn.USED` [31:31] RO (12 R451). -/
def F.HLT_SLOT_USED (i : Nat) : Fld := ⟨32 * (0x10020040 + 0x4 * i) + 31, 1, 0⟩
/-- `HLT.SLOTn.ENGINE` [4:0] RO (12 R451). -/
def F.HLT_SLOT_ENGINE (i : Nat) : Fld := ⟨32 * (0x10020040 + 0x4 * i) + 0, 5, 31⟩
/-- `HLT.PVIOLn.COUNT` [31:0] RO (13 R483). -/
def F.HLT_PVIOL_COUNT (i : Nat) : Fld := ⟨32 * (0x10020100 + 0x4 * i) + 0, 32, 0⟩
/-- `PAIR.CTRL.TN7` [31:31] RW (12 R450). -/
def F.PAIR_CTRL_TN7 : Fld := ⟨32 * (0x10030000) + 31, 1, 0⟩
/-- `PAIR.CTRL.HB_CON_EN` [30:30] RW (12 R450). -/
def F.PAIR_CTRL_HB_CON_EN : Fld := ⟨32 * (0x10030000) + 30, 1, 1⟩
/-- `PAIR.CTRL.HB_PORT` [20:16] RW (12 R450). -/
def F.PAIR_CTRL_HB_PORT : Fld := ⟨32 * (0x10030000) + 16, 5, 4⟩
/-- `PAIR.CTRL.FAIL_LEVEL` [1:0] RW (12 R450). -/
def F.PAIR_CTRL_FAIL_LEVEL : Fld := ⟨32 * (0x10030000) + 0, 2, 2⟩
/-- `PAIR.STATUS.POS` [31:30] RO (12 R450). -/
def F.PAIR_STATUS_POS : Fld := ⟨32 * (0x10030004) + 30, 2, 0⟩
/-- `PAIR.STATUS.CLAIM_HELD` [29:29] RO (12 R450). -/
def F.PAIR_STATUS_CLAIM_HELD : Fld := ⟨32 * (0x10030004) + 29, 1, 0⟩
/-- `PAIR.STATUS.PARTNER_CLAIM` [28:28] RO (12 R450). -/
def F.PAIR_STATUS_PARTNER_CLAIM : Fld := ⟨32 * (0x10030004) + 28, 1, 0⟩
/-- `PAIR.STATUS.CIC_OK` [27:27] RO (12 R450). -/
def F.PAIR_STATUS_CIC_OK : Fld := ⟨32 * (0x10030004) + 27, 1, 0⟩
/-- `PAIR.STATUS.CON_OK` [26:26] RO (12 R450). -/
def F.PAIR_STATUS_CON_OK : Fld := ⟨32 * (0x10030004) + 26, 1, 0⟩
/-- `PAIR.STATUS.DECLARED` [25:25] W1C (12 R450). -/
def F.PAIR_STATUS_DECLARED : Fld := ⟨32 * (0x10030004) + 25, 1, 0⟩
/-- `PAIR.STATUS.BLOCKED` [24:24] W1C (12 R450). -/
def F.PAIR_STATUS_BLOCKED : Fld := ⟨32 * (0x10030004) + 24, 1, 0⟩
/-- `PAIR.STATUS.CKPT_REJECTED` [23:23] W1C (12 R450). -/
def F.PAIR_STATUS_CKPT_REJECTED : Fld := ⟨32 * (0x10030004) + 23, 1, 0⟩
/-- `PAIR.STATUS.CFG_ERR` [22:22] RO (12 R450). -/
def F.PAIR_STATUS_CFG_ERR : Fld := ⟨32 * (0x10030004) + 22, 1, 0⟩
/-- `PAIR.STATUS.SLOW_LOAD` [21:21] RO (12 R450). -/
def F.PAIR_STATUS_SLOW_LOAD : Fld := ⟨32 * (0x10030004) + 21, 1, 0⟩
/-- `PAIR.STATUS.POS_CLASH` [20:20] RO (12 R450). -/
def F.PAIR_STATUS_POS_CLASH : Fld := ⟨32 * (0x10030004) + 20, 1, 0⟩
/-- `PAIR.STATUS.PARTNER_STATE` [19:16] RO (12 R450). -/
def F.PAIR_STATUS_PARTNER_STATE : Fld := ⟨32 * (0x10030004) + 16, 4, 0⟩
/-- `PAIR.STATUS.PARTNER_LEVEL` [15:14] RO (12 R450). -/
def F.PAIR_STATUS_PARTNER_LEVEL : Fld := ⟨32 * (0x10030004) + 14, 2, 0⟩
/-- `PAIR.STATUS.PARTNER_PROVEN` [13:12] RO (12 R450). -/
def F.PAIR_STATUS_PARTNER_PROVEN : Fld := ⟨32 * (0x10030004) + 12, 2, 0⟩
/-- `PAIR.STATUS.PROVEN` [11:10] RO (12 R450). -/
def F.PAIR_STATUS_PROVEN : Fld := ⟨32 * (0x10030004) + 10, 2, 0⟩
/-- `PAIR.CMD.RESULT` [31:28] RO (12 R450). -/
def F.PAIR_CMD_RESULT : Fld := ⟨32 * (0x10030008) + 28, 4, 0⟩
/-- `PAIR.CMD.CODE` [3:0] CMD (12 R450). -/
def F.PAIR_CMD_CODE : Fld := ⟨32 * (0x10030008) + 0, 4, 0⟩
/-- `PAIR.CKPT_CFG.PERIOD` [9:0] RW (12 R450). -/
def F.PAIR_CKPT_CFG_PERIOD : Fld := ⟨32 * (0x1003000C) + 0, 10, 100⟩
/-- `PAIR.CKPT_SEQ.SEQ` [31:0] RO (12 R450). -/
def F.PAIR_CKPT_SEQ_SEQ : Fld := ⟨32 * (0x10030010) + 0, 32, 0⟩
/-- `PAIR.CKPT_INFO.SKIPPED` [31:16] RO (12 R450). -/
def F.PAIR_CKPT_INFO_SKIPPED : Fld := ⟨32 * (0x10030014) + 16, 16, 0⟩
/-- `PAIR.CKPT_INFO.ABANDONED` [15:0] RO (12 R450). -/
def F.PAIR_CKPT_INFO_ABANDONED : Fld := ⟨32 * (0x10030014) + 0, 16, 0⟩
/-- `PAIR.HB_RXn.COUNT` [31:0] RO (12 R450). -/
def F.PAIR_HB_RX_COUNT (i : Nat) : Fld := ⟨32 * (0x10030020 + 0x8 * i) + 0, 32, 0⟩
/-- `PAIR.HB_MISSn.COUNT` [31:0] RO (12 R450). -/
def F.PAIR_HB_MISS_COUNT (i : Nat) : Fld := ⟨32 * (0x10030024 + 0x8 * i) + 0, 32, 0⟩
/-- `PAIR.PARTNER_HEALTH.HEALTH` [31:0] RO (12 R450). -/
def F.PAIR_PARTNER_HEALTH_HEALTH : Fld := ⟨32 * (0x10030030) + 0, 32, 0⟩
/-- `PAIR.PARTNER_NODE_LO.NODE_LO` [31:0] RO (12 R450). -/
def F.PAIR_PARTNER_NODE_LO_NODE_LO : Fld := ⟨32 * (0x10030034) + 0, 32, 0⟩
/-- `PAIR.PARTNER_NODE_HI.NODE_HI` [15:0] RO (12 R450). -/
def F.PAIR_PARTNER_NODE_HI_NODE_HI : Fld := ⟨32 * (0x10030038) + 0, 16, 0⟩
/-- `PAIR.CKPT_SIGn.COUNT` [16:0] RW (12 R450). -/
def F.PAIR_CKPT_SIG_COUNT (i : Nat) : Fld := ⟨32 * (0x10030040 + 0x4 * i) + 0, 17, 0⟩
/-- `PAIR.DRILL.RUNNING` [31:31] RO (12 R450). -/
def F.PAIR_DRILL_RUNNING : Fld := ⟨32 * (0x10030080) + 31, 1, 0⟩
/-- `PAIR.DRILL.PASS` [30:30] RO (12 R450). -/
def F.PAIR_DRILL_PASS : Fld := ⟨32 * (0x10030080) + 30, 1, 0⟩
/-- `PAIR.DRILL.DEFERRED` [29:29] W1C (12 R450). -/
def F.PAIR_DRILL_DEFERRED : Fld := ⟨32 * (0x10030080) + 29, 1, 0⟩
/-- `PAIR.DRILL.PERIOD` [7:0] RW (12 R450). -/
def F.PAIR_DRILL_PERIOD : Fld := ⟨32 * (0x10030080) + 0, 8, 24⟩
/-- `PAIR.DRILL_AGE.SECONDS` [31:0] RO (12 R450). -/
def F.PAIR_DRILL_AGE_SECONDS : Fld := ⟨32 * (0x10030084) + 0, 32, 4294967295⟩
/-- `PAIR.DRILL_RESULT.FAILED` [31:0] RO (12 R450). -/
def F.PAIR_DRILL_RESULT_FAILED : Fld := ⟨32 * (0x10030088) + 0, 32, 0⟩
/-- `PAIR.GAP.TAKEOVERS` [31:16] RO (12 R450). -/
def F.PAIR_GAP_TAKEOVERS : Fld := ⟨32 * (0x10030090) + 16, 16, 0⟩
/-- `PAIR.GAP.LAST` [15:0] RO (12 R450). -/
def F.PAIR_GAP_LAST : Fld := ⟨32 * (0x10030090) + 0, 16, 0⟩
/-- `PAIR.SNAP_HB_RXn.COUNT` [31:0] RO (12 R450). -/
def F.PAIR_SNAP_HB_RX_COUNT (i : Nat) : Fld := ⟨32 * (0x100300A0 + 0x10 * i) + 0, 32, 0⟩
/-- `PAIR.SNAP_HB_MISSn.COUNT` [31:0] RO (12 R450). -/
def F.PAIR_SNAP_HB_MISS_COUNT (i : Nat) : Fld := ⟨32 * (0x100300A4 + 0x10 * i) + 0, 32, 0⟩
/-- `PAIR.SNAP_HB_FIRSTn.SEQ` [31:0] RO (12 R450). -/
def F.PAIR_SNAP_HB_FIRST_SEQ (i : Nat) : Fld := ⟨32 * (0x100300A8 + 0x10 * i) + 0, 32, 0⟩
/-- `PAIR.SNAP_HB_HIGHn.SEQ` [31:0] RO (12 R450). -/
def F.PAIR_SNAP_HB_HIGH_SEQ (i : Nat) : Fld := ⟨32 * (0x100300AC + 0x10 * i) + 0, 32, 0⟩
/-- `UPD.CTRL.RELAY_EN` [31:31] RW (13 R482). -/
def F.UPD_CTRL_RELAY_EN : Fld := ⟨32 * (0x10040000) + 31, 1, 0⟩
/-- `UPD.CTRL.UPDATE_LOCK` [30:30] RW (13 R482). -/
def F.UPD_CTRL_UPDATE_LOCK : Fld := ⟨32 * (0x10040000) + 30, 1, 0⟩
/-- `UPD.CTRL.LOCK_ID` [29:27] RO (13 R482). -/
def F.UPD_CTRL_LOCK_ID : Fld := ⟨32 * (0x10040000) + 27, 3, 0⟩
/-- `UPD.CTRL.RELAY_RATE` [15:8] RW (13 R482). -/
def F.UPD_CTRL_RELAY_RATE : Fld := ⟨32 * (0x10040000) + 8, 8, 10⟩
/-- `UPD.STATUS.XFER` [31:28] RO (13 R482). -/
def F.UPD_STATUS_XFER : Fld := ⟨32 * (0x10040004) + 28, 4, 0⟩
/-- `UPD.STATUS.TRIAL` [27:27] RO (13 R482). -/
def F.UPD_STATUS_TRIAL : Fld := ⟨32 * (0x10040004) + 27, 1, 0⟩
/-- `UPD.STATUS.FELL_BACK` [26:26] W1C (13 R482). -/
def F.UPD_STATUS_FELL_BACK : Fld := ⟨32 * (0x10040004) + 26, 1, 0⟩
/-- `UPD.STATUS.FB_CAUSE` [25:24] RO (13 R482). -/
def F.UPD_STATUS_FB_CAUSE : Fld := ⟨32 * (0x10040004) + 24, 2, 0⟩
/-- `UPD.STATUS.CONFIRMING` [23:23] RO (13 R482). -/
def F.UPD_STATUS_CONFIRMING : Fld := ⟨32 * (0x10040004) + 23, 1, 0⟩
/-- `UPD.STATUS.MIRROR_DEGRADED` [22:22] RO (13 R482). -/
def F.UPD_STATUS_MIRROR_DEGRADED : Fld := ⟨32 * (0x10040004) + 22, 1, 0⟩
/-- `UPD.STATUS.TRIAL_RESTARTS` [21:20] RO (13 R482). -/
def F.UPD_STATUS_TRIAL_RESTARTS : Fld := ⟨32 * (0x10040004) + 20, 2, 0⟩
/-- `UPD.CMD.RESULT` [31:28] RO (13 R482). -/
def F.UPD_CMD_RESULT : Fld := ⟨32 * (0x10040008) + 28, 4, 0⟩
/-- `UPD.CMD.CODE` [3:0] CMD (13 R482). -/
def F.UPD_CMD_CODE : Fld := ⟨32 * (0x10040008) + 0, 4, 0⟩
/-- `UPD.ARG.BLOCK` [15:0] RW (13 R482). -/
def F.UPD_ARG_BLOCK : Fld := ⟨32 * (0x1004000C) + 0, 16, 0⟩
/-- `UPD.ARG_CRC.CRC` [31:0] RW (13 R482). -/
def F.UPD_ARG_CRC_CRC : Fld := ⟨32 * (0x10040010) + 0, 32, 0⟩
/-- `UPD.XFER.HELD` [31:16] RO (13 R482). -/
def F.UPD_XFER_HELD : Fld := ⟨32 * (0x10040014) + 16, 16, 0⟩
/-- `UPD.XFER.TOTAL` [15:0] RO (13 R482). -/
def F.UPD_XFER_TOTAL : Fld := ⟨32 * (0x10040014) + 0, 16, 0⟩
/-- `UPD.XFER_ID_LO.ID` [31:0] RO (13 R482). -/
def F.UPD_XFER_ID_LO_ID : Fld := ⟨32 * (0x10040018) + 0, 32, 0⟩
/-- `UPD.XFER_ID_HI.ID` [31:0] RO (13 R482). -/
def F.UPD_XFER_ID_HI_ID : Fld := ⟨32 * (0x1004001C) + 0, 32, 0⟩
/-- `UPD.MAIN_ID_LO.ID` [31:0] RO (13 R482). -/
def F.UPD_MAIN_ID_LO_ID : Fld := ⟨32 * (0x10040020) + 0, 32, 0⟩
/-- `UPD.MAIN_ID_HI.ID` [31:0] RO (13 R482). -/
def F.UPD_MAIN_ID_HI_ID : Fld := ⟨32 * (0x10040024) + 0, 32, 0⟩
/-- `UPD.FB_ID_LO.ID` [31:0] RO (13 R482). -/
def F.UPD_FB_ID_LO_ID : Fld := ⟨32 * (0x10040028) + 0, 32, 0⟩
/-- `UPD.FB_ID_HI.ID` [31:0] RO (13 R482). -/
def F.UPD_FB_ID_HI_ID : Fld := ⟨32 * (0x1004002C) + 0, 32, 0⟩
/-- `UPD.FORMATS.BOOTED` [31:16] RO (13 R482). -/
def F.UPD_FORMATS_BOOTED : Fld := ⟨32 * (0x10040030) + 16, 16, 0⟩
/-- `UPD.FORMATS.XFER` [15:0] RO (13 R482). -/
def F.UPD_FORMATS_XFER : Fld := ⟨32 * (0x10040030) + 0, 16, 0⟩
/-- `UPD.SPEED_SRC.EN` [31:31] RW (13 R482). -/
def F.UPD_SPEED_SRC_EN : Fld := ⟨32 * (0x10040034) + 31, 1, 0⟩
/-- `UPD.SPEED_SRC.SLOT` [27:24] RW (13 R482). -/
def F.UPD_SPEED_SRC_SLOT : Fld := ⟨32 * (0x10040034) + 24, 4, 0⟩
/-- `UPD.SPEED_SRC.SIGNAL` [13:0] RW (13 R482). -/
def F.UPD_SPEED_SRC_SIGNAL : Fld := ⟨32 * (0x10040034) + 0, 14, 0⟩
/-- `UPD.BATT.THRESH` [15:0] RW (13 R482). -/
def F.UPD_BATT_THRESH : Fld := ⟨32 * (0x10040038) + 0, 16, 0⟩
/-- `UPD.RELAY_STAT.BLOCKS` [31:16] RO (13 R482). -/
def F.UPD_RELAY_STAT_BLOCKS : Fld := ⟨32 * (0x1004003C) + 16, 16, 0⟩
/-- `UPD.RELAY_STAT.NAKS` [15:8] RO (13 R482). -/
def F.UPD_RELAY_STAT_NAKS : Fld := ⟨32 * (0x1004003C) + 8, 8, 0⟩
/-- `UPD.RELAY_STAT.ABANDONED` [7:0] RO (13 R482). -/
def F.UPD_RELAY_STAT_ABANDONED : Fld := ⟨32 * (0x1004003C) + 0, 8, 0⟩
/-- `UPD.EB_SEL.DEV` [31:31] RW (13 R482). -/
def F.UPD_EB_SEL_DEV : Fld := ⟨32 * (0x10040040) + 31, 1, 0⟩
/-- `UPD.EB_SEL.STATE` [30:29] RO (13 R482). -/
def F.UPD_EB_SEL_STATE : Fld := ⟨32 * (0x10040040) + 29, 2, 0⟩
/-- `UPD.EB_SEL.BLOCK` [11:0] RW (13 R482). -/
def F.UPD_EB_SEL_BLOCK : Fld := ⟨32 * (0x10040040) + 0, 12, 0⟩
/-- `UPD.EB_INFO.DONE` [31:16] RO (13 R482). -/
def F.UPD_EB_INFO_DONE : Fld := ⟨32 * (0x10040044) + 16, 16, 0⟩
/-- `UPD.EB_INFO.LEFT` [15:0] RO (13 R482). -/
def F.UPD_EB_INFO_LEFT : Fld := ⟨32 * (0x10040044) + 0, 16, 60000⟩
/-- `UPD.SNAP_FLASH.SPARE0` [24:16] RO (13 R482). -/
def F.UPD_SNAP_FLASH_SPARE0 : Fld := ⟨32 * (0x10040048) + 16, 9, 0⟩
/-- `UPD.SNAP_FLASH.SPARE1` [8:0] RO (13 R482). -/
def F.UPD_SNAP_FLASH_SPARE1 : Fld := ⟨32 * (0x10040048) + 0, 9, 0⟩
/-- `UPD.KEYFP_LOn.FP` [31:0] RO (13 R482). -/
def F.UPD_KEYFP_LO_FP (i : Nat) : Fld := ⟨32 * (0x10040080 + 0x8 * i) + 0, 32, 0⟩
/-- `UPD.KEYFP_HIn.FP` [31:0] RO (13 R482). -/
def F.UPD_KEYFP_HI_FP (i : Nat) : Fld := ⟨32 * (0x10040084 + 0x8 * i) + 0, 32, 0⟩
/-- `PWR.STATUS.PRI_OK` [31:31] RO (15 R532). -/
def F.PWR_STATUS_PRI_OK : Fld := ⟨32 * (0x10050000) + 31, 1, 0⟩
/-- `PWR.STATUS.BAT_OK` [30:30] RO (15 R532). -/
def F.PWR_STATUS_BAT_OK : Fld := ⟨32 * (0x10050000) + 30, 1, 0⟩
/-- `PWR.STATUS.SOURCE` [29:28] RO (15 R532). -/
def F.PWR_STATUS_SOURCE : Fld := ⟨32 * (0x10050000) + 28, 2, 0⟩
/-- `PWR.STATUS.PRI_AC` [27:27] RO (15 R532). -/
def F.PWR_STATUS_PRI_AC : Fld := ⟨32 * (0x10050000) + 27, 1, 0⟩
/-- `PWR.STATUS.HOLDUP` [26:26] RO (15 R532). -/
def F.PWR_STATUS_HOLDUP : Fld := ⟨32 * (0x10050000) + 26, 1, 0⟩
/-- `PWR.STATUS.STORE_OK` [25:25] RO (15 R532). -/
def F.PWR_STATUS_STORE_OK : Fld := ⟨32 * (0x10050000) + 25, 1, 0⟩
/-- `PWR.STATUS.STRAP_ERR` [24:24] RO (15 R532). -/
def F.PWR_STATUS_STRAP_ERR : Fld := ⟨32 * (0x10050000) + 24, 1, 0⟩
/-- `PWR.STATUS.TEMP_WARN` [23:23] RO (15 R532). -/
def F.PWR_STATUS_TEMP_WARN : Fld := ⟨32 * (0x10050000) + 23, 1, 0⟩
/-- `PWR.PRIMARY.FREQ` [31:16] RO (15 R532). -/
def F.PWR_PRIMARY_FREQ : Fld := ⟨32 * (0x10050004) + 16, 16, 0⟩
/-- `PWR.PRIMARY.VOLTS` [15:0] RO (15 R532). -/
def F.PWR_PRIMARY_VOLTS : Fld := ⟨32 * (0x10050004) + 0, 16, 0⟩
/-- `PWR.BATTERY.MA` [31:16] RO (15 R532). -/
def F.PWR_BATTERY_MA : Fld := ⟨32 * (0x10050008) + 16, 16, 0⟩
/-- `PWR.BATTERY.VOLTS` [15:0] RO (15 R532). -/
def F.PWR_BATTERY_VOLTS : Fld := ⟨32 * (0x10050008) + 0, 16, 0⟩
/-- `PWR.EVENTS.PRI_OUT` [31:31] W1C (15 R532). -/
def F.PWR_EVENTS_PRI_OUT : Fld := ⟨32 * (0x1005000C) + 31, 1, 0⟩
/-- `PWR.EVENTS.PRI_IN` [30:30] W1C (15 R532). -/
def F.PWR_EVENTS_PRI_IN : Fld := ⟨32 * (0x1005000C) + 30, 1, 0⟩
/-- `PWR.EVENTS.BAT_OUT` [29:29] W1C (15 R532). -/
def F.PWR_EVENTS_BAT_OUT : Fld := ⟨32 * (0x1005000C) + 29, 1, 0⟩
/-- `PWR.EVENTS.BAT_IN` [28:28] W1C (15 R532). -/
def F.PWR_EVENTS_BAT_IN : Fld := ⟨32 * (0x1005000C) + 28, 1, 0⟩
/-- `PWR.EVENTS.HOLDUP` [27:27] W1C (15 R532). -/
def F.PWR_EVENTS_HOLDUP : Fld := ⟨32 * (0x1005000C) + 27, 1, 0⟩
/-- `PWR.EVENTS.TEMP_WARN` [26:26] W1C (15 R532). -/
def F.PWR_EVENTS_TEMP_WARN : Fld := ⟨32 * (0x1005000C) + 26, 1, 0⟩
/-- `PWR.EVENTS.OVERTEMP` [25:25] W1C (15 R532). -/
def F.PWR_EVENTS_OVERTEMP : Fld := ⟨32 * (0x1005000C) + 25, 1, 0⟩
/-- `PWR.EVENTS.ZS_CHANGE` [24:24] W1C (15 R532). -/
def F.PWR_EVENTS_ZS_CHANGE : Fld := ⟨32 * (0x1005000C) + 24, 1, 0⟩
/-- `PWR.EVENTS.CAB_CHANGE` [23:23] W1C (15 R532). -/
def F.PWR_EVENTS_CAB_CHANGE : Fld := ⟨32 * (0x1005000C) + 23, 1, 0⟩
/-- `PWR.EVENTS.HOLDUPS` [15:0] RO (15 R532). -/
def F.PWR_EVENTS_HOLDUPS : Fld := ⟨32 * (0x1005000C) + 0, 16, 0⟩
/-- `PWR.DISCRETE.ZERO_SPEED` [31:31] RO (15 R532). -/
def F.PWR_DISCRETE_ZERO_SPEED : Fld := ⟨32 * (0x10050010) + 31, 1, 0⟩
/-- `PWR.DISCRETE.CAB_ACTIVE` [30:30] RO (15 R532). -/
def F.PWR_DISCRETE_CAB_ACTIVE : Fld := ⟨32 * (0x10050010) + 30, 1, 0⟩
/-- `PWR.DISCRETE.NODE_ACTIVE` [29:29] RO (15 R532). -/
def F.PWR_DISCRETE_NODE_ACTIVE : Fld := ⟨32 * (0x10050010) + 29, 1, 0⟩
/-- `PWR.DISCRETE.FAULT` [28:28] RO (15 R532). -/
def F.PWR_DISCRETE_FAULT : Fld := ⟨32 * (0x10050010) + 28, 1, 1⟩
/-- `PWR.DISCRETE.FAULT_FORCE` [27:27] RW (15 R532). -/
def F.PWR_DISCRETE_FAULT_FORCE : Fld := ⟨32 * (0x10050010) + 27, 1, 0⟩
/-- `PWR.DISCRETE.ZS_FILT` [15:8] RW (15 R532). -/
def F.PWR_DISCRETE_ZS_FILT : Fld := ⟨32 * (0x10050010) + 8, 8, 20⟩
/-- `PWR.DISCRETE.CAB_FILT` [7:0] RW (15 R532). -/
def F.PWR_DISCRETE_CAB_FILT : Fld := ⟨32 * (0x10050010) + 0, 8, 20⟩
/-- `PWR.TEMP.DIE` [31:24] RO (15 R532). -/
def F.PWR_TEMP_DIE : Fld := ⟨32 * (0x10050014) + 24, 8, 0⟩
/-- `PWR.TEMP.WALL` [23:16] RO (15 R532). -/
def F.PWR_TEMP_WALL : Fld := ⟨32 * (0x10050014) + 16, 8, 0⟩
/-- `PWR.TEMP.PEAK_WALL` [15:8] RO (15 R532). -/
def F.PWR_TEMP_PEAK_WALL : Fld := ⟨32 * (0x10050014) + 8, 8, 128⟩
/-- `PWR.TEMP.HOT_MIN` [7:0] RO (15 R532). -/
def F.PWR_TEMP_HOT_MIN : Fld := ⟨32 * (0x10050014) + 0, 8, 0⟩
/-- `PWR.ISLANDS.CONTROL` [31:31] RO (15 R532). -/
def F.PWR_ISLANDS_CONTROL : Fld := ⟨32 * (0x10050018) + 31, 1, 0⟩
/-- `PWR.ISLANDS.DATA` [30:30] RO (15 R532). -/
def F.PWR_ISLANDS_DATA : Fld := ⟨32 * (0x10050018) + 30, 1, 0⟩
/-- `PWR.ISLANDS.RAIL_FAULT` [29:29] RO (15 R532). -/
def F.PWR_ISLANDS_RAIL_FAULT : Fld := ⟨32 * (0x10050018) + 29, 1, 0⟩
/-- `PWR.ISLANDS.DATA_UPS` [7:0] RO (15 R532). -/
def F.PWR_ISLANDS_DATA_UPS : Fld := ⟨32 * (0x10050018) + 0, 8, 0⟩
/-- `TIM.CTRL.PRIORITY1` [31:24] RW (09 R345). -/
def F.TIM_CTRL_PRIORITY1 : Fld := ⟨32 * (0x10100000) + 24, 8, 246⟩
/-- `TIM.CTRL.PRIORITY2` [23:16] RW (09 R345). -/
def F.TIM_CTRL_PRIORITY2 : Fld := ⟨32 * (0x10100000) + 16, 8, 248⟩
/-- `TIM.CTRL.DOMAIN` [15:8] RW (09 R345). -/
def F.TIM_CTRL_DOMAIN : Fld := ⟨32 * (0x10100000) + 8, 8, 0⟩
/-- `TIM.CTRL.GM_CAPABLE` [0:0] RW (09 R345). -/
def F.TIM_CTRL_GM_CAPABLE : Fld := ⟨32 * (0x10100000) + 0, 1, 1⟩
/-- `TIM.STATUS.STATE` [31:29] RO (09 R345). -/
def F.TIM_STATUS_STATE : Fld := ⟨32 * (0x10100004) + 29, 3, 0⟩
/-- `TIM.STATUS.STEP_HELD` [28:28] RO (09 R345). -/
def F.TIM_STATUS_STEP_HELD : Fld := ⟨32 * (0x10100004) + 28, 1, 0⟩
/-- `TIM.STATUS.STEP_REFUSED` [27:27] W1C (09 R345). -/
def F.TIM_STATUS_STEP_REFUSED : Fld := ⟨32 * (0x10100004) + 27, 1, 0⟩
/-- `TIM.STATUS.PARENT` [26:22] RO (09 R345). -/
def F.TIM_STATUS_PARENT : Fld := ⟨32 * (0x10100004) + 22, 5, 31⟩
/-- `TIM.STATUS.HELD_PORT` [21:17] RO (09 R345). -/
def F.TIM_STATUS_HELD_PORT : Fld := ⟨32 * (0x10100004) + 17, 5, 31⟩
/-- `TIM.STATUS.STEPS` [15:8] RO (09 R345). -/
def F.TIM_STATUS_STEPS : Fld := ⟨32 * (0x10100004) + 8, 8, 0⟩
/-- `TIM.STATUS.INHERITED` [7:0] RO (09 R345). -/
def F.TIM_STATUS_INHERITED : Fld := ⟨32 * (0x10100004) + 0, 8, 0⟩
/-- `TIM.NOW_SLO.SEC_LO` [31:0] RO (09 R345). -/
def F.TIM_NOW_SLO_SEC_LO : Fld := ⟨32 * (0x10100010) + 0, 32, 0⟩
/-- `TIM.NOW_SHI.SEC_HI` [15:0] RO (09 R345). -/
def F.TIM_NOW_SHI_SEC_HI : Fld := ⟨32 * (0x10100014) + 0, 16, 0⟩
/-- `TIM.NOW_NS.NS` [29:0] RO (09 R345). -/
def F.TIM_NOW_NS_NS : Fld := ⟨32 * (0x10100018) + 0, 30, 0⟩
/-- `TIM.NOW_FRAC.FRAC` [15:0] RO (09 R345). -/
def F.TIM_NOW_FRAC_FRAC : Fld := ⟨32 * (0x1010001C) + 0, 16, 0⟩
/-- `TIM.OFFSET.NS` [31:0] RO (09 R345). -/
def F.TIM_OFFSET_NS : Fld := ⟨32 * (0x10100020) + 0, 32, 0⟩
/-- `TIM.FREQ.PPT` [31:0] RO (09 R345). -/
def F.TIM_FREQ_PPT : Fld := ⟨32 * (0x10100024) + 0, 32, 0⟩
/-- `TIM.SERVO.KP` [31:16] RW (09 R345). -/
def F.TIM_SERVO_KP : Fld := ⟨32 * (0x10100028) + 16, 16, 768⟩
/-- `TIM.SERVO.KI` [15:0] RW (09 R345). -/
def F.TIM_SERVO_KI : Fld := ⟨32 * (0x10100028) + 0, 16, 77⟩
/-- `TIM.STEP_THRESH.NS` [29:0] RW (09 R345). -/
def F.TIM_STEP_THRESH_NS : Fld := ⟨32 * (0x1010002C) + 0, 30, 1000⟩
/-- `TIM.REFUSED_SLO.SEC_LO` [31:0] RO (09 R345). -/
def F.TIM_REFUSED_SLO_SEC_LO : Fld := ⟨32 * (0x10100030) + 0, 32, 0⟩
/-- `TIM.REFUSED_SHI.SIGN` [31:31] RO (09 R345). -/
def F.TIM_REFUSED_SHI_SIGN : Fld := ⟨32 * (0x10100034) + 31, 1, 0⟩
/-- `TIM.REFUSED_SHI.SEC_HI` [15:0] RO (09 R345). -/
def F.TIM_REFUSED_SHI_SEC_HI : Fld := ⟨32 * (0x10100034) + 0, 16, 0⟩
/-- `TIM.REFUSED_NS.NS` [29:0] RO (09 R345). -/
def F.TIM_REFUSED_NS_NS : Fld := ⟨32 * (0x10100038) + 0, 30, 0⟩
/-- `TIM.STEP_CMD.RESULT` [31:28] RO (09 R345). -/
def F.TIM_STEP_CMD_RESULT : Fld := ⟨32 * (0x1010003C) + 28, 4, 0⟩
/-- `TIM.STEP_CMD.CODE` [3:0] CMD (09 R345). -/
def F.TIM_STEP_CMD_CODE : Fld := ⟨32 * (0x1010003C) + 0, 4, 0⟩
/-- `TIM.SET_SLO.SEC_LO` [31:0] RW (09 R345). -/
def F.TIM_SET_SLO_SEC_LO : Fld := ⟨32 * (0x10100040) + 0, 32, 0⟩
/-- `TIM.SET_SHI.SEC_HI` [15:0] RW (09 R345). -/
def F.TIM_SET_SHI_SEC_HI : Fld := ⟨32 * (0x10100044) + 0, 16, 0⟩
/-- `TIM.SET_NS.NS` [29:0] RW (09 R345). -/
def F.TIM_SET_NS_NS : Fld := ⟨32 * (0x10100048) + 0, 30, 0⟩
/-- `TIM.LAUNCHCFGn.LATE_SEND` [31:24] RW (09 R345). -/
def F.TIM_LAUNCHCFG_LATE_SEND (i : Nat) : Fld := ⟨32 * (0x10100100 + 0x4 * i) + 24, 8, 0⟩
/-- `TIM.LAUNCHCFGn.LATE_WIN` [19:0] RW (09 R345). -/
def F.TIM_LAUNCHCFG_LATE_WIN (i : Nat) : Fld := ⟨32 * (0x10100100 + 0x4 * i) + 0, 20, 1000⟩
/-- `TIM.PORTn.ROLE` [31:30] RW (09 R345). -/
def F.TIM_PORT_ROLE (i : Nat) : Fld := ⟨32 * (0x10100180 + 0x4 * i) + 30, 2, 0⟩
/-- `TIM.PORTn.ONE_STEP` [29:29] RW (09 R345). -/
def F.TIM_PORT_ONE_STEP (i : Nat) : Fld := ⟨32 * (0x10100180 + 0x4 * i) + 29, 1, 0⟩
/-- `TIM.PORTn.AS_CAPABLE` [28:28] RO (09 R345). -/
def F.TIM_PORT_AS_CAPABLE (i : Nat) : Fld := ⟨32 * (0x10100180 + 0x4 * i) + 28, 1, 0⟩
/-- `TIM.PORTn.PSTATE` [27:25] RO (09 R345). -/
def F.TIM_PORT_PSTATE (i : Nat) : Fld := ⟨32 * (0x10100180 + 0x4 * i) + 25, 3, 0⟩
/-- `TIM.PORTn.PDELAY` [23:0] RO (09 R345). -/
def F.TIM_PORT_PDELAY (i : Nat) : Fld := ⟨32 * (0x10100180 + 0x4 * i) + 0, 24, 0⟩
/-- `TIM.LAUNCHERRn.NOSLOT` [31:16] RO (09 R345). -/
def F.TIM_LAUNCHERR_NOSLOT (i : Nat) : Fld := ⟨32 * (0x10100200 + 0x4 * i) + 16, 16, 0⟩
/-- `TIM.LAUNCHERRn.FAR` [15:0] RO (09 R345). -/
def F.TIM_LAUNCHERR_FAR (i : Nat) : Fld := ⟨32 * (0x10100200 + 0x4 * i) + 0, 16, 0⟩
/-- `TIM.TSLOSTn.COUNT` [31:0] RO (09 R345). -/
def F.TIM_TSLOST_COUNT (i : Nat) : Fld := ⟨32 * (0x10100280 + 0x4 * i) + 0, 32, 0⟩
/-- `TIM.SNAP_TSn.FREE` [17:12] RO (09 R345). -/
def F.TIM_SNAP_TS_FREE (i : Nat) : Fld := ⟨32 * (0x10100300 + 0x4 * i) + 12, 6, 0⟩
/-- `TIM.SNAP_TSn.PENDING` [11:6] RO (09 R345). -/
def F.TIM_SNAP_TS_PENDING (i : Nat) : Fld := ⟨32 * (0x10100300 + 0x4 * i) + 6, 6, 0⟩
/-- `TIM.SNAP_TSn.RETURNING` [5:0] RO (09 R345). -/
def F.TIM_SNAP_TS_RETURNING (i : Nat) : Fld := ⟨32 * (0x10100300 + 0x4 * i) + 0, 6, 0⟩
/-- `TIM.ASYM_RXn.CONST` [31:0] RO (09 R345). -/
def F.TIM_ASYM_RX_CONST (i j : Nat) : Fld := ⟨32 * (0x10100400 + 0x40 * i + 0x8 * j) + 0, 32, 0⟩
/-- `TIM.ASYM_TXn.CONST` [31:0] RO (09 R345). -/
def F.TIM_ASYM_TX_CONST (i j : Nat) : Fld := ⟨32 * (0x10100404 + 0x40 * i + 0x8 * j) + 0, 32, 0⟩
/-- `TIM.ASYM_CPLn.CONST` [31:0] RW (09 R345). -/
def F.TIM_ASYM_CPL_CONST (i j : Nat) : Fld := ⟨32 * (0x10100A00 + 0x20 * i + 0x4 * j) + 0, 32, 0⟩
/-- `FAB.STATUS.IN_SERVICE` [31:27] RO (06 R231). -/
def F.FAB_STATUS_IN_SERVICE : Fld := ⟨32 * (0x10200000) + 27, 5, 24⟩
/-- `FAB.STATUS.SPARES` [26:25] RO (06 R231). -/
def F.FAB_STATUS_SPARES : Fld := ⟨32 * (0x10200000) + 25, 2, 2⟩
/-- `FAB.STATUS.DRAINING` [24:24] RO (06 R231). -/
def F.FAB_STATUS_DRAINING : Fld := ⟨32 * (0x10200000) + 24, 1, 0⟩
/-- `FAB.STATUS.DRAIN_BANK` [23:19] RO (06 R231). -/
def F.FAB_STATUS_DRAIN_BANK : Fld := ⟨32 * (0x10200000) + 19, 5, 0⟩
/-- `FAB.STATUS.MARGIN` [18:18] RO (06 R231). -/
def F.FAB_STATUS_MARGIN : Fld := ⟨32 * (0x10200000) + 18, 1, 0⟩
/-- `FAB.CELLS_FREE.COUNT` [16:0] RO (06 R231). -/
def F.FAB_CELLS_FREE_COUNT : Fld := ⟨32 * (0x10200004) + 0, 17, 0⟩
/-- `FAB.BANK_CE_LIMIT.LIMIT` [15:0] RW (06 R231). -/
def F.FAB_BANK_CE_LIMIT_LIMIT : Fld := ⟨32 * (0x10200008) + 0, 16, 64⟩
/-- `FAB.FREEZE.DONE` [31:31] RO (06 R231). -/
def F.FAB_FREEZE_DONE : Fld := ⟨32 * (0x10200010) + 31, 1, 0⟩
/-- `FAB.FREEZE.SEQ` [15:8] RO (06 R231). -/
def F.FAB_FREEZE_SEQ : Fld := ⟨32 * (0x10200010) + 8, 8, 0⟩
/-- `FAB.FREEZE.START` [0:0] CMD (06 R231). -/
def F.FAB_FREEZE_START : Fld := ⟨32 * (0x10200010) + 0, 1, 0⟩
/-- `FAB.SNAP_FREE.COUNT` [16:0] RO (06 R231). -/
def F.FAB_SNAP_FREE_COUNT : Fld := ⟨32 * (0x10200020) + 0, 17, 0⟩
/-- `FAB.SNAP_ALLOC.COUNT` [16:0] RO (06 R231). -/
def F.FAB_SNAP_ALLOC_COUNT : Fld := ⟨32 * (0x10200024) + 0, 17, 0⟩
/-- `FAB.SNAP_RETURN.COUNT` [16:0] RO (06 R231). -/
def F.FAB_SNAP_RETURN_COUNT : Fld := ⟨32 * (0x10200028) + 0, 17, 0⟩
/-- `FAB.SNAP_DRAIN.COUNT` [16:0] RO (06 R231). -/
def F.FAB_SNAP_DRAIN_COUNT : Fld := ⟨32 * (0x1020002C) + 0, 17, 0⟩
/-- `FAB.SNAP_ENGINE.COUNT` [16:0] RO (06 R231). -/
def F.FAB_SNAP_ENGINE_COUNT : Fld := ⟨32 * (0x10200030) + 0, 17, 0⟩
/-- `FAB.SNAP_HOST.COUNT` [16:0] RO (06 R231). -/
def F.FAB_SNAP_HOST_COUNT : Fld := ⟨32 * (0x10200034) + 0, 17, 0⟩
/-- `FAB.SNAP_CREDITn.RETURNING` [23:16] RO (06 R231). -/
def F.FAB_SNAP_CREDIT_RETURNING (i : Nat) : Fld := ⟨32 * (0x10200040 + 0x4 * i) + 16, 8, 0⟩
/-- `FAB.SNAP_CREDITn.QUEUED` [15:8] RO (06 R231). -/
def F.FAB_SNAP_CREDIT_QUEUED (i : Nat) : Fld := ⟨32 * (0x10200040 + 0x4 * i) + 8, 8, 0⟩
/-- `FAB.SNAP_CREDITn.CREDITS` [7:0] RO (06 R231). -/
def F.FAB_SNAP_CREDIT_CREDITS (i : Nat) : Fld := ⟨32 * (0x10200040 + 0x4 * i) + 0, 8, 0⟩
/-- `FAB.SNAP_LAUNCHn.FREE` [14:8] RO (06 R231). -/
def F.FAB_SNAP_LAUNCH_FREE (i : Nat) : Fld := ⟨32 * (0x10200100 + 0x4 * i) + 8, 7, 0⟩
/-- `FAB.SNAP_LAUNCHn.HELD` [6:0] RO (06 R231). -/
def F.FAB_SNAP_LAUNCH_HELD (i : Nat) : Fld := ⟨32 * (0x10200100 + 0x4 * i) + 0, 7, 0⟩
/-- `FAB.DISCn.COUNT` [31:0] RO (06 R231). -/
def F.FAB_DISC_COUNT (i : Nat) : Fld := ⟨32 * (0x10200200 + 0x4 * i) + 0, 32, 0⟩
/-- `FAB.BANKn.STATE` [31:29] RO (06 R231). -/
def F.FAB_BANK_STATE (i : Nat) : Fld := ⟨32 * (0x10200300 + 0x4 * i) + 29, 3, 0⟩
/-- `FAB.BANKn.UE24` [23:16] RO (06 R231). -/
def F.FAB_BANK_UE24 (i : Nat) : Fld := ⟨32 * (0x10200300 + 0x4 * i) + 16, 8, 0⟩
/-- `FAB.BANKn.CE_HOUR` [15:0] RO (06 R231). -/
def F.FAB_BANK_CE_HOUR (i : Nat) : Fld := ⟨32 * (0x10200300 + 0x4 * i) + 0, 16, 0⟩
/-- `PRT.CTRLn.EXEMPT` [29:29] RW (07 R271). -/
def F.PRT_CTRL_EXEMPT (i : Nat) : Fld := ⟨32 * (0x10300000 + 0x1000 * i) + 29, 1, 0⟩
/-- `PRT.CTRLn.EEE_EN` [28:28] RW (07 R271). -/
def F.PRT_CTRL_EEE_EN (i : Nat) : Fld := ⟨32 * (0x10300000 + 0x1000 * i) + 28, 1, 0⟩
/-- `PRT.CTRLn.PREEMPT_EN` [27:27] RW (07 R271). -/
def F.PRT_CTRL_PREEMPT_EN (i : Nat) : Fld := ⟨32 * (0x10300000 + 0x1000 * i) + 27, 1, 0⟩
/-- `PRT.CTRLn.VERIFY_DIS` [26:26] RW (07 R271). -/
def F.PRT_CTRL_VERIFY_DIS (i : Nat) : Fld := ⟨32 * (0x10300000 + 0x1000 * i) + 26, 1, 0⟩
/-- `PRT.CTRLn.FRAG` [25:24] RW (07 R271). -/
def F.PRT_CTRL_FRAG (i : Nat) : Fld := ⟨32 * (0x10300000 + 0x1000 * i) + 24, 2, 0⟩
/-- `PRT.CTRLn.VERIFY_TIME` [21:14] RW (07 R271). -/
def F.PRT_CTRL_VERIFY_TIME (i : Nat) : Fld := ⟨32 * (0x10300000 + 0x1000 * i) + 14, 8, if i < 20 then 10 else 0⟩
/-- `PRT.CTRLn.MAXLEN` [13:0] RW (07 R271). -/
def F.PRT_CTRL_MAXLEN (i : Nat) : Fld := ⟨32 * (0x10300000 + 0x1000 * i) + 0, 14, if i < 20 then 1522 else 0⟩
/-- `PRT.STATUSn.LINK` [31:31] RO (07 R271). -/
def F.PRT_STATUS_LINK (i : Nat) : Fld := ⟨32 * (0x10300004 + 0x1000 * i) + 31, 1, 0⟩
/-- `PRT.STATUSn.RATE` [30:28] RO (07 R271). -/
def F.PRT_STATUS_RATE (i : Nat) : Fld := ⟨32 * (0x10300004 + 0x1000 * i) + 28, 3, 0⟩
/-- `PRT.STATUSn.PREEMPT` [27:26] RO (07 R271). -/
def F.PRT_STATUS_PREEMPT (i : Nat) : Fld := ⟨32 * (0x10300004 + 0x1000 * i) + 26, 2, 0⟩
/-- `PRT.STATUSn.LPI_TX` [25:25] RO (07 R271). -/
def F.PRT_STATUS_LPI_TX (i : Nat) : Fld := ⟨32 * (0x10300004 + 0x1000 * i) + 25, 1, 0⟩
/-- `PRT.STATUSn.LPI_RX` [24:24] RO (07 R271). -/
def F.PRT_STATUS_LPI_RX (i : Nat) : Fld := ⟨32 * (0x10300004 + 0x1000 * i) + 24, 1, 0⟩
/-- `PRT.STATUSn.PAUSED` [23:16] RO (07 R271). -/
def F.PRT_STATUS_PAUSED (i : Nat) : Fld := ⟨32 * (0x10300004 + 0x1000 * i) + 16, 8, 0⟩
/-- `PRT.FLOWCNTn.IGNORED` [31:0] RO (07 R271). -/
def F.PRT_FLOWCNT_IGNORED (i : Nat) : Fld := ⟨32 * (0x10300008 + 0x1000 * i) + 0, 32, 0⟩
/-- `PRT.EEEn.LPI_DELAY` [15:0] RW (07 R271). -/
def F.PRT_EEE_LPI_DELAY (i : Nat) : Fld := ⟨32 * (0x1030000C + 0x1000 * i) + 0, 16, if i < 20 then 50 else 0⟩
/-- `PRT.HALF_LOn.HALF` [31:0] W1C (07 R271). -/
def F.PRT_HALF_LO_HALF (i : Nat) : Fld := ⟨32 * (0x10300010 + 0x1000 * i) + 0, 32, 0⟩
/-- `PRT.HALF_HIn.HALF` [31:0] W1C (07 R271). -/
def F.PRT_HALF_HI_HALF (i : Nat) : Fld := ⟨32 * (0x10300014 + 0x1000 * i) + 0, 32, 0⟩
/-- `PRT.CNT_LOn.COUNT` [31:0] RO (07 R271). -/
def F.PRT_CNT_LO_COUNT (i j : Nat) : Fld := ⟨32 * (0x10300800 + 0x1000 * i + 0x8 * j) + 0, 32, 0⟩
/-- `PRT.CNT_HIn.COUNT_HI` [7:0] RO (07 R271). -/
def F.PRT_CNT_HI_COUNT_HI (i j : Nat) : Fld := ⟨32 * (0x10300804 + 0x1000 * i + 0x8 * j) + 0, 8, 0⟩
/-- `PRT.DELTAn.COUNT` [31:0] RC (07 R271). -/
def F.PRT_DELTA_COUNT (i j : Nat) : Fld := ⟨32 * (0x10300A00 + 0x1000 * i + 0x4 * j) + 0, 32, 0⟩
/-- `PRT.WAKE_CTRLn.EN` [31:31] RW (07 R272). -/
def F.PRT_WAKE_CTRL_EN (i : Nat) : Fld := ⟨32 * (0x10318000 + 0x40 * i) + 31, 1, 0⟩
/-- `PRT.WAKE_CTRLn.STANDBY` [30:30] RW (07 R272). -/
def F.PRT_WAKE_CTRL_STANDBY (i : Nat) : Fld := ⟨32 * (0x10318000 + 0x40 * i) + 30, 1, 0⟩
/-- `PRT.WAKE_CTRLn.PORTS` [27:16] RW (07 R272). -/
def F.PRT_WAKE_CTRL_PORTS (i : Nat) : Fld := ⟨32 * (0x10318000 + 0x40 * i) + 16, 12, 0⟩
/-- `PRT.WAKE_CTRLn.START` [13:0] RW (07 R272). -/
def F.PRT_WAKE_CTRL_START (i : Nat) : Fld := ⟨32 * (0x10318000 + 0x40 * i) + 0, 14, 0⟩
/-- `PRT.WAKE_MASKn.MASK` [31:0] RW (07 R272). -/
def F.PRT_WAKE_MASK_MASK (i j : Nat) : Fld := ⟨32 * (0x10318004 + 0x40 * i + 0x4 * j) + 0, 32, 0⟩
/-- `PRT.WAKE_CHECKn.CHECK` [31:0] RW (07 R272). -/
def F.PRT_WAKE_CHECK_CHECK (i : Nat) : Fld := ⟨32 * (0x10318024 + 0x40 * i) + 0, 32, 0⟩
/-- `PRT.WAKE_STATUS.VALID` [31:31] W1C (07 R272). -/
def F.PRT_WAKE_STATUS_VALID : Fld := ⟨32 * (0x10318400) + 31, 1, 0⟩
/-- `PRT.WAKE_STATUS.PATTERN` [27:24] RO (07 R272). -/
def F.PRT_WAKE_STATUS_PATTERN : Fld := ⟨32 * (0x10318400) + 24, 4, 0⟩
/-- `PRT.WAKE_STATUS.PORT` [20:16] RO (07 R272). -/
def F.PRT_WAKE_STATUS_PORT : Fld := ⟨32 * (0x10318400) + 16, 5, 0⟩
/-- `PRT.WAKE_STATUS.MATCHES` [15:0] RO (07 R272). -/
def F.PRT_WAKE_STATUS_MATCHES : Fld := ⟨32 * (0x10318400) + 0, 16, 0⟩
/-- `BBL.MODEn.MODE` [31:30] RW (07 R273). -/
def F.BBL_MODE_MODE (i j : Nat) : Fld := ⟨32 * (0x10400000 + 0x4000 * i + 0x1000 * j) + 30, 2, 2⟩
/-- `BBL.MODEn.ALLOWED` [23:21] RW (07 R273). -/
def F.BBL_MODE_ALLOWED (i j : Nat) : Fld := ⟨32 * (0x10400000 + 0x4000 * i + 0x1000 * j) + 21, 3, 7⟩
/-- `BBL.MODEn.ALLOW_1G` [20:20] RO (07 R273). -/
def F.BBL_MODE_ALLOW_1G (i j : Nat) : Fld := ⟨32 * (0x10400000 + 0x4000 * i + 0x1000 * j) + 20, 1, 1⟩
/-- `BBL.MODEn.LOAD_UP` [19:12] RW (07 R273). -/
def F.BBL_MODE_LOAD_UP (i j : Nat) : Fld := ⟨32 * (0x10400000 + 0x4000 * i + 0x1000 * j) + 12, 8, 60⟩
/-- `BBL.MODEn.LOAD_DOWN` [11:4] RW (07 R273). -/
def F.BBL_MODE_LOAD_DOWN (i j : Nat) : Fld := ⟨32 * (0x10400000 + 0x4000 * i + 0x1000 * j) + 4, 8, 0⟩
/-- `BBL.GEARCFGn.HOLD` [31:16] RW (07 R273). -/
def F.BBL_GEARCFG_HOLD (i j : Nat) : Fld := ⟨32 * (0x10400004 + 0x4000 * i + 0x1000 * j) + 16, 16, 1000⟩
/-- `BBL.GEARCFGn.SNR_UP` [15:8] RW (07 R273). -/
def F.BBL_GEARCFG_SNR_UP (i j : Nat) : Fld := ⟨32 * (0x10400004 + 0x4000 * i + 0x1000 * j) + 8, 8, 24⟩
/-- `BBL.GEARCFGn.SNR_DOWN` [7:0] RW (07 R273). -/
def F.BBL_GEARCFG_SNR_DOWN (i j : Nat) : Fld := ⟨32 * (0x10400004 + 0x4000 * i + 0x1000 * j) + 0, 8, 8⟩
/-- `BBL.STATUSn.LINK` [31:31] RO (07 R273). -/
def F.BBL_STATUS_LINK (i j : Nat) : Fld := ⟨32 * (0x10400008 + 0x4000 * i + 0x1000 * j) + 31, 1, 0⟩
/-- `BBL.STATUSn.GEAR` [30:28] RO (07 R273). -/
def F.BBL_STATUS_GEAR (i j : Nat) : Fld := ⟨32 * (0x10400008 + 0x4000 * i + 0x1000 * j) + 28, 3, 0⟩
/-- `BBL.STATUSn.COMPAT` [27:27] RO (07 R273). -/
def F.BBL_STATUS_COMPAT (i j : Nat) : Fld := ⟨32 * (0x10400008 + 0x4000 * i + 0x1000 * j) + 27, 1, 0⟩
/-- `BBL.STATUSn.HITLESS` [26:26] RO (07 R273). -/
def F.BBL_STATUS_HITLESS (i j : Nat) : Fld := ⟨32 * (0x10400008 + 0x4000 * i + 0x1000 * j) + 26, 1, 0⟩
/-- `BBL.STATUSn.SHIFTING` [25:25] RO (07 R273). -/
def F.BBL_STATUS_SHIFTING (i j : Nat) : Fld := ⟨32 * (0x10400008 + 0x4000 * i + 0x1000 * j) + 25, 1, 0⟩
/-- `BBL.STATUSn.BOUND_BROKEN` [24:24] W1C (07 R273). -/
def F.BBL_STATUS_BOUND_BROKEN (i j : Nat) : Fld := ⟨32 * (0x10400008 + 0x4000 * i + 0x1000 * j) + 24, 1, 0⟩
/-- `BBL.STATUSn.MARGIN` [15:8] RO (07 R273). -/
def F.BBL_STATUS_MARGIN (i j : Nat) : Fld := ⟨32 * (0x10400008 + 0x4000 * i + 0x1000 * j) + 8, 8, 0⟩
/-- `BBL.STATUSn.LOAD` [7:0] RO (07 R273). -/
def F.BBL_STATUS_LOAD (i j : Nat) : Fld := ⟨32 * (0x10400008 + 0x4000 * i + 0x1000 * j) + 0, 8, 0⟩
/-- `BBL.GEARCMDn.RESULT` [31:28] RO (07 R273). -/
def F.BBL_GEARCMD_RESULT (i j : Nat) : Fld := ⟨32 * (0x1040000C + 0x4000 * i + 0x1000 * j) + 28, 4, 0⟩
/-- `BBL.GEARCMDn.GEAR` [2:0] CMD (07 R273). -/
def F.BBL_GEARCMD_GEAR (i j : Nat) : Fld := ⟨32 * (0x1040000C + 0x4000 * i + 0x1000 * j) + 0, 3, 0⟩
/-- `BBL.RELAYn.CLOSED` [31:31] RO (07 R273). -/
def F.BBL_RELAY_CLOSED (i : Nat) : Fld := ⟨32 * (0x10402000 + 0x4000 * i) + 31, 1, 1⟩
/-- `BBL.RELAYn.DRIVE_OPEN` [30:30] RO (07 R273). -/
def F.BBL_RELAY_DRIVE_OPEN (i : Nat) : Fld := ⟨32 * (0x10402000 + 0x4000 * i) + 30, 1, 0⟩
/-- `BBL.RELAYn.FORCE` [29:29] RW (07 R273). -/
def F.BBL_RELAY_FORCE (i : Nat) : Fld := ⟨32 * (0x10402000 + 0x4000 * i) + 29, 1, 0⟩
/-- `BBL.RELAYn.MISMATCH` [28:28] W1C (07 R273). -/
def F.BBL_RELAY_MISMATCH (i : Nat) : Fld := ⟨32 * (0x10402000 + 0x4000 * i) + 28, 1, 0⟩
/-- `BBL.RELAYn.LIFE` [9:0] RO (07 R273). -/
def F.BBL_RELAY_LIFE (i : Nat) : Fld := ⟨32 * (0x10402000 + 0x4000 * i) + 0, 10, 0⟩
/-- `BBL.RELAY_OPSn.COUNT` [31:0] RO (07 R273). -/
def F.BBL_RELAY_OPS_COUNT (i : Nat) : Fld := ⟨32 * (0x10402004 + 0x4000 * i) + 0, 32, 0⟩
/-- `BBL.RELAY_WARNn.WARN` [9:0] RW (07 R273). -/
def F.BBL_RELAY_WARN_WARN (i : Nat) : Fld := ⟨32 * (0x10402008 + 0x4000 * i) + 0, 10, 800⟩
/-- `TOP.PC.PC` [31:0] RO (14 R502). -/
def F.TOP_PC_PC : Fld := ⟨32 * (0x10500028) + 0, 32, 0⟩
/-- `TOP.EXC_PC.PC` [31:0] RO (14 R502). -/
def F.TOP_EXC_PC_PC : Fld := ⟨32 * (0x1050002C) + 0, 32, 0⟩
/-- `TOP.EPOCH.PREV` [31:16] RO (08 R312). -/
def F.TOP_EPOCH_PREV : Fld := ⟨32 * (0x10500800) + 16, 16, 0⟩
/-- `TOP.EPOCH.EPOCH` [15:0] RO (08 R312). -/
def F.TOP_EPOCH_EPOCH : Fld := ⟨32 * (0x10500800) + 0, 16, 0⟩
/-- `TOP.INAUG.PHASE` [31:28] RO (08 R312). -/
def F.TOP_INAUG_PHASE : Fld := ⟨32 * (0x10500804) + 28, 4, 0⟩
/-- `TOP.INAUG.STANDARD` [27:27] RO (08 R312). -/
def F.TOP_INAUG_STANDARD : Fld := ⟨32 * (0x10500804) + 27, 1, 0⟩
/-- `TOP.INAUG.OVER63` [26:26] W1C (08 R312). -/
def F.TOP_INAUG_OVER63 : Fld := ⟨32 * (0x10500804) + 26, 1, 0⟩
/-- `TOP.INAUG.MISSED` [25:25] W1C (08 R312). -/
def F.TOP_INAUG_MISSED : Fld := ⟨32 * (0x10500804) + 25, 1, 0⟩
/-- `TOP.INAUG.HOLD_FAIL` [24:24] W1C (08 R312). -/
def F.TOP_INAUG_HOLD_FAIL : Fld := ⟨32 * (0x10500804) + 24, 1, 0⟩
/-- `TOP.INAUG.COUNT` [23:18] RO (08 R312). -/
def F.TOP_INAUG_COUNT : Fld := ⟨32 * (0x10500804) + 18, 6, 0⟩
/-- `TOP.INAUG.POSITION` [17:12] RO (08 R312). -/
def F.TOP_INAUG_POSITION : Fld := ⟨32 * (0x10500804) + 12, 6, 0⟩
/-- `TOP.INAUG.ORIENT` [11:11] RO (08 R312). -/
def F.TOP_INAUG_ORIENT : Fld := ⟨32 * (0x10500804) + 11, 1, 0⟩
/-- `TOP.INAUG.FAILS` [10:8] RO (08 R312). -/
def F.TOP_INAUG_FAILS : Fld := ⟨32 * (0x10500804) + 8, 3, 0⟩
/-- `TOP.INAUG.BARRED` [7:4] RO (08 R312). -/
def F.TOP_INAUG_BARRED : Fld := ⟨32 * (0x10500804) + 4, 4, 0⟩
/-- `TOP.INAUG.CAUSE` [2:0] RO (08 R312). -/
def F.TOP_INAUG_CAUSE : Fld := ⟨32 * (0x10500804) + 0, 3, 0⟩
/-- `TOP.COMMIT_SLO.SEC_LO` [31:0] RO (08 R312). -/
def F.TOP_COMMIT_SLO_SEC_LO : Fld := ⟨32 * (0x10500808) + 0, 32, 0⟩
/-- `TOP.COMMIT_SHI.SEC_HI` [15:0] RO (08 R312). -/
def F.TOP_COMMIT_SHI_SEC_HI : Fld := ⟨32 * (0x1050080C) + 0, 16, 0⟩
/-- `TOP.COMMIT_NS.NS` [29:0] RO (08 R312). -/
def F.TOP_COMMIT_NS_NS : Fld := ⟨32 * (0x10500810) + 0, 30, 0⟩
/-- `TOP.DIGEST.DIGEST` [31:0] RO (08 R312). -/
def F.TOP_DIGEST_DIGEST : Fld := ⟨32 * (0x10500814) + 0, 32, 0⟩
/-- `TOP.RENUM.COMMITS` [31:20] RO (08 R312). -/
def F.TOP_RENUM_COMMITS : Fld := ⟨32 * (0x10500818) + 20, 12, 0⟩
/-- `TOP.RENUM.NEWEP_LOST` [19:16] RO (08 R312). -/
def F.TOP_RENUM_NEWEP_LOST : Fld := ⟨32 * (0x10500818) + 16, 4, 0⟩
/-- `TOP.RENUM.LAST_MS` [15:0] RO (08 R312). -/
def F.TOP_RENUM_LAST_MS : Fld := ⟨32 * (0x10500818) + 0, 16, 0⟩
/-- `TOP.GRACE.GONE` [31:16] RO (08 R312). -/
def F.TOP_GRACE_GONE : Fld := ⟨32 * (0x1050081C) + 16, 16, 0⟩
/-- `TOP.GRACE.EXPIRED` [15:0] RO (08 R312). -/
def F.TOP_GRACE_EXPIRED : Fld := ⟨32 * (0x1050081C) + 0, 16, 0⟩
/-- `TOP.EPOCH_REFUSED.COUNT` [31:0] RO (08 R312). -/
def F.TOP_EPOCH_REFUSED_COUNT : Fld := ⟨32 * (0x10500820) + 0, 32, 0⟩
/-- `TOP.BADFRAMES.COUNT` [31:0] RO (08 R312). -/
def F.TOP_BADFRAMES_COUNT : Fld := ⟨32 * (0x10500824) + 0, 32, 0⟩
/-- `TOP.PORTSTATn.STATUS` [31:0] RO (08 R312). -/
def F.TOP_PORTSTAT_STATUS (i : Nat) : Fld := ⟨32 * (0x10500830 + 0x4 * i) + 0, 32, 0⟩
/-- `BRG.CTRL.EN` [31:31] RW (11 R405). -/
def F.BRG_CTRL_EN : Fld := ⟨32 * (0x10600000) + 31, 1, 0⟩
/-- `BRG.CTRL.CTX` [11:0] RW (11 R405). -/
def F.BRG_CTRL_CTX : Fld := ⟨32 * (0x10600000) + 0, 12, 0⟩
/-- `BRG.TIMEOUT.MS` [9:0] RW (11 R405). -/
def F.BRG_TIMEOUT_MS : Fld := ⟨32 * (0x10600004) + 0, 10, 10⟩
/-- `BRG.STATUS.FREE` [26:16] RO (11 R405). -/
def F.BRG_STATUS_FREE : Fld := ⟨32 * (0x10600008) + 16, 11, 1024⟩
/-- `BRG.STATUS.LOCKED` [15:15] RO (11 R405). -/
def F.BRG_STATUS_LOCKED : Fld := ⟨32 * (0x10600008) + 15, 1, 0⟩
/-- `BRG.STATUS.INFLIGHT` [10:0] RO (11 R405). -/
def F.BRG_STATUS_INFLIGHT : Fld := ⟨32 * (0x10600008) + 0, 11, 0⟩
/-- `BRG.SNAP_A.FREE` [26:16] RO (11 R405). -/
def F.BRG_SNAP_A_FREE : Fld := ⟨32 * (0x1060000C) + 16, 11, 0⟩
/-- `BRG.SNAP_A.INFLIGHT` [10:0] RO (11 R405). -/
def F.BRG_SNAP_A_INFLIGHT : Fld := ⟨32 * (0x1060000C) + 0, 11, 0⟩
/-- `BRG.ERRLOG.OVERFLOW` [31:31] W1C (11 R405). -/
def F.BRG_ERRLOG_OVERFLOW : Fld := ⟨32 * (0x10600010) + 31, 1, 0⟩
/-- `BRG.ERRLOG.ENTRIES` [20:16] RO (11 R405). -/
def F.BRG_ERRLOG_ENTRIES : Fld := ⟨32 * (0x10600010) + 16, 5, 0⟩
/-- `BRG.ERRLOG.LOST` [15:0] RO (11 R405). -/
def F.BRG_ERRLOG_LOST : Fld := ⟨32 * (0x10600010) + 0, 16, 0⟩
/-- `BRG.SNAP_B.COMPLETING` [10:0] RO (11 R405). -/
def F.BRG_SNAP_B_COMPLETING : Fld := ⟨32 * (0x10600018) + 0, 11, 0⟩
/-- `BRG.LOCK_CTRL.RESULT` [31:28] RO (11 R405). -/
def F.BRG_LOCK_CTRL_RESULT : Fld := ⟨32 * (0x10600020) + 28, 4, 0⟩
/-- `BRG.LOCK_CTRL.OPEN` [27:27] RO (11 R405). -/
def F.BRG_LOCK_CTRL_OPEN : Fld := ⟨32 * (0x10600020) + 27, 1, 0⟩
/-- `BRG.LOCK_CTRL.PENDING` [26:26] RO (11 R405). -/
def F.BRG_LOCK_CTRL_PENDING : Fld := ⟨32 * (0x10600020) + 26, 1, 0⟩
/-- `BRG.LOCK_CTRL.WIN` [21:16] RW (11 R405). -/
def F.BRG_LOCK_CTRL_WIN : Fld := ⟨32 * (0x10600020) + 16, 6, 0⟩
/-- `BRG.LOCK_CTRL.CODE` [3:0] CMD (11 R405). -/
def F.BRG_LOCK_CTRL_CODE : Fld := ⟨32 * (0x10600020) + 0, 4, 0⟩
/-- `BRG.LOCK_OFFSET.OFFSET` [24:2] RW (11 R405). -/
def F.BRG_LOCK_OFFSET_OFFSET : Fld := ⟨32 * (0x10600024) + 2, 23, 0⟩
/-- `BRG.LOCK_WDATA.DATA` [31:0] RW (11 R405). -/
def F.BRG_LOCK_WDATA_DATA : Fld := ⟨32 * (0x10600028) + 0, 32, 0⟩
/-- `BRG.LOCK_RDATA.DATA` [31:0] RO (11 R405). -/
def F.BRG_LOCK_RDATA_DATA : Fld := ⟨32 * (0x1060002C) + 0, 32, 0⟩
/-- `BRG.RDSTATn.VALID` [31:31] W1C (11 R405). -/
def F.BRG_RDSTAT_VALID (i : Nat) : Fld := ⟨32 * (0x10600040 + 0x4 * i) + 31, 1, 0⟩
/-- `BRG.RDSTATn.CAUSE` [30:27] RO (11 R405). -/
def F.BRG_RDSTAT_CAUSE (i : Nat) : Fld := ⟨32 * (0x10600040 + 0x4 * i) + 27, 4, 0⟩
/-- `BRG.RDSTATn.WIN` [26:21] RO (11 R405). -/
def F.BRG_RDSTAT_WIN (i : Nat) : Fld := ⟨32 * (0x10600040 + 0x4 * i) + 21, 6, 0⟩
/-- `BRG.RDSTATn.FAILS` [15:0] RO (11 R405). -/
def F.BRG_RDSTAT_FAILS (i : Nat) : Fld := ⟨32 * (0x10600040 + 0x4 * i) + 0, 16, 0⟩
/-- `BRG.PF_DISCARD.COUNT` [31:0] RO (11 R405). -/
def F.BRG_PF_DISCARD_COUNT : Fld := ⟨32 * (0x10600050) + 0, 32, 0⟩
/-- `BRG.PF_LAST.WIN` [31:26] RO (11 R405). -/
def F.BRG_PF_LAST_WIN : Fld := ⟨32 * (0x10600054) + 26, 6, 0⟩
/-- `BRG.PF_LAST.LINE` [25:0] RO (11 R405). -/
def F.BRG_PF_LAST_LINE : Fld := ⟨32 * (0x10600054) + 0, 26, 0⟩
/-- `BRG.IN_BUSY.COUNT` [31:0] RO (11 R405). -/
def F.BRG_IN_BUSY_COUNT : Fld := ⟨32 * (0x10600060) + 0, 32, 0⟩
/-- `BRG.IN_BAD.COUNT` [31:0] RO (11 R405). -/
def F.BRG_IN_BAD_COUNT : Fld := ⟨32 * (0x10600064) + 0, 32, 0⟩
/-- `BRG.IN_LATE.COUNT` [31:0] RO (11 R405). -/
def F.BRG_IN_LATE_COUNT : Fld := ⟨32 * (0x10600068) + 0, 32, 0⟩
/-- `BRG.IN_NOINIT.COUNT` [31:0] RO (11 R405). -/
def F.BRG_IN_NOINIT_COUNT : Fld := ⟨32 * (0x1060006C) + 0, 32, 0⟩
/-- `BRG.ERR_CAUSEn.VALID` [31:31] W1C (11 R405). -/
def F.BRG_ERR_CAUSE_VALID (i : Nat) : Fld := ⟨32 * (0x10600100 + 0x10 * i) + 31, 1, 0⟩
/-- `BRG.ERR_CAUSEn.CAUSE` [30:27] RO (11 R405). -/
def F.BRG_ERR_CAUSE_CAUSE (i : Nat) : Fld := ⟨32 * (0x10600100 + 0x10 * i) + 27, 4, 0⟩
/-- `BRG.ERR_CAUSEn.WIN` [26:21] RO (11 R405). -/
def F.BRG_ERR_CAUSE_WIN (i : Nat) : Fld := ⟨32 * (0x10600100 + 0x10 * i) + 21, 6, 0⟩
/-- `BRG.ERR_CAUSEn.FARPOS` [20:15] RO (11 R405). -/
def F.BRG_ERR_CAUSE_FARPOS (i : Nat) : Fld := ⟨32 * (0x10600100 + 0x10 * i) + 15, 6, 0⟩
/-- `BRG.ERR_ADDRn.ADDR` [31:0] RO (11 R405). -/
def F.BRG_ERR_ADDR_ADDR (i : Nat) : Fld := ⟨32 * (0x10600104 + 0x10 * i) + 0, 32, 0⟩
/-- `BRG.ERR_SEQn.EPOCH` [31:16] RO (11 R405). -/
def F.BRG_ERR_SEQ_EPOCH (i : Nat) : Fld := ⟨32 * (0x10600108 + 0x10 * i) + 16, 16, 0⟩
/-- `BRG.ERR_SEQn.SEQ` [15:0] RO (11 R405). -/
def F.BRG_ERR_SEQ_SEQ (i : Nat) : Fld := ⟨32 * (0x10600108 + 0x10 * i) + 0, 16, 0⟩
/-- `BRG.WIN_CTRLn.EN` [31:31] RW (11 R405). -/
def F.BRG_WIN_CTRL_EN (i : Nat) : Fld := ⟨32 * (0x10601000 + 0x20 * i) + 31, 1, 0⟩
/-- `BRG.WIN_CTRLn.MODE` [30:30] RW (11 R405). -/
def F.BRG_WIN_CTRL_MODE (i : Nat) : Fld := ⟨32 * (0x10601000 + 0x20 * i) + 30, 1, 0⟩
/-- `BRG.WIN_CTRLn.PF` [29:29] RW (11 R405). -/
def F.BRG_WIN_CTRL_PF (i : Nat) : Fld := ⟨32 * (0x10601000 + 0x20 * i) + 29, 1, 0⟩
/-- `BRG.WIN_CTRLn.MGR` [28:28] RW (11 R405). -/
def F.BRG_WIN_CTRL_MGR (i : Nat) : Fld := ⟨32 * (0x10601000 + 0x20 * i) + 28, 1, 0⟩
/-- `BRG.WIN_CTRLn.FENCE` [27:27] W1C (11 R405). -/
def F.BRG_WIN_CTRL_FENCE (i : Nat) : Fld := ⟨32 * (0x10601000 + 0x20 * i) + 27, 1, 0⟩
/-- `BRG.WIN_CTRLn.BASE` [6:0] RW (11 R405). -/
def F.BRG_WIN_CTRL_BASE (i : Nat) : Fld := ⟨32 * (0x10601000 + 0x20 * i) + 0, 7, 0⟩
/-- `BRG.WIN_TARGETn.EPOCH` [31:16] RW (11 R405). -/
def F.BRG_WIN_TARGET_EPOCH (i : Nat) : Fld := ⟨32 * (0x10601004 + 0x20 * i) + 16, 16, 0⟩
/-- `BRG.WIN_TARGETn.POS` [5:0] RW (11 R405). -/
def F.BRG_WIN_TARGET_POS (i : Nat) : Fld := ⟨32 * (0x10601004 + 0x20 * i) + 0, 6, 0⟩
/-- `BRG.WIN_NODE_LOn.NODE_LO` [31:0] RW (11 R405). -/
def F.BRG_WIN_NODE_LO_NODE_LO (i : Nat) : Fld := ⟨32 * (0x10601008 + 0x20 * i) + 0, 32, 0⟩
/-- `BRG.WIN_NODE_HIn.NODE_HI` [15:0] RW (11 R405). -/
def F.BRG_WIN_NODE_HI_NODE_HI (i : Nat) : Fld := ⟨32 * (0x1060100C + 0x20 * i) + 0, 16, 0⟩
/-- `BRG.WIN_SEQn.NEXT` [15:0] RO (11 R405). -/
def F.BRG_WIN_SEQ_NEXT (i : Nat) : Fld := ⟨32 * (0x10601010 + 0x20 * i) + 0, 16, 0⟩
/-- `BRG.WIN_FENCE_DROPSn.COUNT` [31:0] RO (11 R405). -/
def F.BRG_WIN_FENCE_DROPS_COUNT (i : Nat) : Fld := ⟨32 * (0x10601014 + 0x20 * i) + 0, 32, 0⟩
/-- `BRG.WIN_REFUSEDn.COUNT` [31:0] RO (11 R405). -/
def F.BRG_WIN_REFUSED_COUNT (i : Nat) : Fld := ⟨32 * (0x10601018 + 0x20 * i) + 0, 32, 0⟩
/-- `BRG.PD_ERRn.COUNT` [31:0] RO (11 R405). -/
def F.BRG_PD_ERR_COUNT (i : Nat) : Fld := ⟨32 * (0x10604000 + 0x4 * i) + 0, 32, 0⟩
/-- `BRG.DS_STATn.EN` [31:31] RO (11 R405). -/
def F.BRG_DS_STAT_EN (i : Nat) : Fld := ⟨32 * (0x10608000 + 0x10 * i) + 31, 1, 0⟩
/-- `BRG.DS_STATn.SUB` [30:30] RO (11 R405). -/
def F.BRG_DS_STAT_SUB (i : Nat) : Fld := ⟨32 * (0x10608000 + 0x10 * i) + 30, 1, 0⟩
/-- `BRG.DS_STATn.TIMED_OUT` [29:29] RO (11 R405). -/
def F.BRG_DS_STAT_TIMED_OUT (i : Nat) : Fld := ⟨32 * (0x10608000 + 0x10 * i) + 29, 1, 0⟩
/-- `BRG.DS_STATn.TOUT_EV` [28:28] W1C (11 R405). -/
def F.BRG_DS_STAT_TOUT_EV (i : Nat) : Fld := ⟨32 * (0x10608000 + 0x10 * i) + 28, 1, 0⟩
/-- `BRG.DS_SEQn.SEQ` [31:0] RO (11 R405). -/
def F.BRG_DS_SEQ_SEQ (i : Nat) : Fld := ⟨32 * (0x10608004 + 0x10 * i) + 0, 32, 0⟩
/-- `BRG.DS_COUNTn.COUNT` [31:0] RO (11 R405). -/
def F.BRG_DS_COUNT_COUNT (i : Nat) : Fld := ⟨32 * (0x10608008 + 0x10 * i) + 0, 32, 0⟩
/-- `BRG.DS_ERRn.LENGTH` [31:24] RO (11 R405). -/
def F.BRG_DS_ERR_LENGTH (i : Nat) : Fld := ⟨32 * (0x1060800C + 0x10 * i) + 24, 8, 0⟩
/-- `BRG.DS_ERRn.TOPO` [23:16] RO (11 R405). -/
def F.BRG_DS_ERR_TOPO (i : Nat) : Fld := ⟨32 * (0x1060800C + 0x10 * i) + 16, 8, 0⟩
/-- `BRG.DS_ERRn.SEQ` [15:8] RO (11 R405). -/
def F.BRG_DS_ERR_SEQ (i : Nat) : Fld := ⟨32 * (0x1060800C + 0x10 * i) + 8, 8, 0⟩
/-- `BRG.DS_ERRn.SRC` [7:0] RO (11 R405). -/
def F.BRG_DS_ERR_SRC (i : Nat) : Fld := ⟨32 * (0x1060800C + 0x10 * i) + 0, 8, 0⟩
/-- `CAN.CTRLn.EN` [31:31] RW (10 R375). -/
def F.CAN_CTRL_EN (i : Nat) : Fld := ⟨32 * (0x10700000 + 0x10000 * i) + 31, 1, 0⟩
/-- `CAN.CTRLn.LISTEN` [30:30] RW (10 R375). -/
def F.CAN_CTRL_LISTEN (i : Nat) : Fld := ⟨32 * (0x10700000 + 0x10000 * i) + 30, 1, 0⟩
/-- `CAN.CTRLn.LOOP` [29:29] RW (10 R375). -/
def F.CAN_CTRL_LOOP (i : Nat) : Fld := ⟨32 * (0x10700000 + 0x10000 * i) + 29, 1, 0⟩
/-- `CAN.CTRLn.TERM` [28:28] RW (10 R375). -/
def F.CAN_CTRL_TERM (i : Nat) : Fld := ⟨32 * (0x10700000 + 0x10000 * i) + 28, 1, 0⟩
/-- `CAN.CTRLn.XCVR` [27:26] RW (10 R375). -/
def F.CAN_CTRL_XCVR (i : Nat) : Fld := ⟨32 * (0x10700000 + 0x10000 * i) + 26, 2, 1⟩
/-- `CAN.CTRLn.FD_EN` [25:25] RW (10 R375). -/
def F.CAN_CTRL_FD_EN (i : Nat) : Fld := ⟨32 * (0x10700000 + 0x10000 * i) + 25, 1, 0⟩
/-- `CAN.CTRLn.XL_EN` [24:24] RW (10 R375). -/
def F.CAN_CTRL_XL_EN (i : Nat) : Fld := ⟨32 * (0x10700000 + 0x10000 * i) + 24, 1, 0⟩
/-- `CAN.CTRLn.CLASH_THR` [21:16] RW (10 R375). -/
def F.CAN_CTRL_CLASH_THR (i : Nat) : Fld := ⟨32 * (0x10700000 + 0x10000 * i) + 16, 6, 8⟩
/-- `CAN.STATUSn.STATE` [31:28] RO (10 R375). -/
def F.CAN_STATUS_STATE (i : Nat) : Fld := ⟨32 * (0x10700004 + 0x10000 * i) + 28, 4, 0⟩
/-- `CAN.STATUSn.CFG_ERR` [27:27] W1C (10 R375). -/
def F.CAN_STATUS_CFG_ERR (i : Nat) : Fld := ⟨32 * (0x10700004 + 0x10000 * i) + 27, 1, 0⟩
/-- `CAN.STATUSn.BUSOFF_EV` [26:26] W1C (10 R375). -/
def F.CAN_STATUS_BUSOFF_EV (i : Nat) : Fld := ⟨32 * (0x10700004 + 0x10000 * i) + 26, 1, 0⟩
/-- `CAN.STATUSn.CLASH_EV` [25:25] W1C (10 R375). -/
def F.CAN_STATUS_CLASH_EV (i : Nat) : Fld := ⟨32 * (0x10700004 + 0x10000 * i) + 25, 1, 0⟩
/-- `CAN.STATUSn.REC` [23:16] RO (10 R375). -/
def F.CAN_STATUS_REC (i : Nat) : Fld := ⟨32 * (0x10700004 + 0x10000 * i) + 16, 8, 0⟩
/-- `CAN.STATUSn.TEC` [8:0] RO (10 R375). -/
def F.CAN_STATUS_TEC (i : Nat) : Fld := ⟨32 * (0x10700004 + 0x10000 * i) + 0, 9, 0⟩
/-- `CAN.CMDn.RESULT` [31:28] RO (10 R375). -/
def F.CAN_CMD_RESULT (i : Nat) : Fld := ⟨32 * (0x10700008 + 0x10000 * i) + 28, 4, 0⟩
/-- `CAN.CMDn.COUNT` [15:8] WO (10 R375). -/
def F.CAN_CMD_COUNT (i : Nat) : Fld := ⟨32 * (0x10700008 + 0x10000 * i) + 8, 8, 0⟩
/-- `CAN.CMDn.CODE` [3:0] CMD (10 R375). -/
def F.CAN_CMD_CODE (i : Nat) : Fld := ⟨32 * (0x10700008 + 0x10000 * i) + 0, 4, 0⟩
/-- `CAN.QUEUESn.TXQ` [30:24] RO (10 R375). -/
def F.CAN_QUEUES_TXQ (i : Nat) : Fld := ⟨32 * (0x1070000C + 0x10000 * i) + 24, 7, 0⟩
/-- `CAN.QUEUESn.DELIVERED` [16:8] RO (10 R375). -/
def F.CAN_QUEUES_DELIVERED (i : Nat) : Fld := ⟨32 * (0x1070000C + 0x10000 * i) + 8, 9, 0⟩
/-- `CAN.QUEUESn.HELD` [7:0] RO (10 R375). -/
def F.CAN_QUEUES_HELD (i : Nat) : Fld := ⟨32 * (0x1070000C + 0x10000 * i) + 0, 8, 0⟩
/-- `CAN.NBTn.BRP` [31:24] RW (10 R375). -/
def F.CAN_NBT_BRP (i : Nat) : Fld := ⟨32 * (0x10700010 + 0x10000 * i) + 24, 8, 1⟩
/-- `CAN.NBTn.TSEG1` [23:16] RW (10 R375). -/
def F.CAN_NBT_TSEG1 (i : Nat) : Fld := ⟨32 * (0x10700010 + 0x10000 * i) + 16, 8, 63⟩
/-- `CAN.NBTn.TSEG2` [15:8] RW (10 R375). -/
def F.CAN_NBT_TSEG2 (i : Nat) : Fld := ⟨32 * (0x10700010 + 0x10000 * i) + 8, 8, 16⟩
/-- `CAN.NBTn.SJW` [7:0] RW (10 R375). -/
def F.CAN_NBT_SJW (i : Nat) : Fld := ⟨32 * (0x10700010 + 0x10000 * i) + 0, 8, 16⟩
/-- `CAN.DBTn.BRP` [31:24] RW (10 R375). -/
def F.CAN_DBT_BRP (i : Nat) : Fld := ⟨32 * (0x10700014 + 0x10000 * i) + 24, 8, 0⟩
/-- `CAN.DBTn.TSEG1` [23:16] RW (10 R375). -/
def F.CAN_DBT_TSEG1 (i : Nat) : Fld := ⟨32 * (0x10700014 + 0x10000 * i) + 16, 8, 31⟩
/-- `CAN.DBTn.TSEG2` [15:8] RW (10 R375). -/
def F.CAN_DBT_TSEG2 (i : Nat) : Fld := ⟨32 * (0x10700014 + 0x10000 * i) + 8, 8, 8⟩
/-- `CAN.DBTn.SJW` [7:0] RW (10 R375). -/
def F.CAN_DBT_SJW (i : Nat) : Fld := ⟨32 * (0x10700014 + 0x10000 * i) + 0, 8, 8⟩
/-- `CAN.XBTn.BRP` [31:24] RW (10 R375). -/
def F.CAN_XBT_BRP (i : Nat) : Fld := ⟨32 * (0x10700018 + 0x10000 * i) + 24, 8, 0⟩
/-- `CAN.XBTn.TSEG1` [23:16] RW (10 R375). -/
def F.CAN_XBT_TSEG1 (i : Nat) : Fld := ⟨32 * (0x10700018 + 0x10000 * i) + 16, 8, 5⟩
/-- `CAN.XBTn.TSEG2` [15:8] RW (10 R375). -/
def F.CAN_XBT_TSEG2 (i : Nat) : Fld := ⟨32 * (0x10700018 + 0x10000 * i) + 8, 8, 2⟩
/-- `CAN.XBTn.SJW` [7:0] RW (10 R375). -/
def F.CAN_XBT_SJW (i : Nat) : Fld := ⟨32 * (0x10700018 + 0x10000 * i) + 0, 8, 2⟩
/-- `CAN.TDCn.TDCO_X` [15:8] RW (10 R375). -/
def F.CAN_TDC_TDCO_X (i : Nat) : Fld := ⟨32 * (0x1070001C + 0x10000 * i) + 8, 8, 0⟩
/-- `CAN.TDCn.TDCO_F` [7:0] RW (10 R375). -/
def F.CAN_TDC_TDCO_F (i : Nat) : Fld := ⟨32 * (0x1070001C + 0x10000 * i) + 0, 8, 0⟩
/-- `CAN.SNAPn.FREE` [26:18] RO (10 R375). -/
def F.CAN_SNAP_FREE (i : Nat) : Fld := ⟨32 * (0x10700020 + 0x10000 * i) + 18, 9, 0⟩
/-- `CAN.SNAPn.DELIVERED` [17:9] RO (10 R375). -/
def F.CAN_SNAP_DELIVERED (i : Nat) : Fld := ⟨32 * (0x10700020 + 0x10000 * i) + 9, 9, 0⟩
/-- `CAN.SNAPn.RETURNING` [8:0] RO (10 R375). -/
def F.CAN_SNAP_RETURNING (i : Nat) : Fld := ⟨32 * (0x10700020 + 0x10000 * i) + 0, 9, 0⟩
/-- `CAN.CLASHn.VALID` [31:31] W1C (10 R375). -/
def F.CAN_CLASH_VALID (i : Nat) : Fld := ⟨32 * (0x10700024 + 0x10000 * i) + 31, 1, 0⟩
/-- `CAN.CLASHn.IDE` [30:30] RO (10 R375). -/
def F.CAN_CLASH_IDE (i : Nat) : Fld := ⟨32 * (0x10700024 + 0x10000 * i) + 30, 1, 0⟩
/-- `CAN.CLASHn.ID` [28:0] RO (10 R375). -/
def F.CAN_CLASH_ID (i : Nat) : Fld := ⟨32 * (0x10700024 + 0x10000 * i) + 0, 29, 0⟩
/-- `CAN.CNTn.COUNT` [31:0] RO (10 R375). -/
def F.CAN_CNT_COUNT (i j : Nat) : Fld := ⟨32 * (0x10700030 + 0x10000 * i + 0x4 * j) + 0, 32, 0⟩
/-- `CAN.FLT_IDn.EN` [31:31] RW (10 R375). -/
def F.CAN_FLT_ID_EN (i j : Nat) : Fld := ⟨32 * (0x10700100 + 0x10000 * i + 0x8 * j) + 31, 1, 0⟩
/-- `CAN.FLT_IDn.IDE` [30:30] RW (10 R375). -/
def F.CAN_FLT_ID_IDE (i j : Nat) : Fld := ⟨32 * (0x10700100 + 0x10000 * i + 0x8 * j) + 30, 1, 0⟩
/-- `CAN.FLT_IDn.ID` [28:0] RW (10 R375). -/
def F.CAN_FLT_ID_ID (i j : Nat) : Fld := ⟨32 * (0x10700100 + 0x10000 * i + 0x8 * j) + 0, 29, 0⟩
/-- `CAN.FLT_MASKn.KIND` [31:30] RW (10 R375). -/
def F.CAN_FLT_MASK_KIND (i j : Nat) : Fld := ⟨32 * (0x10700104 + 0x10000 * i + 0x8 * j) + 30, 2, 0⟩
/-- `CAN.FLT_MASKn.MASK` [28:0] RW (10 R375). -/
def F.CAN_FLT_MASK_MASK (i j : Nat) : Fld := ⟨32 * (0x10700104 + 0x10000 * i + 0x8 * j) + 0, 29, 0⟩
/-- `MVB.CTRLn.EN` [31:31] RW (10 R376). -/
def F.MVB_CTRL_EN (i : Nat) : Fld := ⟨32 * (0x10780000 + 0x10000 * i) + 31, 1, 0⟩
/-- `MVB.CTRLn.ADMIN` [30:30] RW (10 R376). -/
def F.MVB_CTRL_ADMIN (i : Nat) : Fld := ⟨32 * (0x10780000 + 0x10000 * i) + 30, 1, 0⟩
/-- `MVB.CTRLn.LINE_A` [29:29] RW (10 R376). -/
def F.MVB_CTRL_LINE_A (i : Nat) : Fld := ⟨32 * (0x10780000 + 0x10000 * i) + 29, 1, 1⟩
/-- `MVB.CTRLn.LINE_B` [28:28] RW (10 R376). -/
def F.MVB_CTRL_LINE_B (i : Nat) : Fld := ⟨32 * (0x10780000 + 0x10000 * i) + 28, 1, 1⟩
/-- `MVB.CTRLn.DEVADDR` [11:0] RW (10 R376). -/
def F.MVB_CTRL_DEVADDR (i : Nat) : Fld := ⟨32 * (0x10780000 + 0x10000 * i) + 0, 12, 0⟩
/-- `MVB.ADMINn.MACRO` [4:1] RW (10 R376). -/
def F.MVB_ADMIN_MACRO (i : Nat) : Fld := ⟨32 * (0x10780004 + 0x10000 * i) + 1, 4, 10⟩
/-- `MVB.ADMINn.BASIC` [0:0] RW (10 R376). -/
def F.MVB_ADMIN_BASIC (i : Nat) : Fld := ⟨32 * (0x10780004 + 0x10000 * i) + 0, 1, 0⟩
/-- `MVB.STATUSn.STATE` [31:28] RO (10 R376). -/
def F.MVB_STATUS_STATE (i : Nat) : Fld := ⟨32 * (0x10780008 + 0x10000 * i) + 28, 4, 0⟩
/-- `MVB.STATUSn.CONFLICT` [27:27] W1C (10 R376). -/
def F.MVB_STATUS_CONFLICT (i : Nat) : Fld := ⟨32 * (0x10780008 + 0x10000 * i) + 27, 1, 0⟩
/-- `MVB.STATUSn.LINE_A_OK` [26:26] RO (10 R376). -/
def F.MVB_STATUS_LINE_A_OK (i : Nat) : Fld := ⟨32 * (0x10780008 + 0x10000 * i) + 26, 1, 0⟩
/-- `MVB.STATUSn.LINE_B_OK` [25:25] RO (10 R376). -/
def F.MVB_STATUS_LINE_B_OK (i : Nat) : Fld := ⟨32 * (0x10780008 + 0x10000 * i) + 25, 1, 0⟩
/-- `MVB.STATUSn.RX_LINE` [24:24] RO (10 R376). -/
def F.MVB_STATUS_RX_LINE (i : Nat) : Fld := ⟨32 * (0x10780008 + 0x10000 * i) + 24, 1, 0⟩
/-- `MVB.QUEUESn.DELIVERED` [16:8] RO (10 R376). -/
def F.MVB_QUEUES_DELIVERED (i : Nat) : Fld := ⟨32 * (0x1078000C + 0x10000 * i) + 8, 9, 0⟩
/-- `MVB.QUEUESn.HELD` [7:0] RO (10 R376). -/
def F.MVB_QUEUES_HELD (i : Nat) : Fld := ⟨32 * (0x1078000C + 0x10000 * i) + 0, 8, 0⟩
/-- `MVB.SNAPn.FREE` [26:18] RO (10 R376). -/
def F.MVB_SNAP_FREE (i : Nat) : Fld := ⟨32 * (0x10780010 + 0x10000 * i) + 18, 9, 0⟩
/-- `MVB.SNAPn.DELIVERED` [17:9] RO (10 R376). -/
def F.MVB_SNAP_DELIVERED (i : Nat) : Fld := ⟨32 * (0x10780010 + 0x10000 * i) + 9, 9, 0⟩
/-- `MVB.SNAPn.RETURNING` [8:0] RO (10 R376). -/
def F.MVB_SNAP_RETURNING (i : Nat) : Fld := ⟨32 * (0x10780010 + 0x10000 * i) + 0, 9, 0⟩
/-- `MVB.CNTn.COUNT` [31:0] RO (10 R376). -/
def F.MVB_CNT_COUNT (i j : Nat) : Fld := ⟨32 * (0x10780020 + 0x10000 * i + 0x4 * j) + 0, 32, 0⟩
/-- `MVB.PORTn.EN` [31:31] RW (10 R376). -/
def F.MVB_PORT_EN (i j : Nat) : Fld := ⟨32 * (0x10780100 + 0x10000 * i + 0x4 * j) + 31, 1, 0⟩
/-- `MVB.PORTn.DIR` [30:29] RW (10 R376). -/
def F.MVB_PORT_DIR (i j : Nat) : Fld := ⟨32 * (0x10780100 + 0x10000 * i + 0x4 * j) + 29, 2, 0⟩
/-- `MVB.PORTn.ONCHANGE` [28:28] RW (10 R376). -/
def F.MVB_PORT_ONCHANGE (i j : Nat) : Fld := ⟨32 * (0x10780100 + 0x10000 * i + 0x4 * j) + 28, 1, 0⟩
/-- `MVB.PORTn.POLL` [27:24] RW (10 R376). -/
def F.MVB_PORT_POLL (i j : Nat) : Fld := ⟨32 * (0x10780100 + 0x10000 * i + 0x4 * j) + 24, 4, 0⟩
/-- `MVB.PORTn.FCODE` [19:16] RW (10 R376). -/
def F.MVB_PORT_FCODE (i j : Nat) : Fld := ⟨32 * (0x10780100 + 0x10000 * i + 0x4 * j) + 16, 4, 0⟩
/-- `MVB.PORTn.ADDR` [11:0] RW (10 R376). -/
def F.MVB_PORT_ADDR (i j : Nat) : Fld := ⟨32 * (0x10780100 + 0x10000 * i + 0x4 * j) + 0, 12, 0⟩
/-- `HST.IRQ_PENDn.PEND` [31:0] RO (14 R506). -/
def F.HST_IRQ_PEND_PEND (i : Nat) : Fld := ⟨32 * (0x10800020 + 0x4 * i) + 0, 32, 0⟩
/-- `HST.IRQ_SRCn.EN` [31:31] RW (14 R506). -/
def F.HST_IRQ_SRC_EN (i : Nat) : Fld := ⟨32 * (0x10800100 + 0x4 * i) + 31, 1, 0⟩
/-- `HST.IRQ_SRCn.VECTOR` [5:0] RW (14 R506). -/
def F.HST_IRQ_SRC_VECTOR (i : Nat) : Fld := ⟨32 * (0x10800100 + 0x4 * i) + 0, 6, 0⟩
/-- `HST.SNAP_TXn.NODE` [28:16] RO (14 R506). -/
def F.HST_SNAP_TX_NODE (i : Nat) : Fld := ⟨32 * (0x10800800 + 0x4 * i) + 16, 13, 0⟩
/-- `HST.SNAP_TXn.HOST` [12:0] RO (14 R506). -/
def F.HST_SNAP_TX_HOST (i : Nat) : Fld := ⟨32 * (0x10800800 + 0x4 * i) + 0, 13, 0⟩
/-- `HST.SNAP_RXn.NODE` [28:16] RO (14 R506). -/
def F.HST_SNAP_RX_NODE (i : Nat) : Fld := ⟨32 * (0x10800840 + 0x4 * i) + 16, 13, 0⟩
/-- `HST.SNAP_RXn.HOST` [12:0] RO (14 R506). -/
def F.HST_SNAP_RX_HOST (i : Nat) : Fld := ⟨32 * (0x10800840 + 0x4 * i) + 0, 13, 0⟩
/-- `HST.TXBASE_LOn.ADDR` [31:12] RW (05 R188). -/
def F.HST_TXBASE_LO_ADDR (i : Nat) : Fld := ⟨32 * (0x10801000 + 0x20 * i) + 12, 20, 0⟩
/-- `HST.TXBASE_LOn.LOW` [11:0] RO (05 R188). -/
def F.HST_TXBASE_LO_LOW (i : Nat) : Fld := ⟨32 * (0x10801000 + 0x20 * i) + 0, 12, 0⟩
/-- `HST.TXBASE_HIn.ADDR` [31:0] RW (05 R188). -/
def F.HST_TXBASE_HI_ADDR (i : Nat) : Fld := ⟨32 * (0x10801004 + 0x20 * i) + 0, 32, 0⟩
/-- `HST.TXCTRLn.EN` [31:31] RW (05 R188). -/
def F.HST_TXCTRL_EN (i : Nat) : Fld := ⟨32 * (0x10801008 + 0x20 * i) + 31, 1, 0⟩
/-- `HST.TXCTRLn.ACCEPT_OVS` [30:30] RO (05 R188). -/
def F.HST_TXCTRL_ACCEPT_OVS (i : Nat) : Fld := ⟨32 * (0x10801008 + 0x20 * i) + 30, 1, 0⟩
/-- `HST.TXCTRLn.SIZE` [3:0] RW (05 R188). -/
def F.HST_TXCTRL_SIZE (i : Nat) : Fld := ⟨32 * (0x10801008 + 0x20 * i) + 0, 4, 0⟩
/-- `HST.TXTAILn.INDEX` [11:0] RW (05 R188). -/
def F.HST_TXTAIL_INDEX (i : Nat) : Fld := ⟨32 * (0x1080100C + 0x20 * i) + 0, 12, 0⟩
/-- `HST.TXHEADn.INDEX` [11:0] RO (05 R188). -/
def F.HST_TXHEAD_INDEX (i : Nat) : Fld := ⟨32 * (0x10801010 + 0x20 * i) + 0, 12, 0⟩
/-- `HST.RXBASE_LOn.ADDR` [31:12] RW (05 R188). -/
def F.HST_RXBASE_LO_ADDR (i : Nat) : Fld := ⟨32 * (0x10801200 + 0x20 * i) + 12, 20, 0⟩
/-- `HST.RXBASE_LOn.LOW` [11:0] RO (05 R188). -/
def F.HST_RXBASE_LO_LOW (i : Nat) : Fld := ⟨32 * (0x10801200 + 0x20 * i) + 0, 12, 0⟩
/-- `HST.RXBASE_HIn.ADDR` [31:0] RW (05 R188). -/
def F.HST_RXBASE_HI_ADDR (i : Nat) : Fld := ⟨32 * (0x10801204 + 0x20 * i) + 0, 32, 0⟩
/-- `HST.RXCTRLn.EN` [31:31] RW (05 R188). -/
def F.HST_RXCTRL_EN (i : Nat) : Fld := ⟨32 * (0x10801208 + 0x20 * i) + 31, 1, 0⟩
/-- `HST.RXCTRLn.ACCEPT_OVS` [30:30] RW (05 R188). -/
def F.HST_RXCTRL_ACCEPT_OVS (i : Nat) : Fld := ⟨32 * (0x10801208 + 0x20 * i) + 30, 1, 0⟩
/-- `HST.RXCTRLn.SIZE` [3:0] RW (05 R188). -/
def F.HST_RXCTRL_SIZE (i : Nat) : Fld := ⟨32 * (0x10801208 + 0x20 * i) + 0, 4, 0⟩
/-- `HST.RXTAILn.INDEX` [11:0] RW (05 R188). -/
def F.HST_RXTAIL_INDEX (i : Nat) : Fld := ⟨32 * (0x1080120C + 0x20 * i) + 0, 12, 0⟩
/-- `HST.RXHEADn.INDEX` [11:0] RO (05 R188). -/
def F.HST_RXHEAD_INDEX (i : Nat) : Fld := ⟨32 * (0x10801210 + 0x20 * i) + 0, 12, 0⟩
/-- `SC.CTRLn.CLR_PEAK` [2:2] WO (03 R118). -/
def F.SC_CTRL_CLR_PEAK (i : Nat) : Fld := ⟨32 * (engBase i + 0x0) + 2, 1, 0⟩
/-- `SC.CTRLn.HOLD` [1:1] RW (03 R118). -/
def F.SC_CTRL_HOLD (i : Nat) : Fld := ⟨32 * (engBase i + 0x0) + 1, 1, 0⟩
/-- `SC.CTRLn.RUN` [0:0] RW (03 R118). -/
def F.SC_CTRL_RUN (i : Nat) : Fld := ⟨32 * (engBase i + 0x0) + 0, 1, 0⟩
/-- `SC.STATUSn.STATE` [31:28] RO (03 R118). -/
def F.SC_STATUS_STATE (i : Nat) : Fld := ⟨32 * (engBase i + 0x4) + 28, 4, 0⟩
/-- `SC.STATUSn.TRIGGER` [27:22] RO (03 R118). -/
def F.SC_STATUS_TRIGGER (i : Nat) : Fld := ⟨32 * (engBase i + 0x4) + 22, 6, 0⟩
/-- `SC.STATUSn.SLOT` [20:16] RO (03 R118). -/
def F.SC_STATUS_SLOT (i : Nat) : Fld := ⟨32 * (engBase i + 0x4) + 16, 5, 31⟩
/-- `SC.STATUSn.PC` [15:0] RO (03 R118). -/
def F.SC_STATUS_PC (i : Nat) : Fld := ⟨32 * (engBase i + 0x4) + 0, 16, 0⟩
/-- `SC.EXCn.VALID` [31:31] W1C (03 R118). -/
def F.SC_EXC_VALID (i : Nat) : Fld := ⟨32 * (engBase i + 0x8) + 31, 1, 0⟩
/-- `SC.EXCn.CODE` [30:27] RO (03 R118). -/
def F.SC_EXC_CODE (i : Nat) : Fld := ⟨32 * (engBase i + 0x8) + 27, 4, 0⟩
/-- `SC.EXCn.TRIGGER` [26:21] RO (03 R118). -/
def F.SC_EXC_TRIGGER (i : Nat) : Fld := ⟨32 * (engBase i + 0x8) + 21, 6, 0⟩
/-- `SC.EXCn.PC` [15:0] RO (03 R118). -/
def F.SC_EXC_PC (i : Nat) : Fld := ⟨32 * (engBase i + 0x8) + 0, 16, 0⟩
/-- `SC.ABORTSn.COUNT` [31:0] RO (03 R118). -/
def F.SC_ABORTS_COUNT (i : Nat) : Fld := ⟨32 * (engBase i + 0xC) + 0, 32, 0⟩
/-- `SC.OVERRUNn.TRIG` [31:0] W1C (03 R118). -/
def F.SC_OVERRUN_TRIG (i j : Nat) : Fld := ⟨32 * (engBase i + 0x10 + 0x4 * j) + 0, 32, 0⟩
/-- `SC.PEAKn.TRIGGER` [31:26] RO (03 R118). -/
def F.SC_PEAK_TRIGGER (i : Nat) : Fld := ⟨32 * (engBase i + 0x18) + 26, 6, 0⟩
/-- `SC.PEAKn.CYCLES` [19:0] RO (03 R118). -/
def F.SC_PEAK_CYCLES (i : Nat) : Fld := ⟨32 * (engBase i + 0x18) + 0, 20, 0⟩
/-- `SC.DOORBELLn.RING` [0:0] WO (03 R118). -/
def F.SC_DOORBELL_RING (i : Nat) : Fld := ⟨32 * (engBase i + 0x1C) + 0, 1, 0⟩
/-- `SC.DROPSn.STALE_WR` [31:16] RO (03 R118). -/
def F.SC_DROPS_STALE_WR (i : Nat) : Fld := ⟨32 * (engBase i + 0x20) + 16, 16, 0⟩
/-- `SC.DROPSn.ABORT_DROP` [15:0] RO (03 R118). -/
def F.SC_DROPS_ABORT_DROP (i : Nat) : Fld := ⟨32 * (engBase i + 0x20) + 0, 16, 0⟩
/-- `SC.TIMERMISSn.COUNT` [31:0] RO (03 R118). -/
def F.SC_TIMERMISS_COUNT (i : Nat) : Fld := ⟨32 * (engBase i + 0x24) + 0, 32, 0⟩

end Sys2Proof
end

