-- ==== Sys2Proof/Machine/State.lean ====
section
/-! DEFINITION. The state of the node: plain data, in sub-structures by unit. Registers live in `regs`, keyed by the field constants of RegMap (an unlisted field holds its reset value); memories live in `mem` as bytes at Ibsum addresses. -/

namespace Sys2Proof.Machine

open Sys2Proof

/-- Node states (13 R452). -/
inductive Mode where
  | off | boot | coldStandby | drill | active | stabled | updating | faulted
deriving DecidableEq, Repr

/-- What start-up waits for inside BOOT (12 R407, R410; 15 R515). -/
inductive BootWait where
  | none | claim | overtemp
deriving DecidableEq, Repr

/-- What one engine is doing (03 R118 STATE). -/
inductive EPhase where
  | idle | running | releasing
deriving DecidableEq, Repr

/-- A trigger table entry (05 R164, 03 R89). -/
structure Trig where
  en : Bool := false
  prio : Nat := 0
  kind : Nat := 0
  src : Nat := 0
  entry : Nat := 0
  budget : Nat := 0
  period : Nat := 0
  phase : Nat := 0
deriving DecidableEq, Repr

/-- An input an activation holds or has held: receive header and data (03 R83), the stored frame or field-bus entry behind it, and whether a DROP disposed of it (04 R145). -/
structure Input where
  src : Nat := 0
  fid : Nat := 0
  chan : Nat := 0
  eid : Nat := 0
  hdr : List Byte := []
  data : List Byte := []
  dropped : Bool := false
deriving DecidableEq, Repr

/-- An open loop (04 R154). -/
structure Loop where
  body : Nat := 0
  last : Nat := 0
  left : Nat := 0
deriving DecidableEq, Repr

/-- A frame closed by EMIT or LAUNCH (04 R140-R144); `bad`: a cell of it holds an uncorrectable error (02 R68). -/
structure TxClosed where
  hdr : List Byte := []
  data : List Byte := []
  cells : List Nat := []
  launch : Option Nat := none
  canEpoch : Nat := 0
  bad : Bool := false
deriving DecidableEq, Repr

/-- The held outputs of an activation (03 R95). -/
inductive Held where
  | sts (slot : Nat) (val : W64) (v : Bool) (rng : Nat) (sat : Bool)
  | mbox (parts : List (Nat × Nat × Nat))
  | tblWr (t idx : Nat) (ws : List Nat)
  | tblIns (t idx key : Nat) (ws : List Nat)
  | tblDel (t idx : Nat)
  | frame (f : TxClosed)
  | forward (fid stream : Nat)
  | dropHeld (src stream : Nat)
  | dropTx
  | signal (target flag : Nat)
  | topoCand (idx : Nat) (ws : List Nat)
  | topoAgree (phase epoch : Nat)
  | topoCommit (epoch sec ns : Nat)
  | topoCancel
  | topoNewep
  | topoAccept
deriving DecidableEq, Repr

/-- The running activation of an engine: registers and everything that does not outlive it (03 R76-R106, 04 R133, R140); `txBad`: a cell of the transmit area holds an uncorrectable error (02 R68). -/
structure Act where
  g : FMap W64 := []
  preds : Nat := 1
  pc : Nat := 0
  ep : Nat := 0
  trig : Nat := 0
  budget : Nat := 0
  cyc : Nat := 0
  ntcap : Nat := 0
  fresh : Nat := 0
  rng : Nat := 3
  sat : Bool := false
  loops : List Loop := []
  stack : List Nat := []
  input : Option Input := none
  taken : List Input := []
  outs : List Held := []
  tx : FMap Byte := []
  txCells : List Nat := []
  short : Bool := false
  txBad : Bool := false
  backCells : List Nat := []
  nobuf : Nat := 0
  nrx : Nat := 0
deriving DecidableEq, Repr

/-- One engine: 0 to 17 the Scarab engines, 18 the topology engine. `timerAt`: the instant a timer fired last, as one more than its microsecond, and how often node time had been moved by then (03 R91). -/
structure Eng where
  phase : EPhase := .idle
  trigs : FMap Trig := []
  fired : FMap Nat := []
  timerAt : FMap (Nat × Nat) := []
  prevEpoch : Nat := 0
  flags : Nat := 0
  act : Act := {}
  ownerWr : List (Nat × Nat) := []
  moving : Bool := false
deriving DecidableEq, Repr

/-- A table of the image (05 R165). -/
structure TabDef where
  num : Nat := 0
  hashed : Bool := false
  kw : Nat := 0
  n : Nat := 0
  entries : Nat := 0
  base : Nat := 0
  dbl : Bool := false
deriving DecidableEq, Repr

/-- A buffer bank: free and returning cells (06 R222). Its STATE and error counts are register fields. -/
structure Bank where
  free : Nat := 0
  returning : Nat := 0
deriving DecidableEq, Repr

/-- A stored frame with its buffer record (06 R219, R221); `left`: by stream context, the copies queued of which none has been delivered (06 R200 DISCARDS). -/
structure Frame where
  data : List Byte := []
  ingress : Nat := 0
  stream : Nat := 0
  cls : Nat := 0
  stamp : Nat := 0
  oversize : Bool := false
  tci : Option Nat := none
  rseq : Option Nat := none
  ts : Nat := 0
  cells : List Nat := []
  refs : Nat := 0
  bad : Bool := false
  topo : Bool := false
  left : FMap Nat := []
deriving DecidableEq, Repr

/-- One destination's hold on a stored frame: the stream context and class it is sent under, its epoch stamp, the generated sequence number (06 R208), the launch time (09 R336) and whether its slot was taken less than 2 µs before it (09 R337). -/
structure Copy where
  fid : Nat := 0
  stream : Nat := 0
  cls : Nat := 0
  stamp : Nat := 0
  gseq : Option Nat := none
  launch : Option Nat := none
  soon : Bool := false
deriving DecidableEq, Repr

/-- The transmit descriptor a frame from P20 came from, until its write-back (05 R186, 09 R342). -/
structure Desc where
  ring : Nat := 0
  idx : Nat := 0
  bytes : List Byte := []
  fid : Nat := 0
  port : Nat := 0
  sent : Bool := false
  late : Bool := false
  lost : Bool := false
  inv : Bool := false
  stamp : Option Nat := none
deriving DecidableEq, Repr

/-- The cell buffer, queues and host frames (06): `ueAt` the banks and times of uncorrectable errors of the last 24 h (06 R224), `moving` that the cells left in the draining bank are being moved (06 R226). -/
structure Fab where
  banks : FMap Bank := []
  frames : FMap Frame := []
  nextFid : Nat := 1
  egress : FMap (List Copy) := []
  engq : FMap (List Copy) := []
  hostq : FMap (List Copy) := []
  launches : FMap (List Copy) := []
  descs : List Desc := []
  buckets : FMap (Nat × Nat) := []
  drainCells : Nat := 0
  drainWait : List Nat := []
  moving : Bool := false
  ueAt : List (Nat × Nat) := []
  freezing : Bool := false
deriving DecidableEq, Repr

/-- A gear shift being negotiated or in silence (07 R262-R264). -/
structure Shift where
  gear : Nat := 0
  start : Nat := 0
  mine : Bool := false
  acked : Bool := false
  silent : Bool := false
  quality : Bool := false
  owner : Bool := false
  tries : Nat := 0
deriving DecidableEq, Repr

/-- A frame the node itself originates, or a PTP message by its kind and values (09). -/
inductive OwnFrame where
  | bytes (b : List Byte)
  | ptp (kind : Nat) (vals : List Int)
deriving DecidableEq, Repr

/-- What one port's MAC and PHY hold beside their registers (07). `txAt`: TIM cycle in which the fragment in progress started; `txDone`, `suspDone`: bytes of the frame in progress, of the suspended one, sent in earlier fragments (07 R239); `wanted`: the owner's gear, requested while another shift was agreed (07 R260); `eee`: the partner has agreed to energy-efficient Ethernet (07 R247); `own`: frames of the node's own that wait for the transmitter (07 R248, R263); `relayQ`, `relayAt`: chain-relay frames that wait for their turn in class 0, and the TIM cycle from which the rate allows the next (13 R470); `dsp`, `coef`: the microcode written to a backbone PHY and its channel coefficients at the present gear (05 R171; 12 R423). -/
structure Port where
  tx : Option Copy := none
  txBytes : List Byte := []
  txAt : Nat := 0
  txDone : Nat := 0
  susp : Option Copy := none
  suspBytes : List Byte := []
  suspDone : Nat := 0
  eee : Bool := false
  pfcSent : Nat := 0
  pauseT : FMap Nat := []
  verify : Nat := 0
  deficit : FMap Nat := []
  tsHost : Nat := 0
  shift : Option Shift := none
  lastDown : Nat := 0
  capN : Nat := 0
  capGot : Bool := false
  wanted : Option Nat := none
  mark : Option (List Byte) := none
  own : List OwnFrame := []
  relayQ : List (List Byte) := []
  relayAt : Nat := 0
  dsp : List Byte := []
  coef : List Byte := []
deriving DecidableEq, Repr

/-- The topology frame unit's view of one backbone port (08 R281); `rxEpoch`, `rxPrev`: the epoch in force on its receive side, and the one before it (08 R298). -/
structure TopPort where
  hello : List Byte := []
  valid : Bool := false
  rxEpoch : Nat := 0
  rxPrev : Nat := 0
  marked : Bool := false
  stale : Bool := false
  tn7 : Bool := false
  recVid : List Byte := []
  recNode : Nat := 0
  recPos : Nat := 0
  recSet : Bool := false
deriving DecidableEq, Repr

/-- A flooded frame a node holds in a round (08 R285, R290): sender and body. -/
structure Flood where
  sender : Nat := 0
  body : List Byte := []
deriving DecidableEq, Repr

/-- A scheduled commit (08 R292): epoch, T_commit in node time, and as a count of TIM cycles. -/
structure Sched where
  epoch : Nat := 0
  time : Nat := 0
  count : Nat := 0
deriving DecidableEq, Repr

/-- The frame unit of the topology engine (08 R274), and whether the node has fallen below L2 since its last commit (01 R43). `seen`: flooded frames delivered, `relayed`: those relayed, by line (08 R279); `takenOver`: the node took over without the agreement checkpoint of a commit that may have been scheduled (08 R307, R311). -/
structure Inaug where
  round : Nat := 0
  openR : Bool := false
  start : Nat := 0
  reports : List Flood := []
  proposes : List Flood := []
  confirms : List Flood := []
  seen : List (Nat × Nat × Nat × Nat) := []
  relayed : List (Nat × Nat × Nat × Nat × Nat) := []
  takenOver : Bool := false
  cands : FMap (List Nat) := []
  dir : FMap Nat := []
  dirCount : Nat := 0
  dirEpoch : Nat := 0
  dirDigest : Nat := 0
  oldDigest : Nat := 0
  proposed : Bool := false
  confirmed : Bool := false
  sched : Option Sched := none
  dirHeld : Bool := false
  graceEnd : Option Nat := none
  lastCommit : Nat := 0
  ports : FMap TopPort := []
  ttdpCnt : Nat := 0
  l1Hold : Bool := false
  waiting : Bool := false
  ended : Bool := false
  late : Bool := false
  lastSet : List Nat := []
  agreed : Nat := 0
  lostL2 : Bool := false
deriving DecidableEq, Repr

/-- One PTP port (09 R321-R333): `ratio` the neighbour rate ratio less 1, in 2^-41, `ratioRef` the transmit and receive times of the last response it was taken from (09 R325), `syncDue` that the Sync of the last link-up is still to be sent, `again` the freshness microsecond of the repeated Pdelay_Req (09 R324). -/
structure PtpPort where
  syncRx : Option (Nat × Nat) := none
  syncTlv : Option (Int × Nat) := none
  reqSeq : Nat := 0
  reqT1 : Option Nat := none
  unanswered : Nat := 0
  responses : Nat := 0
  ann : Option PtpMsg := none
  txSeq : Nat := 0
  delay : Int := 0
  ratio : Int := 0
  ratioRef : Option (Int × Nat) := none
  syncDue : Bool := false
  again : Option Nat := none
deriving DecidableEq, Repr

/-- Clocks and the time unit (09; 03 R87). `moves` counts the changes of node time that the servo does not make (09 R334). Times in 2^-16 ns, servo values in 1/256 ppb; `sub` and `slew` in 2^-16 ns over 256 * 10^9. -/
structure Clock where
  now : Nat := 0
  sub : Int := 0
  cycles : Nat := 0
  fresh : Nat := 0
  freshSub : Nat := 0
  integ : Int := 0
  out : Int := 0
  held : Option (Nat × Int) := none
  small : Nat := 0
  gm : Nat := 0
  gmBefore : Nat := 0
  holdAt : Nat := 0
  tlv : Option (Int × Nat) := none
  stepSeq : Nat := 0
  moves : Nat := 0
  slew : Int := 0
  stepAt : Nat := 0
  ports : FMap PtpPort := []
deriving DecidableEq, Repr

/-- A CAN transmit entry (10 R359-R367): `trying` its attempt is known to be on the bus (R360), `flush` it is removed when that attempt ends (R362). -/
structure CanTx where
  fr : CanFrame := {}
  cells : List Nat := []
  clash : Nat := 0
  trying : Bool := false
  flush : Bool := false
deriving DecidableEq, Repr

/-- A delivered field-bus entry (10 R350): CAN frame or MVB port data with address and F-code. -/
structure FbEntry where
  id : Nat := 0
  fr : CanFrame := {}
  addr : Nat := 0
  fcode : Nat := 0
  data : List Byte := []
  epoch : Nat := 0
  cells : List Nat := []
  held : Bool := false
deriving DecidableEq, Repr

/-- A field-bus channel, 0-7 CAN, 8-9 MVB. `joining`: a CAN channel integrates into its bus (10 R375); `basic`, `periodAt`, `lineAt`: the next basic period, and the TIM cycles in which the present one began and in which the MVB line is free again (10 R372). -/
structure Chan where
  txq : List CanTx := []
  rx : List FbEntry := []
  returning : Nat := 0
  nextId : Nat := 1
  busOff : Bool := false
  recovering : Bool := false
  joining : Bool := false
  enGen : Nat := 0
  src : FMap (List Byte) := []
  srcCells : FMap (List Nat) := []
  lastSink : FMap (List Byte) := []
  poll : Option (Nat × Nat) := none
  pollq : List (Nat × Nat) := []
  basic : Nat := 0
  periodAt : Nat := 0
  lineAt : Nat := 0
  conflict : Bool := false
deriving DecidableEq, Repr

/-- What a bridge tag is used for (11 R387, R395), with the far node its message went to. -/
structure Tag where
  gen : Nat := 0
  busy : Bool := false
  kind : Nat := 0
  win : Nat := 0
  addr : Nat := 0
  epoch : Nat := 0
  node : Nat := 0
  master : Master := {}
deriving DecidableEq, Repr

/-- A prefetched line (11 R397): window, far node, far line address, 64 bytes, words read. -/
structure Line where
  win : Nat := 0
  node : Nat := 0
  addr : Nat := 0
  data : List Byte := []
  readMask : Nat := 0
deriving DecidableEq, Repr

/-- A write stream tracked at the far node (11 R391): initiator and window, next sequence, held writes (sequence, message). -/
structure WStream where
  node : Nat := 0
  win : Nat := 0
  next : Nat := 0
  held : List (Nat × List Byte) := []
deriving DecidableEq, Repr

/-- A request of a master that waits at the ownership arbiter (11 R396). -/
structure Access where
  m : Master := {}
  addr : Nat := 0
  size : Nat := 4
  wr : Bool := false
  value : Nat := 0
deriving DecidableEq, Repr

/-- The bridge beside its registers (11): `waiting` requests that wait for a tag, `wrote` the windows that have issued a write, `lines` and `streams` with the least recently used first, `inRaw` the payloads of bridge datagrams recognised at P20 and P22, `inq` and `heldReq` the requests that wait, each with its ingress port (R382, R466), `lock` the far lock held here as (initiator, window, tag), `farAddr` its word. -/
structure Brg where
  tags : FMap Tag := []
  waiting : List Tag := []
  wrote : List Nat := []
  lines : List Line := []
  streams : List WStream := []
  inRaw : List (Nat × List Byte) := []
  inq : List (Nat × List Byte) := []
  heldReq : List (Nat × List Byte) := []
  lock : Option (Nat × Nat × Nat) := none
  lockAddr : Nat := 0
  farAddr : Nat := 0
  lockWin : Option Nat := none
  stalled : List Access := []
deriving DecidableEq, Repr

/-- A dataset definition (11 R401) and the last acceptance. -/
structure Dataset where
  flags : Nat := 0
  engine : Nat := 0
  vslot : Nat := 0
  comid : Nat := 0
  length : Nat := 0
  ttl : Nat := 0
  dscp : Nat := 0
  addr : Nat := 0
  timeout : Nat := 0
  accAt : Option Nat := none
  accSrc : Nat := 0
deriving DecidableEq, Repr

/-- One heartbeat path (12 R416): first and highest SEQ, silent periods in a row. -/
structure Path where
  first : Option Nat := none
  high : Nat := 0
  silent : Nat := 0
deriving DecidableEq, Repr

/-- Mantis' pair functions beside their registers (12): the strap and the effective position after a clash, the heartbeat content written last, heartbeat paths, the partner and its last heartbeat with its time and SEQ on the Cicada link, checkpoints held (newest first), rejected and partly received, the agreement checkpoint, the takeover set, the checkpoint being streamed (SEQ, capture), a switch-back in progress, periods of stabling heartbeats left, the drill results, the relay drives recorded in MRAM, a takeover that is due, a lost partner, transmission times by SEQ, the failed node's identifier (R436), that the last heartbeat's CLAIM flag disagreed with the claim line (`mism`, R440), the WCH cycle in which the own claim was asserted (`claimAt`, R409), the backbone ports whose relays have closed since their links came up (`cut`, 07 R266), and, of a node that has withdrawn its claim from a tie of equal positions, whether a heartbeat has come since (`tied`, R410); the checkpoint being captured and the logical slots it waits for (R425), the agreement checkpoint partly received (R428), the freshness time of t0 while the gap of a takeover lasts (R431), consist links held in low-power idle by port with their rate codes (R408), a self-test finding since the last node restart (R440), a first drill that is due (R441). -/
structure Pair where
  strap : Nat := 0
  effA : Option Bool := none
  content : List Byte := []
  seq : Nat := 0
  paths : FMap Path := []
  partner : Option Nat := none
  lastHb : List Byte := []
  rxTime : Nat := 0
  rxAt : Nat := 0
  ckpts : List Ckpt := []
  rejected : List Nat := []
  part : Option (Nat × Nat) := none
  rxHdrAt : FMap Nat := []
  agree : Option Agree := none
  tset : List Byte := []
  sending : Option (Nat × Nat) := none
  nextCk : Nat := 1
  missedCk : Nat := 0
  switching : Option Nat := none
  switchFlag : Bool := false
  stabling : Nat := 0
  drillDone : Option Int := none
  drillFail : Bool := false
  everStandby : Bool := false
  lastDrive : FMap Bool := []
  armed : Bool := false
  lost : Bool := false
  mism : Bool := false
  claimAt : Nat := 0
  tied : Option Bool := none
  cut : List Nat := []
  sentT : List (Nat × Nat) := []
  oldIdent : Nat := 0
  capture : Option Ckpt := none
  capWait : List Nat := []
  agPart : Option (Nat × Nat) := none
  gapAt : Option Nat := none
  links : FMap Nat := []
  finding : Bool := false
  drillDue : Bool := false
deriving DecidableEq, Repr

/-- Fault staging and the flash log (13 R463-R465); `written`: records put into flash so far, which places the next one (13 R468, R480). -/
structure FaultLog where
  staged : List FaultRec := []
  flash : List FaultRec := []
  written : Nat := 0
  next : Nat := 0
  lost : Nat := 0
deriving DecidableEq, Repr

/-- Markers of the commit records (13 R468, R475, R477). -/
inductive CommitRec where
  | none | copy | confirm
deriving DecidableEq, Repr

/-- Chain relay toward one backbone port (13 R471): first block the partner lacks, next block to send, whether it answered, NAKs in a row for one block and that block; `got`: blocks came from this port. -/
structure Relay where
  acked : Nat := 0
  sent : Nat := 0
  started : Bool := false
  naks : Nat := 0
  nakOf : Nat := 0
  got : Bool := false
deriving DecidableEq, Repr

/-- Flash contents, the transfer area and the update unit (05, 13). Each slot has its copy on both devices; `place` tells where the blocks of the regions lie (13 R468), `lone` which regions one device alone serves, as 8 × the device that does not + the region's number (13 R480); `untried`: the image COMMIT wrote has not passed its check yet (13 R476). -/
structure Flash where
  main0 : List Byte := []
  main1 : List Byte := []
  fb0 : List Byte := []
  fb1 : List Byte := []
  mainFailed : Bool := false
  fbFailed : Bool := false
  xfer : FMap (List Byte) := []
  xferId : Nat := 0
  xferSize : Nat := 0
  frags : FMap (List Byte) := []
  crec : CommitRec := .none
  settings : List (List Byte) := []
  loader0 : List Byte := []
  loader1 : List Byte := []
  loaderSig0 : List Byte := []
  loaderSig1 : List Byte := []
  loaderCur : Nat := 0
  keys : FMap (List Byte) := []
  erases : FMap Nat := []
  retired : List Nat := []
  place : FMap Nat := []
  lone : List Nat := []
  untried : Bool := false
  busy : Nat := 0
  busyArg : Nat := 0
  work : List Byte := []
  placed : Bool := false
  relays : FMap Relay := []
deriving DecidableEq, Repr

/-- What one master's capturing read took, or the words it holds for one entry (00 R533). -/
structure Capture where
  key : Nat := 0
  block : Nat := 0
  addr : Nat := 0
  words : List (Nat × Nat) := []
deriving DecidableEq, Repr

/-- What the node has sent on its lines: the model's own record. `hostBack`: one posted write of a descriptor's bytes 08h to 1Fh whose byte 0Ch is not enabled, as bytes 08h to 0Bh and 0Dh to 1Fh (05 R185); `ckptBlock`: one block of a checkpoint, or of an agreement checkpoint, with its CRC-32C (12 R423, R428); `lines` of an MVB frame: 1 line A, 2 line B, 3 both (10 R368). -/
inductive Output where
  | frame (port : Nat) (bytes : List Byte)
  | heartbeat (path : Nat) (bytes : List Byte)
  | msix (vector : Nat)
  | resp (m : Master) (ok : Bool) (value : Nat)
  | hostWrite (addr : Nat) (bytes : List Byte)
  | hostBack (addr : Nat) (before after : List Byte)
  | can (ch : Nat) (f : CanFrame)
  | mvbMaster (ch lines fcode addr : Nat)
  | mvbSlave (ch lines : Nat) (bytes : List Byte)
  | oam (port kind : Nat) (vals : List Nat)
  | ptp (port kind : Nat) (vals : List Int)
  | ckptBlock (agree : Bool) (seq idx : Nat) (last : Bool) (bytes : List Byte)
  | cicadaBlock (k : Nat) (bytes : List Byte)
deriving DecidableEq, Repr

/-- The node: everything but the queue of waiting commands. -/
structure Node where
  mode : Mode := .off
  level : Nat := 0
  wait : BootWait := .none
  unpowered : Bool := false
  failed : List Res := []
  ident : Nat := 0
  regs : FMap Nat := []
  mem : List Host.Cell := []
  poison : List Nat := []
  caps : List Capture := []
  holds : List Capture := []
  results : FMap Nat := []
  leaseAt : Nat := 0
  settings : FMap (List Byte) := []
  clock : Clock := {}
  engs : FMap Eng := []
  staging : FMap (List Byte) := []
  tabs : List TabDef := []
  /-- The booted image is loaded in the data island (03 R71; 05 R171). -/
  loaded : Bool := false
  chanSlot : FMap Nat := []
  fab : Fab := {}
  ports : FMap Port := []
  cnt : FMap Nat := []
  delta : FMap Nat := []
  inaug : Inaug := {}
  chans : FMap Chan := []
  brg : Brg := {}
  datasets : FMap Dataset := []
  ipId : Nat := 0
  pair : Pair := {}
  log : FaultLog := {}
  flash : Flash := {}
  epochUnread : Bool := false
  updUnread : Bool := false
  out : List Output := []
  memCe : FMap Nat := []
  freeN : Nat := 0
deriving DecidableEq, Repr

/-- The state of the block: the commands that wait, first in first out, and the node. -/
structure State where
  pending : List Instr := []
  node : Node := {}
deriving DecidableEq, Repr

/-- Reasons for which the machine stops with a fault. -/
inductive Fault where
  /-- Raised by a register write that writes one to a reserved bit, whose effect the manual does not define (00 R10). Safe: nothing is claimed of the state after it. -/
  | reservedBit (addr : Nat)
deriving DecidableEq, Repr

/-- Reasons for which a command is refused. -/
inductive Refusal where
  /-- Raised by an arm of exec whose command has no meaning yet. Safe. -/
  | notModelled (mnemonic : String)
deriving DecidableEq, Repr

/-- The registers a factory module holds in module storage: banks 0 to 23 in service, 24 and 25 spare (06 R219, R231; DESIGN CHOICE, log entry 2). -/
def factoryRegs : FMap Nat := (List.range 24).map (fun b => ((F.FAB_BANK_STATE b).key, 1))

/-- The key programmed into slot 0 at manufacture (05 R159): the manual does not give its value; the model names the Ed25519 base point (DESIGN CHOICE, log entry 2). -/
def factoryKey : List Byte := 0x58 :: List.replicate 31 0x66

/-- The factory module before its first power-on: unpowered, state OFF, every other register at its reset value, no memory listed, key slot 0 programmed. -/
def State.reset : State := { node := { regs := factoryRegs, flash := { keys := [(0, factoryKey)] } } }

end Sys2Proof.Machine
end

