-- ==== Sys2Proof/Machine/Ops.lean ====
section
/-! DEFINITION. The named operations over the node: registers, memory, counters, fault records, claim and relays, service level, resets of the islands, and `settle`, which does at the end of every command what the manual ties to a change of state. -/

namespace Sys2Proof.Machine

open Sys2Proof

/-! ### Registers -/

/-- The value of a register field; an unlisted field holds its reset value. -/
def Node.rd (n : Node) (f : Fld) : Nat := FMap.get f.rst n.regs f.key

/-- Set a register field, to its width. -/
def Node.wr (n : Node) (f : Fld) (v : Nat) : Node :=
  { n with regs := FMap.put f.rst n.regs f.key (v % 2 ^ f.w) }

/-- A one-bit field as a Bool. -/
def Node.on (n : Node) (f : Fld) : Bool := n.rd f == 1

/-- Set or clear a one-bit field. -/
def Node.put (n : Node) (f : Fld) (b : Bool) : Node := n.wr f (b2n b)

/-- Count one in a saturating counter field. -/
def Node.inc (n : Node) (f : Fld) : Node := n.wr f (satInc f.w (n.rd f))

/-- Count one in a counter field that wraps. -/
def Node.bump (n : Node) (f : Fld) : Node := n.wr f (n.rd f + 1)

/-- Set several fields. -/
def Node.wrs (n : Node) (l : List (Fld × Nat)) : Node := l.foldl (fun a e => a.wr e.1 e.2) n

/-! ### Memory -/

/-- The byte at an Ibsum address; a byte nothing has written reads 00h (log entry 3). -/
def memRead (m : List Host.Cell) (a : Nat) : Byte := FMap.get 0 m a

/-- `k` bytes from address `a`. -/
def memReadN (m : List Host.Cell) (a k : Nat) : List Byte :=
  (List.range k).map (fun i => memRead m (a + i))

/-- The listed cells of a run of bytes: zero bytes are not listed. -/
def cellsOf (a : Nat) : List Byte → List Host.Cell
  | [] => []
  | b :: t => if b = 0 then cellsOf (a + 1) t else (a, b) :: cellsOf (a + 1) t

/-- Write a run of bytes at address `a`. -/
def memWrite (m : List Host.Cell) (a : Nat) (bs : List Byte) : List Host.Cell :=
  m.filter (fun c => decide (c.1 < a)) ++
    (cellsOf a bs ++ m.filter (fun c => decide (a + bs.length ≤ c.1)))

/-- Zero `k` bytes from `a`. -/
def memClear (m : List Host.Cell) (a k : Nat) : List Host.Cell :=
  m.filter (fun c => decide (c.1 < a)) ++ m.filter (fun c => decide (a + k ≤ c.1))

/-- The listed cells of `k` bytes from `a`, as offsets. -/
def memPart (m : List Host.Cell) (a k : Nat) : List Host.Cell :=
  (m.filter (fun c => decide (a ≤ c.1) && decide (c.1 < a + k))).map (fun c => (c.1 - a, c.2))

/-- Put the cells of a region, given as offsets below `k`, at `a`. -/
def memPlace (m : List Host.Cell) (a k : Nat) (part : List Host.Cell) : List Host.Cell :=
  m.filter (fun c => decide (c.1 < a)) ++
    (part.map (fun c => (a + c.1, c.2)) ++ m.filter (fun c => decide (a + k ≤ c.1)))

/-- Exchange two disjoint regions of `k` bytes. -/
def memSwap (m : List Host.Cell) (a b k : Nat) : List Host.Cell :=
  memPlace (memPlace m a k (memPart m b k)) b k (memPart m a k)

/-- The 64-bit little-endian word at byte address `a`. -/
def rd64 (m : List Host.Cell) (a : Nat) : Nat := leNat (memReadN m a 8)

/-- Write a 64-bit little-endian word at byte address `a`. -/
def wr64 (m : List Host.Cell) (a v : Nat) : List Host.Cell := memWrite m a (leBytes 8 v)

/-- The canonical form of memory: addresses strictly rising, no zero byte listed. -/
def Memory.wf (m : List Host.Cell) : Bool := FMap.wf (0 : Byte) m

/-- Base of a Scarab engine's signal store (14 R500). -/
def sigBase (e : Nat) : Nat := engBase e + 0x40000

/-- Base of an engine's mailbox (14 R500, R502). -/
def mboxBase (e : Nat) : Nat := if e = 18 then 0x105BF000 else engBase e + 0x7F000

/-- Base of an engine's code memory. -/
def codeBase (e : Nat) : Nat := engBase e + 0x80000

/-- Bytes of code an engine may fetch (03 R73). -/
def codeSize (e : Nat) : Nat := if e = 18 then 0x3F000 else 0x10000

/-! ### What the node sends, free values -/

/-- Add to the record of what the node has sent. -/
def Node.emit (n : Node) (o : Output) : Node := { n with out := o :: n.out }

/-- The next free value and the node after drawing it. -/
def Node.free (n : Node) : Nat × Node := (Config.freeNat n.freeN, { n with freeN := n.freeN + 1 })

/-- Data island powered (15 R532). -/
def Node.dataOn (n : Node) : Bool := n.on F.PWR_ISLANDS_DATA

/-- Control island powered. -/
def Node.ctlOn (n : Node) : Bool := n.on F.PWR_ISLANDS_CONTROL

/-- An MSI-X message; the endpoint lies in the data island (05 R183, 02 R66). -/
def Node.msi (n : Node) (v : Nat) : Node := if n.dataOn then n.emit (.msix v) else n

/-! ### Indexed units -/

def Node.eng (n : Node) (e : Nat) : Eng := FMap.get {} n.engs e
def Node.setEng (n : Node) (e : Nat) (x : Eng) : Node := { n with engs := FMap.put {} n.engs e x }
def Node.port (n : Node) (p : Nat) : Port := FMap.get {} n.ports p
def Node.setPort (n : Node) (p : Nat) (x : Port) : Node := { n with ports := FMap.put {} n.ports p x }
def Node.chan (n : Node) (c : Nat) : Chan := FMap.get {} n.chans c
def Node.setChan (n : Node) (c : Nat) (x : Chan) : Node := { n with chans := FMap.put {} n.chans c x }
def Node.topPort (n : Node) (p : Nat) : TopPort := FMap.get {} n.inaug.ports p
def Node.setTopPort (n : Node) (p : Nat) (x : TopPort) : Node :=
  { n with inaug := { n.inaug with ports := FMap.put {} n.inaug.ports p x } }
def Node.bank (n : Node) (b : Nat) : Bank := FMap.get {} n.fab.banks b
def Node.setBank (n : Node) (b : Nat) (x : Bank) : Node :=
  { n with fab := { n.fab with banks := FMap.put {} n.fab.banks b x } }
def Node.frame (n : Node) (fid : Nat) : Frame := FMap.get {} n.fab.frames fid
def Node.setFrame (n : Node) (fid : Nat) (f : Frame) : Node :=
  { n with fab := { n.fab with frames := FMap.put {} n.fab.frames fid f } }
def Node.ptp (n : Node) (p : Nat) : PtpPort := FMap.get {} n.clock.ports p
def Node.setPtp (n : Node) (p : Nat) (x : PtpPort) : Node :=
  { n with clock := { n.clock with ports := FMap.put {} n.clock.ports p x } }
def Node.dataset (n : Node) (d : Nat) : Dataset := FMap.get {} n.datasets d

/-! ### Mode, epoch, time -/

/-- The code of `MGT.STATE.STATE` (05 R182). -/
def modeCode : Mode → Nat
  | .off => 0 | .boot => 1 | .coldStandby => 2 | .drill => 3 | .active => 4
  | .stabled => 5 | .updating => 6 | .faulted => 7

/-- The node's current epoch (08 R312). -/
def Node.epoch (n : Node) : Nat := n.rd F.TOP_EPOCH_EPOCH

/-- Units of 2^-16 ns in one nanosecond and in one second. -/
def nsU : Nat := 65536
def secU : Nat := 65536000000000

def secOf (t : Nat) : Nat := t / secU
def nsOf (t : Nat) : Nat := t % secU / nsU
def fracOf (t : Nat) : Nat := t % nsU
def timeOf (sec ns : Nat) : Nat := sec * secU + ns * nsU

/-! ### Fault records (13 R462-R466) -/

/-- Stage a fault record, or coalesce it with one still staged (13 R463, R464). -/
def Node.fault (n : Node) (src code arg : Nat) : Node :=
  let same := fun r : FaultRec =>
    r.source == src && r.code == code && r.arg == arg && decide (r.fresh ≤ n.clock.fresh) && decide (n.clock.fresh < r.fresh + 1000000)
  if n.log.staged.any same then
    let st := n.log.staged.map (fun r => if same r then { r with rep := satInc 16 r.rep } else r)
    { n with log := { n.log with staged := st } }
  else
    let n := { n with regs := (n.wr F.MGT_FAULT_SOURCE (setBit (n.rd F.MGT_FAULT_SOURCE) src true)).regs }
    if 64 ≤ n.log.staged.length then
      { n with log := { n.log with next := n.log.next + 1, lost := satInc 16 n.log.lost } }
    else
      let r : FaultRec :=
        { seq := n.log.next % 2 ^ 32, fresh := n.clock.fresh, sec := secOf n.clock.now, ns := nsOf n.clock.now,
          epoch := n.epoch, state := modeCode n.mode + 16 * n.level, source := src, code := code, arg := arg }
      { n with log := { n.log with staged := n.log.staged ++ [r], next := n.log.next + 1 } }.msi 34

/-- Count a partner violation of kind `k`; the first writes a record (13 R467). -/
def Node.pviol (n : Node) (k arg : Nat) : Node :=
  let f := F.HLT_PVIOL_COUNT k
  let first := n.rd f == 0
  let n := n.inc f
  if first then n.fault 2 (0x100 + k) arg else n

/-! ### Resources and service levels (01 R39-R44) -/

/-- Banks in service (06 R222). -/
def Node.banksN (n : Node) : Nat :=
  ((List.range 26).filter (fun b => n.rd (F.FAB_BANK_STATE b) == 1)).length

/-- Spare banks left. -/
def Node.banksSpare (n : Node) : Nat :=
  ((List.range 26).filter (fun b => n.rd (F.FAB_BANK_STATE b) == 0)).length

/-- The engine bound to logical slot `s`, if any (12 R451). -/
def Node.boundEng (n : Node) (s : Nat) : Option Nat :=
  let e := n.rd (F.HLT_SLOT_ENGINE s)
  if s < 16 ∧ e < 18 then some e else none

/-- The logical slot an engine runs, if any. -/
def Node.slotOf (n : Node) (e : Nat) : Option Nat :=
  (List.range 16).find? (fun s => n.rd (F.HLT_SLOT_ENGINE s) == e)

def Node.retired (n : Node) (e : Nat) : Bool := bitOf (n.rd F.HLT_RETIRED_ENGINE) e

/-- Spare engines: neither retired nor bound (02 R49). -/
def Node.spareEngs (n : Node) : List Nat :=
  (List.range 18).filter (fun e => !n.retired e && (n.slotOf e).isNone)

/-- A slot the image uses that has no engine (12 R449). -/
def Node.slotMissing (n : Node) : Bool := n.rd F.HLT_ENG_MOVES_UNBOUND != 0

def Node.powerOk (n : Node) : Bool :=
  n.on F.PWR_STATUS_PRI_OK || n.on F.PWR_STATUS_BAT_OK || n.on F.PWR_STATUS_HOLDUP

/-- The resources a failed rail of the data island takes away: every unit of that island, a Scarab slot where the image uses one (15 R532; 01 R39, R41; DEDUCED, log entry 40). -/
def Node.railTakes (n : Node) (r : Res) : Bool :=
  n.on F.PWR_ISLANDS_RAIL_FAULT &&
    (match r with
     | .power | .timeUnit => false
     | .slot => (List.range 16).any (fun s => n.on (F.HLT_SLOT_USED s))
     | .pipeline | .banks | .lineA | .lineB | .topology | .fieldBus | .port | .bridge | .trdp | .host => true)

/-- The resources that are missing now. -/
def Node.missing (n : Node) : List Res :=
  [Res.power, .pipeline, .banks, .lineA, .lineB, .topology, .timeUnit, .slot, .fieldBus, .port, .bridge, .trdp, .host].filter
    (fun r => decide (r ∈ n.failed) || n.railTakes r ||
      (match r with
       | .power => !n.powerOk
       | .banks => decide (n.banksN < 16)
       | .slot => n.slotMissing
       | _ => false))

/-- Bit number of a resource in ARG[31:4] (13, code table of HLT 0001h). -/
def resBit : Res → Nat
  | .power => 4 | .pipeline => 5 | .banks => 6 | .lineA => 7 | .lineB => 8 | .topology => 9 | .timeUnit => 10
  | .slot => 11 | .fieldBus => 12 | .port => 13 | .bridge => 14 | .trdp => 15 | .host => 16

/-- The missing resources as ARG bits. -/
def Node.missingArg (n : Node) : Nat := (n.missing.map (fun r => 2 ^ resBit r)).sum

/-- The working set of L1, from a list of missing resources (01 R39). -/
def setL1 (n : Node) : Bool :=
  let m := n.missing
  !(decide (Res.power ∈ m)) && !(decide (Res.pipeline ∈ m)) && decide (8 ≤ n.banksN) &&
    !(decide (Res.lineA ∈ m) && decide (Res.lineB ∈ m))

/-- The working set of L2. -/
def setL2 (n : Node) : Bool :=
  setL1 n && !(decide (Res.topology ∈ n.missing)) && !(decide (Res.timeUnit ∈ n.missing))

/-- The working set of L3. -/
def setL3 (n : Node) : Bool :=
  setL2 n && n.missing.all (fun r => decide (r ∈ [Res.lineA, .lineB]))

/-- Settings that give the consist and vehicle identifiers (05 R170). -/
def Node.identsSet (n : Node) : Bool :=
  decide ((FMap.get [] n.settings 1).length = 16) && decide ((FMap.get [] n.settings 2).length = 16)

/-- The highest level whose working set is complete (01 R39). -/
def Node.working (n : Node) : Nat :=
  if setL1 n = false then 0 else if setL2 n = false then 1 else if setL3 n = false then 2 else 3

/-- The highest level whose working set is complete and whose conditions hold (01 R39, R40, R44; 03 R71; 05 R170). -/
def Node.allowed (n : Node) : Nat :=
  if n.mode ≠ .active ∨ n.on F.PAIR_STATUS_CLAIM_HELD = false ∨ setL1 n = false then 0
  else if n.loaded = false ∨ n.identsSet = false ∨ n.inaug.l1Hold ∨ setL2 n = false then 1
  else if setL3 n = false then 2
  else 3

/-- The level gives mapping, time and consist service: an active node at L2 or above; a drill runs at L0 (01 R39, R40; log entry 36). -/
def Node.serves (n : Node) : Bool := n.mode != .active || decide (2 ≤ n.level)

/-! ### Health (12 R451) -/

/-- Spare flash blocks of a device (13 R480). -/
def Node.flashSpare (n : Node) (dev : Nat) : Nat :=
  Config.flashSpares - (n.flash.retired.filter (fun x => x / Config.flashBlocks == dev)).length

/-- A logical slot becomes unbound (12 R449). -/
def Node.unbindSlot (n : Node) (s : Nat) : Node :=
  (n.wr (F.HLT_SLOT_ENGINE s) 31).wr F.HLT_ENG_MOVES_UNBOUND (setBit (n.rd F.HLT_ENG_MOVES_UNBOUND) s true)

/-- Seconds since the last completed drill; FFFF_FFFFh never. -/
def Node.drillAge (n : Node) : Nat :=
  match n.pair.drillDone with
  | none => 0xFFFFFFFF
  | some t => min ((((n.clock.fresh : Nat) : Int) - t) / 1000000).toNat 0xFFFFFFFE

/-- A finding of the continuous self-test in COLD_STANDBY shows in HEALTH (12 R440; log entry 119). -/
def Node.found (n : Node) : Node := if n.mode = .coldStandby then { n with pair := { n.pair with finding := true } } else n

/-- A power input is out of range; on the hold-up store as well, so that a hold-up changes nothing here (15 R509, R510). -/
def Node.inputLost (n : Node) : Bool := !n.on F.PWR_STATUS_PRI_OK || !n.on F.PWR_STATUS_BAT_OK

/-- Any reduced margin (01 R42, 12 R422, R449, 13 R480, 15 R509, 07 R268), among them a finding of the standby's self-test, which R440 wants reflected in HEALTH (log entry 119). -/
def Node.margin (n : Node) : Bool :=
  decide (n.banksSpare = 0) || decide (n.banksN < 24) || n.spareEngs.isEmpty ||
    decide (n.flashSpare 0 = 0) || decide (n.flashSpare 1 = 0) ||
    n.inputLost || n.on F.HLT_REPORT_PATH ||
    decide (1000 ≤ n.rd (F.BBL_RELAY_LIFE 0)) || decide (1000 ≤ n.rd (F.BBL_RELAY_LIFE 1)) || n.pair.finding

/-- `HLT.REPORT` as a word. -/
def Node.health (n : Node) : Nat :=
  n.rd F.HLT_REPORT_FAIL * 2 ^ 31 + b2n n.margin * 2 ^ 30 +
  b2n (decide (n.banksSpare = 0) || decide (n.banksN < 24)) * 2 ^ 29 + b2n n.spareEngs.isEmpty * 2 ^ 28 +
  b2n (decide (n.flashSpare 0 = 0) || decide (n.flashSpare 1 = 0)) * 2 ^ 27 +
  b2n n.inputLost * 2 ^ 26 +
  b2n ([0, 1].any (fun l => decide (n.rd (F.BBL_RELAY_WARN_WARN l) ≤ n.rd (F.BBL_RELAY_LIFE l)))) * 2 ^ 25 +
  n.rd F.HLT_REPORT_PATH * 2 ^ 24 + b2n (decide (3 ≤ n.pair.missedCk)) * 2 ^ 23 + b2n n.pair.drillFail * 2 ^ 22 +
  b2n (match n.pair.drillDone with
       | none => n.pair.everStandby
       | some _ => decide (2 * 3600 * n.rd F.PAIR_DRILL_PERIOD < n.drillAge)) * 2 ^ 21 +
  b2n (n.clock.held.isSome) * 2 ^ 20 +
  b2n ([(0, 0), (0, 1), (1, 0), (1, 1)].any (fun x => n.on (F.BBL_STATUS_BOUND_BROKEN x.1 x.2))) * 2 ^ 19

/-! ### Interrupts (14 R506, R507) -/

/-- The condition of interrupt source `s`. -/
def Node.irqCond (n : Node) (s : Nat) : Bool :=
  if s < 23 then n.rd (F.PRT_HALF_LO_HALF s) != 0 || n.rd (F.PRT_HALF_HI_HALF s) != 0
  else if s = 23 then n.on F.TIM_STATUS_STEP_REFUSED
  else if s = 24 then n.epochUnread
  else if s = 25 then n.datasets.any (fun d => n.on (F.BRG_DS_STAT_TOUT_EV d.1))
  else if s < 34 then
    n.on (F.CAN_STATUS_CFG_ERR (s - 26)) || n.on (F.CAN_STATUS_BUSOFF_EV (s - 26)) || n.on (F.CAN_STATUS_CLASH_EV (s - 26))
  else if s < 36 then n.on (F.MVB_STATUS_CONFLICT (s - 34))
  else if s < 54 then n.on (F.SC_EXC_VALID (s - 36))
  else if s = 54 then n.on F.FAB_STATUS_DRAINING
  else if s = 55 then
    n.on F.PAIR_STATUS_DECLARED || n.on F.PAIR_STATUS_BLOCKED || n.on F.PAIR_STATUS_CKPT_REJECTED
  else if s = 56 then
    [F.PWR_EVENTS_PRI_OUT, F.PWR_EVENTS_PRI_IN, F.PWR_EVENTS_BAT_OUT, F.PWR_EVENTS_BAT_IN, F.PWR_EVENTS_HOLDUP,
     F.PWR_EVENTS_TEMP_WARN, F.PWR_EVENTS_OVERTEMP, F.PWR_EVENTS_ZS_CHANGE, F.PWR_EVENTS_CAB_CHANGE].any (fun f => n.on f)
  else if s = 57 then n.updUnread
  else false

/-- Send the message of source `s` if it is enabled. -/
def Node.irqSend (n : Node) (s : Nat) : Node :=
  if n.on (F.HST_IRQ_SRC_EN s) then n.msi (n.rd (F.HST_IRQ_SRC_VECTOR s)) else n

/-- Messages of every source whose condition has become true. -/
def irqEdges (old new : Node) : Node :=
  (List.range 64).foldl (fun a s => if new.irqCond s && !old.irqCond s then a.irqSend s else a) new

/-! ### Relays (07 R266-R269) -/

/-- The node forwards: no gap of a takeover is open (12 R412, R431). -/
def Node.forwards (n : Node) : Bool := n.pair.gapAt.isNone

/-- The drive of a relay set under R22: open only with the claim, at L1 or above, not forced, no mismatch. -/
def Node.driveOpen (n : Node) (l : Nat) : Bool :=
  n.on F.PAIR_STATUS_CLAIM_HELD && decide (1 ≤ n.level) && !n.on (F.BBL_RELAY_FORCE l) && !n.on (F.BBL_RELAY_MISMATCH l)

/-- One operation of a relay set, a change of its contact state: count it (07 R268). -/
def Node.relayOp (n : Node) (l : Nat) (isOpen : Bool) : Node :=
  let ops := n.rd (F.BBL_RELAY_OPS_COUNT l) + 1
  let n := (n.wr (F.BBL_RELAY_OPS_COUNT l) ops).wr (F.BBL_RELAY_LIFE l) (min (ops / 1000) 1023)
  n.put (F.BBL_RELAY_CLOSED l) (!isOpen)

/-- One record when LIFE reaches the warning in force before or after the command (07 R268). -/
def relayWarn (old new : Node) (l : Nat) : Node :=
  let life := new.rd (F.BBL_RELAY_LIFE l)
  let was := old.rd (F.BBL_RELAY_WARN_WARN l)
  if old.rd (F.BBL_RELAY_LIFE l) < was ∧ (was ≤ life ∨ new.rd (F.BBL_RELAY_WARN_WARN l) ≤ life) then new.fault 9 2 l else new

/-- Record the drive of a relay set in MRAM; contacts that are to close cut the line's PHYs off (07 R266). -/
def Node.relayNote (n : Node) (l : Nat) : Node :=
  { n with pair := { n.pair with
      lastDrive := FMap.put false n.pair.lastDrive l (n.driveOpen l),
      cut := if n.driveOpen l || n.on (F.BBL_RELAY_CLOSED l) then n.pair.cut else l :: (l + 2) :: n.pair.cut } }

/-- Make a relay set follow its drive: record the drive, then make the change; a set whose contacts disagree with their drive stays as it is (07 R266, R268, R269). -/
def Node.relayFollow (n : Node) (l : Nat) : Node :=
  let d := n.driveOpen l
  let n := n.relayNote l
  let n := n.put (F.BBL_RELAY_DRIVE_OPEN l) d
  if n.on (F.BBL_RELAY_CLOSED l) == d ∧ !n.on (F.BBL_RELAY_MISMATCH l) then n.relayOp l d else n

/-! ### State of the time unit (09 R326-R331) -/

def timFree : Nat := 0
def timAcquiring : Nat := 1
def timLocked : Nat := 2
def timHoldover : Nat := 3
def timGrand : Nat := 4

def Node.timState (n : Node) : Nat := n.rd F.TIM_STATUS_STATE
def Node.setTimState (n : Node) (v : Nat) : Node := n.wr F.TIM_STATUS_STATE v
def Node.ptpParent (n : Node) : Nat := n.rd F.TIM_STATUS_PARENT

/-- Let a held step go (R331). -/
def Node.releaseStep (n : Node) : Node :=
  ({ n with clock := { n.clock with held := none } }).wrs [(F.TIM_STATUS_STEP_HELD, 0), (F.TIM_STATUS_HELD_PORT, 31)]

/-- Show the frequency correction (R327). -/
def Node.showFreq (n : Node) : Node := n.wr F.TIM_FREQ_PPT (ofSigned 32 (clampS 32 (n.clock.out * 1000 / 256)))

/-- HOLDOVER or GRANDMASTER keeps the integrator as the correction (R328). -/
def Node.holdRate (n : Node) : Node :=
  ({ n with clock := { n.clock with out := n.clock.integ, small := 0, slew := 0 } }).showFreq

/-- Enter HOLDOVER; `gm` is the grandmaster whose return has the allowance of R329. -/
def Node.holdover (n : Node) (gm : Nat) : Node :=
  let at' := if n.timState = timHoldover then n.clock.holdAt else n.clock.fresh
  (({ n with clock := { n.clock with gmBefore := gm, holdAt := at' } }).setTimState timHoldover).holdRate

/-- The slave port is no longer slave (R326, R331). -/
def Node.parentLost (n : Node) (p : Nat) : Node :=
  let n := match n.clock.held with
    | some (q, _) => if q = p then n.releaseStep else n
    | none => n
  if n.ptpParent ≠ p then n else
  let n := (n.wr F.TIM_STATUS_PARENT 31).wr (F.TIM_PORT_PSTATE p) 1
  if n.timState = timFree then n else n.holdover n.clock.gm

/-- A port of the data island loses its link: the time unit loses the parent on it. -/
def Node.ptpOff (n : Node) (p : Nat) : Node :=
  let n := (n.parentLost p).setPtp p {}
  n.wrs [(F.TIM_PORT_PSTATE p, 0), (F.TIM_PORT_AS_CAPABLE p, 0)]

/-! ### Islands and resets (02 R66, 00 R15) -/

/-- Keep the register fields a predicate on island and reset code selects. -/
def keepRegs (m : FMap Nat) (keep : Island → RCode → Bool) : FMap Nat :=
  m.filter (fun e => match keyInfo e.1 with
    | some (i, f) => keep i f.code
    | none => true)

/-- Cells of data-unit memories removed: they lie above the control units' blocks. -/
def dropDataMem (m : List Host.Cell) : List Host.Cell := m.filter (fun c => decide (c.1 < 0x10000000))

/-- The port MAC address: the node identifier with the port number added to its low byte (07 R236). -/
def macOf (ident p : Nat) : Nat := ident / 256 * 256 + (ident + p) % 256

/-- Consist links whose PHYs hold them in low-power idle once the data island is off (12 R408, R433). -/
def Node.holdLinks (n : Node) : Node :=
  { n with pair := { n.pair with links := ((List.range 16).drop 4).foldl (fun m p =>
      if n.on (F.PRT_STATUS_LINK p) then FMap.put 0 m p (n.rd (F.PRT_STATUS_RATE p)) else m) n.pair.links } }

/-- Heartbeats that wait for the wake of their link leave by the heartbeat interface, which works without the data island (12 R413; 07 R248). -/
def Node.hbLate (n : Node) : Node :=
  (n.port (n.rd F.PAIR_CTRL_HB_PORT)).own.foldl (fun a o => match o with
    | .bytes b => a.emit (.frame (n.rd F.PAIR_CTRL_HB_PORT) b)
    | .ptp _ _ => a) n

/-- The units of the data island lose what they hold: memories, every field but those of code "—", and what Mantis has under way for them (02 R66). -/
def Node.dataClear (n : Node) : Node :=
  let n := ((List.range 20).foldl Node.ptpOff n.hbLate).holdLinks
  let regs := keepRegs n.regs (fun i c => i != Island.data || c == RCode.keep)
  { n with regs := regs, mem := dropDataMem n.mem, poison := n.poison.filter (fun a => decide (a < 0x10000000)),
            engs := [], tabs := [], loaded := false, chanSlot := [], fab := {}, ports := [], cnt := [], delta := [],
            inaug := {}, chans := [], brg := { stalled := n.brg.stalled }, datasets := [], ipId := 0, epochUnread := false,
            caps := n.caps.filter (fun c => decide (c.block ≤ 0x10100000)), holds := [],
            pair := { n.pair with sending := none, capture := none, capWait := [], gapAt := none } }

/-- Remove power from the data island (02 R66). -/
def Node.dataOff (n : Node) : Node := if n.dataOn = false then n else n.dataClear.put F.PWR_ISLANDS_DATA false

/-- Every cell of a bank in service is free. -/
def Node.freshBanks (n : Node) : Node :=
  (List.range 26).foldl (fun a b =>
    if a.rd (F.FAB_BANK_STATE b) = 1 then a.setBank b { free := Config.cellsPerBank } else a) n

/-- A drain that was interrupted ends: its bank is retired without a cell in the free pool (06 R231). -/
def Node.endDrains (n : Node) : Node :=
  (List.range 26).foldl (fun a b =>
    if a.rd (F.FAB_BANK_STATE b) = 2 then (a.wr (F.FAB_BANK_STATE b) 3).fault 7 1 (b + 256) else a) n

/-- Power the data island: free cells for banks in service, an interrupted drain ends (06 R231), the power-up is counted (15 R532). -/
def Node.dataUp (n : Node) : Node :=
  if n.dataOn || n.on F.PWR_ISLANDS_RAIL_FAULT then n else
  ((n.put F.PWR_ISLANDS_DATA true).inc F.PWR_ISLANDS_DATA_UPS).endDrains.freshBanks

/-- The node stops holding the claim: transmitters idle at once, stored frames and bus entries are lost with it (12 R412). -/
def Node.release (n : Node) : Node :=
  (n.put F.PAIR_STATUS_CLAIM_HELD false)

/-- The fields a node restart resets, and what does not outlive it (00 R15; 05 R177). -/
def Node.restartReset (n : Node) : Node :=
  let n := (n.release).dataOff
  let n := { n with regs := keepRegs n.regs (fun _ c => c == RCode.PO || c == RCode.keep) }
  let cl := { n.clock with ports := n.clock.ports }
  { n with level := 0, wait := .none, caps := [], holds := [], results := [], leaseAt := 0, settings := [], staging := [],
           failed := [], clock := cl, updUnread := false, brg := {},
           pair := { n.pair with
             effA := if n.on F.PAIR_STATUS_POS_CLASH then n.pair.effA else none, content := [],
             seq := n.pair.seq, paths := [], partner := none, lastHb := [], rxTime := 0, rxAt := 0,
             part := none, agPart := none, links := [], finding := false, drillDue := false, missedCk := 0, switching := none, switchFlag := false, stabling := 0,
             armed := false, lost := false, sentT := [], oldIdent := 0, mism := false, claimAt := 0, tied := none },
           flash := { n.flash with busy := 0, relays := [], frags := [] } }

/-! ### Tags and port counters (06 R197, R207; 07 R252-R255) -/

/-- A received frame without its outer 8100h tag and its R-TAG, with what was removed (06 R197, R207). -/
structure Untagged where
  body : List Byte := []
  tci : Option Nat := none
  rseq : Option Nat := none
deriving DecidableEq, Repr

/-- Remove the outer VLAN tag with identifier 8100h and an R-TAG that follows (06 R207, R208). -/
def untag (b : List Byte) : Untagged :=
  let vl := beAt b 12 2 == 0x8100 && decide (16 ≤ b.length)
  let k := if vl then 16 else 12
  let rt := beAt b k 2 == 0xF1C1 && decide (k + 6 ≤ b.length)
  { body := b.take 12 ++ b.drop (if rt then k + 6 else k),
    tci := if vl then some (beAt b 14 2) else none,
    rseq := if rt then some (beAt b (k + 4) 2) else none }

/-- Destination type of an address: broadcast, multicast, unicast as 2, 1, 0. -/
def castOf (b : List Byte) : Nat :=
  if beAt b 0 6 = 0xFFFFFFFFFFFF then 2 else if byteAt b 0 % 2 = 1 then 1 else 0

/-- Add `k` to counter `i` of a port: the 40-bit running view wraps, the delta view saturates, and HALF is set each time bit 39 of the running view changes (07 R252, R254). -/
def Node.cntAdd (n : Node) (p i k : Nat) : Node :=
  if k = 0 then n else
  let key := p * 64 + i
  let old := FMap.get 0 n.cnt key
  let new := (old + k) % 2 ^ 40
  let d := min (FMap.get 0 n.delta key + k) 0xFFFFFFFF
  let n := { n with cnt := FMap.put 0 n.cnt key new, delta := FMap.put 0 n.delta key d }
  if bitOf old 39 == bitOf new 39 then n
  else if i < 32 then n.wr (F.PRT_HALF_LO_HALF p) (setBit (n.rd (F.PRT_HALF_LO_HALF p)) i true)
  else n.wr (F.PRT_HALF_HI_HALF p) (setBit (n.rd (F.PRT_HALF_HI_HALF p)) (i - 32) true)

/-- The size bin of a frame of `k` bytes, 0 to 8 (07 R255). -/
def sizeBin (k : Nat) : Nat :=
  if k ≤ 64 then 0 else if k ≤ 127 then 1 else if k ≤ 255 then 2 else if k ≤ 511 then 3 else if k ≤ 1023 then 4
  else if k ≤ 1518 then 5 else if k ≤ 2047 then 6 else if k ≤ 4095 then 7 else 8

/-- Transmit counters of one frame of `b` bytes without FCS (07 R255). -/
def Node.txCount (n : Node) (p : Nat) (b : List Byte) : Node :=
  let k := b.length + 4
  let u := untag b
  let n := ((n.cntAdd p 32 k).cntAdd p 33 1).cntAdd p (34 + castOf b) 1
  let n := n.cntAdd p 38 (if u.tci.isSome then 1 else 0)
  let n := n.cntAdd p 39 (if u.rseq.isSome then 1 else 0)
  n.cntAdd p (40 + sizeBin k) 1

/-! ### Pair position (12 R406, R410) -/

/-- The effective position is a; a single node counts as a. -/
def Node.posA (n : Node) : Bool :=
  match n.pair.effA with
  | some b => b
  | none => n.rd F.PAIR_STATUS_POS != 2

/-- No partner: strapped single. -/
def Node.single (n : Node) : Bool := n.rd F.PAIR_STATUS_POS == 0

/-- The partner's claim as sensed; inactive on a node strapped single (12 R409). -/
def Node.partnerClaim (n : Node) : Bool := !n.single && n.on F.PAIR_STATUS_PARTNER_CLAIM

/-! ### Entering states -/

/-- The regions of a flash device by number: loader copies 0, main slot 1, fallback slot 2, transfer area 3, commit records 4, settings store 5, fault log 6 (13 R468). -/
def regionNo (l : Nat) : Nat :=
  if l < 32 then 0 else if l < 288 then 1 else if l < 544 then 2 else if l < 800 then 3 else if l < 808 then 4
  else if l < 824 then 5 else 6

/-- Region `r` of a device is served from the other device alone (13 R480). -/
def Node.loneAt (n : Node) (dev r : Nat) : Bool := decide (8 * dev + r ∈ n.flash.lone)

/-- The slots as they are read: from device 0 where it serves the region, and the mirror (05 R171; 13 R480). -/
def Node.mainImg (n : Node) : List Byte := if n.loneAt 0 1 then n.flash.main1 else n.flash.main0
def Node.mainMirror (n : Node) : List Byte := if n.loneAt 1 1 then n.flash.main0 else n.flash.main1
def Node.fbImg (n : Node) : List Byte := if n.loneAt 0 2 then n.flash.fb1 else n.flash.fb0
def Node.fbMirror (n : Node) : List Byte := if n.loneAt 1 2 then n.flash.fb0 else n.flash.fb1

/-- Write the takeover set from the booted slot (12 R430). -/
def Node.bootedImage (n : Node) : List Byte :=
  if n.on F.MGT_STATE_SLOT then n.fbImg else n.mainImg

/-- Sizes of the sections a takeover set holds exceed 4 MiB: SLOW_LOAD (12 R430). -/
def slowLoad (img : List Byte) : Bool :=
  let cnt := leAt img 0x14 2
  let sizes := (List.range cnt).map (fun i =>
    let ty := leAt img (128 + 32 * i) 2
    if ty ∈ [2, 3, 5, 6, 7, 9] then leAt img (128 + 32 * i + 8) 4 else 0)
  decide (4 * 1024 * 1024 < sizes.sum)

/-- Enter COLD_STANDBY: data island off, takeover set written, level 0; a node on which no drill has completed is to start one (12 R408, R430, R439, R441). -/
def Node.enterStandby (n : Node) : Node :=
  let img := n.bootedImage
  let n := (n.release).dataOff
  let n := { n with mode := .coldStandby, level := 0,
                    pair := { n.pair with
                      everStandby := true, tset := if slowLoad img then [] else img, switching := none,
                      switchFlag := false } }
  { n with pair := { n.pair with drillDue := n.pair.drillDone.isNone, missedCk := 0 } }.put F.PAIR_STATUS_SLOW_LOAD (slowLoad img)

/-- The partner's last heartbeat shows COLD_STANDBY with PROVEN at or above `l` (12 R421). -/
def Node.partnerReady (n : Node) (l : Nat) : Bool :=
  n.rd F.PAIR_STATUS_PARTNER_STATE == 2 && decide (l ≤ n.rd F.PAIR_STATUS_PARTNER_PROVEN)

/-! ### Heartbeats (12 R413-R415, R446) -/

/-- Grace interval in progress (08 R303). -/
def Node.inGrace (n : Node) : Bool := n.inaug.graceEnd.isSome

/-- A round is open, a commit is scheduled or a grace interval runs: FLAGS[3] of the heartbeat (12 R414). -/
def Node.roundFlag (n : Node) : Bool := n.inaug.openR || n.inaug.sched.isSome || n.inGrace

/-- In TN7 pairing mode (R445). -/
def Node.tn7Mode (n : Node) : Bool := n.on F.PAIR_CTRL_TN7

/-- FLAGS of the heartbeat (R414). -/
def Node.hbFlags (n : Node) : Nat :=
  n.rd F.PAIR_STATUS_CLAIM_HELD + 2 * n.rd F.HLT_REPORT_FAIL + 4 * b2n (n.mode == .drill) + 8 * b2n n.roundFlag +
    16 * b2n n.pair.switchFlag + 32 * b2n (n.pair.stabling != 0)

/-- Bytes 00h to 1Fh of the payload (R414). -/
def Node.hbHead (n : Node) (flags health seq : Nat) : List Byte :=
  [0x48, 0x42, 1, BitVec.ofNat 8 flags] ++ leBytes 4 seq ++ leBytes 6 n.ident ++
    [BitVec.ofNat 8 (modeCode n.mode + 16 * n.level + 64 * n.rd F.PAIR_STATUS_POS),
     BitVec.ofNat 8 (n.rd F.PAIR_STATUS_PROVEN)] ++
    leBytes 2 n.epoch ++ [BitVec.ofNat 8 (n.rd F.TOP_INAUG_POSITION), 0] ++ leBytes 4 (n.rd F.PAIR_CKPT_SEQ_SEQ) ++
    leBytes 4 health ++ leBytes 4 n.drillAge

/-- A payload with its CRC: TX_TIME and RX_TIME are zero on the consist path (R414). -/
def Node.hbSeal (n : Node) (path : Nat) (head : List Byte) : List Byte :=
  let t := n.clock.now
  let times := if path = 0 then
      leBytes 6 (secOf t) ++ leBytes 4 (nsOf t) ++ leBytes 6 (secOf n.pair.rxTime) ++ leBytes 4 (nsOf n.pair.rxTime)
    else zeros 20
  let b := head ++ times ++ leBytes 4 n.pair.rxAt ++ zeros 4
  b ++ leBytes 4 (crc32c b)

/-- The TN7 heartbeat (R446). -/
def tn7Beat (state seq : Nat) : List Byte :=
  let b := [0x37, 0x4E, BitVec.ofNat 8 state, 0] ++ leBytes 4 seq ++ zeros 4
  b ++ leBytes 4 (crc32c b)

/-- The consist link of a port carries frames: up, or held in low-power idle while the data island serves no bus (R408, R413, R442). -/
def Node.consistLink (n : Node) (p : Nat) : Bool :=
  if n.dataOn && n.mode != .drill then n.on (F.PRT_STATUS_LINK p) else FMap.get 0 n.pair.links p != 0

/-- A WCH cycle, 40 ns, as a count of TIM cycles of 4 ns (02 R61). -/
def Node.wchCycle (n : Node) : Nat := n.clock.cycles / 10

/-- Send a heartbeat payload as an untagged frame on the heartbeat port, which the transmit counters of a powered port count; in low-power idle it waits for the wake (R413; 07 R248). -/
def Node.hbConsist (n : Node) (payload : List Byte) : Node :=
  let p := n.rd F.PAIR_CTRL_HB_PORT
  if n.on F.PAIR_CTRL_HB_CON_EN && decide (4 ≤ p) && decide (p < 16) && n.consistLink p then
    let b := beBytes 6 0x035439000001 ++ beBytes 6 (macOf n.ident p) ++ beBytes 2 0x88B6 ++ payload
    if n.dataOn && n.on (F.PRT_STATUS_LPI_TX p) then n.setPort p { n.port p with own := (n.port p).own ++ [.bytes b] } else
    let n := n.emit (.frame p b)
    if n.dataOn then n.txCount p b else n
  else n

/-- Send one heartbeat with a head built for the next SEQ, on both paths (R413, R445). -/
def Node.hbEmit (n : Node) (flags health tn7state : Nat) : Node :=
  let q := (n.pair.seq + 1) % 2 ^ 32
  let head := n.hbHead flags health q
  let n := { n with pair := { n.pair with seq := q, content := head, sentT := (n.pair.sentT ++ [(q, n.clock.now)]).drop (n.pair.sentT.length - 15) } }
  if n.tn7Mode then n.emit (.heartbeat 0 (tn7Beat tn7state q))
  else
    (n.emit (.heartbeat 0 (n.hbSeal 0 head))).hbConsist (n.hbSeal 1 head)

/-- The state a TN7 heartbeat shows. -/
def Node.tn7State (n : Node) : Nat := if n.on F.HLT_REPORT_FAIL then 3 else if n.mode = .active then 1 else 2

/-! ### Settle -/

/-- Drop to the highest level that holds; one record where part of a working set failed (01 R41; log entry 36). -/
def levelDrop (new : Node) : Node :=
  let a := new.allowed
  if new.level ≤ a then new
  else
    let was := new.level
    let n := { new with level := a, inaug := { new.inaug with lostL2 := new.inaug.lostL2 || (decide (2 ≤ was) && decide (a < 2)) } }
    if n.mode = .active ∧ n.on F.PAIR_STATUS_CLAIM_HELD ∧ new.working < was then n.fault 2 1 (a + 4 * was + new.missingArg) else n

/-- The second case of R421: an active node whose level falls below FAIL_LEVEL reports FAIL in a heartbeat and hands over to a proven standby. -/
def failCheck (old new : Node) : Node :=
  let fl := new.rd F.PAIR_CTRL_FAIL_LEVEL
  if new.mode = .active ∧ fl ≤ old.level ∧ new.level < fl ∧ !new.on F.PAIR_CTRL_TN7 ∧ new.partnerReady fl then
    let proven := new.level
    let n := new.put F.HLT_REPORT_FAIL true
    let n := (n.hbEmit n.hbFlags n.health n.tn7State).put F.HLT_REPORT_FAIL false
    (n.enterStandby).wr F.PAIR_STATUS_PROVEN proven
  else new

/-- `HLT.REPORT.MARGIN` follows the reduced margin; entering it writes a record (01 R42). -/
def Node.marginMark (n : Node) : Node :=
  let was := n.on F.HLT_REPORT_MARGIN
  let n := n.put F.HLT_REPORT_MARGIN n.margin
  if n.margin && !was then n.fault 2 2 n.health else n

/-- What the manual ties to a change of state, done once at the end of a command: level drop, FAIL, relays, reduced margin, interrupt messages. -/
def settle (old new : Node) : Node :=
  let n := failCheck old (levelDrop new)
  let n := (n.relayFollow 0).relayFollow 1
  let n := relayWarn old (relayWarn old n 0) 1
  let n := if n.mode = .off then n else n.marginMark
  let n := if n.mode ≠ old.mode ∨ n.level ≠ old.level then n.msi 33 else n
  let own := fun x : Node => (x.rd F.MGT_OWNER_ID, x.rd F.MGT_OWNER_NODE_NODE_LO, x.rd F.MGT_OWNER_NODE_HI,
    x.rd F.MGT_OWN_PEND_VALID, x.rd F.MGT_OWN_PEND_ID, x.rd F.MGT_OWN_PEND_NODE_HI, x.rd F.MGT_OWN_PEND_NODE_NODE_LO)
  let n := if own n ≠ own old then n.msi 32 else n
  irqEdges old n

/-- The end of every meaning: the next state, with the node settled and the queue untouched. -/
def State.to (s : State) (n : Node) : Host.Outcome State Fault Refusal :=
  .next { s with node := settle s.node n }

/-- Make a trigger pending or count a coalesced firing (03 R90). -/
def Eng.fire (x : Eng) (t : Nat) : Eng := { x with fired := FMap.upd 0 x.fired t (· + 1) }

/-- Make every enabled trigger of a kind (and source, where the kind has one) pending. -/
def Eng.fireKind (x : Eng) (kind : Nat) (src : Option Nat) : Eng :=
  x.trigs.foldl (fun a t =>
    if t.2.en && t.2.kind == kind && (src.isNone || src == some t.2.src) then a.fire t.1 else a) x

/-- The LINK trigger of port `p` becomes pending at the topology engine (03 R90). -/
def Node.fireLink (n : Node) (p : Nat) : Node :=
  if p < 4 then n.setEng 18 ((n.eng 18).fireKind 6 (some p)) else n

/-- Line and end of a backbone port: P0, P1 end 1; P2, P3 end 2; even ports line A (01 R19). -/
def lineOf (p : Nat) : Nat := p % 2
def endOf (p : Nat) : Nat := p / 2
def mateOf (p : Nat) : Nat := if p % 2 = 0 then p + 1 else p - 1
def acrossOf (p : Nat) : Nat := (p + 2) % 4

end Sys2Proof.Machine
end

