-- ==== Sys2Proof/Machine/Tables.lean ====
section
/-! DEFINITION. Table memory (05 R165, R166; 14 R488): layout, lookups, poison, and the writes of masters, programs and the fabric with the rules of hardware-written words (06 R196, R200, R209, R212, R215). -/

namespace Sys2Proof.Machine

open Sys2Proof

/-- The table with number `t`, if the image defines it. -/
def Node.tab (n : Node) (t : Nat) : Option TabDef := n.tabs.find? (fun d => d.num == t)

/-- Stored size of one bank of a table in words (05 R165). -/
def TabDef.size (d : TabDef) : Nat :=
  if d.hashed then d.entries / 8 * (8 * d.n + 9) else d.entries * d.n

/-- Byte address of word `w` of table memory (14 R488). -/
def tabAddr (w : Nat) : Nat := 0x40000000 + 8 * w

/-- First word of the active or the shadow view (14 R488). -/
def TabDef.view (d : TabDef) (shadow : Bool) : Nat := d.base + if shadow then d.size else 0

/-- The view program and master writes go to: the shadow bank of a double-banked table (02 R54). -/
def TabDef.wview (d : TabDef) : Bool := d.dbl

/-- First data word of entry `i` (05 R166, 14 R488). -/
def TabDef.dataW (d : TabDef) (sh : Bool) (i : Nat) : Nat :=
  if d.hashed then d.view sh + (8 * d.n + 9) * (i / 8) + 2 + (d.n + 1) * (i % 8)
  else d.view sh + d.n * i

/-- The control word of an entry's hash group. -/
def TabDef.ctlW (d : TabDef) (sh : Bool) (i : Nat) : Nat := d.view sh + (8 * d.n + 9) * (i / 8)

/-- The words of table memory as 64-bit values. -/
def Node.word (n : Node) (w : Nat) : Nat := rd64 n.mem (tabAddr w)

def Node.setWord (n : Node) (w v : Nat) : Node := { n with mem := wr64 n.mem (tabAddr w) v }

/-- An uncorrectable error lies in the word (02 R68). -/
def Node.badWord (n : Node) (w : Nat) : Bool := decide (tabAddr w ∈ n.poison)

/-- The words of entry `i`: key and data words of a hashed table, the data words of an indexed one. -/
def TabDef.entryWords (d : TabDef) (sh : Bool) (i : Nat) : List Nat :=
  if d.hashed then (List.range (d.n + 1)).map (fun j => d.dataW sh i - 1 + j)
  else (List.range d.n).map (fun j => d.dataW sh i + j)

/-- The entry is poisoned; a control word poisons every entry of its group (05 R166). -/
def Node.entryBad (n : Node) (d : TabDef) (sh : Bool) (i : Nat) : Bool :=
  (d.entryWords sh i).any n.badWord || (d.hashed && n.badWord (d.ctlW sh i))

/-- The USED bit of an entry of a hashed table. -/
def Node.used (n : Node) (d : TabDef) (sh : Bool) (i : Nat) : Bool := bitOf (n.word (d.ctlW sh i)) (i % 8)

/-- The entry can be read: present and not poisoned (04 R146). -/
def Node.entryOk (n : Node) (d : TabDef) (sh : Bool) (i : Nat) : Bool :=
  decide (i < d.entries) && !n.entryBad d sh i && (!d.hashed || n.used d sh i)

/-- The data words of an entry. The bucket state of a policer entry has no stated layout: word 1 of table 3 reads as a free value (log entry 21). -/
def Node.entryData (n : Node) (d : TabDef) (sh : Bool) (i : Nat) : List Nat :=
  (List.range d.n).map (fun j =>
    if d.num = 3 ∧ j = 1 then Config.freeNat n.freeN % 2 ^ 64 else n.word (d.dataW sh i + j))

/-- The hash group of a key (05 R166). -/
def TabDef.group (d : TabDef) (key : Nat) : Nat :=
  crc32c (leBytes ((d.kw + 7) / 8) (key % 2 ^ d.kw)) % (d.entries / 8)

/-- The lowest-indexed entry of the key's group that holds the key (05 R166). -/
def Node.lookup (n : Node) (d : TabDef) (sh : Bool) (key : Nat) : Option Nat :=
  if d.entries < 8 then none else
  let g := d.group key
  ((List.range 8).map (fun j => 8 * g + j)).find? (fun i =>
    n.entryOk d sh i && n.word (d.dataW sh i - 1) == key % 2 ^ d.kw)

/-- The lowest-indexed free entry of the key's group that is not in `held` (04 R147). -/
def Node.freeSlot (n : Node) (d : TabDef) (sh : Bool) (key : Nat) (held : List Nat) : Option Nat :=
  if d.entries < 8 then none else
  let g := d.group key
  ((List.range 8).map (fun j => 8 * g + j)).find? (fun i => !n.used d sh i && !decide (i ∈ held))

/-- Data words of entry `i` of table `t` in the active bank, where it can be read. -/
def Node.tabRead (n : Node) (t i : Nat) : Option (List Nat) :=
  match n.tab t with
  | none => none
  | some d => if n.entryOk d false i then some (n.entryData d false i) else none

/-- One word of a table entry, zero where the entry cannot be read. -/
def Node.tabW (n : Node) (t i j : Nat) : Nat := ((n.tabRead t i).getD []).getD j 0

/-- The data words of the entry that holds a key in the active bank. -/
def Node.tabFind (n : Node) (t key : Nat) : Option (List Nat) :=
  match n.tab t with
  | none => none
  | some d => if d.hashed then (n.lookup d false key).map (n.entryData d false) else none

/-- A write by hardware of one data word of an entry in the active bank; it bears no other rule. -/
def Node.tabHw (n : Node) (t i j v : Nat) : Node :=
  match n.tab t with
  | none => n
  | some d => if j < d.n ∧ i < d.entries then n.setWord (d.dataW false i + j) (v % 2 ^ 64) else n

/-- What a write of data words leaves in an entry of the fabric's tables: hardware-written words keep their value but as the table's rule states (06 R196, R200, R209, R215). -/
def fabricWords (t i : Nat) (old new : List Nat) : List Nat :=
  if t = 1 then
    let o0 := old.getD 0 0
    let w0 := new.getD 0 0
    let w2 := new.getD 2 0
    if !bitOf o0 63 && bitOf w0 63 then [w0, new.getD 1 0, w2, 0, 0, 0, 0, 0]
    else [w0, new.getD 1 0, w2 / 65536 * 65536 + old.getD 2 0 % 65536] ++ old.drop 3
  else if t = 3 then [new.getD 0 0, old.getD 1 0]
  else if t = 4 then
    let o := old.getD 0 0
    let w := new.getD 0 0
    let hist := bitsOf o 37 32 != bitsOf w 37 32
    let ta := if hist then 1 else bitsOf o 47 47
    [bitsOf o 63 48 * 2 ^ 48 + ta * 2 ^ 47 + w % 2 ^ 47, if hist then 0 else old.getD 1 0] ++ old.drop 2
  else if t = 5 ∧ 20 ≤ i ∧ i ≤ 22 then [new.getD 0 0 / 2 ^ 32 * 2 ^ 32] ++ new.drop 1
  else new

/-- Remove poison marks of some words. -/
def Node.unpoison (n : Node) (ws : List Nat) : Node :=
  { n with poison := n.poison.filter (fun a => !decide (a ∈ ws.map tabAddr)) }

/-- The freshness clock in TIM cycles. -/
def Node.freshCycles (n : Node) : Nat := n.clock.fresh * 250 + n.clock.freshSub

/-- A policer whose RATE or BURST changes is filled (06 R212). -/
def Node.refill (n : Node) (t i : Nat) (old new : List Nat) : Node :=
  if t = 3 ∧ old.getD 0 0 ≠ new.getD 0 0 then
    { n with fab := { n.fab with buckets := FMap.put (0, 0) n.fab.buckets i (0, n.freshCycles) } }
  else n

/-- Write data words of entry `i`, given as (offset, value), with the rules of the fabric's tables. A write of all of them removes poison from the data words (02 R68). -/
def Node.entryWrite (n : Node) (d : TabDef) (sh : Bool) (i : Nat) (ws : List (Nat × Nat)) : Node :=
  let old := (List.range d.n).map (fun j => n.word (d.dataW sh i + j))
  let new := (List.range d.n).map (fun j =>
    match ws.find? (fun x => x.1 == j) with
    | some x => x.2
    | none => old.getD j 0)
  let out := fabricWords d.num i old new
  let n := (List.range d.n).foldl (fun a j => a.setWord (d.dataW sh i + j) (out.getD j 0)) n
  let n := n.refill d.num i old new
  if d.n ≤ ws.length then n.unpoison ((List.range d.n).map (fun j => d.dataW sh i + j)) else n

/-- Insert: the key word and the data words of the chosen entry, and its USED bit (04 R146). -/
def Node.entryInsert (n : Node) (d : TabDef) (sh : Bool) (i key : Nat) (ws : List Nat) : Node :=
  let n := n.entryWrite d sh i ((List.range d.n).map (fun j => (j, ws.getD j 0)))
  let n := (n.setWord (d.dataW sh i - 1) (key % 2 ^ d.kw)).unpoison [d.dataW sh i - 1]
  n.setWord (d.ctlW sh i) (setBit (n.word (d.ctlW sh i)) (i % 8) true)

/-- Delete: USED cleared, key and data words zero (04 R146). -/
def Node.entryDelete (n : Node) (d : TabDef) (sh : Bool) (i : Nat) : Node :=
  let n := { n with mem := memClear n.mem (tabAddr (d.dataW sh i - 1)) (8 * (d.n + 1)) }
  let n := n.unpoison (d.entryWords sh i)
  n.setWord (d.ctlW sh i) (setBit (n.word (d.ctlW sh i)) (i % 8) false)

/-- Exchange the banks of a double-banked table (08 R296). -/
def Node.swapBanks (n : Node) (t : Nat) : Node :=
  match n.tab t with
  | none => n
  | some d =>
    if d.dbl then
      let k := 8 * d.size
      let a := tabAddr d.base
      let b := a + k
      let mv := fun x => if a ≤ x ∧ x < a + k then x + k else if b ≤ x ∧ x < b + k then x - k else x
      { n with mem := memSwap n.mem a b k, poison := n.poison.map mv }
    else n

/-- The table whose stored words cover word `w`, with the view the word lies in. -/
def Node.tabAt (n : Node) (w : Nat) : Option (TabDef × Bool) :=
  match n.tabs.find? (fun d => decide (d.base ≤ w) && decide (w < d.base + d.size * (if d.dbl then 2 else 1))) with
  | none => none
  | some d => some (d, decide (d.base + d.size ≤ w))

end Sys2Proof.Machine
end

