-- ==== Sys2Proof/Machine/Ckpt.lean ====
section
/-! DEFINITION. Capture and streaming of checkpoints on the active node: the parts, the capture of each engine at its activation boundary, the blocks (12 R423-R428). -/

namespace Sys2Proof.Machine

open Sys2Proof

/-! ### The parts (R423, R424, R427) -/

/-- A pair partner may hold checkpoints of this node. -/
def Node.streams (n : Node) : Bool := !n.single && !n.on F.PAIR_CTRL_TN7

/-- Signal slots of all CKPT_SIGn together (R424). -/
def Node.ckptSlots (n : Node) : Nat := ((List.range 16).map (fun s => n.rd (F.PAIR_CKPT_SIG_COUNT s))).sum

/-- Cells of one view of tables 8 to 11 (R423, R428). -/
def Node.shadowCells (n : Node) (sh : Bool) : List (Nat × Nat × Byte) :=
  ([8, 9, 10, 11].map (fun t => match n.tab t with
    | none => []
    | some d => (memPart n.mem (tabAddr (d.view sh)) (8 * d.size)).map (fun c => (t, c.1, c.2)))).flatten

/-- Signal slots of one logical slot with their ages (R423, R427). -/
def Node.ckptSigs (n : Node) (s : Nat) : List CkSig :=
  match n.boundEng s with
  | none => []
  | some e => (List.range (n.rd (F.PAIR_CKPT_SIG_COUNT s))).map (fun i =>
      let st := rd64 n.mem (sigBase e + 16 * i + 8)
      { slot := s, idx := i, value := rd64 n.mem (sigBase e + 16 * i), status := st / 2 ^ 48 * 2 ^ 48,
        age := (n.clock.fresh + 2 ^ 48 - st % 2 ^ 48) % 2 ^ 48 })

/-- The mailbox of one logical slot. -/
def Node.ckptMailbox (n : Node) (s : Nat) : List (Nat × Nat × Byte) :=
  match n.boundEng s with
  | none => []
  | some e => (memPart n.mem (mboxBase e) 4096).map (fun c => (s, c.1, c.2))

/-- Bytes of table `t` in one bank. -/
def Node.tabBytes (n : Node) (t : Nat) : Nat := match n.tab t with | none => 0 | some d => 8 * d.size

/-- Entries of table 1. -/
def Node.streamCount (n : Node) : Nat := match n.tab 1 with | none => 0 | some d => d.entries

/-- Logical slots that an engine runs. -/
def Node.boundSlots (n : Node) : List Nat := (List.range 16).filter (fun s => (n.boundEng s).isSome)

/-- Bytes of each part, at most those of R423: with the signal slots of R424, a checkpoint never exceeds 1.5 MiB. -/
def Node.ckptLens (n : Node) : FMap Nat :=
  [256, ([8, 9, 10, 11].map n.tabBytes).sum, 24 * n.streamCount, 16384, 2560, 4096 * n.boundSlots.length,
   16 * ((n.boundSlots.map (fun s => n.rd (F.PAIR_CKPT_SIG_COUNT s))).sum)].zipIdx.foldl (fun m x => FMap.put 0 m x.2 x.1) []

/-- What a checkpoint takes at the period boundary, in one FAB cycle: all but the signal slots and mailboxes (R423, R425). -/
def Node.snapshot (n : Node) (q : Nat) : Ckpt :=
  { seq := q, sender := n.ident, epoch := n.epoch, pos := n.rd F.TOP_INAUG_POSITION, orient := n.rd F.TOP_INAUG_ORIENT,
    fresh := n.clock.fresh, time := n.clock.now, integ := n.clock.integ, digest := n.rd F.TOP_DIGEST_DIGEST,
    count := n.rd F.TOP_INAUG_COUNT, tables := n.shadowCells false, lens := n.ckptLens,
    streams := match n.tab 1 with
      | none => []
      | some d => (memPart n.mem (tabAddr d.base) (8 * d.size)).filter (fun c => decide (c.1 % 64 < 24)),
    phy := [0, 1, 2, 3].foldl (fun m p => FMap.put [] m p (n.port p).coef) [],
    dsSeq := n.datasets.foldl (fun m d => FMap.put 0 m d.1 (n.rd (F.BRG_DS_SEQ_SEQ d.1))) [] }

/-! ### The blocks (R423, R426, R428; log entry 116) -/

/-- `k` bytes from offset `i` of a region given by its listed cells in rising order. -/
def denseCells : Nat → Nat → List (Nat × Byte) → List Byte
  | 0, _, _ => []
  | k + 1, _, [] => zeros (k + 1)
  | k + 1, i, c :: t => if c.1 = i then c.2 :: denseCells k (i + 1) t else 0 :: denseCells k (i + 1) (c :: t)

/-- The bytes of tables 8 to 11, one after the other. -/
def Node.tableBytes (n : Node) (l : List (Nat × Nat × Byte)) : List Byte :=
  ([8, 9, 10, 11].map (fun t =>
    denseCells (n.tabBytes t) 0 ((l.filter (fun c => c.1 == t)).map (fun c => (c.2.1, c.2.2))))).flatten

/-- A time as 6 bytes of seconds and 4 of nanoseconds. -/
def timeBytes (t : Nat) : List Byte := leBytes 6 (secOf t) ++ leBytes 4 (nsOf t)

/-- The header of a checkpoint, 256 bytes (R423). -/
def ckptHeader (c : Ckpt) : List Byte :=
  fit 256 (leBytes 4 c.seq ++ leBytes 6 c.sender ++ leBytes 2 c.epoch ++ leBytes 1 c.pos ++ leBytes 1 c.orient ++
    leBytes 8 c.fresh ++ timeBytes c.time ++ leBytes 8 (ofSigned 64 c.integ) ++ leBytes 4 c.digest ++ leBytes 1 c.count ++
    ((List.range 7).map (fun k => leBytes 4 (FMap.get 0 c.lens k))).flatten)

/-- A checkpoint as it crosses the link: header and parts (R423). -/
def Node.ckptBytes (n : Node) (c : Ckpt) : List Byte :=
  ckptHeader c ++ n.tableBytes c.tables ++
    denseCells (24 * n.streamCount) 0 (c.streams.map (fun x => (x.1 / 64 * 24 + x.1 % 64, x.2))) ++
    ([0, 1, 2, 3].map (fun p => fit 4096 (FMap.get [] c.phy p))).flatten ++
    ((List.range 640).map (fun d => leBytes 4 (FMap.get 0 c.dsSeq d))).flatten ++
    (n.boundSlots.map (fun s =>
      denseCells 4096 0 ((c.mailboxes.filter (fun x => x.1 == s)).map (fun x => (x.2.1, x.2.2))))).flatten ++
    (n.boundSlots.map (fun s => ((c.sigs.filter (fun x => x.slot == s)).map (fun x =>
      leBytes 8 x.value ++ leBytes 8 (x.status + x.age))).flatten)).flatten

/-- An agreement checkpoint as it crosses the link: epoch, T_commit, the agreed directory, the shadow banks (R428). -/
def Node.agreeBytes (n : Node) (a : Agree) : List Byte :=
  leBytes 2 a.epoch ++ leBytes 1 a.count ++ leBytes 1 a.pos ++ leBytes 1 a.orient ++ leBytes 4 a.digest ++ timeBytes a.tcommit ++
    ((List.range (8 * a.count)).map (fun k => leBytes 8 (FMap.get 0 a.dir (8 + k)))).flatten ++ n.tableBytes a.tables

/-- Send bytes in blocks of 4 KiB, each with its CRC-32C (R423, R428). -/
def Node.sendBlocks (n : Node) (agree : Bool) (q : Nat) (b : List Byte) : Node :=
  let k := (b.length + 4095) / 4096
  (List.range k).foldl (fun a i =>
    let d := fit 4096 (slice b (4096 * i) 4096)
    a.emit (.ckptBlock agree q i (i + 1 == k) (d ++ leBytes 4 (crc32c d)))) n

/-- The agreement checkpoint goes ahead of a periodic one, which then resumes; epoch 0 invalidates what the standby holds (R428; log entry 118). -/
def Node.sendAgree (n : Node) (a : Agree) : Node := n.sendBlocks true a.epoch (n.agreeBytes a)

/-! ### The capture (R425) -/

/-- The capture has all its parts: it ends, and the blocks go. -/
def Node.captureEnd (n : Node) : Node :=
  match n.pair.capture with
  | some c => if n.pair.capWait = [] then
      { n with pair := { n.pair with capture := none } }.sendBlocks false c.seq (n.ckptBytes c) else n
  | none => n

/-- Signal slots and mailbox of one logical slot join the capture. -/
def Node.captureSlot (n : Node) (s : Nat) : Node :=
  match n.pair.capture with
  | some c => { n with pair := { n.pair with
      capWait := n.pair.capWait.filter (fun x => x != s),
      capture := some { c with sigs := c.sigs ++ n.ckptSigs s, mailboxes := c.mailboxes ++ n.ckptMailbox s } } }
  | none => n

/-- An activation boundary of engine `e`: a capture that waits for it takes the engine's slots and mailbox (R425). -/
def Node.captureAt (n : Node) (e : Nat) : Node :=
  match n.slotOf e with
  | some s => if s ∈ n.pair.capWait then (n.captureSlot s).captureEnd else n
  | none => n

/-- Slot `s` is not in the middle of an activation. -/
def Node.slotIdle (n : Node) (s : Nat) : Bool :=
  match n.boundEng s with
  | some e => (n.eng e).phase == .idle
  | none => true

/-- A capture takes the slots whose engines run no activation; a slot that has lost its engine is waited for no longer. -/
def Node.captureIdle (n : Node) : Node :=
  ((n.pair.capWait.filter n.slotIdle).foldl Node.captureSlot n).captureEnd

/-- Capture a checkpoint and stream it (R425). -/
def Node.captureNow (n : Node) : Node :=
  let q := n.pair.nextCk
  { n with pair := { n.pair with nextCk := (q + 1) % 2 ^ 32, sending := some (q, n.clock.fresh), capture := some (n.snapshot q),
                                 capWait := List.range 16 } }.captureIdle

end Sys2Proof.Machine
end

