-- ==== Sys2Proof/Machine/Frames.lean ====
section
/-! DEFINITION. Ethernet frames as the fabric sees them: tags (06 R197, R207), IPv4 and UDP fields, checksums, the TRDP PD header unit (11 R402, R403), and the receive MAC (07 R233-R240). -/

namespace Sys2Proof.Machine

open Sys2Proof

/-- The frame is IPv4 without options. -/
def isIp4 (b : List Byte) : Bool := beAt b 12 2 == 0x0800 && byteAt b 14 == 0x45

/-- IPv4 without options, not fragmented, carrying UDP (06 R197 kind 1). -/
def isUdp (b : List Byte) : Bool := isIp4 b && beAt b 20 2 % 0x4000 == 0 && byteAt b 23 == 17

/-- An IPv4 UDP datagram in an untagged frame, with or without options, not fragmented (11 R382, R403). -/
def isDatagram (b : List Byte) : Bool :=
  beAt b 12 2 == 0x0800 && byteAt b 14 / 16 == 4 && decide (5 ≤ byteAt b 14 % 16) && beAt b 20 2 % 0x4000 == 0 && byteAt b 23 == 17

/-- Where the UDP header of a datagram starts. -/
def udpStart (b : List Byte) : Nat := 14 + 4 * (byteAt b 14 % 16)

/-- IPv4 UDP to port 17 224, whatever its header length; of a fragmented datagram the first fragment (11 R403). -/
def isPd (b : List Byte) : Bool :=
  beAt b 12 2 == 0x0800 && byteAt b 14 / 16 == 4 && byteAt b 23 == 17 && beAt b 20 2 % 0x2000 == 0 &&
    beAt b (udpStart b + 2) 2 == 17224

/-- Destination port of a datagram. -/
def udpPort (b : List Byte) : Nat := beAt b (udpStart b + 2) 2

/-- The UDP payload of a datagram. -/
def udpPayload (b : List Byte) : List Byte := slice b (udpStart b + 8) (beAt b (udpStart b + 4) 2 - 8)

def ipDst (b : List Byte) : Nat := beAt b 30 4
def ipSrc (b : List Byte) : Nat := beAt b 26 4
def udpDst (b : List Byte) : Nat := beAt b 36 2

/-- A TTDP frame of IEC 61375-2-5: TOPOLOGY by its EtherType, HELLO by LLDP's and the backbone's group address (PRESUMED; log entry 17). -/
def isTtdp (b : List Byte) : Bool := beAt b 12 2 == 0x894C || (beAt b 12 2 == 0x88CC && beAt b 0 6 == 0x0180C200000E)

/-- A topology frame of the backbone: a Glavohan one or a TTDP one (08 R274, R275). -/
def topoFrame (b : List Byte) : Bool := (beAt b 0 6 == 0x0180C200000E && beAt b 12 2 == 0x88B5) || isTtdp b

/-- VLAN identifier, 0 when untagged. -/
def vidOf (tci : Option Nat) : Nat := (tci.getD 0) % 4096

/-! ### The receive MAC (07 R233-R240, R252-R255) -/

/-- What the receive MAC makes of a frame: dropped, or the bytes it keeps and whether they are cut. -/
inductive MacOut where
  | dropped
  | good (bytes : List Byte) (oversize : Bool)
deriving DecidableEq, Repr

/-- Count a discarded frame. -/
def Node.macDrop (n : Node) (p i : Nat) : MacOut × Node := (.dropped, n.cntAdd p i 1)

/-- Counters of a good frame of `len` bytes DA through FCS, whose kept bytes are `b` (07 R255). -/
def Node.rxCount (n : Node) (p len : Nat) (b : List Byte) (oversize : Bool) : Node :=
  let u := untag b
  let n := ((n.cntAdd p 0 len).cntAdd p 1 1).cntAdd p (2 + castOf b) 1
  let n := (n.cntAdd p 7 (b2n u.tci.isSome)).cntAdd p 8 (b2n u.rseq.isSome)
  let n := n.cntAdd p (9 + sizeBin len) (b2n (decide (len ≤ 9216)))
  n.cntAdd p 18 (b2n oversize)

/-- The checks of 07 R233, R234 and R240 with their counters. -/
def Node.rxMac (n : Node) (p : Nat) (f : WireFrame) : MacOut × Node :=
  let len := f.bytes.length + 4
  let n := (n.cntAdd p 29 len).cntAdd p 26 f.frags
  if f.smdErr then (n.pviol 7 p).macDrop p 23
  else if f.assyErr then (n.pviol 7 p).macDrop p 24
  else
    let n := n.cntAdd p 25 (b2n (decide (0 < f.frags)))
    if f.symErr then n.macDrop p 22
    else if len < 64 then n.macDrop p (if f.fcsOk then 20 else 21)
    else if !f.fcsOk then n.macDrop p 19
    else
      let max' := n.rd (F.PRT_CTRL_MAXLEN p)
      let oversize := decide (max' < len)
      let b := if oversize then f.bytes.take (max' - 4) else f.bytes
      (.good b oversize, n.rxCount p len b oversize)

/-- The MAC receives a frame that the surroundings hand over by a row of its own: good, and padded as any frame on a wire is (07 R255; log entry 60). -/
def Node.rxRow (n : Node) (p : Nat) (b : List Byte) : MacOut × Node := n.rxMac p { bytes := b ++ zeros (60 - b.length) }

/-! ### Addresses -/

/-- The node's MAC address as bytes of port `p` (07 R236). -/
def Node.portMac (n : Node) (p : Nat) : List Byte := beBytes 6 (macOf n.ident p)

/-- The node's own position (08). -/
def Node.position (n : Node) : Nat := n.rd F.TOP_INAUG_POSITION

/-- A train address: 10.128.0.0/9 with bits [22:20] zero (08 R300). -/
def isTrain (a : Nat) : Bool := a / 2 ^ 20 == 0x0A8

/-- Position field of a train address. -/
def trainPos (a : Nat) : Nat := bitsOf a 19 14

/-- The train address of a host identifier at a position. -/
def trainAddr (p h : Nat) : Nat := 0x0A800000 + p * 2 ^ 14 + h % 2 ^ 14

/-! ### The TRDP header unit (11 R402, R403) -/

/-- FLAGS bits of a dataset (11 R401). -/
def Dataset.en (d : Dataset) : Bool := bitOf d.flags 0
def Dataset.sub (d : Dataset) : Bool := bitOf d.flags 1

/-- etbTopoCnt: the directory's digest in native mode, the standard's value in standard mode (11 R402). -/
def Node.topoCnt (n : Node) : Nat :=
  if n.on F.TOP_INAUG_STANDARD then Config.standardTopoCnt n.epoch % 2 ^ 32 else n.rd F.TOP_DIGEST_DIGEST

/-- The 40 bytes of a PD header in the layout of IEC 61375-2-3 (PRESUMED, log entry 22), without headerFcs. -/
def pdHeader (seq comid topo len : Nat) : List Byte :=
  beBytes 4 seq ++ beBytes 2 0x0100 ++ beBytes 2 0x5064 ++ beBytes 4 comid ++ beBytes 4 topo ++ zeros 4 ++
    beBytes 4 len ++ zeros 12

/-- The headers the unit prefixes to the user data of dataset `d` (11 R402). -/
def Node.pdBuild (n : Node) (d : Nat) (user : List Byte) : List Byte :=
  let ds := n.dataset d
  let len := user.length
  let dmac := if 0xE0000000 ≤ ds.addr ∧ ds.addr < 0xF0000000
    then beBytes 6 (0x01005E000000 + ds.addr % 2 ^ 23) else zeros 6
  let src := trainAddr n.position 0
  let ip0 := [0x45, BitVec.ofNat 8 (ds.dscp * 4)] ++ beBytes 2 (20 + 8 + 40 + len) ++ beBytes 2 n.ipId ++
    beBytes 2 0x4000 ++ [BitVec.ofNat 8 ds.ttl, 17]
  let addrs := beBytes 4 src ++ beBytes 4 ds.addr
  let ip := ip0 ++ beBytes 2 (ipSum (ip0 ++ zeros 2 ++ addrs)) ++ addrs
  let udp := beBytes 2 17224 ++ beBytes 2 17224 ++ beBytes 2 (8 + 40 + len) ++ zeros 2
  let pd := pdHeader (n.rd (F.BRG_DS_SEQ_SEQ d)) ds.comid n.topoCnt len
  dmac ++ n.portMac 22 ++ beBytes 2 0x0800 ++ ip ++ udp ++ pd ++ leBytes 4 (crc32 pd) ++ user

/-- Outcome of the checks of R403. -/
inductive PdResult where
  | pass (d seq src : Nat)
  | bad (reg : Nat)
  | badDs (d field : Nat)
deriving DecidableEq, Repr

/-- The enabled subscribed dataset with a comId. -/
def Node.pdDataset (n : Node) (comid : Nat) : Option Nat :=
  (n.datasets.find? (fun e => e.2.en && e.2.sub && e.2.comid == comid)).map (·.1)

/-- The checks of R403 on a frame for UDP port 17 224, in order: `bad k` counts in register k of PD_IPHDR, PD_FCS, PD_VERSION, PD_MSGTYPE, PD_COMID; `badDs d k` in LENGTH, SRC, TOPO, SEQ. -/
def Node.pdCheck (n : Node) (b : List Byte) : PdResult :=
  let hl := byteAt b 14 % 16
  let u := 14 + 4 * hl
  let ulen := beAt b (u + 4) 2
  let pd := slice b 42 40
  let comid := beAt pd 8 4
  let topo := beAt pd 12 4
  let seq := beAt pd 0 4
  let src := ipSrc b
  if fold16 (onesSum (slice b 14 (4 * hl))) ≠ 0xFFFF ∨ hl ≠ 5 ∨ beAt b 20 2 % 0x4000 ≠ 0 ∨ ulen < 48 then .bad 0
  else if crc32 (pd.take 36) ≠ leAt pd 36 4 then .bad 1
  else if byteAt pd 4 ≠ 1 then .bad 2
  else if beAt pd 6 2 ≠ 0x5064 ∧ beAt pd 6 2 ≠ 0x5070 then .bad 3
  else match n.pdDataset comid with
  | none => .bad 4
  | some d =>
    let ds := n.dataset d
    if beAt pd 20 4 ≠ ds.length ∨ beAt pd 20 4 ≠ ulen - 48 then .badDs d 0
    else if bitOf ds.flags 4 ∧ src ≠ ds.addr then .badDs d 1
    else if bitOf ds.flags 2 ∧ topo ≠ 0 ∧ topo ≠ n.topoCnt ∧ ¬(n.inGrace ∧ topo = n.inaug.oldDigest) then .badDs d 2
    else
      let recent : Bool := match ds.accAt with
        | none => false
        | some t => decide (n.clock.fresh < t + 1000 * ds.timeout)
      let dlt := (seq + 2 ^ 32 - n.rd (F.BRG_DS_SEQ_SEQ d)) % 2 ^ 32
      if bitOf ds.flags 3 ∧ recent ∧ (dlt = 0 ∨ 2 ^ 31 ≤ dlt ∨ src ≠ ds.accSrc) then .badDs d 3
      else .pass d seq src

/-- Count a failed check, with the partner violation of 13 R467. -/
def Node.pdFail (n : Node) (r : PdResult) (ingress : Nat) : Node :=
  let n := match r with
    | .pass _ _ _ => n
    | .bad k => n.inc (F.BRG_PD_ERR_COUNT k)
    | .badDs d 0 => n.inc (F.BRG_DS_ERR_LENGTH d)
    | .badDs d 1 => n.inc (F.BRG_DS_ERR_SRC d)
    | .badDs d 2 => n.inc (F.BRG_DS_ERR_TOPO d)
    | .badDs d _ => n.inc (F.BRG_DS_ERR_SEQ d)
  n.pviol 12 ingress

/-- Record an acceptance: sequence, source, count, and the end of a time-out (11 R403). -/
def Node.pdAccept (n : Node) (d seq src : Nat) : Node :=
  let n := (n.wr (F.BRG_DS_SEQ_SEQ d) seq).put (F.BRG_DS_STAT_TIMED_OUT d) false
  let n := n.inc (F.BRG_DS_COUNT_COUNT d)
  let ds := { n.dataset d with accAt := some n.clock.fresh, accSrc := src }
  { n with datasets := FMap.put {} n.datasets d ds }

end Sys2Proof.Machine
end

