-- ==== Sys2Proof/Machine/Fabric.lean ====
section
/-! DEFINITION. The forwarding fabric up to the queues (06): cells, classification, stream contexts, policers, recovery, destinations, admission and enqueue; train routing (08 R301). -/

namespace Sys2Proof.Machine

open Sys2Proof

/-! ### Cells (06 R219-R226) -/

/-- Cells of a stored frame of `k` bytes (06 R219). -/
def cellsFor (k : Nat) : Nat := (k + 32 + 255) / 256

/-- Banks in service. -/
def Node.serviceBanks (n : Node) : List Nat := (List.range 26).filter (fun b => n.rd (F.FAB_BANK_STATE b) == 1)

/-- Free cells of the banks in service (06 R222). -/
def Node.freeCells (n : Node) : Nat := (n.serviceBanks.map (fun b => (n.bank b).free)).sum

/-- Cells on their way back to the free pool (06 R223). -/
def Node.returningCells (n : Node) : Nat := (n.serviceBanks.map (fun b => (n.bank b).returning)).sum

/-- Take one cell; the manual does not say of which bank, so a free value chooses (log entry 16). -/
def Node.takeCell (n : Node) : Option (Nat × Node) :=
  let c := n.serviceBanks.filter (fun b => decide (0 < (n.bank b).free))
  if c.isEmpty then none else
  let (v, n) := n.free
  let b := c.getD (v % c.length) 0
  some (b, n.setBank b { n.bank b with free := (n.bank b).free - 1 })

/-- Take up to `k` cells. -/
def Node.takeCells : Nat → Node → List Nat × Node
  | 0, n => ([], n)
  | k + 1, n => match n.takeCell with
    | none => ([], n)
    | some (b, n) => let (l, n) := Node.takeCells k n; (b :: l, n)

/-- A cell passes to returning, or leaves the buffer when its bank drains (06 R221, R226). -/
def Node.returnCell (n : Node) (b : Nat) : Node :=
  if n.rd (F.FAB_BANK_STATE b) = 1 then n.setBank b { n.bank b with returning := (n.bank b).returning + 1 }
  else if n.rd (F.FAB_BANK_STATE b) = 2 then
    { n with fab := { n.fab with drainCells := n.fab.drainCells - 1 } }
  else n

def Node.returnCells (n : Node) (l : List Nat) : Node := l.foldl Node.returnCell n

/-- Cells a discarded frame had taken pass to returning (06 R220). -/
def Node.bounce (n : Node) (k : Nat) : Node :=
  let (l, n) := Node.takeCells k n
  n.returnCells l

/-! ### PFC the node sends (06 R217) -/

/-- Cells charged to a class of an ingress port. -/
def Node.charge (n : Node) (p c : Nat) : Nat :=
  ((n.fab.frames.filter (fun e => e.2.ingress == p && e.2.cls == c)).map (fun e => e.2.cells.length)).sum

/-- The PHY of a backbone port is joined to its connector: the line's relays are open, and their feedback agrees (07 R266, R269). -/
def Node.joined (n : Node) (p : Nat) : Bool :=
  decide (4 ≤ p) || (!n.on (F.BBL_RELAY_CLOSED (lineOf p)) && !n.on (F.BBL_RELAY_MISMATCH (lineOf p)))

/-- The link of a port is up; an internal port always is. A backbone link whose PHY the relays have cut off is down until it has trained anew (07 R266). -/
def Node.linkUp (n : Node) (p : Nat) : Bool :=
  decide (20 ≤ p) || (n.on (F.PRT_STATUS_LINK p) && n.joined p && !decide (p ∈ n.pair.cut))

/-- A port's transmitter runs: data island powered, claim held, outside the gap of a takeover, link up, PHY joined (12 R412, R433; 07 R266). -/
def Node.canTx (n : Node) (p : Nat) : Bool :=
  n.dataOn && n.on F.PAIR_STATUS_CLAIM_HELD && n.forwards && decide (p < 20) && n.linkUp p

/-- The backbone port is barred (08 R287). -/
def Node.barred (n : Node) (p : Nat) : Bool := decide (p < 4) && bitOf (n.rd F.TOP_INAUG_BARRED) p

/-- A PFC frame for one class (07 R236). -/
def Node.pfcFrame (n : Node) (p c t : Nat) : List Byte :=
  fit 60 (beBytes 6 0x0180C2000001 ++ n.portMac p ++ beBytes 2 0x8808 ++ beBytes 2 0x0101 ++ beBytes 2 (2 ^ c) ++
    zeros (2 * c) ++ beBytes 2 t)

/-- Gear-change silence or low-power idle: the transmitter starts no frame (07 R248, R263). -/
def Node.quiet (n : Node) (p : Nat) : Bool :=
  n.on (F.PRT_STATUS_LPI_TX p) || (match (n.port p).shift with | some s => s.silent | none => false)

/-- Send a PFC frame; it leaves even while the port is paused (07 R245). -/
def Node.sendPfc (n : Node) (p c t : Nat) : Node :=
  if n.canTx p && !n.quiet p then
    let b := n.pfcFrame p c t
    ((n.emit (.frame p b)).txCount p b).cntAdd p 37 1
  else n

/-- PFC that is to be sent for a class: true, its charge has reached XOFF; false, it has fallen below XON (06 R217). -/
def Node.pfcDue (n : Node) (p c : Nat) : Option Bool :=
  let sent := bitOf (n.port p).pfcSent c
  let w := n.tabW 5 p 2
  let ch := n.charge p c
  if !sent && bitOf (bitsOf (n.tabW 5 p 0) 63 56) c && decide (bitsOf w 63 48 ≤ ch) then some true
  else if sent && decide (ch < bitsOf w 47 32) then some false
  else none

/-- Send the PFC that is due for a class; a transmitter that cannot send now does so once it can. -/
def Node.pfcClass (n : Node) (p c : Nat) : Node :=
  if !n.canTx p || n.quiet p then n else
  match n.pfcDue p c with
  | none => n
  | some b => (n.sendPfc p c (if b then 0xFFFF else 0)).setPort p { n.port p with pfcSent := setBit (n.port p).pfcSent c b }

def Node.pfcUpd (n : Node) (p : Nat) : Node :=
  if p < 20 then (List.range 8).foldl (fun a c => a.pfcClass p c) n else n

/-! ### Reference counts (06 R221) -/

/-- The write-back of a transmit descriptor (05 R185, R186; 09 R342, R344): one posted write of bytes 08h to 1Fh but 0Ch, then a second that clears OWN, at the ring's base of this instant (log entry 139). -/
def Node.descDone (n : Node) (d : Desc) : Node :=
  let t := d.stamp.getD 0
  let st := b2n d.sent + 2 * b2n d.late + 4 * b2n d.lost + 8 * b2n d.inv
  let loss := if d.port < 20 then n.rd (F.TIM_TSLOST_COUNT d.port) % 256 else 0
  let wb := slice d.bytes 13 3 ++ leBytes 6 (secOf t) ++ leBytes 4 (nsOf t) ++ leBytes 2 (fracOf t) ++
    [BitVec.ofNat 8 st, BitVec.ofNat 8 loss, 0, 0]
  let a := n.rd (F.HST_TXBASE_HI_ADDR d.ring) * 2 ^ 32 + n.rd (F.HST_TXBASE_LO_ADDR d.ring) * 4096 + 32 * d.idx
  let f := byteAt d.bytes 12
  let n := (n.emit (.hostBack (a + 8) (slice d.bytes 8 4) wb)).emit (.hostWrite (a + 12) [BitVec.ofNat 8 (f / 2 * 2)])
  let n := if d.stamp.isSome then
      n.setPort d.port { n.port d.port with tsHost := (n.port d.port).tsHost - 1 } else n
  if bitOf f 3 then n.msi d.ring else n

/-- Write back the descriptor a frame came from. -/
def Node.frameDone (n : Node) (fid : Nat) : Node :=
  match n.fab.descs.find? (fun d => d.fid == fid) with
  | none => n
  | some d => { n with fab := { n.fab with descs := n.fab.descs.filter (fun x => x.fid != fid) } }.descDone d

/-- One hold on a stored frame ends; at 0 its cells pass to returning and the descriptor it came from is written back. -/
def Node.dropRef (n : Node) (fid : Nat) : Node :=
  let f := n.frame fid
  if f.refs ≤ 1 then
    (((n.setFrame fid {}).returnCells f.cells).pfcUpd f.ingress).frameDone fid
  else n.setFrame fid { f with refs := f.refs - 1 }

/-! ### Stream contexts, counters -/

/-- A copy of a frame under stream context `s` has been delivered: no later end of its copies is a discard of the frame. -/
def Node.delivered (n : Node) (fid s : Nat) : Node :=
  if FMap.get 0 (n.frame fid).left s = 0 then n else n.setFrame fid { n.frame fid with left := FMap.put 0 (n.frame fid).left s 0 }

/-- The stream context `s` is valid; a poisoned entry counts as a miss (06 R199, 02 R68). -/
def Node.ctxValid (n : Node) (s : Nat) : Bool := bitOf (n.tabW 1 s 0) 63

/-- Add to a 64-bit word of a stream context. -/
def Node.ctxAdd (n : Node) (s j k : Nat) : Node := n.tabHw 1 s j (n.tabW 1 s j + k)

/-- Count a frame in POLICED of its context (06 R200). -/
def Node.ctxPoliced (n : Node) (s : Nat) : Node :=
  let w := n.tabW 1 s 6
  n.tabHw 1 s 6 ((bitsOf w 63 32 + 1) % 2 ^ 32 * 2 ^ 32 + w % 2 ^ 32)

/-- Count a frame in DISCARDS of its context (06 R200). -/
def Node.ctxDiscard (n : Node) (s : Nat) : Node :=
  let w := n.tabW 1 s 6
  n.tabHw 1 s 6 (bitsOf w 63 32 * 2 ^ 32 + (w % 2 ^ 32 + 1) % 2 ^ 32)

/-- A copy is not sent: its hold on the frame ends, and the frame counts in DISCARDS when that was the last of its copies under the context and none has been delivered (06 R200; log entry 110). -/
def Node.dropCopy (n : Node) (c : Copy) : Node :=
  let f := n.frame c.fid
  let k := FMap.get 0 f.left c.stream
  let n := if k = 0 then n else n.setFrame c.fid { f with left := FMap.put 0 f.left c.stream (k - 1) }
  (if k = 1 then n.ctxDiscard c.stream else n).dropRef c.fid

/-- Count discard cause `k` (06, cause table). -/
def Node.disc (n : Node) (k : Nat) : Node := n.inc (F.FAB_DISC_COUNT k)

/-- RACT of a context, 00b where its recovery record is poisoned (02 R68). -/
def Node.ract (n : Node) (s : Nat) : Nat :=
  let w := n.tabW 1 s 0
  let r := bitsOf w 53 52
  if 2 ≤ r ∧ (n.tabRead 4 (bitsOf w 29 20)).isNone then 0 else r

/-! ### Classification (06 R197) -/

/-- The key of kind `k` of a frame from a port, if it is formed. -/
def classKey (u : Untagged) (p k : Nat) : Option Nat :=
  let vid := vidOf u.tci * 2 ^ 48
  if k = 0 then some (vid + beAt u.body 0 6)
  else if k = 1 then
    if isUdp u.body then some (2 ^ 61 + vid + ipDst u.body * 2 ^ 16 + udpDst u.body) else none
  else if k = 2 then some (2 * 2 ^ 61 + p)
  else some (3 * 2 ^ 61 + vid + p * 2 ^ 16 + beAt u.body 12 2)

/-- The stream context of a frame: the hit of the kind first in the order 1, 0, 3, 2. -/
def Node.classify (n : Node) (u : Untagged) (p : Nat) : Option Nat :=
  let kinds := bitsOf (n.tabW 5 p 0) 55 52
  ([1, 0, 3, 2].filter (fun k => bitOf kinds k)).findSome? (fun k =>
    match classKey u p k with
    | none => none
    | some key => (n.tabFind 0 key).map (fun w => w.getD 0 0 % 4096))

/-! ### Policers (06 R212) -/

/-- The policer decision on a frame of `len` bytes, the bucket refilled with every TIM cycle and held as what it lacks in 1/64 000 byte; a poisoned entry passes it (02 R68). -/
def Node.police (n : Node) (s len : Nat) : Bool × Node :=
  let w := n.tabW 1 s 0
  let i := bitsOf w 39 30
  if !bitOf w 40 then (true, n) else
  match n.tabRead 3 i with
  | none => (true, n)
  | some e =>
    let rate := bitsOf (e.getD 0 0) 63 32
    let cap := (e.getD 0 0) % 2 ^ 32 * 64000
    let (deficit, at') := FMap.get (0, 0) n.fab.buckets i
    let d := deficit - rate * (n.freshCycles - at')
    let ok := decide (d + len * 64000 ≤ cap)
    let d := if ok then d + len * 64000 else d
    (ok, { n with fab := { n.fab with buckets := FMap.put (0, 0) n.fab.buckets i (d, n.freshCycles) } })

/-! ### 802.1CB recovery (06 R209) -/

/-- Outcome and record words of the vector recovery algorithm of IEEE 802.1CB (PRESUMED, log entry 23): 0 accepted, 1 duplicate, 2 outside the window. -/
def recoverStep (w0 w1 seq : Nat) : Nat × Nat × Nat :=
  let hist := if bitsOf w0 37 32 = 0 then 64 else bitsOf w0 37 32
  let r := bitsOf w0 63 48
  let put := fun s => s * 2 ^ 48 + w0 % 2 ^ 47
  let mask := 2 ^ hist
  if bitOf w0 47 then (0, put seq, 1)
  else
    let dl : Int := toSigned 16 (seq + 65536 - r)
    if (hist : Int) ≤ dl ∨ dl ≤ -(hist : Int) then (2, w0, w1)
    else if dl ≤ 0 then
      if bitOf w1 (-dl).toNat then (1, w0, w1) else (0, put r, setBit w1 (-dl).toNat true % mask)
    else (0, put seq, (w1 * 2 ^ dl.toNat + 1) % mask)

/-- The recovery test of a frame (06 R209): pass or discard. -/
def Node.recover (n : Node) (s : Nat) (rseq : Option Nat) (ingress : Nat) : Bool × Node :=
  if n.ract s < 2 then (true, n) else
  let i := bitsOf (n.tabW 1 s 0) 29 20
  match rseq with
  | none =>
    let w := n.tabW 4 i 3
    (true, n.tabHw 4 i 3 (w / 2 ^ 16 * 2 ^ 16 + (w % 2 ^ 16 + 1) % 2 ^ 16))
  | some q =>
    let (r, w0, w1) := recoverStep (n.tabW 4 i 0) (n.tabW 4 i 1) q
    let n := (n.tabHw 4 i 0 w0).tabHw 4 i 1 w1
    let w2 := n.tabW 4 i 2
    let w3 := n.tabW 4 i 3
    if r = 0 then (true, n.tabHw 4 i 2 ((bitsOf w2 63 32 + 1) % 2 ^ 32 * 2 ^ 32 + w2 % 2 ^ 32))
    else if r = 1 then (false, n.tabHw 4 i 2 (bitsOf w2 63 32 * 2 ^ 32 + (w2 % 2 ^ 32 + 1) % 2 ^ 32))
    else (false, (n.tabHw 4 i 3 ((bitsOf w3 63 32 + 1) % 2 ^ 32 * 2 ^ 32 + w3 % 2 ^ 32)).pviol 8 ingress)

/-! ### Destinations (06 R201-R206; 08 R287, R301, R302) -/

/-- The port receives frames: its unit is powered, its link is up, its PHY joined, and the node is not in a drill (06 R189; 07 R266; 12 R442). -/
def Node.receives (n : Node) (p : Nat) : Bool := n.dataOn && n.linkUp p && n.mode != .drill

/-- The port is up for a frame: a STALE port counts as down for train-routed frames (08 R302). -/
def Node.upFor (n : Node) (train : Bool) (p : Nat) : Bool :=
  n.linkUp p && !(train && decide (p < 4) && (n.topPort p).stale)

/-- LINES applied to a set of ports (06 R203); a barred port keeps its place, to be removed without a substitute (08 R287). -/
def Node.linesSet (n : Node) (train : Bool) (lines : Nat) (set : List Nat) : List Nat :=
  let up := fun p => n.upFor train p || n.barred p
  let bb := set.filter (fun p => decide (p < 4))
  let rest := set.filter (fun p => decide (4 ≤ p))
  let bb := if lines = 1 then bb.map (fun p => if p % 2 = 1 then p - 1 else p)
    else if lines = 2 then bb.map (fun p => if p % 2 = 0 then p + 1 else p) else bb
  let bb := if lines = 3 then (bb ++ bb.map mateOf)
    else bb.map (fun p => if up p then p else mateOf p)
  (List.range 4).filter (fun p => decide (p ∈ bb) && up p) ++ rest

/-- The grace map in use and its OLD_EPOCH (08 R299, R303). -/
def Node.oldEpoch (n : Node) : Option Nat :=
  let w := n.tabW 10 0 0
  if n.inGrace ∧ bitOf w 16 then some (w % 2 ^ 16) else none

/-- The previous bank routes frames stamped OLD_EPOCH during the grace interval (08 R303). -/
def Node.oldBank (n : Node) (stamp : Nat) : Bool := stamp != n.epoch && n.oldEpoch == some stamp

/-- An old position in the new numbering, where the grace map holds it. -/
def Node.newPos (n : Node) (p : Nat) : Option Nat :=
  let w := n.tabW 10 p 0
  if bitOf w 63 then some (w % 64) else none

/-- Node identifier of a position in the current directory (08 R289). -/
def Node.dirNode (n : Node) (p : Nat) : Nat := n.tabW 8 p 0 % 2 ^ 48

/-- A neighbour's MARK has stamped the frame with the epoch whose commit is scheduled here: its bank is the shadow one (08 R298, R301). -/
def Node.newBank (n : Node) (stamp : Nat) : Bool :=
  stamp != n.epoch && !n.inGrace && (match n.inaug.sched with
    | some c => c.epoch == stamp
    | none => false)

/-- The bank of the stamp is not the active one. -/
def Node.otherBank (n : Node) (stamp : Nat) : Bool := n.oldBank stamp || n.newBank stamp

/-- A directory word of the agreed directory, by position and word (08 R289). -/
def Inaug.dirW (i : Inaug) (p w : Nat) : Nat := FMap.get 0 i.dir (8 * p + w)

/-- The node's own position in the agreed directory, 0 where it is not in it; until its next commit a node that took over stands there under the failed node's identifier too (12 R435, R436). -/
def Node.ownEntry (n : Node) (i : Inaug) : Nat :=
  (((List.range i.dirCount).map (· + 1)).find? (fun p =>
    let id := i.dirW p 0 % 2 ^ 48
    id == n.ident || (n.pair.oldIdent != 0 && id == n.pair.oldIdent))).getD 0

/-- The position in the numbering of the stamp's bank is the node's own; a node without a position has none (01 R36). -/
def Node.ownPos (n : Node) (stamp p : Nat) : Bool :=
  if n.newBank stamp then p != 0 && p == n.ownEntry n.inaug
  else n.position != 0 && (if n.oldBank stamp then n.newPos p == some n.position else p == n.position)

/-- Data words of an entry of a train table, in the active bank or the other. -/
def Node.trainRead (n : Node) (t : Nat) (other : Bool) (i : Nat) : Option (List Nat) :=
  match n.tab t with
  | none => none
  | some d => if n.entryOk d (other && d.dbl) i then some (n.entryData d (other && d.dbl) i) else none

def Node.trainFind (n : Node) (t : Nat) (other : Bool) (key : Nat) : Option (List Nat) :=
  match n.tab t with
  | none => none
  | some d => (n.lookup d (other && d.dbl) key).map (n.entryData d (other && d.dbl))

/-- LOCAL_PREFIX of table 9 entry 0, in a bank (08 R299, R301). -/
def Node.localPrefix (n : Node) (other : Bool) : Nat := ((n.trainRead 9 other 0).getD []).getD 0 0 % 2 ^ 18

/-- An address in the consist subnet (08 R300). -/
def Node.isConsist (n : Node) (other : Bool) (a : Nat) : Bool := a / 2 ^ 14 == n.localPrefix other

/-- Train routing of a frame in the bank of its stamp (08 R301): the egress set, or none on a miss; at epoch 0 there is no train-level translation (01 R36). -/
def Node.trainRoute (n : Node) (b : List Byte) (tags stamp : Nat) : Option (List Nat) :=
  let other := n.otherBank stamp
  if beAt b 12 2 ≠ 0x0800 ∨ byteAt b 14 / 16 ≠ 4 ∨ 64 < 14 + tags + 4 * (byteAt b 14 % 16) then none else
  let dst := ipDst b
  let local' := (n.isConsist other dst) || (isTrain dst && n.ownPos stamp (trainPos dst))
  if local' then
    (n.trainFind 11 other (dst % 2 ^ 14)).map (fun w => [bitsOf (w.getD 0 0) 52 48])
  else if isTrain dst && n.epoch != 0 then
    match n.trainRead 9 other (trainPos dst) with
    | some w => if bitOf (w.getD 0 0) 63 ∧ trainPos dst ≠ 0
        then some ((List.range 23).filter (fun p => bitOf (w.getD 0 0) p)) else none
    | none => none
  else none

/-- Ports of a 23-bit mask. -/
def portsOf (m : Nat) : List Nat := (List.range 23).filter (fun p => bitOf m p)

/-- The set DKIND gives: none means a miss; DKIND 11b is handled before (06 R200, R201; 08 R301). -/
def Node.kindSet (n : Node) (f : Frame) (s : Nat) : Option (List Nat) :=
  let w := n.tabW 1 s 0
  let tags := (if f.tci.isSome then 4 else 0) + (if f.rseq.isSome then 6 else 0)
  if bitsOf w 59 58 = 0 then some (portsOf (n.tabW 1 s 1))
  else if bitsOf w 59 58 = 1 then n.trainRoute f.data tags f.stamp
  else (n.tabFind 2 (vidOf f.tci * 2 ^ 48 + beAt f.data 0 6)).map (fun e => portsOf (e.getD 0 0))

/-- An engine target names a bound slot or the topology engine (06 R205). -/
def Node.engTarget (n : Node) (t : Nat) : Bool := t == 16 || (decide (t < 16) && (n.boundEng t).isSome)

/-- What a service level serves: at L1 only the backbone and the topology engine's side, in the gap of a takeover nothing (01 R39; 12 R431). -/
def Node.served (n : Node) (p : Nat) : Bool :=
  n.forwards && (decide (2 ≤ n.level) || (n.level == 1 && (decide (p < 4) || p == 22)))

/-- The destination set after DKIND, LINES, the removal of the ingress and of barred ports (06 R201-R203; 08 R287). The ingress is removed before LINES too, so that its partner neither joins nor replaces it (log entry 15). A consist port whose link is down takes no copy (log entry 25). -/
def Node.destSet (n : Node) (f : Frame) (s : Nat) (set : List Nat) : List Nat :=
  let w := n.tabW 1 s 0
  let train := bitsOf w 59 58 == 1
  (n.linesSet train (bitsOf w 57 56) (set.filter (fun p => p != f.ingress))).filter (fun p =>
    !n.barred p && p != f.ingress && n.linkUp p && n.served p)

/-! ### Admission (06 R220) -/

/-- Cells of the frames some copies hold. -/
def Node.copyCells (n : Node) (l : List Copy) : Nat := (l.map (fun c => (n.frame c.fid).cells.length)).sum

/-- Cells queued to a class of an egress port (06 R214 QLIM). -/
def Node.queueCells (n : Node) (p c : Nat) : Nat :=
  if p = 20 then n.copyCells ((n.fab.hostq.map (·.2)).flatten.filter (fun x => x.cls == c))
  else if p = 22 then n.copyCells ((n.fab.engq.map (·.2)).flatten.filter (fun x => x.cls == c))
  else n.copyCells (FMap.get [] n.fab.egress (p * 8 + c)) +
    n.copyCells ((FMap.get [] n.fab.launches p).filter (fun x => x.cls == c))

/-- EXPRESS_RESERVE of the fabric profile (06 R214). -/
def Node.reserve (n : Node) : Nat := n.tabW 5 23 0 % 2 ^ 17

/-- One destination is admitted. -/
def Node.admits (n : Node) (p c free : Nat) : Bool :=
  let q := bitsOf (n.tabW 5 p 3) (8 * c + 7) (8 * c) * 64
  (q == 0 || decide (n.queueCells p c < q)) && (decide (6 ≤ c) || decide (n.reserve < free))

/-- The admitted destinations; the others are removed and counted as QLIMIT. -/
def Node.admission (n : Node) (set : List Nat) (c free : Nat) : List Nat × Node :=
  let ok := set.filter (fun p => n.admits p c free)
  (ok, (List.range (set.length - ok.length)).foldl (fun a _ => a.disc 3) n)

/-! ### Enqueue -/

/-- Queue index of an engine receive queue: logical slot 0-15 or 16 for the topology engine. -/
def engKey (t q : Nat) : Nat := t * 4 + q

/-- Frames in an engine receive queue. -/
def Node.engQueue (n : Node) (t q : Nat) : List Copy := FMap.get [] n.fab.engq (engKey t q)

def Node.setEngQueue (n : Node) (t q : Nat) (l : List Copy) : Node :=
  { n with fab := { n.fab with engq := FMap.put [] n.fab.engq (engKey t q) l } }

/-- Add a copy to an egress class queue. -/
def Node.toEgress (n : Node) (p : Nat) (c : Copy) : Node :=
  { n with fab := { n.fab with egress := FMap.upd [] n.fab.egress (p * 8 + c.cls) (· ++ [c]) } }

/-- Hold a copy in a launch slot of a port (09 R336); one whose launch time is less than 2 µs ahead is due at once (09 R337). -/
def Node.toLaunch (n : Node) (p : Nat) (c : Copy) : Node :=
  let c := { c with soon := decide (c.launch.getD 0 < n.clock.now + 2000 * nsU) }
  { n with fab := { n.fab with launches := FMap.upd [] n.fab.launches p (· ++ [c]) } }

/-- Node time 1 s ahead is the furthest launch (09 R337). -/
def Node.tooFar (n : Node) (t : Nat) : Bool := decide (n.clock.now + secU < t)

/-- The PD check turns the copy for an engine queue away (11 R403). -/
def Node.pdStops (n : Node) (c : Copy) : Bool :=
  let w := n.tabW 1 c.stream 0
  decide ((n.engQueue (bitsOf w 51 47) (bitsOf w 46 45)).length < 64) && isPd (n.frame c.fid).data &&
    (match n.pdCheck (n.frame c.fid).data with
     | .pass .. => false
     | _ => true)

/-- Put one copy of a stored frame to one destination: the engine queue with the PD check, a host ring, a launch slot or a class queue. Answers whether it was queued. -/
def Node.putCopy (n : Node) (p : Nat) (c : Copy) : Bool × Node :=
  let w := n.tabW 1 c.stream 0
  let f := n.frame c.fid
  if p = 22 then
    let t := bitsOf w 51 47
    let q := bitsOf w 46 45
    if 64 ≤ (n.engQueue t q).length then (false, n.disc 9)
    else if isPd f.data then
      match n.pdCheck f.data with
      | .pass d seq src => (true, (n.pdAccept d seq src).setEngQueue t q (n.engQueue t q ++ [c]))
      | r => (false, n.pdFail r f.ingress)
    else (true, n.setEngQueue t q (n.engQueue t q ++ [c]))
  else if p = 20 then
    let r := bitsOf w 44 41
    (true, { n with fab := { n.fab with hostq := FMap.upd [] n.fab.hostq r (· ++ [c]) } })
  else
    match c.launch with
    | some t =>
      if p < 20 then
        if n.tooFar t then (false, n.inc (F.TIM_LAUNCHERR_FAR p))
        else if 64 ≤ (FMap.get [] n.fab.launches p).length then (false, n.inc (F.TIM_LAUNCHERR_NOSLOT p))
        else (true, n.toLaunch p c)
      else (true, n.toEgress p { c with launch := none })
    | none => (true, n.toEgress p c)

/-- Enqueue a stored frame to its admitted destinations: reference count, FWD_FRAMES and the generated sequence number (06 R200, R208, R221); a PD frame turned away counts in DISCARDS though it has other destinations, and not again when these are lost (11 R403; log entry 110). Answers the number of copies; with none the caller counts the frame. -/
def Node.enqueue (n : Node) (c : Copy) (set : List Nat) : Nat × Node :=
  let w2 := n.tabW 1 c.stream 2
  let gen := n.ract c.stream == 1
  let c := if gen then { c with gseq := some (w2 % 65536) } else c
  let stops := decide (22 ∈ set) && n.pdStops c
  let (k, n) := set.foldl (fun (a : Nat × Node) p =>
    let (ok, m) := a.2.putCopy p c
    if ok then (a.1 + 1, m) else (a.1, m)) (0, n)
  if k = 0 then (0, n) else
  let n := if stops then n.ctxDiscard c.stream else n
  let n := n.ctxAdd c.stream 5 1
  let n := if gen then n.tabHw 1 c.stream 2 (w2 / 65536 * 65536 + (w2 % 65536 + 1) % 65536) else n
  let f := n.frame c.fid
  (k, n.setFrame c.fid { f with refs := f.refs + k, left := if stops then f.left else FMap.upd 0 f.left c.stream (· + k) })

/-- Outcome of putting a frame through the fabric. -/
inductive FabOut where
  | stored (fid : Nat)
  | invalid
  | gone
deriving DecidableEq, Repr

/-- The destinations of a frame of context `s` after oversize and engine-target removal; none when the frame is discarded, with the discard counted (06 R199-R206). -/
def Node.destinations (n : Node) (f : Frame) (s : Nat) : Option (List Nat) × Node :=
  let w := n.tabW 1 s 0
  if bitsOf w 59 58 = 3 then (none, (n.disc 10).ctxDiscard s) else
  let set := n.destSet f s ((n.kindSet f s).getD [])
  if set.isEmpty then (none, (n.disc 11).ctxDiscard s) else
  let noeng := decide (22 ∈ set) && !n.engTarget (bitsOf w 51 47)
  let n := if noeng then n.disc 13 else n
  let set := if noeng then set.filter (fun p => p != 22) else set
  if set.isEmpty then (none, (n.disc 11).ctxDiscard s) else
  let set2 := if f.oversize then set.filter (fun p =>
    p == 22 || (p == 20 && n.on (F.HST_RXCTRL_ACCEPT_OVS (bitsOf w 44 41)))) else set
  if set2.isEmpty then (none, (n.disc 5).ctxDiscard s) else (some set2, n)

/-- Cells past the first can all be taken, under the tests of R220. -/
def Node.laterCells (n : Node) (c k : Nat) : Bool :=
  let fr := n.freeCells
  decide (k ≤ fr) && (decide (6 ≤ c) || decide (k ≤ 1) || decide (n.reserve + k < fr + 1))

/-- A datagram to the node's own train address, port 49 321 (11 R382); the node has a train address at a nonzero position. -/
def Node.isBridge (n : Node) (b : List Byte) : Bool :=
  n.position != 0 && isDatagram b && ipDst b == trainAddr n.position 0 && udpPort b == 49321

/-- A bridge datagram recognised at P20 or P22 goes to the bridge, which takes it at its next service (11 R382; log entry 109). -/
def Node.toBridge (n : Node) (p : Nat) (b : List Byte) : Node :=
  { n with brg := { n.brg with inRaw := n.brg.inRaw ++ [(p, udpPayload b)] } }

/-- Cells a frame of class `c` has taken when one cannot be taken: the first from any, later ones of a preemptable class above EXPRESS_RESERVE (06 R220). -/
def Node.takenCells (n : Node) (c k : Nat) : Nat :=
  let fr := n.freeCells
  min (k - 1) (if 6 ≤ c then fr else if fr = 0 then 0 else 1 + (fr - 1 - n.reserve))

/-- An Ethernet frame of a UDP datagram between the train addresses of two positions, both ports `port`; header fields the manual does not give are free values (log entry 30). -/
def Node.trainDatagram (n : Node) (pos port : Nat) (p : List Byte) : List Byte :=
  let v := Config.freeNat n.freeN
  let src := trainAddr n.position 0
  let dst := trainAddr pos 0
  let addrs := beBytes 4 src ++ beBytes 4 dst
  let ip0 := [0x45, BitVec.ofNat 8 (v / 2 ^ 24)] ++ beBytes 2 (28 + p.length) ++ beBytes 2 v ++
    beBytes 2 (0x4000 * (v / 2 ^ 32 % 2)) ++ [BitVec.ofNat 8 (1 + v / 2 ^ 16 % 255), 17]
  let ip := ip0 ++ beBytes 2 (ipSum (ip0 ++ zeros 2 ++ addrs)) ++ addrs
  let u := beBytes 2 port ++ beBytes 2 port ++ beBytes 2 (8 + p.length)
  let pad := if p.length % 2 = 1 then [(0 : Byte)] else []
  let s := ipSum (addrs ++ [0, 17] ++ beBytes 2 (8 + p.length) ++ u ++ zeros 2 ++ p ++ pad)
  zeros 6 ++ n.portMac 22 ++ beBytes 2 0x0800 ++ ip ++ u ++ beBytes 2 (if v / 2 ^ 33 % 2 = 0 then 0 else if s = 0 then 0xFFFF else s) ++ p

/-- Store a frame of context `s` from an external port, P20 or P21, of `len` bytes DA through FCS (06 R198-R221). -/
def Node.enter (n : Node) (f : Frame) (len s : Nat) (launch : Option Nat) : FabOut × Node :=
  if !n.ctxValid s then (.invalid, (n.disc 1).bounce 1) else
  let n := (n.ctxAdd s 3 1).ctxAdd s 4 len
  let c := bitsOf (n.tabW 1 s 0) 62 60
  let f := { f with stream := s, cls := c }
  match n.destinations f s with
  | (none, n) => (.gone, n.bounce 1)
  | (some set, n) =>
    if n.freeCells = 0 then (.gone, (n.disc 4).ctxDiscard s) else
    let (set, n) := n.admission set c (n.freeCells - 1)
    if set.isEmpty then (.gone, (n.ctxDiscard s).bounce 1) else
    let k := cellsFor f.data.length
    if !n.laterCells c k then (.gone, ((n.disc 4).ctxDiscard s).bounce (n.takenCells c k)) else
    let (ok, n) := n.police s len
    if !ok then (.gone, ((n.disc 2).ctxPoliced s).bounce k) else
    let (ok, n) := n.recover s f.rseq f.ingress
    if !ok then (.gone, (n.ctxDiscard s).bounce k) else
    let (cells, n) := Node.takeCells k n
    let fid := n.fab.nextFid
    let n := { n with fab := { n.fab with nextFid := fid + 1 } }
    let n := n.setFrame fid { f with cells := cells, refs := 0 }
    let (q, n) := n.enqueue { fid := fid, stream := s, cls := c, stamp := f.stamp, launch := launch } set
    if q = 0 then (.gone, (n.ctxDiscard s).dropRef fid) else (.stored fid, n.pfcUpd f.ingress)

/-- Close a frame of the node's own units through P22 with context `BRG.CTRL.CTX`, stamped with the current epoch (11 R382). -/
def Node.closeP22 (n : Node) (b : List Byte) : Node :=
  let n := { n with freeN := n.freeN + 1 }
  if n.isBridge b then n.toBridge 22 b else
  (n.enter { data := b, ingress := 22, stamp := n.epoch } (b.length + 4) (n.rd F.BRG_CTRL_CTX) none).2

/-- A frame a program closed, whose cells are `cells`, enters at release (03 R84, 06 R220). -/
def Node.enterEngine (n : Node) (f : Frame) (s : Nat) (launch : Option Nat) : Node :=
  if n.isBridge f.data then (n.toBridge 22 f.data).returnCells f.cells else
  if !n.ctxValid s then (n.disc 1).returnCells f.cells else
  let len := f.data.length + 4
  let n := (n.ctxAdd s 3 1).ctxAdd s 4 len
  let c := bitsOf (n.tabW 1 s 0) 62 60
  let f := { f with stream := s, cls := c }
  match n.destinations f s with
  | (none, n) => n.returnCells f.cells
  | (some set, n) =>
    let (set, n) := n.admission set c n.freeCells
    if set.isEmpty then (n.ctxDiscard s).returnCells f.cells else
    let more := cellsFor f.data.length - f.cells.length
    let free := n.freeCells
    if free < more ∨ (c < 6 ∧ 0 < more ∧ free < n.reserve + more) then
      ((n.disc 4).ctxDiscard s).returnCells f.cells else
    let (ok, n) := n.police s len
    if !ok then ((n.disc 2).ctxPoliced s).returnCells f.cells else
    let (ok, n) := n.recover s f.rseq f.ingress
    if !ok then (n.ctxDiscard s).returnCells f.cells else
    let (extra, n) := Node.takeCells more n
    let fid := n.fab.nextFid
    let n := { n with fab := { n.fab with nextFid := fid + 1 } }
    let n := n.setFrame fid { f with cells := f.cells ++ extra, refs := 0 }
    let (q, n) := n.enqueue { fid := fid, stream := s, cls := c, stamp := f.stamp, launch := launch } set
    if q = 0 then (n.ctxDiscard s).dropRef fid else n

/-- A held input forwarded by EMIT with R = 1 to context `s` (04 R143, 06 R221). -/
def Node.forward (n : Node) (fid s stamp : Nat) : Node :=
  if n.isBridge (n.frame fid).data then n.toBridge 22 (n.frame fid).data else
  if !n.ctxValid s then n.disc 1 else
  let f := { n.frame fid with stamp := stamp }
  let n := (n.ctxAdd s 3 1).ctxAdd s 4 (f.data.length + 4)
  let c := bitsOf (n.tabW 1 s 0) 62 60
  match n.destinations f s with
  | (none, n) => n
  | (some set, n) =>
    let (set, n) := n.admission set c n.freeCells
    if set.isEmpty then n.ctxDiscard s else
    let (ok, n) := n.police s (f.data.length + 4)
    if !ok then (n.disc 2).ctxPoliced s else
    let (ok, n) := n.recover s f.rseq f.ingress
    if !ok then n.ctxDiscard s else
    let (q, n) := n.enqueue { fid := fid, stream := s, cls := c, stamp := stamp } set
    if q = 0 then n.ctxDiscard s else n

/-- A crossing of the MAC/PHY boundary measured to 1 ns, with a factory constant added (09 R317). -/
def Node.crossing (n : Node) (c : Int) : Nat := (((n.clock.now / nsU * nsU : Nat) : Int) + c).toNat

/-- The factory transmit constant of a port at its rate (09 R317). -/
def Node.txConst (n : Node) (p : Nat) : Int := toSigned 32 (n.rd (F.TIM_ASYM_TX_CONST p (n.rd (F.PRT_STATUS_RATE p) - 1)))

/-- The transmit timestamp of a frame on a port: the factory transmit constant of the rate is added. -/
def Node.txTime (n : Node) (p : Nat) : Nat := n.crossing (n.txConst p)

/-- The receive timestamp of a frame on a port: the factory receive constant is subtracted. Frames of P20 to P22 carry none. -/
def Node.rxTime (n : Node) (p : Nat) : Nat :=
  if p < 20 then n.crossing (-(toSigned 32 (n.rd (F.TIM_ASYM_RX_CONST p (n.rd (F.PRT_STATUS_RATE p) - 1))))) else 0

/-- A frame of the topology frame unit or a recognised standard frame goes to queue 0 of the topology engine (08 R275). -/
def Node.topoDeliver (n : Node) (b : List Byte) (p : Nat) : Node :=
  let k := cellsFor b.length
  if 64 ≤ (n.engQueue 16 0).length then n.disc 9
  else if n.freeCells < k then n.disc 4
  else
    let (cells, n) := Node.takeCells k n
    let fid := n.fab.nextFid
    let n := { n with fab := { n.fab with nextFid := fid + 1 } }
    let n := n.setFrame fid { data := b, ingress := p, topo := true, stamp := n.epoch, ts := n.rxTime p, cells := cells, refs := 1 }
    (n.setEngQueue 16 0 (n.engQueue 16 0 ++ [{ fid := fid, stamp := n.epoch }])).pfcUpd p

/-- Transit at L1 without topology service: unchanged out of the same line's other end (01 R39, 08 R284). -/
def Node.relayOnly (n : Node) : Bool := n.level == 1 && (n.epoch == 0 || decide (Res.topology ∈ n.missing))

/-- The frame as the transit path stores it: whole, tags kept, class 7. A barred port carries topology frames only (08 R287). -/
def Node.transit (n : Node) (b : List Byte) (p : Nat) (oversize : Bool) : Node :=
  let q := acrossOf p
  let k := cellsFor b.length
  if !(n.linkUp p && n.linkUp q) then n
  else if (n.barred p || n.barred q) && !topoFrame b then n.disc 11
  else if oversize then n.disc 5
  else if n.freeCells < k then n.disc 4
  else
    let (cells, n) := Node.takeCells k n
    let fid := n.fab.nextFid
    let n := { n with fab := { n.fab with nextFid := fid + 1 } }
    let n := n.setFrame fid { data := b, ingress := p, cls := 7, stamp := n.epoch, cells := cells, refs := 1 }
    (n.toEgress q { fid := fid, stream := 4096, cls := 7, stamp := n.epoch }).pfcUpd p

end Sys2Proof.Machine
end

