-- ==== Sys2Proof/Machine/Egress.lean ====
section
/-! DEFINITION. Egress (06 R207-R216; 07 R237-R245; 08 R302-R304; 09 R336-R344): the egress edit, gates, the scheduler, preemption, launches, and what happens when a copy leaves. -/

namespace Sys2Proof.Machine

open Sys2Proof

/-! ### The egress edit -/

/-- A checksum corrected for the replacement of some 16-bit words. -/
def fixSum (old : Nat) (before after : List Byte) : Nat :=
  65535 - fold16 ((65535 - old) + onesSum (before.map (fun b => 255 - b)) + onesSum after)

/-- Outcome of the egress edit. -/
inductive Edit where
  | send (bytes : List Byte)
  | gone
  | expired
deriving DecidableEq, Repr

/-- One address of an old-epoch frame through the grace map: none when its position has left (08 R303, R304). -/
def Node.graceAddr (n : Node) (a : Nat) : Option Nat :=
  if isTrain a then (n.newPos (trainPos a)).map (fun p => trainAddr p a) else some a

/-- Rewrite of addresses and checksums of a routed frame (08 R302); a node at epoch 0, which has no position, translates none to the train (01 R36). -/
def Node.trainEdit (n : Node) (b : List Byte) (p : Nat) (old : Bool) : Option (List Byte) :=
  let s0 := ipSrc b
  let d0 := ipDst b
  let pair := if old then
      match n.graceAddr s0, n.graceAddr d0 with
      | some s, some d => some (s, d)
      | _, _ => none
    else some (s0, d0)
  match pair with
  | none => none
  | some (s, d) =>
    let own := n.position != 0 && isTrain d && trainPos d == n.position
    let mac := if own || n.isConsist old d0 then
        ((n.trainFind 11 old (d0 % 2 ^ 14)).getD []).getD 0 0 % 2 ^ 48
      else ((n.trainRead 9 old (trainPos d0)).getD []).getD 1 0 % 2 ^ 48
    let s := if p < 4 ∧ n.position ≠ 0 ∧ n.isConsist old s then trainAddr n.position s else s
    let d := if 4 ≤ p ∧ own then n.localPrefix old * 2 ^ 14 + d % 2 ^ 14 else d
    let before := slice b 26 8
    let after := beBytes 4 s ++ beBytes 4 d
    let u := 14 + 4 * (byteAt b 14 % 16)
    let b1 := splice b 24 (beBytes 2 (fixSum (beAt b 24 2) before after))
    let b2 := splice b1 26 after
    let us := beAt b (u + 6) 2
    let b3 := if byteAt b 23 = 17 ∧ beAt b 20 2 % 0x2000 = 0 ∧ us ≠ 0 then
        let v := fixSum us before after
        splice b2 (u + 6) (beBytes 2 (if v = 0 then 0xFFFF else v))
      else b2
    some (beBytes 6 mac ++ n.portMac p ++ b3.drop 12)

/-- Tags of an egress copy (06 R207, R208). -/
def Node.egressTags (n : Node) (f : Frame) (c : Copy) (p : Nat) : List Byte :=
  let w := n.tabW 1 c.stream 0
  let v := bitsOf w 55 54
  let ctx := some (bitsOf (n.tabW 1 c.stream 2) 63 48)
  if 20 ≤ p then [] else
  let tci := if v = 0 then f.tci else if v = 1 then none else if v = 2 then ctx else if p < 4 then ctx else none
  let r := n.ract c.stream
  let q := if r = 1 then c.gseq else if r = 2 then none else f.rseq
  (match tci with | none => [] | some t => beBytes 2 0x8100 ++ beBytes 2 t) ++
    (match q with | none => [] | some s => beBytes 2 0xF1C1 ++ zeros 2 ++ beBytes 2 s)

/-- The egress edit of a copy to a port. Transit copies carry stream 4096 and are not edited (08 R284). -/
def Node.edit (n : Node) (c : Copy) (p : Nat) : Edit :=
  let f := n.frame c.fid
  if 4096 ≤ c.stream then .send f.data else
  let train := bitsOf (n.tabW 1 c.stream 0) 59 58 == 1
  let tags := n.egressTags f c p
  let out := fun b => Edit.send (b.take 12 ++ tags ++ b.drop 12)
  if !train then out f.data
  else if c.stamp == n.epoch then
    match n.trainEdit f.data p false with
    | some b => out b
    | none => .gone
  else if n.oldBank c.stamp then
    match n.trainEdit f.data p true with
    | some b => out b
    | none => .gone
  else .expired

/-! ### Gates, launches, pauses -/

/-- Rate of a port in Mbit/s (07 R271). -/
def Node.mbps (n : Node) (p : Nat) : Nat :=
  [0, 100, 1000, 2500, 5000, 10000].getD (n.rd (F.PRT_STATUS_RATE p)) 0

/-- Time a frame of `k` bytes without FCS takes on the wire with its preamble, in units of 2^-16 ns; internal ports take none. -/
def Node.wireTime (n : Node) (p k : Nat) : Nat :=
  let r := n.mbps p
  if r = 0 then 0 else (k + 12) * 8 * 1000 * nsU / r

/-- A gate window: start, length, open classes, free (06 R215). -/
def Node.gateEntry (n : Node) (p i : Nat) : Nat × Nat × Nat × Bool :=
  let w := n.tabW 12 (64 * p + i) 0
  (bitsOf w 63 34, bitsOf w 33 10, bitsOf w 9 2, bitOf w 1)

/-- End of the window that starts with entry `i`, through consecutive entries of equal OPEN and FREE (06 R215). -/
def Node.gateEnd (n : Node) (p : Nat) : Nat → Nat → Nat
  | 0, i => (n.gateEntry p i).1 + (n.gateEntry p i).2.1
  | k + 1, i =>
    let (s, l, o, f) := n.gateEntry p i
    let (s', l', o', f') := n.gateEntry p (i + 1)
    if i + 1 < 64 ∧ l' ≠ 0 ∧ s' = s + l ∧ o' = o ∧ f' = f then Node.gateEnd n p k (i + 1) else s + l

/-- GATE_CYCLE of a port in ns; P20 to P22 have none (06 R214, R215). -/
def Node.gateCycle (n : Node) (p : Nat) : Nat := if p < 20 then n.tabW 5 p 0 % 2 ^ 32 else 0

/-- The gate window node time lies in now: entry and time since cycle start; none before the first cycle start after a step (09 R334). -/
def Node.gateNow (n : Node) (p : Nat) : Option Nat × Nat :=
  let g := n.gateCycle p
  if g = 0 then (none, 0) else
  let t := n.clock.now % secU % (g * nsU)
  if n.clock.now < n.clock.stepAt + t then (none, t) else
  ((List.range 64).find? (fun i =>
    let (s, l, _, _) := n.gateEntry p i
    decide (l ≠ 0) && decide (s * nsU ≤ t) && decide (t < (s + l) * nsU)), t)

/-- The gate lets class `c` start a frame of `dur` now: open, and ending before the window closes. -/
def Node.gateOpen (n : Node) (p c dur : Nat) : Bool :=
  match n.gateNow p with
  | (none, _) => true
  | (some i, t) => bitOf (n.gateEntry p i).2.2.1 c && decide (t + dur ≤ n.gateEnd p 64 i * nsU)

/-- Class `c` of the port is paused (07 R241). -/
def Node.paused (n : Node) (p c : Nat) : Bool := bitOf (n.rd (F.PRT_STATUS_PAUSED p)) c

/-- A held launch is due: its transmit timestamp would not lie before its launch time, or its lead was below 2 µs (09 R337, R338). -/
def Node.isDue (n : Node) (p : Nat) (c : Copy) : Bool :=
  c.soon || decide (((c.launch.getD 0 : Nat) : Int) ≤ n.clock.now + n.txConst p)

/-- A launch of a paused class waits like any frame of that class, and one of a preemptable class behind a suspended remainder (07 R242, R245). -/
def Node.launchWaits (n : Node) (p : Nat) (c : Copy) : Bool :=
  n.paused p c.cls || (decide (c.cls < 6) && (n.port p).susp.isSome)

/-- A transmission of `dur` started now ends before an agreed silence (07 R263). -/
def Node.beforeSilence (n : Node) (p dur : Nat) : Bool :=
  match (n.port p).shift with
  | some s => !s.acked || decide (n.clock.now + dur ≤ s.start)
  | none => true

/-- A transmission of `dur` started now leaves a held launch of the port its time: it ends before the launch time, or the launch is due and waits for something else (09 R338; 07 R242). -/
def Node.leavesTime (n : Node) (p dur : Nat) (c : Copy) : Bool :=
  if n.isDue p c then n.launchWaits p c
  else decide (((n.clock.now + dur : Nat) : Int) + n.txConst p ≤ ((c.launch.getD 0 : Nat) : Int))

/-- A frame of `dur` may start now: it ends before every held launch of the port (09 R338) and before an agreed silence (07 R263). -/
def Node.clearAhead (n : Node) (p dur : Nat) : Bool :=
  (FMap.get [] n.fab.launches p).all (n.leavesTime p dur) && n.beforeSilence p dur

/-- Gear-change silence or low-power idle keeps the transmitter from starting a frame (07 R248, R263). -/
def Node.txBlocked (n : Node) (p : Nat) : Bool := !(decide (20 ≤ p) || n.canTx p) || n.quiet p

/-- Preemption is active on the port (07 R238). -/
def Node.preemptOn (n : Node) (p : Nat) : Bool := n.rd (F.PRT_STATUS_PREEMPT p) == 2

/-! ### The scheduler (06 R213) -/

def Node.egQueue (n : Node) (p c : Nat) : List Copy := FMap.get [] n.fab.egress (p * 8 + c)

def Node.setEgQueue (n : Node) (p c : Nat) (l : List Copy) : Node :=
  { n with fab := { n.fab with egress := FMap.put [] n.fab.egress (p * 8 + c) l } }

/-- Bytes of a queued copy as it leaves, without FCS: padded to 60 on a port with a MAC (07 R234). -/
def Node.copyLen (n : Node) (p : Nat) (c : Copy) : Nat :=
  max ((n.frame c.fid).data.length + (n.egressTags (n.frame c.fid) c p).length) (if p < 20 then 60 else 0)

/-- Class `c` has a frame that may start now. -/
def Node.classReady (n : Node) (p c : Nat) : Bool :=
  match n.egQueue p c with
  | [] => false
  | x :: _ =>
    let dur := n.wireTime p (n.copyLen p x)
    !n.paused p c && n.gateOpen p c dur && n.clearAhead p dur &&
      !(decide (c < 6) && (n.port p).susp.isSome)

/-- One visit of deficit-weighted round robin over classes 5 to 0: class served, and deficits (key 8 holds the class in turn; log entry 24). -/
def Node.dwrr (n : Node) (p : Nat) : Nat → FMap Nat → Option Nat × FMap Nat
  | 0, d => (none, d)
  | k + 1, d =>
    let cur := 5 - min 5 (FMap.get 0 d 8)
    let need := match n.egQueue p cur with
      | [] => 0
      | x :: _ => n.copyLen p x
    if n.classReady p cur ∧ need ≤ FMap.get 0 d cur then
      (some cur, FMap.put 0 d cur (FMap.get 0 d cur - need))
    else
      let d := if (n.egQueue p cur).isEmpty then FMap.put 0 d cur 0 else d
      let nxt := if cur = 0 then 5 else cur - 1
      let q := bitsOf (n.tabW 5 p 1) (8 * nxt + 7) (8 * nxt) * 256
      Node.dwrr n p k (FMap.upd 0 (FMap.put 0 d 8 (5 - nxt)) nxt (· + q))

/-- The class the scheduler picks, and the deficits after it. -/
def Node.pickClass (n : Node) (p : Nat) : Option Nat × FMap Nat :=
  let d := (n.port p).deficit
  match [7, 6].find? (fun c => n.classReady p c) with
  | some c => (some c, d)
  | none =>
    if bitOf (n.tabW 5 p 0) 51 then
      if (List.range 6).any (fun c => n.classReady p c) then n.dwrr p 400 d else (none, d)
    else ([5, 4, 3, 2, 1, 0].find? (fun c => n.classReady p c), d)

/-- Mark the host descriptor of a frame. -/
def Node.markDesc (n : Node) (fid : Nat) (f : Desc → Desc) : Node :=
  { n with fab := { n.fab with descs := n.fab.descs.map (fun d => if d.fid == fid then f d else d) } }

/-- Start sending a copy on a port: the egress edit, the length test of R211, discards of R304 and R68; what is queued to a port that has been barred meanwhile is a forwarding miss (08 R287; log entry 132). -/
def Node.startCopy (n : Node) (p : Nat) (c : Copy) : Node :=
  if (n.frame c.fid).bad then (n.disc 8).dropCopy c else
  if n.barred p && !topoFrame (n.frame c.fid).data then (n.disc 11).dropCopy c else
  match n.edit c p with
  | .gone => (n.inc F.TOP_GRACE_GONE).dropCopy c
  | .expired => (n.inc F.TOP_GRACE_EXPIRED).dropCopy c
  | .send b =>
    if p < 20 ∧ n.rd (F.PRT_CTRL_MAXLEN p) < b.length + 4 then ((n.disc 6).cntAdd p 54 1).dropCopy c
    else n.setPort p { n.port p with tx := some c, txBytes := if p < 20 then b ++ zeros (60 - b.length) else b,
                                     txAt := n.clock.cycles, txDone := 0 }

/-- The transmit timestamp of a host frame with TSREQ on its lowest external port (09 R342-R344). -/
def Node.takeStamp (n : Node) (p fid : Nat) : Node :=
  match n.fab.descs.find? (fun d => d.fid == fid) with
  | none => n
  | some d =>
    if d.port ≠ p ∨ !bitOf (byteAt d.bytes 12) 2 then n
    else if 28 ≤ (n.port p).tsHost then
      (n.inc (F.TIM_TSLOST_COUNT p)).markDesc fid (fun d => { d with lost := true })
    else
      (n.setPort p { n.port p with tsHost := (n.port p).tsHost + 1 }).markDesc fid
        (fun d => { d with stamp := some (n.txTime p) })

/-- A copy starts on an idle port, and takes its timestamp where it really crosses (06 R211; 09 R343). -/
def Node.sendCopy (n : Node) (p : Nat) (c : Copy) : Node :=
  let n := n.startCopy p c
  if (n.port p).tx.isSome then n.takeStamp p c.fid else n

/-- Bytes of the current fragment sent `d` TIM cycles from now, after 8 of preamble (PRESUMED, IEEE 802.3; log entry 111). -/
def Node.sentIn (n : Node) (p d : Nat) : Nat := (n.clock.cycles + d - (n.port p).txAt) * 4 * n.mbps p / 8000 - 8

/-- Bytes of the current fragment sent so far. -/
def Node.sentBytes (n : Node) (p : Nat) : Nat := n.sentIn p 0

/-- Bytes of the frame in progress, DA through FCS, still to be sent in `d` TIM cycles. -/
def Node.leftIn (n : Node) (p d : Nat) : Nat := (n.port p).txBytes.length + 4 - (n.port p).txDone - n.sentIn p d

/-- Bytes of the frame in progress, DA through FCS, still to be sent. -/
def Node.bytesLeft (n : Node) (p : Nat) : Nat := n.leftIn p 0

/-- Stop a preemptable frame in progress at a fragment boundary (07 R239). -/
def Node.suspend (n : Node) (p : Nat) : Node :=
  let pt := n.port p
  (n.setPort p { pt with tx := none, txBytes := [], txDone := 0, susp := pt.tx, suspBytes := pt.txBytes,
                         suspDone := pt.txDone + n.sentBytes p }).cntAdd p 49 1

/-- The frame in progress may be preempted now: F bytes of its fragment have been sent and at least 64 remain (07 R239). -/
def Node.preemptable (n : Node) (p : Nat) : Bool :=
  match (n.port p).tx with
  | some c => decide (c.cls < 6) && n.preemptOn p && (n.port p).susp.isNone &&
      decide (64 * (n.rd (F.PRT_CTRL_FRAG p) + 1) ≤ n.sentBytes p) && decide (64 ≤ n.bytesLeft p)
  | none => false

/-- Preempt the frame in progress where that is possible now. -/
def Node.preempt (n : Node) (p : Nat) : Node := if n.preemptable p then (n.suspend p).cntAdd p 50 1 else n

/-- An express launch is ahead that the frame in progress would delay, and this is the last fragment boundary that ends in time: the next is too late, or leaves fewer than the 64 bytes a fragment needs (09 R338; 07 R239). -/
def Node.launchForces (n : Node) (p : Nat) : Bool :=
  (FMap.get [] n.fab.launches p).any (fun c =>
    let t : Int := ((c.launch.getD 0 : Nat) : Int) - n.txConst p
    let gap : Int := ((n.wireTime p 4 : Nat) : Int)
    decide (6 ≤ c.cls) && !n.paused p c.cls && decide (t < n.clock.now + (n.wireTime p (n.bytesLeft p) : Nat)) &&
      decide (n.clock.now + gap ≤ t) && (decide (t < n.clock.now + gap + (4 * nsU : Nat)) || decide (n.leftIn p 1 < 64)))

/-- Send the MARK a port holds, unless the port is silent for a gear change or the MARK would not end before one (08 R297; 07 R263). -/
def Node.sendMark (n : Node) (p : Nat) : Node :=
  match (n.port p).mark with
  | none => n
  | some b =>
    if n.txBlocked p || !n.beforeSilence p (n.wireTime p b.length) then n
    else ((n.setPort p { n.port p with mark := none }).emit (.frame p b)).txCount p b

/-- What a suspended remainder waits for: a pause of its class, express launches ahead and an agreed silence; a preemptable launch cannot go before it (07 R242, R263; 09 R338). -/
def Node.mayResume (n : Node) (p : Nat) (c : Copy) : Bool :=
  let dur := n.wireTime p ((n.port p).suspBytes.length + 4 - (n.port p).suspDone)
  !n.paused p c.cls && (FMap.get [] n.fab.launches p).all (fun x => decide (x.cls < 6) || n.leavesTime p dur x) && n.beforeSilence p dur

/-! ### Frames of the node's own (07 R248, R263; 13 R470) -/

/-- A PTP frame as the MAC counts it: its row gives no bytes, so its length is a free value (07 R255; log entry 60). -/
def Node.ptpFrame (n : Node) (p : Nat) : List Byte :=
  beBytes 6 0x0180C200000E ++ n.portMac p ++ beBytes 2 0x88F7 ++ zeros (46 + Config.freeNat n.freeN % 1455)

/-- The bytes of a frame of the node's own, as the MAC counts them. -/
def Node.ownBytes (n : Node) (p : Nat) : OwnFrame → List Byte
  | .bytes b => b
  | .ptp _ _ => n.ptpFrame p

/-- A frame of the node's own may start now: no silence, no low-power idle, no frame in progress, and none waits before it. -/
def Node.ownReady (n : Node) (p : Nat) (o : OwnFrame) : Bool :=
  !n.quiet p && (n.port p).tx.isNone && n.beforeSilence p (n.wireTime p (n.ownBytes p o).length)

/-- A frame of the node's own leaves, counted as any frame (07 R255). -/
def Node.ownNow (n : Node) (p : Nat) (o : OwnFrame) : Node :=
  match o with
  | .bytes b => (n.emit (.frame p b)).txCount p b
  | .ptp k v => ({ n with freeN := n.freeN + 1 }.emit (.ptp p k v)).txCount p (n.ptpFrame p)

/-- A PTP message that has waited takes the times of its real start: the transmit time of a Sync, its Follow_Up and a Pdelay_Resp, and what the node keeps of a Pdelay_Req (09 R317, R324). -/
def Node.restamp (n : Node) (p : Nat) (o : OwnFrame) : OwnFrame × Node :=
  match o with
  | .bytes _ => (o, n)
  | .ptp k v =>
    if k ≤ 1 then (.ptp k (v.set 1 (n.txTime p : Int)), n)
    else if k = 4 then (.ptp k (v.set 2 (n.txTime p : Int)), n)
    else if k = 3 ∧ (n.ptp p).reqT1.isSome then (o, n.setPtp p { n.ptp p with reqT1 := some (n.txTime p) })
    else (o, n)

/-- Frames of the node's own leave in order, as far as they may start now; `l` is the list the port holds. -/
def Node.ownGo (p : Nat) : List OwnFrame → Node → Node
  | [], n => n
  | o :: t, n =>
    if n.ownReady p o then
      let (o, m) := n.restamp p o
      Node.ownGo p t ((m.setPort p { m.port p with own := t }).ownNow p o)
    else n

def Node.ownFlush (n : Node) (p : Nat) : Node := Node.ownGo p (n.port p).own n

/-- Send a frame of the node's own on a port whose transmitter runs: at once, or once it may start (07 R248, R263; log entry 142). -/
def Node.ownSend (n : Node) (p : Nat) (o : OwnFrame) : Node :=
  if !n.canTx p then n
  else if (n.port p).own.isEmpty && n.ownReady p o then n.ownNow p o
  else n.setPort p { n.port p with own := (n.port p).own ++ [o] }

/-- A chain-relay frame enters class 0 of its port; it takes no cells, since the update unit holds it (13 R470; log entry 133). -/
def Node.relayQueue (n : Node) (p : Nat) (b : List Byte) : Node :=
  let fid := n.fab.nextFid
  let n := { n with fab := { n.fab with nextFid := fid + 1 } }
  let n := n.setFrame fid { data := b, ingress := 21, stamp := n.epoch, refs := 1 }
  n.toEgress p { fid := fid, stream := 4096, stamp := n.epoch }

/-- The TIM cycles that `UPD.CTRL.RELAY_RATE` gives a relay frame of `k` bytes without FCS (13 R470; log entry 133). -/
def Node.relayGap (n : Node) (k : Nat) : Nat := (k + 4) * 200 / max 1 (n.rd F.UPD_CTRL_RELAY_RATE)

/-- The next relay frame that waits enters class 0 once the rate allows it (13 R470). -/
def Node.relayStep (n : Node) (p : Nat) : Node :=
  match (n.port p).relayQ with
  | [] => n
  | b :: t =>
    if n.clock.cycles < (n.port p).relayAt then n else
    (n.setPort p { n.port p with relayQ := t, relayAt := n.clock.cycles + n.relayGap b.length }).relayQueue p b

/-- The suspended remainder goes on. -/
def Node.resumeTx (n : Node) (p : Nat) (c : Copy) : Node :=
  let pt := n.port p
  n.setPort p { pt with tx := some c, txBytes := pt.suspBytes, txAt := n.clock.cycles, txDone := pt.suspDone,
                        susp := none, suspBytes := [], suspDone := 0 }

/-- A frame that needs the wire between the fragments of the one in progress: an express frame, a MARK, a launch ahead (06 R213; 08 R297; 09 R338). -/
def Node.cutsIn (n : Node) (p : Nat) : Bool :=
  [7, 6].any (fun c => n.classReady p c) || (n.port p).mark.isSome || n.launchForces p

/-- Take the next copy: an express frame over a preemptable one in progress, the head of the class picked, or a suspended remainder (06 R213; 07 R239, R242). A MARK goes ahead of every frame edited after the commit (08 R297). -/
def Node.schedule (n : Node) (p : Nat) : Node :=
  if n.txBlocked p then n else
  let n := n.relayStep p
  let n := if n.cutsIn p then n.preempt p
    else match (n.port p).tx with
      | some c => if n.preemptable p && n.paused p c.cls then n.suspend p else n
      | none => n
  if (n.port p).tx.isSome then n else
  let n := (n.sendMark p).ownFlush p
  match n.pickClass p with
  | (some c, d) =>
    (match n.egQueue p c with
     | [] => n
     | x :: t => ((n.setPort p { n.port p with deficit := d }).setEgQueue p c t).sendCopy p x)
  | (none, _) =>
    match (n.port p).susp with
    | none => n
    | some c => if n.mayResume p c then n.resumeTx p c else n

/-- Of held launches the one with the earliest launch time, of equal times the slot taken first (09 R338). -/
def dueLaunch (l : List Copy) : Option Copy :=
  l.foldl (fun a c => match a with
    | none => some c
    | some x => if c.launch.getD 0 < x.launch.getD 0 then some c else a) none

/-- Take a launch out of its slot. -/
def Node.freeLaunch (n : Node) (p : Nat) (c : Copy) : Node :=
  { n with fab := { n.fab with launches := FMap.upd [] n.fab.launches p (fun l => l.erase c) } }

/-- A due launch of a port is judged and sent or dropped (09 R338, R339): an express one preempts the frame in progress, none starts that could not end before an agreed silence (07 R263). -/
def Node.launchDue (n : Node) (p : Nat) : Node :=
  match dueLaunch ((FMap.get [] n.fab.launches p).filter (fun c => n.isDue p c && !n.launchWaits p c)) with
  | none => n
  | some c =>
    if n.txBlocked p ∨ !n.beforeSilence p (n.wireTime p (n.copyLen p c)) then n else
    let n := if 6 ≤ c.cls then n.preempt p else n
    if (n.port p).tx.isSome then n else
    let n := n.sendMark p
    let late := decide (((n.rd (F.TIM_LAUNCHCFG_LATE_WIN p) * nsU : Nat) : Int) < n.clock.now + n.txConst p - (c.launch.getD 0 : Nat))
    let n := n.freeLaunch p c
    let n := if late then (n.cntAdd p 52 1).markDesc c.fid (fun d => { d with late := true }) else n
    if late ∧ !bitOf (n.rd (F.TIM_LAUNCHCFG_LATE_SEND p)) c.cls then n.dropCopy c
    else n.sendCopy p c

/-- Replace each cell of bank `b` in a chain by a free cell of a bank in service (06 R226). -/
def moveChain (b : Nat) : List Nat → Node → List Nat × Node
  | [], n => ([], n)
  | c :: t, n =>
    if c = b then
      match n.takeCell with
      | none => let (l, n) := moveChain b t n; (c :: l, n)
      | some (d, n) =>
        let n := { n with fab := { n.fab with drainCells := n.fab.drainCells - 1 } }
        let (l, n) := moveChain b t n; (d :: l, n)
    else let (l, n) := moveChain b t n; (c :: l, n)

/-- A frame some port is sending, or has suspended, is being read (06 R226). -/
def Node.beingRead (n : Node) (fid : Nat) : Bool :=
  n.ports.any (fun e => (e.2.tx.toList ++ e.2.susp.toList).any (fun c => c.fid == fid))

/-- A frame that was being read when the cells left in a draining bank were moved is moved after its read (06 R226). -/
def Node.moveFrame (n : Node) (fid : Nat) : Node :=
  if n.fab.moving && n.on F.FAB_STATUS_DRAINING && !n.beingRead fid then
    let (l, n) := moveChain (n.rd F.FAB_STATUS_DRAIN_BANK) (n.frame fid).cells n
    n.setFrame fid { n.frame fid with cells := l }
  else n

/-- The copy a port sends has left (06 R221); the final fragment of a preempted frame is counted (07 R255). P21 hands it to the management core, uncounted by a MAC. -/
def Node.copyLeft (n : Node) (p : Nat) : Node :=
  match (n.port p).tx with
  | none => n
  | some c =>
    let b := (n.port p).txBytes
    let n := n.cntAdd p 49 (b2n (decide ((n.port p).txDone ≠ 0)))
    let n := n.setPort p { n.port p with tx := none, txBytes := [], txDone := 0 }
    let n := n.emit (.frame p b)
    let n := if p < 20 then n.txCount p b else n
    let n := ((n.sendMark p).ownFlush p).markDesc c.fid (fun d => { d with sent := true })
    ((n.delivered c.fid c.stream).dropRef c.fid).moveFrame c.fid

/-- Flush everything queued to a port whose link goes down, as NOLINK; a frame whose read this ends is moved out of a draining bank (06 R204, R226; 09 R340). -/
def Node.flushPort (n : Node) (p : Nat) : Node :=
  let qs := ((List.range 8).map (fun c => n.egQueue p c)).flatten ++ FMap.get [] n.fab.launches p ++
    (n.port p).tx.toList ++ (n.port p).susp.toList
  let n := (List.range 8).foldl (fun a c => a.setEgQueue p c []) n
  let n := { n with fab := { n.fab with launches := FMap.put [] n.fab.launches p [] } }
  let n := n.setPort p { n.port p with tx := none, txBytes := [], txDone := 0, susp := none, suspBytes := [], suspDone := 0 }
  qs.foldl (fun a c => (((a.disc 7).cntAdd p 53 1).dropCopy c).moveFrame c.fid) n

end Sys2Proof.Machine
end

