-- ==== Sys2Proof/Machine/Operands.lean ====
section
/-! DEFINITION. Kerarqua instruction words (04 R119-R125): formats, fields, zero fields, the decoder from words to a tag and operands, and cycle counts. -/

namespace Sys2Proof.Machine

open Sys2Proof

/-- The operations of 04, and `illegal`. -/
inductive KTag where
  | illegal | nop | endA | ret | rdsp | rdp | wrp
  | add | sub | and' | or' | xor' | andn | shl | shr | sar | ror | min' | max' | minu | maxu | sext | zext
  | mul | mulhs | mulhu | divs | divu | rems | remu | bswap | popc | clz | abs
  | cmp | addi | movi | movk | ld | st | ldx | stx | extb | insb | sat | scale | range | conv | lds | sts
  | br | call | loop | wait | signal | rxq | emit | launch | drop
  | tblLk | tblRd | tblWr | tblIns | tblDel | tblLkrd
  | topoPstat | topoNbr | topoCand | topoAgree | topoCommit | topoCancel | topoNewep | topoAccept | topoTstat | topoLevel
deriving DecidableEq, Repr

/-- A decoded instruction: tag, length in bytes, guard (R120) and the fields of its format (R121). `imm` is imm16 of format I and imm32 of format X; `x` says that the word has format X. -/
structure KIns where
  tag : KTag := .illegal
  len : Nat := 4
  neg : Bool := false
  pred : Nat := 0
  rd : Nat := 0
  ra : Nat := 0
  rb : Nat := 0
  fn : Nat := 0
  sbit : Nat := 0
  imm : Nat := 0
  off : Int := 0
  op : Nat := 0
  x : Bool := false
deriving DecidableEq, Repr

/-- Format F fields of a word (R121): width 1 to 64 (R131), order, S, P, k. -/
def KIns.w (i : KIns) : Nat :=
  let v := i.rb * 2 + i.fn / 64
  if v = 0 then 64 else v
def KIns.o (i : KIns) : Bool := bitOf i.fn 5
def KIns.s (i : KIns) : Bool := bitOf i.fn 4
def KIns.p (i : KIns) : Bool := bitOf i.fn 3
def KIns.k (i : KIns) : Nat := i.fn % 8

/-- Major opcodes of format X (R125). -/
def isFormatX (op : Nat) : Bool := op ∈ [0x03, 0x05, 0x12, 0x13, 0x18, 0x1C, 0x22, 0x23, 0x30, 0x38]

/-- Fields of a word pair, without its tag. -/
def kFields (w x : Nat) : KIns :=
  let op := bitsOf w 31 26
  let fx := isFormatX op
  { len := if fx then 8 else 4, neg := bitOf w 25, pred := bitsOf w 24 22, rd := bitsOf w 21 17, ra := bitsOf w 16 12,
    rb := bitsOf w 11 7, fn := bitsOf w 6 0, sbit := bitsOf w 16 16, imm := if fx then x else bitsOf w 15 0,
    off := toSigned 21 (bitsOf w 20 0), op := op, x := fx }

/-- Operations of the ALU and ALUX groups by fn (R126). -/
def aluTag (fn : Nat) : KTag :=
  ([KTag.add, .sub, .and', .or', .xor', .andn, .shl, .shr, .sar, .ror, .min', .max', .minu, .maxu, .sext, .zext,
    .mul, .mulhs, .mulhu, .illegal, .divs, .divu, .rems, .remu, .bswap, .popc, .clz, .abs] : List KTag).getD fn .illegal

/-- A unary operation, which ignores b (R126). -/
def isUnary (t : KTag) : Bool := t ∈ [KTag.popc, .clz, .abs]

/-- `t` where the condition holds, else illegal. -/
def okTag (c : Bool) (t : KTag) : KTag := if c then t else .illegal

/-- The SYS group (R152); fields not used are zero. -/
def sysTag (i : KIns) : KTag :=
  let z := i.rd == 0 && i.ra == 0 && i.rb == 0
  if i.fn = 0 then okTag z .nop
  else if i.fn = 1 then okTag z .endA
  else if i.fn = 2 then okTag z .ret
  else if i.fn = 4 then okTag (i.rb == 0 && decide (i.ra ≤ 3)) .rdsp
  else if i.fn = 5 then okTag (i.ra == 0 && i.rb == 0) .rdp
  else if i.fn = 6 then okTag (i.rd == 0 && i.rb == 0) .wrp
  else .illegal

/-- The TBL group by fn[3:0] (R146). -/
def tblTag (fn : Nat) : KTag :=
  ([KTag.tblLk, .tblRd, .tblWr, .tblIns, .tblDel, .tblLkrd] : List KTag).getD (fn % 16) .illegal

/-- The TOPO group by fn[3:0] (R148); bits of imm32 without a meaning are zero. fn[6:4] of an operation that sets no predicate is ignored (DESIGN CHOICE, log entry 126). -/
def topoTag (i : KIns) : KTag :=
  let k := i.fn % 16
  if k = 2 then okTag (i.imm == 0 && decide (i.rb ≤ 28)) .topoCand
  else if k = 3 then okTag (bitsOf i.imm 15 1 == 0) .topoAgree
  else if k = 4 then okTag (bitsOf i.imm 31 16 == 0 && i.imm != 0) .topoCommit
  else okTag (i.imm == 0)
    (([KTag.topoPstat, .topoNbr, .illegal, .illegal, .illegal, .topoCancel, .topoNewep, .topoAccept, .topoTstat, .topoLevel] :
      List KTag).getD k .illegal)

/-- The operation a word names, with every check of R123 that depends on the word alone; `topo` is the topology engine (R74). -/
def kTagOf (topo : Bool) (w : Nat) (i : KIns) : KTag :=
  let op := i.op
  if op = 0x01 then sysTag i
  else if op = 0x02 then okTag (!isUnary (aluTag i.fn) || i.rb == 0) (aluTag i.fn)
  else if op = 0x03 then okTag (i.rb == 0 && (!isUnary (aluTag i.fn) || i.imm == 0)) (aluTag i.fn)
  else if op = 0x04 then okTag (decide (i.fn ≤ 7)) .cmp
  else if op = 0x05 then okTag (decide (i.fn ≤ 7) && i.rb == 0) .cmp
  else if op = 0x08 then okTag (i.sbit == 0) .addi
  else if op = 0x09 then .movi
  else if op = 0x0A ∨ op = 0x0B then .movk
  else if op = 0x0C then
    let t := bitsOf i.imm 8 4
    okTag (i.rd == 0 && i.sbit == 0 && bitsOf i.imm 15 9 == 0 && (decide (t ≤ 16) || t == 31)) .signal
  else if op = 0x10 then okTag (decide (i.fn < 16)) .ld
  else if op = 0x11 then okTag (decide (i.fn < 8)) .st
  else if op = 0x12 then okTag (decide (i.fn < 16) && i.rb == 0) .ldx
  else if op = 0x13 then okTag (decide (i.fn < 8) && i.rb == 0) .stx
  else if op = 0x14 then okTag (i.k == 0 && !(i.p && i.rd == i.ra)) .extb
  else if op = 0x15 then okTag (i.k == 0 && !i.s) .insb
  else if op = 0x16 then okTag (!i.o && !i.p) .sat
  else if op = 0x18 then .scale
  else if op = 0x19 then okTag (i.fn % 2 == 0) .range
  else if op = 0x1A then okTag (decide (i.fn ≤ 3)) .conv
  else if op = 0x1C then okTag (!topo && !bitOf i.fn 3 && bitsOf i.fn 1 0 == 0) .lds
  else if op = 0x1D then okTag (!topo && i.rd == 0 && bitsOf i.fn 1 0 == 0) .sts
  else if op = 0x20 then okTag (!bitOf w 21) .br
  else if op = 0x21 then okTag (!bitOf w 21) .call
  else if op = 0x22 then
    okTag (i.rd == 0 && i.ra == 0 && i.rb == 0 && i.fn == 0 && bitsOf i.imm 15 0 != 0 && decide (2 ≤ bitsOf i.imm 31 16)) .loop
  else if op = 0x23 then
    okTag (i.ra == 0 && i.rb == 0 && i.fn == 0 && bitsOf i.imm 31 20 == 0 && bitsOf i.imm 15 0 != 0) .wait
  else if op = 0x28 then
    okTag (i.ra == 0 && i.rb == 0 && ((bitsOf i.fn 6 4 == 0 && decide (bitsOf i.fn 3 0 ≤ 3)) ||
      (bitsOf i.fn 6 4 == 1 && decide (bitsOf i.fn 3 0 ≤ 9) && !topo))) .rxq
  else if op = 0x29 then okTag (i.rb == 0 && decide (i.fn ≤ 1)) .emit
  else if op = 0x2A then okTag (i.fn == 0) .launch
  else if op = 0x2B then okTag (i.rd == 0 && i.ra == 0 && i.rb == 0 && decide (i.fn ≤ 1)) .drop
  else if op = 0x30 then okTag (decide (i.imm < 256)) (tblTag i.fn)
  else if op = 0x38 then okTag topo (topoTag i)
  else .illegal

/-- The instruction a base word and the word after it spell. -/
def kDecode (topo : Bool) (w x : Nat) : KIns :=
  let i := kFields w x
  { i with tag := kTagOf topo w i }

/-- The guard holds for the predicates (R120). -/
def KIns.guard (i : KIns) (preds : Nat) : Bool := bitOf preds i.pred != i.neg

/-- Cycle counts (R126-R154); BR and WAIT give theirs with their outcome. `n` is the entry size of the table named. -/
def kCost (t : KTag) (n : Nat) : Nat :=
  match t with
  | .ret | .mul | .mulhs | .mulhu | .ld | .ldx | .conv | .lds | .call => 3
  | .divs | .divu | .rems | .remu => 34
  | .extb | .insb | .rxq => 4
  | .scale | .emit | .launch => 2
  | .tblLk | .tblDel => 12
  | .tblRd => 5 + n
  | .tblWr => 2
  | .tblIns => 14
  | .tblLkrd => 12 + n
  | .topoPstat | .topoNbr | .topoCand | .topoAgree | .topoCommit | .topoTstat | .topoLevel => 2
  | _ => 1

/-- Sign extension of a 32-bit immediate to a word (R126, R130). -/
def imm64 (x : Nat) : W64 := BitVec.ofInt 64 (toSigned 32 x)

end Sys2Proof.Machine
end

