-- ==== Sys2Proof/Machine/Flags.lean ====
section
/-! DEFINITION. Results and conditions of Kerarqua: predicates and combine modes (04 R122), the integer operations (R126, R127), comparisons (R128), fixed-point results and the latch (R133-R137). -/

namespace Sys2Proof.Machine

open Sys2Proof

/-- A predicate after a write; a write to p0 is discarded (R76). -/
def setPred (preds p : Nat) (c : Bool) : Nat := if p = 0 then preds else setBit preds p c

/-- Combine modes of the predicate destination in rd (R122). -/
def combine (m : Nat) (old c : Bool) : Bool :=
  if m = 0 then c else if m = 1 then old && c else if m = 2 then old || c else old != c

/-- Write the predicate destination of the rd field. -/
def writePred (preds rd : Nat) (c : Bool) : Nat :=
  setPred preds (rd % 8) (combine (rd / 8) (bitOf preds (rd % 8)) c)

/-- Bytes of a word reversed within the low `k` bytes; higher bits zero. -/
def bswapN (k : Nat) (a : W64) : W64 := BitVec.ofNat 64 (leNat (leBytes k a.toNat).reverse)

/-- Number of one bits. -/
def popCount (a : W64) : Nat := ((List.range 64).filter (fun i => bitOf a.toNat i)).length

/-- Leading zero bits; 64 for zero. -/
def clzCount (a : W64) : Nat := ((List.range 64).findIdx (fun i => bitOf a.toNat (63 - i)))

/-- Sign extension from bit `k` − 1; 0 leaves the value (R126). -/
def sextN (k : Nat) (a : W64) : W64 := if k = 0 then a else BitVec.ofInt 64 (toSigned k a.toNat)

/-- Bits above `k` − 1 cleared; 0 leaves the value. -/
def zextN (k : Nat) (a : W64) : W64 := if k = 0 then a else BitVec.ofNat 64 (a.toNat % 2 ^ k)

/-- The integer operations of R126 and the division corners of R127. -/
def aluOp (t : KTag) (a b : W64) : W64 :=
  let sh := b.toNat % 64
  match t with
  | .add => a + b
  | .sub => a - b
  | .and' => a &&& b
  | .or' => a ||| b
  | .xor' => a ^^^ b
  | .andn => a &&& ~~~b
  | .shl => a <<< sh
  | .shr => a >>> sh
  | .sar => a.sshiftRight sh
  | .ror => a.rotateRight sh
  | .min' => if a.toInt ≤ b.toInt then a else b
  | .max' => if a.toInt ≤ b.toInt then b else a
  | .minu => if a.toNat ≤ b.toNat then a else b
  | .maxu => if a.toNat ≤ b.toNat then b else a
  | .sext => sextN sh a
  | .zext => zextN sh a
  | .mul => a * b
  | .mulhs => BitVec.ofInt 64 (a.toInt * b.toInt / 2 ^ 64)
  | .mulhu => BitVec.ofNat 64 (a.toNat * b.toNat / 2 ^ 64)
  | .divs => if b = 0 then BitVec.ofInt 64 (-1) else BitVec.ofInt 64 (a.toInt.tdiv b.toInt)
  | .divu => if b = 0 then BitVec.ofInt 64 (-1) else BitVec.ofNat 64 (a.toNat / b.toNat)
  | .rems => if b = 0 then a else BitVec.ofInt 64 (a.toInt.tmod b.toInt)
  | .remu => if b = 0 then a else BitVec.ofNat 64 (a.toNat % b.toNat)
  | .bswap => if sh % 4 = 0 then a else bswapN (2 ^ (sh % 4)) a
  | .popc => BitVec.ofNat 64 (popCount a)
  | .clz => BitVec.ofNat 64 (clzCount a)
  | .abs => if a.toInt < 0 then 0 - a else a
  | _ => 0

/-- The conditions of R128. -/
def cmpOp (fn : Nat) (a b : W64) : Bool :=
  if fn = 0 then a == b
  else if fn = 1 then a != b
  else if fn = 2 then decide (a.toInt < b.toInt)
  else if fn = 3 then decide (b.toInt ≤ a.toInt)
  else if fn = 4 then decide (a.toNat < b.toNat)
  else if fn = 5 then decide (b.toNat ≤ a.toNat)
  else if fn = 6 then a &&& b != 0
  else a &&& b == 0

/-- Nearest integer of `num` / `den`, ties away from zero (R134). -/
def roundAway (num : Int) (den : Nat) : Int :=
  let m := (2 * num.natAbs + den) / (2 * den)
  if num < 0 then -(m : Int) else m

/-- A value limited to the signed 64-bit range, and whether it was limited. -/
def satS64 (i : Int) : W64 × Bool := (BitVec.ofInt 64 (clampS 64 i), clampS 64 i != i)

/-- SCALE (R134): `fn` holds S in [6:1] and U in [0]. -/
def scaleOp (fn m : Nat) (a b : W64) : W64 × Bool :=
  let av : Int := if bitOf fn 0 then (a.toNat : Int) else a.toInt
  satS64 (roundAway (av * toSigned 32 m) (2 ^ (fn / 2)) + b.toInt)

/-- SAT (R135): the clamped value and whether clamping changed it. -/
def satOp (w : Nat) (s : Bool) (a : W64) : W64 × Bool :=
  let v := a.toInt
  let r := if s then clampS w v
    else if w = 64 then max 0 v else max 0 (min v (2 ^ w - 1))
  (BitVec.ofInt 64 r, r != v)

/-- RANGE (R136): 0 in range, 1 below, 2 above. -/
def rangeOp (u : Bool) (a lo hi : W64) : Nat :=
  let lt := fun x y : W64 => if u then decide (x.toNat < y.toNat) else decide (x.toInt < y.toInt)
  if lt a lo then 1 else if lt hi a then 2 else 0

/-- Number of bits of a natural number below 2^64. -/
def bitLen (m : Nat) : Nat := 64 - (List.range 64).findIdx (fun i => bitOf m (63 - i))

/-- `m` / 2^`d` to nearest, ties to even. -/
def roundEven (m d : Nat) : Nat :=
  let q := m / 2 ^ d
  let r := m % 2 ^ d
  if 2 * r > 2 ^ d ∨ (2 * r = 2 ^ d ∧ q % 2 = 1) then q + 1 else q

/-- A signed integer divided by 2^f as an IEEE 754 binary value of `mb` fraction bits and `eb` exponent bits; the quotients of R137 are always normal or zero. -/
def toBinary (mb eb : Nat) (a : Int) (f : Nat) : Nat :=
  let m := a.natAbs
  if m = 0 then 0 else
  let bias := 2 ^ (eb - 1) - 1
  let len := bitLen m
  let q := if len ≤ mb + 1 then m * 2 ^ (mb + 1 - len) else roundEven m (len - (mb + 1))
  let e := len - 1 + bias - f
  b2n (decide (a < 0)) * 2 ^ (mb + eb) + (e * 2 ^ mb + (q - 2 ^ mb))

/-- An IEEE 754 binary value times 2^f to the nearest integer, ties away from zero, saturated; NaN gives 0. The flag says saturation or NaN (R137). -/
def ofBinary (mb eb : Nat) (v f : Nat) : W64 × Bool :=
  let sign := bitOf v (mb + eb)
  let e := v / 2 ^ mb % 2 ^ eb
  let fr := v % 2 ^ mb
  let bias := 2 ^ (eb - 1) - 1
  if e = 2 ^ eb - 1 then
    if fr ≠ 0 then (0, true)
    else (BitVec.ofInt 64 (if sign then -(2 ^ 63) else 2 ^ 63 - 1), true)
  else
    let m := if e = 0 then fr else fr + 2 ^ mb
    let ex : Int := ((if e = 0 then 1 else e) : Nat) - (bias : Int) - mb + f
    let num : Int := if sign then -(m : Int) else m
    if 0 ≤ ex then
      if 70 ≤ ex then (if m = 0 then (0, false) else (BitVec.ofInt 64 (if sign then -(2 ^ 63) else 2 ^ 63 - 1), true))
      else satS64 (num * 2 ^ ex.toNat)
    else satS64 (roundAway num (2 ^ (-ex).toNat))

/-- CONV (R137): the value and whether it sets the latch's SAT. -/
def convOp (fn f : Nat) (a : W64) : W64 × Bool :=
  if fn = 0 then (BitVec.ofNat 64 (toBinary 23 8 a.toInt f), false)
  else if fn = 1 then ofBinary 23 8 (a.toNat % 2 ^ 32) f
  else if fn = 2 then (BitVec.ofNat 64 (toBinary 52 11 a.toInt f), false)
  else ofBinary 52 11 a.toNat f

end Sys2Proof.Machine
end

