-- ==== Sys2Proof/Machine/Engine.lean ====
section
/-! DEFINITION. The Kerarqua engines (03 R73-R118): registers of an activation, the data address space, inputs, dispatch, the step of one instruction with its checks, exceptions, budget and loop ends, and aborts. -/

namespace Sys2Proof.Machine

open Sys2Proof

/-! ### Registers of an activation -/

/-- A general register; g0 reads zero (R76). -/
def Act.rg (a : Act) (i : Nat) : W64 := if i = 0 then 0 else FMap.get 0 a.g i

/-- Write a general register; writes to g0 are discarded (R76). -/
def Act.wg (a : Act) (i : Nat) (v : W64) : Act := if i = 0 then a else { a with g := FMap.put 0 a.g i v }

/-- Write consecutive registers from `i`. -/
def Act.wgs (a : Act) (i : Nat) : List Nat → Act
  | [] => a
  | v :: t => Act.wgs (a.wg i (BitVec.ofNat 64 v)) (i + 1) t

/-- Read `k` consecutive registers from `i`. -/
def Act.rgs (a : Act) (i k : Nat) : List Nat := (List.range k).map (fun j => (a.rg (i + j)).toNat)

/-! ### The data address space (R81, R82) -/

/-- The range of R81 an address lies in. -/
def rangeOf (a : Nat) : Option Nat :=
  if a < 0x40 then some 0 else if a < 0x2440 then some 1
  else if 0x10000 ≤ a ∧ a < 0x10040 then some 2 else if 0x10040 ≤ a ∧ a < 0x12440 then some 3
  else if 0x20000 ≤ a ∧ a < 0x21000 then some 4 else none

/-- Bytes `a` to `a + k − 1` lie in one range. -/
def inOneRange (a k : Nat) : Option Nat := if rangeOf a = rangeOf (a + k - 1) then rangeOf a else none

/-- A byte with the masked bits of a held mailbox store (R97). -/
def overlay (cur m v : Nat) : Nat := (cur &&& (255 - m)) + (v &&& m)

/-- A stored mailbox byte; one of a word that holds an uncorrectable error reads as a free value (02 R68; log entry 108). -/
def Node.mboxAt (n : Node) (e off : Nat) : Nat :=
  if (mboxBase e + off) / 8 * 8 ∈ n.poison then Config.freeNat (n.freeN + off) % 256 else (memRead n.mem (mboxBase e + off)).toNat

/-- A mailbox byte as the activation sees it: the node's value under its own held stores (R88, R97). -/
def mboxByte (n : Node) (e : Nat) (a : Act) (off : Nat) : Nat :=
  let base := n.mboxAt e off
  a.outs.foldl (fun v h => match h with
    | .mbox parts => parts.foldl (fun v p => if p.1 = off then overlay v p.2.1 p.2.2 else v) v
    | _ => v) base

/-- A byte of the data address space (R80-R82). -/
def actByte (n : Node) (e : Nat) (a : Act) (ad : Nat) : Nat :=
  match rangeOf ad with
  | some 0 => match a.input with | some i => byteAt i.hdr ad | none => 0
  | some 1 => match a.input with | some i => byteAt i.data (ad - 0x40) | none => 0
  | some 4 => mboxByte n e a (ad - 0x20000)
  | some _ => (FMap.get 0 a.tx (ad - 0x10000)).toNat
  | none => 0

/-- Take the cells that transmit data byte `d` needs (R84); the area is short when the free pool is empty. -/
def takeTx (n : Node) (a : Act) (d : Nat) : Node × Act :=
  if a.short then (n, a) else
  let need := (d + 32) / 256 + 1 - a.txCells.length
  let (l, n) := Node.takeCells need n
  (n, { a with txCells := a.txCells ++ l, short := decide (l.length < need) })

/-- A store of masked bytes to the transmit area, at once (R84, R130). -/
def storeTx (n : Node) (a : Act) (parts : List (Nat × Nat × Nat)) : Node × Act :=
  let last := (parts.map (·.1)).foldl max 0
  let (n, a) := if 0x40 ≤ last then takeTx n a (last - 0x40) else (n, a)
  if a.short then (n, a) else
  (n, parts.foldl (fun a p =>
    let old := (FMap.get 0 a.tx p.1).toNat
    { a with tx := FMap.put 0 a.tx p.1 (BitVec.ofNat 8 (overlay old p.2.1 p.2.2)) }) a)

/-- The transmit area as after dispatch: reads as zero, holds no cells (R140). -/
def Act.clearTx (a : Act) : Act := { a with tx := [], txCells := [], short := false, txBad := false }

/-! ### Output limits (R98, R149) -/

/-- How many held outputs satisfy `f`. -/
def Act.count (a : Act) (f : Held → Bool) : Nat := (a.outs.filter f).length

/-- Hold an output. -/
def Act.hold (a : Act) (h : Held) : Act := { a with outs := a.outs ++ [h] }

def isSts : Held → Bool | .sts .. => true | _ => false
def isMbox : Held → Bool | .mbox .. => true | _ => false
def isTbl : Held → Bool | .tblWr .. | .tblIns .. | .tblDel .. => true | _ => false
def isFrame : Held → Bool | .frame .. | .forward .. => true | _ => false
def isDrop : Held → Bool | .dropHeld .. | .dropTx => true | _ => false
def isSignal : Held → Bool | .signal .. => true | _ => false
def isTopo : Held → Bool
  | .topoCand .. | .topoAgree .. | .topoCommit .. | .topoCancel | .topoNewep | .topoAccept => true
  | _ => false

/-! ### Inputs (R83, R94) -/

/-- The receive header of an Ethernet input (R83). -/
def ethHeader (f : Frame) (c : Copy) (queue ep : Nat) : List Byte :=
  let flags := b2n f.oversize + 2 * b2n (c.stamp != ep) + 4 * b2n f.tci.isSome + 8 * b2n f.rseq.isSome
  leBytes 2 f.data.length ++ leBytes 1 (if f.topo then 3 else 0) ++ leBytes 1 flags ++ leBytes 2 c.stream ++
    leBytes 2 c.stamp ++ leBytes 1 f.ingress ++ leBytes 1 queue ++ leBytes 2 (f.rseq.getD 0) ++
    leBytes 4 (f.tci.getD 0) ++ leBytes 6 (secOf f.ts) ++ leBytes 4 (nsOf f.ts) ++ leBytes 2 (fracOf f.ts) ++ zeros 36

/-- FBINFO of a CAN frame (R83). -/
def canInfo (f : CanFrame) : Nat :=
  b2n f.ide + 2 * b2n f.rtr + 4 * b2n f.fdf + 8 * b2n f.brs + 16 * b2n f.esi + 32 * b2n f.xlf + 256 * (f.sdt % 256)

/-- The receive header of a field-bus input (R83). -/
def fbHeader (ch : Nat) (x : FbEntry) (ep : Nat) : List Byte :=
  let can := decide (ch < 8)
  leBytes 2 x.data.length ++ leBytes 1 (if can then 1 else 2) ++ leBytes 1 (2 * b2n (x.epoch != ep)) ++
    leBytes 2 (if can then ch else ch - 8) ++ leBytes 2 x.epoch ++ [255, 255] ++ zeros 2 ++
    leBytes 4 (if can then x.fr.id else x.addr) ++ zeros 12 ++
    leBytes 4 (if can then canInfo x.fr else x.fcode) ++ leBytes 4 (if can && x.fr.xlf then x.fr.acpt else 0) ++ zeros 28

/-- The leading frames of an engine receive queue that hold an uncorrectable error are discarded and counted (02 R68). -/
def Node.dropBadOf (n : Node) : List Copy → Node × List Copy
  | [] => (n, [])
  | c :: t => if (n.frame c.fid).bad then Node.dropBadOf ((n.disc 8).dropCopy c) t else (n, c :: t)

/-- Discard the leading bad frames of queue `q` of slot `s` (02 R68). -/
def Node.dropBad (n : Node) (s q : Nat) : Node :=
  match n.engQueue s q with
  | [] => n
  | c :: t => if (n.frame c.fid).bad then
      let (n, l) := n.dropBadOf (c :: t)
      n.setEngQueue s q l
    else n

/-- Take the head of an engine receive queue as an input. -/
def Node.takeFrame (n : Node) (t q ep : Nat) : Option (Input × Node) :=
  match n.engQueue t q with
  | [] => none
  | c :: rest =>
    let f := n.frame c.fid
    some ({ src := if f.topo then 3 else 0, fid := c.fid, hdr := ethHeader f c q ep, data := f.data },
      n.setEngQueue t q rest)

/-- Delivered entries of a channel that no activation holds. -/
def Chan.waiting (c : Chan) : List FbEntry := c.rx.filter (fun x => !x.held)

/-- The channel is bound to logical slot `s` (10 R347). -/
def Node.chanBound (n : Node) (ch s : Nat) : Bool := FMap.get 0 n.chanSlot ch == s + 1

/-- Take the oldest waiting entry of a channel bound to slot `s` (10 R348, R352). -/
def Node.takeEntry (n : Node) (ch s ep : Nat) : Option (Input × Node) :=
  if !n.chanBound ch s then none else
  let c := n.chan ch
  match c.waiting with
  | [] => none
  | x :: _ =>
    let rx := c.rx.map (fun y => if y.id == x.id then { y with held := true } else y)
    some ({ src := if ch < 8 then 1 else 2, chan := ch, eid := x.id, hdr := fbHeader ch x ep, data := x.data },
      n.setChan ch { c with rx := rx })

/-- Acknowledge an entry: it returns, and its cells return (10 R352). -/
def Node.ackEntry (n : Node) (ch id : Nat) : Node :=
  let c := n.chan ch
  match c.rx.find? (fun x => x.id == id) with
  | none => n
  | some x =>
    (n.setChan ch { c with rx := c.rx.filter (fun y => y.id != id), returning := c.returning + 1 }).returnCells x.cells

/-- Consume an input (R94). -/
def Node.consume (n : Node) (i : Input) : Node :=
  if i.src = 0 ∨ i.src = 3 then (n.delivered i.fid (leAt i.hdr 4 2)).dropRef i.fid else n.ackEntry i.chan i.eid

/-! ### Owner writes to the signal store (02 R56, 03 R99, R117) -/

/-- The 64-bit entry an owner write leaves of `old`: an upper half keeps the lower half as it stands; in a status word P stays, for only an STS clears it, and the reserved bits are stored as zero (03 R85). -/
def ownerWord (a old v : Nat) : Nat :=
  let w := if a % 8 = 4 then v % 2 ^ 32 * 2 ^ 32 + old % 2 ^ 32 else v % 2 ^ 64
  if a / 8 % 2 = 1 then bitsOf w 63 63 * 2 ^ 63 + bitsOf old 62 62 * 2 ^ 62 + bitsOf w 61 59 * 2 ^ 59 + w % 2 ^ 48 else w

/-- Apply the held owner writes of an engine: (byte address, value) of 64-bit words, or of an upper half. -/
def Node.applyOwner (n : Node) (e : Nat) : Node :=
  let x := n.eng e
  let n := { n with mem := x.ownerWr.foldl (fun (m : List Host.Cell) (w : Nat × Nat) =>
    wr64 m (w.1 / 8 * 8) (ownerWord w.1 (rd64 m (w.1 / 8 * 8)) w.2)) n.mem }
  n.setEng e { x with ownerWr := [] }

/-! ### Dispatch (R89-R93) -/

/-- Logical slot an engine's queues belong to: 16 for the topology engine. -/
def Node.slotIdx (n : Node) (e : Nat) : Option Nat := if e = 18 then some 16 else n.slotOf e

/-- A trigger is pending (R90). -/
def Node.pendingTrig (n : Node) (e s t : Nat) (tr : Trig) : Bool :=
  let x := n.eng e
  tr.en && (if tr.kind = 0 then !(n.engQueue s tr.src).isEmpty
    else if tr.kind = 1 then n.chanBound tr.src s && !(n.chan tr.src).waiting.isEmpty
    else if tr.kind = 3 then bitOf x.flags tr.src
    else decide (0 < FMap.get 0 x.fired t))

/-- The pending trigger with the highest priority, the lowest number among equals (R92). -/
def Node.bestTrig (n : Node) (e s : Nat) : Option (Nat × Trig) :=
  (n.eng e).trigs.foldl (fun b t =>
    if n.pendingTrig e s t.1 t.2 then
      match b with
      | none => some t
      | some y => if y.2.prio < t.2.prio then some t else b
    else b) none

/-- The status word of a backbone port (08 R281). -/
def Node.portStat (n : Node) (p : Nat) : Nat :=
  let t := n.topPort p
  leAt t.hello 0xC 2 * 2 ^ 16 + byteAt t.hello 0x31 % 64 * 2 ^ 10 + b2n t.marked * 2 ^ 9 + b2n t.stale * 2 ^ 8 +
    b2n (t.valid && (slice t.hello 0x20 16 != t.recVid || !t.recSet)) * 2 ^ 7 + b2n t.valid * 2 ^ 6 +
    n.rd (F.BBL_STATUS_HITLESS (lineOf p) (endOf p)) * 2 ^ 5 + n.rd (F.BBL_STATUS_COMPAT (lineOf p) (endOf p)) * 2 ^ 4 +
    n.rd (F.BBL_STATUS_LINK (lineOf p) (endOf p)) * 2 ^ 3 + n.rd (F.BBL_STATUS_GEAR (lineOf p) (endOf p))

/-- The engine may dispatch: powered, RUN, not held, not retired, bound, not loading a moved slot, not in the gap of a takeover (R92, R118; 12 R431); a Scarab engine maps only where the level gives that service (01 R39). -/
def Node.canDispatch (n : Node) (e : Nat) : Bool :=
  n.dataOn && n.on (F.SC_CTRL_RUN e) && !n.on (F.SC_CTRL_HOLD e) && (n.slotIdx e).isSome && !n.retired e &&
    (n.eng e).phase == .idle && !(e == 18 && decide (Res.topology ∈ n.failed)) && !(n.eng e).moving && (e == 18 || n.serves) && n.forwards

/-- Dispatch (R79, R90, R92): the input, the registers and the trigger's state. -/
def Node.dispatch (n : Node) (e : Nat) : Node :=
  if !n.canDispatch e then n else
  let s := (n.slotIdx e).getD 0
  let n := (n.eng e).trigs.foldl (fun a t => if t.2.kind = 0 then a.dropBad s t.2.src else a) n
  match n.bestTrig e s with
  | none => n
  | some (t, tr) =>
    let n := n.applyOwner e
    let x := n.eng e
    let fired := FMap.get 0 x.fired t
    let (inp, n) := if tr.kind = 0 then
        (match n.takeFrame s tr.src n.epoch with | some (i, n) => (some i, n) | none => (none, n))
      else if tr.kind = 1 then
        (match n.takeEntry tr.src s n.epoch with | some (i, n) => (some i, n) | none => (none, n))
      else (none, n)
    let x := n.eng e
    let g2 := if tr.kind = 0 then (n.engQueue s tr.src).length
      else if tr.kind = 1 then (n.chan tr.src).waiting.length
      else if tr.kind = 2 ∨ tr.kind = 4 then fired - 1
      else if tr.kind = 5 then x.prevEpoch
      else if tr.kind = 6 then n.portStat tr.src
      else 0
    let g1 := t + 256 * tr.kind + 4096 * tr.prio
    let a : Act := { pc := tr.entry, ep := n.epoch, trig := t, budget := tr.budget, ntcap := n.clock.now,
                     fresh := n.clock.fresh, input := inp, taken := inp.toList }
    let a := ((a.wg 1 (BitVec.ofNat 64 g1)).wg 2 (BitVec.ofNat 64 g2)).wg 3 (BitVec.ofNat 64 (n.clock.fresh % 2 ^ 48))
    let x := { x with phase := .running, act := a, fired := FMap.put 0 x.fired t 0 }
    let x := if tr.kind = 3 then { x with flags := setBit x.flags tr.src false } else x
    n.setEng e x

/-! ### Aborts (R101, R107-R109) -/

/-- Cells of frames an activation has closed but not released. -/
def heldCells (a : Act) : List Nat :=
  (a.outs.map (fun h => match h with | .frame f => f.cells | _ => [])).flatten

/-- Reload an engine's code from image staging (02 R68). -/
def Node.reloadCode (n : Node) (e : Nat) : Node :=
  match n.slotIdx e with
  | none => n
  | some s =>
    let k := codeSize e
    let b := codeBase e
    let m := memClear n.mem b k
    { n with mem := memWrite m b ((FMap.get [] n.staging s).take k),
             poison := n.poison.filter (fun a => !(decide (b ≤ a) && decide (a < b + k))) }

/-- An uncorrectable error found in the code of an engine that runs nothing: its code is reloaded (02 R68). -/
def Node.codeCheck (n : Node) (e : Nat) : Node :=
  if n.poison.any (fun a => decide (codeBase e ≤ a) && decide (a < codeBase e + codeSize e)) then n.reloadCode e else n

/-- The abort record (R109, 14 R502). -/
def Node.abortRecord (n : Node) (e code : Nat) : Node :=
  let a := (n.eng e).act
  let n := n.inc (F.SC_ABORTS_COUNT e)
  if n.on (F.SC_EXC_VALID e) then n else
  let n := n.wrs [(F.SC_EXC_VALID e, 1), (F.SC_EXC_CODE e, code), (F.SC_EXC_TRIGGER e, a.trig), (F.SC_EXC_PC e, a.pc)]
  if e = 18 then (n.wr F.TOP_EXC_PC_PC a.pc).fault 10 4 (code * 256) else n.fault 15 1 (e + code * 256)

/-- Abort the running activation: record, overrun flag, inputs consumed and counted, outputs discarded, cells returned, held owner writes applied, code with an uncorrectable error reloaded, and a capture that waits for this boundary goes on (R94, R95, R101, R107, R109; 02 R68; 12 R425). -/
def Node.abortAct (n : Node) (e code : Nat) : Node :=
  let a := (n.eng e).act
  let n := n.abortRecord e code
  let n := if code = 8 then
      let f := F.SC_OVERRUN_TRIG e (a.trig / 32)
      n.wr f (setBit (n.rd f) (a.trig % 32) true)
    else n
  let n := a.taken.foldl (fun n i => (n.consume i).inc (F.SC_DROPS_ABORT_DROP e)) n
  let n := n.returnCells (a.txCells ++ a.backCells ++ heldCells a)
  let n := n.setEng e { n.eng e with phase := .idle, act := { a with outs := [], taken := [], input := none, tx := [], txCells := [], backCells := [] } }
  ((n.applyOwner e).codeCheck e).captureAt e

/-! ### One instruction -/

/-- What an instruction does to the node and the activation; `jump` is a transfer of control, `fin` an END. -/
structure KOut where
  n : Node
  a : Act
  cost : Nat
  jump : Option Nat := none
  fin : Bool := false

/-- Outcome of an instruction: its effect, or an exception code. -/
inductive KRes where
  | ok (o : KOut)
  | exc (code : Nat)

/-- The code word pair holds an uncorrectable error (02 R68). -/
def Node.codeBad (n : Node) (e pc : Nat) : Bool := decide ((codeBase e + pc) / 8 * 8 ∈ n.poison)

/-- Instructions that may not stand at the end address of an open loop (R154). -/
def endsNoLoop (t : KTag) : Bool := t ∈ [KTag.call, .ret, .loop, .endA]

/-- The base word of format X is ILLEGAL whatever its extension word holds, `last` where it stands at the end address of an open loop: the values tried are legal for every operation that admits any (R123). -/
def baseIllegal (topo last : Bool) (w : Nat) : Bool :=
  [0, 1, 0x20001].all (fun x => let t := (kDecode topo w x).tag; t == .illegal || (last && endsNoLoop t))

/-- An open loop of the engine's activation ends at pc. -/
def Act.loopLast (a : Act) (pc : Nat) : Bool := a.loops.any (fun l => l.last == pc)

/-- Fetch and decode at pc: ADDR outside code, CODE_ECC on an uncorrectable error (R107, R119); a base word that is ILLEGAL by itself is recorded before what its extension word meets (R123). -/
def Node.fetch (n : Node) (e pc : Nat) : KIns ⊕ Nat :=
  if codeSize e < pc + 4 then .inr 2
  else if n.codeBad e pc then .inr 7
  else
    let w := leNat (memReadN n.mem (codeBase e + pc) 4)
    if !isFormatX (bitsOf w 31 26) then .inl (kDecode (e == 18) w 0)
    else if baseIllegal (e == 18) ((n.eng e).act.loopLast pc) w then .inr 1
    else if codeSize e < pc + 8 then .inr 2
    else if n.codeBad e (pc + 4) then .inr 7
    else .inl (kDecode (e == 18) w (leNat (memReadN n.mem (codeBase e + pc + 4) 4)))

/-- Tags of the TBL group. -/
def isTblTag (t : KTag) : Bool := t ∈ [KTag.tblLk, .tblRd, .tblWr, .tblIns, .tblDel, .tblLkrd]

/-- Checks that apply whatever the guard holds (R123, R146, R154): an exception code, if any. -/
def Node.kCheck (n : Node) (a : Act) (i : KIns) : Option Nat :=
  if i.tag = .illegal then some 1
  else if endsNoLoop i.tag && a.loopLast a.pc then some 1
  else if isTblTag i.tag then
    match n.tab (i.imm % 256) with
    | none => some 2
    | some d =>
      if (i.tag ∈ [KTag.tblRd, .tblLkrd] ∧ 32 < i.rd + d.n) ∨ (i.tag ∈ [KTag.tblWr, .tblIns] ∧ 32 < i.rb + d.n)
      then some 1 else none
  else none

/-- Entry size of the table an instruction names. -/
def Node.kEntry (n : Node) (i : KIns) : Nat :=
  match n.tab (i.imm % 256) with
  | none => 0
  | some d => d.n

/-- After the instruction at a loop's end (R104, R154): the innermost loop returns or closes, and closing reveals the next. -/
def loopEnd (pc next : Nat) : List Loop → Nat × List Loop
  | [] => (next, [])
  | l :: t =>
    if l.last = pc then
      if 1 < l.left then (l.body, { l with left := l.left - 1 } :: t) else loopEnd pc next t
    else (next, l :: t)

/-- Put an activation's exception, which is BUDGET in the last budgeted cycle (R108). The manual does not say in which cycle of an instruction of several its exception falls: the first is taken (DESIGN CHOICE, log entry 11). -/
def Node.raise (n : Node) (e code : Nat) : Node :=
  let a := (n.eng e).act
  n.abortAct e (if a.budget ≤ a.cyc + 1 then 8 else code)

/-- END has retired in cycle `a.cyc` (R94, R96, R118): outputs wait for their release, PEAK is updated. -/
def Node.complete (n : Node) (e : Nat) (a : Act) : Node :=
  let n := if n.rd (F.SC_PEAK_CYCLES e) < a.cyc then
      n.wrs [(F.SC_PEAK_TRIGGER e, a.trig), (F.SC_PEAK_CYCLES e, a.cyc)] else n
  n.setEng e { n.eng e with phase := .releasing, act := a }

/-- Account an instruction that took `o.cost` cycles: budget, completion, loop ends, pc (R100, R104, R119). -/
def Node.retire (n0 : Node) (e : Nat) (a0 : Act) (i : KIns) (o : KOut) : Node :=
  let cyc := a0.cyc + o.cost
  let a := { o.a with cyc := cyc }
  if o.fin then
    if cyc ≤ a.budget then o.n.complete e a else n0.abortAct e 8
  else if a.budget < cyc then n0.abortAct e 8
  else if a.budget = cyc then (o.n.setEng e { o.n.eng e with act := a }).abortAct e 8
  else
    match o.jump with
    | some t => o.n.setEng e { o.n.eng e with act := { a with pc := t } }
    | none =>
      let (pc, loops) := loopEnd a.pc (a.pc + i.len) a.loops
      o.n.setEng e { o.n.eng e with act := { a with pc := pc, loops := loops } }

/-- The cost of an instruction whose guard is false (R76, R120, R150, R153). -/
def falseCost (i : KIns) (k : Nat) : Nat :=
  if i.tag = .br then 1 else if i.tag = .wait then i.imm % 65536 + 2 else kCost i.tag k

/-- Cycles of the instruction at pc, as far as they show before it has run: 1 for one that raises an exception (log entry 11), the cycles of a timeout for a WAIT (R100, R106). -/
def Node.insCost (n : Node) (e : Nat) (a : Act) : Nat :=
  match n.fetch e a.pc with
  | .inr _ => 1
  | .inl i =>
    if (n.kCheck a i).isSome then 1
    else if !i.guard a.preds then falseCost i (n.kEntry i)
    else if i.tag = .br then 3
    else if i.tag = .wait then i.imm % 65536 + 2
    else kCost i.tag (n.kEntry i)

/-- The running activation reaches its budget with the instruction at pc: an END that retires in the budget's last cycle completes (R100). -/
def Node.budgetDue (n : Node) (e : Nat) : Bool :=
  let a := (n.eng e).act
  let isEnd : Bool := match n.fetch e a.pc with
    | .inr _ => false
    | .inl i => i.tag == .endA && (n.kCheck a i).isNone && i.guard a.preds
  (n.eng e).phase == .running &&
    (if isEnd then decide (a.budget < a.cyc + 1) else decide (a.budget ≤ a.cyc + n.insCost e a))

/-- One instruction of engine `e`, for the rows whose operation is in `tags`: nothing where the engine runs no activation or its next instruction is another row's (log entry 10). -/
def Node.kStep (n : Node) (e : Nat) (tags : List KTag) (eff : Node → Act → KIns → KRes) : Node :=
  let x := n.eng e
  if x.phase ≠ .running then n else
  let a := x.act
  match n.fetch e a.pc with
  | .inr c => n.raise e c
  | .inl i =>
    match n.kCheck a i with
    | some c => n.raise e c
    | none =>
      if i.tag ∉ tags then n
      else if !i.guard a.preds then
        n.retire e a i { n := n, a := a, cost := falseCost i (n.kEntry i) }
      else
        match eff n a i with
        | .exc c => n.raise e c
        | .ok o => n.retire e a i o

/-- The usual outcome: cost from the table, no transfer. -/
def KRes.done (n : Node) (a : Act) (i : KIns) (k : Nat := 0) : KRes := .ok { n := n, a := a, cost := kCost i.tag k }

end Sys2Proof.Machine
end

