-- ==== Sys2Proof/Machine/Boot.lean ====
section
/-! DEFINITION. Start-up: the image format and the slot checks, settings, protection set-up, the load of the engines, slots on trial and fallback, and the choice of role (05 R156-R172; 12 R406-R411, R449; 13 R475-R480). -/

namespace Sys2Proof.Machine

open Sys2Proof

/-! ### The image (05 R160-R163) -/

/-- An entry of the section table (R162). -/
structure Sec where
  ty : Nat
  target : Nat
  off : Nat
  size : Nat
  load : Nat
  crc : Nat
  pad : List Byte
deriving DecidableEq, Repr

def imgSize (img : List Byte) : Nat := leAt img 0x08 4
def imgSigned (img : List Byte) : Nat := leAt img 0x0C 4
def imgFormat (img : List Byte) : Nat := leAt img 0x18 2
def imgBuild (img : List Byte) : Nat := leAt img 0x20 8

/-- The section table of an image (R162). -/
def imgSecs (img : List Byte) : List Sec :=
  (List.range (leAt img 0x14 2)).map (fun i =>
    let e := slice img (128 + 32 * i) 32
    { ty := leAt e 0 2, target := leAt e 2 2, off := leAt e 4 4, size := leAt e 8 4, load := leAt e 12 4,
      crc := leAt e 16 4, pad := e.drop 20 })

/-- The data of a section. -/
def Sec.data (s : Sec) (img : List Byte) : List Byte := slice img s.off s.size

def allZero (l : List Byte) : Bool := l.all (fun b => b == 0)

/-- Check of code 2 (R160, R161, R167); `magic` is the fourth byte of MAGIC. -/
def imgHeadOk (magic : Byte) (img : List Byte) : Bool :=
  slice img 0 4 == [0x4B, 0x52, 0x51, magic] && leAt img 4 2 == 1 && leAt img 6 2 == 128 && leAt img 0x10 4 == 128 &&
    imgSize img == imgSigned img + 136 && decide (imgSize img ≤ 33554432) && imgSigned img % 64 == 0 &&
    decide (128 ≤ imgSigned img) && decide (imgSize img ≤ img.length) &&
    slice img (imgSigned img) 4 == [0x4B, 0x52, 0x51, 0x53]

/-- No two of the spans, given as first and past-the-end, share a place. -/
def spansApart : List (Nat × Nat) → Bool
  | [] => true
  | a :: t => t.all (fun b => decide (a.2 ≤ b.1) || decide (b.2 ≤ a.1) || decide (a.2 ≤ a.1) || decide (b.2 ≤ b.1)) && spansApart t

def noRepeat : List Nat → Bool
  | [] => true
  | a :: t => !decide (a ∈ t) && noRepeat t

/-- Rules of R162 for every section, and its CRC. -/
def secsOk (img : List Byte) : Bool :=
  let l := imgSecs img
  let c := leAt img 0x14 2
  decide (1 ≤ c) && decide (c ≤ 512) && decide (128 + 32 * c ≤ imgSigned img) &&
    l.all (fun s => s.off % 64 == 0 && decide (128 + 32 * c ≤ s.off) && decide (s.off + s.size ≤ imgSigned img) &&
      allZero s.pad && crc32c (s.data img) == s.crc) &&
    spansApart (l.map (fun s => (s.off, s.off + s.size)))

/-- Sections of a type. -/
def secsOf (img : List Byte) (ty : Nat) : List Sec := (imgSecs img).filter (fun s => s.ty == ty)

/-! ### Triggers (R164; 03 R89, R90; 10 R347) -/

/-- Entry `i` of a trigger table. -/
def trigOf (d : List Byte) (i : Nat) : Trig :=
  let e := slice d (24 * i) 24
  let b := byteAt e 0
  { en := bitOf b 0, prio := bitsOf b 3 1, kind := byteAt e 1, src := byteAt e 2, entry := leAt e 4 4,
    budget := leAt e 8 4 % 2 ^ 20, period := leAt e 12 4, phase := leAt e 16 4 }

/-- Highest source of a trigger kind. -/
def trigSrcMax (k : Nat) : Nat := ([3, 9, 15, 15, 0, 0, 3] : List Nat).getD k 0

/-- A trigger table entry is one the node accepts; each entry is checked, a disabled one too (R164; log entry 31). -/
def trigOk (target : Nat) (d : List Byte) (i : Nat) : Bool :=
  let e := slice d (24 * i) 24
  let t := trigOf d i
  byteAt e 0 < 16 && byteAt e 3 == 0 && leAt e 8 4 < 2 ^ 20 && leAt e 20 4 == 0 && decide (t.kind ≤ 6) &&
    !(t.kind == 1 && target == 16) && !(t.kind == 6 && target != 16) &&
    decide (t.src ≤ trigSrcMax t.kind) && t.entry % 4 == 0 && decide (1 ≤ t.budget) &&
    (if t.kind = 2 then decide (10 ≤ t.period) && decide (t.period ≤ 10000000) && decide (t.phase < t.period)
     else t.period == 0 && t.phase == 0)

/-- Channels the FIELDBUS triggers of a table name, enabled or not (10 R347). -/
def trigChans (d : List Byte) : List Nat :=
  (List.range 64).filterMap (fun i => let t := trigOf d i; if t.kind = 1 then some t.src else none)

/-- No channel is named by two slots (10 R347). -/
def chansApart : List (List Nat) → Bool
  | [] => true
  | a :: t => t.all (fun b => a.all (fun c => !decide (c ∈ b))) && chansApart t

/-! ### Tables (R165, R166; 06 R195; 08 R299) -/

/-- Entry `i` of the TABLEDEF section. -/
def tabDefOf (d : List Byte) (i : Nat) : TabDef :=
  let e := slice d (16 * i) 16
  { num := byteAt e 0, hashed := byteAt e 1 == 1, kw := byteAt e 2, n := byteAt e 3, entries := leAt e 4 4, base := leAt e 8 4,
    dbl := bitOf (byteAt e 12) 0 }

def tabDefs (d : List Byte) : List TabDef := (List.range (d.length / 16)).map (tabDefOf d)

/-- Shape of a fabric table: hashed, key width, entry size, most entries, banked. -/
def fabShape : Nat → Option (Bool × Nat × Nat × Nat × Bool)
  | 0 => some (true, 64, 1, 32768, false)
  | 1 => some (false, 0, 8, 4096, false)
  | 2 => some (true, 64, 1, 16384, false)
  | 3 => some (false, 0, 2, 1024, false)
  | 4 => some (false, 0, 4, 1024, false)
  | 5 => some (false, 0, 4, 24, false)
  | 8 => some (false, 0, 8, 64, true)
  | 9 => some (false, 0, 2, 64, true)
  | 10 => some (false, 0, 1, 64, true)
  | 11 => some (true, 14, 1, 16384, true)
  | 12 => some (false, 0, 1, 1280, false)
  | _ => none

/-- Words a table occupies, both banks of a double-banked one. -/
def TabDef.span (t : TabDef) : Nat := if t.dbl then 2 * t.size else t.size

/-- One TABLEDEF entry is in range and has the shape of its number; a table has at least one entry (log entry 140). -/
def tabDefOk (d : List Byte) (i : Nat) : Bool :=
  let e := slice d (16 * i) 16
  let t := tabDefOf d i
  decide (byteAt e 1 ≤ 1) && byteAt e 12 < 2 && allZero (e.drop 13) && decide (1 ≤ t.n) && decide (t.n ≤ 8) &&
    decide (1 ≤ t.entries) &&
    (if t.hashed then decide (1 ≤ t.kw) && decide (t.kw ≤ 64) && t.entries % 8 == 0 else t.kw == 0) &&
    decide (t.base + t.span ≤ 786432) &&
    (if t.num < 16 then
      match fabShape t.num with
      | none => false
      | some (h, kw, nw, mx, b) => t.hashed == h && t.kw == kw && t.n == nw && decide (t.entries ≤ mx) && t.dbl == b
     else true)

def tabDefsOk (d : List Byte) : Bool :=
  let l := tabDefs d
  d.length % 16 == 0 && (List.range (d.length / 16)).all (tabDefOk d) && noRepeat (l.map (·.num)) &&
    spansApart (l.map (fun t => (t.base, t.base + t.span)))

/-- Bytes of one unit of a TABLEINIT section: an entry, or a hash group (R163, R166). -/
def TabDef.unit (t : TabDef) : Nat := if t.hashed then 8 * (8 * t.n + 9) else 8 * t.n

/-- Keys of the used entries of a TABLEINIT section with their groups, none where a zero bit is set (R166). -/
def initKeys (t : TabDef) (s : Sec) (img : List Byte) : Option (List (Nat × Nat)) :=
  let d := s.data img
  let gs := List.range (d.length / t.unit)
  let ok := gs.all (fun g => decide (leAt d (g * t.unit) 8 < 256) &&
    (List.range 8).all (fun j => decide (leAt d (g * t.unit + 8 * (1 + (t.n + 1) * j)) 8 < 2 ^ t.kw)))
  if !ok then none else
  some (gs.map (fun g => (List.range 8).filterMap (fun j =>
    if bitOf (leAt d (g * t.unit) 8) j then some (leAt d (g * t.unit + 8 * (1 + (t.n + 1) * j)) 8, s.load + g) else none))).flatten

/-- The TABLEINIT sections (R163, R166; 06 R215). -/
def tabInitsOk (img : List Byte) (defs : List TabDef) : Bool :=
  let l := secsOf img 5
  l.all (fun s => match defs.find? (fun t => t.num == s.target) with
    | none => false
    | some t =>
      let k := s.size / t.unit
      s.size % t.unit == 0 && decide (s.load + k ≤ (if t.hashed then t.entries / 8 else t.entries)) &&
        spansApart ((l.filter (fun x => x.target == s.target)).map (fun x => (x.load, x.load + x.size / t.unit))) &&
        (t.num != 5 || ([20, 21, 22].all (fun i =>
          !(decide (s.load ≤ i) && decide (i < s.load + k)) || leAt (s.data img) (8 * t.n * (i - s.load)) 4 == 0))) &&
        (!t.hashed || (match initKeys t s img with
          | none => false
          | some ks => ks.all (fun x => t.group x.1 == x.2)))) &&
    defs.all (fun t => !t.hashed ||
      noRepeat (((l.filter (fun x => x.target == t.num)).map (fun s => ((initKeys t s img).getD []).map (·.1))).flatten))

/-! ### Datasets (11 R401) -/

/-- A dataset entry. -/
def datasetOf (e : List Byte) : Dataset :=
  { flags := byteAt e 0, engine := byteAt e 1, vslot := leAt e 2 2, comid := leAt e 4 4, length := leAt e 8 2,
    ttl := byteAt e 10, dscp := byteAt e 11, addr := leAt e 12 4, timeout := leAt e 16 2 }

/-- A dataset entry is in range, its zero fields zero, a disabled one's too (R401; log entry 31). -/
def datasetOk (e : List Byte) : Bool :=
  let d := datasetOf e
  let sub := bitOf d.flags 1
  let ver := bitOf d.flags 5
  decide (d.flags < 64) && allZero (e.drop 18) &&
    (if ver then decide (d.engine ≤ 15) && decide (d.vslot ≤ 16127) else d.engine == 0 && d.vslot == 0) &&
    d.comid != 0 && decide (d.length ≤ 1432) && d.length % 4 == 0 &&
    (if sub then d.ttl == 0 && d.dscp == 0 && d.timeout != 0 else d.ttl != 0 && decide (d.dscp < 64) && d.timeout == 0)

/-- The dataset entries of an image with their numbers. -/
def imgDatasets (img : List Byte) : List (Nat × List Byte) :=
  ((secsOf img 9).map (fun s => (List.range (s.size / 32)).map (fun i => (s.load + i, slice (s.data img) (32 * i) 32)))).flatten

def datasetsOk (img : List Byte) : Bool :=
  let l := imgDatasets img
  let coms := l.filterMap (fun e =>
    let d := datasetOf e.2
    if bitOf d.flags 0 && bitOf d.flags 1 then some d.comid else none)
  (secsOf img 9).all (fun s => s.target == 0 && s.size % 32 == 0) && l.all (fun e => decide (e.1 < 640) && datasetOk e.2) &&
    noRepeat (l.map (·.1)) && noRepeat coms

/-! ### Settings (R168-R170) -/

/-- The entries of a settings record; none where they are out of order or do not fit (DEDUCED, log entry 32). -/
def setParse : Nat → List Byte → Nat → FMap (List Byte) → Option (FMap (List Byte))
  | 0, l, _, acc => if l.isEmpty then some acc else none
  | k + 1, l, last, acc =>
    if l.isEmpty then some acc else
    let key := leAt l 0 2
    let len := leAt l 2 2
    let tot := 4 + (len + 3) / 4 * 4
    if l.length < tot ∨ key = 0xFFFF ∨ key ≤ last then none
    else setParse k (l.drop tot) key (FMap.put [] acc key (slice l 4 len))

/-- FORMAT, SEQ and values of a valid settings record (R168, R170). -/
def setRecord (r : List Byte) : Option (Nat × Nat × FMap (List Byte)) :=
  let len := leAt r 12 4
  if slice r 0 4 == [0x4B, 0x52, 0x51, 0x54] && decide (20 ≤ len) && decide (len ≤ 65536) && decide (len ≤ r.length) &&
      crc32c (r.take (len - 4)) == leAt r (len - 4) 4 then
    (setParse 16384 ((r.take (len - 4)).drop 16) 0 []).map (fun v => (leAt r 4 2, leAt r 8 4, v))
  else none

/-- The value a node-defined key gives, none where it is missing or outside its range (R169, R319, R330). -/
def keyValue (k : Nat) (v : List Byte) : Option (List Byte) :=
  let x := leNat v
  if k = 1 ∨ k = 2 then (if v.length = 16 then some v else none)
  else if k = 3 then (if v.length ∈ [6, 12, 18, 24] then some v else none)
  else if k = 4 then (if v.length = 1 ∧ x % 2 = 0 ∧ x < 16 then some v else none)
  else if k = 5 then (if v.length = 80 then some v else none)
  else if k = 6 then (if v.length = 4 then some (leBytes 4 (max 100 (min x 1000000000))) else none)
  else if k = 7 then (if v.length = 2 then some v else none)
  else if k = 8 then (if v.length = 1 ∧ 1 ≤ x then some v else none)
  else if v.length = 2 ∧ 10 ≤ x ∧ x ≤ 1000 then some v else none

/-- The record of a format with the highest SEQ. -/
def bestRecord (store : List (List Byte)) (fmt : Nat) : Option (Nat × FMap (List Byte)) :=
  store.foldl (fun best r => match setRecord r with
    | some (f, s, v) =>
      if f ≠ fmt then best else
      match best with
      | none => some (s, v)
      | some b => if b.1 < s then some (s, v) else best
    | none => best) none

/-- Select the settings: node-defined keys that are missing or out of range come from SETDEF, each with a fault record; keys 0001h and 0002h missing in both are reported (R170; log entry 32). -/
def Node.selectSettings (n : Node) (img : List Byte) : Node :=
  let dflt := match secsOf img 10 with
    | s :: _ => ((setRecord (s.data img)).map (fun x => x.2.2)).getD []
    | [] => []
  match bestRecord n.flash.settings (imgFormat img) with
  | none =>
    let vals := [1, 2, 3, 4, 5, 6, 7, 8, 9].foldl (fun m k => FMap.put [] m k ((keyValue k (FMap.get [] dflt k)).getD [])) dflt
    [1, 2].foldl (fun a k => if FMap.get [] a.settings k = [] then a.fault 4 1 k else a) ({ n with settings := vals }.fault 4 1 0)
  | some (_, rec') =>
    let n := { n with settings := rec' }
    [1, 2, 3, 4, 5, 6, 7, 8, 9].foldl (fun a k =>
      match keyValue k (FMap.get [] rec' k) with
      | some v => { a with settings := FMap.put [] a.settings k v }
      | none =>
        let v := (keyValue k (FMap.get [] dflt k)).getD []
        let a := { a with settings := FMap.put [] a.settings k v }
        if v ≠ [] ∨ k ≤ 2 then a.fault 4 1 k else a) n

/-- Write the settings into the registers that hold them (R319, R330, R423, R441, R474). -/
def Node.applySettings (n : Node) : Node :=
  let v := fun k => FMap.get [] n.settings k
  let n := (List.range 4).foldl (fun a p => (List.range 5).foldl (fun a r =>
    a.wr (F.TIM_ASYM_CPL_CONST p r) (leAt (v 5) (4 * (5 * p + r)) 4)) a) n
  let n := if v 6 = [] then n else n.wr F.TIM_STEP_THRESH_NS (leNat (v 6))
  let n := if v 7 = [] then n else n.wr F.UPD_BATT_THRESH (leNat (v 7))
  let n := if v 8 = [] then n else n.wr F.PAIR_DRILL_PERIOD (leNat (v 8))
  if v 9 = [] then n else n.wr F.PAIR_CKPT_CFG_PERIOD (leNat (v 9))

/-! ### The slot check (R167) -/

/-- Counts, targets and sizes of R163. A CODE section starts at a whole word (log entry 140). -/
def typesOk (img : List Byte) : Bool :=
  let l := imgSecs img
  let one := fun k => (secsOf img k).length == 1
  let code := secsOf img 2
  let trg := secsOf img 3
  l.all (fun s => decide (1 ≤ s.ty) && decide (s.ty ≤ 10)) && one 1 && one 4 && one 7 && one 8 && one 10 &&
    (secsOf img 1).all (fun s => s.target == 0 && decide (s.size ≤ 1572864) && decide (s.load + s.size ≤ 2097152)) &&
    code.all (fun s => decide (s.target ≤ 16) && s.load % 4 == 0 &&
      decide (s.load + s.size ≤ (if s.target = 16 then 258048 else 65536))) &&
    noRepeat (code.map (·.target)) && decide (16 ∈ code.map (·.target)) && decide ((code.map (·.size)).sum ≤ 655360) &&
    noRepeat (trg.map (·.target)) && trg.all (fun s => s.size == 1536 && s.load == 0 && decide (s.target ∈ code.map (·.target))) &&
    code.all (fun s => decide (s.target ∈ trg.map (·.target))) &&
    trg.all (fun s => (List.range 64).all (trigOk s.target (s.data img))) &&
    chansApart (trg.map (fun s => trigChans (s.data img))) &&
    (secsOf img 4).all (fun s => s.target == 0 && s.load == 0 && tabDefsOk (s.data img) && tabInitsOk img (tabDefs (s.data img))) &&
    (secsOf img 6).all (fun s => decide (s.target ≤ 15) && s.size % 16 == 0 && decide (s.load + s.size / 16 ≤ 16128)) &&
    (secsOf img 7).all (fun s => s.target == 0 && s.load == 0 && decide (s.size ≤ 262144)) &&
    (secsOf img 8).all (fun s => s.target == 0 && s.load == 0 && s.size % 16 == 0 && decide (16 ≤ s.size) && decide (s.size ≤ 512)) &&
    datasetsOk img &&
    (secsOf img 10).all (fun s => s.target == 0 && s.load == 0 && decide (s.size ≤ 65536) && (setRecord (s.data img)).isSome)

/-- Header fields that no other code judges (DEDUCED, log entry 31). -/
def headFieldsOk (img : List Byte) : Bool :=
  allZero (slice img 0x1A 6) && allZero (slice img 0x40 64)

/-- The part of the checks that code 7 covers for an image. -/
def imgCode7 (img : List Byte) : Bool := headFieldsOk img && imgFormat img != 0 && secsOk img && typesOk img

/-- The same for a loader package (13 R479). -/
def loaderCode7 (img : List Byte) : Bool :=
  headFieldsOk img && imgFormat img == 0 && leAt img 0x14 2 == 1 && secsOk img &&
    (imgSecs img).all (fun s => s.ty == 1 && s.target == 0 && s.load == 0 && decide (s.size ≤ 2097152))

/-- The checks of R167 in their order; the answer is the code `MGT.BOOTINFO` shows. -/
def slotCode (loader : Bool) (keys : FMap (List Byte)) (img : List Byte) : Nat :=
  let sg := imgSigned img
  let slot := leAt img (sg + 4) 4
  let key := FMap.get [] keys slot
  if !imgHeadOk (if loader then 0x4C else 0x49) img then 2
  else if leAt img 0x16 2 ≠ 0x0640 then 3
  else if slice img (sg + 8) 64 ≠ sha512 (img.take sg) then 4
  else if 4 ≤ slot ∨ key = [] ∨ (loader ∧ slot ≠ 0) then 6
  else if !edVerify key (slice img (sg + 8) 64) (slice img (sg + 72) 64) then 5
  else if !(if loader then loaderCode7 img else imgCode7 img) then 7
  else 1

/-! ### Flash wear (13 R468, R480) -/

/-- Blocks of a device in service: the first 3 768 that are not retired, in rising order (log entry 33). -/
def Node.blocksIn (n : Node) (dev : Nat) : List Nat :=
  ((List.range Config.flashBlocks).filter (fun b => !decide (dev * Config.flashBlocks + b ∈ n.flash.retired))).take
    (Config.flashBlocks - Config.flashSpares)

/-- First block of a region in a device's logical order: two loader copies, main, fallback, transfer area, commit records, settings, fault log (R468). -/
def regionMain : Nat := 32
def regionFallback : Nat := 288
def regionXfer : Nat := 544
def regionSettings : Nat := 808
def regionLog : Nat := 824
def regionBlocks : Nat := 832

/-- The block that holds logical block `l` of the regions of a device; as delivered, the block of that number (log entry 33). -/
def Node.blockAt (n : Node) (dev l : Nat) : Nat :=
  let v := FMap.get 0 n.flash.place (1024 * dev + l)
  if v = 0 then l else v - 1

/-- The rotation pool: blocks in service that no region occupies (R468). -/
def Node.poolOf (n : Node) (dev : Nat) : List Nat :=
  let held := (List.range regionBlocks).foldl (fun m l => setBit m (n.blockAt dev l) true) 0
  (n.blocksIn dev).filter (fun b => !bitOf held b)

/-- Put logical block `l` of a device on a block. -/
def Node.placeBlock (n : Node) (dev l b : Nat) : Node :=
  { n with flash := { n.flash with place := FMap.put 0 n.flash.place (1024 * dev + l) (b + 1) } }

/-- Retire a flash block; its contents move to the spare block that comes into service, and without a spare the mirror device alone serves its region (R480). -/
def Node.retireBlock (n : Node) (dev b : Nat) : Node :=
  let k := dev * Config.flashBlocks + b
  if k ∈ n.flash.retired then n else
  let none' := n.flashSpare dev == 0
  let held := (List.range regionBlocks).find? (fun l => n.blockAt dev l == b)
  let n := { n with flash := { n.flash with retired := n.flash.retired ++ [k] } }
  let n := match held with
    | none => n
    | some l =>
      if none' then
        (if n.loneAt dev (regionNo l) then n else { n with flash := { n.flash with lone := n.flash.lone ++ [8 * dev + regionNo l] } })
      else match (n.blocksIn dev).getLast? with
        | some s => n.placeBlock dev l s
        | none => n
  let n := n.fault 4 4 (dev * 2 ^ 31 + b)
  if none' then n.put F.UPD_STATUS_MIRROR_DEGRADED true else n

/-- One erase of a device for logical block `l`: the least-erased block of the rotation pool, any among equals, takes its place; none on a device that no longer serves the region (R468, R480; log entry 33). -/
def Node.eraseOne (n : Node) (dev l : Nat) : Node :=
  if n.loneAt dev (regionNo l) then n else
  let done := fun (b : Nat) => FMap.get 0 n.flash.erases (dev * Config.flashBlocks + b)
  let pool := n.poolOf dev
  let least := (pool.map done).foldl min Config.eraseBudget
  let best := pool.filter (fun b => done b == least)
  if best.isEmpty then n else
  let (v, n) := n.free
  let b := best.getD (v % best.length) 0
  let k := dev * Config.flashBlocks + b
  let n := { n with flash := { n.flash with erases := FMap.put 0 n.flash.erases k (least + 1) } }.placeBlock dev l b
  if Config.eraseBudget ≤ least + 1 then n.retireBlock dev b else n

/-- The erases of a write of `size` bytes to a region from logical block `l` on, on both devices. -/
def Node.eraseFor (n : Node) (l size : Nat) : Node :=
  (List.range ((size + 131071) / 131072)).foldl (fun a i => (a.eraseOne 0 (l + i)).eraseOne 1 (l + i)) n

/-- The image in the transfer area. -/
def Node.xferImage (n : Node) : List Byte :=
  (((List.range ((n.flash.xferSize + 65535) / 65536)).map (fun k => FMap.get [] n.flash.xfer k)).flatten).take n.flash.xferSize

/-- Write the main slot on both devices. -/
def Node.writeMain (n : Node) (img : List Byte) : Node :=
  { n with flash := { n.flash with main0 := img, main1 := img, mainFailed := false, untried := false } }.eraseFor regionMain img.length

/-- Write the fallback slot on both devices. -/
def Node.writeFallback (n : Node) (img : List Byte) : Node :=
  { n with flash := { n.flash with fb0 := img, fb1 := img, fbFailed := false } }.eraseFor regionFallback img.length

/-! ### The load (R171; 12 R442, R449) -/

/-- The slots an image uses. -/
def imgSlots (img : List Byte) : List Nat := (List.range 16).filter (fun s => (secsOf img 2).any (fun x => x.target == s))

/-- Bind one slot to a spare engine, or leave it unbound (12 R449). -/
def Node.bindSpare (n : Node) (used : List Nat) (s : Nat) : Node :=
  let l := n.spareEngs.filter (fun e => !decide (e ∈ used))
  if l.isEmpty then n.unbindSlot s
  else
    let (v, n) := n.free
    n.wr (F.HLT_SLOT_ENGINE s) (l.getD (v % l.length) 0)

/-- Bind every slot the image uses: to the engine of its number, or to a spare where that one is retired (02 R49). -/
def Node.bindSlots (n : Node) (used : List Nat) : Node :=
  let n := (List.range 16).foldl (fun a s =>
    ((a.put (F.HLT_SLOT_USED s) (decide (s ∈ used))).wr (F.HLT_SLOT_ENGINE s)
      (if s ∈ used ∧ a.retired s = false then s else 31))) (n.wr F.HLT_ENG_MOVES_UNBOUND 0)
  (used.filter n.retired).foldl (fun a s => a.bindSpare used s) n

/-- The trigger table of a section as the engine holds it. -/
def trigTable (d : List Byte) : FMap Trig := (List.range 64).foldl (fun m i => FMap.put {} m i (trigOf d i)) []

/-- Load engine `e` with the code and triggers of a target, and keep the code in staging. -/
def Node.loadEngine (n : Node) (e target : Nat) (code : List Byte) (load : Nat) (trg : List Byte) : Node :=
  let full := zeros load ++ code
  let n := { n with mem := memWrite (memClear n.mem (codeBase e) (codeSize e)) (codeBase e) full,
                    staging := FMap.put [] n.staging target full }
  (n.setEng e { trigs := trigTable trg }).put (F.SC_CTRL_RUN e) true

/-- Write a TABLEINIT section into the active bank. Each entry of an indexed table is a write to the cleared table, so the rules of hardware-written words hold: counters and history start clear, a policer full, a recovery record with HIST set with TAKE_ANY (05 R171; 06 R200, R209, R212; DEDUCED, log entry 41). -/
def Node.tableInit (n : Node) (t : TabDef) (load : Nat) (d : List Byte) : Node :=
  if t.hashed then { n with mem := memWrite n.mem (tabAddr t.base + load * t.unit) d }
  else (List.range (d.length / t.unit)).foldl (fun a i =>
    a.entryWrite t false (load + i) ((List.range t.n).map (fun j => (j, leAt d (i * t.unit + 8 * j) 8)))) n

/-- The executive writes the Glavohan train profile at step 9, of which only the one-step Sync of P0 to P3 differs from a reset value (09 R322). -/
def Node.trainProfile (n : Node) : Node := [0, 1, 2, 3].foldl (fun a p => a.put (F.TIM_PORT_ONE_STEP p) true) n

/-- Load the data island from section data as `src` reads it; none where a section cannot be read (R171). -/
def Node.loadIsland (n : Node) (img : List Byte) (src : Sec → Option (List Byte)) : Option Node :=
  let l := imgSecs img
  if l.any (fun s => decide (s.ty ∈ [2, 3, 4, 5, 6, 7, 9]) && (src s).isNone) then none else
  let dat := fun s : Sec => (src s).getD []
  let get := fun ty tg => ((l.find? (fun s => s.ty == ty && s.target == tg)).map dat).getD []
  let n := [0, 1, 2, 3].foldl (fun a p => a.setPort p { a.port p with dsp := get 7 0 }) n
  let used := imgSlots img
  let defs := tabDefs (get 4 0)
  let n := { n with mem := memClear n.mem (tabAddr 0) (8 * 786432), tabs := defs, engs := [], staging := [] }
  let n := (secsOf img 5).foldl (fun a s => match defs.find? (fun t => t.num == s.target) with
    | none => a
    | some t => a.tableInit t s.load (dat s)) n
  let n := n.bindSlots used
  let n := (secsOf img 2).foldl (fun a s =>
    let trg := get 3 s.target
    if s.target = 16 then a.loadEngine 18 16 (dat s) s.load trg
    else match a.boundEng s.target with
      | none => { a with staging := FMap.put [] a.staging s.target (zeros s.load ++ dat s) }
      | some e =>
        let a := { a with mem := memClear a.mem (sigBase e) 0x40000 }
        let a := (secsOf img 6).foldl (fun a x =>
          if x.target = s.target then { a with mem := memWrite a.mem (sigBase e + 16 * x.load) (dat x) } else a) a
        a.loadEngine e s.target (dat s) s.load trg) n
  let chans := (secsOf img 3).foldl (fun m s =>
    if s.target = 16 then m else (trigChans (dat s)).foldl (fun m c => FMap.put 0 m c (s.target + 1)) m) ([] : FMap Nat)
  let n := { n with loaded := true, chanSlot := chans, datasets := [] }
  some ((secsOf img 9).foldl (fun a s => (List.range (s.size / 32)).foldl (fun a i =>
    let d := datasetOf (slice (dat s) (32 * i) 32)
    let k := s.load + i
    (({ a with datasets := FMap.put {} a.datasets k d }).put (F.BRG_DS_STAT_EN k) (bitOf d.flags 0)).put (F.BRG_DS_STAT_SUB k)
      (bitOf d.flags 1)) a) n)

/-- Section data from one device with its CRC checked, else from the mirror (R171). -/
def flashSrc (a b : List Byte) (s : Sec) : Option (List Byte) :=
  if crc32c (s.data a) == s.crc then some (s.data a) else if crc32c (s.data b) == s.crc then some (s.data b) else none

/-- Protection regions from the PROTECT section, managers from settings key 0003h, then BOOT_DONE (R172). An entry of 16 bytes holds BASE, LIMIT and RIGHTS as three words, its last four bytes unused and unchecked (DESIGN CHOICE, log entry 127). -/
def Node.writeProtection (n : Node) (img : List Byte) : Node :=
  let d := match secsOf img 8 with
    | s :: _ => s.data img
    | [] => []
  let n := (List.range (d.length / 16)).foldl (fun a i =>
    let r := leAt d (16 * i + 8) 4
    a.wrs [(F.PRO_REGION_BASE_ADDR i, leAt d (16 * i) 4 / 4096), (F.PRO_REGION_LIMIT_ADDR i, leAt d (16 * i + 4) 4 / 4096),
      (F.PRO_REGION_RIGHTS_EN i, bitsOf r 31 31), (F.PRO_REGION_RIGHTS_OX i, bitsOf r 13 13),
      (F.PRO_REGION_RIGHTS_XO i, bitsOf r 12 12), (F.PRO_REGION_RIGHTS_SCOPE i, bitsOf r 11 10),
      (F.PRO_REGION_RIGHTS_RW i, bitsOf r 9 0)]) n
  let v := FMap.get [] n.settings 3
  let n := (List.range 4).foldl (fun a i =>
    a.wrs [(F.PRO_RMGR_LO_NODE_LO i, leAt v (6 * i) 4), (F.PRO_RMGR_HI_NODE_HI i, leAt v (6 * i + 4) 2),
      (F.PRO_RMGR_HI_EN i, b2n (decide (6 * i + 6 ≤ v.length)))]) n
  n.put F.PRO_CTRL_BOOT_DONE true

/-! ### Roles (12 R406-R411) -/

/-- A fault record goes into the log region, 512 records to an erase block; the first of a block erases it (13 R468, R480; log entry 33). -/
def Node.logWrite (n : Node) : Node :=
  let k := n.log.written
  let n := if k % 512 = 0 then (n.eraseOne 0 (regionLog + k / 512 % 8)).eraseOne 1 (regionLog + k / 512 % 8) else n
  { n with log := { n.log with written := k + 1 } }

/-- Copy the staged fault records into the flash log, in SEQ order (13 R463, R465). -/
def Node.copyLog (n : Node) : Node :=
  let l := n.log.flash ++ n.log.staged
  let k := n.log.staged.length
  (List.range k).foldl (fun a _ => a.logWrite) { n with log := { n.log with flash := l.drop (l.length - 4096), staged := [] } }

/-- Assert the claim (R409). -/
def Node.assertClaim (n : Node) : Node :=
  { n with pair := { n.pair with claimAt := n.wchCycle, tied := none } }.put F.PAIR_STATUS_CLAIM_HELD true

/-- Assert the claim and enter ACTIVE. -/
def Node.enterActive (n : Node) : Node :=
  { n.assertClaim with mode := .active, level := 0, wait := .none }.wr F.MGT_BOOTINFO_STEP 10

/-- The choice at the end of BOOT: ACTIVE where the claim can be asserted, else COLD_STANDBY (R407, R409). -/
def Node.roleDecide (n : Node) : Node :=
  if n.partnerClaim then ({ n with wait := .none, pair := { n.pair with tied := none } }.enterStandby).wr F.MGT_BOOTINFO_STEP 10 else n.enterActive

/-- The node has heard its partner: a valid heartbeat has come on the Cicada link (R407). -/
def Node.heard (n : Node) : Bool := (FMap.get {} n.pair.paths 0).first.isSome

/-- Step 10 of start-up: position b waits for the claim of a partner in BOOT, and a node that has not heard its partner waits for its heartbeat where the Cicada link has symbol lock, which no command shows: a free value (R407, R410; log entry 117). A node that withdrew from a tie of equal positions asserts again once its effective position is a (R410). -/
def Node.roleChoice (n : Node) : Node :=
  if n.single ∨ n.partnerClaim then n.roleDecide
  else if n.pair.tied.isSome then (if n.posA then n.roleDecide else { n with pair := { n.pair with tied := some true } })
  else if !n.posA ∧ n.rd F.PAIR_STATUS_PARTNER_STATE = 1 then { n with wait := .claim }
  else if n.heard then n.roleDecide
  else
    let (v, n) := n.free
    if v % 2 = 1 then { n with wait := .claim } else n.roleDecide

/-- FAULTED: relays closed, data island off, the resident loader serves the service port (R157). -/
def Node.enterFaulted (n : Node) : Node := { (n.release).dataOff with mode := .faulted, level := 0, wait := .none }

/-! ### The sequence (R156, R157, R171; 13 R475, R476) -/

/-- The boot ROM verifies a copy of the resident loader with key slot 0 (R158; log entry 34). -/
def Node.loaderGood (n : Node) (copy : Nat) : Bool :=
  let l := if copy = 0 then n.flash.loader0 else n.flash.loader1
  let g := if copy = 0 then n.flash.loaderSig0 else n.flash.loaderSig1
  let key := FMap.get [] n.flash.keys 0
  key != [] && l != [] && edVerify key (sha512 l) g

/-- An uncorrectable error lies in the boot ROM (02 R68). -/
def Node.romBad (n : Node) : Bool := n.poison.any (fun a => decide (a < 0x40000))

/-- Mark a slot failed (R171). -/
def Node.markSlot (n : Node) (fb : Bool) : Node :=
  { n with flash := if fb then { n.flash with fbFailed := true } else { n.flash with mainFailed := true } }

/-- Fall back: FELL_BACK with its cause, and a record (13 R476). -/
def Node.fellBack (n : Node) (cause : Nat) : Node :=
  (n.wrs [(F.UPD_STATUS_FELL_BACK, 1), (F.UPD_STATUS_FB_CAUSE, cause), (F.UPD_STATUS_TRIAL, 0)]).fault 4 3 3

/-- The image that COMMIT wrote passes its check for the first time: it boots on trial (13 R476). -/
def Node.onTrial (n : Node) : Node :=
  if n.flash.untried then
    { n with flash := { n.flash with untried := false } }.wrs [(F.UPD_STATUS_TRIAL, 1), (F.UPD_STATUS_TRIAL_RESTARTS, 0)]
  else n

/-- A restart counts on trial where its cause is 1 or 2 (13 R476). -/
def Node.countTrial (n : Node) (cause : Nat) : Node :=
  if n.on F.UPD_STATUS_TRIAL ∧ (cause = 1 ∨ cause = 2) then
    n.wr F.UPD_STATUS_TRIAL_RESTARTS (min 3 (n.rd F.UPD_STATUS_TRIAL_RESTARTS + 1))
  else n

/-- A restart up to step 2 of R156. -/
def Node.restartBegin (n : Node) (cause : Nat) : Node :=
  let n := { (n.countTrial cause).restartReset with mode := .boot }
  n.wrs [(F.MGT_BOOTINFO_CAUSE, cause), (F.MGT_BOOTINFO_STEP, 2)]

/-- Steps 7 and 8 for the slot chosen (R156, R170, R172). -/
def Node.startSlot (n : Node) (fb : Bool) (img : List Byte) : Node :=
  let n := (n.put F.MGT_STATE_SLOT fb).wr F.UPD_FORMATS_BOOTED (imgFormat img)
  let n := ((n.selectSettings img).applySettings).writeProtection img
  let n := match secsOf img 1 with
    | s :: _ => { n with mem := memWrite n.mem (0x100000 + s.load) (s.data img) }
    | [] => n
  let n := if n.flash.crec = .confirm then n.put F.UPD_STATUS_CONFIRMING true else n
  (n.wr F.MGT_BOOTINFO_STEP 7).dataUp.wr F.MGT_BOOTINFO_STEP 8

/-- Start-up from step 3 on; the number bounds the restarts that start-up itself makes. From the third counted restart on trial the main slot is passed over while the fallback slot can be booted, until COMMIT or REVERT writes it (13 R476; 05 R157; DESIGN CHOICE, log entry 137). -/
def Node.boot : Nat → Node → Node
  | 0, n => n.enterFaulted
  | k + 1, n =>
    let n := (n.marginMark.put F.PWR_ISLANDS_CONTROL true).wr F.MGT_BOOTINFO_STEP 3
    if n.romBad then (n.fault 0 2 6).enterFaulted
    else if !(n.loaderGood n.flash.loaderCur || n.loaderGood (1 - n.flash.loaderCur)) then n.enterFaulted
    else
      let n := n.wr F.MGT_BOOTINFO_STEP 4
      if n.flash.crec = .copy then
        let n := { n with mode := .updating }.writeMain n.xferImage
        let n := { n with flash := { n.flash with crec := .none, untried := true } }
        let n := (n.wrs [(F.UPD_STATUS_TRIAL, 0), (F.UPD_STATUS_TRIAL_RESTARTS, 0)]).fault 4 3 2
        Node.boot k (n.restartBegin 4)
      else
        let fc := if n.flash.fbFailed then 7 else slotCode false n.flash.keys n.fbImg
        let third := 3 ≤ n.rd F.UPD_STATUS_TRIAL_RESTARTS ∧ fc = 1
        let mc := if third then 0 else if n.flash.mainFailed then 7 else slotCode false n.flash.keys n.mainImg
        let n := (n.wr F.MGT_BOOTINFO_MAIN mc).wr F.MGT_BOOTINFO_STEP 5
        let go := fun (n : Node) (fb : Bool) (img mirror : List Byte) =>
          let n := n.startSlot fb img
          if !n.dataOn then (((n.trainProfile).copyLog).wr F.MGT_BOOTINFO_STEP 9).roleChoice else
          match n.loadIsland img (flashSrc img mirror) with
          | some n => (((n.trainProfile).copyLog).wr F.MGT_BOOTINFO_STEP 9).roleChoice
          | none =>
            let other := if fb then n.flash.mainFailed else n.flash.fbFailed
            let n := (n.markSlot fb).wr (if fb then F.MGT_BOOTINFO_FALLBACK else F.MGT_BOOTINFO_MAIN) 7
            if other then n.enterFaulted
            else Node.boot k ((if fb then n else n.fellBack 0).restartBegin 6)
        if mc = 1 then go n.onTrial false n.mainImg n.mainMirror
        else
          let n := if third ∨ n.flash.mainFailed then n else n.fault 4 2 (256 * mc)
          let n := (n.wr F.MGT_BOOTINFO_FALLBACK fc).wr F.MGT_BOOTINFO_STEP 6
          if fc ≠ 1 then (if n.flash.fbFailed then n else n.fault 4 2 (1 + 256 * fc)).enterFaulted
          else
            let n := if third then (if n.on F.UPD_STATUS_TRIAL then n.fellBack 1 else n)
              else if n.flash.mainFailed then n else n.fellBack 0
            go n true n.fbImg n.fbMirror

/-- A node restart with its cause (00 R15; 05 R182). -/
def Node.restart (n : Node) (cause : Nat) : Node := Node.boot 8 (n.restartBegin cause)

/-- The code `PAIR.STATUS.POS` shows for a strap (15 R523). -/
def strapPos (strap : Nat) : Nat := if strap = 1 then 1 else if strap = 2 ∨ strap = 3 then 2 else 0

/-- Power-on at step 1 of R156: PO fields reset, what module storage and the MRAM hold is kept, a closure by loss of power is counted (00 R15; 07 R268; 15 R523). -/
def Node.powerOn (n : Node) : Node :=
  let keep := [F.PWR_STATUS_PRI_OK, F.PWR_STATUS_BAT_OK, F.PWR_STATUS_PRI_AC, F.PWR_PRIMARY_FREQ, F.PWR_PRIMARY_VOLTS,
    F.PWR_BATTERY_VOLTS, F.PWR_BATTERY_MA, F.PAIR_STATUS_PARTNER_CLAIM]
  let held := keep.map (fun f => (f, n.rd f))
  let old := n.clock.fresh
  let n0 := { n.restartReset with mem := [], poison := n.poison.filter (fun a => decide (a < 0x40000)), memCe := [] }
  let n1 := { n0 with regs := keepRegs n0.regs (fun _ c => c == RCode.keep), clock := {}, mode := .boot, unpowered := false, failed := [],
                      pair := { strap := n.pair.strap, tset := n.pair.tset, seq := 0, nextCk := n.pair.nextCk,
                                drillDone := n.pair.drillDone.map (fun t => t - (old : Int)), drillFail := n.pair.drillFail,
                                everStandby := n.pair.everStandby, lastDrive := n.pair.lastDrive } }
  let n2 := (n1.wrs held).wrs [(F.PAIR_STATUS_POS, strapPos n.pair.strap), (F.PWR_STATUS_STRAP_ERR, b2n (n.pair.strap == 3)),
    (F.PWR_STATUS_STORE_OK, 1), (F.PWR_STATUS_SOURCE, if n.on F.PWR_STATUS_PRI_OK then 1 else if n.on F.PWR_STATUS_BAT_OK then 2 else 0),
    (F.MGT_BOOTINFO_CAUSE, 0), (F.MGT_BOOTINFO_STEP, 2)]
  let n3 := [0, 1].foldl (fun a l => if FMap.get false a.pair.lastDrive l then
    { a.relayOp l false with pair := { a.pair with lastDrive := FMap.put false a.pair.lastDrive l false } } else a) n2
  Node.boot 8 n3

/-! ### Meanings -/

/-- 10 ms of the wait of step 10, or after a tie, have passed: after a tie they count only without a heartbeat of the partner, and the wait goes on where one has come (R407, R410). -/
def Node.claimWaitEnds (n : Node) : Node :=
  if n.wait ≠ .claim then n
  else if n.pair.tied = some true then { n with pair := { n.pair with tied := some false } }
  else n.roleDecide

/-- The wait of step 10, or of a clash, ends (12 R407, R410). -/
def execClaimWaitTimeout (s : State) : Host.Outcome State Fault Refusal := s.to s.node.claimWaitEnds

/-- The copied fault records (13 R463). -/
def execFaultLogCopy (s : State) : Host.Outcome State Fault Refusal :=
  s.to (if s.node.ctlOn && s.node.mode != .off then s.node.copyLog else s.node)

/-- An erase or program of a block fails (13 R480). -/
def execFlashBlockRetire (dev block : Nat) (s : State) : Host.Outcome State Fault Refusal :=
  s.to (if s.node.ctlOn ∧ dev < 2 ∧ block < Config.flashBlocks then s.node.retireBlock dev block else s.node)

/-- The management core watchdog is not serviced for 2 ms (12 R411). -/
def execWatchdogExpiry (s : State) : Host.Outcome State Fault Refusal :=
  s.to (if s.node.ctlOn then s.node.restart 1 else s.node)

end Sys2Proof.Machine
end

