-- ==== Sys2Proof/Machine/Inaug.lean ====
section
/-! DEFINITION. The frame unit of the topology engine: topology frames, rounds, agreement, the scheduled commit, the grace interval, standard mode (08 R274-R312). -/

namespace Sys2Proof.Machine

open Sys2Proof

/-! ### Frames (R274-R277) -/

/-- The topology engine and its frame unit work (R284). -/
def Node.topoWorks (n : Node) : Bool :=
  n.dataOn && n.mode == .active && decide (1 ≤ n.level) && !decide (Res.topology ∈ n.failed)

/-- The backbone port runs in native mode with its link up. -/
def Node.nativeUp (n : Node) (p : Nat) : Bool :=
  decide (p < 4) && n.linkUp p && !n.on (F.BBL_STATUS_COMPAT (lineOf p) (endOf p))

/-- The partner on the port takes part in the gear handshake. -/
def Node.hitless (n : Node) (p : Nat) : Bool := n.nativeUp p && n.on (F.BBL_STATUS_HITLESS (lineOf p) (endOf p))

/-- The whole frame of a topology header and body (R274). -/
def Node.topoEth (n : Node) (p : Nat) (h : List Byte) : List Byte :=
  let b := beBytes 6 0x0180C200000E ++ n.portMac p ++ beBytes 2 0x88B5 ++ h
  b ++ zeros (60 - b.length)

/-- The header of R276. -/
def topoHeader (ty sender round epoch len : Nat) : List Byte :=
  [0x54, 0x39, 1, BitVec.ofNat 8 ty] ++ leBytes 6 sender ++ leBytes 2 round ++ leBytes 2 epoch ++ leBytes 2 len

/-- LENGTH of a TYPE; none for an unknown TYPE. -/
def topoLen (ty : Nat) : Option Nat := ([none, some 36, some 76, some 8, some 18, some 4, some 4] : List (Option Nat)).getD ty none

/-- Header and body of the frame pass R276. -/
def topoOk (h : List Byte) : Bool :=
  byteAt h 0 == 0x54 && byteAt h 1 == 0x39 && byteAt h 2 == 1 && topoLen (byteAt h 3) == some (leAt h 14 2) &&
    decide (16 + leAt h 14 2 ≤ h.length)

def topoType (h : List Byte) : Nat := byteAt h 3
def topoSender (h : List Byte) : Nat := leAt h 4 6
def topoRound (h : List Byte) : Nat := leAt h 10 2

/-- Header and body, without what pads the frame. -/
def topoCut (h : List Byte) : List Byte := h.take (16 + leAt h 14 2)

/-- The frame unit sends a topology frame on a port. -/
def Node.topoSend (n : Node) (p : Nat) (h : List Byte) : Node :=
  if n.nativeUp p then n.ownSend p (.bytes (n.topoEth p h)) else n

/-- Positions of the other TN9 nodes of the current directory (R288 KIND; R309). -/
def Node.tn9Peers (n : Node) : List Nat :=
  ((List.range (n.rd F.TOP_INAUG_COUNT)).map (· + 1)).filter (fun p =>
    n.position != 0 && p != n.position && bitsOf (n.tabW 8 p 0) 63 62 == 0)

/-- In standard mode REPORT, PROPOSE and CONFIRM also go in UDP datagrams, ports 49 320, to the train addresses of the TN9 nodes of the directory, through P22 as the bridge's messages do; the payload is the header of R276 and the body, and the source port is the destination's (R309; log entry 17). -/
def Node.topoGrams (n : Node) (h : List Byte) : Node :=
  if n.on F.TOP_INAUG_STANDARD && decide (topoType h ∈ [2, 3, 4]) then
    n.tn9Peers.foldl (fun a p => a.closeP22 (a.trainDatagram p 49320 h)) n
  else n

/-- Send on every native backbone port whose link is up, and as datagrams in standard mode. -/
def Node.topoFlood (n : Node) (h : List Byte) : Node := ([0, 1, 2, 3].foldl (fun a p => a.topoSend p h) n).topoGrams h

/-- The node's consist and vehicle identifiers (R18, 05 R169). -/
def Node.consistId (n : Node) : List Byte := fit 16 (FMap.get [] n.settings 1)
def Node.vehicleId (n : Node) : List Byte := fit 16 (FMap.get [] n.settings 2)

/-- The HELLO of a port (R277). -/
def Node.helloOf (n : Node) (p : Nat) : List Byte :=
  topoHeader 1 n.ident n.inaug.round n.epoch 36 ++ n.consistId ++ n.vehicleId ++
    [BitVec.ofNat 8 p, BitVec.ofNat 8 n.position, BitVec.ofNat 8 (n.rd F.PWR_DISCRETE_CAB_ACTIVE), BitVec.ofNat 8 n.level]

/-- Send a HELLO on a port that has HITLESS (R278). -/
def Node.sendHello (n : Node) (p : Nat) : Node :=
  if n.topoWorks && n.hitless p then n.topoSend p (n.helloOf p) else n

/-- The kind of the neighbour on a port as a REPORT gives it: 0 none or TN9, 1 TN7, 2 standard ETB node (R277, R310). -/
def Node.nbrKind (n : Node) (p : Nat) : Nat :=
  if (n.topPort p).tn7 then 1
  else if n.linkUp p && !n.hitless p && !(n.topPort p).valid then 2 else 0

/-- A neighbour is there: the link is up, with a valid HELLO within 3 ms (R278, R282). -/
def Node.nbrHere (n : Node) (p : Nat) : Bool := n.linkUp p && (n.topPort p).valid

/-- Node identifier of the neighbour on a port, zero where none. -/
def Node.nbrId (n : Node) (p : Nat) : Nat := if n.nbrHere p then topoSender (n.topPort p).hello else 0

/-- The node's REPORT as it is now (R277). -/
def Node.ownReport (n : Node) : List Byte :=
  let kinds := n.nbrKind 0 + 4 * n.nbrKind 1 + 16 * n.nbrKind 2 + 64 * n.nbrKind 3
  let cnt := if n.epoch = 0 then 0 else n.rd F.TOP_INAUG_COUNT
  let first := if n.epoch = 0 then 0 else n.tabW 8 1 0 % 2 ^ 48
  topoHeader 2 n.ident n.inaug.round n.epoch 76 ++ n.consistId ++ n.vehicleId ++
    [0, BitVec.ofNat 8 (n.rd F.PWR_DISCRETE_CAB_ACTIVE), BitVec.ofNat 8 cnt, BitVec.ofNat 8 n.position] ++
    leBytes 6 first ++ [BitVec.ofNat 8 kinds, 0] ++ leBytes 6 (n.nbrId 0) ++ leBytes 6 (n.nbrId 1) ++
    leBytes 6 (n.nbrId 2) ++ leBytes 6 (n.nbrId 3) ++ leBytes 8 n.clock.gm

/-! ### Rounds (R282-R287, R291) -/

/-- Set PHASE of `TOP.INAUG` (R312). -/
def Node.phase (n : Node) (v : Nat) : Node := n.wr F.TOP_INAUG_PHASE v

/-- The phase outside a round: grace, or settled. -/
def Node.idlePhase (n : Node) : Node := n.phase (if n.inGrace then 5 else 0)

/-- Hold a REPORT in place of the sender's earlier one. -/
def Inaug.hold (i : Inaug) (h : List Byte) : Inaug :=
  { i with reports := i.reports.filter (fun f => f.sender != topoSender h) ++ [Flood.mk (topoSender h) h],
           ended := i.ended && i.proposed }

/-- The node's own REPORT changed: hold it and send it again (R285). -/
def Node.refreshReport (n : Node) : Node :=
  let h := n.ownReport
  if n.inaug.openR && !(n.inaug.reports.any (fun f => f.sender == n.ident && f.body == h)) then
    ({ n with inaug := n.inaug.hold h }).topoFlood h
  else n

/-- Own ports show a standard node (R308). -/
def Node.seesStandard (n : Node) : Bool :=
  [0, 1, 2, 3].any (fun p => n.linkUp p && (!n.hitless p || (n.topPort p).tn7))

/-- Start a round (R285): ROUND advances, the REPORT is sent, standard mode is entered where a neighbour asks for it (R308). -/
def Node.startRound (n : Node) : Node :=
  if !n.topoWorks || n.inaug.openR || n.inaug.sched.isSome then n else
  let i := n.inaug
  let n := { n with inaug :=
    { i with round := (i.round + 1) % 65536, openR := true, start := n.clock.fresh, reports := [], proposes := [],
             confirms := [], cands := [], proposed := false, confirmed := false, waiting := false, ended := false,
             late := false } }
  let n := if n.seesStandard then n.put F.TOP_INAUG_STANDARD true else n
  (n.phase 1).refreshReport

/-- Senders of the held reports. -/
def Node.reportSet (n : Node) : List Nat := n.inaug.reports.map (·.sender)

/-- The two lists hold the same members. -/
def sameSet (a b : List Nat) : Bool := a.all (fun x => decide (x ∈ b)) && b.all (fun x => decide (x ∈ a))

/-- A commit that was scheduled is cancelled: the partner is told to invalidate the agreement checkpoint (12 R428; log entry 118). -/
def Node.agreeCancel (n : Node) : Node := if n.inaug.sched.isSome && n.streams then n.sendBlocks true 0 (zeros 19) else n

/-- A round ends without a commit, and one that was scheduled is cancelled: after three in a row over one closed set the node holds, which it records once (R291). Cause 6 is not counted. -/
def Node.dropRound (n : Node) (cause : Nat) : Node :=
  let n := n.agreeCancel
  let i := n.inaug
  let set := n.reportSet
  let held := n.rd F.TOP_INAUG_FAILS == 3
  let fails := if cause = 6 then n.rd F.TOP_INAUG_FAILS
    else if sameSet set i.lastSet then min 3 (n.rd F.TOP_INAUG_FAILS + 1) else 1
  let n := { n with inaug :=
    { i with openR := false, sched := none, dirHeld := false, proposed := false, confirmed := false, proposes := [],
             confirms := [], cands := [], ended := false, waiting := true, lastSet := set } }
  let n := (n.wr F.TOP_INAUG_FAILS fails).idlePhase
  if cause ≠ 6 ∧ fails = 3 then
    let n := n.phase 6
    if held then n else (n.put F.TOP_INAUG_HOLD_FAIL true).fault 10 3 n.epoch
  else n

/-- Bar the ports of the coupling that would exceed 63 nodes (R287). -/
def Node.over63 (n : Node) : Node :=
  let n := if n.on F.TOP_INAUG_OVER63 then n else (n.put F.TOP_INAUG_OVER63 true).fault 10 1 n.epoch
  [0, 1, 2, 3].foldl (fun a p =>
    let t := a.topPort p
    if a.nbrHere p && (slice t.hello 0x20 16 != t.recVid || !t.recSet) then
      (a.setTopPort p { t with stale := true }).wr F.TOP_INAUG_BARRED (setBit (a.rd F.TOP_INAUG_BARRED) p true)
    else a) n

/-- Flood an ABORT for the round and drop it (R290, R291, R294). -/
def Node.sendAbort (n : Node) (cause : Nat) : Node :=
  let h := topoHeader 5 n.ident n.inaug.round n.epoch 4 ++ [BitVec.ofNat 8 cause, 0, 0, 0]
  ((n.topoFlood h).wr F.TOP_INAUG_CAUSE cause).dropRound cause

/-- T_commit lies more than 2 ms ahead. -/
def Node.farCommit (n : Node) (c : Sched) : Bool := decide (n.clock.cycles + 500000 < c.count)

/-- A change of R282 is noticed: 4 topology change, 5 takeover. One that falls on a round which has proposed ends that round; during discovery it changes the REPORT (R285, R294). -/
def Node.changed (n : Node) (cause : Nat) : Node :=
  if !n.topoWorks then n else
  match n.inaug.sched with
  | some c =>
    if n.farCommit c then n.sendAbort cause
    else if cause = 5 then n
    else { n with inaug := { n.inaug with late := true } }
  | none =>
    if n.inaug.openR then (if cause = 5 ∨ n.inaug.proposed then n.sendAbort cause else n.refreshReport)
    else if cause = 5 ∨ n.inaug.waiting then n
    else n.startRound

/-- One vehicle end has neither line with a link up and a valid HELLO (R282). -/
def Node.endLost (n : Node) (p : Nat) : Bool :=
  !([p, mateOf p].any n.nbrHere)

/-- The neighbour on a port is gone: a division where its end has lost both lines (R282). -/
def Node.nbrGone (n : Node) (p : Nat) : Node := if n.endLost p then n.changed 4 else n.refreshReport

/-- No valid HELLO has arrived for 3 ms: the HELLO bit of the port status falls (R278, R281). -/
def Node.nbrLost (n : Node) (p : Nat) : Node :=
  let here := n.nbrHere p
  let n := n.setTopPort p { n.topPort p with valid := false }
  if here then n.nbrGone p else n

/-- What a link that comes up or goes down means to the frame unit: the LINK trigger, the neighbour, the TN7 record and a bar end with the link (R281, R282, R287, R310). -/
def Node.topoLink (n : Node) (p : Nat) (up : Bool) : Node :=
  if 4 ≤ p then n else
  let n := n.fireLink p
  if up then n.refreshReport else
  let t := n.topPort p
  let n := n.setTopPort p { t with tn7 := false, stale := t.stale && !n.barred p }
  ((if t.valid then n.nbrGone p else n).wr F.TOP_INAUG_BARRED (setBit (n.rd F.TOP_INAUG_BARRED) p false)).refreshReport

/-- The node finds that it has missed the commit the train made (R307, R36, R44). -/
def Node.missCommit (n : Node) : Node :=
  let n := { n with inaug := { n.inaug with l1Hold := true, agreed := 0, takenOver := false } }
  let n := n.wrs [(F.TOP_EPOCH_EPOCH, 0), (F.TOP_INAUG_POSITION, 0), (F.TOP_INAUG_COUNT, 0), (F.TOP_INAUG_ORIENT, 0),
    (F.TOP_INAUG_MISSED, 1)]
  n.fault 10 2 0

/-- The neighbour on a port is the one the current directory records for its end. -/
def Node.nbrRecorded (n : Node) (p : Nat) : Bool :=
  let t := n.topPort p
  t.recSet && slice t.hello 0x20 16 == t.recVid

/-- The neighbour on a port holds the epoch this node confirmed and did not adopt, or, where it took over without the agreement checkpoint, a recorded neighbour holds another epoch (R307, R311). -/
def Node.missCheck (n : Node) (p e : Nat) : Node :=
  let i := n.inaug
  if i.sched.isNone && e != 0 && n.epoch != e && (e == i.agreed || (i.takenOver && n.nbrRecorded p)) then n.missCommit else n

/-- The node is in the directory of the scheduled commit. -/
def Node.inSched (n : Node) (id : Nat) : Bool :=
  n.inaug.sched.isSome && (List.range n.inaug.dirCount).any (fun k => FMap.get 0 n.inaug.dir (8 * (k + 1)) % 2 ^ 48 == id)

/-! ### Received frames -/

/-- Header and body of a topology frame from one port, with the frame as it arrived: that is what the topology engine receives (R275). A datagram of standard mode is not relayed (R309). -/
structure TopoIn where
  port : Nat
  h : List Byte
  frame : List Byte
  gram : Bool
deriving DecidableEq, Repr

/-- A frame goes to queue 0 of the topology engine as it arrived (R275). -/
def Node.topoQueue (n : Node) (f : TopoIn) : Node := n.topoDeliver f.frame f.port

/-- A HELLO (R278, R281-R283); a neighbour that the scheduled commit takes in is no further change (R294). -/
def Node.helloRx (n : Node) (f : TopoIn) : Node :=
  let p := f.port
  let h := f.h
  let t := n.topPort p
  let same := !t.hello.isEmpty && (slice t.hello 16 36 == slice h 16 36)
  let vid := slice h 0x20 16
  let take := t.recSet && vid == t.recVid && byteAt h 0x31 == t.recPos && leAt h 12 2 == n.epoch &&
    topoSender h != t.recNode
  let fresh := !t.valid || topoSender t.hello != topoSender h
  let stale := t.stale && (leAt h 12 2 != n.epoch || n.barred p)
  let n := n.setTopPort p { t with hello := h, valid := true, stale := stale }
  let n := if take then
      [p, mateOf p].foldl (fun a q => a.setTopPort q { a.topPort q with recNode := topoSender h }) n
    else n
  let n := if same then n else n.topoQueue f
  if take then n.changed 5
  else if (!t.recSet || vid != t.recVid) && !n.inSched (topoSender h) then n.changed 4
  else if fresh then n.refreshReport else n

/-- Key by which copies of a flooded frame are known (R279). -/
def floodKey (h : List Byte) : Nat × Nat × Nat × Nat :=
  (topoType h, topoSender h, topoRound h, if topoType h = 2 then crc32c (h.drop 16) else 0)

/-- CT of a CONFIRM received on a port for which a step is held, in the frame as well; a datagram's nonzero UDP checksum follows (R280; log entry 17). -/
def Node.fixCt (n : Node) (f : TopoIn) : TopoIn :=
  match n.clock.held with
  | none => f
  | some (q, o) =>
    if q ≠ f.port ∨ topoType f.h ≠ 4 then f else
    let t := ((timeOf (leAt f.h 0x18 6) (leAt f.h 0x1E 4) : Nat) : Int) + o
    let ct := leBytes 6 (secOf t.toNat) ++ leBytes 4 (nsOf t.toNat)
    let k := if f.gram then udpStart f.frame + 8 else 14
    let b := splice f.frame (k + 0x18) ct
    let u := udpStart f.frame + 6
    let v := fixSum (beAt b u 2) (slice f.h 0x18 10) ct
    { f with h := splice f.h 0x18 ct,
             frame := if f.gram ∧ beAt b u 2 ≠ 0 then splice b u (beBytes 2 (if v = 0 then 0xFFFF else v)) else b }

/-- A flooded frame arrives: the first copy on a line is relayed along that line, and the frame is delivered once, whichever line carried it first (R279). A datagram of standard mode is not relayed (R309). -/
def Node.floodRx (n : Node) (f : TopoIn) : Bool × Node :=
  let p := f.port
  let h := f.h
  if topoSender h = n.ident then (false, n) else
  let k := floodKey h
  let n := if f.gram ∨ (lineOf p, k) ∈ n.inaug.relayed then n
    else ({ n with inaug := { n.inaug with relayed := (lineOf p, k) :: n.inaug.relayed } }).topoSend (acrossOf p) h
  if k ∈ n.inaug.seen then (false, n)
  else (true, { n with inaug := { n.inaug with seen := k :: n.inaug.seen } })

/-- A REPORT (R285); one the node does not hold is a change that ends a round which has proposed (R282, R294). -/
def Node.reportRx (n : Node) (f : TopoIn) : Node :=
  let (first, n) := n.floodRx f
  if !first then n else
    let n := if n.inaug.sched.isSome || (n.inaug.openR && n.inaug.proposed) then n.changed 4
      else if n.inaug.openR then n else n.startRound
    let n := if n.inaug.openR && n.inaug.sched.isNone then { n with inaug := n.inaug.hold f.h } else n
    n.topoQueue f

/-- The frame belongs to the current round of a node of the closed set (R467 kind 2). -/
def Node.current (n : Node) (h : List Byte) : Bool :=
  n.inaug.openR && n.inaug.reports.any (fun f => f.sender == topoSender h && topoRound f.body == topoRound h)

/-- Compare a PROPOSE with the node's own (R290): the cause of the ABORT, if any. -/
def Node.proposeBad (n : Node) (h : List Byte) : Option Nat :=
  if leAt h 16 2 ≠ n.inaug.dirEpoch then some 2
  else if leAt h 20 4 ≠ n.inaug.dirDigest then some 1 else none

/-- A PROPOSE (R290). -/
def Node.proposeRx (n : Node) (f : TopoIn) : Node :=
  let (first, n) := n.floodRx f
  if !first then n else
    if !n.current f.h then n.pviol 2 f.port else
    let n := { n with inaug := { n.inaug with proposes := n.inaug.proposes ++ [Flood.mk (topoSender f.h) f.h] } }
    let n := n.topoQueue f
    if n.inaug.proposed then
      match n.proposeBad f.h with
      | some c => n.sendAbort c
      | none => n
    else n

/-- A CONFIRM (R280, R290, R292). -/
def Node.confirmRx (n : Node) (f : TopoIn) : Node :=
  let f := n.fixCt f
  let (first, n) := n.floodRx f
  if !first then n else
    if !n.current f.h then n.pviol 2 f.port else
    let n := { n with inaug := { n.inaug with confirms := n.inaug.confirms ++ [Flood.mk (topoSender f.h) f.h] } }
    n.topoQueue f

/-- An ABORT (R291, R294); CAUSE shows the last one received, whatever it ends (R312). -/
def Node.abortRx (n : Node) (f : TopoIn) : Node :=
  let (first, n) := n.floodRx f
  if !first then n else
    let cause := byteAt f.h 16 % 8
    let n := (n.topoQueue f).wr F.TOP_INAUG_CAUSE cause
    if !n.current f.h then n else
    let go := match n.inaug.sched with
      | some c => n.farCommit c
      | none => true
    if !go then n else
    (if cause = 6 then n.over63 else n).dropRound cause

/-- A MARK (R297, R298). -/
def Node.markRx (n : Node) (p : Nat) (h : List Byte) : Node :=
  let e := leAt h 16 2
  let t := n.topPort p
  (n.setTopPort p { t with rxEpoch := e, rxPrev := t.rxEpoch, marked := true }).missCheck p e

/-- A TN7 identification frame (R310). -/
def Node.tn7Rx (n : Node) (p : Nat) (h : List Byte) : Node :=
  if byteAt h 2 = 1 ∧ byteAt h 3 = 7 ∧ (slice h 10 6).all (fun b => b == 0) then
    (n.setTopPort p { n.topPort p with tn7 := true }).refreshReport
  else n.inc F.TOP_BADFRAMES_COUNT

/-- A topology frame of the given TYPE (7 for a TN7's) that arrives on a backbone port; `b` is the whole frame (R276). -/
def Node.topoRx (n : Node) (p ty : Nat) (b : List Byte) : Node :=
  let h := b.drop 14
  if !(n.topoWorks && decide (p < 4) && n.linkUp p) then n
  else if byteAt h 0 = 0x54 ∧ byteAt h 1 = 0x37 then (if ty = 7 then n.tn7Rx p h else n)
  else if !topoOk h then (n.inc F.TOP_BADFRAMES_COUNT).pviol 0 p
  else if topoType h ≠ ty then n
  else
    let f : TopoIn := { port := p, h := topoCut h, frame := b, gram := false }
    if ty = 1 then n.helloRx f
    else if ty = 2 then n.reportRx f
    else if ty = 3 then n.proposeRx f
    else if ty = 4 then n.confirmRx f
    else if ty = 5 then n.abortRx f
    else n.markRx p f.h

/-- A frame for the topology engine that arrives by a row of its own is received by the MAC like any other; where the topology engine does not work at L1 it passes unchanged to the other end (R284; 07 R255). -/
def Node.topoRow (n : Node) (p ty : Nat) (b : List Byte) : Node :=
  if !(decide (p < 4) && n.dataOn && n.linkUp p && n.mode != .drill) then n else
  match n.rxRow p b with
  | (.dropped, n) => n
  | (.good b oversize, n) =>
    if n.level = 1 ∧ !n.topoWorks then n.transit b p oversize else n.topoRx p ty b

/-- The TYPE by which a recognised frame is handled. -/
def recognisedType (h : List Byte) : Nat := if byteAt h 1 = 0x37 then 7 else topoType h

/-- A datagram to the node's own train address, port 49 320, in standard mode (R309). -/
def Node.isTopoGram (n : Node) (b : List Byte) : Bool :=
  n.on F.TOP_INAUG_STANDARD && n.position != 0 && isDatagram b && ipDst b == trainAddr n.position 0 && udpPort b == 49320

/-- A REPORT, PROPOSE or CONFIRM in a datagram of standard mode: handled as its frame is, and not relayed (R309; log entry 17). -/
def Node.topoGramRx (n : Node) (p : Nat) (b : List Byte) : Node :=
  let h := udpPayload b
  let f : TopoIn := { port := p, h := topoCut h, frame := b, gram := true }
  if !n.topoWorks then n
  else if !topoOk h || !decide (topoType h ∈ [2, 3, 4]) then n.inc F.TOP_BADFRAMES_COUNT
  else if topoType h = 2 then n.reportRx f
  else if topoType h = 3 then n.proposeRx f
  else n.confirmRx f

/-! ### Discovery (R285, R287, R308) -/

/-- Nonzero neighbour identifiers of a REPORT. -/
def reportNbrs (h : List Byte) : List Nat :=
  (([0, 1, 2, 3].map (fun k => leAt h (0x3C + 6 * k) 6)).filter (fun x => x != 0)).eraseDups

/-- Nodes reached through neighbour entries from some nodes. -/
def reach (rs : List Flood) : Nat → List Nat → List Nat
  | 0, l => l
  | k + 1, l =>
    reach rs k ((l ++ (l.map (fun s => (rs.filter (fun f => f.sender == s)).map (fun f => reportNbrs f.body))).flatten.flatten).eraseDups)

/-- The held reports are closed: every neighbour reported, and one chain (R285). -/
def closedSet (rs : List Flood) : Bool :=
  let ids := rs.map (·.sender)
  let nb := fun f : Flood => reportNbrs f.body
  rs.all (fun f => (nb f).all (fun x => decide (x ∈ ids)) && decide ((nb f).length ≤ 2)) &&
    rs.all (fun f => (nb f).all (fun x => rs.any (fun g => g.sender == x && decide (f.sender ∈ nb g)))) &&
    ((rs.map (fun f => (nb f).length)).sum + 2 == 2 * rs.length) &&
    (match rs with
     | [] => false
     | f :: _ => (reach rs rs.length [f.sender]).length == rs.length)

/-- Some held REPORT, or an own port, shows a standard node (R308). -/
def Node.standardRound (n : Node) : Bool :=
  n.seesStandard || n.inaug.reports.any (fun f => byteAt f.body 0x30 != 0 || byteAt f.body 0x3A != 0)

/-- Discovery ends: the closed set has been unchanged for 5 ms, or, in standard mode, the standard's own discovery has its result (R285, R287, R308, R309; log entry 134). -/
def Node.discoveryEnd (n : Node) : Node :=
  if !(n.inaug.openR && !n.inaug.ended && !n.inaug.proposed && (n.on F.TOP_INAUG_STANDARD || closedSet n.inaug.reports)) then n
  else if 63 < n.inaug.reports.length then n.over63.sendAbort 6
  else
    let n := { n with inaug := { n.inaug with ended := true } }
    n.put F.TOP_INAUG_STANDARD n.standardRound

/-- 25 ms have passed (R285); standard mode has the timers of IEC 61375-2-5 instead (R309). -/
def Node.discoveryTimeout (n : Node) : Node :=
  if n.inaug.openR && !n.inaug.ended && !n.inaug.proposed && !n.on F.TOP_INAUG_STANDARD then n.sendAbort 4 else n

/-! ### Agreement (R288-R295) -/

/-- Entries of the candidate. -/
def Inaug.candCount (i : Inaug) : Nat := i.cands.foldl (fun a e => max a (e.1 + 1)) 0

/-- The eight words of candidate position `p` (R289). -/
def Inaug.candWords (i : Inaug) (p : Nat) : List Nat :=
  let w := FMap.get [] i.cands (p - 1)
  let id := w.getD 0 0 % 2 ^ 48
  let body := match i.reports.find? (fun f => f.sender == id) with
    | some f => f.body
    | none => []
  fit4 w ++ [leAt body 0x10 8, leAt body 0x18 8, leAt body 0x20 8, leAt body 0x28 8]
where
  fit4 (w : List Nat) : List Nat := [w.getD 0 0, w.getD 1 0, w.getD 2 0, w.getD 3 0]

/-- DIGEST of a directory (R289). -/
def dirDigestOf (epoch count : Nat) (words : List Nat) : Nat :=
  crc32c (leBytes 2 epoch ++ leBytes 1 count ++ (words.map (leBytes 8)).flatten)

/-- PROPOSE and CONFIRM carry these 8 bytes (R277). -/
def Inaug.proposeBody (i : Inaug) : List Byte :=
  leBytes 2 i.dirEpoch ++ leBytes 1 i.dirCount ++ [0] ++ leBytes 4 i.dirDigest

/-- TOPO.AGREE phase 0 released, in a round or (log entry 38) outside one: DIGEST is computed and a PROPOSE flooded, and the held PROPOSEs are compared (R290). While a commit is scheduled the message goes and what was agreed stands (log entry 38). -/
def Node.agree0 (n : Node) (epoch : Nat) : Node :=
  let i := n.inaug
  let cnt := i.candCount
  let words := ((List.range cnt).map (fun k => i.candWords (k + 1))).flatten
  let dir : FMap Nat := (words.zipIdx).foldl (fun m x => FMap.put 0 m (8 + x.2) x.1) []
  let i := { i with dir := dir, dirCount := cnt, dirEpoch := epoch, dirDigest := dirDigestOf epoch cnt words, proposed := true }
  let h := topoHeader 3 n.ident i.round n.epoch 8 ++ i.proposeBody
  if i.sched.isSome then n.topoFlood h else
  let n := { n with inaug := { i with proposes := i.proposes ++ [Flood.mk n.ident h] } }
  let n := (if i.openR then n.phase 2 else n).topoFlood h
  match n.inaug.proposes.findSome? (fun (f : Flood) => n.proposeBad f.body) with
  | some c => n.sendAbort c
  | none => n

/-- TOPO.AGREE phase 1 released for a candidate epoch: a CONFIRM whose CT is node time plus 20 ms (R290; 04 R148). While a commit is scheduled the message goes and what was agreed stands (log entry 38). -/
def Node.agree1 (n : Node) (epoch : Nat) : Node :=
  let i := { n.inaug with dirEpoch := epoch }
  let ct := n.clock.now + 20000000 * nsU
  let h := topoHeader 4 n.ident i.round n.epoch 18 ++ i.proposeBody ++ leBytes 6 (secOf ct) ++ leBytes 4 (nsOf ct)
  if i.sched.isSome then n.topoFlood h else
  let i := { n.inaug with confirms := i.confirms ++ [Flood.mk n.ident h] }
  let n := if i.openR then ({ n with inaug := { i with confirmed := true, agreed := epoch } }).phase 3 else { n with inaug := i }
  n.topoFlood h

/-- A node of the candidate has not sent its PROPOSE (R290). -/
def Node.lacks (n : Node) (l : List Flood) : Bool :=
  (List.range n.inaug.dirCount).any (fun k => !l.any (fun f => f.sender == n.inaug.dirW (k + 1) 0 % 2 ^ 48))

/-- 20 ms after the own PROPOSE (R290). -/
def Node.proposeTimeout (n : Node) : Node :=
  if n.inaug.openR && n.inaug.proposed && !n.inaug.confirmed && n.lacks n.inaug.proposes then n.sendAbort 3 else n

/-- 15 ms after the own CONFIRM (R290). -/
def Node.confirmTimeout (n : Node) : Node :=
  if n.inaug.openR && n.inaug.confirmed && n.inaug.sched.isNone && n.lacks n.inaug.confirms then n.sendAbort 3 else n

/-- Write the agreed directory into the shadow bank of table 8 (R289, R295). -/
def Node.writeDirectory (n : Node) : Node :=
  match n.tab 8 with
  | none => n
  | some d =>
    let i := n.inaug
    let n := (List.range 64).foldl (fun a p =>
      (List.range 8).foldl (fun a w =>
        let v := if p = 0 then (if w = 0 then i.dirEpoch + 65536 * i.dirCount else if w = 1 then i.dirDigest else 0)
          else i.dirW p w
        a.setWord (d.dataW true p + w) v) a) n
    n.unpoison ((List.range 512).map (fun k => d.dataW true 0 + k))

/-- The held directory is written once the grace interval has ended (R295). -/
def Node.directoryWrite (n : Node) : Node :=
  if n.inaug.dirHeld && !n.inGrace then
    { n with inaug := { n.inaug with dirHeld := false } }.writeDirectory
  else n

/-- The agreement checkpoint (12 R428). -/
def Node.agreement (n : Node) (c : Sched) : Agree :=
  let i := n.inaug
  let p := n.ownEntry i
  { epoch := c.epoch, tcommit := c.time, digest := i.dirDigest, count := i.dirCount, pos := p,
    orient := if p = 0 then 0 else bitsOf (i.dirW p 0) 60 60, dir := i.dir, tables := n.shadowCells true }

/-- TIM cycles from node time to `t`, at 4 ns each (R292). -/
def Node.cyclesTo (n : Node) (t : Nat) : Nat := (t - n.clock.now) / (4 * nsU)

/-- TOPO.COMMIT released: the commit is scheduled in place of one not yet reached, deferred past a grace interval by 20 ms, the directory is written or held, and the agreement checkpoint is streamed (R292, R293, R295; 12 R428). -/
def Node.scheduleCommit (n : Node) (epoch sec ns : Nat) : Node :=
  let i := n.inaug
  let t := timeOf sec ns
  let t := match i.graceEnd with
    | some g => max t (n.clock.now + (g - n.clock.cycles) * 4 * nsU + 20000000 * nsU)
    | none => t
  let c : Sched := { epoch := epoch, time := t, count := n.clock.cycles + n.cyclesTo t }
  let n := { n with inaug := { i with sched := some c, dirHeld := i.proposed } }
  let n := n.wrs [(F.TOP_COMMIT_SLO_SEC_LO, secOf t), (F.TOP_COMMIT_SHI_SEC_HI, secOf t / 2 ^ 32), (F.TOP_COMMIT_NS_NS, nsOf t)]
  let n := (n.phase 4).directoryWrite
  if n.streams then n.sendAgree (n.agreement c) else n

/-- TOPO.CANCEL released: a commit not yet reached is withdrawn (04 R148). -/
def Node.cancelCommit (n : Node) : Node :=
  if n.inaug.sched.isSome then
    let n := n.agreeCancel
    let n := { n with inaug := { n.inaug with sched := none, dirHeld := false } }
    if n.inaug.openR then n.phase 3 else n.idlePhase
  else n

/-- TOPO.NEWEP released (R282, R311). -/
def Node.newEpoch (n : Node) : Node :=
  if n.inaug.openR ∨ n.inaug.sched.isSome then n.inc F.TOP_RENUM_NEWEP_LOST else n.startRound

/-- TOPO.CAND released (R288). -/
def Node.candWrite (n : Node) (idx : Nat) (ws : List Nat) : Node :=
  { n with inaug := { n.inaug with cands := FMap.put [] n.inaug.cands idx ws } }

/-! ### The commit and the grace interval (R296-R307) -/

/-- The directory words of the active bank of table 8, as the frame unit holds them (R296, 12 R435). -/
def Node.readDirectory (n : Node) (count : Nat) : FMap Nat :=
  (List.range count).foldl (fun m p => (List.range 8).foldl (fun m w =>
    FMap.put 0 m (8 * (p + 1) + w) (n.tabW 8 (p + 1) w)) m) []

/-- The directory in force at a commit: the agreed one, or, where the program committed without agreement, what the bank now active holds (log entry 38). -/
def Node.directoryNow (n : Node) (epoch : Nat) : Inaug :=
  let i := n.inaug
  if i.proposed then i else
  let cnt := bitsOf (n.tabW 8 0 0) 21 16
  { i with dir := n.readDirectory cnt, dirCount := cnt, dirEpoch := epoch, dirDigest := n.tabW 8 0 1 % 2 ^ 32 }

/-- Record the neighbours the new directory gives for each end, release barred ports inside it and clear STALE (R281, R287, R302). -/
def Node.recordNeighbours (n : Node) (pos orient : Nat) : Node :=
  let i := n.inaug
  [0, 1, 2, 3].foldl (fun a p =>
    let q := if (endOf p = 0) = (orient = 0) then pos - 1 else pos + 1
    let t := a.topPort p
    let have' := decide (pos ≠ 0) && decide (1 ≤ q) && decide (q ≤ i.dirCount)
    let t := if have' then
        { t with recSet := true, recNode := i.dirW q 0 % 2 ^ 48, recPos := q,
                 recVid := leBytes 8 (i.dirW q 6) ++ leBytes 8 (i.dirW q 7) }
      else { t with recSet := false, recNode := 0, recPos := 0, recVid := [] }
    let inside := have' && a.nbrHere p && slice t.hello 0x20 16 == t.recVid
    let bar := bitOf (a.rd F.TOP_INAUG_BARRED) p && !inside
    (a.setTopPort p { t with stale := bar }).wr F.TOP_INAUG_BARRED (setBit (a.rd F.TOP_INAUG_BARRED) p bar)) n

/-- Queue a MARK behind what each native HITLESS port has already edited (R297). -/
def Node.queueMarks (n : Node) : Node :=
  [0, 1, 2, 3].foldl (fun a p =>
    if a.hitless p then
      let h := topoHeader 6 a.ident a.inaug.round a.epoch 4 ++ leBytes 2 a.epoch ++ [0, 0]
      let a := a.setPort p { a.port p with mark := some (a.topoEth p h) }
      if (a.port p).tx.isNone then a.sendMark p else a
    else a) n

/-- Fields with reset code EP take their reset values (R38, 00 R15). -/
def Node.epReset (n : Node) : Node := { n with regs := keepRegs n.regs (fun _ c => c != RCode.EP) }

/-- T_commit (R296); a change noticed too late to cancel it starts a round now (R294). -/
def Node.commit (n : Node) : Node :=
  match n.inaug.sched with
  | none => n
  | some c =>
    let old := n.epoch
    let was := n.inaug.openR
    let late := n.inaug.late
    let n := [8, 9, 10, 11].foldl (fun a t => a.swapBanks t) n
    let i := n.directoryNow c.epoch
    let pos := n.ownEntry i
    let orient := if pos = 0 then 0 else bitsOf (i.dirW pos 0) 60 60
    let n := n.epReset
    let i := { i with
      openR := false, sched := none, proposed := false, confirmed := false, ended := false, waiting := false,
      proposes := [], confirms := [], cands := [], oldDigest := n.topoCnt, late := false, takenOver := false,
      lastSet := [], agreed := 0, l1Hold := false, lostL2 := false, dirHeld := false, lastCommit := n.clock.fresh,
      graceEnd := some (n.clock.cycles + 12500000) }
    let n := { n with inaug := i, epochUnread := true }
    let n := n.wrs [(F.TOP_EPOCH_PREV, old), (F.TOP_EPOCH_EPOCH, c.epoch), (F.TOP_DIGEST_DIGEST, i.dirDigest),
      (F.TOP_INAUG_COUNT, i.dirCount), (F.TOP_INAUG_POSITION, pos), (F.TOP_INAUG_ORIENT, orient), (F.TOP_INAUG_FAILS, 0),
      (F.TOP_RENUM_LAST_MS, if was then min 65535 ((n.clock.fresh - i.start) / 1000) else n.rd F.TOP_RENUM_LAST_MS)]
    let n := (n.inc F.TOP_RENUM_COMMITS).phase 5
    let n := n.recordNeighbours pos orient
    let n := [0, 1, 2, 3].foldl (fun a p => a.setTopPort p { a.topPort p with marked := false }) n
    let n := n.queueMarks
    let n := (List.range 19).foldl (fun a e =>
      a.setEng e { (a.eng e).fireKind 5 none with prevEpoch := old }) n
    if late then n.startRound else n

/-- Launches held with an old stamp are discarded at the end of the grace interval (R311). -/
def Node.dropOldLaunches (n : Node) : Node :=
  (List.range 20).foldl (fun a p =>
    let l := FMap.get [] a.fab.launches p
    let old := fun (m : Node) (c : Copy) => c.stamp != m.epoch && bitsOf (m.tabW 1 c.stream 0) 59 58 == 1
    let gone := l.filter (old a)
    let keep := l.filter (fun c => !old a c)
    let a := { a with fab := { a.fab with launches := FMap.put [] a.fab.launches p keep } }
    gone.foldl (fun a c =>
      ((a.inc F.TOP_GRACE_EXPIRED).markDesc c.fid (fun d => { d with inv := true })).dropCopy c) a) n

/-- The grace interval ends (R303). -/
def Node.graceOver (n : Node) : Node :=
  if !n.inGrace then n else
  let n := { n with inaug := { n.inaug with graceEnd := none } }
  let n := n.tabHw 10 0 0 (n.tabW 10 0 0 - (if bitOf (n.tabW 10 0 0) 16 then 65536 else 0))
  let n := if n.rd F.TOP_INAUG_PHASE = 5 then n.phase 0 else n
  n.dropOldLaunches

/-- No MARK within 2 ms of T_commit (R298, R307). -/
def Node.markMissing (n : Node) (p : Nat) : Node :=
  let t := n.topPort p
  if n.inGrace && n.hitless p && !t.marked && t.rxEpoch != n.epoch then
    n.setTopPort p { t with rxEpoch := n.epoch, rxPrev := t.rxEpoch, stale := true } else n

/-- A neighbour has shown another epoch for 3 ms (R282, R307); one that the scheduled commit takes in is no further change. -/
def Node.epochDiffers (n : Node) (p : Nat) : Node :=
  let t := n.topPort p
  let e := leAt t.hello 12 2
  if !(n.topoWorks && t.valid && e != n.epoch) then n else
  let n := n.missCheck p e
  if n.epoch = e ∨ n.inSched (topoSender t.hello) = true then n else
  let n := if n.inGrace then n.setTopPort p { n.topPort p with stale := true } else n
  n.changed 4

/-- The wait after an abort, or of HOLD_FAIL, ends (R287, R291). -/
def Node.roundRetry (n : Node) : Node := if n.inaug.waiting && !n.inaug.openR then n.startRound else n

/-! ### Meanings -/

/-- HELLO timer (R278). -/
def execHelloTimer (s : State) : Host.Outcome State Fault Refusal :=
  s.to ([0, 1, 2, 3].foldl (fun a p => a.sendHello p) s.node)

/-- HELLO arrives; `bytes` is the whole frame from DA on (R282). -/
def execHello (port : Nat) (bytes : List Byte) (s : State) : Host.Outcome State Fault Refusal :=
  s.to (s.node.topoRow port 1 bytes)

/-- No HELLO for 3 ms (R278). -/
def execNeighbourTimeout (port : Nat) (s : State) : Host.Outcome State Fault Refusal :=
  s.to (if port < 4 then s.node.nbrLost port else s.node)

/-- Another epoch for 3 ms (R282). -/
def execEpochDifferenceTimeout (port : Nat) (s : State) : Host.Outcome State Fault Refusal :=
  s.to (if port < 4 then s.node.epochDiffers port else s.node)

/-- REPORT arrives (R285). -/
def execReport (port : Nat) (bytes : List Byte) (s : State) : Host.Outcome State Fault Refusal :=
  s.to (s.node.topoRow port 2 bytes)

/-- Discovery ends (R285). -/
def execDiscoveryEnd (s : State) : Host.Outcome State Fault Refusal := s.to s.node.discoveryEnd

/-- Discovery times out (R285). -/
def execDiscoveryTimeout (s : State) : Host.Outcome State Fault Refusal := s.to s.node.discoveryTimeout

/-- PROPOSE arrives (R290). -/
def execPropose (port : Nat) (bytes : List Byte) (s : State) : Host.Outcome State Fault Refusal :=
  s.to (s.node.topoRow port 3 bytes)

/-- CONFIRM arrives (R292). -/
def execConfirmRound (port : Nat) (bytes : List Byte) (s : State) : Host.Outcome State Fault Refusal :=
  s.to (s.node.topoRow port 4 bytes)

/-- PROPOSEs are missing (R290). -/
def execProposeTimeout (s : State) : Host.Outcome State Fault Refusal := s.to s.node.proposeTimeout

/-- CONFIRMs are missing (R290). -/
def execConfirmTimeout (s : State) : Host.Outcome State Fault Refusal := s.to s.node.confirmTimeout

/-- ABORT arrives (R291). -/
def execAbortRound (port : Nat) (bytes : List Byte) (s : State) : Host.Outcome State Fault Refusal :=
  s.to (s.node.topoRow port 5 bytes)

/-- Discovery starts again (R291). -/
def execRoundRetry (s : State) : Host.Outcome State Fault Refusal := s.to s.node.roundRetry

/-- MARK arrives (R298). -/
def execMark (port : Nat) (bytes : List Byte) (s : State) : Host.Outcome State Fault Refusal :=
  s.to (s.node.topoRow port 6 bytes)

/-- MARK is missing (R307). -/
def execMarkTimeout (port : Nat) (s : State) : Host.Outcome State Fault Refusal :=
  s.to (if port < 4 then s.node.markMissing port else s.node)

/-- The held directory is written (R295). -/
def execDirectoryWrite (s : State) : Host.Outcome State Fault Refusal := s.to s.node.directoryWrite

/-- The grace interval ends (R303). -/
def execGraceEnd (s : State) : Host.Outcome State Fault Refusal := s.to s.node.graceOver

/-- A TN7 identifies itself (R310). -/
def execTn7Ident (port : Nat) (bytes : List Byte) (s : State) : Host.Outcome State Fault Refusal :=
  s.to (s.node.topoRow port 7 bytes)

/-- 3 s without an identification frame (R310). -/
def execTn7RecordExpiry (port : Nat) (s : State) : Host.Outcome State Fault Refusal :=
  s.to (if port < 4 then
    (s.node.setTopPort port { s.node.topPort port with tn7 := false }).refreshReport else s.node)

/-- A TTDP frame: discarded where it fails the standard's checks, else to queue 0 (R275, R309; 13 R467 kind 1). -/
def Node.ttdpRx (n : Node) (p : Nat) (ok : Bool) (b : List Byte) : Node :=
  if !(n.topoWorks && decide (p < 4) && n.linkUp p) then n
  else if ok then n.topoDeliver b p else (n.inc F.TOP_BADFRAMES_COUNT).pviol 1 p

/-- A TTDP frame by its own row: through the MAC, and unchanged to the other end where the topology engine does not work at L1 (R284). -/
def Node.ttdpRow (n : Node) (p : Nat) (ok : Bool) (b : List Byte) : Node :=
  if !(decide (p < 4) && n.dataOn && n.linkUp p && n.mode != .drill) then n else
  match n.rxRow p b with
  | (.dropped, n) => n
  | (.good b oversize, n) => if n.level = 1 ∧ !n.topoWorks then n.transit b p oversize else n.ttdpRx p ok b

/-- A TTDP frame arrives (R309). -/
def execTtdpFrame (port : Nat) (ok : Bool) (bytes : List Byte) (s : State) : Host.Outcome State Fault Refusal :=
  s.to (s.node.ttdpRow port ok bytes)

/-- A TTDP timer expires in standard mode: the frame sent has the content of IEC 61375-2-5, a free value (R309, log entry 17). -/
def Node.ttdpSend (n : Node) (p : Nat) : Node :=
  if n.topoWorks && n.on F.TOP_INAUG_STANDARD && decide (p < 4) && n.canTx p then
    let b := Config.freeBytes n.freeN
    let n := { n with freeN := n.freeN + 1, inaug := { n.inaug with ttdpCnt := n.inaug.ttdpCnt + 1 } }
    n.ownSend p (.bytes b)
  else n

/-- A TTDP timer expires (R309). -/
def execTtdpTimer (port : Nat) (s : State) : Host.Outcome State Fault Refusal := s.to (s.node.ttdpSend port)

end Sys2Proof.Machine
end

