-- ==== Sys2Proof/Machine/Bridge.lean ====
section
/-! DEFINITION. The bridge as initiator (11 R377-R400): windows, messages, tags, posted writes, the error log, locked sequences and prefetch. -/

namespace Sys2Proof.Machine

open Sys2Proof

/-! ### Cause codes and message types (R383, R384) -/

def bcOk : Nat := 0
def bcTimeout : Nat := 1
def bcStale : Nat := 2
def bcEpoch : Nat := 3
def bcProt : Nat := 4
def bcNotOwner : Nat := 5
def bcBusErr : Nat := 6
def bcLockBroken : Nat := 7
def bcBusy : Nat := 8
def bcNoRoute : Nat := 9
def bcLost : Nat := 10
def bcBadReq : Nat := 11

def btRead : Nat := 1
def btWrite : Nat := 2
def btLockRead : Nat := 3
def btWriteUnlock : Nat := 4
def btUnlock : Nat := 5
def btCompletion : Nat := 8
def btWriteErr : Nat := 9
def btLockBroken : Nat := 10

/-- A bridge message (R383). -/
structure BMsg where
  ty : Nat := 0
  flags : Nat := 0
  epoch : Nat := 0
  src : Nat := 0
  dst : Nat := 0
  tag : Nat := 0
  seq : Nat := 0
  addr : Nat := 0
  win : Nat := 0
  cause : Nat := 0
  data : List Byte := []
deriving DecidableEq, Repr

/-- The payload of a message. -/
def BMsg.bytes (m : BMsg) : List Byte :=
  leBytes 1 m.ty ++ leBytes 1 m.flags ++ leBytes 2 m.epoch ++ leBytes 6 m.src ++ leBytes 6 m.dst ++ leBytes 2 m.tag ++
    leBytes 2 m.seq ++ leBytes 4 m.addr ++ leBytes 1 m.win ++ leBytes 1 m.cause ++ leBytes 2 m.data.length ++ zeros 4 ++ m.data

/-- The fields of a payload, as far as they are there. -/
def bmsgOf (b : List Byte) : BMsg :=
  { ty := byteAt b 0, flags := byteAt b 1, epoch := leAt b 2 2, src := leAt b 4 6, dst := leAt b 10 6, tag := leAt b 16 2,
    seq := leAt b 18 2, addr := leAt b 20 4, win := byteAt b 24, cause := byteAt b 25, data := slice b 32 (leAt b 26 2) }

/-- Data bytes a message of its TYPE carries. -/
def bmsgLen (m : BMsg) (len : Nat) : Bool :=
  if m.ty = btWrite ∨ m.ty = btWriteUnlock then len == 4
  else if m.ty = btCompletion then len == 0 || len == 4 || len == 64
  else len == 0

/-- The message is well formed: fields in their range and zero where R383 says zero. -/
def bmsgOk (b : List Byte) : Bool :=
  let m := bmsgOf b
  decide (32 ≤ b.length) && decide (m.ty ∈ [1, 2, 3, 4, 5, 8, 9, 10]) && decide (m.flags < 8) && leAt b 28 4 == 0 &&
    bmsgLen m (leAt b 26 2) && decide (32 + leAt b 26 2 ≤ b.length) && decide (m.win < 64) && decide (m.cause < 12) &&
    m.addr % (if bitOf m.flags 1 && m.ty == btRead then 64 else 4) == 0

/-! ### Sending (R382) -/

/-- The frame of a message between two positions. -/
def Node.bridgeFrame (n : Node) (pos : Nat) (p : List Byte) : List Byte := n.trainDatagram pos 49321 p

/-- Close a message through P22 with context `BRG.CTRL.CTX`, stamped with the current epoch. -/
def Node.bridgeSend (n : Node) (pos : Nat) (m : BMsg) : Node := n.closeP22 (n.bridgeFrame pos m.bytes)

/-! ### The directory (08 R289) -/

/-- Position of a node identifier in the current directory; 0 where it is not in it. -/
def Node.dirPos (n : Node) (ident : Nat) : Nat :=
  if n.epoch = 0 then 0 else
  (((List.range (n.rd F.TOP_INAUG_COUNT)).map (· + 1)).find? (fun p => n.dirNode p == ident)).getD 0

/-- The route of table 9 for a position is valid. -/
def Node.routeOk (n : Node) (p : Nat) : Bool := p != 0 && bitOf (n.tabW 9 p 0) 63

/-- The bridge serves: enabled, at a level that gives the service (R405; 01 R39; log entry 36). -/
def Node.bridgeOn (n : Node) : Bool := n.on F.BRG_CTRL_EN && n.serves

/-- Far node of a window: its position and identifier, or the cause of a local refusal; at epoch 0 that is EPOCH for every window, whether the bridge serves or not (R380, R400; 01 R36). -/
def Node.winTarget (n : Node) (w : Nat) : (Nat × Nat) ⊕ Nat :=
  if n.epoch = 0 then .inr bcEpoch
  else if !n.bridgeOn then .inr bcNoRoute
  else if !n.on (F.BRG_WIN_CTRL_MODE w) then
    let p := n.rd (F.BRG_WIN_TARGET_POS w)
    if n.rd (F.BRG_WIN_TARGET_EPOCH w) ≠ n.epoch then .inr bcEpoch
    else if !n.routeOk p then .inr bcNoRoute
    else .inl (p, n.dirNode p)
  else
    let id := n.rd (F.BRG_WIN_NODE_HI_NODE_HI w) * 2 ^ 32 + n.rd (F.BRG_WIN_NODE_LO_NODE_LO w)
    let p := n.dirPos id
    if !n.routeOk p then .inr bcNoRoute else .inl (p, id)

/-- Far Ibsum address of offset `x` in window `w` (R377). -/
def Node.farAddr (n : Node) (w x : Nat) : Nat := n.rd (F.BRG_WIN_CTRL_BASE w) * 0x2000000 + x

/-! ### Records (R381, R389, R392-R394) -/

/-- Record a failed read of an identity. -/
def Node.readFail (n : Node) (i w cause : Nat) : Node :=
  if 3 ≤ i then n else
  let n := n.inc (F.BRG_RDSTAT_FAILS i)
  if n.on (F.BRG_RDSTAT_VALID i) then n
  else n.wrs [(F.BRG_RDSTAT_VALID i, 1), (F.BRG_RDSTAT_CAUSE i, cause), (F.BRG_RDSTAT_WIN i, w)]

/-- Fill the lowest free entry of the error log, or count the error lost (R393). -/
def Node.errLog (n : Node) (w pos addr epoch seq cause : Nat) : Node :=
  match (List.range 16).find? (fun k => !n.on (F.BRG_ERR_CAUSE_VALID k)) with
  | none => (n.put F.BRG_ERRLOG_OVERFLOW true).inc F.BRG_ERRLOG_LOST
  | some k => n.wrs [(F.BRG_ERR_CAUSE_VALID k, 1), (F.BRG_ERR_CAUSE_CAUSE k, cause), (F.BRG_ERR_CAUSE_WIN k, w),
      (F.BRG_ERR_CAUSE_FARPOS k, pos), (F.BRG_ERR_ADDR_ADDR k, addr), (F.BRG_ERR_SEQ_EPOCH k, epoch), (F.BRG_ERR_SEQ_SEQ k, seq)]

/-! ### Prefetched lines (R397, R398) -/

/-- Discard lines, counting those with a word not yet read. -/
def Node.dropLines (n : Node) (f : Line → Bool) : Node :=
  let gone := n.brg.lines.filter f
  let n := { n with brg := { n.brg with lines := n.brg.lines.filter (fun l => !f l) } }
  gone.foldl (fun a l =>
    if l.readMask = 0xFFFF then a
    else (a.inc F.BRG_PF_DISCARD_COUNT).wrs [(F.BRG_PF_LAST_WIN, l.win), (F.BRG_PF_LAST_LINE, l.addr / 64)]) n

/-- A read of a word of a line held of the window's far node; the line becomes the most recently used. -/
def Node.lineRead (n : Node) (w node addr : Nat) : Option (Nat × Node) :=
  let base := addr / 64 * 64
  match n.brg.lines.find? (fun l => l.win == w && l.node == node && l.addr == base) with
  | none => none
  | some l =>
    let k := (addr - base) / 4
    let l' := { l with readMask := setBit l.readMask k true }
    some (leAt l.data (4 * k) 4, { n with brg := { n.brg with lines := n.brg.lines.erase l ++ [l'] } })

/-- Hold a line that a fill brought, of which one word is read at once; the least recently used line makes room (R398). -/
def Node.lineStore (n : Node) (w node addr : Nat) (data : List Byte) : Node :=
  let base := addr / 64 * 64
  let n := if 16 ≤ n.brg.lines.length then
      (match n.brg.lines with
       | [] => n
       | l :: _ => n.dropLines (fun x => x == l))
    else n
  let l : Line := { win := w, node := node, addr := base, data := data, readMask := 2 ^ ((addr - base) / 4) }
  { n with brg := { n.brg with lines := n.brg.lines ++ [l] } }

/-! ### Tags (R387, R388) -/

/-- Kinds of operation a tag carries. -/
def tkRead : Nat := 0
def tkLine : Nat := 1
def tkLock : Nat := 2
def tkWriteUnlock : Nat := 3
def tkUnlock : Nat := 4

/-- Free tags. -/
def Node.freeTags (n : Node) : List Nat := (List.range 1024).filter (fun k => !(FMap.get {} n.brg.tags k).busy)

/-- Take a free tag for an operation and advance its generation; the manual does not say which. -/
def Node.takeTag (n : Node) (t : Tag) : Option (Nat × Node) :=
  let fr := n.freeTags
  if fr.isEmpty then none else
  let (v, n) := n.free
  let k := fr.getD (v % fr.length) 0
  let g := ((FMap.get {} n.brg.tags k).gen + 1) % 64
  some (k + 1024 * g, { n with brg := { n.brg with tags := FMap.put {} n.brg.tags k { t with gen := g, busy := true } } })

/-- Give a tag back; its generation is kept. -/
def Node.giveTag (n : Node) (k : Nat) : Node :=
  let t := FMap.get {} n.brg.tags k
  { n with brg := { n.brg with tags := FMap.put {} n.brg.tags k { gen := t.gen } } }

/-- The message of an operation on its far node (R383, R390, R395). -/
def Node.tagMsg (n : Node) (t : Tag) (tag dst : Nat) : BMsg :=
  let lseq := decide (t.win ∈ n.brg.wrote) && (t.kind == tkRead || t.kind == tkLine)
  { ty := if t.kind = tkLock then btLockRead else if t.kind = tkWriteUnlock then btWriteUnlock
          else if t.kind = tkUnlock then btUnlock else btRead,
    flags := n.rd (F.BRG_WIN_CTRL_MGR t.win) + (if t.kind = tkLine then 2 else 0) + (if lseq then 4 else 0),
    epoch := n.epoch, src := n.ident, dst := dst, tag := tag,
    seq := if lseq then (n.rd (F.BRG_WIN_SEQ_NEXT t.win) + 65535) % 65536 else 0,
    addr := if t.kind = tkLine then t.addr / 64 * 64 else t.addr, win := t.win,
    data := if t.kind = tkWriteUnlock then leBytes 4 (n.rd F.BRG_LOCK_WDATA_DATA) else [] }

/-- End of an operation: what the master or the lock registers see (R389, R395, R396). -/
def Node.tagDone (n : Node) (t : Tag) (cause : Nat) (data : List Byte) : Node :=
  if t.kind = tkRead ∨ t.kind = tkLine then
    if cause = bcOk then
      if t.kind = tkLine then
        (n.lineStore t.win t.node t.addr data).emit (.resp t.master true (leAt data (t.addr % 64) 4))
      else n.emit (.resp t.master true (leAt data 0 4))
    else (n.readFail t.master.id t.win cause).emit (.resp t.master false 0xFFFFFFFF)
  else
    let n := n.wrs [(F.BRG_LOCK_CTRL_RESULT, cause), (F.BRG_LOCK_CTRL_PENDING, 0)]
    if t.kind = tkLock then
      if cause = bcOk then n.wrs [(F.BRG_LOCK_CTRL_OPEN, 1), (F.BRG_LOCK_RDATA_DATA, leAt data 0 4)] else n
    else n.put F.BRG_LOCK_CTRL_OPEN false

/-- A local refusal of an operation (R381). -/
def Node.tagRefused (n : Node) (t : Tag) (cause : Nat) : Node := (n.inc (F.BRG_WIN_REFUSED_COUNT t.win)).tagDone t cause []

/-- A write to a far word drops the line that holds it (R398). -/
def Node.dropLineAt (n : Node) (node far : Nat) : Node := n.dropLines (fun l => l.node == node && l.addr == far / 64 * 64)

/-- Issue an operation: the checks of R378 and R380, then a tag and the message; without a free tag it waits (R387). -/
def Node.tagIssue (n : Node) (t : Tag) : Node :=
  if !n.on (F.BRG_WIN_CTRL_EN t.win) ∨ 0x80000000 ≤ t.addr then n.tagRefused t bcBusErr else
  match n.winTarget t.win with
  | .inr c => n.tagRefused t c
  | .inl (pos, id) =>
    match n.takeTag { t with epoch := n.epoch, node := id } with
    | none => { n with brg := { n.brg with waiting := n.brg.waiting ++ [t] } }
    | some (tag, n) => (if t.kind = tkWriteUnlock then n.dropLineAt id t.addr else n).bridgeSend pos (n.tagMsg t tag id)

/-- A read through a window, protection passed: a refusal of R380 stands whatever lines are held (R380, R387, R397, R400). -/
def Node.winRead (n : Node) (m : Master) (a : Nat) : Node :=
  let w := (a - 0x80000000) / 0x2000000
  let far := n.farAddr w (a % 0x2000000)
  let pf := n.on (F.BRG_WIN_CTRL_PF w) && decide (0x40000000 ≤ far) && decide (far < 0x80000000)
  let t : Tag := { kind := if pf then tkLine else tkRead, win := w, addr := far, master := m }
  if !n.on (F.BRG_WIN_CTRL_EN w) ∨ 0x80000000 ≤ far then n.tagRefused t bcBusErr else
  match n.winTarget w with
  | .inr c => n.tagRefused t c
  | .inl (_, id) =>
    match (if pf then n.lineRead w id far else none) with
    | some (v, n) => n.emit (.resp m true v)
    | none => n.tagIssue t

/-- A write refused locally (R381): a log entry, and no sequence number was given. -/
def Node.writeRefused (n : Node) (m : Master) (w far cause : Nat) : Node :=
  let (v, n) := n.free
  let pos := if n.on (F.BRG_WIN_CTRL_MODE w) then
      n.dirPos (n.rd (F.BRG_WIN_NODE_HI_NODE_HI w) * 2 ^ 32 + n.rd (F.BRG_WIN_NODE_LO_NODE_LO w))
    else n.rd (F.BRG_WIN_TARGET_POS w)
  ((n.inc (F.BRG_WIN_REFUSED_COUNT w)).errLog w pos far n.epoch (v % 65536) cause).emit (.resp m false 0)

/-- A write through a window, protection and ownership passed (R391, R394, R398). -/
def Node.winWrite (n : Node) (m : Master) (a v : Nat) : Node :=
  let w := (a - 0x80000000) / 0x2000000
  let far := n.farAddr w (a % 0x2000000)
  if !n.on (F.BRG_WIN_CTRL_EN w) ∨ 0x80000000 ≤ far then n.writeRefused m w far bcBusErr else
  match n.winTarget w with
  | .inr c => n.writeRefused m w far c
  | .inl (pos, id) =>
    if n.on (F.BRG_WIN_CTRL_FENCE w) then (n.inc (F.BRG_WIN_FENCE_DROPS_COUNT w)).emit (.resp m true 0) else
    let s := n.rd (F.BRG_WIN_SEQ_NEXT w)
    let n := n.dropLineAt id far
    let n := (n.bump (F.BRG_WIN_SEQ_NEXT w)).emit (.resp m true 0)
    let n := { n with brg := { n.brg with wrote := if w ∈ n.brg.wrote then n.brg.wrote else w :: n.brg.wrote } }
    n.bridgeSend pos { ty := btWrite, flags := n.rd (F.BRG_WIN_CTRL_MGR w), epoch := n.epoch, src := n.ident, dst := id,
                       seq := s, addr := far, win := w, data := leBytes 4 v }

/-! ### Locked sequences (R395) -/

/-- A command in `BRG.LOCK_CTRL`; UNLOCK and WRITE_UNLOCK without an open sequence find it broken (R395; log entry 138). -/
def Node.lockCmd (n : Node) (m : Master) (code : Nat) : Node :=
  let w := n.rd F.BRG_LOCK_CTRL_WIN
  let opn := n.on F.BRG_LOCK_CTRL_OPEN
  if code < 1 ∨ 3 < code then n
  else if code = 1 ∧ opn then n.wr F.BRG_LOCK_CTRL_RESULT bcBusy
  else if code ≠ 1 ∧ !opn then n.wr F.BRG_LOCK_CTRL_RESULT bcLockBroken
  else
    let far := if code = 1 then n.farAddr w (4 * n.rd F.BRG_LOCK_OFFSET_OFFSET) else n.brg.lockAddr
    let w := if code = 1 then w else n.brg.lockWin.getD w
    let n := { n with brg := { n.brg with lockAddr := far, lockWin := some w } }
    let n := n.wr F.BRG_LOCK_CTRL_PENDING 1
    n.tagIssue { kind := code + 1, win := w, addr := far, master := m }

/-! ### Answers -/

/-- A malformed message or one from nowhere (R386; 13 R467 kind 9). -/
def Node.bridgeBad (n : Node) (p : Nat) : Node := (n.inc F.BRG_IN_BAD_COUNT).pviol 9 p

/-- A COMPLETION (R388, R389; 13 R467 kind 10). -/
def Node.completionRx (n : Node) (p : Nat) (m : BMsg) : Node :=
  let k := m.tag % 1024
  let t := FMap.get {} n.brg.tags k
  if !t.busy ∨ t.gen ≠ m.tag / 1024 ∨ m.src ≠ n.ident then (n.inc F.BRG_IN_LATE_COUNT).pviol 10 p
  else
    let want := if t.kind = tkLine then 64 else if t.kind = tkRead ∨ t.kind = tkLock then 4 else 0
    if m.cause = bcOk ∧ m.data.length ≠ want then n.bridgeBad p
    else (n.giveTag k).tagDone t m.cause m.data

/-- A WRITE_ERR: log entry, fence, MSI-X vector 35 (R392). -/
def Node.writeErrRx (n : Node) (p : Nat) (m : BMsg) : Node :=
  if m.src ≠ n.ident then (n.inc F.BRG_IN_LATE_COUNT).pviol 10 p
  else ((n.errLog m.win (n.dirPos m.dst) m.addr m.epoch m.seq m.cause).put (F.BRG_WIN_CTRL_FENCE m.win) true).msi 35

/-- A LOCK_BROKEN: OPEN is cleared, and a step that awaits its answer ends with it (R396). -/
def Node.lockBrokenRx (n : Node) (m : BMsg) : Node :=
  let k := m.tag % 1024
  let t := FMap.get {} n.brg.tags k
  if m.src ≠ n.ident then n
  else if t.busy && t.gen == m.tag / 1024 && decide (tkLock ≤ t.kind) then
    ((n.giveTag k).tagDone t bcLockBroken []).put F.BRG_LOCK_CTRL_OPEN false
  else if n.on F.BRG_LOCK_CTRL_OPEN then n.wrs [(F.BRG_LOCK_CTRL_OPEN, 0), (F.BRG_LOCK_CTRL_RESULT, bcLockBroken)]
  else n.inc F.BRG_IN_LATE_COUNT

/-- The read timeout of a tag passes (R388). -/
def Node.tagTimeout (n : Node) (k : Nat) : Node :=
  let t := FMap.get {} n.brg.tags k
  if t.busy then (n.giveTag k).tagDone t bcTimeout [] else n

/-- A request that waits for a tag gets one (R387). -/
def Node.tagWaitEnd (n : Node) : Node :=
  match n.brg.waiting with
  | [] => n
  | t :: r => if n.freeTags.isEmpty then n else { n with brg := { n.brg with waiting := r } }.tagIssue t

/-- The initiator's commit: operations in flight complete STALE with their generation advanced, an open locked sequence ends STALE, lines are discarded (R398, R400). -/
def Node.bridgeCommit (n : Node) : Node :=
  let busy := n.brg.tags.filter (fun t => t.2.busy)
  let n := busy.foldl (fun a x =>
    let t := x.2
    ({ a with brg := { a.brg with tags := FMap.put {} a.brg.tags x.1 { gen := (t.gen + 1) % 64 } } }).tagDone t bcStale []) n
  let n := if n.on F.BRG_LOCK_CTRL_OPEN then n.wrs [(F.BRG_LOCK_CTRL_OPEN, 0), (F.BRG_LOCK_CTRL_RESULT, bcStale)] else n
  n.dropLines (fun _ => true)

/-! ### Meanings -/

/-- A waiting request gets a tag (R387). -/
def execTagWaitEnd (s : State) : Host.Outcome State Fault Refusal := s.to s.node.tagWaitEnd

/-- A read times out (R388). -/
def execReadTimeout (tag : Nat) (s : State) : Host.Outcome State Fault Refusal :=
  s.to (if tag < 1024 then s.node.tagTimeout tag else s.node)

/-- 1 ms has passed without a read of a line (R398). -/
def execPrefetchLineExpiry (win line : Nat) (s : State) : Host.Outcome State Fault Refusal :=
  s.to (s.node.dropLines (fun l => l.win == win && l.addr == 64 * line))

/-- TIMEOUT of a subscribed dataset passes without an acceptance (R403). -/
def Node.datasetTimeout (n : Node) (d : Nat) : Node :=
  let ds := n.dataset d
  if ds.en && ds.sub && !n.on (F.BRG_DS_STAT_TIMED_OUT d) then
    n.wrs [(F.BRG_DS_STAT_TIMED_OUT d, 1), (F.BRG_DS_STAT_TOUT_EV d, 1)]
  else n

/-- A dataset times out (R403). -/
def execDatasetTimeout (d : Nat) (s : State) : Host.Outcome State Fault Refusal := s.to (s.node.datasetTimeout d)

end Sys2Proof.Machine
end

