-- ==== Sys2Proof/Machine/Can.lean ====
section
/-! DEFINITION. CAN channels 0 to 7 and the receive entries CAN and MVB share (10 R346-R367, R375). -/

namespace Sys2Proof.Machine

open Sys2Proof

/-! ### Receive entries (R350-R353) -/

/-- The channel works: data island powered and the claim held by a node that gives consist service, outside the gap of a takeover, or in DRILL with LOOP set (R349; 01 R39; 12 R433). -/
def Node.chanLive (n : Node) (ch : Nat) : Bool :=
  n.dataOn && n.serves && n.forwards && (n.on F.PAIR_STATUS_CLAIM_HELD || (n.mode == .drill && decide (ch < 8) && n.on (F.CAN_CTRL_LOOP ch)))

/-- The channel is bound to a slot that has an engine (R347, 12 R449). -/
def Node.chanStores (n : Node) (ch : Nat) : Bool :=
  let s := FMap.get 0 n.chanSlot ch
  s != 0 && (n.boundEng (s - 1)).isSome

/-- Entries in use: delivered and returning. -/
def Chan.inUse (c : Chan) : Nat := c.rx.length + c.returning

/-- Store one received entry: cells as a preemptable class, then a free entry (R350, R351); answers the counter that a failure counts: 4 RX_FULL, 5 RX_NOBUF, or 1 stored, in the order of CAN counters. -/
def Node.storeEntry (n : Node) (ch : Nat) (x : FbEntry) : Nat × Node :=
  let k := cellsFor x.data.length
  if n.freeCells < n.reserve + k then (5, n) else
  let (cells, n) := Node.takeCells k n
  let c := n.chan ch
  if 256 ≤ c.inUse then (4, n.returnCells cells)
  else (1, n.setChan ch { c with rx := c.rx ++ [{ x with id := c.nextId, epoch := n.epoch, cells := cells }], nextId := c.nextId + 1 })

/-- RXACK: up to `k` of the oldest delivered entries that no activation holds (R353). -/
def Node.rxAck (n : Node) (ch k : Nat) : Node :=
  (((n.chan ch).waiting.take k).map (·.id)).foldl (fun a id => a.ackEntry ch id) n

/-- An acknowledged entry becomes free (R352). -/
def Node.entryFreed (n : Node) (ch : Nat) : Node :=
  n.setChan ch { n.chan ch with returning := (n.chan ch).returning - 1 }

/-! ### CAN transmission (R359-R362) -/

/-- The arbitration field and format bits of a frame as sent, dominant as 0 (R360). -/
def canKey (f : CanFrame) : Nat :=
  if f.ide then
    (f.id / 2 ^ 18 % 2 ^ 11) * 2 ^ 24 + 2 ^ 23 + 2 ^ 22 + (f.id % 2 ^ 18) * 2 ^ 4 + b2n (f.rtr && !f.fdf) * 2 ^ 3 +
      b2n f.fdf * 2 ^ 2 + b2n f.xlf * 2 + b2n f.brs
  else
    (f.id % 2 ^ 11) * 2 ^ 24 + b2n (f.rtr && !f.fdf && !f.xlf) * 2 ^ 23 + b2n (f.fdf || f.xlf) * 2 ^ 21 +
      b2n f.xlf * 2 ^ 20 + b2n f.brs * 2 ^ 19

/-- Insert an entry behind every entry that wins or ties against it (R360). -/
def insertTx (x : CanTx) : List CanTx → List CanTx
  | [] => [x]
  | y :: t => if canKey x.fr < canKey y.fr then x :: y :: t else y :: insertTx x t

/-- Error passive (R363). -/
def Node.canPassive (n : Node) (ch : Nat) : Bool :=
  decide (128 ≤ n.rd (F.CAN_STATUS_TEC ch)) || decide (128 ≤ n.rd (F.CAN_STATUS_REC ch))

/-- The channel takes part on its bus: live, enabled, not in bus-off. -/
def Node.canOn (n : Node) (ch : Nat) : Bool := n.chanLive ch && n.on (F.CAN_CTRL_EN ch) && !(n.chan ch).busOff

/-- The frame is of a format the channel takes part in (R357). -/
def Node.canFormat (n : Node) (ch : Nat) (f : CanFrame) : Bool :=
  (if f.xlf then n.on (F.CAN_CTRL_XL_EN ch) else true) && (if f.fdf && !f.xlf then n.on (F.CAN_CTRL_FD_EN ch) else true)

/-- Index of the entry whose attempt is on the bus: the one marked so, else the head (R360). -/
def Chan.tryAt (c : Chan) : Nat := (c.txq.findIdx? (·.trying)).getD 0

/-- The channel may transmit (R358, R364); an entry of a format that is not enabled waits, and the queue behind it (R357, R360; log entry 113). -/
def Node.canSends (n : Node) (ch : Nat) : Bool :=
  let c := n.chan ch
  n.canOn ch && !n.on (F.CAN_CTRL_LISTEN ch) && (match c.txq[c.tryAt]? with
    | some x => n.canFormat ch x.fr
    | none => false)

/-- Whether an attempt of the head has started: no row tells its start of frame, so a free value decides where it matters (R360, R362; log entry 26). -/
def Node.canStarts (n : Node) (ch : Nat) : Node :=
  let c := n.chan ch
  if !n.canSends ch ∨ c.txq.any (·.trying) then n else
  let (v, n) := n.free
  if v % 2 = 1 then n.setChan ch { c with txq := c.txq.modify 0 (fun x => { x with trying := true }) } else n

/-- A frame closed by EMIT with DEST 1 enters its channel's queue at release, or is discarded (R359); an attempt that has started goes on (R360). -/
def Node.canEnqueue (n : Node) (ch gen : Nat) (f : CanFrame) (cells : List Nat) : Node :=
  let c := n.chan ch
  if 64 ≤ c.txq.length ∨ c.enGen ≠ gen ∨ !n.on (F.CAN_CTRL_EN ch) then
    (n.returnCells cells).inc (F.CAN_CNT_COUNT ch 6)
  else
    let n := n.canStarts ch
    n.setChan ch { n.chan ch with txq := insertTx { fr := f, cells := cells } (n.chan ch).txq }

/-- STATE of `CANn.STATUS` (R364, R375). -/
def Node.canState (n : Node) (ch : Nat) : Nat :=
  let c := n.chan ch
  if !n.dataOn then 0
  else if c.busOff then (if c.recovering then 6 else 5)
  else if !n.on (F.CAN_CTRL_EN ch) then 1
  else if c.joining then 2
  else if n.canPassive ch then 4 else 3

/-- The frame's kind and format pass an enabled filter (R358). -/
def Node.canMatch (n : Node) (ch : Nat) (f : CanFrame) : Bool :=
  (List.range 32).any (fun k =>
    n.on (F.CAN_FLT_ID_EN ch k) && n.on (F.CAN_FLT_ID_IDE ch k) == f.ide &&
    (let m := n.rd (F.CAN_FLT_MASK_MASK ch k)
     (n.rd (F.CAN_FLT_ID_ID ch k) &&& m) == (f.id &&& m)) &&
    (let kd := n.rd (F.CAN_FLT_MASK_KIND ch k)
     kd == 0 || (kd == 1 && !f.fdf && !f.xlf) || (kd == 2 && f.fdf && !f.xlf) || (kd == 3 && f.xlf)))

/-- Store a received frame where the channel stores it; one with SEC is counted on any channel that takes part (R347, R350, R357, R358). -/
def Node.canStore (n : Node) (ch : Nat) (f : CanFrame) : Node :=
  if f.xlf ∧ f.sec then (n.inc (F.CAN_CNT_COUNT ch 8)).pviol 18 ch
  else if !n.chanStores ch ∨ !n.canMatch ch f then n
  else
    let (k, n) := n.storeEntry ch { fr := f, data := f.data }
    n.inc (F.CAN_CNT_COUNT ch k)

/-- REC after a frame received without error (ISO 11898-1, PRESUMED, log entry 19): one less, or from above 127 a value of 119 to 127. -/
def Node.recGood (n : Node) (ch : Nat) : Node :=
  let r := n.rd (F.CAN_STATUS_REC ch)
  if 128 ≤ r then
    let (v, n) := n.free
    n.wr (F.CAN_STATUS_REC ch) (119 + v % 9)
  else n.wr (F.CAN_STATUS_REC ch) (r - 1)

/-- What happens on the bus shows that the channel has integrated. -/
def Node.canJoined (n : Node) (ch : Nat) : Node := n.setChan ch { n.chan ch with joining := false }

/-- A correct frame of another device reaches its frame-valid point (R350, R357, R358). -/
def Node.canReceive (n : Node) (ch : Nat) (f : CanFrame) : Node :=
  if !n.canOn ch ∨ n.on (F.CAN_CTRL_LOOP ch) ∨ !n.canFormat ch f then n
  else ((n.canJoined ch).recGood ch).canStore ch f

/-- Take the entry at `i` out of the transmit queue; a flushed one counts in TX_DISCARD (R362). -/
def Node.canRemove (n : Node) (ch i : Nat) : Node :=
  let c := n.chan ch
  match c.txq[i]? with
  | none => n
  | some x =>
    let n := (n.setChan ch { c with txq := c.txq.eraseIdx i }).returnCells x.cells
    if x.flush then n.inc (F.CAN_CNT_COUNT ch 6) else n

/-- The attempt on the bus has succeeded (R361, R362). -/
def Node.canSent (n : Node) (ch : Nat) : Node :=
  if !n.canSends ch then n else
  let n := n.canJoined ch
  let i := (n.chan ch).tryAt
  match (n.chan ch).txq[i]? with
  | none => n
  | some x =>
    let loop := n.on (F.CAN_CTRL_LOOP ch)
    let f := { x.fr with esi := n.canPassive ch, sec := false, vcid := 0 }
    let n := (n.canRemove ch i).inc (F.CAN_CNT_COUNT ch 0)
    let n := n.wr (F.CAN_STATUS_TEC ch) (n.rd (F.CAN_STATUS_TEC ch) - 1)
    if loop then n.canStore ch f else n.emit (.can ch f)

/-- Enter bus-off (R364). -/
def Node.canBusOff (n : Node) (ch : Nat) : Node :=
  let n := n.setChan ch { n.chan ch with busOff := true, recovering := false }
  let n := (n.put (F.CAN_STATUS_BUSOFF_EV ch) true).inc (F.CAN_CNT_COUNT ch 3)
  n.fault 12 1 (ch * 2 ^ 29)

/-- Abandon the entry at `i` at the clash threshold (R367). -/
def Node.canAbandon (n : Node) (ch i : Nat) (x : CanTx) : Node :=
  let n := n.canRemove ch i
  let n := (n.inc (F.CAN_CNT_COUNT ch 7)).put (F.CAN_STATUS_CLASH_EV ch) true
  let n := if n.on (F.CAN_CLASH_VALID ch) then n else
    n.wrs [(F.CAN_CLASH_VALID ch, 1), (F.CAN_CLASH_IDE ch, b2n x.fr.ide), (F.CAN_CLASH_ID ch, x.fr.id)]
  n.fault 12 2 (ch * 2 ^ 29 + x.fr.id % 2 ^ 29)

/-- The attempt on the bus ends without success: the entry's clash count (R366), abandonment (R367), removal of a flushed entry (R362); a lost arbitration (`up` none) leaves the count. -/
def Node.canEnds (n : Node) (ch : Nat) (up : Option Bool) : Node :=
  let c := n.chan ch
  let i := c.tryAt
  match c.txq[i]? with
  | none => n
  | some x =>
    let x := { x with trying := false, clash := match up with
      | none => x.clash
      | some b => if b then x.clash + 1 else 0 }
    let n := n.setChan ch { c with txq := c.txq.set i x }
    let thr := n.rd (F.CAN_CTRL_CLASH_THR ch)
    if up = some true ∧ thr ≠ 0 ∧ thr ≤ x.clash then n.canAbandon ch i x
    else if x.flush then n.canRemove ch i else n

/-- Raise TEC by 8, entering bus-off above 255 (R364). -/
def Node.tecUp (n : Node) (ch : Nat) : Node :=
  let t := n.rd (F.CAN_STATUS_TEC ch) + 8
  let n := n.wr (F.CAN_STATUS_TEC ch) (min t 256)
  if 255 < t then n.canBusOff ch else n

/-- An error of an attempt or a reception, or one in or after the flag that answers it, which ends no attempt (R363, R366; the steps of TEC and REC are those of ISO 11898-1, PRESUMED, log entry 19). -/
def Node.canErr (n : Node) (ch : Nat) (e : CanErr) : Node :=
  if !n.canOn ch then n else
  let n := n.canJoined ch
  let bad := (n.inc (F.CAN_CNT_COUNT ch 2)).pviol 17 ch
  let rec' := fun m : Node => fun k => m.wr (F.CAN_STATUS_REC ch) (min 255 (m.rd (F.CAN_STATUS_REC ch) + k))
  match e with
  | .rxError => if n.on (F.CAN_CTRL_LOOP ch) then n else rec' bad 1
  | .rxDominant => if n.on (F.CAN_CTRL_LOOP ch) then n else rec' bad 8
  | .rxFlagBit => if n.on (F.CAN_CTRL_LOOP ch) then n else rec' bad 8
  | .rxFlagDominant => if n.on (F.CAN_CTRL_LOOP ch) then n else rec' bad 8
  | .txFlagBit => if n.on (F.CAN_CTRL_LISTEN ch) then n else bad.tecUp ch
  | .txFlagDominant => if n.on (F.CAN_CTRL_LISTEN ch) then n else bad.tecUp ch
  | .txArbLost => if n.canSends ch then n.canEnds ch none else n
  | .txDataBit => if n.canSends ch then (bad.canEnds ch (some true)).tecUp ch else n
  | .txXlFast => if n.canSends ch then (bad.canEnds ch (some true)).tecUp ch else n
  | .txOther => if n.canSends ch then (bad.canEnds ch (some false)).tecUp ch else n
  | .txAckPassive => if n.canSends ch then bad.canEnds ch (some false) else n
  | .txStuffArb => if n.canSends ch then bad.canEnds ch (some false) else n

/-- FLUSH_TX: entries are removed and counted, but one whose attempt is on the bus finishes it first (R362, log entry 26). -/
def Node.canFlush (n : Node) (ch : Nat) : Node :=
  let n := n.canStarts ch
  let c := n.chan ch
  let gone := c.txq.filter (fun x => !x.trying)
  let n := n.setChan ch { c with txq := (c.txq.filter (·.trying)).map (fun x => { x with flush := true }) }
  gone.foldl (fun a x => (a.returnCells x.cells).inc (F.CAN_CNT_COUNT ch 6)) n

/-- RECOVER: RESULT 1 outside bus-off or with EN 0 (R365). Answers RESULT. -/
def Node.canRecover (n : Node) (ch : Nat) : Nat × Node :=
  let c := n.chan ch
  if !c.busOff then (1, n)
  else if c.recovering then (0, n)
  else if !n.on (F.CAN_CTRL_EN ch) then (1, n)
  else (0, n.setChan ch { c with recovering := true })

/-- 128 occurrences of 11 recessive bits have been counted (R365). -/
def Node.canRecovered (n : Node) (ch : Nat) : Node :=
  let c := n.chan ch
  if c.recovering then
    let n := n.setChan ch { c with busOff := false, recovering := false, joining := false, txq := c.txq.map (fun x => { x with clash := 0 }) }
    (n.wr (F.CAN_STATUS_TEC ch) 0).wr (F.CAN_STATUS_REC ch) 0
  else n

/-- Quanta per bit, and FLD cycles per bit, of a timing register. -/
def quanta (t1 t2 : Nat) : Nat := 1 + t1 + t2
def bitCycles (brp t1 t2 : Nat) : Nat := (brp + 1) * quanta t1 t2

/-- The timing and mode a write that sets EN needs (R355, R356); mode 0 classic, 1 SIC, 2 SIC XL. -/
def Node.canCfgOk (n : Node) (ch mode : Nat) (fd xl : Bool) : Bool :=
  let nb := n.rd (F.CAN_NBT_BRP ch)
  let n1 := n.rd (F.CAN_NBT_TSEG1 ch)
  let n2 := n.rd (F.CAN_NBT_TSEG2 ch)
  let d1 := n.rd (F.CAN_DBT_TSEG1 ch)
  let d2 := n.rd (F.CAN_DBT_TSEG2 ch)
  let x1 := n.rd (F.CAN_XBT_TSEG1 ch)
  let x2 := n.rd (F.CAN_XBT_TSEG2 ch)
  decide (80 ≤ bitCycles nb n1 n2) && decide (8 ≤ quanta n1 n2) && decide (n.rd (F.CAN_NBT_SJW ch) ≤ n2) &&
    !(xl && mode == 0) &&
    (!fd || (decide ((if mode = 0 then 40 else 10) ≤ bitCycles (n.rd (F.CAN_DBT_BRP ch)) d1 d2) && decide (4 ≤ quanta d1 d2) &&
      decide (n.rd (F.CAN_DBT_SJW ch) ≤ d2))) &&
    (!xl || (decide ((if mode = 2 then 4 else 10) ≤ bitCycles (n.rd (F.CAN_XBT_BRP ch)) x1 x2) && decide (4 ≤ quanta x1 x2) &&
      decide (n.rd (F.CAN_XBT_SJW ch) ≤ x2)))

/-- A write of `CANn.CTRL` (R356, R375). -/
def Node.canCtrl (n : Node) (ch v : Nat) : Node :=
  let was := n.on (F.CAN_CTRL_EN ch)
  let thr := bitsOf v 21 16
  let n := n.put (F.CAN_CTRL_TERM ch) (bitOf v 28)
  let n := n.wr (F.CAN_CTRL_CLASH_THR ch) (if thr = 1 then 2 else min thr 32)
  let n := if was then n else
    let m := bitsOf v 27 26
    let n := n.wrs [(F.CAN_CTRL_LISTEN ch, bitsOf v 30 30), (F.CAN_CTRL_LOOP ch, bitsOf v 29 29),
      (F.CAN_CTRL_FD_EN ch, bitsOf v 25 25), (F.CAN_CTRL_XL_EN ch, bitsOf v 24 24)]
    if m = 3 then n else n.wr (F.CAN_CTRL_XCVR ch) m
  if bitOf v 31 then
    if was then n
    else if n.canCfgOk ch (n.rd (F.CAN_CTRL_XCVR ch)) (n.on (F.CAN_CTRL_FD_EN ch)) (n.on (F.CAN_CTRL_XL_EN ch)) then
      (n.put (F.CAN_CTRL_EN ch) true).setChan ch { n.chan ch with joining := true }
    else n.put (F.CAN_STATUS_CFG_ERR ch) true
  else if was then
    let n := if (n.chan ch).txq.any (·.trying) then n.canEnds ch (some false) else n
    (n.put (F.CAN_CTRL_EN ch) false).setChan ch { n.chan ch with enGen := (n.chan ch).enGen + 1, recovering := false, joining := false }
  else n

/-- A frame of another device is valid (10 R350). -/
def execCanFrameValid (ch : Nat) (f : CanFrame) (s : State) : Host.Outcome State Fault Refusal :=
  s.to (if ch < 8 then s.node.canReceive ch f else s.node)

/-- The attempt on the bus succeeded (10 R361). -/
def execCanTxSuccess (ch : Nat) (s : State) : Host.Outcome State Fault Refusal :=
  s.to (if ch < 8 then s.node.canSent ch else s.node)

/-- An attempt or reception ended in error (10 R366). -/
def execCanError (ch : Nat) (err : CanErr) (s : State) : Host.Outcome State Fault Refusal :=
  s.to (if ch < 8 then s.node.canErr ch err else s.node)

/-- The recovery count is complete (10 R365). -/
def execRecoveryComplete (ch : Nat) (s : State) : Host.Outcome State Fault Refusal :=
  s.to (if ch < 8 then s.node.canRecovered ch else s.node)

/-- An acknowledged entry is free (10 R352). -/
def execFieldbusEntryFreed (ch : Nat) (s : State) : Host.Outcome State Fault Refusal :=
  s.to (if ch < 10 then s.node.entryFreed ch else s.node)

end Sys2Proof.Machine
end

