-- ==== Sys2Proof/Machine/Buffer.lean ====
section
/-! DEFINITION. Bank drains (06 R224-R227), the FREEZE snapshot (06 R228, R229) and the host rings (05 R185-R188; 08 R311; 09 R337, R342). -/

namespace Sys2Proof.Machine

open Sys2Proof

/-! ### Bank drain -/

/-- Cells of a bank that frames hold. -/
def Node.heldIn (n : Node) (b : Nat) : Nat := Config.cellsPerBank - (n.bank b).free - (n.bank b).returning

/-- Start draining bank `b` (R225). -/
def Node.drainBegin (n : Node) (b : Nat) : Node :=
  let d := n.heldIn b
  let n := (n.wr (F.FAB_BANK_STATE b) 2).setBank b {}
  let n := n.wrs [(F.FAB_STATUS_DRAINING, 1), (F.FAB_STATUS_DRAIN_BANK, b)]
  let n := { n with fab := { n.fab with drainCells := d } }
  match (List.range 26).find? (fun k => n.rd (F.FAB_BANK_STATE k) == 0) with
  | none => n
  | some k => (n.wr (F.FAB_BANK_STATE k) 1).setBank k { free := 0, returning := Config.cellsPerBank }

/-- A bank meets a condition of R224: its record is written at once, and it drains now or after the drain in progress. -/
def Node.drainStart (n : Node) (b : Nat) : Node :=
  if !n.dataOn ∨ 26 ≤ b ∨ n.rd (F.FAB_BANK_STATE b) ≠ 1 ∨ b ∈ n.fab.drainWait then n
  else if n.rd (F.FAB_BANK_CE_HOUR b) ≤ n.rd F.FAB_BANK_CE_LIMIT_LIMIT ∧ n.rd (F.FAB_BANK_UE24 b) < 2 then n
  else
    let n := n.fault 7 1 b
    if n.on F.FAB_STATUS_DRAINING then { n with fab := { n.fab with drainWait := n.fab.drainWait ++ [b] } }
    else n.drainBegin b

/-- Move the cells of the items of a list. -/
def moveEach {α : Type} (b : Nat) (get : α → List Nat) (put : α → List Nat → α) : List α → Node → List α × Node
  | [], n => ([], n)
  | x :: t, n =>
    let (l, n) := moveChain b (get x) n
    let (r, n) := moveEach b get put t n
    (put x l :: r, n)

/-- Move the cells a field-bus channel holds. -/
def moveChan (b : Nat) (n : Node) (ch : Nat) : Node :=
  let c := n.chan ch
  let (tx, n) := moveEach b CanTx.cells (fun x l => { x with cells := l }) c.txq n
  let (rx, n) := moveEach b FbEntry.cells (fun x l => { x with cells := l }) c.rx n
  let (sc, n) := moveEach b (fun e : Nat × List Nat => e.2) (fun e l => (e.1, l)) c.srcCells n
  n.setChan ch { n.chan ch with txq := tx, rx := rx, srcCells := sc }

/-- Move the cells an activation holds. -/
def moveEng (b : Nat) (n : Node) (e : Nat) : Node :=
  let a := (n.eng e).act
  let (tx, n) := moveChain b a.txCells n
  let (bk, n) := moveChain b a.backCells n
  let get := fun h : Held => match h with | .frame f => f.cells | _ => []
  let put := fun (h : Held) (l : List Nat) => match h with | .frame f => Held.frame { f with cells := l } | x => x
  let (os, n) := moveEach b get put a.outs n
  n.setEng e { n.eng e with act := { a with txCells := tx, backCells := bk, outs := os } }

/-- 250 ms after the drain started, the cells left are moved; those of a frame being read wait for the end of its read (R226). -/
def Node.drainMove (n : Node) : Node :=
  if !n.on F.FAB_STATUS_DRAINING then n else
  let b := n.rd F.FAB_STATUS_DRAIN_BANK
  let n := { n with fab := { n.fab with moving := true } }
  let n := (n.fab.frames.map (·.1)).foldl Node.moveFrame n
  let n := (List.range 10).foldl (moveChan b) n
  (List.range 19).foldl (moveEng b) n

/-- D has reached 0: the bank is retired, and a bank that waits starts (R224, R226). -/
def Node.bankRetire (n : Node) : Node :=
  if !n.on F.FAB_STATUS_DRAINING ∨ n.fab.drainCells ≠ 0 then n else
  let b := n.rd F.FAB_STATUS_DRAIN_BANK
  let n := { n with fab := { n.fab with moving := false } }
  let n := ((n.wr (F.FAB_BANK_STATE b) 3).wrs [(F.FAB_STATUS_DRAINING, 0), (F.FAB_STATUS_DRAIN_BANK, 0)]).fault 7 1 (b + 256)
  match n.fab.drainWait with
  | [] => n
  | c :: t => { n with fab := { n.fab with drainWait := t } }.drainBegin c

/-! ### FREEZE -/

/-- Cells of stored frames whose identifier is in `l`. -/
def Node.cellsOfFids (n : Node) (l : List Nat) : Nat := (l.eraseDups.map (fun i => (n.frame i).cells.length)).sum

/-- Allocated cells held by engine queues, activations and the receive entries of field-bus channels (06 R231; 10 R350). -/
def Node.engineCells (n : Node) : Nat :=
  let acts := (List.range 19).map (fun e => (n.eng e).act)
  let chans := (List.range 10).map n.chan
  n.cellsOfFids (((n.fab.engq.map (fun e => e.2.map (·.fid))).flatten ++
      (acts.map (fun a => (a.taken.filter (fun i => i.src == 0 || i.src == 3)).map (·.fid))).flatten)) +
    (acts.map (fun a => a.txCells.length + a.backCells.length + (heldCells a).length)).sum +
    (chans.map (fun c => (c.rx.map (·.cells)).flatten.length)).sum

/-- Allocated cells waiting for host descriptors. -/
def Node.hostCells (n : Node) : Nat := n.cellsOfFids ((n.fab.hostq.map (fun e => e.2.map (·.fid))).flatten)

/-- Size of a ring in descriptors (05 R188). -/
def ringSize (sz : Nat) : Nat := 2 ^ (sz + 4)

/-- Descriptors of a ring the node owns. -/
def nodeOwned (sz tail head : Nat) : Nat := (tail + ringSize sz - head) % ringSize sz

/-- The snapshot of the data units (R228, R229). -/
def Node.snapData (n : Node) : Node :=
  let fr := n.freeCells
  let rt := n.returningCells
  let d := n.fab.drainCells
  let al := Config.cellsPerBank * n.banksN + d - fr - rt
  let n := n.wrs [(F.FAB_SNAP_FREE_COUNT, fr), (F.FAB_SNAP_ALLOC_COUNT, al), (F.FAB_SNAP_RETURN_COUNT, rt),
    (F.FAB_SNAP_DRAIN_COUNT, d), (F.FAB_SNAP_ENGINE_COUNT, n.engineCells), (F.FAB_SNAP_HOST_COUNT, n.hostCells)]
  let n := (List.range 6).foldl (fun a k =>
    a.wr (F.FAB_SNAP_CREDIT_CREDITS k) (([64, 64, 16, 16, 64, 64] : List Nat).getD k 0)) n
  let n := (List.range 20).foldl (fun a p =>
    let h := (FMap.get [] a.fab.launches p).length
    let ts := (a.port p).tsHost
    a.wrs [(F.FAB_SNAP_LAUNCH_FREE p, 64 - h), (F.FAB_SNAP_LAUNCH_HELD p, h), (F.TIM_SNAP_TS_FREE p, 32 - ts),
      (F.TIM_SNAP_TS_PENDING p, ts), (F.TIM_SNAP_TS_RETURNING p, 0)]) n
  let n := (List.range 8).foldl (fun a c =>
    let x := a.chan c
    a.wrs [(F.CAN_SNAP_FREE c, 256 - x.inUse), (F.CAN_SNAP_DELIVERED c, x.rx.length), (F.CAN_SNAP_RETURNING c, x.returning)]) n
  let n := (List.range 2).foldl (fun a c =>
    let x := a.chan (8 + c)
    a.wrs [(F.MVB_SNAP_FREE c, 256 - x.inUse), (F.MVB_SNAP_DELIVERED c, x.rx.length), (F.MVB_SNAP_RETURNING c, x.returning)]) n
  let busy := (n.brg.tags.filter (fun t => t.2.busy)).length
  let n := n.wrs [(F.BRG_SNAP_A_FREE, 1024 - busy), (F.BRG_SNAP_A_INFLIGHT, busy), (F.BRG_SNAP_B_COMPLETING, 0)]
  (List.range 16).foldl (fun a k =>
    let put := fun (a : Node) (en : Bool) (sz tail head busy : Nat) (node host : Fld) =>
      let o := if en then nodeOwned sz tail head + busy else 0
      a.wrs [(node, o), (host, if en then ringSize sz - o else 0)]
    let a := put a (a.on (F.HST_TXCTRL_EN k)) (a.rd (F.HST_TXCTRL_SIZE k)) (a.rd (F.HST_TXTAIL_INDEX k)) (a.rd (F.HST_TXHEAD_INDEX k))
      (n.fab.descs.filter (fun d => d.ring == k)).length (F.HST_SNAP_TX_NODE k) (F.HST_SNAP_TX_HOST k)
    put a (a.on (F.HST_RXCTRL_EN k)) (a.rd (F.HST_RXCTRL_SIZE k)) (a.rd (F.HST_RXTAIL_INDEX k)) (a.rd (F.HST_RXHEAD_INDEX k)) 0
      (F.HST_SNAP_RX_NODE k) (F.HST_SNAP_RX_HOST k)) n

/-- The snapshot of the units outside the data island (R228; 12 R450; 13 R480). -/
def Node.snapCtl (n : Node) : Node :=
  let n := n.wrs [(F.UPD_SNAP_FLASH_SPARE0, n.flashSpare 0), (F.UPD_SNAP_FLASH_SPARE1, n.flashSpare 1)]
  [0, 1].foldl (fun a p =>
    let x := FMap.get {} a.pair.paths p
    a.wrs [(F.PAIR_SNAP_HB_RX_COUNT p, a.rd (F.PAIR_HB_RX_COUNT p)), (F.PAIR_SNAP_HB_MISS_COUNT p, a.rd (F.PAIR_HB_MISS_COUNT p)),
      (F.PAIR_SNAP_HB_FIRST_SEQ p, x.first.getD 0), (F.PAIR_SNAP_HB_HIGH_SEQ p, x.high)]) n

/-- START of `FAB.FREEZE`: none while a capture is in progress (R229). -/
def Node.freeze (n : Node) : Node :=
  if n.fab.freezing ∨ !n.dataOn then n else
  let n := { n with fab := { n.fab with freezing := true } }.put F.FAB_FREEZE_DONE false
  n.snapData.snapCtl

/-- The capture ends (R229). -/
def Node.freezeDone (n : Node) : Node :=
  if n.fab.freezing then
    (({ n with fab := { n.fab with freezing := false } }).bump F.FAB_FREEZE_SEQ).put F.FAB_FREEZE_DONE true
  else n

/-! ### Host rings -/

/-- Destinations of a frame of context `s` that are external ports (09 R337). -/
def Node.externalDests (n : Node) (f : Frame) (s : Nat) : List Nat :=
  ((n.destinations { f with stream := s } s).1.getD []).filter (fun p => decide (p < 20))

/-- The lowest external port that holds a copy of a stored frame; 31 none (09 R342). -/
def Node.lowestPort (n : Node) (fid : Nat) : Nat :=
  ((List.range 20).find? (fun p =>
    (List.range 8).any (fun c => (n.egQueue p c).any (fun x => x.fid == fid)) ||
      (FMap.get [] n.fab.launches p).any (fun x => x.fid == fid))).getD 31

/-- The epoch a host frame is stamped with, or none where it is refused (08 R311). -/
def Node.hostEpoch (n : Node) (e : Nat) : Option Nat :=
  if e = 0 ∨ e = n.epoch then some n.epoch
  else if n.oldEpoch = some e then some e else none

/-- The node fetches the transmit descriptor at HEAD of a ring (05 R185, R186). Bits 7:4 of its byte 0Ch are taken as reserved: one set makes it INVALID (DESIGN CHOICE, log entry 128). -/
def Node.hostTx (n : Node) (r : Nat) (d payload : List Byte) : Node :=
  let head := n.rd (F.HST_TXHEAD_INDEX r)
  let sz := n.rd (F.HST_TXCTRL_SIZE r)
  let fl := byteAt d 12
  if !n.dataOn ∨ 16 ≤ r ∨ n.level < 2 ∨ !n.on (F.HST_TXCTRL_EN r) ∨ nodeOwned sz (n.rd (F.HST_TXTAIL_INDEX r)) head = 0 ∨
      !bitOf fl 0 then n else
  let len := leAt d 8 2
  let s := leAt d 10 2
  let lt := bitOf fl 1
  let t := timeOf (leAt d 16 6) (leAt d 22 4)
  let desc : Desc := { ring := r, idx := head, bytes := fit 32 d, port := 31 }
  let next := fun m : Node => m.wr (F.HST_TXHEAD_INDEX r) ((head + 1) % ringSize sz)
  let invalid := fun m : Node => (next m).descDone { desc with inv := true }
  if len < 14 ∨ 9216 < len ∨ 4096 ≤ s ∨ 16 ≤ fl ∨ byteAt d 13 ≠ 0 ∨ !(slice d 26 6).all (fun b => b == 0) then invalid n
  else match n.hostEpoch (leAt d 14 2) with
  | none => invalid (n.inc F.TOP_EPOCH_REFUSED_COUNT)
  | some ep =>
    if n.isBridge (fit len payload) then (next (n.toBridge 20 (fit len payload))).descDone desc
    else if !n.ctxValid s then invalid (n.disc 1)
    else if lt && n.tooFar t then invalid n
    else
      let f : Frame := { data := fit len payload, ingress := 20, stamp := ep }
      if lt && (n.externalDests f s).any (fun p => decide (64 ≤ (FMap.get [] n.fab.launches p).length)) then n
      else
        match n.enter f (len + 4) s (if lt then some t else none) with
        | (.stored fid, m) =>
          next { m with fab := { m.fab with descs := m.fab.descs ++ [{ desc with fid := fid, port := m.lowestPort fid }] } }
        | (_, m) => (next m).descDone desc

/-- Bytes 0Dh to 1Fh of a receive write-back (05 R187). -/
def rxBack (f : Frame) (c : Copy) (ep size : Nat) : List Byte :=
    [BitVec.ofNat 8 (b2n f.oversize + 2 * b2n f.tci.isSome + 4 * b2n f.rseq.isSome + 8 * b2n (c.stamp != ep) +
      16 * b2n (decide (size < f.data.length)))] ++
    leBytes 2 c.stamp ++ leBytes 6 (secOf f.ts) ++ leBytes 4 (nsOf f.ts) ++ leBytes 2 (fracOf f.ts) ++
    leBytes 2 (f.tci.getD 0) ++ leBytes 2 (f.rseq.getD 0)

/-- A frame waiting for a host ring is written to the receive descriptor at HEAD where its OWN is 1 (05 R187; log entry 74); a frame with a packet-buffer error is discarded (02 R68). The buffer size is used as it stands, whatever it is, and every frame written raises the ring's vector (log entry 139). -/
def Node.hostRx (n : Node) (r : Nat) (d : List Byte) : Node :=
  match FMap.get [] n.fab.hostq r with
  | [] => n
  | c :: rest =>
    let head := n.rd (F.HST_RXHEAD_INDEX r)
    let sz := n.rd (F.HST_RXCTRL_SIZE r)
    if !n.dataOn ∨ 16 ≤ r then n else
    let take := fun m : Node => { m with fab := { m.fab with hostq := FMap.put [] m.fab.hostq r rest } }
    let f := n.frame c.fid
    if f.bad then ((take n).disc 8).dropCopy c
    else if !n.on (F.HST_RXCTRL_EN r) ∨ nodeOwned sz (n.rd (F.HST_RXTAIL_INDEX r)) head = 0 ∨ !bitOf (byteAt d 12) 0 then n
    else
      let size := leAt d 8 2
      let a := n.rd (F.HST_RXBASE_HI_ADDR r) * 2 ^ 32 + n.rd (F.HST_RXBASE_LO_ADDR r) * 4096 + 32 * head
      let n := (take n).emit (.hostWrite (leAt d 0 8) (f.data.take size))
      let n := (n.emit (.hostBack (a + 8) (leBytes 2 f.data.length ++ leBytes 2 c.stream) (rxBack f c n.epoch size))).emit (.hostWrite (a + 12) [BitVec.ofNat 8 (byteAt d 12 / 2 * 2)])
      let n := n.wr (F.HST_RXHEAD_INDEX r) ((head + 1) % ringSize sz)
      ((n.msi (16 + r)).delivered c.fid c.stream).dropRef c.fid

/-! ### Meanings -/

/-- A transmit descriptor is fetched (05 R186). -/
def execHostTxDescriptorFetch (ring : Nat) (desc payload : List Byte) (s : State) : Host.Outcome State Fault Refusal :=
  s.to (s.node.hostTx ring desc payload)

/-- A frame is written to host memory (05 R187). -/
def execHostRxDelivery (ring : Nat) (desc : List Byte) (s : State) : Host.Outcome State Fault Refusal :=
  s.to (s.node.hostRx ring desc)

/-- A capture ends (R229). -/
def execFreezeDone (s : State) : Host.Outcome State Fault Refusal := s.to s.node.freezeDone

/-- A bank starts draining (R225). -/
def execBankDrainStart (bank : Nat) (s : State) : Host.Outcome State Fault Refusal := s.to (s.node.drainStart bank)

/-- One cell of a spare that entered service reaches the free pool (R225). -/
def Node.spareCell (n : Node) (b : Nat) : Node :=
  let x := n.bank b
  if b < 26 ∧ n.rd (F.FAB_BANK_STATE b) = 1 ∧ 0 < x.returning then
    n.setBank b { x with free := x.free + 1, returning := x.returning - 1 }
  else n

/-- A spare's cell is released (R225). -/
def execSpareCellRelease (bank : Nat) (s : State) : Host.Outcome State Fault Refusal := s.to (s.node.spareCell bank)

/-- The cells left in a draining bank are moved (R226). -/
def execDrainMove (s : State) : Host.Outcome State Fault Refusal := s.to s.node.drainMove

/-- A drained bank is retired (R226). -/
def execBankRetire (s : State) : Host.Outcome State Fault Refusal := s.to s.node.bankRetire

end Sys2Proof.Machine
end

