-- ==== Sys2Proof/Machine/Mvb.lean ====
section
/-! DEFINITION. MVB channels 0 and 1, channel numbers 8 and 9 (10 R368-R374, R376). -/

namespace Sys2Proof.Machine

open Sys2Proof

/-- Data bytes of an F-code; 0 where it carries no process data (R368). -/
def fcodeBytes (f : Nat) : Nat := if f = 15 then 2 else ([2, 4, 8, 16, 32] : List Nat).getD f 0

/-- The lowest-numbered enabled port entry of channel `m` with a direction and address, which governs (R369). -/
def Node.mvbGoverns (n : Node) (m dir addr : Nat) : Option Nat :=
  (List.range 256).find? (fun k =>
    n.on (F.MVB_PORT_EN m k) && n.rd (F.MVB_PORT_DIR m k) == dir && n.rd (F.MVB_PORT_ADDR m k) == addr)

/-- The entry that governs a direction and address, where it has the F-code. -/
def Node.mvbPort (n : Node) (m dir fcode addr : Nat) : Option Nat :=
  match n.mvbGoverns m dir addr with
  | none => none
  | some k => if n.rd (F.MVB_PORT_FCODE m k) = fcode then some k else none

/-- Lines in use: 1 line A, 2 line B (R368, R376). -/
def Node.mvbLines (n : Node) (m : Nat) : Nat := n.rd (F.MVB_CTRL_LINE_A m) + 2 * n.rd (F.MVB_CTRL_LINE_B m)

/-- STATE of `MVBn.STATUS` (R376). -/
def Node.mvbState (n : Node) (m : Nat) : Nat :=
  if !n.dataOn then 0
  else if !n.on (F.MVB_CTRL_EN m) then 1
  else if (n.chan (8 + m)).conflict then 4
  else if n.on (F.MVB_CTRL_ADMIN m) then 3 else 2

/-- The channel works, on at least one line (R349, R368). -/
def Node.mvbOn (n : Node) (m : Nat) : Bool := n.chanLive (8 + m) && n.on (F.MVB_CTRL_EN m) && n.mvbLines m != 0

/-- EMIT with DEST 2 replaces the data of the source port it names, or is discarded (R370). -/
def Node.mvbEmit (n : Node) (m fcode addr : Nat) (data : List Byte) (cells : List Nat) : Node :=
  match n.mvbPort m 1 fcode addr with
  | none => (n.returnCells cells).inc (F.MVB_CNT_COUNT m 6)
  | some k =>
    let c := n.chan (8 + m)
    let n := n.returnCells (FMap.get [] c.srcCells k)
    n.setChan (8 + m) { n.chan (8 + m) with src := FMap.put [] c.src k data, srcCells := FMap.put [] c.srcCells k cells }

/-- The device status word: administrator capability, no gateway or message data, not ready until the bound slot's engine runs; its other bits are free, its places those of IEC 61375-3-1 (R370, log entry 27). -/
def Node.mvbStatus (n : Node) (m : Nat) : Nat :=
  let s := FMap.get 0 n.chanSlot (8 + m)
  let ready := decide (s ≠ 0) && (match n.boundEng (s - 1) with
    | some e => n.on (F.SC_CTRL_RUN e)
    | none => false)
  let v := Config.mvbStatusBits n.freeN % 2 ^ 16
  setBit (setBit (setBit (setBit v 14 (n.on (F.MVB_CTRL_ADMIN m))) 13 false) 12 false) 1 (!ready)

/-- Store process data heard for an enabled sink port (R371). -/
def Node.mvbHear (n : Node) (m fcode addr : Nat) (data : List Byte) : Node :=
  match n.mvbPort m 2 fcode addr with
  | none => n
  | some k =>
    let c := n.chan (8 + m)
    if !n.chanStores (8 + m) then n
    else if n.on (F.MVB_PORT_ONCHANGE m k) && FMap.get [] c.lastSink k == data then n
    else
      let (r, n) := n.storeEntry (8 + m) { addr := addr, fcode := fcode, data := data }
      if r = 4 then n.inc (F.MVB_CNT_COUNT m 4)
      else if r = 5 then n.inc (F.MVB_CNT_COUNT m 5)
      else n.setChan (8 + m) { n.chan (8 + m) with lastSink := FMap.put [] (n.chan (8 + m)).lastSink k data }

/-- The channel sends a slave frame, on every enabled line (R368). -/
def Node.mvbReply (n : Node) (m : Nat) (data : List Byte) : Node :=
  (n.emit (.mvbSlave (8 + m) (n.mvbLines m) data)).inc (F.MVB_CNT_COUNT m 1)

/-- The node's own reply to a master frame: a source port's data, or the device status word for DEVADDR (R370, R372). -/
def Node.mvbOwn (n : Node) (m fcode addr : Nat) : Option (List Byte) :=
  if fcode = 15 then (if addr = n.rd (F.MVB_CTRL_DEVADDR m) then some (beBytes 2 (n.mvbStatus m)) else none) else
  match n.mvbPort m 1 fcode addr with
  | none => none
  | some k =>
    let d := FMap.get [] (n.chan (8 + m)).src k
    if d.isEmpty then none else some d

/-- The channel answers a master frame where it has a reply, and hears it itself (R370, R371). -/
def Node.mvbAnswer (n : Node) (m fcode addr : Nat) : Bool × Node :=
  match n.mvbOwn m fcode addr with
  | none => (false, n)
  | some d => (true, (({ n with freeN := n.freeN + 1 }.mvbReply m d).mvbHear m fcode addr d))

/-- TIM cycles of a frame of `k` data bytes at 1.5 Mbit/s: start delimiter of 9 bits and a check sequence of 8 bits for each 64 bits (IEC 61375-3-1, PRESUMED; log entry 27). -/
def mvbTime (k : Nat) : Nat := (9 + 8 * k + 8 * ((8 * k + 63) / 64)) * 500 / 3

/-- A master frame for F-code `f` sent at cycle `t`, and its longest reply, end before the basic period ends (R372). -/
def Node.mvbFits (n : Node) (m f t : Nat) : Bool :=
  decide (t + mvbTime 2 + 10675 + mvbTime (fcodeBytes f) ≤ (n.chan (8 + m)).periodAt + 250000 * (1 + n.rd (F.MVB_ADMIN_BASIC m)))

/-- Administrator: send master frames until one awaits a reply of another device; a poll that does not fit the period is skipped (R372). -/
def Node.mvbPoll (n : Node) (m : Nat) : Nat → Node
  | 0 => n
  | k + 1 =>
    let c := n.chan (8 + m)
    match c.pollq with
    | [] => n.setChan (8 + m) { c with poll := none }
    | (f, a) :: t =>
      let at' := max n.clock.cycles c.lineAt
      if !n.mvbFits m f at' then Node.mvbPoll ((n.setChan (8 + m) { c with pollq := t, poll := none }).inc (F.MVB_CNT_COUNT m 8)) m k else
      let n := n.setChan (8 + m) { c with pollq := t, poll := some (f, a), lineAt := at' + mvbTime 2 + 1000 + mvbTime (fcodeBytes f) }
      let n := (n.emit (.mvbMaster (8 + m) (n.mvbLines m) f a)).inc (F.MVB_CNT_COUNT m 0)
      match n.mvbAnswer m f a with
      | (false, n) => n
      | (true, n) => Node.mvbPoll n m k

/-- Polls of basic period `b`, in increasing entry; an entry that another of its address and direction governs does not act (R369, R372). -/
def Node.mvbDue (n : Node) (m b : Nat) : List (Nat × Nat) :=
  ((List.range 256).filter (fun k =>
    let poll := n.rd (F.MVB_PORT_POLL m k)
    let p := 2 ^ (min poll (n.rd (F.MVB_ADMIN_MACRO m) + 1) - 1)
    n.on (F.MVB_PORT_EN m k) && poll != 0 && b % p == k % p &&
      n.mvbGoverns m (n.rd (F.MVB_PORT_DIR m k)) (n.rd (F.MVB_PORT_ADDR m k)) == some k)).map (fun k =>
      (n.rd (F.MVB_PORT_FCODE m k), n.rd (F.MVB_PORT_ADDR m k)))

/-- The administrator polls: role, no conflict. -/
def Node.mvbAdmin (n : Node) (m : Nat) : Bool :=
  n.mvbOn m && n.on (F.MVB_CTRL_ADMIN m) && !(n.chan (8 + m)).conflict

/-- A basic period begins: polls left over are skipped, the due ones start (R372). -/
def Node.mvbPeriod (n : Node) (m : Nat) : Node :=
  if !n.mvbAdmin m then n else
  let c := n.chan (8 + m)
  let n := (List.range c.pollq.length).foldl (fun a _ => a.inc (F.MVB_CNT_COUNT m 8)) n
  let b := c.basic % 2 ^ n.rd (F.MVB_ADMIN_MACRO m)
  let n := n.setChan (8 + m) { c with pollq := n.mvbDue m b, poll := none, periodAt := n.clock.cycles, lineAt := 0, basic := (b + 1) % 2 ^ n.rd (F.MVB_ADMIN_MACRO m) }
  n.mvbPoll m 257

/-- Line `l` is in use. -/
def Node.mvbLineOn (n : Node) (m l : Nat) : Bool := n.on (if l = 0 then F.MVB_CTRL_LINE_A m else F.MVB_CTRL_LINE_B m)

/-- The field that shows the state of line `l`. -/
def mvbLineOk (m l : Nat) : Fld := if l = 0 then F.MVB_STATUS_LINE_A_OK m else F.MVB_STATUS_LINE_B_OK m

/-- A frame is heard on line `l`: the line's state, and whether the channel receives it. It receives the line it has selected; a good frame on the other one selects that where the selected one is not in use or carries no valid frames (R368; the redundancy rules of IEC 61375-3-1 PRESUMED, log entry 114). -/
def Node.mvbLine (n : Node) (m l : Nat) (ok : Bool) : Bool × Node :=
  if !n.mvbLineOn m l then (false, n) else
  let n := n.put (mvbLineOk m l) ok
  let sel := n.rd (F.MVB_STATUS_RX_LINE m)
  if l = sel then (true, n)
  else if ok && !(n.mvbLineOn m sel && n.on (mvbLineOk m sel)) then (true, n.wr (F.MVB_STATUS_RX_LINE m) l)
  else (false, n)

/-- A frame that is discarded (R374). -/
def Node.mvbBad (n : Node) (m : Nat) : Node := (n.inc (F.MVB_CNT_COUNT m 3)).pviol 14 (8 + m)

/-- A master frame that another device sent, on the line the channel receives (R370-R374). A bad one is discarded, and answers to it are not of an earlier one. -/
def Node.mvbMaster (n : Node) (m fcode addr : Nat) (ok : Bool) : Node :=
  if !n.mvbOn m then n else
  let sel := n.rd (F.MVB_STATUS_RX_LINE m)
  let (_, n) := n.mvbLine m (if n.mvbLineOn m sel then sel else 1 - sel) ok
  let c := n.chan (8 + m)
  if !ok then (n.setChan (8 + m) { c with poll := none }).mvbBad m else
  let pd := decide (fcode ≤ 4) || fcode == 15
  let admin := n.on (F.MVB_CTRL_ADMIN m)
  let n := n.setChan (8 + m) { c with poll := if pd then some (fcode, addr) else none,
                                      conflict := c.conflict || admin, pollq := if admin then [] else c.pollq }
  let n := if admin && !c.conflict then ((n.put (F.MVB_STATUS_CONFLICT m) true).fault 13 1 m).pviol 16 (8 + m) else n
  if pd then
    match n.mvbAnswer m fcode addr with
    | (false, n) => n
    | (true, n) => n.setChan (8 + m) { n.chan (8 + m) with poll := none }
  else if admin then n
  else (n.inc (F.MVB_CNT_COUNT m 7)).pviol 15 (8 + m)

/-- A slave frame heard on a line (R368, R371, R374). -/
def Node.mvbSlave (n : Node) (m : Nat) (ok : Bool) (line : Nat) (data : List Byte) : Node :=
  if !n.mvbOn m ∨ 2 ≤ line then n else
  let (heard, n) := n.mvbLine m line ok
  if !heard then n else
  let c := n.chan (8 + m)
  let n := n.setChan (8 + m) { c with poll := none, lineAt := 0 }
  let n := match c.poll with
    | none => if ok then n else n.mvbBad m
    | some (f, a) => if !ok ∨ data.length ≠ fcodeBytes f then n.mvbBad m else n.mvbHear m f a data
  if n.mvbAdmin m then n.mvbPoll m 257 else n

/-- No reply within 42.7 us of the administrator's master frame (R372). -/
def Node.mvbNoReply (n : Node) (m : Nat) : Node :=
  if !n.mvbAdmin m ∨ (n.chan (8 + m)).poll.isNone then n
  else
    let n := (n.inc (F.MVB_CNT_COUNT m 2)).pviol 13 (8 + m)
    (n.setChan (8 + m) { n.chan (8 + m) with lineAt := 0 }).mvbPoll m 257

/-- A write of `MVBn.CTRL` (R370, R373, R376): ADMIN and DEVADDR keep their value while EN is 1. -/
def Node.mvbCtrl (n : Node) (m v : Nat) : Node :=
  let was := n.on (F.MVB_CTRL_EN m)
  let n := n.wrs [(F.MVB_CTRL_LINE_A m, bitsOf v 29 29), (F.MVB_CTRL_LINE_B m, bitsOf v 28 28)]
  let n := if was then n else n.wrs [(F.MVB_CTRL_ADMIN m, bitsOf v 30 30), (F.MVB_CTRL_DEVADDR m, bitsOf v 11 0)]
  if bitOf v 31 == was then n
  else if bitOf v 31 then
    let c := n.chan (8 + m)
    let n := (c.srcCells.map (·.2)).foldl (fun a l => a.returnCells l) n
    (n.setChan (8 + m) { n.chan (8 + m) with src := [], srcCells := [], lastSink := [], conflict := false, basic := 0, poll := none, pollq := [] }).put
      (F.MVB_CTRL_EN m) true
  else
    (n.setChan (8 + m) { n.chan (8 + m) with conflict := false, poll := none, pollq := [] }).put (F.MVB_CTRL_EN m) false

/-- A master frame arrives (10 R370). -/
def execMvbMasterFrame (ch fcode addr : Nat) (ok : Bool) (s : State) : Host.Outcome State Fault Refusal :=
  s.to (if ch < 2 then s.node.mvbMaster ch fcode addr ok else s.node)

/-- A slave frame arrives (10 R371). -/
def execMvbSlaveFrame (ch : Nat) (ok : Bool) (line : Nat) (bytes : List Byte) (s : State) : Host.Outcome State Fault Refusal :=
  s.to (if ch < 2 then s.node.mvbSlave ch ok line bytes else s.node)

/-- A basic period begins (10 R372). -/
def execMvbBasicPeriod (ch : Nat) (s : State) : Host.Outcome State Fault Refusal :=
  s.to (if ch < 2 then s.node.mvbPeriod ch else s.node)

/-- A reply is missing (10 R372). -/
def execMvbReplyTimeout (ch : Nat) (s : State) : Host.Outcome State Fault Refusal :=
  s.to (if ch < 2 then s.node.mvbNoReply ch else s.node)

end Sys2Proof.Machine
end

