-- ==== Sys2Proof/Machine/Time.lean ====
section
/-! DEFINITION. The time unit (09 R313-R345): node time, servo, states, steps, the PTP engine. The best master clock algorithm is that of IEEE 1588-2019 (PRESUMED, log entry 20). -/

namespace Sys2Proof.Machine

open Sys2Proof

/-! ### State codes (R326) and messages sent -/

/-- Kinds of PTP messages in the record of what the node sends. -/
def ptpSync : Nat := 0
def ptpFollowUp : Nat := 1
def ptpAnnounce : Nat := 2
def ptpPdelayReq : Nat := 3
def ptpPdelayResp : Nat := 4
def ptpDelayResp : Nat := 5

/-- The node's clock identity: the node identifier as EUI-64 (IEEE 1588-2019, PRESUMED, log entry 20). -/
def Node.ownClock (n : Node) : Nat := n.ident / 2 ^ 24 * 2 ^ 40 + 0xFFFE * 2 ^ 24 + n.ident % 2 ^ 24

/-- The PTP engine works on a port: the MAC of an active node that gives time service, with the link up and not barred (R321; 01 R39; 02 R66; 08 R287). -/
def Node.ptpOn (n : Node) (p : Nat) : Bool :=
  decide (p < 20) && n.mode == .active && n.serves && n.canTx p && !n.barred p && n.rd (F.TIM_PORT_ROLE p) != 0

/-- A port of role 802.1AS that works. -/
def Node.asPort (n : Node) (p : Nat) : Bool := n.ptpOn p && n.rd (F.TIM_PORT_ROLE p) == 1

/-- The port sends Sync and Announce: a master port (R321). -/
def Node.ptpMaster (n : Node) (p : Nat) : Bool :=
  n.ptpOn p && (n.rd (F.TIM_PORT_ROLE p) == 2 || n.rd (F.TIM_PORT_PSTATE p) == 2)

/-- Send a PTP message as a frame of the node's own. -/
def Node.sendPtp (n : Node) (p kind : Nat) (vals : List Int) : Node := n.ownSend p (.ptp kind vals)

/-- A PTP frame that comes by its row, which gives no bytes: what the model does not know of them is a free value (log entry 60). -/
def Node.ptpHeard (n : Node) : List Byte :=
  let b := Config.freeBytes n.freeN
  beBytes 6 0x0180C200000E ++ fit 6 b ++ beBytes 2 0x88F7 ++ fit (46 + Config.freeNat n.freeN % 1455) (b.drop 6)

/-- The MAC receives a PTP frame. -/
def Node.ptpMac (n : Node) (p : Nat) : MacOut × Node := { n with freeN := n.freeN + 1 }.rxMac p { bytes := n.ptpHeard }

/-- Send a Sync with the step TLV while one is carried; a Follow_Up with it where the port is two-step (R322, R333). -/
def Node.sendSync (n : Node) (p : Nat) : Node :=
  if !n.ptpMaster p then n else
  let x := n.ptp p
  let tlv : List Int := match n.clock.tlv with
    | none => []
    | some (d, q) => [d, (q : Int)]
  let v : List Int := [(x.txSeq : Int), (n.txTime p : Int)] ++ tlv
  let n := n.setPtp p { x with txSeq := (x.txSeq + 1) % 65536, syncDue := false }
  let n := n.sendPtp p ptpSync v
  if n.on (F.TIM_PORT_ONE_STEP p) then n else n.sendPtp p ptpFollowUp v

/-- The dataset the node announces: the selected grandmaster's, or its own (R331). -/
def Node.announceVals (n : Node) : List Int :=
  let own : List Int := [(n.rd F.TIM_CTRL_PRIORITY1 : Int), 248, 0xFE, 0xFFFF, (n.rd F.TIM_CTRL_PRIORITY2 : Int), (n.ownClock : Int), 0]
  if n.ptpParent = 31 then own else
  match (n.ptp n.ptpParent).ann with
  | none => own
  | some m => [(m.prio1 : Int), (m.cls : Int), (m.acc : Int), (m.var : Int), (m.prio2 : Int), (m.gm : Int), (m.steps + 1 : Int)]

def Node.sendAnnounce (n : Node) (p : Nat) : Node :=
  if n.ptpMaster p then n.sendPtp p ptpAnnounce n.announceVals else n

/-- Send a Pdelay_Req; three unanswered ones end asCapable (R324). -/
def Node.sendPdelay (n : Node) (p : Nat) : Node :=
  if !n.asPort p then n else
  let x := n.ptp p
  let miss := if x.reqT1.isSome then x.unanswered + 1 else 0
  let seq := (x.reqSeq + 1) % 65536
  let n := n.setPtp p { x with reqSeq := seq, reqT1 := some (n.txTime p), unanswered := miss }
  let n := if 3 ≤ miss then n.put (F.TIM_PORT_AS_CAPABLE p) false else n
  n.sendPtp p ptpPdelayReq [(seq : Int)]

/-! ### Steps (R330-R334, R341) -/

/-- Change node time by `d`: launches shift with it, gate schedules restart, PTP exchanges in progress are discarded, offsets before it are not consecutive to those after it, and timers fire anew at instants they reach again (R326, R327, R334, R341; 03 R91). -/
def Node.moveTime (n : Node) (d : Int) : Node :=
  let sh := fun t : Nat => ((t : Int) + d).toNat
  let now := sh n.clock.now
  let cl := { n.clock with now := now, stepAt := now, small := 0, moves := n.clock.moves + 1,
                           ports := n.clock.ports.map (fun e => (e.1, { e.2 with syncRx := none, reqT1 := none, ratioRef := none })) }
  let la := n.fab.launches.map (fun e => (e.1, e.2.map (fun c => { c with launch := c.launch.map sh })))
  { n with clock := cl, fab := { n.fab with launches := la } }

/-- A step applied: counted, announced in the TLV, and passed on with an extra Sync on each master port (R333). -/
def Node.step (n : Node) (d : Int) : Node :=
  let n := (n.moveTime d).bump F.TIM_STATUS_STEPS
  let q := (n.clock.stepSeq + 1) % 65536
  let n := { n with clock := { n.clock with stepSeq := q, tlv := some (d, q) } }
  (List.range 20).foldl (fun a p => a.sendSync p) n

/-- Whole nanoseconds of an offset. -/
def wholeNs (e : Int) : Int := e.tdiv (nsU : Int)

/-- Refuse an offset beyond the threshold (R330). -/
def Node.refuse (n : Node) (p : Nat) (e : Int) : Node :=
  let mag := e.natAbs
  let n := if n.on F.TIM_STATUS_STEP_REFUSED then n else
    n.wrs [(F.TIM_REFUSED_SLO_SEC_LO, secOf mag), (F.TIM_REFUSED_SHI_SEC_HI, secOf mag / 2 ^ 32),
      (F.TIM_REFUSED_SHI_SIGN, b2n (decide (e < 0))), (F.TIM_REFUSED_NS_NS, nsOf mag)]
  let n := { n with clock := { n.clock with held := some (p, e) } }
  let n := n.wrs [(F.TIM_STATUS_STEP_HELD, 1), (F.TIM_STATUS_HELD_PORT, p), (F.TIM_STATUS_STEP_REFUSED, 1)]
  (n.holdover 0).fault 6 1 (ofSigned 32 (clampS 32 (wholeNs e)))

/-- ACCEPT_STEP (R332): false where nothing is held. -/
def Node.acceptStep (n : Node) : Bool × Node :=
  match n.clock.held with
  | none => (false, n)
  | some (_, e) => (true, n.releaseStep.step (-e))

/-! ### Servo (R327) -/

def servoLimit : Int := 200000 * 256

def clampLim (v : Int) : Int := max (-servoLimit) (min v servoLimit)

/-- One measurement of `e` ns feeds the servo. -/
def Node.servo (n : Node) (e : Int) : Node :=
  let i := clampLim (n.clock.integ + (n.rd F.TIM_SERVO_KI : Int) * e)
  let y := clampLim ((n.rd F.TIM_SERVO_KP : Int) * e + i)
  ({ n with clock := { n.clock with integ := i, out := y, slew := 0 } }).showFreq

/-- Eight offsets in a row within 100 ns lock (R326). -/
def Node.lockCount (n : Node) (e : Int) : Node :=
  let k := if e.natAbs ≤ 100 then n.clock.small + 1 else 0
  let n := { n with clock := { n.clock with small := k } }
  if 8 ≤ k ∧ (n.timState = timAcquiring ∨ n.timState = timHoldover) then
    ({ n with clock := { n.clock with gmBefore := 0 } }).setTimState timLocked
  else n

/-- The threshold in units of 2^-16 ns. -/
def Node.stepThresh (n : Node) : Nat := n.rd F.TIM_STEP_THRESH_NS * nsU

/-- The allowance of R329 while a regained parent advertises the grandmaster of before. -/
def Node.allowance (n : Node) : Nat :=
  if n.timState = timHoldover ∧ n.clock.gmBefore ≠ 0 ∧ n.clock.gmBefore = n.clock.gm then
    n.stepThresh + 300 * (n.clock.fresh - n.clock.holdAt) / 1000000 * nsU
  else 0

/-- An offset measured on the slave port (R326-R333). -/
def Node.measure (n : Node) (p : Nat) (e : Int) (tlv : Option (Int × Nat)) : Node :=
  let ns := wholeNs e
  let n := n.wr F.TIM_OFFSET_NS (ofSigned 32 (clampS 32 ns))
  let th := n.stepThresh
  if n.timState = timFree then (n.moveTime (-e)).setTimState timAcquiring
  else if e.natAbs ≤ th then ((if n.clock.held.isSome then n.releaseStep else n).servo ns).lockCount ns
  else
    let inherits := match tlv with
      | some (d, _) => decide ((e + d).natAbs ≤ th)
      | none => false
    if inherits then ((n.releaseStep).bump F.TIM_STATUS_INHERITED).step (-e)
    else if n.clock.held.isSome then { n with clock := { n.clock with held := some (p, e) } }
    else if e.natAbs ≤ n.allowance then
      { n with clock := { n.clock with slew := e * 256000000000, small := 0 } }
    else n.refuse p e

/-! ### BMCA (R322, R326, R330, R331) -/

/-- Lexicographic order of two lists: the first is strictly better. -/
def lexLt : List Nat → List Nat → Bool
  | [], _ => false
  | _, [] => false
  | a :: s, b :: t => decide (a < b) || (decide (a = b) && lexLt s t)

/-- The dataset of an Announce in comparison order. -/
def annKey (p : Nat) (m : PtpMsg) : List Nat := [m.prio1, m.cls, m.acc, m.var, m.prio2, m.gm, m.steps, m.src, p]

/-- The node's own dataset in comparison order. -/
def Node.ownKey (n : Node) : List Nat :=
  [n.rd F.TIM_CTRL_PRIORITY1, 248, 0xFE, 0xFFFF, n.rd F.TIM_CTRL_PRIORITY2, n.ownClock, 0, n.ownClock, 0]

/-- The best port that has an Announce: asCapable ports of role 802.1AS. -/
def Node.bestPort (n : Node) : Option (Nat × PtpMsg) :=
  (List.range 20).foldl (fun b p =>
    match (n.ptp p).ann with
    | none => b
    | some m =>
      if !(n.asPort p && n.on (F.TIM_PORT_AS_CAPABLE p)) then b else
      match b with
      | none => some (p, m)
      | some (q, x) => if lexLt (annKey p m) (annKey q x) then some (p, m) else b) none

/-- A port takes a state; one that becomes master sends the Sync of its link-up (R324). -/
def Node.setPState (n : Node) (p v : Nat) : Node :=
  let n := n.wr (F.TIM_PORT_PSTATE p) v
  if v = 2 ∧ (n.ptp p).syncDue then n.sendSync p else n

/-- States of the other ports: master where what this node announces is better than what the port hears, passive otherwise. -/
def Node.portStates (n : Node) (key : List Nat) : Node :=
  (List.range 20).foldl (fun a p =>
    if !a.asPort p ∨ a.ptpParent = p then a else
    match (a.ptp p).ann with
    | none => a.setPState p 2
    | some m => a.setPState p (if lexLt key (annKey p m) then 2 else 4)) n

/-- Another grandmaster is selected: a REPORT of an open round carries it, and goes again (R331; 08 R277, R285). -/
def Node.setGm (n : Node) (g : Nat) : Node :=
  if n.clock.gm = g then n else { n with clock := { n.clock with gm := g } }.refreshReport

/-- Select this node as grandmaster (R326, R328). -/
def Node.becomeGrand (n : Node) : Node :=
  let n := if n.timState = timGrand then n else
    ((n.releaseStep.wr F.TIM_STATUS_PARENT 31).setTimState timGrand).holdRate
  (n.setGm n.ownClock).portStates n.ownKey

/-- Select port `p` as slave (R326, R330, R331). -/
def Node.becomeSlave (n : Node) (p : Nat) (m : PtpMsg) : Node :=
  let old := n.ptpParent
  let n := if old = p then n else
    let n := match n.clock.held with
      | some (q, _) => if q = p then n else n.releaseStep
      | none => n
    (n.wr F.TIM_STATUS_PARENT p).wr (F.TIM_PORT_PSTATE p) 3
  let n := if n.timState = timGrand then n.holdover 0 else n
  let n := n.setGm m.gm
  n.portStates [m.prio1, m.cls, m.acc, m.var, m.prio2, m.gm, m.steps + 1, n.ownClock, 0]

/-- Run the BMCA. -/
def Node.bmca (n : Node) : Node :=
  match n.bestPort with
  | none => if n.on F.TIM_CTRL_GM_CAPABLE then n.becomeGrand else n
  | some (p, m) =>
    if n.on F.TIM_CTRL_GM_CAPABLE && lexLt n.ownKey (annKey p m) then n.becomeGrand else n.becomeSlave p m

/-! ### Links and gears (R324, R325) -/

/-- A link came up: the port listens; a port of role 802.1AS sends an Announce, a Pdelay_Req and, once it is master, a Sync outside their intervals (R324). -/
def Node.ptpLinkUp (n : Node) (p : Nat) : Node :=
  if !n.ptpOn p then n else
  let as := n.asPort p
  let n := n.setPtp p { syncDue := as }
  let n := n.wr (F.TIM_PORT_PSTATE p) (if !as then 2 else if n.timState = timGrand then 2 else 1)
  if as then ((n.sendPtp p ptpAnnounce n.announceVals).sendPdelay p).sendSync p else n

/-- A link went down. -/
def Node.ptpLinkDown (n : Node) (p : Nat) : Node := if 20 ≤ p then n else n.ptpOff p

/-- A gear-change silence has ended: exchanges that spanned it are discarded, one extra Pdelay_Req goes (R325). -/
def Node.ptpGear (n : Node) (p : Nat) : Node :=
  (n.setPtp p { n.ptp p with syncRx := none, reqT1 := none }).sendPdelay p

/-! ### Messages -/

/-- Coupler asymmetry of a backbone port at its rate (R318). -/
def Node.asymmetry (n : Node) (p : Nat) : Int :=
  if p < 4 then toSigned 32 (n.rd (F.TIM_ASYM_CPL_CONST p (n.rd (F.PRT_STATUS_RATE p) - 1))) else 0

/-- Own time of reception minus parent time of origin and the path (R318, R327). -/
def Node.offsetOf (n : Node) (p : Nat) (t2 : Nat) (origin corr : Int) : Int :=
  (t2 : Int) - (origin + corr + (n.ptp p).delay + n.asymmetry p)

/-- A Sync: measured at once when one-step, else kept for its Follow_Up (R322, R327). -/
def Node.syncRx (n : Node) (p : Nat) (m : PtpMsg) : Node :=
  if !n.ptpOn p then n
  else if !m.ok then n.pviol 5 p
  else if n.ptpParent ≠ p then n
  else if m.twoStep then n.setPtp p { n.ptp p with syncRx := some (m.seq, n.rxTime p), syncTlv := m.tlv }
  else n.measure p (n.offsetOf p (n.rxTime p) m.origin m.corr) m.tlv

/-- A Follow_Up completes the Sync it matches; another is a violation (13 R467 kind 6). -/
def Node.followUp (n : Node) (p : Nat) (m : PtpMsg) : Node :=
  if !n.ptpOn p then n
  else if !m.ok then n.pviol 5 p
  else if n.ptpParent ≠ p then n
  else
    match (n.ptp p).syncRx with
    | none => n.pviol 6 p
    | some (q, t2) =>
      if q ≠ m.seq then n.pviol 6 p else
      let tlv := if m.tlv.isSome then m.tlv else (n.ptp p).syncTlv
      let n := n.setPtp p { n.ptp p with syncRx := none, syncTlv := none }
      n.measure p (n.offsetOf p t2 m.origin m.corr) tlv

/-- An Announce feeds the BMCA. -/
def Node.announceRx (n : Node) (p : Nat) (m : PtpMsg) : Node :=
  if !n.asPort p then n
  else if !m.ok then n.pviol 5 p
  else (n.setPtp p { n.ptp p with ann := some m }).bmca

/-- A Pdelay_Req is answered with its receive and transmit times (R321, R324). -/
def Node.pdelayReqRx (n : Node) (p : Nat) (m : PtpMsg) : Node :=
  if !n.asPort p then n
  else if !m.ok then n.pviol 5 p
  else n.sendPtp p ptpPdelayResp [(m.seq : Int), (n.rxTime p : Int), (n.txTime p : Int)]

/-- A Delay_Req on a port of the 1588 role is answered with its receive time (R321). The table has no row for it, so it comes as a frame; `m` is the PTP message in the layout of IEEE 1588-2019: type 1, version 2, domain, source port identity, sequence (PRESUMED, log entry 20). -/
def Node.delayReqRx (n : Node) (p : Nat) (m : List Byte) : Node :=
  if n.ptpOn p && n.rd (F.TIM_PORT_ROLE p) == 2 && byteAt m 0 % 16 == 1 && byteAt m 1 % 16 == 2 &&
      byteAt m 4 == n.rd F.TIM_CTRL_DOMAIN && decide (44 ≤ m.length) then
    n.sendPtp p ptpDelayResp [(beAt m 30 2 : Int), (n.rxTime p : Int), (beAt m 20 10 : Int)]
  else n

/-- The neighbour rate ratio less 1, in 2^-41, from two responses: their transmit times by the neighbour's clock over their receive times by the node's (R325; IEEE 802.1AS-2020, PRESUMED, log entry 20). -/
def ratioOf (ref : Option (Int × Nat)) (t3 : Int) (t4 : Nat) (old : Int) : Int :=
  match ref with
  | none => old
  | some (a, b) => if b < t4 then ((t3 - a) * 2 ^ 41).tdiv ((t4 : Int) - b) - 2 ^ 41 else old

/-- The mean path delay in the neighbour's time: half of what the exchange took here, at the neighbour's rate, less what it took there (R321, R325). -/
def meanDelay (t1 t4 : Nat) (t2 t3 ratio : Int) : Int :=
  let d := (t4 : Int) - (t1 : Int)
  (d + (d * ratio).tdiv (2 ^ 41) - (t3 - t2)).tdiv 2

/-- A Pdelay_Resp gives the mean path delay and the neighbour rate ratio; asCapable within neighborPropDelayThresh, a change of which the BMCA follows at once; after the first one a Pdelay_Req goes again 2 ms later (R322, R324, R325, R326). -/
def Node.pdelayRespRx (n : Node) (p : Nat) (m : PtpMsg) : Node :=
  if !n.asPort p then n
  else if !m.ok then n.pviol 5 p
  else
    let x := n.ptp p
    match x.reqT1 with
    | none => n.pviol 6 p
    | some t1 =>
      if m.seq ≠ x.reqSeq then n.pviol 6 p else
      let t4 := n.rxTime p
      let r := ratioOf x.ratioRef m.t3 t4 x.ratio
      let d := meanDelay t1 t4 m.t2 m.t3 r
      let n := n.setPtp p { x with reqT1 := none, unanswered := 0, responses := x.responses + 1, delay := d, ratio := r,
                                   ratioRef := some (m.t3, t4), again := if x.responses = 0 then some (n.clock.fresh + 2000) else x.again }
      let was := n.on (F.TIM_PORT_AS_CAPABLE p)
      let n := n.wrs [(F.TIM_PORT_PDELAY p, min (d.toNat / nsU) (2 ^ 24 - 1)), (F.TIM_PORT_AS_CAPABLE p, b2n (decide (d ≤ 2000 * (nsU : Int))))]
      if was == n.on (F.TIM_PORT_AS_CAPABLE p) then n else n.bmca

/-- A message interval of a port expires: 0 Sync, 1 Announce, 2 Pdelay_Req (R322). -/
def Node.ptpInterval (n : Node) (p kind : Nat) : Node :=
  if !n.ptpOn p then n
  else if kind = 0 then n.sendSync p
  else if kind = 1 then n.bmca.sendAnnounce p
  else if kind = 2 then n.sendPdelay p else n

/-- An announce or sync receipt timeout on a port (R326), also of the parent of a node whose time service has ended (01 R39). -/
def Node.receiptTimeout (n : Node) (p : Nat) : Node :=
  if !n.asPort p ∧ n.ptpParent ≠ p then n else
  (n.setPtp p { n.ptp p with ann := none, syncRx := none }).parentLost p

/-- SET (R345): RESULT and the node. -/
def Node.timeSet (n : Node) : Nat × Node :=
  if n.timState ≠ timFree ∧ n.timState ≠ timGrand then (2, n)
  else if 10 ^ 9 ≤ n.rd F.TIM_SET_NS_NS then (3, n)
  else
    let t := timeOf (n.rd F.TIM_SET_SLO_SEC_LO + 2 ^ 32 * n.rd F.TIM_SET_SHI_SEC_HI) (n.rd F.TIM_SET_NS_NS)
    let d := (t : Int) - (n.clock.now : Int)
    if n.timState = timFree then (0, (n.moveTime d).setTimState timAcquiring) else (0, n.step d)

/-- The standby aligns to the active node by an offset `e` of own minus active time (R316; 12 R417). -/
def Node.alignTime (n : Node) (e : Int) : Node :=
  if n.timState = timFree then (n.moveTime (-e)).setTimState timAcquiring
  else if n.stepThresh < e.natAbs then n.moveTime (-e)
  else (n.servo (wholeNs e)).lockCount (wholeNs e)

/-- A node that takes over keeps its time in HOLDOVER with nothing held (R316). -/
def Node.timeTakeover (n : Node) : Node :=
  ((n.releaseStep).wr F.TIM_STATUS_PARENT 31).holdover 0

/-! ### The clock -/

/-- The receive side of a port with EEE agreed: whether the partner is in low-power idle is a free value each microsecond, since the table has no row for it (07 R248; log entry 73); its entries are counted (07 R255). -/
def Node.lpiRx (n : Node) (p : Nat) : Node :=
  if !(n.port p).eee then n else
  let was := n.on (F.PRT_STATUS_LPI_RX p)
  let (v, n) := n.free
  let now := v % 2 == 1
  (n.put (F.PRT_STATUS_LPI_RX p) now).cntAdd p 30 (b2n (now && !was))

/-- Microseconds counted while a class is paused or a side of the port is in low-power idle (07 R242, R255). -/
def Node.portMicros (n : Node) : Node :=
  (List.range 20).foldl (fun a p =>
    let a := a.lpiRx p
    let a := a.cntAdd p 55 (b2n (a.rd (F.PRT_STATUS_PAUSED p) != 0))
    (a.cntAdd p 57 (a.rd (F.PRT_STATUS_LPI_TX p))).cntAdd p 31 (a.rd (F.PRT_STATUS_LPI_RX p))) n

/-- The Pdelay_Req that repeats 2 ms after the first response (R324). -/
def Node.ptpAgain (n : Node) : Node :=
  (n.clock.ports.filter (fun e => match e.2.again with
    | some t => decide (t ≤ n.clock.fresh)
    | none => false)).foldl (fun a e => (a.setPtp e.1 { a.ptp e.1 with again := none }).sendPdelay e.1) n

/-- The uncorrectable errors of banks in the last 24 h, as UE24 shows them (06 R224, R231). -/
def Node.showUe (n : Node) (b : Nat) : Node :=
  n.wr (F.FAB_BANK_UE24 b) (min 255 ((n.fab.ueAt.filter (fun e => e.1 == b)).length))

/-- Uncorrectable errors older than 24 h leave the count of their bank. -/
def Node.ageUe (n : Node) : Node :=
  let stays := fun e : Nat × Nat => decide (n.clock.fresh < e.2 + 86400000000)
  let gone := n.fab.ueAt.filter (fun e => !stays e)
  if gone.isEmpty then n else
  gone.foldl (fun a e => a.showUe e.1) { n with fab := { n.fab with ueAt := n.fab.ueAt.filter stays } }

/-- CAN channels that integrate: when 11 recessive bits have passed is the bus's matter, a free value each microsecond (10 R363, R375; log entry 8). -/
def Node.canJoin (n : Node) : Node :=
  (List.range 8).foldl (fun a ch =>
    if !(a.chan ch).joining then a else
    let (v, a) := a.free
    a.setChan ch { a.chan ch with joining := v % 2 == 0 }) n

/-- An hour of the freshness clock starts: corrected errors of banks are counted anew (06 R224, R231). -/
def Node.bankHour (n : Node) : Node := (List.range 26).foldl (fun a b => a.wr (F.FAB_BANK_CE_HOUR b) 0) n

/-- A minute has passed: count it while the rail is above 70 degrees (15 R532). -/
def Node.hotMinute (n : Node) : Node :=
  if 70 < toSigned 8 (n.rd F.PWR_TEMP_WALL) then n.inc F.PWR_TEMP_HOT_MIN else n

/-- One TIM cycle: 4 ns of node time less the correction and a slew of 100 ppm, and the freshness clock (R313, R327, R329; 03 R87). -/
def Node.tick (n : Node) : Node :=
  if n.mode = .off then n else
  let c := n.clock
  let lim : Int := 262144 * 25600000
  let s := max (-lim) (min c.slew lim)
  let t : Int := 262144 * 256000000000 - 262144 * c.out - s + c.sub
  let us := c.freshSub + 1 == 250
  let c := { c with now := c.now + (t / 256000000000).toNat, sub := t % 256000000000, slew := c.slew - s, cycles := c.cycles + 1,
                    fresh := if us then c.fresh + 1 else c.fresh, freshSub := if us then 0 else c.freshSub + 1 }
  let n := { n with clock := c }
  let n := if us ∧ c.fresh % 60000000 = 0 then n.hotMinute else n
  if us && n.dataOn then
    let n := if n.clock.fresh % 3600000000 = 0 then n.bankHour else n
    n.ageUe.portMicros.canJoin.ptpAgain
  else n

/-! ### Meanings -/

/-- A PTP frame that comes by its row: received by the MAC of a port that receives, passed to the line's other end at L1 without the topology engine, discarded on a barred port, else given to `rx` (07 R255; R323; 08 R284, R287). -/
def Node.ptpRow (n : Node) (p : Nat) (rx : Node → Node) : Node :=
  if !(decide (p < 20) && n.receives p) then n else
  match n.ptpMac p with
  | (.dropped, n) => n
  | (.good b oversize, n) =>
    if p < 4 ∧ n.level = 1 ∧ !n.topoWorks then n.transit b p oversize
    else if n.barred p then (n.disc 11).bounce 1
    else rx n

/-- Sync (R327). -/
def execSync (port : Nat) (msg : PtpMsg) (s : State) : Host.Outcome State Fault Refusal :=
  s.to (s.node.ptpRow port (fun n => n.syncRx port msg))

/-- Follow_Up (R327). -/
def execFollowUp (port : Nat) (msg : PtpMsg) (s : State) : Host.Outcome State Fault Refusal :=
  s.to (s.node.ptpRow port (fun n => n.followUp port msg))

/-- Announce (R326). -/
def execAnnounce (port : Nat) (msg : PtpMsg) (s : State) : Host.Outcome State Fault Refusal :=
  s.to (s.node.ptpRow port (fun n => n.announceRx port msg))

/-- Pdelay_Req (R324). -/
def execPdelayReq (port : Nat) (msg : PtpMsg) (s : State) : Host.Outcome State Fault Refusal :=
  s.to (s.node.ptpRow port (fun n => n.pdelayReqRx port msg))

/-- Pdelay_Resp (R324). -/
def execPdelayResp (port : Nat) (msg : PtpMsg) (s : State) : Host.Outcome State Fault Refusal :=
  s.to (s.node.ptpRow port (fun n => n.pdelayRespRx port msg))

/-- A PTP message interval (R322). -/
def execPtpMessageInterval (port kind : Nat) (s : State) : Host.Outcome State Fault Refusal := s.to (s.node.ptpInterval port kind)

/-- A receipt timeout (R326). -/
def execReceiptTimeout (port : Nat) (s : State) : Host.Outcome State Fault Refusal := s.to (s.node.receiptTimeout port)

/-- The step TLV ends (R333). -/
def execStepTlvEnd (s : State) : Host.Outcome State Fault Refusal :=
  s.to { s.node with clock := { s.node.clock with tlv := none } }

end Sys2Proof.Machine
end

