-- ==== Sys2Proof/Machine/Ports.lean ====
section
/-! DEFINITION. Ports, MACs and the backbone line (07): the receive MAC, flow control, preemption verify, energy-efficient Ethernet, link start and gears; the egress commands of the fabric (06 R213, R217, R221, R223). -/

namespace Sys2Proof.Machine

open Sys2Proof

/-! ### Flow control (R236, R241-R244) -/

/-- A PAUSE (0001h) or PFC (0101h) frame: its opcode (R236). -/
def pauseOp (b : List Byte) : Option Nat :=
  if beAt b 12 2 = 0x8808 ∧ (beAt b 14 2 = 1 ∨ beAt b 14 2 = 0x0101) then some (beAt b 14 2) else none

/-- Pause requests of a frame: (class, quanta) (R241). -/
def pauseReqs (b : List Byte) (op : Nat) : List (Nat × Nat) :=
  if op = 1 then (List.range 8).map (fun c => (c, beAt b 16 2))
  else ((List.range 8).filter (fun c => bitOf (beAt b 16 2) c)).map (fun c => (c, beAt b (18 + 2 * c) 2))

/-- A class's pause starts with a length of quanta times 512 bit times at the port's rate, or ends at a time of zero (R241, R243). -/
def Node.pauseClass (n : Node) (p c q : Nat) : Node :=
  let r := n.mbps p
  let len := if r = 0 then 0 else q * 512 * 1000 * nsU / r
  let n := n.setPort p { n.port p with pauseT := FMap.put 0 (n.port p).pauseT c len }
  n.wr (F.PRT_STATUS_PAUSED p) (setBit (n.rd (F.PRT_STATUS_PAUSED p)) c (q != 0))

/-- Act on a PAUSE or PFC frame (R236, R241-R244). -/
def Node.pauseFrame (n : Node) (p : Nat) (b : List Byte) (op : Nat) : Node :=
  let n := n.cntAdd p (if op = 1 then 5 else 6) 1
  let ex := n.on (F.PRT_CTRL_EXEMPT p)
  let reqs := pauseReqs b op
  let keep := reqs.filter (fun x => !(ex && decide (6 ≤ x.1)))
  let n := if keep.length < reqs.length then (n.inc (F.PRT_FLOWCNT_IGNORED p)).cntAdd p 27 1 else n
  keep.foldl (fun a x => a.pauseClass p x.1 x.2) n

/-- A PAUSE or PFC frame arrives (R241). -/
def Node.pauseRx (n : Node) (p : Nat) (f : WireFrame) : Node :=
  if !(decide (p < 20) && n.receives p) then n else
  match n.rxMac p f with
  | (.dropped, n) => n
  | (.good b _, n) =>
    match pauseOp b with
    | some op => n.pauseFrame p b op
    | none => n

/-! ### Preemption (R237, R238) -/

/-- Kinds of what the PHYs and MACs exchange outside frames, in the record of what the node sends. -/
def oamCapability : Nat := 1
def oamGearReq : Nat := 2
def oamGearAck : Nat := 3
def oamGearNak : Nat := 4
def oamVerify : Nat := 5
def oamRespond : Nat := 6

/-- The port offers frame preemption (R237). -/
def Node.canPreempt (n : Node) (p : Nat) : Bool :=
  (decide (p < 4) && !n.on (F.BBL_STATUS_COMPAT (lineOf p) (endOf p))) || (decide (16 ≤ p) && decide (p < 20))

/-- Preemption starts anew: at link-up, and when its enables are written on a link that is up (R238). -/
def Node.verifyStart (n : Node) (p : Nat) : Node :=
  if !(n.canPreempt p && n.linkUp p && n.on (F.PRT_CTRL_PREEMPT_EN p)) then
    (n.wr (F.PRT_STATUS_PREEMPT p) 0).setPort p { n.port p with verify := 0 }
  else if n.on (F.PRT_CTRL_VERIFY_DIS p) then (n.wr (F.PRT_STATUS_PREEMPT p) 2).setPort p { n.port p with verify := 0 }
  else ((n.wr (F.PRT_STATUS_PREEMPT p) 1).setPort p { n.port p with verify := 1 }).emit (.oam p oamVerify [])

/-- VERIFY_TIME elapses (R238). -/
def Node.verifyTimer (n : Node) (p : Nat) : Node :=
  let k := (n.port p).verify
  if 20 ≤ p ∨ n.rd (F.PRT_STATUS_PREEMPT p) ≠ 1 then n
  else if k < 3 then (n.setPort p { n.port p with verify := k + 1 }).emit (.oam p oamVerify [])
  else (n.wr (F.PRT_STATUS_PREEMPT p) 3).cntAdd p 51 1

/-! ### Energy-efficient Ethernet (R247, R248) -/

/-- Nothing waits on the port. -/
def Node.portIdle (n : Node) (p : Nat) : Bool :=
  (List.range 8).all (fun c => (n.egQueue p c).isEmpty) && (FMap.get [] n.fab.launches p).isEmpty &&
    (n.port p).tx.isNone && (n.port p).susp.isNone && (n.port p).own.isEmpty

/-- PFC is to be sent on the port (06 R217). -/
def Node.pfcWaits (n : Node) (p : Nat) : Bool := (List.range 8).any (fun c => (n.pfcDue p c).isSome)

/-- The port enters low-power idle (R247). -/
def Node.lpiEntry (n : Node) (p : Nat) : Node :=
  if 4 ≤ p ∧ p < 16 ∧ n.linkUp p ∧ n.on (F.PRT_CTRL_EEE_EN p) ∧ (n.port p).eee ∧ n.portIdle p ∧ !n.pfcWaits p ∧ n.gateCycle p = 0 ∧
      !n.on (F.PRT_STATUS_LPI_TX p) then
    (n.put (F.PRT_STATUS_LPI_TX p) true).cntAdd p 56 1
  else n

/-- The wake that a queued frame started is complete (R248); PFC that waited goes first, then frames of the node's own. -/
def Node.lpiWake (n : Node) (p : Nat) : Node :=
  if p < 20 ∧ n.on (F.PRT_STATUS_LPI_TX p) ∧ (!n.portIdle p ∨ n.pfcWaits p) then ((n.put (F.PRT_STATUS_LPI_TX p) false).pfcUpd p).ownFlush p else n

/-! ### Link start (R258, R259) -/

/-- The gear register of a backbone port. -/
def bblGear (p : Nat) : Fld := F.BBL_STATUS_GEAR (lineOf p) (endOf p)

/-- The port runs in compatibility mode: as set, or in auto mode as detected (R258). -/
def Node.compat (n : Node) (p : Nat) : Bool :=
  let m := n.rd (F.BBL_MODE_MODE (lineOf p) (endOf p))
  m == 1 || (m == 2 && n.on (F.BBL_STATUS_COMPAT (lineOf p) (endOf p)))

/-- Send a capability record (R259). -/
def Node.sendCap (n : Node) (p : Nat) : Node :=
  (n.setPort p { n.port p with capN := (n.port p).capN + 1 }).emit (.oam p oamCapability [])

/-- The two records are exchanged: HITLESS, the first HELLO, and a REPORT whose content this changes (R259; 08 R278, R285, R298). -/
def Node.capDone (n : Node) (p : Nat) : Node :=
  let n := n.put (F.BBL_STATUS_HITLESS (lineOf p) (endOf p)) true
  ((n.setTopPort p { n.topPort p with rxEpoch := n.epoch, rxPrev := n.epoch }).sendHello p).refreshReport

/-- The partner's capability record arrives (R259). -/
def Node.capRx (n : Node) (p : Nat) : Node :=
  if !(decide (p < 4) && n.nativeUp p) ∨ (n.port p).capGot ∨ 10 < (n.port p).capN then n else
  let n := n.setPort p { n.port p with capGot := true }
  if 0 < (n.port p).capN then n.capDone p else n

/-- A 100 us period of the capability exchange; after 1 ms without a reply it ends (R259). -/
def Node.capTimer (n : Node) (p : Nat) : Node :=
  if !(decide (p < 4) && n.nativeUp p) ∨ 10 < (n.port p).capN then n
  else if (n.port p).capGot then
    (if n.hitless p then n else (n.sendCap p).capDone p)
  else if (n.port p).capN < 10 then n.sendCap p
  else n.setPort p { n.port p with capN := 11 }

/-- The rate codes a port may come up at (R246, R258, R259). -/
def Node.rateOk (n : Node) (p rate : Nat) : Bool :=
  if p < 4 then (if n.compat p then rate == 1 else rate == 2)
  else if p < 16 then decide (1 ≤ rate) && decide (rate ≤ 3)
  else decide (p < 20) && rate == 5

/-- A backbone PHY has trained: its channel coefficients at the gear are the line's own, a free value (R259; 12 R423; log entry 116). -/
def Node.trainPhy (n : Node) (p : Nat) : Node :=
  { n with freeN := n.freeN + 1 }.setPort p { n.port p with coef := (Config.freeBytes n.freeN).take 4096 }

/-- Forwarding resumes after a takeover: at L1 or above, with a line up at each vehicle end at which the directory records a neighbour, not before 25 ms from t0; the gap ends, and what a link that comes up makes the node send goes now (12 R431-R433; log entry 120). -/
def Node.gapEnd (n : Node) : Node :=
  match n.pair.gapAt with
  | none => n
  | some t =>
    let lineUp := fun (e : Nat) => !(n.topPort (2 * e)).recSet || n.linkUp (2 * e) || n.linkUp (2 * e + 1)
    if n.mode = .active ∧ 1 ≤ n.level ∧ t + 25000 ≤ n.clock.fresh ∧ lineUp 0 ∧ lineUp 1 then
      let gap := min 65535 ((n.clock.fresh - t) / 10)
      let n := ({ n with pair := { n.pair with gapAt := none } }.wr F.PAIR_GAP_LAST gap).fault 3 7 gap
      let n := (List.range 20).foldl (fun a p => if a.linkUp p then (a.ptpLinkUp p).pfcUpd p else a) n
      [0, 1, 2, 3].foldl (fun a p => a.sendHello p) n
    else n

/-- A consist link comes up or goes down at a PHY that holds it in low-power idle, without the data island or in a drill (12 R408, R442). -/
def Node.heldLink (n : Node) (p rate : Nat) : Node :=
  if 4 ≤ p ∧ p < 16 ∧ n.mode ≠ .off then { n with pair := { n.pair with links := FMap.put 0 n.pair.links p rate } } else n

/-- The data island serves its links: powered, and not in a drill (12 R442). -/
def Node.linksServed (n : Node) : Bool := n.dataOn && n.mode != .drill

/-- A link comes up (R259); whether the partner agrees to EEE is its own, a free value (R247; log entry 73). -/
def Node.linkComes (n : Node) (p rate : Nat) : Node :=
  if !n.linksServed then (if n.rateOk p rate then n.heldLink p rate else n)
  else if !( n.rateOk p rate && n.joined p) ∨ n.on (F.PRT_STATUS_LINK p) then n else
  let n := n.wrs [(F.PRT_STATUS_LINK p, 1), (F.PRT_STATUS_RATE p, rate)]
  let n := { n with pair := { n.pair with cut := n.pair.cut.filter (fun q => q != p) } }
  let (v, n) := n.free
  let n := n.setPort p { n.port p with capN := 0, capGot := false, shift := none, wanted := none, pauseT := [],
                                       eee := decide (4 ≤ p) && decide (p < 16) && v % 2 == 1 }
  let n := if p < 4 then
      let n := n.trainPhy p
      let c := n.compat p
      let n := n.wrs [(F.BBL_STATUS_LINK (lineOf p) (endOf p), 1), (bblGear p, if c then 5 else 1),
        (F.BBL_STATUS_COMPAT (lineOf p) (endOf p), b2n c), (F.BBL_STATUS_HITLESS (lineOf p) (endOf p), 0)]
      if c then n else n.sendCap p
    else n
  let n := n.verifyStart p
  let n := n.topoLink p true
  ((n.ptpLinkUp p).pfcUpd p).gapEnd

/-- A link goes down: everything queued to it is flushed, and the chain relay knows no partner on it (06 R204; 07 R264; 08 R282; 13 R471). -/
def Node.linkGoes (n : Node) (p : Nat) : Node :=
  if !n.linksServed then n.heldLink p 0
  else if 20 ≤ p ∨ !n.on (F.PRT_STATUS_LINK p) then n else
  let n := n.cntAdd p 62 1
  let n := n.wrs [(F.PRT_STATUS_LINK p, 0), (F.PRT_STATUS_RATE p, 0), (F.PRT_STATUS_PREEMPT p, 0), (F.PRT_STATUS_LPI_TX p, 0),
    (F.PRT_STATUS_LPI_RX p, 0), (F.PRT_STATUS_PAUSED p, 0)]
  let n := if p < 4 then n.wrs [(F.BBL_STATUS_LINK (lineOf p) (endOf p), 0), (bblGear p, 0),
      (F.BBL_STATUS_COMPAT (lineOf p) (endOf p), 0), (F.BBL_STATUS_HITLESS (lineOf p) (endOf p), 0),
      (F.BBL_STATUS_SHIFTING (lineOf p) (endOf p), 0), (F.BBL_STATUS_MARGIN (lineOf p) (endOf p), 0),
      (F.BBL_STATUS_LOAD (lineOf p) (endOf p), 0)] else n
  let n := n.flushPort p
  let n := n.setPort p { n.port p with shift := none, wanted := none, mark := none, own := [], relayQ := [], relayAt := 0, pauseT := [], verify := 0, capN := 0,
                                       capGot := false, eee := false, pfcSent := 0 }
  let r := FMap.get {} n.flash.relays p
  let n := { n with flash := { n.flash with relays := FMap.put {} n.flash.relays p { got := r.got } } }
  (n.ptpLinkDown p).topoLink p false

/-- Backbone links whose PHYs the relays have disconnected go down; from the disconnection on nothing passes them (R266). -/
def Node.dropLinks (n : Node) : Node :=
  (List.range 4).foldl (fun a p => if a.linkUp p then a else a.linkGoes p) n

/-! ### Gears (R260-R265) -/

/-- Capacity of a gear in Mbit/s. -/
def gearCap (g : Nat) : Nat := ([0, 1000, 2500, 5000, 10000] : List Nat).getD g 0

/-- Gear `g` is allowed on the port; 1 Gbit/s always is (R260). -/
def Node.gearAllowed (n : Node) (p g : Nat) : Bool :=
  g == 1 || (decide (2 ≤ g) && decide (g ≤ 4) && bitOf (n.rd (F.BBL_MODE_ALLOWED (lineOf p) (endOf p))) (g - 2))

/-- Entry `i` goes on the window of the entry before it (06 R215). -/
def Node.gateGoesOn (n : Node) (p i : Nat) : Bool :=
  let (s, _, o, f) := n.gateEntry p i
  let (s', l', o', f') := n.gateEntry p (i - 1)
  i != 0 && l' != 0 && s == s' + l' && o == o' && f == f'

/-- Qualifying free windows of a port: start and length in ns, consecutive entries as one (R261; 06 R215). -/
def Node.freeWindows (n : Node) (p : Nat) : List (Nat × Nat) :=
  (List.range 64).filterMap (fun i =>
    let (s, l, _, f) := n.gateEntry p i
    let e := n.gateEnd p 64 i
    if l ≠ 0 ∧ f ∧ 200000 ≤ e - s ∧ !n.gateGoesOn p i then some (s, e - s) else none)

/-- The first qualifying start at or after node time `t`: any instant where the port has no schedule (R261). -/
def Node.nextFree (n : Node) (p t : Nat) : Option Nat :=
  let g := n.gateCycle p * nsU
  if g = 0 then some t else
  let cs := t - t % g
  (n.freeWindows p).foldl (fun a w =>
    let x := cs + w.1 * nsU
    let x := if x < t then x + g else x
    match a with
    | none => some x
    | some y => some (min x y)) none

def usU : Nat := 1000 * nsU

/-- No shift of R261 starts: from agreement until 50 ms after T_commit. -/
def Node.gearBarred (n : Node) : Bool := n.inaug.confirmed || n.inaug.sched.isSome || n.inGrace

/-- The 200 us from `t` on lie in a qualifying free window (R262). -/
def Node.inFree (n : Node) (p t : Nat) : Bool :=
  let g := n.gateCycle p * nsU
  if g = 0 then true else
  let o := t % g
  (n.freeWindows p).any (fun w => decide (w.1 * nsU ≤ o) && decide (o + 200000 * nsU ≤ (w.1 + w.2) * nsU))

/-- The start to propose: the first window start of the port at or after 50 us from now, or, after a NAK, the first instant that qualifies at both ends, the partner's start `t` itself where it does here (R262). -/
def Node.gearStart (n : Node) (p t : Nat) : Option Nat :=
  let t' := max t (n.clock.now + 50 * usU)
  if t = t' ∧ n.inFree p t then some t else n.nextFree p t'

/-- Send GEAR_REQ for a start at or after `t`, or hold the shift until a window is found (R261, R262). -/
def Node.gearRequest (n : Node) (p : Nat) (sh : Shift) (t : Nat) : Node :=
  let start := if n.gearBarred then none else n.gearStart p t
  match start with
  | some s =>
    if s ≤ n.clock.now + 100000 * usU then
      (n.setPort p { n.port p with shift := some { sh with start := s, mine := true } }).emit
        (.oam p oamGearReq [sh.gear, s, n.ident])
    else n.setPort p { n.port p with shift := some { sh with start := 0, mine := true } }
  | none => n.setPort p { n.port p with shift := some { sh with start := 0, mine := true } }

/-- HOLD ms have passed since the last downshift (R260). -/
def Node.upAllowed (n : Node) (p : Nat) : Bool :=
  let l := (n.port p).lastDown
  l == 0 || decide (l - 1 + 1000 * n.rd (F.BBL_GEARCFG_HOLD (lineOf p) (endOf p)) ≤ n.clock.fresh)

/-- The gear R260 chooses from the load and the margins of gears 2 to 4, if another than the present one. -/
def Node.gearChoice (n : Node) (p load : Nat) (m : List Nat) : Option Nat :=
  let l := lineOf p
  let e := endOf p
  let g := n.rd (bblGear p)
  let dn := n.rd (F.BBL_MODE_LOAD_DOWN l e)
  let up := [4, 3, 2].find? (fun h =>
    decide (g < h) && n.gearAllowed p h && decide (n.rd (F.BBL_GEARCFG_SNR_UP l e) ≤ m.getD (h - 2) 0))
  let low := [4, 3, 2, 1].find? (fun h => decide (h < g) && n.gearAllowed p h)
  match up with
  | some h => if n.upAllowed p ∧ (dn = 0 ∨ n.rd (F.BBL_MODE_LOAD_UP l e) < load) then some h else down g dn low
  | none => down g dn low
where
  down (g dn : Nat) : Option Nat → Option Nat
    | some h => if dn ≠ 0 ∧ load * gearCap g < dn * gearCap h then some h else none
    | none => none

/-- LOAD and MARGIN of a backbone link that is up; the row gives the margins of gears 2 to 4, another gear's is a free value (R273; log entry 112). -/
def Node.showLoad (n : Node) (p load : Nat) (m : List Nat) : Node :=
  let n := n.wr (F.BBL_STATUS_LOAD (lineOf p) (endOf p)) (min load 255)
  let g := n.rd (bblGear p)
  if 2 ≤ g ∧ g ≤ 4 then n.wr (F.BBL_STATUS_MARGIN (lineOf p) (endOf p)) (min (m.getD (g - 2) 0) 255)
  else
    let (v, n) := n.free
    n.wr (F.BBL_STATUS_MARGIN (lineOf p) (endOf p)) (v % 256)

/-- The node applies R260, or tries again for a shift that waits for a window. -/
def Node.gearDecide (n : Node) (p load : Nat) (m : List Nat) : Node :=
  if !(decide (p < 4) && n.dataOn && n.linkUp p) then n else
  let n := n.showLoad p load m
  if !n.hitless p then n else
  match (n.port p).shift with
  | some sh => if sh.mine && !sh.acked && sh.start == 0 && !sh.quality then n.gearRequest p sh 0 else n
  | none =>
    if n.gearBarred then n else
    match n.gearChoice p load m with
    | some h => n.gearRequest p { gear := h } 0
    | none => n

/-- A gear written to `BBL.GEARCMD` (R260, R273): RESULT and the node; a request that comes while another shift is agreed is pending until that one has ended. -/
def Node.gearOwner (n : Node) (p gear : Nat) : Nat × Node :=
  if !n.gearAllowed p gear then (1, n)
  else if !n.hitless p then (2, n)
  else if gear = n.rd (bblGear p) then (0, n)
  else match (n.port p).shift with
    | some sh => if sh.acked || sh.quality then (0, n.setPort p { n.port p with wanted := some gear })
        else (0, n.gearRequest p { gear := gear, owner := true } 0)
    | none => (0, n.gearRequest p { gear := gear, owner := true } 0)

/-- Drop a shift that found no window (R261). -/
def Node.gearDrop (n : Node) (p : Nat) : Node :=
  match (n.port p).shift with
  | none => n
  | some sh =>
    if sh.acked ∨ sh.quality ∨ !sh.mine then n else
    let n := (n.setPort p { n.port p with shift := none }).cntAdd p 61 1
    if sh.owner then n.wr (F.BBL_GEARCMD_RESULT (lineOf p) (endOf p)) 3 else n

/-- The owner's request of a shift that another one puts aside stays pending (R262, R264). -/
def Node.keepWanted (n : Node) (p : Nat) : Node :=
  match (n.port p).shift with
  | some sh => if sh.owner && sh.mine then n.setPort p { n.port p with wanted := some sh.gear } else n
  | none => n

/-- Request the owner's pending gear once no shift is agreed (R260). -/
def Node.gearWanted (n : Node) (p : Nat) : Node :=
  match (n.port p).wanted, (n.port p).shift with
  | some g, none =>
    let n := n.setPort p { n.port p with wanted := none }
    if g = n.rd (bblGear p) then n else n.gearRequest p { gear := g, owner := true } 0
  | _, _ => n

/-- Agree to a shift: SHIFTING (R273). -/
def Node.gearAgree (n : Node) (p : Nat) (sh : Shift) : Node :=
  (n.setPort p { n.port p with shift := some { sh with acked := true } }).put (F.BBL_STATUS_SHIFTING (lineOf p) (endOf p)) true

/-- A quality downshift breaks the express bound of the port (R265). -/
def Node.boundBroken (n : Node) (p : Nat) : Node :=
  (n.put (F.BBL_STATUS_BOUND_BROKEN (lineOf p) (endOf p)) true).fault 9 1 p

/-- The first instant from which R261 bars no shift: 50 ms after the T_commit that is scheduled. -/
def Node.gearFrom (n : Node) : Nat :=
  match n.inaug.sched with
  | some s => s.time + 50000 * usU
  | none => match n.inaug.graceEnd with
    | some c => n.clock.now + (c - n.clock.cycles) * 4 * nsU
    | none => 0

/-- A GEAR_REQ arrives; a start of 0 asks for a shift at once (R262, R264; 13 R467 kind 3; log entry 69). Of two requests at the same time that of the lower node identifier proceeds and the other is withdrawn, whatever the answer; an owner's request withdrawn is made again once no shift is agreed (R260, R273). -/
def Node.gearReqRx (n : Node) (p gear start node : Nat) : Node :=
  if !(decide (p < 4) && n.hitless p) then n else
  let nak := fun (m : Node) (t : Nat) => m.emit (.oam p oamGearNak [t])
  let bad := !n.gearAllowed p gear ||
    (start != 0 && (decide (start < n.clock.now + 50 * usU) || decide (n.clock.now + 100000 * usU < start)))
  if bad then nak (n.pviol 3 p) 0 else
  let mine := match (n.port p).shift with
    | some sh => if start = 0 then sh.silent || (sh.quality && (sh.acked || (sh.mine && decide (n.ident < node))))
        else sh.acked || sh.quality || (sh.mine && sh.start != 0 && decide (n.ident < node))
    | none => false
  if mine then n else
  let n := n.keepWanted p
  let n := n.setPort p { n.port p with shift := none }
  let sh : Shift := { gear := gear, start := start, quality := start == 0 }
  if start = 0 then ((n.gearAgree p sh).emit (.oam p oamGearAck [])).boundBroken p
  else if !n.gearBarred && n.inFree p start then (n.gearAgree p sh).emit (.oam p oamGearAck [])
  else (nak n ((n.nextFree p (max start n.gearFrom)).getD 0)).gearWanted p

/-- A GEAR_ACK arrives (R262); a shift that R261 bars meanwhile is held back. -/
def Node.gearAckRx (n : Node) (p : Nat) : Node :=
  match (n.port p).shift with
  | some sh =>
    if !(sh.mine && !sh.acked && (sh.start != 0 || sh.quality)) then n
    else if n.gearBarred ∧ !sh.quality then n.setPort p { n.port p with shift := some { sh with start := 0 } }
    else n.gearAgree p sh
  | none => n

/-- A GEAR_NAK arrives: propose again, or drop the shift when it names no start (R262; 13 R467 kind 3). -/
def Node.gearNakRx (n : Node) (p next : Nat) : Node :=
  match (n.port p).shift with
  | some sh =>
    if !sh.mine ∨ sh.acked ∨ sh.quality ∨ sh.start = 0 then n
    else if next = 0 then n.gearDrop p else n.gearRequest p { sh with tries := 0 } next
  | none => n

/-- No answer to a request and its three repeats: the manual gives no outcome but a quality downshift's; the shift ends without one and RESULT stays as it is (R262, R273; DESIGN CHOICE, log entry 135). -/
def Node.gearFails (n : Node) (p : Nat) : Node := (n.setPort p { n.port p with shift := none }).gearWanted p

/-- 500 us without an answer: repeated up to 3 times (R262); a quality downshift whose handshake fails drops the link (R264). -/
def Node.gearRetry (n : Node) (p : Nat) : Node :=
  match (n.port p).shift with
  | none => n
  | some sh =>
    if sh.silent then n
    else if sh.tries < 3 then
      let n := n.setPort p { n.port p with shift := some { sh with tries := sh.tries + 1 } }
      if sh.mine && !sh.acked then
        (if sh.start = 0 ∧ !sh.quality then n else n.emit (.oam p oamGearReq [sh.gear, sh.start, n.ident]))
      else if !sh.mine then n.emit (.oam p oamGearAck []) else n
    else if sh.mine && !sh.acked then (if sh.quality then n.linkGoes p else n.gearFails p)
    else n

/-- Silence begins (R263); a shift agreed before the directory was does not start until R261 allows it, and is requested anew. -/
def Node.silenceStart (n : Node) (p : Nat) : Node :=
  match (n.port p).shift with
  | some sh =>
    if sh.acked ∧ !sh.silent ∧ n.gearBarred ∧ !sh.quality then
      ((n.put (F.BBL_STATUS_SHIFTING (lineOf p) (endOf p)) false).setPort p
        { n.port p with shift := if sh.mine then some { sh with acked := false, start := 0, tries := 0 } else none }).gearWanted p
    else if sh.acked then
      let n := if n.preemptable p then n.suspend p else n
      n.setPort p { n.port p with shift := some { sh with silent := true } }
    else n
  | none => n

/-- MARGIN and LOAD at a gear that has just come into force: no row gives them, so they are free values until the next decision (R273; log entry 112). -/
def Node.gearShows (n : Node) (p : Nat) : Node :=
  let (v, n) := n.free
  n.wrs [(F.BBL_STATUS_MARGIN (lineOf p) (endOf p), v % 256), (F.BBL_STATUS_LOAD (lineOf p) (endOf p), v / 256 % 256)]

/-- The link carries frames at the new gear; what the silence held back leaves (R263). -/
def Node.silenceEnd (n : Node) (p us : Nat) : Node :=
  match (n.port p).shift with
  | none => n
  | some sh =>
    if !sh.silent then n else
    let old := n.rd (bblGear p)
    let n := n.wrs [(bblGear p, sh.gear), (F.PRT_STATUS_RATE p, sh.gear + 1), (F.BBL_STATUS_SHIFTING (lineOf p) (endOf p), 0)]
    let down := decide (sh.gear < old)
    let n := (n.cntAdd p 63 us).cntAdd p (if !down then 58 else if sh.quality then 60 else 59) 1
    let n := n.setPort p { n.port p with shift := none, lastDown := if down then n.clock.fresh + 1 else (n.port p).lastDown }
    let n := if sh.owner then n.wr (F.BBL_GEARCMD_RESULT (lineOf p) (endOf p)) 0 else n
    let n := n.trainPhy p
    let n := n.gearShows p
    (((((n.fireLink p).ptpGear p).sendMark p).pfcUpd p).ownFlush p).gearWanted p

/-- The margin of the present gear falls below SNR_DOWN (R260, R264, R265). -/
def Node.qualityDown (n : Node) (p margin : Nat) (m : List Nat) : Node :=
  let l := lineOf p
  let e := endOf p
  let dn := n.rd (F.BBL_GEARCFG_SNR_DOWN l e)
  if !(decide (p < 4) && n.hitless p && decide (margin < dn)) then n else
  let n := n.wr (F.BBL_STATUS_MARGIN l e) (min margin 255)
  let g := n.rd (bblGear p)
  if m.getD 0 0 < dn ∨ g ≤ 1 then n.linkGoes p else
  let busy := match (n.port p).shift with
    | some sh => sh.silent || sh.quality
    | none => false
  if busy then n else
  let n := (n.keepWanted p).put (F.BBL_STATUS_SHIFTING l e) false
  let t := ([3, 2].find? (fun h => decide (h < g) && n.gearAllowed p h &&
    decide (n.rd (F.BBL_GEARCFG_SNR_UP l e) ≤ m.getD (h - 1) 0))).getD 1
  let n := n.boundBroken p
  (n.setPort p { n.port p with shift := some { gear := t, mine := true, quality := true } }).emit
    (.oam p oamGearReq [t, 0, n.ident])

/-! ### Meanings: flow control, preemption, energy-efficient Ethernet -/

/-- Half the pause time has passed while the charge stays at or above XON (06 R217). -/
def Node.pfcRepeat (n : Node) (p c : Nat) : Node :=
  if p < 20 ∧ c < 8 ∧ bitOf (n.port p).pfcSent c ∧ bitsOf (n.tabW 5 p 2) 47 32 ≤ n.charge p c then n.sendPfc p c 0xFFFF else n

/-- PFC again (06 R217). -/
def execPfcRepeat (port cls : Nat) (s : State) : Host.Outcome State Fault Refusal := s.to (s.node.pfcRepeat port cls)

/-- PAUSE or PFC arrives (R241). -/
def execPauseReceived (port : Nat) (f : WireFrame) (s : State) : Host.Outcome State Fault Refusal := s.to (s.node.pauseRx port f)

/-- A class's pause ends (R241). -/
def execPauseExpiry (port cls : Nat) (s : State) : Host.Outcome State Fault Refusal :=
  s.to (if port < 20 ∧ cls < 8 then s.node.pauseClass port cls 0 else s.node)

/-- A verify mPacket is answered and counted (R238). -/
def execVerifyReceived (port : Nat) (s : State) : Host.Outcome State Fault Refusal :=
  s.to (if s.node.canPreempt port ∧ s.node.receives port then
    (s.node.emit (.oam port oamRespond [])).cntAdd port 28 1 else s.node)

/-- A respond mPacket makes preemption active (R238). -/
def execRespondReceived (port : Nat) (s : State) : Host.Outcome State Fault Refusal :=
  s.to (if port < 20 ∧ s.node.receives port ∧ s.node.rd (F.PRT_STATUS_PREEMPT port) = 1 then
    s.node.wr (F.PRT_STATUS_PREEMPT port) 2 else s.node)

/-- The verify timer (R238). -/
def execVerifyTimer (port : Nat) (s : State) : Host.Outcome State Fault Refusal := s.to (s.node.verifyTimer port)

/-- Low-power idle (R247). -/
def execLpiEntry (port : Nat) (s : State) : Host.Outcome State Fault Refusal := s.to (s.node.lpiEntry port)

/-- Wake from low-power idle (R248). -/
def execLpiWakeComplete (port : Nat) (s : State) : Host.Outcome State Fault Refusal := s.to (s.node.lpiWake port)

/-! ### Meanings: egress and cells -/

/-- The port sends copies: an external port or P21. -/
def sends (p : Nat) : Bool := decide (p < 20) || p == 21

/-- The scheduler of a port (06 R213). -/
def execEgressSchedule (port : Nat) (s : State) : Host.Outcome State Fault Refusal :=
  s.to (if sends port then s.node.schedule port else s.node)

/-- A copy has left (06 R221). -/
def execCopyTransmitted (port : Nat) (s : State) : Host.Outcome State Fault Refusal :=
  s.to (if sends port then s.node.copyLeft port else s.node)

/-- Returning cells reach the free pool (06 R223). -/
def Node.cellBack (n : Node) (b k : Nat) : Node :=
  if b < 26 ∧ n.rd (F.FAB_BANK_STATE b) = 1 then
    let x := n.bank b
    let m := min k x.returning
    n.setBank b { x with free := x.free + m, returning := x.returning - m }
  else n

/-- Cells return (06 R223). -/
def execCellReturn (bank cells : Nat) (s : State) : Host.Outcome State Fault Refusal := s.to (s.node.cellBack bank cells)

/-- A launch falls due (09 R338). -/
def execLaunchDue (port : Nat) (s : State) : Host.Outcome State Fault Refusal :=
  s.to (if port < 20 then s.node.launchDue port else s.node)

/-- No frame accepted for RESET_MS: TAKE_ANY and a counted reset (06 R209). -/
def Node.recoveryReset (n : Node) (i : Nat) : Node :=
  let w := n.tabW 4 i 0
  let w3 := n.tabW 4 i 3
  if (n.tabRead 4 i).isNone then n else
  (n.tabHw 4 i 0 (setBit w 47 true)).tabHw 4 i 3 (bitsOf w3 63 32 * 2 ^ 32 + (bitsOf w3 31 16 + 1) % 2 ^ 16 * 2 ^ 16 + w3 % 2 ^ 16)

/-- A recovery record times out (06 R209). -/
def execRecoveryResetTimeout (idx : Nat) (s : State) : Host.Outcome State Fault Refusal := s.to (s.node.recoveryReset idx)

/-! ### Meanings: links and gears -/

/-- A link comes up (R259). -/
def execLinkUp (port rate : Nat) (s : State) : Host.Outcome State Fault Refusal := s.to (s.node.linkComes port rate)

/-- A link goes down (06 R204). -/
def execLinkDown (port : Nat) (s : State) : Host.Outcome State Fault Refusal := s.to (s.node.linkGoes port)

/-- A port in auto mode finds its partner's mode (R258). -/
def execAutoModeDetect (port : Nat) (compat : Bool) (s : State) : Host.Outcome State Fault Refusal :=
  s.to (if port < 4 ∧ s.node.dataOn ∧ s.node.rd (F.BBL_MODE_MODE (lineOf port) (endOf port)) = 2 ∧
      !s.node.on (F.PRT_STATUS_LINK port) then
    s.node.put (F.BBL_STATUS_COMPAT (lineOf port) (endOf port)) compat else s.node)

/-- The partner's capability record (R259). -/
def execCapabilityRecordReceived (port : Nat) (s : State) : Host.Outcome State Fault Refusal := s.to (s.node.capRx port)

/-- The capability timer (R259). -/
def execCapabilityTimer (port : Nat) (s : State) : Host.Outcome State Fault Refusal := s.to (s.node.capTimer port)

/-- The node decides on a gear (R260). -/
def execGearDecision (port load m2 m3 m4 : Nat) (s : State) : Host.Outcome State Fault Refusal :=
  s.to (s.node.gearDecide port load [m2, m3, m4])

/-- GEAR_REQ (R262). -/
def execGearReq (port gear start node : Nat) (s : State) : Host.Outcome State Fault Refusal :=
  s.to (s.node.gearReqRx port gear start node)

/-- GEAR_ACK (R262). -/
def execGearAck (port : Nat) (s : State) : Host.Outcome State Fault Refusal := s.to (s.node.gearAckRx port)

/-- GEAR_NAK (R262). -/
def execGearNak (port next : Nat) (s : State) : Host.Outcome State Fault Refusal := s.to (s.node.gearNakRx port next)

/-- The handshake is repeated (R262). -/
def execGearRetry (port : Nat) (s : State) : Host.Outcome State Fault Refusal := s.to (s.node.gearRetry port)

/-- No window within 1 s (R261). -/
def execGearDeferred (port : Nat) (s : State) : Host.Outcome State Fault Refusal := s.to (s.node.gearDrop port)

/-- Silence begins (R263). -/
def execSilenceStart (port : Nat) (s : State) : Host.Outcome State Fault Refusal := s.to (s.node.silenceStart port)

/-- Silence ends (R263). -/
def execSilenceEnd (port us : Nat) (s : State) : Host.Outcome State Fault Refusal := s.to (s.node.silenceEnd port us)

/-- A quality downshift (R264). -/
def execQualityDownshift (port margin m1 m2 m3 : Nat) (s : State) : Host.Outcome State Fault Refusal :=
  s.to (s.node.qualityDown port margin [m1, m2, m3])

end Sys2Proof.Machine
end

