-- ==== Sys2Proof/Machine/Pair.lean ====
section
/-! DEFINITION. Node pairs: heartbeats, declaration of failure, checkpoints, takeover, switch-back, self-test and drill, TN7 pairing mode (12 R406-R449; 02 R50; 13 R453, R473). -/

namespace Sys2Proof.Machine

open Sys2Proof

/-! ### Heartbeats (R413-R415, R446) -/

/-- The executive runs and rewrites the heartbeat content: from step 7 of BOOT on, in COLD_STANDBY, DRILL and ACTIVE (R410, R415). -/
def Node.execRuns (n : Node) : Bool :=
  match n.mode with
  | .boot => decide (7 ≤ n.rd F.MGT_BOOTINFO_STEP)
  | .coldStandby | .drill | .active => true
  | _ => false

/-- Enter STABLED: claim released, both islands unpowered (13 R453; 02 R66). -/
def Node.enterStabled (n : Node) : Node :=
  let n := { (n.release).dataOff with mode := .stabled, level := 0, mem := [], poison := n.poison.filter (fun a => decide (a < 0x40000)),
                                      pair := { n.pair with stabling := 0, switching := none, switchFlag := false, armed := false } }
  n.put F.PWR_ISLANDS_CONTROL false

/-- The checkpoint being streamed is complete: once its capture has ended, certainly 35 ms after its start, before that at a time the manual leaves open (R426). -/
def Node.ckptProgress (n : Node) : Node :=
  let n := n.captureIdle
  match n.pair.sending with
  | none => n
  | some (q, at') =>
    if n.pair.capture.isSome then n else
    let (v, n) := n.free
    if at' + 35000 ≤ n.clock.fresh ∨ v % 2 = 1 then
      { n with pair := { n.pair with sending := none, missedCk := 0 } }.wr F.PAIR_CKPT_SEQ_SEQ q
    else n

/-- One heartbeat period: the executive rewrites the content and Mantis sends it; three periods of stabling heartbeats end in STABLED (R413, R415; 13 R453). -/
def Node.hbPeriod (n : Node) : Node :=
  if !n.execRuns then n else
  let n := n.ckptProgress
  let n := if n.single then n else n.hbEmit n.hbFlags n.health n.tn7State
  if n.pair.stabling = 0 then n
  else if n.pair.stabling = 1 then n.enterStabled
  else { n with pair := { n.pair with stabling := n.pair.stabling - 1 } }

/-- The FAIL heartbeat of a halted core: the last content written, with FAIL set and CLAIM clear (02 R50; R415). The manual does not say whether SEQ advances: it does (DESIGN CHOICE, log entry 44). -/
def Node.hbFail (n : Node) : Node :=
  if n.single ∨ n.pair.content = [] then n else
  let q := (n.pair.seq + 1) % 2 ^ 32
  let c := n.pair.content
  let head := c.take 3 ++ [BitVec.ofNat 8 (setBit (setBit (byteAt c 3) 0 false) 1 true)] ++ leBytes 4 q ++ slice c 8 16 ++
    leBytes 4 (setBit (leAt c 24 4) 31 true) ++ c.drop 28
  let n := { n with pair := { n.pair with seq := q } }
  if n.tn7Mode then n.emit (.heartbeat 0 (tn7Beat 3 q))
  else
    (n.emit (.heartbeat 0 (n.hbSeal 0 head))).hbConsist (n.hbSeal 1 head)

/-- A lockstep mismatch or management RAM error (02 R50). -/
def Node.lockstep (n : Node) (addr : Nat) : Node :=
  if n.ctlOn then ((n.fault 0 1 addr).hbFail).restart 2 else n

/-! ### Declaring failure (R419, R420) -/

def Node.onStandby (n : Node) : Bool := n.mode == .coldStandby || n.mode == .drill

/-- Abort a drill whose result is no longer wanted: the data island stays on for a takeover (R444). -/
def Node.drillAbort (n : Node) (keepOn : Bool) : Node :=
  let n := n.put F.PAIR_DRILL_RUNNING false
  if n.mode = .drill ∧ !keepOn then n.enterStandby else n

/-- The standby declares the active node failed; while the partner's claim stays active it is blocked (R419, R420, R444). -/
def Node.declare (n : Node) (path : Nat) : Node :=
  if !n.onStandby ∨ n.single ∨ n.on F.PAIR_STATUS_DECLARED ∧ n.pair.armed then n else
  let n := (n.put F.PAIR_STATUS_DECLARED true).fault 3 1 path
  let n := { n with pair := { n.pair with armed := true } }
  if n.partnerClaim then ((n.put F.PAIR_STATUS_BLOCKED true).fault 3 2 path).drillAbort false
  else n.drillAbort true

/-- The path carries heartbeats: the Cicada link always, the consist path where it is used and the partner sends there (R413, R445, R450). -/
def Node.pathUsed (n : Node) (path : Nat) : Bool := path == 0 || (path == 1 && !n.tn7Mode && n.on F.PAIR_CTRL_HB_CON_EN)

/-- The register bit that shows valid heartbeats on a path (R450). -/
def pathOk (path : Nat) : Fld := if path = 0 then F.PAIR_STATUS_CIC_OK else F.PAIR_STATUS_CON_OK

/-- One path has been silent for 3 periods: its bit in `PAIR.STATUS` is clear in every powered state and for a path no longer used; a standby or active node reports a used one (R417, R422, R450). -/
def Node.pathSilent (n : Node) (path : Nat) : Node :=
  if n.mode = .off ∨ n.single ∨ 2 ≤ path then n else
  let n := n.put (pathOk path) false
  if !n.pathUsed path ∨ !(n.onStandby || n.mode == .active) then n else
  let x := FMap.get {} n.pair.paths path
  let n := { n with pair := { n.pair with paths := FMap.put {} n.pair.paths path { x with silent := 1 } } }
  let n := n.put F.HLT_REPORT_PATH true
  let both := (FMap.get {} n.pair.paths 0).silent == 1 && ((FMap.get {} n.pair.paths 1).silent == 1 || n.tn7Mode)
  let n := if n.mode = .active ∧ both then { n with pair := { n.pair with lost := true } } else n
  if n.onStandby ∧ path = 0 ∧ !n.tn7Mode then n.holdover 0 else n

/-- Both paths silent for 3 periods (R419). -/
def Node.silenceDeclared (n : Node) : Node :=
  if n.onStandby && !n.single then ((n.pathSilent 0).pathSilent 1).declare (Config.findingItem 8) else n

/-! ### Checkpoints (R423-R430) -/

/-- A period boundary on a standby: a period in which no checkpoint is held counts (R451). -/
def Node.ckptMissed (n : Node) : Node :=
  if n.streams && n.onStandby then { n with pair := { n.pair with missedCk := n.pair.missedCk + 1 } } else n

/-- A period boundary: skipped while the last checkpoint still streams, no capture where too many signal slots are named (R424, R425). -/
def Node.ckptBoundary (n : Node) : Node :=
  if !(n.streams && n.mode == .active && n.dataOn) then n.ckptMissed else
  let n := n.ckptProgress
  let n := { n with pair := { n.pair with missedCk := n.pair.missedCk + 1 } }
  let bad := decide (65536 < n.ckptSlots)
  let n := n.put F.PAIR_STATUS_CFG_ERR bad
  if bad then n
  else if n.pair.sending.isSome then n.inc F.PAIR_CKPT_INFO_SKIPPED
  else n.captureNow

/-- A capture during which the epoch commit falls is abandoned: one that waits for an engine, and one of the last 2.2 ms, in which it may have ended before (R425). -/
def Node.ckptAbandon (n : Node) : Node :=
  match n.pair.sending with
  | none => n
  | some (_, at') =>
    let (v, n) := n.free
    if n.pair.capture.isSome ∨ (n.clock.fresh ≤ at' + 2200 ∧ v % 2 = 1) then
      { n with pair := { n.pair with sending := none, capture := none, capWait := [] } }.inc F.PAIR_CKPT_INFO_ABANDONED
    else n

/-- A checkpoint, or an agreement checkpoint, is found bad (R429). -/
def Node.ckptBad (n : Node) : Node := (n.put F.PAIR_STATUS_CKPT_REJECTED true).fault 3 4 (Config.findingItem 6)

/-- Reject the periodic checkpoint of a SEQ (R429). -/
def Node.rejectCk (n : Node) (q : Nat) : Node :=
  { n with pair := { n.pair with rejected := q :: n.pair.rejected } }.ckptBad

/-- A block of an agreement checkpoint, which interrupts a periodic one and leaves its progress: held at the last good block, and epoch 0 invalidates what is held (R428; log entry 118). -/
def Node.agreeBlock (n : Node) (q idx : Nat) (good last : Bool) (a : Agree) : Node :=
  let part := if idx = 0 then some (q, 0) else n.pair.agPart
  let set := fun (x : Option (Nat × Nat)) => { n with pair := { n.pair with agPart := x } }
  match part with
  | some (q', k) =>
    if q' ≠ q ∨ k ≠ idx then set none
    else if !good then { n with pair := { n.pair with agPart := none, agree := none } }.ckptBad
    else if !last then set (some (q, k + 1))
    else { n with pair := { n.pair with agPart := none, agree := if a.epoch = 0 then none else some a } }
  | none => n

/-- A block of a checkpoint arrives at the standby: two buffers in turn, held at the last good block (R426, R428, R429). -/
def Node.ckptBlock (n : Node) (q idx : Nat) (good last : Bool) (ck : Ckpt) : Node :=
  if !(n.onStandby && n.streams) then n else
  match ck.agree with
  | some a => n.agreeBlock q idx good last a
  | none =>
  let n := if idx = 0 then
      { n with pair := { n.pair with
        part := some (q, 0), rxHdrAt := FMap.put 0 n.pair.rxHdrAt q n.clock.fresh, ckpts := n.pair.ckpts.take 1,
        rejected := n.pair.rejected.filter (fun x => x != q) } }
    else n
  match n.pair.part with
  | some (q', k) =>
    if q' ≠ q ∨ k ≠ idx then { n with pair := { n.pair with part := none } }
    else if !good then { n with pair := { n.pair with part := none } }.rejectCk q
    else if !last then { n with pair := { n.pair with part := some (q, k + 1) } }
    else
      { n with pair := { n.pair with part := none, ckpts := { ck with seq := q } :: n.pair.ckpts.take 1, missedCk := 0 } }.wr
        F.PAIR_CKPT_SEQ_SEQ q
  | none => n

/-! ### Takeover (R431-R437) -/

/-- Put the tables and cells of a checkpoint's tables 8 to 11 into a view. -/
def Node.placeTables (n : Node) (sh : Bool) (l : List (Nat × Nat × Byte)) : Node :=
  [8, 9, 10, 11].foldl (fun a t => match a.tab t with
    | none => a
    | some d =>
      let part := (l.filter (fun c => c.1 == t)).map (fun c => (c.2.1, c.2.2))
      { a with mem := memPlace a.mem (tabAddr (d.view sh)) (8 * d.size) part }) n

/-- Take the numbering of a checkpoint or agreement whose tables stand in the active banks. -/
def Node.takeNumbering (n : Node) (epoch pos orient count digest : Nat) : Node :=
  let n := n.wrs [(F.TOP_EPOCH_EPOCH, epoch), (F.TOP_INAUG_POSITION, pos), (F.TOP_INAUG_ORIENT, orient),
    (F.TOP_INAUG_COUNT, count), (F.TOP_DIGEST_DIGEST, digest)]
  let n := { n with inaug := { n.inaug with dir := n.readDirectory count, dirCount := count, dirEpoch := epoch, dirDigest := digest,
                                            l1Hold := false } }
  n.recordNeighbours pos orient

/-- Restore the parts of a checkpoint beside the numbering (R427, R435). -/
def Node.restoreParts (n : Node) (c : Ckpt) (hdr : Nat) : Node :=
  let n := match n.tab 1 with
    | none => n
    | some d =>
      let b := tabAddr d.base
      let m := n.mem.filter (fun (x : Host.Cell) => !(decide (b ≤ x.1) && decide (x.1 < b + 8 * d.size) && decide ((x.1 - b) % 64 < 24)))
      { n with mem := c.streams.foldl (fun (m : List Host.Cell) (x : Nat × Byte) => memWrite m (b + x.1) [x.2]) m }
  let n := c.sigs.foldl (fun (a : Node) (x : CkSig) => match a.boundEng x.slot with
    | none => a
    | some e => { a with mem := wr64 (wr64 a.mem (sigBase e + 16 * x.idx) x.value) (sigBase e + 16 * x.idx + 8)
                                (x.status / 2 ^ 48 * 2 ^ 48 + (hdr + 2 ^ 48 - x.age % 2 ^ 48) % 2 ^ 48) }) n
  let n := (List.range 16).foldl (fun (a : Node) (s : Nat) => match a.boundEng s with
    | none => a
    | some e => { a with mem := memPlace a.mem (mboxBase e) 4096
                                ((c.mailboxes.filter (fun (x : Nat × Nat × Byte) => x.1 == s)).map (fun (x : Nat × Nat × Byte) => (x.2.1, x.2.2))) }) n
  let n := n.datasets.foldl (fun (a : Node) (d : Nat × Dataset) =>
    if bitOf d.2.flags 1 then a else a.wr (F.BRG_DS_SEQ_SEQ d.1) (FMap.get 0 c.dsSeq d.1 + 65536)) n
  let n := [0, 1, 2, 3].foldl (fun a p => a.setPort p { a.port p with coef := FMap.get [] c.phy p }) n
  { n with pair := { n.pair with oldIdent := c.sender } }

/-- Recovery records start with TAKE_ANY set (R435; 06 R209). -/
def Node.takeAny (n : Node) : Node :=
  match n.tab 4 with
  | none => n
  | some d => (List.range d.entries).foldl (fun a i =>
      a.tabHw 4 i 0 (setBit (a.word (d.dataW false i)) 47 true)) n

/-- The checkpoint to restore: the newest held that is not rejected and carries the pair's epoch as last heard (R429). -/
def Node.ckptChosen (n : Node) : Option Ckpt :=
  n.pair.ckpts.find? (fun c => !decide (c.seq ∈ n.pair.rejected) && c.epoch == leAt n.pair.lastHb 16 2)

/-- The commit of a held agreement checkpoint is scheduled: its shadow banks and its directory stand as in the failed node (R428; 08 R311). -/
def Node.takeAgreement (n : Node) (a : Agree) : Node :=
  let n := n.placeTables true a.tables
  let c : Sched := { epoch := a.epoch, time := a.tcommit, count := n.clock.cycles + n.cyclesTo a.tcommit }
  let n := { n with inaug := { n.inaug with sched := some c, dir := a.dir, dirCount := a.count, dirEpoch := a.epoch,
                                            dirDigest := a.digest, proposed := true } }
  (n.writeDirectory.wrs [(F.TOP_COMMIT_SLO_SEC_LO, secOf a.tcommit), (F.TOP_COMMIT_SHI_SEC_HI, secOf a.tcommit / 2 ^ 32),
    (F.TOP_COMMIT_NS_NS, nsOf a.tcommit)]).phase 4

/-- The grace interval of the commit at `t` keeps its original end (08 R311). -/
def Node.graceFrom (n : Node) (t : Nat) : Node :=
  let left := n.cyclesTo (t + 50000000 * nsU)
  let n := { n with inaug := { n.inaug with graceEnd := some (n.clock.cycles + left) } }.phase 5
  if left = 0 then n.graceOver else n

/-- The previous numbering of a node that takes over in a grace interval: the bank of another held checkpoint, and the epoch of that or of the grace map (08 R303, R311; log entry 121). -/
def Node.previousBank (n : Node) : Node :=
  match n.pair.ckpts.find? (fun c => !decide (c.seq ∈ n.pair.rejected) && c.epoch != n.epoch) with
  | some c =>
    let n := (n.placeTables true c.tables).wr F.TOP_EPOCH_PREV c.epoch
    { n with inaug := { n.inaug with oldDigest := c.digest } }
  | none => n.wr F.TOP_EPOCH_PREV (n.tabW 10 0 0 % 2 ^ 16)

/-- The failed node had made the commit of a held agreement checkpoint, or its T_commit has passed: it is made at once, over the old numbering where that was restored, else over that of the old checkpoint held (R435; 08 R311, R312). -/
def Node.adoptAgreement (n : Node) (a : Agree) : Node :=
  let none' := n.epoch = 0
  let n := (n.takeAgreement a).commit
  (if none' then n.previousBank else n).graceFrom a.tcommit

/-- Restore the newest checkpoint that qualifies, and the agreement checkpoint where it is held: its commit is made at T_commit, at once where T_commit has passed or the failed node had made it, and its grace interval keeps its end (R428, R429, R435; 08 R311). -/
def Node.restore (n : Node) : Node :=
  let hb := leAt n.pair.lastHb 16 2
  let n := match n.ckptChosen with
    | some c =>
      let n := (n.placeTables false c.tables).takeNumbering c.epoch c.pos c.orient c.count c.digest
      n.restoreParts c (FMap.get 0 n.pair.rxHdrAt c.seq)
    | none => { n with inaug := { n.inaug with l1Hold := true } }
  match n.pair.agree with
  | none => { n with inaug := { n.inaug with takenOver := true } }
  | some a =>
    if n.epoch = a.epoch then (if n.cyclesTo (a.tcommit + 50000000 * nsU) = 0 then n else n.previousBank.graceFrom a.tcommit)
    else if n.clock.now < a.tcommit ∧ hb ≠ a.epoch then n.takeAgreement a
    else n.adoptAgreement a

/-- Ownership returns to the executive and a pending request is cleared (R435; 05 R177). -/
def Node.ownerReset (n : Node) : Node :=
  { n with leaseAt := 0 }.wrs [(F.MGT_OWNER_ID, 0), (F.MGT_OWNER_NODE_HI, 0), (F.MGT_OWNER_NODE_NODE_LO, 0), (F.MGT_OWN_PEND_VALID, 0),
    (F.MGT_OWN_PEND_ID, 0), (F.MGT_OWN_PEND_NODE_HI, 0), (F.MGT_OWN_PEND_NODE_NODE_LO, 0)]

/-- Load the takeover set from MRAM, or the slot from flash where the set does not fit (R430, R431). -/
def Node.loadSet (n : Node) : Option Node :=
  if n.on F.PAIR_STATUS_SLOW_LOAD then
    let fb := n.on F.MGT_STATE_SLOT
    n.loadIsland n.bootedImage (flashSrc n.bootedImage (if fb then n.fbMirror else n.mainMirror))
  else n.loadIsland n.pair.tset (fun s => some (s.data n.pair.tset))

/-- A consist link that its PHY has held in low-power idle: up, and still in low-power idle until a frame goes (R433). -/
def Node.wakeLink (n : Node) (p rate : Nat) : Node :=
  if rate = 0 then n else
  let n := n.linkComes p rate
  if n.linkUp p then (n.setPort p { n.port p with eee := true }).put (F.PRT_STATUS_LPI_TX p) true else n

/-- Takeover: claim, data island, load, restoration, ACTIVE (R431-R436, R447). The units of a data island that a drill has powered start as at its power-up, their queues empty and counters zero (R444; 10 R349; log entry 122). The gap runs from here (R431). -/
def Node.takeover (n : Node) : Node :=
  if !(n.onStandby && n.pair.armed && !n.partnerClaim) then n else
  let n := (n.ownerReset).assertClaim
  let n := { n.put F.PAIR_DRILL_RUNNING false with pair := { n.pair with
    armed := false, switchFlag := false, part := none, agPart := none, missedCk := 0, oldIdent := n.pair.partner.getD 0 } }
  let t0 := n.clock.fresh
  let n := if n.dataOn then n.dataClear.endDrains.freshBanks else n.dataUp
  match n.loadSet with
  | none => n.restart 6
  | some n =>
    let n := (n.timeTakeover).takeAny
    let n := if n.tn7Mode then { n with inaug := { n.inaug with l1Hold := true } } else n.restore
    let links := n.pair.links
    let n := { n with mode := .active, level := 0, pair := { n.pair with agree := none, links := [], gapAt := some t0 } }
    links.foldl (fun a l => a.wakeLink l.1 l.2) (n.inc F.PAIR_GAP_TAKEOVERS)

/-! ### Receiving heartbeats (R416-R418) -/

/-- A payload that passes CRC, MAGIC and VERSION (R416, R446). -/
def Node.hbOk (n : Node) (b : List Byte) : Bool :=
  if n.tn7Mode then decide (16 ≤ b.length) && slice b 0 2 == [0x37, 0x4E] && crc32c (b.take 12) == leAt b 12 4
  else decide (64 ≤ b.length) && slice b 0 3 == [0x48, 0x42, 1] && crc32c (b.take 60) == leAt b 60 4

/-- Count a heartbeat and the gaps in SEQ: RX + MISS = HIGH - FIRST + 1 (R416, R450). -/
def Node.hbCount (n : Node) (path q : Nat) : Node :=
  let x := FMap.get {} n.pair.paths path
  let first := x.first.getD q
  let high := if x.first.isNone ∨ (q + 2 ^ 32 - x.high) % 2 ^ 32 < 2 ^ 31 then q else x.high
  let n := { n with pair := { n.pair with paths := FMap.put {} n.pair.paths path { x with first := some first, high := high, silent := 0 } } }
  let n := n.bump (F.PAIR_HB_RX_COUNT path)
  n.wr (F.PAIR_HB_MISS_COUNT path) ((high + 2 ^ 33 + 1 - first - n.rd (F.PAIR_HB_RX_COUNT path)) % 2 ^ 32)

/-- Offset of this node's time from the partner's, from the two-way exchange (R417). -/
def Node.hbOffset (n : Node) (b : List Byte) : Option Int :=
  match n.pair.sentT.find? (fun x => x.1 == leAt b 0x34 4) with
  | none => none
  | some (_, t) =>
    let tx := timeOf (leAt b 0x20 6) (leAt b 0x26 4)
    let rx := timeOf (leAt b 0x2A 6) (leAt b 0x30 4)
    some ((((n.clock.now : Int) - tx) - ((rx : Int) - t)) / 2)

/-- The sensed claim against the CLAIM flag of the partner's heartbeats: the first that disagrees is reported, once for a row of them (R440; 15 R522; log entry 37). -/
def Node.claimCompare (n : Node) (flag : Bool) : Node :=
  let bad := n.mode == .coldStandby && flag != n.partnerClaim
  let was := n.pair.mism
  let n := { n with pair := { n.pair with mism := bad } }
  if bad && !was then (n.found).fault 3 5 (Config.findingItem 2) else n

/-- A valid heartbeat of the partner in the TN9 format. -/
def Node.hbTake (n : Node) (path : Nat) (b : List Byte) : Node :=
  let id := leAt b 8 6
  let n := n.hbCount path (leAt b 4 4)
  let st := byteAt b 14
  let now := n.clock.now
  let n := { n with pair := { n.pair with lastHb := b, lost := false } }
  let n := n.wrs [(F.PAIR_STATUS_PARTNER_STATE, st % 16), (F.PAIR_STATUS_PARTNER_LEVEL, st / 16 % 4),
    (F.PAIR_STATUS_PARTNER_PROVEN, byteAt b 15 % 4), (F.PAIR_PARTNER_HEALTH_HEALTH, leAt b 24 4),
    (F.PAIR_PARTNER_NODE_LO_NODE_LO, id), (F.PAIR_PARTNER_NODE_HI_NODE_HI, id / 2 ^ 32),
    (pathOk path, 1)]
  let n := n.put F.HLT_REPORT_PATH (n.pair.paths.any (fun x => x.2.silent == 1))
  let clash := st / 64 != 0 && st / 64 == n.rd F.PAIR_STATUS_POS && !n.on F.PAIR_STATUS_POS_CLASH
  let n := if clash then
      ({ n with pair := { n.pair with effA := some (decide (n.ident < id)) } }.put F.PAIR_STATUS_POS_CLASH true).fault 3 8 (id % 2 ^ 32)
    else n
  let n := if path = 0 then
      let o := if n.onStandby then n.hbOffset b else none
      let n : Node := match o with
        | some e => n.alignTime e
        | none => n
      { n with pair := { n.pair with rxTime := now, rxAt := leAt b 4 4 } }
    else n
  let fl := byteAt b 3
  let n : Node := if !bitOf fl 3 ∧ (n.pair.agree.map (·.epoch)) ≠ some (leAt b 16 2) then { n with pair := { n.pair with agree := none } } else n
  let n := n.claimCompare (bitOf fl 0)
  let n : Node := if n.mode = .coldStandby ∧ bitOf fl 5 then n.enterStabled else n
  let n : Node := if n.onStandby ∧ bitOf fl 4 then Node.drillAbort { n with pair := { n.pair with armed := true } } true else n
  let n : Node := if n.onStandby ∧ bitOf fl 1 then n.declare path else n
  let n : Node := match n.pair.switching with
    | some q => if n.mode = .active ∧ leAt b 20 4 = q then
        let n := { n with pair := { n.pair with switching := none, switchFlag := true } }
        let n := n.hbEmit n.hbFlags n.health n.tn7State
        n.enterStandby.wr F.PAIR_CMD_RESULT 0
      else n
    | none => n
  if n.wait = .claim ∧ (path = 0 ∨ n.pair.tied.isSome) then n.roleChoice else n

/-- Count a heartbeat that is not the partner's, where the health monitor is powered; the ingress port of the consist path is HB_PORT, and the Cicada link has none, a free value (13 R466, R467 kind 4; 02 R57; log entry 129). -/
def Node.hbForeign (n : Node) (path : Nat) : Node :=
  if !n.ctlOn then n else
  let (v, n) := n.free
  n.pviol 4 (if path = 0 then v % 2 ^ 32 else n.rd F.PAIR_CTRL_HB_PORT)

/-- A heartbeat arrives on a path, in every powered state: Mantis works with both other islands off (R416, R445; 02 R57; 13 R467 kind 4). -/
def Node.hbRx (n : Node) (path : Nat) (b : List Byte) : Node :=
  if n.mode = .off ∨ n.single ∨ n.pathUsed path = false then n
  else if !n.hbOk b then n.hbForeign path
  else if n.tn7Mode then
    let n := (n.hbCount 0 (leAt b 4 4)).put F.PAIR_STATUS_CIC_OK true
    let n := { n with pair := { n.pair with lastHb := b, lost := false, partner := some 0 } }
    let n := n.put F.HLT_REPORT_PATH false
    let n := if byteAt b 2 = 3 then n.declare 0 else n
    if n.wait = .claim then n.roleChoice else n
  else
    match n.pair.partner with
    | some p => if p = leAt b 8 6 then n.hbTake path b else (n.hbForeign path).fault 3 3 path
    | none => { n with pair := { n.pair with partner := some (leAt b 8 6) } }.hbTake path b

/-- Both claim outputs became active in one WCH cycle: position b withdraws, to COLD_STANDBY, and position a keeps the claim; nodes of equal effective position both withdraw and wait as at step 10 of R156. The positions differ once a heartbeat has shown the partner's strap, a clash being resolved; before that, whether they do is a free value (R409, R410; log entry 130). -/
def Node.claimTie (n : Node) : Node :=
  let known := n.on F.PAIR_STATUS_POS_CLASH || (!n.tn7Mode && n.pair.lastHb != [])
  let (v, n) := n.free
  if !known && v % 2 == 1 then
    { n.release with mode := .boot, level := 0, wait := .claim, pair := { n.pair with tied := some false, gapAt := none } }
  else if n.posA then n else n.enterStandby

/-- The partner's claim output changes as sensed; the input of a node strapped single reads inactive (R407, R409, R420). -/
def Node.claimSensed (n : Node) (level : Bool) : Node :=
  if n.mode = .off then n.put F.PAIR_STATUS_PARTNER_CLAIM (level && strapPos n.pair.strap != 0) else
  let n := n.put F.PAIR_STATUS_PARTNER_CLAIM (level && !n.single)
  if n.single ∨ !level then n
  else if n.on F.PAIR_STATUS_CLAIM_HELD then
    (if n.wchCycle = n.pair.claimAt then n.claimTie else n.fault 3 5 (Config.findingItem 2))
  else if n.wait = .claim then n.roleChoice else n

/-! ### Switch-back (R438, R439) -/

/-- SWITCHOVER: the RESULT, and the node with the checkpoint captured where it is accepted. -/
def Node.switchover (n : Node) : Nat × Node :=
  let h := n.rd F.PAIR_PARTNER_HEALTH_HEALTH
  if n.mode ≠ .active then (3, n)
  else if n.single ∨ n.tn7Mode ∨ n.rd F.PAIR_STATUS_PARTNER_STATE ≠ 2 ∨ bitOf h 22 ∨ bitOf h 21 ∨
      n.rd F.PAIR_STATUS_PARTNER_PROVEN < n.level then (1, n)
  else if n.roundFlag then (2, n)
  else
    let q := n.pair.nextCk
    let n := { n with pair := { n.pair with switching := some q } }
    let bad := decide (65536 < n.ckptSlots)
    (n.rd F.PAIR_CMD_RESULT, if bad then n.put F.PAIR_STATUS_CFG_ERR true else n.captureNow)

/-- The checkpoint was not held in 100 ms (R439). -/
def Node.switchTimeout (n : Node) : Node :=
  if n.pair.switching.isSome ∧ n.mode = .active then
    { n with pair := { n.pair with switching := none } }.wr F.PAIR_CMD_RESULT 1
  else n

/-! ### Self-test and drill (R440-R444) -/

/-- Number of a finding for its record's item. -/
def findingNo : Finding → Nat
  | .bootRom => 0 | .cicada => 1 | .claim => 2 | .relay => 3 | .memory => 4 | .power => 5

/-- A drill may start now (R441). -/
def Node.drillMay (n : Node) : Bool :=
  n.mode == .coldStandby && !n.single && !n.tn7Mode && n.rd F.PAIR_STATUS_PARTNER_STATE == 4 &&
    !bitOf (byteAt n.pair.lastHb 3) 1 && !bitOf (byteAt n.pair.lastHb 3) 3

/-- Start a drill: data island on and the takeover set loaded; the engines do not run (R442). -/
def Node.drillStart (n : Node) : Node :=
  if !n.drillMay then n else
  let n := { n with mode := .drill }.put F.PAIR_DRILL_RUNNING true
  let n := n.dataUp
  let n := n.loadSet.getD n
  (List.range 19).foldl (fun a e => a.put (F.SC_CTRL_RUN e) false) n

/-- A node on which no drill has completed starts its first at the heartbeat period that follows its entry into COLD_STANDBY, where one may start (R441). -/
def Node.drillFirst (n : Node) : Node :=
  if n.pair.drillDue ∧ n.mode = .coldStandby then { n with pair := { n.pair with drillDue := false } }.drillStart else n

/-- Retire a bank and bring in a spare, as at the end of a drain (R443; 06 R224). -/
def Node.drillBank (n : Node) (b : Nat) : Node :=
  if n.rd (F.FAB_BANK_STATE b) = 3 then n else
  let was := n.rd (F.FAB_BANK_STATE b)
  let n := (n.wr (F.FAB_BANK_STATE b) 3).fault 7 1 (b + 256)
  if was ≠ 1 then n else
  match (List.range 26).find? (fun k => n.rd (F.FAB_BANK_STATE k) == 0) with
  | none => n
  | some k => n.wr (F.FAB_BANK_STATE k) 1

/-- Retire an engine found bad in a drill (R443, R448). -/
def Node.drillEngine (n : Node) (e : Nat) : Node :=
  if n.retired e then n else
  (n.wr F.HLT_RETIRED_ENGINE (setBit (n.rd F.HLT_RETIRED_ENGINE) e true)).fault 15 2 e

/-- Bind the slots anew after a drill has retired engines: a slot whose engine it retired and that has another has moved (R443, R448). -/
def Node.drillBind (n old : Node) : Node :=
  let used := (List.range 16).filter (fun s => n.on (F.HLT_SLOT_USED s))
  used.foldl (fun a s =>
    if (old.boundEng s).any a.retired && (a.boundEng s).isSome then a.inc F.HLT_ENG_MOVES_MOVES else a)
    (n.bindSlots used)

/-- The loaded image uses a port: it classifies what the port receives, or a stream context sends to it (R443; log entry 115). -/
def Node.usesPort (n : Node) (p : Nat) : Bool :=
  bitsOf (n.tabW 5 p 0) 55 52 != 0 ||
    (List.range n.streamCount).any (fun s => bitsOf (n.tabW 1 s 0) 59 58 == 0 && bitOf (n.tabW 1 s 1) p)

/-- A consist port or field-bus channel that the image uses is among those that failed; `ports` by port, `chans` by channel (R443). -/
def Node.usedFails (n : Node) (ports chans : Nat) : Bool :=
  ((List.range 20).drop 4).any (fun p => bitOf ports p && n.usesPort p) ||
    (List.range 10).any (fun c => bitOf chans c && FMap.get 0 n.chanSlot c != 0)

/-- The level a drill proves; a backbone line lacks a part whose PHY failed at either end (R443; 01 R39). -/
def Node.provenLevel (n : Node) (failed ports chans : Nat) : Nat :=
  let lineBad := fun (l : Nat) (r : Res) => decide (r ∈ n.failed) || bitOf ports l || bitOf ports (l + 2)
  if n.banksN < 8 ∨ bitOf failed 26 ∨ Res.pipeline ∈ n.failed ∨ !n.powerOk ∨ (lineBad 0 .lineA && lineBad 1 .lineB) then 0
  else if bitOf failed 27 ∨ Res.topology ∈ n.failed ∨ Res.timeUnit ∈ n.failed then 1
  else if n.usedFails ports chans ∨ n.slotMissing ∨ n.banksN < 16 ∨
      n.failed.any (fun r => decide (r ∈ [Res.fieldBus, .port, .bridge, .trdp, .host])) then 2
  else 3

/-- The drill ends: `banks` as DRILL_RESULT [27:0] shows banks, table memory and topology engine, `engines`, `ports`, `chans` the Scarab engines, ports and field-bus channels that failed (R443). -/
def Node.drillEnd (n : Node) (banks engines ports chans : Nat) : Node :=
  if n.mode ≠ .drill then n else
  let failed := banks % 2 ^ 28 + 2 ^ 28 * b2n (engines % 2 ^ 18 != 0) + 2 ^ 29 * b2n (ports % 16 != 0) +
    2 ^ 30 * b2n (ports % 2 ^ 20 / 16 != 0) + 2 ^ 31 * b2n (chans % 2 ^ 10 != 0)
  let old := n
  let usedBad := (List.range 18).any (fun e => bitOf engines e && (n.slotOf e).isSome)
  let bankBad := (List.range 26).any (fun b => bitOf failed b && n.rd (F.FAB_BANK_STATE b) == 1)
  let imageBad := usedBad || bankBad || failed / 2 ^ 26 % 4 != 0 || ports % 16 != 0 || n.usedFails ports chans
  let n := (List.range 26).foldl (fun a b => if bitOf failed b then a.drillBank b else a) n
  let n := (List.range 18).foldl (fun a e => if bitOf engines e then a.drillEngine e else a) n
  let n := if engines % 2 ^ 18 = 0 then n else n.drillBind old
  let n := n.wrs [(F.PAIR_DRILL_RESULT_FAILED, failed), (F.PAIR_DRILL_PASS, b2n (!imageBad)), (F.PAIR_DRILL_RUNNING, 0),
    (F.PAIR_STATUS_PROVEN, n.provenLevel failed ports chans)]
  let n := if failed = 0 then n else n.fault 3 6 (Config.findingItem 7)
  let n := { n with pair := { n.pair with drillDone := some (n.clock.fresh : Int), drillFail := imageBad } }
  n.enterStandby

/-! ### Meanings -/

/-- A heartbeat period (R413, R441). -/
def execHeartbeatSend (s : State) : Host.Outcome State Fault Refusal := s.to s.node.hbPeriod.drillFirst

/-- A heartbeat arrives (R416). -/
def execHeartbeatReceived (path : Nat) (bytes : List Byte) (s : State) : Host.Outcome State Fault Refusal :=
  s.to (s.node.hbRx path bytes)

/-- Both paths are silent (R419). -/
def execSilenceDeclared (s : State) : Host.Outcome State Fault Refusal := s.to s.node.silenceDeclared

/-- The partner's claim changes (R420). -/
def execPartnerClaimChange (level : Bool) (s : State) : Host.Outcome State Fault Refusal := s.to (s.node.claimSensed level)

/-- The takeover (R431). -/
def execTakeoverStart (s : State) : Host.Outcome State Fault Refusal := s.to s.node.takeover

/-- A checkpoint period ends (R425). -/
def execCheckpointCapture (s : State) : Host.Outcome State Fault Refusal := s.to s.node.ckptBoundary

/-- A checkpoint block arrives (R426). -/
def execCheckpointBlockReceived (seq idx : Nat) (good last : Bool) (ck : Ckpt) (s : State) : Host.Outcome State Fault Refusal :=
  s.to (s.node.ckptBlock seq idx good last ck)

/-- The switch-back times out (R439). -/
def execSwitchoverTimeout (s : State) : Host.Outcome State Fault Refusal := s.to s.node.switchTimeout

/-- The drill period has passed, or a deferred drill is tried again (R441). -/
def execDrillTimer (s : State) : Host.Outcome State Fault Refusal := s.to s.node.drillStart

/-- The drill ends (R443). -/
def execDrillComplete (failed : Nat) (parts : DrillParts) (s : State) : Host.Outcome State Fault Refusal :=
  s.to (s.node.drillEnd failed parts.engines parts.ports parts.chans)

/-- A drill has been deferred for 1 h (R441). -/
def execDrillDeferred (s : State) : Host.Outcome State Fault Refusal :=
  s.to (if s.node.mode = .coldStandby ∧ !s.node.single then s.node.put F.PAIR_DRILL_DEFERRED true else s.node)

/-- A heartbeat path is silent (R422). -/
def execHeartbeatPathSilent (path : Nat) (s : State) : Host.Outcome State Fault Refusal := s.to (s.node.pathSilent path)

/-- The continuous self-test finds a fault (R440). -/
def execSelfTestFinding (f : Finding) (s : State) : Host.Outcome State Fault Refusal :=
  s.to (if s.node.mode = .coldStandby then (s.node.found).fault 3 5 (Config.findingItem (findingNo f)) else s.node)

/-- A lockstep mismatch (02 R50). -/
def execLockstepMismatch (addr : Nat) (s : State) : Host.Outcome State Fault Refusal := s.to (s.node.lockstep addr)

end Sys2Proof.Machine
end

