-- ==== Sys2Proof/Machine/Update.lean ====
section
/-! DEFINITION. The transfer area, chain relay, the update commands and the commands of `MGT.CMD` (13 R453, R468-R480). -/

namespace Sys2Proof.Machine

open Sys2Proof

/-! ### The transfer area (R469) -/

/-- Blocks of an image of a size. -/
def blocksOf (size : Nat) : Nat := (size + 65535) / 65536

/-- Bytes of block `k` of an image of a size. -/
def blockLen (size k : Nat) : Nat := min 65536 (size - 65536 * k)

/-- A block is held. -/
def Node.hasBlock (n : Node) (k : Nat) : Bool := FMap.get [] n.flash.xfer k != []

/-- BUILD_ID and IMAGE_SIZE of the image in the area are fixed: by block 0, or by the chain relay (R469, R471). -/
def Node.idFixed (n : Node) : Bool := n.hasBlock 0 || n.flash.xferSize != 0

/-- The area holds something. -/
def Node.xferAny (n : Node) : Bool := !n.flash.xfer.isEmpty

/-- The first block the node lacks; none when it holds every block. -/
def Node.firstLack (n : Node) : Option Nat := (List.range (blocksOf n.flash.xferSize)).find? (fun k => !n.hasBlock k)

/-- Judge the area once a block has come: filling, complete or bad. -/
def Node.judgeXfer (n : Node) : Node :=
  if !n.hasBlock 0 ∨ (n.firstLack).isSome then n.wr F.UPD_STATUS_XFER 1
  else
    let img := n.xferImage
    n.wr F.UPD_STATUS_XFER (if imgHeadOk 0x49 img && leAt img 0x16 2 == 0x0640 then 2 else 3)

/-- Store a block: block 0 fixes BUILD_ID and IMAGE_SIZE. -/
def Node.storeBlock (n : Node) (k : Nat) (b : List Byte) : Node :=
  let f := { n.flash with xfer := FMap.put [] n.flash.xfer k b }
  let f := if k = 0 then { f with xferId := imgBuild b, xferSize := imgSize b } else f
  ({ n with flash := f }.eraseFor (regionXfer + k / 2) b.length).judgeXfer

/-- Empty the area (R469). -/
def Node.emptyXfer (n : Node) : Node :=
  { n with flash := { n.flash with xfer := [], xferId := 0, xferSize := 0, frags := [], relays := [], placed := false } }.wr F.UPD_STATUS_XFER 0

/-! ### Chain relay (R470-R472) -/

/-- A relay frame (R470). -/
def Node.relayFrame (n : Node) (p ty id size block frag cause crc : Nat) (data : List Byte) : List Byte :=
  let b := beBytes 6 0x0180C200000E ++ n.portMac p ++ beBytes 2 0x88B7 ++ [0x55, 0x50, 1, BitVec.ofNat 8 ty] ++ leBytes 8 id ++
    leBytes 4 size ++ leBytes 2 block ++ [BitVec.ofNat 8 frag, BitVec.ofNat 8 cause] ++ leBytes 4 crc ++ leBytes 2 data.length ++
    zeros 6 ++ data
  b ++ zeros (60 - b.length)

/-- Send a relay frame on a native backbone port that is not barred: it waits there for its turn in class 0 (R470; 08 R287). -/
def Node.relaySend (n : Node) (p : Nat) (b : List Byte) : Node :=
  if n.canTx p ∧ n.nativeUp p ∧ n.barred p = false then (n.setPort p { n.port p with relayQ := (n.port p).relayQ ++ [b] }).relayStep p else n

/-- Relay state of a port. -/
def Node.relay (n : Node) (p : Nat) : Relay := FMap.get {} n.flash.relays p
def Node.setRelay (n : Node) (p : Nat) (r : Relay) : Node :=
  { n with flash := { n.flash with relays := FMap.put {} n.flash.relays p r } }

/-- The port by which the node relays at an end: line A while it is up, else line B (R472). -/
def Node.relayPort (n : Node) (e : Nat) : Nat := if n.linkUp (2 * e) then 2 * e else 2 * e + 1

/-- Blocks came by the chain relay from an end. -/
def Node.gotFrom (n : Node) (e : Nat) : Bool := (n.relay (2 * e)).got || (n.relay (2 * e + 1)).got

/-- Blocks are offered on this port: to both ends where the image was placed here, and with RELAY_EN to an end they did not all come from, whatever brought them (R471, R472). -/
def Node.mayOffer (n : Node) (p : Nat) : Bool :=
  decide (p < 4) && n.mode == .active && n.dataOn && n.hitless p && !n.barred p && n.relayPort (endOf p) == p && n.xferAny &&
    n.rd F.UPD_STATUS_XFER != 3 &&
    (n.flash.placed || (n.on F.UPD_CTRL_RELAY_EN && (!n.gotFrom (endOf p) || n.gotFrom (1 - endOf p))))

/-- The partner on the port has answered that it holds every block (R471). -/
def Node.relayHas (n : Node) (p : Nat) : Bool := n.flash.xferSize != 0 && decide (blocksOf n.flash.xferSize ≤ (n.relay p).acked)

/-- Send an OFFER. -/
def Node.offer (n : Node) (p : Nat) : Node :=
  if n.mayOffer p then n.relaySend p (n.relayFrame p 1 n.flash.xferId n.flash.xferSize 0 0 0 0 []) else n

/-- Send one block as its fragments. -/
def Node.sendBlock (n : Node) (p k : Nat) : Node :=
  let b := FMap.get [] n.flash.xfer k
  let c := crc32c b
  let n := (List.range 64).foldl (fun a i =>
    a.relaySend p (a.relayFrame p 2 a.flash.xferId a.flash.xferSize k i 0 c (slice b (1024 * i) 1024))) n
  n.inc F.UPD_RELAY_STAT_BLOCKS

/-- Send the blocks held in order, with at most four unacknowledged (R471). -/
def Node.relayPump : Nat → Node → Nat → Node
  | 0, n, _ => n
  | k + 1, n, p =>
    let r := n.relay p
    if r.started && n.mayOffer p && decide (r.sent < r.acked + 4) && n.hasBlock r.sent then
      Node.relayPump k ((n.sendBlock p r.sent).setRelay p { r with sent := r.sent + 1 }) p
    else n

/-- Answer on a port for an image. -/
def Node.relayAnswer (n : Node) (p ty id size block cause : Nat) : Node := n.relaySend p (n.relayFrame p ty id size block 0 cause 0 [])

/-- ACK with the first block this node lacks. -/
def Node.relayAck (n : Node) (p id size : Nat) : Node :=
  let k := if n.xferAny then (match n.firstLack with
    | none => 0xFFFF
    | some k => k) else 0
  n.relayAnswer p 3 id size k 0

/-- A relay frame is well formed: BLOCK and FRAG of a BLOCK, the block an ACK or a NAK for its CRC names (R470, R467 kind 19). -/
def relayOk (h : List Byte) : Bool :=
  let ty := byteAt h 3
  let size := leAt h 12 4
  let k := leAt h 16 2
  slice h 0 3 == [0x55, 0x50, 1] && decide (1 ≤ ty) && decide (ty ≤ 4) &&
    (ty != 3 || k == 0xFFFF || decide (k < blocksOf size)) && (ty != 4 || byteAt h 19 != 1 || decide (k < blocksOf size)) &&
    (ty != 2 || (decide (k < blocksOf size) && decide (byteAt h 18 < 64) && decide (leAt h 24 2 ≤ 1024) &&
      decide (32 + leAt h 24 2 ≤ h.length)))

/-- The receiver refuses: relay off, or another image held (R471). -/
def Node.relayRefusal (n : Node) (id : Nat) : Option Nat :=
  if !n.on F.UPD_CTRL_RELAY_EN ∨ n.mode ≠ .active then some 2
  else if n.xferAny ∧ n.flash.xferId ≠ id then some 3 else none

/-- Offer to an end, or send on to a partner that has answered, as soon as a block has checked good (R472). -/
def Node.offerEnd (n : Node) (e : Nat) : Node :=
  let q := n.relayPort e
  if (n.relay q).started then n.relayPump 4 q else n.offer q

/-- The same onward from a port. -/
def Node.offerOn (n : Node) (p : Nat) : Node := n.offerEnd (1 - endOf p)

/-- A fragment of a block (R471). -/
def Node.relayFrag (n : Node) (p : Nat) (h : List Byte) : Node :=
  let id := leAt h 4 8
  let size := leAt h 12 4
  let k := leAt h 16 2
  let i := byteAt h 18
  let len := blockLen size k
  let need := (len + 1023) / 1024
  if n.hasBlock k ∧ n.flash.xferId = id then (if i + 1 = need then n.relayAck p id size else n)
  else
    let fr := FMap.put [] n.flash.frags (64 * k + i) (slice h 32 (leAt h 24 2))
    let n := { n with flash := { n.flash with frags := fr } }
    let parts := (List.range need).map (fun j => FMap.get [] fr (64 * k + j))
    if parts.any (fun x => x.isEmpty) then n
    else
      let b := parts.flatten
      let n := { n with flash := { n.flash with frags := fr.filter (fun e => !(decide (64 * k ≤ e.1) && decide (e.1 < 64 * k + 64))) } }
      if b.length = len ∧ crc32c b = leAt h 20 4 then
        let n := { n with flash := { n.flash with xferId := id, xferSize := size } }.storeBlock k b
        let n := n.setRelay p { n.relay p with got := true }
        (n.relayAck p id size).offerOn p
      else ((n.inc F.UPD_RELAY_STAT_NAKS).pviol 20 p).relayAnswer p 4 id size k 1

/-- The sender takes an ACK (R471). -/
def Node.ackRx (n : Node) (p : Nat) (h : List Byte) : Node :=
  let k := leAt h 16 2
  let r := n.relay p
  if leAt h 4 8 ≠ n.flash.xferId ∨ !n.mayOffer p then n
  else if k = 0xFFFF then n.setRelay p { r with started := false, naks := 0, acked := blocksOf n.flash.xferSize, sent := blocksOf n.flash.xferSize }
  else
    let r := { r with started := true, naks := if k ≤ r.nakOf then r.naks else 0, acked := k, sent := if r.started then max r.sent k else k }
    (n.setRelay p r).relayPump 4 p

/-- The sender takes a NAK; three in a row for one block end the relay toward that partner (R471). -/
def Node.nakRx (n : Node) (p : Nat) (h : List Byte) : Node :=
  let r := n.relay p
  if leAt h 4 8 ≠ n.flash.xferId then n
  else if byteAt h 19 = 1 then
    let n := n.inc F.UPD_RELAY_STAT_NAKS
    let k := leAt h 16 2
    let naks := if r.naks ≠ 0 ∧ r.nakOf = k then r.naks + 1 else 1
    if 3 ≤ naks then (n.setRelay p { r with started := false, naks := 0 }).inc F.UPD_RELAY_STAT_ABANDONED
    else (n.setRelay p { r with naks := naks, nakOf := k, sent := r.acked }).relayPump 4 p
  else n.setRelay p { r with started := false }

/-- A relay frame of TYPE `ty` arrives on a backbone port; `h` starts at its header (R470, R471). -/
def Node.relayRx (n : Node) (p ty : Nat) (h : List Byte) : Node :=
  if !(n.dataOn && decide (p < 4) && n.linkUp p && decide (1 ≤ n.level)) then n
  else if !relayOk h then n.pviol 19 p
  else if byteAt h 3 ≠ ty then n
  else if ty ≤ 2 then
    match n.relayRefusal (leAt h 4 8) with
    | some c => n.relayAnswer p 4 (leAt h 4 8) (leAt h 12 4) (leAt h 16 2) c
    | none => if ty = 1 then n.relayAck p (leAt h 4 8) (leAt h 12 4) else n.relayFrag p h
  else if ty = 3 then n.ackRx p h else n.nakRx p h

/-- A relay frame by its own row: received by the MAC like any other, passed to the other end at L1 without the topology engine, discarded on a barred port (08 R284, R287; 07 R255). -/
def Node.relayRow (n : Node) (p ty : Nat) (b : List Byte) : Node :=
  if !(decide (p < 4) && n.receives p) then n else
  match n.rxRow p b with
  | (.dropped, n) => n
  | (.good b oversize, n) =>
    if n.level = 1 ∧ !n.topoWorks then n.transit b p oversize
    else if n.barred p then (n.disc 11).bounce 1
    else n.relayRx p ty (b.drop 14)

/-! ### Update commands (R469, R474-R479) -/

/-- The update buffer in management RAM (R469). -/
def Node.updBuf (n : Node) : List Byte := memReadN n.mem 0x2F0000 65536

/-- Set RESULT of `UPD.CMD`. -/
def Node.updResult (n : Node) (v : Nat) : Node := n.wr F.UPD_CMD_RESULT v

/-- Begin flash work: RESULT 15 until it is done. -/
def Node.updBegin (n : Node) (code arg : Nat) (w : List Byte) : Node :=
  { n with flash := { n.flash with busy := code, busyArg := arg, work := w } }.updResult 15

/-- BLOCK (R469). -/
def Node.updBlock (n : Node) : Node :=
  let k := n.rd F.UPD_ARG_BLOCK
  let b := n.updBuf
  let size := if k = 0 then imgSize b else if n.idFixed then n.flash.xferSize else 33554432
  let b := b.take (if k = 0 ∧ size = 0 then 65536 else blockLen size k)
  if k = 0 ∧ n.xferAny ∧ n.idFixed ∧ n.flash.xferId ≠ imgBuild b then n.updResult 8
  else if 512 ≤ k ∨ b = [] ∨ crc32c b ≠ n.rd F.UPD_ARG_CRC_CRC then n.updResult 1
  else n.updBegin 1 k b

/-- ZERO_SPEED or the named speed signal shows movement (R474; 15 R525). -/
def Node.moving (n : Node) : Bool :=
  !n.on F.PWR_DISCRETE_ZERO_SPEED ||
    (n.dataOn && n.on F.UPD_SPEED_SRC_EN &&
      (match n.boundEng (n.rd F.UPD_SPEED_SRC_SLOT) with
       | none => true
       | some e =>
         let a := sigBase e + 16 * n.rd F.UPD_SPEED_SRC_SIGNAL
         let st := rd64 n.mem (a + 8)
         !bitOf st 63 || bitOf st 62 || decide (1000000 < (n.clock.fresh + 2 ^ 48 - st % 2 ^ 48) % 2 ^ 48) || rd64 n.mem a != 0))

/-- The settings store holds a valid record of a format. -/
def Node.hasFormat (n : Node) (f : Nat) : Bool := n.flash.settings.any (fun r => ((setRecord r).map (fun x => x.1)) == some f)

/-- COMMIT: the first condition that fails gives the RESULT; accepted, it writes the commit record and restarts (R474, R475). -/
def Node.updCommit (n : Node) : Node :=
  let b := n.rd F.UPD_BATT_THRESH
  let f := imgFormat n.xferImage
  if n.rd F.UPD_STATUS_XFER ≠ 2 then n.updResult 2
  else if n.on F.UPD_STATUS_CONFIRMING then n.updResult 8
  else if n.on F.UPD_CTRL_UPDATE_LOCK then n.updResult 6
  else if n.moving then n.updResult 3
  else if b ≠ 0 ∧ n.rd F.PWR_BATTERY_VOLTS < b then n.updResult 5
  else if f ≠ n.rd F.UPD_FORMATS_BOOTED ∧ !n.hasFormat f then n.updResult 7
  else ({ n with flash := { n.flash with crec := .copy } }.fault 4 3 1).restart 4

/-- CONFIRM (R477). -/
def Node.updConfirm (n : Node) : Node :=
  if n.on F.UPD_STATUS_CONFIRMING then n.updResult 8
  else if !n.on F.UPD_STATUS_TRIAL then n.updResult 2
  else
    let n := (n.updBegin 3 0 []).put F.UPD_STATUS_CONFIRMING true
    { n with flash := { n.flash with crec := .confirm } }

/-- The confirm copy ends (R477). -/
def Node.confirmDone (n : Node) : Node :=
  if !n.on F.UPD_STATUS_CONFIRMING then n else
  let f := n.rd F.UPD_FORMATS_BOOTED
  let n := n.writeFallback n.mainImg
  let keep := n.flash.settings.filter (fun r => ((setRecord r).map (fun x => x.1)) == some f)
  let n := if keep.length < n.flash.settings.length then n.eraseFor regionSettings (n.flash.settings.map (·.length)).sum else n
  let n : Node := { n with flash := { n.flash with crec := .none, settings := keep } }
  let n : Node := (n.wrs [(F.UPD_STATUS_CONFIRMING, 0), (F.UPD_STATUS_TRIAL, 0), (F.UPD_STATUS_TRIAL_RESTARTS, 0)]).fault 4 3 4
  if n.flash.busy = 3 then { n with updUnread := true, flash := { n.flash with busy := 0 } }.updResult 0 else n

/-- SETWRITE (R478): the record stored has SEQ one above the highest held for its format. -/
def Node.updSetwrite (n : Node) : Node :=
  let b := n.updBuf
  let len := leAt b 12 4
  match setRecord b with
  | none => n.updResult 1
  | some (f, _, _) =>
    let ok := (f == n.rd F.UPD_FORMATS_BOOTED && f != 0) || (n.fbImg != [] && f == imgFormat n.fbImg) ||
      (n.hasBlock 0 && f == imgFormat (FMap.get [] n.flash.xfer 0))
    if !ok then n.updResult 1 else
    let (q, n) := match bestRecord n.flash.settings f with
      | some (s, _) => ((s + 1) % 2 ^ 32, n)
      | none => let (v, m) := n.free; (v % 2 ^ 32, m)
    let r := splice (b.take (len - 4)) 8 (leBytes 4 q)
    n.updBegin 6 0 (r ++ leBytes 4 (crc32c r))

/-- LOADER (R479). -/
def Node.updLoader (n : Node) : Node :=
  let img := n.xferImage
  if !n.hasBlock 0 ∨ (n.firstLack).isSome ∨ slotCode true n.flash.keys img ≠ 1 then n.updResult 1
  else n.updBegin 7 0 img

/-- A long-running update command finishes its flash work (R459, R469, R476, R478, R479). -/
def Node.updDone (n : Node) : Node :=
  let f := n.flash
  let fin := fun (n : Node) => { n with updUnread := true, flash := { n.flash with busy := 0, busyArg := 0, work := [] } }.updResult 0
  if f.busy = 1 then ((fin ({ n with flash := { f with placed := true } }.storeBlock f.busyArg f.work)).offerEnd 0).offerEnd 1
  else if f.busy = 4 then
    let n := (n.writeMain n.fbImg).wrs [(F.UPD_STATUS_TRIAL, 0), (F.UPD_STATUS_TRIAL_RESTARTS, 0), (F.UPD_STATUS_FELL_BACK, 1),
      (F.UPD_STATUS_FB_CAUSE, 2)]
    fin (n.fault 4 3 5)
  else if f.busy = 6 then fin ({ n with flash := { f with settings := f.settings ++ [f.work] } }.eraseFor regionSettings f.work.length)
  else if f.busy = 7 then
    let l := f.work.take (imgSigned f.work)
    let g := slice f.work (imgSigned f.work + 72) 64
    let f := if f.loaderCur = 0 then { f with loader1 := l, loaderSig1 := g, loaderCur := 1 }
      else { f with loader0 := l, loaderSig0 := g, loaderCur := 0 }
    fin (({ n with flash := f }.eraseFor (16 * f.loaderCur) l.length).fault 4 3 6)
  else n

/-- A command of `UPD.CMD` that has passed the checks of R455. -/
def Node.updCmd (n : Node) (code : Nat) : Node :=
  if code = 1 then n.updBlock
  else if code = 2 then n.updCommit
  else if code = 3 then n.updConfirm
  else if code = 4 then n.updBegin 4 0 []
  else if code = 5 then n.emptyXfer.updResult 0
  else if code = 6 then n.updSetwrite
  else if code = 7 then n.updLoader
  else n

/-- A command of `MGT.CMD` (R453, R481). -/
def Node.mgtCmd (n : Node) (code : Nat) : Node :=
  if code = 1 then n.restart 3
  else if code = 2 then
    if !n.on F.PWR_DISCRETE_ZERO_SPEED then n.wr F.MGT_CMD_RESULT 3
    else { n with pair := { n.pair with stabling := 3 } }.wr F.MGT_CMD_RESULT 0
  else n

/-- A block of a complete image crosses the Cicada link: the active node sends it, its standby stores it (R473). -/
def Node.imageCopy (n : Node) (k : Nat) (b : List Byte) : Node :=
  if !n.streams then n
  else if n.mode = .active then
    if n.rd F.UPD_STATUS_XFER = 2 ∧ n.hasBlock k then n.emit (.cicadaBlock k (FMap.get [] n.flash.xfer k)) else n
  else if n.onStandby ∧ b ≠ [] ∧ k < 512 then
    let n := if k = 0 ∧ n.xferAny ∧ n.idFixed ∧ n.flash.xferId ≠ imgBuild b then n.emptyXfer else n
    n.storeBlock k b
  else n

/-! ### Meanings -/

/-- An OFFER is due (R471). -/
def execRelayOfferTimer (port : Nat) (s : State) : Host.Outcome State Fault Refusal :=
  s.to (if (s.node.relay port).started || s.node.relayHas port then s.node else s.node.offer port)

/-- OFFER arrives; `bytes` is the whole frame (R471). -/
def execRelayOffer (port : Nat) (bytes : List Byte) (s : State) : Host.Outcome State Fault Refusal :=
  s.to (s.node.relayRow port 1 bytes)

/-- BLOCK arrives (R471). -/
def execRelayBlock (port : Nat) (bytes : List Byte) (s : State) : Host.Outcome State Fault Refusal :=
  s.to (s.node.relayRow port 2 bytes)

/-- ACK arrives (R471). -/
def execRelayAck (port : Nat) (bytes : List Byte) (s : State) : Host.Outcome State Fault Refusal :=
  s.to (s.node.relayRow port 3 bytes)

/-- NAK arrives (R471). -/
def execRelayNak (port : Nat) (bytes : List Byte) (s : State) : Host.Outcome State Fault Refusal :=
  s.to (s.node.relayRow port 4 bytes)

/-- The Cicada image copy (R473). -/
def execStandbyImageCopy (k : Nat) (bytes : List Byte) (s : State) : Host.Outcome State Fault Refusal :=
  s.to (s.node.imageCopy k bytes)

/-- Flash work of an update command ends (R459). -/
def execUpdateCommandDone (s : State) : Host.Outcome State Fault Refusal := s.to (if s.node.ctlOn then s.node.updDone else s.node)

/-- The confirm copy ends (R477). -/
def execConfirmCopyDone (s : State) : Host.Outcome State Fault Refusal := s.to (if s.node.ctlOn then s.node.confirmDone else s.node)

end Sys2Proof.Machine
end

