-- ==== Sys2Proof/Machine/Power.lean ====
section
/-! DEFINITION. The power supervisor, temperature, discrete inputs, relay feedback, and the rise and fall of the service level (15 R508-R532; 01 R39-R44; 07 R269; 13 R454). -/

namespace Sys2Proof.Machine

open Sys2Proof

/-! ### Power inputs (R508-R511) -/

/-- An input that is in range when `was` stays or comes in range: thresholds in 0.1 V and 0.1 Hz, the lower limit of the voltage lower for an input in range already (R508). -/
def inRange (battery was : Bool) (r : Reading) : Bool :=
  let within := fun enter leave high : Nat => decide ((if was then leave else enter) ≤ r.volts) && decide (r.volts ≤ high)
  !r.reversed &&
    (if battery then within 168 155 1600
     else if r.ac then within 850 800 2800 && decide (450 ≤ r.freq) && decide (r.freq ≤ 4500)
     else within 1000 950 3900)

/-- Show what an input measures (R532). -/
def Node.measureInput (n : Node) (battery : Bool) (r : Reading) : Node :=
  if battery then n.wrs [(F.PWR_BATTERY_VOLTS, min r.volts 65535), (F.PWR_BATTERY_MA, min r.freq 65535)]
  else n.wrs [(F.PWR_PRIMARY_VOLTS, min r.volts 65535), (F.PWR_PRIMARY_FREQ, if r.ac then min r.freq 65535 else 0), (F.PWR_STATUS_PRI_AC, b2n r.ac)]

/-- The supply in use: the primary where it is in range (R509, R532). -/
def Node.source (n : Node) : Nat := if n.on F.PWR_STATUS_PRI_OK then 1 else if n.on F.PWR_STATUS_BAT_OK then 2 else 0

def inputOk (battery : Bool) : Fld := if battery then F.PWR_STATUS_BAT_OK else F.PWR_STATUS_PRI_OK

/-- An input enters its range: a power-on from OFF, the end of a hold-up, a wake from STABLED (R508-R510; 13 R454). -/
def Node.inputIn (n : Node) (battery : Bool) : Node :=
  let n := n.put (inputOk battery) true
  if n.mode = .off then (if n.unpowered then n else n.powerOn) else
  let n := (n.put (if battery then F.PWR_EVENTS_BAT_IN else F.PWR_EVENTS_PRI_IN) true).wr F.PWR_STATUS_SOURCE n.source
  let n := if n.on F.PWR_STATUS_HOLDUP then
      (n.wrs [(F.PWR_STATUS_HOLDUP, 0), (F.PWR_EVENTS_HOLDUP, 1), (F.PWR_STATUS_STORE_OK, 1)]).inc F.PWR_EVENTS_HOLDUPS
    else n
  if n.mode = .stabled ∧ !battery then (n.fault 0 3 2).restart 7 else n

/-- An input leaves its range (R509, R510). -/
def Node.inputOut (n : Node) (battery : Bool) : Node :=
  let n := n.put (inputOk battery) false
  if n.mode = .off then n else
  let n := (n.put (if battery then F.PWR_EVENTS_BAT_OUT else F.PWR_EVENTS_PRI_OUT) true).wr F.PWR_STATUS_SOURCE n.source
  if n.source = 0 then n.wrs [(F.PWR_STATUS_HOLDUP, 1), (F.PWR_STATUS_STORE_OK, 0)]
  else n.fault 5 1 (b2n battery)

/-- A measurement of an input: shown, and judged against the thresholds for entering its range or for leaving it (R508). -/
def Node.powerInput (n : Node) (battery : Bool) (r : Reading) : Node :=
  let was := n.on (inputOk battery)
  let n := n.measureInput battery r
  if inRange battery was r = was then n else if was then n.inputOut battery else n.inputIn battery

/-- The end of hold-up: claim released, relays closed, every island unpowered (R511). -/
def Node.holdUpEnd (n : Node) : Node :=
  if n.mode = .off ∨ !n.on F.PWR_STATUS_HOLDUP then n else
  let n := { (n.release).dataOff with mode := .off, level := 0, wait := .none, unpowered := true, mem := [],
                                      poison := n.poison.filter (fun a => decide (a < 0x40000)) }
  n.wrs [(F.PWR_ISLANDS_CONTROL, 0), (F.PWR_STATUS_HOLDUP, 0), (F.PWR_STATUS_SOURCE, 0)]

/-- The 50 ms without power are over (R510). -/
def Node.unpoweredEnd (n : Node) : Node :=
  if n.mode ≠ .off then n else
  let n := { n with unpowered := false }
  if n.source = 0 then n else n.powerOn

/-! ### Temperature (R515) -/

/-- TEMP_WARN follows the temperatures: set, with its event, from 110 and 80 degrees, clear below 105 and 75. -/
def Node.tempWarn (n : Node) (die wall : Int) : Node :=
  if 110 ≤ die ∨ 80 ≤ wall then
    if n.on F.PWR_STATUS_TEMP_WARN then n else n.wrs [(F.PWR_STATUS_TEMP_WARN, 1), (F.PWR_EVENTS_TEMP_WARN, 1)]
  else if die < 105 ∧ wall < 75 then n.put F.PWR_STATUS_TEMP_WARN false
  else n

/-- DIE has reached 125 degrees: a restart, held with both islands unpowered. -/
def Node.overtemp (n : Node) : Node :=
  let n := (n.put F.PWR_EVENTS_OVERTEMP true).restartBegin 5
  { n with wait := .overtemp, mem := [], poison := n.poison.filter (fun a => decide (a < 0x40000)) }.put F.PWR_ISLANDS_CONTROL false

/-- What the temperatures shown make the supervisor do: the warning, the over-temperature restart, and the end of its hold below 110 degrees, where start-up goes on at step 3. -/
def Node.heat (n : Node) : Node :=
  let die := toSigned 8 (n.rd F.PWR_TEMP_DIE)
  let n := n.tempWarn die (toSigned 8 (n.rd F.PWR_TEMP_WALL))
  if n.wait = .overtemp then
    if 110 ≤ die then n else Node.boot 8 { n with wait := .none }
  else if 125 ≤ die then n.overtemp
  else n

/-- A reading of the DIE sensor. -/
def Node.dieReads (n : Node) (die : Int) : Node :=
  if n.mode = .off then n else (n.wr F.PWR_TEMP_DIE (ofSigned 8 (clampS 8 die))).heat

/-- A reading of both sensors. -/
def Node.temperature (n : Node) (die wall : Int) : Node :=
  if n.mode = .off then n else
  let w := clampS 8 wall
  (n.wrs [(F.PWR_TEMP_WALL, ofSigned 8 w),
    (F.PWR_TEMP_PEAK_WALL, ofSigned 8 (max w (toSigned 8 (n.rd F.PWR_TEMP_PEAK_WALL))))]).dieReads die

/-- A data-island rail leaves its tolerance (R532). -/
def Node.railFault (n : Node) : Node :=
  if n.dataOn then (n.dataOff).put F.PWR_ISLANDS_RAIL_FAULT true else n

/-! ### Discrete inputs (R525) -/

/-- ZERO_SPEED changes after filtering. -/
def Node.zeroSpeed (n : Node) (level : Bool) : Node :=
  if n.mode = .off ∨ n.on F.PWR_DISCRETE_ZERO_SPEED = level then n
  else (n.put F.PWR_DISCRETE_ZERO_SPEED level).put F.PWR_EVENTS_ZS_CHANGE true

/-- CAB_ACTIVE changes after filtering: a REPORT already sent is sent again, a stabled node wakes (08 R285; 13 R454). -/
def Node.cabActive (n : Node) (level : Bool) : Node :=
  if n.mode = .off ∨ n.on F.PWR_DISCRETE_CAB_ACTIVE = level then n else
  let n := ((n.put F.PWR_DISCRETE_CAB_ACTIVE level).put F.PWR_EVENTS_CAB_CHANGE true).refreshReport
  if n.mode = .stabled ∧ level then (n.fault 0 3 1).restart 7 else n

/-! ### Service level (01 R41, R43) -/

/-- A unit of a working set fails in service. -/
def Node.partFails (n : Node) (r : Res) : Node :=
  if n.mode = .off ∨ r ∈ n.failed then n else { n with failed := r :: n.failed }

/-- The node rises one level; a node that had fallen below L2 rises to it with epoch 0 (R43). -/
def Node.levelRise (n : Node) : Node :=
  if n.allowed ≤ n.level then n
  else
    let n := { n with level := n.level + 1 }.gapEnd
    if n.level = 2 ∧ n.inaug.lostL2 then
      { n with inaug := { n.inaug with lostL2 := false } }.wrs
        [(F.TOP_EPOCH_EPOCH, 0), (F.TOP_INAUG_POSITION, 0), (F.TOP_INAUG_COUNT, 0), (F.TOP_INAUG_ORIENT, 0)]
    else n

/-- The feedback contact of a relay set disagrees with its drive: CLOSED shows it, the change of the contact state counts, and both ports of the line go down (07 R268, R269, R273; 12 R440). -/
def Node.relayMismatch (n : Node) (l : Nat) : Node :=
  if n.mode = .off ∨ 2 ≤ l ∨ n.on (F.BBL_RELAY_MISMATCH l) then n else
  let n := ((n.put (F.BBL_RELAY_MISMATCH l) true).found).fault 9 3 l
  let n := n.relayOp l (!n.on (F.BBL_RELAY_DRIVE_OPEN l))
  (n.linkGoes l).linkGoes (l + 2)

/-! ### Contacts and LEDs (R526-R528) -/

/-- NODE_ACTIVE, and the FAULT relay released (12 R412; 15 R526, R527). -/
def Node.nodeActive (n : Node) : Bool := n.on F.PAIR_STATUS_CLAIM_HELD && n.mode == .active && decide (1 ≤ n.level) && n.forwards
def Node.faultContact (n : Node) : Bool :=
  !((n.mode == .coldStandby || n.mode == .drill || n.mode == .active || n.mode == .stabled) && !n.on F.HLT_REPORT_FAIL &&
    !n.on F.PWR_DISCRETE_FAULT_FORCE)

/-- Colours of the front-panel LEDs. -/
inductive Colour where
  | green | yellow | red
deriving DecidableEq, Repr

/-- What an LED shows; flashing is at 2 Hz. -/
inductive Led where
  | dark
  | steady (c : Colour)
  | flash (c : Colour)
deriving DecidableEq, Repr

/-- PWR (R528). -/
def Node.ledPwr (n : Node) : Led :=
  if n.on F.PWR_STATUS_HOLDUP then .flash .green
  else if n.on F.PWR_STATUS_PRI_OK && n.on F.PWR_STATUS_BAT_OK then .steady .green
  else if n.on F.PWR_STATUS_PRI_OK || n.on F.PWR_STATUS_BAT_OK then .steady .yellow
  else .dark

/-- ROLE (R528). -/
def Node.ledRole (n : Node) : Led :=
  match n.mode with
  | .active => .steady .green
  | .coldStandby => .steady .yellow
  | .drill => .flash .yellow
  | _ => .dark

/-- TRAIN (R528); epoch 0 above L1 shows as at L1 (DEDUCED, log entry 123). -/
def Node.ledTrain (n : Node) : Led :=
  if !n.topoWorks then .dark
  else if n.epoch = 0 then .steady .yellow
  else if n.roundFlag then .flash .green
  else .steady .green

/-- FAULT (R528). -/
def Node.ledFault (n : Node) : Led :=
  if n.mode = .updating then .flash .red else if n.faultContact then .steady .red else .dark

/-- The LEDs PWR, ROLE, TRAIN and FAULT; in OFF and STABLED every one is dark (R528). -/
def Node.leds (n : Node) : List Led :=
  if n.mode = .off ∨ n.mode = .stabled then [.dark, .dark, .dark, .dark]
  else [n.ledPwr, n.ledRole, n.ledTrain, n.ledFault]

/-! ### Meanings -/

/-- An input enters its range (R508). -/
def execPowerInputEntersRange (battery : Bool) (volts : Nat) (ac : Bool) (freq : Nat) (s : State) : Host.Outcome State Fault Refusal :=
  s.to (s.node.powerInput battery { volts := volts, ac := ac, freq := freq })

/-- An input leaves its range (R509). -/
def execPowerInputLeavesRange (battery : Bool) (reading : Reading) (s : State) : Host.Outcome State Fault Refusal :=
  s.to (s.node.powerInput battery reading)

/-- The hold-up ends (R511). -/
def execEndOfHoldUp (s : State) : Host.Outcome State Fault Refusal := s.to s.node.holdUpEnd

/-- The unpowered interval ends (R510). -/
def execUnpowered50MsEnd (s : State) : Host.Outcome State Fault Refusal := s.to s.node.unpoweredEnd

/-- A temperature reading (R515). -/
def execTempWarn (die wall : Int) (s : State) : Host.Outcome State Fault Refusal := s.to (s.node.temperature die wall)

/-- Over-temperature (R515). -/
def execOvertemp (die : Int) (s : State) : Host.Outcome State Fault Refusal := s.to (s.node.dieReads die)

/-- The over-temperature hold ends (R515). -/
def execOvertempHoldEnd (die : Int) (s : State) : Host.Outcome State Fault Refusal := s.to (s.node.dieReads die)

/-- A rail of the data island fails (R532). -/
def execRailFault (s : State) : Host.Outcome State Fault Refusal := s.to s.node.railFault

/-- ZERO_SPEED changes (R525). -/
def execZeroSpeedChange (level : Bool) (s : State) : Host.Outcome State Fault Refusal := s.to (s.node.zeroSpeed level)

/-- CAB_ACTIVE changes (R525). -/
def execCabActiveChange (level : Bool) (s : State) : Host.Outcome State Fault Refusal := s.to (s.node.cabActive level)

/-- A unit fails (01 R41). -/
def execWorkingSetPartFails (res : Res) (s : State) : Host.Outcome State Fault Refusal := s.to (s.node.partFails res)

/-- The service level rises (01 R43). -/
def execServiceLevelRise (s : State) : Host.Outcome State Fault Refusal := s.to s.node.levelRise

/-- A relay set does not follow its drive (07 R269). -/
def execRelayMismatch (line : Nat) (s : State) : Host.Outcome State Fault Refusal := s.to (s.node.relayMismatch line)

end Sys2Proof.Machine
end

