-- ==== Sys2Proof/Machine/Bus.lean ====
section
/-! DEFINITION. The Ibsum fabric (05 R172-R182; 13 R455-R461; 14 R484-R488): decode, protection, ownership, command legality, reads and writes of registers and memories, captures and held words, the lock of a far initiator. -/

namespace Sys2Proof.Machine

open Sys2Proof

/-- How an access ends: with a value, with a bus error, refused by protection or ownership, later through a remote window, without any answer, or in an effect the manual does not define (00 R10). -/
inductive BusRes where
  | ok (v : Nat)
  | err
  | prot
  | notOwner
  | later
  | silent
  | undef (addr : Nat)
deriving DecidableEq, Repr

/-- What an access ends in, with the node after it. -/
structure BusOut where
  res : BusRes
  node : Node

/-- A master as captures, held words and command results know it: identities 3 and 4 for each far node (00 R533, 05 R177). -/
def mkeyOf (m : Master) : Nat := if m.id = 3 ∨ m.id = 4 then m.id + 8 * m.node else m.id

/-! ### Decode (14 R484-R486) -/

/-- What lies at an Ibsum address. -/
inductive Target where
  | rom
  | ram
  | regs
  | sig (e : Nat)
  | mbox (e : Nat)
  | code (e : Nat)
  | table
  | window
deriving DecidableEq, Repr

/-- The target of an address; none where it is undecoded (R484, R500, R502). -/
def targetOf (a : Nat) : Option Target :=
  if a < 0x40000 then some .rom
  else if a < 0x100000 then none
  else if a < 0x300000 then some .ram
  else if a < 0x10000000 then none
  else if a < 0x10060000 then some .regs
  else if a < 0x10100000 then none
  else if a < 0x10110000 then some .regs
  else if a < 0x10200000 then none
  else if a < 0x10210000 then some .regs
  else if a < 0x10300000 then none
  else if a < 0x10320000 then some .regs
  else if a < 0x10400000 then none
  else if a < 0x10408000 then some .regs
  else if a < 0x10500000 then none
  else if a < 0x10580000 then some .regs
  else if a < 0x105BF000 then some (.code 18)
  else if a < 0x105C0000 then some (.mbox 18)
  else if a < 0x10600000 then none
  else if a < 0x10610000 then some .regs
  else if a < 0x10700000 then none
  else if a < 0x107A0000 then some .regs
  else if a < 0x10800000 then none
  else if a < 0x10810000 then some .regs
  else if a < 0x20000000 then none
  else if a < 0x21200000 then
    let e := (a - 0x20000000) / 0x100000
    let o := a % 0x100000
    if o < 0x40000 then some .regs else if o < 0x7F000 then some (.sig e) else if o < 0x80000 then some (.mbox e)
    else if o < 0x90000 then some (.code e) else some .regs
  else if a < 0x40000000 then none
  else if a < 0x40600000 then some .table
  else if a < 0x80000000 then none
  else if a < 0x100000000 then some .window
  else none

/-- The last byte lies in the target of the first. -/
def Access.inside (x : Access) : Bool := decide (x.size ≠ 0) && targetOf (x.addr + x.size - 1) == targetOf x.addr

/-- The access runs from its target into an undecoded address (R485). -/
def Access.undecoded (x : Access) : Bool := !x.inside && (x.size == 0 || targetOf (x.addr + x.size - 1) == none)

/-- One aligned 32-bit word (00 R8). -/
def Access.word (x : Access) : Bool := x.size == 4 && x.addr % 4 == 0

/-- The size the target takes: words of register blocks, signal stores, code and windows; bytes, half-words and words of boot ROM, management RAM, mailboxes and table window (R8, R88, R378). -/
def Access.sizeOk (x : Access) (t : Target) : Bool :=
  match t with
  | .rom | .ram | .mbox _ | .table => x.size == 1 || x.size == 2 || x.size == 4
  | .regs | .sig _ | .code _ | .window => x.word

/-! ### Protection (05 R173-R176) -/

/-- The lowest enabled region that holds an address. -/
def Node.region (n : Node) (a : Nat) : Option Nat :=
  (List.range 32).find? (fun k => n.on (F.PRO_REGION_RIGHTS_EN k) &&
    decide (n.rd (F.PRO_REGION_BASE_ADDR k) ≤ a / 4096) && decide (a / 4096 ≤ n.rd (F.PRO_REGION_LIMIT_ADDR k)))

/-- A far node meets a region's scope (R174). -/
def Node.scopeOk (n : Node) (scope far : Nat) : Bool :=
  let p := n.dirPos far
  p != 0 && (scope == 0 ||
    (scope == 1 && leBytes 8 (n.tabW 8 p 4) ++ leBytes 8 (n.tabW 8 p 5) == FMap.get [] n.settings 1))

/-- The deciding region lets the request pass; the service port of a node without regions passes in UPDATING and FAULTED (R173, R174; 13 R457). -/
def Node.protOk (n : Node) (x : Access) : Bool :=
  match n.region x.addr with
  | none => x.m.id == 0 ||
      (x.m.id == 2 && (n.mode == .updating || n.mode == .faulted) && !n.on F.PRO_CTRL_BOOT_DONE)
  | some k =>
    bitOf (n.rd (F.PRO_REGION_RIGHTS_RW k)) (2 * x.m.id + b2n x.wr) &&
      (x.m.id != 4 || n.scopeOk (n.rd (F.PRO_REGION_RIGHTS_SCOPE k)) x.m.node)

/-- Record a violation: counted always, held where none is (R176, R461). -/
def Node.viol (n : Node) (x : Access) (reg : Option Nat) (late : Bool) : Node :=
  let n := n.inc F.PRO_VIOL_COUNT_COUNT
  if n.on F.PRO_VIOL_VALID then n else
  n.wrs [(F.PRO_VIOL_VALID, 1), (F.PRO_VIOL_ID, x.m.id), (F.PRO_VIOL_FARPOS, if x.m.id = 3 ∨ x.m.id = 4 then x.m.pos else 0),
    (F.PRO_VIOL_REGION, reg.getD 0), (F.PRO_VIOL_WB_LATE, b2n late), (F.PRO_VIOL_NONE, b2n reg.isNone),
    (F.PRO_VIOL_WRITE, b2n x.wr), (F.PRO_VIOL_ADDR_ADDR, x.addr)]

/-- A logged bus error. -/
def Node.busLogged (n : Node) (x : Access) : BusOut := ⟨.err, n.viol x (n.region x.addr) false⟩

/-! ### Ownership (05 R177-R182) -/

/-- The master owns the node. -/
def Node.owns (n : Node) (m : Master) : Bool :=
  n.rd F.MGT_OWNER_ID == m.id &&
    (m.id != 3 || n.rd F.MGT_OWNER_NODE_HI * 2 ^ 32 + n.rd F.MGT_OWNER_NODE_NODE_LO == m.node)

/-- The pending request is the master's. -/
def Node.pends (n : Node) (m : Master) : Bool :=
  n.on F.MGT_OWN_PEND_VALID && n.rd F.MGT_OWN_PEND_ID == m.id &&
    (m.id != 3 || n.rd F.MGT_OWN_PEND_NODE_HI * 2 ^ 32 + n.rd F.MGT_OWN_PEND_NODE_NODE_LO == m.node)

/-- The registers `BRG.WINn_*` (11 R379, R405). -/
def winReg (a : Nat) : Bool :=
  match regAt a with
  | some (.BRG_WIN_CTRL _) | some (.BRG_WIN_TARGET _) | some (.BRG_WIN_NODE_LO _) | some (.BRG_WIN_NODE_HI _)
  | some (.BRG_WIN_SEQ _) | some (.BRG_WIN_FENCE_DROPS _) | some (.BRG_WIN_REFUSED _) => true
  | _ => false

/-- A write passes the arbiter: the owner's, REQUEST and WITHDRAW, regions marked OX or XO, and the service port's in FAULTED (R178; 13 R457). Writes of a window's registers always need ownership (11 R379). -/
def Node.mayWrite (n : Node) (x : Access) : Bool :=
  n.owns x.m || (x.m.id == 2 && n.mode == .faulted) ||
    (x.addr == 0x10010020 && (x.value % 16 == 1 || x.value % 16 == 4)) ||
    (!winReg x.addr && match n.region x.addr with
     | none => false
     | some k => n.on (F.PRO_REGION_RIGHTS_OX k) || (x.m.id == 0 && n.on (F.PRO_REGION_RIGHTS_XO k)))

/-- A refusal for want of ownership (R178). -/
def Node.ownRefused (n : Node) (x : Access) : Node :=
  let n := n.inc F.MGT_OWN_REFUSALS_COUNT
  if n.on F.MGT_OWN_LOG_VALID then n
  else n.wrs [(F.MGT_OWN_LOG_VALID, 1), (F.MGT_OWN_LOG_ID, x.m.id), (F.MGT_OWN_LOG_ADDR_ADDR, x.addr)]

/-- The lease restarts (R180). -/
def Node.leaseStart (n : Node) : Node := { n with leaseAt := n.clock.fresh }

/-- Clear the pending request. -/
def Node.clearPend (n : Node) : Node :=
  n.wrs [(F.MGT_OWN_PEND_VALID, 0), (F.MGT_OWN_PEND_ID, 0), (F.MGT_OWN_PEND_NODE_HI, 0), (F.MGT_OWN_PEND_NODE_NODE_LO, 0)]

/-- Ownership passes to the pending master, or else to the executive (R179, R180). -/
def Node.passOwner (n : Node) : Node :=
  let id := if n.on F.MGT_OWN_PEND_VALID then n.rd F.MGT_OWN_PEND_ID else 0
  let hi := if n.on F.MGT_OWN_PEND_VALID then n.rd F.MGT_OWN_PEND_NODE_HI else 0
  let lo := if n.on F.MGT_OWN_PEND_VALID then n.rd F.MGT_OWN_PEND_NODE_NODE_LO else 0
  ((n.wrs [(F.MGT_OWNER_ID, id), (F.MGT_OWNER_NODE_HI, hi), (F.MGT_OWNER_NODE_NODE_LO, lo)]).clearPend).leaseStart

/-- Results of ownership commands (R182). -/
def ownDone : Nat := 0
def ownNotOwner : Nat := 1
def ownBusy : Nat := 2
def ownRefusedRes : Nat := 3
def resState : Nat := 4

/-- REQUEST (R179): an executive that owns decides at once by settings key 0004h. -/
def Node.ownRequest (n : Node) (m : Master) : Nat × Node :=
  if m.id = 0 ∨ 3 < m.id then (ownRefusedRes, n)
  else if n.on F.MGT_OWN_PEND_VALID then (if n.pends m then ownDone else ownBusy, n)
  else
    let node := if m.id = 3 then m.node else 0
    let n := n.wrs [(F.MGT_OWN_PEND_VALID, 1), (F.MGT_OWN_PEND_ID, m.id), (F.MGT_OWN_PEND_NODE_HI, node / 2 ^ 32),
      (F.MGT_OWN_PEND_NODE_NODE_LO, node % 2 ^ 32)]
    if n.rd F.MGT_OWNER_ID ≠ 0 then (ownDone, n)
    else if bitOf (byteAt (FMap.get [] n.settings 4) 0) m.id then (ownDone, (n.msi 32).passOwner)
    else (ownRefusedRes, ((n.msi 32).clearPend).msi 32)

/-- An ownership command of R179: RESULT and the node. -/
def Node.ownCmd (n : Node) (m : Master) (code : Nat) : Nat × Node :=
  if code = 1 then n.ownRequest m
  else if code = 4 then (if n.pends m then (ownDone, n.clearPend) else (ownRefusedRes, n))
  else if !n.owns m then (ownNotOwner, n)
  else if code = 2 then (ownDone, n.passOwner)
  else (ownDone, n.leaseStart)

/-- Keep the RESULT a master reads in `MGT.OWN_CMD`. -/
def Node.setResult (n : Node) (m : Master) (v : Nat) : Node := { n with results := FMap.put 0 n.results (mkeyOf m) v }

/-- The lease runs out (R180). -/
def Node.leaseEnd (n : Node) : Node := if n.rd F.MGT_OWNER_ID = 0 then n else n.passOwner

/-! ### Commands and their legality (13 R455-R460) -/

/-- The command a value encodes in a CMD register, 0 where it encodes none (R455). -/
def cmdOf (r : Reg) (v : Nat) : Nat :=
  let c := v % 16
  match r with
  | .MGT_OWN_CMD => if c ≤ 4 then c else 0
  | .MGT_CMD => if c ≤ 2 then c else 0
  | .UPD_CMD => if c ≤ 7 then c else 0
  | .TIM_STEP_CMD => if c ≤ 2 then c else 0
  | .PAIR_CMD => if c ≤ 2 then c else 0
  | .CAN_CMD _ => if c ≤ 3 then c else 0
  | .BBL_GEARCMD _ _ => if c % 8 ≤ 4 then c % 8 else 0
  | .BRG_LOCK_CTRL => if c ≤ 3 then c else 0
  | .FAB_FREEZE => v % 2
  | _ => 0

/-- A command is legal in the present state (R456); whether its register has power is judged apart. -/
def Node.legal (n : Node) (r : Reg) (c : Nat) : Bool :=
  let s := n.mode
  match r with
  | .MGT_OWN_CMD => s == .coldStandby || s == .drill || s == .active
  | .MGT_CMD =>
    if c = 1 then s == .coldStandby || s == .drill || s == .active || s == .faulted else s == .active
  | .UPD_CMD =>
    if c = 1 ∨ c = 5 ∨ c = 6 then s == .coldStandby || s == .drill || s == .active || s == .faulted
    else if c = 2 then s == .coldStandby || (s == .active && !n.roundFlag) || s == .faulted
    else s == .coldStandby || s == .active
  | .TIM_STEP_CMD => s == .active
  | .PAIR_CMD => if c = 1 then s == .coldStandby || s == .active else s == .coldStandby
  | .CAN_CMD _ | .BBL_GEARCMD _ _ | .BRG_LOCK_CTRL => s != .boot && s != .drill
  | _ => true

/-- The register's previous command is still in progress (R459). -/
def Node.cmdBusy (n : Node) (r : Reg) : Bool :=
  match r with
  | .UPD_CMD => n.flash.busy != 0
  | .PAIR_CMD => n.pair.switching.isSome
  | .MGT_CMD => n.pair.stabling != 0
  | .BRG_LOCK_CTRL => n.on F.BRG_LOCK_CTRL_PENDING
  | .BBL_GEARCMD l e =>
    ((n.port (l + 2 * e)).wanted.isSome || (match (n.port (l + 2 * e)).shift with
     | some sh => sh.owner
     | none => false))
  | .FAB_FREEZE => n.fab.freezing
  | _ => false

/-- Record a refusal under R458 or R459. -/
def Node.cmdRefused (n : Node) (x : Access) (busy : Bool) (c : Nat) : Node :=
  let n := n.inc F.MGT_REJECT_COUNT_COUNT
  if n.on F.MGT_REJECT_VALID then n
  else n.wrs [(F.MGT_REJECT_VALID, 1), (F.MGT_REJECT_REASON, b2n busy), (F.MGT_REJECT_ID, x.m.id),
    (F.MGT_REJECT_STATE, modeCode n.mode), (F.MGT_REJECT_CODE, c), (F.MGT_REJECT_ADDR_ADDR, x.addr)]

/-- RESULT 4 of a command refused with STATE (R458). -/
def Node.resultState (n : Node) (r : Reg) (m : Master) : Node :=
  match r with
  | .MGT_OWN_CMD => n.setResult m resState
  | .MGT_CMD => n.wr F.MGT_CMD_RESULT resState
  | .UPD_CMD => n.wr F.UPD_CMD_RESULT resState
  | .TIM_STEP_CMD => n.wr F.TIM_STEP_CMD_RESULT resState
  | .PAIR_CMD => n.wr F.PAIR_CMD_RESULT resState
  | .CAN_CMD ch => if n.dataOn then n.wr (F.CAN_CMD_RESULT ch) resState else n
  | .BBL_GEARCMD l e => if n.dataOn then n.wr (F.BBL_GEARCMD_RESULT l e) resState else n
  | .BRG_LOCK_CTRL => if n.dataOn then n.wr F.BRG_LOCK_CTRL_RESULT resState else n
  | _ => n

/-- SWITCHOVER and DRILL_NOW (12 R438, R441). A drill whose conditions fail is deferred. -/
def Node.pairCmd (n : Node) (c : Nat) : Node :=
  if c = 1 then
    let (r, n) := n.switchover
    n.wr F.PAIR_CMD_RESULT (if n.pair.switching.isSome then 0 else r)
  else (n.drillStart).wr F.PAIR_CMD_RESULT 0

/-- ACCEPT_STEP and SET (09 R332, R345). -/
def Node.stepCmd (n : Node) (c : Nat) : Node :=
  if c = 1 then
    let (ok, n) := n.acceptStep
    n.wr F.TIM_STEP_CMD_RESULT (if ok then 0 else 1)
  else
    let (r, n) := n.timeSet
    n.wr F.TIM_STEP_CMD_RESULT r

/-- RECOVER, FLUSH_TX and RXACK (10 R353, R362, R365). -/
def Node.canCmd (n : Node) (ch c count : Nat) : Node :=
  if c = 1 then
    let (r, n) := n.canRecover ch
    n.wr (F.CAN_CMD_RESULT ch) r
  else if c = 2 then (n.canFlush ch).wr (F.CAN_CMD_RESULT ch) 0
  else (n.rxAck ch count).wr (F.CAN_CMD_RESULT ch) 0

/-- A command of `BBL.GEARCMD` (07 R260). -/
def Node.gearCmd (n : Node) (l e c : Nat) : Node :=
  let (r, n) := n.gearOwner (l + 2 * e) c
  n.wr (F.BBL_GEARCMD_RESULT l e) r

/-- The effect of a command that has passed every check. -/
def Node.command (n : Node) (m : Master) (r : Reg) (c v : Nat) : Node :=
  match r with
  | .MGT_OWN_CMD =>
    let (res, n) := n.ownCmd m c
    n.setResult m res
  | .MGT_CMD => n.mgtCmd c
  | .UPD_CMD => n.updCmd c
  | .TIM_STEP_CMD => n.stepCmd c
  | .PAIR_CMD => n.pairCmd c
  | .CAN_CMD ch => n.canCmd ch c (bitsOf v 15 8)
  | .BBL_GEARCMD l e => n.gearCmd l e c
  | .BRG_LOCK_CTRL => (n.wr F.BRG_LOCK_CTRL_WIN (bitsOf v 21 16)).lockCmd m c
  | .FAB_FREEZE => n.freeze
  | _ => n

/-! ### Register reads -/

/-- A register word as its fields hold it. -/
def Node.regWord (n : Node) (r : Reg) : Nat := (r.fields.map (fun f => n.rd (r.fld f) * 2 ^ f.lo)).sum

/-- The word of a data unit's register while the data island is unpowered (02 R66). -/
def Node.regOff (n : Node) (r : Reg) : Nat :=
  (r.fields.map (fun f => (if f.code = .keep then n.rd (r.fld f) else f.rst) * 2 ^ f.lo)).sum

/-- `FAB.STATUS` (06; 02 R66): the bank counts are kept outside the data island. -/
def Node.fabStatus (n : Node) : Nat :=
  n.banksN * 2 ^ 27 + n.banksSpare * 2 ^ 25 + n.rd F.FAB_STATUS_DRAINING * 2 ^ 24 + n.rd F.FAB_STATUS_DRAIN_BANK * 2 ^ 19 +
    b2n (decide (n.banksSpare = 0) || decide (n.banksN < 24)) * 2 ^ 18

/-- `SCnn.STATUS` (03 R118, 14 R502). -/
def Node.scStatus (n : Node) (e : Nat) : Nat :=
  let x := n.eng e
  let st := if !n.dataOn then 0 else if n.retired e then 6 else if x.phase = .running then 3
    else if x.phase = .releasing then 4 else if (n.slotIdx e).isNone then 7 else if n.on (F.SC_CTRL_HOLD e) then 5 else 1
  st * 2 ^ 28 + (if n.dataOn then x.act.trig * 2 ^ 22 + x.act.pc % 65536 else 0) +
    (if e = 18 then 16 else (n.slotOf e).getD 31) * 2 ^ 16

/-- ms of lease left (05 R180, R182). -/
def Node.leaseLeft (n : Node) : Nat :=
  if n.rd F.MGT_OWNER_ID = 0 then 0 else (2000000 - (n.clock.fresh - n.leaseAt) + 999) / 1000

/-- The selected record of the flash log (13 R465, R481). -/
def Node.logRecord (n : Node) : Option FaultRec := n.log.flash.find? (fun r => r.seq == n.rd F.MGT_FLOG_SEL_SEQ)

/-- The bytes of a fault record (13 R462). -/
def faultBytes (r : FaultRec) : List Byte :=
  leBytes 4 r.seq ++ leBytes 6 r.fresh ++ leBytes 6 r.sec ++ leBytes 4 r.ns ++ leBytes 2 r.epoch ++ leBytes 1 r.state ++
    leBytes 1 r.source ++ leBytes 2 r.code ++ leBytes 2 r.rep ++ leBytes 4 r.arg

/-- The state of a flash block: 0 in service, 1 spare, 2 retired (13 R480). -/
def Node.ebState (n : Node) (dev b : Nat) : Nat :=
  if dev * Config.flashBlocks + b ∈ n.flash.retired then 2 else if b ∈ n.blocksIn dev then 0 else 1

/-- The fingerprint of a key slot (05 R159). -/
def Node.keyPrint (n : Node) (k : Nat) : List Byte :=
  let key := FMap.get [] n.flash.keys k
  if key = [] then [] else sha512 key

/-- The word a register shows, without the effects of the read. -/
def Node.regShow (n : Node) (m : Master) (r : Reg) : Nat :=
  match r with
  | .MGT_STATE => n.rd F.MGT_STATE_SLOT * 2 ^ 11 + n.rd F.PRO_CTRL_BOOT_DONE * 2 ^ 8 + modeCode n.mode * 16 + n.level
  | .MGT_OWNER => n.regWord r + n.leaseLeft * 2 ^ 20
  | .MGT_OWN_CMD => FMap.get 0 n.results (mkeyOf m) * 2 ^ 28
  | .MGT_FLOG_STATUS => b2n n.logRecord.isSome * 2 ^ 31 + n.log.staged.length * 2 ^ 16 + n.log.lost
  | .MGT_FLOG_SEQ => (n.log.flash.map (·.seq)).getLastD 0
  | .MGT_FLOG_DATA k =>
    (match n.logRecord with
     | none => 0
     | some x => leAt (faultBytes x) (4 * k) 4)
  | .HLT_REPORT => n.health
  | .HLT_SPARES => n.spareEngs.length * 2 ^ 27 + n.banksSpare * 2 ^ 25 + n.flashSpare 0 * 2 ^ 16 + n.flashSpare 1 * 2 ^ 7
  | .PAIR_DRILL_AGE => n.drillAge
  | .UPD_XFER => n.flash.xfer.length * 2 ^ 16 + (if n.xferAny then blocksOf n.flash.xferSize else 0)
  | .UPD_XFER_ID_LO => if n.xferAny then n.flash.xferId % 2 ^ 32 else 0
  | .UPD_XFER_ID_HI => if n.xferAny then n.flash.xferId / 2 ^ 32 else 0
  | .UPD_MAIN_ID_LO => imgBuild n.mainImg % 2 ^ 32
  | .UPD_MAIN_ID_HI => imgBuild n.mainImg / 2 ^ 32
  | .UPD_FB_ID_LO => imgBuild n.fbImg % 2 ^ 32
  | .UPD_FB_ID_HI => imgBuild n.fbImg / 2 ^ 32
  | .UPD_FORMATS => n.rd F.UPD_FORMATS_BOOTED * 2 ^ 16 + (if n.hasBlock 0 then imgFormat n.xferImage else 0)
  | .UPD_EB_SEL => n.rd F.UPD_EB_SEL_DEV * 2 ^ 31 + n.ebState (n.rd F.UPD_EB_SEL_DEV) (n.rd F.UPD_EB_SEL_BLOCK) * 2 ^ 29 +
      n.rd F.UPD_EB_SEL_BLOCK
  | .UPD_EB_INFO =>
    let d := FMap.get 0 n.flash.erases (n.rd F.UPD_EB_SEL_DEV * Config.flashBlocks + n.rd F.UPD_EB_SEL_BLOCK)
    d * 2 ^ 16 + (Config.eraseBudget - d)
  | .UPD_KEYFP_LO k => leAt (n.keyPrint k) 0 4
  | .UPD_KEYFP_HI k => leAt (n.keyPrint k) 4 4
  | .PWR_DISCRETE => n.rd F.PWR_DISCRETE_ZERO_SPEED * 2 ^ 31 + n.rd F.PWR_DISCRETE_CAB_ACTIVE * 2 ^ 30 + b2n n.nodeActive * 2 ^ 29 +
      b2n n.faultContact * 2 ^ 28 + n.rd F.PWR_DISCRETE_FAULT_FORCE * 2 ^ 27 + n.rd F.PWR_DISCRETE_ZS_FILT * 2 ^ 8 +
      n.rd F.PWR_DISCRETE_CAB_FILT
  | .TIM_NOW_SLO => secOf n.clock.now % 2 ^ 32
  | .TIM_NOW_SHI => secOf n.clock.now / 2 ^ 32 % 65536
  | .TIM_NOW_NS => nsOf n.clock.now
  | .TIM_NOW_FRAC => fracOf n.clock.now
  | .FAB_STATUS => n.fabStatus
  | .FAB_CELLS_FREE => if n.dataOn then n.freeCells else 0
  | .PRT_CNT_LO p i => FMap.get 0 n.cnt (p * 64 + i) % 2 ^ 32
  | .PRT_CNT_HI p i => FMap.get 0 n.cnt (p * 64 + i) / 2 ^ 32 % 256
  | .PRT_DELTA p i => FMap.get 0 n.delta (p * 64 + i)
  | .TOP_PC => if n.dataOn then (n.eng 18).act.pc else 0
  | .TOP_PORTSTAT p => if n.dataOn then n.portStat p else 0
  | .BRG_STATUS =>
    let b := (n.brg.tags.filter (fun t => t.2.busy)).length
    (1024 - b) * 2 ^ 16 + b2n n.brg.lock.isSome * 2 ^ 15 + b
  | .BRG_ERRLOG => n.rd F.BRG_ERRLOG_OVERFLOW * 2 ^ 31 +
      ((List.range 16).filter (fun k => n.on (F.BRG_ERR_CAUSE_VALID k))).length * 2 ^ 16 + n.rd F.BRG_ERRLOG_LOST
  | .BRG_DS_STAT d =>
    let ds := n.dataset d
    b2n ds.en * 2 ^ 31 + b2n ds.sub * 2 ^ 30 + n.rd (F.BRG_DS_STAT_TIMED_OUT d) * 2 ^ 29 + n.rd (F.BRG_DS_STAT_TOUT_EV d) * 2 ^ 28
  | .CAN_STATUS ch => n.regWord r % 2 ^ 28 + n.canState ch * 2 ^ 28
  | .CAN_QUEUES ch =>
    let c := n.chan ch
    c.txq.length * 2 ^ 24 + c.rx.length * 2 ^ 8 + (c.rx.filter (·.held)).length
  | .MVB_STATUS i => n.regWord r % 2 ^ 28 + n.mvbState i * 2 ^ 28
  | .MVB_QUEUES i =>
    let c := n.chan (8 + i)
    c.rx.length * 2 ^ 8 + (c.rx.filter (·.held)).length
  | .HST_IRQ_PEND i => ((List.range 32).map (fun s => b2n (n.irqCond (32 * i + s)) * 2 ^ s)).sum
  | .SC_STATUS e => n.scStatus e
  | r => n.regWord r

/-- A register block as a master's capture names it (00 R533; 14 R498, R500). -/
def blockOf (a : Nat) : Nat :=
  if 0x40000000 ≤ a then 0x40000000
  else if 0x20000000 ≤ a then a / 0x100000 * 0x100000
  else if 0x10300000 ≤ a ∧ a < 0x10320000 then a / 0x1000 * 0x1000
  else a / 0x10000 * 0x10000

/-- The capture a master holds for the value at address `base`. -/
def Node.capAt (n : Node) (m : Master) (base : Nat) : Option Capture :=
  n.caps.find? (fun c => c.key == (mkeyOf m) && c.block == blockOf base && c.addr == base)

/-- Take a capture, in place of the master's last one in that block. -/
def Node.capture (n : Node) (m : Master) (base : Nat) (words : List (Nat × Nat)) : Node :=
  let c : Capture := { key := (mkeyOf m), block := blockOf base, addr := base, words := words }
  { n with caps := n.caps.filter (fun x => !(x.key == c.key && x.block == c.block)) ++ [c] }

/-- A read of word `k` of a value of several words at `base`, whose words are `ws` now (00 R533). -/
def Node.wideRead (n : Node) (m : Master) (base k : Nat) (ws : List Nat) : Nat × Node :=
  if k = 0 then (ws.getD 0 0, n.capture m base ((List.range ws.length).map (fun i => (i, ws.getD i 0))))
  else
    match n.capAt m base with
    | some c => (((c.words.find? (fun w => w.1 == k)).map (·.2)).getD (ws.getD k 0), n)
    | none => (ws.getD k 0, n)

/-- The value of several words a register belongs to: its lowest address, the word's number and the registers in order (07 R252, 09 R315). -/
def wideReg (r : Reg) : Option (Nat × Nat × List Reg) :=
  let now := [Reg.TIM_NOW_SLO, .TIM_NOW_SHI, .TIM_NOW_NS, .TIM_NOW_FRAC]
  match r with
  | .TIM_NOW_SLO => some (0x10100010, 0, now)
  | .TIM_NOW_SHI => some (0x10100010, 1, now)
  | .TIM_NOW_NS => some (0x10100010, 2, now)
  | .TIM_NOW_FRAC => some (0x10100010, 3, now)
  | .PRT_CNT_LO p i => some ((Reg.PRT_CNT_LO p i).addr, 0, [.PRT_CNT_LO p i, .PRT_CNT_HI p i])
  | .PRT_CNT_HI p i => some ((Reg.PRT_CNT_LO p i).addr, 1, [.PRT_CNT_LO p i, .PRT_CNT_HI p i])
  | _ => none

/-- What a read of a register does beside returning it: delta views clear but not for far nodes (00 R13; 07 R252), the read of `TOP.EPOCH` and of `UPD.CMD` is noted (14 R506). -/
def Node.readEffect (n : Node) (m : Master) (r : Reg) : Node :=
  match r with
  | .PRT_DELTA p i =>
    if m.id = 3 ∨ m.id = 4 then n else { n with delta := FMap.put 0 n.delta (p * 64 + i) 0 }
  | .TOP_EPOCH => { n with epochUnread := false }
  | .UPD_CMD => { n with updUnread := false }
  | _ => n

/-- A register of a data unit whose island is unpowered. -/
def Node.regUnpowered (n : Node) (r : Reg) : Bool := r.island == .data && !n.dataOn

/-- A register read (00 R11; 02 R66). -/
def Node.regRead (n : Node) (m : Master) (r : Reg) : Nat × Node :=
  if n.regUnpowered r then
    (match r with
     | .FAB_STATUS => n.fabStatus
     | .FAB_CELLS_FREE => 0
     | .SC_STATUS 18 => n.regOff r % 2 ^ 16 + 16 * 2 ^ 16
     | r => n.regOff r, n)
  else
    match wideReg r with
    | some (base, k, rs) => n.wideRead m base k (rs.map (fun x => n.regShow m x))
    | none => (n.regShow m r, n.readEffect m r)

/-! ### Register writes -/

/-- Bits of a register that no field names (00 R10). -/
def reservedIn (r : Reg) (v : Nat) : Bool :=
  (List.range 32).any (fun i => bitOf v i && !r.fields.any (fun f => decide (f.lo ≤ i) && decide (i < f.lo + f.w)))

/-- A register with WB fields. -/
def isWB (r : Reg) : Bool := r.fields.any (fun f => f.acc == .WB)

/-- Write a register's fields by their access codes (00 R11, R14). -/
def Node.regSet (n : Node) (r : Reg) (v : Nat) : Node :=
  r.fields.foldl (fun a f =>
    let x := bitsOf v (f.lo + f.w - 1) f.lo
    match f.acc with
    | .RW => a.wr (r.fld f) x
    | .W1C => a.wr (r.fld f) (a.rd (r.fld f) - (a.rd (r.fld f) &&& x))
    | .WB => if a.on F.PRO_CTRL_BOOT_DONE then a else a.wr (r.fld f) x
    | _ => a) n

/-- Clear every field of a register. -/
def Node.regClear (n : Node) (r : Reg) : Node := r.fields.foldl (fun a f => a.wr (r.fld f) 0) n

/-- A field that a write leaves as it is: the value with the field's present content in place. -/
def Node.keepF (n : Node) (v lo : Nat) (f : Fld) : Nat :=
  v - bitsOf v (lo + f.w - 1) lo * 2 ^ lo + n.rd f * 2 ^ lo

/-- The value with another content of a field. -/
def setF (v lo w x : Nat) : Nat := v - bitsOf v (lo + w - 1) lo * 2 ^ lo + x * 2 ^ lo

/-- The interrupt source whose W1C bits a register holds (14 R506). -/
def irqOf (r : Reg) : Option Nat :=
  match r with
  | .PRT_HALF_LO p => some p
  | .PRT_HALF_HI p => some p
  | .TIM_STATUS => some 23
  | .BRG_DS_STAT _ => some 25
  | .CAN_STATUS ch => some (26 + ch)
  | .MVB_STATUS i => some (34 + i)
  | .SC_EXC e => if e < 18 then some (36 + e) else none
  | .PAIR_STATUS => some 55
  | .PWR_EVENTS => some 56
  | _ => none

/-- A write of one to a W1C bit that leaves the condition true sends one message (14 R507). -/
def Node.irqAgain (n : Node) (r : Reg) (v : Nat) : Node :=
  match irqOf r with
  | none => n
  | some s =>
    if r.fields.any (fun f => f.acc == .W1C && bitsOf v (f.lo + f.w - 1) f.lo != 0) && n.irqCond s then n.irqSend s else n

/-- `TIM.PORTp` (09 R345): ROLE changes start and stop the port. -/
def Node.timPortSet (n : Node) (p v : Nat) : Node :=
  let role := bitsOf v 31 30
  let was := n.rd (F.TIM_PORT_ROLE p)
  let n := n.wr (F.TIM_PORT_ONE_STEP p) (bitsOf v 29 29)
  if role = 3 ∨ (role = 2 ∧ p < 4) ∨ role = was then n
  else
    let n := (n.wr (F.TIM_PORT_ROLE p) role).ptpOff p
    if role ≠ 0 ∧ n.dataOn ∧ n.linkUp p then n.ptpLinkUp p else n

/-- `MVBn.PORTk` (10 R376): no change while EN is 1; DIR 3 and other F-codes leave their field, POLL is limited. -/
def Node.mvbPortSet (n : Node) (i k v : Nat) : Node :=
  if n.on (F.MVB_CTRL_EN i) then n else
  let dir := bitsOf v 30 29
  let dirNow := if dir = 3 then n.rd (F.MVB_PORT_DIR i k) else dir
  let fc := bitsOf v 19 16
  let fcNow := if fc ≤ 4 ∨ (fc = 15 ∧ dirNow ≠ 1) then fc else n.rd (F.MVB_PORT_FCODE i k)
  n.wrs [(F.MVB_PORT_EN i k, bitsOf v 31 31), (F.MVB_PORT_DIR i k, dirNow), (F.MVB_PORT_ONCHANGE i k, bitsOf v 28 28),
    (F.MVB_PORT_POLL i k, min (bitsOf v 27 24) 11), (F.MVB_PORT_FCODE i k, fcNow), (F.MVB_PORT_ADDR i k, bitsOf v 11 0)]

/-- `HST.IRQ_SRCs` (14 R506, R507). -/
def Node.irqSrcSet (n : Node) (s v : Nat) : Node :=
  let was := n.on (F.HST_IRQ_SRC_EN s)
  let vec := bitsOf v 5 0
  let n := if 36 ≤ vec then n.wr (F.HST_IRQ_SRC_VECTOR s) vec else n
  let n := n.put (F.HST_IRQ_SRC_EN s) (bitOf v 31)
  if bitOf v 31 && !was && n.irqCond s then n.irqSend s else n

/-- A write that has passed every check, of a register with rules of its own; every other register takes the write by its fields' access codes. -/
def Node.regWrite (n : Node) (m : Master) (r : Reg) (v : Nat) : Node :=
  match r with
  | .PRO_CTRL => if bitOf v 0 && !n.on F.PRO_CTRL_BOOT_DONE then n.put F.PRO_CTRL_BOOT_DONE true else n
  | .PRO_VIOL => if bitOf v 31 then (n.regClear r).regClear .PRO_VIOL_ADDR else n
  | .MGT_REJECT => if bitOf v 31 then (n.regClear r).regClear .MGT_REJECT_ADDR else n
  | .PAIR_CTRL =>
    let p := bitsOf v 20 16
    let v := if 4 ≤ p ∧ p ≤ 15 then v else setF v 16 5 4
    n.regSet r (if v % 4 = 0 then v + 1 else v)
  | .UPD_CTRL =>
    let v := if bitsOf v 15 8 = 0 then v + 256 else v
    let n := n.regSet r v
    if bitOf v 30 then n.wr F.UPD_CTRL_LOCK_ID m.id else n
  | .PWR_DISCRETE =>
    let v := if bitsOf v 15 8 = 0 then v + 256 else v
    n.regSet r (if v % 256 = 0 then v + 1 else v)
  | .TIM_STATUS =>
    if bitOf v 27 then
      (n.regSet r v).wrs [(F.TIM_REFUSED_SLO_SEC_LO, 0), (F.TIM_REFUSED_SHI_SIGN, 0), (F.TIM_REFUSED_SHI_SEC_HI, 0), (F.TIM_REFUSED_NS_NS, 0)]
    else n
  | .TIM_STEP_THRESH => n.wr F.TIM_STEP_THRESH_NS (max 100 (min (bitsOf v 29 0) 1000000000))
  | .TIM_LAUNCHCFG _ => n.regSet r (if bitsOf v 19 0 < 8 then setF v 0 20 8 else v)
  | .TIM_PORT p => n.timPortSet p v
  | .PRT_EEE p => if 20 ≤ p then n else n.regSet r v
  | .PRT_CTRL p =>
    if 20 ≤ p then n else
    let v := setF v 0 14 (max 1518 (min (bitsOf v 13 0) 9216))
    let old := (n.rd (F.PRT_CTRL_PREEMPT_EN p), n.rd (F.PRT_CTRL_VERIFY_DIS p))
    let n := n.regSet r v
    if (n.rd (F.PRT_CTRL_PREEMPT_EN p), n.rd (F.PRT_CTRL_VERIFY_DIS p)) = old then n else n.verifyStart p
  | .PRT_WAKE_STATUS =>
    if bitOf v 31 then n.wrs [(F.PRT_WAKE_STATUS_VALID, 0), (F.PRT_WAKE_STATUS_PATTERN, 0), (F.PRT_WAKE_STATUS_PORT, 0)] else n
  | .BBL_MODE l e => n.regSet r (if bitsOf v 31 30 = 3 then n.keepF v 30 (F.BBL_MODE_MODE l e) else v)
  | .SC_CTRL e =>
    let n := n.regSet r v
    if bitOf v 2 then n.regClear (.SC_PEAK e) else n
  | .SC_EXC e =>
    if bitOf v 31 then
      let n := n.regClear r
      if e = 18 then n.wr F.TOP_EXC_PC_PC 0 else n
    else n
  | .SC_DOORBELL e => if bitOf v 0 then n.setEng e ((n.eng e).fireKind 4 none) else n
  | .BRG_TIMEOUT => n.wr F.BRG_TIMEOUT_MS (max 1 (min (bitsOf v 9 0) 1000))
  | .BRG_ERR_CAUSE k =>
    if bitOf v 31 then ((n.regClear r).regClear (.BRG_ERR_ADDR k)).regClear (.BRG_ERR_SEQ k) else n
  | .BRG_WIN_CTRL w =>
    n.regSet r (if n.on (F.BRG_WIN_CTRL_EN w) then n.keepF (n.keepF v 30 (F.BRG_WIN_CTRL_MODE w)) 0 (F.BRG_WIN_CTRL_BASE w) else v)
  | .BRG_WIN_TARGET w => if n.on (F.BRG_WIN_CTRL_EN w) then n else n.regSet r v
  | .BRG_WIN_NODE_LO w => if n.on (F.BRG_WIN_CTRL_EN w) then n else n.regSet r v
  | .BRG_WIN_NODE_HI w => if n.on (F.BRG_WIN_CTRL_EN w) then n else n.regSet r v
  | .CAN_CTRL ch => n.canCtrl ch v
  | .CAN_NBT ch => if n.on (F.CAN_CTRL_EN ch) then n else n.regSet r v
  | .CAN_DBT ch => if n.on (F.CAN_CTRL_EN ch) then n else n.regSet r v
  | .CAN_XBT ch => if n.on (F.CAN_CTRL_EN ch) then n else n.regSet r v
  | .CAN_TDC ch => if n.on (F.CAN_CTRL_EN ch) then n else n.regSet r v
  | .CAN_CLASH _ => if bitOf v 31 then n.regClear r else n
  | .MVB_CTRL i => n.mvbCtrl i v
  | .MVB_ADMIN i =>
    if n.on (F.MVB_CTRL_EN i) then n else n.wrs [(F.MVB_ADMIN_MACRO i, min (bitsOf v 4 1) 10), (F.MVB_ADMIN_BASIC i, bitsOf v 0 0)]
  | .MVB_PORT i k => n.mvbPortSet i k v
  | .HST_IRQ_SRC s => n.irqSrcSet s v
  | .HST_TXBASE_LO k => if n.on (F.HST_TXCTRL_EN k) then n else n.regSet r v
  | .HST_TXBASE_HI k => if n.on (F.HST_TXCTRL_EN k) then n else n.regSet r v
  | .HST_RXBASE_LO k => if n.on (F.HST_RXCTRL_EN k) then n else n.regSet r v
  | .HST_RXBASE_HI k => if n.on (F.HST_RXCTRL_EN k) then n else n.regSet r v
  | .HST_TXCTRL k =>
    n.regSet r (if n.on (F.HST_TXCTRL_EN k) ∨ 8 < bitsOf v 3 0 then n.keepF v 0 (F.HST_TXCTRL_SIZE k) else v)
  | .HST_RXCTRL k =>
    n.regSet r (if n.on (F.HST_RXCTRL_EN k) ∨ 8 < bitsOf v 3 0 then n.keepF v 0 (F.HST_RXCTRL_SIZE k) else v)
  | r => n.regSet r v

/-- A register write past protection and ownership: legality, power, late WB writes, reserved bits, then the command or the fields. -/
def Node.busRegWrite (n : Node) (x : Access) (r : Reg) : BusOut :=
  let v := x.value % 2 ^ 32
  let c := cmdOf r v
  if c ≠ 0 ∧ !n.legal r c then ⟨.ok 0, (n.cmdRefused x false c).resultState r x.m⟩
  else if n.regUnpowered r then n.busLogged x
  else if n.mode = .updating then ⟨.err, n⟩
  else if c ≠ 0 ∧ n.cmdBusy r then ⟨.ok 0, n.cmdRefused x true c⟩
  else if reservedIn r v then ⟨.undef x.addr, n⟩
  else if c ≠ 0 then ⟨.ok 0, n.command x.m r c v⟩
  else if isWB r && n.on F.PRO_CTRL_BOOT_DONE then ⟨.ok 0, n.viol x (n.region x.addr) true⟩
  else ⟨.ok 0, (n.regWrite x.m r v).irqAgain r v⟩

/-! ### Signal stores, mailboxes, code (03 R88, R117; 14 R501) -/

/-- An uncorrectable error lies in the 64-bit word of an address. -/
def Node.badAt (n : Node) (a : Nat) : Bool := decide (a / 8 * 8 ∈ n.poison)

/-- Bytes of an engine's memory; unpowered or uncorrectable ones are free values. -/
def Node.sramRead (n : Node) (a k : Nat) : Nat × Node :=
  if !n.dataOn ∨ n.badAt a ∨ n.badAt (a + k - 1) then
    let (v, n) := n.free
    (v % 2 ^ (8 * k), n)
  else (leNat (memReadN n.mem a k), n)

/-- A read of a signal-store word captures its entry (R117, R533). -/
def Node.sigRead (n : Node) (m : Master) (a : Nat) : Nat × Node :=
  let b := a / 8 * 8
  if !n.dataOn ∨ n.badAt a then n.sramRead a 4
  else n.wideRead m b (a % 8 / 4) [leNat (memReadN n.mem b 4), leNat (memReadN n.mem (b + 4) 4)]

/-- The words a master holds for the entry at `base`. -/
def Node.holdAt (n : Node) (m : Master) (base : Nat) : Option Capture :=
  n.holds.find? (fun c => c.key == (mkeyOf m) && c.block == blockOf base && c.addr == base)

/-- Drop what a master holds in the block of an address. -/
def Node.holdDrop (n : Node) (m : Master) (a : Nat) : Node :=
  { n with holds := n.holds.filter (fun c => !(c.key == (mkeyOf m) && c.block == blockOf a)) }

/-- Hold words for the entry at `base`, in place of what the master holds in that block. -/
def Node.holdSet (n : Node) (m : Master) (base : Nat) (ws : List (Nat × Nat)) : Node :=
  let n := n.holdDrop m base
  { n with holds := n.holds ++ [{ key := (mkeyOf m), block := blockOf base, addr := base, words := ws }] }

/-- A write of a signal-store word (R117, R56): the lower word is held, the upper one sends both to the engine's next activation boundary. -/
def Node.sigWrite (n : Node) (m : Master) (e a v : Nat) : Node :=
  let b := a / 8 * 8
  if a % 8 = 0 then n.holdSet m b [(0, v)]
  else
    let w := match n.holdAt m b with
      | some c => (b, ((c.words.find? (fun w => w.1 == 0)).map (·.2)).getD 0 + v * 2 ^ 32)
      | none => (b + 4, v)
    let n := n.holdDrop m b
    n.setEng e { n.eng e with ownerWr := (n.eng e).ownerWr ++ [w] }

/-! ### The table window (02 R54; 05 R166; 06 R196; 14 R488) -/

/-- What a word of table memory is: in no table, a control word, or word `j` of entry `i`. -/
inductive TabPlace where
  | none
  | ctl (d : TabDef) (sh : Bool)
  | entry (d : TabDef) (sh : Bool) (i j : Nat)

/-- The place of word `w`. -/
def Node.tabPlace (n : Node) (w : Nat) : TabPlace :=
  match n.tabAt w with
  | none => .none
  | some (d, sh) =>
    let o := w - d.view sh
    if d.hashed then
      let g := 8 * d.n + 9
      if o % g = 0 then .ctl d sh else .entry d sh (8 * (o / g) + (o % g - 1) / (d.n + 1)) ((o % g - 1) % (d.n + 1))
    else .entry d sh (o / d.n) (o % d.n)

/-- A 64-bit word as a reader sees it; table 3 word 1 has no stated layout (log entry 21). None where its entry is poisoned. -/
def Node.tabWord (n : Node) (w : Nat) : Option (Nat × Node) :=
  match n.tabPlace w with
  | .none => some (0, n)
  | .ctl _ _ => if n.badWord w then none else some (n.word w, n)
  | .entry d sh i j =>
    if n.entryBad d sh i then none
    else if d.num = 3 ∧ j = 1 then
      let (v, n) := n.free
      some (v % 2 ^ 64, n)
    else some (n.word w, n)

/-- One byte-wise part of a table-window read: `k` bytes at `a` within one 32-bit half. -/
def Node.tabPart (n : Node) (m : Master) (a k : Nat) : Option (Nat × Node) :=
  let w := (a - 0x40000000) / 8
  match n.tabWord w with
  | none => none
  | some (v, n) =>
    let (h, n) := n.wideRead m (a / 8 * 8) (a % 8 / 4) [v % 2 ^ 32, v / 2 ^ 32]
    some (h / 2 ^ (8 * (a % 4)) % 2 ^ (8 * k), n)

/-- A table-window read. -/
def Node.tabWinRead (n : Node) (x : Access) : BusOut :=
  let k := min x.size (4 - x.addr % 4)
  match n.tabPart x.m x.addr k with
  | none => ⟨.err, n⟩
  | some (lo, n1) =>
    if k = x.size then ⟨.ok lo, n1⟩ else
    match n1.tabPart x.m (x.addr + k) (x.size - k) with
    | none => ⟨.err, n1⟩
    | some (hi, n2) => ⟨.ok (lo + hi * 2 ^ (8 * k)), n2⟩

/-- A 32-bit half with some bytes replaced: `k` bytes from byte `o`. -/
def mergeHalf (old o k v : Nat) : Nat :=
  leNat (splice (leBytes 4 old) o (leBytes k v))

/-- Apply the halves held for an entry, given as (half number + 64 × its bytes written, value). Poison goes only when every byte of the entry has been rewritten (02 R68). -/
def Node.tabApply (n : Node) (d : TabDef) (sh : Bool) (i : Nat) (hs : List (Nat × Nat)) : Node :=
  let len := if d.hashed then d.n + 1 else d.n
  let first := if d.hashed then d.dataW sh i - 1 else d.dataW sh i
  let half := fun (j : Nat) => (hs.find? (fun h => h.1 % 64 == j)).map (·.2)
  let full := (List.range (2 * len)).all (fun j => hs.any (fun h => h.1 == j + 64 * 15))
  let word := fun (j : Nat) =>
    let cur := n.word (first + j)
    match half (2 * j), half (2 * j + 1) with
    | none, none => none
    | l, h => some (l.getD (cur % 2 ^ 32) + h.getD (cur / 2 ^ 32) * 2 ^ 32)
  let ws := (List.range len).filterMap (fun j => (word j).map (fun v => (j, v)))
  let bad := n.poison
  let n :=
    if d.hashed then
      let n := match ws.find? (fun x => x.1 == 0) with
        | some x => n.setWord first x.2
        | none => n
      n.entryWrite d sh i ((ws.filter (fun x => x.1 != 0)).map (fun x => (x.1 - 1, x.2)))
    else n.entryWrite d sh i ws
  if full then n.unpoison ((List.range len).map (first + ·)) else { n with poison := bad }

/-- A write of `k` bytes within one half of an entry's word `j`: held until the entry's highest word is written (R54, R533). -/
def Node.tabHold (n : Node) (m : Master) (d : TabDef) (sh : Bool) (i j a k v : Nat) : Node :=
  let len := if d.hashed then d.n + 1 else d.n
  let first := if d.hashed then d.dataW sh i - 1 else d.dataW sh i
  let base := tabAddr first
  let held := match n.holdAt m base with
    | some c => c.words
    | none => []
  let h := 2 * j + a % 8 / 4
  let was := held.find? (fun x => x.1 % 64 == h)
  let old := (was.map (·.2)).getD (n.word (first + j) / 2 ^ (32 * (h % 2)) % 2 ^ 32)
  let mask := ((was.map (·.1)).getD 0 / 64) ||| ((2 ^ k - 1) * 2 ^ (a % 4) % 16)
  let held := held.filter (fun x => x.1 % 64 != h) ++ [(h + 64 * mask, mergeHalf old (a % 4) k v)]
  if h = 2 * len - 1 then (n.holdDrop m base).tabApply d sh i held else n.holdSet m base held

/-- A control word: its USED bits, at once; its other bits are zero (05 R166). A poisoned one is sound again when a master has rewritten both halves, the lower first (02 R68). -/
def Node.tabCtl (n : Node) (m : Master) (w a k v : Nat) : Node :=
  let n' := if a % 8 = 0 then n.setWord w (v % 256) else n
  if !n.badWord w ∨ k ≠ 4 then n'
  else if a % 8 = 0 then n'.holdSet m (tabAddr w) [(64 * 15, v)]
  else if (n.holdAt m (tabAddr w)).isSome then (n'.holdDrop m (tabAddr w)).unpoison [w] else n'

/-- One part of a table-window write: the node, or none for an error and whether it is logged. -/
def Node.tabWinPart (n : Node) (m : Master) (a k v : Nat) : Node ⊕ Bool :=
  let w := (a - 0x40000000) / 8
  let ok := fun (d : TabDef) (sh : Bool) => !d.dbl || (sh && !n.inGrace)
  match n.tabPlace w with
  | .none => .inr (!n.dataOn)
  | .ctl d sh => if ok d sh then .inl (n.tabCtl m w a k v) else .inr true
  | .entry d sh i j => if ok d sh then .inl (n.tabHold m d sh i j a k v) else .inr true

/-- A table-window write (R54, R303, R488). -/
def Node.tabWinWrite (n : Node) (x : Access) : BusOut :=
  let k := min x.size (4 - x.addr % 4)
  let fail := fun (n : Node) (logged : Bool) => if logged then n.busLogged x else ⟨.err, n⟩
  match n.tabWinPart x.m x.addr k (x.value % 2 ^ (8 * k)) with
  | .inr l => fail n l
  | .inl n1 =>
    if k = x.size then ⟨.ok 0, n1⟩ else
    match n1.tabWinPart x.m (x.addr + k) (x.size - k) (x.value / 2 ^ (8 * k) % 2 ^ (8 * (x.size - k))) with
    | .inr l => fail n1 l
    | .inl n2 => ⟨.ok 0, n2⟩

/-! ### One access -/

/-- A master can present requests now (02 R51, R66; 12 R408; 13 R457). -/
def Node.reaches (n : Node) (m : Master) : Bool :=
  n.ctlOn && decide (m.id < 5) && (m.id == 0 || m.id == 2 || n.dataOn) &&
    (m.id == 2 || (n.mode != .updating && n.mode != .faulted))

/-- The identity the bridge presents: 3 only for the management role of a trusted manager (05 R174). -/
def Node.presented (n : Node) (m : Master) : Master :=
  if m.id = 3 ∨ m.id = 4 then
    let ok := m.mgr && (List.range 4).any (fun k => n.on (F.PRO_RMGR_HI_EN k) &&
      n.rd (F.PRO_RMGR_HI_NODE_HI k) * 2 ^ 32 + n.rd (F.PRO_RMGR_LO_NODE_LO k) == m.node)
    { m with id := if ok then 3 else 4 }
  else m

/-- A read past protection. -/
def Node.busRead (n : Node) (x : Access) (t : Target) : BusOut :=
  match t with
  | .rom =>
    let (v, n) := n.free
    ⟨.ok (v % 2 ^ (8 * x.size)), n⟩
  | .ram => ⟨.ok (leNat (memReadN n.mem x.addr x.size)), n⟩
  | .regs =>
    (match regAt x.addr with
     | none => ⟨.ok 0, n⟩
     | some r =>
       let (v, n) := n.regRead x.m r
       ⟨.ok v, n⟩)
  | .sig _ =>
    let (v, n) := n.sigRead x.m x.addr
    ⟨.ok v, n⟩
  | .mbox _ =>
    let (v, n) := n.sramRead x.addr x.size
    ⟨.ok v, n⟩
  | .code _ =>
    let (v, n) := n.sramRead x.addr x.size
    ⟨.ok v, n⟩
  | .table => n.tabWinRead x
  | .window =>
    if 3 ≤ x.m.id then
      let (v, n) := n.free
      ⟨.err, n.bridgeBad (v % 23)⟩
    else if !n.dataOn then ⟨.err, n⟩
    else ⟨.later, n.winRead x.m x.addr⟩

/-- A write past protection and ownership. -/
def Node.busWrite (n : Node) (x : Access) (t : Target) : BusOut :=
  match t with
  | .regs =>
    (match regAt x.addr with
     | none => if n.mode = .updating then ⟨.err, n⟩ else ⟨.ok 0, n⟩
     | some r => n.busRegWrite x r)
  | .window =>
    if 3 ≤ x.m.id then
      let (v, n) := n.free
      ⟨.err, n.bridgeBad (v % 23)⟩
    else if !n.dataOn then n.busLogged x
    else ⟨.later, n.winWrite x.m x.addr (x.value % 2 ^ 32)⟩
  | .rom => ⟨.err, n⟩
  | .ram =>
    if n.mode = .updating then ⟨.err, n⟩
    else ⟨.ok 0, { n with mem := memWrite n.mem x.addr (leBytes x.size x.value) }⟩
  | .sig e => if n.dataOn then ⟨.ok 0, n.sigWrite x.m e x.addr (x.value % 2 ^ 32)⟩ else n.busLogged x
  | .mbox _ => if n.dataOn then ⟨.ok 0, { n with mem := memWrite n.mem x.addr (leBytes x.size x.value) }⟩ else n.busLogged x
  | .code _ => if n.dataOn then ⟨.ok 0, { n with mem := memWrite n.mem x.addr (leBytes 4 x.value) }⟩ else n.busLogged x
  | .table => n.tabWinWrite x

/-- A write of a code memory is a violation, whoever owns the node: the writer is not identity 0, or RUN is 1 (14 R501; 05 R175). -/
def Node.codeShut (n : Node) (m : Master) (t : Target) : Bool :=
  match t with
  | .code e => m.id != 0 || n.on (F.SC_CTRL_RUN e)
  | _ => false

/-- One access as it reaches the arbiter: decode, size, protection, ownership, then its target (R173-R178, R485-R487). -/
def Node.access (n : Node) (x : Access) : BusOut :=
  let x := { x with m := n.presented x.m }
  if !n.reaches x.m then ⟨.silent, n⟩ else
  match targetOf x.addr with
  | none => ⟨.err, n.viol x none false⟩
  | some t =>
    if t = .rom ∧ x.wr then ⟨.err, n.viol x none false⟩
    else if !x.sizeOk t then ⟨.err, n⟩
    else if x.undecoded then ⟨.err, n.viol x none false⟩
    else if !x.inside then ⟨.err, n⟩
    else if !n.protOk x then ⟨.prot, n.viol x (n.region x.addr) false⟩
    else if !x.wr then n.busRead x t
    else if n.codeShut x.m t then n.busLogged x
    else if !n.mayWrite x then
      let n := n.ownRefused x
      ⟨.notOwner, if x.addr = 0x10010020 ∧ cmdOf .MGT_OWN_CMD x.value ≠ 0 then n.setResult x.m ownNotOwner else n⟩
    else
      let n := if x.m.id ≠ 0 ∧ n.owns x.m then n.leaseStart else n
      n.busWrite x t

/-- The answer a local master gets. -/
def BusOut.answer (o : BusOut) (m : Master) : Option Nat × Node :=
  match o.res with
  | .ok v => (none, o.node.emit (.resp m true v))
  | .err | .prot | .notOwner => (none, o.node.emit (.resp m false 0))
  | .later | .silent => (none, o.node)
  | .undef a => (some a, o.node)

/-- A local access, done now. -/
def Node.busNow (n : Node) (x : Access) : Option Nat × Node := (n.access x).answer x.m

/-- A local request that goes on: a PCIe read of more than 4 bytes through BAR4 is word reads (11 R378). -/
def Node.busGo (n : Node) (x : Access) : Option Nat × Node :=
  if x.m.id = 1 ∧ !x.wr ∧ 4 < x.size ∧ x.size % 4 = 0 ∧ x.addr % 4 = 0 ∧ 0x80000000 ≤ x.addr then
    (none, (List.range (x.size / 4)).foldl (fun a k => (a.busNow { x with addr := x.addr + 4 * k, size := 4 }).2) n)
  else n.busNow x

/-- Waiting requests in the arbiter's order: one of each entry point in turn, those of one entry point in their order (14 R487). -/
def arbOrder (l : List Access) : List Access :=
  (List.range l.length).flatMap (fun k => [0, 1, 2].filterMap (fun e => (l.filter (fun x => x.m.id == e))[k]?)) ++ l.filter (fun x => decide (3 ≤ x.m.id))

/-- Requests that waited for a far initiator's lock go on in the arbiter's order (11 R396; 14 R487): the entry point after the bridge, served last, comes first. -/
def Node.resume (n : Node) : Option Nat × Node :=
  if n.brg.lock.isSome then (none, n) else
  (arbOrder n.brg.stalled).foldl (fun a x =>
    match a with
    | (some f, n) => (some f, n)
    | (none, n) => n.busGo x) (none, { n with brg := { n.brg with stalled := [] } })

/-- A request of the PCI Express host that hits none of its BARs, which present the addresses below 2^32 (05 R183; 13 R467 kind 21; log entry 131). -/
def Node.unsupported (n : Node) (x : Access) : Bool := x.m.id == 1 && decide (2 ^ 32 ≤ x.addr) && n.reaches x.m

/-- A request of a local master: it waits while a far initiator holds the lock (11 R396). One the host interface does not support reaches no arbiter: it ends in an error and is a partner violation. -/
def Node.bus (n : Node) (x : Access) : Option Nat × Node :=
  if n.unsupported x then (none, (n.pviol 21 20).emit (.resp x.m false 0)) else
  if n.brg.lock.isSome ∧ n.reaches x.m then (none, { n with brg := { n.brg with stalled := n.brg.stalled ++ [x] } }) else
  match n.resume with
  | (some f, n) => (some f, n)
  | (none, n) => n.busGo x

/-- The end of a command that is an access: the fault of R10 where its effect is not defined. -/
def State.toBus (s : State) (o : Option Nat × Node) : Host.Outcome State Fault Refusal :=
  match o.1 with
  | none => s.to o.2
  | some a => .fault (.reservedBit a)

/-- A word write of a register by a master. -/
def State.poke (s : State) (m : Master) (a v : Nat) : Host.Outcome State Fault Refusal :=
  s.toBus (s.node.bus { m := m, addr := a, size := 4, wr := true, value := v })

end Sys2Proof.Machine
end

