-- ==== Sys2Proof/Machine/Far.lean ====
section
/-! DEFINITION. The bridge as far node (11 R385, R386, R390-R392, R396, R400): accepted requests, write streams, the lock of a far initiator; and the epoch commit as a whole (08 R296). -/

namespace Sys2Proof.Machine

open Sys2Proof

/-- A step of the far side: a write whose effect 00 R10 leaves open carries its address along. -/
abbrev FarOut := Option Nat × Node

/-- Go on where nothing undefined has happened. -/
def farThen (o : FarOut) (f : Node → FarOut) : FarOut :=
  match o with
  | (some a, n) => (some a, n)
  | (none, n) => f n

/-! ### Answers (R385, R386) -/

/-- An answer to the initiator of a message, routed by the node's own current directory; the request's other fields go back with it. -/
def Node.farAnswer (n : Node) (q : BMsg) (ty cause : Nat) (data : List Byte) : Node :=
  let p := n.dirPos q.src
  if p = 0 then n.inc F.BRG_IN_NOINIT_COUNT
  else n.bridgeSend p { q with ty := ty, cause := cause, data := data }

/-- A request ends without success: WRITE_ERR for a posted write, COMPLETION for every other. -/
def Node.farFail (n : Node) (q : BMsg) (cause : Nat) : Node :=
  n.farAnswer q (if q.ty = btWrite then btWriteErr else btCompletion) cause []

/-- The cause of a refused access (R384). -/
def causeOf (r : BusRes) : Nat :=
  match r with
  | .ok _ => bcOk
  | .prot => bcProt
  | .notOwner => bcNotOwner
  | _ => bcBusErr

/-- The master a request enters as: identity 3 or 4 with the MGR mark (R385; 05 R174). -/
def Node.farMaster (n : Node) (q : BMsg) : Master :=
  { id := 4, node := q.src, pos := n.dirPos q.src, mgr := bitOf q.flags 0 }

/-- A word access for a far node. -/
def Node.farAccess (n : Node) (q : BMsg) (a : Nat) (wr : Bool) (v : Nat) : BusOut :=
  n.access { m := n.farMaster q, addr := a, size := 4, wr := wr, value := v }

/-! ### Reads (R390, R397, R399) -/

/-- Words read for a far node, one after another up to the first refusal: the cause, the bytes. -/
def Node.farWords (q : BMsg) : List Nat → Node → Nat × List Byte × Node
  | [], n => (bcOk, [], n)
  | a :: t, n =>
    let o := n.farAccess q a false 0
    match o.res with
    | .ok v =>
      let (c, l, n) := Node.farWords q t o.node
      (c, leBytes 4 v ++ l, n)
    | r => (causeOf r, [], o.node)

/-- READ: one word, or the 16 words of a line. -/
def Node.farReadServe (n : Node) (q : BMsg) : Node :=
  let as' := if bitOf q.flags 1 then (List.range 16).map (fun i => q.addr + 4 * i) else [q.addr]
  let (c, l, n) := Node.farWords q as' n
  n.farAnswer q btCompletion c (if c = bcOk then l else [])

/-! ### Write streams (R391, R392) -/

def isStream (node win : Nat) (s : WStream) : Bool := s.node == node && s.win == win

/-- The stream of an initiator and window, where it is tracked. -/
def Node.stream (n : Node) (node win : Nat) : Option WStream := n.brg.streams.find? (isStream node win)

/-- Keep a stream, last in use. -/
def Node.setStream (n : Node) (s : WStream) : Node :=
  { n with brg := { n.brg with streams := n.brg.streams.filter (fun x => !isStream s.node s.win x) ++ [s] } }

/-- Track a new stream; the least recently used of 256 is forgotten (R391). -/
def Node.trackStream (n : Node) (s : WStream) : Node :=
  { n with brg := { n.brg with streams := (if 256 ≤ n.brg.streams.length then n.brg.streams.drop 1 else n.brg.streams) ++ [s] } }

/-- Apply one write of a stream; a failure comes back as WRITE_ERR. -/
def Node.farApply (n : Node) (q : BMsg) : FarOut :=
  let o := n.farAccess q q.addr true (leNat q.data)
  match o.res with
  | .ok _ => (none, o.node)
  | .undef a => (some a, o.node)
  | r => (none, o.node.farFail q (causeOf r))

/-- Apply the held writes of a stream that are next in sequence. -/
def Node.streamRun : Nat → Nat → Nat → Node → FarOut
  | 0, _, _, n => (none, n)
  | k + 1, node, win, n =>
    match n.stream node win with
    | none => (none, n)
    | some s =>
      match s.held.find? (fun h => h.1 == s.next) with
      | none => (none, n)
      | some h =>
        let s := { s with next := (s.next + 1) % 65536, held := s.held.filter (fun x => x.1 != h.1) }
        farThen ((n.setStream s).farApply (bmsgOf h.2)) (Node.streamRun k node win)

/-- The lock lets the writes of a stream through (R396). -/
def Node.lockLets (n : Node) (node win : Nat) : Bool :=
  match n.brg.lock with
  | some (k, w, _) => k == node && w == win
  | none => true

/-- Writes of every stream that are next in sequence go on once the lock no longer shuts them out (R396). -/
def Node.streamsGo (n : Node) : FarOut :=
  n.brg.streams.foldl (fun o s => farThen o (fun m => if m.lockLets s.node s.win then Node.streamRun 17 s.node s.win m else (none, m))) (none, n)

/-- Distance of a sequence number ahead of the next one. -/
def seqAhead (next q : Nat) : Nat := (q + 65536 - next % 65536) % 65536

/-- The held write that comes first. -/
def firstHeld (s : WStream) : Option Nat :=
  (s.held.map (·.1)).foldl (fun a q => match a with
    | none => some q
    | some b => if seqAhead s.next q < seqAhead s.next b then some q else some b) none

/-- Declare the next write of a stream LOST, and go on after the gap, at `upTo` where no write is held (R391); while another's lock is held the writes after the gap wait (R396). -/
def Node.gapLost (n : Node) (s : WStream) (upTo : Nat) : FarOut :=
  let (v, n) := n.free
  let lost : BMsg := { ty := btWrite, epoch := n.epoch, src := s.node, dst := n.ident, seq := s.next, addr := v % 2 ^ 30 * 4, win := s.win }
  let n := n.farFail lost bcLost
  let n := n.setStream { s with next := ((firstHeld s).getD upTo) % 65536 }
  if n.lockLets s.node s.win then Node.streamRun 17 s.node s.win n else (none, n)

/-- Declare gaps LOST until a sequence number lies within the reorder span. -/
def Node.gapsBefore : Nat → Nat → Nat → Nat → Node → FarOut
  | 0, _, _, _, n => (none, n)
  | k + 1, node, win, q, n =>
    match n.stream node win with
    | none => (none, n)
    | some s =>
      let d := seqAhead s.next q
      if d < 16 ∨ 32768 ≤ d then (none, n)
      else farThen (n.gapLost s q) (Node.gapsBefore k node win q)

/-- WRITE (R391): in sequence, out of order within the span, beyond it, or late. -/
def Node.farWriteServe (n : Node) (q : BMsg) (b : List Byte) : FarOut :=
  let fresh : Node :=
    match n.stream q.src q.win with
    | some _ => n
    | none => n.trackStream { node := q.src, win := q.win, next := q.seq }
  farThen (Node.gapsBefore 18 q.src q.win q.seq fresh) (fun n =>
    match n.stream q.src q.win with
    | none => (none, n)
    | some s =>
      let d := seqAhead s.next q.seq
      if d = 0 then
        farThen ((n.setStream { s with next := (s.next + 1) % 65536 }).farApply q) (Node.streamRun 17 q.src q.win)
      else if d < 16 then
        (none, n.setStream { s with held := s.held.filter (fun x => x.1 != q.seq) ++ [(q.seq, b)] })
      else (none, (n.setStream s).inc F.BRG_IN_LATE_COUNT))

/-- Whether a stream has passed a sequence number. -/
def passed (s : WStream) (q : Nat) : Bool := decide (32768 ≤ seqAhead s.next q)

/-- A READ that waits for its window's writes up to the one it names, of a stream tracked or not (R390; log entry 84). -/
def Node.readWaits (n : Node) (q : BMsg) : Bool :=
  q.ty == btRead && bitOf q.flags 2 &&
    (match n.stream q.src q.win with
     | none => true
     | some s => !passed s q.seq)

/-- A gap has been open for 1 ms, or a waiting read shows that the last write is missing: of a stream that is not tracked, the write the read names is the one LOST, and the stream starts behind it (R390, R391; log entry 84). -/
def Node.gapTimeout (n : Node) (node win : Nat) : FarOut :=
  let waits := (n.brg.inq.map (fun x => bmsgOf x.2)).filter (fun q => q.src == node && q.win == win && n.readWaits q)
  match n.stream node win with
  | none =>
    (match waits with
     | [] => (none, n)
     | q :: _ => (n.trackStream { node := node, win := win, next := q.seq }).gapLost { node := node, win := win, next := q.seq } (q.seq + 1))
  | some s =>
    match s.held, waits with
    | [], [] => (none, n)
    | _, ws =>
      let upTo := match ws with
        | [] => s.next + 1
        | q :: _ => q.seq + 1
      n.gapLost s upTo

/-! ### The lock (R395, R396) -/

/-- The lock is the request's initiator's and window's. -/
def Node.lockHeldBy (n : Node) (q : BMsg) : Bool :=
  n.brg.lock.isSome && n.lockLets q.src q.win

/-- LOCK_BROKEN to the initiator of the lock held here. -/
def Node.sendBroken (n : Node) (epoch : Nat) : Node :=
  match n.brg.lock with
  | none => n
  | some (node, win, tag) =>
    let q : BMsg := { ty := btLockBroken, epoch := epoch, src := node, dst := n.ident, tag := tag, addr := n.brg.farAddr, win := win }
    n.farAnswer q btLockBroken bcLockBroken []

/-- Release the lock; requests and held writes that waited go on. -/
def Node.unlockFar (n : Node) : FarOut := farThen { n with brg := { n.brg with lock := none } }.resume Node.streamsGo

/-- The lock has been held for 25 000 TIM cycles. -/
def Node.lockTimeout (n : Node) : FarOut := if n.brg.lock.isSome then (n.sendBroken n.epoch).unlockFar else (none, n)

/-- LOCK_READ: the lock is taken once the read has completed. -/
def Node.farLockServe (n : Node) (q : BMsg) : Node :=
  let (c, l, n) := Node.farWords q [q.addr] n
  let n : Node := if c = bcOk then { n with brg := { n.brg with lock := some (q.src, q.win, q.tag), farAddr := q.addr } } else n
  n.farAnswer q btCompletion c (if c = bcOk then l else [])

/-- WRITE_UNLOCK and UNLOCK that came in by port `p`; without the lock they are not applied (13 R466, R467 kind 11). -/
def Node.farUnlockServe (n : Node) (p : Nat) (q : BMsg) : FarOut :=
  if !n.lockHeldBy q then (none, ((n.inc F.BRG_IN_BAD_COUNT).pviol 11 p).farAnswer q btLockBroken bcLockBroken [])
  else if q.ty = btUnlock then (n.farAnswer q btCompletion bcOk []).unlockFar
  else
    let o := n.farAccess q q.addr true (leNat q.data)
    match o.res with
    | .undef a => (some a, o.node)
    | r => (o.node.farAnswer q btCompletion (causeOf r) []).unlockFar

/-! ### Arrival and service (R385, R386) -/

/-- Take a request into the incoming queue. -/
def Node.farQueue (n : Node) (q : BMsg) (x : Nat × List Byte) : Node :=
  if 128 ≤ n.brg.inq.length then (n.inc F.BRG_IN_BUSY_COUNT).farFail q bcBusy
  else { n with brg := { n.brg with inq := n.brg.inq ++ [x] } }

/-- A request arrives (R385): EPOCH at epoch 0 (R400; 01 R36), then queue full or bridge off, then target and epoch. -/
def Node.farRequest (n : Node) (q : BMsg) (x : Nat × List Byte) : Node :=
  let e := match n.inaug.sched with
    | some c => some c.epoch
    | none => none
  if n.epoch = 0 then n.farFail q bcEpoch
  else if !n.bridgeOn ∨ 128 ≤ n.brg.inq.length then (n.inc F.BRG_IN_BUSY_COUNT).farFail q bcBusy
  else if q.dst ≠ n.ident ∨ q.epoch = 0 then n.farFail q bcEpoch
  else if q.epoch = n.epoch then n.farQueue q x
  else if some q.epoch = e then { n with brg := { n.brg with heldReq := n.brg.heldReq ++ [x] } }
  else n.farFail q bcEpoch

/-- TYPE, TAG and SRC_NODE of a malformed message can be read, and it is a request of a node in the directory (13 R467 kind 9). -/
def Node.badRequest (n : Node) (b : List Byte) : Node :=
  let q := bmsgOf b
  if 18 ≤ b.length ∧ 1 ≤ q.ty ∧ q.ty ≤ 5 ∧ n.dirPos q.src ≠ 0 then
    n.farFail { q with flags := q.flags % 8, addr := q.addr / 64 * 64, win := q.win % 64 } bcBadReq
  else n

/-- The payload of a bridge datagram reaches the bridge; `p` is the ingress port (R382, R386). A request from the data port of the management core, which never reaches a register (02 R58), is turned away as a malformed one (log entry 107). -/
def Node.bridgeRx (n : Node) (p : Nat) (b : List Byte) : Node :=
  if !n.dataOn then n
  else if !bmsgOk b ∨ p = 21 ∧ (bmsgOf b).ty < btCompletion then (n.bridgeBad p).badRequest b
  else
    let q := bmsgOf b
    if q.ty = btCompletion then n.completionRx p q
    else if q.ty = btWriteErr then n.writeErrRx p q
    else if q.ty = btLockBroken then n.lockBrokenRx q
    else n.farRequest q (p, b)

/-- The bridge takes the datagrams recognised at P20 and P22 (R382; log entry 109). -/
def Node.bridgeTake (n : Node) : Node :=
  n.brg.inRaw.foldl (fun a x => a.bridgeRx x.1 x.2) { n with brg := { n.brg with inRaw := [] } }

/-- The frame of a bridge message that comes by its row, as the MAC counts it: addresses and headers are free values. -/
def Node.bridgeHeard (n : Node) (b : List Byte) : List Byte :=
  let h := Config.freeBytes n.freeN
  fit 12 h ++ beBytes 2 0x0800 ++ fit 28 (h.drop 12) ++ b ++ zeros (18 - b.length)

/-- A payload handed over without its frame, for rows of one TYPE: its ingress port is a free value, and the MAC of a port that receives counts the frame (07 R255; log entry 98). -/
def Node.bridgeRow (n : Node) (tys : List Nat) (b : List Byte) : Node :=
  if byteAt b 0 ∈ tys then
    let p := Config.freeNat n.freeN % 23
    let m := { n with freeN := n.freeN + 1 }
    (if decide (p < 20) && n.receives p then (m.rxMac p { bytes := n.bridgeHeard b }).2 else m).bridgeRx p b
  else n

/-- A request may be served now: not while a far initiator's lock shuts it out, not a read that waits for writes (R386, R390, R396). -/
def Node.serveable (n : Node) (x : Nat × List Byte) : Bool :=
  let q := bmsgOf x.2
  (n.brg.lock.isNone || n.lockHeldBy q) && !n.readWaits q

/-- Serve one request. -/
def Node.farServe (n : Node) (x : Nat × List Byte) : FarOut :=
  let q := bmsgOf x.2
  if q.ty = btRead then (none, n.farReadServe q)
  else if q.ty = btWrite then n.farWriteServe q x.2
  else if q.ty = btLockRead then (none, n.farLockServe q)
  else n.farUnlockServe x.1 q

/-- The list without the element at `k`. -/
def dropAt {α : Type} (k : Nat) (l : List α) : List α := l.take k ++ l.drop (k + 1)

/-- The first request that may be served. -/
def Node.farNext (n : Node) : FarOut :=
  let k := n.brg.inq.findIdx n.serveable
  match n.brg.inq[k]? with
  | none => (none, n)
  | some x => { n with brg := { n.brg with inq := dropAt k n.brg.inq } }.farServe x

/-- A held request is accepted at T_commit, or refused where that comes too late (R385). -/
def Node.heldAccept (n : Node) : Node :=
  match n.brg.heldReq with
  | [] => n
  | x :: t =>
    let q := bmsgOf x.2
    let n := { n with brg := { n.brg with heldReq := t } }
    if q.epoch = n.epoch ∧ n.epoch ≠ 0 then n.farQueue q x else n.farFail q bcEpoch

/-! ### The epoch commit (08 R296; 11 R391, R400; 12 R425, R436) -/

/-- T_commit in every unit. -/
def Node.epochCommit (n : Node) : FarOut :=
  if n.inaug.sched.isNone then (none, n) else
  let old := n.epoch
  let n := (n.ckptAbandon.commit).bridgeCommit
  let n := { n with pair := { n.pair with oldIdent := 0 }, brg := { n.brg with streams := [] } }
  if n.brg.lock.isSome then (n.sendBroken old).unlockFar else (none, n)

/-! ### Meanings -/

/-- A READ arrives (R385). -/
def execFarRead (bytes : List Byte) (s : State) : Host.Outcome State Fault Refusal := s.to (s.node.bridgeRow [btRead] bytes)

/-- A WRITE arrives (R391). -/
def execFarWrite (bytes : List Byte) (s : State) : Host.Outcome State Fault Refusal := s.to (s.node.bridgeRow [btWrite] bytes)

/-- A LOCK_READ arrives (R396). -/
def execFarLockRead (bytes : List Byte) (s : State) : Host.Outcome State Fault Refusal := s.to (s.node.bridgeRow [btLockRead] bytes)

/-- A WRITE_UNLOCK or UNLOCK arrives (R396). -/
def execFarUnlock (bytes : List Byte) (s : State) : Host.Outcome State Fault Refusal :=
  s.to (s.node.bridgeRow [btWriteUnlock, btUnlock] bytes)

/-- A COMPLETION arrives (R389). -/
def execCompletion (bytes : List Byte) (s : State) : Host.Outcome State Fault Refusal := s.to (s.node.bridgeRow [btCompletion] bytes)

/-- A WRITE_ERR arrives (R392). -/
def execWriteErr (bytes : List Byte) (s : State) : Host.Outcome State Fault Refusal := s.to (s.node.bridgeRow [btWriteErr] bytes)

/-- A LOCK_BROKEN arrives (R396). -/
def execLockBroken (bytes : List Byte) (s : State) : Host.Outcome State Fault Refusal := s.to (s.node.bridgeRow [btLockBroken] bytes)

/-- The far node takes what has been recognised for its bridge, and serves a request (R382, R386). -/
def execFarRequestServe (s : State) : Host.Outcome State Fault Refusal := s.toBus s.node.bridgeTake.farNext

/-- A held request is accepted (R385). -/
def execHeldRequestAccept (s : State) : Host.Outcome State Fault Refusal := s.to s.node.heldAccept

/-- A gap of a write stream stays open (R391). -/
def execWriteGapTimeout (node win : Nat) (s : State) : Host.Outcome State Fault Refusal := s.toBus (s.node.gapTimeout node win)

/-- The lock times out (R396). -/
def execLockTimeout (s : State) : Host.Outcome State Fault Refusal := s.toBus s.node.lockTimeout

/-- The epoch commit (08 R296). -/
def execEpochCommit (s : State) : Host.Outcome State Fault Refusal := s.toBus s.node.epochCommit

end Sys2Proof.Machine
end

