-- ==== Sys2Proof/Machine/KerControl.lean ====
section
/-! DEFINITION. Kerarqua: control flow and synchronisation (04 R150, R151, R153, R154), one meaning per row. -/

namespace Sys2Proof.Machine

open Sys2Proof

/-- Loops a taken branch leaves: the innermost whose end the target lies beyond, and every enclosing one it passes (R104). -/
def leaveLoops (target : Nat) : List Loop → List Loop
  | [] => []
  | l :: t => if l.last < target then (l :: t).filter (fun x => decide (target ≤ x.last)) else l :: t

/-- BR taken: a lower target raises BACKWARD (R103, R153). -/
def effBr (n : Node) (a : Act) (i : KIns) : KRes :=
  let t : Int := a.pc + 4 * i.off
  if t < a.pc then .exc 3
  else .ok { n := n, a := { a with loops := leaveLoops t.toNat a.loops }, cost := 3, jump := some (t.toNat % 2 ^ 32) }

/-- CALL: a ninth nested call raises STACK (R105, R153). -/
def effCall (n : Node) (a : Act) (i : KIns) : KRes :=
  if 8 ≤ a.stack.length then .exc 5
  else .ok { n := n, a := { a with stack := (a.pc + 4) :: a.stack }, cost := 3,
             jump := some (ofSigned 32 ((a.pc : Int) + 4 * i.off)) }

/-- LOOP: a fifth open loop raises LOOPDEPTH (R104, R154). -/
def effLoop (n : Node) (a : Act) (i : KIns) : KRes :=
  if 4 ≤ a.loops.length then .exc 4
  else .done n { a with loops := { body := a.pc + 8, last := a.pc + 4 * bitsOf i.imm 31 16, left := bitsOf i.imm 15 0 } :: a.loops } i

/-- WAIT: the flag found set in cycle `j` (2 to T + 1), cleared, or the timeout (R106, R150). -/
def effWait (e j : Nat) (n : Node) (a : Act) (i : KIns) : KRes :=
  let f := bitsOf i.imm 19 16
  let t := bitsOf i.imm 15 0
  let x := n.eng e
  if bitOf x.flags f then
    .ok { n := n.setEng e { x with flags := setBit x.flags f false },
          a := { a with preds := writePred a.preds i.rd true }, cost := max 2 (min j (t + 1)) + 1 }
  else .ok { n := n, a := { a with preds := writePred a.preds i.rd false }, cost := t + 2 }

/-- SIGNAL: held until release (R98, R151). -/
def effSignal (n : Node) (a : Act) (i : KIns) : KRes :=
  if 8 ≤ a.count isSignal then .exc 6
  else .done n (a.hold (.signal (bitsOf i.imm 8 4) (bitsOf i.imm 3 0))) i

/-- BR (04 R153). -/
def execKBr (e : Nat) (s : State) : Host.Outcome State Fault Refusal := s.to (s.node.kStep e [.br] effBr)

/-- CALL (04 R153). -/
def execKCall (e : Nat) (s : State) : Host.Outcome State Fault Refusal := s.to (s.node.kStep e [.call] effCall)

/-- LOOP (04 R154). -/
def execKLoop (e : Nat) (s : State) : Host.Outcome State Fault Refusal := s.to (s.node.kStep e [.loop] effLoop)

/-- WAIT (04 R150). -/
def execKWait (e cycle : Nat) (s : State) : Host.Outcome State Fault Refusal :=
  s.to (s.node.kStep e [.wait] (effWait e cycle))

/-- SIGNAL (04 R151). -/
def execKSignal (e : Nat) (s : State) : Host.Outcome State Fault Refusal := s.to (s.node.kStep e [.signal] effSignal)

end Sys2Proof.Machine
end

