-- ==== Sys2Proof/Machine/KerData.lean ====
section
/-! DEFINITION. Kerarqua: data access, bit fields, fixed point and the signal store (04 R130-R139), one meaning per row. -/

namespace Sys2Proof.Machine

open Sys2Proof

/-- The address of LD, ST (g[ra] + g[rb]) and LDX, STX (g[ra] + imm32), formed in 64 bits (R130). -/
def kAddr (a : Act) (i : KIns) : Nat := (a.rg i.ra + (if i.x then imm64 i.imm else a.rg i.rb)).toNat

/-- Access size of LD and ST. -/
def KIns.sz (i : KIns) : Nat := 2 ^ (i.fn % 4)

/-- LD and LDX (R81, R82, R130). -/
def effLd (n : Node) (e : Nat) (a : Act) (i : KIns) : KRes :=
  let ad := kAddr a i
  let k := i.sz
  if 2 ^ 32 ≤ ad ∨ ad % k ≠ 0 ∨ (inOneRange ad k).isNone then .exc 2 else
  let bs := (List.range k).map (fun j => BitVec.ofNat 8 (actByte n e a (ad + j)))
  let v := if bitOf i.fn 2 then beNat bs else leNat bs
  .done n (a.wg i.rd (if bitOf i.fn 3 then BitVec.ofInt 64 (toSigned (8 * k) v) else BitVec.ofNat 64 v)) i

/-- A store of masked bytes (address, mask, value) to one range: the transmit area at once, the mailbox as an output (R84, R95, R98, R132). -/
def kStore (n : Node) (a : Act) (i : KIns) (r : Option Nat) (parts : List (Nat × Nat × Nat)) (post : Act → Act) : KRes :=
  match r with
  | some 2 | some 3 =>
    let (n, a) := storeTx n a (parts.map (fun p => (p.1 - 0x10000, p.2)))
    .done n (post a) i
  | some 4 =>
    if 64 ≤ a.count isMbox then .exc 6
    else .done n (post (a.hold (.mbox (parts.map (fun p => (p.1 - 0x20000, p.2)))))) i
  | _ => .exc 2

/-- ST and STX (R81, R130). -/
def effSt (n : Node) (a : Act) (i : KIns) : KRes :=
  let ad := kAddr a i
  let k := i.sz
  if 2 ^ 32 ≤ ad ∨ ad % k ≠ 0 then .exc 2 else
  let le := leBytes k (a.rg i.rd).toNat
  let bs := if bitOf i.fn 2 then le.reverse else le
  kStore n a i (inOneRange ad k) ((List.range k).map (fun j => (ad + j, 255, byteAt bs j))) id

/-- Byte address, first bit and bytes of a bit field (R131). -/
def kField (a : Act) (i : KIns) : Nat × Nat × Nat :=
  let v := (a.rg i.ra).toNat
  (v / 8, v % 8, (v % 8 + i.w + 7) / 8)

/-- The post-increment of the bit address (R132); none for g0. -/
def kPost (i : KIns) (a : Act) : Act :=
  if i.p then a.wg i.ra (a.rg i.ra + BitVec.ofNat 64 i.w) else a

/-- EXTB (R131, R132). -/
def effExtb (n : Node) (e : Nat) (a : Act) (i : KIns) : KRes :=
  let (ad, bit, k) := kField a i
  if 2 ^ 35 ≤ (a.rg i.ra).toNat ∨ (inOneRange ad k).isNone then .exc 2 else
  let bs := (List.range k).map (fun j => BitVec.ofNat 8 (actByte n e a (ad + j)))
  let v := (if i.o then leNat bs / 2 ^ bit else beNat bs / 2 ^ (8 * k - bit - i.w)) % 2 ^ i.w
  let r := if i.s then BitVec.ofInt 64 (toSigned i.w v) else BitVec.ofNat 64 v
  .done n (kPost i (a.wg i.rd r)) i

/-- INSB (R131, R132). -/
def effInsb (n : Node) (a : Act) (i : KIns) : KRes :=
  let (ad, bit, k) := kField a i
  if 2 ^ 35 ≤ (a.rg i.ra).toNat then .exc 2 else
  let sh := if i.o then bit else 8 * k - bit - i.w
  let v := (a.rg i.rd).toNat % 2 ^ i.w * 2 ^ sh
  let m := (2 ^ i.w - 1) * 2 ^ sh
  let bytes := fun x => if i.o then leBytes k x else beBytes k x
  kStore n a i (inOneRange ad k)
    ((List.range k).map (fun j => (ad + j, byteAt (bytes m) j, byteAt (bytes v) j))) (kPost i)

/-- SAT (R135). -/
def effSat (n : Node) (a : Act) (i : KIns) : KRes :=
  let (v, c) := satOp i.w i.s (a.rg i.ra)
  .done n { a.wg i.rd v with preds := setPred a.preds i.k c, sat := a.sat || c } i

/-- SCALE (R134). -/
def effScale (n : Node) (a : Act) (i : KIns) : KRes :=
  let (v, c) := scaleOp i.fn i.imm (a.rg i.ra) (a.rg i.rb)
  .done n { a.wg i.rd v with sat := a.sat || c } i

/-- RANGE (R136): hi is g[fn[6:2]]. -/
def effRange (n : Node) (a : Act) (i : KIns) : KRes :=
  let r := rangeOp (bitOf i.fn 1) (a.rg i.ra) (a.rg i.rb) (a.rg (i.fn / 4))
  .done n { a with preds := writePred a.preds i.rd (r == 0), rng := r } i

/-- CONV (R137): rb is the number of fraction bits. -/
def effConv (n : Node) (a : Act) (i : KIns) : KRes :=
  let (v, c) := convOp i.fn i.rb (a.rg i.ra)
  .done n { a.wg i.rd v with sat := a.sat || c } i

/-- Status word of a held store as an LDS of the same activation sees it (R97, R139). -/
def heldStatus (a : Act) (v : Bool) (rng : Nat) (sat : Bool) : Nat :=
  b2n v * 2 ^ 63 + rng * 2 ^ 60 + b2n sat * 2 ^ 59 + a.fresh % 2 ^ 48

/-- Value and status words of a slot, under the activation's own held stores (R85, R97). -/
def slotWords (n : Node) (e : Nat) (a : Act) (slot : Nat) : Nat × Nat :=
  let ad := sigBase e + 16 * slot
  a.outs.foldl (fun r h => match h with
    | .sts s val v rng sat => if s = slot then (val.toNat, heldStatus a v rng sat) else r
    | _ => r) (rd64 n.mem ad, rd64 n.mem (ad + 8))

/-- The signal is fresh (R86, R138). -/
def isFresh (a : Act) (status age : Nat) : Bool :=
  bitOf status 63 && !bitOf status 62 &&
    (age == 0 || decide ((a.fresh + 2 ^ 48 - status % 2 ^ 48) % 2 ^ 48 ≤ age))

/-- LDS (R86, R138). -/
def effLds (n : Node) (e : Nat) (a : Act) (i : KIns) : KRes :=
  let slot := (a.rg i.ra).toNat
  if 16128 ≤ slot then .exc 2 else
  let (val, st) := slotWords n e a slot
  let val := if bitOf st 62 then 0 else val
  let a1 := (a.wg i.rd (BitVec.ofNat 64 val)).wg i.rb (BitVec.ofNat 64 st)
  let a2 := if bitOf i.fn 2 then a1.wg i.ra (BitVec.ofNat 64 (slot + 1)) else a1
  .done n { a2 with preds := setPred a.preds (bitsOf i.fn 6 4) (isFresh a st i.imm) } i

/-- STS (R98, R133, R139). -/
def effSts (n : Node) (a : Act) (i : KIns) : KRes :=
  let slot := (a.rg i.ra).toNat
  if 16128 ≤ slot then .exc 2
  else if 128 ≤ a.count isSts then .exc 6 else
  let v := bitOf a.preds (bitsOf i.fn 6 4) != bitOf i.fn 3
  let a1 := { a.hold (.sts slot (a.rg i.rb) v a.rng a.sat) with rng := 3, sat := false }
  .done n (if bitOf i.fn 2 then a1.wg i.ra (BitVec.ofNat 64 (slot + 1)) else a1) i

/-- LD (04 R130). -/
def execKLd (e : Nat) (s : State) : Host.Outcome State Fault Refusal :=
  s.to (s.node.kStep e [.ld] (fun n a i => effLd n e a i))

/-- LDX (04 R130). -/
def execKLdx (e : Nat) (s : State) : Host.Outcome State Fault Refusal :=
  s.to (s.node.kStep e [.ldx] (fun n a i => effLd n e a i))

/-- ST (04 R130). -/
def execKSt (e : Nat) (s : State) : Host.Outcome State Fault Refusal := s.to (s.node.kStep e [.st] effSt)

/-- STX (04 R130). -/
def execKStx (e : Nat) (s : State) : Host.Outcome State Fault Refusal := s.to (s.node.kStep e [.stx] effSt)

/-- EXTB (04 R132). -/
def execKExtb (e : Nat) (s : State) : Host.Outcome State Fault Refusal :=
  s.to (s.node.kStep e [.extb] (fun n a i => effExtb n e a i))

/-- INSB (04 R132). -/
def execKInsb (e : Nat) (s : State) : Host.Outcome State Fault Refusal := s.to (s.node.kStep e [.insb] effInsb)

/-- SAT (04 R135). -/
def execKSat (e : Nat) (s : State) : Host.Outcome State Fault Refusal := s.to (s.node.kStep e [.sat] effSat)

/-- SCALE (04 R134). -/
def execKScale (e : Nat) (s : State) : Host.Outcome State Fault Refusal := s.to (s.node.kStep e [.scale] effScale)

/-- RANGE (04 R136). -/
def execKRange (e : Nat) (s : State) : Host.Outcome State Fault Refusal := s.to (s.node.kStep e [.range] effRange)

/-- CONV (04 R137). -/
def execKConv (e : Nat) (s : State) : Host.Outcome State Fault Refusal := s.to (s.node.kStep e [.conv] effConv)

/-- LDS (04 R138). -/
def execKLds (e : Nat) (s : State) : Host.Outcome State Fault Refusal :=
  s.to (s.node.kStep e [.lds] (fun n a i => effLds n e a i))

/-- STS (04 R139). -/
def execKSts (e : Nat) (s : State) : Host.Outcome State Fault Refusal := s.to (s.node.kStep e [.sts] effSts)

end Sys2Proof.Machine
end

