-- ==== Sys2Proof/Machine/KerFrames.lean ====
section
/-! DEFINITION. Kerarqua: frames (04 R140-R145), one meaning per row. -/

namespace Sys2Proof.Machine

open Sys2Proof

/-- Bytes of the transmit header. -/
def txHeader (a : Act) : List Byte := (List.range 64).map (fun j => FMap.get 0 a.tx j)

/-- Transmit data of `k` bytes. -/
def txData (a : Act) (k : Nat) : List Byte := (List.range k).map (fun j => FMap.get 0 a.tx (0x40 + j))

/-- Bytes `off` to `off + k − 1` are zero. -/
def zeroAt (h : List Byte) (off k : Nat) : Bool := (slice h off k).all (fun b => b == 0)

/-- The stream context exists in the image (R141, R143). -/
def Node.ctxExists (n : Node) (s : Nat) : Bool :=
  match n.tab 1 with
  | none => false
  | some d => decide (s < d.entries)

/-- LENGTH fits an Ethernet frame, with PD that of an enabled publish dataset (R141; 11 R402). -/
def Node.ethLengthOk (n : Node) (pd : Bool) (ds len : Nat) : Bool :=
  if pd then decide (ds < 640) && decide (len ≤ 1432) && len % 4 == 0 && (n.dataset ds).en && !(n.dataset ds).sub &&
    len == (n.dataset ds).length
  else decide (14 ≤ len) && decide (len ≤ 9216)

/-- LENGTH fits a CAN frame of the format FBINFO gives (R141). With XLF set the XL line governs whatever FDF holds (DESIGN CHOICE, log entry 124). -/
def canLengthOk (info len : Nat) : Bool :=
  if bitOf info 5 then decide (1 ≤ len) && decide (len ≤ 2048)
  else if bitOf info 2 then decide (len ≤ 8) || decide (len ∈ [12, 16, 20, 24, 32, 48, 64])
  else decide (len ≤ 8)

/-- The transmit header is valid (R140, R141). TAG bits above the identifier or address, FBINFO bits of an MVB header above the F-code, and FBINFO bits of a CAN header that mean nothing on transmit ([7:6], and SDT without XLF) are ignored (DESIGN CHOICE, log entry 124). -/
def Node.headerOk (n : Node) (h : List Byte) : Bool :=
  let len := leAt h 0 2
  let dest := byteAt h 2
  let flags := byteAt h 3
  let st := leAt h 4 2
  let info := leAt h 0x1C 4
  let pd := bitOf flags 0
  decide (flags < 2) && zeroAt h 8 4 && zeroAt h 0x10 12 && zeroAt h 0x24 28 && (pd || zeroAt h 6 2) &&
    (if dest = 0 then
        zeroAt h 0xC 4 && zeroAt h 0x1C 8 && decide (st < 4096) && n.ctxExists st && n.ethLengthOk pd (leAt h 6 2) len
      else if dest = 1 then
        !pd && decide (st < 8) && n.on (F.CAN_CTRL_EN st) && decide (info < 2 ^ 16) &&
          (bitOf info 5 || zeroAt h 0x20 4) && canLengthOk info len
      else if dest = 2 then
        !pd && decide (st < 2) && n.on (F.MVB_CTRL_EN st) && zeroAt h 0x20 4 &&
          len != 0 && len == ([2, 4, 8, 16, 32] : List Nat).getD (info % 16) 0
      else false)

/-- The transmit area's cells go back at release, and the area is reset (R140, R143). -/
def Act.resetTx (a : Act) : Act := { a.clearTx with backCells := a.backCells ++ a.txCells }

/-- Close the transmit area as one frame: the result and the predicate (R84, R98, R140, R143, R144). -/
def closeTx (n : Node) (a : Act) (launch : Option Nat) : (Node × Act × Bool) ⊕ Nat :=
  let h := txHeader a
  if a.short then .inl (n, { a.resetTx with nobuf := a.nobuf + 1 }, false)
  else if !n.headerOk h ∨ (launch.isSome ∧ byteAt h 2 ≠ 0) then .inl (n, a.resetTx, false)
  else if 8 ≤ a.count isFrame then .inr 6
  else
    let len := leAt h 0 2
    let need := cellsFor len
    let (l, n) := Node.takeCells (need - a.txCells.length) n
    let cells := a.txCells ++ l
    if cells.length < need then
      .inl (n, { ({ a with txCells := cells }).resetTx with nobuf := a.nobuf + 1 }, false)
    else
      let ch := leAt h 4 2
      let f : TxClosed := { hdr := h, data := txData a len, cells := cells.take need, launch := launch, bad := a.txBad,
                            canEpoch := if byteAt h 2 = 1 then (n.chan ch).enGen else 0 }
      .inl (n, { a.clearTx with outs := a.outs ++ [.frame f], backCells := a.backCells ++ cells.drop need }, true)

/-- RXQ (R98, R142); frames with an uncorrectable error at the head of the queue are discarded first (02 R68). -/
def effRxq (n : Node) (e : Nat) (a : Act) (i : KIns) : KRes :=
  let src := bitsOf i.fn 3 0
  let s := (n.slotIdx e).getD 31
  let n := if bitsOf i.fn 6 4 = 0 then n.dropBad s src else n
  let r := if bitsOf i.fn 6 4 = 0 then n.takeFrame s src a.ep else n.takeEntry src s a.ep
  match r with
  | none => .done n { a with preds := writePred a.preds i.rd false } i
  | some (x, n') =>
    if 8 ≤ a.nrx then .exc 6
    else .done n' { a with preds := writePred a.preds i.rd true, input := some x, taken := a.taken ++ [x], nrx := a.nrx + 1 } i

/-- EMIT (R143). A held topology frame, SOURCE 3, counts as no Ethernet input (DESIGN CHOICE, log entry 125). -/
def effEmit (n : Node) (a : Act) (i : KIns) : KRes :=
  if i.fn % 2 = 0 then
    match closeTx n a none with
    | .inr c => .exc c
    | .inl (n, a, c) => .done n { a with preds := writePred a.preds i.rd c } i
  else
    let s := (a.rg i.ra).toNat % 4096
    let fid : Option Nat := match a.input with
      | some x => if x.src = 0 ∧ !x.dropped then some x.fid else none
      | none => none
    match fid with
    | none => .done n { a with preds := writePred a.preds i.rd false } i
    | some f =>
      if !n.ctxExists s then .done n { a with preds := writePred a.preds i.rd false } i
      else if 8 ≤ a.count isFrame then .exc 6
      else .done n { a.hold (.forward f s) with preds := writePred a.preds i.rd true } i

/-- LAUNCH (R144). -/
def effLaunch (n : Node) (a : Act) (i : KIns) : KRes :=
  let sec := (a.rg i.ra).toNat
  let ns := (a.rg i.rb).toNat
  if 2 ^ 48 ≤ sec ∨ 10 ^ 9 ≤ ns then
    let a := if a.short then { a with nobuf := a.nobuf + 1 } else a
    .done n { a.resetTx with preds := writePred a.preds i.rd false } i
  else
    match closeTx n a (some (timeOf sec ns)) with
    | .inr c => .exc c
    | .inl (n, a, c) => .done n { a with preds := writePred a.preds i.rd c } i

/-- DROP (R145): with no input held nothing is dropped, and it still counts as an output. A dropped input stays readable in the receive area (DESIGN CHOICE, log entry 125). -/
def effDrop (n : Node) (a : Act) (i : KIns) : KRes :=
  if 8 ≤ a.count isDrop then .exc 6
  else if i.fn % 2 = 0 then .done n (a.resetTx.hold .dropTx) i
  else
    match a.input with
    | none => .done n (a.hold (.dropHeld 255 0)) i
    | some x =>
      if x.dropped then .done n (a.hold (.dropHeld 255 0)) i
      else .done n { a.hold (.dropHeld x.src (leAt x.hdr 4 2)) with input := some { x with dropped := true } } i

/-- RXQ (04 R142). -/
def execKRxq (e : Nat) (s : State) : Host.Outcome State Fault Refusal :=
  s.to (s.node.kStep e [.rxq] (fun n a i => effRxq n e a i))

/-- EMIT (04 R143). -/
def execKEmit (e : Nat) (s : State) : Host.Outcome State Fault Refusal := s.to (s.node.kStep e [.emit] effEmit)

/-- LAUNCH (04 R144). -/
def execKLaunch (e : Nat) (s : State) : Host.Outcome State Fault Refusal := s.to (s.node.kStep e [.launch] effLaunch)

/-- DROP (04 R145). -/
def execKDrop (e : Nat) (s : State) : Host.Outcome State Fault Refusal := s.to (s.node.kStep e [.drop] effDrop)

end Sys2Proof.Machine
end

