-- ==== Sys2Proof/Machine/KerInteger.lean ====
section
/-! DEFINITION. Kerarqua: the SYS, ALU, CMP and immediate instructions (04 R126-R129, R152), one meaning per row. -/

namespace Sys2Proof.Machine

open Sys2Proof

/-- b of the ALU group is g[rb], of the ALUX group the sign-extended imm32 (R126). -/
def KIns.b (i : KIns) (a : Act) : W64 := if i.x then imm64 i.imm else a.rg i.rb

/-- The ALU and ALUX groups: g[rd] ← g[ra] op b (R126, R127). -/
def effAlu (n : Node) (a : Act) (i : KIns) : KRes :=
  .done n (a.wg i.rd (aluOp i.tag (a.rg i.ra) (i.b a))) i

/-- NOP (R152). -/
def effNop (n : Node) (a : Act) (i : KIns) : KRes := .done n a i

/-- END (R152). -/
def effEnd (n : Node) (a : Act) (_ : KIns) : KRes := .ok { n := n, a := a, cost := 1, fin := true }

/-- RET: pc ← the popped return address; an empty stack raises STACK (R105, R152). -/
def effRet (n : Node) (a : Act) (_ : KIns) : KRes :=
  match a.stack with
  | [] => .exc 5
  | r :: t => .ok { n := n, a := { a with stack := t }, cost := 3, jump := some r }

/-- RDSP: pc, ep, nt.s (which captures node time) or nt.f (R77, R78, R152). -/
def effRdsp (n : Node) (a : Act) (i : KIns) : KRes :=
  if i.ra = 0 then .done n (a.wg i.rd (BitVec.ofNat 64 a.pc)) i
  else if i.ra = 1 then .done n (a.wg i.rd (BitVec.ofNat 64 a.ep)) i
  else if i.ra = 2 then .done n ({ a with ntcap := n.clock.now }.wg i.rd (BitVec.ofNat 64 (secOf n.clock.now % 2 ^ 48))) i
  else .done n (a.wg i.rd (BitVec.ofNat 64 (a.ntcap % secU))) i

/-- RDP: the predicates, p0 reading 1 (R152). -/
def effRdp (n : Node) (a : Act) (i : KIns) : KRes := .done n (a.wg i.rd (BitVec.ofNat 64 a.preds)) i

/-- WRP: p1 to p7 from g[ra] (R152). -/
def effWrp (n : Node) (a : Act) (i : KIns) : KRes :=
  .done n { a with preds := (a.rg i.ra).toNat % 256 / 2 * 2 + 1 } i

/-- CMP and CMPX: the condition to pd (R122, R128). -/
def effCmp (n : Node) (a : Act) (i : KIns) : KRes :=
  .done n { a with preds := writePred a.preds i.rd (cmpOp i.fn (a.rg i.ra) (i.b a)) } i

/-- ADDI (R129). -/
def effAddi (n : Node) (a : Act) (i : KIns) : KRes :=
  .done n (a.wg i.rd (a.rg i.rd + BitVec.ofInt 64 (toSigned 16 i.imm))) i

/-- MOVI: sign- or zero-extended imm16 (R129). -/
def effMovi (n : Node) (a : Act) (i : KIns) : KRes :=
  .done n (a.wg i.rd (if i.sbit = 0 then BitVec.ofInt 64 (toSigned 16 i.imm) else BitVec.ofNat 64 i.imm)) i

/-- MOVK: one 16-bit lane replaced, the others kept (R129). -/
def effMovk (n : Node) (a : Act) (i : KIns) : KRes :=
  let lane := (if i.op = 0x0B then 2 else 0) + i.sbit
  let v := (a.rg i.rd).toNat
  let k := 16 * lane
  .done n (a.wg i.rd (BitVec.ofNat 64 (v - v / 2 ^ k % 65536 * 2 ^ k + i.imm * 2 ^ k))) i

/-- NOP (04 R152). -/
def execKNop (e : Nat) (s : State) : Host.Outcome State Fault Refusal := s.to (s.node.kStep e [.nop] effNop)

/-- END (04 R152). -/
def execKEnd (e : Nat) (s : State) : Host.Outcome State Fault Refusal := s.to (s.node.kStep e [.endA] effEnd)

/-- RET (04 R152). -/
def execKRet (e : Nat) (s : State) : Host.Outcome State Fault Refusal := s.to (s.node.kStep e [.ret] effRet)

/-- RDSP (04 R152). -/
def execKRdsp (e : Nat) (s : State) : Host.Outcome State Fault Refusal := s.to (s.node.kStep e [.rdsp] effRdsp)

/-- RDP (04 R152). -/
def execKRdp (e : Nat) (s : State) : Host.Outcome State Fault Refusal := s.to (s.node.kStep e [.rdp] effRdp)

/-- WRP (04 R152). -/
def execKWrp (e : Nat) (s : State) : Host.Outcome State Fault Refusal := s.to (s.node.kStep e [.wrp] effWrp)

/-- ADD (04 R126). -/
def execKAdd (e : Nat) (s : State) : Host.Outcome State Fault Refusal := s.to (s.node.kStep e [.add] effAlu)

/-- SUB (04 R126). -/
def execKSub (e : Nat) (s : State) : Host.Outcome State Fault Refusal := s.to (s.node.kStep e [.sub] effAlu)

/-- AND (04 R126). -/
def execKAnd (e : Nat) (s : State) : Host.Outcome State Fault Refusal := s.to (s.node.kStep e [.and'] effAlu)

/-- OR (04 R126). -/
def execKOr (e : Nat) (s : State) : Host.Outcome State Fault Refusal := s.to (s.node.kStep e [.or'] effAlu)

/-- XOR (04 R126). -/
def execKXor (e : Nat) (s : State) : Host.Outcome State Fault Refusal := s.to (s.node.kStep e [.xor'] effAlu)

/-- ANDN (04 R126). -/
def execKAndn (e : Nat) (s : State) : Host.Outcome State Fault Refusal := s.to (s.node.kStep e [.andn] effAlu)

/-- SHL (04 R126). -/
def execKShl (e : Nat) (s : State) : Host.Outcome State Fault Refusal := s.to (s.node.kStep e [.shl] effAlu)

/-- SHR (04 R126). -/
def execKShr (e : Nat) (s : State) : Host.Outcome State Fault Refusal := s.to (s.node.kStep e [.shr] effAlu)

/-- SAR (04 R126). -/
def execKSar (e : Nat) (s : State) : Host.Outcome State Fault Refusal := s.to (s.node.kStep e [.sar] effAlu)

/-- ROR (04 R126). -/
def execKRor (e : Nat) (s : State) : Host.Outcome State Fault Refusal := s.to (s.node.kStep e [.ror] effAlu)

/-- MIN (04 R126). -/
def execKMin (e : Nat) (s : State) : Host.Outcome State Fault Refusal := s.to (s.node.kStep e [.min'] effAlu)

/-- MAX (04 R126). -/
def execKMax (e : Nat) (s : State) : Host.Outcome State Fault Refusal := s.to (s.node.kStep e [.max'] effAlu)

/-- MINU (04 R126). -/
def execKMinu (e : Nat) (s : State) : Host.Outcome State Fault Refusal := s.to (s.node.kStep e [.minu] effAlu)

/-- MAXU (04 R126). -/
def execKMaxu (e : Nat) (s : State) : Host.Outcome State Fault Refusal := s.to (s.node.kStep e [.maxu] effAlu)

/-- SEXT (04 R126). -/
def execKSext (e : Nat) (s : State) : Host.Outcome State Fault Refusal := s.to (s.node.kStep e [.sext] effAlu)

/-- ZEXT (04 R126). -/
def execKZext (e : Nat) (s : State) : Host.Outcome State Fault Refusal := s.to (s.node.kStep e [.zext] effAlu)

/-- MUL (04 R126). -/
def execKMul (e : Nat) (s : State) : Host.Outcome State Fault Refusal := s.to (s.node.kStep e [.mul] effAlu)

/-- MULHS (04 R126). -/
def execKMulhs (e : Nat) (s : State) : Host.Outcome State Fault Refusal := s.to (s.node.kStep e [.mulhs] effAlu)

/-- MULHU (04 R126). -/
def execKMulhu (e : Nat) (s : State) : Host.Outcome State Fault Refusal := s.to (s.node.kStep e [.mulhu] effAlu)

/-- DIVS (04 R127). -/
def execKDivs (e : Nat) (s : State) : Host.Outcome State Fault Refusal := s.to (s.node.kStep e [.divs] effAlu)

/-- DIVU (04 R127). -/
def execKDivu (e : Nat) (s : State) : Host.Outcome State Fault Refusal := s.to (s.node.kStep e [.divu] effAlu)

/-- REMS (04 R127). -/
def execKRems (e : Nat) (s : State) : Host.Outcome State Fault Refusal := s.to (s.node.kStep e [.rems] effAlu)

/-- REMU (04 R127). -/
def execKRemu (e : Nat) (s : State) : Host.Outcome State Fault Refusal := s.to (s.node.kStep e [.remu] effAlu)

/-- BSWAP (04 R126). -/
def execKBswap (e : Nat) (s : State) : Host.Outcome State Fault Refusal := s.to (s.node.kStep e [.bswap] effAlu)

/-- POPC (04 R126). -/
def execKPopc (e : Nat) (s : State) : Host.Outcome State Fault Refusal := s.to (s.node.kStep e [.popc] effAlu)

/-- CLZ (04 R126). -/
def execKClz (e : Nat) (s : State) : Host.Outcome State Fault Refusal := s.to (s.node.kStep e [.clz] effAlu)

/-- ABS (04 R126). -/
def execKAbs (e : Nat) (s : State) : Host.Outcome State Fault Refusal := s.to (s.node.kStep e [.abs] effAlu)

/-- CMP and CMPX (04 R128). -/
def execKCmp (e : Nat) (s : State) : Host.Outcome State Fault Refusal := s.to (s.node.kStep e [.cmp] effCmp)

/-- ADDI (04 R129). -/
def execKAddi (e : Nat) (s : State) : Host.Outcome State Fault Refusal := s.to (s.node.kStep e [.addi] effAddi)

/-- MOVI (04 R129). -/
def execKMovi (e : Nat) (s : State) : Host.Outcome State Fault Refusal := s.to (s.node.kStep e [.movi] effMovi)

/-- MOVK (04 R129). -/
def execKMovk (e : Nat) (s : State) : Host.Outcome State Fault Refusal := s.to (s.node.kStep e [.movk] effMovk)

end Sys2Proof.Machine
end

