-- ==== Sys2Proof/Machine/KerTables.lean ====
section
/-! DEFINITION. Kerarqua: the TBL group (04 R146, R147; 03 R111), one meaning per row. -/

namespace Sys2Proof.Machine

open Sys2Proof

/-- The table an instruction names; the checks of R123 have found it present. -/
def Node.kTab (n : Node) (i : KIns) : TabDef := (n.tab (i.imm % 256)).getD {}

/-- A double-banked train table seen by an activation of another epoch (R111). -/
def stale (n : Node) (a : Act) (d : TabDef) : Bool := d.dbl && a.ep != n.epoch

/-- The predicate destination fn[6:4], without a combine mode (R122, R146). -/
def setC (a : Act) (i : KIns) (c : Bool) : Act := { a with preds := setPred a.preds (bitsOf i.fn 6 4) c }

/-- The outcome of a TBL instruction: cost with the table's entry size. -/
def tblDone (n : Node) (a : Act) (i : KIns) (d : TabDef) : KRes := .ok { n := n, a := a, cost := kCost i.tag d.n }

/-- The index of a key in the active bank; a miss for a stale activation (R111, R147). -/
def kLookup (n : Node) (a : Act) (d : TabDef) (key : Nat) : Option Nat :=
  if stale n a d then none else n.lookup d false key

/-- TBL.LK (R146). -/
def effTblLk (n : Node) (a : Act) (i : KIns) : KRes :=
  let d := n.kTab i
  if !d.hashed then .exc 2 else
  match kLookup n a d (a.rg i.ra).toNat with
  | none => tblDone n (setC (a.wg i.rd 0) i false) i d
  | some k => tblDone n (setC (a.wg i.rd (BitVec.ofNat 64 k)) i true) i d

/-- TBL.RD (R146). -/
def effTblRd (n : Node) (a : Act) (i : KIns) : KRes :=
  let d := n.kTab i
  let k := (a.rg i.ra).toNat
  if d.entries ≤ k then .exc 2
  else if stale n a d ∨ !n.entryOk d false k then
    tblDone n (setC (a.wgs i.rd (List.replicate d.n 0)) i false) i d
  else tblDone { n with freeN := n.freeN + 1 } (setC (a.wgs i.rd (n.entryData d false k)) i true) i d

/-- TBL.LKRD (R146). -/
def effTblLkrd (n : Node) (a : Act) (i : KIns) : KRes :=
  let d := n.kTab i
  if !d.hashed then .exc 2 else
  match kLookup n a d (a.rg i.ra).toNat with
  | none => tblDone n (setC (a.wgs i.rd (List.replicate d.n 0)) i false) i d
  | some k => tblDone n (setC (a.wgs i.rd (n.entryData d false k)) i true) i d

/-- TBL.WR (R98, R146). -/
def effTblWr (n : Node) (a : Act) (i : KIns) : KRes :=
  let d := n.kTab i
  let k := (a.rg i.ra).toNat
  if d.entries ≤ k then .exc 2
  else if 16 ≤ a.count isTbl then .exc 6
  else tblDone n (setC (a.hold (.tblWr d.num k (a.rgs i.rb d.n))) i true) i d

/-- Entries earlier held insertions of the activation reserve (R147). -/
def reserved (a : Act) (t : Nat) : List Nat :=
  a.outs.filterMap (fun h => match h with
    | .tblIns t' idx _ _ => if t' = t then some idx else none
    | _ => none)

/-- TBL.INS (R98, R146, R147): a key present changes nothing but c; a stale activation's search misses (R111; log entry 13). -/
def effTblIns (n : Node) (a : Act) (i : KIns) : KRes :=
  let d := n.kTab i
  let key := (a.rg i.ra).toNat
  if !d.hashed then .exc 2
  else if !stale n a d && (n.lookup d d.wview key).isSome then tblDone n (setC a i false) i d else
  match n.freeSlot d d.wview key (reserved a d.num) with
  | none => tblDone n (setC (a.wg i.rd 0) i false) i d
  | some k =>
    if 16 ≤ a.count isTbl then .exc 6
    else tblDone n (setC ((a.hold (.tblIns d.num k key (a.rgs i.rb d.n))).wg i.rd (BitVec.ofNat 64 k)) i true) i d

/-- TBL.DEL (R98, R146, R147): the search is a lookup, which misses for a stale activation (R111). -/
def effTblDel (n : Node) (a : Act) (i : KIns) : KRes :=
  let d := n.kTab i
  let key := (a.rg i.ra).toNat
  if !d.hashed then .exc 2 else
  match (if stale n a d then none else n.lookup d d.wview key) with
  | none => tblDone n (setC (a.wg i.rd 0) i false) i d
  | some k =>
    if 16 ≤ a.count isTbl then .exc 6
    else tblDone n (setC ((a.hold (.tblDel d.num k)).wg i.rd (BitVec.ofNat 64 k)) i true) i d

/-- TBL.LK (04 R146). -/
def execKTblLk (e : Nat) (s : State) : Host.Outcome State Fault Refusal := s.to (s.node.kStep e [.tblLk] effTblLk)

/-- TBL.RD (04 R146). -/
def execKTblRd (e : Nat) (s : State) : Host.Outcome State Fault Refusal := s.to (s.node.kStep e [.tblRd] effTblRd)

/-- TBL.WR (04 R146). -/
def execKTblWr (e : Nat) (s : State) : Host.Outcome State Fault Refusal := s.to (s.node.kStep e [.tblWr] effTblWr)

/-- TBL.INS (04 R147). -/
def execKTblIns (e : Nat) (s : State) : Host.Outcome State Fault Refusal := s.to (s.node.kStep e [.tblIns] effTblIns)

/-- TBL.DEL (04 R146). -/
def execKTblDel (e : Nat) (s : State) : Host.Outcome State Fault Refusal := s.to (s.node.kStep e [.tblDel] effTblDel)

/-- TBL.LKRD (04 R146). -/
def execKTblLkrd (e : Nat) (s : State) : Host.Outcome State Fault Refusal := s.to (s.node.kStep e [.tblLkrd] effTblLkrd)

end Sys2Proof.Machine
end

