-- ==== Sys2Proof/Machine/KerTopo.lean ====
section
/-! DEFINITION. Kerarqua: the TOPO group of the topology engine (04 R148, R149; 08 R281; 09 R335), one meaning per row. -/

namespace Sys2Proof.Machine

open Sys2Proof

/-- The held offset in ns, signed, saturated at ±(2^31 − 1); zero when no step is held (09 R335). -/
def Node.heldNs (n : Node) : Int :=
  match n.clock.held with
  | none => 0
  | some (_, o) => max (-(2 ^ 31 - 1)) (min (o.tdiv nsU) (2 ^ 31 - 1))

/-- The time status word (09 R335). -/
def Node.timeStatus (n : Node) : Nat :=
  b2n n.clock.held.isSome * 2 ^ 63 + n.rd F.TIM_STATUS_STEP_REFUSED * 2 ^ 62 + n.rd F.TIM_STATUS_STATE * 2 ^ 59 +
    n.rd F.TIM_STATUS_PARENT * 2 ^ 54 + n.rd F.TIM_STATUS_HELD_PORT * 2 ^ 49 + ofSigned 32 n.heldNs

/-- Hold a TOPO output; at most 8 per activation (R149). -/
def holdTopo (n : Node) (a : Act) (i : KIns) (h : Held) : KRes :=
  if 8 ≤ a.count isTopo then .exc 6 else .done n (a.hold h) i

/-- TOPO.PSTAT (R148). -/
def effTopoPstat (n : Node) (a : Act) (i : KIns) : KRes :=
  let p := (a.rg i.ra).toNat
  if 4 ≤ p then .exc 2 else .done n (a.wg i.rd (BitVec.ofNat 64 (n.portStat p))) i

/-- TOPO.NBR: the node identifier of the neighbour seen on a port (R148). With no neighbour seen the manual gives c and no value: g[rd] is a free value (log entry 106). -/
def effTopoNbr (n : Node) (a : Act) (i : KIns) : KRes :=
  let p := (a.rg i.ra).toNat
  if 4 ≤ p then .exc 2 else
  let t := n.topPort p
  let (v, n) := if t.valid then (leAt t.hello 4 6, n) else n.free
  .done n { a.wg i.rd (BitVec.ofNat 64 v) with preds := setPred a.preds (bitsOf i.fn 6 4) t.valid } i

/-- TOPO.CAND (R148; 08 R288). -/
def effTopoCand (n : Node) (a : Act) (i : KIns) : KRes :=
  let k := (a.rg i.ra).toNat
  if 63 ≤ k then .exc 2 else holdTopo n a i (.topoCand k (a.rgs i.rb 4))

/-- TOPO.AGREE (R148; 08 R290). -/
def effTopoAgree (n : Node) (a : Act) (i : KIns) : KRes :=
  holdTopo n a i (.topoAgree (i.imm % 2) (bitsOf i.imm 31 16))

/-- TOPO.COMMIT (R148; 08 R292). -/
def effTopoCommit (n : Node) (a : Act) (i : KIns) : KRes :=
  holdTopo n a i (.topoCommit (i.imm % 65536) ((a.rg i.ra).toNat % 2 ^ 48) ((a.rg i.rb).toNat % 2 ^ 32))

/-- TOPO.CANCEL (R148). -/
def effTopoCancel (n : Node) (a : Act) (i : KIns) : KRes := holdTopo n a i .topoCancel

/-- TOPO.NEWEP (R148). -/
def effTopoNewep (n : Node) (a : Act) (i : KIns) : KRes := holdTopo n a i .topoNewep

/-- TOPO.ACCEPT (R148; 09 R332). -/
def effTopoAccept (n : Node) (a : Act) (i : KIns) : KRes := holdTopo n a i .topoAccept

/-- TOPO.TSTAT (R148; 09 R335). -/
def effTopoTstat (n : Node) (a : Act) (i : KIns) : KRes := .done n (a.wg i.rd (BitVec.ofNat 64 n.timeStatus)) i

/-- TOPO.LEVEL: service level in [1:0], node state in [7:4] (R148). -/
def effTopoLevel (n : Node) (a : Act) (i : KIns) : KRes :=
  .done n (a.wg i.rd (BitVec.ofNat 64 (n.level + 16 * modeCode n.mode))) i

/-- TOPO.PSTAT (R148). -/
def execKTopoPstat (e : Nat) (s : State) : Host.Outcome State Fault Refusal := s.to (s.node.kStep e [.topoPstat] effTopoPstat)

/-- TOPO.NBR (R148). -/
def execKTopoNbr (e : Nat) (s : State) : Host.Outcome State Fault Refusal := s.to (s.node.kStep e [.topoNbr] effTopoNbr)

/-- TOPO.CAND (R288). -/
def execKTopoCand (e : Nat) (s : State) : Host.Outcome State Fault Refusal := s.to (s.node.kStep e [.topoCand] effTopoCand)

/-- TOPO.AGREE (R290). -/
def execKTopoAgree (e : Nat) (s : State) : Host.Outcome State Fault Refusal := s.to (s.node.kStep e [.topoAgree] effTopoAgree)

/-- TOPO.COMMIT (R292). -/
def execKTopoCommit (e : Nat) (s : State) : Host.Outcome State Fault Refusal := s.to (s.node.kStep e [.topoCommit] effTopoCommit)

/-- TOPO.CANCEL (R148). -/
def execKTopoCancel (e : Nat) (s : State) : Host.Outcome State Fault Refusal := s.to (s.node.kStep e [.topoCancel] effTopoCancel)

/-- TOPO.NEWEP (R148). -/
def execKTopoNewep (e : Nat) (s : State) : Host.Outcome State Fault Refusal := s.to (s.node.kStep e [.topoNewep] effTopoNewep)

/-- TOPO.ACCEPT (R148). -/
def execKTopoAccept (e : Nat) (s : State) : Host.Outcome State Fault Refusal := s.to (s.node.kStep e [.topoAccept] effTopoAccept)

/-- TOPO.TSTAT (R335). -/
def execKTopoTstat (e : Nat) (s : State) : Host.Outcome State Fault Refusal := s.to (s.node.kStep e [.topoTstat] effTopoTstat)

/-- TOPO.LEVEL (R148). -/
def execKTopoLevel (e : Nat) (s : State) : Host.Outcome State Fault Refusal := s.to (s.node.kStep e [.topoLevel] effTopoLevel)

end Sys2Proof.Machine
end

