-- ==== Sys2Proof/Machine/Masters.lean ====
section
/-! DEFINITION. Commands of the masters (05 R173-R182; 13 R455-R460; 14 R485, R533): each row is one access to the Ibsum fabric, at the address the spec gives its register. -/

namespace Sys2Proof.Machine

open Sys2Proof

/-- The RW fields of a register as a word: what a master writes back when it changes one field. -/
def Node.rwWord (n : Node) (r : Reg) : Nat :=
  ((r.fields.filter (fun f => f.acc == .RW)).map (fun f => n.rd (r.fld f) * 2 ^ f.lo)).sum

/-- A word write of register `r`. -/
def State.pokeReg (s : State) (m : Master) (r : Reg) (v : Nat) : Host.Outcome State Fault Refusal := s.poke m r.addr v

/-- A write of `size` bytes. -/
def State.write (s : State) (m : Master) (a size v : Nat) : Host.Outcome State Fault Refusal :=
  s.toBus (s.node.bus { m := m, addr := a, size := size, wr := true, value := v })

/-- A read of `size` bytes. -/
def State.read (s : State) (m : Master) (a size : Nat) : Host.Outcome State Fault Refusal :=
  s.toBus (s.node.bus { m := m, addr := a, size := size, wr := false })

/-- A command whose operand names no unit of the node changes nothing. -/
def State.given (s : State) (c : Bool) (o : Host.Outcome State Fault Refusal) : Host.Outcome State Fault Refusal :=
  if c then o else s.to s.node

/-! ### Registers and memories -/

/-- Any write of a register or of management RAM (00 R9-R12, R61). -/
def execRegisterWrite (m : Master) (addr size value : Nat) (s : State) : Host.Outcome State Fault Refusal := s.write m addr size value

/-- A read that captures (R533). -/
def execCapturingRead (m : Master) (addr size : Nat) (s : State) : Host.Outcome State Fault Refusal := s.read m addr size

/-- A read of a higher word (R533). -/
def execHigherWordRead (m : Master) (addr size : Nat) (s : State) : Host.Outcome State Fault Refusal := s.read m addr size

/-- A read of a delta view, which clears it (07 R252). -/
def execDeltaViewRead (m : Master) (port idx : Nat) (s : State) : Host.Outcome State Fault Refusal :=
  s.given (decide (port < 23) && decide (idx < 64)) (s.read m (Reg.PRT_DELTA port idx).addr 4)

/-- A write through the table window (02 R54). -/
def execTableWindowWrite (m : Master) (addr size value : Nat) (s : State) : Host.Outcome State Fault Refusal := s.write m addr size value

/-- A write of a signal store (03 R117). -/
def execSignalStoreWrite (m : Master) (addr value : Nat) (s : State) : Host.Outcome State Fault Refusal := s.write m addr 4 value

/-- A write of a mailbox (03 R88). -/
def execMailboxWrite (m : Master) (addr size value : Nat) (s : State) : Host.Outcome State Fault Refusal := s.write m addr size value

/-- A write of code memory (14 R501). -/
def execCodeMemoryWrite (m : Master) (addr value : Nat) (s : State) : Host.Outcome State Fault Refusal := s.write m addr 4 value

/-! ### Engines (03 R118) -/

/-- `SC.CTRL.RUN`. -/
def execRunEngine (m : Master) (e : Nat) (value : Bool) (s : State) : Host.Outcome State Fault Refusal :=
  s.given (decide (e < 19)) (s.pokeReg m (.SC_CTRL e) (setBit (s.node.rwWord (.SC_CTRL e)) 0 value))

/-- `SC.CTRL.HOLD`. -/
def execHoldEngine (m : Master) (e : Nat) (value : Bool) (s : State) : Host.Outcome State Fault Refusal :=
  s.given (decide (e < 19)) (s.pokeReg m (.SC_CTRL e) (setBit (s.node.rwWord (.SC_CTRL e)) 1 value))

/-- `SC.CTRL.CLR_PEAK`. -/
def execClrPeak (m : Master) (e : Nat) (s : State) : Host.Outcome State Fault Refusal :=
  s.given (decide (e < 19)) (s.pokeReg m (.SC_CTRL e) (setBit (s.node.rwWord (.SC_CTRL e)) 2 true))

/-- `SC.DOORBELL`. -/
def execDoorbell (m : Master) (e : Nat) (s : State) : Host.Outcome State Fault Refusal :=
  s.given (decide (e < 19)) (s.pokeReg m (.SC_DOORBELL e) 1)

/-! ### Ports and line -/

/-- `PRO.CTRL.BOOT_DONE` (05 R172). -/
def execBootDone (m : Master) (s : State) : Host.Outcome State Fault Refusal := s.pokeReg m .PRO_CTRL 1

/-- Clear MISMATCH (07 R269). -/
def execRelayMismatchClear (m : Master) (line : Nat) (s : State) : Host.Outcome State Fault Refusal :=
  s.given (decide (line < 2)) (s.pokeReg m (.BBL_RELAY line) (s.node.rwWord (.BBL_RELAY line) + 2 ^ 28))

/-- `BBL.RELAYl.FORCE` (07 R266). -/
def execRelayForce (m : Master) (line : Nat) (value : Bool) (s : State) : Host.Outcome State Fault Refusal :=
  s.given (decide (line < 2)) (s.pokeReg m (.BBL_RELAY line) (setBit (s.node.rwWord (.BBL_RELAY line)) 29 value))

/-- `BBL.GEARCMD` (07 R260). -/
def execOwnerRequestedShift (m : Master) (port gear : Nat) (s : State) : Host.Outcome State Fault Refusal :=
  s.given (decide (port < 4)) (s.pokeReg m (.BBL_GEARCMD (lineOf port) (endOf port)) gear)

/-- `FAB.FREEZE` (06 R229). -/
def execFreeze (m : Master) (s : State) : Host.Outcome State Fault Refusal := s.pokeReg m .FAB_FREEZE 1

/-! ### Host rings and interrupts (05 R185, R188; 14 R507) -/

/-- A tail pointer. -/
def execTailWrite (m : Master) (tx : Bool) (ring index : Nat) (s : State) : Host.Outcome State Fault Refusal :=
  s.given (decide (ring < 16)) (s.pokeReg m (if tx then .HST_TXTAIL ring else .HST_RXTAIL ring) index)

/-- A ring is disabled. -/
def execRingDisable (m : Master) (tx : Bool) (ring : Nat) (s : State) : Host.Outcome State Fault Refusal :=
  let r : Reg := if tx then .HST_TXCTRL ring else .HST_RXCTRL ring
  s.given (decide (ring < 16)) (s.pokeReg m r (setBit (s.node.rwWord r) 31 false))

/-- An interrupt source is enabled with its vector. -/
def execIrqSourceEnable (m : Master) (src vector : Nat) (s : State) : Host.Outcome State Fault Refusal :=
  s.given (decide (src < 64)) (s.pokeReg m (.HST_IRQ_SRC src) (2 ^ 31 + vector))

/-! ### Time (09 R332, R345) -/

/-- ACCEPT_STEP. -/
def execAcceptStep (m : Master) (s : State) : Host.Outcome State Fault Refusal := s.pokeReg m .TIM_STEP_CMD 1

/-- SET. -/
def execTimeSet (m : Master) (s : State) : Host.Outcome State Fault Refusal := s.pokeReg m .TIM_STEP_CMD 2

/-! ### Pair (12 R438, R441) -/

/-- SWITCHOVER. -/
def execSwitchover (m : Master) (s : State) : Host.Outcome State Fault Refusal := s.pokeReg m .PAIR_CMD 1

/-- DRILL_NOW. -/
def execDrillNow (m : Master) (s : State) : Host.Outcome State Fault Refusal := s.pokeReg m .PAIR_CMD 2

/-! ### Ownership (05 R179, R180) -/

/-- REQUEST. -/
def execRequest (m : Master) (s : State) : Host.Outcome State Fault Refusal := s.pokeReg m .MGT_OWN_CMD 1

/-- HANDOVER. -/
def execHandover (m : Master) (s : State) : Host.Outcome State Fault Refusal := s.pokeReg m .MGT_OWN_CMD 2

/-- RENEW. -/
def execRenew (m : Master) (s : State) : Host.Outcome State Fault Refusal := s.pokeReg m .MGT_OWN_CMD 3

/-- WITHDRAW. -/
def execWithdraw (m : Master) (s : State) : Host.Outcome State Fault Refusal := s.pokeReg m .MGT_OWN_CMD 4

/-- The lease runs out (R180). -/
def execLeaseExpiry (s : State) : Host.Outcome State Fault Refusal := s.to s.node.leaseEnd

/-! ### Node commands (00 R15; 13 R453) -/

/-- RESTART. -/
def execRestart (m : Master) (s : State) : Host.Outcome State Fault Refusal := s.pokeReg m .MGT_CMD 1

/-- STABLE. -/
def execStable (m : Master) (s : State) : Host.Outcome State Fault Refusal := s.pokeReg m .MGT_CMD 2

/-! ### Update (13 R469, R474-R479) -/

/-- BLOCK. -/
def execBlockStore (m : Master) (s : State) : Host.Outcome State Fault Refusal := s.pokeReg m .UPD_CMD 1

/-- COMMIT. -/
def execCommitUpdate (m : Master) (s : State) : Host.Outcome State Fault Refusal := s.pokeReg m .UPD_CMD 2

/-- CONFIRM. -/
def execConfirmUpdate (m : Master) (s : State) : Host.Outcome State Fault Refusal := s.pokeReg m .UPD_CMD 3

/-- REVERT. -/
def execRevert (m : Master) (s : State) : Host.Outcome State Fault Refusal := s.pokeReg m .UPD_CMD 4

/-- ABORT. -/
def execAbortTransfer (m : Master) (s : State) : Host.Outcome State Fault Refusal := s.pokeReg m .UPD_CMD 5

/-- SETWRITE. -/
def execSetwrite (m : Master) (s : State) : Host.Outcome State Fault Refusal := s.pokeReg m .UPD_CMD 6

/-- LOADER. -/
def execLoaderWrite (m : Master) (s : State) : Host.Outcome State Fault Refusal := s.pokeReg m .UPD_CMD 7

/-! ### Field buses (10 R353, R356, R362, R365, R373) -/

/-- `CAN.CTRL`. -/
def execCanEnable (m : Master) (ch value : Nat) (s : State) : Host.Outcome State Fault Refusal :=
  s.given (decide (ch < 8)) (s.pokeReg m (.CAN_CTRL ch) value)

/-- RECOVER. -/
def execRecover (m : Master) (ch : Nat) (s : State) : Host.Outcome State Fault Refusal :=
  s.given (decide (ch < 8)) (s.pokeReg m (.CAN_CMD ch) 1)

/-- FLUSH_TX. -/
def execFlushTx (m : Master) (ch : Nat) (s : State) : Host.Outcome State Fault Refusal :=
  s.given (decide (ch < 8)) (s.pokeReg m (.CAN_CMD ch) 2)

/-- RXACK of a number of entries. -/
def execRxack (m : Master) (ch count : Nat) (s : State) : Host.Outcome State Fault Refusal :=
  s.given (decide (ch < 8)) (s.pokeReg m (.CAN_CMD ch) (3 + 256 * count))

/-- `MVB.CTRL.EN` is set. -/
def execMvbEnable (m : Master) (ch : Nat) (s : State) : Host.Outcome State Fault Refusal :=
  s.given (decide (ch < 2)) (s.pokeReg m (.MVB_CTRL ch) (setBit (s.node.rwWord (.MVB_CTRL ch)) 31 true))

/-! ### Remote windows (11 R387, R391, R395) -/

/-- A read through a remote window. -/
def execWindowRead (m : Master) (addr size : Nat) (s : State) : Host.Outcome State Fault Refusal := s.read m addr size

/-- A write through a remote window. -/
def execWindowWrite (m : Master) (addr size value : Nat) (s : State) : Host.Outcome State Fault Refusal := s.write m addr size value

/-- A step of a locked sequence. -/
def State.lockStep (s : State) (m : Master) (code : Nat) : Host.Outcome State Fault Refusal :=
  s.pokeReg m .BRG_LOCK_CTRL (s.node.rwWord .BRG_LOCK_CTRL + code)

/-- LOCK_READ. -/
def execLockRead (m : Master) (s : State) : Host.Outcome State Fault Refusal := s.lockStep m 1

/-- WRITE_UNLOCK. -/
def execWriteUnlock (m : Master) (s : State) : Host.Outcome State Fault Refusal := s.lockStep m 2

/-- UNLOCK. -/
def execUnlock (m : Master) (s : State) : Host.Outcome State Fault Refusal := s.lockStep m 3

/-! ### The empty queue -/

/-- With no command waiting, accesses that waited for a lock go on, the bridge takes what has been recognised for it, links cut off go down, the node's clock ticks, and forwarding resumes after a takeover where all it waits for is there (log entries 6, 109, 120). -/
def idle (s : State) : Host.Outcome State Fault Refusal :=
  match s.node.resume with
  | (none, n) => s.to n.bridgeTake.dropLinks.tick.gapEnd
  | (some a, _) => .fault (.reservedBit a)

end Sys2Proof.Machine
end

