-- ==== Sys2Proof/Machine/Receive.lean ====
section
/-! DEFINITION. A frame arrives at a port (06 R189-R221): the receive MAC, the units that take their frames before the classifier, the transit path, the fabric; and the wake patterns (07 R249-R251). -/

namespace Sys2Proof.Machine

open Sys2Proof

/-- Receive ports of the fabric: P0 to P19 and P21. -/
def hasRx (p : Nat) : Bool := decide (p < 20) || p == 21

/-- A consist heartbeat: group address 03-54-39-00-00-01 and EtherType 88B6h, untagged (12 R413). -/
def isHeartbeat (b : List Byte) : Bool := beAt b 0 6 == 0x035439000001 && beAt b 12 2 == 0x88B6

/-- The heartbeat interface takes the frame: its port, the right address, a good FCS (12 R413); it works with the data island unpowered. -/
def Node.hbTakes (n : Node) (p : Nat) (f : WireFrame) : Bool :=
  p == n.rd F.PAIR_CTRL_HB_PORT && decide (4 ≤ p) && decide (p < 16) && f.fcsOk && !f.symErr && isHeartbeat f.bytes

/-- A PTP frame on a port whose role is not off: EtherType 88F7h, or UDP ports 319 and 320 in the 1588 role (09 R323). -/
def Node.isPtp (n : Node) (p : Nat) (b : List Byte) : Bool :=
  let r := n.rd (F.TIM_PORT_ROLE p)
  r != 0 && (beAt b 12 2 == 0x88F7 || (r == 2 && isUdp b && (udpDst b == 319 || udpDst b == 320)))

/-- The epoch a frame is stamped with on entry; of one whose first byte came before the receive side took its present epoch, the one before (08 R298). -/
def Node.stampOf (n : Node) (p : Nat) (early : Bool) : Nat :=
  if p < 4 ∧ n.on (F.BBL_STATUS_HITLESS (lineOf p) (endOf p)) ∧ !n.on (F.BBL_STATUS_COMPAT (lineOf p) (endOf p))
  then (if early then (n.topPort p).rxPrev else (n.topPort p).rxEpoch) else n.epoch

/-- A frame goes through the classifier into the fabric (R197-R221). -/
def Node.classifyEnter (n : Node) (p len : Nat) (oversize early : Bool) (u : Untagged) : Node :=
  match n.classify u p with
  | none => (n.disc 0).bounce 1
  | some s =>
    let f : Frame := { data := u.body, ingress := p, stamp := n.stampOf p early, oversize := oversize, tci := u.tci, rseq := u.rseq, ts := n.rxTime p }
    (n.enter f len s none).2

/-- A frame the MAC has kept: what recognises it before the classifier, else the classifier (08 R275, R284, R287; 09 R323; 11 R382; 13 R470). A TTDP frame's checks are the standard's: their outcome is a free value (log entry 17). -/
def Node.fabricRx (n : Node) (p len : Nat) (b : List Byte) (oversize early : Bool) : Node :=
  let u := untag b
  let ety := if beAt b 0 6 = 0x0180C200000E then beAt b 12 2 else 0
  if n.level = 0 ∨ (n.level = 1 ∧ 4 ≤ p ∧ p < 20) then n
  else if p < 4 ∧ n.level = 1 ∧ !n.topoWorks then n.transit b p oversize
  else if p < 4 ∧ ety = 0x88B5 then n.topoRx p (recognisedType (b.drop 14)) b
  else if p < 4 ∧ isTtdp b then
    let (v, n) := n.free
    n.ttdpRx p (v % 2 == 0) b
  else if n.barred p then (n.disc 11).bounce 1
  else if p < 4 ∧ ety = 0x88B7 then n.relayRx p (byteAt b 17) (b.drop 14)
  else if p < 20 ∧ n.isPtp p u.body then n.delayReqRx p (if beAt u.body 12 2 = 0x88F7 then u.body.drop 14 else udpPayload u.body)
  else if n.isBridge u.body then n.bridgeRx p (udpPayload u.body)
  else if n.isTopoGram u.body then n.topoGramRx p u.body
  else if p < 4 ∧ n.relayOnly then n.transit b p oversize
  else n.classifyEnter p len oversize early u

/-- A complete frame arrives at a port. -/
def Node.frameRx (n : Node) (p : Nat) (f : WireFrame) : Node :=
  if !hasRx p then n
  else if n.hbTakes p f then
    let n := if n.receives p then (n.rxMac p f).2 else n
    n.hbRx 1 (f.bytes.drop 14)
  else if !n.receives p then n
  else if p = 21 then n.fabricRx p (f.bytes.length + 4) f.bytes false false
  else
    match n.rxMac p f with
    | (.dropped, n) => n
    | (.good b oversize, n) =>
      match pauseOp b with
      | some op => n.pauseFrame p b op
      | none => n.fabricRx p (f.bytes.length + 4) b oversize f.early

/-! ### Wake patterns (R249-R251) -/

/-- Offsets in the window of pattern `k` whose mask bit is set. -/
def Node.wakeBytes (n : Node) (k : Nat) : List Nat :=
  (List.range 256).filter (fun i => bitOf (n.rd (F.PRT_WAKE_MASK_MASK k (i / 32))) (i % 32))

/-- The frame, DA through FCS, meets pattern `k` (R250). -/
def Node.wakeHit (n : Node) (k : Nat) (b : List Byte) : Bool :=
  let st := n.rd (F.PRT_WAKE_CTRL_START k)
  let l := n.wakeBytes k
  !l.isEmpty && l.all (fun i => decide (st + i < b.length)) &&
    crc32c (l.map (fun i => b.getD (st + i) 0)) == n.rd (F.PRT_WAKE_CHECK_CHECK k)

/-- The matcher of pattern `k` runs on port `p` (R251). -/
def Node.wakeArmed (n : Node) (k p : Nat) : Bool :=
  n.on (F.PRT_WAKE_CTRL_EN k) && bitOf (n.rd (F.PRT_WAKE_CTRL_PORTS k)) (p - 4) &&
    (n.mode == .stabled || (n.mode == .coldStandby && n.on (F.PRT_WAKE_CTRL_STANDBY k)))

/-- The first pattern a frame matches. -/
def Node.wakeFind (n : Node) (p : Nat) (f : WireFrame) : Option Nat :=
  if 4 ≤ p ∧ p < 16 ∧ f.fcsOk ∧ !f.symErr then
    let b := f.bytes ++ leBytes 4 (crc32 f.bytes)
    (List.range 16).find? (fun k => n.wakeArmed k p && n.wakeHit k b)
  else none

/-- Record a match (R250). -/
def Node.wakeRecord (n : Node) (k p : Nat) : Node :=
  let n := n.inc F.PRT_WAKE_STATUS_MATCHES
  if n.on F.PRT_WAKE_STATUS_VALID then n
  else n.wrs [(F.PRT_WAKE_STATUS_VALID, 1), (F.PRT_WAKE_STATUS_PATTERN, k), (F.PRT_WAKE_STATUS_PORT, p)]

/-- A frame reaches the wake matchers: a match in STABLED wakes the node (13 R454). -/
def Node.wakeMatch (n : Node) (p : Nat) (f : WireFrame) : Node :=
  match n.wakeFind p f with
  | none => n
  | some k =>
    let n := n.wakeRecord k p
    if n.mode = .stabled then (n.fault 0 3 0).restart 7 else n

/-! ### Meanings -/

/-- FRAME_RECEIVED (R189). -/
def execFrameReceived (port : Nat) (f : WireFrame) (s : State) : Host.Outcome State Fault Refusal := s.to (s.node.frameRx port f)

/-- WAKE_PATTERN_MATCH (R250). -/
def execWakePatternMatch (port : Nat) (f : WireFrame) (s : State) : Host.Outcome State Fault Refusal := s.to (s.node.wakeMatch port f)

end Sys2Proof.Machine
end

