-- ==== Sys2Proof/Machine/Release.lean ====
section
/-! DEFINITION. The release of an activation's outputs (03 R96, 04 R139-R151), dispatch and timers (03 R90-R92), owner writes (02 R56), engine lockstep failures and slot moves (12 R448, R449; 02 R49). -/

namespace Sys2Proof.Machine

open Sys2Proof

/-! ### One held output -/

/-- An STS: both words of the slot in one cycle, STAMP the freshness clock, P cleared (03 R86, 04 R139). -/
def Node.releaseSts (n : Node) (e slot : Nat) (v : W64) (ok : Bool) (rng : Nat) (sat : Bool) : Node :=
  let ad := sigBase e + 16 * slot
  let st := b2n ok * 2 ^ 63 + rng * 2 ^ 60 + b2n sat * 2 ^ 59 + n.clock.fresh % 2 ^ 48
  { n with mem := wr64 (wr64 n.mem ad v.toNat) (ad + 8) st }

/-- A mailbox store: (offset, mask, value) per byte (03 R88). -/
def Node.releaseMbox (n : Node) (e : Nat) (parts : List (Nat × Nat × Nat)) : Node :=
  { n with mem := parts.foldl (fun (m : List Host.Cell) (p : Nat × Nat × Nat) =>
      let a := mboxBase e + p.1
      memWrite m a [BitVec.ofNat 8 (overlay (memRead m a).toNat p.2.1 p.2.2)]) n.mem }

/-- A table write is discarded: a train table of another epoch or in a grace interval (03 R111, 08 R303). -/
def Node.staleWrite (n : Node) (d : TabDef) (ep : Nat) : Bool := d.dbl && (ep != n.epoch || n.inGrace)

/-- Count a table write discarded at release. -/
def Node.dropWrite (n : Node) (e : Nat) : Node := n.inc (F.SC_DROPS_STALE_WR e)

/-- A table write, insertion or deletion (04 R146, R147). -/
def Node.releaseTbl (n : Node) (e ep : Nat) (h : Held) : Node :=
  match h with
  | .tblWr t i ws =>
    (match n.tab t with
     | none => n
     | some d => if n.staleWrite d ep then n.dropWrite e
       else n.entryWrite d d.wview i ((List.range d.n).map (fun j => (j, ws.getD j 0))))
  | .tblIns t i key ws =>
    (match n.tab t with
     | none => n
     | some d => if n.staleWrite d ep ∨ n.used d d.wview i then n.dropWrite e
       else n.entryInsert d d.wview i key ws)
  | .tblDel t i =>
    (match n.tab t with
     | none => n
     | some d => if n.staleWrite d ep then n.dropWrite e else n.entryDelete d d.wview i)
  | _ => n

/-- The CAN frame a transmit header describes (03 R83, 04 R141). -/
def canOfHeader (h data : List Byte) : CanFrame :=
  let info := leAt h 0x1C 4
  let xl := bitOf info 5
  { id := leAt h 0xC 4 % (if bitOf info 0 then 2 ^ 29 else 2 ^ 11), ide := bitOf info 0, rtr := bitOf info 1,
    fdf := bitOf info 2, brs := bitOf info 3, xlf := xl, sdt := if xl then bitsOf info 15 8 else 0,
    acpt := if xl then leAt h 0x20 4 else 0, data := data }

/-- A frame closed by EMIT or LAUNCH enters its egress or field-bus queue; one with an uncorrectable error in a cell is discarded here (02 R68); with PD set the TRDP header unit prefixes its headers (03 R84, R98; 10 R359, R370; 11 R402). -/
def Node.releaseFrame (n : Node) (ep : Nat) (f : TxClosed) : Node :=
  let dest := byteAt f.hdr 2
  let st := leAt f.hdr 4 2
  if f.bad then (n.disc 8).returnCells f.cells
  else if dest = 1 then n.canEnqueue st f.canEpoch (canOfHeader f.hdr f.data) f.cells
  else if dest = 2 then n.mvbEmit st (leAt f.hdr 0x1C 4 % 16) (leAt f.hdr 0xC 4 % 4096) f.data f.cells
  else
    let pd := bitOf (byteAt f.hdr 3) 0
    let ds := leAt f.hdr 6 2
    let bytes := if pd then n.pdBuild ds f.data else f.data
    let n := if pd then
        ({ n with ipId := (n.ipId + 1) % 65536 }.bump (F.BRG_DS_SEQ_SEQ ds)).inc (F.BRG_DS_COUNT_COUNT ds)
      else n
    n.enterEngine { data := bytes, ingress := 22, stamp := ep, cells := f.cells } st f.launch

/-- A DROP: an Ethernet input counts in its context's DISCARDS and in DISC12, a field-bus input in DISC12 (04 R145). -/
def Node.releaseDrop (n : Node) (src stream : Nat) : Node :=
  if src = 255 then n
  else if src = 0 then (n.ctxDiscard stream).disc 12 else n.disc 12

/-- A SIGNAL sets the flag of its target, or is discarded (04 R151). -/
def Node.releaseSignal (n : Node) (e target flag : Nat) : Node :=
  let eng? : Option Nat := if target = 31 then some e else if target = 16 then some 18 else n.boundEng target
  match eng? with
  | none => n
  | some k => n.setEng k { n.eng k with flags := setBit (n.eng k).flags flag true }

/-- Release one held output of an activation of engine `e` with epoch `ep`. -/
def Node.releaseOne (e ep : Nat) (n : Node) (h : Held) : Node :=
  match h with
  | .sts slot v ok rng sat => n.releaseSts e slot v ok rng sat
  | .mbox parts => n.releaseMbox e parts
  | .tblWr .. | .tblIns .. | .tblDel .. => n.releaseTbl e ep h
  | .frame f => n.releaseFrame ep f
  | .forward fid s => n.forward fid s ep
  | .dropHeld src s => n.releaseDrop src s
  | .dropTx => n
  | .signal t f => n.releaseSignal e t f
  | .topoCand i ws => n.candWrite i ws
  | .topoAgree ph epoch => if ph = 0 then n.agree0 epoch else n.agree1 epoch
  | .topoCommit epoch sec ns => n.scheduleCommit epoch sec ns
  | .topoCancel => n.cancelCommit
  | .topoNewep => n.newEpoch
  | .topoAccept => n.acceptStep.2

/-- The release of a completed activation: outputs in program order, cells not emitted back, inputs consumed, held owner writes applied (03 R84, R94, R96, R99). -/
def Node.releaseAll (n : Node) (e : Nat) : Node :=
  let x := n.eng e
  if x.phase ≠ .releasing then n else
  let a := x.act
  let n := a.outs.foldl (Node.releaseOne e a.ep) n
  let n := (List.range a.nobuf).foldl (fun m _ => m.disc 4) n
  let n := n.returnCells (a.txCells ++ a.backCells)
  let n := a.taken.foldl Node.consume n
  let n := n.setEng e { n.eng e with
    phase := .idle, act := { a with outs := [], taken := [], input := none, tx := [], txCells := [], backCells := [], nobuf := 0 } }
  ((n.applyOwner e).codeCheck e).captureAt e

/-- Dispatch (03 R92). -/
def execDispatch (e : Nat) (s : State) : Host.Outcome State Fault Refusal :=
  s.to (if e < 19 then s.node.dispatch e else s.node)

/-- Node time is at an instant of a timer: in whole microseconds and less the phase, an exact multiple of the period (03 R91). -/
def Node.timerAt (n : Node) (tr : Trig) : Bool :=
  ((n.clock.now / (1000 * nsU) : Nat) - (tr.phase : Int)) % (tr.period : Int) == 0

/-- A timer of engine `e` fires, once at each of its instants: its trigger becomes pending, or the firing is coalesced and counted (03 R91). -/
def Node.timerFire (n : Node) (e t : Nat) : Node :=
  let x := n.eng e
  let tr := FMap.get {} x.trigs t
  let here := (n.clock.now / (1000 * nsU) + 1, n.clock.moves)
  if !(n.dataOn && tr.en && tr.kind == 2 && n.timerAt tr) || FMap.get (0, 0) x.timerAt t == here then n else
  let n' := n.setEng e { x.fire t with timerAt := FMap.put (0, 0) x.timerAt t here }
  if 0 < FMap.get 0 x.fired t then n'.inc (F.SC_TIMERMISS_COUNT e) else n'

/-- A timer fires (03 R91). -/
def execTimerFire (e trig : Nat) (s : State) : Host.Outcome State Fault Refusal :=
  s.to (if e < 19 then s.node.timerFire e trig else s.node)

/-- The budget of the running activation is reached (03 R100, R101): nothing where it is not. -/
def execBudget (e : Nat) (s : State) : Host.Outcome State Fault Refusal :=
  s.to (if e < 19 ∧ s.node.budgetDue e = true then s.node.abortAct e 8 else s.node)

/-- The outputs of a completed activation are released (03 R96). -/
def execOutputRelease (e : Nat) (s : State) : Host.Outcome State Fault Refusal :=
  s.to (if e < 19 then s.node.releaseAll e else s.node)

/-- Held owner writes take effect at an activation boundary (02 R56). -/
def execHeldOwnerWriteApply (e : Nat) (s : State) : Host.Outcome State Fault Refusal :=
  s.to (if e < 18 ∧ (s.node.eng e).phase = .idle then s.node.applyOwner e else s.node)

/-! ### Engine failures (12 R448, R449; 02 R49) -/

/-- The lockstep comparison of engine `e` fails: abort, retirement, and the slot waits for its move or becomes unbound. -/
def Node.engineFail (n : Node) (e : Nat) : Node :=
  if !n.dataOn ∨ 18 ≤ e ∨ n.retired e then n else
  let n := if (n.eng e).phase = .running then n.abortAct e 9 else n
  let n := (n.wr F.HLT_RETIRED_ENGINE (setBit (n.rd F.HLT_RETIRED_ENGINE) e true)).fault 15 2 e
  match n.slotOf e with
  | none => n
  | some s =>
    if n.spareEngs.isEmpty then n.unbindSlot s
    else n.setEng e { n.eng e with moving := true }

/-- Bytes of an engine's memories in its block: signal store, mailbox and code (14 R500). -/
def engSpan : Nat := 0x50000

/-- The crossbar attaches the memories of engine `e` to engine `k`, whose own are left unattached (02 R49). -/
def Node.reattach (n : Node) (e k : Nat) : Node :=
  let a := sigBase e
  let b := sigBase k
  let m := memClear (memPlace n.mem b engSpan (memPart n.mem a engSpan)) a engSpan
  let inside := fun (base x : Nat) => decide (base ≤ x) && decide (x < base + engSpan)
  { n with mem := m,
           poison := (n.poison.filter (fun x => !inside b x)).map (fun x => if inside a x then x - a + b else x) }

/-- The slot of a retired engine moves to a spare at an activation boundary; which spare the manual does not say; where the last spare has gone meanwhile it becomes unbound (12 R448, R449; 02 R49; log entry 28). Records of what each physical engine has run stay with it (03 R118). -/
def Node.slotMove (n : Node) (e : Nat) : Node :=
  let x := n.eng e
  if !(n.dataOn && decide (e < 18) && x.moving && x.phase == .idle) then n else
  match n.slotOf e with
  | none => n.setEng e { x with moving := false }
  | some s =>
    let sp := n.spareEngs
    if sp.isEmpty then (n.setEng e { x with moving := false }).unbindSlot s else
    let (v, n) := n.free
    let k := sp.getD (v % sp.length) 0
    let n := n.reattach e k
    let wr := x.ownerWr.map (fun w => (w.1 - sigBase e + sigBase k, w.2))
    let n := n.setEng k { n.eng k with trigs := x.trigs, fired := x.fired, timerAt := x.timerAt, flags := x.flags, prevEpoch := x.prevEpoch, ownerWr := wr }
    let n := n.setEng e { act := x.act }
    let n := n.wrs [(F.HLT_SLOT_ENGINE s, k), (F.SC_CTRL_RUN k, n.rd (F.SC_CTRL_RUN e)), (F.SC_CTRL_HOLD k, n.rd (F.SC_CTRL_HOLD e))]
    n.inc F.HLT_ENG_MOVES_MOVES

/-- A lockstep comparison fails (12 R448). -/
def execEngineLockstepFailure (e : Nat) (s : State) : Host.Outcome State Fault Refusal := s.to (s.node.engineFail e)

/-- A slot moves (02 R49). -/
def execSlotMove (e : Nat) (s : State) : Host.Outcome State Fault Refusal := s.to (s.node.slotMove e)

end Sys2Proof.Machine
end

