-- ==== Sys2Proof/Machine/Scrub.lean ====
section
/-! DEFINITION. Memory errors found by reads and by the scrubber (02 R68, R69; 12 R429, R440; 13, code table). -/

namespace Sys2Proof.Machine

open Sys2Proof

/-- Number of a memory in the row order of R68. -/
def memNo : MemKind → Nat
  | .packet => 0 | .table => 1 | .signal => 2 | .code => 3 | .mgmt => 4 | .mram => 5 | .bootRom => 6

/-- The memory is powered. -/
def Node.memOn (n : Node) : MemKind → Bool
  | .packet | .table | .signal | .code => n.dataOn
  | .mgmt | .bootRom => n.ctlOn
  | .mram => n.mode != .off

/-- Mark the 64-bit word at an Ibsum address as holding an uncorrectable error. -/
def Node.poisonAt (n : Node) (a : Nat) : Node :=
  let w := a / 8 * 8
  if w ∈ n.poison then n else { n with poison := w :: n.poison }

/-- A corrected error: counted against its memory, per bank for the packet buffer (R68). -/
def Node.scrubCorrected (n : Node) (m : MemKind) (inst : Nat) : Node :=
  if m = .packet then (if inst < 26 then n.inc (F.FAB_BANK_CE_HOUR inst) else n)
  else { n with memCe := FMap.upd 0 n.memCe (32 * memNo m + inst % 32) (· + 1) }

/-- What holds the cell of the packet buffer in which an uncorrectable error lies, as the command's `addr` names it: its bits 34 to 32 the kind, 35 to 39 the channel or engine, 31 to 0 the number of the frame, entry, place in a queue, port or output (log entry 136). -/
inductive Holder where
  | frame (fid : Nat)
  | rxEntry (ch id : Nat)
  | canTx (ch i : Nat)
  | mvbSource (ch k : Nat)
  | output (e i : Nat)
  | txArea (e : Nat)
  | nothing
deriving DecidableEq, Repr

def holderOf (addr : Nat) : Holder :=
  let u := addr / 2 ^ 35 % 32
  let k := addr % 2 ^ 32
  match addr / 2 ^ 32 % 8 with
  | 0 => .frame k
  | 1 => .rxEntry u k
  | 2 => .canTx u k
  | 3 => .mvbSource u k
  | 4 => .output u k
  | 5 => .txArea u
  | _ => .nothing

/-- What holds a cell of bank `b` that has an uncorrectable error is discarded and counted, a frame at its egress, an entry of a field bus at once, what a program is about to send at its release; the cells go back (R68). An entry that an activation holds has been delivered and stays to its end. -/
def Node.cellBad (n : Node) (b : Nat) : Holder → Node
  | .frame fid => if b ∈ (n.frame fid).cells then n.setFrame fid { n.frame fid with bad := true } else n
  | .rxEntry ch id =>
    (match (n.chan ch).rx.find? (fun x => x.id == id && !x.held) with
     | some x => if b ∈ x.cells then
         ((n.setChan ch { n.chan ch with rx := (n.chan ch).rx.filter (fun y => y.id != id) }).returnCells x.cells).disc 8 else n
     | none => n)
  | .canTx ch i =>
    (match (n.chan ch).txq[i]? with
     | some x => if !decide (b ∈ x.cells) then n else
         let n := (n.setChan ch { n.chan ch with txq := (n.chan ch).txq.set i { x with flush := true } }).disc 8
         if x.trying then n else n.canRemove ch i
     | none => n)
  | .mvbSource ch k =>
    let c := n.chan ch
    if b ∈ FMap.get [] c.srcCells k then
      ((n.returnCells (FMap.get [] c.srcCells k)).setChan ch { c with src := FMap.put [] c.src k [], srcCells := FMap.put [] c.srcCells k [] }).disc 8
    else n
  | .output e i =>
    let a := (n.eng e).act
    (match a.outs[i]? with
     | some (.frame f) => if b ∈ f.cells then
         n.setEng e { n.eng e with act := { a with outs := a.outs.set i (.frame { f with bad := true }) } } else n
     | _ => n)
  | .txArea e => if b ∈ (n.eng e).act.txCells then n.setEng e { n.eng e with act := { (n.eng e).act with txBad := true } } else n
  | .nothing => n

/-- The outcome of an uncorrectable error (R68). `inst` is the bank, the engine or the checkpoint held (0 the newest, 2 the agreement checkpoint); `addr` names what holds the cell of the buffer, or is the Ibsum address. A mailbox lies in the signal store, or in the code memory of the topology engine; its word reads as a free value from then on (log entry 108). -/
def Node.scrubBad (n : Node) (m : MemKind) (inst addr : Nat) : Node :=
  match m with
  | .packet =>
    if 26 ≤ inst then n else
    let n := { n with fab := { n.fab with ueAt := n.fab.ueAt ++ [(inst, n.clock.fresh)] } }
    ((n.showUe inst).fault 0 2 (256 * inst)).cellBad inst (holderOf addr)
  | .table =>
    if 0x40000000 ≤ addr ∧ addr < 0x40000000 + 8 * 786432 then (n.poisonAt addr).fault 0 2 1 else n
  | .signal =>
    let o := addr - sigBase inst
    if inst < 18 ∧ mboxBase inst ≤ addr ∧ addr < mboxBase inst + 0x1000 then (n.poisonAt addr).fault 0 2 (2 + 256 * inst) else
    if 18 ≤ inst ∨ addr < sigBase inst ∨ 258048 ≤ o then n else
    let a := sigBase inst + o / 16 * 16 + 8
    { n with mem := wr64 n.mem a (setBit (rd64 n.mem a) 62 true) }.fault 0 2 (2 + 256 * inst)
  | .code =>
    if inst = 18 ∧ mboxBase 18 ≤ addr ∧ addr < mboxBase 18 + 0x1000 then (n.poisonAt addr).fault 0 2 (3 + 256 * inst) else
    if 19 ≤ inst ∨ addr < codeBase inst ∨ codeBase inst + codeSize inst ≤ addr then n else
    let n := n.fault 0 2 (3 + 256 * inst)
    if (n.eng inst).phase = .running then n.poisonAt addr else n.reloadCode inst
  | .mgmt => n.lockstep addr
  | .mram =>
    let n := (n.found).fault 0 2 5
    if inst = 2 then (if n.pair.agree.isSome then { n with pair := { n.pair with agree := none } }.ckptBad else n) else
    match n.pair.ckpts[inst]? with
    | some c => n.rejectCk c.seq
    | none => n
  | .bootRom =>
    if 0x40000 ≤ addr then n else
    let n := ((n.poisonAt addr).found).fault 0 2 6
    if n.mode = .boot then n.enterFaulted else n

/-- One word read, or scrubbed, with an error. -/
def Node.scrub (n : Node) (m : MemKind) (inst addr : Nat) (unc : Bool) : Node :=
  if !n.memOn m then n else if unc then n.scrubBad m inst addr else n.scrubCorrected m inst

/-- An error is found in a memory (R69). -/
def execScrubWord (mem : MemKind) (inst addr : Nat) (unc : Bool) (s : State) : Host.Outcome State Fault Refusal :=
  s.to (s.node.scrub mem inst addr unc)

end Sys2Proof.Machine
end

