-- ==== Sys2Proof/Machine/Dispatch.lean ====
section
/-! DEFINITION. The dispatcher: one arm per command, one direct call of its meaning. -/

namespace Sys2Proof.Machine

open Sys2Proof

/-- The effect of a command on everything but the queue. -/
def exec (i : Instr) (s : State) : Host.Outcome State Fault Refusal :=
  match i with
  | .powerInputEntersRange battery volts ac freq => Sys2Proof.Machine.execPowerInputEntersRange battery volts ac freq s
  | .bootDone m => Sys2Proof.Machine.execBootDone m s
  | .claimWaitTimeout => Sys2Proof.Machine.execClaimWaitTimeout s
  | .powerInputLeavesRange battery reading => Sys2Proof.Machine.execPowerInputLeavesRange battery reading s
  | .endOfHoldUp => Sys2Proof.Machine.execEndOfHoldUp s
  | .tempWarn die wall => Sys2Proof.Machine.execTempWarn die wall s
  | .overtemp die => Sys2Proof.Machine.execOvertemp die s
  | .overtempHoldEnd die => Sys2Proof.Machine.execOvertempHoldEnd die s
  | .railFault => Sys2Proof.Machine.execRailFault s
  | .zeroSpeedChange level => Sys2Proof.Machine.execZeroSpeedChange level s
  | .cabActiveChange level => Sys2Proof.Machine.execCabActiveChange level s
  | .watchdogExpiry => Sys2Proof.Machine.execWatchdogExpiry s
  | .lockstepMismatch addr => Sys2Proof.Machine.execLockstepMismatch addr s
  | .relayMismatch line => Sys2Proof.Machine.execRelayMismatch line s
  | .relayMismatchClear m line => Sys2Proof.Machine.execRelayMismatchClear m line s
  | .relayForce m line value => Sys2Proof.Machine.execRelayForce m line value s
  | .registerWrite m addr size value => Sys2Proof.Machine.execRegisterWrite m addr size value s
  | .capturingRead m addr size => Sys2Proof.Machine.execCapturingRead m addr size s
  | .higherWordRead m addr size => Sys2Proof.Machine.execHigherWordRead m addr size s
  | .deltaViewRead m port idx => Sys2Proof.Machine.execDeltaViewRead m port idx s
  | .tableWindowWrite m addr size value => Sys2Proof.Machine.execTableWindowWrite m addr size value s
  | .signalStoreWrite m addr value => Sys2Proof.Machine.execSignalStoreWrite m addr value s
  | .heldOwnerWriteApply e => Sys2Proof.Machine.execHeldOwnerWriteApply e s
  | .mailboxWrite m addr size value => Sys2Proof.Machine.execMailboxWrite m addr size value s
  | .codeMemoryWrite m addr value => Sys2Proof.Machine.execCodeMemoryWrite m addr value s
  | .runEngine m e value => Sys2Proof.Machine.execRunEngine m e value s
  | .holdEngine m e value => Sys2Proof.Machine.execHoldEngine m e value s
  | .clrPeak m e => Sys2Proof.Machine.execClrPeak m e s
  | .doorbell m e => Sys2Proof.Machine.execDoorbell m e s
  | .dispatch e => Sys2Proof.Machine.execDispatch e s
  | .timerFire e trig => Sys2Proof.Machine.execTimerFire e trig s
  | .budget e => Sys2Proof.Machine.execBudget e s
  | .outputRelease e => Sys2Proof.Machine.execOutputRelease e s
  | .engineLockstepFailure e => Sys2Proof.Machine.execEngineLockstepFailure e s
  | .slotMove e => Sys2Proof.Machine.execSlotMove e s
  | .serviceLevelRise => Sys2Proof.Machine.execServiceLevelRise s
  | .kNop e => Sys2Proof.Machine.execKNop e s
  | .kEnd e => Sys2Proof.Machine.execKEnd e s
  | .kRet e => Sys2Proof.Machine.execKRet e s
  | .kRdsp e => Sys2Proof.Machine.execKRdsp e s
  | .kRdp e => Sys2Proof.Machine.execKRdp e s
  | .kWrp e => Sys2Proof.Machine.execKWrp e s
  | .kAdd e => Sys2Proof.Machine.execKAdd e s
  | .kSub e => Sys2Proof.Machine.execKSub e s
  | .kAnd e => Sys2Proof.Machine.execKAnd e s
  | .kOr e => Sys2Proof.Machine.execKOr e s
  | .kXor e => Sys2Proof.Machine.execKXor e s
  | .kAndn e => Sys2Proof.Machine.execKAndn e s
  | .kShl e => Sys2Proof.Machine.execKShl e s
  | .kShr e => Sys2Proof.Machine.execKShr e s
  | .kSar e => Sys2Proof.Machine.execKSar e s
  | .kRor e => Sys2Proof.Machine.execKRor e s
  | .kMin e => Sys2Proof.Machine.execKMin e s
  | .kMax e => Sys2Proof.Machine.execKMax e s
  | .kMinu e => Sys2Proof.Machine.execKMinu e s
  | .kMaxu e => Sys2Proof.Machine.execKMaxu e s
  | .kSext e => Sys2Proof.Machine.execKSext e s
  | .kZext e => Sys2Proof.Machine.execKZext e s
  | .kMul e => Sys2Proof.Machine.execKMul e s
  | .kMulhs e => Sys2Proof.Machine.execKMulhs e s
  | .kMulhu e => Sys2Proof.Machine.execKMulhu e s
  | .kDivs e => Sys2Proof.Machine.execKDivs e s
  | .kDivu e => Sys2Proof.Machine.execKDivu e s
  | .kRems e => Sys2Proof.Machine.execKRems e s
  | .kRemu e => Sys2Proof.Machine.execKRemu e s
  | .kBswap e => Sys2Proof.Machine.execKBswap e s
  | .kPopc e => Sys2Proof.Machine.execKPopc e s
  | .kClz e => Sys2Proof.Machine.execKClz e s
  | .kAbs e => Sys2Proof.Machine.execKAbs e s
  | .kCmp e => Sys2Proof.Machine.execKCmp e s
  | .kAddi e => Sys2Proof.Machine.execKAddi e s
  | .kMovi e => Sys2Proof.Machine.execKMovi e s
  | .kMovk e => Sys2Proof.Machine.execKMovk e s
  | .kLd e => Sys2Proof.Machine.execKLd e s
  | .kSt e => Sys2Proof.Machine.execKSt e s
  | .kLdx e => Sys2Proof.Machine.execKLdx e s
  | .kStx e => Sys2Proof.Machine.execKStx e s
  | .kExtb e => Sys2Proof.Machine.execKExtb e s
  | .kInsb e => Sys2Proof.Machine.execKInsb e s
  | .kSat e => Sys2Proof.Machine.execKSat e s
  | .kScale e => Sys2Proof.Machine.execKScale e s
  | .kRange e => Sys2Proof.Machine.execKRange e s
  | .kConv e => Sys2Proof.Machine.execKConv e s
  | .kLds e => Sys2Proof.Machine.execKLds e s
  | .kSts e => Sys2Proof.Machine.execKSts e s
  | .kBr e => Sys2Proof.Machine.execKBr e s
  | .kCall e => Sys2Proof.Machine.execKCall e s
  | .kLoop e => Sys2Proof.Machine.execKLoop e s
  | .kWait e cycle => Sys2Proof.Machine.execKWait e cycle s
  | .kSignal e => Sys2Proof.Machine.execKSignal e s
  | .kRxq e => Sys2Proof.Machine.execKRxq e s
  | .kEmit e => Sys2Proof.Machine.execKEmit e s
  | .kLaunch e => Sys2Proof.Machine.execKLaunch e s
  | .kDrop e => Sys2Proof.Machine.execKDrop e s
  | .kTblLk e => Sys2Proof.Machine.execKTblLk e s
  | .kTblRd e => Sys2Proof.Machine.execKTblRd e s
  | .kTblWr e => Sys2Proof.Machine.execKTblWr e s
  | .kTblIns e => Sys2Proof.Machine.execKTblIns e s
  | .kTblDel e => Sys2Proof.Machine.execKTblDel e s
  | .kTblLkrd e => Sys2Proof.Machine.execKTblLkrd e s
  | .kTopoPstat e => Sys2Proof.Machine.execKTopoPstat e s
  | .kTopoNbr e => Sys2Proof.Machine.execKTopoNbr e s
  | .kTopoCand e => Sys2Proof.Machine.execKTopoCand e s
  | .kTopoAgree e => Sys2Proof.Machine.execKTopoAgree e s
  | .kTopoCommit e => Sys2Proof.Machine.execKTopoCommit e s
  | .kTopoCancel e => Sys2Proof.Machine.execKTopoCancel e s
  | .kTopoNewep e => Sys2Proof.Machine.execKTopoNewep e s
  | .kTopoAccept e => Sys2Proof.Machine.execKTopoAccept e s
  | .kTopoTstat e => Sys2Proof.Machine.execKTopoTstat e s
  | .kTopoLevel e => Sys2Proof.Machine.execKTopoLevel e s
  | .scrubWord mem inst addr unc => Sys2Proof.Machine.execScrubWord mem inst addr unc s
  | .frameReceived port f => Sys2Proof.Machine.execFrameReceived port f s
  | .pfcRepeat port cls => Sys2Proof.Machine.execPfcRepeat port cls s
  | .pauseReceived port f => Sys2Proof.Machine.execPauseReceived port f s
  | .pauseExpiry port cls => Sys2Proof.Machine.execPauseExpiry port cls s
  | .verifyReceived port => Sys2Proof.Machine.execVerifyReceived port s
  | .respondReceived port => Sys2Proof.Machine.execRespondReceived port s
  | .verifyTimer port => Sys2Proof.Machine.execVerifyTimer port s
  | .egressSchedule port => Sys2Proof.Machine.execEgressSchedule port s
  | .copyTransmitted port => Sys2Proof.Machine.execCopyTransmitted port s
  | .cellReturn bank cells => Sys2Proof.Machine.execCellReturn bank cells s
  | .linkUp port rate => Sys2Proof.Machine.execLinkUp port rate s
  | .linkDown port => Sys2Proof.Machine.execLinkDown port s
  | .autoModeDetect port compat => Sys2Proof.Machine.execAutoModeDetect port compat s
  | .capabilityRecordReceived port => Sys2Proof.Machine.execCapabilityRecordReceived port s
  | .capabilityTimer port => Sys2Proof.Machine.execCapabilityTimer port s
  | .lpiEntry port => Sys2Proof.Machine.execLpiEntry port s
  | .lpiWakeComplete port => Sys2Proof.Machine.execLpiWakeComplete port s
  | .gearDecision port load m2 m3 m4 => Sys2Proof.Machine.execGearDecision port load m2 m3 m4 s
  | .ownerRequestedShift m port gear => Sys2Proof.Machine.execOwnerRequestedShift m port gear s
  | .gearReq port gear start node => Sys2Proof.Machine.execGearReq port gear start node s
  | .gearAck port => Sys2Proof.Machine.execGearAck port s
  | .gearNak port next => Sys2Proof.Machine.execGearNak port next s
  | .gearRetry port => Sys2Proof.Machine.execGearRetry port s
  | .gearDeferred port => Sys2Proof.Machine.execGearDeferred port s
  | .silenceStart port => Sys2Proof.Machine.execSilenceStart port s
  | .silenceEnd port us => Sys2Proof.Machine.execSilenceEnd port us s
  | .qualityDownshift port margin m1 m2 m3 => Sys2Proof.Machine.execQualityDownshift port margin m1 m2 m3 s
  | .wakePatternMatch port f => Sys2Proof.Machine.execWakePatternMatch port f s
  | .hostTxDescriptorFetch ring desc payload => Sys2Proof.Machine.execHostTxDescriptorFetch ring desc payload s
  | .tailWrite m tx ring index => Sys2Proof.Machine.execTailWrite m tx ring index s
  | .ringDisable m tx ring => Sys2Proof.Machine.execRingDisable m tx ring s
  | .hostRxDelivery ring desc => Sys2Proof.Machine.execHostRxDelivery ring desc s
  | .irqSourceEnable m src vector => Sys2Proof.Machine.execIrqSourceEnable m src vector s
  | .freeze m => Sys2Proof.Machine.execFreeze m s
  | .freezeDone => Sys2Proof.Machine.execFreezeDone s
  | .bankDrainStart bank => Sys2Proof.Machine.execBankDrainStart bank s
  | .spareCellRelease bank => Sys2Proof.Machine.execSpareCellRelease bank s
  | .drainMove => Sys2Proof.Machine.execDrainMove s
  | .bankRetire => Sys2Proof.Machine.execBankRetire s
  | .recoveryResetTimeout idx => Sys2Proof.Machine.execRecoveryResetTimeout idx s
  | .launchDue port => Sys2Proof.Machine.execLaunchDue port s
  | .helloTimer => Sys2Proof.Machine.execHelloTimer s
  | .hello port bytes => Sys2Proof.Machine.execHello port bytes s
  | .neighbourTimeout port => Sys2Proof.Machine.execNeighbourTimeout port s
  | .epochDifferenceTimeout port => Sys2Proof.Machine.execEpochDifferenceTimeout port s
  | .report port bytes => Sys2Proof.Machine.execReport port bytes s
  | .discoveryEnd => Sys2Proof.Machine.execDiscoveryEnd s
  | .discoveryTimeout => Sys2Proof.Machine.execDiscoveryTimeout s
  | .propose port bytes => Sys2Proof.Machine.execPropose port bytes s
  | .confirmRound port bytes => Sys2Proof.Machine.execConfirmRound port bytes s
  | .proposeTimeout => Sys2Proof.Machine.execProposeTimeout s
  | .confirmTimeout => Sys2Proof.Machine.execConfirmTimeout s
  | .abortRound port bytes => Sys2Proof.Machine.execAbortRound port bytes s
  | .roundRetry => Sys2Proof.Machine.execRoundRetry s
  | .epochCommit => Sys2Proof.Machine.execEpochCommit s
  | .mark port bytes => Sys2Proof.Machine.execMark port bytes s
  | .markTimeout port => Sys2Proof.Machine.execMarkTimeout port s
  | .directoryWrite => Sys2Proof.Machine.execDirectoryWrite s
  | .graceEnd => Sys2Proof.Machine.execGraceEnd s
  | .tn7Ident port bytes => Sys2Proof.Machine.execTn7Ident port bytes s
  | .tn7RecordExpiry port => Sys2Proof.Machine.execTn7RecordExpiry port s
  | .ttdpFrame port ok bytes => Sys2Proof.Machine.execTtdpFrame port ok bytes s
  | .sync port msg => Sys2Proof.Machine.execSync port msg s
  | .followUp port msg => Sys2Proof.Machine.execFollowUp port msg s
  | .announce port msg => Sys2Proof.Machine.execAnnounce port msg s
  | .pdelayReq port msg => Sys2Proof.Machine.execPdelayReq port msg s
  | .pdelayResp port msg => Sys2Proof.Machine.execPdelayResp port msg s
  | .ptpMessageInterval port kind => Sys2Proof.Machine.execPtpMessageInterval port kind s
  | .receiptTimeout port => Sys2Proof.Machine.execReceiptTimeout port s
  | .stepTlvEnd => Sys2Proof.Machine.execStepTlvEnd s
  | .acceptStep m => Sys2Proof.Machine.execAcceptStep m s
  | .timeSet m => Sys2Proof.Machine.execTimeSet m s
  | .heartbeatSend => Sys2Proof.Machine.execHeartbeatSend s
  | .heartbeatReceived path bytes => Sys2Proof.Machine.execHeartbeatReceived path bytes s
  | .silenceDeclared => Sys2Proof.Machine.execSilenceDeclared s
  | .partnerClaimChange level => Sys2Proof.Machine.execPartnerClaimChange level s
  | .takeoverStart => Sys2Proof.Machine.execTakeoverStart s
  | .checkpointCapture => Sys2Proof.Machine.execCheckpointCapture s
  | .checkpointBlockReceived seq idx good last ck => Sys2Proof.Machine.execCheckpointBlockReceived seq idx good last ck s
  | .switchover m => Sys2Proof.Machine.execSwitchover m s
  | .switchoverTimeout => Sys2Proof.Machine.execSwitchoverTimeout s
  | .drillNow m => Sys2Proof.Machine.execDrillNow m s
  | .drillTimer => Sys2Proof.Machine.execDrillTimer s
  | .drillComplete failed parts => Sys2Proof.Machine.execDrillComplete failed parts s
  | .drillDeferred => Sys2Proof.Machine.execDrillDeferred s
  | .request m => Sys2Proof.Machine.execRequest m s
  | .handover m => Sys2Proof.Machine.execHandover m s
  | .renew m => Sys2Proof.Machine.execRenew m s
  | .withdraw m => Sys2Proof.Machine.execWithdraw m s
  | .leaseExpiry => Sys2Proof.Machine.execLeaseExpiry s
  | .restart m => Sys2Proof.Machine.execRestart m s
  | .stable m => Sys2Proof.Machine.execStable m s
  | .blockStore m => Sys2Proof.Machine.execBlockStore m s
  | .commitUpdate m => Sys2Proof.Machine.execCommitUpdate m s
  | .confirmUpdate m => Sys2Proof.Machine.execConfirmUpdate m s
  | .confirmCopyDone => Sys2Proof.Machine.execConfirmCopyDone s
  | .revert m => Sys2Proof.Machine.execRevert m s
  | .abortTransfer m => Sys2Proof.Machine.execAbortTransfer m s
  | .setwrite m => Sys2Proof.Machine.execSetwrite m s
  | .loaderWrite m => Sys2Proof.Machine.execLoaderWrite m s
  | .relayOfferTimer port => Sys2Proof.Machine.execRelayOfferTimer port s
  | .relayOffer port bytes => Sys2Proof.Machine.execRelayOffer port bytes s
  | .relayBlock port bytes => Sys2Proof.Machine.execRelayBlock port bytes s
  | .relayAck port bytes => Sys2Proof.Machine.execRelayAck port bytes s
  | .relayNak port bytes => Sys2Proof.Machine.execRelayNak port bytes s
  | .standbyImageCopy k bytes => Sys2Proof.Machine.execStandbyImageCopy k bytes s
  | .flashBlockRetire dev block => Sys2Proof.Machine.execFlashBlockRetire dev block s
  | .faultLogCopy => Sys2Proof.Machine.execFaultLogCopy s
  | .canEnable m ch value => Sys2Proof.Machine.execCanEnable m ch value s
  | .canFrameValid ch f => Sys2Proof.Machine.execCanFrameValid ch f s
  | .canTxSuccess ch => Sys2Proof.Machine.execCanTxSuccess ch s
  | .canError ch err => Sys2Proof.Machine.execCanError ch err s
  | .recover m ch => Sys2Proof.Machine.execRecover m ch s
  | .recoveryComplete ch => Sys2Proof.Machine.execRecoveryComplete ch s
  | .flushTx m ch => Sys2Proof.Machine.execFlushTx m ch s
  | .rxack m ch count => Sys2Proof.Machine.execRxack m ch count s
  | .fieldbusEntryFreed ch => Sys2Proof.Machine.execFieldbusEntryFreed ch s
  | .mvbMasterFrame ch fcode addr ok => Sys2Proof.Machine.execMvbMasterFrame ch fcode addr ok s
  | .mvbSlaveFrame ch ok line bytes => Sys2Proof.Machine.execMvbSlaveFrame ch ok line bytes s
  | .mvbBasicPeriod ch => Sys2Proof.Machine.execMvbBasicPeriod ch s
  | .mvbReplyTimeout ch => Sys2Proof.Machine.execMvbReplyTimeout ch s
  | .mvbEnable m ch => Sys2Proof.Machine.execMvbEnable m ch s
  | .windowRead m addr size => Sys2Proof.Machine.execWindowRead m addr size s
  | .windowWrite m addr size value => Sys2Proof.Machine.execWindowWrite m addr size value s
  | .tagWaitEnd => Sys2Proof.Machine.execTagWaitEnd s
  | .readTimeout tag => Sys2Proof.Machine.execReadTimeout tag s
  | .completion bytes => Sys2Proof.Machine.execCompletion bytes s
  | .farRead bytes => Sys2Proof.Machine.execFarRead bytes s
  | .farWrite bytes => Sys2Proof.Machine.execFarWrite bytes s
  | .farRequestServe => Sys2Proof.Machine.execFarRequestServe s
  | .heldRequestAccept => Sys2Proof.Machine.execHeldRequestAccept s
  | .writeGapTimeout node win => Sys2Proof.Machine.execWriteGapTimeout node win s
  | .writeErr bytes => Sys2Proof.Machine.execWriteErr bytes s
  | .lockRead m => Sys2Proof.Machine.execLockRead m s
  | .writeUnlock m => Sys2Proof.Machine.execWriteUnlock m s
  | .unlock m => Sys2Proof.Machine.execUnlock m s
  | .farLockRead bytes => Sys2Proof.Machine.execFarLockRead bytes s
  | .farUnlock bytes => Sys2Proof.Machine.execFarUnlock bytes s
  | .lockTimeout => Sys2Proof.Machine.execLockTimeout s
  | .lockBroken bytes => Sys2Proof.Machine.execLockBroken bytes s
  | .prefetchLineExpiry win line => Sys2Proof.Machine.execPrefetchLineExpiry win line s
  | .datasetTimeout d => Sys2Proof.Machine.execDatasetTimeout d s
  | .heartbeatPathSilent path => Sys2Proof.Machine.execHeartbeatPathSilent path s
  | .workingSetPartFails res => Sys2Proof.Machine.execWorkingSetPartFails res s
  | .unpowered50MsEnd => Sys2Proof.Machine.execUnpowered50MsEnd s
  | .updateCommandDone => Sys2Proof.Machine.execUpdateCommandDone s
  | .ttdpTimer port => Sys2Proof.Machine.execTtdpTimer port s
  | .selfTestFinding f => Sys2Proof.Machine.execSelfTestFinding f s

end Sys2Proof.Machine
end

