-- ==== Sys2Proof/Safety.lean ====
section
/-! DEFINITION. What the statements say of a run: completion, the settled node, frames, and when an engine issues an instruction or a write passes the Ibsum fabric's arbiter. -/

namespace Sys2Proof.Machine

open Sys2Proof

/-! ### Completion -/

/-- The command answers a next state that leaves the queue as it was and whose node satisfies `P`. -/
def Yields (c : Instr) (s : State) (P : Node → Prop) : Prop :=
  ∃ t, exec c s = .next t ∧ t.pending = s.pending ∧ P t.node

/-! ### The settled node -/

/-- The service level is one the working sets and the conditions of 01 R39 to R44 allow. -/
def Node.fits (n : Node) : Prop := n.level ≤ n.allowed

/-- Both relay sets are driven as 07 R266 says, and stand so where their feedback shows no mismatch (07 R269). -/
def Node.relaysFollow (n : Node) : Prop :=
  ∀ l, l < 2 → n.on (F.BBL_RELAY_DRIVE_OPEN l) = n.driveOpen l ∧
    (n.on (F.BBL_RELAY_MISMATCH l) = false → n.on (F.BBL_RELAY_CLOSED l) = !n.driveOpen l)

/-- What every command leaves behind: an allowed level, relays that follow their drive, and, in a powered node, the margin mark (01 R39, R42; 07 R266). -/
def Node.settled (n : Node) : Prop :=
  n.fits ∧ n.relaysFollow ∧ (n.mode ≠ .off → n.on F.HLT_REPORT_MARGIN = n.margin)

/-- The register fields that follow the node's state at the end of every command: relays, margin, staged fault sources. What they hold is said by `Node.settled`. -/
def followKeys : List Nat :=
  [F.MGT_FAULT_SOURCE.key, F.HLT_REPORT_MARGIN.key,
   (F.BBL_RELAY_DRIVE_OPEN 0).key, (F.BBL_RELAY_CLOSED 0).key, (F.BBL_RELAY_LIFE 0).key, (F.BBL_RELAY_OPS_COUNT 0).key,
   (F.BBL_RELAY_DRIVE_OPEN 1).key, (F.BBL_RELAY_CLOSED 1).key, (F.BBL_RELAY_LIFE 1).key, (F.BBL_RELAY_OPS_COUNT 1).key]

/-! ### Frames -/

/-- Every byte of memory reads as before. -/
def SameBytes (a b : Node) : Prop := ∀ x, memRead b.mem x = memRead a.mem x

/-- A fault record of that source, code and argument is staged. -/
def Node.hasRecord (n : Node) (src code arg : Nat) : Prop := ∃ r ∈ n.log.staged, r.source = src ∧ r.code = code ∧ r.arg = arg

/-- `n` is `m` but for what the end of every command may add: fault records, messages on the lines, and the register fields of `followKeys`, whose values `Node.settled` states. -/
structure Follows (m n : Node) : Prop where
  mode : n.mode = m.mode
  level : n.level = m.level
  wait : n.wait = m.wait
  unpowered : n.unpowered = m.unpowered
  failed : n.failed = m.failed
  ident : n.ident = m.ident
  mem : n.mem = m.mem
  poison : n.poison = m.poison
  caps : n.caps = m.caps
  holds : n.holds = m.holds
  results : n.results = m.results
  leaseAt : n.leaseAt = m.leaseAt
  settings : n.settings = m.settings
  clock : n.clock = m.clock
  engs : n.engs = m.engs
  staging : n.staging = m.staging
  tabs : n.tabs = m.tabs
  loaded : n.loaded = m.loaded
  chanSlot : n.chanSlot = m.chanSlot
  fab : n.fab = m.fab
  ports : n.ports = m.ports
  cnt : n.cnt = m.cnt
  delta : n.delta = m.delta
  inaug : n.inaug = m.inaug
  chans : n.chans = m.chans
  brg : n.brg = m.brg
  datasets : n.datasets = m.datasets
  ipId : n.ipId = m.ipId
  flash : n.flash = m.flash
  epochUnread : n.epochUnread = m.epochUnread
  updUnread : n.updUnread = m.updUnread
  memCe : n.memCe = m.memCe
  freeN : n.freeN = m.freeN
  pair : ∃ d k, n.pair = { m.pair with lastDrive := d, cut := k }
  out : ∃ l, n.out = l ++ m.out
  records : ∀ src code arg, m.hasRecord src code arg → n.hasRecord src code arg
  rd : ∀ f : Fld, f.key ∉ followKeys → n.rd f = m.rd f

/-- The command completes and leaves the node `m`: every register, every byte of memory and every unit as in `m`. -/
def Leaves (c : Instr) (s : State) (m : Node) : Prop := Yields c s (Follows m)

/-- Where the service level that `m` shows is allowed and no lower than before, the command completes and leaves the node `m`. -/
def Settles (c : Instr) (s : State) (m : Node) : Prop := m.level ≤ m.allowed → s.node.level ≤ m.level → Leaves c s m

/-! ### Start-up -/

/-- Where start-up ends: waiting for the partner inside BOOT, in COLD_STANDBY, in ACTIVE with the claim, or in FAULTED; at level 0, and with the data island on only where a role may need it (12 R407, R408; 05 R157). -/
structure StartUpEnds (n : Node) : Prop where
  mode : (n.mode = .boot ∧ n.wait = .claim) ∨ n.mode = .coldStandby ∨ n.mode = .active ∨ n.mode = .faulted
  level : n.level = 0
  active : n.mode = .active → n.on F.PAIR_STATUS_CLAIM_HELD = true
  cold : n.mode = .coldStandby ∨ n.mode = .faulted → n.on F.PAIR_STATUS_CLAIM_HELD = false ∧ n.dataOn = false

/-- `n` is what a node restart, or a power-on, of that cause leaves of `old`: nothing held for a master, start-up run to its end; where neither copy of the resident loader verifies, FAULTED at step 3 with the cause recorded and the executive the owner (00 R15; 05 R156, R157, R177). -/
structure Restarted (old : Node) (cause : Nat) (n : Node) : Prop where
  ends : StartUpEnds n
  results : n.results = []
  caps : n.caps = []
  holds : n.holds = []
  halted : old.romBad = false → old.loaderGood 0 = false → old.loaderGood 1 = false →
    n.mode = .faulted ∧ n.rd F.MGT_BOOTINFO_CAUSE = cause ∧ n.rd F.MGT_BOOTINFO_STEP = 3 ∧ n.rd F.MGT_OWNER_ID = 0 ∧
      n.on F.MGT_OWN_PEND_VALID = false ∧ ∀ a b c, old.hasRecord a b c → n.hasRecord a b c

/-- A standby that takes over, with its claim asserted, its data island powered, or its units started anew where a drill has powered it, and the executive the owner, before the load (12 R431; 05 R177). -/
def Node.claimed (n : Node) : Node :=
  let m := { (n.ownerReset.wr F.PAIR_STATUS_CLAIM_HELD 1).wr F.PAIR_DRILL_RUNNING 0 with
    pair := { n.pair with claimAt := n.wchCycle, tied := none, armed := false, switchFlag := false, part := none, agPart := none,
                          missedCk := 0, oldIdent := n.pair.partner.getD 0 } }
  if m.dataOn then m.dataClear.endDrains.freshBanks else m.dataUp

/-! ### Accesses on the Ibsum fabric -/

/-- An access that no far initiator's lock and no other access holds up, of a master the fabric answers, with the rights of its region and, for a write, ownership or an exception from it (05 R173, R178; 11 R396). -/
structure Passes (n : Node) (x : Access) : Prop where
  lock : n.brg.lock = none
  waits : n.brg.stalled = []
  reach : n.reaches (n.presented x.m) = true
  prot : n.protOk { x with m := n.presented x.m } = true
  owner : x.wr = true → n.mayWrite { x with m := n.presented x.m } = true

/-- A word write. -/
def wordWrite (m : Master) (a v : Nat) : Access := { m := m, addr := a, size := 4, wr := true, value := v }

/-- A word read. -/
def wordRead (m : Master) (a : Nat) : Access := { m := m, addr := a, size := 4, wr := false }

/-- A word write of register `r` that the fabric, the register's supply, the node's state and the reserved bits let through (05 R173, R178; 02 R66; 13 R456, R459; 00 R10). -/
structure RegPasses (n : Node) (m : Master) (r : Reg) (v : Nat) : Prop where
  fabric : Passes n (wordWrite m r.addr v)
  power : n.regUnpowered r = false
  mode : n.mode ≠ .updating
  legal : cmdOf r v ≠ 0 → n.legal r (cmdOf r v) = true ∧ n.cmdBusy r = false
  bits : reservedIn r (v % 2 ^ 32) = false

/-- The node after a write the arbiter accepts of a master: the lease of an owner other than the executive restarts (05 R180). -/
def Node.leased (n : Node) (m : Master) : Node :=
  if (n.presented m).id ≠ 0 ∧ n.owns (n.presented m) = true then { n with leaseAt := n.clock.fresh } else n

/-- The command completes as an access of master `m`: it leaves `post`, and the master reads `v` without an error. -/
def Answered (c : Instr) (s : State) (m : Master) (v : Nat) (post : Node) : Prop := Settles c s (post.emit (.resp m true v))

/-- The command completes as an access of master `m` that ends in a bus error and leaves `post`. -/
def Refused (c : Instr) (s : State) (m : Master) (post : Node) : Prop := Settles c s (post.emit (.resp m false 0))

/-! ### Who sends a command -/

/-- The master of the Ibsum fabric that sends a command; none where an event of the node, its lines or its engines is the command. -/
def sender : Instr → Option Master
  | .bootDone m | .relayMismatchClear m _ | .relayForce m _ _ | .registerWrite m _ _ _ | .capturingRead m _ _
  | .higherWordRead m _ _ | .deltaViewRead m _ _ | .tableWindowWrite m _ _ _ | .signalStoreWrite m _ _
  | .mailboxWrite m _ _ _ | .codeMemoryWrite m _ _ | .runEngine m _ _ | .holdEngine m _ _ | .clrPeak m _ | .doorbell m _
  | .ownerRequestedShift m _ _ | .tailWrite m _ _ _ | .ringDisable m _ _ | .irqSourceEnable m _ _ | .freeze m
  | .acceptStep m | .timeSet m | .switchover m | .drillNow m | .request m | .handover m | .renew m | .withdraw m
  | .restart m | .stable m | .blockStore m | .commitUpdate m | .confirmUpdate m | .revert m | .abortTransfer m
  | .setwrite m | .loaderWrite m | .canEnable m _ _ | .recover m _ | .flushTx m _ | .rxack m _ _ | .mvbEnable m _
  | .windowRead m _ _ | .windowWrite m _ _ _ | .lockRead m | .writeUnlock m | .unlock m => some m
  | _ => none

/-- The access `x` is one that command `c` makes, or one that has waited for a far initiator's lock. -/
def Makes (s : State) (c : Instr) (x : Access) : Prop :=
  x ∈ s.node.brg.stalled ∨ (sender c = some x.m ∧ ∀ m a k v, c = .registerWrite m a k v → x.addr = a ∧ x.size = k ∧ x.value = v)

/-! ### Lists -/

/-- Two lists of one length whose entries are related place by place. -/
def EachTo {α : Type} (r : α → α → Prop) (l l' : List α) : Prop :=
  l'.length = l.length ∧ ∀ (j : Nat) (u v : α), l[j]? = some u → l'[j]? = some v → r u v

/-- The chain-relay frame `b` waits at port `p`: for its turn under the relay rate, or in class 0 of the port (13 R470). -/
def Node.relayWaits (n : Node) (p : Nat) (b : List Byte) : Prop :=
  b ∈ (n.port p).relayQ ∨ ∃ c ∈ n.egQueue p 0, c.stream = 4096 ∧ (n.frame c.fid).data = b

/-! ### Topology frames and rounds -/

/-- A frame for the topology engine, of a length the MAC keeps whole, arrives on a backbone port of a node whose frame unit works; `b` is the frame from DA on (07 R233, R234; 08 R275). -/
structure WireIn (n : Node) (p : Nat) (b : List Byte) : Prop where
  works : n.topoWorks = true
  port : p < 4
  link : n.linkUp p = true
  size : 60 ≤ b.length ∧ b.length + 4 ≤ n.rd (F.PRT_CTRL_MAXLEN p)

/-- The node once the MAC of port `p` has counted a good frame (07 R255). -/
def Node.counted (n : Node) (p : Nat) (b : List Byte) : Node := (n.rxRow p b).2

/-- A topology frame of TYPE `ty` with a body of `len` bytes, which passes 08 R276, arrives (08 R274, R275). -/
structure TopoArrives (n : Node) (p : Nat) (b : List Byte) (ty len : Nat) : Prop where
  wire : WireIn n p b
  magic : byteAt b 14 = 0x54 ∧ byteAt b 15 = 0x39 ∧ byteAt b 16 = 1
  type : byteAt b 17 = ty
  length : leAt b 28 2 = len ∧ 30 + len ≤ b.length

/-- The frame has gone to queue 0 of the topology engine as it arrived, from DA on (08 R275); where the node also sends datagrams of standard mode, their own way through the fabric is not said here (08 R309). -/
def QueuedTopo (n t : Node) (p : Nat) (b : List Byte) : Prop :=
  n.tn9Peers = [] → t.engQueue 16 0 = n.engQueue 16 0 ++ [{ fid := n.fab.nextFid, stamp := n.epoch }] ∧ (t.frame n.fab.nextFid).ingress = p ∧
    (t.frame n.fab.nextFid).data = b

/-- Room for one more topology frame. -/
def Node.topoRoom (n : Node) (b : List Byte) : Prop := (n.engQueue 16 0).length < 64 ∧ cellsFor b.length ≤ n.freeCells

/-- Port `p` may start a frame of the node's own at once: its transmitter runs, no frame is in progress and none waits, no low-power idle and no gear change (07 R248, R263). -/
structure Node.txFree (n : Node) (p : Nat) : Prop where
  runs : n.canTx p = true
  idle : (n.port p).tx = none
  first : (n.port p).own = []
  wake : n.on (F.PRT_STATUS_LPI_TX p) = false
  shift : (n.port p).shift = none

/-- A topology frame of TYPE `ty` and this round has gone out of every native backbone port that could send it at once (08 R274, R276). -/
def Floods (n t : Node) (ty round : Nat) : Prop :=
  ∀ p, p < 4 → n.nativeUp p = true → n.txFree p → ∃ b, Output.frame p b ∈ t.out ∧ 60 ≤ b.length ∧
    beAt b 0 6 = 0x0180C200000E ∧ beAt b 12 2 = 0x88B5 ∧ beAt b 14 2 = 0x5439 ∧ byteAt b 16 = 1 ∧ byteAt b 17 = ty ∧
    leAt b 18 6 = n.ident % 2 ^ 48 ∧ leAt b 24 2 = round

/-- A round has started: the next round number, PHASE 1, the node's own REPORT held and flooded (08 R285, R312). -/
structure RoundStarted (n t : Node) : Prop where
  opened : t.inaug.openR = true
  round : t.inaug.round = (n.inaug.round + 1) % 65536
  phase : t.rd F.TOP_INAUG_PHASE = 1
  own : ∃ r ∈ t.inaug.reports, r.sender = n.ident % 2 ^ 48 ∧ topoRound r.body = t.inaug.round
  sent : Floods n t 2 t.inaug.round

/-- A round has failed with this cause: dropped, the cause shown, the failures in a row over one closed set counted; at the third HOLD_FAIL with a record, once for as long as the node holds (08 R291, R312). -/
structure RoundFailed (n t : Node) (cause : Nat) : Prop where
  closed : t.inaug.openR = false ∧ t.inaug.sched = none ∧ t.inaug.proposed = false ∧ t.inaug.confirmed = false
  waits : t.inaug.waiting = true
  cause : t.rd F.TOP_INAUG_CAUSE = cause
  again : sameSet n.reportSet n.inaug.lastSet = true → t.rd F.TOP_INAUG_FAILS = min 3 (n.rd F.TOP_INAUG_FAILS + 1)
  first : sameSet n.reportSet n.inaug.lastSet = false → t.rd F.TOP_INAUG_FAILS = 1
  hold : t.rd F.TOP_INAUG_FAILS = 3 → t.rd F.TOP_INAUG_PHASE = 6 ∧
    (n.rd F.TOP_INAUG_FAILS ≠ 3 → t.on F.TOP_INAUG_HOLD_FAIL = true ∧ (n.log.staged.length < 64 → t.hasRecord 10 3 n.epoch))
  other : t.rd F.TOP_INAUG_FAILS ≠ 3 → t.rd F.TOP_INAUG_PHASE = (if n.inGrace then 5 else 0)

/-! ### Engines -/

/-- Engine `e` is about to execute `i`: an activation runs, the words at its pc are `i`, no check of R123, R146 or R154 refuses it, its guard holds and `cost` cycles end below the budget (03 R100, R120). -/
structure Issues (n : Node) (e : Nat) (i : KIns) (cost : Nat) : Prop where
  phase : (n.eng e).phase = .running
  fetch : n.fetch e (n.eng e).act.pc = .inl i
  check : n.kCheck (n.eng e).act i = none
  guard : i.guard (n.eng e).act.preds = true
  budget : (n.eng e).act.cyc + cost < (n.eng e).act.budget

/-- An activation after an instruction of `cost` cycles that transfers no control: cycles counted, pc past the instruction or, at a loop's end, at the loop's body (04 R119, R154). -/
def Act.past (a : Act) (i : KIns) (cost : Nat) : Act :=
  { a with cyc := a.cyc + cost, pc := (loopEnd a.pc (a.pc + i.len) a.loops).1, loops := (loopEnd a.pc (a.pc + i.len) a.loops).2 }

/-- The command completes, leaves engine `e` with the activation `a'` and the rest of the node as it was. -/
def EngineDone (c : Instr) (s : State) (e : Nat) (a' : Act) : Prop :=
  Leaves c s (s.node.setEng e { s.node.eng e with act := a' })

/-- Predicates after a write of `c` through the predicate destination in the rd field: modes c, AND, OR, XOR; a write to p0 is discarded (04 R122). -/
def PredDest (old rd : Nat) (c : Bool) (new : Nat) : Prop :=
  ∀ q, bitOf new q =
    if q ≠ 0 ∧ q = rd % 8 then
      (match rd / 8 with
       | 0 => c
       | 1 => bitOf old q && c
       | 2 => bitOf old q || c
       | _ => bitOf old q != c)
    else bitOf old q

/-- Predicates after a write of `c` to predicate `p`; a write to p0 is discarded (04 R122). -/
def PredSet (old p : Nat) (c : Bool) (new : Nat) : Prop := ∀ q, bitOf new q = if q ≠ 0 ∧ q = p then c else bitOf old q

/-- The second operand of the ALU, CMP and load groups: g[rb], or the sign-extended imm32 in format X (04 R126, R128, R130). -/
def KIns.second (i : KIns) (a : Act) : W64 := if i.x then (BitVec.ofNat 32 i.imm).signExtend 64 else a.rg i.rb

/-- `k` bytes from `ad` lie in one range of the data address space (03 R81). -/
def OneRange (ad k : Nat) : Prop :=
  ad + k ≤ 0x40 ∨ (0x40 ≤ ad ∧ ad + k ≤ 0x2440) ∨ (0x10000 ≤ ad ∧ ad + k ≤ 0x10040) ∨ (0x10040 ≤ ad ∧ ad + k ≤ 0x12440) ∨
    (0x20000 ≤ ad ∧ ad + k ≤ 0x21000)

/-- `k` bytes from `ad` lie in the transmit header or in the transmit data (03 R81). -/
def InTransmit (ad k : Nat) : Prop := (0x10000 ≤ ad ∧ ad + k ≤ 0x10040) ∨ (0x10040 ≤ ad ∧ ad + k ≤ 0x12440)

/-- `k` bytes from `ad` lie in the mailbox. -/
def InMailbox (ad k : Nat) : Prop := 0x20000 ≤ ad ∧ ad + k ≤ 0x21000

/-- A store into the transmit area up to its byte `last`: it takes the cells that byte needs first; with none left the store is ignored and the area is short, as is every later store; otherwise the bytes are as `bytes` says (03 R84). -/
def StoresTx (c : Instr) (s : State) (e : Nat) (last : Nat) (post : Act → Act) (bytes : FMap Byte → Prop) : Prop :=
  let act := (s.node.eng e).act
  let need := if 0x40 ≤ last then (last - 0x40 + 32) / 256 + 1 - act.txCells.length else 0
  let got := Node.takeCells need s.node
  let leaves := fun a : Act => Leaves c s (got.2.setEng e { s.node.eng e with act := post a })
  (act.short = true → EngineDone c s e (post act)) ∧
  (act.short = false → got.1.length < need → leaves { act with txCells := act.txCells ++ got.1, short := true }) ∧
  (act.short = false → got.1.length = need → ∃ tx, bytes tx ∧ leaves { act with txCells := act.txCells ++ got.1, tx := tx })

/-- No frame at the head of a queue that a trigger of engine `e` waits for holds an uncorrectable error (02 R68). -/
def Node.headsGood (n : Node) (e slot : Nat) : Prop :=
  ∀ t tr c l, (t, tr) ∈ (n.eng e).trigs → tr.kind = 0 → n.engQueue slot tr.src = c :: l → (n.frame c.fid).bad = false

/-- Command `c` is the row of the operation `t` on engine `e`. -/
def KRow (e : Nat) (c : Instr) (t : KTag) : Prop :=
  (c = .kLd e ∧ t = .ld) ∨ (c = .kLdx e ∧ t = .ldx) ∨ (c = .kSt e ∧ t = .st) ∨ (c = .kStx e ∧ t = .stx) ∨
  (c = .kExtb e ∧ t = .extb) ∨ (c = .kInsb e ∧ t = .insb) ∨ (c = .kSat e ∧ t = .sat) ∨ (c = .kScale e ∧ t = .scale) ∨
  (c = .kRange e ∧ t = .range) ∨ (c = .kConv e ∧ t = .conv) ∨ (c = .kLds e ∧ t = .lds) ∨ (c = .kSts e ∧ t = .sts) ∨
  (c = .kBr e ∧ t = .br) ∨ (c = .kCall e ∧ t = .call) ∨ (c = .kLoop e ∧ t = .loop) ∨ ((∃ j, c = .kWait e j) ∧ t = .wait) ∨
  (c = .kSignal e ∧ t = .signal) ∨ (c = .kNop e ∧ t = .nop) ∨ (c = .kEnd e ∧ t = .endA) ∨ (c = .kRet e ∧ t = .ret) ∨
  (c = .kRdsp e ∧ t = .rdsp) ∨ (c = .kRdp e ∧ t = .rdp) ∨ (c = .kWrp e ∧ t = .wrp) ∨ (c = .kAdd e ∧ t = .add) ∨
  (c = .kSub e ∧ t = .sub) ∨ (c = .kAnd e ∧ t = .and') ∨ (c = .kOr e ∧ t = .or') ∨ (c = .kXor e ∧ t = .xor') ∨
  (c = .kAndn e ∧ t = .andn) ∨ (c = .kShl e ∧ t = .shl) ∨ (c = .kShr e ∧ t = .shr) ∨ (c = .kSar e ∧ t = .sar) ∨
  (c = .kRor e ∧ t = .ror) ∨ (c = .kMin e ∧ t = .min') ∨ (c = .kMax e ∧ t = .max') ∨ (c = .kMinu e ∧ t = .minu) ∨
  (c = .kMaxu e ∧ t = .maxu) ∨ (c = .kSext e ∧ t = .sext) ∨ (c = .kZext e ∧ t = .zext) ∨ (c = .kMul e ∧ t = .mul) ∨
  (c = .kMulhs e ∧ t = .mulhs) ∨ (c = .kMulhu e ∧ t = .mulhu) ∨ (c = .kDivs e ∧ t = .divs) ∨ (c = .kDivu e ∧ t = .divu) ∨
  (c = .kRems e ∧ t = .rems) ∨ (c = .kRemu e ∧ t = .remu) ∨ (c = .kBswap e ∧ t = .bswap) ∨ (c = .kPopc e ∧ t = .popc) ∨
  (c = .kClz e ∧ t = .clz) ∨ (c = .kAbs e ∧ t = .abs) ∨ (c = .kCmp e ∧ t = .cmp) ∨ (c = .kAddi e ∧ t = .addi) ∨
  (c = .kMovi e ∧ t = .movi) ∨ (c = .kMovk e ∧ t = .movk) ∨ (c = .kRxq e ∧ t = .rxq) ∨ (c = .kEmit e ∧ t = .emit) ∨
  (c = .kLaunch e ∧ t = .launch) ∨ (c = .kDrop e ∧ t = .drop) ∨ (c = .kTblLk e ∧ t = .tblLk) ∨
  (c = .kTblRd e ∧ t = .tblRd) ∨ (c = .kTblWr e ∧ t = .tblWr) ∨ (c = .kTblIns e ∧ t = .tblIns) ∨
  (c = .kTblDel e ∧ t = .tblDel) ∨ (c = .kTblLkrd e ∧ t = .tblLkrd) ∨ (c = .kTopoPstat e ∧ t = .topoPstat) ∨
  (c = .kTopoNbr e ∧ t = .topoNbr) ∨ (c = .kTopoCand e ∧ t = .topoCand) ∨ (c = .kTopoAgree e ∧ t = .topoAgree) ∨
  (c = .kTopoCommit e ∧ t = .topoCommit) ∨ (c = .kTopoCancel e ∧ t = .topoCancel) ∨ (c = .kTopoNewep e ∧ t = .topoNewep) ∨
  (c = .kTopoAccept e ∧ t = .topoAccept) ∨ (c = .kTopoTstat e ∧ t = .topoTstat) ∨ (c = .kTopoLevel e ∧ t = .topoLevel)

/-- The activation of engine `e` holds no input and no cells but those of its held outputs, and no owner write waits. -/
structure Unladen (n : Node) (e : Nat) : Prop where
  taken : (n.eng e).act.taken = []
  tx : (n.eng e).act.txCells = []
  back : (n.eng e).act.backCells = []
  owner : (n.eng e).ownerWr = []

/-- Context `c` takes a frame to port `q` from P4 to P19 and to nothing else, past no policer and no recovery: valid, DKIND 00b with that port alone, the port's link up, and room in its class queue (06 R199 to R206, R220). -/
structure PlainTo (n : Node) (f : Frame) (c q : Nat) : Prop where
  valid : n.ctxValid c = true
  direct : bitsOf (n.tabW 1 c 0) 59 58 = 0
  port : 4 ≤ q ∧ q < 20 ∧ ∀ p, p < 23 → bitOf (n.tabW 1 c 1) p = (p == q)
  ingress : f.ingress ≠ q
  size : f.oversize = false
  link : n.linkUp q = true
  serves : 2 ≤ n.level ∧ n.forwards = true
  room : n.admits q (bitsOf (n.tabW 1 c 0) 62 60) n.freeCells = true
  police : bitOf (n.tabW 1 c 0) 40 = false
  recovery : n.ract c < 2

/-- The node once context `c` has counted a frame of `k` bytes without FCS (06 R200). -/
def Node.ctxCounted (n : Node) (c k : Nat) : Node := (n.ctxAdd c 3 1).ctxAdd c 4 (k + 4)

/-- The copy of frame `fid` that context `c` of `m` sends, with its generated sequence number (06 R208, R213). -/
def Node.copyOf (m : Node) (fid c stamp : Nat) (launch : Option Nat) : Copy :=
  { fid := fid, stream := c, cls := bitsOf (m.tabW 1 c 0) 62 60, stamp := stamp,
    gseq := if m.ract c = 1 then some (m.tabW 1 c 2 % 65536) else none, launch := launch }

/-- Cells of a released or aborted activation that no frame keeps: transmit area, areas closed without a frame, frames closed but not released. -/
def Act.given (a : Act) : List Nat := a.txCells ++ a.backCells ++ heldCells a

/-- The cells `l` pass to returning, each in its bank in service, and the free pools stay (06 R221). -/
def CellsBack (m n : Node) (l : List Nat) : Prop :=
  ∀ b, m.rd (F.FAB_BANK_STATE b) = 1 → (n.bank b).returning = (m.bank b).returning + l.count b ∧ (n.bank b).free = (m.bank b).free

/-- The input `y` is consumed and the cells `l` with it: an Ethernet frame loses one hold, and with its last its cells; a field-bus entry is acknowledged to its channel (03 R94; 06 R221; 10 R352). -/
def InputBack (m n : Node) (y : Input) (l : List Nat) : Prop :=
  (y.src = 0 ∨ y.src = 3 → n.chans = m.chans ∧
    ((m.frame y.fid).refs ≤ 1 → n.frame y.fid = {} ∧ CellsBack m n ((m.frame y.fid).cells ++ l)) ∧
    (1 < (m.frame y.fid).refs → (n.frame y.fid).refs + 1 = (m.frame y.fid).refs ∧ (n.frame y.fid).cells = (m.frame y.fid).cells ∧
      (n.frame y.fid).data = (m.frame y.fid).data ∧ CellsBack m n l)) ∧
  (∀ z, y.src = 1 ∨ y.src = 2 → (m.chan y.chan).rx.find? (fun x => x.id == y.eid) = some z →
    (n.chan y.chan).rx = (m.chan y.chan).rx.filter (fun x => x.id != y.eid) ∧
    (n.chan y.chan).returning = (m.chan y.chan).returning + 1 ∧ (∀ c, c ≠ y.chan → n.chan c = m.chan c) ∧ CellsBack m n (z.cells ++ l))

/-- No word of engine `e`'s code holds an uncorrectable error. -/
def CodeSound (n : Node) (e : Nat) : Prop := ∀ a ∈ n.poison, ¬ (codeBase e ≤ a ∧ a < codeBase e + codeSize e)

/-- The command aborts the activation of Scarab engine `e` with an exception code: its outputs are discarded and their cells go back, its inputs are consumed and counted, its held owner writes take effect, the engine is idle, ABORTS counts, and EXC takes the record unless it holds one, with a fault record; memory is as it was, but for those owner writes and for code that is reloaded for an uncorrectable error (02 R68; 03 R94, R95, R99, R107, R109). -/
def AbortedBy (c : Instr) (s : State) (e code : Nat) : Prop :=
  let x := s.node.eng e
  let empty := { x.act with outs := [], taken := [], input := none, tx := [], txCells := [], backCells := [] }
  Yields c s (fun n =>
    n.eng e = { x with phase := .idle, act := empty, ownerWr := [] } ∧ (∀ k, k ≠ e → n.eng k = s.node.eng k) ∧
    (∀ a, (codeBase e ≤ a ∧ a < codeBase e + codeSize e → CodeSound s.node e) → (∀ w ∈ x.ownerWr, a / 8 ≠ w.1 / 8) →
      memRead n.mem a = memRead s.node.mem a) ∧
    (x.act.taken = [] → n.chans = s.node.chans ∧ n.fab.frames = s.node.fab.frames ∧ CellsBack s.node n x.act.given) ∧
    (∀ y, x.act.taken = [y] → InputBack s.node n y x.act.given) ∧
    n.fab.egress = s.node.fab.egress ∧ n.fab.launches = s.node.fab.launches ∧ n.fab.engq = s.node.fab.engq ∧ n.fab.hostq = s.node.fab.hostq ∧
    (s.node.rd (F.SC_DROPS_ABORT_DROP e) < 2 ^ 16 →
      n.rd (F.SC_DROPS_ABORT_DROP e) = min (s.node.rd (F.SC_DROPS_ABORT_DROP e) + x.act.taken.length) (2 ^ 16 - 1)) ∧
    n.rd (F.SC_ABORTS_COUNT e) = min (s.node.rd (F.SC_ABORTS_COUNT e) + 1) (2 ^ 32 - 1) ∧
    (s.node.on (F.SC_EXC_VALID e) = true → n.rd (F.SC_EXC_CODE e) = s.node.rd (F.SC_EXC_CODE e) ∧
      n.rd (F.SC_EXC_TRIGGER e) = s.node.rd (F.SC_EXC_TRIGGER e) ∧ n.rd (F.SC_EXC_PC e) = s.node.rd (F.SC_EXC_PC e)) ∧
    (s.node.on (F.SC_EXC_VALID e) = false → n.on (F.SC_EXC_VALID e) = true ∧ n.rd (F.SC_EXC_CODE e) = code ∧
      n.rd (F.SC_EXC_TRIGGER e) = x.act.trig % 64 ∧ n.rd (F.SC_EXC_PC e) = x.act.pc % 2 ^ 16 ∧
      (s.node.log.staged.length < 64 → n.hasRecord 15 1 (e + code * 256))))

end Sys2Proof.Machine
end

