-- ==== Sys2Proof/Certificates/Slice0/Obligations.lean ====
section
/-! DEFINITION. The statements for the provers. -/

section

open Sys2Proof Sys2Proof.Machine

/-- 04 R126: what every operation of the ALU group leaves in g[rd], and its cycles, a being g[ra] and b g[rb] or the sign-extended imm32: DIVS, DIVU, REMS and REMU for a divisor other than zero; BSWAP reverses the bytes of the low b[1:0] size and clears the bits above, POPC counts one bits, CLZ counts leading zero bits, 64 for zero. -/
def Obligations.AluResults : Prop :=
  (∀ (s : State) (e : Nat) (i : KIns), s.node.fits →
     let act := (s.node.eng e).act
     let a := act.rg i.ra
     let b := i.second act
     let k := b.toNat % 64
     let gives := fun (c : Instr) (cost : Nat) (v : W64) => Issues s.node e i cost → EngineDone c s e ((act.wg i.rd v).past i cost)
     (i.tag = .add → gives (.kAdd e) 1 (a + b)) ∧
     (i.tag = .sub → gives (.kSub e) 1 (a - b)) ∧
     (i.tag = .and' → gives (.kAnd e) 1 (a &&& b)) ∧
     (i.tag = .or' → gives (.kOr e) 1 (a ||| b)) ∧
     (i.tag = .xor' → gives (.kXor e) 1 (a ^^^ b)) ∧
     (i.tag = .andn → gives (.kAndn e) 1 (a &&& ~~~b)) ∧
     (i.tag = .shl → gives (.kShl e) 1 (BitVec.ofNat 64 (a.toNat * 2 ^ k))) ∧
     (i.tag = .shr → gives (.kShr e) 1 (BitVec.ofNat 64 (a.toNat / 2 ^ k))) ∧
     (i.tag = .sar → gives (.kSar e) 1 (BitVec.ofInt 64 (a.toInt / 2 ^ k))) ∧
     (i.tag = .ror → gives (.kRor e) 1 (a >>> k ||| a <<< (64 - k))) ∧
     (i.tag = .min' → gives (.kMin e) 1 (BitVec.ofInt 64 (min a.toInt b.toInt))) ∧
     (i.tag = .max' → gives (.kMax e) 1 (BitVec.ofInt 64 (max a.toInt b.toInt))) ∧
     (i.tag = .minu → gives (.kMinu e) 1 (BitVec.ofNat 64 (min a.toNat b.toNat))) ∧
     (i.tag = .maxu → gives (.kMaxu e) 1 (BitVec.ofNat 64 (max a.toNat b.toNat))) ∧
     (i.tag = .sext → gives (.kSext e) 1 (if k = 0 then a else (a.setWidth k).signExtend 64)) ∧
     (i.tag = .zext → gives (.kZext e) 1 (if k = 0 then a else (a.setWidth k).setWidth 64)) ∧
     (i.tag = .mul → gives (.kMul e) 3 (a * b)) ∧
     (i.tag = .mulhs → gives (.kMulhs e) 3 (BitVec.ofInt 64 (a.toInt * b.toInt / 2 ^ 64))) ∧
     (i.tag = .mulhu → gives (.kMulhu e) 3 (BitVec.ofNat 64 (a.toNat * b.toNat / 2 ^ 64))) ∧
     (i.tag = .divs → b ≠ 0 → gives (.kDivs e) 34 (BitVec.ofInt 64 (a.toInt.tdiv b.toInt))) ∧
     (i.tag = .divu → b ≠ 0 → gives (.kDivu e) 34 (BitVec.ofNat 64 (a.toNat / b.toNat))) ∧
     (i.tag = .rems → b ≠ 0 → gives (.kRems e) 34 (BitVec.ofInt 64 (a.toInt.tmod b.toInt))) ∧
     (i.tag = .remu → b ≠ 0 → gives (.kRemu e) 34 (BitVec.ofNat 64 (a.toNat % b.toNat))) ∧
     (i.tag = .abs → gives (.kAbs e) 1 (if a.toInt < 0 then 0 - a else a))) ∧
  (∀ (s : State) (e : Nat) (i : KIns), s.node.fits → Issues s.node e i 1 →
     let act := (s.node.eng e).act
     let a := act.rg i.ra
     let z := (i.second act).toNat % 4
     let gives := fun (c : Instr) (v : W64) => EngineDone c s e ((act.wg i.rd v).past i 1)
     (i.tag = .bswap → ∃ v, gives (.kBswap e) v ∧ (z = 0 → v = a) ∧
       (z ≠ 0 → v.toNat < 256 ^ 2 ^ z ∧
         ∀ j, j < 2 ^ z → v.toNat / 256 ^ j % 256 = a.toNat / 256 ^ (2 ^ z - 1 - j) % 256)) ∧
     (i.tag = .popc → gives (.kPopc e) (BitVec.ofNat 64 ((List.range 64).filter (fun j => a.getLsbD j)).length)) ∧
     (i.tag = .clz → ∃ k, k ≤ 64 ∧ gives (.kClz e) (BitVec.ofNat 64 k) ∧ (∀ j, j < k → a.getLsbD (63 - j) = false) ∧
       (k < 64 → a.getLsbD (63 - k) = true)))

/-- 04 R127: division never raises an exception, division by zero gives the results of the table, and −2^63 by −1 gives quotient −2^63 and remainder 0. -/
def Obligations.DivisionCorners : Prop :=
  ∀ (s : State) (e : Nat) (i : KIns), s.node.fits → Issues s.node e i 34 →
    let act := (s.node.eng e).act
    let a := act.rg i.ra
    let b := i.second act
    let gives := fun (c : Instr) (v : W64) => EngineDone c s e ((act.wg i.rd v).past i 34)
    (i.tag = .divs → ∃ v, gives (.kDivs e) v) ∧ (i.tag = .divu → ∃ v, gives (.kDivu e) v) ∧
    (i.tag = .rems → ∃ v, gives (.kRems e) v) ∧ (i.tag = .remu → ∃ v, gives (.kRemu e) v) ∧
    (b = 0 →
      (i.tag = .divu → gives (.kDivu e) 0xFFFFFFFFFFFFFFFF) ∧ (i.tag = .divs → gives (.kDivs e) (BitVec.ofInt 64 (-1))) ∧
      (i.tag = .remu → gives (.kRemu e) a) ∧ (i.tag = .rems → gives (.kRems e) a)) ∧
    (a = BitVec.ofInt 64 (-2 ^ 63) → b = BitVec.ofInt 64 (-1) →
      (i.tag = .divs → gives (.kDivs e) (BitVec.ofInt 64 (-2 ^ 63))) ∧ (i.tag = .rems → gives (.kRems e) 0))

/-- 04 R152: NOP, RDSP, RDP, WRP and RET with an address on the return stack, with their cycles; 03 R78: nt.s captures the node time that nt.f then shows. 04 R152, 03 R96 and R118: END within the budget leaves the activation to its release, every output still held; PEAK shows the longest completed activation. -/
def Obligations.SysResults : Prop :=
  (∀ (s : State) (e : Nat) (i : KIns), s.node.fits →
     let act := (s.node.eng e).act
     let now := s.node.clock.now
     let sec := 10 ^ 9 * 2 ^ 16
     let gives := fun (c : Instr) (a' : Act) => Issues s.node e i 1 → EngineDone c s e (a'.past i 1)
     (i.tag = .nop → gives (.kNop e) act) ∧
     (i.tag = .rdsp → i.ra = 0 → gives (.kRdsp e) (act.wg i.rd (BitVec.ofNat 64 act.pc))) ∧
     (i.tag = .rdsp → i.ra = 1 → gives (.kRdsp e) (act.wg i.rd (BitVec.ofNat 64 act.ep))) ∧
     (i.tag = .rdsp → i.ra = 2 → gives (.kRdsp e) ({ act with ntcap := now }.wg i.rd (BitVec.ofNat 64 (now / sec % 2 ^ 48)))) ∧
     (i.tag = .rdsp → i.ra = 3 → gives (.kRdsp e) (act.wg i.rd (BitVec.ofNat 64 (act.ntcap % sec)))) ∧
     (i.tag = .rdp → gives (.kRdp e) (act.wg i.rd (BitVec.ofNat 64 act.preds))) ∧
     (i.tag = .wrp → ∃ ps, (∀ q, bitOf ps q = (q == 0 || (decide (q < 8) && (act.rg i.ra).getLsbD q))) ∧
       gives (.kWrp e) { act with preds := ps }) ∧
     (∀ r t, i.tag = .ret → act.stack = r :: t → Issues s.node e i 3 →
       EngineDone (.kRet e) s e { act with stack := t, cyc := act.cyc + 3, pc := r })) ∧
  (∀ (s : State) (e : Nat) (i : KIns), s.node.fits → Issues s.node e i 0 → i.tag = .endA →
     let act := (s.node.eng e).act
     let peak := if s.node.rd (F.SC_PEAK_CYCLES e) < act.cyc + 1 then
         (s.node.wr (F.SC_PEAK_TRIGGER e) act.trig).wr (F.SC_PEAK_CYCLES e) (act.cyc + 1)
       else s.node
     Leaves (.kEnd e) s (peak.setEng e { s.node.eng e with phase := .releasing, act := { act with cyc := act.cyc + 1 } }))

/-- 04 R122, R128: CMP and CMPX write their condition through the predicate destination, and no general register. 04 R129: ADDI, MOVI and MOVK operate on rd alone, one cycle each; MOVK replaces one 16-bit lane. -/
def Obligations.CompareAndImmediate : Prop :=
  (∀ (s : State) (e : Nat) (i : KIns), s.node.fits → Issues s.node e i 1 → i.tag = .cmp →
     let act := (s.node.eng e).act
     let a := act.rg i.ra
     let b := i.second act
     ∃ (c : Bool) (ps : Nat), PredDest act.preds i.rd c ps ∧ EngineDone (.kCmp e) s e ({ act with preds := ps }.past i 1) ∧
       (i.fn = 0 → c = decide (a = b)) ∧ (i.fn = 1 → c = decide (a ≠ b)) ∧ (i.fn = 2 → c = decide (a.toInt < b.toInt)) ∧
       (i.fn = 3 → c = decide (a.toInt ≥ b.toInt)) ∧ (i.fn = 4 → c = decide (a.toNat < b.toNat)) ∧
       (i.fn = 5 → c = decide (a.toNat ≥ b.toNat)) ∧ (i.fn = 6 → c = decide (a &&& b ≠ 0)) ∧
       (i.fn = 7 → c = decide (a &&& b = 0))) ∧
  (∀ (s : State) (e : Nat) (i : KIns), s.node.fits → Issues s.node e i 1 →
     let act := (s.node.eng e).act
     let old := act.rg i.rd
     let lane := (if i.op = 0x0B then 2 else 0) + i.sbit
     let gives := fun (c : Instr) (v : W64) => EngineDone c s e ((act.wg i.rd v).past i 1)
     (i.tag = .addi → gives (.kAddi e) (old + (BitVec.ofNat 16 i.imm).signExtend 64)) ∧
     (i.tag = .movi → i.sbit = 0 → gives (.kMovi e) ((BitVec.ofNat 16 i.imm).signExtend 64)) ∧
     (i.tag = .movi → i.sbit = 1 → gives (.kMovi e) (BitVec.ofNat 64 i.imm)) ∧
     (i.tag = .movk → ∃ v, gives (.kMovk e) v ∧
       ∀ l, l < 4 → v.toNat / 65536 ^ l % 65536 = if l = lane then i.imm else old.toNat / 65536 ^ l % 65536))

/-- 03 R81 to R83, R88, R97: what a byte of the data address space reads as: the held input, zero past its end or without one; the transmit area; the mailbox, where its word holds no uncorrectable error, under the activation's own held stores. -/
def Obligations.DataSpaceBytes : Prop :=
  ∀ (n : Node) (e : Nat) (act : Act) (ad : Nat),
    (ad < 0x40 → act.input = none → actByte n e act ad = 0) ∧
    (∀ x, ad < 0x40 → act.input = some x → actByte n e act ad = (x.hdr.getD ad 0).toNat) ∧
    (0x40 ≤ ad → ad < 0x2440 → act.input = none → actByte n e act ad = 0) ∧
    (∀ x, 0x40 ≤ ad → ad < 0x2440 → act.input = some x →
      (ad - 0x40 < x.data.length → actByte n e act ad = (x.data.getD (ad - 0x40) 0).toNat) ∧
      (x.data.length ≤ ad - 0x40 → actByte n e act ad = 0)) ∧
    (0x10000 ≤ ad → ad < 0x12440 → actByte n e act ad = (FMap.get 0 act.tx (ad - 0x10000)).toNat) ∧
    (0x20000 ≤ ad → ad < 0x21000 → (∀ h ∈ act.outs, isMbox h = false) →
      (mboxBase e + (ad - 0x20000)) / 8 * 8 ∉ n.poison → actByte n e act ad = (memRead n.mem (mboxBase e + (ad - 0x20000))).toNat) ∧
    (∀ v, 0x20000 ≤ ad → ad < 0x21000 → v < 256 →
      actByte n e (act.hold (.mbox [(ad - 0x20000, 255, v)])) ad = v % 256)

/-- 04 R130: LD and LDX load 1, 2, 4 or 8 bytes in either byte order, zero- or sign-extended, in 3 cycles. 04 R130, 03 R84, R95: ST and STX store the low bytes of g[rd] in one cycle, into the transmit area at once, into the mailbox as a held output. -/
def Obligations.LoadStoreResults : Prop :=
  (∀ (s : State) (e : Nat) (i : KIns), s.node.fits → Issues s.node e i 3 →
     let act := (s.node.eng e).act
     let ad := (act.rg i.ra + i.second act).toNat
     let k := 2 ^ (i.fn % 4)
     OneRange ad k → ad % k = 0 →
       ∃ (u : Nat) (v : W64), u < 256 ^ k ∧
         (∀ j, j < k → u / 256 ^ (if bitOf i.fn 2 then k - 1 - j else j) % 256 = actByte s.node e act (ad + j) % 256) ∧
         v = (if bitOf i.fn 3 then (BitVec.ofNat (8 * k) u).signExtend 64 else BitVec.ofNat 64 u) ∧
         (i.tag = .ld → EngineDone (.kLd e) s e ((act.wg i.rd v).past i 3)) ∧
         (i.tag = .ldx → EngineDone (.kLdx e) s e ((act.wg i.rd v).past i 3))) ∧
  (∀ (s : State) (e : Nat) (i : KIns) (c : Instr), s.node.fits → Issues s.node e i 1 →
     ((i.tag = .st ∧ c = .kSt e) ∨ (i.tag = .stx ∧ c = .kStx e)) →
     let act := (s.node.eng e).act
     let ad := (act.rg i.ra + i.second act).toNat
     let k := 2 ^ (i.fn % 4)
     let byte := fun j => (act.rg i.rd).toNat / 256 ^ (if bitOf i.fn 2 then k - 1 - j else j) % 256
     ad % k = 0 →
       (InTransmit ad k → StoresTx c s e (ad + k - 1 - 0x10000) (fun a => a.past i 1) (fun tx =>
         ∀ x, FMap.get 0 tx x = if ad - 0x10000 ≤ x ∧ x < ad - 0x10000 + k then BitVec.ofNat 8 (byte (x - (ad - 0x10000)))
           else FMap.get 0 act.tx x)) ∧
       (InMailbox ad k → act.count isMbox < 64 →
         EngineDone c s e ((act.hold (.mbox ((List.range k).map (fun j => (ad + j - 0x20000, 255, byte j))))).past i 1)))

/-- 04 R131, R132: EXTB reads a field of 1 to 64 bits at a bit address in either bit order, zero- or sign-extended, with an optional post-increment, in 4 cycles. 04 R131, R132: INSB writes the low bits of g[rd] into a field of the transmit area at once, leaving every other bit, with an optional post-increment; into the mailbox it is a held output. -/
def Obligations.BitFieldResults : Prop :=
  (∀ (s : State) (e : Nat) (i : KIns), s.node.fits → Issues s.node e i 4 → i.tag = .extb →
     let act := (s.node.eng e).act
     let ba := (act.rg i.ra).toNat
     let w := i.w
     ba < 2 ^ 35 → OneRange (ba / 8) ((ba + w - 1) / 8 - ba / 8 + 1) →
       ∃ v : W64,
         (∀ j, j < w → v.getLsbD (if i.o then j else w - 1 - j) =
           bitOf (actByte s.node e act ((ba + j) / 8)) (if i.o then (ba + j) % 8 else 7 - (ba + j) % 8)) ∧
         (∀ j, w ≤ j → j < 64 → v.getLsbD j = (i.s && v.getLsbD (w - 1))) ∧
         EngineDone (.kExtb e) s e
           ((if i.p then (act.wg i.rd v).wg i.ra ((act.wg i.rd v).rg i.ra + BitVec.ofNat 64 w) else act.wg i.rd v).past i 4)) ∧
  (∀ (s : State) (e : Nat) (i : KIns), s.node.fits → Issues s.node e i 4 → i.tag = .insb →
     let act := (s.node.eng e).act
     let ba := (act.rg i.ra).toNat
     let w := i.w
     let k := (ba + w - 1) / 8 - ba / 8 + 1
     let place := fun x => if i.o then x % 8 else 7 - x % 8
     let bit := fun x => (act.rg i.rd).getLsbD (if i.o then x - ba else w - 1 - (x - ba))
     let post := fun a : Act => (if i.p then a.wg i.ra (act.rg i.ra + BitVec.ofNat 64 w) else a).past i 4
     ba < 2 ^ 35 →
       (InTransmit (ba / 8) k → StoresTx (.kInsb e) s e (ba / 8 + k - 1 - 0x10000) post (fun tx =>
         ∀ x, bitOf (FMap.get 0 tx (x / 8 - 0x10000)).toNat (place x) =
           if ba ≤ x ∧ x < ba + w then bit x else bitOf (FMap.get 0 act.tx (x / 8 - 0x10000)).toNat (place x))) ∧
       (InMailbox (ba / 8) k → act.count isMbox < 64 → ∃ parts,
         (∀ p ∈ parts, ba / 8 ≤ p.1 + 0x20000 ∧ p.1 + 0x20000 < ba / 8 + k) ∧
         (∀ x, ba ≤ x → x < ba + w → bitOf (actByte s.node e (act.hold (.mbox parts)) (x / 8)) (place x) = bit x) ∧
         EngineDone (.kInsb e) s e (post (act.hold (.mbox parts)))))

/-- 04 R133 to R136: SAT clamps to W bits and reports, SCALE multiplies, rounds ties away from zero, adds and saturates, RANGE tests two limits; SAT and RNG of the store-status latch follow. 04 R137: CONV takes 3 cycles and writes no predicate; an integer converts to the nearest binary value, ties to even; a finite binary value to the nearest integer, ties away from zero, limited to 64 bits with SAT set where that changes it; a NaN gives 0 and sets SAT, an infinity saturates. -/
def Obligations.FixedPointResults : Prop :=
  (∀ (s : State) (e : Nat) (i : KIns), s.node.fits →
     let act := (s.node.eng e).act
     let a := act.rg i.ra
     let lo : Int := if i.s then -2 ^ (i.w - 1) else 0
     let hi : Int := if i.s then 2 ^ (i.w - 1) - 1 else if i.w = 64 then 2 ^ 63 - 1 else 2 ^ i.w - 1
     let v := max lo (min a.toInt hi)
     (i.tag = .sat → Issues s.node e i 1 → ∃ ps, PredSet act.preds i.k (decide (v ≠ a.toInt)) ps ∧
       EngineDone (.kSat e) s e
         ({ act.wg i.rd (BitVec.ofInt 64 v) with preds := ps, sat := act.sat || decide (v ≠ a.toInt) }.past i 1)) ∧
     (i.tag = .scale → Issues s.node e i 2 →
       let x := (if bitOf i.fn 0 then (a.toNat : Int) else a.toInt) * (BitVec.ofNat 32 i.imm).toInt
       let d : Int := 2 ^ (i.fn / 2)
       ∃ q : Int, 2 * ((q * d - x).natAbs : Int) ≤ d ∧ (2 * ((q * d - x).natAbs : Int) = d → x.natAbs ≤ (q * d).natAbs) ∧
         let r := q + (act.rg i.rb).toInt
         let out := max (-2 ^ 63) (min r (2 ^ 63 - 1))
         EngineDone (.kScale e) s e
           ({ act.wg i.rd (BitVec.ofInt 64 out) with sat := act.sat || decide (out ≠ r) }.past i 2)) ∧
     (i.tag = .range → Issues s.node e i 1 →
       let l := act.rg i.rb
       let h := act.rg (i.fn / 4)
       let lt := fun x y : W64 => if bitOf i.fn 1 then x.toNat < y.toNat else x.toInt < y.toInt
       ∃ (ps r : Nat), PredDest act.preds i.rd (r == 0) ps ∧
         (lt a l → r = 1) ∧ (¬ lt a l → lt h a → r = 2) ∧ (¬ lt a l → ¬ lt h a → r = 0) ∧
         EngineDone (.kRange e) s e ({ act with preds := ps, rng := r }.past i 1))) ∧
  (∀ (s : State) (e : Nat) (i : KIns), s.node.fits → Issues s.node e i 3 → i.tag = .conv → i.rb < 32 →
     let act := (s.node.eng e).act
     let a := act.rg i.ra
     let x := if i.fn = 1 then a.toNat % 2 ^ 32 else a.toNat
     let mb := if i.fn < 2 then 23 else 52
     let eb := if i.fn < 2 then 8 else 11
     let ex := x / 2 ^ mb % 2 ^ eb
     let fr := x % 2 ^ mb
     ∃ (v : W64) (sat : Bool),
       EngineDone (.kConv e) s e ({ act.wg i.rd v with sat := act.sat || sat }.past i 3) ∧
       (a = 0 → v = 0 ∧ sat = false) ∧
       (i.fn = 0 ∨ i.fn = 2 → sat = false) ∧
       (i.fn = 0 → v.toNat < 2 ^ 32) ∧
       (i.fn = 1 ∨ i.fn = 3 → ex = 2 ^ eb - 1 → fr ≠ 0 → v = 0 ∧ sat = true) ∧
       (i.fn = 1 ∨ i.fn = 3 → ex = 2 ^ eb - 1 → fr = 0 →
         v = BitVec.ofInt 64 (if x / 2 ^ (mb + eb) % 2 = 1 then -2 ^ 63 else 2 ^ 63 - 1) ∧ sat = true) ∧
       (∀ t, i.fn = 0 ∨ i.fn = 2 → 2 ^ t ≤ a.toInt.natAbs → a.toInt.natAbs < 2 ^ (t + 1) →
         ∃ q : Nat,
           let off := (((q * 2 ^ t : Nat) : Int) - (a.toInt.natAbs * 2 ^ mb : Nat)).natAbs
           2 * off ≤ 2 ^ t ∧ (2 * off = 2 ^ t → q % 2 = 0) ∧
           v.toNat = (if a.toInt < 0 then 2 ^ (mb + eb) else 0) + (t + (2 ^ (eb - 1) - 1) - i.rb - 1) * 2 ^ mb + q) ∧
       (i.fn = 1 ∨ i.fn = 3 → ex ≠ 2 ^ eb - 1 →
         let m : Nat := if ex = 0 then fr else fr + 2 ^ mb
         let num : Int := if x / 2 ^ (mb + eb) % 2 = 1 then -(m : Int) else m
         let sh : Int := (max ex 1 + i.rb : Nat) - ((2 ^ (eb - 1) - 1 + mb : Nat) : Int)
         let d : Int := 2 ^ (-sh).toNat
         ∃ r : Int,
           2 * (r * d - num * 2 ^ sh.toNat).natAbs ≤ d.natAbs ∧
           (2 * (r * d - num * 2 ^ sh.toNat).natAbs = d.natAbs → num.natAbs ≤ (r * d).natAbs) ∧
           v = BitVec.ofInt 64 (max (-2 ^ 63) (min r (2 ^ 63 - 1))) ∧
           sat = decide (max (-2 ^ 63) (min r (2 ^ 63 - 1)) ≠ r)))

/-- 04 R138, R139; 03 R85, R86, R97: LDS gives value and status in the order rd, rb, ra and tests freshness; STS holds its store with the latch and resets it. -/
def Obligations.SignalSlotResults : Prop :=
  ∀ (s : State) (e : Nat) (i : KIns), s.node.fits →
    let act := (s.node.eng e).act
    let slot := (act.rg i.ra).toNat
    let next := fun a : Act => if bitOf i.fn 2 then a.wg i.ra (BitVec.ofNat 64 (slot + 1)) else a
    slot < 16128 →
      (i.tag = .lds → Issues s.node e i 3 → (∀ h ∈ act.outs, isSts h = false) →
        let word := rd64 s.node.mem (sigBase e + 16 * slot)
        let st := rd64 s.node.mem (sigBase e + 16 * slot + 8)
        let age := (act.fresh + 2 ^ 48 - st % 2 ^ 48) % 2 ^ 48
        let fresh := bitOf st 63 && !bitOf st 62 && (i.imm == 0 || decide (age ≤ i.imm))
        ∃ ps, PredSet act.preds (bitsOf i.fn 6 4) fresh ps ∧
          EngineDone (.kLds e) s e ({ next ((act.wg i.rd (BitVec.ofNat 64 (if bitOf st 62 then 0 else word))).wg i.rb
            (BitVec.ofNat 64 st)) with preds := ps }.past i 3)) ∧
      (∀ before after val v rng sat, i.tag = .lds → Issues s.node e i 3 →
        act.outs = before ++ .sts slot val v rng sat :: after → (∀ h ∈ after, isSts h = false) →
        let st := (if v then 2 ^ 63 else 0) + rng * 2 ^ 60 + (if sat then 2 ^ 59 else 0) + act.fresh % 2 ^ 48
        ∃ ps, EngineDone (.kLds e) s e ({ next ((act.wg i.rd (if bitOf st 62 then 0 else val)).wg i.rb (BitVec.ofNat 64 st))
          with preds := ps }.past i 3)) ∧
      (i.tag = .sts → Issues s.node e i 1 → act.count isSts < 128 →
        let v := bitOf act.preds (bitsOf i.fn 6 4) != bitOf i.fn 3
        EngineDone (.kSts e) s e
          ((next { act with outs := act.outs ++ [.sts slot (act.rg i.rb) v act.rng act.sat], rng := 3, sat := false }).past i 1))

/-- 03 R103 to R106; 04 R150, R151, R153, R154: BR taken, CALL, LOOP, WAIT and SIGNAL. A taken branch closes the loops it passes, CALL pushes pc + 4, LOOP opens a loop at pc + 8, WAIT clears the flag it finds in cycle j of 2 to T + 1 and ends with cycle j + 1, or ends with cycle T + 2; SIGNAL is held. 03 R76, 04 R120, R150, R153: an instruction whose guard is false has no effect but its full cycle count; BR takes 1 cycle, WAIT its timeout and 2. -/
def Obligations.ControlResults : Prop :=
  (∀ (s : State) (e : Nat) (i : KIns), s.node.fits →
     let x := s.node.eng e
     let act := x.act
     let target : Int := act.pc + 4 * i.off
     let f := i.imm / 2 ^ 16 % 16
     let t := i.imm % 2 ^ 16
     (i.tag = .br → Issues s.node e i 3 → (act.pc : Int) ≤ target →
       EngineDone (.kBr e) s e { act with cyc := act.cyc + 3, pc := target.toNat % 2 ^ 32, loops :=
         match act.loops with
         | [] => []
         | l :: r => if (l.last : Int) < target then (l :: r).filter (fun y => decide (target ≤ (y.last : Int))) else l :: r }) ∧
     (i.tag = .call → Issues s.node e i 3 → act.stack.length < 8 →
       EngineDone (.kCall e) s e
         { act with cyc := act.cyc + 3, pc := (target % 2 ^ 32).toNat, stack := (act.pc + 4) :: act.stack }) ∧
     (i.tag = .loop → Issues s.node e i 1 → act.loops.length < 4 →
       EngineDone (.kLoop e) s e
         ({ act with loops := { body := act.pc + 8, last := act.pc + 4 * (i.imm / 2 ^ 16 % 2 ^ 16), left := t } :: act.loops }.past i 1)) ∧
     (∀ j, i.tag = .wait → bitOf x.flags f = true → 2 ≤ j → j ≤ t + 1 → Issues s.node e i (j + 1) →
       ∃ ps fl, PredDest act.preds i.rd true ps ∧ (∀ q, bitOf fl q = (bitOf x.flags q && q != f)) ∧
         Leaves (.kWait e j) s (s.node.setEng e { x with flags := fl, act := { act with preds := ps }.past i (j + 1) })) ∧
     (∀ j, i.tag = .wait → bitOf x.flags f = false → Issues s.node e i (t + 2) →
       ∃ ps, PredDest act.preds i.rd false ps ∧ EngineDone (.kWait e j) s e ({ act with preds := ps }.past i (t + 2))) ∧
     (i.tag = .signal → Issues s.node e i 1 → act.count isSignal < 8 →
       EngineDone (.kSignal e) s e ((act.hold (.signal (i.imm / 16 % 32) (i.imm % 16))).past i 1))) ∧
  (∀ (s : State) (e : Nat) (i : KIns) (c : Instr), s.node.fits → KRow e c i.tag →
     let act := (s.node.eng e).act
     let cost := if i.tag = .br then 1 else if i.tag = .wait then i.imm % 2 ^ 16 + 2 else kCost i.tag (s.node.kEntry i)
     (s.node.eng e).phase = .running → s.node.fetch e act.pc = .inl i → s.node.kCheck act i = none →
       i.guard act.preds = false → act.cyc + cost < act.budget → EngineDone c s e (act.past i cost))

/-- 10 R348: an RXQ of kind 1 that names a channel bound to another slot, or to none, sets c false and takes nothing. 04 R142: RXQ takes the head of the engine's receive queue or the oldest waiting entry of a channel bound to the slot, and holds it; an empty source leaves the held input. -/
def Obligations.RxqResults : Prop :=
  ∀ (s : State) (e : Nat) (i : KIns), s.node.fits → Issues s.node e i 4 → i.tag = .rxq →
    let x := s.node.eng e
    let act := x.act
    let q := i.fn % 16
    let slot := (s.node.slotIdx e).getD 31
    let take := fun (p : Input) (ps : Nat) =>
      ({ act with preds := ps, input := some p, taken := act.taken ++ [p], nrx := act.nrx + 1 } : Act).past i 4
    (i.fn / 16 = 0 → s.node.engQueue slot q = [] →
      ∃ ps, PredDest act.preds i.rd false ps ∧ EngineDone (.kRxq e) s e ({ act with preds := ps }.past i 4)) ∧
    (i.fn / 16 = 1 → FMap.get 0 s.node.chanSlot q ≠ slot + 1 →
      ∃ ps, PredDest act.preds i.rd false ps ∧ EngineDone (.kRxq e) s e ({ act with preds := ps }.past i 4)) ∧
    (i.fn / 16 = 1 → s.node.chanBound q slot = true → (s.node.chan q).waiting = [] →
      ∃ ps, PredDest act.preds i.rd false ps ∧ EngineDone (.kRxq e) s e ({ act with preds := ps }.past i 4)) ∧
    (∀ c r, i.fn / 16 = 0 → act.nrx < 8 → s.node.engQueue slot q = c :: r → (s.node.frame c.fid).bad = false →
      let f := s.node.frame c.fid
      ∃ ps, PredDest act.preds i.rd true ps ∧
        Leaves (.kRxq e) s ((s.node.setEngQueue slot q r).setEng e { x with
          act := take { src := if f.topo then 3 else 0, fid := c.fid, hdr := ethHeader f c q act.ep, data := f.data } ps })) ∧
    (∀ y r, i.fn / 16 = 1 → act.nrx < 8 → s.node.chanBound q slot = true → (s.node.chan q).waiting = y :: r →
      let ch := s.node.chan q
      ∃ ps, PredDest act.preds i.rd true ps ∧
        Leaves (.kRxq e) s ((s.node.setChan q
          { ch with rx := ch.rx.map (fun z => if z.id = y.id then { z with held := true } else z) }).setEng e { x with
            act := take { src := if q < 8 then 1 else 2, chan := q, eid := y.id, hdr := fbHeader q y act.ep, data := y.data } ps }))

/-- 03 R84; 04 R140, R141, R143: EMIT closes the transmit area as one held frame where the header is valid and LENGTH's cells can be taken; an invalid header or a short area closes nothing; in each case the area reads as zero afterwards and holds no cells. EMIT with R = 1 forwards the held Ethernet input; a held topology frame, SOURCE 3, counts as none (the model's choice, log entry 125). 04 R140, R141, R144, R145: LAUNCH closes a valid Ethernet frame for node time g[ra] s and g[rb] ns, and closes nothing for a time out of range or without LENGTH's cells; DROP discards the area or the held input, which no later DROP discards again. -/
def Obligations.EmitLaunchDrop : Prop :=
  (∀ (s : State) (e : Nat) (i : KIns), s.node.fits → Issues s.node e i 2 → i.tag = .emit →
     let x := s.node.eng e
     let act := x.act
     let h := (List.range 64).map (fun j => FMap.get 0 act.tx j)
     let len := leAt h 0 2
     let cells := (len + 32 + 255) / 256
     let got := Node.takeCells (cells - act.txCells.length) s.node
     let all := act.txCells ++ got.1
     let empty := { act with tx := [], txCells := [], short := false, txBad := false }
     let stream := (act.rg i.ra).toNat % 4096
     (i.fn % 2 = 0 → act.short = true → ∃ ps, PredDest act.preds i.rd false ps ∧ EngineDone (.kEmit e) s e
       ({ empty with preds := ps, backCells := act.backCells ++ act.txCells, nobuf := act.nobuf + 1 }.past i 2)) ∧
     (i.fn % 2 = 0 → act.short = false → s.node.headerOk h = false → ∃ ps, PredDest act.preds i.rd false ps ∧
       EngineDone (.kEmit e) s e ({ empty with preds := ps, backCells := act.backCells ++ act.txCells }.past i 2)) ∧
     (i.fn % 2 = 0 → act.short = false → s.node.headerOk h = true → act.count isFrame < 8 → cells ≤ all.length →
       ∃ ps, PredDest act.preds i.rd true ps ∧
         Leaves (.kEmit e) s (got.2.setEng e { x with
           act := { empty with preds := ps, backCells := act.backCells ++ all.drop cells, outs := act.outs ++ [Held.frame
             { hdr := h, data := (List.range len).map (fun j => FMap.get 0 act.tx (0x40 + j)), cells := all.take cells,
               launch := none, bad := act.txBad, canEpoch := if byteAt h 2 = 1 then (s.node.chan (leAt h 4 2)).enGen else 0 }] }.past i 2 })) ∧
     (i.fn % 2 = 0 → act.short = false → s.node.headerOk h = true → act.count isFrame < 8 → all.length < cells →
       ∃ ps, PredDest act.preds i.rd false ps ∧
         Leaves (.kEmit e) s (got.2.setEng e { x with
           act := { empty with preds := ps, backCells := act.backCells ++ all, nobuf := act.nobuf + 1 }.past i 2 })) ∧
     (∀ y, i.fn % 2 = 1 → act.input = some y → y.src = 0 → y.dropped = false → s.node.ctxExists stream = true →
       act.count isFrame < 8 → ∃ ps, PredDest act.preds i.rd true ps ∧
         EngineDone (.kEmit e) s e ({ act with preds := ps, outs := act.outs ++ [Held.forward y.fid stream] }.past i 2)) ∧
     (i.fn % 2 = 1 → (∀ y, act.input = some y → y.src ≠ 0 ∨ y.dropped = true) ∨ s.node.ctxExists stream = false →
       ∃ ps, PredDest act.preds i.rd false ps ∧ EngineDone (.kEmit e) s e ({ act with preds := ps }.past i 2))) ∧
  (∀ (s : State) (e : Nat) (i : KIns), s.node.fits →
     let x := s.node.eng e
     let act := x.act
     let h := (List.range 64).map (fun j => FMap.get 0 act.tx j)
     let len := leAt h 0 2
     let cells := (len + 32 + 255) / 256
     let got := Node.takeCells (cells - act.txCells.length) s.node
     let all := act.txCells ++ got.1
     let empty := { act with tx := [], txCells := [], short := false, txBad := false }
     let sec := (act.rg i.ra).toNat
     let ns := (act.rg i.rb).toNat
     (i.tag = .launch → Issues s.node e i 2 → sec < 2 ^ 48 → ns < 10 ^ 9 → act.short = false → s.node.headerOk h = true →
       byteAt h 2 = 0 → act.count isFrame < 8 → cells ≤ all.length → ∃ ps, PredDest act.preds i.rd true ps ∧
         Leaves (.kLaunch e) s (got.2.setEng e { x with
           act := { empty with preds := ps, backCells := act.backCells ++ all.drop cells, outs := act.outs ++ [Held.frame
             { hdr := h, data := (List.range len).map (fun j => FMap.get 0 act.tx (0x40 + j)), cells := all.take cells,
               launch := some ((sec * 10 ^ 9 + ns) * 2 ^ 16), bad := act.txBad, canEpoch := 0 }] }.past i 2 })) ∧
     (i.tag = .launch → Issues s.node e i 2 → sec < 2 ^ 48 → ns < 10 ^ 9 → act.short = false → s.node.headerOk h = true →
       byteAt h 2 = 0 → act.count isFrame < 8 → all.length < cells → ∃ ps, PredDest act.preds i.rd false ps ∧
         Leaves (.kLaunch e) s (got.2.setEng e { x with
           act := { empty with preds := ps, backCells := act.backCells ++ all, nobuf := act.nobuf + 1 }.past i 2 })) ∧
     (i.tag = .launch → Issues s.node e i 2 → act.short = false →
       2 ^ 48 ≤ sec ∨ 10 ^ 9 ≤ ns ∨ s.node.headerOk h = false ∨ byteAt h 2 ≠ 0 → ∃ ps, PredDest act.preds i.rd false ps ∧
         EngineDone (.kLaunch e) s e ({ empty with preds := ps, backCells := act.backCells ++ act.txCells }.past i 2)) ∧
     (i.tag = .launch → Issues s.node e i 2 → act.short = true → ∃ ps, PredDest act.preds i.rd false ps ∧
         EngineDone (.kLaunch e) s e
           ({ empty with preds := ps, backCells := act.backCells ++ act.txCells, nobuf := act.nobuf + 1 }.past i 2)) ∧
     (i.tag = .drop → Issues s.node e i 1 → act.count isDrop < 8 →
       (i.fn % 2 = 0 → EngineDone (.kDrop e) s e
         ({ empty with backCells := act.backCells ++ act.txCells, outs := act.outs ++ [Held.dropTx] }.past i 1)) ∧
       (∀ y, i.fn % 2 = 1 → act.input = some y → y.dropped = false → EngineDone (.kDrop e) s e
         ({ act with input := some { y with dropped := true }, outs := act.outs ++ [Held.dropHeld y.src (leAt y.hdr 4 2)] }.past i 1)) ∧
       (i.fn % 2 = 1 → (∀ y, act.input = some y → y.dropped = true) →
         EngineDone (.kDrop e) s e ({ act with outs := act.outs ++ [Held.dropHeld 255 0] }.past i 1) ∧
         s.node.releaseDrop 255 0 = s.node)))

/-- 05 R166; 04 R146, R147: a lookup answers the lowest-indexed entry of the key's hash group that is used, not poisoned and holds the key's low bits; an insertion takes the lowest-indexed unused entry of the group that no earlier held insertion reserves. -/
def Obligations.LookupFindsLowest : Prop :=
  ∀ (n : Node) (d : TabDef) (sh : Bool) (key k : Nat) (held : List Nat), 8 ≤ d.entries →
    let hit := fun j => n.entryOk d sh j = true ∧ n.word (d.dataW sh j - 1) = key % 2 ^ d.kw
    let free := fun j => n.used d sh j = false ∧ j ∉ held
    (n.lookup d sh key = some k ↔ k / 8 = d.group key ∧ hit k ∧ ∀ j, j / 8 = d.group key → j < k → ¬ hit j) ∧
    (n.lookup d sh key = none ↔ ∀ j, j / 8 = d.group key → ¬ hit j) ∧
    (n.freeSlot d sh key held = some k ↔ k / 8 = d.group key ∧ free k ∧ ∀ j, j / 8 = d.group key → j < k → ¬ free j) ∧
    (n.freeSlot d sh key held = none ↔ ∀ j, j / 8 = d.group key → ¬ free j)

/-- 04 R146, R147; 03 R98, R111: TBL.LK, TBL.RD and TBL.LKRD read the active bank, a miss leaves zeros and c false, and in a train table an activation of another epoch misses, in the search of TBL.INS and TBL.DEL as well (log entry 13); TBL.INS of a key present changes nothing but c; TBL.WR, TBL.INS and TBL.DEL hold their effect on the write view. -/
def Obligations.TableResults : Prop :=
  ∀ (s : State) (e : Nat) (i : KIns) (d : TabDef), s.node.fits → s.node.tab (i.imm % 256) = some d →
    let act := (s.node.eng e).act
    let key := (act.rg i.ra).toNat
    let stale := d.dbl = true ∧ act.ep ≠ s.node.epoch
    let find := s.node.lookup d false key
    let write := s.node.lookup d d.dbl key
    let zeros := List.replicate d.n 0
    let ends := fun (c : Instr) (cost : Nat) (n : Node) (a : Act) (p : Bool) => Issues s.node e i cost →
      ∃ ps, PredSet act.preds (i.fn / 16) p ps ∧
        Leaves c s (n.setEng e { s.node.eng e with act := { a with preds := ps }.past i cost })
    (i.tag = .tblLk → d.hashed = true →
      (stale ∨ find = none → ends (.kTblLk e) 12 s.node (act.wg i.rd 0) false) ∧
      (∀ k, ¬ stale → find = some k → ends (.kTblLk e) 12 s.node (act.wg i.rd (BitVec.ofNat 64 k)) true)) ∧
    (i.tag = .tblRd → key < d.entries →
      (stale ∨ s.node.entryOk d false key = false → ends (.kTblRd e) (5 + d.n) s.node (act.wgs i.rd zeros) false) ∧
      (¬ stale → s.node.entryOk d false key = true → ends (.kTblRd e) (5 + d.n) { s.node with freeN := s.node.freeN + 1 }
        (act.wgs i.rd (s.node.entryData d false key)) true)) ∧
    (i.tag = .tblLkrd → d.hashed = true →
      (stale ∨ find = none → ends (.kTblLkrd e) (12 + d.n) s.node (act.wgs i.rd zeros) false) ∧
      (∀ k, ¬ stale → find = some k →
        ends (.kTblLkrd e) (12 + d.n) s.node (act.wgs i.rd (s.node.entryData d false k)) true)) ∧
    (i.tag = .tblWr → key < d.entries → act.count isTbl < 16 →
      ends (.kTblWr e) 2 s.node (act.hold (.tblWr d.num key (act.rgs i.rb d.n))) true) ∧
    (i.tag = .tblIns → d.hashed = true →
      (¬ stale → write ≠ none → ends (.kTblIns e) 14 s.node act false) ∧
      (stale ∨ write = none → s.node.freeSlot d d.dbl key (reserved act d.num) = none →
        ends (.kTblIns e) 14 s.node (act.wg i.rd 0) false) ∧
      (∀ k, stale ∨ write = none → s.node.freeSlot d d.dbl key (reserved act d.num) = some k → act.count isTbl < 16 →
        ends (.kTblIns e) 14 s.node
          ((act.hold (.tblIns d.num k key (act.rgs i.rb d.n))).wg i.rd (BitVec.ofNat 64 k)) true)) ∧
    (i.tag = .tblDel → d.hashed = true →
      (stale ∨ write = none → ends (.kTblDel e) 12 s.node (act.wg i.rd 0) false) ∧
      (∀ k, ¬ stale → write = some k → act.count isTbl < 16 →
        ends (.kTblDel e) 12 s.node ((act.hold (.tblDel d.num k)).wg i.rd (BitVec.ofNat 64 k)) true))

/-- 04 R148, R149; 08 R281; 09 R335: the TOPO group: status words and level at once, the outputs held, at most 8 of them. -/
def Obligations.TopoResults : Prop :=
  ∀ (s : State) (e : Nat) (i : KIns), s.node.fits →
    let act := (s.node.eng e).act
    let p := (act.rg i.ra).toNat
    let t := s.node.topPort p
    let room := act.count isTopo < 8
    let held := fun (c : Instr) (cost : Nat) (h : Held) =>
      Issues s.node e i cost → room → EngineDone c s e ({ act with outs := act.outs ++ [h] }.past i cost)
    (i.tag = .topoPstat → Issues s.node e i 2 → p < 4 →
      EngineDone (.kTopoPstat e) s e ((act.wg i.rd (BitVec.ofNat 64 (s.node.portStat p))).past i 2)) ∧
    (i.tag = .topoNbr → Issues s.node e i 2 → p < 4 → ∃ ps, PredSet act.preds (i.fn / 16) t.valid ps ∧
      (t.valid = true → EngineDone (.kTopoNbr e) s e ({ act.wg i.rd (BitVec.ofNat 64 (leAt t.hello 4 6)) with preds := ps }.past i 2)) ∧
      (t.valid = false → ∃ v, Leaves (.kTopoNbr e) s ({ s.node with freeN := s.node.freeN + 1 }.setEng e
        { s.node.eng e with act := { act.wg i.rd v with preds := ps }.past i 2 }))) ∧
    (i.tag = .topoTstat → Issues s.node e i 2 →
      EngineDone (.kTopoTstat e) s e ((act.wg i.rd (BitVec.ofNat 64 s.node.timeStatus)).past i 2)) ∧
    (i.tag = .topoLevel → Issues s.node e i 2 →
      EngineDone (.kTopoLevel e) s e ((act.wg i.rd (BitVec.ofNat 64 (s.node.level + 16 * modeCode s.node.mode))).past i 2)) ∧
    (i.tag = .topoCand → p < 63 → held (.kTopoCand e) 2 (.topoCand p (act.rgs i.rb 4))) ∧
    (i.tag = .topoAgree → held (.kTopoAgree e) 2 (.topoAgree (i.imm % 2) (i.imm / 2 ^ 16 % 2 ^ 16))) ∧
    (i.tag = .topoCommit → held (.kTopoCommit e) 2
      (.topoCommit (i.imm % 2 ^ 16) (p % 2 ^ 48) ((act.rg i.rb).toNat % 2 ^ 32))) ∧
    (i.tag = .topoCancel → held (.kTopoCancel e) 1 .topoCancel) ∧
    (i.tag = .topoNewep → held (.kTopoNewep e) 1 .topoNewep) ∧
    (i.tag = .topoAccept → held (.kTopoAccept e) 1 .topoAccept)

/-- 03 R107 with R98, R103 to R105, 04 R123, R131, R132, R142 to R144, R146, R154: the exception code each condition raises on a Scarab engine before the last budgeted cycle, and what the abort leaves, whatever inputs and outputs the activation holds: inputs consumed and counted, outputs discarded, their cells given back; BUDGET and a failed lockstep comparison have statements of their own. In which cycle of an instruction of several its exception falls is the model's choice: the first (log entry 11). -/
def Obligations.ExceptionCodes : Prop :=
  ∀ (s : State) (e : Nat) (i : KIns), s.node.fits → e < 18 →
    let act := (s.node.eng e).act
    let ad := (act.rg i.ra + i.second act).toNat
    let k := 2 ^ (i.fn % 4)
    let p := (act.rg i.ra).toNat
    ((s.node.eng e).phase = .running → act.cyc + 1 < act.budget → ∀ c t, KRow e c t →
      (∀ code, s.node.fetch e act.pc = .inr code → AbortedBy c s e code) ∧
      (codeSize e < act.pc + 4 → AbortedBy c s e 2) ∧
      (act.pc + 4 ≤ codeSize e → s.node.codeBad e act.pc = true → AbortedBy c s e 7) ∧
      (s.node.fetch e act.pc = .inl i →
        (i.tag = .illegal → AbortedBy c s e 1) ∧
        (i.tag = .call ∨ i.tag = .ret ∨ i.tag = .loop ∨ i.tag = .endA → (∃ l ∈ act.loops, l.last = act.pc) → AbortedBy c s e 1) ∧
        (isTblTag i.tag = true → s.node.tab (i.imm % 256) = none → AbortedBy c s e 2) ∧
        (∀ d, s.node.tab (i.imm % 256) = some d →
          (i.tag = .tblRd ∨ i.tag = .tblLkrd → 32 < i.rd + d.n → AbortedBy c s e 1) ∧
          (i.tag = .tblWr ∨ i.tag = .tblIns → 32 < i.rb + d.n → AbortedBy c s e 1)))) ∧
    (Issues s.node e i 1 →
      (i.tag = .ret → act.stack = [] → AbortedBy (.kRet e) s e 5) ∧
      (i.tag = .call → act.stack.length = 8 → AbortedBy (.kCall e) s e 5) ∧
      (i.tag = .br → i.off < 0 → AbortedBy (.kBr e) s e 3) ∧
      (i.tag = .loop → act.loops.length = 4 → AbortedBy (.kLoop e) s e 4) ∧
      (i.tag = .ld → ¬ OneRange ad k ∨ ad % k ≠ 0 → AbortedBy (.kLd e) s e 2) ∧
      (i.tag = .ldx → ¬ OneRange ad k ∨ ad % k ≠ 0 → AbortedBy (.kLdx e) s e 2) ∧
      (i.tag = .st → (¬ InTransmit ad k ∧ ¬ InMailbox ad k) ∨ ad % k ≠ 0 → AbortedBy (.kSt e) s e 2) ∧
      (i.tag = .stx → (¬ InTransmit ad k ∧ ¬ InMailbox ad k) ∨ ad % k ≠ 0 → AbortedBy (.kStx e) s e 2) ∧
      (i.tag = .st → InMailbox ad k → ad % k = 0 → act.count isMbox = 64 → AbortedBy (.kSt e) s e 6) ∧
      (i.tag = .stx → InMailbox ad k → ad % k = 0 → act.count isMbox = 64 → AbortedBy (.kStx e) s e 6) ∧
      (i.tag = .extb → 2 ^ 35 ≤ p ∨ ¬ OneRange (p / 8) ((p + i.w - 1) / 8 - p / 8 + 1) → AbortedBy (.kExtb e) s e 2) ∧
      (i.tag = .insb →
        let bytes := (p + i.w - 1) / 8 - p / 8 + 1
        (2 ^ 35 ≤ p ∨ (¬ InTransmit (p / 8) bytes ∧ ¬ InMailbox (p / 8) bytes) → AbortedBy (.kInsb e) s e 2) ∧
        (p < 2 ^ 35 → InMailbox (p / 8) bytes → act.count isMbox = 64 → AbortedBy (.kInsb e) s e 6)) ∧
      (i.tag = .rxq → act.nrx = 8 →
        let slot := (s.node.slotIdx e).getD 31
        let q := i.fn % 16
        (∀ c r, i.fn / 16 = 0 → s.node.engQueue slot q = c :: r → (s.node.frame c.fid).bad = false → AbortedBy (.kRxq e) s e 6) ∧
        (i.fn / 16 = 1 → s.node.chanBound q slot = true → (s.node.chan q).waiting ≠ [] → AbortedBy (.kRxq e) s e 6)) ∧
      (act.count isFrame = 8 →
        let h := (List.range 64).map (fun j => FMap.get 0 act.tx j)
        (i.tag = .emit → i.fn % 2 = 0 → act.short = false → s.node.headerOk h = true → AbortedBy (.kEmit e) s e 6) ∧
        (∀ y, i.tag = .emit → i.fn % 2 = 1 → act.input = some y → y.src = 0 → y.dropped = false →
          s.node.ctxExists (p % 4096) = true → AbortedBy (.kEmit e) s e 6) ∧
        (i.tag = .launch → act.short = false → s.node.headerOk h = true → byteAt h 2 = 0 → p < 2 ^ 48 →
          (act.rg i.rb).toNat < 10 ^ 9 → AbortedBy (.kLaunch e) s e 6)) ∧
      (i.tag = .lds → 16128 ≤ p → AbortedBy (.kLds e) s e 2) ∧
      (i.tag = .sts → 16128 ≤ p → AbortedBy (.kSts e) s e 2) ∧
      (i.tag = .sts → p < 16128 → act.count isSts = 128 → AbortedBy (.kSts e) s e 6) ∧
      (i.tag = .signal → act.count isSignal = 8 → AbortedBy (.kSignal e) s e 6) ∧
      (i.tag = .drop → act.count isDrop = 8 → AbortedBy (.kDrop e) s e 6) ∧
      (∀ d, s.node.tab (i.imm % 256) = some d → (i.tag = .tblLk → d.hashed = false → AbortedBy (.kTblLk e) s e 2) ∧
        (i.tag = .tblRd → d.entries ≤ p → AbortedBy (.kTblRd e) s e 2) ∧
        (i.tag = .tblWr → d.entries ≤ p → AbortedBy (.kTblWr e) s e 2) ∧
        (i.tag = .tblLkrd → d.hashed = false → AbortedBy (.kTblLkrd e) s e 2) ∧
        (i.tag = .tblIns → d.hashed = false → AbortedBy (.kTblIns e) s e 2) ∧
        (i.tag = .tblDel → d.hashed = false → AbortedBy (.kTblDel e) s e 2) ∧
        (act.count isTbl = 16 →
          let find := if d.dbl = true ∧ act.ep ≠ s.node.epoch then none else s.node.lookup d d.dbl p
          (i.tag = .tblWr → p < d.entries → AbortedBy (.kTblWr e) s e 6) ∧
          (i.tag = .tblIns → d.hashed = true → find = none → s.node.freeSlot d d.dbl p (reserved act d.num) ≠ none →
            AbortedBy (.kTblIns e) s e 6) ∧
          (i.tag = .tblDel → d.hashed = true → find ≠ none → AbortedBy (.kTblDel e) s e 6))))

/-- 03 R92: the pending trigger of the highest priority is chosen, among equals the one with the lowest number. -/
def Obligations.BestTriggerWins : Prop :=
  ∀ (n : Node) (e slot t : Nat) (tr : Trig), FMap.wf {} (n.eng e).trigs = true →
    (n.bestTrig e slot = some (t, tr) ↔
      (t, tr) ∈ (n.eng e).trigs ∧ n.pendingTrig e slot t tr = true ∧
      ∀ u ur, (u, ur) ∈ (n.eng e).trigs → n.pendingTrig e slot u ur = true → ur.prio < tr.prio ∨ (ur.prio = tr.prio ∧ t ≤ u))

/-- 03 R79, R90, R92: DISPATCH starts the activation of the chosen trigger: g1 holds number, kind and priority, g2 the kind's argument, g3 the freshness clock, every other register and predicate is clear, the input is the head of the trigger's source, and the trigger is no longer pending. 03 R79, R90: DISPATCH of a FIELDBUS trigger holds the oldest waiting entry of the channel, and g2 counts the entries left. 02 R68: a frame with an uncorrectable error at the head of a trigger's queue is discarded and counted as cause 8, and starts nothing. -/
def Obligations.DispatchStarts : Prop :=
  (∀ (s : State) (e slot t : Nat) (tr : Trig), s.node.fits → e < 19 → s.node.canDispatch e = true →
     s.node.slotIdx e = some slot → s.node.headsGood e slot → s.node.bestTrig e slot = some (t, tr) → (s.node.eng e).ownerWr = [] →
     let x := s.node.eng e
     let fired := FMap.get 0 x.fired t
     let starts := fun (n : Node) (g2 : Nat) (inp : Option Input) (flags : Nat) => ∃ a : Act,
       Leaves (.dispatch e) s (n.setEng e { n.eng e with phase := .running, act := a, fired := FMap.put 0 x.fired t 0, flags := flags }) ∧
         a.rg 1 = BitVec.ofNat 64 (t + 256 * tr.kind + 4096 * tr.prio) ∧ a.rg 2 = BitVec.ofNat 64 g2 ∧
         a.rg 3 = BitVec.ofNat 64 (s.node.clock.fresh % 2 ^ 48) ∧ (∀ j, j ∉ [1, 2, 3] → a.rg j = 0) ∧ a.preds = 1 ∧
         a.pc = tr.entry ∧ a.ep = s.node.epoch ∧ a.trig = t ∧ a.budget = tr.budget ∧ a.cyc = 0 ∧ a.rng = 3 ∧ a.sat = false ∧
         a.input = inp ∧ a.taken = inp.toList ∧ a.outs = [] ∧ a.loops = [] ∧ a.stack = [] ∧ a.tx = []
     (∀ c r, tr.kind = 0 → s.node.engQueue slot tr.src = c :: r →
       let f := s.node.frame c.fid
       starts (s.node.setEngQueue slot tr.src r) r.length (some {
         src := if f.topo then 3 else 0, fid := c.fid, hdr := ethHeader f c tr.src s.node.epoch, data := f.data }) x.flags) ∧
     (tr.kind = 2 ∨ tr.kind = 4 → starts s.node (fired - 1) none x.flags) ∧
     (tr.kind = 3 → ∃ fl, (∀ q, bitOf fl q = (bitOf x.flags q && q != tr.src)) ∧ starts s.node 0 none fl) ∧
     (tr.kind = 5 → starts s.node x.prevEpoch none x.flags) ∧
     (tr.kind = 6 → starts s.node (s.node.portStat tr.src) none x.flags)) ∧
  (∀ (s : State) (e slot t : Nat) (tr : Trig) (y : FbEntry) (r : List FbEntry), s.node.fits → e < 18 → s.node.canDispatch e = true →
     s.node.slotIdx e = some slot → s.node.headsGood e slot → s.node.bestTrig e slot = some (t, tr) → (s.node.eng e).ownerWr = [] → tr.kind = 1 →
     s.node.chanBound tr.src slot = true → (s.node.chan tr.src).waiting = y :: r → (∀ z ∈ r, z.id ≠ y.id) →
     Yields (.dispatch e) s (fun n =>
       let inp : Input := { src := if tr.src < 8 then 1 else 2, chan := tr.src, eid := y.id, hdr := fbHeader tr.src y s.node.epoch, data := y.data }
       (n.eng e).phase = .running ∧ (n.eng e).act.input = some inp ∧ (n.eng e).act.taken = [inp] ∧
       (n.eng e).act.rg 2 = BitVec.ofNat 64 r.length ∧ (n.chan tr.src).waiting = r ∧ (∀ c, c ≠ tr.src → n.chan c = s.node.chan c) ∧
       (∀ k, k ≠ e → n.eng k = s.node.eng k) ∧ SameBytes s.node n ∧ n.fab = s.node.fab)) ∧
  (∀ (s : State) (e slot t : Nat) (tr : Trig) (c : Copy), s.node.fits → e < 19 → s.node.canDispatch e = true → s.node.slotIdx e = some slot →
     (s.node.eng e).trigs = [(t, tr)] → tr.kind = 0 → s.node.engQueue slot tr.src = [c] → (s.node.frame c.fid).bad = true →
     Yields (.dispatch e) s (fun n => n.engQueue slot tr.src = [] ∧ n.engs = s.node.engs ∧ SameBytes s.node n ∧
       n.rd (F.FAB_DISC_COUNT 8) = min (s.node.rd (F.FAB_DISC_COUNT 8) + 1) (2 ^ 32 - 1)))

/-- 03 R91: TIMER_FIRE at an instant of the timer, where node time in whole microseconds less the phase is a multiple of the period, makes the timer's trigger pending; while it is pending already, the firing is coalesced and counted in TIMERMISS; at another instant it does nothing. 03 R100, R101, R107, R109: BUDGET, where the running activation reaches its budget, aborts it with code 8 and sets its trigger's overrun flag, no other; where it does not, it does nothing. -/
def Obligations.TimerAndBudget : Prop :=
  (∀ (s : State) (e t : Nat), s.node.fits → e < 19 → s.node.dataOn = true →
     let x := s.node.eng e
     let tr := FMap.get {} x.trigs t
     let fired := FMap.get 0 x.fired t
     let us := s.node.clock.now / (1000 * nsU)
     let here := (us + 1, s.node.clock.moves)
     let n := s.node.setEng e { x with fired := FMap.put 0 x.fired t (fired + 1), timerAt := FMap.put (0, 0) x.timerAt t here }
     (((us : Nat) - (tr.phase : Int)) % (tr.period : Int) ≠ 0 → Leaves (.timerFire e t) s s.node) ∧
     (tr.en = true → tr.kind = 2 → ((us : Nat) - (tr.phase : Int)) % (tr.period : Int) = 0 → FMap.get (0, 0) x.timerAt t ≠ here →
       (fired = 0 → Leaves (.timerFire e t) s n) ∧
       (0 < fired → Leaves (.timerFire e t) s
         (n.wr (F.SC_TIMERMISS_COUNT e) (min (s.node.rd (F.SC_TIMERMISS_COUNT e) + 1) (2 ^ 32 - 1)))))) ∧
  (∀ (s : State) (e : Nat), s.node.fits → e < 18 → (s.node.eng e).phase = .running →
     let t := (s.node.eng e).act.trig
     (s.node.budgetDue e = false → Leaves (.budget e) s s.node) ∧
     (s.node.budgetDue e = true → AbortedBy (.budget e) s e 8) ∧
     (t < 64 → s.node.budgetDue e = true → Yields (.budget e) s (fun n =>
       (∀ b, b < 32 → bitOf (n.rd (F.SC_OVERRUN_TRIG e (t / 32))) b =
         (b == t % 32 || bitOf (s.node.rd (F.SC_OVERRUN_TRIG e (t / 32)) % 2 ^ 32) b)) ∧
       n.rd (F.SC_OVERRUN_TRIG e (1 - t / 32)) = s.node.rd (F.SC_OVERRUN_TRIG e (1 - t / 32)))))

/-- 03 R86, R96; 04 R139: OUTPUT_RELEASE of a held STS writes both words of its slot, STAMP the freshness clock, and no other byte; of a held mailbox store its bytes only; of a SIGNAL the target's flag, and of one whose target is unbound nothing (04 R151). 03 R84, R96, R110; 04 R143, R144; 09 R336, R337: a frame closed by EMIT, or a held input forwarded, joins the class queue of its stream context's port, stamped with the activation's epoch; one closed by LAUNCH a launch slot, or is counted as too far ahead. 04 R146, R147; 03 R111; 08 R303: a TBL.WR, TBL.INS or TBL.DEL writes its entry, in a train table that of the shadow bank; one of another epoch, in a grace interval, or an insertion into an entry used meanwhile is counted and changes nothing. 04 R148: a TOPO output takes the effect that the statements on rounds, commits and steps give it. In every case the engine is idle again, at an activation boundary, where a capture that waits for the engine goes on (12 R425). 02 R56, 03 R99, R117: at an activation boundary a held owner write of a whole entry word replaces its 64 bits, one of an upper half keeps the lower half; in a status word P stays and reserved bits are stored as zero (03 R85); no other byte changes. -/
def Obligations.BoundaryEffects : Prop :=
  (∀ (s : State) (e : Nat), s.node.fits → e < 18 → Unladen s.node e → (s.node.eng e).phase = .releasing →
     (s.node.eng e).act.nobuf = 0 → s.node.poison = [] →
     let x := s.node.eng e
     let act : Act := { x.act with outs := [], taken := [], input := none, tx := [], txCells := [], backCells := [], nobuf := 0 }
     let idle : Eng := { x with phase := .idle, act := act }
     (x.act.outs = [] → Leaves (.outputRelease e) s ((s.node.setEng e idle).captureAt e)) ∧
     (∀ slot v ok rng sat, x.act.outs = [.sts slot v ok rng sat] → slot < 16128 → rng < 4 →
       let ad := sigBase e + 16 * slot
       let st := (if ok then 2 ^ 63 else 0) + rng * 2 ^ 60 + (if sat then 2 ^ 59 else 0) + s.node.clock.fresh % 2 ^ 48
       ∃ mem, Leaves (.outputRelease e) s (({ s.node with mem := mem }.setEng e idle).captureAt e) ∧
         rd64 mem ad = v.toNat ∧ rd64 mem (ad + 8) = st ∧
         ∀ a, a < ad ∨ ad + 16 ≤ a → memRead mem a = memRead s.node.mem a) ∧
     (∀ off m v, x.act.outs = [.mbox [(off, m, v)]] → off < 0x1000 → m < 256 → v < 256 →
       ∃ mem, Leaves (.outputRelease e) s (({ s.node with mem := mem }.setEng e idle).captureAt e) ∧
         (∀ b, b < 8 → bitOf (memRead mem (mboxBase e + off)).toNat b =
           if bitOf m b then bitOf v b else bitOf (memRead s.node.mem (mboxBase e + off)).toNat b) ∧
         ∀ a, a ≠ mboxBase e + off → memRead mem a = memRead s.node.mem a) ∧
     (∀ flag, x.act.outs = [.signal 31 flag] → ∃ fl, (∀ q, bitOf fl q = (bitOf x.flags q || q == flag)) ∧
       Leaves (.outputRelease e) s ((s.node.setEng e { idle with flags := fl }).captureAt e)) ∧
     (∀ target flag, x.act.outs = [.signal target flag] → target < 16 → s.node.boundEng target = none →
       Leaves (.outputRelease e) s ((s.node.setEng e idle).captureAt e)) ∧
     (∀ target flag k, x.act.outs = [.signal target flag] → (target = 16 ∧ k = 18) ∨ (target < 16 ∧ s.node.boundEng target = some k) → k ≠ e →
       ∃ fl, (∀ q, bitOf fl q = (bitOf (s.node.eng k).flags q || q == flag)) ∧
         Leaves (.outputRelease e) s (((s.node.setEng k { s.node.eng k with flags := fl }).setEng e idle).captureAt e)) ∧
     (∀ t d i ws, x.act.outs = [.tblWr t i ws] → s.node.tab t = some d → d.num = t → 12 < t →
       (d.dbl = true → x.act.ep ≠ s.node.epoch ∨ s.node.inGrace = true → Leaves (.outputRelease e) s
         (((s.node.wr (F.SC_DROPS_STALE_WR e) (min (s.node.rd (F.SC_DROPS_STALE_WR e) + 1) (2 ^ 16 - 1))).setEng e idle).captureAt e)) ∧
       (d.dbl = false ∨ (x.act.ep = s.node.epoch ∧ s.node.inGrace = false) → ∃ mem,
         Leaves (.outputRelease e) s (({ s.node with mem := mem }.setEng e idle).captureAt e) ∧
         (∀ j, j < d.n → rd64 mem (tabAddr (d.dataW d.dbl i + j)) = ws.getD j 0 % 2 ^ 64) ∧
         ∀ a, a < tabAddr (d.dataW d.dbl i) ∨ tabAddr (d.dataW d.dbl i + d.n) ≤ a → memRead mem a = memRead s.node.mem a)) ∧
     (∀ t d i key ws, x.act.outs = [.tblIns t i key ws] → s.node.tab t = some d → d.num = t → 12 < t → d.hashed = true → d.dbl = false →
       (s.node.used d false i = true → Leaves (.outputRelease e) s
         (((s.node.wr (F.SC_DROPS_STALE_WR e) (min (s.node.rd (F.SC_DROPS_STALE_WR e) + 1) (2 ^ 16 - 1))).setEng e idle).captureAt e)) ∧
       (s.node.used d false i = false → ∃ mem, Leaves (.outputRelease e) s (({ s.node with mem := mem }.setEng e idle).captureAt e) ∧
         rd64 mem (tabAddr (d.dataW false i - 1)) = key % 2 ^ d.kw % 2 ^ 64 ∧
         (∀ j, j < d.n → rd64 mem (tabAddr (d.dataW false i + j)) = ws.getD j 0 % 2 ^ 64) ∧
         (∀ b, b < 64 → bitOf (rd64 mem (tabAddr (d.ctlW false i))) b = (b == i % 8 || bitOf (rd64 s.node.mem (tabAddr (d.ctlW false i))) b)) ∧
         ∀ a, a < tabAddr (d.dataW false i - 1) ∨ tabAddr (d.dataW false i + d.n) ≤ a →
           a < tabAddr (d.ctlW false i) ∨ tabAddr (d.ctlW false i + 1) ≤ a → memRead mem a = memRead s.node.mem a)) ∧
     (∀ t d i, x.act.outs = [.tblDel t i] → s.node.tab t = some d → d.hashed = true → d.dbl = false →
       ∃ mem, Leaves (.outputRelease e) s (({ s.node with mem := mem }.setEng e idle).captureAt e) ∧
         (∀ a, tabAddr (d.dataW false i - 1) ≤ a → a < tabAddr (d.dataW false i + d.n) → memRead mem a = 0) ∧
         (∀ b, b < 64 → bitOf (rd64 mem (tabAddr (d.ctlW false i))) b = (b != i % 8 && bitOf (rd64 s.node.mem (tabAddr (d.ctlW false i))) b)) ∧
         ∀ a, a < tabAddr (d.dataW false i - 1) ∨ tabAddr (d.dataW false i + d.n) ≤ a →
           a < tabAddr (d.ctlW false i) ∨ tabAddr (d.ctlW false i + 1) ≤ a → memRead mem a = memRead s.node.mem a) ∧
     (∀ f q, x.act.outs = [.frame f] → byteAt f.hdr 2 = 0 → bitOf (byteAt f.hdr 3) 0 = false → s.node.isBridge f.data = false →
       f.bad = false → cellsFor f.data.length ≤ f.cells.length →
       let c := leAt f.hdr 4 2
       let m := s.node.ctxCounted c f.data.length
       let cls := bitsOf (m.tabW 1 c 0) 62 60
       let fid := s.node.fab.nextFid
       let copy := m.copyOf fid c x.act.ep f.launch
       let kept := fun n : Node => (n.frame fid).data = f.data ∧ (n.frame fid).cells = f.cells ∧ (n.frame fid).refs = 1 ∧
         (n.frame fid).stamp = x.act.ep ∧ n.fab.nextFid = fid + 1 ∧ n.eng e = idle
       PlainTo m { ingress := 22 } c q →
         (f.launch = none → Yields (.outputRelease e) s (fun n => kept n ∧ n.egQueue q cls = s.node.egQueue q cls ++ [copy] ∧
           (∀ p k, p * 8 + k ≠ q * 8 + cls → n.egQueue p k = s.node.egQueue p k))) ∧
         (∀ at', f.launch = some at' → at' ≤ s.node.clock.now + secU → (FMap.get [] s.node.fab.launches q).length < 64 →
           Yields (.outputRelease e) s (fun n => kept n ∧ n.fab.egress = s.node.fab.egress ∧
             FMap.get [] n.fab.launches q = FMap.get [] s.node.fab.launches q ++
               [{ copy with soon := decide (at' < s.node.clock.now + 2000 * nsU) }])) ∧
         (∀ at', f.launch = some at' → s.node.clock.now + secU < at' → Yields (.outputRelease e) s (fun n =>
           n.eng e = idle ∧ n.fab.egress = s.node.fab.egress ∧ n.fab.launches = s.node.fab.launches ∧ n.frame fid = {} ∧
           CellsBack s.node n f.cells ∧
           n.rd (F.TIM_LAUNCHERR_FAR q) = min (s.node.rd (F.TIM_LAUNCHERR_FAR q) + 1) (2 ^ (F.TIM_LAUNCHERR_FAR q).w - 1)))) ∧
     (∀ fid c q, x.act.outs = [.forward fid c] → 1 ≤ (s.node.frame fid).refs → s.node.isBridge (s.node.frame fid).data = false →
       let f := s.node.frame fid
       let m := s.node.ctxCounted c f.data.length
       let cls := bitsOf (m.tabW 1 c 0) 62 60
       PlainTo m f c q → Yields (.outputRelease e) s (fun n =>
         (n.frame fid).refs = f.refs + 1 ∧ (n.frame fid).data = f.data ∧ (n.frame fid).cells = f.cells ∧ n.eng e = idle ∧
         n.egQueue q cls = s.node.egQueue q cls ++ [m.copyOf fid c x.act.ep none]))) ∧
  (∀ (s : State) (h : Held), isTopo h = true → Unladen s.node 18 → (s.node.eng 18).phase = .releasing →
     (s.node.eng 18).act.nobuf = 0 → s.node.poison = [] → (s.node.eng 18).act.outs = [h] →
     let act : Act := { (s.node.eng 18).act with outs := [], taken := [], input := none, tx := [], txCells := [], backCells := [], nobuf := 0 }
     let n := s.node
     let effect := match h with
       | .topoCand i ws => n.candWrite i ws
       | .topoAgree phase epoch => if phase = 0 then n.agree0 epoch else n.agree1 epoch
       | .topoCommit epoch sec ns => n.scheduleCommit epoch sec ns
       | .topoCancel => n.cancelCommit
       | .topoNewep => n.newEpoch
       | .topoAccept => n.acceptStep.2
       | _ => n
     effect.poison = [] → Settles (.outputRelease 18) s ((effect.setEng 18 { effect.eng 18 with phase := .idle, act := act }).captureAt 18)) ∧
  (∀ (s : State) (e a v : Nat), s.node.fits → e < 18 → (s.node.eng e).phase = .idle → (s.node.eng e).ownerWr = [(a, v)] →
     ∃ mem, Leaves (.heldOwnerWriteApply e) s ({ s.node with mem := mem }.setEng e { s.node.eng e with ownerWr := [] }) ∧
       let w := a / 8 * 8
       let old := rd64 s.node.mem w
       let new := if a % 8 = 4 then v % 2 ^ 32 * 2 ^ 32 + old % 2 ^ 32 else v % 2 ^ 64
       (w % 16 = 0 → rd64 mem w = new) ∧
       (w % 16 = 8 → rd64 mem w < 2 ^ 64 ∧ ∀ q, q < 64 → bitOf (rd64 mem w) q =
         if q = 62 then bitOf old q else bitOf new q && decide (q < 48 ∨ 59 ≤ q)) ∧
       ∀ y, y < w ∨ w + 8 ≤ y → memRead mem y = memRead s.node.mem y)

/-- 12 R448, R449; 02 R49: an engine whose lockstep comparison fails outside an activation is retired with a fault record; its slot waits for a move where a spare is left, and becomes unbound where none is, or where the last one has gone before the move. 02 R49, 12 R448: at an activation boundary the slot of a retired engine moves to one of the spares, with its signal store, mailbox and code, its triggers and its RUN and HOLD; MOVES counts it; what either engine ran last stays with it (03 R118). Which spare the manual does not say (log entry 28). -/
def Obligations.EngineRetires : Prop :=
  (∀ (s : State) (e slot : Nat), e < 18 → s.node.dataOn = true → s.node.retired e = false → (s.node.eng e).phase ≠ .running →
     s.node.slotOf e = some slot →
     ∃ r, (∀ b, b < 18 → bitOf r b = (bitOf (s.node.rd F.HLT_RETIRED_ENGINE) b || b == e)) ∧ r < 2 ^ 18 ∧
       let n := (s.node.wr F.HLT_RETIRED_ENGINE r).fault 15 2 e
       (s.node.spareEngs ≠ [] →
         Settles (.engineLockstepFailure e) s (n.setEng e { s.node.eng e with moving := true })) ∧
       (s.node.spareEngs = [] → ∃ u, (∀ b, bitOf u b = (bitOf (s.node.rd F.HLT_ENG_MOVES_UNBOUND) b || b == slot)) ∧
         Settles (.engineLockstepFailure e) s ((n.wr (F.HLT_SLOT_ENGINE slot) 31).wr F.HLT_ENG_MOVES_UNBOUND u))) ∧
  (∀ (s : State) (e slot : Nat), e < 18 → s.node.dataOn = true → (s.node.eng e).phase = .idle → (s.node.eng e).moving = true →
     s.node.slotOf e = some slot → s.node.spareEngs = [] →
     ∃ u, (∀ b, bitOf u b = (bitOf (s.node.rd F.HLT_ENG_MOVES_UNBOUND) b || b == slot)) ∧
       Settles (.slotMove e) s (((s.node.setEng e { s.node.eng e with moving := false }).wr (F.HLT_SLOT_ENGINE slot) 31).wr F.HLT_ENG_MOVES_UNBOUND u)) ∧
  (∀ (s : State) (e slot : Nat), s.node.fits → e < 18 → s.node.dataOn = true → (s.node.eng e).phase = .idle →
     (s.node.eng e).moving = true → s.node.slotOf e = some slot → s.node.spareEngs ≠ [] →
     ∃ k ∈ s.node.spareEngs, Yields (.slotMove e) s (fun n =>
       n.rd (F.HLT_SLOT_ENGINE slot) = k ∧ n.rd (F.SC_CTRL_RUN k) = s.node.rd (F.SC_CTRL_RUN e) % 2 ∧
       n.rd (F.SC_CTRL_HOLD k) = s.node.rd (F.SC_CTRL_HOLD e) % 2 ∧
       n.rd F.HLT_ENG_MOVES_MOVES = min (s.node.rd F.HLT_ENG_MOVES_MOVES + 1) (2 ^ 16 - 1) ∧
       (n.eng k).trigs = (s.node.eng e).trigs ∧ (n.eng k).flags = (s.node.eng e).flags ∧ (n.eng k).phase = (s.node.eng k).phase ∧
       (n.eng k).act = (s.node.eng k).act ∧ (n.eng e).act = (s.node.eng e).act ∧ (n.eng e).moving = false ∧
       (∀ y, y < 0x50000 → memRead n.mem (sigBase k + y) = memRead s.node.mem (sigBase e + y)) ∧
       (∀ j, j ≠ e → j ≠ k → n.eng j = s.node.eng j)))

/-- The block's step: the command at the front of the queue is run on the state with the queue's rest. -/
def Obligations.StepRunsFrontCommand : Prop :=
  ∀ (s : State) (c : Instr), step { s with pending := c :: s.pending } = exec c s

/-- 09 R313; 03 R87: with no command waiting, no access waiting for a lock and no datagram waiting for the bridge, a powered node's clock ticks: a TIM cycle, 4 ns less the correction, whose remainder is kept, and every 250 cycles a microsecond of the freshness clock; a backbone port whose PHY the relays have disconnected has no link (07 R266). Forwarding resumes after a takeover where 25 ms have passed and a line is up at each end with a recorded neighbour, and the gap is shown (12 R431 to R433; log entry 120). That a step on an empty queue is such a tick is the model's choice (log entry 6). -/
def Obligations.EmptyQueueTicks : Prop :=
  ∀ (s : State), s.pending = [] → s.node.brg.stalled = [] → s.node.brg.inRaw = [] → s.node.fits →
    ∃ t, step s = .next t ∧ t.pending = [] ∧
      (∀ p, p < 4 → s.node.linksServed = true → s.node.joined p = false → t.node.on (F.PRT_STATUS_LINK p) = false) ∧
      (∀ t0, s.node.pair.gapAt = some t0 → s.node.mode = .active → 1 ≤ s.node.level → t0 + 25000 ≤ t.node.clock.fresh →
        (∀ e, e < 2 → (s.node.topPort (2 * e)).recSet = false ∨ s.node.linkUp (2 * e) = true ∨ s.node.linkUp (2 * e + 1) = true) →
        t.node.pair.gapAt = none ∧ t.node.rd F.PAIR_GAP_LAST = min (2 ^ 16 - 1) ((t.node.clock.fresh - t0) / 10)) ∧
      ((∀ p, p < 4 → s.node.on (F.PRT_STATUS_LINK p) = true → s.node.linkUp p = true) →
      t.node.mem = s.node.mem ∧ t.node.engs = s.node.engs ∧ t.node.fab = { s.node.fab with ueAt := t.node.fab.ueAt } ∧
      (s.node.mode = .off → t.node.clock = s.node.clock) ∧
      (s.node.mode ≠ .off → t.node.clock.cycles = s.node.clock.cycles + 1 ∧
        250 * t.node.clock.fresh + t.node.clock.freshSub = 250 * s.node.clock.fresh + s.node.clock.freshSub + 1 ∧
        (s.node.clock.slew = 0 → s.node.clock.out ≤ 256000000000 → 0 ≤ s.node.clock.sub →
          (t.node.clock.now : Int) * 256000000000 + t.node.clock.sub =
            s.node.clock.now * 256000000000 + s.node.clock.sub + 262144 * (256000000000 - s.node.clock.out))))

/-- The queue is first in, first out: no command's effect adds to it, removes from it or reorders it. 00 R10: every command answers a next state, but for a master's access, or one that waited before it, that writes a one to a reserved bit of a register, whose effect the manual does not define. No command is refused. -/
def Obligations.OnlyReservedWritesStop : Prop :=
  (∀ (s t : State) (c : Instr), exec c s = .next t → t.pending = s.pending) ∧
  (∀ (s : State) (c : Instr),
     (∃ t, exec c s = .next t) ∨
     (∃ a, exec c s = .fault (.reservedBit a) ∧
       ∃ x r i, Makes s c x ∧ x.wr = true ∧ x.addr = a ∧ regAt a = some r ∧ i < 32 ∧ bitOf x.value i = true ∧
         ∀ f ∈ r.fields, i < f.lo ∨ f.lo + f.w ≤ i))

/-- The machine before its first power-on: OFF, unpowered, level 0, nothing waiting, nothing listed in memory, every relay closed, 24 banks in service and 2 spare (06 R219). The values of a machine that has had no power are the model's choice (log entries 1 and 2). -/
def Obligations.ResetState : Prop :=
  let n := State.reset.node
  State.reset.pending = [] ∧ n.mode = .off ∧ n.level = 0 ∧ n.mem = [] ∧ Memory.wf n.mem = true ∧ n.dataOn = false ∧ n.ctlOn = false ∧
    n.banksN = 24 ∧ n.banksSpare = 2 ∧ n.on (F.BBL_RELAY_CLOSED 0) = true ∧ n.on (F.BBL_RELAY_CLOSED 1) = true ∧
    n.on (F.PAIR_STATUS_CLAIM_HELD) = false ∧ n.settled

/-- 01 R39, R42, R44; 07 R266: after every step the node is settled: its level is one that is allowed, its relays stand as they are driven, its margin mark is true. So a level above 0 is found only in an ACTIVE node that holds the claim, has power, its pipeline, 8 banks or more and one line; a relay set is driven open, and has its contacts open where its feedback agrees, only in such a node, and not while it is forced or shows MISMATCH. -/
def Obligations.StepSettles : Prop :=
  ∀ (s t : State), step s = .next t →
    t.node.settled ∧ t.node.level ≤ 3 ∧
    (1 ≤ t.node.level → t.node.mode = .active ∧ t.node.on F.PAIR_STATUS_CLAIM_HELD = true ∧ 8 ≤ t.node.banksN ∧
      Res.power ∉ t.node.missing ∧ Res.pipeline ∉ t.node.missing ∧ (Res.lineA ∉ t.node.missing ∨ Res.lineB ∉ t.node.missing)) ∧
    (2 ≤ t.node.level → t.node.loaded = true ∧ t.node.identsSet = true ∧ Res.topology ∉ t.node.missing ∧ Res.timeUnit ∉ t.node.missing) ∧
    (3 ≤ t.node.level → ∀ r ∈ t.node.missing, r = .lineA ∨ r = .lineB) ∧
    (∀ l, l < 2 → t.node.on (F.BBL_RELAY_DRIVE_OPEN l) = true ∨
        (t.node.on (F.BBL_RELAY_CLOSED l) = false ∧ t.node.on (F.BBL_RELAY_MISMATCH l) = false) →
      t.node.mode = .active ∧ t.node.on F.PAIR_STATUS_CLAIM_HELD = true ∧ 1 ≤ t.node.level ∧
      t.node.on (F.BBL_RELAY_FORCE l) = false ∧ t.node.on (F.BBL_RELAY_MISMATCH l) = false)

/-- 15 R508, R509, R510, R532: what a measurement of an input does in a node that is not OFF: the measured values are shown; an input out of range that measures within its entry thresholds enters its range, with OK, its event and the supply in use; one in range stays there within its leave thresholds and leaves its range outside them, or with its polarity reversed; a hold-up that ends with an input returning changes nothing but its event and its count, and STORE_OK, which is low for the hold-up (log entry 53); an input lost while the other is in range gives a fault record. -/
def Obligations.PowerInputsInService : Prop :=
  ∀ (s : State) (battery : Bool) (r : Reading) (c : Instr), s.node.mode ≠ .off →
    c = .powerInputLeavesRange battery r ∨ (r.reversed = false ∧ c = .powerInputEntersRange battery r.volts r.ac r.freq) →
    let n := s.node
    let priOn := n.on F.PWR_STATUS_PRI_OK
    let batOn := n.on F.PWR_STATUS_BAT_OK
    let okF := if battery then F.PWR_STATUS_BAT_OK else F.PWR_STATUS_PRI_OK
    let measured := if battery then [(F.PWR_BATTERY_VOLTS, min r.volts 65535), (F.PWR_BATTERY_MA, min r.freq 65535)]
      else [(F.PWR_PRIMARY_VOLTS, min r.volts 65535), (F.PWR_PRIMARY_FREQ, if r.ac then min r.freq 65535 else 0), (F.PWR_STATUS_PRI_AC, b2n r.ac)]
    let freqOk := 450 ≤ r.freq ∧ r.freq ≤ 4500
    let enters := r.reversed = false ∧
      if battery then 168 ≤ r.volts ∧ r.volts ≤ 1600
      else if r.ac then 850 ≤ r.volts ∧ r.volts ≤ 2800 ∧ freqOk else 1000 ≤ r.volts ∧ r.volts ≤ 3900
    let stays := r.reversed = false ∧
      if battery then 155 ≤ r.volts ∧ r.volts ≤ 1600
      else if r.ac then 800 ≤ r.volts ∧ r.volts ≤ 2800 ∧ freqOk else 950 ≤ r.volts ∧ r.volts ≤ 3900
    (n.on okF = false →
      (enters → (n.mode = .stabled → battery = true) →
        Settles c s (n.wrs (measured ++
          [(okF, 1), (if battery then F.PWR_EVENTS_BAT_IN else F.PWR_EVENTS_PRI_IN, 1),
           (F.PWR_STATUS_SOURCE, if battery = true ∧ priOn = false then 2 else 1)] ++
          if n.on F.PWR_STATUS_HOLDUP then [(F.PWR_STATUS_HOLDUP, 0), (F.PWR_EVENTS_HOLDUP, 1), (F.PWR_STATUS_STORE_OK, 1),
            (F.PWR_EVENTS_HOLDUPS, min (n.rd F.PWR_EVENTS_HOLDUPS + 1) (2 ^ 16 - 1))] else []))) ∧
      (¬ enters → Settles c s (n.wrs measured))) ∧
    (n.on okF = true →
      let outF := if battery then F.PWR_EVENTS_BAT_OUT else F.PWR_EVENTS_PRI_OUT
      (stays → Settles c s (n.wrs measured)) ∧
      (¬ stays → (if battery then priOn else batOn) = true →
        Settles c s ((n.wrs (measured ++ [(okF, 0), (outF, 1), (F.PWR_STATUS_SOURCE, if battery then 1 else 2)])).fault 5 1 (b2n battery))) ∧
      (¬ stays → (if battery then priOn else batOn) = false →
        Settles c s (n.wrs (measured ++ [(okF, 0), (outF, 1), (F.PWR_STATUS_SOURCE, 0), (F.PWR_STATUS_HOLDUP, 1), (F.PWR_STATUS_STORE_OK, 0)]))))

/-- 15 R510, R511; 12 R411; 01 R22: at the end of hold-up the claim is released, the relays are driven closed, and closed where their feedback agrees, both islands are unpowered and the node is OFF; a power-on follows only after the unpowered interval. 12 R407, R410: when the wait for the partner ends, the node asserts its claim and is ACTIVE, unless the partner's claim is active: then it is in COLD_STANDBY, its data island unpowered; after a tie of the two claims the wait starts again where a heartbeat has come meanwhile (log entry 130). -/
def Obligations.PowerDownAndUp : Prop :=
  (∀ (s : State),
     (s.node.mode ≠ .off → s.node.on F.PWR_STATUS_HOLDUP = true → Yields .endOfHoldUp s (fun n =>
       n.mode = .off ∧ n.level = 0 ∧ n.unpowered = true ∧ n.mem = [] ∧ n.ctlOn = false ∧ n.dataOn = false ∧
       n.on F.PAIR_STATUS_CLAIM_HELD = false ∧ (∀ l, l < 2 → n.on (F.BBL_RELAY_DRIVE_OPEN l) = false ∧
         (n.on (F.BBL_RELAY_MISMATCH l) = false → n.on (F.BBL_RELAY_CLOSED l) = true)) ∧
       n.on F.PWR_STATUS_HOLDUP = false ∧ n.rd F.PWR_STATUS_SOURCE = 0)) ∧
     (s.node.mode = .off → s.node.fits →
       let powered := s.node.on F.PWR_STATUS_PRI_OK || s.node.on F.PWR_STATUS_BAT_OK
       (powered = false → Leaves .unpowered50MsEnd s { s.node with unpowered := false }) ∧
       (powered = true → Yields .unpowered50MsEnd s (Restarted s.node 0)) ∧
       (s.node.on F.PWR_STATUS_BAT_OK = false → ∀ volts ac freq, 168 ≤ volts → volts ≤ 1600 →
         (s.node.unpowered = true → Leaves (.powerInputEntersRange true volts ac freq) s
           (s.node.wrs [(F.PWR_BATTERY_VOLTS, min volts 65535), (F.PWR_BATTERY_MA, min freq 65535), (F.PWR_STATUS_BAT_OK, 1)])) ∧
         (s.node.unpowered = false → Yields (.powerInputEntersRange true volts ac freq) s (Restarted s.node 0))))) ∧
  (∀ (s : State), s.node.wait = .claim →
     (s.node.pair.tied = some true →
       Settles .claimWaitTimeout s { s.node with pair := { s.node.pair with tied := some false } }) ∧
     (s.node.pair.tied ≠ some true → (s.node.single = true ∨ s.node.on F.PAIR_STATUS_PARTNER_CLAIM = false) →
       Settles .claimWaitTimeout s ({ s.node with
           mode := .active, level := 0, wait := .none, pair := { s.node.pair with claimAt := s.node.wchCycle, tied := none } }.wrs
         [(F.PAIR_STATUS_CLAIM_HELD, 1), (F.MGT_BOOTINFO_STEP, 10)])) ∧
     (s.node.pair.tied ≠ some true → s.node.single = false → s.node.on F.PAIR_STATUS_PARTNER_CLAIM = true → Yields .claimWaitTimeout s (fun n =>
       n.mode = .coldStandby ∧ n.wait = .none ∧ n.level = 0 ∧ n.on F.PAIR_STATUS_CLAIM_HELD = false ∧ n.dataOn = false ∧
       n.rd F.MGT_BOOTINFO_STEP = 10)))

/-- 12 R411; 02 R50; 13 R454; 05 R182: a watchdog expiry restarts the node with cause 1; a lockstep mismatch sends at once the last heartbeat content with FAIL set, CLAIM clear and the next SEQ (log entry 44), and restarts with cause 2; a stabled node that CAB_ACTIVE or the primary supply wakes restarts with cause 7 and a record. -/
def Obligations.RestartCauses : Prop :=
  ∀ (s : State),
    (s.node.ctlOn = true → Yields .watchdogExpiry s (Restarted s.node 1)) ∧
    (∀ addr, s.node.ctlOn = true → Yields (.lockstepMismatch addr) s (fun n =>
      Restarted (s.node.fault 0 1 addr) 2 n ∧
      (s.node.single = false → s.node.tn7Mode = false → s.node.pair.content.length = 32 → ∃ b, Output.heartbeat 0 b ∈ n.out ∧
        bitOf (byteAt b 3) 0 = false ∧ bitOf (byteAt b 3) 1 = true ∧ bitOf (leAt b 24 4) 31 = true ∧
        leAt b 4 4 = (s.node.pair.seq + 1) % 2 ^ 32 ∧ slice b 8 16 = slice s.node.pair.content 8 16))) ∧
    (s.node.mode = .stabled → s.node.on F.PWR_DISCRETE_CAB_ACTIVE = false →
      Yields (.cabActiveChange true) s (Restarted (s.node.fault 0 3 1) 7)) ∧
    (s.node.mode = .stabled → s.node.on F.PWR_STATUS_PRI_OK = false → ∀ volts freq, 1000 ≤ volts → volts ≤ 3900 →
      Yields (.powerInputEntersRange false volts false freq) s (Restarted (s.node.fault 0 3 2) 7))

/-- 15 R515: TEMP_WARN and its event are set at 110 °C on the die or 80 °C at the wall and cleared below 105 °C and 75 °C, by a reading of both sensors and by one of the die; from 125 °C on the die the node restarts with cause 5 and is held in BOOT with both islands unpowered, until below 110 °C start-up goes on. 15 R525: a change of a discrete input is shown with its event, and nothing else changes while no round is open and the node is not stabled. -/
def Obligations.TemperatureAndInputs : Prop :=
  (∀ (s : State) (die wall : Int) (c : Instr) (shown : List (Fld × Nat)), -128 ≤ die → die ≤ 127 → -128 ≤ wall → wall ≤ 127 →
     let n := s.node
     let peak := n.rd F.PWR_TEMP_PEAK_WALL
     let peakS : Int := if peak < 128 then peak else peak - 256
     let dieShown := (F.PWR_TEMP_DIE, (die % 256).toNat)
     (c = .tempWarn die wall ∧ shown = [dieShown, (F.PWR_TEMP_WALL, (wall % 256).toNat), (F.PWR_TEMP_PEAK_WALL, (max wall peakS % 256).toNat)]) ∨
       ((c = .overtemp die ∨ c = .overtempHoldEnd die) ∧ n.rd F.PWR_TEMP_WALL = (wall % 256).toNat ∧ shown = [dieShown]) →
     let warned := n.on F.PWR_STATUS_TEMP_WARN
     n.mode ≠ .off → peak < 256 →
     (n.wait ≠ .overtemp → die < 125 →
       ((110 ≤ die ∨ 80 ≤ wall) → warned = false →
         Settles c s (n.wrs (shown ++ [(F.PWR_STATUS_TEMP_WARN, 1), (F.PWR_EVENTS_TEMP_WARN, 1)]))) ∧
       ((110 ≤ die ∨ 80 ≤ wall) → warned = true → Settles c s (n.wrs shown)) ∧
       (die < 105 → wall < 75 → Settles c s (n.wrs (shown ++ [(F.PWR_STATUS_TEMP_WARN, 0)]))) ∧
       (¬ (110 ≤ die ∨ 80 ≤ wall) → ¬ (die < 105 ∧ wall < 75) → Settles c s (n.wrs shown))) ∧
     (n.wait ≠ .overtemp → 125 ≤ die → Yields c s (fun m =>
       m.mode = .boot ∧ m.wait = .overtemp ∧ m.level = 0 ∧ m.mem = [] ∧ m.ctlOn = false ∧ m.dataOn = false ∧
       m.on F.PAIR_STATUS_CLAIM_HELD = false ∧ (∀ l, l < 2 → m.on (F.BBL_RELAY_DRIVE_OPEN l) = false ∧
         (m.on (F.BBL_RELAY_MISMATCH l) = false → m.on (F.BBL_RELAY_CLOSED l) = true)) ∧
       m.on F.PWR_EVENTS_OVERTEMP = true ∧ m.on F.PWR_STATUS_TEMP_WARN = true ∧ m.rd F.PWR_TEMP_DIE = die.toNat ∧
       m.rd F.MGT_BOOTINFO_CAUSE = 5 ∧ m.rd F.MGT_BOOTINFO_STEP = 2)) ∧
     (n.wait = .overtemp → 110 ≤ die → warned = true → Settles c s (n.wrs shown)) ∧
     (n.wait = .overtemp → n.mode = .boot → die < 110 → Yields c s StartUpEnds)) ∧
  (∀ (s : State) (level : Bool), s.node.mode ≠ .off →
     (s.node.on F.PWR_DISCRETE_ZERO_SPEED ≠ level →
       Settles (.zeroSpeedChange level) s (s.node.wrs [(F.PWR_DISCRETE_ZERO_SPEED, b2n level), (F.PWR_EVENTS_ZS_CHANGE, 1)])) ∧
     (s.node.on F.PWR_DISCRETE_CAB_ACTIVE ≠ level → s.node.mode ≠ .stabled → s.node.inaug.openR = false →
       Settles (.cabActiveChange level) s (s.node.wrs [(F.PWR_DISCRETE_CAB_ACTIVE, b2n level), (F.PWR_EVENTS_CAB_CHANGE, 1)])))

/-- 01 R41, R43; 12 R421: a part of a working set fails: the node falls at once to the highest level that is still allowed, with one record of old level, new level and what is missing, or, below FAIL_LEVEL with a proven standby, hands over; it rises one level at a time, to L2 with epoch 0 once it has been below it. 15 R532: a rail of the data island that leaves its tolerance switches the island off and sets RAIL_FAULT; the node falls to level 0, and the memories of the island are lost, those of the control island kept. -/
def Obligations.ServiceLevels : Prop :=
  (∀ (s : State) (r : Res),
     let n := s.node
     let m := { n with failed := r :: n.failed }
     let a := m.allowed
     let fl := n.rd F.PAIR_CTRL_FAIL_LEVEL
     (n.mode ≠ .off → r ∉ n.failed →
       (n.level ≤ a → Leaves (.workingSetPartFails r) s m) ∧
       (a < n.level → fl ≤ a → Yields (.workingSetPartFails r) s (fun t =>
         t.level = a ∧ t.mode = n.mode ∧ t.failed = m.failed ∧ SameBytes n t ∧ t.engs = n.engs ∧ t.fab = n.fab ∧
         (n.mode = .active → n.on F.PAIR_STATUS_CLAIM_HELD = true → m.working < n.level → n.log.staged.length < 64 →
           t.hasRecord 2 1 (a + 4 * n.level + m.missingArg)))) ∧
       (n.mode = .active → fl ≤ n.level → a < fl → n.tn7Mode = false → n.rd F.PAIR_STATUS_PARTNER_STATE = 2 →
         fl ≤ n.rd F.PAIR_STATUS_PARTNER_PROVEN → Yields (.workingSetPartFails r) s (fun t =>
           t.mode = .coldStandby ∧ t.level = 0 ∧ t.on F.PAIR_STATUS_CLAIM_HELD = false ∧ t.dataOn = false ∧ t.rd F.PAIR_STATUS_PROVEN = a))) ∧
     (n.level < n.allowed →
       let up := { n with level := n.level + 1 }
       (n.pair.gapAt = none ∨ (∃ t0, n.pair.gapAt = some t0 ∧ n.clock.fresh < t0 + 25000) →
       (¬ (n.level = 1 ∧ n.inaug.lostL2 = true) → Settles .serviceLevelRise s up) ∧
       (n.level = 1 → n.inaug.lostL2 = true → Settles .serviceLevelRise s
         ({ up with inaug := { n.inaug with lostL2 := false } }.wrs
           [(F.TOP_EPOCH_EPOCH, 0), (F.TOP_INAUG_POSITION, 0), (F.TOP_INAUG_COUNT, 0), (F.TOP_INAUG_ORIENT, 0)]))))) ∧
  (∀ (s : State), s.node.dataOn = true → Yields .railFault s (fun n =>
     n.dataOn = false ∧ n.on F.PWR_ISLANDS_RAIL_FAULT = true ∧ n.level = 0 ∧ n.engs = [] ∧ n.fab = {} ∧ n.chans = [] ∧ n.tabs = [] ∧
     (∀ a, a < 0x10000000 → memRead n.mem a = memRead s.node.mem a) ∧ (∀ a, 0x10000000 ≤ a → memRead n.mem a = 0)))

/-- 13 R463, R465, R480; 12 R440: staged records go to the flash log behind those it holds, which keeps the newest 4 096; a flash block that fails is retired with a record, what it held moves to a block in service, or, with no spare left, the other device alone serves its region and MIRROR_DEGRADED is set; every 512 records take an erase block; a finding of the self-test gives a record and shows in the margin (log entry 119), whose item number the manual does not give (log entry 35). Which blocks a device's contents are, and where they go, is log entry 33. -/
def Obligations.LogAndFlash : Prop :=
  ∀ (s : State),
    (s.node.settled → s.node.ctlOn = true → s.node.mode ≠ .off →
      let k := s.node.log.written
      let staged := s.node.log.staged
      let copied := fun n : Node => n.log.written = k + staged.length ∧ ∃ old, old ++ n.log.flash = s.node.log.flash ++ staged ∧
        n.log.flash.length ≤ 4096 ∧ (old ≠ [] → n.log.flash.length = 4096)
      (Yields .faultLogCopy s (fun n => copied n ∧ SameBytes s.node n ∧ n.mode = s.node.mode ∧ n.level = s.node.level ∧ n.flash =
        { s.node.flash with erases := n.flash.erases, place := n.flash.place, retired := n.flash.retired, lone := n.flash.lone })) ∧
      (staged = [] ∨ (k % 512 ≠ 0 ∧ k % 512 + staged.length ≤ 512) → Yields .faultLogCopy s (fun n =>
        copied n ∧ n.log.staged = [] ∧ Follows { s.node with log := { s.node.log with staged := [] } } n))) ∧
    (∀ dev b, s.node.ctlOn = true → dev < 2 → b < 4096 → dev * 4096 + b ∉ s.node.flash.retired →
      let old := s.node.flash
      let lost := old.retired ++ [dev * 4096 + b]
      let m := fun place lone => { s.node with flash := { old with retired := lost, place := place, lone := lone } }.fault 4 4 (dev * 2 ^ 31 + b)
      let holds := fun l => l < 832 ∧ s.node.blockAt dev l = b ∧ ∀ j, j < l → s.node.blockAt dev j ≠ b
      (s.node.flashSpare dev ≠ 0 → ∃ place, Settles (.flashBlockRetire dev b) s (m place old.lone) ∧
        (∀ k, (∀ l, l < 832 → k = 1024 * dev + l → s.node.blockAt dev l ≠ b) → FMap.get 0 place k = FMap.get 0 old.place k) ∧
        ∀ l, holds l → ∃ sp, sp < 4096 ∧ dev * 4096 + sp ∉ lost ∧ FMap.get 0 place (1024 * dev + l) = sp + 1) ∧
      (s.node.flashSpare dev = 0 → ∃ lone,
        Settles (.flashBlockRetire dev b) s ((m old.place lone).wr F.UPD_STATUS_MIRROR_DEGRADED 1) ∧
        ∀ x, x ∈ lone ↔ x ∈ old.lone ∨ ∃ l, holds l ∧ x = 8 * dev + regionNo l)) ∧
    (∀ f, s.node.mode = .coldStandby → ∃ item,
      Settles (.selfTestFinding f) s ({ s.node with pair := { s.node.pair with finding := true } }.fault 3 5 item))

/-- 05 R173, R175, R176, R178; 13 R455, R456, R458; 14 R485: where a register write is refused: by an undecoded address or by protection with a bus error and a violation, counted always and held where none is; for want of ownership with a bus error (log entry 88), a count and a log entry; a write of code memory by another than identity 0, or while RUN is 1, as a violation, whoever owns the node (14 R501); in a state where the command is not legal with RESULT 4 and a rejection, and no error; while a command of the register is in progress, a capture of FREEZE among them, with a rejection for BUSY (13 R459; which commands count, log entry 90); a request of the host above its BARs with an error and a partner violation, and no other (13 R467; log entry 131). Nothing else changes. -/
def Obligations.AccessRefusals : Prop :=
  ∀ (s : State) (m : Master) (a v : Nat),
    let n := s.node
    let p := n.presented m
    let c := Instr.registerWrite m a 4 v
    let far := if p.id = 3 ∨ p.id = 4 then p.pos else 0
    let violation := fun (region none' : Nat) =>
      (F.PRO_VIOL_COUNT_COUNT, min (n.rd F.PRO_VIOL_COUNT_COUNT + 1) (2 ^ 32 - 1)) ::
        if n.on F.PRO_VIOL_VALID then [] else
          [(F.PRO_VIOL_VALID, 1), (F.PRO_VIOL_ID, p.id), (F.PRO_VIOL_FARPOS, far), (F.PRO_VIOL_REGION, region),
           (F.PRO_VIOL_WB_LATE, 0), (F.PRO_VIOL_NONE, none'), (F.PRO_VIOL_WRITE, 1), (F.PRO_VIOL_ADDR_ADDR, a)]
    n.brg.lock = none → n.brg.stalled = [] → n.reaches p = true →
      (targetOf a = none → p.id ≠ 1 ∨ a < 2 ^ 32 → Refused c s m (n.wrs (violation 0 1))) ∧
      (m.id = 1 → 2 ^ 32 ≤ a → 0 < n.rd (F.HLT_PVIOL_COUNT 21) →
        Refused c s m (n.wr (F.HLT_PVIOL_COUNT 21) (min (n.rd (F.HLT_PVIOL_COUNT 21) + 1) (2 ^ 32 - 1)))) ∧
      (∀ e, targetOf a = some (.code e) → a % 4 = 0 → n.protOk { wordWrite m a v with m := p } = true →
        p.id ≠ 0 ∨ n.on (F.SC_CTRL_RUN e) = true → Refused c s m (n.wrs (violation ((n.region a).getD 0) (b2n (n.region a).isNone)))) ∧
      (∀ r k, Passes n (wordWrite m a v) → targetOf a = some .regs → regAt a = some r → a % 4 = 0 → cmdOf r v = k → k ≠ 0 → v < 2 ^ 32 →
        n.legal r k = true → n.regUnpowered r = false → n.mode ≠ .updating →
        n.cmdBusy r = true ∨ (r = .FAB_FREEZE ∧ n.fab.freezing = true) →
          Answered c s m 0 ((n.leased m).wrs ((F.MGT_REJECT_COUNT_COUNT, min (n.rd F.MGT_REJECT_COUNT_COUNT + 1) (2 ^ 32 - 1)) ::
            if n.on F.MGT_REJECT_VALID then [] else
              [(F.MGT_REJECT_VALID, 1), (F.MGT_REJECT_REASON, 1), (F.MGT_REJECT_ID, p.id), (F.MGT_REJECT_STATE, modeCode n.mode),
               (F.MGT_REJECT_CODE, k), (F.MGT_REJECT_ADDR_ADDR, a)]))) ∧
      (a % 4 = 0 → targetOf a = some .regs →
        (n.region a = none → p.id ≠ 0 → (p.id = 2 → n.mode ≠ .faulted ∧ n.mode ≠ .updating) → Refused c s m (n.wrs (violation 0 1))) ∧
        (∀ k, n.region a = some k → bitOf (n.rd (F.PRO_REGION_RIGHTS_RW k)) (2 * p.id + 1) = false →
          Refused c s m (n.wrs (violation k 0))) ∧
        (n.protOk { wordWrite m a v with m := p } = true → a ≠ 0x10010020 → n.owns p = false → ¬ (p.id = 2 ∧ n.mode = .faulted) →
          (∀ k, n.region a = some k → n.on (F.PRO_REGION_RIGHTS_OX k) = false ∧ (p.id = 0 → n.on (F.PRO_REGION_RIGHTS_XO k) = false)) →
          Refused c s m (n.wrs ((F.MGT_OWN_REFUSALS_COUNT, min (n.rd F.MGT_OWN_REFUSALS_COUNT + 1) (2 ^ 32 - 1)) ::
            if n.on F.MGT_OWN_LOG_VALID then [] else [(F.MGT_OWN_LOG_VALID, 1), (F.MGT_OWN_LOG_ID, p.id), (F.MGT_OWN_LOG_ADDR_ADDR, a)]))) ∧
        (Passes n (wordWrite m a v) → a = Reg.MGT_CMD.addr → v = 2 → n.mode = .coldStandby ∨ n.mode = .drill ∨ n.mode = .boot →
          Answered c s m 0 ((n.leased m).wrs ([(F.MGT_REJECT_COUNT_COUNT, min (n.rd F.MGT_REJECT_COUNT_COUNT + 1) (2 ^ 32 - 1)),
              (F.MGT_CMD_RESULT, 4)] ++
            if n.on F.MGT_REJECT_VALID then [] else
              [(F.MGT_REJECT_VALID, 1), (F.MGT_REJECT_REASON, 0), (F.MGT_REJECT_ID, p.id), (F.MGT_REJECT_STATE, modeCode n.mode),
               (F.MGT_REJECT_CODE, 2), (F.MGT_REJECT_ADDR_ADDR, a)]))))

/-- 00 R9, R11: what a word write does to a register that no rule of its own governs: RW fields take the written bits, W1C fields lose the bits written as one, every other field and every other register stays, and so does all else. -/
def Obligations.RegisterFields : Prop :=
  ∀ (s : State) (m : Master) (r : Reg) (v : Nat), RegPasses s.node m r v → regAt r.addr = some r → targetOf r.addr = some .regs → cmdOf r v = 0 →
    (∀ f ∈ r.fields, f.acc ≠ .WB) → (∀ n k, Node.regWrite n m r k = n.regSet r k) →
    ∃ regs sent, Settles (.registerWrite m r.addr 4 v) s
        { s.node.leased m with regs := regs, out := .resp m true 0 :: (sent ++ s.node.out) } ∧
      (∀ f ∈ r.fields, FMap.get f.rst regs (r.fld f).key =
        match f.acc with
        | .RW => v / 2 ^ f.lo % 2 ^ f.w
        | .W1C => (s.node.rd (r.fld f) - (s.node.rd (r.fld f) &&& v / 2 ^ f.lo % 2 ^ f.w)) % 2 ^ f.w
        | _ => s.node.rd (r.fld f)) ∧
      (∀ g : Fld, g.key / 32 ≠ r.addr → FMap.get g.rst regs g.key = s.node.rd g)

/-- 00 R533; 07 R252; 09 R315: a read of the lowest word of the node time, or of a port counter, captures the whole value for that master and answers its lowest word; a read of a higher word answers the captured word and changes nothing. 07 R252; 00 R13: a read of a delta view answers what has been counted since the last and clears it, but for a far node, whose read leaves it. -/
def Obligations.CapturedReads : Prop :=
  (∀ (s : State) (m : Master) (a k : Nat),
     let n := s.node
     let p := n.presented m
     let value := fun (base : Nat) (ws : List Nat) =>
       (a = base → k = 0 → ∃ caps, Answered (.capturingRead m a 4) s m (ws.getD 0 0) { n with caps := caps } ∧
         ∃ c, Node.capAt { n with caps := caps } p base = some c ∧ c.words = (List.range ws.length).map (fun i => (i, ws.getD i 0))) ∧
       (a = base + 4 * k → 0 < k → k < ws.length → ∀ c w, n.capAt p base = some c → c.words.find? (fun x => x.1 == k) = some (k, w) →
         Answered (.higherWordRead m a 4) s m w n)
     Passes n (wordRead m a) →
       (value 0x10100010 [secOf n.clock.now % 2 ^ 32, secOf n.clock.now / 2 ^ 32 % 65536, nsOf n.clock.now, fracOf n.clock.now]) ∧
       (∀ port i, port < 23 → i < 64 → n.dataOn = true →
         value (Reg.PRT_CNT_LO port i).addr [FMap.get 0 n.cnt (port * 64 + i) % 2 ^ 32, FMap.get 0 n.cnt (port * 64 + i) / 2 ^ 32 % 256])) ∧
  (∀ (s : State) (m : Master) (p i : Nat), p < 23 → i < 64 → s.node.dataOn = true →
     Passes s.node (wordRead m (Reg.PRT_DELTA p i).addr) →
     let k := p * 64 + i
     let d := FMap.get 0 s.node.delta k
     (m.id ≠ 3 → m.id ≠ 4 → Answered (.deltaViewRead m p i) s m d { s.node with delta := FMap.put 0 s.node.delta k 0 }) ∧
     (m.id = 3 ∨ m.id = 4 → Answered (.deltaViewRead m p i) s m d s.node))

/-- 03 R88, R117; 14 R500, R501: a master's write of an engine's mailbox or code memory, or of management RAM, changes its own bytes and no other; one of the lower word of a signal slot's half is held for the master, one of the upper word goes with it to the engine's next activation boundary. -/
def Obligations.MemoryWrites : Prop :=
  ∀ (s : State) (m : Master) (e a size v : Nat), e < 19 → Memory.wf s.node.mem = true →
    let n := s.node
    let p := n.presented m
    let stores := fun (c : Instr) (size : Nat) => ∃ mem, Answered c s m 0 { n.leased m with mem := mem } ∧ Memory.wf mem = true ∧
      (∀ i, i < size → memRead mem (a + i) = BitVec.ofNat 8 (v / 256 ^ i)) ∧ (∀ y, y < a ∨ a + size ≤ y → memRead mem y = memRead n.mem y)
    (Passes n { wordWrite m a v with size := size } → size = 1 ∨ size = 2 ∨ size = 4 →
      (n.mode ≠ .updating → 0x100000 ≤ a → a + size ≤ 0x300000 → stores (.registerWrite m a size v) size) ∧
      (n.dataOn = true → mboxBase e ≤ a → a + size ≤ mboxBase e + 0x1000 → stores (.mailboxWrite m a size v) size)) ∧
    (Passes n (wordWrite m a v) → n.dataOn = true → a % 4 = 0 →
      (codeBase e ≤ a → a + 4 ≤ codeBase e + codeSize e → p.id = 0 → n.on (F.SC_CTRL_RUN e) = false →
        stores (.codeMemoryWrite m a v) 4) ∧
      (e < 18 → sigBase e ≤ a → a + 4 ≤ sigBase e + 0x3F000 →
        let entry := a / 8 * 8
        let rest := n.holds.filter (fun c => !(c.key == mkeyOf p && c.block == blockOf entry))
        let sends := fun (w : Nat × Nat) => Answered (.signalStoreWrite m a v) s m 0
          ({ n.leased m with holds := rest }.setEng e { n.eng e with ownerWr := (n.eng e).ownerWr ++ [w] })
        (a % 8 = 0 → Answered (.signalStoreWrite m a v) s m 0
          { n.leased m with holds := rest ++ [{ key := mkeyOf p, block := blockOf entry, addr := entry, words := [(0, v % 2 ^ 32)] }] }) ∧
        (a % 8 = 4 → (∀ c lo, n.holdAt p entry = some c → c.words = [(0, lo)] → sends (entry, lo + v % 2 ^ 32 * 2 ^ 32)) ∧
          (n.holdAt p entry = none → sends (a, v % 2 ^ 32)))))

/-- 02 R54, R68; 00 R533: a write through the table window is held for its master, byte by byte, until the entry's highest half word is written; then the key and data words of the entry take what was held, what was not held stays, and an uncorrectable error in the entry goes where every byte of it was written. 06 R196, R200, R209, R212, R215: in the fabric's own tables 1, 3, 4 and 5 the words the hardware writes keep their value but as the table's rule states, and a policer whose word 0 changes is filled. 05 R166: a write of a hash group's control word sets its USED bits. -/
def Obligations.TableWindow : Prop :=
  (∀ (s : State) (m : Master) (a size v : Nat) (d : TabDef) (sh : Bool) (i j : Nat),
    Passes s.node { wordWrite m a v with size := size } → s.node.dataOn = true → size = 1 ∨ size = 2 ∨ size = 4 → a % 4 + size ≤ 4 →
    0x40000000 ≤ a → a < 0x40600000 → s.node.tabPlace ((a - 0x40000000) / 8) = .entry d sh i j →
    let key := if d.hashed then 1 else 0
    j < d.n + key → (d.dbl = true → sh = true ∧ s.node.inGrace = false) →
    (d.num ∈ [1, 3, 4, 5] → d.hashed = false ∧ (d.num = 1 → d.n = 8) ∧ (d.num = 3 → d.n = 2) ∧ (d.num = 4 → d.n = 4)) →
    let n := s.node
    let p := n.presented m
    let len := d.n + key
    let base := tabAddr (d.dataW sh i - key)
    let held := match n.holdAt p base with
      | some c => c.words
      | none => []
    let at' := fun q => held.find? (fun x => x.1 % 64 == q)
    let half := fun q => match at' q with
      | some x => x.2
      | none => rd64 n.mem (base + 8 * (q / 2)) / 2 ^ (32 * (q % 2)) % 2 ^ 32
    let done := fun q => ((at' q).map (·.1)).getD 0 / 64
    let h := 2 * j + a % 8 / 4
    let bytes := done h ||| ((2 ^ size - 1) * 2 ^ (a % 4) % 16)
    let rest := n.holds.filter (fun c => !(c.key == mkeyOf p && c.block == blockOf base))
    ∃ hv, hv < 2 ^ 32 ∧
      (∀ b, b < 4 → hv / 256 ^ b % 256 = if a % 4 ≤ b ∧ b < a % 4 + size then v / 256 ^ (b - a % 4) % 256 else half h / 256 ^ b % 256) ∧
      (h ≠ 2 * len - 1 → Answered (.tableWindowWrite m a size v) s m 0
        { n.leased m with holds := rest ++ [{ key := mkeyOf p, block := blockOf base, addr := base,
                                              words := held.filter (fun x => x.1 % 64 != h) ++ [(h + 64 * bytes, hv)] }] }) ∧
      (h = 2 * len - 1 → (∀ x ∈ held, x.2 < 2 ^ 32) → ∃ mem poison buckets,
        let now := fun q => if q = h then hv else half q
        let new := fun w => now (2 * (w + key)) + now (2 * (w + key) + 1) * 2 ^ 32
        let old := fun w => rd64 n.mem (base + 8 * (w + key))
        let out := fun w => rd64 mem (base + 8 * (w + key))
        let full := ∀ q, q < 2 * len → (if q = h then bytes else done q) = 15
        Answered (.tableWindowWrite m a size v) s m 0
          { n.leased m with holds := rest, mem := mem, poison := poison, fab := { n.fab with buckets := buckets } } ∧
        (d.hashed = true → rd64 mem base = now 0 + now 1 * 2 ^ 32) ∧
        (d.num ∉ [1, 3, 4, 5] → ∀ w, w < d.n → out w = new w) ∧
        (d.num = 1 → ∀ w, w < 8 →
          if bitOf (old 0) 63 = false ∧ bitOf (new 0) 63 = true then out w = if w < 3 then new w else 0
          else out w = if w < 2 then new w else if w = 2 then new 2 / 65536 * 65536 + old 2 % 65536 else old w) ∧
        (d.num = 3 → out 0 = new 0 ∧ out 1 = old 1) ∧
        (d.num = 4 → (∀ b, b < 64 → bitOf (out 0) b = if b < 47 then bitOf (new 0) b
            else if b = 47 ∧ bitsOf (old 0) 37 32 ≠ bitsOf (new 0) 37 32 then true else bitOf (old 0) b) ∧
          out 1 = (if bitsOf (old 0) 37 32 = bitsOf (new 0) 37 32 then old 1 else 0) ∧ out 2 = old 2 ∧ out 3 = old 3) ∧
        (d.num = 5 → ∀ w, w < d.n → out w = if w = 0 ∧ 20 ≤ i ∧ i ≤ 22 then new 0 / 2 ^ 32 * 2 ^ 32 else new w) ∧
        (d.num ≠ 3 ∨ new 0 = old 0 → buckets = n.fab.buckets) ∧
        (d.num = 3 → new 0 ≠ old 0 → buckets = FMap.put (0, 0) n.fab.buckets i (0, n.freshCycles)) ∧
        (∀ x, x ∈ poison ↔ x ∈ n.poison ∧ ¬ (full ∧ ∃ w, w < len ∧ x = base + 8 * w)) ∧
        (∀ y, y < base ∨ base + 8 * len ≤ y → memRead mem y = memRead n.mem y))) ∧
  (∀ (s : State) (m : Master) (a v : Nat) (d : TabDef) (sh : Bool), Passes s.node (wordWrite m a v) → s.node.dataOn = true → a % 4 = 0 →
    0x40000000 ≤ a → a < 0x40600000 → s.node.tabPlace ((a - 0x40000000) / 8) = .ctl d sh → a / 8 * 8 ∉ s.node.poison →
    (d.dbl = true → sh = true ∧ s.node.inGrace = false) → ∃ mem,
      Answered (.tableWindowWrite m a 4 v) s m 0 { s.node.leased m with mem := mem } ∧
      (a % 8 = 0 → rd64 mem a = v % 256) ∧ (a % 8 = 4 → mem = s.node.mem) ∧
      ∀ y, y < a / 8 * 8 ∨ a / 8 * 8 + 8 ≤ y → memRead mem y = memRead s.node.mem y)

/-- 03 R90, R118: SC.CTRL.RUN and HOLD take what is written, CLR_PEAK clears the peak registers, DOORBELL makes every enabled DOORBELL trigger of the engine pending once more; nothing else changes. -/
def Obligations.EngineControls : Prop :=
  ∀ (s : State) (m : Master) (e : Nat) (b : Bool), e < 19 →
    let n := s.node.leased m
    let run := s.node.rd (F.SC_CTRL_RUN e)
    let hold := s.node.rd (F.SC_CTRL_HOLD e)
    run < 2 → hold < 2 →
      (RegPasses s.node m (.SC_CTRL e) (2 * hold + b2n b) → Answered (.runEngine m e b) s m 0 (n.wr (F.SC_CTRL_RUN e) (b2n b))) ∧
      (RegPasses s.node m (.SC_CTRL e) (2 * b2n b + run) → Answered (.holdEngine m e b) s m 0 (n.wr (F.SC_CTRL_HOLD e) (b2n b))) ∧
      (RegPasses s.node m (.SC_CTRL e) (4 + 2 * hold + run) →
        Answered (.clrPeak m e) s m 0 (n.wrs [(F.SC_PEAK_TRIGGER e, 0), (F.SC_PEAK_CYCLES e, 0)])) ∧
      (RegPasses s.node m (.SC_DOORBELL e) 1 → FMap.wf {} (s.node.eng e).trigs = true → ∃ fired,
        Answered (.doorbell m e) s m 0 (n.setEng e { s.node.eng e with fired := fired }) ∧
        ∀ t, FMap.get 0 fired t = FMap.get 0 (s.node.eng e).fired t +
          b2n ((FMap.get {} (s.node.eng e).trigs t).en && (FMap.get {} (s.node.eng e).trigs t).kind == 4))

/-- 05 R172, R176; 07 R266, R269: BOOT_DONE is set once, and a later write is a violation that completes (log entry 87); FORCE takes what is written, and MISMATCH is cleared by a write of one, the relays then following under R22. 07 R266, R269: a relay set that disagrees with its drive shows MISMATCH with a record, is driven closed while CLOSED shows the contacts as they are, and both ports of its line go down. A node that hands over for want of its level (12 R421) keeps no MISMATCH: its data island is off. -/
def Obligations.BootDoneAndRelays : Prop :=
  (∀ (s : State) (m : Master) (l : Nat) (b : Bool), l < 2 →
     let n := s.node.leased m
     let p := s.node.presented m
     let force := s.node.rd (F.BBL_RELAY_FORCE l)
     (RegPasses s.node m .PRO_CTRL 1 →
       (s.node.on F.PRO_CTRL_BOOT_DONE = false → Answered (.bootDone m) s m 0 (n.wr F.PRO_CTRL_BOOT_DONE 1)) ∧
       (s.node.on F.PRO_CTRL_BOOT_DONE = true → s.node.on F.PRO_VIOL_VALID = false →
         Answered (.bootDone m) s m 0 (n.wrs
           [(F.PRO_VIOL_COUNT_COUNT, min (s.node.rd F.PRO_VIOL_COUNT_COUNT + 1) (2 ^ 32 - 1)), (F.PRO_VIOL_VALID, 1), (F.PRO_VIOL_ID, p.id),
            (F.PRO_VIOL_FARPOS, if p.id = 3 ∨ p.id = 4 then p.pos else 0), (F.PRO_VIOL_REGION, (s.node.region 0x10000000).getD 0), (F.PRO_VIOL_WB_LATE, 1),
            (F.PRO_VIOL_NONE, b2n (s.node.region 0x10000000).isNone), (F.PRO_VIOL_WRITE, 1), (F.PRO_VIOL_ADDR_ADDR, 0x10000000)]))) ∧
     (force < 2 → s.node.rd (F.BBL_RELAY_MISMATCH l) < 2 →
       (RegPasses s.node m (.BBL_RELAY l) (b2n b * 2 ^ 29) → Answered (.relayForce m l b) s m 0 (n.wr (F.BBL_RELAY_FORCE l) (b2n b))) ∧
       (RegPasses s.node m (.BBL_RELAY l) (force * 2 ^ 29 + 2 ^ 28) →
         Answered (.relayMismatchClear m l) s m 0 (n.wr (F.BBL_RELAY_MISMATCH l) 0)))) ∧
  (∀ (s : State) (l : Nat), s.node.mode ≠ .off → l < 2 → s.node.on (F.BBL_RELAY_MISMATCH l) = false →
     Yields (.relayMismatch l) s (fun n =>
       ((n.on (F.BBL_RELAY_MISMATCH l) = true ∧ n.on (F.BBL_RELAY_CLOSED l) = s.node.on (F.BBL_RELAY_DRIVE_OPEN l)) ∨ n.mode = .coldStandby) ∧
       n.on (F.BBL_RELAY_DRIVE_OPEN l) = false ∧ (s.node.linksServed = true → n.linkUp l = false ∧ n.linkUp (l + 2) = false) ∧ (s.node.log.staged.length < 62 → n.hasRecord 9 3 l)))

/-- 07 R238, R241, R242, R247, R248, R252, R254; 06 R209, R217, R223: pauses begin and end per class, verify and respond mPackets, low-power idle where the partner has agreed to it, from which a frame of the node's own leaves after the wake, PFC repeated, cells returning to the free pool of a bank in service, a recovery record reset; and what counting does: the running view wraps at 40 bits and marks HALF each time its bit 39 changes, the delta view saturates. -/
def Obligations.PortFlow : Prop :=
  ∀ (s : State) (p c k : Nat), p < 20 → c < 8 →
    let n := s.node
    let pre := n.rd (F.PRT_STATUS_PREEMPT p)
    let tries := (n.port p).verify
    (∀ i, i < 64 → 0 < k →
      let m := n.cntAdd p i k
      let old := FMap.get 0 n.cnt (p * 64 + i)
      FMap.get 0 m.cnt (p * 64 + i) = (old + k) % 2 ^ 40 ∧
        FMap.get 0 m.delta (p * 64 + i) = min (FMap.get 0 n.delta (p * 64 + i) + k) (2 ^ 32 - 1) ∧
        (bitOf old 39 ≠ bitOf ((old + k) % 2 ^ 40) 39 →
          bitOf (if i < 32 then m.rd (F.PRT_HALF_LO_HALF p) else m.rd (F.PRT_HALF_HI_HALF p)) (i % 32) = true)) ∧
    (n.fits → ∀ f : WireFrame, n.receives p = true → f.fcsOk = true → f.symErr = false → f.smdErr = false → f.assyErr = false →
      60 ≤ f.bytes.length → f.bytes.length + 4 ≤ n.rd (F.PRT_CTRL_MAXLEN p) → beAt f.bytes 12 2 = 0x8808 → beAt f.bytes 14 2 = 1 →
      n.rd (F.PRT_STATUS_PAUSED p) < 256 →
      let quanta := beAt f.bytes 16 2
      let exempt := n.on (F.PRT_CTRL_EXEMPT p) && decide (6 ≤ c)
      Yields (.pauseReceived p f) s (fun t =>
        bitOf (t.rd (F.PRT_STATUS_PAUSED p)) c = (if exempt then bitOf (n.rd (F.PRT_STATUS_PAUSED p)) c else quanta != 0) ∧
        (exempt = false → n.mbps p ≠ 0 → FMap.get 0 (t.port p).pauseT c = quanta * 512 * 1000 * 65536 / n.mbps p) ∧
        FMap.get 0 t.cnt (p * 64 + 5) = (FMap.get 0 n.cnt (p * 64 + 5) + 1) % 2 ^ 40 ∧
        t.fab = n.fab ∧ SameBytes n t ∧ (∀ q, q ≠ p → t.port q = n.port q) ∧ t.engs = n.engs)) ∧
    (n.rd (F.PRT_STATUS_PAUSED p) < 256 → ∃ w, w < 256 ∧ (∀ b, bitOf w b = (bitOf (n.rd (F.PRT_STATUS_PAUSED p)) b && b != c)) ∧
      Settles (.pauseExpiry p c) s
        ((n.setPort p { n.port p with pauseT := FMap.put 0 (n.port p).pauseT c 0 }).wr (F.PRT_STATUS_PAUSED p) w)) ∧
    (n.canPreempt p = true → n.receives p = true →
      Settles (.verifyReceived p) s ((n.emit (.oam p oamRespond [])).cntAdd p 28 1)) ∧
    (n.receives p = true → pre = 1 → Settles (.respondReceived p) s (n.wr (F.PRT_STATUS_PREEMPT p) 2)) ∧
    (pre = 1 → tries < 3 →
      Settles (.verifyTimer p) s ((n.setPort p { n.port p with verify := tries + 1 }).emit (.oam p oamVerify []))) ∧
    (pre = 1 → 3 ≤ tries → Settles (.verifyTimer p) s ((n.wr (F.PRT_STATUS_PREEMPT p) 3).cntAdd p 51 1)) ∧
    (4 ≤ p → p < 16 → n.linkUp p = true → n.on (F.PRT_CTRL_EEE_EN p) = true → n.portIdle p = true → n.pfcWaits p = false → n.gateCycle p = 0 →
      n.on (F.PRT_STATUS_LPI_TX p) = false →
      ((n.port p).eee = true → Settles (.lpiEntry p) s ((n.wr (F.PRT_STATUS_LPI_TX p) 1).cntAdd p 56 1)) ∧
      ((n.port p).eee = false → Settles (.lpiEntry p) s n)) ∧
    (n.on (F.PRT_STATUS_LPI_TX p) = true →
      ((n.port p).own = [] → n.portIdle p = false → n.pfcWaits p = false → Settles (.lpiWakeComplete p) s (n.wr (F.PRT_STATUS_LPI_TX p) 0)) ∧
      (∀ b, (n.port p).own = [.bytes b] → (n.port p).tx = none → (n.port p).shift = none → n.pfcWaits p = false →
        Settles (.lpiWakeComplete p) s
          ((((n.wr (F.PRT_STATUS_LPI_TX p) 0).setPort p { n.port p with own := [] }).emit (.frame p b)).txCount p b)) ∧
      ((n.port p).own = [] → n.pfcWaits p = true → Settles (.lpiWakeComplete p) s ((n.wr (F.PRT_STATUS_LPI_TX p) 0).pfcUpd p))) ∧
    (n.canTx p = true → n.quiet p = false → bitOf (n.port p).pfcSent c = true → bitsOf (n.tabW 5 p 2) 47 32 ≤ n.charge p c →
      ∃ b, b.length = 60 ∧ beAt b 0 6 = 0x0180C2000001 ∧ beAt b 12 2 = 0x8808 ∧ beAt b 14 2 = 0x0101 ∧ beAt b 16 2 = 2 ^ c ∧
        beAt b (18 + 2 * c) 2 = 0xFFFF ∧ Settles (.pfcRepeat p c) s (((n.emit (.frame p b)).txCount p b).cntAdd p 37 1)) ∧
    (∀ b, b < 26 → n.rd (F.FAB_BANK_STATE b) = 1 → Settles (.cellReturn b k) s (n.setBank b { n.bank b with
      free := (n.bank b).free + min k (n.bank b).returning, returning := (n.bank b).returning - min k (n.bank b).returning })) ∧
    (∀ d, n.tab 4 = some d → d.hashed = false → 4 ≤ d.n → n.entryOk d false k = true →
      let base := tabAddr (d.base + d.n * k)
      ∃ mem, Settles (.recoveryResetTimeout k) s { n with mem := mem } ∧
        (∀ b, b < 64 → bitOf (rd64 mem base) b = (bitOf (rd64 n.mem base) b || b == 47)) ∧
        bitsOf (rd64 mem (base + 24)) 31 16 = (bitsOf (rd64 n.mem (base + 24)) 31 16 + 1) % 2 ^ 16 ∧
        bitsOf (rd64 mem (base + 24)) 63 32 = bitsOf (rd64 n.mem (base + 24)) 63 32 ∧
        rd64 mem (base + 24) % 2 ^ 16 = rd64 n.mem (base + 24) % 2 ^ 16 ∧
        ∀ a, a < base ∨ (base + 8 ≤ a ∧ a < base + 24) ∨ base + 32 ≤ a → memRead mem a = memRead n.mem a)

/-- 06 R213, R221; 07 R239; 09 R338, R339: the scheduler sends the head of the highest class that may start, classes 7 and 6 before all others, an express frame over a preemptable one in progress of which a fragment may be cut; what has been queued to a port that is barred meanwhile is a forwarding miss (08 R287; log entry 132); a copy that has left is on the wire, counted, and its hold on the stored frame ends; a launch whose time has come starts in its window, and a late one is dropped unless its class may send late. -/
def Obligations.EgressAndLaunch : Prop :=
  ∀ (s : State) (p c : Nat) (x : Copy) (b : List Byte), p < 20 →
    let n := s.node
    let pt := n.port p
    let padded := b ++ zeros (60 - b.length)
    let starts := n.edit x p = .send b ∧ (n.frame x.fid).bad = false ∧ b.length + 4 ≤ n.rd (F.PRT_CTRL_MAXLEN p) ∧
      (∀ d ∈ n.fab.descs, d.fid ≠ x.fid) ∧ (n.barred p = false ∨ topoFrame (n.frame x.fid).data = true)
    let sending := { pt with tx := some x, txBytes := padded, txAt := n.clock.cycles, txDone := 0 }
    (∀ y, pt.tx = some y → pt.relayQ = [] → n.preemptable p = false → Settles (.egressSchedule p) s n) ∧
    (∀ rest, pt.mark = none → pt.relayQ = [] → pt.own = [] → c < 8 → n.txBlocked p = false → pt.susp = none → n.egQueue p c = x :: rest → n.classReady p c = true →
      (∀ h, c < h → h < 8 → n.classReady p h = false) → (6 ≤ c ∨ bitOf (n.tabW 5 p 0) 51 = false) →
      (pt.tx = none → n.barred p = true → topoFrame (n.frame x.fid).data = false → (n.frame x.fid).bad = false →
        Settles (.egressSchedule p) s ((((n.setPort p pt).setEgQueue p c rest).wr (F.FAB_DISC_COUNT 11)
          (min (n.rd (F.FAB_DISC_COUNT 11) + 1) (2 ^ 32 - 1))).dropCopy x)) ∧
      (starts → pt.tx = none → Settles (.egressSchedule p) s ((n.setEgQueue p c rest).setPort p sending)) ∧
      (∀ y, starts → pt.tx = some y → 6 ≤ c → (∀ h, c < h → h < 8 → n.egQueue p h = []) → y.cls < 6 → n.rd (F.PRT_STATUS_PREEMPT p) = 2 →
        64 * (n.rd (F.PRT_CTRL_FRAG p) + 1) ≤ n.sentBytes p → 64 ≤ n.bytesLeft p → n.fits → Yields (.egressSchedule p) s (fun t =>
        (t.port p).tx = some x ∧ (t.port p).txBytes = padded ∧ (t.port p).susp = some y ∧ (t.port p).suspBytes = pt.txBytes ∧
        (t.port p).suspDone = pt.txDone + n.sentBytes p ∧
        t.egQueue p c = rest ∧ FMap.get 0 t.cnt (p * 64 + 49) = (FMap.get 0 n.cnt (p * 64 + 49) + 1) % 2 ^ 40 ∧
        FMap.get 0 t.cnt (p * 64 + 50) = (FMap.get 0 n.cnt (p * 64 + 50) + 1) % 2 ^ 40 ∧ SameBytes n t))) ∧
    (pt.tx = some x → pt.mark = none → pt.own = [] → n.fab.moving = false → (∀ d ∈ n.fab.descs, d.fid ≠ x.fid) →
      let left := (((((n.cntAdd p 49 (b2n (decide (pt.txDone ≠ 0)))).setPort p { pt with tx := none, txBytes := [], txDone := 0 }).emit
        (.frame p pt.txBytes)).txCount p pt.txBytes)).delivered x.fid x.stream
      (2 ≤ (n.frame x.fid).refs → Settles (.copyTransmitted p) s
        (left.setFrame x.fid { left.frame x.fid with refs := (n.frame x.fid).refs - 1 })) ∧
      ((n.frame x.fid).refs ≤ 1 → n.fits → Yields (.copyTransmitted p) s (fun t =>
        (t.port p).tx = none ∧ Output.frame p pt.txBytes ∈ t.out ∧ t.frame x.fid = {} ∧ (∀ g, g ≠ x.fid → t.frame g = n.frame g) ∧
        (∀ k, k < 26 → n.rd (F.FAB_BANK_STATE k) = 1 → (t.bank k).free = (n.bank k).free ∧
          (t.bank k).returning = (n.bank k).returning + (n.frame x.fid).cells.count k) ∧ SameBytes n t))) ∧
    (∀ t, dueLaunch ((FMap.get [] n.fab.launches p).filter (fun y => n.isDue p y && !n.launchWaits p y)) = some x → x.launch = some t →
      n.txBlocked p = false → n.beforeSilence p (n.wireTime p (n.copyLen p x)) = true → pt.tx = none → pt.mark = none → (∀ d ∈ n.fab.descs, d.fid ≠ x.fid) →
      let rest := { n with fab := { n.fab with launches := FMap.upd [] n.fab.launches p (fun l => l.erase x) } }
      let window : Int := (n.rd (F.TIM_LAUNCHCFG_LATE_WIN p) * 65536 : Nat)
      let after : Int := n.clock.now + n.txConst p - (t : Nat)
      (after ≤ window → starts → Settles (.launchDue p) s (rest.setPort p sending)) ∧
      (window < after →
        (bitOf (n.rd (F.TIM_LAUNCHCFG_LATE_SEND p)) x.cls = true → starts → Settles (.launchDue p) s ((rest.cntAdd p 52 1).setPort p sending)) ∧
        (bitOf (n.rd (F.TIM_LAUNCHCFG_LATE_SEND p)) x.cls = false → Settles (.launchDue p) s ((rest.cntAdd p 52 1).dropCopy x))))

/-- 07 R258, R259; 06 R204: a consist or backbone link comes up at a rate its mode allows, a native backbone link at 1 Gbit/s with a capability record sent; a consist link that comes up without the data island, or in a drill, is held by its PHY (12 R408, R442); a link that goes down shows no rate, and everything queued to it is flushed; auto mode shows what it has found; the capability exchange ends in HITLESS, or after ten records without an answer. -/
def Obligations.Links : Prop :=
  ∀ (s : State) (p : Nat), p < 20 → s.node.fits →
    let n := s.node
    let l := lineOf p
    let e := endOf p
    (∀ rate, n.linksServed = false → n.rateOk p rate = true → 4 ≤ p → p < 16 → n.mode ≠ .off →
      Settles (.linkUp p rate) s { n with pair := { n.pair with links := FMap.put 0 n.pair.links p rate } }) ∧
    (∀ rate, n.linksServed = true → n.relaysFollow → n.rateOk p rate = true → n.joined p = true → n.on (F.PRT_STATUS_LINK p) = false →
      Yields (.linkUp p rate) s (fun t =>
        t.linkUp p = true ∧ t.rd (F.PRT_STATUS_RATE p) = rate ∧ (t.port p).shift = none ∧ (n.inaug.openR = false → SameBytes n t ∧ t.fab = n.fab) ∧
        (p < 4 → t.on (F.BBL_STATUS_LINK l e) = true ∧ t.on (F.BBL_STATUS_HITLESS l e) = false ∧
          t.on (F.BBL_STATUS_COMPAT l e) = n.compat p ∧ t.rd (F.BBL_STATUS_GEAR l e) = (if n.compat p then 5 else 1) ∧
          (n.compat p = false → Output.oam p oamCapability [] ∈ t.out ∧ (t.port p).capN = 1)))) ∧
    (n.linksServed = true → n.on (F.PRT_STATUS_LINK p) = true → Yields (.linkDown p) s (fun t =>
      t.linkUp p = false ∧ t.rd (F.PRT_STATUS_RATE p) = 0 ∧ t.rd (F.PRT_STATUS_PREEMPT p) = 0 ∧ (∀ c, c < 8 → t.egQueue p c = []) ∧
      FMap.get [] t.fab.launches p = [] ∧ (t.port p).tx = none ∧ (t.port p).susp = none ∧ (t.port p).shift = none)) ∧
    (p < 4 →
      (∀ found, n.dataOn = true → n.rd (F.BBL_MODE_MODE l e) = 2 → n.on (F.PRT_STATUS_LINK p) = false →
        Settles (.autoModeDetect p found) s (n.wr (F.BBL_STATUS_COMPAT l e) (b2n found))) ∧
      (n.nativeUp p = true → (n.port p).capGot = false → (n.port p).capN ≤ 10 →
        ((n.port p).capN = 0 → Settles (.capabilityRecordReceived p) s (n.setPort p { n.port p with capGot := true })) ∧
        (0 < (n.port p).capN → Yields (.capabilityRecordReceived p) s (fun t =>
          t.on (F.BBL_STATUS_HITLESS l e) = true ∧ (t.port p).capGot = true ∧ (t.topPort p).rxEpoch = n.epoch ∧ (n.inaug.openR = false → t.fab = n.fab))) ∧
        ((n.port p).capN < 10 → Settles (.capabilityTimer p) s
          ((n.setPort p { n.port p with capN := (n.port p).capN + 1 }).emit (.oam p oamCapability []))) ∧
        ((n.port p).capN = 10 → Settles (.capabilityTimer p) s (n.setPort p { n.port p with capN := 11 }))))

/-- 07 R260 to R265: how a gear shift is proposed, agreed, refused, repeated, dropped and made: GEAR_REQ names gear, start and node; the receiver agrees in a free window, and otherwise names the next start; no shift but a quality downshift starts from the agreement of a directory on; silence keeps the port from sending; at its end the new gear is in force and counted; a quality downshift takes the place of a shift not yet in its silence, asks for a gear at once, with start 0 (log entry 69), and marks the express bound as broken; of two at once that of the lower node identifier proceeds. A request without an answer after its repeats ends with no outcome (the model's choice, log entry 135). -/
def Obligations.Gears : Prop :=
  ∀ (s : State) (p : Nat), p < 4 →
    let n := s.node
    let pt := n.port p
    let l := lineOf p
    let e := endOf p
    let us := 1000 * 65536
    let asks := fun (m : Node) (sh : Shift) (start : Nat) =>
      (m.setPort p { pt with shift := some { sh with start := start, mine := true } }).emit (.oam p oamGearReq [sh.gear, start, n.ident])
    n.hitless p = true →
      (∀ load m2 m3 m4 sh, n.dataOn = true → pt.shift = some sh → sh.acked = true → 2 ≤ n.rd (F.BBL_STATUS_GEAR l e) →
        n.rd (F.BBL_STATUS_GEAR l e) ≤ 4 → Settles (.gearDecision p load m2 m3 m4) s ((n.wr (F.BBL_STATUS_LOAD l e) (min load 255)).wr
          (F.BBL_STATUS_MARGIN l e) (min ([m2, m3, m4].getD (n.rd (F.BBL_STATUS_GEAR l e) - 2) 0) 255))) ∧
      (∀ load m2 m3 m4 g, n.dataOn = true → pt.shift = none → n.gearBarred = false → n.gateCycle p = 0 → n.rd (F.BBL_STATUS_GEAR l e) = 1 → 2 ≤ g → g ≤ 4 →
        load ≤ 255 → bitOf (n.rd (F.BBL_MODE_ALLOWED l e)) (g - 2) = true → n.rd (F.BBL_GEARCFG_SNR_UP l e) ≤ [m2, m3, m4].getD (g - 2) 0 →
        (∀ h, g < h → h ≤ 4 → [m2, m3, m4].getD (h - 2) 0 < n.rd (F.BBL_GEARCFG_SNR_UP l e)) → pt.lastDown = 0 →
        (n.rd (F.BBL_MODE_LOAD_DOWN l e) = 0 ∨ n.rd (F.BBL_MODE_LOAD_UP l e) < load) →
        ∃ v, Settles (.gearDecision p load m2 m3 m4) s
          (asks ({ n.wr (F.BBL_STATUS_LOAD l e) load with freeN := n.freeN + 1 }.wr (F.BBL_STATUS_MARGIN l e) v) { gear := g } (n.clock.now + 50 * us))) ∧
      (∀ m g, g < 8 → RegPasses n m (.BBL_GEARCMD l e) g → n.gearAllowed p g = true → n.rd (F.BBL_STATUS_GEAR l e) ≠ g → pt.shift = none →
        n.gearBarred = false → n.gateCycle p = 0 → Answered (.ownerRequestedShift m p g) s m 0
          ((asks (n.leased m) { gear := g, owner := true } (n.clock.now + 50 * us)).wr (F.BBL_GEARCMD_RESULT l e) 0)) ∧
      (∀ g start node, n.gearAllowed p g = true → n.clock.now + 50 * us ≤ start → start ≤ n.clock.now + 100000 * us → pt.shift = none →
        (n.gearBarred = false → n.inFree p start = true → Settles (.gearReq p g start node) s
          (((n.setPort p { pt with shift := some { gear := g, start := start, acked := true } }).wr (F.BBL_STATUS_SHIFTING l e) 1).emit
            (.oam p oamGearAck []))) ∧
        (pt.wanted = none → n.gearBarred = true ∨ n.inFree p start = false → Settles (.gearReq p g start node) s
          ((n.setPort p { pt with shift := none }).emit (.oam p oamGearNak [(n.nextFree p (max start n.gearFrom)).getD 0]))) ∧
        (∀ w, pt.wanted = some w → w ≠ n.rd (F.BBL_STATUS_GEAR l e) → n.gearBarred = true → Settles (.gearReq p g start node) s
          (((n.setPort p { pt with shift := none }).emit (.oam p oamGearNak [(n.nextFree p (max start n.gearFrom)).getD 0])).setPort p
            { pt with wanted := none, shift := some { gear := w, owner := true, mine := true } }))) ∧
      (∀ g node sh, n.gearAllowed p g = true → pt.shift = some sh → sh.mine = true → sh.quality = true → sh.acked = false → sh.silent = false →
        sh.owner = false →
        (n.ident < node → Settles (.gearReq p g 0 node) s n) ∧
        (node ≤ n.ident → Settles (.gearReq p g 0 node) s
          (((((n.setPort p { pt with shift := some { gear := g, acked := true, quality := true } }).wr (F.BBL_STATUS_SHIFTING l e) 1).emit
            (.oam p oamGearAck [])).wr (F.BBL_STATUS_BOUND_BROKEN l e) 1).fault 9 1 p))) ∧
      (∀ sh, pt.shift = some sh → sh.mine = true → sh.acked = false → sh.quality = false → 0 < sh.start →
        (n.gearBarred = false →
          Settles (.gearAck p) s ((n.setPort p { pt with shift := some { sh with acked := true } }).wr (F.BBL_STATUS_SHIFTING l e) 1)) ∧
        (n.gearBarred = true → Settles (.gearAck p) s (n.setPort p { pt with shift := some { sh with start := 0 } })) ∧
        (∀ next, next ≠ 0 → n.gearBarred = false → n.inFree p next = true → n.clock.now + 50 * us ≤ next → next ≤ n.clock.now + 100000 * us →
          Settles (.gearNak p next) s (asks n { sh with tries := 0 } next)) ∧
        (sh.owner = true → Settles (.gearDeferred p) s
          (((n.setPort p { pt with shift := none }).cntAdd p 61 1).wr (F.BBL_GEARCMD_RESULT l e) 3)) ∧
        (sh.owner = false → Settles (.gearNak p 0) s ((n.setPort p { pt with shift := none }).cntAdd p 61 1) ∧
          Settles (.gearDeferred p) s ((n.setPort p { pt with shift := none }).cntAdd p 61 1)) ∧
        (sh.silent = false → sh.tries < 3 → Settles (.gearRetry p) s
          ((n.setPort p { pt with shift := some { sh with tries := sh.tries + 1 } }).emit (.oam p oamGearReq [sh.gear, sh.start, n.ident]))) ∧
        (sh.silent = false → 3 ≤ sh.tries → pt.wanted = none → Settles (.gearRetry p) s (n.setPort p { pt with shift := none }))) ∧
      (∀ sh, pt.shift = some sh → sh.acked = true →
        (pt.tx = none → n.gearBarred = false ∨ sh.quality = true →
          Settles (.silenceStart p) s (n.setPort p { pt with shift := some { sh with silent := true } })) ∧
        (n.gearBarred = true → sh.quality = false → sh.silent = false → sh.mine = true ∨ pt.wanted = none → Settles (.silenceStart p) s
          ((n.wr (F.BBL_STATUS_SHIFTING l e) 0).setPort p
            { pt with shift := if sh.mine then some { sh with acked := false, start := 0, tries := 0 } else none }))) ∧
      (∀ sh k, pt.shift = some sh → sh.silent = true → sh.gear < 5 → pt.wanted = none → n.fits → Yields (.silenceEnd p k) s (fun t =>
        let old := n.rd (F.BBL_STATUS_GEAR l e)
        let kind := if old ≤ sh.gear then 58 else if sh.quality then 60 else 59
        t.rd (F.BBL_STATUS_GEAR l e) = sh.gear ∧ t.rd (F.PRT_STATUS_RATE p) = sh.gear + 1 ∧ t.on (F.BBL_STATUS_SHIFTING l e) = false ∧
        (t.port p).shift = none ∧ FMap.get 0 t.cnt (p * 64 + kind) = (FMap.get 0 n.cnt (p * 64 + kind) + 1) % 2 ^ 40 ∧
        (sh.gear < old → (t.port p).lastDown = n.clock.fresh + 1))) ∧
      (∀ margin m1 m2 m3, margin < n.rd (F.BBL_GEARCFG_SNR_DOWN l e) → margin ≤ 255 → n.rd (F.BBL_GEARCFG_SNR_DOWN l e) ≤ m1 →
        2 ≤ n.rd (F.BBL_STATUS_GEAR l e) → (∀ sh, pt.shift = some sh → sh.silent = false ∧ sh.quality = false ∧ sh.owner = false) → m2 < n.rd (F.BBL_GEARCFG_SNR_UP l e) → m3 < n.rd (F.BBL_GEARCFG_SNR_UP l e) →
        Settles (.qualityDownshift p margin m1 m2 m3) s
          ((((((n.wr (F.BBL_STATUS_MARGIN l e) margin).wr (F.BBL_STATUS_SHIFTING l e) 0).wr (F.BBL_STATUS_BOUND_BROKEN l e) 1).fault 9 1 p).setPort p
            { pt with shift := some { gear := 1, mine := true, quality := true } }).emit (.oam p oamGearReq [1, 0, n.ident])))

/-- 06 R189, R197, R199, R203, R220; 08 R284, R287, R298, R301 to R304: what a frame that arrives comes to: a bad FCS is counted and nothing is kept; at L1 without a working topology engine a backbone frame goes whole to the same line's other end in class 7; what a barred port receives but topology frames is counted as cause 11 and not kept; a frame no stream context takes is counted as cause 0; another, stamped with the node's epoch or that of the port's receive side, is judged under its context, where one that is not valid counts cause 1, and one that is stored has the cells its length needs. A backbone port stands for its partner under LINES, where it is down, or stale for a train-routed frame, a barred one for none, and the ingress gets no copy (log entry 15). A train-routed frame goes by the bank of its stamp, and the old numbering's addresses through the grace map, or it is discarded. 07 R250, R251; 13 R454: a wake pattern that matches is recorded, and wakes a stabled node. -/
def Obligations.Reception : Prop :=
  (∀ (s : State) (p : Nat) (f : WireFrame), p < 20 → s.node.fits → s.node.receives p = true → s.node.hbTakes p f = false →
     f.symErr = false → f.smdErr = false → f.assyErr = false → 60 ≤ f.bytes.length → f.bytes.length + 4 ≤ s.node.rd (F.PRT_CTRL_MAXLEN p) →
     let n := s.node
     let counted := (n.rxMac p f).2
     let u := untag f.bytes
     (f.fcsOk = false → Yields (.frameReceived p f) s (fun t =>
       FMap.get 0 t.cnt (p * 64 + 19) = (FMap.get 0 n.cnt (p * 64 + 19) + 1) % 2 ^ 40 ∧ t.fab = n.fab ∧ t.chans = n.chans ∧ t.engs = n.engs ∧
       t.inaug = n.inaug ∧ t.brg = n.brg ∧ SameBytes n t)) ∧
     (f.fcsOk = true → pauseOp f.bytes = none →
       (p < 4 → n.level = 1 → n.topoWorks = false → n.linkUp (acrossOf p) = true → n.barred p = false → n.barred (acrossOf p) = false → cellsFor f.bytes.length ≤ n.freeCells →
         Yields (.frameReceived p f) s (fun t =>
           ∃ cells, cells.length = cellsFor f.bytes.length ∧
             t.frame n.fab.nextFid = { data := f.bytes, ingress := p, cls := 7, stamp := n.epoch, cells := cells, refs := 1 } ∧
             t.egQueue (acrossOf p) 7 = n.egQueue (acrossOf p) 7 ++ [{ fid := n.fab.nextFid, stream := 4096, cls := 7, stamp := n.epoch }] ∧
             t.fab.nextFid = n.fab.nextFid + 1 ∧ SameBytes n t)) ∧
       (p < 4 → n.barred p = true → 2 ≤ n.level → topoFrame f.bytes = false → Yields (.frameReceived p f) s (fun t =>
         t.rd (F.FAB_DISC_COUNT 11) = min (n.rd (F.FAB_DISC_COUNT 11) + 1) (2 ^ 32 - 1) ∧ t.fab.frames = n.fab.frames ∧
         t.fab.egress = n.fab.egress ∧ t.fab.engq = n.fab.engq ∧ t.fab.hostq = n.fab.hostq ∧ SameBytes n t)) ∧
       ((p < 4 → n.barred p = false ∧ topoFrame f.bytes = false ∧ (beAt f.bytes 0 6 = 0x0180C200000E → beAt f.bytes 12 2 ≠ 0x88B7)) →
         2 ≤ n.level → n.isPtp p u.body = false → n.isBridge u.body = false → n.isTopoGram u.body = false →
         (n.classify u p = none → Yields (.frameReceived p f) s (fun t =>
           t.rd (F.FAB_DISC_COUNT 0) = min (n.rd (F.FAB_DISC_COUNT 0) + 1) (2 ^ 32 - 1) ∧ t.fab.frames = n.fab.frames ∧
           t.fab.egress = n.fab.egress ∧ t.fab.engq = n.fab.engq ∧ t.fab.hostq = n.fab.hostq ∧ SameBytes n t)) ∧
         (∀ c, n.classify u p = some c → Settles (.frameReceived p f) s
           (counted.enter { data := u.body, ingress := p, stamp := n.stampOf p f.early, tci := u.tci, rseq := u.rseq, ts := n.rxTime p }
             (f.bytes.length + 4) c none).2)))) ∧
  (∀ (n : Node) (f : Frame) (len c : Nat) (l : Option Nat),
     (n.ctxValid c = false → (n.enter f len c l).1 = .invalid ∧
       (n.enter f len c l).2.rd (F.FAB_DISC_COUNT 1) = min (n.rd (F.FAB_DISC_COUNT 1) + 1) (2 ^ 32 - 1) ∧
       (n.enter f len c l).2.fab.frames = n.fab.frames) ∧
     (∀ fid, (n.enter f len c l).1 = .stored fid → n.ctxValid c = true ∧ fid = n.fab.nextFid ∧
       ((n.enter f len c l).2.frame fid).data = f.data ∧ ((n.enter f len c l).2.frame fid).stream = c ∧
       ((n.enter f len c l).2.frame fid).cells.length = cellsFor f.data.length ∧ 1 ≤ ((n.enter f len c l).2.frame fid).refs)) ∧
  (∀ (n : Node) (p : Nat) (early : Bool),
     let own := p < 4 ∧ n.on (F.BBL_STATUS_HITLESS (lineOf p) (endOf p)) = true ∧ n.on (F.BBL_STATUS_COMPAT (lineOf p) (endOf p)) = false
     (own → n.stampOf p early = if early then (n.topPort p).rxPrev else (n.topPort p).rxEpoch) ∧ (¬ own → n.stampOf p early = n.epoch)) ∧
  (∀ (n : Node) (f : Frame) (c q : Nat), q < 4 → f.ingress ≠ q →
     let lines := bitsOf (n.tabW 1 c 0) 57 56
     let base := if lines = 1 then q / 2 * 2 else if lines = 2 then q / 2 * 2 + 1 else q
     let up := fun p => n.linkUp p = true ∧ ¬ (bitsOf (n.tabW 1 c 0) 59 58 = 1 ∧ (n.topPort p).stale = true)
     let takes := fun p => up p ∧ n.barred p = false ∧ p ≠ f.ingress ∧ n.served p = true
     (lines ≠ 3 → n.barred base = true → n.destSet f c [q] = []) ∧
     (lines ≠ 3 → takes base → n.destSet f c [q] = [base]) ∧
     (lines ≠ 3 → n.barred base = false → ¬ up base → takes (mateOf base) → n.destSet f c [q] = [mateOf base]) ∧
     (lines = 3 → takes q → takes (mateOf q) → n.destSet f c [q] = [q / 2 * 2, q / 2 * 2 + 1])) ∧
  (∀ (n : Node) (f : Frame) (c : Nat), bitsOf (n.tabW 1 c 0) 59 58 = 1 →
     let b := f.data
     let tags := (if f.tci.isSome then 4 else 0) + (if f.rseq.isSome then 6 else 0)
     let other := n.otherBank f.stamp
     let dst := ipDst b
     let here := n.isConsist other dst = true ∨ (isTrain dst = true ∧ n.ownPos f.stamp (trainPos dst) = true)
     (f.stamp = n.epoch → other = false) ∧ (f.stamp ≠ n.epoch → n.oldEpoch = some f.stamp → other = true) ∧
     (f.stamp ≠ n.epoch → n.inGrace = false → ∀ k, n.inaug.sched = some k → k.epoch = f.stamp → other = true) ∧
     (beAt b 12 2 ≠ 0x0800 ∨ byteAt b 14 / 16 ≠ 4 ∨ 64 < 14 + tags + 4 * (byteAt b 14 % 16) → n.kindSet f c = none) ∧
     (beAt b 12 2 = 0x0800 → byteAt b 14 / 16 = 4 → 14 + tags + 4 * (byteAt b 14 % 16) ≤ 64 →
       (here → ∀ w, n.trainFind 11 other (dst % 2 ^ 14) = some w → n.kindSet f c = some [bitsOf (w.getD 0 0) 52 48]) ∧
       (¬ here → isTrain dst = true → n.epoch ≠ 0 → trainPos dst ≠ 0 → ∀ w, n.trainRead 9 other (trainPos dst) = some w →
         bitOf (w.getD 0 0) 63 = true → n.kindSet f c = some (portsOf (w.getD 0 0))) ∧
       (¬ here → isTrain dst = false ∨ n.trainRead 9 other (trainPos dst) = none → n.kindSet f c = none))) ∧
  (∀ (n : Node) (c : Copy) (p s d : Nat), c.stream < 4096 → bitsOf (n.tabW 1 c.stream 0) 59 58 = 1 →
     let f := n.frame c.fid
     let old := decide (c.stamp ≠ n.epoch)
     let left := fun a => isTrain a = true ∧ n.newPos (trainPos a) = none
     (c.stamp ≠ n.epoch → n.oldEpoch ≠ some c.stamp → n.edit c p = .expired) ∧
     (c.stamp ≠ n.epoch → n.oldEpoch = some c.stamp → left (ipSrc f.data) ∨ left (ipDst f.data) → n.edit c p = .gone) ∧
     (34 ≤ f.data.length → 5 ≤ byteAt f.data 14 % 16 →
      (c.stamp = n.epoch ∧ s = ipSrc f.data ∧ d = ipDst f.data) ∨
        (c.stamp ≠ n.epoch ∧ n.oldEpoch = some c.stamp ∧ n.graceAddr (ipSrc f.data) = some s ∧ n.graceAddr (ipDst f.data) = some d) →
      ∃ mac rest, n.edit c p = .send (beBytes 6 mac ++ n.portMac p ++ n.egressTags f c p ++ rest) ∧
        beAt rest 14 4 = (if p < 4 ∧ n.position ≠ 0 ∧ n.isConsist old s = true then trainAddr n.position s else s) % 2 ^ 32 ∧
        beAt rest 18 4 = (if 4 ≤ p ∧ n.position ≠ 0 ∧ isTrain d = true ∧ trainPos d = n.position then n.localPrefix old * 2 ^ 14 + d % 2 ^ 14 else d))) ∧
  (∀ (s : State) (p k : Nat) (f : WireFrame), s.node.wakeFind p f = some k →
     let n := s.node
     let seen := (F.PRT_WAKE_STATUS_MATCHES, min (n.rd F.PRT_WAKE_STATUS_MATCHES + 1) (2 ^ F.PRT_WAKE_STATUS_MATCHES.w - 1)) ::
       if n.on F.PRT_WAKE_STATUS_VALID then [] else
         [(F.PRT_WAKE_STATUS_VALID, 1), (F.PRT_WAKE_STATUS_PATTERN, k), (F.PRT_WAKE_STATUS_PORT, p)]
     n.wakeArmed k p = true ∧ (∀ j, j < k → n.wakeArmed j p = true → n.wakeHit j (f.bytes ++ leBytes 4 (crc32 f.bytes)) = false) ∧
     (n.mode ≠ .stabled → Settles (.wakePatternMatch p f) s (n.wrs seen)) ∧
     (n.mode = .stabled → Yields (.wakePatternMatch p f) s (Restarted (n.fault 0 3 0) 7)))

/-- 05 R185 to R188; 14 R507: a transmit descriptor with a length out of range is completed with INVALID and nothing enters; one whose frame is stored is kept until its write-back; a frame that waits for a ring is written to the buffer of the descriptor at HEAD, one whose OWN is set (log entry 74), with the whole frame's length where the buffer cuts it (log entry 75), of a size taken as it stands and with the ring's vector at every frame (log entry 139): then bytes 08h to 1Fh but 0Ch, then 0Ch with OWN clear; TAIL and EN take what is written; an interrupt source enabled while its condition holds sends one message. -/
def Obligations.HostRings : Prop :=
  ∀ (s : State) (r : Nat), r < 16 →
    let n := s.node
    let txHead := n.rd (F.HST_TXHEAD_INDEX r)
    let txRing := 2 ^ (n.rd (F.HST_TXCTRL_SIZE r) + 4)
    let txBase := n.rd (F.HST_TXBASE_HI_ADDR r) * 2 ^ 32 + n.rd (F.HST_TXBASE_LO_ADDR r) * 4096 + 32 * txHead
    let rxHead := n.rd (F.HST_RXHEAD_INDEX r)
    let rxRing := 2 ^ (n.rd (F.HST_RXCTRL_SIZE r) + 4)
    let rxBase := n.rd (F.HST_RXBASE_HI_ADDR r) * 2 ^ 32 + n.rd (F.HST_RXBASE_LO_ADDR r) * 4096 + 32 * rxHead
    (∀ d payload, d.length = 32 → n.dataOn = true → 2 ≤ n.level → n.on (F.HST_TXCTRL_EN r) = true →
      (n.rd (F.HST_TXTAIL_INDEX r) + txRing - txHead) % txRing ≠ 0 → bitOf (byteAt d 12) 0 = true →
      let len := leAt d 8 2
      let c := leAt d 10 2
      let next := fun (m : Node) => m.wr (F.HST_TXHEAD_INDEX r) ((txHead + 1) % txRing)
      (len < 14 ∨ 9216 < len → bitOf (byteAt d 12) 3 = false → ∃ wb, wb.length = 19 ∧ wb.take 3 = slice d 13 3 ∧ byteAt wb 15 = 8 ∧
        (wb.drop 3).take 12 = zeros 12 ∧ wb.drop 16 = zeros 3 ∧
        Settles (.hostTxDescriptorFetch r d payload) s
          (((next n).emit (.hostBack (txBase + 8) (slice d 8 4) wb)).emit (.hostWrite (txBase + 12) [BitVec.ofNat 8 (byteAt d 12 / 2 * 2)]))) ∧
      (14 ≤ len → len ≤ 9216 → c < 4096 → byteAt d 12 = 1 → byteAt d 13 = 0 → leAt d 14 2 = 0 → (∀ j, j < 6 → byteAt d (26 + j) = 0) →
        n.isBridge (fit len payload) = false → n.ctxValid c = true → ∀ fid m,
        n.enter { data := fit len payload, ingress := 20, stamp := n.epoch } (len + 4) c none = (.stored fid, m) →
        Settles (.hostTxDescriptorFetch r d payload) s (next { m with fab := { m.fab with
          descs := m.fab.descs ++ [{ ring := r, idx := txHead, bytes := d, fid := fid, port := m.lowestPort fid }] } }))) ∧
    (∀ x rest d, FMap.get [] n.fab.hostq r = x :: rest → d.length = 32 → n.dataOn = true → n.on (F.HST_RXCTRL_EN r) = true →
      (n.rd (F.HST_RXTAIL_INDEX r) + rxRing - rxHead) % rxRing ≠ 0 → bitOf (byteAt d 12) 0 = true → (n.frame x.fid).bad = false → 2 ≤ (n.frame x.fid).refs →
      let f := n.frame x.fid
      let size := leAt d 8 2
      let taken := { n with fab := { n.fab with hostq := FMap.put [] n.fab.hostq r rest } }
      ∃ wb, wb.length = 19 ∧ bitOf (byteAt wb 0) 0 = f.oversize ∧ bitOf (byteAt wb 0) 1 = f.tci.isSome ∧
        bitOf (byteAt wb 0) 2 = f.rseq.isSome ∧ bitOf (byteAt wb 0) 3 = (x.stamp != n.epoch) ∧
        bitOf (byteAt wb 0) 4 = decide (size < f.data.length) ∧ leAt wb 1 2 = x.stamp % 2 ^ 16 ∧
        leAt wb 3 6 = secOf f.ts % 2 ^ 48 ∧ leAt wb 9 4 = nsOf f.ts ∧ leAt wb 13 2 = fracOf f.ts ∧
        leAt wb 15 2 = (f.tci.getD 0) % 2 ^ 16 ∧ leAt wb 17 2 = (f.rseq.getD 0) % 2 ^ 16 ∧
        Settles (.hostRxDelivery r d) s
          ((((((taken.emit (.hostWrite (leAt d 0 8) (f.data.take size))).emit
            (.hostBack (rxBase + 8) (leBytes 2 f.data.length ++ leBytes 2 x.stream) wb)).emit
            (.hostWrite (rxBase + 12) [BitVec.ofNat 8 (byteAt d 12 / 2 * 2)])).wr (F.HST_RXHEAD_INDEX r) ((rxHead + 1) % rxRing)).emit
            (.msix (16 + r))).setFrame x.fid { f with
              refs := f.refs - 1, left := if FMap.get 0 f.left x.stream = 0 then f.left else FMap.put 0 f.left x.stream 0 })) ∧
    (∀ m tx i, i < 4096 → RegPasses n m (if tx then .HST_TXTAIL r else .HST_RXTAIL r) i →
      Answered (.tailWrite m tx r i) s m 0 ((n.leased m).wr (if tx then F.HST_TXTAIL_INDEX r else F.HST_RXTAIL_INDEX r) i)) ∧
    (∀ m, (n.rd (F.HST_TXCTRL_SIZE r) < 16 → RegPasses n m (.HST_TXCTRL r) (n.rd (F.HST_TXCTRL_SIZE r)) → n.rd (F.HST_TXCTRL_EN r) < 2 →
        Answered (.ringDisable m true r) s m 0 ((n.leased m).wr (F.HST_TXCTRL_EN r) 0)) ∧
      (let v := n.rd (F.HST_RXCTRL_ACCEPT_OVS r) * 2 ^ 30 + n.rd (F.HST_RXCTRL_SIZE r)
       n.rd (F.HST_RXCTRL_SIZE r) < 16 → n.rd (F.HST_RXCTRL_ACCEPT_OVS r) < 2 → n.rd (F.HST_RXCTRL_EN r) < 2 →
        RegPasses n m (.HST_RXCTRL r) v → Answered (.ringDisable m false r) s m 0 ((n.leased m).wr (F.HST_RXCTRL_EN r) 0))) ∧
    (∀ m src vector, src < 64 → 36 ≤ vector → vector < 64 → RegPasses n m (.HST_IRQ_SRC src) (2 ^ 31 + vector) →
      let on := (n.leased m).wrs [(F.HST_IRQ_SRC_VECTOR src, vector), (F.HST_IRQ_SRC_EN src, 1)]
      (n.irqCond src = false ∨ n.on (F.HST_IRQ_SRC_EN src) = true → Answered (.irqSourceEnable m src vector) s m 0 on) ∧
      (n.irqCond src = true → n.on (F.HST_IRQ_SRC_EN src) = false → Answered (.irqSourceEnable m src vector) s m 0 (on.emit (.msix vector))))

/-- 06 R224 to R229; 02 R68: a bank over its error limits drains, with a spare in service whose cells come one by one; what is left is moved off it, of frames, channels and engines, but for frames being read; at D of zero it is retired. FREEZE takes a snapshot whose cells sum to those of the banks in service and the drain, and shows DONE at its end. Memory errors are counted when corrected, and otherwise recorded, with the instance in ARG as log entry 42 has it, a mailbox's as a signal store's (log entry 108), and what they hit is marked: of the packet buffer the frame, entry or output that holds the cell, as log entry 136 has it. -/
def Obligations.BufferAndErrors : Prop :=
  ∀ (s : State) (b : Nat), b < 26 →
    let n := s.node
    let state := n.rd (F.FAB_BANK_STATE b)
    let worn := n.rd F.FAB_BANK_CE_LIMIT_LIMIT < n.rd (F.FAB_BANK_CE_HOUR b) ∨ 2 ≤ n.rd (F.FAB_BANK_UE24 b)
    let leaving := (((n.fab.frames.map (·.1)).eraseDups.filter (fun i => !n.beingRead i)).map (fun i => (n.frame i).cells.count b)).sum +
      ((List.range 10).map (fun c => let x := n.chan c; (x.txq.map (·.cells) ++ x.rx.map (·.cells) ++ x.srcCells.map (·.2)).flatten.count b)).sum +
      ((List.range 19).map (fun e => let x := (n.eng e).act; (x.txCells ++ x.backCells ++ heldCells x).count b)).sum
    let moved := fun l l' : List Nat => l'.length = l.length ∧ b ∉ l' ∧ ∀ j, j < l.length → l.getD j 0 ≠ b → l'.getD j 0 = l.getD j 0
    let hit := ({ n with fab := { n.fab with ueAt := n.fab.ueAt ++ [(b, n.clock.fresh)] } }.wr (F.FAB_BANK_UE24 b)
      (min 255 ((n.fab.ueAt.filter (fun x : Nat × Nat => x.1 == b)).length + 1))).fault 0 2 (256 * b)
    (n.dataOn = true → state = 1 → worn → b ∉ n.fab.drainWait →
      let told := n.fault 7 1 b
      (n.on F.FAB_STATUS_DRAINING = true →
        Settles (.bankDrainStart b) s { told with fab := { n.fab with drainWait := n.fab.drainWait ++ [b] } }) ∧
      (n.on F.FAB_STATUS_DRAINING = false → ∀ k, k < 26 → n.rd (F.FAB_BANK_STATE k) = 0 → (∀ j, j < k → n.rd (F.FAB_BANK_STATE j) ≠ 0) →
        let draining := (told.wrs [(F.FAB_BANK_STATE b, 2), (F.FAB_STATUS_DRAINING, 1), (F.FAB_STATUS_DRAIN_BANK, b), (F.FAB_BANK_STATE k, 1)]).setBank b {}
        Settles (.bankDrainStart b) s
          ({ draining with fab := { draining.fab with drainCells := 4096 - (n.bank b).free - (n.bank b).returning } }.setBank k
            { free := 0, returning := 4096 }))) ∧
    (state = 1 → 0 < (n.bank b).returning → Settles (.spareCellRelease b) s
      (n.setBank b { n.bank b with free := (n.bank b).free + 1, returning := (n.bank b).returning - 1 })) ∧
    (n.fits → n.on F.FAB_STATUS_DRAINING = true → n.rd F.FAB_STATUS_DRAIN_BANK = b → state = 2 →
      leaving ≤ n.freeCells → Yields .drainMove s (fun t =>
        (∀ fid, n.beingRead fid = true → t.frame fid = n.frame fid) ∧
        (∀ fid, n.beingRead fid = false → t.frame fid = { n.frame fid with cells := (t.frame fid).cells } ∧ moved (n.frame fid).cells (t.frame fid).cells) ∧
        (∀ c, c < 10 →
          let x := n.chan c
          let y := t.chan c
          y = { x with txq := y.txq, rx := y.rx, srcCells := y.srcCells } ∧
          EachTo (fun u v => v = { u with cells := v.cells } ∧ moved u.cells v.cells) x.txq y.txq ∧
          EachTo (fun u v => v = { u with cells := v.cells } ∧ moved u.cells v.cells) x.rx y.rx ∧
          EachTo (fun u v => v.1 = u.1 ∧ moved u.2 v.2) x.srcCells y.srcCells) ∧
        (∀ e, e < 19 →
          let x := n.eng e
          let y := t.eng e
          y = { x with act := { x.act with txCells := y.act.txCells, backCells := y.act.backCells, outs := y.act.outs } } ∧
          moved x.act.txCells y.act.txCells ∧ moved x.act.backCells y.act.backCells ∧
          EachTo (fun u v => match u, v with
            | .frame g, .frame h => h = { g with cells := h.cells } ∧ moved g.cells h.cells
            | g, h => h = g) x.act.outs y.act.outs) ∧
        t.fab.drainCells = n.fab.drainCells - leaving)) ∧
    (n.on F.FAB_STATUS_DRAINING = true → n.rd F.FAB_STATUS_DRAIN_BANK = b → n.fab.drainCells = 0 → n.fab.drainWait = [] →
      Settles .bankRetire s (({ n with fab := { n.fab with moving := false } }.wrs [(F.FAB_BANK_STATE b, 3), (F.FAB_STATUS_DRAINING, 0), (F.FAB_STATUS_DRAIN_BANK, 0)]).fault 7 1 (b + 256))) ∧
    (n.fab.freezing = true → Settles .freezeDone s ({ n with fab := { n.fab with freezing := false } }.wrs
      [(F.FAB_FREEZE_SEQ, n.rd F.FAB_FREEZE_SEQ + 1), (F.FAB_FREEZE_DONE, 1)])) ∧
    (∀ m, RegPasses n m .FAB_FREEZE 1 → n.fab.freezing = false → n.fits → Yields (.freeze m) s (fun t =>
      t.fab.freezing = true ∧ t.on F.FAB_FREEZE_DONE = false ∧ t.rd F.FAB_SNAP_FREE_COUNT = n.freeCells % 2 ^ 17 ∧
      t.rd F.FAB_SNAP_RETURN_COUNT = n.returningCells % 2 ^ 17 ∧ t.rd F.FAB_SNAP_DRAIN_COUNT = n.fab.drainCells % 2 ^ 17 ∧
      (n.freeCells + n.returningCells ≤ 4096 * n.banksN + n.fab.drainCells → 4096 * n.banksN + n.fab.drainCells < 2 ^ 17 →
        t.rd F.FAB_SNAP_FREE_COUNT + t.rd F.FAB_SNAP_ALLOC_COUNT + t.rd F.FAB_SNAP_RETURN_COUNT = 4096 * n.banksN + n.fab.drainCells) ∧
      SameBytes n t ∧ t.engs = n.engs ∧ t.fab.frames = n.fab.frames)) ∧
    (∀ a, n.dataOn = true →
      Settles (.scrubWord .packet b a false) s (n.wr (F.FAB_BANK_CE_HOUR b) (min (n.rd (F.FAB_BANK_CE_HOUR b) + 1) (2 ^ 16 - 1))) ∧
      (a < 2 ^ 32 →
        (b ∈ (n.frame a).cells → Settles (.scrubWord .packet b a true) s (hit.setFrame a { n.frame a with bad := true })) ∧
        (∀ c x, c < 10 → (n.chan c).rx.find? (fun z => z.id == a && !z.held) = some x → b ∈ x.cells →
          Settles (.scrubWord .packet b (a + 2 ^ 32 + c * 2 ^ 35) true) s
            (((hit.setChan c { n.chan c with rx := (n.chan c).rx.filter (fun y => y.id != a) }).returnCells x.cells).disc 8)) ∧
        (∀ c x, c < 10 → (n.chan c).txq[a]? = some x → x.trying = true → b ∈ x.cells →
          Settles (.scrubWord .packet b (a + 2 * 2 ^ 32 + c * 2 ^ 35) true) s
            ((hit.setChan c { n.chan c with txq := (n.chan c).txq.set a { x with flush := true } }).disc 8)) ∧
        (∀ e g, e < 19 → (n.eng e).act.outs[a]? = some (.frame g) → b ∈ g.cells →
          Settles (.scrubWord .packet b (a + 4 * 2 ^ 32 + e * 2 ^ 35) true) s (hit.setEng e { n.eng e with
            act := { (n.eng e).act with outs := (n.eng e).act.outs.set a (.frame { g with bad := true }) } })) ∧
        (∀ e, e < 19 → b ∈ (n.eng e).act.txCells → Settles (.scrubWord .packet b (a + 5 * 2 ^ 32 + e * 2 ^ 35) true) s
          (hit.setEng e { n.eng e with act := { (n.eng e).act with txBad := true } }))) ∧
      (0x40000000 ≤ a → a < 0x40600000 → a / 8 * 8 ∉ n.poison →
        Settles (.scrubWord .table b a true) s ({ n with poison := a / 8 * 8 :: n.poison }.fault 0 2 1)) ∧
      (b < 18 → mboxBase b ≤ a → a < mboxBase b + 0x1000 → a / 8 * 8 ∉ n.poison →
        Settles (.scrubWord .signal b a true) s ({ n with poison := a / 8 * 8 :: n.poison }.fault 0 2 (2 + 256 * b))) ∧
      (b < 18 → sigBase b ≤ a → a < sigBase b + 0x3F000 → ∃ mem,
        Settles (.scrubWord .signal b a true) s ({ n with mem := mem }.fault 0 2 (2 + 256 * b)) ∧
        (∀ q, q < 64 → bitOf (rd64 mem (a / 16 * 16 + 8)) q = (bitOf (rd64 n.mem (a / 16 * 16 + 8)) q || q == 62)) ∧
        ∀ y, y < a / 16 * 16 + 8 ∨ a / 16 * 16 + 16 ≤ y → memRead mem y = memRead n.mem y) ∧
      (b < 19 → codeBase b ≤ a → a < codeBase b + codeSize b → (n.eng b).phase = .running → a / 8 * 8 ∉ n.poison →
        Settles (.scrubWord .code b a true) s { n.fault 0 2 (3 + 256 * b) with poison := a / 8 * 8 :: n.poison })) ∧
    (∀ a, n.fits → n.mode ≠ .off → n.pair.agree.isSome = true → Yields (.scrubWord .mram 2 a true) s (fun t =>
      t.pair.agree = none ∧ t.pair.ckpts = n.pair.ckpts ∧ t.fab = n.fab ∧ SameBytes n t))

/-- 08 R274, R276 to R278, R281, R282, R285: the HELLO a node sends, and what a neighbour's HELLO, its silence, another epoch for 3 ms, or a REPORT does: a new neighbour, a division or a REPORT the node does not hold starts a round; a HELLO that shows nothing new is recorded only; a REPORT of an open round is held, relayed along its line and queued; one that falls on a round which has proposed ends that round (R294); a copy the node has relayed along its line, and its own frame, change nothing, and the first copy of a known frame on the other line is relayed only; a frame that fails the checks is counted. What clears STALE is as log entry 63 has it. 08 R310: a TN7 is recorded, and forgotten after 3 s. -/
def Obligations.NeighboursAndReports : Prop :=
  ∀ (s : State) (p : Nat) (b : List Byte), p < 4 → s.node.fits →
    let n := s.node
    let t := n.topPort p
    let idle := n.inaug.openR = false ∧ n.inaug.sched = none ∧ n.inaug.waiting = false
    let sender := leAt b 18 6
    let got := n.counted p b
    let line := lineOf p
    (n.topoWorks = true → Yields .helloTimer s (fun m =>
      m.inaug = n.inaug ∧ m.fab = n.fab ∧ ∀ q, q < 4 → n.hitless q = true → n.txFree q → ∃ h, Output.frame q h ∈ m.out ∧
        beAt h 0 6 = 0x0180C200000E ∧ beAt h 12 2 = 0x88B5 ∧ beAt h 14 2 = 0x5439 ∧ byteAt h 16 = 1 ∧ byteAt h 17 = 1 ∧
        leAt h 18 6 = n.ident % 2 ^ 48 ∧ leAt h 24 2 = n.inaug.round % 2 ^ 16 ∧ leAt h 26 2 = n.epoch % 2 ^ 16 ∧ leAt h 28 2 = 36 ∧
        slice h 30 16 = n.consistId ∧ slice h 46 16 = n.vehicleId ∧ byteAt h 62 = q ∧ byteAt h 63 = n.position % 256 ∧
        byteAt h 65 = n.level % 256)) ∧
    (TopoArrives n p b 1 36 →
      (idle → t.valid = false → t.recSet = false → t.hello = [] ∨ slice t.hello 16 36 ≠ slice b 30 36 → n.topoRoom b → Yields (.hello p b) s (fun m =>
        RoundStarted n m ∧ QueuedTopo n m p b ∧ (m.topPort p).valid = true ∧ (m.topPort p).hello = slice b 14 52)) ∧
      (t.valid = true → t.recSet = true → t.recVid = slice b 46 16 → slice t.hello 16 36 = slice b 30 36 → topoSender t.hello = sender →
        t.recNode = sender → Settles (.hello p b) s (got.setTopPort p
          { t with hello := slice b 14 52, stale := t.stale && (leAt b 26 2 != n.epoch || n.barred p) }))) ∧
    (t.valid = true →
      (n.linkUp (mateOf p) = true → (n.topPort (mateOf p)).valid = true → n.inaug.openR = false →
        Settles (.neighbourTimeout p) s (n.setTopPort p { t with valid := false })) ∧
      (n.linkUp p = false → Settles (.neighbourTimeout p) s (n.setTopPort p { t with valid := false })) ∧
      (n.linkUp p = true → (n.linkUp (mateOf p) = false ∨ (n.topPort (mateOf p)).valid = false) → n.topoWorks = true → idle →
        Yields (.neighbourTimeout p) s (fun m => RoundStarted n m ∧ (m.topPort p).valid = false)) ∧
      (n.topoWorks = true → idle → n.inaug.agreed = 0 → n.inaug.takenOver = false ∨ n.nbrRecorded p = false → leAt t.hello 12 2 ≠ n.epoch →
        Yields (.epochDifferenceTimeout p) s (fun m => RoundStarted n m ∧ (n.inGrace = true → (m.topPort p).stale = true)))) ∧
    (TopoArrives n p b 2 76 → floodKey (slice b 14 92) ∉ n.inaug.seen → sender ≠ n.ident → n.ident < 2 ^ 48 → n.topoRoom b →
      let relayed := fun m : Node => (line, floodKey (slice b 14 92)) ∉ n.inaug.relayed → n.nativeUp (acrossOf p) = true → n.txFree (acrossOf p) →
        ∃ h, Output.frame (acrossOf p) h ∈ m.out ∧ slice h 14 92 = slice b 14 92
      (idle → Yields (.report p b) s (fun m =>
        RoundStarted n m ∧ QueuedTopo n m p b ∧ relayed m ∧ ∃ r ∈ m.inaug.reports, r.sender = sender ∧ r.body = slice b 14 92)) ∧
      (n.inaug.openR = true → n.inaug.proposed = true → n.inaug.sched = none → n.log.staged.length < 64 → Yields (.report p b) s (fun m =>
        QueuedTopo n m p b ∧ relayed m ∧ RoundFailed n m 4 ∧ Floods n m 5 (n.inaug.round % 2 ^ 16))) ∧
      (n.inaug.openR = true → n.inaug.proposed = false → n.inaug.sched = none → Yields (.report p b) s (fun m =>
        QueuedTopo n m p b ∧ relayed m ∧ m.inaug.openR = true ∧ m.inaug.round = n.inaug.round ∧
        m.inaug.reports = n.inaug.reports.filter (fun r => r.sender != sender) ++ [Flood.mk sender (slice b 14 92)]))) ∧
    (∀ ty c, (ty, c) ∈ [(2, Instr.report p b), (3, .propose p b), (4, .confirmRound p b), (5, .abortRound p b)] → ∀ len,
      topoLen ty = some len → TopoArrives n p b ty len → (floodKey (slice b 14 (16 + len)) ∈ n.inaug.seen ∧ (line, floodKey (slice b 14 (16 + len))) ∈ n.inaug.relayed) ∨ sender = n.ident →
      Settles c s got) ∧
    (∀ ty c, (ty, c) ∈ [(2, Instr.report p b), (3, .propose p b), (4, .confirmRound p b), (5, .abortRound p b)] → ∀ len,
      topoLen ty = some len → TopoArrives n p b ty len → sender ≠ n.ident → n.clock.held = none →
      let key := floodKey (slice b 14 (16 + len))
      key ∈ n.inaug.seen → (line, key) ∉ n.inaug.relayed → Yields c s (fun m =>
        m.inaug = { n.inaug with relayed := (line, key) :: n.inaug.relayed } ∧ m.fab = n.fab ∧
        (n.nativeUp (acrossOf p) = true → n.txFree (acrossOf p) →
          ∃ h, Output.frame (acrossOf p) h ∈ m.out ∧ slice h 14 (16 + len) = slice b 14 (16 + len)))) ∧
    (WireIn n p b → byteAt b 15 ≠ 0x37 → topoOk (b.drop 14) = false →
      ∀ c ∈ [Instr.hello p b, .report p b, .propose p b, .confirmRound p b, .abortRound p b, .mark p b],
        Settles c s ((got.wr F.TOP_BADFRAMES_COUNT (min (n.rd F.TOP_BADFRAMES_COUNT + 1) (2 ^ 32 - 1))).pviol 0 p)) ∧
    (n.inaug.openR = false →
      (WireIn n p b → slice b 14 4 = [0x54, 0x37, 1, 7] → slice b 24 6 = zeros 6 →
        Settles (.tn7Ident p b) s (got.setTopPort p { t with tn7 := true })) ∧
      Settles (.tn7RecordExpiry p) s (n.setTopPort p { t with tn7 := false }))

/-- 08 R285, R287, R290, R291, R294, R312: discovery ends with a closed set, or in standard mode when the standard's does (log entry 134), of at most 63 nodes; a larger set sets OVER63, bars the coupling ports and ends in an ABORT with cause 6; 25 ms without an end give cause 4, but not in standard mode; a missing PROPOSE or CONFIRM gives cause 3; a PROPOSE of the round is held, relayed and queued, one with another digest gives cause 1 and one with another epoch cause 2; a received ABORT drops the round or cancels the commit, but one of no current round, or later than 2 ms before T_commit, shows its cause only; a new neighbour ends a round that has proposed, or cancels the commit, or is kept where it comes later; after the wait discovery starts again. 04 R148; 08 R282, R288 to R293: what the TOPO outputs do on release: the candidate, PROPOSE and CONFIRM with what they agree on, the commit, which a grace interval defers, its cancellation, and a round asked for, which is counted where one is open; outside a round, and while a commit is scheduled, they are as log entry 38 has it. 13 R467: a PROPOSE or CONFIRM of no current round is a partner violation and is not held. -/
def Obligations.Rounds : Prop :=
  ∀ (s : State) (p : Nat) (b : List Byte), s.node.fits → s.node.log.staged.length < 64 →
    let n := s.node
    let i := n.inaug
    let sender := leAt b 18 6
    let round := leAt b 24 2
    let known := ∃ f ∈ i.reports, f.sender = sender ∧ topoRound f.body = round
    let fails := fun (c : Instr) (cause : Nat) => Yields c s (fun t => RoundFailed n t cause ∧ Floods n t 5 (i.round % 2 ^ 16))
    let lacks := fun l : List Flood => ∃ k, k < i.dirCount ∧ ∀ f ∈ l, f.sender ≠ i.dirW (k + 1) 0 % 2 ^ 48
    (i.openR = true → i.ended = false → i.proposed = false →
      (n.on F.TOP_INAUG_STANDARD = true ∨ closedSet i.reports = true → i.reports.length ≤ 63 →
        Settles .discoveryEnd s ({ n with inaug := { i with ended := true } }.wr F.TOP_INAUG_STANDARD (b2n n.standardRound))) ∧
      (n.on F.TOP_INAUG_STANDARD = true ∨ closedSet i.reports = true → 63 < i.reports.length → Yields .discoveryEnd s (fun t =>
        t.on F.TOP_INAUG_OVER63 = true ∧ t.rd F.TOP_INAUG_CAUSE = 6 ∧ t.inaug.openR = false ∧ t.inaug.waiting = true ∧
        Floods n t 5 (i.round % 2 ^ 16) ∧ ∀ q, q < 4 → n.linkUp q = true → (n.topPort q).valid = true →
          ((n.topPort q).recSet = false ∨ slice (n.topPort q).hello 32 16 ≠ (n.topPort q).recVid) →
          bitOf (t.rd F.TOP_INAUG_BARRED) q = true ∧ (t.topPort q).stale = true)) ∧
      (n.on F.TOP_INAUG_STANDARD = true → Settles .discoveryTimeout s n) ∧ (n.on F.TOP_INAUG_STANDARD = false → fails .discoveryTimeout 4)) ∧
    (i.openR = true → i.proposed = true → i.confirmed = false → lacks i.proposes → fails .proposeTimeout 3) ∧
    (i.openR = true → i.confirmed = true → i.sched = none → lacks i.confirms → fails .confirmTimeout 3) ∧
    (i.waiting = true → i.openR = false → n.topoWorks = true → i.sched = none → Yields .roundRetry s (RoundStarted n)) ∧
    (n.topoRoom b → sender ≠ n.ident →
      (TopoArrives n p b 3 8 → (3, sender, round, 0) ∉ i.seen → i.openR = true → known →
        let holds := fun t : Node => QueuedTopo n t p b ∧ ((lineOf p, (3, sender, round, 0)) ∉ i.relayed → n.nativeUp (acrossOf p) = true → n.txFree (acrossOf p) →
          ∃ h, Output.frame (acrossOf p) h ∈ t.out ∧ slice h 14 24 = slice b 14 24)
        ((i.proposed = false ∨ (leAt b 30 2 = i.dirEpoch ∧ leAt b 34 4 = i.dirDigest)) → Yields (.propose p b) s (fun t =>
          holds t ∧ t.inaug.proposes = i.proposes ++ [Flood.mk sender (slice b 14 24)] ∧ t.inaug.openR = true)) ∧
        (i.proposed = true → leAt b 30 2 ≠ i.dirEpoch → Yields (.propose p b) s (fun t =>
          holds t ∧ RoundFailed n t 2 ∧ Floods n t 5 (i.round % 2 ^ 16))) ∧
        (i.proposed = true → leAt b 30 2 = i.dirEpoch → leAt b 34 4 ≠ i.dirDigest → Yields (.propose p b) s (fun t =>
          holds t ∧ RoundFailed n t 1 ∧ Floods n t 5 (i.round % 2 ^ 16)))) ∧
      (TopoArrives n p b 3 8 → (3, sender, round, 0) ∉ i.seen → (i.openR = false ∨ ¬ known) → Yields (.propose p b) s (fun t =>
        t.inaug.proposes = i.proposes ∧ t.rd (F.HLT_PVIOL_COUNT 2) = min (n.rd (F.HLT_PVIOL_COUNT 2) + 1) (2 ^ 32 - 1) ∧ t.fab = n.fab)) ∧
      (TopoArrives n p b 4 18 → (4, sender, round, 0) ∉ i.seen → i.openR = true → known → n.clock.held = none →
        Yields (.confirmRound p b) s (fun t => QueuedTopo n t p b ∧ t.inaug.openR = true ∧
          t.inaug.confirms = i.confirms ++ [Flood.mk sender (slice b 14 34)])) ∧
      (TopoArrives n p b 5 4 → (5, sender, round, 0) ∉ i.seen →
        (i.openR = true → known → i.sched = none ∨ (∃ c, i.sched = some c ∧ n.clock.cycles + 500000 < c.count) → byteAt b 30 % 8 ≠ 6 →
          Yields (.abortRound p b) s (fun t => QueuedTopo n t p b ∧ RoundFailed n t (byteAt b 30 % 8))) ∧
        ((i.openR = false ∨ ¬ known ∨ ∃ c, i.sched = some c ∧ c.count ≤ n.clock.cycles + 500000) →
          Yields (.abortRound p b) s (fun t => QueuedTopo n t p b ∧ t.rd F.TOP_INAUG_CAUSE = byteAt b 30 % 8 ∧
            t.inaug.openR = i.openR ∧ t.inaug.sched = i.sched ∧ t.inaug.reports = i.reports ∧ t.inaug.confirms = i.confirms)))) ∧
    (TopoArrives n p b 1 36 → n.inSched sender = false → (n.topPort p).recSet = false ∨ slice b 46 16 ≠ (n.topPort p).recVid →
      ((i.sched = none ∧ i.openR = true ∧ i.proposed = true) ∨ (∃ c, i.sched = some c ∧ n.clock.cycles + 500000 < c.count) →
        Yields (.hello p b) s (fun t => RoundFailed n t 4 ∧ Floods n t 5 (i.round % 2 ^ 16))) ∧
      (∀ c, i.sched = some c → c.count ≤ n.clock.cycles + 500000 →
        Yields (.hello p b) s (fun t => t.inaug.late = true ∧ t.inaug.sched = i.sched ∧ t.inaug.openR = i.openR))) ∧
    (∀ k ws, FMap.get [] (n.candWrite k ws).inaug.cands k = ws ∧ ∀ j, j ≠ k → FMap.get [] (n.candWrite k ws).inaug.cands j = FMap.get [] i.cands j) ∧
    (∀ e, e < 2 ^ 16 → i.sched = none → i.openR = true →
      let count := i.candCount
      let digest := dirDigestOf e count ((List.range count).map (fun k => i.candWords (k + 1))).flatten
      let m := n.agree0 e
      let c := n.agree1 e
      ((∀ f ∈ i.proposes, leAt f.body 16 2 = e ∧ leAt f.body 20 4 = digest) →
        m.inaug.proposed = true ∧ m.inaug.dirEpoch = e ∧ m.inaug.dirCount = count ∧ m.inaug.dirDigest = digest ∧
        (∀ k w, k < count → w < 8 → m.inaug.dirW (k + 1) w = (i.candWords (k + 1)).getD w 0) ∧ m.rd F.TOP_INAUG_PHASE = 2 ∧
        (∃ f ∈ m.inaug.proposes, f.sender = n.ident ∧ leAt f.body 16 2 = e ∧ byteAt f.body 18 = count % 256 ∧ leAt f.body 20 4 = digest) ∧
        Floods n m 3 (i.round % 2 ^ 16)) ∧
      ((∃ f ∈ i.proposes, leAt f.body 16 2 ≠ e) → (∀ f ∈ i.proposes, leAt f.body 16 2 = e → leAt f.body 20 4 = digest) →
        RoundFailed n m 2 ∧ Floods n m 5 (i.round % 2 ^ 16)) ∧
      ((∃ f ∈ i.proposes, leAt f.body 20 4 ≠ digest) → (∀ f ∈ i.proposes, leAt f.body 16 2 = e) →
        RoundFailed n m 1 ∧ Floods n m 5 (i.round % 2 ^ 16)) ∧
      (c.inaug.confirmed = true ∧ c.inaug.agreed = e ∧ c.inaug.dirEpoch = i.dirEpoch ∧ c.rd F.TOP_INAUG_PHASE = 3 ∧ Floods n c 4 (i.round % 2 ^ 16) ∧
        ∃ f, c.inaug.confirms = i.confirms ++ [f] ∧ f.sender = n.ident ∧ leAt f.body 16 2 = e ∧
          leAt f.body 24 6 = secOf (n.clock.now + 20000000 * 65536) % 2 ^ 48 ∧ leAt f.body 30 4 = nsOf (n.clock.now + 20000000 * 65536))) ∧
    (∀ e sec ns,
      let m := n.scheduleCommit e sec ns
      let t := match i.graceEnd with
        | none => timeOf sec ns
        | some g => max (timeOf sec ns) (n.clock.now + ((g - n.clock.cycles) * 4 + 20000000) * 65536)
      m.inaug.sched = some { epoch := e, time := t, count := n.clock.cycles + (t - n.clock.now) / (4 * 65536) } ∧ m.rd F.TOP_INAUG_PHASE = 4 ∧
        m.rd F.TOP_COMMIT_SLO_SEC_LO = secOf t % 2 ^ 32 ∧ m.rd F.TOP_COMMIT_SHI_SEC_HI = secOf t / 2 ^ 32 % 2 ^ 16 ∧ m.rd F.TOP_COMMIT_NS_NS = nsOf t ∧
        m.inaug.dirHeld = (i.proposed && n.inGrace)) ∧
    (let m := n.cancelCommit
     (i.sched = none → m = n) ∧
     (i.sched ≠ none → m.inaug.sched = none ∧ m.inaug.dirHeld = false ∧ m.inaug.openR = i.openR ∧
       m.rd F.TOP_INAUG_PHASE = if i.openR then 3 else if n.inGrace then 5 else 0)) ∧
    ((i.openR = true ∨ i.sched ≠ none → n.newEpoch.rd F.TOP_RENUM_NEWEP_LOST = min (n.rd F.TOP_RENUM_NEWEP_LOST + 1) (2 ^ F.TOP_RENUM_NEWEP_LOST.w - 1) ∧
        n.newEpoch.inaug = i) ∧
      (i.openR = false → i.sched = none → n.topoWorks = true → RoundStarted n n.newEpoch))

/-- 08 R296, R297: at T_commit the banks of tables 8 to 11 change places, the epoch and what the agreed directory gives the node are shown, fields with reset code EP are reset, the grace interval starts, COMMIT triggers become pending at every engine, MARKs go out, reads in flight and an open locked sequence complete STALE; a change that came too late to cancel the commit starts a round then (log entry 65). 08 R295, R298, R303, R307, R44: a held directory is written to the shadow bank after the grace interval; a MARK, or its absence while the port still shows another epoch, gives the receive side its epoch; the grace interval ends with what was held under the old epoch; a commit missed, which the node finds as log entry 62 has it, or after a takeover without the agreement a recorded neighbour's other epoch, puts the node at epoch 0 and L1. 08 R275, R309: TTDP frames go to the topology engine. -/
def Obligations.CommitAndGrace : Prop :=
  ∀ (s : State) (p : Nat), s.node.fits →
    let n := s.node
    let i := n.inaug
    let tp := n.topPort p
    (∀ c, i.sched = some c → n.brg.lock = none → i.late = true → n.topoWorks = true → Yields .epochCommit s (fun t =>
      t.rd F.TOP_EPOCH_EPOCH = c.epoch % 2 ^ 16 ∧ t.rd F.TOP_EPOCH_PREV = n.epoch % 2 ^ 16 ∧ t.inaug.openR = true ∧ t.inaug.sched = none ∧
      t.inaug.round = (i.round + 1) % 65536 ∧ t.rd F.TOP_INAUG_PHASE = 1 ∧ Floods n t 2 t.inaug.round)) ∧
    (∀ c, i.sched = some c → n.brg.lock = none → i.late = false → Yields .epochCommit s (fun t =>
      (t.rd F.TOP_EPOCH_EPOCH = c.epoch % 2 ^ 16 ∧ t.rd F.TOP_EPOCH_PREV = n.epoch % 2 ^ 16 ∧ t.rd F.TOP_INAUG_PHASE = 5 ∧
        t.rd F.TOP_INAUG_FAILS = 0 ∧ t.rd F.TOP_GRACE_GONE = 0 ∧ t.rd F.TOP_GRACE_EXPIRED = 0 ∧
        t.rd F.TOP_RENUM_COMMITS = min (n.rd F.TOP_RENUM_COMMITS + 1) (2 ^ 12 - 1)) ∧
      (t.inaug.openR = false ∧ t.inaug.sched = none ∧ t.inaug.graceEnd = some (n.clock.cycles + 12500000) ∧ t.epochUnread = true) ∧
      (i.proposed = true → t.rd F.TOP_DIGEST_DIGEST = i.dirDigest % 2 ^ 32 ∧ t.rd F.TOP_INAUG_COUNT = i.dirCount % 2 ^ 6 ∧
        (let mine := fun k => i.dirW k 0 % 2 ^ 48 = n.ident ∨ (n.pair.oldIdent ≠ 0 ∧ i.dirW k 0 % 2 ^ 48 = n.pair.oldIdent)
         ∀ k, 1 ≤ k → k ≤ i.dirCount → mine k → (∀ j, 1 ≤ j → j < k → ¬ mine j) →
          t.rd F.TOP_INAUG_POSITION = k % 2 ^ 6 ∧ t.rd F.TOP_INAUG_ORIENT = bitsOf (i.dirW k 0) 60 60)) ∧
      ((∀ a x c y, a ≠ c → a ∈ [8, 9, 10, 11] → c ∈ [8, 9, 10, 11] → n.tab a = some x → n.tab c = some y →
          x.base + 2 * x.size ≤ y.base ∨ y.base + 2 * y.size ≤ x.base) →
        ∀ a x k, a ∈ [8, 9, 10, 11] → n.tab a = some x → x.dbl = true → k < 8 * x.size →
          memRead t.mem (tabAddr x.base + k) = memRead n.mem (tabAddr x.base + 8 * x.size + k) ∧
          memRead t.mem (tabAddr x.base + 8 * x.size + k) = memRead n.mem (tabAddr x.base + k)) ∧
      (∀ e, e < 19 → t.eng e = { (n.eng e).fireKind 5 none with prevEpoch := n.epoch }) ∧
      (∀ q, q < 4 → n.hitless q = true → n.txFree q → ∃ b, Output.frame q b ∈ t.out ∧
        byteAt b 17 = 6 ∧ leAt b 28 2 = 4 ∧ leAt b 30 2 = c.epoch % 2 ^ 16) ∧
      (t.brg.streams = [] ∧ t.brg.lines = [] ∧ (∀ k, (FMap.get {} t.brg.tags k).busy = false) ∧ t.on F.BRG_LOCK_CTRL_OPEN = false))) ∧
    (i.dirHeld = true → n.inGrace = false → ∀ d, n.tab 8 = some d → d.hashed = false → d.n = 8 → ∃ mem poison,
      Settles .directoryWrite s { n with inaug := { i with dirHeld := false }, mem := mem, poison := poison } ∧
      rd64 mem (tabAddr (d.dataW true 0)) = (i.dirEpoch + 65536 * i.dirCount) % 2 ^ 64 ∧
      rd64 mem (tabAddr (d.dataW true 0) + 8) = i.dirDigest % 2 ^ 64 ∧
      (∀ k w, 1 ≤ k → k < 64 → w < 8 → rd64 mem (tabAddr (d.dataW true k + w)) = i.dirW k w % 2 ^ 64) ∧
      ∀ a, a < tabAddr (d.dataW true 0) ∨ tabAddr (d.dataW true 0) + 4096 ≤ a → memRead mem a = memRead n.mem a) ∧
    (n.inGrace = true →
      (∀ d, n.tab 10 = some d → d.hashed = false → 0 < d.n → n.entryOk d false 0 = true → n.fab.launches = [] → n.rd F.TOP_INAUG_PHASE = 5 →
        ∃ mem, Settles .graceEnd s ({ n with mem := mem, inaug := { i with graceEnd := none } }.wr F.TOP_INAUG_PHASE 0) ∧
          (∀ b, b < 64 → bitOf (rd64 mem (tabAddr (d.dataW false 0))) b = (bitOf (n.word (d.dataW false 0)) b && b != 16)) ∧
          ∀ a, a < tabAddr (d.dataW false 0) ∨ tabAddr (d.dataW false 0) + 8 ≤ a → memRead mem a = memRead n.mem a) ∧
      Yields .graceEnd s (fun t => t.inaug.graceEnd = none ∧ ∀ q, q < 20 → ∀ x ∈ FMap.get [] t.fab.launches q,
        x.stamp = t.epoch ∨ bitsOf (t.tabW 1 x.stream 0) 59 58 ≠ 1) ∧
      (p < 4 → n.hitless p = true → tp.marked = false →
        (tp.rxEpoch ≠ n.epoch → Settles (.markTimeout p) s (n.setTopPort p { tp with rxEpoch := n.epoch, rxPrev := tp.rxEpoch, stale := true })) ∧
        (tp.rxEpoch = n.epoch → Settles (.markTimeout p) s n))) ∧
    (∀ b, TopoArrives n p b 6 4 →
      let e := leAt b 30 2
      let missed := e = i.agreed ∨ (i.takenOver = true ∧ n.nbrRecorded p = true)
      ((e = 0 ∨ e = n.epoch ∨ i.sched.isSome = true ∨ ¬ missed) →
        Settles (.mark p b) s ((n.counted p b).setTopPort p { tp with rxEpoch := e, rxPrev := tp.rxEpoch, marked := true })) ∧
      (missed → e ≠ 0 → e ≠ n.epoch → i.sched = none → n.rd F.PAIR_STATUS_PARTNER_STATE ≠ 2 → n.log.staged.length < 64 →
        Yields (.mark p b) s (fun t => t.epoch = 0 ∧ t.level ≤ 1 ∧ t.rd F.TOP_INAUG_POSITION = 0 ∧ t.rd F.TOP_INAUG_COUNT = 0 ∧
          t.on F.TOP_INAUG_MISSED = true ∧ t.hasRecord 10 2 0))) ∧
    (∀ b, WireIn n p b →
      (cellsFor b.length ≤ n.freeCells → (n.engQueue 16 0).length < 64 → Yields (.ttdpFrame p true b) s (fun t =>
        t.engQueue 16 0 = n.engQueue 16 0 ++ [{ fid := n.fab.nextFid, stamp := n.epoch }] ∧ (t.frame n.fab.nextFid).data = b ∧
        (t.frame n.fab.nextFid).ingress = p)) ∧
      Settles (.ttdpFrame p false b) s (((n.counted p b).wr F.TOP_BADFRAMES_COUNT (min (n.rd F.TOP_BADFRAMES_COUNT + 1) (2 ^ 32 - 1))).pviol 1 p)) ∧
    (n.topoWorks = true → p < 4 → n.on F.TOP_INAUG_STANDARD = true → n.txFree p → ∃ h, Settles (.ttdpTimer p) s
        (({ n with freeN := n.freeN + 1, inaug := { i with ttdpCnt := i.ttdpCnt + 1 } }.emit (.frame p h)).txCount p h))

/-- 09 R318, R326, R327, R329 to R333: what a measured offset does: set in FREE, fed to the servo within the threshold with LOCKED after 8 in a row within 100 ns, stepped at once where the step TLV matches it, refused and held otherwise, with HOLDOVER and the record. 09 R322: a two-step Sync waits for its Follow_Up. 13 R467: an invalid message, or a Follow_Up that matches none, is a partner violation. 09 R332, R333, R345: ACCEPT_STEP applies the held offset, SET sets node time in FREE and GRANDMASTER only; a step is counted and passed on, at once by every master port that may send. Whole ns and 1/256 ppb in the servo are log entry 71, the whole seconds, ns and sign of a held offset log entry 80. -/
def Obligations.TimeAndSteps : Prop :=
  ∀ (s : State) (p : Nat) (m : PtpMsg), p < 20 → s.node.fits →
    let n := s.node
    let got := (n.ptpMac p).2
    let th := n.rd F.TIM_STEP_THRESH_NS * 65536
    let away := fun e : Int => th < e.natAbs
    let stepped := fun (t : Node) (d : Int) =>
      t.clock.now = ((n.clock.now : Int) + d).toNat ∧ t.rd F.TIM_STATUS_STEPS = (n.rd F.TIM_STATUS_STEPS + 1) % 256 ∧
      t.clock.tlv = some (d, (n.clock.stepSeq + 1) % 65536) ∧
      ∀ q, q < 20 → n.ptpMaster q = true → n.txFree q → ∃ a b, Output.ptp q 0 [a, b, d, (((n.clock.stepSeq + 1) % 65536 : Nat) : Int)] ∈ t.out
    let measured := fun (c : Instr) (e : Int) (tlv : Option (Int × Nat)) =>
      let ns := e.tdiv 65536
      let i := max (-51200000) (min (n.clock.integ + (n.rd F.TIM_SERVO_KI : Int) * ns) 51200000)
      let y := max (-51200000) (min ((n.rd F.TIM_SERVO_KP : Int) * ns + i) 51200000)
      let small := if ns.natAbs ≤ 100 then n.clock.small + 1 else 0
      (n.timState = 0 → Yields c s (fun t => t.clock.now = ((n.clock.now : Int) - e).toNat ∧ t.timState = 1 ∧
        t.rd F.TIM_OFFSET_NS = ofSigned 32 (clampS 32 ns))) ∧
      (n.timState ≠ 0 → ¬ away e → n.clock.held = none → Yields c s (fun t =>
        t.clock.integ = i ∧ t.clock.out = y ∧ t.rd F.TIM_FREQ_PPT = ofSigned 32 (clampS 32 (y * 1000 / 256)) ∧
        t.rd F.TIM_OFFSET_NS = ofSigned 32 (clampS 32 ns) ∧ t.clock.now = n.clock.now ∧ t.clock.small = small ∧
        (8 ≤ small → n.timState = 1 ∨ n.timState = 3 → t.timState = 2) ∧
        (small < 8 ∨ ¬ (n.timState = 1 ∨ n.timState = 3) → t.timState = n.timState))) ∧
      (n.timState ≠ 0 → away e → (∃ d q, tlv = some (d, q) ∧ (e + d).natAbs ≤ th) → Yields c s (fun t =>
        stepped t (-e) ∧ t.rd F.TIM_STATUS_INHERITED = (n.rd F.TIM_STATUS_INHERITED + 1) % 256 ∧ t.timState = n.timState)) ∧
      (n.timState ≠ 0 → away e → tlv = none → n.clock.held = none → n.allowance < e.natAbs → n.log.staged.length < 64 → Yields c s (fun t =>
        t.clock.held = some (p, e) ∧ t.on F.TIM_STATUS_STEP_HELD = true ∧ t.rd F.TIM_STATUS_HELD_PORT = p ∧
        t.on F.TIM_STATUS_STEP_REFUSED = true ∧ t.timState = 3 ∧ t.clock.now = n.clock.now ∧
        t.hasRecord 6 1 (ofSigned 32 (clampS 32 ns)) ∧
        (n.on F.TIM_STATUS_STEP_REFUSED = false → t.rd F.TIM_REFUSED_SLO_SEC_LO = e.natAbs / 65536000000000 % 2 ^ 32 ∧
          t.rd F.TIM_REFUSED_NS_NS = e.natAbs % 65536000000000 / 65536 % 2 ^ 30 ∧ t.on F.TIM_REFUSED_SHI_SIGN = decide (e < 0)))) ∧
      (n.timState ≠ 0 → away e → tlv = none → n.clock.held = none → e.natAbs ≤ n.allowance → Yields c s (fun t =>
        t.clock.slew = e * 256000000000 ∧ t.clock.held = none ∧ t.clock.now = n.clock.now ∧ t.timState = n.timState))
    let path := (n.ptp p).delay + n.asymmetry p
    (n.ptpOn p = true →
      (m.ok = false → ∀ c ∈ [Instr.sync p m, .followUp p m], Settles c s (got.pviol 5 p)) ∧
      (m.ok = true → n.ptpParent = p →
        (m.twoStep = true → Settles (.sync p m) s (got.setPtp p { n.ptp p with syncRx := some (m.seq, n.rxTime p), syncTlv := m.tlv })) ∧
        (m.twoStep = false → measured (.sync p m) ((n.rxTime p : Int) - (m.origin + m.corr + path)) m.tlv) ∧
        (∀ t2, (n.ptp p).syncRx = some (m.seq, t2) → (n.ptp p).syncTlv = none →
          measured (.followUp p m) ((t2 : Int) - (m.origin + m.corr + path)) m.tlv) ∧
        ((∀ t2, (n.ptp p).syncRx ≠ some (m.seq, t2)) → Settles (.followUp p m) s (got.pviol 6 p)))) ∧
    Settles .stepTlvEnd s { n with clock := { n.clock with tlv := none } } ∧
    (∀ x : Master,
      (RegPasses n x .TIM_STEP_CMD 1 →
        (n.clock.held = none → Answered (.acceptStep x) s x 0 ((n.leased x).wr F.TIM_STEP_CMD_RESULT 1)) ∧
        (∀ q e, n.clock.held = some (q, e) → Yields (.acceptStep x) s (fun t =>
          stepped t (-e) ∧ t.clock.held = none ∧ t.on F.TIM_STATUS_STEP_HELD = false ∧ t.clock.integ = n.clock.integ ∧
          t.rd F.TIM_STEP_CMD_RESULT = 0 ∧ Output.resp x true 0 ∈ t.out))) ∧
      (RegPasses n x .TIM_STEP_CMD 2 →
        let t0 := timeOf (n.rd F.TIM_SET_SLO_SEC_LO + 2 ^ 32 * n.rd F.TIM_SET_SHI_SEC_HI) (n.rd F.TIM_SET_NS_NS)
        (n.timState ≠ 0 → n.timState ≠ 4 → Answered (.timeSet x) s x 0 ((n.leased x).wr F.TIM_STEP_CMD_RESULT 2)) ∧
        ((n.timState = 0 ∨ n.timState = 4) → 10 ^ 9 ≤ n.rd F.TIM_SET_NS_NS →
          Answered (.timeSet x) s x 0 ((n.leased x).wr F.TIM_STEP_CMD_RESULT 3)) ∧
        (n.timState = 0 → n.rd F.TIM_SET_NS_NS < 10 ^ 9 → Yields (.timeSet x) s (fun t =>
          t.clock.now = t0 ∧ t.timState = 1 ∧ t.rd F.TIM_STEP_CMD_RESULT = 0 ∧ Output.resp x true 0 ∈ t.out)) ∧
        (n.timState = 4 → n.rd F.TIM_SET_NS_NS < 10 ^ 9 → Yields (.timeSet x) s (fun t =>
          stepped t ((t0 : Int) - n.clock.now) ∧ t.timState = 4 ∧ t.rd F.TIM_STEP_CMD_RESULT = 0 ∧ Output.resp x true 0 ∈ t.out))))

/-- 09 R321, R322, R324, R326, R328: a Pdelay_Req is answered, a matching Pdelay_Resp gives the mean path delay at the neighbour's rate, PDELAY and AS_CAPABLE, whose change is followed by the choice of a parent, and the first one has a Pdelay_Req repeated after 2 ms, the third request without an answer clears it; Sync, Follow_Up, Announce and Pdelay_Req go out at their intervals on ports in the role for them; a receipt timeout on the slave port means HOLDOVER. The best master clock algorithm, by which the parent is chosen, is that of IEEE 1588 (log entry 20). -/
def Obligations.PtpPorts : Prop :=
  ∀ (s : State) (p : Nat) (m : PtpMsg), p < 20 → s.node.fits →
    let n := s.node
    let x := n.ptp p
    let got := (n.ptpMac p).2
    let t4 := n.rxTime p
    let chosen := fun (heard : Nat → PtpMsg → Prop) (t : Node) =>
      ∃ best a, best < 20 ∧ heard best a ∧ (∀ q y, q < 20 → heard q y → q ≠ best → lexLt (annKey best a) (annKey q y) = true) ∧
        ((n.on F.TIM_CTRL_GM_CAPABLE = false ∨ lexLt n.ownKey (annKey best a) = false) →
          t.ptpParent = best ∧ t.clock.gm = a.gm ∧ (n.ptpParent ≠ best → t.rd (F.TIM_PORT_PSTATE best) = 3) ∧
          (n.timState = 4 → t.timState = 3)) ∧
        (n.on F.TIM_CTRL_GM_CAPABLE = true → lexLt n.ownKey (annKey best a) = true →
          t.timState = 4 ∧ t.clock.gm = n.ownClock ∧ (n.timState ≠ 4 → t.ptpParent = 31))
    (n.asPort p = true →
      (m.ok = false → ∀ c ∈ [Instr.announce p m, .pdelayReq p m, .pdelayResp p m], Settles c s (got.pviol 5 p)) ∧
      (m.ok = true →
        Settles (.pdelayReq p m) s (got.sendPtp p 4 [(m.seq : Int), (t4 : Int), (n.txTime p : Int)]) ∧
        (∀ (t1 : Nat) (r : Int), x.reqT1 = some t1 → m.seq = x.reqSeq → (x.ratioRef = none → r = x.ratio) →
          (∀ a b, x.ratioRef = some (a, b) → r = if b < t4 then ((m.t3 - a) * 2 ^ 41).tdiv ((t4 : Int) - b) - 2 ^ 41 else x.ratio) →
          let d := ((t4 : Int) - t1 + (((t4 : Int) - t1) * r).tdiv (2 ^ 41) - (m.t3 - m.t2)).tdiv 2
          let near := decide (d ≤ 2000 * 65536)
          let answered : PtpPort := { x with
            reqT1 := none, unanswered := 0, responses := x.responses + 1, delay := d, ratio := r, ratioRef := some (m.t3, t4),
            again := if x.responses = 0 then some (n.clock.fresh + 2000) else x.again }
          (n.on (F.TIM_PORT_AS_CAPABLE p) = near → Settles (.pdelayResp p m) s ((got.setPtp p answered).wrs
            [(F.TIM_PORT_PDELAY p, min (d.toNat / 65536) (2 ^ 24 - 1)), (F.TIM_PORT_AS_CAPABLE p, b2n near)])) ∧
          (n.on (F.TIM_PORT_AS_CAPABLE p) ≠ near → Yields (.pdelayResp p m) s (fun t =>
            (t.ptp p).delay = d ∧ (t.ptp p).ratio = r ∧ (t.ptp p).reqT1 = none ∧ (t.ptp p).unanswered = 0 ∧
            t.rd (F.TIM_PORT_PDELAY p) = min (d.toNat / 65536) (2 ^ 24 - 1) ∧ t.on (F.TIM_PORT_AS_CAPABLE p) = near ∧
            (near = true → x.ann.isSome = true → chosen (fun q y =>
              (n.ptp q).ann = some y ∧ n.asPort q = true ∧ (q = p ∨ n.on (F.TIM_PORT_AS_CAPABLE q) = true)) t)))) ∧
        ((x.reqT1 = none ∨ m.seq ≠ x.reqSeq) → Settles (.pdelayResp p m) s (got.pviol 6 p)) ∧
        (n.on (F.TIM_PORT_AS_CAPABLE p) = true →
          let heard := fun (q : Nat) (y : PtpMsg) => (if q = p then some m else (n.ptp q).ann) = some y ∧ n.asPort q = true ∧ n.on (F.TIM_PORT_AS_CAPABLE q) = true
          Yields (.announce p m) s (fun t => (t.ptp p).ann = some m ∧ chosen heard t))) ∧
      (let miss := if x.reqT1.isSome then x.unanswered + 1 else 0
       let asked := n.setPtp p { x with reqSeq := (x.reqSeq + 1) % 65536, reqT1 := some (n.txTime p), unanswered := miss }
       (miss < 3 → Settles (.ptpMessageInterval p 2) s (asked.sendPtp p 3 [(((x.reqSeq + 1) % 65536 : Nat) : Int)])) ∧
       (3 ≤ miss → Settles (.ptpMessageInterval p 2) s
         ((asked.wr (F.TIM_PORT_AS_CAPABLE p) 0).sendPtp p 3 [(((x.reqSeq + 1) % 65536 : Nat) : Int)]))) ∧
      (n.ptpParent ≠ p → (∀ e, n.clock.held ≠ some (p, e)) → Settles (.receiptTimeout p) s (n.setPtp p { x with ann := none, syncRx := none })) ∧
      (n.ptpParent = p → n.timState ≠ 0 → Yields (.receiptTimeout p) s (fun t =>
        t.timState = 3 ∧ t.ptpParent = 31 ∧ t.rd (F.TIM_PORT_PSTATE p) = 1 ∧ (t.ptp p).ann = none ∧ t.clock.out = t.clock.integ ∧
        t.clock.integ = n.clock.integ))) ∧
    (n.ptpMaster p = true →
      (n.clock.tlv = none →
        let v : List Int := [(x.txSeq : Int), (n.txTime p : Int)]
        let sent := (n.setPtp p { x with txSeq := (x.txSeq + 1) % 65536, syncDue := false }).sendPtp p 0 v
        (n.on (F.TIM_PORT_ONE_STEP p) = true → Settles (.ptpMessageInterval p 0) s sent) ∧
        (n.on (F.TIM_PORT_ONE_STEP p) = false → Settles (.ptpMessageInterval p 0) s (sent.sendPtp p 1 v))) ∧
      (n.on F.TIM_CTRL_GM_CAPABLE = false → n.ptpParent = 31 → (∀ q, q < 20 → (n.ptp q).ann = none) →
        Settles (.ptpMessageInterval p 1) s (n.sendPtp p 2
          [(n.rd F.TIM_CTRL_PRIORITY1 : Int), 248, 0xFE, 0xFFFF, (n.rd F.TIM_CTRL_PRIORITY2 : Int), (n.ownClock : Int), 0])))

/-- 12 R413, R414: the heartbeat of a period, with the node's state, its flags and a CRC, on the Cicada link with times and, where it is enabled, without them in a frame on the heartbeat port of the consist. 12 R416, R450: a heartbeat of the partner is counted and shown, RX and MISS together span its sequence numbers; an invalid one, or one of another node, is a partner violation, also in STABLED, counted where the health monitor is powered, with the heartbeat port as ARG on the consist path and none the manual gives on the Cicada link (log entry 129). 12 R419, R420, R422: a standby declares the active node failed by its FAIL flag or by silence, and is blocked while that node's claim stays; a silent path is marked. 12 R409, R410: a claim sensed beside the own one is recorded, but in the WCH cycle of the own one position b gives way, and equal positions both wait; whether positions differ that no heartbeat has shown is open (log entry 130). 12 R431 to R436, R447: at the takeover the claim is asserted, the executive owns the node, time is kept in HOLDOVER and the numbering of the checkpoint is taken, L1 without one; a commit agreed and not yet made is scheduled for its time, and one whose time has passed, or which the failed node has made, is in force. -/
def Obligations.HeartbeatsAndTakeover : Prop :=
  ∀ (s : State) (path : Nat) (b : List Byte), path < 2 → s.node.fits → s.node.log.staged.length < 60 →
    let n := s.node
    let pr := n.pair
    let fl := byteAt b 3
    let x := FMap.get {} pr.paths path
    let okF := if path = 0 then F.PAIR_STATUS_CIC_OK else F.PAIR_STATUS_CON_OK
    (n.execRuns = true → pr.stabling = 0 → pr.sending = none → pr.capture = none → pr.drillDue = false →
      (n.single = true → Settles .heartbeatSend s n) ∧
      (n.single = false → n.tn7Mode = false → n.rd F.PAIR_STATUS_CLAIM_HELD < 2 → n.rd F.HLT_REPORT_FAIL < 2 →
        Yields .heartbeatSend s (fun t => t.mode = n.mode ∧ t.pair.seq = (pr.seq + 1) % 2 ^ 32 ∧ SameBytes n t ∧ t.engs = n.engs ∧
          ∃ h, Output.heartbeat 0 h ∈ t.out ∧ h.length = 64 ∧ beAt h 0 3 = 0x484201 ∧ leAt h 4 4 = (pr.seq + 1) % 2 ^ 32 ∧
            bitOf (byteAt h 3) 0 = n.on F.PAIR_STATUS_CLAIM_HELD ∧ bitOf (byteAt h 3) 1 = n.on F.HLT_REPORT_FAIL ∧
            bitOf (byteAt h 3) 2 = (n.mode == .drill) ∧ bitOf (byteAt h 3) 3 = n.roundFlag ∧ bitOf (byteAt h 3) 4 = pr.switchFlag ∧
            bitOf (byteAt h 3) 5 = false ∧ leAt h 8 6 = n.ident % 2 ^ 48 ∧
            byteAt h 14 = (modeCode n.mode + 16 * n.level + 64 * n.rd F.PAIR_STATUS_POS) % 256 ∧
            byteAt h 15 = n.rd F.PAIR_STATUS_PROVEN % 256 ∧ leAt h 16 2 = n.epoch % 2 ^ 16 ∧ byteAt h 18 = n.position % 256 ∧
            leAt h 20 4 = n.rd F.PAIR_CKPT_SEQ_SEQ % 2 ^ 32 ∧ leAt h 24 4 = n.health % 2 ^ 32 ∧ leAt h 28 4 = n.drillAge % 2 ^ 32 ∧
            leAt h 32 6 = secOf n.clock.now % 2 ^ 48 ∧ leAt h 60 4 = crc32c (h.take 60) % 2 ^ 32 ∧
            (let q := n.rd F.PAIR_CTRL_HB_PORT
             n.on F.PAIR_CTRL_HB_CON_EN = true → 4 ≤ q → q < 16 → n.consistLink q = true → (n.dataOn = true → n.on (F.PRT_STATUS_LPI_TX q) = false) → ∃ k, Output.frame q k ∈ t.out ∧ k.length = 78 ∧
               beAt k 0 6 = 0x035439000001 ∧ beAt k 12 2 = 0x88B6 ∧ slice k 14 32 = h.take 32 ∧ slice k 46 20 = zeros 20 ∧
               slice k 66 8 = slice h 52 8)))) ∧
    (n.mode ≠ .off → n.single = false → n.tn7Mode = false → (path = 1 → n.on F.PAIR_CTRL_HB_CON_EN = true) →
      let arg := fun a : Nat => path = 1 → a = n.rd F.PAIR_CTRL_HB_PORT
      let foreign := fun a => if n.ctlOn = true then { n with freeN := n.freeN + 1 }.pviol 4 a else n
      (n.hbOk b = false → ∃ a, arg a ∧ Settles (.heartbeatReceived path b) s (foreign a)) ∧
      (∀ p, pr.partner = some p → n.hbOk b = true →
        (p ≠ leAt b 8 6 → ∃ a, arg a ∧ Settles (.heartbeatReceived path b) s ((foreign a).fault 3 3 path)) ∧
        (p = leAt b 8 6 → n.wait = .none → pr.switching = none → n.on F.PAIR_STATUS_POS_CLASH = true →
          let shown := fun t : Node => t.rd F.PAIR_STATUS_PARTNER_STATE = byteAt b 14 % 16 ∧ t.rd F.PAIR_STATUS_PARTNER_LEVEL = byteAt b 14 / 16 % 4 ∧
            t.rd F.PAIR_STATUS_PARTNER_PROVEN = byteAt b 15 % 4 ∧ t.rd F.PAIR_PARTNER_HEALTH_HEALTH = leAt b 24 4 ∧ t.on okF = true ∧
            t.rd (F.PAIR_HB_RX_COUNT path) = (n.rd (F.PAIR_HB_RX_COUNT path) + 1) % 2 ^ 32 ∧ t.pair.lastHb = b
          (n.mode = .active → Yields (.heartbeatReceived path b) s (fun t => shown t ∧ t.mode = .active ∧ t.clock = n.clock ∧ SameBytes n t ∧
            (∀ f, x.first = some f → f < 2 ^ 32 → x.high < 2 ^ 32 → ∃ h,
              h = (if (leAt b 4 4 + 2 ^ 32 - x.high) % 2 ^ 32 < 2 ^ 31 then leAt b 4 4 else x.high) ∧
              (FMap.get {} t.pair.paths path).high = h ∧
              (t.rd (F.PAIR_HB_RX_COUNT path) + t.rd (F.PAIR_HB_MISS_COUNT path)) % 2 ^ 32 = (h + 2 ^ 32 + 1 - f) % 2 ^ 32))) ∧
          (n.mode = .coldStandby → pr.sentT = [] → bitOf fl 1 = true → bitOf fl 4 = false → bitOf fl 5 = false → pr.armed = false →
            Yields (.heartbeatReceived path b) s (fun t => shown t ∧ t.mode = .coldStandby ∧ t.on F.PAIR_STATUS_DECLARED = true ∧
              t.pair.armed = true ∧ t.hasRecord 3 1 path ∧
              (n.on F.PAIR_STATUS_PARTNER_CLAIM = true → t.on F.PAIR_STATUS_BLOCKED = true ∧ t.hasRecord 3 2 path)))))) ∧
    (n.single = false → n.tn7Mode = false → n.on F.PAIR_CTRL_HB_CON_EN = true →
      (n.mode = .active ∨ n.mode = .coldStandby → Yields (.heartbeatPathSilent path) s (fun t =>
        t.on okF = false ∧ t.on F.HLT_REPORT_PATH = true ∧ t.mode = n.mode ∧ SameBytes n t ∧ t.fab = n.fab ∧
        (n.mode = .active ∨ path = 1 → t.clock = n.clock) ∧ (n.mode = .coldStandby → path = 0 → t.timState = 3))) ∧
      (n.mode = .coldStandby → pr.armed = false → Yields .silenceDeclared s (fun t => ∃ item,
        t.on F.PAIR_STATUS_DECLARED = true ∧ t.pair.armed = true ∧ t.mode = .coldStandby ∧ t.hasRecord 3 1 item ∧
        (n.on F.PAIR_STATUS_PARTNER_CLAIM = true → t.on F.PAIR_STATUS_BLOCKED = true ∧ t.hasRecord 3 2 item)))) ∧
    (n.mode ≠ .off → n.single = false → n.pathUsed path = false ∨ (n.mode ≠ .active ∧ n.mode ≠ .coldStandby ∧ n.mode ≠ .drill) →
      Settles (.heartbeatPathSilent path) s (n.wr okF 0)) ∧
    (n.mode ≠ .off → n.wait = .none →
      let known := n.on F.PAIR_STATUS_POS_CLASH = true ∨ (n.tn7Mode = false ∧ pr.lastHb ≠ [])
      let gives := fun t : Node => t.mode = .coldStandby ∧ t.level = 0 ∧ t.on F.PAIR_STATUS_CLAIM_HELD = false ∧ t.dataOn = false
      let waits := fun t : Node => t.mode = .boot ∧ t.wait = .claim ∧ t.level = 0 ∧ t.on F.PAIR_STATUS_CLAIM_HELD = false
      let keeps := fun t : Node => t.mode = n.mode ∧ t.on F.PAIR_STATUS_CLAIM_HELD = true ∧ t.on F.PAIR_STATUS_PARTNER_CLAIM = true
      (Settles (.partnerClaimChange false) s (n.wr F.PAIR_STATUS_PARTNER_CLAIM 0)) ∧
      (n.single = true → Settles (.partnerClaimChange true) s (n.wr F.PAIR_STATUS_PARTNER_CLAIM 0)) ∧
      (n.single = false →
        (n.on F.PAIR_STATUS_CLAIM_HELD = false → Settles (.partnerClaimChange true) s (n.wr F.PAIR_STATUS_PARTNER_CLAIM 1)) ∧
        (n.on F.PAIR_STATUS_CLAIM_HELD = true → n.wchCycle ≠ pr.claimAt → ∃ item,
          Settles (.partnerClaimChange true) s ((n.wr F.PAIR_STATUS_PARTNER_CLAIM 1).fault 3 5 item)) ∧
        (n.on F.PAIR_STATUS_CLAIM_HELD = true → n.wchCycle = pr.claimAt →
          (known → n.posA = true → Yields (.partnerClaimChange true) s keeps) ∧
          (known → n.posA = false → Yields (.partnerClaimChange true) s gives) ∧
          (¬ known → Yields (.partnerClaimChange true) s (fun t => waits t ∨ (n.posA = true ∧ keeps t) ∨ (n.posA = false ∧ gives t)))))) ∧
    (n.mode = .coldStandby ∨ n.mode = .drill → pr.armed = true →
      (n.partnerClaim = true → Settles .takeoverStart s n) ∧
      (n.partnerClaim = false → n.on F.PWR_ISLANDS_RAIL_FAULT = false → n.claimed.loadSet ≠ none → Yields .takeoverStart s (fun t =>
        t.mode = .active ∧ t.level = 0 ∧ t.on F.PAIR_STATUS_CLAIM_HELD = true ∧ t.dataOn = true ∧ t.pair.armed = false ∧
        t.rd F.MGT_OWNER_ID = 0 ∧ t.on F.MGT_OWN_PEND_VALID = false ∧ t.on F.PAIR_DRILL_RUNNING = false ∧
        t.timState = 3 ∧ t.ptpParent = 31 ∧ t.clock.now = n.clock.now ∧ t.pair.gapAt = some n.clock.fresh ∧
        (n.tn7Mode = false → pr.agree = none →
          (∀ c, n.ckptChosen = some c → t.epoch = c.epoch % 2 ^ 16 ∧ t.rd F.TOP_INAUG_POSITION = c.pos % 2 ^ 6 ∧
            t.rd F.TOP_INAUG_COUNT = c.count % 2 ^ 6 ∧ t.rd F.TOP_DIGEST_DIGEST = c.digest % 2 ^ 32) ∧
          (n.ckptChosen = none → t.inaug.l1Hold = true)) ∧
        (∀ a c, n.tn7Mode = false → pr.agree = some a → n.clock.now < a.tcommit → leAt pr.lastHb 16 2 ≠ a.epoch → n.ckptChosen = some c →
          c.epoch % 2 ^ 16 ≠ a.epoch → t.epoch = c.epoch % 2 ^ 16 ∧ t.inaug.dir = a.dir ∧ t.rd F.TOP_INAUG_PHASE = 4 ∧
          t.inaug.sched = some { epoch := a.epoch, time := a.tcommit, count := n.clock.cycles + (a.tcommit - n.clock.now) / 262144 }) ∧
        (∀ a, n.tn7Mode = false → pr.agree = some a → a.epoch < 2 ^ 16 → a.tcommit ≤ n.clock.now ∨ leAt pr.lastHb 16 2 = a.epoch → t.epoch = a.epoch))))

/-- 12 R424 to R429: at a period boundary an active paired node captures a checkpoint, each engine's part at that engine's next activation boundary, and streams it in blocks with a CRC-32C each, not one with too many signal slots; the standby holds the last two complete ones, counts a period without one, rejects one with a bad block, and takes an agreement checkpoint beside one whose blocks it has begun to take, until one with a bad block or of epoch 0 (the layout of the blocks: log entry 116; blocks of an agreement, and epoch 0: entries 48 and 118). 12 R438, R439: SWITCHOVER is refused by state, by the partner or during a round, else a checkpoint is captured; once the partner holds it the node hands over, and after 100 ms without it gives up (what RESULT shows meanwhile: log entry 104). 12 R441 to R443: a drill starts only under its conditions, DRILL_NOW answering RESULT 0 either way (log entry 92), powers the data island with the engines stopped, and ends in COLD_STANDBY with its results, failed banks and engines retired. -/
def Obligations.CheckpointsAndDrills : Prop :=
  ∀ (s : State), s.node.fits →
    let n := s.node
    let pr := n.pair
    let may := n.mode = .coldStandby ∧ n.single = false ∧ n.tn7Mode = false ∧ n.rd F.PAIR_STATUS_PARTNER_STATE = 4 ∧
      bitOf (byteAt pr.lastHb 3) 1 = false ∧ bitOf (byteAt pr.lastHb 3) 3 = false
    let idle := (List.range 16).filter n.slotIdle
    let part := { n.snapshot pr.nextCk with sigs := (idle.map n.ckptSigs).flatten, mailboxes := (idle.map n.ckptMailbox).flatten }
    let bytes := n.ckptBytes part
    let captured := fun t : Node => t.pair.sending = some (pr.nextCk, n.clock.fresh) ∧ t.pair.nextCk = (pr.nextCk + 1) % 2 ^ 32 ∧
      (idle ≠ List.range 16 → t.pair.capture = some part ∧ t.pair.capWait = (List.range 16).filter (fun k => !n.slotIdle k)) ∧
      (idle = List.range 16 → t.pair.capture = none ∧
        ∀ i, 4096 * i < bytes.length → ∃ d, d.length = 4096 ∧ d.take (bytes.length - 4096 * i) = slice bytes (4096 * i) 4096 ∧
          Output.ckptBlock false pr.nextCk i (decide (bytes.length ≤ 4096 * (i + 1))) (d ++ leBytes 4 (crc32c d)) ∈ t.out) ∧
      leAt bytes 0 4 = pr.nextCk % 2 ^ 32 ∧ leAt bytes 4 6 = n.ident % 2 ^ 48 ∧ leAt bytes 10 2 = n.epoch % 2 ^ 16 ∧
      leAt bytes 14 8 = n.clock.fresh % 2 ^ 64 ∧ leAt bytes 22 6 = secOf n.clock.now % 2 ^ 48
    let drilling := fun t : Node => t.mode = .drill ∧ t.on F.PAIR_DRILL_RUNNING = true ∧ t.dataOn = true ∧ t.level = 0 ∧
      t.on F.PAIR_STATUS_CLAIM_HELD = n.on F.PAIR_STATUS_CLAIM_HELD ∧ ∀ e, e < 19 → t.on (F.SC_CTRL_RUN e) = false
    (n.single = false → n.tn7Mode = false → n.mode = .active → n.dataOn = true →
      (n.ckptSlots ≤ 65536 → pr.capture = none →
        (pr.sending = none → Yields .checkpointCapture s (fun t => captured t ∧ t.on F.PAIR_STATUS_CFG_ERR = false ∧ SameBytes n t ∧ t.engs = n.engs)) ∧
        (∀ q a, pr.sending = some (q, a) → a + 35000 ≤ n.clock.fresh → Yields .checkpointCapture s (fun t =>
          captured t ∧ t.rd F.PAIR_CKPT_SEQ_SEQ = q % 2 ^ 32))) ∧
      (65536 < n.ckptSlots → pr.sending = none → pr.capture = none → Settles .checkpointCapture s
        ({ n with pair := { pr with missedCk := pr.missedCk + 1 } }.wr F.PAIR_STATUS_CFG_ERR 1))) ∧
    ((n.mode = .coldStandby ∨ n.mode = .drill) → n.single = false → n.tn7Mode = false →
      Settles .checkpointCapture s { n with pair := { pr with missedCk := pr.missedCk + 1 } }) ∧
    ((n.mode = .coldStandby ∨ n.mode = .drill) → n.single = false → n.tn7Mode = false → ∀ (q idx : Nat) (ck : Ckpt),
      (∀ a, ck.agree = some a → pr.agPart = some (q, idx) → idx ≠ 0 →
        Settles (.checkpointBlockReceived q idx true false ck) s { n with pair := { pr with agPart := some (q, idx + 1) } } ∧
        Settles (.checkpointBlockReceived q idx true true ck) s
          { n with pair := { pr with agPart := none, agree := if a.epoch = 0 then none else some a } } ∧
        ∀ last, ∃ item, Settles (.checkpointBlockReceived q idx false last ck) s
          (({ n with pair := { pr with agPart := none, agree := none } }.wr F.PAIR_STATUS_CKPT_REJECTED 1).fault 3 4 item)) ∧
      (ck.agree = none → Yields (.checkpointBlockReceived q 0 true false ck) s (fun t => t.pair.part = some (q, 1) ∧ t.pair.ckpts = pr.ckpts.take 1 ∧ t.mode = n.mode)) ∧
      (ck.agree = none → pr.part = some (q, idx) → idx ≠ 0 →
        Settles (.checkpointBlockReceived q idx true false ck) s { n with pair := { pr with part := some (q, idx + 1) } } ∧
        Settles (.checkpointBlockReceived q idx true true ck) s
          ({ n with pair := { pr with part := none, ckpts := { ck with seq := q } :: pr.ckpts.take 1, missedCk := 0 } }.wr F.PAIR_CKPT_SEQ_SEQ q) ∧
        ∀ last, ∃ item, Settles (.checkpointBlockReceived q idx false last ck) s
          (({ n with pair := { pr with part := none, rejected := q :: pr.rejected } }.wr F.PAIR_STATUS_CKPT_REJECTED 1).fault 3 4 item))) ∧
    (∀ x : Master,
      (RegPasses n x .PAIR_CMD 1 →
        let h := n.rd F.PAIR_PARTNER_HEALTH_HEALTH
        let ready := n.single = false ∧ n.tn7Mode = false ∧ n.rd F.PAIR_STATUS_PARTNER_STATE = 2 ∧ bitOf h 22 = false ∧ bitOf h 21 = false ∧
          n.level ≤ n.rd F.PAIR_STATUS_PARTNER_PROVEN
        (n.mode = .coldStandby → Answered (.switchover x) s x 0 ((n.leased x).wr F.PAIR_CMD_RESULT 3)) ∧
        (n.mode = .active → ¬ ready → Answered (.switchover x) s x 0 ((n.leased x).wr F.PAIR_CMD_RESULT 1)) ∧
        (n.mode = .active → ready → n.roundFlag = true → Answered (.switchover x) s x 0 ((n.leased x).wr F.PAIR_CMD_RESULT 2)) ∧
        (n.mode = .active → ready → n.roundFlag = false → n.ckptSlots ≤ 65536 → Yields (.switchover x) s (fun t =>
          captured t ∧ t.pair.switching = some pr.nextCk ∧ t.rd F.PAIR_CMD_RESULT = 0 ∧ t.mode = .active ∧ Output.resp x true 0 ∈ t.out))) ∧
      (RegPasses n x .PAIR_CMD 2 →
        (¬ may → Answered (.drillNow x) s x 0 ((n.leased x).wr F.PAIR_CMD_RESULT 0)) ∧
        (may → n.on F.PWR_ISLANDS_RAIL_FAULT = false → Yields (.drillNow x) s (fun t =>
          drilling t ∧ t.rd F.PAIR_CMD_RESULT = 0 ∧ Output.resp x true 0 ∈ t.out)))) ∧
    (∀ q, n.mode = .active → pr.switching = some q →
      Settles .switchoverTimeout s ({ n with pair := { pr with switching := none } }.wr F.PAIR_CMD_RESULT 1) ∧
      ∀ b, n.single = false → n.tn7Mode = false → n.hbOk b = true → pr.partner = some (leAt b 8 6) → n.on F.PAIR_STATUS_POS_CLASH = true →
        n.wait = .none → leAt b 20 4 = q → n.rd F.PAIR_STATUS_CLAIM_HELD < 2 → n.rd F.HLT_REPORT_FAIL < 2 → Yields (.heartbeatReceived 0 b) s (fun t =>
          t.mode = .coldStandby ∧ t.level = 0 ∧ t.on F.PAIR_STATUS_CLAIM_HELD = false ∧ t.dataOn = false ∧ t.rd F.PAIR_CMD_RESULT = 0 ∧
          ∃ h, Output.heartbeat 0 h ∈ t.out ∧ bitOf (byteAt h 3) 4 = true)) ∧
    (¬ may → Settles .drillTimer s n) ∧
    (may → n.on F.PWR_ISLANDS_RAIL_FAULT = false → Yields .drillTimer s drilling) ∧
    (may → n.on F.PWR_ISLANDS_RAIL_FAULT = false → pr.drillDue = true → pr.stabling = 0 → Yields .heartbeatSend s drilling) ∧
    (n.mode = .coldStandby → n.single = false → Settles .drillDeferred s (n.wr F.PAIR_DRILL_DEFERRED 1)) ∧
    (n.mode = .drill →
      Yields (.drillComplete 0 {}) s (fun t => t.mode = .coldStandby ∧ t.dataOn = false ∧ t.on F.PAIR_DRILL_PASS = true ∧
        t.on F.PAIR_DRILL_RUNNING = false ∧ t.rd F.PAIR_DRILL_RESULT_FAILED = 0 ∧ t.rd F.PAIR_STATUS_PROVEN = n.provenLevel 0 0 0 ∧
        t.pair.drillDone = some (n.clock.fresh : Int) ∧ t.pair.drillFail = false) ∧
      ∀ failed engines ports chans, failed < 2 ^ 28 → failed ≠ 0 → n.log.staged.length < 16 → Yields (.drillComplete failed ⟨engines, ports, chans⟩) s (fun t =>
        bitOf (t.rd F.PAIR_DRILL_RESULT_FAILED) 28 = decide (engines % 2 ^ 18 ≠ 0) ∧ bitOf (t.rd F.PAIR_DRILL_RESULT_FAILED) 29 = decide (ports % 16 ≠ 0) ∧
        bitOf (t.rd F.PAIR_DRILL_RESULT_FAILED) 30 = decide (ports % 2 ^ 20 / 16 ≠ 0) ∧
        bitOf (t.rd F.PAIR_DRILL_RESULT_FAILED) 31 = decide (chans % 2 ^ 10 ≠ 0) ∧ t.mode = .coldStandby ∧ t.dataOn = false ∧ t.on F.PAIR_DRILL_RUNNING = false ∧ (∃ item, t.hasRecord 3 6 item) ∧
        (∀ b, b < 28 → bitOf (t.rd F.PAIR_DRILL_RESULT_FAILED) b = bitOf failed b) ∧
        (∀ b, b < 26 → bitOf failed b = true → t.rd (F.FAB_BANK_STATE b) = 3) ∧
        (∀ e, e < 18 → bitOf engines e = true → bitOf (t.rd F.HLT_RETIRED_ENGINE) e = true)))

/-- 05 R179, R180, R182: REQUEST records a pending request, one at a time, and an executive that owns the node decides at once by its settings; WITHDRAW clears the master's own; HANDOVER, and the end of the lease, pass ownership to the pending master or else to the executive; RENEW restarts the lease; a master that does not own the node gets NOT_OWNER (a REQUEST by the owner, by identity 0 or 4, a WITHDRAW with nothing pending: log entry 91). 00 R15; 13 R453: RESTART restarts the node with cause 3; STABLE is refused while the train moves, else stabling heartbeats follow, and after the third, as log entry 45 has it, the node is STABLED. -/
def Obligations.OwnershipAndNodeCommands : Prop :=
  ∀ (s : State) (x : Master),
    let n := s.node
    let p := n.presented x
    let m := n.leased x
    let done := fun (c : Instr) (t : Node) (v : Nat) => Answered c s x 0 (t.setResult p v)
    let pended := n.on F.MGT_OWN_PEND_VALID
    let passed := [(F.MGT_OWNER_ID, if pended then n.rd F.MGT_OWN_PEND_ID else 0), (F.MGT_OWNER_NODE_HI, if pended then n.rd F.MGT_OWN_PEND_NODE_HI else 0),
      (F.MGT_OWNER_NODE_NODE_LO, if pended then n.rd F.MGT_OWN_PEND_NODE_NODE_LO else 0), (F.MGT_OWN_PEND_VALID, 0), (F.MGT_OWN_PEND_ID, 0),
      (F.MGT_OWN_PEND_NODE_HI, 0), (F.MGT_OWN_PEND_NODE_NODE_LO, 0)]
    let far := if p.id = 3 then p.node else 0
    (RegPasses n x .MGT_OWN_CMD 1 →
      (p.id = 0 ∨ 3 < p.id → done (.request x) m 3) ∧
      (1 ≤ p.id → p.id ≤ 3 → p.node < 2 ^ 48 →
        (pended = true → done (.request x) m (if n.pends p then 0 else 2)) ∧
        (pended = false → n.rd F.MGT_OWNER_ID ≠ 0 → done (.request x) (m.wrs [(F.MGT_OWN_PEND_VALID, 1), (F.MGT_OWN_PEND_ID, p.id),
          (F.MGT_OWN_PEND_NODE_HI, far / 2 ^ 32), (F.MGT_OWN_PEND_NODE_NODE_LO, far % 2 ^ 32)]) 0) ∧
        (pended = false → n.rd F.MGT_OWNER_ID = 0 → n.fits →
          let grant := bitOf (byteAt (FMap.get [] n.settings 4) 0) p.id
          Yields (.request x) s (fun t => t.rd F.MGT_OWNER_ID = (if grant then p.id else 0) ∧ t.on F.MGT_OWN_PEND_VALID = false ∧
            (grant = true → t.rd F.MGT_OWNER_NODE_HI * 2 ^ 32 + t.rd F.MGT_OWNER_NODE_NODE_LO = far ∧ t.leaseAt = n.clock.fresh) ∧
            FMap.get 0 t.results (mkeyOf p) = (if grant then 0 else 3) ∧ Output.resp x true 0 ∈ t.out)))) ∧
    (RegPasses n x .MGT_OWN_CMD 4 →
      (n.pends p = true → done (.withdraw x) (m.wrs
        [(F.MGT_OWN_PEND_VALID, 0), (F.MGT_OWN_PEND_ID, 0), (F.MGT_OWN_PEND_NODE_HI, 0), (F.MGT_OWN_PEND_NODE_NODE_LO, 0)]) 0) ∧
      (n.pends p = false → done (.withdraw x) m 3)) ∧
    (RegPasses n x .MGT_OWN_CMD 2 →
      (n.owns p = true → done (.handover x) { m.wrs passed with leaseAt := n.clock.fresh } 0) ∧ (n.owns p = false → done (.handover x) m 1)) ∧
    (RegPasses n x .MGT_OWN_CMD 3 →
      (n.owns p = true → done (.renew x) { m with leaseAt := n.clock.fresh } 0) ∧ (n.owns p = false → done (.renew x) m 1)) ∧
    (n.rd F.MGT_OWNER_ID ≠ 0 → Settles .leaseExpiry s { n.wrs passed with leaseAt := n.clock.fresh }) ∧
    (n.rd F.MGT_OWNER_ID = 0 → Settles .leaseExpiry s n) ∧
    (RegPasses n x .MGT_CMD 1 → Yields (.restart x) s (fun t => Restarted n 3 t ∧ Output.resp x true 0 ∈ t.out)) ∧
    (RegPasses n x .MGT_CMD 2 →
      (n.on F.PWR_DISCRETE_ZERO_SPEED = false → Answered (.stable x) s x 0 (m.wr F.MGT_CMD_RESULT 3)) ∧
      (n.on F.PWR_DISCRETE_ZERO_SPEED = true → Answered (.stable x) s x 0 ({ m with pair := { n.pair with stabling := 3 } }.wr F.MGT_CMD_RESULT 0))) ∧
    (n.execRuns = true → n.pair.sending = none → n.pair.capture = none → n.pair.drillDue = false → n.single = true →
      (∀ k, n.pair.stabling = k + 2 → Settles .heartbeatSend s { n with pair := { n.pair with stabling := k + 1 } }) ∧
      (n.pair.stabling = 1 → Yields .heartbeatSend s (fun t => t.mode = .stabled ∧ t.level = 0 ∧ t.ctlOn = false ∧ t.dataOn = false ∧
        t.on F.PAIR_STATUS_CLAIM_HELD = false ∧ t.mem = [] ∧ ∀ l, l < 2 → n.on (F.BBL_RELAY_MISMATCH l) = false → t.on (F.BBL_RELAY_CLOSED l) = true)))

/-- 13 R459, R469, R473 to R479: the update commands: BLOCK takes a block whose CRC is right, over the bytes up to IMAGE_SIZE in the last (log entry 54), and stores it when its flash work ends; COMMIT gives the first RESULT of its list that holds, or restarts with cause 4; CONFIRM only on trial, and its copy ends the trial; REVERT writes the fallback over the main slot and ends the trial; what they show meanwhile, and what becomes of the trial, is as log entry 56 has it; ABORT empties the area; SETWRITE stores a record with the next SEQ, LOADER the other copy of the loader; a block that crosses the Cicada link is stored by the standby as it comes (log entry 58). -/
def Obligations.UpdateCommands : Prop :=
  ∀ (s : State) (x : Master),
    let n := s.node
    let m := n.leased x
    let f := n.flash
    let k := n.rd F.UPD_ARG_BLOCK
    let buf := memReadN n.mem 0x2F0000 65536
    let piece := if k = 0 then buf.take (if imgSize buf = 0 then 65536 else min 65536 (imgSize buf))
      else buf.take (min 65536 ((if n.hasBlock 0 = true ∨ f.xferSize ≠ 0 then f.xferSize else 33554432) - 65536 * k))
    let other := k = 0 ∧ f.xfer ≠ [] ∧ (n.hasBlock 0 = true ∨ f.xferSize ≠ 0) ∧ f.xferId ≠ imgBuild piece
    let bad := 512 ≤ k ∨ piece = [] ∨ crc32c piece ≠ n.rd F.UPD_ARG_CRC_CRC
    let res := fun (c : Instr) (t : Node) (v : Nat) => Answered c s x 0 (t.wr F.UPD_CMD_RESULT v)
    let starts := fun (c : Instr) (code arg : Nat) (w : List Byte) => res c { m with flash := { f with busy := code, busyArg := arg, work := w } } 15
    (RegPasses n x .UPD_CMD 1 →
      (other → res (.blockStore x) m 8) ∧ (¬ other → bad → res (.blockStore x) m 1) ∧ (¬ other → ¬ bad → starts (.blockStore x) 1 k piece)) ∧
    (n.ctlOn = true → n.fits →
      let idle := fun t : Node => t.rd F.UPD_CMD_RESULT = 0 ∧ t.flash.busy = 0 ∧ t.updUnread = true
      (f.busy = 1 → f.work ≠ [] → Yields .updateCommandDone s (fun t => idle t ∧ FMap.get [] t.flash.xfer f.busyArg = f.work ∧
        t.flash.placed = true ∧ (f.busyArg = 0 → t.flash.xferId = imgBuild f.work ∧ t.flash.xferSize = imgSize f.work) ∧
        (t.hasBlock 0 = false ∨ (∃ j, j < blocksOf t.flash.xferSize ∧ t.hasBlock j = false) → t.rd F.UPD_STATUS_XFER = 1) ∧
        (t.hasBlock 0 = true → (∀ j, j < blocksOf t.flash.xferSize → t.hasBlock j = true) →
          t.rd F.UPD_STATUS_XFER = (if imgHeadOk 0x49 t.xferImage && leAt t.xferImage 0x16 2 == 0x0640 then 2 else 3)))) ∧
      (f.busy = 4 → Yields .updateCommandDone s (fun t => idle t ∧ t.flash.main0 = n.fbImg ∧ t.flash.main1 = n.fbImg ∧ t.flash.fb0 = f.fb0 ∧
        t.on F.UPD_STATUS_TRIAL = false ∧ t.on F.UPD_STATUS_FELL_BACK = true ∧ t.rd F.UPD_STATUS_FB_CAUSE = 2)) ∧
      (f.busy = 6 → Yields .updateCommandDone s (fun t => idle t ∧ t.flash.settings = f.settings ++ [f.work])) ∧
      (f.busy = 7 → Yields .updateCommandDone s (fun t => idle t ∧ t.flash.loaderCur = (if f.loaderCur = 0 then 1 else 0) ∧
        (if f.loaderCur = 0 then t.flash.loader1 = f.work.take (imgSigned f.work) ∧ t.flash.loader0 = f.loader0
         else t.flash.loader0 = f.work.take (imgSigned f.work) ∧ t.flash.loader1 = f.loader1))) ∧
      (n.on F.UPD_STATUS_CONFIRMING = true → f.busy = 3 → Yields .confirmCopyDone s (fun t => idle t ∧ t.flash.fb0 = n.mainImg ∧
        t.flash.fb1 = n.mainImg ∧ t.flash.crec = .none ∧ t.on F.UPD_STATUS_CONFIRMING = false ∧ t.on F.UPD_STATUS_TRIAL = false ∧
        t.rd F.UPD_STATUS_TRIAL_RESTARTS = 0))) ∧
    (RegPasses n x .UPD_CMD 2 →
      let batt := n.rd F.UPD_BATT_THRESH
      let notReady := n.rd F.UPD_STATUS_XFER ≠ 2
      let copying := n.on F.UPD_STATUS_CONFIRMING = true
      let locked := n.on F.UPD_CTRL_UPDATE_LOCK = true
      let moves := n.moving = true
      let flat := batt ≠ 0 ∧ n.rd F.PWR_BATTERY_VOLTS < batt
      let noSettings := imgFormat n.xferImage ≠ n.rd F.UPD_FORMATS_BOOTED ∧ n.hasFormat (imgFormat n.xferImage) = false
      let c := Instr.commitUpdate x
      (notReady → res c m 2) ∧ (¬ notReady → copying → res c m 8) ∧ (¬ notReady → ¬ copying → locked → res c m 6) ∧
      (¬ notReady → ¬ copying → ¬ locked → moves → res c m 3) ∧ (¬ notReady → ¬ copying → ¬ locked → ¬ moves → flat → res c m 5) ∧
      (¬ notReady → ¬ copying → ¬ locked → ¬ moves → ¬ flat → noSettings → res c m 7) ∧
      (¬ notReady → ¬ copying → ¬ locked → ¬ moves → ¬ flat → ¬ noSettings → Yields c s (fun t =>
        Restarted ({ n with flash := { f with crec := .copy } }.fault 4 3 1) 4 t ∧ Output.resp x true 0 ∈ t.out))) ∧
    (RegPasses n x .UPD_CMD 3 →
      (n.on F.UPD_STATUS_CONFIRMING = true → res (.confirmUpdate x) m 8) ∧
      (n.on F.UPD_STATUS_CONFIRMING = false → n.on F.UPD_STATUS_TRIAL = false → res (.confirmUpdate x) m 2) ∧
      (n.on F.UPD_STATUS_CONFIRMING = false → n.on F.UPD_STATUS_TRIAL = true → Answered (.confirmUpdate x) s x 0
        ({ m with flash := { f with busy := 3, busyArg := 0, work := [], crec := .confirm } }.wrs
          [(F.UPD_CMD_RESULT, 15), (F.UPD_STATUS_CONFIRMING, 1)]))) ∧
    (RegPasses n x .UPD_CMD 4 → starts (.revert x) 4 0 []) ∧
    (RegPasses n x .UPD_CMD 5 → Answered (.abortTransfer x) s x 0
      ({ m with flash := { f with xfer := [], xferId := 0, xferSize := 0, frags := [], relays := [], placed := false } }.wrs
        [(F.UPD_STATUS_XFER, 0), (F.UPD_CMD_RESULT, 0)])) ∧
    (RegPasses n x .UPD_CMD 6 →
      (setRecord buf = none → res (.setwrite x) m 1) ∧
      (∀ fmt q v, setRecord buf = some (fmt, q, v) →
        let ours := (fmt = n.rd F.UPD_FORMATS_BOOTED ∧ fmt ≠ 0) ∨ (n.fbImg ≠ [] ∧ fmt = imgFormat n.fbImg) ∨
          (n.hasBlock 0 = true ∧ fmt = imgFormat (FMap.get [] f.xfer 0))
        (¬ ours → res (.setwrite x) m 1) ∧
        (ours → ∀ top held, bestRecord f.settings fmt = some (top, held) → ∃ w, starts (.setwrite x) 6 0 w ∧ w.length = leAt buf 12 4 ∧
          leAt w 8 4 = (top + 1) % 2 ^ 32 ∧ w.take 8 = buf.take 8 ∧ leAt w (w.length - 4) 4 = crc32c (w.take (w.length - 4)) % 2 ^ 32))) ∧
    (RegPasses n x .UPD_CMD 7 →
      let whole := n.hasBlock 0 = true ∧ (∀ j, j < blocksOf f.xferSize → n.hasBlock j = true) ∧ slotCode true f.keys n.xferImage = 1
      (¬ whole → res (.loaderWrite x) m 1) ∧ (whole → starts (.loaderWrite x) 7 0 n.xferImage)) ∧
    (n.single = false → n.tn7Mode = false →
      (∀ j b, n.mode = .active → n.rd F.UPD_STATUS_XFER = 2 → n.hasBlock j = true →
        Settles (.standbyImageCopy j b) s (n.emit (.cicadaBlock j (FMap.get [] f.xfer j)))) ∧
      (∀ j b, n.mode = .coldStandby → n.fits → b ≠ [] → j < 512 → (j = 0 → f.xferId = imgBuild b) →
        Yields (.standbyImageCopy j b) s (fun t => FMap.get [] t.flash.xfer j = b ∧ t.mode = .coldStandby ∧ ∀ i, i ≠ j →
          FMap.get [] t.flash.xfer i = FMap.get [] f.xfer i)))

/-- 13 R470 to R472: the chain relay: an OFFER names the image and its size, and none goes to a partner that holds it all; relay frames wait in class 0 of their port, behind the relay rate (log entry 133); a receiver with relay off answers NAK cause 2, one that holds another image NAK cause 3, else ACK with the first block it lacks; the last fragment of a block that checks good stores it and gets an ACK, one that does not gets NAK cause 1 and is counted; an ACK lets up to four blocks follow in order, the third NAK in a row of one block ends the relay to that partner. 13 R467: a malformed relay frame is a partner violation. -/
def Obligations.ChainRelay : Prop :=
  ∀ (s : State) (p : Nat) (b : List Byte), s.node.fits → p < 4 →
    let n := s.node
    let f := n.flash
    let r := n.relay p
    let id := leAt b 18 8
    let size := leAt b 26 4
    let k := leAt b 30 2
    let i := byteAt b 32
    let got := n.counted p b
    let wire := n.receives p = true ∧ 60 ≤ b.length ∧ b.length + 4 ≤ n.rd (F.PRT_CTRL_MAXLEN p) ∧ 1 ≤ n.level ∧
      (n.level = 1 → n.topoWorks = true) ∧ n.barred p = false
    let arrives := fun (ty : Nat) => wire ∧ relayOk (b.drop 14) = true ∧ byteAt b 17 = ty
    let answers := fun (t : Node) (ty block cause : Nat) => ∃ h, t.relayWaits p h ∧ beAt h 12 2 = 0x88B7 ∧ beAt h 14 2 = 0x5550 ∧
      byteAt h 17 = ty ∧ leAt h 18 8 = id ∧ leAt h 30 2 = block ∧ byteAt h 33 = cause
    (r.started = false →
      (n.relayHas p = true → Settles (.relayOfferTimer p) s n) ∧
      (n.mayOffer p = true → n.relayHas p = false → n.canTx p = true → Yields (.relayOfferTimer p) s (fun t => t.flash = f ∧ ∃ h, t.relayWaits p h ∧
        beAt h 0 6 = 0x0180C200000E ∧ beAt h 12 2 = 0x88B7 ∧ beAt h 14 2 = 0x5550 ∧ byteAt h 16 = 1 ∧ byteAt h 17 = 1 ∧
        leAt h 18 8 = f.xferId % 2 ^ 64 ∧ leAt h 26 4 = f.xferSize % 2 ^ 32)) ∧
      (n.mayOffer p = false → Settles (.relayOfferTimer p) s n)) ∧
    (wire → relayOk (b.drop 14) = false →
      ∀ c ∈ [Instr.relayOffer p b, .relayBlock p b, .relayAck p b, .relayNak p b], Settles c s (got.pviol 19 p)) ∧
    (n.canTx p = true → n.nativeUp p = true →
      (∀ ty c, (ty, c) ∈ [(1, Instr.relayOffer p b), (2, .relayBlock p b)] → arrives ty →
        ((n.on F.UPD_CTRL_RELAY_EN = false ∨ n.mode ≠ .active) → Yields c s (fun t => answers t 4 k 2 ∧ t.flash = f)) ∧
        (n.on F.UPD_CTRL_RELAY_EN = true → n.mode = .active → f.xfer ≠ [] → f.xferId ≠ id → Yields c s (fun t => answers t 4 k 3 ∧ t.flash = f))) ∧
      (n.on F.UPD_CTRL_RELAY_EN = true → n.mode = .active → (f.xfer = [] ∨ f.xferId = id) →
        (arrives 1 →
          (f.xfer = [] → Yields (.relayOffer p b) s (fun t => answers t 3 0 0 ∧ t.flash = f)) ∧
          (f.xfer ≠ [] → (∀ j, j < blocksOf f.xferSize → n.hasBlock j = true) → Yields (.relayOffer p b) s (fun t => answers t 3 0xFFFF 0 ∧ t.flash = f)) ∧
          (∀ j, f.xfer ≠ [] → j < blocksOf f.xferSize → j < 2 ^ 16 → n.hasBlock j = false → (∀ q, q < j → n.hasBlock q = true) →
            Yields (.relayOffer p b) s (fun t => answers t 3 j 0 ∧ t.flash = f))) ∧
        (arrives 2 → n.hasBlock k = false →
          let frag := slice b 46 (leAt b 38 2)
          let need := (blockLen size k + 1023) / 1024
          let parts := (List.range need).map (fun j => if j = i then frag else FMap.get [] f.frags (64 * k + j))
          ((∃ q ∈ parts, q = []) → Settles (.relayBlock p b) s { got with flash := { f with frags := FMap.put [] f.frags (64 * k + i) frag } }) ∧
          ((∀ q ∈ parts, q ≠ []) → parts.flatten.length = blockLen size k → parts.flatten ≠ [] → crc32c parts.flatten = leAt b 34 4 →
            Yields (.relayBlock p b) s (fun t => FMap.get [] t.flash.xfer k = parts.flatten ∧ (t.relay p).got = true ∧
              ∃ j, answers t 3 j 0 ∧ (j = 0xFFFF ∨ (FMap.get [] t.flash.xfer j = [] ∧ ∀ q, q < j → FMap.get [] t.flash.xfer q ≠ [])))) ∧
          ((∀ q ∈ parts, q ≠ []) → crc32c parts.flatten ≠ leAt b 34 4 → Yields (.relayBlock p b) s (fun t =>
            answers t 4 k 1 ∧ t.flash.xfer = f.xfer ∧ t.rd F.UPD_RELAY_STAT_NAKS = min (n.rd F.UPD_RELAY_STAT_NAKS + 1) 255)))) ∧
      (n.mayOffer p = true → f.xferId = id → arrives 3 →
        (k = 0xFFFF → Settles (.relayAck p b) s (got.setRelay p
          { r with started := false, naks := 0, acked := blocksOf f.xferSize, sent := blocksOf f.xferSize })) ∧
        (k + 4 < 0xFFFF → r.started = false → (∀ j, k ≤ j → j < k + 4 → n.hasBlock j = true) → Yields (.relayAck p b) s (fun t =>
          (t.relay p).acked = k ∧ (t.relay p).sent = k + 4 ∧ ∀ j, k ≤ j → j < k + 4 → ∀ a, a < 64 → ∃ h, t.relayWaits p h ∧
            byteAt h 17 = 2 ∧ leAt h 30 2 = j ∧ byteAt h 32 = a ∧ slice h 46 (leAt h 38 2) = slice (FMap.get [] f.xfer j) (1024 * a) 1024))) ∧
      (f.xferId = id → arrives 4 →
        (byteAt b 33 = 1 → r.nakOf = k → 2 ≤ r.naks → Settles (.relayNak p b) s ((got.setRelay p { r with started := false, naks := 0 }).wrs
          [(F.UPD_RELAY_STAT_NAKS, min (n.rd F.UPD_RELAY_STAT_NAKS + 1) 255), (F.UPD_RELAY_STAT_ABANDONED, min (n.rd F.UPD_RELAY_STAT_ABANDONED + 1) 255)])) ∧
        (byteAt b 33 = 1 → r.naks < 2 ∨ r.nakOf ≠ k → n.hasBlock r.acked = false → Settles (.relayNak p b) s
          ((got.setRelay p { r with naks := if r.nakOf = k then r.naks + 1 else 1, nakOf := k, sent := r.acked }).wr F.UPD_RELAY_STAT_NAKS (min (n.rd F.UPD_RELAY_STAT_NAKS + 1) 255))) ∧
        (byteAt b 33 ≠ 1 → Settles (.relayNak p b) s (got.setRelay p { r with started := false }))))

/-- 10 R350 to R353, R356 to R358, R360 to R367, R375: a CAN channel: a correct frame that passes format and filters is stored as an entry and counted, without cells or entries counted and lost; the entry whose attempt is on the bus leaves its queue when sent; an error counts, raises TEC or REC and, after the arbitration field, the clash count, up to abandonment and bus-off with their records; FLUSH_TX, RXACK and RECOVER; EN is set only with a valid configuration, and the channel integrates then; clearing it keeps the queue, and ends an attempt with its clash count at zero; a CAN XL frame with SEC set is counted and not stored, whether or not the channel is bound. The steps of TEC and REC are those of ISO 11898-1 (log entry 19); whether an attempt has started at a FLUSH_TX is open (log entry 26). -/
def Obligations.CanChannels : Prop :=
  ∀ (s : State) (ch : Nat), ch < 8 → s.node.fits →
    let n := s.node
    let c := n.chan ch
    let tec := n.rd (F.CAN_STATUS_TEC ch)
    let rec' := n.rd (F.CAN_STATUS_REC ch)
    let plus := fun (j : Nat) => min (n.rd (F.CAN_CNT_COUNT ch j) + 1) (2 ^ 32 - 1)
    let joined := n.setChan ch { c with joining := false }
    (∀ f : CanFrame,
      (n.canOn ch = false ∨ n.on (F.CAN_CTRL_LOOP ch) = true ∨ n.canFormat ch f = false → Settles (.canFrameValid ch f) s n) ∧
      (n.canOn ch = true → n.on (F.CAN_CTRL_LOOP ch) = false → n.canFormat ch f = true → 128 ≤ rec' → n.chanStores ch = false →
        Yields (.canFrameValid ch f) s (fun t => 119 ≤ t.rd (F.CAN_STATUS_REC ch) ∧ t.rd (F.CAN_STATUS_REC ch) ≤ 127 ∧ t.fab = n.fab ∧
          t.chan ch = { c with joining := false })) ∧
      (n.canOn ch = true → n.on (F.CAN_CTRL_LOOP ch) = false → n.canFormat ch f = true → rec' < 128 → f.xlf = true → f.sec = true →
        Settles (.canFrameValid ch f) s (((joined.wr (F.CAN_STATUS_REC ch) (rec' - 1)).wr (F.CAN_CNT_COUNT ch 8) (plus 8)).pviol 18 ch)) ∧
      (n.canOn ch = true → n.on (F.CAN_CTRL_LOOP ch) = false → n.canFormat ch f = true → rec' < 128 → n.chanStores ch = true →
        (f.xlf && f.sec) = false →
        (n.canMatch ch f = false → Settles (.canFrameValid ch f) s (joined.wr (F.CAN_STATUS_REC ch) (rec' - 1))) ∧
        (n.canMatch ch f = true →
          let k := cellsFor f.data.length
          (n.reserve + k ≤ n.freeCells → c.inUse < 256 → Yields (.canFrameValid ch f) s (fun t =>
            t.rd (F.CAN_STATUS_REC ch) = rec' - 1 ∧ t.rd (F.CAN_CNT_COUNT ch 1) = plus 1 ∧ (t.chan ch).txq = c.txq ∧
            ∃ x, (t.chan ch).rx = c.rx ++ [x] ∧ x.fr = f ∧ x.data = f.data ∧ x.epoch = n.epoch ∧ x.id = c.nextId ∧ x.cells.length = k ∧
              x.held = false)) ∧
          (n.reserve + k ≤ n.freeCells → 256 ≤ c.inUse → Yields (.canFrameValid ch f) s (fun t =>
            (t.chan ch).rx = c.rx ∧ t.rd (F.CAN_CNT_COUNT ch 4) = plus 4)) ∧
          (n.freeCells < n.reserve + k → Settles (.canFrameValid ch f) s
            (joined.wrs [(F.CAN_STATUS_REC ch, rec' - 1), (F.CAN_CNT_COUNT ch 5, plus 5)]))))) ∧
    (∀ x, n.canSends ch = true → c.txq[c.tryAt]? = some x →
      let rest := c.txq.eraseIdx c.tryAt
      let ends := fun k => c.txq.set c.tryAt { x with trying := false, clash := k }
      let thr := n.rd (F.CAN_CTRL_CLASH_THR ch)
      (n.on (F.CAN_CTRL_LOOP ch) = false → Yields (.canTxSuccess ch) s (fun t =>
        Output.can ch { x.fr with esi := n.canPassive ch, sec := false, vcid := 0 } ∈ t.out ∧ (t.chan ch).txq = rest ∧
        t.rd (F.CAN_CNT_COUNT ch 0) = plus 0 ∧
        (x.flush = true → t.rd (F.CAN_CNT_COUNT ch 6) = plus 6) ∧ (tec < 2 ^ 9 → t.rd (F.CAN_STATUS_TEC ch) = tec - 1))) ∧
      (∀ e, e ∈ [CanErr.txDataBit, .txXlFast] → tec ≤ 247 →
        (x.flush = false → (thr = 0 ∨ x.clash + 1 < thr) → Yields (.canError ch e) s (fun t =>
          (t.chan ch).txq = ends (x.clash + 1) ∧ t.rd (F.CAN_STATUS_TEC ch) = tec + 8 ∧
          t.rd (F.CAN_CNT_COUNT ch 2) = plus 2 ∧ t.fab = n.fab)) ∧
        (thr ≠ 0 → thr ≤ x.clash + 1 → x.fr.id < 2 ^ 29 → n.log.staged.length < 60 → Yields (.canError ch e) s (fun t =>
          (t.chan ch).txq = rest ∧ t.rd (F.CAN_CNT_COUNT ch 7) = plus 7 ∧ t.on (F.CAN_STATUS_CLASH_EV ch) = true ∧
          t.hasRecord 12 2 (ch * 2 ^ 29 + x.fr.id) ∧ (n.on (F.CAN_CLASH_VALID ch) = false →
            t.on (F.CAN_CLASH_VALID ch) = true ∧ t.rd (F.CAN_CLASH_ID ch) = x.fr.id ∧ t.on (F.CAN_CLASH_IDE ch) = x.fr.ide)))) ∧
      (247 < tec → tec < 2 ^ 9 → x.flush = false → n.log.staged.length < 60 → Yields (.canError ch .txOther) s (fun t =>
        (t.chan ch).busOff = true ∧ (t.chan ch).recovering = false ∧ (t.chan ch).txq = ends 0 ∧
        t.on (F.CAN_STATUS_BUSOFF_EV ch) = true ∧ t.rd (F.CAN_CNT_COUNT ch 3) = plus 3 ∧ t.hasRecord 12 1 (ch * 2 ^ 29))) ∧
      (x.flush = false → Settles (.canError ch .txArbLost) s (n.setChan ch { c with joining := false, txq := ends x.clash })) ∧
      (x.flush = true → Yields (.canError ch .txArbLost) s (fun t => (t.chan ch).txq = rest ∧
        t.rd (F.CAN_CNT_COUNT ch 6) = plus 6))) ∧
    (n.canOn ch = false → ∀ e, Settles (.canError ch e) s n) ∧
    (n.canOn ch = true → n.canSends ch = false → ∀ e ∈ [CanErr.txArbLost, .txDataBit, .txXlFast, .txOther, .txAckPassive, .txStuffArb],
      Settles (.canError ch e) s joined) ∧
    (n.canOn ch = true → n.on (F.CAN_CTRL_LOOP ch) = false →
      Settles (.canError ch .rxError) s (((joined.wr (F.CAN_CNT_COUNT ch 2) (plus 2)).pviol 17 ch).wr (F.CAN_STATUS_REC ch) (min 255 (rec' + 1))) ∧
      ∀ e ∈ [CanErr.rxDominant, .rxFlagBit, .rxFlagDominant],
        Settles (.canError ch e) s (((joined.wr (F.CAN_CNT_COUNT ch 2) (plus 2)).pviol 17 ch).wr (F.CAN_STATUS_REC ch) (min 255 (rec' + 8)))) ∧
    (n.canOn ch = true → n.on (F.CAN_CTRL_LISTEN ch) = false → tec ≤ 247 → ∀ e ∈ [CanErr.txFlagBit, .txFlagDominant],
      Settles (.canError ch e) s (((joined.wr (F.CAN_CNT_COUNT ch 2) (plus 2)).pviol 17 ch).wr (F.CAN_STATUS_TEC ch) (tec + 8))) ∧
    (c.recovering = true → Settles (.recoveryComplete ch) s
      ((n.setChan ch { c with busOff := false, recovering := false, joining := false, txq := c.txq.map (fun x => { x with clash := 0 }) }).wrs
        [(F.CAN_STATUS_TEC ch, 0), (F.CAN_STATUS_REC ch, 0)])) ∧
    (∀ b, b < 10 → Settles (.fieldbusEntryFreed b) s (n.setChan b { n.chan b with returning := (n.chan b).returning - 1 })) ∧
    (∀ x : Master,
      (RegPasses n x (.CAN_CMD ch) 1 →
        (c.busOff = false → Answered (.recover x ch) s x 0 ((n.leased x).wr (F.CAN_CMD_RESULT ch) 1)) ∧
        (c.busOff = true → c.recovering = false → n.on (F.CAN_CTRL_EN ch) = false →
          Answered (.recover x ch) s x 0 ((n.leased x).wr (F.CAN_CMD_RESULT ch) 1)) ∧
        (c.busOff = true → c.recovering = false → n.on (F.CAN_CTRL_EN ch) = true →
          Answered (.recover x ch) s x 0 (((n.leased x).setChan ch { c with recovering := true }).wr (F.CAN_CMD_RESULT ch) 0))) ∧
      (RegPasses n x (.CAN_CMD ch) 2 → Yields (.flushTx x ch) s (fun t =>
        t.rd (F.CAN_CMD_RESULT ch) = 0 ∧ Output.resp x true 0 ∈ t.out ∧
        ∃ l, (l = c.txq ∨ l = c.txq.modify 0 (fun y => { y with trying := true })) ∧
          (n.canSends ch = false ∨ c.txq.any (fun y => y.trying) = true → l = c.txq) ∧
          (t.chan ch).txq = (l.filter (fun y => y.trying)).map (fun y => { y with flush := true }) ∧
          (n.rd (F.CAN_CNT_COUNT ch 6) < 2 ^ 32 → t.rd (F.CAN_CNT_COUNT ch 6) =
            min (n.rd (F.CAN_CNT_COUNT ch 6) + (l.filter (fun y => !y.trying)).length) (2 ^ 32 - 1)))) ∧
      (∀ k, k < 256 → RegPasses n x (.CAN_CMD ch) (3 + 256 * k) → (c.rx.map (fun e => e.id)).Nodup → (∀ e ∈ c.rx, e.held = false) →
        Yields (.rxack x ch k) s (fun t => (t.chan ch).rx = c.rx.drop k ∧ (t.chan ch).returning = c.returning + min k c.rx.length ∧
          t.rd (F.CAN_CMD_RESULT ch) = 0 ∧ Output.resp x true 0 ∈ t.out)) ∧
      (∀ v, RegPasses n x (.CAN_CTRL ch) v → v < 2 ^ 32 →
        let mode := if bitsOf v 27 26 = 3 then n.rd (F.CAN_CTRL_XCVR ch) else bitsOf v 27 26
        let ok := n.canCfgOk ch mode (bitOf v 25) (bitOf v 24)
        (n.on (F.CAN_CTRL_EN ch) = false → bitOf v 31 = true → n.rd (F.CAN_CTRL_XCVR ch) < 4 → Yields (.canEnable x ch v) s (fun t =>
          t.on (F.CAN_CTRL_EN ch) = ok ∧ (ok = false → t.on (F.CAN_STATUS_CFG_ERR ch) = true) ∧ t.rd (F.CAN_CTRL_XCVR ch) = mode ∧
          t.on (F.CAN_CTRL_LISTEN ch) = bitOf v 30 ∧ t.on (F.CAN_CTRL_LOOP ch) = bitOf v 29 ∧ t.on (F.CAN_CTRL_TERM ch) = bitOf v 28 ∧
          t.on (F.CAN_CTRL_FD_EN ch) = bitOf v 25 ∧ t.on (F.CAN_CTRL_XL_EN ch) = bitOf v 24 ∧
          t.rd (F.CAN_CTRL_CLASH_THR ch) = (if bitsOf v 21 16 = 1 then 2 else min (bitsOf v 21 16) 32) ∧
          t.chan ch = (if ok then { c with joining := true } else c) ∧ ∀ q, q ≠ ch → t.chan q = n.chan q)) ∧
        (n.on (F.CAN_CTRL_EN ch) = true → bitOf v 31 = false → Yields (.canEnable x ch v) s (fun t =>
          t.on (F.CAN_CTRL_EN ch) = false ∧ (t.chan ch).enGen = c.enGen + 1 ∧ (c.txq.any (fun y => y.trying) = false → (t.chan ch).txq = c.txq) ∧
          (∀ y, c.txq[c.tryAt]? = some y → y.trying = true → y.flush = false →
            (t.chan ch).txq = c.txq.set c.tryAt { y with trying := false, clash := 0 }) ∧ (t.chan ch).joining = false ∧ (t.chan ch).rx = c.rx ∧
          t.on (F.CAN_CTRL_LISTEN ch) = n.on (F.CAN_CTRL_LISTEN ch) ∧ t.rd (F.CAN_CTRL_XCVR ch) = n.rd (F.CAN_CTRL_XCVR ch)))))

/-- 10 R368 to R374, R376: an MVB channel, on the lines in use: a master frame for an enabled source port with data is answered with that data, another device's reply is stored for an enabled sink port, the status query of the own address is answered (the places of its bits, and the times of frames on the bus: log entry 27); a bad frame, an F-code not supported, and a missing reply are counted as partner violations; a master frame heard by the administrator is a conflict; the administrator polls what is due in a basic period and skips what does not fit into it; a frame on a line that is off, or on the other line while the selected one is in order, is not received (the choice between the lines: log entry 114); EN starts the channel afresh. -/
def Obligations.MvbChannels : Prop :=
  ∀ (s : State) (m : Nat), m < 2 → s.node.fits →
    let n := s.node
    let ch := 8 + m
    let c := n.chan ch
    let plus := fun (j : Nat) => min (n.rd (F.MVB_CNT_COUNT m j) + 1) (2 ^ 32 - 1)
    let bad := fun (a : Node) => (a.wr (F.MVB_CNT_COUNT m 3) (plus 3)).pviol 14 ch
    let sel := n.rd (F.MVB_STATUS_RX_LINE m)
    let own := if n.mvbLineOn m sel = true then sel else 1 - sel
    let good := if own = sel then n.wr (mvbLineOk m own) 1 else (n.wr (mvbLineOk m own) 1).wr (F.MVB_STATUS_RX_LINE m) own
    let polled := fun (x : Option (Nat × Nat)) => good.setChan ch { c with poll := x }
    let busy := n.mvbLineOn m sel = true ∧ n.on (mvbLineOk m sel) = true
    let hearing := fun (a : Nat) (k : Nat) (d : List Byte) (f : Nat) => n.mvbPort m 2 f a = some k ∧ n.chanStores ch = true ∧
      (n.on (F.MVB_PORT_ONCHANGE m k) = false ∨ FMap.get [] c.lastSink k ≠ d) ∧ n.reserve + cellsFor d.length ≤ n.freeCells ∧ c.inUse < 256
    (n.mvbOn m = false → (∀ f a ok, Settles (.mvbMasterFrame m f a ok) s n) ∧ Settles (.mvbBasicPeriod m) s n ∧ Settles (.mvbReplyTimeout m) s n) ∧
    (n.mvbOn m = true →
      (∀ f a, Settles (.mvbMasterFrame m f a false) s (bad ((n.wr (mvbLineOk m own) 0).setChan ch { c with poll := none }))) ∧
      (n.on (F.MVB_CTRL_ADMIN m) = false → ∀ f a,
        ((f ≤ 4 ∧ n.mvbPort m 1 f a = none) ∨ (f = 15 ∧ a ≠ n.rd (F.MVB_CTRL_DEVADDR m)) → Settles (.mvbMasterFrame m f a true) s (polled (some (f, a)))) ∧
        (∀ k d, f ≤ 4 → n.mvbPort m 1 f a = some k → FMap.get [] c.src k = d → d ≠ [] → Yields (.mvbMasterFrame m f a true) s (fun t =>
          Output.mvbSlave ch (n.mvbLines m) d ∈ t.out ∧ t.rd (F.MVB_CNT_COUNT m 1) = plus 1 ∧ (t.chan ch).poll = none ∧ (t.chan ch).src = c.src)) ∧
        (f = 15 → a = n.rd (F.MVB_CTRL_DEVADDR m) → Yields (.mvbMasterFrame m f a true) s (fun t =>
          ∃ d, Output.mvbSlave ch (n.mvbLines m) d ∈ t.out ∧ d.length = 2 ∧ t.rd (F.MVB_CNT_COUNT m 1) = plus 1)) ∧
        (5 ≤ f → f ≠ 15 → Settles (.mvbMasterFrame m f a true) s
          (((polled none).wr (F.MVB_CNT_COUNT m 7) (plus 7)).pviol 15 ch))) ∧
      (n.on (F.MVB_CTRL_ADMIN m) = true → c.conflict = false → ∀ f a,
        let pd := f ≤ 4 ∨ f = 15
        (n.mvbOwn m f a = none ∨ ¬ pd → Settles (.mvbMasterFrame m f a true) s
          ((((good.setChan ch { c with conflict := true, pollq := [], poll := if pd then some (f, a) else none }).wr
            (F.MVB_STATUS_CONFLICT m) 1).fault 13 1 m).pviol 16 ch)) ∧
        (∀ d, f ≤ 4 → n.mvbOwn m f a = some d → Yields (.mvbMasterFrame m f a true) s (fun t =>
          (t.chan ch).conflict = true ∧ (t.chan ch).poll = none ∧ t.on (F.MVB_STATUS_CONFLICT m) = true ∧
          Output.mvbSlave ch (n.mvbLines m) d ∈ t.out))) ∧
      (n.on (F.MVB_CTRL_ADMIN m) = false → ∀ line d, line < 2 →
        let okF := mvbLineOk m line
        (n.mvbLineOn m line = false → ∀ ok, Settles (.mvbSlaveFrame m ok line d) s n) ∧
        (n.mvbLineOn m line = true → line ≠ sel → busy → ∀ ok, Settles (.mvbSlaveFrame m ok line d) s (n.wr okF (b2n ok))) ∧
        (n.mvbLineOn m line = true → line = sel → c.poll = none →
          Settles (.mvbSlaveFrame m false line d) s (bad ((n.wr okF 0).setChan ch { c with poll := none, lineAt := 0 }))) ∧
        (∀ f a k, n.mvbLineOn m line = true → line = sel ∨ ¬ busy → c.poll = some (f, a) → d.length = fcodeBytes f → hearing a k d f → Yields (.mvbSlaveFrame m true line d) s (fun t =>
          t.on okF = true ∧ t.rd (F.MVB_STATUS_RX_LINE m) = line ∧ (t.chan ch).poll = none ∧
          FMap.get [] (t.chan ch).lastSink k = d ∧ ∃ x, (t.chan ch).rx = c.rx ++ [x] ∧ x.addr = a ∧ x.fcode = f ∧ x.data = d ∧
            x.epoch = n.epoch ∧ x.cells.length = cellsFor d.length))) ∧
      (n.on (F.MVB_CTRL_ADMIN m) = true → c.conflict = false →
        (∀ f a rest, c.pollq = [] → n.mvbDue m (c.basic % 2 ^ n.rd (F.MVB_ADMIN_MACRO m)) = (f, a) :: rest → n.mvbOwn m f a = none →
          Yields (.mvbBasicPeriod m) s (fun t => Output.mvbMaster ch (n.mvbLines m) f a ∈ t.out ∧ (t.chan ch).poll = some (f, a) ∧ (t.chan ch).pollq = rest ∧
            (t.chan ch).basic = (c.basic % 2 ^ n.rd (F.MVB_ADMIN_MACRO m) + 1) % 2 ^ n.rd (F.MVB_ADMIN_MACRO m) ∧
            t.rd (F.MVB_CNT_COUNT m 0) = plus 0)) ∧
        (c.poll ≠ none → c.pollq = [] → Settles (.mvbReplyTimeout m) s
          (((n.wr (F.MVB_CNT_COUNT m 2) (plus 2)).pviol 13 ch).setChan ch { c with poll := none, lineAt := 0 })) ∧
        (∀ f a, c.poll ≠ none → c.pollq = [(f, a)] →
          c.periodAt + 250000 * (1 + n.rd (F.MVB_ADMIN_BASIC m)) < n.clock.cycles + mvbTime 2 + 10675 + mvbTime (fcodeBytes f) →
          Yields (.mvbReplyTimeout m) s (fun t => t.rd (F.MVB_CNT_COUNT m 8) = plus 8 ∧ t.rd (F.MVB_CNT_COUNT m 0) = n.rd (F.MVB_CNT_COUNT m 0) ∧
            (t.chan ch).pollq = [] ∧ (t.chan ch).poll = none)))) ∧
    (∀ x : Master, n.rd (F.MVB_CTRL_EN m) = 0 → n.rd (F.MVB_CTRL_ADMIN m) < 2 → n.rd (F.MVB_CTRL_LINE_A m) < 2 → n.rd (F.MVB_CTRL_LINE_B m) < 2 →
      n.rd (F.MVB_CTRL_DEVADDR m) < 2 ^ 12 →
      RegPasses n x (.MVB_CTRL m) (2 ^ 31 + n.rd (F.MVB_CTRL_ADMIN m) * 2 ^ 30 + n.rd (F.MVB_CTRL_LINE_A m) * 2 ^ 29 +
        n.rd (F.MVB_CTRL_LINE_B m) * 2 ^ 28 + n.rd (F.MVB_CTRL_DEVADDR m)) → Yields (.mvbEnable x m) s (fun t =>
        t.on (F.MVB_CTRL_EN m) = true ∧ t.rd (F.MVB_CTRL_ADMIN m) = n.rd (F.MVB_CTRL_ADMIN m) ∧
        t.rd (F.MVB_CTRL_DEVADDR m) = n.rd (F.MVB_CTRL_DEVADDR m) ∧ (t.chan ch).src = [] ∧ (t.chan ch).conflict = false ∧
        (t.chan ch).poll = none ∧ (t.chan ch).pollq = [] ∧ (t.chan ch).basic = 0 ∧ (t.chan ch).rx = c.rx ∧ Output.resp x true 0 ∈ t.out))

/-- 11 R377 to R384, R387 to R389, R391 to R395, R397, R398, R403: the bridge as initiator: the layout of a message and of its datagram; the target of a window; a read sends READ with a free tag of the next generation, waits without one, answers a word of a line held of the same far node at once, and ends with a record and FFFFFFFFh on refusal, failure or timeout; a write takes the next sequence number, completes at once and sends WRITE, is dropped at a fence, logged at a refusal; COMPLETION, WRITE_ERR and LOCK_BROKEN; the locked sequence; the expiry of a held line; the timeout of a dataset. At epoch 0 every window is refused with EPOCH. The order of the refusals is log entry 29, corners of the locked sequence log entry 84, the RESULT of a step without an open sequence log entry 138, and the port of a message handed over as a row log entry 98. -/
def Obligations.BridgeInitiator : Prop :=
  (∀ q : BMsg, q.ty < 256 → q.flags < 256 → q.epoch < 2 ^ 16 → q.src < 2 ^ 48 → q.dst < 2 ^ 48 → q.tag < 2 ^ 16 → q.seq < 2 ^ 16 →
     q.addr < 2 ^ 32 → q.win < 256 → q.cause < 256 → q.data.length < 2 ^ 16 → bmsgOf q.bytes = q ∧ q.bytes.length = 32 + q.data.length) ∧
  (∀ (n : Node) (pos : Nat) (p : List Byte), pos < 64 → n.position < 64 → p.length < 2 ^ 15 →
     let b := n.bridgeFrame pos p
     beAt b 12 2 = 0x0800 ∧ byteAt b 14 = 0x45 ∧ beAt b 16 2 = 28 + p.length ∧ byteAt b 23 = 17 ∧ beAt b 26 4 = trainAddr n.position 0 ∧
     beAt b 30 4 = trainAddr pos 0 ∧ beAt b 34 2 = 49321 ∧ beAt b 36 2 = 49321 ∧ beAt b 38 2 = 8 + p.length ∧ b.drop 42 = p) ∧
  (∀ (n : Node) (w : Nat), n.epoch = 0 → n.winTarget w = .inr 3) ∧
  (∀ (n : Node) (w : Nat), n.epoch ≠ 0 → n.on F.BRG_CTRL_EN = false ∨ n.serves = false → n.winTarget w = .inr 9) ∧
  (∀ (n : Node) (w : Nat), n.on F.BRG_CTRL_EN = true → n.serves = true → n.epoch ≠ 0 →
     let byPos := n.rd (F.BRG_WIN_TARGET_POS w)
     let byId := n.rd (F.BRG_WIN_NODE_HI_NODE_HI w) * 2 ^ 32 + n.rd (F.BRG_WIN_NODE_LO_NODE_LO w)
     let route := fun p => p ≠ 0 ∧ bitOf (n.tabW 9 p 0) 63 = true
     (n.on (F.BRG_WIN_CTRL_MODE w) = false → n.rd (F.BRG_WIN_TARGET_EPOCH w) ≠ n.epoch → n.winTarget w = .inr 3) ∧
     (n.on (F.BRG_WIN_CTRL_MODE w) = false → n.rd (F.BRG_WIN_TARGET_EPOCH w) = n.epoch →
       (route byPos → n.winTarget w = .inl (byPos, n.tabW 8 byPos 0 % 2 ^ 48)) ∧ (¬ route byPos → n.winTarget w = .inr 9)) ∧
     (n.on (F.BRG_WIN_CTRL_MODE w) = true → ∀ p, n.dirPos byId = p →
       (route p → n.winTarget w = .inl (p, byId)) ∧ (¬ route p → n.winTarget w = .inr 9))) ∧
  (∀ s : State,
    let n := s.node
    let fr := { n with freeN := n.freeN + 1 }
    let heard := fun (p : Nat) (b : List Byte) =>
      if p < 20 ∧ n.receives p = true then (fr.rxMac p { bytes := n.bridgeHeard b }).2 else fr
    let free := fun k => (FMap.get {} n.brg.tags k).busy = false
    let satInc := fun (f : Fld) => (f, min (n.rd f + 1) (2 ^ f.w - 1))
    let readFails := fun (i w cause : Nat) => satInc (F.BRG_RDSTAT_FAILS i) ::
      (if n.on (F.BRG_RDSTAT_VALID i) then [] else [(F.BRG_RDSTAT_VALID i, 1), (F.BRG_RDSTAT_CAUSE i, cause), (F.BRG_RDSTAT_WIN i, w)])
    let fails := fun (m : Node) (t : Tag) (cause : Nat) =>
      if t.kind < 2 then (m.wrs (readFails t.master.id t.win cause)).emit (.resp t.master false 0xFFFFFFFF)
      else m.wrs ([(F.BRG_LOCK_CTRL_RESULT, cause), (F.BRG_LOCK_CTRL_PENDING, 0)] ++ if t.kind = 2 then [] else [(F.BRG_LOCK_CTRL_OPEN, 0)])
    let issues := fun (c : Instr) (m : Node) (t : Tag) (pos id : Nat) (q : BMsg) (after : Node → Node) =>
      ∃ k g, k < 1024 ∧ free k ∧ g = ((FMap.get {} n.brg.tags k).gen + 1) % 64 ∧
        Settles c s (after (Node.bridgeSend
          { m with freeN := m.freeN + 1, brg := { m.brg with tags := FMap.put {} n.brg.tags k { t with epoch := n.epoch, node := id, gen := g, busy := true } } }
          pos { q with tag := k + 1024 * g }))
    let asks := fun (t : Tag) (id : Nat) => BMsg.mk 1
      (n.rd (F.BRG_WIN_CTRL_MGR t.win) + (if t.kind = 1 then 2 else 0) + (if t.win ∈ n.brg.wrote then 4 else 0)) n.epoch n.ident id 0
      (if t.win ∈ n.brg.wrote then (n.rd (F.BRG_WIN_SEQ_NEXT t.win) + 65535) % 65536 else 0)
      (if t.kind = 1 then t.addr / 64 * 64 else t.addr) t.win 0 []
    let logs := fun (k w pos addr epoch seq cause : Nat) =>
      [(F.BRG_ERR_CAUSE_VALID k, 1), (F.BRG_ERR_CAUSE_CAUSE k, cause), (F.BRG_ERR_CAUSE_WIN k, w), (F.BRG_ERR_CAUSE_FARPOS k, pos),
       (F.BRG_ERR_ADDR_ADDR k, addr), (F.BRG_ERR_SEQ_EPOCH k, epoch), (F.BRG_ERR_SEQ_SEQ k, seq)]
    let opening := fun (a : Node) (addr w : Nat) => { a with brg := { a.brg with lockAddr := addr, lockWin := some w } }
    let entry := fun k => k < 16 ∧ n.on (F.BRG_ERR_CAUSE_VALID k) = false ∧ ∀ j, j < k → n.on (F.BRG_ERR_CAUSE_VALID j) = true
    (∀ (x : Master) (w off v : Nat), x.id < 3 → w < 64 → off < 0x2000000 → off % 4 = 0 → n.dataOn = true →
      let a := 0x80000000 + w * 0x2000000 + off
      let addr := n.rd (F.BRG_WIN_CTRL_BASE w) * 0x2000000 + off
      let pf := n.on (F.BRG_WIN_CTRL_PF w) && decide (0x40000000 ≤ addr) && decide (addr < 0x80000000)
      let t : Tag := { kind := b2n pf, win := w, addr := addr, master := x }
      let held := fun (id : Nat) => n.brg.lines.find? (fun l => l.win == w && l.node == id && l.addr == addr / 64 * 64)
      let onWin := n.on (F.BRG_WIN_CTRL_EN w) = true ∧ addr < 0x80000000
      (Passes n (wordRead x a) →
        let refuses := fun cause => Settles (.windowRead x a 4) s
          ((n.wrs (satInc (F.BRG_WIN_REFUSED_COUNT w) :: readFails x.id w cause)).emit (.resp x false 0xFFFFFFFF))
        (¬ onWin → refuses 6) ∧ (onWin →
          (∀ c, n.winTarget w = .inr c → refuses c) ∧
          (∀ pos id, n.winTarget w = .inl (pos, id) → pf = false ∨ held id = none →
            ((∃ k, k < 1024 ∧ free k) → issues (.windowRead x a 4) n t pos id (asks t id) (fun a => a)) ∧
            ((∀ k, k < 1024 → ¬ free k) → Settles (.windowRead x a 4) s { n with brg := { n.brg with waiting := n.brg.waiting ++ [t] } }))) ∧
        (onWin → pf = true → ∀ pos id l, n.winTarget w = .inl (pos, id) → held id = some l → Settles (.windowRead x a 4) s
          (Node.emit { n with brg := { n.brg with lines := n.brg.lines.erase l ++ [{ l with readMask := setBit l.readMask (addr % 64 / 4) true }] } }
            (.resp x true (leAt l.data (addr % 64) 4))))) ∧
      (Passes n (wordWrite x a v) →
        let m := n.leased x
        let nx := n.rd (F.BRG_WIN_SEQ_NEXT w)
        let farPos := if n.on (F.BRG_WIN_CTRL_MODE w) then
            n.dirPos (n.rd (F.BRG_WIN_NODE_HI_NODE_HI w) * 2 ^ 32 + n.rd (F.BRG_WIN_NODE_LO_NODE_LO w))
          else n.rd (F.BRG_WIN_TARGET_POS w)
        let refuses := fun cause => ∀ k, entry k → ∃ seq, Refused (.windowWrite x a 4 v) s x
          (Node.wrs { m with freeN := n.freeN + 1 } (satInc (F.BRG_WIN_REFUSED_COUNT w) :: logs k w farPos addr n.epoch seq cause))
        (¬ onWin → refuses 6) ∧ (onWin → (∀ c, n.winTarget w = .inr c → refuses c) ∧
          (∀ pos id, n.winTarget w = .inl (pos, id) →
            (n.on (F.BRG_WIN_CTRL_FENCE w) = true → Answered (.windowWrite x a 4 v) s x 0 (m.wrs [satInc (F.BRG_WIN_FENCE_DROPS_COUNT w)])) ∧
            (n.on (F.BRG_WIN_CTRL_FENCE w) = false → (∀ l ∈ n.brg.lines, ¬ (l.node = id ∧ l.addr = addr / 64 * 64)) →
              Settles (.windowWrite x a 4 v) s (Node.bridgeSend
                { (m.wr (F.BRG_WIN_SEQ_NEXT w) (nx + 1)).emit (.resp x true 0) with
                  brg := { n.brg with wrote := if w ∈ n.brg.wrote then n.brg.wrote else w :: n.brg.wrote } }
                pos { ty := 2, flags := n.rd (F.BRG_WIN_CTRL_MGR w), epoch := n.epoch, src := n.ident, dst := id, seq := nx,
                      addr := addr, win := w, data := leBytes 4 v })))))) ∧
    ((n.brg.waiting = [] ∨ ∀ k, k < 1024 → ¬ free k) → Settles .tagWaitEnd s n) ∧
    (∀ t rest pos id, n.brg.waiting = t :: rest → t.kind < 2 → (∃ k, k < 1024 ∧ free k) → n.on (F.BRG_WIN_CTRL_EN t.win) = true →
      t.addr < 0x80000000 → n.winTarget t.win = .inl (pos, id) →
      issues .tagWaitEnd { n with brg := { n.brg with waiting := rest } } t pos id (asks t id) (fun a => a)) ∧
    (∀ k, k < 1024 →
      let t := FMap.get {} n.brg.tags k
      let given := fun (m : Node) => { m with brg := { n.brg with tags := FMap.put {} n.brg.tags k { gen := t.gen } } }
      (t.busy = false → Settles (.readTimeout k) s n) ∧
      (t.busy = true → (t.kind < 2 → t.master.id < 3) → Settles (.readTimeout k) s (fails (given n) t 1)) ∧
      (∀ (b : List Byte) (q : BMsg), bmsgOk b = true → bmsgOf b = q → n.dataOn = true → q.tag % 1024 = k → ∃ p, p < 23 ∧
        let got := heard p b
        let mine := t.busy = true ∧ t.gen = q.tag / 1024 ∧ q.src = n.ident
        (q.ty = 8 →
          (mine → q.cause ≠ 0 → (t.kind < 2 → t.master.id < 3) → Settles (.completion b) s (fails (given got) t q.cause)) ∧
          (mine → q.cause = 0 → t.kind = 0 → q.data.length = 4 →
            Settles (.completion b) s ((given got).emit (.resp t.master true (leAt q.data 0 4)))) ∧
          (mine → q.cause = 0 → t.kind = 1 → q.data.length = 64 → n.brg.lines.length < 16 →
            let line : Line := { win := t.win, node := t.node, addr := t.addr / 64 * 64, data := q.data, readMask := 2 ^ (t.addr % 64 / 4) }
            Settles (.completion b) s (Node.emit { given got with brg := { (given got).brg with lines := n.brg.lines ++ [line] } }
              (.resp t.master true (leAt q.data (t.addr % 64) 4)))) ∧
          (mine → q.cause = 0 → t.kind = 2 → q.data.length = 4 → Settles (.completion b) s
            ((given got).wrs [(F.BRG_LOCK_CTRL_RESULT, 0), (F.BRG_LOCK_CTRL_PENDING, 0), (F.BRG_LOCK_CTRL_OPEN, 1),
              (F.BRG_LOCK_RDATA_DATA, leAt q.data 0 4)])) ∧
          (mine → q.cause = 0 → t.kind = 3 ∨ t.kind = 4 → q.data.length = 0 → Settles (.completion b) s
            ((given got).wrs [(F.BRG_LOCK_CTRL_RESULT, 0), (F.BRG_LOCK_CTRL_PENDING, 0), (F.BRG_LOCK_CTRL_OPEN, 0)])) ∧
          (¬ mine → Settles (.completion b) s ((got.wrs [satInc F.BRG_IN_LATE_COUNT]).pviol 10 p))) ∧
        (q.ty = 9 → q.src = n.ident → ∀ j, entry j → Settles (.writeErr b) s
          ((got.wrs (logs j q.win (n.dirPos q.dst) q.addr q.epoch q.seq q.cause ++ [(F.BRG_WIN_CTRL_FENCE q.win, 1)])).emit (.msix 35))) ∧
        (q.ty = 10 → q.src = n.ident →
          (mine → 2 ≤ t.kind → Settles (.lockBroken b) s ((fails (given got) t 7).wr F.BRG_LOCK_CTRL_OPEN 0)) ∧
          (t.busy = false → n.on F.BRG_LOCK_CTRL_OPEN = true → Settles (.lockBroken b) s
            (got.wrs [(F.BRG_LOCK_CTRL_OPEN, 0), (F.BRG_LOCK_CTRL_RESULT, 7)]))))) ∧
    (∀ (x : Master) (code w : Nat) (c : Instr), n.rd F.BRG_LOCK_CTRL_WIN = w → w < 64 →
      RegPasses n x .BRG_LOCK_CTRL (w * 2 ^ 16 + code) →
      (code = 1 ∧ c = .lockRead x) ∨ (code = 2 ∧ c = .writeUnlock x) ∨ (code = 3 ∧ c = .unlock x) →
      let m := (n.leased x).wr F.BRG_LOCK_CTRL_WIN w
      let opened := n.on F.BRG_LOCK_CTRL_OPEN
      let lw := if code = 1 then w else n.brg.lockWin.getD w
      let addr := if code = 1 then n.rd (F.BRG_WIN_CTRL_BASE w) * 0x2000000 + 4 * n.rd F.BRG_LOCK_OFFSET_OFFSET else n.brg.lockAddr
      (code = 1 → opened = true → Answered c s x 0 (m.wr F.BRG_LOCK_CTRL_RESULT 8)) ∧
      (code ≠ 1 → opened = false → Answered c s x 0 (m.wr F.BRG_LOCK_CTRL_RESULT 7)) ∧
      ((code = 1 ↔ opened = false) → n.on (F.BRG_WIN_CTRL_EN lw) = true → addr < 0x80000000 → (∃ k, k < 1024 ∧ free k) →
        ∀ pos id, n.winTarget lw = .inl (pos, id) → (code = 2 → ∀ l ∈ n.brg.lines, ¬ (l.node = id ∧ l.addr = addr / 64 * 64)) →
          issues c (opening (m.wr F.BRG_LOCK_CTRL_PENDING 1) addr lw) { kind := code + 1, win := lw, addr := addr, master := n.presented x } pos id
            { ty := code + 2, flags := n.rd (F.BRG_WIN_CTRL_MGR lw), epoch := n.epoch, src := n.ident, dst := id, addr := addr, win := lw,
              data := if code = 2 then leBytes 4 (n.rd F.BRG_LOCK_WDATA_DATA) else [] } (fun a => a.emit (.resp x true 0)))) ∧
    (∀ w line,
      let hit := fun (l : Line) => l.win == w && l.addr == 64 * line
      let rest := { n with brg := { n.brg with lines := n.brg.lines.filter (fun l => !hit l) } }
      (n.brg.lines.filter hit = [] → Settles (.prefetchLineExpiry w line) s n) ∧
      (∀ l, n.brg.lines.filter hit = [l] → Settles (.prefetchLineExpiry w line) s
        (if l.readMask = 0xFFFF then rest else rest.wrs [satInc F.BRG_PF_DISCARD_COUNT, (F.BRG_PF_LAST_WIN, w), (F.BRG_PF_LAST_LINE, line)]))) ∧
    (∀ d, d < 640 →
      (bitOf (n.dataset d).flags 0 = true → bitOf (n.dataset d).flags 1 = true → n.on (F.BRG_DS_STAT_TIMED_OUT d) = false →
        Settles (.datasetTimeout d) s (n.wrs [(F.BRG_DS_STAT_TIMED_OUT d, 1), (F.BRG_DS_STAT_TOUT_EV d, 1)])) ∧
      (n.on (F.BRG_DS_STAT_TIMED_OUT d) = true → Settles (.datasetTimeout d) s n)))

/-- 11 R385, R386, R390 to R392, R395, R396: the bridge as far node: a request for this node in the current epoch is queued, one of the scheduled epoch held until its commit, any other answered BUSY or EPOCH, a malformed one counted and answered BADREQ; READ answers the words read with the far node's rights; WRITE is applied in sequence, held up to 15 ahead, counted late, and answered only on failure; a gap that stays open, or a write that a read names and the node has not seen, is declared LOST; LOCK_READ takes the lock, its holder's WRITE_UNLOCK and UNLOCK release it, as does its timeout, and writes of another initiator or window held meanwhile wait for that. At epoch 0 every request is refused with EPOCH; one that comes in by P21 is malformed (log entry 107). Corners of streams and the lock are log entry 84, the port of a message handed over as a row and the address of a LOST write log entry 98, a held request of another epoch log entry 99. -/
def Obligations.BridgeFar : Prop :=
  ∀ s : State,
    let n := s.node
    let fr := { n with freeN := n.freeN + 1 }
    let heard := fun (p : Nat) (b : List Byte) =>
      if p < 20 ∧ n.receives p = true then (fr.rxMac p { bytes := n.bridgeHeard b }).2 else fr
    let satInc := fun (f : Fld) => (f, min (n.rd f + 1) (2 ^ f.w - 1))
    let answers := fun (m : Node) (q : BMsg) (ty cause : Nat) (data : List Byte) =>
      if m.dirPos q.src = 0 then m.wr F.BRG_IN_NOINIT_COUNT (min (m.rd F.BRG_IN_NOINIT_COUNT + 1) (2 ^ 32 - 1))
      else m.bridgeSend (m.dirPos q.src) { q with ty := ty, cause := cause, data := data }
    let turned := fun (m : Node) (q : BMsg) (cause : Nat) => answers m q (if q.ty = 2 then 9 else 8) cause []
    let keeps := fun (m : Node) (node win : Nat) (x : WStream) =>
      let l := m.brg.streams.filter (fun y => !(y.node == node && y.win == win)) ++ [x]
      { m with brg := { m.brg with streams := l } }
    let unlocked := fun (m : Node) => { m with brg := { m.brg with lock := none } }
    let calm := fun (m : Node) => m.brg.stalled = [] ∧ ∀ st ∈ m.brg.streams, st.held = []
    (∀ (b : List Byte) (q : BMsg) (c : Instr), bmsgOf b = q → n.dataOn = true →
      (q.ty = 1 ∧ c = .farRead b) ∨ (q.ty = 2 ∧ c = .farWrite b) ∨ (q.ty = 3 ∧ c = .farLockRead b) ∨ ((q.ty = 4 ∨ q.ty = 5) ∧ c = .farUnlock b) → ∃ p, p < 23 ∧
      let got := heard p b
      (p ≠ 21 → bmsgOk b = true →
        (n.epoch = 0 → Settles c s (turned got q 3)) ∧
        (n.epoch ≠ 0 → n.bridgeOn = false ∨ 128 ≤ n.brg.inq.length → Settles c s (turned (got.wrs [satInc F.BRG_IN_BUSY_COUNT]) q 8)) ∧
        (n.epoch ≠ 0 → n.bridgeOn = true → n.brg.inq.length < 128 →
          (q.dst = n.ident → q.epoch = n.epoch → Settles c s { got with brg := { n.brg with inq := n.brg.inq ++ [(p, b)] } }) ∧
          (q.dst = n.ident → q.epoch ≠ 0 → q.epoch ≠ n.epoch → ∀ x, n.inaug.sched = some x → x.epoch = q.epoch →
            Settles c s { got with brg := { n.brg with heldReq := n.brg.heldReq ++ [(p, b)] } }) ∧
          ((q.dst ≠ n.ident ∨ q.epoch = 0 ∨ (q.epoch ≠ n.epoch ∧ n.inaug.sched = none)) → Settles c s (turned got q 3)))) ∧
      (bmsgOk b = false ∨ p = 21 →
        let m := (got.wrs [satInc F.BRG_IN_BAD_COUNT]).pviol 9 p
        (b.length < 18 ∨ n.dirPos q.src = 0 → Settles c s m) ∧
        (18 ≤ b.length → n.dirPos q.src ≠ 0 →
          Settles c s (turned m { q with flags := q.flags % 8, addr := q.addr / 64 * 64, win := q.win % 64 } 11)))) ∧
    (n.brg.heldReq = [] → Settles .heldRequestAccept s n) ∧
    (∀ p b rest, n.brg.heldReq = (p, b) :: rest →
      ((bmsgOf b).epoch = n.epoch → n.epoch ≠ 0 → n.brg.inq.length < 128 →
        Settles .heldRequestAccept s { n with brg := { n.brg with heldReq := rest, inq := n.brg.inq ++ [(p, b)] } }) ∧
      ((bmsgOf b).epoch ≠ n.epoch → Settles .heldRequestAccept s (turned { n with brg := { n.brg with heldReq := rest } } (bmsgOf b) 3))) ∧
    (n.brg.inq = [] → n.brg.inRaw = [] → Settles .farRequestServe s n) ∧
    (∀ p b, n.brg.inq = [] → n.brg.inRaw = [(p, b)] → n.dataOn = true → bmsgOk b = false → b.length < 18 → Settles .farRequestServe s
      ((Node.wrs { n with brg := { n.brg with inRaw := [] } } [satInc F.BRG_IN_BAD_COUNT]).pviol 9 p)) ∧
    (∀ (p : Nat) (b : List Byte) (q : BMsg), bmsgOf b = q → n.brg.inq = [(p, b)] → n.brg.inRaw = [] →
      let served := { n with brg := { n.brg with inq := [] } }
      let reads := fun (m : Node) (a : Nat) => m.access
        { m := { id := 4, node := q.src, pos := m.dirPos q.src, mgr := bitOf q.flags 0 }, addr := a, size := 4, wr := false }
      let writes := fun (m : Node) => m.access
        { m := { id := 4, node := q.src, pos := m.dirPos q.src, mgr := bitOf q.flags 0 }, addr := q.addr, size := 4, wr := true, value := leNat q.data }
      let c := Instr.farRequestServe
      (n.brg.lock = none → q.ty = 1 → bitOf q.flags 2 = false →
        (∀ (ads : List Nat) (w : Nat → Nat) (m : Nat → Node), ads = (if bitOf q.flags 1 then (List.range 16).map (fun i => q.addr + 4 * i) else [q.addr]) →
          m 0 = served → (∀ i, i < ads.length → reads (m i) (ads.getD i 0) = ⟨.ok (w i), m (i + 1)⟩) →
          Settles c s (answers (m ads.length) q 8 0 ((List.range ads.length).flatMap (fun i => leBytes 4 (w i))))) ∧
        (∀ m, reads served q.addr = ⟨.prot, m⟩ → Settles c s (answers m q 8 4 [])) ∧
        (∀ m, reads served q.addr = ⟨.err, m⟩ → Settles c s (answers m q 8 6 []))) ∧
      (n.brg.lock = none → q.ty = 2 → ∀ st, (n.stream q.src q.win).getD { node := q.src, win := q.win, next := q.seq } = st → st.next < 2 ^ 16 →
        (n.stream q.src q.win = none → n.brg.streams.length < 256) →
        let track := keeps served q.src q.win
        let ahead := (q.seq + 65536 - st.next) % 65536
        let next := track { st with next := (q.seq + 1) % 65536 }
        (ahead = 0 → st.held = [] →
          (∀ v m, writes next = ⟨.ok v, m⟩ → m.brg.streams = next.brg.streams → Settles c s m) ∧
          (∀ r cause m, writes next = ⟨r, m⟩ → (r = .prot ∧ cause = 4) ∨ (r = .notOwner ∧ cause = 5) ∨ (r = .err ∧ cause = 6) →
            (answers m q 9 cause []).brg.streams = next.brg.streams → Settles c s (answers m q 9 cause []))) ∧
        (0 < ahead → ahead < 16 → Settles c s (track { st with held := st.held.filter (fun x => x.1 != q.seq) ++ [(q.seq, b)] })) ∧
        (32768 ≤ ahead → Settles c s ((track st).wrs [satInc F.BRG_IN_LATE_COUNT]))) ∧
      (n.brg.lock = none → q.ty = 3 →
        (∀ v m, reads served q.addr = ⟨.ok v, m⟩ →
          Settles c s (answers { m with brg := { m.brg with lock := some (q.src, q.win, q.tag), farAddr := q.addr } } q 8 0 (leBytes 4 v))) ∧
        (∀ m, reads served q.addr = ⟨.prot, m⟩ → Settles c s (answers m q 8 4 []))) ∧
      (n.brg.lock = none → q.ty = 4 ∨ q.ty = 5 →
        Settles c s (answers ((served.wrs [satInc F.BRG_IN_BAD_COUNT]).pviol 11 p) q 10 7 [])) ∧
      (∀ tag, n.brg.lock = some (q.src, q.win, tag) →
        (q.ty = 5 → calm (answers served q 8 0 []) → Settles c s (unlocked (answers served q 8 0 []))) ∧
        (q.ty = 4 → ∀ v m, writes served = ⟨.ok v, m⟩ → calm (answers m q 8 0 []) → Settles c s (unlocked (answers m q 8 0 []))))) ∧
    (n.brg.lock = none → Settles .lockTimeout s n) ∧
    (∀ node win tag, n.brg.lock = some (node, win, tag) →
      let m := answers n { ty := 10, epoch := n.epoch, src := node, dst := n.ident, tag := tag, addr := n.brg.farAddr, win := win } 10 7 []
      calm m → Settles .lockTimeout s (unlocked m)) ∧
    (∀ node win,
      let c := Instr.writeGapTimeout node win
      (n.stream node win = none → n.brg.inq = [] → Settles c s n) ∧
      (∀ p b q, n.stream node win = none → n.brg.streams.length < 256 → n.brg.inq = [(p, b)] → bmsgOf b = q → q.ty = 1 → bitOf q.flags 2 = true →
        q.src = node → q.win = win → ∃ a, a % 4 = 0 ∧ a < 2 ^ 32 ∧
          let st : WStream := { node := node, win := win, next := q.seq }
          let m := answers { fr with brg := { n.brg with streams := n.brg.streams ++ [st] } }
            { ty := 2, epoch := n.epoch, src := node, dst := n.ident, seq := q.seq, addr := a, win := win } 9 10 []
          Settles c s (keeps m node win { st with next := (q.seq + 1) % 65536 })) ∧
      (∀ st, n.stream node win = some st →
        (st.held = [] → n.brg.inq = [] → Settles c s n) ∧
        ∃ a, a % 4 = 0 ∧ a < 2 ^ 32 ∧
          let lost := answers fr { ty := 2, epoch := n.epoch, src := node, dst := n.ident, seq := st.next, addr := a, win := win } 9 10 []
          let goes := fun (seq : Nat) => keeps lost node win { st with next := seq % 65536, held := [] }
          (∀ p b, st.held = [] → n.brg.inq = [(p, b)] → (bmsgOf b).ty = 1 → bitOf (bmsgOf b).flags 2 = true → (bmsgOf b).src = node → (bmsgOf b).win = win →
            ((bmsgOf b).seq + 65536 - st.next % 65536) % 65536 < 32768 → Settles c s (goes ((bmsgOf b).seq + 1))) ∧
          (∀ h b k w tag, st.held = [(h, b)] → h < 65536 → n.brg.lock = some (k, w, tag) → ¬ (k = node ∧ w = win) →
            Settles c s (keeps lost node win { st with next := h })) ∧
          (∀ h b q m v, st.held = [(h, b)] → h < 65536 → bmsgOf b = q → n.brg.lock = none →
            let x : Master := { id := 4, node := q.src, pos := (goes (h + 1)).dirPos q.src, mgr := bitOf q.flags 0 }
            (goes (h + 1)).access (wordWrite x q.addr (leNat q.data)) = ⟨.ok v, m⟩ →
            m.brg.streams = (goes (h + 1)).brg.streams → Settles c s m)))

end
end

