-- ==== Sys2Proof/Laws/Bits.lean ====
section
/-! SUPPORT. Laws of bits and of two's-complement readings. -/

namespace Sys2Proof

/-- A bit is the library's bit. -/
theorem bitOf_eq_testBit (v i : Nat) : bitOf v i = v.testBit i := by
  unfold bitOf
  rw [Nat.testBit_eq_decide_div_mod_eq]
  rfl

/-- The signed reading of the low `k` bits is that of a word of `k` bits. -/
theorem toInt_ofNat_toSigned (k v : Nat) (h : k ≠ 0) : (BitVec.ofNat k v).toInt = toSigned k v := by
  unfold toSigned
  simp only [BitVec.toInt_eq_toNat_cond, BitVec.toNat_ofNat, h, ne_eq, not_false_eq_true, true_and]
  have hp : 2 ^ k = 2 * 2 ^ (k - 1) := by rw [← Nat.pow_succ']; congr 1; omega
  split <;> split <;> first | rfl | omega

/-- Sign extension of the low `k` bits. -/
theorem signExtend_setWidth (k : Nat) (a : BitVec 64) (h : k ≠ 0) :
    (a.setWidth k).signExtend 64 = BitVec.ofInt 64 (toSigned k a.toNat) := by
  have e : a.setWidth k = BitVec.ofNat k a.toNat := by apply BitVec.eq_of_toNat_eq; simp
  unfold BitVec.signExtend
  rw [e, toInt_ofNat_toSigned k a.toNat h]

/-- Adding a multiple of a higher power of two leaves a lower bit. -/
theorem bitOf_lower (v i j q : Nat) (h : j < i) : (v + q * 2 ^ i) / 2 ^ j % 2 = v / 2 ^ j % 2 := by
  have e : q * 2 ^ i = 2 ^ j * (2 * (q * 2 ^ (i - j - 1))) := by
    have : i = j + 1 + (i - j - 1) := by omega
    conv_lhs => rw [this, pow_add, pow_succ]
    ring
  rw [e, Nat.add_mul_div_left _ _ (by positivity)]
  omega

/-- Adding to a clear bit does not carry. -/
theorem div_add_no_carry (v i j : Nat) (h : i < j) (h0 : v / 2 ^ i % 2 = 0) : (v + 2 ^ i) / 2 ^ j = v / 2 ^ j := by
  have e : j = i + 1 + (j - i - 1) := by omega
  have key : (v + 2 ^ i) / 2 ^ (i + 1) = v / 2 ^ (i + 1) := by
    rw [pow_succ, ← Nat.div_div_eq_div_mul, ← Nat.div_div_eq_div_mul, Nat.add_div_right _ (by positivity)]
    omega
  rw [e, pow_add, ← Nat.div_div_eq_div_mul, key, Nat.div_div_eq_div_mul]

/-- `setBit` sets one bit and leaves every other. -/
theorem bitOf_setBit (v i j : Nat) (b : Bool) : bitOf (setBit v i b) j = if j = i then b else bitOf v j := by
  unfold setBit
  split
  · rename_i h
    split
    · subst_vars; simpa using h
    · rfl
  · rename_i h
    have hp : 0 < 2 ^ i := by positivity
    cases b with
    | true =>
      have h0 : v / 2 ^ i % 2 = 0 := by
        simp only [bitOf] at h; simp at h; omega
      simp only [if_true, bitOf]
      rcases lt_trichotomy j i with hj | hj | hj
      · have := bitOf_lower v i j 1 hj
        simp only [one_mul] at this
        rw [this]; simp [Nat.ne_of_lt hj]
      · subst hj; rw [Nat.add_div_right _ hp]; simp; omega
      · rw [div_add_no_carry v i j hj h0]; simp [Nat.ne_of_gt hj]
    | false =>
      have h1 : v / 2 ^ i % 2 = 1 := by
        simp only [bitOf] at h; simp at h; omega
      have hv : 2 ^ i ≤ v := by
        by_contra hc
        rw [Nat.div_eq_of_lt (by omega)] at h1; omega
      obtain ⟨u, rfl⟩ := Nat.exists_eq_add_of_le' hv
      have h0 : u / 2 ^ i % 2 = 0 := by rw [Nat.add_div_right _ hp] at h1; omega
      simp only [Bool.false_eq_true, if_false, bitOf, Nat.add_sub_cancel]
      rcases lt_trichotomy j i with hj | hj | hj
      · have := bitOf_lower u i j 1 hj
        simp only [one_mul] at this
        rw [this]; simp [Nat.ne_of_lt hj]
      · subst hj; simp [h0]
      · rw [div_add_no_carry u i j hj h0]; simp [Nat.ne_of_gt hj]

/-- A list of `k` bytes is below 256^k. -/
theorem leNat_lt (l : List Byte) : leNat l < 256 ^ l.length := by
  induction l with
  | nil => simp [leNat]
  | cons b t ih => simp only [leNat, List.length_cons, pow_succ]; have := b.isLt; omega

/-- The bytes of a little-endian value. -/
theorem leNat_digit (l : List Byte) (j : Nat) : leNat l / 256 ^ j % 256 = (l.getD j 0).toNat := by
  induction l generalizing j with
  | nil => simp [leNat]
  | cons b t ih =>
    cases j with
    | zero => simp [leNat]; have := b.isLt; omega
    | succ j =>
      have := ih j
      simp only [leNat, pow_succ, List.getD_cons_succ]
      rw [mul_comm (256 ^ j), ← Nat.div_div_eq_div_mul]
      have e : (b.toNat + 256 * leNat t) / 256 = leNat t := by have := b.isLt; omega
      rw [e, this]

@[simp] theorem leBytes_length (k v : Nat) : (leBytes k v).length = k := by
  induction k generalizing v with
  | zero => rfl
  | succ k ih => simp [leBytes, ih]

/-- The bytes a value spells. -/
theorem leBytes_getD (k v j : Nat) (h : j < k) : ((leBytes k v).getD j 0).toNat = v / 256 ^ j % 256 := by
  induction k generalizing v j with
  | zero => omega
  | succ k ih =>
    cases j with
    | zero => simp [leBytes]
    | succ j =>
      simp only [leBytes, List.getD_cons_succ]
      rw [ih _ _ (by omega), pow_succ, mul_comm, Nat.div_div_eq_div_mul]

/-- A field is below two to its width. -/
theorem bitsOf_lt (v hi lo : Nat) : bitsOf v hi lo < 2 ^ (hi + 1 - lo) := Nat.mod_lt _ (by positivity)

end Sys2Proof
end

