-- ==== Sys2Proof/Laws/Ckpt.lean ====
section
/-! SUPPORT. Laws of the checkpoints: sending blocks only adds to the record of what the node has sent, and an activation boundary changes only the capture. -/

namespace Sys2Proof.Machine

open Sys2Proof

/-! ### What sends blocks only emits -/

/-- `n` is `m` with messages added. -/
def SendsOnly (m n : Node) : Prop := ∃ l, n = { m with out := l ++ m.out }

theorem SendsOnly.refl (n : Node) : SendsOnly n n := ⟨[], rfl⟩

theorem SendsOnly.emit {m n : Node} (h : SendsOnly m n) (o : Output) : SendsOnly m (n.emit o) := by
  obtain ⟨l, rfl⟩ := h
  exact ⟨o :: l, rfl⟩

theorem SendsOnly.foldl {α : Type} {m : Node} (f : Node → α → Output) :
    ∀ (xs : List α) {n : Node}, SendsOnly m n → SendsOnly m (xs.foldl (fun a x => a.emit (f a x)) n)
  | [], _, h => h
  | x :: xs, n, h => by
    rw [List.foldl_cons]
    exact SendsOnly.foldl f xs (h.emit _)

/-- The blocks of a checkpoint go out, and nothing else changes (12 R423). -/
theorem Node.sendBlocks_only (n : Node) (agree : Bool) (q : Nat) (b : List Byte) : SendsOnly n (n.sendBlocks agree q b) := by
  unfold Node.sendBlocks
  exact SendsOnly.foldl _ _ (SendsOnly.refl n)

/-! ### The capture (12 R425) -/

/-- `n` is `m` but for the capture under way and messages added. -/
def CapturesOnly (m n : Node) : Prop :=
  ∃ c w l, n = { m with pair := { m.pair with capture := c, capWait := w }, out := l ++ m.out }

theorem CapturesOnly.refl (n : Node) : CapturesOnly n n := ⟨_, _, [], rfl⟩

theorem CapturesOnly.trans {a b c : Node} (h : CapturesOnly a b) (g : CapturesOnly b c) : CapturesOnly a c := by
  obtain ⟨x, y, l, rfl⟩ := h
  obtain ⟨x', y', l', rfl⟩ := g
  exact ⟨x', y', l' ++ l, by simp⟩

theorem Node.captureEnd_only (n : Node) : CapturesOnly n n.captureEnd := by
  unfold Node.captureEnd
  split
  · split
    · obtain ⟨l, hl⟩ := Node.sendBlocks_only { n with pair := { n.pair with capture := none } } false _ (n.ckptBytes _)
      exact ⟨_, _, l, hl⟩
    · exact CapturesOnly.refl n
  · exact CapturesOnly.refl n

theorem Node.captureSlot_only (n : Node) (s : Nat) : CapturesOnly n (n.captureSlot s) := by
  unfold Node.captureSlot
  split
  · exact ⟨_, _, [], rfl⟩
  · exact CapturesOnly.refl n

/-- At an activation boundary an engine's slots and mailbox join the capture that waits for them, which may end; nothing else changes. -/
theorem Node.captureAt_only (n : Node) (e : Nat) : CapturesOnly n (n.captureAt e) := by
  unfold Node.captureAt
  split
  · split
    · exact (Node.captureSlot_only n _).trans (Node.captureEnd_only _)
    · exact CapturesOnly.refl n
  · exact CapturesOnly.refl n

/-- Where no slot is waited for, a boundary changes nothing. -/
theorem Node.captureAt_none (n : Node) (e : Nat) (h : n.pair.capWait = []) : n.captureAt e = n := by
  unfold Node.captureAt
  split
  · simp [h]
  · rfl

end Sys2Proof.Machine
end

