-- ==== Sys2Proof/Laws/FMap.lean ====
section
/-! SUPPORT. Laws of the sparse map: a read after a write, and that a write keeps the canonical form. -/

namespace Sys2Proof

variable {β : Type} [DecidableEq β]

omit [DecidableEq β] in
/-- An absent key reads as the default. -/
theorem FMap.get_of_absent (d : β) (m : FMap β) (k : Nat) (h : ∀ e ∈ m, e.1 ≠ k) : FMap.get d m k = d := by
  induction m with
  | nil => rfl
  | cons e t ih =>
    obtain ⟨k', v⟩ := e
    have hk : k' ≠ k := h (k', v) (by simp)
    have := ih (fun e he => h e (by simp [he]))
    simp [FMap.get, hk, this]

omit [DecidableEq β] in
/-- A read of a joined list looks in the first part, then in the second. -/
theorem FMap.get_append_left (d : β) (a b : FMap β) (k : Nat) (h : ∀ e ∈ b, e.1 ≠ k) :
    FMap.get d (a ++ b) k = FMap.get d a k := by
  induction a with
  | nil => simpa [FMap.get] using FMap.get_of_absent d b k h
  | cons e t ih =>
    obtain ⟨k', v⟩ := e
    by_cases hk : k' = k <;> simp [FMap.get, hk, ih]

omit [DecidableEq β] in
theorem FMap.get_append_right (d : β) (a b : FMap β) (k : Nat) (h : ∀ e ∈ a, e.1 ≠ k) :
    FMap.get d (a ++ b) k = FMap.get d b k := by
  induction a with
  | nil => rfl
  | cons e t ih =>
    obtain ⟨k', v⟩ := e
    have hk : k' ≠ k := h (k', v) (by simp)
    have := ih (fun e he => h e (by simp [he]))
    simp [FMap.get, hk, this]

omit [DecidableEq β] in
/-- A filter that keeps key `k` does not change what is read at it. -/
theorem FMap.get_filter (d : β) (m : FMap β) (k : Nat) (p : Nat × β → Bool) (h : ∀ v, p (k, v) = true) :
    FMap.get d (m.filter p) k = FMap.get d m k := by
  induction m with
  | nil => rfl
  | cons e t ih =>
    obtain ⟨k', v⟩ := e
    by_cases hk : k' = k
    · subst hk
      simp [h v, FMap.get]
    · by_cases hp : p (k', v) <;> simp [hp, FMap.get, hk, ih]

/-- A read at the key just written gives the value written. -/
@[simp] theorem FMap.get_put_same (d : β) (m : FMap β) (k : Nat) (v : β) : FMap.get d (FMap.put d m k v) k = v := by
  unfold FMap.put
  rw [FMap.get_append_right]
  · by_cases hv : v = d
    · subst hv
      simp only [if_true, List.nil_append]
      apply FMap.get_of_absent
      intro e he
      have := (List.mem_filter.mp he).2
      simp at this
      omega
    · simp [hv, FMap.get]
  · intro e he
    have := (List.mem_filter.mp he).2
    simp at this
    omega

/-- A write at one key leaves every other key as it was. -/
theorem FMap.get_put_ne (d d' : β) (m : FMap β) {k j : Nat} (v : β) (h : j ≠ k) :
    FMap.get d (FMap.put d' m k v) j = FMap.get d m j := by
  unfold FMap.put
  rcases Nat.lt_or_gt_of_ne h with hl | hg
  · rw [FMap.get_append_left]
    · exact FMap.get_filter d m j _ (by simp [hl])
    · intro e he
      rcases List.mem_append.mp he with h1 | h2
      · by_cases hv : v = d'
        · simp [hv] at h1
        · simp [hv] at h1
          subst h1
          simpa using (Nat.ne_of_lt hl).symm
      · have := (List.mem_filter.mp h2).2
        simp at this
        omega
  · rw [FMap.get_append_right, FMap.get_append_right]
    · exact FMap.get_filter d m j _ (by simp [hg])
    · intro e he
      by_cases hv : v = d'
      · simp [hv] at he
      · simp [hv] at he
        subst he
        simpa using (Nat.ne_of_gt hg).symm
    · intro e he
      have := (List.mem_filter.mp he).2
      simp at this
      omega

/-- The canonical form, as keys and values of the whole list. -/
theorem FMap.wf_iff (d : β) (m : FMap β) :
    FMap.wf d m = true ↔ m.Pairwise (fun a b => a.1 < b.1) ∧ ∀ e ∈ m, e.2 ≠ d := by
  induction m with
  | nil => simp [FMap.wf]
  | cons e t ih =>
    obtain ⟨k, v⟩ := e
    cases t with
    | nil => simp [FMap.wf]
    | cons e' t' =>
      obtain ⟨k', v'⟩ := e'
      simp only [FMap.wf, Bool.and_eq_true, decide_eq_true_eq, ih, List.pairwise_cons, List.mem_cons]
      constructor
      · rintro ⟨⟨hv, hk⟩, ⟨hp1, hp2⟩, hd⟩
        refine ⟨⟨?_, hp1, hp2⟩, ?_⟩
        · rintro x (rfl | hx)
          · exact hk
          · exact Nat.lt_trans hk (hp1 x hx)
        · rintro x (rfl | rfl | hx)
          · exact hv
          · exact hd _ (by simp)
          · exact hd _ (by simp [hx])
      · rintro ⟨⟨h1, hp1, hp2⟩, hd⟩
        exact ⟨⟨hd _ (Or.inl rfl), h1 _ (Or.inl rfl)⟩, ⟨hp1, hp2⟩, fun x hx => hd x (Or.inr hx)⟩

/-- Two canonical lists whose keys lie one below the other join to a canonical list. -/
theorem FMap.wf_append (d : β) {a b : FMap β} (ha : FMap.wf d a = true) (hb : FMap.wf d b = true)
    (h : ∀ x ∈ a, ∀ y ∈ b, x.1 < y.1) : FMap.wf d (a ++ b) = true := by
  rw [FMap.wf_iff] at *
  refine ⟨List.pairwise_append.mpr ⟨ha.1, hb.1, h⟩, ?_⟩
  intro e he
  rcases List.mem_append.mp he with h1 | h1
  · exact ha.2 e h1
  · exact hb.2 e h1

/-- Leaving entries out keeps the canonical form. -/
theorem FMap.wf_filter (d : β) {m : FMap β} (p : Nat × β → Bool) (h : FMap.wf d m = true) :
    FMap.wf d (m.filter p) = true := by
  rw [FMap.wf_iff] at *
  exact ⟨h.1.filter p, fun e he => h.2 e (List.mem_filter.mp he).1⟩

/-- A write keeps the canonical form. -/
theorem FMap.wf_put (d : β) {m : FMap β} (k : Nat) (v : β) (h : FMap.wf d m = true) :
    FMap.wf d (FMap.put d m k v) = true := by
  unfold FMap.put
  apply FMap.wf_append
  · exact FMap.wf_filter d _ h
  · apply FMap.wf_append
    · by_cases hv : v = d <;> simp [hv, FMap.wf]
    · exact FMap.wf_filter d _ h
    · intro x hx y hy
      have hy := (List.mem_filter.mp hy).2
      by_cases hv : v = d
      · simp [hv] at hx
      · simp [hv] at hx
        subst hx
        simpa using hy
  · intro x hx y hy
    have hx := (List.mem_filter.mp hx).2
    simp only [decide_eq_true_eq] at hx
    rcases List.mem_append.mp hy with h1 | h1
    · by_cases hv : v = d
      · simp [hv] at h1
      · simp [hv] at h1
        subst h1
        exact hx
    · have := (List.mem_filter.mp h1).2
      simp only [decide_eq_true_eq] at this
      omega

end Sys2Proof
end

