-- ==== Sys2Proof/Laws/State.lean ====
section
/-! SUPPORT. What each named update of the node leaves as it was: one lemma per field, true by unfolding the update. -/

namespace Sys2Proof.Machine

open Sys2Proof

/-! ### wr -/

@[simp] theorem Node.wr_mode (n : Node) (f : Fld) (v : Nat) : (n.wr f v).mode = n.mode := rfl
@[simp] theorem Node.wr_level (n : Node) (f : Fld) (v : Nat) : (n.wr f v).level = n.level := rfl
@[simp] theorem Node.wr_wait (n : Node) (f : Fld) (v : Nat) : (n.wr f v).wait = n.wait := rfl
@[simp] theorem Node.wr_unpowered (n : Node) (f : Fld) (v : Nat) : (n.wr f v).unpowered = n.unpowered := rfl
@[simp] theorem Node.wr_failed (n : Node) (f : Fld) (v : Nat) : (n.wr f v).failed = n.failed := rfl
@[simp] theorem Node.wr_ident (n : Node) (f : Fld) (v : Nat) : (n.wr f v).ident = n.ident := rfl
@[simp] theorem Node.wr_mem (n : Node) (f : Fld) (v : Nat) : (n.wr f v).mem = n.mem := rfl
@[simp] theorem Node.wr_poison (n : Node) (f : Fld) (v : Nat) : (n.wr f v).poison = n.poison := rfl
@[simp] theorem Node.wr_caps (n : Node) (f : Fld) (v : Nat) : (n.wr f v).caps = n.caps := rfl
@[simp] theorem Node.wr_holds (n : Node) (f : Fld) (v : Nat) : (n.wr f v).holds = n.holds := rfl
@[simp] theorem Node.wr_results (n : Node) (f : Fld) (v : Nat) : (n.wr f v).results = n.results := rfl
@[simp] theorem Node.wr_leaseAt (n : Node) (f : Fld) (v : Nat) : (n.wr f v).leaseAt = n.leaseAt := rfl
@[simp] theorem Node.wr_settings (n : Node) (f : Fld) (v : Nat) : (n.wr f v).settings = n.settings := rfl
@[simp] theorem Node.wr_clock (n : Node) (f : Fld) (v : Nat) : (n.wr f v).clock = n.clock := rfl
@[simp] theorem Node.wr_engs (n : Node) (f : Fld) (v : Nat) : (n.wr f v).engs = n.engs := rfl
@[simp] theorem Node.wr_staging (n : Node) (f : Fld) (v : Nat) : (n.wr f v).staging = n.staging := rfl
@[simp] theorem Node.wr_tabs (n : Node) (f : Fld) (v : Nat) : (n.wr f v).tabs = n.tabs := rfl
@[simp] theorem Node.wr_loaded (n : Node) (f : Fld) (v : Nat) : (n.wr f v).loaded = n.loaded := rfl
@[simp] theorem Node.wr_chanSlot (n : Node) (f : Fld) (v : Nat) : (n.wr f v).chanSlot = n.chanSlot := rfl
@[simp] theorem Node.wr_fab (n : Node) (f : Fld) (v : Nat) : (n.wr f v).fab = n.fab := rfl
@[simp] theorem Node.wr_ports (n : Node) (f : Fld) (v : Nat) : (n.wr f v).ports = n.ports := rfl
@[simp] theorem Node.wr_cnt (n : Node) (f : Fld) (v : Nat) : (n.wr f v).cnt = n.cnt := rfl
@[simp] theorem Node.wr_delta (n : Node) (f : Fld) (v : Nat) : (n.wr f v).delta = n.delta := rfl
@[simp] theorem Node.wr_inaug (n : Node) (f : Fld) (v : Nat) : (n.wr f v).inaug = n.inaug := rfl
@[simp] theorem Node.wr_chans (n : Node) (f : Fld) (v : Nat) : (n.wr f v).chans = n.chans := rfl
@[simp] theorem Node.wr_brg (n : Node) (f : Fld) (v : Nat) : (n.wr f v).brg = n.brg := rfl
@[simp] theorem Node.wr_datasets (n : Node) (f : Fld) (v : Nat) : (n.wr f v).datasets = n.datasets := rfl
@[simp] theorem Node.wr_ipId (n : Node) (f : Fld) (v : Nat) : (n.wr f v).ipId = n.ipId := rfl
@[simp] theorem Node.wr_pair (n : Node) (f : Fld) (v : Nat) : (n.wr f v).pair = n.pair := rfl
@[simp] theorem Node.wr_log (n : Node) (f : Fld) (v : Nat) : (n.wr f v).log = n.log := rfl
@[simp] theorem Node.wr_flash (n : Node) (f : Fld) (v : Nat) : (n.wr f v).flash = n.flash := rfl
@[simp] theorem Node.wr_epochUnread (n : Node) (f : Fld) (v : Nat) : (n.wr f v).epochUnread = n.epochUnread := rfl
@[simp] theorem Node.wr_updUnread (n : Node) (f : Fld) (v : Nat) : (n.wr f v).updUnread = n.updUnread := rfl
@[simp] theorem Node.wr_out (n : Node) (f : Fld) (v : Nat) : (n.wr f v).out = n.out := rfl
@[simp] theorem Node.wr_memCe (n : Node) (f : Fld) (v : Nat) : (n.wr f v).memCe = n.memCe := rfl
@[simp] theorem Node.wr_freeN (n : Node) (f : Fld) (v : Nat) : (n.wr f v).freeN = n.freeN := rfl

/-! ### put -/

@[simp] theorem Node.put_mode (n : Node) (f : Fld) (b : Bool) : (n.put f b).mode = n.mode := rfl
@[simp] theorem Node.put_level (n : Node) (f : Fld) (b : Bool) : (n.put f b).level = n.level := rfl
@[simp] theorem Node.put_wait (n : Node) (f : Fld) (b : Bool) : (n.put f b).wait = n.wait := rfl
@[simp] theorem Node.put_unpowered (n : Node) (f : Fld) (b : Bool) : (n.put f b).unpowered = n.unpowered := rfl
@[simp] theorem Node.put_failed (n : Node) (f : Fld) (b : Bool) : (n.put f b).failed = n.failed := rfl
@[simp] theorem Node.put_ident (n : Node) (f : Fld) (b : Bool) : (n.put f b).ident = n.ident := rfl
@[simp] theorem Node.put_mem (n : Node) (f : Fld) (b : Bool) : (n.put f b).mem = n.mem := rfl
@[simp] theorem Node.put_poison (n : Node) (f : Fld) (b : Bool) : (n.put f b).poison = n.poison := rfl
@[simp] theorem Node.put_caps (n : Node) (f : Fld) (b : Bool) : (n.put f b).caps = n.caps := rfl
@[simp] theorem Node.put_holds (n : Node) (f : Fld) (b : Bool) : (n.put f b).holds = n.holds := rfl
@[simp] theorem Node.put_results (n : Node) (f : Fld) (b : Bool) : (n.put f b).results = n.results := rfl
@[simp] theorem Node.put_leaseAt (n : Node) (f : Fld) (b : Bool) : (n.put f b).leaseAt = n.leaseAt := rfl
@[simp] theorem Node.put_settings (n : Node) (f : Fld) (b : Bool) : (n.put f b).settings = n.settings := rfl
@[simp] theorem Node.put_clock (n : Node) (f : Fld) (b : Bool) : (n.put f b).clock = n.clock := rfl
@[simp] theorem Node.put_engs (n : Node) (f : Fld) (b : Bool) : (n.put f b).engs = n.engs := rfl
@[simp] theorem Node.put_staging (n : Node) (f : Fld) (b : Bool) : (n.put f b).staging = n.staging := rfl
@[simp] theorem Node.put_tabs (n : Node) (f : Fld) (b : Bool) : (n.put f b).tabs = n.tabs := rfl
@[simp] theorem Node.put_loaded (n : Node) (f : Fld) (b : Bool) : (n.put f b).loaded = n.loaded := rfl
@[simp] theorem Node.put_chanSlot (n : Node) (f : Fld) (b : Bool) : (n.put f b).chanSlot = n.chanSlot := rfl
@[simp] theorem Node.put_fab (n : Node) (f : Fld) (b : Bool) : (n.put f b).fab = n.fab := rfl
@[simp] theorem Node.put_ports (n : Node) (f : Fld) (b : Bool) : (n.put f b).ports = n.ports := rfl
@[simp] theorem Node.put_cnt (n : Node) (f : Fld) (b : Bool) : (n.put f b).cnt = n.cnt := rfl
@[simp] theorem Node.put_delta (n : Node) (f : Fld) (b : Bool) : (n.put f b).delta = n.delta := rfl
@[simp] theorem Node.put_inaug (n : Node) (f : Fld) (b : Bool) : (n.put f b).inaug = n.inaug := rfl
@[simp] theorem Node.put_chans (n : Node) (f : Fld) (b : Bool) : (n.put f b).chans = n.chans := rfl
@[simp] theorem Node.put_brg (n : Node) (f : Fld) (b : Bool) : (n.put f b).brg = n.brg := rfl
@[simp] theorem Node.put_datasets (n : Node) (f : Fld) (b : Bool) : (n.put f b).datasets = n.datasets := rfl
@[simp] theorem Node.put_ipId (n : Node) (f : Fld) (b : Bool) : (n.put f b).ipId = n.ipId := rfl
@[simp] theorem Node.put_pair (n : Node) (f : Fld) (b : Bool) : (n.put f b).pair = n.pair := rfl
@[simp] theorem Node.put_log (n : Node) (f : Fld) (b : Bool) : (n.put f b).log = n.log := rfl
@[simp] theorem Node.put_flash (n : Node) (f : Fld) (b : Bool) : (n.put f b).flash = n.flash := rfl
@[simp] theorem Node.put_epochUnread (n : Node) (f : Fld) (b : Bool) : (n.put f b).epochUnread = n.epochUnread := rfl
@[simp] theorem Node.put_updUnread (n : Node) (f : Fld) (b : Bool) : (n.put f b).updUnread = n.updUnread := rfl
@[simp] theorem Node.put_out (n : Node) (f : Fld) (b : Bool) : (n.put f b).out = n.out := rfl
@[simp] theorem Node.put_memCe (n : Node) (f : Fld) (b : Bool) : (n.put f b).memCe = n.memCe := rfl
@[simp] theorem Node.put_freeN (n : Node) (f : Fld) (b : Bool) : (n.put f b).freeN = n.freeN := rfl

/-! ### inc -/

@[simp] theorem Node.inc_mode (n : Node) (f : Fld) : (n.inc f).mode = n.mode := rfl
@[simp] theorem Node.inc_level (n : Node) (f : Fld) : (n.inc f).level = n.level := rfl
@[simp] theorem Node.inc_wait (n : Node) (f : Fld) : (n.inc f).wait = n.wait := rfl
@[simp] theorem Node.inc_unpowered (n : Node) (f : Fld) : (n.inc f).unpowered = n.unpowered := rfl
@[simp] theorem Node.inc_failed (n : Node) (f : Fld) : (n.inc f).failed = n.failed := rfl
@[simp] theorem Node.inc_ident (n : Node) (f : Fld) : (n.inc f).ident = n.ident := rfl
@[simp] theorem Node.inc_mem (n : Node) (f : Fld) : (n.inc f).mem = n.mem := rfl
@[simp] theorem Node.inc_poison (n : Node) (f : Fld) : (n.inc f).poison = n.poison := rfl
@[simp] theorem Node.inc_caps (n : Node) (f : Fld) : (n.inc f).caps = n.caps := rfl
@[simp] theorem Node.inc_holds (n : Node) (f : Fld) : (n.inc f).holds = n.holds := rfl
@[simp] theorem Node.inc_results (n : Node) (f : Fld) : (n.inc f).results = n.results := rfl
@[simp] theorem Node.inc_leaseAt (n : Node) (f : Fld) : (n.inc f).leaseAt = n.leaseAt := rfl
@[simp] theorem Node.inc_settings (n : Node) (f : Fld) : (n.inc f).settings = n.settings := rfl
@[simp] theorem Node.inc_clock (n : Node) (f : Fld) : (n.inc f).clock = n.clock := rfl
@[simp] theorem Node.inc_engs (n : Node) (f : Fld) : (n.inc f).engs = n.engs := rfl
@[simp] theorem Node.inc_staging (n : Node) (f : Fld) : (n.inc f).staging = n.staging := rfl
@[simp] theorem Node.inc_tabs (n : Node) (f : Fld) : (n.inc f).tabs = n.tabs := rfl
@[simp] theorem Node.inc_loaded (n : Node) (f : Fld) : (n.inc f).loaded = n.loaded := rfl
@[simp] theorem Node.inc_chanSlot (n : Node) (f : Fld) : (n.inc f).chanSlot = n.chanSlot := rfl
@[simp] theorem Node.inc_fab (n : Node) (f : Fld) : (n.inc f).fab = n.fab := rfl
@[simp] theorem Node.inc_ports (n : Node) (f : Fld) : (n.inc f).ports = n.ports := rfl
@[simp] theorem Node.inc_cnt (n : Node) (f : Fld) : (n.inc f).cnt = n.cnt := rfl
@[simp] theorem Node.inc_delta (n : Node) (f : Fld) : (n.inc f).delta = n.delta := rfl
@[simp] theorem Node.inc_inaug (n : Node) (f : Fld) : (n.inc f).inaug = n.inaug := rfl
@[simp] theorem Node.inc_chans (n : Node) (f : Fld) : (n.inc f).chans = n.chans := rfl
@[simp] theorem Node.inc_brg (n : Node) (f : Fld) : (n.inc f).brg = n.brg := rfl
@[simp] theorem Node.inc_datasets (n : Node) (f : Fld) : (n.inc f).datasets = n.datasets := rfl
@[simp] theorem Node.inc_ipId (n : Node) (f : Fld) : (n.inc f).ipId = n.ipId := rfl
@[simp] theorem Node.inc_pair (n : Node) (f : Fld) : (n.inc f).pair = n.pair := rfl
@[simp] theorem Node.inc_log (n : Node) (f : Fld) : (n.inc f).log = n.log := rfl
@[simp] theorem Node.inc_flash (n : Node) (f : Fld) : (n.inc f).flash = n.flash := rfl
@[simp] theorem Node.inc_epochUnread (n : Node) (f : Fld) : (n.inc f).epochUnread = n.epochUnread := rfl
@[simp] theorem Node.inc_updUnread (n : Node) (f : Fld) : (n.inc f).updUnread = n.updUnread := rfl
@[simp] theorem Node.inc_out (n : Node) (f : Fld) : (n.inc f).out = n.out := rfl
@[simp] theorem Node.inc_memCe (n : Node) (f : Fld) : (n.inc f).memCe = n.memCe := rfl
@[simp] theorem Node.inc_freeN (n : Node) (f : Fld) : (n.inc f).freeN = n.freeN := rfl

/-! ### emit -/

@[simp] theorem Node.emit_mode (n : Node) (o : Output) : (n.emit o).mode = n.mode := rfl
@[simp] theorem Node.emit_level (n : Node) (o : Output) : (n.emit o).level = n.level := rfl
@[simp] theorem Node.emit_wait (n : Node) (o : Output) : (n.emit o).wait = n.wait := rfl
@[simp] theorem Node.emit_unpowered (n : Node) (o : Output) : (n.emit o).unpowered = n.unpowered := rfl
@[simp] theorem Node.emit_failed (n : Node) (o : Output) : (n.emit o).failed = n.failed := rfl
@[simp] theorem Node.emit_ident (n : Node) (o : Output) : (n.emit o).ident = n.ident := rfl
@[simp] theorem Node.emit_regs (n : Node) (o : Output) : (n.emit o).regs = n.regs := rfl
@[simp] theorem Node.emit_mem (n : Node) (o : Output) : (n.emit o).mem = n.mem := rfl
@[simp] theorem Node.emit_poison (n : Node) (o : Output) : (n.emit o).poison = n.poison := rfl
@[simp] theorem Node.emit_caps (n : Node) (o : Output) : (n.emit o).caps = n.caps := rfl
@[simp] theorem Node.emit_holds (n : Node) (o : Output) : (n.emit o).holds = n.holds := rfl
@[simp] theorem Node.emit_results (n : Node) (o : Output) : (n.emit o).results = n.results := rfl
@[simp] theorem Node.emit_leaseAt (n : Node) (o : Output) : (n.emit o).leaseAt = n.leaseAt := rfl
@[simp] theorem Node.emit_settings (n : Node) (o : Output) : (n.emit o).settings = n.settings := rfl
@[simp] theorem Node.emit_clock (n : Node) (o : Output) : (n.emit o).clock = n.clock := rfl
@[simp] theorem Node.emit_engs (n : Node) (o : Output) : (n.emit o).engs = n.engs := rfl
@[simp] theorem Node.emit_staging (n : Node) (o : Output) : (n.emit o).staging = n.staging := rfl
@[simp] theorem Node.emit_tabs (n : Node) (o : Output) : (n.emit o).tabs = n.tabs := rfl
@[simp] theorem Node.emit_loaded (n : Node) (o : Output) : (n.emit o).loaded = n.loaded := rfl
@[simp] theorem Node.emit_chanSlot (n : Node) (o : Output) : (n.emit o).chanSlot = n.chanSlot := rfl
@[simp] theorem Node.emit_fab (n : Node) (o : Output) : (n.emit o).fab = n.fab := rfl
@[simp] theorem Node.emit_ports (n : Node) (o : Output) : (n.emit o).ports = n.ports := rfl
@[simp] theorem Node.emit_cnt (n : Node) (o : Output) : (n.emit o).cnt = n.cnt := rfl
@[simp] theorem Node.emit_delta (n : Node) (o : Output) : (n.emit o).delta = n.delta := rfl
@[simp] theorem Node.emit_inaug (n : Node) (o : Output) : (n.emit o).inaug = n.inaug := rfl
@[simp] theorem Node.emit_chans (n : Node) (o : Output) : (n.emit o).chans = n.chans := rfl
@[simp] theorem Node.emit_brg (n : Node) (o : Output) : (n.emit o).brg = n.brg := rfl
@[simp] theorem Node.emit_datasets (n : Node) (o : Output) : (n.emit o).datasets = n.datasets := rfl
@[simp] theorem Node.emit_ipId (n : Node) (o : Output) : (n.emit o).ipId = n.ipId := rfl
@[simp] theorem Node.emit_pair (n : Node) (o : Output) : (n.emit o).pair = n.pair := rfl
@[simp] theorem Node.emit_log (n : Node) (o : Output) : (n.emit o).log = n.log := rfl
@[simp] theorem Node.emit_flash (n : Node) (o : Output) : (n.emit o).flash = n.flash := rfl
@[simp] theorem Node.emit_epochUnread (n : Node) (o : Output) : (n.emit o).epochUnread = n.epochUnread := rfl
@[simp] theorem Node.emit_updUnread (n : Node) (o : Output) : (n.emit o).updUnread = n.updUnread := rfl
@[simp] theorem Node.emit_memCe (n : Node) (o : Output) : (n.emit o).memCe = n.memCe := rfl
@[simp] theorem Node.emit_freeN (n : Node) (o : Output) : (n.emit o).freeN = n.freeN := rfl

/-! ### setEng -/

@[simp] theorem Node.setEng_mode (n : Node) (e : Nat) (x : Eng) : (n.setEng e x).mode = n.mode := rfl
@[simp] theorem Node.setEng_level (n : Node) (e : Nat) (x : Eng) : (n.setEng e x).level = n.level := rfl
@[simp] theorem Node.setEng_wait (n : Node) (e : Nat) (x : Eng) : (n.setEng e x).wait = n.wait := rfl
@[simp] theorem Node.setEng_unpowered (n : Node) (e : Nat) (x : Eng) : (n.setEng e x).unpowered = n.unpowered := rfl
@[simp] theorem Node.setEng_failed (n : Node) (e : Nat) (x : Eng) : (n.setEng e x).failed = n.failed := rfl
@[simp] theorem Node.setEng_ident (n : Node) (e : Nat) (x : Eng) : (n.setEng e x).ident = n.ident := rfl
@[simp] theorem Node.setEng_regs (n : Node) (e : Nat) (x : Eng) : (n.setEng e x).regs = n.regs := rfl
@[simp] theorem Node.setEng_mem (n : Node) (e : Nat) (x : Eng) : (n.setEng e x).mem = n.mem := rfl
@[simp] theorem Node.setEng_poison (n : Node) (e : Nat) (x : Eng) : (n.setEng e x).poison = n.poison := rfl
@[simp] theorem Node.setEng_caps (n : Node) (e : Nat) (x : Eng) : (n.setEng e x).caps = n.caps := rfl
@[simp] theorem Node.setEng_holds (n : Node) (e : Nat) (x : Eng) : (n.setEng e x).holds = n.holds := rfl
@[simp] theorem Node.setEng_results (n : Node) (e : Nat) (x : Eng) : (n.setEng e x).results = n.results := rfl
@[simp] theorem Node.setEng_leaseAt (n : Node) (e : Nat) (x : Eng) : (n.setEng e x).leaseAt = n.leaseAt := rfl
@[simp] theorem Node.setEng_settings (n : Node) (e : Nat) (x : Eng) : (n.setEng e x).settings = n.settings := rfl
@[simp] theorem Node.setEng_clock (n : Node) (e : Nat) (x : Eng) : (n.setEng e x).clock = n.clock := rfl
@[simp] theorem Node.setEng_staging (n : Node) (e : Nat) (x : Eng) : (n.setEng e x).staging = n.staging := rfl
@[simp] theorem Node.setEng_tabs (n : Node) (e : Nat) (x : Eng) : (n.setEng e x).tabs = n.tabs := rfl
@[simp] theorem Node.setEng_loaded (n : Node) (e : Nat) (x : Eng) : (n.setEng e x).loaded = n.loaded := rfl
@[simp] theorem Node.setEng_chanSlot (n : Node) (e : Nat) (x : Eng) : (n.setEng e x).chanSlot = n.chanSlot := rfl
@[simp] theorem Node.setEng_fab (n : Node) (e : Nat) (x : Eng) : (n.setEng e x).fab = n.fab := rfl
@[simp] theorem Node.setEng_ports (n : Node) (e : Nat) (x : Eng) : (n.setEng e x).ports = n.ports := rfl
@[simp] theorem Node.setEng_cnt (n : Node) (e : Nat) (x : Eng) : (n.setEng e x).cnt = n.cnt := rfl
@[simp] theorem Node.setEng_delta (n : Node) (e : Nat) (x : Eng) : (n.setEng e x).delta = n.delta := rfl
@[simp] theorem Node.setEng_inaug (n : Node) (e : Nat) (x : Eng) : (n.setEng e x).inaug = n.inaug := rfl
@[simp] theorem Node.setEng_chans (n : Node) (e : Nat) (x : Eng) : (n.setEng e x).chans = n.chans := rfl
@[simp] theorem Node.setEng_brg (n : Node) (e : Nat) (x : Eng) : (n.setEng e x).brg = n.brg := rfl
@[simp] theorem Node.setEng_datasets (n : Node) (e : Nat) (x : Eng) : (n.setEng e x).datasets = n.datasets := rfl
@[simp] theorem Node.setEng_ipId (n : Node) (e : Nat) (x : Eng) : (n.setEng e x).ipId = n.ipId := rfl
@[simp] theorem Node.setEng_pair (n : Node) (e : Nat) (x : Eng) : (n.setEng e x).pair = n.pair := rfl
@[simp] theorem Node.setEng_log (n : Node) (e : Nat) (x : Eng) : (n.setEng e x).log = n.log := rfl
@[simp] theorem Node.setEng_flash (n : Node) (e : Nat) (x : Eng) : (n.setEng e x).flash = n.flash := rfl
@[simp] theorem Node.setEng_epochUnread (n : Node) (e : Nat) (x : Eng) : (n.setEng e x).epochUnread = n.epochUnread := rfl
@[simp] theorem Node.setEng_updUnread (n : Node) (e : Nat) (x : Eng) : (n.setEng e x).updUnread = n.updUnread := rfl
@[simp] theorem Node.setEng_out (n : Node) (e : Nat) (x : Eng) : (n.setEng e x).out = n.out := rfl
@[simp] theorem Node.setEng_memCe (n : Node) (e : Nat) (x : Eng) : (n.setEng e x).memCe = n.memCe := rfl
@[simp] theorem Node.setEng_freeN (n : Node) (e : Nat) (x : Eng) : (n.setEng e x).freeN = n.freeN := rfl

/-! ### setPort -/

@[simp] theorem Node.setPort_mode (n : Node) (p : Nat) (x : Port) : (n.setPort p x).mode = n.mode := rfl
@[simp] theorem Node.setPort_level (n : Node) (p : Nat) (x : Port) : (n.setPort p x).level = n.level := rfl
@[simp] theorem Node.setPort_wait (n : Node) (p : Nat) (x : Port) : (n.setPort p x).wait = n.wait := rfl
@[simp] theorem Node.setPort_unpowered (n : Node) (p : Nat) (x : Port) : (n.setPort p x).unpowered = n.unpowered := rfl
@[simp] theorem Node.setPort_failed (n : Node) (p : Nat) (x : Port) : (n.setPort p x).failed = n.failed := rfl
@[simp] theorem Node.setPort_ident (n : Node) (p : Nat) (x : Port) : (n.setPort p x).ident = n.ident := rfl
@[simp] theorem Node.setPort_regs (n : Node) (p : Nat) (x : Port) : (n.setPort p x).regs = n.regs := rfl
@[simp] theorem Node.setPort_mem (n : Node) (p : Nat) (x : Port) : (n.setPort p x).mem = n.mem := rfl
@[simp] theorem Node.setPort_poison (n : Node) (p : Nat) (x : Port) : (n.setPort p x).poison = n.poison := rfl
@[simp] theorem Node.setPort_caps (n : Node) (p : Nat) (x : Port) : (n.setPort p x).caps = n.caps := rfl
@[simp] theorem Node.setPort_holds (n : Node) (p : Nat) (x : Port) : (n.setPort p x).holds = n.holds := rfl
@[simp] theorem Node.setPort_results (n : Node) (p : Nat) (x : Port) : (n.setPort p x).results = n.results := rfl
@[simp] theorem Node.setPort_leaseAt (n : Node) (p : Nat) (x : Port) : (n.setPort p x).leaseAt = n.leaseAt := rfl
@[simp] theorem Node.setPort_settings (n : Node) (p : Nat) (x : Port) : (n.setPort p x).settings = n.settings := rfl
@[simp] theorem Node.setPort_clock (n : Node) (p : Nat) (x : Port) : (n.setPort p x).clock = n.clock := rfl
@[simp] theorem Node.setPort_engs (n : Node) (p : Nat) (x : Port) : (n.setPort p x).engs = n.engs := rfl
@[simp] theorem Node.setPort_staging (n : Node) (p : Nat) (x : Port) : (n.setPort p x).staging = n.staging := rfl
@[simp] theorem Node.setPort_tabs (n : Node) (p : Nat) (x : Port) : (n.setPort p x).tabs = n.tabs := rfl
@[simp] theorem Node.setPort_loaded (n : Node) (p : Nat) (x : Port) : (n.setPort p x).loaded = n.loaded := rfl
@[simp] theorem Node.setPort_chanSlot (n : Node) (p : Nat) (x : Port) : (n.setPort p x).chanSlot = n.chanSlot := rfl
@[simp] theorem Node.setPort_fab (n : Node) (p : Nat) (x : Port) : (n.setPort p x).fab = n.fab := rfl
@[simp] theorem Node.setPort_cnt (n : Node) (p : Nat) (x : Port) : (n.setPort p x).cnt = n.cnt := rfl
@[simp] theorem Node.setPort_delta (n : Node) (p : Nat) (x : Port) : (n.setPort p x).delta = n.delta := rfl
@[simp] theorem Node.setPort_inaug (n : Node) (p : Nat) (x : Port) : (n.setPort p x).inaug = n.inaug := rfl
@[simp] theorem Node.setPort_chans (n : Node) (p : Nat) (x : Port) : (n.setPort p x).chans = n.chans := rfl
@[simp] theorem Node.setPort_brg (n : Node) (p : Nat) (x : Port) : (n.setPort p x).brg = n.brg := rfl
@[simp] theorem Node.setPort_datasets (n : Node) (p : Nat) (x : Port) : (n.setPort p x).datasets = n.datasets := rfl
@[simp] theorem Node.setPort_ipId (n : Node) (p : Nat) (x : Port) : (n.setPort p x).ipId = n.ipId := rfl
@[simp] theorem Node.setPort_pair (n : Node) (p : Nat) (x : Port) : (n.setPort p x).pair = n.pair := rfl
@[simp] theorem Node.setPort_log (n : Node) (p : Nat) (x : Port) : (n.setPort p x).log = n.log := rfl
@[simp] theorem Node.setPort_flash (n : Node) (p : Nat) (x : Port) : (n.setPort p x).flash = n.flash := rfl
@[simp] theorem Node.setPort_epochUnread (n : Node) (p : Nat) (x : Port) : (n.setPort p x).epochUnread = n.epochUnread := rfl
@[simp] theorem Node.setPort_updUnread (n : Node) (p : Nat) (x : Port) : (n.setPort p x).updUnread = n.updUnread := rfl
@[simp] theorem Node.setPort_out (n : Node) (p : Nat) (x : Port) : (n.setPort p x).out = n.out := rfl
@[simp] theorem Node.setPort_memCe (n : Node) (p : Nat) (x : Port) : (n.setPort p x).memCe = n.memCe := rfl
@[simp] theorem Node.setPort_freeN (n : Node) (p : Nat) (x : Port) : (n.setPort p x).freeN = n.freeN := rfl

/-! ### setChan -/

@[simp] theorem Node.setChan_mode (n : Node) (c : Nat) (x : Chan) : (n.setChan c x).mode = n.mode := rfl
@[simp] theorem Node.setChan_level (n : Node) (c : Nat) (x : Chan) : (n.setChan c x).level = n.level := rfl
@[simp] theorem Node.setChan_wait (n : Node) (c : Nat) (x : Chan) : (n.setChan c x).wait = n.wait := rfl
@[simp] theorem Node.setChan_unpowered (n : Node) (c : Nat) (x : Chan) : (n.setChan c x).unpowered = n.unpowered := rfl
@[simp] theorem Node.setChan_failed (n : Node) (c : Nat) (x : Chan) : (n.setChan c x).failed = n.failed := rfl
@[simp] theorem Node.setChan_ident (n : Node) (c : Nat) (x : Chan) : (n.setChan c x).ident = n.ident := rfl
@[simp] theorem Node.setChan_regs (n : Node) (c : Nat) (x : Chan) : (n.setChan c x).regs = n.regs := rfl
@[simp] theorem Node.setChan_mem (n : Node) (c : Nat) (x : Chan) : (n.setChan c x).mem = n.mem := rfl
@[simp] theorem Node.setChan_poison (n : Node) (c : Nat) (x : Chan) : (n.setChan c x).poison = n.poison := rfl
@[simp] theorem Node.setChan_caps (n : Node) (c : Nat) (x : Chan) : (n.setChan c x).caps = n.caps := rfl
@[simp] theorem Node.setChan_holds (n : Node) (c : Nat) (x : Chan) : (n.setChan c x).holds = n.holds := rfl
@[simp] theorem Node.setChan_results (n : Node) (c : Nat) (x : Chan) : (n.setChan c x).results = n.results := rfl
@[simp] theorem Node.setChan_leaseAt (n : Node) (c : Nat) (x : Chan) : (n.setChan c x).leaseAt = n.leaseAt := rfl
@[simp] theorem Node.setChan_settings (n : Node) (c : Nat) (x : Chan) : (n.setChan c x).settings = n.settings := rfl
@[simp] theorem Node.setChan_clock (n : Node) (c : Nat) (x : Chan) : (n.setChan c x).clock = n.clock := rfl
@[simp] theorem Node.setChan_engs (n : Node) (c : Nat) (x : Chan) : (n.setChan c x).engs = n.engs := rfl
@[simp] theorem Node.setChan_staging (n : Node) (c : Nat) (x : Chan) : (n.setChan c x).staging = n.staging := rfl
@[simp] theorem Node.setChan_tabs (n : Node) (c : Nat) (x : Chan) : (n.setChan c x).tabs = n.tabs := rfl
@[simp] theorem Node.setChan_loaded (n : Node) (c : Nat) (x : Chan) : (n.setChan c x).loaded = n.loaded := rfl
@[simp] theorem Node.setChan_chanSlot (n : Node) (c : Nat) (x : Chan) : (n.setChan c x).chanSlot = n.chanSlot := rfl
@[simp] theorem Node.setChan_fab (n : Node) (c : Nat) (x : Chan) : (n.setChan c x).fab = n.fab := rfl
@[simp] theorem Node.setChan_ports (n : Node) (c : Nat) (x : Chan) : (n.setChan c x).ports = n.ports := rfl
@[simp] theorem Node.setChan_cnt (n : Node) (c : Nat) (x : Chan) : (n.setChan c x).cnt = n.cnt := rfl
@[simp] theorem Node.setChan_delta (n : Node) (c : Nat) (x : Chan) : (n.setChan c x).delta = n.delta := rfl
@[simp] theorem Node.setChan_inaug (n : Node) (c : Nat) (x : Chan) : (n.setChan c x).inaug = n.inaug := rfl
@[simp] theorem Node.setChan_brg (n : Node) (c : Nat) (x : Chan) : (n.setChan c x).brg = n.brg := rfl
@[simp] theorem Node.setChan_datasets (n : Node) (c : Nat) (x : Chan) : (n.setChan c x).datasets = n.datasets := rfl
@[simp] theorem Node.setChan_ipId (n : Node) (c : Nat) (x : Chan) : (n.setChan c x).ipId = n.ipId := rfl
@[simp] theorem Node.setChan_pair (n : Node) (c : Nat) (x : Chan) : (n.setChan c x).pair = n.pair := rfl
@[simp] theorem Node.setChan_log (n : Node) (c : Nat) (x : Chan) : (n.setChan c x).log = n.log := rfl
@[simp] theorem Node.setChan_flash (n : Node) (c : Nat) (x : Chan) : (n.setChan c x).flash = n.flash := rfl
@[simp] theorem Node.setChan_epochUnread (n : Node) (c : Nat) (x : Chan) : (n.setChan c x).epochUnread = n.epochUnread := rfl
@[simp] theorem Node.setChan_updUnread (n : Node) (c : Nat) (x : Chan) : (n.setChan c x).updUnread = n.updUnread := rfl
@[simp] theorem Node.setChan_out (n : Node) (c : Nat) (x : Chan) : (n.setChan c x).out = n.out := rfl
@[simp] theorem Node.setChan_memCe (n : Node) (c : Nat) (x : Chan) : (n.setChan c x).memCe = n.memCe := rfl
@[simp] theorem Node.setChan_freeN (n : Node) (c : Nat) (x : Chan) : (n.setChan c x).freeN = n.freeN := rfl

/-! ### setTopPort -/

@[simp] theorem Node.setTopPort_mode (n : Node) (p : Nat) (x : TopPort) : (n.setTopPort p x).mode = n.mode := rfl
@[simp] theorem Node.setTopPort_level (n : Node) (p : Nat) (x : TopPort) : (n.setTopPort p x).level = n.level := rfl
@[simp] theorem Node.setTopPort_wait (n : Node) (p : Nat) (x : TopPort) : (n.setTopPort p x).wait = n.wait := rfl
@[simp] theorem Node.setTopPort_unpowered (n : Node) (p : Nat) (x : TopPort) : (n.setTopPort p x).unpowered = n.unpowered := rfl
@[simp] theorem Node.setTopPort_failed (n : Node) (p : Nat) (x : TopPort) : (n.setTopPort p x).failed = n.failed := rfl
@[simp] theorem Node.setTopPort_ident (n : Node) (p : Nat) (x : TopPort) : (n.setTopPort p x).ident = n.ident := rfl
@[simp] theorem Node.setTopPort_regs (n : Node) (p : Nat) (x : TopPort) : (n.setTopPort p x).regs = n.regs := rfl
@[simp] theorem Node.setTopPort_mem (n : Node) (p : Nat) (x : TopPort) : (n.setTopPort p x).mem = n.mem := rfl
@[simp] theorem Node.setTopPort_poison (n : Node) (p : Nat) (x : TopPort) : (n.setTopPort p x).poison = n.poison := rfl
@[simp] theorem Node.setTopPort_caps (n : Node) (p : Nat) (x : TopPort) : (n.setTopPort p x).caps = n.caps := rfl
@[simp] theorem Node.setTopPort_holds (n : Node) (p : Nat) (x : TopPort) : (n.setTopPort p x).holds = n.holds := rfl
@[simp] theorem Node.setTopPort_results (n : Node) (p : Nat) (x : TopPort) : (n.setTopPort p x).results = n.results := rfl
@[simp] theorem Node.setTopPort_leaseAt (n : Node) (p : Nat) (x : TopPort) : (n.setTopPort p x).leaseAt = n.leaseAt := rfl
@[simp] theorem Node.setTopPort_settings (n : Node) (p : Nat) (x : TopPort) : (n.setTopPort p x).settings = n.settings := rfl
@[simp] theorem Node.setTopPort_clock (n : Node) (p : Nat) (x : TopPort) : (n.setTopPort p x).clock = n.clock := rfl
@[simp] theorem Node.setTopPort_engs (n : Node) (p : Nat) (x : TopPort) : (n.setTopPort p x).engs = n.engs := rfl
@[simp] theorem Node.setTopPort_staging (n : Node) (p : Nat) (x : TopPort) : (n.setTopPort p x).staging = n.staging := rfl
@[simp] theorem Node.setTopPort_tabs (n : Node) (p : Nat) (x : TopPort) : (n.setTopPort p x).tabs = n.tabs := rfl
@[simp] theorem Node.setTopPort_loaded (n : Node) (p : Nat) (x : TopPort) : (n.setTopPort p x).loaded = n.loaded := rfl
@[simp] theorem Node.setTopPort_chanSlot (n : Node) (p : Nat) (x : TopPort) : (n.setTopPort p x).chanSlot = n.chanSlot := rfl
@[simp] theorem Node.setTopPort_fab (n : Node) (p : Nat) (x : TopPort) : (n.setTopPort p x).fab = n.fab := rfl
@[simp] theorem Node.setTopPort_ports (n : Node) (p : Nat) (x : TopPort) : (n.setTopPort p x).ports = n.ports := rfl
@[simp] theorem Node.setTopPort_cnt (n : Node) (p : Nat) (x : TopPort) : (n.setTopPort p x).cnt = n.cnt := rfl
@[simp] theorem Node.setTopPort_delta (n : Node) (p : Nat) (x : TopPort) : (n.setTopPort p x).delta = n.delta := rfl
@[simp] theorem Node.setTopPort_chans (n : Node) (p : Nat) (x : TopPort) : (n.setTopPort p x).chans = n.chans := rfl
@[simp] theorem Node.setTopPort_brg (n : Node) (p : Nat) (x : TopPort) : (n.setTopPort p x).brg = n.brg := rfl
@[simp] theorem Node.setTopPort_datasets (n : Node) (p : Nat) (x : TopPort) : (n.setTopPort p x).datasets = n.datasets := rfl
@[simp] theorem Node.setTopPort_ipId (n : Node) (p : Nat) (x : TopPort) : (n.setTopPort p x).ipId = n.ipId := rfl
@[simp] theorem Node.setTopPort_pair (n : Node) (p : Nat) (x : TopPort) : (n.setTopPort p x).pair = n.pair := rfl
@[simp] theorem Node.setTopPort_log (n : Node) (p : Nat) (x : TopPort) : (n.setTopPort p x).log = n.log := rfl
@[simp] theorem Node.setTopPort_flash (n : Node) (p : Nat) (x : TopPort) : (n.setTopPort p x).flash = n.flash := rfl
@[simp] theorem Node.setTopPort_epochUnread (n : Node) (p : Nat) (x : TopPort) : (n.setTopPort p x).epochUnread = n.epochUnread := rfl
@[simp] theorem Node.setTopPort_updUnread (n : Node) (p : Nat) (x : TopPort) : (n.setTopPort p x).updUnread = n.updUnread := rfl
@[simp] theorem Node.setTopPort_out (n : Node) (p : Nat) (x : TopPort) : (n.setTopPort p x).out = n.out := rfl
@[simp] theorem Node.setTopPort_memCe (n : Node) (p : Nat) (x : TopPort) : (n.setTopPort p x).memCe = n.memCe := rfl
@[simp] theorem Node.setTopPort_freeN (n : Node) (p : Nat) (x : TopPort) : (n.setTopPort p x).freeN = n.freeN := rfl

/-! ### setBank -/

@[simp] theorem Node.setBank_mode (n : Node) (b : Nat) (x : Bank) : (n.setBank b x).mode = n.mode := rfl
@[simp] theorem Node.setBank_level (n : Node) (b : Nat) (x : Bank) : (n.setBank b x).level = n.level := rfl
@[simp] theorem Node.setBank_wait (n : Node) (b : Nat) (x : Bank) : (n.setBank b x).wait = n.wait := rfl
@[simp] theorem Node.setBank_unpowered (n : Node) (b : Nat) (x : Bank) : (n.setBank b x).unpowered = n.unpowered := rfl
@[simp] theorem Node.setBank_failed (n : Node) (b : Nat) (x : Bank) : (n.setBank b x).failed = n.failed := rfl
@[simp] theorem Node.setBank_ident (n : Node) (b : Nat) (x : Bank) : (n.setBank b x).ident = n.ident := rfl
@[simp] theorem Node.setBank_regs (n : Node) (b : Nat) (x : Bank) : (n.setBank b x).regs = n.regs := rfl
@[simp] theorem Node.setBank_mem (n : Node) (b : Nat) (x : Bank) : (n.setBank b x).mem = n.mem := rfl
@[simp] theorem Node.setBank_poison (n : Node) (b : Nat) (x : Bank) : (n.setBank b x).poison = n.poison := rfl
@[simp] theorem Node.setBank_caps (n : Node) (b : Nat) (x : Bank) : (n.setBank b x).caps = n.caps := rfl
@[simp] theorem Node.setBank_holds (n : Node) (b : Nat) (x : Bank) : (n.setBank b x).holds = n.holds := rfl
@[simp] theorem Node.setBank_results (n : Node) (b : Nat) (x : Bank) : (n.setBank b x).results = n.results := rfl
@[simp] theorem Node.setBank_leaseAt (n : Node) (b : Nat) (x : Bank) : (n.setBank b x).leaseAt = n.leaseAt := rfl
@[simp] theorem Node.setBank_settings (n : Node) (b : Nat) (x : Bank) : (n.setBank b x).settings = n.settings := rfl
@[simp] theorem Node.setBank_clock (n : Node) (b : Nat) (x : Bank) : (n.setBank b x).clock = n.clock := rfl
@[simp] theorem Node.setBank_engs (n : Node) (b : Nat) (x : Bank) : (n.setBank b x).engs = n.engs := rfl
@[simp] theorem Node.setBank_staging (n : Node) (b : Nat) (x : Bank) : (n.setBank b x).staging = n.staging := rfl
@[simp] theorem Node.setBank_tabs (n : Node) (b : Nat) (x : Bank) : (n.setBank b x).tabs = n.tabs := rfl
@[simp] theorem Node.setBank_loaded (n : Node) (b : Nat) (x : Bank) : (n.setBank b x).loaded = n.loaded := rfl
@[simp] theorem Node.setBank_chanSlot (n : Node) (b : Nat) (x : Bank) : (n.setBank b x).chanSlot = n.chanSlot := rfl
@[simp] theorem Node.setBank_ports (n : Node) (b : Nat) (x : Bank) : (n.setBank b x).ports = n.ports := rfl
@[simp] theorem Node.setBank_cnt (n : Node) (b : Nat) (x : Bank) : (n.setBank b x).cnt = n.cnt := rfl
@[simp] theorem Node.setBank_delta (n : Node) (b : Nat) (x : Bank) : (n.setBank b x).delta = n.delta := rfl
@[simp] theorem Node.setBank_inaug (n : Node) (b : Nat) (x : Bank) : (n.setBank b x).inaug = n.inaug := rfl
@[simp] theorem Node.setBank_chans (n : Node) (b : Nat) (x : Bank) : (n.setBank b x).chans = n.chans := rfl
@[simp] theorem Node.setBank_brg (n : Node) (b : Nat) (x : Bank) : (n.setBank b x).brg = n.brg := rfl
@[simp] theorem Node.setBank_datasets (n : Node) (b : Nat) (x : Bank) : (n.setBank b x).datasets = n.datasets := rfl
@[simp] theorem Node.setBank_ipId (n : Node) (b : Nat) (x : Bank) : (n.setBank b x).ipId = n.ipId := rfl
@[simp] theorem Node.setBank_pair (n : Node) (b : Nat) (x : Bank) : (n.setBank b x).pair = n.pair := rfl
@[simp] theorem Node.setBank_log (n : Node) (b : Nat) (x : Bank) : (n.setBank b x).log = n.log := rfl
@[simp] theorem Node.setBank_flash (n : Node) (b : Nat) (x : Bank) : (n.setBank b x).flash = n.flash := rfl
@[simp] theorem Node.setBank_epochUnread (n : Node) (b : Nat) (x : Bank) : (n.setBank b x).epochUnread = n.epochUnread := rfl
@[simp] theorem Node.setBank_updUnread (n : Node) (b : Nat) (x : Bank) : (n.setBank b x).updUnread = n.updUnread := rfl
@[simp] theorem Node.setBank_out (n : Node) (b : Nat) (x : Bank) : (n.setBank b x).out = n.out := rfl
@[simp] theorem Node.setBank_memCe (n : Node) (b : Nat) (x : Bank) : (n.setBank b x).memCe = n.memCe := rfl
@[simp] theorem Node.setBank_freeN (n : Node) (b : Nat) (x : Bank) : (n.setBank b x).freeN = n.freeN := rfl

/-! ### setFrame -/

@[simp] theorem Node.setFrame_mode (n : Node) (k : Nat) (f : Frame) : (n.setFrame k f).mode = n.mode := rfl
@[simp] theorem Node.setFrame_level (n : Node) (k : Nat) (f : Frame) : (n.setFrame k f).level = n.level := rfl
@[simp] theorem Node.setFrame_wait (n : Node) (k : Nat) (f : Frame) : (n.setFrame k f).wait = n.wait := rfl
@[simp] theorem Node.setFrame_unpowered (n : Node) (k : Nat) (f : Frame) : (n.setFrame k f).unpowered = n.unpowered := rfl
@[simp] theorem Node.setFrame_failed (n : Node) (k : Nat) (f : Frame) : (n.setFrame k f).failed = n.failed := rfl
@[simp] theorem Node.setFrame_ident (n : Node) (k : Nat) (f : Frame) : (n.setFrame k f).ident = n.ident := rfl
@[simp] theorem Node.setFrame_regs (n : Node) (k : Nat) (f : Frame) : (n.setFrame k f).regs = n.regs := rfl
@[simp] theorem Node.setFrame_mem (n : Node) (k : Nat) (f : Frame) : (n.setFrame k f).mem = n.mem := rfl
@[simp] theorem Node.setFrame_poison (n : Node) (k : Nat) (f : Frame) : (n.setFrame k f).poison = n.poison := rfl
@[simp] theorem Node.setFrame_caps (n : Node) (k : Nat) (f : Frame) : (n.setFrame k f).caps = n.caps := rfl
@[simp] theorem Node.setFrame_holds (n : Node) (k : Nat) (f : Frame) : (n.setFrame k f).holds = n.holds := rfl
@[simp] theorem Node.setFrame_results (n : Node) (k : Nat) (f : Frame) : (n.setFrame k f).results = n.results := rfl
@[simp] theorem Node.setFrame_leaseAt (n : Node) (k : Nat) (f : Frame) : (n.setFrame k f).leaseAt = n.leaseAt := rfl
@[simp] theorem Node.setFrame_settings (n : Node) (k : Nat) (f : Frame) : (n.setFrame k f).settings = n.settings := rfl
@[simp] theorem Node.setFrame_clock (n : Node) (k : Nat) (f : Frame) : (n.setFrame k f).clock = n.clock := rfl
@[simp] theorem Node.setFrame_engs (n : Node) (k : Nat) (f : Frame) : (n.setFrame k f).engs = n.engs := rfl
@[simp] theorem Node.setFrame_staging (n : Node) (k : Nat) (f : Frame) : (n.setFrame k f).staging = n.staging := rfl
@[simp] theorem Node.setFrame_tabs (n : Node) (k : Nat) (f : Frame) : (n.setFrame k f).tabs = n.tabs := rfl
@[simp] theorem Node.setFrame_loaded (n : Node) (k : Nat) (f : Frame) : (n.setFrame k f).loaded = n.loaded := rfl
@[simp] theorem Node.setFrame_chanSlot (n : Node) (k : Nat) (f : Frame) : (n.setFrame k f).chanSlot = n.chanSlot := rfl
@[simp] theorem Node.setFrame_ports (n : Node) (k : Nat) (f : Frame) : (n.setFrame k f).ports = n.ports := rfl
@[simp] theorem Node.setFrame_cnt (n : Node) (k : Nat) (f : Frame) : (n.setFrame k f).cnt = n.cnt := rfl
@[simp] theorem Node.setFrame_delta (n : Node) (k : Nat) (f : Frame) : (n.setFrame k f).delta = n.delta := rfl
@[simp] theorem Node.setFrame_inaug (n : Node) (k : Nat) (f : Frame) : (n.setFrame k f).inaug = n.inaug := rfl
@[simp] theorem Node.setFrame_chans (n : Node) (k : Nat) (f : Frame) : (n.setFrame k f).chans = n.chans := rfl
@[simp] theorem Node.setFrame_brg (n : Node) (k : Nat) (f : Frame) : (n.setFrame k f).brg = n.brg := rfl
@[simp] theorem Node.setFrame_datasets (n : Node) (k : Nat) (f : Frame) : (n.setFrame k f).datasets = n.datasets := rfl
@[simp] theorem Node.setFrame_ipId (n : Node) (k : Nat) (f : Frame) : (n.setFrame k f).ipId = n.ipId := rfl
@[simp] theorem Node.setFrame_pair (n : Node) (k : Nat) (f : Frame) : (n.setFrame k f).pair = n.pair := rfl
@[simp] theorem Node.setFrame_log (n : Node) (k : Nat) (f : Frame) : (n.setFrame k f).log = n.log := rfl
@[simp] theorem Node.setFrame_flash (n : Node) (k : Nat) (f : Frame) : (n.setFrame k f).flash = n.flash := rfl
@[simp] theorem Node.setFrame_epochUnread (n : Node) (k : Nat) (f : Frame) : (n.setFrame k f).epochUnread = n.epochUnread := rfl
@[simp] theorem Node.setFrame_updUnread (n : Node) (k : Nat) (f : Frame) : (n.setFrame k f).updUnread = n.updUnread := rfl
@[simp] theorem Node.setFrame_out (n : Node) (k : Nat) (f : Frame) : (n.setFrame k f).out = n.out := rfl
@[simp] theorem Node.setFrame_memCe (n : Node) (k : Nat) (f : Frame) : (n.setFrame k f).memCe = n.memCe := rfl
@[simp] theorem Node.setFrame_freeN (n : Node) (k : Nat) (f : Frame) : (n.setFrame k f).freeN = n.freeN := rfl

/-! ### setPtp -/

@[simp] theorem Node.setPtp_mode (n : Node) (p : Nat) (x : PtpPort) : (n.setPtp p x).mode = n.mode := rfl
@[simp] theorem Node.setPtp_level (n : Node) (p : Nat) (x : PtpPort) : (n.setPtp p x).level = n.level := rfl
@[simp] theorem Node.setPtp_wait (n : Node) (p : Nat) (x : PtpPort) : (n.setPtp p x).wait = n.wait := rfl
@[simp] theorem Node.setPtp_unpowered (n : Node) (p : Nat) (x : PtpPort) : (n.setPtp p x).unpowered = n.unpowered := rfl
@[simp] theorem Node.setPtp_failed (n : Node) (p : Nat) (x : PtpPort) : (n.setPtp p x).failed = n.failed := rfl
@[simp] theorem Node.setPtp_ident (n : Node) (p : Nat) (x : PtpPort) : (n.setPtp p x).ident = n.ident := rfl
@[simp] theorem Node.setPtp_regs (n : Node) (p : Nat) (x : PtpPort) : (n.setPtp p x).regs = n.regs := rfl
@[simp] theorem Node.setPtp_mem (n : Node) (p : Nat) (x : PtpPort) : (n.setPtp p x).mem = n.mem := rfl
@[simp] theorem Node.setPtp_poison (n : Node) (p : Nat) (x : PtpPort) : (n.setPtp p x).poison = n.poison := rfl
@[simp] theorem Node.setPtp_caps (n : Node) (p : Nat) (x : PtpPort) : (n.setPtp p x).caps = n.caps := rfl
@[simp] theorem Node.setPtp_holds (n : Node) (p : Nat) (x : PtpPort) : (n.setPtp p x).holds = n.holds := rfl
@[simp] theorem Node.setPtp_results (n : Node) (p : Nat) (x : PtpPort) : (n.setPtp p x).results = n.results := rfl
@[simp] theorem Node.setPtp_leaseAt (n : Node) (p : Nat) (x : PtpPort) : (n.setPtp p x).leaseAt = n.leaseAt := rfl
@[simp] theorem Node.setPtp_settings (n : Node) (p : Nat) (x : PtpPort) : (n.setPtp p x).settings = n.settings := rfl
@[simp] theorem Node.setPtp_engs (n : Node) (p : Nat) (x : PtpPort) : (n.setPtp p x).engs = n.engs := rfl
@[simp] theorem Node.setPtp_staging (n : Node) (p : Nat) (x : PtpPort) : (n.setPtp p x).staging = n.staging := rfl
@[simp] theorem Node.setPtp_tabs (n : Node) (p : Nat) (x : PtpPort) : (n.setPtp p x).tabs = n.tabs := rfl
@[simp] theorem Node.setPtp_loaded (n : Node) (p : Nat) (x : PtpPort) : (n.setPtp p x).loaded = n.loaded := rfl
@[simp] theorem Node.setPtp_chanSlot (n : Node) (p : Nat) (x : PtpPort) : (n.setPtp p x).chanSlot = n.chanSlot := rfl
@[simp] theorem Node.setPtp_fab (n : Node) (p : Nat) (x : PtpPort) : (n.setPtp p x).fab = n.fab := rfl
@[simp] theorem Node.setPtp_ports (n : Node) (p : Nat) (x : PtpPort) : (n.setPtp p x).ports = n.ports := rfl
@[simp] theorem Node.setPtp_cnt (n : Node) (p : Nat) (x : PtpPort) : (n.setPtp p x).cnt = n.cnt := rfl
@[simp] theorem Node.setPtp_delta (n : Node) (p : Nat) (x : PtpPort) : (n.setPtp p x).delta = n.delta := rfl
@[simp] theorem Node.setPtp_inaug (n : Node) (p : Nat) (x : PtpPort) : (n.setPtp p x).inaug = n.inaug := rfl
@[simp] theorem Node.setPtp_chans (n : Node) (p : Nat) (x : PtpPort) : (n.setPtp p x).chans = n.chans := rfl
@[simp] theorem Node.setPtp_brg (n : Node) (p : Nat) (x : PtpPort) : (n.setPtp p x).brg = n.brg := rfl
@[simp] theorem Node.setPtp_datasets (n : Node) (p : Nat) (x : PtpPort) : (n.setPtp p x).datasets = n.datasets := rfl
@[simp] theorem Node.setPtp_ipId (n : Node) (p : Nat) (x : PtpPort) : (n.setPtp p x).ipId = n.ipId := rfl
@[simp] theorem Node.setPtp_pair (n : Node) (p : Nat) (x : PtpPort) : (n.setPtp p x).pair = n.pair := rfl
@[simp] theorem Node.setPtp_log (n : Node) (p : Nat) (x : PtpPort) : (n.setPtp p x).log = n.log := rfl
@[simp] theorem Node.setPtp_flash (n : Node) (p : Nat) (x : PtpPort) : (n.setPtp p x).flash = n.flash := rfl
@[simp] theorem Node.setPtp_epochUnread (n : Node) (p : Nat) (x : PtpPort) : (n.setPtp p x).epochUnread = n.epochUnread := rfl
@[simp] theorem Node.setPtp_updUnread (n : Node) (p : Nat) (x : PtpPort) : (n.setPtp p x).updUnread = n.updUnread := rfl
@[simp] theorem Node.setPtp_out (n : Node) (p : Nat) (x : PtpPort) : (n.setPtp p x).out = n.out := rfl
@[simp] theorem Node.setPtp_memCe (n : Node) (p : Nat) (x : PtpPort) : (n.setPtp p x).memCe = n.memCe := rfl
@[simp] theorem Node.setPtp_freeN (n : Node) (p : Nat) (x : PtpPort) : (n.setPtp p x).freeN = n.freeN := rfl

end Sys2Proof.Machine
end

