-- ==== Sys2Proof/Laws/Ops.lean ====
section
/-! SUPPORT. Laws of the named operations: register fields, messages, fault records, relays, and what `settle` leaves as it was. -/

namespace Sys2Proof.Machine

open Sys2Proof

/-! ### Register fields -/

/-- A field just written reads as the value cut to its width. -/
@[simp] theorem Node.rd_wr_same (n : Node) (f : Fld) (v : Nat) : (n.wr f v).rd f = v % 2 ^ f.w := by
  simp [Node.rd, Node.wr]

/-- Writing one field leaves every field with another key as it was. -/
theorem Node.rd_wr_ne (n : Node) {f g : Fld} (v : Nat) (h : g.key ≠ f.key) : (n.wr f v).rd g = n.rd g := by
  simp [Node.rd, Node.wr, FMap.get_put_ne, h]

theorem Node.rd_put_ne (n : Node) {f g : Fld} (b : Bool) (h : g.key ≠ f.key) : (n.put f b).rd g = n.rd g :=
  Node.rd_wr_ne n _ h

theorem Node.rd_inc_ne (n : Node) {f g : Fld} (h : g.key ≠ f.key) : (n.inc f).rd g = n.rd g :=
  Node.rd_wr_ne n _ h

/-- A one-bit field just set reads as it was set. -/
@[simp] theorem Node.on_put_same (n : Node) (f : Fld) (b : Bool) (h : f.w = 1) : (n.put f b).on f = b := by
  cases b <;> simp [Node.on, Node.put, b2n, h]

theorem Node.on_put_ne (n : Node) {f g : Fld} (b : Bool) (h : g.key ≠ f.key) : (n.put f b).on g = n.on g := by
  simp [Node.on, Node.rd_put_ne n b h]

theorem Node.on_wr_ne (n : Node) {f g : Fld} (v : Nat) (h : g.key ≠ f.key) : (n.wr f v).on g = n.on g := by
  simp [Node.on, Node.rd_wr_ne n v h]

theorem Node.on_inc_ne (n : Node) {f g : Fld} (h : g.key ≠ f.key) : (n.inc f).on g = n.on g :=
  Node.on_wr_ne n _ h

/-- A field no written key names reads as before several writes. -/
theorem Node.rd_wrs_ne (n : Node) (l : List (Fld × Nat)) {g : Fld} (h : ∀ e ∈ l, g.key ≠ e.1.key) :
    (n.wrs l).rd g = n.rd g := by
  unfold Node.wrs
  induction l generalizing n with
  | nil => rfl
  | cons e t ih =>
    simp only [List.foldl_cons]
    rw [ih (n.wr e.1 e.2) (fun x hx => h x (by simp [hx]))]
    exact Node.rd_wr_ne n _ (h e (by simp))

@[simp] theorem Node.wrs_mode (n : Node) (l : List (Fld × Nat)) : (n.wrs l).mode = n.mode := by
  unfold Node.wrs
  induction l generalizing n with
  | nil => rfl
  | cons e t ih => rw [List.foldl_cons, ih]; rfl

@[simp] theorem Node.wrs_level (n : Node) (l : List (Fld × Nat)) : (n.wrs l).level = n.level := by
  unfold Node.wrs
  induction l generalizing n with
  | nil => rfl
  | cons e t ih => rw [List.foldl_cons, ih]; rfl

@[simp] theorem Node.wrs_wait (n : Node) (l : List (Fld × Nat)) : (n.wrs l).wait = n.wait := by
  unfold Node.wrs
  induction l generalizing n with
  | nil => rfl
  | cons e t ih => rw [List.foldl_cons, ih]; rfl

@[simp] theorem Node.wrs_unpowered (n : Node) (l : List (Fld × Nat)) : (n.wrs l).unpowered = n.unpowered := by
  unfold Node.wrs
  induction l generalizing n with
  | nil => rfl
  | cons e t ih => rw [List.foldl_cons, ih]; rfl

@[simp] theorem Node.wrs_failed (n : Node) (l : List (Fld × Nat)) : (n.wrs l).failed = n.failed := by
  unfold Node.wrs
  induction l generalizing n with
  | nil => rfl
  | cons e t ih => rw [List.foldl_cons, ih]; rfl

@[simp] theorem Node.wrs_ident (n : Node) (l : List (Fld × Nat)) : (n.wrs l).ident = n.ident := by
  unfold Node.wrs
  induction l generalizing n with
  | nil => rfl
  | cons e t ih => rw [List.foldl_cons, ih]; rfl

@[simp] theorem Node.wrs_mem (n : Node) (l : List (Fld × Nat)) : (n.wrs l).mem = n.mem := by
  unfold Node.wrs
  induction l generalizing n with
  | nil => rfl
  | cons e t ih => rw [List.foldl_cons, ih]; rfl

@[simp] theorem Node.wrs_poison (n : Node) (l : List (Fld × Nat)) : (n.wrs l).poison = n.poison := by
  unfold Node.wrs
  induction l generalizing n with
  | nil => rfl
  | cons e t ih => rw [List.foldl_cons, ih]; rfl

@[simp] theorem Node.wrs_caps (n : Node) (l : List (Fld × Nat)) : (n.wrs l).caps = n.caps := by
  unfold Node.wrs
  induction l generalizing n with
  | nil => rfl
  | cons e t ih => rw [List.foldl_cons, ih]; rfl

@[simp] theorem Node.wrs_holds (n : Node) (l : List (Fld × Nat)) : (n.wrs l).holds = n.holds := by
  unfold Node.wrs
  induction l generalizing n with
  | nil => rfl
  | cons e t ih => rw [List.foldl_cons, ih]; rfl

@[simp] theorem Node.wrs_results (n : Node) (l : List (Fld × Nat)) : (n.wrs l).results = n.results := by
  unfold Node.wrs
  induction l generalizing n with
  | nil => rfl
  | cons e t ih => rw [List.foldl_cons, ih]; rfl

@[simp] theorem Node.wrs_leaseAt (n : Node) (l : List (Fld × Nat)) : (n.wrs l).leaseAt = n.leaseAt := by
  unfold Node.wrs
  induction l generalizing n with
  | nil => rfl
  | cons e t ih => rw [List.foldl_cons, ih]; rfl

@[simp] theorem Node.wrs_settings (n : Node) (l : List (Fld × Nat)) : (n.wrs l).settings = n.settings := by
  unfold Node.wrs
  induction l generalizing n with
  | nil => rfl
  | cons e t ih => rw [List.foldl_cons, ih]; rfl

@[simp] theorem Node.wrs_clock (n : Node) (l : List (Fld × Nat)) : (n.wrs l).clock = n.clock := by
  unfold Node.wrs
  induction l generalizing n with
  | nil => rfl
  | cons e t ih => rw [List.foldl_cons, ih]; rfl

@[simp] theorem Node.wrs_engs (n : Node) (l : List (Fld × Nat)) : (n.wrs l).engs = n.engs := by
  unfold Node.wrs
  induction l generalizing n with
  | nil => rfl
  | cons e t ih => rw [List.foldl_cons, ih]; rfl

@[simp] theorem Node.wrs_staging (n : Node) (l : List (Fld × Nat)) : (n.wrs l).staging = n.staging := by
  unfold Node.wrs
  induction l generalizing n with
  | nil => rfl
  | cons e t ih => rw [List.foldl_cons, ih]; rfl

@[simp] theorem Node.wrs_tabs (n : Node) (l : List (Fld × Nat)) : (n.wrs l).tabs = n.tabs := by
  unfold Node.wrs
  induction l generalizing n with
  | nil => rfl
  | cons e t ih => rw [List.foldl_cons, ih]; rfl

@[simp] theorem Node.wrs_loaded (n : Node) (l : List (Fld × Nat)) : (n.wrs l).loaded = n.loaded := by
  unfold Node.wrs
  induction l generalizing n with
  | nil => rfl
  | cons e t ih => rw [List.foldl_cons, ih]; rfl

@[simp] theorem Node.wrs_chanSlot (n : Node) (l : List (Fld × Nat)) : (n.wrs l).chanSlot = n.chanSlot := by
  unfold Node.wrs
  induction l generalizing n with
  | nil => rfl
  | cons e t ih => rw [List.foldl_cons, ih]; rfl

@[simp] theorem Node.wrs_fab (n : Node) (l : List (Fld × Nat)) : (n.wrs l).fab = n.fab := by
  unfold Node.wrs
  induction l generalizing n with
  | nil => rfl
  | cons e t ih => rw [List.foldl_cons, ih]; rfl

@[simp] theorem Node.wrs_ports (n : Node) (l : List (Fld × Nat)) : (n.wrs l).ports = n.ports := by
  unfold Node.wrs
  induction l generalizing n with
  | nil => rfl
  | cons e t ih => rw [List.foldl_cons, ih]; rfl

@[simp] theorem Node.wrs_cnt (n : Node) (l : List (Fld × Nat)) : (n.wrs l).cnt = n.cnt := by
  unfold Node.wrs
  induction l generalizing n with
  | nil => rfl
  | cons e t ih => rw [List.foldl_cons, ih]; rfl

@[simp] theorem Node.wrs_delta (n : Node) (l : List (Fld × Nat)) : (n.wrs l).delta = n.delta := by
  unfold Node.wrs
  induction l generalizing n with
  | nil => rfl
  | cons e t ih => rw [List.foldl_cons, ih]; rfl

@[simp] theorem Node.wrs_inaug (n : Node) (l : List (Fld × Nat)) : (n.wrs l).inaug = n.inaug := by
  unfold Node.wrs
  induction l generalizing n with
  | nil => rfl
  | cons e t ih => rw [List.foldl_cons, ih]; rfl

@[simp] theorem Node.wrs_chans (n : Node) (l : List (Fld × Nat)) : (n.wrs l).chans = n.chans := by
  unfold Node.wrs
  induction l generalizing n with
  | nil => rfl
  | cons e t ih => rw [List.foldl_cons, ih]; rfl

@[simp] theorem Node.wrs_brg (n : Node) (l : List (Fld × Nat)) : (n.wrs l).brg = n.brg := by
  unfold Node.wrs
  induction l generalizing n with
  | nil => rfl
  | cons e t ih => rw [List.foldl_cons, ih]; rfl

@[simp] theorem Node.wrs_datasets (n : Node) (l : List (Fld × Nat)) : (n.wrs l).datasets = n.datasets := by
  unfold Node.wrs
  induction l generalizing n with
  | nil => rfl
  | cons e t ih => rw [List.foldl_cons, ih]; rfl

@[simp] theorem Node.wrs_ipId (n : Node) (l : List (Fld × Nat)) : (n.wrs l).ipId = n.ipId := by
  unfold Node.wrs
  induction l generalizing n with
  | nil => rfl
  | cons e t ih => rw [List.foldl_cons, ih]; rfl

@[simp] theorem Node.wrs_pair (n : Node) (l : List (Fld × Nat)) : (n.wrs l).pair = n.pair := by
  unfold Node.wrs
  induction l generalizing n with
  | nil => rfl
  | cons e t ih => rw [List.foldl_cons, ih]; rfl

@[simp] theorem Node.wrs_log (n : Node) (l : List (Fld × Nat)) : (n.wrs l).log = n.log := by
  unfold Node.wrs
  induction l generalizing n with
  | nil => rfl
  | cons e t ih => rw [List.foldl_cons, ih]; rfl

@[simp] theorem Node.wrs_flash (n : Node) (l : List (Fld × Nat)) : (n.wrs l).flash = n.flash := by
  unfold Node.wrs
  induction l generalizing n with
  | nil => rfl
  | cons e t ih => rw [List.foldl_cons, ih]; rfl

@[simp] theorem Node.wrs_epochUnread (n : Node) (l : List (Fld × Nat)) : (n.wrs l).epochUnread = n.epochUnread := by
  unfold Node.wrs
  induction l generalizing n with
  | nil => rfl
  | cons e t ih => rw [List.foldl_cons, ih]; rfl

@[simp] theorem Node.wrs_updUnread (n : Node) (l : List (Fld × Nat)) : (n.wrs l).updUnread = n.updUnread := by
  unfold Node.wrs
  induction l generalizing n with
  | nil => rfl
  | cons e t ih => rw [List.foldl_cons, ih]; rfl

@[simp] theorem Node.wrs_out (n : Node) (l : List (Fld × Nat)) : (n.wrs l).out = n.out := by
  unfold Node.wrs
  induction l generalizing n with
  | nil => rfl
  | cons e t ih => rw [List.foldl_cons, ih]; rfl

@[simp] theorem Node.wrs_memCe (n : Node) (l : List (Fld × Nat)) : (n.wrs l).memCe = n.memCe := by
  unfold Node.wrs
  induction l generalizing n with
  | nil => rfl
  | cons e t ih => rw [List.foldl_cons, ih]; rfl

@[simp] theorem Node.wrs_freeN (n : Node) (l : List (Fld × Nat)) : (n.wrs l).freeN = n.freeN := by
  unfold Node.wrs
  induction l generalizing n with
  | nil => rfl
  | cons e t ih => rw [List.foldl_cons, ih]; rfl

/-! ### Messages and fault records -/

@[simp] theorem Node.msi_mode (n : Node) (v : Nat) : (n.msi v).mode = n.mode := by unfold Node.msi; split <;> rfl
@[simp] theorem Node.msi_level (n : Node) (v : Nat) : (n.msi v).level = n.level := by unfold Node.msi; split <;> rfl
@[simp] theorem Node.msi_wait (n : Node) (v : Nat) : (n.msi v).wait = n.wait := by unfold Node.msi; split <;> rfl
@[simp] theorem Node.msi_unpowered (n : Node) (v : Nat) : (n.msi v).unpowered = n.unpowered := by unfold Node.msi; split <;> rfl
@[simp] theorem Node.msi_failed (n : Node) (v : Nat) : (n.msi v).failed = n.failed := by unfold Node.msi; split <;> rfl
@[simp] theorem Node.msi_ident (n : Node) (v : Nat) : (n.msi v).ident = n.ident := by unfold Node.msi; split <;> rfl
@[simp] theorem Node.msi_regs (n : Node) (v : Nat) : (n.msi v).regs = n.regs := by unfold Node.msi; split <;> rfl
@[simp] theorem Node.msi_mem (n : Node) (v : Nat) : (n.msi v).mem = n.mem := by unfold Node.msi; split <;> rfl
@[simp] theorem Node.msi_poison (n : Node) (v : Nat) : (n.msi v).poison = n.poison := by unfold Node.msi; split <;> rfl
@[simp] theorem Node.msi_caps (n : Node) (v : Nat) : (n.msi v).caps = n.caps := by unfold Node.msi; split <;> rfl
@[simp] theorem Node.msi_holds (n : Node) (v : Nat) : (n.msi v).holds = n.holds := by unfold Node.msi; split <;> rfl
@[simp] theorem Node.msi_results (n : Node) (v : Nat) : (n.msi v).results = n.results := by unfold Node.msi; split <;> rfl
@[simp] theorem Node.msi_leaseAt (n : Node) (v : Nat) : (n.msi v).leaseAt = n.leaseAt := by unfold Node.msi; split <;> rfl
@[simp] theorem Node.msi_settings (n : Node) (v : Nat) : (n.msi v).settings = n.settings := by unfold Node.msi; split <;> rfl
@[simp] theorem Node.msi_clock (n : Node) (v : Nat) : (n.msi v).clock = n.clock := by unfold Node.msi; split <;> rfl
@[simp] theorem Node.msi_engs (n : Node) (v : Nat) : (n.msi v).engs = n.engs := by unfold Node.msi; split <;> rfl
@[simp] theorem Node.msi_staging (n : Node) (v : Nat) : (n.msi v).staging = n.staging := by unfold Node.msi; split <;> rfl
@[simp] theorem Node.msi_tabs (n : Node) (v : Nat) : (n.msi v).tabs = n.tabs := by unfold Node.msi; split <;> rfl
@[simp] theorem Node.msi_loaded (n : Node) (v : Nat) : (n.msi v).loaded = n.loaded := by unfold Node.msi; split <;> rfl
@[simp] theorem Node.msi_chanSlot (n : Node) (v : Nat) : (n.msi v).chanSlot = n.chanSlot := by unfold Node.msi; split <;> rfl
@[simp] theorem Node.msi_fab (n : Node) (v : Nat) : (n.msi v).fab = n.fab := by unfold Node.msi; split <;> rfl
@[simp] theorem Node.msi_ports (n : Node) (v : Nat) : (n.msi v).ports = n.ports := by unfold Node.msi; split <;> rfl
@[simp] theorem Node.msi_cnt (n : Node) (v : Nat) : (n.msi v).cnt = n.cnt := by unfold Node.msi; split <;> rfl
@[simp] theorem Node.msi_delta (n : Node) (v : Nat) : (n.msi v).delta = n.delta := by unfold Node.msi; split <;> rfl
@[simp] theorem Node.msi_inaug (n : Node) (v : Nat) : (n.msi v).inaug = n.inaug := by unfold Node.msi; split <;> rfl
@[simp] theorem Node.msi_chans (n : Node) (v : Nat) : (n.msi v).chans = n.chans := by unfold Node.msi; split <;> rfl
@[simp] theorem Node.msi_brg (n : Node) (v : Nat) : (n.msi v).brg = n.brg := by unfold Node.msi; split <;> rfl
@[simp] theorem Node.msi_datasets (n : Node) (v : Nat) : (n.msi v).datasets = n.datasets := by unfold Node.msi; split <;> rfl
@[simp] theorem Node.msi_ipId (n : Node) (v : Nat) : (n.msi v).ipId = n.ipId := by unfold Node.msi; split <;> rfl
@[simp] theorem Node.msi_pair (n : Node) (v : Nat) : (n.msi v).pair = n.pair := by unfold Node.msi; split <;> rfl
@[simp] theorem Node.msi_log (n : Node) (v : Nat) : (n.msi v).log = n.log := by unfold Node.msi; split <;> rfl
@[simp] theorem Node.msi_flash (n : Node) (v : Nat) : (n.msi v).flash = n.flash := by unfold Node.msi; split <;> rfl
@[simp] theorem Node.msi_epochUnread (n : Node) (v : Nat) : (n.msi v).epochUnread = n.epochUnread := by unfold Node.msi; split <;> rfl
@[simp] theorem Node.msi_updUnread (n : Node) (v : Nat) : (n.msi v).updUnread = n.updUnread := by unfold Node.msi; split <;> rfl
@[simp] theorem Node.msi_memCe (n : Node) (v : Nat) : (n.msi v).memCe = n.memCe := by unfold Node.msi; split <;> rfl
@[simp] theorem Node.msi_freeN (n : Node) (v : Nat) : (n.msi v).freeN = n.freeN := by unfold Node.msi; split <;> rfl

@[simp] theorem Node.fault_mode (n : Node) (a b c : Nat) : (n.fault a b c).mode = n.mode := by
  unfold Node.fault; dsimp only; split
  · rfl
  · split <;> simp
@[simp] theorem Node.fault_level (n : Node) (a b c : Nat) : (n.fault a b c).level = n.level := by
  unfold Node.fault; dsimp only; split
  · rfl
  · split <;> simp
@[simp] theorem Node.fault_wait (n : Node) (a b c : Nat) : (n.fault a b c).wait = n.wait := by
  unfold Node.fault; dsimp only; split
  · rfl
  · split <;> simp
@[simp] theorem Node.fault_unpowered (n : Node) (a b c : Nat) : (n.fault a b c).unpowered = n.unpowered := by
  unfold Node.fault; dsimp only; split
  · rfl
  · split <;> simp
@[simp] theorem Node.fault_failed (n : Node) (a b c : Nat) : (n.fault a b c).failed = n.failed := by
  unfold Node.fault; dsimp only; split
  · rfl
  · split <;> simp
@[simp] theorem Node.fault_ident (n : Node) (a b c : Nat) : (n.fault a b c).ident = n.ident := by
  unfold Node.fault; dsimp only; split
  · rfl
  · split <;> simp
@[simp] theorem Node.fault_mem (n : Node) (a b c : Nat) : (n.fault a b c).mem = n.mem := by
  unfold Node.fault; dsimp only; split
  · rfl
  · split <;> simp
@[simp] theorem Node.fault_poison (n : Node) (a b c : Nat) : (n.fault a b c).poison = n.poison := by
  unfold Node.fault; dsimp only; split
  · rfl
  · split <;> simp
@[simp] theorem Node.fault_caps (n : Node) (a b c : Nat) : (n.fault a b c).caps = n.caps := by
  unfold Node.fault; dsimp only; split
  · rfl
  · split <;> simp
@[simp] theorem Node.fault_holds (n : Node) (a b c : Nat) : (n.fault a b c).holds = n.holds := by
  unfold Node.fault; dsimp only; split
  · rfl
  · split <;> simp
@[simp] theorem Node.fault_results (n : Node) (a b c : Nat) : (n.fault a b c).results = n.results := by
  unfold Node.fault; dsimp only; split
  · rfl
  · split <;> simp
@[simp] theorem Node.fault_leaseAt (n : Node) (a b c : Nat) : (n.fault a b c).leaseAt = n.leaseAt := by
  unfold Node.fault; dsimp only; split
  · rfl
  · split <;> simp
@[simp] theorem Node.fault_settings (n : Node) (a b c : Nat) : (n.fault a b c).settings = n.settings := by
  unfold Node.fault; dsimp only; split
  · rfl
  · split <;> simp
@[simp] theorem Node.fault_clock (n : Node) (a b c : Nat) : (n.fault a b c).clock = n.clock := by
  unfold Node.fault; dsimp only; split
  · rfl
  · split <;> simp
@[simp] theorem Node.fault_engs (n : Node) (a b c : Nat) : (n.fault a b c).engs = n.engs := by
  unfold Node.fault; dsimp only; split
  · rfl
  · split <;> simp
@[simp] theorem Node.fault_staging (n : Node) (a b c : Nat) : (n.fault a b c).staging = n.staging := by
  unfold Node.fault; dsimp only; split
  · rfl
  · split <;> simp
@[simp] theorem Node.fault_tabs (n : Node) (a b c : Nat) : (n.fault a b c).tabs = n.tabs := by
  unfold Node.fault; dsimp only; split
  · rfl
  · split <;> simp
@[simp] theorem Node.fault_loaded (n : Node) (a b c : Nat) : (n.fault a b c).loaded = n.loaded := by
  unfold Node.fault; dsimp only; split
  · rfl
  · split <;> simp
@[simp] theorem Node.fault_chanSlot (n : Node) (a b c : Nat) : (n.fault a b c).chanSlot = n.chanSlot := by
  unfold Node.fault; dsimp only; split
  · rfl
  · split <;> simp
@[simp] theorem Node.fault_fab (n : Node) (a b c : Nat) : (n.fault a b c).fab = n.fab := by
  unfold Node.fault; dsimp only; split
  · rfl
  · split <;> simp
@[simp] theorem Node.fault_ports (n : Node) (a b c : Nat) : (n.fault a b c).ports = n.ports := by
  unfold Node.fault; dsimp only; split
  · rfl
  · split <;> simp
@[simp] theorem Node.fault_cnt (n : Node) (a b c : Nat) : (n.fault a b c).cnt = n.cnt := by
  unfold Node.fault; dsimp only; split
  · rfl
  · split <;> simp
@[simp] theorem Node.fault_delta (n : Node) (a b c : Nat) : (n.fault a b c).delta = n.delta := by
  unfold Node.fault; dsimp only; split
  · rfl
  · split <;> simp
@[simp] theorem Node.fault_inaug (n : Node) (a b c : Nat) : (n.fault a b c).inaug = n.inaug := by
  unfold Node.fault; dsimp only; split
  · rfl
  · split <;> simp
@[simp] theorem Node.fault_chans (n : Node) (a b c : Nat) : (n.fault a b c).chans = n.chans := by
  unfold Node.fault; dsimp only; split
  · rfl
  · split <;> simp
@[simp] theorem Node.fault_brg (n : Node) (a b c : Nat) : (n.fault a b c).brg = n.brg := by
  unfold Node.fault; dsimp only; split
  · rfl
  · split <;> simp
@[simp] theorem Node.fault_datasets (n : Node) (a b c : Nat) : (n.fault a b c).datasets = n.datasets := by
  unfold Node.fault; dsimp only; split
  · rfl
  · split <;> simp
@[simp] theorem Node.fault_ipId (n : Node) (a b c : Nat) : (n.fault a b c).ipId = n.ipId := by
  unfold Node.fault; dsimp only; split
  · rfl
  · split <;> simp
@[simp] theorem Node.fault_pair (n : Node) (a b c : Nat) : (n.fault a b c).pair = n.pair := by
  unfold Node.fault; dsimp only; split
  · rfl
  · split <;> simp
@[simp] theorem Node.fault_flash (n : Node) (a b c : Nat) : (n.fault a b c).flash = n.flash := by
  unfold Node.fault; dsimp only; split
  · rfl
  · split <;> simp
@[simp] theorem Node.fault_epochUnread (n : Node) (a b c : Nat) : (n.fault a b c).epochUnread = n.epochUnread := by
  unfold Node.fault; dsimp only; split
  · rfl
  · split <;> simp
@[simp] theorem Node.fault_updUnread (n : Node) (a b c : Nat) : (n.fault a b c).updUnread = n.updUnread := by
  unfold Node.fault; dsimp only; split
  · rfl
  · split <;> simp
@[simp] theorem Node.fault_memCe (n : Node) (a b c : Nat) : (n.fault a b c).memCe = n.memCe := by
  unfold Node.fault; dsimp only; split
  · rfl
  · split <;> simp
@[simp] theorem Node.fault_freeN (n : Node) (a b c : Nat) : (n.fault a b c).freeN = n.freeN := by
  unfold Node.fault; dsimp only; split
  · rfl
  · split <;> simp

@[simp] theorem Node.msi_rd (n : Node) (v : Nat) (f : Fld) : (n.msi v).rd f = n.rd f := by simp [Node.rd]

/-- A fault record writes one field, the staged sources. -/
theorem Node.fault_rd (n : Node) (a b c : Nat) (f : Fld) (h : f.key ≠ F.MGT_FAULT_SOURCE.key) :
    (n.fault a b c).rd f = n.rd f := by
  unfold Node.fault; dsimp only; split
  · rfl
  · split
    · exact Node.rd_wr_ne n _ h
    · rw [Node.msi_rd]
      exact Node.rd_wr_ne n _ h

/-! ### Settle -/


@[simp] theorem Node.relayOp_mode (n : Node) (l : Nat) (b : Bool) : (n.relayOp l b).mode = n.mode := rfl
@[simp] theorem Node.relayOp_level (n : Node) (l : Nat) (b : Bool) : (n.relayOp l b).level = n.level := rfl
@[simp] theorem Node.relayOp_wait (n : Node) (l : Nat) (b : Bool) : (n.relayOp l b).wait = n.wait := rfl
@[simp] theorem Node.relayOp_unpowered (n : Node) (l : Nat) (b : Bool) : (n.relayOp l b).unpowered = n.unpowered := rfl
@[simp] theorem Node.relayOp_failed (n : Node) (l : Nat) (b : Bool) : (n.relayOp l b).failed = n.failed := rfl
@[simp] theorem Node.relayOp_ident (n : Node) (l : Nat) (b : Bool) : (n.relayOp l b).ident = n.ident := rfl
@[simp] theorem Node.relayOp_mem (n : Node) (l : Nat) (b : Bool) : (n.relayOp l b).mem = n.mem := rfl
@[simp] theorem Node.relayOp_poison (n : Node) (l : Nat) (b : Bool) : (n.relayOp l b).poison = n.poison := rfl
@[simp] theorem Node.relayOp_caps (n : Node) (l : Nat) (b : Bool) : (n.relayOp l b).caps = n.caps := rfl
@[simp] theorem Node.relayOp_holds (n : Node) (l : Nat) (b : Bool) : (n.relayOp l b).holds = n.holds := rfl
@[simp] theorem Node.relayOp_results (n : Node) (l : Nat) (b : Bool) : (n.relayOp l b).results = n.results := rfl
@[simp] theorem Node.relayOp_leaseAt (n : Node) (l : Nat) (b : Bool) : (n.relayOp l b).leaseAt = n.leaseAt := rfl
@[simp] theorem Node.relayOp_settings (n : Node) (l : Nat) (b : Bool) : (n.relayOp l b).settings = n.settings := rfl
@[simp] theorem Node.relayOp_clock (n : Node) (l : Nat) (b : Bool) : (n.relayOp l b).clock = n.clock := rfl
@[simp] theorem Node.relayOp_engs (n : Node) (l : Nat) (b : Bool) : (n.relayOp l b).engs = n.engs := rfl
@[simp] theorem Node.relayOp_staging (n : Node) (l : Nat) (b : Bool) : (n.relayOp l b).staging = n.staging := rfl
@[simp] theorem Node.relayOp_tabs (n : Node) (l : Nat) (b : Bool) : (n.relayOp l b).tabs = n.tabs := rfl
@[simp] theorem Node.relayOp_loaded (n : Node) (l : Nat) (b : Bool) : (n.relayOp l b).loaded = n.loaded := rfl
@[simp] theorem Node.relayOp_chanSlot (n : Node) (l : Nat) (b : Bool) : (n.relayOp l b).chanSlot = n.chanSlot := rfl
@[simp] theorem Node.relayOp_fab (n : Node) (l : Nat) (b : Bool) : (n.relayOp l b).fab = n.fab := rfl
@[simp] theorem Node.relayOp_ports (n : Node) (l : Nat) (b : Bool) : (n.relayOp l b).ports = n.ports := rfl
@[simp] theorem Node.relayOp_cnt (n : Node) (l : Nat) (b : Bool) : (n.relayOp l b).cnt = n.cnt := rfl
@[simp] theorem Node.relayOp_delta (n : Node) (l : Nat) (b : Bool) : (n.relayOp l b).delta = n.delta := rfl
@[simp] theorem Node.relayOp_inaug (n : Node) (l : Nat) (b : Bool) : (n.relayOp l b).inaug = n.inaug := rfl
@[simp] theorem Node.relayOp_chans (n : Node) (l : Nat) (b : Bool) : (n.relayOp l b).chans = n.chans := rfl
@[simp] theorem Node.relayOp_brg (n : Node) (l : Nat) (b : Bool) : (n.relayOp l b).brg = n.brg := rfl
@[simp] theorem Node.relayOp_datasets (n : Node) (l : Nat) (b : Bool) : (n.relayOp l b).datasets = n.datasets := rfl
@[simp] theorem Node.relayOp_ipId (n : Node) (l : Nat) (b : Bool) : (n.relayOp l b).ipId = n.ipId := rfl
@[simp] theorem Node.relayOp_flash (n : Node) (l : Nat) (b : Bool) : (n.relayOp l b).flash = n.flash := rfl
@[simp] theorem Node.relayOp_epochUnread (n : Node) (l : Nat) (b : Bool) : (n.relayOp l b).epochUnread = n.epochUnread := rfl
@[simp] theorem Node.relayOp_updUnread (n : Node) (l : Nat) (b : Bool) : (n.relayOp l b).updUnread = n.updUnread := rfl
@[simp] theorem Node.relayOp_memCe (n : Node) (l : Nat) (b : Bool) : (n.relayOp l b).memCe = n.memCe := rfl
@[simp] theorem Node.relayOp_freeN (n : Node) (l : Nat) (b : Bool) : (n.relayOp l b).freeN = n.freeN := rfl
@[simp] theorem Node.relayOp_pair (n : Node) (l : Nat) (b : Bool) : (n.relayOp l b).pair = n.pair := rfl
@[simp] theorem relayWarn_mode (old new : Node) (l : Nat) : (relayWarn old new l).mode = new.mode := by
  unfold relayWarn; dsimp only; split <;> simp
@[simp] theorem relayWarn_level (old new : Node) (l : Nat) : (relayWarn old new l).level = new.level := by
  unfold relayWarn; dsimp only; split <;> simp
@[simp] theorem relayWarn_wait (old new : Node) (l : Nat) : (relayWarn old new l).wait = new.wait := by
  unfold relayWarn; dsimp only; split <;> simp
@[simp] theorem relayWarn_unpowered (old new : Node) (l : Nat) : (relayWarn old new l).unpowered = new.unpowered := by
  unfold relayWarn; dsimp only; split <;> simp
@[simp] theorem relayWarn_failed (old new : Node) (l : Nat) : (relayWarn old new l).failed = new.failed := by
  unfold relayWarn; dsimp only; split <;> simp
@[simp] theorem relayWarn_ident (old new : Node) (l : Nat) : (relayWarn old new l).ident = new.ident := by
  unfold relayWarn; dsimp only; split <;> simp
@[simp] theorem relayWarn_mem (old new : Node) (l : Nat) : (relayWarn old new l).mem = new.mem := by
  unfold relayWarn; dsimp only; split <;> simp
@[simp] theorem relayWarn_poison (old new : Node) (l : Nat) : (relayWarn old new l).poison = new.poison := by
  unfold relayWarn; dsimp only; split <;> simp
@[simp] theorem relayWarn_caps (old new : Node) (l : Nat) : (relayWarn old new l).caps = new.caps := by
  unfold relayWarn; dsimp only; split <;> simp
@[simp] theorem relayWarn_holds (old new : Node) (l : Nat) : (relayWarn old new l).holds = new.holds := by
  unfold relayWarn; dsimp only; split <;> simp
@[simp] theorem relayWarn_results (old new : Node) (l : Nat) : (relayWarn old new l).results = new.results := by
  unfold relayWarn; dsimp only; split <;> simp
@[simp] theorem relayWarn_leaseAt (old new : Node) (l : Nat) : (relayWarn old new l).leaseAt = new.leaseAt := by
  unfold relayWarn; dsimp only; split <;> simp
@[simp] theorem relayWarn_settings (old new : Node) (l : Nat) : (relayWarn old new l).settings = new.settings := by
  unfold relayWarn; dsimp only; split <;> simp
@[simp] theorem relayWarn_clock (old new : Node) (l : Nat) : (relayWarn old new l).clock = new.clock := by
  unfold relayWarn; dsimp only; split <;> simp
@[simp] theorem relayWarn_engs (old new : Node) (l : Nat) : (relayWarn old new l).engs = new.engs := by
  unfold relayWarn; dsimp only; split <;> simp
@[simp] theorem relayWarn_staging (old new : Node) (l : Nat) : (relayWarn old new l).staging = new.staging := by
  unfold relayWarn; dsimp only; split <;> simp
@[simp] theorem relayWarn_tabs (old new : Node) (l : Nat) : (relayWarn old new l).tabs = new.tabs := by
  unfold relayWarn; dsimp only; split <;> simp
@[simp] theorem relayWarn_loaded (old new : Node) (l : Nat) : (relayWarn old new l).loaded = new.loaded := by
  unfold relayWarn; dsimp only; split <;> simp
@[simp] theorem relayWarn_chanSlot (old new : Node) (l : Nat) : (relayWarn old new l).chanSlot = new.chanSlot := by
  unfold relayWarn; dsimp only; split <;> simp
@[simp] theorem relayWarn_fab (old new : Node) (l : Nat) : (relayWarn old new l).fab = new.fab := by
  unfold relayWarn; dsimp only; split <;> simp
@[simp] theorem relayWarn_ports (old new : Node) (l : Nat) : (relayWarn old new l).ports = new.ports := by
  unfold relayWarn; dsimp only; split <;> simp
@[simp] theorem relayWarn_cnt (old new : Node) (l : Nat) : (relayWarn old new l).cnt = new.cnt := by
  unfold relayWarn; dsimp only; split <;> simp
@[simp] theorem relayWarn_delta (old new : Node) (l : Nat) : (relayWarn old new l).delta = new.delta := by
  unfold relayWarn; dsimp only; split <;> simp
@[simp] theorem relayWarn_inaug (old new : Node) (l : Nat) : (relayWarn old new l).inaug = new.inaug := by
  unfold relayWarn; dsimp only; split <;> simp
@[simp] theorem relayWarn_chans (old new : Node) (l : Nat) : (relayWarn old new l).chans = new.chans := by
  unfold relayWarn; dsimp only; split <;> simp
@[simp] theorem relayWarn_brg (old new : Node) (l : Nat) : (relayWarn old new l).brg = new.brg := by
  unfold relayWarn; dsimp only; split <;> simp
@[simp] theorem relayWarn_datasets (old new : Node) (l : Nat) : (relayWarn old new l).datasets = new.datasets := by
  unfold relayWarn; dsimp only; split <;> simp
@[simp] theorem relayWarn_ipId (old new : Node) (l : Nat) : (relayWarn old new l).ipId = new.ipId := by
  unfold relayWarn; dsimp only; split <;> simp
@[simp] theorem relayWarn_flash (old new : Node) (l : Nat) : (relayWarn old new l).flash = new.flash := by
  unfold relayWarn; dsimp only; split <;> simp
@[simp] theorem relayWarn_epochUnread (old new : Node) (l : Nat) : (relayWarn old new l).epochUnread = new.epochUnread := by
  unfold relayWarn; dsimp only; split <;> simp
@[simp] theorem relayWarn_updUnread (old new : Node) (l : Nat) : (relayWarn old new l).updUnread = new.updUnread := by
  unfold relayWarn; dsimp only; split <;> simp
@[simp] theorem relayWarn_memCe (old new : Node) (l : Nat) : (relayWarn old new l).memCe = new.memCe := by
  unfold relayWarn; dsimp only; split <;> simp
@[simp] theorem relayWarn_freeN (old new : Node) (l : Nat) : (relayWarn old new l).freeN = new.freeN := by
  unfold relayWarn; dsimp only; split <;> simp
@[simp] theorem relayWarn_pair (old new : Node) (l : Nat) : (relayWarn old new l).pair = new.pair := by
  unfold relayWarn; dsimp only; split <;> simp
@[simp] theorem Node.relayFollow_mode (n : Node) (l : Nat) : (n.relayFollow l).mode = n.mode := by
  unfold Node.relayFollow; dsimp only; split <;> simp [Node.relayNote]
@[simp] theorem Node.relayFollow_level (n : Node) (l : Nat) : (n.relayFollow l).level = n.level := by
  unfold Node.relayFollow; dsimp only; split <;> simp [Node.relayNote]
@[simp] theorem Node.relayFollow_wait (n : Node) (l : Nat) : (n.relayFollow l).wait = n.wait := by
  unfold Node.relayFollow; dsimp only; split <;> simp [Node.relayNote]
@[simp] theorem Node.relayFollow_unpowered (n : Node) (l : Nat) : (n.relayFollow l).unpowered = n.unpowered := by
  unfold Node.relayFollow; dsimp only; split <;> simp [Node.relayNote]
@[simp] theorem Node.relayFollow_failed (n : Node) (l : Nat) : (n.relayFollow l).failed = n.failed := by
  unfold Node.relayFollow; dsimp only; split <;> simp [Node.relayNote]
@[simp] theorem Node.relayFollow_ident (n : Node) (l : Nat) : (n.relayFollow l).ident = n.ident := by
  unfold Node.relayFollow; dsimp only; split <;> simp [Node.relayNote]
@[simp] theorem Node.relayFollow_mem (n : Node) (l : Nat) : (n.relayFollow l).mem = n.mem := by
  unfold Node.relayFollow; dsimp only; split <;> simp [Node.relayNote]
@[simp] theorem Node.relayFollow_poison (n : Node) (l : Nat) : (n.relayFollow l).poison = n.poison := by
  unfold Node.relayFollow; dsimp only; split <;> simp [Node.relayNote]
@[simp] theorem Node.relayFollow_caps (n : Node) (l : Nat) : (n.relayFollow l).caps = n.caps := by
  unfold Node.relayFollow; dsimp only; split <;> simp [Node.relayNote]
@[simp] theorem Node.relayFollow_holds (n : Node) (l : Nat) : (n.relayFollow l).holds = n.holds := by
  unfold Node.relayFollow; dsimp only; split <;> simp [Node.relayNote]
@[simp] theorem Node.relayFollow_results (n : Node) (l : Nat) : (n.relayFollow l).results = n.results := by
  unfold Node.relayFollow; dsimp only; split <;> simp [Node.relayNote]
@[simp] theorem Node.relayFollow_leaseAt (n : Node) (l : Nat) : (n.relayFollow l).leaseAt = n.leaseAt := by
  unfold Node.relayFollow; dsimp only; split <;> simp [Node.relayNote]
@[simp] theorem Node.relayFollow_settings (n : Node) (l : Nat) : (n.relayFollow l).settings = n.settings := by
  unfold Node.relayFollow; dsimp only; split <;> simp [Node.relayNote]
@[simp] theorem Node.relayFollow_clock (n : Node) (l : Nat) : (n.relayFollow l).clock = n.clock := by
  unfold Node.relayFollow; dsimp only; split <;> simp [Node.relayNote]
@[simp] theorem Node.relayFollow_engs (n : Node) (l : Nat) : (n.relayFollow l).engs = n.engs := by
  unfold Node.relayFollow; dsimp only; split <;> simp [Node.relayNote]
@[simp] theorem Node.relayFollow_staging (n : Node) (l : Nat) : (n.relayFollow l).staging = n.staging := by
  unfold Node.relayFollow; dsimp only; split <;> simp [Node.relayNote]
@[simp] theorem Node.relayFollow_tabs (n : Node) (l : Nat) : (n.relayFollow l).tabs = n.tabs := by
  unfold Node.relayFollow; dsimp only; split <;> simp [Node.relayNote]
@[simp] theorem Node.relayFollow_loaded (n : Node) (l : Nat) : (n.relayFollow l).loaded = n.loaded := by
  unfold Node.relayFollow; dsimp only; split <;> simp [Node.relayNote]
@[simp] theorem Node.relayFollow_chanSlot (n : Node) (l : Nat) : (n.relayFollow l).chanSlot = n.chanSlot := by
  unfold Node.relayFollow; dsimp only; split <;> simp [Node.relayNote]
@[simp] theorem Node.relayFollow_fab (n : Node) (l : Nat) : (n.relayFollow l).fab = n.fab := by
  unfold Node.relayFollow; dsimp only; split <;> simp [Node.relayNote]
@[simp] theorem Node.relayFollow_ports (n : Node) (l : Nat) : (n.relayFollow l).ports = n.ports := by
  unfold Node.relayFollow; dsimp only; split <;> simp [Node.relayNote]
@[simp] theorem Node.relayFollow_cnt (n : Node) (l : Nat) : (n.relayFollow l).cnt = n.cnt := by
  unfold Node.relayFollow; dsimp only; split <;> simp [Node.relayNote]
@[simp] theorem Node.relayFollow_delta (n : Node) (l : Nat) : (n.relayFollow l).delta = n.delta := by
  unfold Node.relayFollow; dsimp only; split <;> simp [Node.relayNote]
@[simp] theorem Node.relayFollow_inaug (n : Node) (l : Nat) : (n.relayFollow l).inaug = n.inaug := by
  unfold Node.relayFollow; dsimp only; split <;> simp [Node.relayNote]
@[simp] theorem Node.relayFollow_chans (n : Node) (l : Nat) : (n.relayFollow l).chans = n.chans := by
  unfold Node.relayFollow; dsimp only; split <;> simp [Node.relayNote]
@[simp] theorem Node.relayFollow_brg (n : Node) (l : Nat) : (n.relayFollow l).brg = n.brg := by
  unfold Node.relayFollow; dsimp only; split <;> simp [Node.relayNote]
@[simp] theorem Node.relayFollow_datasets (n : Node) (l : Nat) : (n.relayFollow l).datasets = n.datasets := by
  unfold Node.relayFollow; dsimp only; split <;> simp [Node.relayNote]
@[simp] theorem Node.relayFollow_ipId (n : Node) (l : Nat) : (n.relayFollow l).ipId = n.ipId := by
  unfold Node.relayFollow; dsimp only; split <;> simp [Node.relayNote]
@[simp] theorem Node.relayFollow_flash (n : Node) (l : Nat) : (n.relayFollow l).flash = n.flash := by
  unfold Node.relayFollow; dsimp only; split <;> simp [Node.relayNote]
@[simp] theorem Node.relayFollow_epochUnread (n : Node) (l : Nat) : (n.relayFollow l).epochUnread = n.epochUnread := by
  unfold Node.relayFollow; dsimp only; split <;> simp [Node.relayNote]
@[simp] theorem Node.relayFollow_updUnread (n : Node) (l : Nat) : (n.relayFollow l).updUnread = n.updUnread := by
  unfold Node.relayFollow; dsimp only; split <;> simp [Node.relayNote]
@[simp] theorem Node.relayFollow_memCe (n : Node) (l : Nat) : (n.relayFollow l).memCe = n.memCe := by
  unfold Node.relayFollow; dsimp only; split <;> simp [Node.relayNote]
@[simp] theorem Node.relayFollow_freeN (n : Node) (l : Nat) : (n.relayFollow l).freeN = n.freeN := by
  unfold Node.relayFollow; dsimp only; split <;> simp [Node.relayNote]
@[simp] theorem Node.marginMark_mode (n : Node) : (n.marginMark).mode = n.mode := by
  unfold Node.marginMark; dsimp only; split <;> simp
@[simp] theorem Node.marginMark_level (n : Node) : (n.marginMark).level = n.level := by
  unfold Node.marginMark; dsimp only; split <;> simp
@[simp] theorem Node.marginMark_wait (n : Node) : (n.marginMark).wait = n.wait := by
  unfold Node.marginMark; dsimp only; split <;> simp
@[simp] theorem Node.marginMark_unpowered (n : Node) : (n.marginMark).unpowered = n.unpowered := by
  unfold Node.marginMark; dsimp only; split <;> simp
@[simp] theorem Node.marginMark_failed (n : Node) : (n.marginMark).failed = n.failed := by
  unfold Node.marginMark; dsimp only; split <;> simp
@[simp] theorem Node.marginMark_ident (n : Node) : (n.marginMark).ident = n.ident := by
  unfold Node.marginMark; dsimp only; split <;> simp
@[simp] theorem Node.marginMark_mem (n : Node) : (n.marginMark).mem = n.mem := by
  unfold Node.marginMark; dsimp only; split <;> simp
@[simp] theorem Node.marginMark_poison (n : Node) : (n.marginMark).poison = n.poison := by
  unfold Node.marginMark; dsimp only; split <;> simp
@[simp] theorem Node.marginMark_caps (n : Node) : (n.marginMark).caps = n.caps := by
  unfold Node.marginMark; dsimp only; split <;> simp
@[simp] theorem Node.marginMark_holds (n : Node) : (n.marginMark).holds = n.holds := by
  unfold Node.marginMark; dsimp only; split <;> simp
@[simp] theorem Node.marginMark_results (n : Node) : (n.marginMark).results = n.results := by
  unfold Node.marginMark; dsimp only; split <;> simp
@[simp] theorem Node.marginMark_leaseAt (n : Node) : (n.marginMark).leaseAt = n.leaseAt := by
  unfold Node.marginMark; dsimp only; split <;> simp
@[simp] theorem Node.marginMark_settings (n : Node) : (n.marginMark).settings = n.settings := by
  unfold Node.marginMark; dsimp only; split <;> simp
@[simp] theorem Node.marginMark_clock (n : Node) : (n.marginMark).clock = n.clock := by
  unfold Node.marginMark; dsimp only; split <;> simp
@[simp] theorem Node.marginMark_engs (n : Node) : (n.marginMark).engs = n.engs := by
  unfold Node.marginMark; dsimp only; split <;> simp
@[simp] theorem Node.marginMark_staging (n : Node) : (n.marginMark).staging = n.staging := by
  unfold Node.marginMark; dsimp only; split <;> simp
@[simp] theorem Node.marginMark_tabs (n : Node) : (n.marginMark).tabs = n.tabs := by
  unfold Node.marginMark; dsimp only; split <;> simp
@[simp] theorem Node.marginMark_loaded (n : Node) : (n.marginMark).loaded = n.loaded := by
  unfold Node.marginMark; dsimp only; split <;> simp
@[simp] theorem Node.marginMark_chanSlot (n : Node) : (n.marginMark).chanSlot = n.chanSlot := by
  unfold Node.marginMark; dsimp only; split <;> simp
@[simp] theorem Node.marginMark_fab (n : Node) : (n.marginMark).fab = n.fab := by
  unfold Node.marginMark; dsimp only; split <;> simp
@[simp] theorem Node.marginMark_ports (n : Node) : (n.marginMark).ports = n.ports := by
  unfold Node.marginMark; dsimp only; split <;> simp
@[simp] theorem Node.marginMark_cnt (n : Node) : (n.marginMark).cnt = n.cnt := by
  unfold Node.marginMark; dsimp only; split <;> simp
@[simp] theorem Node.marginMark_delta (n : Node) : (n.marginMark).delta = n.delta := by
  unfold Node.marginMark; dsimp only; split <;> simp
@[simp] theorem Node.marginMark_inaug (n : Node) : (n.marginMark).inaug = n.inaug := by
  unfold Node.marginMark; dsimp only; split <;> simp
@[simp] theorem Node.marginMark_chans (n : Node) : (n.marginMark).chans = n.chans := by
  unfold Node.marginMark; dsimp only; split <;> simp
@[simp] theorem Node.marginMark_brg (n : Node) : (n.marginMark).brg = n.brg := by
  unfold Node.marginMark; dsimp only; split <;> simp
@[simp] theorem Node.marginMark_datasets (n : Node) : (n.marginMark).datasets = n.datasets := by
  unfold Node.marginMark; dsimp only; split <;> simp
@[simp] theorem Node.marginMark_ipId (n : Node) : (n.marginMark).ipId = n.ipId := by
  unfold Node.marginMark; dsimp only; split <;> simp
@[simp] theorem Node.marginMark_flash (n : Node) : (n.marginMark).flash = n.flash := by
  unfold Node.marginMark; dsimp only; split <;> simp
@[simp] theorem Node.marginMark_epochUnread (n : Node) : (n.marginMark).epochUnread = n.epochUnread := by
  unfold Node.marginMark; dsimp only; split <;> simp
@[simp] theorem Node.marginMark_updUnread (n : Node) : (n.marginMark).updUnread = n.updUnread := by
  unfold Node.marginMark; dsimp only; split <;> simp
@[simp] theorem Node.marginMark_memCe (n : Node) : (n.marginMark).memCe = n.memCe := by
  unfold Node.marginMark; dsimp only; split <;> simp
@[simp] theorem Node.marginMark_freeN (n : Node) : (n.marginMark).freeN = n.freeN := by
  unfold Node.marginMark; dsimp only; split <;> simp
@[simp] theorem Node.marginMark_pair (n : Node) : (n.marginMark).pair = n.pair := by
  unfold Node.marginMark; dsimp only; split <;> simp
@[simp] theorem Node.irqSend_mode (n : Node) (s : Nat) : (n.irqSend s).mode = n.mode := by
  unfold Node.irqSend; split <;> simp
@[simp] theorem Node.irqSend_level (n : Node) (s : Nat) : (n.irqSend s).level = n.level := by
  unfold Node.irqSend; split <;> simp
@[simp] theorem Node.irqSend_wait (n : Node) (s : Nat) : (n.irqSend s).wait = n.wait := by
  unfold Node.irqSend; split <;> simp
@[simp] theorem Node.irqSend_unpowered (n : Node) (s : Nat) : (n.irqSend s).unpowered = n.unpowered := by
  unfold Node.irqSend; split <;> simp
@[simp] theorem Node.irqSend_failed (n : Node) (s : Nat) : (n.irqSend s).failed = n.failed := by
  unfold Node.irqSend; split <;> simp
@[simp] theorem Node.irqSend_ident (n : Node) (s : Nat) : (n.irqSend s).ident = n.ident := by
  unfold Node.irqSend; split <;> simp
@[simp] theorem Node.irqSend_mem (n : Node) (s : Nat) : (n.irqSend s).mem = n.mem := by
  unfold Node.irqSend; split <;> simp
@[simp] theorem Node.irqSend_poison (n : Node) (s : Nat) : (n.irqSend s).poison = n.poison := by
  unfold Node.irqSend; split <;> simp
@[simp] theorem Node.irqSend_caps (n : Node) (s : Nat) : (n.irqSend s).caps = n.caps := by
  unfold Node.irqSend; split <;> simp
@[simp] theorem Node.irqSend_holds (n : Node) (s : Nat) : (n.irqSend s).holds = n.holds := by
  unfold Node.irqSend; split <;> simp
@[simp] theorem Node.irqSend_results (n : Node) (s : Nat) : (n.irqSend s).results = n.results := by
  unfold Node.irqSend; split <;> simp
@[simp] theorem Node.irqSend_leaseAt (n : Node) (s : Nat) : (n.irqSend s).leaseAt = n.leaseAt := by
  unfold Node.irqSend; split <;> simp
@[simp] theorem Node.irqSend_settings (n : Node) (s : Nat) : (n.irqSend s).settings = n.settings := by
  unfold Node.irqSend; split <;> simp
@[simp] theorem Node.irqSend_clock (n : Node) (s : Nat) : (n.irqSend s).clock = n.clock := by
  unfold Node.irqSend; split <;> simp
@[simp] theorem Node.irqSend_engs (n : Node) (s : Nat) : (n.irqSend s).engs = n.engs := by
  unfold Node.irqSend; split <;> simp
@[simp] theorem Node.irqSend_staging (n : Node) (s : Nat) : (n.irqSend s).staging = n.staging := by
  unfold Node.irqSend; split <;> simp
@[simp] theorem Node.irqSend_tabs (n : Node) (s : Nat) : (n.irqSend s).tabs = n.tabs := by
  unfold Node.irqSend; split <;> simp
@[simp] theorem Node.irqSend_loaded (n : Node) (s : Nat) : (n.irqSend s).loaded = n.loaded := by
  unfold Node.irqSend; split <;> simp
@[simp] theorem Node.irqSend_chanSlot (n : Node) (s : Nat) : (n.irqSend s).chanSlot = n.chanSlot := by
  unfold Node.irqSend; split <;> simp
@[simp] theorem Node.irqSend_fab (n : Node) (s : Nat) : (n.irqSend s).fab = n.fab := by
  unfold Node.irqSend; split <;> simp
@[simp] theorem Node.irqSend_ports (n : Node) (s : Nat) : (n.irqSend s).ports = n.ports := by
  unfold Node.irqSend; split <;> simp
@[simp] theorem Node.irqSend_cnt (n : Node) (s : Nat) : (n.irqSend s).cnt = n.cnt := by
  unfold Node.irqSend; split <;> simp
@[simp] theorem Node.irqSend_delta (n : Node) (s : Nat) : (n.irqSend s).delta = n.delta := by
  unfold Node.irqSend; split <;> simp
@[simp] theorem Node.irqSend_inaug (n : Node) (s : Nat) : (n.irqSend s).inaug = n.inaug := by
  unfold Node.irqSend; split <;> simp
@[simp] theorem Node.irqSend_chans (n : Node) (s : Nat) : (n.irqSend s).chans = n.chans := by
  unfold Node.irqSend; split <;> simp
@[simp] theorem Node.irqSend_brg (n : Node) (s : Nat) : (n.irqSend s).brg = n.brg := by
  unfold Node.irqSend; split <;> simp
@[simp] theorem Node.irqSend_datasets (n : Node) (s : Nat) : (n.irqSend s).datasets = n.datasets := by
  unfold Node.irqSend; split <;> simp
@[simp] theorem Node.irqSend_ipId (n : Node) (s : Nat) : (n.irqSend s).ipId = n.ipId := by
  unfold Node.irqSend; split <;> simp
@[simp] theorem Node.irqSend_flash (n : Node) (s : Nat) : (n.irqSend s).flash = n.flash := by
  unfold Node.irqSend; split <;> simp
@[simp] theorem Node.irqSend_epochUnread (n : Node) (s : Nat) : (n.irqSend s).epochUnread = n.epochUnread := by
  unfold Node.irqSend; split <;> simp
@[simp] theorem Node.irqSend_updUnread (n : Node) (s : Nat) : (n.irqSend s).updUnread = n.updUnread := by
  unfold Node.irqSend; split <;> simp
@[simp] theorem Node.irqSend_memCe (n : Node) (s : Nat) : (n.irqSend s).memCe = n.memCe := by
  unfold Node.irqSend; split <;> simp
@[simp] theorem Node.irqSend_freeN (n : Node) (s : Nat) : (n.irqSend s).freeN = n.freeN := by
  unfold Node.irqSend; split <;> simp
@[simp] theorem Node.irqSend_pair (n : Node) (s : Nat) : (n.irqSend s).pair = n.pair := by
  unfold Node.irqSend; split <;> simp
@[simp] theorem Node.irqSend_regs (n : Node) (s : Nat) : (n.irqSend s).regs = n.regs := by
  unfold Node.irqSend; split <;> simp
@[simp] theorem Node.irqSend_log (n : Node) (s : Nat) : (n.irqSend s).log = n.log := by
  unfold Node.irqSend; split <;> simp

theorem irqFold_keep {α : Type} (p : Node → α) (hp : ∀ n s, p (Node.irqSend n s) = p n) (c : Nat → Bool) (l : List Nat) (n : Node) :
    p (l.foldl (fun a s => if c s then a.irqSend s else a) n) = p n := by
  induction l generalizing n with
  | nil => rfl
  | cons s t ih =>
    simp only [List.foldl_cons]
    rw [ih]
    split
    · exact hp n s
    · rfl

@[simp] theorem irqEdges_mode (a n : Node) : (irqEdges a n).mode = n.mode := by
  unfold irqEdges; exact irqFold_keep Node.mode (fun n s => Node.irqSend_mode n s) _ _ _
@[simp] theorem irqEdges_level (a n : Node) : (irqEdges a n).level = n.level := by
  unfold irqEdges; exact irqFold_keep Node.level (fun n s => Node.irqSend_level n s) _ _ _
@[simp] theorem irqEdges_wait (a n : Node) : (irqEdges a n).wait = n.wait := by
  unfold irqEdges; exact irqFold_keep Node.wait (fun n s => Node.irqSend_wait n s) _ _ _
@[simp] theorem irqEdges_unpowered (a n : Node) : (irqEdges a n).unpowered = n.unpowered := by
  unfold irqEdges; exact irqFold_keep Node.unpowered (fun n s => Node.irqSend_unpowered n s) _ _ _
@[simp] theorem irqEdges_failed (a n : Node) : (irqEdges a n).failed = n.failed := by
  unfold irqEdges; exact irqFold_keep Node.failed (fun n s => Node.irqSend_failed n s) _ _ _
@[simp] theorem irqEdges_ident (a n : Node) : (irqEdges a n).ident = n.ident := by
  unfold irqEdges; exact irqFold_keep Node.ident (fun n s => Node.irqSend_ident n s) _ _ _
@[simp] theorem irqEdges_mem (a n : Node) : (irqEdges a n).mem = n.mem := by
  unfold irqEdges; exact irqFold_keep Node.mem (fun n s => Node.irqSend_mem n s) _ _ _
@[simp] theorem irqEdges_poison (a n : Node) : (irqEdges a n).poison = n.poison := by
  unfold irqEdges; exact irqFold_keep Node.poison (fun n s => Node.irqSend_poison n s) _ _ _
@[simp] theorem irqEdges_caps (a n : Node) : (irqEdges a n).caps = n.caps := by
  unfold irqEdges; exact irqFold_keep Node.caps (fun n s => Node.irqSend_caps n s) _ _ _
@[simp] theorem irqEdges_holds (a n : Node) : (irqEdges a n).holds = n.holds := by
  unfold irqEdges; exact irqFold_keep Node.holds (fun n s => Node.irqSend_holds n s) _ _ _
@[simp] theorem irqEdges_results (a n : Node) : (irqEdges a n).results = n.results := by
  unfold irqEdges; exact irqFold_keep Node.results (fun n s => Node.irqSend_results n s) _ _ _
@[simp] theorem irqEdges_leaseAt (a n : Node) : (irqEdges a n).leaseAt = n.leaseAt := by
  unfold irqEdges; exact irqFold_keep Node.leaseAt (fun n s => Node.irqSend_leaseAt n s) _ _ _
@[simp] theorem irqEdges_settings (a n : Node) : (irqEdges a n).settings = n.settings := by
  unfold irqEdges; exact irqFold_keep Node.settings (fun n s => Node.irqSend_settings n s) _ _ _
@[simp] theorem irqEdges_clock (a n : Node) : (irqEdges a n).clock = n.clock := by
  unfold irqEdges; exact irqFold_keep Node.clock (fun n s => Node.irqSend_clock n s) _ _ _
@[simp] theorem irqEdges_engs (a n : Node) : (irqEdges a n).engs = n.engs := by
  unfold irqEdges; exact irqFold_keep Node.engs (fun n s => Node.irqSend_engs n s) _ _ _
@[simp] theorem irqEdges_staging (a n : Node) : (irqEdges a n).staging = n.staging := by
  unfold irqEdges; exact irqFold_keep Node.staging (fun n s => Node.irqSend_staging n s) _ _ _
@[simp] theorem irqEdges_tabs (a n : Node) : (irqEdges a n).tabs = n.tabs := by
  unfold irqEdges; exact irqFold_keep Node.tabs (fun n s => Node.irqSend_tabs n s) _ _ _
@[simp] theorem irqEdges_loaded (a n : Node) : (irqEdges a n).loaded = n.loaded := by
  unfold irqEdges; exact irqFold_keep Node.loaded (fun n s => Node.irqSend_loaded n s) _ _ _
@[simp] theorem irqEdges_chanSlot (a n : Node) : (irqEdges a n).chanSlot = n.chanSlot := by
  unfold irqEdges; exact irqFold_keep Node.chanSlot (fun n s => Node.irqSend_chanSlot n s) _ _ _
@[simp] theorem irqEdges_fab (a n : Node) : (irqEdges a n).fab = n.fab := by
  unfold irqEdges; exact irqFold_keep Node.fab (fun n s => Node.irqSend_fab n s) _ _ _
@[simp] theorem irqEdges_ports (a n : Node) : (irqEdges a n).ports = n.ports := by
  unfold irqEdges; exact irqFold_keep Node.ports (fun n s => Node.irqSend_ports n s) _ _ _
@[simp] theorem irqEdges_cnt (a n : Node) : (irqEdges a n).cnt = n.cnt := by
  unfold irqEdges; exact irqFold_keep Node.cnt (fun n s => Node.irqSend_cnt n s) _ _ _
@[simp] theorem irqEdges_delta (a n : Node) : (irqEdges a n).delta = n.delta := by
  unfold irqEdges; exact irqFold_keep Node.delta (fun n s => Node.irqSend_delta n s) _ _ _
@[simp] theorem irqEdges_inaug (a n : Node) : (irqEdges a n).inaug = n.inaug := by
  unfold irqEdges; exact irqFold_keep Node.inaug (fun n s => Node.irqSend_inaug n s) _ _ _
@[simp] theorem irqEdges_chans (a n : Node) : (irqEdges a n).chans = n.chans := by
  unfold irqEdges; exact irqFold_keep Node.chans (fun n s => Node.irqSend_chans n s) _ _ _
@[simp] theorem irqEdges_brg (a n : Node) : (irqEdges a n).brg = n.brg := by
  unfold irqEdges; exact irqFold_keep Node.brg (fun n s => Node.irqSend_brg n s) _ _ _
@[simp] theorem irqEdges_datasets (a n : Node) : (irqEdges a n).datasets = n.datasets := by
  unfold irqEdges; exact irqFold_keep Node.datasets (fun n s => Node.irqSend_datasets n s) _ _ _
@[simp] theorem irqEdges_ipId (a n : Node) : (irqEdges a n).ipId = n.ipId := by
  unfold irqEdges; exact irqFold_keep Node.ipId (fun n s => Node.irqSend_ipId n s) _ _ _
@[simp] theorem irqEdges_flash (a n : Node) : (irqEdges a n).flash = n.flash := by
  unfold irqEdges; exact irqFold_keep Node.flash (fun n s => Node.irqSend_flash n s) _ _ _
@[simp] theorem irqEdges_epochUnread (a n : Node) : (irqEdges a n).epochUnread = n.epochUnread := by
  unfold irqEdges; exact irqFold_keep Node.epochUnread (fun n s => Node.irqSend_epochUnread n s) _ _ _
@[simp] theorem irqEdges_updUnread (a n : Node) : (irqEdges a n).updUnread = n.updUnread := by
  unfold irqEdges; exact irqFold_keep Node.updUnread (fun n s => Node.irqSend_updUnread n s) _ _ _
@[simp] theorem irqEdges_memCe (a n : Node) : (irqEdges a n).memCe = n.memCe := by
  unfold irqEdges; exact irqFold_keep Node.memCe (fun n s => Node.irqSend_memCe n s) _ _ _
@[simp] theorem irqEdges_freeN (a n : Node) : (irqEdges a n).freeN = n.freeN := by
  unfold irqEdges; exact irqFold_keep Node.freeN (fun n s => Node.irqSend_freeN n s) _ _ _
@[simp] theorem irqEdges_pair (a n : Node) : (irqEdges a n).pair = n.pair := by
  unfold irqEdges; exact irqFold_keep Node.pair (fun n s => Node.irqSend_pair n s) _ _ _
@[simp] theorem irqEdges_regs (a n : Node) : (irqEdges a n).regs = n.regs := by
  unfold irqEdges; exact irqFold_keep Node.regs (fun n s => Node.irqSend_regs n s) _ _ _
@[simp] theorem irqEdges_log (a n : Node) : (irqEdges a n).log = n.log := by
  unfold irqEdges; exact irqFold_keep Node.log (fun n s => Node.irqSend_log n s) _ _ _

/-- Where the level holds and has not fallen, `settle` changes nothing but the relays, the margin mark, fault records and messages. -/
theorem settle_eq (old new : Node) (h : new.level ≤ new.allowed) (hl : old.level ≤ new.level) :
    failCheck old (levelDrop new) = new := by
  have hd : levelDrop new = new := by unfold levelDrop; simp [h]
  rw [hd]
  unfold failCheck
  have : ¬ (new.rd F.PAIR_CTRL_FAIL_LEVEL ≤ old.level ∧ new.level < new.rd F.PAIR_CTRL_FAIL_LEVEL) := by omega
  simp only
  rw [if_neg]
  rintro ⟨_, h1, h2, _⟩
  exact this ⟨h1, h2⟩

theorem settle_mode (old new : Node) (h : new.level ≤ new.allowed) (hl : old.level ≤ new.level) :
    (settle old new).mode = new.mode := by
  unfold settle
  rw [settle_eq old new h hl]
  simp only [irqEdges_mode]
  repeat' split
  all_goals simp

theorem settle_level (old new : Node) (h : new.level ≤ new.allowed) (hl : old.level ≤ new.level) :
    (settle old new).level = new.level := by
  unfold settle
  rw [settle_eq old new h hl]
  simp only [irqEdges_level]
  repeat' split
  all_goals simp

theorem settle_wait (old new : Node) (h : new.level ≤ new.allowed) (hl : old.level ≤ new.level) :
    (settle old new).wait = new.wait := by
  unfold settle
  rw [settle_eq old new h hl]
  simp only [irqEdges_wait]
  repeat' split
  all_goals simp

theorem settle_unpowered (old new : Node) (h : new.level ≤ new.allowed) (hl : old.level ≤ new.level) :
    (settle old new).unpowered = new.unpowered := by
  unfold settle
  rw [settle_eq old new h hl]
  simp only [irqEdges_unpowered]
  repeat' split
  all_goals simp

theorem settle_failed (old new : Node) (h : new.level ≤ new.allowed) (hl : old.level ≤ new.level) :
    (settle old new).failed = new.failed := by
  unfold settle
  rw [settle_eq old new h hl]
  simp only [irqEdges_failed]
  repeat' split
  all_goals simp

theorem settle_ident (old new : Node) (h : new.level ≤ new.allowed) (hl : old.level ≤ new.level) :
    (settle old new).ident = new.ident := by
  unfold settle
  rw [settle_eq old new h hl]
  simp only [irqEdges_ident]
  repeat' split
  all_goals simp

theorem settle_mem (old new : Node) (h : new.level ≤ new.allowed) (hl : old.level ≤ new.level) :
    (settle old new).mem = new.mem := by
  unfold settle
  rw [settle_eq old new h hl]
  simp only [irqEdges_mem]
  repeat' split
  all_goals simp

theorem settle_poison (old new : Node) (h : new.level ≤ new.allowed) (hl : old.level ≤ new.level) :
    (settle old new).poison = new.poison := by
  unfold settle
  rw [settle_eq old new h hl]
  simp only [irqEdges_poison]
  repeat' split
  all_goals simp

theorem settle_caps (old new : Node) (h : new.level ≤ new.allowed) (hl : old.level ≤ new.level) :
    (settle old new).caps = new.caps := by
  unfold settle
  rw [settle_eq old new h hl]
  simp only [irqEdges_caps]
  repeat' split
  all_goals simp

theorem settle_holds (old new : Node) (h : new.level ≤ new.allowed) (hl : old.level ≤ new.level) :
    (settle old new).holds = new.holds := by
  unfold settle
  rw [settle_eq old new h hl]
  simp only [irqEdges_holds]
  repeat' split
  all_goals simp

theorem settle_results (old new : Node) (h : new.level ≤ new.allowed) (hl : old.level ≤ new.level) :
    (settle old new).results = new.results := by
  unfold settle
  rw [settle_eq old new h hl]
  simp only [irqEdges_results]
  repeat' split
  all_goals simp

theorem settle_leaseAt (old new : Node) (h : new.level ≤ new.allowed) (hl : old.level ≤ new.level) :
    (settle old new).leaseAt = new.leaseAt := by
  unfold settle
  rw [settle_eq old new h hl]
  simp only [irqEdges_leaseAt]
  repeat' split
  all_goals simp

theorem settle_settings (old new : Node) (h : new.level ≤ new.allowed) (hl : old.level ≤ new.level) :
    (settle old new).settings = new.settings := by
  unfold settle
  rw [settle_eq old new h hl]
  simp only [irqEdges_settings]
  repeat' split
  all_goals simp

theorem settle_clock (old new : Node) (h : new.level ≤ new.allowed) (hl : old.level ≤ new.level) :
    (settle old new).clock = new.clock := by
  unfold settle
  rw [settle_eq old new h hl]
  simp only [irqEdges_clock]
  repeat' split
  all_goals simp

theorem settle_engs (old new : Node) (h : new.level ≤ new.allowed) (hl : old.level ≤ new.level) :
    (settle old new).engs = new.engs := by
  unfold settle
  rw [settle_eq old new h hl]
  simp only [irqEdges_engs]
  repeat' split
  all_goals simp

theorem settle_staging (old new : Node) (h : new.level ≤ new.allowed) (hl : old.level ≤ new.level) :
    (settle old new).staging = new.staging := by
  unfold settle
  rw [settle_eq old new h hl]
  simp only [irqEdges_staging]
  repeat' split
  all_goals simp

theorem settle_tabs (old new : Node) (h : new.level ≤ new.allowed) (hl : old.level ≤ new.level) :
    (settle old new).tabs = new.tabs := by
  unfold settle
  rw [settle_eq old new h hl]
  simp only [irqEdges_tabs]
  repeat' split
  all_goals simp

theorem settle_loaded (old new : Node) (h : new.level ≤ new.allowed) (hl : old.level ≤ new.level) :
    (settle old new).loaded = new.loaded := by
  unfold settle
  rw [settle_eq old new h hl]
  simp only [irqEdges_loaded]
  repeat' split
  all_goals simp

theorem settle_chanSlot (old new : Node) (h : new.level ≤ new.allowed) (hl : old.level ≤ new.level) :
    (settle old new).chanSlot = new.chanSlot := by
  unfold settle
  rw [settle_eq old new h hl]
  simp only [irqEdges_chanSlot]
  repeat' split
  all_goals simp

theorem settle_fab (old new : Node) (h : new.level ≤ new.allowed) (hl : old.level ≤ new.level) :
    (settle old new).fab = new.fab := by
  unfold settle
  rw [settle_eq old new h hl]
  simp only [irqEdges_fab]
  repeat' split
  all_goals simp

theorem settle_ports (old new : Node) (h : new.level ≤ new.allowed) (hl : old.level ≤ new.level) :
    (settle old new).ports = new.ports := by
  unfold settle
  rw [settle_eq old new h hl]
  simp only [irqEdges_ports]
  repeat' split
  all_goals simp

theorem settle_cnt (old new : Node) (h : new.level ≤ new.allowed) (hl : old.level ≤ new.level) :
    (settle old new).cnt = new.cnt := by
  unfold settle
  rw [settle_eq old new h hl]
  simp only [irqEdges_cnt]
  repeat' split
  all_goals simp

theorem settle_delta (old new : Node) (h : new.level ≤ new.allowed) (hl : old.level ≤ new.level) :
    (settle old new).delta = new.delta := by
  unfold settle
  rw [settle_eq old new h hl]
  simp only [irqEdges_delta]
  repeat' split
  all_goals simp

theorem settle_inaug (old new : Node) (h : new.level ≤ new.allowed) (hl : old.level ≤ new.level) :
    (settle old new).inaug = new.inaug := by
  unfold settle
  rw [settle_eq old new h hl]
  simp only [irqEdges_inaug]
  repeat' split
  all_goals simp

theorem settle_chans (old new : Node) (h : new.level ≤ new.allowed) (hl : old.level ≤ new.level) :
    (settle old new).chans = new.chans := by
  unfold settle
  rw [settle_eq old new h hl]
  simp only [irqEdges_chans]
  repeat' split
  all_goals simp

theorem settle_brg (old new : Node) (h : new.level ≤ new.allowed) (hl : old.level ≤ new.level) :
    (settle old new).brg = new.brg := by
  unfold settle
  rw [settle_eq old new h hl]
  simp only [irqEdges_brg]
  repeat' split
  all_goals simp

theorem settle_datasets (old new : Node) (h : new.level ≤ new.allowed) (hl : old.level ≤ new.level) :
    (settle old new).datasets = new.datasets := by
  unfold settle
  rw [settle_eq old new h hl]
  simp only [irqEdges_datasets]
  repeat' split
  all_goals simp

theorem settle_ipId (old new : Node) (h : new.level ≤ new.allowed) (hl : old.level ≤ new.level) :
    (settle old new).ipId = new.ipId := by
  unfold settle
  rw [settle_eq old new h hl]
  simp only [irqEdges_ipId]
  repeat' split
  all_goals simp

theorem settle_flash (old new : Node) (h : new.level ≤ new.allowed) (hl : old.level ≤ new.level) :
    (settle old new).flash = new.flash := by
  unfold settle
  rw [settle_eq old new h hl]
  simp only [irqEdges_flash]
  repeat' split
  all_goals simp

theorem settle_epochUnread (old new : Node) (h : new.level ≤ new.allowed) (hl : old.level ≤ new.level) :
    (settle old new).epochUnread = new.epochUnread := by
  unfold settle
  rw [settle_eq old new h hl]
  simp only [irqEdges_epochUnread]
  repeat' split
  all_goals simp

theorem settle_updUnread (old new : Node) (h : new.level ≤ new.allowed) (hl : old.level ≤ new.level) :
    (settle old new).updUnread = new.updUnread := by
  unfold settle
  rw [settle_eq old new h hl]
  simp only [irqEdges_updUnread]
  repeat' split
  all_goals simp

theorem settle_memCe (old new : Node) (h : new.level ≤ new.allowed) (hl : old.level ≤ new.level) :
    (settle old new).memCe = new.memCe := by
  unfold settle
  rw [settle_eq old new h hl]
  simp only [irqEdges_memCe]
  repeat' split
  all_goals simp

theorem settle_freeN (old new : Node) (h : new.level ≤ new.allowed) (hl : old.level ≤ new.level) :
    (settle old new).freeN = new.freeN := by
  unfold settle
  rw [settle_eq old new h hl]
  simp only [irqEdges_freeN]
  repeat' split
  all_goals simp

/-- A field outside `followKeys` reads the same after a relay operation. -/
theorem Node.relayOp_rd (n : Node) (l : Nat) (b : Bool) (f : Fld) (h : f.key ∉ followKeys) (hl : l < 2) :
    (n.relayOp l b).rd f = n.rd f := by
  simp only [followKeys, List.mem_cons, List.not_mem_nil, or_false, not_or] at h
  obtain ⟨h0, -, -, h3, h4, h5, -, h7, h8, h9⟩ := h
  have e : l = 0 ∨ l = 1 := by omega
  unfold Node.relayOp
  dsimp only
  rcases e with rfl | rfl <;>
  · rw [Node.rd_put_ne _ _ (by assumption), Node.rd_wr_ne _ _ (by assumption), Node.rd_wr_ne _ _ (by assumption)]

theorem relayWarn_rd (old new : Node) (l : Nat) (f : Fld) (h : f.key ∉ followKeys) : (relayWarn old new l).rd f = new.rd f := by
  simp only [followKeys, List.mem_cons, List.not_mem_nil, or_false, not_or] at h
  unfold relayWarn
  dsimp only
  split
  · rw [Node.fault_rd _ _ _ _ _ h.1]
  · rfl

theorem Node.relayFollow_rd (n : Node) (l : Nat) (f : Fld) (h : f.key ∉ followKeys) (hl : l < 2) :
    (n.relayFollow l).rd f = n.rd f := by
  have h' := h
  simp only [followKeys, List.mem_cons, List.not_mem_nil, or_false, not_or] at h'
  obtain ⟨-, -, h2, -, -, -, h6, -, -, -⟩ := h'
  have e : l = 0 ∨ l = 1 := by omega
  unfold Node.relayFollow
  dsimp only
  rcases e with rfl | rfl <;>
  · split
    · rw [Node.relayOp_rd _ _ _ _ h (by omega), Node.rd_put_ne _ _ (by assumption)]
      rfl
    · rw [Node.rd_put_ne _ _ (by assumption)]
      rfl

theorem Node.marginMark_rd (n : Node) (f : Fld) (h : f.key ∉ followKeys) : n.marginMark.rd f = n.rd f := by
  simp only [followKeys, List.mem_cons, List.not_mem_nil, or_false, not_or] at h
  unfold Node.marginMark
  dsimp only
  split
  · rw [Node.fault_rd _ _ _ _ _ h.1, Node.rd_put_ne _ _ h.2.1]
  · rw [Node.rd_put_ne _ _ h.2.1]

/-- A field outside `followKeys` reads the same after `settle`, where the level holds. -/
theorem settle_rd (old new : Node) (f : Fld) (hf : f.key ∉ followKeys) (h : new.level ≤ new.allowed)
    (hl : old.level ≤ new.level) : (settle old new).rd f = new.rd f := by
  have key : ∀ n : Node, (irqEdges old n).rd f = n.rd f := fun n => by simp [Node.rd]
  unfold settle
  rw [settle_eq old new h hl]
  simp only [key]
  repeat' split
  all_goals simp only [Node.msi_rd, Node.marginMark_rd _ _ hf, relayWarn_rd _ _ _ _ hf, Node.relayFollow_rd _ _ _ hf (by omega : (1 : Nat) < 2),
    Node.relayFollow_rd _ _ _ hf (by omega : (0 : Nat) < 2)]

theorem settle_on (old new : Node) (f : Fld) (hf : f.key ∉ followKeys) (h : new.level ≤ new.allowed)
    (hl : old.level ≤ new.level) : (settle old new).on f = new.on f := by
  simp [Node.on, settle_rd old new f hf h hl]

end Sys2Proof.Machine
end

