-- ==== Sys2Proof/Laws/Level.lean ====
section
/-! SUPPORT. Laws of the service level: what the highest level that holds depends on, and where an update of the node leaves it as it was. -/

namespace Sys2Proof.Machine

open Sys2Proof

/-- The register fields the service level depends on (01 R39, R41; 15 R532). -/
def levelKeys : List Nat :=
  [F.PAIR_STATUS_CLAIM_HELD.key, F.PWR_STATUS_PRI_OK.key, F.PWR_STATUS_BAT_OK.key, F.PWR_STATUS_HOLDUP.key,
   F.PWR_ISLANDS_RAIL_FAULT.key, F.HLT_ENG_MOVES_UNBOUND.key] ++
  (List.range 16).map (fun s => (F.HLT_SLOT_USED s).key) ++ (List.range 26).map (fun b => (F.FAB_BANK_STATE b).key)

/-- Two nodes that agree on what the level depends on. -/
structure SameLevelInputs (a b : Node) : Prop where
  mode : a.mode = b.mode
  failed : a.failed = b.failed
  loaded : a.loaded = b.loaded
  settings : a.settings = b.settings
  hold : a.inaug.l1Hold = b.inaug.l1Hold
  rd : ∀ f : Fld, f.key ∈ levelKeys → a.rd f = b.rd f

theorem SameLevelInputs.on {a b : Node} (h : SameLevelInputs a b) {f : Fld} (hf : f.key ∈ levelKeys) : a.on f = b.on f := by
  simp [Node.on, h.rd f hf]

theorem SameLevelInputs.banksN {a b : Node} (h : SameLevelInputs a b) : a.banksN = b.banksN := by
  unfold Node.banksN
  congr 1
  apply List.filter_congr
  intro x hx
  rw [h.rd]
  simp only [levelKeys, List.mem_append, List.mem_map]
  exact Or.inr ⟨x, hx, rfl⟩

theorem SameLevelInputs.slots {a b : Node} (h : SameLevelInputs a b) :
    (List.range 16).any (fun s => a.on (F.HLT_SLOT_USED s)) = (List.range 16).any (fun s => b.on (F.HLT_SLOT_USED s)) := by
  rw [Bool.eq_iff_iff]
  simp only [List.any_eq_true]
  have hs : ∀ x ∈ List.range 16, a.on (F.HLT_SLOT_USED x) = b.on (F.HLT_SLOT_USED x) := fun x hx =>
    h.on (by simp only [levelKeys, List.mem_append, List.mem_map]; exact Or.inl (Or.inr ⟨x, hx, rfl⟩))
  constructor <;> rintro ⟨x, hx, hy⟩ <;> refine ⟨x, hx, ?_⟩
  · rw [← hs x hx]; exact hy
  · rw [hs x hx]; exact hy

theorem SameLevelInputs.missing {a b : Node} (h : SameLevelInputs a b) : a.missing = b.missing := by
  have hr : a.on F.PWR_ISLANDS_RAIL_FAULT = b.on F.PWR_ISLANDS_RAIL_FAULT := h.on (by simp [levelKeys])
  have h1 : a.on F.PWR_STATUS_PRI_OK = b.on F.PWR_STATUS_PRI_OK := h.on (by simp [levelKeys])
  have h2 : a.on F.PWR_STATUS_BAT_OK = b.on F.PWR_STATUS_BAT_OK := h.on (by simp [levelKeys])
  have h3 : a.on F.PWR_STATUS_HOLDUP = b.on F.PWR_STATUS_HOLDUP := h.on (by simp [levelKeys])
  have h4 : a.rd F.HLT_ENG_MOVES_UNBOUND = b.rd F.HLT_ENG_MOVES_UNBOUND := h.rd _ (by simp [levelKeys])
  unfold Node.missing Node.railTakes Node.powerOk Node.slotMissing
  rw [hr, h1, h2, h3, h4, h.banksN, h.slots, h.failed]

/-- The highest level that holds is the same for nodes that agree on what it depends on. -/
theorem SameLevelInputs.allowed {a b : Node} (h : SameLevelInputs a b) : a.allowed = b.allowed := by
  have hc : a.on F.PAIR_STATUS_CLAIM_HELD = b.on F.PAIR_STATUS_CLAIM_HELD := h.on (by simp [levelKeys])
  unfold Node.allowed setL3 setL2 setL1 Node.identsSet
  rw [hc, h.missing, h.banksN, h.mode, h.loaded, h.settings, h.hold]

/-- A write of a field the level does not depend on leaves the highest level as it was. -/
theorem Node.allowed_wr (n : Node) (f : Fld) (v : Nat) (h : f.key ∉ levelKeys) : (n.wr f v).allowed = n.allowed :=
  SameLevelInputs.allowed
    { mode := rfl, failed := rfl, loaded := rfl, settings := rfl, hold := rfl,
      rd := fun _ hg => Node.rd_wr_ne n v (fun e => h (e ▸ hg)) }

theorem Node.allowed_put (n : Node) (f : Fld) (b : Bool) (h : f.key ∉ levelKeys) : (n.put f b).allowed = n.allowed :=
  Node.allowed_wr n f _ h

theorem Node.allowed_inc (n : Node) (f : Fld) (h : f.key ∉ levelKeys) : (n.inc f).allowed = n.allowed :=
  Node.allowed_wr n f _ h

theorem Node.allowed_wrs (n : Node) (l : List (Fld × Nat)) (h : ∀ e ∈ l, e.1.key ∉ levelKeys) : (n.wrs l).allowed = n.allowed := by
  unfold Node.wrs
  induction l generalizing n with
  | nil => rfl
  | cons e t ih =>
    rw [List.foldl_cons, ih _ (fun x hx => h x (by simp [hx])), Node.allowed_wr n _ _ (h e (by simp))]

@[simp] theorem Node.allowed_emit (n : Node) (o : Output) : (n.emit o).allowed = n.allowed := rfl
@[simp] theorem Node.allowed_setEng (n : Node) (e : Nat) (x : Eng) : (n.setEng e x).allowed = n.allowed := rfl
@[simp] theorem Node.allowed_setPort (n : Node) (p : Nat) (x : Port) : (n.setPort p x).allowed = n.allowed := rfl
@[simp] theorem Node.allowed_setChan (n : Node) (c : Nat) (x : Chan) : (n.setChan c x).allowed = n.allowed := rfl
@[simp] theorem Node.allowed_setFrame (n : Node) (k : Nat) (f : Frame) : (n.setFrame k f).allowed = n.allowed := rfl
@[simp] theorem Node.allowed_setPtp (n : Node) (p : Nat) (x : PtpPort) : (n.setPtp p x).allowed = n.allowed := rfl
@[simp] theorem Node.allowed_setTopPort (n : Node) (p : Nat) (x : TopPort) : (n.setTopPort p x).allowed = n.allowed := rfl

/-- A fault record leaves the highest level as it was. -/
@[simp] theorem Node.allowed_fault (n : Node) (a b c : Nat) : (n.fault a b c).allowed = n.allowed :=
  SameLevelInputs.allowed
    { mode := by simp, failed := by simp, loaded := by simp, settings := by simp, hold := by simp,
      rd := fun g hg => Node.fault_rd n a b c g (fun e => by rw [e] at hg; revert hg; decide) }

@[simp] theorem Node.allowed_msi (n : Node) (v : Nat) : (n.msi v).allowed = n.allowed := by
  unfold Node.msi; split <;> rfl

theorem levelKeys_lt : ∀ k ∈ levelKeys, k < 32 * 0x10201000 := by decide

theorem followKeys_lt : ∀ k ∈ followKeys, k < 32 * 0x10500000 := by decide

theorem followKeys_gap : ∀ k ∈ followKeys, k < 32 * 0x10020004 ∨ 32 * 0x10400000 ≤ k := by decide

/-- A register above the cell buffer's blocks bears on no level. -/
theorem not_levelKey {k : Nat} (h : 32 * 0x10201000 ≤ k) : k ∉ levelKeys :=
  fun hk => Nat.not_le_of_lt (levelKeys_lt k hk) h

/-- A register of the topology, bridge, field-bus, host and engine blocks follows no state. -/
theorem not_followKey {k : Nat} (h : 32 * 0x10500000 ≤ k) : k ∉ followKeys :=
  fun hk => Nat.not_le_of_lt (followKeys_lt k hk) h

/-- A register between the health and the backbone blocks follows no state. -/
theorem not_followKey_mid {k : Nat} (h : 32 * 0x10020004 ≤ k) (h2 : k < 32 * 0x10400000) : k ∉ followKeys :=
  fun hk => by have := followKeys_gap k hk; omega

/-- Engine blocks lie above every field of the level and of the relays. -/
theorem engBase_ge (e : Nat) : 0x10500000 ≤ engBase e := by
  unfold engBase
  split <;> omega

end Sys2Proof.Machine
end

