-- ==== Sys2Proof/Laws/Settle.lean ====
section
/-! SUPPORT. Laws of `settle`: a command whose meaning ends in `s.to m` completes, and where the level stays as it was the node it leaves follows `m`. -/

namespace Sys2Proof.Machine

open Sys2Proof

/-! ### Fault records -/

/-- A staged record stays staged under a further fault. -/
theorem Node.hasRecord_fault {n : Node} {a b c : Nat} (x y z : Nat) (h : n.hasRecord a b c) : (n.fault x y z).hasRecord a b c := by
  obtain ⟨r, hr, h1, h2, h3⟩ := h
  unfold Node.fault
  dsimp only
  split
  · refine ⟨_, List.mem_map_of_mem hr, ?_⟩
    split <;> exact ⟨h1, h2, h3⟩
  · split
    · exact ⟨r, hr, h1, h2, h3⟩
    · refine ⟨r, ?_, h1, h2, h3⟩
      rw [Node.msi_log]
      exact List.mem_append_left _ hr

/-- A fault is staged while the staging area has room (13 R463). -/
theorem Node.hasRecord_self (n : Node) (a b c : Nat) (h : n.log.staged.length < 64) : (n.fault a b c).hasRecord a b c := by
  unfold Node.fault
  dsimp only
  split
  · rename_i hany
    rw [List.any_eq_true] at hany
    obtain ⟨r, hr, hs⟩ := hany
    refine ⟨_, List.mem_map_of_mem hr, ?_⟩
    simp only [Bool.and_eq_true, beq_iff_eq] at hs
    split <;> exact ⟨hs.1.1.1.1, hs.1.1.1.2, hs.1.1.2⟩
  · rw [if_neg (by simpa using h)]
    unfold Node.hasRecord
    rw [Node.msi_log]
    exact ⟨_, List.mem_append_right _ (List.mem_singleton.mpr rfl), rfl, rfl, rfl⟩

/-! ### What the parts of `settle` add -/

theorem Node.msi_outs (n : Node) (v : Nat) : ∃ l, (n.msi v).out = l ++ n.out := by
  unfold Node.msi
  split
  · exact ⟨[.msix v], rfl⟩
  · exact ⟨[], rfl⟩

theorem Node.fault_outs (n : Node) (a b c : Nat) : ∃ l, (n.fault a b c).out = l ++ n.out := by
  unfold Node.fault
  dsimp only
  split
  · exact ⟨[], rfl⟩
  · split
    · exact ⟨[], rfl⟩
    · exact Node.msi_outs _ _

/-- What `settle` may add to a node it does not otherwise change. -/
structure Adds (m n : Node) : Prop where
  pair : ∃ d k, n.pair = { m.pair with lastDrive := d, cut := k }
  out : ∃ l, n.out = l ++ m.out
  records : ∀ src code arg, m.hasRecord src code arg → n.hasRecord src code arg

theorem Adds.refl (n : Node) : Adds n n := ⟨⟨n.pair.lastDrive, n.pair.cut, rfl⟩, ⟨[], rfl⟩, fun _ _ _ h => h⟩

theorem Adds.trans {a b c : Node} (h1 : Adds a b) (h2 : Adds b c) : Adds a c := by
  obtain ⟨d1, k1, p1⟩ := h1.pair
  obtain ⟨d2, k2, p2⟩ := h2.pair
  obtain ⟨l1, o1⟩ := h1.out
  obtain ⟨l2, o2⟩ := h2.out
  exact ⟨⟨d2, k2, by rw [p2, p1]⟩, ⟨l2 ++ l1, by rw [o2, o1, List.append_assoc]⟩, fun x y z h => h2.records x y z (h1.records x y z h)⟩

theorem Adds.fault (n : Node) (a b c : Nat) : Adds n (n.fault a b c) :=
  ⟨⟨n.pair.lastDrive, n.pair.cut, by simp⟩, Node.fault_outs n a b c, fun _ _ _ h => Node.hasRecord_fault a b c h⟩

theorem Adds.msi (n : Node) (v : Nat) : Adds n (n.msi v) :=
  ⟨⟨n.pair.lastDrive, n.pair.cut, by simp⟩, Node.msi_outs n v, fun _ _ _ h => by
    unfold Node.hasRecord at *
    rw [Node.msi_log]
    exact h⟩

theorem Adds.wr (n : Node) (f : Fld) (v : Nat) : Adds n (n.wr f v) := ⟨⟨n.pair.lastDrive, n.pair.cut, rfl⟩, ⟨[], rfl⟩, fun _ _ _ h => h⟩

theorem Adds.put (n : Node) (f : Fld) (b : Bool) : Adds n (n.put f b) := Adds.wr n f _

theorem Adds.relayOp (n : Node) (l : Nat) (b : Bool) : Adds n (n.relayOp l b) := by
  unfold Node.relayOp
  exact ((Adds.wr n _ _).trans (Adds.wr _ _ _)).trans (Adds.put _ _ _)

theorem Adds.relayWarn (old n : Node) (l : Nat) : Adds n (relayWarn old n l) := by
  unfold Machine.relayWarn
  dsimp only
  split
  · exact Adds.fault _ _ _ _
  · exact Adds.refl n

theorem Adds.relayFollow (n : Node) (l : Nat) : Adds n (n.relayFollow l) := by
  have h0 : Adds n (n.relayNote l) := ⟨⟨_, _, rfl⟩, ⟨[], rfl⟩, fun _ _ _ h => h⟩
  unfold Node.relayFollow
  dsimp only
  split
  · exact (h0.trans (Adds.put _ _ _)).trans (Adds.relayOp _ _ _)
  · exact h0.trans (Adds.put _ _ _)

theorem Adds.marginMark (n : Node) : Adds n n.marginMark := by
  unfold Node.marginMark
  dsimp only
  split
  · exact (Adds.put n _ _).trans (Adds.fault _ _ _ _)
  · exact Adds.put n _ _

theorem Adds.irqFold (c : Nat → Bool) (l : List Nat) (n : Node) :
    Adds n (l.foldl (fun a s => if c s then a.irqSend s else a) n) := by
  induction l generalizing n with
  | nil => exact Adds.refl n
  | cons s t ih =>
    rw [List.foldl_cons]
    refine Adds.trans ?_ (ih _)
    split
    · unfold Node.irqSend
      split
      · exact Adds.msi _ _
      · exact Adds.refl _
    · exact Adds.refl _

theorem settle_adds (old new : Node) (h : new.level ≤ new.allowed) (hl : old.level ≤ new.level) : Adds new (settle old new) := by
  have hm : ∀ n : Node, Adds n (if n.mode = .off then n else n.marginMark) := fun n => by
    split
    · exact Adds.refl n
    · exact Adds.marginMark n
  have hi : ∀ (c : Prop) [Decidable c] (n : Node) (v : Nat), Adds n (if c then n.msi v else n) := fun c _ n v => by
    split
    · exact Adds.msi n v
    · exact Adds.refl n
  unfold settle
  rw [settle_eq old new h hl]
  exact (((((Adds.relayFollow new 0).trans (Adds.relayFollow _ 1)).trans
    ((Adds.relayWarn old _ 0).trans (Adds.relayWarn old _ 1))).trans (hm _)).trans ((hi _ _ _).trans (hi _ _ _))).trans
    (Adds.irqFold _ _ _)

/-- Where the level is allowed and has not fallen, the settled node follows the node the command made. -/
theorem settle_follows (old new : Node) (h : new.level ≤ new.allowed) (hl : old.level ≤ new.level) :
    Follows new (settle old new) where
  mode := settle_mode old new h hl
  level := settle_level old new h hl
  wait := settle_wait old new h hl
  unpowered := settle_unpowered old new h hl
  failed := settle_failed old new h hl
  ident := settle_ident old new h hl
  mem := settle_mem old new h hl
  poison := settle_poison old new h hl
  caps := settle_caps old new h hl
  holds := settle_holds old new h hl
  results := settle_results old new h hl
  leaseAt := settle_leaseAt old new h hl
  settings := settle_settings old new h hl
  clock := settle_clock old new h hl
  engs := settle_engs old new h hl
  staging := settle_staging old new h hl
  tabs := settle_tabs old new h hl
  loaded := settle_loaded old new h hl
  chanSlot := settle_chanSlot old new h hl
  fab := settle_fab old new h hl
  ports := settle_ports old new h hl
  cnt := settle_cnt old new h hl
  delta := settle_delta old new h hl
  inaug := settle_inaug old new h hl
  chans := settle_chans old new h hl
  brg := settle_brg old new h hl
  datasets := settle_datasets old new h hl
  ipId := settle_ipId old new h hl
  flash := settle_flash old new h hl
  epochUnread := settle_epochUnread old new h hl
  updUnread := settle_updUnread old new h hl
  memCe := settle_memCe old new h hl
  freeN := settle_freeN old new h hl
  pair := (settle_adds old new h hl).pair
  out := (settle_adds old new h hl).out
  records := (settle_adds old new h hl).records
  rd := fun f hf => settle_rd old new f hf h hl

/-! ### Completion -/

/-- A command whose meaning ends in `s.to m` completes, with the settled node. -/
theorem Yields.of_to {c : Instr} {s : State} {m : Node} {P : Node → Prop} (h : exec c s = s.to m) (hp : P (settle s.node m)) :
    Yields c s P := by
  refine ⟨{ s with node := settle s.node m }, ?_, ?_, ?_⟩
  · rw [h]
    unfold State.to
    rfl
  · rfl
  · dsimp only
    exact hp

/-- Where the command's node keeps the level and what the level depends on, the command leaves that node. -/
theorem Leaves.of_to {c : Instr} {s : State} {m : Node} (h : exec c s = s.to m) (hl : m.level = s.node.level)
    (ha : m.allowed = s.node.allowed) (hf : s.node.fits) : Leaves c s m :=
  Yields.of_to h (settle_follows _ _ (by rw [hl, ha]; exact hf) (Nat.le_of_eq hl.symm))

/-- A weaker conclusion. -/
theorem Yields.imp {c : Instr} {s : State} {P Q : Node → Prop} (h : Yields c s P) (hpq : ∀ n, P n → Q n) : Yields c s Q := by
  obtain ⟨t, h1, h2, h3⟩ := h
  exact ⟨t, h1, h2, hpq _ h3⟩

end Sys2Proof.Machine
end

