-- ==== Sys2Proof/Laws/Engine.lean ====
section
/-! SUPPORT. Laws of the engines: registers of an activation, what one instruction that completes leaves, and what `settle` leaves of a node that an engine has changed. -/

namespace Sys2Proof.Machine

open Sys2Proof

/-! ### Registers of an activation (03 R76) -/

@[simp] theorem Act.rg_zero (a : Act) : a.rg 0 = 0 := rfl

@[simp] theorem Act.wg_zero (a : Act) (v : W64) : a.wg 0 v = a := rfl

theorem Act.rg_wg_same (a : Act) (i : Nat) (v : W64) (h : i ≠ 0) : (a.wg i v).rg i = v := by
  simp [Act.rg, Act.wg, h]

theorem Act.rg_wg_ne (a : Act) {i j : Nat} (v : W64) (h : j ≠ i) : (a.wg i v).rg j = a.rg j := by
  unfold Act.rg Act.wg
  by_cases hi : i = 0
  · simp [hi]
  · simp only [hi, if_false]
    split
    · rfl
    · exact FMap.get_put_ne 0 0 a.g v h

@[simp] theorem Act.wg_pc (a : Act) (i : Nat) (v : W64) : (a.wg i v).pc = a.pc := by unfold Act.wg; split <;> rfl
@[simp] theorem Act.wg_cyc (a : Act) (i : Nat) (v : W64) : (a.wg i v).cyc = a.cyc := by unfold Act.wg; split <;> rfl
@[simp] theorem Act.wg_budget (a : Act) (i : Nat) (v : W64) : (a.wg i v).budget = a.budget := by unfold Act.wg; split <;> rfl
@[simp] theorem Act.wg_loops (a : Act) (i : Nat) (v : W64) : (a.wg i v).loops = a.loops := by unfold Act.wg; split <;> rfl

/-! ### Units of the node -/

@[simp] theorem Node.eng_setEng_same (n : Node) (e : Nat) (x : Eng) : (n.setEng e x).eng e = x := by
  simp [Node.eng, Node.setEng]

theorem Node.eng_setEng_ne (n : Node) {e k : Nat} (x : Eng) (h : k ≠ e) : (n.setEng e x).eng k = n.eng k := by
  simp [Node.eng, Node.setEng, FMap.get_put_ne, h]

/-! ### One instruction -/

/-- An instruction in `tags` whose effect changes registers only: the step leaves its activation, moved past the instruction. -/
theorem Node.kStep_done (n : Node) (e : Nat) (tags : List KTag) (eff : Node → Act → KIns → KRes) (i : KIns) (cost : Nat)
    (a' : Act) (h : Issues n e i cost) (ht : i.tag ∈ tags)
    (he : eff n (n.eng e).act i = .ok { n := n, a := a', cost := cost }) (hc : a'.cyc = (n.eng e).act.cyc)
    (hp : a'.pc = (n.eng e).act.pc) (hl : a'.loops = (n.eng e).act.loops) (hb : a'.budget = (n.eng e).act.budget) :
    n.kStep e tags eff = n.setEng e { n.eng e with act := a'.past i cost } := by
  have h1 : ¬ (n.eng e).act.budget < (n.eng e).act.cyc + cost := by have := h.budget; omega
  have h2 : ¬ (n.eng e).act.budget = (n.eng e).act.cyc + cost := by have := h.budget; omega
  unfold Node.kStep
  simp only [h.phase, h.fetch, h.check, ht, h.guard, he]
  unfold Node.retire Act.past
  simp [h1, h2, hc, hp, hl, hb, h.phase]

/-- A command that is one instruction of an engine completes where the instruction issues and changes registers only. -/
theorem EngineDone.of_kStep {c : Instr} {s : State} {e : Nat} {tags : List KTag} {eff : Node → Act → KIns → KRes} {i : KIns}
    {cost : Nat} {a' : Act} (hx : exec c s = s.to (s.node.kStep e tags eff)) (hf : s.node.fits) (h : Issues s.node e i cost)
    (ht : i.tag ∈ tags) (he : eff s.node (s.node.eng e).act i = .ok { n := s.node, a := a', cost := cost })
    (hc : a'.cyc = (s.node.eng e).act.cyc) (hp : a'.pc = (s.node.eng e).act.pc)
    (hl : a'.loops = (s.node.eng e).act.loops) (hb : a'.budget = (s.node.eng e).act.budget) :
    EngineDone c s e (a'.past i cost) := by
  rw [s.node.kStep_done e tags eff i cost a' h ht he hc hp hl hb] at hx
  exact Leaves.of_to hx rfl rfl hf

/-! ### Operands and predicates -/

/-- The second operand as the meanings compute it. -/
theorem second_eq (i : KIns) (a : Act) : i.b a = i.second a := by
  unfold KIns.b KIns.second imm64
  split
  · unfold BitVec.signExtend; rw [toInt_ofNat_toSigned 32 _ (by decide)]
  · rfl

/-- A write through the predicate destination (04 R122). -/
theorem pred_dest (old rd : Nat) (c : Bool) : PredDest old rd c (writePred old rd c) := by
  intro q
  unfold writePred setPred combine
  by_cases h0 : rd % 8 = 0
  · rw [if_pos h0, if_neg]; omega
  · rw [if_neg h0, bitOf_setBit]
    by_cases hq : q = rd % 8
    · rw [if_pos hq, if_pos (And.intro (by omega) hq), ← hq]
      generalize rd / 8 = m
      rcases m with _ | _ | _ | m <;> simp
    · rw [if_neg hq, if_neg]; intro h; exact hq h.2

/-- A write of a predicate without a combine mode (04 R122). -/
theorem pred_set (old p : Nat) (c : Bool) : PredSet old p c (setPred old p c) := by
  intro q
  unfold setPred
  by_cases h0 : p = 0
  · rw [if_pos h0, if_neg]; omega
  · rw [if_neg h0, bitOf_setBit]
    by_cases hq : q = p
    · rw [if_pos hq, if_pos (And.intro (by omega) hq)]
    · rw [if_neg hq, if_neg]; intro h; exact hq h.2

/-- An instruction about to execute is a decoded word pair. -/
theorem Issues.decoded {n : Node} {e : Nat} {i : KIns} {cost : Nat} (h : Issues n e i cost) :
    ∃ topo w x, i = kDecode topo w x ∧ x < 2 ^ 32 := by
  have hf := h.fetch
  unfold Node.fetch at hf
  have h4 : ∀ m a, leNat (memReadN m a 4) < 2 ^ 32 := fun m a => by
    have := leNat_lt (memReadN m a 4); simpa [memReadN] using this
  dsimp only at hf
  repeat' split at hf
  all_goals first
    | (cases hf; done)
    | (injection hf with hf; exact ⟨_, _, _, hf.symm, by first | exact h4 _ _ | decide⟩)

/-- The ranges of a decoded instruction's fields (04 R121). -/
theorem kDecode_fields (topo : Bool) (w x : Nat) (h : x < 2 ^ 32) :
    let i := kDecode topo w x
    i.rd < 32 ∧ i.ra < 32 ∧ i.rb < 32 ∧ i.fn < 128 ∧ i.sbit < 2 ∧ i.imm < 2 ^ 32 ∧ (i.x = false → i.imm < 65536) := by
  refine ⟨bitsOf_lt w 21 17, bitsOf_lt w 16 12, bitsOf_lt w 11 7, bitsOf_lt w 6 0, bitsOf_lt w 16 16, ?_, ?_⟩
  · show (if _ then x else bitsOf w 15 0) < _
    have := bitsOf_lt w 15 0
    split <;> omega
  · intro hx
    have := bitsOf_lt w 15 0
    show (if isFormatX (bitsOf w 31 26) = true then x else bitsOf w 15 0) < _
    have hx' : isFormatX (bitsOf w 31 26) = false := hx
    rw [hx']; simpa using this

end Sys2Proof.Machine
end

