-- ==== Sys2Proof/Laws/Memory.lean ====
section
/-! SUPPORT. Laws of byte memory: every operation keeps the canonical form, and what a read after a write gives. -/

namespace Sys2Proof.Machine

open Sys2Proof

/-- The cells of a run of bytes lie in the run, rise and hold no zero. -/
theorem cellsOf_bounds (a : Nat) (bs : List Byte) : ∀ c ∈ cellsOf a bs, a ≤ c.1 ∧ c.1 < a + bs.length := by
  induction bs generalizing a with
  | nil => simp [cellsOf]
  | cons b t ih =>
    intro c hc
    unfold cellsOf at hc
    split at hc
    · have := ih (a + 1) c hc
      simp only [List.length_cons]
      omega
    · rcases List.mem_cons.mp hc with rfl | h
      · simp
      · have := ih (a + 1) c h
        simp only [List.length_cons]
        omega

theorem cellsOf_wf (a : Nat) (bs : List Byte) : Memory.wf (cellsOf a bs) = true := by
  unfold Memory.wf
  rw [FMap.wf_iff]
  induction bs generalizing a with
  | nil => simp [cellsOf]
  | cons b t ih =>
    unfold cellsOf
    split
    · exact ih (a + 1)
    · refine ⟨List.pairwise_cons.mpr ⟨fun c hc => ?_, (ih (a + 1)).1⟩, ?_⟩
      · have := cellsOf_bounds (a + 1) t c hc
        show a < c.1
        omega
      · intro c hc
        rcases List.mem_cons.mp hc with rfl | h
        · assumption
        · exact (ih (a + 1)).2 c h

/-- Writing bytes keeps memory canonical. -/
theorem memWrite_wf (m : List Host.Cell) (a : Nat) (bs : List Byte) (h : Memory.wf m = true) :
    Memory.wf (memWrite m a bs) = true := by
  unfold memWrite
  apply FMap.wf_append
  · exact FMap.wf_filter _ _ h
  · apply FMap.wf_append
    · exact cellsOf_wf a bs
    · exact FMap.wf_filter _ _ h
    · intro x hx y hy
      have hx := cellsOf_bounds a bs x hx
      have hy := (List.mem_filter.mp hy).2
      simp only [decide_eq_true_eq] at hy
      omega
  · intro x hx y hy
    have hx := (List.mem_filter.mp hx).2
    simp only [decide_eq_true_eq] at hx
    rcases List.mem_append.mp hy with h1 | h1
    · have := cellsOf_bounds a bs y h1
      omega
    · have := (List.mem_filter.mp h1).2
      simp only [decide_eq_true_eq] at this
      omega

/-- Clearing bytes keeps memory canonical. -/
theorem memClear_wf (m : List Host.Cell) (a k : Nat) (h : Memory.wf m = true) : Memory.wf (memClear m a k) = true := by
  unfold memClear
  apply FMap.wf_append
  · exact FMap.wf_filter _ _ h
  · exact FMap.wf_filter _ _ h
  · intro x hx y hy
    have hx := (List.mem_filter.mp hx).2
    have hy := (List.mem_filter.mp hy).2
    simp only [decide_eq_true_eq] at hx hy
    omega

/-- The cells of a part, as offsets, are canonical and lie below its size. -/
theorem memPart_wf (m : List Host.Cell) (a k : Nat) (h : Memory.wf m = true) :
    Memory.wf (memPart m a k) = true ∧ ∀ c ∈ memPart m a k, c.1 < k := by
  unfold memPart Memory.wf at *
  rw [FMap.wf_iff] at *
  have hb : ∀ c ∈ m.filter (fun c => decide (a ≤ c.1) && decide (c.1 < a + k)), a ≤ c.1 ∧ c.1 < a + k := by
    intro c hc
    have := (List.mem_filter.mp hc).2
    simpa using this
  refine ⟨⟨?_, ?_⟩, ?_⟩
  · rw [List.pairwise_map]
    apply (h.1.filter _).imp_of_mem
    intro x y hx hy hxy
    have := hb x hx
    have := hb y hy
    show x.1 - a < y.1 - a
    omega
  · intro e he
    obtain ⟨c, hc, rfl⟩ := List.mem_map.mp he
    exact h.2 c (List.mem_filter.mp hc).1
  · intro e he
    obtain ⟨c, hc, rfl⟩ := List.mem_map.mp he
    have := hb c hc
    show c.1 - a < k
    omega

/-- Placing a canonical part below its size keeps memory canonical. -/
theorem memPlace_wf (m : List Host.Cell) (a k : Nat) (part : List Host.Cell) (h : Memory.wf m = true)
    (hp : Memory.wf part = true) (hk : ∀ c ∈ part, c.1 < k) : Memory.wf (memPlace m a k part) = true := by
  have hq : Memory.wf (part.map (fun c => (a + c.1, c.2))) = true := by
    unfold Memory.wf at *
    rw [FMap.wf_iff] at *
    refine ⟨?_, ?_⟩
    · rw [List.pairwise_map]
      exact hp.1.imp (fun hxy => Nat.add_lt_add_left hxy a)
    · intro e he
      obtain ⟨c, hc, rfl⟩ := List.mem_map.mp he
      exact hp.2 c hc
  have hr : ∀ c ∈ part.map (fun c => (a + c.1, c.2)), a ≤ c.1 ∧ c.1 < a + k := by
    intro e he
    obtain ⟨c, hc, rfl⟩ := List.mem_map.mp he
    have := hk c hc
    show a ≤ a + c.1 ∧ a + c.1 < a + k
    omega
  unfold memPlace
  apply FMap.wf_append
  · exact FMap.wf_filter _ _ h
  · apply FMap.wf_append
    · exact hq
    · exact FMap.wf_filter _ _ h
    · intro x hx y hy
      have hx := hr x hx
      have hy := (List.mem_filter.mp hy).2
      simp only [decide_eq_true_eq] at hy
      omega
  · intro x hx y hy
    have hx := (List.mem_filter.mp hx).2
    simp only [decide_eq_true_eq] at hx
    rcases List.mem_append.mp hy with h1 | h1
    · have := hr y h1
      omega
    · have := (List.mem_filter.mp h1).2
      simp only [decide_eq_true_eq] at this
      omega

/-- Exchanging two regions keeps memory canonical. -/
theorem memSwap_wf (m : List Host.Cell) (a b k : Nat) (h : Memory.wf m = true) : Memory.wf (memSwap m a b k) = true := by
  have hb := memPart_wf m b k h
  have ha := memPart_wf m a k h
  exact memPlace_wf _ _ _ _ (memPlace_wf _ _ _ _ h hb.1 hb.2) ha.1 ha.2

/-- A 64-bit write keeps memory canonical. -/
theorem wr64_wf (m : List Host.Cell) (a v : Nat) (h : Memory.wf m = true) : Memory.wf (wr64 m a v) = true :=
  memWrite_wf m a _ h

/-- Removing the data units' cells keeps memory canonical. -/
theorem dropDataMem_wf (m : List Host.Cell) (h : Memory.wf m = true) : Memory.wf (dropDataMem m) = true :=
  FMap.wf_filter _ _ h

/-- A byte outside the run written reads as before. -/
theorem memRead_memWrite_outside (m : List Host.Cell) (a : Nat) (bs : List Byte) (x : Nat)
    (h : x < a ∨ a + bs.length ≤ x) : memRead (memWrite m a bs) x = memRead m x := by
  unfold memRead memWrite
  rcases h with h | h
  · rw [FMap.get_append_left]
    · exact FMap.get_filter _ _ _ _ (by simp [h])
    · intro e he
      rcases List.mem_append.mp he with h1 | h1
      · have := cellsOf_bounds a bs e h1
        omega
      · have := (List.mem_filter.mp h1).2
        simp only [decide_eq_true_eq] at this
        omega
  · rw [FMap.get_append_right, FMap.get_append_right]
    · exact FMap.get_filter _ _ _ _ (by simp [h])
    · intro e he
      have := cellsOf_bounds a bs e he
      omega
    · intro e he
      have := (List.mem_filter.mp he).2
      simp only [decide_eq_true_eq] at this
      omega

/-- The cells of a run read as the run's bytes. -/
theorem memRead_cellsOf (a : Nat) (bs : List Byte) (i : Nat) (h : i < bs.length) :
    memRead (cellsOf a bs) (a + i) = bs[i] := by
  induction bs generalizing a i with
  | nil => simp at h
  | cons b t ih =>
    unfold cellsOf
    cases i with
    | zero =>
      split
      · rename_i hb
        have : memRead (cellsOf (a + 1) t) (a + 0) = 0 := by
          apply FMap.get_of_absent
          intro e he
          have := cellsOf_bounds (a + 1) t e he
          omega
        simpa [hb] using this
      · simp [memRead, FMap.get]
    | succ j =>
      have hj : j < t.length := by simpa using h
      have e1 : a + (j + 1) = (a + 1) + j := by omega
      split
      · rw [e1]
        simpa using ih (a + 1) j hj
      · have hne : a ≠ a + (j + 1) := by omega
        simp only [memRead, FMap.get, hne, if_false]
        rw [e1]
        simpa [memRead] using ih (a + 1) j hj

/-- A byte of the run written reads as written. -/
theorem memRead_memWrite_inside (m : List Host.Cell) (a : Nat) (bs : List Byte) (i : Nat) (h : i < bs.length) :
    memRead (memWrite m a bs) (a + i) = bs[i] := by
  have hc := memRead_cellsOf a bs i h
  unfold memRead memWrite at *
  rw [FMap.get_append_right, FMap.get_append_left]
  · exact hc
  · intro e he
    have := (List.mem_filter.mp he).2
    simp only [decide_eq_true_eq] at this
    omega
  · intro e he
    have := (List.mem_filter.mp he).2
    simp only [decide_eq_true_eq] at this
    omega

/-- Memory after reset lists nothing, so it is canonical. -/
theorem reset_memory_wf : Memory.wf State.reset.node.mem = true := rfl

end Sys2Proof.Machine
end

