-- ==== Sys2Proof/Tests/Slice0.lean ====
section
/-! SUPPORT. Tests: the well-formedness check on ill-formed commands, values the spec gives, and, for every statement with hypotheses, a state and operands that meet them. -/

namespace Sys2Proof.Tests

open Sys2Proof Sys2Proof.Machine

set_option Elab.async false

/-! ### Small states -/

/-- The factory module powered, ACTIVE, engine 0 running slot 0, with the given fields written. -/
def live (l : List (Fld × Nat)) : Node :=
  { State.reset.node.wrs ([(F.PWR_ISLANDS_CONTROL, 1), (F.PWR_ISLANDS_DATA, 1), (F.PWR_STATUS_PRI_OK, 1), (F.PAIR_STATUS_CLAIM_HELD, 1),
      (F.HLT_SLOT_ENGINE 0, 0)] ++ l) with
    mode := .active }

/-- A binary part of an image and the identifiers, so that L2 and L3 are allowed. -/
def high (l : List (Fld × Nat)) : Node := { live l with loaded := true, settings := [(1, zeros 16), (2, zeros 16)] }

/-- Every condition holds. -/
def all (l : List Bool) : Bool := l.all (fun b => b)

/-- A base word of Kerarqua (04 R121): op, rd, ra, rb, fn. -/
def kw (op rd ra rb fn : Nat) : Nat := op * 2 ^ 26 + rd * 2 ^ 17 + ra * 2 ^ 12 + rb * 2 ^ 7 + fn

/-- A running activation with registers g1 to g4 and a budget of 1000 cycles. -/
def act (g1 g2 g3 g4 : Nat) : Act :=
  { g := [(1, BitVec.ofNat 64 g1), (2, BitVec.ofNat 64 g2), (3, BitVec.ofNat 64 g3), (4, BitVec.ofNat 64 g4)], budget := 1000 }

/-- Engine `e` runs `a`, with one base word and one extension word in its code memory at 0. -/
def runs (w x : Nat) (a : Act) (e : Nat := 0) (l : List (Fld × Nat) := []) : Node :=
  { live l with mem := memWrite [] (codeBase e) (leBytes 4 w ++ leBytes 4 x), engs := [(e, { phase := .running, act := a })] }

/-- `Issues`, and `Node.fits`, as a computation. -/
def ready (n : Node) (e : Nat) (i : KIns) (cost : Nat) : Bool :=
  let a := (n.eng e).act
  decide (n.level ≤ n.allowed) && decide ((n.eng e).phase = .running) && decide (n.fetch e a.pc = .inl i) && decide (n.kCheck a i = none) &&
    i.guard a.preds && decide (a.cyc + cost < a.budget)

theorem ready_issues (n : Node) (e : Nat) (i : KIns) (cost : Nat) (h : ready n e i cost = true) : n.fits ∧ Issues n e i cost := by
  simp only [ready, Bool.and_eq_true, decide_eq_true_eq] at h
  exact ⟨h.1.1.1.1.1, ⟨h.1.1.1.1.2, h.1.1.1.2, h.1.1.2, h.1.2, h.2⟩⟩

/-- The word at engine `e`'s pc issues as operation `t` with this cost. -/
def row (w x : Nat) (t : KTag) (cost : Nat) (a : Act) (e : Nat := 0) : Bool :=
  ready (runs w x a e) e (kDecode (e == 18) w x) cost && decide ((kDecode (e == 18) w x).tag = t)

/-- The register an operation leaves, where its engine goes on. -/
def left (c : Instr) (n : Node) (e r : Nat) : Option Nat :=
  match exec c { node := n } with
  | .next t => some ((t.node.eng e).act.rg r).toNat
  | _ => none

/-! ### Kerarqua -/

/-- 04 R126: hypotheses of AluResults: every operation issues, in ALU and in ALUX. -/
theorem wit_AluResults :
    ((List.range 28).filter (fun f => f != 19)).all (fun f =>
      row (kw 2 3 1 (if f < 25 then 2 else 0) f) 0 (aluTag f) (kCost (aluTag f) 0) (act 7 3 0 0) &&
      row (kw 3 3 1 0 f) (if f < 25 then 5 else 0) (aluTag f) (kCost (aluTag f) 0) (act 7 3 0 0)) = true := by decide +kernel

/-- 04 R127: hypotheses of DivisionCorners, b = 0 and −2^63 by −1. -/
theorem wit_DivisionCorners :
    ([0x14, 0x15, 0x16, 0x17] : List Nat).all (fun f => row (kw 2 3 1 2 f) 0 (aluTag f) 34 (act 7 0 0 0) &&
      row (kw 2 3 1 2 f) 0 (aluTag f) 34 (act (2 ^ 63) (2 ^ 64 - 1) 0 0)) = true ∧
    ((act (2 ^ 63) (2 ^ 64 - 1) 0 0).rg 1 = BitVec.ofInt 64 (-2 ^ 63) ∧ (act (2 ^ 63) (2 ^ 64 - 1) 0 0).rg 2 = BitVec.ofInt 64 (-1)) := by
  decide +kernel

/-- 04 R152: hypotheses of SysResults: NOP, RDSP of the four registers, RDP, WRP, RET with a return address, END. -/
theorem wit_SysResults :
    (row (kw 1 0 0 0 0) 0 .nop 1 (act 0 0 0 0) && ([0, 1, 2, 3] : List Nat).all (fun r => row (kw 1 3 r 0 4) 0 .rdsp 1 (act 0 0 0 0)) &&
      row (kw 1 3 0 0 5) 0 .rdp 1 (act 0 0 0 0) && row (kw 1 0 1 0 6) 0 .wrp 1 (act 5 0 0 0) &&
      row (kw 1 0 0 0 2) 0 .ret 3 { act 0 0 0 0 with stack := [8] } && row (kw 1 0 0 0 1) 0 .endA 0 (act 0 0 0 0)) = true := by decide +kernel

/-- 04 R128, R129: hypotheses of CompareAndImmediate. -/
theorem wit_CompareAndImmediate :
    ((List.range 8).all (fun f => row (kw 4 1 1 2 f) 0 .cmp 1 (act 7 3 0 0) && row (kw 5 1 1 0 f) 9 .cmp 1 (act 7 3 0 0)) &&
      row (kw 8 3 0 0 0 + 0xFFFF) 0 .addi 1 (act 0 0 0 0) && row (kw 9 3 0 0 0 + 0x8000) 0 .movi 1 (act 0 0 0 0) &&
      row (kw 9 3 16 0 0 + 0x8000) 0 .movi 1 (act 0 0 0 0) && row (kw 0x0B 3 16 0 0 + 0x8000) 0 .movk 1 (act 0 0 0 0)) = true := by
  decide +kernel

/-- 03 R82, R83: bytes of the data address space at the ends of its ranges; past LENGTH and in an empty area they read zero. -/
theorem test_dataSpace :
    let inp : Input := { hdr := [1], data := [0x5A] }
    (actByte (live []) 0 { input := some inp } 0 = 1 ∧ actByte (live []) 0 { input := some inp } 0x3F = 0 ∧
      actByte (live []) 0 { input := some inp } 0x40 = 0x5A ∧ actByte (live []) 0 { input := some inp } 0x41 = 0 ∧
      actByte (live []) 0 { input := some inp } 0x243F = 0 ∧ actByte (live []) 0 { tx := [(0, 7)] } 0x10000 = 7 ∧
      actByte (live []) 0 {} 0x12440 = 0 ∧ actByte (live []) 0 {} 0x20FFF = 0) := by decide +kernel

/-- Ranges of 03 R81 at their ends. -/
theorem wit_ranges : OneRange 0x3C 4 ∧ OneRange 0x2438 8 ∧ OneRange 0x10038 8 ∧ OneRange 0x12438 8 ∧ OneRange 0x20FFF 1 ∧ ¬ OneRange 0x3C 8 ∧
    ¬ OneRange 0x20FFC 8 ∧ InTransmit 0x12438 8 ∧ InMailbox 0x20000 8 ∧ ¬ InTransmit 0x40 1 ∧ ¬ InMailbox 0x20FFF 2 := by
  simp [OneRange, InTransmit, InMailbox]

/-- 04 R130: hypotheses of LoadStoreResults: LD, LDX, ST, STX of every size at the ends of a range. -/
theorem wit_LoadStoreResults :
    (List.range 4).all (fun z =>
      row (kw 0x10 3 1 0 (8 + z)) 0 .ld 3 (act (0x2440 - 2 ^ z) 0 0 0) && row (kw 0x12 3 1 0 (4 + z)) (2 ^ z) .ldx 3 (act (0x20000 - 2 ^ z) 0 0 0) &&
      row (kw 0x11 3 1 0 z) 0 .st 1 (act 0x10000 0 0 0) && row (kw 0x13 3 1 0 (4 + z)) 0 .stx 1 (act (0x21000 - 2 ^ z) 0 0 0)) = true := by
  decide +kernel

/-- 04 R131, R132: hypotheses of BitFieldResults: one bit and 64 bits across bytes, in the transmit area and in the mailbox. -/
theorem wit_BitFieldResults :
    (row (kw 0x14 3 1 0 64) 0 .extb 4 (act (8 * 0x40) 0 0 0) && row (kw 0x14 3 1 0 0x38) 0 .extb 4 (act (8 * 0x40 + 3) 0 0 0) &&
      row (kw 0x15 3 1 0 64) 0 .insb 4 (act (8 * 0x10000 + 7) 0 0 0) && row (kw 0x15 3 1 0 0x28) 0 .insb 4 (act (8 * 0x20000 + 5) 0 0 0) &&
      (kDecode false (kw 0x14 3 1 0 64) 0).w == 1 && (kDecode false (kw 0x14 3 1 0 0x38) 0).w == 64) = true := by decide +kernel

/-- 04 R133 to R137: hypotheses of FixedPointResults. -/
theorem wit_FixedPointResults :
    (row (kw 0x16 3 1 4 16) 0 .sat 1 (act 300 0 0 0) && row (kw 0x18 3 1 2 5) 3 .scale 2 (act 300 1 0 0) &&
      row (kw 0x19 1 1 2 12) 0 .range 1 (act 5 1 9 0) && (List.range 4).all (fun f => row (kw 0x1A 3 1 0 f) 0 .conv 3 (act 8 0 0 0))) = true := by
  decide +kernel

/-- 04 R138, R139: hypotheses of SignalSlotResults, at the last slot, without and with a held store of it. -/
theorem wit_SignalSlotResults :
    (row (kw 0x1C 3 1 2 4) 1000 .lds 3 (act 16127 0 0 0) &&
      row (kw 0x1C 3 1 2 4) 1000 .lds 3 { act 16127 0 0 0 with outs := [.sts 16127 5 true 0 false] } &&
      row (kw 0x1D 0 1 2 4) 0 .sts 1 (act 16127 0 0 0)) = true := by decide +kernel

/-- 04 R150, R151, R153, R154: hypotheses of ControlResults: BR, CALL, LOOP, WAIT with and without its flag, SIGNAL, a false guard. -/
theorem wit_ControlResults :
    (row (kw 0x20 0 0 0 0 + 2) 0 .br 3 { act 0 0 0 0 with loops := [{ body := 0, last := 4, left := 2 }] } &&
      row (kw 0x21 0 0 0 0 + 2) 0 .call 3 (act 0 0 0 0) && row (kw 0x22 0 0 0 0) (2 * 2 ^ 16 + 1) .loop 1 (act 0 0 0 0) &&
      row (kw 0x23 1 0 0 0) (15 * 2 ^ 16 + 1) .wait 3 (act 0 0 0 0) && row (kw 0x0C 0 0 0 0 + 31 * 16 + 15) 0 .signal 1 (act 0 0 0 0) &&
      !(kDecode false (kw 2 3 1 2 0 + 2 ^ 25) 0).guard 1 && KTag.add == (kDecode false (kw 2 3 1 2 0 + 2 ^ 25) 0).tag) = true ∧
    (let n := { runs (kw 0x23 1 0 0 0) (15 * 2 ^ 16 + 1) (act 0 0 0 0) with
        engs := [(0, { phase := .running, act := act 0 0 0 0, flags := 2 ^ 15 })] }
     ready n 0 (kDecode false (kw 0x23 1 0 0 0) (15 * 2 ^ 16 + 1)) 3 = true ∧ bitOf (n.eng 0).flags 15 = true) := by decide +kernel

/-- A frame in queue 0 and a waiting entry of CAN channel 0, bound to slot 0, which engine 0 runs. -/
def fed (w : Nat) (a : Act) : Node :=
  { runs w 0 a with
    fab := { engq := [(engKey 0 0, [{ fid := 1 }])], frames := [(1, { data := zeros 60 })], nextFid := 2 }, chanSlot := [(0, 1)],
    chans := [(0, { rx := [{ id := 1, data := [1, 2] }, { id := 2 }], nextId := 3 })] }

/-- 04 R142; 10 R348: hypotheses of RxqResults: both kinds of source, with and without an input, and a channel bound to no slot. -/
theorem wit_RxqResults :
    let n := fed (kw 0x28 1 0 0 0) (act 0 0 0 0)
    let m := fed (kw 0x28 1 0 0 16) (act 0 0 0 0)
    let k := fed (kw 0x28 1 0 0 17) (act 0 0 0 0)
    n.slotIdx 0 = some 0 ∧ ready n 0 (kDecode false (kw 0x28 1 0 0 0) 0) 4 = true ∧ (n.engQueue 0 0).length = 1 ∧ n.engQueue 0 1 = [] ∧
    ready m 0 (kDecode false (kw 0x28 1 0 0 16) 0) 4 = true ∧ m.chanBound 0 0 = true ∧ (m.chan 0).waiting.length = 2 ∧
    ready k 0 (kDecode false (kw 0x28 1 0 0 17) 0) 4 = true ∧ FMap.get 0 k.chanSlot 1 ≠ 1 := by decide +kernel

/-- A frame header in the transmit area: 64 bytes of Ethernet data for stream 0, which table 1 has; bank 0 holds 4 free cells. -/
def sends (w : Nat) (a : Act) : Node :=
  { runs w 0 { a with tx := [(0, 64)] } with
    tabs := [{ num := 1, n := 8, entries := 16, base := 0 }], fab := { banks := [(0, { free := 4 })] } }

/-- 04 R140, R141, R143 to R145: hypotheses of EmitLaunchDrop: cells enough, cells wanting, a short area, an invalid header, a held input. -/
theorem wit_EmitLaunchDrop :
    let hdr := fun (n : Node) => (List.range 64).map (fun j => FMap.get 0 (n.eng 0).act.tx j)
    let n := sends (kw 0x29 0 0 0 0) (act 0 0 0 0)
    let y : Input := { fid := 1 }
    let m := sends (kw 0x29 0 1 0 1) { act 3 0 0 0 with input := some y }
    let l := sends (kw 0x2A 0 1 2 0) (act 5 999999999 0 0)
    let d := sends (kw 0x2B 0 0 0 1) { act 0 0 0 0 with input := some y }
    ready n 0 (kDecode false (kw 0x29 0 0 0 0) 0) 2 = true ∧ n.headerOk (hdr n) = true ∧ n.freeCells = 4 ∧
      (Node.takeCells 1 n).1.length = 1 ∧ n.headerOk (zeros 64) = false ∧
      ready m 0 (kDecode false (kw 0x29 0 1 0 1) 0) 2 = true ∧ m.ctxExists 3 = true ∧ y.src = 0 ∧ y.dropped = false ∧
      ready l 0 (kDecode false (kw 0x2A 0 1 2 0) 0) 2 = true ∧ l.headerOk (hdr l) = true ∧
      ready d 0 (kDecode false (kw 0x2B 0 0 0 1) 0) 1 = true := by decide +kernel

/-- 04 R141, R143, R145: the other hypotheses of EmitLaunchDrop: a short area, no input and a discarded one, a context that table 1 has not, no cells, a time out of range, DROP without an input. -/
theorem wit_EmitLaunchDrop_more :
    let y : Input := { fid := 1, dropped := true }
    let go := fun (w cost : Nat) (a : Act) => ready (sends w a) 0 (kDecode false w 0) cost
    let bare : Node := { sends (kw 0x2A 0 1 2 0) (act 5 9 0 0) with fab := {} }
    (go (kw 0x29 0 0 0 0) 2 { act 0 0 0 0 with short := true } && go (kw 0x29 0 1 0 1) 2 (act 3 0 0 0) && go (kw 0x29 0 1 0 1) 2 { act 3 0 0 0 with input := some y } &&
      go (kw 0x29 0 1 0 1) 2 { act 16 0 0 0 with input := some { y with dropped := false } } && !(sends 0 {}).ctxExists 16 && decide ((Node.takeCells 1 bare).1.length = 0) &&
      ready bare 0 (kDecode false (kw 0x2A 0 1 2 0) 0) 2 && go (kw 0x2A 0 1 2 0) 2 (act 5 (10 ^ 9) 0 0) && go (kw 0x2A 0 1 2 0) 2 (act (2 ^ 48) 0 0 0) &&
      go (kw 0x2A 0 1 2 0) 2 { act 5 0 0 0 with short := true } && go (kw 0x2B 0 0 0 0) 1 (act 0 0 0 0) && go (kw 0x2B 0 0 0 1) 1 (act 0 0 0 0) &&
      go (kw 0x2B 0 0 0 1) 1 { act 0 0 0 0 with input := some y }) = true := by decide +kernel

/-- A hashed and an indexed table, each with one entry used. -/
def tables (w x : Nat) (a : Act) : Node :=
  let d : TabDef := { num := 20, hashed := true, kw := 48, n := 1, entries := 8, base := 0 }
  let n := { runs w x a with tabs := [d, { num := 21, n := 2, entries := 4, base := 100 }] }
  ((n.setWord (d.ctlW false 0) 1).setWord (d.dataW false 0 - 1) 7).setWord (d.dataW false 0) 9

/-- 05 R166: a lookup in a group of eight with one entry used. -/
theorem wit_LookupFindsLowest :
    let d : TabDef := { num := 20, hashed := true, kw := 48, n := 1, entries := 8, base := 0 }
    let n := tables 0 0 {}
    8 ≤ d.entries ∧ n.lookup d false 7 = some 0 ∧ n.lookup d false 8 = none ∧ n.freeSlot d false 8 [1] = some 2 := by decide +kernel

/-- 04 R146: hypotheses of TableResults: a hit, a miss, an indexed entry, the write group. -/
theorem wit_TableResults :
    let go := fun (fn x : Nat) (t : KTag) (cost : Nat) (g1 : Nat) =>
      ready (tables (kw 0x30 3 1 2 fn) x (act g1 0 0 0)) 0 (kDecode false (kw 0x30 3 1 2 fn) x) cost && decide ((kDecode false (kw 0x30 3 1 2 fn) x).tag = t)
    (go 16 20 .tblLk 12 7 && go 16 20 .tblLk 12 8 && go 17 21 .tblRd 7 3 && go 21 20 .tblLkrd 13 7 && go 18 21 .tblWr 2 3 &&
      go 19 20 .tblIns 14 8 && go 20 20 .tblDel 12 7) = true := by decide +kernel

/-- 04 R148: hypotheses of TopoResults on the topology engine. -/
theorem wit_TopoResults :
    (row (kw 0x38 3 1 0 16) 0 .topoPstat 2 (act 3 0 0 0) 18 && row (kw 0x38 3 1 0 17) 0 .topoNbr 2 (act 3 0 0 0) 18 &&
      row (kw 0x38 0 1 2 2) 0 .topoCand 2 (act 62 0 0 0) 18 && row (kw 0x38 0 0 0 3) (7 * 2 ^ 16 + 1) .topoAgree 2 (act 0 0 0 0) 18 &&
      row (kw 0x38 0 1 2 4) 9 .topoCommit 2 (act 5 6 0 0) 18 && row (kw 0x38 0 0 0 5) 0 .topoCancel 1 (act 0 0 0 0) 18 &&
      row (kw 0x38 0 0 0 6) 0 .topoNewep 1 (act 0 0 0 0) 18 && row (kw 0x38 0 0 0 7) 0 .topoAccept 1 (act 0 0 0 0) 18 &&
      row (kw 0x38 3 0 0 8) 0 .topoTstat 2 (act 0 0 0 0) 18 && row (kw 0x38 3 0 0 9) 0 .topoLevel 2 (act 0 0 0 0) 18) = true := by decide +kernel

/-- 03 R107: hypotheses of ExceptionCodes: each offending instruction issues on an engine that holds nothing. -/
theorem wit_ExceptionCodes :
    (row (kw 1 0 0 0 2) 0 .ret 1 (act 0 0 0 0) && row (kw 0x21 0 0 0 0) 0 .call 1 { act 0 0 0 0 with stack := [0, 0, 0, 0, 0, 0, 0, 0] } &&
      row (kw 0x20 0 0 0 0 + 0x1FFFFF) 0 .br 1 (act 0 0 0 0) && row (kw 0x22 0 0 0 0) (2 * 2 ^ 16 + 1) .loop 1
        { act 0 0 0 0 with loops := [{ last := 64 }, { last := 64 }, { last := 64 }, { last := 64 }] } &&
      row (kw 0x10 3 1 0 1) 0 .ld 1 (act 0x3F 0 0 0) && row (kw 0x11 3 1 0 0) 0 .st 1 (act 0x40 0 0 0) &&
      row (kw 0x1C 3 1 2 0) 0 .lds 1 (act 16128 0 0 0) && row (kw 0x1D 0 1 2 0) 0 .sts 1 (act 16128 0 0 0) &&
      row (kw 0x0C 0 0 0 0) 0 .signal 1 { act 0 0 0 0 with outs := List.replicate 8 (.signal 0 0) } &&
      decide ((kDecode false 0 0).tag = .illegal)) = true ∧
    Unladen (runs 0 0 (act 0 0 0 0)) 0 ∧ KRow 0 (.kRet 0) .ret := by
  refine ⟨by decide +kernel, ⟨by decide +kernel, by decide +kernel, by decide +kernel, by decide +kernel⟩, ?_⟩
  simp [KRow]

/-- 03 R107; 04 R123, R146, R154: words that do not issue: past the code, with an error in their memory, illegal, at a loop's end, of a table that is absent and of registers past g31. -/
theorem wit_ExceptionCodes_fetch :
    let at' := fun (w x : Nat) (a : Act) => runs w x a
    let past := at' 0 0 { act 0 0 0 0 with pc := codeSize 0 }
    let cut := at' 0 0 (act 0 0 0 0)
    let half : Node := { cut with mem := memWrite [] (codeBase 0 + codeSize 0 - 4) (leBytes 4 (kw 0x22 0 0 0 0)), engs := [(0, { phase := .running, act := { act 0 0 0 0 with pc := codeSize 0 - 4 } })] }
    let bad : Node := { cut with poison := [codeBase 0] }
    let loops := at' (kw 1 0 0 0 2) 0 { act 0 0 0 0 with loops := [{ last := 0, left := 2 }] }
    let got := fun (n : Node) => n.fetch 0 (n.eng 0).act.pc
    ([past, half, bad, cut, loops].all (fun n => decide ((n.eng 0).phase = .running) && decide ((n.eng 0).act.cyc + 1 < (n.eng 0).act.budget)) &&
      decide (codeSize 0 < (past.eng 0).act.pc + 4) && decide (got past = .inr 2) && decide (got half = .inr 2) && bad.codeBad 0 0 && decide (got bad = .inr 7) &&
      decide (got cut = .inl (kDecode false 0 0)) && decide ((kDecode false 0 0).tag = .illegal) && decide (got loops = .inl (kDecode false (kw 1 0 0 0 2) 0)) &&
      decide ((kDecode false (kw 1 0 0 0 2) 0).tag = .ret) && (loops.eng 0).act.loops.any (fun l => l.last == (loops.eng 0).act.pc) &&
      isTblTag (kDecode false (kw 0x30 3 1 2 17) 22).tag && decide (got (at' (kw 0x30 3 1 2 17) 22 {}) = .inl (kDecode false (kw 0x30 3 1 2 17) 22)) &&
      (at' (kw 0x30 3 1 2 17) 22 {}).tab 22 == none && decide (32 < (kDecode false (kw 0x30 31 1 2 17) 21).rd + 2) && decide ((kDecode false (kw 0x30 31 1 2 17) 21).tag = .tblRd) &&
      decide (32 < (kDecode false (kw 0x30 0 1 31 18) 21).rb + 2) && decide ((kDecode false (kw 0x30 0 1 31 18) 21).tag = .tblWr)) = true := by decide +kernel

/-- 03 R95, R98; 04 R131, R132, R142 to R147: operations that issue and break a rule of their own: an address, a full list of outputs or of inputs, a table of the wrong kind, an entry past the last. -/
theorem wit_ExceptionCodes_more :
    let i0 : Input := { fid := 1 }
    let full := fun (o : Held) (k : Nat) (a : Act) => { a with outs := List.replicate k o }
    let go := fun (n : Act → Node) (w x cost : Nat) (a : Act) => ready (n a) 0 (kDecode false w x) cost
    let run := fun (w x : Nat) (a : Act) => go (runs w x) w x 1 a
    let tab := fun (w x : Nat) (a : Act) => go (tables w x) w x 1 a
    let send := fun (w : Nat) (a : Act) => go (sends w) w 0 1 a
    let hdr := (List.range 64).map (fun j => FMap.get 0 ((sends 0 {}).eng 0).act.tx j)
    (run (kw 0x12 3 1 0 1) 0 (act 0x3F 0 0 0) && run (kw 0x13 3 1 0 0) 0 (act 0x40 0 0 0) && run (kw 0x11 3 1 0 0) 0 (full (.mbox []) 64 (act 0x20FFF 0 0 0)) &&
      run (kw 0x13 3 1 0 0) 0 (full (.mbox []) 64 (act 0x20FFF 0 0 0)) && run (kw 0x14 3 1 2 0) 0 (act (2 ^ 35) 0 0 0) && run (kw 0x14 3 1 2 0) 0 (act (8 * 0x2440) 0 0 0) &&
      run (kw 0x15 3 1 2 0) 0 (act (2 ^ 35) 0 0 0) && run (kw 0x15 3 1 2 0) 0 (act 8 0 0 0) && run (kw 0x15 3 1 2 0) 0 (full (.mbox []) 64 (act (8 * 0x20FFF) 0 0 0)) &&
      go (fed (kw 0x28 1 0 0 0)) (kw 0x28 1 0 0 0) 0 1 { act 0 0 0 0 with nrx := 8 } && go (fed (kw 0x28 1 0 0 16)) (kw 0x28 1 0 0 16) 0 1 { act 0 0 0 0 with nrx := 8 } &&
      send (kw 0x29 0 0 0 0) (full (.forward 1 0) 8 (act 0 0 0 0)) && (sends 0 {}).headerOk hdr && byteAt hdr 2 == 0 &&
      send (kw 0x29 0 1 0 1) (full (.forward 1 0) 8 { act 3 0 0 0 with input := some i0 }) && i0.src == 0 && !i0.dropped && (sends 0 {}).ctxExists 3 &&
      send (kw 0x2A 0 1 2 0) (full (.forward 1 0) 8 (act 5 6 0 0)) && run (kw 0x1D 0 1 2 0) 0 (full (.sts 1 0 true 0 false) 128 (act 9 0 0 0)) &&
      run (kw 0x2B 0 0 0 0) 0 (full .dropTx 8 (act 0 0 0 0)) && tab (kw 0x30 16 1 2 16) 21 (act 0 0 0 0) && tab (kw 0x30 3 1 2 17) 21 (act 4 0 0 0) &&
      tab (kw 0x30 0 1 2 18) 21 (act 4 0 0 0) && tab (kw 0x30 3 1 2 21) 21 (act 0 0 0 0) && tab (kw 0x30 16 1 2 19) 21 (act 0 0 0 0) && tab (kw 0x30 16 1 2 20) 21 (act 0 0 0 0) &&
      tab (kw 0x30 0 1 2 18) 21 (full (.tblDel 20 1) 16 (act 3 0 0 0)) && tab (kw 0x30 16 1 2 19) 20 (full (.tblDel 20 1) 16 (act 8 0 0 0)) &&
      tab (kw 0x30 16 1 2 20) 20 (full (.tblDel 20 1) 16 (act 7 0 0 0)) && decide ((tables 0 0 {}).lookup { num := 20, hashed := true, kw := 48, n := 1, entries := 8 } false 7 ≠ none)) = true := by
  decide +kernel

/-- 03 R94, R99, R109; 10 R352: what an abort gives back: a held output's cells, an Ethernet input alone and one another holds, a field-bus entry. -/
theorem wit_ExceptionCodes_laden :
    let f : TxClosed := { hdr := [], data := [], cells := [3], launch := none }
    let a : Act := { act 0 0 0 0 with outs := [.frame f], txCells := [1], backCells := [2] }
    let n := fed 0 a
    let eth' : Input := { fid := 1 }
    let can : Input := { src := 1, chan := 0, eid := 1 }
    a.given = [1, 2, 3] ∧ a.taken = [] ∧ { a with taken := [eth'] }.taken = [eth'] ∧ (n.frame 1).refs ≤ 1 ∧ 1 < ((n.setFrame 1 { n.frame 1 with refs := 2 }).frame 1).refs ∧
      (n.chan 0).rx.find? (fun x => x.id == can.eid) = some { id := 1, data := [1, 2] } ∧ can.src = 1 ∧ eth'.src = 0 ∧ n.rd (F.FAB_BANK_STATE 0) = 1 := by decide +kernel

/-- 03 R92: two triggers are pending; hypotheses of BestTriggerWins. -/
theorem wit_BestTriggerWins :
    let t : Trig := { en := true, kind := 4, prio := 3 }
    let n := { live [] with engs := [(0, { trigs := [(2, t), (5, t)], fired := [(2, 1), (5, 1)] })] }
    FMap.wf ({} : Trig) (n.eng 0).trigs = true ∧ n.pendingTrig 0 0 5 t = true ∧ n.bestTrig 0 0 = some (2, t) := by decide +kernel

/-- Engine `e` idle at L2, with one enabled trigger of a kind, the timer's every millisecond from 5 µs on. -/
def armed (e kind : Nat) (l : List (Fld × Nat)) : Node :=
  { fed 0 {} with level := 2, loaded := true, settings := (high []).settings, regs := (live l).regs,
                  engs := [(e, { trigs := [(1, { en := true, kind := kind, src := 0, period := 1000, phase := 5 })], fired := [(1, 1)], flags := 1 })] }

/-- 03 R79, R90, R92; 02 R68: hypotheses of DispatchStarts, for every kind, and with an uncorrectable error in the frame at the head. -/
theorem wit_DispatchStarts :
    ([0, 1, 2, 3, 4, 5] : List Nat).all (fun k =>
      let n := armed 0 k [(F.SC_CTRL_RUN 0, 1)]
      decide (n.level ≤ n.allowed) && n.canDispatch 0 && decide (n.slotIdx 0 = some 0) && (n.bestTrig 0 0).isSome && (n.eng 0).ownerWr.isEmpty) = true ∧
    (let n := armed 18 6 [(F.SC_CTRL_RUN 18, 1)]
     n.canDispatch 18 = true ∧ n.slotIdx 18 = some 16 ∧ (n.bestTrig 18 16).isSome = true) ∧
    (let n := armed 0 1 []
     n.chanBound 0 0 = true ∧ (n.chan 0).waiting = [{ id := 1, data := [1, 2] }, { id := 2 }]) ∧
    (let n := armed 0 0 []
     n.engQueue 0 0 = [{ fid := 1 }] ∧ (n.frame 1).bad = false ∧ ((n.setFrame 1 { bad := true }).frame 1).bad = true) := by decide +kernel

/-- 03 R91, R100: hypotheses of TimerAndBudget: a timer not pending and one pending, at an instant of it and at another, a running activation whose next NOP reaches its budget and one whose does not. -/
theorem wit_TimerAndBudget :
    let n := armed 0 2 []
    let at' := fun us : Nat => { n with clock := { n.clock with now := us * (1000 * nsU) } }
    let tr := FMap.get {} (n.eng 0).trigs 1
    let last := runs (kw 1 0 0 0 0) 0 { act 0 0 0 0 with cyc := 999, trig := 63 }
    n.level ≤ n.allowed ∧ n.dataOn = true ∧ tr.kind = 2 ∧ tr.en = true ∧ FMap.get 0 (n.eng 0).fired 1 = 1 ∧ FMap.get 0 (n.eng 0).fired 2 = 0 ∧
      (((at' 3005).clock.now / (1000 * nsU) : Nat) - (tr.phase : Int)) % (tr.period : Int) = 0 ∧
      (((at' 3006).clock.now / (1000 * nsU) : Nat) - (tr.phase : Int)) % (tr.period : Int) ≠ 0 ∧ FMap.get (0, 0) (n.eng 0).timerAt 1 = (0, 0) ∧
      (runs (kw 1 0 0 0 0) 0 (act 0 0 0 0)).budgetDue 0 = false ∧ last.budgetDue 0 = true ∧ (last.eng 0).phase = .running ∧ (last.eng 0).act.trig = 63 ∧ ((runs 0 0 { act 0 0 0 0 with trig := 63 }).eng 0).act.trig < 64 := by decide +kernel

/-- 03 R86, R96, R99: hypotheses of BoundaryEffects: one held output of each kind, a held owner write of each form. -/
theorem wit_BoundaryEffects :
    let rel := fun (outs : List Held) => { live [] with engs := [(17, { phase := .releasing, act := { outs := outs } })] }
    let own := fun (a : Nat) => { live [] with engs := [(17, { ownerWr := [(a, 5)] })] }
    ([[], [.sts 16127 5 true 3 true], [.mbox [(0xFFF, 255, 7)]], [.signal 31 15], [.signal 15 0]] : List (List Held)).all (fun o =>
      decide ((rel o).level ≤ (rel o).allowed) && decide (((rel o).eng 17).phase = .releasing) && ((rel o).eng 17).act.taken.isEmpty) = true ∧
    (live [(F.HLT_SLOT_ENGINE 15, 31)]).boundEng 15 = none ∧ ((own (sigBase 17)).eng 17).phase = .idle ∧ sigBase 17 % 8 = 0 ∧
    (sigBase 17 + 4) % 8 = 4 ∧ ((own (sigBase 17 + 4)).eng 17).ownerWr = [(sigBase 17 + 4, 5)] := by decide +kernel

/-- Engine 17 releases one output in epoch 7; table 20 is hashed with entry 0 used, 21 indexed, 22 double-banked. -/
def releases (o : Held) (ep : Nat := 7) (e : Nat := 17) : Node :=
  let n := tables 0 0 {}
  { n with tabs := n.tabs ++ [{ num := 22, n := 1, entries := 4, base := 200, dbl := true }], regs := (live [(F.TOP_EPOCH_EPOCH, 7)]).regs,
           engs := [(e, { phase := .releasing, act := { outs := [o], ep := ep } })] }

/-- 04 R146 to R148, R151: hypotheses of BoundaryEffects for tables, topology outputs and a SIGNAL to another bound slot: writes of this epoch and of an old one, an insertion into a free and into a used entry, a deletion. -/
theorem wit_BoundaryEffects_tables :
    let d : TabDef := { num := 20, hashed := true, kw := 48, n := 1, entries := 8, base := 0 }
    let b : TabDef := { num := 22, n := 1, entries := 4, base := 200, dbl := true }
    let ok := fun (n : Node) (e : Nat) => decide (n.level ≤ n.allowed) && decide ((n.eng e).phase = .releasing) && decide ((n.eng e).act.nobuf = 0) && n.poison.isEmpty &&
      (n.eng e).act.taken.isEmpty && (n.eng e).act.txCells.isEmpty && (n.eng e).act.backCells.isEmpty && (n.eng e).ownerWr.isEmpty
    (ok (releases (.tblWr 21 3 [5, 6])) 17 && ok (releases (.tblWr 22 3 [5])) 17 && ok (releases (.tblWr 22 3 [5]) 6) 17 && ok (releases (.tblIns 20 1 8 [5])) 17 &&
      ok (releases (.tblIns 20 0 8 [5])) 17 && ok (releases (.tblDel 20 0)) 17 && ok (releases (.signal 0 5)) 17 && ok (releases (.signal 16 5)) 17 &&
      ok (releases (.topoCand 62 [1, 2, 3, 4]) 7 18) 18 && ok (releases (.topoCommit 8 5 6) 7 18) 18 && ok (releases .topoCancel 7 18) 18 && ok (releases .topoNewep 7 18) 18 &&
      ok (releases (.topoAgree 0 8) 7 18) 18 && ok (releases (.topoAgree 1 8) 7 18) 18 && ok (releases .topoAccept 7 18) 18 && isTopo .topoAccept &&
      decide ((releases .dropTx).tab 20 = some d) && decide ((releases .dropTx).tab 22 = some b) && (releases .dropTx).used d false 0 && !(releases .dropTx).used d false 1 &&
      decide ((releases .dropTx).epoch = 7) && !(releases .dropTx).inGrace && decide ((releases .dropTx).boundEng 0 = some 0)) = true := by decide +kernel

/-- 02 R49; 12 R448, R449: hypotheses of EngineRetires, with a spare and without one, at the failure and at the move. -/
theorem wit_EngineRetires :
    let n := live []
    let none' := live [(F.HLT_RETIRED_ENGINE, 2 ^ 18 - 2)]
    let mv := { live [] with engs := [(0, { moving := true })] }
    n.dataOn = true ∧ n.retired 0 = false ∧ (n.eng 0).phase ≠ .running ∧ n.slotOf 0 = some 0 ∧ n.spareEngs ≠ [] ∧ none'.spareEngs = [] ∧
      none'.slotOf 0 = some 0 ∧ (mv.eng 0).moving = true ∧ mv.level ≤ mv.allowed ∧ ({ none' with engs := [(0, { moving := true })] } : Node).spareEngs = [] ∧
      ({ none' with engs := [(0, { moving := true })] } : Node).slotOf 0 = some 0 := by decide +kernel

/-! ### Results the spec gives, worked by hand -/

/-- 04 R126: SAR fills with the sign, ROR rotates, SEXT from bit 7, BSWAP of 2 bytes clears above, CLZ of 0 is 64. -/
theorem test_alu :
    left (.kSar 0) (runs (kw 2 3 1 2 8) 0 (act (2 ^ 63) 63 0 0)) 0 3 = some (2 ^ 64 - 1) ∧
    left (.kRor 0) (runs (kw 2 3 1 2 9) 0 (act 1 1 0 0)) 0 3 = some (2 ^ 63) ∧
    left (.kSext 0) (runs (kw 2 3 1 2 0x0E) 0 (act 0x180 8 0 0)) 0 3 = some (2 ^ 64 - 128) ∧
    left (.kBswap 0) (runs (kw 2 3 1 2 0x18) 0 (act 0x112233 1 0 0)) 0 3 = some 0x3322 ∧
    left (.kClz 0) (runs (kw 2 3 1 0 0x1A) 0 (act 0 0 0 0)) 0 3 = some 64 ∧
    left (.kMulhs 0) (runs (kw 2 3 1 2 0x11) 0 (act (2 ^ 64 - 1) 2 0 0)) 0 3 = some (2 ^ 64 - 1) := by decide +kernel

/-- 04 R127: division by zero, and −2^63 by −1. -/
theorem test_division :
    left (.kDivu 0) (runs (kw 2 3 1 2 0x15) 0 (act 7 0 0 0)) 0 3 = some (2 ^ 64 - 1) ∧
    left (.kRems 0) (runs (kw 2 3 1 2 0x16) 0 (act 7 0 0 0)) 0 3 = some 7 ∧
    left (.kDivs 0) (runs (kw 2 3 1 2 0x14) 0 (act (2 ^ 63) (2 ^ 64 - 1) 0 0)) 0 3 = some (2 ^ 63) ∧
    left (.kDivs 0) (runs (kw 2 3 1 2 0x14) 0 (act (2 ^ 64 - 7) 2 0 0)) 0 3 = some (2 ^ 64 - 3) := by decide +kernel

/-- 04 R129, R134 to R136: MOVK of lane 3, SCALE rounding a tie away from zero, SAT to 8 bits. -/
theorem test_fixed :
    left (.kMovk 0) (runs (kw 0x0B 1 16 0 0 + 0xABCD) 0 (act 1 0 0 0)) 0 1 = some (0xABCD * 2 ^ 48 + 1) ∧
    left (.kScale 0) (runs (kw 0x18 3 1 2 2) 1 (act 5 10 0 0)) 0 3 = some 13 ∧
    left (.kScale 0) (runs (kw 0x18 3 1 2 2) 1 (act (2 ^ 64 - 5) 10 0 0)) 0 3 = some 7 ∧
    left (.kSat 0) (runs (kw 0x16 3 1 4 16) 0 (act 300 0 0 0)) 0 3 = some 127 ∧
    left (.kConv 0) (runs (kw 0x1A 3 1 0 0) 0 (act 1 0 0 0)) 0 3 = some 0x3F800000 := by decide +kernel

/-- 04 R130, R131: a big-endian load and a field of 4 bits in both bit orders. -/
theorem test_load :
    let inp : Input := { data := [0x12, 0x34] }
    left (.kLd 0) (runs (kw 0x10 3 1 0 5) 0 { act 0x40 0 0 0 with input := some inp }) 0 3 = some 0x1234 ∧
    left (.kLd 0) (runs (kw 0x10 3 1 0 1) 0 { act 0x40 0 0 0 with input := some inp }) 0 3 = some 0x3412 ∧
    left (.kExtb 0) (runs (kw 0x14 3 1 2 0) 0 { act (8 * 0x40) 0 0 0 with input := some inp }) 0 3 = some 1 ∧
    left (.kExtb 0) (runs (kw 0x14 3 1 2 32) 0 { act (8 * 0x40) 0 0 0 with input := some inp }) 0 3 = some 2 := by decide +kernel

/-! ### Power, levels, the Ibsum fabric -/

/-- The executive and the PCIe host. -/
def me : Master := {}
def host : Master := { id := 1 }

/-- 15 R508, R510: hypotheses of PowerInputsInService at the ends of the ranges, with the other input in range and not. -/
theorem wit_PowerInputsInService :
    (live []).mode ≠ .off ∧ (live []).on F.PWR_STATUS_PRI_OK = true ∧ (live []).on F.PWR_STATUS_BAT_OK = false ∧
      (live [(F.PWR_STATUS_PRI_OK, 0)]).on F.PWR_STATUS_PRI_OK = false ∧ (live [(F.PWR_STATUS_BAT_OK, 1)]).on F.PWR_STATUS_BAT_OK = true ∧
      (live [(F.PWR_STATUS_HOLDUP, 1)]).on F.PWR_STATUS_HOLDUP = true := by decide +kernel

/-- 15 R511; 12 R410: hypotheses of PowerDownAndUp. -/
theorem wit_PowerDownAndUp :
    let down := fun (u : Bool) (l : List (Fld × Nat)) => { State.reset.node.wrs l with unpowered := u }
    let waits := fun (l : List (Fld × Nat)) => { live l with mode := .boot, wait := .claim }
    (live [(F.PWR_STATUS_HOLDUP, 1)]).on F.PWR_STATUS_HOLDUP = true ∧ (down true []).mode = .off ∧ (down true []).level ≤ (down true []).allowed ∧
      (down false []).on F.PWR_STATUS_BAT_OK = false ∧ (down true []).unpowered = true ∧ (down true [(F.PWR_STATUS_PRI_OK, 1)]).on F.PWR_STATUS_PRI_OK = true ∧
      (waits []).single = true ∧ (waits [(F.PAIR_STATUS_POS, 1)]).single = false ∧
      (waits [(F.PAIR_STATUS_POS, 1), (F.PAIR_STATUS_PARTNER_CLAIM, 1)]).on F.PAIR_STATUS_PARTNER_CLAIM = true ∧
      (waits [(F.PAIR_STATUS_POS, 1)]).on F.PAIR_STATUS_PARTNER_CLAIM = false := by decide +kernel

/-- 12 R411; 02 R50: hypotheses of RestartCauses. -/
theorem wit_RestartCauses :
    let n := { live [(F.PAIR_STATUS_POS, 1)] with pair := { content := zeros 32 } }
    let st := { live [(F.PWR_STATUS_PRI_OK, 0)] with mode := .stabled }
    n.ctlOn = true ∧ n.single = false ∧ n.tn7Mode = false ∧ n.pair.content.length = 32 ∧ st.mode = .stabled ∧
      st.on F.PWR_DISCRETE_CAB_ACTIVE = false ∧ st.on F.PWR_STATUS_PRI_OK = false := by decide +kernel

/-- 15 R515, R525: hypotheses of TemperatureAndInputs: on each side of each limit. -/
theorem wit_TemperatureAndInputs :
    let n := live []
    let hot := { live [] with mode := .boot, wait := .overtemp }
    n.rd F.PWR_TEMP_PEAK_WALL < 256 ∧ n.on F.PWR_STATUS_TEMP_WARN = false ∧ (live [(F.PWR_STATUS_TEMP_WARN, 1)]).on F.PWR_STATUS_TEMP_WARN = true ∧
      n.wait ≠ .overtemp ∧ hot.wait = .overtemp ∧ n.on F.PWR_DISCRETE_ZERO_SPEED ≠ true ∧ n.on F.PWR_DISCRETE_CAB_ACTIVE ≠ true ∧ n.inaug.openR = false ∧
      ((110 : Int) ≤ 110 ∧ (80 : Int) ≤ 80 ∧ (104 : Int) < 105 ∧ (74 : Int) < 75 ∧ ¬ ((110 : Int) ≤ 105 ∨ (80 : Int) ≤ 75) ∧ (125 : Int) ≤ 125) := by
  decide +kernel

/-- 01 R39, R41, R43; 12 R421: hypotheses of ServiceLevels: a part that leaves the level, one that lowers it, one below FAIL_LEVEL, a rise, the rise to L2. -/
theorem wit_ServiceLevels :
    let n := { high [(F.PAIR_STATUS_PARTNER_STATE, 2), (F.PAIR_STATUS_PARTNER_PROVEN, 3)] with level := 3 }
    let fails := fun (r : Res) => { n with failed := [r] }
    let low := { high [] with level := 1, inaug := { lostL2 := true } }
    n.level ≤ n.allowed ∧ Res.lineA ∉ n.failed ∧ (fails .lineA).allowed = 3 ∧ (fails .bridge).allowed = 2 ∧ n.rd F.PAIR_CTRL_FAIL_LEVEL = 2 ∧
      (fails .topology).allowed = 1 ∧ n.tn7Mode = false ∧ n.rd F.PAIR_STATUS_PARTNER_STATE = 2 ∧ n.rd F.PAIR_STATUS_PARTNER_PROVEN = 3 ∧
      (fails .bridge).working < n.level ∧ low.level < low.allowed ∧ low.inaug.lostL2 = true ∧ n.dataOn = true := by decide +kernel

/-- 13 R463, R480: hypotheses of LogAndFlash; the node is settled. -/
theorem wit_LogAndFlash :
    let n := live [(F.HLT_REPORT_MARGIN, 1)]
    let bare := { live [] with flash := { retired := (List.range 328).map (fun k => k) } }
    (n.level ≤ n.allowed ∧ (∀ l, l < 2 → n.on (F.BBL_RELAY_DRIVE_OPEN l) = n.driveOpen l ∧ n.on (F.BBL_RELAY_CLOSED l) = !n.driveOpen l) ∧
      n.on F.HLT_REPORT_MARGIN = n.margin) ∧ n.ctlOn = true ∧ 4095 ∉ n.flash.retired ∧ n.flashSpare 1 ≠ 0 ∧ bare.flashSpare 0 = 0 ∧
      4095 ∉ bare.flash.retired := by decide +kernel

/-- `Passes` and `RegPasses` as computations. -/
def passes (n : Node) (x : Access) : Bool :=
  decide (n.brg.lock = none) && decide (n.brg.stalled = []) && n.reaches (n.presented x.m) && n.protOk { x with m := n.presented x.m } &&
    (!x.wr || n.mayWrite { x with m := n.presented x.m })

theorem passes_sound (n : Node) (x : Access) (h : passes n x = true) : Passes n x := by
  simp only [passes, Bool.and_eq_true, decide_eq_true_eq, Bool.or_eq_true] at h
  refine ⟨h.1.1.1.1, h.1.1.1.2, h.1.1.2, h.1.2, fun w => ?_⟩
  have k := h.2
  simpa [w] using k

def regPasses (n : Node) (m : Master) (r : Reg) (v : Nat) : Bool :=
  passes n (wordWrite m r.addr v) && !n.regUnpowered r && decide (n.mode ≠ .updating) &&
    (decide (cmdOf r v = 0) || (n.legal r (cmdOf r v) && !n.cmdBusy r)) && !reservedIn r (v % 2 ^ 32)

theorem regPasses_sound (n : Node) (m : Master) (r : Reg) (v : Nat) (h : regPasses n m r v = true) : RegPasses n m r v := by
  simp only [regPasses, Bool.and_eq_true, decide_eq_true_eq, Bool.or_eq_true, Bool.not_eq_true'] at h
  refine ⟨passes_sound _ _ h.1.1.1.1, h.1.1.1.2, h.1.1.2, fun c => ?_, h.2⟩
  exact h.1.2.resolve_left c

/-- 05 R173 to R178; 13 R456; 14 R485: hypotheses of AccessRefusals: an undecoded address, no region, a region without rights, no ownership, a command not legal in COLD_STANDBY. -/
theorem wit_AccessRefusals :
    let n := live []
    let region := live [(F.PRO_REGION_RIGHTS_EN 3, 1), (F.PRO_REGION_LIMIT_ADDR 3, 0xFFFFF)]
    let owned := live [(F.MGT_OWNER_ID, 2)]
    let cold := { live [] with mode := .coldStandby }
    n.brg.lock = none ∧ n.brg.stalled = [] ∧ n.reaches (n.presented host) = true ∧ targetOf 0x40000 = none ∧ targetOf 0x10600024 = some .regs ∧
      n.region 0x10600024 = none ∧ region.region 0x10600024 = some 3 ∧ bitOf (region.rd (F.PRO_REGION_RIGHTS_RW 3)) 1 = false ∧
      owned.owns me = false ∧ owned.protOk (wordWrite me 0x10600024 4) = true ∧ passes cold (wordWrite me Reg.MGT_CMD.addr 2) = true := by decide +kernel

/-- 00 R11: hypotheses of RegisterFields, for a register of RW fields. -/
theorem wit_RegisterFields : regPasses (live []) me .BRG_LOCK_OFFSET 4 = true ∧ regAt Reg.BRG_LOCK_OFFSET.addr = some .BRG_LOCK_OFFSET ∧
    targetOf Reg.BRG_LOCK_OFFSET.addr = some .regs ∧ cmdOf .BRG_LOCK_OFFSET 4 = 0 ∧ (∀ f ∈ Reg.BRG_LOCK_OFFSET.fields, f.acc ≠ .WB) := by decide +kernel

theorem wit_RegisterFields_set (n : Node) (k : Nat) : Node.regWrite n me .BRG_LOCK_OFFSET k = n.regSet .BRG_LOCK_OFFSET k := rfl

/-- 00 R533; 07 R252: hypotheses of CapturedReads, for the node time, the last counter of the last port and its delta view. -/
theorem wit_CapturedReads :
    let n := live []
    let held := (n.capture me 0x10100010 [(0, 0), (1, 5)])
    passes n (wordRead me 0x10100010) = true ∧ passes held (wordRead me 0x10100014) = true ∧ (held.capAt (held.presented me) 0x10100010).isSome = true ∧
      passes n (wordRead me (Reg.PRT_CNT_LO 22 63).addr) = true ∧ passes n (wordRead me (Reg.PRT_DELTA 22 63).addr) = true ∧ n.dataOn = true := by
  decide +kernel

/-- 03 R88, R117: hypotheses of MemoryWrites, at the last word of each memory of engine 17. -/
theorem wit_MemoryWrites :
    let n := live []
    Memory.wf n.mem = true ∧ passes n (wordWrite me 0x2FFFFC 5) = true ∧ passes n (wordWrite me (mboxBase 17 + 0xFFC) 5) = true ∧
      passes n (wordWrite me (codeBase 17 + codeSize 17 - 4) 5) = true ∧ n.on (F.SC_CTRL_RUN 17) = false ∧
      passes n (wordWrite me (sigBase 17 + 0x3EFFC) 5) = true ∧ (sigBase 17 + 0x3EFFC) % 8 = 4 ∧ n.holdAt (n.presented me) (sigBase 17 + 0x3EFF8) = none := by
  decide +kernel

/-- 02 R54: hypotheses of TableWindow: the two half words of an indexed entry of one word. -/
theorem wit_TableWindow :
    let d : TabDef := { num := 21, n := 1, entries := 4, base := 8 }
    let n := { live [] with tabs := [d] }
    passes n (wordWrite me 0x40000044 5) = true ∧ n.dataOn = true ∧ d.num ∉ [1, 3, 4, 5] ∧ d.hashed = false ∧ d.dbl = false ∧
      (match n.tabPlace ((0x40000044 - 0x40000000) / 8) with
       | .entry x sh i j => decide (x = d) && !sh && i == 0 && j == 0
       | _ => false) = true := by decide +kernel

/-- Word `w` of table memory is word `j` of entry `i` in this view of the table. -/
def inEntry (n : Node) (w : Nat) (d : TabDef) (sh : Bool) (i j : Nat) : Bool :=
  match n.tabPlace w with
  | .entry x s k l => decide (x = d) && s == sh && k == i && l == j
  | _ => false

/-- 02 R54; 05 R166; 06 R196 to R215: hypotheses of TableWindow for the key and the data word of a hashed entry and the group's control word, for the shadow bank of a double-banked table, and for tables 1, 3, 4 and 5 at their last half words, in bytes, half words and words. -/
theorem wit_TableWindow_more : all (
    let hash : TabDef := { num := 20, hashed := true, kw := 16, n := 1, entries := 16, base := 100 }
    let two : TabDef := { num := 21, n := 1, entries := 4, base := 8, dbl := true }
    let t := fun (num words entries base : Nat) => ({ num := num, n := words, entries := entries, base := base } : TabDef)
    let n := { live [] with tabs := [hash, two, t 1 8 4 200, t 3 2 4 240, t 4 4 4 260, t 5 4 24 300] }
    let at' := fun (w : Nat) => 0x40000000 + 8 * w
    let wr := fun (w o size : Nat) => passes n { wordWrite me (at' w + o) 5 with size := size }
    [inEntry n 133 hash false 15 1, inEntry n 132 hash false 15 0, wr 133 4 4, wr 133 7 1, wr 133 6 2, wr 132 4 4, inEntry n 14 two true 2 0, wr 14 4 4,
      !n.inGrace, inEntry n 207 (t 1 8 4 200) false 0 7, wr 207 4 4, inEntry n 241 (t 3 2 4 240) false 0 1, wr 241 4 4, wr 240 0 4,
      inEntry n 263 (t 4 4 4 260) false 0 3, wr 263 7 1, inEntry n 383 (t 5 4 24 300) false 20 3, wr 383 6 2, n.dataOn, decide (at' 383 < 0x40600000),
      (match n.tabPlace 117 with
       | .ctl d sh => decide (d = hash) && !sh
       | _ => false), wr 117 0 4, wr 117 4 4]) = true := by decide +kernel

/-- 13 R459; 14 R501: hypotheses of AccessRefusals: code memory written by the host and by the executive while RUN is 1, MGT.CMD while a stabling is in progress, FREEZE during a capture, and a request of the host that no BAR presents. -/
theorem wit_AccessRefusals_more : all (
    let n := { live [(F.SC_CTRL_RUN 17, 1), (F.PRO_REGION_RIGHTS_EN 0, 1), (F.PRO_REGION_RIGHTS_RW 0, 0x3FF), (F.PRO_REGION_BASE_ADDR 0, 0),
                (F.PRO_REGION_LIMIT_ADDR 0, 0xFFFFF)] with fab := { freezing := true }, pair := { stabling := 1 } }
    let code := fun (e : Nat) => codeBase e + codeSize e - 4
    let isCode := fun (e : Nat) => decide (targetOf (code e) = some (.code e))
    [isCode 17, isCode 18, n.protOk { wordWrite host (code 18) 5 with m := n.presented host }, (n.presented host).id == 1,
      n.protOk { wordWrite me (code 17) 5 with m := n.presented me }, n.on (F.SC_CTRL_RUN 17), decide (code 17 % 4 = 0), decide (code 18 % 4 = 0),
      passes n (wordWrite me Reg.FAB_FREEZE.addr 1), decide (cmdOf .FAB_FREEZE 1 = 1), n.legal .FAB_FREEZE 1, !n.regUnpowered .FAB_FREEZE, n.fab.freezing,
      decide (regAt Reg.FAB_FREEZE.addr = some .FAB_FREEZE), decide (targetOf Reg.FAB_FREEZE.addr = some .regs),
      passes n (wordWrite me Reg.MGT_CMD.addr 2), decide (cmdOf .MGT_CMD 2 = 2), n.legal .MGT_CMD 2, n.cmdBusy .MGT_CMD,
      n.reaches host, decide (0 < (n.wr (F.HLT_PVIOL_COUNT 21) 1).rd (F.HLT_PVIOL_COUNT 21))]) = true := by decide +kernel

/-- 03 R118: hypotheses of EngineControls at engine 18. -/
theorem wit_EngineControls :
    let n := live []
    (regPasses n me (.SC_CTRL 18) 1 && regPasses n me (.SC_CTRL 18) 2 && regPasses n me (.SC_CTRL 18) 4 && regPasses n me (.SC_DOORBELL 18) 1 &&
      FMap.wf ({} : Trig) (n.eng 18).trigs) = true := by decide +kernel

/-- 05 R172; 07 R266, R269: hypotheses of BootDoneAndRelays. -/
theorem wit_BootDoneAndRelays :
    let n := live []
    (regPasses n me .PRO_CTRL 1 && regPasses n me (.BBL_RELAY 1) (2 ^ 29) && regPasses n me (.BBL_RELAY 1) (2 ^ 28) && !n.on F.PRO_CTRL_BOOT_DONE &&
      (live [(F.PRO_CTRL_BOOT_DONE, 1)]).on F.PRO_CTRL_BOOT_DONE && !n.on F.PRO_VIOL_VALID && !n.on (F.BBL_RELAY_MISMATCH 1)) = true := by decide +kernel

/-- 05 R179: a REQUEST of the host while another owner holds the node stays pending; 00 R10: a one in a reserved bit stops. -/
theorem test_bus :
    (match exec (.request host)
       { node := live [(F.MGT_OWNER_ID, 2), (F.PRO_REGION_RIGHTS_EN 0, 1), (F.PRO_REGION_RIGHTS_RW 0, 0x3FF), (F.PRO_REGION_LIMIT_ADDR 0, 0xFFFFF)] } with
     | .next t => t.node.on F.MGT_OWN_PEND_VALID && t.node.rd F.MGT_OWN_PEND_ID == 1 && t.node.rd F.MGT_OWNER_ID == 2
     | _ => false) = true ∧
    (match exec (.registerWrite me Reg.BRG_LOCK_OFFSET.addr 4 1) { node := live [] } with
     | .fault f => decide (f = .reservedBit 0x10600024)
     | _ => false) = true := by decide +kernel

/-! ### Ports and buffers -/

/-- `Node.fits` as a computation. -/
def fit (n : Node) : Bool := decide (n.level ≤ n.allowed)

/-- Port 0 (line A, end 0) native and up at gear 1 with the partner's record exchanged; ports 2, 4 and 19 up. -/
def linked (l : List (Fld × Nat)) : Node :=
  live ([(F.BBL_RELAY_CLOSED 0, 0), (F.PRT_STATUS_LINK 0, 1), (F.BBL_STATUS_HITLESS 0 0, 1), (F.BBL_STATUS_GEAR 0 0, 1), (F.PRT_STATUS_RATE 0, 2), (F.PRT_STATUS_LINK 2, 1),
    (F.PRT_STATUS_LINK 4, 1), (F.PRT_STATUS_RATE 4, 2), (F.PRT_STATUS_LINK 19, 1), (F.PRT_STATUS_RATE 19, 5)] ++ l)

/-- A frame of `k` bytes with this type and data. -/
def eth (ty : Nat) (l : List Byte) (k : Nat := 60) : List Byte := zeros 6 ++ zeros 6 ++ beBytes 2 ty ++ l ++ zeros (k - 14 - l.length)

/-- 12 R431 to R433; 07 R266: hypotheses of EmptyQueueTicks at the end of the gap of a takeover, with a recorded neighbour on a line that is up, and with a port whose PHY is disconnected; every port that shows a link has one. -/
theorem wit_EmptyQueueTicks_more : all (
    let up : Node := { (linked []).setTopPort 0 { recSet := true } with level := 1, pair := { gapAt := some 0 }, clock := { fresh := 25000 } }
    let off := linked [(F.BBL_RELAY_CLOSED 0, 1), (F.PRT_STATUS_LINK 2, 0)]
    [fit up, decide (up.mode = .active), decide (1 ≤ up.level), decide (up.pair.gapAt = some 0), decide (0 + 25000 ≤ up.clock.fresh), up.linkUp 0,
      (up.topPort 0).recSet, !(up.topPort 2).recSet, (List.range 4).all (fun p => !up.on (F.PRT_STATUS_LINK p) || up.linkUp p), fit off, off.linksServed,
      !off.joined 0, off.on (F.PRT_STATUS_LINK 0)]) = true := by decide +kernel

/-- 09 R313, R314: hypotheses of EmptyQueueTicks, unpowered and in service. -/
theorem wit_EmptyQueueTicks :
    fit State.reset.node = true ∧ State.reset.pending = [] ∧ State.reset.node.mode = .off ∧ fit (live []) = true ∧ (live []).brg.stalled = [] ∧
      (live []).mode ≠ .off ∧ (live []).clock.slew = 0 ∧ (live []).clock.out ≤ 256000000000 ∧ 0 ≤ (live []).clock.sub := by decide +kernel

/-- 07 R238 to R254; 06 R209 to R223: hypotheses of PortFlow, clause by clause; counters at the change of bit 39 and of the wrap. -/
theorem wit_PortFlow :
    let n : Node := linked []
    let pause : WireFrame := { bytes := eth 0x8808 (beBytes 2 1 ++ beBytes 2 0xFFFF) }
    let at39 : Node := { n with cnt := [(63, 2 ^ 39 - 1), (64, 2 ^ 40 - 1)] }
    let pfc : Node := n.setPort 4 { n.port 4 with pfcSent := 128 }
    let d : TabDef := { num := 4, n := 4, entries := 8, base := 8 }
    let rec4 : Node := { n with tabs := [d] }
    (bitOf (2 ^ 39 - 1) 39 != bitOf (FMap.get 0 at39.cnt 63 + 1) 39) = true ∧ fit n = true ∧ n.receives 19 = true ∧
      60 ≤ pause.bytes.length ∧ pause.bytes.length + 4 ≤ n.rd (F.PRT_CTRL_MAXLEN 19) ∧ beAt pause.bytes 12 2 = 0x8808 ∧
      beAt pause.bytes 14 2 = 1 ∧ n.rd (F.PRT_STATUS_PAUSED 19) < 256 ∧ n.mbps 19 ≠ 0 ∧ n.canPreempt 19 = true ∧
      (n.wr (F.PRT_STATUS_PREEMPT 19) 1).rd (F.PRT_STATUS_PREEMPT 19) = 1 ∧ (n.port 19).verify < 3 ∧
      3 ≤ ((n.setPort 19 { n.port 19 with verify := 3 }).port 19).verify ∧ n.linkUp 4 = true ∧ (linked [(F.PRT_CTRL_EEE_EN 4, 1)]).on (F.PRT_CTRL_EEE_EN 4) = true ∧
      n.portIdle 4 = true ∧ n.gateCycle 4 = 0 ∧ n.on (F.PRT_STATUS_LPI_TX 4) = false ∧ n.canTx 4 = true ∧ n.quiet 4 = false ∧
      n.pfcWaits 4 = false ∧ (n.port 4).eee = false ∧ ((n.setPort 4 { eee := true }).port 4).eee = true ∧
      (linked [(F.PRT_STATUS_LPI_TX 4, 1)]).on (F.PRT_STATUS_LPI_TX 4) = true ∧
      (n.setPort 4 { tx := some { fid := 1, stream := 4096, cls := 0 } }).portIdle 4 = false ∧
      ({ n with tabs := [{ num := 5, n := 4, entries := 32, base := 8 }], mem := memWrite [] (tabAddr 24) (leBytes 8 (2 ^ 56)) }).pfcWaits 4 = true ∧
      bitOf (pfc.port 4).pfcSent 7 = true ∧ bitsOf (n.tabW 5 4 2) 47 32 ≤ n.charge 4 7 ∧ n.rd (F.FAB_BANK_STATE 0) = 1 ∧
      rec4.tab 4 = some d ∧ rec4.entryOk d false 7 = true := by decide +kernel

/-- A stored frame 1 with a copy of class `c` queued on port `p`, and one launched at `due`. -/
def queued (p c : Nat) (refs : Nat) (y : Port := {}) (due : Option Nat := none) : Node :=
  let n : Node := linked [(F.PRT_STATUS_PREEMPT p, 2)]
  { n with ports := [(p, y)], fab := { n.fab with frames := [(1, { data := eth 0x0800 [], refs := refs, cells := [0] })],
                                                   egress := [(p * 8 + c, [{ fid := 1, stream := 4096, cls := c }])],
                                                   launches := [(p, due.toList.map (fun d => { fid := 1, stream := 4096, cls := c, launch := some d }))], nextFid := 2 } }

/-- 06 R213, R221; 07 R239; 09 R338: hypotheses of EgressAndLaunch: an idle port, a preemptable frame in progress of which a fragment may be cut and one of which none may, a last and a shared copy, a launch in time and one late. -/
theorem wit_EgressAndLaunch :
    let x : Copy := { fid := 1, stream := 4096, cls := 7, launch := none }
    let y : Copy := { fid := 1, stream := 4096, cls := 0 }
    let go := fun n : Node => !n.txBlocked 19 && (n.port 19).susp.isNone && decide (n.egQueue 19 7 = [x]) && n.classReady 19 7 && fit n &&
      decide (n.rd (F.PRT_STATUS_PREEMPT 19) = 2) && n.fab.descs.isEmpty &&
      (match n.edit x 19 with
       | .send b => decide (b.length + 4 ≤ n.rd (F.PRT_CTRL_MAXLEN 19)) && !(n.frame 1).bad
       | _ => false)
    let due : Nat → Node := fun t => let n : Node := queued 19 7 2 {} (some 5)
      { n with clock := { n.clock with now := t } }
    let cut : Node := let n : Node := queued 19 7 2 { tx := some y, txBytes := zeros 1500 }
      { n with clock := { n.clock with cycles := 100 } }
    (64 ≤ cut.sentBytes 19 && 64 * (cut.rd (F.PRT_CTRL_FRAG 19) + 1) ≤ cut.sentBytes 19 && 64 ≤ cut.bytesLeft 19 && decide (((cut.port 19).mark) = none) &&
      !(queued 19 7 2 { tx := some y }).preemptable 19 && !cut.fab.moving && go (queued 19 7 1) && go (queued 19 7 2 { tx := some y }) && decide ((queued 19 7 1 { tx := some x }).port 19 = { tx := some x }) &&
      decide (((queued 19 7 2).frame 1).refs = 2) && decide (((queued 19 7 1).frame 1).refs = 1) &&
      (match dueLaunch ((FMap.get [] (due 5).fab.launches 19).filter (fun z => (due 5).isDue 19 z && !(due 5).launchWaits 19 z)) with
       | some z => decide (z.launch = some 5) && (due 5).beforeSilence 19 ((due 5).wireTime 19 ((due 5).copyLen 19 z)) && (due 5).txConst 19 == 0 &&
           (due 5).clock.now - 5 == 0 && !bitOf ((due 5).rd (F.TIM_LAUNCHCFG_LATE_SEND 19)) z.cls &&
           (due 5).rd (F.TIM_LAUNCHCFG_LATE_WIN 19) * 65536 < (due 99999999).clock.now - 5
       | none => false)) = true := by decide +kernel

/-- 07 R258, R259; 06 R204; 12 R408: hypotheses of Links on a backbone and on a consist port, and with the data island off. -/
theorem wit_Links :
    let n : Node := live [(F.BBL_RELAY_CLOSED 0, 0), (F.BBL_MODE_MODE 1 1, 2)]
    let c := fun k : Nat => let m := linked []
      m.setPort 0 { m.port 0 with capN := k }
    let off : Node := { live [(F.PWR_ISLANDS_DATA, 0)] with mode := .coldStandby }
    fit n = true ∧ n.dataOn = true ∧ n.linksServed = true ∧ off.linksServed = false ∧ off.rateOk 15 3 = true ∧ fit off = true ∧ n.rateOk 0 2 = true ∧ n.rateOk 15 3 = true ∧ n.joined 0 = true ∧ n.joined 15 = true ∧
      n.on (F.PRT_STATUS_LINK 0) = false ∧ (linked []).on (F.PRT_STATUS_LINK 19) = true ∧ n.rd (F.BBL_MODE_MODE (lineOf 3) (endOf 3)) = 2 ∧
      n.on (F.PRT_STATUS_LINK 3) = false ∧ (c 0).nativeUp 0 = true ∧ ((c 0).port 0).capGot = false ∧ ((c 0).port 0).capN = 0 ∧ 0 < ((c 9).port 0).capN ∧ ((c 9).port 0).capN < 10 ∧ ((c 10).port 0).capN = 10 := by
  decide +kernel

/-- 07 R260 to R265: hypotheses of Gears: a port that may ask, be asked, has asked, has agreed, is silent, and a bad margin at gear 4. -/
theorem wit_Gears :
    let n : Node := linked [(F.BBL_MODE_ALLOWED 0 0, 7), (F.BBL_GEARCFG_SNR_UP 0 0, 10), (F.BBL_GEARCFG_SNR_DOWN 0 0, 5)]
    let sh : Shift := { gear := 3, start := 3276800000, mine := true }
    let put := fun x : Shift => n.setPort 0 { n.port 0 with shift := some x }
    n.hitless 0 = true ∧ (n.port 0).shift = none ∧ n.gearBarred = false ∧ n.gateCycle 0 = 0 ∧ n.rd (F.BBL_STATUS_GEAR 0 0) = 1 ∧
      bitOf (n.rd (F.BBL_MODE_ALLOWED 0 0)) 2 = true ∧ n.rd (F.BBL_GEARCFG_SNR_UP 0 0) ≤ 10 ∧ (n.port 0).lastDown = 0 ∧
      (n.rd (F.BBL_MODE_LOAD_DOWN 0 0) = 0 ∨ n.rd (F.BBL_MODE_LOAD_UP 0 0) < 255) ∧ regPasses n me (.BBL_GEARCMD 0 0) 4 = true ∧
      n.gearAllowed 0 4 = true ∧ n.clock.now + 50 * 65536000 ≤ 3276800000 ∧ n.inFree 0 3276800000 = true ∧
      ({ n with inaug := { n.inaug with confirmed := true } }).gearBarred = true ∧ ((put sh).port 0).shift = some sh ∧ (put sh).hitless 0 = true ∧
      ((put { sh with acked := true }).port 0).tx = none ∧ ((put { sh with acked := true }).port 0).wanted = none ∧ n.gearBarred = false ∧
      2 ≤ (linked [(F.BBL_STATUS_GEAR 0 0, 4)]).rd (F.BBL_STATUS_GEAR 0 0) ∧ sh.tries < 3 ∧ sh.gear < 5 ∧ fit (put { sh with silent := true }) = true ∧
      4 < n.rd (F.BBL_GEARCFG_SNR_DOWN 0 0) ∧ (linked [(F.BBL_STATUS_GEAR 0 0, 4)]).rd (F.BBL_STATUS_GEAR 0 0) = 4 := by decide +kernel

/-- 06 R189; 07 R233, R250; 08 R284: hypotheses of Reception: a frame with and without an FCS error, at L1 without the topology engine, at L2 with and without a context, a context that is not valid, and wake patterns in a stabled node and a standby. -/
theorem wit_Reception :
    let f : WireFrame := { bytes := eth 0x0800 [] }
    let n : Node := linked []
    let one : Node := { linked [] with level := 1, loaded := true, failed := [.topology] }
    let two : Node := { high [(F.PRT_STATUS_LINK 4, 1), (F.PRT_STATUS_RATE 4, 2)] with level := 2 }
    let b := f.bytes ++ leBytes 4 (crc32 f.bytes)
    let wake : Mode → Node := fun m =>
      let v := live [(F.PRT_WAKE_CTRL_EN 0, 1), (F.PRT_WAKE_CTRL_PORTS 0, 0xFFF), (F.PRT_WAKE_CTRL_STANDBY 0, 1), (F.PRT_WAKE_MASK_MASK 0 0, 0xFF),
        (F.PRT_WAKE_CHECK_CHECK 0, crc32c (b.take 8))]
      { v with mode := m }
    let d : TabDef := { num := 0, hashed := true, kw := 64, n := 1, entries := 8, base := 0 }
    let five : Node := { two with tabs := [d, { num := 5, n := 4, entries := 32, base := 100 }] }
    let three := (((five.setWord (d.ctlW false 0) 1).setWord (d.dataW false 0 - 1) (2 ^ 62 + 4)).setWord (d.dataW false 0) 9).setWord 116 (2 ^ 54)
    (decide (three.classify (untag f.bytes) 4 = some 9) && !two.isTopoGram f.bytes && fit n && n.receives 4 && !n.hbTakes 4 f && fit one && one.receives 0 && !one.topoWorks && one.linkUp (acrossOf 0) && decide (pauseOp f.bytes = none) &&
      decide (cellsFor f.bytes.length ≤ { one with regs := one.regs, fab := { one.fab with banks := [(0, { free := 9 })] } }.freeCells) && fit two &&
      two.receives 4 && !two.isPtp 4 f.bytes && !two.isBridge f.bytes && decide (two.classify (untag f.bytes) 4 = none) && !two.ctxValid 4095 &&
      decide ((wake .stabled).wakeFind 4 f = some 0) && decide ((wake .coldStandby).wakeFind 15 f = some 0)) = true := by decide +kernel

/-- A node with the valid context 5, which sends to port 4. -/
def streams : Node :=
  { high [(F.PRT_STATUS_LINK 4, 1)] with
    level := 2, tabs := [{ num := 1, n := 4, entries := 8, base := 8 }],
    mem := memWrite [] (tabAddr 28) (leBytes 8 (2 ^ 63) ++ leBytes 8 (2 ^ 4)), fab := { banks := [(0, { free := 9 })] } }

/-- `PlainTo` as a computation. -/
def plainTo (n : Node) (f : Frame) (c q : Nat) : Bool :=
  n.ctxValid c && bitsOf (n.tabW 1 c 0) 59 58 == 0 && decide (4 ≤ q ∧ q < 20) && (List.range 23).all (fun p => bitOf (n.tabW 1 c 1) p == (p == q)) && f.ingress != q &&
    !f.oversize && n.linkUp q && decide (2 ≤ n.level) && n.forwards && n.admits q (bitsOf (n.tabW 1 c 0) 62 60) n.freeCells && !bitOf (n.tabW 1 c 0) 40 && decide (n.ract c < 2)

/-- 03 R84, R96; 04 R143, R144; 09 R336, R337: hypotheses of BoundaryEffects for frames: one closed by EMIT, one by LAUNCH in range and too far ahead, a held input forwarded. -/
theorem wit_BoundaryEffects_frames :
    let hdr := leBytes 2 60 ++ zeros 2 ++ leBytes 2 5 ++ zeros 58
    let f : TxClosed := { hdr := hdr, data := zeros 60, cells := [0], launch := none }
    let n := fun o : Held => { streams with fab := { streams.fab with frames := [(1, { data := zeros 60, cells := [0], refs := 1 })], nextFid := 2 }, engs := [(17, { phase := .releasing, act := { outs := [o] } })] }
    let ok := fun o : Held => fit (n o) && ((n o).eng 17).phase == .releasing && (n o).poison.isEmpty &&
      plainTo ((n o).ctxCounted 5 60) { ingress := 22 } 5 4
    (ok (.frame f) && ok (.frame { f with launch := some 7 }) && ok (.frame { f with launch := some (2 ^ 70) }) && ok (.forward 1 5) && !bitOf (byteAt hdr 3) 0 && byteAt hdr 2 == 0 &&
      leAt hdr 4 2 == 5 && !streams.isBridge (zeros 60) && decide (cellsFor 60 ≤ 1) && decide (7 ≤ (n .dropTx).clock.now + secU) && decide ((n .dropTx).clock.now + secU < 2 ^ 70) &&
      decide ((FMap.get [] (n .dropTx).fab.launches 4).length < 64) && decide (1 ≤ ((n .dropTx).frame 1).refs)) = true := by decide +kernel

/-- An Ethernet frame with an IPv4 packet from one address to another. -/
def ip (src dst : Nat) : List Byte := eth 0x0800 ([0x45] ++ zeros 11 ++ beBytes 4 src ++ beBytes 4 dst)

/-- At position 2 in epoch 7, after epoch 6, both backbone ports of line A and one of line B up; context `5` routes by the train tables with LINES `l`: position 3 by P2, host 9 by P4, old position 1 now 3. -/
def routed (l : Nat) (b : List Byte) (more : List (Fld × Nat) := []) : Node :=
  let d : TabDef := { num := 11, hashed := true, kw := 14, n := 1, entries := 8, base := 300 }
  let n : Node := { high ([(F.TOP_EPOCH_EPOCH, 7), (F.TOP_INAUG_POSITION, 2), (F.PRT_STATUS_LINK 4, 1), (F.BBL_RELAY_CLOSED 0, 0), (F.BBL_RELAY_CLOSED 1, 0), (F.PRT_STATUS_LINK 0, 1), (F.BBL_STATUS_GEAR 0 0, 1),
      (F.PRT_STATUS_LINK 1, 1), (F.BBL_STATUS_GEAR 1 0, 1), (F.PRT_STATUS_LINK 2, 1), (F.BBL_STATUS_GEAR 0 1, 1)] ++ more) with
    level := 2, inaug := { graceEnd := some 5 }, fab := { banks := [(0, { free := 9 })], frames := [(1, { data := b })] },
    tabs := [{ num := 1, n := 4, entries := 8, base := 8 }, { num := 9, n := 1, entries := 64, base := 128 }, { num := 10, n := 1, entries := 64, base := 200 }, d] }
  ((((((n.setWord 28 (2 ^ 63 + 2 ^ 58 + l * 2 ^ 56)).setWord 128 0x2800).setWord 131 (2 ^ 63 + 4)).setWord 200 (2 ^ 16 + 6)).setWord 201 (2 ^ 63 + 3)).setWord (d.ctlW false (9 % 8)) (2 ^ (9 % 8)) |>.setWord
    (d.dataW false (9 % 8) - 1) 9).setWord (d.dataW false (9 % 8)) (4 * 2 ^ 48)

/-- 06 R203; 08 R287, R298 to R304: the hypotheses of Reception at L2 on a backbone port: a barred port, LINES with a port that takes, one that is barred and one that is down, a train route, a host of the node, a miss, the old numbering. -/
theorem wit_Reception_train : all (
    let here := trainAddr 2 9
    let far := trainAddr 3 1
    let old := trainAddr 1 1
    let own := 0x0A000000 + 9
    let n := routed 0 (ip own far)
    let f := fun b : List Byte => ({ data := b, ingress := 22, stamp := 7 } : Frame)
    let bar := routed 0 [] [(F.TOP_INAUG_BARRED, 1)]
    let down := routed 0 [] [(F.PRT_STATUS_LINK 0, 0)]
    let wire : WireFrame := { bytes := ip own far }
    let c : Copy := { fid := 1, stream := 5, cls := 0, stamp := 7 }
    let aged : Node := n.setTopPort 0 { stale := true }
    let marked := routed 0 [] [(F.BBL_STATUS_HITLESS 0 0, 1)]
    [fit n, n.receives 0, !n.hbTakes 0 wire, !n.barred 0, !topoFrame wire.bytes, decide (pauseOp wire.bytes = none), bar.barred 0, decide (2 ≤ n.level), decide (n.classify (untag wire.bytes) 0 = none), !n.isPtp 0 wire.bytes, !n.isBridge wire.bytes, !n.isTopoGram wire.bytes,
      decide (bar.destSet (f []) 5 [0] = []), decide (n.destSet (f []) 5 [0] = [0]), decide (down.destSet (f []) 5 [0] = [1]), decide (aged.destSet (f []) 5 [0] = [1]), decide ((routed 3 []).destSet (f []) 5 [1] = [0, 1]),
      !down.linkUp 0, down.linkUp 1, down.served 1, marked.on (F.BBL_STATUS_HITLESS 0 0), !marked.on (F.BBL_STATUS_COMPAT 0 0), !n.on (F.BBL_STATUS_HITLESS 0 0),
      isTrain far, isTrain here, !isTrain own, n.isConsist false own, n.ownPos 7 2, !n.ownPos 7 3, decide (n.trainFind 11 false 9 ≠ none), decide (n.trainRead 9 false 3 = some [2 ^ 63 + 4]),
      decide (n.kindSet (f (ip own far)) 5 = some [2]), decide (n.kindSet (f (ip far here)) 5 = some [4]), decide (n.kindSet (f (ip far own)) 5 = some [4]), decide (n.kindSet (f (eth 0x88B5 [])) 5 = none), decide (n.kindSet (f (ip own 5)) 5 = none),
      decide (n.oldEpoch = some 6), n.otherBank 6, !n.otherBank 7, ({ n with inaug := { sched := some { epoch := 8 } } } : Node).otherBank 8, (match n.edit { c with stamp := 5 } 4 with | .expired => true | _ => false),
      (match (routed 0 (ip old (trainAddr 5 1))).edit { c with stamp := 6 } 4 with | .gone => true | _ => false), (match n.edit c 2 with | .send b => beAt b 26 4 == here | _ => false),
      (match (routed 0 (ip old own)).edit { c with stamp := 6 } 4 with | .send b => beAt b 26 4 == far && beAt b 30 4 == own | _ => false),
      (match (routed 0 (ip far here)).edit c 4 with | .send b => beAt b 30 4 == own | _ => false), decide (2 ^ 14 * n.localPrefix false = 0x0A000000),
      (let v : Node := { n with fab := { n.fab with nextFid := 2 } }
       match v.enter { data := ip own far, ingress := 4, stamp := 7 } 64 5 none with | (.stored fid, m) => fid == 2 && (m.frame 2).refs == 1 | _ => false)]) = true := by decide +kernel

/-- 05 R185 to R188; 14 R507: hypotheses of HostRings at the last ring: a length out of range, one in range and stored, a frame for the host, the ring registers, an interrupt source with and without its condition. -/
theorem wit_HostRings :
    let d := zeros 8 ++ leBytes 2 13 ++ zeros 2 ++ leBytes 1 1 ++ zeros 19
    let ok := zeros 8 ++ leBytes 2 64 ++ leBytes 2 5 ++ leBytes 1 1 ++ zeros 19
    let n : Node := { streams with regs := (streams.wrs [(F.HST_TXCTRL_EN 15, 1), (F.HST_TXTAIL_INDEX 15, 1), (F.HST_RXCTRL_EN 15, 1), (F.HST_RXTAIL_INDEX 15, 1)]).regs }
    let q : Node := { n with fab := { frames := [(1, { data := zeros 60, refs := 2 })], hostq := [(15, [{ fid := 1 }])] } }
    (decide (d.length = 32) && n.dataOn && decide (2 ≤ n.level) && n.on (F.HST_TXCTRL_EN 15) && decide ((n.rd (F.HST_TXTAIL_INDEX 15) + 16 - n.rd (F.HST_TXHEAD_INDEX 15)) % 16 ≠ 0) &&
      !n.isBridge (Sys2Proof.fit 64 (zeros 64)) && decide (byteAt ok 12 = 1) && bitOf (byteAt d 12) 0 && decide (leAt d 8 2 < 14) && !bitOf (byteAt d 12) 3 && decide (leAt ok 8 2 = 64) && decide (leAt ok 10 2 = 5) && n.ctxValid 5 &&
      (match (n.enter { data := zeros 64, ingress := 20, stamp := n.epoch } 68 5 none).1 with
       | .stored _ => true
       | _ => false) && decide (FMap.get [] q.fab.hostq 15 = [{ fid := 1 }]) && q.on (F.HST_RXCTRL_EN 15) && decide ((q.rd (F.HST_RXTAIL_INDEX 15) + 16) % 16 ≠ 0) &&
      !(q.frame 1).bad && decide (2 ≤ (q.frame 1).refs) && regPasses n me (.HST_TXTAIL 15) 4095 && regPasses n me (.HST_TXCTRL 15) 0 && regPasses n me (.HST_RXCTRL 15) 0 &&
      regPasses n me (.HST_IRQ_SRC 63) (2 ^ 31 + 63) && !n.irqCond 63 && (live [(F.TIM_STATUS_STEP_REFUSED, 1)]).irqCond 23) = true := by decide +kernel

/-- 06 R224 to R229; 02 R68: hypotheses of BufferAndErrors: a worn bank with and without another draining, a move, a retirement, a capture, words of each memory. -/
theorem wit_BufferAndErrors :
    let n : Node := live [(F.FAB_BANK_UE24 3, 2), (F.FAB_BANK_STATE 24, 0), (F.FAB_BANK_STATE 25, 0)]
    let drain : Node := live [(F.FAB_BANK_UE24 3, 2), (F.FAB_STATUS_DRAINING, 1), (F.FAB_STATUS_DRAIN_BANK, 5), (F.FAB_BANK_STATE 5, 2)]
    let held : Node := { drain with fab := { frames := [(1, { data := zeros 60, cells := [5], refs := 1 })], banks := [(0, { free := 4 })] } }
    n.dataOn = true ∧ n.rd (F.FAB_BANK_STATE 3) = 1 ∧ 2 ≤ n.rd (F.FAB_BANK_UE24 3) ∧ 3 ∉ n.fab.drainWait ∧ drain.on F.FAB_STATUS_DRAINING = true ∧
      n.on F.FAB_STATUS_DRAINING = false ∧ n.rd (F.FAB_BANK_STATE 24) = 0 ∧ (∀ j, j < 24 → n.rd (F.FAB_BANK_STATE j) ≠ 0) ∧
      0 < (({ n with fab := { banks := [(3, { returning := 1 })] } }).bank 3).returning ∧ fit held = true ∧ held.rd (F.FAB_BANK_STATE 5) = 2 ∧
      held.beingRead 1 = false ∧ (held.setPort 0 { tx := some { fid := 1, stream := 4096, cls := 0 } }).beingRead 1 = true ∧
      (((held.fab.frames.map (·.1)).eraseDups.filter (fun i => !held.beingRead i)).map (fun i => (held.frame i).cells.count 5)).sum ≤ held.freeCells ∧ held.chans = [] ∧ { held with engs := [] }.engs = [] ∧
      drain.fab.drainCells = 0 ∧ drain.fab.drainWait = [] ∧ regPasses n me .FAB_FREEZE 1 = true ∧ n.fab.freezing = false ∧
      n.freeCells + n.returningCells ≤ 4096 * n.banksN + n.fab.drainCells ∧ 4096 * n.banksN + n.fab.drainCells < 2 ^ 17 ∧
      5 ∈ (held.frame 1).cells ∧ n.poison = [] ∧ ({ n with engs := [(18, { phase := .running })] }.eng 18).phase = .running := by decide +kernel

/-- 02 R68; 06 R226: hypotheses of BufferAndErrors on what holds a cell of bank 3: entries and messages of a channel, held outputs and the transmit area of an engine, whose move is within the free cells; the agreement's checkpoint. -/
theorem wit_BufferAndErrors_holders :
    let g : TxClosed := { hdr := [], data := [], cells := [3], launch := none }
    let n : Node := { live [(F.FAB_BANK_STATE 3, 2), (F.FAB_STATUS_DRAINING, 1), (F.FAB_STATUS_DRAIN_BANK, 3)] with
      fab := { banks := [(0, { free := 9 })] }, chans := [(7, { txq := [{ fr := {}, trying := true, cells := [3] }], rx := [{ id := 5, cells := [3] }] }), (9, { srcCells := [(255, [3])] })],
      engs := [(18, { act := { txCells := [3], backCells := [3], outs := [.signal 0 1, .frame g] } })], pair := { agree := some { epoch := 8 } } }
    let x := (n.eng 18).act
    n.dataOn = true ∧ n.level ≤ n.allowed ∧ n.on F.FAB_STATUS_DRAINING = true ∧ n.rd F.FAB_STATUS_DRAIN_BANK = 3 ∧ n.rd (F.FAB_BANK_STATE 3) = 2 ∧
      (((n.chan 7).txq.map (·.cells) ++ (n.chan 7).rx.map (·.cells) ++ (n.chan 9).srcCells.map (·.2)).flatten.count 3) + ((x.txCells ++ x.backCells ++ heldCells x).count 3) ≤ n.freeCells ∧
      (n.chan 7).rx.find? (fun z => z.id == 5 && !z.held) = some { id := 5, cells := [3] } ∧ (n.chan 7).txq[0]? = some { fr := {}, trying := true, cells := [3] } ∧
      x.outs[1]? = some (.frame g) ∧ 3 ∈ x.txCells ∧ n.mode ≠ .off ∧ n.pair.agree.isSome = true ∧ n.fab.freezing = false := by decide +kernel


/-! ### Topology, time, pair -/

/-- At L1, in epoch 7, on the ports of `linked`, line B's first port native as well. -/
def net (l : List (Fld × Nat)) : Node := { linked ([(F.TOP_EPOCH_EPOCH, 7), (F.BBL_RELAY_CLOSED 1, 0)] ++ l) with level := 1, loaded := true, ident := 9, fab := { banks := [(0, { free := 99 })] } }

/-- A topology frame from DA on (08 R274). -/
def topo (ty sender round : Nat) (body : List Byte) : List Byte :=
  let b := zeros 12 ++ beBytes 2 0x88B5 ++ beBytes 2 0x5439 ++ leBytes 1 1 ++ leBytes 1 ty ++ leBytes 6 sender ++ leBytes 2 round ++ leBytes 2 7 ++
    leBytes 2 body.length ++ body
  b ++ zeros (60 - b.length)

/-- The node's services run: L2, with the image and the identifiers this takes. -/
def atL2 (n : Node) : Node := { n with level := 2, loaded := true, settings := (high []).settings }

/-- `WireIn` as a computation. -/
def wireIn (n : Node) (p : Nat) (b : List Byte) : Bool :=
  n.topoWorks && decide (p < 4) && n.linkUp p && decide (60 ≤ b.length) && decide (b.length + 4 ≤ n.rd (F.PRT_CTRL_MAXLEN p))

/-- A REPORT of `sender` with these neighbours. -/
def report (sender : Nat) (nb : List Nat) : Flood :=
  { sender := sender, body := (topo 2 sender 4 (zeros 44 ++ nb.flatMap (leBytes 6) ++ zeros (32 - 6 * nb.length))).drop 14 }

/-- `TopoIn` as a computation. -/
def topoIn (n : Node) (p : Nat) (b : List Byte) (ty len : Nat) : Bool :=
  wireIn n p b && byteAt b 14 == 0x54 && byteAt b 15 == 0x39 && byteAt b 16 == 1 && byteAt b 17 == ty && decide (leAt b 28 2 = len) &&
    decide (30 + len ≤ b.length)

/-- No round open, none scheduled, none waited for. -/
def idle (n : Node) : Bool := !n.inaug.openR && n.inaug.sched.isNone && !n.inaug.waiting

/-- 08 R276 to R285, R310: hypotheses of NeighboursAndReports: HELLOs of a new neighbour and of a known one, a REPORT for an idle node and for an open round, copies known on this line and on the other line only, bad frames, a TN7. -/
theorem wit_NeighboursAndReports : all (
    let n := net []
    let hello := topo 1 5 4 (zeros 36)
    let seen : TopPort := { valid := true, recSet := true, recVid := slice hello 46 16, recNode := 5, hello := slice hello 14 52 }
    let known := n.setTopPort 0 seen
    let two := (known.wr (F.PRT_STATUS_LINK 1) 1).setTopPort 1 { valid := true, hello := slice hello 14 52 }
    let rep := topo 2 5 4 (zeros 76)
    let opened : Node := { n with inaug := { openR := true, seen := [floodKey (slice rep 14 92)], relayed := [(0, floodKey (slice rep 14 92))] } }
    let bad := hello.set 14 0
    let tn7 := zeros 14 ++ leBytes 2 0x3754 ++ leBytes 1 1 ++ leBytes 1 7 ++ zeros 42
    [fit n, n.topoWorks, n.hitless 0, n.canTx 0, idle n, decide ((n.engQueue 16 0).length < 64), decide (0 < n.freeCells), topoIn n 0 hello 1 36,
      !(n.topPort 0).valid, !(n.topPort 0).recSet, decide ((n.topPort 0).hello = []), n.tn9Peers.isEmpty, decide ((known.topPort 0) = seen), decide (slice seen.hello 16 36 = slice hello 30 36),
      decide (topoSender seen.hello = 5), decide (leAt hello 18 6 = 5), two.linkUp (mateOf 0), (two.topPort (mateOf 0)).valid, !(known.topPort (mateOf 0)).valid,
      decide (n.inaug.agreed = 0), !n.inaug.takenOver, !n.nbrRecorded 0, decide (n.ident < 2 ^ 48), decide (topoSender (slice rep 14 92) ≠ n.ident), decide (n.clock.held = none),
      decide ((lineOf 0, floodKey (slice rep 14 92)) ∈ opened.inaug.relayed), decide ((lineOf 0, floodKey (slice rep 14 92)) ∉ n.inaug.relayed),
      decide ((lineOf 0, floodKey (slice rep 14 92)) ∉ ({ opened with inaug := { opened.inaug with relayed := [] } }).inaug.relayed), !opened.inaug.sched.isSome,
      decide (leAt seen.hello 12 2 = 7), decide ((net [(F.TOP_EPOCH_EPOCH, 8)]).epoch = 8), topoIn n 0 rep 2 76,
      decide (floodKey (slice rep 14 92) ∈ opened.inaug.seen), decide (n.inaug.seen = []), wireIn n 0 bad, !topoOk (bad.drop 14), byteAt bad 15 == 0x39,
      wireIn n 0 tn7, decide (slice tn7 14 4 = [0x54, 0x37, 1, 7]), decide (slice tn7 24 6 = zeros 6), decide (topoLen 6 = some 4)]) = true := by decide +kernel

/-- 08 R294: hypotheses of NeighboursAndReports for a round that has proposed, and for a valid neighbour whose link went down. -/
theorem wit_NeighboursAndReports_more : all (
    let rep := topo 2 5 4 (zeros 76)
    let n : Node := { net [] with inaug := { openR := true, proposed := true, round := 4 } }
    let gone := (net [(F.PRT_STATUS_LINK 0, 0)]).setTopPort 0 { valid := true }
    let copy : Node := { net [] with inaug := { seen := [floodKey (slice rep 14 92)] } }
    [fit n, topoIn n 0 rep 2 76, decide (floodKey (slice rep 14 92) ∉ n.inaug.seen), n.inaug.openR, n.inaug.proposed, decide (n.inaug.sched = none),
      decide (n.log.staged.length < 64), n.nativeUp (acrossOf 0), n.canTx (acrossOf 0), fit gone, (gone.topPort 0).valid, !gone.linkUp 0, topoIn copy 0 rep 2 76,
      decide (floodKey (slice rep 14 92) ∈ copy.inaug.seen), decide ((lineOf 0, floodKey (slice rep 14 92)) ∉ copy.inaug.relayed), decide (copy.clock.held = none),
      (n.setTopPort 0 { tn7 := true }).inaug.openR, !(gone.setTopPort 0 { tn7 := true }).inaug.openR]) = true := by decide +kernel

/-- 08 R285 to R294; 04 R148: hypotheses of Rounds: a neighbour's HELLO in a round that has proposed and while a commit is scheduled, more and less than 2 ms ahead; standard mode; candidates proposed beside PROPOSEs that agree, show another epoch, another digest; a commit scheduled with and without a grace interval, cancelled with and without one scheduled; an ABORT of no current round. -/
theorem wit_Rounds_more : all (
    let hello := topo 1 5 4 (zeros 36)
    let with' := fun i : Inaug => ({ net [] with inaug := i } : Node)
    let pros := with' { openR := true, proposed := true, round := 4 }
    let far := with' { sched := some { epoch := 8, count := 500001 } }
    let near := with' { sched := some { epoch := 8, count := 500000 } }
    let std : Node := { net [(F.TOP_INAUG_STANDARD, 1)] with inaug := { openR := true, reports := [report 5 [], report 9 []] } }
    let digest := dirDigestOf 8 1 (((with' {}).candWrite 0 [5, 0, 0, 0, 0, 0, 0, 0]).inaug.candWords 1)
    let pro := fun e d => ({ sender := 5, body := (topo 3 5 4 (leBytes 2 e ++ leBytes 2 0 ++ leBytes 4 d)).drop 14 } : Flood)
    let cand := fun l : List Flood => (with' { openR := true, proposes := l }).candWrite 0 [5, 0, 0, 0, 0, 0, 0, 0]
    let shows := fun (f : Flood) e d => leAt f.body 16 2 == e && leAt f.body 20 4 == d
    let grace := with' { graceEnd := some 5, sched := some { epoch := 8, count := 500001 } }
    let ab := topo 5 5 3 (leBytes 1 5 ++ zeros 3)
    [fit pros, topoIn pros 0 hello 1 36, !pros.inSched 5, !(pros.topPort 0).recSet, decide (pros.inaug.sched = none), pros.inaug.proposed, topoIn far 0 hello 1 36,
      decide (far.clock.cycles + 500000 < 500001), decide (500000 ≤ near.clock.cycles + 500000), !far.inSched 5, fit far, fit near, topoIn near 0 hello 1 36, fit std,
      std.on F.TOP_INAUG_STANDARD, !closedSet std.inaug.reports, !std.inaug.ended, shows (pro 8 digest) 8 digest, shows (pro 7 digest) 7 digest,
      shows (pro 8 (digest + 1)) 8 (digest + 1), digest < 2 ^ 32 - 1, (cand [pro 8 digest]).inaug.openR, decide ((cand []).inaug.candCount = 1), decide ((cand [pro 7 digest]).inaug.sched = none),
      decide ((cand [pro 8 (digest + 1)]).inaug.proposes.length = 1), decide (grace.inaug.graceEnd = some 5), grace.inaug.sched.isSome, pros.inaug.graceEnd.isNone,
      !near.inaug.openR, near.topoWorks, idle (with' {}), (with' {}).topoWorks, topoIn pros 0 ab 5 4, decide (leAt ab 24 2 = 3), decide ((5, 5, 3, 0) ∉ pros.inaug.seen),
      decide (pros.inaug.reports = []), decide (5 ≠ pros.ident), decide (byteAt ab 30 % 8 ≠ 6)]) = true := by decide +kernel

/-- 08 R285 to R291: hypotheses of Rounds: a closed set of 2 and of 64 nodes, phases without the last PROPOSE or CONFIRM, a PROPOSE that agrees, one with another digest, one with another epoch, a CONFIRM, an ABORT. -/
theorem wit_Rounds : all (
    let n : Node := { net [] with inaug := { openR := true, round := 4, reports := [report 5 [9], report 9 [5]], dirEpoch := 8, dirDigest := 6, dirCount := 2, dir := [(8, 5), (16, 9)] } }
    let i := n.inaug
    let pro := fun e d => topo 3 5 4 (leBytes 2 e ++ leBytes 2 0 ++ leBytes 4 d)
    let waits : Node := { net [] with inaug := { waiting := true } }
    [fit n, decide (n.log.staged.length < 64), decide ((n.engQueue 16 0).length < 64), decide (0 < n.freeCells), decide (leAt (pro 8 6) 18 6 ≠ n.ident), i.openR, !i.ended, !i.proposed, closedSet i.reports, n.topoWorks, idle { net [] with level := 1 }, waits.topoWorks, topoIn n 0 (pro 8 6) 3 8,
      decide ((3, 5, 4, 0) ∉ i.seen), decide (topoRound (report 5 [9]).body = 4), decide (leAt (pro 8 6) 18 6 = 5), decide (leAt (pro 8 6) 24 2 = 4),
      decide (leAt (pro 8 6) 30 2 = i.dirEpoch), decide (leAt (pro 8 6) 34 4 = i.dirDigest), decide (leAt (pro 7 6) 30 2 ≠ i.dirEpoch),
      decide (leAt (pro 8 5) 34 4 ≠ i.dirDigest), decide (i.dirW 1 0 = 5), topoIn n 0 (topo 4 5 4 (zeros 18)) 4 18, topoIn n 0 (topo 5 5 4 (leBytes 1 5 ++ zeros 3)) 5 4,
      decide (n.clock.held = none)]) = true := by decide +kernel

/-- 08 R285: a chain of 64 nodes is a closed set larger than 63. -/
theorem wit_Rounds_over : closedSet ((List.range 64).map (fun k => report (k + 1) ((if k = 0 then [] else [k]) ++ (if k = 63 then [] else [k + 2])))) = true := by
  decide +kernel

/-- 08 R293 to R309: hypotheses of CommitAndGrace: a commit with a directory that names the node, with and without a change too late for it, tables 8 and 10, the grace interval, MARKs of the epoch in force and of an agreed one, a receive side of each epoch, TTDP. -/
theorem wit_CommitAndGrace : all (
    let d8 : TabDef := { num := 8, n := 8, entries := 64, base := 8, dbl := true }
    let d10 : TabDef := { num := 10, n := 1, entries := 64, base := 2048 }
    let i : Inaug := { sched := some { epoch := 8 }, proposed := true, dirCount := 1, dir := [(8, 9)], dirDigest := 6, dirHeld := true }
    let n : Node := { net [] with inaug := i, tabs := [d8, d10] }
    let grace : Node := { net [(F.TOP_INAUG_PHASE, 5)] with inaug := { graceEnd := some 5, agreed := 8 }, tabs := [d8, d10] }
    let late : Node := { n with inaug := { i with late := true } }
    let ttdp := eth 0x894C []
    [fit n, decide (n.brg.lock = none), !i.late, late.inaug.late, late.topoWorks, fit late, wireIn n 0 ttdp, decide (cellsFor ttdp.length ≤ n.freeCells),
      decide ((grace.topPort 0).rxEpoch ≠ grace.epoch), decide (((grace.setTopPort 0 { rxEpoch := 7 }).topPort 0).rxEpoch = grace.epoch), grace.hitless 0,
      decide (grace.inaug.agreed = 8), decide (grace.log.staged.length < 64), i.proposed, decide (i.dirW 1 0 % 2 ^ 48 = n.ident), n.hitless 0, decide ((n.port 0).tx = none), !n.txBlocked 0,
      decide (n.tab 8 = some d8), decide (d8.base + 2 * d8.size ≤ d10.base), i.dirHeld, !n.inGrace, grace.inGrace, decide (grace.tab 10 = some d10),
      grace.entryOk d10 false 0, decide (grace.fab.launches = []), decide (grace.rd F.TOP_INAUG_PHASE = 5), fit grace, !(grace.topPort 0).marked,
      topoIn grace 0 (topo 6 5 0 (leBytes 2 7 ++ zeros 2)) 6 4, topoIn grace 0 (topo 6 5 0 (leBytes 2 8 ++ zeros 2)) 6 4, decide (grace.epoch = 7),
      decide (grace.inaug.sched = none), decide (grace.rd F.PAIR_STATUS_PARTNER_STATE ≠ 2),
      decide ((n.engQueue 16 0).length < 64), (net [(F.TOP_INAUG_STANDARD, 1)]).on F.TOP_INAUG_STANDARD, n.canTx 0]) = true := by decide +kernel

/-- 09 R318 to R333: hypotheses of TimeAndSteps: port 0 the parent, in FREE, ACQUIRING, GRANDMASTER and HOLDOVER with an allowance, offsets of one threshold and one unit more, an inherited step, an ACCEPT_STEP, a SET with the last nanosecond and with one too many. -/
theorem wit_TimeAndSteps : all (
    let n := fun st : Nat => atL2 <| net [(F.TIM_PORT_ROLE 0, 1), (F.TIM_STATUS_STATE, st), (F.TIM_STATUS_PARENT, 0), (F.TIM_STEP_THRESH_NS, 1000), (F.TIM_SET_NS_NS, 999999999)]
    let th := 65536000
    let hold : Node := { n 3 with clock := { now := 5, fresh := 4000000, gm := 3, gmBefore := 3 } }
    let held : Node := { n 1 with clock := { held := some (0, th + 1) } }
    let two := (n 1).setPtp 0 { (n 1).ptp 0 with syncRx := some (4, 9) }
    [fit (n 1), (n 1).ptpOn 0, decide ((n 1).ptpParent = 0), decide ((n 0).timState = 0), decide ((n 1).timState = 1), decide ((n 4).timState = 4),
      decide ((n 1).rd F.TIM_STEP_THRESH_NS * 65536 = th), decide ((n 1).clock.held = none), decide (((th + 1 - (th + 2) : Int)).natAbs ≤ th),
      decide ((n 1).allowance < th + 1), decide ((n 1).log.staged.length < 64), decide (8 ≤ ({ n 1 with clock := { small := 8 } } : Node).clock.small), decide (th + 1 ≤ hold.allowance), decide (hold.timState ≠ 0), decide ((two.ptp 0).syncRx = some (4, 9)),
      decide ((two.ptp 0).syncTlv = none), decide (((n 1).ptp 0).syncRx = none), regPasses (n 1) me .TIM_STEP_CMD 1, regPasses (n 4) me .TIM_STEP_CMD 2,
      decide (held.clock.held = some (0, th + 1)), regPasses held me .TIM_STEP_CMD 1, decide ((n 0).rd F.TIM_SET_NS_NS < 10 ^ 9),
      decide (10 ^ 9 ≤ ((n 4).wr F.TIM_SET_NS_NS (10 ^ 9)).rd F.TIM_SET_NS_NS)]) = true := by decide +kernel

/-- 09 R321 to R328: hypotheses of PtpPorts: a port that asks, is answered, or has asked three times; a master port; the parent's receipt timeout. -/
theorem wit_PtpPorts : all (
    let n := atL2 <| net [(F.TIM_PORT_ROLE 0, 1), (F.TIM_STATUS_PARENT, 31), (F.TIM_PORT_AS_CAPABLE 0, 1), (F.TIM_PORT_PSTATE 0, 2)]
    let asked := fun k : Nat => n.setPtp 0 { n.ptp 0 with reqT1 := some 5, reqSeq := 3, unanswered := k }
    let slave := atL2 <| net [(F.TIM_PORT_ROLE 0, 1), (F.TIM_STATUS_PARENT, 0), (F.TIM_STATUS_STATE, 2)]
    [fit n, n.asPort 0, decide (((asked 1).ptp 0).reqT1 = some 5), decide (((asked 1).ptp 0).reqSeq = 3), decide (((asked 1).ptp 0).ratioRef = none),
      decide (((n.setPtp 0 { n.ptp 0 with reqT1 := some 5, ratioRef := some (1, 2) }).ptp 0).ratioRef = some (1, 2)), decide ((n.ptp 0).reqT1 = none),
      n.on (F.TIM_PORT_AS_CAPABLE 0), decide (((asked 1).ptp 0).unanswered + 1 < 3), decide (3 ≤ ((asked 2).ptp 0).unanswered + 1), decide (n.ptpParent ≠ 0),
      decide (n.clock.held = none), decide (slave.ptpParent = 0), fit slave, slave.asPort 0, decide (slave.timState ≠ 0), n.ptpMaster 0, decide (n.clock.tlv = none),
      (n.wr (F.TIM_PORT_ONE_STEP 0) 1).on (F.TIM_PORT_ONE_STEP 0), !n.on (F.TIM_PORT_ONE_STEP 0), !(n.wr F.TIM_CTRL_GM_CAPABLE 0).on F.TIM_CTRL_GM_CAPABLE, decide (n.ptpParent = 31),
      (List.range 20).all (fun q => (n.ptp q).ann.isNone), n.on F.TIM_CTRL_GM_CAPABLE]) = true := by decide +kernel

/-- A heartbeat of node 5 with these flags, SEQ and checkpoint (12 R414). -/
def beat (flags seq ck : Nat) : List Byte :=
  let b := ([0x48, 0x42, 1, BitVec.ofNat 8 flags] : List Byte) ++ leBytes 4 seq ++ leBytes 6 5 ++ [0x14, 0] ++ zeros 4 ++ leBytes 4 ck ++ zeros 36
  b ++ leBytes 4 (crc32c b)

/-- A module of a pair, in this state, whose partner is node 5. -/
def paired (m : Mode) (l : List (Fld × Nat)) (p : Pair := {}) : Node :=
  { live ([(F.PAIR_STATUS_POS, 1), (F.PAIR_CTRL_HB_CON_EN, 1), (F.PAIR_STATUS_POS_CLASH, 1)] ++ l) with mode := m, ident := 9, pair := { p with partner := some 5 } }

/-- 12 R413 to R436: hypotheses of HeartbeatsAndTakeover: a single module and a pair, a heartbeat of the partner, of another node and one that is not valid, a FAIL flag, silence, claims, a takeover blocked and one that goes on with and without a checkpoint. -/
theorem wit_HeartbeatsAndTakeover : all (
    let n := paired .active []
    let cold := paired .coldStandby []
    let armed := paired .coldStandby [] { armed := true, lastHb := beat 0 9 0, ckpts := [{}] }
    let blank := paired .coldStandby [] { armed := true, lastHb := (beat 0 9 0).set 16 1, ckpts := [] }
    [fit n, n.execRuns, (live []).execRuns, (live []).single, decide (n.pair.stabling = 0), decide (n.pair.sending = none), decide (n.pair.capture = none), !n.pair.drillDue, !n.single, !n.tn7Mode, decide (n.log.staged.length < 60),
      (let c := paired .active [(F.PAIR_CTRL_HB_PORT, 4), (F.PRT_STATUS_LINK 4, 1)]
       c.consistLink 4 && c.rd F.PAIR_CTRL_HB_PORT == 4), (paired .stabled []).mode != .off, (paired .active []).ctlOn, !(paired .stabled [(F.PWR_ISLANDS_CONTROL, 0)]).ctlOn,
      decide (n.rd F.PAIR_STATUS_CLAIM_HELD < 2), decide (n.rd F.HLT_REPORT_FAIL < 2), n.on F.PAIR_CTRL_HB_CON_EN, n.hbOk (beat 0 9 0), !n.hbOk ((beat 0 9 0).set 8 6),
      decide (leAt (beat 0 9 0) 8 6 = 5), decide (n.pair.partner = some 5), decide ((paired .active [] { partner := some 6 }).pair.partner = some 5),
      decide (n.wait = .none), decide (n.pair.switching = none), n.on F.PAIR_STATUS_POS_CLASH, fit cold, decide (cold.pair.sentT = []),
      bitOf (byteAt (beat 2 9 0) 3) 1, !bitOf (byteAt (beat 2 9 0) 3) 4, !bitOf (byteAt (beat 2 9 0) 3) 5, cold.hbOk (beat 2 9 0), !cold.pair.armed,
      !(cold.wr F.PAIR_STATUS_CLAIM_HELD 0).on F.PAIR_STATUS_CLAIM_HELD, n.on F.PAIR_STATUS_CLAIM_HELD, armed.pair.armed, fit armed, !armed.partnerClaim,
      (armed.wr F.PAIR_STATUS_PARTNER_CLAIM 1).partnerClaim, !armed.on F.PWR_ISLANDS_RAIL_FAULT, decide (armed.claimed.loadSet ≠ none),
      (let a := paired .coldStandby [] { armed := true, lastHb := beat 0 9 0, ckpts := [{}], agree := some { epoch := 8, tcommit := 5 } }
       decide (a.clock.now < 5) && decide (leAt a.pair.lastHb 16 2 ≠ 8) && decide (a.ckptChosen = some {}) && decide (a.claimed.loadSet ≠ none) && fit a),
      decide (armed.pair.agree = none), decide (armed.ckptChosen = some {}), decide (blank.claimed.loadSet ≠ none), decide (blank.ckptChosen = none),
      decide ((FMap.get {} (paired .active [] { paths := [(1, { first := some 3, high := 8 })] }).pair.paths 1).first = some 3)]) = true := by decide +kernel

/-- 12 R409, R410, R417, R431, R435: hypotheses of HeartbeatsAndTakeover for claims: on a single node, on one that does not hold its own, on one that holds it since another WCH cycle and since this one, with the positions known and not; for a path no longer used; for a heartbeat on a held consist link and for one outside LPI; for a takeover out of a drill, with the commit of the agreement made by time and by the last heartbeat. -/
theorem wit_HeartbeatsAndTakeover_more : all (
    let one : Node := { live [] with wait := .none }
    let held := fun (at' : Nat) (l : List (Fld × Nat)) (last : List Byte) => paired .active ([(F.PAIR_STATUS_CLAIM_HELD, 1)] ++ l) { claimAt := at', lastHb := last }
    let free := paired .coldStandby [(F.PAIR_STATUS_CLAIM_HELD, 0)]
    let unknown := [(F.PAIR_STATUS_POS_CLASH, 0)]
    let cons := paired .active [(F.PAIR_CTRL_HB_PORT, 15), (F.PRT_STATUS_LINK 15, 1)]
    let kept := paired .coldStandby [(F.PAIR_CTRL_HB_PORT, 15), (F.PWR_ISLANDS_DATA, 0)] { links := [(15, 1)] }
    let agree := fun (t : Nat) (b : List Byte) => paired .drill [] { armed := true, lastHb := b, ckpts := [{}], agree := some { epoch := 8, tcommit := t } }
    let told := (beat 0 9 0).set 16 8
    [fit one, one.single, !one.tn7Mode, decide (one.mode ≠ .off), decide (one.wait = .none), !free.on F.PAIR_STATUS_CLAIM_HELD, !free.single, fit (held 0 [] []),
      (held 0 [] []).on F.PAIR_STATUS_CLAIM_HELD, decide ((held 0 [] []).wchCycle = (held 0 [] []).pair.claimAt), decide ((held 1 [] []).wchCycle ≠ 1),
      (held 0 [] []).on F.PAIR_STATUS_POS_CLASH, (held 0 [] []).posA, !(held 0 [(F.PAIR_STATUS_POS, 2)] []).posA,
      decide ((held 0 unknown (beat 0 9 0)).pair.lastHb ≠ []), !(held 0 unknown (beat 0 9 0)).on F.PAIR_STATUS_POS_CLASH, !(held 0 unknown []).on F.PAIR_STATUS_POS_CLASH,
      decide ((held 0 unknown []).pair.lastHb = []), decide ((held 0 unknown []).wait = .none), !(paired .active [(F.PAIR_CTRL_HB_CON_EN, 0)]).pathUsed 1,
      decide ((paired .boot []).mode = .boot), (paired .boot []).pathUsed 1, cons.consistLink 15, cons.dataOn, !cons.on (F.PRT_STATUS_LPI_TX 15), cons.execRuns,
      kept.consistLink 15, !kept.dataOn, kept.execRuns, fit (agree 0 []), (agree 0 []).pair.armed, !(agree 0 []).partnerClaim, decide (0 ≤ (agree 0 []).clock.now),
      decide (leAt (agree 9 told).pair.lastHb 16 2 = 8), decide ((agree 9 told).clock.now < 9), !(agree 9 told).on F.PWR_ISLANDS_RAIL_FAULT,
      decide ((agree 9 told).claimed.loadSet ≠ none), !(agree 9 told).tn7Mode]) = true := by decide +kernel

/-- 12 R425, R428, R429: hypotheses of CheckpointsAndDrills for a standby at a period boundary, for a block of an agreement checkpoint that follows another, and for a switchover during a round. -/
theorem wit_CheckpointsAndDrills_more : all (
    let cold := paired .coldStandby [] { agPart := some (3, 7) }
    let act := { paired .active [(F.PAIR_STATUS_PARTNER_STATE, 2), (F.PAIR_STATUS_PARTNER_PROVEN, 3)] with inaug := { openR := true } }
    [fit cold, !cold.single, !cold.tn7Mode, fit (paired .drill [] { agPart := some (3, 7) }), decide (cold.pair.agPart = some (3, 7)), fit act, regPasses act me .PAIR_CMD 1, act.roundFlag,
      !bitOf (act.rd F.PAIR_PARTNER_HEALTH_HEALTH) 22, !bitOf (act.rd F.PAIR_PARTNER_HEALTH_HEALTH) 21,
      decide (act.level ≤ act.rd F.PAIR_STATUS_PARTNER_PROVEN)]) = true := by decide +kernel

/-- 12 R424 to R443: hypotheses of CheckpointsAndDrills. -/
theorem wit_CheckpointsAndDrills : all (
    let n := paired .active [(F.PAIR_STATUS_PARTNER_STATE, 2)]
    let many := n.wrs ((List.range 16).map (fun k => (F.PAIR_CKPT_SIG_COUNT k, 8191)))
    let cold := paired .coldStandby [(F.PAIR_STATUS_PARTNER_STATE, 4)] { part := some (3, 7) }
    let hands := paired .active [] { switching := some 4, sending := some (4, 0) }
    let due := paired .coldStandby [(F.PAIR_STATUS_PARTNER_STATE, 4)] { drillDue := true }
    [due.pair.drillDue, decide (due.pair.stabling = 0), decide (n.pair.capture = none), (List.range 16).all n.slotIdle,
      !({ n with engs := [(0, { phase := .running })] }).slotIdle 0, decide ((({ cold with pair := { agPart := some (3, 7) } } : Node)).pair.agPart = some (3, 7)),
      decide (({ agree := some { epoch := 8 } } : Ckpt).agree = some { epoch := 8 }), decide (({} : Ckpt).agree = none), decide (n.log.staged.length < 16),
      decide (0 + 35000 ≤ ({ n with clock := { n.clock with fresh := 35000 } }).clock.fresh),
      fit n, !n.single, !n.tn7Mode, n.dataOn, decide (n.ckptSlots ≤ 65536), decide (65536 < many.ckptSlots), decide (n.pair.sending = none), decide (hands.pair.sending = some (4, 0)),
      fit cold, decide (cold.pair.part = some (3, 7)), regPasses n me .PAIR_CMD 1, regPasses cold me .PAIR_CMD 1, regPasses cold me .PAIR_CMD 2,
      decide (n.rd F.PAIR_STATUS_PARTNER_STATE = 2), decide (n.rd F.PAIR_PARTNER_HEALTH_HEALTH = 0), decide (n.level ≤ n.rd F.PAIR_STATUS_PARTNER_PROVEN),
      !n.roundFlag, ({ n with inaug := { openR := true } }.roundFlag), decide (hands.rd F.PAIR_STATUS_PARTNER_STATE ≠ 2), !cold.pair.armed,
      decide (cold.rd F.PAIR_STATUS_PARTNER_STATE = 4), !bitOf (byteAt cold.pair.lastHb 3) 1, !bitOf (byteAt cold.pair.lastHb 3) 3, !cold.on F.PWR_ISLANDS_RAIL_FAULT,
      decide (hands.pair.switching = some 4), hands.hbOk (beat 0 9 4), hands.on F.PAIR_STATUS_POS_CLASH, decide (hands.rd F.PAIR_STATUS_CLAIM_HELD < 2), decide (hands.rd F.HLT_REPORT_FAIL < 2), decide (leAt (beat 0 9 4) 20 4 = 4), decide (hands.pair.partner = some 5), fit hands,
      decide (hands.wait = .none), fit (paired .drill []), decide (n.pair.part = none)]) = true := by decide +kernel

/-! ### Ownership, updates, field buses, bridge -/

/-- At L2, region 0 gives every identity all rights from address 0 on. -/
def opened (l : List (Fld × Nat)) : Node :=
  atL2 <| live ([(F.PRO_REGION_RIGHTS_EN 0, 1), (F.PRO_REGION_RIGHTS_RW 0, 0x3FF), (F.PRO_REGION_LIMIT_ADDR 0, 0xFFFFF)] ++ l)

/-- 05 R179 to R182; 00 R15; 13 R453: hypotheses of OwnershipAndNodeCommands: requests of the executive and of the host, pending or not, with and without a grant in the settings; an owner's HANDOVER and RENEW; STABLE at standstill; the last stabling heartbeat. -/
theorem wit_OwnershipAndNodeCommands : all (
    let n : Node := opened []
    let owned := opened [(F.MGT_OWNER_ID, 1)]
    let free := opened [(F.PRO_REGION_RIGHTS_OX 0, 1)]
    let pend := opened [(F.MGT_OWN_PEND_VALID, 1), (F.MGT_OWN_PEND_ID, 1), (F.MGT_OWNER_ID, 2)]
    let st : Nat → Node := fun k => { live [] with pair := { stabling := k } }
    [regPasses n me .MGT_OWN_CMD 1, regPasses n host .MGT_OWN_CMD 1, decide ((n.presented me).id = 0), decide ((n.presented host).id = 1), decide (host.node < 2 ^ 48),
      !n.on F.MGT_OWN_PEND_VALID, decide (n.rd F.MGT_OWNER_ID = 0), fit n, decide (owned.rd F.MGT_OWNER_ID ≠ 0), pend.on F.MGT_OWN_PEND_VALID, pend.pends host,
      !n.pends host, bitOf (byteAt (FMap.get [] { n with settings := [(4, [2, 0, 0, 0])] }.settings 4) 0) 1, !bitOf (byteAt (FMap.get [] n.settings 4) 0) 1,
      regPasses pend host .MGT_OWN_CMD 4, regPasses n host .MGT_OWN_CMD 4, owned.owns host, !free.owns host, regPasses owned host .MGT_OWN_CMD 2,
      regPasses free host .MGT_OWN_CMD 2, regPasses owned host .MGT_OWN_CMD 3, regPasses free host .MGT_OWN_CMD 3, regPasses n me .MGT_CMD 1, regPasses n me .MGT_CMD 2,
      !n.on F.PWR_DISCRETE_ZERO_SPEED, (live [(F.PWR_DISCRETE_ZERO_SPEED, 1)]).on F.PWR_DISCRETE_ZERO_SPEED, (st 2).execRuns, decide ((st 2).pair.sending = none), decide ((st 2).pair.capture = none), !(st 2).pair.drillDue, !(st 1).on (F.BBL_RELAY_MISMATCH 1),
      (st 2).single, decide ((st 2).pair.stabling = 0 + 2), decide ((st 1).pair.stabling = 1)]) = true := by decide +kernel

/-- A loader package of one empty section; digest and signature with the key of RFC 8032's first test, made outside the model (05 R160 to R162; 13 R479). -/
def loaderImage : List Byte :=
  [0x4B, 0x52, 0x51, 0x4C] ++ leBytes 2 1 ++ leBytes 2 128 ++ leBytes 4 328 ++ leBytes 4 192 ++ leBytes 4 128 ++ leBytes 2 1 ++ leBytes 2 0x640 ++ zeros 8 ++
    leBytes 8 1 ++ zeros 88 ++ leBytes 2 1 ++ zeros 2 ++ leBytes 4 192 ++ zeros 56 ++ [0x4B, 0x52, 0x51, 0x53] ++ zeros 4 ++
    leBytes 64 0x51dc10aaaaa8d84e68357c4e5804ca1e40f70ee51bc43c51036735a1ee753b1cb267aa5af0a960b529c14e35ce19525e192947632c35827cb10fe5e0029006a9 ++
    leBytes 64 0xd2b2dea08f06b1f3344dc0a0ca6e6430970e88df41816d161e3768c9393bc64225754e212c3e6cae20103432b7d24635f53de0f273db1acd49926ca4aabf694

/-- The key of RFC 8032's first test. -/
def testKey : List Byte := leBytes 32 11903303657706407974989296177215005343713679411332034699907763981919547054807

/-- A settings record of FORMAT 3 with this SEQ and no entries (05 R168). -/
def setRec (seq : Nat) : List Byte :=
  let r := ([0x4B, 0x52, 0x51, 0x54] : List Byte) ++ leBytes 2 3 ++ zeros 2 ++ leBytes 4 seq ++ leBytes 4 20
  r ++ leBytes 4 (crc32c r)

/-- 13 R459 to R479: hypotheses of UpdateCommands. -/
theorem wit_UpdateCommands : all (
    let head := zeros 8 ++ leBytes 4 40 ++ zeros 20 ++ leBytes 8 1
    let blk : Nat → Nat → Node := fun k c => { live [(F.UPD_ARG_BLOCK, k), (F.UPD_ARG_CRC_CRC, c)] with mem := memWrite [] 0x2F0000 head }
    let has : Node := { live [(F.UPD_STATUS_XFER, 2), (F.PWR_DISCRETE_ZERO_SPEED, 1)] with flash := { xfer := [(0, loaderImage)], xferSize := 328, xferId := 2 } }
    let busy : Nat → Node := fun k => { live [(F.UPD_STATUS_CONFIRMING, 1)] with flash := { busy := k, work := [1] } }
    let setw : Nat → Node := fun q => { live [(F.UPD_FORMATS_BOOTED, q)] with mem := memWrite [] 0x2F0000 (setRec 9), flash := { settings := [setRec 4] } }
    [(List.range 7).all (fun k => regPasses (live []) me .UPD_CMD (k + 1)), decide (imgSize head = 40), decide (imgBuild head = 1),
      decide (memReadN (blk 511 5).mem 0x2F0000 40 = head), decide ((blk 512 5).rd F.UPD_ARG_BLOCK = 512), decide ((blk 511 5).rd F.UPD_ARG_BLOCK = 511),
      decide (crc32c head = (blk 0 (crc32c head)).rd F.UPD_ARG_CRC_CRC), decide (has.flash.xferId ≠ imgBuild head), has.ctlOn, fit has,
      (busy 3).on F.UPD_STATUS_CONFIRMING, fit (busy 1), decide ((busy 1).flash.work ≠ []), has.hasBlock 0, !(busy 1).hasBlock 0, !has.hasBlock 1,
      decide (has.rd F.UPD_STATUS_XFER = 2), decide ((live []).rd F.UPD_STATUS_XFER ≠ 2), !has.on F.UPD_STATUS_CONFIRMING, !has.on F.UPD_CTRL_UPDATE_LOCK,
      !has.moving, (live []).moving, decide (has.rd F.UPD_BATT_THRESH = 0), decide (imgFormat has.xferImage = has.rd F.UPD_FORMATS_BOOTED),
      (live [(F.UPD_STATUS_TRIAL, 1)]).on F.UPD_STATUS_TRIAL, !(live []).on F.UPD_STATUS_TRIAL,
      decide (((setRecord (setRec 9)).map (fun r => r.1)) = some 3),
      decide (setRecord (zeros 20) = none), decide ((setw 3).rd F.UPD_FORMATS_BOOTED = 3), decide ((setw 4).rd F.UPD_FORMATS_BOOTED ≠ 3), decide ((setw 4).flash.fb0 = []),
      decide ((bestRecord (setw 3).flash.settings 3).map (fun r => r.1) = some 4), decide ((paired .active [(F.UPD_STATUS_XFER, 2)]).rd F.UPD_STATUS_XFER = 2),
      !(paired .active []).single, fit (paired .coldStandby []), regPasses { live [] with mode := .coldStandby } me .UPD_CMD 2]) = true := by decide +kernel

/-- 05 R167; 13 R479: the LOADER clause of UpdateCommands: every check of the package holds; the same package under another key fails. -/
theorem wit_UpdateCommands_loader : slotCode true [(0, testKey)] loaderImage = 1 ∧ slotCode true [(0, testKey.set 0 0)] loaderImage ≠ 1 := by decide +kernel

/-- 13 R459, R469, R478; 12 R425: hypotheses of UpdateCommands: a block 0 of another image beside a held one whose BUILD_ID is 0, a last block, work that ends without settings of the image's FORMAT, REVERT and LOADER at their ends, COMMIT refused for each reason, a block copied from the partner. -/
theorem wit_UpdateCommands_more : all (
    let head := zeros 8 ++ leBytes 4 40 ++ zeros 20 ++ leBytes 8 1
    let held : Node := { live [] with flash := { xfer := [(0, zeros 40)], xferSize := 40, xferId := 0 } }
    let part : Node := { live [(F.UPD_ARG_BLOCK, 1)] with flash := { xfer := [(1, [1])], xferSize := 65537 } }
    let got : List (Fld × Nat) → Node := fun l => { live ([(F.UPD_STATUS_XFER, 2), (F.PWR_DISCRETE_ZERO_SPEED, 1)] ++ l) with
      flash := { xfer := [(0, loaderImage)], xferSize := 328, xferId := 2 } }
    let busy : Nat → Nat → Node := fun k c => { live [] with flash := { busy := k, work := loaderImage, loaderCur := c } }
    let cold := { paired .coldStandby [] with flash := { xferId := 1 } }
    [held.hasBlock 0, decide (held.flash.xferId ≠ imgBuild head), decide (held.flash.xfer ≠ []), decide (part.flash.xferSize ≠ 0), !part.hasBlock 0,
      decide (part.rd F.UPD_ARG_BLOCK = 1), (got [(F.UPD_STATUS_CONFIRMING, 1)]).on F.UPD_STATUS_CONFIRMING, (got [(F.UPD_CTRL_UPDATE_LOCK, 1)]).on F.UPD_CTRL_UPDATE_LOCK,
      (got [(F.PWR_DISCRETE_ZERO_SPEED, 0)]).moving, decide ((got [(F.UPD_BATT_THRESH, 9)]).rd F.PWR_BATTERY_VOLTS < 9),
      decide (imgFormat (got []).xferImage ≠ (got [(F.UPD_FORMATS_BOOTED, 3)]).rd F.UPD_FORMATS_BOOTED), !(got [(F.UPD_FORMATS_BOOTED, 3)]).hasFormat (imgFormat (got []).xferImage),
      (got []).hasBlock 0, (List.range (blocksOf 328)).all (got []).hasBlock, fit (busy 4 0), fit (busy 6 0), fit (busy 7 0), fit (busy 7 1), decide ((busy 7 1).flash.loaderCur = 1),
      decide ((busy 1 0).flash.work ≠ []), (busy 1 0).ctlOn, fit cold, !cold.single, !cold.tn7Mode, decide (imgBuild head = cold.flash.xferId),
      (paired .active [(F.UPD_STATUS_XFER, 2)] |> fun n => ({ n with flash := { xfer := [(3, [1])] } } : Node)).hasBlock 3]) = true := by decide +kernel

/-- 13 R479: the SETWRITE clause of UpdateCommands: the transfer buffer, read whole, holds a record. -/
theorem wit_UpdateCommands_record : (setRecord (memReadN (memWrite [] 0x2F0000 (setRec 9)) 0x2F0000 65536)).isSome = true := by
  have g : ∀ (m : List Host.Cell) (a j k : Nat), memReadN m a (j + k) = memReadN m a j ++ memReadN m (a + j) k := fun m a j k => by
    simp [memReadN, List.range_add, Nat.add_assoc]
  have h := g (memWrite [] 0x2F0000 (setRec 9)) 0x2F0000 20 65516
  rw [show 20 + 65516 = 65536 from rfl, show 0x2F0000 + 20 = 0x2F0014 from rfl] at h
  have p : memReadN (memWrite [] 0x2F0000 (setRec 9)) 0x2F0000 20 = setRec 9 := by decide +kernel
  have len : (memReadN (memWrite [] 0x2F0000 (setRec 9)) 0x2F0014 65516).length = 65516 := by simp [memReadN]
  rw [h, p]
  generalize memReadN (memWrite [] 0x2F0000 (setRec 9)) 0x2F0014 65516 = r at len
  have k : (setRec 9).length = 20 := by decide +kernel
  have f : ∀ o w, o + w ≤ 20 → slice (setRec 9 ++ r) o w = slice (setRec 9) o w := fun o w b => by
    unfold slice
    rw [List.drop_append_of_le_length (by omega), List.take_append_of_le_length (by rw [List.length_drop, k]; omega)]
  have t : (setRec 9 ++ r).take 16 = (setRec 9).take 16 := List.take_append_of_le_length (by omega)
  have n : leNat (slice (setRec 9) 12 4) = 20 := by decide +kernel
  have c : slice (setRec 9) 0 4 = [0x4B, 0x52, 0x51, 0x54] ∧ crc32c ((setRec 9).take 16) = leNat (slice (setRec 9) 16 4) ∧
      List.drop 16 ((setRec 9).take 16) = [] := by decide +kernel
  have z : 20 ≤ (setRec 9).length + r.length := by omega
  have q : setParse 16384 [] 0 [] = some [] := rfl
  unfold setRecord leAt
  rw [f 12 4 (by omega), n, f 0 4 (by omega), c.1]
  dsimp only
  rw [show 20 - 4 = 16 from rfl, t, f 16 4 (by omega), c.2.1]
  simp [c.2.2, q, z]

/-- 13 R470 to R472: hypotheses of ChainRelay: a node that may offer, one with relay off, one that holds another image, blocks whole, in part and bad, ACKs and NAKs. -/
theorem wit_ChainRelay : all (
    let blk : List Byte := [7, 7, 7]
    let fl : Flash := { xfer := [(0, blk)], xferSize := 3, xferId := 1, placed := true }
    let n : Node := { net [(F.UPD_CTRL_RELAY_EN, 1)] with flash := fl }
    let empty : Node := { n with flash := {} }
    let four : Node := { n with flash := { fl with xfer := [(0, blk), (1, blk), (2, blk), (3, blk)], xferSize := 327680 } }
    let fr := fun ty cause crc : Nat => n.relayFrame 0 ty 1 3 0 0 cause crc blk
    let ok := fun b : List Byte => relayOk (b.drop 14)
    let wire := fun b : List Byte => n.receives 0 && decide (60 ≤ b.length) && decide (b.length + 4 ≤ n.rd (F.PRT_CTRL_MAXLEN 0))
    [wire (fr 1 0 0), wire (fr 2 0 (crc32c blk)), wire (fr 5 0 0), !n.barred 0, n.topoWorks, !n.relayHas 0, decide (n.level = 1),
      (n.setRelay 0 { acked := 1, sent := 1 }).relayHas 0, fit n, n.mayOffer 0, !n.mayOffer 1, n.canTx 0, n.nativeUp 0, !(n.relay 0).started, n.dataOn, n.linkUp 0, decide (1 ≤ n.level), ok (fr 1 0 0), ok (fr 2 0 (crc32c blk)),
      ok (fr 3 0 0), ok (fr 4 1 0), ok (fr 4 2 0), !ok (fr 5 0 0), !(net []).on F.UPD_CTRL_RELAY_EN, decide (leAt (fr 1 0 0) 18 8 = 1), decide (byteAt (fr 2 0 0) 17 = 2),
      decide (({ xfer := [(0, blk)], xferId := 2 } : Flash).xferId ≠ 1), n.hasBlock 0, !empty.hasBlock 0,
      decide (slice (fr 2 0 0) 46 (leAt (fr 2 0 0) 38 2) = blk), decide ((blockLen 3 0 + 1023) / 1024 = 1), decide (blk.length = blockLen 3 0),
      decide (crc32c blk = leAt (fr 2 0 (crc32c blk)) 34 4), decide (crc32c blk ≠ leAt (fr 2 0 5) 34 4), decide ((blockLen 2048 0 + 1023) / 1024 = 2),
      decide (leAt (n.relayFrame 0 3 1 3 0xFFFF 0 0 0 []) 30 2 = 0xFFFF), (List.range 4).all four.hasBlock, !four.hasBlock 4, decide (4 < blocksOf 327680),
      decide ((n.setRelay 0 { naks := 2 }).relay 0 = { naks := 2 }), decide (byteAt (fr 4 1 0) 33 = 1)]) = true := by decide +kernel

/-- 13 R471: hypotheses of ChainRelay: a second and a third NAK of one block, and of another; an ACK of four blocks from a partner that has not answered yet. -/
theorem wit_ChainRelay_more : all (
    let blk : List Byte := [7, 7, 7]
    let n : Node := { net [(F.UPD_CTRL_RELAY_EN, 1)] with flash := { xfer := [(0, blk), (1, blk), (2, blk), (3, blk), (5, blk)], xferSize := 393216, xferId := 1, placed := true } }
    let nak := fun k : Nat => n.relayFrame 0 4 1 393216 k 0 1 0 []
    let wire := fun b : List Byte => n.receives 0 && decide (60 ≤ b.length) && decide (b.length + 4 ≤ n.rd (F.PRT_CTRL_MAXLEN 0)) && relayOk (b.drop 14)
    let r := fun (naks of' : Nat) => ((n.setRelay 0 { naks := naks, nakOf := of', acked := 4 }).relay 0)
    let ack := n.relayFrame 0 3 1 393216 0 0 0 0 []
    [wire (nak 5), wire (nak 4), wire ack, fit n, decide (leAt (nak 5) 30 2 = 5), byteAt (nak 5) 33 == 1, decide (2 ≤ (r 2 5).naks), decide ((r 2 5).nakOf = 5),
      decide ((r 2 5).nakOf ≠ 4), decide ((r 1 5).naks < 2), !n.hasBlock (r 2 5).acked, n.mayOffer 0, decide (leAt ack 30 2 = 0), byteAt ack 17 == 3, !(n.relay 0).started,
      (List.range 4).all n.hasBlock, byteAt (nak 5) 17 == 4, decide (leAt (nak 5) 18 8 = n.flash.xferId)]) = true := by decide +kernel

/-- 10 R357, R363, R366: hypotheses of CanChannels: a CAN XL frame with SEC on a channel no slot is bound to, an error while nothing is sent, a bit error in an error flag at the last TEC below bus-off, EN cleared during an attempt, a configuration that is refused. -/
theorem wit_CanChannels_more : all (
    let n : Node := { (atL2 <| live [(F.CAN_CTRL_EN 7, 1), (F.CAN_CTRL_XL_EN 7, 1), (F.CAN_STATUS_REC 7, 127), (F.CAN_STATUS_TEC 7, 247)]) with chanSlot := [] }
    let f : CanFrame := { id := 1, ide := false, data := [1], xlf := true, sec := true }
    let tries : Node := n.setChan 7 { txq := [{ fr := { f with xlf := false, sec := false } }, { fr := { f with xlf := false, sec := false }, trying := true, clash := 1 }] }
    [fit n, n.canOn 7, n.canFormat 7 f, !n.chanStores 7, decide (n.rd (F.CAN_STATUS_REC 7) < 128), !n.on (F.CAN_CTRL_LOOP 7), f.xlf && f.sec, !n.canSends 7,
      !n.on (F.CAN_CTRL_LISTEN 7), decide (n.rd (F.CAN_STATUS_TEC 7) = 247), n.on (F.CAN_CTRL_EN 7), regPasses tries me (.CAN_CTRL 7) 0, decide ((tries.chan 7).tryAt = 1),
      (tries.chan 7).txq.any (fun y => y.trying && !y.flush), decide (bitOf 0 31 = false), !(live []).canCfgOk 7 0 true true || !(live []).canCfgOk 7 0 false true,
      regPasses (live []) me (.CAN_CTRL 7) (2 ^ 31 + 2 ^ 24)]) = true := by decide +kernel

/-- 10 R350 to R367: hypotheses of CanChannels on the last channel. -/
theorem wit_CanChannels : all (
    let base := atL2 <| live [(F.CAN_CTRL_EN 7, 1), (F.CAN_FLT_ID_EN 7 31, 1), (F.CAN_STATUS_REC 7, 1), (F.CAN_CTRL_CLASH_THR 7, 2), (F.CAN_STATUS_TEC 7, 247)]
    let n : Node := { base with chanSlot := [(7, 1)], fab := { banks := [(0, { free := 9 })] } }
    let f : CanFrame := { id := 0x1FFFFFFF, ide := false, data := [1, 2] }
    let q : Nat → Node := fun k => n.setChan 7 { txq := [{ fr := f, clash := k }] }
    let full : Node := n.setChan 7 { returning := 256 }
    let passive : Node := { n with regs := (base.wr (F.CAN_STATUS_REC 7) 128).regs, chanSlot := [] }
    let off : Node := (live []).setChan 7 { busOff := true }
    let on : Node := (live [(F.CAN_CTRL_EN 7, 1)]).setChan 7 { busOff := true }
    let rx : Node := n.setChan 7 { rx := [{ id := 1 }, { id := 2 }] }
    [fit n, !(live []).canOn 7, n.canOn 7, !n.on (F.CAN_CTRL_LOOP 7), n.canFormat 7 f, decide (n.rd (F.CAN_STATUS_REC 7) < 128), n.chanStores 7, !(f.xlf && f.sec),
      n.canMatch 7 f, !(base.wr (F.CAN_FLT_ID_EN 7 31) 0).canMatch 7 f, decide (n.reserve + cellsFor f.data.length ≤ n.freeCells), decide ((n.chan 7).inUse < 256),
      decide (256 ≤ (full.chan 7).inUse), decide (base.freeCells < base.reserve + 1), (q 0).canSends 7, !n.canSends 7, passive.canOn 7, passive.canFormat 7 f, decide (128 ≤ passive.rd (F.CAN_STATUS_REC 7)), !passive.chanStores 7,
      decide (((q 0).chan 7).txq[((q 0).chan 7).tryAt]? = some { fr := f }), decide (n.log.staged.length < 60), decide ((q 0).rd (F.CAN_STATUS_TEC 7) = 247),
      decide ((n.rd (F.CAN_CTRL_CLASH_THR 7)) = 2), decide (f.id < 2 ^ 29), decide (247 < ((q 0).wr (F.CAN_STATUS_TEC 7) 255).rd (F.CAN_STATUS_TEC 7)),
      (let w := n.setChan 7 { txq := [{ fr := f }, { fr := f, trying := true, flush := true }] }
       w.canSends 7 && decide ((w.chan 7).tryAt = 1) && decide ((w.chan 7).txq[(w.chan 7).tryAt]? = some { fr := f, trying := true, flush := true })), ((n.setChan 7 { recovering := true }).chan 7).recovering, regPasses n me (.CAN_CMD 7) 1,
      regPasses n me (.CAN_CMD 7) 2, regPasses n me (.CAN_CMD 7) (3 + 256 * 255), (off.chan 7).busOff, !off.on (F.CAN_CTRL_EN 7), (on.chan 7).busOff, on.on (F.CAN_CTRL_EN 7),
      decide (((rx.chan 7).rx.map (fun e => e.id)).Nodup), (rx.chan 7).rx.all (fun e => !e.held), regPasses (live []) me (.CAN_CTRL 7) (2 ^ 31), regPasses n me (.CAN_CTRL 7) 0,
      decide ((live []).rd (F.CAN_CTRL_XCVR 7) < 4)]) = true := by decide +kernel

/-- 10 R368 to R376: hypotheses of MvbChannels on channel 1, port 255: no port, a source port, a sink port, the administrator. -/
theorem wit_MvbChannels : all (
    let p : Nat → List (Fld × Nat) := fun d => [(F.MVB_CTRL_EN 1, 1), (F.MVB_PORT_EN 1 255, 1), (F.MVB_PORT_DIR 1 255, d), (F.MVB_PORT_ADDR 1 255, 4095), (F.MVB_PORT_FCODE 1 255, 4)]
    let n : Node := atL2 <| live [(F.MVB_CTRL_EN 1, 1), (F.MVB_CTRL_ADMIN 1, 0), (F.MVB_CTRL_LINE_A 1, 1), (F.MVB_CTRL_LINE_B 1, 0), (F.MVB_STATUS_LINE_A_OK 1, 1)]
    let src : Node := (atL2 <| live ((F.MVB_CTRL_LINE_A 1, 1) :: (F.MVB_CTRL_ADMIN 1, 0) :: p 1)).setChan 9 { src := [(255, zeros 32)] }
    let sink : Node := Node.setChan { (atL2 <| live ((F.MVB_CTRL_LINE_A 1, 1) :: (F.MVB_CTRL_ADMIN 1, 0) :: p 2)) with chanSlot := [(9, 1)], fab := { banks := [(0, { free := 9 })] } } 9 { poll := some (4, 4095) }
    let adm : Node := atL2 <| live ([(F.MVB_CTRL_LINE_A 1, 1), (F.MVB_CTRL_ADMIN 1, 1), (F.MVB_PORT_POLL 1 255, 1), (F.MVB_CTRL_EN 1, 1)] ++ p 2)
    [n.mvbLineOn 1 0, !n.mvbLineOn 1 1, n.on (mvbLineOk 1 0), decide (n.rd (F.MVB_STATUS_RX_LINE 1) = 0), sink.mvbLineOn 1 0, fit adm,
      (n.wr (F.MVB_CTRL_LINE_B 1) 1).mvbLineOn 1 1, decide ((({ adm with clock := { cycles := 2 ^ 30 } } : Node).chan 9).periodAt + 250000 * (1 + adm.rd (F.MVB_ADMIN_BASIC 1)) < 2 ^ 30),
      !(live []).mvbOn 1, n.mvbOn 1, !n.on (F.MVB_CTRL_ADMIN 1), decide (n.mvbPort 1 1 4 4095 = none), decide (src.mvbPort 1 1 4 4095 = some 255),
      decide (FMap.get [] (src.chan 9).src 255 = zeros 32), decide ((src.rd (F.MVB_CTRL_DEVADDR 1)) < 2 ^ 12), adm.on (F.MVB_CTRL_ADMIN 1), adm.mvbOn 1, !(adm.chan 9).conflict,
      decide ((n.chan 9).poll = none), decide (sink.mvbPort 1 2 4 4095 = some 255), sink.chanStores 9, decide ((zeros 32).length = fcodeBytes 4),
      decide (sink.reserve + cellsFor 32 ≤ sink.freeCells), decide ((sink.chan 9).inUse < 256), !sink.on (F.MVB_PORT_ONCHANGE 1 255), decide ((adm.chan 9).pollq = []),
      decide (adm.mvbDue 1 0 = [(4, 4095)]), decide (adm.mvbOwn 1 4 4095 = none), decide (((adm.setChan 9 { poll := some (4, 5) }).chan 9).poll ≠ none),
      regPasses (live [(F.MVB_CTRL_ADMIN 1, 0)]) me (.MVB_CTRL 1) (2 ^ 31), decide ((live []).rd (F.MVB_CTRL_EN 1) = 0), fit sink]) = true := by decide +kernel

/-- A node in epoch 7, at position 2 of a train of two, whose directory names node 5 at position 1, with a route to it; window 63 leads to it. -/
def bridged (l : List (Fld × Nat)) (b : Brg := {}) : Node :=
  { opened ([(F.BRG_CTRL_EN, 1), (F.TOP_EPOCH_EPOCH, 7), (F.TOP_INAUG_COUNT, 2), (F.TOP_INAUG_POSITION, 2), (F.BRG_WIN_CTRL_EN 63, 1),
      (F.BRG_WIN_TARGET_EPOCH 63, 7), (F.BRG_WIN_TARGET_POS 63, 1), (F.BRG_LOCK_CTRL_WIN, 63)] ++ l) with
    ident := 9, brg := b, tabs := [{ num := 8, n := 1, entries := 64, base := 8 }, { num := 9, n := 1, entries := 64, base := 128 }],
    mem := memWrite (memWrite (memWrite [] (tabAddr 9) (leBytes 8 5)) (tabAddr 10) (leBytes 8 9)) (tabAddr 129) (leBytes 8 (2 ^ 63 + 1)) }

/-- 11 R377 to R403: hypotheses of BridgeInitiator: a window that is off, one with a wrong epoch, without a route, and one that leads to node 5; held words, fences, tags free and taken; answers; the locked sequence. -/
theorem wit_BridgeInitiator : all (
    let n : Node := bridged []
    let line : Line := { win := 63, node := 5, addr := 0x40000000, data := zeros 64 }
    let pf := bridged [(F.BRG_WIN_CTRL_PF 63, 1), (F.BRG_WIN_CTRL_BASE 63, 32)] { lines := [line] }
    let t : Tag := { gen := 3, busy := true, win := 63, kind := 1, addr := 0x40000000 }
    let waits := bridged [] { waiting := [{ win := 63 }] }
    let tagged := bridged [] { tags := [(1023, t)] }
    let ans := fun ty cause src data => (BMsg.mk ty 0 7 src 5 (1023 + 1024 * 3) 0 0x40000000 63 cause data).bytes
    let lock := bridged [(F.BRG_LOCK_CTRL_OPEN, 1)]
    let top := 0x80000000 + 63 * 0x2000000 + 0x1FFFFFC
    [n.serves, decide (n.epoch ≠ 0), n.on F.BRG_CTRL_EN, decide (pf.winTarget 63 = .inl (1, 5)),
      decide (pf.brg.lines.find? (fun l => l.win == 63 && l.node == 5 && l.addr == 0x40000000) = some line), decide (n.winTarget 63 = .inl (1, 5)), decide ((bridged [(F.BRG_WIN_TARGET_EPOCH 63, 6)]).winTarget 63 = .inr 3),
      decide ((bridged [(F.BRG_WIN_TARGET_POS 63, 3)]).winTarget 63 = .inr 9),
      decide ((bridged [(F.BRG_WIN_CTRL_MODE 63, 1), (F.BRG_WIN_NODE_LO_NODE_LO 63, 5)]).winTarget 63 = .inl (1, 5)), passes n (wordRead me top),
      passes n (wordWrite me top 5), n.dataOn, n.on (F.BRG_WIN_CTRL_EN 63), !n.on (F.BRG_WIN_CTRL_EN 62), decide (n.rd (F.BRG_WIN_CTRL_BASE 63) * 0x2000000 + 0x1FFFFFC < 0x80000000),
      !(FMap.get {} n.brg.tags 1023).busy, decide (pf.brg.lines.find? (fun l => l.win == 63 && l.addr == 0x40000000) = some line), pf.on (F.BRG_WIN_CTRL_PF 63),
      decide (pf.rd (F.BRG_WIN_CTRL_BASE 63) * 0x2000000 = 0x40000000), !n.on (F.BRG_ERR_CAUSE_VALID 0), (bridged [(F.BRG_WIN_CTRL_FENCE 63, 1)]).on (F.BRG_WIN_CTRL_FENCE 63),
      decide (waits.winTarget 63 = .inl (1, 5)), (FMap.get {} tagged.brg.tags 1023).busy, bmsgOk (ans 8 0 9 (zeros 64)), bmsgOk (ans 8 0 9 (zeros 4)), bmsgOk (ans 8 4 9 []),
      bmsgOk (ans 9 10 9 []), bmsgOk (ans 10 7 9 []), decide ((bmsgOf (ans 8 0 9 (zeros 64))).tag % 1024 = 1023), decide ((bmsgOf (ans 8 0 9 [])).tag / 1024 = t.gen),
      decide ((bmsgOf (ans 8 0 9 [])).src = tagged.ident), decide ((bmsgOf (ans 8 0 8 [])).src ≠ tagged.ident), regPasses n me .BRG_LOCK_CTRL (63 * 2 ^ 16 + 1),
      regPasses lock me .BRG_LOCK_CTRL (63 * 2 ^ 16 + 2), regPasses lock me .BRG_LOCK_CTRL (63 * 2 ^ 16 + 3), regPasses n me .BRG_LOCK_CTRL (63 * 2 ^ 16 + 3),
      decide (pf.brg.lines.filter (fun l => l.win == 63 && l.addr == 64 * 0x1000000) = [line]), decide (n.rd F.BRG_LOCK_CTRL_WIN = 63),
      bitOf ({ n with datasets := [(639, { flags := 3 })] }.dataset 639).flags 1, !n.on (F.BRG_DS_STAT_TIMED_OUT 639)]) = true := by decide +kernel

/-- 11 R385 to R396: hypotheses of BridgeFar: requests taken, held and turned away; reads and writes served and refused; streams at each distance; the lock. -/
theorem wit_BridgeFar : all (
    let n : Node := bridged []
    let q := fun ty dst ep sq fl data => (BMsg.mk ty fl ep 5 dst 0 sq Reg.BRG_LOCK_OFFSET.addr 63 0 data).bytes
    let held := bridged [] { heldReq := [(4, q 1 9 7 0 0 [])] }
    let sched : Node := { n with inaug := { sched := some { epoch := 8 } } }
    let serve := fun b : List Byte => bridged [] { inq := [(4, b)] }
    let rd := wordRead { id := 4, node := 5, pos := 1 }
    let wr := wordWrite { id := 4, node := 5, pos := 1 }
    let st : WStream := { node := 5, win := 63, next := 3, held := [(65535, q 2 9 7 65535 0 (zeros 4))] }
    let lock := bridged [] { lock := some (5, 63, 4) }
    let names := bridged [] { inq := [(4, q 1 9 7 3 4 [])] }
    [n.bridgeOn, n.brg.inRaw.isEmpty, (bridged [] { inRaw := [(4, [])] }).brg.inRaw == [(4, [])], !bmsgOk [], decide (names.stream 5 63 = none),
      decide (names.brg.streams.length < 256), decide (names.brg.inq = [(4, q 1 9 7 3 4 [])]), decide ((bmsgOf (q 1 9 7 3 4 [])).src = 5), decide ((bmsgOf (q 1 9 7 3 4 [])).win = 63),
      decide (((bmsgOf (q 1 9 7 3 4 [])).seq + 65536 - 3) % 65536 < 32768), n.dataOn, bmsgOk (q 1 9 7 0 0 []), bmsgOk (q 2 9 7 3 0 (zeros 4)), bmsgOk (q 3 9 7 0 0 []), bmsgOk (q 4 9 7 0 0 (zeros 4)), bmsgOk (q 5 9 7 0 0 []),
      !bmsgOk (q 6 9 7 0 0 []), n.on F.BRG_CTRL_EN, !(live []).on F.BRG_CTRL_EN, decide (n.brg.inq.length < 128), decide ((bmsgOf (q 1 9 7 0 0 [])).dst = n.ident),
      decide (n.epoch = 7), decide (sched.inaug.sched = some { epoch := 8 }), decide (n.dirPos 5 = 1), decide (n.dirPos 6 = 0), decide (held.brg.heldReq ≠ []),
      (match n.access (rd Reg.BRG_LOCK_OFFSET.addr) with | ⟨.ok _, _⟩ => true | _ => false), (match (live []).access (rd Reg.BRG_LOCK_OFFSET.addr) with | ⟨.prot, _⟩ => true | _ => false),
      (match n.access (rd 0x40000) with | ⟨.err, _⟩ => true | _ => false), decide ((serve []).brg.inq = [(4, [])]),
      (match { n with regs := FMap.put 0 n.regs F.MGT_OWNER_ID.key 4 }.access (wr Reg.BRG_LOCK_OFFSET.addr 4) with | ⟨.ok _, m⟩ => decide (m.brg.streams = []) | _ => false),
      (match n.access (wr Reg.BRG_LOCK_OFFSET.addr 4) with | ⟨.notOwner, _⟩ => true | _ => false), decide ((bridged [] { streams := [st] }).stream 5 63 = some st),
      decide ((3 + 65536 - st.next) % 65536 = 0), decide ((18 + 65536 - st.next) % 65536 = 15), decide (32768 ≤ (2 + 65536 - st.next) % 65536),
      decide (lock.brg.lock = some (5, 63, 4)), decide (n.brg.lock = none), bitOf (bmsgOf (q 1 9 7 3 4 [])).flags 2]) = true := by decide +kernel

/-! ### Ill-formed commands -/

/-- A master with an identity above 4, with a far node's identifier of 49 bits, and with a position above 63 (02 R51). -/
def badMasters : List Master := [{ id := 5 }, { node := 2 ^ 48 }, { pos := 64 }]

/-- 03 R76: an engine past the last one. -/
theorem wf_refuses_engines : ([
    .heldOwnerWriteApply 19, .dispatch 19, .timerFire 19 0, .budget 19, .outputRelease 19, .engineLockstepFailure 19, .slotMove 18, .kNop 19,
    .kEnd 19, .kRet 19, .kRdsp 19, .kRdp 19, .kWrp 19, .kAdd 19, .kSub 19, .kAnd 19, .kOr 19, .kXor 19, .kAndn 19, .kShl 19, .kShr 19, .kSar 19,
    .kRor 19, .kMin 19, .kMax 19, .kMinu 19, .kMaxu 19, .kSext 19, .kZext 19, .kMul 19, .kMulhs 19, .kMulhu 19, .kDivs 19, .kDivu 19, .kRems 19,
    .kRemu 19, .kBswap 19, .kPopc 19, .kClz 19, .kAbs 19, .kCmp 19, .kAddi 19, .kMovi 19, .kMovk 19, .kLd 19, .kSt 19, .kLdx 19, .kStx 19, .kExtb 19,
    .kInsb 19] : List Instr).all (fun c => !c.wf) = true := by
  decide +kernel

/-- 03 R76: an engine past the last one. -/
theorem wf_refuses_more_engines : ([
    .kSat 19, .kScale 19, .kRange 19, .kConv 19, .kLds 19, .kSts 19, .kBr 19, .kCall 19, .kLoop 19, .kWait 19 0, .kSignal 19, .kRxq 19, .kEmit 19,
    .kLaunch 19, .kDrop 19, .kTblLk 19, .kTblRd 19, .kTblWr 19, .kTblIns 19, .kTblDel 19, .kTblLkrd 19, .kTopoPstat 19, .kTopoNbr 19, .kTopoCand 19,
    .kTopoAgree 19, .kTopoCommit 19, .kTopoCancel 19, .kTopoNewep 19, .kTopoAccept 19, .kTopoTstat 19, .kTopoLevel 19] : List Instr).all (fun c => !c.wf) = true := by
  decide +kernel

/-- 02 R51: a master out of range. -/
theorem wf_refuses_masters : badMasters.all (fun m => ([
    .bootDone m, .relayMismatchClear m 0, .relayForce m 0 true, .registerWrite m 0 1 0, .capturingRead m 0 1, .higherWordRead m 0 1,
    .deltaViewRead m 0 0, .tableWindowWrite m 0 1 0, .signalStoreWrite m 0 0, .mailboxWrite m 0 1 0, .codeMemoryWrite m 0 0, .runEngine m 0 true,
    .holdEngine m 0 true, .clrPeak m 0, .doorbell m 0, .ownerRequestedShift m 0 0, .tailWrite m true 0 0, .ringDisable m true 0,
    .irqSourceEnable m 0 0, .freeze m, .acceptStep m, .timeSet m, .switchover m, .drillNow m, .request m, .handover m, .renew m, .withdraw m,
    .restart m, .stable m, .blockStore m, .commitUpdate m, .confirmUpdate m, .revert m, .abortTransfer m, .setwrite m, .loaderWrite m,
    .canEnable m 0 0, .recover m 0, .flushTx m 0, .rxack m 0 0, .mvbEnable m 0, .windowRead m 0 1, .windowWrite m 0 1 0, .lockRead m, .writeUnlock m,
    .unlock m] : List Instr).all (fun c => !c.wf)) = true := by
  decide +kernel

/-- Ports, classes, gears, lines, channels, rings, windows, widths past their ranges. -/
theorem wf_refuses_ranges : ([
    .lockstepMismatch (2 ^ 32), .relayMismatch 2, .relayMismatchClear {} 2, .relayForce {} 2 true, .registerWrite {} (2 ^ 32) 1 0,
    .registerWrite {} 0 0 0, .registerWrite {} 0 1 256, .capturingRead {} (2 ^ 32) 1, .capturingRead {} 0 0, .higherWordRead {} (2 ^ 32) 1,
    .higherWordRead {} 0 0, .deltaViewRead {} 23 0, .deltaViewRead {} 0 64, .tableWindowWrite {} (2 ^ 32) 1 0, .tableWindowWrite {} 0 0 0,
    .tableWindowWrite {} 0 1 256, .signalStoreWrite {} (2 ^ 32) 0, .signalStoreWrite {} 0 (2 ^ 32), .mailboxWrite {} (2 ^ 32) 1 0,
    .mailboxWrite {} 0 0 0, .mailboxWrite {} 0 1 256, .codeMemoryWrite {} (2 ^ 32) 0, .codeMemoryWrite {} 0 (2 ^ 32), .runEngine {} 19 true,
    .holdEngine {} 19 true, .clrPeak {} 19, .doorbell {} 19, .timerFire 0 64, .kWait 0 (2 ^ 32), .scrubWord .packet 64 0 true,
    .scrubWord .packet 0 (2 ^ 40) true, .frameReceived 20 {}, .frameReceived 22 {}, .pfcRepeat 20 0, .pfcRepeat 0 8, .pauseReceived 20 {},
    .pauseExpiry 20 0, .pauseExpiry 0 8, .verifyReceived 20, .respondReceived 20, .verifyTimer 20, .egressSchedule 20, .egressSchedule 22,
    .copyTransmitted 20, .copyTransmitted 22, .cellReturn 26 0, .cellReturn 0 4097, .linkUp 20 1, .linkUp 0 0, .linkUp 0 6, .linkDown 20,
    .autoModeDetect 4 true, .capabilityRecordReceived 4, .capabilityTimer 4, .lpiEntry 3, .lpiEntry 16, .lpiWakeComplete 3, .lpiWakeComplete 16,
    .gearDecision 4 0 0 0 0, .gearDecision 0 256 0 0 0, .gearDecision 0 0 256 0 0, .gearDecision 0 0 0 256 0, .gearDecision 0 0 0 0 256,
    .ownerRequestedShift {} 4 0, .ownerRequestedShift {} 0 8, .gearReq 4 0 0 0, .gearReq 0 8 0 0, .gearReq 0 0 0 (2 ^ 48), .gearAck 4, .gearNak 4 0,
    .gearRetry 4, .gearDeferred 4, .silenceStart 4, .silenceEnd 4 0, .qualityDownshift 4 0 0 0 0, .qualityDownshift 0 256 0 0 0,
    .qualityDownshift 0 0 256 0 0, .qualityDownshift 0 0 0 256 0, .qualityDownshift 0 0 0 0 256, .wakePatternMatch 3 {}] : List Instr).all (fun c => !c.wf) = true := by
  decide +kernel

/-- The same. -/
theorem wf_refuses_more_ranges : ([
    .wakePatternMatch 16 {}, .hostTxDescriptorFetch 16 (zeros 32) [], .hostTxDescriptorFetch 0 (zeros 33) [], .tailWrite {} true 16 0,
    .tailWrite {} true 0 4096, .ringDisable {} true 16, .hostRxDelivery 16 (zeros 32), .hostRxDelivery 0 (zeros 33), .irqSourceEnable {} 64 0,
    .irqSourceEnable {} 0 64, .bankDrainStart 26, .spareCellRelease 26, .recoveryResetTimeout 1024, .launchDue 20, .hello 4 [], .neighbourTimeout 4,
    .epochDifferenceTimeout 4, .report 4 [], .propose 4 [], .confirmRound 4 [], .abortRound 4 [], .mark 4 [], .markTimeout 4, .tn7Ident 4 [],
    .tn7RecordExpiry 4, .ttdpFrame 4 true [], .sync 20 {}, .followUp 20 {}, .announce 20 {}, .pdelayReq 20 {}, .pdelayResp 20 {},
    .ptpMessageInterval 20 0, .ptpMessageInterval 0 3, .receiptTimeout 20, .heartbeatReceived 2 [], .checkpointBlockReceived (2 ^ 32) 0 true true {},
    .checkpointBlockReceived 0 65536 true true {}, .drillComplete (2 ^ 28) ⟨0, 0, 0⟩, .drillComplete 0 ⟨2 ^ 18, 0, 0⟩, .drillComplete 0 ⟨0, 2 ^ 20, 0⟩, .drillComplete 0 ⟨0, 0, 2 ^ 10⟩, .relayOfferTimer 4, .relayOffer 4 [],
    .relayBlock 4 [], .relayAck 4 [], .relayNak 4 [], .standbyImageCopy 65536 [], .flashBlockRetire 2 0, .flashBlockRetire 0 4096, .canEnable {} 8 0,
    .canEnable {} 0 (2 ^ 32), .canFrameValid 8 {}, .canTxSuccess 8, .canError 8 .rxError, .recover {} 8, .recoveryComplete 8, .flushTx {} 8,
    .rxack {} 8 0, .rxack {} 0 256, .fieldbusEntryFreed 10, .mvbMasterFrame 2 0 0 true, .mvbMasterFrame 0 16 0 true, .mvbMasterFrame 0 0 4096 true,
    .mvbSlaveFrame 2 true 0 [], .mvbSlaveFrame 0 true 2 [], .mvbBasicPeriod 2, .mvbReplyTimeout 2, .mvbEnable {} 2, .windowRead {} (2 ^ 32) 1,
    .windowRead {} 0 0, .windowWrite {} (2 ^ 32) 1 0, .windowWrite {} 0 0 0, .windowWrite {} 0 1 256, .readTimeout 1024, .writeGapTimeout (2 ^ 48) 0,
    .writeGapTimeout 0 64, .prefetchLineExpiry 64 0, .prefetchLineExpiry 0 (2 ^ 32), .datasetTimeout 640, .heartbeatPathSilent 2, .ttdpTimer 4] : List Instr).all (fun c => !c.wf) = true := by
  decide +kernel

/-- Byte strings longer than any frame. -/
theorem wf_refuses_lengths (b : List Byte) (h : 65536 < b.length) : ([
    .frameReceived 0 { bytes := b }, .pauseReceived 0 { bytes := b }, .wakePatternMatch 4 { bytes := b }, .hostTxDescriptorFetch 0 (zeros 32) b,
    .hello 0 b, .report 0 b, .propose 0 b, .confirmRound 0 b, .abortRound 0 b, .mark 0 b, .tn7Ident 0 b, .ttdpFrame 0 true b, .heartbeatReceived 0 b,
    .relayOffer 0 b, .relayBlock 0 b, .relayAck 0 b, .relayNak 0 b, .standbyImageCopy 0 b, .mvbSlaveFrame 0 true 0 b, .completion b, .farRead b,
    .farWrite b, .writeErr b, .farLockRead b, .farUnlock b, .lockBroken b] : List Instr).all (fun c => !c.wf) = true := by
  have k : ¬ b.length < 65536 := by omega
  have j : ¬ b.length ≤ 65536 := by omega
  simp [Instr.wf, k, j]

/-- 10 R357: CAN frames no bus carries. -/
theorem wf_refuses_can : ([{ id := 2 ^ 29 }, { data := zeros 65 }, { sdt := 256, xlf := true }, { acpt := 2 ^ 32, xlf := true }] : List CanFrame).all
    (fun f => !(Instr.canFrameValid 0 f).wf) = true ∧ ∀ b : List Byte, 2048 < b.length → (Instr.canFrameValid 0 { data := b, xlf := true }).wf = false := by
  constructor
  · decide +kernel
  · intro b h
    have k : ¬ b.length ≤ 2048 := by omega
    simp [Instr.wf, CanFrame.wf, k]

/-- Commands with operands at the ends of their ranges are well formed. -/
theorem wf_accepts : ([.kNop 18, .slotMove 17, .copyTransmitted 21, .linkUp 19 5, .request { id := 4, node := 2 ^ 48 - 1, pos := 63 }, .rxack {} 7 255, .datasetTimeout 639] : List Instr).all
    Instr.wf = true := by decide +kernel

/-! ### Values the spec gives -/

/-- 00: the check values of CRC-32 and CRC-32C over the digits 1 to 9, as their standards state them. -/
theorem test_crc : crc32 ((List.range 9).map (fun k => BitVec.ofNat 8 (49 + k))) = 0xCBF43926 ∧
    crc32c ((List.range 9).map (fun k => BitVec.ofNat 8 (49 + k))) = 0xE3069283 := by decide +kernel

/-- 01 R39: hypothesis of StepSettles: a step of the unpowered machine, and one that runs a command, answer a next state; 00 R10: a command answers one, which is what OnlyReservedWritesStop asks of the queue. -/
theorem wit_StepSettles : ([State.reset, { State.reset with pending := [.cabActiveChange true] }] : List State).all (fun s =>
    match step s with
    | .next t => t.pending.isEmpty
    | _ => false) = true := by decide +kernel

/-- 03 R81 to R83: hypotheses of DataSpaceBytes at the ends of each range, with and without an input. -/
theorem wit_DataSpaceBytes :
    let held : Act := { input := some { hdr := [7], data := [5] } }
    let n := live []
    ({} : Act).input = none ∧ held.input = some { hdr := [7], data := [5] } ∧ (∀ h ∈ held.outs, isMbox h = false) ∧ actByte n 0 {} 0x243F = 0 ∧
      actByte n 0 held 0 = 7 ∧ actByte n 0 held 0x40 = 5 ∧ actByte n 0 held 0x243F = 0 ∧ actByte n 0 held 0x1243F = 0 ∧ actByte n 0 held 0x20FFF = 0 := by
  decide +kernel

/-- 15 R528: the LEDs of an active node at L1 in an epoch, in a round, on hold-up, and of a standby, a drill and a stabled node. -/
theorem test_leds :
    let both := live [(F.PWR_STATUS_BAT_OK, 1)]
    (net []).leds = [.steady .yellow, .steady .green, .steady .green, .dark] ∧
    ({ net [(F.PWR_STATUS_HOLDUP, 1)] with inaug := { openR := true } } : Node).leds = [.flash .green, .steady .green, .flash .green, .dark] ∧
    ({ both with mode := .coldStandby } : Node).leds = [.steady .green, .steady .yellow, .dark, .dark] ∧
    ({ both with mode := .drill } : Node).ledRole = .flash .yellow ∧ ({ both with mode := .updating } : Node).ledFault = .flash .red ∧
    ({ both with mode := .stabled } : Node).leds = [.dark, .dark, .dark, .dark] := by decide +kernel

/-- 00 R8: a half-word write of a register, and a word across the end of the registers, end in a bus error; neither leaves a violation. -/
theorem test_sizes : ([(0x10600024, 2), (0x2003FFFE, 4)] : List (Nat × Nat)).all (fun x =>
    match (live []).access { wordWrite me x.1 5 with size := x.2 } with
    | ⟨.err, m⟩ => decide (m.rd F.PRO_VIOL_COUNT_COUNT = 0) && !m.on F.PRO_VIOL_VALID
    | _ => false) = true := by decide +kernel

end Sys2Proof.Tests
end

section
/-! Kerarqua: what one instruction of the ALU group leaves (04 R126), and the corners of division (04 R127). -/

namespace Sys2Proof.Machine

open Sys2Proof

/-! ### The ALU group -/

/-- An ALU row that issues completes with its result in g[rd]; no operation of the group raises an exception or changes anything but its activation (04 R126). -/
theorem EngineDone.of_alu {c : Instr} {s : State} {e : Nat} {t : KTag} {i : KIns}
    (hx : exec c s = s.to (s.node.kStep e [t] effAlu)) (hf : s.node.fits) (ht : i.tag = t)
    (hi : Issues s.node e i (kCost t 0)) :
    EngineDone c s e (((s.node.eng e).act.wg i.rd
      (aluOp t ((s.node.eng e).act.rg i.ra) (i.second (s.node.eng e).act))).past i (kCost t 0)) := by
  subst ht
  refine EngineDone.of_kStep hx hf hi (List.mem_singleton.mpr rfl) ?_
    (Act.wg_cyc _ _ _) (Act.wg_pc _ _ _) (Act.wg_loops _ _ _) (Act.wg_budget _ _ _)
  rw [effAlu, KRes.done, second_eq]

/-! ### The division rows -/

theorem exec_kDivs (e : Nat) (s : State) : exec (.kDivs e) s = s.to (s.node.kStep e [.divs] effAlu) := rfl

theorem exec_kDivu (e : Nat) (s : State) : exec (.kDivu e) s = s.to (s.node.kStep e [.divu] effAlu) := rfl

theorem exec_kRems (e : Nat) (s : State) : exec (.kRems e) s = s.to (s.node.kStep e [.rems] effAlu) := rfl

theorem exec_kRemu (e : Nat) (s : State) : exec (.kRemu e) s = s.to (s.node.kStep e [.remu] effAlu) := rfl

/-! ### Division by zero, and the largest negative quotient (04 R127) -/

@[simp] theorem aluOp_divs_zero (a : W64) : aluOp .divs a 0 = BitVec.ofInt 64 (-1) := by simp [aluOp]

@[simp] theorem aluOp_divu_zero (a : W64) : aluOp .divu a 0 = 0xFFFFFFFFFFFFFFFF := by simp [aluOp]

@[simp] theorem aluOp_rems_zero (a : W64) : aluOp .rems a 0 = a := by simp [aluOp]

@[simp] theorem aluOp_remu_zero (a : W64) : aluOp .remu a 0 = a := by simp [aluOp]

/-- The quotient 2^63 does not fit a word and wraps to −2^63. -/
theorem aluOp_divs_min_negOne :
    aluOp .divs (BitVec.ofInt 64 (-2 ^ 63)) (BitVec.ofInt 64 (-1)) = BitVec.ofInt 64 (-2 ^ 63) := by decide

theorem aluOp_rems_min_negOne : aluOp .rems (BitVec.ofInt 64 (-2 ^ 63)) (BitVec.ofInt 64 (-1)) = 0 := by decide

/-- Settles O2: every division row completes with what `aluOp` gives, and `aluOp` gives the corners of 04 R127. -/
theorem divisionCorners : Obligations.DivisionCorners := by
  intro s e i hf hi act a b gives
  have divs (ht : i.tag = .divs) : gives (.kDivs e) (aluOp .divs a b) := .of_alu (exec_kDivs e s) hf ht hi
  have divu (ht : i.tag = .divu) : gives (.kDivu e) (aluOp .divu a b) := .of_alu (exec_kDivu e s) hf ht hi
  have rems (ht : i.tag = .rems) : gives (.kRems e) (aluOp .rems a b) := .of_alu (exec_kRems e s) hf ht hi
  have remu (ht : i.tag = .remu) : gives (.kRemu e) (aluOp .remu a b) := .of_alu (exec_kRemu e s) hf ht hi
  refine ⟨fun ht => ⟨_, divs ht⟩, fun ht => ⟨_, divu ht⟩, fun ht => ⟨_, rems ht⟩, fun ht => ⟨_, remu ht⟩,
    fun hb => ?_, fun ha hb => ?_⟩
  · rw [hb, aluOp_divs_zero] at divs
    rw [hb, aluOp_divu_zero] at divu
    rw [hb, aluOp_rems_zero] at rems
    rw [hb, aluOp_remu_zero] at remu
    exact ⟨divu, divs, remu, rems⟩
  · rw [ha, hb, aluOp_divs_min_negOne] at divs
    rw [ha, hb, aluOp_rems_min_negOne] at rems
    exact ⟨divs, rems⟩

end Sys2Proof.Machine
end

section
/-! Kerarqua: RXQ takes the next input of an engine receive queue or of a field-bus channel (04 R142; 10 R348). -/

namespace Sys2Proof.Machine

open Sys2Proof

/-! ### One instruction that changes units beside its activation -/

/-- An instruction in `tags` whose effect ends in the node `m` and keeps the engine: the step leaves `m` with the activation moved past the instruction. -/
theorem Node.kStep_ok (n m : Node) (e : Nat) (tags : List KTag) (eff : Node → Act → KIns → KRes) (i : KIns) (cost : Nat)
    (a' : Act) (h : Issues n e i cost) (ht : i.tag ∈ tags)
    (he : eff n (n.eng e).act i = .ok { n := m, a := a', cost := cost }) (hm : m.eng e = n.eng e)
    (hc : a'.cyc = (n.eng e).act.cyc) (hp : a'.pc = (n.eng e).act.pc) (hl : a'.loops = (n.eng e).act.loops)
    (hb : a'.budget = (n.eng e).act.budget) :
    n.kStep e tags eff = m.setEng e { n.eng e with act := a'.past i cost } := by
  have hle : ¬ (n.eng e).act.budget < (n.eng e).act.cyc + cost := by have := h.budget; omega
  have hne : ¬ (n.eng e).act.budget = (n.eng e).act.cyc + cost := by have := h.budget; omega
  unfold Node.kStep
  simp only [h.phase, h.fetch, h.check, ht, h.guard, he]
  unfold Node.retire Act.past
  simp [hle, hne, hc, hp, hl, hb, hm, h.phase]

/-- A command that is one instruction of an engine leaves the node its effect gives, where that keeps the engine and what the service level depends on. -/
theorem Leaves.of_kStep {c : Instr} {s : State} {e : Nat} {tags : List KTag} {eff : Node → Act → KIns → KRes} {i : KIns}
    {cost : Nat} {a' : Act} {m : Node} (hx : exec c s = s.to (s.node.kStep e tags eff)) (hf : s.node.fits)
    (h : Issues s.node e i cost) (ht : i.tag ∈ tags)
    (he : eff s.node (s.node.eng e).act i = .ok { n := m, a := a', cost := cost }) (hm : m.eng e = s.node.eng e)
    (hlevel : m.level = s.node.level) (hallowed : m.allowed = s.node.allowed)
    (hc : a'.cyc = (s.node.eng e).act.cyc) (hp : a'.pc = (s.node.eng e).act.pc)
    (hl : a'.loops = (s.node.eng e).act.loops) (hb : a'.budget = (s.node.eng e).act.budget) :
    Leaves c s (m.setEng e { s.node.eng e with act := a'.past i cost }) := by
  rw [s.node.kStep_ok m e tags eff i cost a' h ht he hm hc hp hl hb] at hx
  exact Leaves.of_to hx hlevel hallowed hf

/-! ### Engine receive queues and channels -/

@[simp] theorem Node.setEngQueue_eng (n : Node) (t q : Nat) (l : List Copy) (e : Nat) : (n.setEngQueue t q l).eng e = n.eng e := rfl

@[simp] theorem Node.setEngQueue_level (n : Node) (t q : Nat) (l : List Copy) : (n.setEngQueue t q l).level = n.level := rfl

@[simp] theorem Node.setEngQueue_allowed (n : Node) (t q : Nat) (l : List Copy) : (n.setEngQueue t q l).allowed = n.allowed := rfl

@[simp] theorem Node.setChan_eng (n : Node) (k : Nat) (x : Chan) (e : Nat) : (n.setChan k x).eng e = n.eng e := rfl

/-- Nothing to discard in an empty queue. -/
theorem Node.dropBad_of_nil {n : Node} {t q : Nat} (h : n.engQueue t q = []) : n.dropBad t q = n := by
  simp [Node.dropBad, h]

/-- A queue whose head holds no uncorrectable error stays as it is (02 R68). -/
theorem Node.dropBad_of_good {n : Node} {t q : Nat} {c : Copy} {r : List Copy} (h : n.engQueue t q = c :: r)
    (hb : (n.frame c.fid).bad = false) : n.dropBad t q = n := by
  simp [Node.dropBad, h, hb]

theorem Node.takeFrame_of_nil {n : Node} {t q : Nat} (ep : Nat) (h : n.engQueue t q = []) : n.takeFrame t q ep = none := by
  simp [Node.takeFrame, h]

theorem Node.takeFrame_of_cons {n : Node} {t q : Nat} {c : Copy} {r : List Copy} (ep : Nat) (h : n.engQueue t q = c :: r) :
    n.takeFrame t q ep = some
      ({ src := if (n.frame c.fid).topo then 3 else 0, fid := c.fid, hdr := ethHeader (n.frame c.fid) c q ep,
         data := (n.frame c.fid).data }, n.setEngQueue t q r) := by
  simp [Node.takeFrame, h]

theorem Node.takeEntry_of_unbound {n : Node} {k t : Nat} (ep : Nat) (h : n.chanBound k t = false) :
    n.takeEntry k t ep = none := by
  simp [Node.takeEntry, h]

theorem Node.takeEntry_of_nil {n : Node} {k : Nat} (t ep : Nat) (h : (n.chan k).waiting = []) : n.takeEntry k t ep = none := by
  simp [Node.takeEntry, h]

theorem Node.takeEntry_of_cons {n : Node} {k t : Nat} {y : FbEntry} {r : List FbEntry} (ep : Nat)
    (hb : n.chanBound k t = true) (h : (n.chan k).waiting = y :: r) :
    n.takeEntry k t ep = some
      ({ src := if k < 8 then 1 else 2, chan := k, eid := y.id, hdr := fbHeader k y ep, data := y.data },
       n.setChan k { n.chan k with
         rx := (n.chan k).rx.map (fun z => if z.id = y.id then { z with held := true } else z) }) := by
  simp [Node.takeEntry, hb, h]

/-! ### The source an RXQ names -/

/-- The node from which an RXQ takes: kind 0 first discards the frames with an uncorrectable error at the head of its queue (02 R68). -/
def Node.rxqCleared (n : Node) (e : Nat) (i : KIns) : Node :=
  if i.fn / 16 = 0 then n.dropBad ((n.slotIdx e).getD 31) (i.fn % 16) else n

/-- What an RXQ takes, with the node left: the head of the queue (kind 0) or the oldest waiting entry of the channel that fn names (04 R142). -/
def Node.rxqSource (n : Node) (e : Nat) (a : Act) (i : KIns) : Option (Input × Node) :=
  if i.fn / 16 = 0 then (n.rxqCleared e i).takeFrame ((n.slotIdx e).getD 31) (i.fn % 16) a.ep
  else (n.rxqCleared e i).takeEntry (i.fn % 16) ((n.slotIdx e).getD 31) a.ep

/-- The kind and the number of an RXQ's source are the two halves of fn. -/
theorem rxq_source_fields {fn : Nat} (h : fn < 128) : bitsOf fn 6 4 = fn / 16 ∧ bitsOf fn 3 0 = fn % 16 := by
  unfold bitsOf
  omega

theorem effRxq_of_none {n : Node} {e : Nat} {a : Act} {i : KIns} (hfn : i.fn < 128) (h : n.rxqSource e a i = none) :
    effRxq n e a i = .done (n.rxqCleared e i) { a with preds := writePred a.preds i.rd false } i := by
  obtain ⟨hkind, hnum⟩ := rxq_source_fields hfn
  unfold Node.rxqSource Node.rxqCleared at h
  simp only [effRxq, Node.rxqCleared, hkind, hnum, h]

theorem effRxq_of_some {n m : Node} {e : Nat} {a : Act} {i : KIns} {p : Input} (hfn : i.fn < 128)
    (h : n.rxqSource e a i = some (p, m)) (hroom : a.nrx < 8) :
    effRxq n e a i = .done m
      { a with preds := writePred a.preds i.rd true, input := some p, taken := a.taken ++ [p], nrx := a.nrx + 1 } i := by
  obtain ⟨hkind, hnum⟩ := rxq_source_fields hfn
  have hlimit : ¬ 8 ≤ a.nrx := by omega
  unfold Node.rxqSource Node.rxqCleared at h
  simp only [effRxq, hkind, hnum, h, hlimit, if_false]

/-! ### RXQ as a command -/

theorem exec_kRxq (e : Nat) (s : State) : exec (.kRxq e) s = s.to (s.node.kStep e [.rxq] (fun n a i => effRxq n e a i)) := rfl

theorem KRes.done_rxq (n : Node) (a : Act) {i : KIns} (ht : i.tag = .rxq) : KRes.done n a i = .ok { n := n, a := a, cost := 4 } := by
  rw [KRes.done, ht]
  rfl

/-- The fields of an instruction about to execute are in range (04 R121). -/
theorem Issues.fn_lt {n : Node} {e : Nat} {i : KIns} {cost : Nat} (h : Issues n e i cost) : i.fn < 128 := by
  obtain ⟨topo, w, x, rfl, hx⟩ := h.decoded
  obtain ⟨-, -, -, hfn, -⟩ := kDecode_fields topo w x hx
  exact hfn

section Rxq

variable {s : State} {e : Nat} {i : KIns} (hf : s.node.fits) (hi : Issues s.node e i 4) (ht : i.tag = .rxq)
include hf hi ht

/-- An RXQ whose source is empty sets c false and changes nothing else (04 R142). -/
theorem rxq_takes_nothing (hn : s.node.rxqSource e (s.node.eng e).act i = none) (hd : s.node.rxqCleared e i = s.node) :
    ∃ ps, PredDest (s.node.eng e).act.preds i.rd false ps ∧
      EngineDone (.kRxq e) s e ({ (s.node.eng e).act with preds := ps }.past i 4) := by
  refine ⟨_, pred_dest _ _ _, EngineDone.of_kStep (exec_kRxq e s) hf hi (List.mem_singleton.mpr ht) ?_ rfl rfl rfl rfl⟩
  rw [effRxq_of_none hi.fn_lt hn, hd, KRes.done_rxq _ _ ht]

/-- An RXQ below the limit of 03 R98 holds the input it takes, and sets c true (04 R142). -/
theorem rxq_takes {p : Input} {m : Node} (hs : s.node.rxqSource e (s.node.eng e).act i = some (p, m))
    (hroom : (s.node.eng e).act.nrx < 8) (hm : m.eng e = s.node.eng e) (hlevel : m.level = s.node.level)
    (hallowed : m.allowed = s.node.allowed) :
    ∃ ps, PredDest (s.node.eng e).act.preds i.rd true ps ∧
      Leaves (.kRxq e) s (m.setEng e { s.node.eng e with
        act := { (s.node.eng e).act with
          preds := ps, input := some p, taken := (s.node.eng e).act.taken ++ [p], nrx := (s.node.eng e).act.nrx + 1 }.past i 4 }) := by
  refine ⟨_, pred_dest _ _ _,
    Leaves.of_kStep (exec_kRxq e s) hf hi (List.mem_singleton.mpr ht) ?_ hm hlevel hallowed rfl rfl rfl rfl⟩
  rw [effRxq_of_some hi.fn_lt hs hroom, KRes.done_rxq _ _ ht]

end Rxq

/-! ### The two kinds of source -/

section Kinds

variable {n : Node} {e : Nat} {i : KIns} (a : Act)

theorem Node.rxqCleared_queue (h : i.fn / 16 = 0) : n.rxqCleared e i = n.dropBad ((n.slotIdx e).getD 31) (i.fn % 16) := by
  simp [Node.rxqCleared, h]

theorem Node.rxqCleared_channel (h : i.fn / 16 = 1) : n.rxqCleared e i = n := by
  simp [Node.rxqCleared, h]

/-- Where no frame is discarded, kind 0 takes from the queue as it stands. -/
theorem Node.rxqSource_queue (h : i.fn / 16 = 0) (hd : n.dropBad ((n.slotIdx e).getD 31) (i.fn % 16) = n) :
    n.rxqSource e a i = n.takeFrame ((n.slotIdx e).getD 31) (i.fn % 16) a.ep := by
  rw [Node.rxqSource, if_pos h, Node.rxqCleared_queue h, hd]

theorem Node.rxqSource_channel (h : i.fn / 16 = 1) :
    n.rxqSource e a i = n.takeEntry (i.fn % 16) ((n.slotIdx e).getD 31) a.ep := by
  rw [Node.rxqSource, if_neg (by omega), Node.rxqCleared_channel h]

end Kinds

/-- A channel bound to another slot, or to none, is not bound to slot `t` (10 R347). -/
theorem Node.chanBound_eq_false {n : Node} {k t : Nat} (h : FMap.get 0 n.chanSlot k ≠ t + 1) : n.chanBound k t = false := by
  simpa [Node.chanBound] using h

/-- Settles O11: each source either gives nothing, so that c is false, or its oldest input, which RXQ holds. -/
theorem rxqResults : Obligations.RxqResults := by
  intro s e i hf hi ht
  refine ⟨fun hk hq => ?_, fun hk hb => ?_, fun hk _ hw => ?_, fun c r hk hroom hq hgood => ?_,
    fun y r hk hroom hb hw => ?_⟩
  · have hd := Node.dropBad_of_nil hq
    refine rxq_takes_nothing hf hi ht ?_ (by rw [Node.rxqCleared_queue hk, hd])
    rw [Node.rxqSource_queue _ hk hd, Node.takeFrame_of_nil _ hq]
  · refine rxq_takes_nothing hf hi ht ?_ (Node.rxqCleared_channel hk)
    rw [Node.rxqSource_channel _ hk, Node.takeEntry_of_unbound _ (Node.chanBound_eq_false hb)]
  · refine rxq_takes_nothing hf hi ht ?_ (Node.rxqCleared_channel hk)
    rw [Node.rxqSource_channel _ hk, Node.takeEntry_of_nil _ _ hw]
  · have hs := Node.rxqSource_queue (s.node.eng e).act hk (Node.dropBad_of_good hq hgood)
    rw [Node.takeFrame_of_cons _ hq] at hs
    exact rxq_takes hf hi ht hs hroom (Node.setEngQueue_eng ..) (Node.setEngQueue_level ..) (Node.setEngQueue_allowed ..)
  · have hs := Node.rxqSource_channel (n := s.node) (e := e) (s.node.eng e).act hk
    rw [Node.takeEntry_of_cons _ hb hw] at hs
    exact rxq_takes hf hi ht hs hroom (Node.setChan_eng ..) (Node.setChan_level ..) (Node.allowed_setChan ..)

end Sys2Proof.Machine
end


section
/-! The end of every command (01 R39, R42; 07 R266): `settle` leaves an allowed level, relays that follow their drive and a true margin mark. -/

namespace Sys2Proof.Machine

open Sys2Proof

/-! ### How a command ends -/

/-- The outcome, where it is a next state, is `s` with a settled node. -/
def EndsSettled (s : State) (o : Host.Outcome State Fault Refusal) : Prop :=
  ∀ t, o = .next t → ∃ m, t = { s with node := settle s.node m }

theorem EndsSettled.node {s t : State} {o : Host.Outcome State Fault Refusal} (h : EndsSettled s o) (ho : o = .next t) :
    ∃ m, t.node = settle s.node m := by
  obtain ⟨m, hm⟩ := h t ho
  exact ⟨m, by rw [hm]⟩

theorem EndsSettled.to (s : State) (m : Node) : EndsSettled s (s.to m) := by
  intro t h
  cases h
  exact ⟨m, rfl⟩

theorem EndsSettled.toBus (s : State) (o : Option Nat × Node) : EndsSettled s (s.toBus o) := by
  unfold State.toBus
  split
  · exact .to s _
  · intro t h
    cases h

theorem EndsSettled.given (s : State) (c : Bool) {o : Host.Outcome State Fault Refusal} (h : EndsSettled s o) :
    EndsSettled s (s.given c o) := by
  unfold State.given
  split
  · exact h
  · exact .to s _

/-- Every command that completes leaves a settled node and the queue as it was. -/
theorem exec_endsSettled (c : Instr) (s : State) : EndsSettled s (exec c s) := by
  cases c
  case bootDone | registerWrite | capturingRead | higherWordRead | tableWindowWrite | signalStoreWrite | mailboxWrite | codeMemoryWrite |
      freeze | acceptStep | timeSet | switchover | drillNow | request | handover | renew | withdraw | restart | stable | blockStore |
      commitUpdate | confirmUpdate | revert | abortTransfer | setwrite | loaderWrite | windowRead | windowWrite | lockRead | writeUnlock |
      unlock | epochCommit | farRequestServe | writeGapTimeout | lockTimeout => exact .toBus s _
  case relayMismatchClear | relayForce | deltaViewRead | runEngine | holdEngine | clrPeak | doorbell | ownerRequestedShift | tailWrite |
      ringDisable | irqSourceEnable | canEnable | recover | flushTx | rxack | mvbEnable => exact .given s _ (.toBus s _)
  all_goals exact .to s _

theorem idle_endsSettled (s : State) : EndsSettled s (idle s) := by
  unfold idle
  split
  · exact .to s _
  · intro t h
    cases h

/-! ### What the level, the relays and the margin mark rest on -/

/-- `b` agrees with `a` on the node's state that `Node.settled` reads, and on every register field but those of `ks`. -/
structure Keeps (ks : List Nat) (a b : Node) : Prop where
  mode : b.mode = a.mode
  level : b.level = a.level
  failed : b.failed = a.failed
  loaded : b.loaded = a.loaded
  settings : b.settings = a.settings
  inaug : b.inaug = a.inaug
  flash : b.flash = a.flash
  finding : b.pair.finding = a.pair.finding
  rd : ∀ f : Fld, f.key ∉ ks → b.rd f = a.rd f

namespace Keeps

variable {ks : List Nat} {a b c : Node}

theorem refl (ks : List Nat) (a : Node) : Keeps ks a a := ⟨rfl, rfl, rfl, rfl, rfl, rfl, rfl, rfl, fun _ _ => rfl⟩

theorem trans (h : Keeps ks a b) (g : Keeps ks b c) : Keeps ks a c where
  mode := g.mode.trans h.mode
  level := g.level.trans h.level
  failed := g.failed.trans h.failed
  loaded := g.loaded.trans h.loaded
  settings := g.settings.trans h.settings
  inaug := g.inaug.trans h.inaug
  flash := g.flash.trans h.flash
  finding := g.finding.trans h.finding
  rd := fun f hf => (g.rd f hf).trans (h.rd f hf)

theorem mono {ks' : List Nat} (h : Keeps ks a b) (hk : ∀ k ∈ ks, k ∈ ks') : Keeps ks' a b :=
  { h with rd := fun f hf => h.rd f (fun hm => hf (hk _ hm)) }

theorem on (h : Keeps ks a b) {f : Fld} (hf : f.key ∉ ks) : b.on f = a.on f := by
  rw [Node.on, h.rd f hf, Node.on]

theorem allowed (h : Keeps ks a b) (hk : ∀ k ∈ ks, k ∉ levelKeys) : b.allowed = a.allowed :=
  SameLevelInputs.allowed
    { mode := h.mode, failed := h.failed, loaded := h.loaded, settings := h.settings, hold := by rw [h.inaug],
      rd := fun f hf => h.rd f (fun hm => hk _ hm hf) }

theorem fits (h : Keeps ks a b) (hk : ∀ k ∈ ks, k ∉ levelKeys) (hf : a.fits) : b.fits := by
  unfold Node.fits
  rw [h.level, h.allowed hk]
  exact hf

theorem msi (n : Node) (v : Nat) (ks : List Nat) : Keeps ks n (n.msi v) := by
  constructor <;> intros <;> simp

theorem msiIf (p : Prop) [Decidable p] (n : Node) (v : Nat) (ks : List Nat) : Keeps ks n (if p then n.msi v else n) := by
  split
  · exact msi n v ks
  · exact refl ks n

theorem irqEdges (old n : Node) (ks : List Nat) : Keeps ks n (irqEdges old n) := by
  constructor <;> intros <;> simp [Node.rd]

theorem wr {ks : List Nat} (n : Node) (f : Fld) (v : Nat) (h : f.key ∈ ks) : Keeps ks n (n.wr f v) := by
  refine ⟨rfl, rfl, rfl, rfl, rfl, rfl, rfl, rfl, fun g hg => ?_⟩
  exact Node.rd_wr_ne n v (fun e => hg (e ▸ h))

theorem fault {ks : List Nat} (n : Node) (x y z : Nat) (h : F.MGT_FAULT_SOURCE.key ∈ ks) : Keeps ks n (n.fault x y z) := by
  constructor
  case rd => exact fun f hf => Node.fault_rd n x y z f (fun e => hf (e ▸ h))
  all_goals simp

end Keeps

/-- The fields that the fault records and the margin mark at the end of a command may write. -/
def reportKeys : List Nat := [F.MGT_FAULT_SOURCE.key, F.HLT_REPORT_MARGIN.key]

theorem not_levelKey_of_report : ∀ k ∈ reportKeys, k ∉ levelKeys := by decide

theorem not_levelKey_of_follow : ∀ k ∈ followKeys, k ∉ levelKeys := by decide

theorem Keeps.relayWarn (old n : Node) (l : Nat) : Keeps reportKeys n (relayWarn old n l) := by
  unfold Machine.relayWarn
  dsimp only
  split
  · exact Keeps.fault n 9 2 l (by decide)
  · exact Keeps.refl _ n

theorem Keeps.marginMark (n : Node) : Keeps reportKeys n n.marginMark := by
  have hput : Keeps reportKeys n (n.put F.HLT_REPORT_MARGIN n.margin) := Keeps.wr n _ _ (by decide)
  unfold Node.marginMark
  dsimp only
  split
  · exact hput.trans (Keeps.fault _ _ _ _ (by decide))
  · exact hput

theorem Keeps.relayFollow (n : Node) {l : Nat} (hl : l < 2) : Keeps followKeys n (n.relayFollow l) := by
  constructor
  case rd => exact fun f hf => Node.relayFollow_rd n l f hf hl
  case finding =>
    unfold Node.relayFollow
    dsimp only
    split <;> rfl
  all_goals simp

/-! ### The margin mark (01 R42) -/

/-- The reduced margin does not depend on its own mark or on the staged fault sources. -/
theorem Keeps.margin {a b : Node} (h : Keeps reportKeys a b) : b.margin = a.margin := by
  have hkey : ∀ {k : Nat}, k ∉ reportKeys ↔ k ≠ F.MGT_FAULT_SOURCE.key ∧ k ≠ F.HLT_REPORT_MARGIN.key := by simp [reportKeys]
  have hbank (x : Nat) : b.rd (F.FAB_BANK_STATE x) = a.rd (F.FAB_BANK_STATE x) :=
    h.rd _ (hkey.mpr (by simp only [F.FAB_BANK_STATE, F.MGT_FAULT_SOURCE, F.HLT_REPORT_MARGIN]; omega))
  have hslot (x : Nat) : b.rd (F.HLT_SLOT_ENGINE x) = a.rd (F.HLT_SLOT_ENGINE x) :=
    h.rd _ (hkey.mpr (by simp only [F.HLT_SLOT_ENGINE, F.MGT_FAULT_SOURCE, F.HLT_REPORT_MARGIN]; omega))
  have hretired := h.rd F.HLT_RETIRED_ENGINE (by decide)
  have hpri := h.on (f := F.PWR_STATUS_PRI_OK) (by decide)
  have hbat := h.on (f := F.PWR_STATUS_BAT_OK) (by decide)
  have hpath := h.on (f := F.HLT_REPORT_PATH) (by decide)
  have hlife0 := h.rd (F.BBL_RELAY_LIFE 0) (by decide)
  have hlife1 := h.rd (F.BBL_RELAY_LIFE 1) (by decide)
  simp only [Node.margin, Node.banksSpare, Node.banksN, Node.spareEngs, Node.retired, Node.slotOf, Node.flashSpare, Node.inputLost,
    hbank, hslot, hretired, hpri, hbat, hpath, hlife0, hlife1, h.flash, h.finding]
  rfl

theorem Node.marginMark_on (n : Node) : n.marginMark.on F.HLT_REPORT_MARGIN = n.margin := by
  unfold Node.marginMark
  dsimp only
  split
  · rw [Node.on, Node.fault_rd _ _ _ _ _ (by decide), ← Node.on, Node.on_put_same _ _ _ rfl]
  · exact Node.on_put_same _ _ _ rfl

/-! ### The relays (07 R266, R269) -/

/-- The fields from which a relay set's drive is taken are none of `followKeys`. -/
theorem Keeps.driveOpen {a b : Node} (h : Keeps followKeys a b) {l : Nat} (hl : l < 2) : b.driveOpen l = a.driveOpen l := by
  have hclaim := h.on (f := F.PAIR_STATUS_CLAIM_HELD) (by decide)
  have hset : (F.BBL_RELAY_FORCE l).key ∉ followKeys ∧ (F.BBL_RELAY_MISMATCH l).key ∉ followKeys := by
    interval_cases l <;> decide
  rw [Node.driveOpen, hclaim, h.level, h.on hset.1, h.on hset.2, Node.driveOpen]

theorem Keeps.mismatch {a b : Node} (h : Keeps followKeys a b) {l : Nat} (hl : l < 2) :
    b.on (F.BBL_RELAY_MISMATCH l) = a.on (F.BBL_RELAY_MISMATCH l) :=
  h.on (by interval_cases l <;> decide)

/-- Relay set `l` is driven as 07 R266 says, and stands so where its feedback shows no mismatch. -/
def Node.relayFollows (n : Node) (l : Nat) : Prop :=
  n.on (F.BBL_RELAY_DRIVE_OPEN l) = n.driveOpen l ∧
    (n.on (F.BBL_RELAY_MISMATCH l) = false → n.on (F.BBL_RELAY_CLOSED l) = !n.driveOpen l)

theorem Node.relayOp_closed (n : Node) (l : Nat) (b : Bool) : (n.relayOp l b).on (F.BBL_RELAY_CLOSED l) = !b :=
  Node.on_put_same _ _ _ rfl

theorem Node.relayOp_drive (n : Node) (l : Nat) (b : Bool) :
    (n.relayOp l b).on (F.BBL_RELAY_DRIVE_OPEN l) = n.on (F.BBL_RELAY_DRIVE_OPEN l) := by
  unfold Node.relayOp
  dsimp only
  rw [Node.on_put_ne, Node.on_wr_ne, Node.on_wr_ne]
  all_goals
    simp only [F.BBL_RELAY_DRIVE_OPEN, F.BBL_RELAY_LIFE, F.BBL_RELAY_OPS_COUNT, F.BBL_RELAY_CLOSED]
    omega

theorem Node.relayFollow_relayFollows (n : Node) {l : Nat} (hl : l < 2) : (n.relayFollow l).relayFollows l := by
  have hk := Keeps.relayFollow n hl
  unfold Node.relayFollows
  rw [hk.driveOpen hl, hk.mismatch hl]
  have hd : ((n.relayNote l).put (F.BBL_RELAY_DRIVE_OPEN l) (n.driveOpen l)).on (F.BBL_RELAY_DRIVE_OPEN l) = n.driveOpen l :=
    Node.on_put_same _ _ _ rfl
  have hm : ((n.relayNote l).put (F.BBL_RELAY_DRIVE_OPEN l) (n.driveOpen l)).on (F.BBL_RELAY_MISMATCH l) =
      n.on (F.BBL_RELAY_MISMATCH l) :=
    Node.on_put_ne (n.relayNote l) _ (by simp only [F.BBL_RELAY_DRIVE_OPEN, F.BBL_RELAY_MISMATCH]; omega)
  unfold Node.relayFollow
  dsimp only
  split
  · exact ⟨by rw [Node.relayOp_drive, hd], fun _ => Node.relayOp_closed _ _ _⟩
  · rename_i hc
    refine ⟨hd, fun hmis => ?_⟩
    rw [hm, hmis] at hc
    exact Bool.eq_not.mpr (by simpa using hc)

/-- A relay set that follows its drive writes four fields of its own. -/
theorem Node.relayFollow_on (n : Node) (l : Nat) {f : Fld} (hdrive : f.key ≠ (F.BBL_RELAY_DRIVE_OPEN l).key)
    (hclosed : f.key ≠ (F.BBL_RELAY_CLOSED l).key) (hlife : f.key ≠ (F.BBL_RELAY_LIFE l).key)
    (hops : f.key ≠ (F.BBL_RELAY_OPS_COUNT l).key) : (n.relayFollow l).on f = n.on f := by
  unfold Node.relayFollow
  dsimp only
  split
  · unfold Node.relayOp
    dsimp only
    rw [Node.on_put_ne _ _ hclosed, Node.on_wr_ne _ _ hlife, Node.on_wr_ne _ _ hops, Node.on_put_ne _ _ hdrive]
    rfl
  · rw [Node.on_put_ne _ _ hdrive]
    rfl

/-- Relay set 0 stays as it is while set 1 follows its drive. -/
theorem Node.relayFollow_one_zero (n : Node) (h : n.relayFollows 0) : (n.relayFollow 1).relayFollows 0 := by
  have hk := Keeps.relayFollow n (l := 1) (by decide)
  unfold Node.relayFollows
  rw [n.relayFollow_on 1 (f := F.BBL_RELAY_DRIVE_OPEN 0) (by decide) (by decide) (by decide) (by decide),
    n.relayFollow_on 1 (f := F.BBL_RELAY_CLOSED 0) (by decide) (by decide) (by decide) (by decide),
    hk.driveOpen (by decide), hk.mismatch (by decide)]
  exact h

theorem Keeps.relayFollows {a b : Node} (h : Keeps reportKeys a b) {l : Nat} (hl : l < 2) (hr : a.relayFollows l) :
    b.relayFollows l := by
  have hset : (F.BBL_RELAY_FORCE l).key ∉ reportKeys ∧ (F.BBL_RELAY_MISMATCH l).key ∉ reportKeys ∧
      (F.BBL_RELAY_DRIVE_OPEN l).key ∉ reportKeys ∧ (F.BBL_RELAY_CLOSED l).key ∉ reportKeys := by
    interval_cases l <;> decide
  obtain ⟨hforce, hmis, hdrive, hclosed⟩ := hset
  have hopen : b.driveOpen l = a.driveOpen l := by
    rw [Node.driveOpen, h.on (f := F.PAIR_STATUS_CLAIM_HELD) (by decide), h.level, h.on hforce, h.on hmis, Node.driveOpen]
  unfold Node.relayFollows
  rw [h.on hdrive, h.on hmis, h.on hclosed, hopen]
  exact hr

/-! ### The level (01 R41) -/

/-- After the drop the level is one that is allowed. -/
theorem levelDrop_fits (n : Node) : (levelDrop n).fits := by
  unfold levelDrop
  dsimp only
  split
  · assumption
  · have hallowed : ∀ m : Node, SameLevelInputs m n → m.level = n.allowed → m.fits := fun m h hl => by
      rw [Node.fits, hl, h.allowed]
    split
    · refine hallowed _ ?_ (by simp)
      refine ⟨by simp, by simp, by simp, by simp, by simp, fun f hf => ?_⟩
      exact Node.fault_rd _ _ _ _ f (fun e => by rw [e] at hf; revert hf; decide)
    · exact hallowed _ ⟨rfl, rfl, rfl, rfl, rfl, fun _ _ => rfl⟩ rfl

theorem failCheck_fits (old n : Node) (h : n.fits) : (failCheck old n).fits := by
  unfold failCheck
  dsimp only
  split
  · exact Nat.zero_le _
  · exact h

/-! ### `settle` -/

/-- A node that differs from a settled one in no field is settled. -/
theorem Keeps.settled {a b : Node} (h : Keeps [] a b) (ha : a.settled) : b.settled := by
  have hr : Keeps reportKeys a b := h.mono (fun _ hk => absurd hk List.not_mem_nil)
  obtain ⟨hfit, hrelay, hmargin⟩ := ha
  refine ⟨hr.fits not_levelKey_of_report hfit, fun l hl => hr.relayFollows hl (hrelay l hl), fun hoff => ?_⟩
  rw [h.on (List.not_mem_nil), hr.margin]
  exact hmargin (h.mode ▸ hoff)

/-- The margin mark settles a node whose level is allowed and whose relays follow. -/
theorem Node.settled_marginMark {n : Node} (hfit : n.fits) (hrelay : n.relaysFollow) :
    (if n.mode = .off then n else n.marginMark).settled := by
  split
  · rename_i hoff
    exact ⟨hfit, hrelay, fun hne => absurd hoff hne⟩
  · have hk := Keeps.marginMark n
    refine ⟨hk.fits not_levelKey_of_report hfit, fun l hl => hk.relayFollows hl (hrelay l hl), fun _ => ?_⟩
    rw [Node.marginMark_on, hk.margin]

/-- The end of every command settles the node. -/
theorem settle_settled (old new : Node) : (settle old new).settled := by
  have hfit : (failCheck old (levelDrop new)).fits := failCheck_fits _ _ (levelDrop_fits new)
  unfold settle
  generalize failCheck old (levelDrop new) = n at hfit ⊢
  dsimp only
  have h0 := Keeps.relayFollow n (l := 0) (by decide)
  have h1 := Keeps.relayFollow (n.relayFollow 0) (l := 1) (by decide)
  have hrelay : ∀ l, l < 2 → ((n.relayFollow 0).relayFollow 1).relayFollows l := fun l hl => by
    interval_cases l
    · exact Node.relayFollow_one_zero _ (Node.relayFollow_relayFollows n (by decide))
    · exact Node.relayFollow_relayFollows _ (by decide)
  have hwarn := (Keeps.relayWarn old ((n.relayFollow 0).relayFollow 1) 0).trans (Keeps.relayWarn old _ 1)
  refine (Keeps.irqEdges _ _ _).settled ((Keeps.msiIf _ _ _ _).settled ((Keeps.msiIf _ _ _ _).settled (Node.settled_marginMark ?_ ?_)))
  · exact hwarn.fits not_levelKey_of_report ((h0.trans h1).fits not_levelKey_of_follow hfit)
  · exact fun l hl => hwarn.relayFollows hl (hrelay l hl)

/-! ### What an allowed level means (01 R39, R44) -/

theorem Node.allowed_le_three (n : Node) : n.allowed ≤ 3 := by
  unfold Node.allowed
  repeat' split
  all_goals omega

/-- A level above 0 is allowed only to an active node with the claim and the working set of L1. -/
theorem Node.of_one_le_allowed {n : Node} (h : 1 ≤ n.allowed) :
    n.mode = .active ∧ n.on F.PAIR_STATUS_CLAIM_HELD = true ∧ setL1 n = true := by
  unfold Node.allowed at h
  split at h
  · omega
  · rename_i hc
    simpa [not_or] using hc

theorem Node.of_two_le_allowed {n : Node} (h : 2 ≤ n.allowed) :
    n.loaded = true ∧ n.identsSet = true ∧ setL2 n = true := by
  unfold Node.allowed at h
  split at h
  · omega
  · split at h
    · omega
    · rename_i hc
      simp only [not_or, Bool.not_eq_false] at hc
      exact ⟨hc.1, hc.2.1, hc.2.2.2⟩

theorem Node.of_three_le_allowed {n : Node} (h : 3 ≤ n.allowed) : setL3 n = true := by
  unfold Node.allowed at h
  split at h
  · omega
  · split at h
    · omega
    · split at h
      · omega
      · rename_i hc
        simpa using hc

theorem setL1_iff (n : Node) : setL1 n = true ↔
    Res.power ∉ n.missing ∧ Res.pipeline ∉ n.missing ∧ 8 ≤ n.banksN ∧ (Res.lineA ∉ n.missing ∨ Res.lineB ∉ n.missing) := by
  simp only [setL1, Bool.and_eq_true, Bool.not_eq_true', Bool.and_eq_false_iff, decide_eq_true_eq, decide_eq_false_iff_not]
  tauto

theorem setL2_iff (n : Node) : setL2 n = true ↔ setL1 n = true ∧ Res.topology ∉ n.missing ∧ Res.timeUnit ∉ n.missing := by
  simp only [setL2, Bool.and_eq_true, Bool.not_eq_true', decide_eq_false_iff_not]
  tauto

theorem setL3_missing {n : Node} (h : setL3 n = true) : ∀ r ∈ n.missing, r = .lineA ∨ r = .lineB := by
  simp only [setL3, Bool.and_eq_true, List.all_eq_true, decide_eq_true_eq, List.mem_cons, List.not_mem_nil, or_false] at h
  exact h.2

theorem Node.driveOpen_iff (n : Node) (l : Nat) : n.driveOpen l = true ↔
    n.on F.PAIR_STATUS_CLAIM_HELD = true ∧ 1 ≤ n.level ∧ n.on (F.BBL_RELAY_FORCE l) = false ∧ n.on (F.BBL_RELAY_MISMATCH l) = false := by
  simp [Node.driveOpen, and_assoc]

/-- A relay set that is driven open, or shows open contacts without a mismatch, is one whose drive 07 R266 opens. -/
theorem Node.relaysFollow.driveOpen {n : Node} (h : n.relaysFollow) {l : Nat} (hl : l < 2)
    (ho : n.on (F.BBL_RELAY_DRIVE_OPEN l) = true ∨
      (n.on (F.BBL_RELAY_CLOSED l) = false ∧ n.on (F.BBL_RELAY_MISMATCH l) = false)) : n.driveOpen l = true := by
  obtain ⟨hdrive, hcontact⟩ := h l hl
  rcases ho with hd | ⟨hc, hm⟩
  · rw [← hdrive, hd]
  · simpa [hc] using hcontact hm

theorem step_endsSettled {s t : State} (h : step s = .next t) : ∃ r m, t.node = settle r m := by
  unfold step at h
  split at h
  · exact ⟨_, (exec_endsSettled _ _).node h⟩
  · exact ⟨_, (idle_endsSettled s).node h⟩

/-- Settles O26: every step ends in `settle`, which settles the node; what an allowed level and a followed drive mean gives the rest. -/
theorem stepSettles : Obligations.StepSettles := by
  intro s t h
  obtain ⟨r, m, ht⟩ := step_endsSettled h
  have hs : t.node.settled := ht ▸ settle_settled r m
  obtain ⟨hfit, hrelay, hmargin⟩ := hs
  have hone (hl : 1 ≤ t.node.level) := Node.of_one_le_allowed (hl.trans hfit)
  refine ⟨⟨hfit, hrelay, hmargin⟩, hfit.trans (Node.allowed_le_three _), fun hl => ?_, fun hl => ?_, fun hl => ?_, fun l hlt ho => ?_⟩
  · obtain ⟨hmode, hclaim, hset⟩ := hone hl
    obtain ⟨hpower, hpipe, hbanks, hline⟩ := (setL1_iff _).mp hset
    exact ⟨hmode, hclaim, hbanks, hpower, hpipe, hline⟩
  · obtain ⟨hload, hident, hset⟩ := Node.of_two_le_allowed (hl.trans hfit)
    exact ⟨hload, hident, ((setL2_iff _).mp hset).2⟩
  · exact setL3_missing (Node.of_three_le_allowed (hl.trans hfit))
  · obtain ⟨hclaim, hlevel, hforce, hmis⟩ := (Node.driveOpen_iff _ _).mp (hrelay.driveOpen hlt ho)
    exact ⟨(hone hlevel).1, hclaim, hlevel, hforce, hmis⟩

end Sys2Proof.Machine
end


section
/-! Kerarqua: the ALU group (04 R126). -/

namespace Sys2Proof.Machine

open Sys2Proof

/-- An ALU row that issues leaves `v` in g[rd], where `v` is what its operation gives. -/
theorem EngineDone.of_aluOp {c : Instr} {s : State} {e : Nat} {t : KTag} {i : KIns} {cost : Nat} {v : W64} (hf : s.node.fits)
    (ht : i.tag = t) (hx : exec c s = s.to (s.node.kStep e [t] effAlu)) (hcost : kCost t 0 = cost)
    (hv : aluOp t ((s.node.eng e).act.rg i.ra) (i.second (s.node.eng e).act) = v) (hi : Issues s.node e i cost) :
    EngineDone c s e (((s.node.eng e).act.wg i.rd v).past i cost) := by
  subst hcost hv
  exact .of_alu hx hf ht hi

/-! ### What the operations give -/

theorem aluOp_shl (a b : W64) : aluOp .shl a b = BitVec.ofNat 64 (a.toNat * 2 ^ (b.toNat % 64)) := by
  apply BitVec.eq_of_toNat_eq
  simp [aluOp, Nat.shiftLeft_eq]

theorem aluOp_shr (a b : W64) : aluOp .shr a b = BitVec.ofNat 64 (a.toNat / 2 ^ (b.toNat % 64)) := by
  apply BitVec.eq_of_toNat_eq
  have hlt := Nat.lt_of_le_of_lt (Nat.div_le_self a.toNat (2 ^ (b.toNat % 64))) a.isLt
  simp [aluOp, Nat.shiftRight_eq_div_pow, Nat.mod_eq_of_lt hlt]

theorem aluOp_sar (a b : W64) : aluOp .sar a b = BitVec.ofInt 64 (a.toInt / 2 ^ (b.toNat % 64)) := by
  rw [show aluOp .sar a b = BitVec.ofInt 64 (a.toInt >>> (b.toNat % 64)) from rfl, Int.shiftRight_eq_div_pow]
  norm_cast

theorem aluOp_ror (a b : W64) : aluOp .ror a b = a >>> (b.toNat % 64) ||| a <<< (64 - b.toNat % 64) := by
  rw [show aluOp .ror a b = a.rotateRight (b.toNat % 64) from rfl, BitVec.rotateRight_def, Nat.mod_mod]

theorem aluOp_min (a b : W64) : aluOp .min' a b = BitVec.ofInt 64 (min a.toInt b.toInt) := by
  by_cases h : a.toInt ≤ b.toInt
  · simp [aluOp, h]
  · simp [aluOp, h, min_eq_right (Int.le_of_not_le h)]

theorem aluOp_max (a b : W64) : aluOp .max' a b = BitVec.ofInt 64 (max a.toInt b.toInt) := by
  by_cases h : a.toInt ≤ b.toInt
  · simp [aluOp, h]
  · simp [aluOp, h, max_eq_left (Int.le_of_not_le h)]

theorem aluOp_minu (a b : W64) : aluOp .minu a b = BitVec.ofNat 64 (min a.toNat b.toNat) := by
  by_cases h : a.toNat ≤ b.toNat
  · simp [aluOp, h]
  · simp [aluOp, h, min_eq_right (Nat.le_of_not_le h)]

theorem aluOp_maxu (a b : W64) : aluOp .maxu a b = BitVec.ofNat 64 (max a.toNat b.toNat) := by
  by_cases h : a.toNat ≤ b.toNat
  · simp [aluOp, h]
  · simp [aluOp, h, max_eq_left (Nat.le_of_not_le h)]

theorem aluOp_sext (a b : W64) :
    aluOp .sext a b = if b.toNat % 64 = 0 then a else (a.setWidth (b.toNat % 64)).signExtend 64 := by
  rw [show aluOp .sext a b = sextN (b.toNat % 64) a from rfl, sextN]
  split
  · rfl
  · rename_i h
    rw [signExtend_setWidth _ a h]

theorem aluOp_zext (a b : W64) :
    aluOp .zext a b = if b.toNat % 64 = 0 then a else (a.setWidth (b.toNat % 64)).setWidth 64 := by
  rw [show aluOp .zext a b = zextN (b.toNat % 64) a from rfl, zextN]
  split
  · rfl
  · apply BitVec.eq_of_toNat_eq
    simp

theorem aluOp_popc (a b : W64) :
    aluOp .popc a b = BitVec.ofNat 64 ((List.range 64).filter (fun j => a.getLsbD j)).length := by
  have h : (fun j => bitOf a.toNat j) = fun j => a.getLsbD j := funext fun j => bitOf_eq_testBit _ _
  rw [show aluOp .popc a b = BitVec.ofNat 64 (popCount a) from rfl, popCount, h]

/-- The leading zero bits counted are zero, and a one bit follows them. -/
theorem clzCount_spec (a : W64) : clzCount a ≤ 64 ∧ (∀ j, j < clzCount a → a.getLsbD (63 - j) = false) ∧
    (clzCount a < 64 → a.getLsbD (63 - clzCount a) = true) := by
  have hbit (j : Nat) : bitOf a.toNat (63 - j) = a.getLsbD (63 - j) := bitOf_eq_testBit _ _
  have hle : clzCount a ≤ 64 := by
    unfold clzCount
    simpa using List.findIdx_le_length (xs := List.range 64) (p := fun i => bitOf a.toNat (63 - i))
  refine ⟨hle, fun j hj => ?_, fun h => ?_⟩
  · have := List.not_of_lt_findIdx hj
    rw [List.getElem_range, hbit] at this
    simpa using this
  · have := List.findIdx_getElem (xs := List.range 64) (p := fun i => bitOf a.toNat (63 - i)) (w := by simpa [clzCount] using h)
    rw [List.getElem_range, hbit] at this
    exact this

theorem bswapN_spec (k : Nat) (a : W64) (hk : k ≤ 8) : (bswapN k a).toNat < 256 ^ k ∧
    ∀ j, j < k → (bswapN k a).toNat / 256 ^ j % 256 = a.toNat / 256 ^ (k - 1 - j) % 256 := by
  have hlt := leNat_lt (leBytes k a.toNat).reverse
  rw [List.length_reverse, leBytes_length] at hlt
  have h64 : 256 ^ k ≤ 2 ^ 64 := by
    rw [show (2 : Nat) ^ 64 = 256 ^ 8 from rfl]
    exact Nat.pow_le_pow_right (by decide) hk
  have hval : (bswapN k a).toNat = leNat (leBytes k a.toNat).reverse := by
    rw [bswapN, BitVec.toNat_ofNat, Nat.mod_eq_of_lt (Nat.lt_of_lt_of_le hlt h64)]
  rw [hval]
  refine ⟨hlt, fun j hj => ?_⟩
  rw [leNat_digit, ← leBytes_getD k a.toNat (k - 1 - j) (by omega)]
  simp only [List.getD_eq_getElem?_getD]
  rw [List.getElem?_reverse (by simpa using hj), leBytes_length]

/-- Settles O1: each row of the group completes with what `aluOp` gives, which is what 04 R126 states. -/
theorem aluResults : Obligations.AluResults := by
  constructor
  · intro s e i hf act a b k gives
    have alu {c : Instr} {t : KTag} {cost : Nat} {v : W64} (ht : i.tag = t) (hx : exec c s = s.to (s.node.kStep e [t] effAlu))
        (hcost : kCost t 0 = cost) (hv : aluOp t a b = v) : gives c cost v := .of_aluOp hf ht hx hcost hv
    exact ⟨fun ht => alu ht rfl rfl rfl, fun ht => alu ht rfl rfl rfl, fun ht => alu ht rfl rfl rfl, fun ht => alu ht rfl rfl rfl,
      fun ht => alu ht rfl rfl rfl, fun ht => alu ht rfl rfl rfl, fun ht => alu ht rfl rfl (aluOp_shl a b),
      fun ht => alu ht rfl rfl (aluOp_shr a b), fun ht => alu ht rfl rfl (aluOp_sar a b), fun ht => alu ht rfl rfl (aluOp_ror a b),
      fun ht => alu ht rfl rfl (aluOp_min a b), fun ht => alu ht rfl rfl (aluOp_max a b), fun ht => alu ht rfl rfl (aluOp_minu a b),
      fun ht => alu ht rfl rfl (aluOp_maxu a b), fun ht => alu ht rfl rfl (aluOp_sext a b), fun ht => alu ht rfl rfl (aluOp_zext a b),
      fun ht => alu ht rfl rfl rfl, fun ht => alu ht rfl rfl rfl, fun ht => alu ht rfl rfl rfl,
      fun ht hb => alu ht rfl rfl (if_neg hb), fun ht hb => alu ht rfl rfl (if_neg hb), fun ht hb => alu ht rfl rfl (if_neg hb),
      fun ht hb => alu ht rfl rfl (if_neg hb), fun ht => alu ht rfl rfl rfl⟩
  · intro s e i hf hi act a z gives
    have alu {c : Instr} {t : KTag} {v : W64} (ht : i.tag = t) (hx : exec c s = s.to (s.node.kStep e [t] effAlu))
        (hcost : kCost t 0 = 1) (hv : aluOp t a (i.second act) = v) : gives c v := .of_aluOp hf ht hx hcost hv hi
    refine ⟨fun ht => ?_, fun ht => alu ht rfl rfl (aluOp_popc a _), fun ht => ?_⟩
    · have hz : (i.second act).toNat % 64 % 4 = z := Nat.mod_mod_of_dvd _ (by decide)
      have hv : aluOp .bswap a (i.second act) = if z = 0 then a else bswapN (2 ^ z) a := by rw [← hz]; rfl
      refine ⟨_, alu ht rfl rfl hv, fun h => if_pos h, fun h => ?_⟩
      rw [if_neg h]
      have h8 : (2 : Nat) ^ z ≤ 2 ^ 3 := Nat.pow_le_pow_right (by decide) (Nat.le_of_lt_succ (Nat.mod_lt _ (by decide)))
      exact bswapN_spec _ a h8
    · obtain ⟨hle, hzero, hone⟩ := clzCount_spec a
      exact ⟨clzCount a, hle, alu ht rfl rfl rfl, hzero, hone⟩

end Sys2Proof.Machine
end


section
/-! Kerarqua: what retiring an instruction leaves (03 R104, R119), the SYS group (04 R152), compares and immediates (04 R128, R129). -/

namespace Sys2Proof.Machine

open Sys2Proof

/-! ### One instruction that issues -/

/-- An instruction in `tags` that issues is retired with its effect. -/
theorem Node.kStep_issued {n : Node} {e : Nat} {tags : List KTag} {eff : Node → Act → KIns → KRes} {i : KIns} {cost : Nat} {o : KOut}
    (h : Issues n e i cost) (ht : i.tag ∈ tags) (he : eff n (n.eng e).act i = .ok o) :
    n.kStep e tags eff = n.retire e (n.eng e).act i o := by
  unfold Node.kStep
  simp [h.phase, h.fetch, h.check, ht, h.guard, he]

/-- An instruction that ends below the budget and transfers no control moves its activation past it. -/
theorem Node.retire_past {n : Node} {e : Nat} {a : Act} {i : KIns} {o : KOut} (hfin : o.fin = false) (hjump : o.jump = none)
    (hcyc : o.a.cyc = a.cyc) (hbudget : a.cyc + o.cost < o.a.budget) :
    n.retire e a i o = o.n.setEng e { o.n.eng e with act := o.a.past i o.cost } := by
  unfold Node.retire Act.past
  simp [hfin, hjump, hcyc, Nat.not_lt.mpr hbudget.le, Nat.ne_of_gt hbudget]

/-- An instruction that ends below the budget and transfers control. -/
theorem Node.retire_jump {n : Node} {e : Nat} {a : Act} {i : KIns} {o : KOut} {t : Nat} (hfin : o.fin = false) (hjump : o.jump = some t)
    (hbudget : a.cyc + o.cost < o.a.budget) :
    n.retire e a i o = o.n.setEng e { o.n.eng e with act := { o.a with cyc := a.cyc + o.cost, pc := t } } := by
  unfold Node.retire
  simp [hfin, hjump, Nat.not_lt.mpr hbudget.le, Nat.ne_of_gt hbudget]

/-- A row whose instruction transfers control and changes its activation only. -/
theorem EngineDone.of_jump {c : Instr} {s : State} {e : Nat} {t : KTag} {eff : Node → Act → KIns → KRes} {i : KIns}
    {cost pc : Nat} {a' : Act} (hx : exec c s = s.to (s.node.kStep e [t] eff)) (hf : s.node.fits) (h : Issues s.node e i cost)
    (ht : i.tag = t) (he : eff s.node (s.node.eng e).act i = .ok { n := s.node, a := a', cost := cost, jump := some pc })
    (hb : a'.budget = (s.node.eng e).act.budget) :
    EngineDone c s e { a' with cyc := (s.node.eng e).act.cyc + cost, pc := pc } := by
  rw [Node.kStep_issued h (List.mem_singleton.mpr ht) he, Node.retire_jump rfl rfl (hb ▸ h.budget)] at hx
  exact Leaves.of_to hx rfl rfl hf

/-- The usual outcome of an operation whose cycles do not depend on a table. -/
theorem KRes.done_of_tag (n : Node) (a : Act) {i : KIns} {t : KTag} (ht : i.tag = t) :
    KRes.done n a i = .ok { n := n, a := a, cost := kCost t 0 } := by
  rw [KRes.done, ht]

/-- A row whose operation changes registers, predicates or outputs of its activation only. -/
theorem EngineDone.of_done {c : Instr} {s : State} {e : Nat} {t : KTag} {eff : Node → Act → KIns → KRes} {i : KIns} {cost : Nat}
    {a' : Act} (hf : s.node.fits) (ht : i.tag = t) (hi : Issues s.node e i cost)
    (hx : exec c s = s.to (s.node.kStep e [t] eff)) (hcost : kCost t 0 = cost)
    (he : eff s.node (s.node.eng e).act i = .done s.node a' i)
    (hc : a'.cyc = (s.node.eng e).act.cyc) (hb : a'.budget = (s.node.eng e).act.budget) :
    EngineDone c s e (a'.past i cost) := by
  subst hcost
  rw [KRes.done_of_tag _ _ ht] at he
  rw [Node.kStep_issued hi (List.mem_singleton.mpr ht) he, Node.retire_past rfl rfl hc (hb ▸ hi.budget)] at hx
  exact Leaves.of_to hx rfl rfl hf

/-! ### The SYS group -/

theorem effRdsp_pc {n : Node} {a : Act} {i : KIns} (h : i.ra = 0) : effRdsp n a i = .done n (a.wg i.rd (BitVec.ofNat 64 a.pc)) i := by
  simp [effRdsp, h]

theorem effRdsp_epoch {n : Node} {a : Act} {i : KIns} (h : i.ra = 1) : effRdsp n a i = .done n (a.wg i.rd (BitVec.ofNat 64 a.ep)) i := by
  simp [effRdsp, h]

theorem effRdsp_seconds {n : Node} {a : Act} {i : KIns} (h : i.ra = 2) : effRdsp n a i =
    .done n ({ a with ntcap := n.clock.now }.wg i.rd (BitVec.ofNat 64 (n.clock.now / (10 ^ 9 * 2 ^ 16) % 2 ^ 48))) i := by
  simp [effRdsp, h, secOf, secU]

theorem effRdsp_fraction {n : Node} {a : Act} {i : KIns} (h : i.ra = 3) :
    effRdsp n a i = .done n (a.wg i.rd (BitVec.ofNat 64 (a.ntcap % (10 ^ 9 * 2 ^ 16)))) i := by
  simp [effRdsp, h, secU]

/-- WRP takes bits 7 to 1 of g[ra]; p0 stays true. -/
theorem wrp_bits (v : W64) (q : Nat) : bitOf (v.toNat % 256 / 2 * 2 + 1) q = (q == 0 || (decide (q < 8) && v.getLsbD q)) := by
  rw [bitOf_eq_testBit, BitVec.getLsbD]
  cases q with
  | zero => simp
  | succ q =>
    rw [Nat.testBit_succ, show (v.toNat % 256 / 2 * 2 + 1) / 2 = v.toNat % 256 / 2 by omega, ← Nat.testBit_succ,
      show (256 : Nat) = 2 ^ 8 from rfl, Nat.testBit_mod_two_pow]
    simp

/-- The node once END has retired in cycle `cyc`: the longest completed activation shows in PEAK (03 R118). -/
def Node.peaked (n : Node) (e trig cyc : Nat) : Node :=
  if n.rd (F.SC_PEAK_CYCLES e) < cyc then (n.wr (F.SC_PEAK_TRIGGER e) trig).wr (F.SC_PEAK_CYCLES e) cyc else n

theorem Node.peaked_eng (n : Node) (e trig cyc k : Nat) : (n.peaked e trig cyc).eng k = n.eng k := by
  unfold Node.peaked
  split <;> rfl

theorem Node.peaked_level (n : Node) (e trig cyc : Nat) : (n.peaked e trig cyc).level = n.level := by
  unfold Node.peaked
  split <;> rfl

theorem not_levelKey_engine {e k : Nat} (h : 32 * engBase e ≤ k) : k ∉ levelKeys := by
  have := engBase_ge e
  exact not_levelKey (by omega)

theorem Node.peaked_allowed (n : Node) (e trig cyc : Nat) : (n.peaked e trig cyc).allowed = n.allowed := by
  unfold Node.peaked
  split
  · rw [Node.allowed_wr _ _ _ (not_levelKey_engine (e := e) (by simp only [F.SC_PEAK_CYCLES]; omega)),
      Node.allowed_wr _ _ _ (not_levelKey_engine (e := e) (by simp only [F.SC_PEAK_TRIGGER]; omega))]
  · rfl

theorem Node.complete_eq (n : Node) (e : Nat) (a : Act) :
    n.complete e a = (n.peaked e a.trig a.cyc).setEng e { n.eng e with phase := .releasing, act := a } := by
  unfold Node.complete Node.peaked
  dsimp only
  split <;> rfl

/-- Settles O3: each row's effect changes its activation as stated; END completes the activation. -/
theorem sysResults : Obligations.SysResults := by
  constructor
  · intro s e i hf act now sec gives
    have done {c : Instr} {t : KTag} {eff : Node → Act → KIns → KRes} {a' : Act} (ht : i.tag = t)
        (hx : exec c s = s.to (s.node.kStep e [t] eff)) (hcost : kCost t 0 = 1) (he : eff s.node act i = .done s.node a' i)
        (hc : a'.cyc = act.cyc) (hb : a'.budget = act.budget) : gives c a' :=
      fun hi => .of_done hf ht hi hx hcost he hc hb
    refine ⟨fun ht => done ht rfl rfl rfl rfl rfl, fun ht hra => done ht rfl rfl (effRdsp_pc hra) (by simp) (by simp),
      fun ht hra => done ht rfl rfl (effRdsp_epoch hra) (by simp) (by simp),
      fun ht hra => done ht rfl rfl (effRdsp_seconds hra) (by simp) (by simp),
      fun ht hra => done ht rfl rfl (effRdsp_fraction hra) (by simp) (by simp),
      fun ht => done ht rfl rfl rfl (by simp) (by simp),
      fun ht => ⟨_, wrp_bits (act.rg i.ra), done ht rfl rfl rfl rfl rfl⟩, fun r t ht hstack hi => ?_⟩
    exact .of_jump (a' := { act with stack := t }) rfl hf hi ht (by unfold effRet; rw [hstack]) rfl
  · intro s e i hf hi ht act peak
    have hretire : s.node.kStep e [.endA] effEnd = s.node.complete e { act with cyc := act.cyc + 1 } := by
      rw [Node.kStep_issued (o := { n := s.node, a := act, cost := 1, fin := true }) hi (List.mem_singleton.mpr ht) rfl]
      exact if_pos hi.budget
    have hx : exec (.kEnd e) s = s.to (s.node.kStep e [.endA] effEnd) := rfl
    rw [hretire, Node.complete_eq] at hx
    exact Leaves.of_to hx (Node.peaked_level _ _ _ _) (Node.peaked_allowed _ _ _ _) hf

/-! ### Compares and immediates -/

theorem cmpOp_spec (fn : Nat) (a b : W64) :
    (fn = 0 → cmpOp fn a b = decide (a = b)) ∧ (fn = 1 → cmpOp fn a b = decide (a ≠ b)) ∧
    (fn = 2 → cmpOp fn a b = decide (a.toInt < b.toInt)) ∧ (fn = 3 → cmpOp fn a b = decide (a.toInt ≥ b.toInt)) ∧
    (fn = 4 → cmpOp fn a b = decide (a.toNat < b.toNat)) ∧ (fn = 5 → cmpOp fn a b = decide (a.toNat ≥ b.toNat)) ∧
    (fn = 6 → cmpOp fn a b = decide (a &&& b ≠ 0)) ∧ (fn = 7 → cmpOp fn a b = decide (a &&& b = 0)) := by
  refine ⟨?_, ?_, ?_, ?_, ?_, ?_, ?_, ?_⟩
  all_goals
    rintro rfl
    rw [Bool.eq_iff_iff]
    simp [cmpOp]

/-- The sign extension the meanings compute is that of the low `k` bits. -/
theorem ofInt_toSigned (k v : Nat) (h : k ≠ 0) : BitVec.ofInt 64 (toSigned k v) = (BitVec.ofNat k v).signExtend 64 := by
  unfold BitVec.signExtend
  rw [toInt_ofNat_toSigned k v h]

/-- An operation of format X names no MOVK. -/
theorem kTagOf_formatX_ne_movk (topo : Bool) (w : Nat) (i : KIns) (h : isFormatX i.op = true) : kTagOf topo w i ≠ .movk := by
  have hok (c : Bool) {t : KTag} (h : t ≠ .movk) : okTag c t ≠ .movk := by
    unfold okTag
    split
    · exact h
    · decide
  have hget (l : List KTag) (k : Nat) (h : ∀ t ∈ l, t ≠ .movk) : l.getD k .illegal ≠ .movk := by
    rw [List.getD_eq_getElem?_getD]
    by_cases hk : k < l.length
    · rw [List.getElem?_eq_getElem hk]
      exact h _ (List.getElem_mem hk)
    · rw [List.getElem?_eq_none (by omega)]
      decide
  have halu : aluTag i.fn ≠ .movk := hget _ _ (by decide)
  have htbl : tblTag i.fn ≠ .movk := hget _ _ (by decide)
  have htopo : topoTag i ≠ .movk := by
    unfold topoTag
    dsimp only
    split
    · exact hok _ (by decide)
    · split
      · exact hok _ (by decide)
      · split
        · exact hok _ (by decide)
        · exact hok _ (hget _ _ (by decide))
  simp only [isFormatX, List.mem_cons, List.not_mem_nil, or_false, decide_eq_true_eq] at h
  unfold kTagOf
  rcases h with h | h | h | h | h | h | h | h | h | h <;> simp only [h]
  · exact hok _ halu
  · exact hok _ (by decide)
  · exact hok _ (by decide)
  · exact hok _ (by decide)
  · exact hok true (t := .scale) (by decide)
  · exact hok _ (by decide)
  · exact hok _ (by decide)
  · exact hok _ (by decide)
  · exact hok _ htbl
  · exact hok _ htopo

/-- The immediate of a MOVK that issues has 16 bits. -/
theorem Issues.movk_imm {n : Node} {e : Nat} {i : KIns} {cost : Nat} (h : Issues n e i cost) (ht : i.tag = .movk) :
    i.imm < 65536 ∧ i.sbit < 2 := by
  obtain ⟨topo, w, x, rfl, hx⟩ := h.decoded
  obtain ⟨-, -, -, -, hs, -, himm⟩ := kDecode_fields topo w x hx
  refine ⟨himm ?_, hs⟩
  by_contra hne
  exact kTagOf_formatX_ne_movk topo w (kFields w x) (Bool.eq_true_of_not_eq_false hne) ht

/-- MOVK replaces lane `k` of `v` and keeps the other three. -/
theorem movk_lanes (v : W64) (imm k : Nat) (hk : k < 4) (himm : imm < 65536) (l : Nat) (hl : l < 4) :
    (BitVec.ofNat 64 (v.toNat - v.toNat / 2 ^ (16 * k) % 65536 * 2 ^ (16 * k) + imm * 2 ^ (16 * k))).toNat / 65536 ^ l % 65536 =
      if l = k then imm else v.toNat / 65536 ^ l % 65536 := by
  have hv := v.isLt
  rw [BitVec.toNat_ofNat]
  interval_cases k <;> interval_cases l <;> norm_num <;> omega

/-- Settles O4: a compare writes the predicate destination only, an immediate its own register. -/
theorem compareAndImmediate : Obligations.CompareAndImmediate := by
  constructor
  · intro s e i hf hi ht act a b
    refine ⟨cmpOp i.fn a b, _, pred_dest _ _ _, ?_, cmpOp_spec i.fn a b⟩
    exact .of_done hf ht hi rfl rfl (by rw [effCmp, second_eq]) rfl rfl
  · intro s e i hf hi act old lane gives
    have done {c : Instr} {t : KTag} {eff : Node → Act → KIns → KRes} {v : W64} (ht : i.tag = t)
        (hx : exec c s = s.to (s.node.kStep e [t] eff)) (hcost : kCost t 0 = 1)
        (he : eff s.node act i = .done s.node (act.wg i.rd v) i) : gives c v :=
      .of_done hf ht hi hx hcost he (Act.wg_cyc _ _ _) (Act.wg_budget _ _ _)
    refine ⟨fun ht => done ht rfl rfl ?_, fun ht hs => done ht rfl rfl ?_, fun ht hs => done ht rfl rfl ?_,
      fun ht => ⟨_, done ht rfl rfl rfl, ?_⟩⟩
    · rw [effAddi, ofInt_toSigned 16 _ (by decide)]
    · rw [effMovi, if_pos hs, ofInt_toSigned 16 _ (by decide)]
    · rw [effMovi, if_neg (by omega)]
    · obtain ⟨himm, hsbit⟩ := hi.movk_imm ht
      refine fun l hl => movk_lanes old i.imm lane ?_ himm l hl
      show (if i.op = 0x0B then 2 else 0) + i.sbit < 4
      split <;> omega

end Sys2Proof.Machine
end


section
/-! Kerarqua: the data address space (03 R81 to R88), loads and stores (04 R130). -/

namespace Sys2Proof.Machine

open Sys2Proof

/-! ### Ranges of the data address space (03 R81) -/

theorem rangeOf_header {a : Nat} (h : a < 0x40) : rangeOf a = some 0 := by simp [rangeOf, h]

theorem rangeOf_data {a : Nat} (h : 0x40 ≤ a) (h' : a < 0x2440) : rangeOf a = some 1 := by
  simp [rangeOf, Nat.not_lt.mpr h, h']

theorem rangeOf_txHeader {a : Nat} (h : 0x10000 ≤ a) (h' : a < 0x10040) : rangeOf a = some 2 := by
  unfold rangeOf
  rw [if_neg (by omega), if_neg (by omega), if_pos ⟨h, h'⟩]

theorem rangeOf_txData {a : Nat} (h : 0x10040 ≤ a) (h' : a < 0x12440) : rangeOf a = some 3 := by
  unfold rangeOf
  rw [if_neg (by omega), if_neg (by omega), if_neg (by omega), if_pos ⟨h, h'⟩]

theorem rangeOf_mailbox {a : Nat} (h : 0x20000 ≤ a) (h' : a < 0x21000) : rangeOf a = some 4 := by
  unfold rangeOf
  rw [if_neg (by omega), if_neg (by omega), if_neg (by omega), if_neg (by omega), if_pos ⟨h, h'⟩]

theorem inOneRange_of_ends {a k r : Nat} (h : rangeOf a = some r) (h' : rangeOf (a + k - 1) = some r) : inOneRange a k = some r := by
  rw [inOneRange, h, h', if_pos rfl]

theorem inOneRange_mailbox {a k : Nat} (hk : 0 < k) (h : InMailbox a k) : inOneRange a k = some 4 := by
  unfold InMailbox at h
  exact inOneRange_of_ends (rangeOf_mailbox (by omega) (by omega)) (rangeOf_mailbox (by omega) (by omega))

theorem inOneRange_transmit {a k : Nat} (hk : 0 < k) (h : InTransmit a k) : inOneRange a k = some 2 ∨ inOneRange a k = some 3 := by
  rcases h with h | h
  · exact .inl (inOneRange_of_ends (rangeOf_txHeader (by omega) (by omega)) (rangeOf_txHeader (by omega) (by omega)))
  · exact .inr (inOneRange_of_ends (rangeOf_txData (by omega) (by omega)) (rangeOf_txData (by omega) (by omega)))

theorem inOneRange_isSome {a k : Nat} (hk : 0 < k) (h : OneRange a k) : (inOneRange a k).isSome = true := by
  rcases h with h | h | h | h | h
  · rw [inOneRange_of_ends (rangeOf_header (by omega)) (rangeOf_header (by omega))]
    rfl
  · rw [inOneRange_of_ends (rangeOf_data (by omega) (by omega)) (rangeOf_data (by omega) (by omega))]
    rfl
  · rcases inOneRange_transmit hk (.inl h) with hr | hr <;> rw [hr] <;> rfl
  · rcases inOneRange_transmit hk (.inr h) with hr | hr <;> rw [hr] <;> rfl
  · rw [inOneRange_mailbox hk h]
    rfl

theorem OneRange.lt {a k : Nat} (hk : 0 < k) (h : OneRange a k) : a < 2 ^ 32 := by
  unfold OneRange at h
  omega

/-! ### Bytes of the data address space -/

/-- A mailbox byte under no held store of the activation. -/
theorem mboxByte_of_none {n : Node} {e : Nat} {a : Act} {off : Nat} (h : ∀ x ∈ a.outs, isMbox x = false) :
    mboxByte n e a off = n.mboxAt e off := by
  unfold mboxByte
  suffices hfold : ∀ (l : List Held) (v : Nat), (∀ x ∈ l, isMbox x = false) → l.foldl (fun v h => match h with
      | .mbox parts => parts.foldl (fun v p => if p.1 = off then overlay v p.2.1 p.2.2 else v) v
      | _ => v) v = v from hfold _ _ h
  intro l
  induction l with
  | nil => exact fun _ _ => rfl
  | cons x t ih =>
    intro v hx
    have hne := hx x (List.mem_cons_self ..)
    rw [List.foldl_cons, ih _ (fun y hy => hx y (List.mem_cons_of_mem _ hy))]
    cases x <;> first | rfl | exact absurd hne (by simp [isMbox])

theorem mboxByte_hold_mbox (n : Node) (e : Nat) (a : Act) (off : Nat) (parts : List (Nat × Nat × Nat)) :
    mboxByte n e (a.hold (.mbox parts)) off =
      parts.foldl (fun v p => if p.1 = off then overlay v p.2.1 p.2.2 else v) (mboxByte n e a off) := by
  rw [mboxByte, Act.hold, List.foldl_append]
  rfl

theorem mboxAt_of_sound {n : Node} {e off : Nat} (h : (mboxBase e + off) / 8 * 8 ∉ n.poison) :
    n.mboxAt e off = (memRead n.mem (mboxBase e + off)).toNat := by
  rw [Node.mboxAt, if_neg h]

theorem overlay_byte (old v : Nat) : overlay old 255 v = v % 256 := by
  have h := Nat.and_two_pow_sub_one_eq_mod v 8
  norm_num at h
  simp [overlay, h]

theorem actByte_mailbox (n : Node) (e : Nat) (a : Act) {ad : Nat} (h : 0x20000 ≤ ad) (h' : ad < 0x21000) :
    actByte n e a ad = mboxByte n e a (ad - 0x20000) := by
  simp only [actByte, rangeOf_mailbox h h']

theorem actByte_transmit (n : Node) (e : Nat) (a : Act) {ad : Nat} (h : 0x10000 ≤ ad) (h' : ad < 0x12440) :
    actByte n e a ad = (FMap.get 0 a.tx (ad - 0x10000)).toNat := by
  by_cases hh : ad < 0x10040
  · simp only [actByte, rangeOf_txHeader h hh]
  · simp only [actByte, rangeOf_txData (Nat.le_of_not_lt hh) h']

/-- Settles O5: each range of 03 R81 answers from its own place. -/
theorem dataSpaceBytes : Obligations.DataSpaceBytes := by
  intro n e act ad
  refine ⟨fun h hin => ?_, fun x h hin => ?_, fun h h' hin => ?_, fun x h h' hin => ?_, fun h h' => actByte_transmit n e act h h',
    fun h h' hm hp => ?_, fun v h h' _ => ?_⟩
  · simp only [actByte, rangeOf_header h, hin]
  · simp only [actByte, rangeOf_header h, hin]
    rfl
  · simp only [actByte, rangeOf_data h h', hin]
  · simp only [actByte, rangeOf_data h h', hin]
    exact ⟨fun _ => rfl, fun hl => by simp [byteAt, List.getElem?_eq_none hl]⟩
  · rw [actByte_mailbox n e act h h', mboxByte_of_none hm, mboxAt_of_sound hp]
  · rw [actByte_mailbox n e _ h h', mboxByte_hold_mbox]
    simp [overlay_byte]

/-! ### Loads -/

theorem beNat_eq_leNat_reverse (l : List Byte) : beNat l = leNat l.reverse := by
  have key : ∀ (l : List Byte) (v : Nat), leNat l + 256 ^ l.length * v = l.foldr (fun b a => b.toNat + 256 * a) v := by
    intro l v
    induction l with
    | nil => simp [leNat]
    | cons b t ih =>
      rw [List.foldr_cons, ← ih, leNat, List.length_cons, pow_succ]
      ring
  have h := key l.reverse 0
  rw [List.foldr_reverse] at h
  rw [beNat]
  simpa [add_comm, mul_comm] using h.symm

theorem beNat_lt (l : List Byte) : beNat l < 256 ^ l.length := by
  rw [beNat_eq_leNat_reverse]
  simpa using leNat_lt l.reverse

theorem beNat_digit (l : List Byte) (j : Nat) (h : j < l.length) :
    beNat l / 256 ^ (l.length - 1 - j) % 256 = (l.getD j 0).toNat := by
  rw [beNat_eq_leNat_reverse, leNat_digit]
  simp only [List.getD_eq_getElem?_getD]
  rw [List.getElem?_reverse (by omega), show l.length - 1 - (l.length - 1 - j) = j by omega]

/-- `k` bytes of the data address space from `ad`. -/
def actBytes (n : Node) (e : Nat) (a : Act) (ad k : Nat) : List Byte :=
  (List.range k).map (fun j => BitVec.ofNat 8 (actByte n e a (ad + j)))

@[simp] theorem actBytes_length (n : Node) (e : Nat) (a : Act) (ad k : Nat) : (actBytes n e a ad k).length = k := by
  simp [actBytes]

theorem actBytes_getD (n : Node) (e : Nat) (a : Act) (ad k : Nat) {j : Nat} (h : j < k) :
    ((actBytes n e a ad k).getD j 0).toNat = actByte n e a (ad + j) % 256 := by
  simp [actBytes, h]

/-- The value of `k` bytes in either byte order. -/
def bytesVal (be : Bool) (l : List Byte) : Nat := if be then beNat l else leNat l

theorem bytesVal_lt (be : Bool) (l : List Byte) : bytesVal be l < 256 ^ l.length := by
  unfold bytesVal
  split
  · exact beNat_lt l
  · exact leNat_lt l

theorem bytesVal_digit (be : Bool) (l : List Byte) (j : Nat) (h : j < l.length) :
    bytesVal be l / 256 ^ (if be then l.length - 1 - j else j) % 256 = (l.getD j 0).toNat := by
  cases be
  · exact leNat_digit l j
  · exact beNat_digit l j h

theorem kAddr_eq (a : Act) (i : KIns) : kAddr a i = (a.rg i.ra + i.second a).toNat := by
  rw [← second_eq]
  rfl

theorem KIns.sz_pos (i : KIns) : 0 < i.sz := Nat.two_pow_pos _

theorem effLd_eq {n : Node} {e : Nat} {a : Act} {i : KIns} (hr : OneRange (kAddr a i) i.sz) (hal : kAddr a i % i.sz = 0) :
    effLd n e a i = .done n (a.wg i.rd (if bitOf i.fn 3 then
      (BitVec.ofNat (8 * i.sz) (bytesVal (bitOf i.fn 2) (actBytes n e a (kAddr a i) i.sz))).signExtend 64
      else BitVec.ofNat 64 (bytesVal (bitOf i.fn 2) (actBytes n e a (kAddr a i) i.sz)))) i := by
  have hsome := inOneRange_isSome i.sz_pos hr
  have hlt := OneRange.lt i.sz_pos hr
  have hsz := i.sz_pos
  unfold effLd
  dsimp only
  rw [if_neg (by simp [hal, Option.isSome_iff_ne_none.mp hsome]; omega), ← ofInt_toSigned _ _ (by omega)]
  rfl

/-! ### Stores into the transmit area -/

/-- Cells taken leave all of the node but the free pools and the draw of free values as it was (06 R222). -/
theorem Node.takeCells_keeps (k : Nat) (n : Node) :
    ∃ b f, (Node.takeCells k n).2 = { n with fab := { n.fab with banks := b }, freeN := f } := by
  induction k generalizing n with
  | zero => exact ⟨n.fab.banks, n.freeN, rfl⟩
  | succ k ih =>
    unfold Node.takeCells
    split
    · exact ⟨n.fab.banks, n.freeN, rfl⟩
    · rename_i b m h
      unfold Node.takeCell at h
      dsimp only at h
      split at h
      · cases h
      · obtain ⟨bs, f, hm⟩ := ih m
        cases h
        exact ⟨bs, f, hm⟩

theorem Node.takeCells_eng (k : Nat) (n : Node) (e : Nat) : (Node.takeCells k n).2.eng e = n.eng e := by
  obtain ⟨b, f, h⟩ := Node.takeCells_keeps k n
  rw [h]
  rfl

theorem Node.takeCells_level (k : Nat) (n : Node) : (Node.takeCells k n).2.level = n.level := by
  obtain ⟨b, f, h⟩ := Node.takeCells_keeps k n
  rw [h]

theorem Node.takeCells_allowed (k : Nat) (n : Node) : (Node.takeCells k n).2.allowed = n.allowed := by
  obtain ⟨b, f, h⟩ := Node.takeCells_keeps k n
  rw [h]
  rfl

/-- The cells a store up to byte `last` of the transmit area must still take (03 R84). -/
def txNeed (a : Act) (last : Nat) : Nat := if 0x40 ≤ last then (last - 0x40 + 32) / 256 + 1 - a.txCells.length else 0

/-- The transmit area under masked bytes. -/
def txPut (tx : FMap Byte) (parts : List (Nat × Nat × Nat)) : FMap Byte :=
  parts.foldl (fun t p => FMap.put 0 t p.1 (BitVec.ofNat 8 (overlay (FMap.get 0 t p.1).toNat p.2.1 p.2.2))) tx

theorem foldl_txPut (parts : List (Nat × Nat × Nat)) (a : Act) :
    parts.foldl (fun a p =>
      let old := (FMap.get 0 a.tx p.1).toNat
      { a with tx := FMap.put 0 a.tx p.1 (BitVec.ofNat 8 (overlay old p.2.1 p.2.2)) }) a = { a with tx := txPut a.tx parts } := by
  induction parts generalizing a with
  | nil => rfl
  | cons p t ih => rw [List.foldl_cons, ih]; rfl

section Area

variable {n : Node} {a : Act} {parts : List (Nat × Nat × Nat)} {last : Nat}

/-- A short area ignores every later store (03 R84). -/
theorem storeTx_of_short (hs : a.short = true) : storeTx n a parts = (n, a) := by
  unfold storeTx
  dsimp only
  split
  · simp [takeTx, hs]
  · simp

/-- The cells a store needs are taken first, and the area is short where they are not all there (03 R84). -/
theorem takeTx_of_not_short {d : Nat} (hs : a.short = false) (hd : d + 0x40 = last) : takeTx n a d =
    ((Node.takeCells (txNeed a last) n).2, { a with
      txCells := a.txCells ++ (Node.takeCells (txNeed a last) n).1,
      short := decide ((Node.takeCells (txNeed a last) n).1.length < txNeed a last) }) := by
  have hneed : txNeed a last = (d + 32) / 256 + 1 - a.txCells.length := by
    rw [txNeed, if_pos (by omega), show last - 0x40 = d by omega]
  simp [takeTx, hs, hneed]

theorem storeTx_of_wanting (hl : (parts.map (·.1)).foldl max 0 = last) (hs : a.short = false)
    (hc : (Node.takeCells (txNeed a last) n).1.length < txNeed a last) :
    storeTx n a parts = ((Node.takeCells (txNeed a last) n).2,
      { a with txCells := a.txCells ++ (Node.takeCells (txNeed a last) n).1, short := true }) := by
  have h40 : 0x40 ≤ last := by
    by_contra h
    rw [txNeed, if_neg h] at hc
    omega
  unfold storeTx
  dsimp only
  rw [hl, if_pos h40, takeTx_of_not_short hs (Nat.sub_add_cancel h40)]
  simp [hc]

theorem storeTx_of_enough (hl : (parts.map (·.1)).foldl max 0 = last) (hs : a.short = false)
    (hc : (Node.takeCells (txNeed a last) n).1.length = txNeed a last) :
    storeTx n a parts = ((Node.takeCells (txNeed a last) n).2,
      { a with txCells := a.txCells ++ (Node.takeCells (txNeed a last) n).1, tx := txPut a.tx parts }) := by
  unfold storeTx
  dsimp only
  rw [hl]
  by_cases h40 : 0x40 ≤ last
  · rw [if_pos h40, takeTx_of_not_short hs (Nat.sub_add_cancel h40)]
    simp only [hc, Nat.lt_irrefl, decide_false, Bool.false_eq_true, if_false]
    rw [foldl_txPut]
    simp [hs]
  · have hneed : txNeed a last = 0 := if_neg h40
    simp only [if_neg h40, hs, Bool.false_eq_true, if_false]
    rw [foldl_txPut, hneed]
    simp [Node.takeCells, hs]

end Area

/-- The highest byte of a run. -/
theorem foldl_max_run (b k : Nat) (f : Nat → Nat × Nat) (hk : 0 < k) :
    (((List.range k).map (fun j => (b + j, f j))).map (·.1)).foldl max 0 = b + k - 1 := by
  induction k with
  | zero => omega
  | succ k ih =>
    rw [List.range_succ, List.map_append, List.map_append, List.foldl_append]
    cases k with
    | zero => simp
    | succ k => rw [ih (by omega)]; simp

/-- A run of masked bytes changes its own bytes only. -/
theorem txPut_run (tx : FMap Byte) (b k : Nat) (m v : Nat → Nat) (x : Nat) :
    FMap.get 0 (txPut tx ((List.range k).map (fun j => (b + j, m j, v j)))) x =
      if b ≤ x ∧ x < b + k then BitVec.ofNat 8 (overlay (FMap.get 0 tx x).toNat (m (x - b)) (v (x - b))) else FMap.get 0 tx x := by
  induction k with
  | zero => rw [if_neg (by omega)]; rfl
  | succ k ih =>
    rw [List.range_succ, List.map_append]
    unfold txPut at ih ⊢
    rw [List.foldl_append]
    simp only [List.map_cons, List.map_nil, List.foldl_cons, List.foldl_nil]
    by_cases hx : x = b + k
    · subst hx
      rw [FMap.get_put_same, if_pos (by omega), ih, if_neg (by omega), Nat.add_sub_cancel_left]
    · rw [FMap.get_put_ne _ _ _ _ hx, ih]
      by_cases hin : b ≤ x ∧ x < b + k
      · rw [if_pos hin, if_pos (by omega)]
      · rw [if_neg hin, if_neg (by omega)]

/-- `StoresTx` with its cells counted by `txNeed`. -/
theorem storesTx_iff {c : Instr} {s : State} {e last : Nat} {post : Act → Act} {bytes : FMap Byte → Prop} :
    StoresTx c s e last post bytes ↔
      let act := (s.node.eng e).act
      let got := Node.takeCells (txNeed act last) s.node
      let leaves := fun a : Act => Leaves c s (got.2.setEng e { s.node.eng e with act := post a })
      (act.short = true → EngineDone c s e (post act)) ∧
      (act.short = false → got.1.length < txNeed act last → leaves { act with txCells := act.txCells ++ got.1, short := true }) ∧
      (act.short = false → got.1.length = txNeed act last →
        ∃ tx, bytes tx ∧ leaves { act with txCells := act.txCells ++ got.1, tx := tx }) := Iff.rfl

/-- A row that stores masked bytes into the transmit area. -/
theorem StoresTx.of_storeTx {c : Instr} {s : State} {e : Nat} {t : KTag} {eff : Node → Act → KIns → KRes} {i : KIns} {cost last : Nat}
    {parts : List (Nat × Nat × Nat)} {post : Act → Act} {bytes : FMap Byte → Prop} (hf : s.node.fits) (ht : i.tag = t)
    (hi : Issues s.node e i cost) (hx : exec c s = s.to (s.node.kStep e [t] eff)) (hcost : kCost t 0 = cost)
    (he : eff s.node (s.node.eng e).act i =
      .done (storeTx s.node (s.node.eng e).act parts).1 (post (storeTx s.node (s.node.eng e).act parts).2) i)
    (hlast : (parts.map (·.1)).foldl max 0 = last) (hc : ∀ a : Act, (post a).cyc = a.cyc) (hb : ∀ a : Act, (post a).budget = a.budget)
    (hbytes : bytes (txPut (s.node.eng e).act.tx parts)) : StoresTx c s e last (fun a => (post a).past i cost) bytes := by
  have leaves {m : Node} {a' : Act} (heff : storeTx s.node (s.node.eng e).act parts = (m, a'))
      (hcyc : a'.cyc = (s.node.eng e).act.cyc) (hbud : a'.budget = (s.node.eng e).act.budget)
      (hm : m.eng e = s.node.eng e) (hlevel : m.level = s.node.level) (hallowed : m.allowed = s.node.allowed) :
      Leaves c s (m.setEng e { s.node.eng e with act := (post a').past i cost }) := by
    rw [heff, KRes.done_of_tag _ _ ht, hcost] at he
    rw [Node.kStep_issued hi (List.mem_singleton.mpr ht) he,
      Node.retire_past rfl rfl ((hc a').trans hcyc) (by rw [hb, hbud]; exact hi.budget), hm] at hx
    exact Leaves.of_to hx hlevel hallowed hf
  refine storesTx_iff.mpr ⟨fun hs => ?_, fun hs hshort => ?_, fun hs hfull => ⟨_, hbytes, ?_⟩⟩
  · exact leaves (storeTx_of_short hs) rfl rfl rfl rfl rfl
  · exact leaves (storeTx_of_wanting hlast hs hshort) rfl rfl (Node.takeCells_eng _ _ _) (Node.takeCells_level _ _)
      (Node.takeCells_allowed _ _)
  · exact leaves (storeTx_of_enough hlast hs hfull) rfl rfl (Node.takeCells_eng _ _ _) (Node.takeCells_level _ _)
      (Node.takeCells_allowed _ _)

/-- A store row whose run of masked bytes lies in the transmit area. -/
theorem StoresTx.of_kStore {c : Instr} {s : State} {e : Nat} {t : KTag} {eff : Node → Act → KIns → KRes} {i : KIns} {cost ad k r : Nat}
    {f : Nat → Nat × Nat} {post : Act → Act} {bytes : FMap Byte → Prop} (hf : s.node.fits) (ht : i.tag = t)
    (hi : Issues s.node e i cost) (hx : exec c s = s.to (s.node.kStep e [t] eff)) (hcost : kCost t 0 = cost) (hk : 0 < k)
    (had : 0x10000 ≤ ad) (hr : r = 2 ∨ r = 3)
    (he : eff s.node (s.node.eng e).act i =
      kStore s.node (s.node.eng e).act i (some r) ((List.range k).map (fun j => (ad + j, f j))) post)
    (hc : ∀ a : Act, (post a).cyc = a.cyc) (hb : ∀ a : Act, (post a).budget = a.budget)
    (hbytes : bytes (txPut (s.node.eng e).act.tx ((List.range k).map (fun j => (ad - 0x10000 + j, f j))))) :
    StoresTx c s e (ad + k - 1 - 0x10000) (fun a => (post a).past i cost) bytes := by
  have hparts : ((List.range k).map (fun j => (ad + j, f j))).map (fun p => (p.1 - 0x10000, p.2)) =
      (List.range k).map (fun j => (ad - 0x10000 + j, f j)) := by
    rw [List.map_map]
    exact List.map_congr_left (fun j _ => by simp only [Function.comp]; rw [Nat.sub_add_comm had])
  have hlast := foldl_max_run (ad - 0x10000) k f hk
  rw [show ad - 0x10000 + k - 1 = ad + k - 1 - 0x10000 by omega] at hlast
  refine .of_storeTx hf ht hi hx hcost ?_ hlast hc hb hbytes
  rw [he, ← hparts]
  rcases hr with rfl | rfl <;> rfl

theorem kStore_mailbox {n : Node} {a : Act} {i : KIns} {parts : List (Nat × Nat × Nat)} {post : Act → Act} (h : a.count isMbox < 64) :
    kStore n a i (some 4) parts post = .done n (post (a.hold (.mbox (parts.map (fun p => (p.1 - 0x20000, p.2)))))) i :=
  if_neg (Nat.not_le.mpr h)

/-- A store row whose run of masked bytes lies in the mailbox holds it (03 R95, R98). -/
theorem EngineDone.of_kStore {c : Instr} {s : State} {e : Nat} {t : KTag} {eff : Node → Act → KIns → KRes} {i : KIns} {cost ad k : Nat}
    {f : Nat → Nat × Nat} {post : Act → Act} (hf : s.node.fits) (ht : i.tag = t)
    (hi : Issues s.node e i cost) (hx : exec c s = s.to (s.node.kStep e [t] eff)) (hcost : kCost t 0 = cost)
    (he : eff s.node (s.node.eng e).act i =
      kStore s.node (s.node.eng e).act i (some 4) ((List.range k).map (fun j => (ad + j, f j))) post)
    (hc : ∀ a : Act, (post a).cyc = a.cyc) (hb : ∀ a : Act, (post a).budget = a.budget)
    (hroom : (s.node.eng e).act.count isMbox < 64) :
    EngineDone c s e ((post ((s.node.eng e).act.hold (.mbox ((List.range k).map (fun j => (ad + j - 0x20000, f j)))))).past i cost) := by
  refine .of_done hf ht hi hx hcost ?_ (hc _) (hb _)
  rw [he, kStore_mailbox hroom, List.map_map]
  rfl

/-! ### ST and STX -/

/-- Byte `j` of the low `k` bytes of a word, in either byte order. -/
def storeByte (be : Bool) (k v j : Nat) : Nat := v / 256 ^ (if be then k - 1 - j else j) % 256

theorem byteAt_storeBytes (be : Bool) (k v j : Nat) (h : j < k) :
    byteAt (if be then (leBytes k v).reverse else leBytes k v) j = storeByte be k v j := by
  cases be
  · exact leBytes_getD k v j h
  · show byteAt (leBytes k v).reverse j = v / 256 ^ (k - 1 - j) % 256
    rw [byteAt, List.getD_eq_getElem?_getD, List.getElem?_reverse (by simpa using h), leBytes_length, ← List.getD_eq_getElem?_getD]
    exact leBytes_getD k v _ (by omega)

theorem effSt_eq {n : Node} {a : Act} {i : KIns} (hlt : kAddr a i < 2 ^ 32) (hal : kAddr a i % i.sz = 0) :
    effSt n a i = kStore n a i (inOneRange (kAddr a i) i.sz)
      ((List.range i.sz).map (fun j => (kAddr a i + j, 255, storeByte (bitOf i.fn 2) i.sz (a.rg i.rd).toNat j))) id := by
  unfold effSt
  dsimp only
  rw [if_neg (by omega)]
  congr 1
  exact List.map_congr_left (fun j hj => by rw [byteAt_storeBytes _ _ _ _ (List.mem_range.mp hj)])

theorem InTransmit.ge {a k : Nat} (h : InTransmit a k) : 0x10000 ≤ a := by
  unfold InTransmit at h
  omega

/-- Settles O6: a load gives the bytes read; a store changes its bytes of the transmit area, or is held. -/
theorem loadStoreResults : Obligations.LoadStoreResults := by
  constructor
  · intro s e i hf hi act ad k hr hal
    have had : kAddr act i = ad := kAddr_eq act i
    refine ⟨bytesVal (bitOf i.fn 2) (actBytes s.node e act ad k), _, ?_, fun j hj => ?_, rfl, fun ht => ?_, fun ht => ?_⟩
    · simpa using bytesVal_lt (bitOf i.fn 2) (actBytes s.node e act ad k)
    · have hd := bytesVal_digit (bitOf i.fn 2) (actBytes s.node e act ad k) j (by simpa using hj)
      rw [actBytes_length, actBytes_getD _ _ _ _ _ hj] at hd
      exact hd
    · rw [← had] at hr hal ⊢
      exact .of_done hf ht hi rfl rfl (effLd_eq hr hal) (Act.wg_cyc _ _ _) (Act.wg_budget _ _ _)
    · rw [← had] at hr hal ⊢
      exact .of_done hf ht hi rfl rfl (effLd_eq hr hal) (Act.wg_cyc _ _ _) (Act.wg_budget _ _ _)
  · intro s e i c hf hi hc act ad k byte hal
    have had : kAddr act i = ad := kAddr_eq act i
    have hkpos : 0 < k := i.sz_pos
    obtain ⟨t, ht, hcost, hx⟩ : ∃ t, i.tag = t ∧ kCost t 0 = 1 ∧ exec c s = s.to (s.node.kStep e [t] effSt) := by
      rcases hc with ⟨ht, rfl⟩ | ⟨ht, rfl⟩ <;> exact ⟨_, ht, rfl, rfl⟩
    have heff (hlt : ad < 2 ^ 32) : effSt s.node act i = kStore s.node act i (inOneRange ad k)
        ((List.range k).map (fun j => (ad + j, 255, byte j))) id := by
      have := effSt_eq (n := s.node) (a := act) (i := i) (by rw [had]; exact hlt) (by rw [had]; exact hal)
      rw [had] at this
      exact this
    refine ⟨fun htx => ?_, fun hmb hroom => ?_⟩
    · have hlt : ad < 2 ^ 32 := by unfold InTransmit at htx; omega
      obtain ⟨r, hr, hrange⟩ : ∃ r, (r = 2 ∨ r = 3) ∧ inOneRange ad k = some r := by
        rcases inOneRange_transmit hkpos htx with h | h
        · exact ⟨2, .inl rfl, h⟩
        · exact ⟨3, .inr rfl, h⟩
      refine .of_kStore (post := id) hf ht hi hx hcost hkpos htx.ge hr (hrange ▸ heff hlt) (fun _ => rfl) (fun _ => rfl) (fun x => ?_)
      rw [txPut_run]
      split
      · rw [overlay_byte, Nat.mod_mod]
      · rfl
    · have hlt : ad < 2 ^ 32 := by unfold InMailbox at hmb; omega
      exact .of_kStore (post := id) hf ht hi hx hcost (inOneRange_mailbox hkpos hmb ▸ heff hlt) (fun _ => rfl) (fun _ => rfl) hroom

end Sys2Proof.Machine
end


section
/-! Kerarqua: bit fields (04 R131, R132). -/

namespace Sys2Proof.Machine

open Sys2Proof

/-! ### What a command leaves is one node -/

theorem Leaves.engs_eq {c : Instr} {s : State} {m n : Node} (h : Leaves c s m) (g : Leaves c s n) : m.engs = n.engs := by
  obtain ⟨t, ht, -, hm⟩ := h
  obtain ⟨u, hu, -, hn⟩ := g
  obtain rfl : t = u := Host.Outcome.next.inj (ht.symm.trans hu)
  exact hm.engs.symm.trans hn.engs

/-! ### An INSB at the first bit of the transmit area -/

/-- INSB of 8 bits, least significant bit first, of g3 at bit address g1: opcode 15h, rd 3, ra 1, rb 4, O set (04 R121, R131). -/
def insbWord : Nat := 0x15 * 2 ^ 26 + 3 * 2 ^ 17 + 1 * 2 ^ 12 + 4 * 2 ^ 7 + 0x20

/-- An activation with the first bit of the transmit area in g1 and eight one bits in g3. -/
def insbAct : Act := { g := [(1, 0x80000), (3, 0xFF)], budget := 100 }

/-- A powered node whose engine 0 is about to execute the INSB. -/
def insbState : State :=
  { node := { State.reset.node with
      mem := memWrite [] (codeBase 0) (leBytes 4 insbWord), engs := [(0, { phase := .running, act := insbAct })] } }

/-- The instruction `insbWord` spells. -/
def insbIns : KIns := kDecode false insbWord 0

theorem insbState_issues : Issues insbState.node 0 insbIns 4 where
  phase := by decide
  fetch := by decide
  check := by decide
  guard := by decide
  budget := by decide

theorem insbState_effInsb :
    effInsb insbState.node (insbState.node.eng 0).act insbIns =
      kStore insbState.node (insbState.node.eng 0).act insbIns (some 2) ((List.range 1).map (fun j => (0x10000 + j, 255, 255)))
        (kPost insbIns) := by
  rfl

theorem insbState_stores : StoresTx (.kInsb 0) insbState 0 0 (fun a => (kPost insbIns a).past insbIns 4) (fun tx => tx = [(0, 255)]) :=
  .of_kStore (s := insbState) (k := 1) (ad := 0x10000) (post := kPost insbIns) (Nat.zero_le _) (by decide) insbState_issues rfl rfl
    (by decide) (by decide) (.inl rfl) insbState_effInsb (fun _ => rfl) (fun _ => rfl) (by decide)

/-- Refutes O7: bit addresses below the transmit area are counted as its first byte, because `x / 8 - 0x10000` is cut off at 0. An INSB of
eight one bits at bit address 80000h sets byte 0 of the empty area; the statement at x = 0 would have bit 0 of that byte keep its old value. -/
theorem not_bitFieldResults : ¬ Obligations.BitFieldResults := by
  intro h
  have hstore := ((h.2 insbState 0 insbIns (Nat.zero_le _) insbState_issues (by decide) (by decide)).1 (.inl ⟨by decide, by decide⟩)).2.2
  obtain ⟨tx, hbytes, hleaves⟩ := hstore (by decide) (by decide)
  obtain ⟨tx', htx', hleaves'⟩ := insbState_stores.2.2 (by decide) (by decide)
  have heng := congrArg (fun l => (FMap.get ({} : Eng) l 0).act.tx) (hleaves.engs_eq hleaves')
  simp only [Node.setEng, FMap.get_put_same] at heng
  have htx : tx = [(0, 255)] := Eq.trans heng htx'
  have hzero := hbytes 0
  rw [htx] at hzero
  exact absurd hzero (by decide)

end Sys2Proof.Machine
end


section
/-! Kerarqua: fixed-point instructions (04 R133 to R137). -/

namespace Sys2Proof.Machine

open Sys2Proof

/-! ### Rounding and saturation -/

/-- The nearest integer to `num` / `den`, ties away from zero. -/
theorem roundAway_spec (num : Int) (den : Nat) (hd : 0 < den) :
    2 * ((roundAway num den * den - num).natAbs : Int) ≤ den ∧
      (2 * ((roundAway num den * den - num).natAbs : Int) = den → num.natAbs ≤ (roundAway num den * den).natAbs) := by
  obtain ⟨m, hm⟩ : ∃ m, m = (2 * num.natAbs + den) / (2 * den) := ⟨_, rfl⟩
  have hle : m * (2 * den) ≤ 2 * num.natAbs + den := hm ▸ Nat.div_mul_le_self _ _
  have hlt : 2 * num.natAbs + den < 2 * den * (m + 1) := hm ▸ Nat.lt_mul_div_succ _ (by omega)
  have hle' : 2 * (m * den) ≤ 2 * num.natAbs + den := by linarith
  have hlt' : 2 * num.natAbs < 2 * (m * den) + den := by linarith
  have hr : roundAway num den * den = if num < 0 then -((m * den : Nat) : Int) else ((m * den : Nat) : Int) := by
    rw [roundAway, ← hm]
    split <;> push_cast <;> ring
  generalize m * den = p at *
  rw [hr]
  split <;> omega

theorem clampS_eq (i : Int) : clampS 64 i = max (-2 ^ 63) (min i (2 ^ 63 - 1)) := rfl

theorem satS64_eq (i : Int) : satS64 i =
    (BitVec.ofInt 64 (max (-2 ^ 63) (min i (2 ^ 63 - 1))), decide (max (-2 ^ 63) (min i (2 ^ 63 - 1)) ≠ i)) := by
  rw [satS64, clampS_eq]
  congr 1
  rw [Bool.eq_iff_iff]
  simp

/-! ### SAT, SCALE and RANGE -/

theorem satOp_eq (w : Nat) (sg : Bool) (a : W64) :
    let lo : Int := if sg then -2 ^ (w - 1) else 0
    let hi : Int := if sg then 2 ^ (w - 1) - 1 else if w = 64 then 2 ^ 63 - 1 else 2 ^ w - 1
    satOp w sg a = (BitVec.ofInt 64 (max lo (min a.toInt hi)), decide (max lo (min a.toInt hi) ≠ a.toInt)) := by
  intro lo hi
  have hr : (if sg then clampS w a.toInt else if w = 64 then max 0 a.toInt else max 0 (min a.toInt (2 ^ w - 1))) =
      max lo (min a.toInt hi) := by
    simp only [lo, hi]
    split
    · rfl
    · split
      · rw [min_eq_left]
        have := BitVec.toInt_lt (x := a)
        norm_num at this ⊢
        omega
      · rfl
  unfold satOp
  dsimp only
  rw [hr]
  congr 1
  rw [Bool.eq_iff_iff]
  simp

theorem scaleOp_eq (fn m : Nat) (a b : W64) : scaleOp fn m a b =
    satS64 (roundAway ((if bitOf fn 0 then (a.toNat : Int) else a.toInt) * (BitVec.ofNat 32 m).toInt) (2 ^ (fn / 2)) + b.toInt) := by
  rw [toInt_ofNat_toSigned 32 m (by decide)]
  rfl

theorem rangeOp_spec (u : Bool) (a lo hi : W64) :
    let lt := fun x y : W64 => if u then x.toNat < y.toNat else x.toInt < y.toInt
    (lt a lo → rangeOp u a lo hi = 1) ∧ (¬ lt a lo → lt hi a → rangeOp u a lo hi = 2) ∧
      (¬ lt a lo → ¬ lt hi a → rangeOp u a lo hi = 0) := by
  cases u
  all_goals
    simp only [rangeOp, Bool.false_eq_true, if_true, if_false, decide_eq_true_eq]
    exact ⟨fun h => if_pos h, fun h h' => by rw [if_neg h, if_pos h'], fun h h' => by rw [if_neg h, if_neg h']⟩

/-! ### Integers to binary values (04 R137) -/

/-- The number of bits of `m` is one more than the place of its highest one bit. -/
theorem bitLen_eq {m t : Nat} (ht : t < 64) (hlo : 2 ^ t ≤ m) (hhi : m < 2 ^ (t + 1)) : bitLen m = t + 1 := by
  have hidx : (List.range 64).findIdx (fun i => bitOf m (63 - i)) = 63 - t := by
    rw [List.findIdx_eq (by simp; omega)]
    refine ⟨?_, fun j hj => ?_⟩
    · rw [List.getElem_range, show 63 - (63 - t) = t by omega, bitOf_eq_testBit, Nat.testBit_eq_decide_div_mod_eq]
      have : m / 2 ^ t = 1 := Nat.div_eq_of_lt_le (by omega) (by rw [pow_succ] at hhi; omega)
      simp [this]
    · rw [List.getElem_range, bitOf_eq_testBit]
      exact Nat.testBit_lt_two_pow (Nat.lt_of_lt_of_le hhi (Nat.pow_le_pow_right (by decide) (by omega)))
  rw [bitLen, hidx]
  omega

/-- The nearest multiple of 2^`d`, ties to even. -/
theorem roundEven_spec (m d : Nat) :
    2 * (((roundEven m d * 2 ^ d : Nat) : Int) - m).natAbs ≤ 2 ^ d ∧
      (2 * (((roundEven m d * 2 ^ d : Nat) : Int) - m).natAbs = 2 ^ d → roundEven m d % 2 = 0) := by
  have hdm := Nat.div_add_mod m (2 ^ d)
  have hlt := Nat.mod_lt m (Nat.two_pow_pos d)
  rw [mul_comm] at hdm
  unfold roundEven
  dsimp only
  generalize m / 2 ^ d = q at *
  generalize m % 2 ^ d = r at *
  split
  · rw [Nat.add_mul, one_mul]
    generalize q * 2 ^ d = p at *
    omega
  · generalize q * 2 ^ d = p at *
    omega

theorem roundEven_bounds {m d k : Nat} (hlo : 2 ^ (k + d) ≤ m) (hhi : m < 2 ^ (k + 1 + d)) :
    2 ^ k ≤ roundEven m d ∧ roundEven m d ≤ 2 ^ (k + 1) := by
  have hq : 2 ^ k ≤ m / 2 ^ d := (Nat.le_div_iff_mul_le (Nat.two_pow_pos d)).mpr (by rw [← pow_add]; exact hlo)
  have hq' : m / 2 ^ d < 2 ^ (k + 1) := (Nat.div_lt_iff_lt_mul (Nat.two_pow_pos d)).mpr (by rw [← pow_add]; exact hhi)
  unfold roundEven
  dsimp only
  split <;> omega

/-- The significand of `m`, of `mb` + 1 bits, for a highest one bit in place `t`. -/
def significand (mb m t : Nat) : Nat := if t ≤ mb then m * 2 ^ (mb - t) else roundEven m (t - mb)

theorem significand_bounds {mb m t : Nat} (hlo : 2 ^ t ≤ m) (hhi : m < 2 ^ (t + 1)) :
    2 ^ mb ≤ significand mb m t ∧ significand mb m t ≤ 2 ^ (mb + 1) := by
  unfold significand
  split
  · rename_i h
    have h1 : 2 ^ t * 2 ^ (mb - t) = 2 ^ mb := by rw [← pow_add]; congr 1; omega
    have h2 : 2 ^ (t + 1) * 2 ^ (mb - t) = 2 ^ (mb + 1) := by rw [← pow_add]; congr 1; omega
    have := Nat.mul_le_mul_right (2 ^ (mb - t)) hlo
    have := Nat.mul_le_mul_right (2 ^ (mb - t)) hhi.le
    omega
  · rename_i h
    exact roundEven_bounds (by rwa [show mb + (t - mb) = t by omega]) (by rwa [show mb + 1 + (t - mb) = t + 1 by omega])

/-- The significand is the nearest to `m`, scaled to `mb` fraction bits, ties to even. -/
theorem significand_nearest (mb m t : Nat) :
    let off := (((significand mb m t * 2 ^ t : Nat) : Int) - (m * 2 ^ mb : Nat)).natAbs
    2 * off ≤ 2 ^ t ∧ (2 * off = 2 ^ t → significand mb m t % 2 = 0) := by
  intro off
  have hpos := Nat.two_pow_pos t
  by_cases h : t ≤ mb
  · have hoff : off = 0 := by
      simp only [off, significand, if_pos h]
      rw [mul_assoc, ← pow_add, Nat.sub_add_cancel h]
      simp
    omega
  · obtain ⟨hle, htie⟩ := roundEven_spec m (t - mb)
    have hpow : 2 ^ t = 2 ^ (t - mb) * 2 ^ mb := by rw [← pow_add]; congr 1; omega
    have hoff : off = (((roundEven m (t - mb) * 2 ^ (t - mb) : Nat) : Int) - m).natAbs * 2 ^ mb := by
      simp only [off, significand, if_neg h, hpow]
      push_cast
      rw [← mul_assoc, ← sub_mul, Int.natAbs_mul, Int.natAbs_pow]
      rfl
    have hmb := Nat.two_pow_pos mb
    rw [hoff, hpow, significand, if_neg h, ← mul_assoc]
    exact ⟨Nat.mul_le_mul_right _ hle, fun he => htie (Nat.eq_of_mul_eq_mul_right hmb he)⟩

/-- A nonzero integer as a binary value: sign, exponent less one, and significand. -/
theorem toBinary_eq {mb eb f t : Nat} {a : Int} (ht : t < 64) (hlo : 2 ^ t ≤ a.natAbs) (hhi : a.natAbs < 2 ^ (t + 1))
    (hf : f + 1 ≤ 2 ^ (eb - 1) - 1) :
    toBinary mb eb a f = (if a < 0 then 2 ^ (mb + eb) else 0) +
      (t + (2 ^ (eb - 1) - 1) - f - 1) * 2 ^ mb + significand mb a.natAbs t := by
  have hne : a.natAbs ≠ 0 := by have := Nat.two_pow_pos t; omega
  have hsig := (significand_bounds (mb := mb) hlo hhi).1
  have hq : (if t + 1 ≤ mb + 1 then a.natAbs * 2 ^ (mb + 1 - (t + 1)) else roundEven a.natAbs (t + 1 - (mb + 1))) =
      significand mb a.natAbs t := by
    simp [significand]
  unfold toBinary
  dsimp only
  rw [if_neg hne, bitLen_eq ht hlo hhi, hq]
  obtain ⟨e, he⟩ : ∃ e, t + 1 - 1 + (2 ^ (eb - 1) - 1) - f = e + 1 := ⟨t + (2 ^ (eb - 1) - 1) - f - 1, by omega⟩
  rw [he, show t + (2 ^ (eb - 1) - 1) - f - 1 = e by omega, Nat.add_mul, one_mul]
  by_cases hs : a < 0
  · simp only [hs, decide_true, b2n, if_true, one_mul]
    omega
  · simp only [hs, decide_false, b2n, Bool.false_eq_true, if_false, Nat.zero_mul]
    omega

theorem toBinary_zero (mb eb f : Nat) : toBinary mb eb 0 f = 0 := rfl

/-- A word has its highest one bit in one of 64 places. -/
theorem exists_top_bit {a : W64} (h : a.toInt ≠ 0) : ∃ t, t < 64 ∧ 2 ^ t ≤ a.toInt.natAbs ∧ a.toInt.natAbs < 2 ^ (t + 1) := by
  have hle : a.toInt.natAbs ≤ 2 ^ 63 := by
    have h1 := BitVec.toInt_lt (x := a)
    have h2 := BitVec.le_toInt (x := a)
    norm_num at h1 h2 ⊢
    omega
  refine ⟨Nat.log 2 a.toInt.natAbs, ?_, Nat.pow_log_le_self 2 (by omega), Nat.lt_pow_succ_log_self (by decide) _⟩
  exact Nat.log_lt_of_lt_pow (by omega) (Nat.lt_of_le_of_lt hle (by decide))

theorem top_bit_lt {a : W64} {t : Nat} (hlo : 2 ^ t ≤ a.toInt.natAbs) : t < 64 := by
  have hle : a.toInt.natAbs ≤ 2 ^ 63 := by
    have h1 := BitVec.toInt_lt (x := a)
    have h2 := BitVec.le_toInt (x := a)
    norm_num at h1 h2 ⊢
    omega
  by_contra h
  have := Nat.pow_le_pow_right (n := 2) (by decide) (Nat.le_of_not_lt h)
  omega

/-- A binary value of an integer fits its format. -/
theorem toBinary_lt {mb eb f : Nat} {a : W64} (hf : f + 1 ≤ 2 ^ (eb - 1) - 1) (he : 65 + (2 ^ (eb - 1) - 1) ≤ 2 ^ eb) :
    toBinary mb eb a.toInt f < 2 ^ (mb + eb + 1) := by
  by_cases h0 : a.toInt = 0
  · rw [h0, toBinary_zero]
    exact Nat.two_pow_pos _
  · obtain ⟨t, ht, hlo, hhi⟩ := exists_top_bit h0
    have hsig := (significand_bounds (mb := mb) hlo hhi).2
    rw [toBinary_eq ht hlo hhi hf]
    have hexp : (t + (2 ^ (eb - 1) - 1) - f - 1) * 2 ^ mb ≤ (2 ^ eb - 3) * 2 ^ mb := Nat.mul_le_mul_right _ (by omega)
    rw [Nat.sub_mul (2 ^ eb), ← pow_add, add_comm eb mb] at hexp
    have hpos := Nat.two_pow_pos mb
    have hmul : 3 * 2 ^ mb ≤ 2 ^ (mb + eb) := by
      rw [add_comm, pow_add]
      exact Nat.mul_le_mul_right _ (by omega)
    rw [pow_succ] at hsig ⊢
    split <;> omega

/-! ### Binary values to integers (04 R137) -/

theorem ofBinary_special {mb eb v f : Nat} (he : v / 2 ^ mb % 2 ^ eb = 2 ^ eb - 1) :
    (v % 2 ^ mb ≠ 0 → ofBinary mb eb v f = (0, true)) ∧
    (v % 2 ^ mb = 0 → ofBinary mb eb v f =
      (BitVec.ofInt 64 (if v / 2 ^ (mb + eb) % 2 = 1 then -2 ^ 63 else 2 ^ 63 - 1), true)) := by
  unfold ofBinary
  dsimp only
  rw [if_pos he]
  refine ⟨fun h => if_pos h, fun h => ?_⟩
  rw [if_neg (by simpa using h)]
  simp [bitOf]

/-- A finite value comes to the nearest integer `r`, ties away from zero, limited to 64 bits. -/
theorem ofBinary_finite {mb eb v f : Nat} (he : v / 2 ^ mb % 2 ^ eb ≠ 2 ^ eb - 1) :
    let ex := v / 2 ^ mb % 2 ^ eb
    let m : Nat := if ex = 0 then v % 2 ^ mb else v % 2 ^ mb + 2 ^ mb
    let num : Int := if v / 2 ^ (mb + eb) % 2 = 1 then -(m : Int) else m
    let sh : Int := (max ex 1 + f : Nat) - ((2 ^ (eb - 1) - 1 + mb : Nat) : Int)
    let d : Int := 2 ^ (-sh).toNat
    ∃ r : Int,
      2 * (r * d - num * 2 ^ sh.toNat).natAbs ≤ d.natAbs ∧
      (2 * (r * d - num * 2 ^ sh.toNat).natAbs = d.natAbs → num.natAbs ≤ (r * d).natAbs) ∧
      ofBinary mb eb v f = satS64 r := by
  intro ex m num sh d
  have hmax : ((if v / 2 ^ mb % 2 ^ eb = 0 then 1 else v / 2 ^ mb % 2 ^ eb : Nat) : Int) - (2 ^ (eb - 1) - 1) - mb + f = sh := by
    have hone : (if v / 2 ^ mb % 2 ^ eb = 0 then 1 else v / 2 ^ mb % 2 ^ eb) = max ex 1 := by split <;> omega
    have hbias : ((2 ^ (eb - 1) - 1 : Nat) : Int) = 2 ^ (eb - 1) - 1 := by
      rw [Nat.cast_sub Nat.one_le_two_pow]
      push_cast
      rfl
    simp only [sh, hone]
    rw [Nat.cast_add, Nat.cast_add, hbias]
    ring
  have hval : ofBinary mb eb v f =
      if 0 ≤ sh then
        if 70 ≤ sh then (if m = 0 then (0, false) else
          (BitVec.ofInt 64 (if v / 2 ^ (mb + eb) % 2 = 1 then -(2 ^ 63) else 2 ^ 63 - 1), true))
        else satS64 (num * 2 ^ sh.toNat)
      else satS64 (roundAway num (2 ^ (-sh).toNat)) := by
    unfold ofBinary
    dsimp only
    rw [if_neg he, hmax]
    simp only [bitOf, beq_iff_eq]
    rfl
  by_cases hsh : 0 ≤ sh
  · have hd : d = 1 := by simp only [d, show (-sh).toNat = 0 by omega, pow_zero]
    refine ⟨num * 2 ^ sh.toNat, by simp [hd], by simp [hd], ?_⟩
    rw [hval, if_pos hsh]
    by_cases h70 : 70 ≤ sh
    · rw [if_pos h70]
      have hpow : (2 : Int) ^ 70 ≤ 2 ^ sh.toNat := pow_le_pow_right₀ (by decide) (by omega)
      by_cases hm : m = 0
      · have hnum : num = 0 := by simp only [num, hm]; split <;> rfl
        rw [if_pos hm, hnum, zero_mul]
        rfl
      · rw [if_neg hm, satS64_eq]
        have hm1 : (1 : Int) ≤ m := by omega
        have hbig : (2 : Int) ^ 70 ≤ m * 2 ^ sh.toNat := by nlinarith
        norm_num at hbig
        simp only [num]
        split
        · have hr : max (-2 ^ 63 : Int) (min (-(m : Int) * 2 ^ sh.toNat) (2 ^ 63 - 1)) = -2 ^ 63 := by
            rw [neg_mul]
            omega
          rw [hr]
          congr 1
          rw [neg_mul]
          simp
          omega
        · have hr : max (-2 ^ 63 : Int) (min ((m : Int) * 2 ^ sh.toNat) (2 ^ 63 - 1)) = 2 ^ 63 - 1 := by omega
          rw [hr]
          congr 1
          simp
          omega
    · rw [if_neg h70]
  · have hzero : sh.toNat = 0 := by omega
    have hcast : ((2 ^ (-sh).toNat : Nat) : Int) = d := by simp [d]
    obtain ⟨hle, htie⟩ := roundAway_spec num (2 ^ (-sh).toNat) (Nat.two_pow_pos _)
    rw [hcast] at hle htie
    have hdpos : (0 : Int) < d := by simp [d]
    refine ⟨roundAway num (2 ^ (-sh).toNat), ?_, ?_, by rw [hval, if_neg hsh]⟩
    · rw [hzero, pow_zero, mul_one]
      omega
    · rw [hzero, pow_zero, mul_one]
      exact fun he => htie (by omega)

/-! ### CONV -/

/-- What 04 R137 says of an integer `a` that converts to the pattern `v` of a binary format. -/
theorem toBinary_word {mb eb f : Nat} {a : W64} (hf : f + 1 ≤ 2 ^ (eb - 1) - 1) (he : 65 + (2 ^ (eb - 1) - 1) ≤ 2 ^ eb)
    (hw : mb + eb < 64) {t : Nat} (hlo : 2 ^ t ≤ a.toInt.natAbs) (hhi : a.toInt.natAbs < 2 ^ (t + 1)) :
    ∃ q : Nat,
      let off := (((q * 2 ^ t : Nat) : Int) - (a.toInt.natAbs * 2 ^ mb : Nat)).natAbs
      2 * off ≤ 2 ^ t ∧ (2 * off = 2 ^ t → q % 2 = 0) ∧
      (BitVec.ofNat 64 (toBinary mb eb a.toInt f)).toNat =
        (if a.toInt < 0 then 2 ^ (mb + eb) else 0) + (t + (2 ^ (eb - 1) - 1) - f - 1) * 2 ^ mb + q := by
  obtain ⟨hle, htie⟩ := significand_nearest mb a.toInt.natAbs t
  refine ⟨significand mb a.toInt.natAbs t, hle, htie, ?_⟩
  have hlt : toBinary mb eb a.toInt f < 2 ^ 64 :=
    Nat.lt_of_lt_of_le (toBinary_lt hf he) (Nat.pow_le_pow_right (by decide) (by omega))
  rw [BitVec.toNat_ofNat, Nat.mod_eq_of_lt hlt, toBinary_eq (top_bit_lt hlo) hlo hhi hf]

theorem ofBinary_zero {mb eb : Nat} (f : Nat) (h : 0 < 2 ^ eb - 1) : ofBinary mb eb 0 f = (0, false) := by
  obtain ⟨r, hle, -, hr⟩ := ofBinary_finite (mb := mb) (eb := eb) (v := 0) (f := f) (by simp; omega)
  have hzero : r = 0 := by
    simp only [Nat.zero_div, Nat.zero_mod, if_true, Int.natAbs_mul, Nat.cast_zero, neg_zero, ite_self, zero_mul, sub_zero] at hle
    set d : Int := 2 ^ (-(((max 0 1 + f : Nat) : Int) - ((2 ^ (eb - 1) - 1 + mb : Nat) : Int))).toNat with hd
    have hpos : 0 < d.natAbs := Int.natAbs_pos.mpr (by rw [hd]; positivity)
    by_contra hne
    have hone : 1 ≤ r.natAbs := Int.natAbs_pos.mpr hne
    nlinarith
  rw [hr, hzero]
  rfl

/-- What 04 R137 says of a binary value `x` that converts to `r`. -/
theorem ofBinary_cases {mb eb x f : Nat} {r : W64 × Bool} (hr : ofBinary mb eb x f = r) :
    let ex := x / 2 ^ mb % 2 ^ eb
    let fr := x % 2 ^ mb
    (ex = 2 ^ eb - 1 → fr ≠ 0 → r.1 = 0 ∧ r.2 = true) ∧
    (ex = 2 ^ eb - 1 → fr = 0 →
      r.1 = BitVec.ofInt 64 (if x / 2 ^ (mb + eb) % 2 = 1 then -2 ^ 63 else 2 ^ 63 - 1) ∧ r.2 = true) ∧
    (ex ≠ 2 ^ eb - 1 →
      let m : Nat := if ex = 0 then fr else fr + 2 ^ mb
      let num : Int := if x / 2 ^ (mb + eb) % 2 = 1 then -(m : Int) else m
      let sh : Int := (max ex 1 + f : Nat) - ((2 ^ (eb - 1) - 1 + mb : Nat) : Int)
      let d : Int := 2 ^ (-sh).toNat
      ∃ q : Int,
        2 * (q * d - num * 2 ^ sh.toNat).natAbs ≤ d.natAbs ∧
        (2 * (q * d - num * 2 ^ sh.toNat).natAbs = d.natAbs → num.natAbs ≤ (q * d).natAbs) ∧
        r.1 = BitVec.ofInt 64 (max (-2 ^ 63) (min q (2 ^ 63 - 1))) ∧
        r.2 = decide (max (-2 ^ 63) (min q (2 ^ 63 - 1)) ≠ q)) := by
  subst hr
  refine ⟨fun he hfr => ?_, fun he hfr => ?_, fun he => ?_⟩
  · rw [(ofBinary_special he).1 hfr]
    exact ⟨rfl, rfl⟩
  · rw [(ofBinary_special he).2 hfr]
    exact ⟨rfl, rfl⟩
  · obtain ⟨q, hle, htie, hq⟩ := ofBinary_finite he (f := f)
    refine ⟨q, hle, htie, ?_⟩
    rw [hq, satS64_eq]
    exact ⟨rfl, rfl⟩

theorem EngineDone.of_conv {s : State} {e : Nat} {i : KIns} (hf : s.node.fits) (hi : Issues s.node e i 3) (ht : i.tag = .conv)
    {v : W64} {sat : Bool} (hv : convOp i.fn i.rb ((s.node.eng e).act.rg i.ra) = (v, sat)) :
    EngineDone (.kConv e) s e ({ (s.node.eng e).act.wg i.rd v with sat := (s.node.eng e).act.sat || sat }.past i 3) := by
  refine .of_done hf ht hi rfl rfl ?_ (Act.wg_cyc _ _ _) (Act.wg_budget _ _ _)
  rw [effConv, hv]

/-- Settles O8: SAT, SCALE and RANGE by what their operations give; CONV by the two conversions, in each of the two formats. -/
theorem fixedPointResults : Obligations.FixedPointResults := by
  constructor
  · intro s e i hf act a lo hi v
    refine ⟨fun ht hi => ⟨_, pred_set _ _ _, ?_⟩, fun ht hi => ?_, fun ht hi => ?_⟩
    · refine .of_done hf ht hi rfl rfl ?_ (Act.wg_cyc _ _ _) (Act.wg_budget _ _ _)
      rw [effSat, satOp_eq]
    · intro x d
      obtain ⟨hle, htie⟩ := roundAway_spec x (2 ^ (i.fn / 2)) (Nat.two_pow_pos _)
      rw [Nat.cast_pow] at hle htie
      refine ⟨roundAway x (2 ^ (i.fn / 2)), hle, htie, ?_⟩
      refine .of_done hf ht hi rfl rfl ?_ (Act.wg_cyc _ _ _) (Act.wg_budget _ _ _)
      rw [effScale, scaleOp_eq, satS64_eq]
    · intro l h lt
      obtain ⟨hbelow, habove, hin⟩ := rangeOp_spec (bitOf i.fn 1) a l h
      exact ⟨_, rangeOp (bitOf i.fn 1) a l h, pred_dest _ _ _, hbelow, habove, hin, .of_done hf ht hi rfl rfl rfl rfl rfl⟩
  · intro s e i hf hi ht hrb act a x mb eb ex fr
    have done {v : W64} {sat : Bool} (hv : convOp i.fn i.rb a = (v, sat)) := EngineDone.of_conv hf hi ht hv
    by_cases hdir : i.fn = 0 ∨ i.fn = 2
    · have hv : convOp i.fn i.rb a = (BitVec.ofNat 64 (toBinary mb eb a.toInt i.rb), false) := by
        rcases hdir with h | h <;> simp [convOp, mb, eb, h]
      obtain ⟨hbias, hexp, hwidth⟩ : i.rb + 1 ≤ 2 ^ (eb - 1) - 1 ∧ 65 + (2 ^ (eb - 1) - 1) ≤ 2 ^ eb ∧ mb + eb < 64 := by
        rcases hdir with h | h <;> simp only [mb, eb, h] <;> norm_num <;> omega
      have hnot : ¬ (i.fn = 1 ∨ i.fn = 3) := by rcases hdir with h | h <;> rw [h] <;> decide
      refine ⟨_, false, done hv, fun h => ⟨by simp [h, toBinary_zero], rfl⟩, fun _ => rfl, fun h => ?_, fun h => absurd h hnot,
        fun h => absurd h hnot, fun t _ hlo hhi => toBinary_word hbias hexp hwidth hlo hhi, fun h => absurd h hnot⟩
      have hlt := toBinary_lt (mb := mb) (a := a) hbias hexp
      rw [show mb + eb + 1 = 32 by simp [mb, eb, h]] at hlt
      rw [BitVec.toNat_ofNat]
      exact Nat.lt_of_le_of_lt (Nat.mod_le _ _) hlt
    · have hv : convOp i.fn i.rb a = ofBinary mb eb x i.rb := by
        obtain ⟨h0, h2⟩ := not_or.mp hdir
        by_cases h1 : i.fn = 1
        · simp [convOp, mb, eb, x, h1]
        · simp [convOp, mb, eb, x, h0, h1, h2, show ¬ i.fn < 2 by omega]
      have hpos : 0 < 2 ^ eb - 1 := by simp only [eb]; split <;> decide
      obtain ⟨v, sat, hc⟩ : ∃ v sat, convOp i.fn i.rb a = (v, sat) := ⟨_, _, rfl⟩
      rw [hc] at hv
      obtain ⟨hnan, hinf, hfin⟩ := ofBinary_cases hv.symm
      refine ⟨v, sat, done hc, fun h => ?_, fun h => absurd h hdir, fun h => absurd (.inl h) hdir, fun _ => hnan, fun _ => hinf,
        fun t h => absurd h hdir, fun _ => hfin⟩
      have hx : x = 0 := by simp [x, h]
      rw [hx, ofBinary_zero _ hpos] at hv
      exact Prod.ext_iff.mp hv

end Sys2Proof.Machine
end

section
/-! PROOF. O9, O10: the signal slots and the control flow of the engines (03 R97, R103 to R106; 04 R138, R139, R150 to R154), and the cost of an instruction whose guard is false. -/

namespace Sys2Proof.Machine

open Sys2Proof

/-! ### Signal slots -/

/-- What one held output leaves of a slot's words. -/
def slotStep (a : Act) (slot : Nat) (r : Nat × Nat) (h : Held) : Nat × Nat :=
  match h with
  | .sts s val v rng sat => if s = slot then (val.toNat, heldStatus a v rng sat) else r
  | _ => r

theorem slotWords_eq (n : Node) (e : Nat) (a : Act) (slot : Nat) :
    slotWords n e a slot = a.outs.foldl (slotStep a slot) (rd64 n.mem (sigBase e + 16 * slot), rd64 n.mem (sigBase e + 16 * slot + 8)) :=
  rfl

theorem slotStep_of_not_sts {h : Held} (a : Act) (slot : Nat) (r : Nat × Nat) (hh : isSts h = false) : slotStep a slot r h = r := by
  cases h <;> first | rfl | cases hh

theorem foldl_slotStep_of_no_sts {l : List Held} (a : Act) (slot : Nat) (r : Nat × Nat) (h : ∀ x ∈ l, isSts x = false) :
    l.foldl (slotStep a slot) r = r := by
  induction l with
  | nil => rfl
  | cons x l ih =>
    rw [List.foldl_cons, slotStep_of_not_sts a slot r (h x (by simp))]
    exact ih fun y hy => h y (by simp [hy])

theorem slotWords_of_no_sts {n : Node} {e : Nat} {a : Act} (slot : Nat) (h : ∀ x ∈ a.outs, isSts x = false) :
    slotWords n e a slot = (rd64 n.mem (sigBase e + 16 * slot), rd64 n.mem (sigBase e + 16 * slot + 8)) := by
  rw [slotWords_eq, foldl_slotStep_of_no_sts a slot _ h]

/-- The last held store of a slot is what the activation sees. -/
theorem slotWords_of_last_sts {n : Node} {e : Nat} {a : Act} {slot : Nat} {before after : List Held} {val : W64} {v sat : Bool}
    {rng : Nat} (ho : a.outs = before ++ .sts slot val v rng sat :: after) (h : ∀ x ∈ after, isSts x = false) :
    slotWords n e a slot = (val.toNat, heldStatus a v rng sat) := by
  rw [slotWords_eq, ho, List.foldl_append, List.foldl_cons, foldl_slotStep_of_no_sts a slot _ h]
  simp [slotStep]

theorem heldStatus_eq (a : Act) (v : Bool) (rng : Nat) (sat : Bool) :
    heldStatus a v rng sat = (if v then 2 ^ 63 else 0) + rng * 2 ^ 60 + (if sat then 2 ^ 59 else 0) + a.fresh % 2 ^ 48 := by
  unfold heldStatus
  cases v <;> cases sat <;> simp [b2n]

theorem effLds_eq {n : Node} {e : Nat} {a : Act} {i : KIns} {val st : Nat} (hslot : (a.rg i.ra).toNat < 16128)
    (h : slotWords n e a (a.rg i.ra).toNat = (val, st)) :
    effLds n e a i =
      let a1 := (a.wg i.rd (BitVec.ofNat 64 (if bitOf st 62 then 0 else val))).wg i.rb (BitVec.ofNat 64 st)
      let a2 := if bitOf i.fn 2 then a1.wg i.ra (BitVec.ofNat 64 ((a.rg i.ra).toNat + 1)) else a1
      .done n { a2 with preds := setPred a.preds (bitsOf i.fn 6 4) (isFresh a st i.imm) } i := by
  simp [effLds, Nat.not_le.mpr hslot, h]

/-- Settles O9: LDS reads the slot's words, or those of the last store held for it; STS holds its store. -/
theorem signalSlotResults : Obligations.SignalSlotResults := by
  intro s e i hf act slot next hslot
  have hcyc (a : Act) : (next a).cyc = a.cyc := by simp only [next]; split <;> simp
  have hbudget (a : Act) : (next a).budget = a.budget := by simp only [next]; split <;> simp
  refine ⟨fun ht hi hno => ?_, fun before after val v rng sat ht hi ho hno => ?_, fun ht hi hroom => ?_⟩
  · refine ⟨_, pred_set _ _ _, .of_done hf ht hi rfl rfl ((effLds_eq hslot (slotWords_of_no_sts slot hno)).trans rfl) ?_ ?_⟩
    · exact (hcyc _).trans (by simp [act])
    · exact (hbudget _).trans (by simp [act])
  · rw [← heldStatus_eq]
    intro st
    have hval : (if bitOf st 62 then (0 : W64) else val) = BitVec.ofNat 64 (if bitOf st 62 then 0 else val.toNat) := by split <;> simp
    rw [hval]
    refine ⟨_, .of_done hf ht hi rfl rfl ((effLds_eq hslot (slotWords_of_last_sts ho hno)).trans rfl) ?_ ?_⟩
    · exact (hcyc _).trans (by simp [act])
    · exact (hbudget _).trans (by simp [act])
  · refine .of_done hf ht hi rfl rfl ?_ (hcyc _) (hbudget _)
    simp only [effSts]
    rw [if_neg (Nat.not_le.mpr hslot), if_neg (Nat.not_le.mpr hroom)]
    rfl

/-! ### Control flow -/

/-- Writing a key twice leaves the second value. -/
theorem FMap.put_put {β : Type} [DecidableEq β] (d : β) (m : FMap β) (k : Nat) (v w : β) :
    FMap.put d (FMap.put d m k v) k w = FMap.put d m k w := by
  have hv (p : Nat × β → Bool) (hp : p (k, v) = false) : (if v = d then [] else [(k, v)]).filter p = [] := by
    split <;> simp [hp]
  have hlow : (m.filter fun e => decide (k < e.1)).filter (fun e => decide (e.1 < k)) = [] := by
    simp only [List.filter_filter, List.filter_eq_nil_iff]
    intro x _
    simp only [Bool.and_eq_true, decide_eq_true_eq, not_and]
    omega
  have hhigh : (m.filter fun e => decide (e.1 < k)).filter (fun e => decide (k < e.1)) = [] := by
    simp only [List.filter_filter, List.filter_eq_nil_iff]
    intro x _
    simp only [Bool.and_eq_true, decide_eq_true_eq, not_and]
    omega
  unfold FMap.put
  simp [List.filter_append, hv, hlow, hhigh]

theorem Node.setEng_setEng (n : Node) (e : Nat) (x y : Eng) : (n.setEng e x).setEng e y = n.setEng e y := by
  simp only [Node.setEng, FMap.put_put]

theorem leaveLoops_eq {target : Int} (h : 0 ≤ target) (loops : List Loop) :
    leaveLoops target.toNat loops =
      match loops with
      | [] => []
      | l :: r => if (l.last : Int) < target then (l :: r).filter (fun y => decide (target ≤ (y.last : Int))) else l :: r := by
  obtain ⟨t, rfl⟩ := Int.eq_ofNat_of_zero_le h
  cases loops with
  | nil => rfl
  | cons l r => simp [leaveLoops]

/-- A row whose operation leaves the node `m` and the activation `a'`, and transfers no control. -/
theorem Leaves.of_past {c : Instr} {s : State} {e : Nat} {t : KTag} {eff : Node → Act → KIns → KRes} {i : KIns} {cost : Nat}
    {a' : Act} {m : Node} (hx : exec c s = s.to (s.node.kStep e [t] eff)) (hf : s.node.fits) (hi : Issues s.node e i cost)
    (ht : i.tag = t) (he : eff s.node (s.node.eng e).act i = .ok { n := m, a := a', cost := cost })
    (hlevel : m.level = s.node.level) (hallowed : m.allowed = s.node.allowed)
    (hc : a'.cyc = (s.node.eng e).act.cyc) (hb : a'.budget = (s.node.eng e).act.budget) :
    Leaves c s (m.setEng e { m.eng e with act := a'.past i cost }) := by
  rw [Node.kStep_issued hi (List.mem_singleton.mpr ht) he, Node.retire_past rfl rfl hc (hb ▸ hi.budget)] at hx
  exact Leaves.of_to hx hlevel hallowed hf

/-- A WAIT that finds its flag in cycle `j` ends with the next one and clears the flag (03 R106). -/
theorem effWait_found {n : Node} {e j : Nat} {a : Act} {i : KIns} (hflag : bitOf (n.eng e).flags (i.imm / 2 ^ 16 % 2 ^ 4) = true)
    (h2 : 2 ≤ j) (hj : j ≤ i.imm % 2 ^ 16 + 1) :
    effWait e j n a i = .ok
      { n := n.setEng e { n.eng e with flags := setBit (n.eng e).flags (i.imm / 2 ^ 16 % 2 ^ 4) false }
        a := { a with preds := writePred a.preds i.rd true }
        cost := j + 1 } := by
  have hcost : max 2 (min j (i.imm % 2 ^ 16 + 1)) + 1 = j + 1 := by omega
  simp only [effWait, bitsOf, Nat.reduceSub, Nat.reduceAdd, Nat.pow_zero, Nat.div_one]
  rw [if_pos hflag, hcost]

/-- A WAIT whose flag stays clear ends with its timeout and 2 (03 R106). -/
theorem effWait_timeout {n : Node} {e : Nat} (j : Nat) {a : Act} {i : KIns} (hflag : bitOf (n.eng e).flags (i.imm / 2 ^ 16 % 2 ^ 4) = false) :
    effWait e j n a i = .ok { n := n, a := { a with preds := writePred a.preds i.rd false }, cost := i.imm % 2 ^ 16 + 2 } := by
  simp only [effWait, bitsOf, Nat.reduceSub, Nat.reduceAdd, Nat.pow_zero, Nat.div_one]
  rw [if_neg (by rw [hflag]; decide)]

theorem bitOf_setBit_false (v f q : Nat) : bitOf (setBit v f false) q = (bitOf v q && q != f) := by
  rw [bitOf_setBit]
  by_cases h : q = f
  · simp [h]
  · simp [h]

/-- A row runs one instruction of its engine whose operation is its own (log entry 10). -/
theorem KRow.exec_eq {e : Nat} {c : Instr} {t : KTag} (h : KRow e c t) (s : State) :
    ∃ eff, exec c s = s.to (s.node.kStep e [t] eff) := by
  unfold KRow at h
  casesm* _ ∨ _, _ ∧ _, ∃ _, _
  all_goals subst_vars; exact ⟨_, rfl⟩

/-- An instruction whose guard is false has its cycles and no other effect (03 R76; 04 R120). -/
theorem Node.kStep_unguarded {n : Node} {e : Nat} {eff : Node → Act → KIns → KRes} {i : KIns}
    (hp : (n.eng e).phase = .running) (hfetch : n.fetch e (n.eng e).act.pc = .inl i) (hcheck : n.kCheck (n.eng e).act i = none)
    (hguard : i.guard (n.eng e).act.preds = false) :
    n.kStep e [i.tag] eff =
      n.retire e (n.eng e).act i { n := n, a := (n.eng e).act, cost := falseCost i (n.kEntry i) } := by
  simp [Node.kStep, hp, hfetch, hcheck, hguard]

/-- Settles O10: each row's effect transfers control, holds or waits as stated; a false guard leaves the cycles alone. -/
theorem controlResults : Obligations.ControlResults := by
  constructor
  · intro s e i hf x act target f t
    have hf16 : i.imm / 2 ^ 16 % 2 ^ 4 = f := rfl
    refine ⟨fun ht hi hle => ?_, fun ht hi hroom => ?_, fun ht hi hroom => ?_, fun j ht hflag h2 hj hi => ?_, fun j ht hflag hi => ?_,
      fun ht hi hroom => ?_⟩
    · have done := EngineDone.of_jump (c := .kBr e) (eff := effBr) (a' := { act with loops := leaveLoops target.toNat act.loops })
        rfl hf hi ht (if_neg (Int.not_lt.mpr hle)) rfl
      rw [leaveLoops_eq (le_trans (Int.natCast_nonneg _) hle)] at done
      exact done
    · refine .of_jump (t := .call) (eff := effCall) (a' := { act with stack := (act.pc + 4) :: act.stack }) rfl hf hi ht ?_ rfl
      rw [effCall]
      exact if_neg (Nat.not_le.mpr hroom)
    · refine .of_done hf ht hi rfl rfl ?_ rfl rfl
      simp only [effLoop, bitsOf, Nat.reduceSub, Nat.reduceAdd, Nat.pow_zero, Nat.div_one]
      exact if_neg (Nat.not_le.mpr hroom)
    · refine ⟨_, _, pred_dest _ _ _, bitOf_setBit_false _ _, ?_⟩
      have done := Leaves.of_past (c := .kWait e j) rfl hf hi ht (effWait_found hflag h2 hj) rfl rfl rfl rfl
      rw [Node.setEng_setEng, Node.eng_setEng_same] at done
      exact done
    · exact ⟨_, pred_dest _ _ _, .of_past (c := .kWait e j) rfl hf hi ht (effWait_timeout j hflag) rfl rfl rfl rfl⟩
    · refine .of_done hf ht hi rfl rfl ?_ rfl rfl
      simp only [effSignal, bitsOf, Nat.reduceSub, Nat.reduceAdd, Nat.pow_zero, Nat.div_one]
      exact if_neg (Nat.not_le.mpr hroom)
  · intro s e i c hf hrow act cost hp hfetch hcheck hguard hb
    obtain ⟨eff, hx⟩ := hrow.exec_eq s
    rw [Node.kStep_unguarded hp hfetch hcheck hguard] at hx
    have hretire := Node.retire_past (n := s.node) (e := e) (a := act) (i := i)
      (o := { n := s.node, a := act, cost := falseCost i (s.node.kEntry i) }) rfl rfl rfl hb
    rw [hretire] at hx
    exact Leaves.of_to hx rfl rfl hf

end Sys2Proof.Machine
end

section
/-! PROOF. O12 to O15, O22, O25: frames, lookups, tables and the topology engine (03 R84, R98, R111; 04 R140 to R149; 05 R166), the front of the queue, and the machine before its first power-on. -/

namespace Sys2Proof.Machine

open Sys2Proof

/-- Settles O22: the front command is taken off the queue and run. -/
theorem stepRunsFrontCommand : Obligations.StepRunsFrontCommand := fun _ _ => rfl

/-- Settles O25: every part is a value of `State.reset`. -/
theorem resetState : Obligations.ResetState := by
  refine ⟨rfl, rfl, rfl, rfl, rfl, by decide, by decide, by decide, by decide, by decide, by decide, by decide, Nat.zero_le _, ?_,
    fun h => absurd rfl h⟩
  intro l hl
  interval_cases l <;> decide

/-! ### Frames (O12) -/

/-- The transmit area closed as one frame of `len` bytes, whose cells come first of `all`. -/
def closedTx (n : Node) (a : Act) (all : List Nat) (launch : Option Nat) : Act :=
  let len := leAt (txHeader a) 0 2
  { a.clearTx with
    outs := a.outs ++ [.frame
      { hdr := txHeader a, data := txData a len, cells := all.take (cellsFor len), launch := launch, bad := a.txBad,
        canEpoch := if byteAt (txHeader a) 2 = 1 then (n.chan (leAt (txHeader a) 4 2)).enGen else 0 }]
    backCells := a.backCells ++ all.drop (cellsFor len) }

/-- The cells LENGTH needs beside those the area holds. -/
def closeNeed (a : Act) : Nat := cellsFor (leAt (txHeader a) 0 2) - a.txCells.length

theorem Node.takeCells_chan (k : Nat) (n : Node) (c : Nat) : (Node.takeCells k n).2.chan c = n.chan c := by
  obtain ⟨b, f, h⟩ := Node.takeCells_keeps k n
  rw [h]
  rfl

section CloseTx

variable {n : Node} {a : Act} {launch : Option Nat}

theorem closeTx_of_short (hs : a.short = true) :
    closeTx n a launch = .inl (n, { a.resetTx with nobuf := a.nobuf + 1 }, false) := by
  simp [closeTx, hs]

theorem closeTx_of_invalid (hs : a.short = false)
    (hh : n.headerOk (txHeader a) = false ∨ launch.isSome = true ∧ byteAt (txHeader a) 2 ≠ 0) :
    closeTx n a launch = .inl (n, a.resetTx, false) := by
  have h : (!n.headerOk (txHeader a)) = true ∨ launch.isSome = true ∧ byteAt (txHeader a) 2 ≠ 0 := by simpa using hh
  simp only [closeTx, hs]
  rw [if_neg (by decide), if_pos h]

/-- A valid header closes what its cells allow. -/
theorem closeTx_of_valid (hs : a.short = false) (hh : n.headerOk (txHeader a) = true)
    (hl : launch.isSome = true → byteAt (txHeader a) 2 = 0) (hroom : a.count isFrame < 8) :
    let got := Node.takeCells (closeNeed a) n
    let all := a.txCells ++ got.1
    (all.length < cellsFor (leAt (txHeader a) 0 2) →
      closeTx n a launch = .inl (got.2, { a.clearTx with backCells := a.backCells ++ all, nobuf := a.nobuf + 1 }, false)) ∧
    (cellsFor (leAt (txHeader a) 0 2) ≤ all.length → closeTx n a launch = .inl (got.2, closedTx got.2 a all launch, true)) := by
  intro got all
  have hvalid : ¬ ((!n.headerOk (txHeader a)) = true ∨ launch.isSome = true ∧ byteAt (txHeader a) 2 ≠ 0) := by
    rintro (h | ⟨h, hne⟩)
    · simp [hh] at h
    · exact hne (hl h)
  simp only [closeTx, hs]
  rw [if_neg (by decide), if_neg hvalid, if_neg (Nat.not_le.mpr hroom)]
  constructor
  · intro h
    exact if_pos h
  · intro h
    exact if_neg (Nat.not_lt.mpr h)

end CloseTx

/-- What a closed area holds does not depend on the cells taken for it. -/
theorem closedTx_takeCells (k : Nat) (n : Node) (a : Act) (all : List Nat) (launch : Option Nat) :
    closedTx (Node.takeCells k n).2 a all launch = closedTx n a all launch := by
  simp only [closedTx, Node.takeCells_chan]

/-- EMIT with R = 0 closes the transmit area (04 R143). -/
theorem effEmit_closes {n m : Node} {a b : Act} {i : KIns} {c : Bool} (hf : i.fn % 2 = 0) (h : closeTx n a none = .inl (m, b, c)) :
    effEmit n a i = .done m { b with preds := writePred b.preds i.rd c } i := by
  simp only [effEmit, hf, h, if_true]

/-- EMIT with R = 1 and no Ethernet input, or no such context, forwards nothing (04 R143; log entry 125). -/
theorem effEmit_no_input {n : Node} {a : Act} {i : KIns} (hf : i.fn % 2 = 1)
    (h : (∀ y, a.input = some y → y.src ≠ 0 ∨ y.dropped = true) ∨ n.ctxExists ((a.rg i.ra).toNat % 4096) = false) :
    effEmit n a i = .done n { a with preds := writePred a.preds i.rd false } i := by
  simp only [effEmit, hf]
  rw [if_neg (by decide)]
  cases hin : a.input with
  | none => rfl
  | some y =>
    by_cases hy : y.src = 0 ∧ y.dropped = false
    · have hctx : n.ctxExists ((a.rg i.ra).toNat % 4096) = false := by
        rcases h with h | h
        · rcases h y hin with h | h
          · exact absurd hy.1 h
          · rw [hy.2] at h; cases h
        · exact h
      simp [hy, hctx]
    · have hy' : ¬ (y.src = 0 ∧ (!y.dropped) = true) := by simpa using hy
      simp only [if_neg hy']

theorem effEmit_forwards {n : Node} {a : Act} {i : KIns} {y : Input} (hf : i.fn % 2 = 1) (hin : a.input = some y) (hsrc : y.src = 0)
    (hd : y.dropped = false) (hctx : n.ctxExists ((a.rg i.ra).toNat % 4096) = true) (hroom : a.count isFrame < 8) :
    effEmit n a i =
      .done n { a.hold (.forward y.fid ((a.rg i.ra).toNat % 4096)) with preds := writePred a.preds i.rd true } i := by
  simp [effEmit, hf, hin, hsrc, hd, hctx, Nat.not_le.mpr hroom]

section Launch

variable {n m : Node} {a b : Act} {i : KIns} {c : Bool}

theorem effLaunch_of_time (hsec : (a.rg i.ra).toNat < 2 ^ 48) (hns : (a.rg i.rb).toNat < 10 ^ 9)
    (h : closeTx n a (some (timeOf (a.rg i.ra).toNat (a.rg i.rb).toNat)) = .inl (m, b, c)) :
    effLaunch n a i = .done m { b with preds := writePred b.preds i.rd c } i := by
  simp only [effLaunch, h]
  rw [if_neg (by omega)]

theorem effLaunch_of_no_time (h : 2 ^ 48 ≤ (a.rg i.ra).toNat ∨ 10 ^ 9 ≤ (a.rg i.rb).toNat) :
    effLaunch n a i =
      .done n { (if a.short then { a with nobuf := a.nobuf + 1 } else a).resetTx with preds := writePred a.preds i.rd false } i := by
  simp only [effLaunch, if_pos h]
  split <;> rfl

end Launch

/-- DROP with R = 1 and no input left to drop counts as an output and drops nothing (04 R145). -/
theorem effDrop_no_input {n : Node} {a : Act} {i : KIns} (hroom : ¬ 8 ≤ a.count isDrop) (hf : i.fn % 2 = 1)
    (hin : ∀ y, a.input = some y → y.dropped = true) : effDrop n a i = .done n (a.hold (.dropHeld 255 0)) i := by
  rw [effDrop, if_neg hroom, if_neg (by omega)]
  cases hinput : a.input with
  | none => rfl
  | some y => simp only [hin y hinput, if_true]

theorem effDrop_input {n : Node} {a : Act} {i : KIns} {y : Input} (hroom : ¬ 8 ≤ a.count isDrop) (hf : i.fn % 2 = 1)
    (hin : a.input = some y) (hd : y.dropped = false) :
    effDrop n a i = .done n { a.hold (.dropHeld y.src (leAt y.hdr 4 2)) with input := some { y with dropped := true } } i := by
  rw [effDrop, if_neg hroom, if_neg (by omega)]
  simp only [hin, hd]
  rfl

theorem timeOf_eq (sec ns : Nat) : timeOf sec ns = (sec * 10 ^ 9 + ns) * 2 ^ 16 := by
  unfold timeOf secU nsU
  ring

/-- A row that changes its activation's registers, predicates and outputs, and leaves another node otherwise. -/
theorem Leaves.of_done {c : Instr} {s : State} {e : Nat} {t : KTag} {eff : Node → Act → KIns → KRes} {i : KIns} {cost : Nat}
    {a' : Act} {m : Node} (hf : s.node.fits) (ht : i.tag = t) (hi : Issues s.node e i cost)
    (hx : exec c s = s.to (s.node.kStep e [t] eff)) (hcost : kCost t 0 = cost)
    (he : eff s.node (s.node.eng e).act i = .done m a' i) (heng : m.eng e = s.node.eng e)
    (hlevel : m.level = s.node.level) (hallowed : m.allowed = s.node.allowed)
    (hc : a'.cyc = (s.node.eng e).act.cyc) (hb : a'.budget = (s.node.eng e).act.budget) :
    Leaves c s (m.setEng e { s.node.eng e with act := a'.past i cost }) := by
  subst hcost
  rw [KRes.done_of_tag _ _ ht] at he
  rw [← heng]
  exact .of_past hx hf hi ht he hlevel hallowed hc hb

/-- Settles O12: EMIT and LAUNCH by what closing the area comes to, DROP by what it discards. -/
theorem emitLaunchDrop : Obligations.EmitLaunchDrop := by
  constructor
  · intro s e i hf hi ht x act h len cells got all empty stream
    refine ⟨fun hfn hs => ?_, fun hfn hs hh => ?_, fun hfn hs hh hroom hcells => ?_, fun hfn hs hh hroom hcells => ?_,
      fun y hfn hin hsrc hd hctx hroom => ?_, fun hfn hno => ?_⟩
    · exact ⟨_, pred_dest _ _ _, .of_done hf ht hi rfl rfl (effEmit_closes hfn (closeTx_of_short hs)) rfl rfl⟩
    · exact ⟨_, pred_dest _ _ _, .of_done hf ht hi rfl rfl (effEmit_closes hfn (closeTx_of_invalid hs (.inl hh))) rfl rfl⟩
    · have hclose := (closeTx_of_valid (launch := none) hs hh (by simp) hroom).2 hcells
      rw [closedTx_takeCells] at hclose
      exact ⟨_, pred_dest _ _ _, .of_done hf ht hi rfl rfl (effEmit_closes hfn hclose) (Node.takeCells_eng _ _ _)
        (Node.takeCells_level _ _) (Node.takeCells_allowed _ _) rfl rfl⟩
    · have hclose := (closeTx_of_valid (launch := none) hs hh (by simp) hroom).1 hcells
      exact ⟨_, pred_dest _ _ _, .of_done hf ht hi rfl rfl (effEmit_closes hfn hclose) (Node.takeCells_eng _ _ _)
        (Node.takeCells_level _ _) (Node.takeCells_allowed _ _) rfl rfl⟩
    · exact ⟨_, pred_dest _ _ _, .of_done hf ht hi rfl rfl (effEmit_forwards hfn hin hsrc hd hctx hroom) rfl rfl⟩
    · exact ⟨_, pred_dest _ _ _, .of_done hf ht hi rfl rfl (effEmit_no_input hfn hno) rfl rfl⟩
  · intro s e i hf x act h len cells got all empty sec ns
    refine ⟨fun ht hi hsec hns hs hh hdest hroom hcells => ?_, fun ht hi hsec hns hs hh hdest hroom hcells => ?_,
      fun ht hi hs hbad => ?_, fun ht hi hs => ?_, fun ht hi hroom => ?_⟩
    · have hclose := (closeTx_of_valid (launch := some (timeOf sec ns)) hs hh (fun _ => hdest) hroom).2 hcells
      have hcan : byteAt (txHeader act) 2 ≠ 1 := by rw [show byteAt (txHeader act) 2 = 0 from hdest]; decide
      have hleaves := Leaves.of_done (c := .kLaunch e) hf ht hi rfl rfl (effLaunch_of_time hsec hns hclose) (Node.takeCells_eng _ _ _)
        (Node.takeCells_level _ _) (Node.takeCells_allowed _ _) rfl rfl
      rw [closedTx, if_neg hcan, timeOf_eq] at hleaves
      exact ⟨_, pred_dest _ _ _, hleaves⟩
    · have hclose := (closeTx_of_valid (launch := some (timeOf sec ns)) hs hh (fun _ => hdest) hroom).1 hcells
      exact ⟨_, pred_dest _ _ _, .of_done hf ht hi rfl rfl (effLaunch_of_time hsec hns hclose) (Node.takeCells_eng _ _ _)
        (Node.takeCells_level _ _) (Node.takeCells_allowed _ _) rfl rfl⟩
    · refine ⟨_, pred_dest _ _ _, ?_⟩
      by_cases htime : 2 ^ 48 ≤ sec ∨ 10 ^ 9 ≤ ns
      · refine .of_done hf ht hi rfl rfl ((effLaunch_of_no_time htime).trans ?_) rfl rfl
        rw [if_neg (by rw [hs]; decide)]
        rfl
      · have hinvalid : s.node.headerOk (txHeader act) = false ∨ (some (timeOf sec ns)).isSome = true ∧ byteAt (txHeader act) 2 ≠ 0 := by
          rcases hbad with hb | hb | hb | hb
          · exact absurd (.inl hb) htime
          · exact absurd (.inr hb) htime
          · exact .inl hb
          · exact .inr ⟨rfl, hb⟩
        exact .of_done hf ht hi rfl rfl (effLaunch_of_time (by omega) (by omega) (closeTx_of_invalid hs hinvalid)) rfl rfl
    · refine ⟨_, pred_dest _ _ _, ?_⟩
      by_cases htime : 2 ^ 48 ≤ sec ∨ 10 ^ 9 ≤ ns
      · refine .of_done hf ht hi rfl rfl ((effLaunch_of_no_time htime).trans ?_) rfl rfl
        rw [if_pos hs]
        rfl
      · exact .of_done hf ht hi rfl rfl (effLaunch_of_time (by omega) (by omega) (closeTx_of_short hs)) rfl rfl
    · have hlimit : ¬ 8 ≤ act.count isDrop := Nat.not_le.mpr hroom
      refine ⟨fun hfn => .of_done hf ht hi rfl rfl ?_ rfl rfl,
        fun y hfn hin hd => .of_done hf ht hi rfl rfl (effDrop_input hlimit hfn hin hd) rfl rfl,
        fun hfn hin => ⟨.of_done hf ht hi rfl rfl (effDrop_no_input hlimit hfn hin) rfl rfl, rfl⟩⟩
      rw [effDrop, if_neg hlimit, if_pos hfn]
      rfl

/-! ### Lookups (O13) -/

/-- The entries of hash group `g`, lowest first. -/
def groupEntries (g : Nat) : List Nat := (List.range 8).map (fun j => 8 * g + j)

theorem find_groupEntries_eq_some {p : Nat → Bool} {g k : Nat} :
    (groupEntries g).find? p = some k ↔ k / 8 = g ∧ p k = true ∧ ∀ j, j / 8 = g → j < k → ¬ p j = true := by
  unfold groupEntries
  rw [List.find?_map]
  simp only [Option.map_eq_some_iff, List.find?_range_eq_some, Function.comp_apply]
  constructor
  · rintro ⟨r, ⟨hp, hr, hlow⟩, rfl⟩
    refine ⟨by rw [List.mem_range] at hr; omega, hp, fun j hj hlt => ?_⟩
    have := hlow (j - 8 * g) (by omega)
    rw [show 8 * g + (j - 8 * g) = j by omega] at this
    simpa using this
  · rintro ⟨rfl, hp, hlow⟩
    refine ⟨k % 8, ⟨?_, List.mem_range.mpr (by omega), fun j hj => ?_⟩, by omega⟩
    · rwa [show 8 * (k / 8) + k % 8 = k by omega]
    · simpa using hlow (8 * (k / 8) + j) (by omega) (by omega)

theorem find_groupEntries_eq_none {p : Nat → Bool} {g : Nat} :
    (groupEntries g).find? p = none ↔ ∀ j, j / 8 = g → ¬ p j = true := by
  rw [List.find?_eq_none]
  unfold groupEntries
  simp only [List.mem_map, List.mem_range]
  constructor
  · intro h j hj
    exact h j ⟨j % 8, by omega, by omega⟩
  · rintro h _ ⟨r, hr, rfl⟩
    exact h _ (by omega)

/-- Settles O13: both searches go through the key's hash group, lowest entry first. -/
theorem lookupFindsLowest : Obligations.LookupFindsLowest := by
  intro n d sh key k held he hit free
  have hentries : ¬ d.entries < 8 := Nat.not_lt.mpr he
  have hlookup : n.lookup d sh key =
      (groupEntries (d.group key)).find? (fun i => n.entryOk d sh i && n.word (d.dataW sh i - 1) == key % 2 ^ d.kw) := if_neg hentries
  have hfree : n.freeSlot d sh key held = (groupEntries (d.group key)).find? (fun i => !n.used d sh i && !decide (i ∈ held)) :=
    if_neg hentries
  rw [hlookup, hfree]
  simp only [find_groupEntries_eq_some, find_groupEntries_eq_none, hit, free, Bool.and_eq_true, beq_iff_eq, Bool.not_eq_true',
    decide_eq_false_iff_not, true_and]

/-! ### Tables (O14) -/

@[simp] theorem Act.wg_preds (a : Act) (i : Nat) (v : W64) : (a.wg i v).preds = a.preds := by
  unfold Act.wg
  split <;> rfl

theorem Act.wgs_keeps (l : List Nat) : ∀ (a : Act) (i : Nat),
    (a.wgs i l).cyc = a.cyc ∧ (a.wgs i l).budget = a.budget ∧ (a.wgs i l).preds = a.preds := by
  induction l with
  | nil => exact fun _ _ => ⟨rfl, rfl, rfl⟩
  | cons v l ih =>
    intro a i
    obtain ⟨hc, hb, hp⟩ := ih (a.wg i (BitVec.ofNat 64 v)) (i + 1)
    exact ⟨hc.trans (by simp), hb.trans (by simp), hp.trans (by simp)⟩

theorem Node.kTab_of_tab {n : Node} {i : KIns} {d : TabDef} (h : n.tab (i.imm % 256) = some d) : n.kTab i = d := by
  rw [Node.kTab, h]
  rfl

theorem stale_iff {n : Node} {a : Act} {d : TabDef} : stale n a d = true ↔ d.dbl = true ∧ a.ep ≠ n.epoch := by
  simp [stale]

section Tables

variable {s : State} {e : Nat} {i : KIns} {d : TabDef}

/-- A TBL row leaves what its effect gives, with `p` in its predicate. -/
theorem leaves_of_tblDone {c : Instr} {t : KTag} {eff : Node → Act → KIns → KRes} {m : Node} {a : Act} {p : Bool} {cost : Nat}
    (hf : s.node.fits) (ht : i.tag = t) (hx : exec c s = s.to (s.node.kStep e [t] eff))
    (he : eff s.node (s.node.eng e).act i = tblDone m (setC a i p) i d) (hcost : kCost t d.n = cost)
    (heng : m.eng e = s.node.eng e) (hlevel : m.level = s.node.level) (hallowed : m.allowed = s.node.allowed)
    (hc : a.cyc = (s.node.eng e).act.cyc ∧ a.budget = (s.node.eng e).act.budget ∧ a.preds = (s.node.eng e).act.preds)
    (hi : Issues s.node e i cost) :
    ∃ ps, PredSet (s.node.eng e).act.preds (i.fn / 16) p ps ∧
      Leaves c s (m.setEng e { s.node.eng e with act := { a with preds := ps }.past i cost }) := by
  subst hcost
  obtain ⟨hcyc, hbudget, hpreds⟩ := hc
  obtain ⟨hk, -⟩ := rxq_source_fields hi.fn_lt
  have hset := pred_set (s.node.eng e).act.preds (i.fn / 16) p
  rw [tblDone, setC, hk, hpreds, ht] at he
  have hleaves := Leaves.of_past hx hf hi ht he hlevel hallowed hcyc hbudget
  rw [heng] at hleaves
  exact ⟨_, hset, hleaves⟩

end Tables

section TableEffects

variable {n : Node} {a : Act} {i : KIns} {d : TabDef} (hd : n.kTab i = d)
include hd

theorem kLookup_of_miss (h : (d.dbl = true ∧ a.ep ≠ n.epoch) ∨ n.lookup d false (a.rg i.ra).toNat = none) :
    kLookup n a (n.kTab i) (a.rg i.ra).toNat = none := by
  rw [kLookup, hd]
  split
  · rfl
  · next hs => exact h.resolve_left (mt stale_iff.mpr hs)

theorem kLookup_of_hit {k : Nat} (hs : ¬ (d.dbl = true ∧ a.ep ≠ n.epoch)) (h : n.lookup d false (a.rg i.ra).toNat = some k) :
    kLookup n a (n.kTab i) (a.rg i.ra).toNat = some k := by
  rw [kLookup, hd, if_neg (mt stale_iff.mp hs), h]

omit hd in
/-- The search of TBL.INS and TBL.DEL misses for a stale activation (03 R111; log entry 13). -/
theorem writeSearch_of_miss (h : (d.dbl = true ∧ a.ep ≠ n.epoch) ∨ n.lookup d d.dbl (a.rg i.ra).toNat = none) :
    (if stale n a d then none else n.lookup d d.wview (a.rg i.ra).toNat) = none := by
  split
  · rfl
  · next hs => exact h.resolve_left (mt stale_iff.mpr hs)

theorem effTblLk_eq (hh : d.hashed = true) : effTblLk n a i =
    match kLookup n a (n.kTab i) (a.rg i.ra).toNat with
    | none => tblDone n (setC (a.wg i.rd 0) i false) i d
    | some k => tblDone n (setC (a.wg i.rd (BitVec.ofNat 64 k)) i true) i d := by
  subst hd
  simp only [effTblLk, hh]
  rfl

theorem effTblLkrd_eq (hh : d.hashed = true) : effTblLkrd n a i =
    match kLookup n a (n.kTab i) (a.rg i.ra).toNat with
    | none => tblDone n (setC (a.wgs i.rd (List.replicate d.n 0)) i false) i d
    | some k => tblDone n (setC (a.wgs i.rd (n.entryData d false k)) i true) i d := by
  subst hd
  simp only [effTblLkrd, hh]
  rfl

theorem effTblRd_of_miss (hk : (a.rg i.ra).toNat < d.entries)
    (h : (d.dbl = true ∧ a.ep ≠ n.epoch) ∨ n.entryOk d false (a.rg i.ra).toNat = false) :
    effTblRd n a i = tblDone n (setC (a.wgs i.rd (List.replicate d.n 0)) i false) i d := by
  have hmiss : stale n a d = true ∨ (!n.entryOk d false (a.rg i.ra).toNat) = true := by
    rw [stale_iff]
    simpa using h
  simp only [effTblRd, hd, if_neg (Nat.not_le.mpr hk), if_pos hmiss]

theorem effTblRd_of_hit (hk : (a.rg i.ra).toNat < d.entries) (hs : ¬ (d.dbl = true ∧ a.ep ≠ n.epoch))
    (h : n.entryOk d false (a.rg i.ra).toNat = true) :
    effTblRd n a i = tblDone { n with freeN := n.freeN + 1 } (setC (a.wgs i.rd (n.entryData d false (a.rg i.ra).toNat)) i true) i d := by
  have hhit : ¬ (stale n a d = true ∨ (!n.entryOk d false (a.rg i.ra).toNat) = true) := by
    rw [stale_iff, h]
    simpa using hs
  simp only [effTblRd, hd, if_neg (Nat.not_le.mpr hk), if_neg hhit]

theorem effTblWr_of_room (hk : (a.rg i.ra).toNat < d.entries) (hroom : a.count isTbl < 16) :
    effTblWr n a i = tblDone n (setC (a.hold (.tblWr d.num (a.rg i.ra).toNat (a.rgs i.rb d.n))) i true) i d := by
  simp only [effTblWr, hd, if_neg (Nat.not_le.mpr hk), if_neg (Nat.not_le.mpr hroom)]

theorem effTblIns_of_present (hh : d.hashed = true) (hs : ¬ (d.dbl = true ∧ a.ep ≠ n.epoch))
    (h : n.lookup d d.dbl (a.rg i.ra).toNat ≠ none) : effTblIns n a i = tblDone n (setC a i false) i d := by
  have hfound : (!stale n a d && (n.lookup d d.wview (a.rg i.ra).toNat).isSome) = true := by
    rw [Bool.and_eq_true, Option.isSome_iff_ne_none]
    exact ⟨by simpa using mt stale_iff.mp hs, h⟩
  simp only [effTblIns, hd, hh, hfound]
  rfl

/-- TBL.INS of a key absent takes the lowest free entry, if any. -/
theorem effTblIns_of_absent (hh : d.hashed = true)
    (h : (d.dbl = true ∧ a.ep ≠ n.epoch) ∨ n.lookup d d.dbl (a.rg i.ra).toNat = none) :
    effTblIns n a i =
      match n.freeSlot d d.dbl (a.rg i.ra).toNat (reserved a d.num) with
      | none => tblDone n (setC (a.wg i.rd 0) i false) i d
      | some k =>
        if 16 ≤ a.count isTbl then .exc 6
        else tblDone n (setC ((a.hold (.tblIns d.num k (a.rg i.ra).toNat (a.rgs i.rb d.n))).wg i.rd (BitVec.ofNat 64 k)) i true) i d := by
  have habsent : (!stale n a d && (n.lookup d d.wview (a.rg i.ra).toNat).isSome) = false := by
    rw [← stale_iff] at h
    rcases h with h | h
    · simp [h]
    · simp [TabDef.wview, h]
  simp only [effTblIns, hd, hh, habsent]
  rfl

theorem effTblDel_eq (hh : d.hashed = true) : effTblDel n a i =
    match (if stale n a d then none else n.lookup d d.wview (a.rg i.ra).toNat) with
    | none => tblDone n (setC (a.wg i.rd 0) i false) i d
    | some k =>
      if 16 ≤ a.count isTbl then .exc 6
      else tblDone n (setC ((a.hold (.tblDel d.num k)).wg i.rd (BitVec.ofNat 64 k)) i true) i d := by
  simp only [effTblDel, hd, hh]
  rfl

end TableEffects

/-- Settles O14: each row by the outcome of its search. -/
theorem tableResults : Obligations.TableResults := by
  intro s e i d hf htab act key stale' find write zeros ends
  have hd := Node.kTab_of_tab htab
  have hkeep (v : W64) : (act.wg i.rd v).cyc = act.cyc ∧ (act.wg i.rd v).budget = act.budget ∧ (act.wg i.rd v).preds = act.preds := by
    exact ⟨Act.wg_cyc _ _ _, Act.wg_budget _ _ _, Act.wg_preds _ _ _⟩
  have hkeeps (l : List Nat) := Act.wgs_keeps l act i.rd
  refine ⟨fun ht hh => ⟨fun h => ?_, fun k hs h => ?_⟩, fun ht hk => ⟨fun h => ?_, fun hs h => ?_⟩,
    fun ht hh => ⟨fun h => ?_, fun k hs h => ?_⟩, fun ht hk hroom => ?_,
    fun ht hh => ⟨fun hs h => ?_, fun h hfree => ?_, fun k h hfree hroom => ?_⟩, fun ht hh => ⟨fun h => ?_, fun k hs h hroom => ?_⟩⟩
  · exact leaves_of_tblDone hf ht rfl (by rw [effTblLk_eq hd hh, kLookup_of_miss hd h]) rfl rfl rfl rfl (hkeep _)
  · exact leaves_of_tblDone hf ht rfl (by rw [effTblLk_eq hd hh, kLookup_of_hit hd hs h]) rfl rfl rfl rfl (hkeep _)
  · exact leaves_of_tblDone hf ht rfl (effTblRd_of_miss hd hk h) rfl rfl rfl rfl (hkeeps _)
  · exact leaves_of_tblDone hf ht rfl (effTblRd_of_hit hd hk hs h) rfl rfl rfl rfl (hkeeps _)
  · exact leaves_of_tblDone hf ht rfl (by rw [effTblLkrd_eq hd hh, kLookup_of_miss hd h]) rfl rfl rfl rfl (hkeeps _)
  · exact leaves_of_tblDone hf ht rfl (by rw [effTblLkrd_eq hd hh, kLookup_of_hit hd hs h]) rfl rfl rfl rfl (hkeeps _)
  · exact leaves_of_tblDone hf ht rfl (effTblWr_of_room hd hk hroom) rfl rfl rfl rfl ⟨rfl, rfl, rfl⟩
  · exact leaves_of_tblDone hf ht rfl (effTblIns_of_present hd hh hs h) rfl rfl rfl rfl ⟨rfl, rfl, rfl⟩
  · exact leaves_of_tblDone hf ht rfl (by rw [effTblIns_of_absent hd hh h, hfree]) rfl rfl rfl rfl (hkeep _)
  · refine leaves_of_tblDone hf ht rfl (by rw [effTblIns_of_absent hd hh h, hfree]; exact if_neg (Nat.not_le.mpr hroom)) rfl rfl rfl rfl ?_
    exact ⟨Act.wg_cyc _ _ _, Act.wg_budget _ _ _, Act.wg_preds _ _ _⟩
  · exact leaves_of_tblDone hf ht rfl (by rw [effTblDel_eq hd hh, writeSearch_of_miss h]) rfl rfl rfl rfl (hkeep _)
  · refine leaves_of_tblDone (d := d) hf ht rfl ?_ rfl rfl rfl rfl ?_
    · have hfound : s.node.lookup d d.dbl ((s.node.eng e).act.rg i.ra).toNat = some k := h
      rw [effTblDel_eq hd hh, if_neg (mt stale_iff.mp hs), TabDef.wview, hfound]
      exact if_neg (Nat.not_le.mpr hroom)
    · exact ⟨Act.wg_cyc _ _ _, Act.wg_budget _ _ _, Act.wg_preds _ _ _⟩

/-! ### The topology engine (O15) -/

theorem effTopoNbr_of_seen {n : Node} {a : Act} {i : KIns} (hp : (a.rg i.ra).toNat < 4) (hv : (n.topPort (a.rg i.ra).toNat).valid = true) :
    effTopoNbr n a i = .done n { a.wg i.rd (BitVec.ofNat 64 (leAt (n.topPort (a.rg i.ra).toNat).hello 4 6)) with
      preds := setPred a.preds (bitsOf i.fn 6 4) true } i := by
  simp only [effTopoNbr, if_neg (Nat.not_le.mpr hp), hv, if_true]

theorem effTopoNbr_of_unseen {n : Node} {a : Act} {i : KIns} (hp : (a.rg i.ra).toNat < 4) (hv : (n.topPort (a.rg i.ra).toNat).valid = false) :
    effTopoNbr n a i = .done { n with freeN := n.freeN + 1 } { a.wg i.rd (BitVec.ofNat 64 (Config.freeNat n.freeN)) with
      preds := setPred a.preds (bitsOf i.fn 6 4) false } i := by
  simp only [effTopoNbr, if_neg (Nat.not_le.mpr hp), hv]
  rfl

theorem holdTopo_of_room {n : Node} {a : Act} {i : KIns} (h : Held) (hroom : a.count isTopo < 8) :
    holdTopo n a i h = .done n (a.hold h) i := if_neg (Nat.not_le.mpr hroom)

/-- Settles O15: status words at once, outputs held. -/
theorem topoResults : Obligations.TopoResults := by
  intro s e i hf act p t room held
  have holds {c : Instr} {tag : KTag} {eff : Node → Act → KIns → KRes} {h : Held} {cost : Nat} (ht : i.tag = tag)
      (hx : exec c s = s.to (s.node.kStep e [tag] eff)) (hcost : kCost tag 0 = cost)
      (he : eff s.node act i = holdTopo s.node act i h) : held c cost h :=
    fun hi hroom => .of_done hf ht hi hx hcost (he.trans (holdTopo_of_room h hroom)) rfl rfl
  refine ⟨fun ht hi hp => ?_, fun ht hi hp => ?_, fun ht hi => ?_, fun ht hi => ?_, fun ht hp => ?_, fun ht => ?_, fun ht => ?_,
    fun ht => holds ht rfl rfl rfl, fun ht => holds ht rfl rfl rfl, fun ht => holds ht rfl rfl rfl⟩
  · refine .of_done hf ht hi rfl rfl ?_ (Act.wg_cyc _ _ _) (Act.wg_budget _ _ _)
    rw [effTopoPstat]
    exact if_neg (Nat.not_le.mpr hp)
  · obtain ⟨hk, -⟩ := rxq_source_fields hi.fn_lt
    rw [← hk]
    refine ⟨_, pred_set _ _ _, fun hv => ?_, fun hv => ⟨BitVec.ofNat 64 (Config.freeNat s.node.freeN), ?_⟩⟩
    · rw [hv]
      exact .of_done hf ht hi rfl rfl (effTopoNbr_of_seen hp hv) (Act.wg_cyc _ _ _) (Act.wg_budget _ _ _)
    · rw [hv]
      exact .of_done hf ht hi rfl rfl (effTopoNbr_of_unseen hp hv) rfl rfl rfl (Act.wg_cyc _ _ _) (Act.wg_budget _ _ _)
  · exact .of_done hf ht hi rfl rfl rfl (Act.wg_cyc _ _ _) (Act.wg_budget _ _ _)
  · exact .of_done hf ht hi rfl rfl rfl (Act.wg_cyc _ _ _) (Act.wg_budget _ _ _)
  · exact holds ht rfl rfl (if_neg (Nat.not_le.mpr hp))
  · exact holds ht rfl rfl rfl
  · exact holds ht rfl rfl rfl

end Sys2Proof.Machine
end

section
/-! PROOF. What consuming inputs and giving back cells changes (03 R94, R95; 06 R221; 10 R352): the laws that aborts, releases and discards share. -/

namespace Sys2Proof.Machine

open Sys2Proof

/-! ### Units -/

@[simp] theorem Node.frame_setFrame_same (n : Node) (fid : Nat) (f : Frame) : (n.setFrame fid f).frame fid = f := by
  simp [Node.frame, Node.setFrame]

theorem Node.frame_setFrame_ne (n : Node) {fid k : Nat} (f : Frame) (h : k ≠ fid) : (n.setFrame fid f).frame k = n.frame k := by
  simp [Node.frame, Node.setFrame, FMap.get_put_ne, h]

@[simp] theorem Node.bank_setBank_same (n : Node) (b : Nat) (x : Bank) : (n.setBank b x).bank b = x := by
  simp [Node.bank, Node.setBank]

theorem Node.bank_setBank_ne (n : Node) {b k : Nat} (x : Bank) (h : k ≠ b) : (n.setBank b x).bank k = n.bank k := by
  simp [Node.bank, Node.setBank, FMap.get_put_ne, h]

@[simp] theorem Node.chan_setChan_same (n : Node) (c : Nat) (x : Chan) : (n.setChan c x).chan c = x := by
  simp [Node.chan, Node.setChan]

theorem Node.chan_setChan_ne (n : Node) {c k : Nat} (x : Chan) (h : k ≠ c) : (n.setChan c x).chan k = n.chan k := by
  simp [Node.chan, Node.setChan, FMap.get_put_ne, h]

/-! ### What the ports tell -/

/-- The keys of whole-word port registers. -/
def PortKey (k : Nat) : Prop := 32 * 0x10300000 ≤ k ∧ k < 32 * 0x10400000 ∧ k % 32 = 0

/-- `n` is `m` but for what a port sends and counts, and for descriptors written back. -/
structure Tells (m n : Node) : Prop where
  eq : ∃ r o p c d l, n = { m with regs := r, out := o, ports := p, cnt := c, delta := d, fab := { m.fab with descs := l } }
  rd : ∀ f : Fld, ¬ PortKey f.key → n.rd f = m.rd f

namespace Tells

variable {a b c : Node}

theorem refl (n : Node) : Tells n n := ⟨⟨_, _, _, _, _, _, rfl⟩, fun _ _ => rfl⟩

theorem trans (h : Tells a b) (g : Tells b c) : Tells a c := by
  refine ⟨?_, fun f hf => (g.rd f hf).trans (h.rd f hf)⟩
  obtain ⟨_, _, _, _, _, _, hb⟩ := h.eq
  obtain ⟨_, _, _, _, _, _, hc⟩ := g.eq
  rw [hb] at hc
  exact ⟨_, _, _, _, _, _, hc⟩

theorem emit (n : Node) (o : Output) : Tells n (n.emit o) := ⟨⟨_, _, _, _, _, _, rfl⟩, fun _ _ => rfl⟩

theorem msi (n : Node) (v : Nat) : Tells n (n.msi v) := by
  unfold Node.msi
  split
  · exact emit n _
  · exact refl n

theorem setPort (n : Node) (p : Nat) (x : Port) : Tells n (n.setPort p x) := ⟨⟨_, _, _, _, _, _, rfl⟩, fun _ _ => rfl⟩

theorem wr (n : Node) {f : Fld} (v : Nat) (h : PortKey f.key) : Tells n (n.wr f v) :=
  ⟨⟨_, _, _, _, _, _, rfl⟩, fun _ hg => Node.rd_wr_ne n v fun e => hg (e ▸ h)⟩

theorem ite {p : Prop} [Decidable p] (hb : Tells a b) (hc : Tells a c) : Tells a (if p then b else c) := by
  split
  · exact hb
  · exact hc

theorem foldl {α : Type} {g : Node → α → Node} (h : ∀ n x, Tells n (g n x)) (l : List α) (n : Node) : Tells n (l.foldl g n) := by
  induction l generalizing n with
  | nil => exact refl n
  | cons x l ih => exact (h n x).trans (ih _)

theorem counters (n : Node) (c d : FMap Nat) : Tells n { n with cnt := c, delta := d } := ⟨⟨_, _, _, _, _, _, rfl⟩, fun _ _ => rfl⟩

theorem cntAdd (n : Node) {p : Nat} (hp : p < 20) (i k : Nat) : Tells n (n.cntAdd p i k) := by
  unfold Node.cntAdd
  refine ite (refl n) ?_
  refine ite (counters n _ _) (ite ?_ ?_)
  · exact (counters n _ _).trans (wr _ _ (by simp only [F.PRT_HALF_LO_HALF, PortKey]; omega))
  · exact (counters n _ _).trans (wr _ _ (by simp only [F.PRT_HALF_HI_HALF, PortKey]; omega))

theorem txCount (n : Node) {p : Nat} (hp : p < 20) (b : List Byte) : Tells n (n.txCount p b) :=
  (((((cntAdd n hp _ _).trans (cntAdd _ hp _ _)).trans (cntAdd _ hp _ _)).trans (cntAdd _ hp _ _)).trans (cntAdd _ hp _ _)).trans
    (cntAdd _ hp _ _)

theorem sendPfc (n : Node) {p : Nat} (hp : p < 20) (c t : Nat) : Tells n (n.sendPfc p c t) :=
  ite (((emit n _).trans (txCount _ hp _)).trans (cntAdd _ hp _ _)) (refl n)

theorem pfcClass (n : Node) {p : Nat} (hp : p < 20) (c : Nat) : Tells n (n.pfcClass p c) := by
  unfold Node.pfcClass
  refine ite (refl n) ?_
  split
  · exact refl n
  · exact (sendPfc n hp _ _).trans (setPort _ _ _)

theorem pfcUpd (n : Node) (p : Nat) : Tells n (n.pfcUpd p) := by
  unfold Node.pfcUpd
  split
  · next hp => exact foldl (fun n c => pfcClass n hp c) _ n
  · exact refl n

theorem descDone (n : Node) (d : Desc) : Tells n (n.descDone d) := by
  unfold Node.descDone
  refine ite ?_ ?_
  · exact (((emit n _).trans (emit _ _)).trans (ite (setPort _ _ _) (refl _))).trans (msi _ _)
  · exact ((emit n _).trans (emit _ _)).trans (ite (setPort _ _ _) (refl _))

theorem descs (n : Node) (l : List Desc) : Tells n { n with fab := { n.fab with descs := l } } :=
  ⟨⟨_, _, _, _, _, _, rfl⟩, fun _ _ => rfl⟩

theorem frameDone (n : Node) (fid : Nat) : Tells n (n.frameDone fid) := by
  unfold Node.frameDone
  split
  · exact refl n
  · exact (descs n _).trans (descDone _ _)

theorem frame (h : Tells a b) (k : Nat) : b.frame k = a.frame k := by
  obtain ⟨_, _, _, _, _, _, hb⟩ := h.eq
  rw [hb]
  rfl

theorem bank (h : Tells a b) (k : Nat) : b.bank k = a.bank k := by
  obtain ⟨_, _, _, _, _, _, hb⟩ := h.eq
  rw [hb]
  rfl

theorem chans (h : Tells a b) : b.chans = a.chans := by
  obtain ⟨_, _, _, _, _, _, hb⟩ := h.eq
  rw [hb]

end Tells

/-! ### What inputs and cells come to -/

/-- `n` is `m` but for stored frames, waiting entries and cells, what the ports tell of them, and the registers `ks`. -/
structure Hands (ks : Nat → Prop) (m n : Node) : Prop where
  eq : ∃ r o p c d ch fr b dr ds, n = { m with
    regs := r, out := o, ports := p, cnt := c, delta := d, chans := ch,
    fab := { m.fab with frames := fr, banks := b, drainCells := dr, descs := ds } }
  rd : ∀ f : Fld, ¬ ks f.key → n.rd f = m.rd f

namespace Hands

variable {ks : Nat → Prop} {a b c : Node}

theorem refl (ks : Nat → Prop) (n : Node) : Hands ks n n := ⟨⟨_, _, _, _, _, _, _, _, _, _, rfl⟩, fun _ _ => rfl⟩

theorem trans (h : Hands ks a b) (g : Hands ks b c) : Hands ks a c := by
  refine ⟨?_, fun f hf => (g.rd f hf).trans (h.rd f hf)⟩
  obtain ⟨_, _, _, _, _, _, _, _, _, _, hb⟩ := h.eq
  obtain ⟨_, _, _, _, _, _, _, _, _, _, hc⟩ := g.eq
  rw [hb] at hc
  exact ⟨_, _, _, _, _, _, _, _, _, _, hc⟩

theorem mono {ks' : Nat → Prop} (h : Hands ks a b) (hk : ∀ k, ks k → ks' k) : Hands ks' a b :=
  ⟨h.eq, fun f hf => h.rd f fun hm => hf (hk _ hm)⟩

theorem of_tells (h : Tells a b) : Hands PortKey a b := by
  obtain ⟨_, _, _, _, _, _, hb⟩ := h.eq
  exact ⟨⟨_, _, _, _, _, _, _, _, _, _, hb⟩, h.rd⟩

theorem setFrame (ks : Nat → Prop) (n : Node) (fid : Nat) (f : Frame) : Hands ks n (n.setFrame fid f) :=
  ⟨⟨_, _, _, _, _, _, _, _, _, _, rfl⟩, fun _ _ => rfl⟩

theorem setChan (ks : Nat → Prop) (n : Node) (k : Nat) (x : Chan) : Hands ks n (n.setChan k x) :=
  ⟨⟨_, _, _, _, _, _, _, _, _, _, rfl⟩, fun _ _ => rfl⟩

theorem wr (n : Node) {f : Fld} (v : Nat) (h : ks f.key) : Hands ks n (n.wr f v) :=
  ⟨⟨_, _, _, _, _, _, _, _, _, _, rfl⟩, fun _ hg => Node.rd_wr_ne n v fun e => hg (e ▸ h)⟩

theorem foldl {α : Type} {g : Node → α → Node} (h : ∀ n x, Hands ks n (g n x)) (l : List α) (n : Node) : Hands ks n (l.foldl g n) := by
  induction l generalizing n with
  | nil => exact refl ks n
  | cons x l ih => exact (h n x).trans (ih _)

theorem returnCell (ks : Nat → Prop) (n : Node) (k : Nat) : Hands ks n (n.returnCell k) := by
  unfold Node.returnCell
  split
  · exact ⟨⟨_, _, _, _, _, _, _, _, _, _, rfl⟩, fun _ _ => rfl⟩
  · split
    · exact ⟨⟨_, _, _, _, _, _, _, _, _, _, rfl⟩, fun _ _ => rfl⟩
    · exact refl ks n

theorem returnCells (ks : Nat → Prop) (n : Node) (l : List Nat) : Hands ks n (n.returnCells l) := foldl (returnCell ks) l n

theorem dropRef (n : Node) (fid : Nat) : Hands PortKey n (n.dropRef fid) := by
  unfold Node.dropRef
  dsimp only
  split
  · exact ((setFrame _ n _ _).trans (returnCells _ _ _)).trans (of_tells ((Tells.pfcUpd _ _).trans (Tells.frameDone _ _)))
  · exact setFrame _ n _ _

theorem delivered (n : Node) (fid k : Nat) : Hands PortKey n (n.delivered fid k) := by
  unfold Node.delivered
  split
  · exact refl _ n
  · exact setFrame _ n _ _

theorem ackEntry (n : Node) (k id : Nat) : Hands PortKey n (n.ackEntry k id) := by
  unfold Node.ackEntry
  dsimp only
  split
  · exact refl _ n
  · exact (setChan _ n _ _).trans (returnCells _ _ _)

theorem consume (n : Node) (i : Input) : Hands PortKey n (n.consume i) := by
  unfold Node.consume
  split
  · exact (delivered n _ _).trans (dropRef _ _)
  · exact ackEntry n _ _

/-- Inputs and cells bear on no service level. -/
theorem sameLevelInputs (h : Hands ks a b) (hk : ∀ k ∈ levelKeys, ¬ ks k) : SameLevelInputs b a := by
  obtain ⟨_, _, _, _, _, _, _, _, _, _, hb⟩ := h.eq
  exact ⟨by rw [hb], by rw [hb], by rw [hb], by rw [hb], by rw [hb], fun f hf => h.rd f (hk _ hf)⟩

theorem level (h : Hands ks a b) : b.level = a.level := by
  obtain ⟨_, _, _, _, _, _, _, _, _, _, hb⟩ := h.eq
  rw [hb]

theorem engs (h : Hands ks a b) : b.engs = a.engs := by
  obtain ⟨_, _, _, _, _, _, _, _, _, _, hb⟩ := h.eq
  rw [hb]

theorem eng (h : Hands ks a b) (e : Nat) : b.eng e = a.eng e := by
  rw [Node.eng, h.engs, Node.eng]

theorem mem (h : Hands ks a b) : b.mem = a.mem := by
  obtain ⟨_, _, _, _, _, _, _, _, _, _, hb⟩ := h.eq
  rw [hb]

theorem poison (h : Hands ks a b) : b.poison = a.poison := by
  obtain ⟨_, _, _, _, _, _, _, _, _, _, hb⟩ := h.eq
  rw [hb]

theorem log (h : Hands ks a b) : b.log = a.log := by
  obtain ⟨_, _, _, _, _, _, _, _, _, _, hb⟩ := h.eq
  rw [hb]

/-- No queue is touched. -/
theorem queues (h : Hands ks a b) : b.fab.egress = a.fab.egress ∧ b.fab.launches = a.fab.launches ∧ b.fab.engq = a.fab.engq ∧
    b.fab.hostq = a.fab.hostq := by
  obtain ⟨_, _, _, _, _, _, _, _, _, _, hb⟩ := h.eq
  rw [hb]
  exact ⟨rfl, rfl, rfl, rfl⟩

end Hands

theorem not_levelKey_of_portKey : ∀ k ∈ levelKeys, ¬ PortKey k := fun k hk hp => by
  have := levelKeys_lt k hk
  unfold PortKey at hp
  omega

theorem not_portKey_of_engine {e k : Nat} (h : 32 * engBase e ≤ k) : ¬ PortKey k := by
  have := engBase_ge e
  unfold PortKey
  omega

theorem not_portKey_of_bankState (b : Nat) : ¬ PortKey (F.FAB_BANK_STATE b).key := by
  simp only [F.FAB_BANK_STATE, PortKey]
  omega

theorem bankState_levelKey {b : Nat} (hb : b < 26) : (F.FAB_BANK_STATE b).key ∈ levelKeys := by
  simp only [levelKeys, List.mem_append, List.mem_map, List.mem_range]
  exact .inr ⟨b, hb, rfl⟩

/-! ### Cells that go back (06 R221) -/

/-- The bank states read the same. -/
def SameBanks (m n : Node) : Prop := ∀ b, n.rd (F.FAB_BANK_STATE b) = m.rd (F.FAB_BANK_STATE b)

theorem CellsBack.nil {m n : Node} (h : ∀ b, n.bank b = m.bank b) : CellsBack m n [] := fun b _ => by simp [h]

theorem CellsBack.trans {m n k : Node} {l l' : List Nat} (h : CellsBack m n l) (g : CellsBack n k l') (hs : SameBanks m n) :
    CellsBack m k (l ++ l') := by
  intro b hb
  obtain ⟨h1, h2⟩ := h b hb
  obtain ⟨g1, g2⟩ := g b ((hs b).trans hb)
  exact ⟨by rw [g1, h1, List.count_append]; omega, g2.trans h2⟩

/-- The banks matter alone. -/
theorem CellsBack.congr {m n m' n' : Node} {l : List Nat} (h : CellsBack m n l) (hs : SameBanks m' m) (hm : ∀ b, m.bank b = m'.bank b)
    (hn : ∀ b, n'.bank b = n.bank b) : CellsBack m' n' l := by
  intro b hb
  rw [hn, ← hm]
  exact h b ((hs b).trans hb)

theorem Node.returnCell_bankState (n : Node) (k : Nat) : SameBanks n (n.returnCell k) :=
  fun _ => (Hands.returnCell (fun _ => False) n k).rd _ id

theorem Node.returnCells_bankState (n : Node) (l : List Nat) : SameBanks n (n.returnCells l) :=
  fun _ => (Hands.returnCells (fun _ => False) n l).rd _ id

theorem CellsBack.returnCell (n : Node) (k : Nat) : CellsBack n (n.returnCell k) [k] := by
  intro b hb
  unfold Node.returnCell
  by_cases h : b = k
  · subst h
    rw [if_pos hb]
    simp
  · have hcount : List.count b [k] = 0 := by simp [Ne.symm h]
    rw [hcount]
    split
    · rw [Node.bank_setBank_ne _ _ h]
      exact ⟨rfl, rfl⟩
    · split
      · exact ⟨rfl, rfl⟩
      · exact ⟨rfl, rfl⟩

theorem CellsBack.returnCells (n : Node) (l : List Nat) : CellsBack n (n.returnCells l) l := by
  induction l generalizing n with
  | nil => exact .nil fun _ => rfl
  | cons k l ih => exact (CellsBack.returnCell n k).trans (ih _) (n.returnCell_bankState k)

/-! ### Consuming an input (03 R94) -/

theorem Node.returnCells_frame (n : Node) (l : List Nat) (k : Nat) : (n.returnCells l).frame k = n.frame k := by
  induction l generalizing n with
  | nil => rfl
  | cons c l ih =>
    refine (ih (n.returnCell c)).trans ?_
    unfold Node.returnCell
    split
    · rfl
    · split <;> rfl

theorem Node.returnCells_chans (n : Node) (l : List Nat) : (n.returnCells l).chans = n.chans := by
  induction l generalizing n with
  | nil => rfl
  | cons c l ih =>
    refine (ih (n.returnCell c)).trans ?_
    unfold Node.returnCell
    split
    · rfl
    · split <;> rfl

theorem Node.returnCells_frames (n : Node) (l : List Nat) : (n.returnCells l).fab.frames = n.fab.frames := by
  induction l generalizing n with
  | nil => rfl
  | cons c l ih =>
    refine (ih (n.returnCell c)).trans ?_
    unfold Node.returnCell
    split
    · rfl
    · split <;> rfl

/-- The last hold on a frame ends: the frame is gone and its cells go back. -/
theorem Node.dropRef_last {n : Node} {fid : Nat} (h : (n.frame fid).refs ≤ 1) :
    (n.dropRef fid).frame fid = {} ∧ (n.dropRef fid).chans = n.chans ∧ CellsBack n (n.dropRef fid) (n.frame fid).cells := by
  have ht := (Tells.pfcUpd ((n.setFrame fid {}).returnCells (n.frame fid).cells) (n.frame fid).ingress).trans (Tells.frameDone _ fid)
  have hd : n.dropRef fid = (((n.setFrame fid {}).returnCells (n.frame fid).cells).pfcUpd (n.frame fid).ingress).frameDone fid := if_pos h
  rw [← hd] at ht
  refine ⟨?_, ?_, ?_⟩
  · rw [ht.frame, Node.returnCells_frame, Node.frame_setFrame_same]
  · rw [ht.chans, Node.returnCells_chans]
    rfl
  · exact (CellsBack.returnCells (n.setFrame fid {}) _).congr (fun _ => rfl) (fun _ => rfl) ht.bank

theorem Node.dropRef_more {n : Node} {fid : Nat} (h : 1 < (n.frame fid).refs) :
    n.dropRef fid = n.setFrame fid { n.frame fid with refs := (n.frame fid).refs - 1 } := if_neg (Nat.not_le.mpr h)

/-- That a copy has been delivered changes no hold, no data and no cells. -/
theorem Node.delivered_frame (n : Node) (fid k : Nat) :
    ((n.delivered fid k).frame fid).refs = (n.frame fid).refs ∧ ((n.delivered fid k).frame fid).cells = (n.frame fid).cells ∧
    ((n.delivered fid k).frame fid).data = (n.frame fid).data ∧ (n.delivered fid k).chans = n.chans ∧
    (∀ b, (n.delivered fid k).bank b = n.bank b) ∧ SameBanks n (n.delivered fid k) := by
  unfold Node.delivered
  split
  · exact ⟨rfl, rfl, rfl, rfl, fun _ => rfl, fun _ => rfl⟩
  · simp only [Node.frame_setFrame_same]
    exact ⟨trivial, trivial, trivial, rfl, fun _ => rfl, fun _ => rfl⟩

/-- What consuming an input comes to. -/
theorem InputBack.consume (m : Node) (y : Input) : InputBack m (m.consume y) y [] := by
  constructor
  · intro hsrc
    obtain ⟨hrefs, hcells, hdata, hchans, hbank, hstate⟩ := m.delivered_frame y.fid (leAt y.hdr 4 2)
    rw [Node.consume, if_pos hsrc]
    by_cases h1 : (m.frame y.fid).refs ≤ 1
    · obtain ⟨hframe, hchans', hback⟩ := Node.dropRef_last (hrefs.symm ▸ h1)
      rw [hcells] at hback
      exact ⟨hchans'.trans hchans, fun _ => ⟨hframe, by simpa using hback.congr hstate hbank fun _ => rfl⟩,
        fun h => absurd h1 (Nat.not_le.mpr h)⟩
    · have hmore := Nat.not_le.mp h1
      rw [Node.dropRef_more (hrefs.symm ▸ hmore), Node.frame_setFrame_same]
      exact ⟨hchans, fun h => absurd h h1, fun _ => ⟨by simp only [hrefs]; omega, hcells, hdata, .nil hbank⟩⟩
  · intro z hsrc hfind
    have hno : ¬ (y.src = 0 ∨ y.src = 3) := by omega
    obtain ⟨x, hrx, hret, hack⟩ : ∃ x : Chan, x.rx = (m.chan y.chan).rx.filter (fun x => x.id != y.eid) ∧
        x.returning = (m.chan y.chan).returning + 1 ∧ m.consume y = (m.setChan y.chan x).returnCells z.cells := by
      rw [Node.consume, if_neg hno, Node.ackEntry]
      simp only [hfind]
      exact ⟨_, rfl, rfl, rfl⟩
    have hch (c : Nat) : (m.consume y).chan c = (m.setChan y.chan x).chan c := by
      rw [hack, Node.chan, Node.returnCells_chans, Node.chan]
    refine ⟨by rw [hch, Node.chan_setChan_same, hrx], by rw [hch, Node.chan_setChan_same, hret],
      fun c hc => by rw [hch, Node.chan_setChan_ne _ _ hc], ?_⟩
    rw [hack, List.append_nil]
    exact (CellsBack.returnCells (m.setChan y.chan x) z.cells).congr (fun _ => rfl) (fun _ => rfl) fun _ => rfl

/-- Cells given back after an input. -/
theorem InputBack.append {m k n : Node} {y : Input} {l : List Nat} (h : InputBack m k y []) (hb : CellsBack k n l) (hs : SameBanks m k)
    (hch : n.chans = k.chans) (hf : ∀ j, n.frame j = k.frame j) : InputBack m n y l := by
  have hc (c : Nat) : n.chan c = k.chan c := by rw [Node.chan, hch, Node.chan]
  have happ {l' : List Nat} (h : CellsBack m k (l' ++ [])) : CellsBack m n (l' ++ l) := by
    rw [List.append_nil] at h
    exact h.trans hb hs
  obtain ⟨hframe, hentry⟩ := h
  constructor
  · intro hsrc
    obtain ⟨h1, h2, h3⟩ := hframe hsrc
    refine ⟨hch.trans h1, fun hr => ?_, fun hr => ?_⟩
    · obtain ⟨h4, h5⟩ := h2 hr
      exact ⟨(hf _).trans h4, happ h5⟩
    · obtain ⟨h4, h5, h6, h7⟩ := h3 hr
      rw [hf]
      exact ⟨h4, h5, h6, happ (l' := []) h7⟩
  · intro z hsrc hfind
    obtain ⟨h1, h2, h3, h4⟩ := hentry z hsrc hfind
    exact ⟨by rw [hc, h1], by rw [hc, h2], fun c hne => (hc c).trans (h3 c hne), happ h4⟩

theorem Node.consume_bankState (n : Node) (y : Input) : SameBanks n (n.consume y) :=
  fun b => (Hands.consume n y).rd _ (not_portKey_of_bankState b)

end Sys2Proof.Machine
end

section
/-! PROOF. O16: what an abort leaves (03 R94, R95, R99, R107, R109; 02 R68), and the exception code each condition raises. -/

namespace Sys2Proof.Machine

open Sys2Proof

/-! ### The abort record (03 R109) -/

/-- `n` is `m` but for registers, the log and what is sent. -/
def Logs (m n : Node) : Prop := ∃ r l o, n = { m with regs := r, log := l, out := o }

theorem Logs.trans {a b c : Node} (h : Logs a b) (g : Logs b c) : Logs a c := by
  obtain ⟨_, _, _, hb⟩ := h
  obtain ⟨_, _, _, hc⟩ := g
  rw [hb] at hc
  exact ⟨_, _, _, hc⟩

theorem Logs.wr (n : Node) (f : Fld) (v : Nat) : Logs n (n.wr f v) := ⟨_, _, _, rfl⟩

theorem Logs.msi (n : Node) (v : Nat) : Logs n (n.msi v) := by
  unfold Node.msi
  split <;> exact ⟨_, _, _, rfl⟩

theorem Logs.fault (n : Node) (a b c : Nat) : Logs n (n.fault a b c) := by
  unfold Node.fault
  dsimp only
  split
  · exact ⟨_, _, _, rfl⟩
  · split
    · exact ⟨_, _, _, rfl⟩
    · unfold Node.msi
      split <;> exact ⟨_, _, _, rfl⟩

/-- The keys an abort record may change. -/
def recordKeys (e : Nat) : List Nat :=
  [F.MGT_FAULT_SOURCE.key, (F.SC_ABORTS_COUNT e).key, (F.SC_EXC_VALID e).key, (F.SC_EXC_CODE e).key, (F.SC_EXC_TRIGGER e).key,
   (F.SC_EXC_PC e).key]

/-- What the record of an abort of a Scarab engine leaves. -/
structure Recorded (m : Node) (e code : Nat) (n : Node) : Prop where
  eq : Logs m n
  rd : ∀ f : Fld, f.key ∉ recordKeys e → n.rd f = m.rd f
  count : n.rd (F.SC_ABORTS_COUNT e) = min (m.rd (F.SC_ABORTS_COUNT e) + 1) (2 ^ 32 - 1)
  held : m.on (F.SC_EXC_VALID e) = true → n.rd (F.SC_EXC_CODE e) = m.rd (F.SC_EXC_CODE e) ∧
    n.rd (F.SC_EXC_TRIGGER e) = m.rd (F.SC_EXC_TRIGGER e) ∧ n.rd (F.SC_EXC_PC e) = m.rd (F.SC_EXC_PC e)
  taken : m.on (F.SC_EXC_VALID e) = false → n.on (F.SC_EXC_VALID e) = true ∧ n.rd (F.SC_EXC_CODE e) = code ∧
    n.rd (F.SC_EXC_TRIGGER e) = (m.eng e).act.trig % 64 ∧ n.rd (F.SC_EXC_PC e) = (m.eng e).act.pc % 2 ^ 16 ∧
    (m.log.staged.length < 64 → n.hasRecord 15 1 (e + code * 256))

section Record

variable {m : Node} {e : Nat}

/-- The record EXC takes. -/
def Node.excTaken (n : Node) (e code trig pc : Nat) : Node :=
  (((n.wr (F.SC_EXC_VALID e) 1).wr (F.SC_EXC_CODE e) code).wr (F.SC_EXC_TRIGGER e) trig).wr (F.SC_EXC_PC e) pc

theorem engine_key_ne_source {k : Nat} (h : 32 * engBase e ≤ k) : k ≠ F.MGT_FAULT_SOURCE.key := by
  have := engBase_ge e
  simp only [F.MGT_FAULT_SOURCE]
  omega

theorem Node.excTaken_logs (n : Node) (e code trig pc : Nat) : Logs n (n.excTaken e code trig pc) :=
  (((Logs.wr n _ _).trans (Logs.wr _ _ _)).trans (Logs.wr _ _ _)).trans (Logs.wr _ _ _)

theorem Node.excTaken_rd (n : Node) (code trig pc : Nat) {f : Fld} (h : f.key ∉ recordKeys e) :
    (n.excTaken e code trig pc).rd f = n.rd f := by
  simp only [recordKeys, List.mem_cons, List.not_mem_nil, or_false, not_or] at h
  obtain ⟨-, -, hv, hc, ht, hp⟩ := h
  unfold Node.excTaken
  rw [Node.rd_wr_ne _ _ hp, Node.rd_wr_ne _ _ ht, Node.rd_wr_ne _ _ hc, Node.rd_wr_ne _ _ hv]

theorem Node.excTaken_fields (n : Node) (code trig pc : Nat) :
    (n.excTaken e code trig pc).rd (F.SC_EXC_VALID e) = 1 ∧ (n.excTaken e code trig pc).rd (F.SC_EXC_CODE e) = code % 2 ^ 4 ∧
    (n.excTaken e code trig pc).rd (F.SC_EXC_TRIGGER e) = trig % 64 ∧ (n.excTaken e code trig pc).rd (F.SC_EXC_PC e) = pc % 2 ^ 16 ∧
    (n.excTaken e code trig pc).rd (F.SC_ABORTS_COUNT e) = n.rd (F.SC_ABORTS_COUNT e) := by
  unfold Node.excTaken
  refine ⟨?_, ?_, ?_, ?_, ?_⟩
  · rw [Node.rd_wr_ne, Node.rd_wr_ne, Node.rd_wr_ne, Node.rd_wr_same]
    · rfl
    all_goals simp only [F.SC_EXC_VALID, F.SC_EXC_CODE, F.SC_EXC_TRIGGER, F.SC_EXC_PC]; omega
  · rw [Node.rd_wr_ne, Node.rd_wr_ne, Node.rd_wr_same]
    · rfl
    all_goals simp only [F.SC_EXC_CODE, F.SC_EXC_TRIGGER, F.SC_EXC_PC]; omega
  · rw [Node.rd_wr_ne, Node.rd_wr_same]
    · rfl
    all_goals simp only [F.SC_EXC_TRIGGER, F.SC_EXC_PC]; omega
  · exact Node.rd_wr_same _ _ _
  · rw [Node.rd_wr_ne, Node.rd_wr_ne, Node.rd_wr_ne, Node.rd_wr_ne]
    all_goals simp only [F.SC_ABORTS_COUNT, F.SC_EXC_VALID, F.SC_EXC_CODE, F.SC_EXC_TRIGGER, F.SC_EXC_PC]; omega

theorem Node.rd_inc_same (n : Node) (f : Fld) : (n.inc f).rd f = min (n.rd f + 1) (2 ^ f.w - 1) := by
  rw [Node.inc, Node.rd_wr_same, satInc]
  exact Nat.mod_eq_of_lt (by have := Nat.two_pow_pos f.w; omega)

theorem Node.abortRecord_spec (m : Node) {e code : Nat} (he : e < 18) (hcode : code < 16) : Recorded m e code (m.abortRecord e code) := by
  have hvalid : (m.inc (F.SC_ABORTS_COUNT e)).on (F.SC_EXC_VALID e) = m.on (F.SC_EXC_VALID e) :=
    Node.on_inc_ne m (by simp only [F.SC_EXC_VALID, F.SC_ABORTS_COUNT]; omega)
  have hfields {f : Fld} (h : f.key ≠ (F.SC_ABORTS_COUNT e).key) : (m.inc (F.SC_ABORTS_COUNT e)).rd f = m.rd f := Node.rd_inc_ne m h
  have hkey {f : Fld} (h : 32 * engBase e ≤ f.key) (x y z : Nat) (n : Node) : (n.fault x y z).rd f = n.rd f :=
    Node.fault_rd _ _ _ _ _ (engine_key_ne_source h)
  by_cases hv : m.on (F.SC_EXC_VALID e) = true
  · have hr : m.abortRecord e code = m.inc (F.SC_ABORTS_COUNT e) := by
      unfold Node.abortRecord
      rw [if_pos (hvalid.trans hv)]
    rw [hr]
    refine ⟨Logs.wr _ _ _, fun f hf => hfields fun h => hf (by simp [recordKeys, h]), Node.rd_inc_same _ _, fun _ => ?_,
      fun h => by rw [hv] at h; cases h⟩
    refine ⟨hfields ?_, hfields ?_, hfields ?_⟩
    all_goals simp only [F.SC_ABORTS_COUNT, F.SC_EXC_CODE, F.SC_EXC_TRIGGER, F.SC_EXC_PC]; omega
  · have hr : m.abortRecord e code =
        ((m.inc (F.SC_ABORTS_COUNT e)).excTaken e code (m.eng e).act.trig (m.eng e).act.pc).fault 15 1 (e + code * 256) := by
      unfold Node.abortRecord
      rw [if_neg (by rw [hvalid]; exact hv), if_neg (by omega)]
      rfl
    obtain ⟨hV, hC, hT, hP, hA⟩ := (m.inc (F.SC_ABORTS_COUNT e)).excTaken_fields (e := e) code (m.eng e).act.trig (m.eng e).act.pc
    rw [hr]
    refine ⟨?_, fun f hf => ?_, ?_, fun h => absurd h hv, fun _ => ⟨?_, ?_, ?_, ?_, fun h => Node.hasRecord_self _ _ _ _ h⟩⟩
    · exact ((Logs.wr m _ _).trans (Node.excTaken_logs _ _ _ _ _)).trans (Logs.fault _ _ _ _)
    · rw [Node.fault_rd _ _ _ _ _ (fun h => hf (by simp [recordKeys, h])), Node.excTaken_rd _ _ _ _ hf]
      exact hfields fun h => hf (by simp [recordKeys, h])
    · rw [hkey (f := F.SC_ABORTS_COUNT e) (by simp only [F.SC_ABORTS_COUNT]; omega), hA]
      exact Node.rd_inc_same _ _
    · rw [Node.on, hkey (f := F.SC_EXC_VALID e) (by simp only [F.SC_EXC_VALID]; omega), hV]
      rfl
    · rw [hkey (f := F.SC_EXC_CODE e) (by simp only [F.SC_EXC_CODE]; omega), hC]
      exact Nat.mod_eq_of_lt hcode
    · rw [hkey (f := F.SC_EXC_TRIGGER e) (by simp only [F.SC_EXC_TRIGGER]; omega), hT]
    · rw [hkey (f := F.SC_EXC_PC e) (by simp only [F.SC_EXC_PC]; omega), hP]

end Record

/-! ### Inputs consumed and counted (03 R94) -/

/-- The inputs of an aborted activation are consumed, each counted in DROPS. -/
def Node.dropInputs (n : Node) (e : Nat) (l : List Input) : Node :=
  l.foldl (fun n i => (n.consume i).inc (F.SC_DROPS_ABORT_DROP e)) n

/-- The keys dropping inputs may change. -/
def DropKey (e k : Nat) : Prop := PortKey k ∨ k = (F.SC_DROPS_ABORT_DROP e).key

theorem Hands.dropInputs (n : Node) (e : Nat) (l : List Input) : Hands (DropKey e) n (n.dropInputs e l) :=
  Hands.foldl (fun n i => ((Hands.consume n i).mono fun _ => Or.inl).trans (Hands.wr (ks := DropKey e) (f := F.SC_DROPS_ABORT_DROP e) _ _ (.inr rfl))) l n

theorem Node.dropInputs_count (e : Nat) (l : List Input) : ∀ n : Node, n.rd (F.SC_DROPS_ABORT_DROP e) < 2 ^ 16 →
    (n.dropInputs e l).rd (F.SC_DROPS_ABORT_DROP e) = min (n.rd (F.SC_DROPS_ABORT_DROP e) + l.length) (2 ^ 16 - 1) := by
  have hport : ¬ PortKey (F.SC_DROPS_ABORT_DROP e).key := not_portKey_of_engine (e := e) (by simp only [F.SC_DROPS_ABORT_DROP]; omega)
  induction l with
  | nil =>
    intro n h
    show n.rd (F.SC_DROPS_ABORT_DROP e) = min (n.rd (F.SC_DROPS_ABORT_DROP e) + 0) (2 ^ 16 - 1)
    omega
  | cons i l ih =>
    intro n h
    have hstep : ((n.consume i).inc (F.SC_DROPS_ABORT_DROP e)).rd (F.SC_DROPS_ABORT_DROP e) =
        min (n.rd (F.SC_DROPS_ABORT_DROP e) + 1) (2 ^ 16 - 1) := by
      rw [Node.rd_inc_same, (Hands.consume n i).rd _ hport]
      rfl
    refine (ih _ (by rw [hstep]; omega)).trans ?_
    rw [hstep, List.length_cons]
    omega

/-! ### Owner writes and code (03 R99, R117; 02 R68) -/

theorem Node.applyOwner_spec (n : Node) (e : Nat) : ∃ mem,
    n.applyOwner e = { n with mem := mem }.setEng e { n.eng e with ownerWr := [] } ∧
    ∀ a, (∀ w ∈ (n.eng e).ownerWr, a / 8 ≠ w.1 / 8) → memRead mem a = memRead n.mem a := by
  refine ⟨_, rfl, ?_⟩
  generalize (n.eng e).ownerWr = l
  generalize n.mem = m
  induction l generalizing m with
  | nil => exact fun _ _ => rfl
  | cons w l ih =>
    intro a ha
    rw [List.foldl_cons, ih _ a fun x hx => ha x (List.mem_cons_of_mem _ hx)]
    have hw := ha w List.mem_cons_self
    refine memRead_memWrite_outside _ _ _ _ ?_
    rw [leBytes_length]
    omega

theorem memRead_memClear_outside (m : List Host.Cell) (b k a : Nat) (h : a < b ∨ b + k ≤ a) : memRead (memClear m b k) a = memRead m a := by
  unfold memRead memClear
  rcases h with h | h
  · rw [FMap.get_append_left, FMap.get_filter]
    · simpa using h
    · intro x hx
      have := (List.mem_filter.mp hx).2
      simp only [decide_eq_true_eq] at this
      omega
  · rw [FMap.get_append_right, FMap.get_filter]
    · simpa using h
    · intro x hx
      have := (List.mem_filter.mp hx).2
      simp only [decide_eq_true_eq] at this
      omega

/-- Code without an error stays; code with one is loaded anew, and nothing else. -/
theorem Node.codeCheck_spec (n : Node) (e : Nat) : ∃ mem p, n.codeCheck e = { n with mem := mem, poison := p } ∧
    ∀ a, (codeBase e ≤ a ∧ a < codeBase e + codeSize e → CodeSound n e) → memRead mem a = memRead n.mem a := by
  unfold Node.codeCheck
  split
  · next hbad =>
    unfold Node.reloadCode
    split
    · exact ⟨_, _, rfl, fun _ _ => rfl⟩
    · refine ⟨_, _, rfl, fun a ha => ?_⟩
      have hout : a < codeBase e ∨ codeBase e + codeSize e ≤ a := by
        by_contra hin
        obtain ⟨w, hw, hp⟩ := List.any_eq_true.mp hbad
        simp only [Bool.and_eq_true, decide_eq_true_eq] at hp
        exact ha (by omega) w hw hp
      rw [memRead_memWrite_outside, memRead_memClear_outside _ _ _ _ hout]
      rw [List.length_take]
      omega
  · exact ⟨_, _, rfl, fun _ _ => rfl⟩

/-! ### The abort -/

/-- The activation once aborted: no input, no output, no cells. -/
def Act.emptied (a : Act) : Act := { a with outs := [], taken := [], input := none, tx := [], txCells := [], backCells := [] }

/-- What an abort of a Scarab engine's activation leaves of the node `m`. -/
def AbortedTo (m : Node) (e code : Nat) (n : Node) : Prop :=
  let x := m.eng e
  n.eng e = { x with phase := .idle, act := x.act.emptied, ownerWr := [] } ∧ (∀ k, k ≠ e → n.eng k = m.eng k) ∧
  (∀ a, (codeBase e ≤ a ∧ a < codeBase e + codeSize e → CodeSound m e) → (∀ w ∈ x.ownerWr, a / 8 ≠ w.1 / 8) →
    memRead n.mem a = memRead m.mem a) ∧
  (x.act.taken = [] → n.chans = m.chans ∧ n.fab.frames = m.fab.frames ∧ CellsBack m n x.act.given) ∧
  (∀ y, x.act.taken = [y] → InputBack m n y x.act.given) ∧
  n.fab.egress = m.fab.egress ∧ n.fab.launches = m.fab.launches ∧ n.fab.engq = m.fab.engq ∧ n.fab.hostq = m.fab.hostq ∧
  (m.rd (F.SC_DROPS_ABORT_DROP e) < 2 ^ 16 →
    n.rd (F.SC_DROPS_ABORT_DROP e) = min (m.rd (F.SC_DROPS_ABORT_DROP e) + x.act.taken.length) (2 ^ 16 - 1)) ∧
  n.rd (F.SC_ABORTS_COUNT e) = min (m.rd (F.SC_ABORTS_COUNT e) + 1) (2 ^ 32 - 1) ∧
  (m.on (F.SC_EXC_VALID e) = true → n.rd (F.SC_EXC_CODE e) = m.rd (F.SC_EXC_CODE e) ∧
    n.rd (F.SC_EXC_TRIGGER e) = m.rd (F.SC_EXC_TRIGGER e) ∧ n.rd (F.SC_EXC_PC e) = m.rd (F.SC_EXC_PC e)) ∧
  (m.on (F.SC_EXC_VALID e) = false → n.on (F.SC_EXC_VALID e) = true ∧ n.rd (F.SC_EXC_CODE e) = code ∧
    n.rd (F.SC_EXC_TRIGGER e) = x.act.trig % 64 ∧ n.rd (F.SC_EXC_PC e) = x.act.pc % 2 ^ 16 ∧
    (m.log.staged.length < 64 → n.hasRecord 15 1 (e + code * 256)))

theorem abortedBy_iff {c : Instr} {s : State} {e code : Nat} : AbortedBy c s e code ↔ Yields c s (AbortedTo s.node e code) := Iff.rfl

/-- The node at the activation boundary after its inputs and cells have gone: the engine idle, owner writes applied, code checked, a waiting capture continued. -/
def Node.boundary (n : Node) (e : Nat) (a : Act) : Node :=
  (((n.setEng e { n.eng e with phase := .idle, act := a }).applyOwner e).codeCheck e).captureAt e

theorem Node.boundary_spec (n : Node) (e : Nat) (a : Act) : ∃ mem p c w o,
    n.boundary e a = { n with
      engs := FMap.put {} n.engs e { n.eng e with phase := .idle, act := a, ownerWr := [] }
      mem := mem, poison := p, pair := { n.pair with capture := c, capWait := w }, out := o } ∧
    ∀ x, (codeBase e ≤ x ∧ x < codeBase e + codeSize e → CodeSound n e) → (∀ w ∈ (n.eng e).ownerWr, x / 8 ≠ w.1 / 8) →
      memRead mem x = memRead n.mem x := by
  unfold Node.boundary
  obtain ⟨mem, hm, hmem⟩ := (n.setEng e { n.eng e with phase := .idle, act := a }).applyOwner_spec e
  obtain ⟨mem', p, hc, hcode⟩ := Node.codeCheck_spec ((n.setEng e { n.eng e with phase := .idle, act := a }).applyOwner e) e
  obtain ⟨c, w, l, hcap⟩ := Node.captureAt_only (((n.setEng e { n.eng e with phase := .idle, act := a }).applyOwner e).codeCheck e) e
  have heng := Node.eng_setEng_same n e { n.eng e with phase := .idle, act := a }
  refine ⟨mem', p, c, w, l ++ n.out, ?_, fun x hx hw => ?_⟩
  · rw [hcap, hc, hm, heng]
    simp only [Node.setEng, FMap.put_put]
  · rw [heng] at hmem
    refine (hcode x fun hin => ?_).trans ?_
    · rw [hm]
      exact hx hin
    · rw [hm]
      exact hmem x hw

theorem Node.abortAct_eq (m : Node) {e code : Nat} (h : code ≠ 8) :
    m.abortAct e code =
      (((m.abortRecord e code).dropInputs e (m.eng e).act.taken).returnCells (m.eng e).act.given).boundary e (m.eng e).act.emptied := by
  unfold Node.abortAct
  dsimp only
  rw [if_neg h]
  rfl

theorem Logs.sameBanks_of {m n : Node} (h : ∀ f : Fld, f.key % 32 = 29 → n.rd f = m.rd f) : SameBanks m n :=
  fun b => h _ (by simp only [F.FAB_BANK_STATE]; omega)

/-- No record is about a bank. -/
theorem Recorded.sameBanks {m n : Node} {e code : Nat} (h : Recorded m e code n) : SameBanks m n :=
  fun b => h.rd _ (by
    simp only [recordKeys, List.mem_cons, List.not_mem_nil, or_false, not_or, F.FAB_BANK_STATE, F.MGT_FAULT_SOURCE, F.SC_ABORTS_COUNT,
      F.SC_EXC_VALID, F.SC_EXC_CODE, F.SC_EXC_TRIGGER, F.SC_EXC_PC]
    omega)

theorem not_dropKey_of_bankState (e b : Nat) : ¬ DropKey e (F.FAB_BANK_STATE b).key := by
  rintro (h | h)
  · exact not_portKey_of_bankState b h
  · simp only [F.FAB_BANK_STATE, F.SC_DROPS_ABORT_DROP] at h
    omega

theorem not_dropKey_of_engine {e k : Nat} (h : 32 * engBase e ≤ k) (hd : k ≠ (F.SC_DROPS_ABORT_DROP e).key) : ¬ DropKey e k := by
  rintro (hp | hp)
  · exact not_portKey_of_engine h hp
  · exact hd hp

theorem not_levelKey_of_recordKeys {e k : Nat} (hk : k ∈ recordKeys e) : k ∉ levelKeys := by
  have h := engBase_ge e
  simp only [recordKeys, List.mem_cons, List.not_mem_nil, or_false] at hk
  rcases hk with rfl | hk
  · decide
  · refine not_levelKey_engine (e := e) ?_
    rcases hk with rfl | rfl | rfl | rfl | rfl
    all_goals simp only [F.SC_ABORTS_COUNT, F.SC_EXC_VALID, F.SC_EXC_CODE, F.SC_EXC_TRIGGER, F.SC_EXC_PC]; omega

/-- The node an abort leaves before its boundary: the record taken, inputs consumed, cells given back. -/
structure Emptied (m : Node) (e code : Nat) (n : Node) : Prop where
  engs : n.engs = m.engs
  mem : n.mem = m.mem
  poison : n.poison = m.poison
  level : n.level = m.level
  same : SameLevelInputs n m
  queues : n.fab.egress = m.fab.egress ∧ n.fab.launches = m.fab.launches ∧ n.fab.engq = m.fab.engq ∧ n.fab.hostq = m.fab.hostq
  none : (m.eng e).act.taken = [] → n.chans = m.chans ∧ n.fab.frames = m.fab.frames ∧ CellsBack m n (m.eng e).act.given
  one : ∀ y, (m.eng e).act.taken = [y] → InputBack m n y (m.eng e).act.given
  drops : m.rd (F.SC_DROPS_ABORT_DROP e) < 2 ^ 16 →
    n.rd (F.SC_DROPS_ABORT_DROP e) = min (m.rd (F.SC_DROPS_ABORT_DROP e) + (m.eng e).act.taken.length) (2 ^ 16 - 1)
  recorded : ∃ k, Recorded m e code k ∧ k.log = n.log ∧ ∀ f : Fld, ¬ DropKey e f.key → n.rd f = k.rd f

/-- An input comes to the same from a node with the same frames, entries and banks. -/
theorem InputBack.congr {m k n : Node} {y : Input} {l : List Nat} (h : InputBack k n y l) (hf : ∀ j, k.frame j = m.frame j)
    (hch : k.chans = m.chans) (hb : ∀ b, k.bank b = m.bank b) (hs : SameBanks m k) : InputBack m n y l := by
  have hc (j : Nat) : k.chan j = m.chan j := by rw [Node.chan, hch, Node.chan]
  have hback {l' : List Nat} (h : CellsBack k n l') : CellsBack m n l' := h.congr hs hb fun _ => rfl
  obtain ⟨hframe, hentry⟩ := h
  simp only [hf, hch, hc] at hframe hentry
  refine ⟨fun hsrc => ?_, fun z hsrc hz => ?_⟩
  · obtain ⟨h1, h2, h3⟩ := hframe hsrc
    refine ⟨h1, fun hr => ⟨(h2 hr).1, hback (h2 hr).2⟩, fun hr => ?_⟩
    obtain ⟨h4, h5, h6, h7⟩ := h3 hr
    exact ⟨h4, h5, h6, hback h7⟩
  · obtain ⟨h1, h2, h3, h4⟩ := hentry z hsrc hz
    exact ⟨h1, h2, h3, hback h4⟩

theorem Recorded.emptied {m k : Node} {e code : Nat} (h : Recorded m e code k) :
    Emptied m e code ((k.dropInputs e (m.eng e).act.taken).returnCells (m.eng e).act.given) := by
  have hdrop := Hands.dropInputs k e (m.eng e).act.taken
  have hcells := Hands.returnCells (DropKey e) (k.dropInputs e (m.eng e).act.taken) (m.eng e).act.given
  have hall := hdrop.trans hcells
  have hback := CellsBack.returnCells (k.dropInputs e (m.eng e).act.taken) (m.eng e).act.given
  obtain ⟨_, _, _, hk⟩ := h.eq
  have hfab : k.fab = m.fab := by rw [hk]
  have hchans : k.chans = m.chans := by rw [hk]
  have hbank (b : Nat) : k.bank b = m.bank b := by rw [Node.bank, hfab, Node.bank]
  have hframe (j : Nat) : k.frame j = m.frame j := by rw [Node.frame, hfab, Node.frame]
  have hchan (j : Nat) : k.chan j = m.chan j := by rw [Node.chan, hchans, Node.chan]
  have hkey : (F.SC_DROPS_ABORT_DROP e).key ∉ recordKeys e := by
    have := engBase_ge e
    simp only [recordKeys, List.mem_cons, List.not_mem_nil, or_false, not_or, F.SC_DROPS_ABORT_DROP, F.MGT_FAULT_SOURCE,
      F.SC_ABORTS_COUNT, F.SC_EXC_VALID, F.SC_EXC_CODE, F.SC_EXC_TRIGGER, F.SC_EXC_PC]
    omega
  have hsame : SameLevelInputs k m :=
    ⟨by rw [hk], by rw [hk], by rw [hk], by rw [hk], by rw [hk], fun f hf => h.rd f fun hr => not_levelKey_of_recordKeys hr hf⟩
  have hlevel := hall.sameLevelInputs fun j hj hd => hd.elim (not_levelKey_of_portKey j hj) fun he =>
    not_levelKey_engine (e := e) (by simp only [he, F.SC_DROPS_ABORT_DROP]; omega) hj
  refine ⟨hall.engs.trans (by rw [hk]), hall.mem.trans (by rw [hk]), hall.poison.trans (by rw [hk]), hall.level.trans (by rw [hk]),
    ?_, ?_, fun hno => ?_, fun y hy => ?_, fun hlt => ?_, ⟨k, h, hall.log.symm, hall.rd⟩⟩
  · exact ⟨hlevel.mode.trans hsame.mode, hlevel.failed.trans hsame.failed, hlevel.loaded.trans hsame.loaded,
      hlevel.settings.trans hsame.settings, hlevel.hold.trans hsame.hold, fun f hf => (hlevel.rd f hf).trans (hsame.rd f hf)⟩
  · rw [← hfab]
    exact hall.queues
  · rw [hno] at hback ⊢
    refine ⟨(Node.returnCells_chans _ _).trans hchans, (Node.returnCells_frames _ _).trans (congrArg Fab.frames hfab), ?_⟩
    exact hback.congr h.sameBanks hbank fun _ => rfl
  · have hdropped : k.dropInputs e (m.eng e).act.taken = (k.consume y).inc (F.SC_DROPS_ABORT_DROP e) := by rw [hy]; rfl
    rw [hdropped] at hback ⊢
    refine ((InputBack.consume k y).append (n := ((k.consume y).inc (F.SC_DROPS_ABORT_DROP e)).returnCells (m.eng e).act.given) ?_
      (k.consume_bankState y) (Node.returnCells_chans _ _) (Node.returnCells_frame _ _)).congr hframe hchans hbank h.sameBanks
    refine hback.congr (fun b => ?_) (fun _ => rfl) fun _ => rfl
    exact Node.rd_inc_ne _ (by simp only [F.FAB_BANK_STATE, F.SC_DROPS_ABORT_DROP]; omega)
  · rw [(Hands.returnCells (fun _ => False) _ _).rd _ id]
    refine (Node.dropInputs_count e _ k ?_).trans ?_
    · rw [h.rd _ hkey]; exact hlt
    · rw [h.rd _ hkey]

/-- An abort with an exception other than BUDGET leaves what 03 R109 says, and bears on no service level. -/
theorem Node.abortAct_spec (m : Node) {e code : Nat} (he : e < 18) (hcode : code < 8) :
    AbortedTo m e code (m.abortAct e code) ∧ (m.abortAct e code).level = m.level ∧ (m.abortAct e code).allowed = m.allowed := by
  have hemptied := (m.abortRecord_spec (code := code) he (by omega)).emptied
  rw [m.abortAct_eq (by omega)]
  generalize ((m.abortRecord e code).dropInputs e (m.eng e).act.taken).returnCells (m.eng e).act.given = n at hemptied
  obtain ⟨mem, p, c, w, o, hn, hmem⟩ := n.boundary_spec e (m.eng e).act.emptied
  generalize n.boundary e (m.eng e).act.emptied = t at hn
  obtain ⟨hengs, hnmem, hpoison, hlevel, hsame, hqueues, hnone, hone, hdrops, k, hrec, hlog, hrd⟩ := hemptied
  have hrdt (f : Fld) : t.rd f = n.rd f := by rw [hn]; rfl
  have hfab : t.fab = n.fab := by rw [hn]
  have heng : n.eng e = m.eng e := by rw [Node.eng, hengs, Node.eng]
  have hkeep (f : Fld) (h : 32 * engBase e ≤ f.key) (hd : f.key ≠ (F.SC_DROPS_ABORT_DROP e).key) : t.rd f = k.rd f :=
    (hrdt f).trans (hrd f (not_dropKey_of_engine h hd))
  have hkeepOn (f : Fld) (h : 32 * engBase e ≤ f.key) (hd : f.key ≠ (F.SC_DROPS_ABORT_DROP e).key) : t.on f = k.on f := by
    rw [Node.on, hkeep f h hd, Node.on]
  have hcode' : t.rd (F.SC_EXC_CODE e) = k.rd (F.SC_EXC_CODE e) :=
    hkeep _ (by simp only [F.SC_EXC_CODE]; omega) (by simp only [F.SC_EXC_CODE, F.SC_DROPS_ABORT_DROP]; omega)
  have htrigger : t.rd (F.SC_EXC_TRIGGER e) = k.rd (F.SC_EXC_TRIGGER e) :=
    hkeep _ (by simp only [F.SC_EXC_TRIGGER]; omega) (by simp only [F.SC_EXC_TRIGGER, F.SC_DROPS_ABORT_DROP]; omega)
  have hpc : t.rd (F.SC_EXC_PC e) = k.rd (F.SC_EXC_PC e) :=
    hkeep _ (by simp only [F.SC_EXC_PC]; omega) (by simp only [F.SC_EXC_PC, F.SC_DROPS_ABORT_DROP]; omega)
  refine ⟨⟨?_, fun j hj => ?_, fun a ha hw => ?_, fun hno => ?_, fun y hy => ?_, ?_, ?_, ?_, ?_, fun hlt => ?_, ?_, fun hv => ?_,
    fun hv => ?_⟩, ?_, ?_⟩
  · rw [hn]
    show FMap.get {} (FMap.put {} n.engs e _) e = _
    rw [FMap.get_put_same, heng]
  · rw [hn]
    show FMap.get {} (FMap.put {} n.engs e _) j = _
    rw [FMap.get_put_ne _ _ _ _ hj, hengs, Node.eng]
  · rw [hn]
    refine (hmem a (fun hin => ?_) (heng ▸ hw)).trans (congrArg (memRead · a) hnmem)
    unfold CodeSound
    rw [hpoison]
    exact ha hin
  · rw [hn]
    exact hnone hno
  · rw [hn]
    exact hone y hy
  · rw [hfab]
    exact hqueues.1
  · rw [hfab]
    exact hqueues.2.1
  · rw [hfab]
    exact hqueues.2.2.1
  · rw [hfab]
    exact hqueues.2.2.2
  · exact (hrdt _).trans (hdrops hlt)
  · refine (hkeep _ ?_ ?_).trans hrec.count
    all_goals simp only [F.SC_ABORTS_COUNT, F.SC_DROPS_ABORT_DROP]; omega
  · rw [hcode', htrigger, hpc]
    exact hrec.held hv
  · obtain ⟨h1, h2, h3, h4, h5⟩ := hrec.taken hv
    rw [hcode', htrigger, hpc]
    refine ⟨(hkeepOn _ ?_ ?_).trans h1, h2, h3, h4, fun h => ?_⟩
    · simp only [F.SC_EXC_VALID]; omega
    · simp only [F.SC_EXC_VALID, F.SC_DROPS_ABORT_DROP]; omega
    · have hlogt : t.log = k.log := by rw [hn, hlog]
      unfold Node.hasRecord
      rw [hlogt]
      exact h5 h
  · rw [hn]
    exact hlevel
  · exact SameLevelInputs.allowed ⟨by rw [hn]; exact hsame.mode, by rw [hn]; exact hsame.failed, by rw [hn]; exact hsame.loaded,
      by rw [hn]; exact hsame.settings, by rw [hn]; exact hsame.hold, fun f hf => (hrdt f).trans (hsame.rd f hf)⟩

end Sys2Proof.Machine
end

section
/-! PROOF. O16: the exception code each condition raises (03 R107; 04 R123 to R154). -/

namespace Sys2Proof.Machine

open Sys2Proof

/-! ### From a raised exception to its abort -/

/-- What the end of the command adds changes nothing an abort leaves. -/
theorem AbortedTo.follow {m n t : Node} {e code : Nat} (h : AbortedTo m e code n) (hf : Follows n t) : AbortedTo m e code t := by
  have heng (k : Nat) : t.eng k = n.eng k := by rw [Node.eng, hf.engs, Node.eng]
  have hrd (f : Fld) (hk : 32 * engBase e ≤ f.key) : t.rd f = n.rd f :=
    hf.rd f (not_followKey (by have := engBase_ge e; omega))
  have hbank (b : Nat) : t.bank b = n.bank b := by rw [Node.bank, hf.fab, Node.bank]
  obtain ⟨h1, h2, h3, h4, h5, h6, h7, h8, h9, h10, h11, h12, h13⟩ := h
  refine ⟨(heng e).trans h1, fun k hk => (heng k).trans (h2 k hk), fun a ha hw => ?_, fun hno => ?_, fun y hy => ?_,
    hf.fab ▸ h6, hf.fab ▸ h7, hf.fab ▸ h8, hf.fab ▸ h9, fun hlt => ?_, ?_, fun hv => ?_, fun hv => ?_⟩
  · rw [hf.mem]
    exact h3 a ha hw
  · obtain ⟨hc, hfr, hb⟩ := h4 hno
    exact ⟨hf.chans.trans hc, (congrArg Fab.frames hf.fab).trans hfr, hb.congr (fun _ => rfl) (fun _ => rfl) hbank⟩
  · have hi := h5 y hy
    unfold InputBack CellsBack Node.frame Node.chan Node.bank at hi ⊢
    rw [hf.chans, hf.fab]
    exact hi
  · rw [hrd _ (by simp only [F.SC_DROPS_ABORT_DROP]; omega)]
    exact h10 hlt
  · rw [hrd _ (by simp only [F.SC_ABORTS_COUNT]; omega)]
    exact h11
  · rw [hrd (F.SC_EXC_CODE e) (by simp only [F.SC_EXC_CODE]; omega), hrd (F.SC_EXC_TRIGGER e) (by simp only [F.SC_EXC_TRIGGER]; omega),
      hrd (F.SC_EXC_PC e) (by simp only [F.SC_EXC_PC]; omega)]
    exact h12 hv
  · rw [Node.on, hrd (F.SC_EXC_VALID e) (by simp only [F.SC_EXC_VALID]; omega), hrd (F.SC_EXC_CODE e) (by simp only [F.SC_EXC_CODE]; omega),
      hrd (F.SC_EXC_TRIGGER e) (by simp only [F.SC_EXC_TRIGGER]; omega), hrd (F.SC_EXC_PC e) (by simp only [F.SC_EXC_PC]; omega)]
    obtain ⟨g1, g2, g3, g4, g5⟩ := h13 hv
    exact ⟨g1, g2, g3, g4, fun hl => hf.records _ _ _ (g5 hl)⟩

/-- An exception before the last budgeted cycle aborts with its own code (03 R108). -/
theorem AbortedBy.of_raise {c : Instr} {s : State} {e code : Nat} (hf : s.node.fits) (he : e < 18) (hcode : code < 8)
    (hcyc : (s.node.eng e).act.cyc + 1 < (s.node.eng e).act.budget) (hx : exec c s = s.to (s.node.raise e code)) :
    AbortedBy c s e code := by
  have hraise : s.node.raise e code = s.node.abortAct e code := by
    unfold Node.raise
    dsimp only
    rw [if_neg (Nat.not_le.mpr hcyc)]
  obtain ⟨hto, hlevel, hallowed⟩ := s.node.abortAct_spec he hcode
  rw [hraise] at hx
  exact Yields.imp (Leaves.of_to hx hlevel hallowed hf) fun t ht => hto.follow ht

theorem Node.kStep_fetch_exc {n : Node} {e code : Nat} {tags : List KTag} {eff : Node → Act → KIns → KRes}
    (hp : (n.eng e).phase = .running) (hfetch : n.fetch e (n.eng e).act.pc = .inr code) : n.kStep e tags eff = n.raise e code := by
  simp [Node.kStep, hp, hfetch]

theorem Node.kStep_check_exc {n : Node} {e code : Nat} {i : KIns} {tags : List KTag} {eff : Node → Act → KIns → KRes}
    (hp : (n.eng e).phase = .running) (hfetch : n.fetch e (n.eng e).act.pc = .inl i) (hcheck : n.kCheck (n.eng e).act i = some code) :
    n.kStep e tags eff = n.raise e code := by
  simp [Node.kStep, hp, hfetch, hcheck]

/-- An instruction that issues and whose operation raises an exception aborts with its code. -/
theorem AbortedBy.of_eff {c : Instr} {s : State} {e code : Nat} {t : KTag} {eff : Node → Act → KIns → KRes} {i : KIns}
    (hf : s.node.fits) (he : e < 18) (hi : Issues s.node e i 1) (ht : i.tag = t) (hx : exec c s = s.to (s.node.kStep e [t] eff))
    (hcode : code < 8) (heff : eff s.node (s.node.eng e).act i = .exc code) : AbortedBy c s e code := by
  refine .of_raise hf he hcode hi.budget (hx.trans (congrArg s.to ?_))
  simp [Node.kStep, hi.phase, hi.fetch, hi.check, hi.guard, ht, heff]

/-! ### Fetching and checking (04 R119, R123, R146, R154) -/

theorem Node.fetch_past {n : Node} {e pc : Nat} (h : codeSize e < pc + 4) : n.fetch e pc = .inr 2 := by
  simp [Node.fetch, h]

theorem Node.fetch_bad {n : Node} {e pc : Nat} (h : pc + 4 ≤ codeSize e) (hb : n.codeBad e pc = true) : n.fetch e pc = .inr 7 := by
  simp [Node.fetch, Nat.not_lt.mpr h, hb]

theorem Node.kCheck_illegal {n : Node} {a : Act} {i : KIns} (h : i.tag = .illegal) : n.kCheck a i = some 1 := by
  simp [Node.kCheck, h]

theorem Node.kCheck_loopEnd {n : Node} {a : Act} {i : KIns} (h : i.tag = .call ∨ i.tag = .ret ∨ i.tag = .loop ∨ i.tag = .endA)
    (hl : ∃ l ∈ a.loops, l.last = a.pc) : n.kCheck a i = some 1 := by
  have hlast : a.loopLast a.pc = true := by
    obtain ⟨l, hl, hpc⟩ := hl
    exact List.any_eq_true.mpr ⟨l, hl, by simpa using hpc⟩
  rcases h with h | h | h | h <;> simp [Node.kCheck, h, endsNoLoop, hlast]

theorem Node.kCheck_noTable {n : Node} {a : Act} {i : KIns} (h : isTblTag i.tag = true) (ht : n.tab (i.imm % 256) = none) :
    n.kCheck a i = some 2 := by
  have hne : i.tag ≠ .illegal := fun he => by rw [he] at h; cases h
  have hloop : endsNoLoop i.tag = false := by
    cases htag : i.tag
    case call | ret | loop | endA => rw [htag] at h; cases h
    all_goals rfl
  simp [Node.kCheck, hne, hloop, h, ht]

/-- The registers an entry needs go beyond g31 (04 R146). -/
theorem Node.kCheck_registers {n : Node} {a : Act} {i : KIns} {d : TabDef} (hd : n.tab (i.imm % 256) = some d)
    (h : ((i.tag = .tblRd ∨ i.tag = .tblLkrd) ∧ 32 < i.rd + d.n) ∨ ((i.tag = .tblWr ∨ i.tag = .tblIns) ∧ 32 < i.rb + d.n)) :
    n.kCheck a i = some 1 := by
  rcases h with ⟨h | h, hr⟩ | ⟨h | h, hr⟩ <;> simp [Node.kCheck, h, endsNoLoop, isTblTag, hd, hr]

/-! ### Data accesses (03 R81) -/

/-- Where each range lies. -/
theorem rangeOf_bounds {a r : Nat} (h : rangeOf a = some r) :
    (r = 0 ∧ a < 0x40) ∨ (r = 1 ∧ 0x40 ≤ a ∧ a < 0x2440) ∨ (r = 2 ∧ 0x10000 ≤ a ∧ a < 0x10040) ∨
    (r = 3 ∧ 0x10040 ≤ a ∧ a < 0x12440) ∨ (r = 4 ∧ 0x20000 ≤ a ∧ a < 0x21000) := by
  unfold rangeOf at h
  split_ifs at h <;> injection h <;> omega

theorem OneRange.of_rangeOf {a k r : Nat} (h : rangeOf a = some r) (h' : rangeOf (a + k - 1) = some r) : OneRange a k := by
  have h1 := rangeOf_bounds h
  have h2 := rangeOf_bounds h'
  unfold OneRange
  omega

theorem inOneRange_eq_some {a k r : Nat} (h : inOneRange a k = some r) : rangeOf a = some r ∧ rangeOf (a + k - 1) = some r := by
  unfold inOneRange at h
  split at h
  · next heq => exact ⟨h, heq ▸ h⟩
  · cases h

theorem inOneRange_isNone {a k : Nat} (h : ¬ OneRange a k) : (inOneRange a k).isNone = true := by
  cases hr : inOneRange a k with
  | none => rfl
  | some r =>
    obtain ⟨h1, h2⟩ := inOneRange_eq_some hr
    exact absurd (.of_rangeOf h1 h2) h

/-- Bytes outside the transmit area and the mailbox lie in no range that takes a store. -/
theorem inOneRange_no_store {a k : Nat} (ht : ¬ InTransmit a k) (hm : ¬ InMailbox a k) :
    inOneRange a k ≠ some 2 ∧ inOneRange a k ≠ some 3 ∧ inOneRange a k ≠ some 4 := by
  refine ⟨fun h => ?_, fun h => ?_, fun h => ?_⟩
  all_goals
    obtain ⟨h1, h2⟩ := inOneRange_eq_some h
    have hlow := rangeOf_bounds h1
    have hhigh := rangeOf_bounds h2
    unfold InTransmit at ht
    unfold InMailbox at hm
    omega

theorem kStore_no_range {n : Node} {a : Act} {i : KIns} {r : Option Nat} {parts : List (Nat × Nat × Nat)} {post : Act → Act}
    (h : r ≠ some 2 ∧ r ≠ some 3 ∧ r ≠ some 4) : kStore n a i r parts post = .exc 2 := by
  obtain ⟨h2, h3, h4⟩ := h
  unfold kStore
  split
  · exact absurd rfl h2
  · exact absurd rfl h3
  · exact absurd rfl h4
  · rfl

theorem kStore_mailbox_full {n : Node} {a : Act} {i : KIns} {parts : List (Nat × Nat × Nat)} {post : Act → Act}
    (h : a.count isMbox = 64) : kStore n a i (some 4) parts post = .exc 6 := by
  simp [kStore, h]

/-! ### The exceptions of each operation -/

section Effects

variable {n : Node} {e : Nat} {a : Act} {i : KIns}

theorem effLd_fault (h : ¬ OneRange (kAddr a i) i.sz ∨ kAddr a i % i.sz ≠ 0) : effLd n e a i = .exc 2 := by
  refine if_pos ?_
  rcases h with h | h
  · exact .inr (.inr (inOneRange_isNone h))
  · exact .inr (.inl h)

theorem effSt_fault (h : (¬ InTransmit (kAddr a i) i.sz ∧ ¬ InMailbox (kAddr a i) i.sz) ∨ kAddr a i % i.sz ≠ 0) :
    effSt n a i = .exc 2 := by
  unfold effSt
  dsimp only
  split
  · rfl
  · next hok =>
    rcases h with ⟨ht, hm⟩ | h
    · exact kStore_no_range (inOneRange_no_store ht hm)
    · exact absurd (.inr h) hok

theorem effSt_full (hm : InMailbox (kAddr a i) i.sz) (hal : kAddr a i % i.sz = 0) (h : a.count isMbox = 64) : effSt n a i = .exc 6 := by
  have hlt : ¬ (2 ^ 32 ≤ kAddr a i ∨ kAddr a i % i.sz ≠ 0) := by
    unfold InMailbox at hm
    omega
  unfold effSt
  dsimp only
  rw [if_neg hlt, inOneRange_mailbox i.sz_pos hm]
  exact kStore_mailbox_full h

theorem KIns.w_pos (i : KIns) : 0 < i.w := by
  unfold KIns.w
  dsimp only
  split <;> omega

/-- The bytes of a bit field, as the statements count them. -/
theorem fieldBytes_eq (p : Nat) {w : Nat} (hw : 0 < w) : (p % 8 + w + 7) / 8 = (p + w - 1) / 8 - p / 8 + 1 := by omega

theorem effExtb_fault (h : 2 ^ 35 ≤ (a.rg i.ra).toNat ∨ ¬ OneRange ((a.rg i.ra).toNat / 8)
    (((a.rg i.ra).toNat + i.w - 1) / 8 - (a.rg i.ra).toNat / 8 + 1)) : effExtb n e a i = .exc 2 := by
  rw [← fieldBytes_eq _ i.w_pos] at h
  exact if_pos (h.imp id inOneRange_isNone)

theorem effInsb_fault (h : 2 ^ 35 ≤ (a.rg i.ra).toNat ∨
    (¬ InTransmit ((a.rg i.ra).toNat / 8) (((a.rg i.ra).toNat + i.w - 1) / 8 - (a.rg i.ra).toNat / 8 + 1) ∧
     ¬ InMailbox ((a.rg i.ra).toNat / 8) (((a.rg i.ra).toNat + i.w - 1) / 8 - (a.rg i.ra).toNat / 8 + 1))) :
    effInsb n a i = .exc 2 := by
  rw [← fieldBytes_eq _ i.w_pos] at h
  unfold effInsb kField
  dsimp only
  split
  · rfl
  · next hlt =>
    obtain ⟨ht, hm⟩ := h.resolve_left hlt
    exact kStore_no_range (inOneRange_no_store ht hm)

theorem effInsb_full (hp : (a.rg i.ra).toNat < 2 ^ 35)
    (hm : InMailbox ((a.rg i.ra).toNat / 8) (((a.rg i.ra).toNat + i.w - 1) / 8 - (a.rg i.ra).toNat / 8 + 1)) (h : a.count isMbox = 64) :
    effInsb n a i = .exc 6 := by
  rw [← fieldBytes_eq _ i.w_pos] at hm
  have hw := i.w_pos
  unfold effInsb kField
  dsimp only
  rw [if_neg (Nat.not_le.mpr hp), inOneRange_mailbox (by omega) hm]
  exact kStore_mailbox_full h

theorem effRxq_full {p : Input} {m : Node} (hfn : i.fn < 128) (h : n.rxqSource e a i = some (p, m)) (hfull : a.nrx = 8) :
    effRxq n e a i = .exc 6 := by
  obtain ⟨hkind, hnum⟩ := rxq_source_fields hfn
  unfold Node.rxqSource Node.rxqCleared at h
  simp only [effRxq, hkind, hnum, h, hfull, le_refl, if_true]

theorem closeTx_full {launch : Option Nat} (hs : a.short = false) (hh : n.headerOk (txHeader a) = true)
    (hl : launch.isSome = true → byteAt (txHeader a) 2 = 0) (hfull : a.count isFrame = 8) : closeTx n a launch = .inr 6 := by
  have hvalid : ¬ ((!n.headerOk (txHeader a)) = true ∨ launch.isSome = true ∧ byteAt (txHeader a) 2 ≠ 0) := by
    rintro (h | ⟨h, hne⟩)
    · simp [hh] at h
    · exact hne (hl h)
  simp only [closeTx, hs]
  rw [if_neg (by decide), if_neg hvalid, if_pos hfull.ge]

theorem effEmit_closes_full (hf : i.fn % 2 = 0) (h : closeTx n a none = .inr 6) : effEmit n a i = .exc 6 := by
  simp only [effEmit, hf, h, if_true]

theorem effEmit_forwards_full {y : Input} (hf : i.fn % 2 = 1) (hin : a.input = some y) (hsrc : y.src = 0)
    (hd : y.dropped = false) (hctx : n.ctxExists ((a.rg i.ra).toNat % 4096) = true) (hfull : a.count isFrame = 8) :
    effEmit n a i = .exc 6 := by
  simp [effEmit, hf, hin, hsrc, hd, hctx, hfull]

theorem effLaunch_full (hsec : (a.rg i.ra).toNat < 2 ^ 48) (hns : (a.rg i.rb).toNat < 10 ^ 9)
    (h : closeTx n a (some (timeOf (a.rg i.ra).toNat (a.rg i.rb).toNat)) = .inr 6) : effLaunch n a i = .exc 6 := by
  simp only [effLaunch, h]
  rw [if_neg (by omega)]

end Effects

section TableFaults

variable {n : Node} {a : Act} {i : KIns} {d : TabDef} (hd : n.kTab i = d)
include hd

theorem effTblLk_fault (h : d.hashed = false) : effTblLk n a i = .exc 2 := if_pos (by rw [hd, h]; rfl)

theorem effTblLkrd_fault (h : d.hashed = false) : effTblLkrd n a i = .exc 2 := if_pos (by rw [hd, h]; rfl)

theorem effTblIns_fault (h : d.hashed = false) : effTblIns n a i = .exc 2 := if_pos (by rw [hd, h]; rfl)

theorem effTblDel_fault (h : d.hashed = false) : effTblDel n a i = .exc 2 := if_pos (by rw [hd, h]; rfl)

theorem effTblRd_fault (h : d.entries ≤ (a.rg i.ra).toNat) : effTblRd n a i = .exc 2 := if_pos (by rw [hd]; exact h)

theorem effTblWr_fault (h : d.entries ≤ (a.rg i.ra).toNat) : effTblWr n a i = .exc 2 := if_pos (by rw [hd]; exact h)

theorem effTblWr_full (hk : (a.rg i.ra).toNat < d.entries) (hfull : a.count isTbl = 16) : effTblWr n a i = .exc 6 := by
  simp only [effTblWr, hd, if_neg (Nat.not_le.mpr hk), if_pos hfull.ge]

theorem effTblIns_full {j : Nat} (hh : d.hashed = true)
    (h : (if stale n a d then none else n.lookup d d.wview (a.rg i.ra).toNat) = none)
    (hfree : n.freeSlot d d.dbl (a.rg i.ra).toNat (reserved a d.num) = some j) (hfull : a.count isTbl = 16) :
    effTblIns n a i = .exc 6 := by
  have hmiss : (d.dbl = true ∧ a.ep ≠ n.epoch) ∨ n.lookup d d.dbl (a.rg i.ra).toNat = none := by
    split at h
    · next hs => exact .inl (stale_iff.mp hs)
    · exact .inr h
  rw [effTblIns_of_absent hd hh hmiss, hfree]
  exact if_pos hfull.ge

theorem effTblDel_full {j : Nat} (hh : d.hashed = true)
    (h : (if stale n a d then none else n.lookup d d.wview (a.rg i.ra).toNat) = some j) (hfull : a.count isTbl = 16) :
    effTblDel n a i = .exc 6 := by
  rw [effTblDel_eq hd hh, h]
  exact if_pos hfull.ge

end TableFaults

/-! ### Which code each condition raises (O16) -/

section Codes

variable {s : State} {e : Nat} {i : KIns}

/-- The conditions that show before an instruction issues. -/
theorem abortedBy_of_fetch {c : Instr} {t : KTag} (hf : s.node.fits) (he : e < 18) (hp : (s.node.eng e).phase = .running)
    (hcyc : (s.node.eng e).act.cyc + 1 < (s.node.eng e).act.budget) (hrow : KRow e c t) {code : Nat}
    (hfetch : s.node.fetch e (s.node.eng e).act.pc = .inr code) (hcode : code < 8) : AbortedBy c s e code := by
  obtain ⟨eff, hx⟩ := hrow.exec_eq s
  exact .of_raise hf he hcode hcyc (hx.trans (congrArg s.to (Node.kStep_fetch_exc hp hfetch)))

theorem abortedBy_of_check {c : Instr} {t : KTag} (hf : s.node.fits) (he : e < 18) (hp : (s.node.eng e).phase = .running)
    (hcyc : (s.node.eng e).act.cyc + 1 < (s.node.eng e).act.budget) (hrow : KRow e c t) {code : Nat}
    (hfetch : s.node.fetch e (s.node.eng e).act.pc = .inl i) (hcheck : s.node.kCheck (s.node.eng e).act i = some code)
    (hcode : code < 8) : AbortedBy c s e code := by
  obtain ⟨eff, hx⟩ := hrow.exec_eq s
  exact .of_raise hf he hcode hcyc (hx.trans (congrArg s.to (Node.kStep_check_exc hp hfetch hcheck)))

/-- The codes a fetch can raise (03 R107). -/
theorem Node.fetch_code_lt {n : Node} {e pc code : Nat} (h : n.fetch e pc = .inr code) : code < 8 := by
  unfold Node.fetch at h
  dsimp only at h
  split_ifs at h <;> injection h with h <;> omega

end Codes

/-- Settles O16: each condition raises its code, and an exception aborts as 03 R109 says. -/
theorem exceptionCodes : Obligations.ExceptionCodes := by
  intro s e i hf he act ad k p
  refine ⟨fun hp hcyc c t hrow => ⟨fun code hfetch => abortedBy_of_fetch hf he hp hcyc hrow hfetch (Node.fetch_code_lt hfetch),
    fun h => abortedBy_of_fetch hf he hp hcyc hrow (Node.fetch_past h) (by decide),
    fun h hb => abortedBy_of_fetch hf he hp hcyc hrow (Node.fetch_bad h hb) (by decide), fun hfetch => ?_⟩, fun hi => ?_⟩
  · have check {code : Nat} (h : s.node.kCheck act i = some code) (hc : code < 8) : AbortedBy c s e code :=
      abortedBy_of_check hf he hp hcyc hrow hfetch h hc
    exact ⟨fun h => check (Node.kCheck_illegal h) (by decide), fun h hl => check (Node.kCheck_loopEnd h hl) (by decide),
      fun h ht => check (Node.kCheck_noTable h ht) (by decide), fun d hd =>
        ⟨fun h hr => check (Node.kCheck_registers hd (.inl ⟨h, hr⟩)) (by decide),
         fun h hr => check (Node.kCheck_registers hd (.inr ⟨h, hr⟩)) (by decide)⟩⟩
  · have had : kAddr act i = ad := kAddr_eq act i
    have raises {c : Instr} {t : KTag} {eff : Node → Act → KIns → KRes} {code : Nat} (ht : i.tag = t)
        (hx : exec c s = s.to (s.node.kStep e [t] eff)) (heff : eff s.node act i = .exc code) (hcode : code < 8) : AbortedBy c s e code :=
      .of_eff hf he hi ht hx hcode heff
    refine ⟨fun ht hstack => raises ht rfl (by rw [effRet, hstack]) (by decide),
      fun ht h => raises (eff := effCall) ht rfl (if_pos h.ge) (by decide),
      fun ht h => raises (eff := effBr) ht rfl (if_pos (by omega)) (by decide),
      fun ht h => raises (eff := effLoop) ht rfl (if_pos h.ge) (by decide),
      fun ht h => raises ht rfl (effLd_fault (had ▸ h)) (by decide),
      fun ht h => raises ht rfl (effLd_fault (had ▸ h)) (by decide),
      fun ht h => raises ht rfl (effSt_fault (had ▸ h)) (by decide),
      fun ht h => raises ht rfl (effSt_fault (had ▸ h)) (by decide),
      fun ht hm hal h => raises ht rfl (effSt_full (had ▸ hm) (had ▸ hal) h) (by decide),
      fun ht hm hal h => raises ht rfl (effSt_full (had ▸ hm) (had ▸ hal) h) (by decide),
      fun ht h => raises ht rfl (effExtb_fault h) (by decide),
      fun ht => ⟨fun h => raises ht rfl (effInsb_fault h) (by decide), fun hp hm h => raises ht rfl (effInsb_full hp hm h) (by decide)⟩,
      fun ht hfull => ?_, fun hfull => ?_, fun ht h => raises (eff := fun n a i => effLds n e a i) ht rfl (if_pos h) (by decide),
      fun ht h => raises (eff := effSts) ht rfl (if_pos h) (by decide),
      fun ht hp h => raises (eff := effSts) ht rfl ((if_neg (Nat.not_le.mpr hp)).trans (if_pos h.ge)) (by decide),
      fun ht h => raises (eff := effSignal) ht rfl (if_pos h.ge) (by decide),
      fun ht h => raises (eff := effDrop) ht rfl (if_pos h.ge) (by decide), fun d hd => ?_⟩
    · refine ⟨fun c r hk hq hgood => ?_, fun hk hb hw => ?_⟩
      · have hd := Node.dropBad_of_good hq hgood
        exact raises ht rfl (effRxq_full hi.fn_lt ((Node.rxqSource_queue _ hk hd).trans (Node.takeFrame_of_cons _ hq)) hfull) (by decide)
      · obtain ⟨y, r, hy⟩ := List.exists_cons_of_ne_nil hw
        exact raises ht rfl (effRxq_full hi.fn_lt ((Node.rxqSource_channel _ hk).trans (Node.takeEntry_of_cons _ hb hy)) hfull) (by decide)
    · refine ⟨fun ht hfn hs hh => ?_, fun y ht hfn hin hsrc hd hctx => ?_, fun ht hs hh hdest hsec hns => ?_⟩
      · exact raises ht rfl (effEmit_closes_full hfn (closeTx_full hs hh (by simp) hfull)) (by decide)
      · exact raises ht rfl (effEmit_forwards_full hfn hin hsrc hd hctx hfull) (by decide)
      · exact raises ht rfl (effLaunch_full hsec hns (closeTx_full hs hh (fun _ => hdest) hfull)) (by decide)
    · have hk := Node.kTab_of_tab hd
      refine ⟨fun ht hh => raises ht rfl (effTblLk_fault hk hh) (by decide), fun ht h => raises ht rfl (effTblRd_fault hk h) (by decide),
        fun ht h => raises ht rfl (effTblWr_fault hk h) (by decide), fun ht hh => raises ht rfl (effTblLkrd_fault hk hh) (by decide),
        fun ht hh => raises ht rfl (effTblIns_fault hk hh) (by decide), fun ht hh => raises ht rfl (effTblDel_fault hk hh) (by decide),
        fun hfull => ?_⟩
      intro find
      have hfind : find = if stale s.node act d then none else s.node.lookup d d.wview p := by
        simp only [find, ← stale_iff, TabDef.wview]
      refine ⟨fun ht hp => raises ht rfl (effTblWr_full hk hp hfull) (by decide), fun ht hh hnone hfree => ?_, fun ht hh hsome => ?_⟩
      · obtain ⟨j, hj⟩ := Option.ne_none_iff_exists'.mp hfree
        exact raises ht rfl (effTblIns_full hk hh (hfind ▸ hnone) hj hfull) (by decide)
      · obtain ⟨j, hj⟩ := Option.ne_none_iff_exists'.mp hsome
        exact raises ht rfl (effTblDel_full hk hh (hfind ▸ hj) hfull) (by decide)

end Sys2Proof.Machine
end

section
/-! PROOF. O17: the trigger a dispatch chooses (03 R92). O18 and O19 fail, each in one state: a bad frame's discard that table memory counts, and an overrun flag that lies outside its registers. -/

namespace Sys2Proof.Machine

open Sys2Proof

/-! ### The best trigger (O17) -/

/-- Of the best trigger so far and the next one, a pending one of higher priority is taken. -/
def betterTrig (pending : Nat × Trig → Bool) (b : Option (Nat × Trig)) (x : Nat × Trig) : Option (Nat × Trig) :=
  if pending x then
    match b with
    | none => some x
    | some y => if y.2.prio < x.2.prio then some x else b
  else b

/-- `w` is the first of the pending triggers of `l` with the highest priority. -/
def Wins (pending : Nat × Trig → Bool) (l : List (Nat × Trig)) (w : Nat × Trig) : Prop :=
  w ∈ l ∧ pending w = true ∧ ∀ x ∈ l, pending x = true → x.2.prio < w.2.prio ∨ (x.2.prio = w.2.prio ∧ w.1 ≤ x.1)

/-- The fold over triggers of rising numbers keeps the first of the highest priority; with none pending it keeps what it had. -/
theorem foldl_betterTrig {pending : Nat × Trig → Bool} (l : List (Nat × Trig)) : ∀ (b : Nat × Trig), pending b = true →
    (b :: l).Pairwise (fun x y => x.1 < y.1) →
    ∃ w, l.foldl (betterTrig pending) (some b) = some w ∧ Wins pending (b :: l) w := by
  induction l with
  | nil =>
    intro b hb _
    refine ⟨b, rfl, List.mem_cons_self, hb, fun x hx _ => ?_⟩
    rw [List.mem_singleton.mp hx]
    exact .inr ⟨rfl, le_refl _⟩
  | cons x l ih =>
    intro b hb hpair
    obtain ⟨hbx, hxl⟩ := List.pairwise_cons.mp hpair
    obtain ⟨hxr, hl⟩ := List.pairwise_cons.mp hxl
    have hlow : b.1 < x.1 := hbx x List.mem_cons_self
    rw [List.foldl_cons]
    by_cases hx : pending x = true ∧ b.2.prio < x.2.prio
    · obtain ⟨w, hw, hmem, hpw, hbest⟩ := ih x hx.1 hxl
      refine ⟨w, by simpa [betterTrig, hx] using hw, List.mem_cons_of_mem _ hmem, hpw, fun y hy hpy => ?_⟩
      rcases List.mem_cons.mp hy with rfl | hy
      · rcases hbest x List.mem_cons_self hx.1 with h | h
        · exact .inl (hx.2.trans h)
        · exact .inl (h.1 ▸ hx.2)
      · exact hbest y hy hpy
    · have hpair' : (b :: l).Pairwise (fun x y => x.1 < y.1) :=
        List.pairwise_cons.mpr ⟨fun y hy => hbx y (List.mem_cons_of_mem _ hy), hl⟩
      obtain ⟨w, hw, hmem, hpw, hbest⟩ := ih b hb hpair'
      have hstep : betterTrig pending (some b) x = some b := by
        unfold betterTrig
        split
        · next hpx => exact if_neg fun hlt => hx ⟨hpx, hlt⟩
        · rfl
      refine ⟨w, by rw [hstep]; exact hw, ?_, hpw, fun y hy hpy => ?_⟩
      · rcases List.mem_cons.mp hmem with h | h
        · exact h ▸ List.mem_cons_self
        · exact List.mem_cons_of_mem _ (List.mem_cons_of_mem _ h)
      · rcases List.mem_cons.mp hy with rfl | hy
        · exact hbest y List.mem_cons_self hpy
        · rcases List.mem_cons.mp hy with rfl | hy
          · have hle : ¬ b.2.prio < y.2.prio := fun h => hx ⟨hpy, h⟩
            rcases hbest b List.mem_cons_self hb with h | h <;> omega
          · exact hbest y (List.mem_cons_of_mem _ hy) hpy

theorem foldl_betterTrig_none {pending : Nat × Trig → Bool} (l : List (Nat × Trig)) (hpair : l.Pairwise (fun x y => x.1 < y.1)) :
    (∃ w, l.foldl (betterTrig pending) none = some w ∧ Wins pending l w) ∨
    (l.foldl (betterTrig pending) none = none ∧ ∀ x ∈ l, pending x = false) := by
  induction l with
  | nil => exact .inr ⟨rfl, fun x hx => absurd hx List.not_mem_nil⟩
  | cons x l ih =>
    obtain ⟨-, hl⟩ := List.pairwise_cons.mp hpair
    rw [List.foldl_cons]
    cases hx : pending x with
    | true =>
      obtain ⟨w, hw, hwins⟩ := foldl_betterTrig l x hx hpair
      exact .inl ⟨w, by simpa [betterTrig, hx] using hw, hwins⟩
    | false =>
      have hstep : betterTrig pending none x = none := by simp [betterTrig, hx]
      rw [hstep]
      rcases ih hl with ⟨w, hw, hmem, hpw, hbest⟩ | ⟨hnone, hno⟩
      · refine .inl ⟨w, hw, List.mem_cons_of_mem _ hmem, hpw, fun y hy hpy => ?_⟩
        rcases List.mem_cons.mp hy with rfl | hy
        · rw [hx] at hpy; cases hpy
        · exact hbest y hy hpy
      · refine .inr ⟨hnone, fun y hy => ?_⟩
        rcases List.mem_cons.mp hy with rfl | hy
        · exact hx
        · exact hno y hy

/-- Only one trigger wins: numbers differ. -/
theorem Wins.unique {pending : Nat × Trig → Bool} {l : List (Nat × Trig)} {v w : Nat × Trig} (hpair : l.Pairwise (fun x y => x.1 < y.1))
    (hv : Wins pending l v) (hw : Wins pending l w) : v = w := by
  obtain ⟨hvm, hvp, hvb⟩ := hv
  obtain ⟨hwm, hwp, hwb⟩ := hw
  have heq : v.1 = w.1 := by
    have h1 := hvb w hwm hwp
    have h2 := hwb v hvm hvp
    omega
  have hnodup : (l.map Prod.fst).Nodup := List.pairwise_map.mpr (hpair.imp fun h => Nat.ne_of_lt h)
  exact List.inj_on_of_nodup_map hnodup hvm hwm heq

/-- Settles O17: the fold over triggers in rising number keeps the first of the highest priority. -/
theorem bestTriggerWins : Obligations.BestTriggerWins := by
  intro n e slot t tr hwf
  have hpair := ((FMap.wf_iff _ _).mp hwf).1
  have hbest : n.bestTrig e slot = (n.eng e).trigs.foldl (betterTrig fun x => n.pendingTrig e slot x.1 x.2) none := rfl
  have hwins : Wins (fun x => n.pendingTrig e slot x.1 x.2) (n.eng e).trigs (t, tr) ↔
      (t, tr) ∈ (n.eng e).trigs ∧ n.pendingTrig e slot t tr = true ∧
      ∀ u ur, (u, ur) ∈ (n.eng e).trigs → n.pendingTrig e slot u ur = true → ur.prio < tr.prio ∨ (ur.prio = tr.prio ∧ t ≤ u) :=
    ⟨fun h => ⟨h.1, h.2.1, fun u ur => h.2.2 (u, ur)⟩, fun h => ⟨h.1, h.2.1, fun x => h.2.2 x.1 x.2⟩⟩
  rw [hbest, ← hwins]
  rcases foldl_betterTrig_none (pending := fun x => n.pendingTrig e slot x.1 x.2) _ hpair with ⟨w, hw, hww⟩ | ⟨hnone, hno⟩
  · rw [hw, Option.some_inj]
    exact ⟨fun h => h ▸ hww, fun h => hww.unique hpair h⟩
  · rw [hnone]
    refine ⟨fun h => (nomatch h), fun h => ?_⟩
    obtain ⟨hmem, hp, -⟩ := h
    exact absurd (hp.symm.trans (hno _ hmem)) (by decide)

/-! ### A bad frame whose discard table memory counts (O18) -/

/-- The one copy of a frame, under stream context 0. -/
def badHeadCopy : Copy := { fid := 1, stream := 0 }

/-- A powered node whose engine 0 waits for queue 0, in which the last copy of a bad frame of context 0 waits; the image has table 1. -/
def badHeadNode : Node :=
  ({ engs := [(0, { trigs := [(0, { en := true, prio := 1 })] })]
     tabs := [{ num := 1, entries := 1, n := 8 }]
     fab := { engq := [(0, [badHeadCopy])], frames := [(1, { refs := 1, bad := true, left := [(0, 1)] })] } } : Node).wrs
    [(F.PWR_ISLANDS_DATA, 1), (F.SC_CTRL_RUN 0, 1), (F.HLT_SLOT_ENGINE 0, 0)]

def badHead : State := { node := badHeadNode }

/-- Refutes O18: the discard of a bad frame's last copy counts in DISCARDS of its stream context, a word of table memory (06 R200), and
the statement has every byte of memory as before. -/
theorem not_dispatchStarts : ¬ Obligations.DispatchStarts := by
  intro h
  obtain ⟨t, ht, -, -, -, hmem, -⟩ := h.2.2 badHead 0 0 0 { en := true, prio := 1 } badHeadCopy (Nat.zero_le _) (by decide)
    (by decide) (by decide) rfl rfl rfl rfl
  have hcounts : (match exec (.dispatch 0) badHead with
      | .next u => memRead u.node.mem (tabAddr 6)
      | _ => 0) = 1 := by decide +kernel
  rw [ht] at hcounts
  exact absurd ((hmem (tabAddr 6)).symm.trans hcounts) (by decide)

/-! ### An overrun flag past its registers (O19) -/

/-- An engine at its budget, whose activation names trigger 128. -/
def overrun : State := { node := { engs := [(0, { phase := .running, act := { trig := 128 } })] } }

/-- Refutes O19: the register of trigger 128's overrun flag would lie 10h past the first, where DROPS is, so that the abort of an
activation without inputs counts one there. -/
theorem not_timerAndBudget : ¬ Obligations.TimerAndBudget := by
  intro h
  obtain ⟨t, ht, -, -, -, -, -, -, -, -, -, -, hdrops, -⟩ :=
    (h.2 overrun 0 (Nat.zero_le _) (by decide) rfl).2.1 (by decide)
  have hcounts : (match exec (.budget 0) overrun with
      | .next u => u.node.rd (F.SC_DROPS_ABORT_DROP 0)
      | _ => 0) = 1 := by decide
  rw [ht] at hcounts
  exact absurd ((hdrops (by decide)).symm.trans hcounts) (by decide)

end Sys2Proof.Machine
end

section
/-! SUPPORT. What an engine's memories hold after a move (14 R500, 02 R49), and what binding of slots depends on; a failed engine retires (O21). -/

namespace Sys2Proof.Machine

open Sys2Proof

/-! ### A part of memory moved -/

/-- Keys moved up by `a` are found `a` higher. -/
theorem FMap.get_map_add {β : Type} (d : β) (l : FMap β) (a y : Nat) :
    FMap.get d (l.map fun c => (a + c.1, c.2)) (a + y) = FMap.get d l y := by
  induction l with
  | nil => rfl
  | cons c l ih =>
    simp only [List.map_cons, FMap.get, ih, Nat.add_left_cancel_iff]

/-- Keys moved down by `a` are found `a` lower. -/
theorem FMap.get_map_sub {β : Type} (d : β) {l : FMap β} {a : Nat} (y : Nat) (h : ∀ c ∈ l, a ≤ c.1) :
    FMap.get d (l.map fun c => (c.1 - a, c.2)) y = FMap.get d l (a + y) := by
  induction l with
  | nil => rfl
  | cons c l ih =>
    obtain ⟨hc, hl⟩ := List.forall_mem_cons.mp h
    have hiff : c.1 - a = y ↔ c.1 = a + y := by omega
    simp only [List.map_cons, FMap.get, ih hl, hiff]

theorem memRead_memPart (m : List Host.Cell) (a : Nat) {k y : Nat} (h : y < k) : memRead (memPart m a k) y = memRead m (a + y) := by
  unfold memRead memPart
  rw [FMap.get_map_sub, FMap.get_filter]
  · simp only [Bool.and_eq_true, decide_eq_true_eq]
    omega
  · intro c hc
    have := (List.mem_filter.mp hc).2
    simp only [Bool.and_eq_true, decide_eq_true_eq] at this
    exact this.1

theorem memRead_memPlace_inside (m part : List Host.Cell) (b : Nat) {k y : Nat} (h : y < k) :
    memRead (memPlace m b k part) (b + y) = memRead part y := by
  unfold memRead memPlace
  rw [FMap.get_append_right, FMap.get_append_left, FMap.get_map_add]
  · intro c hc
    have := (List.mem_filter.mp hc).2
    simp only [decide_eq_true_eq] at this
    omega
  · intro c hc
    have := (List.mem_filter.mp hc).2
    simp only [decide_eq_true_eq] at this
    omega

/-- What the memories of engine `k` hold once those of engine `e` are attached to it. -/
theorem memRead_reattach (n : Node) {e k y : Nat} (he : e < 18) (hk : k < 18) (hne : k ≠ e) (hy : y < engSpan) :
    memRead (n.reattach e k).mem (sigBase k + y) = memRead n.mem (sigBase e + y) := by
  have hfar : sigBase k + y < sigBase e ∨ sigBase e + engSpan ≤ sigBase k + y := by
    simp only [sigBase, engBase, engSpan] at hy ⊢
    split <;> split <;> omega
  show memRead (memClear (memPlace n.mem (sigBase k) engSpan (memPart n.mem (sigBase e) engSpan)) (sigBase e) engSpan) _ = _
  rw [memRead_memClear_outside _ _ _ _ hfar, memRead_memPlace_inside _ _ _ hy, memRead_memPart _ _ hy]

/-! ### Binding -/

theorem Node.slotOf_congr {m n : Node} (h : ∀ s, n.rd (F.HLT_SLOT_ENGINE s) = m.rd (F.HLT_SLOT_ENGINE s)) (e : Nat) :
    n.slotOf e = m.slotOf e := by
  simp only [Node.slotOf, h]

theorem Node.slotOf_lt {n : Node} {e slot : Nat} (h : n.slotOf e = some slot) : slot < 16 :=
  List.mem_range.mp (List.mem_of_find?_eq_some h)

/-- The retirement of an engine that has a slot takes no spare. -/
theorem Node.spareEngs_congr {m n : Node} {e slot : Nat} (hslot : m.slotOf e = some slot) (h : ∀ j, n.slotOf j = m.slotOf j)
    (hr : ∀ j, j < 18 → j ≠ e → n.retired j = m.retired j) : n.spareEngs = m.spareEngs := by
  unfold Node.spareEngs
  refine List.filter_congr fun j hj => ?_
  by_cases hje : j = e
  · simp [hje, h, hslot]
  · rw [h, hr j (List.mem_range.mp hj) hje]

theorem Node.mem_spareEngs {n : Node} {k : Nat} (h : k ∈ n.spareEngs) : k < 18 ∧ n.slotOf k = none := by
  obtain ⟨hk, hp⟩ := List.mem_filter.mp h
  simp only [Bool.and_eq_true, Option.isNone_iff_eq_none] at hp
  exact ⟨List.mem_range.mp hk, hp.2⟩

/-! ### Failure and move (O21) -/

/-- Where the level is allowed and has not fallen, the command leaves the node it makes. -/
theorem Settles.of_to {c : Instr} {s : State} {m : Node} (h : exec c s = s.to m) : Settles c s m :=
  fun hf hl => Yields.of_to h (settle_follows _ _ hf hl)

/-- The node after the retirement of an engine. -/
def Node.retireEngine (n : Node) (e : Nat) : Node :=
  (n.wr F.HLT_RETIRED_ENGINE (setBit (n.rd F.HLT_RETIRED_ENGINE) e true)).fault 15 2 e

theorem Node.retireEngine_rd (n : Node) (e : Nat) {f : Fld} (hf : f.key ≠ F.HLT_RETIRED_ENGINE.key) (hs : f.key ≠ F.MGT_FAULT_SOURCE.key) :
    (n.retireEngine e).rd f = n.rd f := by
  rw [Node.retireEngine, Node.fault_rd _ _ _ _ _ hs, Node.rd_wr_ne _ _ hf]

theorem Node.retireEngine_slotOf (n : Node) (e j : Nat) : (n.retireEngine e).slotOf j = n.slotOf j :=
  Node.slotOf_congr (fun s => n.retireEngine_rd e (by simp only [F.HLT_SLOT_ENGINE, F.HLT_RETIRED_ENGINE]; omega)
    (by simp only [F.HLT_SLOT_ENGINE, F.MGT_FAULT_SOURCE]; omega)) j

theorem Node.retireEngine_retired (n : Node) {e j : Nat} (hj : j < 18) (hne : j ≠ e) : (n.retireEngine e).retired j = n.retired j := by
  rw [Node.retired, Node.retireEngine, Node.fault_rd _ _ _ _ _ (by decide), Node.rd_wr_same, Node.retired, bitOf_eq_testBit, bitOf_eq_testBit,
    Nat.testBit_mod_two_pow, ← bitOf_eq_testBit, bitOf_setBit, if_neg hne, bitOf_eq_testBit]
  simp only [F.HLT_RETIRED_ENGINE, hj, decide_true, Bool.true_and]

theorem Node.retireEngine_spareEngs {n : Node} {e slot : Nat} (h : n.slotOf e = some slot) : (n.retireEngine e).spareEngs = n.spareEngs :=
  Node.spareEngs_congr h (n.retireEngine_slotOf e) fun _ => n.retireEngine_retired

theorem bitOf_setBit_true (v i j : Nat) : bitOf (setBit v i true) j = (bitOf v j || j == i) := by
  rw [bitOf_setBit]
  by_cases h : j = i <;> simp [h]

/-- A failure outside an activation: the engine is retired and its slot waits, or is unbound. -/
theorem Node.engineFail_eq {n : Node} {e slot : Nat} (he : e < 18) (hon : n.dataOn = true) (hr : n.retired e = false)
    (hphase : (n.eng e).phase ≠ .running) (hslot : n.slotOf e = some slot) : n.engineFail e =
      if n.spareEngs.isEmpty then (n.retireEngine e).unbindSlot slot else (n.retireEngine e).setEng e { (n.retireEngine e).eng e with moving := true } := by
  have hdo : ¬ (!n.dataOn ∨ 18 ≤ e ∨ n.retired e) := by simp [hon, hr]; omega
  simp only [Node.engineFail, if_neg hdo, if_neg hphase]
  have h := n.retireEngine_slotOf e e
  simp only [← Node.retireEngine_spareEngs hslot]
  simp only [Node.retireEngine] at h ⊢
  simp only [h, hslot]
  rfl

theorem Node.retireEngine_eng (n : Node) (e j : Nat) : (n.retireEngine e).eng j = n.eng j := by
  have h : (n.retireEngine e).engs = n.engs := by
    obtain ⟨r, l, o, h⟩ := Logs.fault (n.wr F.HLT_RETIRED_ENGINE (setBit (n.rd F.HLT_RETIRED_ENGINE) e true)) 15 2 e
    rw [Node.retireEngine, h]
    rfl
  rw [Node.eng, h, Node.eng]

/-- The node once the slot of engine `e` has moved to the spare `k`. -/
def Node.movedTo (n : Node) (e slot k : Nat) : Node :=
  let x := n.eng e
  let n := n.free.2.reattach e k
  let n := n.setEng k { n.eng k with
    trigs := x.trigs, fired := x.fired, timerAt := x.timerAt, flags := x.flags, prevEpoch := x.prevEpoch,
    ownerWr := x.ownerWr.map (fun w => (w.1 - sigBase e + sigBase k, w.2)) }
  let n := n.setEng e { act := x.act }
  (n.wrs [(F.HLT_SLOT_ENGINE slot, k), (F.SC_CTRL_RUN k, n.rd (F.SC_CTRL_RUN e)), (F.SC_CTRL_HOLD k, n.rd (F.SC_CTRL_HOLD e))]).inc
    F.HLT_ENG_MOVES_MOVES

/-- A move with a spare left goes to one of the spares. -/
theorem Node.slotMove_eq {n : Node} {e slot : Nat} (he : e < 18) (hon : n.dataOn = true) (hphase : (n.eng e).phase = .idle)
    (hmoving : (n.eng e).moving = true) (hslot : n.slotOf e = some slot) (hsp : n.spareEngs ≠ []) :
    ∃ k ∈ n.spareEngs, n.slotMove e = n.movedTo e slot k := by
  have hlen : n.free.1 % n.spareEngs.length < n.spareEngs.length := Nat.mod_lt _ (List.length_pos_iff.mpr hsp)
  refine ⟨n.spareEngs.getD (n.free.1 % n.spareEngs.length) 0, ?_, ?_⟩
  · rw [List.getD_eq_getElem _ _ hlen]
    exact List.getElem_mem hlen
  · have hgo : ¬ (!(n.dataOn && decide (e < 18) && (n.eng e).moving && (n.eng e).phase == .idle)) = true := by
      simp [hon, he, hmoving, hphase]
    have hne : ¬ n.spareEngs.isEmpty = true := by simpa using hsp
    simp only [Node.slotMove, if_neg hgo, hslot, if_neg hne]
    rfl

theorem slotEngine_not_levelKey (slot : Nat) : (F.HLT_SLOT_ENGINE slot).key ∉ levelKeys := fun h => by
  have hwhole : ∀ k ∈ levelKeys, k % 32 = 0 → k < 32 * 0x10020040 := by decide
  have hlt := hwhole _ h (by simp only [F.HLT_SLOT_ENGINE]; omega)
  simp only [F.HLT_SLOT_ENGINE] at hlt
  omega

/-- The registers a move writes, but for MOVES. -/
def moveWrites (n : Node) (e slot k : Nat) : List (Fld × Nat) :=
  [(F.HLT_SLOT_ENGINE slot, k), (F.SC_CTRL_RUN k, n.rd (F.SC_CTRL_RUN e)), (F.SC_CTRL_HOLD k, n.rd (F.SC_CTRL_HOLD e))]

theorem moveWrites_not_levelKey (n : Node) (e slot k : Nat) : ∀ x ∈ moveWrites n e slot k, x.1.key ∉ levelKeys := by
  intro x hx
  simp only [moveWrites, List.mem_cons, List.not_mem_nil, or_false] at hx
  rcases hx with rfl | rfl | rfl
  · exact slotEngine_not_levelKey slot
  · exact not_levelKey_engine (e := k) (by simp only [F.SC_CTRL_RUN]; omega)
  · exact not_levelKey_engine (e := k) (by simp only [F.SC_CTRL_HOLD]; omega)

/-- The node of a move before it writes registers. -/
def Node.moved (n : Node) (e k : Nat) : Node :=
  ((n.free.2.reattach e k).setEng k { n.eng k with
    trigs := (n.eng e).trigs, fired := (n.eng e).fired, timerAt := (n.eng e).timerAt, flags := (n.eng e).flags,
    prevEpoch := (n.eng e).prevEpoch, ownerWr := (n.eng e).ownerWr.map (fun w => (w.1 - sigBase e + sigBase k, w.2)) }).setEng e
    { act := (n.eng e).act }

theorem Node.movedTo_eq (n : Node) (e slot k : Nat) :
    n.movedTo e slot k = ((n.moved e k).wrs (moveWrites n e slot k)).inc F.HLT_ENG_MOVES_MOVES := rfl

theorem Node.moved_allowed (n : Node) (e k : Nat) : (n.moved e k).allowed = n.allowed := by
  unfold Node.moved
  rw [Node.allowed_setEng, Node.allowed_setEng]
  rfl

theorem Node.movedTo_allowed (n : Node) (e slot k : Nat) : (n.movedTo e slot k).allowed = n.allowed := by
  rw [Node.movedTo_eq, Node.allowed_inc _ _ (by decide), Node.allowed_wrs _ _ (moveWrites_not_levelKey n e slot k), Node.moved_allowed]

/-- Writes of registers change registers only. -/
theorem Node.wrs_regs (l : List (Fld × Nat)) : ∀ n : Node, ∃ r, n.wrs l = { n with regs := r } := by
  induction l with
  | nil => exact fun n => ⟨n.regs, rfl⟩
  | cons x l ih =>
    intro n
    obtain ⟨r, h⟩ := ih (n.wr x.1 x.2)
    exact ⟨r, h⟩

theorem Node.movedTo_units (n : Node) (e slot k : Nat) : (n.movedTo e slot k).level = n.level ∧
    (n.movedTo e slot k).mem = (n.reattach e k).mem ∧ (n.movedTo e slot k).engs = (n.moved e k).engs := by
  obtain ⟨r, h⟩ := Node.wrs_regs (moveWrites n e slot k) (n.moved e k)
  rw [Node.movedTo_eq, h]
  exact ⟨rfl, rfl, rfl⟩

theorem Node.movedTo_rd_slot (n : Node) {e slot k : Nat} (hk : k < 18) (hs : slot < 16) :
    (n.movedTo e slot k).rd (F.HLT_SLOT_ENGINE slot) = k := by
  have hbase := engBase_ge k
  rw [Node.movedTo_eq, Node.rd_inc_ne _ (by simp only [F.HLT_SLOT_ENGINE, F.HLT_ENG_MOVES_MOVES]; omega), moveWrites, Node.wrs,
    List.foldl_cons, List.foldl_cons, List.foldl_cons, List.foldl_nil,
    Node.rd_wr_ne _ _ (by simp only [F.HLT_SLOT_ENGINE, F.SC_CTRL_HOLD]; omega),
    Node.rd_wr_ne _ _ (by simp only [F.HLT_SLOT_ENGINE, F.SC_CTRL_RUN]; omega), Node.rd_wr_same]
  exact Nat.mod_eq_of_lt (by simp only [F.HLT_SLOT_ENGINE]; omega)

theorem Node.movedTo_rd_run (n : Node) (e slot k : Nat) : (n.movedTo e slot k).rd (F.SC_CTRL_RUN k) = n.rd (F.SC_CTRL_RUN e) % 2 := by
  have hbase := engBase_ge k
  rw [Node.movedTo_eq, Node.rd_inc_ne _ (by simp only [F.SC_CTRL_RUN, F.HLT_ENG_MOVES_MOVES]; omega), moveWrites, Node.wrs,
    List.foldl_cons, List.foldl_cons, List.foldl_cons, List.foldl_nil,
    Node.rd_wr_ne _ _ (by simp only [F.SC_CTRL_RUN, F.SC_CTRL_HOLD]; omega), Node.rd_wr_same]
  rfl

theorem Node.movedTo_rd_hold (n : Node) (e slot k : Nat) : (n.movedTo e slot k).rd (F.SC_CTRL_HOLD k) = n.rd (F.SC_CTRL_HOLD e) % 2 := by
  have hbase := engBase_ge k
  rw [Node.movedTo_eq, Node.rd_inc_ne _ (by simp only [F.SC_CTRL_HOLD, F.HLT_ENG_MOVES_MOVES]; omega), moveWrites, Node.wrs,
    List.foldl_cons, List.foldl_cons, List.foldl_cons, List.foldl_nil, Node.rd_wr_same]
  rfl

theorem Node.movedTo_rd_moves (n : Node) {e slot k : Nat} (hs : slot < 16) :
    (n.movedTo e slot k).rd F.HLT_ENG_MOVES_MOVES = min (n.rd F.HLT_ENG_MOVES_MOVES + 1) (2 ^ 16 - 1) := by
  have hbase := engBase_ge k
  rw [Node.movedTo_eq, Node.rd_inc_same, moveWrites, Node.wrs, List.foldl_cons, List.foldl_cons, List.foldl_cons, List.foldl_nil,
    Node.rd_wr_ne _ _ (by simp only [F.HLT_ENG_MOVES_MOVES, F.SC_CTRL_HOLD]; omega),
    Node.rd_wr_ne _ _ (by simp only [F.HLT_ENG_MOVES_MOVES, F.SC_CTRL_RUN]; omega),
    Node.rd_wr_ne _ _ (by simp only [F.HLT_ENG_MOVES_MOVES, F.HLT_SLOT_ENGINE]; omega)]
  rfl

/-- A register keeps the low bits of what is written. -/
theorem Node.wr_mod (n : Node) (f : Fld) (v : Nat) : n.wr f (v % 2 ^ f.w) = n.wr f v := by
  simp only [Node.wr, Nat.mod_mod]

/-- Settles O21. -/
theorem engineRetires : Obligations.EngineRetires := by
  refine ⟨fun s e slot he hon hr hphase hslot => ?_, fun s e slot he hon hphase hmoving hslot hsp => ?_,
    fun s e slot hfits he hon hphase hmoving hslot hsp => ?_⟩
  · have hexec := Node.engineFail_eq he hon hr hphase hslot
    refine ⟨setBit (s.node.rd F.HLT_RETIRED_ENGINE) e true % 2 ^ 18, fun b hb => ?_, Nat.mod_lt _ (by decide), ?_⟩
    · rw [bitOf_eq_testBit, Nat.testBit_mod_two_pow, ← bitOf_eq_testBit, bitOf_setBit_true]
      simp only [hb, decide_true, Bool.true_and]
    · have hret : (s.node.wr F.HLT_RETIRED_ENGINE (setBit (s.node.rd F.HLT_RETIRED_ENGINE) e true % 2 ^ 18)).fault 15 2 e =
          s.node.retireEngine e := congrArg (·.fault 15 2 e) (s.node.wr_mod F.HLT_RETIRED_ENGINE _)
      rw [hret]
      refine ⟨fun hsp => Settles.of_to ?_, fun hsp => ⟨_, fun b => bitOf_setBit_true _ slot b, Settles.of_to ?_⟩⟩
      · have hne : ¬ s.node.spareEngs.isEmpty = true := by simpa using hsp
        rw [if_neg hne, Node.retireEngine_eng] at hexec
        exact congrArg s.to hexec
      · rw [if_pos (by simp [hsp]), Node.unbindSlot, s.node.retireEngine_rd e (by decide) (by decide)] at hexec
        exact congrArg s.to hexec
  · refine ⟨_, fun b => bitOf_setBit_true _ slot b, Settles.of_to (congrArg s.to ?_)⟩
    have hgo : ¬ (!(s.node.dataOn && decide (e < 18) && (s.node.eng e).moving && (s.node.eng e).phase == .idle)) = true := by
      simp [hon, he, hmoving, hphase]
    simp only [Node.slotMove, if_neg hgo, hslot, hsp, List.isEmpty_nil, if_true]
    rfl
  · obtain ⟨k, hk, hmove⟩ := Node.slotMove_eq he hon hphase hmoving hslot hsp
    obtain ⟨hk18, hnone⟩ := Node.mem_spareEngs hk
    have hne : k ≠ e := fun h => by
      rw [h, hslot] at hnone
      cases hnone
    obtain ⟨hlevel, hmem, hengs⟩ := s.node.movedTo_units e slot k
    refine ⟨k, hk, Yields.imp (Leaves.of_to (congrArg s.to hmove) hlevel (s.node.movedTo_allowed e slot k) hfits) fun n hn => ?_⟩
    have hs := Node.slotOf_lt hslot
    have hbase := engBase_ge k
    have heng (j : Nat) : n.eng j = (s.node.moved e k).eng j := by rw [Node.eng, hn.engs, hengs, Node.eng]
    have hengk : n.eng k = _ := (heng k).trans ((Node.eng_setEng_ne _ _ hne).trans (Node.eng_setEng_same _ _ _))
    have henge : n.eng e = _ := (heng e).trans (Node.eng_setEng_same _ _ _)
    refine ⟨?_, ?_, ?_, ?_, ?_, ?_, ?_, ?_, ?_, ?_, fun y hy => ?_, fun j hje hjk => ?_⟩
    · rw [hn.rd _ (not_followKey_mid (by simp only [F.HLT_SLOT_ENGINE]; omega) (by simp only [F.HLT_SLOT_ENGINE]; omega)),
        Node.movedTo_rd_slot _ hk18 hs]
    · rw [hn.rd _ (not_followKey (by simp only [F.SC_CTRL_RUN]; omega)), Node.movedTo_rd_run]
    · rw [hn.rd _ (not_followKey (by simp only [F.SC_CTRL_HOLD]; omega)), Node.movedTo_rd_hold]
    · rw [hn.rd _ (by decide), Node.movedTo_rd_moves _ hs]
    · rw [hengk]
    · rw [hengk]
    · rw [hengk]
    · rw [hengk]
    · rw [henge]
    · rw [henge]
    · rw [hn.mem, hmem, memRead_reattach _ he hk18 hne hy]
    · rw [heng j, Node.moved, Node.eng_setEng_ne _ _ hje, Node.eng_setEng_ne _ _ hjk]
      rfl

end Sys2Proof.Machine
end

section
/-! SUPPORT. Words of the byte memory: what a 64-bit read gives after a write, entries of tables written and cleared, masked bytes. -/

namespace Sys2Proof.Machine

open Sys2Proof

/-! ### Words -/

theorem leNat_leBytes (k : Nat) : ∀ v, leNat (leBytes k v) = v % 256 ^ k := by
  induction k with
  | zero => intro v; simp [leBytes, leNat, Nat.mod_one]
  | succ k ih =>
    intro v
    rw [leBytes, leNat, ih, pow_succ', Nat.mod_mul (x := v)]
    rfl

theorem memReadN_memWrite_same (m : List Host.Cell) (a : Nat) (bs : List Byte) : memReadN (memWrite m a bs) a bs.length = bs := by
  refine List.ext_getElem (by simp [memReadN]) fun i h _ => ?_
  simp only [memReadN, List.length_map, List.length_range] at h
  simp only [memReadN, List.getElem_map, List.getElem_range]
  exact memRead_memWrite_inside m a bs i h

theorem rd64_wr64_same (m : List Host.Cell) (a v : Nat) : rd64 (wr64 m a v) a = v % 2 ^ 64 := by
  have h := memReadN_memWrite_same m a (leBytes 8 v)
  rw [leBytes_length] at h
  rw [rd64, wr64, h, leNat_leBytes]
  rfl

theorem memRead_wr64_outside (m : List Host.Cell) (a v : Nat) {x : Nat} (h : x < a ∨ a + 8 ≤ x) : memRead (wr64 m a v) x = memRead m x :=
  memRead_memWrite_outside _ _ _ _ (by rwa [leBytes_length])

/-- Words whose bytes agree agree. -/
theorem rd64_congr {m m' : List Host.Cell} {a : Nat} (h : ∀ x, a ≤ x → x < a + 8 → memRead m x = memRead m' x) :
    rd64 m a = rd64 m' a := by
  refine congrArg leNat (List.map_congr_left fun i hi => h _ (Nat.le_add_right _ _) ?_)
  have := List.mem_range.mp hi
  omega

theorem rd64_wr64_outside (m : List Host.Cell) (a v : Nat) {b : Nat} (h : b + 8 ≤ a ∨ a + 8 ≤ b) : rd64 (wr64 m a v) b = rd64 m b :=
  rd64_congr fun x h1 h2 => memRead_wr64_outside m a v (by omega)

theorem rd64_lt (m : List Host.Cell) (a : Nat) : rd64 m a < 2 ^ 64 := by
  have h := leNat_lt (memReadN m a 8)
  rw [memReadN, List.length_map, List.length_range] at h
  exact h

/-- The words from `w` on, `k` of them, take the values of `f`. -/
def wordsWritten (m : List Host.Cell) (w k : Nat) (f : Nat → Nat) : List Host.Cell :=
  (List.range k).foldl (fun m j => wr64 m (tabAddr (w + j)) (f j)) m

theorem wordsWritten_succ (m : List Host.Cell) (w k : Nat) (f : Nat → Nat) :
    wordsWritten m w (k + 1) f = wr64 (wordsWritten m w k f) (tabAddr (w + k)) (f k) := by
  simp only [wordsWritten, List.range_succ, List.foldl_append, List.foldl_cons, List.foldl_nil]

theorem memRead_wordsWritten_outside (m : List Host.Cell) (w k : Nat) (f : Nat → Nat) {a : Nat}
    (h : a < tabAddr w ∨ tabAddr (w + k) ≤ a) : memRead (wordsWritten m w k f) a = memRead m a := by
  induction k with
  | zero => rfl
  | succ k ih =>
    simp only [tabAddr] at h ih
    rw [wordsWritten_succ, memRead_wr64_outside _ _ _ (by simp only [tabAddr]; omega), ih (by omega)]

theorem rd64_wordsWritten_outside (m : List Host.Cell) (w k : Nat) (f : Nat → Nat) {a : Nat}
    (h : a + 8 ≤ tabAddr w ∨ tabAddr (w + k) ≤ a) : rd64 (wordsWritten m w k f) a = rd64 m a :=
  rd64_congr fun _ h1 h2 => memRead_wordsWritten_outside m w k f (by omega)

theorem rd64_wordsWritten (m : List Host.Cell) (w : Nat) (f : Nat → Nat) {k j : Nat} (h : j < k) :
    rd64 (wordsWritten m w k f) (tabAddr (w + j)) = f j % 2 ^ 64 := by
  induction k with
  | zero => cases h
  | succ k ih =>
    rw [wordsWritten_succ]
    rcases Nat.lt_succ_iff_lt_or_eq.mp h with hj | rfl
    · rw [rd64_wr64_outside _ _ _ (by simp only [tabAddr]; omega), ih hj]
    · rw [rd64_wr64_same]

theorem memRead_memClear_inside (m : List Host.Cell) {b k a : Nat} (h : b ≤ a) (h' : a < b + k) : memRead (memClear m b k) a = 0 := by
  refine FMap.get_of_absent _ _ _ fun c hc => ?_
  rcases List.mem_append.mp hc with hc | hc
  · have := (List.mem_filter.mp hc).2
    simp only [decide_eq_true_eq] at this
    omega
  · have := (List.mem_filter.mp hc).2
    simp only [decide_eq_true_eq] at this
    omega

/-! ### Entries -/

theorem Node.foldl_setWord (n : Node) (w k : Nat) (f : Nat → Nat) :
    (List.range k).foldl (fun a j => a.setWord (w + j) (f j)) n = { n with mem := wordsWritten n.mem w k f } := by
  induction k with
  | zero => rfl
  | succ k ih =>
    rw [List.range_succ, List.foldl_append, ih, wordsWritten_succ]
    rfl

/-- Where memory holds no error, there is none to clear. -/
theorem Node.unpoison_of_sound {n : Node} (h : n.poison = []) (ws : List Nat) : n.unpoison ws = n := by
  have hp : n.poison.filter (fun a => !decide (a ∈ ws.map tabAddr)) = n.poison := by rw [h]; rfl
  rw [Node.unpoison, hp]

/-- A program's own table takes the words as they are. -/
theorem fabricWords_of_own {t : Nat} (h : 12 < t) (i : Nat) (old new : List Nat) : fabricWords t i old new = new := by
  simp only [fabricWords, show ¬ t = 1 by omega, show ¬ t = 3 by omega, show ¬ t = 4 by omega, show ¬ (t = 5 ∧ 20 ≤ i ∧ i ≤ 22) by omega,
    if_false]

/-- The words of a whole entry, as a list of positions and values. -/
def entryWords (k : Nat) (f : Nat → Nat) : List (Nat × Nat) := (List.range k).map fun j => (j, f j)

theorem find_entryWords {k j : Nat} (f : Nat → Nat) (h : j < k) : (entryWords k f).find? (fun x => x.1 == j) = some (j, f j) := by
  rw [entryWords, List.find?_map]
  have hfind : (List.range k).find? (fun i => i == j) = some j := by
    rw [List.find?_range_eq_some]
    refine ⟨by simp, List.mem_range.mpr h, fun i hi => ?_⟩
    simp; omega
  exact congrArg (Option.map fun j => (j, f j)) hfind

/-- A whole entry of a program's own table takes the words given. -/
theorem Node.entryWrite_own {n : Node} {d : TabDef} (hnum : 12 < d.num) (hp : n.poison = []) (sh : Bool) (i : Nat) (f : Nat → Nat) :
    n.entryWrite d sh i (entryWords d.n f) = { n with mem := wordsWritten n.mem (d.dataW sh i) d.n f } := by
  unfold Node.entryWrite Node.refill
  simp only [fabricWords_of_own hnum, show ¬ d.num = 3 by omega, false_and, if_false]
  have hfold : ∀ l : List Nat, (∀ j, j < d.n → l.getD j 0 = f j) →
      (List.range d.n).foldl (fun a j => a.setWord (d.dataW sh i + j) (l.getD j 0)) n =
      { n with mem := wordsWritten n.mem (d.dataW sh i) d.n f } := fun l hl => by
    rw [← Node.foldl_setWord]
    exact List.foldl_ext _ _ _ fun a j hj => by rw [hl j (List.mem_range.mp hj)]
  rw [if_pos (by simp [entryWords]), hfold _ fun j hj => ?_]
  · exact Node.unpoison_of_sound (n := { n with mem := wordsWritten n.mem (d.dataW sh i) d.n f }) hp _
  · rw [List.getD_eq_getElem _ _ (by simpa using hj), List.getElem_map, List.getElem_range]
    simp only [find_entryWords f hj]

/-! ### Bits of a masked byte and of a word put together -/

theorem bitOf_toNat {k : Nat} (x : BitVec k) (b : Nat) : bitOf x.toNat b = x.getLsbD b := by
  rw [bitOf_eq_testBit, BitVec.testBit_toNat]

/-- A masked byte takes the bits of the mask. -/
theorem bitOf_overlay {m v : Nat} (c : Byte) (hm : m < 256) (hv : v < 256) {b : Nat} (hb : b < 8) :
    bitOf (BitVec.ofNat 8 (overlay c.toNat m v)).toNat b = if bitOf m b then bitOf v b else bitOf c.toNat b := by
  obtain ⟨m, rfl⟩ : ∃ x : Byte, m = x.toNat := ⟨BitVec.ofNat 8 m, by rw [BitVec.toNat_ofNat]; exact (Nat.mod_eq_of_lt hm).symm⟩
  obtain ⟨v, rfl⟩ : ∃ x : Byte, v = x.toNat := ⟨BitVec.ofNat 8 v, by rw [BitVec.toNat_ofNat]; exact (Nat.mod_eq_of_lt hv).symm⟩
  have hsum : BitVec.ofNat 8 (overlay c.toNat m.toNat v.toNat) = (c &&& ~~~ m) + (v &&& m) :=
    BitVec.eq_of_toNat_eq (by simp [overlay])
  have hor : (c &&& ~~~ m) + (v &&& m) = (c &&& ~~~ m) ||| (v &&& m) := by
    refine BitVec.add_eq_or_of_and_eq_zero _ _ (BitVec.eq_of_getLsbD_eq fun i hi => ?_)
    simp only [BitVec.getLsbD_and, BitVec.getLsbD_not, BitVec.getLsbD_zero]
    cases m.getLsbD i <;> simp
  rw [hsum, hor]
  simp only [bitOf_toNat, BitVec.getLsbD_or, BitVec.getLsbD_and, BitVec.getLsbD_not, hb, decide_true, Bool.true_and]
  cases m.getLsbD b <;> simp

theorem bitOf_bitsOf (v hi lo q : Nat) : bitOf (bitsOf v hi lo) q = (decide (q < hi + 1 - lo) && bitOf v (lo + q)) := by
  simp only [bitOf_eq_testBit, bitsOf, Nat.testBit_mod_two_pow, Nat.testBit_div_two_pow, Nat.add_comm]

/-- The bits of two parts put side by side. -/
theorem bitOf_join (hi : Nat) {lo k : Nat} (h : lo < 2 ^ k) (q : Nat) : bitOf (hi * 2 ^ k + lo) q = if q < k then bitOf lo q else bitOf hi (q - k) := by
  simp only [bitOf_eq_testBit, Nat.mul_comm hi, Nat.testBit_two_pow_mul_add _ h]

end Sys2Proof.Machine
end

section
/-! SUPPORT. The release of held outputs (03 R96): what one output leaves of the node, and of the engine at its boundary. -/

namespace Sys2Proof.Machine

open Sys2Proof

/-! ### The boundary after a release -/

/-- An activation once its outputs have gone. -/
def Act.released (a : Act) : Act :=
  { a with outs := [], taken := [], input := none, tx := [], txCells := [], backCells := [], nobuf := 0 }

theorem Node.applyOwner_of_none {n : Node} {e : Nat} (h : (n.eng e).ownerWr = []) : n.applyOwner e = n.setEng e (n.eng e) := by
  have heng (x : Eng) (hx : x.ownerWr = []) : { x with ownerWr := [] } = x := by
    cases x
    cases hx
    rfl
  simp only [Node.applyOwner, heng _ h, h, List.foldl_nil]

theorem Node.codeCheck_of_sound {n : Node} (e : Nat) (h : n.poison = []) : n.codeCheck e = n := by
  simp [Node.codeCheck, h]

/-- With no owner write held and no error in memory, the boundary makes the engine idle and continues a capture. -/
theorem Node.boundary_eq {n : Node} {e : Nat} (a : Act) (ho : (n.eng e).ownerWr = []) (hp : n.poison = []) :
    n.boundary e a = (n.setEng e { n.eng e with phase := .idle, act := a }).captureAt e := by
  have howner : ((n.setEng e { n.eng e with phase := .idle, act := a }).eng e).ownerWr = [] := by rw [Node.eng_setEng_same, ho]
  rw [Node.boundary, Node.applyOwner_of_none howner, Node.eng_setEng_same, Node.setEng_setEng]
  exact congrArg (Node.captureAt · e) (Node.codeCheck_of_sound e hp)

/-- The release of an activation that holds no input, no cells and no owner write: its outputs, then the boundary. -/
theorem Node.releaseAll_eq {n : Node} {e : Nat} (hu : Unladen n e) (hphase : (n.eng e).phase = .releasing) (hnobuf : (n.eng e).act.nobuf = 0) :
    n.releaseAll e = ((n.eng e).act.outs.foldl (Node.releaseOne e (n.eng e).act.ep) n).boundary e (n.eng e).act.released := by
  obtain ⟨htaken, htx, hback, -⟩ := hu
  have hgo : ¬ (n.eng e).phase ≠ .releasing := by simp [hphase]
  simp only [Node.releaseAll, if_neg hgo, hnobuf, htaken, htx, hback]
  rfl

/-- Where the outputs leave `m`, with no owner write held and no error, the command leaves `m` with the engine idle. -/
theorem leaves_of_outputs {s : State} {e : Nat} {m : Node} (he : e < 18) (hfits : s.node.fits) (hu : Unladen s.node e)
    (hphase : (s.node.eng e).phase = .releasing) (hnobuf : (s.node.eng e).act.nobuf = 0)
    (hm : (s.node.eng e).act.outs.foldl (Node.releaseOne e (s.node.eng e).act.ep) s.node = m)
    (howner : (m.eng e).ownerWr = []) (hp : m.poison = []) (hl : m.level = s.node.level) (ha : m.allowed = s.node.allowed) :
    Leaves (.outputRelease e) s ((m.setEng e { m.eng e with phase := .idle, act := (s.node.eng e).act.released }).captureAt e) := by
  have hexec : exec (.outputRelease e) s = s.to (s.node.releaseAll e) := congrArg s.to (if_pos (by omega))
  rw [Node.releaseAll_eq hu hphase hnobuf, hm, Node.boundary_eq _ howner hp] at hexec
  obtain ⟨c, w, l, h⟩ := (m.setEng e { m.eng e with phase := .idle, act := (s.node.eng e).act.released }).captureAt_only e
  refine Leaves.of_to hexec ?_ ?_ hfits
  · rw [h]
    exact hl
  · rw [h]
    exact ha

/-- An output that changes memory only. -/
theorem leaves_of_memory {s : State} {e : Nat} {mem : List Host.Cell} (he : e < 18) (hfits : s.node.fits) (hu : Unladen s.node e)
    (hphase : (s.node.eng e).phase = .releasing) (hnobuf : (s.node.eng e).act.nobuf = 0) (hp : s.node.poison = [])
    (hm : (s.node.eng e).act.outs.foldl (Node.releaseOne e (s.node.eng e).act.ep) s.node = { s.node with mem := mem }) :
    Leaves (.outputRelease e) s
      (({ s.node with mem := mem }.setEng e { s.node.eng e with phase := .idle, act := (s.node.eng e).act.released }).captureAt e) :=
  leaves_of_outputs he hfits hu hphase hnobuf hm hu.owner hp rfl rfl

/-! ### Tables -/

/-- A write of a table word is of that word's eight bytes. -/
theorem Node.entryInsert_own {n : Node} {d : TabDef} (hnum : 12 < d.num) (hp : n.poison = []) (sh : Bool) (i key : Nat) (ws : List Nat) :
    n.entryInsert d sh i key ws = { n with
      mem :=
        let m := wr64 (wordsWritten n.mem (d.dataW sh i) d.n fun j => ws.getD j 0) (tabAddr (d.dataW sh i - 1)) (key % 2 ^ d.kw)
        wr64 m (tabAddr (d.ctlW sh i)) (setBit (rd64 m (tabAddr (d.ctlW sh i))) (i % 8) true) } := by
  unfold Node.entryInsert
  dsimp only
  have h := Node.entryWrite_own hnum hp sh i fun j => ws.getD j 0
  rw [entryWords] at h
  rw [h, Node.unpoison_of_sound]
  · rfl
  · exact hp

theorem Node.entryDelete_sound {n : Node} (hp : n.poison = []) (d : TabDef) (sh : Bool) (i : Nat) :
    n.entryDelete d sh i = { n with
      mem :=
        let m := memClear n.mem (tabAddr (d.dataW sh i - 1)) (8 * (d.n + 1))
        wr64 m (tabAddr (d.ctlW sh i)) (setBit (rd64 m (tabAddr (d.ctlW sh i))) (i % 8) false) } := by
  unfold Node.entryDelete
  dsimp only
  rw [Node.unpoison_of_sound]
  · rfl
  · exact hp

/-- In a hash group the control word stands before every entry's key, and the key before its data. -/
theorem TabDef.words_of_hashed {d : TabDef} (h : d.hashed = true) (sh : Bool) (i : Nat) :
    d.ctlW sh i + 1 ≤ d.dataW sh i - 1 ∧ d.dataW sh i = d.dataW sh i - 1 + 1 := by
  simp only [TabDef.ctlW, TabDef.dataW, h, if_true]
  generalize (d.n + 1) * (i % 8) = p
  omega

theorem Node.staleWrite_iff (n : Node) (d : TabDef) (ep : Nat) :
    n.staleWrite d ep = true ↔ d.dbl = true ∧ (ep ≠ n.epoch ∨ n.inGrace = true) := by
  simp [Node.staleWrite]

/-- What a word keeps and takes when one of its bits is set. -/
theorem bitOf_setBit_mod {v i b : Nat} (x : Bool) (hb : b < 64) : bitOf (setBit v i x % 2 ^ 64) b = if b = i then x else bitOf v b := by
  rw [bitOf_eq_testBit, Nat.testBit_mod_two_pow, ← bitOf_eq_testBit, bitOf_setBit]
  simp [hb]

/-- Two parts side by side fill no more than their widths. -/
theorem join_lt {hi lo j k : Nat} (h : hi < 2 ^ j) (hlo : lo < 2 ^ k) : hi * 2 ^ k + lo < 2 ^ (k + j) := by
  calc hi * 2 ^ k + lo < (hi + 1) * 2 ^ k := by rw [Nat.succ_mul]; exact Nat.add_lt_add_left hlo _
    _ ≤ 2 ^ j * 2 ^ k := Nat.mul_le_mul_right _ h
    _ = 2 ^ (k + j) := by rw [Nat.pow_add, Nat.mul_comm]

/-- An owner write of a word at `a`: the whole word, or its upper half; in a status word P stays and reserved bits are zero. -/
theorem bitOf_ownerWord_status {a old v q : Nat} (h : a / 8 % 2 = 1) (hq : q < 64) :
    bitOf (ownerWord a old v) q =
      if q = 62 then bitOf old q
      else bitOf (if a % 8 = 4 then v % 2 ^ 32 * 2 ^ 32 + old % 2 ^ 32 else v % 2 ^ 64) q && decide (q < 48 ∨ 59 ≤ q) := by
  unfold ownerWord
  dsimp only
  generalize (if a % 8 = 4 then v % 2 ^ 32 * 2 ^ 32 + old % 2 ^ 32 else v % 2 ^ 64) = w
  have hw : w % 2 ^ 48 < 2 ^ 59 := Nat.lt_of_lt_of_le (Nat.mod_lt _ (by decide)) (by decide)
  have h61 : bitsOf w 61 59 * 2 ^ 59 + w % 2 ^ 48 < 2 ^ 62 := join_lt (j := 3) (bitsOf_lt w 61 59) hw
  have h62 : bitsOf old 62 62 * 2 ^ 62 + (bitsOf w 61 59 * 2 ^ 59 + w % 2 ^ 48) < 2 ^ 63 := join_lt (j := 1) (bitsOf_lt old 62 62) h61
  rw [if_pos h, Nat.add_assoc (_ * 2 ^ 63 + _), Nat.add_assoc (_ * 2 ^ 63), bitOf_join _ h62, bitOf_join _ h61, bitOf_join _ hw]
  by_cases h63 : q < 63
  · by_cases h62' : q < 62
    · by_cases h59 : q < 59
      · have : ¬ q = 62 := by omega
        rw [if_pos h63, if_pos h62', if_pos h59, if_neg this, bitOf_eq_testBit, Nat.testBit_mod_two_pow, bitOf_eq_testBit, Bool.and_comm]
        congr 1
        simp only [decide_eq_decide]
        omega
      · have : ¬ q = 62 := by omega
        rw [if_pos h63, if_pos h62', if_neg h59, if_neg this, bitOf_bitsOf, show 59 + (q - 59) = q by omega, Bool.and_comm]
        congr 1
        simp only [decide_eq_decide]
        omega
    · obtain rfl : q = 62 := by omega
      simp [bitOf_bitsOf]
  · obtain rfl : q = 63 := by omega
    simp [bitOf_bitsOf]

theorem ownerWord_lt {a old v : Nat} (h : a / 8 % 2 = 1) : ownerWord a old v < 2 ^ 64 := by
  unfold ownerWord
  dsimp only
  generalize (if a % 8 = 4 then v % 2 ^ 32 * 2 ^ 32 + old % 2 ^ 32 else v % 2 ^ 64) = w
  have hw : w % 2 ^ 48 < 2 ^ 59 := Nat.lt_of_lt_of_le (Nat.mod_lt _ (by decide)) (by decide)
  rw [if_pos h, Nat.add_assoc (_ * 2 ^ 63 + _), Nat.add_assoc (_ * 2 ^ 63)]
  exact join_lt (j := 1) (bitsOf_lt w 63 63) (join_lt (j := 1) (bitsOf_lt old 62 62) (join_lt (j := 3) (bitsOf_lt w 61 59) hw))

end Sys2Proof.Machine
end

section
/-! SUPPORT. A frame that goes to one consist port (06 R198-R221; 09 R336, R337): its destination, admission and the queue or launch slot it joins. -/

namespace Sys2Proof.Machine

open Sys2Proof

/-! ### Words of a stream context -/

/-- `n` is `m` but for bytes of memory. -/
def MemOnly (m n : Node) : Prop := ∃ mem, n = { m with mem := mem }

theorem MemOnly.refl (n : Node) : MemOnly n n := ⟨n.mem, rfl⟩

theorem MemOnly.trans {a b c : Node} (h : MemOnly a b) (g : MemOnly b c) : MemOnly a c := by
  obtain ⟨x, rfl⟩ := h
  obtain ⟨y, rfl⟩ := g
  exact ⟨y, rfl⟩

theorem MemOnly.tabHw (n : Node) (t i j v : Nat) : MemOnly n (n.tabHw t i j v) := by
  unfold Node.tabHw
  split
  · exact .refl n
  · split
    · exact ⟨_, rfl⟩
    · exact .refl n

theorem MemOnly.ctxAdd (n : Node) (s j k : Nat) : MemOnly n (n.ctxAdd s j k) := .tabHw n ..

theorem MemOnly.ctxDiscard (n : Node) (s : Nat) : MemOnly n (n.ctxDiscard s) := .tabHw n ..

theorem MemOnly.ctxCounted (n : Node) (c k : Nat) : MemOnly n (n.ctxCounted c k) := (ctxAdd n c 3 1).trans (ctxAdd _ c 4 (k + 4))

theorem Node.word_setWord_ne (n : Node) {w w' : Nat} (v : Nat) (h : w' ≠ w) : (n.setWord w v).word w' = n.word w' :=
  rd64_wr64_outside _ _ _ (by simp only [tabAddr]; omega)

/-- The control word of an entry's hash group stands before its data words. -/
theorem TabDef.ctlW_lt_dataW {d : TabDef} (h : d.hashed = true) (sh : Bool) (i j : Nat) : d.ctlW sh i < d.dataW sh i + j := by
  have := TabDef.words_of_hashed h sh i
  omega

theorem head_map_range (f : Nat → Nat) (k : Nat) : ((List.range k).map f).getD 0 0 = if k = 0 then 0 else f 0 := by
  cases k with
  | zero => rfl
  | succ k => simp [List.range_succ_eq_map]

/-- The first word of an entry reads alike where the table, the errors and the words are alike. -/
theorem Node.tabW_congr {m n : Node} {t i : Nat} {d : TabDef} (hm : m.tab t = some d) (hn : n.tab t = some d)
    (hbad : n.entryBad d false i = m.entryBad d false i)
    (hctl : d.hashed = true → n.word (d.ctlW false i) = m.word (d.ctlW false i))
    (hword : n.word (d.dataW false i) = m.word (d.dataW false i)) : n.tabW t i 0 = m.tabW t i 0 := by
  have hok : n.entryOk d false i = m.entryOk d false i := by
    simp only [Node.entryOk, hbad, Node.used]
    cases hh : d.hashed with
    | false => simp only [Bool.not_false, Bool.true_or]
    | true => rw [hctl hh]
  have hdata : (n.entryData d false i).getD 0 0 = (m.entryData d false i).getD 0 0 := by
    have hnot : ¬ (d.num = 3 ∧ 0 = 1) := fun h => absurd h.2 (by decide)
    unfold Node.entryData
    rw [head_map_range, head_map_range, if_neg hnot, if_neg hnot, Nat.add_zero, hword]
  simp only [Node.tabW, Node.tabRead, hm, hn, hok]
  split
  · exact hdata
  · rfl

/-- A write of another word of an entry leaves what word 0 reads as. -/
theorem Node.tabW_tabHw (n : Node) (t i v : Nat) {j : Nat} (h : j ≠ 0) : (n.tabHw t i j v).tabW t i 0 = n.tabW t i 0 := by
  cases htab : n.tab t with
  | none => simp only [Node.tabHw, htab]
  | some d =>
    by_cases hin : j < d.n ∧ i < d.entries
    · have heq : n.tabHw t i j v = n.setWord (d.dataW false i + j) (v % 2 ^ 64) := by
        simp only [Node.tabHw, htab, if_pos hin]
      rw [heq]
      refine Node.tabW_congr htab htab rfl (fun hh => n.word_setWord_ne _ ?_) (n.word_setWord_ne _ (by omega))
      exact Nat.ne_of_lt (TabDef.ctlW_lt_dataW hh false i j)
    · simp only [Node.tabHw, htab, if_neg hin]

theorem Node.ctxValid_ctxCounted (n : Node) (c k : Nat) : (n.ctxCounted c k).ctxValid c = n.ctxValid c := by
  unfold Node.ctxValid Node.ctxCounted Node.ctxAdd
  rw [Node.tabW_tabHw _ _ _ _ (by decide), Node.tabW_tabHw _ _ _ _ (by decide)]

/-! ### One consist port -/

theorem portsOf_eq {w q : Nat} (hq : q < 20) (h : ∀ p, p < 23 → bitOf w p = (p == q)) : portsOf w = [q] := by
  have hone : portsOf w = (List.range 23).filter (fun p => p == q) :=
    List.filter_congr fun p hp => h p (List.mem_range.mp hp)
  rw [hone, List.filter_beq, List.count_range, if_pos (by omega)]
  rfl

/-- LINES concerns backbone ports only. -/
theorem Node.linesSet_of_consist (n : Node) (train : Bool) (lines : Nat) {q : Nat} (h : 4 ≤ q) : n.linesSet train lines [q] = [q] := by
  have hq : decide (q < 4) = false := decide_eq_false (by omega)
  have hq' : decide (4 ≤ q) = true := decide_eq_true h
  unfold Node.linesSet
  simp [hq, hq']

/-- Only ingress, size and length of the path decide over a plain frame's way. -/
theorem PlainTo.destinations {m : Node} {f g : Frame} {c q : Nat} (h : PlainTo m f c q) (hi : g.ingress = f.ingress)
    (hs : g.oversize = f.oversize) : m.destinations g c = (some [q], m) := by
  obtain ⟨-, hdirect, ⟨h4, h20, hport⟩, hing, hsize, hlink, ⟨hlevel, hforw⟩, -, -, -⟩ := h
  have hkind : m.kindSet g c = some [q] := by
    unfold Node.kindSet
    simp only [hdirect, if_true, portsOf_eq h20 hport]
  have hne : (q != g.ingress) = true := by
    rw [hi]
    exact bne_iff_ne.mpr (Ne.symm hing)
  have hset : m.destSet g c [q] = [q] := by
    have hbar : m.barred q = false := by simp [Node.barred]; omega
    have hserved : m.served q = true := by simp [Node.served, hforw, hlevel]
    unfold Node.destSet
    simp only [List.filter_cons, hne, if_true, List.filter_nil, m.linesSet_of_consist _ _ h4, hbar, hlink, hserved, Bool.not_false, Bool.and_self]
  have heng : decide (22 ∈ [q]) = false := by simp; omega
  unfold Node.destinations
  simp only [hdirect, hkind, Option.getD_some, hset, heng, Bool.false_and, hs, hsize, List.isEmpty_cons, Bool.false_eq_true, if_false,
    show ¬ 0 = 3 by decide]

theorem PlainTo.admits {m : Node} {f : Frame} {c q : Nat} (h : PlainTo m f c q) :
    m.admission [q] (bitsOf (m.tabW 1 c 0) 62 60) m.freeCells = ([q], m) := by
  simp only [Node.admission, List.filter_cons, h.room, if_true, List.filter_nil, List.length_cons, List.length_nil]
  rfl

theorem PlainTo.polices {m : Node} {f : Frame} {c q : Nat} (h : PlainTo m f c q) (len : Nat) : m.police c len = (true, m) := by
  simp only [Node.police, h.police, Bool.not_false, if_true]

theorem PlainTo.recovers {m : Node} {f : Frame} {c q : Nat} (h : PlainTo m f c q) (r : Option Nat) (i : Nat) :
    m.recover c r i = (true, m) := if_pos h.recovery

/-! ### One copy queued -/

/-- The copy that is queued: with the sequence number its context generates. -/
def Node.sent (n : Node) (c : Copy) : Copy := if n.ract c.stream == 1 then { c with gseq := some (n.tabW 1 c.stream 2 % 65536) } else c

theorem Node.sent_keeps (n : Node) (c : Copy) : (n.sent c).fid = c.fid ∧ (n.sent c).stream = c.stream ∧ (n.sent c).cls = c.cls ∧
    (n.sent c).launch = c.launch := by
  unfold Node.sent
  split <;> exact ⟨rfl, rfl, rfl, rfl⟩

theorem Node.enqueue_eq {n m : Node} {c : Copy} {q : Nat} {ok : Bool} (hq : q ≠ 22) (h : n.putCopy q (n.sent c) = (ok, m)) :
    n.enqueue c [q] = if ok then
        let gen := n.ract c.stream == 1
        let w2 := n.tabW 1 c.stream 2
        let k := m.ctxAdd c.stream 5 1
        let k := if gen then k.tabHw 1 c.stream 2 (w2 / 65536 * 65536 + (w2 % 65536 + 1) % 65536) else k
        (1, k.setFrame c.fid { k.frame c.fid with
          refs := (k.frame c.fid).refs + 1, left := FMap.upd 0 (k.frame c.fid).left c.stream (· + 1) })
      else (0, m) := by
  have h22 : decide (22 ∈ [q]) = false := by simp; omega
  obtain ⟨hfid, hstream, -, -⟩ := n.sent_keeps c
  unfold Node.enqueue
  have hsent : (if (n.ract c.stream == 1) = true then { c with gseq := some (n.tabW 1 c.stream 2 % 65536) } else c) = n.sent c := rfl
  simp only [List.foldl_cons, List.foldl_nil, hsent, h, h22, Bool.false_and, Bool.false_eq_true, if_false, hfid, hstream]
  cases ok <;> rfl

/-- One more hold on a frame, and bytes of memory. -/
def Node.heldOnce (m : Node) (mem : List Host.Cell) (fid : Nat) (l : FMap Nat) : Node :=
  { m with mem := mem }.setFrame fid { m.frame fid with refs := (m.frame fid).refs + 1, left := l }

/-- A copy queued: one more hold on its frame, and words of its context counted. -/
theorem Node.enqueue_stored {n m : Node} {c : Copy} {q : Nat} (hq : q ≠ 22) (h : n.putCopy q (n.sent c) = (true, m)) :
    ∃ mem l, n.enqueue c [q] = (1, m.heldOnce mem c.fid l) := by
  have hmem (k : Node) (gen : Bool) (v : Nat) : MemOnly m (if gen then (m.ctxAdd c.stream 5 1).tabHw 1 c.stream 2 v else m.ctxAdd c.stream 5 1) := by
    cases gen
    · exact .ctxAdd m ..
    · exact (MemOnly.ctxAdd m ..).trans (.tabHw _ ..)
  rw [Node.enqueue_eq hq h, if_pos rfl]
  dsimp only
  obtain ⟨mem, hm⟩ := hmem m (n.ract c.stream == 1) (n.tabW 1 c.stream 2 / 65536 * 65536 + (n.tabW 1 c.stream 2 % 65536 + 1) % 65536)
  rw [hm]
  exact ⟨mem, _, rfl⟩

theorem Node.enqueue_lost {n m : Node} {c : Copy} {q : Nat} (hq : q ≠ 22) (h : n.putCopy q (n.sent c) = (false, m)) :
    n.enqueue c [q] = (0, m) := by
  rw [Node.enqueue_eq hq h]
  rfl

theorem Node.putCopy_consist {n : Node} {q : Nat} {c : Copy} (h : q < 20) (hl : c.launch = none) : n.putCopy q c = (true, n.toEgress q c) := by
  simp only [Node.putCopy, show ¬ q = 22 by omega, show ¬ q = 20 by omega, if_false, hl]

theorem Node.putCopy_launch {n : Node} {q t : Nat} {c : Copy} (h : q < 20) (hl : c.launch = some t) : n.putCopy q c =
    if n.tooFar t then (false, n.inc (F.TIM_LAUNCHERR_FAR q))
    else if 64 ≤ (FMap.get [] n.fab.launches q).length then (false, n.inc (F.TIM_LAUNCHERR_NOSLOT q)) else (true, n.toLaunch q c) := by
  simp only [Node.putCopy, show ¬ q = 22 by omega, show ¬ q = 20 by omega, if_false, hl, h, if_true]

/-! ### Entry of a closed frame, and forwarding of a held one -/

/-- The frame a closed one is stored as. -/
def Node.stores (m : Node) (f : Frame) (c : Nat) : Node :=
  { m with fab := { m.fab with nextFid := m.fab.nextFid + 1 } }.setFrame m.fab.nextFid
    { f with stream := c, cls := bitsOf (m.tabW 1 c 0) 62 60, refs := 0 }

/-- A closed frame that has its cells and goes to one consist port is stored and queued. -/
theorem Node.enterEngine_plain {n : Node} {f : Frame} {c q : Nat} (launch : Option Nat) (hb : n.isBridge f.data = false)
    (hcells : cellsFor f.data.length ≤ f.cells.length) (h : PlainTo (n.ctxCounted c f.data.length) f c q) :
    n.enterEngine f c launch =
      let m := n.ctxCounted c f.data.length
      let r := (m.stores f c).enqueue
        { fid := m.fab.nextFid, stream := c, cls := bitsOf (m.tabW 1 c 0) 62 60, stamp := f.stamp, launch := launch } [q]
      if r.1 = 0 then (r.2.ctxDiscard c).dropRef m.fab.nextFid else r.2 := by
  have hvalid : n.ctxValid c = true := by rw [← h.valid, Node.ctxValid_ctxCounted]
  have hmore : cellsFor f.data.length - f.cells.length = 0 := by omega
  have hdest := h.destinations (g := { f with stream := c, cls := bitsOf ((n.ctxCounted c f.data.length).tabW 1 c 0) 62 60 }) rfl rfl
  have hadm := h.admits
  have hpol := h.polices (f.data.length + 4)
  have hrec := h.recovers f.rseq f.ingress
  unfold Node.enterEngine
  rw [if_neg (by simp [hb]), if_neg (by simp [hvalid])]
  simp only [Node.ctxCounted] at hdest hadm hpol hrec ⊢
  simp only [hdest, hadm, hpol, hrec, hmore, Node.takeCells, List.append_nil, List.isEmpty_cons, Bool.false_eq_true, if_false, Nat.not_lt_zero,
    Nat.lt_irrefl, false_and, and_false, false_or, Bool.not_true]
  rfl

/-- A held input that goes to one consist port is queued once more. -/
theorem Node.forward_plain {n : Node} {fid c q stamp : Nat} (hb : n.isBridge (n.frame fid).data = false)
    (h : PlainTo (n.ctxCounted c (n.frame fid).data.length) (n.frame fid) c q) :
    n.forward fid c stamp =
      let m := n.ctxCounted c (n.frame fid).data.length
      let r := m.enqueue { fid := fid, stream := c, cls := bitsOf (m.tabW 1 c 0) 62 60, stamp := stamp } [q]
      if r.1 = 0 then r.2.ctxDiscard c else r.2 := by
  have hvalid : n.ctxValid c = true := by rw [← h.valid, Node.ctxValid_ctxCounted]
  have hdest := h.destinations (g := { n.frame fid with stamp := stamp }) rfl rfl
  have hadm := h.admits
  have hpol := h.polices ((n.frame fid).data.length + 4)
  have hrec := h.recovers (n.frame fid).rseq (n.frame fid).ingress
  unfold Node.forward
  rw [if_neg (by simp [hb]), if_neg (by simp [hvalid])]
  simp only [Node.ctxCounted] at hdest hadm hpol hrec ⊢
  simp only [hdest, hadm, hpol, hrec, List.isEmpty_cons, Bool.false_eq_true, if_false, Bool.not_true]
  rfl

end Sys2Proof.Machine
end

section
/-! SUPPORT. What the fabric, the topology engine's frames and a step of the time leave of the engines: everything. -/

namespace Sys2Proof.Machine

open Sys2Proof

/-- A fold of steps that keep the engines keeps them. -/
theorem foldl_engs {α : Type} {g : Node → α → Node} (h : ∀ n x, (g n x).engs = n.engs) (l : List α) :
    ∀ n : Node, (l.foldl g n).engs = n.engs := by
  induction l with
  | nil => exact fun _ => rfl
  | cons x l ih => exact fun n => (ih _).trans (h n x)

/-- The node of an answer, taken from the equation that names it. -/
theorem snd_engs {α : Type} {x : α × Node} {a : α} {n m : Node} (h : x = (a, m)) (hx : x.2.engs = n.engs) : m.engs = n.engs := by
  rw [← hx, h]

/-! ### Tables, counts and cells -/

@[simp] theorem Node.setWord_engs (n : Node) (w v : Nat) : (n.setWord w v).engs = n.engs := rfl

@[simp] theorem Node.unpoison_engs (n : Node) (ws : List Nat) : (n.unpoison ws).engs = n.engs := rfl

@[simp] theorem Node.tabHw_engs (n : Node) (t i j v : Nat) : (n.tabHw t i j v).engs = n.engs := by
  obtain ⟨m, h⟩ := MemOnly.tabHw n t i j v
  rw [h]

@[simp] theorem Node.ctxAdd_engs (n : Node) (s j k : Nat) : (n.ctxAdd s j k).engs = n.engs := n.tabHw_engs ..

@[simp] theorem Node.ctxDiscard_engs (n : Node) (s : Nat) : (n.ctxDiscard s).engs = n.engs := n.tabHw_engs ..

@[simp] theorem Node.ctxPoliced_engs (n : Node) (s : Nat) : (n.ctxPoliced s).engs = n.engs := n.tabHw_engs ..

@[simp] theorem Node.disc_engs (n : Node) (k : Nat) : (n.disc k).engs = n.engs := rfl

@[simp] theorem Node.pviol_engs (n : Node) (k arg : Nat) : (n.pviol k arg).engs = n.engs := by
  unfold Node.pviol
  dsimp only
  split
  · rw [Node.fault_engs, Node.inc_engs]
  · rw [Node.inc_engs]

@[simp] theorem Node.returnCells_engs (n : Node) (l : List Nat) : (n.returnCells l).engs = n.engs :=
  (Hands.returnCells (fun _ => False) n l).engs

@[simp] theorem Node.dropRef_engs (n : Node) (fid : Nat) : (n.dropRef fid).engs = n.engs := (Hands.dropRef n fid).engs

@[simp] theorem Node.pfcUpd_engs (n : Node) (p : Nat) : (n.pfcUpd p).engs = n.engs := (Hands.of_tells (Tells.pfcUpd n p)).engs

@[simp] theorem Node.takeCells_engs (k : Nat) : ∀ n : Node, (Node.takeCells k n).2.engs = n.engs := by
  induction k with
  | zero => exact fun _ => rfl
  | succ k ih =>
    intro n
    unfold Node.takeCells Node.takeCell
    dsimp only
    by_cases h : (n.serviceBanks.filter fun b => decide (0 < (n.bank b).free)).isEmpty = true
    · rw [if_pos h]
    · rw [if_neg h]
      exact ih _

@[simp] theorem Node.bounce_engs (n : Node) (k : Nat) : (n.bounce k).engs = n.engs := by
  rw [Node.bounce, Node.returnCells_engs, Node.takeCells_engs]

/-! ### A frame through the fabric -/

@[simp] theorem Node.pdFail_engs (n : Node) (r : PdResult) (i : Nat) : (n.pdFail r i).engs = n.engs := by
  unfold Node.pdFail
  rw [Node.pviol_engs]
  split <;> rfl

@[simp] theorem Node.pdAccept_engs (n : Node) (d q s : Nat) : (n.pdAccept d q s).engs = n.engs := rfl

@[simp] theorem Node.setEngQueue_engs (n : Node) (t q : Nat) (l : List Copy) : (n.setEngQueue t q l).engs = n.engs := rfl

@[simp] theorem Node.putCopy_engs (n : Node) (p : Nat) (c : Copy) : (n.putCopy p c).2.engs = n.engs := by
  unfold Node.putCopy
  dsimp only
  split
  · split
    · exact n.disc_engs 9
    · split
      · split
        · rw [Node.setEngQueue_engs, Node.pdAccept_engs]
        · exact n.pdFail_engs ..
      · rfl
  · split
    · rfl
    · split
      · split
        · split
          · rfl
          · split <;> rfl
        · rfl
      · rfl

/-- A copy for each destination. -/
theorem foldl_putCopy_engs (c : Copy) (set : List Nat) : ∀ a : Nat × Node,
    (set.foldl (fun (a : Nat × Node) p =>
      let (ok, m) := a.2.putCopy p c
      if ok then (a.1 + 1, m) else (a.1, m)) a).2.engs = a.2.engs := by
  induction set with
  | nil => exact fun _ => rfl
  | cons p set ih =>
    intro a
    rw [List.foldl_cons, ih]
    dsimp only
    split <;> exact a.2.putCopy_engs p c

@[simp] theorem Node.enqueue_engs (n : Node) (c : Copy) (set : List Nat) : (n.enqueue c set).2.engs = n.engs := by
  have hcopies := fun d => foldl_putCopy_engs d set (0, n)
  unfold Node.enqueue
  dsimp only at hcopies
  simp only [apply_ite Prod.snd, apply_ite Node.engs, Node.setFrame_engs, Node.tabHw_engs, Node.ctxAdd_engs, Node.ctxDiscard_engs, ite_self,
    hcopies]

@[simp] theorem Node.destinations_engs (n : Node) (f : Frame) (s : Nat) : (n.destinations f s).2.engs = n.engs := by
  unfold Node.destinations
  dsimp only
  simp only [apply_ite Prod.snd, apply_ite Node.engs, Node.ctxDiscard_engs, Node.disc_engs, ite_self]

@[simp] theorem Node.admission_engs (n : Node) (set : List Nat) (c free : Nat) : (n.admission set c free).2.engs = n.engs :=
  foldl_engs (fun m _ => m.disc_engs 3) _ n

@[simp] theorem Node.police_engs (n : Node) (s len : Nat) : (n.police s len).2.engs = n.engs := by
  unfold Node.police
  dsimp only
  split
  · rfl
  · split <;> rfl

@[simp] theorem Node.recover_engs (n : Node) (s : Nat) (r : Option Nat) (i : Nat) : (n.recover s r i).2.engs = n.engs := by
  unfold Node.recover
  dsimp only
  split
  · rfl
  · split
    · exact n.tabHw_engs ..
    · simp only [apply_ite Prod.snd, apply_ite Node.engs, Node.tabHw_engs, Node.pviol_engs, ite_self]

@[simp] theorem Node.enter_engs (n : Node) (f : Frame) (len s : Nat) (launch : Option Nat) : (n.enter f len s launch).2.engs = n.engs := by
  obtain ⟨⟨o, m⟩, hd⟩ : ∃ r, ((n.ctxAdd s 3 1).ctxAdd s 4 len).destinations
      { f with stream := s, cls := bitsOf (((n.ctxAdd s 3 1).ctxAdd s 4 len).tabW 1 s 0) 62 60 } s = r := ⟨_, rfl⟩
  unfold Node.enter
  split
  · rw [Node.bounce_engs, Node.disc_engs]
  · dsimp only
    have hm := snd_engs hd (Node.destinations_engs ..)
    rw [Node.ctxAdd_engs, Node.ctxAdd_engs] at hm
    cases o with
    | none => simp only [hd, Node.bounce_engs, hm]
    | some set =>
      simp only [hd, apply_ite Prod.snd, apply_ite Node.engs, Node.ctxDiscard_engs, Node.disc_engs, Node.bounce_engs, Node.ctxPoliced_engs,
        Node.dropRef_engs, Node.pfcUpd_engs, Node.enqueue_engs, Node.setFrame_engs, Node.takeCells_engs, Node.recover_engs,
        Node.police_engs, Node.admission_engs, hm, ite_self]

@[simp] theorem Node.closeP22_engs (n : Node) (b : List Byte) : (n.closeP22 b).engs = n.engs := by
  unfold Node.closeP22
  dsimp only
  split
  · rfl
  · rw [Node.enter_engs]

/-! ### Frames of the node's own -/

@[simp] theorem Node.txCount_engs (n : Node) {p : Nat} (b : List Byte) : (n.txCount p b).engs = n.engs := by
  have hadd (m : Node) (i k : Nat) : (m.cntAdd p i k).engs = m.engs := by
    unfold Node.cntAdd
    dsimp only
    split
    · rfl
    · split
      · rfl
      · split <;> rfl
  simp only [Node.txCount, hadd]

@[simp] theorem Node.ownSend_engs (n : Node) (p : Nat) (o : OwnFrame) : (n.ownSend p o).engs = n.engs := by
  unfold Node.ownSend
  split
  · rfl
  · split
    · unfold Node.ownNow
      split <;> rw [Node.txCount_engs, Node.emit_engs]
    · rfl

@[simp] theorem Node.topoFlood_engs (n : Node) (h : List Byte) : (n.topoFlood h).engs = n.engs := by
  have hgrams (m : Node) : (m.topoGrams h).engs = m.engs := by
    unfold Node.topoGrams
    split
    · exact foldl_engs (fun a p => a.closeP22_engs _) _ m
    · rfl
  have hsend (m : Node) (p : Nat) : (m.topoSend p h).engs = m.engs := by
    unfold Node.topoSend
    split
    · exact m.ownSend_engs ..
    · rfl
  rw [Node.topoFlood, hgrams, foldl_engs hsend]

@[simp] theorem Node.phase_engs (n : Node) (v : Nat) : (n.phase v).engs = n.engs := rfl

@[simp] theorem Node.idlePhase_engs (n : Node) : n.idlePhase.engs = n.engs := rfl

@[simp] theorem Node.sendBlocks_engs (n : Node) (agree : Bool) (q : Nat) (b : List Byte) : (n.sendBlocks agree q b).engs = n.engs := by
  obtain ⟨l, h⟩ := n.sendBlocks_only agree q b
  rw [h]

@[simp] theorem Node.agreeCancel_engs (n : Node) : n.agreeCancel.engs = n.engs := by
  unfold Node.agreeCancel
  split
  · exact n.sendBlocks_engs ..
  · rfl

@[simp] theorem Node.dropRound_engs (n : Node) (cause : Nat) : (n.dropRound cause).engs = n.engs := by
  unfold Node.dropRound
  simp only [apply_ite Node.engs, Node.fault_engs, Node.put_engs, Node.phase_engs, Node.idlePhase_engs, Node.wr_engs,
    Node.agreeCancel_engs, ite_self]

@[simp] theorem Node.sendAbort_engs (n : Node) (cause : Nat) : (n.sendAbort cause).engs = n.engs := by
  simp only [Node.sendAbort, Node.dropRound_engs, Node.wr_engs, Node.topoFlood_engs]

/-! ### The topology engine's outputs -/

@[simp] theorem Node.agree0_engs (n : Node) (epoch : Nat) : (n.agree0 epoch).engs = n.engs := by
  unfold Node.agree0
  dsimp only
  split
  · exact n.topoFlood_engs _
  · split <;> simp only [Node.sendAbort_engs, Node.topoFlood_engs, apply_ite Node.engs, Node.phase_engs, ite_self]

@[simp] theorem Node.agree1_engs (n : Node) (epoch : Nat) : (n.agree1 epoch).engs = n.engs := by
  unfold Node.agree1
  dsimp only
  split <;> simp only [Node.topoFlood_engs, apply_ite Node.engs, Node.phase_engs, ite_self]

@[simp] theorem Node.directoryWrite_engs (n : Node) : n.directoryWrite.engs = n.engs := by
  unfold Node.directoryWrite
  split
  · unfold Node.writeDirectory
    split
    · rfl
    · dsimp only
      generalize List.range 64 = places
      generalize List.range 8 = words
      generalize List.map _ (List.range 512) = cleared
      rw [Node.unpoison_engs]
      exact foldl_engs (fun a p => foldl_engs (fun b w => b.setWord_engs ..) words a) places _
  · rfl

@[simp] theorem Node.scheduleCommit_engs (n : Node) (epoch sec ns : Nat) : (n.scheduleCommit epoch sec ns).engs = n.engs := by
  unfold Node.scheduleCommit
  dsimp only
  split <;> split <;> (try rw [Node.sendAgree, Node.sendBlocks_engs]) <;> rw [Node.directoryWrite_engs, Node.phase_engs, Node.wrs_engs]

@[simp] theorem Node.cancelCommit_engs (n : Node) : n.cancelCommit.engs = n.engs := by
  unfold Node.cancelCommit
  simp only [apply_ite Node.engs, Node.phase_engs, Node.idlePhase_engs, Node.agreeCancel_engs, ite_self]

@[simp] theorem Node.refreshReport_engs (n : Node) : n.refreshReport.engs = n.engs := by
  unfold Node.refreshReport
  simp only [apply_ite Node.engs, Node.topoFlood_engs, ite_self]

@[simp] theorem Node.startRound_engs (n : Node) : n.startRound.engs = n.engs := by
  unfold Node.startRound
  simp only [apply_ite Node.engs, Node.refreshReport_engs, Node.phase_engs, Node.put_engs, ite_self]

@[simp] theorem Node.newEpoch_engs (n : Node) : n.newEpoch.engs = n.engs := by
  unfold Node.newEpoch
  simp only [apply_ite Node.engs, Node.startRound_engs, Node.inc_engs, ite_self]

@[simp] theorem Node.step_engs (n : Node) (d : Int) : (n.step d).engs = n.engs := by
  have hsync (m : Node) (p : Nat) : (m.sendSync p).engs = m.engs := by
    unfold Node.sendSync Node.sendPtp
    simp only [apply_ite Node.engs, Node.ownSend_engs, Node.setPtp_engs, ite_self]
  unfold Node.step
  rw [foldl_engs hsync]
  rfl

@[simp] theorem Node.acceptStep_engs (n : Node) : n.acceptStep.2.engs = n.engs := by
  unfold Node.acceptStep
  split
  · rfl
  · simp only [Node.step_engs, Node.releaseStep, Node.wrs_engs]

end Sys2Proof.Machine
end

section
/-! What the release of an activation's outputs leaves at its boundary (03 R96; 04 R139-R151; 02 R56): O20. -/

namespace Sys2Proof.Machine

open Sys2Proof

/-! ### A frame on its way to one consist port -/

theorem Node.sent_eq_copyOf (m : Node) (fid c stamp : Nat) (launch : Option Nat) :
    m.sent { fid := fid, stream := c, cls := bitsOf (m.tabW 1 c 0) 62 60, stamp := stamp, launch := launch } = m.copyOf fid c stamp launch := by
  unfold Node.sent Node.copyOf
  by_cases h : m.ract c = 1 <;> simp [h]

theorem Node.stores_sent (m : Node) (f : Frame) (c fid stamp : Nat) (launch : Option Nat) :
    (m.stores f c).sent { fid := fid, stream := c, cls := bitsOf (m.tabW 1 c 0) 62 60, stamp := stamp, launch := launch } =
      m.copyOf fid c stamp launch := m.sent_eq_copyOf fid c stamp launch

theorem Node.stores_frame (m : Node) (f : Frame) (c : Nat) :
    (m.stores f c).frame m.fab.nextFid = { f with stream := c, cls := bitsOf (m.tabW 1 c 0) 62 60, refs := 0 } :=
  Node.frame_setFrame_same ..

variable {n : Node} {f : Frame} {c q : Nat}

/-- The fabric once a closed frame is stored under one hold. -/
def Fab.storing (b : Fab) (f : Frame) (c cls : Nat) (l : FMap Nat) : Fab :=
  { b with nextFid := b.nextFid + 1, frames := FMap.put {} b.frames b.nextFid { f with stream := c, cls := cls, refs := 1, left := l } }

/-- A stored frame whose one copy has joined a class queue. -/
theorem Node.heldOnce_toEgress (m : Node) (f : Frame) (c q : Nat) (x : Copy) (mem : List Host.Cell) (l : FMap Nat) :
    ((m.stores f c).toEgress q x).heldOnce mem m.fab.nextFid l = { m with
      mem := mem
      fab := { m.fab.storing f c (bitsOf (m.tabW 1 c 0) 62 60) l with egress := FMap.upd [] m.fab.egress (q * 8 + x.cls) (· ++ [x]) } } := by
  have h : ((m.stores f c).toEgress q x).frame m.fab.nextFid = _ := m.stores_frame f c
  rw [Node.heldOnce, h]
  simp only [Node.setFrame, Node.toEgress, Node.stores, Fab.storing, FMap.put_put, Nat.zero_add]

/-- A stored frame whose one copy has taken a launch slot. -/
theorem Node.heldOnce_toLaunch (m : Node) (f : Frame) (c q : Nat) (x : Copy) (mem : List Host.Cell) (l : FMap Nat) :
    ((m.stores f c).toLaunch q x).heldOnce mem m.fab.nextFid l = { m with
      mem := mem
      fab := { m.fab.storing f c (bitsOf (m.tabW 1 c 0) 62 60) l with
        launches := FMap.upd [] m.fab.launches q (· ++ [{ x with soon := decide (x.launch.getD 0 < m.clock.now + 2000 * nsU) }]) } } := by
  have h : ((m.stores f c).toLaunch q x).frame m.fab.nextFid = _ := m.stores_frame f c
  rw [Node.heldOnce, h]
  simp only [Node.setFrame, Node.toLaunch, Node.stores, Fab.storing, FMap.put_put, Nat.zero_add]
  rfl

/-- A closed frame whose copy is queued somewhere. -/
theorem Node.enterEngine_queued {k : Node} (launch : Option Nat) (hb : n.isBridge f.data = false)
    (hcells : cellsFor f.data.length ≤ f.cells.length) (h : PlainTo (n.ctxCounted c f.data.length) f c q)
    (hput : ((n.ctxCounted c f.data.length).stores f c).putCopy q
      ((n.ctxCounted c f.data.length).copyOf (n.ctxCounted c f.data.length).fab.nextFid c f.stamp launch) = (true, k)) :
    ∃ mem l, n.enterEngine f c launch = k.heldOnce mem (n.ctxCounted c f.data.length).fab.nextFid l := by
  have hq := h.port.2.1
  rw [← Node.stores_sent] at hput
  obtain ⟨mem, l, henq⟩ := Node.enqueue_stored (by omega) hput
  refine ⟨mem, l, ?_⟩
  rw [Node.enterEngine_plain launch hb hcells h]
  dsimp only
  rw [henq]
  exact if_neg Nat.one_ne_zero

/-- A frame closed by EMIT joins its class queue. -/
theorem Node.enterEngine_emit (hb : n.isBridge f.data = false) (hcells : cellsFor f.data.length ≤ f.cells.length)
    (h : PlainTo (n.ctxCounted c f.data.length) f c q) : ∃ mem l,
    n.enterEngine f c none =
      let m := n.ctxCounted c f.data.length
      let cls := bitsOf (m.tabW 1 c 0) 62 60
      { n with mem := mem, fab := { n.fab.storing f c cls l with
        egress := FMap.upd [] n.fab.egress (q * 8 + cls) (· ++ [m.copyOf n.fab.nextFid c f.stamp none]) } } := by
  obtain ⟨mem, l, heq⟩ := Node.enterEngine_queued none hb hcells h (Node.putCopy_consist h.port.2.1 rfl)
  refine ⟨mem, l, ?_⟩
  rw [heq, Node.heldOnce_toEgress]
  obtain ⟨mem', hm⟩ := MemOnly.ctxCounted n c f.data.length
  have hfab : (n.ctxCounted c f.data.length).fab = n.fab := by rw [hm]
  rw [hfab]
  dsimp only
  generalize hx : (n.ctxCounted c f.data.length).copyOf n.fab.nextFid c f.stamp none = x
  have hcls : x.cls = bitsOf ((n.ctxCounted c f.data.length).tabW 1 c 0) 62 60 := by rw [← hx]; rfl
  rw [hcls]
  generalize bitsOf ((n.ctxCounted c f.data.length).tabW 1 c 0) 62 60 = cls
  rw [hm]

/-- A frame closed by LAUNCH for a time within reach takes a launch slot. -/
theorem Node.enterEngine_launch {t : Nat} (hb : n.isBridge f.data = false) (hcells : cellsFor f.data.length ≤ f.cells.length)
    (h : PlainTo (n.ctxCounted c f.data.length) f c q) (ht : t ≤ n.clock.now + secU) (hroom : (FMap.get [] n.fab.launches q).length < 64) :
    ∃ mem l, n.enterEngine f c (some t) =
      let m := n.ctxCounted c f.data.length
      let cls := bitsOf (m.tabW 1 c 0) 62 60
      { n with mem := mem, fab := { n.fab.storing f c cls l with
        launches := FMap.upd [] n.fab.launches q
          (· ++ [{ m.copyOf n.fab.nextFid c f.stamp (some t) with soon := decide (t < n.clock.now + 2000 * nsU) }]) } } := by
  obtain ⟨mem', hm⟩ := MemOnly.ctxCounted n c f.data.length
  have hfab : (n.ctxCounted c f.data.length).fab = n.fab := by rw [hm]
  have hclock : (n.ctxCounted c f.data.length).clock = n.clock := by rw [hm]
  have hput := Node.putCopy_launch (n := (n.ctxCounted c f.data.length).stores f c)
    (c := (n.ctxCounted c f.data.length).copyOf (n.ctxCounted c f.data.length).fab.nextFid c f.stamp (some t)) h.port.2.1 rfl
  have hfar : ((n.ctxCounted c f.data.length).stores f c).tooFar t = false := by
    show decide ((n.ctxCounted c f.data.length).clock.now + secU < t) = false
    rw [hclock]
    exact decide_eq_false (by omega)
  have hslots : ¬ 64 ≤ (FMap.get [] ((n.ctxCounted c f.data.length).stores f c).fab.launches q).length := by
    show ¬ 64 ≤ (FMap.get [] (n.ctxCounted c f.data.length).fab.launches q).length
    rw [hfab]
    omega
  rw [hfar, if_neg (by decide), if_neg hslots] at hput
  obtain ⟨mem, l, heq⟩ := Node.enterEngine_queued (some t) hb hcells h hput
  refine ⟨mem, l, ?_⟩
  rw [heq, Node.heldOnce_toLaunch, hfab, hclock]
  dsimp only
  generalize hx : (n.ctxCounted c f.data.length).copyOf n.fab.nextFid c f.stamp (some t) = x
  have hlaunch : x.launch = some t := by rw [← hx]; rfl
  rw [hlaunch]
  generalize bitsOf ((n.ctxCounted c f.data.length).tabW 1 c 0) 62 60 = cls
  rw [hm]
  rfl

/-- A frame closed by LAUNCH for a time out of reach is counted, and let go. -/
theorem Node.enterEngine_far {t : Nat} (hb : n.isBridge f.data = false) (hcells : cellsFor f.data.length ≤ f.cells.length)
    (h : PlainTo (n.ctxCounted c f.data.length) f c q) (ht : n.clock.now + secU < t) : ∃ mem g, g.cells = f.cells ∧ g.refs = 0 ∧
    n.enterEngine f c (some t) = ({ n with
      mem := mem
      fab := { n.fab with nextFid := n.fab.nextFid + 1, frames := FMap.put {} n.fab.frames n.fab.nextFid g } }.inc
        (F.TIM_LAUNCHERR_FAR q)).dropRef n.fab.nextFid := by
  obtain ⟨mem', hm⟩ := MemOnly.ctxCounted n c f.data.length
  have hclock : (n.ctxCounted c f.data.length).clock = n.clock := by rw [hm]
  have hput := Node.putCopy_launch (n := (n.ctxCounted c f.data.length).stores f c)
    (c := (n.ctxCounted c f.data.length).copyOf (n.ctxCounted c f.data.length).fab.nextFid c f.stamp (some t)) h.port.2.1 rfl
  have hfar : ((n.ctxCounted c f.data.length).stores f c).tooFar t = true := by
    show decide ((n.ctxCounted c f.data.length).clock.now + secU < t) = true
    rw [hclock]
    exact decide_eq_true ht
  have hq := h.port.2.1
  rw [hfar, if_pos rfl, ← Node.stores_sent] at hput
  have henq := Node.enqueue_lost (by omega) hput
  rw [Node.enterEngine_plain (some t) hb hcells h]
  dsimp only
  rw [henq, if_pos rfl]
  dsimp only
  obtain ⟨mem, hd⟩ := MemOnly.ctxDiscard (((n.ctxCounted c f.data.length).stores f c).inc (F.TIM_LAUNCHERR_FAR q)) c
  refine ⟨mem, { f with stream := c, cls := bitsOf ((n.ctxCounted c f.data.length).tabW 1 c 0) 62 60, refs := 0 }, rfl, rfl, ?_⟩
  rw [hd, Node.stores]
  generalize bitsOf ((n.ctxCounted c f.data.length).tabW 1 c 0) 62 60 = cls
  rw [hm]
  rfl

/-- A held input forwarded joins its class queue under one more hold. -/
theorem Node.forward_queued {fid stamp : Nat} (hb : n.isBridge (n.frame fid).data = false)
    (h : PlainTo (n.ctxCounted c (n.frame fid).data.length) (n.frame fid) c q) : ∃ mem l,
    n.forward fid c stamp =
      let m := n.ctxCounted c (n.frame fid).data.length
      let cls := bitsOf (m.tabW 1 c 0) 62 60
      { n with mem := mem, fab := { n.fab with
        frames := FMap.put {} n.fab.frames fid { n.frame fid with refs := (n.frame fid).refs + 1, left := l }
        egress := FMap.upd [] n.fab.egress (q * 8 + cls) (· ++ [m.copyOf fid c stamp none]) } } := by
  have hq := h.port.2.1
  have hput := Node.putCopy_consist (n := n.ctxCounted c (n.frame fid).data.length)
    (c := (n.ctxCounted c (n.frame fid).data.length).copyOf fid c stamp none) hq rfl
  rw [← Node.sent_eq_copyOf] at hput
  obtain ⟨mem, l, henq⟩ := Node.enqueue_stored (by omega) hput
  refine ⟨mem, l, ?_⟩
  rw [Node.forward_plain hb h]
  dsimp only
  rw [henq, Node.sent_eq_copyOf]
  refine (if_neg Nat.one_ne_zero).trans ?_
  obtain ⟨mem', hm⟩ := MemOnly.ctxCounted n c (n.frame fid).data.length
  generalize hx : (n.ctxCounted c (n.frame fid).data.length).copyOf fid c stamp none = x
  have hcls : x.cls = bitsOf ((n.ctxCounted c (n.frame fid).data.length).tabW 1 c 0) 62 60 := by rw [← hx]; rfl
  rw [Node.heldOnce, Node.toEgress, hcls]
  generalize bitsOf ((n.ctxCounted c (n.frame fid).data.length).tabW 1 c 0) 62 60 = cls
  rw [hm]
  rfl

/-! ### What the command yields -/

variable {s : State} {e : Nat}

/-- A plain way depends on a frame's ingress and length only. -/
theorem PlainTo.congr {m : Node} {f g : Frame} {c q : Nat} (h : PlainTo m f c q) (hi : g.ingress = f.ingress) (hs : g.oversize = f.oversize) :
    PlainTo m g c q :=
  ⟨h.valid, h.direct, h.port, hi ▸ h.ingress, hs ▸ h.size, h.link, h.serves, h.room, h.police, h.recovery⟩

/-- Where the outputs leave `m` but for the engines, the command leaves the fabric and the registers of `m`, and the engine idle. -/
theorem yields_of_outputs {m : Node} (he : e < 18) (hfits : s.node.fits) (hu : Unladen s.node e)
    (hphase : (s.node.eng e).phase = .releasing) (hnobuf : (s.node.eng e).act.nobuf = 0)
    (hm : (s.node.eng e).act.outs.foldl (Node.releaseOne e (s.node.eng e).act.ep) s.node = m)
    (hengs : m.engs = s.node.engs) (hp : m.poison = []) (hl : m.level = s.node.level) (ha : m.allowed = s.node.allowed) :
    Yields (.outputRelease e) s (fun n => n.fab = m.fab ∧
      n.eng e = { s.node.eng e with phase := .idle, act := (s.node.eng e).act.released } ∧
      ∀ f : Fld, f.key ∉ followKeys → n.rd f = m.rd f) := by
  have heng : m.eng e = s.node.eng e := by rw [Node.eng, hengs, Node.eng]
  have howner : (m.eng e).ownerWr = [] := by rw [heng, hu.owner]
  refine Yields.imp (leaves_of_outputs he hfits hu hphase hnobuf hm howner hp hl ha) fun n hn => ?_
  obtain ⟨c, w, l, hcap⟩ := (m.setEng e { m.eng e with phase := .idle, act := (s.node.eng e).act.released }).captureAt_only e
  refine ⟨?_, ?_, fun f hf => ?_⟩
  · rw [hn.fab, hcap]
    rfl
  · rw [Node.eng, hn.engs, hcap]
    show Node.eng (m.setEng e _) e = _
    rw [Node.eng_setEng_same, heng]
  · rw [hn.rd f hf, hcap]
    rfl

/-- An output of the topology engine takes its effect at the boundary. -/
theorem settles_of_topo {m : Node} {h : Held} (hu : Unladen s.node 18) (hphase : (s.node.eng 18).phase = .releasing)
    (hnobuf : (s.node.eng 18).act.nobuf = 0) (houts : (s.node.eng 18).act.outs = [h])
    (hm : Node.releaseOne 18 (s.node.eng 18).act.ep s.node h = m) (hengs : m.engs = s.node.engs) (hp : m.poison = []) :
    Settles (.outputRelease 18) s
      ((m.setEng 18 { m.eng 18 with phase := .idle, act := (s.node.eng 18).act.released }).captureAt 18) := by
  have howner : (m.eng 18).ownerWr = [] := by rw [Node.eng, hengs]; exact hu.owner
  have hexec : exec (.outputRelease 18) s = s.to (s.node.releaseAll 18) := congrArg s.to (if_pos (by omega))
  rw [Node.releaseAll_eq hu hphase hnobuf, houts, List.foldl_cons, List.foldl_nil, hm, Node.boundary_eq _ howner hp] at hexec
  exact Settles.of_to hexec

/-- A write of a table discarded at release is counted. -/
theorem leaves_of_dropWrite (he : e < 18) (hfits : s.node.fits) (hu : Unladen s.node e)
    (hphase : (s.node.eng e).phase = .releasing) (hnobuf : (s.node.eng e).act.nobuf = 0) (hp : s.node.poison = [])
    (hm : (s.node.eng e).act.outs.foldl (Node.releaseOne e (s.node.eng e).act.ep) s.node = s.node.dropWrite e) :
    Leaves (.outputRelease e) s
      (((s.node.wr (F.SC_DROPS_STALE_WR e) (min (s.node.rd (F.SC_DROPS_STALE_WR e) + 1) (2 ^ 16 - 1))).setEng e
        { s.node.eng e with phase := .idle, act := (s.node.eng e).act.released }).captureAt e) :=
  leaves_of_outputs he hfits hu hphase hnobuf hm hu.owner hp rfl
    (Node.allowed_inc _ _ (not_levelKey_engine (e := e) (by simp only [F.SC_DROPS_STALE_WR]; omega)))

/-- The status word an STS writes. -/
theorem status_lt (ok sat : Bool) {rng : Nat} (h : rng < 4) (fresh : Nat) :
    (b2n ok * 2 ^ 63 + rng * 2 ^ 60 + b2n sat * 2 ^ 59 + fresh % 2 ^ 48) % 2 ^ 64 =
      (if ok then 2 ^ 63 else 0) + rng * 2 ^ 60 + (if sat then 2 ^ 59 else 0) + fresh % 2 ^ 48 := by
  have hlow : fresh % 2 ^ 48 < 2 ^ 48 := Nat.mod_lt _ (by decide)
  generalize fresh % 2 ^ 48 = low at hlow
  cases ok <;> cases sat <;> simp only [b2n, if_true, if_false, Bool.false_eq_true] <;> omega

/-! ### O20 -/

theorem release_one {n : Node} {e : Nat} {h : Held} (houts : (n.eng e).act.outs = [h]) :
    (n.eng e).act.outs.foldl (Node.releaseOne e (n.eng e).act.ep) n = Node.releaseOne e (n.eng e).act.ep n h := by
  rw [houts]
  rfl

section Outputs

variable (he : e < 18) (hfits : s.node.fits) (hu : Unladen s.node e) (hphase : (s.node.eng e).phase = .releasing)
  (hnobuf : (s.node.eng e).act.nobuf = 0) (hp : s.node.poison = [])

/-- The engine at its boundary. -/
def Eng.idled (x : Eng) : Eng := { x with phase := .idle, act := x.act.released }

include he hfits hu hphase hnobuf hp

theorem release_sts {slot rng : Nat} {v : W64} {ok sat : Bool} (h : (s.node.eng e).act.outs = [.sts slot v ok rng sat]) (hrng : rng < 4) :
    let ad := sigBase e + 16 * slot
    let st := (if ok then 2 ^ 63 else 0) + rng * 2 ^ 60 + (if sat then 2 ^ 59 else 0) + s.node.clock.fresh % 2 ^ 48
    ∃ mem, Leaves (.outputRelease e) s (({ s.node with mem := mem }.setEng e (s.node.eng e).idled).captureAt e) ∧
      rd64 mem ad = v.toNat ∧ rd64 mem (ad + 8) = st ∧ ∀ a, a < ad ∨ ad + 16 ≤ a → memRead mem a = memRead s.node.mem a := by
  intro ad st
  refine ⟨_, leaves_of_memory he hfits hu hphase hnobuf hp (release_one h), ?_, ?_, fun a ha => ?_⟩
  · rw [rd64_wr64_outside _ _ _ (Or.inl (Nat.le_refl _)), rd64_wr64_same, Nat.mod_eq_of_lt v.isLt]
  · rw [rd64_wr64_same, status_lt ok sat hrng]
  · rw [memRead_wr64_outside _ _ _ (by omega), memRead_wr64_outside _ _ _ (by omega)]

theorem release_mbox {off m v : Nat} (h : (s.node.eng e).act.outs = [.mbox [(off, m, v)]]) (hm : m < 256) (hv : v < 256) :
    ∃ mem, Leaves (.outputRelease e) s (({ s.node with mem := mem }.setEng e (s.node.eng e).idled).captureAt e) ∧
      (∀ b, b < 8 → bitOf (memRead mem (mboxBase e + off)).toNat b =
        if bitOf m b then bitOf v b else bitOf (memRead s.node.mem (mboxBase e + off)).toNat b) ∧
      ∀ a, a ≠ mboxBase e + off → memRead mem a = memRead s.node.mem a := by
  refine ⟨_, leaves_of_memory he hfits hu hphase hnobuf hp (release_one h), fun b hb => ?_, fun a ha => ?_⟩
  · have hbyte := memRead_memWrite_inside s.node.mem (mboxBase e + off)
      [BitVec.ofNat 8 (overlay (memRead s.node.mem (mboxBase e + off)).toNat m v)] 0 (by simp)
    rw [Nat.add_zero] at hbyte
    show bitOf (memRead (memWrite _ _ _) _).toNat b = _
    rw [hbyte]
    exact bitOf_overlay _ hm hv hb
  · refine memRead_memWrite_outside _ _ _ _ ?_
    simp only [List.length_cons, List.length_nil]
    omega

theorem release_signal_none {target flag : Nat} (h : (s.node.eng e).act.outs = [.signal target flag]) (ht : target < 16)
    (hnone : s.node.boundEng target = none) : Leaves (.outputRelease e) s ((s.node.setEng e (s.node.eng e).idled).captureAt e) := by
  refine leaves_of_outputs he hfits hu hphase hnobuf ((release_one h).trans ?_) hu.owner hp rfl rfl
  simp only [Node.releaseOne, Node.releaseSignal, show ¬ target = 31 by omega, show ¬ target = 16 by omega, if_false, hnone]

theorem release_signal {target flag k : Nat} (h : (s.node.eng e).act.outs = [.signal target flag])
    (ht : (if target = 31 then some e else if target = 16 then some 18 else s.node.boundEng target) = some k) :
    Leaves (.outputRelease e) s (((s.node.setEng k { s.node.eng k with flags := setBit (s.node.eng k).flags flag true }).setEng e
      { (s.node.setEng k { s.node.eng k with flags := setBit (s.node.eng k).flags flag true }).eng e with
        phase := .idle, act := (s.node.eng e).act.released }).captureAt e) := by
  refine leaves_of_outputs he hfits hu hphase hnobuf ((release_one h).trans ?_) ?_ hp rfl rfl
  · simp only [Node.releaseOne, Node.releaseSignal, ht]
  · by_cases hke : e = k
    · rw [← hke, Node.eng_setEng_same]
      exact hu.owner
    · rw [Node.eng_setEng_ne _ _ hke]
      exact hu.owner

theorem release_tblWr {t i : Nat} {ws : List Nat} {d : TabDef} (h : (s.node.eng e).act.outs = [.tblWr t i ws])
    (htab : s.node.tab t = some d) (hnum : d.num = t) (ht : 12 < t)
    (hgo : d.dbl = false ∨ ((s.node.eng e).act.ep = s.node.epoch ∧ s.node.inGrace = false)) :
    ∃ mem, Leaves (.outputRelease e) s (({ s.node with mem := mem }.setEng e (s.node.eng e).idled).captureAt e) ∧
      (∀ j, j < d.n → rd64 mem (tabAddr (d.dataW d.dbl i + j)) = ws.getD j 0 % 2 ^ 64) ∧
      ∀ a, a < tabAddr (d.dataW d.dbl i) ∨ tabAddr (d.dataW d.dbl i + d.n) ≤ a → memRead mem a = memRead s.node.mem a := by
  have hfresh : s.node.staleWrite d (s.node.eng e).act.ep = false := by
    rcases hgo with hd | ⟨hep, hg⟩
    · simp [Node.staleWrite, hd]
    · simp [Node.staleWrite, hep, hg]
  have hout := (release_one h).trans (show Node.releaseOne e (s.node.eng e).act.ep s.node (.tblWr t i ws) =
      { s.node with mem := wordsWritten s.node.mem (d.dataW d.dbl i) d.n fun j => ws.getD j 0 } by
    simp only [Node.releaseOne, Node.releaseTbl, htab, hfresh, Bool.false_eq_true, if_false]
    exact Node.entryWrite_own (by omega) hp d.dbl i fun j => ws.getD j 0)
  exact ⟨_, leaves_of_memory he hfits hu hphase hnobuf hp hout, fun j hj => rd64_wordsWritten _ _ _ hj,
    fun a ha => memRead_wordsWritten_outside _ _ _ _ ha⟩

theorem release_tblWr_stale {t i : Nat} {ws : List Nat} {d : TabDef} (h : (s.node.eng e).act.outs = [.tblWr t i ws])
    (htab : s.node.tab t = some d) (hd : d.dbl = true) (hstale : (s.node.eng e).act.ep ≠ s.node.epoch ∨ s.node.inGrace = true) :
    Leaves (.outputRelease e) s (((s.node.wr (F.SC_DROPS_STALE_WR e) (min (s.node.rd (F.SC_DROPS_STALE_WR e) + 1) (2 ^ 16 - 1))).setEng e
      (s.node.eng e).idled).captureAt e) := by
  have hs : s.node.staleWrite d (s.node.eng e).act.ep = true := (Node.staleWrite_iff ..).mpr ⟨hd, hstale⟩
  refine leaves_of_dropWrite he hfits hu hphase hnobuf hp ((release_one h).trans ?_)
  simp only [Node.releaseOne, Node.releaseTbl, htab, hs, if_true]

theorem release_tblIns_used {t i key : Nat} {ws : List Nat} {d : TabDef} (h : (s.node.eng e).act.outs = [.tblIns t i key ws])
    (htab : s.node.tab t = some d) (hd : d.dbl = false) (hused : s.node.used d false i = true) :
    Leaves (.outputRelease e) s (((s.node.wr (F.SC_DROPS_STALE_WR e) (min (s.node.rd (F.SC_DROPS_STALE_WR e) + 1) (2 ^ 16 - 1))).setEng e
      (s.node.eng e).idled).captureAt e) := by
  refine leaves_of_dropWrite he hfits hu hphase hnobuf hp ((release_one h).trans ?_)
  simp only [Node.releaseOne, Node.releaseTbl, htab, TabDef.wview, hd, hused, or_true, if_true]

theorem release_tblIns {t i key : Nat} {ws : List Nat} {d : TabDef} (h : (s.node.eng e).act.outs = [.tblIns t i key ws])
    (htab : s.node.tab t = some d) (hnum : d.num = t) (ht : 12 < t) (hh : d.hashed = true) (hd : d.dbl = false)
    (hfree : s.node.used d false i = false) :
    ∃ mem, Leaves (.outputRelease e) s (({ s.node with mem := mem }.setEng e (s.node.eng e).idled).captureAt e) ∧
      rd64 mem (tabAddr (d.dataW false i - 1)) = key % 2 ^ d.kw % 2 ^ 64 ∧
      (∀ j, j < d.n → rd64 mem (tabAddr (d.dataW false i + j)) = ws.getD j 0 % 2 ^ 64) ∧
      (∀ b, b < 64 → bitOf (rd64 mem (tabAddr (d.ctlW false i))) b = (b == i % 8 || bitOf (rd64 s.node.mem (tabAddr (d.ctlW false i))) b)) ∧
      ∀ a, a < tabAddr (d.dataW false i - 1) ∨ tabAddr (d.dataW false i + d.n) ≤ a →
        a < tabAddr (d.ctlW false i) ∨ tabAddr (d.ctlW false i + 1) ≤ a → memRead mem a = memRead s.node.mem a := by
  have hfresh : ¬ (s.node.staleWrite d (s.node.eng e).act.ep = true ∨ s.node.used d false i = true) := by
    simp [Node.staleWrite, hd, hfree]
  have hout := (release_one h).trans (show Node.releaseOne e (s.node.eng e).act.ep s.node (.tblIns t i key ws) = _ by
    simp only [Node.releaseOne, Node.releaseTbl, htab, TabDef.wview, hd, if_neg hfresh]
    exact Node.entryInsert_own (by omega) hp false i key ws)
  obtain ⟨hctl, hdata⟩ := TabDef.words_of_hashed hh false i
  generalize hw : d.dataW false i - 1 = w at hctl hdata hout ⊢
  generalize d.ctlW false i = ctl at hctl hout ⊢
  rw [hdata] at hout ⊢
  refine ⟨_, leaves_of_memory he hfits hu hphase hnobuf hp hout, ?_, fun j hj => ?_, fun b hb => ?_, fun a ha hc => ?_⟩
  · rw [rd64_wr64_outside _ _ _ (by simp only [tabAddr]; omega), rd64_wr64_same]
  · rw [rd64_wr64_outside _ _ _ (by simp only [tabAddr]; omega), rd64_wr64_outside _ _ _ (by simp only [tabAddr]; omega),
      rd64_wordsWritten _ _ _ hj]
  · rw [rd64_wr64_same, bitOf_setBit_mod _ hb, rd64_wr64_outside _ _ _ (by simp only [tabAddr]; omega),
      rd64_wordsWritten_outside _ _ _ _ (by simp only [tabAddr]; omega)]
    by_cases hbi : b = i % 8 <;> simp [hbi]
  · simp only [tabAddr] at ha hc
    rw [memRead_wr64_outside _ _ _ (by simp only [tabAddr]; omega), memRead_wr64_outside _ _ _ (by simp only [tabAddr]; omega),
      memRead_wordsWritten_outside _ _ _ _ (by simp only [tabAddr]; omega)]

theorem release_tblDel {t i : Nat} {d : TabDef} (h : (s.node.eng e).act.outs = [.tblDel t i])
    (htab : s.node.tab t = some d) (hh : d.hashed = true) (hd : d.dbl = false) :
    ∃ mem, Leaves (.outputRelease e) s (({ s.node with mem := mem }.setEng e (s.node.eng e).idled).captureAt e) ∧
      (∀ a, tabAddr (d.dataW false i - 1) ≤ a → a < tabAddr (d.dataW false i + d.n) → memRead mem a = 0) ∧
      (∀ b, b < 64 → bitOf (rd64 mem (tabAddr (d.ctlW false i))) b = (b != i % 8 && bitOf (rd64 s.node.mem (tabAddr (d.ctlW false i))) b)) ∧
      ∀ a, a < tabAddr (d.dataW false i - 1) ∨ tabAddr (d.dataW false i + d.n) ≤ a →
        a < tabAddr (d.ctlW false i) ∨ tabAddr (d.ctlW false i + 1) ≤ a → memRead mem a = memRead s.node.mem a := by
  have hfresh : ¬ s.node.staleWrite d (s.node.eng e).act.ep = true := by simp [Node.staleWrite, hd]
  have hout := (release_one h).trans (show Node.releaseOne e (s.node.eng e).act.ep s.node (.tblDel t i) = _ by
    simp only [Node.releaseOne, Node.releaseTbl, htab, TabDef.wview, hd, if_neg hfresh]
    exact Node.entryDelete_sound hp d false i)
  obtain ⟨hctl, hdata⟩ := TabDef.words_of_hashed hh false i
  generalize hw : d.dataW false i - 1 = w at hctl hdata hout ⊢
  generalize d.ctlW false i = ctl at hctl hout ⊢
  rw [hdata]
  refine ⟨_, leaves_of_memory he hfits hu hphase hnobuf hp hout, fun a ha hb => ?_, fun b hb => ?_, fun a ha hc => ?_⟩
  · simp only [tabAddr] at ha hb
    rw [memRead_wr64_outside _ _ _ (by simp only [tabAddr]; omega)]
    exact memRead_memClear_inside _ (by simp only [tabAddr]; omega) (by simp only [tabAddr]; omega)
  · have hkeep : rd64 (memClear s.node.mem (tabAddr w) (8 * (d.n + 1))) (tabAddr ctl) = rd64 s.node.mem (tabAddr ctl) :=
      rd64_congr fun x h1 h2 => memRead_memClear_outside _ _ _ _ (by simp only [tabAddr] at h1 h2 ⊢; omega)
    rw [rd64_wr64_same, bitOf_setBit_mod _ hb, hkeep]
    by_cases hbi : b = i % 8 <;> simp [hbi]
  · simp only [tabAddr] at ha hc
    rw [memRead_wr64_outside _ _ _ (by simp only [tabAddr]; omega), memRead_memClear_outside _ _ _ _ (by simp only [tabAddr]; omega)]

end Outputs

end Sys2Proof.Machine
end

section
/-! What frames, topology outputs and owner writes leave at the boundary, and with them O20. -/

namespace Sys2Proof.Machine

open Sys2Proof

variable {s : State} {e : Nat}

section Frames

variable (he : e < 18) (hfits : s.node.fits) (hu : Unladen s.node e) (hphase : (s.node.eng e).phase = .releasing)
  (hnobuf : (s.node.eng e).act.nobuf = 0) (hp : s.node.poison = [])

/-- What a program's frame enters the fabric as. -/
def TxClosed.entering (f : TxClosed) (ep : Nat) : Frame := { data := f.data, ingress := 22, stamp := ep, cells := f.cells }

/-- A frame for Ethernet without process data enters as it is. -/
theorem releaseFrame_plain {n : Node} {ep : Nat} {f : TxClosed} (hdest : byteAt f.hdr 2 = 0) (hpd : bitOf (byteAt f.hdr 3) 0 = false)
    (hbad : f.bad = false) : n.releaseFrame ep f = n.enterEngine (f.entering ep) (leAt f.hdr 4 2) f.launch := by
  simp only [Node.releaseFrame, hbad, hdest, hpd, Bool.false_eq_true, if_false, show ¬ (0 : Nat) = 1 by decide, show ¬ (0 : Nat) = 2 by decide]
  rfl

/-- What stays of a stored frame. -/
def KeptFrame (n : Node) (fid : Nat) (f : TxClosed) (ep : Nat) : Prop :=
  (n.frame fid).data = f.data ∧ (n.frame fid).cells = f.cells ∧ (n.frame fid).refs = 1 ∧ (n.frame fid).stamp = ep ∧ n.fab.nextFid = fid + 1

theorem keptFrame_of_storing {n : Node} {b : Fab} {f : TxClosed} {ep c cls : Nat} {l : FMap Nat}
    (hframes : n.fab.frames = (b.storing (f.entering ep) c cls l).frames) (hnext : n.fab.nextFid = b.nextFid + 1) :
    KeptFrame n b.nextFid f ep := by
  have h : n.frame b.nextFid = { f.entering ep with stream := c, cls := cls, refs := 1, left := l } := by
    rw [Node.frame, hframes]
    exact FMap.get_put_same ..
  rw [KeptFrame, h]
  exact ⟨rfl, rfl, rfl, rfl, hnext⟩

include he hfits hu hphase hnobuf hp

theorem release_emit {f : TxClosed} {q : Nat} (h : (s.node.eng e).act.outs = [.frame f]) (hdest : byteAt f.hdr 2 = 0)
    (hpd : bitOf (byteAt f.hdr 3) 0 = false) (hb : s.node.isBridge f.data = false) (hbad : f.bad = false)
    (hcells : cellsFor f.data.length ≤ f.cells.length)
    (hplain : PlainTo (s.node.ctxCounted (leAt f.hdr 4 2) f.data.length) { ingress := 22 } (leAt f.hdr 4 2) q) (hl : f.launch = none) :
    let c := leAt f.hdr 4 2
    let m := s.node.ctxCounted c f.data.length
    let cls := bitsOf (m.tabW 1 c 0) 62 60
    Yields (.outputRelease e) s (fun n => KeptFrame n s.node.fab.nextFid f (s.node.eng e).act.ep ∧ n.eng e = (s.node.eng e).idled ∧
      n.egQueue q cls = s.node.egQueue q cls ++ [m.copyOf s.node.fab.nextFid c (s.node.eng e).act.ep none] ∧
      (∀ p k, p * 8 + k ≠ q * 8 + cls → n.egQueue p k = s.node.egQueue p k)) := by
  intro c m cls
  obtain ⟨mem, l, henter⟩ := Node.enterEngine_emit (n := s.node) (f := f.entering (s.node.eng e).act.ep) hb hcells (hplain.congr rfl rfl)
  have hout := (release_one h).trans ((releaseFrame_plain hdest hpd hbad).trans ((congrArg _ hl).trans henter))
  refine Yields.imp (yields_of_outputs he hfits hu hphase hnobuf hout rfl hp rfl rfl) fun n hn => ?_
  obtain ⟨hfab, heng, -⟩ := hn
  refine ⟨keptFrame_of_storing (by rw [hfab]) (by rw [hfab]; rfl), heng, ?_, fun p k hpk => ?_⟩
  · rw [Node.egQueue, hfab]
    exact FMap.get_put_same ..
  · rw [Node.egQueue, hfab]
    exact FMap.get_put_ne _ _ _ _ hpk

theorem release_launch {f : TxClosed} {q t : Nat} (h : (s.node.eng e).act.outs = [.frame f]) (hdest : byteAt f.hdr 2 = 0)
    (hpd : bitOf (byteAt f.hdr 3) 0 = false) (hb : s.node.isBridge f.data = false) (hbad : f.bad = false)
    (hcells : cellsFor f.data.length ≤ f.cells.length)
    (hplain : PlainTo (s.node.ctxCounted (leAt f.hdr 4 2) f.data.length) { ingress := 22 } (leAt f.hdr 4 2) q)
    (hl : f.launch = some t) (ht : t ≤ s.node.clock.now + secU) (hroom : (FMap.get [] s.node.fab.launches q).length < 64) :
    let c := leAt f.hdr 4 2
    let m := s.node.ctxCounted c f.data.length
    Yields (.outputRelease e) s (fun n => KeptFrame n s.node.fab.nextFid f (s.node.eng e).act.ep ∧ n.eng e = (s.node.eng e).idled ∧
      n.fab.egress = s.node.fab.egress ∧ FMap.get [] n.fab.launches q = FMap.get [] s.node.fab.launches q ++
        [{ m.copyOf s.node.fab.nextFid c (s.node.eng e).act.ep (some t) with soon := decide (t < s.node.clock.now + 2000 * nsU) }]) := by
  intro c m
  obtain ⟨mem, l, henter⟩ := Node.enterEngine_launch (n := s.node) (f := f.entering (s.node.eng e).act.ep) hb hcells
    (hplain.congr rfl rfl) ht hroom
  have hout := (release_one h).trans ((releaseFrame_plain hdest hpd hbad).trans ((congrArg _ hl).trans henter))
  refine Yields.imp (yields_of_outputs he hfits hu hphase hnobuf hout rfl hp rfl rfl) fun n hn => ?_
  obtain ⟨hfab, heng, -⟩ := hn
  refine ⟨keptFrame_of_storing (by rw [hfab]) (by rw [hfab]; rfl), heng, ?_, ?_⟩
  · rw [hfab]
    rfl
  · rw [hfab]
    exact FMap.get_put_same ..

theorem release_far {f : TxClosed} {q t : Nat} (h : (s.node.eng e).act.outs = [.frame f]) (hdest : byteAt f.hdr 2 = 0)
    (hpd : bitOf (byteAt f.hdr 3) 0 = false) (hb : s.node.isBridge f.data = false) (hbad : f.bad = false)
    (hcells : cellsFor f.data.length ≤ f.cells.length)
    (hplain : PlainTo (s.node.ctxCounted (leAt f.hdr 4 2) f.data.length) { ingress := 22 } (leAt f.hdr 4 2) q)
    (hl : f.launch = some t) (ht : s.node.clock.now + secU < t) :
    Yields (.outputRelease e) s (fun n => n.eng e = (s.node.eng e).idled ∧
      n.fab.egress = s.node.fab.egress ∧ n.fab.launches = s.node.fab.launches ∧ n.frame s.node.fab.nextFid = {} ∧
      CellsBack s.node n f.cells ∧
      n.rd (F.TIM_LAUNCHERR_FAR q) = min (s.node.rd (F.TIM_LAUNCHERR_FAR q) + 1) (2 ^ (F.TIM_LAUNCHERR_FAR q).w - 1)) := by
  have hq := hplain.port.2.1
  obtain ⟨mem, g, hcell, hrefs, henter⟩ := Node.enterEngine_far (n := s.node) (f := f.entering (s.node.eng e).act.ep) hb hcells
    (hplain.congr rfl rfl) ht
  generalize hk : ({ s.node with
      mem := mem
      fab := { s.node.fab with nextFid := s.node.fab.nextFid + 1, frames := FMap.put {} s.node.fab.frames s.node.fab.nextFid g } } :
    Node).inc (F.TIM_LAUNCHERR_FAR q) = k at henter
  have hout := (release_one h).trans ((releaseFrame_plain hdest hpd hbad).trans ((congrArg _ hl).trans henter))
  have hhands := Hands.dropRef k s.node.fab.nextFid
  have hgone := Node.dropRef_last (n := k) (fid := s.node.fab.nextFid)
  have hframe : k.frame s.node.fab.nextFid = g := by
    rw [← hk]
    exact FMap.get_put_same ..
  rw [hframe, hrefs, hcell] at hgone
  obtain ⟨hfid, -, hback⟩ := hgone (Nat.zero_le 1)
  have hkrd (x : Fld) (hx : x.key ≠ (F.TIM_LAUNCHERR_FAR q).key) : k.rd x = s.node.rd x := by
    rw [← hk, Node.rd_inc_ne _ hx]
    rfl
  have hportFar : ¬ PortKey (F.TIM_LAUNCHERR_FAR q).key := fun hport => by
    have := hport.1
    simp only [F.TIM_LAUNCHERR_FAR] at this
    omega
  have hbankFar (b : Nat) : (F.FAB_BANK_STATE b).key ≠ (F.TIM_LAUNCHERR_FAR q).key := by
    simp only [F.FAB_BANK_STATE, F.TIM_LAUNCHERR_FAR]
    omega
  have hlevelFar : (F.TIM_LAUNCHERR_FAR q).key ∉ levelKeys := fun hin => by
    have hwhole : ∀ k ∈ levelKeys, k % 32 = 0 → k < 32 * 0x10100200 := by decide
    have := hwhole _ hin (by simp only [F.TIM_LAUNCHERR_FAR]; omega)
    simp only [F.TIM_LAUNCHERR_FAR] at this
    omega
  have hallowed : (k.dropRef s.node.fab.nextFid).allowed = s.node.allowed := by
    rw [(hhands.sameLevelInputs not_levelKey_of_portKey).allowed, ← hk, Node.allowed_inc _ _ hlevelFar]
    rfl
  refine Yields.imp (yields_of_outputs he hfits hu hphase hnobuf hout (hhands.engs.trans (by rw [← hk]; rfl))
    (hhands.poison.trans (by rw [← hk]; exact hp)) (hhands.level.trans (by rw [← hk]; rfl)) hallowed) fun n hn => ?_
  obtain ⟨hfab, heng, hrd⟩ := hn
  obtain ⟨hegress, hlaunch, -, -⟩ := hhands.queues
  refine ⟨heng, ?_, ?_, ?_, ?_, ?_⟩
  · rw [hfab, hegress, ← hk]
    rfl
  · rw [hfab, hlaunch, ← hk]
    rfl
  · rw [Node.frame, hfab]
    exact hfid
  · refine hback.congr (fun b => ?_) (fun b => ?_) (fun b => ?_)
    · exact hkrd _ (hbankFar b)
    · rw [← hk]
      rfl
    · rw [Node.bank, hfab, Node.bank]
  · rw [hrd _ (not_followKey_mid (by simp only [F.TIM_LAUNCHERR_FAR]; omega) (by simp only [F.TIM_LAUNCHERR_FAR]; omega)),
      hhands.rd _ hportFar, ← hk, Node.rd_inc_same]
    rfl

theorem release_forward {fid c q : Nat} (h : (s.node.eng e).act.outs = [.forward fid c])
    (hb : s.node.isBridge (s.node.frame fid).data = false)
    (hplain : PlainTo (s.node.ctxCounted c (s.node.frame fid).data.length) (s.node.frame fid) c q) :
    let f := s.node.frame fid
    let m := s.node.ctxCounted c f.data.length
    let cls := bitsOf (m.tabW 1 c 0) 62 60
    Yields (.outputRelease e) s (fun n =>
      (n.frame fid).refs = f.refs + 1 ∧ (n.frame fid).data = f.data ∧ (n.frame fid).cells = f.cells ∧ n.eng e = (s.node.eng e).idled ∧
      n.egQueue q cls = s.node.egQueue q cls ++ [m.copyOf fid c (s.node.eng e).act.ep none]) := by
  intro f m cls
  obtain ⟨mem, l, hforward⟩ := Node.forward_queued (stamp := (s.node.eng e).act.ep) hb hplain
  refine Yields.imp (yields_of_outputs he hfits hu hphase hnobuf ((release_one h).trans hforward) rfl hp rfl rfl) fun n hn => ?_
  obtain ⟨hfab, heng, -⟩ := hn
  have hframe : n.frame fid = { s.node.frame fid with refs := (s.node.frame fid).refs + 1, left := l } := by
    rw [Node.frame, hfab]
    exact FMap.get_put_same ..
  rw [hframe]
  refine ⟨rfl, rfl, rfl, heng, ?_⟩
  rw [Node.egQueue, hfab]
  exact FMap.get_put_same ..

end Frames

/-! ### Owner writes -/

theorem apply_ownerWord {a v : Nat} (hfits : s.node.fits) (he : e < 18) (hphase : (s.node.eng e).phase = .idle)
    (h : (s.node.eng e).ownerWr = [(a, v)]) :
    Leaves (.heldOwnerWriteApply e) s ({ s.node with
      mem := wr64 s.node.mem (a / 8 * 8) (ownerWord a (rd64 s.node.mem (a / 8 * 8)) v) }.setEng e { s.node.eng e with ownerWr := [] }) := by
  have hexec : exec (.heldOwnerWriteApply e) s = s.to (s.node.applyOwner e) := congrArg s.to (if_pos ⟨he, hphase⟩)
  have happly : s.node.applyOwner e = { s.node with
      mem := wr64 s.node.mem (a / 8 * 8) (ownerWord a (rd64 s.node.mem (a / 8 * 8)) v) }.setEng e { s.node.eng e with ownerWr := [] } := by
    simp only [Node.applyOwner, h, List.foldl_cons, List.foldl_nil]
  rw [happly] at hexec
  exact Leaves.of_to hexec rfl rfl hfits

/-- Settles O20: each held output's effect is a lemma above, on the boundary of the engine. -/
theorem boundaryEffects : Obligations.BoundaryEffects := by
  refine ⟨fun s e hfits he hu hphase hnobuf hp => ?_, fun s h htopo hu hphase hnobuf hp houts => ?_,
    fun s e a v hfits he hphase h => ?_⟩
  · refine ⟨fun h => ?_, fun slot v ok rng sat h _ hrng => release_sts he hfits hu hphase hnobuf hp h hrng,
      fun off m v h _ hm hv => release_mbox he hfits hu hphase hnobuf hp h hm hv, fun flag h => ?_,
      fun target flag h ht hnone => release_signal_none he hfits hu hphase hnobuf hp h ht hnone,
      fun target flag k h htarget hne => ?_,
      fun t d i ws h htab hnum ht => ⟨release_tblWr_stale he hfits hu hphase hnobuf hp h htab,
        release_tblWr he hfits hu hphase hnobuf hp h htab hnum ht⟩,
      fun t d i key ws h htab hnum ht hh hd => ⟨release_tblIns_used he hfits hu hphase hnobuf hp h htab hd,
        release_tblIns he hfits hu hphase hnobuf hp h htab hnum ht hh hd⟩,
      fun t d i h htab hh hd => release_tblDel he hfits hu hphase hnobuf hp h htab hh hd,
      fun f q h hdest hpd hb hbad hcells hplain => ⟨fun hl => ?_, fun t hl ht hroom => ?_,
        fun t hl ht => release_far he hfits hu hphase hnobuf hp h hdest hpd hb hbad hcells hplain hl ht⟩,
      fun fid c q h _ hb hplain => release_forward he hfits hu hphase hnobuf hp h hb hplain⟩
    · exact leaves_of_outputs he hfits hu hphase hnobuf (by rw [h]; rfl) hu.owner hp rfl rfl
    · have hleaves := release_signal he hfits hu hphase hnobuf hp h (k := e) (if_pos rfl)
      rw [Node.eng_setEng_same, Node.setEng_setEng] at hleaves
      exact ⟨_, bitOf_setBit_true _ flag, hleaves⟩
    · have hleaves := release_signal he hfits hu hphase hnobuf hp h (k := k) (by
        rcases htarget with ⟨rfl, rfl⟩ | ⟨ht, hbound⟩
        · rfl
        · rw [if_neg (by omega), if_neg (by omega), hbound])
      rw [Node.eng_setEng_ne _ _ (Ne.symm hne)] at hleaves
      exact ⟨_, bitOf_setBit_true _ flag, hleaves⟩
    · rw [hl]
      refine Yields.imp (release_emit he hfits hu hphase hnobuf hp h hdest hpd hb hbad hcells hplain hl) fun n hn => ?_
      obtain ⟨⟨hdata, hcell, hrefs, hstamp, hnext⟩, heng, hqueue, hothers⟩ := hn
      exact ⟨⟨hdata, hcell, hrefs, hstamp, hnext, heng⟩, hqueue, hothers⟩
    · rw [hl]
      refine Yields.imp (release_launch he hfits hu hphase hnobuf hp h hdest hpd hb hbad hcells hplain hl ht hroom) fun n hn => ?_
      obtain ⟨⟨hdata, hcell, hrefs, hstamp, hnext⟩, heng, hegress, hlaunch⟩ := hn
      exact ⟨⟨hdata, hcell, hrefs, hstamp, hnext, heng⟩, hegress, hlaunch⟩
  · cases h with
    | topoCand i ws => exact fun hpe => settles_of_topo hu hphase hnobuf houts rfl rfl hpe
    | topoAgree phase epoch =>
      exact fun hpe => settles_of_topo hu hphase hnobuf houts rfl (by dsimp only; split <;> simp) hpe
    | topoCommit epoch sec ns => exact fun hpe => settles_of_topo hu hphase hnobuf houts rfl (Node.scheduleCommit_engs ..) hpe
    | topoCancel => exact fun hpe => settles_of_topo hu hphase hnobuf houts rfl (Node.cancelCommit_engs _) hpe
    | topoNewep => exact fun hpe => settles_of_topo hu hphase hnobuf houts rfl (Node.newEpoch_engs _) hpe
    | topoAccept => exact fun hpe => settles_of_topo hu hphase hnobuf houts rfl (Node.acceptStep_engs _) hpe
    | sts | mbox | tblWr | tblIns | tblDel | frame | forward | dropHeld | dropTx | signal => cases htopo
  · refine ⟨_, apply_ownerWord hfits he hphase h, fun hw => ?_, fun hw => ⟨rd64_lt _ _, fun q hq => ?_⟩, fun y hy => ?_⟩
    · have hplain : ¬ a / 8 % 2 = 1 := by omega
      rw [rd64_wr64_same, ownerWord, if_neg hplain]
      refine Nat.mod_eq_of_lt ?_
      have hold := rd64_lt s.node.mem (a / 8 * 8)
      have hv : v % 2 ^ 32 < 2 ^ 32 := Nat.mod_lt _ (by decide)
      split
      · exact join_lt (j := 32) hv (Nat.mod_lt _ (by decide))
      · exact Nat.mod_lt _ (by decide)
    · have hstatus : a / 8 % 2 = 1 := by omega
      rw [rd64_wr64_same, Nat.mod_eq_of_lt (ownerWord_lt hstatus), bitOf_ownerWord_status hstatus hq]
    · exact memRead_wr64_outside _ _ _ hy

end Sys2Proof.Machine
end

section
/-! A far node's write of a reserved bit stops, though no master of the node makes it (O24). -/

namespace Sys2Proof.Machine

open Sys2Proof

/-- A one for a reserved bit of BRG_LOCK_OFFSET, written by the far node 5. -/
def farReservedWrite : BMsg := { ty := btWrite, src := 5, addr := Reg.BRG_LOCK_OFFSET.addr, data := leBytes 4 1 }

/-- An ACTIVE node in epoch 7 whose directory has node 5, with a region open to far nodes, and that node's write waiting to be served. -/
def farWriting : Node :=
  { ({} : Node).wrs [(F.PWR_ISLANDS_CONTROL, 1), (F.PWR_ISLANDS_DATA, 1), (F.PRO_REGION_RIGHTS_EN 0, 1), (F.PRO_REGION_RIGHTS_RW 0, 0x3FF),
      (F.PRO_REGION_RIGHTS_OX 0, 1), (F.PRO_REGION_LIMIT_ADDR 0, 0xFFFFF), (F.TOP_INAUG_COUNT, 1), (F.TOP_EPOCH_EPOCH, 7)] with
    mode := .active
    tabs := [{ num := 8, n := 1, entries := 64 }]
    mem := memWrite [] (tabAddr 1) [5]
    brg := { inq := [(4, farReservedWrite.bytes)] } }

/-- The outcome is the fault of R10. -/
def Faults : Host.Outcome State Fault Refusal → Bool
  | .fault _ => true
  | _ => false

theorem farWriting_faults : Faults (exec .farRequestServe { node := farWriting }) = true := by decide

/-- Refutes O24: the write of a reserved bit that stops is one the bridge serves for a far node; no local master sends it, and none has waited. -/
theorem not_onlyReservedWritesStop : ¬ Obligations.OnlyReservedWritesStop := by
  intro h
  have hfault := farWriting_faults
  rcases h.2 { node := farWriting } .farRequestServe with ⟨t, ht⟩ | ⟨a, -, x, r, i, hmakes, -⟩
  · rw [ht] at hfault
    cases hfault
  · rcases hmakes with hstalled | ⟨hsender, -⟩
    · cases hstalled
    · cases hsender

end Sys2Proof.Machine
end

section
/-! Power inputs of a node in service (15 R508-R510, R532): O27. -/

namespace Sys2Proof.Machine

open Sys2Proof

/-! ### An input's range -/

/-- An input out of range enters it within its entry thresholds. -/
theorem inRange_enters (battery : Bool) (r : Reading) : inRange battery false r = true ↔
    (r.reversed = false ∧ if battery then 168 ≤ r.volts ∧ r.volts ≤ 1600
      else if r.ac then 850 ≤ r.volts ∧ r.volts ≤ 2800 ∧ (450 ≤ r.freq ∧ r.freq ≤ 4500) else 1000 ≤ r.volts ∧ r.volts ≤ 3900) := by
  unfold inRange
  cases battery <;> cases r.ac <;> simp [and_assoc]

/-- An input in range stays there within its leave thresholds. -/
theorem inRange_stays (battery : Bool) (r : Reading) : inRange battery true r = true ↔
    (r.reversed = false ∧ if battery then 155 ≤ r.volts ∧ r.volts ≤ 1600
      else if r.ac then 800 ≤ r.volts ∧ r.volts ≤ 2800 ∧ (450 ≤ r.freq ∧ r.freq ≤ 4500) else 950 ≤ r.volts ∧ r.volts ≤ 3900) := by
  unfold inRange
  cases battery <;> cases r.ac <;> simp [and_assoc]

/-- The command shows a measurement and judges it. -/
theorem exec_powerInput {s : State} {battery : Bool} {r : Reading} {c : Instr}
    (h : c = .powerInputLeavesRange battery r ∨ (r.reversed = false ∧ c = .powerInputEntersRange battery r.volts r.ac r.freq)) :
    exec c s = s.to (s.node.powerInput battery r) := by
  rcases h with rfl | ⟨hr, rfl⟩
  · rfl
  · obtain ⟨volts, ac, freq, reversed⟩ := r
    cases hr
    rfl

/-- The registers that show a measurement. -/
def measured (battery : Bool) (r : Reading) : List (Fld × Nat) :=
  if battery then [(F.PWR_BATTERY_VOLTS, min r.volts 65535), (F.PWR_BATTERY_MA, min r.freq 65535)]
  else [(F.PWR_PRIMARY_VOLTS, min r.volts 65535), (F.PWR_PRIMARY_FREQ, if r.ac then min r.freq 65535 else 0), (F.PWR_STATUS_PRI_AC, b2n r.ac)]

theorem measureInput_eq (n : Node) (battery : Bool) (r : Reading) : n.measureInput battery r = n.wrs (measured battery r) := by
  cases battery <;> rfl

/-- What a measurement is judged by and changes besides. -/
def powerKeys : List Nat :=
  [F.PWR_STATUS_PRI_OK.key, F.PWR_STATUS_BAT_OK.key, F.PWR_STATUS_HOLDUP.key, F.PWR_EVENTS_HOLDUPS.key]

theorem rd_measured (n : Node) (battery : Bool) (r : Reading) {f : Fld} (h : f.key ∈ powerKeys) :
    (n.wrs (measured battery r)).rd f = n.rd f := by
  have hne : ∀ k ∈ powerKeys, k ≠ F.PWR_BATTERY_VOLTS.key ∧ k ≠ F.PWR_BATTERY_MA.key ∧ k ≠ F.PWR_PRIMARY_VOLTS.key ∧
      k ≠ F.PWR_PRIMARY_FREQ.key ∧ k ≠ F.PWR_STATUS_PRI_AC.key := by decide
  obtain ⟨h1, h2, h3, h4, h5⟩ := hne _ h
  refine Node.rd_wrs_ne _ _ ?_
  cases battery
  · simp [measured, h3, h4, h5]
  · simp [measured, h1, h2]

theorem on_measured (n : Node) (battery : Bool) (r : Reading) {f : Fld} (h : f.key ∈ powerKeys) :
    (n.wrs (measured battery r)).on f = n.on f := by
  rw [Node.on, rd_measured n battery r h, Node.on]

theorem wrs_append (n : Node) (l k : List (Fld × Nat)) : n.wrs (l ++ k) = (n.wrs l).wrs k := List.foldl_append

/-- The supply in use once an input has come or gone. -/
theorem source_put (n : Node) (battery ok : Bool) : (n.put (inputOk battery) ok).source =
    if battery then (if n.on F.PWR_STATUS_PRI_OK then 1 else if ok then 2 else 0)
    else if ok then 1 else if n.on F.PWR_STATUS_BAT_OK then 2 else 0 := by
  cases battery
  · have h : (n.put F.PWR_STATUS_PRI_OK ok).on F.PWR_STATUS_BAT_OK = n.on F.PWR_STATUS_BAT_OK := Node.on_put_ne _ _ (by decide)
    simp only [inputOk, Node.source, h, Bool.false_eq_true, if_false, Node.on_put_same n F.PWR_STATUS_PRI_OK ok rfl]
  · have h : (n.put F.PWR_STATUS_BAT_OK ok).on F.PWR_STATUS_PRI_OK = n.on F.PWR_STATUS_PRI_OK := Node.on_put_ne _ _ (by decide)
    simp only [inputOk, Node.source, h, if_true, Node.on_put_same n F.PWR_STATUS_BAT_OK ok rfl]

variable {n : Node} {battery : Bool} {r : Reading}

theorem inputOk_mem (battery : Bool) : (inputOk battery).key ∈ powerKeys := by cases battery <;> decide

/-- An input that comes into range in service. -/
theorem inputIn_eq (hmode : n.mode ≠ .off) (hst : n.mode = .stabled → battery = true) : n.inputIn battery =
    (n.wrs [(inputOk battery, 1), (if battery then F.PWR_EVENTS_BAT_IN else F.PWR_EVENTS_PRI_IN, 1),
      (F.PWR_STATUS_SOURCE, if battery = true ∧ n.on F.PWR_STATUS_PRI_OK = false then 2 else 1)]).wrs
      (if n.on F.PWR_STATUS_HOLDUP then [(F.PWR_STATUS_HOLDUP, 0), (F.PWR_EVENTS_HOLDUP, 1), (F.PWR_STATUS_STORE_OK, 1),
        (F.PWR_EVENTS_HOLDUPS, min (n.rd F.PWR_EVENTS_HOLDUPS + 1) (2 ^ 16 - 1))] else []) := by
  generalize hev : (if battery then F.PWR_EVENTS_BAT_IN else F.PWR_EVENTS_PRI_IN) = ev
  have hsrc : (n.put (inputOk battery) true).source = if battery = true ∧ n.on F.PWR_STATUS_PRI_OK = false then 2 else 1 := by
    rw [source_put]
    cases battery <;> cases n.on F.PWR_STATUS_PRI_OK <;> rfl
  have hmid : ((n.put (inputOk battery) true).put ev true).wr F.PWR_STATUS_SOURCE (n.put (inputOk battery) true).source =
      n.wrs [(inputOk battery, 1), (ev, 1), (F.PWR_STATUS_SOURCE, if battery = true ∧ n.on F.PWR_STATUS_PRI_OK = false then 2 else 1)] := by
    rw [hsrc]
    rfl
  have hkeep {f : Fld} (hf : f.key ≠ (inputOk battery).key ∧ f.key ≠ ev.key ∧ f.key ≠ F.PWR_STATUS_SOURCE.key) :
      (n.wrs [(inputOk battery, 1), (ev, 1), (F.PWR_STATUS_SOURCE, if battery = true ∧ n.on F.PWR_STATUS_PRI_OK = false then 2 else 1)]).rd f =
        n.rd f := Node.rd_wrs_ne _ _ (by simp [hf])
  have hhold := hkeep (f := F.PWR_STATUS_HOLDUP) (by rw [← hev]; cases battery <;> decide)
  have hups := hkeep (f := F.PWR_EVENTS_HOLDUPS) (by rw [← hev]; cases battery <;> decide)
  have hoff : ¬ (n.put (inputOk battery) true).mode = .off := hmode
  unfold Node.inputIn
  simp only [hev, if_neg hoff, hmid]
  generalize n.wrs [(inputOk battery, 1), (ev, 1),
    (F.PWR_STATUS_SOURCE, if battery = true ∧ n.on F.PWR_STATUS_PRI_OK = false then 2 else 1)] = m at hhold hups hmid ⊢
  have hm : m.mode = n.mode := by rw [← hmid]; rfl
  have hon : m.on F.PWR_STATUS_HOLDUP = n.on F.PWR_STATUS_HOLDUP := by rw [Node.on, hhold, Node.on]
  have hawake (k : Node) (hk : k.mode = n.mode) : ¬ (k.mode = .stabled ∧ (!battery) = true) := by
    rintro ⟨hs, hb⟩
    rw [hst (hk.symm.trans hs)] at hb
    cases hb
  have hinc : (m.wrs [(F.PWR_STATUS_HOLDUP, 0), (F.PWR_EVENTS_HOLDUP, 1), (F.PWR_STATUS_STORE_OK, 1)]).inc F.PWR_EVENTS_HOLDUPS =
      m.wrs [(F.PWR_STATUS_HOLDUP, 0), (F.PWR_EVENTS_HOLDUP, 1), (F.PWR_STATUS_STORE_OK, 1),
        (F.PWR_EVENTS_HOLDUPS, min (n.rd F.PWR_EVENTS_HOLDUPS + 1) (2 ^ 16 - 1))] := by
    have hrd : (m.wrs [(F.PWR_STATUS_HOLDUP, 0), (F.PWR_EVENTS_HOLDUP, 1), (F.PWR_STATUS_STORE_OK, 1)]).rd F.PWR_EVENTS_HOLDUPS =
        n.rd F.PWR_EVENTS_HOLDUPS := (Node.rd_wrs_ne _ _ (by decide)).trans hups
    rw [Node.inc, hrd]
    rfl
  rw [hon, hinc]
  cases n.on F.PWR_STATUS_HOLDUP with
  | true =>
    rw [if_pos rfl, if_pos rfl]
    exact if_neg (hawake _ hm)
  | false =>
    rw [if_neg Bool.false_ne_true, if_neg Bool.false_ne_true]
    exact if_neg (hawake _ hm)

/-- An input that leaves its range in service. -/
theorem inputOut_eq (hmode : n.mode ≠ .off) : n.inputOut battery =
    let l := [(inputOk battery, 0), (if battery then F.PWR_EVENTS_BAT_OUT else F.PWR_EVENTS_PRI_OUT, 1)]
    if (if battery then n.on F.PWR_STATUS_PRI_OK else n.on F.PWR_STATUS_BAT_OK) = true then
      (n.wrs (l ++ [(F.PWR_STATUS_SOURCE, if battery then 1 else 2)])).fault 5 1 (b2n battery)
    else n.wrs (l ++ [(F.PWR_STATUS_SOURCE, 0), (F.PWR_STATUS_HOLDUP, 1), (F.PWR_STATUS_STORE_OK, 0)]) := by
  generalize hev : (if battery then F.PWR_EVENTS_BAT_OUT else F.PWR_EVENTS_PRI_OUT) = ev
  have hne : F.PWR_STATUS_PRI_OK.key ≠ ev.key ∧ F.PWR_STATUS_BAT_OK.key ≠ ev.key := by
    rw [← hev]
    cases battery <;> decide
  have hoff : ¬ (n.put (inputOk battery) false).mode = .off := hmode
  have hsrc (v : Nat) : (((n.put (inputOk battery) false).put ev true).wr F.PWR_STATUS_SOURCE v).source = (n.put (inputOk battery) false).source := by
    simp only [Node.source]
    rw [Node.on_wr_ne _ _ (by decide), Node.on_wr_ne _ _ (by decide), Node.on_put_ne _ _ hne.1, Node.on_put_ne _ _ hne.2]
  have hsource := source_put n battery false
  unfold Node.inputOut
  simp only [hev, if_neg hoff, hsrc, hsource]
  cases battery
  · cases n.on F.PWR_STATUS_BAT_OK <;> rfl
  · cases n.on F.PWR_STATUS_PRI_OK <;> rfl

/-- Settles O27: a measurement is shown, and judged by the thresholds that the input's state calls for. -/
theorem powerInputsInService : Obligations.PowerInputsInService := by
  intro s battery r c hmode hc n priOn batOn okF shown freqOk enters stays
  have hexec := exec_powerInput (s := s) hc
  have hshown : shown = measured battery r := rfl
  have hpri := on_measured n battery r (f := F.PWR_STATUS_PRI_OK) (by decide)
  have hbat := on_measured n battery r (f := F.PWR_STATUS_BAT_OK) (by decide)
  have hmode' : (n.wrs (measured battery r)).mode ≠ .off := by rw [Node.wrs_mode]; exact hmode
  have hpower : s.node.powerInput battery r = if inRange battery (n.on okF) r = n.on okF then n.wrs shown
      else if n.on okF then (n.wrs shown).inputOut battery else (n.wrs shown).inputIn battery := by
    unfold Node.powerInput
    dsimp only
    rw [measureInput_eq]
    rfl
  refine ⟨fun hout => ⟨fun henter hst => Settles.of_to ?_, fun hno => Settles.of_to ?_⟩,
    fun hin => ⟨fun hstay => Settles.of_to ?_, fun hno hother => Settles.of_to ?_, fun hno hother => Settles.of_to ?_⟩⟩
  · have hr : inRange battery false r = true := (inRange_enters battery r).mpr henter
    rw [hexec, hpower, hout, hr, if_neg (by decide), if_neg (by decide), hshown]
    have hst' : (n.wrs (measured battery r)).mode = .stabled → battery = true := by rw [Node.wrs_mode]; exact hst
    rw [inputIn_eq hmode' hst', hpri, on_measured n battery r (f := F.PWR_STATUS_HOLDUP) (by decide),
      rd_measured n battery r (f := F.PWR_EVENTS_HOLDUPS) (by decide), wrs_append, wrs_append]
    rfl
  · have hr : inRange battery false r = false := by
      cases h : inRange battery false r with
      | false => rfl
      | true => exact absurd ((inRange_enters battery r).mp h) hno
    rw [hexec, hpower, hout, hr, if_pos rfl]
  · rw [hexec, hpower, hin, (inRange_stays battery r).mpr hstay, if_pos rfl]
  · have hr : inRange battery true r = false := by
      cases h : inRange battery true r with
      | false => rfl
      | true => exact absurd ((inRange_stays battery r).mp h) hno
    rw [hexec, hpower, hin, hr, if_neg (by decide), if_pos rfl, hshown, inputOut_eq hmode', hpri, hbat]
    dsimp only
    rw [if_pos hother, ← wrs_append]
    rfl
  · have hr : inRange battery true r = false := by
      cases h : inRange battery true r with
      | false => rfl
      | true => exact absurd ((inRange_stays battery r).mp h) hno
    have hother' : ¬ (if battery = true then n.on F.PWR_STATUS_PRI_OK else n.on F.PWR_STATUS_BAT_OK) = true := by
      rw [Bool.not_eq_true]
      exact hother
    rw [hexec, hpower, hin, hr, if_neg (by decide), if_pos rfl, hshown, inputOut_eq hmode', hpri, hbat]
    dsimp only
    rw [if_neg hother', ← wrs_append]
    rfl

end Sys2Proof.Machine
end

section
/-! One access on the Ibsum fabric that nothing holds up: the node it leaves, and how a register write that passes every check ends (05 R173-R178; 13 R455-R459). -/

namespace Sys2Proof.Machine

open Sys2Proof

/-! ### Addresses -/

/-- A decoded address lies below 2^32. -/
theorem targetOf_lt {a : Nat} {t : Target} (h : targetOf a = some t) : a < 2 ^ 32 := by
  by_contra hge
  have hn : targetOf a = none := by
    unfold targetOf
    repeat rw [if_neg (by omega)]
  rw [hn] at h
  cases h

/-- Decoding looks at the 4 KiB page of an address. -/
theorem targetOf_page {a b : Nat} (h : a / 4096 = b / 4096) : targetOf a = targetOf b := by
  have key : ∀ C, C % 4096 = 0 → (a < C ↔ b < C) := fun C hC => by omega
  have off : ∀ C, C % 4096 = 0 → (a % 0x100000 < C ↔ b % 0x100000 < C) := fun C hC => by omega
  have eng : (a - 0x20000000) / 0x100000 = (b - 0x20000000) / 0x100000 := by omega
  unfold targetOf
  rw [eng]
  repeat refine if_congr (key _ (by decide)) rfl ?_
  refine if_congr (key _ (by decide)) ?_ ?_
  · repeat refine if_congr (off _ (by decide)) rfl ?_
    rfl
  · repeat refine if_congr (key _ (by decide)) rfl ?_
    rfl

/-- An access within one page lies inside its target. -/
theorem Access.inside_of_page {x : Access} (hs : x.size ≠ 0) (h : (x.addr + x.size - 1) / 4096 = x.addr / 4096) : x.inside = true := by
  simp [Access.inside, hs, targetOf_page h]

theorem Access.undecoded_of_inside {x : Access} (h : x.inside = true) : x.undecoded = false := by
  simp [Access.undecoded, h]

/-- A word access at a multiple of four lies inside its target. -/
theorem Access.inside_word {x : Access} (hs : x.size = 4) (ha : x.addr % 4 = 0) : x.inside = true :=
  Access.inside_of_page (by omega) (by omega)

/-! ### The arbiter -/

/-- With no lock and nothing waiting, nothing goes on. -/
theorem Node.resume_of_free {n : Node} (hl : n.brg.lock = none) (hs : n.brg.stalled = []) : n.resume = (none, n) := by
  have h : { n with brg := { n.brg with stalled := [] } } = n := by
    rw [← hs]
  have hn : ¬ n.brg.lock.isSome = true := by simp [hl]
  unfold Node.resume
  rw [if_neg hn, h, hs]
  rfl

/-- An access of at most four bytes below 2^32 that nothing holds up is done now. -/
theorem Node.bus_of_free {n : Node} {x : Access} (hl : n.brg.lock = none) (hs : n.brg.stalled = []) (ha : x.addr < 2 ^ 32)
    (hz : x.wr = true ∨ x.size ≤ 4) : n.bus x = (n.access x).answer x.m := by
  have hu : n.unsupported x = false := by simp only [Node.unsupported, decide_eq_false (Nat.not_le.mpr ha), Bool.and_false, Bool.false_and]
  have hg : ¬ (x.m.id = 1 ∧ (!x.wr) = true ∧ 4 < x.size ∧ x.size % 4 = 0 ∧ x.addr % 4 = 0 ∧ 0x80000000 ≤ x.addr) := by
    rintro ⟨-, hw, h4, -⟩
    rcases hz with h | h
    · simp [h] at hw
    · omega
  simp only [Node.bus, hu, hl, Node.resume_of_free hl hs, Node.busGo, if_neg hg, Node.busNow]
  rfl

/-- A read that the fabric lets through reaches its target. -/
theorem Node.access_read {n : Node} {x : Access} {t : Target} (h : Passes n x) (ht : targetOf x.addr = some t) (hw : x.wr = false)
    (hz : x.sizeOk t = true) (hi : x.inside = true) : n.access x = n.busRead { x with m := n.presented x.m } t := by
  obtain ⟨m, a, k, w, v⟩ := x
  obtain rfl : w = false := hw
  have hr : n.reaches (n.presented m) = true := h.reach
  have hp : n.protOk ⟨n.presented m, a, k, false, v⟩ = true := h.prot
  have hz' : Access.sizeOk ⟨n.presented m, a, k, false, v⟩ t = true := hz
  have hi' : Access.inside ⟨n.presented m, a, k, false, v⟩ = true := hi
  simp only [Node.access, hr, ht, hz', hi', Access.undecoded_of_inside hi', hp]
  simp

/-- A write that the fabric lets through restarts the owner's lease and reaches its target. -/
theorem Node.access_write {n : Node} {x : Access} {t : Target} (h : Passes n x) (ht : targetOf x.addr = some t) (hw : x.wr = true)
    (hrom : t ≠ .rom) (hz : x.sizeOk t = true) (hi : x.inside = true) (hc : n.codeShut (n.presented x.m) t = false) :
    n.access x = (n.leased x.m).busWrite { x with m := n.presented x.m } t := by
  obtain ⟨m, a, k, w, v⟩ := x
  obtain rfl : w = true := hw
  have hr : n.reaches (n.presented m) = true := h.reach
  have hp : n.protOk ⟨n.presented m, a, k, true, v⟩ = true := h.prot
  have ho : n.mayWrite ⟨n.presented m, a, k, true, v⟩ = true := h.owner rfl
  have hz' : Access.sizeOk ⟨n.presented m, a, k, true, v⟩ t = true := hz
  have hi' : Access.inside ⟨n.presented m, a, k, true, v⟩ = true := hi
  simp only [Node.access, hr, ht, hz', hi', Access.undecoded_of_inside hi', hp, ho, hc]
  simp [hrom, Node.leased, Node.leaseStart]

/-! ### The lease -/

@[simp] theorem Node.leased_rd (n : Node) (m : Master) (f : Fld) : (n.leased m).rd f = n.rd f := by
  unfold Node.leased
  split <;> rfl

@[simp] theorem Node.leased_on (n : Node) (m : Master) (f : Fld) : (n.leased m).on f = n.on f := by
  simp only [Node.on, Node.leased_rd]

/-- A write restarts no more than the lease. -/
theorem Node.leased_eq (n : Node) (m : Master) : ∃ t, n.leased m = { n with leaseAt := t } := by
  unfold Node.leased
  split
  · exact ⟨_, rfl⟩
  · exact ⟨n.leaseAt, rfl⟩

/-! ### Register writes -/

theorem cmdOf_mod (r : Reg) (v : Nat) : cmdOf r (v % 2 ^ 32) = cmdOf r v := by
  have h16 : v % 2 ^ 32 % 16 = v % 16 := by omega
  have h2 : v % 2 ^ 32 % 2 = v % 2 := by omega
  cases r <;> simp only [cmdOf, h16, h2]

/-- A word write of a register in register space, past the fabric. -/
theorem Node.bus_reg {n : Node} {m : Master} {r : Reg} {v : Nat} (h : Passes n (wordWrite m r.addr v)) (hr : regAt r.addr = some r)
    (ht : targetOf r.addr = some .regs) (ha : r.addr % 4 = 0) :
    n.bus (wordWrite m r.addr v) = ((n.leased m).busRegWrite { wordWrite m r.addr v with m := n.presented m } r).answer m := by
  rw [Node.bus_of_free h.lock h.waits (targetOf_lt ht) (.inl rfl),
    Node.access_write h ht rfl (by decide) (by simp [Access.sizeOk, Access.word, wordWrite, ha]) (Access.inside_word rfl ha) rfl]
  simp only [Node.busWrite, wordWrite, hr]

/-- What a register write reads of the node is not its lease. -/
theorem Node.busRegWrite_passed {n : Node} {m : Master} {r : Reg} {v : Nat} (h : RegPasses n m r v) :
    ((n.leased m).busRegWrite { wordWrite m r.addr v with m := n.presented m } r).res = .ok 0 ∧
    (cmdOf r v ≠ 0 → ((n.leased m).busRegWrite { wordWrite m r.addr v with m := n.presented m } r).node =
      (n.leased m).command (n.presented m) r (cmdOf r v) (v % 2 ^ 32)) ∧
    (cmdOf r v = 0 → isWB r = false ∨ n.on F.PRO_CTRL_BOOT_DONE = false →
      ((n.leased m).busRegWrite { wordWrite m r.addr v with m := n.presented m } r).node =
        ((n.leased m).regWrite (n.presented m) r (v % 2 ^ 32)).irqAgain r (v % 2 ^ 32)) ∧
    (cmdOf r v = 0 → isWB r = true → n.on F.PRO_CTRL_BOOT_DONE = true →
      ((n.leased m).busRegWrite { wordWrite m r.addr v with m := n.presented m } r).node =
        (n.leased m).viol { wordWrite m r.addr v with m := n.presented m } (n.region r.addr) true) := by
  obtain ⟨-, hpow, hmode, hleg, hbits⟩ := h
  obtain ⟨t, hn⟩ := n.leased_eq m
  have hpow' : (n.leased m).regUnpowered r = false := by rw [hn]; exact hpow
  have hmode' : (n.leased m).mode ≠ .updating := by rw [hn]; exact hmode
  have hon : (n.leased m).on F.PRO_CTRL_BOOT_DONE = n.on F.PRO_CTRL_BOOT_DONE := n.leased_on m _
  have hreg : (n.leased m).region r.addr = n.region r.addr := by rw [hn]; rfl
  have hval : (wordWrite m r.addr v).value = v := rfl
  by_cases hc : cmdOf r v = 0
  · simp only [Node.busRegWrite, wordWrite, cmdOf_mod, hc, hpow', hmode', hbits, hon, hreg]
    cases hb : (isWB r && n.on F.PRO_CTRL_BOOT_DONE)
    · refine ⟨rfl, fun h => absurd rfl h, fun _ _ => rfl, fun _ hw hd => ?_⟩
      simp [hw, hd] at hb
    · rw [Bool.and_eq_true] at hb
      refine ⟨rfl, fun h => absurd rfl h, fun _ h => ?_, fun _ _ _ => rfl⟩
      rcases h with h | h
      · simp [hb.1] at h
      · simp [hb.2] at h
  · obtain ⟨hl, hbusy⟩ := hleg hc
    have hl' : (n.leased m).legal r (cmdOf r v) = true := by rw [hn]; exact hl
    have hbusy' : (n.leased m).cmdBusy r = false := by rw [hn]; exact hbusy
    simp only [Node.busRegWrite, wordWrite, cmdOf_mod, hpow', hmode', hbits, hl', hbusy']
    simp [hc]

/-- A command that passes every check is carried out and answered. -/
theorem Node.bus_command {n : Node} {m : Master} {r : Reg} {v : Nat} (h : RegPasses n m r v) (hr : regAt r.addr = some r)
    (ht : targetOf r.addr = some .regs) (ha : r.addr % 4 = 0) (hc : cmdOf r v ≠ 0) :
    n.bus (wordWrite m r.addr v) =
      (none, ((n.leased m).command (n.presented m) r (cmdOf r v) (v % 2 ^ 32)).emit (.resp m true 0)) := by
  obtain ⟨hres, hcmd, -, -⟩ := Node.busRegWrite_passed h
  simp only [Node.bus_reg h.fabric hr ht ha, BusOut.answer, hres, hcmd hc]

/-- A write that is no command takes effect by the register's rule and is answered. -/
theorem Node.bus_fields {n : Node} {m : Master} {r : Reg} {v : Nat} (h : RegPasses n m r v) (hr : regAt r.addr = some r)
    (ht : targetOf r.addr = some .regs) (ha : r.addr % 4 = 0) (hc : cmdOf r v = 0) (hw : isWB r = false ∨ n.on F.PRO_CTRL_BOOT_DONE = false) :
    n.bus (wordWrite m r.addr v) =
      (none, (((n.leased m).regWrite (n.presented m) r (v % 2 ^ 32)).irqAgain r (v % 2 ^ 32)).emit (.resp m true 0)) := by
  obtain ⟨hres, -, hset, -⟩ := Node.busRegWrite_passed h
  simp only [Node.bus_reg h.fabric hr ht ha, BusOut.answer, hres, hset hc hw]

/-- A write of a WB register after BOOT_DONE is a violation that completes (log entry 87). -/
theorem Node.bus_late {n : Node} {m : Master} {r : Reg} {v : Nat} (h : RegPasses n m r v) (hr : regAt r.addr = some r)
    (ht : targetOf r.addr = some .regs) (ha : r.addr % 4 = 0) (hc : cmdOf r v = 0) (hw : isWB r = true)
    (hd : n.on F.PRO_CTRL_BOOT_DONE = true) :
    n.bus (wordWrite m r.addr v) =
      (none, ((n.leased m).viol { wordWrite m r.addr v with m := n.presented m } (n.region r.addr) true).emit (.resp m true 0)) := by
  obtain ⟨hres, -, -, hlate⟩ := Node.busRegWrite_passed h
  simp only [Node.bus_reg h.fabric hr ht ha, BusOut.answer, hres, hlate hc hw hd]

/-! ### Answers -/

/-- A command that is a register write whose effect is the node `post`, answered. -/
theorem Answered.of_bus {c : Instr} {s : State} {m : Master} {x : Access} {v : Nat} {post : Node} (he : exec c s = s.toBus (s.node.bus x))
    (hb : s.node.bus x = (none, post.emit (.resp m true v))) : Answered c s m v post := by
  refine Settles.of_to ?_
  rw [he, hb]
  rfl

/-- A command that is an access which ends in a bus error. -/
theorem Refused.of_bus {c : Instr} {s : State} {m : Master} {x : Access} {post : Node} (he : exec c s = s.toBus (s.node.bus x))
    (hb : s.node.bus x = (none, post.emit (.resp m false 0))) : Refused c s m post := by
  refine Settles.of_to ?_
  rw [he, hb]
  rfl

/-- A completed access, as the state it leaves. -/
theorem Yields.of_bus {c : Instr} {s : State} {x : Access} {post : Node} {P : Node → Prop} (he : exec c s = s.toBus (s.node.bus x))
    (hb : s.node.bus x = (none, post)) (hp : P (settle s.node post)) : Yields c s P := by
  refine Yields.of_to ?_ hp
  rw [he, hb]
  rfl

end Sys2Proof.Machine
end

section
/-! Three statements of register writes that name one field and whose commands write its neighbours as well. `Follows` compares what every field reads as, of every reset value, so it tells a register listed at its reset value from one not listed; the extra write makes the one the other. -/

namespace Sys2Proof.Machine

open Sys2Proof

/-- What a field reads as after a command that answers a next state. -/
def readAfter (c : Instr) (s : State) (f : Fld) : Option Nat :=
  match exec c s with
  | .next t => some (t.node.rd f)
  | _ => none

/-- A command that leaves `m` leaves every field outside `followKeys` as in `m`. -/
theorem Leaves.readAfter_eq {c : Instr} {s : State} {m : Node} (h : Leaves c s m) (f : Fld) (hf : f.key ∉ followKeys) :
    readAfter c s f = some (m.rd f) := by
  obtain ⟨t, ht, -, hm⟩ := h
  simp only [readAfter, ht, hm.rd f hf]

/-- A field that the state after the command shows differently refutes that the command leaves `m`. -/
theorem not_settles {c : Instr} {s : State} {m : Node} (f : Fld) (hf : f.key ∉ followKeys) (hm : m.level ≤ m.allowed ∧ s.node.level ≤ m.level)
    (hne : readAfter c s f ≠ some (m.rd f)) : ¬ Settles c s m :=
  fun h => hne ((h hm.1 hm.2).readAfter_eq f hf)

/-- The field `f` read with another reset value: what it shows where no value is listed. -/
def unlisted (f : Fld) : Fld := { f with rst := f.rst + 1 }

/-- An ACTIVE node with both islands powered, one power input and the claim. -/
def inService : Node :=
  { State.reset.node.wrs [(F.PWR_ISLANDS_CONTROL, 1), (F.PWR_ISLANDS_DATA, 1), (F.PWR_STATUS_PRI_OK, 1), (F.PAIR_STATUS_CLAIM_HELD, 1)] with
    mode := .active }

/-- A node in service whose register memory lists `f` at its reset value. -/
def listing (f : Fld) : Node := { inService with regs := inService.regs ++ [(f.key, f.rst)] }

/-- The default master: the executive. -/
def executive : Master := {}

/-- What lets a word write of `r` pass, computed. -/
def Node.lets (n : Node) (m : Master) (r : Reg) (v : Nat) : Bool :=
  let x := wordWrite m r.addr v
  let y := { x with m := n.presented m }
  n.brg.lock.isNone && n.brg.stalled.isEmpty && n.reaches y.m && n.protOk y && n.mayWrite y &&
    (!n.regUnpowered r && n.mode != .updating && (cmdOf r v == 0 || n.legal r (cmdOf r v) && !n.cmdBusy r) && !reservedIn r (v % 2 ^ 32))

theorem RegPasses.of_lets {n : Node} {m : Master} {r : Reg} {v : Nat} (h : n.lets m r v = true) : RegPasses n m r v := by
  simp only [Node.lets, Bool.and_eq_true, Bool.or_eq_true, Bool.not_eq_true', Option.isNone_iff_eq_none, List.isEmpty_iff, bne_iff_ne, beq_iff_eq] at h
  obtain ⟨⟨⟨⟨⟨hlock, hwait⟩, hreach⟩, hprot⟩, hown⟩, ⟨⟨hpow, hmode⟩, hcmd⟩, hbits⟩ := h
  exact ⟨⟨hlock, hwait, hreach, hprot, fun _ => hown⟩, hpow, hmode, fun hc => hcmd.resolve_left hc, hbits⟩

/-- Refutes O38: HOLD is written beside RUN, and a HOLD listed at its reset value is listed no more. -/
theorem not_engineControls : ¬ Obligations.EngineControls := by
  intro h
  obtain ⟨hrun, -⟩ := h { node := listing (F.SC_CTRL_HOLD 18) } executive 18 true (by decide) (by decide) (by decide)
  exact not_settles (unlisted (F.SC_CTRL_HOLD 18)) (by decide) (by decide) (by decide +kernel) (hrun (.of_lets (by decide)))

/-- Refutes O39: a write of FORCE takes the unset MISMATCH as cleared, and a MISMATCH listed at its reset value is listed no more. -/
theorem not_bootDoneAndRelays : ¬ Obligations.BootDoneAndRelays := by
  intro h
  obtain ⟨-, hrelay⟩ := h.1 { node := listing (F.BBL_RELAY_MISMATCH 1) } executive 1 true (by decide)
  obtain ⟨hforce, -⟩ := hrelay (by decide) (by decide)
  exact not_settles (unlisted (F.BBL_RELAY_MISMATCH 1)) (by decide) (by decide) (by decide +kernel) (hforce (.of_lets (by decide)))

/-- Refutes O45: SIZE is written beside EN, and a SIZE listed at its reset value is listed no more. -/
theorem not_hostRings : ¬ Obligations.HostRings := by
  intro h
  obtain ⟨-, -, -, hdisable, -⟩ := h { node := listing (F.HST_TXCTRL_SIZE 15) } 15 (by decide)
  obtain ⟨htx, -⟩ := hdisable executive
  exact not_settles (unlisted (F.HST_TXCTRL_SIZE 15)) (by decide) (by decide) (by decide +kernel)
    (htx (by decide) (.of_lets (by decide)) (by decide))

end Sys2Proof.Machine
end

section
/-! The end of the over-temperature hold does not always come to an end of start-up (O30): a node of position b that has given way to a tie of the two claims stays in BOOT, waiting for nothing (12 R410). The image it boots is signed with the neutral element as key, under which every digest verifies. -/

namespace Sys2Proof.Machine

open Sys2Proof

/-! ### A bootable image (05 R160-R168) -/

/-- The encoding of the neutral element of the curve: the key, and the first half of its signatures. -/
def neutralKey : List Byte := leBytes 32 1

/-- An entry of the section table with LOAD 0. -/
def sectionEntry (ty target off size crc : Nat) : List Byte :=
  leBytes 2 ty ++ leBytes 2 target ++ leBytes 4 off ++ leBytes 4 size ++ zeros 4 ++ leBytes 4 crc ++ zeros 12

/-- A trigger table of 64 disabled entries with a budget of one cycle. -/
def idleTriggers : List Byte := (List.replicate 64 (zeros 8 ++ [1] ++ zeros 15)).flatten

/-- A settings record of FORMAT 1 without entries. -/
def emptySettings : List Byte := [0x4B, 0x52, 0x51, 0x54] ++ leBytes 2 1 ++ zeros 6 ++ leBytes 4 20 ++ leBytes 4 2563598156

/-- Header, section table and sections: code and triggers of the topology engine, no tables, one region without rights. -/
def bootBody : List Byte :=
  [[0x4B, 0x52, 0x51, 0x49], leBytes 2 1, leBytes 2 128, leBytes 4 2184, leBytes 4 2048, leBytes 4 128, leBytes 2 7, leBytes 2 0x640,
    leBytes 2 1, zeros 102,
    sectionEntry 1 0 384 0 0, sectionEntry 2 16 384 0 0, sectionEntry 3 16 384 1536 3644041143, sectionEntry 4 0 384 0 0,
    sectionEntry 7 0 384 0 0, sectionEntry 8 0 1920 16 1114675946, sectionEntry 10 0 1984 20 1214729159, zeros 32,
    idleTriggers, zeros 64, emptySettings, zeros 44].flatten

/-- The image: the body, its digest and its signature. -/
def bootImage : List Byte :=
  [bootBody, [0x4B, 0x52, 0x51, 0x53], zeros 4,
    leBytes 64 1966969520908354651483598252157941730913960337038922442010411946124975491851788492763848765300374273407650954670855104191976652338770211218550374332857521,
    neutralKey, zeros 32].flatten

/-- The blocks of 128 bytes that the digest of the body runs over. -/
def bootBlocks : List (List Byte) := chunks 128 17 (bootBody ++ [0x80] ++ zeros 111 ++ beBytes 16 16384)

/-- The hash value after 6 blocks. -/
def hash6 : List Nat := [3109340472784830880, 17863637129326235637, 16204146589211617904, 12533753960969265462, 16171416206561553723, 8425865442583790203, 6094403933845570743, 17693929474635305974]

/-- The hash value after 12 blocks. -/
def hash12 : List Nat := [12092543139818105632, 14356814619640944214, 8294066353769069964, 12854169151958725699, 12881951964891357075, 15209753584075645660, 3442224459074546006, 8190043864545441368]

theorem sha512_bootBody : sha512 (bootImage.take 2048) = slice bootImage 2056 64 := by
  have htake : bootImage.take 2048 = bootBody := by decide +kernel
  have hlen : bootBody.length = 2048 := by decide +kernel
  have hlong : (bootBody ++ [0x80] ++ zeros 111 ++ beBytes 16 16384).length / 128 = 17 := by decide +kernel
  have hback : (((chunks 8 8 (slice bootImage 2056 64)).map beNat).map (beBytes 8)).flatten = slice bootImage 2056 64 := by decide +kernel
  have hfirst : (bootBlocks.take 6).foldl sha512Block sha512H = hash6 := by decide +kernel
  have hsecond : ((bootBlocks.drop 6).take 6).foldl sha512Block hash6 = hash12 := by decide +kernel
  have hthird : ((bootBlocks.drop 6).drop 6).foldl sha512Block hash12 = (chunks 8 8 (slice bootImage 2056 64)).map beNat := by
    decide +kernel
  have hhash : bootBlocks.foldl sha512Block sha512H = (chunks 8 8 (slice bootImage 2056 64)).map beNat := by
    rw [← List.take_append_drop 6 bootBlocks, List.foldl_append, hfirst, ← List.take_append_drop 6 (bootBlocks.drop 6),
      List.foldl_append, hsecond, hthird]
  unfold sha512
  rw [htake, hlen]
  simp only [hlong]
  rw [← hback, ← hhash]
  rfl

/-- A fold over numbers that looks at the number before each step, so that none is carried unevaluated. -/
def foldSeen (f : Nat → Byte → Nat) : List Byte → Nat → Nat
  | [], c => c
  | b :: l, 0 => foldSeen f l (f 0 b)
  | b :: l, c + 1 => foldSeen f l (f (c + 1) b)

theorem foldSeen_eq (f : Nat → Byte → Nat) (l : List Byte) (c : Nat) : foldSeen f l c = l.foldl f c := by
  induction l generalizing c with
  | nil => rfl
  | cons b l ih => cases c <;> exact ih _

theorem crc32c_idleTriggers : crc32c idleTriggers = 3644041143 := by
  have h : foldSeen (crcByte 0x82F63B78) idleTriggers 0xFFFFFFFF = 650926152 := by decide +kernel
  rw [crc32c, crcOf, ← foldSeen_eq, h]
  decide

/-- The section table of the image. -/
def bootSections : List Sec :=
  [⟨1, 0, 384, 0, 0, 0, zeros 12⟩, ⟨2, 16, 384, 0, 0, 0, zeros 12⟩, ⟨3, 16, 384, 1536, 0, 3644041143, zeros 12⟩, ⟨4, 0, 384, 0, 0, 0, zeros 12⟩,
    ⟨7, 0, 384, 0, 0, 0, zeros 12⟩, ⟨8, 0, 1920, 16, 0, 1114675946, zeros 12⟩, ⟨10, 0, 1984, 20, 0, 1214729159, zeros 12⟩]

/-- Every section has the CRC of its data. -/
theorem bootSections_crc : ∀ s ∈ bootSections, crc32c (s.data bootImage) = s.crc := by
  have hempty : slice bootImage 384 0 = [] := by decide +kernel
  have htriggers : slice bootImage 384 1536 = idleTriggers := by decide +kernel
  have hregion : crc32c (slice bootImage 1920 16) = 1114675946 := by decide +kernel
  have hsettings : crc32c (slice bootImage 1984 20) = 1214729159 := by decide +kernel
  simp only [bootSections, List.forall_mem_cons, Sec.data, hempty, htriggers, hregion, hsettings, crc32c_idleTriggers]
  decide

theorem bootImage_sections : secsOk bootImage = true := by
  have hsecs : imgSecs bootImage = bootSections := by decide +kernel
  have hcount : leAt bootImage 0x14 2 = 7 := by decide +kernel
  have hsigned : imgSigned bootImage = 2048 := by decide +kernel
  have hplace : bootSections.all (fun s => s.off % 64 == 0 && decide (128 + 32 * 7 ≤ s.off) && decide (s.off + s.size ≤ 2048) && allZero s.pad) = true := by
    decide
  have happart : spansApart (bootSections.map (fun s => (s.off, s.off + s.size))) = true := by decide
  have hall : bootSections.all (fun s => s.off % 64 == 0 && decide (128 + 32 * 7 ≤ s.off) && decide (s.off + s.size ≤ 2048) && allZero s.pad &&
      crc32c (s.data bootImage) == s.crc) = true := by
    rw [List.all_eq_true] at hplace ⊢
    intro s hs
    rw [hplace s hs, bootSections_crc s hs]
    simp
  simp only [secsOk, hsecs, hcount, hsigned, hall, happart]
  decide

/-- The image passes every check of R167. -/
theorem slotCode_bootImage : slotCode false [(0, neutralKey)] bootImage = 1 := by
  have hsigned : imgSigned bootImage = 2048 := by decide +kernel
  have hkey : leAt bootImage 2052 4 = 0 := by decide +kernel
  have hhead : imgHeadOk (73#8) bootImage = true := by decide +kernel
  have hisa : leAt bootImage 0x16 2 = 0x0640 := by decide +kernel
  have hformat : imgFormat bootImage = 1 := by decide +kernel
  have hfields : headFieldsOk bootImage = true := by decide +kernel
  have htypes : typesOk bootImage = true := by decide +kernel
  have hverified : edVerify neutralKey (slice bootImage 2056 64) (slice bootImage 2120 64) = true := by decide +kernel
  have hrest : imgCode7 bootImage = true := by
    simp only [imgCode7, hfields, hformat, bootImage_sections, htypes]
    rfl
  simp [slotCode, hsigned, hkey, hhead, hisa, sha512_bootBody, hverified, hrest, FMap.get, show neutralKey ≠ [] by decide]

end Sys2Proof.Machine
end

section
/-! Start-up in parts: the load of the slot chosen, the choice of the slot, and what comes before it (05 R156, R157, R171; 13 R475, R476). -/

namespace Sys2Proof.Machine

open Sys2Proof

/-- Step 9 and the choice of role. -/
def Node.roleStep (n : Node) : Node := (((n.trainProfile).copyLog).wr F.MGT_BOOTINFO_STEP 9).roleChoice

/-- Steps 7 to 10 for a slot; `again` is start-up anew, where a section cannot be read. -/
def Node.bootSlot (again : Node → Node) (n : Node) (fb : Bool) (img mirror : List Byte) : Node :=
  let n := n.startSlot fb img
  if !n.dataOn then n.roleStep else
  match n.loadIsland img (flashSrc img mirror) with
  | some n => n.roleStep
  | none =>
    let other := if fb then n.flash.mainFailed else n.flash.fbFailed
    let n := (n.markSlot fb).wr (if fb then F.MGT_BOOTINFO_FALLBACK else F.MGT_BOOTINFO_MAIN) 7
    if other then n.enterFaulted
    else again ((if fb then n else n.fellBack 0).restartBegin 6)

/-- A COMMIT or REVERT whose copy was cut off is done again, and the node restarts (13 R475). -/
def Node.bootCopy (n : Node) : Node :=
  let n := { n with mode := .updating }.writeMain n.xferImage
  let n := { n with flash := { n.flash with crec := .none, untried := true } }
  ((n.wrs [(F.UPD_STATUS_TRIAL, 0), (F.UPD_STATUS_TRIAL_RESTARTS, 0)]).fault 4 3 2).restartBegin 4

/-- Steps 5 and 6: the main slot, or the fallback slot, or FAULTED (05 R167; 13 R476). -/
def Node.bootChoose (again : Node → Node) (n : Node) : Node :=
  let fc := if n.flash.fbFailed then 7 else slotCode false n.flash.keys n.fbImg
  let third := 3 ≤ n.rd F.UPD_STATUS_TRIAL_RESTARTS ∧ fc = 1
  let mc := if third then 0 else if n.flash.mainFailed then 7 else slotCode false n.flash.keys n.mainImg
  let n := (n.wr F.MGT_BOOTINFO_MAIN mc).wr F.MGT_BOOTINFO_STEP 5
  if mc = 1 then Node.bootSlot again n.onTrial false n.mainImg n.mainMirror
  else
    let n := if third ∨ n.flash.mainFailed then n else n.fault 4 2 (256 * mc)
    let n := (n.wr F.MGT_BOOTINFO_FALLBACK fc).wr F.MGT_BOOTINFO_STEP 6
    if fc ≠ 1 then (if n.flash.fbFailed then n else n.fault 4 2 (1 + 256 * fc)).enterFaulted
    else
      let n := if third then (if n.on F.UPD_STATUS_TRIAL then n.fellBack 1 else n)
        else if n.flash.mainFailed then n else n.fellBack 0
      Node.bootSlot again n true n.fbImg n.fbMirror

/-- Step 3: the ROM and the resident loader (05 R157, R158). -/
def Node.bootFrom (again : Node → Node) (n : Node) : Node :=
  let n := (n.marginMark.put F.PWR_ISLANDS_CONTROL true).wr F.MGT_BOOTINFO_STEP 3
  if n.romBad then (n.fault 0 2 6).enterFaulted
  else if !(n.loaderGood n.flash.loaderCur || n.loaderGood (1 - n.flash.loaderCur)) then n.enterFaulted
  else
    let n := n.wr F.MGT_BOOTINFO_STEP 4
    if n.flash.crec = .copy then again n.bootCopy else Node.bootChoose again n

theorem brecOn_succ {α : Type} (f : (t : Nat) → Nat.below (motive := fun _ => α) t → α) (k : Nat) :
    Nat.brecOn (motive := fun _ => α) (k + 1) f = f (k + 1) (Nat.brecOn.go (motive := fun _ => α) k f) := rfl

theorem brecOn_go {α : Type} (f : (t : Nat) → Nat.below (motive := fun _ => α) t → α) (k : Nat) :
    (Nat.brecOn.go (motive := fun _ => α) k f).1 = Nat.brecOn (motive := fun _ => α) k f := rfl

/-- Start-up is these parts. -/
theorem Node.boot_succ (k : Nat) (n : Node) : Node.boot (k + 1) n = Node.bootFrom (Node.boot k) n := by
  delta Node.boot
  rw [brecOn_succ, ← brecOn_go]
  generalize Nat.brecOn.go k Node.boot._f = again
  delta Node.boot._f Node.bootFrom Node.bootChoose Node.bootSlot Node.bootCopy Node.roleStep
  with_reducible_and_instances rfl

theorem Node.boot_zero (n : Node) : Node.boot 0 n = n.enterFaulted := rfl

end Sys2Proof.Machine
end

section
/-! The end of the over-temperature hold does not always come to an end of start-up (O30): a node of position b that has given way to a tie of the two claims stays in BOOT, waiting for nothing (12 R410). -/

namespace Sys2Proof.Machine

open Sys2Proof

/-- Start-up at the end of step 4. -/
def Node.step4 (n : Node) : Node := ((n.marginMark.put F.PWR_ISLANDS_CONTROL true).wr F.MGT_BOOTINFO_STEP 3).wr F.MGT_BOOTINFO_STEP 4

/-- Start-up at the end of step 5, the main slot having passed. -/
def Node.mainPassed (n : Node) : Node := (n.step4.wr F.MGT_BOOTINFO_MAIN 1).wr F.MGT_BOOTINFO_STEP 5

theorem Node.bootFrom_choose {n : Node} {again : Node → Node} (hrom : n.romBad = false) (hload : n.loaderGood n.flash.loaderCur = true)
    (hrec : n.flash.crec ≠ .copy) : Node.bootFrom again n = Node.bootChoose again n.step4 := by
  have hrom' : ((n.marginMark.put F.PWR_ISLANDS_CONTROL true).wr F.MGT_BOOTINFO_STEP 3).romBad = false := by
    simpa [Node.romBad] using hrom
  have hload' : ((n.marginMark.put F.PWR_ISLANDS_CONTROL true).wr F.MGT_BOOTINFO_STEP 3).loaderGood n.flash.loaderCur = true := by
    simpa [Node.loaderGood] using hload
  simp only [Node.bootFrom, hrom', hload', Node.wr_flash, Node.put_flash, Node.marginMark_flash, hrec, Bool.true_or, Bool.not_true,
    Bool.false_eq_true, if_false]
  rfl

theorem Node.step4_rd (n : Node) (f : Fld) (h1 : f.key ∉ followKeys) (h2 : f.key ≠ F.PWR_ISLANDS_CONTROL.key) (h3 : f.key ≠ F.MGT_BOOTINFO_STEP.key) :
    n.step4.rd f = n.rd f := by
  rw [Node.step4, Node.rd_wr_ne _ _ h3, Node.rd_wr_ne _ _ h3, Node.rd_put_ne _ _ h2, Node.marginMark_rd _ _ h1]

/-- Start-up of a main slot that passes its checks, with the data island kept off, runs on to the choice of role (05 R156). -/
theorem Node.boot_of_main {n : Node} {k : Nat} (hrom : n.romBad = false) (hload : n.loaderGood n.flash.loaderCur = true) (hrec : n.flash.crec ≠ .copy)
    (hrestarts : n.rd F.UPD_STATUS_TRIAL_RESTARTS < 3) (hmain : n.flash.mainFailed = false) (hslot : slotCode false n.flash.keys n.mainImg = 1)
    (htried : n.flash.untried = false) (hoff : (n.mainPassed.startSlot false n.mainImg).dataOn = false) :
    Node.boot (k + 1) n = (n.mainPassed.startSlot false n.mainImg).roleStep := by
  have hthird : ¬ 3 ≤ n.step4.rd F.UPD_STATUS_TRIAL_RESTARTS := by
    rw [Node.step4_rd _ _ (by decide) (by decide) (by decide)]
    omega
  have hflash : n.step4.flash = n.flash := by simp [Node.step4]
  have hon : n.mainPassed.onTrial = n.mainPassed := by simp [Node.onTrial, Node.mainPassed, hflash, htried]
  have himg : n.step4.mainImg = n.mainImg := by simp [Node.mainImg, Node.loneAt, hflash]
  have himg' : n.mainPassed.mainImg = n.mainImg := by simp [Node.mainImg, Node.loneAt, Node.mainPassed, hflash]
  rw [Node.boot_succ, Node.bootFrom_choose hrom hload hrec]
  simp only [Node.bootChoose, hflash, himg, hthird, hmain, hslot, Bool.false_eq_true, false_and, if_false, if_true]
  rw [← Node.mainPassed, hon, himg', Node.bootSlot]
  simp only [hoff, Bool.not_false, if_true]

/-- A node of position b with the image in its main slot, its data island kept off by a rail, held in BOOT by its temperature after it has given way to a tie. -/
def tiedNode : Node :=
  { State.reset.node.wrs [(F.PAIR_STATUS_POS, 2), (F.PWR_ISLANDS_RAIL_FAULT, 1), (F.PWR_STATUS_PRI_OK, 1)] with
    mode := .boot, wait := .overtemp, pair := { tied := some true }, log := { written := 1 },
    flash := { main0 := bootImage, main1 := bootImage, keys := [(0, neutralKey)], loader0 := [0], loaderSig0 := neutralKey ++ zeros 32 } }

/-- Its reading of 20 degrees. -/
def cooled : Node := { (tiedNode.wr F.PWR_TEMP_DIE 20).put F.PWR_STATUS_TEMP_WARN false with wait := .none }

theorem tiedNode_cools : tiedNode.dieReads 20 = Node.boot 8 cooled := by
  have hdie : toSigned 8 ((tiedNode.wr F.PWR_TEMP_DIE (ofSigned 8 (clampS 8 20))).rd F.PWR_TEMP_DIE) = 20 := by decide
  have hwall : toSigned 8 ((tiedNode.wr F.PWR_TEMP_DIE (ofSigned 8 (clampS 8 20))).rd F.PWR_TEMP_WALL) = 0 := by decide
  have hval : ofSigned 8 (clampS 8 20) = 20 := by decide
  have hmode : tiedNode.mode ≠ .off := by decide
  have hwait : tiedNode.wait = .overtemp := rfl
  simp only [Node.dieReads, if_neg hmode, Node.heat, hdie, hwall, Node.tempWarn]
  simp [hwait, hval, cooled]

/-- Start-up comes to the choice of role. -/
theorem cooled_boots : Node.boot 8 cooled = (cooled.mainPassed.startSlot false bootImage).roleStep := by
  refine Node.boot_of_main (k := 7) (by decide) (by decide +kernel) (by decide) (by decide) (by decide) ?_ (by decide) ?_
  · exact slotCode_bootImage
  · decide +kernel

/-- In the end the node is in BOOT and waits for nothing. -/
theorem cooled_stuck : (settle tiedNode (cooled.mainPassed.startSlot false bootImage).roleStep).mode = .boot ∧
    (settle tiedNode (cooled.mainPassed.startSlot false bootImage).roleStep).wait = .none := by decide +kernel

/-- What a command yields holds of the node it settles. -/
theorem Yields.settled {c : Instr} {s : State} {m : Node} {P : Node → Prop} (he : exec c s = s.to m) (h : Yields c s P) : P (settle s.node m) := by
  obtain ⟨t, ht, -, hp⟩ := h
  rw [he] at ht
  cases ht
  exact hp

/-- Refutes O30: at 20 °C start-up goes on, and its choice of role leaves the node in BOOT, not waiting for the partner, ACTIVE, in COLD_STANDBY or FAULTED. -/
theorem not_temperatureAndInputs : ¬ Obligations.TemperatureAndInputs := by
  intro h
  obtain ⟨-, -, -, hends⟩ := h.1 { node := tiedNode } 20 0 (.overtempHoldEnd 20) [(F.PWR_TEMP_DIE, 20)] (by decide) (by decide) (by decide) (by decide)
    (.inr ⟨.inr rfl, by decide, rfl⟩) (by decide) (by decide)
  have hexec : exec (.overtempHoldEnd 20) { node := tiedNode } = State.to { node := tiedNode } (cooled.mainPassed.startSlot false bootImage).roleStep := by
    rw [← cooled_boots, ← tiedNode_cools]
    rfl
  have hmode := (Yields.settled hexec (hends rfl rfl (by decide))).mode
  rw [cooled_stuck.1, cooled_stuck.2] at hmode
  exact absurd hmode (by decide)

end Sys2Proof.Machine
end

section
/-! RX_LINE is one bit, but a state may list any number for it: the model reads every number but 0 as line B, and takes a frame on line B for one on the other line (O58). -/

namespace Sys2Proof.Machine

open Sys2Proof

/-- MVB channel 0 on line B alone, which carries no valid frames, with 2 listed for RX_LINE; a poll of sink port 0 awaits its reply. -/
def lineTwoSelected : Node :=
  { ({} : Node).wrs [(F.PWR_ISLANDS_DATA, 1), (F.PAIR_STATUS_CLAIM_HELD, 1), (F.MVB_CTRL_EN 0, 1), (F.MVB_CTRL_LINE_B 0, 1), (F.FAB_BANK_STATE 0, 1),
      (F.MVB_PORT_EN 0 0, 1), (F.MVB_PORT_DIR 0 0, 2), (F.HLT_SLOT_ENGINE 0, 0)] with
    mode := .boot
    chanSlot := [(8, 1)]
    chans := [(8, { poll := some (0, 0) })]
    fab := { banks := [(0, { free := 1 })] } }

/-- The same with the number no write puts there. -/
def lineTwoListed : Node := { lineTwoSelected with regs := FMap.put 0 lineTwoSelected.regs (F.MVB_STATUS_RX_LINE 0).key 2 }

/-- The reply of two zero bytes on line B. -/
def replyOnB : Instr := .mvbSlaveFrame 0 true 1 [0, 0]

theorem replyOnB_rxLine : readAfter replyOnB { node := lineTwoListed } (F.MVB_STATUS_RX_LINE 0) = some 2 := by decide

/-- Refutes O58: the reply makes line B carry valid frames, which the model then takes for the selected line of number 2, so it does not select line 1. -/
theorem not_mvbChannels : ¬ Obligations.MvbChannels := by
  intro h
  obtain ⟨-, hon, -⟩ := h { node := lineTwoListed } 0 (by decide) (Nat.zero_le _)
  obtain ⟨-, -, -, hslave, -⟩ := hon (by decide)
  obtain ⟨-, -, -, hheard⟩ := hslave (by decide) 1 [0, 0] (by decide)
  obtain ⟨t, ht, -, -, hline, -⟩ := hheard 0 0 0 (by decide) (by decide) (by decide) (by decide) (by decide)
  have hread := replyOnB_rxLine
  simp only [readAfter, replyOnB, ht, hline] at hread
  cases hread

end Sys2Proof.Machine
end

section
/-! A state may list a half of an entry twice among the words a master holds; the model then asks for any listing that is complete where the statement asks for the first (O37). -/

namespace Sys2Proof.Machine

open Sys2Proof

/-- The words with an uncorrectable error after a command that answers a next state. -/
def poisonAfter (c : Instr) (s : State) : Option (List Nat) :=
  match exec c s with
  | .next t => some t.node.poison
  | _ => none

theorem Leaves.poisonAfter_eq {c : Instr} {s : State} {m : Node} (h : Leaves c s m) : poisonAfter c s = some m.poison := by
  obtain ⟨t, ht, -, hm⟩ := h
  simp only [poisonAfter, ht, hm.poison]

/-- A table 0 of one word an entry, whose entry 0 has an uncorrectable error; the executive holds its lower half twice, with no byte of the first and with every byte of the second. -/
def halfHeldTwice : Node :=
  { inService with
    tabs := [{ num := 0, n := 1, entries := 8 }]
    poison := [tabAddr 0]
    holds := [{ key := mkeyOf executive, block := blockOf (tabAddr 0), addr := tabAddr 0, words := [(0, 0), (64 * 15, 0)] }] }

/-- The write of the entry's upper half. -/
def upperHalf : Access := wordWrite executive (tabAddr 0 + 4) 0

theorem upperHalf_passes : Passes halfHeldTwice upperHalf :=
  ⟨rfl, rfl, by decide, by decide, fun _ => by decide⟩

theorem upperHalf_poison : poisonAfter (.tableWindowWrite executive (tabAddr 0 + 4) 4 0) { node := halfHeldTwice } = some [] := by decide +kernel

/-- Refutes O37: the model takes the error away, and the first listing of the lower half holds no byte. -/
theorem not_tableWindow : ¬ Obligations.TableWindow := by
  intro h
  obtain ⟨hv, -, -, -, hlast⟩ := h.1 { node := halfHeldTwice } executive (tabAddr 0 + 4) 4 0 { num := 0, n := 1, entries := 8 } false 0 0 upperHalf_passes
    (by decide) (by decide) (by decide) (by decide) (by decide) rfl (by decide) (by decide) (by decide)
  obtain ⟨mem, poison, buckets, hanswer, -, -, -, -, -, -, -, -, hpoison, -⟩ := hlast (by decide) (by decide)
  have hleaves := (hanswer (Nat.zero_le _) (Nat.zero_le _)).poisonAfter_eq
  rw [upperHalf_poison] at hleaves
  have hgone : poison = [] := (Option.some.inj hleaves).symm
  have hstays := (hpoison (tabAddr 0)).mpr ⟨by decide, fun hfull => absurd (hfull.1 0 (by decide)) (by decide)⟩
  rw [hgone] at hstays
  cases hstays

end Sys2Proof.Machine
end

section
/-! Captured reads of values of several words, and delta views (00 R533; 07 R252; 09 R315). -/

namespace Sys2Proof.Machine

open Sys2Proof

/-! ### Word reads of registers -/

/-- A word read of a register, past the fabric. -/
theorem Node.bus_regRead {n : Node} {m : Master} {a : Nat} {r : Reg} (h : Passes n (wordRead m a)) (hr : regAt a = some r)
    (ht : targetOf a = some .regs) (ha : a % 4 = 0) :
    n.bus (wordRead m a) = (none, (n.regRead (n.presented m) r).2.emit (.resp m true (n.regRead (n.presented m) r).1)) := by
  rw [Node.bus_of_free h.lock h.waits (targetOf_lt ht) (.inr (Nat.le_refl 4)),
    Node.access_read h ht rfl (by simp [Access.sizeOk, Access.word, wordRead, ha]) (Access.inside_word rfl ha)]
  simp only [Node.busRead, wordRead, hr]
  rfl

/-- A read of a word of a value of several words, in a unit that is powered. -/
theorem Node.regRead_wide {n : Node} {m : Master} {r : Reg} {base k : Nat} {rs : List Reg} (hp : n.regUnpowered r = false)
    (hw : wideReg r = some (base, k, rs)) : n.regRead m r = n.wideRead m base k (rs.map (n.regShow m)) := by
  simp only [Node.regRead, hp, hw]
  rfl

/-! ### Captures -/

/-- The captures with one more, in place of the master's last one in that block. -/
def Node.capsWith (n : Node) (m : Master) (base : Nat) (words : List (Nat × Nat)) : List Capture :=
  n.caps.filter (fun x => !(x.key == mkeyOf m && x.block == blockOf base)) ++ [{ key := mkeyOf m, block := blockOf base, addr := base, words := words }]

theorem Node.wideRead_first (n : Node) (m : Master) (base : Nat) (ws : List Nat) :
    n.wideRead m base 0 ws = (ws.getD 0 0, { n with caps := n.capsWith m base ((List.range ws.length).map (fun i => (i, ws.getD i 0))) }) := rfl

/-- The capture just taken is the one the master holds. -/
theorem Node.capAt_capsWith (n : Node) (m : Master) (base : Nat) (words : List (Nat × Nat)) :
    Node.capAt { n with caps := n.capsWith m base words } m base = some { key := mkeyOf m, block := blockOf base, addr := base, words := words } := by
  have hold : (n.caps.filter (fun x => !(x.key == mkeyOf m && x.block == blockOf base))).find?
      (fun c => c.key == mkeyOf m && c.block == blockOf base && c.addr == base) = none := by
    rw [List.find?_eq_none]
    intro c hc
    have hne := (List.mem_filter.mp hc).2
    simp only [Bool.not_eq_true'] at hne
    simp [hne]
  simp only [Node.capAt, Node.capsWith, List.find?_append, hold]
  simp

theorem Node.wideRead_higher {n : Node} {m : Master} {base k w : Nat} {ws : List Nat} {c : Capture} (hk : 0 < k) (hc : n.capAt m base = some c)
    (hw : c.words.find? (fun x => x.1 == k) = some (k, w)) : n.wideRead m base k ws = (w, n) := by
  simp only [Node.wideRead, if_neg (Nat.ne_of_gt hk), hc, hw]
  rfl

/-- Register `k` of the value of several words at `base`. -/
structure WideAt (base : Nat) (rs : List Reg) (k : Nat) (r : Reg) : Prop where
  reg : regAt (base + 4 * k) = some r
  regs : targetOf (base + 4 * k) = some .regs
  wide : wideReg r = some (base, k, rs)

/-- A read of the lowest word captures the value for the master and answers that word. -/
theorem wide_captures {s : State} {m : Master} {base : Nat} {rs : List Reg} {r : Reg} (hr : WideAt base rs 0 r) (hb : base % 4 = 0)
    (hp : s.node.regUnpowered r = false) (h : Passes s.node (wordRead m base)) :
    ∃ caps, Answered (.capturingRead m base 4) s m ((rs.map (s.node.regShow (s.node.presented m))).getD 0 0) { s.node with caps := caps } ∧
      ∃ c, Node.capAt { s.node with caps := caps } (s.node.presented m) base = some c ∧
        c.words = (List.range rs.length).map (fun i => (i, (rs.map (s.node.regShow (s.node.presented m))).getD i 0)) := by
  refine ⟨s.node.capsWith (s.node.presented m) base ((List.range rs.length).map (fun i => (i, (rs.map (s.node.regShow (s.node.presented m))).getD i 0))),
    .of_bus (x := wordRead m base) rfl ?_, _, Node.capAt_capsWith _ _ _ _, rfl⟩
  rw [Node.bus_regRead h hr.reg hr.regs hb, Node.regRead_wide hp hr.wide, Node.wideRead_first, List.length_map]

/-- A read of a higher word answers the word captured and changes nothing. -/
theorem wide_answers {s : State} {m : Master} {base k w : Nat} {rs : List Reg} {r : Reg} {c : Capture} (hr : WideAt base rs k r) (hb : base % 4 = 0)
    (hp : s.node.regUnpowered r = false) (h : Passes s.node (wordRead m (base + 4 * k))) (hk : 0 < k)
    (hc : s.node.capAt (s.node.presented m) base = some c) (hw : c.words.find? (fun x => x.1 == k) = some (k, w)) :
    Answered (.higherWordRead m (base + 4 * k) 4) s m w s.node := by
  refine .of_bus (x := wordRead m (base + 4 * k)) rfl ?_
  rw [Node.bus_regRead h hr.reg hr.regs (by omega), Node.regRead_wide hp hr.wide, Node.wideRead_higher hk hc hw]

/-! ### The values -/

/-- The registers that show node time. -/
def timeRegs : List Reg := [.TIM_NOW_SLO, .TIM_NOW_SHI, .TIM_NOW_NS, .TIM_NOW_FRAC]

theorem timeRegs_at : ∀ k < 4, WideAt 0x10100010 timeRegs k (timeRegs.getD k .PRO_CTRL) := by
  intro k hk
  interval_cases k <;> exact ⟨by decide, by decide, rfl⟩

/-- A watch register is always powered. -/
theorem timeRegs_powered (n : Node) : ∀ k < 4, n.regUnpowered (timeRegs.getD k .PRO_CTRL) = false := by
  intro k hk
  interval_cases k <;> rfl

/-- The registers that show a port counter. -/
def countRegs (p i : Nat) : List Reg := [.PRT_CNT_LO p i, .PRT_CNT_HI p i]

/-- The ports' registers, by address. -/
theorem regAt_port {a : Nat} (h : 0x10300000 ≤ a) (h' : a < 0x10400000) : regAt a = regPRT a := by
  unfold regAt
  repeat rw [if_neg (by omega)]
  rw [if_pos h']

theorem countLo_regAt {p i : Nat} (hp : p < 23) (hi : i < 64) : regAt (0x10300800 + 0x1000 * p + 0x8 * i) = some (.PRT_CNT_LO p i) := by
  rw [regAt_port (by omega) (by omega)]
  unfold regPRT fam1 fam2
  repeat rw [if_neg (by omega)]
  rw [if_pos (by omega)]
  congr 2 <;> omega

theorem countHi_regAt {p i : Nat} (hp : p < 23) (hi : i < 64) : regAt (0x10300804 + 0x1000 * p + 0x8 * i) = some (.PRT_CNT_HI p i) := by
  rw [regAt_port (by omega) (by omega)]
  unfold regPRT fam1 fam2
  repeat rw [if_neg (by omega)]
  rw [if_pos (by omega)]
  congr 2 <;> omega

theorem portReg_target {p a : Nat} (hp : p < 23) (ha : 0x10300000 + 0x1000 * p ≤ a) (hb : a < 0x10301000 + 0x1000 * p) : targetOf a = some .regs := by
  unfold targetOf
  repeat rw [if_neg (by omega)]
  rw [if_pos (by omega)]

theorem countRegs_at {p i : Nat} (hp : p < 23) (hi : i < 64) : ∀ k < 2, WideAt (Reg.PRT_CNT_LO p i).addr (countRegs p i) k ((countRegs p i).getD k .PRO_CTRL) := by
  intro k hk
  refine ⟨?_, portReg_target hp ?_ ?_, ?_⟩
  · obtain rfl | rfl : k = 0 ∨ k = 1 := by omega
    · exact countLo_regAt hp hi
    · rw [show (Reg.PRT_CNT_LO p i).addr + 4 * 1 = 0x10300804 + 0x1000 * p + 0x8 * i by simp only [Reg.addr]; omega]
      exact countHi_regAt hp hi
  · simp only [Reg.addr]; omega
  · simp only [Reg.addr]; omega
  · interval_cases k <;> rfl

theorem Node.regUnpowered_of_on {n : Node} (r : Reg) (h : n.dataOn = true) : n.regUnpowered r = false := by
  simp [Node.regUnpowered, h]

/-! ### Delta views -/

theorem delta_regAt {p i : Nat} (hp : p < 23) (hi : i < 64) : regAt (0x10300A00 + 0x1000 * p + 0x4 * i) = some (.PRT_DELTA p i) := by
  rw [regAt_port (by omega) (by omega)]
  unfold regPRT fam1 fam2
  repeat rw [if_neg (by omega)]
  rw [if_pos (by omega)]
  congr 2 <;> omega

/-- A read of a delta view, past the fabric. -/
theorem Node.bus_delta {n : Node} {m : Master} {p i : Nat} (hp : p < 23) (hi : i < 64) (hd : n.dataOn = true)
    (h : Passes n (wordRead m (Reg.PRT_DELTA p i).addr)) :
    n.bus (wordRead m (Reg.PRT_DELTA p i).addr) =
      (none, (n.readEffect (n.presented m) (.PRT_DELTA p i)).emit (.resp m true (FMap.get 0 n.delta (p * 64 + i)))) := by
  have ht : targetOf (Reg.PRT_DELTA p i).addr = some .regs := by
    refine portReg_target hp ?_ ?_ <;> simp only [Reg.addr] <;> omega
  rw [Node.bus_regRead h (delta_regAt hp hi) ht (by simp only [Reg.addr]; omega)]
  simp only [Node.regRead, Node.regUnpowered_of_on _ hd]
  rfl

/-- What the fabric presents as a far node's identity is a far node's. -/
theorem Node.presented_far (n : Node) (m : Master) : (n.presented m).id = 3 ∨ (n.presented m).id = 4 ↔ m.id = 3 ∨ m.id = 4 := by
  unfold Node.presented
  split
  · rename_i hm
    simp only [hm, iff_true]
    split <;> simp
  · rfl

/-- Settles O35: the registers of a value of several words share one capture for each master and block. -/
theorem capturedReads : Obligations.CapturedReads := by
  unfold Obligations.CapturedReads
  refine ⟨?_, ?_⟩
  · intro s m a k n p value h
    have key : ∀ base rs ws, base % 4 = 0 → rs.map (n.regShow p) = ws → (∀ k < rs.length, WideAt base rs k (rs.getD k .PRO_CTRL)) →
        (∀ k < rs.length, n.regUnpowered (rs.getD k .PRO_CTRL) = false) → 0 < rs.length → value base ws := by
      rintro base rs ws hb rfl hat hpow hpos
      refine ⟨?_, ?_⟩
      · rintro rfl rfl
        have hcap := wide_captures (s := s) (hat 0 hpos) hb (hpow 0 hpos) h
        rwa [← List.length_map (f := n.regShow p)] at hcap
      · rintro rfl hk hlen c w hc hw
        rw [List.length_map] at hlen
        exact wide_answers (hat k hlen) hb (hpow k hlen) h hk hc hw
    refine ⟨key _ timeRegs _ (by decide) rfl timeRegs_at (timeRegs_powered n) (by decide), fun port i hp hi hd => ?_⟩
    exact key _ (countRegs port i) _ (by simp only [Reg.addr]; omega) rfl (countRegs_at hp hi) (fun _ _ => Node.regUnpowered_of_on _ hd) (Nat.zero_lt_two)
  · intro s m p i hp hi hd h k d
    have hbus := Node.bus_delta hp hi hd h
    have hexec : exec (.deltaViewRead m p i) s = s.toBus (s.node.bus (wordRead m (Reg.PRT_DELTA p i).addr)) := by
      change State.given s (decide (p < 23) && decide (i < 64)) _ = _
      rw [State.given, decide_eq_true hp, decide_eq_true hi]
      rfl
    refine ⟨fun h3 h4 => ?_, fun hfar => ?_⟩
    · have hnear : ¬ ((s.node.presented m).id = 3 ∨ (s.node.presented m).id = 4) := by
        rw [Node.presented_far]
        exact not_or.mpr ⟨h3, h4⟩
      simp only [Node.readEffect, if_neg hnear] at hbus
      exact .of_bus hexec hbus
    · simp only [Node.readEffect, if_pos ((s.node.presented_far m).mpr hfar)] at hbus
      exact .of_bus hexec hbus

end Sys2Proof.Machine
end

section
/-! A master's writes of mailboxes, code memories, management RAM and signal slots (03 R88, R117; 14 R500, R501). -/

namespace Sys2Proof.Machine

open Sys2Proof

/-! ### Addresses -/

theorem targetOf_ram {a : Nat} (h : 0x100000 ≤ a) (h' : a < 0x300000) : targetOf a = some .ram := by
  unfold targetOf
  repeat rw [if_neg (by omega)]
  rw [if_pos h']

/-- An address in the space of a Scarab engine. -/
theorem targetOf_engine {a e o : Nat} (he : e < 18) (ho : o < 0x100000) (ha : a = 0x20000000 + 0x100000 * e + o) :
    targetOf a = if o < 0x40000 then some .regs else if o < 0x7F000 then some (.sig e) else if o < 0x80000 then some (.mbox e)
      else if o < 0x90000 then some (.code e) else some .regs := by
  have hq : (a - 0x20000000) / 0x100000 = e := by omega
  have hr : a % 0x100000 = o := by omega
  unfold targetOf
  repeat rw [if_neg (by omega)]
  rw [if_pos (by omega), hq, hr]

theorem targetOf_mbox {a e : Nat} (he : e < 19) (h : mboxBase e ≤ a) (h' : a < mboxBase e + 0x1000) : targetOf a = some (.mbox e) := by
  by_cases h18 : e = 18
  · subst h18
    have h1 : 0x105BF000 ≤ a := h
    have h2 : a < 0x105C0000 := h'
    unfold targetOf
    repeat rw [if_neg (by omega)]
    rw [if_pos h2]
  · simp only [mboxBase, engBase, if_neg h18] at h h'
    rw [targetOf_engine (e := e) (o := a - 0x20000000 - 0x100000 * e) (by omega) (by omega) (by omega), if_neg (by omega), if_neg (by omega), if_pos (by omega)]

theorem targetOf_code {a e : Nat} (he : e < 19) (h : codeBase e ≤ a) (h' : a < codeBase e + codeSize e) : targetOf a = some (.code e) := by
  by_cases h18 : e = 18
  · subst h18
    have h1 : 0x10580000 ≤ a := h
    have h2 : a < 0x105BF000 := h'
    unfold targetOf
    repeat rw [if_neg (by omega)]
    rw [if_pos h2]
  · simp only [codeBase, codeSize, engBase, if_neg h18] at h h'
    rw [targetOf_engine (e := e) (o := a - 0x20000000 - 0x100000 * e) (by omega) (by omega) (by omega), if_neg (by omega), if_neg (by omega), if_neg (by omega),
      if_pos (by omega)]

theorem targetOf_sig {a e : Nat} (he : e < 18) (h : sigBase e ≤ a) (h' : a < sigBase e + 0x3F000) : targetOf a = some (.sig e) := by
  simp only [sigBase, engBase, if_neg (show e ≠ 18 by omega)] at h h'
  rw [targetOf_engine (e := e) (o := a - 0x20000000 - 0x100000 * e) (by omega) (by omega) (by omega), if_neg (by omega), if_pos (by omega)]

/-! ### Writes past the fabric -/

/-- A write that the fabric lets through reaches its target and is answered. -/
theorem Node.bus_write {n : Node} {x : Access} {t : Target} (h : Passes n x) (ht : targetOf x.addr = some t) (hw : x.wr = true)
    (hrom : t ≠ .rom) (hz : x.sizeOk t = true) (hi : x.inside = true) (hc : n.codeShut (n.presented x.m) t = false) :
    n.bus x = ((n.leased x.m).busWrite { x with m := n.presented x.m } t).answer x.m := by
  rw [Node.bus_of_free h.lock h.waits (targetOf_lt ht) (.inl hw), Node.access_write h ht hw hrom hz hi hc]

@[simp] theorem Node.leased_mem (n : Node) (m : Master) : (n.leased m).mem = n.mem := by
  obtain ⟨t, ht⟩ := n.leased_eq m
  rw [ht]

@[simp] theorem Node.leased_mode (n : Node) (m : Master) : (n.leased m).mode = n.mode := by
  obtain ⟨t, ht⟩ := n.leased_eq m
  rw [ht]

@[simp] theorem Node.leased_holds (n : Node) (m : Master) : (n.leased m).holds = n.holds := by
  obtain ⟨t, ht⟩ := n.leased_eq m
  rw [ht]

@[simp] theorem Node.leased_eng (n : Node) (m : Master) (e : Nat) : (n.leased m).eng e = n.eng e := by
  obtain ⟨t, ht⟩ := n.leased_eq m
  rw [ht]
  rfl

@[simp] theorem Node.leased_dataOn (n : Node) (m : Master) : (n.leased m).dataOn = n.dataOn := n.leased_on m _

/-- A write of `k` bytes of memory, answered, with nothing else changed. -/
theorem memory_written {c : Instr} {s : State} {m : Master} {x : Access} {a k v : Nat} (he : exec c s = s.toBus (s.node.bus x))
    (hwf : Memory.wf s.node.mem = true)
    (hb : s.node.bus x = (none, Node.emit { s.node.leased m with mem := memWrite (s.node.leased m).mem a (leBytes k v) } (.resp m true 0))) :
    ∃ mem, Answered c s m 0 { s.node.leased m with mem := mem } ∧ Memory.wf mem = true ∧
      (∀ i, i < k → memRead mem (a + i) = BitVec.ofNat 8 (v / 256 ^ i)) ∧ (∀ y, y < a ∨ a + k ≤ y → memRead mem y = memRead s.node.mem y) := by
  refine ⟨_, .of_bus he hb, memWrite_wf _ _ _ (by rwa [Node.leased_mem]), fun i hi => ?_, fun y hy => ?_⟩
  · have hbyte := leBytes_getD k v i hi
    rw [List.getD_eq_getElem _ _ (by rwa [leBytes_length])] at hbyte
    rw [memRead_memWrite_inside _ _ _ _ (by rwa [leBytes_length])]
    exact BitVec.eq_of_toNat_eq (by rw [hbyte, BitVec.toNat_ofNat])
  · rw [memRead_memWrite_outside _ _ _ _ (by rwa [leBytes_length]), Node.leased_mem]

/-! ### Signal slots -/

/-- A write of a signal slot's word, past the fabric. -/
theorem Node.bus_sig {n : Node} {m : Master} {e a v : Nat} (h : Passes n (wordWrite m a v)) (hd : n.dataOn = true) (ha : a % 4 = 0) (he : e < 18)
    (h1 : sigBase e ≤ a) (h2 : a + 4 ≤ sigBase e + 0x3F000) :
    n.bus (wordWrite m a v) = (none, ((n.leased m).sigWrite (n.presented m) e a (v % 2 ^ 32)).emit (.resp m true 0)) := by
  rw [Node.bus_write h (targetOf_sig he h1 (show a < _ by omega)) rfl (by simp) (by simp [Access.sizeOk, Access.word, wordWrite, ha])
    (Access.inside_word rfl ha) rfl]
  simp only [Node.busWrite, Node.leased_dataOn, hd, wordWrite]
  rfl

/-- The words that the masters hold, without the one's in the block of an address. -/
def Node.holdsBut (n : Node) (m : Master) (a : Nat) : List Capture := n.holds.filter (fun c => !(c.key == mkeyOf m && c.block == blockOf a))

/-- The lower word of a half is held for the master. -/
theorem Node.sigWrite_lower {n : Node} {m : Master} {e a v : Nat} (ha : a % 8 = 0) :
    n.sigWrite m e a v = { n with holds := n.holdsBut m (a / 8 * 8) ++ [{ key := mkeyOf m, block := blockOf (a / 8 * 8), addr := a / 8 * 8, words := [(0, v)] }] } := by
  simp only [Node.sigWrite, if_pos ha]
  rfl

/-- What an upper word sends to the engine's next activation boundary. -/
def Node.ownerSend (n : Node) (m : Master) (e a : Nat) (w : Nat × Nat) : Node :=
  { n with holds := n.holdsBut m (a / 8 * 8) }.setEng e { n.eng e with ownerWr := (n.eng e).ownerWr ++ [w] }

/-- The upper word goes with the lower word held for the entry. -/
theorem Node.sigWrite_both {n : Node} {m : Master} {e a v lo : Nat} {c : Capture} (ha : a % 8 ≠ 0) (hc : n.holdAt m (a / 8 * 8) = some c)
    (hw : c.words = [(0, lo)]) : n.sigWrite m e a v = n.ownerSend m e a (a / 8 * 8, lo + v * 2 ^ 32) := by
  simp only [Node.sigWrite, if_neg ha, hc, hw]
  rfl

/-- Without one it goes alone. -/
theorem Node.sigWrite_upper {n : Node} {m : Master} {e a v : Nat} (ha : a % 8 = 4) (hc : n.holdAt m (a / 8 * 8) = none) :
    n.sigWrite m e a v = n.ownerSend m e a (a, v) := by
  have hb : a / 8 * 8 + 4 = a := by omega
  simp only [Node.sigWrite, if_neg (show a % 8 ≠ 0 by omega), hc, hb]
  rfl

/-- Settles O36: past the fabric each target takes the bytes written. -/
theorem memoryWrites : Obligations.MemoryWrites := by
  intro s m e a size v he hwf n p stores
  refine ⟨fun h hsize => ?_, fun h hd ha => ⟨fun h1 h2 hid hrun => ?_, fun he' h1 h2 => ?_⟩⟩
  · have hz : (size == 1 || size == 2 || size == 4) = true := by rcases hsize with rfl | rfl | rfl <;> rfl
    have hpos : 0 < size := by omega
    refine ⟨fun hmode h1 h2 => ?_, fun hd h1 h2 => ?_⟩
    · refine memory_written (x := { wordWrite m a v with size := size }) rfl hwf ?_
      have hin : Access.inside { wordWrite m a v with size := size } = true := by
        simp [Access.inside, wordWrite, targetOf_ram h1 (show a < _ by omega), targetOf_ram (show 0x100000 ≤ a + size - 1 by omega) (by omega), hpos.ne']
      rw [Node.bus_write h (targetOf_ram h1 (show a < _ by omega)) rfl (by decide) hz hin rfl]
      rw [Node.busWrite, if_neg (by rwa [Node.leased_mode])]
      rfl
    · refine memory_written (x := { wordWrite m a v with size := size }) rfl hwf ?_
      have hin : Access.inside { wordWrite m a v with size := size } = true := by
        simp [Access.inside, wordWrite, targetOf_mbox he h1 (show a < _ by omega), targetOf_mbox he (show mboxBase e ≤ a + size - 1 by omega) (by omega), hpos.ne']
      rw [Node.bus_write h (targetOf_mbox he h1 (show a < _ by omega)) rfl (by simp) hz hin rfl]
      rw [Node.busWrite, if_pos (by rwa [Node.leased_dataOn])]
      rfl
  · refine memory_written (x := wordWrite m a v) rfl hwf ?_
    have hc : n.codeShut p (.code e) = false := by simp [Node.codeShut, hid, hrun]
    rw [Node.bus_write h (targetOf_code he h1 (show a < _ by omega)) rfl (by simp) (by simp [Access.sizeOk, Access.word, wordWrite, ha])
      (Access.inside_word rfl ha) hc]
    rw [Node.busWrite, if_pos (by rwa [Node.leased_dataOn])]
    rfl
  · intro entry rest sends
    have hbus := Node.bus_sig h hd ha he' h1 h2
    have hrest : (n.leased m).holdsBut p entry = rest := by simp only [Node.holdsBut, Node.leased_holds]; rfl
    have hsend : ∀ w, n.bus (wordWrite m a v) = (none, ((n.leased m).ownerSend p e a w).emit (.resp m true 0)) → sends w := by
      intro w hw
      refine .of_bus (x := wordWrite m a v) rfl ?_
      rw [hw, Node.ownerSend, hrest, Node.leased_eng]
    have hat : (n.leased m).holdAt p entry = n.holdAt p entry := by simp only [Node.holdAt, Node.leased_holds]
    refine ⟨fun h8 => ?_, fun h8 => ⟨fun c lo hc hw => hsend _ ?_, fun hc => hsend _ ?_⟩⟩
    · refine .of_bus (x := wordWrite m a v) rfl ?_
      rw [hbus, Node.sigWrite_lower h8, hrest]
    · rw [hbus, Node.sigWrite_both (by omega) (hat.trans hc) hw]
    · rw [hbus, Node.sigWrite_upper h8 (hat.trans hc)]

end Sys2Proof.Machine
end

section
/-! Writes of different fields commute, as lists and not only as what is read. -/

namespace Sys2Proof.Machine

open Sys2Proof

theorem FMap.put_comm_of_lt {β : Type} [DecidableEq β] (d d' : β) (m : FMap β) {k j : Nat} (v w : β) (h : k < j) :
    FMap.put d' (FMap.put d m k v) j w = FMap.put d (FMap.put d' m j w) k v := by
  have hkeep {i : Nat} (c u : β) (q : Nat × β → Bool) (hq : q (i, u) = true) :
      (if u = c then [] else [(i, u)]).filter q = if u = c then [] else [(i, u)] := by
    split <;> simp [hq]
  have hdrop {i : Nat} (c u : β) (q : Nat × β → Bool) (hq : q (i, u) = false) : (if u = c then [] else [(i, u)]).filter q = [] := by
    split <;> simp [hq]
  have hlow : (m.filter fun e => decide (e.1 < j)).filter (fun e => decide (e.1 < k)) = m.filter (fun e => decide (e.1 < k)) := by
    rw [List.filter_filter]
    exact List.filter_congr fun e _ => by by_cases he : e.1 < k <;> simp [he]; omega
  have hlow' : (m.filter fun e => decide (e.1 < k)).filter (fun e => decide (e.1 < j)) = m.filter (fun e => decide (e.1 < k)) := by
    rw [List.filter_filter]
    exact List.filter_congr fun e _ => by by_cases he : e.1 < k <;> simp [he]; omega
  have hhigh : (m.filter fun e => decide (k < e.1)).filter (fun e => decide (j < e.1)) = m.filter (fun e => decide (j < e.1)) := by
    rw [List.filter_filter]
    exact List.filter_congr fun e _ => by by_cases he : j < e.1 <;> simp [he]; omega
  have hhigh' : (m.filter fun e => decide (j < e.1)).filter (fun e => decide (k < e.1)) = m.filter (fun e => decide (j < e.1)) := by
    rw [List.filter_filter]
    exact List.filter_congr fun e _ => by by_cases he : j < e.1 <;> simp [he]; omega
  have hnone : (m.filter fun e => decide (e.1 < k)).filter (fun e => decide (j < e.1)) = [] := by
    rw [List.filter_filter]
    exact List.filter_eq_nil_iff.mpr fun e _ => by simp; omega
  have hnone' : (m.filter fun e => decide (j < e.1)).filter (fun e => decide (e.1 < k)) = [] := by
    rw [List.filter_filter]
    exact List.filter_eq_nil_iff.mpr fun e _ => by simp; omega
  have hmid : (m.filter fun e => decide (k < e.1)).filter (fun e => decide (e.1 < j)) = (m.filter fun e => decide (e.1 < j)).filter (fun e => decide (k < e.1)) := by
    rw [List.filter_filter, List.filter_filter]
    exact List.filter_congr fun e _ => Bool.and_comm _ _
  unfold FMap.put
  simp only [List.filter_append, hlow, hlow', hhigh, hhigh', hnone, hnone', hmid, hkeep d v (fun e => decide (e.1 < j)) (decide_eq_true h),
    hdrop d v (fun e => decide (j < e.1)) (decide_eq_false (Nat.not_lt.mpr h.le)), hdrop d' w (fun e => decide (e.1 < k)) (decide_eq_false (Nat.not_lt.mpr h.le)),
    hkeep d' w (fun e => decide (k < e.1)) (decide_eq_true h), List.append_assoc, List.nil_append, List.append_nil]

theorem FMap.put_comm {β : Type} [DecidableEq β] (d d' : β) (m : FMap β) {k j : Nat} (v w : β) (h : k ≠ j) :
    FMap.put d' (FMap.put d m k v) j w = FMap.put d (FMap.put d' m j w) k v := by
  rcases Nat.lt_or_gt_of_ne h with hl | hl
  · exact FMap.put_comm_of_lt d d' m v w hl
  · exact (FMap.put_comm_of_lt d' d m w v hl).symm

/-- Writes of different fields commute. -/
theorem Node.wr_comm (n : Node) {f g : Fld} (v w : Nat) (h : f.key ≠ g.key) : (n.wr f v).wr g w = (n.wr g w).wr f v := by
  simp only [Node.wr, FMap.put_comm f.rst g.rst n.regs (v % 2 ^ f.w) (w % 2 ^ g.w) h]

theorem Node.wrs_cons (n : Node) (f : Fld) (v : Nat) (l : List (Fld × Nat)) : n.wrs ((f, v) :: l) = (n.wr f v).wrs l := rfl

/-- A write goes before those of other fields. -/
theorem Node.wrs_wr_comm (f : Fld) (v : Nat) (l : List (Fld × Nat)) (h : ∀ e ∈ l, e.1.key ≠ f.key) (n : Node) :
    (n.wrs l).wr f v = (n.wr f v).wrs l := by
  induction l generalizing n with
  | nil => rfl
  | cons e l ih =>
    obtain ⟨g, w⟩ := e
    rw [Node.wrs_cons, ih (fun x hx => h x (List.mem_cons_of_mem _ hx)), Node.wrs_cons, Node.wr_comm n w v (h _ List.mem_cons_self)]

end Sys2Proof.Machine
end

section
/-! Register writes that are refused (05 R173-R178; 13 R455-R459; 14 R485). -/

namespace Sys2Proof.Machine

open Sys2Proof

/-! ### What a refusal leaves -/

/-- The writes that record a violation of a write, held where none is (R176). -/
def Node.violWrites (n : Node) (p : Master) (a : Nat) (region : Option Nat) : List (Fld × Nat) :=
  (F.PRO_VIOL_COUNT_COUNT, min (n.rd F.PRO_VIOL_COUNT_COUNT + 1) (2 ^ 32 - 1)) ::
    if n.on F.PRO_VIOL_VALID then [] else
      [(F.PRO_VIOL_VALID, 1), (F.PRO_VIOL_ID, p.id), (F.PRO_VIOL_FARPOS, if p.id = 3 ∨ p.id = 4 then p.pos else 0),
       (F.PRO_VIOL_REGION, region.getD 0), (F.PRO_VIOL_WB_LATE, 0), (F.PRO_VIOL_NONE, b2n region.isNone), (F.PRO_VIOL_WRITE, 1),
       (F.PRO_VIOL_ADDR_ADDR, a)]

/-- What follows a count in a record that is kept where none is held. -/
theorem Node.inc_record (n : Node) (f g : Fld) (l : List (Fld × Nat)) (h : g.key ≠ f.key) :
    (if (n.inc f).on g then n.inc f else (n.inc f).wrs l) = n.wrs ((f, satInc f.w (n.rd f)) :: if n.on g then [] else l) := by
  have hg : (n.inc f).on g = n.on g := by rw [Node.on, Node.on, Node.rd_inc_ne _ h]
  rw [hg, Node.wrs_cons]
  cases n.on g <;> rfl

theorem Node.viol_eq (n : Node) (p : Master) (a v : Nat) (region : Option Nat) :
    n.viol { wordWrite p a v with m := p } region false = n.wrs (n.violWrites p a region) :=
  n.inc_record F.PRO_VIOL_COUNT_COUNT F.PRO_VIOL_VALID _ (by decide)

/-- The writes that record a command not carried out (R458, R459). -/
def Node.rejectWrites (n : Node) (p : Master) (a k reason : Nat) : List (Fld × Nat) :=
  (F.MGT_REJECT_COUNT_COUNT, min (n.rd F.MGT_REJECT_COUNT_COUNT + 1) (2 ^ 32 - 1)) ::
    if n.on F.MGT_REJECT_VALID then [] else
      [(F.MGT_REJECT_VALID, 1), (F.MGT_REJECT_REASON, reason), (F.MGT_REJECT_ID, p.id), (F.MGT_REJECT_STATE, modeCode n.mode),
       (F.MGT_REJECT_CODE, k), (F.MGT_REJECT_ADDR_ADDR, a)]

theorem Node.cmdRefused_eq (n : Node) (p : Master) (a v k : Nat) (busy : Bool) :
    n.cmdRefused (wordWrite p a v) busy k = n.wrs (n.rejectWrites p a k (b2n busy)) :=
  n.inc_record F.MGT_REJECT_COUNT_COUNT F.MGT_REJECT_VALID _ (by decide)

theorem Node.rejectWrites_leased (n : Node) (m p : Master) (a k reason : Nat) : (n.leased m).rejectWrites p a k reason = n.rejectWrites p a k reason := by
  simp only [Node.rejectWrites, Node.leased_rd, Node.leased_on, Node.leased_mode]

theorem Node.ownRefused_eq (n : Node) (p : Master) (a v : Nat) :
    n.ownRefused (wordWrite p a v) = n.wrs ((F.MGT_OWN_REFUSALS_COUNT, min (n.rd F.MGT_OWN_REFUSALS_COUNT + 1) (2 ^ 32 - 1)) ::
      if n.on F.MGT_OWN_LOG_VALID then [] else [(F.MGT_OWN_LOG_VALID, 1), (F.MGT_OWN_LOG_ID, p.id), (F.MGT_OWN_LOG_ADDR_ADDR, a)]) :=
  n.inc_record F.MGT_OWN_REFUSALS_COUNT F.MGT_OWN_LOG_VALID _ (by decide)

theorem Node.pviol_counted {n : Node} {k arg : Nat} (h : 0 < n.rd (F.HLT_PVIOL_COUNT k)) :
    n.pviol k arg = n.wr (F.HLT_PVIOL_COUNT k) (min (n.rd (F.HLT_PVIOL_COUNT k) + 1) (2 ^ 32 - 1)) := by
  have hf : (n.rd (F.HLT_PVIOL_COUNT k) == 0) = false := by simp; omega
  simp only [Node.pviol, hf]
  rfl

/-! ### The stages of an access -/

section
variable {n : Node} {m : Master} {a v : Nat}

/-- A write that the host interface supports is done now, where nothing holds it up. -/
theorem Node.bus_calm (hl : n.brg.lock = none) (hs : n.brg.stalled = []) (hu : n.unsupported (wordWrite m a v) = false) :
    n.bus (wordWrite m a v) = (n.access (wordWrite m a v)).answer m := by
  have hlock : ¬ (n.brg.lock.isSome = true ∧ n.reaches (wordWrite m a v).m = true) := by simp [hl]
  rw [Node.bus, if_neg (by simp [hu]), if_neg hlock, Node.resume_of_free hl hs]
  simp [Node.busGo, Node.busNow, wordWrite]

theorem Node.unsupported_of_low (h : m.id ≠ 1 ∨ a < 2 ^ 32) : n.unsupported (wordWrite m a v) = false := by
  rcases h with h | h
  · simp [Node.unsupported, wordWrite, h]
  · have hb : decide (2 ^ 32 ≤ a) = false := decide_eq_false (Nat.not_le.mpr h)
    show (m.id == 1 && decide (2 ^ 32 ≤ a) && n.reaches m) = false
    rw [hb, Bool.and_false, Bool.false_and]

/-- What the fabric presents as the host's identity is the host's. -/
theorem Node.presented_host (n : Node) (m : Master) : (n.presented m).id = 1 ↔ m.id = 1 := by
  unfold Node.presented
  split
  · rename_i hm
    refine ⟨fun h => ?_, fun h => by omega⟩
    dsimp only at h
    split at h <;> cases h
  · rfl

theorem Node.access_undecoded (hr : n.reaches (n.presented m) = true) (ht : targetOf a = none) :
    n.access (wordWrite m a v) = ⟨.err, n.viol (wordWrite (n.presented m) a v) none false⟩ := by
  simp only [Node.access, wordWrite, hr, ht]
  rfl

variable {t : Target} (hr : n.reaches (n.presented m) = true) (ht : targetOf a = some t) (ha : a % 4 = 0)
include hr ht ha

theorem Node.access_protected (hrom : t ≠ .rom) (hz : Access.sizeOk (wordWrite (n.presented m) a v) t = true)
    (hp : n.protOk (wordWrite (n.presented m) a v) = false) :
    n.access (wordWrite m a v) = ⟨.prot, n.viol (wordWrite (n.presented m) a v) (n.region a) false⟩ := by
  have hi : Access.inside (wordWrite (n.presented m) a v) = true := Access.inside_word rfl ha
  have hu := Access.undecoded_of_inside hi
  simp only [wordWrite] at hi hu hz hp
  simp only [Node.access, wordWrite, hr, ht, hz, hi, hu, hp]
  simp [hrom]

theorem Node.access_codeShut {e : Nat} (hte : t = .code e) (hp : n.protOk (wordWrite (n.presented m) a v) = true)
    (hc : n.codeShut (n.presented m) (.code e) = true) :
    n.access (wordWrite m a v) = ⟨.err, n.viol (wordWrite (n.presented m) a v) (n.region a) false⟩ := by
  subst hte
  have hi : Access.inside (wordWrite (n.presented m) a v) = true := Access.inside_word rfl ha
  have hu := Access.undecoded_of_inside hi
  have hz : Access.sizeOk (wordWrite (n.presented m) a v) (.code e) = true := by simp [Access.sizeOk, Access.word, wordWrite, ha]
  simp only [wordWrite] at hi hu hz hp
  simp only [Node.access, wordWrite, hr, ht, hz, hi, hu, hp, hc]
  simp [Node.busLogged]

theorem Node.access_unowned (hte : t = .regs) (hp : n.protOk (wordWrite (n.presented m) a v) = true)
    (ho : n.mayWrite (wordWrite (n.presented m) a v) = false) (hne : a ≠ 0x10010020) :
    n.access (wordWrite m a v) = ⟨.notOwner, n.ownRefused (wordWrite (n.presented m) a v)⟩ := by
  subst hte
  have hi : Access.inside (wordWrite (n.presented m) a v) = true := Access.inside_word rfl ha
  have hu := Access.undecoded_of_inside hi
  have hz : Access.sizeOk (wordWrite (n.presented m) a v) .regs = true := by simp [Access.sizeOk, Access.word, wordWrite, ha]
  simp only [wordWrite] at hi hu hz hp ho
  simp only [Node.access, wordWrite, hr, ht, hz, hi, hu, hp, ho]
  simp [hne, Node.codeShut]

end

/-! ### Commands that are not carried out -/

/-- A register write past the fabric, whatever the address of the register is. -/
theorem Node.bus_regAt {n : Node} {m : Master} {a v : Nat} {r : Reg} (h : Passes n (wordWrite m a v)) (hr : regAt a = some r)
    (ht : targetOf a = some .regs) (ha : a % 4 = 0) :
    n.bus (wordWrite m a v) = ((n.leased m).busRegWrite (wordWrite (n.presented m) a v) r).answer m := by
  rw [Node.bus_write h ht rfl (by decide) (by simp [Access.sizeOk, Access.word, wordWrite, ha]) (Access.inside_word rfl ha) rfl]
  simp only [Node.busWrite, wordWrite, hr]

@[simp] theorem Node.leased_legal (n : Node) (m : Master) (r : Reg) (k : Nat) : (n.leased m).legal r k = n.legal r k := by
  obtain ⟨t, ht⟩ := n.leased_eq m
  rw [ht]
  rfl

@[simp] theorem Node.leased_cmdBusy (n : Node) (m : Master) (r : Reg) : (n.leased m).cmdBusy r = n.cmdBusy r := by
  obtain ⟨t, ht⟩ := n.leased_eq m
  rw [ht]
  rfl

@[simp] theorem Node.leased_regUnpowered (n : Node) (m : Master) (r : Reg) : (n.leased m).regUnpowered r = n.regUnpowered r := by
  simp only [Node.regUnpowered, Node.leased_dataOn]

/-- A command while one is in progress is rejected for BUSY. -/
theorem Node.busRegWrite_busy {n : Node} {p : Master} {a v : Nat} {r : Reg} (hk : cmdOf r v ≠ 0) (hl : n.legal r (cmdOf r v) = true)
    (hpow : n.regUnpowered r = false) (hmode : n.mode ≠ .updating) (hb : n.cmdBusy r = true) :
    n.busRegWrite (wordWrite p a v) r = ⟨.ok 0, n.cmdRefused (wordWrite p a v) true (cmdOf r v)⟩ := by
  simp only [Node.busRegWrite, wordWrite, cmdOf_mod, hl, hpow, hmode, hb]
  simp [hk]

/-- A command that is not legal in the node's state is rejected, with RESULT 4. -/
theorem Node.busRegWrite_illegal {n : Node} {p : Master} {a v : Nat} {r : Reg} (hk : cmdOf r v ≠ 0) (hl : n.legal r (cmdOf r v) = false) :
    n.busRegWrite (wordWrite p a v) r = ⟨.ok 0, (n.cmdRefused (wordWrite p a v) false (cmdOf r v)).resultState r p⟩ := by
  simp only [Node.busRegWrite, wordWrite, cmdOf_mod, hl]
  simp [hk]

/-- RESULT 4 stands first among the writes. -/
theorem Node.reject_result (n : Node) (p : Master) (a k reason : Nat) :
    (n.wrs (n.rejectWrites p a k reason)).wr F.MGT_CMD_RESULT 4 =
      n.wrs ([(F.MGT_REJECT_COUNT_COUNT, min (n.rd F.MGT_REJECT_COUNT_COUNT + 1) (2 ^ 32 - 1)), (F.MGT_CMD_RESULT, 4)] ++
        if n.on F.MGT_REJECT_VALID then [] else
          [(F.MGT_REJECT_VALID, 1), (F.MGT_REJECT_REASON, reason), (F.MGT_REJECT_ID, p.id), (F.MGT_REJECT_STATE, modeCode n.mode),
           (F.MGT_REJECT_CODE, k), (F.MGT_REJECT_ADDR_ADDR, a)]) := by
  rw [Node.rejectWrites, Node.wrs_cons, Node.wrs_wr_comm]
  · rfl
  · intro e he
    cases hv : n.on F.MGT_REJECT_VALID
    · simp only [hv, Bool.false_eq_true, if_false] at he
      simp only [List.mem_cons, List.not_mem_nil, or_false] at he
      rcases he with rfl | rfl | rfl | rfl | rfl | rfl <;> dsimp only <;> decide
    · simp [hv] at he

/-- Settles O33: each refusal ends the access at its own stage. -/
theorem accessRefusals : Obligations.AccessRefusals := by
  intro s m a v n p c far violation hl hs hr
  have hviol : ∀ region, n.viol (wordWrite p a v) region false = n.wrs (violation (region.getD 0) (b2n region.isNone)) := fun region => n.viol_eq p a v region
  have hcalm : m.id ≠ 1 ∨ a < 2 ^ 32 → n.bus (wordWrite m a v) = (n.access (wordWrite m a v)).answer m :=
    fun h => Node.bus_calm hl hs (Node.unsupported_of_low h)
  refine ⟨fun ht hlow => ?_, fun hid hhigh hcount => ?_, fun e ht ha hprot hshut => ?_, fun r k hpass ht hreg ha hk hk0 hv hlegal hpow hmode hbusy => ?_,
    fun ha ht => ⟨fun hnone hid hfault => ?_, fun k hk hbit => ?_, fun hprot hne howns hsvc hregion => ?_, fun hpass hcmd hval hmode => ?_⟩⟩
  · refine .of_bus (x := wordWrite m a v) rfl ?_
    rw [hcalm (hlow.imp_left (fun h => by rwa [ne_eq, ← n.presented_host])), Node.access_undecoded hr ht]
    show (none, (n.viol (wordWrite p a v) none false).emit _) = _
    rw [hviol none]
    rfl
  · refine .of_bus (x := wordWrite m a v) rfl ?_
    have hm : n.presented m = m := by simp [Node.presented, hid]
    have hu : n.unsupported (wordWrite m a v) = true := by
      have hr' : n.reaches m = true := hm ▸ hr
      have hb : decide (2 ^ 32 ≤ a) = true := decide_eq_true hhigh
      show (m.id == 1 && decide (2 ^ 32 ≤ a) && n.reaches m) = true
      rw [hid, hr', hb]
      rfl
    rw [Node.bus, if_pos hu, Node.pviol_counted hcount]
    rfl
  · refine .of_bus (x := wordWrite m a v) rfl ?_
    have hc : n.codeShut p (.code e) = true := by
      rcases hshut with h | h <;> simp [Node.codeShut, h]
    rw [hcalm (.inr (targetOf_lt ht)), Node.access_codeShut (v := v) hr ht ha rfl hprot hc]
    show (none, (n.viol (wordWrite p a v) (n.region a) false).emit _) = _
    rw [hviol]
  · have hb : n.cmdBusy r = true := by
      rcases hbusy with h | ⟨rfl, h⟩
      · exact h
      · exact h
    subst hk
    refine .of_bus (x := wordWrite m a v) rfl ?_
    rw [Node.bus_regAt hpass hreg ht ha, Node.busRegWrite_busy hk0 (by simpa using hlegal) (by simpa using hpow) (by simpa using hmode) (by simpa using hb),
      Node.cmdRefused_eq, Node.rejectWrites_leased]
    rfl
  · refine .of_bus (x := wordWrite m a v) rfl ?_
    have hp : n.protOk (wordWrite p a v) = false := by
      simp only [Node.protOk, wordWrite, hnone]
      by_cases h2 : p.id = 2
      · simp [h2, hfault h2]
      · simp [hid, h2]
    rw [hcalm (.inr (targetOf_lt ht)), Node.access_protected hr ht ha (by decide) (by simp [Access.sizeOk, Access.word, wordWrite, ha]) hp]
    show (none, (n.viol (wordWrite p a v) (n.region a) false).emit _) = _
    rw [hviol, hnone]
    rfl
  · refine .of_bus (x := wordWrite m a v) rfl ?_
    have hp : n.protOk (wordWrite p a v) = false := by
      simp only [Node.protOk, wordWrite, hk]
      simp [b2n, hbit]
    rw [hcalm (.inr (targetOf_lt ht)), Node.access_protected hr ht ha (by decide) (by simp [Access.sizeOk, Access.word, wordWrite, ha]) hp]
    show (none, (n.viol (wordWrite p a v) (n.region a) false).emit _) = _
    rw [hviol, hk]
    rfl
  · refine .of_bus (x := wordWrite m a v) rfl ?_
    have ho : n.mayWrite (wordWrite p a v) = false := by
      have hs2 : (p.id == 2 && n.mode == .faulted) = false := by
        by_contra h
        exact hsvc (by simpa using h)
      simp only [Node.mayWrite, wordWrite, howns, hs2, beq_eq_false_iff_ne.mpr hne]
      cases hreg : n.region a with
      | none => simp
      | some k =>
        obtain ⟨hox, hxo⟩ := hregion k hreg
        by_cases h0 : p.id = 0 <;> simp [hox, h0, hxo]
    rw [hcalm (.inr (targetOf_lt ht)), Node.access_unowned (v := v) hr ht ha rfl hprot ho hne]
    show (none, (n.ownRefused (wordWrite p a v)).emit _) = _
    rw [Node.ownRefused_eq]
  · subst hcmd hval
    have hl' : (n.leased m).legal .MGT_CMD (cmdOf .MGT_CMD 2) = false := by
      rw [Node.leased_legal]
      rcases hmode with h | h | h <;> simp [Node.legal, h, cmdOf]
    refine .of_bus (x := wordWrite m Reg.MGT_CMD.addr 2) rfl ?_
    rw [Node.bus_regAt (r := .MGT_CMD) hpass (by decide) ht ha, Node.busRegWrite_illegal (by decide) hl', Node.cmdRefused_eq]
    show (none, (((n.leased m).wrs _).wr F.MGT_CMD_RESULT 4).emit _) = _
    rw [Node.reject_result, Node.leased_rd, Node.leased_on, Node.leased_mode]
    rfl

end Sys2Proof.Machine
end

section
/-! Writes of registers by the access codes of their fields (00 R9, R11). -/

namespace Sys2Proof.Machine

open Sys2Proof

/-! ### The fields of a register -/

/-- The fields of a register lie in its 32 bits and start at bits of their own. -/
def laidOut (r : Reg) : Bool :=
  r.fields.all (fun f => decide (1 ≤ f.w) && decide (f.lo + f.w ≤ 32)) && decide (r.fields.map (·.lo)).Nodup

theorem laidOut_true (r : Reg) : laidOut r = true := by
  cases r <;> rfl

theorem field_inside {r : Reg} {f : FieldInfo} (h : f ∈ r.fields) : 1 ≤ f.w ∧ f.lo + f.w ≤ 32 := by
  have hr := laidOut_true r
  simp only [laidOut, Bool.and_eq_true, List.all_eq_true, decide_eq_true_eq] at hr
  exact hr.1 f h

theorem fields_nodup (r : Reg) : (r.fields.map (·.lo)).Nodup := by
  have hr := laidOut_true r
  simp only [laidOut, Bool.and_eq_true, decide_eq_true_eq] at hr
  exact hr.2

/-! ### One field after the other -/

/-- What a field holds after a write whose bits for it are `x`, `old` being what it held. -/
def Acc.after (c : Acc) (w old x : Nat) : Nat :=
  match c with
  | .RW => x % 2 ^ w
  | .W1C => (old - (old &&& x)) % 2 ^ w
  | _ => old

/-- A write of one field by its access code, before BOOT_DONE. -/
def Node.fieldSet (r : Reg) (v : Nat) (a : Node) (f : FieldInfo) : Node :=
  match f.acc with
  | .RW => a.wr (r.fld f) (bitsOf v (f.lo + f.w - 1) f.lo)
  | .W1C => a.wr (r.fld f) (a.rd (r.fld f) - (a.rd (r.fld f) &&& bitsOf v (f.lo + f.w - 1) f.lo))
  | _ => a

theorem Node.regSet_eq (n : Node) (r : Reg) (v : Nat) (h : ∀ f ∈ r.fields, f.acc ≠ .WB) :
    n.regSet r v = r.fields.foldl (Node.fieldSet r v) n := by
  refine List.foldl_ext _ _ n fun a f hf => ?_
  have := h f hf
  simp only [Node.fieldSet]
  cases hacc : f.acc <;> simp_all

theorem Node.fieldSet_regs (r : Reg) (v : Nat) (a : Node) (f : FieldInfo) : ∃ regs, Node.fieldSet r v a f = { a with regs := regs } := by
  unfold Node.fieldSet
  split <;> exact ⟨_, rfl⟩

theorem Node.fieldSet_ne (r : Reg) (v : Nat) (a : Node) (f : FieldInfo) {g : Fld} (h : g.key ≠ 32 * r.addr + f.lo) :
    (Node.fieldSet r v a f).rd g = a.rd g := by
  unfold Node.fieldSet
  split
  · exact Node.rd_wr_ne a _ h
  · exact Node.rd_wr_ne a _ h
  · rfl

theorem Node.fieldSet_same (r : Reg) (v : Nat) (a : Node) (f : FieldInfo) :
    (Node.fieldSet r v a f).rd (r.fld f) = Acc.after f.acc f.w (a.rd (r.fld f)) (bitsOf v (f.lo + f.w - 1) f.lo) := by
  unfold Node.fieldSet Acc.after
  split <;> simp_all [Reg.fld]

theorem Node.fieldSets_regs (r : Reg) (v : Nat) (fs : List FieldInfo) (n : Node) :
    ∃ regs, fs.foldl (Node.fieldSet r v) n = { n with regs := regs } := by
  induction fs generalizing n with
  | nil => exact ⟨n.regs, rfl⟩
  | cons f fs ih =>
    obtain ⟨regs, h⟩ := Node.fieldSet_regs r v n f
    obtain ⟨regs', h'⟩ := ih (Node.fieldSet r v n f)
    exact ⟨regs', by rw [List.foldl_cons, h', h]⟩

theorem Node.fieldSets_ne (r : Reg) (v : Nat) (fs : List FieldInfo) (n : Node) {g : Fld} (h : ∀ f ∈ fs, g.key ≠ 32 * r.addr + f.lo) :
    (fs.foldl (Node.fieldSet r v) n).rd g = n.rd g := by
  induction fs generalizing n with
  | nil => rfl
  | cons f fs ih =>
    rw [List.foldl_cons, ih _ fun f' hf' => h f' (List.mem_cons_of_mem f hf'), Node.fieldSet_ne r v n f (h f List.mem_cons_self)]

theorem Node.fieldSets_same (r : Reg) (v : Nat) (fs : List FieldInfo) (n : Node) (hd : (fs.map (·.lo)).Nodup) {f : FieldInfo} (hf : f ∈ fs) :
    (fs.foldl (Node.fieldSet r v) n).rd (r.fld f) = Acc.after f.acc f.w (n.rd (r.fld f)) (bitsOf v (f.lo + f.w - 1) f.lo) := by
  induction fs generalizing n with
  | nil => cases hf
  | cons f' fs ih =>
    simp only [List.map_cons, List.nodup_cons, List.mem_map, not_exists, not_and] at hd
    obtain ⟨hne, hd⟩ := hd
    rw [List.foldl_cons]
    rcases List.mem_cons.mp hf with rfl | hf
    · rw [Node.fieldSets_ne r v fs _ fun g hg heq => hne g hg (Nat.add_left_cancel heq).symm, Node.fieldSet_same]
    · rw [ih _ hd hf, Node.fieldSet_ne r v n f' fun heq => hne f hf (Nat.add_left_cancel heq)]

/-! ### What goes with the write -/

/-- A field's bits are those of the word written. -/
theorem field_bits {r : Reg} {f : FieldInfo} (h : f ∈ r.fields) (v : Nat) :
    bitsOf (v % 2 ^ 32) (f.lo + f.w - 1) f.lo = v / 2 ^ f.lo % 2 ^ f.w := by
  obtain ⟨hw, hlo⟩ := field_inside h
  have hwidth : f.lo + f.w - 1 + 1 - f.lo = f.w := by omega
  obtain ⟨d, hd⟩ := Nat.exists_eq_add_of_le hlo
  rw [bitsOf, hwidth, hd, Nat.add_assoc, Nat.pow_add, Nat.mod_mul_right_div_self, Nat.pow_add]
  exact Nat.mod_mul_right_mod _ _ _

/-- A message of an interrupt source is all that a W1C write adds (14 R507). -/
theorem Node.irqAgain_sent (n : Node) (r : Reg) (v : Nat) : ∃ sent, n.irqAgain r v = { n with out := sent ++ n.out } := by
  have hsend : ∀ s, ∃ sent, n.irqSend s = { n with out := sent ++ n.out } := by
    intro s
    unfold Node.irqSend Node.msi
    split
    · split
      · exact ⟨[_], rfl⟩
      · exact ⟨[], rfl⟩
    · exact ⟨[], rfl⟩
  unfold Node.irqAgain
  split
  · exact ⟨[], rfl⟩
  · split
    · exact hsend _
    · exact ⟨[], rfl⟩

/-- Only the lock of an update asks who writes. -/
theorem Node.regWrite_master {r : Reg} (h : r ≠ .UPD_CTRL) (n : Node) (m p : Master) (v : Nat) : n.regWrite m r v = n.regWrite p r v := by
  cases r
  case UPD_CTRL => exact absurd rfl h
  all_goals rfl

/-- The relay rate of an update is never written as zero: UPD.CTRL has a rule of its own. -/
theorem updCtrl_ruled (m : Master) : ¬ ∀ (n : Node) (k : Nat), n.regWrite m .UPD_CTRL k = n.regSet .UPD_CTRL k := by
  intro h
  have hm : Node.regWrite {} m .UPD_CTRL 0 = Node.regSet {} .UPD_CTRL 256 := rfl
  have heq := congrArg (fun n : Node => n.rd F.UPD_CTRL_RELAY_RATE) (hm.symm.trans (h {} 0))
  exact absurd heq (by decide)

/-- Registers lie at whole words. -/
theorem addr_aligned (r : Reg) : r.addr % 4 = 0 := by
  cases r <;> simp only [Reg.addr, regionAt, engBase]
  all_goals repeat' split
  all_goals omega

/-! ### The obligation -/

/-- What a plain register write leaves, in terms of the write of the fields one after the other. -/
theorem plain_written {s : State} {m : Master} {r : Reg} {v : Nat} (h : RegPasses s.node m r v) (hr : regAt r.addr = some r)
    (ht : targetOf r.addr = some .regs) (hc : cmdOf r v = 0) (hacc : ∀ f ∈ r.fields, f.acc ≠ .WB)
    (hplain : ∀ n k, Node.regWrite n m r k = n.regSet r k) :
    ∃ sent, Settles (.registerWrite m r.addr 4 v) s
      { r.fields.foldl (Node.fieldSet r (v % 2 ^ 32)) (s.node.leased m) with out := .resp m true 0 :: (sent ++ s.node.out) } := by
  have hwb : isWB r = false := by
    simp only [isWB, List.any_eq_false, beq_iff_eq]
    exact hacc
  have hne : r ≠ .UPD_CTRL := fun he => updCtrl_ruled m (he ▸ hplain)
  have hset : (s.node.leased m).regWrite (s.node.presented m) r (v % 2 ^ 32) =
      r.fields.foldl (Node.fieldSet r (v % 2 ^ 32)) (s.node.leased m) := by
    rw [Node.regWrite_master hne _ _ m, hplain, Node.regSet_eq _ _ _ hacc]
  obtain ⟨sent, hsent⟩ := Node.irqAgain_sent (r.fields.foldl (Node.fieldSet r (v % 2 ^ 32)) (s.node.leased m)) r (v % 2 ^ 32)
  obtain ⟨regs, hregs⟩ := Node.fieldSets_regs r (v % 2 ^ 32) r.fields (s.node.leased m)
  have hout : (r.fields.foldl (Node.fieldSet r (v % 2 ^ 32)) (s.node.leased m)).out = s.node.out := by
    obtain ⟨t, ht⟩ := Node.leased_eq s.node m
    rw [hregs, ht]
  refine ⟨sent, Settles.of_to ?_⟩
  have hexec : exec (.registerWrite m r.addr 4 v) s = s.toBus (s.node.bus (wordWrite m r.addr v)) := rfl
  rw [hexec, Node.bus_fields h hr ht (addr_aligned r) hc (.inl hwb), hset, hsent, hout]
  rfl

/-- Settles O34: the fields of a register are written one after the other, each at bits of its own, and no other key is touched. -/
theorem registerFields : Obligations.RegisterFields := by
  intro s m r v h hr ht hc hacc hplain
  obtain ⟨sent, hsettles⟩ := plain_written h hr ht hc hacc hplain
  obtain ⟨regs, hregs⟩ := Node.fieldSets_regs r (v % 2 ^ 32) r.fields (s.node.leased m)
  have hrd : ∀ g : Fld, FMap.get g.rst regs g.key = (r.fields.foldl (Node.fieldSet r (v % 2 ^ 32)) (s.node.leased m)).rd g := by
    intro g
    rw [hregs]
    rfl
  refine ⟨regs, sent, by rw [hregs] at hsettles; exact hsettles, fun f hf => ?_, fun g hg => ?_⟩
  · refine (hrd (r.fld f)).trans ?_
    rw [Node.fieldSets_same r _ _ _ (fields_nodup r) hf, field_bits hf, Node.leased_rd]
    unfold Acc.after
    split <;> simp_all
  · rw [hrd, Node.fieldSets_ne, Node.leased_rd]
    intro f hf heq
    have := (field_inside hf)
    omega

end Sys2Proof.Machine
end

section
/-! PROOF. What sending frames of the node's own and flow control leaves (06 R217; 07 R248, R255; 09 R324): counters of what is sent, the order of what waits, and nothing else. -/

namespace Sys2Proof.Machine

open Sys2Proof

/-! ### Ports -/

@[simp] theorem Node.port_setPort_same (n : Node) (p : Nat) (x : Port) : (n.setPort p x).port p = x := by
  simp [Node.port, Node.setPort]

theorem Node.port_setPort_ne (n : Node) {p q : Nat} (x : Port) (h : q ≠ p) : (n.setPort p x).port q = n.port q := by
  simp [Node.port, Node.setPort, FMap.get_put_ne, h]

/-- The later of two writes of a port stays. -/
theorem Node.setPort_setPort (n : Node) (p : Nat) (x y : Port) : (n.setPort p x).setPort p y = n.setPort p y := by
  simp only [Node.setPort, FMap.put_put]

theorem Node.rd_setPort (n : Node) (p : Nat) (x : Port) (f : Fld) : (n.setPort p x).rd f = n.rd f := rfl

@[simp] theorem Node.port_wr (n : Node) (f : Fld) (v p : Nat) : (n.wr f v).port p = n.port p := rfl

@[simp] theorem Node.port_put (n : Node) (f : Fld) (b : Bool) (p : Nat) : (n.put f b).port p = n.port p := rfl

@[simp] theorem Node.port_emit (n : Node) (o : Output) (p : Nat) : (n.emit o).port p = n.port p := rfl

@[simp] theorem Node.port_fault (n : Node) (a b c p : Nat) : (n.fault a b c).port p = n.port p := by
  simp only [Node.port, Node.fault_ports]

/-! ### Counters of a port (07 R252) -/

theorem Node.cntAdd_eq (n : Node) (p i k : Nat) : ∃ r c d, n.cntAdd p i k = { n with regs := r, cnt := c, delta := d } := by
  unfold Node.cntAdd
  split
  · exact ⟨_, _, _, rfl⟩
  · dsimp only
    split
    · exact ⟨_, _, _, rfl⟩
    · split <;> exact ⟨_, _, _, rfl⟩

@[simp] theorem Node.port_cntAdd (n : Node) (p i k q : Nat) : (n.cntAdd p i k).port q = n.port q := by
  obtain ⟨r, c, d, h⟩ := n.cntAdd_eq p i k
  rw [h]
  rfl

/-- The running view of the counter. -/
theorem Node.cntAdd_cnt_same (n : Node) (p i k : Nat) (hk : k ≠ 0) :
    FMap.get 0 (n.cntAdd p i k).cnt (p * 64 + i) = (FMap.get 0 n.cnt (p * 64 + i) + k) % 2 ^ 40 := by
  unfold Node.cntAdd
  rw [if_neg hk]
  dsimp only
  split
  · exact FMap.get_put_same ..
  · split <;> exact FMap.get_put_same ..

theorem Node.cntAdd_cnt_ne (n : Node) (p i k : Nat) {j : Nat} (h : j ≠ p * 64 + i) :
    FMap.get 0 (n.cntAdd p i k).cnt j = FMap.get 0 n.cnt j := by
  unfold Node.cntAdd
  split
  · rfl
  · dsimp only
    split
    · exact FMap.get_put_ne _ _ _ _ h
    · split <;> exact FMap.get_put_ne _ _ _ _ h

/-- Counting touches the HALF registers of the port alone. -/
theorem Node.cntAdd_rd (n : Node) (p i k : Nat) {f : Fld} (hlo : f.key ≠ (F.PRT_HALF_LO_HALF p).key) (hhi : f.key ≠ (F.PRT_HALF_HI_HALF p).key) :
    (n.cntAdd p i k).rd f = n.rd f := by
  unfold Node.cntAdd
  split
  · rfl
  · dsimp only
    split
    · rfl
    · split
      · exact Node.rd_wr_ne _ _ hlo
      · exact Node.rd_wr_ne _ _ hhi

/-! ### Sending -/

/-- The counter with this key counts nothing that is sent. -/
def NoTxCount (k : Nat) : Prop := k % 64 < 32 ∨ 51 ≤ k % 64

/-- The field is a whole-word port register, or an AS_CAPABLE mark. -/
def SendKey (k : Nat) : Prop := PortKey k ∨ ∃ p, p < 20 ∧ k = (F.TIM_PORT_AS_CAPABLE p).key

theorem SendKey.bounds {k : Nat} (h : SendKey k) :
    (32 * 0x10100180 ≤ k ∧ k < 32 * 0x101001D0) ∨ (32 * 0x10300000 ≤ k ∧ k < 32 * 0x10400000 ∧ k % 32 = 0) := by
  rcases h with h | ⟨p, hp, rfl⟩
  · unfold PortKey at h
    omega
  · simp only [F.TIM_PORT_AS_CAPABLE]
    omega

/-- What is sent bears on no service level. -/
theorem not_sendKey_of_level : ∀ k ∈ levelKeys, ¬ SendKey k := by
  have hgap : ∀ k ∈ levelKeys, k < 32 * 0x10100000 ∨ 32 * 0x10200000 ≤ k := by decide
  intro k hk hs
  have := hgap k hk
  have := levelKeys_lt k hk
  have := hs.bounds
  omega

/-- `n` is `m` but for frames of the node's own and flow control that have gone, or wait, and what counts them. -/
structure Sends (m n : Node) : Prop where
  eq : ∃ r p c d k t o, n = { m with regs := r, ports := p, cnt := c, delta := d, freeN := k, clock := { m.clock with ports := t }, out := o }
  rd : ∀ f : Fld, ¬ SendKey f.key → n.rd f = m.rd f
  port : ∀ q, ∃ s k o, n.port q = { m.port q with pfcSent := s, mark := k, own := o }
  cnt : ∀ k, NoTxCount k → FMap.get 0 n.cnt k = FMap.get 0 m.cnt k
  out : ∃ l, n.out = l ++ m.out

namespace Sends

variable {a b c : Node}

theorem refl (n : Node) : Sends n n := ⟨⟨_, _, _, _, _, _, _, rfl⟩, fun _ _ => rfl, fun _ => ⟨_, _, _, rfl⟩, fun _ _ => rfl, [], rfl⟩

theorem trans (h : Sends a b) (g : Sends b c) : Sends a c := by
  refine ⟨?_, fun f hf => (g.rd f hf).trans (h.rd f hf), fun q => ?_, fun k hk => (g.cnt k hk).trans (h.cnt k hk), ?_⟩
  · obtain ⟨_, _, _, _, _, _, _, hb⟩ := h.eq
    obtain ⟨_, _, _, _, _, _, _, hc⟩ := g.eq
    rw [hb] at hc
    exact ⟨_, _, _, _, _, _, _, hc⟩
  · obtain ⟨_, _, _, hb⟩ := h.port q
    obtain ⟨_, _, _, hc⟩ := g.port q
    rw [hb] at hc
    exact ⟨_, _, _, hc⟩
  · obtain ⟨_, hb⟩ := h.out
    obtain ⟨_, hc⟩ := g.out
    exact ⟨_, by rw [hc, hb, ← List.append_assoc]⟩

theorem ite {p : Prop} [Decidable p] (hb : Sends a b) (hc : Sends a c) : Sends a (if p then b else c) := by
  split
  · exact hb
  · exact hc

theorem foldl {α : Type} {g : Node → α → Node} (h : ∀ n x, Sends n (g n x)) (l : List α) (n : Node) : Sends n (l.foldl g n) := by
  induction l generalizing n with
  | nil => exact refl n
  | cons x l ih => exact (h n x).trans (ih _)

theorem emit (n : Node) (o : Output) : Sends n (n.emit o) :=
  ⟨⟨_, _, _, _, _, _, _, rfl⟩, fun _ _ => rfl, fun _ => ⟨_, _, _, rfl⟩, fun _ _ => rfl, [o], rfl⟩

theorem takesFree (n : Node) (k : Nat) : Sends n { n with freeN := k } :=
  ⟨⟨_, _, _, _, _, _, _, rfl⟩, fun _ _ => rfl, fun _ => ⟨_, _, _, rfl⟩, fun _ _ => rfl, [], rfl⟩

theorem setPtp (n : Node) (p : Nat) (x : PtpPort) : Sends n (n.setPtp p x) :=
  ⟨⟨_, _, _, _, _, _, _, rfl⟩, fun _ _ => rfl, fun _ => ⟨_, _, _, rfl⟩, fun _ _ => rfl, [], rfl⟩

theorem wr (n : Node) {f : Fld} (v : Nat) (h : SendKey f.key) : Sends n (n.wr f v) :=
  ⟨⟨_, _, _, _, _, _, _, rfl⟩, fun _ hg => Node.rd_wr_ne n v fun e => hg (e ▸ h), fun _ => ⟨_, _, _, rfl⟩, fun _ _ => rfl, [], rfl⟩

/-- Flow control, the MARK and the frames that wait may change at a port. -/
theorem setPort (n : Node) (p : Nat) {x : Port} (hx : ∃ s k o, x = { n.port p with pfcSent := s, mark := k, own := o }) : Sends n (n.setPort p x) := by
  refine ⟨⟨_, _, _, _, _, _, _, rfl⟩, fun _ _ => rfl, fun q => ?_, fun _ _ => rfl, [], rfl⟩
  by_cases hq : q = p
  · subst hq
    simpa using hx
  · exact ⟨_, _, _, Node.port_setPort_ne n x hq⟩

theorem cntAdd (n : Node) {p : Nat} (hp : p < 20) {i : Nat} (k : Nat) (hi : 32 ≤ i ∧ i < 51) : Sends n (n.cntAdd p i k) := by
  obtain ⟨r, c, d, h⟩ := n.cntAdd_eq p i k
  refine ⟨⟨_, _, _, _, _, _, _, h⟩, fun f hf => Node.cntAdd_rd _ _ _ _ ?_ ?_, fun q => ⟨_, _, _, Node.port_cntAdd n p i k q⟩,
    fun j hj => Node.cntAdd_cnt_ne _ _ _ _ ?_, [], by rw [h]; rfl⟩
  · intro he
    exact hf (.inl (by rw [he]; simp only [F.PRT_HALF_LO_HALF, PortKey]; omega))
  · intro he
    exact hf (.inl (by rw [he]; simp only [F.PRT_HALF_HI_HALF, PortKey]; omega))
  · rintro rfl
    unfold NoTxCount at hj
    omega

theorem castOf_le (b : List Byte) : castOf b ≤ 2 := by
  unfold castOf
  split
  · omega
  · split <;> omega

theorem sizeBin_le (k : Nat) : sizeBin k ≤ 8 := by
  unfold sizeBin
  split_ifs <;> omega

theorem txCount (n : Node) {p : Nat} (hp : p < 20) (b : List Byte) : Sends n (n.txCount p b) := by
  have hcast := castOf_le b
  have hsize := sizeBin_le (b.length + 4)
  exact (((((cntAdd n hp _ (by omega)).trans (cntAdd _ hp _ (by omega))).trans (cntAdd _ hp _ (by omega))).trans
    (cntAdd _ hp _ (by omega))).trans (cntAdd _ hp _ (by omega))).trans (cntAdd _ hp _ (by omega))

theorem sendPfc (n : Node) {p : Nat} (hp : p < 20) (c t : Nat) : Sends n (n.sendPfc p c t) :=
  ite (((emit n _).trans (txCount _ hp _)).trans (cntAdd _ hp _ (by omega))) (refl n)

end Sends

/-- Counting what is sent leaves the ports. -/
theorem Node.port_txCount (n : Node) (p : Nat) (b : List Byte) (q : Nat) : (n.txCount p b).port q = n.port q := by
  simp only [Node.txCount, Node.port_cntAdd]

theorem Node.port_sendPfc (n : Node) (p c t q : Nat) : (n.sendPfc p c t).port q = n.port q := by
  unfold Node.sendPfc
  split
  · simp only [Node.port_cntAdd, Node.port_txCount, Node.port_emit]
  · rfl

namespace Sends

theorem pfcClass (n : Node) {p : Nat} (hp : p < 20) (c : Nat) : Sends n (n.pfcClass p c) := by
  unfold Node.pfcClass
  refine ite (refl n) ?_
  split
  · exact refl n
  · exact (sendPfc n hp _ _).trans (setPort _ _ ⟨_, _, _, by rw [Node.port_sendPfc]⟩)

theorem pfcUpd (n : Node) (p : Nat) : Sends n (n.pfcUpd p) := by
  unfold Node.pfcUpd
  split
  · next hp => exact foldl (fun n c => pfcClass n hp c) _ n
  · exact refl n

theorem sendMark (n : Node) {p : Nat} (hp : p < 20) : Sends n (n.sendMark p) := by
  unfold Node.sendMark
  split
  · exact refl n
  · exact ite (refl n) (((setPort n p ⟨_, _, _, rfl⟩).trans (emit _ _)).trans (txCount _ hp _))

theorem ownNow (n : Node) {p : Nat} (hp : p < 20) (o : OwnFrame) : Sends n (n.ownNow p o) := by
  cases o with
  | bytes b => exact (emit n _).trans (txCount _ hp _)
  | ptp k v => exact ((takesFree n _).trans (emit _ _)).trans (txCount _ hp _)

theorem restamp (n : Node) (p : Nat) (o : OwnFrame) : Sends n (n.restamp p o).2 := by
  cases o with
  | bytes b => exact refl n
  | ptp k v =>
    unfold Node.restamp
    dsimp only
    split
    · exact refl n
    · split
      · exact refl n
      · split
        · exact setPtp n _ _
        · exact refl n

theorem ownGo {p : Nat} (hp : p < 20) (l : List OwnFrame) (n : Node) : Sends n (Node.ownGo p l n) := by
  induction l generalizing n with
  | nil => exact refl n
  | cons o l ih =>
    unfold Node.ownGo
    split
    · exact (((restamp n p o).trans (setPort _ _ ⟨_, _, _, rfl⟩)).trans (ownNow _ hp _)).trans (ih _)
    · exact refl n

theorem ownFlush (n : Node) {p : Nat} (hp : p < 20) : Sends n (n.ownFlush p) := ownGo hp _ n

theorem ownSend (n : Node) {p : Nat} (hp : p < 20) (o : OwnFrame) : Sends n (n.ownSend p o) := by
  unfold Node.ownSend
  exact ite (refl n) (ite (ownNow n hp o) (setPort n p ⟨_, _, _, rfl⟩))

theorem sendPtp (n : Node) {p : Nat} (hp : p < 20) (k : Nat) (v : List Int) : Sends n (n.sendPtp p k v) := ownSend n hp _

theorem sendPdelay (n : Node) {p : Nat} (hp : p < 20) : Sends n (n.sendPdelay p) := by
  unfold Node.sendPdelay
  exact ite (refl n) (((setPtp n _ _).trans (ite (wr _ _ (.inr ⟨p, hp, rfl⟩)) (refl _))).trans (sendPtp _ hp _ _))

theorem ptpGear (n : Node) {p : Nat} (hp : p < 20) : Sends n (n.ptpGear p) := (setPtp n _ _).trans (sendPdelay _ hp)

end Sends

end Sys2Proof.Machine
end

section
/-! PROOF. Gear shifts (07 R260 to R265): what each message of the handshake, each timer and each decision leaves. -/

namespace Sys2Proof.Machine

open Sys2Proof

/-! ### Windows and requests (07 R260 to R262) -/

variable {n : Node} {p : Nat}

/-- Without a schedule every instant qualifies. -/
theorem Node.gearStart_of_free {t : Nat} (hg : n.gateCycle p = 0) :
    n.gearStart p t = some (max t (n.clock.now + 50 * usU)) := by
  unfold Node.gearStart
  dsimp only
  split
  · next h => exact congrArg some h.1
  · simp [Node.nextFree, hg]

/-- The start the partner names is taken where it lies in a free window of this end too. -/
theorem Node.gearStart_of_inFree {t : Nat} (hf : n.inFree p t = true) (ht : n.clock.now + 50 * usU ≤ t) : n.gearStart p t = some t := by
  unfold Node.gearStart
  dsimp only
  rw [if_pos ⟨by omega, hf⟩]

/-- The node proposes the shift `sh` for `start` (07 R262). -/
def Node.asksFor (n : Node) (p : Nat) (sh : Shift) (start : Nat) : Node :=
  (n.setPort p { n.port p with shift := some { sh with start := start, mine := true } }).emit (.oam p oamGearReq [sh.gear, start, n.ident])

/-- A start that is found within 100 ms is proposed. -/
theorem Node.gearRequest_found {sh : Shift} {t start : Nat} (hb : n.gearBarred = false) (hs : n.gearStart p t = some start)
    (hle : start ≤ n.clock.now + 100000 * usU) : n.gearRequest p sh t = n.asksFor p sh start := by
  unfold Node.gearRequest Node.asksFor
  simp only [hb, hs, Bool.false_eq_true, if_false, if_pos hle]

/-- A port without a schedule proposes the first instant 50 us away. -/
theorem Node.gearRequest_unscheduled {sh : Shift} (hb : n.gearBarred = false) (hg : n.gateCycle p = 0) :
    n.gearRequest p sh 0 = n.asksFor p sh (n.clock.now + 50 * usU) :=
  Node.gearRequest_found hb (by rw [Node.gearStart_of_free hg, Nat.zero_max]) (by unfold usU nsU; omega)

/-- While shifts are barred a request waits. -/
theorem Node.gearRequest_barred {sh : Shift} {t : Nat} (hb : n.gearBarred = true) :
    n.gearRequest p sh t = n.setPort p { n.port p with shift := some { sh with start := 0, mine := true } } := by
  unfold Node.gearRequest
  simp only [hb, if_true]

theorem Node.hitless_parts (h : n.hitless p = true) : p < 4 ∧ n.linkUp p = true := by
  simp only [Node.hitless, Node.nativeUp, Bool.and_eq_true, decide_eq_true_eq] at h
  exact ⟨h.1.1.1, h.1.1.2⟩


/-- Only the policers' table reads free values. -/
theorem Node.tabW_free {t : Nat} {r : FMap Nat} {k : Nat} (ht : t ≠ 3) (i j : Nat) :
    Node.tabW { n with regs := r, freeN := k } t i j = n.tabW t i j := by
  have hdata : ∀ d : TabDef, n.tab t = some d → Node.entryData { n with regs := r, freeN := k } d false i = n.entryData d false i := by
    intro d hd
    have hnum : d.num = t := by simpa using List.find?_some hd
    unfold Node.entryData
    simp only [hnum, ht, false_and, if_false]
    rfl
  have htab : Node.tab { n with regs := r, freeN := k } t = n.tab t := rfl
  have hread : Node.tabRead { n with regs := r, freeN := k } t i = n.tabRead t i := by
    unfold Node.tabRead
    rw [htab]
    cases h : n.tab t with
    | none => rfl
    | some d => simp only [hdata d h]; rfl
  rw [Node.tabW, hread, Node.tabW]

/-! ### Load and margin (07 R273) -/

/-- `m` is `n` but for the load and the margin shown at port `p`. -/
structure Node.ShowsLoad (p : Nat) (n m : Node) : Prop where
  eq : ∃ r k, m = { n with regs := r, freeN := k }
  rd : ∀ f : Fld, f.key ≠ (F.BBL_STATUS_LOAD (lineOf p) (endOf p)).key → f.key ≠ (F.BBL_STATUS_MARGIN (lineOf p) (endOf p)).key →
    m.rd f = n.rd f

namespace Node.ShowsLoad

variable {m : Node}

theorem on (h : ShowsLoad p n m) {f : Fld} (h₁ : f.key ≠ (F.BBL_STATUS_LOAD (lineOf p) (endOf p)).key)
    (h₂ : f.key ≠ (F.BBL_STATUS_MARGIN (lineOf p) (endOf p)).key) : m.on f = n.on f := by
  simp only [Node.on, h.rd f h₁ h₂]

/-- The load and the margin are no mark of the link. -/
theorem hitless (h : ShowsLoad p n m) : m.hitless p = n.hitless p := by
  have hlink : m.on (F.PRT_STATUS_LINK p) = n.on (F.PRT_STATUS_LINK p) := by
    apply h.on <;> simp only [F.PRT_STATUS_LINK, F.BBL_STATUS_LOAD, F.BBL_STATUS_MARGIN] <;> omega
  have hclosed : m.on (F.BBL_RELAY_CLOSED (lineOf p)) = n.on (F.BBL_RELAY_CLOSED (lineOf p)) := by
    apply h.on <;> simp only [F.BBL_RELAY_CLOSED, F.BBL_STATUS_LOAD, F.BBL_STATUS_MARGIN] <;> omega
  have hmismatch : m.on (F.BBL_RELAY_MISMATCH (lineOf p)) = n.on (F.BBL_RELAY_MISMATCH (lineOf p)) := by
    apply h.on <;> simp only [F.BBL_RELAY_MISMATCH, F.BBL_STATUS_LOAD, F.BBL_STATUS_MARGIN] <;> omega
  have hcompat : m.on (F.BBL_STATUS_COMPAT (lineOf p) (endOf p)) = n.on (F.BBL_STATUS_COMPAT (lineOf p) (endOf p)) := by
    apply h.on <;> simp only [F.BBL_STATUS_COMPAT, F.BBL_STATUS_LOAD, F.BBL_STATUS_MARGIN] <;> omega
  have hmark : m.on (F.BBL_STATUS_HITLESS (lineOf p) (endOf p)) = n.on (F.BBL_STATUS_HITLESS (lineOf p) (endOf p)) := by
    apply h.on <;> simp only [F.BBL_STATUS_HITLESS, F.BBL_STATUS_LOAD, F.BBL_STATUS_MARGIN] <;> omega
  have hpair : m.pair = n.pair := by
    obtain ⟨r, k, hm⟩ := h.eq
    rw [hm]
  simp only [Node.hitless, Node.nativeUp, Node.linkUp, Node.joined, hlink, hclosed, hmismatch, hcompat, hmark, hpair]

theorem gear (h : ShowsLoad p n m) : m.rd (bblGear p) = n.rd (bblGear p) := by
  apply h.rd <;> simp only [bblGear, F.BBL_STATUS_GEAR, F.BBL_STATUS_LOAD, F.BBL_STATUS_MARGIN] <;> omega

theorem allowed (h : ShowsLoad p n m) (g : Nat) : m.gearAllowed p g = n.gearAllowed p g := by
  have : m.rd (F.BBL_MODE_ALLOWED (lineOf p) (endOf p)) = n.rd (F.BBL_MODE_ALLOWED (lineOf p) (endOf p)) := by
    apply h.rd <;> simp only [F.BBL_MODE_ALLOWED, F.BBL_STATUS_LOAD, F.BBL_STATUS_MARGIN] <;> omega
  simp only [Node.gearAllowed, this]

theorem snrUp (h : ShowsLoad p n m) : m.rd (F.BBL_GEARCFG_SNR_UP (lineOf p) (endOf p)) = n.rd (F.BBL_GEARCFG_SNR_UP (lineOf p) (endOf p)) := by
  apply h.rd <;> simp only [F.BBL_GEARCFG_SNR_UP, F.BBL_STATUS_LOAD, F.BBL_STATUS_MARGIN] <;> omega

theorem loadDown (h : ShowsLoad p n m) :
    m.rd (F.BBL_MODE_LOAD_DOWN (lineOf p) (endOf p)) = n.rd (F.BBL_MODE_LOAD_DOWN (lineOf p) (endOf p)) := by
  apply h.rd <;> simp only [F.BBL_MODE_LOAD_DOWN, F.BBL_STATUS_LOAD, F.BBL_STATUS_MARGIN] <;> omega

theorem loadUp (h : ShowsLoad p n m) : m.rd (F.BBL_MODE_LOAD_UP (lineOf p) (endOf p)) = n.rd (F.BBL_MODE_LOAD_UP (lineOf p) (endOf p)) := by
  apply h.rd <;> simp only [F.BBL_MODE_LOAD_UP, F.BBL_STATUS_LOAD, F.BBL_STATUS_MARGIN] <;> omega

theorem port (h : ShowsLoad p n m) (q : Nat) : m.port q = n.port q := by
  obtain ⟨r, k, hm⟩ := h.eq
  rw [hm]
  rfl

theorem gearBarred (h : ShowsLoad p n m) : m.gearBarred = n.gearBarred := by
  obtain ⟨r, k, hm⟩ := h.eq
  rw [hm]
  rfl

theorem clock (h : ShowsLoad p n m) : m.clock = n.clock := by
  obtain ⟨r, k, hm⟩ := h.eq
  rw [hm]

theorem gateCycle (h : ShowsLoad p n m) : m.gateCycle p = n.gateCycle p := by
  obtain ⟨r, k, hm⟩ := h.eq
  rw [hm, Node.gateCycle, Node.gateCycle, Node.tabW_free (by decide)]

end Node.ShowsLoad

/-- The margin shown is the row's at gears 2 to 4. -/
theorem Node.showLoad_row {load : Nat} {m : List Nat} (hg : 2 ≤ n.rd (bblGear p)) (hg' : n.rd (bblGear p) ≤ 4) :
    n.showLoad p load m = (n.wr (F.BBL_STATUS_LOAD (lineOf p) (endOf p)) (min load 255)).wr
      (F.BBL_STATUS_MARGIN (lineOf p) (endOf p)) (min (m.getD (n.rd (bblGear p) - 2) 0) 255) := by
  have hgear : (n.wr (F.BBL_STATUS_LOAD (lineOf p) (endOf p)) (min load 255)).rd (bblGear p) = n.rd (bblGear p) := by
    refine Node.rd_wr_ne n _ ?_
    simp only [bblGear, F.BBL_STATUS_GEAR, F.BBL_STATUS_LOAD]
    omega
  simp only [Node.showLoad, hgear, if_pos (And.intro hg hg')]

/-- At another gear no row gives the margin. -/
theorem Node.showLoad_other {load : Nat} {m : List Nat} (hg : n.rd (bblGear p) = 1) :
    n.showLoad p load m = ({ n.wr (F.BBL_STATUS_LOAD (lineOf p) (endOf p)) (min load 255) with freeN := n.freeN + 1 }).wr
      (F.BBL_STATUS_MARGIN (lineOf p) (endOf p)) (Config.freeNat n.freeN % 256) := by
  have hgear : (n.wr (F.BBL_STATUS_LOAD (lineOf p) (endOf p)) (min load 255)).rd (bblGear p) = 1 := by
    refine (Node.rd_wr_ne n _ ?_).trans hg
    simp only [bblGear, F.BBL_STATUS_GEAR, F.BBL_STATUS_LOAD]
    omega
  simp only [Node.showLoad, hgear, if_neg (show ¬ (2 ≤ 1 ∧ 1 ≤ 4) by decide)]
  rfl

theorem Node.showsLoad (n : Node) (p load : Nat) (m : List Nat) : Node.ShowsLoad p n (n.showLoad p load m) := by
  unfold Node.showLoad
  dsimp only
  split
  · exact ⟨⟨_, _, rfl⟩, fun f h₁ h₂ => (Node.rd_wr_ne _ _ h₂).trans (Node.rd_wr_ne _ _ h₁)⟩
  · exact ⟨⟨_, _, rfl⟩, fun f h₁ h₂ => (Node.rd_wr_ne _ _ h₂).trans (Node.rd_wr_ne n _ h₁)⟩

/-! ### Decisions (07 R260) -/

/-- From 1 Gbit/s the highest allowed gear whose margin is good is chosen. -/
theorem Node.gearChoice_up {load m2 m3 m4 g : Nat} (hg : n.rd (bblGear p) = 1) (h2 : 2 ≤ g) (h4 : g ≤ 4)
    (ha : bitOf (n.rd (F.BBL_MODE_ALLOWED (lineOf p) (endOf p))) (g - 2) = true)
    (hm : n.rd (F.BBL_GEARCFG_SNR_UP (lineOf p) (endOf p)) ≤ [m2, m3, m4].getD (g - 2) 0)
    (hno : ∀ h, g < h → h ≤ 4 → [m2, m3, m4].getD (h - 2) 0 < n.rd (F.BBL_GEARCFG_SNR_UP (lineOf p) (endOf p)))
    (hlast : (n.port p).lastDown = 0)
    (hload : n.rd (F.BBL_MODE_LOAD_DOWN (lineOf p) (endOf p)) = 0 ∨ n.rd (F.BBL_MODE_LOAD_UP (lineOf p) (endOf p)) < load) :
    n.gearChoice p load [m2, m3, m4] = some g := by
  have hallowed : n.gearAllowed p g = true := by simp [Node.gearAllowed, ha, h2, h4]
  have hup : [4, 3, 2].find? (fun h => decide (n.rd (bblGear p) < h) && n.gearAllowed p h &&
      decide (n.rd (F.BBL_GEARCFG_SNR_UP (lineOf p) (endOf p)) ≤ [m2, m3, m4].getD (h - 2) 0)) = some g := by
    have hbad : ∀ h, g < h → h ≤ 4 → decide (n.rd (F.BBL_GEARCFG_SNR_UP (lineOf p) (endOf p)) ≤ [m2, m3, m4].getD (h - 2) 0) = false :=
      fun h hgh hh => decide_eq_false (Nat.not_le.2 (hno h hgh hh))
    have hgood := decide_eq_true hm
    obtain rfl | rfl | rfl : g = 2 ∨ g = 3 ∨ g = 4 := by omega
    · simp only [List.find?_cons, hg, hbad 4 (by decide) (by decide), hbad 3 (by decide) (by decide), hgood, hallowed, Bool.and_false,
        Bool.and_true, show decide (1 < 2) = true from rfl]
    · simp only [List.find?_cons, hg, hbad 4 (by decide) (by decide), hgood, hallowed, Bool.and_false,
        Bool.and_true, show decide (1 < 3) = true from rfl]
    · simp only [List.find?_cons, hg, hgood, hallowed, Bool.and_true, show decide (1 < 4) = true from rfl]
  have hnow : n.upAllowed p = true := by simp [Node.upAllowed, hlast]
  simp only [Node.gearChoice, hup, hnow, true_and, if_pos hload]

/-- A shift that is agreed goes its way. -/
theorem Node.gearDecide_agreed {load : Nat} {m : List Nat} {sh : Shift} (hh : n.hitless p = true) (hd : n.dataOn = true)
    (hs : (n.port p).shift = some sh) (ha : sh.acked = true) : n.gearDecide p load m = n.showLoad p load m := by
  obtain ⟨hp, hlink⟩ := Node.hitless_parts hh
  have hshow := n.showsLoad p load m
  simp only [Node.gearDecide, hp, hd, hlink, decide_true, Bool.and_self, Bool.not_true, Bool.false_eq_true, if_false, hshow.hitless, hh,
    hshow.port, hs, ha, Bool.and_false, Bool.false_and]

/-- Without a shift the gear chosen is requested. -/
theorem Node.gearDecide_chosen {load g : Nat} {m : List Nat} (hh : n.hitless p = true) (hd : n.dataOn = true)
    (hs : (n.port p).shift = none) (hb : n.gearBarred = false) (hc : (n.showLoad p load m).gearChoice p load m = some g) :
    n.gearDecide p load m = (n.showLoad p load m).gearRequest p { gear := g } 0 := by
  obtain ⟨hp, hlink⟩ := Node.hitless_parts hh
  have hshow := n.showsLoad p load m
  simp only [Node.gearDecide, hp, hd, hlink, decide_true, Bool.and_self, Bool.not_true, Bool.false_eq_true, if_false, hshow.hitless, hh,
    hshow.port, hshow.gearBarred, hb, hs, hc]

/-! ### Requests of the partner (07 R262, R264) -/

/-- A GEAR_REQ names a start between 50 us and 100 ms from now for an allowed gear. -/
def Node.startFits (n : Node) (start : Nat) : Prop := n.clock.now + 50 * usU ≤ start ∧ start ≤ n.clock.now + 100000 * usU

theorem Node.startFits.pos {start : Nat} (h : n.startFits start) : start ≠ 0 := by
  have := h.1
  unfold usU nsU at this
  omega

/-- A GEAR_REQ that finds no shift sets the shift aside that is none. -/
theorem Node.gearReqRx_idle {g start node : Nat} (hh : n.hitless p = true) (ha : n.gearAllowed p g = true) (hw : n.startFits start)
    (hs : (n.port p).shift = none) :
    n.gearReqRx p g start node =
      let m := n.setPort p { n.port p with shift := none }
      if !n.gearBarred && n.inFree p start then
        (m.gearAgree p { gear := g, start := start }).emit (.oam p oamGearAck [])
      else (m.emit (.oam p oamGearNak [(n.nextFree p (max start n.gearFrom)).getD 0])).gearWanted p := by
  obtain ⟨hp, -⟩ := Node.hitless_parts hh
  have hearly : decide (start < n.clock.now + 50 * usU) = false := decide_eq_false (Nat.not_lt.2 hw.1)
  have hlate : decide (n.clock.now + 100000 * usU < start) = false := decide_eq_false (Nat.not_lt.2 hw.2)
  have hzero : (start == 0) = false := beq_eq_false_iff_ne.2 hw.pos
  simp only [Node.gearReqRx, hp, hh, ha, hearly, hlate, hs, hw.pos, hzero, Node.keepWanted, decide_true, Bool.and_self, Bool.not_true,
    Bool.or_self, Bool.and_false, Bool.false_eq_true, if_false]
  rfl

/-- A window free at both ends is agreed to. -/
theorem Node.gearReqRx_agrees {g start node : Nat} (hh : n.hitless p = true) (ha : n.gearAllowed p g = true) (hw : n.startFits start)
    (hs : (n.port p).shift = none) (hb : n.gearBarred = false) (hf : n.inFree p start = true) :
    n.gearReqRx p g start node =
      ((n.setPort p { n.port p with shift := some { gear := g, start := start, acked := true } }).wr
        (F.BBL_STATUS_SHIFTING (lineOf p) (endOf p)) 1).emit (.oam p oamGearAck []) := by
  rw [Node.gearReqRx_idle hh ha hw hs]
  simp only [hb, hf, Bool.not_false, Bool.and_self, if_true, Node.gearAgree, Node.setPort_setPort, Node.port_setPort_same]
  rfl

/-- Otherwise the next start is named, and the owner's pending gear is tried. -/
theorem Node.gearReqRx_refuses {g start node : Nat} (hh : n.hitless p = true) (ha : n.gearAllowed p g = true) (hw : n.startFits start)
    (hs : (n.port p).shift = none) (hno : n.gearBarred = true ∨ n.inFree p start = false) :
    n.gearReqRx p g start node =
      ((n.setPort p { n.port p with shift := none }).emit (.oam p oamGearNak [(n.nextFree p (max start n.gearFrom)).getD 0])).gearWanted p := by
  have hrefused : (!n.gearBarred && n.inFree p start) = false := by
    rcases hno with h | h <;> simp [h]
  rw [Node.gearReqRx_idle hh ha hw hs]
  simp only [hrefused, Bool.false_eq_true, if_false]

theorem Node.gearWanted_none (h : (n.port p).wanted = none) : n.gearWanted p = n := by
  simp only [Node.gearWanted, h]

/-- The owner's gear waits while shifts are barred. -/
theorem Node.gearWanted_barred {w : Nat} (h : (n.port p).wanted = some w) (hs : (n.port p).shift = none) (hw : w ≠ n.rd (bblGear p))
    (hb : n.gearBarred = true) :
    n.gearWanted p =
      n.setPort p { n.port p with wanted := none, shift := some { gear := w, owner := true, mine := true } } := by
  have hwait : ∀ (x : Port) (sh : Shift), (n.setPort p x).gearRequest p sh 0 =
      (n.setPort p x).setPort p { (n.setPort p x).port p with shift := some { sh with start := 0, mine := true } } :=
    fun x sh => Node.gearRequest_barred (n := n.setPort p x) hb
  simp only [Node.gearWanted, h, hs, Node.rd_setPort, if_neg hw, hwait, Node.setPort_setPort, Node.port_setPort_same]

/-- Of two quality downshifts at once the one of the lower node identifier proceeds. -/
theorem Node.gearReqRx_both {g node : Nat} {sh : Shift} (hh : n.hitless p = true) (ha : n.gearAllowed p g = true)
    (hs : (n.port p).shift = some sh) (hm : sh.mine = true) (hq : sh.quality = true) (hk : sh.acked = false) (hi : sh.silent = false)
    (ho : sh.owner = false) :
    n.gearReqRx p g 0 node = if n.ident < node then n else
      ((((n.setPort p { n.port p with shift := some { gear := g, acked := true, quality := true } }).wr
        (F.BBL_STATUS_SHIFTING (lineOf p) (endOf p)) 1).emit (.oam p oamGearAck [])).wr
        (F.BBL_STATUS_BOUND_BROKEN (lineOf p) (endOf p)) 1).fault 9 1 p := by
  obtain ⟨hp, -⟩ := Node.hitless_parts hh
  by_cases hlt : n.ident < node
  · simp only [Node.gearReqRx, hp, hh, ha, hs, hm, hq, hk, hi, hlt, decide_true, Bool.and_self, Bool.not_true,
      Bool.false_eq_true, if_false, if_true, bne_self_eq_false, Bool.false_and, Bool.or_self, Bool.or_true]
  · simp only [Node.gearReqRx, hp, hh, ha, hs, hm, hq, hk, hi, ho, hlt, decide_true, decide_false, Bool.and_self, Bool.not_true,
      Bool.false_eq_true, if_false, if_true, bne_self_eq_false, Bool.false_and, Bool.or_self, Bool.and_false, Bool.true_and,
      Node.keepWanted, Node.gearAgree, Node.setPort_setPort, Node.port_setPort_same, Node.boundBroken]
    rfl

/-! ### Answers and repeats (07 R262) -/

/-- An agreement is taken, or the shift is held back while shifts are barred. -/
theorem Node.gearAckRx_asked {sh : Shift} (hs : (n.port p).shift = some sh) (hm : sh.mine = true) (hk : sh.acked = false)
    (hq : sh.quality = false) (h0 : 0 < sh.start) :
    n.gearAckRx p = if n.gearBarred then n.setPort p { n.port p with shift := some { sh with start := 0 } }
      else (n.setPort p { n.port p with shift := some { sh with acked := true } }).wr (F.BBL_STATUS_SHIFTING (lineOf p) (endOf p)) 1 := by
  have hstart : (sh.start != 0) = true := bne_iff_ne.2 (by omega)
  simp only [Node.gearAckRx, hs, hm, hk, hq, hstart, Node.gearAgree, Bool.not_false, Bool.and_self, Bool.true_or, Bool.not_true,
    Bool.false_eq_true, if_false, and_true]
  rfl

/-- A refusal that names a start is followed by a request for that start. -/
theorem Node.gearNakRx_next {sh : Shift} {next : Nat} (hs : (n.port p).shift = some sh) (hm : sh.mine = true) (hk : sh.acked = false)
    (hq : sh.quality = false) (h0 : 0 < sh.start) (hn : next ≠ 0) :
    n.gearNakRx p next = n.gearRequest p { sh with tries := 0 } next := by
  have hstart : ¬ sh.start = 0 := by omega
  simp only [Node.gearNakRx, hs, hm, hk, hq, hstart, hn, Bool.not_true, Bool.false_eq_true, or_self, if_false]

/-- A refusal that names none drops the shift. -/
theorem Node.gearNakRx_zero {sh : Shift} (hs : (n.port p).shift = some sh) (hm : sh.mine = true) (hk : sh.acked = false)
    (hq : sh.quality = false) (h0 : 0 < sh.start) : n.gearNakRx p 0 = n.gearDrop p := by
  have hstart : ¬ sh.start = 0 := by omega
  simp only [Node.gearNakRx, hs, hm, hk, hq, hstart, Bool.not_true, Bool.false_eq_true, or_self, if_false, if_true]

/-- A shift that is dropped counts, and an owner's request is answered. -/
theorem Node.gearDrop_asked {sh : Shift} (hs : (n.port p).shift = some sh) (hm : sh.mine = true) (hk : sh.acked = false)
    (hq : sh.quality = false) :
    n.gearDrop p = if sh.owner then
        ((n.setPort p { n.port p with shift := none }).cntAdd p 61 1).wr (F.BBL_GEARCMD_RESULT (lineOf p) (endOf p)) 3
      else (n.setPort p { n.port p with shift := none }).cntAdd p 61 1 := by
  simp only [Node.gearDrop, hs, hm, hk, hq, Bool.not_true, Bool.false_eq_true, or_self, if_false]

/-- A request without an answer is repeated. -/
theorem Node.gearRetry_again {sh : Shift} (hs : (n.port p).shift = some sh) (hm : sh.mine = true) (hk : sh.acked = false)
    (hq : sh.quality = false) (h0 : 0 < sh.start) (hi : sh.silent = false) (ht : sh.tries < 3) :
    n.gearRetry p = (n.setPort p { n.port p with shift := some { sh with tries := sh.tries + 1 } }).emit
      (.oam p oamGearReq [sh.gear, sh.start, n.ident]) := by
  have hstart : ¬ sh.start = 0 := by omega
  simp only [Node.gearRetry, hs, hm, hk, hq, hi, ht, hstart, Bool.not_false, Bool.and_self, Bool.false_eq_true, false_and, if_false, if_true]
  rfl

/-- After three repeats the shift ends (log entry 135). -/
theorem Node.gearRetry_ends {sh : Shift} (hs : (n.port p).shift = some sh) (hm : sh.mine = true) (hk : sh.acked = false)
    (hq : sh.quality = false) (hi : sh.silent = false) (ht : 3 ≤ sh.tries) (hw : (n.port p).wanted = none) :
    n.gearRetry p = n.setPort p { n.port p with shift := none } := by
  have htries : ¬ sh.tries < 3 := by omega
  simp only [Node.gearRetry, hs, hm, hk, hq, hi, htries, Bool.not_false, Bool.and_self, Bool.false_eq_true, if_false, if_true, Node.gearFails]
  exact Node.gearWanted_none (by simpa using hw)

/-! ### Silence (07 R263) -/

/-- The silence of an agreed shift begins where no rule bars it. -/
theorem Node.silenceStart_goes {sh : Shift} (hs : (n.port p).shift = some sh) (hk : sh.acked = true) (ht : (n.port p).tx = none)
    (hb : n.gearBarred = false ∨ sh.quality = true) :
    n.silenceStart p = n.setPort p { n.port p with shift := some { sh with silent := true } } := by
  have hpre : n.preemptable p = false := by simp [Node.preemptable, ht]
  rcases hb with h | h <;>
    simp only [Node.silenceStart, hs, hk, h, hpre, Bool.not_true, Bool.false_eq_true, and_false, false_and, if_false, if_true]

/-- A shift agreed before the directory was is requested anew. -/
theorem Node.silenceStart_barred {sh : Shift} (hs : (n.port p).shift = some sh) (hk : sh.acked = true) (hb : n.gearBarred = true)
    (hq : sh.quality = false) (hi : sh.silent = false) (hw : sh.mine = true ∨ (n.port p).wanted = none) :
    n.silenceStart p = (n.wr (F.BBL_STATUS_SHIFTING (lineOf p) (endOf p)) 0).setPort p
      { n.port p with shift := if sh.mine then some { sh with acked := false, start := 0, tries := 0 } else none } := by
  have hnone : ∀ m : Node, (m.port p).wanted = none ∨ (m.port p).shift ≠ none → m.gearWanted p = m := by
    rintro m (h | h)
    · exact Node.gearWanted_none h
    · unfold Node.gearWanted
      split
      · next hsh => exact absurd hsh h
      · rfl
  have hgo : sh.acked = true ∧ (!sh.silent) = true ∧ n.gearBarred = true ∧ (!sh.quality) = true := ⟨hk, by simp [hi], hb, by simp [hq]⟩
  simp only [Node.silenceStart, hs, if_pos hgo]
  refine hnone _ ?_
  rcases hw with h | h
  · exact .inr (by simp [h])
  · exact .inl (by simpa using h)

/-! ### Quality downshifts (07 R264, R265) -/

theorem Node.keepWanted_other (h : ∀ sh, (n.port p).shift = some sh → sh.owner = false) : n.keepWanted p = n := by
  cases hs : (n.port p).shift with
  | none => simp only [Node.keepWanted, hs]
  | some sh => simp only [Node.keepWanted, hs, h sh hs, Bool.false_and, Bool.false_eq_true, if_false]

/-- A margin below SNR_DOWN, with no margin good enough for gears 2 and 3, asks for 1 Gbit/s at once. -/
theorem Node.qualityDown_asks {margin m1 m2 m3 : Nat} (hh : n.hitless p = true)
    (hm : margin < n.rd (F.BBL_GEARCFG_SNR_DOWN (lineOf p) (endOf p))) (hmax : margin ≤ 255)
    (h1 : n.rd (F.BBL_GEARCFG_SNR_DOWN (lineOf p) (endOf p)) ≤ m1) (hg : 2 ≤ n.rd (bblGear p))
    (hs : ∀ sh, (n.port p).shift = some sh → sh.silent = false ∧ sh.quality = false ∧ sh.owner = false)
    (h2 : m2 < n.rd (F.BBL_GEARCFG_SNR_UP (lineOf p) (endOf p))) (h3 : m3 < n.rd (F.BBL_GEARCFG_SNR_UP (lineOf p) (endOf p))) :
    n.qualityDown p margin [m1, m2, m3] =
      (((((n.wr (F.BBL_STATUS_MARGIN (lineOf p) (endOf p)) margin).wr (F.BBL_STATUS_SHIFTING (lineOf p) (endOf p)) 0).wr
        (F.BBL_STATUS_BOUND_BROKEN (lineOf p) (endOf p)) 1).fault 9 1 p).setPort p
        { n.port p with shift := some { gear := 1, mine := true, quality := true } }).emit (.oam p oamGearReq [1, 0, n.ident]) := by
  obtain ⟨hp, -⟩ := Node.hitless_parts hh
  have hgear : (n.wr (F.BBL_STATUS_MARGIN (lineOf p) (endOf p)) margin).rd (bblGear p) = n.rd (bblGear p) := by
    refine Node.rd_wr_ne n _ ?_
    simp only [bblGear, F.BBL_STATUS_GEAR, F.BBL_STATUS_MARGIN]
    omega
  have hsnr : ∀ v, ((n.wr (F.BBL_STATUS_MARGIN (lineOf p) (endOf p)) margin).wr (F.BBL_STATUS_SHIFTING (lineOf p) (endOf p)) v).rd
      (F.BBL_GEARCFG_SNR_UP (lineOf p) (endOf p)) = n.rd (F.BBL_GEARCFG_SNR_UP (lineOf p) (endOf p)) := by
    intro v
    rw [Node.rd_wr_ne, Node.rd_wr_ne] <;> simp only [F.BBL_GEARCFG_SNR_UP, F.BBL_STATUS_MARGIN, F.BBL_STATUS_SHIFTING] <;> omega
  have hkeep : ∀ f v, (n.wr f v).keepWanted p = n.wr f v := fun f v => Node.keepWanted_other fun sh hsh => (hs sh hsh).2.2
  have hlow : ¬ (m1 < n.rd (F.BBL_GEARCFG_SNR_DOWN (lineOf p) (endOf p)) ∨ n.rd (bblGear p) ≤ 1) := by omega
  have hno2 : decide (n.rd (F.BBL_GEARCFG_SNR_UP (lineOf p) (endOf p)) ≤ m2) = false := decide_eq_false (Nat.not_le.2 h2)
  have hno3 : decide (n.rd (F.BBL_GEARCFG_SNR_UP (lineOf p) (endOf p)) ≤ m3) = false := decide_eq_false (Nat.not_le.2 h3)
  have hat : ∀ a b c : Nat, [a, b, c].getD 0 0 = a ∧ [a, b, c].getD 1 0 = b ∧ [a, b, c].getD 2 0 = c := fun _ _ _ => ⟨rfl, rfl, rfl⟩
  simp only [Node.qualityDown, hp, hh, hm, Nat.min_eq_left hmax, hgear, hat, hlow, hkeep, Node.port_wr, Node.put, b2n, hsnr,
    List.find?_cons, List.find?_nil, hno2, hno3, Bool.and_false, decide_true, Bool.and_self, Bool.not_true, Bool.false_eq_true, if_false,
    Node.boundBroken, if_true, Nat.reduceSub]
  refine (if_neg ?_).trans ?_
  · cases h : (n.port p).shift with
    | none => simp
    | some sh => simp [hs sh h]
  · simp only [Node.port_fault, Node.fault_ident]
    rfl

/-! ### The end of the silence (07 R263) -/

/-- Kind of a shift in the counters: up or the same, a quality downshift, another downshift. -/
def Shift.counter (sh : Shift) (old : Nat) : Nat := if old ≤ sh.gear then 58 else if sh.quality then 60 else 59

/-- The new gear is in force, shown and counted, and the shift over. -/
def Node.geared (n : Node) (p us : Nat) (sh : Shift) : Node :=
  let m := n.wrs [(bblGear p, sh.gear), (F.PRT_STATUS_RATE p, sh.gear + 1), (F.BBL_STATUS_SHIFTING (lineOf p) (endOf p), 0)]
  let m := (m.cntAdd p 63 us).cntAdd p (sh.counter (n.rd (bblGear p))) 1
  m.setPort p { m.port p with shift := none, lastDown := if sh.gear < n.rd (bblGear p) then m.clock.fresh + 1 else (m.port p).lastDown }

/-- The node once the new gear carries frames, before what has waited leaves. -/
def Node.shifted (n : Node) (p us : Nat) (sh : Shift) : Node :=
  let m := n.geared p us sh
  let m := if sh.owner then m.wr (F.BBL_GEARCMD_RESULT (lineOf p) (endOf p)) 0 else m
  ((m.trainPhy p).gearShows p).fireLink p

theorem Node.silenceEnd_eq {us : Nat} {sh : Shift} (hs : (n.port p).shift = some sh) (hi : sh.silent = true) :
    n.silenceEnd p us = (((((n.shifted p us sh).ptpGear p).sendMark p).pfcUpd p).ownFlush p).gearWanted p := by
  have hdown : (if (!decide (sh.gear < n.rd (bblGear p))) = true then 58 else if sh.quality = true then 60 else 59) =
      sh.counter (n.rd (bblGear p)) := by
    unfold Shift.counter
    by_cases h : sh.gear < n.rd (bblGear p)
    · simp [h]
    · simp [h, Nat.not_lt.1 h]
  simp only [Node.silenceEnd, hs, hi, Bool.not_true, Bool.false_eq_true, if_false, hdown, Node.shifted, Node.geared, decide_eq_true_eq]

/-- What the end of a silence shows once the gear is in force (07 R263). -/
structure Node.GearShown (n : Node) (p : Nat) (sh : Shift) (m : Node) : Prop where
  eq : ∃ r q c d k e t o, m = { n with regs := r, ports := q, cnt := c, delta := d, freeN := k, engs := e, clock := { n.clock with ports := t }, out := o }
  level : ∀ f : Fld, f.key < 32 * 0x10300000 → ¬ SendKey f.key → m.rd f = n.rd f
  gear : m.rd (bblGear p) = sh.gear
  rate : m.rd (F.PRT_STATUS_RATE p) = sh.gear + 1
  shifting : m.rd (F.BBL_STATUS_SHIFTING (lineOf p) (endOf p)) = 0
  ended : (m.port p).shift = none
  wanted : (m.port p).wanted = (n.port p).wanted
  down : sh.gear < n.rd (bblGear p) → (m.port p).lastDown = n.clock.fresh + 1
  count : FMap.get 0 m.cnt (p * 64 + sh.counter (n.rd (bblGear p))) = (FMap.get 0 n.cnt (p * 64 + sh.counter (n.rd (bblGear p))) + 1) % 2 ^ 40

theorem Shift.counter_bounds (sh : Shift) (old : Nat) : 58 ≤ sh.counter old ∧ sh.counter old ≤ 60 := by
  unfold Shift.counter
  split_ifs <;> omega

/-- The registers that say what gear is in force. -/
theorem Node.wrs_gear (n : Node) (p g : Nat) (hg : g < 5) :
    let m := n.wrs [(bblGear p, g), (F.PRT_STATUS_RATE p, g + 1), (F.BBL_STATUS_SHIFTING (lineOf p) (endOf p), 0)]
    m.rd (bblGear p) = g ∧ m.rd (F.PRT_STATUS_RATE p) = g + 1 ∧ m.rd (F.BBL_STATUS_SHIFTING (lineOf p) (endOf p)) = 0 := by
  refine ⟨?_, ?_, ?_⟩
  · show (((n.wr _ _).wr _ _).wr _ _).rd _ = _
    rw [Node.rd_wr_ne, Node.rd_wr_ne, Node.rd_wr_same]
    · exact Nat.mod_eq_of_lt (by show g < 2 ^ 3; omega)
    · simp only [bblGear, F.BBL_STATUS_GEAR, F.PRT_STATUS_RATE, lineOf, endOf]; omega
    · simp only [bblGear, F.BBL_STATUS_GEAR, F.BBL_STATUS_SHIFTING]; omega
  · show (((n.wr _ _).wr _ _).wr _ _).rd _ = _
    rw [Node.rd_wr_ne, Node.rd_wr_same]
    · exact Nat.mod_eq_of_lt (by show g + 1 < 2 ^ 3; omega)
    · simp only [F.PRT_STATUS_RATE, F.BBL_STATUS_SHIFTING, lineOf, endOf]; omega
  · exact Node.rd_wr_same ..

namespace Node.GearShown

variable {m : Node} {sh : Shift}

theorem geared (hp : p < 4) (us : Nat) (hg : sh.gear < 5) : GearShown n p sh (n.geared p us sh) := by
  obtain ⟨h58, h60⟩ := sh.counter_bounds (n.rd (bblGear p))
  obtain ⟨hgear, hrate, hshift⟩ := n.wrs_gear p sh.gear hg
  unfold Node.geared
  generalize hr : n.wrs [(bblGear p, sh.gear), (F.PRT_STATUS_RATE p, sh.gear + 1), (F.BBL_STATUS_SHIFTING (lineOf p) (endOf p), 0)] = r at *
  have heq : ∃ g, r = { n with regs := g } := ⟨_, hr.symm⟩
  have hlevel : ∀ f : Fld, f.key < 32 * 0x10300000 → r.rd f = n.rd f := by
    intro f hf
    rw [← hr]
    show (((n.wr _ _).wr _ _).wr _ _).rd _ = _
    rw [Node.rd_wr_ne, Node.rd_wr_ne, Node.rd_wr_ne] <;>
      simp only [bblGear, F.BBL_STATUS_GEAR, F.PRT_STATUS_RATE, F.BBL_STATUS_SHIFTING] <;> omega
  obtain ⟨g, rfl⟩ := heq
  have hcount : ∀ (x : Node) (i k : Nat) (f : Fld), f.key ≠ (F.PRT_HALF_LO_HALF p).key → f.key ≠ (F.PRT_HALF_HI_HALF p).key →
      (x.cntAdd p i k).rd f = x.rd f := fun x i k f h1 h2 => Node.cntAdd_rd x p i k h1 h2
  refine ⟨?_, fun f hf _ => ?_, ?_, ?_, ?_, ?_, ?_, fun hlt => ?_, ?_⟩
  · obtain ⟨_, _, _, h1⟩ := Node.cntAdd_eq { n with regs := g } p 63 us
    obtain ⟨_, _, _, h2⟩ := Node.cntAdd_eq (Node.cntAdd { n with regs := g } p 63 us) p (sh.counter (n.rd (bblGear p))) 1
    dsimp only
    rw [h2, h1]
    exact ⟨_, _, _, _, _, _, _, _, rfl⟩
  · rw [Node.rd_setPort, hcount, hcount, hlevel f hf] <;> simp only [F.PRT_HALF_LO_HALF, F.PRT_HALF_HI_HALF] <;> omega
  · rw [Node.rd_setPort, hcount, hcount, hgear] <;> simp only [bblGear, F.BBL_STATUS_GEAR, F.PRT_HALF_LO_HALF, F.PRT_HALF_HI_HALF] <;> omega
  · rw [Node.rd_setPort, hcount, hcount, hrate] <;> simp only [F.PRT_STATUS_RATE, F.PRT_HALF_LO_HALF, F.PRT_HALF_HI_HALF] <;> omega
  · rw [Node.rd_setPort, hcount, hcount, hshift] <;> simp only [F.BBL_STATUS_SHIFTING, F.PRT_HALF_LO_HALF, F.PRT_HALF_HI_HALF] <;> omega
  · simp
  · simp only [Node.port_setPort_same, Node.port_cntAdd]
    rfl
  · obtain ⟨_, _, _, h1⟩ := Node.cntAdd_eq { n with regs := g } p 63 us
    obtain ⟨_, _, _, h2⟩ := Node.cntAdd_eq (Node.cntAdd { n with regs := g } p 63 us) p (sh.counter (n.rd (bblGear p))) 1
    simp only [Node.port_setPort_same, if_pos hlt]
    rw [h2, h1]
  · refine (Node.cntAdd_cnt_same _ _ _ _ (by decide)).trans ?_
    rw [Node.cntAdd_cnt_ne _ _ _ _ (by omega)]

/-- A register of the port besides those of the gear. -/
theorem wr (h : GearShown n p sh m) {f : Fld} (v : Nat) (hlow : 32 * 0x10300000 ≤ f.key) (h1 : f.key ≠ (bblGear p).key)
    (h2 : f.key ≠ (F.PRT_STATUS_RATE p).key) (h3 : f.key ≠ (F.BBL_STATUS_SHIFTING (lineOf p) (endOf p)).key) : GearShown n p sh (m.wr f v) := by
  obtain ⟨_, _, _, _, _, _, _, _, heq⟩ := h.eq
  refine ⟨⟨_, _, _, _, _, _, _, _, by rw [heq]; rfl⟩, fun g hg hg' => ?_, ?_, ?_, ?_, h.ended, h.wanted, h.down, h.count⟩
  · exact (Node.rd_wr_ne m v (by omega)).trans (h.level g hg hg')
  · exact (Node.rd_wr_ne m v (Ne.symm h1)).trans h.gear
  · exact (Node.rd_wr_ne m v (Ne.symm h2)).trans h.rate
  · exact (Node.rd_wr_ne m v (Ne.symm h3)).trans h.shifting

theorem result (h : GearShown n p sh m) : GearShown n p sh (m.wr (F.BBL_GEARCMD_RESULT (lineOf p) (endOf p)) 0) := by
  apply h.wr <;> simp only [F.BBL_GEARCMD_RESULT, bblGear, F.BBL_STATUS_GEAR, F.PRT_STATUS_RATE, F.BBL_STATUS_SHIFTING, lineOf, endOf] <;> omega

theorem takesFree (h : GearShown n p sh m) (k : Nat) : GearShown n p sh { m with freeN := k } := by
  obtain ⟨_, _, _, _, _, _, _, _, heq⟩ := h.eq
  exact ⟨⟨_, _, _, _, _, _, _, _, by rw [heq]⟩, h.level, h.gear, h.rate, h.shifting, h.ended, h.wanted, h.down, h.count⟩

theorem setEng (h : GearShown n p sh m) (e : Nat) (x : Eng) : GearShown n p sh (m.setEng e x) := by
  obtain ⟨_, _, _, _, _, _, _, _, heq⟩ := h.eq
  exact ⟨⟨_, _, _, _, _, _, _, _, by rw [heq]; rfl⟩, h.level, h.gear, h.rate, h.shifting, h.ended, h.wanted, h.down, h.count⟩

theorem setPort (h : GearShown n p sh m) {x : Port} (h1 : x.shift = (m.port p).shift) (h2 : x.wanted = (m.port p).wanted)
    (h3 : x.lastDown = (m.port p).lastDown) : GearShown n p sh (m.setPort p x) := by
  obtain ⟨_, _, _, _, _, _, _, _, heq⟩ := h.eq
  refine ⟨⟨_, _, _, _, _, _, _, _, by rw [heq]; rfl⟩, h.level, h.gear, h.rate, h.shifting, ?_, ?_, fun hlt => ?_, h.count⟩
  · rw [Node.port_setPort_same, h1, h.ended]
  · rw [Node.port_setPort_same, h2, h.wanted]
  · rw [Node.port_setPort_same, h3, h.down hlt]

theorem trainPhy (h : GearShown n p sh m) : GearShown n p sh (m.trainPhy p) :=
  setPort (h.takesFree (m.freeN + 1)) rfl rfl rfl

theorem gearShows (h : GearShown n p sh m) : GearShown n p sh (m.gearShows p) := by
  have hmargin : ∀ (x : Node) v, GearShown n p sh x → GearShown n p sh (x.wr (F.BBL_STATUS_MARGIN (lineOf p) (endOf p)) v) := by
    intro x v hx
    apply hx.wr <;> simp only [F.BBL_STATUS_MARGIN, bblGear, F.BBL_STATUS_GEAR, F.PRT_STATUS_RATE, F.BBL_STATUS_SHIFTING, lineOf, endOf] <;> omega
  have hload : ∀ (x : Node) v, GearShown n p sh x → GearShown n p sh (x.wr (F.BBL_STATUS_LOAD (lineOf p) (endOf p)) v) := by
    intro x v hx
    apply hx.wr <;> simp only [F.BBL_STATUS_LOAD, bblGear, F.BBL_STATUS_GEAR, F.PRT_STATUS_RATE, F.BBL_STATUS_SHIFTING, lineOf, endOf] <;> omega
  exact hload _ _ (hmargin _ _ (h.takesFree _))

theorem fireLink (h : GearShown n p sh m) : GearShown n p sh (m.fireLink p) := by
  unfold Node.fireLink
  split
  · exact h.setEng _ _
  · exact h

theorem shifted (hp : p < 4) (us : Nat) (hg : sh.gear < 5) : GearShown n p sh (n.shifted p us sh) := by
  have hbase : GearShown n p sh (if sh.owner then (n.geared p us sh).wr (F.BBL_GEARCMD_RESULT (lineOf p) (endOf p)) 0 else n.geared p us sh) := by
    split
    · exact (geared hp us hg).result
    · exact geared hp us hg
  exact hbase.trainPhy.gearShows.fireLink

/-- What waits leaves; the gear stays. -/
theorem sends {k : Node} (hp : p < 4) (h : GearShown n p sh m) (hs : Sends m k) : GearShown n p sh k := by
  obtain ⟨_, _, _, _, _, _, _, _, heq⟩ := h.eq
  obtain ⟨_, _, _, _, _, _, _, hk⟩ := hs.eq
  obtain ⟨_, _, _, hport⟩ := hs.port p
  obtain ⟨h58, h60⟩ := sh.counter_bounds (n.rd (bblGear p))
  refine ⟨⟨_, _, _, _, _, _, _, _, by rw [hk, heq]⟩, fun f hf hf' => (hs.rd f hf').trans (h.level f hf hf'), ?_, ?_, ?_, ?_, ?_, fun hlt => ?_, ?_⟩
  · rw [hs.rd _ fun hx => ?_, h.gear]
    have := hx.bounds
    simp only [bblGear, F.BBL_STATUS_GEAR, lineOf, endOf] at this
    omega
  · rw [hs.rd _ fun hx => ?_, h.rate]
    have := hx.bounds
    simp only [F.PRT_STATUS_RATE] at this
    omega
  · rw [hs.rd _ fun hx => ?_, h.shifting]
    have := hx.bounds
    simp only [F.BBL_STATUS_SHIFTING, lineOf, endOf] at this
    omega
  · rw [hport, h.ended]
  · rw [hport, h.wanted]
  · rw [hport, h.down hlt]
  · rw [hs.cnt _ (by unfold NoTxCount; omega), h.count]

end Node.GearShown

/-- After a silence the new gear is in force and the shift over. -/
theorem Node.silenceEnd_shows {us : Nat} {sh : Shift} (hp : p < 4) (hs : (n.port p).shift = some sh) (hi : sh.silent = true)
    (hg : sh.gear < 5) (hw : (n.port p).wanted = none) : Node.GearShown n p sh (n.silenceEnd p us) := by
  have hp20 : p < 20 := by omega
  have h := ((((Node.GearShown.shifted (n := n) hp us hg).sends hp (.ptpGear _ hp20)).sends hp (.sendMark _ hp20)).sends hp
    (.pfcUpd _ p)).sends hp (.ownFlush _ hp20)
  rw [Node.silenceEnd_eq hs hi, Node.gearWanted_none (h.wanted.trans hw)]
  exact h


/-! ### The obligation -/

/-- Where the command's node keeps the level and what the level depends on, what follows that node holds of the node left. -/
theorem Yields.of_calm {c : Instr} {s : State} {m : Node} {P : Node → Prop} (he : exec c s = s.to m) (hl : m.level = s.node.level)
    (hi : SameLevelInputs m s.node) (hf : s.node.fits) (hp : ∀ t, Follows m t → P t) : Yields c s P :=
  Yields.imp (Leaves.of_to he hl hi.allowed hf) hp

/-- A request of a gear that the node can make is proposed, with the owner's mark. -/
theorem Node.gearCmd_asks {g : Nat} (hh : n.hitless p = true) (ha : n.gearAllowed p g = true) (hne : n.rd (bblGear p) ≠ g)
    (hs : (n.port p).shift = none) (hb : n.gearBarred = false) (hc : n.gateCycle p = 0) :
    n.gearCmd (lineOf p) (endOf p) g = (n.asksFor p { gear := g, owner := true } (n.clock.now + 50 * usU)).wr
      (F.BBL_GEARCMD_RESULT (lineOf p) (endOf p)) 0 := by
  have hport : lineOf p + 2 * endOf p = p := by unfold endOf lineOf; omega
  have hreq : n.gearRequest p { gear := g, owner := true } 0 = n.asksFor p { gear := g, owner := true } (n.clock.now + 50 * usU) :=
    Node.gearRequest_unscheduled hb hc
  simp only [Node.gearCmd, hport, Node.gearOwner, ha, hh, hs, hreq, if_neg (Ne.symm hne), Bool.not_true, Bool.false_eq_true, if_false]

/-- The owner's request comes as a command of GEARCMD (07 R260, R273). -/
theorem ownerShift_answered {s : State} {m : Master} {p g : Nat} (hp : p < 4) (hg : g < 8)
    (h : RegPasses s.node m (.BBL_GEARCMD (lineOf p) (endOf p)) g) (hh : s.node.hitless p = true) (ha : s.node.gearAllowed p g = true)
    (hne : s.node.rd (bblGear p) ≠ g) (hs : (s.node.port p).shift = none) (hb : s.node.gearBarred = false) (hc : s.node.gateCycle p = 0) :
    Answered (.ownerRequestedShift m p g) s m 0
      (((s.node.leased m).asksFor p { gear := g, owner := true } (s.node.clock.now + 50 * usU)).wr
        (F.BBL_GEARCMD_RESULT (lineOf p) (endOf p)) 0) := by
  have hg14 : 1 ≤ g ∧ g ≤ 4 := by
    simp only [Node.gearAllowed, Bool.or_eq_true, Bool.and_eq_true, beq_iff_eq, decide_eq_true_eq] at ha
    omega
  have hcmd : cmdOf (.BBL_GEARCMD (lineOf p) (endOf p)) g = g := by
    have hmod : g % 16 % 8 = g := by omega
    simp only [cmdOf, hmod, if_pos hg14.2]
  have hl : lineOf p < 2 := by unfold lineOf; omega
  have he : endOf p < 2 := by unfold endOf; omega
  have hreg : regAt (Reg.addr (.BBL_GEARCMD (lineOf p) (endOf p))) = some (.BBL_GEARCMD (lineOf p) (endOf p)) := by
    generalize lineOf p = l at hl
    generalize endOf p = e at he
    interval_cases l <;> interval_cases e <;> rfl
  have htarget : targetOf (Reg.addr (.BBL_GEARCMD (lineOf p) (endOf p))) = some .regs := by
    generalize lineOf p = l at hl
    generalize endOf p = e at he
    interval_cases l <;> interval_cases e <;> rfl
  have hexec : exec (.ownerRequestedShift m p g) s =
      s.toBus (s.node.bus (wordWrite m (Reg.addr (.BBL_GEARCMD (lineOf p) (endOf p))) g)) := by
    show s.given (decide (p < 4)) _ = _
    rw [decide_eq_true hp]
    rfl
  refine Answered.of_bus hexec ?_
  have hbus := Node.bus_command h hreg htarget (addr_aligned _) (by rw [hcmd]; omega)
  rw [hcmd] at hbus
  refine hbus.trans ?_
  obtain ⟨t, ht⟩ := Node.leased_eq s.node m
  have hasks := Node.gearCmd_asks (n := s.node.leased m) (g := g) (by rw [ht]; exact hh) (by rw [ht]; exact ha) (by rw [ht]; exact hne)
    (by rw [ht]; exact hs) (by rw [ht]; exact hb) (by rw [ht]; exact hc)
  have hclock : (s.node.leased m).clock = s.node.clock := by rw [ht]
  rw [hclock] at hasks
  show (none, (Node.gearCmd (s.node.leased m) (lineOf p) (endOf p) g).emit _) = _
  rw [hasks]

/-- Settles O43: each message, timer and decision leaves the node its lemma names; what follows the silence only sends. -/
theorem gears : Obligations.Gears := by
  intro s p hp n pt l e us asks hh
  have hus : us = usU := rfl
  obtain ⟨_, hlink⟩ := Node.hitless_parts hh
  refine ⟨?_, ?_, ?_, ?_, ?_, ?_, ?_, ?_, ?_⟩
  · intro load m2 m3 m4 sh hd hs ha hg hg'
    refine Settles.of_to ((congrArg s.to (Node.gearDecide_agreed hh hd hs ha)).trans ?_)
    rw [Node.showLoad_row hg hg']
    rfl
  · intro load m2 m3 m4 g hd hs hb hc hg h2 h4 hload ha hm hno hlast hup
    have hshow := n.showsLoad p load [m2, m3, m4]
    have hchoice : (n.showLoad p load [m2, m3, m4]).gearChoice p load [m2, m3, m4] = some g := by
      refine Node.gearChoice_up (hshow.gear.trans hg) h2 h4 ?_ (by rw [hshow.snrUp]; exact hm) (by rw [hshow.snrUp]; exact hno)
        (by rw [hshow.port]; exact hlast) (by rw [hshow.loadDown, hshow.loadUp]; exact hup)
      have := hshow.allowed g
      simp only [Node.gearAllowed, h2, h4, decide_true, Bool.true_and, show (g == 1) = false from beq_eq_false_iff_ne.2 (by omega),
        Bool.false_or] at this
      rw [this]
      exact ha
    refine ⟨Config.freeNat n.freeN % 256, Settles.of_to ((congrArg s.to (Node.gearDecide_chosen hh hd hs hb hchoice)).trans ?_)⟩
    rw [Node.gearRequest_unscheduled (hshow.gearBarred.trans hb) (hshow.gateCycle.trans hc), Node.showLoad_other hg, Nat.min_eq_left hload]
    rfl
  · intro m g hg h ha hne hs hb hc
    obtain ⟨t, ht⟩ := Node.leased_eq n m
    have hport : (n.leased m).port p = pt := by rw [ht]; rfl
    have := ownerShift_answered hp hg h hh ha hne hs hb hc
    unfold Node.asksFor at this
    rw [hport, show (s.node.leased m).ident = n.ident by rw [ht]] at this
    exact this
  · intro g start node ha h1 h2 hs
    have hw : n.startFits start := ⟨h1, h2⟩
    refine ⟨fun hb hf => ?_, fun hwant hno => ?_, fun w hwant hne hb => ?_⟩
    · exact Settles.of_to (congrArg s.to (Node.gearReqRx_agrees hh ha hw hs hb hf))
    · refine Settles.of_to (congrArg s.to ((Node.gearReqRx_refuses hh ha hw hs hno).trans (Node.gearWanted_none ?_)))
      simpa using hwant
    · refine Settles.of_to (congrArg s.to ((Node.gearReqRx_refuses hh ha hw hs (.inl hb)).trans ?_))
      refine (Node.gearWanted_barred (n := (n.setPort p _).emit _) (w := w) (by simpa using hwant) (by simp) hne hb).trans ?_
      simp only [Node.port_emit, Node.port_setPort_same]
      rfl
  · intro g node sh ha hs hm hq hk hi ho
    refine ⟨fun hlt => ?_, fun hle => ?_⟩
    · exact Settles.of_to (congrArg s.to ((Node.gearReqRx_both hh ha hs hm hq hk hi ho).trans (if_pos hlt)))
    · exact Settles.of_to (congrArg s.to ((Node.gearReqRx_both hh ha hs hm hq hk hi ho).trans (if_neg (Nat.not_lt.2 hle))))
  · intro sh hs hm hk hq h0
    refine ⟨fun hb => ?_, fun hb => ?_, fun next hn hb hf h1 h2 => ?_, fun ho => ?_, fun ho => ⟨?_, ?_⟩, fun hi ht => ?_, fun hi ht hw => ?_⟩
    · exact Settles.of_to (congrArg s.to ((Node.gearAckRx_asked hs hm hk hq h0).trans (by rw [hb]; rfl)))
    · exact Settles.of_to (congrArg s.to ((Node.gearAckRx_asked hs hm hk hq h0).trans (by rw [hb]; rfl)))
    · refine Settles.of_to (congrArg s.to ((Node.gearNakRx_next hs hm hk hq h0 hn).trans ?_))
      exact Node.gearRequest_found hb (Node.gearStart_of_inFree hf h1) h2
    · exact Settles.of_to (congrArg s.to ((Node.gearDrop_asked hs hm hk hq).trans (by rw [ho]; rfl)))
    · exact Settles.of_to (congrArg s.to ((Node.gearNakRx_zero hs hm hk hq h0).trans ((Node.gearDrop_asked hs hm hk hq).trans (by rw [ho]; rfl))))
    · exact Settles.of_to (congrArg s.to ((Node.gearDrop_asked hs hm hk hq).trans (by rw [ho]; rfl)))
    · exact Settles.of_to (congrArg s.to (Node.gearRetry_again hs hm hk hq h0 hi ht))
    · exact Settles.of_to (congrArg s.to (Node.gearRetry_ends hs hm hk hq hi ht hw))
  · intro sh hs hk
    refine ⟨fun ht hb => ?_, fun hb hq hi hw => ?_⟩
    · exact Settles.of_to (congrArg s.to (Node.silenceStart_goes hs hk ht hb))
    · exact Settles.of_to (congrArg s.to (Node.silenceStart_barred hs hk hb hq hi hw))
  · intro sh k hs hi hg hw hfit
    have h := Node.silenceEnd_shows (us := k) hp hs hi hg hw
    obtain ⟨_, _, _, _, _, _, _, _, heq⟩ := h.eq
    refine Yields.of_calm (m := n.silenceEnd p k) rfl (by rw [heq]) ?_ hfit fun t hf => ?_
    · refine ⟨by rw [heq], by rw [heq], by rw [heq], by rw [heq], by rw [heq], fun f hkey => h.level f ?_ (not_sendKey_of_level _ hkey)⟩
      have := levelKeys_lt _ hkey
      omega
    · have hport : t.port p = (n.silenceEnd p k).port p := by rw [Node.port, hf.ports, Node.port]
      have hbbl : ∀ b : Nat, 8 ≤ b → b < 32 → 32 * (0x10400008 + 0x4000 * lineOf p + 0x1000 * endOf p) + b ∉ followKeys := by
        intro b h8 hb
        simp only [followKeys, List.mem_cons, List.not_mem_nil, or_false, F.MGT_FAULT_SOURCE, F.HLT_REPORT_MARGIN, F.BBL_RELAY_DRIVE_OPEN,
          F.BBL_RELAY_CLOSED, F.BBL_RELAY_LIFE, F.BBL_RELAY_OPS_COUNT, lineOf, endOf]
        omega
      refine ⟨?_, ?_, ?_, by rw [hport, h.ended], ?_, fun hlt => ?_⟩
      · exact (hf.rd _ (hbbl 28 (by decide) (by decide))).trans h.gear
      · refine (hf.rd _ (not_followKey_mid ?_ ?_)).trans h.rate <;> simp only [F.PRT_STATUS_RATE] <;> omega
      · have hzero : t.rd (F.BBL_STATUS_SHIFTING l e) = 0 :=
          (hf.rd (F.BBL_STATUS_SHIFTING l e) (hbbl 25 (by decide) (by decide))).trans h.shifting
        simp [Node.on, hzero]
      · rw [hf.cnt]
        exact h.count
      · rw [hport, h.down hlt]
  · intro margin m1 m2 m3 hm hmax h1 hg hs h2 h3
    exact Settles.of_to (congrArg s.to (Node.qualityDown_asks hh hm hmax h1 hg hs h2 h3))

end Sys2Proof.Machine
end

section
/-! PROOF. Pauses, preemption, low-power idle, returning cells and counters of a port (07 R238 to R254; 06 R209, R217, R223). -/

namespace Sys2Proof.Machine

open Sys2Proof

/-! ### Counters (07 R252) -/

/-- The delta view saturates. -/
theorem Node.cntAdd_delta_same (n : Node) (p i k : Nat) (hk : k ≠ 0) :
    FMap.get 0 (n.cntAdd p i k).delta (p * 64 + i) = min (FMap.get 0 n.delta (p * 64 + i) + k) 0xFFFFFFFF := by
  unfold Node.cntAdd
  rw [if_neg hk]
  dsimp only
  split
  · exact FMap.get_put_same ..
  · split <;> exact FMap.get_put_same ..

theorem bitOf_mod {v k b : Nat} (h : b < k) : bitOf (v % 2 ^ k) b = bitOf v b := by
  rw [bitOf_eq_testBit, bitOf_eq_testBit, Nat.testBit_mod_two_pow]
  simp [h]

/-- A counter that changes its bit 39 marks its HALF bit. -/
theorem Node.cntAdd_half (n : Node) (p i k : Nat) (hi : i < 64) (hk : k ≠ 0)
    (hbit : bitOf (FMap.get 0 n.cnt (p * 64 + i)) 39 ≠ bitOf ((FMap.get 0 n.cnt (p * 64 + i) + k) % 2 ^ 40) 39) :
    bitOf (if i < 32 then (n.cntAdd p i k).rd (F.PRT_HALF_LO_HALF p) else (n.cntAdd p i k).rd (F.PRT_HALF_HI_HALF p)) (i % 32) = true := by
  have hne : (bitOf (FMap.get 0 n.cnt (p * 64 + i)) 39 == bitOf ((FMap.get 0 n.cnt (p * 64 + i) + k) % 2 ^ 40) 39) = false :=
    beq_false_of_ne hbit
  by_cases h : i < 32
  · simp only [Node.cntAdd, if_neg hk, hne, Bool.false_eq_true, if_false, if_pos h, Node.rd_wr_same, Nat.mod_eq_of_lt h]
    refine (bitOf_mod (k := 32) h).trans ?_
    rw [bitOf_setBit, if_pos rfl]
  · simp only [Node.cntAdd, if_neg hk, hne, Bool.false_eq_true, if_false, if_neg h, Node.rd_wr_same, show i % 32 = i - 32 by omega]
    refine (bitOf_mod (k := 32) (by omega)).trans ?_
    rw [bitOf_setBit, if_pos rfl]

/-! ### What the receive MAC counts (07 R255) -/

/-- The field is the count of ignored pauses, or a HALF word, of port `p`. -/
def CountKey (p k : Nat) : Prop :=
  k = (F.PRT_HALF_LO_HALF p).key ∨ k = (F.PRT_HALF_HI_HALF p).key ∨ k = (F.PRT_FLOWCNT_IGNORED p).key

theorem CountKey.bounds {p k : Nat} (h : CountKey p k) : 32 * (0x10300008 + 0x1000 * p) ≤ k ∧ k ≤ 32 * (0x10300014 + 0x1000 * p) ∧ k % 32 = 0 := by
  simp only [CountKey, F.PRT_HALF_LO_HALF, F.PRT_HALF_HI_HALF, F.PRT_FLOWCNT_IGNORED] at h
  omega

/-- `n` is `m` but for counters of port `p`, of those indexes. -/
structure Counts (p : Nat) (I : Nat → Prop) (m n : Node) : Prop where
  eq : ∃ r c d, n = { m with regs := r, cnt := c, delta := d }
  rd : ∀ f : Fld, ¬ CountKey p f.key → n.rd f = m.rd f
  cnt : ∀ k, (∀ i, I i → k ≠ p * 64 + i) → FMap.get 0 n.cnt k = FMap.get 0 m.cnt k

namespace Counts

variable {p : Nat} {I : Nat → Prop} {a b c : Node}

theorem refl (n : Node) : Counts p I n n := ⟨⟨_, _, _, rfl⟩, fun _ _ => rfl, fun _ _ => rfl⟩

theorem trans (h : Counts p I a b) (g : Counts p I b c) : Counts p I a c := by
  refine ⟨?_, fun f hf => (g.rd f hf).trans (h.rd f hf), fun k hk => (g.cnt k hk).trans (h.cnt k hk)⟩
  obtain ⟨_, _, _, hb⟩ := h.eq
  obtain ⟨_, _, _, hc⟩ := g.eq
  rw [hb] at hc
  exact ⟨_, _, _, hc⟩

theorem cntAdd (n : Node) {i : Nat} (k : Nat) (hi : I i) : Counts p I n (n.cntAdd p i k) :=
  ⟨n.cntAdd_eq p i k, fun _ hf => Node.cntAdd_rd n p i k (fun h => hf (.inl h)) (fun h => hf (.inr (.inl h))), fun _ hk => Node.cntAdd_cnt_ne n p i k (hk i hi)⟩

theorem mono {J : Nat → Prop} (h : Counts p I a b) (hi : ∀ i, I i → J i) : Counts p J a b :=
  ⟨h.eq, h.rd, fun k hk => h.cnt k fun i hx => hk i (hi i hx)⟩

theorem ignored (n : Node) : Counts p I n (n.inc (F.PRT_FLOWCNT_IGNORED p)) :=
  ⟨⟨_, _, _, rfl⟩, fun _ hf => Node.rd_wr_ne _ _ fun h => hf (.inr (.inr h)), fun _ _ => rfl⟩

theorem on (h : Counts p I a b) {f : Fld} (hf : ¬ CountKey p f.key) : b.on f = a.on f := by
  simp only [Node.on, h.rd f hf]

theorem mbps (h : Counts p I a b) : b.mbps p = a.mbps p := by
  rw [Node.mbps, h.rd, Node.mbps]
  intro hk
  have := hk.bounds
  simp only [F.PRT_STATUS_RATE] at this
  omega

theorem port (h : Counts p I a b) (q : Nat) : b.port q = a.port q := by
  obtain ⟨_, _, _, hb⟩ := h.eq
  rw [hb]
  rfl

/-- Counting bears on no service level. -/
theorem sameLevelInputs (h : Counts p I a b) : SameLevelInputs b a := by
  obtain ⟨_, _, _, hb⟩ := h.eq
  refine ⟨by rw [hb], by rw [hb], by rw [hb], by rw [hb], by rw [hb], fun f hf => h.rd f fun hk => ?_⟩
  have := levelKeys_lt _ hf
  have := hk.bounds
  omega

end Counts

/-- The indexes of what the receive MAC counts. -/
def MacIndex (i : Nat) : Prop := i ≤ 4 ∨ (7 ≤ i ∧ i ≤ 26) ∨ i = 29

/-- A good frame is counted. -/
theorem Node.rxCount_counts (n : Node) (p len : Nat) (b : List Byte) (o : Bool) : Counts p MacIndex n (n.rxCount p len b o) := by
  have hcast := Sends.castOf_le b
  have hsize := Sends.sizeBin_le len
  have hadd : ∀ (m : Node) (i k : Nat), MacIndex i → Counts p MacIndex m (m.cntAdd p i k) := fun m i k hi => .cntAdd m k hi
  exact ((((((hadd _ 0 _ (by unfold MacIndex; omega)).trans (hadd _ 1 _ (by unfold MacIndex; omega))).trans
    (hadd _ (2 + castOf b) _ (by unfold MacIndex; omega))).trans (hadd _ 7 _ (by unfold MacIndex; omega))).trans
    (hadd _ 8 _ (by unfold MacIndex; omega))).trans (hadd _ (9 + sizeBin len) _ (by unfold MacIndex; omega))).trans
    (hadd _ 18 _ (by unfold MacIndex; omega))

/-- A frame without an error, of a length the MAC takes whole, is good. -/
theorem Node.rxMac_good {n : Node} {p : Nat} {f : WireFrame} (hsym : f.symErr = false) (hsmd : f.smdErr = false) (hassy : f.assyErr = false)
    (hfcs : f.fcsOk = true) (hmin : 60 ≤ f.bytes.length) (hmax : f.bytes.length + 4 ≤ n.rd (F.PRT_CTRL_MAXLEN p)) :
    (n.rxMac p f).1 = .good f.bytes false ∧ Counts p MacIndex n (n.rxMac p f).2 := by
  have hadd : ∀ (m : Node) (i k : Nat), MacIndex i → Counts p MacIndex m (m.cntAdd p i k) := fun m i k hi => .cntAdd m k hi
  have hcount : Counts p MacIndex n (((n.cntAdd p 29 (f.bytes.length + 4)).cntAdd p 26 f.frags).cntAdd p 25 (b2n (decide (0 < f.frags)))) :=
    ((hadd _ 29 _ (by unfold MacIndex; omega)).trans (hadd _ 26 _ (by unfold MacIndex; omega))).trans (hadd _ 25 _ (by unfold MacIndex; omega))
  have hlen : (((n.cntAdd p 29 (f.bytes.length + 4)).cntAdd p 26 f.frags).cntAdd p 25 (b2n (decide (0 < f.frags)))).rd (F.PRT_CTRL_MAXLEN p) =
      n.rd (F.PRT_CTRL_MAXLEN p) := by
    refine hcount.rd _ fun hk => ?_
    have := hk.bounds
    simp only [F.PRT_CTRL_MAXLEN] at this
    omega
  have hshort : ¬ f.bytes.length + 4 < 64 := by omega
  have hfit : decide (n.rd (F.PRT_CTRL_MAXLEN p) < f.bytes.length + 4) = false := decide_eq_false (by omega)
  simp only [Node.rxMac, hsym, hsmd, hassy, hfcs, hshort, hlen, hfit, Bool.not_true, Bool.false_eq_true, if_false, true_and]
  exact hcount.trans (Node.rxCount_counts ..)

/-! ### Pauses (07 R241 to R243) -/

/-- A pause of a port touches its pause times, its PAUSED bits and nothing else. -/
structure Pauses (p : Nat) (m n : Node) : Prop where
  eq : ∃ r q, n = { m with regs := r, ports := q }
  rd : ∀ f : Fld, f.key ≠ (F.PRT_STATUS_PAUSED p).key → n.rd f = m.rd f
  port : ∀ q, q ≠ p → n.port q = m.port q

namespace Pauses

variable {p : Nat} {a b c : Node}

theorem refl (n : Node) : Pauses p n n := ⟨⟨_, _, rfl⟩, fun _ _ => rfl, fun _ _ => rfl⟩

theorem trans (h : Pauses p a b) (g : Pauses p b c) : Pauses p a c := by
  refine ⟨?_, fun f hf => (g.rd f hf).trans (h.rd f hf), fun q hq => (g.port q hq).trans (h.port q hq)⟩
  obtain ⟨_, _, hb⟩ := h.eq
  obtain ⟨_, _, hc⟩ := g.eq
  rw [hb] at hc
  exact ⟨_, _, hc⟩

theorem pauseClass (n : Node) (c q : Nat) : Pauses p n (n.pauseClass p c q) :=
  ⟨⟨_, _, rfl⟩, fun _ hf => Node.rd_wr_ne _ _ hf, fun _ hk => Node.port_setPort_ne n _ hk⟩

theorem foldl (l : List (Nat × Nat)) (n : Node) : Pauses p n (l.foldl (fun a x => a.pauseClass p x.1 x.2) n) := by
  induction l generalizing n with
  | nil => exact refl n
  | cons x l ih => exact (pauseClass n _ _).trans (ih _)

theorem mbps (h : Pauses p a b) : b.mbps p = a.mbps p := by
  rw [Node.mbps, h.rd _ (by simp only [F.PRT_STATUS_RATE, F.PRT_STATUS_PAUSED]; omega), Node.mbps]

/-- Pauses bear on no service level. -/
theorem sameLevelInputs (h : Pauses p a b) : SameLevelInputs b a := by
  obtain ⟨_, _, hb⟩ := h.eq
  refine ⟨by rw [hb], by rw [hb], by rw [hb], by rw [hb], by rw [hb], fun f hf => h.rd f ?_⟩
  have := levelKeys_lt _ hf
  simp only [F.PRT_STATUS_PAUSED]
  omega

end Pauses

theorem setBit_lt {v k i : Nat} (b : Bool) (hv : v < 2 ^ k) (hi : i < k) : setBit v i b < 2 ^ k := by
  refine Nat.lt_pow_two_of_testBit _ fun j hj => ?_
  rw [← bitOf_eq_testBit, bitOf_setBit, if_neg (by omega), bitOf_eq_testBit]
  exact Nat.testBit_lt_two_pow (lt_of_lt_of_le hv (Nat.pow_le_pow_right (by decide) hj))

/-- The PAUSED bits after the pause of one class. -/
theorem Node.pauseClass_paused (n : Node) (p : Nat) {c : Nat} (q : Nat) (hc : c < 8) (hp : n.rd (F.PRT_STATUS_PAUSED p) < 256) :
    (n.pauseClass p c q).rd (F.PRT_STATUS_PAUSED p) = setBit (n.rd (F.PRT_STATUS_PAUSED p)) c (q != 0) := by
  refine (Node.rd_wr_same _ _ _).trans ?_
  exact Nat.mod_eq_of_lt (setBit_lt (k := 8) _ hp hc)

/-- The length of a pause (07 R243). -/
def Node.pauseLen (n : Node) (p q : Nat) : Nat := if n.mbps p = 0 then 0 else q * 512 * 1000 * nsU / n.mbps p

theorem Node.pauseClass_time (n : Node) (p c q : Nat) :
    ((n.pauseClass p c q).port p).pauseT = FMap.put 0 (n.port p).pauseT c (n.pauseLen p q) := by
  simp only [Node.pauseClass, Node.port_wr, Node.port_setPort_same]
  rfl

/-- Every class of the list is paused for the same quanta, every other as it was. -/
theorem Node.pauses_each (p q : Nat) (l : List Nat) (hl : ∀ c ∈ l, c < 8) (n : Node) (hp : n.rd (F.PRT_STATUS_PAUSED p) < 256) (c : Nat) :
    let m := (l.map (fun c => (c, q))).foldl (fun a x => a.pauseClass p x.1 x.2) n
    bitOf (m.rd (F.PRT_STATUS_PAUSED p)) c = (if c ∈ l then q != 0 else bitOf (n.rd (F.PRT_STATUS_PAUSED p)) c) ∧
      (c ∈ l → FMap.get 0 (m.port p).pauseT c = n.pauseLen p q) ∧
      (c ∉ l → FMap.get 0 (m.port p).pauseT c = FMap.get 0 (n.port p).pauseT c) := by
  induction l generalizing n with
  | nil => exact ⟨rfl, fun h => absurd h List.not_mem_nil, fun _ => rfl⟩
  | cons d l ih =>
    have hd : d < 8 := hl d (List.mem_cons_self ..)
    have hpaused := n.pauseClass_paused p q hd hp
    have hlt : (n.pauseClass p d q).rd (F.PRT_STATUS_PAUSED p) < 256 := by
      rw [hpaused]
      exact setBit_lt (k := 8) _ hp hd
    have hlen : (n.pauseClass p d q).pauseLen p q = n.pauseLen p q := by
      rw [Node.pauseLen, (Pauses.pauseClass n d q).mbps, Node.pauseLen]
    obtain ⟨h1, h2, h3⟩ := ih (fun c hc => hl c (List.mem_cons_of_mem _ hc)) (n.pauseClass p d q) hlt
    refine ⟨?_, fun hc => ?_, fun hc => ?_⟩
    · refine h1.trans ?_
      rw [hpaused, bitOf_setBit]
      by_cases hcl : c ∈ l
      · simp [hcl]
      · by_cases hcd : c = d <;> simp [hcl, hcd]
    · by_cases hcl : c ∈ l
      · exact (h2 hcl).trans hlen
      · obtain rfl : c = d := (List.mem_cons.1 hc).resolve_right hcl
        refine (h3 hcl).trans ?_
        rw [Node.pauseClass_time, FMap.get_put_same]
    · obtain ⟨hcd, hcl⟩ := not_or.1 (fun h => hc (List.mem_cons.2 h))
      refine (h3 hcl).trans ?_
      rw [Node.pauseClass_time, FMap.get_put_ne _ _ _ _ hcd]

/-- The classes a PAUSE stops: all but the exempt ones (07 R241). -/
def pausedClasses (exempt : Bool) : List Nat := (List.range 8).filter (fun c => !(exempt && decide (6 ≤ c)))

theorem mem_pausedClasses {ex : Bool} {c : Nat} (hc : c < 8) : c ∈ pausedClasses ex ↔ (ex && decide (6 ≤ c)) = false := by
  cases ex <;> simp [pausedClasses, hc]

/-- A PAUSE pauses its classes, once counted. -/
theorem Node.pauseFrame_pause (n : Node) (p : Nat) (b : List Byte) :
    ∃ m, n.pauseFrame p b 1 = ((pausedClasses (n.on (F.PRT_CTRL_EXEMPT p))).map (fun c => (c, beAt b 16 2))).foldl
        (fun a x => a.pauseClass p x.1 x.2) m ∧
      Counts p (fun i => i = 5 ∨ i = 27) n m ∧ FMap.get 0 m.cnt (p * 64 + 5) = (FMap.get 0 n.cnt (p * 64 + 5) + 1) % 2 ^ 40 := by
  have hone : Counts p (fun i => i = 5 ∨ i = 27) n (n.cntAdd p 5 1) := .cntAdd n 1 (.inl rfl)
  have hex : (n.cntAdd p 5 1).on (F.PRT_CTRL_EXEMPT p) = n.on (F.PRT_CTRL_EXEMPT p) := by
    refine hone.on fun hk => ?_
    have := hk.bounds
    simp only [F.PRT_CTRL_EXEMPT] at this
    omega
  have hcnt := n.cntAdd_cnt_same p 5 1 (by decide)
  have hreqs : ∀ ex : Bool, (pauseReqs b 1).filter (fun x => !(ex && decide (6 ≤ x.1))) = (pausedClasses ex).map (fun c => (c, beAt b 16 2)) := by
    intro ex
    simp only [pauseReqs, if_true, List.filter_map, pausedClasses]
    rfl
  simp only [Node.pauseFrame, if_true, hex, hreqs]
  refine ⟨_, rfl, ?_⟩
  split
  · refine ⟨(hone.trans (.ignored _)).trans (.cntAdd _ 1 (.inr rfl)), ?_⟩
    exact (Node.cntAdd_cnt_ne _ _ _ _ (by omega)).trans hcnt
  · exact ⟨hone, hcnt⟩

/-! ### Flow control and low-power idle (06 R217; 07 R247, R248) -/

/-- Where nothing is due no PFC goes. -/
theorem Node.pfcUpd_none {n : Node} {p : Nat} (h : n.pfcWaits p = false) : n.pfcUpd p = n := by
  have hnone : ∀ c < 8, n.pfcDue p c = none := by
    intro c hc
    simp only [Node.pfcWaits, List.any_eq_false, List.mem_range] at h
    simpa using h c hc
  have hclass : ∀ c < 8, n.pfcClass p c = n := by
    intro c hc
    unfold Node.pfcClass
    split
    · rfl
    · simp only [hnone c hc]
  have hfold : ∀ l : List Nat, (∀ c ∈ l, c < 8) → l.foldl (fun a c => a.pfcClass p c) n = n := by
    intro l
    induction l with
    | nil => exact fun _ => rfl
    | cons c l ih =>
      intro hl
      rw [List.foldl_cons, hclass c (hl c (List.mem_cons_self ..))]
      exact ih fun d hd => hl d (List.mem_cons_of_mem _ hd)
  unfold Node.pfcUpd
  split
  · exact hfold _ fun c hc => List.mem_range.1 hc
  · rfl

/-- Flow control leaves what waits at a port. -/
theorem Node.pfcUpd_own (n : Node) (p q : Nat) : ((n.pfcUpd p).port q).own = (n.port q).own := by
  have hclass : ∀ (m : Node) (c : Nat), ((m.pfcClass p c).port q).own = (m.port q).own := by
    intro m c
    unfold Node.pfcClass
    split
    · rfl
    · split
      · rfl
      · by_cases h : q = p
        · subst h
          rw [Node.port_setPort_same]
        · rw [Node.port_setPort_ne _ _ h, Node.port_sendPfc]
  have hfold : ∀ (l : List Nat) (m : Node), ((l.foldl (fun a c => a.pfcClass p c) m).port q).own = (m.port q).own := by
    intro l
    induction l with
    | nil => exact fun _ => rfl
    | cons c l ih => exact fun m => (ih _).trans (hclass m c)
  unfold Node.pfcUpd
  split
  · exact hfold _ n
  · rfl

theorem Node.ownFlush_nil {n : Node} {p : Nat} (h : (n.port p).own = []) : n.ownFlush p = n := by
  simp only [Node.ownFlush, h, Node.ownGo]

/-- A frame that waits alone leaves once nothing holds the port back. -/
theorem Node.ownFlush_one {n : Node} {p : Nat} {b : List Byte} (h : (n.port p).own = [.bytes b]) (ht : (n.port p).tx = none)
    (hs : (n.port p).shift = none) (hl : n.on (F.PRT_STATUS_LPI_TX p) = false) :
    n.ownFlush p = ((n.setPort p { n.port p with own := [] }).emit (.frame p b)).txCount p b := by
  have hready : n.ownReady p (.bytes b) = true := by
    simp [Node.ownReady, Node.quiet, Node.beforeSilence, ht, hs, hl]
  simp only [Node.ownFlush, h, Node.ownGo, hready, if_true, Node.restamp, Node.ownNow]

/-- The wake ends with what waited: flow control first, then frames of the node's own. -/
theorem Node.lpiWake_eq {n : Node} {p : Nat} (hp : p < 20) (hl : n.on (F.PRT_STATUS_LPI_TX p) = true)
    (hw : n.portIdle p = false ∨ n.pfcWaits p = true) : n.lpiWake p = ((n.wr (F.PRT_STATUS_LPI_TX p) 0).pfcUpd p).ownFlush p := by
  have hgo : p < 20 ∧ n.on (F.PRT_STATUS_LPI_TX p) = true ∧ ((!n.portIdle p) = true ∨ n.pfcWaits p = true) :=
    ⟨hp, hl, hw.imp (fun h => by simp [h]) id⟩
  unfold Node.lpiWake
  rw [if_pos hgo]
  rfl

/-- The mark of low-power idle bears on no flow control. -/
theorem Node.pfcWaits_wr (n : Node) (f : Fld) (v p : Nat) : (n.wr f v).pfcWaits p = n.pfcWaits p := rfl

/-- The layout of a PFC frame (07 R236). -/
theorem Node.pfcFrame_layout (n : Node) (p : Nat) {c : Nat} (hc : c < 8) :
    let b := n.pfcFrame p c 0xFFFF
    b.length = 60 ∧ beAt b 0 6 = 0x0180C2000001 ∧ beAt b 12 2 = 0x8808 ∧ beAt b 14 2 = 0x0101 ∧ beAt b 16 2 = 2 ^ c ∧
      beAt b (18 + 2 * c) 2 = 0xFFFF := by
  obtain ⟨x₀, x₁, x₂, x₃, x₄, x₅, hmac⟩ : ∃ x₀ x₁ x₂ x₃ x₄ x₅, n.portMac p = [x₀, x₁, x₂, x₃, x₄, x₅] := ⟨_, _, _, _, _, _, rfl⟩
  simp only [Node.pfcFrame, hmac]
  interval_cases c <;> exact ⟨rfl, rfl, rfl, rfl, rfl, rfl⟩

/-- A PAUSE that arrives good: its classes, the count, and what stays. -/
theorem Node.pauseRx_pause {n : Node} {p : Nat} {f : WireFrame} (hp : p < 20) (hr : n.receives p = true) (hsym : f.symErr = false)
    (hsmd : f.smdErr = false) (hassy : f.assyErr = false) (hfcs : f.fcsOk = true) (hmin : 60 ≤ f.bytes.length)
    (hmax : f.bytes.length + 4 ≤ n.rd (F.PRT_CTRL_MAXLEN p)) (htype : beAt f.bytes 12 2 = 0x8808) (hop : beAt f.bytes 14 2 = 1) :
    ∃ m, n.pauseRx p f = ((pausedClasses (n.on (F.PRT_CTRL_EXEMPT p))).map (fun c => (c, beAt f.bytes 16 2))).foldl
        (fun a x => a.pauseClass p x.1 x.2) m ∧
      Counts p (fun i => MacIndex i ∨ i = 5 ∨ i = 27) n m ∧
      FMap.get 0 m.cnt (p * 64 + 5) = (FMap.get 0 n.cnt (p * 64 + 5) + 1) % 2 ^ 40 := by
  obtain ⟨hgood, hcount⟩ := Node.rxMac_good hsym hsmd hassy hfcs hmin hmax
  obtain ⟨m, hm, hc, hcnt⟩ := (n.rxMac p f).2.pauseFrame_pause p f.bytes
  have hpop : pauseOp f.bytes = some 1 := by simp [pauseOp, htype, hop]
  have hex : (n.rxMac p f).2.on (F.PRT_CTRL_EXEMPT p) = n.on (F.PRT_CTRL_EXEMPT p) := by
    refine hcount.on fun hk => ?_
    have := hk.bounds
    simp only [F.PRT_CTRL_EXEMPT] at this
    omega
  have hmac : n.rxMac p f = (.good f.bytes false, (n.rxMac p f).2) := Prod.ext hgood rfl
  refine ⟨m, ?_, ?_, hcnt.trans ?_⟩
  · rw [← hex, ← hm, Node.pauseRx, hmac]
    simp only [hp, hr, hpop, decide_true, Bool.and_self, Bool.not_true, Bool.false_eq_true, if_false]
  · exact (hcount.mono fun i hi => .inl hi).trans (hc.mono fun i hi => .inr hi)
  · rw [hcount.cnt _ fun i hi => ?_]
    unfold MacIndex at hi
    omega

/-! ### Recovery records (06 R209) -/

/-- A recovery record that times out takes any frame, and counts. -/
theorem Node.recoveryReset_eq {n : Node} {d : TabDef} {k : Nat} (hd : n.tab 4 = some d) (hh : d.hashed = false) (h4 : 4 ≤ d.n)
    (hok : n.entryOk d false k = true) :
    let base := tabAddr (d.base + d.n * k)
    n.recoveryReset k = { n with
      mem := wr64 (wr64 n.mem base (setBit (rd64 n.mem base) 47 true % 2 ^ 64)) (base + 24)
        ((bitsOf (rd64 n.mem (base + 24)) 63 32 * 2 ^ 32 + (bitsOf (rd64 n.mem (base + 24)) 31 16 + 1) % 2 ^ 16 * 2 ^ 16 +
          rd64 n.mem (base + 24) % 2 ^ 16) % 2 ^ 64) } := by
  have hnum : d.num = 4 := by simpa using List.find?_some hd
  have hin : k < d.entries := by
    simp only [Node.entryOk, Bool.and_eq_true, decide_eq_true_eq] at hok
    exact hok.1.1
  have hread : n.tabRead 4 k = some (n.entryData d false k) := by simp [Node.tabRead, hd, hok]
  have hdata : d.dataW false k = d.base + d.n * k := by simp [TabDef.dataW, hh, TabDef.view]
  have hword : ∀ j, j < 4 → n.tabW 4 k j = rd64 n.mem (tabAddr (d.base + d.n * k + j)) := by
    intro j hj
    have : j < d.n := by omega
    simp [Node.tabW, hread, Node.entryData, hnum, this, hdata, Node.word]
  have hlast : tabAddr (d.base + d.n * k + 3) = tabAddr (d.base + d.n * k) + 24 := by unfold tabAddr; omega
  have hsome : (n.tabRead 4 k).isNone = false := by simp [hread]
  have hhw : ∀ (m : Node) j v, j < d.n → m.tabs = n.tabs → m.tabHw 4 k j v = m.setWord (d.base + d.n * k + j) (v % 2 ^ 64) := by
    intro m j v hj hm
    have hmd : m.tab 4 = some d := by rw [Node.tab, hm]; exact hd
    simp only [Node.tabHw, hmd, if_pos (And.intro hj hin), hdata]
  simp only [Node.recoveryReset, hsome, Bool.false_eq_true, if_false, hword 0 (by decide), hword 3 (by decide)]
  rw [hhw n 0 _ (by omega) rfl, hhw (n.setWord _ _) 3 _ (by omega) rfl, hlast]
  rfl

/-- The words of the record after its reset. -/
theorem recoveryWords (m : List Host.Cell) (base : Nat) :
    let w := rd64 m (base + 24)
    let mem := wr64 (wr64 m base (setBit (rd64 m base) 47 true % 2 ^ 64)) (base + 24)
      ((bitsOf w 63 32 * 2 ^ 32 + (bitsOf w 31 16 + 1) % 2 ^ 16 * 2 ^ 16 + w % 2 ^ 16) % 2 ^ 64)
    (∀ b, b < 64 → bitOf (rd64 mem base) b = (bitOf (rd64 m base) b || b == 47)) ∧
      bitsOf (rd64 mem (base + 24)) 31 16 = (bitsOf w 31 16 + 1) % 2 ^ 16 ∧ bitsOf (rd64 mem (base + 24)) 63 32 = bitsOf w 63 32 ∧
      rd64 mem (base + 24) % 2 ^ 16 = w % 2 ^ 16 ∧
      ∀ a, a < base ∨ (base + 8 ≤ a ∧ a < base + 24) ∨ base + 32 ≤ a → memRead mem a = memRead m a := by
  intro w mem
  have hhigh : bitsOf w 63 32 < 2 ^ 32 := bitsOf_lt w 63 32
  have hlast : rd64 mem (base + 24) = bitsOf w 63 32 * 2 ^ 32 + (bitsOf w 31 16 + 1) % 2 ^ 16 * 2 ^ 16 + w % 2 ^ 16 := by
    refine (rd64_wr64_same _ _ _).trans ?_
    generalize bitsOf w 63 32 = h at hhigh
    omega
  refine ⟨fun b hb => ?_, ?_, ?_, ?_, fun a ha => ?_⟩
  · have : rd64 mem base = setBit (rd64 m base) 47 true % 2 ^ 64 := by
      rw [rd64_wr64_outside _ _ _ (by omega), rd64_wr64_same, Nat.mod_mod]
    rw [this, bitOf_setBit_mod _ hb]
    by_cases h : b = 47 <;> simp [h]
  · rw [hlast]
    generalize bitsOf w 63 32 = h at hhigh
    generalize bitsOf w 31 16 = k
    show _ / 2 ^ 16 % 2 ^ (31 + 1 - 16) = _
    omega
  · rw [hlast]
    generalize bitsOf w 63 32 = h at hhigh
    generalize bitsOf w 31 16 = k
    show _ / 2 ^ 32 % 2 ^ (63 + 1 - 32) = _
    omega
  · rw [hlast]
    generalize bitsOf w 63 32 = h at hhigh
    omega
  · rw [memRead_wr64_outside _ _ _ (by omega), memRead_wr64_outside _ _ _ (by omega)]

/-! ### The obligation -/

/-- Settles O40: what each event of a port leaves, by the lemma of its kind. -/
theorem portFlow : Obligations.PortFlow := by
  intro s p c k hp hc n pre tries
  have hready : pre = 1 → ¬ (20 ≤ p ∨ n.rd (F.PRT_STATUS_PREEMPT p) ≠ 1) := by
    rintro hpre (h | h)
    · omega
    · exact h hpre
  refine ⟨?_, ?_, ?_, ?_, ?_, ?_, ?_, ?_, ?_, ?_, ?_, ?_⟩
  · intro i hi hk
    exact ⟨Node.cntAdd_cnt_same n p i k (by omega), Node.cntAdd_delta_same n p i k (by omega),
      fun hbit => Node.cntAdd_half n p i k hi (by omega) hbit⟩
  · intro hfit f hr hfcs hsym hsmd hassy hmin hmax htype hop hpaused quanta exempt
    obtain ⟨m, hm, hcount, hcnt⟩ := Node.pauseRx_pause hp hr hsym hsmd hassy hfcs hmin hmax htype hop
    have hpauses := Pauses.foldl (p := p) ((pausedClasses (n.on (F.PRT_CTRL_EXEMPT p))).map (fun c => (c, quanta))) m
    have hmpaused : m.rd (F.PRT_STATUS_PAUSED p) = n.rd (F.PRT_STATUS_PAUSED p) := by
      refine hcount.rd _ fun hk => ?_
      have := hk.bounds
      simp only [F.PRT_STATUS_PAUSED] at this
      omega
    obtain ⟨hbits, htime, -⟩ := Node.pauses_each p quanta (pausedClasses (n.on (F.PRT_CTRL_EXEMPT p)))
      (fun c h => List.mem_range.1 (List.mem_filter.1 h).1) m (by rw [hmpaused]; exact hpaused) c
    obtain ⟨r₁, q₁, heq₁⟩ := hpauses.eq
    obtain ⟨r₂, c₂, d₂, heq₂⟩ := hcount.eq
    have heq : n.pauseRx p f = { n with regs := r₁, ports := q₁, cnt := c₂, delta := d₂ } := by rw [hm, heq₁, heq₂]
    refine Yields.of_calm (m := n.pauseRx p f) rfl (by rw [heq]) ?_ hfit fun t hf => ?_
    · have h1 := hpauses.sameLevelInputs
      have h2 := hcount.sameLevelInputs
      rw [hm]
      exact ⟨h1.mode.trans h2.mode, h1.failed.trans h2.failed, h1.loaded.trans h2.loaded, h1.settings.trans h2.settings,
        h1.hold.trans h2.hold, fun f hf => (h1.rd f hf).trans (h2.rd f hf)⟩
    · have hport : ∀ q, t.port q = (n.pauseRx p f).port q := fun q => by rw [Node.port, hf.ports, Node.port]
      have hmem : ∀ x : Bool, (c ∈ pausedClasses x) = ((x && decide (6 ≤ c)) = false) := fun x => propext (mem_pausedClasses hc)
      refine ⟨?_, fun hex hrate => ?_, ?_, by rw [hf.fab, heq], fun a => by rw [hf.mem, heq], fun q hq => ?_, by rw [hf.engs, heq]⟩
      · rw [hf.rd _ (not_followKey_mid (by simp only [F.PRT_STATUS_PAUSED]; omega) (by simp only [F.PRT_STATUS_PAUSED]; omega)), hm, hbits, hmpaused]
        simp only [hmem]
        cases h : exempt
        · rw [if_pos h, if_neg (by simp)]
        · rw [if_neg (fun hx => absurd (h.symm.trans hx) (by decide)), if_pos rfl]
      · rw [hport, hm, htime ((mem_pausedClasses hc).2 hex), Node.pauseLen, hcount.mbps, if_neg hrate]
        rfl
      · rw [hf.cnt]
        refine Eq.trans ?_ hcnt
        rw [hm, heq₁]
      · rw [hport, hm, hpauses.port q hq, hcount.port]
  · intro hpaused
    have hset : setBit (n.rd (F.PRT_STATUS_PAUSED p)) c false < 2 ^ 8 := setBit_lt _ hpaused hc
    refine ⟨setBit (n.rd (F.PRT_STATUS_PAUSED p)) c false, hset, fun b => bitOf_setBit_false _ _ _, Settles.of_to ?_⟩
    have hlen : (if n.mbps p = 0 then 0 else 0 * 512 * 1000 * nsU / n.mbps p) = 0 := by split <;> simp
    show s.to (if p < 20 ∧ c < 8 then n.pauseClass p c 0 else n) = _
    rw [if_pos ⟨hp, hc⟩, Node.pauseClass, hlen]
    rfl
  · intro hcan hr
    exact Settles.of_to (congrArg s.to (if_pos ⟨hcan, hr⟩))
  · intro hr hpre
    exact Settles.of_to (congrArg s.to (if_pos ⟨hp, hr, hpre⟩))
  · intro hpre htries
    exact Settles.of_to (congrArg s.to ((if_neg (hready hpre)).trans (if_pos htries)))
  · intro hpre htries
    exact Settles.of_to (congrArg s.to ((if_neg (hready hpre)).trans (if_neg (Nat.not_lt.2 htries))))
  · intro h4 h16 hlink hen hidle hw hg hl
    refine ⟨fun he => Settles.of_to (congrArg s.to (if_pos ⟨h4, h16, hlink, hen, he, hidle, congrArg not hw, hg, congrArg not hl⟩)), fun he => ?_⟩
    refine Settles.of_to (congrArg s.to (if_neg ?_))
    rintro ⟨-, -, -, -, h, -⟩
    rw [he] at h
    cases h
  · intro hl
    refine ⟨fun hown hidle hw => ?_, fun b hown htx hshift hw => ?_, fun hown hw => ?_⟩
    · refine Settles.of_to (congrArg s.to ((Node.lpiWake_eq hp hl (.inl hidle)).trans ?_))
      rw [Node.pfcUpd_none ((n.pfcWaits_wr (F.PRT_STATUS_LPI_TX p) 0 p).trans hw), Node.ownFlush_nil (n := n.wr _ _) hown]
    · have hidle : n.portIdle p = false := by simp [Node.portIdle, hown]
      refine Settles.of_to (congrArg s.to ((Node.lpiWake_eq hp hl (.inl hidle)).trans ?_))
      rw [Node.pfcUpd_none ((n.pfcWaits_wr (F.PRT_STATUS_LPI_TX p) 0 p).trans hw), Node.ownFlush_one (n := n.wr (F.PRT_STATUS_LPI_TX p) 0) (b := b) hown htx hshift]
      · rfl
      · simp [Node.on, Node.rd_wr_same]
    · refine Settles.of_to (congrArg s.to ((Node.lpiWake_eq hp hl (.inr hw)).trans (Node.ownFlush_nil ?_)))
      rw [Node.pfcUpd_own]
      exact hown
  · intro hcan hq hsent hcharge
    obtain ⟨h1, h2, h3, h4, h5, h6⟩ := n.pfcFrame_layout p hc
    refine ⟨n.pfcFrame p c 0xFFFF, h1, h2, h3, h4, h5, h6, Settles.of_to (congrArg s.to ((if_pos ⟨hp, hc, hsent, hcharge⟩).trans ?_))⟩
    exact if_pos (show (n.canTx p && !n.quiet p) = true by rw [hcan, hq]; rfl)
  · intro b hb hbank
    exact Settles.of_to (congrArg s.to (if_pos ⟨hb, hbank⟩))
  · intro d hd hh h4 hok base
    exact ⟨_, Settles.of_to (congrArg s.to (Node.recoveryReset_eq hd hh h4 hok)), recoveryWords n.mem base⟩

end Sys2Proof.Machine
end

section
/-! PROOF. The scheduler, the end of a transmission and timed launches (06 R213, R221; 07 R239; 09 R338, R339). -/

namespace Sys2Proof.Machine

open Sys2Proof

/-! ### What the egress edit reads -/

/-- `n` is `m` but for ports, counters, outputs, queues and registers besides the epoch and the position. -/
structure Dressed (m n : Node) : Prop where
  eq : ∃ r o p c d e l ds, n = { m with
    regs := r, out := o, ports := p, cnt := c, delta := d, fab := { m.fab with egress := e, launches := l, descs := ds } }
  epoch : n.epoch = m.epoch
  position : n.position = m.position

namespace Dressed

variable {m n : Node}

theorem tabW (h : Dressed m n) (t i j : Nat) : n.tabW t i j = m.tabW t i j := by
  obtain ⟨_, _, _, _, _, _, _, _, rfl⟩ := h.eq
  rfl

theorem frame (h : Dressed m n) (k : Nat) : n.frame k = m.frame k := by
  obtain ⟨_, _, _, _, _, _, _, _, rfl⟩ := h.eq
  rfl

theorem tabRead (h : Dressed m n) (t i : Nat) : n.tabRead t i = m.tabRead t i := by
  obtain ⟨_, _, _, _, _, _, _, _, rfl⟩ := h.eq
  rfl

theorem trainRead (h : Dressed m n) (t : Nat) (o : Bool) (i : Nat) : n.trainRead t o i = m.trainRead t o i := by
  obtain ⟨_, _, _, _, _, _, _, _, rfl⟩ := h.eq
  rfl

theorem trainFind (h : Dressed m n) (t : Nat) (o : Bool) (i : Nat) : n.trainFind t o i = m.trainFind t o i := by
  obtain ⟨_, _, _, _, _, _, _, _, rfl⟩ := h.eq
  rfl

theorem inaug (h : Dressed m n) : n.inaug = m.inaug := by
  obtain ⟨_, _, _, _, _, _, _, _, rfl⟩ := h.eq
  rfl

theorem ident (h : Dressed m n) : n.ident = m.ident := by
  obtain ⟨_, _, _, _, _, _, _, _, rfl⟩ := h.eq
  rfl

theorem isConsist (h : Dressed m n) (o : Bool) (a : Nat) : n.isConsist o a = m.isConsist o a := by
  simp only [Node.isConsist, Node.localPrefix, h.trainRead]

theorem graceAddr (h : Dressed m n) (a : Nat) : n.graceAddr a = m.graceAddr a := by
  have hpos : n.newPos = m.newPos := funext fun p => by simp only [Node.newPos, h.tabW]
  simp only [Node.graceAddr, hpos]

theorem localPrefix (h : Dressed m n) (o : Bool) : n.localPrefix o = m.localPrefix o := by
  simp only [Node.localPrefix, h.trainRead]

theorem portMac (h : Dressed m n) (p : Nat) : n.portMac p = m.portMac p := by
  simp only [Node.portMac, h.ident]

theorem trainEdit (h : Dressed m n) (b : List Byte) (p : Nat) (o : Bool) : n.trainEdit b p o = m.trainEdit b p o := by
  unfold Node.trainEdit
  simp only [h.graceAddr, h.position, h.isConsist, h.trainFind, h.trainRead, h.portMac, h.localPrefix]

theorem ract (h : Dressed m n) (s : Nat) : n.ract s = m.ract s := by
  simp only [Node.ract, h.tabW, h.tabRead]

theorem egressTags (h : Dressed m n) (f : Frame) (c : Copy) (p : Nat) : n.egressTags f c p = m.egressTags f c p := by
  unfold Node.egressTags
  simp only [h.tabW, h.ract]

theorem oldBank (h : Dressed m n) (s : Nat) : n.oldBank s = m.oldBank s := by
  have hgrace : n.inGrace = m.inGrace := by rw [Node.inGrace, h.inaug, Node.inGrace]
  simp only [Node.oldBank, Node.oldEpoch, hgrace, h.epoch, h.tabW]

/-- The edit reads tables, the epoch and the position alone. -/
theorem edit (h : Dressed m n) (c : Copy) (p : Nat) : n.edit c p = m.edit c p := by
  unfold Node.edit
  simp only [h.frame, h.tabW, h.egressTags, h.epoch, h.trainEdit, h.oldBank]

theorem refl (n : Node) : Dressed n n := ⟨⟨_, _, _, _, _, _, _, _, rfl⟩, rfl, rfl⟩

theorem trans {a b c : Node} (h : Dressed a b) (g : Dressed b c) : Dressed a c := by
  refine ⟨?_, g.epoch.trans h.epoch, g.position.trans h.position⟩
  obtain ⟨_, _, _, _, _, _, _, _, hb⟩ := h.eq
  obtain ⟨_, _, _, _, _, _, _, _, hc⟩ := g.eq
  rw [hb] at hc
  exact ⟨_, _, _, _, _, _, _, _, hc⟩

theorem setPort (n : Node) (p : Nat) (x : Port) : Dressed n (n.setPort p x) := ⟨⟨_, _, _, _, _, _, _, _, rfl⟩, rfl, rfl⟩

theorem setEgQueue (n : Node) (p c : Nat) (l : List Copy) : Dressed n (n.setEgQueue p c l) := ⟨⟨_, _, _, _, _, _, _, _, rfl⟩, rfl, rfl⟩

theorem freeLaunch (n : Node) (p : Nat) (c : Copy) : Dressed n (n.freeLaunch p c) := ⟨⟨_, _, _, _, _, _, _, _, rfl⟩, rfl, rfl⟩

theorem cntAdd (n : Node) {p : Nat} (hp : p < 20) (i k : Nat) : Dressed n (n.cntAdd p i k) := by
  obtain ⟨_, _, _, h⟩ := n.cntAdd_eq p i k
  refine ⟨⟨_, _, _, _, _, _, _, _, h⟩, ?_, ?_⟩
  · refine Node.cntAdd_rd n p i k ?_ ?_ <;> simp only [F.TOP_EPOCH_EPOCH, F.PRT_HALF_LO_HALF, F.PRT_HALF_HI_HALF] <;> omega
  · refine Node.cntAdd_rd n p i k ?_ ?_ <;> simp only [F.TOP_INAUG_POSITION, F.PRT_HALF_LO_HALF, F.PRT_HALF_HI_HALF] <;> omega

end Dressed

/-! ### A copy that starts (06 R211; 08 R287) -/

variable {n : Node} {p : Nat} {x : Copy}

/-- The port sends `x` as the bytes `b`, padded. -/
def Port.sending (pt : Port) (x : Copy) (b : List Byte) (now : Nat) : Port :=
  { pt with tx := some x, txBytes := b ++ zeros (60 - b.length), txAt := now, txDone := 0 }

/-- What a copy needs to start: an edit, a sound frame, a length the port may send, no descriptor, and no bar. -/
structure Node.Starts (n : Node) (p : Nat) (x : Copy) (b : List Byte) : Prop where
  edit : n.edit x p = .send b
  sound : (n.frame x.fid).bad = false
  fits : b.length + 4 ≤ n.rd (F.PRT_CTRL_MAXLEN p)
  plain : ∀ d ∈ n.fab.descs, d.fid ≠ x.fid
  unbarred : n.barred p = false ∨ topoFrame (n.frame x.fid).data = true

/-- A frame without a descriptor takes no timestamp. -/
theorem Node.takeStamp_plain {fid : Nat} (h : ∀ d ∈ n.fab.descs, d.fid ≠ fid) : n.takeStamp p fid = n := by
  have hnone : n.fab.descs.find? (fun d => d.fid == fid) = none := List.find?_eq_none.2 fun d hd => by simpa using h d hd
  simp only [Node.takeStamp, hnone]

theorem Node.markDesc_plain {fid : Nat} (h : ∀ d ∈ n.fab.descs, d.fid ≠ fid) (g : Desc → Desc) : n.markDesc fid g = n := by
  have hmap : n.fab.descs.map (fun d => if d.fid == fid then g d else d) = n.fab.descs := by
    refine (List.map_congr_left fun d hd => ?_).trans (List.map_id _)
    simp [h d hd]
  simp only [Node.markDesc, hmap]

/-- A copy that may start is sent. -/
theorem Node.sendCopy_starts {b : List Byte} (hp : p < 20) (h : n.Starts p x b) :
    n.sendCopy p x = n.setPort p ((n.port p).sending x b n.clock.cycles) := by
  have hbar : (n.barred p && !topoFrame (n.frame x.fid).data) = false := by
    rcases h.unbarred with hb | hb <;> simp [hb]
  have hlen : ¬ (p < 20 ∧ n.rd (F.PRT_CTRL_MAXLEN p) < b.length + 4) := by have := h.fits; omega
  have hstart : n.startCopy p x = n.setPort p ((n.port p).sending x b n.clock.cycles) := by
    simp only [Node.startCopy, h.sound, hbar, h.edit, if_neg hlen, if_pos hp, Bool.false_eq_true, if_false]
    rfl
  have hstamp : (n.setPort p ((n.port p).sending x b n.clock.cycles)).takeStamp p x.fid =
      n.setPort p ((n.port p).sending x b n.clock.cycles) := Node.takeStamp_plain h.plain
  simp only [Node.sendCopy, hstart, Node.port_setPort_same, Port.sending] at hstamp ⊢
  exact hstamp

/-! ### What giving up a copy leaves of the ports -/

theorem Node.returnCells_ports (n : Node) (l : List Nat) : (n.returnCells l).ports = n.ports := by
  induction l generalizing n with
  | nil => rfl
  | cons c l ih =>
    refine (ih (n.returnCell c)).trans ?_
    unfold Node.returnCell
    split
    · rfl
    · split <;> rfl

/-- A frame in progress stays in progress while flow control is sent. -/
theorem Node.pfcUpd_tx (n : Node) (p q : Nat) : ((n.pfcUpd p).port q).tx = (n.port q).tx := by
  obtain ⟨_, _, _, h⟩ := (Sends.pfcUpd n p).port q
  rw [h]

theorem Node.setPort_tx (n : Node) {p : Nat} {y : Port} (h : y.tx = (n.port p).tx) (q : Nat) : ((n.setPort p y).port q).tx = (n.port q).tx := by
  by_cases hq : q = p
  · rw [hq, Node.port_setPort_same, h]
  · rw [Node.port_setPort_ne _ _ hq]

theorem Node.descDone_tx (n : Node) (d : Desc) (q : Nat) : ((n.descDone d).port q).tx = (n.port q).tx := by
  have hstamp : ∀ m : Node, ((if d.stamp.isSome then m.setPort d.port { m.port d.port with tsHost := (m.port d.port).tsHost - 1 }
      else m).port q).tx = (m.port q).tx := by
    intro m
    split
    · refine m.setPort_tx ?_ q
      rfl
    · rfl
  have hmsi : ∀ (m : Node) (v : Nat), (m.msi v).port q = m.port q := by
    intro m v
    unfold Node.msi
    split <;> rfl
  unfold Node.descDone
  dsimp only
  split
  · rw [hmsi]
    exact hstamp _
  · exact hstamp _

theorem Node.frameDone_tx (n : Node) (fid q : Nat) : ((n.frameDone fid).port q).tx = (n.port q).tx := by
  unfold Node.frameDone
  split
  · rfl
  · exact Node.descDone_tx _ _ q

theorem Node.dropRef_tx (n : Node) (fid q : Nat) : ((n.dropRef fid).port q).tx = (n.port q).tx := by
  unfold Node.dropRef
  dsimp only
  split
  · rw [Node.frameDone_tx, Node.pfcUpd_tx, Node.port, Node.returnCells_ports]
    rfl
  · rfl

theorem Node.dropCopy_tx (n : Node) (c : Copy) (q : Nat) : ((n.dropCopy c).port q).tx = (n.port q).tx := by
  have hctx : ∀ (m : Node) (k : Nat), (m.ctxDiscard k).port q = m.port q := by
    intro m k
    obtain ⟨_, h⟩ := (MemOnly.ctxDiscard m k)
    rw [h]
    rfl
  unfold Node.dropCopy
  dsimp only
  rw [Node.dropRef_tx]
  split
  · rw [hctx]
    split <;> rfl
  · split <;> rfl

/-- What waits for a port barred meanwhile is given up (08 R287; log entry 132). -/
theorem Node.sendCopy_barred (ht : (n.port p).tx = none) (hb : n.barred p = true) (hf : topoFrame (n.frame x.fid).data = false)
    (hs : (n.frame x.fid).bad = false) : n.sendCopy p x = (n.disc 11).dropCopy x := by
  have hstart : n.startCopy p x = (n.disc 11).dropCopy x := by
    simp only [Node.startCopy, hs, hb, hf, Bool.not_false, Bool.and_self, Bool.false_eq_true, if_false, if_true]
  have hnone : (((n.disc 11).dropCopy x).port p).tx = none := (Node.dropCopy_tx _ _ _).trans ht
  simp only [Node.sendCopy, hstart, hnone, Option.isSome_none, Bool.false_eq_true, if_false]

/-! ### The scheduler (06 R213) -/

theorem Node.sendMark_none (h : (n.port p).mark = none) : n.sendMark p = n := by simp only [Node.sendMark, h]

theorem Node.relayStep_none (h : (n.port p).relayQ = []) : n.relayStep p = n := by simp only [Node.relayStep, h]

/-- While a frame that may not be cut is in progress nothing starts. -/
theorem Node.schedule_busy {y : Copy} (ht : (n.port p).tx = some y) (hr : (n.port p).relayQ = []) (hp : n.preemptable p = false) :
    n.schedule p = n := by
  have hpre : n.preempt p = n := if_neg (by simp [hp])
  unfold Node.schedule
  simp only [Node.relayStep_none hr, hpre, ht, hp, Bool.false_and, Bool.false_eq_true, if_false, if_true, ite_self, Option.isSome_some]

/-- The highest class that may start is picked, in the order of classes 7 and 6, and below them by strict priority. -/
theorem Node.pickClass_highest {c : Nat} (hc : c < 8) (hr : n.classReady p c = true) (hh : ∀ h, c < h → h < 8 → n.classReady p h = false)
    (hs : 6 ≤ c ∨ bitOf (n.tabW 5 p 0) 51 = false) : n.pickClass p = (some c, (n.port p).deficit) := by
  have hno := fun h h1 h2 => hh h h1 h2
  by_cases h6 : 6 ≤ c
  · have hfind : [7, 6].find? (fun c => n.classReady p c) = some c := by
      obtain rfl | rfl : c = 7 ∨ c = 6 := by omega
      · simp [hr]
      · simp [hr, hno 7 (by decide) (by decide)]
    simp only [Node.pickClass, hfind]
  · have hnone : [7, 6].find? (fun c => n.classReady p c) = none := by
      simp [hno 7 (by omega) (by decide), hno 6 (by omega) (by decide)]
    have hbit : bitOf (n.tabW 5 p 0) 51 = false := hs.resolve_left h6
    have hfind : [5, 4, 3, 2, 1, 0].find? (fun c => n.classReady p c) = some c := by
      have hless : ∀ h, c < h → h < 6 → n.classReady p h = false := fun h h1 h2 => hno h h1 (by omega)
      interval_cases c <;> simp [hr, hless]
    simp only [Node.pickClass, hnone, hbit, Bool.false_eq_true, if_false, hfind]

theorem Port.with_tx_none {pt : Port} (h : pt.tx = none) : { pt with tx := none } = pt := by
  cases pt
  cases h
  rfl

/-- An idle port where nothing of its own waits takes the head of the class picked. -/
theorem Node.schedule_idle {c : Nat} {rest : List Copy} (ht : (n.port p).tx = none) (hm : (n.port p).mark = none)
    (hr : (n.port p).relayQ = []) (ho : (n.port p).own = []) (hb : n.txBlocked p = false)
    (hpick : n.pickClass p = (some c, (n.port p).deficit)) (hq : n.egQueue p c = x :: rest) :
    n.schedule p = ((n.setPort p (n.port p)).setEgQueue p c rest).sendCopy p x := by
  have hpre : n.preempt p = n := if_neg (by simp [Node.preemptable, ht])
  unfold Node.schedule
  simp only [hb, Node.relayStep_none hr, hpre, ht, Bool.false_eq_true, if_false, ite_self, Option.isSome_none, Node.sendMark_none hm,
    Node.ownFlush_nil ho, hpick, hq]
  exact congrArg (fun y => ((n.setPort p y).setEgQueue p c rest).sendCopy p x) (Port.with_tx_none ht)

/-! ### A frame in progress is cut (07 R239) -/

/-- `m` is `n` but for the frame in progress at `p`, which is suspended, and counters of the port. -/
structure Node.CutTo (p : Nat) (n m : Node) : Prop where
  dressed : Dressed n m
  rd : ∀ f : Fld, ¬ CountKey p f.key → m.rd f = n.rd f
  port : m.port p = { n.port p with tx := none, txBytes := [], txDone := 0, susp := (n.port p).tx, suspBytes := (n.port p).txBytes,
                                    suspDone := (n.port p).txDone + n.sentBytes p }
  fab : m.fab = n.fab
  count : FMap.get 0 m.cnt (p * 64 + 49) = (FMap.get 0 n.cnt (p * 64 + 49) + 1) % 2 ^ 40
  cuts : FMap.get 0 m.cnt (p * 64 + 50) = (FMap.get 0 n.cnt (p * 64 + 50) + 1) % 2 ^ 40

/-- A preemptable frame of which a fragment may be cut (07 R239). -/
theorem Node.preemptable_of {y : Copy} (ht : (n.port p).tx = some y) (hcls : y.cls < 6) (hon : n.rd (F.PRT_STATUS_PREEMPT p) = 2)
    (hs : (n.port p).susp = none) (hfrag : 64 * (n.rd (F.PRT_CTRL_FRAG p) + 1) ≤ n.sentBytes p) (hleft : 64 ≤ n.bytesLeft p) :
    n.preemptable p = true := by
  simp [Node.preemptable, Node.preemptOn, ht, hcls, hon, hs, hfrag, hleft]

theorem Node.preempt_cuts (hp : p < 20) (h : n.preemptable p = true) : Node.CutTo p n (n.preempt p) := by
  have heq : n.preempt p = (n.suspend p).cntAdd p 50 1 := if_pos h
  have hone := Counts.cntAdd (p := p) (I := fun _ => True) (n.setPort p { n.port p with
    tx := none, txBytes := [], txDone := 0, susp := (n.port p).tx, suspBytes := (n.port p).txBytes,
    suspDone := (n.port p).txDone + n.sentBytes p }) (i := 49) 1 trivial
  have htwo := Counts.cntAdd (p := p) (I := fun _ => True) (n.suspend p) (i := 50) 1 trivial
  rw [heq]
  refine ⟨((Dressed.setPort n p _).trans (.cntAdd _ hp 49 1)).trans (.cntAdd _ hp 50 1), fun f hf => ?_, ?_, ?_, ?_, ?_⟩
  · exact (htwo.rd f hf).trans (hone.rd f hf)
  · rw [Node.port_cntAdd, Node.suspend, Node.port_cntAdd, Node.port_setPort_same]
  · obtain ⟨_, _, _, h2⟩ := htwo.eq
    obtain ⟨_, _, _, h1⟩ := hone.eq
    rw [h2]
    show (n.suspend p).fab = n.fab
    unfold Node.suspend
    rw [h1]
    rfl
  · rw [Node.cntAdd_cnt_ne _ _ _ _ (by omega)]
    exact Node.cntAdd_cnt_same _ _ _ _ (by decide)
  · rw [Node.cntAdd_cnt_same _ _ _ _ (by decide), show FMap.get 0 (n.suspend p).cnt (p * 64 + 50) = FMap.get 0 n.cnt (p * 64 + 50) from Node.cntAdd_cnt_ne _ _ _ _ (by omega)]

namespace Node.CutTo

variable {m : Node}

theorem egQueue (h : CutTo p n m) (q c : Nat) : m.egQueue q c = n.egQueue q c := by
  rw [Node.egQueue, h.fab, Node.egQueue]

theorem clock (h : CutTo p n m) : m.clock = n.clock := by
  obtain ⟨_, _, _, _, _, _, _, _, heq⟩ := h.dressed.eq
  rw [heq]

theorem mbps (h : CutTo p n m) : m.mbps p = n.mbps p := by
  rw [Node.mbps, h.rd, Node.mbps]
  intro hk
  have := hk.bounds
  simp only [F.PRT_STATUS_RATE] at this
  omega

theorem wireTime (h : CutTo p n m) (k : Nat) : m.wireTime p k = n.wireTime p k := by
  simp only [Node.wireTime, h.mbps]

theorem paused (h : CutTo p n m) (c : Nat) : m.paused p c = n.paused p c := by
  rw [Node.paused, h.rd, Node.paused]
  intro hk
  have := hk.bounds
  simp only [F.PRT_STATUS_PAUSED] at this
  omega

theorem copyLen (h : CutTo p n m) (c : Copy) : m.copyLen p c = n.copyLen p c := by
  simp only [Node.copyLen, h.dressed.frame, h.dressed.egressTags]

theorem gateEntry (h : CutTo p n m) (i : Nat) : m.gateEntry p i = n.gateEntry p i := by
  simp only [Node.gateEntry, h.dressed.tabW]

theorem gateEnd (h : CutTo p n m) (k i : Nat) : m.gateEnd p k i = n.gateEnd p k i := by
  induction k generalizing i with
  | zero => simp only [Node.gateEnd, h.gateEntry]
  | succ k ih => simp only [Node.gateEnd, h.gateEntry, ih]

theorem gateNow (h : CutTo p n m) : m.gateNow p = n.gateNow p := by
  have hcycle : m.gateCycle p = n.gateCycle p := by simp only [Node.gateCycle, h.dressed.tabW]
  simp only [Node.gateNow, hcycle, h.clock, h.gateEntry]

theorem gateOpen (h : CutTo p n m) (c dur : Nat) : m.gateOpen p c dur = n.gateOpen p c dur := by
  unfold Node.gateOpen
  rw [h.gateNow]
  simp only [h.gateEntry, h.gateEnd]

theorem txConst (h : CutTo p n m) (hr : n.mbps p ≠ 0) : m.txConst p = n.txConst p := by
  have hrate : m.rd (F.PRT_STATUS_RATE p) = n.rd (F.PRT_STATUS_RATE p) := by
    refine h.rd _ fun hk => ?_
    have := hk.bounds
    simp only [F.PRT_STATUS_RATE] at this
    omega
  have hsmall : n.rd (F.PRT_STATUS_RATE p) < 6 := by
    by_contra hge
    exact hr (List.getD_eq_default _ _ (Nat.not_lt.1 hge))
  unfold Node.txConst
  rw [hrate, h.rd]
  intro hk
  have := hk.bounds
  simp only [F.TIM_ASYM_TX_CONST] at this
  omega

/-- A launch that leaves a class its time still does: a suspended frame holds back more launches, not fewer. -/
theorem leavesTime (h : CutTo p n m) (hs : (n.port p).susp = none) (hr : n.mbps p ≠ 0) {dur : Nat} {c : Copy}
    (hl : n.leavesTime p dur c = true) : m.leavesTime p dur c = true := by
  have hdue : m.isDue p c = n.isDue p c := by simp only [Node.isDue, h.clock, h.txConst hr]
  have hwaits : n.launchWaits p c = true → m.launchWaits p c = true := by
    simp only [Node.launchWaits, hs, h.paused, Option.isSome_none, Bool.and_false, Bool.or_false]
    intro hp
    rw [hp, Bool.true_or]
  unfold Node.leavesTime at hl ⊢
  rw [hdue]
  split at hl
  · next hd => rw [if_pos hd]; exact hwaits hl
  · next hd => rw [if_neg hd, h.clock, h.txConst hr]; exact hl

/-- An express class that may start before the cut may start after it. -/
theorem classReady (h : CutTo p n m) (hs : (n.port p).susp = none) (hr : n.mbps p ≠ 0) {c : Nat} (hc : 6 ≤ c)
    (hready : n.classReady p c = true) : m.classReady p c = true := by
  have hlow : decide (c < 6) = false := decide_eq_false (by omega)
  have hshift : (m.port p).shift = (n.port p).shift := by rw [h.port]
  have hbefore : ∀ dur, m.beforeSilence p dur = n.beforeSilence p dur := by
    intro dur
    unfold Node.beforeSilence
    rw [hshift, h.clock]
  unfold Node.classReady at hready ⊢
  rw [h.egQueue]
  cases hq : n.egQueue p c with
  | nil => simp [hq] at hready
  | cons x rest =>
    simp only [hq, hlow, Bool.false_and, Bool.not_false, Bool.and_true, Bool.and_eq_true, Node.clearAhead, List.all_eq_true] at hready ⊢
    obtain ⟨⟨hpaused, hgate⟩, hahead, hsilence⟩ := hready
    rw [h.paused, h.gateOpen, h.wireTime, h.copyLen, h.fab, hbefore]
    exact ⟨⟨hpaused, hgate⟩, fun y hy => h.leavesTime hs hr (hahead y hy), hsilence⟩

theorem starts {b : List Byte} (h : CutTo p n m) (hs : n.Starts p x b) : m.Starts p x b := by
  have hmax : m.rd (F.PRT_CTRL_MAXLEN p) = n.rd (F.PRT_CTRL_MAXLEN p) := by
    refine h.rd _ fun hk => ?_
    have := hk.bounds
    simp only [F.PRT_CTRL_MAXLEN] at this
    omega
  have hbar : m.barred p = n.barred p := by
    rw [Node.barred, h.rd, Node.barred]
    intro hk
    have := hk.bounds
    simp only [F.TOP_INAUG_BARRED] at this
    omega
  exact ⟨(h.dressed.edit x p).trans hs.edit, by rw [h.dressed.frame]; exact hs.sound, by rw [hmax]; exact hs.fits,
    by rw [h.fab]; exact hs.plain, by rw [hbar, h.dressed.frame]; exact hs.unbarred⟩

end Node.CutTo

/-- What sending starts from on a port whose queue has given its head. -/
theorem Node.starts_of_queue {b : List Byte} (h : n.Starts p x b) (pt : Port) (c : Nat) (l : List Copy) :
    ((n.setPort p pt).setEgQueue p c l).Starts p x b :=
  ⟨(((Dressed.setPort n p pt).trans (.setEgQueue _ p c l)).edit x p).trans h.edit, h.sound, h.fits, h.plain, h.unbarred⟩

/-- The head of the class picked starts. -/
theorem Node.schedule_starts {c : Nat} {rest : List Copy} {b : List Byte} (hp : p < 20) (h : n.Starts p x b) (ht : (n.port p).tx = none)
    (hm : (n.port p).mark = none) (hr : (n.port p).relayQ = []) (ho : (n.port p).own = []) (hb : n.txBlocked p = false)
    (hpick : n.pickClass p = (some c, (n.port p).deficit)) (hq : n.egQueue p c = x :: rest) :
    n.schedule p = (n.setEgQueue p c rest).setPort p ((n.port p).sending x b n.clock.cycles) := by
  rw [Node.schedule_idle ht hm hr ho hb hpick hq, Node.sendCopy_starts hp (Node.starts_of_queue h _ c rest)]
  have hport : ((n.setPort p (n.port p)).setEgQueue p c rest).port p = n.port p := Node.port_setPort_same n p _
  rw [hport]
  exact congrArg (fun k : Node => k.setEgQueue p c rest) (Node.setPort_setPort n p (n.port p) ((n.port p).sending x b n.clock.cycles))

/-- An express frame starts over a preemptable one. -/
theorem Node.schedule_cuts {c : Nat} {rest : List Copy} {b : List Byte} (hp : p < 20) (h : n.Starts p x b) (hpre : n.preemptable p = true)
    (hrate : n.mbps p ≠ 0) (hs : (n.port p).susp = none) (hm : (n.port p).mark = none) (hr : (n.port p).relayQ = []) (ho : (n.port p).own = [])
    (hb : n.txBlocked p = false) (h6 : 6 ≤ c) (hc : c < 8) (hready : n.classReady p c = true) (hq : n.egQueue p c = x :: rest)
    (hempty : ∀ h, c < h → h < 8 → n.egQueue p h = []) :
    let m := n.preempt p
    n.schedule p = (m.setEgQueue p c rest).setPort p ((m.port p).sending x b m.clock.cycles) := by
  intro m
  have hcut : Node.CutTo p n m := Node.preempt_cuts hp hpre
  have htx : (m.port p).tx = none := by rw [hcut.port]
  have hmark : (m.port p).mark = none := by rw [hcut.port]; exact hm
  have hown : (m.port p).own = [] := by rw [hcut.port]; exact ho
  have hin : n.cutsIn p = true := by
    obtain rfl | rfl : c = 6 ∨ c = 7 := by omega
    · simp [Node.cutsIn, hready]
    · simp [Node.cutsIn, hready]
  have hpick : m.pickClass p = (some c, (m.port p).deficit) := by
    refine Node.pickClass_highest hc (hcut.classReady hs hrate h6 hready) (fun h h1 h2 => ?_) (.inl h6)
    simp only [Node.classReady, hcut.egQueue, hempty h h1 h2]
  have hqm : m.egQueue p c = x :: rest := (hcut.egQueue p c).trans hq
  have hidle : n.schedule p = ((m.setPort p (m.port p)).setEgQueue p c rest).sendCopy p x := by
    unfold Node.schedule
    simp only [hb, Node.relayStep_none hr, hin, Bool.false_eq_true, if_false, if_true]
    show (if (m.port p).tx.isSome = true then m else _) = _
    rw [htx, Node.sendMark_none hmark, Node.ownFlush_nil hown, hpick]
    simp only [hqm, Option.isSome_none, Bool.false_eq_true, if_false]
  rw [hidle, Node.sendCopy_starts hp (Node.starts_of_queue (hcut.starts h) _ c rest)]
  have hport : ((m.setPort p (m.port p)).setEgQueue p c rest).port p = m.port p := Node.port_setPort_same m p _
  rw [hport]
  exact congrArg (fun k : Node => k.setEgQueue p c rest) (Node.setPort_setPort m p (m.port p) ((m.port p).sending x b m.clock.cycles))

/-! ### The end of a transmission (06 R221) -/

/-- What is sent is counted at its port. -/
theorem Counts.txCount (n : Node) (p : Nat) (b : List Byte) : Counts p (fun _ => True) n (n.txCount p b) :=
  (((((Counts.cntAdd n _ trivial).trans (.cntAdd _ _ trivial)).trans (.cntAdd _ _ trivial)).trans (.cntAdd _ _ trivial)).trans
    (.cntAdd _ _ trivial)).trans (.cntAdd _ _ trivial)

theorem Node.returnCells_out (n : Node) (l : List Nat) : (n.returnCells l).out = n.out := by
  induction l generalizing n with
  | nil => rfl
  | cons c l ih =>
    refine (ih (n.returnCell c)).trans ?_
    unfold Node.returnCell
    split
    · rfl
    · split <;> rfl

/-- What `m` has sent, `n` has sent. -/
def Node.Grows (m n : Node) : Prop := ∃ l, n.out = l ++ m.out

theorem Node.Grows.trans {a b c : Node} (h : Node.Grows a b) (g : Node.Grows b c) : Node.Grows a c := by
  obtain ⟨l, hl⟩ := h
  obtain ⟨k, hk⟩ := g
  exact ⟨k ++ l, by rw [hk, hl, List.append_assoc]⟩

theorem Node.Grows.mem {m n : Node} (h : Node.Grows m n) {o : Output} (ho : o ∈ m.out) : o ∈ n.out := by
  obtain ⟨l, hl⟩ := h
  rw [hl]
  exact List.mem_append_right l ho

theorem Node.Grows.emit (n : Node) (o : Output) : Node.Grows n (n.emit o) := ⟨[o], rfl⟩

theorem Node.Grows.of_out {m n : Node} (h : n.out = m.out) : Node.Grows m n := ⟨[], h⟩

theorem Node.Grows.msi (n : Node) (v : Nat) : Node.Grows n (n.msi v) := by
  unfold Node.msi
  split
  · exact .emit n _
  · exact .of_out rfl

theorem Node.Grows.descDone (n : Node) (d : Desc) : Node.Grows n (n.descDone d) := by
  have hstamp : ∀ m : Node, Node.Grows m (if d.stamp.isSome then
      m.setPort d.port { m.port d.port with tsHost := (m.port d.port).tsHost - 1 } else m) := by
    intro m
    split <;> exact .of_out rfl
  unfold Node.descDone
  dsimp only
  split
  · exact (((Node.Grows.emit n _).trans (.emit _ _)).trans (hstamp _)).trans (.msi _ _)
  · exact ((Node.Grows.emit n _).trans (.emit _ _)).trans (hstamp _)

theorem Node.Grows.frameDone (n : Node) (fid : Nat) : Node.Grows n (n.frameDone fid) := by
  unfold Node.frameDone
  split
  · exact .of_out rfl
  · exact (Node.Grows.of_out rfl).trans (.descDone _ _)

/-- What has gone stays gone while a hold ends. -/
theorem Node.Grows.dropRef (n : Node) (fid : Nat) : Node.Grows n (n.dropRef fid) := by
  unfold Node.dropRef
  dsimp only
  split
  · exact ((Node.Grows.of_out (Node.returnCells_out (n.setFrame fid {}) (n.frame fid).cells)).trans (Sends.pfcUpd _ _).out).trans (.frameDone _ _)
  · exact .of_out rfl

/-- The end of a hold touches one stored frame. -/
theorem Node.dropRef_frame_ne (n : Node) {fid k : Nat} (h : k ≠ fid) : (n.dropRef fid).frame k = n.frame k := by
  unfold Node.dropRef
  dsimp only
  split
  · rw [((Tells.pfcUpd _ _).trans (Tells.frameDone _ fid)).frame, Node.returnCells_frame, Node.frame_setFrame_ne _ _ h]
  · exact Node.frame_setFrame_ne _ _ h

theorem Node.moveFrame_still (fid : Nat) (h : n.fab.moving = false) : n.moveFrame fid = n := by
  simp only [Node.moveFrame, h, Bool.false_and, Bool.false_eq_true, if_false]

/-- The node once the copy in progress is on the wire, before its hold ends. -/
def Node.leftWire (n : Node) (p : Nat) : Node :=
  (((n.cntAdd p 49 (b2n (decide ((n.port p).txDone ≠ 0)))).setPort p { n.port p with tx := none, txBytes := [], txDone := 0 }).emit
    (.frame p (n.port p).txBytes)).txCount p (n.port p).txBytes

theorem Node.leftWire_port (n : Node) (p : Nat) : (n.leftWire p).port p = { n.port p with tx := none, txBytes := [], txDone := 0 } := by
  unfold Node.leftWire
  rw [Node.port_txCount, Node.port_emit, Node.port_setPort_same]

/-- The end of a transmission counts at the port and touches the port. -/
theorem Node.leftWire_frame (n : Node) (p : Nat) : (∃ r o q c d, n.leftWire p = { n with regs := r, out := o, ports := q, cnt := c, delta := d }) ∧
    (∀ f : Fld, ¬ CountKey p f.key → (n.leftWire p).rd f = n.rd f) ∧ Output.frame p (n.port p).txBytes ∈ (n.leftWire p).out := by
  have hone := Counts.cntAdd (p := p) (I := fun _ => True) n (i := 49) (b2n (decide ((n.port p).txDone ≠ 0))) trivial
  have htwo := Counts.txCount (((n.cntAdd p 49 (b2n (decide ((n.port p).txDone ≠ 0)))).setPort p
    { n.port p with tx := none, txBytes := [], txDone := 0 }).emit (.frame p (n.port p).txBytes)) p (n.port p).txBytes
  obtain ⟨_, _, _, h1⟩ := hone.eq
  obtain ⟨_, _, _, h2⟩ := htwo.eq
  refine ⟨?_, fun f hf => ?_, ?_⟩
  · unfold Node.leftWire
    rw [h2, h1]
    exact ⟨_, _, _, _, _, rfl⟩
  · exact (htwo.rd f hf).trans (hone.rd f hf)
  · unfold Node.leftWire
    rw [h2]
    exact List.mem_cons_self ..

theorem Node.leftWire_fab (n : Node) (p : Nat) : (n.leftWire p).fab = n.fab := by
  obtain ⟨⟨_, _, _, _, _, heq⟩, -, -⟩ := n.leftWire_frame p
  rw [heq]

/-- A copy that has left ends its hold; nothing of its own waits and no bank is drained. -/
theorem Node.copyLeft_eq (hp : p < 20) (ht : (n.port p).tx = some x) (hm : (n.port p).mark = none) (ho : (n.port p).own = [])
    (hd : ∀ d ∈ n.fab.descs, d.fid ≠ x.fid) (hmove : n.fab.moving = false) :
    n.copyLeft p = ((n.leftWire p).delivered x.fid x.stream).dropRef x.fid := by
  have hport := n.leftWire_port p
  have hfab := n.leftWire_fab p
  have hstill : (((n.leftWire p).delivered x.fid x.stream).dropRef x.fid).fab.moving = false := by
    obtain ⟨_, _, _, _, _, _, _, _, _, _, heq⟩ :=
      ((Hands.delivered (n.leftWire p) x.fid x.stream).trans (Hands.dropRef _ x.fid)).eq
    rw [heq]
    show (n.leftWire p).fab.moving = false
    rw [hfab, hmove]
  have hflush : ((n.leftWire p).sendMark p).ownFlush p = n.leftWire p := by
    rw [Node.sendMark_none (by rw [hport]; exact hm), Node.ownFlush_nil (by rw [hport]; exact ho)]
  have hmark : ∀ g, (n.leftWire p).markDesc x.fid g = n.leftWire p := fun g => Node.markDesc_plain (by rw [hfab]; exact hd) g
  unfold Node.copyLeft
  simp only [ht, if_pos hp, Node.port_cntAdd]
  show (((((n.leftWire p).sendMark p).ownFlush p).markDesc x.fid _).delivered x.fid x.stream |>.dropRef x.fid).moveFrame x.fid = _
  rw [hflush, hmark, Node.moveFrame_still _ hstill]

/-! ### Timed launches (09 R338, R339) -/

/-- The launch time has passed by more than the window. -/
def Node.isLate (n : Node) (p t : Nat) : Prop := ((n.rd (F.TIM_LAUNCHCFG_LATE_WIN p) * nsU : Nat) : Int) < n.clock.now + n.txConst p - (t : Nat)

/-- The launch that is due, on an idle port. -/
structure Node.LaunchGoes (n : Node) (p : Nat) (x : Copy) (t : Nat) : Prop where
  due : dueLaunch ((FMap.get [] n.fab.launches p).filter (fun y => n.isDue p y && !n.launchWaits p y)) = some x
  time : x.launch = some t
  free : n.txBlocked p = false
  before : n.beforeSilence p (n.wireTime p (n.copyLen p x)) = true
  idle : (n.port p).tx = none
  mark : (n.port p).mark = none
  plain : ∀ d ∈ n.fab.descs, d.fid ≠ x.fid

/-- A launch within its window starts. -/
theorem Node.launchDue_intime {t : Nat} (h : n.LaunchGoes p x t) (hl : ¬ n.isLate p t) : n.launchDue p = (n.freeLaunch p x).sendCopy p x := by
  have hgo : ¬ (n.txBlocked p = true ∨ (!n.beforeSilence p (n.wireTime p (n.copyLen p x))) = true) := by simp [h.free, h.before]
  have hpre : n.preempt p = n := if_neg (by simp [Node.preemptable, h.idle])
  have hlate : ¬ ((n.rd (F.TIM_LAUNCHCFG_LATE_WIN p) * nsU : Nat) : Int) < n.clock.now + n.txConst p - (t : Nat) := hl
  simp only [Node.launchDue, h.due, if_neg hgo, hpre, ite_self, h.idle, Option.isSome_none, Bool.false_eq_true, if_false,
    Node.sendMark_none h.mark, h.time, Option.getD_some, decide_eq_false hlate, false_and]

/-- A late one is counted, and sent or dropped as its class says. -/
theorem Node.launchDue_late {t : Nat} (hp : p < 20) (h : n.LaunchGoes p x t) (hl : n.isLate p t) :
    n.launchDue p = if bitOf (n.rd (F.TIM_LAUNCHCFG_LATE_SEND p)) x.cls then ((n.freeLaunch p x).cntAdd p 52 1).sendCopy p x
      else ((n.freeLaunch p x).cntAdd p 52 1).dropCopy x := by
  have hgo : ¬ (n.txBlocked p = true ∨ (!n.beforeSilence p (n.wireTime p (n.copyLen p x))) = true) := by simp [h.free, h.before]
  have hpre : n.preempt p = n := if_neg (by simp [Node.preemptable, h.idle])
  have hlate : ((n.rd (F.TIM_LAUNCHCFG_LATE_WIN p) * nsU : Nat) : Int) < n.clock.now + n.txConst p - (t : Nat) := hl
  have hmark : ∀ g, ((n.freeLaunch p x).cntAdd p 52 1).markDesc x.fid g = (n.freeLaunch p x).cntAdd p 52 1 := by
    intro g
    obtain ⟨_, _, _, heq⟩ := (n.freeLaunch p x).cntAdd_eq p 52 1
    refine Node.markDesc_plain ?_ g
    rw [heq]
    exact h.plain
  have hsend : ((n.freeLaunch p x).cntAdd p 52 1).rd (F.TIM_LAUNCHCFG_LATE_SEND p) = n.rd (F.TIM_LAUNCHCFG_LATE_SEND p) := by
    refine Node.cntAdd_rd _ p 52 1 ?_ ?_ <;> simp only [F.TIM_LAUNCHCFG_LATE_SEND, F.PRT_HALF_LO_HALF, F.PRT_HALF_HI_HALF] <;> omega
  simp only [Node.launchDue, h.due, if_neg hgo, hpre, ite_self, h.idle, Option.isSome_none, Bool.false_eq_true, if_false,
    Node.sendMark_none h.mark, h.time, Option.getD_some, decide_eq_true hlate, if_true, hmark, hsend, true_and]
  cases bitOf (n.rd (F.TIM_LAUNCHCFG_LATE_SEND p)) x.cls <;> rfl

/-- A copy that is no longer held for launch may start as before. -/
theorem Node.starts_of_launch {b : List Byte} (h : n.Starts p x b) (y : Copy) : (n.freeLaunch p y).Starts p x b :=
  ⟨((Dressed.freeLaunch n p y).edit x p).trans h.edit, h.sound, h.fits, h.plain, h.unbarred⟩

theorem Node.starts_of_count {b : List Byte} (hp : p < 20) (h : n.Starts p x b) (i k : Nat) : (n.cntAdd p i k).Starts p x b := by
  have hd := Dressed.cntAdd n hp i k
  obtain ⟨_, _, _, heq⟩ := n.cntAdd_eq p i k
  have hmax : (n.cntAdd p i k).rd (F.PRT_CTRL_MAXLEN p) = n.rd (F.PRT_CTRL_MAXLEN p) := by
    refine Node.cntAdd_rd _ p i k ?_ ?_ <;> simp only [F.PRT_CTRL_MAXLEN, F.PRT_HALF_LO_HALF, F.PRT_HALF_HI_HALF] <;> omega
  have hbar : (n.cntAdd p i k).barred p = n.barred p := by
    rw [Node.barred, Node.cntAdd_rd, Node.barred] <;> simp only [F.TOP_INAUG_BARRED, F.PRT_HALF_LO_HALF, F.PRT_HALF_HI_HALF] <;> omega
  exact ⟨(hd.edit x p).trans h.edit, by rw [hd.frame]; exact h.sound, by rw [hmax]; exact h.fits, by rw [heq]; exact h.plain,
    by rw [hbar, hd.frame]; exact h.unbarred⟩

/-! ### The obligation -/

/-- Settles O41: what the scheduler, the end of a copy and a due launch leave, by the lemma of each case. -/
theorem egressAndLaunch : Obligations.EgressAndLaunch := by
  intro s p c x b hp n pt padded starts sending
  have hsends : sends p = true := by simp [sends, hp]
  have hsched : exec (.egressSchedule p) s = s.to (n.schedule p) := congrArg s.to (if_pos hsends)
  have hstarts : starts → n.Starts p x b := fun ⟨h1, h2, h3, h4, h5⟩ => ⟨h1, h2, h3, h4, h5⟩
  refine ⟨?_, ?_, ?_, ?_⟩
  · intro y ht hr hpre
    exact Settles.of_to (hsched.trans (congrArg s.to (Node.schedule_busy ht hr hpre)))
  · intro rest hm hr ho hc hb hs hq hready hhigher hstrict
    have hpick := Node.pickClass_highest hc hready hhigher hstrict
    refine ⟨fun ht hbar htopo hbad => ?_, fun hst ht => ?_, fun y hst ht h6 hempty hcls hon hfrag hleft hfit => ?_⟩
    · refine Settles.of_to (hsched.trans (congrArg s.to ?_))
      rw [Node.schedule_idle ht hm hr ho hb hpick hq]
      exact Node.sendCopy_barred (n := (n.setPort p pt).setEgQueue p c rest) ((congrArg Port.tx (Node.port_setPort_same n p pt)).trans ht)
        hbar htopo hbad
    · exact Settles.of_to (hsched.trans (congrArg s.to (Node.schedule_starts hp (hstarts hst) ht hm hr ho hb hpick hq)))
    · have hpre : n.preemptable p = true := Node.preemptable_of ht hcls hon hs hfrag hleft
      have hrate : n.mbps p ≠ 0 := by
        intro hz
        have : n.sentBytes p = 0 := by simp [Node.sentBytes, Node.sentIn, hz]
        omega
      have heq := Node.schedule_cuts hp (hstarts hst) hpre hrate hs hm hr ho hb h6 hc hready hq hempty
      have hcut := Node.preempt_cuts hp hpre
      obtain ⟨_, _, _, _, _, _, _, _, hd⟩ := hcut.dressed.eq
      refine Yields.of_calm (m := n.schedule p) hsched (by rw [heq, hd]; rfl) ?_ hfit fun t hf => ?_
      · rw [heq]
        refine ⟨by rw [hd]; rfl, by rw [hd]; rfl, by rw [hd]; rfl, by rw [hd]; rfl, by rw [hd]; rfl, fun f hkey => hcut.rd f fun hk => ?_⟩
        have := levelKeys_lt _ hkey
        have := hk.bounds
        omega
      · have hport : t.port p = ((n.preempt p).port p).sending x b (n.preempt p).clock.cycles := by
          rw [Node.port, hf.ports, heq]
          exact Node.port_setPort_same _ p _
        refine ⟨by rw [hport]; rfl, by rw [hport]; rfl, by rw [hport, hcut.port]; exact ht, by rw [hport, hcut.port]; rfl,
          by rw [hport, hcut.port]; rfl, ?_, ?_, ?_, fun a => ?_⟩
        · rw [Node.egQueue, hf.fab, heq]
          exact FMap.get_put_same ..
        · rw [hf.cnt, heq]
          exact hcut.count
        · rw [hf.cnt, heq]
          exact hcut.cuts
        · rw [hf.mem, heq, hd]
          rfl
  · intro ht hm ho hmove hd left
    have hleft : left = (n.leftWire p).delivered x.fid x.stream := rfl
    have hrefs : (left.frame x.fid).refs = (n.frame x.fid).refs := by
      rw [hleft, ((n.leftWire p).delivered_frame x.fid x.stream).1, Node.frame, n.leftWire_fab p]
      rfl
    have hexec : exec (.copyTransmitted p) s = s.to (left.dropRef x.fid) :=
      congrArg s.to ((if_pos hsends).trans (Node.copyLeft_eq hp ht hm ho hd hmove))
    refine ⟨fun h2 => Settles.of_to ?_, fun h1 hfit => ?_⟩
    · rw [hexec, Node.dropRef_more (by omega), hrefs]
    · obtain ⟨⟨_, _, _, _, _, hwire⟩, hrd, hout⟩ := n.leftWire_frame p
      have hdel := Hands.delivered (n.leftWire p) x.fid x.stream
      have hdrop := hdel.trans (Hands.dropRef left x.fid)
      obtain ⟨_, _, _, _, _, _, _, _, _, _, heq⟩ := hdrop.eq
      obtain ⟨hrefs', hcells, -, -, hbank, hstate⟩ := (n.leftWire p).delivered_frame x.fid x.stream
      obtain ⟨hframe, -, hback⟩ := Node.dropRef_last (n := left) (fid := x.fid) (by rw [hrefs]; exact h1)
      have hfab := n.leftWire_fab p
      have hports : left.ports = (n.leftWire p).ports := by
        rw [hleft]
        unfold Node.delivered
        split <;> rfl
      have hlevel := hdrop.sameLevelInputs not_levelKey_of_portKey
      refine Yields.of_calm hexec (by rw [heq, hwire]) ⟨hlevel.mode.trans (by rw [hwire]), hlevel.failed.trans (by rw [hwire]),
        hlevel.loaded.trans (by rw [hwire]), hlevel.settings.trans (by rw [hwire]), hlevel.hold.trans (by rw [hwire]),
        fun f hkey => (hlevel.rd f hkey).trans (hrd f fun hk => ?_)⟩ hfit fun t hf => ⟨?_, ?_, ?_, fun g hg => ?_, fun k hk hon => ?_, fun a => ?_⟩
      · have := levelKeys_lt _ hkey
        have := hk.bounds
        omega
      · rw [Node.port, hf.ports]
        refine (Node.dropRef_tx left x.fid p).trans ?_
        rw [Node.port, hports]
        exact congrArg Port.tx (n.leftWire_port p)
      · have hmem : Output.frame p pt.txBytes ∈ left.out := by
          have : left.out = (n.leftWire p).out := by
            rw [hleft]
            unfold Node.delivered
            split <;> rfl
          rw [this]
          exact hout
        obtain ⟨l, hl⟩ := hf.out
        rw [hl]
        exact List.mem_append_right l ((Node.Grows.dropRef left x.fid).mem hmem)
      · rw [Node.frame, hf.fab]
        exact hframe
      · rw [Node.frame, hf.fab]
        refine (Node.dropRef_frame_ne left hg).trans ?_
        have hdelivered : left.frame g = (n.leftWire p).frame g := by
          rw [hleft]
          unfold Node.delivered
          split
          · rfl
          · exact Node.frame_setFrame_ne _ _ hg
        rw [hdelivered, Node.frame, hfab]
        rfl
      · have hon' : left.rd (F.FAB_BANK_STATE k) = 1 := by
          refine (hstate k).trans ((hrd _ fun hkey => ?_).trans hon)
          have := hkey.bounds
          simp only [F.FAB_BANK_STATE] at this
          omega
        obtain ⟨hret, hfree⟩ := hback k hon'
        have hb : left.bank k = n.bank k := (hbank k).trans (by rw [Node.bank, hfab, Node.bank])
        have hc : (left.frame x.fid).cells = (n.frame x.fid).cells := hcells.trans (by rw [Node.frame, hfab, Node.frame])
        have ht : t.bank k = (left.dropRef x.fid).bank k := by rw [Node.bank, hf.fab, Node.bank]
        rw [ht]
        exact ⟨hfree.trans (by rw [hb]), hret.trans (by rw [hb, hc])⟩
      · rw [hf.mem, heq, hwire]
  · intro t hdue hlaunch hb hbefore ht hm hd rest window after
    have hgo : n.LaunchGoes p x t := ⟨hdue, hlaunch, hb, hbefore, ht, hm, hd⟩
    have hexec : exec (.launchDue p) s = s.to (n.launchDue p) := congrArg s.to (if_pos hp)
    refine ⟨fun hle hst => Settles.of_to ?_, fun hlt => ⟨fun hbit hst => Settles.of_to ?_, fun hbit => Settles.of_to ?_⟩⟩
    · rw [hexec, Node.launchDue_intime hgo (Int.not_lt.2 hle), Node.sendCopy_starts hp (Node.starts_of_launch (hstarts hst) x)]
      rfl
    · rw [hexec, Node.launchDue_late hp hgo hlt, if_pos hbit,
        Node.sendCopy_starts hp (Node.starts_of_count hp (Node.starts_of_launch (hstarts hst) x) 52 1), Node.port_cntAdd]
      obtain ⟨_, _, _, heq⟩ := (n.freeLaunch p x).cntAdd_eq p 52 1
      have hclock : ((n.freeLaunch p x).cntAdd p 52 1).clock = n.clock := by rw [heq]; rfl
      rw [hclock]
      rfl
    · rw [hexec, Node.launchDue_late hp hgo hlt, if_neg (by rw [hbit]; decide)]
      rfl

end Sys2Proof.Machine
end

section
/-! PROOF. CAN channels (10 R350 to R367, R375), and the cells a stored entry or frame takes (06 R222). -/

namespace Sys2Proof.Machine

open Sys2Proof

/-! ### Cells taken (06 R222) -/

/-- The free cells are those of the banks in service. -/
theorem Node.freeCells_congr {m n : Node} (hs : SameBanks m n) (hb : ∀ b, n.bank b = m.bank b) : n.freeCells = m.freeCells := by
  have hserv : n.serviceBanks = m.serviceBanks := by
    unfold Node.serviceBanks
    refine List.filter_congr fun b _ => ?_
    rw [hs b]
  simp only [Node.freeCells, hserv, hb]

theorem Node.serviceBanks_nodup (n : Node) : n.serviceBanks.Nodup := List.nodup_range.filter _

/-- One cell fewer in one bank of a list of banks. -/
theorem sum_free_pred {l : List Nat} (hl : l.Nodup) {f g : Nat → Nat} {b : Nat} (hb : b ∈ l) (hf : 0 < f b) (hg : g b = f b - 1)
    (hne : ∀ k, k ≠ b → g k = f k) : (l.map g).sum = (l.map f).sum - 1 ∧ 0 < (l.map f).sum := by
  induction l with
  | nil => cases hb
  | cons k l ih =>
    obtain ⟨hk, hl'⟩ := List.nodup_cons.1 hl
    simp only [List.map_cons, List.sum_cons]
    rcases List.mem_cons.1 hb with rfl | hin
    · have hrest : l.map g = l.map f := List.map_congr_left fun x hx => hne x fun he => hk (he ▸ hx)
      rw [hrest, hg]
      omega
    · obtain ⟨h1, h2⟩ := ih hl' hin
      have hkb : k ≠ b := fun he => hk (he ▸ hin)
      rw [h1, hne k hkb]
      omega

/-- The node once a cell of bank `b` has been taken. -/
def Node.cellTaken (n : Node) (b : Nat) : Node :=
  Node.setBank { n with freeN := n.freeN + 1 } b { n.bank b with free := (n.bank b).free - 1 }

theorem Node.cellTaken_freeCells {n : Node} {b : Nat} (hb : b ∈ n.serviceBanks) (hf : 0 < (n.bank b).free) :
    (n.cellTaken b).freeCells + 1 = n.freeCells := by
  obtain ⟨h1, h2⟩ := sum_free_pred n.serviceBanks_nodup (f := fun k => (n.bank k).free) (g := fun k => ((n.cellTaken b).bank k).free) hb hf
    (by simp [Node.cellTaken]) (fun k hk => by rw [Node.cellTaken, Node.bank_setBank_ne _ _ hk]; rfl)
  exact (congrArg (· + 1) h1).trans (Nat.succ_pred_eq_of_pos h2)

/-- A cell is taken where one is free. -/
theorem Node.takeCell_of_free {n : Node} (h : 0 < n.freeCells) :
    ∃ b ∈ n.serviceBanks, 0 < (n.bank b).free ∧ n.takeCell = some (b, n.cellTaken b) := by
  have hex : ∃ b ∈ n.serviceBanks, 0 < (n.bank b).free := by
    by_contra hno
    have hzero : n.freeCells = 0 := by
      refine List.sum_eq_zero fun x hx => ?_
      obtain ⟨b, hb, rfl⟩ := List.mem_map.1 hx
      by_contra hne
      exact hno ⟨b, hb, Nat.pos_of_ne_zero hne⟩
    omega
  obtain ⟨b₀, hb₀, hfree₀⟩ := hex
  have hmem : b₀ ∈ n.serviceBanks.filter (fun b => decide (0 < (n.bank b).free)) := List.mem_filter.2 ⟨hb₀, decide_eq_true hfree₀⟩
  generalize hl : n.serviceBanks.filter (fun b => decide (0 < (n.bank b).free)) = l at hmem
  have hin : l.getD (Config.freeNat n.freeN % l.length) 0 ∈ l := by
    have hpos := List.length_pos_of_mem hmem
    rw [List.getD_eq_getElem _ _ (Nat.mod_lt _ hpos)]
    exact List.getElem_mem _
  have hne : l.isEmpty = false := List.isEmpty_eq_false_iff.2 (List.ne_nil_of_mem hmem)
  have hboth := hin
  rw [← hl] at hboth
  obtain ⟨hserv, hfree⟩ := List.mem_filter.1 hboth
  rw [hl] at hserv hfree
  refine ⟨_, hserv, of_decide_eq_true hfree, ?_⟩
  simp only [Node.takeCell, hl, hne, Bool.false_eq_true, if_false]
  rfl

/-- Where enough cells are free all that are asked for are taken. -/
theorem Node.takeCells_length {k : Nat} {n : Node} (h : k ≤ n.freeCells) :
    (Node.takeCells k n).1.length = k ∧ (Node.takeCells k n).2.freeCells + k = n.freeCells := by
  induction k generalizing n with
  | zero => exact ⟨rfl, rfl⟩
  | succ k ih =>
    obtain ⟨b, hb, hpos, htake⟩ := Node.takeCell_of_free (n := n) (by omega)
    have hfree := Node.cellTaken_freeCells hb hpos
    obtain ⟨h1, h2⟩ := ih (n := n.cellTaken b) (by omega)
    simp only [Node.takeCells, htake, List.length_cons, h1, true_and]
    omega

/-! ### Records (13 R463, R467) -/

/-- A fault stages one record at most. -/
theorem Node.fault_staged (n : Node) (a b c : Nat) : (n.fault a b c).log.staged.length ≤ n.log.staged.length + 1 := by
  have hmsi : ∀ (m : Node) (v : Nat), (m.msi v).log = m.log := by
    intro m v
    unfold Node.msi
    split <;> rfl
  unfold Node.fault
  dsimp only
  split
  · simp
  · split
    · simp
    · rw [hmsi]
      simp

/-- A partner violation counts, and records where it is the first. -/
theorem Node.pviol_logs (n : Node) (k a : Nat) : Logs n (n.pviol k a) := by
  unfold Node.pviol
  dsimp only
  split
  · exact (Logs.wr n _ _).trans (Logs.fault _ _ _ _)
  · exact Logs.wr n _ _

theorem Node.pviol_rd (n : Node) (k a : Nat) {f : Fld} (h1 : f.key ≠ (F.HLT_PVIOL_COUNT k).key) (h2 : f.key ≠ F.MGT_FAULT_SOURCE.key) :
    (n.pviol k a).rd f = n.rd f := by
  unfold Node.pviol
  dsimp only
  split
  · exact (Node.fault_rd _ _ _ _ _ h2).trans (Node.rd_inc_ne n h1)
  · exact Node.rd_inc_ne n h1

theorem Node.pviol_staged (n : Node) (k a : Nat) : (n.pviol k a).log.staged.length ≤ n.log.staged.length + 1 := by
  unfold Node.pviol
  dsimp only
  split
  · exact Node.fault_staged _ _ _ _
  · exact Nat.le_succ _

/-! ### What the events of a channel touch -/

/-- The field belongs to the field-bus blocks, to the partner violations of CAN, or to the staged fault sources. -/
def CanKey (k : Nat) : Prop :=
  32 * 0x10700000 ≤ k ∨ k = (F.HLT_PVIOL_COUNT 17).key ∨ k = (F.HLT_PVIOL_COUNT 18).key ∨ k = F.MGT_FAULT_SOURCE.key

theorem not_canKey_of_level : ∀ k ∈ levelKeys, ¬ CanKey k := by
  have h : ∀ k ∈ levelKeys, k < 32 * 0x10700000 ∧ k ≠ (F.HLT_PVIOL_COUNT 17).key ∧ k ≠ (F.HLT_PVIOL_COUNT 18).key ∧
      k ≠ F.MGT_FAULT_SOURCE.key := by decide
  intro k hk hc
  obtain ⟨h1, h2, h3, h4⟩ := h k hk
  unfold CanKey at hc
  omega

/-- `n` is `m` but for channels, cells, records, outputs and the registers of `CanKey`. -/
structure CanTold (m n : Node) : Prop where
  eq : ∃ r c l o b d k, n = { m with
    regs := r, chans := c, log := l, out := o, fab := { m.fab with banks := b, drainCells := d }, freeN := k }
  rd : ∀ f : Fld, ¬ CanKey f.key → n.rd f = m.rd f

namespace CanTold

variable {a b c : Node}

theorem refl (n : Node) : CanTold n n := ⟨⟨_, _, _, _, _, _, _, rfl⟩, fun _ _ => rfl⟩

theorem trans (h : CanTold a b) (g : CanTold b c) : CanTold a c := by
  refine ⟨?_, fun f hf => (g.rd f hf).trans (h.rd f hf)⟩
  obtain ⟨_, _, _, _, _, _, _, hb⟩ := h.eq
  obtain ⟨_, _, _, _, _, _, _, hc⟩ := g.eq
  rw [hb] at hc
  exact ⟨_, _, _, _, _, _, _, hc⟩

theorem ite {p : Prop} [Decidable p] (hb : CanTold a b) (hc : CanTold a c) : CanTold a (if p then b else c) := by
  split
  · exact hb
  · exact hc

theorem foldl {α : Type} {g : Node → α → Node} (h : ∀ n x, CanTold n (g n x)) (l : List α) (n : Node) : CanTold n (l.foldl g n) := by
  induction l generalizing n with
  | nil => exact refl n
  | cons x l ih => exact (h n x).trans (ih _)

theorem wr (n : Node) {f : Fld} (v : Nat) (h : CanKey f.key) : CanTold n (n.wr f v) :=
  ⟨⟨_, _, _, _, _, _, _, rfl⟩, fun _ hg => Node.rd_wr_ne n v fun e => hg (e ▸ h)⟩

theorem field (n : Node) {f : Fld} (v : Nat) (h : 32 * 0x10700000 ≤ f.key) : CanTold n (n.wr f v) := wr n v (.inl h)

theorem setChan (n : Node) (k : Nat) (x : Chan) : CanTold n (n.setChan k x) := ⟨⟨_, _, _, _, _, _, _, rfl⟩, fun _ _ => rfl⟩

theorem emit (n : Node) (o : Output) : CanTold n (n.emit o) := ⟨⟨_, _, _, _, _, _, _, rfl⟩, fun _ _ => rfl⟩

theorem takesFree (n : Node) (k : Nat) : CanTold n { n with freeN := k } := ⟨⟨_, _, _, _, _, _, _, rfl⟩, fun _ _ => rfl⟩

theorem fault (n : Node) (x y z : Nat) : CanTold n (n.fault x y z) := by
  obtain ⟨_, _, _, h⟩ := Logs.fault n x y z
  exact ⟨⟨_, _, _, _, _, _, _, h⟩, fun f hf => Node.fault_rd _ _ _ _ _ fun he => hf (.inr (.inr (.inr he)))⟩

theorem pviol (n : Node) {k : Nat} (x : Nat) (hk : k = 17 ∨ k = 18) : CanTold n (n.pviol k x) := by
  obtain ⟨_, _, _, h⟩ := n.pviol_logs k x
  refine ⟨⟨_, _, _, _, _, _, _, h⟩, fun f hf => Node.pviol_rd n k x (fun he => hf ?_) fun he => hf (.inr (.inr (.inr he)))⟩
  rcases hk with rfl | rfl
  · exact .inr (.inl he)
  · exact .inr (.inr (.inl he))

theorem returnCells (n : Node) (l : List Nat) : CanTold n (n.returnCells l) := by
  refine foldl (fun n k => ?_) l n
  unfold Node.returnCell
  refine ite ⟨⟨_, _, _, _, _, _, _, rfl⟩, fun _ _ => rfl⟩ (ite ⟨⟨_, _, _, _, _, _, _, rfl⟩, fun _ _ => rfl⟩ (refl n))

theorem takeCells (k : Nat) (n : Node) : CanTold n (Node.takeCells k n).2 := by
  obtain ⟨_, _, h⟩ := Node.takeCells_keeps k n
  rw [h]
  exact ⟨⟨_, _, _, _, _, _, _, rfl⟩, fun _ _ => rfl⟩

theorem sameLevelInputs (h : CanTold a b) : SameLevelInputs b a := by
  obtain ⟨_, _, _, _, _, _, _, hb⟩ := h.eq
  exact ⟨by rw [hb], by rw [hb], by rw [hb], by rw [hb], by rw [hb], fun f hf => h.rd f (not_canKey_of_level _ hf)⟩

end CanTold

/-- An event of a channel keeps the level, and what follows its node holds of the node left. -/
theorem Yields.of_can {c : Instr} {s : State} {m : Node} {P : Node → Prop} (he : exec c s = s.to m) (hc : CanTold s.node m) (hf : s.node.fits)
    (hp : ∀ t, Follows m t → P t) : Yields c s P := by
  refine Yields.of_calm he ?_ hc.sameLevelInputs hf hp
  obtain ⟨_, _, _, _, _, _, _, hm⟩ := hc.eq
  rw [hm]

theorem Node.setChan_setChan (n : Node) (k : Nat) (x y : Chan) : (n.setChan k x).setChan k y = n.setChan k y := by
  simp only [Node.setChan, FMap.put_put]

/-! ### Reception (10 R350, R351, R357, R358) -/

variable {n : Node} {ch : Nat}

theorem Node.inc_eq (n : Node) (f : Fld) : n.inc f = n.wr f (min (n.rd f + 1) (2 ^ f.w - 1)) := rfl

/-- A correct frame lowers REC, or brings it back below 128. -/
theorem Node.recGood_low (h : n.rd (F.CAN_STATUS_REC ch) < 128) : n.recGood ch = n.wr (F.CAN_STATUS_REC ch) (n.rd (F.CAN_STATUS_REC ch) - 1) :=
  if_neg (Nat.not_le.2 h)

theorem Node.recGood_high (h : 128 ≤ n.rd (F.CAN_STATUS_REC ch)) :
    n.recGood ch = Node.wr { n with freeN := n.freeN + 1 } (F.CAN_STATUS_REC ch) (119 + Config.freeNat n.freeN % 9) := if_pos h

/-- What the channel does not take part in leaves it. -/
theorem Node.canReceive_not {f : CanFrame} (h : n.canOn ch = false ∨ n.on (F.CAN_CTRL_LOOP ch) = true ∨ n.canFormat ch f = false) :
    n.canReceive ch f = n := by
  refine if_pos ?_
  rcases h with h | h | h <;> simp [h]

theorem Node.canReceive_takes {f : CanFrame} (h1 : n.canOn ch = true) (h2 : n.on (F.CAN_CTRL_LOOP ch) = false) (h3 : n.canFormat ch f = true) :
    n.canReceive ch f = ((n.canJoined ch).recGood ch).canStore ch f := by
  refine if_neg ?_
  simp [h1, h2, h3]

/-- A frame with SEC is counted and not stored. -/
theorem Node.canStore_sec {f : CanFrame} (h1 : f.xlf = true) (h2 : f.sec = true) :
    n.canStore ch f = (n.inc (F.CAN_CNT_COUNT ch 8)).pviol 18 ch := if_pos ⟨h1, h2⟩

theorem Node.canStore_none {f : CanFrame} (hs : (f.xlf && f.sec) = false) (h : n.chanStores ch = false ∨ n.canMatch ch f = false) :
    n.canStore ch f = n := by
  have hsec : ¬ (f.xlf = true ∧ f.sec = true) := by simpa using hs
  refine (if_neg hsec).trans (if_pos ?_)
  rcases h with h | h <;> simp [h]

theorem Node.canStore_takes {f : CanFrame} (hs : (f.xlf && f.sec) = false) (h1 : n.chanStores ch = true) (h2 : n.canMatch ch f = true) :
    n.canStore ch f = (n.storeEntry ch { fr := f, data := f.data }).2.inc (F.CAN_CNT_COUNT ch (n.storeEntry ch { fr := f, data := f.data }).1) := by
  have hsec : ¬ (f.xlf = true ∧ f.sec = true) := by simpa using hs
  exact (if_neg hsec).trans (if_neg (by simp [h1, h2]))

/-- Without cells nothing is stored. -/
theorem Node.storeEntry_nobuf {x : FbEntry} (h : n.freeCells < n.reserve + cellsFor x.data.length) : n.storeEntry ch x = (5, n) := if_pos h

/-- Without a free entry the cells go back. -/
theorem Node.storeEntry_full {x : FbEntry} (h : n.reserve + cellsFor x.data.length ≤ n.freeCells) (hu : 256 ≤ (n.chan ch).inUse) :
    n.storeEntry ch x = (4, (Node.takeCells (cellsFor x.data.length) n).2.returnCells (Node.takeCells (cellsFor x.data.length) n).1) := by
  refine (if_neg (Nat.not_lt.2 h)).trans (if_pos ?_)
  rw [Node.takeCells_chan]
  exact hu

/-- Otherwise the entry waits behind the others with the cells its length needs. -/
theorem Node.storeEntry_stored {x : FbEntry} (h : n.reserve + cellsFor x.data.length ≤ n.freeCells) (hu : (n.chan ch).inUse < 256) :
    n.storeEntry ch x = (1, (Node.takeCells (cellsFor x.data.length) n).2.setChan ch { n.chan ch with
      rx := (n.chan ch).rx ++ [{ x with id := (n.chan ch).nextId, epoch := n.epoch, cells := (Node.takeCells (cellsFor x.data.length) n).1 }],
      nextId := (n.chan ch).nextId + 1 }) := by
  refine (if_neg (Nat.not_lt.2 h)).trans ?_
  obtain ⟨b, k, hk⟩ := Node.takeCells_keeps (cellsFor x.data.length) n
  have hepoch : (Node.takeCells (cellsFor x.data.length) n).2.epoch = n.epoch := by rw [hk]; rfl
  have hroom : ¬ 256 ≤ (n.chan ch).inUse := Nat.not_le.2 hu
  simp only [Node.takeCells_chan, hepoch, if_neg hroom]

theorem Node.storeEntry_told (n : Node) (ch : Nat) (x : FbEntry) : CanTold n (n.storeEntry ch x).2 := by
  by_cases h : n.freeCells < n.reserve + cellsFor x.data.length
  · rw [Node.storeEntry_nobuf h]
    exact .refl n
  · by_cases hu : 256 ≤ (n.chan ch).inUse
    · rw [Node.storeEntry_full (Nat.not_lt.1 h) hu]
      exact (CanTold.takeCells _ n).trans (.returnCells _ _)
    · rw [Node.storeEntry_stored (Nat.not_lt.1 h) (Nat.not_le.1 hu)]
      exact (CanTold.takeCells _ n).trans (.setChan _ _ _)

theorem canCount_key (ch j : Nat) : 32 * 0x10700000 ≤ (F.CAN_CNT_COUNT ch j).key := by simp only [F.CAN_CNT_COUNT]; omega
theorem canRec_key (ch : Nat) : 32 * 0x10700000 ≤ (F.CAN_STATUS_REC ch).key := by simp only [F.CAN_STATUS_REC]; omega
theorem canTec_key (ch : Nat) : 32 * 0x10700000 ≤ (F.CAN_STATUS_TEC ch).key := by simp only [F.CAN_STATUS_TEC]; omega

theorem Node.canStore_told (n : Node) (ch : Nat) (f : CanFrame) : CanTold n (n.canStore ch f) := by
  unfold Node.canStore
  refine .ite ((CanTold.field n _ (canCount_key _ _)).trans (.pviol _ _ (.inr rfl))) (.ite (.refl n) ?_)
  exact (Node.storeEntry_told n ch _).trans (.field _ _ (canCount_key _ _))

theorem Node.recGood_told (n : Node) (ch : Nat) : CanTold n (n.recGood ch) := by
  unfold Node.recGood
  exact .ite ((CanTold.takesFree n _).trans (.field _ _ (canRec_key _))) (.field n _ (canRec_key _))

/-- The node once a correct frame has lowered REC. -/
def Node.recLowered (n : Node) (ch : Nat) : Node :=
  (n.canJoined ch).wr (F.CAN_STATUS_REC ch) (n.rd (F.CAN_STATUS_REC ch) - 1)

theorem Node.canReceive_low {f : CanFrame} (h1 : n.canOn ch = true) (h2 : n.on (F.CAN_CTRL_LOOP ch) = false) (h3 : n.canFormat ch f = true)
    (h4 : n.rd (F.CAN_STATUS_REC ch) < 128) : n.canReceive ch f = (n.recLowered ch).canStore ch f := by
  rw [Node.canReceive_takes h1 h2 h3, Node.recGood_low (n := n.canJoined ch) h4]
  rfl

/-- REC bears on no filter. -/
theorem Node.recLowered_match (n : Node) (ch : Nat) (f : CanFrame) : (n.recLowered ch).canMatch ch f = n.canMatch ch f := by
  have hrd : ∀ g : Fld, g.key ≠ (F.CAN_STATUS_REC ch).key → (n.recLowered ch).rd g = n.rd g := fun g hg => Node.rd_wr_ne (n.canJoined ch) _ hg
  have h1 : ∀ k, (n.recLowered ch).rd (F.CAN_FLT_ID_EN ch k) = n.rd (F.CAN_FLT_ID_EN ch k) :=
    fun k => hrd _ (by simp only [F.CAN_FLT_ID_EN, F.CAN_STATUS_REC]; omega)
  have h2 : ∀ k, (n.recLowered ch).rd (F.CAN_FLT_ID_IDE ch k) = n.rd (F.CAN_FLT_ID_IDE ch k) :=
    fun k => hrd _ (by simp only [F.CAN_FLT_ID_IDE, F.CAN_STATUS_REC]; omega)
  have h3 : ∀ k, (n.recLowered ch).rd (F.CAN_FLT_MASK_MASK ch k) = n.rd (F.CAN_FLT_MASK_MASK ch k) :=
    fun k => hrd _ (by simp only [F.CAN_FLT_MASK_MASK, F.CAN_STATUS_REC]; omega)
  have h4 : ∀ k, (n.recLowered ch).rd (F.CAN_FLT_ID_ID ch k) = n.rd (F.CAN_FLT_ID_ID ch k) :=
    fun k => hrd _ (by simp only [F.CAN_FLT_ID_ID, F.CAN_STATUS_REC]; omega)
  have h5 : ∀ k, (n.recLowered ch).rd (F.CAN_FLT_MASK_KIND ch k) = n.rd (F.CAN_FLT_MASK_KIND ch k) :=
    fun k => hrd _ (by simp only [F.CAN_FLT_MASK_KIND, F.CAN_STATUS_REC]; omega)
  simp only [Node.canMatch, Node.on, h1, h2, h3, h4, h5]

theorem Node.recLowered_told (n : Node) (ch : Nat) : CanTold n (n.recLowered ch) :=
  (CanTold.setChan n _ _).trans (.field _ _ (canRec_key _))

theorem Node.recLowered_chan (n : Node) (ch : Nat) : (n.recLowered ch).chan ch = { n.chan ch with joining := false } :=
  Node.chan_setChan_same n ch _

/-- Nothing of a slot, of the cells or of their reserve changes. -/
theorem CanTold.stores {m : Node} (h : CanTold n m) (hs : m.chanSlot = n.chanSlot) : m.chanStores ch = n.chanStores ch := by
  have heng : ∀ s, m.boundEng s = n.boundEng s := by
    intro s
    by_cases hs : s < 16
    · unfold Node.boundEng
      rw [h.rd _ fun hk => ?_]
      simp only [CanKey, F.HLT_SLOT_ENGINE, F.HLT_PVIOL_COUNT, F.MGT_FAULT_SOURCE] at hk
      omega
    · unfold Node.boundEng
      simp [hs]
  simp only [Node.chanStores, hs, heng]

theorem Node.recLowered_stores (n : Node) (ch : Nat) : (n.recLowered ch).chanStores ch = n.chanStores ch :=
  (n.recLowered_told ch).stores rfl

theorem Node.recLowered_free (n : Node) (ch : Nat) : (n.recLowered ch).freeCells = n.freeCells := by
  refine Node.freeCells_congr (fun b => Node.rd_wr_ne (n.canJoined ch) _ ?_) fun _ => rfl
  simp only [F.FAB_BANK_STATE, F.CAN_STATUS_REC]
  omega

theorem Node.recLowered_reserve (n : Node) (ch : Nat) : (n.recLowered ch).reserve = n.reserve := by
  unfold Node.reserve
  rfl

/-! ### The clauses of a correct frame -/

/-- What follows a command touches no field of the field-bus blocks. -/
theorem Follows.bus_rd {m t : Node} (hf : Follows m t) {f : Fld} (h : 32 * 0x10700000 ≤ f.key) : t.rd f = m.rd f := by
  have hlow : ∀ k ∈ followKeys, k < 32 * 0x10700000 := by decide
  refine hf.rd f fun hk => ?_
  have := hlow _ hk
  omega

theorem Follows.chan_eq {m t : Node} (hf : Follows m t) (k : Nat) : t.chan k = m.chan k := by rw [Node.chan, hf.chans, Node.chan]

/-- A partner violation of CAN touches no field of the field-bus blocks. -/
theorem Node.pviol_bus (n : Node) {k : Nat} (x : Nat) (hk : k = 17 ∨ k = 18) {f : Fld} (h : 32 * 0x10700000 ≤ f.key) :
    (n.pviol k x).rd f = n.rd f := by
  refine Node.pviol_rd n k x ?_ ?_ <;> rcases hk with rfl | rfl <;> simp only [F.HLT_PVIOL_COUNT, F.MGT_FAULT_SOURCE] <;> omega

theorem Node.pviol_chan (n : Node) (k x c : Nat) : (n.pviol k x).chan c = n.chan c := by
  obtain ⟨_, _, _, h⟩ := n.pviol_logs k x
  rw [h]
  rfl

theorem Node.pviol_fab (n : Node) (k x : Nat) : (n.pviol k x).fab = n.fab := by
  obtain ⟨_, _, _, h⟩ := n.pviol_logs k x
  rw [h]

theorem exec_canFrameValid (s : State) {ch : Nat} (hc : ch < 8) (f : CanFrame) :
    exec (.canFrameValid ch f) s = s.to (s.node.canReceive ch f) := by
  show s.to (if ch < 8 then _ else _) = _
  rw [if_pos hc]

/-- Above 127 a correct frame brings REC back to 119 to 127. -/
theorem canFrame_recovers {s : State} (hc : ch < 8) (hfit : s.node.fits) {f : CanFrame} (h1 : s.node.canOn ch = true)
    (h2 : s.node.on (F.CAN_CTRL_LOOP ch) = false) (h3 : s.node.canFormat ch f = true) (h4 : 128 ≤ s.node.rd (F.CAN_STATUS_REC ch))
    (h5 : s.node.chanStores ch = false) :
    Yields (.canFrameValid ch f) s (fun t => 119 ≤ t.rd (F.CAN_STATUS_REC ch) ∧ t.rd (F.CAN_STATUS_REC ch) ≤ 127 ∧ t.fab = s.node.fab ∧
      t.chan ch = { s.node.chan ch with joining := false }) := by
  generalize hm : (s.node.canJoined ch).recGood ch = m
  have hgood := Node.recGood_high (n := s.node.canJoined ch) (ch := ch) h4
  have htold : CanTold s.node m := hm ▸ (CanTold.setChan _ _ _).trans (Node.recGood_told _ _)
  have hstores : m.chanStores ch = false := (htold.stores (by rw [← hm, hgood]; rfl)).trans h5
  have hstore : m.canStore ch f = m ∨ m.canStore ch f = (m.inc (F.CAN_CNT_COUNT ch 8)).pviol 18 ch := by
    unfold Node.canStore
    split
    · exact .inr rfl
    · simp [hstores]
  have hrec : (m.canStore ch f).rd (F.CAN_STATUS_REC ch) = m.rd (F.CAN_STATUS_REC ch) ∧ (m.canStore ch f).fab = m.fab ∧
      (m.canStore ch f).chan ch = m.chan ch := by
    rcases hstore with h | h
    · rw [h]
      exact ⟨rfl, rfl, rfl⟩
    · rw [h, Node.pviol_bus _ _ (.inr rfl) (canRec_key ch), Node.pviol_fab, Node.pviol_chan]
      refine ⟨Node.rd_inc_ne m ?_, rfl, rfl⟩
      simp only [F.CAN_STATUS_REC, F.CAN_CNT_COUNT]
      omega
  obtain ⟨hrd, hfab, hchan⟩ := hrec
  have hexec := (exec_canFrameValid s hc f).trans (congrArg s.to (Node.canReceive_takes h1 h2 h3))
  rw [hm] at hexec
  refine Yields.of_can hexec (htold.trans (Node.canStore_told m ch f)) hfit fun t hf => ?_
  have hval : m.rd (F.CAN_STATUS_REC ch) = 119 + Config.freeNat s.node.freeN % 9 := by
    rw [← hm, hgood, Node.rd_wr_same]
    exact Nat.mod_eq_of_lt (by simp only [F.CAN_STATUS_REC]; omega)
  have hbound := Nat.mod_lt (Config.freeNat s.node.freeN) (show 0 < 9 by decide)
  rw [hf.bus_rd (canRec_key ch), hf.fab, hf.chan_eq, hrd, hfab, hchan, hval]
  refine ⟨by omega, by omega, ?_, ?_⟩
  · rw [← hm, hgood]
    rfl
  · rw [← hm, hgood]
    exact Node.chan_setChan_same _ _ _

theorem Node.returnCells_rd (n : Node) (l : List Nat) (f : Fld) : (n.returnCells l).rd f = n.rd f :=
  (Hands.returnCells (fun _ => False) n l).rd f id

theorem Node.returnCells_chan (n : Node) (l : List Nat) (k : Nat) : (n.returnCells l).chan k = n.chan k := by
  rw [Node.chan, Node.returnCells_chans, Node.chan]

theorem Node.takeCells_rd (k : Nat) (n : Node) (f : Fld) : (Node.takeCells k n).2.rd f = n.rd f := by
  obtain ⟨_, _, h⟩ := Node.takeCells_keeps k n
  rw [h]
  rfl

theorem Node.recLowered_rd (n : Node) (ch : Nat) {f : Fld} (h : f.key ≠ (F.CAN_STATUS_REC ch).key) : (n.recLowered ch).rd f = n.rd f :=
  Node.rd_wr_ne (n.canJoined ch) _ h

theorem Node.recLowered_count (n : Node) (ch j : Nat) : (n.recLowered ch).rd (F.CAN_CNT_COUNT ch j) = n.rd (F.CAN_CNT_COUNT ch j) :=
  n.recLowered_rd ch (by simp only [F.CAN_STATUS_REC, F.CAN_CNT_COUNT]; omega)

theorem canCount_ne_rec (ch j : Nat) : (F.CAN_STATUS_REC ch).key ≠ (F.CAN_CNT_COUNT ch j).key := by
  simp only [F.CAN_STATUS_REC, F.CAN_CNT_COUNT]
  omega

theorem Node.recLowered_epoch (n : Node) (ch : Nat) : (n.recLowered ch).epoch = n.epoch :=
  n.recLowered_rd ch (by simp only [F.CAN_STATUS_REC, F.TOP_EPOCH_EPOCH]; omega)

theorem Node.recLowered_rec {n : Node} {ch : Nat} (h : n.rd (F.CAN_STATUS_REC ch) < 128) :
    (n.recLowered ch).rd (F.CAN_STATUS_REC ch) = n.rd (F.CAN_STATUS_REC ch) - 1 := by
  rw [Node.recLowered, Node.rd_wr_same]
  exact Nat.mod_eq_of_lt (by simp only [F.CAN_STATUS_REC] at h ⊢; omega)

section Stored

variable {s : State} {f : CanFrame} (hc : ch < 8) (hfit : s.node.fits) (h1 : s.node.canOn ch = true)
  (h2 : s.node.on (F.CAN_CTRL_LOOP ch) = false) (h3 : s.node.canFormat ch f = true) (h4 : s.node.rd (F.CAN_STATUS_REC ch) < 128)
include hc h1 h2 h3 h4

theorem exec_canFrame_low : exec (.canFrameValid ch f) s = s.to ((s.node.recLowered ch).canStore ch f) :=
  (exec_canFrameValid s hc f).trans (congrArg s.to (Node.canReceive_low h1 h2 h3 h4))

theorem exec_canFrame_taken (h5 : s.node.chanStores ch = true) (h6 : (f.xlf && f.sec) = false) (h7 : s.node.canMatch ch f = true) :
    exec (.canFrameValid ch f) s = s.to (((s.node.recLowered ch).storeEntry ch { fr := f, data := f.data }).2.inc
      (F.CAN_CNT_COUNT ch ((s.node.recLowered ch).storeEntry ch { fr := f, data := f.data }).1)) :=
  (exec_canFrame_low hc h1 h2 h3 h4).trans (congrArg s.to (Node.canStore_takes h6
    ((s.node.recLowered_stores ch).trans h5) ((s.node.recLowered_match ch f).trans h7)))

include hfit in
/-- A frame the channel takes and has room for is stored as an entry with its cells (10 R350, R351). -/
theorem canFrame_stored (h5 : s.node.chanStores ch = true) (h6 : (f.xlf && f.sec) = false) (h7 : s.node.canMatch ch f = true)
    (hroom : s.node.reserve + cellsFor f.data.length ≤ s.node.freeCells) (hu : (s.node.chan ch).inUse < 256) :
    Yields (.canFrameValid ch f) s (fun t =>
      t.rd (F.CAN_STATUS_REC ch) = s.node.rd (F.CAN_STATUS_REC ch) - 1 ∧
      t.rd (F.CAN_CNT_COUNT ch 1) = min (s.node.rd (F.CAN_CNT_COUNT ch 1) + 1) (2 ^ 32 - 1) ∧ (t.chan ch).txq = (s.node.chan ch).txq ∧
      ∃ x, (t.chan ch).rx = (s.node.chan ch).rx ++ [x] ∧ x.fr = f ∧ x.data = f.data ∧ x.epoch = s.node.epoch ∧
        x.id = (s.node.chan ch).nextId ∧ x.cells.length = cellsFor f.data.length ∧ x.held = false) := by
  have hexec := exec_canFrame_taken hc h1 h2 h3 h4 h5 h6 h7
  have hfree : cellsFor f.data.length ≤ (s.node.recLowered ch).freeCells := by
    rw [Node.recLowered_free]
    omega
  rw [Node.storeEntry_stored (by rw [Node.recLowered_free, Node.recLowered_reserve]; exact hroom)
    (by rw [Node.recLowered_chan]; exact hu)] at hexec
  refine Yields.of_can hexec ((s.node.recLowered_told ch).trans ((CanTold.takeCells (cellsFor f.data.length) _).trans
    ((CanTold.setChan _ ch _).trans (.field _ _ (canCount_key ch 1))))) hfit fun t hf => ?_
  rw [hf.bus_rd (canRec_key ch), hf.bus_rd (canCount_key ch 1), hf.chan_eq]
  refine ⟨?_, ?_, ?_, ?_⟩
  · rw [Node.rd_inc_ne _ (canCount_ne_rec ch 1)]
    exact (Node.takeCells_rd _ _ _).trans (Node.recLowered_rec h4)
  · rw [Node.rd_inc_same]
    exact congrArg (fun v => min (v + 1) (2 ^ 32 - 1)) ((Node.takeCells_rd _ _ _).trans (Node.recLowered_count _ _ _))
  · refine (congrArg Chan.txq (Node.chan_setChan_same _ ch _)).trans ?_
    rw [Node.recLowered_chan]
  · refine ⟨_, (congrArg Chan.rx (Node.chan_setChan_same _ ch _)).trans (by rw [Node.recLowered_chan]), rfl, rfl, Node.recLowered_epoch _ _,
      rfl, (Node.takeCells_length hfree).1, rfl⟩

include hfit in
/-- Without a free entry it is counted and lost. -/
theorem canFrame_full (h5 : s.node.chanStores ch = true) (h6 : (f.xlf && f.sec) = false) (h7 : s.node.canMatch ch f = true)
    (hroom : s.node.reserve + cellsFor f.data.length ≤ s.node.freeCells) (hu : 256 ≤ (s.node.chan ch).inUse) :
    Yields (.canFrameValid ch f) s (fun t => (t.chan ch).rx = (s.node.chan ch).rx ∧
      t.rd (F.CAN_CNT_COUNT ch 4) = min (s.node.rd (F.CAN_CNT_COUNT ch 4) + 1) (2 ^ 32 - 1)) := by
  have hexec := exec_canFrame_taken hc h1 h2 h3 h4 h5 h6 h7
  rw [Node.storeEntry_full (by rw [Node.recLowered_free, Node.recLowered_reserve]; exact hroom)
    (by rw [Node.recLowered_chan]; exact hu)] at hexec
  refine Yields.of_can hexec ((s.node.recLowered_told ch).trans ((CanTold.takeCells (cellsFor f.data.length) _).trans
    ((CanTold.returnCells _ _).trans (.field _ _ (canCount_key ch 4))))) hfit fun t hf => ?_
  rw [hf.bus_rd (canCount_key ch 4), hf.chan_eq, Node.rd_inc_same, Node.returnCells_rd, Node.takeCells_rd, Node.recLowered_count]
  refine ⟨(congrArg Chan.rx ((Node.returnCells_chan _ _ ch).trans (Node.takeCells_chan _ _ ch))).trans ?_, rfl⟩
  rw [Node.recLowered_chan]

/-- Without cells it is counted and lost. -/
theorem canFrame_nobuf (h5 : s.node.chanStores ch = true) (h6 : (f.xlf && f.sec) = false) (h7 : s.node.canMatch ch f = true)
    (hroom : s.node.freeCells < s.node.reserve + cellsFor f.data.length) :
    exec (.canFrameValid ch f) s = s.to ((s.node.canJoined ch).wrs [(F.CAN_STATUS_REC ch, s.node.rd (F.CAN_STATUS_REC ch) - 1),
      (F.CAN_CNT_COUNT ch 5, min (s.node.rd (F.CAN_CNT_COUNT ch 5) + 1) (2 ^ 32 - 1))]) := by
  have hexec := exec_canFrame_taken hc h1 h2 h3 h4 h5 h6 h7
  rw [Node.storeEntry_nobuf (by rw [Node.recLowered_free, Node.recLowered_reserve]; exact hroom)] at hexec
  refine hexec.trans (congrArg s.to ?_)
  rw [Node.inc_eq, Node.recLowered_count]
  rfl

end Stored

/-- A frame with SEC is counted as a partner violation and not stored. -/
theorem exec_canFrame_sec {s : State} {f : CanFrame} (hc : ch < 8) (h1 : s.node.canOn ch = true)
    (h2 : s.node.on (F.CAN_CTRL_LOOP ch) = false) (h3 : s.node.canFormat ch f = true) (h4 : s.node.rd (F.CAN_STATUS_REC ch) < 128)
    (h5 : f.xlf = true) (h6 : f.sec = true) :
    exec (.canFrameValid ch f) s = s.to ((((s.node.canJoined ch).wr (F.CAN_STATUS_REC ch) (s.node.rd (F.CAN_STATUS_REC ch) - 1)).wr
      (F.CAN_CNT_COUNT ch 8) (min (s.node.rd (F.CAN_CNT_COUNT ch 8) + 1) (2 ^ 32 - 1))).pviol 18 ch) := by
  refine (exec_canFrame_low hc h1 h2 h3 h4).trans (congrArg s.to ?_)
  rw [Node.canStore_sec h5 h6, Node.inc_eq, Node.recLowered_count]
  rfl

/-! ### Attempts and errors (10 R360 to R367) -/

theorem exec_canError (s : State) {ch : Nat} (hc : ch < 8) (e : CanErr) : exec (.canError ch e) s = s.to (s.node.canErr ch e) := by
  show s.to (if ch < 8 then _ else _) = _
  rw [if_pos hc]

theorem exec_canTxSuccess (s : State) {ch : Nat} (hc : ch < 8) : exec (.canTxSuccess ch) s = s.to (s.node.canSent ch) := by
  show s.to (if ch < 8 then _ else _) = _
  rw [if_pos hc]

theorem Node.canOn_of_sends (h : n.canSends ch = true) : n.canOn ch = true := by
  simp only [Node.canSends, Bool.and_eq_true] at h
  exact h.1.1

@[simp] theorem Node.canJoined_chan (n : Node) (ch : Nat) : (n.canJoined ch).chan ch = { n.chan ch with joining := false } :=
  Node.chan_setChan_same n ch _

theorem Node.canJoined_sends (n : Node) (ch : Nat) : (n.canJoined ch).canSends ch = n.canSends ch := by
  simp only [Node.canSends, Node.canOn, Node.canJoined_chan, Chan.tryAt]
  rfl

/-- The node once an error of the channel has been counted. -/
def Node.canBad (n : Node) (ch : Nat) : Node := ((n.canJoined ch).inc (F.CAN_CNT_COUNT ch 2)).pviol 17 ch

theorem Node.canBad_rd (n : Node) {ch : Nat} {f : Fld} (h : 32 * 0x10700000 ≤ f.key) (hne : f.key ≠ (F.CAN_CNT_COUNT ch 2).key) :
    (n.canBad ch).rd f = n.rd f :=
  (Node.pviol_bus _ _ (.inl rfl) h).trans (Node.rd_inc_ne (n.canJoined ch) hne)

theorem Node.canBad_count (n : Node) (ch : Nat) :
    (n.canBad ch).rd (F.CAN_CNT_COUNT ch 2) = min (n.rd (F.CAN_CNT_COUNT ch 2) + 1) (2 ^ 32 - 1) :=
  (Node.pviol_bus _ _ (.inl rfl) (canCount_key ch 2)).trans (Node.rd_inc_same (n.canJoined ch) _)

theorem Node.canBad_chan (n : Node) (ch : Nat) : (n.canBad ch).chan ch = { n.chan ch with joining := false } :=
  (Node.pviol_chan _ _ _ _).trans (n.canJoined_chan ch)

theorem Node.canBad_told (n : Node) (ch : Nat) : CanTold n (n.canBad ch) :=
  (CanTold.setChan n _ _).trans ((CanTold.field _ _ (canCount_key ch 2)).trans (.pviol _ _ (.inl rfl)))

theorem Node.canBad_staged (n : Node) (ch : Nat) : (n.canBad ch).log.staged.length ≤ n.log.staged.length + 1 := Node.pviol_staged _ _ _

theorem Node.canBad_fab (n : Node) (ch : Nat) : (n.canBad ch).fab = n.fab := Node.pviol_fab _ _ _

/-- The entry as an attempt that failed leaves it. -/
def CanTx.ended (x : CanTx) (k : Nat) : CanTx := { x with trying := false, clash := k }

/-- The channel as an attempt that failed leaves it. -/
def Node.attemptEnded (n : Node) (ch : Nat) (x : CanTx) (k : Nat) : Node :=
  n.setChan ch { n.chan ch with txq := (n.chan ch).txq.set (n.chan ch).tryAt (x.ended k) }

/-- The clash count an attempt leaves. -/
def CanTx.clashAfter (x : CanTx) : Option Bool → Nat
  | none => x.clash
  | some b => if b then x.clash + 1 else 0

/-- The entry at the channel's attempt leaves the queue, and its cells go back. -/
def Node.entryGone (n : Node) (ch : Nat) (x : CanTx) : Node :=
  (n.setChan ch { n.chan ch with txq := (n.chan ch).txq.eraseIdx (n.chan ch).tryAt }).returnCells x.cells

variable {x : CanTx} {up : Option Bool}

theorem Node.canEnds_entry (hx : (n.chan ch).txq[(n.chan ch).tryAt]? = some x) :
    n.canEnds ch up =
      if up = some true ∧ n.rd (F.CAN_CTRL_CLASH_THR ch) ≠ 0 ∧ n.rd (F.CAN_CTRL_CLASH_THR ch) ≤ x.clashAfter up then
        (n.attemptEnded ch x (x.clashAfter up)).canAbandon ch (n.chan ch).tryAt (x.ended (x.clashAfter up))
      else if x.flush then (n.attemptEnded ch x (x.clashAfter up)).canRemove ch (n.chan ch).tryAt
      else n.attemptEnded ch x (x.clashAfter up) := by
  simp only [Node.canEnds, hx]
  rfl

end Sys2Proof.Machine
end

section
/-! PROOF. Attempts, errors and commands of a CAN channel (10 R352, R353, R356, R360 to R367, R375). -/

namespace Sys2Proof.Machine

open Sys2Proof

variable {n : Node} {ch : Nat} {x : CanTx} {up : Option Bool}

/-! ### The ends of an attempt (10 R362, R366, R367) -/

theorem Node.canRemove_entry {i : Nat} {x : CanTx} (hx : (n.chan ch).txq[i]? = some x) :
    n.canRemove ch i =
      if x.flush then ((n.setChan ch { n.chan ch with txq := (n.chan ch).txq.eraseIdx i }).returnCells x.cells).inc (F.CAN_CNT_COUNT ch 6)
      else (n.setChan ch { n.chan ch with txq := (n.chan ch).txq.eraseIdx i }).returnCells x.cells := by
  simp only [Node.canRemove, hx]

theorem Node.attemptEnded_chan (n : Node) (ch : Nat) (x : CanTx) (k : Nat) :
    (n.attemptEnded ch x k).chan ch = { n.chan ch with txq := (n.chan ch).txq.set (n.chan ch).tryAt (x.ended k) } :=
  Node.chan_setChan_same n ch _

/-- The entry leaves the queue as it ended. -/
theorem Node.attemptEnded_remove {k : Nat} (hx : (n.chan ch).txq[(n.chan ch).tryAt]? = some x) :
    (n.attemptEnded ch x k).canRemove ch (n.chan ch).tryAt =
      if x.flush then (n.entryGone ch x).inc (F.CAN_CNT_COUNT ch 6) else n.entryGone ch x := by
  have hlt : (n.chan ch).tryAt < (n.chan ch).txq.length := (List.getElem?_eq_some_iff.1 hx).1
  have hset : ((n.attemptEnded ch x k).chan ch).txq[(n.chan ch).tryAt]? = some (x.ended k) := by
    rw [Node.attemptEnded_chan]
    exact List.getElem?_set_self hlt
  rw [Node.canRemove_entry hset, Node.attemptEnded_chan, List.eraseIdx_set_eq, Node.attemptEnded, Node.setChan_setChan]
  rfl

theorem Node.canEnds_stays (hx : (n.chan ch).txq[(n.chan ch).tryAt]? = some x) (hf : x.flush = false)
    (hthr : up = some true → n.rd (F.CAN_CTRL_CLASH_THR ch) = 0 ∨ x.clash + 1 < n.rd (F.CAN_CTRL_CLASH_THR ch)) :
    n.canEnds ch up = n.attemptEnded ch x (x.clashAfter up) := by
  rw [Node.canEnds_entry hx, hf, if_neg, if_neg (by decide)]
  rintro ⟨h1, h2, h3⟩
  subst h1
  have h4 : x.clashAfter (some true) = x.clash + 1 := rfl
  rcases hthr rfl with h | h <;> omega

theorem Node.canEnds_flushed (hx : (n.chan ch).txq[(n.chan ch).tryAt]? = some x) (hf : x.flush = true) (hup : up ≠ some true) :
    n.canEnds ch up = (n.entryGone ch x).inc (F.CAN_CNT_COUNT ch 6) := by
  rw [Node.canEnds_entry hx, if_neg (fun h => hup h.1), hf, if_pos rfl, Node.attemptEnded_remove hx, hf, if_pos rfl]

/-- At the clash threshold the entry is abandoned. -/
theorem Node.canEnds_abandons (hx : (n.chan ch).txq[(n.chan ch).tryAt]? = some x) (h0 : n.rd (F.CAN_CTRL_CLASH_THR ch) ≠ 0)
    (hthr : n.rd (F.CAN_CTRL_CLASH_THR ch) ≤ x.clash + 1) :
    n.canEnds ch (some true) = (n.attemptEnded ch x (x.clash + 1)).canAbandon ch (n.chan ch).tryAt (x.ended (x.clash + 1)) := by
  rw [Node.canEnds_entry hx, if_pos ⟨rfl, h0, hthr⟩]
  rfl

theorem Node.attemptEnded_told (n : Node) (ch : Nat) (x : CanTx) (k : Nat) : CanTold n (n.attemptEnded ch x k) := .setChan n _ _

theorem Node.entryGone_told (n : Node) (ch : Nat) (x : CanTx) : CanTold n (n.entryGone ch x) := (CanTold.setChan n _ _).trans (.returnCells _ _)

theorem Node.entryGone_chan (n : Node) (ch : Nat) (x : CanTx) :
    (n.entryGone ch x).chan ch = { n.chan ch with txq := (n.chan ch).txq.eraseIdx (n.chan ch).tryAt } :=
  (Node.returnCells_chan _ _ ch).trans (Node.chan_setChan_same n ch _)

theorem Node.entryGone_rd (n : Node) (ch : Nat) (x : CanTx) (f : Fld) : (n.entryGone ch x).rd f = n.rd f := Node.returnCells_rd _ _ f

/-! ### TEC (10 R363, R364) -/

theorem Node.tecUp_low (h : n.rd (F.CAN_STATUS_TEC ch) ≤ 247) :
    n.tecUp ch = n.wr (F.CAN_STATUS_TEC ch) (n.rd (F.CAN_STATUS_TEC ch) + 8) := by
  have hmin : min (n.rd (F.CAN_STATUS_TEC ch) + 8) 256 = n.rd (F.CAN_STATUS_TEC ch) + 8 := by omega
  refine (if_neg (by omega)).trans ?_
  rw [hmin]

theorem Node.tecUp_high (h : 247 < n.rd (F.CAN_STATUS_TEC ch)) : n.tecUp ch = (n.wr (F.CAN_STATUS_TEC ch) 256).canBusOff ch := by
  have hmin : min (n.rd (F.CAN_STATUS_TEC ch) + 8) 256 = 256 := by omega
  refine (if_pos (by omega)).trans ?_
  rw [hmin]

theorem Node.canBusOff_told (n : Node) (ch : Nat) : CanTold n (n.canBusOff ch) := by
  refine (CanTold.setChan n ch _).trans ((CanTold.field _ _ ?_).trans ((CanTold.field _ _ (canCount_key ch 3)).trans (.fault _ _ _ _)))
  simp only [F.CAN_STATUS_BUSOFF_EV]
  omega

theorem Node.fault_chan (n : Node) (a b c k : Nat) : (n.fault a b c).chan k = n.chan k := by
  obtain ⟨_, _, _, h⟩ := Logs.fault n a b c
  rw [h]
  rfl

/-- Bus-off is shown, counted and recorded; the queue waits. -/
theorem Node.canBusOff_shows (n : Node) (ch : Nat) (h : n.log.staged.length < 64) :
    ((n.canBusOff ch).chan ch = { n.chan ch with busOff := true, recovering := false }) ∧
    (n.canBusOff ch).on (F.CAN_STATUS_BUSOFF_EV ch) = true ∧
    (n.canBusOff ch).rd (F.CAN_CNT_COUNT ch 3) = min (n.rd (F.CAN_CNT_COUNT ch 3) + 1) (2 ^ 32 - 1) ∧
    (n.canBusOff ch).hasRecord 12 1 (ch * 2 ^ 29) := by
  have hbus : (F.CAN_STATUS_BUSOFF_EV ch).key ≠ (F.CAN_CNT_COUNT ch 3).key := by simp only [F.CAN_STATUS_BUSOFF_EV, F.CAN_CNT_COUNT]; omega
  have hsrc : ∀ f : Fld, 32 * 0x10700000 ≤ f.key → f.key ≠ F.MGT_FAULT_SOURCE.key := by
    intro f hf
    simp only [F.MGT_FAULT_SOURCE]
    omega
  refine ⟨?_, ?_, ?_, Node.hasRecord_self _ _ _ _ h⟩
  · exact (Node.fault_chan _ _ _ _ _).trans (Node.chan_setChan_same n ch _)
  · unfold Node.on
    rw [Node.canBusOff, Node.fault_rd _ _ _ _ _ (hsrc _ (by simp only [F.CAN_STATUS_BUSOFF_EV]; omega)), Node.rd_inc_ne _ hbus]
    exact Node.on_put_same _ _ true rfl
  · rw [Node.canBusOff, Node.fault_rd _ _ _ _ _ (hsrc _ (canCount_key ch 3)), Node.rd_inc_same]
    exact congrArg (fun v => min (v + 1) (2 ^ 32 - 1)) (Node.rd_wr_ne _ _ hbus.symm)

/-! ### Abandonment (10 R367) -/

/-- The clash registers as the first abandoned frame leaves them. -/
def Node.clashShown (n : Node) (ch : Nat) (f : CanFrame) : Node :=
  if n.on (F.CAN_CLASH_VALID ch) then n else n.wrs [(F.CAN_CLASH_VALID ch, 1), (F.CAN_CLASH_IDE ch, b2n f.ide), (F.CAN_CLASH_ID ch, f.id)]

theorem Node.clashShown_told (n : Node) (ch : Nat) (f : CanFrame) : CanTold n (n.clashShown ch f) := by
  refine .ite (.refl n) ((CanTold.field n _ ?_).trans ((CanTold.field _ _ ?_).trans (.field _ _ ?_)))
  · simp only [F.CAN_CLASH_VALID]; omega
  · simp only [F.CAN_CLASH_IDE]; omega
  · simp only [F.CAN_CLASH_ID]; omega

theorem Node.clashShown_rd (n : Node) (ch : Nat) (f : CanFrame) {g : Fld} (h1 : g.key ≠ (F.CAN_CLASH_VALID ch).key)
    (h2 : g.key ≠ (F.CAN_CLASH_IDE ch).key) (h3 : g.key ≠ (F.CAN_CLASH_ID ch).key) : (n.clashShown ch f).rd g = n.rd g := by
  unfold Node.clashShown
  split
  · rfl
  · exact Node.rd_wrs_ne n _ (by simp [h1, h2, h3])

theorem Node.clashShown_log (n : Node) (ch : Nat) (f : CanFrame) : (n.clashShown ch f).log = n.log := by
  unfold Node.clashShown
  split <;> rfl

theorem Node.clashShown_chans (n : Node) (ch : Nat) (f : CanFrame) : (n.clashShown ch f).chans = n.chans := by
  unfold Node.clashShown
  split <;> rfl

/-- The first abandoned frame shows its identifier. -/
theorem Node.clashShown_first {f : CanFrame} (h : n.on (F.CAN_CLASH_VALID ch) = false) (hid : f.id < 2 ^ 29) :
    (n.clashShown ch f).on (F.CAN_CLASH_VALID ch) = true ∧ (n.clashShown ch f).rd (F.CAN_CLASH_ID ch) = f.id ∧
    (n.clashShown ch f).on (F.CAN_CLASH_IDE ch) = f.ide := by
  have heq : n.clashShown ch f =
      ((n.wr (F.CAN_CLASH_VALID ch) 1).wr (F.CAN_CLASH_IDE ch) (b2n f.ide)).wr (F.CAN_CLASH_ID ch) f.id := if_neg (by simp [h])
  have hvi : (F.CAN_CLASH_VALID ch).key ≠ (F.CAN_CLASH_IDE ch).key := by simp only [F.CAN_CLASH_VALID, F.CAN_CLASH_IDE]; omega
  have hvd : (F.CAN_CLASH_VALID ch).key ≠ (F.CAN_CLASH_ID ch).key := by simp only [F.CAN_CLASH_VALID, F.CAN_CLASH_ID]; omega
  have hid' : (F.CAN_CLASH_IDE ch).key ≠ (F.CAN_CLASH_ID ch).key := by simp only [F.CAN_CLASH_IDE, F.CAN_CLASH_ID]; omega
  rw [heq]
  refine ⟨?_, ?_, ?_⟩
  · rw [Node.on_wr_ne _ _ hvd, Node.on_wr_ne _ _ hvi]
    exact Node.on_put_same n (F.CAN_CLASH_VALID ch) true rfl
  · rw [Node.rd_wr_same]
    exact Nat.mod_eq_of_lt hid
  · rw [Node.on_wr_ne _ _ hid']
    exact Node.on_put_same _ (F.CAN_CLASH_IDE ch) f.ide rfl

/-- The entry abandoned at the channel's attempt. -/
theorem Node.attemptEnded_abandon {k : Nat} (hx : (n.chan ch).txq[(n.chan ch).tryAt]? = some x) :
    (n.attemptEnded ch x k).canAbandon ch (n.chan ch).tryAt (x.ended k) =
      Node.fault ((((if x.flush then (n.entryGone ch x).inc (F.CAN_CNT_COUNT ch 6) else n.entryGone ch x).inc (F.CAN_CNT_COUNT ch 7)).put
        (F.CAN_STATUS_CLASH_EV ch) true).clashShown ch x.fr) 12 2 (ch * 2 ^ 29 + x.fr.id % 2 ^ 29) := by
  rw [Node.canAbandon, Node.attemptEnded_remove hx]
  rfl

/-- The entry out of the queue, its cells back, and counted where it was flushed. -/
def Node.entryOut (n : Node) (ch : Nat) (x : CanTx) : Node :=
  if x.flush then (n.entryGone ch x).inc (F.CAN_CNT_COUNT ch 6) else n.entryGone ch x

theorem Node.entryOut_told (n : Node) (ch : Nat) (x : CanTx) : CanTold n (n.entryOut ch x) :=
  .ite ((n.entryGone_told ch x).trans (.field _ _ (canCount_key ch 6))) (n.entryGone_told ch x)

theorem Node.entryOut_chan (n : Node) (ch : Nat) (x : CanTx) :
    (n.entryOut ch x).chan ch = { n.chan ch with txq := (n.chan ch).txq.eraseIdx (n.chan ch).tryAt } := by
  unfold Node.entryOut
  split <;> exact n.entryGone_chan ch x

theorem Node.entryOut_rd (n : Node) (ch : Nat) (x : CanTx) {f : Fld} (h : f.key ≠ (F.CAN_CNT_COUNT ch 6).key) :
    (n.entryOut ch x).rd f = n.rd f := by
  unfold Node.entryOut
  split
  · exact (Node.rd_inc_ne _ h).trans (n.entryGone_rd ch x f)
  · exact n.entryGone_rd ch x f

theorem Node.entryOut_flush (h : x.flush = true) :
    (n.entryOut ch x).rd (F.CAN_CNT_COUNT ch 6) = min (n.rd (F.CAN_CNT_COUNT ch 6) + 1) (2 ^ 32 - 1) := by
  rw [Node.entryOut, if_pos h, Node.rd_inc_same, Node.entryGone_rd]
  rfl

theorem Node.returnCells_log (n : Node) (l : List Nat) : (n.returnCells l).log = n.log := by
  obtain ⟨_, _, _, _, _, _, _, _, _, _, h⟩ := (Hands.returnCells (fun _ => False) n l).eq
  rw [h]

theorem Node.entryOut_log (n : Node) (ch : Nat) (x : CanTx) : (n.entryOut ch x).log = n.log := by
  unfold Node.entryOut
  split <;> exact Node.returnCells_log _ _

/-- Counted, shown and recorded as an abandoned entry. -/
def Node.abandoned (n : Node) (ch : Nat) (f : CanFrame) : Node :=
  (((n.inc (F.CAN_CNT_COUNT ch 7)).put (F.CAN_STATUS_CLASH_EV ch) true).clashShown ch f).fault 12 2 (ch * 2 ^ 29 + f.id % 2 ^ 29)

theorem Node.abandoned_told (n : Node) (ch : Nat) (f : CanFrame) : CanTold n (n.abandoned ch f) := by
  refine (CanTold.field n _ (canCount_key ch 7)).trans ((CanTold.field _ _ ?_).trans ((Node.clashShown_told _ ch f).trans (.fault _ _ _ _)))
  simp only [F.CAN_STATUS_CLASH_EV]
  omega

theorem Node.abandoned_chan (n : Node) (ch : Nat) (f : CanFrame) (k : Nat) : (n.abandoned ch f).chan k = n.chan k := by
  refine (Node.fault_chan _ _ _ _ _).trans ?_
  rw [Node.chan, Node.clashShown_chans, Node.chan]
  rfl

theorem Node.abandoned_shows {f : CanFrame} (hid : f.id < 2 ^ 29) (hl : n.log.staged.length < 64) :
    (n.abandoned ch f).rd (F.CAN_CNT_COUNT ch 7) = min (n.rd (F.CAN_CNT_COUNT ch 7) + 1) (2 ^ 32 - 1) ∧
    (n.abandoned ch f).on (F.CAN_STATUS_CLASH_EV ch) = true ∧ (n.abandoned ch f).hasRecord 12 2 (ch * 2 ^ 29 + f.id) ∧
    (n.on (F.CAN_CLASH_VALID ch) = false → (n.abandoned ch f).on (F.CAN_CLASH_VALID ch) = true ∧
      (n.abandoned ch f).rd (F.CAN_CLASH_ID ch) = f.id ∧ (n.abandoned ch f).on (F.CAN_CLASH_IDE ch) = f.ide) := by
  have hsrc : ∀ g : Fld, 32 * 0x10700000 ≤ g.key → (n.abandoned ch f).rd g =
      (((n.inc (F.CAN_CNT_COUNT ch 7)).put (F.CAN_STATUS_CLASH_EV ch) true).clashShown ch f).rd g := by
    intro g hg
    refine Node.fault_rd _ _ _ _ _ ?_
    simp only [F.MGT_FAULT_SOURCE]
    omega
  have hon : ∀ g : Fld, 32 * 0x10700000 ≤ g.key → (n.abandoned ch f).on g =
      (((n.inc (F.CAN_CNT_COUNT ch 7)).put (F.CAN_STATUS_CLASH_EV ch) true).clashShown ch f).on g := fun g hg => by rw [Node.on, hsrc g hg, Node.on]
  refine ⟨?_, ?_, ?_, fun hv => ?_⟩
  · have h1 : (F.CAN_CNT_COUNT ch 7).key ≠ (F.CAN_CLASH_VALID ch).key := by simp only [F.CAN_CNT_COUNT, F.CAN_CLASH_VALID]; omega
    have h2 : (F.CAN_CNT_COUNT ch 7).key ≠ (F.CAN_CLASH_IDE ch).key := by simp only [F.CAN_CNT_COUNT, F.CAN_CLASH_IDE]; omega
    have h3 : (F.CAN_CNT_COUNT ch 7).key ≠ (F.CAN_CLASH_ID ch).key := by simp only [F.CAN_CNT_COUNT, F.CAN_CLASH_ID]; omega
    have h4 : (F.CAN_CNT_COUNT ch 7).key ≠ (F.CAN_STATUS_CLASH_EV ch).key := by simp only [F.CAN_CNT_COUNT, F.CAN_STATUS_CLASH_EV]; omega
    rw [hsrc _ (canCount_key ch 7), Node.clashShown_rd _ _ _ h1 h2 h3, Node.rd_put_ne _ _ h4, Node.rd_inc_same]
    rfl
  · have h1 : (F.CAN_STATUS_CLASH_EV ch).key ≠ (F.CAN_CLASH_VALID ch).key := by simp only [F.CAN_STATUS_CLASH_EV, F.CAN_CLASH_VALID]; omega
    have h2 : (F.CAN_STATUS_CLASH_EV ch).key ≠ (F.CAN_CLASH_IDE ch).key := by simp only [F.CAN_STATUS_CLASH_EV, F.CAN_CLASH_IDE]; omega
    have h3 : (F.CAN_STATUS_CLASH_EV ch).key ≠ (F.CAN_CLASH_ID ch).key := by simp only [F.CAN_STATUS_CLASH_EV, F.CAN_CLASH_ID]; omega
    rw [hon _ (by simp only [F.CAN_STATUS_CLASH_EV]; omega), Node.on, Node.clashShown_rd _ _ _ h1 h2 h3]
    exact Node.on_put_same _ _ true rfl
  · have h : (n.abandoned ch f).hasRecord 12 2 (ch * 2 ^ 29 + f.id % 2 ^ 29) :=
      Node.hasRecord_self _ _ _ _ (by rw [Node.clashShown_log]; exact hl)
    rwa [Nat.mod_eq_of_lt hid] at h
  · have h1 : (F.CAN_CLASH_VALID ch).key ≠ (F.CAN_STATUS_CLASH_EV ch).key := by simp only [F.CAN_STATUS_CLASH_EV, F.CAN_CLASH_VALID]; omega
    have h2 : (F.CAN_CLASH_VALID ch).key ≠ (F.CAN_CNT_COUNT ch 7).key := by simp only [F.CAN_CLASH_VALID, F.CAN_CNT_COUNT]; omega
    rw [hon _ (by simp only [F.CAN_CLASH_VALID]; omega), hsrc _ (by simp only [F.CAN_CLASH_ID]; omega),
      hon _ (by simp only [F.CAN_CLASH_IDE]; omega)]
    refine Node.clashShown_first ?_ hid
    rw [Node.on_put_ne _ _ h1, Node.on_inc_ne _ h2]
    exact hv

/-! ### The clauses of an attempt -/

section Attempt

variable {s : State} (hc : ch < 8) (hfit : s.node.fits)

theorem Node.canErr_on {e : CanErr} (h : n.canOn ch = true) :
    n.canErr ch e =
      match e with
      | .rxError => if n.on (F.CAN_CTRL_LOOP ch) then n.canJoined ch else
        (n.canBad ch).wr (F.CAN_STATUS_REC ch) (min 255 ((n.canBad ch).rd (F.CAN_STATUS_REC ch) + 1))
      | .rxDominant | .rxFlagBit | .rxFlagDominant => if n.on (F.CAN_CTRL_LOOP ch) then n.canJoined ch else
        (n.canBad ch).wr (F.CAN_STATUS_REC ch) (min 255 ((n.canBad ch).rd (F.CAN_STATUS_REC ch) + 8))
      | .txFlagBit | .txFlagDominant => if n.on (F.CAN_CTRL_LISTEN ch) then n.canJoined ch else (n.canBad ch).tecUp ch
      | .txArbLost => if n.canSends ch then (n.canJoined ch).canEnds ch none else n.canJoined ch
      | .txDataBit | .txXlFast => if n.canSends ch then ((n.canBad ch).canEnds ch (some true)).tecUp ch else n.canJoined ch
      | .txOther => if n.canSends ch then ((n.canBad ch).canEnds ch (some false)).tecUp ch else n.canJoined ch
      | .txAckPassive | .txStuffArb => if n.canSends ch then (n.canBad ch).canEnds ch (some false) else n.canJoined ch := by
  have hon : ¬ ((!n.canOn ch) = true) := by simp [h]
  unfold Node.canErr
  rw [if_neg hon]
  simp only [Node.canJoined_sends]
  cases e <;> rfl

/-- The entry at the attempt of a channel that has counted an error is the same. -/
theorem Node.canBad_entry (hx : (n.chan ch).txq[(n.chan ch).tryAt]? = some x) :
    ((n.canBad ch).chan ch).txq[((n.canBad ch).chan ch).tryAt]? = some x := by
  rw [Node.canBad_chan]
  exact hx

theorem Node.canJoined_entry (hx : (n.chan ch).txq[(n.chan ch).tryAt]? = some x) :
    ((n.canJoined ch).chan ch).txq[((n.canJoined ch).chan ch).tryAt]? = some x := by
  rw [Node.canJoined_chan]
  exact hx

theorem Node.canBad_thr (n : Node) (ch : Nat) : (n.canBad ch).rd (F.CAN_CTRL_CLASH_THR ch) = n.rd (F.CAN_CTRL_CLASH_THR ch) :=
  n.canBad_rd (by simp only [F.CAN_CTRL_CLASH_THR]; omega) (by simp only [F.CAN_CTRL_CLASH_THR, F.CAN_CNT_COUNT]; omega)

theorem canTec_ne_count (ch j : Nat) : (F.CAN_STATUS_TEC ch).key ≠ (F.CAN_CNT_COUNT ch j).key := by
  simp only [F.CAN_STATUS_TEC, F.CAN_CNT_COUNT]
  omega

theorem Node.canBad_tec (n : Node) (ch : Nat) : (n.canBad ch).rd (F.CAN_STATUS_TEC ch) = n.rd (F.CAN_STATUS_TEC ch) :=
  n.canBad_rd (canTec_key ch) (canTec_ne_count ch 2)

include hc hfit

/-- An error in the data of an attempt raises the entry's clash count, TEC and the error count. -/
theorem canError_stays {e : CanErr} (he : e ∈ [CanErr.txDataBit, .txXlFast]) (hs : s.node.canSends ch = true)
    (hx : (s.node.chan ch).txq[(s.node.chan ch).tryAt]? = some x) (ht : s.node.rd (F.CAN_STATUS_TEC ch) ≤ 247) (hf : x.flush = false)
    (hthr : s.node.rd (F.CAN_CTRL_CLASH_THR ch) = 0 ∨ x.clash + 1 < s.node.rd (F.CAN_CTRL_CLASH_THR ch)) :
    Yields (.canError ch e) s (fun t =>
      (t.chan ch).txq = (s.node.chan ch).txq.set (s.node.chan ch).tryAt { x with trying := false, clash := x.clash + 1 } ∧
      t.rd (F.CAN_STATUS_TEC ch) = s.node.rd (F.CAN_STATUS_TEC ch) + 8 ∧
      t.rd (F.CAN_CNT_COUNT ch 2) = min (s.node.rd (F.CAN_CNT_COUNT ch 2) + 1) (2 ^ 32 - 1) ∧ t.fab = s.node.fab) := by
  have herr : s.node.canErr ch e = ((s.node.canBad ch).canEnds ch (some true)).tecUp ch := by
    rw [Node.canErr_on (Node.canOn_of_sends hs)]
    rcases List.mem_pair.1 he with rfl | rfl <;> exact if_pos hs
  have htec : ((s.node.canBad ch).attemptEnded ch x (x.clash + 1)).rd (F.CAN_STATUS_TEC ch) = s.node.rd (F.CAN_STATUS_TEC ch) := s.node.canBad_tec ch
  rw [Node.canEnds_stays (Node.canBad_entry hx) hf (fun _ => by rw [Node.canBad_thr]; exact hthr)] at herr
  change _ = ((s.node.canBad ch).attemptEnded ch x (x.clash + 1)).tecUp ch at herr
  rw [Node.tecUp_low (by rw [htec]; exact ht), htec] at herr
  refine Yields.of_can ((exec_canError s hc e).trans (congrArg s.to herr)) ((s.node.canBad_told ch).trans
    ((Node.attemptEnded_told _ ch x _).trans (.field _ _ (canTec_key ch)))) hfit fun t hfo => ?_
  rw [hfo.bus_rd (canTec_key ch), hfo.bus_rd (canCount_key ch 2), hfo.chan_eq, hfo.fab]
  refine ⟨?_, ?_, ?_, s.node.canBad_fab ch⟩
  · refine (congrArg Chan.txq (Node.attemptEnded_chan _ ch x _)).trans ?_
    rw [Node.canBad_chan]
    rfl
  · rw [Node.rd_wr_same]
    exact Nat.mod_eq_of_lt (by simp only [F.CAN_STATUS_TEC] at ht ⊢; omega)
  · rw [Node.rd_wr_ne _ _ (canTec_ne_count ch 2).symm]
    exact s.node.canBad_count ch

/-- At the clash threshold the entry is abandoned, counted, shown and recorded. -/
theorem canError_abandons {e : CanErr} (he : e ∈ [CanErr.txDataBit, .txXlFast]) (hs : s.node.canSends ch = true)
    (hx : (s.node.chan ch).txq[(s.node.chan ch).tryAt]? = some x) (ht : s.node.rd (F.CAN_STATUS_TEC ch) ≤ 247)
    (h0 : s.node.rd (F.CAN_CTRL_CLASH_THR ch) ≠ 0) (hthr : s.node.rd (F.CAN_CTRL_CLASH_THR ch) ≤ x.clash + 1) (hid : x.fr.id < 2 ^ 29)
    (hl : s.node.log.staged.length < 60) :
    Yields (.canError ch e) s (fun t => (t.chan ch).txq = (s.node.chan ch).txq.eraseIdx (s.node.chan ch).tryAt ∧
      t.rd (F.CAN_CNT_COUNT ch 7) = min (s.node.rd (F.CAN_CNT_COUNT ch 7) + 1) (2 ^ 32 - 1) ∧ t.on (F.CAN_STATUS_CLASH_EV ch) = true ∧
      t.hasRecord 12 2 (ch * 2 ^ 29 + x.fr.id) ∧ (s.node.on (F.CAN_CLASH_VALID ch) = false →
        t.on (F.CAN_CLASH_VALID ch) = true ∧ t.rd (F.CAN_CLASH_ID ch) = x.fr.id ∧ t.on (F.CAN_CLASH_IDE ch) = x.fr.ide)) := by
  have herr : s.node.canErr ch e = ((s.node.canBad ch).canEnds ch (some true)).tecUp ch := by
    rw [Node.canErr_on (Node.canOn_of_sends hs)]
    rcases List.mem_pair.1 he with rfl | rfl <;> exact if_pos hs
  rw [Node.canEnds_abandons (Node.canBad_entry hx) (by rw [Node.canBad_thr]; exact h0) (by rw [Node.canBad_thr]; exact hthr),
    Node.attemptEnded_abandon (Node.canBad_entry hx)] at herr
  change _ = (((s.node.canBad ch).entryOut ch x).abandoned ch x.fr).tecUp ch at herr
  have hbad : ∀ g : Fld, 32 * 0x10700000 ≤ g.key → g.key ≠ (F.CAN_CNT_COUNT ch 2).key → g.key ≠ (F.CAN_CNT_COUNT ch 6).key →
      ((s.node.canBad ch).entryOut ch x).rd g = s.node.rd g := fun g h1 h2 h3 =>
    (Node.entryOut_rd _ ch x h3).trans (s.node.canBad_rd h1 h2)
  have htec : (((s.node.canBad ch).entryOut ch x).abandoned ch x.fr).rd (F.CAN_STATUS_TEC ch) = s.node.rd (F.CAN_STATUS_TEC ch) := by
    rw [Node.abandoned, Node.fault_rd _ _ _ _ _ (by simp only [F.CAN_STATUS_TEC, F.MGT_FAULT_SOURCE]; omega),
      Node.clashShown_rd _ _ _ (by simp only [F.CAN_STATUS_TEC, F.CAN_CLASH_VALID]; omega)
        (by simp only [F.CAN_STATUS_TEC, F.CAN_CLASH_IDE]; omega) (by simp only [F.CAN_STATUS_TEC, F.CAN_CLASH_ID]; omega),
      Node.rd_put_ne _ _ (by simp only [F.CAN_STATUS_TEC, F.CAN_STATUS_CLASH_EV]; omega), Node.rd_inc_ne _ (canTec_ne_count ch 7)]
    exact hbad _ (canTec_key ch) (canTec_ne_count ch 2) (canTec_ne_count ch 6)
  rw [Node.tecUp_low (by rw [htec]; exact ht), htec] at herr
  have hstaged : ((s.node.canBad ch).entryOut ch x).log.staged.length < 64 := by
    rw [Node.entryOut_log]
    have := s.node.canBad_staged ch
    omega
  obtain ⟨hcnt, hev, hrec, hfirst⟩ := Node.abandoned_shows (n := (s.node.canBad ch).entryOut ch x) (ch := ch) hid hstaged
  refine Yields.of_can ((exec_canError s hc e).trans (congrArg s.to herr)) ((s.node.canBad_told ch).trans
    ((Node.entryOut_told _ ch x).trans ((Node.abandoned_told _ ch x.fr).trans (.field _ _ (canTec_key ch))))) hfit fun t hfo => ?_
  have hon : ∀ g : Fld, 32 * 0x10700000 ≤ g.key → g.key ≠ (F.CAN_STATUS_TEC ch).key →
      t.rd g = (((s.node.canBad ch).entryOut ch x).abandoned ch x.fr).rd g := fun g h1 h2 =>
    (hfo.bus_rd h1).trans (Node.rd_wr_ne _ _ h2)
  refine ⟨?_, ?_, ?_, hfo.records _ _ _ hrec, fun hv => ?_⟩
  · rw [hfo.chan_eq]
    refine (congrArg Chan.txq (Node.abandoned_chan _ ch x.fr ch)).trans ?_
    rw [Node.entryOut_chan, Node.canBad_chan]
    rfl
  · rw [hon _ (canCount_key ch 7) (canTec_ne_count ch 7).symm, hcnt]
    rw [hbad _ (canCount_key ch 7) (by simp only [F.CAN_CNT_COUNT]; omega) (by simp only [F.CAN_CNT_COUNT]; omega)]
  · rw [Node.on, hon _ (by simp only [F.CAN_STATUS_CLASH_EV]; omega) (by simp only [F.CAN_STATUS_CLASH_EV, F.CAN_STATUS_TEC]; omega)]
    exact hev
  · have hv' : ((s.node.canBad ch).entryOut ch x).on (F.CAN_CLASH_VALID ch) = false := by
      rw [Node.on, hbad _ (by simp only [F.CAN_CLASH_VALID]; omega) (by simp only [F.CAN_CLASH_VALID, F.CAN_CNT_COUNT]; omega)
        (by simp only [F.CAN_CLASH_VALID, F.CAN_CNT_COUNT]; omega)]
      exact hv
    obtain ⟨h1, h2, h3⟩ := hfirst hv'
    refine ⟨?_, ?_, ?_⟩
    · rw [Node.on, hon _ (by simp only [F.CAN_CLASH_VALID]; omega) (by simp only [F.CAN_CLASH_VALID, F.CAN_STATUS_TEC]; omega)]
      exact h1
    · rw [hon _ (by simp only [F.CAN_CLASH_ID]; omega) (by simp only [F.CAN_CLASH_ID, F.CAN_STATUS_TEC]; omega), h2]
    · rw [Node.on, hon _ (by simp only [F.CAN_CLASH_IDE]; omega) (by simp only [F.CAN_CLASH_IDE, F.CAN_STATUS_TEC]; omega)]
      exact h3

/-- Above 255 the channel goes to bus-off, its queue kept. -/
theorem canError_busOff (hs : s.node.canSends ch = true) (hx : (s.node.chan ch).txq[(s.node.chan ch).tryAt]? = some x)
    (ht : 247 < s.node.rd (F.CAN_STATUS_TEC ch)) (hf : x.flush = false) (hl : s.node.log.staged.length < 60) :
    Yields (.canError ch .txOther) s (fun t =>
      (t.chan ch).busOff = true ∧ (t.chan ch).recovering = false ∧
      (t.chan ch).txq = (s.node.chan ch).txq.set (s.node.chan ch).tryAt { x with trying := false, clash := 0 } ∧
      t.on (F.CAN_STATUS_BUSOFF_EV ch) = true ∧ t.rd (F.CAN_CNT_COUNT ch 3) = min (s.node.rd (F.CAN_CNT_COUNT ch 3) + 1) (2 ^ 32 - 1) ∧
      t.hasRecord 12 1 (ch * 2 ^ 29)) := by
  have herr : s.node.canErr ch .txOther = ((s.node.canBad ch).canEnds ch (some false)).tecUp ch := by
    rw [Node.canErr_on (Node.canOn_of_sends hs)]
    exact if_pos hs
  have htec : ((s.node.canBad ch).attemptEnded ch x 0).rd (F.CAN_STATUS_TEC ch) = s.node.rd (F.CAN_STATUS_TEC ch) := s.node.canBad_tec ch
  rw [Node.canEnds_stays (Node.canBad_entry hx) hf (by simp)] at herr
  change _ = ((s.node.canBad ch).attemptEnded ch x 0).tecUp ch at herr
  rw [Node.tecUp_high (by rw [htec]; exact ht)] at herr
  have hstaged : (((s.node.canBad ch).attemptEnded ch x 0).wr (F.CAN_STATUS_TEC ch) 256).log.staged.length < 64 := by
    have := s.node.canBad_staged ch
    show (s.node.canBad ch).log.staged.length < 64
    omega
  obtain ⟨hchan, hev, hcnt, hrec⟩ := Node.canBusOff_shows (((s.node.canBad ch).attemptEnded ch x 0).wr (F.CAN_STATUS_TEC ch) 256) ch hstaged
  have hold : (((s.node.canBad ch).attemptEnded ch x 0).wr (F.CAN_STATUS_TEC ch) 256).chan ch =
      { s.node.chan ch with joining := false, txq := (s.node.chan ch).txq.set (s.node.chan ch).tryAt { x with trying := false, clash := 0 } } := by
    refine (Node.attemptEnded_chan _ ch x 0).trans ?_
    rw [Node.canBad_chan]
    rfl
  rw [hold] at hchan
  refine Yields.of_can ((exec_canError s hc _).trans (congrArg s.to herr)) ((s.node.canBad_told ch).trans
    ((Node.attemptEnded_told _ ch x _).trans ((CanTold.field _ _ (canTec_key ch)).trans (Node.canBusOff_told _ ch)))) hfit fun t hfo => ?_
  rw [hfo.chan_eq, hchan, Node.on, hfo.bus_rd (f := F.CAN_STATUS_BUSOFF_EV ch) (by simp only [F.CAN_STATUS_BUSOFF_EV]; omega),
    hfo.bus_rd (canCount_key ch 3), hcnt]
  refine ⟨rfl, rfl, rfl, hev, ?_, hfo.records _ _ _ hrec⟩
  rw [Node.rd_wr_ne _ _ (canTec_ne_count ch 3).symm]
  exact congrArg (fun v => min (v + 1) (2 ^ 32 - 1)) (s.node.canBad_rd (canCount_key ch 3) (by simp only [F.CAN_CNT_COUNT]; omega))

/-- A lost arbitration takes a flushed entry out. -/
theorem canError_flushed (hs : s.node.canSends ch = true) (hx : (s.node.chan ch).txq[(s.node.chan ch).tryAt]? = some x) (hf : x.flush = true) :
    Yields (.canError ch .txArbLost) s (fun t => (t.chan ch).txq = (s.node.chan ch).txq.eraseIdx (s.node.chan ch).tryAt ∧
      t.rd (F.CAN_CNT_COUNT ch 6) = min (s.node.rd (F.CAN_CNT_COUNT ch 6) + 1) (2 ^ 32 - 1)) := by
  have herr : s.node.canErr ch .txArbLost = (s.node.canJoined ch).canEnds ch none := by
    rw [Node.canErr_on (Node.canOn_of_sends hs)]
    exact if_pos hs
  rw [Node.canEnds_flushed (Node.canJoined_entry hx) hf (by decide)] at herr
  refine Yields.of_can ((exec_canError s hc _).trans (congrArg s.to herr)) ((CanTold.setChan _ ch _).trans
    ((Node.entryGone_told _ ch x).trans (.field _ _ (canCount_key ch 6)))) hfit fun t hfo => ?_
  rw [hfo.chan_eq, hfo.bus_rd (canCount_key ch 6), Node.rd_inc_same, Node.entryGone_rd]
  refine ⟨?_, rfl⟩
  refine (congrArg Chan.txq (Node.entryGone_chan _ ch x)).trans ?_
  rw [Node.canJoined_chan]
  rfl

/-- What has been sent leaves the queue, counted, and lowers TEC. -/
theorem canSent_leaves (hs : s.node.canSends ch = true) (hloop : s.node.on (F.CAN_CTRL_LOOP ch) = false)
    (hx : (s.node.chan ch).txq[(s.node.chan ch).tryAt]? = some x) :
    Yields (.canTxSuccess ch) s (fun t =>
      Output.can ch { x.fr with esi := s.node.canPassive ch, sec := false, vcid := 0 } ∈ t.out ∧
      (t.chan ch).txq = (s.node.chan ch).txq.eraseIdx (s.node.chan ch).tryAt ∧
      t.rd (F.CAN_CNT_COUNT ch 0) = min (s.node.rd (F.CAN_CNT_COUNT ch 0) + 1) (2 ^ 32 - 1) ∧
      (x.flush = true → t.rd (F.CAN_CNT_COUNT ch 6) = min (s.node.rd (F.CAN_CNT_COUNT ch 6) + 1) (2 ^ 32 - 1)) ∧
      (s.node.rd (F.CAN_STATUS_TEC ch) < 2 ^ 9 → t.rd (F.CAN_STATUS_TEC ch) = s.node.rd (F.CAN_STATUS_TEC ch) - 1)) := by
  have hentry := Node.canJoined_entry hx
  have hsent : s.node.canSent ch = Node.emit (((((s.node.canJoined ch).canRemove ch (s.node.chan ch).tryAt).inc (F.CAN_CNT_COUNT ch 0)).wr
      (F.CAN_STATUS_TEC ch) ((((s.node.canJoined ch).canRemove ch (s.node.chan ch).tryAt).inc (F.CAN_CNT_COUNT ch 0)).rd (F.CAN_STATUS_TEC ch) - 1)))
      (.can ch { x.fr with esi := s.node.canPassive ch, sec := false, vcid := 0 }) := by
    have hl : (s.node.canJoined ch).on (F.CAN_CTRL_LOOP ch) = false := hloop
    have hnot : ¬ ((!s.node.canSends ch) = true) := by simp [hs]
    have htry : ((s.node.canJoined ch).chan ch).tryAt = (s.node.chan ch).tryAt := by rw [Node.canJoined_chan]; rfl
    rw [htry] at hentry
    unfold Node.canSent
    rw [if_neg hnot]
    simp only [htry, hentry, hl, Bool.false_eq_true, if_false]
    rfl
  have hgone : (s.node.canJoined ch).canRemove ch (s.node.chan ch).tryAt = (s.node.canJoined ch).entryOut ch x := by
    have htry : ((s.node.canJoined ch).chan ch).tryAt = (s.node.chan ch).tryAt := by rw [Node.canJoined_chan]; rfl
    have h := hentry
    rw [htry] at h
    rw [Node.canRemove_entry h, Node.entryOut, Node.entryGone, htry]
  rw [hgone] at hsent
  refine Yields.of_can ((exec_canTxSuccess s hc).trans (congrArg s.to hsent)) ((CanTold.setChan _ ch _).trans
    ((Node.entryOut_told _ ch x).trans ((CanTold.field _ _ (canCount_key ch 0)).trans ((CanTold.field _ _ (canTec_key ch)).trans (.emit _ _))))) hfit
    fun t hfo => ?_
  obtain ⟨l, hout⟩ := hfo.out
  rw [hfo.chan_eq, hfo.bus_rd (canCount_key ch 0), hfo.bus_rd (canCount_key ch 6), hfo.bus_rd (canTec_key ch), hout]
  have hz6 : (F.CAN_CNT_COUNT ch 0).key ≠ (F.CAN_CNT_COUNT ch 6).key := by simp only [F.CAN_CNT_COUNT]; omega
  refine ⟨List.mem_append_right _ (List.mem_cons_self ..), ?_, ?_, fun hf => ?_, fun ht => ?_⟩
  · refine (congrArg Chan.txq (Node.entryOut_chan _ ch x)).trans ?_
    rw [Node.canJoined_chan]
    rfl
  · refine (Node.rd_wr_ne _ _ (canTec_ne_count ch 0).symm).trans ?_
    rw [Node.rd_inc_same, Node.entryOut_rd _ _ _ hz6]
    rfl
  · refine (Node.rd_wr_ne _ _ (canTec_ne_count ch 6).symm).trans ?_
    rw [Node.rd_inc_ne _ hz6.symm]
    exact Node.entryOut_flush hf
  · refine (Node.rd_wr_same _ _ _).trans ?_
    rw [Node.rd_inc_ne _ (canTec_ne_count ch 0), Node.entryOut_rd _ _ _ (canTec_ne_count ch 6)]
    show (s.node.rd (F.CAN_STATUS_TEC ch) - 1) % 2 ^ 9 = _
    exact Nat.mod_eq_of_lt (by omega)

end Attempt

end Sys2Proof.Machine
end

section
/-! PROOF. Commands and the control register of a CAN channel (10 R353, R356, R362, R365, R375). -/

namespace Sys2Proof.Machine

open Sys2Proof

variable {n : Node} {ch : Nat}

theorem bitsOf_bit (v i : Nat) : bitsOf v i i = b2n (bitOf v i) := by
  have h : v / 2 ^ i % 2 < 2 := Nat.mod_lt _ (by decide)
  unfold bitsOf bitOf b2n
  rw [show i + 1 - i = 1 by omega, Nat.pow_one]
  interval_cases v / 2 ^ i % 2 <;> rfl

/-! ### RECOVER, FLUSH_TX and RXACK (10 R353, R362, R365) -/

/-- An attempt of the head may have started, where none is on the bus. -/
theorem Node.canStarts_told (n : Node) (ch : Nat) : CanTold n (n.canStarts ch) := by
  unfold Node.canStarts
  dsimp only
  split
  · exact .refl n
  · split
    · exact (CanTold.takesFree n _).trans (.setChan _ _ _)
    · exact .takesFree n _

theorem Node.canStarts_regs (n : Node) (ch : Nat) : (n.canStarts ch).regs = n.regs := by
  unfold Node.canStarts Node.free
  dsimp only
  split
  · rfl
  · split <;> rfl

theorem Node.canStarts_txq (n : Node) (ch : Nat) :
    (((n.canStarts ch).chan ch).txq = (n.chan ch).txq ∨
      ((n.canStarts ch).chan ch).txq = (n.chan ch).txq.modify 0 (fun x => { x with trying := true })) ∧
    (n.canSends ch = false ∨ (n.chan ch).txq.any (fun x => x.trying) = true → ((n.canStarts ch).chan ch).txq = (n.chan ch).txq) := by
  unfold Node.canStarts
  dsimp only
  split
  · exact ⟨.inl rfl, fun _ => rfl⟩
  · rename_i hno
    refine ⟨?_, fun h => absurd (by rcases h with h | h <;> simp [h]) hno⟩
    split
    · exact .inr (by rw [Node.chan_setChan_same])
    · exact .inl rfl

/-- Entries that go are counted, and their cells go back. -/
def Node.flushed (n : Node) (ch : Nat) (l : List CanTx) : Node :=
  l.foldl (fun a x => (a.returnCells x.cells).inc (F.CAN_CNT_COUNT ch 6)) n

theorem Node.flushed_told (n : Node) (ch : Nat) (l : List CanTx) : CanTold n (n.flushed ch l) :=
  CanTold.foldl (fun _ _ => (CanTold.returnCells _ _).trans (.field _ _ (canCount_key ch 6))) l n

theorem Node.flushed_chan (n : Node) (ch : Nat) (l : List CanTx) (k : Nat) : (n.flushed ch l).chan k = n.chan k := by
  unfold Node.flushed
  induction l generalizing n with
  | nil => rfl
  | cons x l ih => exact (ih _).trans (Node.returnCells_chan n x.cells k)

/-- The count rises by one for each of them, and stays at its limit. -/
theorem Node.flushed_count (ch : Nat) (l : List CanTx) (n : Node) (h : n.rd (F.CAN_CNT_COUNT ch 6) < 2 ^ 32) :
    (n.flushed ch l).rd (F.CAN_CNT_COUNT ch 6) = min (n.rd (F.CAN_CNT_COUNT ch 6) + l.length) (2 ^ 32 - 1) := by
  unfold Node.flushed
  induction l generalizing n with
  | nil =>
    show n.rd (F.CAN_CNT_COUNT ch 6) = min (n.rd (F.CAN_CNT_COUNT ch 6)) _
    omega
  | cons x l ih =>
    have hone : ((n.returnCells x.cells).inc (F.CAN_CNT_COUNT ch 6)).rd (F.CAN_CNT_COUNT ch 6) =
        min (n.rd (F.CAN_CNT_COUNT ch 6) + 1) (2 ^ 32 - 1) := by
      rw [Node.rd_inc_same, Node.returnCells_rd]
      rfl
    rw [List.foldl_cons, ih _ (by rw [hone]; omega), hone, List.length_cons]
    omega

theorem Node.canFlush_eq (n : Node) (ch : Nat) :
    n.canFlush ch = ((n.canStarts ch).setChan ch { (n.canStarts ch).chan ch with
      txq := (((n.canStarts ch).chan ch).txq.filter (·.trying)).map (fun x => { x with flush := true }) }).flushed ch
        (((n.canStarts ch).chan ch).txq.filter (fun x => !x.trying)) := rfl

/-- Entries acknowledged one by one, in the order of the queue. -/
theorem acknowledged (ch : Nat) (pre rest : List FbEntry) (n : Node) (h : (n.chan ch).rx = pre ++ rest)
    (hid : ((n.chan ch).rx.map (fun e => e.id)).Nodup) :
    (((pre.map (fun e => e.id)).foldl (fun a id => a.ackEntry ch id) n).chan ch).rx = rest ∧
    (((pre.map (fun e => e.id)).foldl (fun a id => a.ackEntry ch id) n).chan ch).returning = (n.chan ch).returning + pre.length ∧
    CanTold n ((pre.map (fun e => e.id)).foldl (fun a id => a.ackEntry ch id) n) := by
  induction pre generalizing n with
  | nil => exact ⟨h, rfl, .refl n⟩
  | cons x pre ih =>
    rw [h, List.cons_append, List.map_cons, List.nodup_cons] at hid
    obtain ⟨hx, hnd⟩ := hid
    have hne : ∀ y ∈ pre ++ rest, (y.id != x.id) = true := fun y hy => bne_iff_ne.2 fun he => hx (he ▸ List.mem_map_of_mem hy)
    have hack : n.ackEntry ch x.id =
        (n.setChan ch { n.chan ch with rx := pre ++ rest, returning := (n.chan ch).returning + 1 }).returnCells x.cells := by
      have hfind : (n.chan ch).rx.find? (fun y => y.id == x.id) = some x := by
        rw [h]
        exact List.find?_cons_of_pos (beq_self_eq_true x.id)
      have hfilter : (n.chan ch).rx.filter (fun y => y.id != x.id) = pre ++ rest := by
        rw [h, List.cons_append, List.filter_cons_of_neg (by simp)]
        exact List.filter_eq_self.2 hne
      simp only [Node.ackEntry, hfind, hfilter]
    have hchan : (n.ackEntry ch x.id).chan ch = { n.chan ch with rx := pre ++ rest, returning := (n.chan ch).returning + 1 } := by
      rw [hack, Node.returnCells_chan]
      exact Node.chan_setChan_same n ch _
    obtain ⟨h1, h2, h3⟩ := ih (n.ackEntry ch x.id) (by rw [hchan]) (by rw [hchan]; exact hnd)
    refine ⟨h1, h2.trans ?_, CanTold.trans ?_ h3⟩
    · rw [hchan, List.length_cons]
      show (n.chan ch).returning + 1 + pre.length = _
      omega
    · rw [hack]
      exact (CanTold.setChan n ch _).trans (.returnCells _ _)

/-- Where no activation holds an entry, RXACK takes the oldest. -/
theorem Node.rxAck_oldest {k : Nat} (hid : ((n.chan ch).rx.map (fun e => e.id)).Nodup) (hh : ∀ e ∈ (n.chan ch).rx, e.held = false) :
    ((n.rxAck ch k).chan ch).rx = (n.chan ch).rx.drop k ∧
    ((n.rxAck ch k).chan ch).returning = (n.chan ch).returning + min k (n.chan ch).rx.length ∧ CanTold n (n.rxAck ch k) := by
  have hwait : (n.chan ch).waiting = (n.chan ch).rx := List.filter_eq_self.2 fun e he => by simp [hh e he]
  have h := acknowledged ch ((n.chan ch).rx.take k) ((n.chan ch).rx.drop k) n (List.take_append_drop k _).symm hid
  rw [List.length_take] at h
  unfold Node.rxAck
  rw [hwait]
  exact h

/-! ### The command register -/

section Command

variable {s : State} {x : Master} (hc : ch < 8)
include hc

theorem canCmd_reg : regAt (Reg.CAN_CMD ch).addr = some (.CAN_CMD ch) ∧ targetOf (Reg.CAN_CMD ch).addr = some .regs := by
  interval_cases ch <;> exact ⟨rfl, rfl⟩

theorem canCtrl_reg : regAt (Reg.CAN_CTRL ch).addr = some (.CAN_CTRL ch) ∧ targetOf (Reg.CAN_CTRL ch).addr = some .regs := by
  interval_cases ch <;> exact ⟨rfl, rfl⟩

/-- A command of the channel runs, and its master is answered. -/
theorem Node.bus_canCmd {c k : Nat} (h1 : 1 ≤ c) (h3 : c ≤ 3) (h : RegPasses n x (.CAN_CMD ch) (c + 256 * k)) (hk : k < 256) :
    n.bus (wordWrite x (Reg.CAN_CMD ch).addr (c + 256 * k)) = (none, ((n.leased x).canCmd ch c k).emit (.resp x true 0)) := by
  have hmod : (c + 256 * k) % 16 = c := by omega
  have hcmd : cmdOf (.CAN_CMD ch) (c + 256 * k) = c := by
    simp only [cmdOf, hmod, if_pos h3]
  have hbits : bitsOf ((c + 256 * k) % 2 ^ 32) 15 8 = k := by
    show (c + 256 * k) % 2 ^ 32 / 2 ^ 8 % 2 ^ 8 = k
    omega
  obtain ⟨hreg, htarget⟩ := canCmd_reg hc
  have hbus := Node.bus_command h hreg htarget (addr_aligned _) (by rw [hcmd]; omega)
  rw [hcmd] at hbus
  refine hbus.trans ?_
  show (none, Node.emit (Node.canCmd (n.leased x) ch c (bitsOf ((c + 256 * k) % 2 ^ 32) 15 8)) _) = _
  rw [hbits]

theorem exec_canCmd {c k : Nat} (h1 : 1 ≤ c) (h3 : c ≤ 3) (h : RegPasses s.node x (.CAN_CMD ch) (c + 256 * k)) (hk : k < 256) :
    s.toBus (s.node.bus (wordWrite x (Reg.CAN_CMD ch).addr (c + 256 * k))) =
      s.to (((s.node.leased x).canCmd ch c k).emit (.resp x true 0)) := by
  rw [Node.bus_canCmd hc h1 h3 h hk]
  rfl

end Command

/-! ### The control register (10 R356, R375) -/

/-- CLASH_THR as a write of the control register sets it. -/
def clashThr (v : Nat) : Nat := if bitsOf v 21 16 = 1 then 2 else min (bitsOf v 21 16) 32

/-- The fields a write of the control register sets where EN is 0. -/
def Node.ctrlSet (n : Node) (ch v : Nat) : Node :=
  n.wrs [(F.CAN_CTRL_TERM ch, b2n (bitOf v 28)), (F.CAN_CTRL_CLASH_THR ch, clashThr v), (F.CAN_CTRL_LISTEN ch, b2n (bitOf v 30)),
    (F.CAN_CTRL_LOOP ch, b2n (bitOf v 29)), (F.CAN_CTRL_FD_EN ch, b2n (bitOf v 25)), (F.CAN_CTRL_XL_EN ch, b2n (bitOf v 24))]

/-- The transceiver's mode as a write sets it: 3 leaves it. -/
def Node.xcvrSet (n : Node) (ch v : Nat) : Node :=
  if bitsOf v 27 26 = 3 then n else n.wr (F.CAN_CTRL_XCVR ch) (bitsOf v 27 26)

/-- A write that sets EN. -/
theorem Node.canCtrl_sets {v : Nat} (h0 : n.on (F.CAN_CTRL_EN ch) = false) (h1 : bitOf v 31 = true) :
    n.canCtrl ch v =
      if ((n.ctrlSet ch v).xcvrSet ch v).canCfgOk ch (((n.ctrlSet ch v).xcvrSet ch v).rd (F.CAN_CTRL_XCVR ch))
          (((n.ctrlSet ch v).xcvrSet ch v).on (F.CAN_CTRL_FD_EN ch)) (((n.ctrlSet ch v).xcvrSet ch v).on (F.CAN_CTRL_XL_EN ch)) then
        (((n.ctrlSet ch v).xcvrSet ch v).put (F.CAN_CTRL_EN ch) true).setChan ch
          { ((n.ctrlSet ch v).xcvrSet ch v).chan ch with joining := true }
      else ((n.ctrlSet ch v).xcvrSet ch v).put (F.CAN_STATUS_CFG_ERR ch) true := by
  simp only [Node.canCtrl, h0, h1, Bool.false_eq_true, if_false, if_true, bitsOf_bit]
  rfl

/-- A write of a field of the channel's control register. -/
def CtrlKey (ch k : Nat) : Prop := 32 * (0x10700000 + 0x10000 * ch) ≤ k ∧ k < 32 * (0x10700000 + 0x10000 * ch) + 32

theorem Node.ctrlSet_rd (n : Node) (ch v : Nat) {f : Fld} (h : ¬ CtrlKey ch f.key) : (n.ctrlSet ch v).rd f = n.rd f := by
  refine Node.rd_wrs_ne n _ fun e he => ?_
  rintro heq
  refine h ?_
  rw [heq]
  simp only [List.mem_cons, List.not_mem_nil, or_false] at he
  rcases he with rfl | rfl | rfl | rfl | rfl | rfl <;>
    simp only [CtrlKey, F.CAN_CTRL_TERM, F.CAN_CTRL_CLASH_THR, F.CAN_CTRL_LISTEN, F.CAN_CTRL_LOOP, F.CAN_CTRL_FD_EN, F.CAN_CTRL_XL_EN] <;> omega

theorem Node.xcvrSet_rd (n : Node) (ch v : Nat) {f : Fld} (h : f.key ≠ (F.CAN_CTRL_XCVR ch).key) : (n.xcvrSet ch v).rd f = n.rd f := by
  unfold Node.xcvrSet
  split
  · rfl
  · exact Node.rd_wr_ne n _ h

theorem Node.xcvrSet_mode (n : Node) (ch v : Nat) :
    (n.xcvrSet ch v).rd (F.CAN_CTRL_XCVR ch) = if bitsOf v 27 26 = 3 then n.rd (F.CAN_CTRL_XCVR ch) else bitsOf v 27 26 := by
  unfold Node.xcvrSet
  split
  · rfl
  · rw [Node.rd_wr_same]
    exact Nat.mod_eq_of_lt (Nat.mod_lt _ (by decide))

theorem clashThr_lt (v : Nat) : clashThr v < 2 ^ 6 := by
  unfold clashThr
  split <;> omega

/-- What each field of the control register reads after the write. -/
theorem Node.ctrlSet_fields (n : Node) (ch v : Nat) :
    (n.ctrlSet ch v).on (F.CAN_CTRL_TERM ch) = bitOf v 28 ∧ (n.ctrlSet ch v).rd (F.CAN_CTRL_CLASH_THR ch) = clashThr v ∧
    (n.ctrlSet ch v).on (F.CAN_CTRL_LISTEN ch) = bitOf v 30 ∧ (n.ctrlSet ch v).on (F.CAN_CTRL_LOOP ch) = bitOf v 29 ∧
    (n.ctrlSet ch v).on (F.CAN_CTRL_FD_EN ch) = bitOf v 25 ∧ (n.ctrlSet ch v).on (F.CAN_CTRL_XL_EN ch) = bitOf v 24 ∧
    (n.ctrlSet ch v).on (F.CAN_CTRL_EN ch) = n.on (F.CAN_CTRL_EN ch) ∧
    (n.ctrlSet ch v).rd (F.CAN_CTRL_XCVR ch) = n.rd (F.CAN_CTRL_XCVR ch) := by
  have hthr : clashThr v % 2 ^ (F.CAN_CTRL_CLASH_THR ch).w = clashThr v := Nat.mod_eq_of_lt (clashThr_lt v)
  have hput : ∀ (m : Node) (f : Fld) (b : Bool), m.wr f (b2n b) = m.put f b := fun _ _ _ => rfl
  unfold Node.ctrlSet
  simp only [Node.wrs, List.foldl_cons, List.foldl_nil, hput]
  refine ⟨?_, ?_, ?_, ?_, ?_, ?_, ?_, ?_⟩
  · rw [Node.on_put_ne, Node.on_put_ne, Node.on_put_ne, Node.on_put_ne, Node.on_wr_ne, Node.on_put_same _ _ _ rfl] <;>
      simp only [F.CAN_CTRL_TERM, F.CAN_CTRL_CLASH_THR, F.CAN_CTRL_LISTEN, F.CAN_CTRL_LOOP, F.CAN_CTRL_FD_EN, F.CAN_CTRL_XL_EN] <;> omega
  · rw [Node.rd_put_ne, Node.rd_put_ne, Node.rd_put_ne, Node.rd_put_ne, Node.rd_wr_same, hthr] <;>
      simp only [F.CAN_CTRL_CLASH_THR, F.CAN_CTRL_LISTEN, F.CAN_CTRL_LOOP, F.CAN_CTRL_FD_EN, F.CAN_CTRL_XL_EN] <;> omega
  · rw [Node.on_put_ne, Node.on_put_ne, Node.on_put_ne, Node.on_put_same _ _ _ rfl] <;>
      simp only [F.CAN_CTRL_LISTEN, F.CAN_CTRL_LOOP, F.CAN_CTRL_FD_EN, F.CAN_CTRL_XL_EN] <;> omega
  · rw [Node.on_put_ne, Node.on_put_ne, Node.on_put_same _ _ _ rfl] <;>
      simp only [F.CAN_CTRL_LOOP, F.CAN_CTRL_FD_EN, F.CAN_CTRL_XL_EN] <;> omega
  · rw [Node.on_put_ne, Node.on_put_same _ _ _ rfl]
    simp only [F.CAN_CTRL_FD_EN, F.CAN_CTRL_XL_EN]
    omega
  · exact Node.on_put_same _ _ _ rfl
  · rw [Node.on_put_ne, Node.on_put_ne, Node.on_put_ne, Node.on_put_ne, Node.on_wr_ne, Node.on_put_ne] <;>
      simp only [F.CAN_CTRL_EN, F.CAN_CTRL_TERM, F.CAN_CTRL_CLASH_THR, F.CAN_CTRL_LISTEN, F.CAN_CTRL_LOOP, F.CAN_CTRL_FD_EN, F.CAN_CTRL_XL_EN] <;>
      omega
  · rw [Node.rd_put_ne, Node.rd_put_ne, Node.rd_put_ne, Node.rd_put_ne, Node.rd_wr_ne, Node.rd_put_ne] <;>
      simp only [F.CAN_CTRL_XCVR, F.CAN_CTRL_TERM, F.CAN_CTRL_CLASH_THR, F.CAN_CTRL_LISTEN, F.CAN_CTRL_LOOP, F.CAN_CTRL_FD_EN,
        F.CAN_CTRL_XL_EN] <;> omega

/-- The timing registers alone decide with the mode. -/
theorem Node.canCfgOk_congr {m : Node} (h : ∀ f : Fld, ¬ CtrlKey ch f.key → m.rd f = n.rd f) (mode : Nat) (fd xl : Bool) :
    m.canCfgOk ch mode fd xl = n.canCfgOk ch mode fd xl := by
  have h1 : m.rd (F.CAN_NBT_BRP ch) = n.rd (F.CAN_NBT_BRP ch) := h _ (by simp only [CtrlKey, F.CAN_NBT_BRP]; omega)
  have h2 : m.rd (F.CAN_NBT_TSEG1 ch) = n.rd (F.CAN_NBT_TSEG1 ch) := h _ (by simp only [CtrlKey, F.CAN_NBT_TSEG1]; omega)
  have h3 : m.rd (F.CAN_NBT_TSEG2 ch) = n.rd (F.CAN_NBT_TSEG2 ch) := h _ (by simp only [CtrlKey, F.CAN_NBT_TSEG2]; omega)
  have h4 : m.rd (F.CAN_NBT_SJW ch) = n.rd (F.CAN_NBT_SJW ch) := h _ (by simp only [CtrlKey, F.CAN_NBT_SJW]; omega)
  have h5 : m.rd (F.CAN_DBT_BRP ch) = n.rd (F.CAN_DBT_BRP ch) := h _ (by simp only [CtrlKey, F.CAN_DBT_BRP]; omega)
  have h6 : m.rd (F.CAN_DBT_TSEG1 ch) = n.rd (F.CAN_DBT_TSEG1 ch) := h _ (by simp only [CtrlKey, F.CAN_DBT_TSEG1]; omega)
  have h7 : m.rd (F.CAN_DBT_TSEG2 ch) = n.rd (F.CAN_DBT_TSEG2 ch) := h _ (by simp only [CtrlKey, F.CAN_DBT_TSEG2]; omega)
  have h8 : m.rd (F.CAN_DBT_SJW ch) = n.rd (F.CAN_DBT_SJW ch) := h _ (by simp only [CtrlKey, F.CAN_DBT_SJW]; omega)
  have h9 : m.rd (F.CAN_XBT_BRP ch) = n.rd (F.CAN_XBT_BRP ch) := h _ (by simp only [CtrlKey, F.CAN_XBT_BRP]; omega)
  have h10 : m.rd (F.CAN_XBT_TSEG1 ch) = n.rd (F.CAN_XBT_TSEG1 ch) := h _ (by simp only [CtrlKey, F.CAN_XBT_TSEG1]; omega)
  have h11 : m.rd (F.CAN_XBT_TSEG2 ch) = n.rd (F.CAN_XBT_TSEG2 ch) := h _ (by simp only [CtrlKey, F.CAN_XBT_TSEG2]; omega)
  have h12 : m.rd (F.CAN_XBT_SJW ch) = n.rd (F.CAN_XBT_SJW ch) := h _ (by simp only [CtrlKey, F.CAN_XBT_SJW]; omega)
  simp only [Node.canCfgOk, h1, h2, h3, h4, h5, h6, h7, h8, h9, h10, h11, h12]

/-- The node as a write that sets EN leaves its fields. -/
theorem Node.ctrlGiven_rd (n : Node) (ch v : Nat) {f : Fld} (h : ¬ CtrlKey ch f.key) : ((n.ctrlSet ch v).xcvrSet ch v).rd f = n.rd f := by
  refine (Node.xcvrSet_rd _ ch v fun he => h ?_).trans (n.ctrlSet_rd ch v h)
  rw [he]
  simp only [CtrlKey, F.CAN_CTRL_XCVR]
  omega

theorem CanTold.wrs (n : Node) {l : List (Fld × Nat)} (h : ∀ e ∈ l, 32 * 0x10700000 ≤ e.1.key) : CanTold n (n.wrs l) := by
  induction l generalizing n with
  | nil => exact .refl n
  | cons e l ih =>
    exact (CanTold.field n e.2 (h e (List.mem_cons_self ..))).trans (ih _ fun e he => h e (List.mem_cons_of_mem _ he))

theorem Node.ctrlGiven_told (n : Node) (ch v : Nat) : CanTold n ((n.ctrlSet ch v).xcvrSet ch v) := by
  refine (CanTold.wrs n fun e he => ?_).trans (.ite (.refl _) (.field _ _ ?_))
  · simp only [List.mem_cons, List.not_mem_nil, or_false] at he
    rcases he with rfl | rfl | rfl | rfl | rfl | rfl <;>
      simp only [F.CAN_CTRL_TERM, F.CAN_CTRL_CLASH_THR, F.CAN_CTRL_LISTEN, F.CAN_CTRL_LOOP, F.CAN_CTRL_FD_EN, F.CAN_CTRL_XL_EN] <;> omega
  · simp only [F.CAN_CTRL_XCVR]
    omega

theorem Node.xcvrSet_chans (n : Node) (ch v : Nat) : (n.xcvrSet ch v).chans = n.chans := by
  unfold Node.xcvrSet
  split
  · rfl
  · exact Node.wr_chans n _ _

theorem Node.ctrlGiven_chans (n : Node) (ch v : Nat) : ((n.ctrlSet ch v).xcvrSet ch v).chans = n.chans :=
  (Node.xcvrSet_chans _ ch v).trans (Node.wrs_chans n _)

theorem canEn_key (ch : Nat) : 32 * 0x10700000 ≤ (F.CAN_CTRL_EN ch).key := by simp only [F.CAN_CTRL_EN]; omega
theorem canCfgErr_key (ch : Nat) : 32 * 0x10700000 ≤ (F.CAN_STATUS_CFG_ERR ch).key := by simp only [F.CAN_STATUS_CFG_ERR]; omega

/-- The channel once a write has tried to set EN: enabled and integrating, or with CFG_ERR. -/
def Node.enTried (n : Node) (ch : Nat) (ok : Bool) : Node :=
  if ok then (n.put (F.CAN_CTRL_EN ch) true).setChan ch { n.chan ch with joining := true } else n.put (F.CAN_STATUS_CFG_ERR ch) true

theorem Node.enTried_told (n : Node) (ch : Nat) (ok : Bool) : CanTold n (n.enTried ch ok) :=
  .ite ((CanTold.field n _ (canEn_key ch)).trans (.setChan _ _ _)) (.field n _ (canCfgErr_key ch))

theorem Node.enTried_rd (n : Node) (ch : Nat) (ok : Bool) {f : Fld} (h1 : f.key ≠ (F.CAN_CTRL_EN ch).key)
    (h2 : f.key ≠ (F.CAN_STATUS_CFG_ERR ch).key) : (n.enTried ch ok).rd f = n.rd f := by
  cases ok
  · exact Node.rd_put_ne n true h2
  · exact Node.rd_put_ne n true h1

theorem Node.enTried_shows {ok : Bool} (h : n.on (F.CAN_CTRL_EN ch) = false) :
    (n.enTried ch ok).on (F.CAN_CTRL_EN ch) = ok ∧ (ok = false → (n.enTried ch ok).on (F.CAN_STATUS_CFG_ERR ch) = true) ∧
    (n.enTried ch ok).chan ch = (if ok then { n.chan ch with joining := true } else n.chan ch) ∧
    ∀ q, q ≠ ch → (n.enTried ch ok).chan q = n.chan q := by
  have hne : (F.CAN_CTRL_EN ch).key ≠ (F.CAN_STATUS_CFG_ERR ch).key := by simp only [F.CAN_CTRL_EN, F.CAN_STATUS_CFG_ERR]; omega
  cases ok
  · exact ⟨(Node.on_put_ne n true hne).trans h, fun _ => Node.on_put_same n _ true rfl, rfl, fun _ _ => rfl⟩
  · exact ⟨Node.on_put_same n _ true rfl, fun he => absurd he (by decide), Node.chan_setChan_same _ ch _,
      fun q hq => Node.chan_setChan_ne _ _ hq⟩

/-- The decision on EN rests on the timing registers, the mode and the formats written. -/
theorem Node.canCtrl_tries {v : Nat} (h0 : n.on (F.CAN_CTRL_EN ch) = false) (h1 : bitOf v 31 = true) :
    n.canCtrl ch v = ((n.ctrlSet ch v).xcvrSet ch v).enTried ch
      (n.canCfgOk ch (if bitsOf v 27 26 = 3 then n.rd (F.CAN_CTRL_XCVR ch) else bitsOf v 27 26) (bitOf v 25) (bitOf v 24)) := by
  obtain ⟨-, -, -, -, hfd, hxl, -, hmode⟩ := n.ctrlSet_fields ch v
  have hfd' : ((n.ctrlSet ch v).xcvrSet ch v).on (F.CAN_CTRL_FD_EN ch) = bitOf v 25 := by
    rw [Node.on, Node.xcvrSet_rd _ _ _ (by simp only [F.CAN_CTRL_FD_EN, F.CAN_CTRL_XCVR]; omega)]
    exact hfd
  have hxl' : ((n.ctrlSet ch v).xcvrSet ch v).on (F.CAN_CTRL_XL_EN ch) = bitOf v 24 := by
    rw [Node.on, Node.xcvrSet_rd _ _ _ (by simp only [F.CAN_CTRL_XL_EN, F.CAN_CTRL_XCVR]; omega)]
    exact hxl
  rw [Node.canCtrl_sets h0 h1, Node.canCfgOk_congr fun f hf => n.ctrlGiven_rd ch v hf, Node.xcvrSet_mode, hmode, hfd', hxl']
  rfl

/-- The end of an attempt that is no clash changes the queue of its channel only. -/
theorem Node.canEnds_chan (n : Node) (ch : Nat) :
    (∃ q, (n.canEnds ch (some false)).chan ch = { n.chan ch with txq := q }) ∧ CanTold n (n.canEnds ch (some false)) ∧
    ∀ f : Fld, f.key ≠ (F.CAN_CNT_COUNT ch 6).key → (n.canEnds ch (some false)).rd f = n.rd f := by
  cases hx : (n.chan ch).txq[(n.chan ch).tryAt]? with
  | none =>
    have heq : n.canEnds ch (some false) = n := by simp only [Node.canEnds, hx]
    rw [heq]
    exact ⟨⟨_, rfl⟩, .refl n, fun _ _ => rfl⟩
  | some x =>
    cases hf : x.flush with
    | false =>
      rw [Node.canEnds_stays hx hf (by simp)]
      exact ⟨⟨_, n.attemptEnded_chan ch x _⟩, n.attemptEnded_told ch x _, fun _ _ => rfl⟩
    | true =>
      rw [Node.canEnds_flushed hx hf (by simp)]
      exact ⟨⟨_, n.entryGone_chan ch x⟩, (n.entryGone_told ch x).trans (.field _ _ (canCount_key ch 6)),
        fun f hne => (Node.rd_inc_ne _ hne).trans (n.entryGone_rd ch x f)⟩

/-- The fields a write of the control register sets where EN is 1. -/
def Node.ctrlKept (n : Node) (ch v : Nat) : Node := (n.put (F.CAN_CTRL_TERM ch) (bitOf v 28)).wr (F.CAN_CTRL_CLASH_THR ch) (clashThr v)

theorem Node.ctrlKept_rd (n : Node) (ch v : Nat) {f : Fld} (h1 : f.key ≠ (F.CAN_CTRL_TERM ch).key) (h2 : f.key ≠ (F.CAN_CTRL_CLASH_THR ch).key) :
    (n.ctrlKept ch v).rd f = n.rd f := (Node.rd_wr_ne _ _ h2).trans (Node.rd_put_ne n _ h1)

theorem Node.ctrlKept_told (n : Node) (ch v : Nat) : CanTold n (n.ctrlKept ch v) :=
  (CanTold.field n _ (by simp only [F.CAN_CTRL_TERM]; omega)).trans (.field _ _ (by simp only [F.CAN_CTRL_CLASH_THR]; omega))

/-- The attempt on the bus, if any, ends without a clash. -/
def Node.attemptCut (n : Node) (ch : Nat) : Node := if (n.chan ch).txq.any (·.trying) then n.canEnds ch (some false) else n

/-- The channel once EN has been cleared. -/
def Node.enCleared (n : Node) (ch : Nat) : Node :=
  (n.put (F.CAN_CTRL_EN ch) false).setChan ch { n.chan ch with enGen := (n.chan ch).enGen + 1, recovering := false, joining := false }

/-- A write that clears EN. -/
theorem Node.canCtrl_clears {v : Nat} (h0 : n.on (F.CAN_CTRL_EN ch) = true) (h1 : bitOf v 31 = false) :
    n.canCtrl ch v = ((n.ctrlKept ch v).attemptCut ch).enCleared ch := by
  simp only [Node.canCtrl, h0, h1, Bool.false_eq_true, if_false, if_true]
  rfl

theorem Node.attemptCut_chan (n : Node) (ch : Nat) :
    (∃ q, (n.attemptCut ch).chan ch = { n.chan ch with txq := q }) ∧ CanTold n (n.attemptCut ch) ∧
    ∀ f : Fld, f.key ≠ (F.CAN_CNT_COUNT ch 6).key → (n.attemptCut ch).rd f = n.rd f := by
  unfold Node.attemptCut
  split
  · exact n.canEnds_chan ch
  · exact ⟨⟨_, rfl⟩, .refl n, fun _ _ => rfl⟩

theorem Node.attemptCut_none (h : (n.chan ch).txq.any (fun y => y.trying) = false) : n.attemptCut ch = n := if_neg (by simp [h])

theorem Node.attemptCut_entry {y : CanTx} (hy : (n.chan ch).txq[(n.chan ch).tryAt]? = some y) (ht : y.trying = true) (hf : y.flush = false) :
    ((n.attemptCut ch).chan ch).txq = (n.chan ch).txq.set (n.chan ch).tryAt { y with trying := false, clash := 0 } := by
  have hany : (n.chan ch).txq.any (fun y => y.trying) = true :=
    List.any_eq_true.2 ⟨y, List.mem_of_getElem? hy, ht⟩
  rw [Node.attemptCut, if_pos hany, Node.canEnds_stays hy hf (by simp), Node.attemptEnded_chan]
  rfl

section Enable

variable {s : State} {x : Master} {v : Nat} (hc : ch < 8) (hfit : s.node.fits) (h : RegPasses s.node x (.CAN_CTRL ch) v) (hv : v < 2 ^ 32)
include hc h hv

theorem exec_canEnable : exec (.canEnable x ch v) s = s.to (((s.node.leased x).canCtrl ch v).emit (.resp x true 0)) := by
  have hexec : exec (.canEnable x ch v) s = s.toBus (s.node.bus (wordWrite x (Reg.CAN_CTRL ch).addr v)) := by
    show s.given (decide (ch < 8)) _ = _
    rw [decide_eq_true hc]
    rfl
  obtain ⟨hreg, htarget⟩ := canCtrl_reg hc
  rw [hexec, Node.bus_fields h hreg htarget (addr_aligned _) rfl (.inl rfl), Nat.mod_eq_of_lt hv]
  rfl

include hfit

omit hc h hv in
/-- A command of a master keeps the level, where its effect does. -/
theorem Yields.of_can_leased {c : Instr} {m : Node} {P : Node → Prop} (he : exec c s = s.to m) (hc : CanTold (s.node.leased x) m)
    (hp : ∀ t, Follows m t → P t) : Yields c s P := by
  obtain ⟨lease, hlease⟩ := Node.leased_eq s.node x
  have hsame := hc.sameLevelInputs
  obtain ⟨_, _, _, _, _, _, _, hm⟩ := hc.eq
  rw [hlease] at hsame
  refine Yields.of_calm he ?_ ⟨hsame.1, hsame.2, hsame.3, hsame.4, hsame.5, hsame.6⟩ hfit hp
  rw [hm, hlease]

theorem canEnable_sets (h0 : s.node.on (F.CAN_CTRL_EN ch) = false) (h1 : bitOf v 31 = true) :
    let n := s.node
    let mode := if bitsOf v 27 26 = 3 then n.rd (F.CAN_CTRL_XCVR ch) else bitsOf v 27 26
    let ok := n.canCfgOk ch mode (bitOf v 25) (bitOf v 24)
    Yields (.canEnable x ch v) s (fun t =>
      t.on (F.CAN_CTRL_EN ch) = ok ∧ (ok = false → t.on (F.CAN_STATUS_CFG_ERR ch) = true) ∧ t.rd (F.CAN_CTRL_XCVR ch) = mode ∧
      t.on (F.CAN_CTRL_LISTEN ch) = bitOf v 30 ∧ t.on (F.CAN_CTRL_LOOP ch) = bitOf v 29 ∧ t.on (F.CAN_CTRL_TERM ch) = bitOf v 28 ∧
      t.on (F.CAN_CTRL_FD_EN ch) = bitOf v 25 ∧ t.on (F.CAN_CTRL_XL_EN ch) = bitOf v 24 ∧
      t.rd (F.CAN_CTRL_CLASH_THR ch) = (if bitsOf v 21 16 = 1 then 2 else min (bitsOf v 21 16) 32) ∧
      t.chan ch = (if ok then { n.chan ch with joining := true } else n.chan ch) ∧ ∀ q, q ≠ ch → t.chan q = n.chan q) := by
  intro n mode ok
  obtain ⟨lease, hlease⟩ := Node.leased_eq n x
  have h0' : (n.leased x).on (F.CAN_CTRL_EN ch) = false := by rw [hlease]; exact h0
  have htry : (n.leased x).canCtrl ch v = (((n.leased x).ctrlSet ch v).xcvrSet ch v).enTried ch ok := by
    rw [Node.canCtrl_tries h0' h1, hlease]
    rfl
  have hold : ∀ q, (n.leased x).chan q = n.chan q := fun q => by rw [hlease]; rfl
  have hmode0 : (n.leased x).rd (F.CAN_CTRL_XCVR ch) = n.rd (F.CAN_CTRL_XCVR ch) := by rw [hlease]; rfl
  obtain ⟨hterm, hthr, hlisten, hloop, hfd, hxl, hen, hxcvr⟩ := (n.leased x).ctrlSet_fields ch v
  generalize hm : ((n.leased x).ctrlSet ch v).xcvrSet ch v = m at htry
  have hchan : ∀ q, m.chan q = n.chan q := fun q => by
    rw [← hold q, Node.chan, ← hm, Node.ctrlGiven_chans, Node.chan]
  have htold : CanTold (n.leased x) m := hm ▸ (n.leased x).ctrlGiven_told ch v
  have hrd : ∀ f : Fld, f.key ≠ (F.CAN_CTRL_XCVR ch).key → m.rd f = ((n.leased x).ctrlSet ch v).rd f :=
    fun f hf => hm ▸ Node.xcvrSet_rd _ ch v hf
  have hon : ∀ f : Fld, f.key ≠ (F.CAN_CTRL_XCVR ch).key → m.on f = ((n.leased x).ctrlSet ch v).on f :=
    fun f hf => by rw [Node.on, hrd f hf, Node.on]
  have hmode : m.rd (F.CAN_CTRL_XCVR ch) = mode := by rw [← hm, Node.xcvrSet_mode, hxcvr, hmode0]
  have hen' : m.on (F.CAN_CTRL_EN ch) = false := by
    rw [hon _ (by simp only [F.CAN_CTRL_EN, F.CAN_CTRL_XCVR]; omega), hen]
    exact h0'
  obtain ⟨hs1, hs2, hs3, hs4⟩ := Node.enTried_shows (n := m) (ch := ch) (ok := ok) hen'
  have hexec := exec_canEnable hc h hv
  rw [htry] at hexec
  refine Yields.of_can_leased hfit hexec (htold.trans ((m.enTried_told ch ok).trans (.emit _ _))) fun t hf => ?_
  have hfield : ∀ f : Fld, 32 * 0x10700000 ≤ f.key → t.rd f = (m.enTried ch ok).rd f := fun f hk => hf.bus_rd hk
  have hbit : ∀ f : Fld, 32 * 0x10700000 ≤ f.key → t.on f = (m.enTried ch ok).on f := fun f hk => by rw [Node.on, hfield f hk, Node.on]
  have hkept : ∀ f : Fld, CtrlKey ch f.key → f.key ≠ (F.CAN_CTRL_EN ch).key → t.rd f = m.rd f := by
    intro f hk hne
    have hk' := hk
    unfold CtrlKey at hk'
    rw [hfield f (by omega)]
    refine Node.enTried_rd m ch ok hne ?_
    simp only [F.CAN_STATUS_CFG_ERR]
    omega
  have hkeptOn : ∀ f : Fld, CtrlKey ch f.key → f.key ≠ (F.CAN_CTRL_EN ch).key → f.key ≠ (F.CAN_CTRL_XCVR ch).key →
      t.on f = ((n.leased x).ctrlSet ch v).on f := fun f hk h1 h2 => by rw [Node.on, hkept f hk h1]; exact hon f h2
  refine ⟨?_, fun hno => ?_, ?_, ?_, ?_, ?_, ?_, ?_, ?_, ?_, fun q hq => ?_⟩
  · rw [hbit _ (canEn_key ch), hs1]
  · rw [hbit _ (canCfgErr_key ch), hs2 hno]
  · rw [hkept _ (by simp only [CtrlKey, F.CAN_CTRL_XCVR]; omega) (by simp only [F.CAN_CTRL_XCVR, F.CAN_CTRL_EN]; omega), hmode]
  · rw [hkeptOn _ (by simp only [CtrlKey, F.CAN_CTRL_LISTEN]; omega) (by simp only [F.CAN_CTRL_LISTEN, F.CAN_CTRL_EN]; omega)
      (by simp only [F.CAN_CTRL_LISTEN, F.CAN_CTRL_XCVR]; omega), hlisten]
  · rw [hkeptOn _ (by simp only [CtrlKey, F.CAN_CTRL_LOOP]; omega) (by simp only [F.CAN_CTRL_LOOP, F.CAN_CTRL_EN]; omega)
      (by simp only [F.CAN_CTRL_LOOP, F.CAN_CTRL_XCVR]; omega), hloop]
  · rw [hkeptOn _ (by simp only [CtrlKey, F.CAN_CTRL_TERM]; omega) (by simp only [F.CAN_CTRL_TERM, F.CAN_CTRL_EN]; omega)
      (by simp only [F.CAN_CTRL_TERM, F.CAN_CTRL_XCVR]; omega), hterm]
  · rw [hkeptOn _ (by simp only [CtrlKey, F.CAN_CTRL_FD_EN]; omega) (by simp only [F.CAN_CTRL_FD_EN, F.CAN_CTRL_EN]; omega)
      (by simp only [F.CAN_CTRL_FD_EN, F.CAN_CTRL_XCVR]; omega), hfd]
  · rw [hkeptOn _ (by simp only [CtrlKey, F.CAN_CTRL_XL_EN]; omega) (by simp only [F.CAN_CTRL_XL_EN, F.CAN_CTRL_EN]; omega)
      (by simp only [F.CAN_CTRL_XL_EN, F.CAN_CTRL_XCVR]; omega), hxl]
  · rw [hkept _ (by simp only [CtrlKey, F.CAN_CTRL_CLASH_THR]; omega) (by simp only [F.CAN_CTRL_CLASH_THR, F.CAN_CTRL_EN]; omega),
      hrd _ (by simp only [F.CAN_CTRL_CLASH_THR, F.CAN_CTRL_XCVR]; omega), hthr]
    rfl
  · rw [hf.chan_eq]
    refine (hs3 : ((m.enTried ch ok).emit _).chan ch = _).trans ?_
    rw [hchan]
  · rw [hf.chan_eq]
    exact (hs4 q hq : ((m.enTried ch ok).emit _).chan q = _).trans (hchan q)

/-- Clearing EN keeps the queue, and ends an attempt with its clash count at zero. -/
theorem canEnable_clears (h0 : s.node.on (F.CAN_CTRL_EN ch) = true) (h1 : bitOf v 31 = false) :
    Yields (.canEnable x ch v) s (fun t =>
      t.on (F.CAN_CTRL_EN ch) = false ∧ (t.chan ch).enGen = (s.node.chan ch).enGen + 1 ∧
      ((s.node.chan ch).txq.any (fun y => y.trying) = false → (t.chan ch).txq = (s.node.chan ch).txq) ∧
      (∀ y, (s.node.chan ch).txq[(s.node.chan ch).tryAt]? = some y → y.trying = true → y.flush = false →
        (t.chan ch).txq = (s.node.chan ch).txq.set (s.node.chan ch).tryAt { y with trying := false, clash := 0 }) ∧
      (t.chan ch).joining = false ∧ (t.chan ch).rx = (s.node.chan ch).rx ∧
      t.on (F.CAN_CTRL_LISTEN ch) = s.node.on (F.CAN_CTRL_LISTEN ch) ∧ t.rd (F.CAN_CTRL_XCVR ch) = s.node.rd (F.CAN_CTRL_XCVR ch)) := by
  obtain ⟨lease, hlease⟩ := Node.leased_eq s.node x
  have hclear := Node.canCtrl_clears (n := s.node.leased x) (ch := ch) (by rw [hlease]; exact h0) h1
  have hchan0 : ((s.node.leased x).ctrlKept ch v).chan ch = s.node.chan ch := by rw [hlease]; rfl
  obtain ⟨⟨q, hq⟩, htold, hrd⟩ := Node.attemptCut_chan ((s.node.leased x).ctrlKept ch v) ch
  have hnone : (s.node.chan ch).txq.any (fun y => y.trying) = false →
      (((s.node.leased x).ctrlKept ch v).attemptCut ch).chan ch = s.node.chan ch := fun h => by
    rw [Node.attemptCut_none (by rw [hchan0]; exact h), hchan0]
  have hentry : ∀ y, (s.node.chan ch).txq[(s.node.chan ch).tryAt]? = some y → y.trying = true → y.flush = false →
      ((((s.node.leased x).ctrlKept ch v).attemptCut ch).chan ch).txq =
        (s.node.chan ch).txq.set (s.node.chan ch).tryAt { y with trying := false, clash := 0 } := fun y hy ht hf => by
    rw [Node.attemptCut_entry (by rw [hchan0]; exact hy) ht hf, hchan0]
  rw [hchan0] at hq
  have hkept : ∀ f : Fld, f.key ≠ (F.CAN_CTRL_TERM ch).key → f.key ≠ (F.CAN_CTRL_CLASH_THR ch).key → f.key ≠ (F.CAN_CNT_COUNT ch 6).key →
      (((s.node.leased x).ctrlKept ch v).attemptCut ch).rd f = s.node.rd f := fun f h1 h2 h3 => by
    rw [hrd f h3, Node.ctrlKept_rd _ _ _ h1 h2, hlease]
    rfl
  have hall : CanTold (s.node.leased x) (((s.node.leased x).ctrlKept ch v).attemptCut ch) := (Node.ctrlKept_told _ ch v).trans htold
  generalize ((s.node.leased x).ctrlKept ch v).attemptCut ch = m at hclear hq hnone hentry hkept hall
  have hexec := exec_canEnable hc h hv
  rw [hclear] at hexec
  have hclearedTold : CanTold m (m.enCleared ch) := (CanTold.field m _ (canEn_key ch)).trans (.setChan _ _ _)
  refine Yields.of_can_leased hfit hexec (hall.trans (hclearedTold.trans (.emit _ _))) fun t hf => ?_
  have hchan : t.chan ch = { m.chan ch with enGen := (m.chan ch).enGen + 1, recovering := false, joining := false } :=
    (hf.chan_eq ch).trans (Node.chan_setChan_same _ ch _)
  have hfield : ∀ f : Fld, 32 * 0x10700000 ≤ f.key → f.key ≠ (F.CAN_CTRL_EN ch).key → t.rd f = m.rd f := fun f hk hne =>
    (hf.bus_rd hk).trans (Node.rd_put_ne m false hne)
  rw [hchan]
  refine ⟨?_, ?_, fun hn => ?_, fun y hy ht hfl => hentry y hy ht hfl, rfl, ?_, ?_, ?_⟩
  · rw [Node.on, hf.bus_rd (canEn_key ch)]
    exact Node.on_put_same m _ false rfl
  · rw [hq]
  · rw [hnone hn]
  · rw [hq]
  · rw [Node.on, hfield _ (by simp only [F.CAN_CTRL_LISTEN]; omega) (by simp only [F.CAN_CTRL_LISTEN, F.CAN_CTRL_EN]; omega),
      hkept _ (by simp only [F.CAN_CTRL_LISTEN, F.CAN_CTRL_TERM]; omega) (by simp only [F.CAN_CTRL_LISTEN, F.CAN_CTRL_CLASH_THR]; omega)
        (by simp only [F.CAN_CTRL_LISTEN, F.CAN_CNT_COUNT]; omega), Node.on]
  · rw [hfield _ (by simp only [F.CAN_CTRL_XCVR]; omega) (by simp only [F.CAN_CTRL_XCVR, F.CAN_CTRL_EN]; omega),
      hkept _ (by simp only [F.CAN_CTRL_XCVR, F.CAN_CTRL_TERM]; omega) (by simp only [F.CAN_CTRL_XCVR, F.CAN_CTRL_CLASH_THR]; omega)
        (by simp only [F.CAN_CTRL_XCVR, F.CAN_CNT_COUNT]; omega)]

end Enable

end Sys2Proof.Machine
end

section
/-! PROOF. O57: CAN channels (10 R350 to R367, R375). -/

namespace Sys2Proof.Machine

open Sys2Proof

variable {ch : Nat}

/-- An error counted for the bus raises the count as the statement says. -/
theorem Node.canBad_eq (n : Node) (ch : Nat) : n.canBad ch = ((n.canJoined ch).wr (F.CAN_CNT_COUNT ch 2)
    (min (n.rd (F.CAN_CNT_COUNT ch 2) + 1) (2 ^ 32 - 1))).pviol 17 ch := rfl

theorem Node.canBad_rec (n : Node) (ch : Nat) : (n.canBad ch).rd (F.CAN_STATUS_REC ch) = n.rd (F.CAN_STATUS_REC ch) :=
  n.canBad_rd (canRec_key ch) (canCount_ne_rec ch 2)

/-- What a channel that takes no part sees leaves the node. -/
theorem Node.canErr_off {n : Node} (h : n.canOn ch = false) (e : CanErr) : n.canErr ch e = n := if_pos (by simp [h])

/-- An error of an attempt that the channel does not make shows only that it has integrated. -/
theorem Node.canErr_silent {n : Node} {e : CanErr} (h : n.canOn ch = true) (hs : n.canSends ch = false)
    (he : e ∈ [CanErr.txArbLost, .txDataBit, .txXlFast, .txOther, .txAckPassive, .txStuffArb]) : n.canErr ch e = n.canJoined ch := by
  have hno : ¬ (n.canSends ch = true) := by simp [hs]
  rw [Node.canErr_on h]
  simp only [List.mem_cons, List.not_mem_nil, or_false] at he
  rcases he with rfl | rfl | rfl | rfl | rfl | rfl <;> exact if_neg hno

/-- Errors of reception raise REC by one or by eight. -/
theorem Node.canErr_rx {n : Node} (h : n.canOn ch = true) (hl : n.on (F.CAN_CTRL_LOOP ch) = false) :
    n.canErr ch .rxError = (n.canBad ch).wr (F.CAN_STATUS_REC ch) (min 255 (n.rd (F.CAN_STATUS_REC ch) + 1)) ∧
    ∀ e ∈ [CanErr.rxDominant, .rxFlagBit, .rxFlagDominant],
      n.canErr ch e = (n.canBad ch).wr (F.CAN_STATUS_REC ch) (min 255 (n.rd (F.CAN_STATUS_REC ch) + 8)) := by
  have hno : ¬ (n.on (F.CAN_CTRL_LOOP ch) = true) := by simp [hl]
  have hrec := n.canBad_rec ch
  refine ⟨?_, fun e he => ?_⟩
  · rw [Node.canErr_on h, ← hrec]
    exact if_neg hno
  · rw [Node.canErr_on h, ← hrec]
    simp only [List.mem_cons, List.not_mem_nil, or_false] at he
    rcases he with rfl | rfl | rfl <;> exact if_neg hno

/-- Errors in a flag the channel sends raise TEC by eight. -/
theorem Node.canErr_flag {n : Node} (h : n.canOn ch = true) (hl : n.on (F.CAN_CTRL_LISTEN ch) = false) (ht : n.rd (F.CAN_STATUS_TEC ch) ≤ 247)
    {e : CanErr} (he : e ∈ [CanErr.txFlagBit, .txFlagDominant]) :
    n.canErr ch e = (n.canBad ch).wr (F.CAN_STATUS_TEC ch) (n.rd (F.CAN_STATUS_TEC ch) + 8) := by
  have hno : ¬ (n.on (F.CAN_CTRL_LISTEN ch) = true) := by simp [hl]
  have htec := Node.tecUp_low (n := n.canBad ch) (ch := ch) (by rw [Node.canBad_tec]; exact ht)
  rw [Node.canBad_tec] at htec
  rw [Node.canErr_on h, ← htec]
  rcases List.mem_pair.1 he with rfl | rfl <;> exact if_neg hno

/-- A lost arbitration leaves the entry and its clash count. -/
theorem Node.canErr_arb {n : Node} {x : CanTx} (hs : n.canSends ch = true) (hx : (n.chan ch).txq[(n.chan ch).tryAt]? = some x)
    (hf : x.flush = false) : n.canErr ch .txArbLost = n.setChan ch { n.chan ch with
      joining := false, txq := (n.chan ch).txq.set (n.chan ch).tryAt { x with trying := false, clash := x.clash } } := by
  rw [Node.canErr_on (Node.canOn_of_sends hs)]
  refine (if_pos hs).trans ?_
  rw [Node.canEnds_stays (Node.canJoined_entry hx) hf (by simp), Node.attemptEnded, Node.canJoined_chan, Node.canJoined, Node.setChan_setChan]
  rfl

/-- The recovery count is complete (10 R365). -/
theorem Node.canRecovered_eq {n : Node} (h : (n.chan ch).recovering = true) :
    n.canRecovered ch = (n.setChan ch { n.chan ch with
      busOff := false, recovering := false, joining := false, txq := (n.chan ch).txq.map (fun x => { x with clash := 0 }) }).wrs
      [(F.CAN_STATUS_TEC ch, 0), (F.CAN_STATUS_REC ch, 0)] := by
  unfold Node.canRecovered
  rw [if_pos h]
  rfl

section Commands

variable {s : State} {x : Master} (hc : ch < 8)
include hc

theorem exec_recover (h : RegPasses s.node x (.CAN_CMD ch) 1) :
    exec (.recover x ch) s = s.to (((s.node.leased x).canCmd ch 1 0).emit (.resp x true 0)) := by
  refine Eq.trans ?_ (exec_canCmd (c := 1) (k := 0) hc (by decide) (by decide) h (by decide))
  show s.given (decide (ch < 8)) _ = _
  rw [decide_eq_true hc]
  rfl

theorem exec_flushTx (h : RegPasses s.node x (.CAN_CMD ch) 2) :
    exec (.flushTx x ch) s = s.to (((s.node.leased x).canCmd ch 2 0).emit (.resp x true 0)) := by
  refine Eq.trans ?_ (exec_canCmd (c := 2) (k := 0) hc (by decide) (by decide) h (by decide))
  show s.given (decide (ch < 8)) _ = _
  rw [decide_eq_true hc]
  rfl

theorem exec_rxack {k : Nat} (hk : k < 256) (h : RegPasses s.node x (.CAN_CMD ch) (3 + 256 * k)) :
    exec (.rxack x ch k) s = s.to (((s.node.leased x).canCmd ch 3 k).emit (.resp x true 0)) := by
  refine Eq.trans ?_ (exec_canCmd (c := 3) (k := k) hc (by decide) (by decide) h hk)
  show s.given (decide (ch < 8)) _ = _
  rw [decide_eq_true hc]
  rfl

/-- RECOVER starts the recovery of an enabled channel in bus-off only (10 R365). -/
theorem recover_answered (h : RegPasses s.node x (.CAN_CMD ch) 1) :
    ((s.node.chan ch).busOff = false → Answered (.recover x ch) s x 0 ((s.node.leased x).wr (F.CAN_CMD_RESULT ch) 1)) ∧
    ((s.node.chan ch).busOff = true → (s.node.chan ch).recovering = false → s.node.on (F.CAN_CTRL_EN ch) = false →
      Answered (.recover x ch) s x 0 ((s.node.leased x).wr (F.CAN_CMD_RESULT ch) 1)) ∧
    ((s.node.chan ch).busOff = true → (s.node.chan ch).recovering = false → s.node.on (F.CAN_CTRL_EN ch) = true →
      Answered (.recover x ch) s x 0
        (((s.node.leased x).setChan ch { s.node.chan ch with recovering := true }).wr (F.CAN_CMD_RESULT ch) 0)) := by
  obtain ⟨lease, hlease⟩ := Node.leased_eq s.node x
  have hchan : (s.node.leased x).chan ch = s.node.chan ch := by rw [hlease]; rfl
  have hon : (s.node.leased x).on (F.CAN_CTRL_EN ch) = s.node.on (F.CAN_CTRL_EN ch) := by rw [hlease]; rfl
  have hcmd : (s.node.leased x).canCmd ch 1 0 = ((s.node.leased x).canRecover ch).2.wr (F.CAN_CMD_RESULT ch) ((s.node.leased x).canRecover ch).1 := rfl
  have hexec := exec_recover hc h
  rw [hcmd] at hexec
  refine ⟨fun h1 => ?_, fun h1 h2 h3 => ?_, fun h1 h2 h3 => ?_⟩
  · have hrec : (s.node.leased x).canRecover ch = (1, s.node.leased x) := by simp [Node.canRecover, hchan, h1]
    rw [hrec] at hexec
    exact Settles.of_to hexec
  · have hrec : (s.node.leased x).canRecover ch = (1, s.node.leased x) := by simp [Node.canRecover, hchan, hon, h1, h2, h3]
    rw [hrec] at hexec
    exact Settles.of_to hexec
  · have hrec : (s.node.leased x).canRecover ch = (0, (s.node.leased x).setChan ch { s.node.chan ch with recovering := true }) := by
      simp [Node.canRecover, hchan, hon, h1, h2, h3]
    rw [hrec] at hexec
    exact Settles.of_to hexec

omit hc in
theorem canResult_key (ch : Nat) : 32 * 0x10700000 ≤ (F.CAN_CMD_RESULT ch).key := by simp only [F.CAN_CMD_RESULT]; omega

/-- FLUSH_TX removes and counts what is not on the bus, and marks what is (10 R362). -/
theorem flushTx_removes (hfit : s.node.fits) (h : RegPasses s.node x (.CAN_CMD ch) 2) :
    Yields (.flushTx x ch) s (fun t =>
      t.rd (F.CAN_CMD_RESULT ch) = 0 ∧ Output.resp x true 0 ∈ t.out ∧
      ∃ l, (l = (s.node.chan ch).txq ∨ l = (s.node.chan ch).txq.modify 0 (fun y => { y with trying := true })) ∧
        (s.node.canSends ch = false ∨ (s.node.chan ch).txq.any (fun y => y.trying) = true → l = (s.node.chan ch).txq) ∧
        (t.chan ch).txq = (l.filter (fun y => y.trying)).map (fun y => { y with flush := true }) ∧
        (s.node.rd (F.CAN_CNT_COUNT ch 6) < 2 ^ 32 → t.rd (F.CAN_CNT_COUNT ch 6) =
          min (s.node.rd (F.CAN_CNT_COUNT ch 6) + (l.filter (fun y => !y.trying)).length) (2 ^ 32 - 1))) := by
  obtain ⟨lease, hlease⟩ := Node.leased_eq s.node x
  have hchan : (s.node.leased x).chan ch = s.node.chan ch := by rw [hlease]; rfl
  have hsends : (s.node.leased x).canSends ch = s.node.canSends ch := by rw [hlease]; rfl
  have hexec := exec_flushTx hc h
  have hcmd : (s.node.leased x).canCmd ch 2 0 = ((s.node.leased x).canFlush ch).wr (F.CAN_CMD_RESULT ch) 0 := rfl
  rw [hcmd, Node.canFlush_eq] at hexec
  obtain ⟨htxq, hsame⟩ := Node.canStarts_txq (s.node.leased x) ch
  have hregs : ((s.node.leased x).canStarts ch).rd (F.CAN_CNT_COUNT ch 6) = s.node.rd (F.CAN_CNT_COUNT ch 6) := by
    rw [Node.rd, Node.canStarts_regs, hlease, Node.rd]
  have htold := Node.canStarts_told (s.node.leased x) ch
  rw [hchan] at htxq hsame
  rw [hsends] at hsame
  generalize (s.node.leased x).canStarts ch = m at hexec htxq hsame hregs htold
  have hne : (F.CAN_CNT_COUNT ch 6).key ≠ (F.CAN_CMD_RESULT ch).key := by simp only [F.CAN_CNT_COUNT, F.CAN_CMD_RESULT]; omega
  refine Yields.of_can_leased hfit hexec (htold.trans ((CanTold.setChan m ch _).trans ((Node.flushed_told _ ch _).trans
    ((CanTold.field _ _ (canResult_key ch)).trans (.emit _ _))))) fun t hf => ?_
  obtain ⟨l, hout⟩ := hf.out
  rw [hf.bus_rd (canResult_key ch), hf.bus_rd (canCount_key ch 6), hf.chan_eq, hout]
  refine ⟨Node.rd_wr_same _ _ _, List.mem_append_right _ (List.mem_cons_self ..), (m.chan ch).txq, htxq, hsame, ?_, fun hlt => ?_⟩
  · exact congrArg Chan.txq ((Node.flushed_chan _ ch _ ch).trans (Node.chan_setChan_same m ch _))
  · refine (Node.rd_wr_ne _ 0 hne).trans ?_
    have hm : (m.setChan ch { m.chan ch with
        txq := ((m.chan ch).txq.filter (·.trying)).map (fun x => { x with flush := true }) }).rd (F.CAN_CNT_COUNT ch 6) =
        s.node.rd (F.CAN_CNT_COUNT ch 6) := hregs
    rw [Node.flushed_count ch _ _ (by rw [hm]; exact hlt), hm]

/-- RXACK frees the oldest entries (10 R353). -/
theorem rxack_frees {k : Nat} (hfit : s.node.fits) (hk : k < 256) (h : RegPasses s.node x (.CAN_CMD ch) (3 + 256 * k))
    (hid : ((s.node.chan ch).rx.map (fun e => e.id)).Nodup) (hh : ∀ e ∈ (s.node.chan ch).rx, e.held = false) :
    Yields (.rxack x ch k) s (fun t => (t.chan ch).rx = (s.node.chan ch).rx.drop k ∧
      (t.chan ch).returning = (s.node.chan ch).returning + min k (s.node.chan ch).rx.length ∧
      t.rd (F.CAN_CMD_RESULT ch) = 0 ∧ Output.resp x true 0 ∈ t.out) := by
  obtain ⟨lease, hlease⟩ := Node.leased_eq s.node x
  have hchan : (s.node.leased x).chan ch = s.node.chan ch := by rw [hlease]; rfl
  have hexec := exec_rxack hc hk h
  have hcmd : (s.node.leased x).canCmd ch 3 k = ((s.node.leased x).rxAck ch k).wr (F.CAN_CMD_RESULT ch) 0 := rfl
  rw [hcmd] at hexec
  obtain ⟨hrx, hret, htold⟩ := Node.rxAck_oldest (n := s.node.leased x) (ch := ch) (k := k) (by rw [hchan]; exact hid) (by rw [hchan]; exact hh)
  rw [hchan] at hrx hret
  refine Yields.of_can_leased hfit hexec (htold.trans ((CanTold.field _ _ (canResult_key ch)).trans (.emit _ _))) fun t hf => ?_
  obtain ⟨l, hout⟩ := hf.out
  rw [hf.bus_rd (canResult_key ch), hf.chan_eq, hout]
  exact ⟨hrx, hret, Node.rd_wr_same _ _ _, List.mem_append_right _ (List.mem_cons_self ..)⟩

end Commands

/-- Settles O57: a frame, an error or a command of a channel leaves what its lemma says; the model's field rules give the rest. -/
theorem canChannels : Obligations.CanChannels := by
  intro s ch hc hfit n c tec rec' plus joined
  refine ⟨fun f => ⟨fun hno => ?_, fun h1 h2 h3 h4 h5 => ?_, fun h1 h2 h3 h4 h5 h6 => ?_, fun h1 h2 h3 h4 h5 h6 => ⟨fun hno => ?_, fun hm => ?_⟩⟩,
    fun x hs hx => ?_, fun hoff e => ?_, fun hon hs e he => ?_, fun hon hl => ?_, fun hon hl ht e he => ?_, fun hr => ?_, fun b hb => ?_, fun x => ?_⟩
  · exact Settles.of_to ((exec_canFrameValid s hc f).trans (congrArg s.to (Node.canReceive_not hno)))
  · exact canFrame_recovers hc hfit h1 h2 h3 h4 h5
  · exact Settles.of_to (exec_canFrame_sec hc h1 h2 h3 h4 h5 h6)
  · refine Settles.of_to ((exec_canFrame_low hc h1 h2 h3 h4).trans (congrArg s.to (Node.canStore_none h6 (.inr ?_))))
    exact (n.recLowered_match ch f).trans hno
  · exact ⟨fun hroom hu => canFrame_stored hc hfit h1 h2 h3 h4 h5 h6 hm hroom hu,
      fun hroom hu => canFrame_full hc hfit h1 h2 h3 h4 h5 h6 hm hroom hu, fun hroom => Settles.of_to (canFrame_nobuf hc h1 h2 h3 h4 h5 h6 hm hroom)⟩
  · exact ⟨fun hl => canSent_leaves hc hfit hs hl hx,
      fun e he ht => ⟨fun hf hthr => canError_stays hc hfit he hs hx ht hf hthr,
        fun h0 hthr hid hl => canError_abandons hc hfit he hs hx ht h0 hthr hid hl⟩,
      fun ht _ hf hl => canError_busOff hc hfit hs hx ht hf hl,
      fun hf => Settles.of_to ((exec_canError s hc _).trans (congrArg s.to (Node.canErr_arb hs hx hf))),
      fun hf => canError_flushed hc hfit hs hx hf⟩
  · exact Settles.of_to ((exec_canError s hc e).trans (congrArg s.to (Node.canErr_off hoff e)))
  · exact Settles.of_to ((exec_canError s hc e).trans (congrArg s.to (Node.canErr_silent hon hs he)))
  · obtain ⟨h1, h8⟩ := Node.canErr_rx hon hl
    exact ⟨Settles.of_to ((exec_canError s hc _).trans (congrArg s.to h1)),
      fun e he => Settles.of_to ((exec_canError s hc e).trans (congrArg s.to (h8 e he)))⟩
  · exact Settles.of_to ((exec_canError s hc e).trans (congrArg s.to (Node.canErr_flag hon hl ht he)))
  · refine Settles.of_to (Eq.trans ?_ (congrArg s.to (Node.canRecovered_eq hr)))
    show s.to (if ch < 8 then _ else _) = _
    rw [if_pos hc]
  · refine Settles.of_to ?_
    show s.to (if b < 10 then _ else _) = _
    rw [if_pos hb]
    rfl
  · refine ⟨fun h => recover_answered hc h, fun h => flushTx_removes hc hfit h, fun k hk h hid hh => rxack_frees hc hfit hk h hid hh,
      fun v h hv => ⟨fun h0 h1 _ => canEnable_sets hc hfit h hv h0 h1, fun h0 h1 => canEnable_clears hc hfit h hv h0 h1⟩⟩

end Sys2Proof.Machine
end

section
/-! PROOF. Ends of commands that drop the level, the loss of an island's power, and O31: service levels (01 R39, R41, R43; 02 R66; 12 R421; 15 R532). -/

namespace Sys2Proof.Machine

open Sys2Proof

/-! ### What `settle` leaves of the node once its level has been judged -/

/-- `n` is `m` but for what `Follows` lets the end of a command add. -/
structure Ends (m n : Node) : Prop where
  eq : ∃ r l o p, n = { m with regs := r, log := l, out := o, pair := p }
  rd : ∀ f : Fld, f.key ∉ followKeys → n.rd f = m.rd f
  adds : Adds m n

namespace Ends

variable {a b c : Node}

theorem refl (n : Node) : Ends n n := ⟨⟨_, _, _, _, rfl⟩, fun _ _ => rfl, Adds.refl n⟩

theorem trans (h : Ends a b) (g : Ends b c) : Ends a c := by
  refine ⟨?_, fun f hf => (g.rd f hf).trans (h.rd f hf), h.adds.trans g.adds⟩
  obtain ⟨_, _, _, _, hb⟩ := h.eq
  obtain ⟨_, _, _, _, hc⟩ := g.eq
  rw [hb] at hc
  exact ⟨_, _, _, _, hc⟩

theorem ite {p : Prop} [Decidable p] (hb : Ends a b) (hc : Ends a c) : Ends a (if p then b else c) := by
  split
  · exact hb
  · exact hc

theorem msi (n : Node) (v : Nat) : Ends n (n.msi v) := by
  refine ⟨?_, fun f _ => by simp [Node.rd], Adds.msi n v⟩
  unfold Node.msi
  split
  · exact ⟨_, _, _, _, rfl⟩
  · exact ⟨_, _, _, _, rfl⟩

theorem fault (n : Node) (x y z : Nat) : Ends n (n.fault x y z) := by
  obtain ⟨_, _, _, h⟩ := Logs.fault n x y z
  exact ⟨⟨_, _, _, _, h⟩, fun f hf => Node.fault_rd _ _ _ _ _ fun he => hf (by rw [he]; decide), Adds.fault n x y z⟩

theorem relayWarn (old n : Node) (l : Nat) : Ends n (relayWarn old n l) := by
  unfold Machine.relayWarn
  exact ite (fault n _ _ _) (refl n)

theorem marginMark (n : Node) : Ends n n.marginMark := by
  have hput : Ends n (n.put F.HLT_REPORT_MARGIN n.margin) :=
    ⟨⟨_, _, _, _, rfl⟩, fun f hf => Node.rd_put_ne n _ fun he => hf (by rw [he]; decide), Adds.put n _ _⟩
  unfold Node.marginMark
  exact ite (hput.trans (fault _ _ _ _)) hput

theorem relayFollow (n : Node) {l : Nat} (hl : l < 2) : Ends n (n.relayFollow l) := by
  refine ⟨?_, fun f hf => Node.relayFollow_rd n l f hf hl, Adds.relayFollow n l⟩
  have hop : ∀ m : Node, m.relayOp l (n.driveOpen l) = { m with regs := (m.relayOp l (n.driveOpen l)).regs } := fun _ => rfl
  unfold Node.relayFollow
  dsimp only
  generalize n.driveOpen l = d at hop
  split
  · rw [hop]
    exact ⟨_, n.log, n.out, (n.relayNote l).pair, rfl⟩
  · exact ⟨((n.relayNote l).put (F.BBL_RELAY_DRIVE_OPEN l) d).regs, n.log, n.out, (n.relayNote l).pair, rfl⟩

theorem irqEdges (old n : Node) : Ends n (irqEdges old n) := by
  unfold Machine.irqEdges
  generalize List.range 64 = l
  suffices h : ∀ (c : Nat → Bool) (m : Node), Ends m (l.foldl (fun a s => if c s then a.irqSend s else a) m) from h _ n
  intro c
  induction l with
  | nil => exact refl
  | cons s l ih =>
    intro m
    refine trans (ite ?_ (refl m)) (ih _)
    unfold Node.irqSend
    exact ite (msi m _) (refl m)

theorem follows (h : Ends a b) : Follows a b := by
  have hadds := h.adds
  have hrd := h.rd
  obtain ⟨_, _, _, _, hb⟩ := h.eq
  subst hb
  exact ⟨rfl, rfl, rfl, rfl, rfl, rfl, rfl, rfl, rfl, rfl, rfl, rfl, rfl, rfl, rfl, rfl, rfl, rfl, rfl, rfl, rfl, rfl, rfl, rfl, rfl, rfl, rfl, rfl,
    rfl, rfl, rfl, rfl, rfl, hadds.pair, hadds.out, hadds.records, hrd⟩

end Ends

/-- Whatever the level does, the settled node follows the one whose level has been judged. -/
theorem settle_ends (old new : Node) : Follows (failCheck old (levelDrop new)) (settle old new) := by
  unfold settle
  generalize failCheck old (levelDrop new) = n
  refine Ends.follows ?_
  exact (((Ends.relayFollow n (l := 0) (by decide)).trans (.relayFollow _ (l := 1) (by decide))).trans
    ((Ends.relayWarn old _ 0).trans (.relayWarn old _ 1))).trans ((Ends.ite (.refl _) (.marginMark _)).trans
      ((Ends.ite (.msi _ _) (.refl _)).trans ((Ends.ite (.msi _ _) (.refl _)).trans (.irqEdges _ _))))

/-- The command completes with what follows the node whose level has been judged. -/
theorem Yields.of_judged {c : Instr} {s : State} {m : Node} {P : Node → Prop} (he : exec c s = s.to m)
    (hp : ∀ t, Follows (failCheck s.node (levelDrop m)) t → P t) : Yields c s P :=
  Yields.of_to he (hp _ (settle_ends _ _))

/-- Above FAIL_LEVEL, or outside ACTIVE, no failure is declared. -/
theorem failCheck_none {old new : Node} (h : new.mode ≠ .active ∨ new.rd F.PAIR_CTRL_FAIL_LEVEL ≤ new.level) : failCheck old new = new := by
  unfold failCheck
  dsimp only
  refine if_neg ?_
  rintro ⟨h1, -, h2, -⟩
  rcases h with h | h
  · exact h h1
  · omega

/-- The node once its level has fallen to `a`, without the record. -/
def Node.levelFallen (n : Node) (a : Nat) : Node :=
  { n with level := a, inaug := { n.inaug with lostL2 := n.inaug.lostL2 || (decide (2 ≤ n.level) && decide (a < 2)) } }

theorem levelDrop_kept {n : Node} (h : n.level ≤ n.allowed) : levelDrop n = n := if_pos h

theorem levelDrop_falls {n : Node} (h : n.allowed < n.level) :
    levelDrop n = if n.mode = .active ∧ n.on F.PAIR_STATUS_CLAIM_HELD ∧ n.working < n.level then
      (n.levelFallen n.allowed).fault 2 1 (n.allowed + 4 * n.level + n.missingArg) else n.levelFallen n.allowed :=
  if_neg (Nat.not_le.2 h)

/-- A level that falls leaves all else but the record. -/
theorem levelDrop_logs {n : Node} (h : n.allowed < n.level) : Logs (n.levelFallen n.allowed) (levelDrop n) := by
  rw [levelDrop_falls h]
  split
  · exact Logs.fault _ _ _ _
  · exact ⟨_, _, _, rfl⟩

/-! ### Registers an island or a restart loses (00 R15; 02 R66) -/

theorem FMap.get_filter {β : Type} (d : β) (p : Nat → Bool) (m : FMap β) (k : Nat) :
    FMap.get d (m.filter (fun e => p e.1)) k = if p k then FMap.get d m k else d := by
  induction m with
  | nil => cases p k <;> rfl
  | cons e m ih =>
    obtain ⟨k', v⟩ := e
    cases hk : p k' with
    | true =>
      simp only [List.filter_cons, hk, if_true]
      by_cases he : k' = k
      · subst he
        simp [FMap.get, hk]
      · simp only [FMap.get, if_neg he]
        exact ih
    | false =>
      simp only [List.filter_cons, hk, Bool.false_eq_true, if_false]
      by_cases he : k' = k
      · subst he
        rw [ih, hk]
        rfl
      · simp only [FMap.get, if_neg he]
        exact ih

/-- The island and the reset code of a register field say that it stays. -/
def regKept (keep : Island → RCode → Bool) (k : Nat) : Bool :=
  match keyInfo k with
  | some (i, f) => keep i f.code
  | none => true

theorem keepRegs_get (m : FMap Nat) (keep : Island → RCode → Bool) (d k : Nat) :
    FMap.get d (keepRegs m keep) k = if regKept keep k then FMap.get d m k else d := FMap.get_filter d (regKept keep) m k

/-- A field that the loss of the data island's power leaves. -/
def outlastsData (k : Nat) : Bool := regKept (fun i c => i != Island.data || c == RCode.keep) k

/-- The fields of the time unit that a port without its link writes. -/
def TimKey (k : Nat) : Prop := 32 * 0x10100000 ≤ k ∧ k < 32 * 0x10100200

/-- `n` is `m` but for the clock and the fields of `TimKey`. -/
structure TimTold (m n : Node) : Prop where
  eq : ∃ r c, n = { m with regs := r, clock := c }
  rd : ∀ f : Fld, ¬ TimKey f.key → n.rd f = m.rd f

namespace TimTold

variable {a b c : Node}

theorem refl (n : Node) : TimTold n n := ⟨⟨_, _, rfl⟩, fun _ _ => rfl⟩

theorem trans (h : TimTold a b) (g : TimTold b c) : TimTold a c := by
  refine ⟨?_, fun f hf => (g.rd f hf).trans (h.rd f hf)⟩
  obtain ⟨_, _, hb⟩ := h.eq
  obtain ⟨_, _, hc⟩ := g.eq
  rw [hb] at hc
  exact ⟨_, _, hc⟩

theorem ite {p : Prop} [Decidable p] (hb : TimTold a b) (hc : TimTold a c) : TimTold a (if p then b else c) := by
  split
  · exact hb
  · exact hc

theorem wr (n : Node) {f : Fld} (v : Nat) (h : TimKey f.key) : TimTold n (n.wr f v) :=
  ⟨⟨_, _, rfl⟩, fun _ hg => Node.rd_wr_ne n v fun e => hg (e ▸ h)⟩

theorem clock (n : Node) (x : Clock) : TimTold n { n with clock := x } := ⟨⟨_, _, rfl⟩, fun _ _ => rfl⟩

theorem releaseStep (n : Node) : TimTold n n.releaseStep :=
  (clock n _).trans ((wr _ _ (by unfold TimKey; decide)).trans (wr _ _ (by unfold TimKey; decide)))

theorem holdover (n : Node) (gm : Nat) : TimTold n (n.holdover gm) :=
  (clock n _).trans ((wr _ _ (by unfold TimKey; decide)).trans ((clock _ _).trans (wr _ _ (by unfold TimKey; decide))))

theorem timPort_key {p : Nat} (hp : p < 20) : TimKey (F.TIM_PORT_PSTATE p).key ∧ TimKey (F.TIM_PORT_AS_CAPABLE p).key := by
  simp only [TimKey, F.TIM_PORT_PSTATE, F.TIM_PORT_AS_CAPABLE]
  omega

theorem parentLost (n : Node) {p : Nat} (hp : p < 20) : TimTold n (n.parentLost p) := by
  obtain ⟨hstate, -⟩ := timPort_key hp
  unfold Node.parentLost
  dsimp only
  have hheld : TimTold n (match n.clock.held with
      | some (q, _) => if q = p then n.releaseStep else n
      | none => n) := by
    split
    · exact ite (releaseStep n) (refl n)
    · exact refl n
  refine ite hheld (hheld.trans (ite ((wr _ _ (by unfold TimKey; decide)).trans (wr _ _ hstate)) ?_))
  exact ((wr _ _ (by unfold TimKey; decide)).trans (wr _ _ hstate)).trans (holdover _ _)

theorem ptpOff (n : Node) {p : Nat} (hp : p < 20) : TimTold n (n.ptpOff p) := by
  obtain ⟨hstate, hcap⟩ := timPort_key hp
  exact (parentLost n hp).trans ((clock _ _).trans ((wr _ _ hstate).trans (wr _ _ hcap)))

theorem ptpOffs (l : List Nat) (h : ∀ p ∈ l, p < 20) (n : Node) : TimTold n (l.foldl Node.ptpOff n) := by
  induction l generalizing n with
  | nil => exact refl n
  | cons p l ih => exact (ptpOff n (h p (List.mem_cons_self ..))).trans (ih (fun q hq => h q (List.mem_cons_of_mem _ hq)) _)

end TimTold

theorem Node.hbLate_eq (n : Node) : ∃ o, n.hbLate = { n with out := o ++ n.out } := by
  unfold Node.hbLate
  generalize (n.port (n.rd F.PAIR_CTRL_HB_PORT)).own = l
  generalize n.rd F.PAIR_CTRL_HB_PORT = p
  induction l generalizing n with
  | nil => exact ⟨[], rfl⟩
  | cons x l ih =>
    cases x with
    | bytes b =>
      obtain ⟨o, ho⟩ := ih (n.emit (.frame p b))
      exact ⟨o ++ [.frame p b], by rw [List.foldl_cons, ho]; simp [Node.emit]⟩
    | ptp _ _ => exact ih n

theorem Node.holdLinks_eq (n : Node) : ∃ lk, n.holdLinks = { n with pair := { n.pair with links := lk } } := ⟨_, rfl⟩

/-- What the loss of its power leaves of the data island (02 R66). -/
theorem Node.dataClear_eq (n : Node) : ∃ r c o lk, n.dataClear = { n with
      regs := keepRegs r (fun i c => i != Island.data || c == RCode.keep), clock := c, out := o ++ n.out, mem := dropDataMem n.mem,
      poison := n.poison.filter (fun a => decide (a < 0x10000000)), engs := [], tabs := [], loaded := false, chanSlot := [], fab := {}, ports := [],
      cnt := [], delta := [], inaug := {}, chans := [], brg := { stalled := n.brg.stalled }, datasets := [], ipId := 0, epochUnread := false,
      caps := n.caps.filter (fun c => decide (c.block ≤ 0x10100000)), holds := [],
      pair := { n.pair with links := lk, sending := none, capture := none, capWait := [], gapAt := none } } ∧
    ∀ f : Fld, ¬ TimKey f.key → FMap.get f.rst r f.key = n.rd f := by
  obtain ⟨o, ho⟩ := n.hbLate_eq
  have htim := TimTold.ptpOffs (List.range 20) (fun p hp => List.mem_range.1 hp) n.hbLate
  obtain ⟨r, c, hr⟩ := htim.eq
  have hrd := htim.rd
  rw [hr] at hrd
  obtain ⟨lk, hlk⟩ := Node.holdLinks_eq { n.hbLate with regs := r, clock := c }
  refine ⟨r, c, o, lk, ?_, fun f hf => (hrd f hf).trans (by rw [ho]; rfl)⟩
  unfold Node.dataClear
  rw [hr, hlk, ho]

theorem Node.dataClear_rd (n : Node) {f : Fld} (ht : ¬ TimKey f.key) : n.dataClear.rd f = if outlastsData f.key then n.rd f else f.rst := by
  obtain ⟨r, c, o, lk, heq, hrd⟩ := n.dataClear_eq
  rw [heq, ← hrd f ht]
  exact keepRegs_get r (fun i c => i != Island.data || c == RCode.keep) f.rst f.key

theorem Node.dataOff_of_on {n : Node} (h : n.dataOn = true) : n.dataOff = n.dataClear.put F.PWR_ISLANDS_DATA false := if_neg (by simp [h])

theorem Node.dataOff_of_off {n : Node} (h : n.dataOn = false) : n.dataOff = n := if_pos h

@[simp] theorem Node.dataOff_dataOn (n : Node) : n.dataOff.dataOn = false := by
  cases h : n.dataOn with
  | false => rw [Node.dataOff_of_off h, h]
  | true =>
    rw [Node.dataOff_of_on h]
    exact Node.on_put_same _ F.PWR_ISLANDS_DATA false rfl

/-- What no loss of the data island's power touches. -/
theorem Node.dataOff_rd (n : Node) {f : Fld} (hk : outlastsData f.key = true) (ht : ¬ TimKey f.key) (hd : f.key ≠ F.PWR_ISLANDS_DATA.key) :
    n.dataOff.rd f = n.rd f := by
  cases hon : n.dataOn with
  | false => rw [Node.dataOff_of_off hon]
  | true => rw [Node.dataOff_of_on hon, Node.rd_put_ne _ _ hd, Node.dataClear_rd n ht, if_pos hk]

theorem Node.dataOff_on (n : Node) {f : Fld} (hk : outlastsData f.key = true) (ht : ¬ TimKey f.key) (hd : f.key ≠ F.PWR_ISLANDS_DATA.key) :
    n.dataOff.on f = n.on f := by rw [Node.on, n.dataOff_rd hk ht hd, Node.on]

/-! ### The hand-over (12 R408, R421) -/

/-- A node that enters COLD_STANDBY has released the claim and powered its data island off. -/
theorem Node.enterStandby_shows (n : Node) : n.enterStandby.mode = .coldStandby ∧ n.enterStandby.level = 0 ∧
    n.enterStandby.on F.PAIR_STATUS_CLAIM_HELD = false ∧ n.enterStandby.dataOn = false := by
  refine ⟨rfl, rfl, ?_, ?_⟩
  · refine (Node.on_put_ne _ _ (by decide)).trans ?_
    refine (Node.dataOff_on n.release rfl (by unfold TimKey; decide) (by decide)).trans ?_
    exact Node.on_put_same n F.PAIR_STATUS_CLAIM_HELD false rfl
  · exact (Node.on_put_ne _ _ (by decide)).trans (Node.dataOff_dataOn n.release)

/-- The node that declares its own failure, in a heartbeat with FAIL. -/
def Node.failTold (n : Node) : Node :=
  Node.put ((n.put F.HLT_REPORT_FAIL true).hbEmit (n.put F.HLT_REPORT_FAIL true).hbFlags (n.put F.HLT_REPORT_FAIL true).health
    (n.put F.HLT_REPORT_FAIL true).tn7State) F.HLT_REPORT_FAIL false

/-- Below FAIL_LEVEL with a proven standby, the node hands over. -/
theorem failCheck_hands {old new : Node} (h1 : new.mode = .active) (h2 : new.rd F.PAIR_CTRL_FAIL_LEVEL ≤ old.level)
    (h3 : new.level < new.rd F.PAIR_CTRL_FAIL_LEVEL) (h4 : new.on F.PAIR_CTRL_TN7 = false)
    (h5 : new.partnerReady (new.rd F.PAIR_CTRL_FAIL_LEVEL) = true) :
    failCheck old new = (new.failTold.enterStandby).wr F.PAIR_STATUS_PROVEN new.level :=
  if_pos ⟨h1, h2, h3, by simp [h4], h5⟩

/-- The other way round: no failure, or the hand-over. -/
theorem failCheck_cases (old new : Node) : failCheck old new = new ∨
    failCheck old new = (new.failTold.enterStandby).wr F.PAIR_STATUS_PROVEN new.level := by
  unfold failCheck
  dsimp only
  split
  · exact .inr rfl
  · exact .inl rfl

theorem levelDrop_rd (n : Node) {f : Fld} (hf : f.key ≠ F.MGT_FAULT_SOURCE.key) : (levelDrop n).rd f = n.rd f := by
  unfold levelDrop
  dsimp only
  split
  · rfl
  · split
    · exact Node.fault_rd _ _ _ _ _ hf
    · rfl

theorem levelDrop_on (n : Node) {f : Fld} (hf : f.key ≠ F.MGT_FAULT_SOURCE.key) : (levelDrop n).on f = n.on f := by
  rw [Node.on, levelDrop_rd n hf, Node.on]

/-! ### The clauses of O31 -/

section PartFails

variable {s : State} {r : Res}

theorem exec_partFails (hoff : s.node.mode ≠ .off) (hr : r ∉ s.node.failed) :
    exec (.workingSetPartFails r) s = s.to { s.node with failed := r :: s.node.failed } := by
  show s.to (if s.node.mode = .off ∨ r ∈ s.node.failed then _ else _) = _
  rw [if_neg (by simp [hoff, hr])]

/-- The level falls to the highest that is still allowed, with one record. -/
theorem partFails_falls (hoff : s.node.mode ≠ .off) (hr : r ∉ s.node.failed)
    (ha : Node.allowed { s.node with failed := r :: s.node.failed } < s.node.level)
    (hfl : s.node.rd F.PAIR_CTRL_FAIL_LEVEL ≤ Node.allowed { s.node with failed := r :: s.node.failed }) :
    Yields (.workingSetPartFails r) s (fun t =>
      t.level = Node.allowed { s.node with failed := r :: s.node.failed } ∧ t.mode = s.node.mode ∧ t.failed = r :: s.node.failed ∧
      SameBytes s.node t ∧ t.engs = s.node.engs ∧ t.fab = s.node.fab ∧
      (s.node.mode = .active → s.node.on F.PAIR_STATUS_CLAIM_HELD = true →
        Node.working { s.node with failed := r :: s.node.failed } < s.node.level → s.node.log.staged.length < 64 →
        t.hasRecord 2 1 (Node.allowed { s.node with failed := r :: s.node.failed } + 4 * s.node.level +
          Node.missingArg { s.node with failed := r :: s.node.failed }))) := by
  refine Yields.of_judged (exec_partFails hoff hr) fun t hf => ?_
  generalize hm : ({ s.node with failed := r :: s.node.failed } : Node) = m at *
  have hlevel : m.level = s.node.level := by rw [← hm]
  have hfall : m.allowed < m.level := by rw [hlevel]; exact ha
  have hdrop := levelDrop_falls hfall
  obtain ⟨_, _, _, hlogs⟩ := levelDrop_logs hfall
  have hfails : failCheck s.node (levelDrop m) = levelDrop m := by
    refine failCheck_none (.inr ?_)
    rw [levelDrop_rd m (by decide), hlogs, ← hm]
    rw [← hm] at hfl
    exact hfl
  rw [hfails] at hf
  refine ⟨?_, ?_, ?_, fun a => ?_, ?_, ?_, fun hact hclaim hwork hroom => hf.records _ _ _ ?_⟩
  · rw [hf.level, hlogs]
    rfl
  · rw [hf.mode, hlogs, ← hm]
    rfl
  · rw [hf.failed, hlogs, ← hm]
    rfl
  · rw [hf.mem, hlogs, ← hm]
    rfl
  · rw [hf.engs, hlogs, ← hm]
    rfl
  · rw [hf.fab, hlogs, ← hm]
    rfl
  · have hcond : m.mode = .active ∧ m.on F.PAIR_STATUS_CLAIM_HELD = true ∧ m.working < m.level := by
      rw [hlevel]
      exact ⟨by rw [← hm]; exact hact, by rw [← hm]; exact hclaim, hwork⟩
    rw [hdrop, if_pos hcond, ← hlevel]
    exact Node.hasRecord_self _ _ _ _ (by rw [← hm]; exact hroom)

/-- Below FAIL_LEVEL the node hands over to a proven standby. -/
theorem partFails_hands (hoff : s.node.mode ≠ .off) (hr : r ∉ s.node.failed) (hact : s.node.mode = .active)
    (hfl : s.node.rd F.PAIR_CTRL_FAIL_LEVEL ≤ s.node.level)
    (ha : Node.allowed { s.node with failed := r :: s.node.failed } < s.node.rd F.PAIR_CTRL_FAIL_LEVEL) (htn : s.node.tn7Mode = false)
    (hstate : s.node.rd F.PAIR_STATUS_PARTNER_STATE = 2) (hproven : s.node.rd F.PAIR_CTRL_FAIL_LEVEL ≤ s.node.rd F.PAIR_STATUS_PARTNER_PROVEN) :
    Yields (.workingSetPartFails r) s (fun t => t.mode = .coldStandby ∧ t.level = 0 ∧ t.on F.PAIR_STATUS_CLAIM_HELD = false ∧
      t.dataOn = false ∧ t.rd F.PAIR_STATUS_PROVEN = Node.allowed { s.node with failed := r :: s.node.failed }) := by
  refine Yields.of_judged (exec_partFails hoff hr) fun t hf => ?_
  generalize hm : ({ s.node with failed := r :: s.node.failed } : Node) = m at *
  have hlevel : m.level = s.node.level := by rw [← hm]
  have hfall : m.allowed < m.level := by omega
  obtain ⟨_, _, _, hlogs⟩ := levelDrop_logs hfall
  have hrd : ∀ f : Fld, f.key ≠ F.MGT_FAULT_SOURCE.key → (levelDrop m).rd f = s.node.rd f := fun f hne => by
    rw [levelDrop_rd m hne, ← hm]
    rfl
  have hdropped : (levelDrop m).level = m.allowed := by rw [hlogs]; rfl
  have hfails := failCheck_hands (old := s.node) (new := levelDrop m)
    (by rw [hlogs, ← hm]; exact hact) (by rw [hrd _ (by decide)]; exact hfl) (by rw [hrd _ (by decide), hdropped]; exact ha)
    (by rw [Node.on, hrd _ (by decide)]; exact htn)
    (by
      unfold Node.partnerReady
      rw [hrd _ (by decide), hrd _ (by decide), hrd _ (by decide), hstate, decide_eq_true hproven]
      rfl)
  rw [hfails, hdropped] at hf
  obtain ⟨hmode, hlow, hclaim, hdata⟩ := Node.enterStandby_shows (levelDrop m).failTold
  generalize (levelDrop m).failTold.enterStandby = q at hf hmode hlow hclaim hdata
  refine ⟨hf.mode.trans hmode, hf.level.trans hlow, ?_, ?_, ?_⟩
  · rw [Node.on, hf.rd _ (by decide)]
    exact (Node.on_wr_ne _ _ (by decide)).trans hclaim
  · rw [Node.dataOn, Node.on, hf.rd _ (by decide)]
    exact (Node.on_wr_ne _ _ (by decide)).trans hdata
  · rw [hf.rd _ (by decide), Node.rd_wr_same]
    have := m.allowed_le_three
    exact Nat.mod_eq_of_lt (by simp only [F.PAIR_STATUS_PROVEN]; omega)

end PartFails

/-! ### The rise (01 R43) -/

/-- No gap of a takeover ends before its time. -/
theorem Node.gapEnd_open {n : Node} (h : n.pair.gapAt = none ∨ ∃ t0, n.pair.gapAt = some t0 ∧ n.clock.fresh < t0 + 25000) : n.gapEnd = n := by
  unfold Node.gapEnd
  rcases h with h | ⟨t0, h, hlt⟩
  · rw [h]
  · rw [h]
    refine if_neg ?_
    rintro ⟨-, -, h3, -⟩
    omega

theorem Node.levelRise_eq {n : Node} (ha : n.level < n.allowed)
    (h : n.pair.gapAt = none ∨ ∃ t0, n.pair.gapAt = some t0 ∧ n.clock.fresh < t0 + 25000) :
    n.levelRise = if n.level + 1 = 2 ∧ n.inaug.lostL2 then
      Node.wrs { n with level := n.level + 1, inaug := { n.inaug with lostL2 := false } }
        [(F.TOP_EPOCH_EPOCH, 0), (F.TOP_INAUG_POSITION, 0), (F.TOP_INAUG_COUNT, 0), (F.TOP_INAUG_ORIENT, 0)]
      else { n with level := n.level + 1 } := by
  have hgap : ({ n with level := n.level + 1 } : Node).gapEnd = { n with level := n.level + 1 } := Node.gapEnd_open h
  unfold Node.levelRise
  rw [if_neg (Nat.not_le.2 ha), hgap]

/-! ### The rail fault (15 R532) -/

/-- `n` is `m` but for what a node without its data island does when its level falls: its state, its level, records, outputs, and register fields other than the two of the islands. -/
structure Fallen (m n : Node) : Prop where
  eq : ∃ md lv i r l o p, n = { m with mode := md, level := lv, inaug := i, regs := r, log := l, out := o, pair := p }
  fault : n.on F.PWR_ISLANDS_RAIL_FAULT = m.on F.PWR_ISLANDS_RAIL_FAULT
  data : n.dataOn = m.dataOn

theorem Fallen.trans {a b c : Node} (h : Fallen a b) (g : Fallen b c) : Fallen a c := by
  refine ⟨?_, g.fault.trans h.fault, g.data.trans h.data⟩
  obtain ⟨_, _, _, _, _, _, _, hb⟩ := h.eq
  obtain ⟨_, _, _, _, _, _, _, hc⟩ := g.eq
  rw [hb] at hc
  exact ⟨_, _, _, _, _, _, _, hc⟩

theorem Fallen.refl (n : Node) : Fallen n n := ⟨⟨_, _, _, _, _, _, _, rfl⟩, rfl, rfl⟩

theorem Fallen.wr (n : Node) (f : Fld) (v : Nat) (h1 : F.PWR_ISLANDS_RAIL_FAULT.key ≠ f.key) (h2 : F.PWR_ISLANDS_DATA.key ≠ f.key) :
    Fallen n (n.wr f v) :=
  ⟨⟨_, _, _, _, _, _, _, rfl⟩, Node.on_wr_ne n v h1, Node.on_wr_ne n v h2⟩

theorem Fallen.levelDrop (n : Node) : Fallen n (levelDrop n) := by
  refine ⟨?_, levelDrop_on n (by decide), levelDrop_on n (by decide)⟩
  by_cases h : n.level ≤ n.allowed
  · rw [levelDrop_kept h]
    exact ⟨_, _, _, _, _, _, _, rfl⟩
  · obtain ⟨_, _, _, hl⟩ := levelDrop_logs (Nat.not_le.1 h)
    rw [hl]
    exact ⟨_, _, _, _, _, _, _, rfl⟩

theorem Fallen.emit (n : Node) (x : Output) : Fallen n (n.emit x) := ⟨⟨_, _, _, _, _, _, _, rfl⟩, rfl, rfl⟩

/-- Without the data island no port counts the heartbeat and none holds it back. -/
theorem Fallen.hbEmit {n : Node} (h : n.dataOn = false) (a b c : Nat) : Fallen n (n.hbEmit a b c) := by
  have hconsist : ∀ (m : Node) (x : List Byte), m.dataOn = false → Fallen m (m.hbConsist x) := by
    intro m x hm
    unfold Node.hbConsist
    dsimp only
    split
    · have hoff : ∀ y, ¬ ((m.emit y).dataOn = true) := fun y => by
        show ¬ (m.dataOn = true)
        simp [hm]
      rw [if_neg (by simp [hm]), if_neg (hoff _)]
      exact Fallen.emit m _
    · exact Fallen.refl m
  have hpair : Fallen n { n with pair := { n.pair with
      seq := (n.pair.seq + 1) % 2 ^ 32, content := n.hbHead a b ((n.pair.seq + 1) % 2 ^ 32),
      sentT := (n.pair.sentT ++ [((n.pair.seq + 1) % 2 ^ 32, n.clock.now)]).drop (n.pair.sentT.length - 15) } } :=
    ⟨⟨_, _, _, _, _, _, _, rfl⟩, rfl, rfl⟩
  unfold Node.hbEmit
  dsimp only
  split
  · exact hpair.trans (Fallen.emit _ _)
  · exact hpair.trans ((Fallen.emit _ _).trans (hconsist _ _ h))

theorem Fallen.failTold {n : Node} (h : n.dataOn = false) : Fallen n n.failTold := by
  have hput : Fallen n (n.put F.HLT_REPORT_FAIL true) := Fallen.wr n _ _ (by decide) (by decide)
  exact hput.trans ((Fallen.hbEmit (hput.data.trans h) _ _ _).trans (Fallen.wr _ _ _ (by decide) (by decide)))

theorem Fallen.enterStandby {n : Node} (h : n.dataOn = false) : Fallen n n.enterStandby := by
  have hrel : Fallen n n.release := Fallen.wr n _ _ (by decide) (by decide)
  have hoff : n.release.dataOff = n.release := Node.dataOff_of_off (hrel.data.trans h)
  unfold Node.enterStandby
  rw [hoff]
  refine hrel.trans (Fallen.trans ?_ (Fallen.wr _ _ _ (by decide) (by decide)))
  exact ⟨⟨_, _, _, _, _, _, _, rfl⟩, rfl, rfl⟩

theorem Fallen.failCheck {old n : Node} (h : n.dataOn = false) : Fallen n (failCheck old n) := by
  rcases failCheck_cases old n with hc | hc
  · rw [hc]
    exact Fallen.refl n
  · rw [hc]
    have htold := Fallen.failTold h
    exact htold.trans ((Fallen.enterStandby (htold.data.trans h)).trans (Fallen.wr _ _ _ (by decide) (by decide)))

theorem failCheck_level {old n : Node} (h : n.level = 0) : (failCheck old n).level = 0 := by
  rcases failCheck_cases old n with hc | hc
  · rw [hc, h]
  · rw [hc]
    rfl

/-- A failed rail takes the pipeline away, without which no level is allowed. -/
theorem Node.allowed_of_railFault {n : Node} (h : n.on F.PWR_ISLANDS_RAIL_FAULT = true) : n.allowed = 0 := by
  have hmem : Res.pipeline ∈ n.missing := by simp [Node.missing, Node.railTakes, h]
  have hset : setL1 n = false := by simp [setL1, hmem]
  exact if_pos (.inr (.inr hset))

theorem levelDrop_zero {n : Node} (h : n.allowed = 0) : (levelDrop n).level = 0 := by
  by_cases hl : n.level ≤ n.allowed
  · rw [levelDrop_kept hl]
    omega
  · obtain ⟨_, _, _, hlogs⟩ := levelDrop_logs (Nat.not_le.1 hl)
    rw [hlogs]
    exact h

/-- The data island loses its power, and the node falls to level 0 (15 R532). -/
theorem railFault_drops {s : State} (hon : s.node.dataOn = true) : Yields .railFault s (fun n =>
    n.dataOn = false ∧ n.on F.PWR_ISLANDS_RAIL_FAULT = true ∧ n.level = 0 ∧ n.engs = [] ∧ n.fab = {} ∧ n.chans = [] ∧ n.tabs = [] ∧
    (∀ a, a < 0x10000000 → memRead n.mem a = memRead s.node.mem a) ∧ (∀ a, 0x10000000 ≤ a → memRead n.mem a = 0)) := by
  have hexec : exec .railFault s = s.to ((s.node.dataClear.put F.PWR_ISLANDS_DATA false).put F.PWR_ISLANDS_RAIL_FAULT true) := by
    show s.to (if s.node.dataOn then _ else _) = _
    rw [if_pos hon, Node.dataOff_of_on hon]
  refine Yields.of_judged hexec fun t hf => ?_
  generalize hm : (s.node.dataClear.put F.PWR_ISLANDS_DATA false).put F.PWR_ISLANDS_RAIL_FAULT true = m at hf
  have hrail : m.on F.PWR_ISLANDS_RAIL_FAULT = true := by
    rw [← hm]
    exact Node.on_put_same _ F.PWR_ISLANDS_RAIL_FAULT true rfl
  have hdata : m.dataOn = false := by
    rw [← hm]
    exact (Node.on_put_ne _ _ (by decide)).trans (Node.on_put_same _ F.PWR_ISLANDS_DATA false rfl)
  have hdrop := Fallen.levelDrop m
  have hfall : Fallen m (failCheck s.node (levelDrop m)) := hdrop.trans (Fallen.failCheck (hdrop.data.trans hdata))
  have hlevel : (failCheck s.node (levelDrop m)).level = 0 := failCheck_level (levelDrop_zero (Node.allowed_of_railFault hrail))
  generalize failCheck s.node (levelDrop m) = q at hf hfall hlevel
  obtain ⟨_, _, _, _, _, _, _, hq⟩ := hfall.eq
  obtain ⟨r, c, o, lk, hclear, -⟩ := s.node.dataClear_eq
  have hmem : t.mem = dropDataMem s.node.mem := by
    rw [hf.mem, hq, ← hm, hclear]
    rfl
  have hread : ∀ a, memRead t.mem a = if a < 0x10000000 then memRead s.node.mem a else 0 := by
    intro a
    have h := FMap.get_filter (0 : Byte) (fun k => decide (k < 0x10000000)) s.node.mem a
    rw [memRead, hmem]
    refine h.trans ?_
    by_cases ha : a < 0x10000000
    · rw [if_pos (decide_eq_true ha), if_pos ha]
      rfl
    · rw [if_neg (by simpa using ha), if_neg ha]
  refine ⟨?_, ?_, hf.level.trans hlevel, ?_, ?_, ?_, ?_, fun a ha => ?_, fun a ha => ?_⟩
  · rw [Node.dataOn, Node.on, hf.rd _ (by decide)]
    exact hfall.data.trans hdata
  · rw [Node.on, hf.rd _ (by decide)]
    exact hfall.fault.trans hrail
  · rw [hf.engs, hq, ← hm, hclear]
    rfl
  · rw [hf.fab, hq, ← hm, hclear]
    rfl
  · rw [hf.chans, hq, ← hm, hclear]
    rfl
  · rw [hf.tabs, hq, ← hm, hclear]
    rfl
  · rw [hread, if_pos ha]
  · rw [hread, if_neg (Nat.not_lt.2 ha)]

/-- Settles O31: `settle` makes the level fall or hands the node over, a rise is one level, and a failed rail allows no level. -/
theorem serviceLevels : Obligations.ServiceLevels := by
  refine ⟨fun s r => ?_, fun s hon => railFault_drops hon⟩
  intro n m a fl
  refine ⟨fun hoff hr => ⟨fun hle => ?_, fun hlt hfl => partFails_falls hoff hr hlt hfl,
    fun hact hfl hlt htn hst hpr => partFails_hands hoff hr hact hfl hlt htn hst hpr⟩, fun hlt => ?_⟩
  · exact Settles.of_to (exec_partFails hoff hr) hle (Nat.le_refl _)
  · intro up hgap
    have hrise := Node.levelRise_eq (n := n) hlt hgap
    refine ⟨fun hno => Settles.of_to (congrArg s.to (hrise.trans (if_neg ?_))), fun h1 hlost =>
      Settles.of_to (congrArg s.to (hrise.trans (if_pos ⟨by rw [h1], hlost⟩)))⟩
    rintro ⟨h1, h2⟩
    exact hno ⟨by omega, h2⟩

end Sys2Proof.Machine
end

section
/-! PROOF. What the load of the data island touches (05 R171; 12 R442, R449), and what start-up leaves whatever the image (05 R156, R157; 12 R407). -/

namespace Sys2Proof.Machine

open Sys2Proof

/-! ### The load -/

/-- The fields a load may write: of the engines' slots and moves, the RUN bits, and those of the data sets. -/
def LoadKey (k : Nat) : Prop := (32 * 0x10020000 ≤ k ∧ k < 32 * 0x10030000) ∨ k = 32 * 0x10500000 ∨ 32 * 0x10608000 ≤ k

/-- `n` is `m` but for memories, engines, tables and the fields of `LoadKey`. -/
structure Loads (m n : Node) : Prop where
  eq : ∃ r me po fb en st ta ld cs ps ds k, n = { m with
    regs := r, mem := me, poison := po, fab := { m.fab with buckets := fb }, engs := en, staging := st, tabs := ta, loaded := ld,
    chanSlot := cs, ports := ps, datasets := ds, freeN := k }
  rd : ∀ f : Fld, ¬ LoadKey f.key → n.rd f = m.rd f

namespace Loads

variable {a b c : Node}

theorem refl (n : Node) : Loads n n := ⟨⟨_, _, _, _, _, _, _, _, _, _, _, _, rfl⟩, fun _ _ => rfl⟩

theorem trans (h : Loads a b) (g : Loads b c) : Loads a c := by
  refine ⟨?_, fun f hf => (g.rd f hf).trans (h.rd f hf)⟩
  obtain ⟨_, _, _, _, _, _, _, _, _, _, _, _, hb⟩ := h.eq
  obtain ⟨_, _, _, _, _, _, _, _, _, _, _, _, hc⟩ := g.eq
  rw [hb] at hc
  exact ⟨_, _, _, _, _, _, _, _, _, _, _, _, hc⟩

theorem ite {p : Prop} [Decidable p] (hb : Loads a b) (hc : Loads a c) : Loads a (if p then b else c) := by
  split
  · exact hb
  · exact hc

theorem foldl {α : Type} {g : Node → α → Node} (h : ∀ n x, Loads n (g n x)) (l : List α) (n : Node) : Loads n (l.foldl g n) := by
  induction l generalizing n with
  | nil => exact refl n
  | cons x l ih => exact (h n x).trans (ih _)

theorem wr (n : Node) {f : Fld} (v : Nat) (h : LoadKey f.key) : Loads n (n.wr f v) :=
  ⟨⟨_, _, _, _, _, _, _, _, _, _, _, _, rfl⟩, fun _ hg => Node.rd_wr_ne n v fun e => hg (e ▸ h)⟩

theorem mem (n : Node) (m : List Host.Cell) : Loads n { n with mem := m } := ⟨⟨_, _, _, _, _, _, _, _, _, _, _, _, rfl⟩, fun _ _ => rfl⟩

theorem setPort (n : Node) (p : Nat) (x : Port) : Loads n (n.setPort p x) := ⟨⟨_, _, _, _, _, _, _, _, _, _, _, _, rfl⟩, fun _ _ => rfl⟩

theorem staged (n : Node) (x : FMap (List Byte)) : Loads n { n with staging := x } := ⟨⟨_, _, _, _, _, _, _, _, _, _, _, _, rfl⟩, fun _ _ => rfl⟩

theorem takesFree (n : Node) (k : Nat) : Loads n { n with freeN := k } := ⟨⟨_, _, _, _, _, _, _, _, _, _, _, _, rfl⟩, fun _ _ => rfl⟩

theorem datasets (n : Node) (x : FMap Dataset) : Loads n { n with datasets := x } := ⟨⟨_, _, _, _, _, _, _, _, _, _, _, _, rfl⟩, fun _ _ => rfl⟩

theorem put (n : Node) {f : Fld} (b : Bool) (h : LoadKey f.key) : Loads n (n.put f b) := wr n _ h

theorem unpoison (n : Node) (l : List Nat) : Loads n (n.unpoison l) := ⟨⟨_, _, _, _, _, _, _, _, _, _, _, _, rfl⟩, fun _ _ => rfl⟩

theorem entryWrite (n : Node) (d : TabDef) (sh : Bool) (i : Nat) (ws : List (Nat × Nat)) : Loads n (n.entryWrite d sh i ws) := by
  have hrefill : ∀ (m : Node) (t j : Nat) (old new : List Nat), Loads m (m.refill t j old new) := by
    intro m t j old new
    unfold Node.refill
    exact ite ⟨⟨_, _, _, _, _, _, _, _, _, _, _, _, rfl⟩, fun _ _ => rfl⟩ (refl m)
  unfold Node.entryWrite
  exact ite (((foldl (fun _ _ => mem _ _) _ n).trans (hrefill _ _ _ _ _)).trans (unpoison _ _))
    ((foldl (fun _ _ => mem _ _) _ n).trans (hrefill _ _ _ _ _))

theorem tableInit (n : Node) (t : TabDef) (load : Nat) (d : List Byte) : Loads n (n.tableInit t load d) := by
  unfold Node.tableInit
  exact ite (mem n _) (foldl (fun m i => entryWrite m t false _ _) _ n)

theorem slot_key {s : Nat} (hs : s < 16) : LoadKey (F.HLT_SLOT_USED s).key ∧ LoadKey (F.HLT_SLOT_ENGINE s).key := by
  simp only [LoadKey, F.HLT_SLOT_USED, F.HLT_SLOT_ENGINE]
  omega

theorem unbound_key : LoadKey F.HLT_ENG_MOVES_UNBOUND.key := by
  unfold LoadKey
  decide

theorem bindSpare (n : Node) (used : List Nat) {s : Nat} (hs : s < 16) : Loads n (n.bindSpare used s) := by
  unfold Node.bindSpare Node.unbindSlot
  refine ite ((wr n _ (slot_key hs).2).trans (wr _ _ unbound_key)) ?_
  exact (takesFree n (n.freeN + 1)).trans (wr _ _ (slot_key hs).2)

theorem foldl_mem {α : Type} {g : Node → α → Node} (l : List α) (h : ∀ n, ∀ x ∈ l, Loads n (g n x)) (n : Node) : Loads n (l.foldl g n) := by
  induction l generalizing n with
  | nil => exact refl n
  | cons x l ih =>
    exact (h n x (List.mem_cons_self ..)).trans (ih (fun n y hy => h n y (List.mem_cons_of_mem _ hy)) _)

theorem bindSlots (n : Node) {used : List Nat} (hu : ∀ s ∈ used, s < 16) : Loads n (n.bindSlots used) := by
  unfold Node.bindSlots
  refine ((wr n 0 unbound_key).trans (foldl_mem _ (fun m s hs => ?_) _)).trans (foldl_mem _ (fun m s hs => bindSpare m _ (hu s (List.mem_of_mem_filter hs))) _)
  have hs' := List.mem_range.1 hs
  exact (wr m _ (slot_key hs').1).trans (wr _ _ (slot_key hs').2)

theorem run_key (e : Nat) : LoadKey (F.SC_CTRL_RUN e).key := by
  simp only [LoadKey, F.SC_CTRL_RUN, engBase]
  split <;> omega

theorem loadEngine (n : Node) (e target : Nat) (code : List Byte) (load : Nat) (trg : List Byte) : Loads n (n.loadEngine e target code load trg) := by
  unfold Node.loadEngine
  refine Loads.trans ?_ (wr _ _ (run_key e))
  exact ⟨⟨_, _, _, _, _, _, _, _, _, _, _, _, rfl⟩, fun _ _ => rfl⟩

theorem dataset (n : Node) (k : Nat) (d : Dataset) :
    Loads n ((({ n with datasets := FMap.put {} n.datasets k d }).put (F.BRG_DS_STAT_EN k) (bitOf d.flags 0)).put (F.BRG_DS_STAT_SUB k)
      (bitOf d.flags 1)) := by
  refine (datasets n _).trans ((put _ _ ?_).trans (put _ _ ?_)) <;>
    simp only [LoadKey, F.BRG_DS_STAT_EN, F.BRG_DS_STAT_SUB] <;> omega

theorem imgSlots_lt (img : List Byte) : ∀ s ∈ imgSlots img, s < 16 := fun _ hs => List.mem_range.1 (List.mem_of_mem_filter hs)

/-- A load that can be made touches the data island only. -/
theorem loadIsland {n m : Node} {img : List Byte} {src : Sec → Option (List Byte)} (h : n.loadIsland img src = some m) : Loads n m := by
  unfold Node.loadIsland at h
  dsimp only at h
  split at h
  · cases h
  · obtain rfl := Option.some.inj h
    refine Loads.trans ?_ (foldl (fun a s => foldl (fun b i => dataset b _ _) _ a) _ _)
    refine Loads.trans ?_ ⟨⟨_, _, _, _, _, _, _, _, _, _, _, _, rfl⟩, fun _ _ => rfl⟩
    refine Loads.trans ?_ (foldl (fun a s => ?_) _ _)
    · refine Loads.trans ?_ (bindSlots _ (imgSlots_lt img))
      refine Loads.trans ?_ (foldl (fun a s => ?_) _ _)
      · exact (foldl (fun a p => setPort a p _) _ n).trans ⟨⟨_, _, _, _, _, _, _, _, _, _, _, _, rfl⟩, fun _ _ => rfl⟩
      · split
        · exact refl a
        · exact tableInit a _ _ _
    · refine ite (loadEngine a _ _ _ _ _) ?_
      split
      · exact staged a _
      · exact (mem a _).trans ((foldl (fun b x => ite (mem b _) (refl b)) _ _).trans (loadEngine _ _ _ _ _ _))

end Loads

/-! ### A flash block that fails (13 R480) -/

/-- The logical block that a block of a device holds. -/
def Node.blockHeld (n : Node) (dev b : Nat) : Option Nat := (List.range regionBlocks).find? (fun l => n.blockAt dev l == b)

/-- What a failed block held moves to the spare that comes into service; without one the other device alone serves the region. -/
def Node.blockMoved (n : Node) (dev : Nat) (held : Option Nat) (noSpare : Bool) : Node :=
  match held with
  | none => n
  | some l =>
    if noSpare then
      (if n.loneAt dev (regionNo l) then n else { n with flash := { n.flash with lone := n.flash.lone ++ [8 * dev + regionNo l] } })
    else match (n.blocksIn dev).getLast? with
      | some s => n.placeBlock dev l s
      | none => n

theorem Node.retireBlock_eq (n : Node) (dev b : Nat) :
    n.retireBlock dev b = if dev * Config.flashBlocks + b ∈ n.flash.retired then n else
      if n.flashSpare dev == 0 then
        Node.put (Node.fault (Node.blockMoved
          { n with flash := { n.flash with retired := n.flash.retired ++ [dev * Config.flashBlocks + b] } } dev (n.blockHeld dev b) (n.flashSpare dev == 0))
            4 4 (dev * 2 ^ 31 + b)) F.UPD_STATUS_MIRROR_DEGRADED true
      else Node.fault (Node.blockMoved
        { n with flash := { n.flash with retired := n.flash.retired ++ [dev * Config.flashBlocks + b] } } dev (n.blockHeld dev b) (n.flashSpare dev == 0))
          4 4 (dev * 2 ^ 31 + b) := by
  delta Node.retireBlock Node.blockMoved Node.blockHeld
  with_reducible_and_instances rfl

/-! ### Steps 7 and 8 in parts -/

/-- Settings and protection of the slot chosen (05 R170, R172). -/
def Node.slotSettings (n : Node) (fb : Bool) (img : List Byte) : Node :=
  ((((n.put F.MGT_STATE_SLOT fb).wr F.UPD_FORMATS_BOOTED (imgFormat img)).selectSettings img).applySettings).writeProtection img

/-- The management RAM section. -/
def Node.ramLoaded (n : Node) (img : List Byte) : Node :=
  match secsOf img 1 with
  | s :: _ => { n with mem := memWrite n.mem (0x100000 + s.load) (s.data img) }
  | [] => n

/-- A confirm copy that was cut off is shown. -/
def Node.confirmShown (n : Node) : Node := if n.flash.crec = .confirm then n.put F.UPD_STATUS_CONFIRMING true else n

theorem Node.startSlot_eq (n : Node) (fb : Bool) (img : List Byte) :
    n.startSlot fb img = ((((n.slotSettings fb img).ramLoaded img).confirmShown).wr F.MGT_BOOTINFO_STEP 7).dataUp.wr F.MGT_BOOTINFO_STEP 8 := by
  delta Node.startSlot Node.slotSettings Node.ramLoaded Node.confirmShown
  with_reducible_and_instances rfl

/-! ### Start-up -/

/-- Start-up leaves what masters hold, the level, the state and the pair's record as they are, until it chooses the role. -/
structure Quiet (m n : Node) : Prop where
  results : n.results = m.results
  caps : n.caps = m.caps
  holds : n.holds = m.holds
  level : n.level = m.level
  mode : n.mode = m.mode
  pair : n.pair = m.pair

namespace Quiet

variable {a b c : Node}

theorem refl (n : Node) : Quiet n n := ⟨rfl, rfl, rfl, rfl, rfl, rfl⟩

theorem trans (h : Quiet a b) (g : Quiet b c) : Quiet a c :=
  ⟨g.results.trans h.results, g.caps.trans h.caps, g.holds.trans h.holds, g.level.trans h.level, g.mode.trans h.mode, g.pair.trans h.pair⟩

theorem ite {p : Prop} [Decidable p] (hb : Quiet a b) (hc : Quiet a c) : Quiet a (if p then b else c) := by
  split
  · exact hb
  · exact hc

theorem foldl {α : Type} {g : Node → α → Node} (h : ∀ n x, Quiet n (g n x)) (l : List α) (n : Node) : Quiet n (l.foldl g n) := by
  induction l generalizing n with
  | nil => exact refl n
  | cons x l ih => exact (h n x).trans (ih _)

theorem wr (n : Node) (f : Fld) (v : Nat) : Quiet n (n.wr f v) := ⟨rfl, rfl, rfl, rfl, rfl, rfl⟩

theorem put (n : Node) (f : Fld) (b : Bool) : Quiet n (n.put f b) := wr n f _

theorem wrs (n : Node) (l : List (Fld × Nat)) : Quiet n (n.wrs l) := foldl (fun n _ => wr n _ _) l n

theorem fault (n : Node) (x y z : Nat) : Quiet n (n.fault x y z) := by
  constructor <;> simp

theorem marginMark (n : Node) : Quiet n n.marginMark := by
  unfold Node.marginMark
  exact ite ((put n _ _).trans (fault _ _ _ _)) (put n _ _)

theorem placed (n : Node) (dev l b : Nat) : Quiet n (n.placeBlock dev l b) := ⟨rfl, rfl, rfl, rfl, rfl, rfl⟩

theorem flash (n : Node) (x : Flash) : Quiet n { n with flash := x } := ⟨rfl, rfl, rfl, rfl, rfl, rfl⟩

theorem blockMoved (n : Node) (dev : Nat) (held : Option Nat) (spare : Bool) : Quiet n (n.blockMoved dev held spare) := by
  unfold Node.blockMoved
  split
  · exact refl n
  · refine ite (ite (refl n) (flash n _)) ?_
    split
    · exact placed n _ _ _
    · exact refl n

theorem retireBlock (n : Node) (dev b : Nat) : Quiet n (n.retireBlock dev b) := by
  rw [Node.retireBlock_eq]
  refine ite (refl n) ?_
  have hall := (flash n { n.flash with retired := n.flash.retired ++ [dev * Config.flashBlocks + b] }).trans
    (blockMoved _ dev (n.blockHeld dev b) (n.flashSpare dev == 0))
  exact ite (hall.trans ((fault _ _ _ _).trans (put _ _ _))) (hall.trans (fault _ _ _ _))

theorem eraseOne (n : Node) (dev l : Nat) : Quiet n (n.eraseOne dev l) := by
  have hplaced : ∀ (k : Nat) (x : FMap Nat) (b : Nat),
      Quiet n (({ n with freeN := k, flash := { n.flash with erases := x } } : Node).placeBlock dev l b) :=
    fun _ _ _ => ⟨rfl, rfl, rfl, rfl, rfl, rfl⟩
  unfold Node.eraseOne
  refine ite (refl n) (ite (refl n) ?_)
  exact ite ((hplaced _ _ _).trans (retireBlock _ _ _)) (hplaced _ _ _)

theorem writeMain (n : Node) (img : List Byte) : Quiet n (n.writeMain img) :=
  (flash n _).trans (foldl (fun n _ => (eraseOne n 0 _).trans (eraseOne _ 1 _)) _ _)

theorem copyLog (n : Node) : Quiet n n.copyLog := by
  have hwrite : ∀ m : Node, Quiet m m.logWrite := by
    intro m
    unfold Node.logWrite
    exact (ite ((eraseOne m 0 _).trans (eraseOne _ 1 _)) (refl m)).trans ⟨rfl, rfl, rfl, rfl, rfl, rfl⟩
  unfold Node.copyLog
  dsimp only
  refine Quiet.trans ?_ (foldl (fun m _ => hwrite m) _ _)
  exact ⟨rfl, rfl, rfl, rfl, rfl, rfl⟩

theorem settings (n : Node) (x : FMap (List Byte)) : Quiet n { n with settings := x } := ⟨rfl, rfl, rfl, rfl, rfl, rfl⟩

theorem selectSettings (n : Node) (img : List Byte) : Quiet n (n.selectSettings img) := by
  unfold Node.selectSettings
  dsimp only
  split
  · exact (settings n _).trans ((fault _ _ _ _).trans (foldl (fun m k => ite (fault m _ _ _) (refl m)) _ _))
  · refine (settings n _).trans (foldl (fun m k => ?_) _ _)
    split
    · exact settings m _
    · exact ite ((settings m _).trans (fault _ _ _ _)) (settings m _)

theorem applySettings (n : Node) : Quiet n n.applySettings := by
  have hwr : ∀ (p : Prop) [Decidable p] (m : Node) (f : Fld) (v : Nat), Quiet m (if p then m else m.wr f v) :=
    fun p _ m f v => ite (refl m) (wr m f v)
  unfold Node.applySettings
  refine Quiet.trans ?_ (hwr _ _ _ _)
  refine Quiet.trans ?_ (hwr _ _ _ _)
  refine Quiet.trans ?_ (hwr _ _ _ _)
  refine Quiet.trans ?_ (hwr _ _ _ _)
  exact foldl (fun m p => foldl (fun m r => wr m _ _) _ m) _ n

theorem writeProtection (n : Node) (img : List Byte) : Quiet n (n.writeProtection img) := by
  unfold Node.writeProtection
  exact (foldl (fun m i => wrs m _) _ n).trans ((foldl (fun m i => wrs m _) _ _).trans (put _ _ _))

theorem dataUp (n : Node) : Quiet n n.dataUp := by
  have hbank : ∀ (m : Node) (b : Nat) (x : Bank), Quiet m (m.setBank b x) := fun _ _ _ => ⟨rfl, rfl, rfl, rfl, rfl, rfl⟩
  have hdrain : ∀ m : Node, Quiet m m.endDrains := fun m =>
    foldl (fun m _ => ite ((wr m _ _).trans (fault _ _ _ _)) (refl m)) (List.range 26) m
  have hbanks : ∀ m : Node, Quiet m m.freshBanks := fun m => foldl (fun m b => ite (hbank m b _) (refl m)) (List.range 26) m
  unfold Node.dataUp
  exact ite (refl n) ((put n _ _).trans ((wr _ _ _).trans ((hdrain _).trans (hbanks _))))

theorem ramLoaded (n : Node) (img : List Byte) : Quiet n (n.ramLoaded img) := by
  unfold Node.ramLoaded
  split
  · exact ⟨rfl, rfl, rfl, rfl, rfl, rfl⟩
  · exact refl n

theorem startSlot (n : Node) (fb : Bool) (img : List Byte) : Quiet n (n.startSlot fb img) := by
  rw [Node.startSlot_eq]
  have hset : Quiet n (n.slotSettings fb img) :=
    (put n _ _).trans ((wr _ _ _).trans ((selectSettings _ _).trans ((applySettings _).trans (writeProtection _ _))))
  have hram := hset.trans (ramLoaded _ img)
  generalize (n.slotSettings fb img).ramLoaded img = m at hram
  have hconf : Quiet m m.confirmShown := by
    unfold Node.confirmShown
    exact ite (put m _ _) (refl m)
  exact (hram.trans hconf).trans ((wr _ _ _).trans ((dataUp _).trans (wr _ _ _)))

theorem fellBack (n : Node) (cause : Nat) : Quiet n (n.fellBack cause) := (wrs n _).trans (fault _ _ _ _)

theorem onTrial (n : Node) : Quiet n n.onTrial := by
  unfold Node.onTrial
  exact ite ((flash n _).trans (wrs _ _)) (refl n)

theorem markSlot (n : Node) (fb : Bool) : Quiet n (n.markSlot fb) := flash n _

theorem trainProfile (n : Node) : Quiet n n.trainProfile := foldl (fun m _ => put m _ _) _ n

theorem of_loads {m n : Node} (h : Loads m n) : Quiet m n := by
  obtain ⟨_, _, _, _, _, _, _, _, _, _, _, _, hn⟩ := h.eq
  rw [hn]
  exact ⟨rfl, rfl, rfl, rfl, rfl, rfl⟩

end Quiet

/-- A node inside start-up, before it chooses its role. -/
structure Starting (n : Node) : Prop where
  results : n.results = []
  caps : n.caps = []
  holds : n.holds = []
  level : n.level = 0
  mode : n.mode = .boot
  tied : n.pair.tied = none

theorem Starting.of_quiet {m n : Node} (h : Starting m) (hq : Quiet m n) : Starting n :=
  ⟨hq.results.trans h.results, hq.caps.trans h.caps, hq.holds.trans h.holds, hq.level.trans h.level, hq.mode.trans h.mode,
    by rw [hq.pair, h.tied]⟩

/-- What start-up leaves at its end. -/
structure Started (n : Node) : Prop where
  ends : StartUpEnds n
  results : n.results = []
  caps : n.caps = []
  holds : n.holds = []

/-- The loss of the data island's power leaves nothing held. -/
theorem Node.dataOff_masters {n : Node} (hc : n.caps = []) (hh : n.holds = []) :
    n.dataOff.results = n.results ∧ n.dataOff.caps = [] ∧ n.dataOff.holds = [] := by
  cases hon : n.dataOn with
  | false =>
    rw [Node.dataOff_of_off hon]
    exact ⟨rfl, hc, hh⟩
  | true =>
    obtain ⟨_, _, _, _, heq, -⟩ := n.dataClear_eq
    rw [Node.dataOff_of_on hon, heq]
    refine ⟨rfl, ?_, rfl⟩
    show n.caps.filter _ = []
    rw [hc]
    rfl

theorem Node.release_masters (n : Node) : n.release.results = n.results ∧ n.release.caps = n.caps ∧ n.release.holds = n.holds := ⟨rfl, rfl, rfl⟩

/-- Without the claim, and with the data island off, COLD_STANDBY and FAULTED are what start-up may end in. -/
theorem Node.released_off (n : Node) : n.release.dataOff.on F.PAIR_STATUS_CLAIM_HELD = false ∧ n.release.dataOff.dataOn = false := by
  refine ⟨?_, Node.dataOff_dataOn _⟩
  rw [Node.dataOff_on _ rfl (by unfold TimKey; decide) (by decide)]
  exact Node.on_put_same n F.PAIR_STATUS_CLAIM_HELD false rfl

theorem Started.faulted {n : Node} (h : Starting n) : Started n.enterFaulted := by
  obtain ⟨h1, h2, h3⟩ := Node.dataOff_masters (n := n.release) h.caps h.holds
  have hoff := n.released_off
  exact ⟨⟨.inr (.inr (.inr rfl)), rfl, fun hm => absurd hm (by simp [Node.enterFaulted]), fun _ => hoff⟩, h1.trans h.results, h2, h3⟩

/-- A node in COLD_STANDBY, whatever led there. -/
theorem Started.standby {n : Node} (hr : n.results = []) (hc : n.caps = []) (hh : n.holds = []) : Started n.enterStandby := by
  obtain ⟨h1, h2, h3⟩ := Node.dataOff_masters (n := n.release) hc hh
  obtain ⟨hmode, hlevel, hclaim, hdata⟩ := n.enterStandby_shows
  exact ⟨⟨.inr (.inl hmode), hlevel, fun hm => absurd hm (by simp [hmode]), fun _ => ⟨hclaim, hdata⟩⟩, h1.trans hr, h2, h3⟩

/-- A field that shows no state is written. -/
theorem Started.wr {n : Node} (h : Started n) (f : Fld) (v : Nat) (h1 : F.PAIR_STATUS_CLAIM_HELD.key ≠ f.key) (h2 : F.PWR_ISLANDS_DATA.key ≠ f.key) :
    Started (n.wr f v) := by
  have hclaim := Node.on_wr_ne n (f := f) v h1
  have hdata := Node.on_wr_ne n (f := f) v h2
  refine ⟨⟨h.ends.mode, h.ends.level, fun hm => hclaim.trans (h.ends.active hm), fun hm => ?_⟩, h.results, h.caps, h.holds⟩
  obtain ⟨hc, hd⟩ := h.ends.cold hm
  exact ⟨hclaim.trans hc, hdata.trans hd⟩

theorem Node.enterActive_shows (n : Node) : n.enterActive.mode = .active ∧ n.enterActive.level = 0 ∧
    n.enterActive.on F.PAIR_STATUS_CLAIM_HELD = true := by
  refine ⟨rfl, rfl, ?_⟩
  have hclaim : n.assertClaim.on F.PAIR_STATUS_CLAIM_HELD = true := by
    unfold Node.assertClaim
    exact Node.on_put_same _ F.PAIR_STATUS_CLAIM_HELD true rfl
  unfold Node.enterActive
  generalize n.assertClaim = m at hclaim
  exact (Node.on_wr_ne _ _ (by decide)).trans hclaim

theorem Node.enterActive_masters (n : Node) : n.enterActive.results = n.results ∧ n.enterActive.caps = n.caps ∧ n.enterActive.holds = n.holds :=
  ⟨rfl, rfl, rfl⟩

theorem Started.roleDecide {n : Node} (hr : n.results = []) (hc : n.caps = []) (hh : n.holds = []) : Started n.roleDecide := by
  unfold Node.roleDecide
  split
  · have hstandby := Started.standby (n := { n with wait := .none, pair := { n.pair with tied := none } }) hr hc hh
    generalize Node.enterStandby { n with wait := .none, pair := { n.pair with tied := none } } = m at hstandby
    exact hstandby.wr _ _ (by decide) (by decide)
  · obtain ⟨hmode, hlevel, hclaim⟩ := n.enterActive_shows
    obtain ⟨h1, h2, h3⟩ := n.enterActive_masters
    exact ⟨⟨.inr (.inr (.inl hmode)), hlevel, fun _ => hclaim, fun hm => absurd hm (by simp [hmode])⟩, h1.trans hr, h2.trans hc, h3.trans hh⟩

theorem Started.roleChoice {n : Node} (h : Starting n) : Started n.roleChoice := by
  have hwait : ∀ k, Started { n with wait := .claim, freeN := k } := fun k =>
    ⟨⟨.inl ⟨h.mode, rfl⟩, h.level, fun hm => absurd hm (by simp [h.mode]), fun hm => absurd hm (by simp [h.mode])⟩, h.results, h.caps, h.holds⟩
  have hdecide : ∀ m : Node, m.results = n.results → m.caps = n.caps → m.holds = n.holds → Started m.roleDecide :=
    fun m h1 h2 h3 => Started.roleDecide (h1.trans h.results) (h2.trans h.caps) (h3.trans h.holds)
  unfold Node.roleChoice
  split
  · exact hdecide n rfl rfl rfl
  · rw [if_neg (by simp [h.tied])]
    split
    · exact hwait _
    · split
      · exact hdecide n rfl rfl rfl
      · unfold Node.free
        dsimp only
        split
        · exact hwait _
        · exact hdecide _ rfl rfl rfl

/-! ### Start-up ends (05 R156, R157; 12 R407) -/

theorem Starting.restartBegin (n : Node) (cause : Nat) : Starting (n.restartBegin cause) := by
  have hreset : ∀ m : Node, m.restartReset.results = [] ∧ m.restartReset.caps = [] ∧ m.restartReset.holds = [] ∧ m.restartReset.level = 0 ∧
      m.restartReset.pair.tied = none := fun _ => ⟨rfl, rfl, rfl, rfl, rfl⟩
  obtain ⟨h1, h2, h3, h4, h5⟩ := hreset (n.countTrial cause)
  unfold Node.restartBegin
  generalize (n.countTrial cause).restartReset = m at h1 h2 h3 h4 h5
  have hstart : Starting { m with mode := .boot } := ⟨h1, h2, h3, h4, rfl, h5⟩
  exact hstart.of_quiet (Quiet.wrs _ _)

theorem Started.roleStep {n : Node} (h : Starting n) : Started n.roleStep := by
  have hq : Quiet n (((n.trainProfile).copyLog).wr F.MGT_BOOTINFO_STEP 9) :=
    (Quiet.trainProfile n).trans ((Quiet.copyLog _).trans (Quiet.wr _ _ _))
  unfold Node.roleStep
  exact Started.roleChoice (h.of_quiet hq)

section

variable {again : Node → Node} (hagain : ∀ n, Starting n → Started (again n)) {n : Node}
include hagain

omit hagain in
theorem ite_started {p : Prop} [Decidable p] {a b : Node} (ha : Started a) (hb : Started b) : Started (if p then a else b) := by
  split
  · exact ha
  · exact hb

theorem Started.bootSlot (h : Starting n) (fb : Bool) (img mirror : List Byte) : Started (Node.bootSlot again n fb img mirror) := by
  have hs := h.of_quiet (Quiet.startSlot n fb img)
  unfold Node.bootSlot
  generalize n.startSlot fb img = m at hs
  dsimp only
  split
  · exact Started.roleStep hs
  · split
    · rename_i q hq
      exact Started.roleStep (hs.of_quiet (Quiet.of_loads (Loads.loadIsland hq)))
    · have hmark : Starting ((m.markSlot fb).wr (if fb then F.MGT_BOOTINFO_FALLBACK else F.MGT_BOOTINFO_MAIN) 7) :=
        hs.of_quiet ((Quiet.markSlot m fb).trans (Quiet.wr _ _ _))
      have hanew : ∀ q : Node, Started (again (q.restartBegin 6)) := fun q => hagain _ (Starting.restartBegin q 6)
      cases fb
      · exact ite_started (Started.faulted hmark) (hanew _)
      · exact ite_started (Started.faulted hmark) (hanew _)

theorem Started.bootChoose (h : Starting n) : Started (Node.bootChoose again n) := by
  have hfault : ∀ (p : Prop) [Decidable p] (m : Node) (a b c : Nat), Quiet m (if p then m else m.fault a b c) :=
    fun p _ m a b c => Quiet.ite (Quiet.refl m) (Quiet.fault m a b c)
  unfold Node.bootChoose
  dsimp only
  generalize (if n.flash.fbFailed = true then 7 else slotCode false n.flash.keys n.fbImg) = fc
  generalize (if 3 ≤ n.rd F.UPD_STATUS_TRIAL_RESTARTS ∧ fc = 1 then 0
    else if n.flash.mainFailed = true then 7 else slotCode false n.flash.keys n.mainImg) = mc
  have h5 : Starting ((n.wr F.MGT_BOOTINFO_MAIN mc).wr F.MGT_BOOTINFO_STEP 5) := h.of_quiet ((Quiet.wr n _ _).trans (Quiet.wr _ _ _))
  generalize (n.wr F.MGT_BOOTINFO_MAIN mc).wr F.MGT_BOOTINFO_STEP 5 = m at h5
  split
  · exact Started.bootSlot hagain (h5.of_quiet (Quiet.onTrial m)) _ _ _
  · have h6 := h5.of_quiet (hfault ((3 ≤ n.rd F.UPD_STATUS_TRIAL_RESTARTS ∧ fc = 1) ∨ m.flash.mainFailed = true) m 4 2 (256 * mc))
    generalize (if (3 ≤ n.rd F.UPD_STATUS_TRIAL_RESTARTS ∧ fc = 1) ∨ m.flash.mainFailed = true then m else m.fault 4 2 (256 * mc)) = q at h6
    have h7 : Starting ((q.wr F.MGT_BOOTINFO_FALLBACK fc).wr F.MGT_BOOTINFO_STEP 6) := h6.of_quiet ((Quiet.wr q _ _).trans (Quiet.wr _ _ _))
    generalize (q.wr F.MGT_BOOTINFO_FALLBACK fc).wr F.MGT_BOOTINFO_STEP 6 = r at h7
    split
    · exact Started.faulted (h7.of_quiet (hfault _ r _ _ _))
    · refine Started.bootSlot hagain (h7.of_quiet ?_) _ _ _
      exact Quiet.ite (Quiet.ite (Quiet.fellBack r 1) (Quiet.refl r)) (Quiet.ite (Quiet.refl r) (Quiet.fellBack r 0))

theorem Started.bootFrom (h : Starting n) : Started (Node.bootFrom again n) := by
  have h3 : Starting ((n.marginMark.put F.PWR_ISLANDS_CONTROL true).wr F.MGT_BOOTINFO_STEP 3) :=
    h.of_quiet ((Quiet.marginMark n).trans ((Quiet.put _ _ _).trans (Quiet.wr _ _ _)))
  unfold Node.bootFrom
  generalize (n.marginMark.put F.PWR_ISLANDS_CONTROL true).wr F.MGT_BOOTINFO_STEP 3 = m at h3
  dsimp only
  split
  · exact Started.faulted (h3.of_quiet (Quiet.fault m _ _ _))
  · split
    · exact Started.faulted h3
    · have h4 : Starting (m.wr F.MGT_BOOTINFO_STEP 4) := h3.of_quiet (Quiet.wr m _ _)
      generalize m.wr F.MGT_BOOTINFO_STEP 4 = q at h4
      split
      · unfold Node.bootCopy
        exact hagain _ (Starting.restartBegin _ _)
      · exact Started.bootChoose hagain h4

end

/-- Start-up ends as 12 R407 and 05 R157 say, whatever the images hold. -/
theorem Started.boot (k : Nat) {n : Node} (h : Starting n) : Started (Node.boot k n) := by
  induction k generalizing n with
  | zero => exact Started.faulted h
  | succ k ih =>
    rw [Node.boot_succ]
    exact Started.bootFrom (fun m hm => ih hm) h

/-! ### Start-up that finds no resident loader (05 R157) -/

/-- What a node shows that starts up and is FAULTED at step 3. -/
theorem Node.boot_halts (k : Nat) {n : Node} (hrom : n.romBad = false) (h0 : n.loaderGood 0 = false) (h1 : n.loaderGood 1 = false) :
    Node.boot (k + 1) n = ((n.marginMark.put F.PWR_ISLANDS_CONTROL true).wr F.MGT_BOOTINFO_STEP 3).enterFaulted := by
  have hany : ∀ c, n.loaderGood c = false := fun c => by
    by_cases hc : c = 0
    · rw [hc]
      exact h0
    · have : n.loaderGood c = n.loaderGood 1 := by simp [Node.loaderGood, hc]
      rw [this]
      exact h1
  have hpoison : ((n.marginMark.put F.PWR_ISLANDS_CONTROL true).wr F.MGT_BOOTINFO_STEP 3).poison = n.poison := by simp
  have hflash : ((n.marginMark.put F.PWR_ISLANDS_CONTROL true).wr F.MGT_BOOTINFO_STEP 3).flash = n.flash := by simp
  rw [Node.boot_succ]
  unfold Node.bootFrom
  generalize (n.marginMark.put F.PWR_ISLANDS_CONTROL true).wr F.MGT_BOOTINFO_STEP 3 = m at hpoison hflash
  have hrom' : m.romBad = false := by rw [Node.romBad, hpoison]; exact hrom
  have hloader : ∀ c, m.loaderGood c = false := fun c => by
    rw [Node.loaderGood, hflash]
    exact hany c
  dsimp only
  rw [if_neg (by simp [hrom']), hloader, hloader]
  exact if_pos rfl

end Sys2Proof.Machine
end

section
/-! PROOF. Restarts, power-on and role choice, and O28 (00 R15; 01 R22; 12 R407 to R411; 15 R510, R511). -/

namespace Sys2Proof.Machine

open Sys2Proof

/-! ### The settled node after a start-up -/

/-- A heartbeat leaves what masters hold. -/
theorem Node.hbEmit_masters (n : Node) (a b c : Nat) :
    (n.hbEmit a b c).results = n.results ∧ (n.hbEmit a b c).caps = n.caps ∧ (n.hbEmit a b c).holds = n.holds := by
  have hcount : ∀ (m : Node) (p : Nat) (x : List Byte), p < 20 →
      (m.txCount p x).results = m.results ∧ (m.txCount p x).caps = m.caps ∧ (m.txCount p x).holds = m.holds := by
    intro m p x hp
    obtain ⟨_, _, _, _, _, _, _, h⟩ := (Sends.txCount m hp x).eq
    rw [h]
    exact ⟨rfl, rfl, rfl⟩
  have hconsist : ∀ (m : Node) (x : List Byte),
      (m.hbConsist x).results = m.results ∧ (m.hbConsist x).caps = m.caps ∧ (m.hbConsist x).holds = m.holds := by
    intro m x
    unfold Node.hbConsist
    dsimp only
    split
    · rename_i hport
      simp only [Bool.and_eq_true, decide_eq_true_eq] at hport
      obtain ⟨⟨⟨-, -⟩, hlt⟩, -⟩ := hport
      split
      · exact ⟨rfl, rfl, rfl⟩
      · split
        · exact hcount _ _ _ (by omega)
        · exact ⟨rfl, rfl, rfl⟩
    · exact ⟨rfl, rfl, rfl⟩
  unfold Node.hbEmit
  dsimp only
  split
  · exact ⟨rfl, rfl, rfl⟩
  · exact hconsist _ _

/-- At level 0 `settle` finds no level to drop; a node that hands over is in COLD_STANDBY. -/
theorem Started.judged {old m : Node} (h : Started m) : Started (failCheck old (levelDrop m)) := by
  rw [levelDrop_kept (by rw [h.ends.level]; exact Nat.zero_le _)]
  rcases failCheck_cases old m with hc | hc
  · rw [hc]
    exact h
  · obtain ⟨h1, h2, h3⟩ := (m.put F.HLT_REPORT_FAIL true).hbEmit_masters (m.put F.HLT_REPORT_FAIL true).hbFlags
      (m.put F.HLT_REPORT_FAIL true).health (m.put F.HLT_REPORT_FAIL true).tn7State
    rw [hc]
    have hstandby := Started.standby (n := m.failTold) (h1.trans h.results) (h2.trans h.caps) (h3.trans h.holds)
    generalize m.failTold.enterStandby = q at hstandby
    exact hstandby.wr _ _ (by decide) (by decide)

theorem Started.follows {m t : Node} (h : Started m) (hf : Follows m t) : Started t := by
  have hclaim : t.on F.PAIR_STATUS_CLAIM_HELD = m.on F.PAIR_STATUS_CLAIM_HELD := by rw [Node.on, hf.rd _ (by decide), Node.on]
  have hdata : t.dataOn = m.dataOn := by rw [Node.dataOn, Node.on, hf.rd _ (by decide), Node.dataOn, Node.on]
  refine ⟨⟨?_, hf.level.trans h.ends.level, fun hm => ?_, fun hm => ?_⟩, hf.results.trans h.results, hf.caps.trans h.caps, hf.holds.trans h.holds⟩
  · rw [hf.mode, hf.wait]
    exact h.ends.mode
  · rw [hclaim]
    exact h.ends.active (hf.mode ▸ hm)
  · rw [hclaim, hdata]
    exact h.ends.cold (hf.mode ▸ hm)

/-- Start-up begins for `old` with that cause: the executive the owner, and what `old` records, holds in flash and finds in the boot ROM as it was. -/
structure Begins (old : Node) (cause : Nat) (n : Node) : Prop where
  starting : Starting n
  rom : old.romBad = false → n.romBad = false
  flash : n.flash.loader0 = old.flash.loader0 ∧ n.flash.loader1 = old.flash.loader1 ∧ n.flash.loaderSig0 = old.flash.loaderSig0 ∧
    n.flash.loaderSig1 = old.flash.loaderSig1 ∧ n.flash.keys = old.flash.keys
  cause : n.rd F.MGT_BOOTINFO_CAUSE = cause
  owner : n.rd F.MGT_OWNER_ID = 0
  pending : n.on F.MGT_OWN_PEND_VALID = false
  log : n.log = old.log

theorem Begins.loader {old n : Node} {cause : Nat} (h : Begins old cause n) (c : Nat) : n.loaderGood c = old.loaderGood c := by
  obtain ⟨h1, h2, h3, h4, h5⟩ := h.flash
  simp only [Node.loaderGood, h1, h2, h3, h4, h5]

theorem Node.marginMark_record (n : Node) (a b c : Nat) (h : n.hasRecord a b c) : n.marginMark.hasRecord a b c :=
  (Adds.marginMark n).records a b c h

theorem Started.told {n : Node} (h : Started n) (o : List Output) : Started { n with out := o } := ⟨⟨h.ends.mode, h.ends.level, h.ends.active, h.ends.cold⟩, h.results, h.caps, h.holds⟩

/-- What a node restart or a power-on leaves, whatever it has told the lines meanwhile. -/
theorem Begins.restarted_told {old old' n t : Node} {cause : Nat} {o : List Output} (h : Begins old cause n)
    (hf : Follows (failCheck old' (levelDrop { Node.boot 8 n with out := o })) t) : Restarted old cause t := by
  have hboot : Started { Node.boot 8 n with out := o } := (Started.boot 8 h.starting).told o
  have ht := hboot.judged.follows hf
  refine ⟨ht.ends, ht.results, ht.caps, ht.holds, fun hrom h0 h1 => ?_⟩
  have hhalt := Node.boot_halts 7 (h.rom hrom) ((h.loader 0).trans h0) ((h.loader 1).trans h1)
  have hmark : ∀ f : Fld, f.key ∉ followKeys → f.key ≠ F.PWR_ISLANDS_CONTROL.key → f.key ≠ F.MGT_BOOTINFO_STEP.key → ((n.marginMark.put F.PWR_ISLANDS_CONTROL true).wr F.MGT_BOOTINFO_STEP 3).rd f = n.rd f := by
    intro f h1 h2 h3
    rw [Node.rd_wr_ne _ _ h3, Node.rd_put_ne _ _ h2, Node.marginMark_rd _ _ h1]
  have hstep : ((n.marginMark.put F.PWR_ISLANDS_CONTROL true).wr F.MGT_BOOTINFO_STEP 3).rd F.MGT_BOOTINFO_STEP = 3 := Node.rd_wr_same _ _ _
  have hrec : ∀ a b c, old.hasRecord a b c → ((n.marginMark.put F.PWR_ISLANDS_CONTROL true).wr F.MGT_BOOTINFO_STEP 3).hasRecord a b c := by
    intro a b c hr
    refine n.marginMark_record a b c ?_
    unfold Node.hasRecord
    rw [h.log]
    exact hr
  generalize (n.marginMark.put F.PWR_ISLANDS_CONTROL true).wr F.MGT_BOOTINFO_STEP 3 = m at hhalt hmark hstep hrec
  have hlevel : { Node.boot 8 n with out := o }.level = 0 := hboot.ends.level
  have hmode : { Node.boot 8 n with out := o }.mode = .faulted := by rw [hhalt]; rfl
  rw [levelDrop_kept (by rw [hlevel]; exact Nat.zero_le _), failCheck_none (.inl (by rw [hmode]; decide)), hhalt] at hf
  have hrd : ∀ f : Fld, outlastsData f.key = true → ¬ TimKey f.key → f.key ≠ F.PWR_ISLANDS_DATA.key → f.key ≠ F.PAIR_STATUS_CLAIM_HELD.key →
      f.key ∉ followKeys → t.rd f = m.rd f := by
    intro f hk ht hd hc hfo
    rw [hf.rd f hfo]
    exact (Node.dataOff_rd m.release hk ht hd).trans (Node.rd_put_ne m false hc)
  have hlog : m.enterFaulted.log = m.log := by
    unfold Node.enterFaulted
    cases hon : m.release.dataOn with
    | false => rw [Node.dataOff_of_off hon]; rfl
    | true =>
      obtain ⟨_, _, _, _, heq, -⟩ := m.release.dataClear_eq
      rw [Node.dataOff_of_on hon, heq]
      rfl
  refine ⟨hf.mode, ?_, ?_, ?_, ?_, fun a b c hr => hf.records a b c ?_⟩
  · rw [hrd _ rfl (by unfold TimKey; decide) (by decide) (by decide) (by decide), hmark _ (by decide) (by decide) (by decide)]
    exact h.cause
  · rw [hrd _ rfl (by unfold TimKey; decide) (by decide) (by decide) (by decide), hstep]
  · rw [hrd _ rfl (by unfold TimKey; decide) (by decide) (by decide) (by decide), hmark _ (by decide) (by decide) (by decide)]
    exact h.owner
  · rw [Node.on, hrd _ rfl (by unfold TimKey; decide) (by decide) (by decide) (by decide), hmark _ (by decide) (by decide) (by decide)]
    exact h.pending
  · unfold Node.hasRecord
    rw [hlog]
    exact hrec a b c hr

/-- What a node restart or a power-on leaves. -/
theorem Begins.restarted {old old' n t : Node} {cause : Nat} (h : Begins old cause n) (hf : Follows (failCheck old' (levelDrop (Node.boot 8 n))) t) :
    Restarted old cause t := h.restarted_told (o := (Node.boot 8 n).out) hf

/-! ### Where start-up begins (00 R15; 05 R177) -/

/-- The data island's power is no event the node waits for. -/
theorem Node.dataOff_wait (n : Node) : n.dataOff.wait = n.wait := by
  cases hon : n.dataOn with
  | false => rw [Node.dataOff_of_off hon]
  | true =>
    obtain ⟨_, _, _, _, heq, -⟩ := n.dataClear_eq
    rw [Node.dataOff_of_on hon, heq]
    rfl

theorem Node.dataOff_keeps (n : Node) : n.dataOff.log = n.log ∧ n.dataOff.flash = n.flash ∧ ∀ a ∈ n.dataOff.poison, a ∈ n.poison := by
  cases hon : n.dataOn with
  | false =>
    rw [Node.dataOff_of_off hon]
    exact ⟨rfl, rfl, fun _ h => h⟩
  | true =>
    obtain ⟨_, _, _, _, heq, -⟩ := n.dataClear_eq
    rw [Node.dataOff_of_on hon, heq]
    exact ⟨rfl, rfl, fun a h => List.mem_of_mem_filter h⟩

theorem romBad_of_poison {m n : Node} (h : ∀ a ∈ n.poison, a ∈ m.poison) (hm : m.romBad = false) : n.romBad = false := by
  unfold Node.romBad at hm ⊢
  rw [List.any_eq_false] at hm ⊢
  exact fun a ha => hm a (h a ha)

theorem Node.countTrial_keeps (n : Node) (cause : Nat) :
    (n.countTrial cause).log = n.log ∧ (n.countTrial cause).flash = n.flash ∧ (n.countTrial cause).poison = n.poison := by
  unfold Node.countTrial
  split
  · exact ⟨rfl, rfl, rfl⟩
  · exact ⟨rfl, rfl, rfl⟩

/-- A field that neither survives a restart nor is written meanwhile reads its reset value. -/
theorem Node.restartReset_rd {n : Node} {f : Fld} (h : regKept (fun _ c => c == RCode.PO || c == RCode.keep) f.key = false) :
    n.restartReset.rd f = f.rst := by
  refine (keepRegs_get n.release.dataOff.regs (fun _ c => c == RCode.PO || c == RCode.keep) f.rst f.key).trans ?_
  rw [h]
  rfl

theorem Node.restartReset_keeps (n : Node) : n.restartReset.log = n.log ∧ n.restartReset.flash.loader0 = n.flash.loader0 ∧
    n.restartReset.flash.loader1 = n.flash.loader1 ∧ n.restartReset.flash.loaderSig0 = n.flash.loaderSig0 ∧
    n.restartReset.flash.loaderSig1 = n.flash.loaderSig1 ∧ n.restartReset.flash.keys = n.flash.keys ∧
    ∀ a ∈ n.restartReset.poison, a ∈ n.poison := by
  obtain ⟨hlog, hflash, hpoison⟩ := n.release.dataOff_keeps
  have heq : ∃ x, n.restartReset.flash = { n.release.dataOff.flash with busy := 0, relays := x, frags := [] } := ⟨[], rfl⟩
  obtain ⟨x, hx⟩ := heq
  rw [hx, hflash]
  exact ⟨hlog, rfl, rfl, rfl, rfl, rfl, hpoison⟩

/-- A node restart begins with its cause. -/
theorem Begins.restartBegin (n : Node) {cause : Nat} (hc : cause < 16) : Begins n cause (n.restartBegin cause) := by
  obtain ⟨hlog, hflash, hpoison⟩ := n.countTrial_keeps cause
  obtain ⟨h1, h2, h3, h4, h5, h6, h7⟩ := (n.countTrial cause).restartReset_keeps
  have howner : (n.countTrial cause).restartReset.rd F.MGT_OWNER_ID = 0 := Node.restartReset_rd rfl
  have hpend : (n.countTrial cause).restartReset.rd F.MGT_OWN_PEND_VALID = 0 := Node.restartReset_rd rfl
  rw [hlog] at h1
  rw [hflash] at h2 h3 h4 h5 h6
  rw [hpoison] at h7
  have hrd : ∀ f : Fld, f.key ≠ F.MGT_BOOTINFO_CAUSE.key → f.key ≠ F.MGT_BOOTINFO_STEP.key →
      (n.restartBegin cause).rd f = (n.countTrial cause).restartReset.rd f := fun f hne hne' =>
    (Node.rd_wr_ne _ _ hne').trans (Node.rd_wr_ne { (n.countTrial cause).restartReset with mode := .boot } _ hne)
  refine ⟨Starting.restartBegin n cause, fun hrom => romBad_of_poison (n := n.restartBegin cause) h7 hrom, ⟨h2, h3, h4, h5, h6⟩, ?_,
    (hrd _ (by decide) (by decide)).trans howner, ?_, h1⟩
  · refine (Node.rd_wr_ne _ _ (by decide)).trans ((Node.rd_wr_same _ _ _).trans ?_)
    exact Nat.mod_eq_of_lt (by simp only [F.MGT_BOOTINFO_CAUSE]; omega)
  · rw [Node.on, hrd _ (by decide) (by decide), hpend]
    rfl

/-- A restart as a command of a master or of the node makes it (00 R15). -/
theorem Yields.of_restart {c : Instr} {s : State} {n : Node} {cause : Nat} (hc : cause < 16) (he : exec c s = s.to (n.restart cause)) :
    Yields c s (Restarted n cause) := by
  refine Yields.of_judged he fun t hf => ?_
  exact (Begins.restartBegin n hc).restarted hf

/-! ### Power-on (05 R156; 15 R510) -/

/-- What a power-on keeps of the inputs and the partner's claim. -/
def Node.supplyHeld (n : Node) : List (Fld × Nat) :=
  [F.PWR_STATUS_PRI_OK, F.PWR_STATUS_BAT_OK, F.PWR_STATUS_PRI_AC, F.PWR_PRIMARY_FREQ, F.PWR_PRIMARY_VOLTS,
    F.PWR_BATTERY_VOLTS, F.PWR_BATTERY_MA, F.PAIR_STATUS_PARTNER_CLAIM].map (fun f => (f, n.rd f))

/-- What a power-on shows. -/
def Node.supplyShown (n : Node) : List (Fld × Nat) :=
  [(F.PAIR_STATUS_POS, strapPos n.pair.strap), (F.PWR_STATUS_STRAP_ERR, b2n (n.pair.strap == 3)), (F.PWR_STATUS_STORE_OK, 1),
    (F.PWR_STATUS_SOURCE, if n.on F.PWR_STATUS_PRI_OK then 1 else if n.on F.PWR_STATUS_BAT_OK then 2 else 0),
    (F.MGT_BOOTINFO_CAUSE, 0), (F.MGT_BOOTINFO_STEP, 2)]

/-- The fields a power-on writes. -/
def supplyKeys : List Nat :=
  [F.PWR_STATUS_PRI_OK.key, F.PWR_STATUS_BAT_OK.key, F.PWR_STATUS_PRI_AC.key, F.PWR_PRIMARY_FREQ.key, F.PWR_PRIMARY_VOLTS.key,
    F.PWR_BATTERY_VOLTS.key, F.PWR_BATTERY_MA.key, F.PAIR_STATUS_PARTNER_CLAIM.key, F.PAIR_STATUS_POS.key, F.PWR_STATUS_STRAP_ERR.key,
    F.PWR_STATUS_STORE_OK.key, F.PWR_STATUS_SOURCE.key, F.MGT_BOOTINFO_CAUSE.key, F.MGT_BOOTINFO_STEP.key]

/-- The node with its fields of code "—" left only, memory empty. -/
def Node.unpoweredLong (n : Node) : Node :=
  let n0 := { n.restartReset with mem := [], poison := n.poison.filter (fun a => decide (a < 0x40000)), memCe := [] }
  { n0 with regs := keepRegs n0.regs (fun _ c => c == RCode.keep), clock := {}, mode := .boot, unpowered := false, failed := [],
            pair := { strap := n.pair.strap, tset := n.pair.tset, seq := 0, nextCk := n.pair.nextCk,
                      drillDone := n.pair.drillDone.map (fun t => t - (n.clock.fresh : Int)), drillFail := n.pair.drillFail,
                      everStandby := n.pair.everStandby, lastDrive := n.pair.lastDrive } }

/-- A relay set that has closed by the loss of power is counted (07 R268). -/
def Node.closureCounted (n : Node) (l : Nat) : Node :=
  if FMap.get false n.pair.lastDrive l then
    { n.relayOp l false with pair := { n.pair with lastDrive := FMap.put false n.pair.lastDrive l false } } else n

theorem Node.powerOn_eq (n : Node) :
    n.powerOn = Node.boot 8 ([0, 1].foldl Node.closureCounted ((n.unpoweredLong.wrs n.supplyHeld).wrs n.supplyShown)) := by
  delta Node.powerOn Node.unpoweredLong Node.supplyShown Node.supplyHeld Node.closureCounted
  with_reducible_and_instances rfl

/-- A closure counted is a matter of the relay set's own fields and record. -/
theorem Node.closureCounted_eq (n : Node) (l : Nat) : ∃ r d, n.closureCounted l = { n with regs := r, pair := { n.pair with lastDrive := d } } ∧
    ∀ f : Fld, f.key < 32 * 0x10400000 → FMap.get f.rst r f.key = n.rd f := by
  unfold Node.closureCounted
  split
  · refine ⟨(n.relayOp l false).regs, _, rfl, fun f hf => ?_⟩
    show (n.relayOp l false).rd f = n.rd f
    unfold Node.relayOp
    rw [Node.rd_put_ne, Node.rd_wr_ne, Node.rd_wr_ne] <;> simp only [F.BBL_RELAY_CLOSED, F.BBL_RELAY_LIFE, F.BBL_RELAY_OPS_COUNT] <;> omega
  · exact ⟨_, _, rfl, fun _ _ => rfl⟩

theorem Node.unpoweredLong_rd {n : Node} {f : Fld} (h : regKept (fun _ c => c == RCode.keep) f.key = false) : n.unpoweredLong.rd f = f.rst := by
  refine (keepRegs_get n.restartReset.regs (fun _ c => c == RCode.keep) f.rst f.key).trans ?_
  rw [h]
  rfl

/-- A power-on begins with cause 0. -/
theorem Begins.powerOn (n : Node) : Begins n 0 ([0, 1].foldl Node.closureCounted ((n.unpoweredLong.wrs n.supplyHeld).wrs n.supplyShown)) := by
  obtain ⟨h1, h2, h3, h4, h5, h6, -⟩ := n.restartReset_keeps
  have hlong : Starting n.unpoweredLong := ⟨rfl, rfl, rfl, rfl, rfl, rfl⟩
  have hlog : n.unpoweredLong.log = n.log := h1
  have hflash : n.unpoweredLong.flash.loader0 = n.flash.loader0 ∧ n.unpoweredLong.flash.loader1 = n.flash.loader1 ∧
      n.unpoweredLong.flash.loaderSig0 = n.flash.loaderSig0 ∧ n.unpoweredLong.flash.loaderSig1 = n.flash.loaderSig1 ∧
      n.unpoweredLong.flash.keys = n.flash.keys := ⟨h2, h3, h4, h5, h6⟩
  have hpoison : ∀ a ∈ n.unpoweredLong.poison, a ∈ n.poison := fun a h => List.mem_of_mem_filter h
  have howner : n.unpoweredLong.rd F.MGT_OWNER_ID = 0 := Node.unpoweredLong_rd rfl
  have hpend : n.unpoweredLong.rd F.MGT_OWN_PEND_VALID = 0 := Node.unpoweredLong_rd rfl
  have hshown : ∀ (m : Node) (f : Fld), f.key ∉ supplyKeys → ((m.wrs n.supplyHeld).wrs n.supplyShown).rd f = m.rd f := fun m f hf => by
    have hnot : f.key ∉ n.supplyHeld.map (fun e => e.1.key) ++ n.supplyShown.map (fun e => e.1.key) := hf
    rw [List.mem_append, not_or] at hnot
    rw [Node.rd_wrs_ne _ _ fun e he heq => hnot.2 (heq ▸ List.mem_map_of_mem he),
      Node.rd_wrs_ne _ _ fun e he heq => hnot.1 (heq ▸ List.mem_map_of_mem he)]
  have hcause : ((n.unpoweredLong.wrs n.supplyHeld).wrs n.supplyShown).rd F.MGT_BOOTINFO_CAUSE = 0 := by
    unfold Node.supplyShown Node.wrs
    simp only [List.foldl_cons, List.foldl_nil]
    exact (Node.rd_wr_ne _ _ (by decide)).trans (Node.rd_wr_same _ _ _)
  have howner' := (hshown n.unpoweredLong F.MGT_OWNER_ID (by decide)).trans howner
  have hpend' := (hshown n.unpoweredLong F.MGT_OWN_PEND_VALID (by decide)).trans hpend
  have hstart := hlong.of_quiet ((Quiet.wrs _ n.supplyHeld).trans (Quiet.wrs _ n.supplyShown))
  have hkept : ((n.unpoweredLong.wrs n.supplyHeld).wrs n.supplyShown).log = n.unpoweredLong.log ∧
      ((n.unpoweredLong.wrs n.supplyHeld).wrs n.supplyShown).flash = n.unpoweredLong.flash ∧
      ((n.unpoweredLong.wrs n.supplyHeld).wrs n.supplyShown).poison = n.unpoweredLong.poison := by simp
  obtain ⟨hlog', hflash', hpoison'⟩ := hkept
  rw [hlog] at hlog'
  rw [← hflash'] at hflash
  rw [← hpoison'] at hpoison
  generalize (n.unpoweredLong.wrs n.supplyHeld).wrs n.supplyShown = m at *
  obtain ⟨r0, d0, hc0, hrd0⟩ := m.closureCounted_eq 0
  obtain ⟨r1, d1, hc1, hrd1⟩ := (m.closureCounted 0).closureCounted_eq 1
  have hrd : ∀ f : Fld, f.key < 32 * 0x10400000 → ((m.closureCounted 0).closureCounted 1).rd f = m.rd f := fun f hf => by
    rw [hc1]
    refine (hrd1 f hf).trans ?_
    rw [hc0]
    exact hrd0 f hf
  simp only [List.foldl_cons, List.foldl_nil]
  refine ⟨?_, ?_, ?_, (hrd _ (by decide)).trans hcause, (hrd _ (by decide)).trans howner', ?_, ?_⟩
  · rw [hc1, hc0]
    exact ⟨hstart.results, hstart.caps, hstart.holds, hstart.level, hstart.mode, hstart.tied⟩
  · rw [hc1, hc0]
    exact fun hrom => romBad_of_poison (n := { m with regs := r1, pair := _ }) hpoison hrom
  · rw [hc1, hc0]
    exact hflash
  · rw [Node.on, hrd _ (by decide), hpend']
    rfl
  · rw [hc1, hc0]
    exact hlog'

/-- A power-on ends as a start-up with cause 0. -/
theorem Yields.of_powerOn {c : Instr} {s : State} {n : Node} (he : exec c s = s.to n.powerOn) : Yields c s (Restarted n 0) := by
  refine Yields.of_judged he fun t hf => ?_
  rw [Node.powerOn_eq] at hf
  exact (Begins.powerOn n).restarted hf

/-! ### The end of hold-up and the unpowered interval (15 R510, R511) -/

theorem Restarted.of_eq {old old' t : Node} {cause : Nat} (h : Restarted old cause t) (hp : old'.poison = old.poison)
    (hf : old'.flash = old.flash) (hl : old'.log = old.log) : Restarted old' cause t := by
  refine ⟨h.ends, h.results, h.caps, h.holds, fun hrom h0 h1 => ?_⟩
  rw [Node.romBad, hp] at hrom
  simp only [Node.loaderGood, hf] at h0 h1
  obtain ⟨hmode, hcause, hstep, howner, hpend, hrec⟩ := h.halted hrom h0 h1
  refine ⟨hmode, hcause, hstep, howner, hpend, fun a b c hr => hrec a b c ?_⟩
  unfold Node.hasRecord at hr ⊢
  rwa [hl] at hr

section Power

variable {s : State}

/-- The node at the end of hold-up, before it is settled. -/
def Node.heldOut (n : Node) : Node :=
  Node.wrs { n.release.dataOff with
    mode := .off, level := 0, wait := .none, unpowered := true, mem := [],
    poison := n.poison.filter (fun a => decide (a < 0x40000)) }
    [(F.PWR_ISLANDS_CONTROL, 0), (F.PWR_STATUS_HOLDUP, 0), (F.PWR_STATUS_SOURCE, 0)]

theorem Node.heldOut_rd (n : Node) {f : Fld} (h1 : f.key ≠ F.PWR_ISLANDS_CONTROL.key) (h2 : f.key ≠ F.PWR_STATUS_HOLDUP.key)
    (h3 : f.key ≠ F.PWR_STATUS_SOURCE.key) : n.heldOut.rd f = n.release.dataOff.rd f :=
  (Node.rd_wr_ne _ _ h3).trans ((Node.rd_wr_ne _ _ h2).trans (Node.rd_wr_ne _ _ h1))

theorem endOfHoldUp_powersOff (hmode : s.node.mode ≠ .off) (hhold : s.node.on F.PWR_STATUS_HOLDUP = true) : Yields .endOfHoldUp s (fun n =>
    n.mode = .off ∧ n.level = 0 ∧ n.unpowered = true ∧ n.mem = [] ∧ n.ctlOn = false ∧ n.dataOn = false ∧
    n.on F.PAIR_STATUS_CLAIM_HELD = false ∧ (∀ l, l < 2 → n.on (F.BBL_RELAY_DRIVE_OPEN l) = false ∧
      (n.on (F.BBL_RELAY_MISMATCH l) = false → n.on (F.BBL_RELAY_CLOSED l) = true)) ∧
    n.on F.PWR_STATUS_HOLDUP = false ∧ n.rd F.PWR_STATUS_SOURCE = 0) := by
  have hexec : exec .endOfHoldUp s = s.to s.node.heldOut := by
    show s.to (if s.node.mode = .off ∨ (!s.node.on F.PWR_STATUS_HOLDUP) = true then _ else _) = _
    rw [if_neg (by simp [hmode, hhold])]
    rfl
  refine Yields.of_to hexec ?_
  have hf := settle_ends s.node s.node.heldOut
  obtain ⟨-, hrelay, -⟩ := settle_settled s.node s.node.heldOut
  rw [levelDrop_kept (Nat.zero_le _), failCheck_none (.inl (by show Mode.off ≠ Mode.active; decide))] at hf
  generalize settle s.node s.node.heldOut = t at hf hrelay
  obtain ⟨hclaim, hdata⟩ := s.node.released_off
  have hclaim' : t.on F.PAIR_STATUS_CLAIM_HELD = false := by
    rw [Node.on, hf.rd _ (by decide), Node.heldOut_rd _ (by decide) (by decide) (by decide)]
    exact hclaim
  refine ⟨hf.mode, hf.level, hf.unpowered, hf.mem, ?_, ?_, hclaim', fun l hl => ?_, ?_, ?_⟩
  · rw [Node.ctlOn, Node.on, hf.rd _ (by decide)]
    refine beq_eq_false_iff_ne.2 ?_
    have : s.node.heldOut.rd F.PWR_ISLANDS_CONTROL = 0 :=
      (Node.rd_wr_ne _ _ (by decide)).trans ((Node.rd_wr_ne _ _ (by decide)).trans (Node.rd_wr_same _ _ _))
    rw [this]
    decide
  · rw [Node.dataOn, Node.on, hf.rd _ (by decide), Node.heldOut_rd _ (by decide) (by decide) (by decide)]
    exact hdata
  · have hdrive : t.driveOpen l = false := by
      rw [Node.driveOpen, hclaim']
      rfl
    obtain ⟨h1, h2⟩ := hrelay l hl
    rw [hdrive] at h1 h2
    exact ⟨h1, h2⟩
  · rw [Node.on, hf.rd _ (by decide)]
    have : s.node.heldOut.rd F.PWR_STATUS_HOLDUP = 0 := (Node.rd_wr_ne _ _ (by decide)).trans (Node.rd_wr_same _ _ _)
    rw [this]
    rfl
  · rw [hf.rd _ (by decide)]
    exact Node.rd_wr_same _ _ _

variable (hmode : s.node.mode = .off)
include hmode

/-- The unpowered interval ends: a power-on follows where an input is in range. -/
theorem unpowered_ends (hfit : s.node.fits) :
    ((s.node.on F.PWR_STATUS_PRI_OK || s.node.on F.PWR_STATUS_BAT_OK) = false → Leaves .unpowered50MsEnd s { s.node with unpowered := false }) ∧
    ((s.node.on F.PWR_STATUS_PRI_OK || s.node.on F.PWR_STATUS_BAT_OK) = true → Yields .unpowered50MsEnd s (Restarted s.node 0)) := by
  have hnot : ¬ (s.node.mode ≠ .off) := not_not.2 hmode
  refine ⟨fun hoff => ?_, fun hon => ?_⟩
  · have hexec : exec .unpowered50MsEnd s = s.to { s.node with unpowered := false } := by
      refine congrArg s.to ((if_neg hnot).trans (if_pos ?_))
      simp only [Bool.or_eq_false_iff] at hoff
      show s.node.source = 0
      simp [Node.source, hoff.1, hoff.2]
    exact Leaves.of_to hexec rfl (SameLevelInputs.allowed ⟨rfl, rfl, rfl, rfl, rfl, fun _ _ => rfl⟩) hfit
  · have hexec : exec .unpowered50MsEnd s = s.to (Node.powerOn { s.node with unpowered := false }) := by
      refine congrArg s.to ((if_neg hnot).trans (if_neg ?_))
      show ¬ s.node.source = 0
      unfold Node.source
      cases hp : s.node.on F.PWR_STATUS_PRI_OK
      · cases hb : s.node.on F.PWR_STATUS_BAT_OK
        · simp [hp, hb] at hon
        · simp
      · simp
    exact (Yields.of_powerOn hexec).imp fun t h => h.of_eq rfl rfl rfl

/-- The battery enters its range in a node that is OFF: a power-on, but not within the unpowered interval. -/
theorem batteryEnters_off (hfit : s.node.fits) (hbat : s.node.on F.PWR_STATUS_BAT_OK = false) {volts : Nat} (ac : Bool) (freq : Nat)
    (h1 : 168 ≤ volts) (h2 : volts ≤ 1600) :
    (s.node.unpowered = true → Leaves (.powerInputEntersRange true volts ac freq) s
      (s.node.wrs [(F.PWR_BATTERY_VOLTS, min volts 65535), (F.PWR_BATTERY_MA, min freq 65535), (F.PWR_STATUS_BAT_OK, 1)])) ∧
    (s.node.unpowered = false → Yields (.powerInputEntersRange true volts ac freq) s (Restarted s.node 0)) := by
  have hin : inRange true false { volts := volts, ac := ac, freq := freq } = true := (inRange_enters true _).2 ⟨rfl, h1, h2⟩
  have hexec : exec (.powerInputEntersRange true volts ac freq) s =
      s.to ((s.node.wrs (measured true { volts := volts, ac := ac, freq := freq })).inputIn true) := by
    refine congrArg s.to ?_
    show (if inRange true (s.node.on (inputOk true)) _ = s.node.on (inputOk true) then _
      else if s.node.on (inputOk true) = true then _ else _) = _
    rw [show s.node.on (inputOk true) = false from hbat, hin, measureInput_eq]
    rfl
  have hoff : ∀ m : Node, m.mode = .off →
      m.inputIn true = if m.unpowered then m.put (inputOk true) true else (m.put (inputOk true) true).powerOn := fun m h =>
    if_pos h
  rw [hoff (s.node.wrs (measured true { volts := volts, ac := ac, freq := freq })) hmode] at hexec
  refine ⟨fun hun => ?_, fun hun => ?_⟩
  · have hexec' := hexec.trans (congrArg s.to (if_pos hun))
    have hzero : s.node.allowed = 0 := if_pos (.inl (by rw [hmode]; decide))
    have hlevel : s.node.level = 0 := Nat.le_zero.1 (hzero ▸ hfit)
    exact Yields.of_to hexec' (settle_follows _ _ (hlevel.le.trans (Nat.zero_le _)) le_rfl)
  · have hexec' := hexec.trans (congrArg s.to (if_neg (by rw [Bool.not_eq_true]; exact hun)))
    exact (Yields.of_powerOn hexec').imp fun t h => h.of_eq rfl rfl rfl

end Power

/-! ### The end of the wait for the partner (12 R407, R410) -/

section ClaimWait

variable {s : State} (hwait : s.node.wait = .claim)
include hwait

theorem claimWaitEnds_of_tie (htie : s.node.pair.tied = some true) :
    exec .claimWaitTimeout s = s.to { s.node with pair := { s.node.pair with tied := some false } } :=
  congrArg s.to ((if_neg (not_not.2 hwait)).trans (if_pos htie))

theorem claimWaitEnds_of_free (htie : s.node.pair.tied ≠ some true) : exec .claimWaitTimeout s = s.to s.node.roleDecide :=
  congrArg s.to ((if_neg (not_not.2 hwait)).trans (if_neg htie))

/-- Without a partner's claim the node asserts its own and is ACTIVE. -/
theorem claimWaitEnds_active (htie : s.node.pair.tied ≠ some true) (hfree : s.node.single = true ∨ s.node.on F.PAIR_STATUS_PARTNER_CLAIM = false) :
    exec .claimWaitTimeout s = s.to ({ s.node with
        mode := .active, level := 0, wait := .none, pair := { s.node.pair with claimAt := s.node.wchCycle, tied := none } }.wrs
      [(F.PAIR_STATUS_CLAIM_HELD, 1), (F.MGT_BOOTINFO_STEP, 10)]) := by
  refine (claimWaitEnds_of_free hwait htie).trans (congrArg s.to (if_neg ?_))
  rcases hfree with h | h <;> simp [Node.partnerClaim, h]

/-- The partner holds its claim: the node is in COLD_STANDBY, its data island unpowered. -/
theorem claimWaitEnds_standby (htie : s.node.pair.tied ≠ some true) (hsingle : s.node.single = false)
    (hclaim : s.node.on F.PAIR_STATUS_PARTNER_CLAIM = true) : Yields .claimWaitTimeout s (fun n =>
      n.mode = .coldStandby ∧ n.wait = .none ∧ n.level = 0 ∧ n.on F.PAIR_STATUS_CLAIM_HELD = false ∧ n.dataOn = false ∧
      n.rd F.MGT_BOOTINFO_STEP = 10) := by
  have hexec := (claimWaitEnds_of_free hwait htie).trans
    (congrArg s.to (if_pos (by simp [Node.partnerClaim, hsingle, hclaim])))
  refine Yields.of_judged hexec fun t hf => ?_
  have hw : ∀ m : Node, m.enterStandby.wait = m.wait := fun m => m.release.dataOff_wait
  have hwait' := hw { s.node with wait := .none, pair := { s.node.pair with tied := none } }
  obtain ⟨hmode, hlevel, hoff, hdata⟩ :=
    Node.enterStandby_shows { s.node with wait := .none, pair := { s.node.pair with tied := none } }
  generalize Node.enterStandby _ = m at hf hwait' hmode hlevel hoff hdata
  rw [levelDrop_kept (by rw [Node.wr_level, hlevel]; exact Nat.zero_le _),
    failCheck_none (.inl (by rw [Node.wr_mode, hmode]; decide))] at hf
  refine ⟨hf.mode.trans hmode, hf.wait.trans hwait', hf.level.trans hlevel, ?_, ?_, ?_⟩
  · rw [Node.on, hf.rd _ (by decide)]
    exact (Node.on_wr_ne _ _ (by decide)).trans hoff
  · rw [Node.dataOn, Node.on, hf.rd _ (by decide)]
    exact (Node.on_wr_ne _ _ (by decide)).trans hdata
  · rw [hf.rd _ (by decide), Node.rd_wr_same]
    rfl

end ClaimWait

/-- Settles O28. -/
theorem powerDownAndUp : Obligations.PowerDownAndUp :=
  ⟨fun _ => ⟨endOfHoldUp_powersOff, fun hmode hfit =>
      ⟨(unpowered_ends hmode hfit).1, (unpowered_ends hmode hfit).2, fun hbat _ ac freq h1 h2 => batteryEnters_off hmode hfit hbat ac freq h1 h2⟩⟩,
    fun _ hwait => ⟨fun htie => Settles.of_to (claimWaitEnds_of_tie hwait htie),
      fun htie hfree => Settles.of_to (claimWaitEnds_active hwait htie hfree), claimWaitEnds_standby hwait⟩⟩

end Sys2Proof.Machine
end

section
/-! PROOF. Ownership and node commands, and O54 (05 R179 to R182; 00 R15; 13 R453). -/

namespace Sys2Proof.Machine

open Sys2Proof

/-! ### Commands of registers at a fixed address -/

/-- A command that a master writes and that passes every check: its effect, and the answer. -/
theorem exec_command {c : Instr} {s : State} {x : Master} {r : Reg} {k : Nat} (he : exec c s = s.toBus (s.node.bus (wordWrite x r.addr k)))
    (h : RegPasses s.node x r k) (hr : regAt r.addr = some r) (ht : targetOf r.addr = some .regs) (ha : r.addr % 4 = 0)
    (hc : cmdOf r k = k) (h0 : k ≠ 0) (hk : k < 2 ^ 32) :
    exec c s = s.to (((s.node.leased x).command (s.node.presented x) r k k).emit (.resp x true 0)) := by
  rw [he, Node.bus_command h hr ht ha (hc.symm ▸ h0), hc, Nat.mod_eq_of_lt hk]
  rfl

@[simp] theorem Node.leased_owns (n : Node) (x p : Master) : (n.leased x).owns p = n.owns p := by
  obtain ⟨t, ht⟩ := n.leased_eq x
  rw [ht]
  rfl

@[simp] theorem Node.leased_pends (n : Node) (x p : Master) : (n.leased x).pends p = n.pends p := by
  obtain ⟨t, ht⟩ := n.leased_eq x
  rw [ht]
  rfl

/-! ### Ownership commands (05 R179 to R182) -/

/-- The fields of the owner and of the pending request after ownership has passed. -/
def Node.passed (n : Node) : List (Fld × Nat) :=
  let pended := n.on F.MGT_OWN_PEND_VALID
  [(F.MGT_OWNER_ID, if pended then n.rd F.MGT_OWN_PEND_ID else 0), (F.MGT_OWNER_NODE_HI, if pended then n.rd F.MGT_OWN_PEND_NODE_HI else 0),
    (F.MGT_OWNER_NODE_NODE_LO, if pended then n.rd F.MGT_OWN_PEND_NODE_NODE_LO else 0), (F.MGT_OWN_PEND_VALID, 0), (F.MGT_OWN_PEND_ID, 0),
    (F.MGT_OWN_PEND_NODE_HI, 0), (F.MGT_OWN_PEND_NODE_NODE_LO, 0)]

theorem Node.passOwner_eq (n : Node) : n.passOwner = { n.wrs n.passed with leaseAt := n.clock.fresh } := by
  have happ := wrs_append n (n.passed.take 3) (n.passed.drop 3)
  rw [List.take_append_drop] at happ
  rw [happ]
  rfl

theorem Node.command_own (n : Node) (p : Master) (k v : Nat) :
    n.command p .MGT_OWN_CMD k v = (n.ownCmd p k).2.setResult p (n.ownCmd p k).1 := rfl

theorem ownCmd_request (n : Node) (p : Master) : n.ownCmd p 1 = n.ownRequest p := rfl

theorem ownCmd_withdraw (n : Node) (p : Master) : n.ownCmd p 4 = if n.pends p then (0, n.clearPend) else (3, n) := rfl

theorem ownCmd_handover (n : Node) (p : Master) : n.ownCmd p 2 = if !n.owns p then (1, n) else (0, n.passOwner) := rfl

theorem ownCmd_renew (n : Node) (p : Master) : n.ownCmd p 3 = if !n.owns p then (1, n) else (0, n.leaseStart) := rfl

section Ownership

variable {s : State} {x : Master}

theorem ownCmd_runs {c : Instr} {k : Nat} (he : exec c s = s.toBus (s.node.bus (wordWrite x Reg.MGT_OWN_CMD.addr k)))
    (h : RegPasses s.node x .MGT_OWN_CMD k) (h0 : k ≠ 0) (h4 : k ≤ 4) :
    exec c s = s.to (((((s.node.leased x).ownCmd (s.node.presented x) k).2.setResult (s.node.presented x)
      ((s.node.leased x).ownCmd (s.node.presented x) k).1)).emit (.resp x true 0)) := by
  have hmod : k % 16 = k := Nat.mod_eq_of_lt (by omega)
  rw [exec_command he h (by decide) (by decide) (by decide) (by simp only [cmdOf, hmod, if_pos h4]) h0 (by omega), Node.command_own]

theorem withdraw_answered (h : RegPasses s.node x .MGT_OWN_CMD 4) :
    (s.node.pends (s.node.presented x) = true → Answered (.withdraw x) s x 0 (((s.node.leased x).wrs
      [(F.MGT_OWN_PEND_VALID, 0), (F.MGT_OWN_PEND_ID, 0), (F.MGT_OWN_PEND_NODE_HI, 0), (F.MGT_OWN_PEND_NODE_NODE_LO, 0)]).setResult (s.node.presented x) 0)) ∧
    (s.node.pends (s.node.presented x) = false → Answered (.withdraw x) s x 0 ((s.node.leased x).setResult (s.node.presented x) 3)) := by
  have hexec := ownCmd_runs (c := .withdraw x) rfl h (by decide) (by decide)
  refine ⟨fun hp => ?_, fun hp => ?_⟩
  · have hcmd : (s.node.leased x).ownCmd (s.node.presented x) 4 = (0, (s.node.leased x).clearPend):= by
      rw [ownCmd_withdraw, Node.leased_pends, hp, if_pos rfl]
    rw [hcmd] at hexec
    exact Settles.of_to hexec
  · have hcmd : (s.node.leased x).ownCmd (s.node.presented x) 4 = (3, s.node.leased x):= by
      rw [ownCmd_withdraw, Node.leased_pends, hp, if_neg Bool.false_ne_true]
    rw [hcmd] at hexec
    exact Settles.of_to hexec

theorem handover_answered (h : RegPasses s.node x .MGT_OWN_CMD 2) :
    (s.node.owns (s.node.presented x) = true → Answered (.handover x) s x 0
      ({ (s.node.leased x).wrs s.node.passed with leaseAt := s.node.clock.fresh }.setResult (s.node.presented x) 0)) ∧
    (s.node.owns (s.node.presented x) = false → Answered (.handover x) s x 0 ((s.node.leased x).setResult (s.node.presented x) 1)) := by
  have hexec := ownCmd_runs (c := .handover x) rfl h (by decide) (by decide)
  refine ⟨fun hp => ?_, fun hp => ?_⟩
  · have hcmd : (s.node.leased x).ownCmd (s.node.presented x) 2 = (0, (s.node.leased x).passOwner) := by
      rw [ownCmd_handover, Node.leased_owns, hp]
      rfl
    have hpass : (s.node.leased x).passOwner = { (s.node.leased x).wrs s.node.passed with leaseAt := s.node.clock.fresh } := by
      obtain ⟨t, ht⟩ := s.node.leased_eq x
      rw [Node.passOwner_eq, ht]
      rfl
    rw [hcmd, hpass] at hexec
    exact Settles.of_to hexec
  · rw [ownCmd_handover, Node.leased_owns, hp] at hexec
    exact Settles.of_to hexec

theorem renew_answered (h : RegPasses s.node x .MGT_OWN_CMD 3) :
    (s.node.owns (s.node.presented x) = true → Answered (.renew x) s x 0
      ({ s.node.leased x with leaseAt := s.node.clock.fresh }.setResult (s.node.presented x) 0)) ∧
    (s.node.owns (s.node.presented x) = false → Answered (.renew x) s x 0 ((s.node.leased x).setResult (s.node.presented x) 1)) := by
  have hexec := ownCmd_runs (c := .renew x) rfl h (by decide) (by decide)
  refine ⟨fun hp => ?_, fun hp => ?_⟩
  · have hcmd : (s.node.leased x).ownCmd (s.node.presented x) 3 = (0, (s.node.leased x).leaseStart) := by
      rw [ownCmd_renew, Node.leased_owns, hp]
      rfl
    have hstart : (s.node.leased x).leaseStart = { s.node.leased x with leaseAt := s.node.clock.fresh } := by
      obtain ⟨t, ht⟩ := s.node.leased_eq x
      rw [ht]
      rfl
    rw [hcmd, hstart] at hexec
    exact Settles.of_to hexec
  · rw [ownCmd_renew, Node.leased_owns, hp] at hexec
    exact Settles.of_to hexec

/-- The end of the lease. -/
theorem leaseExpiry_passes : (s.node.rd F.MGT_OWNER_ID ≠ 0 → Settles .leaseExpiry s { s.node.wrs s.node.passed with leaseAt := s.node.clock.fresh }) ∧
    (s.node.rd F.MGT_OWNER_ID = 0 → Settles .leaseExpiry s s.node) :=
  ⟨fun h => Settles.of_to (congrArg s.to ((if_neg h).trans s.node.passOwner_eq)), fun h => Settles.of_to (congrArg s.to (if_pos h))⟩

/-! ### REQUEST (05 R179) -/

/-- The fields of a pending request. -/
def pending (p : Master) : List (Fld × Nat) :=
  let far := if p.id = 3 then p.node else 0
  [(F.MGT_OWN_PEND_VALID, 1), (F.MGT_OWN_PEND_ID, p.id), (F.MGT_OWN_PEND_NODE_HI, far / 2 ^ 32), (F.MGT_OWN_PEND_NODE_NODE_LO, far % 2 ^ 32)]

variable (h : RegPasses s.node x .MGT_OWN_CMD 1)
include h

theorem request_runs : exec (.request x) s = s.to (((((s.node.leased x).ownRequest (s.node.presented x)).2.setResult (s.node.presented x)
    ((s.node.leased x).ownRequest (s.node.presented x)).1)).emit (.resp x true 0)) := by
  rw [ownCmd_runs (c := .request x) rfl h (by decide) (by decide), ownCmd_request]

theorem request_barred (hid : (s.node.presented x).id = 0 ∨ 3 < (s.node.presented x).id) :
    Answered (.request x) s x 0 ((s.node.leased x).setResult (s.node.presented x) 3) := by
  have hexec := request_runs h
  rw [Node.ownRequest, if_pos hid] at hexec
  exact Settles.of_to hexec

variable (h1 : 1 ≤ (s.node.presented x).id) (h3 : (s.node.presented x).id ≤ 3)
include h1 h3

theorem request_pending (hp : s.node.on F.MGT_OWN_PEND_VALID = true) :
    Answered (.request x) s x 0 ((s.node.leased x).setResult (s.node.presented x) (if s.node.pends (s.node.presented x) then 0 else 2)) := by
  have hexec := request_runs h
  rw [Node.ownRequest, if_neg (by omega), Node.leased_on, if_pos hp, Node.leased_pends] at hexec
  exact Settles.of_to hexec

omit h in
theorem Node.ownRequest_open {n : Node} (hp : n.on F.MGT_OWN_PEND_VALID = false) : n.ownRequest (s.node.presented x) =
    if (n.wrs (pending (s.node.presented x))).rd F.MGT_OWNER_ID ≠ 0 then (0, n.wrs (pending (s.node.presented x)))
    else if bitOf (byteAt (FMap.get [] n.settings 4) 0) (s.node.presented x).id then (0, ((n.wrs (pending (s.node.presented x))).msi 32).passOwner)
    else (3, (((n.wrs (pending (s.node.presented x))).msi 32).clearPend).msi 32) := by
  rw [Node.ownRequest, if_neg (by omega), if_neg (by rw [hp]; decide)]
  rfl

omit h h1 h3 in
theorem Node.pending_owner (n : Node) (p : Master) : (n.wrs (pending p)).rd F.MGT_OWNER_ID = n.rd F.MGT_OWNER_ID := by
  refine Node.rd_wrs_ne _ _ ?_
  simp only [pending, List.forall_mem_cons, List.not_mem_nil, false_imp_iff, implies_true, and_true]
  decide

theorem request_waits (hp : s.node.on F.MGT_OWN_PEND_VALID = false) (ho : s.node.rd F.MGT_OWNER_ID ≠ 0) :
    Answered (.request x) s x 0 (((s.node.leased x).wrs (pending (s.node.presented x))).setResult (s.node.presented x) 0) := by
  have hexec := request_runs h
  rw [Node.ownRequest_open h1 h3 ((Node.leased_on _ _ _).trans hp), Node.pending_owner, Node.leased_rd, if_pos ho] at hexec
  exact Settles.of_to hexec

/-! ### A REQUEST that the executive decides (05 R179) -/

/-- The fields of the owner and of the pending request. -/
def ownKeys : List Nat :=
  [F.MGT_OWNER_ID.key, F.MGT_OWNER_NODE_HI.key, F.MGT_OWNER_NODE_NODE_LO.key, F.MGT_OWN_PEND_VALID.key, F.MGT_OWN_PEND_ID.key,
    F.MGT_OWN_PEND_NODE_HI.key, F.MGT_OWN_PEND_NODE_NODE_LO.key]

/-- `n` is `m` but for ownership, its commands' results and what the lines are told. -/
structure Owned (m n : Node) : Prop where
  eq : ∃ r o k l, n = { m with regs := r, out := o ++ m.out, leaseAt := k, results := l }
  rd : ∀ f : Fld, f.key ∉ ownKeys → n.rd f = m.rd f

omit h h1 h3

theorem Owned.refl (n : Node) : Owned n n := ⟨⟨_, [], _, _, rfl⟩, fun _ _ => rfl⟩

theorem Owned.trans {a b c : Node} (hab : Owned a b) (hbc : Owned b c) : Owned a c := by
  obtain ⟨⟨_, o, _, _, rfl⟩, h1⟩ := hab
  obtain ⟨⟨_, o', _, _, rfl⟩, h2⟩ := hbc
  exact ⟨⟨_, o' ++ o, _, _, by rw [List.append_assoc]⟩, fun f hf => (h2 f hf).trans (h1 f hf)⟩

theorem Owned.wrs (n : Node) (l : List (Fld × Nat)) (hl : ∀ e ∈ l, e.1.key ∈ ownKeys) : Owned n (n.wrs l) :=
  ⟨by
    obtain ⟨r, hr⟩ := Node.wrs_regs l n
    exact ⟨r, [], _, _, hr⟩, fun _ hf => Node.rd_wrs_ne _ _ fun e he hk => hf (hk ▸ hl e he)⟩

theorem Owned.msi (n : Node) (v : Nat) : Owned n (n.msi v) := by
  unfold Node.msi
  split
  · exact ⟨⟨_, [.msix v], _, _, rfl⟩, fun _ _ => rfl⟩
  · exact Owned.refl n

theorem Owned.leaseAt (n : Node) (k : Nat) : Owned n { n with leaseAt := k } := ⟨⟨_, [], _, _, rfl⟩, fun _ _ => rfl⟩

theorem Owned.setResult (n : Node) (p : Master) (v : Nat) : Owned n (n.setResult p v) := ⟨⟨_, [], _, _, rfl⟩, fun _ _ => rfl⟩

theorem Owned.emit (n : Node) (o : Output) : Owned n (n.emit o) := ⟨⟨_, [o], _, _, rfl⟩, fun _ _ => rfl⟩

theorem pending_keys (p : Master) : ∀ e ∈ pending p, e.1.key ∈ ownKeys := by
  simp only [pending, List.forall_mem_cons, List.not_mem_nil, false_imp_iff, implies_true, and_true]
  decide

theorem Node.passed_keys (n : Node) : ∀ e ∈ n.passed, e.1.key ∈ ownKeys := by
  simp only [Node.passed, List.forall_mem_cons, List.not_mem_nil, false_imp_iff, implies_true, and_true]
  decide

theorem Owned.clearPend (n : Node) : Owned n n.clearPend := by
  refine Owned.wrs _ _ ?_
  simp only [List.forall_mem_cons, List.not_mem_nil, false_imp_iff, implies_true, and_true]
  decide

theorem Owned.passOwner (n : Node) : Owned n n.passOwner := by
  rw [Node.passOwner_eq]
  exact (Owned.wrs n _ n.passed_keys).trans (Owned.leaseAt _ _)

/-- The pending request of master `p`. -/
theorem Node.pending_shows (n : Node) (p : Master) :
    (n.wrs (pending p)).on F.MGT_OWN_PEND_VALID = true ∧ (n.wrs (pending p)).rd F.MGT_OWN_PEND_ID = p.id % 2 ^ 3 ∧
    (n.wrs (pending p)).rd F.MGT_OWN_PEND_NODE_HI = (if p.id = 3 then p.node else 0) / 2 ^ 32 % 2 ^ 16 ∧
    (n.wrs (pending p)).rd F.MGT_OWN_PEND_NODE_NODE_LO = (if p.id = 3 then p.node else 0) % 2 ^ 32 % 2 ^ 32 := by
  simp only [pending, Node.wrs, List.foldl_cons, List.foldl_nil]
  refine ⟨?_, ?_, ?_, Node.rd_wr_same _ _ _⟩
  · exact (Node.on_wr_ne _ _ (by decide)).trans ((Node.on_wr_ne _ _ (by decide)).trans ((Node.on_wr_ne _ _ (by decide)).trans
      (Node.on_put_same n F.MGT_OWN_PEND_VALID true rfl)))
  · exact (Node.rd_wr_ne _ _ (by decide)).trans ((Node.rd_wr_ne _ _ (by decide)).trans (Node.rd_wr_same _ _ _))
  · exact (Node.rd_wr_ne _ _ (by decide)).trans (Node.rd_wr_same _ _ _)

/-- No request is pending once the pending one is cleared. -/
theorem Node.clearPend_off (n : Node) : n.clearPend.on F.MGT_OWN_PEND_VALID = false :=
  (Node.on_wr_ne _ _ (by decide)).trans ((Node.on_wr_ne _ _ (by decide)).trans ((Node.on_wr_ne _ _ (by decide)).trans
    (Node.on_put_same n F.MGT_OWN_PEND_VALID false rfl)))

theorem Node.clearPend_owner (n : Node) {f : Fld} (h1 : f.key ≠ F.MGT_OWN_PEND_VALID.key) (h2 : f.key ≠ F.MGT_OWN_PEND_ID.key)
    (h3 : f.key ≠ F.MGT_OWN_PEND_NODE_HI.key) (h4 : f.key ≠ F.MGT_OWN_PEND_NODE_NODE_LO.key) : n.clearPend.rd f = n.rd f :=
  (Node.rd_wr_ne _ _ h4).trans ((Node.rd_wr_ne _ _ h3).trans ((Node.rd_wr_ne _ _ h2).trans (Node.rd_wr_ne _ _ h1)))

@[simp] theorem Node.leaseStart_rd (n : Node) (f : Fld) : n.leaseStart.rd f = n.rd f := rfl

@[simp] theorem Node.leaseStart_on (n : Node) (f : Fld) : n.leaseStart.on f = n.on f := rfl

/-- Ownership is written with no request left pending. -/
def Node.ownedBy (n : Node) (id hi lo : Nat) : Node := (((n.wr F.MGT_OWNER_ID id).wr F.MGT_OWNER_NODE_HI hi).wr F.MGT_OWNER_NODE_NODE_LO lo).clearPend.leaseStart

theorem Node.passOwner_of_pending {n : Node} (hp : n.on F.MGT_OWN_PEND_VALID = true) :
    n.passOwner = n.ownedBy (n.rd F.MGT_OWN_PEND_ID) (n.rd F.MGT_OWN_PEND_NODE_HI) (n.rd F.MGT_OWN_PEND_NODE_NODE_LO) := by
  unfold Node.passOwner Node.ownedBy
  rw [hp]
  simp only [if_true]
  rfl

theorem Node.ownedBy_rd (n : Node) (id hi lo : Nat) {f : Fld} (h1 : f.key ≠ F.MGT_OWN_PEND_VALID.key) (h2 : f.key ≠ F.MGT_OWN_PEND_ID.key)
    (h3 : f.key ≠ F.MGT_OWN_PEND_NODE_HI.key) (h4 : f.key ≠ F.MGT_OWN_PEND_NODE_NODE_LO.key) :
    (n.ownedBy id hi lo).rd f = (((n.wr F.MGT_OWNER_ID id).wr F.MGT_OWNER_NODE_HI hi).wr F.MGT_OWNER_NODE_NODE_LO lo).rd f :=
  (Node.leaseStart_rd _ _).trans (Node.clearPend_owner _ h1 h2 h3 h4)

theorem Node.ownedBy_id (n : Node) (id hi lo : Nat) : (n.ownedBy id hi lo).rd F.MGT_OWNER_ID = id % 2 ^ 3 := by
  rw [Node.ownedBy_rd _ _ _ _ (by decide) (by decide) (by decide) (by decide), Node.rd_wr_ne _ _ (by decide), Node.rd_wr_ne _ _ (by decide)]
  exact Node.rd_wr_same n F.MGT_OWNER_ID id

theorem Node.ownedBy_hi (n : Node) (id hi lo : Nat) : (n.ownedBy id hi lo).rd F.MGT_OWNER_NODE_HI = hi % 2 ^ 16 := by
  rw [Node.ownedBy_rd _ _ _ _ (by decide) (by decide) (by decide) (by decide), Node.rd_wr_ne _ _ (by decide)]
  exact Node.rd_wr_same _ F.MGT_OWNER_NODE_HI hi

theorem Node.ownedBy_lo (n : Node) (id hi lo : Nat) : (n.ownedBy id hi lo).rd F.MGT_OWNER_NODE_NODE_LO = lo % 2 ^ 32 := by
  rw [Node.ownedBy_rd _ _ _ _ (by decide) (by decide) (by decide) (by decide)]
  exact Node.rd_wr_same _ F.MGT_OWNER_NODE_NODE_LO lo

theorem Node.ownedBy_pending (n : Node) (id hi lo : Nat) : (n.ownedBy id hi lo).on F.MGT_OWN_PEND_VALID = false :=
  (Node.leaseStart_on _ _).trans (Node.clearPend_off _)

/-- An answered command shows the registers its effect leaves. -/
theorem Node.answered_rd (n : Node) (p : Master) (v : Nat) (o : Output) (f : Fld) : ((n.setResult p v).emit o).rd f = n.rd f := rfl

/-- A command that changes ownership only keeps the level. -/
theorem Yields.of_owned {c : Instr} {m : Node} {P : Node → Prop} (he : exec c s = s.to m) (ho : Owned (s.node.leased x) m)
    (hfit : s.node.fits) (hp : ∀ t, Follows m t → P t) : Yields c s P := by
  obtain ⟨lease, hlease⟩ := s.node.leased_eq x
  obtain ⟨⟨r, o, k, l, hm⟩, hrd⟩ := ho
  refine Yields.of_calm he (by rw [hm, hlease]) ?_ hfit hp
  have hkeys : ∀ k ∈ levelKeys, k ∉ ownKeys := by decide
  refine ⟨?_, ?_, ?_, ?_, ?_, fun f hf => (hrd f (hkeys _ hf)).trans (Node.leased_rd _ _ _)⟩ <;> rw [hm, hlease]

include h h1 h3

/-- The executive, which owns the node, decides a request at once by its settings. -/
theorem request_decided (hnode : (s.node.presented x).node < 2 ^ 48) (hp : s.node.on F.MGT_OWN_PEND_VALID = false)
    (ho : s.node.rd F.MGT_OWNER_ID = 0) (hfit : s.node.fits) :
    let p := s.node.presented x
    let far := if p.id = 3 then p.node else 0
    let grant := bitOf (byteAt (FMap.get [] s.node.settings 4) 0) p.id
    Yields (.request x) s (fun t => t.rd F.MGT_OWNER_ID = (if grant then p.id else 0) ∧ t.on F.MGT_OWN_PEND_VALID = false ∧
      (grant = true → t.rd F.MGT_OWNER_NODE_HI * 2 ^ 32 + t.rd F.MGT_OWNER_NODE_NODE_LO = far ∧ t.leaseAt = s.node.clock.fresh) ∧
      FMap.get 0 t.results (mkeyOf p) = (if grant then 0 else 3) ∧ Output.resp x true 0 ∈ t.out) := by
  intro p far grant
  have hexec := request_runs h
  rw [Node.ownRequest_open h1 h3 ((Node.leased_on _ _ _).trans hp), Node.pending_owner, Node.leased_rd, if_neg (not_not.2 ho)] at hexec
  have hset : (s.node.leased x).settings = s.node.settings := by
    obtain ⟨t, ht⟩ := s.node.leased_eq x
    rw [ht]
  have hclock : (s.node.leased x).clock = s.node.clock := by
    obtain ⟨t, ht⟩ := s.node.leased_eq x
    rw [ht]
  obtain ⟨hval, hid, hhi, hlo⟩ := (s.node.leased x).pending_shows p
  have hown := (s.node.leased x).pending_owner p
  have hq : Owned (s.node.leased x) (((s.node.leased x).wrs (pending p)).msi 32) := (Owned.wrs _ _ (pending_keys p)).trans (Owned.msi _ _)
  rw [Node.on, ← Node.msi_rd _ 32, ← Node.on] at hval
  rw [← Node.msi_rd _ 32] at hid hhi hlo hown
  have hfresh : (((s.node.leased x).wrs (pending p)).msi 32).clock = s.node.clock := by
    obtain ⟨⟨_, _, _, _, heq⟩, -⟩ := hq
    rw [heq, hclock]
  rw [hset] at hexec
  generalize ((s.node.leased x).wrs (pending p)).msi 32 = q at hexec hq hval hid hhi hlo hown hfresh
  cases hg : grant with
  | true =>
    rw [if_pos hg] at hexec
    dsimp only at hexec
    refine Yields.of_owned hexec (((hq.trans (Owned.passOwner q)).trans (Owned.setResult _ p 0)).trans (Owned.emit _ (.resp x true 0))) hfit fun t hf => ?_
    have hi := q.ownedBy_id (q.rd F.MGT_OWN_PEND_ID) (q.rd F.MGT_OWN_PEND_NODE_HI) (q.rd F.MGT_OWN_PEND_NODE_NODE_LO)
    have hh := q.ownedBy_hi (q.rd F.MGT_OWN_PEND_ID) (q.rd F.MGT_OWN_PEND_NODE_HI) (q.rd F.MGT_OWN_PEND_NODE_NODE_LO)
    have hl := q.ownedBy_lo (q.rd F.MGT_OWN_PEND_ID) (q.rd F.MGT_OWN_PEND_NODE_HI) (q.rd F.MGT_OWN_PEND_NODE_NODE_LO)
    have hv := q.ownedBy_pending (q.rd F.MGT_OWN_PEND_ID) (q.rd F.MGT_OWN_PEND_NODE_HI) (q.rd F.MGT_OWN_PEND_NODE_NODE_LO)
    have hlease : q.passOwner.leaseAt = q.clock.fresh := by rw [Node.passOwner_eq]
    rw [← Node.passOwner_of_pending hval] at hi hh hl hv
    have hrd : ∀ f : Fld, f.key ∉ followKeys → t.rd f = q.passOwner.rd f := fun f h => (hf.rd f h).trans (Node.answered_rd _ _ _ _ _)
    refine ⟨?_, ?_, fun _ => ⟨?_, ?_⟩, ?_, ?_⟩
    · rw [hrd _ (by decide), hi, hid, if_pos rfl]
      have hlt : p.id < 8 := Nat.lt_of_le_of_lt h3 (by decide)
      omega
    · rw [Node.on, hrd _ (by decide)]
      exact hv
    · have hfar : far < 2 ^ 48 := by
        show (if p.id = 3 then p.node else 0) < _
        split
        · exact hnode
        · decide
      rw [hrd _ (by decide), hrd _ (by decide), hh, hl, hhi, hlo]
      show far / 2 ^ 32 % 2 ^ 16 % 2 ^ 16 * 2 ^ 32 + far % 2 ^ 32 % 2 ^ 32 % 2 ^ 32 = far
      omega
    · exact hf.leaseAt.trans (hlease.trans (by rw [hfresh]))
    · rw [hf.results]
      exact FMap.get_put_same _ _ _ _
    · obtain ⟨l, hl⟩ := hf.out
      rw [hl]
      exact List.mem_append_right _ (List.mem_cons_self ..)
  | false =>
    rw [if_neg (by rw [Bool.not_eq_true]; exact hg)] at hexec
    dsimp only at hexec
    refine Yields.of_owned hexec ((((hq.trans (Owned.clearPend q)).trans (Owned.msi _ 32)).trans (Owned.setResult _ p 3)).trans
      (Owned.emit _ (.resp x true 0))) hfit fun t hf => ?_
    have hrd : ∀ f : Fld, f.key ∉ followKeys → t.rd f = q.clearPend.rd f := fun f h => (hf.rd f h).trans ((Node.answered_rd _ _ _ _ _).trans (q.clearPend.msi_rd 32 f))
    refine ⟨?_, ?_, fun h => absurd h Bool.false_ne_true, ?_, ?_⟩
    · rw [hrd _ (by decide), Node.clearPend_owner _ (by decide) (by decide) (by decide) (by decide), hown, Node.leased_rd, ho]
      rfl
    · rw [Node.on, hrd _ (by decide)]
      exact q.clearPend_off
    · rw [hf.results]
      exact FMap.get_put_same _ _ _ _
    · obtain ⟨l, hl⟩ := hf.out
      rw [hl]
      exact List.mem_append_right _ (List.mem_cons_self ..)

end Ownership

/-! ### RESTART (00 R15) -/

/-- A heartbeat tells the lines, and takes nothing back. -/
theorem Node.Grows.hbEmit (n : Node) (a b c : Nat) : Node.Grows n (n.hbEmit a b c) := by
  have hconsist : ∀ (m : Node) (x : List Byte), Node.Grows m (m.hbConsist x) := by
    intro m x
    unfold Node.hbConsist
    dsimp only
    split
    · rename_i hport
      simp only [Bool.and_eq_true, decide_eq_true_eq] at hport
      obtain ⟨⟨⟨-, -⟩, hlt⟩, -⟩ := hport
      split
      · exact .of_out rfl
      · split
        · exact (Node.Grows.emit m _).trans (Sends.txCount _ (by omega) _).out
        · exact .emit m _
    · exact .of_out rfl
  have hbeat : ∀ (pr : Pair) (o : Output), Node.Grows n ({ n with pair := pr }.emit o) := fun _ o => ⟨[o], rfl⟩
  unfold Node.hbEmit
  dsimp only
  split
  · exact hbeat _ _
  · exact (hbeat _ _).trans (hconsist _ _)

theorem Node.Grows.dataOff (n : Node) : Node.Grows n n.dataOff := by
  cases hon : n.dataOn with
  | false =>
    rw [Node.dataOff_of_off hon]
    exact .of_out rfl
  | true =>
    obtain ⟨_, _, o, _, heq, -⟩ := n.dataClear_eq
    rw [Node.dataOff_of_on hon, heq]
    exact ⟨o, rfl⟩

theorem Node.Grows.failTold (n : Node) : Node.Grows n n.failTold := by
  unfold Node.failTold
  have hput : ∀ (m : Node) (f : Fld) (b : Bool), Node.Grows m (m.put f b) := fun _ _ _ => .of_out rfl
  exact ((hput n _ _).trans (.hbEmit _ _ _ _)).trans (hput _ _ _)

theorem Node.Grows.enterStandby (n : Node) : Node.Grows n n.enterStandby := by
  have hrelease : Node.Grows n n.release := .of_out rfl
  have hrest : Node.Grows n.release.dataOff n.enterStandby := .of_out rfl
  exact (hrelease.trans (.dataOff _)).trans hrest

/-- A node that hands over takes back nothing it has told. -/
theorem Node.Grows.failCheck (old n : Node) : Node.Grows n (failCheck old n) := by
  rcases failCheck_cases old n with h | h
  · rw [h]
    exact .of_out rfl
  · rw [h]
    have hwr : ∀ (m : Node) (f : Fld) (v : Nat), Node.Grows m (m.wr f v) := fun _ _ _ => .of_out rfl
    exact ((Node.Grows.failTold n).trans (.enterStandby _)).trans (hwr _ _ _)

section NodeCommands

variable {s : State} {x : Master}

theorem Node.command_mgt (n : Node) (p : Master) (k v : Nat) : n.command p .MGT_CMD k v = n.mgtCmd k := rfl

theorem Node.mgtCmd_restart (n : Node) : n.mgtCmd 1 = n.restart 3 := by
  rw [Node.mgtCmd, if_pos rfl]

theorem Node.mgtCmd_stable (n : Node) : n.mgtCmd 2 = if !n.on F.PWR_DISCRETE_ZERO_SPEED then n.wr F.MGT_CMD_RESULT 3
    else { n with pair := { n.pair with stabling := 3 } }.wr F.MGT_CMD_RESULT 0 := rfl

theorem restart_runs (h : RegPasses s.node x .MGT_CMD 1) :
    exec (.restart x) s = s.to (((s.node.leased x).restart 3).emit (.resp x true 0)) := by
  rw [exec_command (c := .restart x) rfl h (by decide) (by decide) (by decide) rfl (by decide) (by decide), Node.command_mgt, Node.mgtCmd_restart]

/-- RESTART restarts the node with cause 3 (00 R15). -/
theorem restart_restarts (h : RegPasses s.node x .MGT_CMD 1) :
    Yields (.restart x) s (fun t => Restarted s.node 3 t ∧ Output.resp x true 0 ∈ t.out) := by
  have hbegins := Begins.restartBegin (s.node.leased x) (cause := 3) (by decide)
  have hemit : ∀ (m : Node) (o : Output), m.emit o = { m with out := o :: m.out } := fun _ _ => rfl
  have hexec := restart_runs h
  rw [Node.restart, hemit] at hexec
  have hlow := (Started.boot 8 hbegins.starting).ends.level
  have htold := fun (t : Node) (o : List Output) => hbegins.restarted_told (old' := s.node) (t := t) (o := o)
  generalize Node.boot 8 ((s.node.leased x).restartBegin 3) = b at hexec hlow htold
  refine Yields.of_judged hexec fun t hf => ⟨?_, ?_⟩
  · have hr := htold t _ hf
    obtain ⟨k, hk⟩ := s.node.leased_eq x
    rw [hk] at hr
    exact hr.of_eq rfl rfl rfl
  · have hzero : ({ b with out := Output.resp x true 0 :: b.out } : Node).level ≤ Node.allowed { b with out := Output.resp x true 0 :: b.out } :=
      hlow.le.trans (Nat.zero_le _)
    rw [levelDrop_kept hzero] at hf
    obtain ⟨l, hl⟩ := hf.out
    rw [hl]
    exact List.mem_append_right _ ((Node.Grows.failCheck _ _).mem (List.mem_cons_self ..))

/-! ### STABLE (13 R453) -/

theorem stable_runs (h : RegPasses s.node x .MGT_CMD 2) : exec (.stable x) s = s.to (((s.node.leased x).mgtCmd 2).emit (.resp x true 0)) := by
  rw [exec_command (c := .stable x) rfl h (by decide) (by decide) (by decide) rfl (by decide) (by decide), Node.command_mgt]

theorem stable_answered (h : RegPasses s.node x .MGT_CMD 2) :
    (s.node.on F.PWR_DISCRETE_ZERO_SPEED = false → Answered (.stable x) s x 0 ((s.node.leased x).wr F.MGT_CMD_RESULT 3)) ∧
    (s.node.on F.PWR_DISCRETE_ZERO_SPEED = true → Answered (.stable x) s x 0
      ({ s.node.leased x with pair := { s.node.pair with stabling := 3 } }.wr F.MGT_CMD_RESULT 0)) := by
  have hpair : (s.node.leased x).pair = s.node.pair := by
    obtain ⟨k, hk⟩ := s.node.leased_eq x
    rw [hk]
  have hexec := stable_runs h
  rw [Node.mgtCmd_stable, Node.leased_on, hpair] at hexec
  refine ⟨fun hz => ?_, fun hz => ?_⟩
  · rw [hz] at hexec
    exact Settles.of_to hexec
  · rw [hz] at hexec
    exact Settles.of_to hexec

variable (hrun : s.node.execRuns = true) (hsend : s.node.pair.sending = none) (hcap : s.node.pair.capture = none)
  (hdue : s.node.pair.drillDue = false) (hsingle : s.node.single = true)
include hrun hsend hcap hsingle

/-- A heartbeat period of a node that is alone and streams no checkpoint. -/
theorem Node.hbPeriod_single : s.node.hbPeriod = if s.node.pair.stabling = 0 then s.node else if s.node.pair.stabling = 1 then s.node.enterStabled
    else { s.node with pair := { s.node.pair with stabling := s.node.pair.stabling - 1 } } := by
  have hck : s.node.ckptProgress = s.node := by
    have hslot : ∀ l : List Nat, l.foldl Node.captureSlot s.node = s.node := by
      intro l
      induction l with
      | nil => rfl
      | cons k l ih =>
        have hk : s.node.captureSlot k = s.node := by simp [Node.captureSlot, hcap]
        rw [List.foldl_cons, hk, ih]
    have hidle : s.node.captureIdle = s.node := by simp [Node.captureIdle, hslot, Node.captureEnd, hcap]
    simp [Node.ckptProgress, hidle, hsend]
  unfold Node.hbPeriod
  rw [hck]
  simp [hrun, hsingle]

include hdue

/-- Two stabling heartbeats or one are left after this one. -/
theorem stabling_goes_on {k : Nat} (hk : s.node.pair.stabling = k + 2) :
    Settles .heartbeatSend s { s.node with pair := { s.node.pair with stabling := k + 1 } } := by
  refine Settles.of_to (congrArg s.to ?_)
  rw [Node.hbPeriod_single hrun hsend hcap hsingle, hk, if_neg (by omega), if_neg (by omega)]
  refine if_neg fun h => ?_
  simp [hdue] at h

omit hrun hsend hcap hdue hsingle in
/-- A mismatch that the loss of the data island's power leaves was there before. -/
theorem Node.dataOff_mismatch {n : Node} {l : Nat} (hl : l < 2) (h : n.on (F.BBL_RELAY_MISMATCH l) = false) :
    n.dataOff.on (F.BBL_RELAY_MISMATCH l) = false := by
  have htim : ¬ TimKey (F.BBL_RELAY_MISMATCH l).key := by
    simp only [TimKey, F.BBL_RELAY_MISMATCH]
    omega
  have hisl : (F.BBL_RELAY_MISMATCH l).key ≠ F.PWR_ISLANDS_DATA.key := by
    simp only [F.BBL_RELAY_MISMATCH, F.PWR_ISLANDS_DATA]
    omega
  cases hon : n.dataOn with
  | false => rw [Node.dataOff_of_off hon, h]
  | true =>
    rw [Node.dataOff_of_on hon, Node.on_put_ne _ _ hisl, Node.on, Node.dataClear_rd n htim]
    split
    · exact h
    · rfl

omit hdue in
/-- The last stabling heartbeat: the node is STABLED, its claim released and its islands off (13 R453). -/
theorem stabling_ends (hone : s.node.pair.stabling = 1) : Yields .heartbeatSend s (fun t => t.mode = .stabled ∧ t.level = 0 ∧ t.ctlOn = false ∧
    t.dataOn = false ∧ t.on F.PAIR_STATUS_CLAIM_HELD = false ∧ t.mem = [] ∧
    ∀ l, l < 2 → s.node.on (F.BBL_RELAY_MISMATCH l) = false → t.on (F.BBL_RELAY_CLOSED l) = true) := by
  have hexec : exec .heartbeatSend s = s.to s.node.enterStabled := by
    refine congrArg s.to ?_
    rw [Node.hbPeriod_single hrun hsend hcap hsingle, hone, if_neg (by decide), if_pos rfl]
    refine if_neg fun h => ?_
    exact absurd h.2 (by rw [show s.node.enterStabled.mode = .stabled from rfl]; decide)
  have hrd : ∀ f : Fld, f.key ≠ F.PWR_ISLANDS_CONTROL.key → s.node.enterStabled.on f = s.node.release.dataOff.on f :=
    fun f h => Node.on_put_ne _ _ h
  have hctl : s.node.enterStabled.on F.PWR_ISLANDS_CONTROL = false := Node.on_put_same _ F.PWR_ISLANDS_CONTROL false rfl
  have hmode : s.node.enterStabled.mode = .stabled := rfl
  have hlevel : s.node.enterStabled.level = 0 := rfl
  have hmem : s.node.enterStabled.mem = [] := rfl
  obtain ⟨hclaim, hdata⟩ := s.node.released_off
  refine Yields.of_to hexec ?_
  have hf := settle_ends s.node s.node.enterStabled
  obtain ⟨-, hrelay, -⟩ := settle_settled s.node s.node.enterStabled
  rw [levelDrop_kept (by rw [hlevel]; exact Nat.zero_le _), failCheck_none (.inl (by rw [hmode]; decide))] at hf
  generalize s.node.enterStabled = m at hf hrelay hrd hctl hmode hlevel hmem
  generalize settle s.node m = t at hf hrelay
  have hclaim' : t.on F.PAIR_STATUS_CLAIM_HELD = false := by
    rw [Node.on, hf.rd _ (by decide)]
    exact (hrd _ (by decide)).trans hclaim
  refine ⟨hf.mode.trans hmode, hf.level.trans hlevel, ?_, ?_, hclaim', hf.mem.trans hmem, fun l hl hmis => ?_⟩
  · rw [Node.ctlOn, Node.on, hf.rd _ (by decide)]
    exact hctl
  · rw [Node.dataOn, Node.on, hf.rd _ (by decide)]
    exact (hrd _ (by decide)).trans hdata
  · obtain ⟨-, hclosed⟩ := hrelay l hl
    have hkey : (F.BBL_RELAY_MISMATCH l).key ∉ followKeys ∧ (F.BBL_RELAY_MISMATCH l).key ≠ F.PWR_ISLANDS_CONTROL.key ∧
        (F.BBL_RELAY_MISMATCH l).key ≠ F.PAIR_STATUS_CLAIM_HELD.key := by
      interval_cases l <;> decide
    rw [Node.driveOpen, hclaim'] at hclosed
    refine hclosed ?_
    rw [Node.on, hf.rd _ hkey.1]
    refine (hrd _ hkey.2.1).trans (Node.dataOff_mismatch hl ?_)
    exact (Node.on_put_ne _ _ hkey.2.2).trans hmis

end NodeCommands

/-- Settles O54. -/
theorem ownershipAndNodeCommands : Obligations.OwnershipAndNodeCommands :=
  fun _ _ => ⟨fun h => ⟨request_barred h, fun h1 h3 hnode => ⟨request_pending h h1 h3, request_waits h h1 h3, request_decided h h1 h3 hnode⟩⟩,
    withdraw_answered, handover_answered, renew_answered, leaseExpiry_passes.1, leaseExpiry_passes.2, restart_restarts, stable_answered,
    fun hrun hsend hcap hdue hsingle => ⟨fun _ => stabling_goes_on hrun hsend hcap hdue hsingle, stabling_ends hrun hsend hcap hsingle⟩⟩

end Sys2Proof.Machine
end

section
/-! PROOF. The fault log, flash wear and findings, and O32 (13 R463, R465, R468, R480; 12 R440). -/

namespace Sys2Proof.Machine

open Sys2Proof

/-! ### Flash wear (13 R468, R480) -/

/-- `n` is `m` but for the wear of its flash, records and what is told of it. -/
structure Wears (m n : Node) : Prop where
  eq : ∃ r l o k er pl re lo, n = { m with
    regs := r, log := l, out := o, freeN := k,
    flash := { m.flash with erases := er, place := pl, retired := re, lone := lo } }
  rd : ∀ f : Fld, f.key ≠ F.MGT_FAULT_SOURCE.key → f.key ≠ F.UPD_STATUS_MIRROR_DEGRADED.key → n.rd f = m.rd f
  log : n.log.flash = m.log.flash ∧ n.log.written = m.log.written

/-- A record leaves what the flash log holds. -/
theorem Node.fault_flashLog (n : Node) (a b c : Nat) : (n.fault a b c).log.flash = n.log.flash ∧ (n.fault a b c).log.written = n.log.written := by
  have hmsi : ∀ (m : Node) (v : Nat), (m.msi v).log = m.log := fun m v => by
    unfold Node.msi
    split <;> rfl
  unfold Node.fault
  dsimp only
  split
  · exact ⟨rfl, rfl⟩
  · split
    · exact ⟨rfl, rfl⟩
    · rw [hmsi]
      exact ⟨rfl, rfl⟩

namespace Wears

variable {a b c : Node}

theorem refl (n : Node) : Wears n n := ⟨⟨_, _, _, _, _, _, _, _, rfl⟩, fun _ _ _ => rfl, rfl, rfl⟩

theorem trans (h : Wears a b) (g : Wears b c) : Wears a c := by
  have hrd := fun (f : Fld) h1 h2 => (g.rd f h1 h2).trans (h.rd f h1 h2)
  have hlog := And.intro (g.log.1.trans h.log.1) (g.log.2.trans h.log.2)
  obtain ⟨_, _, _, _, _, _, _, _, hb⟩ := h.eq
  obtain ⟨_, _, _, _, _, _, _, _, hc⟩ := g.eq
  rw [hb] at hc
  exact ⟨⟨_, _, _, _, _, _, _, _, hc⟩, hrd, hlog⟩

theorem ite {p : Prop} [Decidable p] (hb : Wears a b) (hc : Wears a c) : Wears a (if p then b else c) := by
  split
  · exact hb
  · exact hc

theorem foldl {α : Type} {g : Node → α → Node} (h : ∀ n x, Wears n (g n x)) (l : List α) (n : Node) : Wears n (l.foldl g n) := by
  induction l generalizing n with
  | nil => exact refl n
  | cons x l ih => exact (h n x).trans (ih _)

theorem fault (n : Node) (x y z : Nat) : Wears n (n.fault x y z) := by
  have hlog := n.fault_flashLog x y z
  have hrd := fun (f : Fld) => n.fault_rd x y z f
  obtain ⟨_, _, _, h⟩ := Logs.fault n x y z
  exact ⟨⟨_, _, _, n.freeN, n.flash.erases, n.flash.place, n.flash.retired, n.flash.lone, h⟩, fun f h1 _ => hrd f h1, hlog⟩

theorem flash (n : Node) (k : Nat) (er pl : FMap Nat) (re lo : List Nat) :
    Wears n { n with freeN := k, flash := { n.flash with erases := er, place := pl, retired := re, lone := lo } } :=
  ⟨⟨_, _, _, _, _, _, _, _, rfl⟩, fun _ _ _ => rfl, rfl, rfl⟩

theorem degraded (n : Node) : Wears n (n.put F.UPD_STATUS_MIRROR_DEGRADED true) :=
  ⟨⟨_, _, _, n.freeN, n.flash.erases, n.flash.place, n.flash.retired, n.flash.lone, rfl⟩, fun _ _ h2 => Node.rd_put_ne n _ h2, rfl, rfl⟩

theorem blockMoved (n : Node) (dev : Nat) (held : Option Nat) (spare : Bool) : Wears n (n.blockMoved dev held spare) := by
  unfold Node.blockMoved
  split
  · exact refl n
  · refine ite (ite (refl n) (flash n _ _ _ _ _)) ?_
    split
    · exact flash n _ _ _ _ _
    · exact refl n

theorem retireBlock (n : Node) (dev b : Nat) : Wears n (n.retireBlock dev b) := by
  rw [Node.retireBlock_eq]
  refine ite (refl n) ?_
  have hall := (flash n n.freeN n.flash.erases n.flash.place (n.flash.retired ++ [dev * Config.flashBlocks + b]) n.flash.lone).trans
    (blockMoved _ dev (n.blockHeld dev b) (n.flashSpare dev == 0))
  exact ite (hall.trans ((fault _ _ _ _).trans (degraded _))) (hall.trans (fault _ _ _ _))

theorem eraseOne (n : Node) (dev l : Nat) : Wears n (n.eraseOne dev l) := by
  have hplaced : ∀ (k : Nat) (x : FMap Nat) (b : Nat),
      Wears n (({ n with freeN := k, flash := { n.flash with erases := x } } : Node).placeBlock dev l b) :=
    fun k x b => flash n k x _ _ _
  unfold Node.eraseOne
  refine ite (refl n) (ite (refl n) ?_)
  exact ite ((hplaced _ _ _).trans (retireBlock _ _ _)) (hplaced _ _ _)

theorem eraseFor (n : Node) (l size : Nat) : Wears n (n.eraseFor l size) :=
  foldl (fun n _ => (eraseOne n 0 _).trans (eraseOne _ 1 _)) _ _

/-- Wear changes nothing the service level rests on. -/
theorem sameLevelInputs (h : Wears a b) : SameLevelInputs b a := by
  have hrd := h.rd
  have hkeys : ∀ k ∈ levelKeys, k ≠ F.MGT_FAULT_SOURCE.key ∧ k ≠ F.UPD_STATUS_MIRROR_DEGRADED.key := by decide
  obtain ⟨_, _, _, _, _, _, _, _, hb⟩ := h.eq
  subst hb
  exact ⟨rfl, rfl, rfl, rfl, rfl, fun f hf => hrd f (hkeys _ hf).1 (hkeys _ hf).2⟩

end Wears

/-! ### The flash log through `settle` (13 R463) -/

/-- `b` holds the flash log of `a`. -/
def SameFlashLog (a b : Node) : Prop := b.log.flash = a.log.flash ∧ b.log.written = a.log.written

namespace SameFlashLog

variable {a b c : Node}

theorem refl (n : Node) : SameFlashLog n n := ⟨rfl, rfl⟩

theorem trans (h : SameFlashLog a b) (g : SameFlashLog b c) : SameFlashLog a c := ⟨g.1.trans h.1, g.2.trans h.2⟩

theorem ite {p : Prop} [Decidable p] (hb : SameFlashLog a b) (hc : SameFlashLog a c) : SameFlashLog a (if p then b else c) := by
  split
  · exact hb
  · exact hc

theorem of_log (h : b.log = a.log) : SameFlashLog a b := ⟨by rw [h], by rw [h]⟩

theorem fault (n : Node) (x y z : Nat) : SameFlashLog n (n.fault x y z) := n.fault_flashLog x y z

end SameFlashLog

theorem Node.relayFollow_log (n : Node) (l : Nat) : (n.relayFollow l).log = n.log := by
  unfold Node.relayFollow
  dsimp only
  split <;> rfl

/-- Where the level stands, the settled node holds the flash log of the node it settles. -/
theorem settle_flashLog {old new : Node} (h : failCheck old (levelDrop new) = new) : SameFlashLog new (settle old new) := by
  have hwarn : ∀ (n : Node) (l : Nat), SameFlashLog n (relayWarn old n l) := fun n l => by
    unfold relayWarn
    exact .ite (.fault n _ _ _) (.refl n)
  have hmark : ∀ n : Node, SameFlashLog n n.marginMark := fun n => by
    unfold Node.marginMark
    exact .ite ((SameFlashLog.of_log rfl).trans (.fault _ _ _ _)) (.of_log rfl)
  have hmsi : ∀ (n : Node) (v : Nat), SameFlashLog n (n.msi v) := fun n v => .of_log (n.msi_log v)
  unfold settle
  rw [h]
  dsimp only
  refine SameFlashLog.trans ?_ (.of_log (irqEdges_log _ _))
  refine SameFlashLog.trans ?_ (.ite (hmsi _ _) (.refl _))
  refine SameFlashLog.trans ?_ (.ite (hmsi _ _) (.refl _))
  refine SameFlashLog.trans ?_ (.ite (.refl _) (hmark _))
  refine SameFlashLog.trans ?_ ((hwarn _ 0).trans (hwarn _ 1))
  exact .of_log ((Node.relayFollow_log _ 1).trans (Node.relayFollow_log new 0))

/-- A level that is allowed, and no lower than before, is judged as it is. -/
theorem judged_kept {old new : Node} (h : new.level ≤ new.allowed) (hl : old.level ≤ new.level) : failCheck old (levelDrop new) = new := by
  rw [levelDrop_kept h]
  unfold failCheck
  dsimp only
  refine if_neg ?_
  rintro ⟨-, h1, h2, -⟩
  omega

/-! ### The log copy (13 R463, R465) -/

/-- What writing records to the log region leaves. -/
structure LogWritten (k : Nat) (m n : Node) : Prop where
  eq : ∃ r l o j er pl re lo, n = { m with
    regs := r, log := l, out := o, freeN := j,
    flash := { m.flash with erases := er, place := pl, retired := re, lone := lo } }
  rd : ∀ f : Fld, f.key ≠ F.MGT_FAULT_SOURCE.key → f.key ≠ F.UPD_STATUS_MIRROR_DEGRADED.key → n.rd f = m.rd f
  flash : n.log.flash = m.log.flash
  written : n.log.written = m.log.written + k

theorem LogWritten.trans {a b c : Node} {j k : Nat} (h : LogWritten j a b) (g : LogWritten k b c) : LogWritten (j + k) a c := by
  have hrd := fun (f : Fld) h1 h2 => (g.rd f h1 h2).trans (h.rd f h1 h2)
  have hflash := g.flash.trans h.flash
  have hwritten := g.written
  rw [h.written] at hwritten
  obtain ⟨_, _, _, _, _, _, _, _, hb⟩ := h.eq
  obtain ⟨_, _, _, _, _, _, _, _, hc⟩ := g.eq
  rw [hb] at hc
  exact ⟨⟨_, _, _, _, _, _, _, _, hc⟩, hrd, hflash, by rw [hwritten, Nat.add_assoc]⟩

theorem LogWritten.logWrite (n : Node) : LogWritten 1 n n.logWrite := by
  have hwears : Wears n (if n.log.written % 512 = 0 then
      (n.eraseOne 0 (regionLog + n.log.written / 512 % 8)).eraseOne 1 (regionLog + n.log.written / 512 % 8) else n) :=
    .ite ((Wears.eraseOne n 0 _).trans (.eraseOne _ 1 _)) (.refl n)
  unfold Node.logWrite
  dsimp only
  generalize (if n.log.written % 512 = 0 then
      (n.eraseOne 0 (regionLog + n.log.written / 512 % 8)).eraseOne 1 (regionLog + n.log.written / 512 % 8) else n) = m at hwears
  have hrd := hwears.rd
  have hlog := hwears.log.1
  obtain ⟨_, _, _, _, _, _, _, _, hm⟩ := hwears.eq
  subst hm
  exact ⟨⟨_, _, _, _, _, _, _, _, rfl⟩, hrd, hlog, rfl⟩

theorem LogWritten.repeated (k : Nat) (n : Node) : LogWritten k n ((List.range k).foldl (fun a _ => a.logWrite) n) := by
  induction k with
  | zero => exact ⟨⟨_, _, _, _, _, _, _, _, rfl⟩, fun _ _ _ => rfl, rfl, rfl⟩
  | succ k ih =>
    rw [List.range_succ, List.foldl_append]
    exact ih.trans (.logWrite _)

/-- The newest 4 096 records. -/
def newest {α : Type} (l : List α) : List α := l.drop (l.length - 4096)

/-- The staged records are handed over to the flash log, which keeps the newest 4 096. -/
def Node.logTaken (n : Node) : Node :=
  { n with log := { n.log with flash := newest (n.log.flash ++ n.log.staged), staged := [] } }

theorem Node.logTaken_log (n : Node) : n.logTaken.log.flash = newest (n.log.flash ++ n.log.staged) ∧ n.logTaken.log.written = n.log.written := by
  unfold Node.logTaken
  with_reducible exact ⟨rfl, rfl⟩

theorem Node.copyLog_eq (n : Node) : n.copyLog = (List.range n.log.staged.length).foldl (fun a _ => a.logWrite) n.logTaken := rfl

theorem newest_kept {α : Type} (l : List α) : ∃ old, old ++ newest l = l ∧ (newest l).length ≤ 4096 ∧ (old ≠ [] → (newest l).length = 4096) := by
  refine ⟨l.take (l.length - 4096), List.take_append_drop _ _, ?_, fun h => ?_⟩
  · rw [newest, List.length_drop]
    omega
  · have hlen : 4096 < l.length := by
      by_contra hle
      exact h (by rw [Nat.sub_eq_zero_of_le (Nat.le_of_not_lt hle)]; rfl)
    rw [newest, List.length_drop]
    omega

/-- Within an erase block, records are written without an erase. -/
theorem logWrite_within {n : Node} {j : Nat} (h0 : n.log.written % 512 ≠ 0) (hj : n.log.written % 512 + j ≤ 512) :
    (List.range j).foldl (fun a _ => a.logWrite) n = { n with log := { n.log with written := n.log.written + j } } := by
  induction j with
  | zero => rfl
  | succ j ih =>
    rw [List.range_succ, List.foldl_append, ih (by omega), List.foldl_cons, List.foldl_nil]
    unfold Node.logWrite
    dsimp only
    rw [if_neg (by omega)]
    rfl

/-! ### A settled node that a command leaves settled -/

/-- A relay set that follows its drive is not operated. -/
theorem Node.relayFollow_idle {n : Node} {l : Nat} (h : n.relayFollows l) :
    n.relayFollow l = (n.relayNote l).put (F.BBL_RELAY_DRIVE_OPEN l) (n.driveOpen l) := by
  obtain ⟨-, hclosed⟩ := h
  have hkeys : (F.BBL_RELAY_CLOSED l).key ≠ (F.BBL_RELAY_DRIVE_OPEN l).key ∧ (F.BBL_RELAY_MISMATCH l).key ≠ (F.BBL_RELAY_DRIVE_OPEN l).key := by
    simp only [F.BBL_RELAY_CLOSED, F.BBL_RELAY_MISMATCH, F.BBL_RELAY_DRIVE_OPEN]
    omega
  have h1 : ((n.relayNote l).put (F.BBL_RELAY_DRIVE_OPEN l) (n.driveOpen l)).on (F.BBL_RELAY_CLOSED l) = n.on (F.BBL_RELAY_CLOSED l) :=
    Node.on_put_ne (n.relayNote l) _ hkeys.1
  have h2 : ((n.relayNote l).put (F.BBL_RELAY_DRIVE_OPEN l) (n.driveOpen l)).on (F.BBL_RELAY_MISMATCH l) = n.on (F.BBL_RELAY_MISMATCH l) :=
    Node.on_put_ne (n.relayNote l) _ hkeys.2
  unfold Node.relayFollow
  dsimp only
  refine if_neg ?_
  rw [h1, h2]
  intro hc
  simp only [beq_iff_eq, Bool.not_eq_true'] at hc
  rw [hclosed hc.2] at hc
  cases n.driveOpen l <;> simp at hc

theorem Node.relayFollow_idle_rd {n : Node} {l : Nat} (h : n.relayFollows l) {f : Fld} (hf : f.key ≠ (F.BBL_RELAY_DRIVE_OPEN l).key) :
    (n.relayFollow l).rd f = n.rd f := by
  rw [Node.relayFollow_idle h]
  exact Node.rd_put_ne (n.relayNote l) _ hf

/-- A relay set goes on following its drive while the other one is driven. -/
theorem Node.relayFollow_zero_one {n : Node} (h : n.relayFollows 1) : (n.relayFollow 0).relayFollows 1 := by
  have hk := Keeps.relayFollow n (l := 0) (by decide)
  unfold Node.relayFollows
  rw [n.relayFollow_on 0 (f := F.BBL_RELAY_DRIVE_OPEN 1) (by decide) (by decide) (by decide) (by decide),
    n.relayFollow_on 0 (f := F.BBL_RELAY_CLOSED 1) (by decide) (by decide) (by decide) (by decide),
    hk.driveOpen (by decide), hk.mismatch (by decide)]
  exact h

/-- The wear of a relay set that stays as it is gives no record. -/
theorem relayWarn_none {old new : Node} {l : Nat} (h1 : new.rd (F.BBL_RELAY_LIFE l) = old.rd (F.BBL_RELAY_LIFE l))
    (h2 : new.rd (F.BBL_RELAY_WARN_WARN l) = old.rd (F.BBL_RELAY_WARN_WARN l)) : relayWarn old new l = new := by
  unfold relayWarn
  dsimp only
  refine if_neg ?_
  rw [h1, h2]
  omega

/-- A margin mark that is true gives no record. -/
theorem Node.marginMark_true {n : Node} (h : n.on F.HLT_REPORT_MARGIN = n.margin) : n.marginMark.log = n.log := by
  have hkeep : Keeps reportKeys n (n.put F.HLT_REPORT_MARGIN n.margin) := Keeps.wr n F.HLT_REPORT_MARGIN (b2n n.margin) (by decide)
  unfold Node.marginMark
  dsimp only
  rw [hkeep.margin, h]
  cases n.margin <;> rfl

/-- The reduced margin does not depend on how the relays are driven. -/
theorem Node.margin_of_drive {a b : Node} (hflash : b.flash = a.flash) (hfinding : b.pair.finding = a.pair.finding)
    (hrd : ∀ f : Fld, f.key ≠ (F.BBL_RELAY_DRIVE_OPEN 0).key → f.key ≠ (F.BBL_RELAY_DRIVE_OPEN 1).key → b.rd f = a.rd f) : b.margin = a.margin := by
  have hbank (x : Nat) : b.rd (F.FAB_BANK_STATE x) = a.rd (F.FAB_BANK_STATE x) := by
    refine hrd _ ?_ ?_ <;> simp only [F.FAB_BANK_STATE, F.BBL_RELAY_DRIVE_OPEN] <;> omega
  have hslot (x : Nat) : b.rd (F.HLT_SLOT_ENGINE x) = a.rd (F.HLT_SLOT_ENGINE x) := by
    refine hrd _ ?_ ?_ <;> simp only [F.HLT_SLOT_ENGINE, F.BBL_RELAY_DRIVE_OPEN] <;> omega
  have hretired := hrd F.HLT_RETIRED_ENGINE (by decide) (by decide)
  have hpri := hrd F.PWR_STATUS_PRI_OK (by decide) (by decide)
  have hbat := hrd F.PWR_STATUS_BAT_OK (by decide) (by decide)
  have hpath := hrd F.HLT_REPORT_PATH (by decide) (by decide)
  have hlife0 := hrd (F.BBL_RELAY_LIFE 0) (by decide) (by decide)
  have hlife1 := hrd (F.BBL_RELAY_LIFE 1) (by decide) (by decide)
  simp only [Node.margin, Node.banksSpare, Node.banksN, Node.spareEngs, Node.retired, Node.slotOf, Node.flashSpare, Node.inputLost, Node.on,
    hbank, hslot, hretired, hpri, hbat, hpath, hlife0, hlife1, hflash, hfinding]
  rfl

/-- A settled node with the registers of the one before gives no record when it is settled again. -/
theorem settle_log {old new : Node} (hj : failCheck old (levelDrop new) = new) (hs : new.settled) (hregs : new.regs = old.regs) :
    (settle old new).log = new.log := by
  obtain ⟨-, hrelay, hmargin⟩ := hs
  have h0 := hrelay 0 (by decide)
  have h1 : (new.relayFollow 0).relayFollows 1 := Node.relayFollow_zero_one (hrelay 1 (by decide))
  have hrd : ∀ f : Fld, f.key ≠ (F.BBL_RELAY_DRIVE_OPEN 0).key → f.key ≠ (F.BBL_RELAY_DRIVE_OPEN 1).key →
      ((new.relayFollow 0).relayFollow 1).rd f = new.rd f := fun f hf0 hf1 =>
    (Node.relayFollow_idle_rd h1 hf1).trans (Node.relayFollow_idle_rd h0 hf0)
  have hold : ∀ f : Fld, new.rd f = old.rd f := fun f => by simp only [Node.rd, hregs]
  have hlog : ((new.relayFollow 0).relayFollow 1).log = new.log := (Node.relayFollow_log _ 1).trans (Node.relayFollow_log new 0)
  have hmargin' : new.mode ≠ .off → ((new.relayFollow 0).relayFollow 1).on F.HLT_REPORT_MARGIN = ((new.relayFollow 0).relayFollow 1).margin := by
    intro hoff
    have hk := (Keeps.relayFollow new (l := 0) (by decide)).trans (Keeps.relayFollow _ (l := 1) (by decide))
    have hreport := Node.margin_of_drive hk.flash hk.finding hrd
    rw [hreport, Node.on, hrd _ (by decide) (by decide)]
    exact hmargin hoff
  have hmode : ((new.relayFollow 0).relayFollow 1).mode = new.mode := by rw [Node.relayFollow_mode, Node.relayFollow_mode]
  unfold settle
  rw [hj]
  dsimp only
  rw [irqEdges_log]
  generalize (new.relayFollow 0).relayFollow 1 = q at hrd hlog hmargin' hmode
  rw [relayWarn_none (l := 0) ((hrd _ (by decide) (by decide)).trans (hold _)) ((hrd _ (by decide) (by decide)).trans (hold _)),
    relayWarn_none (l := 1) ((hrd _ (by decide) (by decide)).trans (hold _)) ((hrd _ (by decide) (by decide)).trans (hold _))]
  have hmark : (if q.mode = .off then q else q.marginMark).log = new.log := by
    split
    · exact hlog
    · rename_i hoff
      rw [Node.marginMark_true (hmargin' (hmode ▸ hoff)), hlog]
  generalize (if q.mode = .off then q else q.marginMark) = r at hmark
  split <;> split <;> simp only [Node.msi_log, hmark]

/-! ### Obligation O32: the log copy -/

section LogCopy

variable {s : State} (hset : s.node.settled) (hctl : s.node.ctlOn = true) (hoff : s.node.mode ≠ .off)

include hctl hoff in
theorem logCopy_runs : exec .faultLogCopy s = s.to ((List.range s.node.log.staged.length).foldl (fun a _ => a.logWrite) s.node.logTaken) :=
  congrArg s.to (if_pos (by simp [hctl, hoff]))

/-- What the flash log holds after the copy: the newest 4 096 of what it held and what was staged. -/
def Copied (old n : Node) : Prop :=
  n.log.written = old.log.written + old.log.staged.length ∧ ∃ gone, gone ++ n.log.flash = old.log.flash ++ old.log.staged ∧
    n.log.flash.length ≤ 4096 ∧ (gone ≠ [] → n.log.flash.length = 4096)

theorem Copied.of_flashLog {old m n : Node} (h : SameFlashLog m n) (hm : Copied old m) : Copied old n := by
  unfold Copied at hm ⊢
  rw [h.1, h.2]
  exact hm

theorem Node.logTaken_copied {old n : Node} (h : LogWritten old.log.staged.length old.logTaken n) : Copied old n := by
  unfold Copied
  rw [h.written, h.flash, old.logTaken_log.1, old.logTaken_log.2]
  exact ⟨rfl, newest_kept _⟩

include hset hctl hoff

/-- The copy keeps all else but the wear of the flash. -/
theorem logCopy_copies : Yields .faultLogCopy s (fun n => Copied s.node n ∧ SameBytes s.node n ∧ n.mode = s.node.mode ∧ n.level = s.node.level ∧
    n.flash = { s.node.flash with erases := n.flash.erases, place := n.flash.place, retired := n.flash.retired, lone := n.flash.lone }) := by
  refine Yields.of_to (logCopy_runs hctl hoff) ?_
  have hw := LogWritten.repeated s.node.log.staged.length s.node.logTaken
  generalize (List.range s.node.log.staged.length).foldl (fun a _ => a.logWrite) s.node.logTaken = m at hw
  have hcopied := Node.logTaken_copied hw
  have hrd := hw.rd
  obtain ⟨r, l, o, k, er, pl, re, lo, hm⟩ := hw.eq
  have hkeys : ∀ k ∈ levelKeys, k ≠ F.MGT_FAULT_SOURCE.key ∧ k ≠ F.UPD_STATUS_MIRROR_DEGRADED.key := by decide
  have hsame : SameLevelInputs m s.node := by
    refine ⟨?_, ?_, ?_, ?_, ?_, fun f hf => hrd f (hkeys _ hf).1 (hkeys _ hf).2⟩ <;> rw [hm] <;> rfl
  have hlevel : m.level = s.node.level := by
    rw [hm]
    rfl
  have hfit : m.level ≤ m.allowed := by
    rw [hlevel, hsame.allowed]
    exact hset.1
  have hf := settle_follows s.node m hfit hlevel.ge
  have hlog := settle_flashLog (judged_kept hfit hlevel.ge)
  generalize settle s.node m = t at hf hlog
  refine ⟨hcopied.of_flashLog hlog, fun x => ?_, ?_, hf.level.trans hlevel, ?_⟩
  · rw [hf.mem, hm]
    rfl
  · rw [hf.mode, hm]
    rfl
  · rw [hf.flash, hm]
    rfl

/-- Within an erase block the copy changes the log alone. -/
theorem logCopy_within (hk : s.node.log.staged = [] ∨ (s.node.log.written % 512 ≠ 0 ∧ s.node.log.written % 512 + s.node.log.staged.length ≤ 512)) :
    Yields .faultLogCopy s (fun n => Copied s.node n ∧ n.log.staged = [] ∧ Follows { s.node with log := { s.node.log with staged := [] } } n) := by
  have hw := LogWritten.repeated s.node.log.staged.length s.node.logTaken
  have hcopied := Node.logTaken_copied hw
  have heq : (List.range s.node.log.staged.length).foldl (fun a _ => a.logWrite) s.node.logTaken =
      { s.node.logTaken with log := { s.node.logTaken.log with written := s.node.log.written + s.node.log.staged.length } } := by
    rcases hk with h | ⟨h0, hj⟩
    · rw [← s.node.logTaken_log.2]
      generalize s.node.logTaken = q
      simp only [h, List.length_nil, List.range_zero, List.foldl_nil, Nat.add_zero]
    · exact logWrite_within (n := s.node.logTaken) h0 hj
  refine Yields.of_to (logCopy_runs hctl hoff) ?_
  rw [heq] at hcopied ⊢
  have hfit : ∀ l : FaultLog, ({ s.node with log := l } : Node).level ≤ Node.allowed { s.node with log := l } := fun l => by
    rw [SameLevelInputs.allowed (a := { s.node with log := l }) (b := s.node) ⟨rfl, rfl, rfl, rfl, rfl, fun _ _ => rfl⟩]
    exact hset.1
  have hkeep : ∀ l : FaultLog, ({ s.node with log := l } : Node).settled := fun l =>
    Keeps.settled (a := s.node) ⟨rfl, rfl, rfl, rfl, rfl, rfl, rfl, rfl, fun _ _ => rfl⟩ hset
  have hshape : ∃ l : FaultLog, ({ s.node.logTaken with log := { s.node.logTaken.log with written := s.node.log.written + s.node.log.staged.length } } : Node) =
      { s.node with log := l } ∧ l.staged = [] := ⟨_, rfl, rfl⟩
  obtain ⟨l, hl, hnone⟩ := hshape
  rw [hl] at hcopied ⊢
  have hj := judged_kept (hfit l) (le_refl s.node.level)
  have hlog := settle_log hj (hkeep l) rfl
  have hf := settle_follows s.node { s.node with log := l } (hfit l) (le_refl _)
  refine ⟨hcopied.of_flashLog (.of_log hlog), by rw [hlog, hnone], ?_⟩
  generalize settle s.node { s.node with log := l } = t at hf
  have hrec : ∀ src code arg, ¬ Node.hasRecord { s.node with log := { s.node.log with staged := [] } } src code arg := by
    rintro src code arg ⟨r, hr, -⟩
    cases hr
  exact ⟨hf.mode, hf.level, hf.wait, hf.unpowered, hf.failed, hf.ident, hf.mem, hf.poison, hf.caps, hf.holds, hf.results, hf.leaseAt, hf.settings,
    hf.clock, hf.engs, hf.staging, hf.tabs, hf.loaded, hf.chanSlot, hf.fab, hf.ports, hf.cnt, hf.delta, hf.inaug, hf.chans, hf.brg, hf.datasets,
    hf.ipId, hf.flash, hf.epochUnread, hf.updUnread, hf.memCe, hf.freeN, hf.pair, hf.out, fun a b c h => absurd h (hrec a b c), hf.rd⟩

end LogCopy

/-! ### Obligation O32: a flash block that fails (13 R480) -/

/-- The first region block that the flash block holds. -/
theorem Node.blockHeld_some {n : Node} {dev b l : Nat} (h : n.blockHeld dev b = some l) :
    l < 832 ∧ n.blockAt dev l = b ∧ ∀ j, j < l → n.blockAt dev j ≠ b := by
  unfold Node.blockHeld at h
  obtain ⟨hb, i, hi, hget, hbefore⟩ := List.find?_eq_some_iff_getElem.1 h
  rw [List.length_range] at hi
  rw [List.getElem_range] at hget
  subst hget
  refine ⟨hi, by simpa using hb, fun j hj => ?_⟩
  have := hbefore j hj
  rw [List.getElem_range] at this
  simpa using this

theorem Node.blockHeld_of_holds {n : Node} {dev b l : Nat} (h : l < 832 ∧ n.blockAt dev l = b ∧ ∀ j, j < l → n.blockAt dev j ≠ b) :
    n.blockHeld dev b = some l := by
  obtain ⟨hl, hat, hfirst⟩ := h
  cases hh : n.blockHeld dev b with
  | none =>
    have := List.find?_eq_none.1 hh l (List.mem_range.2 hl)
    simp [hat] at this
  | some k =>
    obtain ⟨-, hk, hbefore⟩ := Node.blockHeld_some hh
    rcases Nat.lt_trichotomy k l with h | h | h
    · exact absurd hk (hfirst k h)
    · rw [h]
    · exact absurd hat (hbefore l h)

/-- A device with a spare left has a block in service. -/
theorem Node.blocksIn_last {n : Node} {dev : Nat} (h : (n.flash.retired.filter (fun x => x / Config.flashBlocks == dev)).length ≤ Config.flashSpares) :
    ∃ b, (n.blocksIn dev).getLast? = some b := by
  have hne : n.blocksIn dev ≠ [] := by
    intro hnil
    have hall : ∀ b < 4096, dev * 4096 + b ∈ n.flash.retired := by
      intro b hb
      by_contra hnot
      have hmem : b ∈ (List.range Config.flashBlocks).filter (fun b => !decide (dev * Config.flashBlocks + b ∈ n.flash.retired)) := by
        refine List.mem_filter.2 ⟨List.mem_range.2 hb, ?_⟩
        show (!decide (dev * 4096 + b ∈ n.flash.retired)) = true
        simpa using hnot
      rw [Node.blocksIn, List.take_eq_nil_iff] at hnil
      rcases hnil with h0 | h0
      · exact absurd h0 (by decide)
      · rw [h0] at hmem
        cases hmem
    have hsub : (List.range 4096).map (fun b => dev * 4096 + b) ⊆ n.flash.retired.filter (fun x => x / Config.flashBlocks == dev) := by
      intro x hx
      obtain ⟨b, hb, rfl⟩ := List.mem_map.1 hx
      have hb := List.mem_range.1 hb
      refine List.mem_filter.2 ⟨hall b hb, ?_⟩
      rw [beq_iff_eq]
      show (dev * 4096 + b) / 4096 = dev
      omega
    have hnodup : ((List.range 4096).map (fun b => dev * 4096 + b)).Nodup :=
      List.nodup_range.map fun a b hab => by
        simpa using hab
    have hlen := (hnodup.subperm hsub).length_le
    rw [List.length_map, List.length_range] at hlen
    have : Config.flashSpares = 328 := rfl
    omega
  exact ⟨_, List.getLast?_eq_some_getLast hne⟩

theorem Node.blocksIn_mem {n : Node} {dev b : Nat} (h : b ∈ n.blocksIn dev) : b < 4096 ∧ dev * 4096 + b ∉ n.flash.retired := by
  obtain ⟨h1, h2⟩ := List.mem_filter.1 (List.mem_of_mem_take h)
  have h2 : (!decide (dev * 4096 + b ∈ n.flash.retired)) = true := h2
  exact ⟨List.mem_range.1 h1, by simpa using h2⟩

/-- A node whose flash block is retired, with where its regions lie and which devices serve a region alone. -/
def Node.blockLost (n : Node) (dev b : Nat) (place : FMap Nat) (lone : List Nat) : Node :=
  { n with flash := { n.flash with retired := n.flash.retired ++ [dev * 4096 + b], place := place, lone := lone } }

section FlashBlock

variable {s : State} {dev b : Nat}

theorem flashBlock_runs (hctl : s.node.ctlOn = true) (hdev : dev < 2) (hb : b < 4096) (hnew : dev * 4096 + b ∉ s.node.flash.retired) :
    exec (.flashBlockRetire dev b) s = s.to (if s.node.flashSpare dev == 0 then
    Node.put (Node.fault (Node.blockMoved (s.node.blockLost dev b s.node.flash.place s.node.flash.lone) dev (s.node.blockHeld dev b) (s.node.flashSpare dev == 0))
      4 4 (dev * 2 ^ 31 + b)) F.UPD_STATUS_MIRROR_DEGRADED true
    else Node.fault (Node.blockMoved (s.node.blockLost dev b s.node.flash.place s.node.flash.lone) dev (s.node.blockHeld dev b) (s.node.flashSpare dev == 0))
      4 4 (dev * 2 ^ 31 + b)) := by
  have hrun : exec (.flashBlockRetire dev b) s = s.to (s.node.retireBlock dev b) := congrArg s.to (if_pos ⟨hctl, hdev, hb⟩)
  rw [hrun, Node.retireBlock_eq, if_neg (show dev * Config.flashBlocks + b ∉ s.node.flash.retired from hnew)]
  rfl

/-- What the block held moves to the spare that comes into service. -/
theorem flashBlock_moved (hspare : s.node.flashSpare dev ≠ 0) : ∃ place,
    Node.blockMoved (s.node.blockLost dev b s.node.flash.place s.node.flash.lone) dev (s.node.blockHeld dev b) false =
      s.node.blockLost dev b place s.node.flash.lone ∧
    (∀ k, (∀ l, l < 832 → k = 1024 * dev + l → s.node.blockAt dev l ≠ b) → FMap.get 0 place k = FMap.get 0 s.node.flash.place k) ∧
    ∀ l, (l < 832 ∧ s.node.blockAt dev l = b ∧ ∀ j, j < l → s.node.blockAt dev j ≠ b) →
      ∃ sp, sp < 4096 ∧ dev * 4096 + sp ∉ s.node.flash.retired ++ [dev * 4096 + b] ∧ FMap.get 0 place (1024 * dev + l) = sp + 1 := by
  have hlast : ∃ sp, ((s.node.blockLost dev b s.node.flash.place s.node.flash.lone).blocksIn dev).getLast? = some sp := by
    refine Node.blocksIn_last ?_
    show ((s.node.flash.retired ++ [dev * 4096 + b]).filter (fun x => x / Config.flashBlocks == dev)).length ≤ 328
    have hlt : (s.node.flash.retired.filter (fun x => x / Config.flashBlocks == dev)).length < 328 := by
      have hdef : s.node.flashSpare dev = 328 - (s.node.flash.retired.filter (fun x => x / Config.flashBlocks == dev)).length := rfl
      omega
    have hone : ([dev * 4096 + b].filter (fun x => x / Config.flashBlocks == dev)).length ≤ 1 := List.length_filter_le _ _
    rw [List.filter_append, List.length_append]
    omega
  obtain ⟨sp, hsp⟩ := hlast
  cases hheld : s.node.blockHeld dev b with
  | none =>
    refine ⟨s.node.flash.place, rfl, fun _ _ => rfl, fun l hl => ?_⟩
    rw [Node.blockHeld_of_holds hl] at hheld
    cases hheld
  | some l =>
    obtain ⟨hl, hat, -⟩ := Node.blockHeld_some hheld
    refine ⟨FMap.put 0 s.node.flash.place (1024 * dev + l) (sp + 1), ?_, fun k hk => ?_, fun j hj => ?_⟩
    · unfold Node.blockMoved
      simp only [Bool.false_eq_true, if_false]
      rw [hsp]
      rfl
    · exact FMap.get_put_ne _ _ _ _ fun h => hk l hl h hat
    · rw [Node.blockHeld_of_holds hj] at hheld
      injection hheld with hheld
      subst hheld
      obtain ⟨h1, h2⟩ := Node.blocksIn_mem (List.mem_of_getLast? hsp)
      exact ⟨sp, h1, h2, FMap.get_put_same _ _ _ _⟩

/-- Without a spare the other device alone serves the region. -/
theorem flashBlock_lone : ∃ lone,
    Node.blockMoved (s.node.blockLost dev b s.node.flash.place s.node.flash.lone) dev (s.node.blockHeld dev b) true =
      s.node.blockLost dev b s.node.flash.place lone ∧
    ∀ x, x ∈ lone ↔ x ∈ s.node.flash.lone ∨
      ∃ l, (l < 832 ∧ s.node.blockAt dev l = b ∧ ∀ j, j < l → s.node.blockAt dev j ≠ b) ∧ x = 8 * dev + regionNo l := by
  cases hheld : s.node.blockHeld dev b with
  | none =>
    refine ⟨s.node.flash.lone, rfl, fun x => ⟨.inl, ?_⟩⟩
    rintro (h | ⟨l, hl, -⟩)
    · exact h
    · rw [Node.blockHeld_of_holds hl] at hheld
      cases hheld
  | some l =>
    have hl := Node.blockHeld_some hheld
    have huniq : ∀ x, (∃ l, (l < 832 ∧ s.node.blockAt dev l = b ∧ ∀ j, j < l → s.node.blockAt dev j ≠ b) ∧ x = 8 * dev + regionNo l) ↔
        x = 8 * dev + regionNo l := by
      refine fun x => ⟨?_, fun h => ⟨l, hl, h⟩⟩
      rintro ⟨j, hj, rfl⟩
      rw [Node.blockHeld_of_holds hj] at hheld
      injection hheld with hheld
      rw [hheld]
    simp only [huniq]
    by_cases hin : 8 * dev + regionNo l ∈ s.node.flash.lone
    · refine ⟨s.node.flash.lone, if_pos (decide_eq_true hin), fun x => ⟨.inl, ?_⟩⟩
      rintro (h | rfl)
      · exact h
      · exact hin
    · refine ⟨s.node.flash.lone ++ [8 * dev + regionNo l], if_neg (fun h => hin (of_decide_eq_true h)), fun x => ?_⟩
      rw [List.mem_append, List.mem_singleton]

end FlashBlock

/-- Settles O32. -/
theorem logAndFlash : Obligations.LogAndFlash := by
  refine fun s => ⟨fun hset hctl hoff => ⟨logCopy_copies hset hctl hoff, logCopy_within hset hctl hoff⟩, fun dev b hctl hdev hb hnew => ⟨fun hspare => ?_, fun hspare => ?_⟩,
    fun f hmode => ⟨Config.findingItem (findingNo f), Settles.of_to (congrArg s.to ?_)⟩⟩
  · obtain ⟨place, hplace, hkeep, hheld⟩ := flashBlock_moved (b := b) hspare
    refine ⟨place, Settles.of_to ?_, hkeep, hheld⟩
    rw [flashBlock_runs hctl hdev hb hnew, beq_false_of_ne hspare, hplace]
    rfl
  · obtain ⟨lone, hlone, hmem⟩ := flashBlock_lone (s := s) (dev := dev) (b := b)
    refine ⟨lone, Settles.of_to ?_, hmem⟩
    rw [flashBlock_runs hctl hdev hb hnew, hspare, beq_self_eq_true, if_pos rfl, hlone]
    rfl
  · rw [if_pos hmode, Node.found, if_pos hmode]

end Sys2Proof.Machine
end

section
/-! PROOF. The transfer area and the frames of the chain relay (13 R469 to R472). -/

namespace Sys2Proof.Machine

open Sys2Proof

/-! ### Frames of the chain relay (13 R470) -/

/-- `n` is `m` but for frames of the chain relay that wait or have been queued, what the relay has sent, and its count. -/
structure Relays (m n : Node) : Prop where
  eq : ∃ r p i fr eg rl, n = { m with
    regs := r, ports := p, fab := { m.fab with nextFid := i, frames := fr, egress := eg }, flash := { m.flash with relays := rl } }
  rd : ∀ f : Fld, f.key ≠ F.UPD_RELAY_STAT_BLOCKS.key → n.rd f = m.rd f

namespace Relays

variable {a b c : Node}

theorem refl (n : Node) : Relays n n := ⟨⟨_, _, _, _, _, _, rfl⟩, fun _ _ => rfl⟩

theorem trans (h : Relays a b) (g : Relays b c) : Relays a c := by
  have hrd := fun (f : Fld) h1 => (g.rd f h1).trans (h.rd f h1)
  obtain ⟨_, _, _, _, _, _, hb⟩ := h.eq
  obtain ⟨_, _, _, _, _, _, hc⟩ := g.eq
  rw [hb] at hc
  exact ⟨⟨_, _, _, _, _, _, hc⟩, hrd⟩

theorem ite {p : Prop} [Decidable p] (hb : Relays a b) (hc : Relays a c) : Relays a (if p then b else c) := by
  split
  · exact hb
  · exact hc

theorem foldl {α : Type} {g : Node → α → Node} (h : ∀ n x, Relays n (g n x)) (l : List α) (n : Node) : Relays n (l.foldl g n) := by
  induction l generalizing n with
  | nil => exact refl n
  | cons x l ih => exact (h n x).trans (ih _)

theorem setPort (n : Node) (p : Nat) (x : Port) : Relays n (n.setPort p x) := ⟨⟨_, _, _, _, _, _, rfl⟩, fun _ _ => rfl⟩

theorem setRelay (n : Node) (p : Nat) (x : Relay) : Relays n (n.setRelay p x) := ⟨⟨_, _, _, _, _, _, rfl⟩, fun _ _ => rfl⟩

theorem relayQueue (n : Node) (p : Nat) (b : List Byte) : Relays n (n.relayQueue p b) := ⟨⟨_, _, _, _, _, _, rfl⟩, fun _ _ => rfl⟩

theorem relayStep (n : Node) (p : Nat) : Relays n (n.relayStep p) := by
  unfold Node.relayStep
  split
  · exact refl n
  · exact ite (refl n) ((setPort n p _).trans (relayQueue _ p _))

theorem relaySend (n : Node) (p : Nat) (b : List Byte) : Relays n (n.relaySend p b) := by
  unfold Node.relaySend
  exact ite ((setPort n p _).trans (relayStep _ p)) (refl n)

theorem counted (n : Node) : Relays n (n.inc F.UPD_RELAY_STAT_BLOCKS) :=
  ⟨⟨_, _, _, _, _, _, rfl⟩, fun _ hf => Node.rd_inc_ne n hf⟩

theorem sendBlock (n : Node) (p k : Nat) : Relays n (n.sendBlock p k) := by
  unfold Node.sendBlock
  exact (foldl (fun a i => relaySend a p _) _ n).trans (counted _)

theorem relayPump : ∀ (k : Nat) (n : Node) (p : Nat), Relays n (Node.relayPump k n p)
  | 0, n, _ => refl n
  | k + 1, n, p => by
    unfold Node.relayPump
    exact ite (((sendBlock n p _).trans (setRelay _ p _)).trans (relayPump k _ p)) (refl n)

theorem offer (n : Node) (p : Nat) : Relays n (n.offer p) := by
  unfold Node.offer
  exact ite (relaySend n p _) (refl n)

theorem offerEnd (n : Node) (e : Nat) : Relays n (n.offerEnd e) := by
  unfold Node.offerEnd
  exact ite (relayPump 4 n _) (offer n _)

/-- The chain relay changes nothing the service level rests on. -/
theorem sameLevelInputs (h : Relays a b) : SameLevelInputs b a := by
  have hrd := h.rd
  have hkeys : ∀ k ∈ levelKeys, k ≠ F.UPD_RELAY_STAT_BLOCKS.key := by decide
  obtain ⟨_, _, _, _, _, _, hb⟩ := h.eq
  subst hb
  exact ⟨rfl, rfl, rfl, rfl, rfl, fun f hf => hrd f (hkeys _ hf)⟩

theorem level (h : Relays a b) : b.level = a.level := by
  obtain ⟨_, _, _, _, _, _, hb⟩ := h.eq
  rw [hb]

theorem flash (h : Relays a b) : ∃ rl, b.flash = { a.flash with relays := rl } := by
  obtain ⟨_, _, _, _, _, _, hb⟩ := h.eq
  exact ⟨_, by rw [hb]⟩

end Relays

/-! ### The transfer area (13 R469) -/

/-- The area is complete: every block of the image that block 0 names is held. -/
def Node.xferWhole (n : Node) : Prop := n.hasBlock 0 = true ∧ ∀ j, j < blocksOf n.flash.xferSize → n.hasBlock j = true

theorem Node.firstLack_none {n : Node} : n.firstLack = none ↔ ∀ j, j < blocksOf n.flash.xferSize → n.hasBlock j = true := by
  rw [Node.firstLack, List.find?_eq_none]
  simp [List.mem_range]

/-- The area is judged to be filling. -/
theorem Node.judgeXfer_filling {n : Node} (h : n.hasBlock 0 = false ∨ ∃ j, j < blocksOf n.flash.xferSize ∧ n.hasBlock j = false) :
    n.judgeXfer = n.wr F.UPD_STATUS_XFER 1 := by
  refine if_pos ?_
  rcases h with h | ⟨j, hj, hlack⟩
  · exact .inl (by rw [h]; rfl)
  · right
    rw [Option.isSome_iff_ne_none]
    intro hnone
    rw [Node.firstLack_none.1 hnone j hj] at hlack
    cases hlack

/-- The area is judged to be complete, or bad. -/
theorem Node.judgeXfer_whole {n : Node} (h : n.xferWhole) : n.judgeXfer = n.wr F.UPD_STATUS_XFER
    (if imgHeadOk 0x49 n.xferImage && leAt n.xferImage 0x16 2 == 0x0640 then 2 else 3) := by
  refine if_neg ?_
  rw [h.1, Node.firstLack_none.2 h.2]
  simp

/-- Whatever the judgement, one field shows it. -/
theorem Node.judgeXfer_wr (n : Node) : ∃ v, n.judgeXfer = n.wr F.UPD_STATUS_XFER v := by
  unfold Node.judgeXfer
  dsimp only
  split
  · exact ⟨_, rfl⟩
  · exact ⟨_, rfl⟩

/-- The area that holds a block, before it is judged. -/
def Node.blockIn (n : Node) (k : Nat) (b : List Byte) : Node :=
  { n with flash := { n.flash with
    xfer := FMap.put [] n.flash.xfer k b, xferId := if k = 0 then imgBuild b else n.flash.xferId,
    xferSize := if k = 0 then imgSize b else n.flash.xferSize } }

theorem Node.storeBlock_eq (n : Node) (k : Nat) (b : List Byte) :
    n.storeBlock k b = ((n.blockIn k b).eraseFor (regionXfer + k / 2) b.length).judgeXfer := by
  unfold Node.storeBlock Node.blockIn
  split <;> rfl

/-- What a stored block leaves: wear, and the judgement. -/
theorem Node.storeBlock_shape (n : Node) (k : Nat) (b : List Byte) : ∃ m v, Wears (n.blockIn k b) m ∧ n.storeBlock k b = m.wr F.UPD_STATUS_XFER v ∧
    m.judgeXfer = m.wr F.UPD_STATUS_XFER v := by
  obtain ⟨v, hv⟩ := Node.judgeXfer_wr ((n.blockIn k b).eraseFor (regionXfer + k / 2) b.length)
  exact ⟨_, v, Wears.eraseFor _ _ _, (n.storeBlock_eq k b).trans hv, hv⟩

end Sys2Proof.Machine
end

section
/-! PROOF. The update commands, and O55 (13 R459, R469, R473 to R479). -/

namespace Sys2Proof.Machine

open Sys2Proof

/-! ### The end of flash work (13 R459) -/

/-- Flash work has ended: RESULT 0, and its end not yet read. -/
def Node.updIdle (n : Node) : Prop := n.rd F.UPD_CMD_RESULT = 0 ∧ n.flash.busy = 0 ∧ n.updUnread = true

/-- The node at the end of flash work. -/
def Node.updEnded (n : Node) : Node :=
  { n with updUnread := true, flash := { n.flash with busy := 0, busyArg := 0, work := [] } }.updResult 0

theorem Node.updEnded_idle (n : Node) : n.updEnded.updIdle := ⟨Node.rd_wr_same _ F.UPD_CMD_RESULT 0, rfl, rfl⟩

theorem Node.updEnded_rd (n : Node) {f : Fld} (h : f.key ≠ F.UPD_CMD_RESULT.key) : n.updEnded.rd f = n.rd f := Node.rd_wr_ne _ _ h

theorem Node.updIdle.of_follows {m t : Node} (h : m.updIdle) (hf : Follows m t) : t.updIdle := by
  obtain ⟨h1, h2, h3⟩ := h
  exact ⟨(hf.rd _ (by decide)).trans h1, by rw [hf.flash, h2], hf.updUnread.trans h3⟩

section Done

variable {s : State} (hctl : s.node.ctlOn = true) (hfit : s.node.fits)

include hctl in
theorem updDone_runs : exec .updateCommandDone s = s.to s.node.updDone := congrArg s.to (if_pos hctl)

/-- The end of flash work keeps the level. -/
theorem Yields.of_updEnded {c : Instr} {m : Node} {P : Node → Prop} (hfit : s.node.fits) (he : exec c s = s.to m.updEnded)
    (hl : m.level = s.node.level) (hi : SameLevelInputs m s.node) (hp : ∀ t, Follows m.updEnded t → P t) : Yields c s P := by
  refine Yields.of_calm he hl ⟨hi.mode, hi.failed, hi.loaded, hi.settings, hi.hold, fun f hf => ?_⟩ hfit hp
  have hkeys : ∀ k ∈ levelKeys, k ≠ F.UPD_CMD_RESULT.key := by decide
  exact (m.updEnded_rd (hkeys _ hf)).trans (hi.rd f hf)

include hctl hfit

/-- SETWRITE stores its record (13 R478). -/
theorem setwrite_done (hbusy : s.node.flash.busy = 6) :
    Yields .updateCommandDone s (fun t => t.updIdle ∧ t.flash.settings = s.node.flash.settings ++ [s.node.flash.work]) := by
  have hexec := updDone_runs hctl
  have hstep : s.node.updDone = (Node.eraseFor { s.node with flash := { s.node.flash with settings := s.node.flash.settings ++ [s.node.flash.work] } }
      regionSettings s.node.flash.work.length).updEnded := by
    unfold Node.updDone
    simp only [hbusy]
    rfl
  rw [hstep] at hexec
  have hw := Wears.eraseFor { s.node with flash := { s.node.flash with settings := s.node.flash.settings ++ [s.node.flash.work] } }
    regionSettings s.node.flash.work.length
  generalize Node.eraseFor _ _ _ = m at hexec hw
  have hsame := hw.sameLevelInputs
  obtain ⟨_, _, _, _, _, _, _, _, hm⟩ := hw.eq
  refine Yields.of_updEnded hfit hexec (by rw [hm]) ⟨hsame.mode, hsame.failed, hsame.loaded, hsame.settings, hsame.hold, hsame.rd⟩ fun t hf =>
    ⟨m.updEnded_idle.of_follows hf, ?_⟩
  rw [hf.flash, hm]
  rfl

/-- REVERT has written the fallback over the main slot (13 R476). -/
theorem revert_done (hbusy : s.node.flash.busy = 4) : Yields .updateCommandDone s (fun t => t.updIdle ∧ t.flash.main0 = s.node.fbImg ∧
    t.flash.main1 = s.node.fbImg ∧ t.flash.fb0 = s.node.flash.fb0 ∧ t.on F.UPD_STATUS_TRIAL = false ∧ t.on F.UPD_STATUS_FELL_BACK = true ∧
    t.rd F.UPD_STATUS_FB_CAUSE = 2) := by
  have hexec := updDone_runs hctl
  have hstep : s.node.updDone = Node.updEnded (((s.node.writeMain s.node.fbImg).wrs [(F.UPD_STATUS_TRIAL, 0), (F.UPD_STATUS_TRIAL_RESTARTS, 0),
      (F.UPD_STATUS_FELL_BACK, 1), (F.UPD_STATUS_FB_CAUSE, 2)]).fault 4 3 5) := by
    unfold Node.updDone
    simp only [hbusy]
    rfl
  rw [hstep] at hexec
  have hw : Wears { s.node with flash := { s.node.flash with main0 := s.node.fbImg, main1 := s.node.fbImg, mainFailed := false, untried := false } }
      (s.node.writeMain s.node.fbImg) := Wears.eraseFor _ _ _
  generalize s.node.writeMain s.node.fbImg = q at hexec hw
  have hq := hw.sameLevelInputs
  obtain ⟨_, _, _, _, _, _, _, _, hqeq⟩ := hw.eq
  obtain ⟨htrial, hback, hcause⟩ : (q.wrs [(F.UPD_STATUS_TRIAL, 0), (F.UPD_STATUS_TRIAL_RESTARTS, 0), (F.UPD_STATUS_FELL_BACK, 1),
      (F.UPD_STATUS_FB_CAUSE, 2)]).rd F.UPD_STATUS_TRIAL = 0 ∧ (q.wrs [(F.UPD_STATUS_TRIAL, 0), (F.UPD_STATUS_TRIAL_RESTARTS, 0),
      (F.UPD_STATUS_FELL_BACK, 1), (F.UPD_STATUS_FB_CAUSE, 2)]).rd F.UPD_STATUS_FELL_BACK = 1 ∧ (q.wrs [(F.UPD_STATUS_TRIAL, 0),
      (F.UPD_STATUS_TRIAL_RESTARTS, 0), (F.UPD_STATUS_FELL_BACK, 1), (F.UPD_STATUS_FB_CAUSE, 2)]).rd F.UPD_STATUS_FB_CAUSE = 2 := by
    simp only [Node.wrs, List.foldl_cons, List.foldl_nil]
    refine ⟨?_, ?_, Node.rd_wr_same _ F.UPD_STATUS_FB_CAUSE 2⟩
    · rw [Node.rd_wr_ne _ _ (by decide), Node.rd_wr_ne _ _ (by decide), Node.rd_wr_ne _ _ (by decide)]
      exact Node.rd_wr_same _ F.UPD_STATUS_TRIAL 0
    · rw [Node.rd_wr_ne _ _ (by decide)]
      exact Node.rd_wr_same _ F.UPD_STATUS_FELL_BACK 1
  have hkeys : ∀ k ∈ levelKeys, ∀ e ∈ [(F.UPD_STATUS_TRIAL, 0), (F.UPD_STATUS_TRIAL_RESTARTS, 0), (F.UPD_STATUS_FELL_BACK, 1),
      (F.UPD_STATUS_FB_CAUSE, 2)], k ≠ e.1.key := by decide
  have hlevels : ∀ f : Fld, f.key ∈ levelKeys → (q.wrs [(F.UPD_STATUS_TRIAL, 0), (F.UPD_STATUS_TRIAL_RESTARTS, 0), (F.UPD_STATUS_FELL_BACK, 1),
      (F.UPD_STATUS_FB_CAUSE, 2)]).rd f = s.node.rd f := fun f hf => (Node.rd_wrs_ne _ _ (hkeys _ hf)).trans (hq.rd f hf)
  obtain ⟨r, hr⟩ := Node.wrs_regs [(F.UPD_STATUS_TRIAL, 0), (F.UPD_STATUS_TRIAL_RESTARTS, 0), (F.UPD_STATUS_FELL_BACK, 1), (F.UPD_STATUS_FB_CAUSE, 2)] q
  generalize q.wrs _ = u at hexec htrial hback hcause hlevels hr
  have hrd := fun (f : Fld) => u.fault_rd 4 3 5 f
  obtain ⟨_, _, _, hm⟩ := Logs.fault u 4 3 5
  generalize u.fault 4 3 5 = m at hexec hrd hm
  have hlevelKeys : ∀ k ∈ levelKeys, k ≠ F.MGT_FAULT_SOURCE.key := by decide
  refine Yields.of_updEnded hfit hexec (by rw [hm, hr, hqeq]) ⟨by rw [hm, hr]; exact hq.mode, by rw [hm, hr]; exact hq.failed,
    by rw [hm, hr]; exact hq.loaded, by rw [hm, hr]; exact hq.settings, by rw [hm, hr]; exact hq.hold,
    fun f hf => (hrd f (hlevelKeys _ hf)).trans (hlevels f hf)⟩ fun t hf => ⟨m.updEnded_idle.of_follows hf, ?_, ?_, ?_, ?_, ?_, ?_⟩
  · rw [hf.flash, hm, hr, hqeq]
    rfl
  · rw [hf.flash, hm, hr, hqeq]
    rfl
  · rw [hf.flash, hm, hr, hqeq]
    rfl
  · rw [Node.on, hf.rd _ (by decide), Node.updEnded_rd _ (by decide), hrd _ (by decide), htrial]
    rfl
  · rw [Node.on, hf.rd _ (by decide), Node.updEnded_rd _ (by decide), hrd _ (by decide), hback]
    rfl
  · rw [hf.rd _ (by decide), Node.updEnded_rd _ (by decide), hrd _ (by decide), hcause]

/-- The flash with the other copy of the loader written (13 R479). -/
def Flash.loaderWritten (f : Flash) : Flash :=
  if f.loaderCur = 0 then
    { f with loader1 := f.work.take (imgSigned f.work), loaderSig1 := slice f.work (imgSigned f.work + 72) 64, loaderCur := 1 }
  else { f with loader0 := f.work.take (imgSigned f.work), loaderSig0 := slice f.work (imgSigned f.work + 72) 64, loaderCur := 0 }

/-- LOADER has written the copy that was not in use (13 R479). -/
theorem loader_done (hbusy : s.node.flash.busy = 7) : Yields .updateCommandDone s (fun t => t.updIdle ∧
    t.flash.loaderCur = (if s.node.flash.loaderCur = 0 then 1 else 0) ∧
    (if s.node.flash.loaderCur = 0 then t.flash.loader1 = s.node.flash.work.take (imgSigned s.node.flash.work) ∧ t.flash.loader0 = s.node.flash.loader0
     else t.flash.loader0 = s.node.flash.work.take (imgSigned s.node.flash.work) ∧ t.flash.loader1 = s.node.flash.loader1)) := by
  have hexec := updDone_runs hctl
  have hstep : s.node.updDone = Node.updEnded ((Node.eraseFor { s.node with flash := s.node.flash.loaderWritten }
      (16 * s.node.flash.loaderWritten.loaderCur) (s.node.flash.work.take (imgSigned s.node.flash.work)).length).fault 4 3 6) := by
    unfold Node.updDone Flash.loaderWritten
    simp only [hbusy]
    rfl
  rw [hstep] at hexec
  have hw := (Wears.eraseFor { s.node with flash := s.node.flash.loaderWritten }
      (16 * s.node.flash.loaderWritten.loaderCur) (s.node.flash.work.take (imgSigned s.node.flash.work)).length).trans (.fault _ 4 3 6)
  generalize Node.fault _ 4 3 6 = m at hexec hw
  have hsame := hw.sameLevelInputs
  obtain ⟨_, _, _, _, _, _, _, _, hm⟩ := hw.eq
  refine Yields.of_updEnded hfit hexec (by rw [hm]) ⟨hsame.mode, hsame.failed, hsame.loaded, hsame.settings, hsame.hold, hsame.rd⟩ fun t hf =>
    ⟨m.updEnded_idle.of_follows hf, ?_⟩
  rw [hf.flash, hm]
  by_cases h0 : s.node.flash.loaderCur = 0
  · rw [if_pos h0, if_pos h0]
    simp only [Flash.loaderWritten, if_pos h0]
    exact ⟨rfl, rfl, rfl⟩
  · rw [if_neg h0, if_neg h0]
    simp only [Flash.loaderWritten, if_neg h0]
    exact ⟨rfl, rfl, rfl⟩

/-- BLOCK stores its block, and the area is judged; what may be offered is offered (13 R469, R472). -/
theorem block_done (hbusy : s.node.flash.busy = 1) : Yields .updateCommandDone s (fun t => t.updIdle ∧
    FMap.get [] t.flash.xfer s.node.flash.busyArg = s.node.flash.work ∧ t.flash.placed = true ∧
    (s.node.flash.busyArg = 0 → t.flash.xferId = imgBuild s.node.flash.work ∧ t.flash.xferSize = imgSize s.node.flash.work) ∧
    (t.hasBlock 0 = false ∨ (∃ j, j < blocksOf t.flash.xferSize ∧ t.hasBlock j = false) → t.rd F.UPD_STATUS_XFER = 1) ∧
    (t.hasBlock 0 = true → (∀ j, j < blocksOf t.flash.xferSize → t.hasBlock j = true) →
      t.rd F.UPD_STATUS_XFER = (if imgHeadOk 0x49 t.xferImage && leAt t.xferImage 0x16 2 == 0x0640 then 2 else 3))) := by
  have hexec := updDone_runs hctl
  have hstep : s.node.updDone = Node.offerEnd (Node.offerEnd (Node.updEnded (Node.storeBlock
      { s.node with flash := { s.node.flash with placed := true } } s.node.flash.busyArg s.node.flash.work)) 0) 1 := by
    unfold Node.updDone
    simp only [hbusy]
    rfl
  obtain ⟨m, v, hw, hstore, hjudge⟩ := Node.storeBlock_shape { s.node with flash := { s.node.flash with placed := true } }
    s.node.flash.busyArg s.node.flash.work
  rw [hstep, hstore] at hexec
  have hr := (Relays.offerEnd (m.wr F.UPD_STATUS_XFER v).updEnded 0).trans (.offerEnd _ 1)
  generalize Node.offerEnd (Node.offerEnd _ 0) 1 = r at hexec hr
  have hkeys : ∀ k ∈ levelKeys, k ≠ F.UPD_CMD_RESULT.key ∧ k ≠ F.UPD_STATUS_XFER.key ∧ k ≠ F.UPD_RELAY_STAT_BLOCKS.key := by decide
  have hm := hw.sameLevelInputs
  obtain ⟨_, _, _, _, _, _, _, _, hmeq⟩ := hw.eq
  have hsame := hr.sameLevelInputs
  have hlevel : r.level = s.node.level := by
    rw [hr.level]
    show m.level = s.node.level
    rw [hmeq]
    rfl
  refine Yields.of_calm hexec hlevel ⟨hsame.mode.trans hm.mode, hsame.failed.trans hm.failed, hsame.loaded.trans hm.loaded,
    hsame.settings.trans hm.settings, hsame.hold.trans hm.hold, fun f hf => ?_⟩ hfit fun t hf => ?_
  · obtain ⟨h1, h2, h3⟩ := hkeys _ hf
    rw [hr.rd f h3, Node.updEnded_rd _ h1, Node.rd_wr_ne _ _ h2]
    exact hm.rd f hf
  · obtain ⟨rl, hflash⟩ := hr.flash
    have hrd : ∀ f : Fld, f.key ∉ followKeys → f.key ≠ F.UPD_RELAY_STAT_BLOCKS.key → t.rd f = (m.wr F.UPD_STATUS_XFER v).updEnded.rd f :=
      fun f h1 h2 => (hf.rd f h1).trans (hr.rd f h2)
    have hxfer : t.flash.xfer = m.flash.xfer ∧ t.flash.xferSize = m.flash.xferSize ∧ t.flash.xferId = m.flash.xferId := by
      rw [hf.flash, hflash]
      exact ⟨rfl, rfl, rfl⟩
    have hunread : t.updUnread = true := by
      obtain ⟨_, _, _, _, _, _, hreq⟩ := hr.eq
      rw [hf.updUnread, hreq]
      rfl
    have hshow : t.rd F.UPD_STATUS_XFER = v % 2 ^ F.UPD_STATUS_XFER.w := by
      rw [hrd _ (by decide) (by decide), Node.updEnded_rd _ (by decide)]
      exact Node.rd_wr_same _ F.UPD_STATUS_XFER v
    have hjudged : m.judgeXfer.rd F.UPD_STATUS_XFER = v % 2 ^ F.UPD_STATUS_XFER.w := by
      rw [hjudge]
      exact Node.rd_wr_same _ F.UPD_STATUS_XFER v
    have hhas : ∀ j, t.hasBlock j = m.hasBlock j := fun j => by rw [Node.hasBlock, hxfer.1, Node.hasBlock]
    have himage : t.xferImage = m.xferImage := by rw [Node.xferImage, hxfer.1, hxfer.2.1, Node.xferImage]
    refine ⟨⟨?_, ?_, hunread⟩, ?_, ?_, fun h0 => ?_, fun hfill => ?_, fun h0 hall => ?_⟩
    · rw [hrd _ (by decide) (by decide)]
      exact (Node.updEnded_idle _).1
    · rw [hf.flash, hflash]
      exact (Node.updEnded_idle (m.wr F.UPD_STATUS_XFER v)).2.1
    · rw [hxfer.1, hmeq]
      exact FMap.get_put_same _ _ _ _
    · rw [hf.flash, hflash, hmeq]
      rfl
    · rw [hxfer.2.1, hxfer.2.2, hmeq]
      exact ⟨if_pos h0, if_pos h0⟩
    · simp only [hhas, hxfer.2.1] at hfill
      rw [hshow, ← hjudged, Node.judgeXfer_filling hfill]
      exact Node.rd_wr_same _ F.UPD_STATUS_XFER 1
    · simp only [hhas, hxfer.2.1] at h0 hall
      rw [hshow, ← hjudged, Node.judgeXfer_whole ⟨h0, hall⟩, himage]
      refine (Node.rd_wr_same _ F.UPD_STATUS_XFER _).trans ?_
      split <;> rfl

omit hctl hfit in
/-- The main slot has been copied over the fallback, the records of other formats are gone and the trial is over, before its RESULT. -/
theorem Node.confirmDone_eq (n : Node) (hconf : n.on F.UPD_STATUS_CONFIRMING = true) (hbusy : n.flash.busy = 3) : ∃ m keep,
    Wears { n with flash := { n.flash with fb0 := n.mainImg, fb1 := n.mainImg, fbFailed := false } } m ∧
    n.confirmDone =
      let u := (Node.wrs { m with flash := { m.flash with crec := .none, settings := keep } }
        [(F.UPD_STATUS_CONFIRMING, 0), (F.UPD_STATUS_TRIAL, 0), (F.UPD_STATUS_TRIAL_RESTARTS, 0)]).fault 4 3 4
      { u with updUnread := true, flash := { u.flash with busy := 0 } }.updResult 0 := by
  have hw : Wears { n with flash := { n.flash with fb0 := n.mainImg, fb1 := n.mainImg, fbFailed := false } } (n.writeFallback n.mainImg) :=
    Wears.eraseFor _ _ _
  have hbusy' : ∀ (q m : Node) (keep : List (List Byte)), Wears q m → q.flash.busy = 3 →
      ((Node.wrs { m with flash := { m.flash with crec := .none, settings := keep } }
        [(F.UPD_STATUS_CONFIRMING, 0), (F.UPD_STATUS_TRIAL, 0), (F.UPD_STATUS_TRIAL_RESTARTS, 0)]).fault 4 3 4).flash.busy = 3 := by
    intro q m keep hw hq
    obtain ⟨_, _, _, _, _, _, _, _, hm⟩ := hw.eq
    rw [Node.fault_flash, Node.wrs_flash, hm]
    exact hq
  unfold Node.confirmDone
  rw [if_neg (by rw [hconf]; decide)]
  dsimp only
  generalize n.writeFallback n.mainImg = q at hw
  generalize q.flash.settings.filter _ = keep
  have hw' := hw.trans (Wears.ite (p := keep.length < q.flash.settings.length) (.eraseFor q regionSettings (q.flash.settings.map (·.length)).sum) (.refl q))
  generalize (if keep.length < q.flash.settings.length then q.eraseFor regionSettings (q.flash.settings.map (·.length)).sum else q) = m at hw'
  exact ⟨m, keep, hw', if_pos (hbusy' _ m keep hw' hbusy)⟩

/-- The confirm copy ends the trial (13 R477). -/
theorem confirm_done (hconf : s.node.on F.UPD_STATUS_CONFIRMING = true) (hbusy : s.node.flash.busy = 3) :
    Yields .confirmCopyDone s (fun t => t.updIdle ∧ t.flash.fb0 = s.node.mainImg ∧ t.flash.fb1 = s.node.mainImg ∧ t.flash.crec = .none ∧
      t.on F.UPD_STATUS_CONFIRMING = false ∧ t.on F.UPD_STATUS_TRIAL = false ∧ t.rd F.UPD_STATUS_TRIAL_RESTARTS = 0) := by
  obtain ⟨m, keep, hw, hdone⟩ := s.node.confirmDone_eq hconf hbusy
  have hexec : exec .confirmCopyDone s = s.to s.node.confirmDone := congrArg s.to (if_pos hctl)
  rw [hdone] at hexec
  dsimp only at hexec
  have hms := hw.sameLevelInputs
  obtain ⟨_, _, _, _, _, _, _, _, hmeq⟩ := hw.eq
  have hzero : ∀ q : Node, (q.wrs [(F.UPD_STATUS_CONFIRMING, 0), (F.UPD_STATUS_TRIAL, 0), (F.UPD_STATUS_TRIAL_RESTARTS, 0)]).rd F.UPD_STATUS_CONFIRMING = 0 ∧
      (q.wrs [(F.UPD_STATUS_CONFIRMING, 0), (F.UPD_STATUS_TRIAL, 0), (F.UPD_STATUS_TRIAL_RESTARTS, 0)]).rd F.UPD_STATUS_TRIAL = 0 ∧
      (q.wrs [(F.UPD_STATUS_CONFIRMING, 0), (F.UPD_STATUS_TRIAL, 0), (F.UPD_STATUS_TRIAL_RESTARTS, 0)]).rd F.UPD_STATUS_TRIAL_RESTARTS = 0 := by
    intro q
    simp only [Node.wrs, List.foldl_cons, List.foldl_nil]
    refine ⟨?_, ?_, Node.rd_wr_same _ F.UPD_STATUS_TRIAL_RESTARTS 0⟩
    · rw [Node.rd_wr_ne _ _ (by decide), Node.rd_wr_ne _ _ (by decide)]
      exact Node.rd_wr_same _ F.UPD_STATUS_CONFIRMING 0
    · rw [Node.rd_wr_ne _ _ (by decide)]
      exact Node.rd_wr_same _ F.UPD_STATUS_TRIAL 0
  obtain ⟨h1, h2, h3⟩ := hzero { m with flash := { m.flash with crec := .none, settings := keep } }
  have hkeys : ∀ k ∈ levelKeys, (∀ e ∈ [(F.UPD_STATUS_CONFIRMING, 0), (F.UPD_STATUS_TRIAL, 0), (F.UPD_STATUS_TRIAL_RESTARTS, 0)], k ≠ e.1.key) ∧
      k ≠ F.MGT_FAULT_SOURCE.key ∧ k ≠ F.UPD_CMD_RESULT.key := by decide
  have hlevels : ∀ f : Fld, f.key ∈ levelKeys → (Node.wrs { m with flash := { m.flash with crec := .none, settings := keep } }
      [(F.UPD_STATUS_CONFIRMING, 0), (F.UPD_STATUS_TRIAL, 0), (F.UPD_STATUS_TRIAL_RESTARTS, 0)]).rd f = s.node.rd f := fun f hf =>
    (Node.rd_wrs_ne _ _ (hkeys _ hf).1).trans (hms.rd f hf)
  obtain ⟨r, hr⟩ := Node.wrs_regs [(F.UPD_STATUS_CONFIRMING, 0), (F.UPD_STATUS_TRIAL, 0), (F.UPD_STATUS_TRIAL_RESTARTS, 0)]
    { m with flash := { m.flash with crec := .none, settings := keep } }
  generalize Node.wrs { m with flash := { m.flash with crec := .none, settings := keep } } _ = u at hexec h1 h2 h3 hlevels hr
  have hfrd := fun (f : Fld) => u.fault_rd 4 3 4 f
  obtain ⟨_, _, _, hq⟩ := Logs.fault u 4 3 4
  generalize u.fault 4 3 4 = q at hexec hfrd hq
  have hrd : ∀ f : Fld, f.key ≠ F.UPD_CMD_RESULT.key → Node.rd (Node.updResult { q with updUnread := true, flash := { q.flash with busy := 0 } } 0) f = q.rd f :=
    fun f h => Node.rd_wr_ne _ _ h
  have hres : Node.rd (Node.updResult { q with updUnread := true, flash := { q.flash with busy := 0 } } 0) F.UPD_CMD_RESULT = 0 :=
    Node.rd_wr_same _ F.UPD_CMD_RESULT 0
  refine Yields.of_calm hexec ?_ ⟨?_, ?_, ?_, ?_, ?_, fun f hf => ?_⟩ hfit fun t hf => ⟨⟨?_, ?_, hf.updUnread⟩, ?_, ?_, ?_, ?_, ?_, ?_⟩
  · show q.level = s.node.level
    rw [hq, hr, hmeq]
  · exact (show q.mode = m.mode by rw [hq, hr]).trans hms.mode
  · exact (show q.failed = m.failed by rw [hq, hr]).trans hms.failed
  · exact (show q.loaded = m.loaded by rw [hq, hr]).trans hms.loaded
  · exact (show q.settings = m.settings by rw [hq, hr]).trans hms.settings
  · exact (show q.inaug.l1Hold = m.inaug.l1Hold by rw [hq, hr]).trans hms.hold
  · obtain ⟨-, hk1, hk2⟩ := hkeys _ hf
    rw [hrd f hk2, hfrd f hk1, hlevels f hf]
  · rw [hf.rd _ (by decide), hres]
  · rw [hf.flash]
    rfl
  · rw [hf.flash]
    show q.flash.fb0 = _
    rw [hq, hr, hmeq]
  · rw [hf.flash]
    show q.flash.fb1 = _
    rw [hq, hr, hmeq]
  · rw [hf.flash]
    show q.flash.crec = _
    rw [hq, hr]
  · rw [Node.on, hf.rd _ (by decide), hrd _ (by decide), hfrd _ (by decide), h1]
    rfl
  · rw [Node.on, hf.rd _ (by decide), hrd _ (by decide), hfrd _ (by decide), h2]
    rfl
  · rw [hf.rd _ (by decide), hrd _ (by decide), hfrd _ (by decide), h3]

end Done

end Sys2Proof.Machine
end

section
/-! PROOF. The update commands of a master, and O55 (13 R459, R469, R473 to R479). -/

namespace Sys2Proof.Machine

open Sys2Proof

/-! ### BLOCK (13 R469) -/

/-- The bytes of the update buffer that BLOCK takes (log entry 54). -/
def Node.updPiece (n : Node) : List Byte :=
  if n.rd F.UPD_ARG_BLOCK = 0 then n.updBuf.take (if imgSize n.updBuf = 0 then 65536 else min 65536 (imgSize n.updBuf))
  else n.updBuf.take (min 65536 ((if n.hasBlock 0 = true ∨ n.flash.xferSize ≠ 0 then n.flash.xferSize else 33554432) - 65536 * n.rd F.UPD_ARG_BLOCK))

/-- The area holds another image than the one block 0 names. -/
def Node.otherImage (n : Node) : Prop :=
  n.rd F.UPD_ARG_BLOCK = 0 ∧ n.flash.xfer ≠ [] ∧ (n.hasBlock 0 = true ∨ n.flash.xferSize ≠ 0) ∧ n.flash.xferId ≠ imgBuild n.updPiece

/-- The block is beyond the area, empty, or its CRC is not the one given. -/
def Node.badBlock (n : Node) : Prop := 512 ≤ n.rd F.UPD_ARG_BLOCK ∨ n.updPiece = [] ∨ crc32c n.updPiece ≠ n.rd F.UPD_ARG_CRC_CRC

theorem Node.idFixed_iff (n : Node) : n.idFixed = true ↔ n.hasBlock 0 = true ∨ n.flash.xferSize ≠ 0 := by
  simp [Node.idFixed]

theorem Node.xferAny_iff (n : Node) : n.xferAny = true ↔ n.flash.xfer ≠ [] := by
  simp [Node.xferAny]

/-- The piece as the command takes it. -/
theorem Node.updPiece_eq (n : Node) :
    n.updBuf.take (if n.rd F.UPD_ARG_BLOCK = 0 ∧ (if n.rd F.UPD_ARG_BLOCK = 0 then imgSize n.updBuf else if n.idFixed then n.flash.xferSize else 33554432) = 0 then 65536
      else blockLen (if n.rd F.UPD_ARG_BLOCK = 0 then imgSize n.updBuf else if n.idFixed then n.flash.xferSize else 33554432) (n.rd F.UPD_ARG_BLOCK)) = n.updPiece := by
  unfold Node.updPiece blockLen
  simp only [Node.idFixed_iff]
  by_cases h0 : n.rd F.UPD_ARG_BLOCK = 0
  · simp only [h0, true_and, if_true, Nat.mul_zero, Nat.sub_zero]
  · simp only [h0, false_and, if_false]

theorem Node.updBlock_other {n : Node} (h : n.otherImage) : n.updBlock = n.updResult 8 := by
  unfold Node.updBlock
  dsimp only
  rw [n.updPiece_eq]
  exact if_pos ⟨h.1, n.xferAny_iff.2 h.2.1, n.idFixed_iff.2 h.2.2.1, h.2.2.2⟩

theorem Node.updBlock_bad {n : Node} (h : ¬ n.otherImage) (hb : n.badBlock) : n.updBlock = n.updResult 1 := by
  unfold Node.updBlock
  dsimp only
  rw [n.updPiece_eq]
  exact (if_neg fun hc => h ⟨hc.1, n.xferAny_iff.1 hc.2.1, n.idFixed_iff.1 hc.2.2.1, hc.2.2.2⟩).trans (if_pos hb)

theorem Node.updBlock_good {n : Node} (h : ¬ n.otherImage) (hb : ¬ n.badBlock) : n.updBlock = n.updBegin 1 (n.rd F.UPD_ARG_BLOCK) n.updPiece := by
  unfold Node.updBlock
  dsimp only
  rw [n.updPiece_eq]
  exact (if_neg fun hc => h ⟨hc.1, n.xferAny_iff.1 hc.2.1, n.idFixed_iff.1 hc.2.2.1, hc.2.2.2⟩).trans (if_neg hb)

/-! ### The commands (13 R459) -/

theorem Node.command_upd (n : Node) (p : Master) (k v : Nat) : n.command p .UPD_CMD k v = n.updCmd k := rfl

section Commands

variable {s : State} {x : Master}

theorem updCmd_runs {c : Instr} {k : Nat} (he : exec c s = s.toBus (s.node.bus (wordWrite x Reg.UPD_CMD.addr k))) (h : RegPasses s.node x .UPD_CMD k)
    (h0 : k ≠ 0) (h7 : k ≤ 7) : exec c s = s.to (((s.node.leased x).updCmd k).emit (.resp x true 0)) := by
  have hmod : k % 16 = k := Nat.mod_eq_of_lt (by omega)
  rw [exec_command he h (by decide) (by decide) (by decide) (by simp only [cmdOf, hmod, if_pos h7]) h0 (by omega), Node.command_upd]

/-- A command that leaves `post` is answered. -/
theorem updCmd_answered {c : Instr} {k : Nat} {post : Node} (he : exec c s = s.toBus (s.node.bus (wordWrite x Reg.UPD_CMD.addr k)))
    (h : RegPasses s.node x .UPD_CMD k) (h0 : k ≠ 0) (h7 : k ≤ 7) (hp : (s.node.leased x).updCmd k = post) : Answered c s x 0 post :=
  Settles.of_to ((updCmd_runs he h h0 h7).trans (by rw [hp]))

theorem Node.updCmd_block (n : Node) : n.updCmd 1 = n.updBlock := by rw [Node.updCmd, if_pos rfl]

theorem Node.updCmd_commit (n : Node) : n.updCmd 2 = n.updCommit := by rw [Node.updCmd, if_neg (by decide), if_pos rfl]

theorem Node.updCmd_confirm (n : Node) : n.updCmd 3 = n.updConfirm := by
  rw [Node.updCmd, if_neg (by decide), if_neg (by decide), if_pos rfl]

theorem Node.updCmd_revert (n : Node) : n.updCmd 4 = n.updBegin 4 0 [] := by
  rw [Node.updCmd, if_neg (by decide), if_neg (by decide), if_neg (by decide), if_pos rfl]

theorem Node.updCmd_abort (n : Node) : n.updCmd 5 = n.emptyXfer.updResult 0 := by
  rw [Node.updCmd, if_neg (by decide), if_neg (by decide), if_neg (by decide), if_neg (by decide), if_pos rfl]

theorem Node.updCmd_setwrite (n : Node) : n.updCmd 6 = n.updSetwrite := by
  rw [Node.updCmd, if_neg (by decide), if_neg (by decide), if_neg (by decide), if_neg (by decide), if_neg (by decide), if_pos rfl]

theorem Node.updCmd_loader (n : Node) : n.updCmd 7 = n.updLoader := by
  rw [Node.updCmd, if_neg (by decide), if_neg (by decide), if_neg (by decide), if_neg (by decide), if_neg (by decide), if_neg (by decide), if_pos rfl]

theorem Node.leased_flash (n : Node) : (n.leased x).flash = n.flash := by
  obtain ⟨t, ht⟩ := n.leased_eq x
  rw [ht]

theorem Node.leased_xfer (n : Node) : (n.leased x).updPiece = n.updPiece ∧ ((n.leased x).otherImage ↔ n.otherImage) ∧ ((n.leased x).badBlock ↔ n.badBlock) := by
  obtain ⟨t, ht⟩ := n.leased_eq x
  rw [ht]
  exact ⟨rfl, Iff.rfl, Iff.rfl⟩

/-- Flash work begins: RESULT 15 until it is done. -/
theorem Node.updBegin_leased (n : Node) (code arg : Nat) (w : List Byte) : (n.leased x).updBegin code arg w =
    Node.wr { n.leased x with flash := { n.flash with busy := code, busyArg := arg, work := w } } F.UPD_CMD_RESULT 15 := by
  rw [Node.updBegin, Node.leased_flash]
  rfl

theorem blockStore_answered (h : RegPasses s.node x .UPD_CMD 1) :
    (s.node.otherImage → Answered (.blockStore x) s x 0 ((s.node.leased x).wr F.UPD_CMD_RESULT 8)) ∧
    (¬ s.node.otherImage → s.node.badBlock → Answered (.blockStore x) s x 0 ((s.node.leased x).wr F.UPD_CMD_RESULT 1)) ∧
    (¬ s.node.otherImage → ¬ s.node.badBlock → Answered (.blockStore x) s x 0
      (Node.wr { s.node.leased x with flash := { s.node.flash with busy := 1, busyArg := s.node.rd F.UPD_ARG_BLOCK, work := s.node.updPiece } }
        F.UPD_CMD_RESULT 15)) := by
  obtain ⟨hpiece, hother, hbad⟩ := s.node.leased_xfer (x := x)
  have hrun : ∀ post, (s.node.leased x).updBlock = post → Answered (.blockStore x) s x 0 post := fun post hp =>
    updCmd_answered (c := .blockStore x) rfl h (by decide) (by decide) ((Node.updCmd_block _).trans hp)
  refine ⟨fun ho => hrun _ (Node.updBlock_other (hother.2 ho)), fun ho hb => hrun _ (Node.updBlock_bad (mt hother.1 ho) (hbad.2 hb)),
    fun ho hb => hrun _ ?_⟩
  rw [Node.updBlock_good (mt hother.1 ho) (mt hbad.1 hb), Node.updBegin_leased, Node.leased_rd, hpiece]

theorem revert_answered (h : RegPasses s.node x .UPD_CMD 4) : Answered (.revert x) s x 0
    (Node.wr { s.node.leased x with flash := { s.node.flash with busy := 4, busyArg := 0, work := [] } } F.UPD_CMD_RESULT 15) := by
  refine updCmd_answered (c := .revert x) rfl h (by decide) (by decide) ?_
  rw [Node.updCmd_revert, Node.updBegin_leased]

theorem abort_answered (h : RegPasses s.node x .UPD_CMD 5) : Answered (.abortTransfer x) s x 0
    (Node.wrs { s.node.leased x with
      flash := { s.node.flash with xfer := [], xferId := 0, xferSize := 0, frags := [], relays := [], placed := false } }
      [(F.UPD_STATUS_XFER, 0), (F.UPD_CMD_RESULT, 0)]) := by
  refine updCmd_answered (c := .abortTransfer x) rfl h (by decide) (by decide) ?_
  have hwrs : ∀ q : Node, (q.wr F.UPD_STATUS_XFER 0).updResult 0 = q.wrs [(F.UPD_STATUS_XFER, 0), (F.UPD_CMD_RESULT, 0)] := fun _ => rfl
  rw [Node.updCmd_abort, Node.emptyXfer, Node.leased_flash]
  exact hwrs _

theorem confirm_answered (h : RegPasses s.node x .UPD_CMD 3) :
    (s.node.on F.UPD_STATUS_CONFIRMING = true → Answered (.confirmUpdate x) s x 0 ((s.node.leased x).wr F.UPD_CMD_RESULT 8)) ∧
    (s.node.on F.UPD_STATUS_CONFIRMING = false → s.node.on F.UPD_STATUS_TRIAL = false →
      Answered (.confirmUpdate x) s x 0 ((s.node.leased x).wr F.UPD_CMD_RESULT 2)) ∧
    (s.node.on F.UPD_STATUS_CONFIRMING = false → s.node.on F.UPD_STATUS_TRIAL = true → Answered (.confirmUpdate x) s x 0
      (Node.wrs { s.node.leased x with flash := { s.node.flash with busy := 3, busyArg := 0, work := [], crec := .confirm } }
        [(F.UPD_CMD_RESULT, 15), (F.UPD_STATUS_CONFIRMING, 1)])) := by
  have hrun : ∀ post, (s.node.leased x).updConfirm = post → Answered (.confirmUpdate x) s x 0 post := fun post hp =>
    updCmd_answered (c := .confirmUpdate x) rfl h (by decide) (by decide) ((Node.updCmd_confirm _).trans hp)
  have hshown : ∀ (q : Node) (f : Flash), ({ ({ q with flash := f }.wr F.UPD_CMD_RESULT 15).put F.UPD_STATUS_CONFIRMING true with
      flash := { f with crec := .confirm } } : Node) =
      Node.wrs { q with flash := { f with crec := .confirm } } [(F.UPD_CMD_RESULT, 15), (F.UPD_STATUS_CONFIRMING, 1)] := fun q f => by
    simp only [Node.wrs, List.foldl_cons, List.foldl_nil, Node.put, Node.wr]
    rfl
  refine ⟨fun hc => hrun _ ?_, fun hc ht => hrun _ ?_, fun hc ht => hrun _ ?_⟩
  · rw [Node.updConfirm, Node.leased_on, if_pos hc]
    rfl
  · rw [Node.updConfirm, Node.leased_on, if_neg (by rw [hc]; decide), Node.leased_on, if_pos (by rw [ht]; rfl)]
    rfl
  · rw [Node.updConfirm, Node.leased_on, if_neg (by rw [hc]; decide), Node.leased_on, if_neg (by rw [ht]; decide), Node.updBegin_leased]
    exact hshown _ _

theorem loader_answered (h : RegPasses s.node x .UPD_CMD 7) :
    let whole := s.node.xferWhole ∧ slotCode true s.node.flash.keys s.node.xferImage = 1
    (¬ whole → Answered (.loaderWrite x) s x 0 ((s.node.leased x).wr F.UPD_CMD_RESULT 1)) ∧
    (whole → Answered (.loaderWrite x) s x 0
      (Node.wr { s.node.leased x with flash := { s.node.flash with busy := 7, busyArg := 0, work := s.node.xferImage } } F.UPD_CMD_RESULT 15)) := by
  intro whole
  have himg : (s.node.leased x).xferImage = s.node.xferImage ∧ (s.node.leased x).hasBlock 0 = s.node.hasBlock 0 ∧
      (s.node.leased x).firstLack = s.node.firstLack := by
    obtain ⟨t, ht⟩ := s.node.leased_eq x
    rw [ht]
    exact ⟨rfl, rfl, rfl⟩
  have hwhole : (¬ (!s.node.hasBlock 0) = true ∧ ¬ s.node.firstLack.isSome = true ∧ ¬ slotCode true s.node.flash.keys s.node.xferImage ≠ 1) ↔ whole := by
    rw [Option.isSome_iff_ne_none, not_not, not_not, Node.firstLack_none]
    simp only [Bool.not_eq_true', Bool.not_eq_false]
    exact ⟨fun ⟨h1, h2, h3⟩ => ⟨⟨h1, h2⟩, h3⟩, fun ⟨⟨h1, h2⟩, h3⟩ => ⟨h1, h2, h3⟩⟩
  have hrun : ∀ post, (s.node.leased x).updLoader = post → Answered (.loaderWrite x) s x 0 post := fun post hp =>
    updCmd_answered (c := .loaderWrite x) rfl h (by decide) (by decide) ((Node.updCmd_loader _).trans hp)
  have hdef : (s.node.leased x).updLoader = if (!s.node.hasBlock 0) = true ∨ s.node.firstLack.isSome = true ∨
      slotCode true s.node.flash.keys s.node.xferImage ≠ 1 then (s.node.leased x).updResult 1 else (s.node.leased x).updBegin 7 0 s.node.xferImage := by
    rw [Node.updLoader, himg.1, himg.2.1, himg.2.2, Node.leased_flash]
  refine ⟨fun hw => hrun _ ?_, fun hw => hrun _ ?_⟩
  · rw [hdef, if_pos]
    · rfl
    · by_contra hc
      rw [not_or, not_or] at hc
      exact hw (hwhole.1 hc)
  · rw [hdef, if_neg, Node.updBegin_leased]
    rw [not_or, not_or]
    exact hwhole.2 hw

/-! ### COMMIT (13 R474, R475) -/

theorem Node.leased_commit (n : Node) : (n.leased x).moving = n.moving ∧ (n.leased x).xferImage = n.xferImage ∧
    ∀ f, (n.leased x).hasFormat f = n.hasFormat f := by
  obtain ⟨t, ht⟩ := n.leased_eq x
  rw [ht]
  exact ⟨rfl, rfl, fun _ => rfl⟩

/-- A record is the same whenever the lease began. -/
theorem Node.fault_of_lease (n : Node) (k a b c : Nat) : (Node.fault { n with leaseAt := k } a b c).log = (n.fault a b c).log ∧
    (Node.fault { n with leaseAt := k } a b c).poison = (n.fault a b c).poison ∧ (Node.fault { n with leaseAt := k } a b c).flash = (n.fault a b c).flash := by
  refine ⟨?_, by simp, by simp⟩
  unfold Node.fault
  dsimp only
  split
  · rfl
  · split
    · rfl
    · rw [Node.msi_log, Node.msi_log]
      rfl

/-- A COMMIT that is accepted writes the commit record and restarts the node with cause 4 (13 R475). -/
theorem commit_restarts {c : Instr} {n : Node} (hexec : exec c s = s.to ((Node.restart (Node.fault { n.leased x with
      flash := { (n.leased x).flash with crec := .copy } } 4 3 1) 4).emit (.resp x true 0))) :
    Yields c s (fun t => Restarted (Node.fault { n with flash := { n.flash with crec := .copy } } 4 3 1) 4 t ∧ Output.resp x true 0 ∈ t.out) := by
  have hemit : ∀ (m : Node) (o : Output), m.emit o = { m with out := o :: m.out } := fun _ _ => rfl
  have hsame : (Node.fault { n.leased x with flash := { (n.leased x).flash with crec := .copy } } 4 3 1).log =
        (Node.fault { n with flash := { n.flash with crec := .copy } } 4 3 1).log ∧
      (Node.fault { n.leased x with flash := { (n.leased x).flash with crec := .copy } } 4 3 1).poison =
        (Node.fault { n with flash := { n.flash with crec := .copy } } 4 3 1).poison ∧
      (Node.fault { n.leased x with flash := { (n.leased x).flash with crec := .copy } } 4 3 1).flash =
        (Node.fault { n with flash := { n.flash with crec := .copy } } 4 3 1).flash := by
    obtain ⟨k, hk⟩ := n.leased_eq x
    rw [hk]
    exact Node.fault_of_lease { n with flash := { n.flash with crec := .copy } } k 4 3 1
  obtain ⟨hlog, hpoison, hflash⟩ := hsame
  generalize Node.fault { n.leased x with flash := { (n.leased x).flash with crec := .copy } } 4 3 1 = q at hexec hlog hpoison hflash
  generalize Node.fault { n with flash := { n.flash with crec := .copy } } 4 3 1 = old at hlog hpoison hflash ⊢
  have hbegins := Begins.restartBegin q (cause := 4) (by decide)
  rw [Node.restart, hemit] at hexec
  have hlow := (Started.boot 8 hbegins.starting).ends.level
  have htold := fun (t : Node) (o : List Output) => hbegins.restarted_told (old' := s.node) (t := t) (o := o)
  generalize Node.boot 8 (q.restartBegin 4) = b at hexec hlow htold
  refine Yields.of_judged hexec fun t hf => ⟨(htold t _ hf).of_eq hpoison.symm hflash.symm hlog.symm, ?_⟩
  have hzero : ({ b with out := Output.resp x true 0 :: b.out } : Node).level ≤ Node.allowed { b with out := Output.resp x true 0 :: b.out } :=
    hlow.le.trans (Nat.zero_le _)
  rw [levelDrop_kept hzero] at hf
  obtain ⟨l, hl⟩ := hf.out
  rw [hl]
  exact List.mem_append_right _ ((Node.Grows.failCheck _ _).mem (List.mem_cons_self ..))

theorem commit_answered (h : RegPasses s.node x .UPD_CMD 2) :
    let n := s.node
    let m := n.leased x
    let f := n.flash
    let res := fun (c : Instr) (t : Node) (v : Nat) => Answered c s x 0 (t.wr F.UPD_CMD_RESULT v)
    let batt := n.rd F.UPD_BATT_THRESH
    let notReady := n.rd F.UPD_STATUS_XFER ≠ 2
    let copying := n.on F.UPD_STATUS_CONFIRMING = true
    let locked := n.on F.UPD_CTRL_UPDATE_LOCK = true
    let moves := n.moving = true
    let flat := batt ≠ 0 ∧ n.rd F.PWR_BATTERY_VOLTS < batt
    let noSettings := imgFormat n.xferImage ≠ n.rd F.UPD_FORMATS_BOOTED ∧ n.hasFormat (imgFormat n.xferImage) = false
    let c := Instr.commitUpdate x
    (notReady → res c m 2) ∧ (¬ notReady → copying → res c m 8) ∧ (¬ notReady → ¬ copying → locked → res c m 6) ∧
    (¬ notReady → ¬ copying → ¬ locked → moves → res c m 3) ∧ (¬ notReady → ¬ copying → ¬ locked → ¬ moves → flat → res c m 5) ∧
    (¬ notReady → ¬ copying → ¬ locked → ¬ moves → ¬ flat → noSettings → res c m 7) ∧
    (¬ notReady → ¬ copying → ¬ locked → ¬ moves → ¬ flat → ¬ noSettings → Yields c s (fun t =>
      Restarted ({ n with flash := { f with crec := .copy } }.fault 4 3 1) 4 t ∧ Output.resp x true 0 ∈ t.out)) := by
  intro n m f res batt notReady copying locked moves flat noSettings c
  obtain ⟨hmoving, himage, hformat⟩ := n.leased_commit (x := x)
  have hrun : exec c s = s.to (m.updCommit.emit (.resp x true 0)) := by
    rw [updCmd_runs (c := .commitUpdate x) rfl h (by decide) (by decide), Node.updCmd_commit]
  have hres : ∀ v, m.updCommit = m.updResult v → res c m v := fun v hv => by
    rw [hv] at hrun
    exact Settles.of_to hrun
  have hbool : noSettings ↔ (imgFormat n.xferImage ≠ n.rd F.UPD_FORMATS_BOOTED ∧ (!n.hasFormat (imgFormat n.xferImage)) = true) := by
    rw [Bool.not_eq_true']
  have hdef : m.updCommit = if notReady then m.updResult 2 else if copying then m.updResult 8 else if locked then m.updResult 6
      else if moves then m.updResult 3 else if flat then m.updResult 5 else if noSettings then m.updResult 7
      else (Node.fault { m with flash := { m.flash with crec := .copy } } 4 3 1).restart 4 := by
    rw [Node.updCommit]
    simp only [hbool]
    simp only [m, Node.leased_rd, Node.leased_on, hmoving, himage, hformat]
    rfl
  refine ⟨fun h1 => hres 2 ?_, fun h1 h2 => hres 8 ?_, fun h1 h2 h3 => hres 6 ?_, fun h1 h2 h3 h4 => hres 3 ?_, fun h1 h2 h3 h4 h5 => hres 5 ?_,
    fun h1 h2 h3 h4 h5 h6 => hres 7 ?_, fun h1 h2 h3 h4 h5 h6 => commit_restarts ?_⟩
  · rw [hdef, if_pos h1]
  · rw [hdef, if_neg h1, if_pos h2]
  · rw [hdef, if_neg h1, if_neg h2, if_pos h3]
  · rw [hdef, if_neg h1, if_neg h2, if_neg h3, if_pos h4]
  · rw [hdef, if_neg h1, if_neg h2, if_neg h3, if_neg h4, if_pos h5]
  · rw [hdef, if_neg h1, if_neg h2, if_neg h3, if_neg h4, if_neg h5, if_pos h6]
  · rw [hrun, hdef, if_neg h1, if_neg h2, if_neg h3, if_neg h4, if_neg h5, if_neg h6]

/-! ### SETWRITE (13 R478) -/

omit s x in
/-- A little-endian number stands where it was put. -/
theorem leAt_append_leBytes (l rest : List Byte) (k v : Nat) : leAt (l ++ leBytes k v ++ rest) l.length k = v % 256 ^ k := by
  unfold leAt slice
  rw [List.append_assoc, List.drop_left, List.take_left' (leBytes_length k v), leNat_leBytes]

/-- A settings record of `len` bytes is within the buffer. -/
theorem setRecord_length {b : List Byte} {v : Nat × Nat × FMap (List Byte)} (h : setRecord b = some v) :
    20 ≤ leAt b 12 4 ∧ leAt b 12 4 ≤ b.length := by
  unfold setRecord at h
  dsimp only at h
  split at h
  · rename_i hc
    simp only [Bool.and_eq_true, decide_eq_true_eq] at hc
    exact ⟨hc.1.1.1.2, hc.1.2⟩
  · cases h

/-- The record that SETWRITE stores: the one in the buffer with another SEQ, and its CRC. -/
def renumbered (b : List Byte) (q : Nat) : List Byte :=
  let r := splice (b.take (leAt b 12 4 - 4)) 8 (leBytes 4 q)
  r ++ leBytes 4 (crc32c r)

theorem renumbered_shows {b : List Byte} (q : Nat) (h20 : 20 ≤ leAt b 12 4) (hlen : leAt b 12 4 ≤ b.length) :
    (renumbered b q).length = leAt b 12 4 ∧ leAt (renumbered b q) 8 4 = q % 2 ^ 32 ∧ (renumbered b q).take 8 = b.take 8 ∧
    leAt (renumbered b q) ((renumbered b q).length - 4) 4 = crc32c ((renumbered b q).take ((renumbered b q).length - 4)) % 2 ^ 32 := by
  generalize hL : leAt b 12 4 = L at h20 hlen
  have hhead : ((b.take (L - 4)).take 8).length = 8 := by
    rw [List.length_take, List.length_take]
    omega
  have hr : (splice (b.take (L - 4)) 8 (leBytes 4 q)).length = L - 4 := by
    unfold splice
    rw [List.length_append, List.length_append, hhead, leBytes_length, List.length_drop, List.length_take]
    omega
  have hw : (renumbered b q).length = L := by
    unfold renumbered
    rw [hL, List.length_append, hr, leBytes_length]
    omega
  have hsplit : renumbered b q = (b.take (L - 4)).take 8 ++ leBytes 4 q ++ ((b.take (L - 4)).drop (8 + (leBytes 4 q).length) ++
      leBytes 4 (crc32c (splice (b.take (L - 4)) 8 (leBytes 4 q)))) := by
    unfold renumbered
    rw [hL]
    unfold splice
    simp only [List.append_assoc]
  refine ⟨hw, ?_, ?_, ?_⟩
  · have hat := leAt_append_leBytes ((b.take (L - 4)).take 8) ((b.take (L - 4)).drop (8 + (leBytes 4 q).length) ++
      leBytes 4 (crc32c (splice (b.take (L - 4)) 8 (leBytes 4 q)))) 4 q
    rw [hhead] at hat
    rw [hsplit, hat, show (256 ^ 4 : Nat) = 2 ^ 32 from rfl]
  · rw [hsplit, List.append_assoc, List.take_left' hhead, List.take_take]
    congr 1
    omega
  · have htake : (renumbered b q).take ((renumbered b q).length - 4) = splice (b.take (L - 4)) 8 (leBytes 4 q) := by
      rw [hw]
      unfold renumbered
      rw [hL, List.take_left' hr]
    have hat := leAt_append_leBytes (splice (b.take (L - 4)) 8 (leBytes 4 q)) [] 4 (crc32c (splice (b.take (L - 4)) 8 (leBytes 4 q)))
    rw [hr, List.append_nil] at hat
    rw [htake, hw]
    have hdef : renumbered b q = splice (b.take (L - 4)) 8 (leBytes 4 q) ++ leBytes 4 (crc32c (splice (b.take (L - 4)) 8 (leBytes 4 q))) := by
      unfold renumbered
      rw [hL]
    rw [hdef, hat, show (256 ^ 4 : Nat) = 2 ^ 32 from rfl]

/-- The format of a record is that of the booted image, of the fallback, or of the image in the area. -/
def Node.ownFormat (n : Node) (fmt : Nat) : Prop :=
  (fmt = n.rd F.UPD_FORMATS_BOOTED ∧ fmt ≠ 0) ∨ (n.fbImg ≠ [] ∧ fmt = imgFormat n.fbImg) ∨
    (n.hasBlock 0 = true ∧ fmt = imgFormat (FMap.get [] n.flash.xfer 0))

theorem Node.ownFormat_iff (n : Node) (fmt : Nat) : ((fmt == n.rd F.UPD_FORMATS_BOOTED && fmt != 0) || (n.fbImg != [] && fmt == imgFormat n.fbImg) ||
    (n.hasBlock 0 && fmt == imgFormat (FMap.get [] n.flash.xfer 0))) = true ↔ n.ownFormat fmt := by
  simp only [Node.ownFormat, Bool.or_eq_true, Bool.and_eq_true, beq_iff_eq, bne_iff_ne, or_assoc]

theorem Node.updSetwrite_none {n : Node} (h : setRecord n.updBuf = none) : n.updSetwrite = n.updResult 1 := by
  unfold Node.updSetwrite
  dsimp only
  rw [h]

theorem Node.updSetwrite_strange {n : Node} {fmt q : Nat} {v : FMap (List Byte)} (h : setRecord n.updBuf = some (fmt, q, v)) (ho : ¬ n.ownFormat fmt) :
    n.updSetwrite = n.updResult 1 := by
  unfold Node.updSetwrite
  dsimp only
  rw [h]
  dsimp only
  refine if_pos ?_
  rw [Bool.not_eq_true', ← Bool.not_eq_true, n.ownFormat_iff fmt]
  exact ho

theorem Node.updSetwrite_own {n : Node} {fmt q top : Nat} {v held : FMap (List Byte)} (h : setRecord n.updBuf = some (fmt, q, v)) (ho : n.ownFormat fmt)
    (hbest : bestRecord n.flash.settings fmt = some (top, held)) : n.updSetwrite = n.updBegin 6 0 (renumbered n.updBuf ((top + 1) % 2 ^ 32)) := by
  unfold Node.updSetwrite
  dsimp only
  rw [h]
  dsimp only
  rw [if_neg, hbest]
  · rfl
  · rw [Bool.not_eq_true', ← Bool.not_eq_true, n.ownFormat_iff fmt, not_not]
    exact ho

theorem setwrite_answered (h : RegPasses s.node x .UPD_CMD 6) :
    let buf := s.node.updBuf
    (setRecord buf = none → Answered (.setwrite x) s x 0 ((s.node.leased x).wr F.UPD_CMD_RESULT 1)) ∧
    (∀ fmt q v, setRecord buf = some (fmt, q, v) →
      (¬ s.node.ownFormat fmt → Answered (.setwrite x) s x 0 ((s.node.leased x).wr F.UPD_CMD_RESULT 1)) ∧
      (s.node.ownFormat fmt → ∀ top held, bestRecord s.node.flash.settings fmt = some (top, held) → ∃ w,
        Answered (.setwrite x) s x 0 (Node.wr { s.node.leased x with flash := { s.node.flash with busy := 6, busyArg := 0, work := w } } F.UPD_CMD_RESULT 15) ∧
        w.length = leAt buf 12 4 ∧ leAt w 8 4 = (top + 1) % 2 ^ 32 ∧ w.take 8 = buf.take 8 ∧
        leAt w (w.length - 4) 4 = crc32c (w.take (w.length - 4)) % 2 ^ 32)) := by
  intro buf
  have hbuf : (s.node.leased x).updBuf = s.node.updBuf ∧ ∀ fmt, (s.node.leased x).ownFormat fmt ↔ s.node.ownFormat fmt := by
    obtain ⟨t, ht⟩ := s.node.leased_eq x
    rw [ht]
    exact ⟨rfl, fun _ => Iff.rfl⟩
  obtain ⟨hbuf, hown⟩ := hbuf
  have hrec : ∀ o, setRecord buf = o → setRecord (s.node.leased x).updBuf = o := fun o ho => by rw [hbuf, ← ho]
  have hrun : ∀ post, (s.node.leased x).updSetwrite = post → Answered (.setwrite x) s x 0 post := fun post hp =>
    updCmd_answered (c := .setwrite x) rfl h (by decide) (by decide) ((Node.updCmd_setwrite _).trans hp)
  refine ⟨fun hn => hrun _ (Node.updSetwrite_none (hrec _ hn)), fun fmt q v hv => ⟨fun ho => hrun _ ?_, fun ho top held hbest => ?_⟩⟩
  · exact Node.updSetwrite_strange (hrec _ hv) (mt (hown fmt).1 ho)
  · obtain ⟨h20, hlen⟩ := setRecord_length hv
    obtain ⟨h1, h2, h3, h4⟩ := renumbered_shows ((top + 1) % 2 ^ 32) h20 hlen
    refine ⟨renumbered buf ((top + 1) % 2 ^ 32), hrun _ ?_, h1, by rw [h2, Nat.mod_mod], h3, h4⟩
    rw [Node.updSetwrite_own (hrec _ hv) ((hown fmt).2 ho) (by rw [Node.leased_flash]; exact hbest), Node.updBegin_leased, hbuf]

end Commands

/-! ### A block that crosses the Cicada link (13 R473) -/

section ImageCopy

variable {s : State} (hsingle : s.node.single = false) (htn7 : s.node.tn7Mode = false)
include hsingle htn7

theorem imageCopy_streams : s.node.streams = true := by
  have htn7' : s.node.on F.PAIR_CTRL_TN7 = false := htn7
  simp [Node.streams, hsingle, htn7']

/-- The active node sends a block of the complete image. -/
theorem imageCopy_sent {j : Nat} {b : List Byte} (hmode : s.node.mode = .active) (hx : s.node.rd F.UPD_STATUS_XFER = 2) (hb : s.node.hasBlock j = true) :
    Settles (.standbyImageCopy j b) s (s.node.emit (.cicadaBlock j (FMap.get [] s.node.flash.xfer j))) := by
  refine Settles.of_to (congrArg s.to ?_)
  rw [Node.imageCopy, imageCopy_streams hsingle htn7, if_neg (by decide), if_pos hmode, if_pos ⟨hx, hb⟩]

/-- The standby stores the block that comes. -/
theorem imageCopy_stored {j : Nat} {b : List Byte} (hmode : s.node.mode = .coldStandby) (hfit : s.node.fits) (hb : b ≠ []) (hj : j < 512)
    (hid : j = 0 → s.node.flash.xferId = imgBuild b) : Yields (.standbyImageCopy j b) s (fun t => FMap.get [] t.flash.xfer j = b ∧
      t.mode = .coldStandby ∧ ∀ i, i ≠ j → FMap.get [] t.flash.xfer i = FMap.get [] s.node.flash.xfer i) := by
  have hexec : exec (.standbyImageCopy j b) s = s.to (s.node.storeBlock j b) := by
    refine congrArg s.to ?_
    rw [Node.imageCopy, imageCopy_streams hsingle htn7, if_neg (by decide), if_neg (by rw [hmode]; decide),
      if_pos ⟨by simp [Node.onStandby, hmode], hb, hj⟩]
    dsimp only
    rw [if_neg]
    rintro ⟨h0, -, -, hne⟩
    exact hne (hid h0)
  obtain ⟨m, v, hw, hstore, -⟩ := s.node.storeBlock_shape j b
  rw [hstore] at hexec
  have hm := hw.sameLevelInputs
  obtain ⟨_, _, _, _, _, _, _, _, hmeq⟩ := hw.eq
  have hkeys : ∀ k ∈ levelKeys, k ≠ F.UPD_STATUS_XFER.key := by decide
  refine Yields.of_calm hexec ?_ ⟨hm.mode, hm.failed, hm.loaded, hm.settings, hm.hold, fun f hf => (Node.rd_wr_ne _ _ (hkeys _ hf)).trans (hm.rd f hf)⟩ hfit
    fun t hf => ⟨?_, ?_, fun i hi => ?_⟩
  · show m.level = _
    rw [hmeq]
    rfl
  · rw [hf.flash]
    show FMap.get [] m.flash.xfer j = b
    rw [hmeq]
    exact FMap.get_put_same _ _ _ _
  · exact hf.mode.trans (hm.mode.trans hmode)
  · rw [hf.flash]
    show FMap.get [] m.flash.xfer i = _
    rw [hmeq]
    exact FMap.get_put_ne _ _ _ _ hi

end ImageCopy

/-- Settles O55. -/
theorem updateCommands : Obligations.UpdateCommands := by
  refine fun s x => ⟨blockStore_answered, fun hctl hfit => ⟨fun hbusy _ => block_done hctl hfit hbusy, revert_done hctl hfit, setwrite_done hctl hfit,
    loader_done hctl hfit, confirm_done hctl hfit⟩, commit_answered, confirm_answered, revert_answered, abort_answered, setwrite_answered, fun h => ?_,
    fun hsingle htn7 => ⟨fun _ _ => imageCopy_sent hsingle htn7, fun _ _ => imageCopy_stored hsingle htn7⟩⟩
  obtain ⟨h1, h2⟩ := loader_answered h
  exact ⟨fun hw => h1 fun hc => hw ⟨hc.1.1, hc.1.2, hc.2⟩, fun hw => h2 ⟨⟨hw.1, hw.2.1⟩, hw.2.2⟩⟩

end Sys2Proof.Machine
end

section
/-! PROOF. The chain relay: frames, what waits on a port, and what sending rests on (13 R470 to R472). -/

namespace Sys2Proof.Machine

open Sys2Proof

/-! ### The layout of a relay frame (13 R470) -/

theorem slice_append_mid (l m r : List Byte) {i k : Nat} (hi : l.length = i) (hk : m.length = k) : slice (l ++ m ++ r) i k = m := by
  subst hi
  subst hk
  unfold slice
  rw [List.append_assoc, List.drop_left, List.take_left]

@[simp] theorem beBytes_length (k v : Nat) : (beBytes k v).length = k := by
  rw [beBytes, List.length_reverse, leBytes_length]

theorem beNat_reverse (l : List Byte) : beNat l.reverse = leNat l := by
  rw [beNat, List.foldl_reverse]
  induction l with
  | nil => rfl
  | cons b t ih =>
    rw [List.foldr_cons, ih, leNat]
    omega

theorem beNat_beBytes (k v : Nat) : beNat (beBytes k v) = v % 256 ^ k := by
  rw [beBytes, beNat_reverse, leNat_leBytes]

/-- A number stands where it was put among the bytes. -/
theorem beAt_mid (l r : List Byte) {i k : Nat} (v : Nat) (hi : l.length = i) : beAt (l ++ beBytes k v ++ r) i k = v % 2 ^ (8 * k) := by
  rw [beAt, slice_append_mid l _ r hi (beBytes_length k v), beNat_beBytes, Nat.pow_mul]

theorem leAt_mid (l r : List Byte) {i k : Nat} (v : Nat) (hi : l.length = i) : leAt (l ++ leBytes k v ++ r) i k = v % 2 ^ (8 * k) := by
  rw [leAt, slice_append_mid l _ r hi (leBytes_length k v), leNat_leBytes, Nat.pow_mul]

theorem byteAt_mid (l r : List Byte) {i : Nat} (x : Byte) (hi : l.length = i) : byteAt (l ++ x :: r) i = x.toNat := by
  subst hi
  simp [byteAt]

section Frame

variable (n : Node) (p ty id size block frag cause crc : Nat) (data : List Byte)

/-- A relay frame, its header as the parts of R470. -/
theorem Node.relayFrame_eq : ∃ pad, n.relayFrame p ty id size block frag cause crc data =
    beBytes 6 0x0180C200000E ++ n.portMac p ++ beBytes 2 0x88B7 ++ [0x55, 0x50, 1, BitVec.ofNat 8 ty] ++ leBytes 8 id ++
      leBytes 4 size ++ leBytes 2 block ++ [BitVec.ofNat 8 frag, BitVec.ofNat 8 cause] ++ leBytes 4 crc ++ leBytes 2 data.length ++
      zeros 6 ++ data ++ pad := ⟨_, rfl⟩

theorem Node.portMac_length : (n.portMac p).length = 6 := beBytes_length 6 _

/-- What the header of a relay frame shows (13 R470). -/
structure RelayHeader (h : List Byte) (ty id size block frag cause : Nat) (data : List Byte) : Prop where
  dest : beAt h 0 6 = 0x0180C200000E
  etype : beAt h 12 2 = 0x88B7
  magic : beAt h 14 2 = 0x5550
  version : byteAt h 16 = 1
  type : byteAt h 17 = ty % 256
  image : leAt h 18 8 = id % 2 ^ 64
  size : leAt h 26 4 = size % 2 ^ 32
  block : leAt h 30 2 = block % 2 ^ 16
  frag : byteAt h 32 = frag % 256
  cause : byteAt h 33 = cause % 256
  length : leAt h 38 2 = data.length % 2 ^ 16
  data : data.length < 2 ^ 16 → slice h 46 (leAt h 38 2) = data

theorem Node.relayFrame_header : RelayHeader (n.relayFrame p ty id size block frag cause crc data) ty id size block frag cause data := by
  obtain ⟨pad, h⟩ := n.relayFrame_eq p ty id size block frag cause crc data
  rw [h]
  have hmac := n.portMac_length p
  generalize n.portMac p = mac at hmac
  have hlen : leAt (beBytes 6 0x0180C200000E ++ mac ++ beBytes 2 0x88B7 ++ [0x55, 0x50, 1, BitVec.ofNat 8 ty] ++ leBytes 8 id ++
      leBytes 4 size ++ leBytes 2 block ++ [BitVec.ofNat 8 frag, BitVec.ofNat 8 cause] ++ leBytes 4 crc ++ leBytes 2 data.length ++
      zeros 6 ++ data ++ pad) 38 2 = data.length % 2 ^ 16 := by
    have := leAt_mid (beBytes 6 0x0180C200000E ++ mac ++ beBytes 2 0x88B7 ++ [0x55, 0x50, 1, BitVec.ofNat 8 ty] ++ leBytes 8 id ++
      leBytes 4 size ++ leBytes 2 block ++ [BitVec.ofNat 8 frag, BitVec.ofNat 8 cause] ++ leBytes 4 crc) (zeros 6 ++ data ++ pad) (i := 38) (k := 2)
      data.length (by simp [hmac])
    simpa only [Nat.reduceMul, Nat.reducePow, Nat.reduceMod, List.append_assoc] using this
  refine ⟨?_, ?_, ?_, ?_, ?_, ?_, ?_, ?_, ?_, ?_, hlen, fun hd => ?_⟩
  · have := beAt_mid [] (mac ++ beBytes 2 0x88B7 ++ [0x55, 0x50, 1, BitVec.ofNat 8 ty] ++ leBytes 8 id ++
      leBytes 4 size ++ leBytes 2 block ++ [BitVec.ofNat 8 frag, BitVec.ofNat 8 cause] ++ leBytes 4 crc ++ leBytes 2 data.length ++
      zeros 6 ++ data ++ pad) (i := 0) (k := 6) 0x0180C200000E rfl
    simpa only [Nat.reduceMul, Nat.reducePow, Nat.reduceMod, List.append_assoc, List.nil_append] using this
  · have := beAt_mid (beBytes 6 0x0180C200000E ++ mac) ([0x55, 0x50, 1, BitVec.ofNat 8 ty] ++ leBytes 8 id ++
      leBytes 4 size ++ leBytes 2 block ++ [BitVec.ofNat 8 frag, BitVec.ofNat 8 cause] ++ leBytes 4 crc ++ leBytes 2 data.length ++
      zeros 6 ++ data ++ pad) (i := 12) (k := 2) 0x88B7 (by simp [hmac])
    simpa only [Nat.reduceMul, Nat.reducePow, Nat.reduceMod, List.append_assoc] using this
  · have := beAt_mid (beBytes 6 0x0180C200000E ++ mac ++ beBytes 2 0x88B7) ([1, BitVec.ofNat 8 ty] ++ leBytes 8 id ++
      leBytes 4 size ++ leBytes 2 block ++ [BitVec.ofNat 8 frag, BitVec.ofNat 8 cause] ++ leBytes 4 crc ++ leBytes 2 data.length ++
      zeros 6 ++ data ++ pad) (i := 14) (k := 2) 0x5550 (by simp [hmac])
    rw [show beBytes 2 0x5550 = [0x55, 0x50] from rfl] at this
    simpa only [Nat.reduceMul, Nat.reducePow, Nat.reduceMod, List.append_assoc, List.cons_append, List.nil_append] using this
  · have := byteAt_mid (beBytes 6 0x0180C200000E ++ mac ++ beBytes 2 0x88B7 ++ [0x55, 0x50]) ([BitVec.ofNat 8 ty] ++ leBytes 8 id ++
      leBytes 4 size ++ leBytes 2 block ++ [BitVec.ofNat 8 frag, BitVec.ofNat 8 cause] ++ leBytes 4 crc ++ leBytes 2 data.length ++
      zeros 6 ++ data ++ pad) (i := 16) 1 (by simp [hmac])
    rw [show (1 : Byte).toNat = 1 from rfl] at this
    simpa only [Nat.reduceMul, Nat.reducePow, Nat.reduceMod, List.append_assoc, List.cons_append, List.nil_append] using this
  · have := byteAt_mid (beBytes 6 0x0180C200000E ++ mac ++ beBytes 2 0x88B7 ++ [0x55, 0x50, 1]) (leBytes 8 id ++
      leBytes 4 size ++ leBytes 2 block ++ [BitVec.ofNat 8 frag, BitVec.ofNat 8 cause] ++ leBytes 4 crc ++ leBytes 2 data.length ++
      zeros 6 ++ data ++ pad) (i := 17) (BitVec.ofNat 8 ty) (by simp [hmac])
    simpa only [Nat.reduceMul, Nat.reducePow, Nat.reduceMod, List.append_assoc, List.cons_append, List.nil_append, BitVec.toNat_ofNat] using this
  · have := leAt_mid (beBytes 6 0x0180C200000E ++ mac ++ beBytes 2 0x88B7 ++ [0x55, 0x50, 1, BitVec.ofNat 8 ty]) (
      leBytes 4 size ++ leBytes 2 block ++ [BitVec.ofNat 8 frag, BitVec.ofNat 8 cause] ++ leBytes 4 crc ++ leBytes 2 data.length ++
      zeros 6 ++ data ++ pad) (i := 18) (k := 8) id (by simp [hmac])
    simpa only [Nat.reduceMul, Nat.reducePow, Nat.reduceMod, List.append_assoc] using this
  · have := leAt_mid (beBytes 6 0x0180C200000E ++ mac ++ beBytes 2 0x88B7 ++ [0x55, 0x50, 1, BitVec.ofNat 8 ty] ++ leBytes 8 id) (
      leBytes 2 block ++ [BitVec.ofNat 8 frag, BitVec.ofNat 8 cause] ++ leBytes 4 crc ++ leBytes 2 data.length ++
      zeros 6 ++ data ++ pad) (i := 26) (k := 4) size (by simp [hmac])
    simpa only [Nat.reduceMul, Nat.reducePow, Nat.reduceMod, List.append_assoc] using this
  · have := leAt_mid (beBytes 6 0x0180C200000E ++ mac ++ beBytes 2 0x88B7 ++ [0x55, 0x50, 1, BitVec.ofNat 8 ty] ++ leBytes 8 id ++ leBytes 4 size) (
      [BitVec.ofNat 8 frag, BitVec.ofNat 8 cause] ++ leBytes 4 crc ++ leBytes 2 data.length ++
      zeros 6 ++ data ++ pad) (i := 30) (k := 2) block (by simp [hmac])
    simpa only [Nat.reduceMul, Nat.reducePow, Nat.reduceMod, List.append_assoc] using this
  · have := byteAt_mid (beBytes 6 0x0180C200000E ++ mac ++ beBytes 2 0x88B7 ++ [0x55, 0x50, 1, BitVec.ofNat 8 ty] ++ leBytes 8 id ++ leBytes 4 size ++
      leBytes 2 block) ([BitVec.ofNat 8 cause] ++ leBytes 4 crc ++ leBytes 2 data.length ++ zeros 6 ++ data ++ pad) (i := 32) (BitVec.ofNat 8 frag) (by simp [hmac])
    simpa only [Nat.reduceMul, Nat.reducePow, Nat.reduceMod, List.append_assoc, List.cons_append, List.nil_append, BitVec.toNat_ofNat] using this
  · have := byteAt_mid (beBytes 6 0x0180C200000E ++ mac ++ beBytes 2 0x88B7 ++ [0x55, 0x50, 1, BitVec.ofNat 8 ty] ++ leBytes 8 id ++ leBytes 4 size ++
      leBytes 2 block ++ [BitVec.ofNat 8 frag]) (leBytes 4 crc ++ leBytes 2 data.length ++ zeros 6 ++ data ++ pad) (i := 33) (BitVec.ofNat 8 cause)
      (by simp [hmac])
    simpa only [Nat.reduceMul, Nat.reducePow, Nat.reduceMod, List.append_assoc, List.cons_append, List.nil_append, BitVec.toNat_ofNat] using this
  · rw [hlen, Nat.mod_eq_of_lt hd]
    have := slice_append_mid (beBytes 6 0x0180C200000E ++ mac ++ beBytes 2 0x88B7 ++ [0x55, 0x50, 1, BitVec.ofNat 8 ty] ++ leBytes 8 id ++
      leBytes 4 size ++ leBytes 2 block ++ [BitVec.ofNat 8 frag, BitVec.ofNat 8 cause] ++ leBytes 4 crc ++ leBytes 2 data.length ++ zeros 6) data pad
      (i := 46) (k := data.length) (by simp [hmac, zeros]) rfl
    simpa only [Nat.reduceMul, Nat.reducePow, Nat.reduceMod, List.append_assoc] using this

end Frame

/-! ### What waits on a port (13 R470) -/

/-- The frame waits for its turn in class 0 of the port, or is queued there as a frame the fabric numbers. -/
def Node.relayHeld (n : Node) (p : Nat) (b : List Byte) : Prop :=
  b ∈ (n.port p).relayQ ∨ ∃ c ∈ n.egQueue p 0, c.stream = 4096 ∧ c.fid < n.fab.nextFid ∧ (n.frame c.fid).data = b

theorem Node.relayHeld.waits {n : Node} {p : Nat} {b : List Byte} (h : n.relayHeld p b) : n.relayWaits p b := by
  rcases h with h | ⟨c, hc, hs, -, hb⟩
  · exact .inl h
  · exact .inr ⟨c, hc, hs, hb⟩

theorem Node.relayWaits.of_follows {m t : Node} {p : Nat} {b : List Byte} (h : m.relayWaits p b) (hf : Follows m t) : t.relayWaits p b := by
  unfold Node.relayWaits Node.port Node.egQueue Node.frame at h ⊢
  rw [hf.ports, hf.fab]
  exact h

/-- What the chain relay sends takes back nothing that waits, and forgets no end that blocks came from. -/
structure Onward (m n : Node) : Prop where
  frame : Relays m n
  held : ∀ p b, m.relayHeld p b → n.relayHeld p b
  got : ∀ q, (n.relay q).got = (m.relay q).got

namespace Onward

variable {a b c : Node}

theorem refl (n : Node) : Onward n n := ⟨.refl n, fun _ _ h => h, fun _ => rfl⟩

theorem trans (h : Onward a b) (g : Onward b c) : Onward a c :=
  ⟨h.frame.trans g.frame, fun p x hx => g.held p x (h.held p x hx), fun q => (g.got q).trans (h.got q)⟩

theorem ite {p : Prop} [Decidable p] (hb : Onward a b) (hc : Onward a c) : Onward a (if p then b else c) := by
  split
  · exact hb
  · exact hc

theorem foldl {α : Type} {g : Node → α → Node} (h : ∀ n x, Onward n (g n x)) (l : List α) (n : Node) : Onward n (l.foldl g n) := by
  induction l generalizing n with
  | nil => exact refl n
  | cons x l ih => exact (h n x).trans (ih _)

/-- A frame that joins those that wait. -/
theorem joins (n : Node) (p : Nat) (x : List Byte) : Onward n (n.setPort p { n.port p with relayQ := (n.port p).relayQ ++ [x] }) := by
  refine ⟨.setPort n p _, fun q y h => ?_, fun _ => rfl⟩
  rcases h with h | h
  · left
    by_cases hq : q = p
    · subst hq
      rw [Node.port_setPort_same]
      exact List.mem_append_left _ h
    · rw [Node.port_setPort_ne n _ hq]
      exact h
  · exact .inr h

end Onward

/-- The egress queue after a frame of the chain relay has joined class 0. -/
theorem Node.relayQueue_egQueue (n : Node) (p : Nat) (b : List Byte) (q : Nat) : (n.relayQueue p b).egQueue q 0 =
    n.egQueue q 0 ++ (if q = p then [{ fid := n.fab.nextFid, stream := 4096, stamp := n.epoch }] else []) := by
  have hdef : (n.relayQueue p b).fab.egress = FMap.upd [] n.fab.egress (p * 8 + 0)
      (· ++ [{ fid := n.fab.nextFid, stream := 4096, stamp := n.epoch }]) := rfl
  unfold Node.egQueue
  rw [hdef, FMap.upd]
  by_cases hq : q = p
  · subst hq
    rw [FMap.get_put_same, if_pos rfl]
  · rw [FMap.get_put_ne _ _ _ _ (by omega), if_neg hq, List.append_nil]

theorem Node.relayQueue_frame_same (n : Node) (p : Nat) (b : List Byte) : ((n.relayQueue p b).frame n.fab.nextFid).data = b := by
  have hdef : (n.relayQueue p b).fab.frames = FMap.put {} n.fab.frames n.fab.nextFid { data := b, ingress := 21, stamp := n.epoch, refs := 1 } := rfl
  rw [Node.frame, hdef, FMap.get_put_same]

theorem Node.relayQueue_frame_ne (n : Node) (p : Nat) (b : List Byte) {k : Nat} (h : k ≠ n.fab.nextFid) : (n.relayQueue p b).frame k = n.frame k := by
  have hdef : (n.relayQueue p b).fab.frames = FMap.put {} n.fab.frames n.fab.nextFid { data := b, ingress := 21, stamp := n.epoch, refs := 1 } := rfl
  rw [Node.frame, hdef, FMap.get_put_ne _ _ _ _ h, Node.frame]

/-- A frame queued before stays queued when another one follows. -/
theorem Node.relayQueue_queued {n : Node} {q : Nat} {y : List Byte} (p : Nat) (b : List Byte)
    (h : ∃ c ∈ n.egQueue q 0, c.stream = 4096 ∧ c.fid < n.fab.nextFid ∧ (n.frame c.fid).data = y) :
    ∃ c ∈ (n.relayQueue p b).egQueue q 0, c.stream = 4096 ∧ c.fid < (n.relayQueue p b).fab.nextFid ∧ ((n.relayQueue p b).frame c.fid).data = y := by
  obtain ⟨c, hc, hs, hlt, hy⟩ := h
  refine ⟨c, ?_, hs, Nat.lt_succ_of_lt hlt, ?_⟩
  · rw [Node.relayQueue_egQueue]
    exact List.mem_append_left _ hc
  · rw [Node.relayQueue_frame_ne n p b (Nat.ne_of_lt hlt), hy]

theorem Onward.relayStep (n : Node) (p : Nat) : Onward n (n.relayStep p) := by
  refine ⟨.relayStep n p, fun q y h => ?_, fun r => ?_⟩
  · unfold Node.relayStep
    split
    · exact h
    · rename_i x t hx
      split
      · exact h
      · rcases h with h | h
        · by_cases hq : q = p
          · subst hq
            rw [hx] at h
            rcases List.mem_cons.1 h with rfl | h
            · right
              refine ⟨{ fid := n.fab.nextFid, stream := 4096, stamp := n.epoch }, ?_, rfl, Nat.lt_succ_self _, Node.relayQueue_frame_same _ _ _⟩
              rw [Node.relayQueue_egQueue, if_pos rfl]
              exact List.mem_append_right _ (List.mem_singleton.2 rfl)
            · left
              show y ∈ ((n.setPort q _).port q).relayQ
              rw [Node.port_setPort_same]
              exact h
          · left
            show y ∈ ((n.setPort p _).port q).relayQ
            rw [Node.port_setPort_ne n _ hq]
            exact h
        · exact .inr (Node.relayQueue_queued p x h)
  · unfold Node.relayStep
    split
    · rfl
    · split <;> rfl

theorem Onward.relaySend (n : Node) (p : Nat) (b : List Byte) : Onward n (n.relaySend p b) := by
  unfold Node.relaySend
  exact .ite ((Onward.joins n p b).trans (.relayStep _ p)) (.refl n)

/-- A frame that may be sent waits. -/
theorem Node.relaySend_held {n : Node} {p : Nat} (b : List Byte) (h1 : n.canTx p = true) (h2 : n.nativeUp p = true) (h3 : n.barred p = false) :
    (n.relaySend p b).relayHeld p b := by
  rw [Node.relaySend, if_pos ⟨h1, h2, h3⟩]
  refine (Onward.relayStep _ p).held p b (.inl ?_)
  rw [Node.port_setPort_same]
  exact List.mem_append_right _ (List.mem_singleton.2 rfl)

theorem Node.relaySend_flash (n : Node) (p : Nat) (b : List Byte) : (n.relaySend p b).flash = n.flash := by
  have hstep : ∀ m : Node, (m.relayStep p).flash = m.flash := fun m => by
    unfold Node.relayStep
    split
    · rfl
    · split <;> rfl
  unfold Node.relaySend
  split
  · exact hstep _
  · rfl

theorem Onward.sendBlock (n : Node) (p k : Nat) : Onward n (n.sendBlock p k) := by
  unfold Node.sendBlock
  have hcount : ∀ m : Node, Onward m (m.inc F.UPD_RELAY_STAT_BLOCKS) := fun m => ⟨.counted m, fun _ _ h => h, fun _ => rfl⟩
  exact (Onward.foldl (fun a i => Onward.relaySend a p _) _ n).trans (hcount _)

/-- What has been sent to a partner, and what it has acknowledged, says nothing of where blocks came from. -/
theorem Onward.setRelay (n : Node) (p : Nat) {x : Relay} (hx : x.got = (n.relay p).got) : Onward n (n.setRelay p x) := by
  refine ⟨.setRelay n p x, fun _ _ h => h, fun q => ?_⟩
  have hdef : (n.setRelay p x).relay q = FMap.get {} (FMap.put {} n.flash.relays p x) q := rfl
  rw [hdef]
  by_cases hq : q = p
  · subst hq
    rw [FMap.get_put_same, hx]
  · rw [FMap.get_put_ne _ _ _ _ hq, Node.relay]

theorem Node.sendBlock_relay (n : Node) (p k q : Nat) : (n.sendBlock p k).relay q = n.relay q := by
  have hfold : ∀ (l : List Nat) (g : Node → Nat → List Byte) (m : Node), (l.foldl (fun a i => a.relaySend p (g a i)) m).flash = m.flash := by
    intro l g
    induction l with
    | nil => exact fun _ => rfl
    | cons i l ih =>
      intro m
      rw [List.foldl_cons, ih, Node.relaySend_flash]
  unfold Node.sendBlock Node.relay
  rw [Node.inc_flash, hfold]

theorem Onward.relayPump : ∀ (k : Nat) (n : Node) (p : Nat), Onward n (Node.relayPump k n p)
  | 0, n, _ => .refl n
  | k + 1, n, p => by
    unfold Node.relayPump
    refine .ite (((Onward.sendBlock n p _).trans (.setRelay _ p ?_)).trans (Onward.relayPump k _ p)) (.refl n)
    rw [Node.sendBlock_relay]

theorem Onward.offer (n : Node) (p : Nat) : Onward n (n.offer p) := by
  unfold Node.offer
  exact .ite (.relaySend n p _) (.refl n)

theorem Onward.offerEnd (n : Node) (e : Nat) : Onward n (n.offerEnd e) := by
  unfold Node.offerEnd
  exact .ite (.relayPump 4 n _) (.offer n _)

end Sys2Proof.Machine
end

section
/-! PROOF. The chain relay of an image, and O56 (13 R467, R470 to R472). -/

namespace Sys2Proof.Machine

open Sys2Proof

/-! ### What sending on a backbone port rests on (07 R258, R266; 08 R287) -/

/-- The fields that say whether a backbone port may send, and whether it is offered an image. -/
def lineKeys : List Nat :=
  [F.PWR_ISLANDS_DATA.key, F.PAIR_STATUS_CLAIM_HELD.key, F.TOP_INAUG_BARRED.key, F.UPD_CTRL_RELAY_EN.key] ++
    (List.range 4).map (fun p => (F.PRT_STATUS_LINK p).key) ++ (List.range 2).map (fun l => (F.BBL_RELAY_CLOSED l).key) ++
    (List.range 2).map (fun l => (F.BBL_RELAY_MISMATCH l).key) ++ (List.range 4).map (fun p => (F.BBL_STATUS_COMPAT (lineOf p) (endOf p)).key) ++
    (List.range 4).map (fun p => (F.BBL_STATUS_HITLESS (lineOf p) (endOf p)).key)

/-- `b` agrees with `a` on what a backbone port's sending rests on. -/
structure SameLines (a b : Node) : Prop where
  mode : b.mode = a.mode
  level : b.level = a.level
  failed : b.failed = a.failed
  cut : b.pair.cut = a.pair.cut
  gap : b.pair.gapAt = a.pair.gapAt
  rd : ∀ f : Fld, f.key ∈ lineKeys → b.rd f = a.rd f

namespace SameLines

variable {a b c : Node}

theorem refl (n : Node) : SameLines n n := ⟨rfl, rfl, rfl, rfl, rfl, fun _ _ => rfl⟩

theorem trans (h : SameLines a b) (g : SameLines b c) : SameLines a c :=
  ⟨g.mode.trans h.mode, g.level.trans h.level, g.failed.trans h.failed, g.cut.trans h.cut, g.gap.trans h.gap, fun f hf => (g.rd f hf).trans (h.rd f hf)⟩

theorem on (h : SameLines a b) {f : Fld} (hf : f.key ∈ lineKeys) : b.on f = a.on f := by rw [Node.on, h.rd f hf, Node.on]

theorem dataOn (h : SameLines a b) : b.dataOn = a.dataOn := h.on (by decide)

theorem linkUp (h : SameLines a b) {p : Nat} (hp : p < 4) : b.linkUp p = a.linkUp p := by
  have hkeys : (F.PRT_STATUS_LINK p).key ∈ lineKeys ∧ (F.BBL_RELAY_CLOSED (lineOf p)).key ∈ lineKeys ∧ (F.BBL_RELAY_MISMATCH (lineOf p)).key ∈ lineKeys := by
    interval_cases p <;> decide
  obtain ⟨h1, h2, h3⟩ := hkeys
  simp only [Node.linkUp, Node.joined, h.on h1, h.on h2, h.on h3, h.cut]

theorem nativeUp (h : SameLines a b) {p : Nat} (hp : p < 4) : b.nativeUp p = a.nativeUp p := by
  have hkey : (F.BBL_STATUS_COMPAT (lineOf p) (endOf p)).key ∈ lineKeys := by interval_cases p <;> decide
  simp only [Node.nativeUp, h.linkUp hp, h.on hkey]

theorem hitless (h : SameLines a b) {p : Nat} (hp : p < 4) : b.hitless p = a.hitless p := by
  have hkey : (F.BBL_STATUS_HITLESS (lineOf p) (endOf p)).key ∈ lineKeys := by interval_cases p <;> decide
  simp only [Node.hitless, h.nativeUp hp, h.on hkey]

theorem barred (h : SameLines a b) (p : Nat) : b.barred p = a.barred p := by
  simp only [Node.barred, h.rd F.TOP_INAUG_BARRED (by decide)]

theorem canTx (h : SameLines a b) {p : Nat} (hp : p < 4) : b.canTx p = a.canTx p := by
  simp only [Node.canTx, h.dataOn, h.on (f := F.PAIR_STATUS_CLAIM_HELD) (by decide), Node.forwards, h.gap, h.linkUp hp]

theorem topoWorks (h : SameLines a b) : b.topoWorks = a.topoWorks := by
  simp only [Node.topoWorks, h.dataOn, h.mode, h.level, h.failed]

theorem relayPort (h : SameLines a b) {e : Nat} (he : e < 2) : b.relayPort e = a.relayPort e := by
  simp only [Node.relayPort, h.linkUp (show 2 * e < 4 by omega)]

theorem counts {p : Nat} {I : Nat → Prop} (h : Counts p I a b) : SameLines a b := by
  have hrd := h.rd
  have hgap : ∀ k ∈ lineKeys, k % 32 ≠ 0 ∨ k < 32 * 0x10300000 := by decide
  obtain ⟨_, _, _, hb⟩ := h.eq
  refine ⟨by rw [hb], by rw [hb], by rw [hb], by rw [hb], by rw [hb], fun f hf => hrd f fun hk => ?_⟩
  have := hgap _ hf
  have := hk.bounds
  omega

theorem relays (h : Relays a b) : SameLines a b := by
  have hrd := h.rd
  have hkeys : ∀ k ∈ lineKeys, k ≠ F.UPD_RELAY_STAT_BLOCKS.key := by decide
  obtain ⟨_, _, _, _, _, _, hb⟩ := h.eq
  exact ⟨by rw [hb], by rw [hb], by rw [hb], by rw [hb], by rw [hb], fun f hf => hrd f (hkeys _ hf)⟩

theorem wears (h : Wears a b) : SameLines a b := by
  have hrd := h.rd
  have hkeys : ∀ k ∈ lineKeys, k ≠ F.MGT_FAULT_SOURCE.key ∧ k ≠ F.UPD_STATUS_MIRROR_DEGRADED.key := by decide
  obtain ⟨_, _, _, _, _, _, _, _, hb⟩ := h.eq
  exact ⟨by rw [hb], by rw [hb], by rw [hb], by rw [hb], by rw [hb], fun f hf => hrd f (hkeys _ hf).1 (hkeys _ hf).2⟩

theorem wr (n : Node) {f : Fld} (v : Nat) (hf : f.key ∉ lineKeys) : SameLines n (n.wr f v) :=
  ⟨rfl, rfl, rfl, rfl, rfl, fun _ hg => Node.rd_wr_ne n v fun he => hf (he ▸ hg)⟩

theorem pviol (n : Node) {k : Nat} (hk : k = 19 ∨ k = 20) (x : Nat) : SameLines n (n.pviol k x) := by
  have hrd := fun (f : Fld) => Node.pviol_rd n k x (f := f)
  have hkeys : ∀ j ∈ lineKeys, j ≠ (F.HLT_PVIOL_COUNT 19).key ∧ j ≠ (F.HLT_PVIOL_COUNT 20).key ∧ j ≠ F.MGT_FAULT_SOURCE.key := by decide
  obtain ⟨_, _, _, hb⟩ := Node.pviol_logs n k x
  refine ⟨by rw [hb], by rw [hb], by rw [hb], by rw [hb], by rw [hb], fun f hf => hrd f ?_ (hkeys _ hf).2.2⟩
  rcases hk with rfl | rfl
  · exact (hkeys _ hf).1
  · exact (hkeys _ hf).2.1

end SameLines

/-! ### A relay frame by its own row (07 R255; 08 R284, R287) -/

/-- A frame that a port takes whole, in a node at L1 or above that does not pass it on. -/
structure Wired (n : Node) (p : Nat) (b : List Byte) : Prop where
  receives : n.receives p = true
  short : 60 ≤ b.length
  long : b.length + 4 ≤ n.rd (F.PRT_CTRL_MAXLEN p)
  level : 1 ≤ n.level
  works : n.level = 1 → n.topoWorks = true
  barred : n.barred p = false

section Row

variable {n : Node} {p : Nat} {b : List Byte} (hp : p < 4) (h : Wired n p b)

theorem slice_drop (l : List Byte) (i off k : Nat) : slice (l.drop i) off k = slice l (i + off) k := by
  rw [slice, List.drop_drop, slice]

theorem leAt_drop (l : List Byte) (i off k : Nat) : leAt (l.drop i) off k = leAt l (i + off) k := by rw [leAt, slice_drop, leAt]

theorem byteAt_drop (l : List Byte) (i off : Nat) : byteAt (l.drop i) off = byteAt l (i + off) := by
  rw [byteAt, byteAt, List.getD_eq_getElem?_getD, List.getElem?_drop, List.getD_eq_getElem?_getD]

include h

/-- Such a frame is good, and only counters change. -/
theorem Wired.good : n.rxRow p b = (.good b false, n.counted p b) ∧ Counts p MacIndex n (n.counted p b) := by
  have hpad : b ++ zeros (60 - b.length) = b := by
    rw [Nat.sub_eq_zero_of_le h.short]
    exact List.append_nil b
  obtain ⟨h1, h2⟩ := Node.rxMac_good (n := n) (p := p) (f := { bytes := b }) rfl rfl rfl rfl h.short h.long
  have hrow : n.rxRow p b = n.rxMac p { bytes := b } := by rw [Node.rxRow, hpad]
  have hcounted : n.counted p b = (n.rxMac p { bytes := b }).2 := by rw [Node.counted, hrow]
  exact ⟨by rw [hrow, hcounted, ← h1], hcounted ▸ h2⟩

theorem Wired.lines : SameLines n (n.counted p b) := .counts h.good.2

include hp

/-- The row is what the update unit does with the frame. -/
theorem Wired.row (ty : Nat) : n.relayRow p ty b = (n.counted p b).relayRx p ty (b.drop 14) := by
  have hlines := h.lines
  unfold Node.relayRow
  rw [if_neg (by simp [hp, h.receives]), h.good.1]
  dsimp only
  rw [if_neg, if_neg]
  · rw [hlines.barred, h.barred]
    decide
  · rintro ⟨h1, h2⟩
    rw [hlines.topoWorks, h.works (hlines.level ▸ h1)] at h2
    cases h2

/-- What the update unit does with a frame of the row's type. -/
theorem Wired.rx (ty : Nat) (hok : relayOk (b.drop 14) = true) (hty : byteAt b 17 = ty) : n.relayRow p ty b =
    if ty ≤ 2 then
      match (n.counted p b).relayRefusal (leAt b 18 8) with
      | some c => (n.counted p b).relayAnswer p 4 (leAt b 18 8) (leAt b 26 4) (leAt b 30 2) c
      | none => if ty = 1 then (n.counted p b).relayAck p (leAt b 18 8) (leAt b 26 4) else (n.counted p b).relayFrag p (b.drop 14)
    else if ty = 3 then (n.counted p b).ackRx p (b.drop 14) else (n.counted p b).nakRx p (b.drop 14) := by
  have hlines := h.lines
  have hrec := h.receives
  simp only [Node.receives, Bool.and_eq_true] at hrec
  obtain ⟨⟨hdata, hlink⟩, -⟩ := hrec
  have hbyte : byteAt (b.drop 14) 3 = ty := by rw [byteAt_drop, hty]
  rw [h.row hp]
  unfold Node.relayRx
  rw [if_neg, if_neg (by rw [hok]; decide), if_neg (not_not.2 hbyte)]
  · simp only [leAt_drop] <;> rfl
  · rw [hlines.dataOn, hdata, hlines.linkUp hp, hlink, hlines.level]
    simp [hp, h.level]

/-- A malformed frame is a partner violation. -/
theorem Wired.malformed (ty : Nat) (hok : relayOk (b.drop 14) = false) : n.relayRow p ty b = (n.counted p b).pviol 19 p := by
  have hlines := h.lines
  have hrec := h.receives
  simp only [Node.receives, Bool.and_eq_true] at hrec
  obtain ⟨⟨hdata, hlink⟩, -⟩ := hrec
  rw [h.row hp]
  unfold Node.relayRx
  rw [if_neg, if_pos (by rw [hok]; rfl)]
  rw [hlines.dataOn, hdata, hlines.linkUp hp, hlink, hlines.level]
  simp [hp, h.level]

end Row

/-! ### Answers (13 R471) -/

theorem leNat_lt (l : List Byte) : leNat l < 256 ^ l.length := by
  induction l with
  | nil => exact Nat.one_pos
  | cons b t ih =>
    have := b.isLt
    rw [leNat, List.length_cons, Nat.pow_succ]
    omega

theorem leAt_lt (l : List Byte) (off k : Nat) : leAt l off k < 256 ^ k := by
  refine (leNat_lt _).trans_le (Nat.pow_le_pow_right (by decide) ?_)
  rw [slice, List.length_take]
  exact Nat.min_le_left _ _

/-- An answer for an image waits on the port. -/
def Node.answersHeld (n : Node) (p ty id block cause : Nat) : Prop :=
  ∃ h size, n.relayHeld p h ∧ RelayHeader h ty id size block 0 cause []

/-- An answer for an image waits on the port, as its frame shows it. -/
def Answers (t : Node) (p ty id block cause : Nat) : Prop :=
  ∃ h, t.relayWaits p h ∧ beAt h 12 2 = 0x88B7 ∧ beAt h 14 2 = 0x5550 ∧ byteAt h 17 = ty ∧ leAt h 18 8 = id ∧ leAt h 30 2 = block ∧
    byteAt h 33 = cause

theorem Node.answersHeld.shown {m t : Node} {p ty id block cause : Nat} (h : m.answersHeld p ty id block cause) (hf : Follows m t) (h1 : ty < 256)
    (h2 : id < 2 ^ 64) (h3 : block < 2 ^ 16) (h4 : cause < 256) : Answers t p ty id block cause := by
  obtain ⟨x, size, hx, hh⟩ := h
  refine ⟨x, hx.waits.of_follows hf, hh.etype, hh.magic, ?_, ?_, ?_, ?_⟩
  · rw [hh.type, Nat.mod_eq_of_lt h1]
  · rw [hh.image, Nat.mod_eq_of_lt h2]
  · rw [hh.block, Nat.mod_eq_of_lt h3]
  · rw [hh.cause, Nat.mod_eq_of_lt h4]

/-- The port may send. -/
structure MaySend (n : Node) (p : Nat) : Prop where
  tx : n.canTx p = true
  native : n.nativeUp p = true
  barred : n.barred p = false

theorem MaySend.lines {a b : Node} {p : Nat} (hp : p < 4) (h : MaySend a p) (hs : SameLines a b) : MaySend b p :=
  ⟨(hs.canTx hp).trans h.tx, (hs.nativeUp hp).trans h.native, (hs.barred p).trans h.barred⟩

theorem MaySend.answer {n : Node} {p : Nat} (h : MaySend n p) (ty id size block cause : Nat) :
    (n.relayAnswer p ty id size block cause).answersHeld p ty id block cause :=
  ⟨_, size, Node.relaySend_held _ h.tx h.native h.barred, n.relayFrame_header p ty id size block 0 cause 0 []⟩

theorem Node.answersHeld.onward {m n : Node} {p ty id block cause : Nat} (h : m.answersHeld p ty id block cause) (ho : Onward m n) :
    n.answersHeld p ty id block cause := by
  obtain ⟨x, size, hx, hh⟩ := h
  exact ⟨x, size, ho.held p x hx, hh⟩

theorem Node.relayAnswer_flash (n : Node) (p ty id size block cause : Nat) : (n.relayAnswer p ty id size block cause).flash = n.flash :=
  Node.relaySend_flash _ _ _

/-- The block that an ACK names. -/
def Node.lackNo (n : Node) : Nat :=
  if n.xferAny then (match n.firstLack with
    | none => 0xFFFF
    | some k => k) else 0

theorem Node.relayAck_eq (n : Node) (p id size : Nat) : n.relayAck p id size = n.relayAnswer p 3 id size n.lackNo 0 := rfl

/-! ### Obligation O56 -/

section Relay

variable {s : State} {p : Nat} {b : List Byte} (hfit : s.node.fits) (hp : p < 4)

/-- A frame that is counted, and what the relay then sends, keep the level. -/
theorem Yields.of_relayed {c : Instr} {g m : Node} {P : Node → Prop} (he : exec c s = s.to m) (hl : g.level = s.node.level)
    (hs : SameLevelInputs g s.node) (hr : Relays g m) (hfit : s.node.fits) (hP : ∀ t, Follows m t → P t) : Yields c s P := by
  have hm := hr.sameLevelInputs
  exact Yields.of_calm he (hr.level.trans hl) ⟨hm.mode.trans hs.mode, hm.failed.trans hs.failed, hm.loaded.trans hs.loaded, hm.settings.trans hs.settings,
    hm.hold.trans hs.hold, fun f hf => (hm.rd f hf).trans (hs.rd f hf)⟩ hfit hP

theorem Counts.level {I : Nat → Prop} {m n : Node} (h : Counts p I m n) : n.level = m.level := by
  obtain ⟨_, _, _, hn⟩ := h.eq
  rw [hn]

theorem Counts.flash {I : Nat → Prop} {m n : Node} (h : Counts p I m n) : n.flash = m.flash := by
  obtain ⟨_, _, _, hn⟩ := h.eq
  rw [hn]

include hfit in
/-- A frame whose answer is all that comes of it. -/
theorem Wired.answered {c : Instr} (hp : p < 4) (h : Wired s.node p b) (hsend : MaySend s.node p) {ty size block cause : Nat}
    (he : exec c s = s.to ((s.node.counted p b).relayAnswer p ty (leAt b 18 8) size block cause)) (h1 : ty < 256) (h3 : block < 2 ^ 16) (h4 : cause < 256) :
    Yields c s (fun t => Answers t p ty (leAt b 18 8) block cause ∧ t.flash = s.node.flash) := by
  have hcount := h.good.2
  refine Yields.of_relayed he hcount.level hcount.sameLevelInputs (.relaySend _ p _) hfit fun t hf => ⟨?_, ?_⟩
  · exact ((hsend.lines hp h.lines).answer ty _ size block cause).shown hf h1 ((leAt_lt b 18 8).trans_le (by norm_num)) h3 h4
  · rw [hf.flash, Node.relayAnswer_flash, hcount.flash]

include hfit hp

omit hp in
theorem relayOffer_timer (hstart : (s.node.relay p).started = false) :
    (s.node.relayHas p = true → Settles (.relayOfferTimer p) s s.node) ∧
    (s.node.mayOffer p = true → s.node.relayHas p = false → s.node.canTx p = true → Yields (.relayOfferTimer p) s (fun t => t.flash = s.node.flash ∧
      ∃ h, t.relayWaits p h ∧ beAt h 0 6 = 0x0180C200000E ∧ beAt h 12 2 = 0x88B7 ∧ beAt h 14 2 = 0x5550 ∧ byteAt h 16 = 1 ∧ byteAt h 17 = 1 ∧
        leAt h 18 8 = s.node.flash.xferId % 2 ^ 64 ∧ leAt h 26 4 = s.node.flash.xferSize % 2 ^ 32)) ∧
    (s.node.mayOffer p = false → Settles (.relayOfferTimer p) s s.node) := by
  have hrun : exec (.relayOfferTimer p) s = s.to (if s.node.relayHas p = true then s.node else s.node.offer p) := by
    refine congrArg s.to ?_
    rw [hstart, Bool.false_or]
  refine ⟨fun hhas => Settles.of_to (hrun.trans (by rw [if_pos hhas])), fun hoffer hhas hcan => ?_, fun hoffer => Settles.of_to (hrun.trans ?_)⟩
  · rw [if_neg (by rw [hhas]; decide), Node.offer, if_pos hoffer] at hrun
    have hmay := hoffer
    simp only [Node.mayOffer, Bool.and_eq_true, Node.hitless] at hmay
    obtain ⟨⟨⟨⟨⟨⟨-, hhit⟩, hbar⟩, -⟩, -⟩, -⟩, -⟩ := hmay
    have hheld := Node.relaySend_held (s.node.relayFrame p 1 s.node.flash.xferId s.node.flash.xferSize 0 0 0 0 []) hcan hhit.1 (by simpa using hbar)
    have hh := s.node.relayFrame_header p 1 s.node.flash.xferId s.node.flash.xferSize 0 0 0 0 []
    refine Yields.of_relayed hrun rfl ⟨rfl, rfl, rfl, rfl, rfl, fun _ _ => rfl⟩ (.relaySend _ p _) hfit fun t hf => ⟨?_, _, hheld.waits.of_follows hf,
      hh.dest, hh.etype, hh.magic, hh.version, hh.type, hh.image, hh.size⟩
    rw [hf.flash, Node.relaySend_flash]
  · split
    · rfl
    · rw [Node.offer, if_neg (by rw [hoffer]; decide)]

omit hfit in
theorem relay_malformed (h : Wired s.node p b) (hok : relayOk (b.drop 14) = false) :
    ∀ c ∈ [Instr.relayOffer p b, .relayBlock p b, .relayAck p b, .relayNak p b], Settles c s ((s.node.counted p b).pviol 19 p) := by
  have hrun : ∀ (c : Instr) (ty : Nat), exec c s = s.to (s.node.relayRow p ty b) → Settles c s ((s.node.counted p b).pviol 19 p) := fun c ty he =>
    Settles.of_to (he.trans (by rw [h.malformed hp ty hok]))
  intro c hc
  simp only [List.mem_cons, List.not_mem_nil, or_false] at hc
  rcases hc with rfl | rfl | rfl | rfl
  · exact hrun _ 1 rfl
  · exact hrun _ 2 rfl
  · exact hrun _ 3 rfl
  · exact hrun _ 4 rfl

/-- A receiver with relay off, or with another image, refuses (13 R471). -/
theorem relay_refused (h : Wired s.node p b) (hsend : MaySend s.node p) (ty : Nat) (c : Instr) (hc : (ty, c) ∈ [(1, Instr.relayOffer p b), (2, .relayBlock p b)])
    (hok : relayOk (b.drop 14) = true) (hty : byteAt b 17 = ty) :
    ((s.node.on F.UPD_CTRL_RELAY_EN = false ∨ s.node.mode ≠ .active) → Yields c s (fun t => Answers t p 4 (leAt b 18 8) (leAt b 30 2) 2 ∧ t.flash = s.node.flash)) ∧
    (s.node.on F.UPD_CTRL_RELAY_EN = true → s.node.mode = .active → s.node.flash.xfer ≠ [] → s.node.flash.xferId ≠ leAt b 18 8 →
      Yields c s (fun t => Answers t p 4 (leAt b 18 8) (leAt b 30 2) 3 ∧ t.flash = s.node.flash)) := by
  have hlines := h.lines
  have hcount := h.good.2
  have hlow : ty ≤ 2 := by
    simp only [List.mem_cons, List.not_mem_nil, or_false, Prod.mk.injEq] at hc
    omega
  have hexec : exec c s = s.to (s.node.relayRow p ty b) := by
    simp only [List.mem_cons, List.not_mem_nil, or_false, Prod.mk.injEq] at hc
    rcases hc with ⟨rfl, rfl⟩ | ⟨rfl, rfl⟩ <;> rfl
  have hrefuse : ∀ k, k < 256 → (s.node.counted p b).relayRefusal (leAt b 18 8) = some k →
      Yields c s (fun t => Answers t p 4 (leAt b 18 8) (leAt b 30 2) k ∧ t.flash = s.node.flash) := fun k hk hr =>
    Wired.answered hfit hp h hsend (size := leAt b 26 4) (hexec.trans (by rw [h.rx hp ty hok hty, if_pos hlow, hr])) (by decide)
      ((leAt_lt b 30 2).trans_le (by norm_num)) hk
  have hen : (s.node.counted p b).on F.UPD_CTRL_RELAY_EN = s.node.on F.UPD_CTRL_RELAY_EN := hlines.on (by decide)
  refine ⟨fun hoff => hrefuse 2 (by decide) (if_pos ?_), fun hon hact hany hid => hrefuse 3 (by decide) ?_⟩
  · rw [hen, hlines.mode]
    exact hoff.imp (fun h => by rw [h]; rfl) id
  · rw [Node.relayRefusal, if_neg (by rw [hen, hlines.mode, hon, hact]; simp), if_pos]
    refine ⟨?_, by rw [hcount.flash]; exact hid⟩
    rw [Node.xferAny_iff, hcount.flash]
    exact hany

end Relay

end Sys2Proof.Machine
end

section
/-! PROOF. The chain relay of an image: acknowledgements, blocks and their refusals, and O56 (13 R467, R470 to R472). -/

namespace Sys2Proof.Machine

open Sys2Proof

/-! ### The first block that is missing (13 R471) -/

theorem Node.firstLack_first {n : Node} {j : Nat} (hj : j < blocksOf n.flash.xferSize) (hlack : n.hasBlock j = false)
    (hheld : ∀ q, q < j → n.hasBlock q = true) : n.firstLack = some j := by
  rw [Node.firstLack, List.find?_range_eq_some]
  exact ⟨by rw [hlack]; rfl, List.mem_range.2 hj, fun q hq => by rw [hheld q hq]; rfl⟩

theorem Node.firstLack_some {n : Node} {j : Nat} (h : n.firstLack = some j) : j < blocksOf n.flash.xferSize ∧ n.hasBlock j = false ∧
    ∀ q, q < j → n.hasBlock q = true := by
  rw [Node.firstLack, List.find?_range_eq_some] at h
  obtain ⟨h1, h2, h3⟩ := h
  exact ⟨List.mem_range.1 h2, by simpa using h1, fun q hq => by simpa using h3 q hq⟩

theorem Node.lackNo_empty {n : Node} (h : n.flash.xfer = []) : n.lackNo = 0 := by
  rw [Node.lackNo, if_neg]
  rw [Node.xferAny, h]
  decide

theorem Node.lackNo_whole {n : Node} (h : n.flash.xfer ≠ []) (hall : ∀ j, j < blocksOf n.flash.xferSize → n.hasBlock j = true) : n.lackNo = 0xFFFF := by
  rw [Node.lackNo, if_pos ((Node.xferAny_iff n).2 h), Node.firstLack_none.2 hall]

theorem Node.lackNo_first {n : Node} {j : Nat} (h : n.flash.xfer ≠ []) (hj : j < blocksOf n.flash.xferSize) (hlack : n.hasBlock j = false)
    (hheld : ∀ q, q < j → n.hasBlock q = true) : n.lackNo = j := by
  rw [Node.lackNo, if_pos ((Node.xferAny_iff n).2 h), Node.firstLack_first hj hlack hheld]

/-- The block an ACK names, of an image of a size of 32 bits. -/
theorem Node.lackNo_cases {n : Node} (h : n.flash.xfer ≠ []) (hsize : n.flash.xferSize < 2 ^ 32) : n.lackNo < 2 ^ 16 ∧
    (n.lackNo = 0xFFFF ∨ (FMap.get [] n.flash.xfer n.lackNo = [] ∧ ∀ q, q < n.lackNo → FMap.get [] n.flash.xfer q ≠ [])) := by
  cases hl : n.firstLack with
  | none =>
    have hno := Node.lackNo_whole h (Node.firstLack_none.1 hl)
    exact ⟨by omega, .inl hno⟩
  | some j =>
    obtain ⟨hj, hlack, hheld⟩ := Node.firstLack_some hl
    rw [Node.lackNo_first h hj hlack hheld]
    have hlt : j < 2 ^ 16 := by
      unfold blocksOf at hj
      omega
    refine ⟨hlt, .inr ⟨by simpa [Node.hasBlock] using hlack, fun q hq => by simpa [Node.hasBlock] using hheld q hq⟩⟩

theorem Node.lackNo_congr {a b : Node} (h : b.flash = a.flash) : b.lackNo = a.lackNo := by
  have hany : b.xferAny = a.xferAny := by simp only [Node.xferAny, h]
  have hlack : b.firstLack = a.firstLack := by simp only [Node.firstLack, Node.hasBlock, h]
  rw [Node.lackNo, Node.lackNo, hany, hlack]

/-! ### An offer is acknowledged (13 R471) -/

section Relay

variable {s : State} {p : Nat} {b : List Byte} (hfit : s.node.fits) (hp : p < 4) (h : Wired s.node p b) (hok : relayOk (b.drop 14) = true)

/-- A node with relay on that holds nothing, or the same image, takes the frame. -/
theorem Wired.accepted (h : Wired s.node p b) (hon : s.node.on F.UPD_CTRL_RELAY_EN = true) (hact : s.node.mode = .active)
    (hid : s.node.flash.xfer = [] ∨ s.node.flash.xferId = leAt b 18 8) : (s.node.counted p b).relayRefusal (leAt b 18 8) = none := by
  have hlines := h.lines
  rw [Node.relayRefusal, if_neg, if_neg]
  · rw [Node.xferAny_iff, h.good.2.flash]
    rintro ⟨h1, h2⟩
    exact hid.elim h1 h2
  · rw [hlines.on (by decide), hlines.mode, hon, hact]
    simp

include hfit hp h hok

theorem relay_offered (hsend : MaySend s.node p) (hon : s.node.on F.UPD_CTRL_RELAY_EN = true) (hact : s.node.mode = .active)
    (hid : s.node.flash.xfer = [] ∨ s.node.flash.xferId = leAt b 18 8) (hty : byteAt b 17 = 1) :
    (s.node.flash.xfer = [] → Yields (.relayOffer p b) s (fun t => Answers t p 3 (leAt b 18 8) 0 0 ∧ t.flash = s.node.flash)) ∧
    (s.node.flash.xfer ≠ [] → (∀ j, j < blocksOf s.node.flash.xferSize → s.node.hasBlock j = true) →
      Yields (.relayOffer p b) s (fun t => Answers t p 3 (leAt b 18 8) 0xFFFF 0 ∧ t.flash = s.node.flash)) ∧
    (∀ j, s.node.flash.xfer ≠ [] → j < blocksOf s.node.flash.xferSize → j < 2 ^ 16 → s.node.hasBlock j = false → (∀ q, q < j → s.node.hasBlock q = true) →
      Yields (.relayOffer p b) s (fun t => Answers t p 3 (leAt b 18 8) j 0 ∧ t.flash = s.node.flash)) := by
  have hack : ∀ j, s.node.lackNo = j → j < 2 ^ 16 →
      Yields (.relayOffer p b) s (fun t => Answers t p 3 (leAt b 18 8) j 0 ∧ t.flash = s.node.flash) := fun j hj hlt => by
    refine Wired.answered hfit hp h hsend (size := leAt b 26 4) ?_ (by decide) hlt (by decide)
    refine congrArg s.to ((h.rx hp 1 hok hty).trans ?_)
    rw [if_pos (by decide), h.accepted hon hact hid]
    simp only [if_true]
    rw [Node.relayAck_eq, Node.lackNo_congr h.good.2.flash, hj]
  exact ⟨fun hno => hack 0 (Node.lackNo_empty hno) (by decide), fun hany hall => hack _ (Node.lackNo_whole hany hall) (by decide),
    fun j hany hj hlt hlack hheld => hack j (Node.lackNo_first hany hj hlack hheld) hlt⟩

end Relay


/-! ### What a sender may offer (13 R471, R472) -/

/-- What an offer rests on is unchanged. -/
theorem Node.mayOffer_congr {a b : Node} {p : Nat} (hp : p < 4) (h : SameLines a b) (hx : b.flash.xfer = a.flash.xfer) (hpl : b.flash.placed = a.flash.placed)
    (hst : b.rd F.UPD_STATUS_XFER = a.rd F.UPD_STATUS_XFER) (hgot : ∀ q, (b.relay q).got = (a.relay q).got) : b.mayOffer p = a.mayOffer p := by
  have he : endOf p < 2 := by
    unfold endOf
    omega
  simp only [Node.mayOffer, h.mode, h.dataOn, h.hitless hp, h.barred, h.relayPort he, Node.xferAny, hx, hst, hpl, h.on (f := F.UPD_CTRL_RELAY_EN) (by decide),
    Node.gotFrom, hgot]

theorem Counts.status {I : Nat → Prop} {m n : Node} {p : Nat} (h : Counts p I m n) : n.rd F.UPD_STATUS_XFER = m.rd F.UPD_STATUS_XFER :=
  h.rd _ fun hk => by
    have := hk.bounds
    have hkey : F.UPD_STATUS_XFER.key % 32 = 0 → F.UPD_STATUS_XFER.key < 32 * 0x10300000 := by decide
    omega


theorem satInc_eight (v : Nat) : satInc 8 v = min (v + 1) 255 := rfl

/-- A count of the relay counts up to 255. -/
theorem Node.inc_eight (n : Node) {f : Fld} (hw : f.w = 8) : n.inc f = n.wr f (min (n.rd f + 1) 255) := by
  rw [Node.inc, hw, satInc_eight]

/-- Nothing is sent on where the next block is missing. -/
theorem Node.relayPump_lacks {n : Node} {p : Nat} (k : Nat) (h : n.hasBlock (n.relay p).sent = false) : Node.relayPump k n p = n := by
  cases k with
  | zero => rfl
  | succ k => rw [Node.relayPump, if_neg (by rw [h]; simp)]

theorem Node.relay_setRelay (n : Node) (p : Nat) (r : Relay) : (n.setRelay p r).relay p = r := by
  rw [Node.relay, show (n.setRelay p r).flash.relays = FMap.put {} n.flash.relays p r from rfl, FMap.get_put_same]

section Sender

variable {s : State} {p : Nat} {b : List Byte} (hp : p < 4) (h : Wired s.node p b) (hok : relayOk (b.drop 14) = true)

include hp h hok

/-- An ACK or a NAK for the image that the node holds (13 R471). -/
theorem relay_answers (hid : s.node.flash.xferId = leAt b 18 8) :
    (byteAt b 17 = 3 → s.node.mayOffer p = true → s.node.relayRow p 3 b =
      if leAt b 30 2 = 0xFFFF then (s.node.counted p b).setRelay p { s.node.relay p with
        started := false, naks := 0, acked := blocksOf s.node.flash.xferSize, sent := blocksOf s.node.flash.xferSize }
      else ((s.node.counted p b).setRelay p { s.node.relay p with
        started := true, naks := if leAt b 30 2 ≤ (s.node.relay p).nakOf then (s.node.relay p).naks else 0, acked := leAt b 30 2,
        sent := if (s.node.relay p).started then max (s.node.relay p).sent (leAt b 30 2) else leAt b 30 2 }).relayPump 4 p) ∧
    (byteAt b 17 = 4 → s.node.relayRow p 4 b =
      if byteAt b 33 = 1 then
        if 3 ≤ (if (s.node.relay p).naks ≠ 0 ∧ (s.node.relay p).nakOf = leAt b 30 2 then (s.node.relay p).naks + 1 else 1) then
          (((s.node.counted p b).inc F.UPD_RELAY_STAT_NAKS).setRelay p { s.node.relay p with started := false, naks := 0 }).inc F.UPD_RELAY_STAT_ABANDONED
        else (((s.node.counted p b).inc F.UPD_RELAY_STAT_NAKS).setRelay p { s.node.relay p with
          naks := if (s.node.relay p).naks ≠ 0 ∧ (s.node.relay p).nakOf = leAt b 30 2 then (s.node.relay p).naks + 1 else 1,
          nakOf := leAt b 30 2, sent := (s.node.relay p).acked }).relayPump 4 p
      else (s.node.counted p b).setRelay p { s.node.relay p with started := false }) := by
  have hflash := h.good.2.flash
  have hrelay : (s.node.counted p b).relay p = s.node.relay p := by rw [Node.relay, hflash, Node.relay]
  refine ⟨fun hty hmay => ?_, fun hty => ?_⟩
  · have hmay' : (s.node.counted p b).mayOffer p = true := by
      rw [Node.mayOffer_congr hp h.lines (by rw [hflash]) (by rw [hflash]) h.good.2.status (fun q => by rw [Node.relay, hflash, Node.relay]), hmay]
    rw [h.rx hp 3 hok hty, if_neg (by decide), if_pos rfl, Node.ackRx]
    simp only [leAt_drop, Nat.reduceAdd, hrelay, hflash, hid, hmay']
    simp
  · rw [h.rx hp 4 hok hty, if_neg (by decide), if_neg (by decide), Node.nakRx]
    simp only [leAt_drop, byteAt_drop, Nat.reduceAdd, hrelay, hflash, hid]
    simp

/-- A NAK for the image that the node holds (13 R471). -/
theorem relay_naked (hid : s.node.flash.xferId = leAt b 18 8) (hty : byteAt b 17 = 4) :
    (byteAt b 33 = 1 → (s.node.relay p).nakOf = leAt b 30 2 → 2 ≤ (s.node.relay p).naks → Settles (.relayNak p b) s
      (((s.node.counted p b).setRelay p { s.node.relay p with started := false, naks := 0 }).wrs
        [(F.UPD_RELAY_STAT_NAKS, min (s.node.rd F.UPD_RELAY_STAT_NAKS + 1) 255), (F.UPD_RELAY_STAT_ABANDONED, min (s.node.rd F.UPD_RELAY_STAT_ABANDONED + 1) 255)])) ∧
    (byteAt b 33 = 1 → (s.node.relay p).naks < 2 ∨ (s.node.relay p).nakOf ≠ leAt b 30 2 → s.node.hasBlock (s.node.relay p).acked = false →
      Settles (.relayNak p b) s (((s.node.counted p b).setRelay p { s.node.relay p with
        naks := if (s.node.relay p).nakOf = leAt b 30 2 then (s.node.relay p).naks + 1 else 1, nakOf := leAt b 30 2, sent := (s.node.relay p).acked }).wr
          F.UPD_RELAY_STAT_NAKS (min (s.node.rd F.UPD_RELAY_STAT_NAKS + 1) 255))) ∧
    (byteAt b 33 ≠ 1 → Settles (.relayNak p b) s ((s.node.counted p b).setRelay p { s.node.relay p with started := false })) := by
  have hflash := h.good.2.flash
  have hrow := (relay_answers hp h hok hid).2 hty
  have hrun : ∀ m, s.node.relayRow p 4 b = m → Settles (.relayNak p b) s m := fun m hm => Settles.of_to (congrArg s.to hm)
  have hcount : ∀ f : Fld, f.key % 32 ≠ 0 ∨ f.key < 32 * 0x10300000 → (s.node.counted p b).rd f = s.node.rd f := fun f hf => h.good.2.rd f fun hk => by
    have := hk.bounds
    omega
  refine ⟨fun hc hof hn => hrun _ ?_, fun hc hn hlack => hrun _ ?_, fun hc => hrun _ (by rw [hrow, if_neg hc])⟩
  · rw [hrow, if_pos hc, if_pos (by rw [if_pos ⟨by omega, hof⟩]; omega), Node.inc_eight _ rfl, Node.inc_eight _ rfl, ← hcount F.UPD_RELAY_STAT_NAKS (by decide),
      ← hcount F.UPD_RELAY_STAT_ABANDONED (by decide)]
    have hab : ((((s.node.counted p b).wr F.UPD_RELAY_STAT_NAKS (min ((s.node.counted p b).rd F.UPD_RELAY_STAT_NAKS + 1) 255)).setRelay p
        { s.node.relay p with started := false, naks := 0 }).rd F.UPD_RELAY_STAT_ABANDONED) = (s.node.counted p b).rd F.UPD_RELAY_STAT_ABANDONED :=
      Node.rd_wr_ne _ _ (by decide)
    rw [hab]
    rfl
  · have hnaks : (if (s.node.relay p).naks ≠ 0 ∧ (s.node.relay p).nakOf = leAt b 30 2 then (s.node.relay p).naks + 1 else 1) =
        if (s.node.relay p).nakOf = leAt b 30 2 then (s.node.relay p).naks + 1 else 1 := by
      by_cases h0 : (s.node.relay p).naks = 0
      · simp [h0]
      · simp [h0]
    have hfew : ¬ 3 ≤ (if (s.node.relay p).nakOf = leAt b 30 2 then (s.node.relay p).naks + 1 else 1) := by
      split
      · rename_i he
        have := hn.resolve_right (not_not.2 he)
        omega
      · decide
    rw [hrow, if_pos hc, hnaks, if_neg hfew, Node.relayPump_lacks, Node.inc_eight _ rfl, ← hcount F.UPD_RELAY_STAT_NAKS (by decide)]
    · rfl
    · rw [Node.relay_setRelay]
      show ((s.node.counted p b).inc F.UPD_RELAY_STAT_NAKS).hasBlock _ = false
      rw [Node.hasBlock, Node.inc_flash, hflash]
      exact hlack

end Sender


/-! ### Blocks that follow an acknowledgement (13 R471) -/

/-- Each frame of a list that may be sent waits in the end. -/
theorem Node.relaySend_all {p : Nat} (hp : p < 4) (g : Node → Nat → List Byte) {i : Nat} : ∀ (l : List Nat) (m : Node), MaySend m p → i ∈ l →
    ∃ q, (l.foldl (fun a i => a.relaySend p (g a i)) m).relayHeld p (g q i)
  | [], _, _, hi => absurd hi List.not_mem_nil
  | x :: l, m, hm, hi => by
    rw [List.foldl_cons]
    rcases List.mem_cons.1 hi with rfl | hi
    · exact ⟨m, (Onward.foldl (fun a i => Onward.relaySend a p (g a i)) l _).held p _ (Node.relaySend_held _ hm.tx hm.native hm.barred)⟩
    · exact Node.relaySend_all hp g l _ (hm.lines hp (.relays (.relaySend m p _))) hi

/-- A fragment of a block waits on the port. -/
def Node.fragmentHeld (n : Node) (p j a : Nat) (block : List Byte) : Prop :=
  ∃ h, n.relayHeld p h ∧ byteAt h 17 = 2 ∧ leAt h 30 2 = j ∧ byteAt h 32 = a ∧ slice h 46 (leAt h 38 2) = slice block (1024 * a) 1024

theorem Node.fragmentHeld.onward {m n : Node} {p j a : Nat} {block : List Byte} (h : m.fragmentHeld p j a block) (ho : Onward m n) :
    n.fragmentHeld p j a block := by
  obtain ⟨x, hx, hrest⟩ := h
  exact ⟨x, ho.held p x hx, hrest⟩

theorem Node.sendBlock_fragments {n : Node} {p j : Nat} (hp : p < 4) (hn : MaySend n p) (hj : j < 2 ^ 16) {a : Nat} (ha : a < 64) :
    (n.sendBlock p j).fragmentHeld p j a (FMap.get [] n.flash.xfer j) := by
  obtain ⟨q, hq⟩ := Node.relaySend_all hp (fun m i => m.relayFrame p 2 m.flash.xferId m.flash.xferSize j i 0 (crc32c (FMap.get [] n.flash.xfer j))
    (slice (FMap.get [] n.flash.xfer j) (1024 * i) 1024)) (List.range 64) n hn (List.mem_range.2 ha)
  have hh := q.relayFrame_header p 2 q.flash.xferId q.flash.xferSize j a 0 (crc32c (FMap.get [] n.flash.xfer j)) (slice (FMap.get [] n.flash.xfer j) (1024 * a) 1024)
  have hlen : (slice (FMap.get [] n.flash.xfer j) (1024 * a) 1024).length < 2 ^ 16 := by
    rw [slice, List.length_take]
    omega
  have hcount : ∀ m : Node, Onward m (m.inc F.UPD_RELAY_STAT_BLOCKS) := fun m => ⟨.counted m, fun _ _ h => h, fun _ => rfl⟩
  unfold Node.sendBlock
  refine ⟨_, (hcount _).held p _ hq, hh.type, ?_, ?_, hh.data hlen⟩
  · rw [hh.block, Nat.mod_eq_of_lt hj]
  · rw [hh.frag, Nat.mod_eq_of_lt (by omega)]

/-- A block that is sent, and its number noted, leave what an offer rests on. -/
theorem Node.sendBlock_kept (n : Node) {p : Nat} (hp : p < 4) (j : Nat) {x : Relay} (hx : x.got = (n.relay p).got) :
    Onward n ((n.sendBlock p j).setRelay p x) ∧ SameLines n ((n.sendBlock p j).setRelay p x) ∧ ((n.sendBlock p j).setRelay p x).mayOffer p = n.mayOffer p ∧
      ((n.sendBlock p j).setRelay p x).flash.xfer = n.flash.xfer := by
  have hr : Relays n ((n.sendBlock p j).setRelay p x) := (Relays.sendBlock n p j).trans (.setRelay _ p x)
  have ho : Onward n ((n.sendBlock p j).setRelay p x) := (Onward.sendBlock n p j).trans (.setRelay _ p (by rw [Node.sendBlock_relay, hx]))
  obtain ⟨rl, hrl⟩ := hr.flash
  exact ⟨ho, .relays hr, Node.mayOffer_congr hp (.relays hr) (by rw [hrl]) (by rw [hrl]) (hr.rd _ (by decide)) ho.got, by rw [hrl]⟩

/-- The window of a partner that has acknowledged is sent block by block. -/
theorem Node.relayPump_sends {p : Nat} (hp : p < 4) : ∀ (c : Nat) (n : Node), MaySend n p → n.mayOffer p = true → (n.relay p).started = true →
    (n.relay p).sent + c ≤ (n.relay p).acked + 4 → (n.relay p).sent + c < 2 ^ 16 → (∀ j, (n.relay p).sent ≤ j → j < (n.relay p).sent + c → n.hasBlock j = true) →
    (Node.relayPump c n p).relay p = { n.relay p with sent := (n.relay p).sent + c } ∧
    ∀ j, (n.relay p).sent ≤ j → j < (n.relay p).sent + c → ∀ a, a < 64 → (Node.relayPump c n p).fragmentHeld p j a (FMap.get [] n.flash.xfer j)
  | 0, n, _, _, _, _, _, _ => ⟨rfl, fun j h1 h2 => absurd h2 (by omega)⟩
  | c + 1, n, hn, hmay, hst, hroom, hlt, hheld => by
    have hx : ({ n.relay p with sent := (n.relay p).sent + 1 } : Relay).got = (n.relay p).got := rfl
    obtain ⟨ho, hs, hmay', hxfer⟩ := n.sendBlock_kept hp (n.relay p).sent hx
    have hfrag := fun a ha => Node.sendBlock_fragments hp hn (j := (n.relay p).sent) (by omega) (a := a) ha
    have hstep : Node.relayPump (c + 1) n p =
        Node.relayPump c ((n.sendBlock p (n.relay p).sent).setRelay p { n.relay p with sent := (n.relay p).sent + 1 }) p := by
      rw [Node.relayPump, if_pos]
      rw [hst, hmay, hheld _ le_rfl (by omega)]
      simp only [Bool.true_and, Bool.and_true, decide_eq_true_eq]
      omega
    have hrel := Node.relay_setRelay (n.sendBlock p (n.relay p).sent) p { n.relay p with sent := (n.relay p).sent + 1 }
    have hset : ∀ a, a < 64 → ((n.sendBlock p (n.relay p).sent).setRelay p { n.relay p with sent := (n.relay p).sent + 1 }).fragmentHeld p (n.relay p).sent a
        (FMap.get [] n.flash.xfer (n.relay p).sent) := fun a ha => (hfrag a ha).onward (.setRelay _ p (by rw [Node.sendBlock_relay]))
    generalize (n.sendBlock p (n.relay p).sent).setRelay p { n.relay p with sent := (n.relay p).sent + 1 } = m at ho hs hmay' hxfer hstep hrel hset
    obtain ⟨hend, hall⟩ := Node.relayPump_sends hp c m (hn.lines hp hs) (hmay'.trans hmay) (by rw [hrel]; exact hst) (by rw [hrel]; dsimp only; omega)
      (by rw [hrel]; dsimp only; omega) (fun j h1 h2 => by
        rw [hrel] at h1 h2
        dsimp only at h1 h2
        rw [Node.hasBlock, hxfer]
        exact hheld j (by omega) (by omega))
    rw [hstep]
    refine ⟨by rw [hend, hrel]; dsimp only; rw [Nat.add_assoc, Nat.add_comm 1 c], fun j h1 h2 a ha => ?_⟩
    by_cases hj : j = (n.relay p).sent
    · subst hj
      exact (hset a ha).onward (.relayPump c m p)
    · rw [← hxfer]
      exact hall j (by rw [hrel]; dsimp only; omega) (by rw [hrel]; dsimp only; omega) a ha

section Acked

variable {s : State} {p : Nat} {b : List Byte} (hp : p < 4) (h : Wired s.node p b) (hok : relayOk (b.drop 14) = true)

include hp h hok

theorem relay_acked (hfit : s.node.fits) (hsend : MaySend s.node p) (hmay : s.node.mayOffer p = true) (hid : s.node.flash.xferId = leAt b 18 8)
    (hty : byteAt b 17 = 3) :
    (leAt b 30 2 = 0xFFFF → Settles (.relayAck p b) s ((s.node.counted p b).setRelay p { s.node.relay p with
      started := false, naks := 0, acked := blocksOf s.node.flash.xferSize, sent := blocksOf s.node.flash.xferSize })) ∧
    (leAt b 30 2 + 4 < 0xFFFF → (s.node.relay p).started = false → (∀ j, leAt b 30 2 ≤ j → j < leAt b 30 2 + 4 → s.node.hasBlock j = true) →
      Yields (.relayAck p b) s (fun t => (t.relay p).acked = leAt b 30 2 ∧ (t.relay p).sent = leAt b 30 2 + 4 ∧
        ∀ j, leAt b 30 2 ≤ j → j < leAt b 30 2 + 4 → ∀ a, a < 64 → ∃ h, t.relayWaits p h ∧ byteAt h 17 = 2 ∧ leAt h 30 2 = j ∧ byteAt h 32 = a ∧
          slice h 46 (leAt h 38 2) = slice (FMap.get [] s.node.flash.xfer j) (1024 * a) 1024)) := by
  have hflash := h.good.2.flash
  have hrow := (relay_answers hp h hok hid).1 hty hmay
  refine ⟨fun hk => Settles.of_to (congrArg s.to (hrow.trans (if_pos hk))), fun hk hst hall => ?_⟩
  rw [if_neg (by omega), hst] at hrow
  obtain ⟨r, hgot, hrsent, hracked, hrst, hrow⟩ : ∃ r : Relay, r.got = ((s.node.counted p b).relay p).got ∧ r.sent = leAt b 30 2 ∧ r.acked = leAt b 30 2 ∧
      r.started = true ∧ s.node.relayRow p 3 b = ((s.node.counted p b).setRelay p r).relayPump 4 p :=
    ⟨_, by rw [Node.relay, Node.relay, hflash], rfl, rfl, rfl, hrow⟩
  have hset : Relays (s.node.counted p b) ((s.node.counted p b).setRelay p r) := .setRelay _ p r
  have hmay' : ((s.node.counted p b).setRelay p r).mayOffer p = true := by
    rw [Node.mayOffer_congr hp (h.lines.trans (.relays hset)) (by rw [← hflash]; rfl) (by rw [← hflash]; rfl) h.good.2.status
      (fun q => ((Onward.setRelay _ p hgot).got q).trans (by rw [Node.relay, hflash, Node.relay])), hmay]
  have hrel := Node.relay_setRelay (s.node.counted p b) p r
  obtain ⟨hend, hfrag⟩ := Node.relayPump_sends hp 4 ((s.node.counted p b).setRelay p r) (hsend.lines hp (h.lines.trans (.relays hset))) hmay'
    (by rw [hrel, hrst]) (by rw [hrel, hrsent, hracked]) (by rw [hrel, hrsent]; omega) (fun j h1 h2 => by
      rw [hrel, hrsent] at h1 h2
      show (s.node.counted p b).hasBlock j = true
      rw [Node.hasBlock, hflash]
      exact hall j h1 h2)
  rw [hrel, hrsent] at hend hfrag
  refine Yields.of_relayed (congrArg s.to hrow) h.good.2.level h.good.2.sameLevelInputs (hset.trans (.relayPump 4 _ p)) hfit fun t hf => ?_
  have hrelay : t.relay p = { r with sent := leAt b 30 2 + 4 } := by rw [Node.relay, hf.flash, ← hend, Node.relay]
  refine ⟨by rw [hrelay]; exact hracked, by rw [hrelay], fun j h1 h2 a ha => ?_⟩
  obtain ⟨x, hx, hrest⟩ := hfrag j h1 h2 a ha
  have hxfer : ((s.node.counted p b).setRelay p r).flash.xfer = s.node.flash.xfer := by rw [← hflash]; rfl
  rw [hxfer] at hrest
  exact ⟨x, hx.waits.of_follows hf, hrest⟩

end Acked


/-! ### A block that comes (13 R471) -/

/-- The parts of a block, the one that has come among them. -/
def Node.partsWith (n : Node) (size k i : Nat) (frag : List Byte) : List (List Byte) :=
  (List.range ((blockLen size k + 1023) / 1024)).map (fun j => if j = i then frag else FMap.get [] n.flash.frags (64 * k + j))

theorem Node.partsWith_eq (n : Node) (size k i : Nat) (frag : List Byte) : n.partsWith size k i frag =
    (List.range ((blockLen size k + 1023) / 1024)).map (fun j => FMap.get [] (FMap.put [] n.flash.frags (64 * k + i) frag) (64 * k + j)) := by
  rw [Node.partsWith]
  refine List.map_congr_left fun j _ => ?_
  by_cases h : j = i
  · rw [if_pos h, h, FMap.get_put_same]
  · rw [if_neg h, FMap.get_put_ne _ _ _ _ (by omega)]

theorem isEmpty_any {l : List (List Byte)} : l.any (fun x => x.isEmpty) = true ↔ ∃ q ∈ l, q = [] := by
  simp [List.any_eq_true]

/-- The end of the line that a block has come from. -/
def Node.taken (n : Node) (p : Nat) : Node := n.setRelay p { n.relay p with got := true }

/-- The fragments that are left once those of block `k` have been put together. -/
def Node.fragsLeft (n : Node) (k i : Nat) (frag : List Byte) : FMap (List Byte) :=
  (FMap.put [] n.flash.frags (64 * k + i) frag).filter (fun e => !(decide (64 * k ≤ e.1) && decide (e.1 < 64 * k + 64)))

section Fragment

variable {n : Node} {p : Nat} {h : List Byte} (hlack : n.hasBlock (leAt h 16 2) = false)

include hlack

/-- A fragment of a block that lacks parts still is held. -/
theorem Node.relayFrag_lacks (hpart : ∃ q ∈ n.partsWith (leAt h 12 4) (leAt h 16 2) (byteAt h 18) (slice h 32 (leAt h 24 2)), q = []) :
    n.relayFrag p h = { n with flash := { n.flash with frags := FMap.put [] n.flash.frags (64 * leAt h 16 2 + byteAt h 18) (slice h 32 (leAt h 24 2)) } } := by
  rw [Node.partsWith_eq] at hpart
  unfold Node.relayFrag
  rw [if_neg (by rw [hlack]; simp)]
  dsimp only
  rw [if_pos (isEmpty_any.2 hpart)]

/-- The last fragment of a block that checks good stores it, is acknowledged, and the image is offered on. -/
theorem Node.relayFrag_good (hpart : ∀ q ∈ n.partsWith (leAt h 12 4) (leAt h 16 2) (byteAt h 18) (slice h 32 (leAt h 24 2)), q ≠ [])
    (hlen : (n.partsWith (leAt h 12 4) (leAt h 16 2) (byteAt h 18) (slice h 32 (leAt h 24 2))).flatten.length = blockLen (leAt h 12 4) (leAt h 16 2))
    (hcrc : crc32c (n.partsWith (leAt h 12 4) (leAt h 16 2) (byteAt h 18) (slice h 32 (leAt h 24 2))).flatten = leAt h 20 4) : ∃ fr,
    n.relayFrag p h = (((({ n with flash := { n.flash with frags := fr, xferId := leAt h 4 8, xferSize := leAt h 12 4 } } : Node).storeBlock (leAt h 16 2)
      (n.partsWith (leAt h 12 4) (leAt h 16 2) (byteAt h 18) (slice h 32 (leAt h 24 2))).flatten).taken p).relayAck p (leAt h 4 8) (leAt h 12 4)).offerOn p := by
  refine ⟨n.fragsLeft (leAt h 16 2) (byteAt h 18) (slice h 32 (leAt h 24 2)), ?_⟩
  rw [Node.partsWith_eq] at *
  unfold Node.relayFrag
  rw [if_neg (by rw [hlack]; simp)]
  dsimp only
  rw [if_neg (by rw [isEmpty_any]; rintro ⟨q, hq, he⟩; exact hpart q hq he), if_pos ⟨hlen, hcrc⟩]
  rfl

/-- The last fragment of a block whose CRC is wrong is answered by a NAK, and counted. -/
theorem Node.relayFrag_bad (hpart : ∀ q ∈ n.partsWith (leAt h 12 4) (leAt h 16 2) (byteAt h 18) (slice h 32 (leAt h 24 2)), q ≠ [])
    (hcrc : crc32c (n.partsWith (leAt h 12 4) (leAt h 16 2) (byteAt h 18) (slice h 32 (leAt h 24 2))).flatten ≠ leAt h 20 4) : ∃ fr,
    n.relayFrag p h = ((({ n with flash := { n.flash with frags := fr } } : Node).inc F.UPD_RELAY_STAT_NAKS).pviol 20 p).relayAnswer p 4 (leAt h 4 8)
      (leAt h 12 4) (leAt h 16 2) 1 := by
  refine ⟨n.fragsLeft (leAt h 16 2) (byteAt h 18) (slice h 32 (leAt h 24 2)), ?_⟩
  rw [Node.partsWith_eq] at *
  unfold Node.relayFrag
  rw [if_neg (by rw [hlack]; simp)]
  dsimp only
  rw [if_neg (by rw [isEmpty_any]; rintro ⟨q, hq, he⟩; exact hpart q hq he), if_neg (fun hb => hcrc hb.2)]
  rfl

end Fragment

end Sys2Proof.Machine
end

section
/-! PROOF. Blocks of the chain relay, and O56 (13 R467, R470 to R472). -/

namespace Sys2Proof.Machine

open Sys2Proof

theorem FMap.put_ne_nil {α : Type} [DecidableEq α] (d : α) (m : FMap α) (k : Nat) {x : α} (hx : x ≠ d) : FMap.put d m k x ≠ [] := by
  intro h
  have := FMap.get_put_same d m k x
  rw [h] at this
  exact hx this.symm

theorem leAt_four_lt (l : List Byte) (off : Nat) : leAt l off 4 < 2 ^ 32 := (leAt_lt l off 4).trans_le (by norm_num)

theorem SameLevelInputs.trans {a b c : Node} (h : SameLevelInputs a b) (g : SameLevelInputs b c) : SameLevelInputs a c :=
  ⟨h.mode.trans g.mode, h.failed.trans g.failed, h.loaded.trans g.loaded, h.settings.trans g.settings, h.hold.trans g.hold,
    fun f hf => (h.rd f hf).trans (g.rd f hf)⟩

/-- A partner violation of the relay changes nothing the service level rests on, and stays clear of the flash. -/
theorem Node.pviol_relay (q : Node) (p : Nat) : SameLevelInputs (q.pviol 20 p) q ∧ (q.pviol 20 p).level = q.level ∧ (q.pviol 20 p).flash = q.flash := by
  have hrd := fun (f : Fld) => q.pviol_rd 20 p (f := f)
  have hkeys : ∀ j ∈ levelKeys, j ≠ (F.HLT_PVIOL_COUNT 20).key ∧ j ≠ F.MGT_FAULT_SOURCE.key := by decide
  obtain ⟨_, _, _, hx⟩ := Node.pviol_logs q 20 p
  refine ⟨⟨?_, ?_, ?_, ?_, ?_, fun f hf => hrd f (hkeys _ hf).1 (hkeys _ hf).2⟩, ?_, ?_⟩ <;> rw [hx]

/-- A block that the relay stores, the end it came from noted, keeps what sending and the level rest on. -/
theorem Node.storeBlock_taken (q : Node) (p k : Nat) (x : List Byte) (hq : q.flash.xferSize < 2 ^ 32) : SameLines q ((q.storeBlock k x).taken p) ∧
    ((q.storeBlock k x).taken p).level = q.level ∧ SameLevelInputs ((q.storeBlock k x).taken p) q ∧
    ((q.storeBlock k x).taken p).flash.xfer = FMap.put [] q.flash.xfer k x ∧ ((q.storeBlock k x).taken p).flash.xferSize < 2 ^ 32 ∧
    (((q.storeBlock k x).taken p).relay p).got = true := by
  obtain ⟨m, v, hw, hst, -⟩ := q.storeBlock_shape k x
  have hlines : SameLines q (q.blockIn k x) := ⟨rfl, rfl, rfl, rfl, rfl, fun _ _ => rfl⟩
  have hin : SameLevelInputs (q.blockIn k x) q := ⟨rfl, rfl, rfl, rfl, rfl, fun _ _ => rfl⟩
  have hwr : SameLines m (m.wr F.UPD_STATUS_XFER v) := .wr m v (by decide)
  have hm := hw.sameLevelInputs
  have hkeys : ∀ j ∈ levelKeys, j ≠ F.UPD_STATUS_XFER.key := by decide
  have hflash : m.flash.xfer = FMap.put [] q.flash.xfer k x ∧ m.flash.xferSize = if k = 0 then imgSize x else q.flash.xferSize := by
    obtain ⟨_, _, _, _, _, _, _, _, he⟩ := hw.eq
    rw [he]
    exact ⟨rfl, rfl⟩
  have hlevel : m.level = q.level := by
    obtain ⟨_, _, _, _, _, _, _, _, he⟩ := hw.eq
    rw [he]
    rfl
  rw [hst, Node.taken]
  refine ⟨((hlines.trans (.wears hw)).trans hwr).trans ⟨rfl, rfl, rfl, rfl, rfl, fun _ _ => rfl⟩, hlevel, ?_, hflash.1, ?_, by rw [Node.relay_setRelay]⟩
  · refine ⟨hm.mode.trans hin.mode, hm.failed.trans hin.failed, hm.loaded.trans hin.loaded, hm.settings.trans hin.settings, hm.hold.trans hin.hold, fun f hf => ?_⟩
    have : ((m.wr F.UPD_STATUS_XFER v).setRelay p { (m.wr F.UPD_STATUS_XFER v).relay p with got := true }).rd f = m.rd f := Node.rd_wr_ne m v (hkeys _ hf)
    rw [this, hm.rd f hf, hin.rd f hf]
  · show m.flash.xferSize < 2 ^ 32
    rw [hflash.2]
    split
    · exact leAt_four_lt x _
    · exact hq

section Relay

variable {s : State} {p : Nat} {b : List Byte} (hfit : s.node.fits) (hp : p < 4) (h : Wired s.node p b) (hok : relayOk (b.drop 14) = true)
  (hsend : MaySend s.node p) (hon : s.node.on F.UPD_CTRL_RELAY_EN = true) (hact : s.node.mode = .active)
  (hid : s.node.flash.xfer = [] ∨ s.node.flash.xferId = leAt b 18 8) (hty : byteAt b 17 = 2) (hlack : s.node.hasBlock (leAt b 30 2) = false)

include hp h hok hon hact hid hty in
theorem relay_taken : exec (.relayBlock p b) s = s.to ((s.node.counted p b).relayFrag p (b.drop 14)) := by
  refine congrArg s.to ((h.rx hp 2 hok hty).trans ?_)
  rw [if_pos (by decide), h.accepted hon hact hid]
  exact if_neg (by decide)

include hfit hp h hok hsend hon hact hid hty hlack

theorem relay_fragment :
    ((∃ q ∈ s.node.partsWith (leAt b 26 4) (leAt b 30 2) (byteAt b 32) (slice b 46 (leAt b 38 2)), q = []) →
      Settles (.relayBlock p b) s { s.node.counted p b with
        flash := { s.node.flash with frags := FMap.put [] s.node.flash.frags (64 * leAt b 30 2 + byteAt b 32) (slice b 46 (leAt b 38 2)) } }) ∧
    ((∀ q ∈ s.node.partsWith (leAt b 26 4) (leAt b 30 2) (byteAt b 32) (slice b 46 (leAt b 38 2)), q ≠ []) →
      (s.node.partsWith (leAt b 26 4) (leAt b 30 2) (byteAt b 32) (slice b 46 (leAt b 38 2))).flatten.length = blockLen (leAt b 26 4) (leAt b 30 2) →
      (s.node.partsWith (leAt b 26 4) (leAt b 30 2) (byteAt b 32) (slice b 46 (leAt b 38 2))).flatten ≠ [] →
      crc32c (s.node.partsWith (leAt b 26 4) (leAt b 30 2) (byteAt b 32) (slice b 46 (leAt b 38 2))).flatten = leAt b 34 4 →
      Yields (.relayBlock p b) s (fun t => FMap.get [] t.flash.xfer (leAt b 30 2) =
          (s.node.partsWith (leAt b 26 4) (leAt b 30 2) (byteAt b 32) (slice b 46 (leAt b 38 2))).flatten ∧ (t.relay p).got = true ∧
        ∃ j, Answers t p 3 (leAt b 18 8) j 0 ∧ (j = 0xFFFF ∨ (FMap.get [] t.flash.xfer j = [] ∧ ∀ q, q < j → FMap.get [] t.flash.xfer q ≠ [])))) ∧
    ((∀ q ∈ s.node.partsWith (leAt b 26 4) (leAt b 30 2) (byteAt b 32) (slice b 46 (leAt b 38 2)), q ≠ []) →
      crc32c (s.node.partsWith (leAt b 26 4) (leAt b 30 2) (byteAt b 32) (slice b 46 (leAt b 38 2))).flatten ≠ leAt b 34 4 →
      Yields (.relayBlock p b) s (fun t => Answers t p 4 (leAt b 18 8) (leAt b 30 2) 1 ∧ t.flash.xfer = s.node.flash.xfer ∧
        t.rd F.UPD_RELAY_STAT_NAKS = min (s.node.rd F.UPD_RELAY_STAT_NAKS + 1) 255)) := by
  have hrun := relay_taken hp h hok hon hact hid hty
  have hcount := h.good.2
  have hflash := hcount.flash
  have hlines := h.lines
  have hin := hcount.sameLevelInputs
  have hlevel := hcount.level
  have hnaks : (s.node.counted p b).rd F.UPD_RELAY_STAT_NAKS = s.node.rd F.UPD_RELAY_STAT_NAKS := hcount.rd _ fun hk => by
    have := hk.bounds
    have hkey : F.UPD_RELAY_STAT_NAKS.key < 32 * 0x10300000 := by decide
    omega
  have hlack' : (s.node.counted p b).hasBlock (leAt (b.drop 14) 16 2) = false := by rw [leAt_drop, Node.hasBlock, hflash, ← Node.hasBlock, hlack]
  have hparts : ∀ size k i x, (s.node.counted p b).partsWith size k i x = s.node.partsWith size k i x := fun size k i x => by
    rw [Node.partsWith, hflash, Node.partsWith]
  have h1 := Node.relayFrag_lacks (p := p) hlack'
  have h2 := Node.relayFrag_good (p := p) hlack'
  have h3 := Node.relayFrag_bad (p := p) hlack'
  simp only [leAt_drop, byteAt_drop, slice_drop, Nat.reduceAdd, hparts] at h1 h2 h3
  generalize s.node.counted p b = n at hrun hflash hlines hin hlevel hnaks h1 h2 h3 ⊢
  generalize s.node.partsWith (leAt b 26 4) (leAt b 30 2) (byteAt b 32) (slice b 46 (leAt b 38 2)) = parts at h1 h2 h3 ⊢
  refine ⟨fun hq => ?_, fun hq hlen hany hcrc => ?_, fun hq hcrc => ?_⟩
  · rw [h1 hq, hflash] at hrun
    exact Settles.of_to hrun
  · obtain ⟨fr, hfr⟩ := h2 hq hlen hcrc
    rw [hfr] at hrun
    obtain ⟨q, he⟩ : ∃ q : Node, q = { n with flash := { n.flash with frags := fr, xferId := leAt b 18 8, xferSize := leAt b 26 4 } } := ⟨_, rfl⟩
    rw [← he] at hrun
    have hql : SameLines n q := he ▸ ⟨rfl, rfl, rfl, rfl, rfl, fun _ _ => rfl⟩
    have hqi : SameLevelInputs q n := he ▸ ⟨rfl, rfl, rfl, rfl, rfl, fun _ _ => rfl⟩
    have hqlev : q.level = n.level := he ▸ rfl
    obtain ⟨hl, hlev, hi, hx, hsz, hgot⟩ := q.storeBlock_taken p (leAt b 30 2) parts.flatten (by rw [he]; exact leAt_four_lt b 26)
    have hl' := hql.trans hl
    have hi' : SameLevelInputs ((q.storeBlock (leAt b 30 2) parts.flatten).taken p) s.node := (hi.trans hqi).trans hin
    generalize (q.storeBlock (leAt b 30 2) parts.flatten).taken p = m at hrun hlev hi' hx hsz hgot hl'
    have hrel : Relays m ((m.relayAck p (leAt b 18 8) (leAt b 26 4)).offerOn p) := Relays.trans (.relaySend m p _) (.offerEnd _ _)
    have hon : Onward m ((m.relayAck p (leAt b 18 8) (leAt b 26 4)).offerOn p) := Onward.trans (.relaySend m p _) (.offerEnd _ _)
    have hxm : m.flash.xfer ≠ [] := by
      rw [hx]
      exact FMap.put_ne_nil _ _ _ hany
    obtain ⟨hno, hcase⟩ := Node.lackNo_cases hxm hsz
    have hans := (((hsend.lines hp hlines).lines hp hl').answer 3 (leAt b 18 8) (leAt b 26 4) m.lackNo 0).onward (Onward.offerEnd _ (1 - endOf p))
    refine Yields.of_relayed hrun (hlev.trans (hqlev.trans hlevel)) hi' hrel hfit fun t ht => ?_
    have htx : t.flash.xfer = m.flash.xfer := by
      obtain ⟨rl, hrl⟩ := hrel.flash
      rw [ht.flash, hrl]
    refine ⟨?_, ?_, m.lackNo, ?_, ?_⟩
    · rw [htx, hx, FMap.get_put_same]
    · rw [Node.relay, ht.flash, ← Node.relay, hon.got, hgot]
    · exact hans.shown ht (by decide) ((leAt_lt b 18 8).trans_le (by norm_num)) hno (by decide)
    · rw [htx]
      exact hcase
  · obtain ⟨fr, hfr⟩ := h3 hq hcrc
    rw [hfr] at hrun
    obtain ⟨q, he⟩ : ∃ q : Node, q = ({ n with flash := { n.flash with frags := fr } } : Node).inc F.UPD_RELAY_STAT_NAKS := ⟨_, rfl⟩
    rw [← he] at hrun
    have hql : SameLines n q := by
      have hleft : SameLines n { n with flash := { n.flash with frags := fr } } := ⟨rfl, rfl, rfl, rfl, rfl, fun _ _ => rfl⟩
      rw [he, Node.inc]
      exact hleft.trans (.wr _ _ (by decide))
    have hqi : SameLevelInputs q n := by
      have hkeys : ∀ j ∈ levelKeys, j ≠ F.UPD_RELAY_STAT_NAKS.key := by decide
      rw [he]
      exact ⟨rfl, rfl, rfl, rfl, rfl, fun f hf => Node.rd_inc_ne _ (hkeys _ hf)⟩
    have hcounted : q.rd F.UPD_RELAY_STAT_NAKS = min (s.node.rd F.UPD_RELAY_STAT_NAKS + 1) 255 := by
      have hinc : ∀ m : Node, (m.inc F.UPD_RELAY_STAT_NAKS).rd F.UPD_RELAY_STAT_NAKS = min (m.rd F.UPD_RELAY_STAT_NAKS + 1) 255 := fun m => by
        rw [Node.inc_eight _ rfl, Node.rd_wr_same]
        exact Nat.mod_eq_of_lt (Nat.lt_succ_of_le (Nat.min_le_right _ _))
      rw [he, hinc, ← hnaks]
      rfl
    have hpv := SameLines.pviol q (.inr rfl : (20 : Nat) = 19 ∨ 20 = 20) p
    obtain ⟨hpi, hpl, hpf⟩ := q.pviol_relay p
    have hprd := q.pviol_rd 20 p (f := F.UPD_RELAY_STAT_NAKS) (by decide) (by decide)
    have hqf : q.flash.xfer = s.node.flash.xfer := by rw [he, ← hflash]; rfl
    have hans := ((hsend.lines hp hlines).lines hp (hql.trans hpv)).answer 4 (leAt b 18 8) (leAt b 26 4) (leAt b 30 2) 1
    refine Yields.of_relayed hrun (hpl.trans ((he ▸ rfl : q.level = n.level).trans hlevel)) ((hpi.trans hqi).trans hin) (.relaySend _ p _) hfit fun t ht => ⟨?_, ?_, ?_⟩
    · exact hans.shown ht (by decide) ((leAt_lt b 18 8).trans_le (by norm_num)) ((leAt_lt b 30 2).trans_le (by norm_num)) (by decide)
    · rw [ht.flash, Node.relayAnswer_flash, hpf, hqf]
    · rw [ht.rd _ (by decide), Node.relayAnswer, (Relays.relaySend _ p _).rd _ (by decide), hprd, hcounted]

end Relay


/-- Settles O56: a frame that is taken whole is what the update unit makes of it (`Wired.rx`); what is sent waits on its port to the end (`Onward`). -/
theorem chainRelay : Obligations.ChainRelay := by
  intro s p b hfit hp n f r id size k i got wire arrives answers
  have hwired : wire → Wired s.node p b := fun ⟨h1, h2, h3, h4, h5, h6⟩ => ⟨h1, h2, h3, h4, h5, h6⟩
  refine ⟨relayOffer_timer hfit, fun hw hok => relay_malformed hp (hwired hw) hok, fun htx hnat => ⟨fun ty c hc ⟨hw, hok, hty⟩ => ?_,
    fun hon hact hid => ⟨fun ⟨hw, hok, hty⟩ => ?_, fun ⟨hw, hok, hty⟩ hlack => ?_⟩, fun hmay hid ⟨hw, hok, hty⟩ => ?_, fun hid ⟨hw, hok, hty⟩ => ?_⟩⟩
  · exact relay_refused hfit hp (hwired hw) ⟨htx, hnat, (hwired hw).barred⟩ ty c hc hok hty
  · exact relay_offered hfit hp (hwired hw) hok ⟨htx, hnat, (hwired hw).barred⟩ hon hact hid hty
  · exact relay_fragment hfit hp (hwired hw) hok ⟨htx, hnat, (hwired hw).barred⟩ hon hact hid hty hlack
  · exact relay_acked hp (hwired hw) hok hfit ⟨htx, hnat, (hwired hw).barred⟩ hmay hid hty
  · exact relay_naked hp (hwired hw) hok hid hty

end Sys2Proof.Machine
end

section
/-! PROOF. O50 and O51 take the receive time of a PTP message from the registers before the MAC counts it. A rate out of the range of its field makes the receive constant a HALF word of the port, which the count of the message itself changes (07 R252; 09 R317). -/

namespace Sys2Proof.Machine

open Sys2Proof

/-! ### A message that the MAC counts (07 R233 to R255) -/

theorem Node.ptpHeard_length (n : Node) : 60 ≤ n.ptpHeard.length := by
  have hfit : ∀ (k : Nat) (l : List Byte), (fit k l).length = k := fun k l => by simp [fit, zeros]; omega
  simp only [Node.ptpHeard, List.length_append, beBytes_length, hfit]
  omega

/-- The node once the MAC has looked at the length of the message. -/
def Node.ptpSized (n : Node) (p : Nat) : Node :=
  ((({ n with freeN := n.freeN + 1 } : Node).cntAdd p 29 (n.ptpHeard.length + 4)).cntAdd p 26 0).cntAdd p 25 0

/-- The MAC takes a PTP message: good, whole or cut, and counted. -/
theorem Node.ptpMac_eq (n : Node) (p : Nat) : ∃ b o, n.ptpMac p = (.good b o, (n.ptpSized p).rxCount p (n.ptpHeard.length + 4) b o) := by
  have hlen := n.ptpHeard_length
  unfold Node.ptpMac Node.rxMac
  simp only [Bool.false_eq_true, if_false, Bool.not_true, if_neg (show ¬ n.ptpHeard.length + 4 < 64 by omega)]
  exact ⟨_, _, rfl⟩

theorem Node.ptpMac_counts (n : Node) (p : Nat) : Counts p MacIndex { n with freeN := n.freeN + 1 } (n.ptpMac p).2 := by
  obtain ⟨b, o, h⟩ := n.ptpMac_eq p
  rw [h]
  have hadd : ∀ (m : Node) (i k : Nat), MacIndex i → Counts p MacIndex m (m.cntAdd p i k) := fun m i k hi => .cntAdd m k hi
  exact (((hadd _ 29 _ (by unfold MacIndex; omega)).trans (hadd _ 26 _ (by unfold MacIndex; omega))).trans (hadd _ 25 _ (by unfold MacIndex; omega))).trans
    (Node.rxCount_counts ..)

/-- A HALF mark that is set stays set while the MAC counts. -/
theorem Node.cntAdd_keepsHalf {n : Node} {p j : Nat} (i k : Nat) (hj : j < 32) (h : bitOf (n.rd (F.PRT_HALF_LO_HALF p)) j = true) :
    bitOf ((n.cntAdd p i k).rd (F.PRT_HALF_LO_HALF p)) j = true := by
  have hhi : (F.PRT_HALF_LO_HALF p).key ≠ (F.PRT_HALF_HI_HALF p).key := by
    simp only [F.PRT_HALF_LO_HALF, F.PRT_HALF_HI_HALF]
    omega
  unfold Node.cntAdd
  dsimp only
  split
  · exact h
  · split
    · exact h
    · split
      · rw [Node.rd_wr_same]
        refine (bitOf_mod (k := 32) hj).trans ?_
        rw [bitOf_setBit]
        split
        · rfl
        · exact h
      · rw [Node.rd_wr_ne _ _ hhi]
        exact h

/-- A counter that passes half of its range sets its mark. -/
theorem Node.cntAdd_marks {n : Node} {p i : Nat} (hi : i < 32) (h : FMap.get 0 n.cnt (p * 64 + i) = 2 ^ 39 - 1) :
    bitOf ((n.cntAdd p i 1).rd (F.PRT_HALF_LO_HALF p)) i = true := by
  have hmark := n.cntAdd_half p i 1 (by omega) (by decide) (by rw [h]; decide)
  rwa [if_pos hi, Nat.mod_eq_of_lt hi] at hmark

/-- The message that brings the count of frames to half of its range is marked by the MAC itself. -/
theorem Node.ptpMac_marks {n : Node} {p : Nat} (h : FMap.get 0 n.cnt (p * 64 + 1) = 2 ^ 39 - 1) :
    bitOf ((n.ptpMac p).2.rd (F.PRT_HALF_LO_HALF p)) 1 = true := by
  obtain ⟨b, o, he⟩ := n.ptpMac_eq p
  have hsized : FMap.get 0 ((n.ptpSized p).cntAdd p 0 (n.ptpHeard.length + 4)).cnt (p * 64 + 1) = 2 ^ 39 - 1 := by
    unfold Node.ptpSized
    rw [Node.cntAdd_cnt_ne _ _ _ _ (by omega), Node.cntAdd_cnt_ne _ _ _ _ (by omega), Node.cntAdd_cnt_ne _ _ _ _ (by omega),
      Node.cntAdd_cnt_ne _ _ _ _ (by omega)]
    exact h
  rw [he]
  have hkeeps : ∀ {m : Node} (i k : Nat), bitOf (m.rd (F.PRT_HALF_LO_HALF p)) 1 = true → bitOf ((m.cntAdd p i k).rd (F.PRT_HALF_LO_HALF p)) 1 = true :=
    fun i k => Node.cntAdd_keepsHalf i k (by decide)
  exact hkeeps _ _ (hkeeps _ _ (hkeeps _ _ (hkeeps _ _ (hkeeps _ _ (Node.cntAdd_marks (by decide) hsized)))))

/-! ### Two statements refuted -/

/-- An ACTIVE node at L2 whose port 4 is the PTP slave port, its rate listed as 40763h, its count of frames received one short of half of its range, and its own frames held back by low-power idle. -/
def skewed : Node :=
  { inService with
    regs := ((F.PRT_STATUS_RATE 4).key, 0x40763) ::
      (inService.wrs [(F.PRT_STATUS_LINK 4, 1), (F.TIM_PORT_ROLE 4, 1), (F.PRT_STATUS_LPI_TX 4, 1), (F.TIM_STATUS_PARENT, 4)]).regs
    level := 2, loaded := true, clock := { now := 65536 }, cnt := [(257, 2 ^ 39 - 1)], settings := [(1, zeros 16), (2, zeros 16)] }

/-- The node once a message has come to that port. -/
def skewedHeard : Node := (skewed.ptpMac 4).2

theorem skewedHeard_rd {f : Fld} (h : f.key % 32 ≠ 0 ∨ f.key < 32 * 0x10300000) : skewedHeard.rd f = skewed.rd f :=
  (skewed.ptpMac_counts 4).rd f fun hk => by
    have := hk.bounds
    omega

theorem skewedHeard_kept : skewedHeard.mode = .active ∧ skewedHeard.level = 2 ∧ skewedHeard.pair = {} ∧ skewedHeard.clock = { now := 65536 } ∧
    skewedHeard.ports = [] := by
  obtain ⟨_, _, _, h⟩ := (skewed.ptpMac_counts 4).eq
  rw [skewedHeard, h]
  exact ⟨rfl, rfl, rfl, rfl, rfl⟩

/-- The count of the message changes the receive constant. -/
theorem skewedHeard_rxTime : skewedHeard.rxTime 4 ≠ skewed.rxTime 4 := by
  have hmark : bitOf (skewedHeard.rd (F.PRT_HALF_LO_HALF 4)) 1 = true := Node.ptpMac_marks (by decide)
  have hrate : skewedHeard.rd (F.PRT_STATUS_RATE 4) = 0x40763 := (skewedHeard_rd (by decide)).trans (by decide)
  have hfield : F.TIM_ASYM_RX_CONST 4 (0x40763 - 1) = F.PRT_HALF_LO_HALF 4 := rfl
  have hbefore : skewed.rxTime 4 = 65536 := by decide
  obtain ⟨-, -, -, hclock, -⟩ := skewedHeard_kept
  rw [hbefore, Node.rxTime, if_pos (by decide), hrate, hfield, Node.crossing, hclock]
  have hne : toSigned 32 (skewedHeard.rd (F.PRT_HALF_LO_HALF 4)) ≠ 0 := fun h0 => by
    have hmod : skewedHeard.rd (F.PRT_HALF_LO_HALF 4) % 2 ^ 32 = 0 := by
      unfold toSigned at h0
      dsimp only at h0
      split at h0 <;> omega
    rw [← bitOf_mod (k := 32) (by decide), hmod] at hmark
    exact absurd hmark (by decide)
  generalize toSigned 32 (skewedHeard.rd (F.PRT_HALF_LO_HALF 4)) = v at hne
  simp only [nsU]
  omega

theorem skewedHeard_ptpOn : skewedHeard.ptpOn 4 = true ∧ skewedHeard.asPort 4 = true := by
  obtain ⟨hmode, hlevel, hpair, -, -⟩ := skewedHeard_kept
  have hrd : ∀ f ∈ [F.PWR_ISLANDS_DATA, F.PAIR_STATUS_CLAIM_HELD, F.PRT_STATUS_LINK 4, F.TOP_INAUG_BARRED, F.TIM_PORT_ROLE 4], skewedHeard.rd f = skewed.rd f :=
    fun f hf => skewedHeard_rd (by revert f; decide)
  have hon : skewedHeard.ptpOn 4 = true := by
    simp only [Node.ptpOn, Node.serves, Node.canTx, Node.linkUp, Node.joined, Node.barred, Node.dataOn, Node.on, Node.forwards, hmode, hlevel, hpair,
      hrd F.PWR_ISLANDS_DATA (by decide), hrd F.PAIR_STATUS_CLAIM_HELD (by decide), hrd (F.PRT_STATUS_LINK 4) (by decide), hrd (F.TIM_PORT_ROLE 4) (by decide)]
    decide
  refine ⟨hon, ?_⟩
  rw [Node.asPort, hon, hrd (F.TIM_PORT_ROLE 4) (by decide)]
  decide

/-- A message that comes to the port reaches the engine. -/
theorem skewed_row (rx : Node → Node) : skewed.ptpRow 4 rx = rx skewedHeard := by
  obtain ⟨b, o, h⟩ := skewed.ptpMac_eq 4
  have hheard : skewedHeard = (skewed.ptpSized 4).rxCount 4 (skewed.ptpHeard.length + 4) b o := by rw [skewedHeard, h]
  unfold Node.ptpRow
  rw [if_neg (by decide), h]
  dsimp only
  rw [← hheard, if_neg (fun hp => absurd hp.1 (by decide)), if_neg]
  rw [Node.barred]
  decide

theorem skewed_fits : skewed.fits := by
  unfold Node.fits
  decide

/-- Counting a message bears on no level. -/
theorem skewedHeard_allowed : skewedHeard.allowed = 3 :=
  ((skewed.ptpMac_counts 4).sameLevelInputs.allowed).trans (by decide)

/-- Two states that no node follows: the command that leaves the one does not leave the other. -/
theorem not_settles_apart {c : Instr} {s : State} {m m' : Node} (he : exec c s = s.to m) (hm : m.level ≤ m.allowed ∧ s.node.level ≤ m.level)
    (hm' : m'.level ≤ m'.allowed ∧ s.node.level ≤ m'.level) (hne : ∀ t, Follows m t → ¬ Follows m' t) : ¬ Settles c s m' := fun h =>
  hne _ (settle_follows s.node m hm.1 hm.2) (Yields.settled he (h hm'.1 hm'.2))

/-- Refutes O50: a two-step Sync is kept with the receive time that the registers give once the message is counted. -/
theorem not_timeAndSteps : ¬ Obligations.TimeAndSteps := by
  intro h
  obtain ⟨hsync, -⟩ := h { node := skewed } 4 { twoStep := true } (by decide) skewed_fits
  obtain ⟨-, hok⟩ := hsync (by decide)
  obtain ⟨htwo, -⟩ := hok rfl (by decide)
  obtain ⟨hmode, hlevel, -, -, -⟩ := skewedHeard_kept
  have hparent : skewedHeard.ptpParent = 4 := (skewedHeard_rd (by decide)).trans (by decide)
  have hrun : exec (.sync 4 { twoStep := true }) { node := skewed } = State.to { node := skewed }
      (skewedHeard.setPtp 4 { skewedHeard.ptp 4 with syncRx := some (0, skewedHeard.rxTime 4), syncTlv := none }) := by
    refine congrArg (State.to { node := skewed }) ((skewed_row _).trans ?_)
    simp only [Node.syncRx, skewedHeard_ptpOn.1, hparent, Bool.not_true, Bool.false_eq_true, if_false, if_true, ne_eq, not_true]
  have hfit : ∀ x : PtpPort, (skewedHeard.setPtp 4 x).level ≤ (skewedHeard.setPtp 4 x).allowed ∧ skewed.level ≤ (skewedHeard.setPtp 4 x).level := fun x => by
    have hall : (skewedHeard.setPtp 4 x).allowed = 3 := skewedHeard_allowed
    rw [hall, show (skewedHeard.setPtp 4 x).level = 2 from hlevel]
    decide
  refine not_settles_apart hrun (hfit _) (hfit _) (fun t h1 h2 => skewedHeard_rxTime ?_) (htwo rfl)
  have hports := congrArg Clock.ports (h2.clock.symm.trans h1.clock)
  simp only [Node.setPtp] at hports
  have hport := congrArg (FMap.get ({} : PtpPort) · 4) hports
  simp only [FMap.get_put_same] at hport
  have hrx := congrArg PtpPort.syncRx hport
  simpa using hrx.symm

/-- In low-power idle a frame of the node's own waits at the port. -/
theorem skewedHeard_sendPtp (k : Nat) (v : List Int) : (skewedHeard.sendPtp 4 k v).ports = FMap.put {} [] 4 { own := [.ptp k v] } ∧
    (skewedHeard.sendPtp 4 k v).level = 2 ∧ (skewedHeard.sendPtp 4 k v).allowed = 3 := by
  obtain ⟨-, hlevel, hpair, -, hports⟩ := skewedHeard_kept
  have hrd : ∀ f ∈ [F.PWR_ISLANDS_DATA, F.PAIR_STATUS_CLAIM_HELD, F.PRT_STATUS_LINK 4, F.PRT_STATUS_LPI_TX 4], skewedHeard.rd f = skewed.rd f :=
    fun f hf => skewedHeard_rd (by revert f; decide)
  have htx : skewedHeard.canTx 4 = true := by
    simp only [Node.canTx, Node.linkUp, Node.joined, Node.dataOn, Node.on, Node.forwards, hpair,
      hrd F.PWR_ISLANDS_DATA (by decide), hrd F.PAIR_STATUS_CLAIM_HELD (by decide), hrd (F.PRT_STATUS_LINK 4) (by decide)]
    decide
  have hquiet : skewedHeard.quiet 4 = true := by
    rw [Node.quiet, Node.on, hrd (F.PRT_STATUS_LPI_TX 4) (by decide)]
    rfl
  have hport : skewedHeard.port 4 = {} := by rw [Node.port, hports]; rfl
  have hsend : skewedHeard.sendPtp 4 k v = skewedHeard.setPort 4 { own := [.ptp k v] } := by
    rw [Node.sendPtp, Node.ownSend, htx, Node.ownReady, hquiet, hport]
    rfl
  rw [hsend]
  exact ⟨congrArg (fun l : List (Nat × Port) => FMap.put ({} : Port) l 4 { own := [.ptp k v] }) hports, hlevel, skewedHeard_allowed⟩

/-- Refutes O51: the answer to a Pdelay_Req carries the receive time that the registers give once the message is counted. -/
theorem not_ptpPorts : ¬ Obligations.PtpPorts := by
  intro h
  obtain ⟨hports, -⟩ := h { node := skewed } 4 {} (by decide) skewed_fits
  obtain ⟨-, hok, -⟩ := hports (by decide)
  obtain ⟨hreq, -⟩ := hok rfl
  have hrun : exec (.pdelayReq 4 {}) { node := skewed } = State.to { node := skewed }
      (skewedHeard.sendPtp 4 4 [0, skewedHeard.rxTime 4, skewedHeard.txTime 4]) := by
    refine congrArg (State.to { node := skewed }) ((skewed_row _).trans ?_)
    simp only [Node.pdelayReqRx, skewedHeard_ptpOn.2, Bool.not_true, Bool.false_eq_true, if_false]
    rfl
  have hfit : ∀ v : List Int, (skewedHeard.sendPtp 4 4 v).level ≤ (skewedHeard.sendPtp 4 4 v).allowed ∧
      skewed.level ≤ (skewedHeard.sendPtp 4 4 v).level := fun v => by
    obtain ⟨-, hlevel, hall⟩ := skewedHeard_sendPtp 4 v
    rw [hlevel, hall]
    decide
  refine not_settles_apart hrun (hfit _) (hfit _) (fun t h1 h2 => skewedHeard_rxTime ?_) hreq
  have hports := h1.ports.symm.trans h2.ports
  rw [(skewedHeard_sendPtp 4 _).1, (skewedHeard_sendPtp 4 _).1] at hports
  have hport := congrArg (FMap.get ({} : Port) · 4) hports
  simp only [FMap.get_put_same] at hport
  have hown := congrArg Port.own hport
  simp only [List.cons.injEq, OwnFrame.ptp.injEq, true_and, and_true] at hown
  exact Int.ofNat.inj hown.2.1

end Sys2Proof.Machine
end

section
/-! PROOF. O44 takes the receive time of a frame from the registers before the MAC counts it; as in O50 and O51, the count of the frame itself may change the receive constant (07 R252; 09 R317). -/

namespace Sys2Proof.Machine

open Sys2Proof

/-- The node of which a message changes the receive constant, with port 5 up, and a stream that takes every frame of port 4 to port 5. -/
def streaming : Node :=
  { skewed with
    regs := ((F.PRT_STATUS_RATE 4).key, 0x40763) :: (skewed.wr (F.PRT_STATUS_LINK 5) 1).regs.tail
    tabs := [{ num := 0, hashed := true, n := 1, entries := 8, base := 1000 }, { num := 1, n := 8, entries := 1, base := 2000 },
      { num := 5, n := 4, entries := 32 }]
    mem := [(tabAddr 16 + 6, 0x10), (tabAddr 1000, 1), (tabAddr 2000 + 7, 0x80), (tabAddr 2001, 0x20)]
    fab := { skewed.fab with banks := [(0, { free := 9 })] } }

/-- A frame of 60 zero bytes. -/
def plainFrame : WireFrame := { bytes := zeros 60 }

/-- The frame as the statement has it stored: with the receive time of the node before the count. -/
def Node.storedPlain (n : Node) : Node :=
  let u := untag plainFrame.bytes
  let f : Frame := { data := u.body, ingress := 4, stamp := n.stampOf 4 plainFrame.early, tci := u.tci, rseq := u.rseq, ts := n.rxTime 4 }
  ((n.rxMac 4 plainFrame).2.enter f (plainFrame.bytes.length + 4) 0 none).2


theorem streaming_fits : streaming.fits := by
  unfold Node.fits
  decide

/-- The frame is stored with another receive time than the statement gives it. -/
theorem streaming_times : ((streaming.frameRx 4 plainFrame).frame 1).ts = 65534 ∧ (streaming.storedPlain.frame 1).ts = 65536 := by decide +kernel

/-- The frame bears on no level. -/
theorem streaming_levels : (streaming.frameRx 4 plainFrame).level = 2 ∧ (streaming.frameRx 4 plainFrame).allowed = 3 ∧
    streaming.storedPlain.level = 2 ∧ streaming.storedPlain.allowed = 3 := by decide +kernel

/-- Refutes O44: a frame that a stream takes is stored with the receive time that the registers give once the MAC has counted it. -/
theorem not_reception : ¬ Obligations.Reception := by
  intro h
  obtain ⟨hframe, -⟩ := h
  obtain ⟨-, hgood⟩ := hframe { node := streaming } 4 plainFrame (by decide) streaming_fits (by decide) (by decide) rfl rfl rfl (by decide) (by decide)
  obtain ⟨-, -, hclass⟩ := hgood rfl (by decide)
  obtain ⟨-, hstored⟩ := hclass (fun hp => absurd hp (by decide)) (by decide) (by decide) (by decide) (by decide)
  obtain ⟨hlevel, hall, hlevel', hall'⟩ := streaming_levels
  obtain ⟨hts, hts'⟩ := streaming_times
  refine not_settles_apart (m := streaming.frameRx 4 plainFrame) (m' := streaming.storedPlain) rfl ⟨by omega, ?_⟩ ⟨by omega, ?_⟩ (fun t h1 h2 => ?_)
    (hstored 0 (by decide))
  · rw [hlevel]
    decide
  · rw [hlevel']
    decide
  · have hfab : (streaming.frameRx 4 plainFrame).fab = streaming.storedPlain.fab := h1.fab.symm.trans h2.fab
    rw [Node.frame, hfab, ← Node.frame, hts'] at hts
    exact absurd hts (by decide)

end Sys2Proof.Machine
end

section
/-! PROOF. What traffic leaves: frames that are stored, queued, discarded or sent, with their counts and records (06 R189-R229; 08 R275; 11 R382). -/

namespace Sys2Proof.Machine

open Sys2Proof

/-- The keys of what counts traffic: port counters, discards, launch errors, partner violations and the source register of records, datasets and their errors. -/
def TrafficKey (k : Nat) : Prop :=
  PortKey k ∨ (32 * 0x10200200 ≤ k ∧ k < 32 * 0x10200240) ∨ (32 * 0x10100200 ≤ k ∧ k < 32 * 0x10100280) ∨
    (32 * 0x10020100 ≤ k ∧ k < 32 * 0x10020200) ∨ k = F.MGT_FAULT_SOURCE.key ∨ 32 * 0x10604000 ≤ k

theorem not_trafficKey_of_levelKeys : ∀ k ∈ levelKeys, ¬ TrafficKey k := fun k hk ht => by
  have hgap : ∀ k ∈ levelKeys, ¬ (32 * 0x10200200 ≤ k ∧ k < 32 * 0x10200240) ∧ ¬ (32 * 0x10100200 ≤ k ∧ k < 32 * 0x10100280) ∧
      ¬ (32 * 0x10020100 ≤ k ∧ k < 32 * 0x10020200) ∧ k ≠ F.MGT_FAULT_SOURCE.key ∧ k < 32 * 0x10604000 := by decide
  have hport := not_levelKey_of_portKey k hk
  obtain ⟨h1, h2, h3, h4, h5⟩ := hgap k hk
  rcases ht with h | h | h | h | h | h
  · exact hport h
  · exact h1 h
  · exact h2 h
  · exact h3 h
  · exact h4 h
  · omega

/-- A frame that has its cells, to be put to its destinations. -/
def Node.enterStored (n : Node) (f : Frame) (s c : Nat) (launch : Option Nat) (set : List Nat) : FabOut × Node :=
  let fid := n.fab.nextFid
  let n := { n with fab := { n.fab with nextFid := fid + 1 } }
  let n := n.setFrame fid f
  let (q, n) := n.enqueue { fid := fid, stream := s, cls := c, stamp := f.stamp, launch := launch } set
  if q = 0 then (.gone, (n.ctxDiscard s).dropRef fid) else (.stored fid, n.pfcUpd f.ingress)

/-- A frame of a valid stream context, once it is counted there. -/
def Node.enterCounted (n : Node) (f : Frame) (len s : Nat) (launch : Option Nat) : FabOut × Node :=
  match n.destinations f s with
  | (none, n) => (.gone, n.bounce 1)
  | (some set, m) =>
    let c := bitsOf (n.tabW 1 s 0) 62 60
    if m.freeCells = 0 then (.gone, (m.disc 4).ctxDiscard s) else
    let (set, n) := m.admission set c (m.freeCells - 1)
    if set.isEmpty then (.gone, (n.ctxDiscard s).bounce 1) else
    let k := cellsFor f.data.length
    if !n.laterCells c k then (.gone, ((n.disc 4).ctxDiscard s).bounce (n.takenCells c k)) else
    let (ok, n) := n.police s len
    if !ok then (.gone, ((n.disc 2).ctxPoliced s).bounce k) else
    let (ok, n) := n.recover s f.rseq f.ingress
    if !ok then (.gone, (n.ctxDiscard s).bounce k) else
    let (cells, n) := Node.takeCells k n
    n.enterStored { f with cells := cells, refs := 0 } s c launch set

theorem Node.enter_eq (n : Node) (f : Frame) (len s : Nat) (launch : Option Nat) : n.enter f len s launch =
    if !n.ctxValid s then (.invalid, (n.disc 1).bounce 1)
    else ((n.ctxAdd s 3 1).ctxAdd s 4 len).enterCounted
      { f with stream := s, cls := bitsOf (((n.ctxAdd s 3 1).ctxAdd s 4 len).tabW 1 s 0) 62 60 } len s launch := rfl

/-- Records that are staged stay staged. -/
def KeepsRecords (m n : Node) : Prop := ∀ a b c, m.hasRecord a b c → n.hasRecord a b c

/-- `n` is `m` but for traffic: what ports and the fabric hold and count, what goes out, and the records of it. -/
structure Traffic (m n : Node) : Prop where
  eq : ∃ r mem fb p c d q ds l o k, n = { m with
    regs := r, mem := mem, fab := fb, ports := p, cnt := c, delta := d, brg := { m.brg with inRaw := q }, datasets := ds, log := l, out := o, freeN := k }
  rd : ∀ f : Fld, ¬ TrafficKey f.key → n.rd f = m.rd f
  records : KeepsRecords m n
  out : ∃ l, n.out = l ++ m.out

theorem Node.canTx_lt {n : Node} {p : Nat} (h : n.canTx p = true) : p < 20 := by
  simp only [Node.canTx, Bool.and_eq_true, decide_eq_true_eq] at h
  exact h.1.2

namespace Traffic

variable {a b c : Node}

theorem refl (n : Node) : Traffic n n := ⟨⟨_, _, _, _, _, _, _, _, _, _, _, rfl⟩, fun _ _ => rfl, fun _ _ _ h => h, [], rfl⟩

theorem trans (h : Traffic a b) (g : Traffic b c) : Traffic a c := by
  refine ⟨?_, fun f hf => (g.rd f hf).trans (h.rd f hf), fun x y z hx => g.records x y z (h.records x y z hx), ?_⟩
  · obtain ⟨_, _, _, _, _, _, _, _, _, _, _, hb⟩ := h.eq
    obtain ⟨_, _, _, _, _, _, _, _, _, _, _, hc⟩ := g.eq
    rw [hb] at hc
    exact ⟨_, _, _, _, _, _, _, _, _, _, _, hc⟩
  · obtain ⟨_, hb⟩ := h.out
    obtain ⟨_, hc⟩ := g.out
    exact ⟨_, by rw [hc, hb, ← List.append_assoc]⟩

theorem ite {p : Prop} [Decidable p] (hb : Traffic a b) (hc : Traffic a c) : Traffic a (if p then b else c) := by
  split
  · exact hb
  · exact hc

theorem foldl {α : Type} {g : Node → α → Node} (h : ∀ n x, Traffic n (g n x)) (l : List α) (n : Node) : Traffic n (l.foldl g n) := by
  induction l generalizing n with
  | nil => exact refl n
  | cons x l ih => exact (h n x).trans (ih _)

/-- Of a result with a node, the node. -/
theorem snd {α : Type} {x : α × Node} {y : α} (h : x = (y, b)) (hx : Traffic a x.2) : Traffic a b := by
  rw [h] at hx
  exact hx

theorem wr (n : Node) {f : Fld} (v : Nat) (h : TrafficKey f.key) : Traffic n (n.wr f v) :=
  ⟨⟨_, _, _, _, _, _, _, _, _, _, _, rfl⟩, fun _ hg => Node.rd_wr_ne n v fun e => hg (e ▸ h), fun _ _ _ hr => hr, [], rfl⟩

theorem inc (n : Node) {f : Fld} (h : TrafficKey f.key) : Traffic n (n.inc f) := wr n _ h

theorem put (n : Node) {f : Fld} (v : Bool) (h : TrafficKey f.key) : Traffic n (n.put f v) := wr n _ h

theorem emit (n : Node) (o : Output) : Traffic n (n.emit o) :=
  ⟨⟨_, _, _, _, _, _, _, _, _, _, _, rfl⟩, fun _ _ => rfl, fun _ _ _ hr => hr, [o], rfl⟩

theorem setPort (n : Node) (p : Nat) (x : Port) : Traffic n (n.setPort p x) :=
  ⟨⟨_, _, _, _, _, _, _, _, _, _, _, rfl⟩, fun _ _ => rfl, fun _ _ _ hr => hr, [], rfl⟩

theorem mem (n : Node) (x : List Host.Cell) : Traffic n { n with mem := x } :=
  ⟨⟨_, _, _, _, _, _, _, _, _, _, _, rfl⟩, fun _ _ => rfl, fun _ _ _ hr => hr, [], rfl⟩

theorem fab (n : Node) (x : Fab) : Traffic n { n with fab := x } :=
  ⟨⟨_, _, _, _, _, _, _, _, _, _, _, rfl⟩, fun _ _ => rfl, fun _ _ _ hr => hr, [], rfl⟩

theorem free (n : Node) (k : Nat) : Traffic n { n with freeN := k } :=
  ⟨⟨_, _, _, _, _, _, _, _, _, _, _, rfl⟩, fun _ _ => rfl, fun _ _ _ hr => hr, [], rfl⟩

theorem datasets (n : Node) (x : FMap Dataset) : Traffic n { n with datasets := x } :=
  ⟨⟨_, _, _, _, _, _, _, _, _, _, _, rfl⟩, fun _ _ => rfl, fun _ _ _ hr => hr, [], rfl⟩

theorem setFrame (n : Node) (fid : Nat) (f : Frame) : Traffic n (n.setFrame fid f) := fab n _

theorem setBank (n : Node) (k : Nat) (x : Bank) : Traffic n (n.setBank k x) := fab n _

theorem toBridge (n : Node) (p : Nat) (x : List Byte) : Traffic n (n.toBridge p x) :=
  ⟨⟨_, _, _, _, _, _, _, _, _, _, _, rfl⟩, fun _ _ => rfl, fun _ _ _ hr => hr, [], rfl⟩

theorem setEngQueue (n : Node) (t q : Nat) (l : List Copy) : Traffic n (n.setEngQueue t q l) := fab n _

theorem toEgress (n : Node) (p : Nat) (x : Copy) : Traffic n (n.toEgress p x) := fab n _

theorem of_memOnly {m n : Node} (h : MemOnly m n) : Traffic m n := by
  obtain ⟨x, rfl⟩ := h
  exact mem m x

theorem of_tells {m n : Node} (h : Tells m n) (ho : ∃ l, n.out = l ++ m.out) : Traffic m n := by
  have hrd := h.rd
  obtain ⟨_, _, _, _, _, _, rfl⟩ := h.eq
  exact ⟨⟨_, _, _, _, _, _, _, _, _, _, _, rfl⟩, fun f hf => hrd f fun hk => hf (.inl hk), fun _ _ _ hr => hr, ho⟩

theorem fault (n : Node) (x y z : Nat) : Traffic n (n.fault x y z) := by
  have hrd := fun (f : Fld) => n.fault_rd x y z f
  have hrec := fun i j k => Node.hasRecord_fault (n := n) (a := i) (b := j) (c := k) x y z
  have hmsi : ∀ (m : Node) (v : Nat), ∃ l, (m.msi v).out = l ++ m.out := fun m v => by
    unfold Node.msi
    split
    · exact ⟨[_], rfl⟩
    · exact ⟨[], rfl⟩
  have hout : ∃ l, (n.fault x y z).out = l ++ n.out := by
    unfold Node.fault
    dsimp only
    split
    · exact ⟨[], rfl⟩
    · split
      · exact ⟨[], rfl⟩
      · exact hmsi _ _
  obtain ⟨r, l, o, h⟩ := Logs.fault n x y z
  exact ⟨⟨_, _, _, _, _, _, _, _, _, _, _, h⟩, fun f hf => hrd f fun hk => hf (.inr (.inr (.inr (.inr (.inl hk))))), hrec, hout⟩

theorem pviol (n : Node) {k : Nat} (hk : k < 64) (x : Nat) : Traffic n (n.pviol k x) := by
  have hkey : TrafficKey (F.HLT_PVIOL_COUNT k).key := .inr (.inr (.inr (.inl (by simp only [F.HLT_PVIOL_COUNT]; omega))))
  unfold Node.pviol
  exact ite ((inc n hkey).trans (fault _ _ _ _)) (inc n hkey)

theorem disc (n : Node) {k : Nat} (hk : k < 16) : Traffic n (n.disc k) := inc n (.inr (.inl (by simp only [F.FAB_DISC_COUNT]; omega)))

theorem tabHw (n : Node) (t i j v : Nat) : Traffic n (n.tabHw t i j v) := of_memOnly (.tabHw n t i j v)

theorem ctxAdd (n : Node) (s j k : Nat) : Traffic n (n.ctxAdd s j k) := of_memOnly (.ctxAdd n s j k)

theorem ctxDiscard (n : Node) (s : Nat) : Traffic n (n.ctxDiscard s) := of_memOnly (.ctxDiscard n s)

theorem ctxPoliced (n : Node) (s : Nat) : Traffic n (n.ctxPoliced s) := tabHw n _ _ _ _

/-! ### Cells and flow control -/

theorem returnCells (n : Node) (l : List Nat) : Traffic n (n.returnCells l) := by
  refine foldl (fun m k => ?_) l n
  unfold Node.returnCell
  exact ite (setBank m _ _) (ite (fab m _) (refl m))

theorem takeCells : ∀ (k : Nat) (n : Node), Traffic n (Node.takeCells k n).2
  | 0, n => refl n
  | k + 1, n => by
    unfold Node.takeCells
    cases h : n.takeCell with
    | none => exact refl n
    | some r =>
      have hone : Traffic n r.2 := by
        unfold Node.takeCell at h
        dsimp only at h
        split at h
        · cases h
        · rw [← Option.some.inj h]
          exact (free n _).trans (setBank _ _ _)
      exact hone.trans (takeCells k r.2)

theorem bounce (n : Node) (k : Nat) : Traffic n (n.bounce k) := (takeCells k n).trans (returnCells _ _)

theorem cntAdd (n : Node) {p : Nat} (hp : p < 20) (i k : Nat) : Traffic n (n.cntAdd p i k) :=
  of_tells (.cntAdd n hp i k) ⟨[], by rw [(n.cntAdd_eq p i k).choose_spec.choose_spec.choose_spec]; rfl⟩

theorem txCount (n : Node) {p : Nat} (hp : p < 20) (x : List Byte) : Traffic n (n.txCount p x) :=
  (((((cntAdd n hp _ _).trans (cntAdd _ hp _ _)).trans (cntAdd _ hp _ _)).trans (cntAdd _ hp _ _)).trans (cntAdd _ hp _ _)).trans (cntAdd _ hp _ _)

theorem sendPfc (n : Node) {p : Nat} (hp : p < 20) (c t : Nat) : Traffic n (n.sendPfc p c t) :=
  ite (((emit n _).trans (txCount _ hp _)).trans (cntAdd _ hp _ _)) (refl n)

theorem pfcUpd (n : Node) (p : Nat) : Traffic n (n.pfcUpd p) := by
  unfold Node.pfcUpd
  split
  · rename_i hp
    refine foldl (fun m c => ?_) _ n
    unfold Node.pfcClass
    refine ite (refl m) ?_
    split
    · exact refl m
    · exact (sendPfc m hp _ _).trans (setPort _ _ _)
  · exact refl n

theorem msi (n : Node) (v : Nat) : Traffic n (n.msi v) := by
  unfold Node.msi
  exact ite (emit n _) (refl n)

theorem frameDone (n : Node) (fid : Nat) : Traffic n (n.frameDone fid) := by
  unfold Node.frameDone
  split
  · exact refl n
  · unfold Node.descDone
    exact (fab n _).trans (ite ((((emit _ _).trans (emit _ _)).trans (ite (setPort _ _ _) (refl _))).trans (msi _ _))
      (((emit _ _).trans (emit _ _)).trans (ite (setPort _ _ _) (refl _))))

theorem dropRef (n : Node) (fid : Nat) : Traffic n (n.dropRef fid) := by
  unfold Node.dropRef
  exact ite ((((setFrame n _ _).trans (returnCells _ _)).trans (pfcUpd _ _)).trans (frameDone _ _)) (setFrame n _ _)

/-! ### A frame through the fabric -/

theorem dsKey {k : Nat} (h : 32 * 0x10604000 ≤ k) : TrafficKey k := .inr (.inr (.inr (.inr (.inr h))))

theorem pdFail (n : Node) (r : PdResult) (i : Nat) : Traffic n (n.pdFail r i) := by
  unfold Node.pdFail
  refine trans ?_ (pviol _ (by decide) i)
  split
  · exact refl n
  · exact inc n (dsKey (by simp only [F.BRG_PD_ERR_COUNT]; omega))
  · exact inc n (dsKey (by simp only [F.BRG_DS_ERR_LENGTH]; omega))
  · exact inc n (dsKey (by simp only [F.BRG_DS_ERR_SRC]; omega))
  · exact inc n (dsKey (by simp only [F.BRG_DS_ERR_TOPO]; omega))
  · exact inc n (dsKey (by simp only [F.BRG_DS_ERR_SEQ]; omega))

theorem pdAccept (n : Node) (d q s : Nat) : Traffic n (n.pdAccept d q s) :=
  (((wr n _ (dsKey (by simp only [F.BRG_DS_SEQ_SEQ]; omega))).trans (put _ _ (dsKey (by simp only [F.BRG_DS_STAT_TIMED_OUT]; omega)))).trans
    (inc _ (dsKey (by simp only [F.BRG_DS_COUNT_COUNT]; omega)))).trans (datasets _ _)

theorem putCopy (n : Node) {p : Nat} (c : Copy) : Traffic n (n.putCopy p c).2 := by
  have hlaunch : ∀ {k : Nat}, p < 20 → k < 32 → TrafficKey (32 * (0x10100200 + 0x4 * p) + k) := fun {k} hp hk =>
    .inr (.inr (.inl (by omega)))
  unfold Node.putCopy
  dsimp only
  split
  · split
    · exact disc n (by decide)
    · split
      · split
        · exact (pdAccept n _ _ _).trans (setEngQueue _ _ _ _)
        · exact pdFail n _ _
      · exact setEngQueue n _ _ _
  · split
    · exact fab n _
    · split
      · split
        · rename_i hp
          split
          · exact inc n (hlaunch hp (by decide))
          · split
            · exact inc n (hlaunch hp (by decide))
            · exact fab n _
        · exact toEgress n _ _
      · exact toEgress n _ _

theorem putCopies (c : Copy) (set : List Nat) : ∀ x : Nat × Node,
    Traffic x.2 (set.foldl (fun (a : Nat × Node) p =>
      let (ok, m) := a.2.putCopy p c
      if ok then (a.1 + 1, m) else (a.1, m)) x).2 := by
  induction set with
  | nil => exact fun x => refl x.2
  | cons p set ih =>
    intro x
    rw [List.foldl_cons]
    refine trans ?_ (ih _)
    dsimp only
    split <;> exact putCopy x.2 c

theorem enqueue (n : Node) (c : Copy) (set : List Nat) : Traffic n (n.enqueue c set).2 := by
  have hcopies := fun d => putCopies d set (0, n)
  unfold Node.enqueue
  dsimp only at hcopies ⊢
  generalize (if (n.ract c.stream == 1) = true then { c with gseq := some (n.tabW 1 c.stream 2 % 65536) } else c) = x
  have hx := hcopies x
  generalize List.foldl _ (0, n) set = y at hx ⊢
  split
  · exact hx
  · refine trans ?_ (setFrame _ _ _)
    refine trans ?_ (ite (tabHw _ _ _ _ _) (refl _))
    exact (hx.trans (ite (ctxDiscard _ _) (refl _))).trans (ctxAdd _ _ _ _)

theorem destinations (n : Node) (f : Frame) (s : Nat) : Traffic n (n.destinations f s).2 := by
  have hd : ∀ {k : Nat} (m : Node), k < 16 → Traffic m ((m.disc k).ctxDiscard s) := fun m hk => (disc m hk).trans (ctxDiscard _ s)
  unfold Node.destinations
  dsimp only
  split
  · exact hd n (by decide)
  · split
    · exact hd n (by decide)
    · generalize (decide (22 ∈ n.destSet f s ((n.kindSet f s).getD [])) && !n.engTarget (bitsOf (n.tabW 1 s 0) 51 47)) = noeng
      have hn : Traffic n (if noeng = true then n.disc 13 else n) := ite (disc n (by decide)) (refl n)
      generalize (if noeng = true then n.disc 13 else n) = m at hn ⊢
      refine hn.trans ?_
      generalize (if noeng = true then List.filter (fun p => p != 22) (n.destSet f s ((n.kindSet f s).getD [])) else
        n.destSet f s ((n.kindSet f s).getD [])) = set
      generalize (if f.oversize = true then _ else set) = left
      split
      · exact hd (k := 11) m (by decide)
      · split
        · exact hd (k := 5) m (by decide)
        · exact refl m

theorem admission (n : Node) (set : List Nat) (c free : Nat) : Traffic n (n.admission set c free).2 :=
  foldl (fun m _ => disc m (by decide)) _ n

theorem police (n : Node) (s len : Nat) : Traffic n (n.police s len).2 := by
  unfold Node.police
  dsimp only
  split
  · exact refl n
  · split
    · exact refl n
    · exact fab n _

theorem recover (n : Node) (s : Nat) (r : Option Nat) (i : Nat) : Traffic n (n.recover s r i).2 := by
  unfold Node.recover
  dsimp only
  split
  · exact refl n
  · split
    · exact tabHw n _ _ _ _
    · split
      · exact ((tabHw n _ _ _ _).trans (tabHw _ _ _ _ _)).trans (tabHw _ _ _ _ _)
      · split
        · exact ((tabHw n _ _ _ _).trans (tabHw _ _ _ _ _)).trans (tabHw _ _ _ _ _)
        · exact (((tabHw n _ _ _ _).trans (tabHw _ _ _ _ _)).trans (tabHw _ _ _ _ _)).trans (pviol _ (by decide) i)

/-- A frame that takes the next number. -/
theorem numbered (n : Node) (f : Frame) : Traffic n
    (({ n with fab := { n.fab with nextFid := n.fab.nextFid + 1 } } : Node).setFrame n.fab.nextFid f) := fab n _

theorem enterStored (n : Node) (f : Frame) (s c : Nat) (launch : Option Nat) (set : List Nat) : Traffic n (n.enterStored f s c launch set).2 := by
  have hnum := numbered n f
  unfold Node.enterStored
  dsimp only
  generalize ({ n with fab := { n.fab with nextFid := n.fab.nextFid + 1 } } : Node).setFrame n.fab.nextFid f = m at hnum ⊢
  refine hnum.trans ((enqueue m { fid := n.fab.nextFid, stream := s, cls := c, stamp := f.stamp, launch := launch } set).trans ?_)
  split
  · exact (ctxDiscard _ s).trans (dropRef _ _)
  · exact pfcUpd _ f.ingress

theorem enterCounted (m : Node) (f : Frame) (len s : Nat) (launch : Option Nat) : Traffic m (m.enterCounted f len s launch).2 := by
  obtain ⟨⟨o, d⟩, hd⟩ : ∃ r, m.destinations f s = r := ⟨_, rfl⟩
  have hdest := snd hd (destinations m f s)
  unfold Node.enterCounted
  cases o with
  | none =>
    simp only [hd]
    exact hdest.trans (bounce _ _)
  | some set =>
    simp only [hd]
    refine hdest.trans ?_
    split
    · exact trans (disc d (k := 4) (by decide)) (ctxDiscard _ _)
    · have hadm := admission d set (bitsOf (m.tabW 1 s 0) 62 60) (d.freeCells - 1)
      generalize d.admission set (bitsOf (m.tabW 1 s 0) 62 60) (d.freeCells - 1) = ad at hadm ⊢
      refine hadm.trans ?_
      split
      · exact (ctxDiscard ad.2 s).trans (bounce _ 1)
      · split
        · exact trans (trans (disc ad.2 (k := 4) (by decide)) (ctxDiscard _ s)) (bounce _ (ad.2.takenCells _ _))
        · refine (police ad.2 s len).trans ?_
          split
          · exact trans (trans (disc _ (k := 2) (by decide)) (ctxPoliced _ s)) (bounce _ (cellsFor f.data.length))
          · refine (recover (ad.2.police s len).2 s f.rseq f.ingress).trans ?_
            split
            · exact (ctxDiscard _ s).trans (bounce _ (cellsFor f.data.length))
            · exact (takeCells (cellsFor f.data.length) _).trans (enterStored _ _ _ _ _ _)

theorem enter (n : Node) (f : Frame) (len s : Nat) (launch : Option Nat) : Traffic n (n.enter f len s launch).2 := by
  rw [Node.enter_eq]
  split
  · exact trans (disc n (k := 1) (by decide)) (bounce _ 1)
  · exact ((ctxAdd n _ _ _).trans (ctxAdd _ _ _ _)).trans (enterCounted _ _ _ _ _)

theorem closeP22 (n : Node) (x : List Byte) : Traffic n (n.closeP22 x) := by
  unfold Node.closeP22
  exact (free n _).trans (ite (toBridge _ _ _) (enter _ _ _ _ _))

theorem bridgeSend (n : Node) (pos : Nat) (m : BMsg) : Traffic n (n.bridgeSend pos m) := closeP22 n _

/-! ### Frames of the node's own -/

theorem ownNow (n : Node) {p : Nat} (hp : p < 20) (o : OwnFrame) : Traffic n (n.ownNow p o) := by
  unfold Node.ownNow
  split
  · exact (emit n _).trans (txCount _ hp _)
  · exact ((free n _).trans (emit _ _)).trans (txCount _ hp _)

theorem ownSend (n : Node) (p : Nat) (o : OwnFrame) : Traffic n (n.ownSend p o) := by
  unfold Node.ownSend
  split
  · exact refl n
  · rename_i h
    exact ite (ownNow n (Node.canTx_lt (by simpa using h)) o) (setPort n p _)

theorem topoSend (n : Node) (p : Nat) (h : List Byte) : Traffic n (n.topoSend p h) := by
  unfold Node.topoSend
  exact ite (ownSend n p _) (refl n)

theorem topoGrams (n : Node) (h : List Byte) : Traffic n (n.topoGrams h) := by
  unfold Node.topoGrams
  exact ite (foldl (fun a p => closeP22 a _) _ n) (refl n)

theorem topoFlood (n : Node) (h : List Byte) : Traffic n (n.topoFlood h) := by
  unfold Node.topoFlood
  exact (foldl (fun a p => topoSend a p h) _ n).trans (topoGrams _ h)

theorem topoDeliver (n : Node) (b : List Byte) (p : Nat) : Traffic n (n.topoDeliver b p) := by
  unfold Node.topoDeliver
  dsimp only
  split
  · exact disc n (k := 9) (by decide)
  · split
    · exact disc n (k := 4) (by decide)
    · have htaken := takeCells (cellsFor b.length) n
      generalize Node.takeCells (cellsFor b.length) n = x at htaken ⊢
      exact htaken.trans ((numbered x.2 _).trans ((setEngQueue _ _ _ _).trans (pfcUpd _ p)))

theorem transit (n : Node) (b : List Byte) (p : Nat) (o : Bool) : Traffic n (n.transit b p o) := by
  unfold Node.transit
  dsimp only
  split
  · exact refl n
  · split
    · exact disc n (k := 11) (by decide)
    · split
      · exact disc n (k := 5) (by decide)
      · split
        · exact disc n (k := 4) (by decide)
        · have htaken := takeCells (cellsFor b.length) n
          generalize Node.takeCells (cellsFor b.length) n = x at htaken ⊢
          exact htaken.trans ((numbered x.2 _).trans ((toEgress _ _ _).trans (pfcUpd _ p)))

/-! ### What traffic leaves alone -/

theorem sameLevelInputs (h : Traffic a b) : SameLevelInputs b a := by
  have hrd := h.rd
  obtain ⟨_, _, _, _, _, _, _, _, _, _, _, hb⟩ := h.eq
  refine ⟨by rw [hb], by rw [hb], by rw [hb], by rw [hb], by rw [hb], fun f hf => hrd f (not_trafficKey_of_levelKeys _ hf)⟩

theorem level (h : Traffic a b) : b.level = a.level := by
  obtain ⟨_, _, _, _, _, _, _, _, _, _, _, hb⟩ := h.eq
  rw [hb]

theorem mode (h : Traffic a b) : b.mode = a.mode := by
  obtain ⟨_, _, _, _, _, _, _, _, _, _, _, hb⟩ := h.eq
  rw [hb]

theorem clock (h : Traffic a b) : b.clock = a.clock := by
  obtain ⟨_, _, _, _, _, _, _, _, _, _, _, hb⟩ := h.eq
  rw [hb]

theorem inaug (h : Traffic a b) : b.inaug = a.inaug := by
  obtain ⟨_, _, _, _, _, _, _, _, _, _, _, hb⟩ := h.eq
  rw [hb]

theorem flash (h : Traffic a b) : b.flash = a.flash := by
  obtain ⟨_, _, _, _, _, _, _, _, _, _, _, hb⟩ := h.eq
  rw [hb]

theorem on (h : Traffic a b) {f : Fld} (hf : ¬ TrafficKey f.key) : b.on f = a.on f := by rw [Node.on, h.rd f hf, Node.on]

end Traffic

end Sys2Proof.Machine
end

section
/-! PROOF. What is heard of a bridge message that comes by its row, and what of it the directory sees (11 R382, R385, R386; 13 R467). -/

namespace Sys2Proof.Machine

open Sys2Proof

/-! ### The MAC counts the frame -/

/-- A frame without an error that is long enough is taken, whole or cut, and counted. -/
theorem Node.rxMac_counts (n : Node) (p : Nat) {b : List Byte} (h : 60 ≤ b.length) : Counts p MacIndex n (n.rxMac p { bytes := b }).2 := by
  have hadd : ∀ (m : Node) (i k : Nat), MacIndex i → Counts p MacIndex m (m.cntAdd p i k) := fun m i k hi => .cntAdd m k hi
  unfold Node.rxMac
  simp only [Bool.false_eq_true, if_false, Bool.not_true, if_neg (show ¬ b.length + 4 < 64 by omega)]
  exact (((hadd _ 29 _ (by unfold MacIndex; omega)).trans (hadd _ 26 _ (by unfold MacIndex; omega))).trans (hadd _ 25 _ (by unfold MacIndex; omega))).trans
    (Node.rxCount_counts ..)

theorem Node.bridgeHeard_length (n : Node) (b : List Byte) : 60 ≤ (n.bridgeHeard b).length := by
  have hfit : ∀ (k : Nat) (l : List Byte), (fit k l).length = k := fun k l => by simp [fit, zeros]; omega
  simp only [Node.bridgeHeard, List.length_append, beBytes_length, hfit, zeros, List.length_replicate]
  omega

/-- The keys of what counts a bridge message: those of traffic, and the bridge's own counts of what it turns away. -/
def HearKey (k : Nat) : Prop := TrafficKey k ∨ (32 * 0x10600060 ≤ k ∧ k ≤ 32 * 0x10600068)

/-- A key below the ports and above the discards counts no message. -/
theorem not_hearKey_of_top {k : Nat} (h1 : 32 * 0x10400000 ≤ k) (h2 : k < 32 * 0x10600060) : ¬ HearKey k := by
  have hsource : F.MGT_FAULT_SOURCE.key < 32 * 0x10400000 := by decide
  simp only [HearKey, TrafficKey, PortKey]
  omega

/-- `n` is `m` but for what counts and records a message. -/
structure Hears (m n : Node) : Prop where
  eq : ∃ r c d l o k, n = { m with regs := r, cnt := c, delta := d, log := l, out := o, freeN := k }
  rd : ∀ f : Fld, ¬ HearKey f.key → n.rd f = m.rd f

namespace Hears

variable {m n a b c : Node}

theorem refl (n : Node) : Hears n n := ⟨⟨_, _, _, _, _, _, rfl⟩, fun _ _ => rfl⟩

theorem trans (h : Hears a b) (g : Hears b c) : Hears a c := by
  refine ⟨?_, fun f hf => (g.rd f hf).trans (h.rd f hf)⟩
  obtain ⟨_, _, _, _, _, _, hb⟩ := h.eq
  obtain ⟨_, _, _, _, _, _, hc⟩ := g.eq
  rw [hb] at hc
  exact ⟨_, _, _, _, _, _, hc⟩

theorem wr (n : Node) {f : Fld} (v : Nat) (h : HearKey f.key) : Hears n (n.wr f v) :=
  ⟨⟨_, _, _, _, _, _, rfl⟩, fun _ hg => Node.rd_wr_ne n v fun e => hg (e ▸ h)⟩

theorem free (n : Node) (k : Nat) : Hears n { n with freeN := k } := ⟨⟨_, _, _, _, _, _, rfl⟩, fun _ _ => rfl⟩

theorem of_counts {p : Nat} {I : Nat → Prop} (hp : p < 20) (h : Counts p I m n) : Hears m n := by
  have hrd := h.rd
  obtain ⟨_, _, _, he⟩ := h.eq
  refine ⟨⟨_, _, _, _, _, _, he⟩, fun f hf => hrd f fun hk => hf (.inl (.inl ?_))⟩
  have := hk.bounds
  simp only [PortKey]
  omega

theorem pviol (n : Node) {k : Nat} (hk : k < 64) (x : Nat) : Hears n (n.pviol k x) := by
  obtain ⟨_, _, _, he⟩ := n.pviol_logs k x
  exact ⟨⟨_, _, _, _, _, _, he⟩, fun f hf => (Traffic.pviol n hk x).rd f fun ht => hf (.inl ht)⟩

theorem epoch (h : Hears m n) : n.epoch = m.epoch := h.rd _ (not_hearKey_of_top (by decide) (by decide))

theorem brg (h : Hears m n) : n.brg = m.brg := by
  obtain ⟨_, _, _, _, _, _, hn⟩ := h.eq
  rw [hn]

theorem ident (h : Hears m n) : n.ident = m.ident := by
  obtain ⟨_, _, _, _, _, _, hn⟩ := h.eq
  rw [hn]

theorem inaug (h : Hears m n) : n.inaug = m.inaug := by
  obtain ⟨_, _, _, _, _, _, hn⟩ := h.eq
  rw [hn]

theorem on (h : Hears m n) {f : Fld} (hf : ¬ HearKey f.key) : n.on f = m.on f := by rw [Node.on, h.rd f hf, Node.on]

theorem dataOn (h : Hears m n) : n.dataOn = m.dataOn := by
  refine h.on ?_
  simp only [HearKey, TrafficKey, PortKey, F.PWR_ISLANDS_DATA, F.MGT_FAULT_SOURCE]
  omega

theorem bridgeOn (h : Hears m n) : n.bridgeOn = m.bridgeOn := by
  have hen := h.on (f := F.BRG_CTRL_EN) (not_hearKey_of_top (by decide) (by decide))
  obtain ⟨_, _, _, _, _, _, hn⟩ := h.eq
  rw [Node.bridgeOn, hen, hn, Node.bridgeOn]
  rfl

/-- The tables but the policers' are read as before. -/
theorem tabW (h : Hears m n) {t : Nat} (ht : t ≠ 3) (i j : Nat) : n.tabW t i j = m.tabW t i j := by
  obtain ⟨r, _, _, _, _, k, rfl⟩ := h.eq
  exact m.tabW_free (r := r) (k := k) ht i j

/-- The directory is as it was. -/
theorem dirPos (h : Hears m n) (ident : Nat) : n.dirPos ident = m.dirPos ident := by
  have hcount : n.rd F.TOP_INAUG_COUNT = m.rd F.TOP_INAUG_COUNT := h.rd _ (not_hearKey_of_top (by decide) (by decide))
  simp only [Node.dirPos, h.epoch, hcount, Node.dirNode, h.tabW (show 8 ≠ 3 by decide)]

end Hears

/-! ### A message by its row -/

/-- The node that has drawn the ingress port of a message, and whose MAC there has counted its frame. -/
def Node.heardBy (n : Node) (p : Nat) (b : List Byte) : Node :=
  if p < 20 ∧ n.receives p = true then (({ n with freeN := n.freeN + 1 } : Node).rxMac p { bytes := n.bridgeHeard b }).2 else { n with freeN := n.freeN + 1 }

theorem Node.heardBy_hears (n : Node) (p : Nat) (b : List Byte) : Hears n (n.heardBy p b) := by
  unfold Node.heardBy
  split
  · rename_i h
    exact (Hears.free n _).trans (.of_counts h.1 (Node.rxMac_counts _ p (n.bridgeHeard_length b)))
  · exact Hears.free n _

theorem Node.bridgeRow_eq {n : Node} {tys : List Nat} {b : List Byte} (h : byteAt b 0 ∈ tys) :
    ∃ p, p < 23 ∧ n.bridgeRow tys b = (n.heardBy p b).bridgeRx p b := by
  refine ⟨Config.freeNat n.freeN % 23, Nat.mod_lt _ (by decide), ?_⟩
  rw [Node.bridgeRow, if_pos h]
  simp only [Node.heardBy, Bool.and_eq_true, decide_eq_true_eq]

theorem Node.heardBy_counted (n : Node) (p : Nat) (b : List Byte) {f : Fld} (h : ¬ CountKey p f.key) : (n.heardBy p b).rd f = n.rd f := by
  unfold Node.heardBy
  split
  · exact (Node.rxMac_counts { n with freeN := n.freeN + 1 } p (n.bridgeHeard_length b)).rd f h
  · rfl

end Sys2Proof.Machine
end

section
/-! PROOF. The bridge as far node (O60; 11 R385, R386, R390 to R392, R395, R396). -/

namespace Sys2Proof.Machine

open Sys2Proof

/-! ### Answers -/

/-- An answer leaves the bridge what it holds, but for a datagram that comes back to it. -/
theorem Node.farAnswer_brg (n : Node) (q : BMsg) (ty cause : Nat) (data : List Byte) :
    ∃ x, (n.farAnswer q ty cause data).brg = { n.brg with inRaw := x } := by
  unfold Node.farAnswer
  dsimp only
  split
  · exact ⟨n.brg.inRaw, rfl⟩
  · obtain ⟨_, _, _, _, _, _, x, _, _, _, _, h⟩ := (Traffic.bridgeSend n (n.dirPos q.src) { q with ty := ty, cause := cause, data := data }).eq
    exact ⟨x, by rw [h]⟩

theorem Node.farAnswer_streams (n : Node) (q : BMsg) (ty cause : Nat) (data : List Byte) :
    (n.farAnswer q ty cause data).brg.streams = n.brg.streams := by
  obtain ⟨x, h⟩ := n.farAnswer_brg q ty cause data
  rw [h]

theorem Node.farAnswer_lock (n : Node) (q : BMsg) (ty cause : Nat) (data : List Byte) :
    (n.farAnswer q ty cause data).brg.lock = n.brg.lock := by
  obtain ⟨x, h⟩ := n.farAnswer_brg q ty cause data
  rw [h]

/-! ### Arrival (11 R385) -/

theorem exec_bridgeRow {c : Instr} {b : List Byte} (s : State)
    (h : ((bmsgOf b).ty = 1 ∧ c = .farRead b) ∨ ((bmsgOf b).ty = 2 ∧ c = .farWrite b) ∨ ((bmsgOf b).ty = 3 ∧ c = .farLockRead b) ∨
      (((bmsgOf b).ty = 4 ∨ (bmsgOf b).ty = 5) ∧ c = .farUnlock b)) :
    ∃ p, p < 23 ∧ exec c s = s.to ((s.node.heardBy p b).bridgeRx p b) := by
  have hrow : ∃ tys, byteAt b 0 ∈ tys ∧ exec c s = s.to (s.node.bridgeRow tys b) := by
    rcases h with ⟨hty, rfl⟩ | ⟨hty, rfl⟩ | ⟨hty, rfl⟩ | ⟨hty | hty, rfl⟩
    · exact ⟨[btRead], List.mem_singleton.mpr hty, rfl⟩
    · exact ⟨[btWrite], List.mem_singleton.mpr hty, rfl⟩
    · exact ⟨[btLockRead], List.mem_singleton.mpr hty, rfl⟩
    · exact ⟨[btWriteUnlock, btUnlock], List.mem_cons.mpr (.inl hty), rfl⟩
    · exact ⟨[btWriteUnlock, btUnlock], List.mem_cons.mpr (.inr (List.mem_singleton.mpr hty)), rfl⟩
  obtain ⟨tys, hmem, hexec⟩ := hrow
  obtain ⟨p, hp, hnode⟩ := Node.bridgeRow_eq (n := s.node) hmem
  exact ⟨p, hp, by rw [hexec, hnode]⟩

/-- A well-formed request is judged, unless it comes from the management core. -/
theorem Node.bridgeRx_request {n : Node} {p : Nat} {b : List Byte} (hd : n.dataOn = true) (hok : bmsgOk b = true) (hp : p ≠ 21)
    (hty : (bmsgOf b).ty < 8) : n.bridgeRx p b = n.farRequest (bmsgOf b) (p, b) := by
  have h8 : (bmsgOf b).ty ≠ btCompletion := Nat.ne_of_lt hty
  have h9 : (bmsgOf b).ty ≠ btWriteErr := Nat.ne_of_lt (Nat.lt_succ_of_lt hty)
  have h10 : (bmsgOf b).ty ≠ btLockBroken := Nat.ne_of_lt (Nat.lt_succ_of_lt (Nat.lt_succ_of_lt hty))
  simp only [Node.bridgeRx, hd, hok, hp, h8, h9, h10, Bool.not_true, Bool.false_eq_true, false_and, or_false, if_false]

/-- A malformed request, or one from the management core, is turned away. -/
theorem Node.bridgeRx_bad {n : Node} {p : Nat} {b : List Byte} (hd : n.dataOn = true) (h : bmsgOk b = false ∨ p = 21) (hty : (bmsgOf b).ty < 8) :
    n.bridgeRx p b = (n.bridgeBad p).badRequest b := by
  have hbad : (!bmsgOk b) = true ∨ p = 21 ∧ (bmsgOf b).ty < btCompletion := h.imp (fun h => by rw [h]; rfl) fun h => ⟨h, hty⟩
  simp only [Node.bridgeRx, hd, Bool.not_true, Bool.false_eq_true, if_false, if_pos hbad]

theorem Node.badRequest_unread {n : Node} {b : List Byte} (h : b.length < 18 ∨ n.dirPos (bmsgOf b).src = 0) : n.badRequest b = n := by
  rw [Node.badRequest]
  refine if_neg fun hc => ?_
  obtain ⟨hlen, -, -, hpos⟩ := hc
  exact h.elim (Nat.not_lt.mpr hlen) hpos

theorem Node.badRequest_read {n : Node} {b : List Byte} (hlen : 18 ≤ b.length) (hpos : n.dirPos (bmsgOf b).src ≠ 0) (h1 : 1 ≤ (bmsgOf b).ty)
    (h5 : (bmsgOf b).ty ≤ 5) : n.badRequest b =
      n.farFail { bmsgOf b with flags := (bmsgOf b).flags % 8, addr := (bmsgOf b).addr / 64 * 64, win := (bmsgOf b).win % 64 } bcBadReq := by
  rw [Node.badRequest]
  exact if_pos ⟨hlen, h1, h5, hpos⟩

section
variable {n : Node} {q : BMsg} {x : Nat × List Byte}

theorem Node.farRequest_atZero (h : n.epoch = 0) : n.farRequest q x = n.farFail q bcEpoch := by
  simp only [Node.farRequest, h, if_true]

theorem Node.farRequest_busy (h0 : n.epoch ≠ 0) (h : n.bridgeOn = false ∨ 128 ≤ n.brg.inq.length) :
    n.farRequest q x = (n.inc F.BRG_IN_BUSY_COUNT).farFail q bcBusy := by
  have hbusy : (!n.bridgeOn) = true ∨ 128 ≤ n.brg.inq.length := h.imp_left fun h => by rw [h]; rfl
  simp only [Node.farRequest, if_neg h0, if_pos hbusy]

/-- The bridge has room for a request in an epoch. -/
structure Node.Admits (n : Node) : Prop where
  epoch : n.epoch ≠ 0
  on : n.bridgeOn = true
  room : n.brg.inq.length < 128

theorem Node.Admits.open (h : n.Admits) : ¬ ((!n.bridgeOn) = true ∨ 128 ≤ n.brg.inq.length) := by
  rw [h.on]
  simpa using h.room

theorem Node.farRequest_queued (h : n.Admits) (hd : q.dst = n.ident) (he : q.epoch = n.epoch) :
    n.farRequest q x = { n with brg := { n.brg with inq := n.brg.inq ++ [x] } } := by
  have hdst : ¬ (q.dst ≠ n.ident ∨ q.epoch = 0) := fun hc => hc.elim (fun hne => hne hd) fun hz => h.epoch (he ▸ hz)
  simp only [Node.farRequest, if_neg h.epoch, if_neg h.open, if_neg hdst, if_pos he, Node.farQueue, if_neg (Nat.not_le.mpr h.room)]

theorem Node.farRequest_kept (h : n.Admits) (hd : q.dst = n.ident) (h0 : q.epoch ≠ 0) (he : q.epoch ≠ n.epoch) {e : Sched} (hs : n.inaug.sched = some e)
    (hq : e.epoch = q.epoch) : n.farRequest q x = { n with brg := { n.brg with heldReq := n.brg.heldReq ++ [x] } } := by
  have hdst : ¬ (q.dst ≠ n.ident ∨ q.epoch = 0) := fun hc => hc.elim (fun hne => hne hd) h0
  simp only [Node.farRequest, if_neg h.epoch, if_neg h.open, if_neg hdst, if_neg he, hs, hq, if_true]

theorem Node.farRequest_turned (h : n.Admits) (hq : q.dst ≠ n.ident ∨ q.epoch = 0 ∨ (q.epoch ≠ n.epoch ∧ n.inaug.sched = none)) :
    n.farRequest q x = n.farFail q bcEpoch := by
  simp only [Node.farRequest, if_neg h.epoch, if_neg h.open]
  by_cases hdst : q.dst ≠ n.ident ∨ q.epoch = 0
  · rw [if_pos hdst]
  · obtain ⟨he, hs⟩ := (hq.resolve_left fun h => hdst (.inl h)).resolve_left fun h => hdst (.inr h)
    simp only [if_neg hdst, if_neg he, hs, reduceCtorEq, if_false]

end

theorem Node.heldAccept_kept {n : Node} {p : Nat} {b : List Byte} {t : List (Nat × List Byte)} (hq : n.brg.heldReq = (p, b) :: t)
    (he : (bmsgOf b).epoch = n.epoch) (h0 : n.epoch ≠ 0) (hl : n.brg.inq.length < 128) :
    n.heldAccept = { n with brg := { n.brg with heldReq := t, inq := n.brg.inq ++ [(p, b)] } } := by
  simp only [Node.heldAccept, hq]
  rw [if_pos ⟨he, h0⟩]
  exact if_neg (Nat.not_le.mpr hl)

theorem Node.heldAccept_turned {n : Node} {p : Nat} {b : List Byte} {t : List (Nat × List Byte)} (hq : n.brg.heldReq = (p, b) :: t)
    (he : (bmsgOf b).epoch ≠ n.epoch) :
    n.heldAccept = Node.farFail { n with brg := { n.brg with heldReq := t } } (bmsgOf b) bcEpoch := by
  simp only [Node.heldAccept, hq]
  exact if_neg fun h => he h.1

/-! ### The queue -/

theorem Node.bridgeTake_nil {n : Node} (h : n.brg.inRaw = []) : n.bridgeTake = n := by
  rw [Node.bridgeTake, h]
  exact congrArg (fun l => ({ n with brg := { n.brg with inRaw := l } } : Node)) h.symm

theorem Node.pviol_brg (n : Node) (k a : Nat) : (n.pviol k a).brg = n.brg := by
  obtain ⟨_, _, _, h⟩ := n.pviol_logs k a
  rw [h]

/-- A malformed datagram whose TYPE cannot be read is only counted. -/
theorem Node.bridgeTake_malformed {n : Node} {p : Nat} {b : List Byte} (hr : n.brg.inRaw = [(p, b)]) (hd : n.dataOn = true) (hok : bmsgOk b = false)
    (hlen : b.length < 18) : n.bridgeTake = Node.bridgeBad { n with brg := { n.brg with inRaw := [] } } p := by
  have hon : Node.dataOn { n with brg := { n.brg with inRaw := [] } } = true := hd
  rw [Node.bridgeTake, hr]
  simp only [List.foldl_cons, List.foldl_nil, Node.bridgeRx, hon, hok, Bool.not_true, Bool.false_eq_true, Bool.not_false, true_or, if_false, if_true]
  exact Node.badRequest_unread (.inl hlen)

theorem Node.farNext_nil {n : Node} (h : n.brg.inq = []) : n.farNext = (none, n) := by
  rw [Node.farNext, h]
  rfl

/-- The node whose one request is being served. -/
def Node.serving (n : Node) : Node := { n with brg := { n.brg with inq := [] } }

theorem Node.farNext_one {n : Node} {x : Nat × List Byte} (h : n.brg.inq = [x]) (hs : n.serveable x = true) :
    n.farNext = n.serving.farServe x := by
  have hidx : List.findIdx n.serveable [x] = 0 := by rw [List.findIdx_cons, hs, cond_true]
  rw [Node.farNext, h, hidx]
  rfl

/-- What the far node serves where one request waits and may be served. -/
theorem exec_farServe {s : State} {x : Nat × List Byte} (hq : s.node.brg.inq = [x]) (hr : s.node.brg.inRaw = []) (hs : s.node.serveable x = true) :
    exec .farRequestServe s = s.toBus (s.node.serving.farServe x) := by
  rw [← Node.farNext_one hq hs]
  exact congrArg (fun m => s.toBus (Node.farNext m)) (Node.bridgeTake_nil hr)

theorem Node.readWaits_other {n : Node} {q : BMsg} (hty : q.ty ≠ 1) : n.readWaits q = false := by simp [Node.readWaits, btRead, hty]

theorem Node.serveable_eq (n : Node) (p : Nat) (b : List Byte) :
    n.serveable (p, b) = ((n.brg.lock.isNone || n.lockHeldBy (bmsgOf b)) && !n.readWaits (bmsgOf b)) := rfl

theorem Node.farServe_eq (n : Node) (p : Nat) (b : List Byte) : n.farServe (p, b) =
    if (bmsgOf b).ty = btRead then (none, n.farReadServe (bmsgOf b))
    else if (bmsgOf b).ty = btWrite then n.farWriteServe (bmsgOf b) b
    else if (bmsgOf b).ty = btLockRead then (none, n.farLockServe (bmsgOf b))
    else n.farUnlockServe p (bmsgOf b) := rfl

section
variable {b : List Byte} {q : BMsg}

theorem Node.farServe_read {n : Node} (p : Nat) (hb : bmsgOf b = q) (h : q.ty = 1) : n.farServe (p, b) = (none, n.farReadServe q) := by
  rw [Node.farServe_eq, hb]
  exact if_pos h

theorem Node.farServe_write {n : Node} (p : Nat) (hb : bmsgOf b = q) (h : q.ty = 2) : n.farServe (p, b) = n.farWriteServe q b := by
  rw [Node.farServe_eq, hb, h, if_neg (by decide)]
  exact if_pos rfl

theorem Node.farServe_lock {n : Node} (p : Nat) (hb : bmsgOf b = q) (h : q.ty = 3) : n.farServe (p, b) = (none, n.farLockServe q) := by
  rw [Node.farServe_eq, hb, h, if_neg (by decide), if_neg (by decide)]
  exact if_pos rfl

theorem Node.farServe_unlock {n : Node} (p : Nat) (hb : bmsgOf b = q) (h : q.ty = 4 ∨ q.ty = 5) : n.farServe (p, b) = n.farUnlockServe p q := by
  rw [Node.farServe_eq, hb, if_neg (by simp only [btRead]; omega), if_neg (by simp only [btWrite]; omega), if_neg (by simp only [btLockRead]; omega)]

end

/-! ### Reads (11 R390) -/

theorem Node.farWords_ok (q : BMsg) : ∀ (l : List Nat) (w : Nat → Nat) (m : Nat → Node),
    (∀ i, i < l.length → (m i).farAccess q (l.getD i 0) false 0 = ⟨.ok (w i), m (i + 1)⟩) →
    Node.farWords q l (m 0) = (bcOk, (List.range l.length).flatMap (fun i => leBytes 4 (w i)), m l.length)
  | [], _, _, _ => rfl
  | a :: t, w, m, h => by
    have hhead := h 0 (Nat.zero_lt_succ _)
    have htail := Node.farWords_ok q t (fun i => w (i + 1)) (fun i => m (i + 1)) fun i hi => h (i + 1) (Nat.succ_lt_succ hi)
    rw [List.getD_cons_zero] at hhead
    simp only [Node.farWords, hhead, htail, List.length_cons, List.range_succ_eq_map, List.flatMap_cons, List.flatMap_map]

theorem Node.farWords_refused {n m : Node} {q : BMsg} {a : Nat} {r : BusRes} (l : List Nat) (h : n.farAccess q a false 0 = ⟨r, m⟩) (hr : ∀ v, r ≠ .ok v) :
    Node.farWords q (a :: l) n = (causeOf r, [], m) := by
  cases r with
  | ok v => exact absurd rfl (hr v)
  | err | prot | notOwner | later | silent | undef => simp only [Node.farWords, h]

/-- The words a READ names. -/
def readAddrs (q : BMsg) : List Nat := if bitOf q.flags 1 then (List.range 16).map (fun i => q.addr + 4 * i) else [q.addr]

theorem readAddrs_head (q : BMsg) : ∃ l, readAddrs q = q.addr :: l := by
  unfold readAddrs
  split
  · exact ⟨_, rfl⟩
  · exact ⟨_, rfl⟩

theorem Node.farReadServe_ok {q : BMsg} {w : Nat → Nat} {m : Nat → Node}
    (h : ∀ i, i < (readAddrs q).length → (m i).farAccess q ((readAddrs q).getD i 0) false 0 = ⟨.ok (w i), m (i + 1)⟩) :
    (m 0).farReadServe q = (m (readAddrs q).length).farAnswer q btCompletion bcOk ((List.range (readAddrs q).length).flatMap (fun i => leBytes 4 (w i))) := by
  have hwords := Node.farWords_ok q _ w m h
  unfold readAddrs at hwords ⊢
  simp only [Node.farReadServe, hwords, if_true]

theorem Node.farReadServe_refused {n m : Node} {q : BMsg} {r : BusRes} (h : n.farAccess q q.addr false 0 = ⟨r, m⟩) (hr : ∀ v, r ≠ .ok v) :
    n.farReadServe q = m.farAnswer q btCompletion (causeOf r) [] := by
  obtain ⟨l, hl⟩ := readAddrs_head q
  have hwords := Node.farWords_refused l h hr
  rw [← hl] at hwords
  unfold readAddrs at hwords
  simp only [Node.farReadServe, hwords, ite_self]

theorem Node.farLockServe_ok {n m : Node} {q : BMsg} {v : Nat} (h : n.farAccess q q.addr false 0 = ⟨.ok v, m⟩) :
    n.farLockServe q = Node.farAnswer { m with brg := { m.brg with lock := some (q.src, q.win, q.tag), farAddr := q.addr } } q btCompletion bcOk (leBytes 4 v) := by
  simp only [Node.farLockServe, Node.farWords, h, if_true, List.append_nil]

theorem Node.farLockServe_refused {n m : Node} {q : BMsg} (h : n.farAccess q q.addr false 0 = ⟨.prot, m⟩) :
    n.farLockServe q = m.farAnswer q btCompletion bcProt [] := by
  simp only [Node.farLockServe, Node.farWords_refused [] h (fun v => by simp), causeOf, show bcProt ≠ bcOk by decide, if_false]

/-! ### Write streams (11 R391, R392) -/

/-- The node with a stream of an initiator and window, in the place of the one it tracked. -/
def Node.keepStream (n : Node) (node win : Nat) (x : WStream) : Node :=
  { n with brg := { n.brg with streams := n.brg.streams.filter (fun y => !(y.node == node && y.win == win)) ++ [x] } }

theorem Node.setStream_eq {n : Node} {node win : Nat} {x : WStream} (h1 : x.node = node) (h2 : x.win = win) :
    n.setStream x = n.keepStream node win x := by
  subst h1 h2
  rfl

theorem Node.stream_streams {m n : Node} (h : m.brg.streams = n.brg.streams) (node win : Nat) : m.stream node win = n.stream node win := by
  rw [Node.stream, h, Node.stream]

/-- A stream that is tracked is the initiator's and the window's. -/
theorem Node.stream_is {n : Node} {node win : Nat} {x : WStream} (h : n.stream node win = some x) : x.node = node ∧ x.win = win := by
  have := List.find?_some h
  simpa [isStream] using this

theorem Node.stream_keepStream (n : Node) {node win : Nat} {x : WStream} (h1 : x.node = node) (h2 : x.win = win) :
    (n.keepStream node win x).stream node win = some x := by
  have hmiss : (n.brg.streams.filter (fun y => !(y.node == node && y.win == win))).find? (isStream node win) = none := by
    refine List.find?_eq_none.mpr fun y hy hc => ?_
    simp only [List.mem_filter, isStream] at hy hc
    simp only [hc, Bool.not_true, Bool.false_eq_true, and_false] at hy
  have hself : isStream node win x = true := by simp [isStream, h1, h2]
  simp only [Node.stream, Node.keepStream, List.find?_append, hmiss, Option.none_or, List.find?_singleton, hself, if_true]

theorem Node.keepStream_keepStream (n : Node) {node win : Nat} {x y : WStream} (h1 : x.node = node) (h2 : x.win = win) :
    (n.keepStream node win x).keepStream node win y = n.keepStream node win y := by
  simp [Node.keepStream, List.filter_append, h1, h2]

theorem Node.keepStream_trackStream {n : Node} {node win : Nat} {x y : WStream} (hl : n.brg.streams.length < 256) (h1 : x.node = node) (h2 : x.win = win) :
    (n.trackStream x).keepStream node win y = n.keepStream node win y := by
  simp [Node.keepStream, Node.trackStream, List.filter_append, h1, h2, Nat.not_le.mpr hl]

theorem Node.stream_trackStream {n : Node} {node win : Nat} {x : WStream} (hl : n.brg.streams.length < 256) (hn : n.stream node win = none)
    (h1 : x.node = node) (h2 : x.win = win) : (n.trackStream x).stream node win = some x := by
  have hself : isStream node win x = true := by simp [isStream, h1, h2]
  rw [Node.stream] at hn
  simp only [Node.stream, Node.trackStream, if_neg (Nat.not_le.mpr hl), List.find?_append, hn, Option.none_or, List.find?_singleton, hself, if_true]

/-- Where a stream holds no write, none goes on. -/
theorem Node.streamRun_idle {n : Node} {node win : Nat} (k : Nat) {x : WStream} (h : n.stream node win = some x) (hh : x.held = []) :
    Node.streamRun k node win n = (none, n) := by
  cases k with
  | zero => rfl
  | succ k => simp only [Node.streamRun, h, hh, List.find?_nil]

/-- The one write a stream holds is applied where it is next. -/
theorem Node.streamRun_next {n : Node} {node win : Nat} {b : List Byte} (k : Nat) {x : WStream} (h : n.stream node win = some x)
    (hh : x.held = [(x.next, b)]) : Node.streamRun (k + 1) node win n =
      farThen ((n.setStream { x with next := (x.next + 1) % 65536, held := [] }).farApply (bmsgOf b)) (Node.streamRun k node win) := by
  have hfind : x.held.find? (fun h => h.1 == x.next) = some (x.next, b) := by simp [hh]
  have hrest : x.held.filter (fun h => h.1 != x.next) = [] := by simp [hh]
  rw [Node.streamRun, h]
  dsimp only
  rw [hfind]
  dsimp only
  rw [hrest]

theorem seqAhead_zero {next q : Nat} (hn : next < 65536) (hq : q < 65536) (h : seqAhead next q = 0) : next = q := by
  simp only [seqAhead, Nat.mod_eq_of_lt hn] at h
  omega

theorem Node.gapsBefore_within {n : Node} {node win q : Nat} (k : Nat) {x : WStream} (h : n.stream node win = some x)
    (hd : seqAhead x.next q < 16 ∨ 32768 ≤ seqAhead x.next q) : Node.gapsBefore k node win q n = (none, n) := by
  cases k with
  | zero => rfl
  | succ k => simp only [Node.gapsBefore, h, hd, if_true]

/-- The node that tracks the stream of a write. -/
def Node.freshStream (n : Node) (q : BMsg) : Node :=
  match n.stream q.src q.win with
  | some _ => n
  | none => n.trackStream { node := q.src, win := q.win, next := q.seq }

/-- A write whose sequence number lies within the reorder span of its stream, or has passed. -/
def Node.writeNext (n : Node) (q : BMsg) (b : List Byte) : FarOut :=
  match n.stream q.src q.win with
  | none => (none, n)
  | some s =>
    let d := seqAhead s.next q.seq
    if d = 0 then
      farThen ((n.setStream { s with next := (s.next + 1) % 65536 }).farApply q) (Node.streamRun 17 q.src q.win)
    else if d < 16 then
      (none, n.setStream { s with held := s.held.filter (fun x => x.1 != q.seq) ++ [(q.seq, b)] })
    else (none, (n.setStream s).inc F.BRG_IN_LATE_COUNT)

theorem Node.farWriteServe_eq (n : Node) (q : BMsg) (b : List Byte) :
    n.farWriteServe q b = farThen (Node.gapsBefore 18 q.src q.win q.seq (n.freshStream q)) (fun m => m.writeNext q b) := rfl

/-- The stream of a write, tracked or new, where there is room for it. -/
structure Node.Tracks (n : Node) (q : BMsg) (x : WStream) : Prop where
  stream : (n.stream q.src q.win).getD { node := q.src, win := q.win, next := q.seq } = x
  room : n.stream q.src q.win = none → n.brg.streams.length < 256

namespace Node.Tracks

variable {n : Node} {q : BMsg} {x : WStream} {b : List Byte}

theorem is (h : n.Tracks q x) : x.node = q.src ∧ x.win = q.win := by
  have hx := h.stream
  cases hs : n.stream q.src q.win with
  | none =>
    rw [hs, Option.getD_none] at hx
    exact hx ▸ ⟨rfl, rfl⟩
  | some y =>
    rw [hs, Option.getD_some] at hx
    exact hx ▸ Node.stream_is hs

theorem fresh (h : n.Tracks q x) : (n.freshStream q).stream q.src q.win = some x := by
  have hx := h.stream
  unfold Node.freshStream
  cases hs : n.stream q.src q.win with
  | none =>
    rw [hs, Option.getD_none] at hx
    rw [← hx]
    exact Node.stream_trackStream (h.room hs) hs rfl rfl
  | some y =>
    rw [hs, Option.getD_some] at hx
    rw [← hx]
    exact hs

theorem keep (h : n.Tracks q x) (y : WStream) : (n.freshStream q).keepStream q.src q.win y = n.keepStream q.src q.win y := by
  unfold Node.freshStream
  cases hs : n.stream q.src q.win with
  | none => exact Node.keepStream_trackStream (h.room hs) rfl rfl
  | some y => rfl

theorem set (h : n.Tracks q x) {y : WStream} (h1 : y.node = x.node) (h2 : y.win = x.win) :
    (n.freshStream q).setStream y = n.keepStream q.src q.win y := by
  rw [Node.setStream_eq (h1.trans h.is.1) (h2.trans h.is.2), h.keep]

theorem serve (h : n.Tracks q x) (hd : seqAhead x.next q.seq < 16 ∨ 32768 ≤ seqAhead x.next q.seq) :
    n.farWriteServe q b = (n.freshStream q).writeNext q b := by
  rw [Node.farWriteServe_eq, Node.gapsBefore_within _ h.fresh hd]
  rfl

/-- A write in sequence is applied. -/
theorem applied (h : n.Tracks q x) (hd : seqAhead x.next q.seq = 0) : n.farWriteServe q b =
    farThen ((n.keepStream q.src q.win { x with next := (x.next + 1) % 65536 }).farApply q) (Node.streamRun 17 q.src q.win) := by
  rw [h.serve (.inl (hd ▸ by decide))]
  simp only [Node.writeNext, h.fresh, hd, if_true]
  rw [h.set (y := { x with next := (x.next + 1) % 65536 }) rfl rfl]

/-- A write ahead of its turn is held. -/
theorem held (h : n.Tracks q x) (h0 : 0 < seqAhead x.next q.seq) (hd : seqAhead x.next q.seq < 16) : n.farWriteServe q b =
    (none, n.keepStream q.src q.win { x with held := x.held.filter (fun y => y.1 != q.seq) ++ [(q.seq, b)] }) := by
  rw [h.serve (.inl hd)]
  simp only [Node.writeNext, h.fresh, if_neg (Nat.ne_of_gt h0), hd, if_true]
  rw [h.set (y := { x with held := x.held.filter (fun y => y.1 != q.seq) ++ [(q.seq, b)] }) rfl rfl]

/-- A late write is counted. -/
theorem late (h : n.Tracks q x) (hd : 32768 ≤ seqAhead x.next q.seq) : n.farWriteServe q b =
    (none, (n.keepStream q.src q.win x).inc F.BRG_IN_LATE_COUNT) := by
  rw [h.serve (.inr hd)]
  simp only [Node.writeNext, h.fresh, if_neg (show ¬ seqAhead x.next q.seq = 0 by omega), if_neg (show ¬ seqAhead x.next q.seq < 16 by omega)]
  rw [h.set rfl rfl]

end Node.Tracks

theorem Node.farApply_ok {n m : Node} {q : BMsg} {v : Nat} (h : n.farAccess q q.addr true (leNat q.data) = ⟨.ok v, m⟩) :
    n.farApply q = (none, m) := by
  simp only [Node.farApply, h]

theorem Node.farApply_refused {n m : Node} {q : BMsg} {r : BusRes} (h : n.farAccess q q.addr true (leNat q.data) = ⟨r, m⟩)
    (hr : r = .prot ∨ r = .notOwner ∨ r = .err) : n.farApply q = (none, m.farFail q (causeOf r)) := by
  rcases hr with rfl | rfl | rfl <;> simp only [Node.farApply, h]

/-- The stream a write has been taken from holds no other: none goes on. -/
theorem Node.streamRun_kept {n m : Node} {node win : Nat} {x : WStream} (k : Nat) (h : m.brg.streams = (n.keepStream node win x).brg.streams)
    (h1 : x.node = node) (h2 : x.win = win) (hh : x.held = []) : Node.streamRun k node win m = (none, m) :=
  Node.streamRun_idle k ((Node.stream_streams h node win).trans (n.stream_keepStream h1 h2)) hh

/-! ### Gaps (11 R391) -/

/-- What the bridge answers for the write that is lost. -/
def Node.lostWrite (n : Node) (x : WStream) : BMsg :=
  { ty := btWrite, epoch := n.epoch, src := x.node, dst := n.ident, seq := x.next, addr := Config.freeNat n.freeN % 2 ^ 30 * 4, win := x.win }

theorem Node.lostAddr (n : Node) : Config.freeNat n.freeN % 2 ^ 30 * 4 % 4 = 0 ∧ Config.freeNat n.freeN % 2 ^ 30 * 4 < 2 ^ 32 := by omega

/-- The node that has declared the next write of a stream lost. -/
def Node.lost (n : Node) (x : WStream) : Node :=
  Node.farAnswer { n with freeN := n.freeN + 1 } (n.lostWrite x) btWriteErr bcLost []

theorem Node.gapLost_eq (n : Node) (x : WStream) (upTo : Nat) : n.gapLost x upTo =
    let m := (n.lost x).setStream { x with next := ((firstHeld x).getD upTo) % 65536 }
    if m.lockLets x.node x.win then Node.streamRun 17 x.node x.win m else (none, m) := rfl

theorem Node.gapLost_idle (n : Node) {x : WStream} (upTo : Nat) (hh : x.held = []) :
    n.gapLost x upTo = (none, (n.lost x).keepStream x.node x.win { x with next := upTo % 65536 }) := by
  have hfirst : firstHeld x = none := by rw [firstHeld, hh]; rfl
  rw [Node.gapLost_eq, hfirst, Option.getD_none]
  dsimp only
  rw [Node.setStream_eq rfl rfl, Node.streamRun_kept (x := { x with next := upTo % 65536 }) 17 rfl rfl rfl hh, ite_self]

/-- The writes after the gap wait while another's lock is held. -/
theorem Node.gapLost_locked (n : Node) {x : WStream} {h : Nat} {b : List Byte} (upTo : Nat) (hh : x.held = [(h, b)]) (hlt : h < 65536)
    (hl : n.lockLets x.node x.win = false) : n.gapLost x upTo = (none, (n.lost x).keepStream x.node x.win { x with next := h }) := by
  have hfirst : firstHeld x = some h := by rw [firstHeld, hh]; rfl
  have hlock : ∀ y, ((n.lost x).keepStream x.node x.win y).lockLets x.node x.win = n.lockLets x.node x.win := fun y => by
    unfold Node.lockLets
    rw [show ((n.lost x).keepStream x.node x.win y).brg.lock = n.brg.lock from Node.farAnswer_lock _ _ _ _ _]
  rw [Node.gapLost_eq, hfirst, Option.getD_some, Nat.mod_eq_of_lt hlt]
  dsimp only
  rw [Node.setStream_eq rfl rfl, hlock, hl]
  rfl

/-- The one write held behind the gap is next. -/
theorem Node.gapLost_next (n : Node) {x : WStream} {h : Nat} {b : List Byte} (upTo : Nat) (hh : x.held = [(h, b)]) (hlt : h < 65536)
    (hl : n.brg.lock = none) : n.gapLost x upTo =
      farThen (((n.lost x).keepStream x.node x.win { x with next := (h + 1) % 65536, held := [] }).farApply (bmsgOf b)) (Node.streamRun 16 x.node x.win) := by
  have hfirst : firstHeld x = some h := by rw [firstHeld, hh]; rfl
  have hlock : ((n.lost x).keepStream x.node x.win { x with next := h }).lockLets x.node x.win = true := by
    unfold Node.lockLets
    rw [show ((n.lost x).keepStream x.node x.win { x with next := h }).brg.lock = n.brg.lock from Node.farAnswer_lock _ _ _ _ _, hl]
  rw [Node.gapLost_eq, hfirst, Option.getD_some, Nat.mod_eq_of_lt hlt]
  dsimp only
  rw [Node.setStream_eq rfl rfl, hlock, if_pos rfl]
  rw [Node.streamRun_next (b := b) 16 (Node.stream_keepStream (x := { x with next := h }) (n.lost x) rfl rfl) hh]
  dsimp only
  rw [Node.setStream_eq (node := x.node) (win := x.win) (x := { x with next := (h + 1) % 65536, held := [] }) rfl rfl,
    Node.keepStream_keepStream _ (x := { x with next := h }) rfl rfl]

/-- The READs that wait for writes of an initiator and window. -/
def Node.waitingReads (n : Node) (node win : Nat) : List BMsg :=
  (n.brg.inq.map (fun x => bmsgOf x.2)).filter (fun q => q.src == node && q.win == win && n.readWaits q)

theorem Node.waitingReads_nil {n : Node} (h : n.brg.inq = []) (node win : Nat) : n.waitingReads node win = [] := by
  rw [Node.waitingReads, h]
  rfl

theorem Node.waitingReads_one {n : Node} {p : Nat} {b : List Byte} {node win : Nat} (h : n.brg.inq = [(p, b)]) (h1 : (bmsgOf b).src = node)
    (h2 : (bmsgOf b).win = win) (hw : n.readWaits (bmsgOf b) = true) : n.waitingReads node win = [bmsgOf b] := by
  rw [Node.waitingReads, h]
  simp [h1, h2, hw]

theorem Node.readWaits_untracked {n : Node} {q : BMsg} (hty : q.ty = 1) (hf : bitOf q.flags 2 = true) (hs : n.stream q.src q.win = none) :
    n.readWaits q = true := by
  simp only [Node.readWaits, hty, btRead, hf, hs, beq_self_eq_true, Bool.and_true]

theorem Node.readWaits_tracked {n : Node} {q : BMsg} {x : WStream} (hty : q.ty = 1) (hf : bitOf q.flags 2 = true) (hs : n.stream q.src q.win = some x)
    (hp : seqAhead x.next q.seq < 32768) : n.readWaits q = true := by
  have hpassed : Machine.passed x q.seq = false := decide_eq_false (Nat.not_le.mpr hp)
  simp only [Node.readWaits, hty, btRead, hf, hs, hpassed, beq_self_eq_true, Bool.and_true, Bool.not_false]

theorem Node.gapTimeout_untracked {n : Node} {node win : Nat} (hs : n.stream node win = none) : n.gapTimeout node win =
    match n.waitingReads node win with
    | [] => (none, n)
    | q :: _ => (n.trackStream { node := node, win := win, next := q.seq }).gapLost { node := node, win := win, next := q.seq } (q.seq + 1) := by
  rw [Node.gapTimeout]
  dsimp only
  rw [hs]
  rfl

theorem Node.gapTimeout_idle {n : Node} {node win : Nat} {x : WStream} (hs : n.stream node win = some x) (hh : x.held = [])
    (hq : n.waitingReads node win = []) : n.gapTimeout node win = (none, n) := by
  unfold Node.waitingReads at hq
  simp only [Node.gapTimeout, hs, hh, hq]

theorem Node.gapTimeout_read {n : Node} {node win : Nat} {x : WStream} {q : BMsg} (hs : n.stream node win = some x)
    (hq : n.waitingReads node win = [q]) : n.gapTimeout node win = n.gapLost x (q.seq + 1) := by
  unfold Node.waitingReads at hq
  simp only [Node.gapTimeout, hs, hq]
  cases x.held with
  | nil => rfl
  | cons => rfl

theorem Node.gapTimeout_held {n : Node} {node win : Nat} {x : WStream} {y : Nat × List Byte} (hs : n.stream node win = some x) (hh : x.held = [y]) :
    ∃ upTo, n.gapTimeout node win = n.gapLost x upTo := by
  rw [Node.gapTimeout]
  dsimp only
  rw [hs]
  dsimp only
  rw [hh]
  exact ⟨_, rfl⟩

/-! ### The lock (11 R396) -/

/-- The node without a far lock. -/
def Node.unlocked (n : Node) : Node := { n with brg := { n.brg with lock := none } }

/-- No access waits for the lock, and no write is held. -/
structure Node.Calm (n : Node) : Prop where
  stalled : n.brg.stalled = []
  held : ∀ x ∈ n.brg.streams, x.held = []

theorem Node.streamsGo_calm {n : Node} (h : ∀ x ∈ n.brg.streams, x.held = []) : n.streamsGo = (none, n) := by
  have hrun : ∀ node win, Node.streamRun 17 node win n = (none, n) := fun node win => by
    cases hs : n.stream node win with
    | none => simp only [Node.streamRun, hs]
    | some x => exact Node.streamRun_idle 17 hs (h x (List.mem_of_find?_eq_some hs))
  have hfold : ∀ l : List WStream, l.foldl (fun o s => farThen o (fun m => if m.lockLets s.node s.win then Node.streamRun 17 s.node s.win m else (none, m)))
      (none, n) = (none, n) := fun l => by
    induction l with
    | nil => rfl
    | cons s l ih =>
      rw [List.foldl_cons]
      simp only [farThen, hrun, ite_self] at ih ⊢
      exact ih
  exact hfold n.brg.streams

theorem Node.unlockFar_calm {n : Node} (h : n.Calm) : n.unlockFar = (none, n.unlocked) := by
  have hresume : Node.resume { n with brg := { n.brg with lock := none } } = (none, { n with brg := { n.brg with lock := none, stalled := n.brg.stalled } }) := by
    simp only [Node.resume, h.stalled, Option.isSome_none, Bool.false_eq_true, if_false]
    rfl
  rw [Node.unlockFar, hresume]
  exact Node.streamsGo_calm (n := { n with brg := { n.brg with lock := none, stalled := n.brg.stalled } }) h.held

theorem Node.lockHeldBy_none {n : Node} (h : n.brg.lock = none) (q : BMsg) : n.lockHeldBy q = false := by
  rw [Node.lockHeldBy, h]
  rfl

theorem Node.lockHeldBy_own {n : Node} {q : BMsg} {tag : Nat} (h : n.brg.lock = some (q.src, q.win, tag)) : n.lockHeldBy q = true := by
  simp [Node.lockHeldBy, Node.lockLets, h]

theorem Node.farUnlockServe_none {n : Node} (h : n.brg.lock = none) (p : Nat) (q : BMsg) :
    n.farUnlockServe p q = (none, ((n.inc F.BRG_IN_BAD_COUNT).pviol 11 p).farAnswer q btLockBroken bcLockBroken []) := by
  simp only [Node.farUnlockServe, Node.lockHeldBy_none h, Bool.not_false, if_true]

theorem Node.farUnlockServe_unlock {n : Node} {q : BMsg} {tag : Nat} (h : n.brg.lock = some (q.src, q.win, tag)) (hty : q.ty = btUnlock) (p : Nat) :
    n.farUnlockServe p q = (n.farAnswer q btCompletion bcOk []).unlockFar := by
  simp only [Node.farUnlockServe, Node.lockHeldBy_own h, hty, Bool.not_true, Bool.false_eq_true, if_false, if_true]

theorem Node.farUnlockServe_write {n m : Node} {q : BMsg} {tag v : Nat} (h : n.brg.lock = some (q.src, q.win, tag)) (hty : q.ty ≠ btUnlock) (p : Nat)
    (hw : n.farAccess q q.addr true (leNat q.data) = ⟨.ok v, m⟩) :
    n.farUnlockServe p q = (m.farAnswer q btCompletion bcOk []).unlockFar := by
  simp only [Node.farUnlockServe, Node.lockHeldBy_own h, hty, hw, Bool.not_true, Bool.false_eq_true, if_false, causeOf]

theorem Node.lockTimeout_none {n : Node} (h : n.brg.lock = none) : n.lockTimeout = (none, n) := by
  rw [Node.lockTimeout, h]
  rfl

theorem Node.lockTimeout_some {n : Node} {node win tag : Nat} (h : n.brg.lock = some (node, win, tag)) : n.lockTimeout =
    (n.farAnswer { ty := btLockBroken, epoch := n.epoch, src := node, dst := n.ident, tag := tag, addr := n.brg.farAddr, win := win }
      btLockBroken bcLockBroken []).unlockFar := by
  simp only [Node.lockTimeout, Node.sendBroken, h, Option.isSome_some, if_true]

/-! ### The statement -/

theorem Settles.of_toBus {c : Instr} {s : State} {o : FarOut} {m : Node} (h : exec c s = s.toBus o) (ho : o = (none, m)) : Settles c s m :=
  Settles.of_to (by rw [h, ho]; rfl)


theorem bridgeFar_arrives {s : State} {b : List Byte} {c : Instr} (hd : s.node.dataOn = true)
    (h : ((bmsgOf b).ty = 1 ∧ c = .farRead b) ∨ ((bmsgOf b).ty = 2 ∧ c = .farWrite b) ∨ ((bmsgOf b).ty = 3 ∧ c = .farLockRead b) ∨
      (((bmsgOf b).ty = 4 ∨ (bmsgOf b).ty = 5) ∧ c = .farUnlock b)) : ∃ p, p < 23 ∧
    (p ≠ 21 → bmsgOk b = true → exec c s = s.to ((s.node.heardBy p b).farRequest (bmsgOf b) (p, b))) ∧
    (bmsgOk b = false ∨ p = 21 → exec c s = s.to (((s.node.heardBy p b).bridgeBad p).badRequest b)) := by
  have hty : (bmsgOf b).ty < 8 := by omega
  obtain ⟨p, hp, hexec⟩ := exec_bridgeRow s h
  have hon := (s.node.heardBy_hears p b).dataOn.trans hd
  exact ⟨p, hp, fun hne hok => by rw [hexec, Node.bridgeRx_request hon hok hne hty], fun hbad => by rw [hexec, Node.bridgeRx_bad hon hbad hty]⟩

/-- The node that has turned a malformed request away has the directory it had. -/
theorem Node.bridgeBad_dirPos {n : Node} (p : Nat) (b : List Byte) (ident : Nat) : ((n.heardBy p b).bridgeBad p).dirPos ident = n.dirPos ident :=
  (((n.heardBy_hears p b).trans (.wr _ _ (.inr (by decide)))).trans (.pviol _ (k := 9) (by decide) p)).dirPos ident

/-- The bridge's counts are not the MAC's. -/
theorem Node.heardBy_inc (n : Node) (p : Nat) (b : List Byte) {f : Fld} (h1 : 32 * 0x10500000 ≤ f.key) (hp : p < 23) :
    (n.heardBy p b).inc f = (n.heardBy p b).wr f (satInc f.w (n.rd f)) := by
  rw [Node.inc, Node.heardBy_counted]
  intro hk
  have := hk.bounds
  omega

section
variable {s : State} {p : Nat} {b : List Byte} {q : BMsg} (hb : bmsgOf b = q) (hq : s.node.brg.inq = [(p, b)]) (hr : s.node.brg.inRaw = [])
include hb hq hr

/-- Where the lock lets the request through, it is served. -/
theorem exec_farServe_open (hlock : s.node.brg.lock = none ∨ s.node.lockHeldBy q = true) (hw : s.node.readWaits q = false) :
    exec .farRequestServe s = s.toBus (s.node.serving.farServe (p, b)) := by
  refine exec_farServe hq hr ?_
  rw [Node.serveable_eq, hb, hw]
  rcases hlock with h | h
  · rw [h]
    rfl
  · rw [h, Bool.or_true]
    rfl

theorem bridgeFar_reads (hl : s.node.brg.lock = none) (hty : q.ty = 1) (hf : bitOf q.flags 2 = false) :
    (∀ (l : List Nat) (w : Nat → Nat) (m : Nat → Node), l = readAddrs q → m 0 = s.node.serving →
      (∀ i, i < l.length → (m i).farAccess q (l.getD i 0) false 0 = ⟨.ok (w i), m (i + 1)⟩) →
      Settles .farRequestServe s ((m l.length).farAnswer q btCompletion bcOk ((List.range l.length).flatMap (fun i => leBytes 4 (w i))))) ∧
    (∀ m, s.node.serving.farAccess q q.addr false 0 = ⟨.prot, m⟩ → Settles .farRequestServe s (m.farAnswer q btCompletion bcProt [])) ∧
    (∀ m, s.node.serving.farAccess q q.addr false 0 = ⟨.err, m⟩ → Settles .farRequestServe s (m.farAnswer q btCompletion bcBusErr [])) := by
  have hw : s.node.readWaits q = false := by simp [Node.readWaits, hf]
  have hexec := (exec_farServe_open hb hq hr (.inl hl) hw).trans (congrArg s.toBus (Node.farServe_read p hb hty))
  refine ⟨fun l w m hads h0 hm => ?_, fun m hm => ?_, fun m hm => ?_⟩
  · subst hads
    rw [← h0, Node.farReadServe_ok hm] at hexec
    exact Settles.of_toBus hexec rfl
  · rw [Node.farReadServe_refused hm fun v => by simp] at hexec
    exact Settles.of_toBus hexec rfl
  · rw [Node.farReadServe_refused hm fun v => by simp] at hexec
    exact Settles.of_toBus hexec rfl

theorem bridgeFar_writes (hl : s.node.brg.lock = none) (hty : q.ty = 2) {x : WStream} (hx : s.node.serving.Tracks q x) (hlt : x.next < 65536) :
    (seqAhead x.next q.seq = 0 → x.held = [] →
      let next := s.node.serving.keepStream q.src q.win { x with next := (q.seq + 1) % 65536 }
      (∀ v m, next.farAccess q q.addr true (leNat q.data) = ⟨.ok v, m⟩ → m.brg.streams = next.brg.streams → Settles .farRequestServe s m) ∧
      (∀ r cause m, next.farAccess q q.addr true (leNat q.data) = ⟨r, m⟩ → (r = .prot ∧ cause = 4) ∨ (r = .notOwner ∧ cause = 5) ∨ (r = .err ∧ cause = 6) →
        (m.farAnswer q 9 cause []).brg.streams = next.brg.streams → Settles .farRequestServe s (m.farAnswer q 9 cause []))) ∧
    (0 < seqAhead x.next q.seq → seqAhead x.next q.seq < 16 → Settles .farRequestServe s
      (s.node.serving.keepStream q.src q.win { x with held := x.held.filter (fun y => y.1 != q.seq) ++ [(q.seq, b)] })) ∧
    (32768 ≤ seqAhead x.next q.seq → Settles .farRequestServe s ((s.node.serving.keepStream q.src q.win x).inc F.BRG_IN_LATE_COUNT)) := by
  have hexec := (exec_farServe_open hb hq hr (.inl hl) (Node.readWaits_other (hty ▸ by decide))).trans (congrArg s.toBus (Node.farServe_write p hb hty))
  refine ⟨fun h0 hh => ?_, fun h0 h16 => Settles.of_toBus hexec (hx.held h0 h16), fun hlate => Settles.of_toBus hexec (hx.late hlate)⟩
  have hseq : x.next = q.seq := seqAhead_zero hlt (hb ▸ leAt_lt b 18 2) h0
  rw [hx.applied h0, hseq] at hexec
  refine ⟨fun v m hw hst => Settles.of_toBus hexec ?_, fun r cause m hw hr hst => Settles.of_toBus hexec ?_⟩
  · rw [Node.farApply_ok hw]
    exact Node.streamRun_kept 17 hst hx.is.1 hx.is.2 hh
  · have hcause : causeOf r = cause := by rcases hr with ⟨rfl, rfl⟩ | ⟨rfl, rfl⟩ | ⟨rfl, rfl⟩ <;> rfl
    have hfail : m.farFail q cause = m.farAnswer q 9 cause [] := congrArg (fun ty => m.farAnswer q ty cause []) (if_pos hty)
    rw [Node.farApply_refused hw (hr.imp And.left (Or.imp And.left And.left)), hcause, hfail]
    exact Node.streamRun_kept 17 hst hx.is.1 hx.is.2 hh

theorem bridgeFar_locks (hl : s.node.brg.lock = none) (hty : q.ty = 3) :
    (∀ v m, s.node.serving.farAccess q q.addr false 0 = ⟨.ok v, m⟩ → Settles .farRequestServe s
      (Node.farAnswer { m with brg := { m.brg with lock := some (q.src, q.win, q.tag), farAddr := q.addr } } q btCompletion bcOk (leBytes 4 v))) ∧
    (∀ m, s.node.serving.farAccess q q.addr false 0 = ⟨.prot, m⟩ → Settles .farRequestServe s (m.farAnswer q btCompletion bcProt [])) := by
  have hexec := (exec_farServe_open hb hq hr (.inl hl) (Node.readWaits_other (hty ▸ by decide))).trans (congrArg s.toBus (Node.farServe_lock p hb hty))
  refine ⟨fun v m hm => ?_, fun m hm => ?_⟩
  · rw [Node.farLockServe_ok hm] at hexec
    exact Settles.of_toBus hexec rfl
  · rw [Node.farLockServe_refused hm] at hexec
    exact Settles.of_toBus hexec rfl

theorem bridgeFar_unlock {tag : Nat} (hl : s.node.brg.lock = some (q.src, q.win, tag)) (hty : q.ty = 4 ∨ q.ty = 5) :
    exec .farRequestServe s = s.toBus (s.node.serving.farUnlockServe p q) := by
  have hw := Node.readWaits_other (n := s.node) (q := q) (by omega)
  rw [exec_farServe_open hb hq hr (.inr (Node.lockHeldBy_own hl)) hw, Node.farServe_unlock p hb hty]

theorem bridgeFar_unlocks {tag : Nat} (hl : s.node.brg.lock = some (q.src, q.win, tag)) :
    (q.ty = 5 → (s.node.serving.farAnswer q 8 0 []).Calm → Settles .farRequestServe s (s.node.serving.farAnswer q 8 0 []).unlocked) ∧
    (q.ty = 4 → ∀ v m, s.node.serving.farAccess q q.addr true (leNat q.data) = ⟨.ok v, m⟩ → (m.farAnswer q 8 0 []).Calm →
      Settles .farRequestServe s (m.farAnswer q 8 0 []).unlocked) := by
  refine ⟨fun hty hcalm => Settles.of_toBus (bridgeFar_unlock hb hq hr hl (.inr hty)) ?_,
    fun hty v m hw hcalm => Settles.of_toBus (bridgeFar_unlock hb hq hr hl (.inl hty)) ?_⟩
  · exact (Node.farUnlockServe_unlock (n := s.node.serving) hl hty p).trans (Node.unlockFar_calm hcalm)
  · exact (Node.farUnlockServe_write (n := s.node.serving) hl (hty ▸ by decide) p hw).trans (Node.unlockFar_calm hcalm)

end

theorem bridgeFar_lockTimeout {s : State} {node win tag : Nat} (hl : s.node.brg.lock = some (node, win, tag))
    (hcalm : (s.node.farAnswer { ty := 10, epoch := s.node.epoch, src := node, dst := s.node.ident, tag := tag, addr := s.node.brg.farAddr, win := win } 10 7 []).Calm) :
    Settles .lockTimeout s
      (s.node.farAnswer { ty := 10, epoch := s.node.epoch, src := node, dst := s.node.ident, tag := tag, addr := s.node.brg.farAddr, win := win } 10 7 []).unlocked :=
  Settles.of_toBus rfl ((Node.lockTimeout_some hl).trans (Node.unlockFar_calm hcalm))

section
variable {s : State} {node win : Nat} {x : WStream} (hs : s.node.stream node win = some x)
include hs

theorem bridgeFar_gapRead {p : Nat} {b : List Byte} (hh : x.held = []) (hq : s.node.brg.inq = [(p, b)]) (hty : (bmsgOf b).ty = 1)
    (hf : bitOf (bmsgOf b).flags 2 = true) (h1 : (bmsgOf b).src = node) (h2 : (bmsgOf b).win = win)
    (hp : ((bmsgOf b).seq + 65536 - x.next % 65536) % 65536 < 32768) :
    Settles (.writeGapTimeout node win) s ((s.node.lost x).keepStream node win { x with next := ((bmsgOf b).seq + 1) % 65536, held := [] }) := by
  obtain ⟨hn, hw⟩ := Node.stream_is hs
  have hwaits : s.node.readWaits (bmsgOf b) = true := Node.readWaits_tracked hty hf (by rw [h1, h2]; exact hs) hp
  refine Settles.of_toBus rfl ((Node.gapTimeout_read hs (Node.waitingReads_one hq h1 h2 hwaits)).trans ?_)
  rw [Node.gapLost_idle _ _ hh, hn, hw, hh]

theorem bridgeFar_gapLocked {h k w tag : Nat} {b : List Byte} (hh : x.held = [(h, b)]) (hlt : h < 65536) (hl : s.node.brg.lock = some (k, w, tag))
    (hne : ¬ (k = node ∧ w = win)) : Settles (.writeGapTimeout node win) s ((s.node.lost x).keepStream node win { x with next := h }) := by
  obtain ⟨rfl, rfl⟩ := Node.stream_is hs
  obtain ⟨upTo, hgap⟩ := Node.gapTimeout_held hs hh
  have hshut : s.node.lockLets x.node x.win = false := by
    simp only [Node.lockLets, hl]
    simpa using hne
  exact Settles.of_toBus rfl (hgap.trans (Node.gapLost_locked _ upTo hh hlt hshut))

theorem bridgeFar_gapHeld {h v : Nat} {b : List Byte} {q : BMsg} {m : Node} (hh : x.held = [(h, b)]) (hlt : h < 65536) (hb : bmsgOf b = q)
    (hl : s.node.brg.lock = none)
    (hw : ((s.node.lost x).keepStream node win { x with next := (h + 1) % 65536, held := [] }).farAccess q q.addr true (leNat q.data) = ⟨.ok v, m⟩)
    (hst : m.brg.streams = ((s.node.lost x).keepStream node win { x with next := (h + 1) % 65536, held := [] }).brg.streams) :
    Settles (.writeGapTimeout node win) s m := by
  obtain ⟨rfl, rfl⟩ := Node.stream_is hs
  obtain ⟨upTo, hgap⟩ := Node.gapTimeout_held hs hh
  refine Settles.of_toBus rfl (hgap.trans ((Node.gapLost_next _ upTo hh hlt hl).trans ?_))
  rw [hb, Node.farApply_ok hw]
  exact Node.streamRun_kept 16 hst rfl rfl rfl

end

/-- Settles O60: each event of the far side runs to the node that the lemma of its clause names. -/
theorem bridgeFar : Obligations.BridgeFar := by
  unfold Obligations.BridgeFar
  intro s n fr heard satInc answers turned keeps unlocked calm
  have hn : n = s.node := rfl
  have hanswers : answers = Node.farAnswer := rfl
  have hkeeps : keeps = Node.keepStream := rfl
  have hunlocked : unlocked = Node.unlocked := rfl
  clear_value answers keeps unlocked
  subst hanswers hkeeps hunlocked
  clear_value n
  subst hn
  refine ⟨?_, fun h => ?_, fun p b rest hq => ⟨fun he h0 hl => ?_, fun he => ?_⟩, fun hq hr => ?_, fun p b hq hr hd hok hlen => ?_, ?_, fun hl => ?_,
    fun node win tag hl => ?_, fun node win => ⟨fun hs hq => ?_, ?_, fun x hs => ⟨fun hh hq => ?_, ?_⟩⟩⟩
  · intro b q c hq hd hc
    subst hq
    obtain ⟨p, hp, hgood, hbad⟩ := bridgeFar_arrives hd hc
    have hears := s.node.heardBy_hears p b
    have hadmits : s.node.epoch ≠ 0 → s.node.bridgeOn = true → s.node.brg.inq.length < 128 → (s.node.heardBy p b).Admits := fun h0 hon hl =>
      ⟨hears.epoch ▸ h0, hears.bridgeOn.trans hon, by rw [hears.brg]; exact hl⟩
    refine ⟨p, hp, fun hne hok => ⟨fun h0 => ?_, fun h0 hbusy => ?_, fun h0 hon hl => ⟨fun hdst he => ?_, fun hdst hq0 he e hs hqe => ?_, fun ht => ?_⟩⟩,
      fun hwrong => ⟨fun hun => ?_, fun hlen hpos => ?_⟩⟩
    · refine Settles.of_to ((hgood hne hok).trans ?_)
      rw [Node.farRequest_atZero (hears.epoch.trans h0)]
      rfl
    · refine Settles.of_to ((hgood hne hok).trans ?_)
      rw [Node.farRequest_busy (hears.epoch ▸ h0) (by rw [hears.bridgeOn, hears.brg]; exact hbusy), Node.heardBy_inc _ _ _ (by decide) hp]
      rfl
    · refine Settles.of_to ((hgood hne hok).trans ?_)
      rw [Node.farRequest_queued (hadmits h0 hon hl) (hdst.trans hears.ident.symm) (he.trans hears.epoch.symm), hears.brg]
      rfl
    · refine Settles.of_to ((hgood hne hok).trans ?_)
      rw [Node.farRequest_kept (hadmits h0 hon hl) (hdst.trans hears.ident.symm) hq0 (hears.epoch ▸ he) (hears.inaug ▸ hs) hqe, hears.brg]
      rfl
    · refine Settles.of_to ((hgood hne hok).trans ?_)
      rw [Node.farRequest_turned (hadmits h0 hon hl) (by rw [hears.ident, hears.epoch, hears.inaug]; exact ht)]
      rfl
    · refine Settles.of_to ((hbad hwrong).trans ?_)
      rw [Node.badRequest_unread (by rw [Node.bridgeBad_dirPos]; exact hun), Node.bridgeBad, Node.heardBy_inc _ _ _ (by decide) hp]
      rfl
    · refine Settles.of_to ((hbad hwrong).trans ?_)
      rw [Node.badRequest_read hlen (by rw [Node.bridgeBad_dirPos]; exact hpos) (by omega) (by omega), Node.bridgeBad, Node.heardBy_inc _ _ _ (by decide) hp]
      rfl
  · refine Settles.of_to (congrArg s.to ?_)
    rw [Node.heldAccept, h]
  · exact Settles.of_to (congrArg s.to (Node.heldAccept_kept hq he h0 hl))
  · refine Settles.of_to (congrArg s.to ((Node.heldAccept_turned hq he).trans ?_))
    rfl
  · refine Settles.of_toBus (congrArg s.toBus (congrArg Node.farNext (Node.bridgeTake_nil hr))) (Node.farNext_nil hq)
  · refine Settles.of_toBus (o := s.node.bridgeTake.farNext) rfl ?_
    rw [Node.bridgeTake_malformed hr hd hok hlen]
    exact Node.farNext_nil ((congrArg Brg.inq (Node.pviol_brg _ 9 p)).trans hq)
  · intro p b q hb hq hr
    refine ⟨bridgeFar_reads hb hq hr, fun hl hty x hst hlt hroom => ?_, bridgeFar_locks hb hq hr, fun hl hty => ?_, fun tag hl => ⟨fun hty hcalm => ?_, fun hty v m hw hcalm => ?_⟩⟩
    · have hahead : (q.seq + 65536 - x.next) % 65536 = seqAhead x.next q.seq := by rw [seqAhead, Nat.mod_eq_of_lt (show x.next < 65536 from hlt)]
      obtain ⟨happlied, hheld, hlate⟩ := bridgeFar_writes hb hq hr hl hty ⟨hst, hroom⟩ hlt
      dsimp only
      rw [hahead]
      exact ⟨happlied, hheld, hlate⟩
    · have hexec := exec_farServe_open hb hq hr (.inl hl) (Node.readWaits_other (by omega))
      rw [Node.farServe_unlock p hb hty] at hexec
      exact Settles.of_toBus hexec (Node.farUnlockServe_none (n := s.node.serving) hl p q)
    · exact (bridgeFar_unlocks hb hq hr hl).1 hty ⟨hcalm.1, hcalm.2⟩
    · exact (bridgeFar_unlocks hb hq hr hl).2 hty v m hw ⟨hcalm.1, hcalm.2⟩
  · exact Settles.of_toBus rfl (Node.lockTimeout_none hl)
  · intro m hcalm
    exact bridgeFar_lockTimeout hl ⟨hcalm.1, hcalm.2⟩
  · refine Settles.of_toBus rfl ?_
    rw [Node.gapTimeout_untracked hs, Node.waitingReads_nil hq]
  · intro p b q hs hl hq hb hty hf h1 h2
    subst hb
    have hw : s.node.readWaits (bmsgOf b) = true := by
      subst h1 h2
      exact Node.readWaits_untracked hty hf hs
    refine ⟨_, s.node.lostAddr.1, s.node.lostAddr.2, Settles.of_toBus rfl ?_⟩
    rw [Node.gapTimeout_untracked hs, Node.waitingReads_one hq h1 h2 hw]
    dsimp only
    rw [Node.gapLost_idle _ _ rfl, Node.trackStream, if_neg (Nat.not_le.mpr hl)]
    rfl
  · exact Settles.of_toBus rfl (Node.gapTimeout_idle hs hh (Node.waitingReads_nil hq _ _))
  · obtain ⟨rfl, rfl⟩ := Node.stream_is hs
    refine ⟨_, s.node.lostAddr.1, s.node.lostAddr.2, fun p b hh hq hty hf h1 h2 hp => ?_, fun h b k w tag hh hlt hl hne => ?_, fun h b q m v hh hlt hb hl hw hst => ?_⟩
    · exact bridgeFar_gapRead hs hh hq hty hf h1 h2 hp
    · exact bridgeFar_gapLocked hs hh hlt hl hne
    · exact bridgeFar_gapHeld hs hh hlt hb hl hw hst

end Sys2Proof.Machine
end

section
/-! PROOF. The layout of a bridge message and of its datagram, and the target of a window (11 R377 to R383). -/

namespace Sys2Proof.Machine

open Sys2Proof

/-! ### Reading past what stands in front -/

theorem slice_skip {l : List Byte} (r : List Byte) {off : Nat} (k : Nat) (h : l.length ≤ off) : slice (l ++ r) off k = slice r (off - l.length) k := by
  rw [slice, List.drop_append, List.drop_eq_nil_of_le h, List.nil_append, slice]

theorem leAt_skip {l : List Byte} (r : List Byte) {off : Nat} (k : Nat) (h : l.length ≤ off) : leAt (l ++ r) off k = leAt r (off - l.length) k := by
  rw [leAt, slice_skip r k h, leAt]

theorem beAt_skip {l : List Byte} (r : List Byte) {off : Nat} (k : Nat) (h : l.length ≤ off) : beAt (l ++ r) off k = beAt r (off - l.length) k := by
  rw [beAt, slice_skip r k h, beAt]

theorem byteAt_skip {l : List Byte} (r : List Byte) {i : Nat} (h : l.length ≤ i) : byteAt (l ++ r) i = byteAt r (i - l.length) := by
  rw [byteAt, List.getD_append_right _ _ _ _ h, byteAt]

theorem drop_skip {l : List Byte} (r : List Byte) {i : Nat} (h : l.length ≤ i) : (l ++ r).drop i = r.drop (i - l.length) := by
  rw [List.drop_append, List.drop_eq_nil_of_le h, List.nil_append]

theorem leAt_here (r : List Byte) (k v : Nat) : leAt (leBytes k v ++ r) 0 k = v % 256 ^ k :=
  (leAt_mid [] r v rfl).trans (by rw [Nat.pow_mul])

theorem beAt_here (r : List Byte) (k v : Nat) : beAt (beBytes k v ++ r) 0 k = v % 256 ^ k :=
  (beAt_mid [] r v rfl).trans (by rw [Nat.pow_mul])

theorem byteAt_here (r : List Byte) (v : Nat) : byteAt (leBytes 1 v ++ r) 0 = v % 256 :=
  (byteAt_mid [] r (BitVec.ofNat 8 v) rfl).trans (BitVec.toNat_ofNat v 8)

/-! ### A message (11 R383) -/

theorem BMsg.bytes_length (q : BMsg) : q.bytes.length = 32 + q.data.length := by
  simp only [BMsg.bytes, List.length_append, leBytes_length, zeros, List.length_replicate]

theorem BMsg.bytes_right (q : BMsg) : q.bytes = leBytes 1 q.ty ++ (leBytes 1 q.flags ++ (leBytes 2 q.epoch ++ (leBytes 6 q.src ++ (leBytes 6 q.dst ++
    (leBytes 2 q.tag ++ (leBytes 2 q.seq ++ (leBytes 4 q.addr ++ (leBytes 1 q.win ++ (leBytes 1 q.cause ++ (leBytes 2 q.data.length ++
      (zeros 4 ++ q.data))))))))))) := by
  simp only [BMsg.bytes, List.append_assoc]

theorem bmsgOf_bytes {q : BMsg} (hty : q.ty < 256) (hflags : q.flags < 256) (hepoch : q.epoch < 65536) (hsrc : q.src < 281474976710656) (hdst : q.dst < 281474976710656)
    (htag : q.tag < 65536) (hseq : q.seq < 65536) (haddr : q.addr < 4294967296) (hwin : q.win < 256) (hcause : q.cause < 256)
    (hdata : q.data.length < 65536) : bmsgOf q.bytes = q := by
  have hlen : leAt q.bytes 26 2 = q.data.length := by
    rw [q.bytes_right]
    simp (disch := simp) only [leAt_skip, leBytes_length, leAt_here, Nat.reduceSub]
    exact Nat.mod_eq_of_lt hdata
  have hslice : slice q.bytes 32 q.data.length = q.data := by
    rw [q.bytes_right]
    simp (disch := simp [zeros]) only [slice_skip, leBytes_length, Nat.reduceSub, zeros, List.length_replicate]
    rw [slice, List.drop_zero, List.take_length]
  rw [bmsgOf, hlen, hslice]
  simp (disch := simp) only [q.bytes_right, byteAt_skip, leAt_skip, leBytes_length, leAt_here, byteAt_here, Nat.reduceSub, Nat.reducePow]
  rw [Nat.mod_eq_of_lt hty, Nat.mod_eq_of_lt hflags, Nat.mod_eq_of_lt hepoch, Nat.mod_eq_of_lt hsrc, Nat.mod_eq_of_lt hdst, Nat.mod_eq_of_lt htag,
    Nat.mod_eq_of_lt hseq, Nat.mod_eq_of_lt haddr, Nat.mod_eq_of_lt hwin, Nat.mod_eq_of_lt hcause]

/-! ### Its datagram (11 R382) -/

theorem trainAddr_lt {p : Nat} (h : p < 64) : trainAddr p 0 < 4294967296 := by
  simp only [trainAddr]
  omega

theorem Node.bridgeFrame_parts (n : Node) (pos : Nat) (p : List Byte) : ∃ (x t : Byte) (d e c u : Nat), n.bridgeFrame pos p =
    zeros 6 ++ n.portMac 22 ++ beBytes 2 0x0800 ++
      (([0x45, x] ++ beBytes 2 (28 + p.length) ++ beBytes 2 d ++ beBytes 2 e ++ [t, 17]) ++ beBytes 2 c ++
        (beBytes 4 (trainAddr n.position 0) ++ beBytes 4 (trainAddr pos 0))) ++
      (beBytes 2 49321 ++ beBytes 2 49321 ++ beBytes 2 (8 + p.length)) ++ beBytes 2 u ++ p := ⟨_, _, _, _, _, _, rfl⟩

theorem byteAt_pair (r : List Byte) (x y : Byte) : byteAt ([x, y] ++ r) 0 = x.toNat ∧ byteAt ([x, y] ++ r) 1 = y.toNat := ⟨rfl, rfl⟩

/-- What the datagram of a message shows. -/
theorem Node.bridgeFrame_header (n : Node) {pos : Nat} {p : List Byte} (hpos : pos < 64) (hn : n.position < 64) (hp : p.length < 32768) :
    let b := n.bridgeFrame pos p
    beAt b 12 2 = 0x0800 ∧ byteAt b 14 = 0x45 ∧ beAt b 16 2 = 28 + p.length ∧ byteAt b 23 = 17 ∧ beAt b 26 4 = trainAddr n.position 0 ∧
      beAt b 30 4 = trainAddr pos 0 ∧ beAt b 34 2 = 49321 ∧ beAt b 36 2 = 49321 ∧ beAt b 38 2 = 8 + p.length ∧ b.drop 42 = p := by
  obtain ⟨x, t, d, e, c, u, h⟩ := n.bridgeFrame_parts pos p
  have hmac := n.portMac_length 22
  have hzeros : (zeros 6).length = 6 := rfl
  have hpair : ∀ x y : Byte, [x, y].length = 2 := fun _ _ => rfl
  dsimp only
  rw [h]
  simp (disch := simp [hmac, hzeros]) only [List.append_assoc, beAt_skip, byteAt_skip, drop_skip, beBytes_length, beAt_here, byteAt_pair, hmac, hzeros, hpair,
    Nat.reduceSub, Nat.reducePow, Nat.reduceMod, List.drop_zero, true_and, and_true]
  exact ⟨rfl, Nat.mod_eq_of_lt (by omega), rfl, Nat.mod_eq_of_lt (trainAddr_lt hn), Nat.mod_eq_of_lt (trainAddr_lt hpos), Nat.mod_eq_of_lt (by omega)⟩

/-! ### Windows (11 R377, R380) -/

theorem Node.winTarget_atZero {n : Node} (w : Nat) (h : n.epoch = 0) : n.winTarget w = .inr bcEpoch := by
  rw [Node.winTarget, if_pos h]

theorem Node.winTarget_off {n : Node} (w : Nat) (h0 : n.epoch ≠ 0) (h : n.bridgeOn = false) : n.winTarget w = .inr bcNoRoute := by
  rw [Node.winTarget, if_neg h0, h]
  rfl

theorem Node.routeOk_iff (n : Node) (p : Nat) : n.routeOk p = true ↔ p ≠ 0 ∧ bitOf (n.tabW 9 p 0) 63 = true := by
  simp [Node.routeOk]

section
variable {n : Node} {w : Nat} (h0 : n.epoch ≠ 0) (hon : n.bridgeOn = true)
include h0 hon

theorem Node.winTarget_oldEpoch (hm : n.on (F.BRG_WIN_CTRL_MODE w) = false) (he : n.rd (F.BRG_WIN_TARGET_EPOCH w) ≠ n.epoch) :
    n.winTarget w = .inr bcEpoch := by
  simp only [Node.winTarget, h0, hon, hm, he, ne_eq, not_false_eq_true, Bool.not_true, Bool.not_false, Bool.false_eq_true, if_true, if_false]

theorem Node.winTarget_byPos (hm : n.on (F.BRG_WIN_CTRL_MODE w) = false) (he : n.rd (F.BRG_WIN_TARGET_EPOCH w) = n.epoch) : n.winTarget w =
    if n.routeOk (n.rd (F.BRG_WIN_TARGET_POS w)) = true then .inl (n.rd (F.BRG_WIN_TARGET_POS w), n.dirNode (n.rd (F.BRG_WIN_TARGET_POS w)))
    else .inr bcNoRoute := by
  simp only [Node.winTarget, h0, hon, hm, he, ne_eq, not_true_eq_false, Bool.not_true, Bool.not_false, Bool.false_eq_true, if_true, if_false]
  cases n.routeOk (n.rd (F.BRG_WIN_TARGET_POS w)) <;> rfl

theorem Node.winTarget_byId (hm : n.on (F.BRG_WIN_CTRL_MODE w) = true) {id : Nat}
    (hid : n.rd (F.BRG_WIN_NODE_HI_NODE_HI w) * 2 ^ 32 + n.rd (F.BRG_WIN_NODE_LO_NODE_LO w) = id) : n.winTarget w =
    if n.routeOk (n.dirPos id) = true then .inl (n.dirPos id, id) else .inr bcNoRoute := by
  simp only [Node.winTarget, h0, hon, hm, hid, Bool.not_true, Bool.false_eq_true, if_false]
  cases n.routeOk (n.dirPos id) <;> rfl

end

end Sys2Proof.Machine
end

section
/-! PROOF. The bridge as initiator: tags, records, lines and windows (11 R377 to R400). -/

namespace Sys2Proof.Machine

open Sys2Proof

/-! ### What the lock registers do not touch -/

/-- `n` is `m` but for the lock registers, the lease, the bridge's own state and free values drawn. -/
structure Locking (m n : Node) : Prop where
  eq : ∃ r k t b, n = { m with regs := r, freeN := k, leaseAt := t, brg := b }
  rd : ∀ f : Fld, f.key / 32 ≠ 0x10600020 → n.rd f = m.rd f

namespace Locking

variable {m n a b c : Node}

theorem refl (n : Node) : Locking n n := ⟨⟨_, _, _, _, rfl⟩, fun _ _ => rfl⟩

theorem trans (h : Locking a b) (g : Locking b c) : Locking a c := by
  refine ⟨?_, fun f hf => (g.rd f hf).trans (h.rd f hf)⟩
  obtain ⟨_, _, _, _, hb⟩ := h.eq
  obtain ⟨_, _, _, _, hc⟩ := g.eq
  rw [hb] at hc
  exact ⟨_, _, _, _, hc⟩

theorem wr (n : Node) {f : Fld} (v : Nat) (h : f.key / 32 = 0x10600020) : Locking n (n.wr f v) :=
  ⟨⟨_, _, _, _, rfl⟩, fun _ hg => Node.rd_wr_ne n v fun e => hg (e ▸ h)⟩

theorem free (n : Node) (k : Nat) : Locking n { n with freeN := k } := ⟨⟨_, _, _, _, rfl⟩, fun _ _ => rfl⟩

theorem brg (n : Node) (b : Brg) : Locking n { n with brg := b } := ⟨⟨_, _, _, _, rfl⟩, fun _ _ => rfl⟩

theorem leased (n : Node) (x : Master) : Locking n (n.leased x) := by
  obtain ⟨t, h⟩ := n.leased_eq x
  rw [h]
  exact ⟨⟨_, _, _, _, rfl⟩, fun _ _ => rfl⟩

theorem on (h : Locking m n) {f : Fld} (hf : f.key / 32 ≠ 0x10600020) : n.on f = m.on f := by rw [Node.on, h.rd f hf, Node.on]

theorem epoch (h : Locking m n) : n.epoch = m.epoch := h.rd _ (by decide)

theorem ident (h : Locking m n) : n.ident = m.ident := by
  obtain ⟨_, _, _, _, hn⟩ := h.eq
  rw [hn]

theorem tabW (h : Locking m n) {t : Nat} (ht : t ≠ 3) (i j : Nat) : n.tabW t i j = m.tabW t i j := by
  obtain ⟨r, k, _, _, rfl⟩ := h.eq
  exact m.tabW_free (r := r) (k := k) ht i j

theorem dirPos (h : Locking m n) (id : Nat) : n.dirPos id = m.dirPos id := by
  simp only [Node.dirPos, h.epoch, h.rd F.TOP_INAUG_COUNT (by decide), Node.dirNode, h.tabW (show 8 ≠ 3 by decide)]

theorem bridgeOn (h : Locking m n) : n.bridgeOn = m.bridgeOn := by
  have hen := h.on (f := F.BRG_CTRL_EN) (by decide)
  obtain ⟨_, _, _, _, hn⟩ := h.eq
  rw [Node.bridgeOn, hen, hn, Node.bridgeOn]
  rfl

/-- The registers of a window are others. -/
theorem win {w : Nat} : (F.BRG_WIN_CTRL_MODE w).key / 32 ≠ 0x10600020 ∧ (F.BRG_WIN_TARGET_EPOCH w).key / 32 ≠ 0x10600020 ∧
    (F.BRG_WIN_TARGET_POS w).key / 32 ≠ 0x10600020 ∧ (F.BRG_WIN_NODE_HI_NODE_HI w).key / 32 ≠ 0x10600020 ∧
    (F.BRG_WIN_NODE_LO_NODE_LO w).key / 32 ≠ 0x10600020 ∧ (F.BRG_WIN_CTRL_EN w).key / 32 ≠ 0x10600020 ∧
    (F.BRG_WIN_CTRL_BASE w).key / 32 ≠ 0x10600020 ∧ (F.BRG_WIN_CTRL_MGR w).key / 32 ≠ 0x10600020 := by
  simp only [F.BRG_WIN_CTRL_MODE, F.BRG_WIN_TARGET_EPOCH, F.BRG_WIN_TARGET_POS, F.BRG_WIN_NODE_HI_NODE_HI, F.BRG_WIN_NODE_LO_NODE_LO,
    F.BRG_WIN_CTRL_EN, F.BRG_WIN_CTRL_BASE, F.BRG_WIN_CTRL_MGR]
  omega

theorem winTarget (h : Locking m n) (w : Nat) : n.winTarget w = m.winTarget w := by
  obtain ⟨hmode, hepoch, hpos, hhi, hlo, -, -, -⟩ := win (w := w)
  simp only [Node.winTarget, h.epoch, h.bridgeOn, h.on hmode, h.rd _ hepoch, h.rd _ hpos, h.rd _ hhi, h.rd _ hlo, h.dirPos, Node.routeOk,
    h.tabW (show 9 ≠ 3 by decide), Node.dirNode, h.tabW (show 8 ≠ 3 by decide)] <;> rfl

end Locking

/-! ### Lines (11 R397, R398) -/

theorem Node.dropLines_none {n : Node} {f : Line → Bool} (h : n.brg.lines.filter f = []) : n.dropLines f = n := by
  have hkeep : n.brg.lines.filter (fun l => !f l) = n.brg.lines := by
    refine List.filter_eq_self.mpr fun l hl => ?_
    rw [Bool.not_eq_true', Bool.eq_false_iff]
    exact List.filter_eq_nil_iff.mp h l hl
  rw [Node.dropLines, h, hkeep]
  rfl

theorem Node.dropLines_one {n : Node} {f : Line → Bool} {l : Line} (h : n.brg.lines.filter f = [l]) :
    let rest := { n with brg := { n.brg with lines := n.brg.lines.filter (fun l => !f l) } }
    n.dropLines f = if l.readMask = 0xFFFF then rest
      else (rest.inc F.BRG_PF_DISCARD_COUNT).wrs [(F.BRG_PF_LAST_WIN, l.win), (F.BRG_PF_LAST_LINE, l.addr / 64)] := by
  rw [Node.dropLines, h]
  rfl

/-! ### Tags (11 R387, R388) -/

/-- The node that has given tag `k` its generation `g` for an operation. -/
def Node.tagged (n : Node) (k g : Nat) (t : Tag) : Node :=
  { n with freeN := n.freeN + 1, brg := { n.brg with tags := FMap.put {} n.brg.tags k { t with gen := g, busy := true } } }

/-- A tag is free. -/
def Node.tagFree (n : Node) (k : Nat) : Prop := (FMap.get {} n.brg.tags k).busy = false

theorem Node.mem_freeTags {n : Node} {k : Nat} : k ∈ n.freeTags ↔ k < 1024 ∧ n.tagFree k := by
  simp [Node.freeTags, Node.tagFree]

theorem Node.freeTags_none {n : Node} (h : ∀ k, k < 1024 → ¬ n.tagFree k) : n.freeTags = [] :=
  List.eq_nil_iff_forall_not_mem.mpr fun k hk => h k (Node.mem_freeTags.mp hk).1 (Node.mem_freeTags.mp hk).2

theorem Node.takeTag_none {n : Node} (h : ∀ k, k < 1024 → ¬ n.tagFree k) (t : Tag) : n.takeTag t = none := by
  simp only [Node.takeTag, Node.freeTags_none h, List.isEmpty_nil, if_true]

theorem Node.takeTag_some {n : Node} (h : ∃ k, k < 1024 ∧ n.tagFree k) (t : Tag) :
    ∃ k g, k < 1024 ∧ n.tagFree k ∧ g = ((FMap.get {} n.brg.tags k).gen + 1) % 64 ∧ n.takeTag t = some (k + 1024 * g, n.tagged k g t) := by
  obtain ⟨j, hj⟩ := h
  have hmem := Node.mem_freeTags.mpr hj
  have hpos : 0 < n.freeTags.length := List.length_pos_of_mem hmem
  have hne : n.freeTags.isEmpty = false := by rw [List.isEmpty_eq_false_iff]; exact List.ne_nil_of_mem hmem
  have hlt : Config.freeNat n.freeN % n.freeTags.length < n.freeTags.length := Nat.mod_lt _ hpos
  have hk : n.freeTags.getD (Config.freeNat n.freeN % n.freeTags.length) 0 ∈ n.freeTags := by
    rw [List.getD_eq_getElem _ _ hlt]
    exact List.getElem_mem hlt
  obtain ⟨h1, h2⟩ := Node.mem_freeTags.mp hk
  refine ⟨_, _, h1, h2, rfl, ?_⟩
  simp only [Node.takeTag, hne, Bool.false_eq_true, if_false]
  rfl

section
variable {n : Node} {t : Tag}

theorem Node.tagIssue_shut (h : ¬ (n.on (F.BRG_WIN_CTRL_EN t.win) = true ∧ t.addr < 0x80000000)) : n.tagIssue t = n.tagRefused t bcBusErr := by
  have hshut : (!n.on (F.BRG_WIN_CTRL_EN t.win)) = true ∨ 0x80000000 ≤ t.addr := by
    cases hon : n.on (F.BRG_WIN_CTRL_EN t.win) with
    | false => exact .inl rfl
    | true => exact .inr (Nat.not_lt.mp fun hlt => h ⟨hon, hlt⟩)
  rw [Node.tagIssue, if_pos hshut]

variable (hen : n.on (F.BRG_WIN_CTRL_EN t.win) = true) (ha : t.addr < 0x80000000)
include hen ha

theorem Node.tagIssue_open : ¬ ((!n.on (F.BRG_WIN_CTRL_EN t.win)) = true ∨ 0x80000000 ≤ t.addr) := by
  rw [hen]
  simpa using ha

theorem Node.tagIssue_waits {pos id : Nat} (ht : n.winTarget t.win = .inl (pos, id)) (h : ∀ k, k < 1024 → ¬ n.tagFree k) :
    n.tagIssue t = { n with brg := { n.brg with waiting := n.brg.waiting ++ [t] } } := by
  rw [Node.tagIssue, if_neg (Node.tagIssue_open hen ha), ht]
  simp only [Node.takeTag_none h]

theorem Node.tagIssue_sends {pos id : Nat} (ht : n.winTarget t.win = .inl (pos, id)) (h : ∃ k, k < 1024 ∧ n.tagFree k)
    (hl : t.kind = 3 → n.brg.lines.filter (fun l => l.node == id && l.addr == t.addr / 64 * 64) = []) :
    ∃ k g, k < 1024 ∧ n.tagFree k ∧ g = ((FMap.get {} n.brg.tags k).gen + 1) % 64 ∧
      n.tagIssue t = (n.tagged k g { t with epoch := n.epoch, node := id }).bridgeSend pos (n.tagMsg t (k + 1024 * g) id) := by
  obtain ⟨k, g, hk, hfree, hg, htake⟩ := Node.takeTag_some h { t with epoch := n.epoch, node := id }
  refine ⟨k, g, hk, hfree, hg, ?_⟩
  rw [Node.tagIssue, if_neg (Node.tagIssue_open hen ha), ht]
  dsimp only
  rw [htake]
  dsimp only
  by_cases h3 : t.kind = 3
  · rw [if_pos (show t.kind = tkWriteUnlock from h3), Node.dropLineAt, Node.dropLines_none (n := n.tagged k g { t with epoch := n.epoch, node := id }) (hl h3)]
    rfl
  · rw [if_neg (show ¬ t.kind = tkWriteUnlock from h3)]
    rfl

end

/-! ### Records of failure (11 R381, R389, R392 to R394) -/

/-- The fields of a saturating count after one more. -/
def Node.oneMore (n : Node) (f : Fld) : Fld × Nat := (f, min (n.rd f + 1) (2 ^ f.w - 1))

theorem Node.inc_wrs (n : Node) (f : Fld) : n.inc f = n.wrs [n.oneMore f] := rfl

/-- What a failed read of an identity writes. -/
def Node.readFails (n : Node) (i w cause : Nat) : List (Fld × Nat) :=
  n.oneMore (F.BRG_RDSTAT_FAILS i) ::
    (if n.on (F.BRG_RDSTAT_VALID i) then [] else [(F.BRG_RDSTAT_VALID i, 1), (F.BRG_RDSTAT_CAUSE i, cause), (F.BRG_RDSTAT_WIN i, w)])

theorem Node.readFail_eq (n : Node) {i : Nat} (hi : i < 3) (w cause : Nat) : n.readFail i w cause = n.wrs (n.readFails i w cause) := by
  have hne : (F.BRG_RDSTAT_VALID i).key ≠ (F.BRG_RDSTAT_FAILS i).key := by
    simp only [F.BRG_RDSTAT_VALID, F.BRG_RDSTAT_FAILS]
    omega
  have hon : (n.inc (F.BRG_RDSTAT_FAILS i)).on (F.BRG_RDSTAT_VALID i) = n.on (F.BRG_RDSTAT_VALID i) := by
    rw [Node.on, Node.rd_inc_ne n hne, Node.on]
  rw [Node.readFail, if_neg (Nat.not_le.mpr hi)]
  dsimp only
  rw [hon, Node.readFails]
  split
  · rfl
  · rfl

theorem Node.readFails_congr {m n : Node} (i w cause : Nat) (hf : n.rd (F.BRG_RDSTAT_FAILS i) = m.rd (F.BRG_RDSTAT_FAILS i))
    (hv : n.rd (F.BRG_RDSTAT_VALID i) = m.rd (F.BRG_RDSTAT_VALID i)) : n.readFails i w cause = m.readFails i w cause := by
  rw [Node.readFails, Node.readFails, Node.oneMore, Node.oneMore, Node.on, Node.on, hf, hv]

/-- What an operation that fails leaves: of a read its record and the answer, of a step of a locked sequence its result. -/
def Node.tagFails (n m : Node) (t : Tag) (cause : Nat) : Node :=
  if t.kind < 2 then (m.wrs (n.readFails t.master.id t.win cause)).emit (.resp t.master false 0xFFFFFFFF)
  else m.wrs ([(F.BRG_LOCK_CTRL_RESULT, cause), (F.BRG_LOCK_CTRL_PENDING, 0)] ++ if t.kind = 2 then [] else [(F.BRG_LOCK_CTRL_OPEN, 0)])

theorem tagKind_read {t : Tag} (h : t.kind < 2) : t.kind = tkRead ∨ t.kind = tkLine := by
  simp only [tkRead, tkLine]
  omega

theorem tagKind_step {t : Tag} (h : ¬ t.kind < 2) : ¬ (t.kind = tkRead ∨ t.kind = tkLine) := by
  simp only [tkRead, tkLine]
  omega

/-- The end of a step of a locked sequence. -/
theorem Node.tagDone_step {n : Node} {t : Tag} (h : ¬ t.kind < 2) (cause : Nat) (data : List Byte) : n.tagDone t cause data =
    let m := n.wrs [(F.BRG_LOCK_CTRL_RESULT, cause), (F.BRG_LOCK_CTRL_PENDING, 0)]
    if t.kind = 2 then (if cause = bcOk then m.wrs [(F.BRG_LOCK_CTRL_OPEN, 1), (F.BRG_LOCK_RDATA_DATA, leAt data 0 4)] else m)
    else m.wrs [(F.BRG_LOCK_CTRL_OPEN, 0)] := by
  rw [Node.tagDone, if_neg (tagKind_step h)]
  rfl

theorem Node.tagDone_fails {n m : Node} {t : Tag} {cause : Nat} (data : List Byte) (hc : cause ≠ 0) (hid : t.kind < 2 → t.master.id < 3)
    (hread : t.kind < 2 → m.readFails t.master.id t.win cause = n.readFails t.master.id t.win cause) :
    m.tagDone t cause data = n.tagFails m t cause := by
  have hc' : ¬ cause = bcOk := hc
  by_cases hk : t.kind < 2
  · rw [Node.tagDone, if_pos (tagKind_read hk), if_neg hc', Node.readFail_eq m (hid hk), hread hk, Node.tagFails, if_pos hk]
  · rw [Node.tagDone_step hk, Node.tagFails, if_neg hk, wrs_append]
    dsimp only
    rw [if_neg hc']
    split
    · rfl
    · rfl

theorem Node.tagDone_word {n : Node} {t : Tag} (h : t.kind = 0) (data : List Byte) :
    n.tagDone t 0 data = n.emit (.resp t.master true (leAt data 0 4)) := by
  simp only [Node.tagDone, h, tkRead, tkLine, bcOk, true_or, if_true, if_neg (show ¬ (0 : Nat) = 1 by decide)]

theorem Node.tagDone_line {n : Node} {t : Tag} (h : t.kind = 1) (data : List Byte) :
    n.tagDone t 0 data = (n.lineStore t.win t.node t.addr data).emit (.resp t.master true (leAt data (t.addr % 64) 4)) := by
  simp only [Node.tagDone, h, tkRead, tkLine, bcOk, or_true, if_true]

theorem Node.lineStore_room {n : Node} (h : n.brg.lines.length < 16) (w node addr : Nat) (data : List Byte) :
    n.lineStore w node addr data = { n with brg := { n.brg with lines := n.brg.lines ++
      [{ win := w, node := node, addr := addr / 64 * 64, data := data, readMask := 2 ^ (addr % 64 / 4) }] } } := by
  have hoff : addr - addr / 64 * 64 = addr % 64 := by omega
  simp only [Node.lineStore, if_neg (Nat.not_le.mpr h), hoff]

/-- What an entry of the error log takes. -/
def errFields (k w pos addr epoch seq cause : Nat) : List (Fld × Nat) :=
  [(F.BRG_ERR_CAUSE_VALID k, 1), (F.BRG_ERR_CAUSE_CAUSE k, cause), (F.BRG_ERR_CAUSE_WIN k, w), (F.BRG_ERR_CAUSE_FARPOS k, pos),
    (F.BRG_ERR_ADDR_ADDR k, addr), (F.BRG_ERR_SEQ_EPOCH k, epoch), (F.BRG_ERR_SEQ_SEQ k, seq)]

/-- `k` is the lowest free entry of the error log. -/
structure Node.FreeEntry (n : Node) (k : Nat) : Prop where
  lt : k < 16
  free : n.on (F.BRG_ERR_CAUSE_VALID k) = false
  below : ∀ j, j < k → n.on (F.BRG_ERR_CAUSE_VALID j) = true

theorem Node.errLog_entry {n : Node} {k : Nat} (h : n.FreeEntry k) (w pos addr epoch seq cause : Nat) :
    n.errLog w pos addr epoch seq cause = n.wrs (errFields k w pos addr epoch seq cause) := by
  have hfind : (List.range 16).find? (fun k => !n.on (F.BRG_ERR_CAUSE_VALID k)) = some k := by
    rw [List.find?_range_eq_some]
    exact ⟨by rw [h.free]; rfl, List.mem_range.mpr h.lt, fun j hj => by rw [h.below j hj]; rfl⟩
  rw [Node.errLog, hfind]
  rfl

theorem Node.FreeEntry.congr {m n : Node} {k : Nat} (h : n.FreeEntry k) (hon : ∀ j, j < 16 → m.on (F.BRG_ERR_CAUSE_VALID j) = n.on (F.BRG_ERR_CAUSE_VALID j)) :
    m.FreeEntry k :=
  ⟨h.lt, (hon k h.lt).trans h.free, fun j hj => (hon j (Nat.lt_trans hj h.lt)).trans (h.below j hj)⟩

/-! ### Windows -/

theorem Node.tagRefused_read {n : Node} {t : Tag} (hk : t.kind < 2) (hid : t.master.id < 3) {cause : Nat} (hc : cause ≠ 0) :
    n.tagRefused t cause = (n.wrs (n.oneMore (F.BRG_WIN_REFUSED_COUNT t.win) :: n.readFails t.master.id t.win cause)).emit (.resp t.master false 0xFFFFFFFF) := by
  have hne : ∀ (f : Fld) {i : Nat}, i < 3 → f.key ≤ (F.BRG_RDSTAT_VALID i).key → (n.inc (F.BRG_WIN_REFUSED_COUNT t.win)).rd f = n.rd f := fun f i hi hf => by
    refine Node.rd_inc_ne n ?_
    simp only [F.BRG_WIN_REFUSED_COUNT, F.BRG_RDSTAT_VALID] at hf ⊢
    omega
  have hfails : (n.inc (F.BRG_WIN_REFUSED_COUNT t.win)).readFails t.master.id t.win cause = n.readFails t.master.id t.win cause :=
    Node.readFails_congr _ _ _ (hne _ hid (by simp only [F.BRG_RDSTAT_FAILS, F.BRG_RDSTAT_VALID]; omega)) (hne _ hid (Nat.le_refl _))
  rw [Node.tagRefused, Node.tagDone_fails [] hc (fun _ => hid) (fun _ => hfails), Node.tagFails, if_pos hk]
  rfl

/-- The cause of a refusal is not zero. -/
theorem Node.winTarget_cause {n : Node} {w c : Nat} (h : n.winTarget w = .inr c) : c ≠ 0 := by
  unfold Node.winTarget at h
  dsimp only at h
  split at h
  · cases h
    decide
  · split at h
    · cases h
      decide
    · split at h
      · split at h
        · cases h
          decide
        · split at h
          · cases h
            decide
          · cases h
      · split at h
        · cases h
          decide
        · cases h

/-- A place in a window: its number and the offset in it. -/
structure InWindow (a w off : Nat) : Prop where
  win : (a - 0x80000000) / 0x2000000 = w
  off : a % 0x2000000 = off
  low : 0x80000000 ≤ a
  high : a < 2 ^ 32
  word : a % 4 = 0

theorem InWindow.of {w off : Nat} (hw : w < 64) (ho : off < 0x2000000) (h4 : off % 4 = 0) : InWindow (0x80000000 + w * 0x2000000 + off) w off := by
  constructor <;> omega

theorem targetOf_window {a : Nat} (h1 : 0x80000000 ≤ a) (h2 : a < 2 ^ 32) : targetOf a = some .window := by
  unfold targetOf
  repeat rw [if_neg (by omega)]
  rw [if_pos (by omega)]

theorem Node.presented_local {n : Node} {x : Master} (h : x.id < 3) : n.presented x = x := by
  rw [Node.presented, if_neg (by omega)]

section
variable {s : State} {x : Master} {a w off : Nat} (hx : x.id < 3) (ha : InWindow a w off) (hd : s.node.dataOn = true)
include hx ha hd

theorem exec_windowRead (h : Passes s.node (wordRead x a)) : exec (.windowRead x a 4) s = s.to (s.node.winRead x a) := by
  have ht := targetOf_window ha.low ha.high
  have haccess : s.node.access (wordRead x a) = ⟨.later, s.node.winRead x a⟩ := by
    rw [Node.access_read h ht rfl (by simp [Access.sizeOk, Access.word, wordRead, ha.word]) (Access.inside_word rfl ha.word)]
    simp only [Node.busRead, wordRead, Node.presented_local hx, if_neg (Nat.not_le.mpr hx), hd, Bool.not_true, Bool.false_eq_true, if_false]
  have hbus : s.node.bus (wordRead x a) = (none, s.node.winRead x a) := by
    rw [Node.bus_of_free h.lock h.waits ha.high (.inr (Nat.le_refl 4)), haccess]
    rfl
  exact congrArg s.toBus hbus

theorem exec_windowWrite {v : Nat} (h : Passes s.node (wordWrite x a v)) :
    exec (.windowWrite x a 4 v) s = s.to ((s.node.leased x).winWrite x a (v % 2 ^ 32)) := by
  have ht := targetOf_window ha.low ha.high
  have haccess : s.node.access (wordWrite x a v) = ⟨.later, (s.node.leased x).winWrite x a (v % 2 ^ 32)⟩ := by
    rw [Node.access_write h ht rfl (by decide) (by simp [Access.sizeOk, Access.word, wordWrite, ha.word]) (Access.inside_word rfl ha.word) rfl]
    simp only [Node.busWrite, wordWrite, Node.presented_local hx, if_neg (Nat.not_le.mpr hx), Node.leased_dataOn, hd, Bool.not_true, Bool.false_eq_true, if_false]
  have hbus : s.node.bus (wordWrite x a v) = (none, (s.node.leased x).winWrite x a (v % 2 ^ 32)) := by
    rw [Node.bus_of_free h.lock h.waits ha.high (.inl rfl), haccess]
    rfl
  exact congrArg s.toBus hbus

end

end Sys2Proof.Machine
end

section
/-! PROOF. The bridge as initiator (O59): reads and writes through a window, answers, steps of a locked sequence (11 R377 to R400). -/

namespace Sys2Proof.Machine

open Sys2Proof

/-! ### Reads through a window (11 R380, R387, R397) -/

/-- A read of a window asks for a whole line. -/
def Node.readsLine (n : Node) (w addr : Nat) : Bool := n.on (F.BRG_WIN_CTRL_PF w) && decide (0x40000000 ≤ addr) && decide (addr < 0x80000000)

/-- The operation of a read at an offset of a window. -/
def Node.readTag (n : Node) (x : Master) (w off : Nat) : Tag :=
  { kind := b2n (n.readsLine w (n.farAddr w off)), win := w, addr := n.farAddr w off, master := x }

/-- The window passes an offset. -/
def Node.winOpen (n : Node) (w off : Nat) : Prop := n.on (F.BRG_WIN_CTRL_EN w) = true ∧ n.farAddr w off < 0x80000000

/-- The line held of a far node that holds a word. -/
def Node.heldLine (n : Node) (w id addr : Nat) : Option Line := n.brg.lines.find? (fun l => l.win == w && l.node == id && l.addr == addr / 64 * 64)

theorem Node.readTag_kind (n : Node) (x : Master) (w off : Nat) : (n.readTag x w off).kind < 2 := by
  simp only [Node.readTag]
  cases n.readsLine w (n.farAddr w off) <;> decide

theorem b2n_line (b : Bool) : (if b = true then tkLine else tkRead) = b2n b := by cases b <;> rfl

section
variable {n : Node} {x : Master} {a w off : Nat} (ha : InWindow a w off)
include ha

theorem Node.winRead_eq : n.winRead x a =
    if !n.on (F.BRG_WIN_CTRL_EN w) ∨ 0x80000000 ≤ n.farAddr w off then n.tagRefused (n.readTag x w off) bcBusErr else
    match n.winTarget w with
    | .inr c => n.tagRefused (n.readTag x w off) c
    | .inl (_, id) =>
      match (if n.readsLine w (n.farAddr w off) then n.lineRead w id (n.farAddr w off) else none) with
      | some (v, n) => n.emit (.resp x true v)
      | none => n.tagIssue (n.readTag x w off) := by
  rw [Node.winRead, ha.win, ha.off]
  simp only [Node.readTag, Node.readsLine, b2n_line]
  rfl

theorem Node.winRead_shut (h : ¬ n.winOpen w off) : n.winRead x a = n.tagRefused (n.readTag x w off) bcBusErr := by
  have hshut : (!n.on (F.BRG_WIN_CTRL_EN w)) = true ∨ 0x80000000 ≤ n.farAddr w off := by
    cases hon : n.on (F.BRG_WIN_CTRL_EN w) with
    | false => exact .inl rfl
    | true => exact .inr (Nat.not_lt.mp fun hlt => h ⟨hon, hlt⟩)
  rw [Node.winRead_eq ha, if_pos hshut]

theorem Node.winRead_open (h : n.winOpen w off) : n.winRead x a =
    match n.winTarget w with
    | .inr c => n.tagRefused (n.readTag x w off) c
    | .inl (_, id) =>
      match (if n.readsLine w (n.farAddr w off) then n.lineRead w id (n.farAddr w off) else none) with
      | some (v, n) => n.emit (.resp x true v)
      | none => n.tagIssue (n.readTag x w off) := by
  obtain ⟨hen, hlt⟩ := h
  rw [Node.winRead_eq ha, if_neg]
  rw [hen]
  simpa using hlt

theorem Node.winRead_refused (h : n.winOpen w off) {c : Nat} (ht : n.winTarget w = .inr c) : n.winRead x a = n.tagRefused (n.readTag x w off) c := by
  rw [Node.winRead_open ha h, ht]

theorem Node.winRead_issues (h : n.winOpen w off) {pos id : Nat} (ht : n.winTarget w = .inl (pos, id))
    (hl : n.readsLine w (n.farAddr w off) = false ∨ n.heldLine w id (n.farAddr w off) = none) : n.winRead x a = n.tagIssue (n.readTag x w off) := by
  have hnone : (if n.readsLine w (n.farAddr w off) = true then n.lineRead w id (n.farAddr w off) else none) = none := by
    rcases hl with hl | hl
    · rw [hl]
      rfl
    · have hread : n.lineRead w id (n.farAddr w off) = none := by
        unfold Node.heldLine at hl
        simp only [Node.lineRead, hl]
      rw [hread, ite_self]
  rw [Node.winRead_open ha h, ht]
  dsimp only
  rw [hnone]

theorem Node.winRead_held (h : n.winOpen w off) {pos id : Nat} {l : Line} (ht : n.winTarget w = .inl (pos, id))
    (hp : n.readsLine w (n.farAddr w off) = true) (hl : n.heldLine w id (n.farAddr w off) = some l) (hword : n.farAddr w off % 4 = 0) : n.winRead x a =
    Node.emit { n with brg := { n.brg with lines := n.brg.lines.erase l ++ [{ l with readMask := setBit l.readMask (n.farAddr w off % 64 / 4) true }] } }
      (.resp x true (leAt l.data (n.farAddr w off % 64) 4)) := by
  have hoff : n.farAddr w off - n.farAddr w off / 64 * 64 = n.farAddr w off % 64 := by omega
  have hmul : 4 * (n.farAddr w off % 64 / 4) = n.farAddr w off % 64 := by omega
  have hread : n.lineRead w id (n.farAddr w off) = some (leAt l.data (n.farAddr w off % 64) 4,
      { n with brg := { n.brg with lines := n.brg.lines.erase l ++ [{ l with readMask := setBit l.readMask (n.farAddr w off % 64 / 4) true }] } }) := by
    unfold Node.heldLine at hl
    simp only [Node.lineRead, hl, hoff, hmul]
  rw [Node.winRead_open ha h, ht]
  dsimp only
  rw [if_pos hp, hread]

end

/-- The message of a read. -/
def Node.asks (n : Node) (t : Tag) (id : Nat) : BMsg :=
  BMsg.mk 1 (n.rd (F.BRG_WIN_CTRL_MGR t.win) + (if t.kind = 1 then 2 else 0) + (if t.win ∈ n.brg.wrote then 4 else 0)) n.epoch n.ident id 0
    (if t.win ∈ n.brg.wrote then (n.rd (F.BRG_WIN_SEQ_NEXT t.win) + 65535) % 65536 else 0)
    (if t.kind = 1 then t.addr / 64 * 64 else t.addr) t.win 0 []

theorem Node.tagMsg_read {n : Node} {t : Tag} (hk : t.kind < 2) (tag id : Nat) : n.tagMsg t tag id = { n.asks t id with tag := tag } := by
  have hseq : (decide (t.win ∈ n.brg.wrote) && (t.kind == tkRead || t.kind == tkLine)) = decide (t.win ∈ n.brg.wrote) := by
    have hread : (t.kind == tkRead || t.kind == tkLine) = true := by
      simp only [tkRead, tkLine, Bool.or_eq_true, beq_iff_eq]
      omega
    rw [hread, Bool.and_true]
  have h2 : ¬ t.kind = tkLock := by simp only [tkLock]; omega
  have h3 : ¬ t.kind = tkWriteUnlock := by simp only [tkWriteUnlock]; omega
  have h4 : ¬ t.kind = tkUnlock := by simp only [tkUnlock]; omega
  simp only [Node.tagMsg, hseq, if_neg h2, if_neg h3, if_neg h4, decide_eq_true_eq] <;> rfl

/-- The message of a step of a locked sequence. -/
theorem Node.tagMsg_step {n : Node} {t : Tag} {code : Nat} (hk : t.kind = code + 1) (h1 : 1 ≤ code) (h3 : code ≤ 3) (tag id : Nat) : n.tagMsg t tag id =
    { ty := code + 2, flags := n.rd (F.BRG_WIN_CTRL_MGR t.win), epoch := n.epoch, src := n.ident, dst := id, tag := tag, addr := t.addr, win := t.win,
      data := if code = 2 then leBytes 4 (n.rd F.BRG_LOCK_WDATA_DATA) else [] } := by
  have hcode : code = 1 ∨ code = 2 ∨ code = 3 := by omega
  simp only [Node.tagMsg, hk]
  rcases hcode with rfl | rfl | rfl <;> simp [tkRead, tkLine, tkLock, tkWriteUnlock, tkUnlock, btLockRead, btWriteUnlock, btUnlock]

/-- A command sends an operation with a free tag of the next generation, and `after` comes after. -/
def IssuesTag (c : Instr) (s : State) (m : Node) (t : Tag) (pos id : Nat) (q : BMsg) (after : Node → Node) : Prop :=
  ∃ k g, k < 1024 ∧ m.tagFree k ∧ g = ((FMap.get {} m.brg.tags k).gen + 1) % 64 ∧
    Settles c s (after ((m.tagged k g { t with epoch := m.epoch, node := id }).bridgeSend pos { q with tag := k + 1024 * g }))

theorem IssuesTag.of_read {c : Instr} {s : State} {m : Node} {t : Tag} {pos id : Nat} (hexec : exec c s = s.to (m.tagIssue t)) (hk : t.kind < 2)
    (hen : m.on (F.BRG_WIN_CTRL_EN t.win) = true) (ha : t.addr < 0x80000000) (ht : m.winTarget t.win = .inl (pos, id))
    (h : ∃ k, k < 1024 ∧ m.tagFree k) : IssuesTag c s m t pos id (m.asks t id) (fun a => a) := by
  obtain ⟨k, g, hlt, hfree, hg, hissue⟩ := Node.tagIssue_sends hen ha ht h (fun h3 => by omega)
  refine ⟨k, g, hlt, hfree, hg, Settles.of_to ?_⟩
  rw [hexec, hissue, Node.tagMsg_read hk]

/-! ### Writes through a window (11 R381, R391, R394, R398) -/

/-- The position a window names, as the error log shows it. -/
def Node.farPos (n : Node) (w : Nat) : Nat :=
  if n.on (F.BRG_WIN_CTRL_MODE w) then n.dirPos (n.rd (F.BRG_WIN_NODE_HI_NODE_HI w) * 2 ^ 32 + n.rd (F.BRG_WIN_NODE_LO_NODE_LO w))
  else n.rd (F.BRG_WIN_TARGET_POS w)

theorem Locking.farPos {m n : Node} (h : Locking m n) (w : Nat) : n.farPos w = m.farPos w := by
  obtain ⟨hmode, -, hpos, hhi, hlo, -, -, -⟩ := Locking.win (w := w)
  simp only [Node.farPos, h.on hmode, h.rd _ hpos, h.rd _ hhi, h.rd _ hlo, h.dirPos]

theorem Node.winWrite_eq {n : Node} {x : Master} {a w off : Nat} (v : Nat) (ha : InWindow a w off) : n.winWrite x a v =
    if !n.on (F.BRG_WIN_CTRL_EN w) ∨ 0x80000000 ≤ n.farAddr w off then n.writeRefused x w (n.farAddr w off) bcBusErr else
    match n.winTarget w with
    | .inr c => n.writeRefused x w (n.farAddr w off) c
    | .inl (pos, id) =>
      if n.on (F.BRG_WIN_CTRL_FENCE w) then (n.inc (F.BRG_WIN_FENCE_DROPS_COUNT w)).emit (.resp x true 0) else
      let s := n.rd (F.BRG_WIN_SEQ_NEXT w)
      let m := ((n.dropLineAt id (n.farAddr w off)).bump (F.BRG_WIN_SEQ_NEXT w)).emit (.resp x true 0)
      let m := { m with brg := { m.brg with wrote := if w ∈ m.brg.wrote then m.brg.wrote else w :: m.brg.wrote } }
      m.bridgeSend pos { ty := btWrite, flags := m.rd (F.BRG_WIN_CTRL_MGR w), epoch := m.epoch, src := m.ident, dst := id,
                         seq := s, addr := n.farAddr w off, win := w, data := leBytes 4 v } := by
  rw [Node.winWrite, ha.win, ha.off] <;> rfl

theorem Node.writeRefused_entry {n : Node} {k : Nat} (h : n.FreeEntry k) (x : Master) (w far cause : Nat) : ∃ seq, n.writeRefused x w far cause =
    (Node.wrs { n with freeN := n.freeN + 1 } (n.oneMore (F.BRG_WIN_REFUSED_COUNT w) :: errFields k w (n.farPos w) far n.epoch seq cause)).emit (.resp x false 0) := by
  have hpos : Node.farPos { n with freeN := n.freeN + 1 } w = n.farPos w := (Locking.free n _).farPos w
  have hentry : (Node.inc { n with freeN := n.freeN + 1 } (F.BRG_WIN_REFUSED_COUNT w)).FreeEntry k := h.congr fun j hj => by
    rw [Node.on, Node.rd_inc_ne, Node.on]
    · rfl
    · simp only [F.BRG_ERR_CAUSE_VALID, F.BRG_WIN_REFUSED_COUNT]
      omega
  refine ⟨Config.freeNat n.freeN % 65536, ?_⟩
  rw [Node.writeRefused]
  dsimp only [Node.free]
  rw [Node.errLog_entry hentry, ← hpos, Node.wrs_cons]
  rfl

/-- The write that goes out of a window takes the next sequence number. -/
theorem Node.winWrite_sends {n : Node} {x : Master} {a w off : Nat} (v : Nat) (ha : InWindow a w off) (h : n.winOpen w off) {pos id : Nat}
    (ht : n.winTarget w = .inl (pos, id)) (hf : n.on (F.BRG_WIN_CTRL_FENCE w) = false)
    (hl : n.brg.lines.filter (fun l => l.node == id && l.addr == n.farAddr w off / 64 * 64) = []) : n.winWrite x a v =
    Node.bridgeSend { (n.wr (F.BRG_WIN_SEQ_NEXT w) (n.rd (F.BRG_WIN_SEQ_NEXT w) + 1)).emit (.resp x true 0) with
        brg := { n.brg with wrote := if w ∈ n.brg.wrote then n.brg.wrote else w :: n.brg.wrote } }
      pos { ty := 2, flags := n.rd (F.BRG_WIN_CTRL_MGR w), epoch := n.epoch, src := n.ident, dst := id, seq := n.rd (F.BRG_WIN_SEQ_NEXT w),
            addr := n.farAddr w off, win := w, data := leBytes 4 v } := by
  obtain ⟨hen, hlt⟩ := h
  have hmgr : (n.bump (F.BRG_WIN_SEQ_NEXT w)).rd (F.BRG_WIN_CTRL_MGR w) = n.rd (F.BRG_WIN_CTRL_MGR w) := by
    refine Node.rd_wr_ne n _ ?_
    simp only [F.BRG_WIN_CTRL_MGR, F.BRG_WIN_SEQ_NEXT]
    omega
  have hepoch : (n.bump (F.BRG_WIN_SEQ_NEXT w)).epoch = n.epoch := by
    refine Node.rd_wr_ne n _ ?_
    simp only [F.TOP_EPOCH_EPOCH, F.BRG_WIN_SEQ_NEXT]
    omega
  rw [Node.winWrite_eq v ha, if_neg (by rw [hen]; simpa using hlt), ht]
  dsimp only
  rw [hf, if_neg Bool.false_ne_true, Node.dropLineAt, Node.dropLines_none hl]
  refine congrArg (Node.bridgeSend _ pos) ?_
  rw [← hmgr, ← hepoch]
  rfl

theorem leBytes_mod : ∀ k v : Nat, leBytes k (v % 256 ^ k) = leBytes k v
  | 0, _ => rfl
  | k + 1, v => by
    have hhead : BitVec.ofNat 8 (v % 256 ^ (k + 1)) = BitVec.ofNat 8 v := by
      refine BitVec.eq_of_toNat_eq ?_
      rw [BitVec.toNat_ofNat, BitVec.toNat_ofNat]
      exact Nat.mod_mod_of_dvd _ (Dvd.intro_left (256 ^ k) rfl)
    have htail : v % 256 ^ (k + 1) / 256 = v / 256 % 256 ^ k := by
      rw [Nat.pow_succ', Nat.mod_mul_right_div_self]
    rw [leBytes, leBytes, hhead, htail, leBytes_mod k (v / 256)]

/-! ### A write past the lease -/

theorem Node.leased_farAddr (n : Node) (x : Master) (w off : Nat) : (n.leased x).farAddr w off = n.farAddr w off := by
  rw [Node.farAddr, Node.leased_rd, Node.farAddr]

section
variable {n : Node} {a w off : Nat} (x : Master) (v : Nat) (ha : InWindow a w off)
include ha

theorem Node.leased_winWrite_shut (h : ¬ n.winOpen w off) :
    (n.leased x).winWrite x a v = (n.leased x).writeRefused x w (n.farAddr w off) bcBusErr := by
  have hshut : (!n.on (F.BRG_WIN_CTRL_EN w)) = true ∨ 0x80000000 ≤ n.farAddr w off := by
    cases hon : n.on (F.BRG_WIN_CTRL_EN w) with
    | false => exact .inl rfl
    | true => exact .inr (Nat.not_lt.mp fun hlt => h ⟨hon, hlt⟩)
  rw [Node.winWrite_eq v ha, Node.leased_on, Node.leased_farAddr, if_pos hshut]

variable (h : n.winOpen w off)
include h

theorem Node.leased_winWrite_refused {c : Nat} (ht : n.winTarget w = .inr c) :
    (n.leased x).winWrite x a v = (n.leased x).writeRefused x w (n.farAddr w off) c := by
  obtain ⟨hen, hlt⟩ := h
  rw [Node.winWrite_eq v ha, Node.leased_on, Node.leased_farAddr, if_neg (by rw [hen]; simpa using hlt), (Locking.leased n x).winTarget, ht]

theorem Node.leased_winWrite_fenced {pos id : Nat} (ht : n.winTarget w = .inl (pos, id)) (hf : n.on (F.BRG_WIN_CTRL_FENCE w) = true) :
    (n.leased x).winWrite x a v = ((n.leased x).wrs [n.oneMore (F.BRG_WIN_FENCE_DROPS_COUNT w)]).emit (.resp x true 0) := by
  obtain ⟨hen, hlt⟩ := h
  rw [Node.winWrite_eq v ha, Node.leased_on, Node.leased_farAddr, if_neg (by rw [hen]; simpa using hlt), (Locking.leased n x).winTarget, ht]
  dsimp only
  rw [Node.leased_on, if_pos hf, Node.inc_wrs, Node.oneMore, Node.leased_rd, Node.oneMore]

theorem Node.leased_winWrite_sends {pos id : Nat} (ht : n.winTarget w = .inl (pos, id)) (hf : n.on (F.BRG_WIN_CTRL_FENCE w) = false)
    (hl : ∀ l ∈ n.brg.lines, ¬ (l.node = id ∧ l.addr = n.farAddr w off / 64 * 64)) : (n.leased x).winWrite x a (v % 2 ^ 32) =
    Node.bridgeSend { ((n.leased x).wr (F.BRG_WIN_SEQ_NEXT w) (n.rd (F.BRG_WIN_SEQ_NEXT w) + 1)).emit (.resp x true 0) with
        brg := { n.brg with wrote := if w ∈ n.brg.wrote then n.brg.wrote else w :: n.brg.wrote } }
      pos { ty := 2, flags := n.rd (F.BRG_WIN_CTRL_MGR w), epoch := n.epoch, src := n.ident, dst := id, seq := n.rd (F.BRG_WIN_SEQ_NEXT w),
            addr := n.farAddr w off, win := w, data := leBytes 4 v } := by
  have hlock := Locking.leased n x
  have hnone : (n.leased x).brg = n.brg := by
    obtain ⟨t, ht⟩ := n.leased_eq x
    rw [ht]
  have hopen : (n.leased x).winOpen w off := by
    rw [Node.winOpen, Node.leased_on, Node.leased_farAddr]
    exact h
  have hlines : (n.leased x).brg.lines.filter (fun l => l.node == id && l.addr == (n.leased x).farAddr w off / 64 * 64) = [] := by
    rw [hnone, Node.leased_farAddr]
    refine List.filter_eq_nil_iff.mpr fun l hl' hc => hl l hl' ?_
    simpa using hc
  rw [Node.winWrite_sends _ ha hopen (hlock.winTarget w ▸ ht) ((n.leased_on x _).trans hf) hlines, hnone, Node.leased_rd, Node.leased_rd, Node.leased_farAddr,
    hlock.epoch, hlock.ident, show leBytes 4 (v % 2 ^ 32) = leBytes 4 v from leBytes_mod 4 v]

end

section
variable {s : State} {x : Master} {a w off v : Nat} (hx : x.id < 3) (ha : InWindow a w off) (hd : s.node.dataOn = true) (h : Passes s.node (wordWrite x a v))
include hx ha hd h

/-- A write that is refused takes the lowest free entry of the error log. -/
theorem windowWrite_refused {k cause : Nat} (hk : s.node.FreeEntry k)
    (hc : (s.node.leased x).winWrite x a (v % 2 ^ 32) = (s.node.leased x).writeRefused x w (s.node.farAddr w off) cause) :
    ∃ seq, Refused (.windowWrite x a 4 v) s x (Node.wrs { s.node.leased x with freeN := s.node.freeN + 1 }
      (s.node.oneMore (F.BRG_WIN_REFUSED_COUNT w) :: errFields k w (s.node.farPos w) (s.node.farAddr w off) s.node.epoch seq cause)) := by
  obtain ⟨seq, hseq⟩ := Node.writeRefused_entry (hk.congr (fun j _ => s.node.leased_on x _)) x w (s.node.farAddr w off) cause
  refine ⟨seq, Settles.of_to ?_⟩
  rw [exec_windowWrite hx ha hd h, hc, hseq, (Locking.leased s.node x).farPos, (Locking.leased s.node x).epoch, Node.oneMore, Node.leased_rd]
  obtain ⟨t, ht⟩ := s.node.leased_eq x
  rw [ht]
  rfl

end

/-! ### Answers (11 R388, R389, R392, R396) -/

/-- An answer is the operation's of its tag. -/
structure Node.Answers (n : Node) (q : BMsg) : Prop where
  busy : (FMap.get {} n.brg.tags (q.tag % 1024)).busy = true
  gen : (FMap.get {} n.brg.tags (q.tag % 1024)).gen = q.tag / 1024
  src : q.src = n.ident

section
variable {n : Node} {q : BMsg} (p : Nat)

theorem Node.completionRx_late (h : ¬ n.Answers q) : n.completionRx p q = (n.inc F.BRG_IN_LATE_COUNT).pviol 10 p := by
  have hlate : (!(FMap.get {} n.brg.tags (q.tag % 1024)).busy) = true ∨ (FMap.get {} n.brg.tags (q.tag % 1024)).gen ≠ q.tag / 1024 ∨ q.src ≠ n.ident := by
    by_contra hc
    simp only [not_or, Bool.not_eq_true', Bool.not_eq_false, ne_eq, not_not] at hc
    exact h ⟨hc.1, hc.2.1, hc.2.2⟩
  rw [Node.completionRx]
  exact if_pos hlate

/-- The data bytes that an operation waits for. -/
def wantsBytes (t : Tag) : Nat := if t.kind = tkLine then 64 else if t.kind = tkRead ∨ t.kind = tkLock then 4 else 0

theorem Node.completionRx_done (h : n.Answers q) (hq : q.cause ≠ 0 ∨ q.data.length = wantsBytes (FMap.get {} n.brg.tags (q.tag % 1024))) :
    n.completionRx p q = (n.giveTag (q.tag % 1024)).tagDone (FMap.get {} n.brg.tags (q.tag % 1024)) q.cause q.data := by
  obtain ⟨hbusy, hgen, hsrc⟩ := h
  have hlate : ¬ ((!(FMap.get {} n.brg.tags (q.tag % 1024)).busy) = true ∨ (FMap.get {} n.brg.tags (q.tag % 1024)).gen ≠ q.tag / 1024 ∨ q.src ≠ n.ident) := by
    rw [hbusy, hgen, hsrc]
    simp
  have hlen : ¬ (q.cause = bcOk ∧ q.data.length ≠ wantsBytes (FMap.get {} n.brg.tags (q.tag % 1024))) := fun hc => hq.elim (fun h => h hc.1) fun h => hc.2 h
  rw [Node.completionRx]
  dsimp only
  rw [if_neg hlate]
  exact if_neg hlen

theorem Node.writeErrRx_entry (hsrc : q.src = n.ident) {k : Nat} (hk : n.FreeEntry k) : n.writeErrRx p q =
    (n.wrs (errFields k q.win (n.dirPos q.dst) q.addr q.epoch q.seq q.cause ++ [(F.BRG_WIN_CTRL_FENCE q.win, 1)])).msi 35 := by
  rw [Node.writeErrRx, if_neg (fun h => h hsrc), Node.errLog_entry hk, wrs_append]
  rfl

theorem Node.lockBrokenRx_step (h : n.Answers q) (hk : 2 ≤ (FMap.get {} n.brg.tags (q.tag % 1024)).kind) : n.lockBrokenRx q =
    ((n.giveTag (q.tag % 1024)).tagDone (FMap.get {} n.brg.tags (q.tag % 1024)) bcLockBroken []).wr F.BRG_LOCK_CTRL_OPEN 0 := by
  obtain ⟨hbusy, hgen, hsrc⟩ := h
  have hstep : decide (tkLock ≤ (FMap.get {} n.brg.tags (q.tag % 1024)).kind) = true := decide_eq_true hk
  simp only [Node.lockBrokenRx, hsrc, hbusy, hgen, hstep, ne_eq, not_true_eq_false, if_false, beq_self_eq_true, Bool.and_self, if_true]
  rfl

theorem Node.lockBrokenRx_idle (hsrc : q.src = n.ident) (h : (FMap.get {} n.brg.tags (q.tag % 1024)).busy = false) (ho : n.on F.BRG_LOCK_CTRL_OPEN = true) :
    n.lockBrokenRx q = n.wrs [(F.BRG_LOCK_CTRL_OPEN, 0), (F.BRG_LOCK_CTRL_RESULT, 7)] := by
  simp only [Node.lockBrokenRx, hsrc, h, ho, ne_eq, not_true_eq_false, if_false, Bool.false_and, Bool.false_eq_true, if_true]
  rfl

end

/-- The ingress port of a payload that comes without its frame. -/
def Node.drawnPort (n : Node) : Nat := Config.freeNat n.freeN % 23

theorem Node.bridgeRow_drawn {n : Node} {tys : List Nat} {b : List Byte} (h : byteAt b 0 ∈ tys) :
    n.bridgeRow tys b = (n.heardBy n.drawnPort b).bridgeRx n.drawnPort b := by
  have hport : n.drawnPort = Config.freeNat n.freeN % 23 := rfl
  rw [Node.bridgeRow, if_pos h, hport]
  simp only [Node.heardBy, Bool.and_eq_true, decide_eq_true_eq]

/-- A well-formed answer reaches the initiator. -/
theorem Node.bridgeRx_answer {n : Node} (p : Nat) {b : List Byte} (hd : n.dataOn = true) (hok : bmsgOk b = true) (h8 : 8 ≤ (bmsgOf b).ty) : n.bridgeRx p b =
    if (bmsgOf b).ty = btCompletion then n.completionRx p (bmsgOf b)
    else if (bmsgOf b).ty = btWriteErr then n.writeErrRx p (bmsgOf b)
    else if (bmsgOf b).ty = btLockBroken then n.lockBrokenRx (bmsgOf b)
    else n.farRequest (bmsgOf b) (p, b) := by
  have hin : ¬ ((!bmsgOk b) = true ∨ p = 21 ∧ (bmsgOf b).ty < btCompletion) := by
    rintro (h | ⟨-, h⟩)
    · rw [hok] at h
      cases h
    · exact absurd h (Nat.not_lt.mpr h8)
  simp only [Node.bridgeRx, hd, Bool.not_true, Bool.false_eq_true, if_false, if_neg hin]

section
variable {s : State} {b : List Byte} {q : BMsg} (hb : bmsgOf b = q) (hok : bmsgOk b = true) (hd : s.node.dataOn = true)
include hb hok hd

theorem exec_completion (hty : q.ty = 8) : exec (.completion b) s = s.to ((s.node.heardBy s.node.drawnPort b).completionRx s.node.drawnPort q) := by
  subst hb
  have hrow : exec (.completion b) s = s.to (s.node.bridgeRow [btCompletion] b) := rfl
  rw [hrow, Node.bridgeRow_drawn (tys := [btCompletion]) (List.mem_singleton.mpr hty), Node.bridgeRx_answer _ ((s.node.heardBy_hears _ b).dataOn.trans hd) hok (Nat.le_of_eq hty.symm)]
  exact congrArg s.to (if_pos hty)

theorem exec_writeErr (hty : q.ty = 9) : exec (.writeErr b) s = s.to ((s.node.heardBy s.node.drawnPort b).writeErrRx s.node.drawnPort q) := by
  subst hb
  have hrow : exec (.writeErr b) s = s.to (s.node.bridgeRow [btWriteErr] b) := rfl
  rw [hrow, Node.bridgeRow_drawn (tys := [btWriteErr]) (List.mem_singleton.mpr hty), Node.bridgeRx_answer _ ((s.node.heardBy_hears _ b).dataOn.trans hd) hok (by omega), hty]
  rfl

theorem exec_lockBroken (hty : q.ty = 10) : exec (.lockBroken b) s = s.to ((s.node.heardBy s.node.drawnPort b).lockBrokenRx q) := by
  subst hb
  have hrow : exec (.lockBroken b) s = s.to (s.node.bridgeRow [btLockBroken] b) := rfl
  rw [hrow, Node.bridgeRow_drawn (tys := [btLockBroken]) (List.mem_singleton.mpr hty), Node.bridgeRx_answer _ ((s.node.heardBy_hears _ b).dataOn.trans hd) hok (by omega), hty]
  rfl

end

/-! ### What an answer does at the node that has heard it -/

/-- `m` is `n` once the MAC has counted a message: the bridge and its registers are as they were. -/
structure Node.HeardAs (n m : Node) : Prop where
  hears : Hears n m
  rd : ∀ f : Fld, 32 * 0x10500000 ≤ f.key → m.rd f = n.rd f

theorem Node.heardBy_as (n : Node) {p : Nat} (b : List Byte) (hp : p < 23) : n.HeardAs (n.heardBy p b) := by
  refine ⟨n.heardBy_hears p b, fun f hf => n.heardBy_counted p b fun hk => ?_⟩
  have := hk.bounds
  omega

/-- `m` with tag `k` given back, its generation kept. -/
def Node.givenBack (n m : Node) (k : Nat) : Node :=
  { m with brg := { n.brg with tags := FMap.put {} n.brg.tags k { gen := (FMap.get {} n.brg.tags k).gen } } }

/-- The operation of a tag. -/
def Node.tagOf (n : Node) (k : Nat) : Tag := FMap.get {} n.brg.tags k

namespace Node.HeardAs

variable {n m : Node} {q : BMsg} {p : Nat} (h : n.HeardAs m)
include h

theorem give (k : Nat) : m.giveTag k = n.givenBack m k := by
  rw [Node.giveTag, h.hears.brg]
  rfl

theorem answers : m.Answers q ↔ n.Answers q := by
  have hbrg := h.hears.brg
  have hid := h.hears.ident
  exact ⟨fun ⟨h1, h2, h3⟩ => ⟨hbrg ▸ h1, hbrg ▸ h2, hid ▸ h3⟩, fun ⟨h1, h2, h3⟩ => ⟨hbrg.symm ▸ h1, hbrg.symm ▸ h2, hid.symm ▸ h3⟩⟩

theorem late (hn : ¬ n.Answers q) : m.completionRx p q = (m.wrs [n.oneMore F.BRG_IN_LATE_COUNT]).pviol 10 p := by
  rw [Node.completionRx_late p (mt h.answers.mp hn), Node.inc_wrs, Node.oneMore, h.rd _ (by decide), Node.oneMore]

theorem fails {t : Tag} (hid : t.kind < 2 → t.master.id < 3) {cause : Nat} (hc : cause ≠ 0) (k : Nat) (data : List Byte) :
    (m.giveTag k).tagDone t cause data = n.tagFails (n.givenBack m k) t cause := by
  rw [h.give]
  refine Node.tagDone_fails data hc hid fun hk => ?_
  refine Node.readFails_congr _ _ _ (h.rd _ ?_) (h.rd _ ?_)
  · simp only [F.BRG_RDSTAT_FAILS]
    omega
  · simp only [F.BRG_RDSTAT_VALID]
    omega

theorem failed (hm : n.Answers q) (hc : q.cause ≠ 0) (hid : (n.tagOf (q.tag % 1024)).kind < 2 → (n.tagOf (q.tag % 1024)).master.id < 3) :
    m.completionRx p q = n.tagFails (n.givenBack m (q.tag % 1024)) (n.tagOf (q.tag % 1024)) q.cause := by
  rw [Node.completionRx_done p (h.answers.mpr hm) (.inl hc), h.hears.brg]
  exact h.fails hid hc _ _

theorem done (hm : n.Answers q) (hc : q.cause = 0) (hlen : q.data.length = wantsBytes (n.tagOf (q.tag % 1024))) :
    m.completionRx p q = (n.givenBack m (q.tag % 1024)).tagDone (n.tagOf (q.tag % 1024)) 0 q.data := by
  rw [Node.completionRx_done p (h.answers.mpr hm) (.inr (by rw [h.hears.brg]; exact hlen)), h.hears.brg, h.give, hc]
  rfl

theorem doneWord (hm : n.Answers q) (hc : q.cause = 0) (hk : (n.tagOf (q.tag % 1024)).kind = 0) (hlen : q.data.length = 4) :
    m.completionRx p q = (n.givenBack m (q.tag % 1024)).emit (.resp (n.tagOf (q.tag % 1024)).master true (leAt q.data 0 4)) := by
  rw [h.done hm hc (by rw [hlen, wantsBytes, hk]; rfl), Node.tagDone_word hk]

theorem doneLine (hm : n.Answers q) (hc : q.cause = 0) (hk : (n.tagOf (q.tag % 1024)).kind = 1) (hlen : q.data.length = 64)
    (hroom : n.brg.lines.length < 16) : m.completionRx p q =
    let t := n.tagOf (q.tag % 1024)
    Node.emit { n.givenBack m (q.tag % 1024) with brg := { (n.givenBack m (q.tag % 1024)).brg with lines := n.brg.lines ++
        [{ win := t.win, node := t.node, addr := t.addr / 64 * 64, data := q.data, readMask := 2 ^ (t.addr % 64 / 4) }] } }
      (.resp t.master true (leAt q.data (t.addr % 64) 4)) := by
  rw [h.done hm hc (by rw [hlen, wantsBytes, hk]; rfl), Node.tagDone_line hk, Node.lineStore_room (n := n.givenBack m (q.tag % 1024)) hroom]
  rfl

theorem doneLock (hm : n.Answers q) (hc : q.cause = 0) (hk : (n.tagOf (q.tag % 1024)).kind = 2) (hlen : q.data.length = 4) :
    m.completionRx p q = (n.givenBack m (q.tag % 1024)).wrs [(F.BRG_LOCK_CTRL_RESULT, 0), (F.BRG_LOCK_CTRL_PENDING, 0), (F.BRG_LOCK_CTRL_OPEN, 1),
      (F.BRG_LOCK_RDATA_DATA, leAt q.data 0 4)] := by
  rw [h.done hm hc (by rw [hlen, wantsBytes, hk]; rfl), Node.tagDone_step (by omega)]
  dsimp only
  rw [if_pos hk]
  rfl

theorem doneUnlock (hm : n.Answers q) (hc : q.cause = 0) (hk : (n.tagOf (q.tag % 1024)).kind = 3 ∨ (n.tagOf (q.tag % 1024)).kind = 4)
    (hlen : q.data.length = 0) : m.completionRx p q =
    (n.givenBack m (q.tag % 1024)).wrs [(F.BRG_LOCK_CTRL_RESULT, 0), (F.BRG_LOCK_CTRL_PENDING, 0), (F.BRG_LOCK_CTRL_OPEN, 0)] := by
  have hwant : wantsBytes (n.tagOf (q.tag % 1024)) = 0 := by
    rw [wantsBytes]
    rcases hk with hk | hk <;> rw [hk] <;> rfl
  rw [h.done hm hc (hlen.trans hwant.symm), Node.tagDone_step (by omega)]
  dsimp only
  rw [if_neg (by omega)]
  rfl

/-- A WRITE_ERR is logged, fences its window and interrupts. -/
theorem writeErr (hd : n.dataOn = true) (hsrc : q.src = n.ident) {j : Nat} (hj : n.FreeEntry j) : m.writeErrRx p q =
    (m.wrs (errFields j q.win (n.dirPos q.dst) q.addr q.epoch q.seq q.cause ++ [(F.BRG_WIN_CTRL_FENCE q.win, 1)])).emit (.msix 35) := by
  have hentry : m.FreeEntry j := hj.congr fun i _ => by
    rw [Node.on, h.rd _ (by simp only [F.BRG_ERR_CAUSE_VALID]; omega), Node.on]
  have hon : (m.wrs (errFields j q.win (n.dirPos q.dst) q.addr q.epoch q.seq q.cause ++ [(F.BRG_WIN_CTRL_FENCE q.win, 1)])).dataOn = true := by
    rw [Node.dataOn, Node.on, Node.rd_wrs_ne]
    · exact h.hears.dataOn.trans hd
    · intro e he
      simp only [errFields, List.cons_append, List.nil_append, List.mem_cons, List.not_mem_nil, or_false] at he
      rcases he with rfl | rfl | rfl | rfl | rfl | rfl | rfl | rfl <;>
        simp only [F.PWR_ISLANDS_DATA, F.BRG_ERR_CAUSE_VALID, F.BRG_ERR_CAUSE_CAUSE, F.BRG_ERR_CAUSE_WIN, F.BRG_ERR_CAUSE_FARPOS, F.BRG_ERR_ADDR_ADDR,
          F.BRG_ERR_SEQ_EPOCH, F.BRG_ERR_SEQ_SEQ, F.BRG_WIN_CTRL_FENCE] <;> omega
  rw [Node.writeErrRx_entry p (hsrc.trans h.hears.ident.symm) hentry, h.hears.dirPos, Node.msi, if_pos hon]

theorem brokenStep (hm : n.Answers q) (hk : 2 ≤ (n.tagOf (q.tag % 1024)).kind) :
    m.lockBrokenRx q = (n.tagFails (n.givenBack m (q.tag % 1024)) (n.tagOf (q.tag % 1024)) 7).wr F.BRG_LOCK_CTRL_OPEN 0 := by
  have hbrg := h.hears.brg
  rw [Node.lockBrokenRx_step (h.answers.mpr hm) (by rw [hbrg]; exact hk), hbrg]
  exact congrArg (fun a => Node.wr a F.BRG_LOCK_CTRL_OPEN 0) (h.fails (fun hlt => absurd hk (Nat.not_le.mpr hlt)) (by decide) _ _)

theorem brokenIdle (hsrc : q.src = n.ident) (hb : (n.tagOf (q.tag % 1024)).busy = false) (ho : n.on F.BRG_LOCK_CTRL_OPEN = true) :
    m.lockBrokenRx q = m.wrs [(F.BRG_LOCK_CTRL_OPEN, 0), (F.BRG_LOCK_CTRL_RESULT, 7)] := by
  refine Node.lockBrokenRx_idle (hsrc.trans h.hears.ident.symm) (by rw [h.hears.brg]; exact hb) ?_
  rw [Node.on, h.rd _ (by decide)]
  exact ho

end Node.HeardAs

/-! ### Locked sequences (11 R395) -/

/-- The node that has opened a step of a locked sequence. -/
def Node.stepping (n : Node) (addr w : Nat) : Node :=
  (Node.wr { n with brg := { n.brg with lockAddr := addr, lockWin := some w } } F.BRG_LOCK_CTRL_PENDING 1)

/-- The address a step of a locked sequence goes to. -/
def Node.stepAddr (n : Node) (code : Nat) : Nat :=
  if code = 1 then n.rd (F.BRG_WIN_CTRL_BASE (n.rd F.BRG_LOCK_CTRL_WIN)) * 0x2000000 + 4 * n.rd F.BRG_LOCK_OFFSET_OFFSET else n.brg.lockAddr

/-- The window a step of a locked sequence goes through. -/
def Node.stepWin (n : Node) (code : Nat) : Nat :=
  if code = 1 then n.rd F.BRG_LOCK_CTRL_WIN else n.brg.lockWin.getD (n.rd F.BRG_LOCK_CTRL_WIN)

theorem Node.lockCmd_again {n : Node} {x : Master} {code : Nat} (hc : code = 1) (ho : n.on F.BRG_LOCK_CTRL_OPEN = true) : n.lockCmd x code = n.wr F.BRG_LOCK_CTRL_RESULT bcBusy := by
  rw [Node.lockCmd, if_neg (by omega), if_pos ⟨hc, ho⟩]

section
variable {n : Node} {x : Master} {code : Nat} (h1 : 1 ≤ code) (h3 : code ≤ 3)
include h1 h3

theorem Node.lockCmd_broken (hc : code ≠ 1) (ho : n.on F.BRG_LOCK_CTRL_OPEN = false) : n.lockCmd x code = n.wr F.BRG_LOCK_CTRL_RESULT bcLockBroken := by
  rw [Node.lockCmd, if_neg (by omega), if_neg (fun h => hc h.1), if_pos ⟨hc, by rw [ho]; rfl⟩]

theorem Node.lockCmd_issues (ho : code = 1 ↔ n.on F.BRG_LOCK_CTRL_OPEN = false) : n.lockCmd x code =
    (n.stepping (n.stepAddr code) (n.stepWin code)).tagIssue { kind := code + 1, win := n.stepWin code, addr := n.stepAddr code, master := x } := by
  have hbusy : ¬ (code = 1 ∧ n.on F.BRG_LOCK_CTRL_OPEN = true) := fun h => by
    rw [ho.mp h.1] at h
    exact absurd h.2 Bool.false_ne_true
  have hbroken : ¬ (code ≠ 1 ∧ (!n.on F.BRG_LOCK_CTRL_OPEN) = true) := fun h => by
    refine h.1 (ho.mpr ?_)
    simpa using h.2
  rw [Node.lockCmd, if_neg (by omega), if_neg hbusy, if_neg hbroken]
  rfl

end

/-- The node of a command in the lock registers, its window written back. -/
def Node.lockWritten (n : Node) (x : Master) (w : Nat) : Node := (n.leased x).wr F.BRG_LOCK_CTRL_WIN w

theorem Node.lockWritten_locking (n : Node) (x : Master) (w : Nat) : Locking n (n.lockWritten x w) :=
  (Locking.leased n x).trans (.wr _ _ (by decide))

theorem Node.lockWritten_brg (n : Node) (x : Master) (w : Nat) : (n.lockWritten x w).brg = n.brg := by
  obtain ⟨t, h⟩ := n.leased_eq x
  rw [Node.lockWritten, h]
  rfl

theorem Node.lockWritten_win (n : Node) (x : Master) {w : Nat} (hw : w < 64) : (n.lockWritten x w).rd F.BRG_LOCK_CTRL_WIN = w := by
  rw [Node.lockWritten, Node.rd_wr_same]
  exact Nat.mod_eq_of_lt hw

theorem Node.lockWritten_open (n : Node) (x : Master) (w : Nat) : (n.lockWritten x w).on F.BRG_LOCK_CTRL_OPEN = n.on F.BRG_LOCK_CTRL_OPEN := by
  rw [Node.lockWritten, Node.on, Node.rd_wr_ne _ _ (by decide), Node.leased_rd, Node.on]

theorem Node.lockWritten_step {n : Node} {w : Nat} (x : Master) (code : Nat) (hn : n.rd F.BRG_LOCK_CTRL_WIN = w) (hw : w < 64) :
    (n.lockWritten x w).stepAddr code = n.stepAddr code ∧ (n.lockWritten x w).stepWin code = n.stepWin code := by
  have hlock := n.lockWritten_locking x w
  obtain ⟨-, -, -, -, -, -, hbase, -⟩ := Locking.win (w := w)
  refine ⟨?_, ?_⟩
  · simp only [Node.stepAddr, n.lockWritten_win x hw, n.lockWritten_brg x w, hlock.rd _ hbase, hlock.rd F.BRG_LOCK_OFFSET_OFFSET (by decide), hn]
  · simp only [Node.stepWin, n.lockWritten_win x hw, n.lockWritten_brg x w, hn]

/-- The register's word with the code of a step. -/
theorem Node.lockWord (n : Node) : n.rwWord .BRG_LOCK_CTRL = n.rd F.BRG_LOCK_CTRL_WIN * 2 ^ 16 := Nat.add_zero _

/-- A step of a locked sequence that passes every check. -/
theorem exec_lockStep {s : State} {x : Master} {code w : Nat} {c : Instr} (hn : s.node.rd F.BRG_LOCK_CTRL_WIN = w) (hw : w < 64)
    (h : RegPasses s.node x .BRG_LOCK_CTRL (w * 2 ^ 16 + code)) (h1 : 1 ≤ code) (h3 : code ≤ 3)
    (hc : (code = 1 ∧ c = .lockRead x) ∨ (code = 2 ∧ c = .writeUnlock x) ∨ (code = 3 ∧ c = .unlock x)) :
    exec c s = s.to (((s.node.lockWritten x w).lockCmd (s.node.presented x) code).emit (.resp x true 0)) := by
  have hexec : exec c s = s.toBus (s.node.bus (wordWrite x (Reg.BRG_LOCK_CTRL).addr (w * 2 ^ 16 + code))) := by
    rw [← hn, ← s.node.lockWord]
    rcases hc with ⟨rfl, rfl⟩ | ⟨rfl, rfl⟩ | ⟨rfl, rfl⟩ <;> rfl
  have hcmd : cmdOf .BRG_LOCK_CTRL (w * 2 ^ 16 + code) = code := by
    have hmod : (w * 2 ^ 16 + code) % 16 = code := by omega
    simp only [cmdOf, hmod, if_pos h3]
  have hbits : bitsOf ((w * 2 ^ 16 + code) % 2 ^ 32) 21 16 = w := by
    change (w * 65536 + code) % 4294967296 / 65536 % 64 = w
    omega
  rw [hexec, Node.bus_command h (by decide) (by decide) (by decide) (by rw [hcmd]; omega), hcmd]
  simp only [Node.command, hbits]
  rfl

/-- What a step of a locked sequence asks of its far node. -/
def Node.stepMsg (n : Node) (code id : Nat) : BMsg :=
  { ty := code + 2, flags := n.rd (F.BRG_WIN_CTRL_MGR (n.stepWin code)), epoch := n.epoch, src := n.ident, dst := id, addr := n.stepAddr code,
    win := n.stepWin code, data := if code = 2 then leBytes 4 (n.rd F.BRG_LOCK_WDATA_DATA) else [] }

theorem Locking.stepping {m n : Node} (h : Locking m n) (addr w : Nat) : Locking m (n.stepping addr w) :=
  (h.trans (.brg _ _)).trans (.wr _ _ (by decide))

/-- `m` with tag `k` given to an operation, among the tags of `n`. -/
def Node.taggedFrom (n m : Node) (k g : Nat) (t : Tag) : Node :=
  { m with freeN := m.freeN + 1, brg := { m.brg with tags := FMap.put {} n.brg.tags k { t with gen := g, busy := true } } }

/-- A step of a locked sequence is sent, and answered at once. -/
theorem lockStep_issues {s : State} {x : Master} {code w : Nat} {c : Instr}
    (hexec : exec c s = s.to (((s.node.lockWritten x w).lockCmd (s.node.presented x) code).emit (.resp x true 0)))
    (hn : s.node.rd F.BRG_LOCK_CTRL_WIN = w) (hw : w < 64) (h1 : 1 ≤ code) (h3 : code ≤ 3)
    (ho : code = 1 ↔ s.node.on F.BRG_LOCK_CTRL_OPEN = false) (hen : s.node.on (F.BRG_WIN_CTRL_EN (s.node.stepWin code)) = true)
    (ha : s.node.stepAddr code < 0x80000000) (hfree : ∃ k, k < 1024 ∧ s.node.tagFree k) {pos id : Nat}
    (ht : s.node.winTarget (s.node.stepWin code) = .inl (pos, id))
    (hl : code = 2 → ∀ l ∈ s.node.brg.lines, ¬ (l.node = id ∧ l.addr = s.node.stepAddr code / 64 * 64)) :
    ∃ k g, k < 1024 ∧ s.node.tagFree k ∧ g = ((FMap.get {} s.node.brg.tags k).gen + 1) % 64 ∧ Settles c s
      ((Node.bridgeSend (s.node.taggedFrom ((s.node.lockWritten x w).stepping (s.node.stepAddr code) (s.node.stepWin code)) k g
        { kind := code + 1, win := s.node.stepWin code, addr := s.node.stepAddr code, master := s.node.presented x, epoch := s.node.epoch, node := id }) pos
        { s.node.stepMsg code id with tag := k + 1024 * g }).emit (.resp x true 0)) := by
  obtain ⟨haddr, hwin⟩ := Node.lockWritten_step x code hn hw
  rw [Node.lockCmd_issues h1 h3 (ho.trans (by rw [Node.lockWritten_open])), haddr, hwin] at hexec
  obtain ⟨m, hm⟩ : ∃ m, m = (s.node.lockWritten x w).stepping (s.node.stepAddr code) (s.node.stepWin code) := ⟨_, rfl⟩
  have hlock : Locking s.node m := hm ▸ (s.node.lockWritten_locking x w).stepping _ _
  have hbrg : m.brg = { s.node.brg with lockAddr := s.node.stepAddr code, lockWin := some (s.node.stepWin code) } := by
    rw [hm, ← s.node.lockWritten_brg x w]
    rfl
  have htags : m.brg.tags = s.node.brg.tags := by rw [hbrg]
  have hlines : m.brg.lines = s.node.brg.lines := by rw [hbrg]
  obtain ⟨-, -, -, -, -, henk, -, hmgr⟩ := Locking.win (w := s.node.stepWin code)
  rw [← hm] at hexec ⊢
  obtain ⟨t, htag⟩ : ∃ t : Tag, t = { kind := code + 1, win := s.node.stepWin code, addr := s.node.stepAddr code, master := s.node.presented x } := ⟨_, rfl⟩
  have hkind : t.kind = code + 1 := by rw [htag]
  have htwin : t.win = s.node.stepWin code := by rw [htag]
  have htaddr : t.addr = s.node.stepAddr code := by rw [htag]
  rw [← htag] at hexec
  obtain ⟨k, g, hk, hkf, hg, hissue⟩ := Node.tagIssue_sends (n := m) (t := t) (by rw [htwin, hlock.on henk]; exact hen) (by rw [htaddr]; exact ha)
    (by rw [htwin, hlock.winTarget]; exact ht) (by simpa only [Node.tagFree, htags] using hfree) (fun h3 => by
      rw [hlines, htaddr]
      refine List.filter_eq_nil_iff.mpr fun l hl' hc => hl (by omega) l hl' ?_
      simpa using hc)
  have hmsg : m.tagMsg t (k + 1024 * g) id = { s.node.stepMsg code id with tag := k + 1024 * g } := by
    rw [Node.tagMsg_step hkind h1 h3, htwin, htaddr, hlock.rd _ hmgr, hlock.epoch, hlock.ident, hlock.rd F.BRG_LOCK_WDATA_DATA (by decide)]
    rfl
  rw [hissue, hmsg, hlock.epoch] at hexec
  refine ⟨k, g, hk, by simpa only [Node.tagFree, htags] using hkf, htags ▸ hg, Settles.of_to ?_⟩
  rw [hexec, htag, Node.tagged, htags, Node.taggedFrom]

/-! ### The statement -/

/-- Settles O59: each event of the initiator runs to the node that the lemma of its clause names. -/
theorem bridgeInitiator : Obligations.BridgeInitiator := by
  unfold Obligations.BridgeInitiator
  refine ⟨fun q hty hflags hepoch hsrc hdst htag hseq haddr hwin hcause hdata =>
      ⟨bmsgOf_bytes hty hflags hepoch hsrc hdst htag hseq haddr hwin hcause hdata, q.bytes_length⟩,
    fun n pos p hpos hn hp => n.bridgeFrame_header hpos hn hp, fun n w h => Node.winTarget_atZero w h,
    fun n w h0 h => Node.winTarget_off w h0 ?_, fun n w hen hs h0 => ?_, fun s => ?_⟩
  · rcases h with h | h
    · rw [Node.bridgeOn, h, Bool.false_and]
    · rw [Node.bridgeOn, h, Bool.and_false]
  · have hon : n.bridgeOn = true := by rw [Node.bridgeOn, hen, hs]; rfl
    refine ⟨fun hm he => Node.winTarget_oldEpoch h0 hon hm he, fun hm he => ?_, fun hm p hp => ?_⟩
    · rw [Node.winTarget_byPos h0 hon hm he]
      exact ⟨fun hr => if_pos ((n.routeOk_iff _).mpr hr), fun hr => if_neg (mt (n.routeOk_iff _).mp hr)⟩
    · subst hp
      rw [Node.winTarget_byId h0 hon hm rfl]
      exact ⟨fun hr => if_pos ((n.routeOk_iff _).mpr hr), fun hr => if_neg (mt (n.routeOk_iff _).mp hr)⟩
  · intro n fr heard free satInc readFails fails issues asks logs opening entry
    have hn : n = s.node := rfl
    have hfree : free = n.tagFree := rfl
    have hasks : asks = n.asks := rfl
    have hfails : fails = n.tagFails := rfl
    clear_value free asks fails n
    subst hn hfree hasks hfails
    refine ⟨?_, fun h => ?_, fun t rest pos id hwait hkind hfree hen ha ht => ?_, fun k hk => ⟨fun hb => ?_, fun hb hid => ?_, ?_⟩, ?_,
      fun w line => ⟨fun h => ?_, fun l h => ?_⟩, fun d hd => ⟨fun hen hsub hout => ?_, fun hout => ?_⟩⟩
    · intro x w off v hx hw hoff h4 hd
      have ha := InWindow.of hw hoff h4
      refine ⟨fun hp => ⟨fun hshut => ?_, fun hon => ⟨fun c hc => ?_, fun pos id ht hl => ⟨fun hf => ?_, fun hf => ?_⟩⟩,
        fun hon hpf pos id l ht hl => ?_⟩, fun hp => ⟨fun hshut k hk => ?_, fun hon => ⟨fun c hc k hk => ?_, fun pos id ht => ⟨fun hf => ?_, fun hf hl => ?_⟩⟩⟩⟩
      · exact Settles.of_to ((exec_windowRead hx ha hd hp).trans (congrArg s.to ((Node.winRead_shut ha hshut).trans
          (Node.tagRefused_read (s.node.readTag_kind x w off) hx (by decide)))))
      · exact Settles.of_to ((exec_windowRead hx ha hd hp).trans (congrArg s.to ((Node.winRead_refused ha hon hc).trans
          (Node.tagRefused_read (s.node.readTag_kind x w off) hx (Node.winTarget_cause hc)))))
      · exact IssuesTag.of_read (t := s.node.readTag x w off) ((exec_windowRead hx ha hd hp).trans (congrArg s.to (Node.winRead_issues ha hon ht hl)))
          (s.node.readTag_kind x w off) hon.1 hon.2 ht hf
      · exact Settles.of_to ((exec_windowRead hx ha hd hp).trans (congrArg s.to ((Node.winRead_issues ha hon ht hl).trans
          (Node.tagIssue_waits (t := s.node.readTag x w off) hon.1 hon.2 ht hf))))
      · have hword : s.node.farAddr w off % 4 = 0 := by
          rw [Node.farAddr]
          omega
        exact Settles.of_to ((exec_windowRead hx ha hd hp).trans (congrArg s.to (Node.winRead_held ha hon ht hpf hl hword)))
      · exact windowWrite_refused hx ha hd hp ⟨hk.1, hk.2.1, hk.2.2⟩ (Node.leased_winWrite_shut x _ ha hshut)
      · exact windowWrite_refused hx ha hd hp ⟨hk.1, hk.2.1, hk.2.2⟩ (Node.leased_winWrite_refused x _ ha hon hc)
      · exact Settles.of_to ((exec_windowWrite hx ha hd hp).trans (congrArg s.to (Node.leased_winWrite_fenced x _ ha hon ht hf)))
      · exact Settles.of_to ((exec_windowWrite hx ha hd hp).trans (congrArg s.to (Node.leased_winWrite_sends x v ha hon ht hf hl)))
    · refine Settles.of_to (congrArg s.to ?_)
      rw [Node.tagWaitEnd]
      cases hw : s.node.brg.waiting with
      | nil => rfl
      | cons t r =>
        have hnone := Node.freeTags_none (h.resolve_left (by rw [hw]; exact List.cons_ne_nil _ _))
        simp only [hnone, List.isEmpty_nil, if_true]
    · have hexec : exec .tagWaitEnd s = s.to (Node.tagIssue { s.node with brg := { s.node.brg with waiting := rest } } t) := by
        refine congrArg s.to ?_
        obtain ⟨k, hk⟩ := hfree
        have hne : s.node.freeTags.isEmpty = false := by
          rw [List.isEmpty_eq_false_iff]
          exact List.ne_nil_of_mem (Node.mem_freeTags.mpr hk)
        simp only [Node.tagWaitEnd, hwait, hne, Bool.false_eq_true, if_false]
      exact IssuesTag.of_read hexec hkind hen ha (((Locking.brg s.node _).winTarget _).trans ht) hfree
    · refine Settles.of_to (congrArg s.to ((if_pos hk).trans ?_))
      rw [Node.tagTimeout]
      exact if_neg (by rw [hb]; exact Bool.false_ne_true)
    · refine Settles.of_to (congrArg s.to ((if_pos hk).trans ?_))
      rw [Node.tagTimeout]
      dsimp only
      rw [if_pos hb]
      exact Node.tagDone_fails [] (by decide) hid fun _ => rfl
    · intro b q hok hb hd htag
      subst htag
      have hp : s.node.drawnPort < 23 := Nat.mod_lt _ (by decide)
      have hgot := s.node.heardBy_as b hp
      refine ⟨s.node.drawnPort, hp, fun hty => ?_, fun hty hsrc j hj => ?_, fun hty hsrc => ⟨fun hm hk2 => ?_, fun hbusy ho => ?_⟩⟩
      · have hexec := exec_completion hb hok hd hty
        refine ⟨fun hm hc hid => ?_, fun hm hc hk0 hlen => ?_, fun hm hc hk1 hlen hroom => ?_, fun hm hc hk2 hlen => ?_, fun hm hc hk3 hlen => ?_, fun hm => ?_⟩
        · exact Settles.of_to (hexec.trans (congrArg s.to (hgot.failed ⟨hm.1, hm.2.1, hm.2.2⟩ hc hid)))
        · exact Settles.of_to (hexec.trans (congrArg s.to (hgot.doneWord ⟨hm.1, hm.2.1, hm.2.2⟩ hc hk0 hlen)))
        · exact Settles.of_to (hexec.trans (congrArg s.to (hgot.doneLine ⟨hm.1, hm.2.1, hm.2.2⟩ hc hk1 hlen hroom)))
        · exact Settles.of_to (hexec.trans (congrArg s.to (hgot.doneLock ⟨hm.1, hm.2.1, hm.2.2⟩ hc hk2 hlen)))
        · exact Settles.of_to (hexec.trans (congrArg s.to (hgot.doneUnlock ⟨hm.1, hm.2.1, hm.2.2⟩ hc hk3 hlen)))
        · exact Settles.of_to (hexec.trans (congrArg s.to (hgot.late fun h => hm ⟨h.busy, h.gen, h.src⟩)))
      · exact Settles.of_to ((exec_writeErr hb hok hd hty).trans (congrArg s.to (hgot.writeErr hd hsrc ⟨hj.1, hj.2.1, hj.2.2⟩)))
      · exact Settles.of_to ((exec_lockBroken hb hok hd hty).trans (congrArg s.to (hgot.brokenStep ⟨hm.1, hm.2.1, hm.2.2⟩ hk2)))
      · exact Settles.of_to ((exec_lockBroken hb hok hd hty).trans (congrArg s.to (hgot.brokenIdle hsrc hbusy ho)))
    · intro x code w c hn hw h hc
      have h1 : 1 ≤ code := by omega
      have h3 : code ≤ 3 := by omega
      have hexec := exec_lockStep hn hw h h1 h3 hc
      refine ⟨fun hc1 ho => ?_, fun hc1 ho => ?_, fun ho hen ha hfree pos id ht hl => ?_⟩
      · exact Settles.of_to (hexec.trans (congrArg (fun m => s.to (Node.emit m _)) (Node.lockCmd_again hc1 ((s.node.lockWritten_open x w).trans ho))))
      · exact Settles.of_to (hexec.trans (congrArg (fun m => s.to (Node.emit m _)) (Node.lockCmd_broken h1 h3 hc1 ((s.node.lockWritten_open x w).trans ho))))
      · subst hn
        exact lockStep_issues hexec rfl hw h1 h3 ho hen ha hfree ht hl
    · refine Settles.of_to (congrArg s.to ?_)
      exact Node.dropLines_none h
    · refine Settles.of_to (congrArg s.to ((Node.dropLines_one h).trans ?_))
      have hin : l ∈ s.node.brg.lines.filter (fun l => l.win == w && l.addr == 64 * line) := by
        rw [h]
        exact List.mem_singleton_self l
      have hhit := (List.mem_filter.mp hin).2
      simp only [Bool.and_eq_true, beq_iff_eq] at hhit
      obtain ⟨hwin, haddr⟩ := hhit
      rw [hwin, haddr, Nat.mul_div_cancel_left _ (by decide)]
      rfl
    · refine Settles.of_to (congrArg s.to ?_)
      simp only [Node.datasetTimeout, Dataset.en, Dataset.sub, hen, hsub, hout, Bool.not_false, Bool.and_self, if_true]
    · refine Settles.of_to (congrArg s.to ?_)
      simp only [Node.datasetTimeout, hout, Bool.not_true, Bool.and_false, Bool.false_eq_true, if_false]

end Sys2Proof.Machine
end

section
/-! PROOF. Drains and memory errors of the buffer (06 R224 to R227; 02 R68): what one event leaves. -/

namespace Sys2Proof.Machine

open Sys2Proof

/-! ### The start and the end of a drain -/

/-- A record leaves every field but the source of the newest as it was. -/
theorem Node.fault_on (n : Node) (a b c : Nat) {f : Fld} (hf : f.key ≠ F.MGT_FAULT_SOURCE.key) : (n.fault a b c).on f = n.on f := by
  rw [Node.on, Node.fault_rd _ _ _ _ _ hf, Node.on]

theorem bankKey_ne_source (b : Nat) : (F.FAB_BANK_STATE b).key ≠ F.MGT_FAULT_SOURCE.key := by
  simp only [F.FAB_BANK_STATE, F.MGT_FAULT_SOURCE]
  omega

/-- The bank is worn past its limits. -/
def Node.bankWorn (n : Node) (b : Nat) : Prop :=
  n.rd F.FAB_BANK_CE_LIMIT_LIMIT < n.rd (F.FAB_BANK_CE_HOUR b) ∨ 2 ≤ n.rd (F.FAB_BANK_UE24 b)

theorem Node.drainStart_eq {n : Node} {b : Nat} (hb : b < 26) (hd : n.dataOn = true) (hs : n.rd (F.FAB_BANK_STATE b) = 1) (hw : n.bankWorn b)
    (hwait : b ∉ n.fab.drainWait) : n.drainStart b =
    if n.on F.FAB_STATUS_DRAINING = true then { n.fault 7 1 b with fab := { n.fab with drainWait := n.fab.drainWait ++ [b] } }
    else (n.fault 7 1 b).drainBegin b := by
  have hready : ¬ ((!n.dataOn) = true ∨ 26 ≤ b ∨ n.rd (F.FAB_BANK_STATE b) ≠ 1 ∨ b ∈ n.fab.drainWait) := by
    rintro (h | h | h | h)
    · rw [hd] at h
      cases h
    · omega
    · exact h hs
    · exact hwait h
  have hworn : ¬ (n.rd (F.FAB_BANK_CE_HOUR b) ≤ n.rd F.FAB_BANK_CE_LIMIT_LIMIT ∧ n.rd (F.FAB_BANK_UE24 b) < 2) := fun h =>
    hw.elim (fun hc => Nat.not_lt.mpr h.1 hc) fun hc => Nat.not_lt.mpr hc h.2
  rw [Node.drainStart, if_neg hready, if_neg hworn]
  dsimp only
  rw [Node.fault_on _ _ _ _ (by decide), Node.fault_fab]

/-- What the start of a drain writes, with the spare that enters service. -/
def drainFields (b k : Nat) : List (Fld × Nat) :=
  [(F.FAB_BANK_STATE b, 2), (F.FAB_STATUS_DRAINING, 1), (F.FAB_STATUS_DRAIN_BANK, b), (F.FAB_BANK_STATE k, 1)]

theorem bankState_ne {j k : Nat} (h : j ≠ k) : (F.FAB_BANK_STATE j).key ≠ (F.FAB_BANK_STATE k).key := by
  simp only [F.FAB_BANK_STATE]
  omega

/-- The writes of registers and of the buffer's own state do not meet. -/
theorem Node.wr_setBank_drainCells (n : Node) (f g h i : Fld) (u v w x b k d : Nat) (y z : Bank) :
    let m := Node.wrs ((n.wr f u).setBank b y) [(g, v), (h, w)]
    let q := (n.wrs [(f, u), (g, v), (h, w), (i, x)]).setBank b y
    Node.setBank (Node.wr { m with fab := { m.fab with drainCells := d } } i x) k z = Node.setBank { q with fab := { q.fab with drainCells := d } } k z := rfl

/-- A drain takes the lowest spare into service. -/
theorem Node.drainBegin_eq {n : Node} {b k : Nat} (hs : n.rd (F.FAB_BANK_STATE b) = 1) (hk : k < 26) (hspare : n.rd (F.FAB_BANK_STATE k) = 0)
    (hlow : ∀ j, j < k → n.rd (F.FAB_BANK_STATE j) ≠ 0) :
    let draining := (n.wrs (drainFields b k)).setBank b {}
    n.drainBegin b = Node.setBank { draining with fab := { draining.fab with drainCells := 4096 - (n.bank b).free - (n.bank b).returning } } k
      { free := 0, returning := 4096 } := by
  have hne : k ≠ b := fun h => by
    rw [h] at hspare
    omega
  have hstate : ∀ j, ((n.wr (F.FAB_BANK_STATE b) 2).wrs [(F.FAB_STATUS_DRAINING, 1), (F.FAB_STATUS_DRAIN_BANK, b)]).rd (F.FAB_BANK_STATE j) =
      if j = b then 2 else n.rd (F.FAB_BANK_STATE j) := fun j => by
    rw [Node.rd_wrs_ne]
    · by_cases hj : j = b
      · rw [if_pos hj, hj, Node.rd_wr_same]
        rfl
      · rw [if_neg hj, Node.rd_wr_ne _ _ (bankState_ne hj)]
    · intro e he
      simp only [List.mem_cons, List.not_mem_nil, or_false] at he
      rcases he with rfl | rfl
      · simp only [F.FAB_BANK_STATE, F.FAB_STATUS_DRAINING]
        omega
      · simp only [F.FAB_BANK_STATE, F.FAB_STATUS_DRAIN_BANK]
        omega
  have hfind : (List.range 26).find? (fun j => ((n.wr (F.FAB_BANK_STATE b) 2).wrs [(F.FAB_STATUS_DRAINING, 1), (F.FAB_STATUS_DRAIN_BANK, b)]).rd
      (F.FAB_BANK_STATE j) == 0) = some k := by
    rw [List.find?_range_eq_some]
    refine ⟨?_, List.mem_range.mpr hk, fun j hj => ?_⟩
    · rw [hstate, if_neg hne, hspare]
      rfl
    · rw [hstate]
      split
      · rfl
      · simpa using hlow j hj
  have hcells : Config.cellsPerBank = 4096 := rfl
  rw [Node.drainBegin, Node.heldIn, hcells]
  generalize 4096 - (n.bank b).free - (n.bank b).returning = d
  generalize (4096 : Nat) = c
  obtain ⟨m, hm⟩ : ∃ m, m = Node.wrs ((n.wr (F.FAB_BANK_STATE b) 2).setBank b {}) [(F.FAB_STATUS_DRAINING, 1), (F.FAB_STATUS_DRAIN_BANK, b)] := ⟨_, rfl⟩
  have hrd : (fun j => m.rd (F.FAB_BANK_STATE j) == 0) = fun j => ((n.wr (F.FAB_BANK_STATE b) 2).wrs [(F.FAB_STATUS_DRAINING, 1),
      (F.FAB_STATUS_DRAIN_BANK, b)]).rd (F.FAB_BANK_STATE j) == 0 := by
    rw [hm]
    rfl
  have hfind' : (List.range 26).find? (fun j => Node.rd { m with fab := { m.fab with drainCells := d } }
      (F.FAB_BANK_STATE j) == 0) = some k := (congrArg (fun f => (List.range 26).find? f) hrd).trans hfind
  dsimp only
  rw [← hm, hfind', hm]
  exact Node.wr_setBank_drainCells n (F.FAB_BANK_STATE b) F.FAB_STATUS_DRAINING F.FAB_STATUS_DRAIN_BANK (F.FAB_BANK_STATE k) 2 1 b 1 b k d {} { free := 0, returning := c }

theorem Node.bankRetire_eq {n : Node} {b : Nat} (hd : n.on F.FAB_STATUS_DRAINING = true) (hb : n.rd F.FAB_STATUS_DRAIN_BANK = b)
    (hc : n.fab.drainCells = 0) (hw : n.fab.drainWait = []) : n.bankRetire =
    (Node.wrs { n with fab := { n.fab with moving := false } }
      [(F.FAB_BANK_STATE b, 3), (F.FAB_STATUS_DRAINING, 0), (F.FAB_STATUS_DRAIN_BANK, 0)]).fault 7 1 (b + 256) := by
  have hgo : ¬ ((!n.on F.FAB_STATUS_DRAINING) = true ∨ n.fab.drainCells ≠ 0) := by
    rw [hd, hc]
    simp
  rw [Node.bankRetire, if_neg hgo]
  dsimp only
  rw [hb]
  obtain ⟨m, hm⟩ : ∃ m, m = ((Node.wr { n with fab := { n.fab with moving := false } } (F.FAB_BANK_STATE b) 3).wrs
    [(F.FAB_STATUS_DRAINING, 0), (F.FAB_STATUS_DRAIN_BANK, 0)]).fault 7 1 (b + 256) := ⟨_, rfl⟩
  have hwait : m.fab.drainWait = [] := by
    rw [hm, Node.fault_fab]
    exact hw
  rw [← hm, hwait, hm]
  rfl


theorem Node.spareCell_eq {n : Node} {b : Nat} (hb : b < 26) (hs : n.rd (F.FAB_BANK_STATE b) = 1) (hr : 0 < (n.bank b).returning) :
    n.spareCell b = n.setBank b { n.bank b with free := (n.bank b).free + 1, returning := (n.bank b).returning - 1 } := by
  rw [Node.spareCell, if_pos ⟨hb, hs, hr⟩]

theorem Node.freezeDone_eq {n : Node} (h : n.fab.freezing = true) : n.freezeDone =
    { n with fab := { n.fab with freezing := false } }.wrs [(F.FAB_FREEZE_SEQ, n.rd F.FAB_FREEZE_SEQ + 1), (F.FAB_FREEZE_DONE, 1)] := by
  rw [Node.freezeDone, if_pos h] <;> rfl

/-! ### Errors in the packet buffer -/

/-- An uncorrectable error is found in a bank of the packet buffer, before what held the cell is looked at. -/
def Node.hurt (n : Node) (b : Nat) : Node :=
  ({ n with fab := { n.fab with ueAt := n.fab.ueAt ++ [(b, n.clock.fresh)] } }.wr (F.FAB_BANK_UE24 b)
    (min 255 ((n.fab.ueAt.filter (fun x : Nat × Nat => x.1 == b)).length + 1))).fault 0 2 (256 * b)

section
variable (n : Node) (b : Nat)

theorem Node.hurt_frame (i : Nat) : (n.hurt b).frame i = n.frame i := by
  rw [Node.frame, Node.hurt, Node.fault_fab] <;> rfl

theorem Node.hurt_chan (c : Nat) : (n.hurt b).chan c = n.chan c := by
  rw [Node.chan, Node.hurt, Node.fault_chans] <;> rfl

theorem Node.hurt_eng (e : Nat) : (n.hurt b).eng e = n.eng e := by
  rw [Node.eng, Node.hurt, Node.fault_engs] <;> rfl

end

theorem Node.scrub_packet {n : Node} {b a : Nat} (hb : b < 26) (hd : n.dataOn = true) {h : Holder} (hh : holderOf a = h) :
    n.scrub .packet b a true = (n.hurt b).cellBad b h := by
  have hon : ¬ (!n.memOn .packet) = true := by
    rw [Node.memOn, hd]
    simp
  rw [Node.scrub, if_neg hon, if_pos rfl, Node.scrubBad]
  dsimp only
  rw [if_neg (Nat.not_le.mpr hb), hh]
  congr 1
  rw [Node.hurt, Node.showUe]
  have hcount : ((n.fab.ueAt ++ [(b, n.clock.fresh)]).filter (fun e : Nat × Nat => e.1 == b)).length =
      (n.fab.ueAt.filter (fun x : Nat × Nat => x.1 == b)).length + 1 := by
    rw [List.filter_append, List.length_append]
    simp
  exact congrArg (fun v => (Node.wr { n with fab := { n.fab with ueAt := n.fab.ueAt ++ [(b, n.clock.fresh)] } } (F.FAB_BANK_UE24 b) (min 255 v)).fault 0 2 (256 * b)) hcount

/-- What an address of kind `k`, number `u` and low part `a` names. -/
theorem holder_parts {a k u : Nat} (ha : a < 2 ^ 32) (hk : k < 8) (hu : u < 32) :
    (a + k * 2 ^ 32 + u * 2 ^ 35) / 2 ^ 35 % 32 = u ∧ (a + k * 2 ^ 32 + u * 2 ^ 35) % 2 ^ 32 = a ∧ (a + k * 2 ^ 32 + u * 2 ^ 35) / 2 ^ 32 % 8 = k := by
  omega

section
variable {n : Node} {a b : Nat} (hb : b < 26) (hd : n.dataOn = true) (ha : a < 2 ^ 32)
include hb hd ha

theorem Node.scrub_frame (h : b ∈ (n.frame a).cells) : n.scrub .packet b a true = (n.hurt b).setFrame a { n.frame a with bad := true } := by
  have hh : holderOf a = .frame a := by
    have h1 : a % 2 ^ 32 = a := Nat.mod_eq_of_lt ha
    have h2 : a / 2 ^ 32 % 8 = 0 := by omega
    simp only [holderOf, h1, h2]
  rw [Node.scrub_packet hb hd hh, Node.cellBad]
  rw [Node.hurt_frame, if_pos h]

theorem Node.scrub_rxEntry {c : Nat} {x : FbEntry} (hc : c < 10) (hx : (n.chan c).rx.find? (fun z => z.id == a && !z.held) = some x)
    (h : b ∈ x.cells) : n.scrub .packet b (a + 2 ^ 32 + c * 2 ^ 35) true =
    (((n.hurt b).setChan c { n.chan c with rx := (n.chan c).rx.filter (fun y => y.id != a) }).returnCells x.cells).disc 8 := by
  have hh : holderOf (a + 2 ^ 32 + c * 2 ^ 35) = .rxEntry c a := by
    obtain ⟨h1, h2, h3⟩ := holder_parts (k := 1) (u := c) ha (by omega) (by omega)
    rw [Nat.one_mul] at h1 h2 h3
    simp only [holderOf, h1, h2, h3]
  rw [Node.scrub_packet hb hd hh, Node.cellBad]
  simp only [Node.hurt_chan, hx, if_pos h]

theorem Node.scrub_canTx {c : Nat} {x : CanTx} (hc : c < 10) (hx : (n.chan c).txq[a]? = some x) (ht : x.trying = true)
    (h : b ∈ x.cells) : n.scrub .packet b (a + 2 * 2 ^ 32 + c * 2 ^ 35) true =
    ((n.hurt b).setChan c { n.chan c with txq := (n.chan c).txq.set a { x with flush := true } }).disc 8 := by
  have hh : holderOf (a + 2 * 2 ^ 32 + c * 2 ^ 35) = .canTx c a := by
    obtain ⟨h1, h2, h3⟩ := holder_parts (k := 2) (u := c) ha (by omega) (by omega)
    simp only [holderOf, h1, h2, h3]
  rw [Node.scrub_packet hb hd hh, Node.cellBad]
  simp only [Node.hurt_chan, hx, ht, decide_eq_true h, Bool.not_true, Bool.false_eq_true, if_false, if_true]

theorem Node.scrub_output {e : Nat} {g : TxClosed} (he : e < 19) (hg : (n.eng e).act.outs[a]? = some (.frame g))
    (h : b ∈ g.cells) : n.scrub .packet b (a + 4 * 2 ^ 32 + e * 2 ^ 35) true = (n.hurt b).setEng e { n.eng e with
      act := { (n.eng e).act with outs := (n.eng e).act.outs.set a (.frame { g with bad := true }) } } := by
  have hh : holderOf (a + 4 * 2 ^ 32 + e * 2 ^ 35) = .output e a := by
    obtain ⟨h1, h2, h3⟩ := holder_parts (k := 4) (u := e) ha (by omega) (by omega)
    simp only [holderOf, h1, h2, h3]
  rw [Node.scrub_packet hb hd hh, Node.cellBad]
  simp only [Node.hurt_eng, hg, if_pos h]

theorem Node.scrub_txArea {e : Nat} (he : e < 19) (h : b ∈ (n.eng e).act.txCells) : n.scrub .packet b (a + 5 * 2 ^ 32 + e * 2 ^ 35) true =
    (n.hurt b).setEng e { n.eng e with act := { (n.eng e).act with txBad := true } } := by
  have hh : holderOf (a + 5 * 2 ^ 32 + e * 2 ^ 35) = .txArea e := by
    obtain ⟨h1, -, h3⟩ := holder_parts (k := 5) (u := e) ha (by omega) (by omega)
    simp only [holderOf, h1, h3]
  rw [Node.scrub_packet hb hd hh, Node.cellBad]
  simp only [Node.hurt_eng, if_pos h]

end

/-! ### Errors in the other memories -/

/-- An engine's signal store begins at a slot boundary, and its mailbox ends it. -/
theorem sigBase_aligned {b : Nat} (hb : b ≠ 18) : (∃ k, sigBase b = 16 * k) ∧ mboxBase b = sigBase b + 0x3F000 := by
  rw [mboxBase, if_neg hb, sigBase]
  have heng : ∃ k, engBase b = 16 * k := ⟨0x2000000 + 0x10000 * b, by rw [engBase, if_neg hb]; omega⟩
  obtain ⟨k, hk⟩ := heng
  rw [hk]
  exact ⟨⟨k + 0x4000, by omega⟩, by omega⟩

theorem Node.poisonAt_new {n : Node} {a : Nat} (h : a / 8 * 8 ∉ n.poison) : n.poisonAt a = { n with poison := a / 8 * 8 :: n.poison } := by
  rw [Node.poisonAt, if_neg h]

section
variable {n : Node} {a b : Nat} (hd : n.dataOn = true)
include hd

theorem Node.scrub_on {k : MemKind} (hk : n.memOn k = n.dataOn) : n.scrub k b a true = n.scrubBad k b a := by
  have hon : ¬ (!n.memOn k) = true := by
    rw [hk, hd]
    simp
  rw [Node.scrub, if_neg hon, if_pos rfl]

theorem Node.scrub_corrected (hb : b < 26) : n.scrub .packet b a false =
    n.wr (F.FAB_BANK_CE_HOUR b) (min (n.rd (F.FAB_BANK_CE_HOUR b) + 1) (2 ^ 16 - 1)) := by
  have hon : ¬ (!n.memOn .packet) = true := by
    rw [Node.memOn, hd]
    simp
  rw [Node.scrub, if_neg hon, if_neg (by decide), Node.scrubCorrected, if_pos rfl, if_pos hb, Node.inc, satInc]
  rfl

theorem Node.scrub_table (h : 0x40000000 ≤ a) (h' : a < 0x40600000) (hp : a / 8 * 8 ∉ n.poison) :
    n.scrub .table b a true = { n with poison := a / 8 * 8 :: n.poison }.fault 0 2 1 := by
  rw [Node.scrub_on hd rfl, Node.scrubBad]
  rw [if_pos ⟨h, by omega⟩, Node.poisonAt_new hp]

theorem Node.scrub_mailbox (hb : b < 18) (h : mboxBase b ≤ a) (h' : a < mboxBase b + 0x1000) (hp : a / 8 * 8 ∉ n.poison) :
    n.scrub .signal b a true = { n with poison := a / 8 * 8 :: n.poison }.fault 0 2 (2 + 256 * b) := by
  rw [Node.scrub_on hd rfl, Node.scrubBad]
  rw [if_pos ⟨hb, h, h'⟩, Node.poisonAt_new hp]

theorem Node.scrub_signal (hb : b < 18) (h : sigBase b ≤ a) (h' : a < sigBase b + 0x3F000) :
    n.scrub .signal b a true = { n with mem := wr64 n.mem (a / 16 * 16 + 8) (setBit (rd64 n.mem (a / 16 * 16 + 8)) 62 true) }.fault 0 2 (2 + 256 * b) := by
  obtain ⟨⟨k, hk⟩, hm⟩ := sigBase_aligned (Nat.ne_of_lt hb)
  have ha : sigBase b + (a - sigBase b) / 16 * 16 + 8 = a / 16 * 16 + 8 := by omega
  rw [Node.scrub_on hd rfl, Node.scrubBad]
  dsimp only
  have hbox : ¬ (b < 18 ∧ mboxBase b ≤ a ∧ a < mboxBase b + 0x1000) := fun hc => by omega
  have hin : ¬ (18 ≤ b ∨ a < sigBase b ∨ 258048 ≤ a - sigBase b) := by omega
  rw [if_neg hbox, if_neg hin, ha]

theorem Node.scrub_code (hb : b < 19) (h : codeBase b ≤ a) (h' : a < codeBase b + codeSize b) (hr : (n.eng b).phase = .running)
    (hp : a / 8 * 8 ∉ n.poison) : n.scrub .code b a true = { n.fault 0 2 (3 + 256 * b) with poison := a / 8 * 8 :: n.poison } := by
  have hbox : ¬ (b = 18 ∧ mboxBase 18 ≤ a ∧ a < mboxBase 18 + 0x1000) := by
    rintro ⟨rfl, h1, h2⟩
    have hc : codeBase 18 + codeSize 18 ≤ mboxBase 18 := by decide
    omega
  rw [Node.scrub_on hd rfl, Node.scrubBad]
  dsimp only
  have heng : (n.fault 0 2 (3 + 256 * b)).eng b = n.eng b := by rw [Node.eng, Node.fault_engs, Node.eng]
  have hpoison : (n.fault 0 2 (3 + 256 * b)).poison = n.poison := by simp
  rw [if_neg hbox, if_neg (by omega), heng, if_pos hr, Node.poisonAt_new (by rw [hpoison]; exact hp), hpoison]

end

/-- What setting bit 62 of a slot's status word leaves (02 R68). -/
theorem sigMarked (mem : List Host.Cell) (a : Nat) : let w := wr64 mem a (setBit (rd64 mem a) 62 true)
    (∀ q, q < 64 → bitOf (rd64 w a) q = (bitOf (rd64 mem a) q || q == 62)) ∧ ∀ y, y < a ∨ a + 8 ≤ y → memRead w y = memRead mem y := by
  refine ⟨fun q hq => ?_, fun y hy => memRead_wr64_outside _ _ _ hy⟩
  rw [rd64_wr64_same, bitOf_setBit_mod true hq]
  by_cases h : q = 62 <;> simp [h]

end Sys2Proof.Machine
end

section
/-! PROOF. The move of the cells left in a draining bank (06 R226). -/

namespace Sys2Proof.Machine

open Sys2Proof

/-- A chain after its cells of bank `b` have been moved. -/
structure CellsMoved (b : Nat) (l l' : List Nat) : Prop where
  length : l'.length = l.length
  off : b ∉ l'
  kept : ∀ j, j < l.length → l.getD j 0 ≠ b → l'.getD j 0 = l.getD j 0

theorem CellsMoved.nil (b : Nat) : CellsMoved b [] [] := ⟨rfl, List.not_mem_nil, fun _ _ _ => rfl⟩

theorem CellsMoved.trans {b : Nat} {l l' l'' : List Nat} (h : CellsMoved b l l') (h' : CellsMoved b l' l'') : CellsMoved b l l'' := by
  refine ⟨h'.length.trans h.length, h'.off, fun j hj hne => ?_⟩
  have hkept := h.kept j hj hne
  exact (h'.kept j (h.length ▸ hj) (hkept ▸ hne)).trans hkept

theorem CellsMoved.cons {b c d : Nat} {l l' : List Nat} (h : CellsMoved b l l') (hd : d ≠ b) (hc : c ≠ b → d = c) : CellsMoved b (c :: l) (d :: l') := by
  refine ⟨by simp [h.length], by simp [h.off, Ne.symm hd], fun j hj hne => ?_⟩
  cases j with
  | zero => exact hc hne
  | succ j => exact h.kept j (Nat.lt_of_succ_lt_succ hj) hne

/-- What a move of `k` cells off the draining bank leaves, but for what held them. -/
structure Frees (n m : Node) (k : Nat) : Prop where
  shape : ∃ banks, m = { n with fab := { n.fab with banks := banks, drainCells := n.fab.drainCells - k, frames := m.fab.frames }, freeN := m.freeN, chans := m.chans, engs := m.engs }
  cells : m.freeCells + k = n.freeCells

theorem Frees.refl (n : Node) : Frees n n 0 := ⟨⟨n.fab.banks, rfl⟩, rfl⟩

theorem Frees.trans {n m q : Node} {k k' : Nat} (h : Frees n m k) (h' : Frees m q k') : Frees n q (k + k') := by
  obtain ⟨x, hx⟩ := h.shape
  obtain ⟨y, hy⟩ := h'.shape
  refine ⟨⟨y, hy.trans ?_⟩, by have := h.cells; have := h'.cells; omega⟩
  rw [hx, Nat.sub_sub]

section
variable {n m : Node} {k : Nat} (h : Frees n m k)
include h

theorem Frees.rd (f : Fld) : m.rd f = n.rd f := by
  obtain ⟨x, hx⟩ := h.shape
  rw [hx] <;> rfl

theorem Frees.drainCells : m.fab.drainCells = n.fab.drainCells - k := by
  obtain ⟨x, hx⟩ := h.shape
  rw [hx]

theorem Frees.moving : m.fab.moving = n.fab.moving := by
  obtain ⟨x, hx⟩ := h.shape
  rw [hx]

theorem Frees.beingRead (i : Nat) : m.beingRead i = n.beingRead i := by
  obtain ⟨x, hx⟩ := h.shape
  rw [hx] <;> rfl

/-- What held the cells may change with the move. -/
theorem Frees.holders (fr : FMap Frame) (ch : FMap Chan) (en : FMap Eng) :
    Frees n { m with fab := { m.fab with frames := fr }, chans := ch, engs := en } k := by
  obtain ⟨x, hx⟩ := h.shape
  refine ⟨⟨x, ?_⟩, h.cells⟩
  rw [hx]

end

/-- What held the cells has not been written yet. -/
structure Spends (n m : Node) (k : Nat) : Prop extends Frees n m k where
  frames : m.fab.frames = n.fab.frames
  chans : m.chans = n.chans
  engs : m.engs = n.engs

theorem Spends.refl (n : Node) : Spends n n 0 := ⟨.refl n, rfl, rfl, rfl⟩

theorem Spends.trans {n m q : Node} {k k' : Nat} (h : Spends n m k) (h' : Spends m q k') : Spends n q (k + k') :=
  ⟨h.toFrees.trans h'.toFrees, h'.frames.trans h.frames, h'.chans.trans h.chans, h'.engs.trans h.engs⟩

/-- One cell is taken for one of the draining bank. -/
theorem Spends.cell (n : Node) {d : Nat} (hd : d ∈ n.serviceBanks) (hf : 0 < (n.bank d).free) :
    Spends n { n.cellTaken d with fab := { (n.cellTaken d).fab with drainCells := (n.cellTaken d).fab.drainCells - 1 } } 1 :=
  ⟨⟨⟨_, rfl⟩, (show (n.cellTaken d).freeCells + 1 = n.freeCells from Node.cellTaken_freeCells hd hf)⟩, rfl, rfl, rfl⟩

/-- A bank that drains is not in service. -/
theorem Node.ne_of_service {n : Node} {b d : Nat} (hs : n.rd (F.FAB_BANK_STATE b) ≠ 1) (hd : d ∈ n.serviceBanks) : d ≠ b := by
  rintro rfl
  exact hs (by simpa using (List.mem_filter.mp hd).2)

theorem moveChain_moves {b : Nat} (l : List Nat) {n : Node} (hs : n.rd (F.FAB_BANK_STATE b) ≠ 1) (hfree : l.count b ≤ n.freeCells) :
    CellsMoved b l (moveChain b l n).1 ∧ Spends n (moveChain b l n).2 (l.count b) := by
  induction l generalizing n with
  | nil => exact ⟨.nil b, .refl n⟩
  | cons c l ih =>
    by_cases hc : c = b
    · subst hc
      rw [List.count_cons_self] at hfree ⊢
      obtain ⟨d, hd, hpos, htake⟩ := Node.takeCell_of_free (n := n) (by omega)
      have hone := Spends.cell n hd hpos
      have hcells := hone.cells
      obtain ⟨hmoved, hspent⟩ := ih (by rw [hone.rd]; exact hs) (by omega)
      rw [moveChain, if_pos rfl, htake, Nat.add_comm]
      exact ⟨hmoved.cons (Node.ne_of_service hs hd) fun h => absurd rfl h, hone.trans hspent⟩
    · rw [List.count_cons_of_ne hc] at hfree ⊢
      obtain ⟨hmoved, hspent⟩ := ih hs hfree
      rw [moveChain, if_neg hc]
      exact ⟨hmoved.cons hc fun _ => rfl, hspent⟩

/-- The items of a list, each with its chain moved. -/
def EachMoved {α : Type} (b : Nat) (get : α → List Nat) (put : α → List Nat → α) (l l' : List α) : Prop :=
  EachTo (fun u v => ∃ c, v = put u c ∧ CellsMoved b (get u) c) l l'

theorem EachMoved.cons {α : Type} {b : Nat} {get : α → List Nat} {put : α → List Nat → α} {x : α} {c : List Nat} {l l' : List α}
    (hc : CellsMoved b (get x) c) (h : EachMoved b get put l l') : EachMoved b get put (x :: l) (put x c :: l') := by
  obtain ⟨hlen, heach⟩ := h
  refine ⟨by simp [hlen], fun j u v hu hv => ?_⟩
  cases j with
  | zero =>
    obtain rfl : x = u := by simpa using hu
    exact ⟨c, by simpa using hv.symm, hc⟩
  | succ j => exact heach j u v (by simpa using hu) (by simpa using hv)

theorem moveEach_moves {α : Type} {b : Nat} (get : α → List Nat) (put : α → List Nat → α) (l : List α) {n : Node}
    (hs : n.rd (F.FAB_BANK_STATE b) ≠ 1) (hfree : (l.map get).flatten.count b ≤ n.freeCells) :
    EachMoved b get put l (moveEach b get put l n).1 ∧ Spends n (moveEach b get put l n).2 ((l.map get).flatten.count b) := by
  induction l generalizing n with
  | nil => exact ⟨⟨rfl, fun j u v hu => by simp at hu⟩, .refl n⟩
  | cons x l ih =>
    rw [List.map_cons, List.flatten_cons, List.count_append] at hfree ⊢
    obtain ⟨hmoved, hspent⟩ := moveChain_moves (get x) hs (Nat.le_trans (Nat.le_add_right _ _) hfree)
    have hcells := hspent.cells
    obtain ⟨heach, hrest⟩ := ih (n := (moveChain b (get x) n).2) (by rw [hspent.rd]; exact hs) (by omega)
    exact ⟨.cons hmoved heach, hspent.trans hrest⟩

/-! ### Frames -/

/-- A frame after the move. -/
def FrameMoved (b : Nat) (f g : Frame) : Prop := g = { f with cells := g.cells } ∧ CellsMoved b f.cells g.cells

theorem FrameMoved.trans {b : Nat} {f g h : Frame} (hfg : FrameMoved b f g) (hgh : FrameMoved b g h) : FrameMoved b f h := by
  obtain ⟨h1, h2⟩ := hfg
  obtain ⟨h3, h4⟩ := hgh
  refine ⟨?_, h2.trans h4⟩
  rw [h3, h1]

/-- Cells of bank `b` that leave it with a frame. -/
def Node.frameLeaving (n : Node) (b i : Nat) : Nat := if n.beingRead i = true then 0 else (n.frame i).cells.count b

/-- A drain of bank `b` has come to the move of its cells. -/
structure Draining (b : Nat) (n : Node) : Prop where
  moving : n.fab.moving = true
  on : n.on F.FAB_STATUS_DRAINING = true
  bank : n.rd F.FAB_STATUS_DRAIN_BANK = b
  state : n.rd (F.FAB_BANK_STATE b) ≠ 1

theorem Draining.of_frees {b k : Nat} {n m : Node} (h : Draining b n) (hf : Frees n m k) : Draining b m := by
  refine ⟨hf.moving.trans h.moving, ?_, (hf.rd _).trans h.bank, by rw [hf.rd]; exact h.state⟩
  rw [Node.on, hf.rd]
  exact h.on

section
variable {b : Nat} {n : Node} (h : Draining b n)
include h

theorem Draining.moveFrame_read {i : Nat} (hr : n.beingRead i = true) : n.moveFrame i = n := by
  rw [Node.moveFrame, hr]
  simp

theorem Draining.moveFrame {i : Nat} (hfree : n.frameLeaving b i ≤ n.freeCells) :
    Frees n (n.moveFrame i) (n.frameLeaving b i) ∧ (n.beingRead i = false → FrameMoved b (n.frame i) ((n.moveFrame i).frame i)) ∧
    (∀ j, j ≠ i ∨ n.beingRead i = true → (n.moveFrame i).frame j = n.frame j) ∧ (n.moveFrame i).chans = n.chans ∧ (n.moveFrame i).engs = n.engs := by
  by_cases hr : n.beingRead i = true
  · rw [h.moveFrame_read hr, Node.frameLeaving, if_pos hr]
    exact ⟨.refl n, fun hno => absurd (hr.symm.trans hno) (by decide), fun _ _ => rfl, rfl, rfl⟩
  · rw [Node.frameLeaving, if_neg hr] at hfree ⊢
    obtain ⟨hmoved, hspent⟩ := moveChain_moves (n.frame i).cells h.state hfree
    obtain ⟨r, hr'⟩ : ∃ r, r = moveChain b (n.frame i).cells n := ⟨_, rfl⟩
    have heq : n.moveFrame i = r.2.setFrame i { r.2.frame i with cells := r.1 } := by
      have hgo : (n.fab.moving && n.on F.FAB_STATUS_DRAINING && !n.beingRead i) = true := by simp [h.moving, h.on, hr]
      rw [Node.moveFrame, if_pos hgo, h.bank, hr']
    rw [← hr'] at hmoved hspent
    have hframe : r.2.frame i = n.frame i := by rw [Node.frame, hspent.frames, Node.frame]
    rw [heq, hframe]
    refine ⟨hspent.toFrees.holders _ _ _, fun _ => ?_, fun j hj => ?_, hspent.chans, hspent.engs⟩
    · rw [Node.frame_setFrame_same]
      exact ⟨rfl, hmoved⟩
    · rw [Node.frame_setFrame_ne _ _ (hj.resolve_right hr), Node.frame, hspent.frames, Node.frame]

end

/-- Frames whose identifiers a list names are moved, once each however often it names them. -/
theorem Draining.moveFrames {b : Nat} (l : List Nat) {n : Node} (h : Draining b n) (hfree : ∑ i ∈ l.toFinset, n.frameLeaving b i ≤ n.freeCells) :
    let m := l.foldl Node.moveFrame n
    Frees n m (∑ i ∈ l.toFinset, n.frameLeaving b i) ∧ (∀ i ∈ l, n.beingRead i = false → FrameMoved b (n.frame i) (m.frame i)) ∧
    (∀ i, i ∉ l ∨ n.beingRead i = true → m.frame i = n.frame i) ∧ m.chans = n.chans ∧ m.engs = n.engs := by
  induction l generalizing n with
  | nil => exact ⟨.refl n, fun i hi => absurd hi List.not_mem_nil, fun _ _ => rfl, rfl, rfl⟩
  | cons a l ih =>
    have hsum : ∑ i ∈ (a :: l).toFinset, n.frameLeaving b i = n.frameLeaving b a + ∑ i ∈ l.toFinset.erase a, n.frameLeaving b i := by
      rw [List.toFinset_cons, ← Finset.add_sum_erase _ _ (Finset.mem_insert_self a _), Finset.erase_insert_eq_erase]
    rw [hsum] at hfree ⊢
    obtain ⟨hfrees, hmoved, hkept, hchans, hengs⟩ := h.moveFrame (i := a) (by omega)
    have hcells := hfrees.cells
    have hleft : ∑ i ∈ l.toFinset, (n.moveFrame a).frameLeaving b i = ∑ i ∈ l.toFinset.erase a, n.frameLeaving b i := by
      have hzero : (n.moveFrame a).frameLeaving b a = 0 := by
        rw [Node.frameLeaving, hfrees.beingRead]
        split
        · rfl
        · next hr => exact List.count_eq_zero_of_not_mem (hmoved (by simpa using hr)).2.off
      rw [← Finset.sum_erase _ hzero]
      refine Finset.sum_congr rfl fun i hi => ?_
      rw [Node.frameLeaving, Node.frameLeaving, hfrees.beingRead, hkept i (.inl (Finset.ne_of_mem_erase hi))]
    obtain ⟨hrest, hmoves, hkeeps, hc, he⟩ := ih (h.of_frees hfrees) (by omega)
    rw [hleft] at hrest
    refine ⟨hfrees.trans hrest, fun i hi hr => ?_, fun i hi => ?_, hc.trans hchans, he.trans hengs⟩
    · have hr' : (n.moveFrame a).beingRead i = false := (hfrees.beingRead i).trans hr
      have hfirst : i = a → FrameMoved b (n.frame i) ((n.moveFrame a).frame i) := fun hia => hia ▸ hmoved (hia ▸ hr)
      by_cases hl : i ∈ l
      · by_cases hia : i = a
        · exact (hfirst hia).trans (hmoves i hl hr')
        · have := hmoves i hl hr'
          rwa [hkept i (.inl hia)] at this
      · have hia : i = a := (List.mem_cons.mp hi).resolve_right hl
        have := hkeeps i (.inl hl)
        rw [List.foldl_cons, this]
        exact hfirst hia
    · have hread : ∀ j, (n.moveFrame a).beingRead j = n.beingRead j := hfrees.beingRead
      rw [List.foldl_cons]
      rcases hi with hi | hi
      · rw [hkeeps i (.inl fun hl => hi (List.mem_cons_of_mem _ hl)), hkept i (.inl fun hia => hi (hia ▸ List.mem_cons_self))]
      · rw [hkeeps i (.inr ((hread i).trans hi))]
        by_cases hia : i = a
        · exact hkept i (.inr (hia ▸ hi))
        · exact hkept i (.inl hia)


/-! ### Channels and activations -/

/-- A field-bus channel after the move. -/
structure ChanMoved (b : Nat) (x y : Chan) : Prop where
  rest : y = { x with txq := y.txq, rx := y.rx, srcCells := y.srcCells }
  txq : EachTo (fun u v => v = { u with cells := v.cells } ∧ CellsMoved b u.cells v.cells) x.txq y.txq
  rx : EachTo (fun u v => v = { u with cells := v.cells } ∧ CellsMoved b u.cells v.cells) x.rx y.rx
  src : EachTo (fun u v => v.1 = u.1 ∧ CellsMoved b u.2 v.2) x.srcCells y.srcCells

/-- An engine after the move. -/
structure EngMoved (b : Nat) (x y : Eng) : Prop where
  rest : y = { x with act := { x.act with txCells := y.act.txCells, backCells := y.act.backCells, outs := y.act.outs } }
  tx : CellsMoved b x.act.txCells y.act.txCells
  back : CellsMoved b x.act.backCells y.act.backCells
  outs : EachTo (fun u v => match u, v with
    | .frame g, .frame h => h = { g with cells := h.cells } ∧ CellsMoved b g.cells h.cells
    | g, h => h = g) x.act.outs y.act.outs

/-- The cells a channel holds. -/
def chanCells (x : Chan) : List Nat := (x.txq.map (·.cells) ++ x.rx.map (·.cells) ++ x.srcCells.map (·.2)).flatten

/-- The cells an activation holds. -/
def engCells (x : Eng) : List Nat := x.act.txCells ++ x.act.backCells ++ heldCells x.act

theorem EachTo.imp {α : Type} {r r' : α → α → Prop} {l l' : List α} (h : EachTo r l l') (hr : ∀ u v, r u v → r' u v) : EachTo r' l l' :=
  ⟨h.1, fun j u v hu hv => hr u v (h.2 j u v hu hv)⟩

theorem moveChan_moves {n : Node} {b c : Nat} (hs : n.rd (F.FAB_BANK_STATE b) ≠ 1) (hfree : (chanCells (n.chan c)).count b ≤ n.freeCells) :
    Frees n (moveChan b n c) ((chanCells (n.chan c)).count b) ∧ ChanMoved b (n.chan c) ((moveChan b n c).chan c) ∧
    (∀ j, j ≠ c → (moveChan b n c).chan j = n.chan j) ∧ (moveChan b n c).fab.frames = n.fab.frames ∧ (moveChan b n c).engs = n.engs := by
  have hsum : (chanCells (n.chan c)).count b = ((n.chan c).txq.map CanTx.cells).flatten.count b + ((n.chan c).rx.map FbEntry.cells).flatten.count b +
      ((n.chan c).srcCells.map (fun e : Nat × List Nat => e.2)).flatten.count b := by
    simp only [chanCells, List.flatten_append, List.count_append] <;> rfl
  rw [hsum] at hfree ⊢
  obtain ⟨ht, hspent⟩ := moveEach_moves CanTx.cells (fun x l => { x with cells := l }) (n.chan c).txq hs (by omega)
  obtain ⟨t, htx⟩ : ∃ t, t = moveEach b CanTx.cells (fun x l => { x with cells := l }) (n.chan c).txq n := ⟨_, rfl⟩
  rw [← htx] at ht hspent
  have hc1 := hspent.cells
  obtain ⟨hr, hspent'⟩ := moveEach_moves (n := t.2) FbEntry.cells (fun x l => { x with cells := l }) (n.chan c).rx (by rw [hspent.rd]; exact hs) (by omega)
  obtain ⟨r, hrx⟩ : ∃ r, r = moveEach b FbEntry.cells (fun x l => { x with cells := l }) (n.chan c).rx t.2 := ⟨_, rfl⟩
  rw [← hrx] at hr hspent'
  have hc2 := hspent'.cells
  obtain ⟨hq, hspent''⟩ := moveEach_moves (n := r.2) (fun e : Nat × List Nat => e.2) (fun e l => (e.1, l)) (n.chan c).srcCells
    (by rw [hspent'.rd, hspent.rd]; exact hs) (by omega)
  obtain ⟨q, hqx⟩ : ∃ q, q = moveEach b (fun e : Nat × List Nat => e.2) (fun e l => (e.1, l)) (n.chan c).srcCells r.2 := ⟨_, rfl⟩
  rw [← hqx] at hq hspent''
  have hall := (hspent.trans hspent').trans hspent''
  have hchan : ∀ j, q.2.chan j = n.chan j := fun j => by rw [Node.chan, hall.chans, Node.chan]
  have heq : moveChan b n c = q.2.setChan c { n.chan c with txq := t.1, rx := r.1, srcCells := q.1 } := by
    rw [← hchan c, hqx, hrx, htx]
    rfl
  rw [heq]
  refine ⟨hall.toFrees.holders _ _ _, ?_, fun j hj => (Node.chan_setChan_ne _ _ hj).trans (hchan j), hall.frames, hall.engs⟩
  rw [Node.chan_setChan_same]
  refine ⟨rfl, ht.imp ?_, hr.imp ?_, hq.imp ?_⟩
  · rintro u v ⟨l, rfl, hl⟩
    exact ⟨rfl, hl⟩
  · rintro u v ⟨l, rfl, hl⟩
    exact ⟨rfl, hl⟩
  · rintro u v ⟨l, rfl, hl⟩
    exact ⟨rfl, hl⟩

/-- The cells an output holds. -/
def outCells (h : Held) : List Nat := match h with | .frame f => f.cells | _ => []

/-- An output with its cells replaced. -/
def outWith (h : Held) (l : List Nat) : Held := match h with | .frame f => Held.frame { f with cells := l } | x => x

theorem moveEng_moves {n : Node} {b e : Nat} (hs : n.rd (F.FAB_BANK_STATE b) ≠ 1) (hfree : (engCells (n.eng e)).count b ≤ n.freeCells) :
    Frees n (moveEng b n e) ((engCells (n.eng e)).count b) ∧ EngMoved b (n.eng e) ((moveEng b n e).eng e) ∧
    (∀ j, j ≠ e → (moveEng b n e).eng j = n.eng j) ∧ (moveEng b n e).fab.frames = n.fab.frames ∧ (moveEng b n e).chans = n.chans := by
  have hsum : (engCells (n.eng e)).count b = (n.eng e).act.txCells.count b + (n.eng e).act.backCells.count b +
      ((n.eng e).act.outs.map outCells).flatten.count b := by
    simp only [engCells, List.count_append]
    rfl
  rw [hsum] at hfree ⊢
  obtain ⟨ht, hspent⟩ := moveChain_moves (n.eng e).act.txCells hs (by omega)
  obtain ⟨t, htx⟩ : ∃ t, t = moveChain b (n.eng e).act.txCells n := ⟨_, rfl⟩
  rw [← htx] at ht hspent
  have hc1 := hspent.cells
  obtain ⟨hr, hspent'⟩ := moveChain_moves (n := t.2) (n.eng e).act.backCells (by rw [hspent.rd]; exact hs) (by omega)
  obtain ⟨r, hrx⟩ : ∃ r, r = moveChain b (n.eng e).act.backCells t.2 := ⟨_, rfl⟩
  rw [← hrx] at hr hspent'
  have hc2 := hspent'.cells
  obtain ⟨hq, hspent''⟩ := moveEach_moves (n := r.2) outCells outWith (n.eng e).act.outs (by rw [hspent'.rd, hspent.rd]; exact hs) (by omega)
  obtain ⟨q, hqx⟩ : ∃ q, q = moveEach b outCells outWith (n.eng e).act.outs r.2 := ⟨_, rfl⟩
  rw [← hqx] at hq hspent''
  have hall := (hspent.trans hspent').trans hspent''
  have heng : ∀ j, q.2.eng j = n.eng j := fun j => by rw [Node.eng, hall.engs, Node.eng]
  have heq : moveEng b n e = q.2.setEng e { q.2.eng e with act := { (n.eng e).act with txCells := t.1, backCells := r.1, outs := q.1 } } := by
    rw [hqx, hrx, htx]
    rfl
  rw [heq, heng e]
  refine ⟨hall.toFrees.holders _ _ _, ?_, fun j hj => (Node.eng_setEng_ne _ _ hj).trans (heng j), hall.frames, hall.chans⟩
  rw [Node.eng_setEng_same]
  refine ⟨rfl, ht, hr, hq.imp ?_⟩
  rintro u v ⟨l, rfl, hl⟩
  cases u with
  | frame g => exact ⟨rfl, hl⟩
  | _ => rfl

/-- Steps over the items of a list, each of which moves the cells one of them holds. -/
theorem foldl_frees {α β : Type} {b : Nat} {f : Node → Nat → Node} {view : Node → Nat → α} {cost : α → Nat} {rel : α → α → Prop} {rest : Node → β}
    (hstep : ∀ (n : Node) (i : Nat), n.rd (F.FAB_BANK_STATE b) ≠ 1 → cost (view n i) ≤ n.freeCells →
      Frees n (f n i) (cost (view n i)) ∧ rel (view n i) (view (f n i) i) ∧ (∀ j, j ≠ i → view (f n i) j = view n j) ∧ rest (f n i) = rest n)
    (l : List Nat) {n : Node} (hl : l.Nodup) (hs : n.rd (F.FAB_BANK_STATE b) ≠ 1) (hfree : (l.map (fun i => cost (view n i))).sum ≤ n.freeCells) :
    Frees n (l.foldl f n) (l.map (fun i => cost (view n i))).sum ∧ (∀ i ∈ l, rel (view n i) (view (l.foldl f n) i)) ∧
    (∀ i, i ∉ l → view (l.foldl f n) i = view n i) ∧ rest (l.foldl f n) = rest n := by
  induction l generalizing n with
  | nil => exact ⟨.refl n, fun i hi => absurd hi List.not_mem_nil, fun _ _ => rfl, rfl⟩
  | cons a l ih =>
    rw [List.map_cons, List.sum_cons] at hfree ⊢
    obtain ⟨ha, hl⟩ := List.nodup_cons.mp hl
    obtain ⟨hfrees, hrel, hkept, hrest⟩ := hstep n a hs (by omega)
    have hcells := hfrees.cells
    have hviews : l.map (fun i => cost (view (f n a) i)) = l.map (fun i => cost (view n i)) :=
      List.map_congr_left fun i hi => by rw [hkept i fun h => ha (h ▸ hi)]
    obtain ⟨hfrees', hrel', hkept', hrest'⟩ := ih hl (n := f n a) (by rw [hfrees.rd]; exact hs) (by rw [hviews]; omega)
    rw [hviews] at hfrees'
    rw [List.foldl_cons]
    refine ⟨hfrees.trans hfrees', fun i hi => ?_, fun i hi => ?_, hrest'.trans hrest⟩
    · rcases List.mem_cons.mp hi with rfl | hi
      · rw [hkept' i ha]
        exact hrel
      · rw [← hkept i fun h => ha (h ▸ hi)]
        exact hrel' i hi
    · obtain ⟨hne, hni⟩ := not_or.mp (mt List.mem_cons.mpr hi)
      rw [hkept' i hni, hkept i hne]

/-- `List.eraseDups` leaves each item once. -/
theorem eraseDups_nodup (l : List Nat) : l.eraseDups.Nodup := by
  induction h : l.length using Nat.strong_induction_on generalizing l with
  | _ k ih =>
    cases l with
    | nil => exact List.nodup_nil
    | cons a l =>
      rw [List.eraseDups_cons, List.nodup_cons]
      refine ⟨fun ha => ?_, ih _ ?_ _ rfl⟩
      · have := (List.mem_filter.mp (List.mem_eraseDups.mp ha)).2
        simp at this
      · rw [← h, List.length_cons]
        exact Nat.lt_succ_of_le (List.length_filter_le _ _)

/-- The cells that leave bank `b` with what holds them, but for frames being read. -/
def Node.leavingCells (n : Node) (b : Nat) : Nat :=
  (((n.fab.frames.map (·.1)).eraseDups.filter (fun i => !n.beingRead i)).map (fun i => (n.frame i).cells.count b)).sum +
    ((List.range 10).map (fun c => (chanCells (n.chan c)).count b)).sum + ((List.range 19).map (fun e => (engCells (n.eng e)).count b)).sum

theorem Node.frames_leaving (n : Node) (b : Nat) (l : List Nat) :
    ((l.eraseDups.filter (fun i => !n.beingRead i)).map (fun i => (n.frame i).cells.count b)).sum = ∑ i ∈ l.toFinset, n.frameLeaving b i := by
  have hset : l.toFinset = l.eraseDups.toFinset := by
    ext i
    simp
  have hfilter : ∀ k : List Nat, ((k.filter (fun i => !n.beingRead i)).map (fun i => (n.frame i).cells.count b)).sum = (k.map (n.frameLeaving b)).sum := by
    intro k
    induction k with
    | nil => rfl
    | cons i k ih =>
      by_cases hr : n.beingRead i = true
      · simp [Node.frameLeaving, hr, ih]
      · simp [Node.frameLeaving, hr, ih]
  rw [hset, List.sum_toFinset _ (eraseDups_nodup l), hfilter]

/-- What a node that holds no frame of a number answers for it. -/
theorem Node.frame_of_absent {n : Node} {i : Nat} (h : i ∉ n.fab.frames.map (·.1)) : n.frame i = {} := by
  refine FMap.get_of_absent _ _ _ fun c hc => ?_
  rintro rfl
  exact h (List.mem_map_of_mem hc)

/-- The cells left in a draining bank are moved (06 R226). -/
theorem Node.drainMove_moves {n : Node} {b : Nat} (hd : n.on F.FAB_STATUS_DRAINING = true) (hb : n.rd F.FAB_STATUS_DRAIN_BANK = b)
    (hs : n.rd (F.FAB_BANK_STATE b) ≠ 1) (hfree : n.leavingCells b ≤ n.freeCells) :
    Frees { n with fab := { n.fab with moving := true } } n.drainMove (n.leavingCells b) ∧
    (∀ i, n.beingRead i = true → n.drainMove.frame i = n.frame i) ∧ (∀ i, n.beingRead i = false → FrameMoved b (n.frame i) (n.drainMove.frame i)) ∧
    (∀ c, c < 10 → ChanMoved b (n.chan c) (n.drainMove.chan c)) ∧ ∀ e, e < 19 → EngMoved b (n.eng e) (n.drainMove.eng e) := by
  obtain ⟨q, hq⟩ : ∃ q : Node, q = { n with fab := { n.fab with moving := true } } := ⟨_, rfl⟩
  have hdrain : Draining b q := by
    subst hq
    exact ⟨rfl, hd, hb, hs⟩
  have hqread : ∀ i, q.beingRead i = n.beingRead i := fun i => by rw [hq] <;> rfl
  have hqframe : ∀ i, q.frame i = n.frame i := fun i => by rw [hq] <;> rfl
  have hqchan : ∀ i, q.chan i = n.chan i := fun i => by rw [hq] <;> rfl
  have hqeng : ∀ i, q.eng i = n.eng i := fun i => by rw [hq] <;> rfl
  have hqfree : q.freeCells = n.freeCells := by rw [hq] <;> rfl
  have hqleave : ∀ i, q.frameLeaving b i = n.frameLeaving b i := fun i => by simp only [Node.frameLeaving, hqread, hqframe]
  rw [Node.leavingCells, n.frames_leaving] at hfree ⊢
  have heq : n.drainMove = (List.range 19).foldl (moveEng b) ((List.range 10).foldl (moveChan b) ((n.fab.frames.map (·.1)).foldl Node.moveFrame q)) := by
    rw [Node.drainMove, hd, hb, hq]
    rfl
  rw [← hq, heq]
  obtain ⟨h1, hmoved, hkept, hchans, hengs⟩ := hdrain.moveFrames (n.fab.frames.map (·.1)) (by simp only [hqleave, hqfree]; omega)
  simp only [hqleave] at h1
  obtain ⟨m, hm⟩ : ∃ m, m = (n.fab.frames.map (·.1)).foldl Node.moveFrame q := ⟨_, rfl⟩
  rw [← hm] at h1 hmoved hkept hchans hengs ⊢
  have hc1 := h1.cells
  have hmchan : ∀ i, m.chan i = n.chan i := fun i => by rw [Node.chan, hchans]; exact hqchan i
  have hmeng : ∀ i, m.eng i = n.eng i := fun i => by rw [Node.eng, hengs]; exact hqeng i
  obtain ⟨h2, hcm, -, hcrest⟩ := foldl_frees (n := m) (view := Node.chan) (cost := fun x => (chanCells x).count b) (rel := ChanMoved b)
    (rest := fun n => (n.fab.frames, n.engs))
    (fun n i hs hf => by
      obtain ⟨ha, hr, ho, hfr, hen⟩ := moveChan_moves hs hf
      exact ⟨ha, hr, ho, by rw [hfr, hen]⟩) (List.range 10) List.nodup_range
    (by rw [h1.rd]; exact hdrain.state) (by simp only [hmchan]; omega)
  obtain ⟨r, hr⟩ : ∃ r, r = (List.range 10).foldl (moveChan b) m := ⟨_, rfl⟩
  simp only [hmchan] at h2 hcm
  rw [← hr] at h2 hcm hcrest ⊢
  obtain ⟨hrframes, hrengs⟩ := Prod.mk.inj hcrest
  have hc2 := h2.cells
  have hreng : ∀ i, r.eng i = n.eng i := fun i => by rw [Node.eng, hrengs]; exact hmeng i
  obtain ⟨h3, hem, -, herest⟩ := foldl_frees (n := r) (view := Node.eng) (cost := fun x => (engCells x).count b) (rel := EngMoved b)
    (rest := fun n => (n.fab.frames, n.chans))
    (fun n i hs hf => by
      obtain ⟨ha, hr, ho, hfr, hen⟩ := moveEng_moves hs hf
      exact ⟨ha, hr, ho, by rw [hfr, hen]⟩) (List.range 19) List.nodup_range
    (by rw [h2.rd, h1.rd]; exact hdrain.state) (by simp only [hreng]; omega)
  obtain ⟨t, ht⟩ : ∃ t, t = (List.range 19).foldl (moveEng b) r := ⟨_, rfl⟩
  simp only [hreng] at h3 hem
  rw [← ht] at h3 hem herest ⊢
  obtain ⟨htframes, htchans⟩ := Prod.mk.inj herest
  have htframe : ∀ i, t.frame i = m.frame i := fun i => by rw [Node.frame, htframes, hrframes, Node.frame]
  refine ⟨(h1.trans h2).trans h3, fun i hi => ?_, fun i hi => ?_, fun c hc => ?_, fun e he => hem e (List.mem_range.mpr he)⟩
  · rw [htframe, hkept i (.inr ((hqread i).trans hi)), hqframe]
  · rw [htframe, ← hqframe]
    by_cases hin : i ∈ n.fab.frames.map (·.1)
    · exact hmoved i hin ((hqread i).trans hi)
    · rw [hkept i (.inl hin), hqframe, Node.frame_of_absent hin]
      exact ⟨rfl, .nil b⟩
  · have htchan : t.chan c = r.chan c := by rw [Node.chan, htchans, Node.chan]
    rw [htchan]
    exact hcm c (List.mem_range.mpr hc)

end Sys2Proof.Machine
end

section
/-! PROOF. The FREEZE snapshot (06 R228, R229), and O46. -/

namespace Sys2Proof.Machine

open Sys2Proof

/-! ### The snapshot -/

/-- A field of the snapshot registers, but for the four counts of the buffer's cells. -/
def SnapKey (k : Nat) : Prop :=
  (32 * 0x100300A0 ≤ k ∧ k < 32 * 0x100300C0) ∨ (32 * 0x10040048 ≤ k ∧ k < 32 * 0x1004004C) ∨ (32 * 0x10100300 ≤ k ∧ k < 32 * 0x10100350) ∨
    (32 * 0x10200030 ≤ k ∧ k < 32 * 0x10200150) ∨ 32 * 0x1060000C ≤ k

theorem not_snapKey_of_levelKeys : ∀ k ∈ levelKeys, ¬ SnapKey k := by
  have hgap : ∀ k ∈ levelKeys, ¬ (32 * 0x100300A0 ≤ k ∧ k < 32 * 0x100300C0) ∧ ¬ (32 * 0x10040048 ≤ k ∧ k < 32 * 0x1004004C) ∧
      ¬ (32 * 0x10100300 ≤ k ∧ k < 32 * 0x10100350) ∧ ¬ (32 * 0x10200030 ≤ k ∧ k < 32 * 0x10200150) ∧ k < 32 * 0x1060000C := by decide
  intro k hk hs
  obtain ⟨h1, h2, h3, h4, h5⟩ := hgap k hk
  rcases hs with h | h | h | h | h
  · exact h1 h
  · exact h2 h
  · exact h3 h
  · exact h4 h
  · omega

/-- Only snapshot registers are written. -/
structure Snaps (n m : Node) : Prop where
  eq : ∃ r, m = { n with regs := r }
  rd : ∀ f : Fld, ¬ SnapKey f.key → m.rd f = n.rd f

namespace Snaps

theorem refl (n : Node) : Snaps n n := ⟨⟨n.regs, rfl⟩, fun _ _ => rfl⟩

theorem trans {n m q : Node} (h : Snaps n m) (h' : Snaps m q) : Snaps n q := by
  obtain ⟨r, hr⟩ := h.eq
  obtain ⟨r', hr'⟩ := h'.eq
  exact ⟨⟨r', by rw [hr', hr]⟩, fun f hf => (h'.rd f hf).trans (h.rd f hf)⟩

theorem wr (n : Node) {f : Fld} (v : Nat) (h : SnapKey f.key) : Snaps n (n.wr f v) :=
  ⟨⟨_, rfl⟩, fun g hg => Node.rd_wr_ne n v fun he => hg (he ▸ h)⟩

theorem wrs (l : List (Fld × Nat)) (n : Node) (h : ∀ e ∈ l, SnapKey e.1.key) : Snaps n (n.wrs l) := by
  induction l generalizing n with
  | nil => exact refl n
  | cons e l ih => exact (wr n e.2 (h e List.mem_cons_self)).trans (ih _ fun x hx => h x (List.mem_cons_of_mem _ hx))

theorem foldl {f : Node → Nat → Node} (l : List Nat) (n : Node) (h : ∀ (m : Node), ∀ i ∈ l, Snaps m (f m i)) : Snaps n (l.foldl f n) := by
  induction l generalizing n with
  | nil => exact refl n
  | cons i l ih => exact (h n i List.mem_cons_self).trans (ih _ fun m j hj => h m j (List.mem_cons_of_mem _ hj))

end Snaps

/-- The four counts of the buffer's cells. -/
def Node.cellCounts (n : Node) : List (Fld × Nat) :=
  [(F.FAB_SNAP_FREE_COUNT, n.freeCells), (F.FAB_SNAP_ALLOC_COUNT, Config.cellsPerBank * n.banksN + n.fab.drainCells - n.freeCells - n.returningCells),
    (F.FAB_SNAP_RETURN_COUNT, n.returningCells), (F.FAB_SNAP_DRAIN_COUNT, n.fab.drainCells)]

theorem Node.snapData_snaps (n : Node) : Snaps (n.wrs n.cellCounts) n.snapData := by
  have h1 : ∀ m : Node, ∀ u v, Snaps m (m.wrs [(F.FAB_SNAP_ENGINE_COUNT, u), (F.FAB_SNAP_HOST_COUNT, v)]) := fun m u v =>
    .wrs _ m fun e he => by
      simp only [List.mem_cons, List.not_mem_nil, or_false] at he
      rcases he with rfl | rfl <;> simp only [SnapKey, F.FAB_SNAP_ENGINE_COUNT, F.FAB_SNAP_HOST_COUNT] <;> omega
  have h2 : ∀ m : Node, ∀ i ∈ List.range 6, ∀ v, Snaps m (m.wr (F.FAB_SNAP_CREDIT_CREDITS i) v) := fun m i hi v =>
    .wr m v (by
      have := List.mem_range.mp hi
      simp only [SnapKey, F.FAB_SNAP_CREDIT_CREDITS]
      omega)
  have h3 : ∀ m : Node, ∀ i ∈ List.range 20, ∀ u v w x y, Snaps m (m.wrs [(F.FAB_SNAP_LAUNCH_FREE i, u), (F.FAB_SNAP_LAUNCH_HELD i, v),
      (F.TIM_SNAP_TS_FREE i, w), (F.TIM_SNAP_TS_PENDING i, x), (F.TIM_SNAP_TS_RETURNING i, y)]) := fun m i hi u v w x y =>
    .wrs _ m fun e he => by
      have := List.mem_range.mp hi
      simp only [List.mem_cons, List.not_mem_nil, or_false] at he
      rcases he with rfl | rfl | rfl | rfl | rfl <;>
        simp only [SnapKey, F.FAB_SNAP_LAUNCH_FREE, F.FAB_SNAP_LAUNCH_HELD, F.TIM_SNAP_TS_FREE, F.TIM_SNAP_TS_PENDING, F.TIM_SNAP_TS_RETURNING] <;> omega
  have h4 : ∀ m : Node, ∀ i, ∀ u v w, Snaps m (m.wrs [(F.CAN_SNAP_FREE i, u), (F.CAN_SNAP_DELIVERED i, v), (F.CAN_SNAP_RETURNING i, w)]) := fun m i u v w =>
    .wrs _ m fun e he => by
      simp only [List.mem_cons, List.not_mem_nil, or_false] at he
      rcases he with rfl | rfl | rfl <;> simp only [SnapKey, F.CAN_SNAP_FREE, F.CAN_SNAP_DELIVERED, F.CAN_SNAP_RETURNING] <;> omega
  have h5 : ∀ m : Node, ∀ i, ∀ u v w, Snaps m (m.wrs [(F.MVB_SNAP_FREE i, u), (F.MVB_SNAP_DELIVERED i, v), (F.MVB_SNAP_RETURNING i, w)]) := fun m i u v w =>
    .wrs _ m fun e he => by
      simp only [List.mem_cons, List.not_mem_nil, or_false] at he
      rcases he with rfl | rfl | rfl <;> simp only [SnapKey, F.MVB_SNAP_FREE, F.MVB_SNAP_DELIVERED, F.MVB_SNAP_RETURNING] <;> omega
  have h6 : ∀ m : Node, ∀ u v w, Snaps m (m.wrs [(F.BRG_SNAP_A_FREE, u), (F.BRG_SNAP_A_INFLIGHT, v), (F.BRG_SNAP_B_COMPLETING, w)]) := fun m u v w =>
    .wrs _ m fun e he => by
      simp only [List.mem_cons, List.not_mem_nil, or_false] at he
      rcases he with rfl | rfl | rfl <;> simp only [SnapKey, F.BRG_SNAP_A_FREE, F.BRG_SNAP_A_INFLIGHT, F.BRG_SNAP_B_COMPLETING] <;> omega
  have h7 : ∀ m : Node, ∀ i, ∀ u v, Snaps m (m.wrs [(F.HST_SNAP_TX_NODE i, u), (F.HST_SNAP_TX_HOST i, v)]) ∧
      Snaps m (m.wrs [(F.HST_SNAP_RX_NODE i, u), (F.HST_SNAP_RX_HOST i, v)]) := fun m i u v => by
    refine ⟨.wrs _ m fun e he => ?_, .wrs _ m fun e he => ?_⟩
    · simp only [List.mem_cons, List.not_mem_nil, or_false] at he
      rcases he with rfl | rfl <;> simp only [SnapKey, F.HST_SNAP_TX_NODE, F.HST_SNAP_TX_HOST] <;> omega
    · simp only [List.mem_cons, List.not_mem_nil, or_false] at he
      rcases he with rfl | rfl <;> simp only [SnapKey, F.HST_SNAP_RX_NODE, F.HST_SNAP_RX_HOST] <;> omega
  rw [Node.snapData]
  refine .trans (.trans (.trans (.trans (.trans (.trans (h1 _ n.engineCells n.hostCells) (.foldl (List.range 6) _ fun m i hi => h2 m i hi _))
    (.foldl (List.range 20) _ fun m i hi => h3 m i hi _ _ _ _ _)) (.foldl (List.range 8) _ fun m i _ => h4 m i _ _ _))
    (.foldl (List.range 2) _ fun m i _ => h5 m i _ _ _)) (h6 _ _ _ _)) (.foldl (List.range 16) _ fun m i _ => ?_)
  exact (h7 m i _ _).1.trans (h7 _ i _ _).2

theorem Node.snapCtl_snaps (n : Node) : Snaps n n.snapCtl := by
  rw [Node.snapCtl]
  refine .trans (.wrs _ n fun e he => ?_) (.foldl [0, 1] _ fun m i hi => .wrs _ m fun e he => ?_)
  · simp only [List.mem_cons, List.not_mem_nil, or_false] at he
    rcases he with rfl | rfl <;> simp only [SnapKey, F.UPD_SNAP_FLASH_SPARE0, F.UPD_SNAP_FLASH_SPARE1] <;> omega
  · have hi' : i < 2 := by
      simp only [List.mem_cons, List.not_mem_nil, or_false] at hi
      omega
    simp only [List.mem_cons, List.not_mem_nil, or_false] at he
    rcases he with rfl | rfl | rfl | rfl <;>
      simp only [SnapKey, F.PAIR_SNAP_HB_RX_COUNT, F.PAIR_SNAP_HB_MISS_COUNT, F.PAIR_SNAP_HB_FIRST_SEQ, F.PAIR_SNAP_HB_HIGH_SEQ] <;> omega


/-- What a read of a field answers after a list of writes one of which is of it. -/
theorem Node.rd_wrs_mem {l : List (Fld × Nat)} {n : Node} {f : Fld} {v : Nat} (hm : (f, v) ∈ l) (hk : (l.map (·.1.key)).Nodup) :
    (n.wrs l).rd f = v % 2 ^ f.w := by
  induction l generalizing n with
  | nil => cases hm
  | cons e l ih =>
    obtain ⟨hne, hk⟩ := List.nodup_cons.mp hk
    rcases List.mem_cons.mp hm with rfl | hm
    · rw [Node.wrs_cons, Node.rd_wrs_ne, Node.rd_wr_same]
      exact fun e he heq => hne (List.mem_map.mpr ⟨e, he, heq.symm⟩)
    · exact ih hm hk

/-- The counts after a capture has begun. -/
theorem Node.freeze_shows {n : Node} (hf : n.fab.freezing = false) (hd : n.dataOn = true) :
    (∃ r, n.freeze = { n with regs := r, fab := { n.fab with freezing := true } }) ∧ (∀ f : Fld, f.key ∈ levelKeys → n.freeze.rd f = n.rd f) ∧
    n.freeze.on F.FAB_FREEZE_DONE = false ∧ n.freeze.rd F.FAB_SNAP_FREE_COUNT = n.freeCells % 2 ^ 17 ∧
    n.freeze.rd F.FAB_SNAP_ALLOC_COUNT = (4096 * n.banksN + n.fab.drainCells - n.freeCells - n.returningCells) % 2 ^ 17 ∧
    n.freeze.rd F.FAB_SNAP_RETURN_COUNT = n.returningCells % 2 ^ 17 ∧ n.freeze.rd F.FAB_SNAP_DRAIN_COUNT = n.fab.drainCells % 2 ^ 17 := by
  obtain ⟨q, hq⟩ : ∃ q, q = Node.put { n with fab := { n.fab with freezing := true } } F.FAB_FREEZE_DONE false := ⟨_, rfl⟩
  have hfreeze : n.freeze = q.snapData.snapCtl := by
    have hgo : ¬ (n.fab.freezing = true ∨ (!n.dataOn) = true) := by simp [hf, hd]
    rw [Node.freeze, if_neg hgo, hq]
  have hqrd : ∀ f : Fld, f.key ≠ F.FAB_FREEZE_DONE.key → q.rd f = n.rd f := fun f hne => by
    rw [hq]
    exact Node.rd_put_ne _ _ hne
  have hstate : ∀ j, q.rd (F.FAB_BANK_STATE j) = n.rd (F.FAB_BANK_STATE j) := fun j => hqrd _ (by
    simp only [F.FAB_BANK_STATE, F.FAB_FREEZE_DONE]
    omega)
  have hserv : q.serviceBanks = n.serviceBanks := by simp only [Node.serviceBanks, hstate]
  have hbank : ∀ j, q.bank j = n.bank j := fun j => by rw [hq] <;> rfl
  have hcounts : q.cellCounts = n.cellCounts := by
    have hdrain : q.fab.drainCells = n.fab.drainCells := by rw [hq] <;> rfl
    simp only [Node.cellCounts, Node.freeCells, Node.returningCells, Node.banksN, hserv, hbank, hstate, hdrain]
  have hsnaps : Snaps (q.wrs n.cellCounts) n.freeze := by
    rw [hfreeze, ← hcounts]
    exact q.snapData_snaps.trans (Node.snapCtl_snaps _)
  have hkeys : n.cellCounts.map (·.1.key) = [F.FAB_SNAP_FREE_COUNT.key, F.FAB_SNAP_ALLOC_COUNT.key, F.FAB_SNAP_RETURN_COUNT.key, F.FAB_SNAP_DRAIN_COUNT.key] := rfl
  have hnodup : (n.cellCounts.map (·.1.key)).Nodup := by rw [hkeys]; decide
  have hcount : ∀ f v, (f, v) ∈ n.cellCounts → ¬ SnapKey f.key → n.freeze.rd f = v % 2 ^ f.w := fun f v hm hk => by
    rw [hsnaps.rd f hk, Node.rd_wrs_mem hm hnodup]
  have hlow : ∀ k ∈ n.cellCounts.map (·.1.key), k ∉ levelKeys ∧ k ≠ F.FAB_FREEZE_DONE.key ∧ ¬ SnapKey k := by
    have hgap : ∀ k ∈ [F.FAB_SNAP_FREE_COUNT.key, F.FAB_SNAP_ALLOC_COUNT.key, F.FAB_SNAP_RETURN_COUNT.key, F.FAB_SNAP_DRAIN_COUNT.key],
      k ∉ levelKeys ∧ 32 * 0x10200020 ≤ k ∧ k < 32 * 0x10200030 := by decide
    intro k hk
    rw [hkeys] at hk
    obtain ⟨h1, h2, h3⟩ := hgap k hk
    refine ⟨h1, ?_, ?_⟩
    · simp only [F.FAB_FREEZE_DONE]
      omega
    · simp only [SnapKey]
      omega
  have hother : ∀ f : Fld, f.key ∉ n.cellCounts.map (·.1.key) → ¬ SnapKey f.key → n.freeze.rd f = q.rd f := fun f hm hk => by
    rw [hsnaps.rd f hk, Node.rd_wrs_ne]
    exact fun e he heq => hm (List.mem_map.mpr ⟨e, he, heq.symm⟩)
  have hin : ∀ {f v}, (f, v) ∈ n.cellCounts → ¬ SnapKey f.key := fun {f v} hm => (hlow _ (List.mem_map_of_mem (f := (·.1.key)) hm)).2.2
  have h0 : (F.FAB_SNAP_FREE_COUNT, n.freeCells) ∈ n.cellCounts := List.mem_cons_self
  have h1 : (F.FAB_SNAP_ALLOC_COUNT, Config.cellsPerBank * n.banksN + n.fab.drainCells - n.freeCells - n.returningCells) ∈ n.cellCounts :=
    List.mem_cons_of_mem _ List.mem_cons_self
  have h2 : (F.FAB_SNAP_RETURN_COUNT, n.returningCells) ∈ n.cellCounts := List.mem_cons_of_mem _ (List.mem_cons_of_mem _ List.mem_cons_self)
  have h3 : (F.FAB_SNAP_DRAIN_COUNT, n.fab.drainCells) ∈ n.cellCounts :=
    List.mem_cons_of_mem _ (List.mem_cons_of_mem _ (List.mem_cons_of_mem _ List.mem_cons_self))
  refine ⟨?_, fun f hf => ?_, ?_, hcount _ _ h0 (hin h0), hcount _ _ h1 (hin h1), hcount _ _ h2 (hin h2), hcount _ _ h3 (hin h3)⟩
  · obtain ⟨r, hr⟩ := hsnaps.eq
    refine ⟨r, ?_⟩
    obtain ⟨r', hr'⟩ : ∃ r', q.wrs n.cellCounts = { n with regs := r', fab := { n.fab with freezing := true } } := by
      obtain ⟨r', hr'⟩ := Node.wrs_regs n.cellCounts q
      exact ⟨r', by rw [hr', hq] <;> rfl⟩
    rw [hr, hr']
  · have hne : f.key ≠ F.FAB_FREEZE_DONE.key := fun he => absurd (he ▸ hf) (by decide)
    rw [hother f (fun hm => (hlow _ hm).1 hf) (not_snapKey_of_levelKeys _ hf), hqrd f hne]
  · have hdone : ¬ SnapKey F.FAB_FREEZE_DONE.key := by
      simp only [SnapKey, F.FAB_FREEZE_DONE]
      omega
    rw [Node.on, hother _ (fun hm => (hlow _ hm).2.1 rfl) hdone, hq, ← Node.on, Node.on_put_same] <;> rfl

theorem Node.command_freeze (n : Node) (p : Master) (k v : Nat) : n.command p .FAB_FREEZE k v = n.freeze := rfl

/-- FREEZE begins a capture (06 R229). -/
theorem freeze_captures {s : State} {x : Master} (h : RegPasses s.node x .FAB_FREEZE 1) (hf : s.node.fab.freezing = false) (hfit : s.node.fits) :
    Yields (.freeze x) s (fun t => t.fab.freezing = true ∧ t.on F.FAB_FREEZE_DONE = false ∧
      t.rd F.FAB_SNAP_FREE_COUNT = s.node.freeCells % 2 ^ 17 ∧ t.rd F.FAB_SNAP_RETURN_COUNT = s.node.returningCells % 2 ^ 17 ∧
      t.rd F.FAB_SNAP_DRAIN_COUNT = s.node.fab.drainCells % 2 ^ 17 ∧
      t.rd F.FAB_SNAP_ALLOC_COUNT = (4096 * s.node.banksN + s.node.fab.drainCells - s.node.freeCells - s.node.returningCells) % 2 ^ 17 ∧
      SameBytes s.node t ∧ t.engs = s.node.engs ∧ t.fab.frames = s.node.fab.frames) := by
  have hon : s.node.dataOn = true := by
    have hpower := h.power
    have hisland : Reg.FAB_FREEZE.island = .data := rfl
    rw [Node.regUnpowered, hisland] at hpower
    simpa using hpower
  have hexec := exec_command (c := .freeze x) rfl h (by decide) (by decide) (by decide) rfl (by decide) (by decide)
  rw [Node.command_freeze] at hexec
  obtain ⟨k, hk⟩ := s.node.leased_eq x
  obtain ⟨⟨r, hr⟩, hlevel, hdone, hfree, halloc, hret, hdrain⟩ := Node.freeze_shows (n := s.node.leased x) (by rw [hk]; exact hf) (by rw [hk]; exact hon)
  obtain ⟨m, hm⟩ : ∃ m, m = (s.node.leased x).freeze := ⟨_, rfl⟩
  have hcells : (s.node.leased x).freeCells = s.node.freeCells ∧ (s.node.leased x).returningCells = s.node.returningCells ∧
      (s.node.leased x).banksN = s.node.banksN ∧ (s.node.leased x).fab = s.node.fab := by
    rw [hk]
    exact ⟨rfl, rfl, rfl, rfl⟩
  obtain ⟨hc1, hc2, hc3, hc4⟩ := hcells
  rw [hc1, hc2, hc3, hc4] at halloc
  rw [hc1] at hfree
  rw [hc2] at hret
  rw [hc4] at hdrain
  rw [← hm] at hr hlevel hdone hfree halloc hret hdrain hexec
  have hmrd : ∀ f : Fld, f.key ∈ levelKeys → m.rd f = s.node.rd f := fun f hf => (hlevel f hf).trans (Node.leased_rd ..)
  have hshape : m = { s.node with leaseAt := k, regs := r, fab := { s.node.fab with freezing := true } } := by rw [hr, hk]
  refine Yields.of_calm hexec (by rw [hshape] <;> rfl) ⟨by rw [hshape] <;> rfl, by rw [hshape] <;> rfl, by rw [hshape] <;> rfl, by rw [hshape] <;> rfl,
    by rw [hshape] <;> rfl, fun f hf => hmrd f hf⟩ hfit fun t ht => ?_
  have hrd : ∀ f : Fld, f.key ∉ followKeys → t.rd f = m.rd f := ht.rd
  have htfab : t.fab = m.fab := ht.fab
  have htmem : t.mem = m.mem := ht.mem
  have htengs : t.engs = m.engs := ht.engs
  refine ⟨?_, ?_, (hrd _ (by decide)).trans hfree, (hrd _ (by decide)).trans hret, (hrd _ (by decide)).trans hdrain, (hrd _ (by decide)).trans halloc, ?_, ?_, ?_⟩
  · rw [htfab, hshape]
  · rw [Node.on, hrd _ (by decide)]
    exact hdone
  · intro a
    rw [htmem, hshape]
  · rw [htengs, hshape]
  · rw [htfab, hshape]


/-! ### Errors in the memory of the checkpoints -/

/-- The agreement checkpoint is lost with an uncorrectable error in it (02 R68; 12 R429). -/
theorem agreement_lost {s : State} {a : Nat} (hfit : s.node.fits) (hon : s.node.mode ≠ .off) (hag : s.node.pair.agree.isSome = true) :
    Yields (.scrubWord .mram 2 a true) s (fun t => t.pair.agree = none ∧ t.pair.ckpts = s.node.pair.ckpts ∧ t.fab = s.node.fab ∧ SameBytes s.node t) := by
  obtain ⟨k, hk⟩ : ∃ k, k = s.node.found.fault 0 2 5 := ⟨_, rfl⟩
  have hfound : ∃ x, s.node.found = { s.node with pair := { s.node.pair with finding := x } } := by
    unfold Node.found
    split
    · exact ⟨_, rfl⟩
    · exact ⟨s.node.pair.finding, rfl⟩
  obtain ⟨x, hx⟩ := hfound
  have hpair : k.pair = { s.node.pair with finding := x } := by rw [hk, Node.fault_pair, hx]
  have hscrub : s.node.scrub .mram 2 a true = Node.ckptBad { k with pair := { k.pair with agree := none } } := by
    have hmem : ¬ (!s.node.memOn .mram) = true := by simpa [Node.memOn] using hon
    have hsome : k.pair.agree.isSome = true := by rw [hpair]; exact hag
    rw [Node.scrub, if_neg hmem, if_pos rfl, Node.scrubBad]
    dsimp only
    rw [← hk, if_pos rfl, if_pos hsome]
  have hkey : ∀ f ∈ levelKeys, f ≠ F.MGT_FAULT_SOURCE.key ∧ f ≠ F.PAIR_STATUS_CKPT_REJECTED.key := by decide
  refine Yields.of_calm (m := Node.ckptBad { k with pair := { k.pair with agree := none } }) (congrArg s.to hscrub) ?_ ⟨?_, ?_, ?_, ?_, ?_, fun f hf => ?_⟩ hfit
    fun t ht => ⟨?_, ?_, ?_, fun y => ?_⟩
  · simp [Node.ckptBad, hk, hx]
  · simp [Node.ckptBad, hk, hx]
  · simp [Node.ckptBad, hk, hx]
  · simp [Node.ckptBad, hk, hx]
  · simp [Node.ckptBad, hk, hx]
  · simp [Node.ckptBad, hk, hx]
  · rw [Node.ckptBad, Node.fault_rd _ _ _ _ _ (hkey _ hf).1, Node.rd_put_ne _ _ (hkey _ hf).2]
    have hkrd : Node.rd { k with pair := { k.pair with agree := none } } f = k.rd f := rfl
    rw [hkrd, hk, Node.fault_rd _ _ _ _ _ (hkey _ hf).1, hx]
    rfl
  · obtain ⟨d, q, hq⟩ := ht.pair
    rw [hq]
    simp [Node.ckptBad]
  · obtain ⟨d, q, hq⟩ := ht.pair
    rw [hq]
    simp [Node.ckptBad, hpair]
  · rw [ht.fab]
    simp [Node.ckptBad, hk, hx, Node.fault_fab]
  · rw [ht.mem]
    simp [Node.ckptBad, hk, hx]


/-- Free, allocated and returning cells sum to all there are (06 R228). -/
theorem snapSum {f r a : Nat} (hle : f + r ≤ a) (hlt : a < 2 ^ 17) : f % 2 ^ 17 + (a - f - r) % 2 ^ 17 + r % 2 ^ 17 = a := by
  rw [Nat.mod_eq_of_lt (by omega), Nat.mod_eq_of_lt (by omega), Nat.mod_eq_of_lt (by omega)]
  omega

/-! ### The obligation -/

/-- The move of what is left in a draining bank, as a step (06 R226). -/
theorem drainMove_moves {s : State} {b : Nat} (hfit : s.node.fits) (hd : s.node.on F.FAB_STATUS_DRAINING = true)
    (hb : s.node.rd F.FAB_STATUS_DRAIN_BANK = b) (hs : s.node.rd (F.FAB_BANK_STATE b) = 2) (hfree : s.node.leavingCells b ≤ s.node.freeCells) :
    Yields .drainMove s (fun t => (∀ i, s.node.beingRead i = true → t.frame i = s.node.frame i) ∧
      (∀ i, s.node.beingRead i = false → FrameMoved b (s.node.frame i) (t.frame i)) ∧
      (∀ c, c < 10 → ChanMoved b (s.node.chan c) (t.chan c)) ∧ (∀ e, e < 19 → EngMoved b (s.node.eng e) (t.eng e)) ∧
      t.fab.drainCells = s.node.fab.drainCells - s.node.leavingCells b) := by
  obtain ⟨hfrees, hread, hframes, hchans, hengs⟩ := Node.drainMove_moves hd hb (by rw [hs]; decide) hfree
  have hcells := hfrees.drainCells
  obtain ⟨x, hx⟩ := hfrees.shape
  have hrd := hfrees.rd
  obtain ⟨m, hm⟩ : ∃ m, m = s.node.drainMove := ⟨_, rfl⟩
  rw [← hm] at hread hframes hchans hengs hcells hx hrd
  refine Yields.of_calm (m := m) (congrArg s.to hm.symm) (by rw [hx]) ⟨by rw [hx], by rw [hx], by rw [hx], by rw [hx], by rw [hx], fun f _ => hrd f⟩ hfit fun t ht => ?_
  have hframe : ∀ i, t.frame i = m.frame i := fun i => by rw [Node.frame, ht.fab, Node.frame]
  have hchan : ∀ i, t.chan i = m.chan i := fun i => by rw [Node.chan, ht.chans, Node.chan]
  have heng : ∀ i, t.eng i = m.eng i := fun i => by rw [Node.eng, ht.engs, Node.eng]
  simp only [hframe, hchan, heng, ht.fab]
  exact ⟨hread, hframes, hchans, hengs, hcells⟩

/-- Settles O46: a drain, an error and the end of a capture are equations of one event; the move of a drain's cells is an induction over what holds them. -/
theorem bufferAndErrors : Obligations.BufferAndErrors := by
  unfold Obligations.BufferAndErrors
  intro s b hb n state worn leaving moved hit
  have hhit : hit = n.hurt b := rfl
  have hleaving : leaving = n.leavingCells b := rfl
  clear_value hit leaving
  have hmoved : ∀ l l', CellsMoved b l l' → moved l l' := fun l l' h => ⟨h.length, h.off, h.kept⟩
  refine ⟨fun hd hs hw hwait => ⟨fun hdr => ?_, fun hdr k hk hspare hlow => ?_⟩, fun hs hr => ?_, fun hfit hd hdb hs hfree => ?_,
    fun hd hdb hc hw => ?_, fun hf => ?_, fun m h hf hfit => ?_, fun a hd => ⟨?_, fun ha => ⟨fun hin => ?_, fun c x hc hx hin => ?_,
      fun c x hc hx ht hin => ?_, fun e g he hg hin => ?_, fun e he hin => ?_⟩, fun h h' hp => ?_, fun h0 h h' hp => ?_, fun h0 h h' => ?_,
      fun h0 h h' hr hp => ?_⟩, fun a hfit hon hag => agreement_lost hfit hon hag⟩
  · have heq := Node.drainStart_eq hb hd hs hw hwait
    rw [if_pos hdr] at heq
    exact .of_to (congrArg s.to heq)
  · have heq := Node.drainStart_eq hb hd hs hw hwait
    rw [if_neg (by rw [hdr]; decide)] at heq
    have hrd : ∀ j, (n.fault 7 1 b).rd (F.FAB_BANK_STATE j) = n.rd (F.FAB_BANK_STATE j) := fun j => Node.fault_rd _ _ _ _ _ (bankKey_ne_source j)
    have hbegin := Node.drainBegin_eq (n := n.fault 7 1 b) (b := b) (k := k) (by rw [hrd]; exact hs) hk (by rw [hrd]; exact hspare)
      (fun j hj => by rw [hrd]; exact hlow j hj)
    have hbank : (n.fault 7 1 b).bank b = n.bank b := by rw [Node.bank, Node.fault_fab, Node.bank]
    rw [hbank] at hbegin
    exact .of_to (congrArg s.to (heq.trans hbegin))
  · exact .of_to (congrArg s.to (Node.spareCell_eq hb hs hr))
  · rw [hleaving] at hfree ⊢
    refine (drainMove_moves hfit hd hdb hs hfree).imp fun t ⟨hread, hframes, hchans, hengs, hcells⟩ => ⟨hread, fun i hi => ?_, fun c hc => ?_, fun e he => ?_, hcells⟩
    · exact ⟨(hframes i hi).1, hmoved _ _ (hframes i hi).2⟩
    · exact ⟨(hchans c hc).rest, (hchans c hc).txq.imp fun u v h => ⟨h.1, hmoved _ _ h.2⟩, (hchans c hc).rx.imp fun u v h => ⟨h.1, hmoved _ _ h.2⟩,
        (hchans c hc).src.imp fun u v h => ⟨h.1, hmoved _ _ h.2⟩⟩
    · refine ⟨(hengs e he).rest, hmoved _ _ (hengs e he).tx, hmoved _ _ (hengs e he).back, (hengs e he).outs.imp fun u v h => ?_⟩
      cases u with
      | frame g =>
        cases v with
        | frame f => exact ⟨h.1, hmoved _ _ h.2⟩
        | _ => exact h
      | _ => exact h
  · exact .of_to (congrArg s.to (Node.bankRetire_eq hd hdb hc hw))
  · exact .of_to (congrArg s.to (Node.freezeDone_eq hf))
  · refine (freeze_captures h hf hfit).imp fun t ⟨h1, h2, h3, h4, h5, h6, h7⟩ => ⟨h1, h2, h3, h4, h5, fun hle hlt => ?_, h7⟩
    rw [h3, h4, h6]
    exact snapSum hle hlt
  · exact .of_to (congrArg s.to (Node.scrub_corrected hd hb))
  · rw [hhit]
    exact .of_to (congrArg s.to (Node.scrub_frame hb hd ha hin))
  · rw [hhit]
    exact .of_to (congrArg s.to (Node.scrub_rxEntry hb hd ha hc hx hin))
  · rw [hhit]
    exact .of_to (congrArg s.to (Node.scrub_canTx hb hd ha hc hx ht hin))
  · rw [hhit]
    exact .of_to (congrArg s.to (Node.scrub_output hb hd ha he hg hin))
  · rw [hhit]
    exact .of_to (congrArg s.to (Node.scrub_txArea hb hd ha he hin))
  · exact .of_to (congrArg s.to (Node.scrub_table hd h h' hp))
  · exact .of_to (congrArg s.to (Node.scrub_mailbox hd h0 h h' hp))
  · refine ⟨_, .of_to (congrArg s.to (Node.scrub_signal hd h0 h h')), (sigMarked n.mem _).1, fun y hy => (sigMarked n.mem _).2 y (by omega)⟩
  · exact .of_to (congrArg s.to (Node.scrub_code hd h0 h h' hr hp))

end Sys2Proof.Machine
end

section
/-! PROOF. Topology frames the node sends (08 R274 to R277): layout, and which ports they leave at once. -/

namespace Sys2Proof.Machine

open Sys2Proof

/-! ### What sending leaves of a port -/

namespace Sends

variable {m n : Node} (h : Sends m n)
include h

theorem on {f : Fld} (hf : ¬ SendKey f.key) : n.on f = m.on f := by rw [Node.on, h.rd f hf, Node.on]

theorem mode : n.mode = m.mode := by
  obtain ⟨_, _, _, _, _, _, _, hn⟩ := h.eq
  rw [hn]

theorem level : n.level = m.level := by
  obtain ⟨_, _, _, _, _, _, _, hn⟩ := h.eq
  rw [hn]

theorem pair : n.pair = m.pair := by
  obtain ⟨_, _, _, _, _, _, _, hn⟩ := h.eq
  rw [hn]

theorem inaug : n.inaug = m.inaug := by
  obtain ⟨_, _, _, _, _, _, _, hn⟩ := h.eq
  rw [hn]

theorem fab : n.fab = m.fab := by
  obtain ⟨_, _, _, _, _, _, _, hn⟩ := h.eq
  rw [hn]

theorem mem : n.mem = m.mem := by
  obtain ⟨_, _, _, _, _, _, _, hn⟩ := h.eq
  rw [hn]

theorem engs : n.engs = m.engs := by
  obtain ⟨_, _, _, _, _, _, _, hn⟩ := h.eq
  rw [hn]

theorem log : n.log = m.log := by
  obtain ⟨_, _, _, _, _, _, _, hn⟩ := h.eq
  rw [hn]

theorem ident : n.ident = m.ident := by
  obtain ⟨_, _, _, _, _, _, _, hn⟩ := h.eq
  rw [hn]

theorem clockFresh : n.clock.fresh = m.clock.fresh ∧ n.clock.cycles = m.clock.cycles ∧ n.clock.now = m.clock.now ∧ n.clock.held = m.clock.held := by
  obtain ⟨_, _, _, _, _, _, _, hn⟩ := h.eq
  rw [hn]
  exact ⟨rfl, rfl, rfl, rfl⟩

theorem sameLevelInputs : SameLevelInputs n m := by
  have hrd := h.rd
  obtain ⟨_, _, _, _, _, _, _, hn⟩ := h.eq
  refine ⟨by rw [hn], by rw [hn], by rw [hn], by rw [hn], by rw [hn], fun f hf => hrd f (not_sendKey_of_level _ hf)⟩

end Sends

/-- Fields of the port's state and of the line's that sending leaves. -/
theorem not_sendKey_port (p : Nat) {k : Nat} (h0 : k ≠ 0) (hk : k < 32) : ¬ SendKey (32 * (0x10300004 + 0x1000 * p) + k) := fun h => by
  have := h.bounds
  omega

theorem not_sendKey_line {k : Nat} (h : 32 * 0x10400000 ≤ k) : ¬ SendKey k := fun hs => by
  have := hs.bounds
  omega

theorem not_sendKey_low {k : Nat} (h : k < 32 * 0x10100000) : ¬ SendKey k := fun hs => by
  have := hs.bounds
  omega

section
variable {m n : Node}

/-- Nodes that agree in power, claim, relays and link fields agree in what links are up. -/
theorem Node.linkUp_congr {p : Nat} (hl : n.on (F.PRT_STATUS_LINK p) = m.on (F.PRT_STATUS_LINK p)) (hc : n.on (F.BBL_RELAY_CLOSED (lineOf p)) = m.on (F.BBL_RELAY_CLOSED (lineOf p)))
    (hm : n.on (F.BBL_RELAY_MISMATCH (lineOf p)) = m.on (F.BBL_RELAY_MISMATCH (lineOf p))) (hp : n.pair.cut = m.pair.cut) : n.linkUp p = m.linkUp p := by
  simp only [Node.linkUp, Node.joined, hl, hc, hm, hp]

theorem relay_keys (l : Nat) : 32 * 0x10400000 ≤ (F.BBL_RELAY_CLOSED l).key ∧ 32 * 0x10400000 ≤ (F.BBL_RELAY_MISMATCH l).key := by
  simp only [F.BBL_RELAY_CLOSED, F.BBL_RELAY_MISMATCH]
  omega

variable (h : Sends m n)
include h

theorem Sends.linkUp (p : Nat) : n.linkUp p = m.linkUp p :=
  Node.linkUp_congr (h.on (not_sendKey_port p (by decide) (by decide))) (h.on (not_sendKey_line (relay_keys _).1)) (h.on (not_sendKey_line (relay_keys _).2))
    (by rw [h.pair])

theorem Sends.canTx (p : Nat) : n.canTx p = m.canTx p := by
  have hdata : n.dataOn = m.dataOn := h.on (not_sendKey_low (by decide))
  have hclaim : n.on F.PAIR_STATUS_CLAIM_HELD = m.on F.PAIR_STATUS_CLAIM_HELD := h.on (not_sendKey_low (by decide))
  simp only [Node.canTx, Node.forwards, hdata, hclaim, h.pair, h.linkUp]

theorem Sends.nativeUp (p : Nat) : n.nativeUp p = m.nativeUp p := by
  have hcompat : n.on (F.BBL_STATUS_COMPAT (lineOf p) (endOf p)) = m.on (F.BBL_STATUS_COMPAT (lineOf p) (endOf p)) :=
    h.on (not_sendKey_line (by simp only [F.BBL_STATUS_COMPAT]; omega))
  simp only [Node.nativeUp, h.linkUp, hcompat]

theorem Sends.hitless (p : Nat) : n.hitless p = m.hitless p := by
  have hon : n.on (F.BBL_STATUS_HITLESS (lineOf p) (endOf p)) = m.on (F.BBL_STATUS_HITLESS (lineOf p) (endOf p)) :=
    h.on (not_sendKey_line (by simp only [F.BBL_STATUS_HITLESS]; omega))
  simp only [Node.hitless, h.nativeUp, hon]

theorem Sends.topoWorks : n.topoWorks = m.topoWorks := by
  have hdata : n.dataOn = m.dataOn := h.on (not_sendKey_low (by decide))
  have hfailed : n.failed = m.failed := h.sameLevelInputs.failed
  simp only [Node.topoWorks, hdata, h.mode, h.level, hfailed]

end

/-- `n` is `m` but for frames of the node's own; a port that could send one at once still can. -/
structure Speaks (m n : Node) : Prop extends Sends m n where
  ready : ∀ q, m.txFree q → n.txFree q

theorem Sends.txFree {m n : Node} (h : Sends m n) {q : Nat} (hf : m.txFree q) (ho : (n.port q).own = []) : n.txFree q := by
  obtain ⟨_, _, _, hp⟩ := h.port q
  refine ⟨(h.canTx q).trans hf.runs, ?_, ho, (h.on (not_sendKey_port q (by decide) (by decide))).trans hf.wake, ?_⟩
  · rw [hp]
    exact hf.idle
  · rw [hp]
    exact hf.shift

namespace Speaks

variable {a b c : Node}

theorem refl (n : Node) : Speaks n n := ⟨.refl n, fun _ h => h⟩

theorem trans (h : Speaks a b) (g : Speaks b c) : Speaks a c := ⟨h.toSends.trans g.toSends, fun q hq => g.ready q (h.ready q hq)⟩

theorem ite {p : Prop} [Decidable p] (hb : Speaks a b) (hc : Speaks a c) : Speaks a (if p then b else c) := by
  split
  · exact hb
  · exact hc

theorem foldl {α : Type} {g : Node → α → Node} (h : ∀ n x, Speaks n (g n x)) (l : List α) (n : Node) : Speaks n (l.foldl g n) := by
  induction l generalizing n with
  | nil => exact refl n
  | cons x l ih => exact (h n x).trans (ih _)

/-- What leaves the frames that wait alone keeps a port that may send. -/
theorem of_own (h : Sends a b) (ho : ∀ q, (b.port q).own = (a.port q).own) : Speaks a b :=
  ⟨h, fun q hq => h.txFree hq ((ho q).trans hq.first)⟩

theorem of_ports (h : Sends a b) (hp : b.ports = a.ports) : Speaks a b := of_own h fun q => by rw [Node.port, hp, Node.port]

theorem txCount_ports (n : Node) (p : Nat) (x : List Byte) : (n.txCount p x).ports = n.ports := by
  have hone : ∀ (m : Node) (i k : Nat), (m.cntAdd p i k).ports = m.ports := fun m i k => by
    obtain ⟨_, _, _, h⟩ := m.cntAdd_eq p i k
    rw [h]
  unfold Node.txCount
  simp only [hone]

theorem ownNow (n : Node) {p : Nat} (hp : p < 20) (o : OwnFrame) : Speaks n (n.ownNow p o) := by
  refine of_ports (.ownNow n hp o) ?_
  unfold Node.ownNow
  split <;> exact txCount_ports _ p _

/-- A port that may send a frame of the node's own sends it. -/
theorem ownSend_ready {n : Node} {p : Nat} (h : n.txFree p) (o : OwnFrame) : n.ownSend p o = n.ownNow p o := by
  have hquiet : n.quiet p = false := by rw [Node.quiet, h.wake, h.shift]; rfl
  have hbefore : ∀ d, n.beforeSilence p d = true := fun d => by rw [Node.beforeSilence, h.shift]
  have hready : n.ownReady p o = true := by rw [Node.ownReady, hquiet, h.idle, hbefore]; rfl
  rw [Node.ownSend, h.runs, h.first, hready]
  rfl

theorem ownSend (n : Node) {p : Nat} (hp : p < 20) (o : OwnFrame) : Speaks n (n.ownSend p o) := by
  refine ⟨.ownSend n hp o, fun q hq => ?_⟩
  by_cases hqp : q = p
  · subst hqp
    rw [ownSend_ready hq]
    exact (ownNow n hp o).ready q hq
  · refine (Sends.ownSend n hp o).txFree hq ?_
    have hown := (ownNow n hp o)
    unfold Node.ownSend
    split
    · exact hq.first
    · split
      · exact (hown.ready q hq).first
      · rw [Node.port_setPort_ne _ _ hqp]
        exact hq.first

theorem topoSend (n : Node) (p : Nat) (h : List Byte) : Speaks n (n.topoSend p h) := by
  unfold Node.topoSend
  split
  · rename_i hn
    have hp : p < 20 := by
      simp only [Node.nativeUp, Bool.and_eq_true, decide_eq_true_eq] at hn
      omega
    exact ownSend n hp _
  · exact refl n

theorem sendPtp (n : Node) {p : Nat} (hp : p < 20) (k : Nat) (v : List Int) : Speaks n (n.sendPtp p k v) := ownSend n hp _

theorem sendHello (n : Node) (p : Nat) : Speaks n (n.sendHello p) := ite (topoSend n p _) (refl n)

theorem pfcUpd (n : Node) (p : Nat) : Speaks n (n.pfcUpd p) := by
  unfold Node.pfcUpd
  split
  · rename_i hp
    refine foldl (fun m c => ?_) _ n
    refine of_own (.pfcClass m hp c) fun q => ?_
    have hone : ∀ (a : Node) (i k : Nat), (a.cntAdd p i k).ports = a.ports := fun a i k => by
      obtain ⟨_, _, _, h⟩ := a.cntAdd_eq p i k
      rw [h]
    have hsend : ∀ t, (m.sendPfc p c t).ports = m.ports := fun t => by
      unfold Node.sendPfc
      split
      · rw [hone, txCount_ports]
        rfl
      · rfl
    have hport : ∀ t r, (m.sendPfc p c t).port r = m.port r := fun t r => by rw [Node.port, hsend, Node.port]
    unfold Node.pfcClass
    split
    · rfl
    · split
      · rfl
      · by_cases hqp : q = p
        · rw [hqp, Node.port_setPort_same]
        · rw [Node.port_setPort_ne _ _ hqp, hport]
  · exact refl n

end Speaks

/-! ### Frames that go out -/

/-- A frame that a port may send at once goes out. -/
theorem Node.topoSend_sent {n : Node} {p : Nat} (hn : n.nativeUp p = true) (h : n.txFree p) (x : List Byte) :
    Output.frame p (n.topoEth p x) ∈ (n.topoSend p x).out := by
  have hp : p < 20 := Node.canTx_lt h.runs
  rw [Node.topoSend, if_pos hn, Speaks.ownSend_ready h, Node.ownNow]
  obtain ⟨l, hl⟩ := (Sends.txCount (n.emit (.frame p (n.topoEth p x))) hp (n.topoEth p x)).out
  rw [hl]
  exact List.mem_append_right _ List.mem_cons_self

/-- A topology frame: address and EtherType, then header and body, and what pads it. -/
def TopoEth (h b : List Byte) : Prop :=
  ∃ m pad : List Byte, m.length = 6 ∧ b = beBytes 6 0x0180C200000E ++ (m ++ (beBytes 2 0x88B5 ++ (h ++ pad))) ∧ 60 ≤ b.length

theorem Node.topoEth_layout (n : Node) (p : Nat) (h : List Byte) : TopoEth h (n.topoEth p h) := by
  have hlen : ∀ b : List Byte, 60 ≤ (b ++ zeros (60 - b.length)).length := fun b => by
    rw [List.length_append, zeros, List.length_replicate]
    omega
  refine ⟨n.portMac p, zeros (60 - (beBytes 6 0x0180C200000E ++ n.portMac p ++ beBytes 2 0x88B5 ++ h).length), n.portMac_length p, ?_, hlen _⟩
  simp only [Node.topoEth, List.append_assoc]

/-- Frames flooded leave every native port that may send at once. -/
theorem Node.sends_all {l : List Nat} {n : Node} {p : Nat} (h : List Byte) (hp : p ∈ l) (hn : n.nativeUp p = true) (hf : n.txFree p) :
    ∃ b, TopoEth h b ∧ Output.frame p b ∈ (l.foldl (fun a p => a.topoSend p h) n).out := by
  induction l generalizing n with
  | nil => cases hp
  | cons q l ih =>
    have hone := Speaks.topoSend n q h
    rw [List.foldl_cons]
    by_cases hq : p = q
    · subst hq
      obtain ⟨r, hr⟩ := (Speaks.foldl (fun a p => Speaks.topoSend a p h) l (n.topoSend p h)).out
      refine ⟨_, n.topoEth_layout p h, ?_⟩
      rw [hr]
      exact List.mem_append_right _ (Node.topoSend_sent hn hf h)
    · exact ih ((List.mem_cons.mp hp).resolve_left hq) ((hone.nativeUp p).trans hn) (hone.ready p hf)

theorem Node.topoFlood_sent {n : Node} {p : Nat} (h : List Byte) (hp : p < 4) (hn : n.nativeUp p = true) (hf : n.txFree p) :
    ∃ b, TopoEth h b ∧ Output.frame p b ∈ (n.topoFlood h).out := by
  have hmem : p ∈ [0, 1, 2, 3] := by
    simp only [List.mem_cons, List.not_mem_nil, or_false]
    omega
  obtain ⟨b, hb, hout⟩ := Node.sends_all h hmem hn hf
  obtain ⟨r, hr⟩ := (Traffic.topoGrams ([0, 1, 2, 3].foldl (fun a p => a.topoSend p h) n) h).out
  refine ⟨b, hb, ?_⟩
  rw [Node.topoFlood, hr]
  exact List.mem_append_right _ hout

section
variable {h b : List Byte} (hb : TopoEth h b)
include hb

theorem TopoEth.address : beAt b 0 6 = 0x0180C200000E ∧ beAt b 12 2 = 0x88B5 ∧ 60 ≤ b.length := by
  obtain ⟨m, pad, hm, rfl, hlen⟩ := hb
  refine ⟨?_, ?_, hlen⟩
  · rw [beAt_here]
    decide
  · simp (disch := simp [hm]) only [beAt_skip, beBytes_length, hm, Nat.reduceSub, beAt_here, Nat.reducePow, Nat.reduceMod]

theorem TopoEth.drop : ∃ pad, b.drop 14 = h ++ pad := by
  obtain ⟨m, pad, hm, rfl, -⟩ := hb
  refine ⟨pad, ?_⟩
  simp (disch := simp [hm]) only [drop_skip, beBytes_length, hm, Nat.reduceSub, List.drop_zero]

theorem TopoEth.slice {k : Nat} (hk : k = h.length) : Sys2Proof.slice b 14 k = h := by
  obtain ⟨pad, hp⟩ := hb.drop
  rw [Sys2Proof.slice, hp, hk, List.take_left]

end

theorem beAt_drop (b : List Byte) (i j k : Nat) : beAt (b.drop i) j k = beAt b (i + j) k := by rw [beAt, slice_drop, beAt]

/-- The header of R276, field by field. -/
theorem topoHeader_right (ty sender round epoch len : Nat) (r : List Byte) : topoHeader ty sender round epoch len ++ r =
    beBytes 2 0x5439 ++ (leBytes 1 1 ++ (leBytes 1 ty ++ (leBytes 6 sender ++ (leBytes 2 round ++ (leBytes 2 epoch ++ (leBytes 2 len ++ r)))))) := by
  simp only [topoHeader, List.append_assoc]
  rfl

theorem topoHeader_length (ty sender round epoch len : Nat) : (topoHeader ty sender round epoch len).length = 16 := by
  simp [topoHeader, leBytes_length]

/-- What the header shows, whatever follows it. -/
structure ShowsHeader (h : List Byte) (ty sender round epoch len : Nat) : Prop where
  magic : beAt h 0 2 = 0x5439
  version : byteAt h 2 = 1
  type : byteAt h 3 = ty % 256
  sender : leAt h 4 6 = sender % 2 ^ 48
  round : leAt h 10 2 = round % 2 ^ 16
  epoch : leAt h 12 2 = epoch % 2 ^ 16
  len : leAt h 14 2 = len % 2 ^ 16

theorem topoHeader_shows (ty sender round epoch len : Nat) (r : List Byte) :
    ShowsHeader (topoHeader ty sender round epoch len ++ r) ty sender round epoch len := by
  rw [topoHeader_right]
  constructor <;> simp (disch := simp) only [leAt_skip, byteAt_skip, beBytes_length, leBytes_length, Nat.reduceSub, beAt_here, leAt_here, byteAt_here,
    Nat.reducePow, Nat.reduceMod]

/-- What the frame of a header shows from its first byte on. -/
theorem TopoEth.header {b r : List Byte} {ty sender round epoch len : Nat} (hb : TopoEth (topoHeader ty sender round epoch len ++ r) b) :
    beAt b 14 2 = 0x5439 ∧ byteAt b 16 = 1 ∧ byteAt b 17 = ty % 256 ∧ leAt b 18 6 = sender % 2 ^ 48 ∧ leAt b 24 2 = round % 2 ^ 16 ∧
      leAt b 26 2 = epoch % 2 ^ 16 ∧ leAt b 28 2 = len % 2 ^ 16 := by
  obtain ⟨pad, hp⟩ := hb.drop
  rw [List.append_assoc] at hp
  have hs := topoHeader_shows ty sender round epoch len (r ++ pad)
  rw [← hp] at hs
  obtain ⟨h1, h2, h3, h4, h5, h6, h7⟩ := hs
  rw [beAt_drop] at h1
  rw [byteAt_drop] at h2 h3
  rw [leAt_drop] at h4 h5 h6 h7
  exact ⟨h1, h2, h3, h4, h5, h6, h7⟩

/-- A flood of a header's frame, as the ports of the node it starts from see it. -/
theorem Floods.of_flood {n m t : Node} {ty round epoch len : Nat} {r : List Byte} (hty : ty < 256)
    (hn : ∀ p, n.nativeUp p = true → m.nativeUp p = true) (hf : ∀ p, p < 4 → n.txFree p → m.txFree p)
    (ho : ∃ l, t.out = l ++ (m.topoFlood (topoHeader ty n.ident round epoch len ++ r)).out) : Floods n t ty (round % 2 ^ 16) := by
  intro p hp hnat hfree
  obtain ⟨b, hb, hout⟩ := Node.topoFlood_sent (topoHeader ty n.ident round epoch len ++ r) hp (hn p hnat) (hf p hp hfree)
  obtain ⟨l, hl⟩ := ho
  obtain ⟨h1, h2, h3⟩ := hb.address
  obtain ⟨g1, g2, g3, g4, g5, -, -⟩ := hb.header
  refine ⟨b, by rw [hl]; exact List.mem_append_right _ hout, h3, h1, h2, g1, g2, ?_, g4, g5⟩
  rw [g3, Nat.mod_eq_of_lt hty]

end Sys2Proof.Machine
end

section
/-! PROOF. How a round starts and how it fails (08 R285, R290, R291). -/

namespace Sys2Proof.Machine

open Sys2Proof

/-! ### What keeps the service level, and ports that may send -/

/-- The service level and all it depends on stay. -/
structure Steady (m n : Node) : Prop where
  level : n.level = m.level
  inputs : SameLevelInputs n m

namespace Steady

variable {a b c : Node}

theorem refl (n : Node) : Steady n n := ⟨rfl, rfl, rfl, rfl, rfl, rfl, fun _ _ => rfl⟩

theorem trans (h : Steady a b) (g : Steady b c) : Steady a c := ⟨g.level.trans h.level, g.inputs.trans h.inputs⟩

theorem said (n : Node) (l : List Output) : Steady n { n with out := l ++ n.out } := ⟨rfl, rfl, rfl, rfl, rfl, rfl, fun _ _ => rfl⟩

theorem of_traffic (h : Traffic a b) : Steady a b := ⟨h.level, h.sameLevelInputs⟩

theorem of_sends (h : Sends a b) : Steady a b := ⟨h.level, h.sameLevelInputs⟩

theorem of_counts {p : Nat} {I : Nat → Prop} (h : Counts p I a b) : Steady a b := ⟨h.level, h.sameLevelInputs⟩

end Steady

/-- A step to a node that keeps the level: what follows it holds. -/
theorem Yields.of_steady {c : Instr} {s : State} {m : Node} {P : Node → Prop} (he : exec c s = s.to m) (hm : Steady s.node m) (hf : s.node.fits)
    (hp : ∀ t, Follows m t → P t) : Yields c s P := Yields.of_calm he hm.level hm.inputs hf hp

/-- A backbone port that may send a frame of the node's own still may. -/
structure Ready (m n : Node) : Prop where
  native : ∀ p, m.nativeUp p = true → n.nativeUp p = true
  free : ∀ p, p < 4 → m.txFree p → n.txFree p

namespace Ready

variable {a b c : Node}

theorem refl (n : Node) : Ready n n := ⟨fun _ h => h, fun _ _ h => h⟩

theorem trans (h : Ready a b) (g : Ready b c) : Ready a c := ⟨fun p hp => g.native p (h.native p hp), fun p hp hf => g.free p hp (h.free p hp hf)⟩

theorem of_speaks (h : Speaks a b) : Ready a b := ⟨fun p hp => (h.nativeUp p).trans hp, fun p _ => h.ready p⟩

/-- The fields that say whether a port may send, of any port. -/
def PortState (p k : Nat) : Prop :=
  k = F.PWR_ISLANDS_DATA.key ∨ k = F.PAIR_STATUS_CLAIM_HELD.key ∨ k = (F.PRT_STATUS_LINK p).key ∨ k = (F.PRT_STATUS_LPI_TX p).key ∨
    k = (F.BBL_RELAY_CLOSED (lineOf p)).key ∨ k = (F.BBL_RELAY_MISMATCH (lineOf p)).key ∨ k = (F.BBL_STATUS_COMPAT (lineOf p) (endOf p)).key

/-- What keeps the ports' transmitters and the fields that say whether a port may send. -/
theorem of_kept (hport : ∀ p, (b.port p).tx = (a.port p).tx ∧ (b.port p).own = (a.port p).own ∧ (b.port p).shift = (a.port p).shift) (hpair : b.pair = a.pair) (hrd : ∀ p, p < 4 → ∀ f : Fld, PortState p f.key → b.rd f = a.rd f) : Ready a b := by
  have hon : ∀ p, p < 4 → ∀ f : Fld, PortState p f.key → b.on f = a.on f := fun p hp f hf => by rw [Node.on, hrd p hp f hf, Node.on]
  have hlink : ∀ p, p < 4 → b.linkUp p = a.linkUp p := fun p hp => by
    refine Node.linkUp_congr (hon p hp _ ?_) (hon p hp _ ?_) (hon p hp _ ?_) (by rw [hpair])
    · exact .inr (.inr (.inl rfl))
    · exact .inr (.inr (.inr (.inr (.inl rfl))))
    · exact .inr (.inr (.inr (.inr (.inr (.inl rfl)))))
  have hnative : ∀ p, p < 4 → b.nativeUp p = a.nativeUp p := fun p hp => by
    simp only [Node.nativeUp, hlink p hp, hon p hp (F.BBL_STATUS_COMPAT (lineOf p) (endOf p)) (.inr (.inr (.inr (.inr (.inr (.inr rfl))))))]
  have hcan : ∀ p, p < 4 → b.canTx p = a.canTx p := fun p hp => by
    have hdata : b.dataOn = a.dataOn := hon p hp _ (.inl rfl)
    simp only [Node.canTx, Node.forwards, hdata, hon p hp F.PAIR_STATUS_CLAIM_HELD (.inr (.inl rfl)), hpair, hlink p hp]
  refine ⟨fun p hp => ?_, fun p hp hf => ⟨(hcan p hp).trans hf.runs, (hport p).1.trans hf.idle, (hport p).2.1.trans hf.first,
    (hon p hp _ (.inr (.inr (.inr (.inl rfl))))).trans hf.wake, (hport p).2.2.trans hf.shift⟩⟩
  have hp4 : p < 4 := by
    simp only [Node.nativeUp, Bool.and_eq_true, decide_eq_true_eq] at hp
    exact hp.1.1
  exact (hnative p hp4).trans hp

theorem of_same (hports : b.ports = a.ports) (hpair : b.pair = a.pair) (hrd : ∀ p, p < 4 → ∀ f : Fld, PortState p f.key → b.rd f = a.rd f) : Ready a b :=
  of_kept (fun p => by rw [Node.port, hports, ← Node.port]; exact ⟨rfl, rfl, rfl⟩) hpair hrd

theorem portState_bounds {p k : Nat} (hp : p < 4) (h : PortState p k) : k < 32 * 0x10100000 ∨ (32 * 0x10300004 ≤ k ∧ k < 32 * 0x10500000 ∧ k % 32 ≠ 0) := by
  rcases h with rfl | rfl | rfl | rfl | rfl | rfl | rfl
  · exact .inl (by decide)
  · exact .inl (by decide)
  all_goals
    right
    have hl : lineOf p < 2 := Nat.mod_lt _ (by decide)
    have he : endOf p < 2 := by unfold endOf; omega
    simp only [F.PRT_STATUS_LINK, F.PRT_STATUS_LPI_TX, F.BBL_RELAY_CLOSED, F.BBL_RELAY_MISMATCH, F.BBL_STATUS_COMPAT]
    omega

end Ready

/-! ### What the frame unit shows -/

/-- A field of the word that shows the round, but for the count of nodes and the node's position. -/
def InaugKey (k : Nat) : Prop := (32 * 0x10500804 ≤ k ∧ k < 32 * 0x10500808) ∧ k ≠ F.TOP_INAUG_COUNT.key ∧ k ≠ F.TOP_INAUG_POSITION.key

theorem inaugKey_of_offset {k : Nat} (hk : k < 32 ∧ k ≠ 18 ∧ k ≠ 12) : InaugKey (32 * 0x10500804 + k) := by
  simp only [InaugKey, F.TOP_INAUG_COUNT, F.TOP_INAUG_POSITION]
  omega

/-- Only the state of the inauguration changes, and the word that shows it. -/
structure Turns (m n : Node) : Prop where
  eq : ∃ r i, n = { m with regs := r, inaug := i }
  hold : n.inaug.l1Hold = m.inaug.l1Hold
  rd : ∀ f : Fld, ¬ InaugKey f.key → n.rd f = m.rd f

namespace Turns

variable {a b c : Node}

theorem refl (n : Node) : Turns n n := ⟨⟨n.regs, n.inaug, rfl⟩, rfl, fun _ _ => rfl⟩

theorem trans (h : Turns a b) (g : Turns b c) : Turns a c := by
  refine ⟨?_, g.hold.trans h.hold, fun f hf => (g.rd f hf).trans (h.rd f hf)⟩
  obtain ⟨_, _, hb⟩ := h.eq
  obtain ⟨_, _, hc⟩ := g.eq
  rw [hb] at hc
  exact ⟨_, _, hc⟩

theorem wr (n : Node) {f : Fld} (v : Nat) (h : InaugKey f.key) : Turns n (n.wr f v) :=
  ⟨⟨_, _, rfl⟩, rfl, fun _ hg => Node.rd_wr_ne n v fun he => hg (he ▸ h)⟩

theorem inaug (n : Node) {i : Inaug} (h : i.l1Hold = n.inaug.l1Hold) : Turns n { n with inaug := i } := ⟨⟨_, _, rfl⟩, h, fun _ _ => rfl⟩

theorem setTopPort (n : Node) (p : Nat) (x : TopPort) : Turns n (n.setTopPort p x) := inaug n rfl

theorem phase (n : Node) (v : Nat) : Turns n (n.phase v) := wr n v (inaugKey_of_offset (k := 28) (by decide))

theorem idlePhase (n : Node) : Turns n n.idlePhase := phase n _

theorem not_level : ∀ k ∈ levelKeys, ¬ InaugKey k := fun k hk hi => by
  have := levelKeys_lt k hk
  exact absurd hi.1.1 (by omega)

variable (h : Turns a b)
include h

theorem steady : Steady a b := by
  have hrd := h.rd
  have hhold := h.hold
  obtain ⟨_, _, hb⟩ := h.eq
  exact ⟨by rw [hb], by rw [hb], by rw [hb], by rw [hb], by rw [hb], hhold, fun f hf => hrd f (not_level _ hf)⟩

theorem ready : Ready a b := by
  have hrd := h.rd
  obtain ⟨_, _, hb⟩ := h.eq
  refine .of_same (by rw [hb]) (by rw [hb]) fun p hp f hf => hrd f fun hi => ?_
  have := Ready.portState_bounds hp hf
  have := hi.1.1
  have := hi.1.2
  omega

theorem fab : b.fab = a.fab := by
  obtain ⟨_, _, hb⟩ := h.eq
  rw [hb]

theorem log : b.log = a.log := by
  obtain ⟨_, _, hb⟩ := h.eq
  rw [hb]

theorem out : b.out = a.out := by
  obtain ⟨_, _, hb⟩ := h.eq
  rw [hb]

theorem ident : b.ident = a.ident := by
  obtain ⟨_, _, hb⟩ := h.eq
  rw [hb]

theorem clock : b.clock = a.clock := by
  obtain ⟨_, _, hb⟩ := h.eq
  rw [hb]

theorem epoch : b.epoch = a.epoch := h.rd _ (fun hi => absurd hi.1.1 (by decide))

theorem topoWorks : b.topoWorks = a.topoWorks := by
  have hdata : b.dataOn = a.dataOn := by
    rw [Node.dataOn, Node.on, h.rd _ (fun hi => absurd hi.1.1 (by decide)), ← Node.on, Node.dataOn]
  have hs := h.steady
  simp only [Node.topoWorks, hdata, hs.inputs.mode, hs.level, hs.inputs.failed]

end Turns

/-! ### A round starts (R285) -/

/-- The state of the inauguration as a round starts. -/
def Inaug.opened (i : Inaug) (now : Nat) : Inaug :=
  { i with round := (i.round + 1) % 65536, openR := true, start := now, reports := [], proposes := [],
           confirms := [], cands := [], proposed := false, confirmed := false, waiting := false, ended := false, late := false }

/-- The node in which a round has opened, before its REPORT is held. -/
def Node.roundOpened (n : Node) : Node :=
  let m := { n with inaug := n.inaug.opened n.clock.fresh }
  (if m.seesStandard then m.put F.TOP_INAUG_STANDARD true else m).phase 1

theorem Node.roundOpened_turns (n : Node) : Turns n n.roundOpened := by
  have hin : Turns n { n with inaug := n.inaug.opened n.clock.fresh } := .inaug n rfl
  unfold Node.roundOpened
  dsimp only
  split
  · exact (hin.trans (.wr _ _ (inaugKey_of_offset (k := 27) (by decide)))).trans (.phase _ 1)
  · exact hin.trans (.phase _ 1)

theorem Node.roundOpened_inaug (n : Node) : n.roundOpened.inaug = n.inaug.opened n.clock.fresh := by
  unfold Node.roundOpened
  dsimp only
  split <;> rfl

theorem Node.roundOpened_phase (n : Node) : n.roundOpened.rd F.TOP_INAUG_PHASE = 1 := by
  unfold Node.roundOpened Node.phase
  exact Node.rd_wr_same ..

/-- A round starts where none is open and no commit is scheduled. -/
theorem Node.startRound_eq {n : Node} (hw : n.topoWorks = true) (ho : n.inaug.openR = false) (hs : n.inaug.sched = none) :
    let m := n.roundOpened
    n.startRound = { m with inaug := m.inaug.hold m.ownReport }.topoFlood m.ownReport := by
  have hgo : ¬ (!n.topoWorks || n.inaug.openR || n.inaug.sched.isSome) = true := by simp [hw, ho, hs]
  have hround : n.startRound = n.roundOpened.refreshReport := by
    rw [Node.startRound, if_neg hgo]
    rfl
  have hopen : n.roundOpened.inaug.openR = true ∧ n.roundOpened.inaug.reports = [] := by
    rw [n.roundOpened_inaug]
    exact ⟨rfl, rfl⟩
  rw [hround, Node.refreshReport]
  simp only [hopen.1, hopen.2, List.any_nil, Bool.not_false, Bool.and_true, if_true]

theorem Inaug.hold_ports (i : Inaug) (h : List Byte) : (i.hold h).ports = i.ports ∧ (i.hold h).openR = i.openR ∧ (i.hold h).round = i.round ∧
    (i.hold h).l1Hold = i.l1Hold ∧ (i.hold h).reports = i.reports.filter (fun f => f.sender != topoSender h) ++ [Flood.mk (topoSender h) h] :=
  ⟨rfl, rfl, rfl, rfl, rfl⟩

/-- The body of the node's REPORT (R277). -/
def Node.reportBody (n : Node) : List Byte := n.ownReport.drop 16

theorem Node.ownReport_parts (n : Node) : n.ownReport = topoHeader 2 n.ident n.inaug.round n.epoch 76 ++ n.reportBody := by
  have hlen := topoHeader_length 2 n.ident n.inaug.round n.epoch 76
  obtain ⟨r, hr⟩ : ∃ r, n.ownReport = topoHeader 2 n.ident n.inaug.round n.epoch 76 ++ r := ⟨_, by
    simp only [Node.ownReport, List.append_assoc]
    rfl⟩
  rw [Node.reportBody, hr, drop_skip _ (by omega), hlen]
  rfl

theorem Node.ownReport_shows (n : Node) : ShowsHeader n.ownReport 2 n.ident n.inaug.round n.epoch 76 := by
  rw [n.ownReport_parts]
  exact topoHeader_shows ..

/-- What a flood of the frame unit leaves. -/
theorem Traffic.topo_rd {m n : Node} (h : Traffic m n) {f : Fld} (hf : 32 * 0x10500800 ≤ f.key ∧ f.key < 32 * 0x10500830) : n.rd f = m.rd f := by
  refine h.rd f fun hk => ?_
  have hport : ¬ PortKey f.key := fun hp => by
    unfold PortKey at hp
    omega
  have hsrc : F.MGT_FAULT_SOURCE.key < 32 * 0x10500800 := by decide
  rcases hk with h | h | h | h | h | h
  · exact hport h
  all_goals omega

theorem Node.startRound_traffic {n : Node} (hw : n.topoWorks = true) (ho : n.inaug.openR = false) (hs : n.inaug.sched = none) :
    ∃ m, Turns n m ∧ m.inaug = (n.inaug.opened n.clock.fresh).hold n.roundOpened.ownReport ∧ m.rd F.TOP_INAUG_PHASE = 1 ∧
      n.startRound = m.topoFlood n.roundOpened.ownReport := by
  have hturn := n.roundOpened_turns
  refine ⟨{ n.roundOpened with inaug := n.roundOpened.inaug.hold n.roundOpened.ownReport }, hturn.trans (.inaug _ rfl), by rw [n.roundOpened_inaug],
    n.roundOpened_phase, Node.startRound_eq hw ho hs⟩

section
variable {n : Node} (hw : n.topoWorks = true) (ho : n.inaug.openR = false) (hs : n.inaug.sched = none)
include hw ho hs

theorem Node.startRound_steady : Steady n n.startRound := by
  obtain ⟨m, hm, -, -, heq⟩ := Node.startRound_traffic hw ho hs
  rw [heq]
  exact hm.steady.trans (.of_traffic (.topoFlood m _))

theorem Node.startRound_out : ∃ l, n.startRound.out = l ++ n.out := by
  obtain ⟨m, hm, -, -, heq⟩ := Node.startRound_traffic hw ho hs
  obtain ⟨l, hl⟩ := (Traffic.topoFlood m n.roundOpened.ownReport).out
  exact ⟨l, by rw [heq, hl, hm.out]⟩

theorem Node.startRound_inaug : n.startRound.inaug = (n.inaug.opened n.clock.fresh).hold n.roundOpened.ownReport := by
  obtain ⟨m, -, hi, -, heq⟩ := Node.startRound_traffic hw ho hs
  rw [heq, (Traffic.topoFlood m _).inaug, hi]

theorem Node.startRound_topPort (q : Nat) : n.startRound.topPort q = n.topPort q := by
  rw [Node.topPort, Node.startRound_inaug hw ho hs]
  rfl

/-- A round that starts shows itself, and its REPORT goes out. -/
theorem Node.startRound_started : RoundStarted n n.startRound := by
  obtain ⟨m, hm, hi, hphase, heq⟩ := Node.startRound_traffic hw ho hs
  have hin := Node.startRound_inaug hw ho hs
  have hround : n.roundOpened.inaug.round = (n.inaug.round + 1) % 65536 := by rw [n.roundOpened_inaug]; rfl
  have hident : n.roundOpened.ident = n.ident := n.roundOpened_turns.ident
  have hshows := n.roundOpened.ownReport_shows
  have hbody := n.roundOpened.ownReport_parts
  rw [hround, hident] at hshows hbody
  generalize n.roundOpened.ownReport = h at hin heq hshows hbody
  have hsmall : (n.inaug.round + 1) % 65536 % 2 ^ 16 = (n.inaug.round + 1) % 65536 := Nat.mod_eq_of_lt (Nat.mod_lt _ (by decide))
  obtain ⟨-, hopen, hnew, -, hreports⟩ := Inaug.hold_ports (n.inaug.opened n.clock.fresh) h
  rw [← hin] at hopen hnew hreports
  refine ⟨hopen, hnew, ?_, ⟨⟨topoSender h, h⟩, ?_, hshows.sender, ?_⟩, ?_⟩
  · rw [heq, (Traffic.topoFlood m _).topo_rd (by decide), hphase]
  · rw [hreports]
    exact List.mem_append_right _ List.mem_cons_self
  · rw [hnew]
    exact hshows.round.trans hsmall
  · rw [hnew]
    have hflood := Floods.of_flood (n := n) (m := m) (t := n.startRound) (ty := 2) (round := (n.inaug.round + 1) % 65536) (epoch := n.roundOpened.epoch) (len := 76)
      (r := n.roundOpened.reportBody) (by decide) hm.ready.native hm.ready.free ⟨[], by rw [heq, ← hbody, List.nil_append]⟩
    rwa [hsmall] at hflood

end


/-! ### A round fails (R290, R291) -/

theorem Node.sendBlocks_out (n : Node) (agree : Bool) (q : Nat) (b : List Byte) : ∃ l, n.sendBlocks agree q b = { n with out := l ++ n.out } := by
  unfold Node.sendBlocks
  dsimp only
  generalize List.range ((b.length + 4095) / 4096) = r
  generalize (b.length + 4095) / 4096 = k
  induction r generalizing n with
  | nil => exact ⟨[], rfl⟩
  | cons i r ih =>
    obtain ⟨o, ho⟩ : ∃ o, o = Output.ckptBlock agree q i (i + 1 == k)
      (fit 4096 (slice b (4096 * i) 4096) ++ leBytes 4 (crc32c (fit 4096 (slice b (4096 * i) 4096)))) := ⟨_, rfl⟩
    obtain ⟨l, hl⟩ := ih (n.emit o)
    refine ⟨l ++ [o], ?_⟩
    rw [List.append_assoc, List.foldl_cons, ← ho]
    exact hl

theorem Node.agreeCancel_out (n : Node) : ∃ l, n.agreeCancel = { n with out := l ++ n.out } := by
  unfold Node.agreeCancel
  split
  · exact n.sendBlocks_out _ _ _
  · exact ⟨[], rfl⟩

/-- Failures in a row over one closed set, once a round has failed (R291). -/
def Node.failsNow (n : Node) (cause : Nat) : Nat :=
  if cause = 6 then n.rd F.TOP_INAUG_FAILS else if sameSet n.reportSet n.inaug.lastSet then min 3 (n.rd F.TOP_INAUG_FAILS + 1) else 1

/-- The state of the inauguration as a round is dropped. -/
def Inaug.dropped (i : Inaug) (set : List Nat) : Inaug :=
  { i with openR := false, sched := none, dirHeld := false, proposed := false, confirmed := false, proposes := [],
           confirms := [], cands := [], ended := false, waiting := true, lastSet := set }

/-- The node in which a round has been dropped, before HOLD_FAIL. -/
def Node.roundDropped (n : Node) (cause : Nat) : Node :=
  (Node.wr { n with inaug := n.inaug.dropped n.reportSet } F.TOP_INAUG_FAILS (n.failsNow cause)).idlePhase

theorem Node.roundDropped_turns (n : Node) (cause : Nat) : Turns n (n.roundDropped cause) :=
  ((Turns.inaug n (i := n.inaug.dropped n.reportSet) rfl).trans (.wr _ (f := F.TOP_INAUG_FAILS) (n.failsNow cause) (inaugKey_of_offset (k := 8) (by decide)))).trans
    (.idlePhase _)

theorem Node.roundDropped_inaug (n : Node) (cause : Nat) : (n.roundDropped cause).inaug = n.inaug.dropped n.reportSet := rfl

/-- What a round's end leaves, but for what has been told the partner. -/
theorem Node.dropRound_eq (n : Node) (cause : Nat) : ∃ l, n.dropRound cause =
    let m := Node.roundDropped { n with out := l ++ n.out } cause
    if cause ≠ 6 ∧ n.failsNow cause = 3 then
      if (n.rd F.TOP_INAUG_FAILS == 3) = true then m.phase 6 else ((m.phase 6).put F.TOP_INAUG_HOLD_FAIL true).fault 10 3 n.epoch
    else m := by
  obtain ⟨l, hl⟩ := n.agreeCancel_out
  refine ⟨l, ?_⟩
  have hepoch : (Node.roundDropped { n with out := l ++ n.out } cause |>.phase 6).epoch = n.epoch :=
    ((Node.roundDropped_turns { n with out := l ++ n.out } cause).trans (.phase _ 6)).epoch
  rw [← hepoch, Node.dropRound, hl]
  rfl


/-- A round's end is a turn of the frame unit, with the record of HOLD_FAIL at most. -/
theorem Node.dropRound_turns (n : Node) (cause : Nat) : ∃ l k, Turns { n with out := l ++ n.out } k ∧ k.inaug = n.inaug.dropped n.reportSet ∧
    k.rd F.TOP_INAUG_CAUSE = n.rd F.TOP_INAUG_CAUSE ∧ (n.dropRound cause = k ∨ n.dropRound cause = k.fault 10 3 n.epoch) := by
  obtain ⟨l, heq⟩ := n.dropRound_eq cause
  obtain ⟨m, hm⟩ : ∃ m, m = Node.roundDropped { n with out := l ++ n.out } cause := ⟨_, rfl⟩
  have hturn : Turns { n with out := l ++ n.out } m := hm ▸ Node.roundDropped_turns _ cause
  have hin : m.inaug = n.inaug.dropped n.reportSet := by rw [hm, Node.roundDropped_inaug] <;> rfl
  have hcause : m.rd F.TOP_INAUG_CAUSE = n.rd F.TOP_INAUG_CAUSE := by
    rw [hm, Node.roundDropped, Node.idlePhase, Node.phase, Node.rd_wr_ne _ _ (by decide), Node.rd_wr_ne _ _ (by decide)]
    rfl
  have hkey : InaugKey F.TOP_INAUG_HOLD_FAIL.key := inaugKey_of_offset (k := 24) (by decide)
  dsimp only at heq
  rw [← hm] at heq
  split at heq
  · split at heq
    · exact ⟨l, m.phase 6, hturn.trans (.phase _ 6), hin, (Node.rd_wr_ne _ _ (by decide)).trans hcause, .inl heq⟩
    · exact ⟨l, (m.phase 6).put F.TOP_INAUG_HOLD_FAIL true, (hturn.trans (.phase _ 6)).trans (.wr _ _ hkey), hin,
        (Node.rd_put_ne _ _ (by decide)).trans ((Node.rd_wr_ne _ _ (by decide)).trans hcause), .inr heq⟩
  · exact ⟨l, m, hturn, hin, hcause, .inl heq⟩

section
variable (n : Node) (cause : Nat)

theorem Node.dropRound_inaug : (n.dropRound cause).inaug = n.inaug.dropped n.reportSet := by
  obtain ⟨l, k, -, hk, -, h | h⟩ := n.dropRound_turns cause
  · rw [h, hk]
  · rw [h, Node.fault_inaug, hk]

theorem Node.dropRound_topPort (q : Nat) : (n.dropRound cause).topPort q = n.topPort q := by
  rw [Node.topPort, Node.dropRound_inaug]
  rfl

theorem Node.dropRound_steady : Steady n (n.dropRound cause) := by
  obtain ⟨l, k, ht, -, -, h | h⟩ := n.dropRound_turns cause
  · rw [h]
    exact (Steady.said n l).trans ht.steady
  · rw [h]
    exact ((Steady.said n l).trans ht.steady).trans (.of_traffic (.fault k 10 3 _))

theorem Node.dropRound_fab : (n.dropRound cause).fab = n.fab := by
  obtain ⟨l, k, ht, -, -, h | h⟩ := n.dropRound_turns cause
  · rw [h, ht.fab]
  · rw [h, Node.fault_fab, ht.fab]

theorem Node.dropRound_out : ∃ l, (n.dropRound cause).out = l ++ n.out := by
  obtain ⟨l, k, ht, -, -, h | h⟩ := n.dropRound_turns cause
  · exact ⟨l, by rw [h, ht.out]⟩
  · obtain ⟨r, hr⟩ := (Traffic.fault k 10 3 n.epoch).out
    exact ⟨r ++ l, by rw [h, hr, ht.out, List.append_assoc]⟩

theorem Node.dropRound_rd {f : Fld} (hf : ¬ InaugKey f.key) (hs : f.key ≠ F.MGT_FAULT_SOURCE.key) : (n.dropRound cause).rd f = n.rd f := by
  obtain ⟨l, k, ht, -, -, h | h⟩ := n.dropRound_turns cause
  · rw [h, ht.rd f hf]
    rfl
  · rw [h, Node.fault_rd _ _ _ _ _ hs, ht.rd f hf]
    rfl

theorem Node.dropRound_cause : (n.dropRound cause).rd F.TOP_INAUG_CAUSE = n.rd F.TOP_INAUG_CAUSE := by
  obtain ⟨l, k, -, -, hc, h | h⟩ := n.dropRound_turns cause
  · rw [h, hc]
  · rw [h, Node.fault_rd _ _ _ _ _ (by decide), hc]

end

theorem Node.failsNow_le (n : Node) {cause : Nat} (h : cause ≠ 6) : n.failsNow cause ≤ 3 := by
  unfold Node.failsNow
  rw [if_neg h]
  split <;> omega

/-- FAILS once the round has been dropped. -/
theorem Node.dropRound_fails (n : Node) {cause : Nat} (h : cause ≠ 6) : (n.dropRound cause).rd F.TOP_INAUG_FAILS = n.failsNow cause := by
  have hsmall := n.failsNow_le h
  obtain ⟨l, heq⟩ := n.dropRound_eq cause
  have hm : Node.rd (Node.roundDropped { n with out := l ++ n.out } cause) F.TOP_INAUG_FAILS = n.failsNow cause := by
    rw [Node.roundDropped, Node.idlePhase, Node.phase, Node.rd_wr_ne _ _ (by decide), Node.rd_wr_same]
    exact Nat.mod_eq_of_lt (lt_of_le_of_lt hsmall (by decide))
  rw [heq]
  dsimp only
  split
  · split
    · rw [Node.phase, Node.rd_wr_ne _ _ (by decide), hm]
    · rw [Node.fault_rd _ _ _ _ _ (by decide), Node.rd_put_ne _ _ (by decide), Node.phase, Node.rd_wr_ne _ _ (by decide), hm]
  · exact hm

theorem Node.dropRound_held (n : Node) {cause : Nat} (h : cause ≠ 6) (h3 : n.failsNow cause = 3) : (n.dropRound cause).rd F.TOP_INAUG_PHASE = 6 ∧
    (n.rd F.TOP_INAUG_FAILS ≠ 3 → (n.dropRound cause).on F.TOP_INAUG_HOLD_FAIL = true ∧ (n.log.staged.length < 64 → (n.dropRound cause).hasRecord 10 3 n.epoch)) := by
  obtain ⟨l, heq⟩ := n.dropRound_eq cause
  have hlog : (Node.roundDropped { n with out := l ++ n.out } cause).log = n.log := (Node.roundDropped_turns _ cause).log
  generalize Node.roundDropped { n with out := l ++ n.out } cause = m at heq hlog
  dsimp only at heq
  rw [if_pos ⟨h, h3⟩] at heq
  rw [heq]
  by_cases hf : n.rd F.TOP_INAUG_FAILS = 3
  · rw [if_pos (by rw [hf]; rfl)]
    exact ⟨Node.rd_wr_same .., fun hne => absurd hf hne⟩
  · rw [if_neg (by simpa using hf)]
    refine ⟨?_, fun _ => ⟨?_, fun hlen => ?_⟩⟩
    · rw [Node.fault_rd _ _ _ _ _ (by decide), Node.rd_put_ne _ _ (by decide)]
      exact Node.rd_wr_same ..
    · rw [Node.fault_on _ _ _ _ (by decide)]
      exact Node.on_put_same _ _ _ rfl
    · exact Node.hasRecord_self _ 10 3 _ (show m.log.staged.length < 64 from hlog ▸ hlen)

theorem Node.dropRound_idle (n : Node) {cause : Nat} (h3 : n.failsNow cause ≠ 3) :
    (n.dropRound cause).rd F.TOP_INAUG_PHASE = if n.inGrace = true then 5 else 0 := by
  obtain ⟨l, heq⟩ := n.dropRound_eq cause
  dsimp only at heq
  rw [if_neg fun hc => h3 hc.2] at heq
  rw [heq, Node.roundDropped, Node.idlePhase, Node.phase, Node.rd_wr_same]
  have hgrace : Node.inGrace (Node.wr { n with out := l ++ n.out, inaug := n.inaug.dropped n.reportSet } F.TOP_INAUG_FAILS (n.failsNow cause)) = n.inGrace := rfl
  split
  · next hg => rw [if_pos (hgrace ▸ hg)]; rfl
  · next hg => rw [if_neg (hgrace ▸ hg)]; rfl

/-- A round that is dropped has failed, with the cause shown. -/
theorem Node.dropRound_failed {n : Node} {cause : Nat} (h : cause ≠ 6) (hc : n.rd F.TOP_INAUG_CAUSE = cause) : RoundFailed n (n.dropRound cause) cause := by
  have hfails := n.dropRound_fails h
  refine ⟨?_, ?_, (n.dropRound_cause cause).trans hc, fun hs => ?_, fun hs => ?_, fun h3 => n.dropRound_held h (hfails ▸ h3), fun h3 => n.dropRound_idle (hfails ▸ h3)⟩
  · rw [n.dropRound_inaug]
    exact ⟨rfl, rfl, rfl, rfl⟩
  · rw [n.dropRound_inaug]
    rfl
  · rw [hfails, Node.failsNow, if_neg h, if_pos hs]
  · rw [hfails, Node.failsNow, if_neg h, if_neg (by rw [hs]; decide)]

/-! ### The flood of an ABORT -/

/-- The header and body of an ABORT. -/
def Node.abortBytes (n : Node) (cause : Nat) : List Byte := topoHeader 5 n.ident n.inaug.round n.epoch 4 ++ [BitVec.ofNat 8 cause, 0, 0, 0]

/-- A table but the policers' depends on the tables' memory alone. -/
theorem Node.tabW_of_memory {m n : Node} (hmem : n.mem = m.mem) (htabs : n.tabs = m.tabs) (hpoison : n.poison = m.poison) {t : Nat} (ht : t ≠ 3) (i j : Nat) :
    n.tabW t i j = m.tabW t i j := by
  have htab : n.tab t = m.tab t := by rw [Node.tab, htabs, Node.tab]
  have hword : ∀ w, n.word w = m.word w := fun w => by rw [Node.word, hmem, Node.word]
  have hbad : ∀ w, n.badWord w = m.badWord w := fun w => by rw [Node.badWord, hpoison, Node.badWord]
  rw [Node.tabW, Node.tabW, Node.tabRead, Node.tabRead, htab]
  cases hd : m.tab t with
  | none => rfl
  | some d =>
    have hnum : d.num ≠ 3 := by
      have := List.find?_some hd
      rw [beq_iff_eq] at this
      omega
    have hok : n.entryOk d false i = m.entryOk d false i := by
      have hbads : n.badWord = m.badWord := funext hbad
      simp only [Node.entryOk, Node.entryBad, Node.used, hbads, hword]
    have hdata : n.entryData d false i = m.entryData d false i := by
      simp only [Node.entryData, hword, hnum, false_and, if_false]
    simp only [hok, hdata]

/-- What is flooded without datagrams. -/
theorem Node.topoFlood_speaks {n : Node} {h : List Byte} (hg : topoType h ∉ [2, 3, 4] ∨ n.tn9Peers = []) : Speaks n (n.topoFlood h) := by
  have hsends := Speaks.foldl (fun a p => Speaks.topoSend a p h) [0, 1, 2, 3] n
  have hpeers : Node.tn9Peers ([0, 1, 2, 3].foldl (fun a p => a.topoSend p h) n) = n.tn9Peers := by
    have hrd : ∀ f : Fld, 32 * 0x10400000 ≤ f.key → Node.rd ([0, 1, 2, 3].foldl (fun a p => a.topoSend p h) n) f = n.rd f :=
      fun f hf => hsends.rd f (not_sendKey_line hf)
    have htab : ∀ i j, Node.tabW ([0, 1, 2, 3].foldl (fun a p => a.topoSend p h) n) 8 i j = n.tabW 8 i j := by
      obtain ⟨_, _, _, _, _, _, _, heq⟩ := hsends.eq
      exact fun i j => Node.tabW_of_memory (by rw [heq]) (by rw [heq]) (by rw [heq]) (by decide) i j
    simp only [Node.tn9Peers, Node.position, htab, hrd _ (show 32 * 0x10400000 ≤ F.TOP_INAUG_COUNT.key by decide),
      hrd _ (show 32 * 0x10400000 ≤ F.TOP_INAUG_POSITION.key by decide)]
  have hgrams : Node.topoGrams ([0, 1, 2, 3].foldl (fun a p => a.topoSend p h) n) h = [0, 1, 2, 3].foldl (fun a p => a.topoSend p h) n := by
    unfold Node.topoGrams
    rcases hg with hg | hg
    · rw [if_neg]
      simp [hg]
    · rw [hpeers, hg]
      split <;> rfl
  rw [Node.topoFlood, hgrams]
  exact hsends

theorem Node.abortBytes_type (n : Node) (cause : Nat) : topoType (n.abortBytes cause) ∉ [2, 3, 4] := by
  have h := (topoHeader_shows 5 n.ident n.inaug.round n.epoch 4 [BitVec.ofNat 8 cause, 0, 0, 0]).type
  have htype : topoType (n.abortBytes cause) = 5 := h
  rw [htype]
  decide

/-- The node once it has flooded an ABORT. -/
def Node.abortSent (n : Node) (cause : Nat) : Node := (n.topoFlood (n.abortBytes cause)).wr F.TOP_INAUG_CAUSE cause

theorem Node.sendAbort_eq (n : Node) (cause : Nat) : n.sendAbort cause = (n.abortSent cause).dropRound cause := rfl

section
variable (n : Node) (cause : Nat)

theorem Node.abortFlood_speaks : Speaks n (n.topoFlood (n.abortBytes cause)) := Node.topoFlood_speaks (.inl (n.abortBytes_type cause))

theorem Node.abortSent_turns : Turns (n.topoFlood (n.abortBytes cause)) (n.abortSent cause) := .wr _ _ (inaugKey_of_offset (k := 0) (by decide))

theorem Node.abortSent_inaug : (n.abortSent cause).inaug = n.inaug := by
  rw [Node.abortSent, Node.wr_inaug, (n.abortFlood_speaks cause).inaug]

theorem Node.sendAbort_inaug : (n.sendAbort cause).inaug = n.inaug.dropped n.reportSet := by
  rw [n.sendAbort_eq, Node.dropRound_inaug, Node.reportSet, n.abortSent_inaug, Node.reportSet]

theorem Node.sendAbort_topPort (q : Nat) : (n.sendAbort cause).topPort q = n.topPort q := by
  rw [Node.topPort, n.sendAbort_inaug]
  rfl

theorem Node.sendAbort_fab : (n.sendAbort cause).fab = n.fab := by
  rw [n.sendAbort_eq, Node.dropRound_fab, (n.abortSent_turns cause).fab, (n.abortFlood_speaks cause).fab]

theorem Node.sendAbort_steady : Steady n (n.sendAbort cause) := by
  rw [n.sendAbort_eq]
  exact ((Steady.of_sends (n.abortFlood_speaks cause).toSends).trans (n.abortSent_turns cause).steady).trans (Node.dropRound_steady _ cause)

theorem Node.sendAbort_out : ∃ l, (n.sendAbort cause).out = l ++ (n.topoFlood (n.abortBytes cause)).out := by
  rw [n.sendAbort_eq, ← (n.abortSent_turns cause).out]
  exact Node.dropRound_out _ cause

/-- The ABORT goes out of the ports that may send. -/
theorem Node.sendAbort_floods : Floods n (n.sendAbort cause) 5 (n.inaug.round % 2 ^ 16) :=
  .of_flood (m := n) (by decide) (fun _ h => h) (fun _ _ h => h) (n.sendAbort_out cause)

end

/-- A failure of a node that agrees with another is one of the other. -/
theorem RoundFailed.of_same {n m t : Node} {cause : Nat} (h : RoundFailed m t cause) (hset : m.reportSet = n.reportSet) (hlast : m.inaug.lastSet = n.inaug.lastSet)
    (hfails : m.rd F.TOP_INAUG_FAILS = n.rd F.TOP_INAUG_FAILS) (hlog : m.log = n.log) (hepoch : m.epoch = n.epoch) (hgrace : m.inGrace = n.inGrace) :
    RoundFailed n t cause := by
  obtain ⟨h1, h2, h3, h4, h5, h6, h7⟩ := h
  rw [hset, hlast] at h4 h5
  rw [hfails] at h4 h6
  rw [hlog, hepoch] at h6
  rw [hgrace] at h7
  exact ⟨h1, h2, h3, h4, h5, h6, h7⟩

/-- A round that the node ends with an ABORT has failed. -/
theorem Node.sendAbort_failed (n : Node) {cause : Nat} (h : cause < 8) (h6 : cause ≠ 6) : RoundFailed n (n.sendAbort cause) cause := by
  have hs := n.abortFlood_speaks cause
  have ht := n.abortSent_turns cause
  have hin := n.abortSent_inaug cause
  have hc : (n.abortSent cause).rd F.TOP_INAUG_CAUSE = cause := by
    rw [Node.abortSent, Node.rd_wr_same]
    exact Nat.mod_eq_of_lt h
  rw [n.sendAbort_eq]
  refine (Node.dropRound_failed h6 hc).of_same (by rw [Node.reportSet, hin, Node.reportSet]) (by rw [hin]) ?_ (ht.log.trans hs.log) ?_ (by rw [Node.inGrace, hin, Node.inGrace])
  · rw [Node.abortSent, Node.rd_wr_ne _ _ (by decide), hs.rd _ (not_sendKey_line (by decide))]
  · exact ht.epoch.trans (hs.rd _ (not_sendKey_line (by decide)))

end Sys2Proof.Machine
end

section
/-! PROOF. How a topology frame comes in: through the MAC, along its line, to the queue of the topology engine (08 R275, R279, R284). -/

namespace Sys2Proof.Machine

open Sys2Proof

/-! ### What the frame unit does besides -/

/-- The free cells depend on the fabric and on what the bank registers show. -/
theorem Node.freeCells_of_fab {a b : Node} (hfab : b.fab = a.fab) (hstate : ∀ k, k < 26 → b.rd (F.FAB_BANK_STATE k) = a.rd (F.FAB_BANK_STATE k)) :
    b.freeCells = a.freeCells := by
  have hserv : b.serviceBanks = a.serviceBanks := by
    unfold Node.serviceBanks
    refine List.filter_congr fun k hk => ?_
    rw [hstate k (List.mem_range.mp hk)]
  have hbank : ∀ k, b.bank k = a.bank k := fun k => by rw [Node.bank, hfab, Node.bank]
  simp only [Node.freeCells, hserv, hbank]

/-- Only the state of the inauguration and its word change, ports send, and frames are counted. -/
structure Talks (m n : Node) : Prop where
  eq : ∃ r p c d k t o i, n = { m with
    regs := r, ports := p, cnt := c, delta := d, freeN := k, clock := { m.clock with ports := t }, out := o, inaug := i }
  hold : n.inaug.l1Hold = m.inaug.l1Hold
  rd : ∀ f : Fld, ¬ SendKey f.key → ¬ InaugKey f.key → n.rd f = m.rd f
  ready : Ready m n
  out : ∃ l, n.out = l ++ m.out

namespace Talks

variable {a b c : Node}

theorem refl (n : Node) : Talks n n := ⟨⟨_, _, _, _, _, _, _, _, rfl⟩, rfl, fun _ _ _ => rfl, .refl n, [], rfl⟩

theorem trans (h : Talks a b) (g : Talks b c) : Talks a c := by
  refine ⟨?_, g.hold.trans h.hold, fun f hf hi => (g.rd f hf hi).trans (h.rd f hf hi), h.ready.trans g.ready, ?_⟩
  · obtain ⟨_, _, _, _, _, _, _, _, hb⟩ := h.eq
    obtain ⟨_, _, _, _, _, _, _, _, hc⟩ := g.eq
    rw [hb] at hc
    exact ⟨_, _, _, _, _, _, _, _, hc⟩
  · obtain ⟨_, hb⟩ := h.out
    obtain ⟨_, hc⟩ := g.out
    exact ⟨_, by rw [hc, hb, ← List.append_assoc]⟩

theorem ite {p : Prop} [Decidable p] (hb : Talks a b) (hc : Talks a c) : Talks a (if p then b else c) := by
  split
  · exact hb
  · exact hc

theorem of_turns (h : Turns a b) : Talks a b := by
  have hrd := h.rd
  have hhold := h.hold
  have hready := h.ready
  have hout := h.out
  obtain ⟨_, _, hb⟩ := h.eq
  refine ⟨?_, hhold, fun f _ hi => hrd f hi, hready, [], hout⟩
  rw [hb]
  exact ⟨_, _, _, _, _, _, _, _, rfl⟩

theorem of_speaks (h : Speaks a b) : Talks a b := by
  have hrd := h.rd
  have hinaug := h.inaug
  have hready := Ready.of_speaks h
  have hout := h.out
  obtain ⟨_, _, _, _, _, _, _, hb⟩ := h.eq
  refine ⟨?_, by rw [hinaug], fun f hf _ => hrd f hf, hready, hout⟩
  rw [hb]
  exact ⟨_, _, _, _, _, _, _, _, rfl⟩

theorem of_counts {p : Nat} {I : Nat → Prop} (hp : p < 4) (h : Counts p I a b) : Talks a b := by
  have hrd := h.rd
  obtain ⟨_, _, _, hb⟩ := h.eq
  refine ⟨by rw [hb]; exact ⟨_, _, _, _, _, _, _, _, rfl⟩, by rw [hb], fun f hf _ => hrd f fun hk => ?_, .of_same (by rw [hb]) (by rw [hb]) fun q hq f hf => hrd f fun hk => ?_,
    [], by rw [hb]; rfl⟩
  · have := hk.bounds
    exact hf (.inl (by unfold PortKey; omega))
  · have := hk.bounds
    have := Ready.portState_bounds hq hf
    omega

variable (h : Talks a b)
include h

theorem level : b.level = a.level := by
  obtain ⟨_, _, _, _, _, _, _, _, hb⟩ := h.eq
  rw [hb]

theorem mode : b.mode = a.mode := by
  obtain ⟨_, _, _, _, _, _, _, _, hb⟩ := h.eq
  rw [hb]

theorem fab : b.fab = a.fab := by
  obtain ⟨_, _, _, _, _, _, _, _, hb⟩ := h.eq
  rw [hb]

theorem log : b.log = a.log := by
  obtain ⟨_, _, _, _, _, _, _, _, hb⟩ := h.eq
  rw [hb]

theorem ident : b.ident = a.ident := by
  obtain ⟨_, _, _, _, _, _, _, _, hb⟩ := h.eq
  rw [hb]

theorem pair : b.pair = a.pair := by
  obtain ⟨_, _, _, _, _, _, _, _, hb⟩ := h.eq
  rw [hb]

theorem clock : b.clock.fresh = a.clock.fresh ∧ b.clock.cycles = a.clock.cycles ∧ b.clock.held = a.clock.held ∧ b.clock.now = a.clock.now := by
  obtain ⟨_, _, _, _, _, _, _, _, hb⟩ := h.eq
  rw [hb]
  exact ⟨rfl, rfl, rfl, rfl⟩

theorem tabW (i j : Nat) : b.tabW 8 i j = a.tabW 8 i j := by
  obtain ⟨_, _, _, _, _, _, _, _, hb⟩ := h.eq
  exact Node.tabW_of_memory (by rw [hb]) (by rw [hb]) (by rw [hb]) (by decide) i j

theorem steady : Steady a b := by
  have hrd := h.rd
  have hhold := h.hold
  obtain ⟨_, _, _, _, _, _, _, _, hb⟩ := h.eq
  exact ⟨by rw [hb], by rw [hb], by rw [hb], by rw [hb], by rw [hb], hhold, fun f hf => hrd f (not_sendKey_of_level _ hf) (Turns.not_level _ hf)⟩

theorem top {f : Fld} (hf : 32 * 0x10500800 ≤ f.key) (hi : ¬ InaugKey f.key) : b.rd f = a.rd f := h.rd f (not_sendKey_line (by omega)) hi

theorem epoch : b.epoch = a.epoch := h.top (by decide) fun hi => absurd hi.1.1 (by decide)

theorem dataOn : b.dataOn = a.dataOn := by
  rw [Node.dataOn, Node.on, h.rd _ (not_sendKey_low (by decide)) (fun hi => absurd hi.1.1 (by decide)), ← Node.on, Node.dataOn]

theorem topoWorks : b.topoWorks = a.topoWorks := by
  have hs := h.steady
  simp only [Node.topoWorks, h.dataOn, hs.inputs.mode, hs.level, hs.inputs.failed]

theorem tn9Peers : b.tn9Peers = a.tn9Peers := by
  have hcount : b.rd F.TOP_INAUG_COUNT = a.rd F.TOP_INAUG_COUNT := h.top (by decide) fun hi => hi.2.1 rfl
  have hpos : b.rd F.TOP_INAUG_POSITION = a.rd F.TOP_INAUG_POSITION := h.top (by decide) fun hi => hi.2.2 rfl
  simp only [Node.tn9Peers, Node.position, hcount, hpos, h.tabW]

theorem freeCells : b.freeCells = a.freeCells := by
  have hstate : ∀ k, k < 26 → b.rd (F.FAB_BANK_STATE k) = a.rd (F.FAB_BANK_STATE k) := fun k hk => h.rd _ (fun hs => by
    have := hs.bounds
    simp only [F.FAB_BANK_STATE] at this
    omega) (fun hi => by
    have := hi.1
    simp only [F.FAB_BANK_STATE] at this
    omega)
  exact Node.freeCells_of_fab h.fab hstate

theorem topoRoom {x : List Byte} (hr : a.topoRoom x) : b.topoRoom x := by
  obtain ⟨h1, h2⟩ := hr
  refine ⟨?_, by rw [h.freeCells]; exact h2⟩
  rw [Node.engQueue, h.fab]
  exact h1

end Talks


/-! ### To the queue of the topology engine (R275) -/

/-- The fabric once a frame with these cells has joined the topology engine's queue. -/
def Node.topoJoined (n : Node) (b : List Byte) (p : Nat) (cells : List Nat) : Fab :=
  let f : Frame := { data := b, ingress := p, topo := true, stamp := n.epoch, ts := n.rxTime p, cells := cells, refs := 1 }
  { n.fab with nextFid := n.fab.nextFid + 1, frames := FMap.put {} n.fab.frames n.fab.nextFid f,
               engq := FMap.put [] n.fab.engq (engKey 16 0) (n.engQueue 16 0 ++ [{ fid := n.fab.nextFid, stamp := n.epoch }]) }

/-- Where there is room, a frame for the topology engine joins its queue, and port `p` sends the flow control it owes. -/
theorem Node.topoDeliver_eq {n : Node} {b : List Byte} (h : n.topoRoom b) (p : Nat) : ∃ fb k,
    n.topoDeliver b p = Node.pfcUpd { n with fab := fb, freeN := k } p ∧
    FMap.get [] fb.engq (engKey 16 0) = n.engQueue 16 0 ++ [{ fid := n.fab.nextFid, stamp := n.epoch }] ∧
    (FMap.get {} fb.frames n.fab.nextFid).ingress = p ∧ (FMap.get {} fb.frames n.fab.nextFid).data = b := by
  obtain ⟨hq, hcells⟩ := h
  obtain ⟨x, k, htake⟩ := Node.takeCells_keeps (cellsFor b.length) n
  obtain ⟨t, ht⟩ : ∃ t, t = Node.takeCells (cellsFor b.length) n := ⟨_, rfl⟩
  rw [← ht] at htake
  refine ⟨t.2.topoJoined b p t.1, t.2.freeN, ?_, ?_, ?_, ?_⟩
  · rw [Node.topoDeliver]
    dsimp only
    rw [if_neg (Nat.not_le.mpr hq), if_neg (Nat.not_lt.mpr hcells), ← ht]
    congr 1
    rw [htake]
    rfl
  · rw [Node.topoJoined, FMap.get_put_same, htake]
    rfl
  · rw [htake]
    exact congrArg Frame.ingress (FMap.get_put_same ..)
  · rw [htake]
    exact congrArg Frame.data (FMap.get_put_same ..)

/-- The state of the inauguration, and what the round shows, go on; what has gone out and what was recorded stay. -/
structure Onto (m t : Node) : Prop where
  inaug : t.inaug = m.inaug
  rd : ∀ f : Fld, 32 * 0x10500800 ≤ f.key ∧ f.key < 32 * 0x10500830 → t.rd f = m.rd f
  records : KeepsRecords m t
  out : ∃ l, t.out = l ++ m.out

theorem Onto.of_traffic {m t : Node} (h : Traffic m t) : Onto m t := ⟨h.inaug, fun _ hf => h.topo_rd hf, h.records, h.out⟩

theorem Onto.of_follows {m t : Node} (h : Follows m t) : Onto m t := by
  refine ⟨h.inaug, fun f hf => h.rd f fun hk => ?_, h.records, h.out⟩
  have hgap : ∀ k ∈ followKeys, k < 32 * 0x10500800 ∨ 32 * 0x10500830 ≤ k := by decide
  have := hgap _ hk
  omega

theorem Floods.onto {n m t : Node} {ty r : Nat} (h : Floods n m ty r) (ho : ∃ l, t.out = l ++ m.out) : Floods n t ty r := by
  intro p hp hn hf
  obtain ⟨b, hb, hrest⟩ := h p hp hn hf
  obtain ⟨l, hl⟩ := ho
  exact ⟨b, by rw [hl]; exact List.mem_append_right _ hb, hrest⟩

theorem Floods.of_ready {n m t : Node} {ty r : Nat} (h : Floods m t ty r) (hr : Ready n m) (hi : m.ident = n.ident) : Floods n t ty r := by
  intro p hp hn hf
  obtain ⟨b, h1, h2, h3, h4, h5, h6, h7, h8, h9⟩ := h p hp (hr.native p hn) (hr.free p hp hf)
  exact ⟨b, h1, h2, h3, h4, h5, h6, h7, hi ▸ h8, h9⟩

theorem RoundStarted.onto {n m t : Node} (h : RoundStarted n m) (ho : Onto m t) : RoundStarted n t := by
  obtain ⟨h1, h2, h3, h4, h5⟩ := h
  refine ⟨ho.inaug ▸ h1, ho.inaug ▸ h2, (ho.rd _ (by decide)).trans h3, ?_, ?_⟩
  · rw [ho.inaug]
    exact h4
  · rw [ho.inaug]
    exact h5.onto ho.out

/-- A round that starts in a node that agrees with another starts in that one. -/
theorem RoundStarted.of_ready {n m t : Node} (h : RoundStarted m t) (hr : Ready n m) (hi : m.ident = n.ident)
    (hround : m.inaug.round = n.inaug.round) : RoundStarted n t := by
  obtain ⟨h1, h2, h3, h4, h5⟩ := h
  rw [hround] at h2
  rw [hi] at h4
  exact ⟨h1, h2, h3, h4, h5.of_ready hr hi⟩

theorem RoundFailed.onto {n m t : Node} {cause : Nat} (h : RoundFailed n m cause) (ho : Onto m t) : RoundFailed n t cause := by
  obtain ⟨h1, h2, h3, h4, h5, h6, h7⟩ := h
  have hf : t.rd F.TOP_INAUG_FAILS = m.rd F.TOP_INAUG_FAILS := ho.rd _ (by decide)
  have hp : t.rd F.TOP_INAUG_PHASE = m.rd F.TOP_INAUG_PHASE := ho.rd _ (by decide)
  have hh : t.on F.TOP_INAUG_HOLD_FAIL = m.on F.TOP_INAUG_HOLD_FAIL := by rw [Node.on, ho.rd _ (by decide), Node.on]
  refine ⟨by rw [ho.inaug]; exact h1, by rw [ho.inaug]; exact h2, (ho.rd _ (by decide)).trans h3, fun hs => hf.trans (h4 hs), fun hs => hf.trans (h5 hs),
    fun h3 => ?_, fun h3 => ?_⟩
  · obtain ⟨g1, g2⟩ := h6 (hf ▸ h3)
    exact ⟨hp.trans g1, fun hne => ⟨hh.trans (g2 hne).1, fun hl => ho.records _ _ _ ((g2 hne).2 hl)⟩⟩
  · exact hp.trans (h7 (hf ▸ h3))

/-- The frame has joined the queue in a node whose fabric agrees, where no datagrams of standard mode have gone through it. -/
theorem QueuedTopo.of_deliver {n m t : Node} {p : Nat} {b : List Byte}
    (h : n.tn9Peers = [] → m.fab = n.fab ∧ m.epoch = n.epoch ∧ m.topoRoom b ∧ t.fab = (m.topoDeliver b p).fab) : QueuedTopo n t p b := by
  intro hpeers
  obtain ⟨hm, he, hr, ht⟩ := h hpeers
  obtain ⟨fb, k, heq, h1, h2, h3⟩ := Node.topoDeliver_eq hr p
  have hfab : t.fab = fb := by
    rw [ht, heq]
    exact (Speaks.pfcUpd _ p).fab
  have hq : m.engQueue 16 0 = n.engQueue 16 0 := by rw [Node.engQueue, hm, Node.engQueue]
  rw [hq, hm, he] at h1
  rw [hm] at h2 h3
  rw [Node.engQueue, Node.frame, hfab]
  exact ⟨h1, h2, h3⟩

theorem QueuedTopo.onto {n m t : Node} {p : Nat} {b : List Byte} (h : QueuedTopo n m p b) (hf : t.fab = m.fab) : QueuedTopo n t p b := fun hp => by
  rw [Node.engQueue, Node.frame, hf]
  exact h hp

/-- What keeps a port ready when a frame joins the queue. -/
theorem Ready.stored (n : Node) (fb : Fab) (k : Nat) : Ready n { n with fab := fb, freeN := k } := .of_same rfl rfl fun _ _ _ _ => rfl

theorem Node.topoDeliver_ready {n : Node} {b : List Byte} (h : n.topoRoom b) (p : Nat) : Ready n (n.topoDeliver b p) := by
  obtain ⟨fb, k, heq, -⟩ := Node.topoDeliver_eq h p
  have hs := Ready.stored n fb k
  rw [heq]
  generalize { n with fab := fb, freeN := k } = m at hs
  exact hs.trans (.of_speaks (Speaks.pfcUpd m p))

/-! ### By its row (R284) -/

section Row

variable {n : Node} {p : Nat} {b : List Byte} (h : WireIn n p b)
include h

theorem WireIn.good : n.rxRow p b = (.good b false, n.counted p b) ∧ Counts p MacIndex n (n.counted p b) := by
  have hpad : b ++ zeros (60 - b.length) = b := by
    rw [Nat.sub_eq_zero_of_le h.size.1]
    exact List.append_nil b
  obtain ⟨h1, h2⟩ := Node.rxMac_good (n := n) (p := p) (f := { bytes := b }) rfl rfl rfl rfl h.size.1 h.size.2
  have hrow : n.rxRow p b = n.rxMac p { bytes := b } := by rw [Node.rxRow, hpad]
  have hcounted : n.counted p b = (n.rxMac p { bytes := b }).2 := by rw [Node.counted, hrow]
  exact ⟨by rw [hrow, hcounted, ← h1], hcounted ▸ h2⟩

theorem WireIn.talks : Talks n (n.counted p b) := .of_counts h.port h.good.2

theorem WireIn.inaug : (n.counted p b).inaug = n.inaug := by
  obtain ⟨_, _, _, hc⟩ := h.good.2.eq
  rw [hc]

theorem WireIn.ports : (n.counted p b).ports = n.ports := by
  obtain ⟨_, _, _, hc⟩ := h.good.2.eq
  rw [hc]

theorem WireIn.topPort (q : Nat) : (n.counted p b).topPort q = n.topPort q := by rw [Node.topPort, h.inaug, Node.topPort]

theorem WireIn.rd_top {f : Fld} (hf : 32 * 0x10500000 ≤ f.key) : (n.counted p b).rd f = n.rd f := h.good.2.rd f fun hk => by
  have := hk.bounds
  have := h.port
  omega

theorem WireIn.linkUp (q : Nat) : (n.counted p b).linkUp q = n.linkUp q := by
  obtain ⟨_, _, _, hc⟩ := h.good.2.eq
  refine Node.linkUp_congr ?_ ?_ ?_ (by rw [hc])
  · refine h.good.2.on fun hk => ?_
    have := hk.bounds
    simp only [F.PRT_STATUS_LINK] at this
    omega
  · refine h.good.2.on fun hk => ?_
    have := hk.bounds
    have := (relay_keys (lineOf q)).1
    have := h.port
    omega
  · refine h.good.2.on fun hk => ?_
    have := hk.bounds
    have := (relay_keys (lineOf q)).2
    have := h.port
    omega

theorem WireIn.row (ty : Nat) : n.topoRow p ty b = (n.counted p b).topoRx p ty b := by
  have hworks : (n.counted p b).topoWorks = true := h.talks.topoWorks.trans h.works
  have hdata : n.dataOn = true := by
    have := h.works
    simp only [Node.topoWorks, Bool.and_eq_true] at this
    exact this.1.1.1
  have hmode : (n.mode != .drill) = true := by
    have := h.works
    simp only [Node.topoWorks, Bool.and_eq_true, beq_iff_eq] at this
    rw [this.1.1.2]
    rfl
  have hgo : ¬ (!(decide (p < 4) && n.dataOn && n.linkUp p && n.mode != .drill)) = true := by simp [h.port, hdata, h.link, hmode]
  unfold Node.topoRow
  rw [if_neg hgo, h.good.1]
  dsimp only
  rw [if_neg]
  rintro ⟨-, hno⟩
  rw [hworks] at hno
  cases hno

/-- The frame unit takes what comes, and looks at its type. -/
theorem WireIn.takes : ¬ (!((n.counted p b).topoWorks && decide (p < 4) && (n.counted p b).linkUp p)) = true := by
  simp [h.talks.topoWorks, h.works, h.port, h.linkUp, h.link]

/-- A frame that fails the checks is counted (R276). -/
theorem WireIn.bad {ty : Nat} (h7 : byteAt b 15 ≠ 0x37) (hok : topoOk (b.drop 14) = false) :
    n.topoRow p ty b = ((n.counted p b).wr F.TOP_BADFRAMES_COUNT (min (n.rd F.TOP_BADFRAMES_COUNT + 1) (2 ^ 32 - 1))).pviol 0 p := by
  have hty : ¬ (byteAt (b.drop 14) 0 = 0x54 ∧ byteAt (b.drop 14) 1 = 0x37) := fun hc => h7 ((byteAt_drop b 14 1).symm.trans hc.2)
  have hinc : (n.counted p b).inc F.TOP_BADFRAMES_COUNT = (n.counted p b).wr F.TOP_BADFRAMES_COUNT (min (n.rd F.TOP_BADFRAMES_COUNT + 1) (2 ^ 32 - 1)) := by
    rw [Node.inc, h.rd_top (by decide)]
    rfl
  rw [h.row, Node.topoRx]
  dsimp only
  rw [if_neg h.takes, if_neg hty, hok, if_pos (by decide), hinc]

end Row

/-- Reading inside a piece of a frame. -/
theorem leAt_slice (l : List Byte) {off m i k : Nat} (h : i + k ≤ m) : leAt (slice l off m) i k = leAt l (off + i) k := by
  rw [leAt, leAt, slice, slice, slice, List.drop_take, List.take_take, List.drop_drop, Nat.min_eq_left (by omega)]

theorem byteAt_slice (l : List Byte) {off m i : Nat} (h : i < m) : byteAt (slice l off m) i = byteAt l (off + i) := by
  rw [byteAt, byteAt, slice, List.getD_eq_getElem?_getD, List.getElem?_take_of_lt h, List.getElem?_drop, List.getD_eq_getElem?_getD]

theorem slice_slice (l : List Byte) {off m i k : Nat} (h : i + k ≤ m) : slice (slice l off m) i k = slice l (off + i) k := by
  rw [slice, slice, slice, List.drop_take, List.take_take, List.drop_drop, Nat.min_eq_left (by omega)]

/-- The sender of the header at the front of a frame. -/
theorem topoSender_slice (b : List Byte) (len : Nat) : topoSender (slice b 14 (16 + len)) = leAt b 18 6 := leAt_slice b (by omega)

section Arrives

variable {n : Node} {p ty len : Nat} {b : List Byte} (h : TopoArrives n p b ty len)
include h

/-- Header and body of the frame. -/
theorem TopoArrives.cut : topoCut (b.drop 14) = slice b 14 (16 + len) := by
  have hl : leAt (b.drop 14) 14 2 = len := (leAt_drop b 14 14 2).trans h.length.1
  rw [topoCut, hl, slice]

theorem TopoArrives.type_eq : topoType (b.drop 14) = ty := (byteAt_drop b 14 3).trans h.type

/-- A frame that passes the checks of R276 is handled by its type. -/
theorem TopoArrives.handled (hlen : topoLen ty = some len) : n.topoRow p ty b =
    let m := n.counted p b
    let f : TopoIn := { port := p, h := slice b 14 (16 + len), frame := b, gram := false }
    if ty = 1 then m.helloRx f else if ty = 2 then m.reportRx f else if ty = 3 then m.proposeRx f else if ty = 4 then m.confirmRx f
    else if ty = 5 then m.abortRx f else m.markRx p f.h := by
  have h7 : ¬ (byteAt (b.drop 14) 0 = 0x54 ∧ byteAt (b.drop 14) 1 = 0x37) := fun hc => by
    have h1 : byteAt b 15 = 0x37 := (byteAt_drop b 14 1).symm.trans hc.2
    rw [h.magic.2.1] at h1
    cases h1
  have hok : topoOk (b.drop 14) = true := by
    have h0 : byteAt (b.drop 14) 0 = 0x54 := (byteAt_drop b 14 0).trans h.magic.1
    have h1 : byteAt (b.drop 14) 1 = 0x39 := (byteAt_drop b 14 1).trans h.magic.2.1
    have h2 : byteAt (b.drop 14) 2 = 1 := (byteAt_drop b 14 2).trans h.magic.2.2
    have h3 : byteAt (b.drop 14) 3 = ty := (byteAt_drop b 14 3).trans h.type
    have hl : leAt (b.drop 14) 14 2 = len := (leAt_drop b 14 14 2).trans h.length.1
    have hfits : 16 + len ≤ (b.drop 14).length := by
      have := h.length.2
      rw [List.length_drop]
      omega
    simp only [topoOk, h0, h1, h2, h3, hl, hlen, decide_eq_true hfits, BEq.rfl, Bool.and_self]
  rw [h.wire.row, Node.topoRx]
  dsimp only
  rw [if_neg h.wire.takes, if_neg h7, hok, if_neg (by decide), h.type_eq, if_neg (by simp), h.cut]

end Arrives

/-! ### Along its line (R279) -/

/-- The state of the inauguration once a flooded frame has been seen. -/
def Inaug.heard (i : Inaug) (p : Nat) (h : List Byte) : Inaug :=
  { i with relayed := if (lineOf p, floodKey h) ∈ i.relayed then i.relayed else (lineOf p, floodKey h) :: i.relayed, seen := floodKey h :: i.seen }

section Flood

variable {n : Node} {f : TopoIn}

theorem Node.floodRx_own (h : topoSender f.h = n.ident) : n.floodRx f = (false, n) := by rw [Node.floodRx, if_pos h]

theorem Node.floodRx_known (hs : topoSender f.h ≠ n.ident) (hk : floodKey f.h ∈ n.inaug.seen) (hr : (lineOf f.port, floodKey f.h) ∈ n.inaug.relayed) :
    n.floodRx f = (false, n) := by
  rw [Node.floodRx, if_neg hs]
  dsimp only
  rw [if_pos (show f.gram = true ∨ (lineOf f.port, floodKey f.h) ∈ n.inaug.relayed from .inr hr), if_pos hk]

/-- The frame is known to have gone along its line. -/
def Node.relayNoted (n : Node) (f : TopoIn) : Node :=
  { n with inaug := { n.inaug with relayed := (lineOf f.port, floodKey f.h) :: n.inaug.relayed } }

theorem Node.relayNoted_inaug (n : Node) (f : TopoIn) :
    (n.relayNoted f).inaug = { n.inaug with relayed := (lineOf f.port, floodKey f.h) :: n.inaug.relayed } := rfl

theorem Node.relayNoted_turns (n : Node) (f : TopoIn) : Turns n (n.relayNoted f) := .inaug n rfl

/-- The frame as it goes on along its line. -/
def Node.passedOn (n : Node) (f : TopoIn) : Node := (n.relayNoted f).topoSend (acrossOf f.port) f.h

theorem Node.passedOn_inaug (n : Node) (f : TopoIn) :
    (n.passedOn f).inaug = { n.inaug with relayed := (lineOf f.port, floodKey f.h) :: n.inaug.relayed } := by
  rw [Node.passedOn, (Speaks.topoSend _ _ _).inaug, n.relayNoted_inaug]

theorem Node.passedOn_talks (n : Node) (f : TopoIn) : Talks n (n.passedOn f) :=
  (Talks.of_turns (n.relayNoted_turns f)).trans (.of_speaks (.topoSend _ _ _))

/-- The frame has gone on where the port across may send. -/
theorem Node.passedOn_sent (hn : n.nativeUp (acrossOf f.port) = true) (hf : n.txFree (acrossOf f.port)) :
    ∃ b, TopoEth f.h b ∧ Output.frame (acrossOf f.port) b ∈ (n.passedOn f).out := by
  have hturn := n.relayNoted_turns f
  have hacross : acrossOf f.port < 4 := by
    simp only [Node.nativeUp, Bool.and_eq_true, decide_eq_true_eq] at hn
    exact hn.1.1
  exact ⟨_, Node.topoEth_layout _ _ _, Node.topoSend_sent (hturn.ready.native _ hn) (hturn.ready.free _ hacross hf) _⟩

theorem Node.floodRx_on (hg : f.gram = false) (hs : topoSender f.h ≠ n.ident) (hr : (lineOf f.port, floodKey f.h) ∉ n.inaug.relayed) :
    n.floodRx f = if floodKey f.h ∈ (n.passedOn f).inaug.seen then (false, n.passedOn f) else
      (true, { n.passedOn f with inaug := { (n.passedOn f).inaug with seen := floodKey f.h :: (n.passedOn f).inaug.seen } }) := by
  have hno : ¬ (f.gram = true ∨ (lineOf f.port, floodKey f.h) ∈ n.inaug.relayed) := by
    rw [hg]
    rintro (hc | hc)
    · cases hc
    · exact hr hc
  rw [Node.floodRx, if_neg hs]
  dsimp only
  rw [if_neg hno]
  rfl

theorem Node.floodRx_other (hg : f.gram = false) (hs : topoSender f.h ≠ n.ident) (hk : floodKey f.h ∈ n.inaug.seen)
    (hr : (lineOf f.port, floodKey f.h) ∉ n.inaug.relayed) : n.floodRx f = (false, n.passedOn f) := by
  have hseen : floodKey f.h ∈ (n.passedOn f).inaug.seen := by
    rw [n.passedOn_inaug]
    exact hk
  rw [Node.floodRx_on hg hs hr, if_pos hseen]

/-- The first copy of a frame is known from then on, and goes on along its line where it has not. -/
theorem Node.floodRx_first (hg : f.gram = false) (hs : topoSender f.h ≠ n.ident) (hk : floodKey f.h ∉ n.inaug.seen) :
    ∃ m, n.floodRx f = (true, m) ∧ Talks n m ∧ (∀ g : Fld, ¬ SendKey g.key → m.rd g = n.rd g) ∧ m.inaug = n.inaug.heard f.port f.h ∧
      ((lineOf f.port, floodKey f.h) ∉ n.inaug.relayed → n.nativeUp (acrossOf f.port) = true → n.txFree (acrossOf f.port) →
        ∃ b, TopoEth f.h b ∧ Output.frame (acrossOf f.port) b ∈ m.out) := by
  by_cases hr : (lineOf f.port, floodKey f.h) ∈ n.inaug.relayed
  · refine ⟨{ n with inaug := { n.inaug with seen := floodKey f.h :: n.inaug.seen } }, ?_, .of_turns (.inaug n rfl), fun _ _ => rfl, ?_, fun hno => absurd hr hno⟩
    · rw [Node.floodRx, if_neg hs]
      dsimp only
      rw [if_pos (show f.gram = true ∨ (lineOf f.port, floodKey f.h) ∈ n.inaug.relayed from .inr hr), if_neg hk]
    · rw [Inaug.heard, if_pos hr]
  · have hin := n.passedOn_inaug f
    have hsent := fun hn hf => Node.passedOn_sent (n := n) (f := f) hn hf
    have htalks := n.passedOn_talks f
    have hrd : ∀ g : Fld, ¬ SendKey g.key → (n.passedOn f).rd g = n.rd g := (Speaks.topoSend (n.relayNoted f) _ _).rd
    have hflood : n.floodRx f = (true, { n.passedOn f with inaug := { (n.passedOn f).inaug with seen := floodKey f.h :: (n.passedOn f).inaug.seen } }) := by
      have hseen : floodKey f.h ∉ (n.passedOn f).inaug.seen := by
        rw [hin]
        exact hk
      rw [Node.floodRx_on hg hs hr, if_neg hseen]
    generalize n.passedOn f = m at hin hsent htalks hrd hflood
    refine ⟨_, hflood, htalks.trans (.of_turns (.inaug m rfl)), hrd, ?_, fun _ hn hf => hsent hn hf⟩
    dsimp only
    rw [hin, Inaug.heard, if_neg hr]

end Flood

end Sys2Proof.Machine
end

section
/-! PROOF. O47: neighbours and REPORTs (08 R274 to R285, R310). -/

namespace Sys2Proof.Machine

open Sys2Proof

/-! ### The HELLO of a port (R277, R278) -/

theorem fit_length (k : Nat) (l : List Byte) : (fit k l).length = k := by
  simp only [fit, zeros, List.length_append, List.length_take, List.length_replicate]
  omega

theorem Node.helloOf_shows (n : Node) (q : Nat) {h : List Byte} (hb : TopoEth (n.helloOf q) h) :
    beAt h 14 2 = 0x5439 ∧ byteAt h 16 = 1 ∧ byteAt h 17 = 1 ∧ leAt h 18 6 = n.ident % 2 ^ 48 ∧ leAt h 24 2 = n.inaug.round % 2 ^ 16 ∧
      leAt h 26 2 = n.epoch % 2 ^ 16 ∧ leAt h 28 2 = 36 := by
  rw [Node.helloOf, List.append_assoc, List.append_assoc] at hb
  exact hb.header

/-- What follows the header of a HELLO. -/
theorem Node.helloOf_body (n : Node) (q : Nat) {h : List Byte} (hb : TopoEth (n.helloOf q) h) :
    slice h 30 16 = n.consistId ∧ slice h 46 16 = n.vehicleId ∧ byteAt h 62 = q % 256 ∧ byteAt h 63 = n.position % 256 ∧ byteAt h 65 = n.level % 256 := by
  have hc : n.consistId.length = 16 := fit_length _ _
  have hv : n.vehicleId.length = 16 := fit_length _ _
  obtain ⟨m, pad, hm, rfl, -⟩ := hb
  have hhead := topoHeader_length 1 n.ident n.inaug.round n.epoch 36
  rw [Node.helloOf]
  generalize topoHeader 1 n.ident n.inaug.round n.epoch 36 = hd at hhead
  simp only [List.append_assoc]
  refine ⟨?_, ?_, ?_, ?_, ?_⟩
  all_goals simp (disch := simp [hm, hhead, hc, hv]) only [slice_skip, byteAt_skip, beBytes_length, hm, hhead, hc, hv, Nat.reduceSub]
  · exact List.take_left' hc
  · exact List.take_left' hv
  · simp [byteAt]
  · simp [byteAt]
  · simp [byteAt]

/-- The HELLO of a port does not change with what the node sends. -/
theorem Speaks.helloOf {m n : Node} (h : Speaks m n) (q : Nat) : n.helloOf q = m.helloOf q := by
  have hset : n.settings = m.settings := by
    obtain ⟨_, _, _, _, _, _, _, heq⟩ := h.eq
    rw [heq]
  have hrd : ∀ f : Fld, 32 * 0x10400000 ≤ f.key → n.rd f = m.rd f := fun f hf => h.rd f (not_sendKey_line hf)
  have hepoch : n.epoch = m.epoch := hrd _ (by decide)
  have hpos : n.position = m.position := hrd _ (by decide)
  have hcab : n.rd F.PWR_DISCRETE_CAB_ACTIVE = m.rd F.PWR_DISCRETE_CAB_ACTIVE := h.rd _ (not_sendKey_low (by decide))
  have hcons : n.consistId = m.consistId := by rw [Node.consistId, hset, Node.consistId]
  have hveh : n.vehicleId = m.vehicleId := by rw [Node.vehicleId, hset, Node.vehicleId]
  rw [Node.helloOf, Node.helloOf, h.ident, h.inaug, hepoch, hcons, hveh, hpos, hcab, h.level]

theorem Speaks.sendHellos (n : Node) (l : List Nat) : Speaks n (l.foldl (fun a p => a.sendHello p) n) := .foldl (fun a p => .sendHello a p) l n

/-- Every port with HITLESS that may send sends its HELLO (R278). -/
theorem Node.hellos_sent {l : List Nat} {n : Node} {q : Nat} (hw : n.topoWorks = true) (hq : q ∈ l) (hh : n.hitless q = true) (hf : n.txFree q) :
    ∃ h, TopoEth (n.helloOf q) h ∧ Output.frame q h ∈ (l.foldl (fun a p => a.sendHello p) n).out := by
  induction l generalizing n with
  | nil => cases hq
  | cons p l ih =>
    have hone := Speaks.sendHello n p
    rw [List.foldl_cons]
    rcases List.mem_cons.mp hq with rfl | hl
    · have hnat : n.nativeUp q = true := by
        simp only [Node.hitless, Bool.and_eq_true] at hh
        exact hh.1
      have hsend : n.sendHello q = n.topoSend q (n.helloOf q) := by
        rw [Node.sendHello, if_pos (by rw [hw, hh]; rfl)]
      obtain ⟨r, hr⟩ := (Speaks.sendHellos (n.sendHello q) l).out
      refine ⟨_, n.topoEth_layout q _, ?_⟩
      rw [hr, hsend]
      exact List.mem_append_right _ (Node.topoSend_sent hnat hf _)
    · obtain ⟨h, hb, hout⟩ := ih (hone.topoWorks.trans hw) hl ((hone.hitless q).trans hh) (hone.ready q hf)
      exact ⟨h, (hone.helloOf q) ▸ hb, hout⟩

/-! ### A neighbour's HELLO (R281 to R283) -/

theorem Node.topPort_setTopPort_same (n : Node) (p : Nat) (x : TopPort) : (n.setTopPort p x).topPort p = x := FMap.get_put_same ..

theorem Node.topPort_setTopPort_ne (n : Node) {p q : Nat} (x : TopPort) (h : q ≠ p) : (n.setTopPort p x).topPort q = n.topPort q :=
  FMap.get_put_ne _ _ _ _ h

/-- A change that the node notices outside a round starts one (R282). -/
theorem Node.changed_idle {n : Node} (hw : n.topoWorks = true) (ho : n.inaug.openR = false) (hs : n.inaug.sched = none) (hwait : n.inaug.waiting = false) :
    n.changed 4 = n.startRound := by
  rw [Node.changed, if_neg (by simp [hw]), hs]
  dsimp only
  rw [if_neg (by simp [ho]), if_neg (by simp [hwait])]

/-- A change that falls on a round which has proposed ends it (R294). -/
theorem Node.changed_proposed {n : Node} (hw : n.topoWorks = true) (ho : n.inaug.openR = true) (hs : n.inaug.sched = none) (hp : n.inaug.proposed = true) :
    n.changed 4 = n.sendAbort 4 := by
  rw [Node.changed, if_neg (by simp [hw]), hs]
  dsimp only
  rw [if_pos ho, if_pos (.inr hp)]

theorem Node.inSched_none {n : Node} (h : n.inaug.sched = none) (id : Nat) : n.inSched id = false := by
  rw [Node.inSched, h]
  rfl

/-- Outside a round the node has no REPORT to send again. -/
theorem Node.refreshReport_closed {n : Node} (h : n.inaug.openR = false) : n.refreshReport = n := by
  rw [Node.refreshReport, h]
  rfl

theorem Node.startRound_fab {n : Node} (hw : n.topoWorks = true) (ho : n.inaug.openR = false) (hs : n.inaug.sched = none) (hp : n.tn9Peers = []) :
    Talks n n.startRound := by
  obtain ⟨m, hm, -, -, heq⟩ := Node.startRound_traffic hw ho hs
  rw [heq]
  exact (Talks.of_turns hm).trans (.of_speaks (Node.topoFlood_speaks (.inr ((Talks.of_turns hm).tn9Peers.trans hp))))

theorem Traffic.ident {m n : Node} (h : Traffic m n) : n.ident = m.ident := by
  obtain ⟨_, _, _, _, _, _, _, _, _, _, _, hb⟩ := h.eq
  rw [hb]

theorem Node.stored_tn9Peers (n : Node) (fb : Fab) (k : Nat) : Node.tn9Peers { n with fab := fb, freeN := k } = n.tn9Peers := by
  have htab : ∀ i j, Node.tabW { n with fab := fb, freeN := k } 8 i j = n.tabW 8 i j :=
    Node.tabW_of_memory (m := n) (n := { n with fab := fb, freeN := k }) rfl rfl rfl (by decide)
  simp only [Node.tn9Peers, htab]
  rfl

/-- A frame that joins the queue leaves the directory. -/
theorem Node.topoDeliver_tn9Peers {n : Node} {b : List Byte} (h : n.topoRoom b) (p : Nat) : (n.topoDeliver b p).tn9Peers = n.tn9Peers := by
  obtain ⟨fb, k, heq, -⟩ := Node.topoDeliver_eq h p
  have hs := n.stored_tn9Peers fb k
  rw [heq]
  generalize { n with fab := fb, freeN := k } = m at hs
  rw [(Talks.of_speaks (Speaks.pfcUpd m p)).tn9Peers, hs]

/-- The port's view of its neighbour once a HELLO has come. -/
def Node.heardHello (n : Node) (f : TopoIn) : TopPort :=
  { n.topPort f.port with hello := f.h, valid := true, stale := (n.topPort f.port).stale && (leAt f.h 12 2 != n.epoch || n.barred f.port) }

/-- A HELLO of no neighbour that takes the place of a recorded one (R283). -/
theorem Node.helloRx_plain {n : Node} {f : TopoIn} (ht : (n.topPort f.port).recSet = false ∨
    slice f.h 0x20 16 ≠ (n.topPort f.port).recVid ∨ topoSender f.h = (n.topPort f.port).recNode) :
    let t := n.topPort f.port
    let m := n.setTopPort f.port (n.heardHello f)
    let m := if (!t.hello.isEmpty && (slice t.hello 16 36 == slice f.h 16 36)) = true then m else m.topoDeliver f.frame f.port
    n.helloRx f = if ((!t.recSet || slice f.h 0x20 16 != t.recVid) && !m.inSched (topoSender f.h)) = true then m.changed 4
      else if (!t.valid || topoSender t.hello != topoSender f.h) = true then m.refreshReport else m := by
  have htake : ((n.topPort f.port).recSet && slice f.h 0x20 16 == (n.topPort f.port).recVid && byteAt f.h 0x31 == (n.topPort f.port).recPos &&
      leAt f.h 12 2 == n.epoch && topoSender f.h != (n.topPort f.port).recNode) = false := by
    rcases ht with h | h | h
    · simp only [h, Bool.false_and]
    · simp only [beq_false_of_ne h, Bool.and_false, Bool.false_and]
    · simp only [h, bne_self_eq_false, Bool.and_false]
  rw [Node.helloRx]
  dsimp only
  rw [htake]
  rfl

theorem Traffic.topoWorks {m n : Node} (h : Traffic m n) : n.topoWorks = m.topoWorks := by
  have hdata : n.dataOn = m.dataOn := h.on (by unfold TrafficKey PortKey; decide)
  simp only [Node.topoWorks, hdata, h.mode, h.level, h.sameLevelInputs.failed]

/-- The first HELLO of a neighbour that no directory records is queued, and starts a round. -/
theorem Node.helloRx_new {n : Node} {f : TopoIn} (hw : n.topoWorks = true) (ho : n.inaug.openR = false) (hs : n.inaug.sched = none) (hwait : n.inaug.waiting = false)
    (hrec : (n.topPort f.port).recSet = false) (hnew : (n.topPort f.port).hello = [] ∨ slice (n.topPort f.port).hello 16 36 ≠ slice f.h 16 36) :
    n.helloRx f = ((n.setTopPort f.port (n.heardHello f)).topoDeliver f.frame f.port).startRound := by
  have hsame : (!(n.topPort f.port).hello.isEmpty && (slice (n.topPort f.port).hello 16 36 == slice f.h 16 36)) = false := by
    rcases hnew with he | hne
    · rw [he]
      rfl
    · rw [beq_false_of_ne hne, Bool.and_false]
  have hturn := Turns.setTopPort n f.port (n.heardHello f)
  have hin : (n.setTopPort f.port (n.heardHello f)).inaug.openR = false ∧ (n.setTopPort f.port (n.heardHello f)).inaug.sched = none ∧
      (n.setTopPort f.port (n.heardHello f)).inaug.waiting = false := ⟨ho, hs, hwait⟩
  have heq := Node.helloRx_plain (n := n) (f := f) (.inl hrec)
  dsimp only at heq
  rw [hsame, if_neg Bool.false_ne_true, hrec] at heq
  generalize n.setTopPort f.port (n.heardHello f) = m at hturn hin heq
  have hdel := Traffic.topoDeliver m f.frame f.port
  have hworks : (m.topoDeliver f.frame f.port).topoWorks = true := hdel.topoWorks.trans (hturn.topoWorks.trans hw)
  have hin2 := hdel.inaug
  generalize m.topoDeliver f.frame f.port = k at hworks hin2 heq
  obtain ⟨h1, h2, h3⟩ := hin
  rw [← hin2] at h1 h2 h3
  rw [heq, Node.inSched_none h2, if_pos (by rfl), Node.changed_idle hworks h1 h2 h3]

/-- A HELLO that shows nothing new of a recorded neighbour is recorded only (R281). -/
theorem Node.helloRx_same {n : Node} {f : TopoIn} (hvalid : (n.topPort f.port).valid = true) (hrec : (n.topPort f.port).recSet = true)
    (hvid : (n.topPort f.port).recVid = slice f.h 0x20 16) (hsame : slice (n.topPort f.port).hello 16 36 = slice f.h 16 36) (hlen : slice f.h 16 36 ≠ [])
    (hsender : topoSender (n.topPort f.port).hello = topoSender f.h) (hnode : (n.topPort f.port).recNode = topoSender f.h) :
    n.helloRx f = n.setTopPort f.port (n.heardHello f) := by
  have hfull : (n.topPort f.port).hello.isEmpty = false := by
    rw [List.isEmpty_eq_false_iff]
    intro hnil
    rw [hnil] at hsame
    exact hlen hsame.symm
  have heq := Node.helloRx_plain (n := n) (f := f) (.inr (.inr hnode.symm))
  dsimp only at heq
  rw [heq, hfull, hsame, hrec, hvid, hvalid, hsender]
  simp only [Bool.not_false, beq_self_eq_true, Bool.and_self, if_true, Bool.not_true, bne_self_eq_false, Bool.or_false, Bool.false_and, Bool.false_eq_true, if_false]

/-! ### A neighbour is gone, or holds another epoch (R278, R282) -/

theorem mateOf_ne (p : Nat) : mateOf p ≠ p := by
  unfold mateOf
  split <;> omega

/-- The neighbour on the port is no longer valid. -/
def Node.nbrSilent (n : Node) (p : Nat) : Node := n.setTopPort p { n.topPort p with valid := false }

theorem Node.nbrSilent_turns (n : Node) (p : Nat) : Turns n (n.nbrSilent p) := .setTopPort n p _

theorem Node.nbrSilent_topPort (n : Node) (p : Nat) : (n.nbrSilent p).topPort p = { n.topPort p with valid := false } := Node.topPort_setTopPort_same ..

theorem Node.nbrSilent_here (n : Node) (p : Nat) : (n.nbrSilent p).nbrHere p = false := by
  rw [Node.nbrHere, n.nbrSilent_topPort]
  exact Bool.and_false _

theorem Node.nbrSilent_mate (n : Node) (p : Nat) : (n.nbrSilent p).nbrHere (mateOf p) = n.nbrHere (mateOf p) := by
  have hport : (n.nbrSilent p).topPort (mateOf p) = n.topPort (mateOf p) := Node.topPort_setTopPort_ne _ _ (mateOf_ne p)
  rw [Node.nbrHere, hport]
  rfl

theorem Node.nbrSilent_endLost (n : Node) (p : Nat) : (n.nbrSilent p).endLost p = !n.nbrHere (mateOf p) := by
  rw [Node.endLost, List.any_cons, List.any_cons, List.any_nil, n.nbrSilent_here, n.nbrSilent_mate, Bool.false_or, Bool.or_false]

theorem Node.nbrLost_down {n : Node} {p : Nat} (h : n.nbrHere p = false) : n.nbrLost p = n.nbrSilent p := by
  rw [Node.nbrLost]
  dsimp only
  rw [h]
  rfl

theorem Node.nbrLost_here {n : Node} {p : Nat} (h : n.nbrHere p = true) : n.nbrLost p = (n.nbrSilent p).nbrGone p := by
  rw [Node.nbrLost]
  dsimp only
  rw [if_pos h]
  rfl

/-- Outside a round a neighbour whose mate stays is no change. -/
theorem Node.nbrLost_mate {n : Node} {p : Nat} (h : n.nbrHere p = true) (hm : n.nbrHere (mateOf p) = true) (ho : n.inaug.openR = false) :
    n.nbrLost p = n.nbrSilent p := by
  rw [Node.nbrLost_here h, Node.nbrGone, n.nbrSilent_endLost, hm]
  exact Node.refreshReport_closed ho

/-- A neighbour that leaves its end alone is a division, which starts a round. -/
theorem Node.nbrLost_divides {n : Node} {p : Nat} (h : n.nbrHere p = true) (hm : n.nbrHere (mateOf p) = false) (hw : n.topoWorks = true)
    (ho : n.inaug.openR = false) (hs : n.inaug.sched = none) (hwait : n.inaug.waiting = false) : n.nbrLost p = (n.nbrSilent p).startRound := by
  rw [Node.nbrLost_here h, Node.nbrGone, n.nbrSilent_endLost, hm]
  exact Node.changed_idle ((n.nbrSilent_turns p).topoWorks.trans hw) ho hs hwait

/-- The receive side of a port is stale in a grace interval, where its neighbour has shown another epoch for 3 ms (R304). -/
def Node.epochStale (n : Node) (p : Nat) : Node := if n.inGrace then n.setTopPort p { n.topPort p with stale := true } else n

theorem Node.epochStale_turns (n : Node) (p : Nat) : Turns n (n.epochStale p) := by
  unfold Node.epochStale
  split
  · exact .setTopPort n p _
  · exact .refl n

theorem Node.epochStale_inaug (n : Node) (p : Nat) : (n.epochStale p).inaug.openR = n.inaug.openR ∧ (n.epochStale p).inaug.sched = n.inaug.sched ∧
    (n.epochStale p).inaug.waiting = n.inaug.waiting ∧ (n.epochStale p).inaug.round = n.inaug.round := by
  unfold Node.epochStale
  split <;> exact ⟨rfl, rfl, rfl, rfl⟩

/-- A neighbour of another epoch that the node has not missed is a change, which starts a round (R282). -/
theorem Node.epochDiffers_idle {n : Node} {p : Nat} (hv : (n.topPort p).valid = true) (he : leAt (n.topPort p).hello 12 2 ≠ n.epoch)
    (ha : n.inaug.agreed = 0) (ht : n.inaug.takenOver = false ∨ n.nbrRecorded p = false) (hw : n.topoWorks = true)
    (ho : n.inaug.openR = false) (hs : n.inaug.sched = none) (hwait : n.inaug.waiting = false) : n.epochDiffers p = (n.epochStale p).startRound := by
  have hkept : n.missCheck p (leAt (n.topPort p).hello 12 2) = n := by
    have hno : (leAt (n.topPort p).hello 12 2 != 0 && (leAt (n.topPort p).hello 12 2 == n.inaug.agreed || (n.inaug.takenOver && n.nbrRecorded p))) = false := by
      have hover : (n.inaug.takenOver && n.nbrRecorded p) = false := by
        rcases ht with h | h <;> simp [h]
      rw [hover, ha, Bool.or_false, bne, Bool.not_and_self]
    rw [Node.missCheck, if_neg]
    simp only [Bool.and_eq_true] at hno ⊢
    rintro ⟨⟨⟨-, h0⟩, -⟩, h1⟩
    rw [h0, h1] at hno
    cases hno
  have hgo : ¬ (!(n.topoWorks && (n.topPort p).valid && leAt (n.topPort p).hello 12 2 != n.epoch)) = true := by simp [hw, hv, he]
  obtain ⟨h1, h2, h3, -⟩ := n.epochStale_inaug p
  rw [Node.epochDiffers, if_neg hgo, hkept, if_neg]
  · exact Node.changed_idle ((n.epochStale_turns p).topoWorks.trans hw) (h1.trans ho) (h2.trans hs) (h3.trans hwait)
  · rintro (hc | hc)
    · exact he hc.symm
    · rw [Node.inSched_none hs] at hc
      cases hc

/-! ### A REPORT (R285, R294) -/

section Report

variable {n m : Node} {f : TopoIn} (hfl : n.floodRx f = (true, m))
include hfl

/-- The REPORT is held. -/
def Node.reportHeld (n : Node) (h : List Byte) : Node := { n with inaug := n.inaug.hold h }

omit hfl in
theorem Node.reportHeld_turns (n : Node) (h : List Byte) : Turns n (n.reportHeld h) := .inaug n rfl

/-- What the first copy of a REPORT means to the round. -/
def Node.reportFinds (m : Node) : Node :=
  if m.inaug.sched.isSome || (m.inaug.openR && m.inaug.proposed) then m.changed 4 else if m.inaug.openR then m else m.startRound

theorem Node.reportRx_first : n.reportRx f =
    (if m.reportFinds.inaug.openR && m.reportFinds.inaug.sched.isNone then m.reportFinds.reportHeld f.h else m.reportFinds).topoDeliver f.frame f.port := by
  rw [Node.reportRx, hfl]
  rfl

theorem Node.reportRx_idle (hw : m.topoWorks = true) (ho : m.inaug.openR = false) (hs : m.inaug.sched = none) :
    n.reportRx f = (m.startRound.reportHeld f.h).topoDeliver f.frame f.port := by
  have hin := Node.startRound_inaug hw ho hs
  have hfind : m.reportFinds = m.startRound := by
    rw [Node.reportFinds, hs, ho]
    rfl
  rw [Node.reportRx_first hfl, hfind, if_pos]
  rw [hin]
  exact Bool.and_eq_true_iff.mpr ⟨rfl, by rw [show ((m.inaug.opened m.clock.fresh).hold m.roundOpened.ownReport).sched = m.inaug.sched from rfl, hs]; rfl⟩

theorem Node.reportRx_proposed (hw : m.topoWorks = true) (ho : m.inaug.openR = true) (hp : m.inaug.proposed = true) (hs : m.inaug.sched = none) :
    n.reportRx f = (m.sendAbort 4).topoDeliver f.frame f.port := by
  have hfind : m.reportFinds = m.sendAbort 4 := by
    rw [Node.reportFinds, ho, hp, if_pos (by simp), Node.changed_proposed hw ho hs hp]
  rw [Node.reportRx_first hfl, hfind, if_neg]
  rw [Node.sendAbort_inaug]
  exact Bool.false_ne_true

theorem Node.reportRx_open (ho : m.inaug.openR = true) (hp : m.inaug.proposed = false) (hs : m.inaug.sched = none) :
    n.reportRx f = (m.reportHeld f.h).topoDeliver f.frame f.port := by
  have hfind : m.reportFinds = m := by
    rw [Node.reportFinds, hs, ho, hp]
    rfl
  rw [Node.reportRx_first hfl, hfind, ho, hs]
  rfl

end Report

/-- An ABORT leaves the room of the topology engine. -/
theorem Node.sendAbort_topoRoom {n : Node} {b : List Byte} (cause : Nat) (h : n.topoRoom b) : (n.sendAbort cause).topoRoom b := by
  have hsent : Talks n (n.abortSent cause) := (Talks.of_speaks (n.abortFlood_speaks cause)).trans (.of_turns (n.abortSent_turns cause))
  obtain ⟨hq, hc⟩ := hsent.topoRoom h
  rw [n.sendAbort_eq]
  refine ⟨?_, ?_⟩
  · rw [Node.engQueue, Node.dropRound_fab]
    exact hq
  · rw [Node.freeCells_of_fab (a := n.abortSent cause) (Node.dropRound_fab _ cause) fun k hk => ?_]
    · exact hc
    · refine Node.dropRound_rd _ _ (fun hi => ?_) ?_
      · have := hi.1
        simp only [F.FAB_BANK_STATE] at this
        omega
      · simp only [F.FAB_BANK_STATE, F.MGT_FAULT_SOURCE]
        omega

/-! ### What arrives by a row (R276, R279) -/

/-- A frame that has come in by a port. -/
def TopoIn.wire (p : Nat) (h b : List Byte) : TopoIn := { port := p, h := h, frame := b, gram := false }

theorem acrossOf_lt (p : Nat) : acrossOf p < 4 := Nat.mod_lt _ (by decide)

section Arrives

variable {n : Node} {p ty len : Nat} {b : List Byte} (h : TopoArrives n p b ty len)
include h

theorem TopoArrives.hello (ht : ty = 1) (hlen : len = 36) : n.topoRow p 1 b = (n.counted p b).helloRx (.wire p (slice b 14 52) b) := by
  subst ht hlen
  exact h.handled rfl

theorem TopoArrives.report (ht : ty = 2) (hlen : len = 76) : n.topoRow p 2 b = (n.counted p b).reportRx (.wire p (slice b 14 92) b) := by
  subst ht hlen
  exact h.handled rfl

theorem TopoArrives.body_length : (slice b 14 (16 + len)).length = 16 + len := by
  have := h.length.2
  rw [slice, List.length_take, List.length_drop]
  omega

/-- The first copy of a flooded frame is taken, and goes on along its line where it has not yet. -/
theorem TopoArrives.first (hk : floodKey (slice b 14 (16 + len)) ∉ n.inaug.seen) (hs : leAt b 18 6 ≠ n.ident) :
    ∃ m, (n.counted p b).floodRx (.wire p (slice b 14 (16 + len)) b) = (true, m) ∧ Talks n m ∧
      (∀ f : Fld, 32 * 0x10500000 ≤ f.key → m.rd f = n.rd f) ∧ m.inaug = n.inaug.heard p (slice b 14 (16 + len)) ∧
      ((lineOf p, floodKey (slice b 14 (16 + len))) ∉ n.inaug.relayed → n.nativeUp (acrossOf p) = true → n.txFree (acrossOf p) →
        ∃ x, Output.frame (acrossOf p) x ∈ m.out ∧ slice x 14 (16 + len) = slice b 14 (16 + len)) := by
  have hg := h.wire.talks
  have hin := h.wire.inaug
  have hbody := h.body_length
  have htop : ∀ f : Fld, 32 * 0x10500000 ≤ f.key → (n.counted p b).rd f = n.rd f := fun f => h.wire.rd_top
  have hsender : topoSender (TopoIn.wire p (slice b 14 (16 + len)) b).h ≠ (n.counted p b).ident := by
    rw [hg.ident]
    exact fun hc => hs ((topoSender_slice b len).symm.trans hc)
  generalize n.counted p b = g at hg hin htop hsender
  obtain ⟨m, hfl, htalks, hrd, hm, hsent⟩ := Node.floodRx_first (n := g) (f := .wire p (slice b 14 (16 + len)) b) rfl hsender (by rw [hin]; exact hk)
  refine ⟨m, hfl, hg.trans htalks, fun f hf => (hrd f (not_sendKey_line (by omega))).trans (htop f hf), by rw [hm, hin]; rfl, fun hr hn hf => ?_⟩
  obtain ⟨x, hx, hout⟩ := hsent (by rw [hin]; exact hr) (hg.ready.native _ hn) (hg.ready.free _ (acrossOf_lt p) hf)
  exact ⟨x, hout, hx.slice hbody.symm⟩

end Arrives

/-! ### Copies of a flooded frame (R279) -/

/-- A splice leaves what stands before it. -/
theorem slice_splice_before {l x : List Byte} {off i k : Nat} (h : i + k ≤ off) (hl : off ≤ l.length) : slice (splice l off x) i k = slice l i k := by
  rw [splice, List.append_assoc, slice, slice, List.drop_append_of_le_length (by rw [List.length_take]; omega),
    List.take_append_of_le_length (by rw [List.length_drop, List.length_take]; omega), List.drop_take, List.take_take, Nat.min_eq_left (by omega)]

theorem leAt_splice_before {l x : List Byte} {off i k : Nat} (h : i + k ≤ off) (hl : off ≤ l.length) : leAt (splice l off x) i k = leAt l i k := by
  rw [leAt, slice_splice_before h hl, leAt]

theorem byteAt_splice_before {l x : List Byte} {off i : Nat} (h : i < off) (hl : off ≤ l.length) : byteAt (splice l off x) i = byteAt l i := by
  have hsame : slice (splice l off x) 0 off = slice l 0 off := slice_splice_before (by omega) hl
  have h1 := byteAt_slice (splice l off x) (off := 0) h
  have h2 := byteAt_slice l (off := 0) h
  rw [Nat.zero_add] at h1 h2
  rw [← h1, ← h2, hsame]

/-- The header of a CONFIRM whose CT follows a held step stays. -/
structure SameHeader (f g : TopoIn) : Prop where
  port : g.port = f.port
  gram : g.gram = f.gram
  sender : topoSender g.h = topoSender f.h
  key : floodKey g.h = floodKey f.h

theorem Node.fixCt_header (n : Node) {f : TopoIn} (h : 24 ≤ f.h.length) : SameHeader f (n.fixCt f) := by
  rw [Node.fixCt]
  cases n.clock.held with
  | none => exact ⟨rfl, rfl, rfl, rfl⟩
  | some qo =>
    obtain ⟨q, o⟩ := qo
    dsimp only
    split
    · exact ⟨rfl, rfl, rfl, rfl⟩
    · rename_i hgo
      have hty : topoType f.h = 4 := by
        by_contra hne
        exact hgo (.inr hne)
      refine ⟨rfl, rfl, leAt_splice_before (by decide) h, ?_⟩
      have h1 : ∀ x, topoSender (splice f.h 24 x) = topoSender f.h := fun x => leAt_splice_before (by decide) h
      have h2 : ∀ x, topoRound (splice f.h 24 x) = topoRound f.h := fun x => leAt_splice_before (by decide) h
      have h3 : ∀ x, topoType (splice f.h 24 x) = 4 := fun x => by
        rw [← hty]
        exact byteAt_splice_before (by decide) h
      rw [floodKey, floodKey, h1, h2, h3, hty, if_neg (by decide), if_neg (by decide)]

/-- The flooded frames, by type and command. -/
def floodRows (p : Nat) (b : List Byte) : List (Nat × Instr) := [(2, .report p b), (3, .propose p b), (4, .confirmRound p b), (5, .abortRound p b)]

section Copies

variable {s : State} {p ty len : Nat} {b : List Byte} {c : Instr}

/-- A flooded frame that is not delivered does no more than go on along its line. -/
theorem TopoArrives.undelivered (hc : (ty, c) ∈ floodRows p b) (hlen : topoLen ty = some len) (h : TopoArrives s.node p b ty len) {m : Node}
    (hfl : ∀ g : TopoIn, SameHeader (.wire p (slice b 14 (16 + len)) b) g → (s.node.clock.held = none → g = .wire p (slice b 14 (16 + len)) b) →
      (s.node.counted p b).floodRx g = (false, m)) : exec c s = s.to m := by
  have hrow := h.handled hlen
  have hbody := h.body_length
  have hheld := h.wire.talks.clock.2.2.1
  generalize s.node.counted p b = k at hrow hfl hheld
  have hplain := hfl _ ⟨rfl, rfl, rfl, rfl⟩ fun _ => rfl
  simp only [floodRows, List.mem_cons, Prod.mk.injEq, List.not_mem_nil, or_false] at hc
  rcases hc with ⟨rfl, rfl⟩ | ⟨rfl, rfl⟩ | ⟨rfl, rfl⟩ | ⟨rfl, rfl⟩
  · refine congrArg s.to (hrow.trans ?_)
    change k.reportRx (.wire p _ b) = m
    rw [Node.reportRx, hplain]
    rfl
  · refine congrArg s.to (hrow.trans ?_)
    change k.proposeRx (.wire p _ b) = m
    rw [Node.proposeRx, hplain]
    rfl
  · refine congrArg s.to (hrow.trans ?_)
    change k.confirmRx (.wire p _ b) = m
    have hlen34 : len = 18 := (Option.some.inj hlen).symm
    have hfix := hfl _ (k.fixCt_header (f := .wire p (slice b 14 (16 + len)) b) (by
      change 24 ≤ (slice b 14 (16 + len)).length
      omega)) fun hnone => by rw [Node.fixCt, hheld, hnone]
    rw [Node.confirmRx, hfix]
    rfl
  · refine congrArg s.to (hrow.trans ?_)
    change k.abortRx (.wire p _ b) = m
    rw [Node.abortRx, hplain]
    rfl

/-- A copy that has been relayed along its line, and the node's own frame, change nothing. -/
theorem flooded_known (hc : (ty, c) ∈ floodRows p b) (hlen : topoLen ty = some len) (h : TopoArrives s.node p b ty len)
    (hk : (floodKey (slice b 14 (16 + len)) ∈ s.node.inaug.seen ∧ (lineOf p, floodKey (slice b 14 (16 + len))) ∈ s.node.inaug.relayed) ∨ leAt b 18 6 = s.node.ident) :
    Settles c s (s.node.counted p b) := by
  refine .of_to (h.undelivered hc hlen fun g hg _ => ?_)
  have hident := h.wire.talks.ident
  have hin := h.wire.inaug
  generalize s.node.counted p b = k at hident hin
  have hsender : topoSender g.h = leAt b 18 6 := hg.sender.trans (topoSender_slice b len)
  by_cases hown : leAt b 18 6 = s.node.ident
  · exact Node.floodRx_own (by rw [hsender, hown, hident])
  · obtain ⟨hseen, hrel⟩ := hk.resolve_right hown
    have hkey : floodKey g.h = floodKey (slice b 14 (16 + len)) := hg.key
    have hline : lineOf g.port = lineOf p := by rw [hg.port]; rfl
    exact Node.floodRx_known (by rw [hsender, hident]; exact hown) (by rw [hkey, hin]; exact hseen) (by rw [hkey, hin, hline]; exact hrel)

/-- The first copy of a known frame on the other line is relayed only. -/
theorem flooded_relayed (hfit : s.node.fits) (hc : (ty, c) ∈ floodRows p b) (hlen : topoLen ty = some len) (h : TopoArrives s.node p b ty len)
    (hs : leAt b 18 6 ≠ s.node.ident) (hheld : s.node.clock.held = none) (hk : floodKey (slice b 14 (16 + len)) ∈ s.node.inaug.seen)
    (hr : (lineOf p, floodKey (slice b 14 (16 + len))) ∉ s.node.inaug.relayed) : Yields c s (fun m =>
      m.inaug = { s.node.inaug with relayed := (lineOf p, floodKey (slice b 14 (16 + len))) :: s.node.inaug.relayed } ∧ m.fab = s.node.fab ∧
      (s.node.nativeUp (acrossOf p) = true → s.node.txFree (acrossOf p) →
        ∃ h, Output.frame (acrossOf p) h ∈ m.out ∧ slice h 14 (16 + len) = slice b 14 (16 + len))) := by
  have htalks := h.wire.talks
  have hin := h.wire.inaug
  have hbody := h.body_length
  have heq : exec c s = s.to ((s.node.counted p b).passedOn (.wire p (slice b 14 (16 + len)) b)) := h.undelivered hc hlen fun g _ hg => by
    rw [hg hheld]
    refine Node.floodRx_other rfl ?_ (by rw [hin]; exact hk) (by rw [hin]; exact hr)
    rw [htalks.ident]
    exact fun hown => hs ((topoSender_slice b len).symm.trans hown)
  generalize s.node.counted p b = k at heq htalks hin
  have hpass := k.passedOn_talks (.wire p (slice b 14 (16 + len)) b)
  refine Yields.of_steady heq (htalks.steady.trans hpass.steady) hfit fun t ht => ⟨?_, ?_, fun hn hf => ?_⟩
  · rw [ht.inaug, k.passedOn_inaug, hin]
    rfl
  · rw [ht.fab, hpass.fab, htalks.fab]
  · obtain ⟨x, hx, hout⟩ := Node.passedOn_sent (n := k) (f := .wire p (slice b 14 (16 + len)) b) (htalks.ready.native _ hn) (htalks.ready.free _ (acrossOf_lt p) hf)
    obtain ⟨l, hl⟩ := ht.out
    exact ⟨x, by rw [hl]; exact List.mem_append_right _ hout, hx.slice hbody.symm⟩

end Copies

/-! ### The statement, clause by clause -/

theorem Node.sendAbort_epoch (n : Node) (cause : Nat) : (n.sendAbort cause).epoch = n.epoch := by
  have hsent : Talks n (n.abortSent cause) := (Talks.of_speaks (n.abortFlood_speaks cause)).trans (.of_turns (n.abortSent_turns cause))
  have hdrop : (n.sendAbort cause).epoch = (n.abortSent cause).epoch := by
    rw [n.sendAbort_eq]
    exact Node.dropRound_rd _ _ (fun hi => absurd hi.1.1 (by decide)) (by decide)
  exact hdrop.trans hsent.epoch

/-- What the node has said stays said where it floods an ABORT. -/
theorem Node.sendAbort_said (n : Node) (cause : Nat) : ∃ l, (n.sendAbort cause).out = l ++ n.out := by
  obtain ⟨l, hl⟩ := n.sendAbort_out cause
  obtain ⟨r, hr⟩ := (n.abortFlood_speaks cause).out
  exact ⟨l ++ r, by rw [hl, hr, List.append_assoc]⟩

/-- Another node's REPORT, held, leaves the round as it has started. -/
theorem RoundStarted.held {n m : Node} {h : List Byte} (hr : RoundStarted n m) (hs : topoSender h ≠ n.ident % 2 ^ 48) : RoundStarted n (m.reportHeld h) := by
  obtain ⟨h1, h2, h3, ⟨r, hmem, hown, hround⟩, h5⟩ := hr
  refine ⟨h1, h2, h3, ⟨r, List.mem_append_left _ (List.mem_filter.mpr ⟨hmem, ?_⟩), hown, hround⟩, h5⟩
  rw [hown]
  exact bne_iff_ne.mpr hs.symm

section Clauses

variable {s : State} {p : Nat} {b : List Byte} (hfit : s.node.fits)
include hfit

theorem helloTimer_sends (hw : s.node.topoWorks = true) : Yields .helloTimer s (fun m =>
    m.inaug = s.node.inaug ∧ m.fab = s.node.fab ∧ ∀ q, q < 4 → s.node.hitless q = true → s.node.txFree q → ∃ h, Output.frame q h ∈ m.out ∧
      beAt h 0 6 = 0x0180C200000E ∧ beAt h 12 2 = 0x88B5 ∧ beAt h 14 2 = 0x5439 ∧ byteAt h 16 = 1 ∧ byteAt h 17 = 1 ∧
      leAt h 18 6 = s.node.ident % 2 ^ 48 ∧ leAt h 24 2 = s.node.inaug.round % 2 ^ 16 ∧ leAt h 26 2 = s.node.epoch % 2 ^ 16 ∧ leAt h 28 2 = 36 ∧
      slice h 30 16 = s.node.consistId ∧ slice h 46 16 = s.node.vehicleId ∧ byteAt h 62 = q ∧ byteAt h 63 = s.node.position % 256 ∧
      byteAt h 65 = s.node.level % 256) := by
  have hspeak := Speaks.sendHellos s.node [0, 1, 2, 3]
  refine Yields.of_steady (m := [0, 1, 2, 3].foldl (fun a p => a.sendHello p) s.node) rfl (.of_sends hspeak.toSends) hfit fun t ht => ?_
  refine ⟨ht.inaug.trans hspeak.inaug, ht.fab.trans hspeak.fab, fun q hq hh hf => ?_⟩
  have hmem : q ∈ [0, 1, 2, 3] := by
    simp only [List.mem_cons, List.not_mem_nil, or_false]
    omega
  obtain ⟨h, hb, hout⟩ := Node.hellos_sent hw hmem hh hf
  obtain ⟨l, hl⟩ := ht.out
  obtain ⟨h1, h2, -⟩ := hb.address
  obtain ⟨g1, g2, g3, g4, g5, g6, g7⟩ := s.node.helloOf_shows q hb
  obtain ⟨k1, k2, k3, k4, k5⟩ := s.node.helloOf_body q hb
  refine ⟨h, ?_, h1, h2, g1, g2, g3, g4, g5, g6, g7, k1, k2, k3.trans (Nat.mod_eq_of_lt (by omega)), k4, k5⟩
  rw [hl]
  exact List.mem_append_right _ hout

theorem hello_starts_round (h : TopoArrives s.node p b 1 36)
    (hidle : s.node.inaug.openR = false ∧ s.node.inaug.sched = none ∧ s.node.inaug.waiting = false) (hrec : (s.node.topPort p).recSet = false)
    (hnew : (s.node.topPort p).hello = [] ∨ slice (s.node.topPort p).hello 16 36 ≠ slice b 30 36) (hroom : s.node.topoRoom b) :
    Yields (.hello p b) s (fun m => RoundStarted s.node m ∧ QueuedTopo s.node m p b ∧ (m.topPort p).valid = true ∧ (m.topPort p).hello = slice b 14 52) := by
  obtain ⟨ho, hs, hwait⟩ := hidle
  have hrow := h.hello rfl rfl
  have hg := h.wire.talks
  have hin := h.wire.inaug
  have hport := h.wire.topPort p
  generalize s.node.counted p b = g at hrow hg hin hport
  have hw : g.topoWorks = true := hg.topoWorks.trans h.wire.works
  rw [← hin] at ho hs hwait
  have hnew' : (g.topPort p).hello = [] ∨ slice (g.topPort p).hello 16 36 ≠ slice (slice b 14 52) 16 36 := by
    rw [hport, slice_slice b (by decide)]
    exact hnew
  have heq := Node.helloRx_new (f := .wire p (slice b 14 52) b) hw ho hs hwait (by rw [← hport] at hrec; exact hrec) hnew'
  obtain ⟨k, hk⟩ : ∃ k, k = g.setTopPort p (g.heardHello (.wire p (slice b 14 52) b)) := ⟨_, rfl⟩
  have hkp : (k.topPort p).valid = true ∧ (k.topPort p).hello = slice b 14 52 := by
    rw [hk, Node.topPort_setTopPort_same]
    exact ⟨rfl, rfl⟩
  have hturn : Talks s.node k := hk ▸ hg.trans (.of_turns (.setTopPort ..))
  have hopen : k.inaug.openR = false ∧ k.inaug.sched = none ∧ k.inaug.round = s.node.inaug.round := by
    rw [hk, ← hin]
    exact ⟨ho, hs, rfl⟩
  change g.helloRx _ = Node.startRound ((g.setTopPort p (g.heardHello _)).topoDeliver b p) at heq
  rw [← hk] at heq
  have hroomk := hturn.topoRoom hroom
  have hdel := Traffic.topoDeliver k b p
  have hready := Node.topoDeliver_ready hroomk p
  obtain ⟨d, hd⟩ : ∃ d, d = k.topoDeliver b p := ⟨_, rfl⟩
  rw [← hd] at heq hdel hready
  have hwd : d.topoWorks = true := hdel.topoWorks.trans (hturn.topoWorks.trans h.wire.works)
  have hod : d.inaug.openR = false ∧ d.inaug.sched = none := by rw [hdel.inaug]; exact ⟨hopen.1, hopen.2.1⟩
  refine Yields.of_steady (m := d.startRound) ?_ ((hturn.steady.trans (.of_traffic hdel)).trans (Node.startRound_steady hwd hod.1 hod.2)) hfit fun t ht => ?_
  · rw [← heq, ← hrow]
    rfl
  have hstart := Node.startRound_started hwd hod.1 hod.2
  refine ⟨(hstart.of_ready (hturn.ready.trans hready) (hdel.ident.trans hturn.ident) (by rw [hdel.inaug]; exact hopen.2.2)).onto (.of_follows ht),
    .of_deliver (m := k) fun hp => ⟨hturn.fab, hturn.epoch, hroomk, ?_⟩, ?_⟩
  · have hpeers : d.tn9Peers = [] := by rw [hd, Node.topoDeliver_tn9Peers hroomk, hturn.tn9Peers, hp]
    rw [ht.fab, (Node.startRound_fab hwd hod.1 hod.2 hpeers).fab, hd]
  · have htop : t.topPort p = k.topPort p := by
      rw [Node.topPort, ht.inaug, ← Node.topPort, Node.startRound_topPort hwd hod.1 hod.2, Node.topPort, hdel.inaug, Node.topPort]
    rw [htop]
    exact hkp

omit hfit in
theorem hello_known (h : TopoArrives s.node p b 1 36) (hvalid : (s.node.topPort p).valid = true) (hrec : (s.node.topPort p).recSet = true)
    (hvid : (s.node.topPort p).recVid = slice b 46 16) (hsame : slice (s.node.topPort p).hello 16 36 = slice b 30 36)
    (hsender : topoSender (s.node.topPort p).hello = leAt b 18 6) (hnode : (s.node.topPort p).recNode = leAt b 18 6) :
    Settles (.hello p b) s ((s.node.counted p b).setTopPort p
      { s.node.topPort p with hello := slice b 14 52, stale := (s.node.topPort p).stale && (leAt b 26 2 != s.node.epoch || s.node.barred p) }) := by
  have hrow := h.hello rfl rfl
  have hport := h.wire.topPort p
  have hepoch : (s.node.counted p b).epoch = s.node.epoch := h.wire.talks.epoch
  have hbar : (s.node.counted p b).barred p = s.node.barred p := by rw [Node.barred, h.wire.rd_top (by decide), Node.barred]
  generalize s.node.counted p b = g at hrow hport hepoch hbar
  refine .of_to ?_
  have hlen : slice (slice b 14 52) 16 36 ≠ [] := by
    rw [slice_slice b (by decide)]
    have := h.length.2
    intro hnil
    have := congrArg List.length hnil
    rw [slice, List.length_take, List.length_drop, List.length_nil] at this
    omega
  have heq := Node.helloRx_same (n := g) (f := .wire p (slice b 14 52) b) (by rw [← hport] at hvalid; exact hvalid) (by rw [← hport] at hrec; exact hrec)
    (by
      rw [← hport] at hvid
      exact hvid.trans (slice_slice b (show 0x20 + 16 ≤ 52 by decide)).symm)
    (by
      rw [← hport] at hsame
      exact hsame.trans (slice_slice b (show 16 + 36 ≤ 52 by decide)).symm)
    hlen
    (by
      rw [← hport] at hsender
      exact hsender.trans (topoSender_slice b 36).symm)
    (by
      rw [← hport] at hnode
      exact hnode.trans (topoSender_slice b 36).symm)
  have hheard : g.heardHello (.wire p (slice b 14 52) b) =
      { s.node.topPort p with hello := slice b 14 52, stale := (s.node.topPort p).stale && (leAt b 26 2 != s.node.epoch || s.node.barred p) } := by
    have he : leAt (slice b 14 52) 12 2 = leAt b 26 2 := leAt_slice b (by decide)
    rw [Node.heardHello]
    simp only [TopoIn.wire, he, hepoch, hbar, hport, ← hvalid]
  change g.helloRx _ = g.setTopPort p _ at heq
  rw [hheard] at heq
  rw [← heq, ← hrow]
  rfl

omit hfit in
theorem exec_neighbourTimeout (hp : p < 4) : exec (.neighbourTimeout p) s = s.to (s.node.nbrLost p) := by
  have : exec (.neighbourTimeout p) s = s.to (if p < 4 then s.node.nbrLost p else s.node) := rfl
  rw [this, if_pos hp]

omit hfit in
theorem neighbourTimeout_mate (hp : p < 4) (hv : (s.node.topPort p).valid = true) (hl : s.node.linkUp (mateOf p) = true)
    (hm : (s.node.topPort (mateOf p)).valid = true) (ho : s.node.inaug.openR = false) :
    Settles (.neighbourTimeout p) s (s.node.setTopPort p { s.node.topPort p with valid := false }) := by
  refine .of_to ?_
  rw [exec_neighbourTimeout hp]
  congr 1
  by_cases hlink : s.node.linkUp p = true
  · exact Node.nbrLost_mate (by rw [Node.nbrHere, hlink, hv]; rfl) (by rw [Node.nbrHere, hl, hm]; rfl) ho
  · exact Node.nbrLost_down (by rw [Node.nbrHere, Bool.eq_false_iff.mpr hlink]; rfl)

omit hfit in
theorem neighbourTimeout_down (hp : p < 4) (hl : s.node.linkUp p = false) :
    Settles (.neighbourTimeout p) s (s.node.setTopPort p { s.node.topPort p with valid := false }) := by
  refine .of_to ?_
  rw [exec_neighbourTimeout hp, Node.nbrLost_down (by rw [Node.nbrHere, hl]; rfl)]
  rfl

theorem neighbourTimeout_divides (hp : p < 4) (hv : (s.node.topPort p).valid = true) (hl : s.node.linkUp p = true)
    (hm : s.node.linkUp (mateOf p) = false ∨ (s.node.topPort (mateOf p)).valid = false) (hw : s.node.topoWorks = true)
    (hidle : s.node.inaug.openR = false ∧ s.node.inaug.sched = none ∧ s.node.inaug.waiting = false) :
    Yields (.neighbourTimeout p) s (fun m => RoundStarted s.node m ∧ (m.topPort p).valid = false) := by
  obtain ⟨ho, hs, hwait⟩ := hidle
  have hmate : s.node.nbrHere (mateOf p) = false := by
    rw [Node.nbrHere]
    rcases hm with h | h <;> simp [h]
  have hturn := s.node.nbrSilent_turns p
  have htop := s.node.nbrSilent_topPort p
  have hin : (s.node.nbrSilent p).inaug.openR = false ∧ (s.node.nbrSilent p).inaug.sched = none ∧
      (s.node.nbrSilent p).inaug.round = s.node.inaug.round := ⟨ho, hs, rfl⟩
  have heq : exec (.neighbourTimeout p) s = s.to (s.node.nbrSilent p).startRound := by
    rw [exec_neighbourTimeout hp, Node.nbrLost_divides (by rw [Node.nbrHere, hl, hv]; rfl) hmate hw ho hs hwait]
  generalize s.node.nbrSilent p = k at hturn htop hin heq
  obtain ⟨h1, h2, h3⟩ := hin
  have hwk := hturn.topoWorks.trans hw
  refine Yields.of_steady heq (hturn.steady.trans (Node.startRound_steady hwk h1 h2)) hfit fun t ht => ?_
  refine ⟨((Node.startRound_started hwk h1 h2).of_ready hturn.ready hturn.ident h3).onto (.of_follows ht), ?_⟩
  rw [Node.topPort, ht.inaug, ← Node.topPort, Node.startRound_topPort hwk h1 h2, htop]

theorem epochDifference_starts (hp : p < 4) (hw : s.node.topoWorks = true)
    (hidle : s.node.inaug.openR = false ∧ s.node.inaug.sched = none ∧ s.node.inaug.waiting = false) (hv : (s.node.topPort p).valid = true)
    (ha : s.node.inaug.agreed = 0) (ht : s.node.inaug.takenOver = false ∨ s.node.nbrRecorded p = false)
    (he : leAt (s.node.topPort p).hello 12 2 ≠ s.node.epoch) :
    Yields (.epochDifferenceTimeout p) s (fun m => RoundStarted s.node m ∧ (s.node.inGrace = true → (m.topPort p).stale = true)) := by
  obtain ⟨ho, hs, hwait⟩ := hidle
  have hturn := s.node.epochStale_turns p
  have htop : s.node.inGrace = true → ((s.node.epochStale p).topPort p).stale = true := fun hg => by
    rw [Node.epochStale, if_pos hg, Node.topPort_setTopPort_same]
  obtain ⟨h1, h2, -, h4⟩ := s.node.epochStale_inaug p
  rw [ho] at h1
  rw [hs] at h2
  have heq : exec (.epochDifferenceTimeout p) s = s.to (s.node.epochStale p).startRound := by
    have hexec : exec (.epochDifferenceTimeout p) s = s.to (if p < 4 then s.node.epochDiffers p else s.node) := rfl
    rw [hexec, if_pos hp, Node.epochDiffers_idle hv he ha ht hw ho hs hwait]
  generalize s.node.epochStale p = k at hturn htop h1 h2 h4 heq
  have hwk := hturn.topoWorks.trans hw
  refine Yields.of_steady heq (hturn.steady.trans (Node.startRound_steady hwk h1 h2)) hfit fun t ht => ?_
  refine ⟨((Node.startRound_started hwk h1 h2).of_ready hturn.ready hturn.ident h4).onto (.of_follows ht), fun hg => ?_⟩
  rw [Node.topPort, ht.inaug, ← Node.topPort, Node.startRound_topPort hwk h1 h2]
  exact htop hg

section Report

variable (h : TopoArrives s.node p b 2 76) (hk : floodKey (slice b 14 92) ∉ s.node.inaug.seen) (hs : leAt b 18 6 ≠ s.node.ident) (hroom : s.node.topoRoom b)
include h hk hs hroom

/-- The REPORT has gone on along its line, where it had not yet. -/
def Relayed (n : Node) (p : Nat) (b : List Byte) (len : Nat) (m : Node) : Prop :=
  (lineOf p, floodKey (slice b 14 len)) ∉ n.inaug.relayed → n.nativeUp (acrossOf p) = true → n.txFree (acrossOf p) →
    ∃ h, Output.frame (acrossOf p) h ∈ m.out ∧ slice h 14 len = slice b 14 len

omit hfit h hk hs hroom in
theorem Relayed.onto {n m t : Node} {len : Nat} (hr : Relayed n p b len m) (ho : ∃ l, t.out = l ++ m.out) : Relayed n p b len t := fun h1 h2 h3 => by
  obtain ⟨x, hx, hb⟩ := hr h1 h2 h3
  obtain ⟨l, hl⟩ := ho
  exact ⟨x, by rw [hl]; exact List.mem_append_right _ hx, hb⟩

theorem report_starts_round (hident : s.node.ident < 2 ^ 48)
    (hidle : s.node.inaug.openR = false ∧ s.node.inaug.sched = none ∧ s.node.inaug.waiting = false) : Yields (.report p b) s (fun m =>
      RoundStarted s.node m ∧ QueuedTopo s.node m p b ∧ Relayed s.node p b 92 m ∧
        ∃ r ∈ m.inaug.reports, r.sender = leAt b 18 6 ∧ r.body = slice b 14 92) := by
  obtain ⟨m, hfl, htalks, htop, hin, hrel⟩ := h.first hk hs
  have hrow := h.report rfl rfl
  have hw := htalks.topoWorks.trans h.wire.works
  have ho : m.inaug.openR = false ∧ m.inaug.sched = none ∧ m.inaug.round = s.node.inaug.round := by
    rw [hin]
    exact ⟨hidle.1, hidle.2.1, rfl⟩
  have heq := Node.reportRx_idle hfl hw ho.1 ho.2.1
  have hsender : topoSender (slice b 14 92) = leAt b 18 6 := topoSender_slice b 76
  have hstart := (Node.startRound_started hw ho.1 ho.2.1).of_ready htalks.ready htalks.ident ho.2.2
  have hheld := hstart.held (h := slice b 14 92) (by rw [hsender, Nat.mod_eq_of_lt hident]; exact hs)
  have hsteady := Node.startRound_steady hw ho.1 ho.2.1
  have hout := Node.startRound_out hw ho.1 ho.2.1
  have hfab := fun hp => Node.startRound_fab hw ho.1 ho.2.1 (htalks.tn9Peers.trans hp)
  generalize m.startRound = r at heq hheld hsteady hout hfab
  have hkeep := r.reportHeld_turns (slice b 14 92)
  have hreports : ∃ x ∈ (r.reportHeld (slice b 14 92)).inaug.reports, x.sender = leAt b 18 6 ∧ x.body = slice b 14 92 :=
    ⟨_, List.mem_append_right _ (List.mem_singleton_self _), hsender, rfl⟩
  change _ = (r.reportHeld (slice b 14 92)).topoDeliver b p at heq
  generalize r.reportHeld (slice b 14 92) = k at heq hheld hkeep hreports
  have hdel := Traffic.topoDeliver k b p
  have hrelk : Relayed s.node p b 92 k := Relayed.onto (m := m) hrel (by rw [hkeep.out]; exact hout)
  refine Yields.of_steady (m := k.topoDeliver b p) ?_ (((htalks.steady.trans hsteady).trans hkeep.steady).trans (.of_traffic hdel)) hfit fun t ht => ?_
  · rw [← heq, ← hrow]
    rfl
  refine ⟨(hheld.onto (.of_traffic hdel)).onto (.of_follows ht), .of_deliver (m := k) fun hp => ?_, (hrelk.onto hdel.out).onto ht.out, ?_⟩
  · have hall := (htalks.trans (hfab hp)).trans (.of_turns hkeep)
    exact ⟨hall.fab, hall.epoch, hall.topoRoom hroom, ht.fab⟩
  · rw [ht.inaug, hdel.inaug]
    exact hreports

theorem report_ends_round (ho : s.node.inaug.openR = true) (hp : s.node.inaug.proposed = true) (hsched : s.node.inaug.sched = none) :
    Yields (.report p b) s (fun m => QueuedTopo s.node m p b ∧ Relayed s.node p b 92 m ∧ RoundFailed s.node m 4 ∧
      Floods s.node m 5 (s.node.inaug.round % 2 ^ 16)) := by
  obtain ⟨m, hfl, htalks, htop, hin, hrel⟩ := h.first hk hs
  have hrow := h.report rfl rfl
  have hm : m.inaug.openR = true ∧ m.inaug.proposed = true ∧ m.inaug.sched = none ∧ m.inaug.round = s.node.inaug.round ∧
      m.inaug.reports = s.node.inaug.reports ∧ m.inaug.lastSet = s.node.inaug.lastSet ∧ m.inaug.graceEnd = s.node.inaug.graceEnd := by
    rw [hin]
    exact ⟨ho, hp, hsched, rfl, rfl, rfl, rfl⟩
  obtain ⟨h1, h2, h3, h4, h5, h6, h7⟩ := hm
  have heq := Node.reportRx_proposed hfl (htalks.topoWorks.trans h.wire.works) h1 h2 h3
  have hfail := (m.sendAbort_failed (cause := 4) (by decide) (by decide)).of_same (n := s.node) (by rw [Node.reportSet, h5, Node.reportSet]) h6
    (htop _ (by decide)) htalks.log htalks.epoch (by rw [Node.inGrace, h7, Node.inGrace])
  have hflood := (m.sendAbort_floods 4).of_ready htalks.ready htalks.ident
  rw [h4] at hflood
  have hroomk := Node.sendAbort_topoRoom 4 (htalks.topoRoom hroom)
  have hsteady := htalks.steady.trans (m.sendAbort_steady 4)
  have hfab := (m.sendAbort_fab 4).trans htalks.fab
  have hepoch := (m.sendAbort_epoch 4).trans htalks.epoch
  have hrelk : Relayed s.node p b 92 (m.sendAbort 4) := Relayed.onto (m := m) hrel (m.sendAbort_said 4)
  generalize m.sendAbort 4 = k at heq hfail hflood hroomk hsteady hfab hepoch hrelk
  have hdel := Traffic.topoDeliver k b p
  refine Yields.of_steady (m := k.topoDeliver b p) ?_ (hsteady.trans (.of_traffic hdel)) hfit fun t ht => ?_
  · exact congrArg s.to (hrow.trans heq)
  have hon := Onto.of_traffic hdel
  have hfollow := Onto.of_follows ht
  exact ⟨.of_deliver fun _ => ⟨hfab, hepoch, hroomk, ht.fab⟩, (hrelk.onto hdel.out).onto ht.out, (hfail.onto hon).onto hfollow,
    (hflood.onto hon.out).onto hfollow.out⟩

theorem report_held (ho : s.node.inaug.openR = true) (hp : s.node.inaug.proposed = false) (hsched : s.node.inaug.sched = none) :
    Yields (.report p b) s (fun m => QueuedTopo s.node m p b ∧ Relayed s.node p b 92 m ∧ m.inaug.openR = true ∧
      m.inaug.round = s.node.inaug.round ∧
      m.inaug.reports = s.node.inaug.reports.filter (fun r => r.sender != leAt b 18 6) ++ [Flood.mk (leAt b 18 6) (slice b 14 92)]) := by
  obtain ⟨m, hfl, htalks, -, hin, hrel⟩ := h.first hk hs
  have hrow := h.report rfl rfl
  have hm : m.inaug.openR = true ∧ m.inaug.proposed = false ∧ m.inaug.sched = none := by
    rw [hin]
    exact ⟨ho, hp, hsched⟩
  have heq := Node.reportRx_open hfl hm.1 hm.2.1 hm.2.2
  have hsender : topoSender (slice b 14 92) = leAt b 18 6 := topoSender_slice b 76
  have hkeep := htalks.trans (.of_turns (m.reportHeld_turns (slice b 14 92)))
  have hkin : (m.reportHeld (slice b 14 92)).inaug = (s.node.inaug.heard p (slice b 14 92)).hold (slice b 14 92) := congrArg (Inaug.hold · _) hin
  have hrelk : Relayed s.node p b 92 (m.reportHeld (slice b 14 92)) := Relayed.onto (m := m) hrel ⟨[], rfl⟩
  change _ = (m.reportHeld (slice b 14 92)).topoDeliver b p at heq
  generalize m.reportHeld (slice b 14 92) = k at heq hkeep hkin hrelk
  have hdel := Traffic.topoDeliver k b p
  refine Yields.of_steady (m := k.topoDeliver b p) ?_ (hkeep.steady.trans (.of_traffic hdel)) hfit fun t ht => ?_
  · exact congrArg s.to (hrow.trans heq)
  refine ⟨.of_deliver fun _ => ⟨hkeep.fab, hkeep.epoch, hkeep.topoRoom hroom, ht.fab⟩, (hrelk.onto hdel.out).onto ht.out, ?_⟩
  rw [ht.inaug, hdel.inaug, hkin, ← hsender]
  exact ⟨ho, rfl, rfl⟩

end Report

omit hfit in
theorem topo_bad {c : Instr} (hw : WireIn s.node p b) (h7 : byteAt b 15 ≠ 0x37) (hok : topoOk (b.drop 14) = false)
    (hc : c ∈ [Instr.hello p b, .report p b, .propose p b, .confirmRound p b, .abortRound p b, .mark p b]) : Settles c s
      (((s.node.counted p b).wr F.TOP_BADFRAMES_COUNT (min (s.node.rd F.TOP_BADFRAMES_COUNT + 1) (2 ^ 32 - 1))).pviol 0 p) := by
  obtain ⟨ty, hexec⟩ : ∃ ty, exec c s = s.to (s.node.topoRow p ty b) := by
    simp only [List.mem_cons, List.not_mem_nil, or_false] at hc
    rcases hc with rfl | rfl | rfl | rfl | rfl | rfl
    · exact ⟨1, rfl⟩
    · exact ⟨2, rfl⟩
    · exact ⟨3, rfl⟩
    · exact ⟨4, rfl⟩
    · exact ⟨5, rfl⟩
    · exact ⟨6, rfl⟩
  exact .of_to (hexec.trans (congrArg s.to (hw.bad h7 hok)))

omit hfit in
theorem tn7_recorded (hw : WireIn s.node p b) (ho : s.node.inaug.openR = false) (hmagic : slice b 14 4 = [0x54, 0x37, 1, 7]) (hzero : slice b 24 6 = zeros 6) :
    Settles (.tn7Ident p b) s ((s.node.counted p b).setTopPort p { s.node.topPort p with tn7 := true }) := by
  have hrow := hw.row 7
  have htakes := hw.takes
  have hport := hw.topPort p
  have hin := hw.inaug
  generalize s.node.counted p b = k at hrow htakes hport hin
  have hbyte : ∀ i, i < 4 → byteAt (b.drop 14) i = byteAt [0x54, 0x37, 1, 7] i := fun i hi => by
    rw [← hmagic, byteAt_slice b hi, byteAt_drop]
  have hall : (slice (b.drop 14) 10 6).all (fun x => x == 0) = true := by
    rw [slice_drop, hzero]
    decide
  have htn7 : k.tn7Rx p (b.drop 14) = (k.setTopPort p { k.topPort p with tn7 := true }).refreshReport := by
    rw [Node.tn7Rx, if_pos ⟨(hbyte 2 (by decide)).trans (by decide), (hbyte 3 (by decide)).trans (by decide), hall⟩]
  have hrx : k.topoRx p 7 b = k.tn7Rx p (b.drop 14) := by
    rw [Node.topoRx]
    dsimp only
    rw [if_neg htakes, if_pos ⟨(hbyte 0 (by decide)).trans (by decide), (hbyte 1 (by decide)).trans (by decide)⟩, if_pos rfl]
  refine .of_to (congrArg s.to ?_)
  rw [hrow, hrx, htn7, hport]
  exact Node.refreshReport_closed (by rw [Node.setTopPort, hin]; exact ho)

omit hfit in
theorem tn7_forgotten (hp : p < 4) (ho : s.node.inaug.openR = false) :
    Settles (.tn7RecordExpiry p) s (s.node.setTopPort p { s.node.topPort p with tn7 := false }) := by
  refine .of_to ?_
  have hexec : exec (.tn7RecordExpiry p) s = s.to (if p < 4 then
      (s.node.setTopPort p { s.node.topPort p with tn7 := false }).refreshReport else s.node) := rfl
  rw [hexec, if_pos hp, Node.refreshReport_closed (by exact ho)]

end Clauses

/-- Settles O47, by the layers of the inauguration: what the frame unit sends, what a round that starts or fails leaves, and how a frame comes in. -/
theorem neighboursAndReports : Obligations.NeighboursAndReports := by
  unfold Obligations.NeighboursAndReports
  intro s p b hp hfit
  dsimp only
  refine ⟨helloTimer_sends hfit, fun h => ⟨fun hidle _ hrec hnew hroom => hello_starts_round hfit h hidle hrec hnew hroom,
    fun hv hrec hvid hsame hsender hnode => hello_known h hv hrec hvid hsame hsender hnode⟩, fun hv => ⟨fun hl hm ho => neighbourTimeout_mate hp hv hl hm ho,
    neighbourTimeout_down hp, fun hl hm hw hidle => neighbourTimeout_divides hfit hp hv hl hm hw hidle,
    fun hw hidle ha ht he => epochDifference_starts hfit hp hw hidle hv ha ht he⟩, fun h hk hs hident hroom => ⟨report_starts_round hfit h hk hs hroom hident,
    fun ho hprop hsched _ => report_ends_round hfit h hk hs hroom ho hprop hsched, report_held hfit h hk hs hroom⟩,
    fun ty c hc len hlen h hk => flooded_known hc hlen h hk,
    fun ty c hc len hlen h hs hheld hk hr => flooded_relayed hfit hc hlen h hs hheld hk hr,
    fun hw h7 hok c hc => topo_bad hw h7 hok hc, fun ho => ⟨fun hw hm hz => tn7_recorded hw ho hm hz, tn7_forgotten hp ho⟩⟩

end Sys2Proof.Machine
end

section
/-! PROOF. What a frame of the node's own units leaves as it goes through the fabric: the ports' transmitters and the log (06 R196 to R221; 08 R309). -/

namespace Sys2Proof.Machine

open Sys2Proof

/-- The log stays, and of every port all but its flow control and what it owes the host. -/
structure Undisturbed (m n : Node) : Prop where
  log : n.log = m.log
  port : ∀ q, ∃ s h, n.port q = { m.port q with pfcSent := s, tsHost := h }

namespace Undisturbed

variable {a b c : Node}

theorem of_same (hl : b.log = a.log) (hp : b.ports = a.ports) : Undisturbed a b :=
  ⟨hl, fun q => ⟨(a.port q).pfcSent, (a.port q).tsHost, by rw [Node.port, hp, Node.port]⟩⟩

theorem refl (n : Node) : Undisturbed n n := of_same rfl rfl

theorem trans (h : Undisturbed a b) (g : Undisturbed b c) : Undisturbed a c := by
  refine ⟨g.log.trans h.log, fun q => ?_⟩
  obtain ⟨s, x, hb⟩ := h.port q
  obtain ⟨s', x', hc⟩ := g.port q
  rw [hb] at hc
  exact ⟨s', x', hc⟩

theorem ite {p : Prop} [Decidable p] (hb : Undisturbed a b) (hc : Undisturbed a c) : Undisturbed a (if p then b else c) := by
  split
  · exact hb
  · exact hc

theorem foldl {α : Type} {g : Node → α → Node} (h : ∀ n x, Undisturbed n (g n x)) (l : List α) (n : Node) : Undisturbed n (l.foldl g n) := by
  induction l generalizing n with
  | nil => exact refl n
  | cons x l ih => exact (h n x).trans (ih _)

theorem wr (n : Node) (f : Fld) (v : Nat) : Undisturbed n (n.wr f v) := of_same rfl rfl

theorem disc (n : Node) (k : Nat) : Undisturbed n (n.disc k) := of_same rfl rfl

theorem fab (n : Node) (x : Fab) : Undisturbed n { n with fab := x } := of_same rfl rfl

theorem emit (n : Node) (o : Output) : Undisturbed n (n.emit o) := of_same rfl rfl

theorem of_memOnly {m n : Node} (h : MemOnly m n) : Undisturbed m n := by
  obtain ⟨x, rfl⟩ := h
  exact of_same rfl rfl

theorem tabHw (n : Node) (t i j v : Nat) : Undisturbed n (n.tabHw t i j v) := of_memOnly (.tabHw n t i j v)

theorem ctxAdd (n : Node) (s j k : Nat) : Undisturbed n (n.ctxAdd s j k) := of_memOnly (.ctxAdd n s j k)

theorem ctxDiscard (n : Node) (s : Nat) : Undisturbed n (n.ctxDiscard s) := of_memOnly (.ctxDiscard n s)

theorem ctxPoliced (n : Node) (s : Nat) : Undisturbed n (n.ctxPoliced s) := tabHw n ..

theorem returnCells (n : Node) (l : List Nat) : Undisturbed n (n.returnCells l) := of_same (n.returnCells_log l) (n.returnCells_ports l)

theorem takeCells (k : Nat) (n : Node) : Undisturbed n (Node.takeCells k n).2 := by
  obtain ⟨b, f, h⟩ := Node.takeCells_keeps k n
  rw [h]
  exact of_same rfl rfl

theorem bounce (n : Node) (k : Nat) : Undisturbed n (n.bounce k) := (takeCells k n).trans (returnCells _ _)

/-- A port's own flow control and its debt to the host. -/
theorem setPort (n : Node) (p s h : Nat) : Undisturbed n (n.setPort p { n.port p with pfcSent := s, tsHost := h }) := by
  refine ⟨rfl, fun q => ?_⟩
  by_cases hq : q = p
  · exact ⟨s, h, by rw [hq, Node.port_setPort_same]⟩
  · exact ⟨(n.port q).pfcSent, (n.port q).tsHost, Node.port_setPort_ne n _ hq⟩

theorem cntAdd (n : Node) (p i k : Nat) : Undisturbed n (n.cntAdd p i k) := by
  obtain ⟨_, _, _, h⟩ := n.cntAdd_eq p i k
  rw [h]
  exact of_same rfl rfl

theorem txCount (n : Node) (p : Nat) (x : List Byte) : Undisturbed n (n.txCount p x) :=
  (((((cntAdd n _ _ _).trans (cntAdd _ _ _ _)).trans (cntAdd _ _ _ _)).trans (cntAdd _ _ _ _)).trans (cntAdd _ _ _ _)).trans (cntAdd _ _ _ _)

theorem sendPfc (n : Node) (p k t : Nat) : Undisturbed n (n.sendPfc p k t) :=
  ite (((emit n _).trans (txCount _ _ _)).trans (cntAdd _ _ _ _)) (refl n)

theorem pfcUpd (n : Node) (p : Nat) : Undisturbed n (n.pfcUpd p) := by
  unfold Node.pfcUpd
  refine ite (foldl (fun m k => ?_) _ n) (refl n)
  unfold Node.pfcClass
  refine ite (refl m) ?_
  split
  · exact refl m
  · rename_i v _
    have hsend := sendPfc m p k (if v = true then 0xFFFF else 0)
    refine ⟨hsend.log, fun q => ?_⟩
    by_cases hq : q = p
    · exact ⟨setBit (m.port p).pfcSent k v, (m.port p).tsHost, by rw [hq, Node.port_setPort_same]⟩
    · rw [Node.port_setPort_ne _ _ hq]
      exact hsend.port q

theorem msi (n : Node) (v : Nat) : Undisturbed n (n.msi v) := by
  unfold Node.msi
  exact ite (emit n _) (refl n)

theorem frameDone (n : Node) (fid : Nat) : Undisturbed n (n.frameDone fid) := by
  unfold Node.frameDone
  split
  · exact refl n
  · unfold Node.descDone
    have hdebt : ∀ (m : Node) (p : Nat), Undisturbed m (m.setPort p { m.port p with tsHost := (m.port p).tsHost - 1 }) := fun m p =>
      setPort m p (m.port p).pfcSent _
    exact (fab n _).trans (ite ((((emit _ _).trans (emit _ _)).trans (ite (hdebt _ _) (refl _))).trans (msi _ _))
      (((emit _ _).trans (emit _ _)).trans (ite (hdebt _ _) (refl _))))

theorem dropRef (n : Node) (fid : Nat) : Undisturbed n (n.dropRef fid) := by
  unfold Node.dropRef
  exact ite ((((fab n _).trans (returnCells _ _)).trans (pfcUpd _ _)).trans (frameDone _ _)) (fab n _)

/-! ### Through the fabric -/

/-- A stored frame that is no PD telegram is turned away without a violation. -/
theorem putCopy (n : Node) (p : Nat) {c : Copy} (h : isPd (n.frame c.fid).data = false) :
    Undisturbed n (n.putCopy p c).2 ∧ (n.putCopy p c).2.fab.frames = n.fab.frames := by
  unfold Node.putCopy
  dsimp only
  rw [h]
  split
  · split
    · exact ⟨disc n _, rfl⟩
    · exact ⟨fab n _, rfl⟩
  · split
    · exact ⟨fab n _, rfl⟩
    · split
      · split
        · split
          · exact ⟨wr n _ _, rfl⟩
          · split
            · exact ⟨wr n _ _, rfl⟩
            · exact ⟨fab n _, rfl⟩
        · exact ⟨fab n _, rfl⟩
      · exact ⟨fab n _, rfl⟩

theorem putCopies {c : Copy} (set : List Nat) : ∀ x : Nat × Node, isPd (x.2.frame c.fid).data = false →
    Undisturbed x.2 (set.foldl (fun (a : Nat × Node) p =>
      let (ok, m) := a.2.putCopy p c
      if ok then (a.1 + 1, m) else (a.1, m)) x).2 := by
  induction set with
  | nil => exact fun x _ => refl x.2
  | cons p set ih =>
    intro x hx
    obtain ⟨hone, hframes⟩ := putCopy x.2 p hx
    have hnext : isPd ((x.2.putCopy p c).2.frame c.fid).data = false := by
      rw [Node.frame, hframes]
      exact hx
    rw [List.foldl_cons]
    dsimp only
    split
    · exact hone.trans (ih (x.1 + 1, (x.2.putCopy p c).2) hnext)
    · exact hone.trans (ih (x.1, (x.2.putCopy p c).2) hnext)

theorem enqueue (n : Node) {c : Copy} (set : List Nat) (h : isPd (n.frame c.fid).data = false) : Undisturbed n (n.enqueue c set).2 := by
  unfold Node.enqueue
  dsimp only
  obtain ⟨x, hx, hfid⟩ : ∃ x, x = (if (n.ract c.stream == 1) = true then { c with gseq := some (n.tabW 1 c.stream 2 % 65536) } else c) ∧ x.fid = c.fid :=
    ⟨_, rfl, by split <;> rfl⟩
  have hcopies := putCopies (c := x) set (0, n) (by rw [hfid]; exact h)
  dsimp only at hcopies
  rw [← hx]
  generalize List.foldl _ (0, n) set = y at hcopies ⊢
  split
  · exact hcopies
  · refine trans ?_ (fab _ _)
    refine trans ?_ (ite (tabHw _ _ _ _ _) (refl _))
    exact (hcopies.trans (ite (ctxDiscard _ _) (refl _))).trans (ctxAdd _ _ _ _)

theorem destinations (n : Node) (f : Frame) (s : Nat) : Undisturbed n (n.destinations f s).2 := by
  have hd : ∀ (k : Nat) (m : Node), Undisturbed m ((m.disc k).ctxDiscard s) := fun k m => (disc m k).trans (ctxDiscard _ s)
  unfold Node.destinations
  dsimp only
  split
  · exact hd _ n
  · split
    · exact hd _ n
    · generalize (decide (22 ∈ n.destSet f s ((n.kindSet f s).getD [])) && !n.engTarget (bitsOf (n.tabW 1 s 0) 51 47)) = noeng
      have hn : Undisturbed n (if noeng = true then n.disc 13 else n) := ite (disc n _) (refl n)
      generalize (if noeng = true then n.disc 13 else n) = m at hn ⊢
      refine hn.trans ?_
      generalize (if noeng = true then List.filter (fun p => p != 22) (n.destSet f s ((n.kindSet f s).getD [])) else
        n.destSet f s ((n.kindSet f s).getD [])) = set
      generalize (if f.oversize = true then _ else set) = left
      split
      · exact hd _ m
      · split
        · exact hd _ m
        · exact refl m

theorem admission (n : Node) (set : List Nat) (c free : Nat) : Undisturbed n (n.admission set c free).2 :=
  foldl (fun m _ => disc m _) _ n

theorem police (n : Node) (s len : Nat) : Undisturbed n (n.police s len).2 := by
  unfold Node.police
  dsimp only
  split
  · exact refl n
  · split
    · exact refl n
    · exact fab n _

/-- A frame without a sequence number is counted only. -/
theorem recover (n : Node) (s i : Nat) : Undisturbed n (n.recover s none i).2 := by
  unfold Node.recover
  split
  · exact refl n
  · exact tabHw n ..

theorem enterStored (n : Node) (f : Frame) (s c : Nat) (launch : Option Nat) (set : List Nat) (h : isPd f.data = false) :
    Undisturbed n (n.enterStored f s c launch set).2 := by
  have hnum : Undisturbed n (({ n with fab := { n.fab with nextFid := n.fab.nextFid + 1 } } : Node).setFrame n.fab.nextFid f) := fab n _
  have hframe : (({ n with fab := { n.fab with nextFid := n.fab.nextFid + 1 } } : Node).setFrame n.fab.nextFid f).frame n.fab.nextFid = f := Node.frame_setFrame_same ..
  unfold Node.enterStored
  dsimp only
  generalize ({ n with fab := { n.fab with nextFid := n.fab.nextFid + 1 } } : Node).setFrame n.fab.nextFid f = m at hnum hframe ⊢
  refine hnum.trans ((enqueue m (c := { fid := n.fab.nextFid, stream := s, cls := c, stamp := f.stamp, launch := launch }) set (by rw [hframe]; exact h)).trans ?_)
  split
  · exact (ctxDiscard _ s).trans (dropRef _ _)
  · exact pfcUpd _ f.ingress

theorem enterCounted (m : Node) (f : Frame) (len s : Nat) (launch : Option Nat) (h : isPd f.data = false) (hseq : f.rseq = none) :
    Undisturbed m (m.enterCounted f len s launch).2 := by
  obtain ⟨⟨o, d⟩, hd⟩ : ∃ r, m.destinations f s = r := ⟨_, rfl⟩
  have hdest : Undisturbed m d := by
    have := destinations m f s
    rw [hd] at this
    exact this
  unfold Node.enterCounted
  cases o with
  | none =>
    simp only [hd]
    exact hdest.trans (bounce _ _)
  | some set =>
    simp only [hd, hseq]
    refine hdest.trans ?_
    split
    · exact (disc d _).trans (ctxDiscard _ _)
    · have hadm := admission d set (bitsOf (m.tabW 1 s 0) 62 60) (d.freeCells - 1)
      generalize d.admission set (bitsOf (m.tabW 1 s 0) 62 60) (d.freeCells - 1) = ad at hadm ⊢
      refine hadm.trans ?_
      split
      · exact (ctxDiscard ad.2 s).trans (bounce _ 1)
      · split
        · exact ((disc ad.2 _).trans (ctxDiscard _ s)).trans (bounce _ (ad.2.takenCells _ _))
        · refine (police ad.2 s len).trans ?_
          split
          · exact ((disc _ _).trans (ctxPoliced _ s)).trans (bounce _ (cellsFor f.data.length))
          · refine (recover (ad.2.police s len).2 s f.ingress).trans ?_
            split
            · exact (ctxDiscard _ s).trans (bounce _ (cellsFor f.data.length))
            · exact (takeCells (cellsFor f.data.length) _).trans (enterStored _ _ _ _ _ _ h)

/-- A frame of a unit of the node's own through P22. -/
theorem closeP22 (n : Node) {x : List Byte} (h : isPd x = false) : Undisturbed n (n.closeP22 x) := by
  unfold Node.closeP22
  have hfree : Undisturbed n { n with freeN := n.freeN + 1 } := of_same rfl rfl
  refine hfree.trans ?_
  generalize ({ n with freeN := n.freeN + 1 } : Node) = m
  refine ite (of_same rfl rfl) ?_
  rw [Node.enter_eq]
  split
  · exact (disc m _).trans (bounce _ 1)
  · exact ((ctxAdd m _ _ _).trans (ctxAdd _ _ _ _)).trans (enterCounted _ _ _ _ _ h rfl)

end Undisturbed

/-- What stands at the front of a datagram between two nodes of the train. -/
theorem Node.trainDatagram_port (n : Node) (pos : Nat) {port : Nat} (hp : port < 65536) (p : List Byte) :
    byteAt (n.trainDatagram pos port p) 14 = 0x45 ∧ beAt (n.trainDatagram pos port p) 36 2 = port := by
  have hparts : ∃ (x t : Byte) (d e c u : Nat), n.trainDatagram pos port p =
      zeros 6 ++ n.portMac 22 ++ beBytes 2 0x0800 ++
        (([0x45, x] ++ beBytes 2 (28 + p.length) ++ beBytes 2 d ++ beBytes 2 e ++ [t, 17]) ++ beBytes 2 c ++
          (beBytes 4 (trainAddr n.position 0) ++ beBytes 4 (trainAddr pos 0))) ++
        (beBytes 2 port ++ beBytes 2 port ++ beBytes 2 (8 + p.length)) ++ beBytes 2 u ++ p := ⟨_, _, _, _, _, _, rfl⟩
  obtain ⟨x, t, d, e, c, u, h⟩ := hparts
  have hmac := n.portMac_length 22
  have hzeros : (zeros 6).length = 6 := rfl
  have hpair : ∀ x y : Byte, [x, y].length = 2 := fun _ _ => rfl
  rw [h]
  simp (disch := simp [hmac, hzeros]) only [List.append_assoc, beAt_skip, byteAt_skip, beBytes_length, beAt_here, byteAt_pair, hmac, hzeros, hpair,
    Nat.reduceSub, Nat.reducePow]
  exact ⟨rfl, Nat.mod_eq_of_lt (by omega)⟩

/-- A datagram of standard mode is no PD telegram. -/
theorem Node.trainDatagram_notPd (n : Node) (pos : Nat) (p : List Byte) : isPd (n.trainDatagram pos 49320 p) = false := by
  obtain ⟨h14, h36⟩ := n.trainDatagram_port pos (port := 49320) (by decide) p
  have hstart : udpStart (n.trainDatagram pos 49320 p) = 34 := by
    rw [udpStart, h14]
  rw [isPd, hstart, h36]
  simp

theorem Undisturbed.topoGrams (n : Node) (h : List Byte) : Undisturbed n (n.topoGrams h) := by
  unfold Node.topoGrams
  exact .ite (.foldl (fun a p => .closeP22 a (a.trainDatagram_notPd p h)) _ n) (.refl n)

/-- Traffic that leaves the ports' transmitters leaves the ports that may send. -/
theorem Traffic.ready_of {m n : Node} (h : Traffic m n)
    (hport : ∀ p, (n.port p).tx = (m.port p).tx ∧ (n.port p).own = (m.port p).own ∧ (n.port p).shift = (m.port p).shift) : Ready m n := by
  have hpair : n.pair = m.pair := by
    obtain ⟨_, _, _, _, _, _, _, _, _, _, _, hb⟩ := h.eq
    rw [hb]
  refine .of_kept hport hpair fun p hp f hf => h.rd f fun hk => ?_
  · have hlow : ¬ TrafficKey F.PWR_ISLANDS_DATA.key ∧ ¬ TrafficKey F.PAIR_STATUS_CLAIM_HELD.key := by
      unfold TrafficKey PortKey
      decide
    have hl : lineOf p < 2 := Nat.mod_lt _ (by decide)
    have he : endOf p < 2 := by unfold endOf; omega
    have hsrc : F.MGT_FAULT_SOURCE.key < 32 * 0x10300000 := by decide
    rcases hf with hf | hf | hf | hf | hf | hf | hf <;> rw [hf] at hk
    · exact hlow.1 hk
    · exact hlow.2 hk
    all_goals
      simp only [TrafficKey, PortKey, F.PRT_STATUS_LINK, F.PRT_STATUS_LPI_TX, F.BBL_RELAY_CLOSED, F.BBL_RELAY_MISMATCH, F.BBL_STATUS_COMPAT] at hk
      omega

theorem Traffic.ready {m n : Node} (h : Traffic m n) (hu : Undisturbed m n) : Ready m n := h.ready_of fun p => by
  obtain ⟨s, x, hport⟩ := hu.port p
  rw [hport]
  exact ⟨rfl, rfl, rfl⟩

theorem Ready.fault (n : Node) (a b c : Nat) : Ready n (n.fault a b c) := (Traffic.fault n a b c).ready_of fun p => by
  rw [Node.port, Node.fault_ports, ← Node.port]
  exact ⟨rfl, rfl, rfl⟩

/-- A flood of the frame unit leaves the log, and the ports that may send. -/
theorem Node.topoFlood_leaves (n : Node) (h : List Byte) : Ready n (n.topoFlood h) ∧ (n.topoFlood h).log = n.log := by
  have hsends := Speaks.foldl (fun a p => Speaks.topoSend a p h) [0, 1, 2, 3] n
  have hgrams := Undisturbed.topoGrams ([0, 1, 2, 3].foldl (fun a p => a.topoSend p h) n) h
  exact ⟨(Ready.of_speaks hsends).trans ((Traffic.topoGrams _ h).ready hgrams), hgrams.log.trans hsends.log⟩

end Sys2Proof.Machine
end

section
/-! PROOF. O48, part 1: discovery, agreement and aborts, and the frames of a round (08 R285 to R294). -/

namespace Sys2Proof.Machine

open Sys2Proof

/-! ### What a failure of the round is about -/

/-- All that a failure of the round is about stays. -/
structure RoundKept (n m : Node) : Prop where
  ready : Ready n m
  ident : m.ident = n.ident
  log : m.log = n.log
  epoch : m.epoch = n.epoch
  round : m.inaug.round = n.inaug.round
  reports : m.inaug.reports = n.inaug.reports
  lastSet : m.inaug.lastSet = n.inaug.lastSet
  grace : m.inaug.graceEnd = n.inaug.graceEnd
  fails : m.rd F.TOP_INAUG_FAILS = n.rd F.TOP_INAUG_FAILS

namespace RoundKept

variable {a b c : Node}

theorem refl (n : Node) : RoundKept n n := ⟨.refl n, rfl, rfl, rfl, rfl, rfl, rfl, rfl, rfl⟩

theorem trans (h : RoundKept a b) (g : RoundKept b c) : RoundKept a c :=
  ⟨h.ready.trans g.ready, g.ident.trans h.ident, g.log.trans h.log, g.epoch.trans h.epoch, g.round.trans h.round, g.reports.trans h.reports,
    g.lastSet.trans h.lastSet, g.grace.trans h.grace, g.fails.trans h.fails⟩

/-- The state of the inauguration changes, but not in what the failure is about. -/
theorem inaug (n : Node) {i : Inaug} (h1 : i.round = n.inaug.round) (h2 : i.reports = n.inaug.reports) (h3 : i.lastSet = n.inaug.lastSet)
    (h4 : i.graceEnd = n.inaug.graceEnd) : RoundKept n { n with inaug := i } :=
  ⟨.of_same rfl rfl fun _ _ _ _ => rfl, rfl, rfl, rfl, h1, h2, h3, h4, rfl⟩

theorem setTopPort (n : Node) (p : Nat) (x : TopPort) : RoundKept n (n.setTopPort p x) := inaug n rfl rfl rfl rfl

theorem of_traffic (h : Traffic a b) (hu : Undisturbed a b) : RoundKept a b := by
  have hin := h.inaug
  exact ⟨h.ready hu, h.ident, hu.log, h.topo_rd (by decide), by rw [hin], by rw [hin], by rw [hin], by rw [hin], h.topo_rd (by decide)⟩

theorem topoFlood (n : Node) (h : List Byte) : RoundKept n (n.topoFlood h) := by
  have ht := Traffic.topoFlood n h
  have hin := ht.inaug
  obtain ⟨hready, hlog⟩ := n.topoFlood_leaves h
  exact ⟨hready, ht.ident, hlog, ht.topo_rd (by decide), by rw [hin], by rw [hin], by rw [hin], by rw [hin], ht.topo_rd (by decide)⟩

theorem phase (n : Node) (v : Nat) : RoundKept n (n.phase v) := by
  have ht := Turns.phase n v
  exact ⟨ht.ready, ht.ident, ht.log, ht.epoch, rfl, rfl, rfl, rfl, Node.rd_wr_ne _ _ (by decide)⟩

end RoundKept

theorem Undisturbed.topoDeliver (n : Node) (b : List Byte) (p : Nat) : Undisturbed n (n.topoDeliver b p) := by
  unfold Node.topoDeliver
  dsimp only
  split
  · exact disc n _
  · split
    · exact disc n _
    · have htaken := takeCells (cellsFor b.length) n
      generalize Node.takeCells (cellsFor b.length) n = x at htaken ⊢
      exact htaken.trans (((fab x.2 _).trans (fab _ _)).trans (pfcUpd _ p))

theorem RoundKept.topoDeliver (n : Node) (b : List Byte) (p : Nat) : RoundKept n (n.topoDeliver b p) := .of_traffic (.topoDeliver n b p) (.topoDeliver n b p)

/-- The round that has failed is that of a node which agrees. -/
theorem RoundKept.failed {n m t : Node} {cause : Nat} (h : RoundKept n m) (hf : RoundFailed m t cause) : RoundFailed n t cause :=
  hf.of_same (by rw [Node.reportSet, h.reports, Node.reportSet]) h.lastSet h.fails h.log h.epoch (by rw [Node.inGrace, h.grace, Node.inGrace])

/-- An ABORT of a node that agrees with another about the round ends the round of that one. -/
theorem RoundKept.aborts {n m : Node} {cause : Nat} (h : RoundKept n m) (hc : cause < 8) (h6 : cause ≠ 6) :
    RoundFailed n (m.sendAbort cause) cause ∧ Floods n (m.sendAbort cause) 5 (n.inaug.round % 2 ^ 16) := by
  have hflood := (m.sendAbort_floods cause).of_ready h.ready h.ident
  rw [h.round] at hflood
  exact ⟨h.failed (m.sendAbort_failed hc h6), hflood⟩

/-- The round fails with this cause, and the ABORT is flooded. -/
def Aborted (n : Node) (cause : Nat) (t : Node) : Prop := RoundFailed n t cause ∧ Floods n t 5 (n.inaug.round % 2 ^ 16)

theorem Aborted.onto {n m t : Node} {cause : Nat} (h : Aborted n cause m) (ho : Onto m t) : Aborted n cause t := ⟨h.1.onto ho, h.2.onto ho.out⟩

theorem Yields.of_abort {c : Instr} {s : State} {m : Node} {cause : Nat} (he : exec c s = s.to (m.sendAbort cause)) (hk : RoundKept s.node m)
    (hm : Steady s.node m) (hf : s.node.fits) (hc : cause < 8) (h6 : cause ≠ 6) : Yields c s (Aborted s.node cause) :=
  Yields.of_steady he (hm.trans (m.sendAbort_steady cause)) hf fun _ ht => Aborted.onto (hk.aborts hc h6) (.of_follows ht)

/-! ### Discovery and the waits (R285, R287, R290, R291) -/

section Waits

variable {s : State} (hfit : s.node.fits)

/-- Discovery may end: the set is closed, or the standard's own discovery has its result. -/
def Node.discovered (n : Node) : Prop := n.on F.TOP_INAUG_STANDARD = true ∨ closedSet n.inaug.reports = true

theorem Node.discoveryEnd_goes {n : Node} (ho : n.inaug.openR = true) (he : n.inaug.ended = false) (hp : n.inaug.proposed = false) (hd : n.discovered) :
    n.discoveryEnd = if 63 < n.inaug.reports.length then n.over63.sendAbort 6 else
      Node.put { n with inaug := { n.inaug with ended := true } } F.TOP_INAUG_STANDARD n.standardRound := by
  have hgo : (!(n.inaug.openR && !n.inaug.ended && !n.inaug.proposed && (n.on F.TOP_INAUG_STANDARD || closedSet n.inaug.reports))) = false := by
    rcases hd with h | h <;> simp [ho, he, hp, h]
  rw [Node.discoveryEnd, hgo]
  rfl

theorem discoveryEnd_closed (ho : s.node.inaug.openR = true) (he : s.node.inaug.ended = false) (hp : s.node.inaug.proposed = false) (hd : s.node.discovered)
    (hlen : s.node.inaug.reports.length ≤ 63) : Settles .discoveryEnd s
      (Node.wr { s.node with inaug := { s.node.inaug with ended := true } } F.TOP_INAUG_STANDARD (b2n s.node.standardRound)) := by
  refine .of_to (congrArg s.to ?_)
  rw [Node.discoveryEnd_goes ho he hp hd, if_neg (by omega)]
  rfl

theorem discoveryTimeout_standard (h : s.node.on F.TOP_INAUG_STANDARD = true) : Settles .discoveryTimeout s s.node := by
  refine .of_to (congrArg s.to ?_)
  rw [Node.discoveryTimeout, h, if_neg (by simp)]

include hfit

theorem discoveryTimeout_fails (ho : s.node.inaug.openR = true) (he : s.node.inaug.ended = false) (hp : s.node.inaug.proposed = false)
    (h : s.node.on F.TOP_INAUG_STANDARD = false) : Yields .discoveryTimeout s (Aborted s.node 4) := by
  have heq : s.node.discoveryTimeout = s.node.sendAbort 4 := by
    rw [Node.discoveryTimeout, ho, he, hp, h, if_pos (by decide)]
  exact Yields.of_abort (congrArg s.to heq) (.refl _) (.refl _) hfit (by decide) (by decide)

/-- A node of the directory is not among the senders. -/
def Node.misses (n : Node) (l : List Flood) : Prop := ∃ k, k < n.inaug.dirCount ∧ ∀ f ∈ l, f.sender ≠ n.inaug.dirW (k + 1) 0 % 2 ^ 48

omit hfit in
theorem Node.lacks_of_misses {n : Node} {l : List Flood} (h : n.misses l) : n.lacks l = true := by
  obtain ⟨k, hk, hl⟩ := h
  refine List.any_eq_true.mpr ⟨k, List.mem_range.mpr hk, ?_⟩
  rw [Bool.not_eq_true', List.any_eq_false]
  exact fun f hf => by simpa using hl f hf

theorem proposeTimeout_fails (ho : s.node.inaug.openR = true) (hp : s.node.inaug.proposed = true) (hc : s.node.inaug.confirmed = false)
    (hl : s.node.misses s.node.inaug.proposes) : Yields .proposeTimeout s (Aborted s.node 3) := by
  have heq : s.node.proposeTimeout = s.node.sendAbort 3 := by
    rw [Node.proposeTimeout, ho, hp, hc, Node.lacks_of_misses hl, if_pos (by decide)]
  exact Yields.of_abort (congrArg s.to heq) (.refl _) (.refl _) hfit (by decide) (by decide)

theorem confirmTimeout_fails (ho : s.node.inaug.openR = true) (hc : s.node.inaug.confirmed = true) (hs : s.node.inaug.sched = none)
    (hl : s.node.misses s.node.inaug.confirms) : Yields .confirmTimeout s (Aborted s.node 3) := by
  have heq : s.node.confirmTimeout = s.node.sendAbort 3 := by
    rw [Node.confirmTimeout, ho, hc, hs, Node.lacks_of_misses hl, if_pos (by decide)]
  exact Yields.of_abort (congrArg s.to heq) (.refl _) (.refl _) hfit (by decide) (by decide)

theorem roundRetry_starts (hwait : s.node.inaug.waiting = true) (ho : s.node.inaug.openR = false) (hw : s.node.topoWorks = true)
    (hs : s.node.inaug.sched = none) : Yields .roundRetry s (RoundStarted s.node) := by
  have heq : exec .roundRetry s = s.to s.node.startRound := by
    refine congrArg s.to ?_
    rw [Node.roundRetry, hwait, ho]
    rfl
  exact Yields.of_steady heq (Node.startRound_steady hw ho hs) hfit fun t ht => (Node.startRound_started hw ho hs).onto (.of_follows ht)

end Waits

/-! ### More than 63 nodes (R287) -/

theorem Turns.linkUp {a b : Node} (h : Turns a b) {q : Nat} (hq : q < 4) : b.linkUp q = a.linkUp q := by
  have hon : ∀ f : Fld, f.key < 32 * 0x10500000 → b.on f = a.on f := fun f hf => by rw [Node.on, h.rd f fun hi => absurd hi.1.1 (by omega), Node.on]
  have hl : lineOf q < 2 := Nat.mod_lt _ (by decide)
  refine Node.linkUp_congr (hon _ ?_) (hon _ ?_) (hon _ ?_) ?_
  · simp only [F.PRT_STATUS_LINK]
    omega
  · simp only [F.BBL_RELAY_CLOSED]
    omega
  · simp only [F.BBL_RELAY_MISMATCH]
    omega
  · obtain ⟨_, _, hb⟩ := h.eq
    rw [hb]

/-- Ports of the coupling are barred, and nothing else changes. -/
structure Bars (m n : Node) : Prop where
  turns : Turns m n
  inaug : ∃ ps, n.inaug = { m.inaug with ports := ps }
  top : ∀ q, ∃ x, n.topPort q = { m.topPort q with stale := x } ∧ ((m.topPort q).stale = true → x = true)
  bits : ∀ q, q < 4 → bitOf (m.rd F.TOP_INAUG_BARRED) q = true → bitOf (n.rd F.TOP_INAUG_BARRED) q = true
  rd : ∀ f : Fld, f.key ≠ F.TOP_INAUG_BARRED.key → n.rd f = m.rd f

namespace Bars

variable {a b c : Node}

theorem refl (n : Node) : Bars n n :=
  ⟨.refl n, ⟨n.inaug.ports, rfl⟩, fun q => ⟨(n.topPort q).stale, rfl, id⟩, fun _ _ h => h, fun _ _ => rfl⟩

theorem trans (h : Bars a b) (g : Bars b c) : Bars a c := by
  refine ⟨h.turns.trans g.turns, ?_, fun q => ?_, fun q hq hb => g.bits q hq (h.bits q hq hb), fun f hf => (g.rd f hf).trans (h.rd f hf)⟩
  · obtain ⟨_, hb⟩ := h.inaug
    obtain ⟨_, hc⟩ := g.inaug
    rw [hb] at hc
    exact ⟨_, hc⟩
  · obtain ⟨x, hx, hx'⟩ := h.top q
    obtain ⟨y, hy, hy'⟩ := g.top q
    rw [hx] at hy hy'
    exact ⟨y, hy, fun hs => hy' (hx' hs)⟩

/-- One port is barred. -/
theorem one (n : Node) (p : Nat) :
    let m := (n.setTopPort p { n.topPort p with stale := true }).wr F.TOP_INAUG_BARRED (setBit (n.rd F.TOP_INAUG_BARRED) p true)
    Bars n m ∧ (p < 4 → bitOf (m.rd F.TOP_INAUG_BARRED) p = true) ∧ (m.topPort p).stale = true := by
  have hbits : ∀ q, q < 4 → bitOf (Node.rd ((n.setTopPort p { n.topPort p with stale := true }).wr F.TOP_INAUG_BARRED (setBit (n.rd F.TOP_INAUG_BARRED) p true))
      F.TOP_INAUG_BARRED) q = if q = p then true else bitOf (n.rd F.TOP_INAUG_BARRED) q := fun q hq => by
    rw [Node.rd_wr_same, show F.TOP_INAUG_BARRED.w = 4 from rfl, bitOf_mod hq, bitOf_setBit]
  have htop : ∀ q, Node.topPort ((n.setTopPort p { n.topPort p with stale := true }).wr F.TOP_INAUG_BARRED (setBit (n.rd F.TOP_INAUG_BARRED) p true)) q =
      (n.setTopPort p { n.topPort p with stale := true }).topPort q := fun q => rfl
  refine ⟨⟨(Turns.setTopPort n p _).trans (.wr _ (f := F.TOP_INAUG_BARRED) _ (inaugKey_of_offset (k := 4) (by decide))), ⟨_, rfl⟩, fun q => ?_, fun q hq hb => ?_, fun f hf =>
    Node.rd_wr_ne _ _ hf⟩, fun hp => ?_, ?_⟩
  · rw [htop]
    by_cases hq : q = p
    · exact ⟨true, by rw [hq, Node.topPort_setTopPort_same], fun _ => rfl⟩
    · exact ⟨(n.topPort q).stale, Node.topPort_setTopPort_ne n _ hq, id⟩
  · rw [hbits q hq]
    split
    · rfl
    · exact hb
  · rw [hbits p hp, if_pos rfl]
  · rw [htop, Node.topPort_setTopPort_same]

theorem nbrHere (h : Bars a b) {q : Nat} (hq : q < 4) : b.nbrHere q = a.nbrHere q := by
  obtain ⟨x, hx, -⟩ := h.top q
  rw [Node.nbrHere, h.turns.linkUp hq, hx, Node.nbrHere]

end Bars

/-- The port shows a neighbour that the directory does not record: its coupling. -/
def Node.couples (n : Node) (p : Nat) : Bool := n.nbrHere p && (slice (n.topPort p).hello 0x20 16 != (n.topPort p).recVid || !(n.topPort p).recSet)

theorem Bars.couples {a b : Node} (h : Bars a b) {q : Nat} (hq : q < 4) : b.couples q = a.couples q := by
  obtain ⟨x, hx, -⟩ := h.top q
  rw [Node.couples, h.nbrHere hq, hx, Node.couples]

/-- The ports of the coupling are barred, one by one. -/
def Node.barPorts (n : Node) (l : List Nat) : Node :=
  l.foldl (fun a p => if a.couples p then (a.setTopPort p { a.topPort p with stale := true }).wr F.TOP_INAUG_BARRED (setBit (a.rd F.TOP_INAUG_BARRED) p true) else a) n

theorem Node.barPorts_bars {l : List Nat} (n : Node) (hl : ∀ p ∈ l, p < 4) : Bars n (n.barPorts l) ∧
    ∀ p ∈ l, n.couples p = true → bitOf ((n.barPorts l).rd F.TOP_INAUG_BARRED) p = true ∧ ((n.barPorts l).topPort p).stale = true := by
  induction l generalizing n with
  | nil => exact ⟨.refl n, fun p hp => absurd hp List.not_mem_nil⟩
  | cons q l ih =>
    have hq := hl q List.mem_cons_self
    obtain ⟨hone, hbit, hstale⟩ := Bars.one n q
    generalize hm : (n.setTopPort q { n.topPort q with stale := true }).wr F.TOP_INAUG_BARRED (setBit (n.rd F.TOP_INAUG_BARRED) q true) = m at hone hbit hstale
    have hcons : n.barPorts (q :: l) = Node.barPorts (if n.couples q then m else n) l := by rw [← hm]; rfl
    have hstep : Bars n (if n.couples q then m else n) := by
      split
      · exact hone
      · exact .refl n
    obtain ⟨hrest, hall⟩ := ih (if n.couples q then m else n) fun p hp => hl p (List.mem_cons_of_mem _ hp)
    rw [hcons]
    refine ⟨hstep.trans hrest, fun p hp hc => ?_⟩
    rcases List.mem_cons.mp hp with rfl | hp
    · rw [if_pos hc] at hrest ⊢
      obtain ⟨x, hx, hx'⟩ := hrest.top p
      exact ⟨hrest.bits p hq (hbit hq), by rw [hx]; exact hx' hstale⟩
    · exact hall p hp (by rw [hstep.couples (hl p (List.mem_cons_of_mem _ hp))]; exact hc)

/-- OVER63 is shown, with its record. -/
def Node.overShown (n : Node) : Node := if n.on F.TOP_INAUG_OVER63 then n else (n.put F.TOP_INAUG_OVER63 true).fault 10 1 n.epoch

theorem Node.over63_eq (n : Node) : n.over63 = n.overShown.barPorts [0, 1, 2, 3] := rfl

theorem Node.overShown_inaug (n : Node) : n.overShown.inaug = n.inaug := by
  unfold Node.overShown
  split
  · rfl
  · exact Node.fault_inaug ..

theorem Node.overShown_rd (n : Node) {f : Fld} (hf : f.key ≠ F.TOP_INAUG_OVER63.key) (hs : f.key ≠ F.MGT_FAULT_SOURCE.key) : n.overShown.rd f = n.rd f := by
  unfold Node.overShown
  split
  · rfl
  · rw [Node.fault_rd _ _ _ _ _ hs]
    exact Node.rd_wr_ne _ _ hf

theorem Node.overShown_on (n : Node) : n.overShown.on F.TOP_INAUG_OVER63 = true := by
  unfold Node.overShown
  split
  · assumption
  · rw [Node.fault_on _ _ _ _ (by decide)]
    exact Node.on_put_same _ _ _ rfl

theorem Node.overShown_steady (n : Node) : Steady n n.overShown := by
  unfold Node.overShown
  split
  · exact .refl n
  · have ht : Turns n (n.put F.TOP_INAUG_OVER63 true) := .wr n _ (inaugKey_of_offset (k := 26) (by decide))
    exact ht.steady.trans (.of_traffic (.fault _ _ _ _))

theorem Node.overShown_ready (n : Node) : Ready n n.overShown ∧ n.overShown.ident = n.ident := by
  unfold Node.overShown
  split
  · exact ⟨.refl n, rfl⟩
  · have ht : Turns n (n.put F.TOP_INAUG_OVER63 true) := .wr n _ (inaugKey_of_offset (k := 26) (by decide))
    exact ⟨ht.ready.trans (.fault _ _ _ _), ((Traffic.fault _ _ _ _).ident).trans ht.ident⟩

theorem Node.overShown_link (n : Node) (q : Nat) (hq : q < 4) : n.overShown.linkUp q = n.linkUp q := by
  have hon : ∀ f : Fld, f.key < 32 * 0x10500000 → f.key ≠ F.MGT_FAULT_SOURCE.key → n.overShown.on f = n.on f := fun f hf hs => by
    rw [Node.on, Node.overShown_rd _ (fun he => by
      rw [he] at hf
      exact absurd hf (by decide)) hs, Node.on]
  have hl : lineOf q < 2 := Nat.mod_lt _ (by decide)
  have hpair : n.overShown.pair = n.pair := by
    unfold Node.overShown
    split
    · rfl
    · obtain ⟨_, _, _, _, _, _, _, _, _, _, _, hb⟩ := (Traffic.fault (n.put F.TOP_INAUG_OVER63 true) 10 1 n.epoch).eq
      rw [hb]
      rfl
  refine Node.linkUp_congr (hon _ ?_ ?_) (hon _ ?_ ?_) (hon _ ?_ ?_) (by rw [hpair])
  all_goals
    simp only [F.PRT_STATUS_LINK, F.BBL_RELAY_CLOSED, F.BBL_RELAY_MISMATCH, F.MGT_FAULT_SOURCE]
    omega

theorem Node.overShown_couples (n : Node) (q : Nat) (hq : q < 4) : n.overShown.couples q = n.couples q := by
  have htop : n.overShown.topPort q = n.topPort q := by rw [Node.topPort, n.overShown_inaug, Node.topPort]
  rw [Node.couples, Node.nbrHere, n.overShown_link q hq, htop, Node.couples, Node.nbrHere]

/-- A round that ends leaves what its word shows besides. -/
theorem Node.dropRound_shows (n : Node) (cause : Nat) {f : Fld} (h1 : f.key ≠ F.TOP_INAUG_FAILS.key) (h2 : f.key ≠ F.TOP_INAUG_PHASE.key)
    (h3 : f.key ≠ F.TOP_INAUG_HOLD_FAIL.key) (hs : f.key ≠ F.MGT_FAULT_SOURCE.key) : (n.dropRound cause).rd f = n.rd f := by
  obtain ⟨l, heq⟩ := n.dropRound_eq cause
  have hm : Node.rd (Node.roundDropped { n with out := l ++ n.out } cause) f = n.rd f := by
    rw [Node.roundDropped, Node.idlePhase, Node.phase, Node.rd_wr_ne _ _ h2, Node.rd_wr_ne _ _ h1]
    rfl
  generalize Node.roundDropped { n with out := l ++ n.out } cause = m at heq hm
  dsimp only at heq
  have hphase : (m.phase 6).rd f = m.rd f := Node.rd_wr_ne _ _ h2
  rw [heq]
  split
  · split
    · exact hphase.trans hm
    · rw [Node.fault_rd _ _ _ _ _ hs]
      exact ((Node.rd_wr_ne _ _ h3).trans hphase).trans hm
  · exact hm

/-- An ABORT leaves what the word of the inauguration shows besides. -/
theorem Node.sendAbort_shows (n : Node) (cause : Nat) {f : Fld} (h0 : f.key ≠ F.TOP_INAUG_CAUSE.key) (h1 : f.key ≠ F.TOP_INAUG_FAILS.key)
    (h2 : f.key ≠ F.TOP_INAUG_PHASE.key) (h3 : f.key ≠ F.TOP_INAUG_HOLD_FAIL.key) (hf : 32 * 0x10500000 ≤ f.key) : (n.sendAbort cause).rd f = n.rd f := by
  have hs : f.key ≠ F.MGT_FAULT_SOURCE.key := by
    have : F.MGT_FAULT_SOURCE.key < 32 * 0x10500000 := by decide
    omega
  rw [n.sendAbort_eq, Node.dropRound_shows _ _ h1 h2 h3 hs, Node.abortSent, Node.rd_wr_ne _ _ h0, (n.abortFlood_speaks cause).rd f (not_sendKey_line (by omega))]

theorem Node.sendAbort_cause (n : Node) {cause : Nat} (h : cause < 8) : (n.sendAbort cause).rd F.TOP_INAUG_CAUSE = cause := by
  rw [n.sendAbort_eq, Node.dropRound_cause, Node.abortSent, Node.rd_wr_same]
  exact Nat.mod_eq_of_lt h

/-- A set of more than 63 nodes bars the coupling ports and ends in an ABORT with cause 6. -/
theorem discoveryEnd_over {s : State} (hfit : s.node.fits) (ho : s.node.inaug.openR = true) (he : s.node.inaug.ended = false)
    (hp : s.node.inaug.proposed = false) (hd : s.node.discovered) (hlen : 63 < s.node.inaug.reports.length) : Yields .discoveryEnd s (fun t =>
      t.on F.TOP_INAUG_OVER63 = true ∧ t.rd F.TOP_INAUG_CAUSE = 6 ∧ t.inaug.openR = false ∧ t.inaug.waiting = true ∧
      Floods s.node t 5 (s.node.inaug.round % 2 ^ 16) ∧ ∀ q, q < 4 → s.node.linkUp q = true → (s.node.topPort q).valid = true →
        ((s.node.topPort q).recSet = false ∨ slice (s.node.topPort q).hello 32 16 ≠ (s.node.topPort q).recVid) →
        bitOf (t.rd F.TOP_INAUG_BARRED) q = true ∧ (t.topPort q).stale = true) := by
  have heq : exec .discoveryEnd s = s.to (s.node.over63.sendAbort 6) := by
    refine congrArg s.to ?_
    rw [Node.discoveryEnd_goes ho he hp hd, if_pos hlen]
  obtain ⟨hbars, hall⟩ := Node.barPorts_bars s.node.overShown (l := [0, 1, 2, 3]) (by decide)
  have hshown := s.node.overShown_on
  obtain ⟨hready, hident⟩ := s.node.overShown_ready
  have hround : s.node.overShown.inaug.round = s.node.inaug.round := by rw [s.node.overShown_inaug]
  have hsteady := s.node.overShown_steady
  have hcouples := fun q hq => s.node.overShown_couples q hq
  rw [s.node.over63_eq] at heq
  generalize s.node.overShown = k at heq hbars hall hshown hready hident hround hsteady hcouples
  generalize k.barPorts [0, 1, 2, 3] = m at heq hbars hall
  have hin := m.sendAbort_inaug 6
  refine Yields.of_steady heq ((hsteady.trans hbars.turns.steady).trans (m.sendAbort_steady 6)) hfit fun t ht => ?_
  have htop : ∀ f : Fld, 32 * 0x10500800 ≤ f.key ∧ f.key < 32 * 0x10500830 → t.rd f = (m.sendAbort 6).rd f := (Onto.of_follows ht).rd
  have hbar := m.sendAbort_shows 6 (f := F.TOP_INAUG_BARRED) (by decide) (by decide) (by decide) (by decide) (by decide)
  refine ⟨?_, (htop _ (by decide)).trans (m.sendAbort_cause (by decide)), by rw [ht.inaug, hin]; rfl, by rw [ht.inaug, hin]; rfl, ?_,
    fun q hq hl hv hrec => ?_⟩
  · rw [Node.on, htop _ (by decide), m.sendAbort_shows 6 (by decide) (by decide) (by decide) (by decide) (by decide), hbars.rd _ (by decide)]
    exact hshown
  · obtain ⟨ps, hps⟩ := hbars.inaug
    have hr : m.inaug.round = s.node.inaug.round := by rw [hps]; exact hround
    have hflood := (m.sendAbort_floods 6).of_ready (hready.trans hbars.turns.ready) (hbars.turns.ident.trans hident)
    rw [hr] at hflood
    exact hflood.onto ht.out
  · have hq' : q ∈ [0, 1, 2, 3] := by
      simp only [List.mem_cons, List.not_mem_nil, or_false]
      omega
    obtain ⟨h1, h2⟩ := hall q hq' (by
      rw [hcouples q hq, Node.couples, Node.nbrHere, hl, hv]
      rcases hrec with h | h <;> simp [h])
    refine ⟨by rw [htop _ (by decide), hbar]; exact h1, ?_⟩
    rw [Node.topPort, ht.inaug, ← Node.topPort, m.sendAbort_topPort]
    exact h2

end Sys2Proof.Machine
end

section
/-! PROOF. O48, part 2: the frames of a round as they come in (08 R290 to R294; 13 R467). -/

namespace Sys2Proof.Machine

open Sys2Proof

/-! ### The first copy -/

/-- The node holds the sender's REPORT of this round. -/
def Node.knows (n : Node) (b : List Byte) : Prop := ∃ f ∈ n.inaug.reports, f.sender = leAt b 18 6 ∧ topoRound f.body = leAt b 24 2

section First

variable {n : Node} {p ty len : Nat} {b : List Byte} (h : TopoArrives n p b ty len)
include h

theorem TopoArrives.key (hty : ty ≠ 2) : floodKey (slice b 14 (16 + len)) = (ty, leAt b 18 6, leAt b 24 2, 0) := by
  have htype : topoType (slice b 14 (16 + len)) = ty := (byteAt_slice b (by omega)).trans h.type
  have hround : topoRound (slice b 14 (16 + len)) = leAt b 24 2 := leAt_slice b (by omega)
  rw [floodKey, htype, topoSender_slice, hround, if_neg hty]

omit h in
/-- A PROPOSE, a CONFIRM and an ABORT are handled by their types. -/
theorem TopoArrives.propose (h : TopoArrives n p b 3 8) : n.topoRow p 3 b = (n.counted p b).proposeRx (.wire p (slice b 14 24) b) := by
  have heq := h.handled rfl
  dsimp only at heq
  rwa [if_neg (by decide), if_neg (by decide), if_pos rfl] at heq

omit h in
theorem TopoArrives.confirm (h : TopoArrives n p b 4 18) : n.topoRow p 4 b = (n.counted p b).confirmRx (.wire p (slice b 14 34) b) := by
  have heq := h.handled rfl
  dsimp only at heq
  rwa [if_neg (by decide), if_neg (by decide), if_neg (by decide), if_pos rfl] at heq

omit h in
theorem TopoArrives.abort (h : TopoArrives n p b 5 4) : n.topoRow p 5 b = (n.counted p b).abortRx (.wire p (slice b 14 20) b) := by
  have heq := h.handled rfl
  dsimp only at heq
  rwa [if_neg (by decide), if_neg (by decide), if_neg (by decide), if_neg (by decide), if_pos rfl] at heq

/-- The first copy of a frame, in a node that agrees about the round. -/
theorem TopoArrives.taken (hty : ty ≠ 2) (hk : (ty, leAt b 18 6, leAt b 24 2, 0) ∉ n.inaug.seen) (hs : leAt b 18 6 ≠ n.ident) :
    ∃ m, (n.counted p b).floodRx (.wire p (slice b 14 (16 + len)) b) = (true, m) ∧ Talks n m ∧ RoundKept n m ∧
      (∀ f : Fld, 32 * 0x10500000 ≤ f.key → m.rd f = n.rd f) ∧ m.inaug = n.inaug.heard p (slice b 14 (16 + len)) ∧ Relayed n p b (16 + len) m := by
  obtain ⟨m, hfl, htalks, htop, hin, hrel⟩ := h.first (by rw [h.key hty]; exact hk) hs
  exact ⟨m, hfl, htalks, ⟨htalks.ready, htalks.ident, htalks.log, htalks.epoch, by rw [hin]; rfl, by rw [hin]; rfl, by rw [hin]; rfl, by rw [hin]; rfl,
    htop _ (by decide)⟩, htop, hin, hrel⟩

theorem TopoArrives.current_iff {m : Node} (hin : m.inaug = n.inaug.heard p (slice b 14 (16 + len))) :
    m.current (slice b 14 (16 + len)) = true ↔ n.inaug.openR = true ∧ n.knows b := by
  have hround : topoRound (slice b 14 (16 + len)) = leAt b 24 2 := leAt_slice b (by omega)
  rw [Node.current, hin, topoSender_slice, hround]
  simp only [Inaug.heard, Bool.and_eq_true, List.any_eq_true, beq_iff_eq, Node.knows]

end First

/-- The frame joins the queue of the topology engine in a node that agrees. -/
theorem Talks.queues {n m : Node} (h : Talks n m) {b : List Byte} (hr : n.topoRoom b) (p : Nat) {t : Node} (ht : t.fab = (m.topoDeliver b p).fab) :
    QueuedTopo n t p b := .of_deliver fun _ => ⟨h.fab, h.epoch, h.topoRoom hr, ht⟩

/-- A partner violation is counted, whatever it records. -/
theorem Node.pviol_count (n : Node) (k x : Nat) (hk : (F.HLT_PVIOL_COUNT k).key ≠ F.MGT_FAULT_SOURCE.key) :
    (n.pviol k x).rd (F.HLT_PVIOL_COUNT k) = min (n.rd (F.HLT_PVIOL_COUNT k) + 1) (2 ^ 32 - 1) := by
  have hinc : (n.inc (F.HLT_PVIOL_COUNT k)).rd (F.HLT_PVIOL_COUNT k) = min (n.rd (F.HLT_PVIOL_COUNT k) + 1) (2 ^ 32 - 1) := Node.rd_inc_same n _
  unfold Node.pviol
  dsimp only
  split
  · rw [Node.fault_rd _ _ _ _ _ hk, hinc]
  · exact hinc

/-! ### A PROPOSE (R290) -/

/-- The PROPOSE is held. -/
def Node.proposeHeld (m : Node) (h : List Byte) : Node := { m with inaug := { m.inaug with proposes := m.inaug.proposes ++ [Flood.mk (topoSender h) h] } }

theorem Node.proposeHeld_turns (m : Node) (h : List Byte) : Turns m (m.proposeHeld h) := .inaug m rfl

theorem Node.proposeHeld_kept (m : Node) (h : List Byte) : RoundKept m (m.proposeHeld h) := .inaug m rfl rfl rfl rfl

section Propose

variable {n m : Node} {f : TopoIn} (hfl : n.floodRx f = (true, m))
include hfl

theorem Node.proposeRx_first : n.proposeRx f = if m.current f.h = true then
    (if ((m.proposeHeld f.h).topoDeliver f.frame f.port).inaug.proposed = true then
      match ((m.proposeHeld f.h).topoDeliver f.frame f.port).proposeBad f.h with
      | some c => ((m.proposeHeld f.h).topoDeliver f.frame f.port).sendAbort c
      | none => (m.proposeHeld f.h).topoDeliver f.frame f.port
    else (m.proposeHeld f.h).topoDeliver f.frame f.port) else m.pviol 2 f.port := by
  rw [Node.proposeRx, hfl]
  dsimp only
  rw [if_neg (by decide)]
  cases m.current f.h
  · rfl
  · rfl

theorem Node.proposeRx_agrees (hc : m.current f.h = true)
    (ha : m.inaug.proposed = false ∨ (leAt f.h 16 2 = m.inaug.dirEpoch ∧ leAt f.h 20 4 = m.inaug.dirDigest)) :
    n.proposeRx f = (m.proposeHeld f.h).topoDeliver f.frame f.port := by
  rw [Node.proposeRx_first hfl, if_pos hc]
  have hin := (Traffic.topoDeliver (m.proposeHeld f.h) f.frame f.port).inaug
  generalize (m.proposeHeld f.h).topoDeliver f.frame f.port = d at hin
  have hp : d.inaug.proposed = m.inaug.proposed := by rw [hin]; rfl
  have he : d.inaug.dirEpoch = m.inaug.dirEpoch := by rw [hin]; rfl
  have hd : d.inaug.dirDigest = m.inaug.dirDigest := by rw [hin]; rfl
  rcases ha with h | ⟨h1, h2⟩
  · rw [hp, h, if_neg (by decide)]
  · have hok : d.proposeBad f.h = none := by rw [Node.proposeBad, he, hd, h1, h2, if_neg (by simp), if_neg (by simp)]
    rw [hok]
    exact ite_self _

theorem Node.proposeRx_differs (hc : m.current f.h = true) (hp : m.inaug.proposed = true) {c : Nat} (hb : m.proposeBad f.h = some c) :
    n.proposeRx f = ((m.proposeHeld f.h).topoDeliver f.frame f.port).sendAbort c := by
  rw [Node.proposeRx_first hfl, if_pos hc]
  have hin := (Traffic.topoDeliver (m.proposeHeld f.h) f.frame f.port).inaug
  generalize (m.proposeHeld f.h).topoDeliver f.frame f.port = d at hin
  have hp' : d.inaug.proposed = true := by rw [hin]; exact hp
  have hb' : d.proposeBad f.h = some c := by
    rw [← hb, Node.proposeBad, Node.proposeBad, hin]
    rfl
  rw [if_pos hp', hb']

theorem Node.proposeRx_strange (hc : ¬ m.current f.h = true) : n.proposeRx f = m.pviol 2 f.port := by rw [Node.proposeRx_first hfl, if_neg hc]

end Propose

section

variable {s : State} {p : Nat} {b : List Byte} (hfit : s.node.fits) (hs : leAt b 18 6 ≠ s.node.ident)
include hfit hs

section Propose

variable (h : TopoArrives s.node p b 3 8) (hk : (3, leAt b 18 6, leAt b 24 2, 0) ∉ s.node.inaug.seen)
include h hk

theorem propose_held (hroom : s.node.topoRoom b) (ho : s.node.inaug.openR = true) (hknown : s.node.knows b)
    (ha : s.node.inaug.proposed = false ∨ (leAt b 30 2 = s.node.inaug.dirEpoch ∧ leAt b 34 4 = s.node.inaug.dirDigest)) : Yields (.propose p b) s (fun t =>
      (QueuedTopo s.node t p b ∧ Relayed s.node p b 24 t) ∧
      t.inaug.proposes = s.node.inaug.proposes ++ [Flood.mk (leAt b 18 6) (slice b 14 24)] ∧ t.inaug.openR = true) := by
  obtain ⟨m, hfl, htalks, -, -, hin, hrel⟩ := h.taken (by decide) hk hs
  have hrow := h.propose
  have he : leAt (slice b 14 24) 16 2 = leAt b 30 2 := leAt_slice b (by decide)
  have hd : leAt (slice b 14 24) 20 4 = leAt b 34 4 := leAt_slice b (by decide)
  have heq := Node.proposeRx_agrees hfl ((h.current_iff hin).mpr ⟨ho, hknown⟩) (by
    rw [hin]
    rcases ha with ha | ⟨h1, h2⟩
    · exact .inl ha
    · exact .inr ⟨he.trans h1, hd.trans h2⟩)
  have hkeep := htalks.trans (.of_turns (m.proposeHeld_turns (slice b 14 24)))
  have hkin : (m.proposeHeld (slice b 14 24)).inaug.proposes = s.node.inaug.proposes ++ [Flood.mk (leAt b 18 6) (slice b 14 24)] ∧
      (m.proposeHeld (slice b 14 24)).inaug.openR = true := by
    have hsender : topoSender (slice b 14 24) = leAt b 18 6 := topoSender_slice b 8
    rw [← hsender, Node.proposeHeld]
    dsimp only
    rw [hin]
    exact ⟨rfl, ho⟩
  have hrelk : Relayed s.node p b 24 (m.proposeHeld (slice b 14 24)) := Relayed.onto (m := m) hrel ⟨[], rfl⟩
  change _ = (m.proposeHeld (slice b 14 24)).topoDeliver b p at heq
  generalize m.proposeHeld (slice b 14 24) = k at heq hkeep hkin hrelk
  have hdel := Traffic.topoDeliver k b p
  refine Yields.of_steady (m := k.topoDeliver b p) (congrArg s.to (hrow.trans heq)) (hkeep.steady.trans (.of_traffic hdel)) hfit fun t ht => ?_
  refine ⟨⟨hkeep.queues hroom p ht.fab, (hrelk.onto hdel.out).onto ht.out⟩, ?_⟩
  rw [ht.inaug, hdel.inaug]
  exact hkin

theorem propose_aborts (hroom : s.node.topoRoom b) (ho : s.node.inaug.openR = true) (hknown : s.node.knows b) (hp : s.node.inaug.proposed = true) {c : Nat}
    (hb : s.node.proposeBad (slice b 14 24) = some c) (hc : c < 8) (h6 : c ≠ 6) : Yields (.propose p b) s (fun t =>
      (QueuedTopo s.node t p b ∧ Relayed s.node p b 24 t) ∧ Aborted s.node c t) := by
  obtain ⟨m, hfl, htalks, hround, -, hin, hrel⟩ := h.taken (by decide) hk hs
  have hrow := h.propose
  have heq := Node.proposeRx_differs hfl ((h.current_iff hin).mpr ⟨ho, hknown⟩) (by rw [hin]; exact hp) (c := c) (by
    rw [← hb, Node.proposeBad, Node.proposeBad, hin]
    rfl)
  have hkeep := htalks.trans (.of_turns (m.proposeHeld_turns (slice b 14 24)))
  have hkround := hround.trans (m.proposeHeld_kept (slice b 14 24))
  have hrelk : Relayed s.node p b 24 (m.proposeHeld (slice b 14 24)) := Relayed.onto (m := m) hrel ⟨[], rfl⟩
  change _ = ((m.proposeHeld (slice b 14 24)).topoDeliver b p).sendAbort c at heq
  generalize m.proposeHeld (slice b 14 24) = k at heq hkeep hkround hrelk
  have hdel := Traffic.topoDeliver k b p
  have hdround := hkround.trans (.topoDeliver k b p)
  have hq := fun t : Node => hkeep.queues hroom p (t := t)
  generalize k.topoDeliver b p = d at heq hdel hdround hq
  refine Yields.of_steady (congrArg s.to (hrow.trans heq)) ((hkeep.steady.trans (.of_traffic hdel)).trans (d.sendAbort_steady c)) hfit fun t ht => ?_
  exact ⟨⟨hq t (ht.fab.trans (d.sendAbort_fab c)), ((hrelk.onto hdel.out).onto (d.sendAbort_said c)).onto ht.out⟩,
    Aborted.onto (hdround.aborts hc h6) (.of_follows ht)⟩

/-- A PROPOSE of no current round is a partner violation. -/
theorem propose_strange (hno : s.node.inaug.openR = false ∨ ¬ s.node.knows b) : Yields (.propose p b) s (fun t =>
    t.inaug.proposes = s.node.inaug.proposes ∧
    t.rd (F.HLT_PVIOL_COUNT 2) = min (s.node.rd (F.HLT_PVIOL_COUNT 2) + 1) (2 ^ 32 - 1) ∧ t.fab = s.node.fab) := by
  obtain ⟨m, hfl, htalks, -, -, hin, -⟩ := h.taken (by decide) hk hs
  have hrow := h.propose
  have heq : _ = m.pviol 2 p := Node.proposeRx_strange hfl fun hc => by
    obtain ⟨h1, h2⟩ := (h.current_iff hin).mp hc
    rcases hno with hno | hno
    · rw [h1] at hno
      cases hno
    · exact hno h2
  have hkeep := Traffic.pviol m (k := 2) (by decide) p
  have hcount : m.rd (F.HLT_PVIOL_COUNT 2) = s.node.rd (F.HLT_PVIOL_COUNT 2) :=
    htalks.rd _ (not_sendKey_low (by decide)) (fun hi => absurd hi.1.1 (by decide))
  refine Yields.of_steady (congrArg s.to (hrow.trans heq)) (htalks.steady.trans (.of_traffic hkeep)) hfit fun t ht => ⟨?_, ?_, ?_⟩
  · rw [ht.inaug, hkeep.inaug, hin]
    rfl
  · rw [ht.rd _ (by decide), m.pviol_count 2 p (by decide), hcount]
  · rw [ht.fab, m.pviol_fab, htalks.fab]

end Propose

/-! ### A CONFIRM (R290, R292) -/

omit hfit hs in
/-- The CONFIRM is held. -/
def Node.confirmHeld (m : Node) (h : List Byte) : Node := { m with inaug := { m.inaug with confirms := m.inaug.confirms ++ [Flood.mk (topoSender h) h] } }

omit hfit hs in
theorem Node.confirmHeld_turns (m : Node) (h : List Byte) : Turns m (m.confirmHeld h) := .inaug m rfl

omit hfit hs in
theorem Node.confirmRx_current {n m : Node} {f : TopoIn} (hfix : n.fixCt f = f) (hfl : n.floodRx f = (true, m)) (hc : m.current f.h = true) :
    n.confirmRx f = (m.confirmHeld f.h).topoDeliver f.frame f.port := by
  rw [Node.confirmRx, hfix, hfl]
  dsimp only
  rw [if_neg (by decide), hc]
  rfl

theorem confirm_held (h : TopoArrives s.node p b 4 18) (hk : (4, leAt b 18 6, leAt b 24 2, 0) ∉ s.node.inaug.seen) (hroom : s.node.topoRoom b)
    (ho : s.node.inaug.openR = true) (hknown : s.node.knows b) (hheld : s.node.clock.held = none) : Yields (.confirmRound p b) s (fun t =>
      QueuedTopo s.node t p b ∧ t.inaug.openR = true ∧ t.inaug.confirms = s.node.inaug.confirms ++ [Flood.mk (leAt b 18 6) (slice b 14 34)]) := by
  obtain ⟨m, hfl, htalks, -, -, hin, -⟩ := h.taken (by decide) hk hs
  have hfix : (s.node.counted p b).fixCt (.wire p (slice b 14 34) b) = .wire p (slice b 14 34) b := by
    rw [Node.fixCt, h.wire.talks.clock.2.2.1, hheld]
  have hrow := h.confirm
  have heq := Node.confirmRx_current hfix hfl ((h.current_iff hin).mpr ⟨ho, hknown⟩)
  generalize s.node.counted p b = g at hrow heq
  have hkeep := htalks.trans (.of_turns (m.confirmHeld_turns (slice b 14 34)))
  have hkin : (m.confirmHeld (slice b 14 34)).inaug.openR = true ∧
      (m.confirmHeld (slice b 14 34)).inaug.confirms = s.node.inaug.confirms ++ [Flood.mk (leAt b 18 6) (slice b 14 34)] := by
    have hsender : topoSender (slice b 14 34) = leAt b 18 6 := topoSender_slice b 18
    rw [← hsender, Node.confirmHeld]
    dsimp only
    rw [hin]
    exact ⟨ho, rfl⟩
  change _ = (m.confirmHeld (slice b 14 34)).topoDeliver b p at heq
  generalize m.confirmHeld (slice b 14 34) = k at heq hkeep hkin
  have hdel := Traffic.topoDeliver k b p
  refine Yields.of_steady (m := k.topoDeliver b p) (congrArg s.to (hrow.trans heq)) (hkeep.steady.trans (.of_traffic hdel)) hfit fun t ht => ?_
  refine ⟨hkeep.queues hroom p ht.fab, ?_⟩
  rw [ht.inaug, hdel.inaug]
  exact hkin

/-! ### An ABORT (R291, R294) -/

section Abort

variable (h : TopoArrives s.node p b 5 4) (hk : (5, leAt b 18 6, leAt b 24 2, 0) ∉ s.node.inaug.seen) (hroom : s.node.topoRoom b)
include h hk hroom

omit hfit hs h hk hroom in
/-- The ABORT has been queued, and its cause is shown. -/
def Node.abortShown (m : Node) (p : Nat) (b : List Byte) (cause : Nat) : Node := (m.topoDeliver b p).wr F.TOP_INAUG_CAUSE cause

omit hfit hs h hk hroom in
theorem Node.abortShown_turns (m : Node) (p : Nat) (b : List Byte) (cause : Nat) : Turns (m.topoDeliver b p) (m.abortShown p b cause) :=
  .wr _ _ (inaugKey_of_offset (k := 0) (by decide))

omit hfit hs h hk hroom in
theorem Node.abortShown_kept (m : Node) (p : Nat) (b : List Byte) (cause : Nat) : RoundKept m (m.abortShown p b cause) := by
  have ht := m.abortShown_turns p b cause
  exact (RoundKept.topoDeliver m b p).trans ⟨ht.ready, ht.ident, ht.log, ht.epoch, rfl, rfl, rfl, rfl, Node.rd_wr_ne _ _ (by decide)⟩

omit hfit hs h hk hroom in
theorem Node.abortShown_inaug (m : Node) (p : Nat) (b : List Byte) (cause : Nat) : (m.abortShown p b cause).inaug = m.inaug := by
  rw [Node.abortShown, Node.wr_inaug, (Traffic.topoDeliver m b p).inaug]

omit hfit hs h hk hroom in
theorem Node.abortShown_cause (m : Node) (p : Nat) (b : List Byte) {cause : Nat} (h : cause < 8) : (m.abortShown p b cause).rd F.TOP_INAUG_CAUSE = cause := by
  rw [Node.abortShown, Node.rd_wr_same]
  exact Nat.mod_eq_of_lt h

/-- The commit, where one is scheduled, lies far enough ahead to be cancelled. -/
def Node.cancels (n : Node) : Bool :=
  match n.inaug.sched with
  | some c => n.farCommit c
  | none => true

omit hfit hs h hk hroom in
theorem Node.abortRx_first {n m : Node} {p : Nat} {h b : List Byte} (hfl : n.floodRx (.wire p h b) = (true, m)) {cause : Nat} (hcause : byteAt h 16 % 8 = cause) :
    n.abortRx (.wire p h b) = if (m.abortShown p b cause).current h = true ∧ (m.abortShown p b cause).cancels = true then
      (if cause = 6 then (m.abortShown p b cause).over63 else m.abortShown p b cause).dropRound cause else m.abortShown p b cause := by
  have hshow : n.abortRx (.wire p h b) = if !(m.abortShown p b cause).current h then m.abortShown p b cause else
      if !(m.abortShown p b cause).cancels then m.abortShown p b cause else
        (if cause = 6 then (m.abortShown p b cause).over63 else m.abortShown p b cause).dropRound cause := by
    rw [Node.abortRx, hfl, ← hcause]
    rfl
  rw [hshow]
  cases (m.abortShown p b cause).current h
  · simp
  · cases (m.abortShown p b cause).cancels <;> simp

theorem abort_drops (ho : s.node.inaug.openR = true) (hknown : s.node.knows b)
    (hsched : s.node.inaug.sched = none ∨ ∃ c, s.node.inaug.sched = some c ∧ s.node.clock.cycles + 500000 < c.count) (h6 : byteAt b 30 % 8 ≠ 6) :
    Yields (.abortRound p b) s (fun t => QueuedTopo s.node t p b ∧ RoundFailed s.node t (byteAt b 30 % 8)) := by
  obtain ⟨m, hfl, htalks, hround, -, hin, -⟩ := h.taken (by decide) hk hs
  have hrow := h.abort
  have hcause : byteAt (slice b 14 20) 16 % 8 = byteAt b 30 % 8 := congrArg (· % 8) (byteAt_slice b (by decide))
  have hlt : byteAt b 30 % 8 < 8 := Nat.mod_lt _ (by decide)
  generalize byteAt b 30 % 8 = cause at hcause hlt h6
  have heq := Node.abortRx_first hfl hcause
  have hkeep := hround.trans (m.abortShown_kept p b cause)
  have hshown := m.abortShown_cause p b hlt
  have hkin := (m.abortShown_inaug p b cause).trans hin
  have hsteady := (htalks.steady.trans (.of_traffic (.topoDeliver m b p))).trans (m.abortShown_turns p b cause).steady
  have hfab := (m.abortShown_turns p b cause).fab
  have hcycles : (m.abortShown p b cause).clock.cycles = s.node.clock.cycles := by
    rw [(m.abortShown_turns p b cause).clock, (Traffic.topoDeliver m b p).clock, htalks.clock.2.1]
  generalize m.abortShown p b cause = k at heq hkeep hshown hkin hsteady hfab hcycles
  have hgo : k.cancels = true := by
    have hks : k.inaug.sched = s.node.inaug.sched := by rw [hkin]; rfl
    rw [Node.cancels, hks]
    rcases hsched with hn | ⟨c, hc, hfar⟩
    · rw [hn]
    · rw [hc]
      exact decide_eq_true (by rw [hcycles]; exact hfar)
  rw [if_pos ⟨(h.current_iff hkin).mpr ⟨ho, hknown⟩, hgo⟩, if_neg h6] at heq
  refine Yields.of_steady (congrArg s.to (hrow.trans heq)) (hsteady.trans (Node.dropRound_steady k cause)) hfit fun t ht => ?_
  exact ⟨htalks.queues hroom p (ht.fab.trans ((Node.dropRound_fab k cause).trans hfab)), (hkeep.failed (Node.dropRound_failed h6 hshown)).onto (.of_follows ht)⟩

/-- An ABORT of no current round, or one that comes too late, shows its cause only. -/
theorem abort_shown (hno : s.node.inaug.openR = false ∨ ¬ s.node.knows b ∨ ∃ c, s.node.inaug.sched = some c ∧ c.count ≤ s.node.clock.cycles + 500000) :
    Yields (.abortRound p b) s (fun t => QueuedTopo s.node t p b ∧ t.rd F.TOP_INAUG_CAUSE = byteAt b 30 % 8 ∧
      t.inaug.openR = s.node.inaug.openR ∧ t.inaug.sched = s.node.inaug.sched ∧ t.inaug.reports = s.node.inaug.reports ∧
      t.inaug.confirms = s.node.inaug.confirms) := by
  obtain ⟨m, hfl, htalks, -, -, hin, -⟩ := h.taken (by decide) hk hs
  have hrow := h.abort
  have hcause : byteAt (slice b 14 20) 16 % 8 = byteAt b 30 % 8 := congrArg (· % 8) (byteAt_slice b (by decide))
  have hlt : byteAt b 30 % 8 < 8 := Nat.mod_lt _ (by decide)
  generalize byteAt b 30 % 8 = cause at hcause hlt
  have heq := Node.abortRx_first hfl hcause
  have hshown := m.abortShown_cause p b hlt
  have hkin := (m.abortShown_inaug p b cause).trans hin
  have hsteady := (htalks.steady.trans (.of_traffic (.topoDeliver m b p))).trans (m.abortShown_turns p b cause).steady
  have hfab := (m.abortShown_turns p b cause).fab
  have hcycles : (m.abortShown p b cause).clock.cycles = s.node.clock.cycles := by
    rw [(m.abortShown_turns p b cause).clock, (Traffic.topoDeliver m b p).clock, htalks.clock.2.1]
  generalize m.abortShown p b cause = k at heq hshown hkin hsteady hfab hcycles
  rw [if_neg] at heq
  · refine Yields.of_steady (congrArg s.to (hrow.trans heq)) hsteady hfit fun t ht => ⟨htalks.queues hroom p (ht.fab.trans hfab), ?_, ?_⟩
    · exact (ht.rd _ (by decide)).trans hshown
    · rw [ht.inaug, hkin]
      exact ⟨rfl, rfl, rfl, rfl⟩
  · rintro ⟨hc, hgo⟩
    obtain ⟨h1, h2⟩ := (h.current_iff hkin).mp hc
    rcases hno with hno | hno | ⟨c, hc, hnear⟩
    · rw [h1] at hno
      cases hno
    · exact hno h2
    · have hks : k.inaug.sched = some c := by rw [hkin]; exact hc
      rw [Node.cancels, hks] at hgo
      have hfar : k.clock.cycles + 500000 < c.count := of_decide_eq_true hgo
      omega

end Abort

end

end Sys2Proof.Machine
end

section
/-! PROOF. O48, part 3: a neighbour that changes the round, the TOPO outputs, and the statement (04 R148; 08 R282, R288 to R294). -/

namespace Sys2Proof.Machine

open Sys2Proof

/-! ### A new neighbour (R282, R294) -/

/-- A change that can still cancel the commit, or falls on a round which has proposed, ends the round. -/
theorem Node.changed_aborts {n : Node} (hw : n.topoWorks = true)
    (h : (n.inaug.sched = none ∧ n.inaug.openR = true ∧ n.inaug.proposed = true) ∨ ∃ c, n.inaug.sched = some c ∧ n.clock.cycles + 500000 < c.count) :
    n.changed 4 = n.sendAbort 4 := by
  rcases h with ⟨hs, ho, hp⟩ | ⟨c, hs, hfar⟩
  · exact Node.changed_proposed hw ho hs hp
  · rw [Node.changed, if_neg (by simp [hw]), hs]
    dsimp only
    rw [if_pos (show n.farCommit c = true from decide_eq_true hfar)]

/-- A change that comes too late is kept for the commit. -/
theorem Node.changed_late {n : Node} (hw : n.topoWorks = true) {c : Sched} (hs : n.inaug.sched = some c) (hnear : c.count ≤ n.clock.cycles + 500000) :
    n.changed 4 = { n with inaug := { n.inaug with late := true } } := by
  have hno : ¬ n.farCommit c = true := fun h => by
    have : n.clock.cycles + 500000 < c.count := of_decide_eq_true h
    omega
  rw [Node.changed, if_neg (by simp [hw]), hs]
  dsimp only
  rw [if_neg hno, if_neg (by decide)]

theorem WireIn.kept {n : Node} {p : Nat} {b : List Byte} (h : WireIn n p b) : RoundKept n (n.counted p b) := by
  have ht := h.talks
  have hin := h.inaug
  exact ⟨ht.ready, ht.ident, ht.log, ht.epoch, by rw [hin], by rw [hin], by rw [hin], by rw [hin], h.rd_top (by decide)⟩

/-- The HELLO of a neighbour that the directory does not record, once it has been recorded and queued: a change. -/
theorem hello_changes {n : Node} {p : Nat} {b : List Byte} (h : TopoArrives n p b 1 36) (hin : n.inSched (leAt b 18 6) = false)
    (hrec : (n.topPort p).recSet = false ∨ slice b 46 16 ≠ (n.topPort p).recVid) :
    ∃ k, n.topoRow p 1 b = k.changed 4 ∧ RoundKept n k ∧ Steady n k ∧ k.topoWorks = true ∧ k.clock.cycles = n.clock.cycles ∧
      k.inaug.sched = n.inaug.sched ∧ k.inaug.openR = n.inaug.openR ∧ k.inaug.proposed = n.inaug.proposed := by
  have hrow := h.hello rfl rfl
  have hkept := h.wire.kept
  have htalks := h.wire.talks
  have hinaug := h.wire.inaug
  have hport := h.wire.topPort p
  have hvid : slice (slice b 14 52) 0x20 16 = slice b 46 16 := slice_slice b (show 0x20 + 16 ≤ 52 by decide)
  generalize n.counted p b = g at hrow hkept htalks hinaug hport
  obtain ⟨f, hf⟩ : ∃ f, f = TopoIn.wire p (slice b 14 52) b := ⟨_, rfl⟩
  have hfh : f.h = slice b 14 52 := by rw [hf]; rfl
  have hfp : f.port = p := by rw [hf]; rfl
  have hrec' : (g.topPort f.port).recSet = false ∨ slice f.h 0x20 16 ≠ (g.topPort f.port).recVid := by
    rw [hfp, hport, hfh, hvid]
    exact hrec
  have heq := Node.helloRx_plain (n := g) (f := f) (by
    rcases hrec' with h1 | h1
    · exact .inl h1
    · exact .inr (.inl h1))
  dsimp only at heq
  have hset := RoundKept.setTopPort g f.port (g.heardHello f)
  have hturn := Turns.setTopPort g f.port (g.heardHello f)
  have hsin : (g.setTopPort f.port (g.heardHello f)).inaug = { g.inaug with ports := FMap.put {} g.inaug.ports f.port (g.heardHello f) } := rfl
  generalize g.setTopPort f.port (g.heardHello f) = m at heq hset hturn hsin
  have hdel := Traffic.topoDeliver m f.frame f.port
  have hdelk := RoundKept.topoDeliver m f.frame f.port
  generalize m.topoDeliver f.frame f.port = d at heq hdel hdelk
  obtain ⟨k, hk⟩ : ∃ k, k = if (!(g.topPort f.port).hello.isEmpty && slice (g.topPort f.port).hello 16 36 == slice f.h 16 36) = true then m else d := ⟨_, rfl⟩
  rw [← hk] at heq
  have hmk : Traffic m k ∧ RoundKept m k := by
    rw [hk]
    split
    · exact ⟨.refl m, .refl m⟩
    · exact ⟨hdel, hdelk⟩
  have hkin : k.inaug = { n.inaug with ports := FMap.put {} g.inaug.ports f.port (g.heardHello f) } := by rw [hmk.1.inaug, hsin, hinaug]
  have hsender : topoSender f.h = leAt b 18 6 := by
    rw [hfh]
    exact topoSender_slice b 36
  have hsched : k.inSched (topoSender f.h) = false := by
    rw [hsender, ← hin, Node.inSched, hkin, Node.inSched]
  have hnew : ((!(g.topPort f.port).recSet || slice f.h 0x20 16 != (g.topPort f.port).recVid) && !k.inSched (topoSender f.h)) = true := by
    rw [hsched]
    rcases hrec' with h1 | h1
    · simp [h1]
    · simp [bne_iff_ne.mpr h1]
  rw [if_pos hnew] at heq
  refine ⟨k, ?_, (hkept.trans hset).trans hmk.2, (htalks.steady.trans hturn.steady).trans (.of_traffic hmk.1), ?_, ?_, ?_⟩
  · rw [hrow, ← hf, heq]
  · exact hmk.1.topoWorks.trans (hturn.topoWorks.trans (htalks.topoWorks.trans h.wire.works))
  · rw [hmk.1.clock, hturn.clock, htalks.clock.2.1]
  · rw [hkin]
    exact ⟨rfl, rfl, rfl⟩

section
variable {s : State} {p : Nat} {b : List Byte} (hfit : s.node.fits) (h : TopoArrives s.node p b 1 36) (hin : s.node.inSched (leAt b 18 6) = false)
  (hrec : (s.node.topPort p).recSet = false ∨ slice b 46 16 ≠ (s.node.topPort p).recVid)
include hfit h hin hrec

theorem hello_aborts (hgo : (s.node.inaug.sched = none ∧ s.node.inaug.openR = true ∧ s.node.inaug.proposed = true) ∨
    ∃ c, s.node.inaug.sched = some c ∧ s.node.clock.cycles + 500000 < c.count) : Yields (.hello p b) s (Aborted s.node 4) := by
  obtain ⟨k, hrow, hkept, hsteady, hw, hcycles, h1, h2, h3⟩ := hello_changes h hin hrec
  have heq := Node.changed_aborts hw (by rw [h1, h2, h3, hcycles]; exact hgo)
  exact Yields.of_abort (congrArg s.to (hrow.trans heq)) hkept hsteady hfit (by decide) (by decide)

theorem hello_late {c : Sched} (hs : s.node.inaug.sched = some c) (hnear : c.count ≤ s.node.clock.cycles + 500000) : Yields (.hello p b) s (fun t =>
    t.inaug.late = true ∧ t.inaug.sched = s.node.inaug.sched ∧ t.inaug.openR = s.node.inaug.openR) := by
  obtain ⟨k, hrow, hkept, hsteady, hw, hcycles, h1, h2, h3⟩ := hello_changes h hin hrec
  have heq := Node.changed_late hw (h1.trans hs) (by rw [hcycles]; exact hnear)
  have hlate : Turns k { k with inaug := { k.inaug with late := true } } := .inaug k rfl
  refine Yields.of_steady (congrArg s.to (hrow.trans heq)) (hsteady.trans hlate.steady) hfit fun t ht => ?_
  rw [ht.inaug]
  exact ⟨rfl, h1, h2⟩

end

/-! ### The candidate and the commit (R288, R292, R293; 04 R148) -/

theorem Node.candWrite_cands (n : Node) (k : Nat) (ws : List Nat) : FMap.get [] (n.candWrite k ws).inaug.cands k = ws ∧
    ∀ j, j ≠ k → FMap.get [] (n.candWrite k ws).inaug.cands j = FMap.get [] n.inaug.cands j :=
  ⟨FMap.get_put_same .., fun _ hj => FMap.get_put_ne _ _ _ _ hj⟩

/-- A round asked for while one is open, or a commit is scheduled, is counted. -/
theorem Node.newEpoch_lost {n : Node} (h : n.inaug.openR = true ∨ n.inaug.sched ≠ none) :
    n.newEpoch.rd F.TOP_RENUM_NEWEP_LOST = min (n.rd F.TOP_RENUM_NEWEP_LOST + 1) (2 ^ F.TOP_RENUM_NEWEP_LOST.w - 1) ∧ n.newEpoch.inaug = n.inaug := by
  have heq : n.newEpoch = n.inc F.TOP_RENUM_NEWEP_LOST := by
    rw [Node.newEpoch, if_pos]
    rcases h with h | h
    · exact .inl h
    · exact .inr (Option.isSome_iff_ne_none.mpr h)
  rw [heq]
  exact ⟨Node.rd_inc_same n _, rfl⟩

theorem Node.newEpoch_starts {n : Node} (ho : n.inaug.openR = false) (hs : n.inaug.sched = none) (hw : n.topoWorks = true) : RoundStarted n n.newEpoch := by
  have heq : n.newEpoch = n.startRound := by
    rw [Node.newEpoch, if_neg]
    rw [ho, hs]
    decide
  rw [heq]
  exact Node.startRound_started hw ho hs

theorem Node.cancelCommit_none {n : Node} (h : n.inaug.sched = none) : n.cancelCommit = n := by
  rw [Node.cancelCommit, h, if_neg (by decide)]

/-- No commit is scheduled any more. -/
def Node.commitCleared (n : Node) : Node := { n with inaug := { n.inaug with sched := none, dirHeld := false } }

/-- The commit withdrawn, with what the word of the inauguration shows then. -/
theorem Node.cancelCommit_some {n : Node} (h : n.inaug.sched ≠ none) : n.cancelCommit.inaug.sched = none ∧ n.cancelCommit.inaug.dirHeld = false ∧
    n.cancelCommit.inaug.openR = n.inaug.openR ∧
    n.cancelCommit.rd F.TOP_INAUG_PHASE = if n.inaug.openR then 3 else if n.inGrace then 5 else 0 := by
  obtain ⟨l, hl⟩ := n.agreeCancel_out
  have heq : n.cancelCommit = if n.agreeCancel.commitCleared.inaug.openR then n.agreeCancel.commitCleared.phase 3 else n.agreeCancel.commitCleared.idlePhase := by
    rw [Node.cancelCommit, if_pos (Option.isSome_iff_ne_none.mpr h)]
    rfl
  have hm : n.agreeCancel.commitCleared.inaug = { n.inaug with sched := none, dirHeld := false } := by
    rw [hl]
    rfl
  generalize n.agreeCancel.commitCleared = m at heq hm
  have hgrace : m.inGrace = n.inGrace := by
    rw [Node.inGrace, hm]
    rfl
  have hopen : m.inaug.openR = n.inaug.openR := by rw [hm]
  rw [heq, hopen]
  split
  · refine ⟨?_, ?_, hopen, Node.rd_wr_same ..⟩ <;> rw [Node.phase, Node.wr_inaug, hm]
  · refine ⟨?_, ?_, hopen, ?_⟩
    · rw [Node.idlePhase, Node.phase, Node.wr_inaug, hm]
    · rw [Node.idlePhase, Node.phase, Node.wr_inaug, hm]
    · rw [Node.idlePhase, hgrace, Node.phase, Node.rd_wr_same]
      split <;> rfl

theorem MemOnly.setWord (n : Node) (w v : Nat) : MemOnly n (n.setWord w v) := ⟨_, rfl⟩

theorem MemOnly.foldl {α : Type} {g : Node → α → Node} (h : ∀ n x, MemOnly n (g n x)) (l : List α) (n : Node) : MemOnly n (l.foldl g n) := by
  induction l generalizing n with
  | nil => exact .refl n
  | cons x l ih => exact (h n x).trans (ih _)

/-- The word of the directory's entry `p` (R289). -/
def Inaug.dirWord (i : Inaug) (p w : Nat) : Nat :=
  if p = 0 then (if w = 0 then i.dirEpoch + 65536 * i.dirCount else if w = 1 then i.dirDigest else 0) else i.dirW p w

/-- The words of the directory in the shadow bank. -/
def Node.directoryWords (n : Node) (d : TabDef) : Node :=
  (List.range 64).foldl (fun a p => (List.range 8).foldl (fun a w => a.setWord (d.dataW true p + w) (n.inaug.dirWord p w)) a) n

theorem Node.directoryWords_memory (n : Node) (d : TabDef) : MemOnly n (n.directoryWords d) :=
  .foldl (fun a _ => .foldl (fun b _ => .setWord b _ _) _ a) _ n

theorem Node.writeDirectory_eq {n : Node} {d : TabDef} (h : n.tab 8 = some d) :
    n.writeDirectory = (n.directoryWords d).unpoison ((List.range 512).map (fun k => d.dataW true 0 + k)) := by
  rw [Node.writeDirectory, h]
  rfl

/-- The directory goes to memory, and what was poisoned there is good. -/
theorem Node.writeDirectory_memory (n : Node) : ∃ mem poison, n.writeDirectory = { n with mem := mem, poison := poison } := by
  cases h : n.tab 8 with
  | none => exact ⟨n.mem, n.poison, by rw [Node.writeDirectory, h]⟩
  | some d =>
    obtain ⟨mem, hm⟩ := n.directoryWords_memory d
    rw [Node.writeDirectory_eq h, hm]
    exact ⟨mem, _, rfl⟩

/-- The held directory is written, or kept for the end of the grace interval (R295). -/
theorem Node.directoryWrite_keeps (n : Node) : n.directoryWrite.regs = n.regs ∧
    n.directoryWrite.inaug = { n.inaug with dirHeld := n.inaug.dirHeld && n.inGrace } := by
  unfold Node.directoryWrite
  split
  · rename_i h
    obtain ⟨h1, h2⟩ := Bool.and_eq_true_iff.mp h
    obtain ⟨mem, poison, heq⟩ := Node.writeDirectory_memory { n with inaug := { n.inaug with dirHeld := false } }
    have hheld : (n.inaug.dirHeld && n.inGrace) = false := by
      cases hg : n.inGrace
      · exact Bool.and_false _
      · rw [hg] at h2
        cases h2
    rw [hheld, heq]
    exact ⟨rfl, rfl⟩
  · rename_i h
    have hheld : (n.inaug.dirHeld && n.inGrace) = n.inaug.dirHeld := by
      cases h1 : n.inaug.dirHeld
      · rfl
      · cases h2 : n.inGrace
        · rw [h1, h2] at h
          exact absurd rfl h
        · rfl
    rw [hheld]
    exact ⟨rfl, rfl⟩

/-- The node in which a commit is scheduled, before its directory is written. -/
def Node.commitSet (n : Node) (c : Sched) : Node :=
  (Node.wrs { n with inaug := { n.inaug with sched := some c, dirHeld := n.inaug.proposed } } [(F.TOP_COMMIT_SLO_SEC_LO, secOf c.time),
    (F.TOP_COMMIT_SHI_SEC_HI, secOf c.time / 2 ^ 32), (F.TOP_COMMIT_NS_NS, nsOf c.time)]).phase 4

theorem Node.commitSet_inaug (n : Node) (c : Sched) : (n.commitSet c).inaug = { n.inaug with sched := some c, dirHeld := n.inaug.proposed } := rfl

theorem nsOf_lt (t : Nat) : nsOf t < 2 ^ 30 := by
  have h : t % secU / nsU < 1000000000 := by
    rw [Nat.div_lt_iff_lt_mul (by decide)]
    exact lt_of_lt_of_eq (Nat.mod_lt _ (by decide)) (by decide)
  unfold nsOf
  omega

theorem Node.commitSet_shows (n : Node) (c : Sched) : (n.commitSet c).rd F.TOP_INAUG_PHASE = 4 ∧ (n.commitSet c).rd F.TOP_COMMIT_SLO_SEC_LO = secOf c.time % 2 ^ 32 ∧
    (n.commitSet c).rd F.TOP_COMMIT_SHI_SEC_HI = secOf c.time / 2 ^ 32 % 2 ^ 16 ∧ (n.commitSet c).rd F.TOP_COMMIT_NS_NS = nsOf c.time := by
  have hwrs : ∀ (m : Node) (f g h : Fld) (x y z : Nat), m.wrs [(f, x), (g, y), (h, z)] = ((m.wr f x).wr g y).wr h z := fun _ _ _ _ _ _ _ => rfl
  refine ⟨Node.rd_wr_same .., ?_, ?_, ?_⟩
  all_goals rw [Node.commitSet, Node.phase, Node.rd_wr_ne _ _ (by decide), hwrs]
  · rw [Node.rd_wr_ne _ _ (by decide), Node.rd_wr_ne _ _ (by decide), Node.rd_wr_same]
    rfl
  · rw [Node.rd_wr_ne _ _ (by decide), Node.rd_wr_same]
    rfl
  · rw [Node.rd_wr_same]
    exact Nat.mod_eq_of_lt (nsOf_lt _)

/-- T_commit as the node keeps it: past a grace interval by 20 ms (R293). -/
def Node.commitTime (n : Node) (sec ns : Nat) : Nat :=
  match n.inaug.graceEnd with
  | none => timeOf sec ns
  | some g => max (timeOf sec ns) (n.clock.now + ((g - n.clock.cycles) * 4 + 20000000) * 65536)

theorem Node.commitTime_eq (n : Node) (sec ns : Nat) : (match n.inaug.graceEnd with
    | some g => max (timeOf sec ns) (n.clock.now + (g - n.clock.cycles) * 4 * nsU + 20000000 * nsU)
    | none => timeOf sec ns) = n.commitTime sec ns := by
  unfold Node.commitTime
  cases n.inaug.graceEnd with
  | none => rfl
  | some g =>
    have hsum : n.clock.now + (g - n.clock.cycles) * 4 * nsU + 20000000 * nsU = n.clock.now + ((g - n.clock.cycles) * 4 + 20000000) * nsU := by
      rw [Nat.add_mul, Nat.add_assoc]
    exact congrArg (max (timeOf sec ns)) hsum

/-- The commit is set, its directory written or kept, and the agreement checkpoint streamed. -/
def Node.scheduled (n : Node) (e t : Nat) : Node :=
  let c : Sched := { epoch := e, time := t, count := n.clock.cycles + n.cyclesTo t }
  let m := (n.commitSet c).directoryWrite
  if m.streams then m.sendAgree (m.agreement c) else m

theorem Node.scheduleCommit_eq (n : Node) (e sec ns : Nat) : n.scheduleCommit e sec ns = n.scheduled e (match n.inaug.graceEnd with
    | some g => max (timeOf sec ns) (n.clock.now + (g - n.clock.cycles) * 4 * nsU + 20000000 * nsU)
    | none => timeOf sec ns) := by
  unfold Node.scheduleCommit Node.scheduled Node.commitSet
  rfl

theorem Node.scheduled_keeps (n : Node) (e t : Nat) :
    let c : Sched := { epoch := e, time := t, count := n.clock.cycles + n.cyclesTo t }
    (n.scheduled e t).regs = (n.commitSet c).regs ∧
      (n.scheduled e t).inaug = { n.inaug with sched := some c, dirHeld := n.inaug.proposed && n.inGrace } := by
  dsimp only
  unfold Node.scheduled
  dsimp only
  generalize ({ epoch := e, time := t, count := n.clock.cycles + n.cyclesTo t } : Sched) = c
  obtain ⟨h1, h2⟩ := (n.commitSet c).directoryWrite_keeps
  have hin := n.commitSet_inaug c
  have hgrace : (n.commitSet c).inGrace = n.inGrace := by rw [Node.inGrace, hin, Node.inGrace]
  rw [hgrace, hin] at h2
  generalize (n.commitSet c).directoryWrite = m at h1 h2
  split
  · obtain ⟨l, hl⟩ := m.sendBlocks_out true (m.agreement c).epoch (m.agreeBytes (m.agreement c))
    rw [Node.sendAgree, hl]
    exact ⟨h1, h2⟩
  · exact ⟨h1, h2⟩

theorem Node.scheduleCommit_shows (n : Node) (e sec ns : Nat) :
    (n.scheduleCommit e sec ns).inaug.sched =
        some { epoch := e, time := n.commitTime sec ns, count := n.clock.cycles + (n.commitTime sec ns - n.clock.now) / (4 * 65536) } ∧
      (n.scheduleCommit e sec ns).rd F.TOP_INAUG_PHASE = 4 ∧
      (n.scheduleCommit e sec ns).rd F.TOP_COMMIT_SLO_SEC_LO = secOf (n.commitTime sec ns) % 2 ^ 32 ∧
      (n.scheduleCommit e sec ns).rd F.TOP_COMMIT_SHI_SEC_HI = secOf (n.commitTime sec ns) / 2 ^ 32 % 2 ^ 16 ∧
      (n.scheduleCommit e sec ns).rd F.TOP_COMMIT_NS_NS = nsOf (n.commitTime sec ns) ∧
      (n.scheduleCommit e sec ns).inaug.dirHeld = (n.inaug.proposed && n.inGrace) := by
  have hunit : 4 * nsU = 4 * 65536 := by decide
  rw [n.scheduleCommit_eq, n.commitTime_eq, ← hunit]
  generalize n.commitTime sec ns = t
  obtain ⟨hregs, hin⟩ := n.scheduled_keeps e t
  obtain ⟨h1, h2, h3, h4⟩ := n.commitSet_shows { epoch := e, time := t, count := n.clock.cycles + n.cyclesTo t }
  have hrd : ∀ f, (n.scheduled e t).rd f = (n.commitSet { epoch := e, time := t, count := n.clock.cycles + n.cyclesTo t }).rd f := fun f => by
    rw [Node.rd, hregs, Node.rd]
  rw [hrd, hrd, hrd, hrd, hin]
  exact ⟨by rw [Node.cyclesTo], h1, h2, h3, h4, rfl⟩

/-! ### The agreement (R288 to R291) -/

/-- A search that finds one thing only. -/
theorem findSome_const {α β : Type} {g : α → Option β} {c : β} {l : List α} (h : ∀ x ∈ l, g x = none ∨ g x = some c) (he : ∃ x ∈ l, g x ≠ none) :
    l.findSome? g = some c := by
  induction l with
  | nil =>
    obtain ⟨x, hx, -⟩ := he
    cases hx
  | cons x l ih =>
    rcases h x List.mem_cons_self with hn | hs
    · rw [List.findSome?_cons_of_isNone (by rw [hn]; rfl)]
      refine ih (fun y hy => h y (List.mem_cons_of_mem _ hy)) ?_
      obtain ⟨y, hy, hne⟩ := he
      rcases List.mem_cons.mp hy with rfl | hy
      · exact absurd hn hne
      · exact ⟨y, hy, hne⟩
    · rw [List.findSome?_cons_of_isSome (by rw [hs]; rfl), hs]

/-- Pieces of one length, put together. -/
theorem getElem_flatten_even {α β : Type} {g : α → List β} {k : Nat} (hg : ∀ x, (g x).length = k) {l : List α} {i w : Nat} {x : α} (hi : l[i]? = some x)
    (hw : w < k) : (l.map g).flatten[k * i + w]? = (g x)[w]? := by
  induction l generalizing i with
  | nil => cases hi
  | cons y l ih =>
    rw [List.map_cons, List.flatten_cons]
    cases i with
    | zero =>
      obtain rfl : y = x := Option.some.inj hi
      rw [Nat.mul_zero, Nat.zero_add, List.getElem?_append_left (by rw [hg]; exact hw)]
    | succ i =>
      have hlen : (g y).length ≤ k * (i + 1) + w := by
        rw [hg, Nat.mul_succ]
        omega
      rw [List.getElem?_append_right hlen, hg, show k * (i + 1) + w - k = k * i + w by rw [Nat.mul_succ]; omega]
      exact ih hi

/-- Words at keys one behind the other. -/
theorem FMap.get_foldl_zipIdx (l : List Nat) : ∀ (m : FMap Nat) (k j : Nat), FMap.get 0 ((l.zipIdx k).foldl (fun m x => FMap.put 0 m (8 + x.2) x.1) m) (8 + j) =
    if k ≤ j ∧ j < k + l.length then l.getD (j - k) 0 else FMap.get 0 m (8 + j) := by
  induction l with
  | nil =>
    intro m k j
    rw [if_neg (by simp only [List.length_nil]; omega)]
    rfl
  | cons v l ih =>
    intro m k j
    rw [List.zipIdx_cons, List.foldl_cons, ih, List.length_cons]
    by_cases hj : j = k
    · subst hj
      rw [if_neg (by omega), if_pos (by omega), Nat.sub_self, FMap.get_put_same]
      rfl
    · by_cases hin : k ≤ j ∧ j < k + (l.length + 1)
      · rw [if_pos (by omega), if_pos hin, show j - k = j - (k + 1) + 1 by omega]
        rfl
      · rw [if_neg (by omega), if_neg hin, FMap.get_put_ne _ _ _ _ (by omega)]

theorem Inaug.candWords_length (i : Inaug) (p : Nat) : (i.candWords p).length = 8 := rfl

/-- The words of the candidate, one entry behind the other. -/
def Inaug.candAll (i : Inaug) : List Nat := ((List.range i.candCount).map (fun k => i.candWords (k + 1))).flatten

/-- The state of the inauguration once the candidate has been proposed for an epoch. -/
def Inaug.proposing (i : Inaug) (e : Nat) : Inaug :=
  { i with dir := (i.candAll.zipIdx).foldl (fun m x => FMap.put 0 m (8 + x.2) x.1) [], dirCount := i.candCount, dirEpoch := e,
           dirDigest := dirDigestOf e i.candCount i.candAll, proposed := true }

/-- The directory the node proposes is that of its candidate. -/
theorem Inaug.proposing_dirW (i : Inaug) (e : Nat) {k w : Nat} (hk : k < i.candCount) (hw : w < 8) :
    (i.proposing e).dirW (k + 1) w = (i.candWords (k + 1)).getD w 0 := by
  have hflat := getElem_flatten_even (g := fun k => i.candWords (k + 1)) (k := 8) (fun _ => rfl) (l := List.range i.candCount) (i := k) (w := w) (x := k)
    (by rw [List.getElem?_range hk]) hw
  have hlen : 8 * k + w < i.candAll.length := by
    have hsome : (i.candWords (k + 1))[w]? ≠ none := by
      rw [ne_eq, List.getElem?_eq_none_iff, i.candWords_length]
      omega
    by_contra hno
    exact hsome (hflat.symm.trans (List.getElem?_eq_none_iff.mpr (Nat.not_lt.mp hno)))
  rw [Inaug.dirW, Inaug.proposing]
  dsimp only
  rw [show 8 * (k + 1) + w = 8 + (8 * k + w) by omega, FMap.get_foldl_zipIdx, if_pos ⟨Nat.zero_le _, by omega⟩, Nat.sub_zero,
    List.getD_eq_getElem?_getD, Inaug.candAll, hflat, List.getD_eq_getElem?_getD]

theorem crcBit_lt {p c : Nat} (hp : p < 2 ^ 32) (hc : c < 2 ^ 32) : crcBit p c < 2 ^ 32 := by
  unfold crcBit
  split
  · exact Nat.xor_lt_two_pow (by omega) hp
  · omega

theorem crcByte_lt {p c : Nat} (b : Byte) (hp : p < 2 ^ 32) (hc : c < 2 ^ 32) : crcByte p c b < 2 ^ 32 := by
  have hx : c ^^^ b.toNat < 2 ^ 32 := Nat.xor_lt_two_pow hc (lt_of_lt_of_le b.isLt (by decide))
  unfold crcByte
  exact crcBit_lt hp (crcBit_lt hp (crcBit_lt hp (crcBit_lt hp (crcBit_lt hp (crcBit_lt hp (crcBit_lt hp (crcBit_lt hp hx)))))))

theorem crc32c_lt (l : List Byte) : crc32c l < 2 ^ 32 := by
  have hfold : ∀ (l : List Byte) (c : Nat), c < 2 ^ 32 → l.foldl (crcByte 0x82F63B78) c < 2 ^ 32 := fun l => by
    induction l with
    | nil => exact fun c hc => hc
    | cons b l ih => exact fun c hc => ih _ (crcByte_lt b (by decide) hc)
  exact Nat.xor_lt_two_pow (hfold l _ (by decide)) (by decide)

/-- The body of a PROPOSE, field by field (R277). -/
theorem Inaug.proposeBody_right (i : Inaug) (r : List Byte) : i.proposeBody ++ r = leBytes 2 i.dirEpoch ++ (leBytes 1 i.dirCount ++ ([0] ++ (leBytes 4 i.dirDigest ++ r))) := by
  simp only [Inaug.proposeBody, List.append_assoc]

/-- What a PROPOSE or a CONFIRM shows behind its header. -/
theorem proposeBody_shows (ty sender round epoch len : Nat) (i : Inaug) (r : List Byte) :
    let h := topoHeader ty sender round epoch len ++ (i.proposeBody ++ r)
    leAt h 16 2 = i.dirEpoch % 2 ^ 16 ∧ byteAt h 18 = i.dirCount % 256 ∧ leAt h 20 4 = i.dirDigest % 2 ^ 32 ∧ h.drop 24 = r := by
  have hlen := topoHeader_length ty sender round epoch len
  dsimp only
  generalize topoHeader ty sender round epoch len = hd at hlen
  rw [i.proposeBody_right]
  refine ⟨?_, ?_, ?_, ?_⟩
  all_goals simp (disch := simp [hlen]) only [leAt_skip, byteAt_skip, drop_skip, hlen, leBytes_length, List.length_singleton, Nat.reduceSub, leAt_here, byteAt_here,
    List.drop_zero, Nat.reducePow]

/-- The PROPOSE of the node for what it proposes. -/
def Node.proposeBytes (n : Node) (e : Nat) : List Byte := topoHeader 3 n.ident n.inaug.round n.epoch 8 ++ (n.inaug.proposing e).proposeBody

/-- The node holds its own PROPOSE and what it proposes. -/
def Node.proposeKept (n : Node) (e : Nat) : Node :=
  { n with inaug := { n.inaug.proposing e with proposes := n.inaug.proposes ++ [Flood.mk n.ident (n.proposeBytes e)] } }

/-- The node that has proposed, before its PROPOSE goes out. -/
def Node.proposing (n : Node) (e : Nat) : Node := (n.proposeKept e).phase 2

theorem Node.proposing_inaug (n : Node) (e : Nat) :
    (n.proposing e).inaug = { n.inaug.proposing e with proposes := n.inaug.proposes ++ [Flood.mk n.ident (n.proposeBytes e)] } := rfl

theorem Node.proposing_turns (n : Node) (e : Nat) : Turns n (n.proposing e) := by
  have h : Turns n (n.proposeKept e) := .inaug n rfl
  exact h.trans (.phase _ 2)

theorem Node.proposing_kept (n : Node) (e : Nat) : RoundKept n (n.proposing e) := by
  have h : RoundKept n (n.proposeKept e) := .inaug n rfl rfl rfl rfl
  exact h.trans (.phase _ 2)

/-- The node that has flooded its PROPOSE. -/
def Node.proposedOut (n : Node) (e : Nat) : Node := (n.proposing e).topoFlood (n.proposeBytes e)

section Agree

variable {n : Node} {e : Nat} (hs : n.inaug.sched = none) (ho : n.inaug.openR = true)

theorem Node.proposedOut_inaug (n : Node) (e : Nat) :
    (n.proposedOut e).inaug = { n.inaug.proposing e with proposes := n.inaug.proposes ++ [Flood.mk n.ident (n.proposeBytes e)] } := by
  rw [Node.proposedOut, (Traffic.topoFlood _ _).inaug, n.proposing_inaug]

theorem Node.proposedOut_kept (n : Node) (e : Nat) : RoundKept n (n.proposedOut e) := (n.proposing_kept e).trans (.topoFlood _ _)

include hs ho

theorem Node.agree0_eq : n.agree0 e = match (n.proposedOut e).inaug.proposes.findSome? (fun f => (n.proposedOut e).proposeBad f.body) with
    | some c => (n.proposedOut e).sendAbort c
    | none => n.proposedOut e := by
  have hno : ¬ n.inaug.sched.isSome = true := by
    rw [hs]
    decide
  have hout : Node.topoFlood (Node.phase { n with inaug := { n.inaug.proposing e with proposes := n.inaug.proposes ++ [Flood.mk n.ident (n.proposeBytes e)] } } 2)
      (n.proposeBytes e) = n.proposedOut e := rfl
  simp only [Inaug.proposing, Node.proposeBytes, Inaug.candAll] at hout
  simp only [Node.agree0, if_neg hno, if_pos ho, hout] <;>
  cases (n.proposedOut e).inaug.proposes.findSome? (fun f => (n.proposedOut e).proposeBad f.body) <;> rfl

omit hs ho in
/-- The digest of what the node proposes (R289). -/
def Inaug.candDigest (i : Inaug) (e : Nat) : Nat := dirDigestOf e i.candCount i.candAll

omit hs ho in
theorem Node.proposedOut_bad (n : Node) (e : Nat) (h : List Byte) : (n.proposedOut e).proposeBad h =
    if leAt h 16 2 ≠ e then some 2 else if leAt h 20 4 ≠ n.inaug.candDigest e then some 1 else none := by
  rw [Node.proposeBad, n.proposedOut_inaug]
  rfl

omit hs ho in
theorem Node.proposeBytes_shows (n : Node) (he : e < 2 ^ 16) : leAt (n.proposeBytes e) 16 2 = e ∧ byteAt (n.proposeBytes e) 18 = n.inaug.candCount % 256 ∧
    leAt (n.proposeBytes e) 20 4 = n.inaug.candDigest e := by
  obtain ⟨h1, h2, h3, -⟩ := proposeBody_shows 3 n.ident n.inaug.round n.epoch 8 (n.inaug.proposing e) []
  rw [List.append_nil] at h1 h2 h3
  exact ⟨h1.trans (Nat.mod_eq_of_lt he), h2, h3.trans (Nat.mod_eq_of_lt (crc32c_lt _))⟩

omit hs ho in
theorem Node.proposedOut_proposes (n : Node) (e : Nat) : (n.proposedOut e).inaug.proposes = n.inaug.proposes ++ [Flood.mk n.ident (n.proposeBytes e)] := by
  rw [n.proposedOut_inaug]

/-- Every PROPOSE the node holds agrees with its own: it has proposed (R290). -/
theorem Node.agree0_agrees (he : e < 2 ^ 16) (hall : ∀ f ∈ n.inaug.proposes, leAt f.body 16 2 = e ∧ leAt f.body 20 4 = n.inaug.candDigest e) :
    n.agree0 e = n.proposedOut e := by
  obtain ⟨h1, -, h3⟩ := n.proposeBytes_shows he
  rw [Node.agree0_eq hs ho, n.proposedOut_proposes]
  have hnone : (n.inaug.proposes ++ [Flood.mk n.ident (n.proposeBytes e)]).findSome? (fun f => (n.proposedOut e).proposeBad f.body) = none := by
    rw [List.findSome?_eq_none_iff]
    intro f hf
    rw [n.proposedOut_bad]
    rcases List.mem_append.mp hf with hf | hf
    · rw [if_neg (by simp [(hall f hf).1]), if_neg (by simp [(hall f hf).2])]
    · rw [List.mem_singleton.mp hf, if_neg (by simp [h1]), if_neg (by simp [h3])]
  rw [hnone]

/-- A PROPOSE the node holds differs from its own in this way alone: the round ends. -/
theorem Node.agree0_differs (he : e < 2 ^ 16) {c : Nat} (hall : ∀ f ∈ n.inaug.proposes, (n.proposedOut e).proposeBad f.body = none ∨ (n.proposedOut e).proposeBad f.body = some c)
    (hsome : ∃ f ∈ n.inaug.proposes, (n.proposedOut e).proposeBad f.body ≠ none) : n.agree0 e = (n.proposedOut e).sendAbort c := by
  obtain ⟨h1, -, h3⟩ := n.proposeBytes_shows he
  rw [Node.agree0_eq hs ho, n.proposedOut_proposes]
  have hfind : (n.inaug.proposes ++ [Flood.mk n.ident (n.proposeBytes e)]).findSome? (fun f => (n.proposedOut e).proposeBad f.body) = some c := by
    refine findSome_const (fun f hf => ?_) ?_
    · rcases List.mem_append.mp hf with hf | hf
      · exact hall f hf
      · left
        rw [n.proposedOut_bad, List.mem_singleton.mp hf, if_neg (by simp [h1]), if_neg (by simp [h3])]
    · obtain ⟨f, hf, hne⟩ := hsome
      exact ⟨f, List.mem_append_left _ hf, hne⟩
  rw [hfind]

theorem Node.agree0_otherEpoch (he : e < 2 ^ 16) (hsome : ∃ f ∈ n.inaug.proposes, leAt f.body 16 2 ≠ e)
    (hall : ∀ f ∈ n.inaug.proposes, leAt f.body 16 2 = e → leAt f.body 20 4 = n.inaug.candDigest e) : Aborted n 2 (n.agree0 e) := by
  have hbad : ∀ f ∈ n.inaug.proposes, (n.proposedOut e).proposeBad f.body = none ∨ (n.proposedOut e).proposeBad f.body = some 2 := fun f hf => by
    rw [n.proposedOut_bad]
    by_cases h : leAt f.body 16 2 = e
    · left
      rw [if_neg (by simp [h]), if_neg (by simp [hall f hf h])]
    · right
      rw [if_pos h]
  have hne : ∃ f ∈ n.inaug.proposes, (n.proposedOut e).proposeBad f.body ≠ none := by
    obtain ⟨f, hf, hne⟩ := hsome
    refine ⟨f, hf, ?_⟩
    rw [n.proposedOut_bad, if_pos hne]
    exact Option.some_ne_none _
  rw [Node.agree0_differs hs ho he hbad hne]
  exact (n.proposedOut_kept e).aborts (by decide) (by decide)

theorem Node.agree0_otherDigest (he : e < 2 ^ 16) (hsome : ∃ f ∈ n.inaug.proposes, leAt f.body 20 4 ≠ n.inaug.candDigest e)
    (hall : ∀ f ∈ n.inaug.proposes, leAt f.body 16 2 = e) : Aborted n 1 (n.agree0 e) := by
  have hbad : ∀ f ∈ n.inaug.proposes, (n.proposedOut e).proposeBad f.body = none ∨ (n.proposedOut e).proposeBad f.body = some 1 := fun f hf => by
    rw [n.proposedOut_bad, if_neg (by simp [hall f hf])]
    split
    · exact .inr rfl
    · exact .inl rfl
  have hne : ∃ f ∈ n.inaug.proposes, (n.proposedOut e).proposeBad f.body ≠ none := by
    obtain ⟨f, hf, hne⟩ := hsome
    refine ⟨f, hf, ?_⟩
    rw [n.proposedOut_bad, if_neg (by simp [hall f hf]), if_pos hne]
    exact Option.some_ne_none _
  rw [Node.agree0_differs hs ho he hbad hne]
  exact (n.proposedOut_kept e).aborts (by decide) (by decide)

omit hs ho in
/-- What the node shows once it has proposed. -/
theorem Node.proposedOut_shows (n : Node) (he : e < 2 ^ 16) :
    (n.proposedOut e).inaug.proposed = true ∧ (n.proposedOut e).inaug.dirEpoch = e ∧ (n.proposedOut e).inaug.dirCount = n.inaug.candCount ∧
      (n.proposedOut e).inaug.dirDigest = n.inaug.candDigest e ∧
      (∀ k w, k < n.inaug.candCount → w < 8 → (n.proposedOut e).inaug.dirW (k + 1) w = (n.inaug.candWords (k + 1)).getD w 0) ∧
      (n.proposedOut e).rd F.TOP_INAUG_PHASE = 2 ∧
      (∃ f ∈ (n.proposedOut e).inaug.proposes, f.sender = n.ident ∧ leAt f.body 16 2 = e ∧ byteAt f.body 18 = n.inaug.candCount % 256 ∧
        leAt f.body 20 4 = n.inaug.candDigest e) ∧
      Floods n (n.proposedOut e) 3 (n.inaug.round % 2 ^ 16) := by
  have hphase : (n.proposedOut e).rd F.TOP_INAUG_PHASE = 2 := by
    rw [Node.proposedOut, (Traffic.topoFlood _ _).topo_rd (by decide)]
    exact Node.rd_wr_same ..
  obtain ⟨h1, h2, h3⟩ := n.proposeBytes_shows he
  have hflood : Floods n (n.proposedOut e) 3 (n.inaug.round % 2 ^ 16) := by
    have hready := (n.proposing_turns e).ready
    rw [Node.proposedOut]
    generalize n.proposing e = m at hready
    rw [Node.proposeBytes]
    exact .of_flood (by decide) hready.native hready.free ⟨[], (List.nil_append _).symm⟩
  have hin := n.proposedOut_inaug e
  have hdigest : (n.inaug.proposing e).dirDigest = n.inaug.candDigest e := rfl
  refine ⟨congrArg Inaug.proposed hin, congrArg Inaug.dirEpoch hin, congrArg Inaug.dirCount hin, (congrArg Inaug.dirDigest hin).trans hdigest, fun k w hk hw => ?_,
    hphase, ⟨_, by rw [n.proposedOut_proposes]; exact List.mem_append_right _ (List.mem_singleton_self _), rfl, h1, h2, h3⟩, hflood⟩
  rw [n.proposedOut_inaug]
  exact n.inaug.proposing_dirW e hk hw

omit hs ho in
/-- What the node holds of an agreement on this epoch. -/
def Inaug.forEpoch (i : Inaug) (e : Nat) : Inaug := { i with dirEpoch := e }

omit hs ho in
/-- CT of the CONFIRM: node time plus 20 ms. -/
def Node.confirmTime (n : Node) : Nat := n.clock.now + 20000000 * nsU

omit hs ho in
/-- The CONFIRM of the node (R290). -/
def Node.confirmBytes (n : Node) (e : Nat) : List Byte :=
  topoHeader 4 n.ident n.inaug.round n.epoch 18 ++ (n.inaug.forEpoch e).proposeBody ++ leBytes 6 (secOf n.confirmTime) ++ leBytes 4 (nsOf n.confirmTime)

omit hs ho in
theorem Node.confirmBytes_shows (n : Node) (he : e < 2 ^ 16) : leAt (n.confirmBytes e) 16 2 = e ∧
    leAt (n.confirmBytes e) 24 6 = secOf n.confirmTime % 2 ^ 48 ∧ leAt (n.confirmBytes e) 30 4 = nsOf n.confirmTime := by
  have hns := nsOf_lt n.confirmTime
  obtain ⟨h1, -, -, h4⟩ := proposeBody_shows 4 n.ident n.inaug.round n.epoch 18 (n.inaug.forEpoch e) (leBytes 6 (secOf n.confirmTime) ++ leBytes 4 (nsOf n.confirmTime))
  have hbytes : n.confirmBytes e = topoHeader 4 n.ident n.inaug.round n.epoch 18 ++ ((n.inaug.forEpoch e).proposeBody ++
      (leBytes 6 (secOf n.confirmTime) ++ leBytes 4 (nsOf n.confirmTime))) := by
    simp only [Node.confirmBytes, List.append_assoc]
  rw [← hbytes] at h1 h4
  generalize n.confirmBytes e = b at h1 h4
  have hsec := leAt_drop b 24 0 6
  have hrest := leAt_drop b 24 6 4
  rw [h4] at hsec hrest
  refine ⟨h1.trans (Nat.mod_eq_of_lt he), hsec.symm.trans (leAt_here _ _ _), hrest.symm.trans ?_⟩
  have hlast : leAt (leBytes 6 (secOf n.confirmTime) ++ (leBytes 4 (nsOf n.confirmTime) ++ [])) 6 4 = nsOf n.confirmTime % 2 ^ 32 := by
    simp (disch := simp) only [leAt_skip, leBytes_length, Nat.reduceSub, leAt_here, Nat.reducePow]
  rw [List.append_nil] at hlast
  exact hlast.trans (Nat.mod_eq_of_lt (by omega))

omit hs ho in
/-- The node holds its own CONFIRM. -/
def Node.confirmKept (n : Node) (e : Nat) : Node :=
  Node.phase { n with inaug := { n.inaug with confirms := n.inaug.confirms ++ [Flood.mk n.ident (n.confirmBytes e)], confirmed := true, agreed := e } } 3

omit hs ho in
theorem Node.confirmKept_inaug (n : Node) (e : Nat) : (n.confirmKept e).inaug =
    { n.inaug with confirms := n.inaug.confirms ++ [Flood.mk n.ident (n.confirmBytes e)], confirmed := true, agreed := e } := rfl

omit hs ho in
theorem Node.confirmKept_ready (n : Node) (e : Nat) : Ready n (n.confirmKept e) := by
  have h : Turns n { n with inaug := { n.inaug with confirms := n.inaug.confirms ++ [Flood.mk n.ident (n.confirmBytes e)], confirmed := true, agreed := e } } := .inaug n rfl
  exact (h.trans (.phase _ 3)).ready

theorem Node.agree1_eq : n.agree1 e = (n.confirmKept e).topoFlood (n.confirmBytes e) := by
  have hno : ¬ n.inaug.sched.isSome = true := by
    rw [hs]
    decide
  have hout : Node.topoFlood (Node.phase { n with inaug :=
      { n.inaug with confirms := n.inaug.confirms ++ [Flood.mk n.ident (n.confirmBytes e)], confirmed := true, agreed := e } } 3)
      (n.confirmBytes e) = (n.confirmKept e).topoFlood (n.confirmBytes e) := rfl
  rw [← hout]
  simp only [Node.agree1, if_neg hno, if_pos ho, Node.confirmBytes, Node.confirmTime, Inaug.forEpoch]

theorem Node.agree1_shows (he : e < 2 ^ 16) : (n.agree1 e).inaug.confirmed = true ∧ (n.agree1 e).inaug.agreed = e ∧
    (n.agree1 e).inaug.dirEpoch = n.inaug.dirEpoch ∧ (n.agree1 e).rd F.TOP_INAUG_PHASE = 3 ∧ Floods n (n.agree1 e) 4 (n.inaug.round % 2 ^ 16) ∧
    ∃ f, (n.agree1 e).inaug.confirms = n.inaug.confirms ++ [f] ∧ f.sender = n.ident ∧ leAt f.body 16 2 = e ∧
      leAt f.body 24 6 = secOf n.confirmTime % 2 ^ 48 ∧ leAt f.body 30 4 = nsOf n.confirmTime := by
  have hready := n.confirmKept_ready e
  have hphase : (n.confirmKept e).rd F.TOP_INAUG_PHASE = 3 := Node.rd_wr_same ..
  have hin := n.confirmKept_inaug e
  have hshow := n.confirmBytes_shows he
  have hbytes : n.confirmBytes e = topoHeader 4 n.ident n.inaug.round n.epoch 18 ++ ((n.inaug.forEpoch e).proposeBody ++
      (leBytes 6 (secOf n.confirmTime) ++ leBytes 4 (nsOf n.confirmTime))) := by
    simp only [Node.confirmBytes, List.append_assoc]
  have hflood : Floods n ((n.confirmKept e).topoFlood (n.confirmBytes e)) 4 (n.inaug.round % 2 ^ 16) := by
    generalize n.confirmKept e = m at hready
    rw [hbytes]
    exact .of_flood (by decide) hready.native hready.free ⟨[], (List.nil_append _).symm⟩
  rw [Node.agree1_eq hs ho, (Traffic.topoFlood _ _).inaug, (Traffic.topoFlood _ _).topo_rd (by decide), hin]
  exact ⟨rfl, rfl, rfl, hphase, hflood, _, rfl, rfl, hshow⟩

end Agree

end Sys2Proof.Machine
end

section
/-! PROOF. O48: the statement on rounds (08 R285 to R294, R312). -/

namespace Sys2Proof.Machine

open Sys2Proof

/-- What a PROPOSE of another epoch, or of another digest, comes to. -/
theorem Node.proposeBad_epoch {n : Node} {b : List Byte} (h : leAt b 30 2 ≠ n.inaug.dirEpoch) : n.proposeBad (slice b 14 24) = some 2 := by
  have he : leAt (slice b 14 24) 16 2 = leAt b 30 2 := leAt_slice b (by decide)
  rw [Node.proposeBad, he, if_pos h]

theorem Node.proposeBad_digest {n : Node} {b : List Byte} (h : leAt b 30 2 = n.inaug.dirEpoch) (hd : leAt b 34 4 ≠ n.inaug.dirDigest) :
    n.proposeBad (slice b 14 24) = some 1 := by
  have he : leAt (slice b 14 24) 16 2 = leAt b 30 2 := leAt_slice b (by decide)
  have hd' : leAt (slice b 14 24) 20 4 = leAt b 34 4 := leAt_slice b (by decide)
  rw [Node.proposeBad, he, hd', if_neg (by simp [h]), if_pos hd]

/-- Settles O48, by the lemmas on discovery and agreement, on the frames of a round and on the TOPO outputs. -/
theorem rounds : Obligations.Rounds := by
  unfold Obligations.Rounds
  intro s p b hfit _
  dsimp only
  have hrel : ∀ {t : Node} {key : Nat × Nat × Nat × Nat}, floodKey (slice b 14 24) = key → Relayed s.node p b 24 t →
      ((lineOf p, key) ∉ s.node.inaug.relayed → s.node.nativeUp (acrossOf p) = true → s.node.txFree (acrossOf p) →
        ∃ h, Output.frame (acrossOf p) h ∈ t.out ∧ slice h 14 24 = slice b 14 24) := fun hk hr => hk ▸ hr
  refine ⟨fun ho he hp => ⟨fun hd hlen => discoveryEnd_closed ho he hp hd hlen, fun hd hlen => discoveryEnd_over hfit ho he hp hd hlen,
      discoveryTimeout_standard, discoveryTimeout_fails hfit ho he hp⟩,
    fun ho hp hc hl => proposeTimeout_fails hfit ho hp hc hl, fun ho hc hs hl => confirmTimeout_fails hfit ho hc hs hl,
    fun hwait ho hw hs => roundRetry_starts hfit hwait ho hw hs, fun hroom hs => ⟨fun h hk ho hknown => ⟨fun ha => ?_, fun hp he => ?_, fun hp he hd => ?_⟩,
      fun h hk hno => propose_strange hfit hs h hk hno, fun h hk ho hknown hheld => confirm_held hfit hs h hk hroom ho hknown hheld,
      fun h hk => ⟨fun ho hknown hsched h6 => abort_drops hfit hs h hk hroom ho hknown hsched h6, fun hno => abort_shown hfit hs h hk hroom hno⟩⟩,
    fun h hin hrec => ⟨hello_aborts hfit h hin hrec, fun c hs hnear => hello_late hfit h hin hrec hs hnear⟩, s.node.candWrite_cands,
    fun e he hs ho => ⟨fun hall => ?_, Node.agree0_otherEpoch hs ho he, Node.agree0_otherDigest hs ho he, Node.agree1_shows hs ho he⟩,
    fun e sec ns => s.node.scheduleCommit_shows e sec ns, ⟨Node.cancelCommit_none, Node.cancelCommit_some⟩, Node.newEpoch_lost, Node.newEpoch_starts⟩
  · exact Yields.imp (propose_held hfit hs h hk hroom ho hknown ha) fun t ⟨⟨hq, hr⟩, hrest⟩ => ⟨⟨hq, hrel (h.key (by decide)) hr⟩, hrest⟩
  · exact Yields.imp (propose_aborts hfit hs h hk hroom ho hknown hp (Node.proposeBad_epoch he) (by decide) (by decide)) fun t ⟨⟨hq, hr⟩, hrest⟩ =>
      ⟨⟨hq, hrel (h.key (by decide)) hr⟩, hrest⟩
  · exact Yields.imp (propose_aborts hfit hs h hk hroom ho hknown hp (Node.proposeBad_digest he hd) (by decide) (by decide)) fun t ⟨⟨hq, hr⟩, hrest⟩ =>
      ⟨⟨hq, hrel (h.key (by decide)) hr⟩, hrest⟩
  · rw [Node.agree0_agrees hs ho he hall]
    exact s.node.proposedOut_shows he

end Sys2Proof.Machine
end
